-- ==== Sys2Proof/Word.lean ====
section
/-! DEFINITION. The word types of the XK50 (R7, R12): a register is 32 bits wide, memory is addressed by the byte. -/
namespace Sys2Proof

/-- A control register (R12). -/
abbrev Word := BitVec 32
/-- One byte of memory (R7). -/
abbrev Byte := BitVec 8
/-- A scalar register of a thread (R109). -/
abbrev DWord := BitVec 64
/-- A global physical address (R24): 48 bits, kept as a natural number. -/
abbrev Addr := Nat

end Sys2Proof
end

