-- ==== Sys2Proof/Machine/Types.lean ====
section
/-! DEFINITION. The data types of commands and of the machine's state: masters, requests, thread instructions, tensor
operations and the records of each unit, in the spec's own names. -/
namespace Sys2Proof

/-- The fitted configuration (R1, R315). -/
structure Fitted where
  dramTop : Nat := 0x6000000000   -- first address above the populated DRAM: 384 GiB
  a22 : Bool := false             -- ordering code XK50-A22
  deriving DecidableEq, Repr

/-- A master of the global address map (R24, R30): who sends a request or touches a register. -/
inductive Master where
  | core (g : Nat)        -- a compute core, global number 0 to 255
  | dma (n ch : Nat)      -- DMA channel `ch` of compute die `n`, or of the I/O die (8)
  | kvc (d : Nat)         -- cache manager of compute die `d`
  | ingress | fusion | traverse | box
  | app (c : Nat)         -- application core 0 to 15
  | mgmt                  -- management core and its firmware
  | loader                -- the loader applying the topo image
  | pcie                  -- inbound PCIe
  | anchor (x : Nat)      -- a core of anchor A (0) or B (1)
  | peer (d u : Nat)      -- a compute die of the paired package, unit `u`
  | cairn                 -- the cairn monitor of anchor A
  | eth (m : Nat)         -- an Ethernet MAC's ring engine
  | can (k : Nat)         -- a CAN FD controller's ring engine
  deriving DecidableEq, Repr

/-- Atomic kinds in the order of the request word's code (R286). -/
inductive AtomicKind where
  | add | and | or | xor | min | max | minu | maxu | swap | cas | fadd
  deriving DecidableEq, Repr

/-- A memory request as its request word carries it (R93, R286). `data` holds a write's bytes, an atomic's operand
bytes followed by the compare value of CAS, a FILL's 8-byte pattern or a COPY's 8-byte source address. -/
structure Req where
  src : Master
  tag : Nat
  addr : Nat
  len : Nat
  data : List Byte := []
  kind : AtomicKind := .add   -- atomics only
  width : Nat := 4            -- atomics only: 4 or 8
  win : Nat := 0              -- window number of READ_WIN and WRITE_WIN
  prio : Nat := 1             -- PRIO of the flit (R91)
  deriving DecidableEq, Repr

/-- What a request was: the kinds a response answers. -/
inductive ReqOp where
  | read | write | atomicR | atomicN | fill | copy | readWin | writeWin | watch
  deriving DecidableEq, Repr

/-- A response on its way back to its source (R93, R94). -/
structure Resp where
  src : Master
  tag : Nat
  op : ReqOp
  status : Nat
  data : List Byte
  addr : Nat
  deriving DecidableEq, Repr

/-- Where a load's data goes in its thread (R112). -/
inductive Dest where
  | none
  | s (r : Nat)               -- scalar register
  | v (r : Nat)               -- a whole vector register, 64 bytes
  | lane (r i : Nat)          -- one lane of a vector register
  deriving DecidableEq, Repr

/-- A transaction slot of a core in use (R115). -/
structure Txn where
  src : Master
  tag : Nat
  thread : Nat
  op : ReqOp
  addr : Nat
  len : Nat
  data : List Byte
  kind : AtomicKind
  width : Nat
  dest : Dest
  pc : Nat                    -- address of the issuing instruction (R130)
  timedOut : Bool             -- FABRIC_ERR given; a late response is discarded (R101)
  deriving DecidableEq, Repr

/-- The pending-error record of a thread (R130). -/
structure PendErr where
  status : Nat
  pc : Nat
  addr : Nat
  isStore : Bool              -- a store or atomic completion, covered by FENCE S; else by FENCE L
  deriving DecidableEq, Repr

/-- The wait record of a thread (R109, R120). -/
structure WaitRec where
  addr : Nat
  pitch : Nat
  count : Nat
  timeout : Nat               -- cycles; 0 means none
  rd : Nat                    -- scalar register that receives the word
  rres : Nat                  -- scalar register that receives 0 satisfied or 1 timed out
  polling : Bool              -- no watch entry was free (R121)
  deriving DecidableEq, Repr

/-- The architectural state of a hardware thread (R109). -/
structure Thread where
  running : Bool := false
  pc : Nat := 0
  pitch : Nat := 0
  release : Nat := 0          -- core cycle count at the job's release, for CYCLE (R110)
  sregs : List (Nat × Nat) := []     -- s1 to s31, 64-bit; unlisted reads 0
  pregs : List (Nat × Nat) := []     -- p0 to p15, 16 bits each
  vregs : List (Nat × Nat) := []     -- lane 16 × r + i of v0 to v55, 32-bit
  vwritten : Nat := 0                -- bit r: v register r written since the thread started
  rm : Nat := 0                      -- rounding mode (R159)
  flags : Nat := 0                   -- [0] NV, [1] DZ, [2] OF, [3] UF, [4] NX (R159)
  fence : Nat := 0                   -- FENCE bits still awaited: [0] L, [1] S, [2] E (R117)
  signal : Option (Nat × Nat × Nat) := none  -- a SIGNAL (address, increment, status) that waits as FENCE S does (R119)
  wait : Option WaitRec := none
  waite : Option (Nat × Nat) := none         -- WAITE (engine, ticket)
  pendS : Nat := 0                   -- bit r: s register r awaits a load
  pendV : Nat := 0                   -- bit r: v register r awaits load data
  failS : Nat := 0                   -- bit r: destination of a failed access (R130)
  failV : Nat := 0
  err : Option PendErr := none
  deriving DecidableEq, Repr

/-- The halted thread: no live state (R109). -/
def Thread.halted : Thread := {}

/-- A number format by its code in R144. -/
abbrev Fmt := Nat

/-- Operations an engine accepts (R126). -/
inductive TensorKind where
  | mma | mmaSp | accCvt | accClr
  deriving DecidableEq, Repr

/-- Activation of ACC.CVT (R156). -/
inductive Activation where
  | none | relu | clip
  deriving DecidableEq, Repr

/-- A tensor operation: the fields R126, R144, R156 and R191 give its 32-byte descriptor. Offsets are from the start of
the engine's operand buffer. -/
structure TensorOp where
  kind : TensorKind
  fmtA : Fmt := 0
  fmtB : Fmt := 0
  acc : Bool := false
  m : Nat := 1
  k : Nat := 32
  aOff : Nat := 0
  bOff : Nat := 0xC000
  cOff : Nat := 0x18000
  accInt : Bool := false      -- ACC.CVT: the accumulators are INT32
  outFmt : Fmt := 7
  towardZero : Bool := false  -- ACC.CVT rounding mode
  sat : Bool := false
  act : Activation := .none
  clipLo : Nat := 0           -- FP32 bits
  clipHi : Nat := 0
  table : Nat := 0            -- global address of the 128-byte scale and bias table
  dst : Nat := 0              -- global address of row 0 of the output
  stride : Nat := 16
  deriving DecidableEq, Repr

/-- A queued tensor operation, with the thread that issued it and the address of that instruction (R117, R130). -/
structure EngOp where
  op : TensorOp
  thread : Nat
  pc : Nat
  deriving DecidableEq, Repr

/-- One engine: its queue, the row its running operation has reached, the granules written since release (R125, R132). -/
structure Engine where
  queue : List EngOp := []
  done : Bool := false        -- the operation at the head has been executed and not yet finished
  row : Nat := 0              -- rows done of a stopped operation (R132)
  granules : Nat := 0         -- bit i: 4 KiB granule i written since the job's release
  deriving DecidableEq, Repr

/-- State saved for one core by a pre-emption (R132, R255): live threads and engine control states. The bytes of the live
granules are in the save slot, in ascending offset. -/
structure SavedCore where
  threads : List (Nat × Thread)
  engines : List (Nat × Engine)
  granAddr : Nat              -- where the live granules begin in the slot
  faulted : Bool
  deriving DecidableEq, Repr

/-- A core entry of a bundle that a partition runs (R64): entry-table offset and thread mask. -/
structure CoreProg where
  part : Nat
  core : Nat
  entry : Nat
  mask : Nat
  deriving DecidableEq, Repr

/-- What a core holds beside its registers. -/
structure Core where
  faulted : Bool := false     -- a thread fault stopped issue for the job (R129)
  part : Nat := 0x1F          -- partition whose program runs on the core
  jobPitch : Nat := 0
  hasJob : Bool := false
  parked : Bool := false      -- issue stopped by pre-emption, parking or a window
  saved : Option SavedCore := none
  sw : Nat := 0               -- switch under way (R254): 1 to the borrower, 2 back to the lender, 3 parking
  bor : Nat := 0              -- borrower's job on this core in this pitch: 0 not run, 1 running, 2 arrived, 3 stopped
  cwatch : List Nat := []     -- core-memory words watched in the core itself (R121)
  rr : List Nat := []         -- last thread served by slots S, M, V0, V1 (R111)
  deriving DecidableEq, Repr

/-- A watch entry of a shared-memory bank (R121): word address and watching cores. -/
structure Watch where
  addr : Nat
  cores : List Nat
  deriving DecidableEq, Repr

/-- A watched word's new value on its way to a core (R121). -/
structure WatchMsg where
  core : Nat
  addr : Nat
  value : Nat
  deriving DecidableEq, Repr

/-- The link state of one rope port beside its registers (R102, R103). -/
structure Port where
  rxSeq : Nat := 0            -- sequence number expected next
  discarding : Bool := false  -- an uncorrectable flit was found and its resend is awaited
  retrySeq : Nat := 0
  retryAsked : Bool := false  -- a retry request is on its way to the sender
  runs : List (Nat × Nat) := []   -- symbol positions corrected in the last flits without a break, and how many flits
  txSeq : Nat := 0            -- next sequence number to send
  deriving DecidableEq, Repr

/-- A request for the box stage (R203, R204): its descriptor's fields. -/
structure BoxReq where
  part : Nat
  desc : Nat                  -- descriptor address
  op : Nat
  mode : Nat
  sfmt : Nat
  agn : Bool
  sig : Bool
  center : Bool
  levels : Nat
  classes : Nat
  nanch : Nat
  pitch : Nat
  preMax : Nat
  postMax : Nat
  iouThr : Nat
  clsMax : Nat
  logitThr : Nat
  scoreScale : Nat
  v0 : Nat
  v1 : Nat
  imgW : Nat
  imgH : Nat
  levelAddr : Nat
  outAddr : Nat
  cwAddr : Nat
  deriving DecidableEq, Repr

/-- What a started box request will write: its output bytes, flags and status (R211). -/
structure BoxRun where
  req : BoxReq
  out : List Byte
  status : Nat
  trunc : Bool
  nans : Nat                  -- boxes dropped for a NaN coordinate (R207)
  deriving DecidableEq, Repr

/-- An entry of a box request's level table (R205). -/
structure BoxLevel where
  scoreAddr : Nat
  boxAddr : Nat
  w : Nat
  h : Nat
  stride : Nat
  deriving DecidableEq, Repr

/-- A candidate of the box stage (R208): FP32 score, class, scan index, level, location, anchor. -/
structure BoxCand where
  score : Nat
  cls : Nat
  idx : Nat
  level : Nat
  x : Nat
  y : Nat
  anch : Nat
  deriving DecidableEq, Repr

/-- A decoded box: FP32 corners. -/
structure BoxRect where
  x1 : Nat
  y1 : Nat
  x2 : Nat
  y2 : Nat
  deriving DecidableEq, Repr

/-- A key-value cache request (R232, R233) as its descriptor gives it. -/
structure KvReq where
  part : Nat
  op : Nat
  cache : Nat
  seq : Nat
  sfmt : Nat
  pitch : Nat
  count : Nat
  rbPitch : Nat
  kAddr : Nat
  vAddr : Nat
  tokAddr : Nat
  cwAddr : Nat
  deriving DecidableEq, Repr

/-- A request that a cache manager has started (R236): what it allocated or attached, and where it leads. -/
structure KvRun where
  req : KvReq
  status : Nat := 0           -- first failing status, or 0
  handles : List (Nat × Nat) := []     -- (block, handle) allocated by an APPEND or attached by an OPEN
  evicted : List (Nat × Nat) := []     -- (block, handle) evicted by an APPEND
  first : Nat := 0            -- FIRST_POS after the request
  length : Nat := 0           -- LENGTH after the request
  hits : Nat := 0
  misses : Nat := 0
  collides : Nat := 0
  hashes : List (Nat × Nat) := []      -- (block, hash) of the blocks that an OPEN attached
  deriving DecidableEq, Repr

/-- A cache as its home manager holds it beside records, tree and tokens in memory (R224 to R231). -/
structure KvCache where
  owner : Nat := 0x1F         -- partition whose KVCACHE section defines it; 0x1F undefined
  home : Nat := 0
  queue : List KvReq := []
  run : Option KvRun := none
  free : List Nat := []       -- free handles
  ghosts : List (Nat × Nat × Nat × Nat) := []   -- (sequence, pitch, block, handle) evicted and kept intact (R225, R226)
  relGhosts : List Nat := []  -- handles of released sequences, until the next tick (R231)
  marked : List Nat := []     -- sequences whose record holds a mark (R226)
  hashes : List (Nat × Nat × Nat) := []   -- (sequence, block, hash) of full blocks (R227)
  fresh : Bool := false       -- changed or new: records and tree to be zeroed before the first request (R238)
  deriving DecidableEq, Repr

/-- What the pitch generator and the bivouac policy hold for one partition beside its registers. -/
structure PartAux where
  defined : Bool := false     -- the image in force defines the partition
  started : Bool := false     -- R76
  hadJob : Bool := false      -- had a job in the current pitch
  jobDone : Bool := false     -- the job's barrier completed
  cancelled : Bool := false   -- the job was ended by a fault (R465)
  parkHeld : Bool := false    -- REQ held while LOADING (R262)
  wakeAfter : Bool := false   -- REQ cleared during PARKING (R264)
  wokenAt : Nat := 0          -- device time of the clear that began WAKING (R263)
  restartHeld : Bool := false -- a restart waits for the clear of REQ (R264): a new one where `rstDue` gives its cause
  faulted : Bool := false     -- the present job has had its first job fault (R465)
  firstDies : Option (List Nat) := none   -- dies of the first fault of the retry; empty: no die (R472)
  rstDue : Option Nat := none -- a restart decided, with its cause; it is entered at the next tick (R470)
  rstKeep : Option (Option Nat) := none   -- kept banks stay (R472): some die of a lasting fault, or a removal
  rstEntry : Nat := 0         -- entry pitch of the restart
  rstRejoin : Nat := 0        -- rejoin pitch (R471)
  rstStep : Nat := 0          -- 0 none, 5 reloading, 6 steps ended, 7 stays in RESTART (NOFIT)
  rstEndAt : Nat := 0         -- device time at which the steps ended
  rstTimes : List Nat := []   -- device times of the last entries into RESTART (R474)
  rstHold : Bool := false     -- third entry within 60 s: BIVOUAC at the rejoin tick
  restartIn : Bool := false   -- restart within the pitch decided and not done yet (R468)
  loaded : Bool := false      -- bundles passed and segments copied: starts at the next tick (R76)
  copyDue : Bool := false     -- released under a new structure whose segments are still being copied (R65)
  opEn : Nat := 0             -- operating points that the partition's CLOCKS section enables; 0: those of CLK_OP_EN (R526)
  deriving DecidableEq, Repr

/-- A descriptor that a DMA channel has taken (R274, R287): its 16 words, first failing status and failing address. -/
structure DmaTrack where
  words : List Nat
  status : Nat := 0           -- first failing status, 0 OK
  addr : Nat := 0             -- address of the failing request
  ran : Bool := false         -- every request issued and ended, or none to be issued
  noCw : Bool := false        -- writes no completion word (R287)
  deriving DecidableEq, Repr

/-- A DMA channel beside its registers. -/
structure DmaCh where
  active : Option DmaTrack := none
  ending : List DmaTrack := []   -- the completion tracker: issued and completing, oldest first
  fetch : Option Nat := none     -- address of a descriptor fetch in flight
  chain : Bool := false          -- that fetch is a chain fetch (R275)
  rawBad : Bool := false         -- the fetched descriptor has a reserved bit set that the shadow set does not hold
  deriving DecidableEq, Repr

/-- What the run of a DMA descriptor meets outside: latencies of its reads in ns (R307), cycles held by OUT_MAX, and the
statuses and data of requests to the paired package. -/
structure DmaEnv where
  lats : List Nat := []
  hold : Nat := 0
  ext : List (Nat × List Byte) := []
  deriving DecidableEq, Repr

/-- A regulated request in flight (R298). -/
structure RegReq where
  port : Nat
  src : Master
  tag : Nat
  level : Nat
  marked : Bool
  isRead : Bool
  entered : Nat               -- device time of entry
  deriving DecidableEq, Repr

/-- What the regulator counts for a port in the current pitch (R305). -/
structure RegPort where
  reqs : Nat := 0
  marks : Nat := 0
  deriving DecidableEq, Repr

/-- A request in a DDR5 subchannel queue (R322). -/
structure DReq where
  req : Req
  op : ReqOp
  level : Nat
  port : Nat
  seq : Nat                   -- arrival order at the controller
  deriving DecidableEq, Repr

/-- One DDR5 subchannel (R322 to R324, R327): queues, open rows, in-order banks. -/
structure SubCh where
  rq : List DReq := []
  wq : List DReq := []
  draining : Bool := false
  rows : List (Nat × Nat) := []        -- (bank index 4 × BG + BA, open row + 1); unlisted: closed
  inorder : List (Nat × Nat) := []     -- (bank, sequence number of the request that caused the mode)
  grants : Nat := 0
  postponed : List (Nat × Nat) := []   -- (bank, refreshes postponed)
  raa : List (Nat × Nat) := []         -- (bank, rolling activation count) (R327)
  deriving DecidableEq, Repr

/-- A row tracker entry (R328). -/
structure TrackEnt where
  row : Nat
  count : Nat
  cand : Nat
  weight : Nat
  deriving DecidableEq, Repr

/-- A throttle of a port on a channel (R329). -/
structure Throttle where
  chan : Nat
  port : Nat
  until_ : Nat                -- device time at which it ends
  usec : Nat := 0             -- microsecond being counted
  acts : Nat := 0             -- activations in that microsecond
  deriving DecidableEq, Repr

/-- The policy of the DRAM point (R332) and a change under way (R330). -/
structure DramPol where
  last : Nat := 0             -- bytes moved up to the last guard
  hist : List Nat := []       -- bytes of the last 64 pitches, newest first
  fcFrom : Nat := 0           -- first pitch whose guard may make the pending change
  deriving DecidableEq, Repr

/-- An entry of the DRAM error ring (R334). -/
structure DramErr where
  addr : Nat
  device : Nat
  uncorrectable : Bool
  deriving DecidableEq, Repr

/-- Second operand of a scalar instruction: an s register or a 32-bit immediate, sign-extended (R112). -/
inductive SArg where
  | reg (r : Nat)
  | imm (i : Nat)
  deriving DecidableEq, Repr

/-- The thread values of R110. -/
inductive ThreadValue where
  | thread | core | die | part | pitch | cycle | time
  deriving DecidableEq, Repr

/-- Scalar operations (R112, R159); SPAWN and HALT are commands of their own. -/
inductive SOp where
  | add | sub | mul | divs | divu | rems | remu
  | and | or | xor | shl | shr | sar
  | eq | ne | lt | ltu | le | leu
  | select (c : Nat)          -- rd := if s register c is non-zero then the first operand else the second
  | branchZ | branchNZ        -- branch by the second operand (bytes from this instruction) on the first being zero or not
  | value (v : ThreadValue)   -- read a thread value
  | readRm | writeRm          -- rounding mode (R159)
  | readFlags | clearFlags    -- sticky flags; clear the flags set in the first operand
  | readPred (p : Nat) | writePred (p : Nat)
  | undefined                 -- an instruction the spec does not define (R129)
  deriving DecidableEq, Repr

/-- Vector operations (R112, R158, R160). -/
inductive VOp where
  | fadd | fmul | fma | fmin | fmax
  | fcmpEq | fcmpNe | fcmpLt | fcmpLe
  | iadd | isub | imul | iand | ior | ixor | ishl | ishr | isar | imin | imax
  | icmpEq | icmpNe | icmpLt | icmpLe
  | toFmt (fmt : Nat) (sat : Bool)    -- FP32 lanes to a format, one code per lane
  | fromFmt (fmt : Nat)               -- one code per lane to FP32
  | exp2 | log2 | recip | rsqrt
  | redAdd | redMin | redMax | redIAdd
  | permute                           -- lane i of vd := lane (vb lane i mod 16) of va
  | undefined
  deriving DecidableEq, Repr

/-- A vector instruction: destination, three sources, an optional predicate and an optional scalar broadcast in place of
the second source (R112). -/
structure VInstr where
  op : VOp
  vd : Nat                    -- v register, or p register for a compare
  va : Nat
  vb : Nat := 0
  vc : Nat := 0
  pred : Option Nat := none
  bcast : Option Nat := none
  deriving DecidableEq, Repr

/-- Parts of the machine that can be disabled while work is in flight (R104). -/
inductive Block where
  | rope (n p : Nat) | box | kvc (d : Nat) | dma (n ch : Nat) | ctx (x : Nat)
  | eth (m : Nat) | can (k : Nat) | pcie | fusion | traverse
  deriving DecidableEq, Repr

/-- What the package has sent on its pins and links to the outside. -/
inductive Out where
  | eth (m : Nat) (frame : List Byte)
  | can (k id : Nat) (data : List Byte)
  | anchorCan (x id : Nat) (data : List Byte)     -- belay and status frames (R453, R454)
  | spi (k : Nat) (data : List Byte)
  | i2c (k addr : Nat) (data : List Byte)
  | pcieWrite (addr : Nat) (data : List Byte)
  | pcieRead (tag addr len : Nat)
  | pcieCfg (addr : Nat) (data : Option Nat)
  | pcieReply (tag status : Nat) (data : List Byte)
  | msix (v : Nat)
  | fsync (o : Nat) (level : Bool)
  | uart (char : Nat)                             -- an echoed character of the monitor
  | reply (code : Nat) (vals : List Nat)          -- a monitor reply: 0 OK, else the ERR code of R571, and its values
  | peerTick
  | peerReq (op : ReqOp) (r : Req)                -- a request sent to the paired package (R97)
  | peerReply (q : Resp)                          -- a response to a request of the paired package
  deriving DecidableEq, Repr

/-- A message that the anchor forwarder holds for both anchor dies (R433). -/
inductive FwdMsg where
  | report (task owner : Nat)                       -- a task end; owner as R458 codes it
  | traj (pitch : Nat) (record : List Byte)         -- a trajectory record (R449)
  | spot (ctx : Nat) (data : List Byte)             -- a spotter copy (R352, R443)
  | fused (pitch : Nat) (data : List Byte)          -- the fused object list (R404)
  | event (kind : Nat) (data : List Byte) (node unit : Nat)   -- an EVENT entry (R584)
  deriving DecidableEq, Repr

/-- A point of a trajectory record (R449); speeds and positions are signed. -/
structure TrajPt where
  tOff : Nat
  yaw : Nat
  x : Int
  y : Int
  v : Int
  deriving DecidableEq, Repr

/-- A trajectory record that passed its checks (R449, R450). -/
structure Traj where
  pitch : Nat
  tf : Nat
  pts : List TrajPt
  deriving DecidableEq, Repr

/-- A spotter object (R443). -/
structure SpotObj where
  cls : Nat
  score : Nat
  x : Int
  y : Int
  deriving DecidableEq, Repr

/-- What an anchor die holds beside its registers and SRAM (R431 to R457). -/
structure Anc where
  n : Nat := 0                -- pitch of its last tick
  tn : Nat := 0               -- T_n of that pitch in anchor time (R435)
  off : Int := 0              -- anchor time minus device time (R435): not 0 once device time was set anew (R35, R36)
  tickAt : Nat := 0           -- anchor time of the last sideband tick
  judge : Bool := false       -- the interval now open is judged (R44)
  faulted : Bool := false     -- tick fault raised, no sideband tick since
  suspended : Bool := true    -- task checks suspended until a released set arrives (R442)
  relIn : Option (Nat × Nat × Nat) := none   -- released set on its way: n, T_n, mask
  relWait : Bool := false     -- the released set of pitch n has not arrived yet
  released : Nat := 0         -- mask of the released partitions of pitch n
  reports : List (Nat × Nat) := []   -- task and µs of each report accepted in pitch n
  overran : List Nat := []    -- tasks found overrun in pitch n
  traj : Option Traj := none  -- record of pitch n that arrived in time with a correct form (R450)
  held : Option Traj := none  -- the held trajectory
  plan : Option Traj := none  -- the held trajectory that the present belay uses
  resumeRun : Nat := 0        -- good pitches in a row (R455)
  noRecRun : Nat := 0         -- pitches in a row without a valid record (R451)
  noneRun : Nat := 0          -- NONE verdicts in a row (R448)
  otherLost : Bool := false   -- the other die is SPOTTER_LOST
  causes : List Nat := []     -- causes of R451 that arose in pitch n
  spotStarted : Bool := false
  spotObjs : Option (List SpotObj) := none   -- result of the inference of pitch n
  spotFailed : Bool := false  -- the inference ended without a verdict (R444)
  spotExcl : Bool := false    -- more than EXCL_MAX buffers were not OK at the start (R445)
  layerBad : Option Nat := none   -- layer recomputed after a residue mismatch
  fused : Option (Nat × List Byte) := none   -- fused object list received for pitch n
  verdict : Option Nat := none    -- verdict given for pitch n: 0 NONE, 1 AGREE, 2 DISAGREE
  frameSeq : Nat := 0
  statSeq : Nat := 0
  stores : List (Nat × Nat) := []   -- store buffer: local address and word (R437)
  rolled : Bool := false      -- rolled back, the next checkpoint not committed yet (R438)
  heardAt : Nat := 0          -- anchor time of the last valid cross-link frame
  validSince : Nat := 0       -- start of the present run of valid frames
  slot : Nat := 0             -- slot in use
  knowsSlot : Bool := false
  deriving DecidableEq, Repr

/-- The sample in progress of a stream context (R344, R347). -/
structure Sample where
  pitch : Nat
  fs : Nat
  phase : Int
  excl : Nat := 0             -- 0x25 ING_RELOCK or 0x24 ING_PHASE decided at CAP (R351)
  link : Bool := false        -- ING_LINK
  shape : Bool := false       -- ING_SHAPE
  gap : Bool := false         -- ING_GAP
  lines : Nat := 0
  crc : Nat := 0              -- running signature
  raw : List (List Byte) := []   -- sensor lines kept for a RAW16 output
  k : Nat := 0                -- bands announced
  wErr : Nat := 0             -- first failing status of the sample's writes
  fe : Option Nat := none     -- frame end
  rpt : Bool := false         -- signature repeated (R350)
  npts : Nat := 0
  drop : Nat := 0
  tMin : Nat := 0
  tMax : Nat := 0
  spot : List Byte := []
  deriving DecidableEq, Repr

/-- A lidar point: FP32 codes of x, y, z and intensity, and its time (R347). -/
structure Pt where
  x : Nat
  y : Nat
  z : Nat
  i : Nat
  t : Nat
  deriving DecidableEq, Repr

/-- A stream context beside its registers (R349 to R359). -/
structure Ctx where
  part : Nat := 0x1F          -- partition whose INGRESS section defines it
  cur : Option Sample := none
  sigs : List Nat := []       -- SIG[0] to SIG[3]
  rptRun : Nat := 0
  freshRun : Nat := 0
  outRun : Nat := 0
  good : Nat := 0
  lastPitch : Option Nat := none   -- pitch of the last sample attributed
  lastFn : Nat := 0
  kept : Option Nat := none   -- pitch of the last frame kept
  finalFor : Option Nat := none    -- pitch of the last final announcement
  frames : Nat := 0
  pts : List Pt := []         -- the point ring, oldest first
  ptCnt : Nat := 0            -- points written to the ring since the entry took effect
  seqNo : Option Nat := none  -- last packet sequence number
  missing : Nat := 0          -- packets missing in this pitch
  packets : Nat := 0          -- packets of this pitch
  phiMin : Option Int := none -- least phase of this pitch's packets
  phiPrev : Int := 0          -- phase of the pitch before
  rev : Option Nat := none    -- revolution counter of the packets being accumulated
  revCrc : Nat := 0
  revRpt : Bool := false      -- the last completed revolution repeated
  deriving DecidableEq, Repr

/-- A supervision entry of the image (R49, R458). -/
structure TaskEnt where
  task : Nat
  owner : Nat                 -- 0 to 15 partition, 0x10 INGRESS, 0x11 FUSION, 0x12 TRAVERSE, 0x13 SPOTTER_A, 0x14 SPOTTER_B
  preemptN : Nat
  restartFits : Bool
  deadline : Nat
  boundHi : Nat
  boundLo : Nat
  retryUs : Nat
  deriving DecidableEq, Repr

/-- A track of the fusion unit (R397, R401). Numbers are FP32 codes; the x and y axes share one covariance
(position, cross, velocity), since both start alike and see the same noise. -/
structure Track where
  slot : Nat
  id : Nat
  cls : Nat
  state : Nat                 -- 0 tentative, 1 confirmed, 2 coasting
  x : Nat
  y : Nat
  vx : Nat
  vy : Nat
  pp : Nat
  pv : Nat
  vv : Nat
  yaw : Nat
  yawRate : Nat
  ya : Nat                    -- yaw covariance: angle, cross, rate
  yb : Nat
  yc : Nat
  z : Nat
  l : Nat
  w : Nat
  h : Nat
  time : Nat                  -- device time at which the state holds
  updAt : Nat                 -- instant of the last update
  updMask : Nat
  misses : Nat
  hist : List Bool            -- updated in the last pitches, newest first
  det : Nat                   -- DET of the object record
  deriving DecidableEq, Repr

/-- A detection record as read (R392), with its contributor and record index. -/
structure FDet where
  con : Nat
  recIdx : Nat
  frame : Bool                -- already in V at its instant
  yawOk : Bool
  inst : Nat
  cls : Nat
  score : Nat
  x : Nat
  y : Nat
  z : Nat
  l : Nat
  w : Nat
  h : Nat
  yaw : Nat
  varXY : Nat
  varYaw : Nat
  emb : Option (List Byte)
  deriving DecidableEq, Repr

/-- What the fusion unit holds for a contributor beside its registers (R393, R406). -/
structure FCon where
  announced : Option Nat := none     -- pitch (low 16 bits) of its last announcement in time
  part : Bool := false               -- marked FUS_PART for this pitch
  lateGrid : Option (Nat × List Byte) := none   -- late grid and its instant
  deriving DecidableEq, Repr

/-- A fusion run that has computed its outputs and not issued them yet. -/
structure FusRun where
  pitch : Nat
  header : List Byte
  gridHeader : List Byte
  records : List Byte
  grid : List Byte
  tracks : List Track
  nextId : Nat
  births : Nat
  dels : Nat
  deriving DecidableEq, Repr

/-- The fusion unit and the ego block beside their registers (R382 to R407). -/
structure Fus where
  tracks : List Track := []
  nextId : Nat := 1
  late : List FDet := []             -- late queue
  lateMask : Nat := 0                -- contributors of the late results held
  run : Option FusRun := none
  ranPitch : Option Nat := none      -- pitch of the last run started
  wheel : Option (Nat × Int × Int × Int) := none   -- last frame: arrival, left, right, articulation
  wheelThru : Bool := false          -- wheel input valid throughout the pitch so far
  imuThru : Bool := false
  imu : List Int := []               -- last valid gyro and accelerometer readings
  zeros : List Int := []             -- gyro z at the last 1,000 step ticks with both wheels at rest
  v : Nat := 0                       -- last speed and yaw rate, FP32
  omega : Nat := 0
  holdRun : Nat := 0                 -- pitches in HOLD or INVALID
  grids : List (Nat × List Byte) := []   -- grid of DATA_CON of the last two runs, newest first: pitch and cells
  posesDue : List (Nat × Nat × Nat) := []   -- step ticks without a pose: time, pitch, step
  calAcc : List (Nat × Nat × List Nat) := []   -- per context: pair count and accumulators
  calStaged : List (Nat × List Nat) := []      -- corrections to write at the next tick
  deriving DecidableEq, Repr

/-- A layer as the traverse unit's layer store holds it (R419). -/
structure TLayer where
  copiedIn : Option Nat := none   -- pitch in which it was copied
  epoch : Nat := 0
  wordPitch : Nat := 0
  cells : List Byte := []
  deriving DecidableEq, Repr

/-- A traverse run between its start and its issue (R421). -/
structure TrvRun where
  pitch : Nat
  hold : Option Nat           -- path checked in pass 0
  used : Nat                  -- masks of layers
  missing : Nat
  best : List (Nat × Nat)     -- cost and path, at most 8
  freePaths : Nat
  edges : List (Nat × Bool)   -- cost and freedom of each edge
  passes : Nat
  deriving DecidableEq, Repr

/-- The traverse unit beside its registers (R412 to R428). -/
structure Trv where
  committed : Bool := false   -- a first commit has succeeded
  mapFrom : Option Nat := none    -- address of the staged map being loaded
  mapReady : Option (List Byte) := none   -- a valid map awaiting its tick
  maps : List (List Byte) := [[], []]     -- the two map stores
  mapSeq : Nat := 0
  run : Option TrvRun := none
  deriving DecidableEq, Repr

/-- A frame on the cross link between the anchor dies (R434, R457). -/
inductive XMsg where
  | heartbeat (lost : Bool)         -- the sender is SPOTTER_LOST
  | verdict (n v : Nat)
  | belay (tb pitch : Nat) (held : Bool)
  | belayExit
  | slot (k : Nat)
  deriving DecidableEq, Repr

/-- The monitor trace (R577). -/
structure Trace where
  running : Bool := false
  addr : Nat := 0
  len : Nat := 0
  pos : Nat := 0
  lastPitch : Nat := 0        -- the trace stops after this pitch
  status : Nat := 0
  deriving DecidableEq, Repr

/-- A supply rail beside its registers (R521 to R523). -/
structure Rail where
  fallAt : Option Nat := none   -- the rail tripped its warning level and has not been restored: when it fell below it
  riseAt : Option Nat := none   -- above its restore level since; the restore timer runs
  below : Bool := false         -- fell below its reset level and has not been restored since
  deriving DecidableEq, Repr

/-- The thermal policy beside its registers (R533 to R541). Temperatures in 1/16 °C, power in 0.1 W. -/
structure Thm where
  r20 : Nat := 576716800        -- R in 0.1 mK/W × 2^20; 0.055 K/W at boot
  pulses : List Nat := []       -- times of the last two flow pulses, newest first
  residues : List Int := []     -- residuals of the last 100 samples in 1/16 K × 2^16, newest first
  goodFrom : Option Nat := none -- the conditions that end the floor have held since (R540)
  freeing : List Nat := []      -- partitions still to be freed from the floor, one per pitch
  undoFrom : Option Nat := none -- CAP has exceeded the prediction by HYST_W since (R535)
  pSum : Nat := 0               -- sum and number of the power samples since the last guard
  pCount : Nat := 0
  parked : List Nat := []       -- partitions parked by step 4, newest first
  hot : List Nat := []          -- die × 16 + partition, passed to the rebalancing policy (R537)
  deriving DecidableEq, Repr

/-- What the meters and counters of R545 to R549 hold at the tick that ends a window: energies in fJ, bytes, units. -/
structure BndAcc where
  ropeBnd : Nat
  ropeMeas : Nat
  ddrPin : Nat
  ddrRd : Nat
  engSlot : Nat
  engMac : Nat
  pkgE : Nat
  arithE : Nat
  deriving DecidableEq, Repr

/-- The bound window in progress (R544): the tick at which it began and its length. -/
structure Bnd where
  start : Option Nat := none
  winP : Nat := 30
  deriving DecidableEq, Repr

/-- A part of a register that a section sets: register address, bit range and value. -/
structure RegW where
  addr : Nat
  hi : Nat
  lo : Nat
  v : Nat
  deriving DecidableEq, Repr

/-- State of an image slot of an anchor die's flash (R71, R72): 0 EMPTY, 1 TRIAL, 2 CONFIRMED. -/
structure SlotSt where
  st : Nat := 0
  tried : Bool := false
  deriving DecidableEq, Repr

/-- The replay-protected store beside an anchor die (R499): its record and write counter. -/
structure Store where
  key : Bool := false         -- the store key is programmed
  topoSvn : Nat := 0
  fwSvn : Nat := 0
  certSvn : Nat := 0
  life : Nat := 0             -- LIFECYCLE: 0 development, 1 production
  ctr : Nat := 0
  deriving DecidableEq, Repr

/-- What an anchor die holds of its boot and identity beside its registers (R77, R495 to R503). -/
structure AncId where
  verified : Bool := false    -- steps 1 to 6 of R495 passed for the slot below
  slot : Nat := 0
  tried : List Nat := []      -- slots left behind under R72 in this boot
  topo : List Byte := []      -- SHA-256 of the topo image verified: the measurement at boot
  afw : List Byte := []       -- SHA-256 of the anchor firmware image
  mfw : List Byte := []       -- SHA-256 of the management firmware image
  meas : List Byte := []      -- the die's own running measurement (R77)
  prev : List Byte := []      -- the measurement before the last commit
  commitAt : Nat := 0         -- pitch of the last commit
  imgSvn : Nat := 0
  fwSvn : Nat := 0
  deriving DecidableEq, Repr

/-- A slot write in progress (R73). -/
structure SlotJob where
  slot : Nat
  code : Nat                  -- first failing check, 0 all passed
  sect : Nat
  deriving DecidableEq, Repr

/-- A quote in progress (R502): nonce, destination and the pitch at which it began. -/
structure Quote where
  nonce : List Byte
  dst : Nat
  pitch : Nat
  deriving DecidableEq, Repr

/-- The reset and release of the I/O domain (R496, R520, R524). -/
structure Boot where
  iod : Nat := 0              -- 0 the I/O domain is in reset, 1 released from stage 1, 2 from stage 2
  hold : Bool := false        -- no slot was accepted: the boot holds (R75)
  agreed : Bool := false      -- both dies agreed at step 7 of R495
  sysRst : Bool := false      -- SYS_RST_N is low
  clkFailed : List Nat := []  -- failed clock sources by the codes of CLK_FAIL.SRC
  afterStage2 : Bool := false -- the I/O die has been released since power-on (R456)
  quote : Option Quote := none
  deriving DecidableEq, Repr

/-- A model bundle that the structure in force names (R63, R65). -/
structure Bundle where
  part : Nat
  idx : Nat
  addr : Nat
  len : Nat
  digest : List Byte
  st : Nat := 0               -- 0 not announced, 1 announced, 2 passed, 3 refused
  model : Nat := 0
  mask : Nat := 0             -- CLU_MASK
  deriving DecidableEq, Repr

/-- A window declaration of a MEMMAP section (R292). -/
structure WinDecl where
  owner : Nat
  peer : Bool                 -- TYPE 1: use of a window of the paired package
  win : Nat
  users : Nat
  deriving DecidableEq, Repr

/-- A partial image in progress (R79 to R82). -/
structure Partial where
  part : Nat
  img : List Byte             -- the staged bytes that both anchor dies verify
  regs : List RegW := []      -- shadow copies
  tasks : List TaskEnt := []  -- staged task entries
  bundles : List Bundle := []
  wins : List WinDecl := []
  prepared : Bool := false
  acks : Nat := 0             -- bit x: anchor die x has acknowledged the staged entries
  guardPitch : Option Nat := none   -- armed in the guard of this pitch
  deriving DecidableEq, Repr

/-- What the loader holds beside its registers. -/
structure Load where
  bundles : List Bundle := []
  wins : List WinDecl := []
  topo : Option Partial := none
  supDev : List Byte := []    -- device-wide SUPERVISE section in force (R458)
  csi : List Byte := []       -- CSI-2 port entries in force (R360)
  dram : List Byte := []      -- fixed part of the DRAM section in force (R337)
  linkEn : List Nat := []     -- LINK_EN of the ROUTE section in force, one mask per compute die (R97)
  slotJob : Option SlotJob := none
  deriving DecidableEq, Repr

/-- A self-test slice under way on a compute die (R482). -/
structure Slice where
  die : Nat
  clu : Nat
  slice : Nat
  cycles : Nat := 0           -- cycles done at the last checkpoint
  deriving DecidableEq, Repr

/-- The fault controller beside its registers (R464 to R484). -/
structure Flt where
  lags : List (Nat × Nat) := []      -- (die, pitch) of each counted lag of the last 64 pitches (R479)
  removed : List Nat := []    -- dies removed since the last tick
  gone : List Nat := []       -- die × 16 + partition: its barrier report had arrived when the die was removed (R464)
  allDue : Bool := false      -- a restart of all compute dies is due at the next tick (R478)
  slices : List Slice := []
  passed : List (Nat × Nat) := []    -- (die × 4 + cluster, slice) passed in this window
  failed : List (Nat × Nat) := []    -- (die × 4 + cluster, slice) failed once, to be run again
  window : Nat := 0           -- number of the present self-test window
  deriving DecidableEq, Repr

/-- What the cairn monitor shows of one pitch (R576). -/
structure Pstat where
  pitch : Nat
  ovr : Nat
  released : Nat
  tasks : List Nat            -- task, plus 64 for a late report
  verdict : Nat
  missed : Nat
  ghosts : Nat
  state : Nat
  deriving DecidableEq, Repr

/-- The cairn monitor beside its registers (R569 to R578). -/
structure Mon where
  buf : List Nat := []        -- characters of the line being received
  lines : List (List Nat × Bool) := []   -- complete command lines, and whether input was dropped
  dropped : Bool := false     -- a character of the present line was dropped
  lastCr : Bool := false
  nonce : Option (List Byte × Nat) := none   -- challenge outstanding and the anchor time at which it expires (R505)
  expiry : Option Nat := none -- anchor time at which the level falls
  serial : Nat := 0           -- SERIAL of the debug certificate in use
  pstat : List Pstat := []    -- the last 64 pitches, newest first
  deriving DecidableEq, Repr

end Sys2Proof
end

