-- ==== Sys2Proof/Syntax.lean ====
section
/-! DEFINITION. The commands of the XK50: one constructor per row of spec/opcode_table.json, in the table's order. The
operands carry what arrives from outside (times, data, choices of the environment); everything else is in the state. -/
namespace Sys2Proof

/-- A command (an operation or an event) of the opcode table. -/
inductive Instr where
  /-- The pitch generator raises tick n at device time T_n and runs every tick-bound action of the I/O die. (R37) -/
  | pitchTick (now : Nat) (bad : List Nat)
  /-- A 1 ms step tick falls within the pitch and latches inertial reads and ego samples. (R41) -/
  | stepTick (k now : Nat)
  /-- A compute die applies the sideband tick 40 ns after the I/O die raises it. (R43) -/
  | computeTickApply (d now : Nat)
  /-- An anchor die receives a sideband tick and judges the interval since the previous one. (R44) -/
  | anchorSidebandTick (x now : Nat)
  /-- No tick arrives within P + 50 µs, so the anchor die raises a tick fault and enters belay. (R44) -/
  | tickFault (x now : Nat)
  /-- A follower applies the master's tick from a peer port 100 ns after the master raises it. (R45) -/
  | peerTick (port now : Nat) (bad : List Nat)
  /-- The follower sees no peer tick on either port within P + 50 µs and sets PEER_LOST. (R45) -/
  | peerLost (now : Nat)
  /-- An 802.1AS message on TIME_PORT is time-stamped, and the servo sets device time once or moves PCH_TRIM. (R36) -/
  | timeSyncMessage (m t trim : Nat)
  /-- The servo loses its grandmaster, holds the last trim and sets PCH_STATUS.HOLDOVER. (R36) -/
  | holdover
  /-- A write to PCH_TRIM is clamped to ±PCH_TRIM_LIM and takes effect. (R35) -/
  | pchTrimWrite (src : Master) (v : Nat)
  /-- The last 200 µs of the pitch begin, in which firmware policies and commit arming write. (R47) -/
  | guardStart (now : Nat)
  /-- A core whose threads have halted, with its slots and engine queues empty, arrives at the barrier. (R124) -/
  | coreArrive (g : Nat)
  /-- A partition's end-of-pitch barrier completes, and its PCH_DONE bit is set unless the completion is too late. (R53) -/
  | barrierComplete (p : Nat) (times : List (Nat × Nat)) (now : Nat)
  /-- TOPO_CMD SUBMIT starts verification of a staged partial image, or is refused as busy. (R82) -/
  | submit
  /-- TOPO_CMD CANCEL discards a partial image in progress unless it was written in the guard before the commit. (R85) -/
  | cancel (now : Nat)
  /-- TOPO_CMD CONFIRM marks the running slot CONFIRMED and raises the anti-rollback record. (R73) -/
  | confirm (okA okB : Bool)
  /-- TOPO_CMD WRITE_SLOT checks a staged slot package and writes it to the other slot of both flashes. (R73) -/
  | writeSlot
  /-- A slot write ends, marking the slot TRIAL or recording the failing check. (R73) -/
  | slotWriteDone
  /-- A write to TOPO_BREADY announces a model bundle in DRAM for hashing. (R65) -/
  | bundleReady (src : Master) (p k : Nat)
  /-- The loader finishes hashing a bundle and checks its digest and header. (R63) -/
  | bundleHashDone (p k : Nat)
  /-- The copies of a bundle's segments complete, so the cores may start their threads. (R65) -/
  | segmentCopyDone (p now : Nat)
  /-- Both anchor dies finish checks 0x01 to 0x05 and compare their digests. (R69) -/
  | partialVerifyDone
  /-- The loader finishes checks 0x06 to 0x0C, bundle hashing and the shadow writes. (R79) -/
  | partialPrepareDone
  /-- An anchor die acknowledges staged task entries. (R80) -/
  | superviseAck (x : Nat)
  /-- The loader arms the commit in the guard once both anchor dies have acknowledged. (R80) -/
  | partialArm (now : Nat)
  /-- A receiver takes a flit, correcting one symbol per codeword or detecting an uncorrectable one. (R90) -/
  | flitReceive (n p seqNo : Nat) (idle : Bool) (bad : List Nat)
  /-- A retry request makes the sender resend from the named flit. (R102) -/
  | linkRetryRequest (n p : Nat)
  /-- A link fails a resend, clock lock, credit timeout or training, and both ends stop using it. (R103) -/
  | linkDown (n p cause : Nat)
  /-- Once nothing is outstanding on a failed route, the source switches to the alternate route. (R103) -/
  | routeSwitch (d t : Nat)
  /-- A transaction reaches RTE_TMO, and the requester receives FABRIC_ERR. (R101) -/
  | transactionTimeout (src : Master) (tag : Nat)
  /-- A response returns to its source, frees a transaction slot and writes the destination or error record. (R116) -/
  | memoryResponse (src : Master) (tag status : Nat) (data : List Byte)
  /-- Clearing RPL_CTL.EN stops a rope port and starts its drain. (R104) -/
  | rplDisable (src : Master) (n p : Nat)
  /-- A draining block's accepted work is done, and the block becomes OFF. (R104) -/
  | drainDone (b : Block)
  /-- A block's drain timeout expires, and the remaining items end ABORTED. (R104) -/
  | drainTimeout (b : Block)
  /-- A read request is performed at its destination bank, memory or controller. (R286) -/
  | readReq (r : Req) (now : Nat)
  /-- A write request is performed at its destination. (R286) -/
  | writeReq (r : Req) (now : Nat)
  /-- A returning atomic is performed whole at its destination and returns the old value. (R114) -/
  | atomicReturning (r : Req) (now : Nat)
  /-- A non-returning atomic is performed whole at its destination. (R114) -/
  | atomicNonReturning (r : Req) (now : Nat)
  /-- A bank controller writes an 8-byte pattern over a range. (R173) -/
  | fillReq (r : Req) (now : Nat)
  /-- A bank controller copies a range within one compute die. (R174) -/
  | copyReq (r : Req) (now : Nat)
  /-- A read through a remote window is checked at the bank and performed or dropped. (R293) -/
  | readWin (r : Req) (now : Nat)
  /-- A write through a remote window is checked at the bank and performed or dropped. (R293) -/
  | writeWin (r : Req) (now : Nat)
  /-- A watch is placed on a word at its bank. (R121) -/
  | watchReq (r : Req) (now : Nat)
  /-- A corrected scratchpad word is written back in a free bank cycle. (R167) -/
  | correctedWriteBack
  /-- The scratchpad scrubber reads and corrects one word per INTERVAL cycles. (R169) -/
  | scrubRead (d : Nat)
  /-- A scalar instruction, including a read of a thread value or a rounding-mode access, issues and executes. (R112) -/
  | scalarInstruction (g t : Nat) (op : SOp) (rd ra : Nat) (arg : SArg) (cycle : Nat)
  /-- A vector instruction issues on a pipe and executes. (R158) -/
  | vectorInstruction (g t : Nat) (vi : VInstr)
  /-- Thirty-two FP32 values are encoded into an MX block and scale. (R161) -/
  | blockEncode (g t fmt vd rs v0 v1 : Nat)
  /-- An MX block is decoded exactly to FP32. (R161) -/
  | blockDecode (g t fmt va rs v0 v1 : Nat)
  /-- A scalar or vector load issues its transactions. (R115) -/
  | loadInstr (g t : Nat) (dest : Dest) (width rb off : Nat)
  /-- A scalar or vector store issues its transactions. (R115) -/
  | storeInstr (g t : Nat) (src : Dest) (width rb off : Nat)
  /-- A gather issues 16 lane loads. (R115) -/
  | gatherInstr (g t vd rb off vo : Nat)
  /-- A scatter issues 16 lane stores. (R115) -/
  | scatterInstr (g t vs rb off vo : Nat)
  /-- An atomic instruction is checked and issues its request. (R113) -/
  | atomicInstruction (g t : Nat) (kind : AtomicKind) (ret : Bool) (width rd rb off rv rc : Nat)
  /-- A thread starts a halted thread of its core. (R107) -/
  | spawn (g t t2 re ra rd : Nat)
  /-- A thread ends, raising any pending error first. (R107) -/
  | halt (g t : Nat)
  /-- A thread evaluates a completion word and places a watch if it is unsatisfied. (R120) -/
  | waitWord (g t rb off pitch count timeout rd rres : Nat)
  /-- A thread waits for an engine's ENG_DONE to reach its ticket. (R123) -/
  | waite (g t e ticket : Nat)
  /-- A thread fences its stores and then atomically updates a completion word. (R119) -/
  | signalInstr (g t rb off inc status : Nat)
  /-- A thread holds until its chosen load, store or engine conditions hold. (R117) -/
  | fenceInstr (g t m : Nat)
  /-- A thread queues a tensor operation on an engine of its core and receives a ticket. (R125) -/
  | tensorIssue (g t e rt : Nat) (op : TensorOp)
  /-- A watched word's new value reaches the watching cores, which re-evaluate their WAITs. (R121) -/
  | watchValueDelivered (g : Nat)
  /-- A core without a watch entry polls a word every 256 cycles. (R121) -/
  | waitPoll (g t : Nat)
  /-- A WAIT reaches its timeout and ends returning 1. (R120) -/
  | waitTimeout (g t : Nat)
  /-- An engine executes a matrix multiply-accumulate. (R126) -/
  | mma (g e : Nat)
  /-- An engine executes a 2:4-sparse multiply-accumulate. (R150) -/
  | mmaSp (g e : Nat)
  /-- An engine converts accumulator rows and writes them out. (R156) -/
  | accCvt (g e : Nat)
  /-- An engine zeroes accumulator rows. (R126) -/
  | accClr (g e : Nat)
  /-- An engine operation finishes and increments ENG_DONE. (R123) -/
  | engineOpFinish (g e : Nat)
  /-- A core gates its clock after 64 idle cycles. (R133) -/
  | coreClockGate (g : Nat)
  /-- A BANKPOWER phase begins, and banks start transitions to their phase state. (R182) -/
  | bankPhaseStart (d p k now : Nat)
  /-- A PD_WAIT bank's in-flight count reaches zero, and the bank goes dark and releases its watches. (R178) -/
  | bankDark (d b cyc : Nat)
  /-- A waking bank becomes ON and performs its held requests. (R181) -/
  | bankWakeDone (d b : Nat)
  /-- A write to BNK_PWR.OVR holds an owned bank ON against its schedule. (R186) -/
  | bankOvrWrite (src : Master) (d b : Nat) (v : Bool)
  /-- A write to BNK_SCRUB.INTERVAL is raised to BNK_SCRUB_MIN. (R169) -/
  | scrubIntervalWrite (src : Master) (d v : Nat)
  /-- A BOX_SUBMIT write submits a box stage request, which is checked and queued. (R206) -/
  | boxSubmit (r : Req)
  /-- The box stage starts the next queued request in priority order. (R213) -/
  | boxRequestStart
  /-- A box request writes its header and records and updates its completion word. (R211) -/
  | boxRequestDone (cyc : Nat)
  /-- Clearing BOX_CTL.EN starts the box stage drain. (R214) -/
  | boxDisable (src : Master)
  /-- A KVC_SUBMIT with OP OPEN opens a sequence and attaches matching prefix blocks. (R229) -/
  | kvOpen (r : Req)
  /-- A KVC_SUBMIT with OP APPEND quantises and places new positions. (R222) -/
  | kvAppend (r : Req)
  /-- A KVC_SUBMIT with OP RELEASE closes a sequence. (R231) -/
  | kvRelease (r : Req)
  /-- A KVC_SUBMIT with OP ROLLBACK restores a sequence from its mark. (R226) -/
  | kvRollback (r : Req)
  /-- A cache manager starts the next queued request or shard work. (R236) -/
  | kvWorkStart (d : Nat)
  /-- An APPEND commits, updates the record and signals its completion word. (R224) -/
  | appendCommit (c : Nat)
  /-- A failed mirror write stops mirroring of the cache and sets UNMIRRORED. (R235) -/
  | kvMirrorFail (c : Nat)
  /-- Clearing KVC_CTL.EN starts the cache manager drain. (R237) -/
  | kvcDisable (src : Master) (d : Nat)
  /-- A lend window opens, and the lender's cores are pre-empted for the borrower. (R252) -/
  | lendWindowStart (d c now : Nat)
  /-- A core's save and restore complete, and the incoming program starts. (R254) -/
  | switchComplete (g : Nat)
  /-- WIN_END_US is reached, unarrived borrower cores are stopped, and the lender is restored. (R253) -/
  | lendWindowEnd (d c now : Nat)
  /-- Every borrower core has arrived, so the window closes and the lender is restored. (R253) -/
  | lendWindowCloseEarly (d c : Nat)
  /-- Setting PRT_BIV.REQ starts parking of a partition, or is held or ignored by its state. (R262) -/
  | bivouacRequest (src : Master) (p : Nat)
  /-- Clearing PRT_BIV.REQ takes a parked partition to WAKING or to a held restart. (R263) -/
  | bivouacClear (src : Master) (p : Nat)
  /-- Every core is stopped and every bank is dark, so the partition is in BIVOUAC. (R262) -/
  | parkingComplete (p : Nat)
  /-- An anchor die receives the released set and uses it for checks. (R258) -/
  | releasedSetReceived (x : Nat)
  /-- No released set arrives within 10 µs, so the anchor die treats every started partition as released. (R258) -/
  | releasedSetTimeout (x now : Nat)
  /-- Writing DMA_CH_CTL.ARM arms the shadow descriptor. (R274) -/
  | dmaArm (src : Master) (n ch : Nat)
  /-- A channel takes the armed shadow into its active set. (R274) -/
  | dmaTake (n ch : Nat)
  /-- A chained descriptor fetch returns and arms the shadow. (R275) -/
  | dmaChainFetchDone (n ch : Nat)
  /-- A write to DMA_CH_FETCH_LO fetches a descriptor into the shadow. (R277) -/
  | dmaFetchWrite (src : Master) (n ch lo : Nat)
  /-- Writing DMA_CH_CTL.GO takes a halted channel out of HALTED. (R289) -/
  | dmaGo (src : Master) (n ch : Nat)
  /-- A MOVE descriptor runs through the funnel or as COPY requests. (R281) -/
  | dmaMove (n ch : Nat) (env : DmaEnv)
  /-- A FILL descriptor writes its pattern through FILL requests or the funnel. (R283) -/
  | dmaFill (n ch : Nat) (env : DmaEnv)
  /-- A COMPARE descriptor compares source and destination in walk order. (R284) -/
  | dmaCompare (n ch : Nat) (env : DmaEnv)
  /-- A COMPARE_PAT descriptor compares the destination with the pattern. (R284) -/
  | dmaComparePat (n ch : Nat) (env : DmaEnv)
  /-- Every request of a descriptor has ended, and its completion word is written. (R287) -/
  | dmaDescriptorComplete (n ch : Nat)
  /-- Clearing DMA_CH_CTL.EN starts the channel drain. (R291) -/
  | dmaDisable (src : Master) (n ch : Nat)
  /-- A write to DMA_WIN_CTL opens or closes a remote window within 4 cycles. (R294) -/
  | windowCtlWrite (src : Master) (w : Nat) (v : Bool)
  /-- A regulated request enters at the crossbar, is marked against its budget and gets its level. (R300) -/
  | regulatedRequestEntry (src : Master) (tag prio : Nat) (isRead : Bool) (now : Nat)
  /-- A read response updates the port's average latency and boost. (R301) -/
  | regulatedReadResponse (src : Master) (tag now : Nat)
  /-- A write to REG_BUDGET is clamped into [MIN, MAX] and takes effect. (R304) -/
  | regBudgetWrite (src : Master) (p v : Nat)
  /-- A subchannel scheduler issues its next eligible command. (R322) -/
  | dramSchedule (u now : Nat) (blocked : List Nat) (thr : Nat)
  /-- A bank's idle timer expires, and the bank is precharged. (R323) -/
  | bankIdlePrecharge (u b now : Nat)
  /-- A bank's refresh falls due and is issued or postponed. (R327) -/
  | refresh (u b : Nat) (burst : Bool) (thr : Nat)
  /-- The controller reads MR4 every 1 ms and sets the refresh rate. (R327) -/
  | mr4Read (c : Nat) (hot : Bool)
  /-- All tracker counts clear every 32 ms. (R328) -/
  | rowTrackerClear
  /-- A port's throttle period ends. (R329) -/
  | throttleExpire (c port now : Nat)
  /-- The patrol scrubber reads and corrects one DRAM line. (R321) -/
  | patrolScrub (c : Nat)
  /-- A write to DDR_FC.TARGET requests a DRAM point change or is ignored. (R331) -/
  | ddrFcTargetWrite (src : Master) (v : Nat)
  /-- At the guard, all channels change DRAM point through self-refresh. (R330) -/
  | frequencyChange (now ns : Nat)
  /-- Each channel reads its DQS oscillator every 1 ms and adjusts its write delays. (R333) -/
  | dqsOscillatorRead (c : Nat) (delta : Int)
  /-- The firmware retires a page and interrupts the application cores. (R335) -/
  | pageRetirement (now v : Nat)
  /-- A frame-sync output rises at T_n + OFF_US. (R343) -/
  | frameSyncRise (o now : Nat)
  /-- A frame-sync output falls after FSY_W_US. (R343) -/
  | frameSyncFall (o now : Nat)
  /-- A CSI-2 frame start is stamped, attributed to a pitch and its phase measured. (R349) -/
  | frameStart (x fs fn : Nat)
  /-- A CSI-2 line is checked and passed through the camera stages. (R344) -/
  | linePacket (x dt ecc : Nat) (crcOk : Bool) (bytes : List Byte)
  /-- A CSI-2 frame end is stamped and the frame's shape is checked. (R344) -/
  | frameEnd (x now : Nat)
  /-- A lidar UDP datagram is claimed, stamped and decoded into the point ring. (R347) -/
  | lidarDatagram (x : Nat)
  /-- At REF, DESKEW and VOX form the pitch's pillar grid. (R347) -/
  | lidarRef (x now : Nat)
  /-- A written band is announced on the context's completion word. (R352) -/
  | bandAnnounce (x : Nat)
  /-- A sample ends with header, spotter copy and final announcement. (R352) -/
  | finalAnnounce (x now : Nat)
  /-- DL_US passes, and contexts without a final announcement announce ING_MISSING or ING_LATE. (R355) -/
  | ingressDeadline (now : Nat)
  /-- Clearing ING_CTX_CTL.EN starts the context drain. (R359) -/
  | contextDisable (x : Nat)
  /-- Setting ING_CTX_CTL.EN restarts the context in RELOCK. (R359) -/
  | contextEnable (x : Nat)
  /-- An inertial transfer ends, and its record goes to the fusion unit. (R348) -/
  | spiStepTransferDone (k : Nat) (data : List Byte)
  /-- An interrupt source event sets pending and may raise its target. (R367) -/
  | icuEvent (src : Nat)
  /-- A read of ICU_CLAIM claims the highest pending source. (R367) -/
  | icuClaim (src : Master) (u : Nat)
  /-- Writing a source number to ICU_CLAIM completes it. (R367) -/
  | icuComplete (src : Master) (u n : Nat)
  /-- A store to ICU_MSG raises a message source. (R367) -/
  | icuMsg (v : Nat)
  /-- A frame with a good FCS reaches the receive ring, or is claimed, passed to the servo or dropped. (R369) -/
  | ethFrameReceive (m at_ : Nat) (f : List Byte)
  /-- A TAIL write passes descriptors of a ring to hardware, or is ignored. (R369) -/
  | ethTailWrite (src : Master) (m r t : Nat)
  /-- A transmit frame leaves at its frame boundary or LAUNCH, or ends IF_LATE. (R370) -/
  | ethFrameLaunch (m now : Nat)
  /-- A transmit frame ends, its descriptor is written, and TXQ1's completion word is updated. (R370) -/
  | ethFrameSent (m now : Nat)
  /-- Clearing ETH_CTL.EN starts the MAC drain. (R370) -/
  | ethDisable (src : Master) (m : Nat)
  /-- A received CAN FD frame is filtered and written to the ring or to the ego block. (R372) -/
  | canFrameReceive (k at_ idw flags len : Nat) (data : List Byte) (err : Bool)
  /-- A TAIL write passes CAN descriptors to hardware. (R372) -/
  | canTailWrite (src : Master) (k r t : Nat)
  /-- A CAN frame is offered for arbitration at its launch. (R372) -/
  | canFrameLaunch (k now : Nat)
  /-- A CAN frame is transmitted, or ends IF_LATE, and its descriptor is written. (R372) -/
  | canFrameSent (k now sof outcome : Nat)
  /-- The controller reaches bus-off. (R372) -/
  | canBusOff (k : Nat)
  /-- After 128 occurrences of 11 recessive bits, the controller rejoins if RECOVER is set. (R372) -/
  | canBusOffRecovery (k : Nat)
  /-- Clearing CAN_CTL.EN starts the controller drain. (R372) -/
  | canDisable (src : Master) (k : Nat)
  /-- Writing SPI_CMD.GO starts a host transfer, holds it, or is ignored. (R374) -/
  | spiGo (src : Master) (k w now : Nat)
  /-- A held host transfer starts after the step-tick transfer. (R374) -/
  | spiHeldStart (k : Nat)
  /-- A host transfer ends and sets DONE. (R374) -/
  | spiTransferDone (k : Nat) (data : List Byte)
  /-- Writing I2C_CMD.GO starts a command. (R376) -/
  | i2cGo (src : Master) (k w : Nat)
  /-- An I2C command ends with OK, NACK or arbitration lost. (R376) -/
  | i2cCommandEnd (k result nack : Nat) (data : List Byte)
  /-- SCL is held low beyond TMO_MS, and the bus is freed. (R376) -/
  | i2cTimeout (k : Nat)
  /-- The PCIe link state changes and sets LINK_EVT. (R378) -/
  | pcieLinkEvent (up : Bool) (gen width : Nat)
  /-- An outbound read gets no completion in 10 ms and returns FABRIC_ERR. (R378) -/
  | pcieOutboundTimeout (src : Master) (tag : Nat)
  /-- A write to PCIE_CFG_DATA sends a configuration write. (R380) -/
  | pcieCfgWrite (src : Master) (v : Nat)
  /-- A read of PCIE_CFG_DATA sends a configuration read. (R380) -/
  | pcieCfgRead (src : Master)
  /-- A configuration request completes or times out, and RESULT is recorded. (R380) -/
  | pcieCfgCompletion (result data : Nat)
  /-- A write to PCIE_MSIX_TRIG raises an MSI-X vector. (R379) -/
  | pcieMsixTrigger (src : Master) (v : Nat) (enabled : Bool)
  /-- An inbound PCIe request is mapped through a BAR or window, or is an MSI, or is refused. (R380) -/
  | pcieInboundRequest (write : Bool) (bar addr len : Nat) (data : List Byte) (tag now : Nat)
  /-- Clearing PCIE_CTL.EN starts the PCIe drain. (R378) -/
  | pcieDisable (src : Master)
  /-- Writing FUS_CTL.COMMIT requests the fusion shadow configuration. (R383) -/
  | fusCommit (src : Master)
  /-- A wheel frame is stamped and read by the ego block. (R386) -/
  | egoWheelFrame
  /-- The ego block writes the pose of a step tick to the ring. (R387) -/
  | egoPose
  /-- Every 64 pitches, the firmware solves the calibration accumulators and writes corrections. (R391) -/
  | calSolve
  /-- A contributor's completion word reaches the fusion unit. (R393) -/
  | contributorAnnounce (c : Nat)
  /-- The fusion run of the pitch starts once every EXPECT contributor is in, or at DL_US. (R393) -/
  | fusionRunStart (now : Nat)
  /-- The fusion unit writes its object list, grid, anchor copies and completion word, and reports. (R404) -/
  | fusionIssue
  /-- Clearing FUS_CTL.EN starts the fusion drain. (R407) -/
  | fusionDisable (src : Master)
  /-- Writing TRV_CTL.COMMIT requests the traverse shadow, decided at the tick. (R412) -/
  | trvCommit (src : Master)
  /-- Writing MAP_COMMIT starts loading the staged road map. (R414) -/
  | mapCommit (src : Master)
  /-- A loaded map is validated and awaits its tick, or sets MAP_ERR. (R414) -/
  | mapLoadDone
  /-- A write to TRV_HOLD names the hold path, or is refused. (R413) -/
  | trvHoldWrite (src : Master) (v : Nat)
  /-- An announced cost layer is copied into the layer store. (R419) -/
  | layerCopy (l : Nat)
  /-- The traverse run starts, checks its passes and reduces to candidates. (R419) -/
  | traverseRunStart (now : Nat)
  /-- OUT_US is reached with work left, and a no-path result is issued. (R424) -/
  | traverseOutDeadline (now : Nat)
  /-- The traverse unit writes candidates, header and completion word, and reports. (R425) -/
  | traverseIssue
  /-- Clearing TRV_CTL.EN starts the traverse drain. (R428) -/
  | traverseDisable (src : Master)
  /-- The lockstep pair commits a checkpoint and releases its store buffer. (R437) -/
  | lockstepCheckpoint (x : Nat)
  /-- A comparator mismatch rolls the pair back, or a recurrence makes the die reset itself. (R438) -/
  | lockstepMismatch (x : Nat) (one : Option Nat)
  /-- The anchor firmware watchdog expires. (R457) -/
  | anchorWatchdog (x : Nat)
  /-- An anchor die logs the cause, resets itself, reboots and resumes supervision. (R457) -/
  | anchorSelfReset (x cause : Nat)
  /-- A frame from the other anchor die is received over the cross link. (R434) -/
  | crossLinkFrame (x now : Nat) (good : Bool)
  /-- An anchor die sends its 1 ms heartbeat. (R434) -/
  | heartbeatSend (x : Nat)
  /-- No valid cross-link frame arrives for 5 ms, so ALONE is set. (R434) -/
  | crossLinkLoss (x now : Nat)
  /-- The anchor forwarder delivers a message to both anchor dies. (R433) -/
  | forwarderDeliver
  /-- A store to AMB_MBX reports a task end, which is accepted or refused. (R440) -/
  | taskReport (src : Master) (t : Nat)
  /-- At a task's DEADLINE_US an anchor die checks its report and logs an overrun. (R441) -/
  | deadlineCheck (x t now : Nat)
  /-- The spotter starts its inference for the pitch. (R443) -/
  | spotterStart (x now : Nat) (residue : List Nat)
  /-- The anchor cores compare the spotter objects with the fused list, give a verdict and report. (R445) -/
  | spotterCompare (x now : Nat)
  /-- A write to AMB_TRAJ_DONE completes a trajectory record. (R449) -/
  | trajectoryDone (src : Master) (p : Nat)
  /-- Each PERIOD_MS a die in belay sends a belay frame with plan points. (R453) -/
  | belayFrame (x now : Nat)
  /-- At T_n + 1 ms each anchor die sends its status frame. (R454) -/
  | statusFrame (x now : Nat)
  /-- An anchor die scrubs its SRAM every 10 s. (R431) -/
  | anchorSramScrub (x : Nat) (bad : List Nat)
  /-- An anchor die boots from mask ROM, verifies its slot and agrees with the other die. (R495) -/
  | anchorBoot (x : Nat) (seedOk storeOk wrapped idBad : Bool) (now : Nat)
  /-- The management firmware is written and read back, and the management core is released. (R496) -/
  | iodReleaseStage2 (sync : Option Nat) (badLinks : List (Nat × Nat)) (trained : List (Nat × Nat × List Byte)) (cal : List (Nat × Nat)) (now : Nat) (readOk : Bool)
  /-- A write to FLT_PART_RAISE raises job fault 0x04, or is only counted. (R464) -/
  | fltPartRaise (src : Master) (p : Nat)
  /-- The fault controller takes a job fault, ends the job and applies the retry doctrine. (R465) -/
  | jobFault (p : Nat)
  /-- A job restarts from its snapshot within the pitch once its transactions have drained. (R468) -/
  | jobRestartInPitch (p : Nat)
  /-- Writing FLT_DIE_CTL.READMIT tests a removed die and returns it to service if it passes. (R475) -/
  | readmit (src : Master) (d : Nat) (pass : Bool)
  /-- Writing FLT_CTL.ALL_RST restarts all compute dies. (R478) -/
  | allRst (src : Master)
  /-- Writing FLT_PART_CTL.UNHOLD clears HOLD and HELD. (R474) -/
  | unhold (src : Master) (p : Nat)
  /-- A write to FLT_SHARE is raised to at least 64 per die. (R480) -/
  | fltShareWrite (src : Master) (p hi v : Nat)
  /-- A self-test slice starts on a cluster that has slack. (R482) -/
  | sliceStart (d c k now : Nat)
  /-- Every 26,000 cycles a slice continues or is abandoned. (R482) -/
  | sliceCheckpoint (d now : Nat)
  /-- A slice passes or fails, and a repeated failure removes the die. (R483) -/
  | sliceEnd (d now : Nat) (pass : Bool)
  /-- A 100 ms self-test window ends and coverage is judged. (R484) -/
  | selfTestWindowEnd (now : Nat)
  /-- The 50 ms management firmware watchdog expires and the core restarts. (R485) -/
  | managementWatchdog
  /-- Writing SEC_Q_CTL.GO requests an attestation quote. (R502) -/
  | quoteGo (src : Master)
  /-- Anchor A writes the signed quote and sets SEC_Q_STAT. (R502) -/
  | quoteDone (now : Nat)
  /-- A pending store write is retried every 1 s. (R501) -/
  | storeWriteRetry (x : Nat) (ok : Bool)
  /-- DURATION_S ends, and the monitor returns to level 0. (R505) -/
  | debugExpiry (now : Nat)
  /-- A reference's stability counter reaches 65,536 cycles. (R518) -/
  | referenceStable (k now : Nat)
  /-- A PLL's lock detector holds for 256 reference cycles. (R519) -/
  | pllLock (d k : Nat)
  /-- The clock monitor declares a source failed, forces outputs and holds its domain. (R520) -/
  | clockSourceFail (k now : Nat)
  /-- The management core sets a cluster's operating point, or the write is ignored. (R514) -/
  | ptReqWrite (src : Master) (d c v : Nat)
  /-- An application core requests a cluster point through CLK_PT_SET. (R515) -/
  | ptSetWrite (src : Master) (w : Nat)
  /-- A rail trips its warning level, and the compute clusters step down. (R523) -/
  | supplyWarning (r mv fallAt now : Nat)
  /-- The restore timer reaches 1 ms, and the clusters return to PT_REQ. (R523) -/
  | supplyRestoreTimer (r now : Nat)
  /-- A rail falls below its reset level, and its domain is reset. (R521) -/
  | supplyReset (r mv now : Nat)
  /-- Any write to PWR_VMIN sets it to 0xFFF. (R529) -/
  | pwrVminWrite (src : Master) (r : Nat)
  /-- SYS_RST_N low for 1 µs resets the I/O domain via the anchor hold lines. (R524) -/
  | sysRstN (now : Nat)
  /-- ANA_RST_N or ANB_RST_N low for 1 µs resets its anchor die. (R524) -/
  | anchorResetPin (x now : Nat)
  /-- The rails rise, and each domain leaves reset after 1 ms above restore. (R525) -/
  | powerOn
  /-- Every 1 ms the I/O die samples sensors and power and updates R and the cap. (R533) -/
  | thermalSample (now p10 : Nat) (tin : Int) (ts : List Int) (pred : Nat)
  /-- A pulse arrives on COOL_FLOW. (R532) -/
  | flowPulse (now : Nat)
  /-- No flow pulse for FLOW_TMO_MS makes a floor event. (R539) -/
  | flowTimeout (now : Nat)
  /-- A sensor reaches 115 °C, and hardware stops the die's clusters or holds the I/O domain. (R541) -/
  | thermalTrip (d now : Nat)
  /-- All sensors of the tripped die fall below 105 °C, and it resumes. (R541) -/
  | thermalTripClear (d now : Nat)
  /-- Writes to CAP_USER, TJ_TGT or HYST_W are clamped. (R536) -/
  | thermalLimitWrite (src : Master) (which v : Nat)
  /-- A bound window ends and all factors are captured. (R544) -/
  | boundWindowEnd (a : BndAcc)
  /-- A character on the monitor UART is echoed, buffered or dropped. (R570) -/
  | uartCharacter (c : Nat)
  /-- The monitor lists the commands of the current level. (R575) -/
  | monHelp (now : Nat)
  /-- The monitor changes its UART rate after the OK reply. (R569) -/
  | monBaud (now : Nat)
  /-- The monitor issues a challenge nonce. (R505) -/
  | monChal (now : Nat)
  /-- The monitor checks an unlock token and raises the level. (R505) -/
  | monUnlock (b : List Byte) (now : Nat)
  /-- The monitor returns to level 0. (R505) -/
  | monLock (now : Nat)
  /-- The monitor reads one word through the global window. (R573) -/
  | monPeek (ext : Nat × Nat) (now : Nat)
  /-- The monitor reads a range of words. (R573) -/
  | monDump (ext : Nat × Nat) (now : Nat)
  /-- The monitor shows the topo in force and the partition states. (R575) -/
  | monTopo (now : Nat)
  /-- The monitor shows the records of the last pitches. (R576) -/
  | monPstat (now : Nat)
  /-- The monitor shows fault-log entries of anchor A or B. (R575) -/
  | monLog (now : Nat)
  /-- The monitor shows the state of the last trace. (R575) -/
  | traceShow (now : Nat)
  /-- The monitor writes one word and logs the write. (R573) -/
  | monPoke (ext now : Nat)
  /-- The monitor sets PRT_BIV.REQ of a partition. (R575) -/
  | partPark (now : Nat)
  /-- The monitor clears PRT_BIV.REQ of a partition. (R575) -/
  | partWake (now : Nat)
  /-- The monitor sends a restart request for a partition. (R575) -/
  | partRestart (now : Nat)
  /-- The monitor starts a trace into DRAM. (R577) -/
  | traceStart (now : Nat)
  /-- The monitor stops the trace. (R577) -/
  | traceStop (now : Nat)
  /-- The monitor receives a slot package and writes it to a slot of both flashes. (R578) -/
  | monSlot (b : List Byte) (now : Nat)
  /-- A write to a register without a row of its own is performed under its access codes and R12. (R8) -/
  | registerWrite (r : Req) (now : Nat)
  /-- A read of a _LO register captures the _HI half for that master. (R13) -/
  | registerReadLo (r : Req) (now : Nat)
  /-- A rail that tripped its warning level rises above its restore level, and the restore is sent to both anchor dies, PWR_DIP_LAST is measured and, for a compute rail, the restore timer starts. (R522) -/
  | supplyRestore (r mv now : Nat)
  /-- SYS_RST_N goes high, and the anchor dies re-read and check the slot's images and release the I/O die from stage 1 without repeating the boot verification. (R524) -/
  | sysRstNRelease (now : Nat)
  /-- A CSI-2 PHY gains or loses lane or trio synchronisation, changing ING_CSI_STAT.SYNC and setting PHY_ERR on loss. (R364) -/
  | csiSyncChange (p : Nat) (sync : Bool)
  /-- The PCS link of a MAC comes up or goes down, changing ETH_STAT.LINK and holding or freeing transmission. (R371) -/
  | ethLinkChange (m : Nat) (up : Bool)
  /-- The last wheel frame becomes older than WHEEL_TMO_MS, so the wheel input becomes invalid and WHEEL_OK clears. (R386) -/
  | egoWheelTimeout (now : Nat)
  /-- A cache manager finishes an OPEN, RELEASE or ROLLBACK, updating the sequence record, its counters and the completion word. (R236) -/
  | kvRequestEnd (c : Nat)
  /-- A waking cluster finishes powering up within 50 µs, PRT_CLU.PWR turns from waking to on, and its memories are ON before the first fetch. (R133) -/
  | clusterWakeDone (d c : Nat)
  deriving DecidableEq, Repr

end Sys2Proof
end

