-- ==== Sys2Proof/Decode.lean ====
section
/-! DEFINITION. The XK50 takes commands, not instruction words: no row of spec/opcode_table.json has a bit, so no word
spells a command. -/
namespace Sys2Proof

/-- The command that a word of the opcode table's bits spells: none, since no row has bits. -/
def decodeTableWord (_nbits _w : Nat) : Option Instr := none

end Sys2Proof
end

