-- ==== Sys2Proof/Machine/Bits.lean ====
section
/-! DEFINITION. Bit fields, little-endian byte strings and sparse tables: the vocabulary the whole model uses. -/
namespace Sys2Proof.Machine

/-- Bits `[hi:lo]` of a number (R7: both ends included). -/
def bits (w hi lo : Nat) : Nat := w / 2 ^ lo % 2 ^ (hi + 1 - lo)

/-- `w` with bits `[hi:lo]` replaced by the low bits of `v`. -/
def putBits (w hi lo v : Nat) : Nat :=
  w / 2 ^ (hi + 1) * 2 ^ (hi + 1) + v % 2 ^ (hi + 1 - lo) * 2 ^ lo + w % 2 ^ lo

/-- Bit `i` of a number. -/
def bit (w i : Nat) : Bool := w / 2 ^ i % 2 == 1

/-- `w` with bit `i` set or cleared. -/
def putBit (w i : Nat) (b : Bool) : Nat := putBits w i i (if b then 1 else 0)

/-- Addition that saturates at the largest `n`-bit number, as the counters of the register tables do. -/
def satAdd (n w k : Nat) : Nat := min (w + k) (2 ^ n - 1)

/-- A number read as two's complement of `n` bits. -/
def toSigned (n w : Nat) : Int := if w % 2 ^ n < 2 ^ (n - 1) then (w % 2 ^ n : Nat) else (w % 2 ^ n : Nat) - (2 ^ n : Nat)

/-- An integer as the `n`-bit two's complement number that wraps it. -/
def ofSigned (n : Nat) (i : Int) : Nat := (i % ((2 ^ n : Nat) : Int)).toNat

/-- The little-endian number of a byte string (R7). -/
def leNat : List Byte → Nat
  | [] => 0
  | b :: bs => b.toNat + 256 * leNat bs

/-- The `n` little-endian bytes of a number (R7). -/
def leBytes : Nat → Nat → List Byte
  | 0, _ => []
  | n + 1, v => BitVec.ofNat 8 v :: leBytes n (v / 256)

/-- The big-endian number of a byte string (used by R66 alone). -/
def beNat (bs : List Byte) : Nat := leNat bs.reverse

/-- The `n` big-endian bytes of a number. -/
def beBytes (n v : Nat) : List Byte := (leBytes n v).reverse

/-- A named register field: the register's address and the bit range. -/
structure Fld where
  addr : Nat
  hi : Nat
  lo : Nat
  deriving DecidableEq, Repr

/-- Look a key up in a sparse table; a key that is not listed has the default value. -/
def tabGet {α : Type} (d : Nat → α) : List (Nat × α) → Nat → α
  | [], k => d k
  | (k', v) :: t, k => if k = k' then v else tabGet d t k

/-- Set a key of a sparse table, keeping the keys strictly rising and listing no default value. -/
def tabSet {α : Type} [DecidableEq α] (d : Nat → α) : List (Nat × α) → Nat → α → List (Nat × α)
  | [], k, v => if v = d k then [] else [(k, v)]
  | (k', v') :: t, k, v =>
    if k < k' then (if v = d k then (k', v') :: t else (k, v) :: (k', v') :: t)
    else if k = k' then (if v = d k then t else (k, v) :: t)
    else (k', v') :: tabSet d t k v

/-- The canonical form of a sparse table: keys strictly rising, no entry equal to the default. -/
def tabWf {α : Type} [DecidableEq α] (d : Nat → α) : List (Nat × α) → Bool
  | [] => true
  | [(k, v)] => decide (v ≠ d k)
  | (k, v) :: (k', v') :: t => decide (v ≠ d k) && decide (k < k') && tabWf d ((k', v') :: t)

/-- Drop every key in `[lo, lo + n)`: the range reads as its default again. -/
def tabDrop {α : Type} (t : List (Nat × α)) (lo n : Nat) : List (Nat × α) :=
  t.filter (fun e => !(decide (lo ≤ e.1) && decide (e.1 < lo + n)))

end Sys2Proof.Machine
end

