-- ==== Sys2Proof/Machine/Regs.lean ====
section
/-! DEFINITION. The control registers of the XK50: one address per register, one field descriptor per named
field, as the register tables of spec/ give them (R8, R12 to R15; the rule of each block stands before it).
Indices: `n` die node (0 to 7 compute die, 8 I/O die), `d` compute die, `g` global core, `p` partition, and as the block's rule says. -/
namespace Sys2Proof.Machine

/-- Rope port registers (R105): port `p` of CD `n`, or I/O die fabric port `p` when `n` is 8. -/
abbrev rplBase (n p : Nat) : Nat :=
  if n = 8 then 0x200000300000 + p * 0x100 else 0x210000010000 + n * 0x1000000 + p * 0x100
/-- Core registers (R135) of global core `g` (die = g / 32, local core = g % 32). -/
abbrev coreBase (g : Nat) : Nat := 0x210000400000 + g / 32 * 0x1000000 + g % 32 * 0x1000
/-- DMA channel registers (R295). -/
abbrev dmaBase (n ch : Nat) : Nat :=
  if n = 8 then 0x200000500000 + ch * 0x100 else 0x210000700000 + n * 0x1000000 + ch * 0x100
/-- DMA channel limit registers (R314). -/
abbrev regChBase (n ch : Nat) : Nat :=
  if n = 8 then 0x200000601000 + ch * 0x10 else 0x210000800000 + n * 0x1000000 + ch * 0x10
/-- Anchor control space (R462): `x` 0 for anchor A, 1 for anchor B. -/
abbrev ancBase (x : Nat) : Nat := 0x220000000000 + x * 0x10000000


-- R57 (02_pitch.md)
abbrev PCH_CFG : Nat := 0x200000100000 + 0x0
abbrev PCH_CFG_RUN : Fld := ⟨PCH_CFG, 0, 0⟩
abbrev PCH_CFG_ROLE : Fld := ⟨PCH_CFG, 2, 1⟩
abbrev PCH_CFG_TIME_PORT : Fld := ⟨PCH_CFG, 5, 4⟩
abbrev PCH_PERIOD : Nat := 0x200000100000 + 0x4
abbrev PCH_PERIOD_PERIOD_NS : Fld := ⟨PCH_PERIOD, 26, 0⟩
abbrev PCH_TIME_LO : Nat := 0x200000100000 + 0x8
abbrev PCH_TIME : Nat := PCH_TIME_LO
abbrev PCH_TIME_HI : Nat := 0x200000100000 + 0xc
abbrev PCH_TRIM : Nat := 0x200000100000 + 0x10
abbrev PCH_TRIM_TRIM : Fld := ⟨PCH_TRIM, 31, 0⟩
abbrev PCH_TRIM_LIM : Nat := 0x200000100000 + 0x14
abbrev PCH_TRIM_LIM_LIM_PPM : Fld := ⟨PCH_TRIM_LIM, 8, 0⟩
abbrev PCH_EPOCH_LO : Nat := 0x200000100000 + 0x18
abbrev PCH_EPOCH : Nat := PCH_EPOCH_LO
abbrev PCH_EPOCH_HI : Nat := 0x200000100000 + 0x1c
abbrev PCH_NUM_LO : Nat := 0x200000100000 + 0x20
abbrev PCH_NUM : Nat := PCH_NUM_LO
abbrev PCH_NUM_HI : Nat := 0x200000100000 + 0x24
abbrev PCH_TICK_LO : Nat := 0x200000100000 + 0x28
abbrev PCH_TICK : Nat := PCH_TICK_LO
abbrev PCH_TICK_HI : Nat := 0x200000100000 + 0x2c
abbrev PCH_STEP : Nat := 0x200000100000 + 0x30
abbrev PCH_STEP_STEP_IDX : Fld := ⟨PCH_STEP, 6, 0⟩
abbrev PCH_STEP_STEP_CNT : Fld := ⟨PCH_STEP, 14, 8⟩
abbrev PCH_STATUS : Nat := 0x200000100000 + 0x34
abbrev PCH_STATUS_RUNNING : Fld := ⟨PCH_STATUS, 0, 0⟩
abbrev PCH_STATUS_HOLDOVER : Fld := ⟨PCH_STATUS, 1, 1⟩
abbrev PCH_STATUS_PEER_LOST : Fld := ⟨PCH_STATUS, 2, 2⟩
abbrev PCH_STATUS_TICK_LATE : Fld := ⟨PCH_STATUS, 3, 3⟩
abbrev PCH_DONE : Nat := 0x200000100000 + 0x38
abbrev PCH_DONE_DONE : Fld := ⟨PCH_DONE, 15, 0⟩
abbrev PCH_OVR : Nat := 0x200000100000 + 0x3c
abbrev PCH_OVR_OVR : Fld := ⟨PCH_OVR, 15, 0⟩
abbrev PCH_OVR_CNT : Nat := 0x200000100000 + 0x40
abbrev PCH_OVR_CNT_COUNT : Fld := ⟨PCH_OVR_CNT, 31, 0⟩
abbrev PCH_OVR_LAST : Nat := 0x200000100000 + 0x44
abbrev PCH_OVR_LAST_PITCH : Fld := ⟨PCH_OVR_LAST, 15, 0⟩
abbrev PCH_OVR_LAST_PART : Fld := ⟨PCH_OVR_LAST, 19, 16⟩

-- R85 (03_topo_image.md)
abbrev TOPO_STATUS : Nat := 0x200000200000 + 0x0
abbrev TOPO_STATUS_RUN_SLOT : Fld := ⟨TOPO_STATUS, 0, 0⟩
abbrev TOPO_STATUS_TRIAL : Fld := ⟨TOPO_STATUS, 1, 1⟩
abbrev TOPO_STATUS_OTHER_VALID : Fld := ⟨TOPO_STATUS, 2, 2⟩
abbrev TOPO_STATUS_PART_STATE : Fld := ⟨TOPO_STATUS, 5, 3⟩
abbrev TOPO_STATUS_PART_ID : Fld := ⟨TOPO_STATUS, 9, 6⟩
abbrev TOPO_CMD : Nat := 0x200000200000 + 0x4
abbrev TOPO_CMD_CMD : Fld := ⟨TOPO_CMD, 3, 0⟩
abbrev TOPO_STAGE_LO : Nat := 0x200000200000 + 0x8
abbrev TOPO_STAGE : Nat := TOPO_STAGE_LO
abbrev TOPO_STAGE_HI : Nat := 0x200000200000 + 0xc
abbrev TOPO_STAGE_LEN : Nat := 0x200000200000 + 0x10
abbrev TOPO_STAGE_LEN_LEN : Fld := ⟨TOPO_STAGE_LEN, 24, 0⟩
abbrev TOPO_ERR : Nat := 0x200000200000 + 0x14
abbrev TOPO_ERR_CODE : Fld := ⟨TOPO_ERR, 7, 0⟩
abbrev TOPO_ERR_SECTION : Fld := ⟨TOPO_ERR, 15, 8⟩
abbrev TOPO_ERR_VALID : Fld := ⟨TOPO_ERR, 16, 16⟩
abbrev TOPO_ERR_PARTIAL : Fld := ⟨TOPO_ERR, 17, 17⟩
abbrev TOPO_REJ_CNT : Nat := 0x200000200000 + 0x18
abbrev TOPO_REJ_CNT_COUNT : Fld := ⟨TOPO_REJ_CNT, 31, 0⟩
abbrev TOPO_APPLY_LO : Nat := 0x200000200000 + 0x1c
abbrev TOPO_APPLY : Nat := TOPO_APPLY_LO
abbrev TOPO_APPLY_HI : Nat := 0x200000200000 + 0x20
abbrev TOPO_DEFER : Nat := 0x200000200000 + 0x24
abbrev TOPO_DEFER_MAX_DEFER : Fld := ⟨TOPO_DEFER, 3, 0⟩
abbrev TOPO_DEFER_DEFER_CNT : Fld := ⟨TOPO_DEFER, 7, 4⟩
abbrev TOPO_SVN : Nat := 0x200000200000 + 0x28
abbrev TOPO_SVN_SVN : Fld := ⟨TOPO_SVN, 31, 0⟩
abbrev TOPO_SEQ_LO : Nat := 0x200000200000 + 0x2c
abbrev TOPO_SEQ : Nat := TOPO_SEQ_LO
abbrev TOPO_SEQ_HI : Nat := 0x200000200000 + 0x30
abbrev TOPO_BREADY : Nat := 0x200000200000 + 0x34
abbrev TOPO_BREADY_PART : Fld := ⟨TOPO_BREADY, 3, 0⟩
abbrev TOPO_BREADY_BUNDLE : Fld := ⟨TOPO_BREADY, 7, 4⟩
abbrev TOPO_BERR : Nat := 0x200000200000 + 0x38
abbrev TOPO_BERR_PART : Fld := ⟨TOPO_BERR, 3, 0⟩
abbrev TOPO_BERR_BUNDLE : Fld := ⟨TOPO_BERR, 7, 4⟩
abbrev TOPO_BERR_CAUSE : Fld := ⟨TOPO_BERR, 8, 8⟩
abbrev TOPO_BERR_VALID : Fld := ⟨TOPO_BERR, 9, 9⟩
abbrev TOPO_MEAS (i : Nat) : Nat := 0x200000200000 + 0x40 + i * 0x4
abbrev TOPO_MEAS_MEAS (i : Nat) : Fld := ⟨TOPO_MEAS i, 31, 0⟩

-- R105 (04_rope_fabric.md)
abbrev RPL_CTL (n : Nat) (p : Nat) : Nat := (rplBase n p) + 0x0
abbrev RPL_CTL_EN (n : Nat) (p : Nat) : Fld := ⟨RPL_CTL n p, 0, 0⟩
abbrev RPL_DRAIN (n : Nat) (p : Nat) : Nat := (rplBase n p) + 0x4
abbrev RPL_DRAIN_DRAIN_TO (n : Nat) (p : Nat) : Fld := ⟨RPL_DRAIN n p, 23, 0⟩
abbrev RPL_STAT (n : Nat) (p : Nat) : Nat := (rplBase n p) + 0x8
abbrev RPL_STAT_STATE (n : Nat) (p : Nat) : Fld := ⟨RPL_STAT n p, 1, 0⟩
abbrev RPL_STAT_TRAINED (n : Nat) (p : Nat) : Fld := ⟨RPL_STAT n p, 2, 2⟩
abbrev RPL_STAT_DOWN (n : Nat) (p : Nat) : Fld := ⟨RPL_STAT n p, 3, 3⟩
abbrev RPL_STAT_DEGRADED (n : Nat) (p : Nat) : Fld := ⟨RPL_STAT n p, 4, 4⟩
abbrev RPL_DOWN (n : Nat) (p : Nat) : Nat := (rplBase n p) + 0xc
abbrev RPL_DOWN_CAUSE (n : Nat) (p : Nat) : Fld := ⟨RPL_DOWN n p, 2, 0⟩
abbrev RPL_DOWN_PITCH (n : Nat) (p : Nat) : Fld := ⟨RPL_DOWN n p, 18, 3⟩
abbrev RPL_CORR_CNT (n : Nat) (p : Nat) : Nat := (rplBase n p) + 0x10
abbrev RPL_CORR_CNT_COUNT (n : Nat) (p : Nat) : Fld := ⟨RPL_CORR_CNT n p, 31, 0⟩
abbrev RPL_CORR_POS (n : Nat) (p : Nat) : Nat := (rplBase n p) + 0x14
abbrev RPL_CORR_POS_SYMBOL (n : Nat) (p : Nat) : Fld := ⟨RPL_CORR_POS n p, 6, 0⟩
abbrev RPL_RETRY_CNT (n : Nat) (p : Nat) : Nat := (rplBase n p) + 0x18
abbrev RPL_RETRY_CNT_COUNT (n : Nat) (p : Nat) : Fld := ⟨RPL_RETRY_CNT n p, 31, 0⟩
abbrev RPL_FLIT_LO (n : Nat) (p : Nat) : Nat := (rplBase n p) + 0x20
abbrev RPL_FLIT (n : Nat) (p : Nat) : Nat := RPL_FLIT_LO n p
abbrev RPL_FLIT_HI (n : Nat) (p : Nat) : Nat := (rplBase n p) + 0x24

-- R106 (04_rope_fabric.md)
abbrev RTE_DEST (d : Nat) (i : Nat) : Nat := (0x210000020000 + d * 0x1000000) + 0x0 + i * 0x4
abbrev RTE_DEST_PRIMARY (d : Nat) (i : Nat) : Fld := ⟨RTE_DEST d i, 1, 0⟩
abbrev RTE_DEST_ALTERNATE (d : Nat) (i : Nat) : Fld := ⟨RTE_DEST d i, 3, 2⟩
abbrev RTE_DEST_ACTIVE (d : Nat) (i : Nat) : Fld := ⟨RTE_DEST d i, 5, 4⟩
abbrev RTE_TMO (d : Nat) : Nat := (0x210000020000 + d * 0x1000000) + 0x20
abbrev RTE_TMO_TMO (d : Nat) : Fld := ⟨RTE_TMO d, 20, 0⟩
abbrev RTE_LATE_CNT (d : Nat) : Nat := (0x210000020000 + d * 0x1000000) + 0x24
abbrev RTE_LATE_CNT_COUNT (d : Nat) : Fld := ⟨RTE_LATE_CNT d, 31, 0⟩
abbrev RTE_ERR_CNT (d : Nat) : Nat := (0x210000020000 + d * 0x1000000) + 0x28
abbrev RTE_ERR_CNT_COUNT (d : Nat) : Fld := ⟨RTE_ERR_CNT d, 31, 0⟩
abbrev RTE_FAIL (d : Nat) : Nat := (0x210000020000 + d * 0x1000000) + 0x2c
abbrev RTE_FAIL_SWITCHED (d : Nat) : Fld := ⟨RTE_FAIL d, 7, 0⟩

-- R135 (05_threads_and_cores.md)
abbrev CORE_STAT (g : Nat) : Nat := (coreBase g) + 0x0
abbrev CORE_STAT_THREADS (g : Nat) : Fld := ⟨CORE_STAT g, 6, 0⟩
abbrev CORE_STAT_ARRIVED (g : Nat) : Fld := ⟨CORE_STAT g, 8, 8⟩
abbrev CORE_STAT_PREEMPTED (g : Nat) : Fld := ⟨CORE_STAT g, 9, 9⟩
abbrev CORE_TXN (g : Nat) : Nat := (coreBase g) + 0x4
abbrev CORE_TXN_OUT (g : Nat) : Fld := ⟨CORE_TXN g, 8, 0⟩
abbrev CORE_TXN_HWM (g : Nat) : Fld := ⟨CORE_TXN g, 24, 16⟩
abbrev CORE_FAULT (g : Nat) : Nat := (coreBase g) + 0x8
abbrev CORE_FAULT_CODE (g : Nat) : Fld := ⟨CORE_FAULT g, 7, 0⟩
abbrev CORE_FAULT_THREAD (g : Nat) : Fld := ⟨CORE_FAULT g, 13, 8⟩
abbrev CORE_FAULT_MSTAT (g : Nat) : Fld := ⟨CORE_FAULT g, 17, 14⟩
abbrev CORE_FAULT_VALID (g : Nat) : Fld := ⟨CORE_FAULT g, 18, 18⟩
abbrev CORE_FAULT_CNT (g : Nat) : Nat := (coreBase g) + 0xc
abbrev CORE_FAULT_CNT_COUNT (g : Nat) : Fld := ⟨CORE_FAULT_CNT g, 31, 0⟩
abbrev CORE_FAULT_PC_LO (g : Nat) : Nat := (coreBase g) + 0x10
abbrev CORE_FAULT_PC (g : Nat) : Nat := CORE_FAULT_PC_LO g
abbrev CORE_FAULT_PC_HI (g : Nat) : Nat := (coreBase g) + 0x14
abbrev CORE_FAULT_ADDR_LO (g : Nat) : Nat := (coreBase g) + 0x18
abbrev CORE_FAULT_ADDR (g : Nat) : Nat := CORE_FAULT_ADDR_LO g
abbrev CORE_FAULT_ADDR_HI (g : Nat) : Nat := (coreBase g) + 0x1c
abbrev CORE_STALE_CNT (g : Nat) : Nat := (coreBase g) + 0x20
abbrev CORE_STALE_CNT_COUNT (g : Nat) : Fld := ⟨CORE_STALE_CNT g, 31, 0⟩
abbrev CORE_POLL_CNT (g : Nat) : Nat := (coreBase g) + 0x24
abbrev CORE_POLL_CNT_COUNT (g : Nat) : Fld := ⟨CORE_POLL_CNT g, 31, 0⟩
abbrev CORE_ISSUE_LO (g : Nat) : Nat := (coreBase g) + 0x28
abbrev CORE_ISSUE (g : Nat) : Nat := CORE_ISSUE_LO g
abbrev CORE_ISSUE_HI (g : Nat) : Nat := (coreBase g) + 0x2c
abbrev ENG_DONE (g : Nat) (e : Nat) : Nat := (coreBase g) + 0x100 + e * 0x20
abbrev ENG_DONE_COUNT (g : Nat) (e : Nat) : Fld := ⟨ENG_DONE g e, 31, 0⟩
abbrev ENG_QDEPTH (g : Nat) (e : Nat) : Nat := (coreBase g) + 0x104 + e * 0x20
abbrev ENG_QDEPTH_DEPTH (g : Nat) (e : Nat) : Fld := ⟨ENG_QDEPTH g e, 3, 0⟩
abbrev ENG_BUSY_LO (g : Nat) (e : Nat) : Nat := (coreBase g) + 0x108 + e * 0x20
abbrev ENG_BUSY (g : Nat) (e : Nat) : Nat := ENG_BUSY_LO g e
abbrev ENG_BUSY_HI (g : Nat) (e : Nat) : Nat := (coreBase g) + 0x10c + e * 0x20
abbrev ENG_MAC_LO (g : Nat) (e : Nat) : Nat := (coreBase g) + 0x110 + e * 0x20
abbrev ENG_MAC (g : Nat) (e : Nat) : Nat := ENG_MAC_LO g e
abbrev ENG_MAC_HI (g : Nat) (e : Nat) : Nat := (coreBase g) + 0x114 + e * 0x20

-- R136 (05_threads_and_cores.md)
abbrev PRT_CLU (d : Nat) (i : Nat) : Nat := (0x210000300000 + d * 0x1000000) + 0x0 + i * 0x4
abbrev PRT_CLU_PART (d : Nat) (i : Nat) : Fld := ⟨PRT_CLU d i, 4, 0⟩
abbrev PRT_CLU_PWR (d : Nat) (i : Nat) : Fld := ⟨PRT_CLU d i, 9, 8⟩

-- R162 (06_number_formats.md)
abbrev ENG_FLAGS (g : Nat) (e : Nat) : Nat := (coreBase g) + 0x118 + e * 0x20
abbrev ENG_FLAGS_ISAT (g : Nat) (e : Nat) : Fld := ⟨ENG_FLAGS g e, 0, 0⟩
abbrev ENG_FLAGS_FINF (g : Nat) (e : Nat) : Fld := ⟨ENG_FLAGS g e, 1, 1⟩
abbrev ENG_FLAGS_FNAN (g : Nat) (e : Nat) : Fld := ⟨ENG_FLAGS g e, 2, 2⟩
abbrev ENG_FLAGS_FTZ (g : Nat) (e : Nat) : Fld := ⟨ENG_FLAGS g e, 3, 3⟩
abbrev ENG_FLAGS_CVT_SAT (g : Nat) (e : Nat) : Fld := ⟨ENG_FLAGS g e, 4, 4⟩
abbrev ENG_FLAGS_CVT_NAN (g : Nat) (e : Nat) : Fld := ⟨ENG_FLAGS g e, 5, 5⟩

-- R187 (07_scratchpads.md)
abbrev BNK_PWR (d : Nat) (b : Nat) : Nat := (0x210000500000 + d * 0x1000000 + b * 0x40) + 0x0
abbrev BNK_PWR_PH0 (d : Nat) (b : Nat) : Fld := ⟨BNK_PWR d b, 1, 0⟩
abbrev BNK_PWR_PH1 (d : Nat) (b : Nat) : Fld := ⟨BNK_PWR d b, 3, 2⟩
abbrev BNK_PWR_PH2 (d : Nat) (b : Nat) : Fld := ⟨BNK_PWR d b, 5, 4⟩
abbrev BNK_PWR_PH3 (d : Nat) (b : Nat) : Fld := ⟨BNK_PWR d b, 7, 6⟩
abbrev BNK_PWR_BIV (d : Nat) (b : Nat) : Fld := ⟨BNK_PWR d b, 9, 8⟩
abbrev BNK_PWR_OVR (d : Nat) (b : Nat) : Fld := ⟨BNK_PWR d b, 10, 10⟩
abbrev BNK_PWR_STATE (d : Nat) (b : Nat) : Fld := ⟨BNK_PWR d b, 18, 16⟩
abbrev MAP_BNK_OWN (d : Nat) (b : Nat) : Nat := (0x210000500000 + d * 0x1000000 + b * 0x40) + 0x4
abbrev MAP_BNK_OWN_PART (d : Nat) (b : Nat) : Fld := ⟨MAP_BNK_OWN d b, 4, 0⟩
abbrev BNK_INFL (d : Nat) (b : Nat) : Nat := (0x210000500000 + d * 0x1000000 + b * 0x40) + 0x8
abbrev BNK_INFL_COUNT (d : Nat) (b : Nat) : Fld := ⟨BNK_INFL d b, 6, 0⟩
abbrev BNK_INFL_PDW_MAX (d : Nat) (b : Nat) : Fld := ⟨BNK_INFL d b, 31, 16⟩
abbrev BNK_OFF_CNT (d : Nat) (b : Nat) : Nat := (0x210000500000 + d * 0x1000000 + b * 0x40) + 0xc
abbrev BNK_OFF_CNT_COUNT (d : Nat) (b : Nat) : Fld := ⟨BNK_OFF_CNT d b, 31, 0⟩
abbrev BNK_OFF_SRC (d : Nat) (b : Nat) : Nat := (0x210000500000 + d * 0x1000000 + b * 0x40) + 0x10
abbrev BNK_OFF_SRC_NODE (d : Nat) (b : Nat) : Fld := ⟨BNK_OFF_SRC d b, 4, 0⟩
abbrev BNK_OFF_SRC_UNIT (d : Nat) (b : Nat) : Fld := ⟨BNK_OFF_SRC d b, 12, 5⟩
abbrev BNK_OFF_SRC_KIND (d : Nat) (b : Nat) : Fld := ⟨BNK_OFF_SRC d b, 13, 13⟩
abbrev BNK_OFF_SRC_VALID (d : Nat) (b : Nat) : Fld := ⟨BNK_OFF_SRC d b, 14, 14⟩
abbrev BNK_CORR_CNT (d : Nat) (b : Nat) : Nat := (0x210000500000 + d * 0x1000000 + b * 0x40) + 0x14
abbrev BNK_CORR_CNT_COUNT (d : Nat) (b : Nat) : Fld := ⟨BNK_CORR_CNT d b, 31, 0⟩
abbrev BNK_UNC_CNT (d : Nat) (b : Nat) : Nat := (0x210000500000 + d * 0x1000000 + b * 0x40) + 0x18
abbrev BNK_UNC_CNT_COUNT (d : Nat) (b : Nat) : Fld := ⟨BNK_UNC_CNT d b, 31, 0⟩
abbrev BNK_ERR_WORD (d : Nat) (b : Nat) : Nat := (0x210000500000 + d * 0x1000000 + b * 0x40) + 0x1c
abbrev BNK_ERR_WORD_WORD (d : Nat) (b : Nat) : Fld := ⟨BNK_ERR_WORD d b, 14, 0⟩
abbrev BNK_ERR_WORD_VALID (d : Nat) (b : Nat) : Fld := ⟨BNK_ERR_WORD d b, 15, 15⟩

-- R188 (07_scratchpads.md)
abbrev BNK_PH1 (d : Nat) (p : Nat) : Nat := (0x210000501000 + d * 0x1000000) + 0x0 + p * 0x10
abbrev BNK_PH1_START_US (d : Nat) (p : Nat) : Fld := ⟨BNK_PH1 d p, 16, 0⟩
abbrev BNK_PH2 (d : Nat) (p : Nat) : Nat := (0x210000501000 + d * 0x1000000) + 0x4 + p * 0x10
abbrev BNK_PH2_START_US (d : Nat) (p : Nat) : Fld := ⟨BNK_PH2 d p, 16, 0⟩
abbrev BNK_PH3 (d : Nat) (p : Nat) : Nat := (0x210000501000 + d * 0x1000000) + 0x8 + p * 0x10
abbrev BNK_PH3_START_US (d : Nat) (p : Nat) : Fld := ⟨BNK_PH3 d p, 16, 0⟩
abbrev BNK_CLU (d : Nat) (i : Nat) : Nat := (0x210000501000 + d * 0x1000000) + 0x100 + i * 0x4
abbrev BNK_CLU_GATED (d : Nat) (i : Nat) : Fld := ⟨BNK_CLU d i, 0, 0⟩
abbrev BNK_CLU_STATE (d : Nat) (i : Nat) : Fld := ⟨BNK_CLU d i, 2, 1⟩
abbrev BNK_SCRUB (d : Nat) : Nat := (0x210000501000 + d * 0x1000000) + 0x110
abbrev BNK_SCRUB_EN (d : Nat) : Fld := ⟨BNK_SCRUB d, 0, 0⟩
abbrev BNK_SCRUB_INTERVAL (d : Nat) : Fld := ⟨BNK_SCRUB d, 31, 16⟩
abbrev BNK_SCRUB_MIN (d : Nat) : Nat := (0x210000501000 + d * 0x1000000) + 0x114
abbrev BNK_SCRUB_MIN_MIN (d : Nat) : Fld := ⟨BNK_SCRUB_MIN d, 15, 0⟩
abbrev BNK_SCRUB_PASS (d : Nat) : Nat := (0x210000501000 + d * 0x1000000) + 0x118
abbrev BNK_SCRUB_PASS_COUNT (d : Nat) : Fld := ⟨BNK_SCRUB_PASS d, 31, 0⟩
abbrev BNK_CM_CORR_CNT (d : Nat) : Nat := (0x210000501000 + d * 0x1000000) + 0x11c
abbrev BNK_CM_CORR_CNT_COUNT (d : Nat) : Fld := ⟨BNK_CM_CORR_CNT d, 31, 0⟩
abbrev BNK_CM_UNC_CNT (d : Nat) : Nat := (0x210000501000 + d * 0x1000000) + 0x120
abbrev BNK_CM_UNC_CNT_COUNT (d : Nat) : Fld := ⟨BNK_CM_UNC_CNT d, 31, 0⟩
abbrev BNK_EB_CORR_CNT (d : Nat) : Nat := (0x210000501000 + d * 0x1000000) + 0x124
abbrev BNK_EB_CORR_CNT_COUNT (d : Nat) : Fld := ⟨BNK_EB_CORR_CNT d, 31, 0⟩
abbrev BNK_EB_UNC_CNT (d : Nat) : Nat := (0x210000501000 + d * 0x1000000) + 0x128
abbrev BNK_EB_UNC_CNT_COUNT (d : Nat) : Fld := ⟨BNK_EB_UNC_CNT d, 31, 0⟩
abbrev BNK_CM_ERR (d : Nat) : Nat := (0x210000501000 + d * 0x1000000) + 0x12c
abbrev BNK_CM_ERR_CORE (d : Nat) : Fld := ⟨BNK_CM_ERR d, 4, 0⟩
abbrev BNK_CM_ERR_WORD (d : Nat) : Fld := ⟨BNK_CM_ERR d, 19, 5⟩
abbrev BNK_CM_ERR_VALID (d : Nat) : Fld := ⟨BNK_CM_ERR d, 20, 20⟩
abbrev BNK_EB_ERR (d : Nat) : Nat := (0x210000501000 + d * 0x1000000) + 0x130
abbrev BNK_EB_ERR_CORE (d : Nat) : Fld := ⟨BNK_EB_ERR d, 4, 0⟩
abbrev BNK_EB_ERR_ENGINE (d : Nat) : Fld := ⟨BNK_EB_ERR d, 7, 5⟩
abbrev BNK_EB_ERR_WORD (d : Nat) : Fld := ⟨BNK_EB_ERR d, 19, 8⟩
abbrev BNK_EB_ERR_VALID (d : Nat) : Fld := ⟨BNK_EB_ERR d, 20, 20⟩

-- R215 (08_image_operators.md)
abbrev BOX_CTL : Nat := 0x200000700000 + 0x0
abbrev BOX_CTL_EN : Fld := ⟨BOX_CTL, 0, 0⟩
abbrev BOX_DRAIN : Nat := 0x200000700000 + 0x4
abbrev BOX_DRAIN_DRAIN_TO : Fld := ⟨BOX_DRAIN, 23, 0⟩
abbrev BOX_STAT : Nat := 0x200000700000 + 0x8
abbrev BOX_STAT_STATE : Fld := ⟨BOX_STAT, 1, 0⟩
abbrev BOX_STAT_QUEUED : Fld := ⟨BOX_STAT, 8, 2⟩
abbrev BOX_STAT_BUSY : Fld := ⟨BOX_STAT, 9, 9⟩
abbrev BOX_SUBMIT : Nat := 0x200000700000 + 0xc
abbrev BOX_SUBMIT_DIE : Fld := ⟨BOX_SUBMIT, 2, 0⟩
abbrev BOX_SUBMIT_DESC : Fld := ⟨BOX_SUBMIT, 24, 3⟩
abbrev BOX_DONE_CNT : Nat := 0x200000700000 + 0x10
abbrev BOX_DONE_CNT_COUNT : Fld := ⟨BOX_DONE_CNT, 31, 0⟩
abbrev BOX_ERR_CNT : Nat := 0x200000700000 + 0x14
abbrev BOX_ERR_CNT_COUNT : Fld := ⟨BOX_ERR_CNT, 31, 0⟩
abbrev BOX_STALE_CNT : Nat := 0x200000700000 + 0x18
abbrev BOX_STALE_CNT_COUNT : Fld := ⟨BOX_STALE_CNT, 31, 0⟩
abbrev BOX_TRUNC_CNT : Nat := 0x200000700000 + 0x1c
abbrev BOX_TRUNC_CNT_COUNT : Fld := ⟨BOX_TRUNC_CNT, 31, 0⟩
abbrev BOX_NAN_CNT : Nat := 0x200000700000 + 0x20
abbrev BOX_NAN_CNT_COUNT : Fld := ⟨BOX_NAN_CNT, 31, 0⟩
abbrev BOX_LAST_ERR : Nat := 0x200000700000 + 0x24
abbrev BOX_LAST_ERR_CODE : Fld := ⟨BOX_LAST_ERR, 7, 0⟩
abbrev BOX_LAST_ERR_PART : Fld := ⟨BOX_LAST_ERR, 11, 8⟩
abbrev BOX_LAST_ERR_VALID : Fld := ⟨BOX_LAST_ERR, 12, 12⟩
abbrev BOX_BUSY_LO : Nat := 0x200000700000 + 0x28
abbrev BOX_BUSY : Nat := BOX_BUSY_LO
abbrev BOX_BUSY_HI : Nat := 0x200000700000 + 0x2c

-- R243 (09_attention_kv.md)
abbrev KVC_CTL (d : Nat) : Nat := (0x210000600000 + d * 0x1000000) + 0x0
abbrev KVC_CTL_EN (d : Nat) : Fld := ⟨KVC_CTL d, 0, 0⟩
abbrev KVC_DRAIN (d : Nat) : Nat := (0x210000600000 + d * 0x1000000) + 0x4
abbrev KVC_DRAIN_DRAIN_TO (d : Nat) : Fld := ⟨KVC_DRAIN d, 23, 0⟩
abbrev KVC_STAT (d : Nat) : Nat := (0x210000600000 + d * 0x1000000) + 0x8
abbrev KVC_STAT_STATE (d : Nat) : Fld := ⟨KVC_STAT d, 1, 0⟩
abbrev KVC_STAT_QUEUED (d : Nat) : Fld := ⟨KVC_STAT d, 11, 2⟩
abbrev KVC_STAT_BUSY (d : Nat) : Fld := ⟨KVC_STAT d, 12, 12⟩
abbrev KVC_SUBMIT (d : Nat) : Nat := (0x210000600000 + d * 0x1000000) + 0xc
abbrev KVC_SUBMIT_DIE (d : Nat) : Fld := ⟨KVC_SUBMIT d, 2, 0⟩
abbrev KVC_SUBMIT_DESC (d : Nat) : Fld := ⟨KVC_SUBMIT d, 24, 3⟩
abbrev KVC_DONE_CNT (d : Nat) : Nat := (0x210000600000 + d * 0x1000000) + 0x10
abbrev KVC_DONE_CNT_COUNT (d : Nat) : Fld := ⟨KVC_DONE_CNT d, 31, 0⟩
abbrev KVC_ERR_CNT (d : Nat) : Nat := (0x210000600000 + d * 0x1000000) + 0x14
abbrev KVC_ERR_CNT_COUNT (d : Nat) : Fld := ⟨KVC_ERR_CNT d, 31, 0⟩
abbrev KVC_STALE_CNT (d : Nat) : Nat := (0x210000600000 + d * 0x1000000) + 0x18
abbrev KVC_STALE_CNT_COUNT (d : Nat) : Fld := ⟨KVC_STALE_CNT d, 31, 0⟩
abbrev KVC_NAN_CNT (d : Nat) : Nat := (0x210000600000 + d * 0x1000000) + 0x1c
abbrev KVC_NAN_CNT_COUNT (d : Nat) : Fld := ⟨KVC_NAN_CNT d, 31, 0⟩
abbrev KVC_SAT_CNT (d : Nat) : Nat := (0x210000600000 + d * 0x1000000) + 0x20
abbrev KVC_SAT_CNT_COUNT (d : Nat) : Fld := ⟨KVC_SAT_CNT d, 31, 0⟩
abbrev KVC_HIT_CNT (d : Nat) : Nat := (0x210000600000 + d * 0x1000000) + 0x24
abbrev KVC_HIT_CNT_COUNT (d : Nat) : Fld := ⟨KVC_HIT_CNT d, 31, 0⟩
abbrev KVC_MISS_CNT (d : Nat) : Nat := (0x210000600000 + d * 0x1000000) + 0x28
abbrev KVC_MISS_CNT_COUNT (d : Nat) : Fld := ⟨KVC_MISS_CNT d, 31, 0⟩
abbrev KVC_COLLIDE_CNT (d : Nat) : Nat := (0x210000600000 + d * 0x1000000) + 0x2c
abbrev KVC_COLLIDE_CNT_COUNT (d : Nat) : Fld := ⟨KVC_COLLIDE_CNT d, 31, 0⟩
abbrev KVC_EVICT_CNT (d : Nat) : Nat := (0x210000600000 + d * 0x1000000) + 0x30
abbrev KVC_EVICT_CNT_COUNT (d : Nat) : Fld := ⟨KVC_EVICT_CNT d, 31, 0⟩
abbrev KVC_UNMIR_CNT (d : Nat) : Nat := (0x210000600000 + d * 0x1000000) + 0x34
abbrev KVC_UNMIR_CNT_COUNT (d : Nat) : Fld := ⟨KVC_UNMIR_CNT d, 31, 0⟩
abbrev KVC_LAST_ERR (d : Nat) : Nat := (0x210000600000 + d * 0x1000000) + 0x38
abbrev KVC_LAST_ERR_CODE (d : Nat) : Fld := ⟨KVC_LAST_ERR d, 7, 0⟩
abbrev KVC_LAST_ERR_CACHE (d : Nat) : Fld := ⟨KVC_LAST_ERR d, 11, 8⟩
abbrev KVC_LAST_ERR_SEQ (d : Nat) : Fld := ⟨KVC_LAST_ERR d, 19, 12⟩
abbrev KVC_LAST_ERR_VALID (d : Nat) : Fld := ⟨KVC_LAST_ERR d, 20, 20⟩
abbrev KVC_C_FREE (d : Nat) (c : Nat) : Nat := (0x210000600000 + d * 0x1000000) + 0x100 + c * 0x8
abbrev KVC_C_FREE_FREE (d : Nat) (c : Nat) : Fld := ⟨KVC_C_FREE d c, 12, 0⟩
abbrev KVC_C_FREE_MINFREE (d : Nat) (c : Nat) : Fld := ⟨KVC_C_FREE d c, 28, 16⟩
abbrev KVC_C_LIVE (d : Nat) (c : Nat) : Nat := (0x210000600000 + d * 0x1000000) + 0x104 + c * 0x8
abbrev KVC_C_LIVE_SEQS (d : Nat) (c : Nat) : Fld := ⟨KVC_C_LIVE d c, 8, 0⟩
abbrev KVC_C_LIVE_UNMIRRORED (d : Nat) (c : Nat) : Fld := ⟨KVC_C_LIVE d c, 9, 9⟩
abbrev KVC_C_ENTRY (d : Nat) (c : Nat) (i : Nat) : Nat := (0x210000600000 + d * 0x1000000) + 0x200 + c * 0x80 + i * 0x4
abbrev KVC_C_ENTRY_ENTRY (d : Nat) (c : Nat) (i : Nat) : Fld := ⟨KVC_C_ENTRY d c i, 31, 0⟩

-- R266 (10_partitions.md)
abbrev PRT_LEND (d : Nat) (c : Nat) : Nat := (0x210000300000 + d * 0x1000000 + c * 0x10) + 0x40
abbrev PRT_LEND_BORROWER (d : Nat) (c : Nat) : Fld := ⟨PRT_LEND d c, 4, 0⟩
abbrev PRT_LEND_CM_64K (d : Nat) (c : Nat) : Fld := ⟨PRT_LEND d c, 11, 8⟩
abbrev PRT_LEND_LSTATE (d : Nat) (c : Nat) : Fld := ⟨PRT_LEND d c, 13, 12⟩
abbrev PRT_WSTART (d : Nat) (c : Nat) : Nat := (0x210000300000 + d * 0x1000000 + c * 0x10) + 0x44
abbrev PRT_WSTART_US (d : Nat) (c : Nat) : Fld := ⟨PRT_WSTART d c, 16, 0⟩
abbrev PRT_WEND (d : Nat) (c : Nat) : Nat := (0x210000300000 + d * 0x1000000 + c * 0x10) + 0x48
abbrev PRT_WEND_US (d : Nat) (c : Nat) : Fld := ⟨PRT_WEND d c, 16, 0⟩
abbrev PRT_SAVE (d : Nat) (c : Nat) : Nat := (0x210000300000 + d * 0x1000000 + c * 0x10) + 0x4c
abbrev PRT_SAVE_BANK (d : Nat) (c : Nat) : Fld := ⟨PRT_SAVE d c, 5, 0⟩
abbrev PRT_SAVE_EN (d : Nat) (c : Nat) : Fld := ⟨PRT_SAVE d c, 6, 6⟩
abbrev PRT_SAVE_SLOT_4K (d : Nat) (c : Nat) : Fld := ⟨PRT_SAVE d c, 17, 8⟩

-- R267 (10_partitions.md)
abbrev PRT_CFG (p : Nat) : Nat := (0x200000400000 + p * 0x40) + 0x0
abbrev PRT_CFG_LEVEL (p : Nat) : Fld := ⟨PRT_CFG p, 1, 0⟩
abbrev PRT_CFG_ELASTIC (p : Nat) : Fld := ⟨PRT_CFG p, 2, 2⟩
abbrev PRT_CFG_AGE_THR (p : Nat) : Fld := ⟨PRT_CFG p, 7, 4⟩
abbrev PRT_CFG_AGE_TOP (p : Nat) : Fld := ⟨PRT_CFG p, 9, 8⟩
abbrev PRT_STAT (p : Nat) : Nat := (0x200000400000 + p * 0x40) + 0x4
abbrev PRT_STAT_STATE (p : Nat) : Fld := ⟨PRT_STAT p, 2, 0⟩
abbrev PRT_STAT_EFF_LEVEL (p : Nat) : Fld := ⟨PRT_STAT p, 5, 4⟩
abbrev PRT_STAT_AGE (p : Nat) : Fld := ⟨PRT_STAT p, 15, 8⟩
abbrev PRT_STAT_SAVE_OVF (p : Nat) : Fld := ⟨PRT_STAT p, 16, 16⟩
abbrev PRT_BIV (p : Nat) : Nat := (0x200000400000 + p * 0x40) + 0x8
abbrev PRT_BIV_REQ (p : Nat) : Fld := ⟨PRT_BIV p, 0, 0⟩
abbrev PRT_BIV_HOLD (p : Nat) : Fld := ⟨PRT_BIV p, 1, 1⟩
abbrev PRT_PREEMPT_CNT (p : Nat) : Nat := (0x200000400000 + p * 0x40) + 0xc
abbrev PRT_PREEMPT_CNT_COUNT (p : Nat) : Fld := ⟨PRT_PREEMPT_CNT p, 31, 0⟩
abbrev PRT_SWITCH_MAX (p : Nat) : Nat := (0x200000400000 + p * 0x40) + 0x10
abbrev PRT_SWITCH_MAX_NS (p : Nat) : Fld := ⟨PRT_SWITCH_MAX p, 15, 0⟩
abbrev PRT_PROM_CNT (p : Nat) : Nat := (0x200000400000 + p * 0x40) + 0x14
abbrev PRT_PROM_CNT_COUNT (p : Nat) : Fld := ⟨PRT_PROM_CNT p, 31, 0⟩
abbrev PRT_WITHHELD_CNT (p : Nat) : Nat := (0x200000400000 + p * 0x40) + 0x18
abbrev PRT_WITHHELD_CNT_COUNT (p : Nat) : Fld := ⟨PRT_WITHHELD_CNT p, 31, 0⟩
abbrev PRT_BIV_LAST (p : Nat) : Nat := (0x200000400000 + p * 0x40) + 0x1c
abbrev PRT_BIV_LAST_PITCH (p : Nat) : Fld := ⟨PRT_BIV_LAST p, 15, 0⟩

-- R581 (11_dma.md)
abbrev MAP_REG_BASE_LO (r : Nat) : Nat := (0x200001900000 + r * 0x10) + 0x0
abbrev MAP_REG_BASE (r : Nat) : Nat := MAP_REG_BASE_LO r
abbrev MAP_REG_BASE_HI (r : Nat) : Nat := (0x200001900000 + r * 0x10) + 0x4
abbrev MAP_REG_CFG (r : Nat) : Nat := (0x200001900000 + r * 0x10) + 0x8
abbrev MAP_REG_CFG_LEN_2M (r : Nat) : Fld := ⟨MAP_REG_CFG r, 17, 0⟩
abbrev MAP_REG_CFG_COHERENT (r : Nat) : Fld := ⟨MAP_REG_CFG r, 18, 18⟩
abbrev MAP_REG_CFG_PART (r : Nat) : Fld := ⟨MAP_REG_CFG r, 24, 20⟩

-- R295 (11_dma.md)
abbrev DMA_CH_OPC (n : Nat) (ch : Nat) : Nat := (dmaBase n ch) + 0x40
abbrev DMA_CH_OPC_OPC (n : Nat) (ch : Nat) : Fld := ⟨DMA_CH_OPC n ch, 31, 0⟩
abbrev DMA_CH_SHAPE (n : Nat) (ch : Nat) : Nat := (dmaBase n ch) + 0x44
abbrev DMA_CH_SHAPE_PITCH (n : Nat) (ch : Nat) : Fld := ⟨DMA_CH_SHAPE n ch, 15, 0⟩
abbrev DMA_CH_SHAPE_ELEM_M1 (n : Nat) (ch : Nat) : Fld := ⟨DMA_CH_SHAPE n ch, 27, 16⟩
abbrev DMA_CH_SRC_LO (n : Nat) (ch : Nat) : Nat := (dmaBase n ch) + 0x48
abbrev DMA_CH_SRC (n : Nat) (ch : Nat) : Nat := DMA_CH_SRC_LO n ch
abbrev DMA_CH_SRC_HI (n : Nat) (ch : Nat) : Nat := (dmaBase n ch) + 0x4c
abbrev DMA_CH_DST_LO (n : Nat) (ch : Nat) : Nat := (dmaBase n ch) + 0x50
abbrev DMA_CH_DST (n : Nat) (ch : Nat) : Nat := DMA_CH_DST_LO n ch
abbrev DMA_CH_DST_HI (n : Nat) (ch : Nat) : Nat := (dmaBase n ch) + 0x54
abbrev DMA_CH_CNT (n : Nat) (ch : Nat) : Nat := (dmaBase n ch) + 0x58
abbrev DMA_CH_CNT_CNT0_M1 (n : Nat) (ch : Nat) : Fld := ⟨DMA_CH_CNT n ch, 15, 0⟩
abbrev DMA_CH_CNT_CNT1_M1 (n : Nat) (ch : Nat) : Fld := ⟨DMA_CH_CNT n ch, 31, 16⟩
abbrev DMA_CH_SSTR0 (n : Nat) (ch : Nat) : Nat := (dmaBase n ch) + 0x60
abbrev DMA_CH_SSTR0_STEP (n : Nat) (ch : Nat) : Fld := ⟨DMA_CH_SSTR0 n ch, 31, 0⟩
abbrev DMA_CH_DSTR0 (n : Nat) (ch : Nat) : Nat := (dmaBase n ch) + 0x64
abbrev DMA_CH_DSTR0_STEP (n : Nat) (ch : Nat) : Fld := ⟨DMA_CH_DSTR0 n ch, 31, 0⟩
abbrev DMA_CH_SSTR1 (n : Nat) (ch : Nat) : Nat := (dmaBase n ch) + 0x68
abbrev DMA_CH_SSTR1_STEP (n : Nat) (ch : Nat) : Fld := ⟨DMA_CH_SSTR1 n ch, 31, 0⟩
abbrev DMA_CH_DSTR1 (n : Nat) (ch : Nat) : Nat := (dmaBase n ch) + 0x6c
abbrev DMA_CH_DSTR1_STEP (n : Nat) (ch : Nat) : Fld := ⟨DMA_CH_DSTR1 n ch, 31, 0⟩
abbrev DMA_CH_CW_LO (n : Nat) (ch : Nat) : Nat := (dmaBase n ch) + 0x70
abbrev DMA_CH_CW (n : Nat) (ch : Nat) : Nat := DMA_CH_CW_LO n ch
abbrev DMA_CH_CW_HI (n : Nat) (ch : Nat) : Nat := (dmaBase n ch) + 0x74
abbrev DMA_CH_NEXT_LO (n : Nat) (ch : Nat) : Nat := (dmaBase n ch) + 0x78
abbrev DMA_CH_NEXT (n : Nat) (ch : Nat) : Nat := DMA_CH_NEXT_LO n ch
abbrev DMA_CH_NEXT_HI (n : Nat) (ch : Nat) : Nat := (dmaBase n ch) + 0x7c
abbrev DMA_CH_CTL (n : Nat) (ch : Nat) : Nat := (dmaBase n ch) + 0x80
abbrev DMA_CH_CTL_EN (n : Nat) (ch : Nat) : Fld := ⟨DMA_CH_CTL n ch, 0, 0⟩
abbrev DMA_CH_CTL_ARM (n : Nat) (ch : Nat) : Fld := ⟨DMA_CH_CTL n ch, 1, 1⟩
abbrev DMA_CH_CTL_GO (n : Nat) (ch : Nat) : Fld := ⟨DMA_CH_CTL n ch, 2, 2⟩
abbrev DMA_CH_DRAIN (n : Nat) (ch : Nat) : Nat := (dmaBase n ch) + 0x84
abbrev DMA_CH_DRAIN_DRAIN_TO (n : Nat) (ch : Nat) : Fld := ⟨DMA_CH_DRAIN n ch, 23, 0⟩
abbrev DMA_CH_STAT (n : Nat) (ch : Nat) : Nat := (dmaBase n ch) + 0x88
abbrev DMA_CH_STAT_STATE (n : Nat) (ch : Nat) : Fld := ⟨DMA_CH_STAT n ch, 1, 0⟩
abbrev DMA_CH_STAT_RUN (n : Nat) (ch : Nat) : Fld := ⟨DMA_CH_STAT n ch, 3, 2⟩
abbrev DMA_CH_STAT_OUT (n : Nat) (ch : Nat) : Fld := ⟨DMA_CH_STAT n ch, 10, 4⟩
abbrev DMA_CH_STAT_SHW_IGN (n : Nat) (ch : Nat) : Fld := ⟨DMA_CH_STAT n ch, 11, 11⟩
abbrev DMA_CH_OWN (n : Nat) (ch : Nat) : Nat := (dmaBase n ch) + 0x8c
abbrev DMA_CH_OWN_PART (n : Nat) (ch : Nat) : Fld := ⟨DMA_CH_OWN n ch, 4, 0⟩
abbrev DMA_CH_OWN_FW (n : Nat) (ch : Nat) : Fld := ⟨DMA_CH_OWN n ch, 5, 5⟩
abbrev DMA_WIN_USE_LO (n : Nat) (ch : Nat) : Nat := (dmaBase n ch) + 0x90
abbrev DMA_WIN_USE (n : Nat) (ch : Nat) : Nat := DMA_WIN_USE_LO n ch
abbrev DMA_WIN_USE_HI (n : Nat) (ch : Nat) : Nat := (dmaBase n ch) + 0x94
abbrev DMA_WIN_USEP_LO (n : Nat) (ch : Nat) : Nat := (dmaBase n ch) + 0x98
abbrev DMA_WIN_USEP (n : Nat) (ch : Nat) : Nat := DMA_WIN_USEP_LO n ch
abbrev DMA_WIN_USEP_HI (n : Nat) (ch : Nat) : Nat := (dmaBase n ch) + 0x9c
abbrev DMA_CH_FETCH_LO (n : Nat) (ch : Nat) : Nat := (dmaBase n ch) + 0xa0
abbrev DMA_CH_FETCH (n : Nat) (ch : Nat) : Nat := DMA_CH_FETCH_LO n ch
abbrev DMA_CH_FETCH_HI (n : Nat) (ch : Nat) : Nat := (dmaBase n ch) + 0xa4
abbrev DMA_CH_ERR (n : Nat) (ch : Nat) : Nat := (dmaBase n ch) + 0xa8
abbrev DMA_CH_ERR_CODE (n : Nat) (ch : Nat) : Fld := ⟨DMA_CH_ERR n ch, 7, 0⟩
abbrev DMA_CH_ERR_VALID (n : Nat) (ch : Nat) : Fld := ⟨DMA_CH_ERR n ch, 8, 8⟩
abbrev DMA_CH_ERR_PITCH (n : Nat) (ch : Nat) : Fld := ⟨DMA_CH_ERR n ch, 31, 16⟩
abbrev DMA_CH_ERR_ADDR_LO (n : Nat) (ch : Nat) : Nat := (dmaBase n ch) + 0xac
abbrev DMA_CH_ERR_ADDR (n : Nat) (ch : Nat) : Nat := DMA_CH_ERR_ADDR_LO n ch
abbrev DMA_CH_ERR_ADDR_HI (n : Nat) (ch : Nat) : Nat := (dmaBase n ch) + 0xb0
abbrev DMA_CH_MISM_LO (n : Nat) (ch : Nat) : Nat := (dmaBase n ch) + 0xb4
abbrev DMA_CH_MISM (n : Nat) (ch : Nat) : Nat := DMA_CH_MISM_LO n ch
abbrev DMA_CH_MISM_HI (n : Nat) (ch : Nat) : Nat := (dmaBase n ch) + 0xb8
abbrev DMA_CH_DONE_CNT (n : Nat) (ch : Nat) : Nat := (dmaBase n ch) + 0xbc
abbrev DMA_CH_DONE_CNT_COUNT (n : Nat) (ch : Nat) : Fld := ⟨DMA_CH_DONE_CNT n ch, 31, 0⟩
abbrev DMA_CH_STALE_CNT (n : Nat) (ch : Nat) : Nat := (dmaBase n ch) + 0xc0
abbrev DMA_CH_STALE_CNT_COUNT (n : Nat) (ch : Nat) : Fld := ⟨DMA_CH_STALE_CNT n ch, 31, 0⟩
abbrev DMA_CH_ABORT_CNT (n : Nat) (ch : Nat) : Nat := (dmaBase n ch) + 0xc4
abbrev DMA_CH_ABORT_CNT_COUNT (n : Nat) (ch : Nat) : Fld := ⟨DMA_CH_ABORT_CNT n ch, 31, 0⟩
abbrev DMA_CH_BYTES_LO (n : Nat) (ch : Nat) : Nat := (dmaBase n ch) + 0xc8
abbrev DMA_CH_BYTES (n : Nat) (ch : Nat) : Nat := DMA_CH_BYTES_LO n ch
abbrev DMA_CH_BYTES_HI (n : Nat) (ch : Nat) : Nat := (dmaBase n ch) + 0xcc

-- R296 (11_dma.md)
abbrev DMA_WIN_RANGE (w : Nat) : Nat := (0x210000710000 + w / 8 * 0x1000000 + w % 8 * 0x10) + 0x0
abbrev DMA_WIN_RANGE_BASE_4K (w : Nat) : Fld := ⟨DMA_WIN_RANGE w, 13, 0⟩
abbrev DMA_WIN_RANGE_LEN_4K (w : Nat) : Fld := ⟨DMA_WIN_RANGE w, 30, 16⟩
abbrev DMA_WIN_CTL (w : Nat) : Nat := (0x210000710000 + w / 8 * 0x1000000 + w % 8 * 0x10) + 0x4
abbrev DMA_WIN_CTL_OPEN (w : Nat) : Fld := ⟨DMA_WIN_CTL w, 0, 0⟩
abbrev DMA_WIN_CTL_WRITE (w : Nat) : Fld := ⟨DMA_WIN_CTL w, 1, 1⟩
abbrev DMA_WIN_CTL_READ (w : Nat) : Fld := ⟨DMA_WIN_CTL w, 2, 2⟩
abbrev DMA_WIN_CTL_PEER (w : Nat) : Fld := ⟨DMA_WIN_CTL w, 3, 3⟩
abbrev DMA_WIN_CTL_OWNER (w : Nat) : Fld := ⟨DMA_WIN_CTL w, 12, 8⟩
abbrev DMA_WIN_DROP_CNT (w : Nat) : Nat := (0x210000710000 + w / 8 * 0x1000000 + w % 8 * 0x10) + 0x8
abbrev DMA_WIN_DROP_CNT_COUNT (w : Nat) : Fld := ⟨DMA_WIN_DROP_CNT w, 31, 0⟩
abbrev DMA_WIN_DROP_SRC (w : Nat) : Nat := (0x210000710000 + w / 8 * 0x1000000 + w % 8 * 0x10) + 0xc
abbrev DMA_WIN_DROP_SRC_NODE (w : Nat) : Fld := ⟨DMA_WIN_DROP_SRC w, 4, 0⟩
abbrev DMA_WIN_DROP_SRC_CHANNEL (w : Nat) : Fld := ⟨DMA_WIN_DROP_SRC w, 9, 5⟩
abbrev DMA_WIN_DROP_SRC_VALID (w : Nat) : Fld := ⟨DMA_WIN_DROP_SRC w, 10, 10⟩
abbrev DMA_WIN_DROP_SRC_CAUSE (w : Nat) : Fld := ⟨DMA_WIN_DROP_SRC w, 11, 11⟩
abbrev DMA_WIN_DROP_SRC_PITCH (w : Nat) : Fld := ⟨DMA_WIN_DROP_SRC w, 27, 12⟩

-- R312 (12_regulation.md)
abbrev REG_CFG (s : Nat) : Nat := (0x200000600000 + s * 0x40) + 0x0
abbrev REG_CFG_CLASS (s : Nat) : Fld := ⟨REG_CFG s, 1, 0⟩
abbrev REG_CFG_TUNE (s : Nat) : Fld := ⟨REG_CFG s, 2, 2⟩
abbrev REG_BUDGET (s : Nat) : Nat := (0x200000600000 + s * 0x40) + 0x4
abbrev REG_BUDGET_BUDGET (s : Nat) : Fld := ⟨REG_BUDGET s, 9, 0⟩
abbrev REG_BLIM (s : Nat) : Nat := (0x200000600000 + s * 0x40) + 0x8
abbrev REG_BLIM_MIN (s : Nat) : Fld := ⟨REG_BLIM s, 9, 0⟩
abbrev REG_BLIM_MAX (s : Nat) : Fld := ⟨REG_BLIM s, 25, 16⟩
abbrev REG_LAT_TGT (s : Nat) : Nat := (0x200000600000 + s * 0x40) + 0xc
abbrev REG_LAT_TGT_NS (s : Nat) : Fld := ⟨REG_LAT_TGT s, 15, 0⟩
abbrev REG_STAT (s : Nat) : Nat := (0x200000600000 + s * 0x40) + 0x10
abbrev REG_STAT_OUT (s : Nat) : Fld := ⟨REG_STAT s, 13, 0⟩
abbrev REG_STAT_BOOST (s : Nat) : Fld := ⟨REG_STAT s, 15, 14⟩
abbrev REG_STAT_OVER (s : Nat) : Fld := ⟨REG_STAT s, 16, 16⟩
abbrev REG_LAT (s : Nat) : Nat := (0x200000600000 + s * 0x40) + 0x14
abbrev REG_LAT_AVG (s : Nat) : Fld := ⟨REG_LAT s, 15, 0⟩
abbrev REG_LAT_MAX (s : Nat) : Fld := ⟨REG_LAT s, 31, 16⟩
abbrev REG_HWM (s : Nat) : Nat := (0x200000600000 + s * 0x40) + 0x18
abbrev REG_HWM_HWM (s : Nat) : Fld := ⟨REG_HWM s, 13, 0⟩
abbrev REG_OVER_CNT (s : Nat) : Nat := (0x200000600000 + s * 0x40) + 0x1c
abbrev REG_OVER_CNT_COUNT (s : Nat) : Fld := ⟨REG_OVER_CNT s, 31, 0⟩
abbrev REG_REQ_LO (s : Nat) : Nat := (0x200000600000 + s * 0x40) + 0x20
abbrev REG_REQ (s : Nat) : Nat := REG_REQ_LO s
abbrev REG_REQ_HI (s : Nat) : Nat := (0x200000600000 + s * 0x40) + 0x24
abbrev REG_OLD_CNT (s : Nat) : Nat := (0x200000600000 + s * 0x40) + 0x28
abbrev REG_OLD_CNT_COUNT (s : Nat) : Fld := ⟨REG_OLD_CNT s, 31, 0⟩

-- R313 (12_regulation.md)
abbrev REG_POL : Nat := 0x200000600800 + 0x0
abbrev REG_POL_FW_EN : Fld := ⟨REG_POL, 0, 0⟩
abbrev REG_POL_CNT : Nat := 0x200000600800 + 0x4
abbrev REG_POL_CNT_COUNT : Fld := ⟨REG_POL_CNT, 31, 0⟩

-- R314 (12_regulation.md)
abbrev REG_CH_CFG (n : Nat) (ch : Nat) : Nat := (regChBase n ch) + 0x0
abbrev REG_CH_CFG_OUT_MAX (n : Nat) (ch : Nat) : Fld := ⟨REG_CH_CFG n ch, 6, 0⟩
abbrev REG_CH_CFG_LAT_TGT_NS (n : Nat) (ch : Nat) : Fld := ⟨REG_CH_CFG n ch, 31, 16⟩
abbrev REG_CH_LAT (n : Nat) (ch : Nat) : Nat := (regChBase n ch) + 0x4
abbrev REG_CH_LAT_AVG (n : Nat) (ch : Nat) : Fld := ⟨REG_CH_LAT n ch, 15, 0⟩
abbrev REG_CH_LAT_BOOST (n : Nat) (ch : Nat) : Fld := ⟨REG_CH_LAT n ch, 16, 16⟩
abbrev REG_CH_HOLD_CNT (n : Nat) (ch : Nat) : Nat := (regChBase n ch) + 0x8
abbrev REG_CH_HOLD_CNT_COUNT (n : Nat) (ch : Nat) : Fld := ⟨REG_CH_HOLD_CNT n ch, 31, 0⟩

-- R338 (13_dram.md)
abbrev DDR_CH_STAT (c : Nat) : Nat := (0x200000800000 + c * 0x1000) + 0x0
abbrev DDR_CH_STAT_STATE (c : Nat) : Fld := ⟨DDR_CH_STAT c, 2, 0⟩
abbrev DDR_CH_STAT_PT (c : Nat) : Fld := ⟨DDR_CH_STAT c, 4, 3⟩
abbrev DDR_CH_STAT_HOT (c : Nat) : Fld := ⟨DDR_CH_STAT c, 5, 5⟩
abbrev DDR_CH_STAT_INORDER (c : Nat) : Fld := ⟨DDR_CH_STAT c, 6, 6⟩
abbrev DDR_RH_EVT (c : Nat) : Nat := (0x200000800000 + c * 0x1000) + 0x4
abbrev DDR_RH_EVT_BANK (c : Nat) : Fld := ⟨DDR_RH_EVT c, 4, 0⟩
abbrev DDR_RH_EVT_SUB (c : Nat) : Fld := ⟨DDR_RH_EVT c, 5, 5⟩
abbrev DDR_RH_EVT_ROW (c : Nat) : Fld := ⟨DDR_RH_EVT c, 22, 6⟩
abbrev DDR_RH_EVT_PORT (c : Nat) : Fld := ⟨DDR_RH_EVT c, 27, 23⟩
abbrev DDR_RH_EVT_VALID (c : Nat) : Fld := ⟨DDR_RH_EVT c, 28, 28⟩
abbrev DDR_RH_CNT (c : Nat) : Nat := (0x200000800000 + c * 0x1000) + 0x8
abbrev DDR_RH_CNT_COUNT (c : Nat) : Fld := ⟨DDR_RH_CNT c, 31, 0⟩
abbrev DDR_RFM_CNT (c : Nat) : Nat := (0x200000800000 + c * 0x1000) + 0xc
abbrev DDR_RFM_CNT_COUNT (c : Nat) : Fld := ⟨DDR_RFM_CNT c, 31, 0⟩
abbrev DDR_CE_CNT (c : Nat) : Nat := (0x200000800000 + c * 0x1000) + 0x10
abbrev DDR_CE_CNT_COUNT (c : Nat) : Fld := ⟨DDR_CE_CNT c, 31, 0⟩
abbrev DDR_UE_CNT (c : Nat) : Nat := (0x200000800000 + c * 0x1000) + 0x14
abbrev DDR_UE_CNT_COUNT (c : Nat) : Fld := ⟨DDR_UE_CNT c, 31, 0⟩
abbrev DDR_CE_LOC (c : Nat) : Nat := (0x200000800000 + c * 0x1000) + 0x18
abbrev DDR_CE_LOC_DEVICE (c : Nat) : Fld := ⟨DDR_CE_LOC c, 3, 0⟩
abbrev DDR_UE_ADDR_LO (c : Nat) : Nat := (0x200000800000 + c * 0x1000) + 0x1c
abbrev DDR_UE_ADDR_LO_VALID (c : Nat) : Fld := ⟨DDR_UE_ADDR_LO c, 0, 0⟩
abbrev DDR_UE_ADDR_LO_ADDR (c : Nat) : Fld := ⟨DDR_UE_ADDR_LO c, 31, 6⟩
abbrev DDR_UE_ADDR_HI (c : Nat) : Nat := (0x200000800000 + c * 0x1000) + 0x20
abbrev DDR_UE_ADDR_HI_ADDR (c : Nat) : Fld := ⟨DDR_UE_ADDR_HI c, 15, 0⟩
abbrev DDR_INORD_CNT (c : Nat) : Nat := (0x200000800000 + c * 0x1000) + 0x24
abbrev DDR_INORD_CNT_COUNT (c : Nat) : Fld := ⟨DDR_INORD_CNT c, 31, 0⟩
abbrev DDR_RMW_CNT (c : Nat) : Nat := (0x200000800000 + c * 0x1000) + 0x28
abbrev DDR_RMW_CNT_COUNT (c : Nat) : Fld := ⟨DDR_RMW_CNT c, 31, 0⟩
abbrev DDR_WB_CNT (c : Nat) : Nat := (0x200000800000 + c * 0x1000) + 0x2c
abbrev DDR_WB_CNT_COUNT (c : Nat) : Fld := ⟨DDR_WB_CNT c, 31, 0⟩
abbrev DDR_RD_LO (c : Nat) : Nat := (0x200000800000 + c * 0x1000) + 0x30
abbrev DDR_RD (c : Nat) : Nat := DDR_RD_LO c
abbrev DDR_RD_HI (c : Nat) : Nat := (0x200000800000 + c * 0x1000) + 0x34
abbrev DDR_WR_LO (c : Nat) : Nat := (0x200000800000 + c * 0x1000) + 0x38
abbrev DDR_WR (c : Nat) : Nat := DDR_WR_LO c
abbrev DDR_WR_HI (c : Nat) : Nat := (0x200000800000 + c * 0x1000) + 0x3c
abbrev DDR_IDLE (c : Nat) (i : Nat) : Nat := (0x200000800000 + c * 0x1000) + 0x40 + i * 0x4
abbrev DDR_IDLE_BANK0 (c : Nat) (i : Nat) : Fld := ⟨DDR_IDLE c i, 7, 0⟩
abbrev DDR_IDLE_BANK1 (c : Nat) (i : Nat) : Fld := ⟨DDR_IDLE c i, 15, 8⟩
abbrev DDR_IDLE_BANK2 (c : Nat) (i : Nat) : Fld := ⟨DDR_IDLE c i, 23, 16⟩
abbrev DDR_IDLE_BANK3 (c : Nat) (i : Nat) : Fld := ⟨DDR_IDLE c i, 31, 24⟩
abbrev DDR_TRN_STAT (c : Nat) : Nat := (0x200000800000 + c * 0x1000) + 0x80
abbrev DDR_TRN_STAT_CHECK_FAIL (c : Nat) : Fld := ⟨DDR_TRN_STAT c, 2, 0⟩
abbrev DDR_TRN_STAT_TRAINED (c : Nat) : Fld := ⟨DDR_TRN_STAT c, 5, 3⟩
abbrev DDR_TRN_SEL (c : Nat) : Nat := (0x200000800000 + c * 0x1000) + 0x84
abbrev DDR_TRN_SEL_POINT (c : Nat) : Fld := ⟨DDR_TRN_SEL c, 1, 0⟩
abbrev DDR_TRN_REC (c : Nat) (i : Nat) : Nat := (0x200000800000 + c * 0x1000) + 0x800 + i * 0x4
abbrev DDR_TRN_REC_REC (c : Nat) (i : Nat) : Fld := ⟨DDR_TRN_REC c i, 31, 0⟩

-- R339 (13_dram.md)
abbrev DDR_PT : Nat := 0x20000080C000 + 0x0
abbrev DDR_PT_EN : Fld := ⟨DDR_PT, 2, 0⟩
abbrev DDR_PT_FLOOR : Fld := ⟨DDR_PT, 5, 4⟩
abbrev DDR_PT_CUR : Fld := ⟨DDR_PT, 7, 6⟩
abbrev DDR_FC : Nat := 0x20000080C000 + 0x4
abbrev DDR_FC_TARGET : Fld := ⟨DDR_FC, 1, 0⟩
abbrev DDR_FC_BUSY : Fld := ⟨DDR_FC, 2, 2⟩
abbrev DDR_FC_IGN : Fld := ⟨DDR_FC, 3, 3⟩
abbrev DDR_FC_CNT : Nat := 0x20000080C000 + 0x8
abbrev DDR_FC_CNT_COUNT : Fld := ⟨DDR_FC_CNT, 31, 0⟩
abbrev DDR_FC_LAST : Nat := 0x20000080C000 + 0xc
abbrev DDR_FC_LAST_NS : Fld := ⟨DDR_FC_LAST, 15, 0⟩
abbrev DDR_POL : Nat := 0x20000080C000 + 0x10
abbrev DDR_POL_FW_EN : Fld := ⟨DDR_POL, 0, 0⟩
abbrev DDR_POL_FAST : Fld := ⟨DDR_POL, 2, 1⟩
abbrev DDR_POL_SLOW : Fld := ⟨DDR_POL, 4, 3⟩
abbrev DDR_RH_CFG : Nat := 0x20000080C000 + 0x14
abbrev DDR_RH_CFG_ACT_THR : Fld := ⟨DDR_RH_CFG, 15, 0⟩
abbrev DDR_RH_CFG_QUOTA : Fld := ⟨DDR_RH_CFG, 23, 16⟩
abbrev DDR_RH_TIME : Nat := 0x20000080C000 + 0x18
abbrev DDR_RH_TIME_THR_MS : Fld := ⟨DDR_RH_TIME, 9, 0⟩
abbrev DDR_THR_STAT : Nat := 0x20000080C000 + 0x1c
abbrev DDR_THR_STAT_PORTS : Fld := ⟨DDR_THR_STAT, 17, 0⟩
abbrev DDR_THR_CNT : Nat := 0x20000080C000 + 0x20
abbrev DDR_THR_CNT_COUNT : Fld := ⟨DDR_THR_CNT, 31, 0⟩
abbrev DDR_SCRUB : Nat := 0x20000080C000 + 0x24
abbrev DDR_SCRUB_EN : Fld := ⟨DDR_SCRUB, 0, 0⟩
abbrev DDR_SCRUB_INTERVAL : Fld := ⟨DDR_SCRUB, 31, 16⟩
abbrev DDR_SCRUB_MIN : Nat := 0x20000080C000 + 0x28
abbrev DDR_SCRUB_MIN_MIN : Fld := ⟨DDR_SCRUB_MIN, 15, 0⟩
abbrev DDR_RET_CFG : Nat := 0x20000080C000 + 0x2c
abbrev DDR_RET_CFG_FW_EN : Fld := ⟨DDR_RET_CFG, 0, 0⟩
abbrev DDR_RET_CFG_CE_THR : Fld := ⟨DDR_RET_CFG, 15, 8⟩
abbrev DDR_RET_CNT : Nat := 0x20000080C000 + 0x30
abbrev DDR_RET_CNT_COUNT : Fld := ⟨DDR_RET_CNT, 31, 0⟩
abbrev DDR_RET_LAST_LO : Nat := 0x20000080C000 + 0x34
abbrev DDR_RET_LAST : Nat := DDR_RET_LAST_LO
abbrev DDR_RET_LAST_HI : Nat := 0x20000080C000 + 0x38

-- R363 (14_sensor_ingress.md)
abbrev ING_CTX_CTL (x : Nat) : Nat := (0x200000901000 + x * 0x100) + 0x0
abbrev ING_CTX_CTL_EN (x : Nat) : Fld := ⟨ING_CTX_CTL x, 0, 0⟩
abbrev ING_CTX_DRAIN (x : Nat) : Nat := (0x200000901000 + x * 0x100) + 0x4
abbrev ING_CTX_DRAIN_DRAIN_TO (x : Nat) : Fld := ⟨ING_CTX_DRAIN x, 23, 0⟩
abbrev ING_CTX_STAT (x : Nat) : Nat := (0x200000901000 + x * 0x100) + 0x8
abbrev ING_CTX_STAT_STATE (x : Nat) : Fld := ⟨ING_CTX_STAT x, 1, 0⟩
abbrev ING_CTX_STAT_LOCKED (x : Nat) : Fld := ⟨ING_CTX_STAT x, 2, 2⟩
abbrev ING_CTX_STAT_FROZEN (x : Nat) : Fld := ⟨ING_CTX_STAT x, 3, 3⟩
abbrev ING_CTX_STAT_RUN (x : Nat) : Fld := ⟨ING_CTX_STAT x, 7, 4⟩
abbrev ING_CTX_STAT_RELOCK_PITCHES (x : Nat) : Fld := ⟨ING_CTX_STAT x, 15, 8⟩
abbrev ING_CTX_PHASE_LO (x : Nat) : Nat := (0x200000901000 + x * 0x100) + 0xc
abbrev ING_CTX_PHASE (x : Nat) : Nat := ING_CTX_PHASE_LO x
abbrev ING_CTX_PHASE_HI (x : Nat) : Nat := (0x200000901000 + x * 0x100) + 0x10
abbrev ING_CTX_LAST (x : Nat) : Nat := (0x200000901000 + x * 0x100) + 0x14
abbrev ING_CTX_LAST_PITCH (x : Nat) : Fld := ⟨ING_CTX_LAST x, 15, 0⟩
abbrev ING_CTX_LAST_STATUS (x : Nat) : Fld := ⟨ING_CTX_LAST x, 23, 16⟩
abbrev ING_CTX_STAMP_LO (x : Nat) : Nat := (0x200000901000 + x * 0x100) + 0x18
abbrev ING_CTX_STAMP (x : Nat) : Nat := ING_CTX_STAMP_LO x
abbrev ING_CTX_STAMP_HI (x : Nat) : Nat := (0x200000901000 + x * 0x100) + 0x1c
abbrev ING_CTX_SIG_LO (x : Nat) : Nat := (0x200000901000 + x * 0x100) + 0x20
abbrev ING_CTX_SIG (x : Nat) : Nat := ING_CTX_SIG_LO x
abbrev ING_CTX_SIG_HI (x : Nat) : Nat := (0x200000901000 + x * 0x100) + 0x24
abbrev ING_CTX_OK_CNT (x : Nat) : Nat := (0x200000901000 + x * 0x100) + 0x28
abbrev ING_CTX_OK_CNT_COUNT (x : Nat) : Fld := ⟨ING_CTX_OK_CNT x, 31, 0⟩
abbrev ING_CTX_EXCL_CNT (x : Nat) : Nat := (0x200000901000 + x * 0x100) + 0x2c
abbrev ING_CTX_EXCL_CNT_COUNT (x : Nat) : Fld := ⟨ING_CTX_EXCL_CNT x, 31, 0⟩
abbrev ING_CTX_RPT_CNT (x : Nat) : Nat := (0x200000901000 + x * 0x100) + 0x30
abbrev ING_CTX_RPT_CNT_COUNT (x : Nat) : Fld := ⟨ING_CTX_RPT_CNT x, 31, 0⟩
abbrev ING_CTX_RELOCK_CNT (x : Nat) : Nat := (0x200000901000 + x * 0x100) + 0x34
abbrev ING_CTX_RELOCK_CNT_COUNT (x : Nat) : Fld := ⟨ING_CTX_RELOCK_CNT x, 31, 0⟩
abbrev ING_CTX_LATE_CNT (x : Nat) : Nat := (0x200000901000 + x * 0x100) + 0x38
abbrev ING_CTX_LATE_CNT_COUNT (x : Nat) : Fld := ⟨ING_CTX_LATE_CNT x, 31, 0⟩
abbrev ING_CTX_IGN_CNT (x : Nat) : Nat := (0x200000901000 + x * 0x100) + 0x3c
abbrev ING_CTX_IGN_CNT_COUNT (x : Nat) : Fld := ⟨ING_CTX_IGN_CNT x, 31, 0⟩
abbrev ING_CTX_ENTRY (x : Nat) (i : Nat) : Nat := (0x200000901000 + x * 0x100) + 0x80 + i * 0x4
abbrev ING_CTX_ENTRY_ENTRY (x : Nat) (i : Nat) : Fld := ⟨ING_CTX_ENTRY x i, 31, 0⟩

-- R364 (14_sensor_ingress.md)
abbrev ING_STAT : Nat := 0x200000900000 + 0x0
abbrev ING_STAT_ON : Fld := ⟨ING_STAT, 23, 0⟩
abbrev ING_CSI_STAT (p : Nat) : Nat := 0x200000900000 + 0x100 + p * 0x10
abbrev ING_CSI_STAT_SYNC (p : Nat) : Fld := ⟨ING_CSI_STAT p, 0, 0⟩
abbrev ING_CSI_STAT_PHY_ERR (p : Nat) : Fld := ⟨ING_CSI_STAT p, 1, 1⟩
abbrev ING_CSI_ECC_CNT (p : Nat) : Nat := 0x200000900000 + 0x104 + p * 0x10
abbrev ING_CSI_ECC_CNT_COUNT (p : Nat) : Fld := ⟨ING_CSI_ECC_CNT p, 31, 0⟩
abbrev ING_CSI_CRC_CNT (p : Nat) : Nat := 0x200000900000 + 0x108 + p * 0x10
abbrev ING_CSI_CRC_CNT_COUNT (p : Nat) : Fld := ⟨ING_CSI_CRC_CNT p, 31, 0⟩
abbrev FSY_STAT (o : Nat) : Nat := 0x200000900000 + 0x300 + o * 0x8
abbrev FSY_STAT_LEVEL (o : Nat) : Fld := ⟨FSY_STAT o, 0, 0⟩
abbrev FSY_STAT_CTX (o : Nat) : Fld := ⟨FSY_STAT o, 5, 1⟩
abbrev FSY_OMIT_CNT (o : Nat) : Nat := 0x200000900000 + 0x304 + o * 0x8
abbrev FSY_OMIT_CNT_COUNT (o : Nat) : Fld := ⟨FSY_OMIT_CNT o, 31, 0⟩

-- R368 (14_sensor_ingress.md)
abbrev ICU_SRC_CFG (s : Nat) : Nat := 0x200001400000 + 0x0 + s * 0x4
abbrev ICU_SRC_CFG_TARGET (s : Nat) : Fld := ⟨ICU_SRC_CFG s, 3, 0⟩
abbrev ICU_SRC_CFG_SMODE (s : Nat) : Fld := ⟨ICU_SRC_CFG s, 4, 4⟩
abbrev ICU_SRC_CFG_PRIO (s : Nat) : Fld := ⟨ICU_SRC_CFG s, 7, 5⟩
abbrev ICU_SRC_CFG_PEND (s : Nat) : Fld := ⟨ICU_SRC_CFG s, 8, 8⟩
abbrev ICU_SRC_CFG_INSRV (s : Nat) : Fld := ⟨ICU_SRC_CFG s, 9, 9⟩
abbrev ICU_THR (u : Nat) : Nat := 0x200001400000 + 0x800 + u * 0x10
abbrev ICU_THR_THR (u : Nat) : Fld := ⟨ICU_THR u, 2, 0⟩
abbrev ICU_CLAIM (u : Nat) : Nat := 0x200001400000 + 0x804 + u * 0x10
abbrev ICU_CLAIM_ID (u : Nat) : Fld := ⟨ICU_CLAIM u, 8, 0⟩
abbrev ICU_MSG : Nat := 0x200001400000 + 0xa00
abbrev ICU_MSG_SRC : Fld := ⟨ICU_MSG, 7, 0⟩
abbrev ICU_MSG_IGN_CNT : Nat := 0x200001400000 + 0xa04
abbrev ICU_MSG_IGN_CNT_COUNT : Fld := ⟨ICU_MSG_IGN_CNT, 31, 0⟩

-- R371 (14_sensor_ingress.md)
abbrev ETH_CTL (m : Nat) : Nat := (0x200001500000 + m * 0x1000) + 0x0
abbrev ETH_CTL_EN (m : Nat) : Fld := ⟨ETH_CTL m, 0, 0⟩
abbrev ETH_CTL_PROMISC (m : Nat) : Fld := ⟨ETH_CTL m, 1, 1⟩
abbrev ETH_DRAIN (m : Nat) : Nat := (0x200001500000 + m * 0x1000) + 0x4
abbrev ETH_DRAIN_DRAIN_TO (m : Nat) : Fld := ⟨ETH_DRAIN m, 23, 0⟩
abbrev ETH_STAT (m : Nat) : Nat := (0x200001500000 + m * 0x1000) + 0x8
abbrev ETH_STAT_STATE (m : Nat) : Fld := ⟨ETH_STAT m, 1, 0⟩
abbrev ETH_STAT_LINK (m : Nat) : Fld := ⟨ETH_STAT m, 2, 2⟩
abbrev ETH_STAT_PTR_IGN (m : Nat) : Fld := ⟨ETH_STAT m, 3, 3⟩
abbrev ETH_ADDR_LO (m : Nat) : Nat := (0x200001500000 + m * 0x1000) + 0x10
abbrev ETH_ADDR_LO_ADDR (m : Nat) : Fld := ⟨ETH_ADDR_LO m, 31, 0⟩
abbrev ETH_ADDR_HI (m : Nat) : Nat := (0x200001500000 + m * 0x1000) + 0x14
abbrev ETH_ADDR_HI_ADDR (m : Nat) : Fld := ⟨ETH_ADDR_HI m, 15, 0⟩
abbrev ETH_ADDR_HI_MODE (m : Nat) : Fld := ⟨ETH_ADDR_HI m, 17, 16⟩
abbrev ETH_ADDR_HI_USE (m : Nat) : Fld := ⟨ETH_ADDR_HI m, 18, 18⟩
abbrev ETH_ADDR_HI_PTP (m : Nat) : Fld := ⟨ETH_ADDR_HI m, 19, 19⟩
abbrev ETH_RXQ_BASE_LO (m : Nat) : Nat := (0x200001500000 + m * 0x1000) + 0x20
abbrev ETH_RXQ_BASE (m : Nat) : Nat := ETH_RXQ_BASE_LO m
abbrev ETH_RXQ_BASE_HI (m : Nat) : Nat := (0x200001500000 + m * 0x1000) + 0x24
abbrev ETH_RXQ_CFG (m : Nat) : Nat := (0x200001500000 + m * 0x1000) + 0x28
abbrev ETH_RXQ_CFG_SIZE (m : Nat) : Fld := ⟨ETH_RXQ_CFG m, 12, 0⟩
abbrev ETH_RXQ_CFG_BUF (m : Nat) : Fld := ⟨ETH_RXQ_CFG m, 23, 16⟩
abbrev ETH_RXQ_PTR (m : Nat) : Nat := (0x200001500000 + m * 0x1000) + 0x2c
abbrev ETH_RXQ_PTR_HEAD (m : Nat) : Fld := ⟨ETH_RXQ_PTR m, 11, 0⟩
abbrev ETH_RXQ_PTR_TAIL (m : Nat) : Fld := ⟨ETH_RXQ_PTR m, 27, 16⟩
abbrev ETH_TXQ0_BASE_LO (m : Nat) : Nat := (0x200001500000 + m * 0x1000) + 0x30
abbrev ETH_TXQ0_BASE (m : Nat) : Nat := ETH_TXQ0_BASE_LO m
abbrev ETH_TXQ0_BASE_HI (m : Nat) : Nat := (0x200001500000 + m * 0x1000) + 0x34
abbrev ETH_TXQ0_CFG (m : Nat) : Nat := (0x200001500000 + m * 0x1000) + 0x38
abbrev ETH_TXQ0_CFG_SIZE (m : Nat) : Fld := ⟨ETH_TXQ0_CFG m, 12, 0⟩
abbrev ETH_TXQ0_PTR (m : Nat) : Nat := (0x200001500000 + m * 0x1000) + 0x3c
abbrev ETH_TXQ0_PTR_HEAD (m : Nat) : Fld := ⟨ETH_TXQ0_PTR m, 11, 0⟩
abbrev ETH_TXQ0_PTR_TAIL (m : Nat) : Fld := ⟨ETH_TXQ0_PTR m, 27, 16⟩
abbrev ETH_TXQ1_BASE_LO (m : Nat) : Nat := (0x200001500000 + m * 0x1000) + 0x40
abbrev ETH_TXQ1_BASE (m : Nat) : Nat := ETH_TXQ1_BASE_LO m
abbrev ETH_TXQ1_BASE_HI (m : Nat) : Nat := (0x200001500000 + m * 0x1000) + 0x44
abbrev ETH_TXQ1_CFG (m : Nat) : Nat := (0x200001500000 + m * 0x1000) + 0x48
abbrev ETH_TXQ1_CFG_SIZE (m : Nat) : Fld := ⟨ETH_TXQ1_CFG m, 12, 0⟩
abbrev ETH_TXQ1_PTR (m : Nat) : Nat := (0x200001500000 + m * 0x1000) + 0x4c
abbrev ETH_TXQ1_PTR_HEAD (m : Nat) : Fld := ⟨ETH_TXQ1_PTR m, 11, 0⟩
abbrev ETH_TXQ1_PTR_TAIL (m : Nat) : Fld := ⟨ETH_TXQ1_PTR m, 27, 16⟩
abbrev ETH_TXQ1_CW_LO (m : Nat) : Nat := (0x200001500000 + m * 0x1000) + 0x50
abbrev ETH_TXQ1_CW (m : Nat) : Nat := ETH_TXQ1_CW_LO m
abbrev ETH_TXQ1_CW_HI (m : Nat) : Nat := (0x200001500000 + m * 0x1000) + 0x54
abbrev ETH_TXQ1_OWN (m : Nat) : Nat := (0x200001500000 + m * 0x1000) + 0x58
abbrev ETH_TXQ1_OWN_PART (m : Nat) : Fld := ⟨ETH_TXQ1_OWN m, 4, 0⟩
abbrev ETH_RX_CNT (m : Nat) : Nat := (0x200001500000 + m * 0x1000) + 0x60
abbrev ETH_RX_CNT_COUNT (m : Nat) : Fld := ⟨ETH_RX_CNT m, 31, 0⟩
abbrev ETH_RX_DROP_CNT (m : Nat) : Nat := (0x200001500000 + m * 0x1000) + 0x64
abbrev ETH_RX_DROP_CNT_COUNT (m : Nat) : Fld := ⟨ETH_RX_DROP_CNT m, 31, 0⟩
abbrev ETH_TX_CNT (m : Nat) : Nat := (0x200001500000 + m * 0x1000) + 0x68
abbrev ETH_TX_CNT_COUNT (m : Nat) : Fld := ⟨ETH_TX_CNT m, 31, 0⟩
abbrev ETH_TX_LATE_CNT (m : Nat) : Nat := (0x200001500000 + m * 0x1000) + 0x6c
abbrev ETH_TX_LATE_CNT_COUNT (m : Nat) : Fld := ⟨ETH_TX_LATE_CNT m, 31, 0⟩

-- R373 (14_sensor_ingress.md)
abbrev CAN_CTL (k : Nat) : Nat := (0x200001600000 + k * 0x400) + 0x0
abbrev CAN_CTL_EN (k : Nat) : Fld := ⟨CAN_CTL k, 0, 0⟩
abbrev CAN_CTL_FD_EN (k : Nat) : Fld := ⟨CAN_CTL k, 1, 1⟩
abbrev CAN_CTL_RECOVER (k : Nat) : Fld := ⟨CAN_CTL k, 2, 2⟩
abbrev CAN_CTL_LOOP (k : Nat) : Fld := ⟨CAN_CTL k, 3, 3⟩
abbrev CAN_DRAIN (k : Nat) : Nat := (0x200001600000 + k * 0x400) + 0x4
abbrev CAN_DRAIN_DRAIN_TO (k : Nat) : Fld := ⟨CAN_DRAIN k, 23, 0⟩
abbrev CAN_NBT (k : Nat) : Nat := (0x200001600000 + k * 0x400) + 0x8
abbrev CAN_NBT_PRESC (k : Nat) : Fld := ⟨CAN_NBT k, 7, 0⟩
abbrev CAN_NBT_TSEG1 (k : Nat) : Fld := ⟨CAN_NBT k, 15, 8⟩
abbrev CAN_NBT_TSEG2 (k : Nat) : Fld := ⟨CAN_NBT k, 22, 16⟩
abbrev CAN_NBT_SJW (k : Nat) : Fld := ⟨CAN_NBT k, 29, 23⟩
abbrev CAN_DBT (k : Nat) : Nat := (0x200001600000 + k * 0x400) + 0xc
abbrev CAN_DBT_PRESC (k : Nat) : Fld := ⟨CAN_DBT k, 4, 0⟩
abbrev CAN_DBT_TSEG1 (k : Nat) : Fld := ⟨CAN_DBT k, 12, 8⟩
abbrev CAN_DBT_TSEG2 (k : Nat) : Fld := ⟨CAN_DBT k, 19, 16⟩
abbrev CAN_DBT_SJW (k : Nat) : Fld := ⟨CAN_DBT k, 27, 24⟩
abbrev CAN_DBT_TDC (k : Nat) : Fld := ⟨CAN_DBT k, 28, 28⟩
abbrev CAN_STAT (k : Nat) : Nat := (0x200001600000 + k * 0x400) + 0x10
abbrev CAN_STAT_STATE (k : Nat) : Fld := ⟨CAN_STAT k, 1, 0⟩
abbrev CAN_STAT_ERR (k : Nat) : Fld := ⟨CAN_STAT k, 3, 2⟩
abbrev CAN_STAT_TEC (k : Nat) : Fld := ⟨CAN_STAT k, 11, 4⟩
abbrev CAN_STAT_REC (k : Nat) : Fld := ⟨CAN_STAT k, 19, 12⟩
abbrev CAN_STAT_PTR_IGN (k : Nat) : Fld := ⟨CAN_STAT k, 20, 20⟩
abbrev CAN_ERR_CNT (k : Nat) : Nat := (0x200001600000 + k * 0x400) + 0x14
abbrev CAN_ERR_CNT_COUNT (k : Nat) : Fld := ⟨CAN_ERR_CNT k, 31, 0⟩
abbrev CAN_BUSOFF_CNT (k : Nat) : Nat := (0x200001600000 + k * 0x400) + 0x18
abbrev CAN_BUSOFF_CNT_COUNT (k : Nat) : Fld := ⟨CAN_BUSOFF_CNT k, 31, 0⟩
abbrev CAN_RXQ_BASE_LO (k : Nat) : Nat := (0x200001600000 + k * 0x400) + 0x20
abbrev CAN_RXQ_BASE (k : Nat) : Nat := CAN_RXQ_BASE_LO k
abbrev CAN_RXQ_BASE_HI (k : Nat) : Nat := (0x200001600000 + k * 0x400) + 0x24
abbrev CAN_RXQ_CFG (k : Nat) : Nat := (0x200001600000 + k * 0x400) + 0x28
abbrev CAN_RXQ_CFG_SIZE (k : Nat) : Fld := ⟨CAN_RXQ_CFG k, 12, 0⟩
abbrev CAN_RXQ_PTR (k : Nat) : Nat := (0x200001600000 + k * 0x400) + 0x2c
abbrev CAN_RXQ_PTR_HEAD (k : Nat) : Fld := ⟨CAN_RXQ_PTR k, 11, 0⟩
abbrev CAN_RXQ_PTR_TAIL (k : Nat) : Fld := ⟨CAN_RXQ_PTR k, 27, 16⟩
abbrev CAN_TXQ0_BASE_LO (k : Nat) : Nat := (0x200001600000 + k * 0x400) + 0x30
abbrev CAN_TXQ0_BASE (k : Nat) : Nat := CAN_TXQ0_BASE_LO k
abbrev CAN_TXQ0_BASE_HI (k : Nat) : Nat := (0x200001600000 + k * 0x400) + 0x34
abbrev CAN_TXQ0_CFG (k : Nat) : Nat := (0x200001600000 + k * 0x400) + 0x38
abbrev CAN_TXQ0_CFG_SIZE (k : Nat) : Fld := ⟨CAN_TXQ0_CFG k, 12, 0⟩
abbrev CAN_TXQ0_PTR (k : Nat) : Nat := (0x200001600000 + k * 0x400) + 0x3c
abbrev CAN_TXQ0_PTR_HEAD (k : Nat) : Fld := ⟨CAN_TXQ0_PTR k, 11, 0⟩
abbrev CAN_TXQ0_PTR_TAIL (k : Nat) : Fld := ⟨CAN_TXQ0_PTR k, 27, 16⟩
abbrev CAN_TXQ1_BASE_LO (k : Nat) : Nat := (0x200001600000 + k * 0x400) + 0x40
abbrev CAN_TXQ1_BASE (k : Nat) : Nat := CAN_TXQ1_BASE_LO k
abbrev CAN_TXQ1_BASE_HI (k : Nat) : Nat := (0x200001600000 + k * 0x400) + 0x44
abbrev CAN_TXQ1_CFG (k : Nat) : Nat := (0x200001600000 + k * 0x400) + 0x48
abbrev CAN_TXQ1_CFG_SIZE (k : Nat) : Fld := ⟨CAN_TXQ1_CFG k, 12, 0⟩
abbrev CAN_TXQ1_PTR (k : Nat) : Nat := (0x200001600000 + k * 0x400) + 0x4c
abbrev CAN_TXQ1_PTR_HEAD (k : Nat) : Fld := ⟨CAN_TXQ1_PTR k, 11, 0⟩
abbrev CAN_TXQ1_PTR_TAIL (k : Nat) : Fld := ⟨CAN_TXQ1_PTR k, 27, 16⟩
abbrev CAN_TXQ1_CW_LO (k : Nat) : Nat := (0x200001600000 + k * 0x400) + 0x50
abbrev CAN_TXQ1_CW (k : Nat) : Nat := CAN_TXQ1_CW_LO k
abbrev CAN_TXQ1_CW_HI (k : Nat) : Nat := (0x200001600000 + k * 0x400) + 0x54
abbrev CAN_TXQ1_OWN (k : Nat) : Nat := (0x200001600000 + k * 0x400) + 0x58
abbrev CAN_TXQ1_OWN_PART (k : Nat) : Fld := ⟨CAN_TXQ1_OWN k, 4, 0⟩
abbrev CAN_RX_CNT (k : Nat) : Nat := (0x200001600000 + k * 0x400) + 0x60
abbrev CAN_RX_CNT_COUNT (k : Nat) : Fld := ⟨CAN_RX_CNT k, 31, 0⟩
abbrev CAN_RX_DROP_CNT (k : Nat) : Nat := (0x200001600000 + k * 0x400) + 0x64
abbrev CAN_RX_DROP_CNT_COUNT (k : Nat) : Fld := ⟨CAN_RX_DROP_CNT k, 31, 0⟩
abbrev CAN_TX_CNT (k : Nat) : Nat := (0x200001600000 + k * 0x400) + 0x68
abbrev CAN_TX_CNT_COUNT (k : Nat) : Fld := ⟨CAN_TX_CNT k, 31, 0⟩
abbrev CAN_TX_LATE_CNT (k : Nat) : Nat := (0x200001600000 + k * 0x400) + 0x6c
abbrev CAN_TX_LATE_CNT_COUNT (k : Nat) : Fld := ⟨CAN_TX_LATE_CNT k, 31, 0⟩
abbrev CAN_FLT_ID (k : Nat) (f : Nat) : Nat := (0x200001600000 + k * 0x400) + 0x80 + f * 0x8
abbrev CAN_FLT_ID_ID (k : Nat) (f : Nat) : Fld := ⟨CAN_FLT_ID k f, 28, 0⟩
abbrev CAN_FLT_ID_EXT (k : Nat) (f : Nat) : Fld := ⟨CAN_FLT_ID k f, 29, 29⟩
abbrev CAN_FLT_ID_EN (k : Nat) (f : Nat) : Fld := ⟨CAN_FLT_ID k f, 31, 31⟩
abbrev CAN_FLT_MASK (k : Nat) (f : Nat) : Nat := (0x200001600000 + k * 0x400) + 0x84 + f * 0x8
abbrev CAN_FLT_MASK_MASK (k : Nat) (f : Nat) : Fld := ⟨CAN_FLT_MASK k f, 28, 0⟩

-- R375 (14_sensor_ingress.md)
abbrev SPI_CFG (k : Nat) : Nat := (0x200001700000 + k * 0x100) + 0x0
abbrev SPI_CFG_MODE (k : Nat) : Fld := ⟨SPI_CFG k, 1, 0⟩
abbrev SPI_CFG_CLK_KHZ (k : Nat) : Fld := ⟨SPI_CFG k, 30, 16⟩
abbrev SPI_CMD (k : Nat) : Nat := (0x200001700000 + k * 0x100) + 0x4
abbrev SPI_CMD_TX_LEN (k : Nat) : Fld := ⟨SPI_CMD k, 5, 0⟩
abbrev SPI_CMD_RX_LEN (k : Nat) : Fld := ⟨SPI_CMD k, 13, 8⟩
abbrev SPI_CMD_GO (k : Nat) : Fld := ⟨SPI_CMD k, 16, 16⟩
abbrev SPI_STAT (k : Nat) : Nat := (0x200001700000 + k * 0x100) + 0x8
abbrev SPI_STAT_BUSY (k : Nat) : Fld := ⟨SPI_STAT k, 0, 0⟩
abbrev SPI_STAT_HELD (k : Nat) : Fld := ⟨SPI_STAT k, 1, 1⟩
abbrev SPI_STAT_DONE (k : Nat) : Fld := ⟨SPI_STAT k, 2, 2⟩
abbrev SPI_STAT_IGN (k : Nat) : Fld := ⟨SPI_STAT k, 3, 3⟩
abbrev SPI_STEP (k : Nat) : Nat := (0x200001700000 + k * 0x100) + 0xc
abbrev SPI_STEP_EN (k : Nat) : Fld := ⟨SPI_STEP k, 0, 0⟩
abbrev SPI_STEP_MODE (k : Nat) : Fld := ⟨SPI_STEP k, 2, 1⟩
abbrev SPI_STEP_CLK_KHZ (k : Nat) : Fld := ⟨SPI_STEP k, 17, 3⟩
abbrev SPI_TXD (k : Nat) (i : Nat) : Nat := (0x200001700000 + k * 0x100) + 0x10 + i * 0x4
abbrev SPI_TXD_DATA (k : Nat) (i : Nat) : Fld := ⟨SPI_TXD k i, 31, 0⟩
abbrev SPI_RXD (k : Nat) (i : Nat) : Nat := (0x200001700000 + k * 0x100) + 0x30 + i * 0x4
abbrev SPI_RXD_DATA (k : Nat) (i : Nat) : Fld := ⟨SPI_RXD k i, 31, 0⟩

-- R377 (14_sensor_ingress.md)
abbrev I2C_CFG (k : Nat) : Nat := (0x200001700400 + k * 0x100) + 0x0
abbrev I2C_CFG_SPEED (k : Nat) : Fld := ⟨I2C_CFG k, 1, 0⟩
abbrev I2C_CFG_TMO_MS (k : Nat) : Fld := ⟨I2C_CFG k, 15, 8⟩
abbrev I2C_CMD (k : Nat) : Nat := (0x200001700400 + k * 0x100) + 0x4
abbrev I2C_CMD_ADDR (k : Nat) : Fld := ⟨I2C_CMD k, 6, 0⟩
abbrev I2C_CMD_WR_LEN (k : Nat) : Fld := ⟨I2C_CMD k, 13, 8⟩
abbrev I2C_CMD_RD_LEN (k : Nat) : Fld := ⟨I2C_CMD k, 21, 16⟩
abbrev I2C_CMD_GO (k : Nat) : Fld := ⟨I2C_CMD k, 24, 24⟩
abbrev I2C_STAT (k : Nat) : Nat := (0x200001700400 + k * 0x100) + 0x8
abbrev I2C_STAT_BUSY (k : Nat) : Fld := ⟨I2C_STAT k, 0, 0⟩
abbrev I2C_STAT_DONE (k : Nat) : Fld := ⟨I2C_STAT k, 1, 1⟩
abbrev I2C_STAT_RESULT (k : Nat) : Fld := ⟨I2C_STAT k, 3, 2⟩
abbrev I2C_STAT_NACK_BYTE (k : Nat) : Fld := ⟨I2C_STAT k, 9, 4⟩
abbrev I2C_STAT_IGN (k : Nat) : Fld := ⟨I2C_STAT k, 10, 10⟩
abbrev I2C_DATA (k : Nat) (i : Nat) : Nat := (0x200001700400 + k * 0x100) + 0x10 + i * 0x4
abbrev I2C_DATA_DATA (k : Nat) (i : Nat) : Fld := ⟨I2C_DATA k i, 31, 0⟩

-- R381 (14_sensor_ingress.md)
abbrev PCIE_CTL : Nat := 0x200001800000 + 0x0
abbrev PCIE_CTL_EN : Fld := ⟨PCIE_CTL, 0, 0⟩
abbrev PCIE_CTL_MODE : Fld := ⟨PCIE_CTL, 1, 1⟩
abbrev PCIE_CTL_MAX_GEN : Fld := ⟨PCIE_CTL, 4, 2⟩
abbrev PCIE_CTL_WIDTH : Fld := ⟨PCIE_CTL, 6, 5⟩
abbrev PCIE_DRAIN : Nat := 0x200001800000 + 0x4
abbrev PCIE_DRAIN_DRAIN_US : Fld := ⟨PCIE_DRAIN, 23, 0⟩
abbrev PCIE_STAT : Nat := 0x200001800000 + 0x8
abbrev PCIE_STAT_STATE : Fld := ⟨PCIE_STAT, 1, 0⟩
abbrev PCIE_STAT_LINK_UP : Fld := ⟨PCIE_STAT, 2, 2⟩
abbrev PCIE_STAT_GEN : Fld := ⟨PCIE_STAT, 5, 3⟩
abbrev PCIE_STAT_WIDTH : Fld := ⟨PCIE_STAT, 7, 6⟩
abbrev PCIE_STAT_LINK_EVT : Fld := ⟨PCIE_STAT, 8, 8⟩
abbrev PCIE_BAR0_MAP_LO : Nat := 0x200001800000 + 0x10
abbrev PCIE_BAR0_MAP : Nat := PCIE_BAR0_MAP_LO
abbrev PCIE_BAR0_MAP_HI : Nat := 0x200001800000 + 0x14
abbrev PCIE_BAR2_MAP_LO : Nat := 0x200001800000 + 0x18
abbrev PCIE_BAR2_MAP : Nat := PCIE_BAR2_MAP_LO
abbrev PCIE_BAR2_MAP_HI : Nat := 0x200001800000 + 0x1c
abbrev PCIE_BAR2_SIZE : Nat := 0x200001800000 + 0x20
abbrev PCIE_BAR2_SIZE_LOG2 : Fld := ⟨PCIE_BAR2_SIZE, 5, 0⟩
abbrev PCIE_MSIX_TRIG : Nat := 0x200001800000 + 0x24
abbrev PCIE_MSIX_TRIG_VEC : Fld := ⟨PCIE_MSIX_TRIG, 3, 0⟩
abbrev PCIE_CFG_ADDR : Nat := 0x200001800000 + 0x30
abbrev PCIE_CFG_ADDR_REG : Fld := ⟨PCIE_CFG_ADDR, 11, 0⟩
abbrev PCIE_CFG_ADDR_FUNC : Fld := ⟨PCIE_CFG_ADDR, 14, 12⟩
abbrev PCIE_CFG_ADDR_DEV : Fld := ⟨PCIE_CFG_ADDR, 19, 15⟩
abbrev PCIE_CFG_ADDR_BUS : Fld := ⟨PCIE_CFG_ADDR, 27, 20⟩
abbrev PCIE_CFG_DATA : Nat := 0x200001800000 + 0x34
abbrev PCIE_CFG_DATA_DATA : Fld := ⟨PCIE_CFG_DATA, 31, 0⟩
abbrev PCIE_CFG_STAT : Nat := 0x200001800000 + 0x38
abbrev PCIE_CFG_STAT_BUSY : Fld := ⟨PCIE_CFG_STAT, 0, 0⟩
abbrev PCIE_CFG_STAT_RESULT : Fld := ⟨PCIE_CFG_STAT, 2, 1⟩
abbrev PCIE_IN_PCI_LO (w : Nat) : Nat := 0x200001800000 + 0x40 + w * 0x20
abbrev PCIE_IN_PCI (w : Nat) : Nat := PCIE_IN_PCI_LO w
abbrev PCIE_IN_PCI_HI (w : Nat) : Nat := 0x200001800000 + 0x44 + w * 0x20
abbrev PCIE_IN_GLB_LO (w : Nat) : Nat := 0x200001800000 + 0x48 + w * 0x20
abbrev PCIE_IN_GLB (w : Nat) : Nat := PCIE_IN_GLB_LO w
abbrev PCIE_IN_GLB_HI (w : Nat) : Nat := 0x200001800000 + 0x4c + w * 0x20
abbrev PCIE_IN_SIZE (w : Nat) : Nat := 0x200001800000 + 0x50 + w * 0x20
abbrev PCIE_IN_SIZE_LOG2 (w : Nat) : Fld := ⟨PCIE_IN_SIZE w, 5, 0⟩
abbrev PCIE_IN_SIZE_EN (w : Nat) : Fld := ⟨PCIE_IN_SIZE w, 31, 31⟩
abbrev PCIE_MSI_ADDR_LO : Nat := 0x200001800000 + 0x80
abbrev PCIE_MSI_ADDR : Nat := PCIE_MSI_ADDR_LO
abbrev PCIE_MSI_ADDR_HI : Nat := 0x200001800000 + 0x84
abbrev PCIE_ERR_CNT : Nat := 0x200001800000 + 0x88
abbrev PCIE_ERR_CNT_COUNT : Fld := ⟨PCIE_ERR_CNT, 31, 0⟩

-- R408 (15_fusion_tracking.md)
abbrev FUS_CTL : Nat := 0x200000A00000 + 0x0
abbrev FUS_CTL_EN : Fld := ⟨FUS_CTL, 0, 0⟩
abbrev FUS_CTL_COMMIT : Fld := ⟨FUS_CTL, 1, 1⟩
abbrev FUS_DRAIN : Nat := 0x200000A00000 + 0x4
abbrev FUS_DRAIN_DRAIN_TO : Fld := ⟨FUS_DRAIN, 23, 0⟩
abbrev FUS_STAT : Nat := 0x200000A00000 + 0x8
abbrev FUS_STAT_STATE : Fld := ⟨FUS_STAT, 1, 0⟩
abbrev FUS_STAT_RUN : Fld := ⟨FUS_STAT, 3, 2⟩
abbrev FUS_STAT_EGO_MODE : Fld := ⟨FUS_STAT, 5, 4⟩
abbrev FUS_STAT_CFG_ERR : Fld := ⟨FUS_STAT, 6, 6⟩
abbrev FUS_STAT_TRACKS : Fld := ⟨FUS_STAT, 18, 8⟩
abbrev FUS_LIM : Nat := 0x200000A00000 + 0xc
abbrev FUS_LIM_TRK_MAX : Fld := ⟨FUS_LIM, 10, 0⟩
abbrev FUS_LIM_DET_MAX : Fld := ⟨FUS_LIM, 28, 16⟩
abbrev FUS_LIM2 : Nat := 0x200000A00000 + 0x10
abbrev FUS_LIM2_GRID_MAX : Fld := ⟨FUS_LIM2, 3, 0⟩
abbrev FUS_LIM2_LATE_MAX : Fld := ⟨FUS_LIM2, 13, 4⟩
abbrev FUS_DL : Nat := 0x200000A00000 + 0x14
abbrev FUS_DL_DL_US : Fld := ⟨FUS_DL, 16, 0⟩
abbrev FUS_INST : Nat := 0x200000A00000 + 0x18
abbrev FUS_INST_INST_OFF_US : Fld := ⟨FUS_INST, 16, 0⟩
abbrev FUS_OWN : Nat := 0x200000A00000 + 0x1c
abbrev FUS_OWN_PART : Fld := ⟨FUS_OWN, 3, 0⟩
abbrev FUS_OBJ_LO : Nat := 0x200000A00000 + 0x20
abbrev FUS_OBJ : Nat := FUS_OBJ_LO
abbrev FUS_OBJ_HI : Nat := 0x200000A00000 + 0x24
abbrev FUS_GRID_LO : Nat := 0x200000A00000 + 0x28
abbrev FUS_GRID : Nat := FUS_GRID_LO
abbrev FUS_GRID_HI : Nat := 0x200000A00000 + 0x2c
abbrev FUS_CW_LO : Nat := 0x200000A00000 + 0x30
abbrev FUS_CW : Nat := FUS_CW_LO
abbrev FUS_CW_HI : Nat := 0x200000A00000 + 0x34
abbrev FUS_APP_LO : Nat := 0x200000A00000 + 0x38
abbrev FUS_APP : Nat := FUS_APP_LO
abbrev FUS_APP_HI : Nat := 0x200000A00000 + 0x3c
abbrev FUS_TRK_CFG : Nat := 0x200000A00000 + 0x40
abbrev FUS_TRK_CFG_CONF_HITS : Fld := ⟨FUS_TRK_CFG, 3, 0⟩
abbrev FUS_TRK_CFG_CONF_WIN : Fld := ⟨FUS_TRK_CFG, 7, 4⟩
abbrev FUS_TRK_CFG_MISS_MAX : Fld := ⟨FUS_TRK_CFG, 13, 8⟩
abbrev FUS_TRK_CFG_GATE : Fld := ⟨FUS_TRK_CFG, 31, 16⟩
abbrev FUS_TRK_CFG2 : Nat := 0x200000A00000 + 0x44
abbrev FUS_TRK_CFG2_W_APP : Fld := ⟨FUS_TRK_CFG2, 15, 0⟩
abbrev FUS_TRK_CFG2_BIRTH_SCORE : Fld := ⟨FUS_TRK_CFG2, 23, 16⟩
abbrev FUS_TRK_CFG2_OOSM_INFL : Fld := ⟨FUS_TRK_CFG2, 31, 24⟩
abbrev FUS_TRK_NOISE : Nat := 0x200000A00000 + 0x48
abbrev FUS_TRK_NOISE_Q_ACC : Fld := ⟨FUS_TRK_NOISE, 15, 0⟩
abbrev FUS_TRK_NOISE_Q_YAW : Fld := ⟨FUS_TRK_NOISE, 31, 16⟩
abbrev FUS_GRID_CFG : Nat := 0x200000A00000 + 0x4c
abbrev FUS_GRID_CFG_CELL_MM : Fld := ⟨FUS_GRID_CFG, 9, 0⟩
abbrev FUS_GRID_CFG_ORG_X : Fld := ⟨FUS_GRID_CFG, 18, 10⟩
abbrev FUS_GRID_CFG_ORG_Y : Fld := ⟨FUS_GRID_CFG, 27, 19⟩
abbrev FUS_DONE_CNT : Nat := 0x200000A00000 + 0x60
abbrev FUS_DONE_CNT_COUNT : Fld := ⟨FUS_DONE_CNT, 31, 0⟩
abbrev FUS_WITHHELD_CNT : Nat := 0x200000A00000 + 0x64
abbrev FUS_WITHHELD_CNT_COUNT : Fld := ⟨FUS_WITHHELD_CNT, 31, 0⟩
abbrev FUS_MISS_CNT : Nat := 0x200000A00000 + 0x68
abbrev FUS_MISS_CNT_COUNT : Fld := ⟨FUS_MISS_CNT, 31, 0⟩
abbrev FUS_LATE_APP_CNT : Nat := 0x200000A00000 + 0x6c
abbrev FUS_LATE_APP_CNT_COUNT : Fld := ⟨FUS_LATE_APP_CNT, 31, 0⟩
abbrev FUS_LATE_DISC_CNT : Nat := 0x200000A00000 + 0x70
abbrev FUS_LATE_DISC_CNT_COUNT : Fld := ⟨FUS_LATE_DISC_CNT, 31, 0⟩
abbrev FUS_STALE_APP_CNT : Nat := 0x200000A00000 + 0x74
abbrev FUS_STALE_APP_CNT_COUNT : Fld := ⟨FUS_STALE_APP_CNT, 31, 0⟩
abbrev FUS_TRUNC_CNT : Nat := 0x200000A00000 + 0x78
abbrev FUS_TRUNC_CNT_COUNT : Fld := ⟨FUS_TRUNC_CNT, 31, 0⟩
abbrev FUS_BIRTH_CNT : Nat := 0x200000A00000 + 0x7c
abbrev FUS_BIRTH_CNT_COUNT : Fld := ⟨FUS_BIRTH_CNT, 31, 0⟩
abbrev FUS_DEL_CNT : Nat := 0x200000A00000 + 0x80
abbrev FUS_DEL_CNT_COUNT : Fld := ⟨FUS_DEL_CNT, 31, 0⟩
abbrev FUS_FULL_CNT : Nat := 0x200000A00000 + 0x84
abbrev FUS_FULL_CNT_COUNT : Fld := ⟨FUS_FULL_CNT, 31, 0⟩
abbrev FUS_EGO_CTL : Nat := 0x200000A00000 + 0x100
abbrev FUS_EGO_CTL_FORCE_DATA : Fld := ⟨FUS_EGO_CTL, 0, 0⟩
abbrev FUS_EGO_CTL_EGO_CAN : Fld := ⟨FUS_EGO_CTL, 3, 1⟩
abbrev FUS_EGO_CTL_EGO_SPI : Fld := ⟨FUS_EGO_CTL, 5, 4⟩
abbrev FUS_EGO_CTL_WHEEL_TMO_MS : Fld := ⟨FUS_EGO_CTL, 15, 8⟩
abbrev FUS_EGO_CTL_HOLD_MAX : Fld := ⟨FUS_EGO_CTL, 23, 16⟩
abbrev FUS_EGO_CTL_DATA_CON : Fld := ⟨FUS_EGO_CTL, 28, 24⟩
abbrev FUS_EGO_CANID : Nat := 0x200000A00000 + 0x104
abbrev FUS_EGO_CANID_ID : Fld := ⟨FUS_EGO_CANID, 28, 0⟩
abbrev FUS_EGO_CANID_EXT : Fld := ⟨FUS_EGO_CANID, 29, 29⟩
abbrev FUS_EGO_MAP : Nat := 0x200000A00000 + 0x108
abbrev FUS_EGO_MAP_LEFT_OFF : Fld := ⟨FUS_EGO_MAP, 5, 0⟩
abbrev FUS_EGO_MAP_RIGHT_OFF : Fld := ⟨FUS_EGO_MAP, 11, 6⟩
abbrev FUS_EGO_MAP_ART_OFF : Fld := ⟨FUS_EGO_MAP, 17, 12⟩
abbrev FUS_EGO_MAP_IMU_OFF : Fld := ⟨FUS_EGO_MAP, 22, 18⟩
abbrev FUS_EGO_SCALE : Nat := 0x200000A00000 + 0x10c
abbrev FUS_EGO_SCALE_WHEEL_UMS : Fld := ⟨FUS_EGO_SCALE, 15, 0⟩
abbrev FUS_EGO_SCALE_GYRO_URADS : Fld := ⟨FUS_EGO_SCALE, 31, 16⟩
abbrev FUS_EGO_SCALE2 : Nat := 0x200000A00000 + 0x110
abbrev FUS_EGO_SCALE2_ACC_UG : Fld := ⟨FUS_EGO_SCALE2, 15, 0⟩
abbrev FUS_EGO_SCALE2_HINGE_X_MM : Fld := ⟨FUS_EGO_SCALE2, 31, 16⟩
abbrev FUS_EGO_STAT : Nat := 0x200000A00000 + 0x114
abbrev FUS_EGO_STAT_MODE : Fld := ⟨FUS_EGO_STAT, 1, 0⟩
abbrev FUS_EGO_STAT_WHEEL_OK : Fld := ⟨FUS_EGO_STAT, 2, 2⟩
abbrev FUS_EGO_STAT_IMU_OK : Fld := ⟨FUS_EGO_STAT, 3, 3⟩
abbrev FUS_EGO_STAT_BIAS_OK : Fld := ⟨FUS_EGO_STAT, 4, 4⟩
abbrev FUS_EGO_STAT_GOOD_RUN : Fld := ⟨FUS_EGO_STAT, 15, 8⟩
abbrev FUS_EGO_CHG_CNT : Nat := 0x200000A00000 + 0x118
abbrev FUS_EGO_CHG_CNT_COUNT : Fld := ⟨FUS_EGO_CHG_CNT, 31, 0⟩
abbrev FUS_EGO_SEQ : Nat := 0x200000A00000 + 0x11c
abbrev FUS_EGO_SEQ_SEQ : Fld := ⟨FUS_EGO_SEQ, 31, 0⟩
abbrev FUS_CAL_CTL : Nat := 0x200000A00000 + 0x200
abbrev FUS_CAL_CTL_FW_EN : Fld := ⟨FUS_CAL_CTL, 0, 0⟩
abbrev FUS_CAL_FRZ : Nat := 0x200000A00000 + 0x204
abbrev FUS_CAL_FRZ_FREEZE : Fld := ⟨FUS_CAL_FRZ, 23, 0⟩
abbrev FUS_CAL_LIM : Nat := 0x200000A00000 + 0x208
abbrev FUS_CAL_LIM_LIM_MM : Fld := ⟨FUS_CAL_LIM, 15, 0⟩
abbrev FUS_CAL_LIM_LIM_MDEG : Fld := ⟨FUS_CAL_LIM, 31, 16⟩
abbrev FUS_CAL_STEP : Nat := 0x200000A00000 + 0x20c
abbrev FUS_CAL_STEP_STEP_MM : Fld := ⟨FUS_CAL_STEP, 15, 0⟩
abbrev FUS_CAL_STEP_STEP_MDEG : Fld := ⟨FUS_CAL_STEP, 31, 16⟩
abbrev FUS_CAL_STAT : Nat := 0x200000A00000 + 0x210
abbrev FUS_CAL_STAT_AT_LIMIT : Fld := ⟨FUS_CAL_STAT, 23, 0⟩
abbrev FUS_CAL_CNT : Nat := 0x200000A00000 + 0x214
abbrev FUS_CAL_CNT_COUNT : Fld := ⟨FUS_CAL_CNT, 31, 0⟩

-- R409 (15_fusion_tracking.md)
abbrev FUS_XF_BASE (x : Nat) (i : Nat) : Nat := 0x200000A00000 + 0x400 + x * 0x40 + i * 0x4
abbrev FUS_XF_BASE_VALUE (x : Nat) (i : Nat) : Fld := ⟨FUS_XF_BASE x i, 31, 0⟩
abbrev FUS_XF_CFG (x : Nat) : Nat := 0x200000A00000 + 0x418 + x * 0x40
abbrev FUS_XF_CFG_SECTION (x : Nat) : Fld := ⟨FUS_XF_CFG x, 0, 0⟩
abbrev FUS_XF_CFG_VALID (x : Nat) : Fld := ⟨FUS_XF_CFG x, 1, 1⟩
abbrev FUS_XF_CORR (x : Nat) (i : Nat) : Nat := 0x200000A00000 + 0x420 + x * 0x40 + i * 0x4
abbrev FUS_XF_CORR_VALUE (x : Nat) (i : Nat) : Fld := ⟨FUS_XF_CORR x i, 31, 0⟩
abbrev FUS_CON_CFG (c : Nat) : Nat := 0x200000A00000 + 0x1000 + c * 0x20
abbrev FUS_CON_CFG_KIND (c : Nat) : Fld := ⟨FUS_CON_CFG c, 1, 0⟩
abbrev FUS_CON_CFG_EXPECT (c : Nat) : Fld := ⟨FUS_CON_CFG c, 2, 2⟩
abbrev FUS_CON_CFG_BIRTH (c : Nat) : Fld := ⟨FUS_CON_CFG c, 3, 3⟩
abbrev FUS_CON_CFG_CTX (c : Nat) : Fld := ⟨FUS_CON_CFG c, 8, 4⟩
abbrev FUS_CON_CFG_PART (c : Nat) : Fld := ⟨FUS_CON_CFG c, 12, 9⟩
abbrev FUS_CON_RES_LO (c : Nat) : Nat := 0x200000A00000 + 0x1004 + c * 0x20
abbrev FUS_CON_RES (c : Nat) : Nat := FUS_CON_RES_LO c
abbrev FUS_CON_RES_HI (c : Nat) : Nat := 0x200000A00000 + 0x1008 + c * 0x20
abbrev FUS_CON_STAT (c : Nat) : Nat := 0x200000A00000 + 0x100c + c * 0x20
abbrev FUS_CON_STAT_PITCH (c : Nat) : Fld := ⟨FUS_CON_STAT c, 15, 0⟩
abbrev FUS_CON_STAT_STATUS (c : Nat) : Fld := ⟨FUS_CON_STAT c, 23, 16⟩
abbrev FUS_CON_STAT_LATE (c : Nat) : Fld := ⟨FUS_CON_STAT c, 24, 24⟩

-- R429 (16_traverse.md)
abbrev TRV_CTL : Nat := 0x200000B00000 + 0x0
abbrev TRV_CTL_EN : Fld := ⟨TRV_CTL, 0, 0⟩
abbrev TRV_CTL_COMMIT : Fld := ⟨TRV_CTL, 1, 1⟩
abbrev TRV_CTL_MAP_COMMIT : Fld := ⟨TRV_CTL, 2, 2⟩
abbrev TRV_DRAIN : Nat := 0x200000B00000 + 0x4
abbrev TRV_DRAIN_DRAIN_TO : Fld := ⟨TRV_DRAIN, 23, 0⟩
abbrev TRV_STAT : Nat := 0x200000B00000 + 0x8
abbrev TRV_STAT_STATE : Fld := ⟨TRV_STAT, 1, 0⟩
abbrev TRV_STAT_RUN : Fld := ⟨TRV_STAT, 3, 2⟩
abbrev TRV_STAT_CFG_ERR : Fld := ⟨TRV_STAT, 4, 4⟩
abbrev TRV_STAT_MAP_ERR : Fld := ⟨TRV_STAT, 5, 5⟩
abbrev TRV_STAT_MAP_BUSY : Fld := ⟨TRV_STAT, 6, 6⟩
abbrev TRV_STAT_MAP_SLOT : Fld := ⟨TRV_STAT, 7, 7⟩
abbrev TRV_LIM : Nat := 0x200000B00000 + 0xc
abbrev TRV_LIM_CELLS_MAX : Fld := ⟨TRV_LIM, 16, 0⟩
abbrev TRV_DL : Nat := 0x200000B00000 + 0x10
abbrev TRV_DL_DL_US : Fld := ⟨TRV_DL, 16, 0⟩
abbrev TRV_OUT_T : Nat := 0x200000B00000 + 0x14
abbrev TRV_OUT_T_OUT_US : Fld := ⟨TRV_OUT_T, 16, 0⟩
abbrev TRV_OWN : Nat := 0x200000B00000 + 0x18
abbrev TRV_OWN_PART : Fld := ⟨TRV_OWN, 3, 0⟩
abbrev TRV_OUT_LO : Nat := 0x200000B00000 + 0x20
abbrev TRV_OUT : Nat := TRV_OUT_LO
abbrev TRV_OUT_HI : Nat := 0x200000B00000 + 0x24
abbrev TRV_CW_LO : Nat := 0x200000B00000 + 0x28
abbrev TRV_CW : Nat := TRV_CW_LO
abbrev TRV_CW_HI : Nat := 0x200000B00000 + 0x2c
abbrev TRV_EDGE_LO : Nat := 0x200000B00000 + 0x30
abbrev TRV_EDGE : Nat := TRV_EDGE_LO
abbrev TRV_EDGE_HI : Nat := 0x200000B00000 + 0x34
abbrev TRV_MAP_LO : Nat := 0x200000B00000 + 0x38
abbrev TRV_MAP : Nat := TRV_MAP_LO
abbrev TRV_MAP_HI : Nat := 0x200000B00000 + 0x3c
abbrev TRV_MAP_CNT : Nat := 0x200000B00000 + 0x40
abbrev TRV_MAP_CNT_NEDGE : Fld := ⟨TRV_MAP_CNT, 14, 0⟩
abbrev TRV_MAP_CNT_NPATH : Fld := ⟨TRV_MAP_CNT, 26, 16⟩
abbrev TRV_SAMPLE : Nat := 0x200000B00000 + 0x44
abbrev TRV_SAMPLE_SAMPLE_MM : Fld := ⟨TRV_SAMPLE, 10, 0⟩
abbrev TRV_MAP_XF (i : Nat) : Nat := 0x200000B00000 + 0x48 + i * 0x4
abbrev TRV_MAP_XF_VALUE (i : Nat) : Fld := ⟨TRV_MAP_XF i, 31, 0⟩
abbrev TRV_HOLD : Nat := 0x200000B00000 + 0x54
abbrev TRV_HOLD_PATH : Fld := ⟨TRV_HOLD, 9, 0⟩
abbrev TRV_HOLD_VALID : Fld := ⟨TRV_HOLD, 15, 15⟩
abbrev TRV_STOP : Nat := 0x200000B00000 + 0x58
abbrev TRV_STOP_A_COMF : Fld := ⟨TRV_STOP, 15, 0⟩
abbrev TRV_STOP_A_MAX : Fld := ⟨TRV_STOP, 31, 16⟩
abbrev TRV_STOP2 : Nat := 0x200000B00000 + 0x5c
abbrev TRV_STOP2_MARGIN_CM : Fld := ⟨TRV_STOP2, 15, 0⟩
abbrev TRV_FP_POS (r : Nat) : Nat := 0x200000B00000 + 0x60 + r * 0x4
abbrev TRV_FP_POS_X_MM (r : Nat) : Fld := ⟨TRV_FP_POS r, 15, 0⟩
abbrev TRV_FP_POS_Y_MM (r : Nat) : Fld := ⟨TRV_FP_POS r, 31, 16⟩
abbrev TRV_FP_DIM (r : Nat) : Nat := 0x200000B00000 + 0x70 + r * 0x4
abbrev TRV_FP_DIM_L_MM (r : Nat) : Fld := ⟨TRV_FP_DIM r, 14, 0⟩
abbrev TRV_FP_DIM_SECTION (r : Nat) : Fld := ⟨TRV_FP_DIM r, 15, 15⟩
abbrev TRV_FP_DIM_W_MM (r : Nat) : Fld := ⟨TRV_FP_DIM r, 30, 16⟩
abbrev TRV_FP_DIM_EN (r : Nat) : Fld := ⟨TRV_FP_DIM r, 31, 31⟩
abbrev TRV_DONE_CNT : Nat := 0x200000B00000 + 0x80
abbrev TRV_DONE_CNT_COUNT : Fld := ⟨TRV_DONE_CNT, 31, 0⟩
abbrev TRV_NOPATH_CNT : Nat := 0x200000B00000 + 0x84
abbrev TRV_NOPATH_CNT_COUNT : Fld := ⟨TRV_NOPATH_CNT, 31, 0⟩
abbrev TRV_TIMEOUT_CNT : Nat := 0x200000B00000 + 0x88
abbrev TRV_TIMEOUT_CNT_COUNT : Fld := ⟨TRV_TIMEOUT_CNT, 31, 0⟩
abbrev TRV_RECHECK_CNT : Nat := 0x200000B00000 + 0x8c
abbrev TRV_RECHECK_CNT_COUNT : Fld := ⟨TRV_RECHECK_CNT, 31, 0⟩
abbrev TRV_DROP_CNT : Nat := 0x200000B00000 + 0x90
abbrev TRV_DROP_CNT_COUNT : Fld := ⟨TRV_DROP_CNT, 31, 0⟩
abbrev TRV_WITHHELD_CNT : Nat := 0x200000B00000 + 0x94
abbrev TRV_WITHHELD_CNT_COUNT : Fld := ⟨TRV_WITHHELD_CNT, 31, 0⟩
abbrev TRV_LAST : Nat := 0x200000B00000 + 0x98
abbrev TRV_LAST_PITCH : Fld := ⟨TRV_LAST, 15, 0⟩
abbrev TRV_LAST_STATUS : Fld := ⟨TRV_LAST, 23, 16⟩

-- R430 (16_traverse.md)
abbrev TRV_LYR_CFG (l : Nat) : Nat := (0x200000B00000 + l * 0x20) + 0x100
abbrev TRV_LYR_CFG_EN (l : Nat) : Fld := ⟨TRV_LYR_CFG l, 0, 0⟩
abbrev TRV_LYR_CFG_FMT (l : Nat) : Fld := ⟨TRV_LYR_CFG l, 1, 1⟩
abbrev TRV_LYR_CFG_EXPECT (l : Nat) : Fld := ⟨TRV_LYR_CFG l, 2, 2⟩
abbrev TRV_LYR_CFG_PERSIST (l : Nat) : Fld := ⟨TRV_LYR_CFG l, 3, 3⟩
abbrev TRV_LYR_CFG_MISS (l : Nat) : Fld := ⟨TRV_LYR_CFG l, 4, 4⟩
abbrev TRV_LYR_CFG_PART (l : Nat) : Fld := ⟨TRV_LYR_CFG l, 11, 8⟩
abbrev TRV_LYR_CFG_W (l : Nat) : Fld := ⟨TRV_LYR_CFG l, 23, 16⟩
abbrev TRV_LYR_CFG_LETHAL (l : Nat) : Fld := ⟨TRV_LYR_CFG l, 31, 24⟩
abbrev TRV_LYR_CFG2 (l : Nat) : Nat := (0x200000B00000 + l * 0x20) + 0x104
abbrev TRV_LYR_CFG2_UNK_COST (l : Nat) : Fld := ⟨TRV_LYR_CFG2 l, 7, 0⟩
abbrev TRV_LYR_CELL_LO (l : Nat) : Nat := (0x200000B00000 + l * 0x20) + 0x108
abbrev TRV_LYR_CELL (l : Nat) : Nat := TRV_LYR_CELL_LO l
abbrev TRV_LYR_CELL_HI (l : Nat) : Nat := (0x200000B00000 + l * 0x20) + 0x10c
abbrev TRV_LYR_CW_LO (l : Nat) : Nat := (0x200000B00000 + l * 0x20) + 0x110
abbrev TRV_LYR_CW (l : Nat) : Nat := TRV_LYR_CW_LO l
abbrev TRV_LYR_CW_HI (l : Nat) : Nat := (0x200000B00000 + l * 0x20) + 0x114
abbrev TRV_LYR_STAT (l : Nat) : Nat := (0x200000B00000 + l * 0x20) + 0x118
abbrev TRV_LYR_STAT_EPOCH (l : Nat) : Fld := ⟨TRV_LYR_STAT l, 15, 0⟩
abbrev TRV_LYR_STAT_USED (l : Nat) : Fld := ⟨TRV_LYR_STAT l, 16, 16⟩
abbrev TRV_LYR_STAT_MISSING (l : Nat) : Fld := ⟨TRV_LYR_STAT l, 17, 17⟩
abbrev TRV_LYR_STAT_CHANGED (l : Nat) : Fld := ⟨TRV_LYR_STAT l, 18, 18⟩

-- R461 (17_anchor_dies.md)
abbrev AMB_MBX : Nat := 0x200000C00000 + 0x0
abbrev AMB_MBX_TASK : Fld := ⟨AMB_MBX, 5, 0⟩
abbrev AMB_TRAJ_DONE : Nat := 0x200000C00000 + 0x4
abbrev AMB_TRAJ_DONE_PITCH : Fld := ⟨AMB_TRAJ_DONE, 15, 0⟩
abbrev AMB_REJ_CNT : Nat := 0x200000C00000 + 0x8
abbrev AMB_REJ_CNT_COUNT : Fld := ⟨AMB_REJ_CNT, 31, 0⟩
abbrev AMB_FWD_CNT : Nat := 0x200000C00000 + 0xc
abbrev AMB_FWD_CNT_COUNT : Fld := ⟨AMB_FWD_CNT, 31, 0⟩

-- R462 (17_anchor_dies.md)
abbrev SUP_CFG (x : Nat) : Nat := (ancBase x) + 0x0
abbrev SUP_CFG_DRIVE_PART (x : Nat) : Fld := ⟨SUP_CFG x, 3, 0⟩
abbrev SUP_CFG_DRIVE_TASK (x : Nat) : Fld := ⟨SUP_CFG x, 9, 4⟩
abbrev SUP_CFG_RESUME_N (x : Nat) : Fld := ⟨SUP_CFG x, 13, 10⟩
abbrev SUP_BLY_CFG (x : Nat) : Nat := (ancBase x) + 0x4
abbrev SUP_BLY_CFG_A_BELAY_CMS2 (x : Nat) : Fld := ⟨SUP_BLY_CFG x, 9, 0⟩
abbrev SUP_BLY_CFG_A_STOP_CMS2 (x : Nat) : Fld := ⟨SUP_BLY_CFG x, 19, 10⟩
abbrev SUP_BLY_CFG_PERIOD_MS (x : Nat) : Fld := ⟨SUP_BLY_CFG x, 25, 20⟩
abbrev SUP_BLY_TIME (x : Nat) : Nat := (ancBase x) + 0x8
abbrev SUP_BLY_TIME_BELAY_MAX_MS (x : Nat) : Fld := ⟨SUP_BLY_TIME x, 12, 0⟩
abbrev SUP_BLY_ID (x : Nat) : Nat := (ancBase x) + 0xc
abbrev SUP_BLY_ID_ID (x : Nat) : Fld := ⟨SUP_BLY_ID x, 29, 0⟩
abbrev SUP_STAT_ID (x : Nat) : Nat := (ancBase x) + 0x10
abbrev SUP_STAT_ID_ID (x : Nat) : Fld := ⟨SUP_STAT_ID x, 29, 0⟩
abbrev SUP_SPT_CFG (x : Nat) : Nat := (ancBase x) + 0x14
abbrev SUP_SPT_CFG_MIN_SCORE (x : Nat) : Fld := ⟨SUP_SPT_CFG x, 7, 0⟩
abbrev SUP_SPT_CFG_MISS_MAX (x : Nat) : Fld := ⟨SUP_SPT_CFG x, 11, 8⟩
abbrev SUP_SPT_CFG_GHOST_MAX (x : Nat) : Fld := ⟨SUP_SPT_CFG x, 19, 12⟩
abbrev SUP_SPT_CFG_EXCL_MAX (x : Nat) : Fld := ⟨SUP_SPT_CFG x, 24, 20⟩
abbrev SUP_SPT_CFG_NOVERDICT_MAX (x : Nat) : Fld := ⟨SUP_SPT_CFG x, 28, 25⟩
abbrev SUP_SPT_TOL (x : Nat) : Nat := (ancBase x) + 0x18
abbrev SUP_SPT_TOL_TOL_POS_CM (x : Nat) : Fld := ⟨SUP_SPT_TOL x, 15, 0⟩
abbrev SUP_SPT_TOL_TOL_REL_PM (x : Nat) : Fld := ⟨SUP_SPT_TOL x, 25, 16⟩
abbrev SUP_SPT_RANGE (x : Nat) : Nat := (ancBase x) + 0x1c
abbrev SUP_SPT_RANGE_R_MAX_CM (x : Nat) : Fld := ⟨SUP_SPT_RANGE x, 15, 0⟩
abbrev SUP_SPT_START (x : Nat) : Nat := (ancBase x) + 0x20
abbrev SUP_SPT_START_START_US (x : Nat) : Fld := ⟨SUP_SPT_START x, 16, 0⟩
abbrev SUP_SPT_CLS (x : Nat) (i : Nat) : Nat := (ancBase x) + 0x40 + i * 0x4
abbrev SUP_SPT_CLS_MASK (x : Nat) (i : Nat) : Fld := ⟨SUP_SPT_CLS x i, 31, 0⟩
abbrev SUP_BUF (x : Nat) (i : Nat) : Nat := (ancBase x) + 0x60 + i * 0x4
abbrev SUP_BUF_ENTRY (x : Nat) (i : Nat) : Fld := ⟨SUP_BUF x i, 31, 0⟩
abbrev ANC_STAT (x : Nat) : Nat := (ancBase x) + 0x100
abbrev ANC_STAT_STATE (x : Nat) : Fld := ⟨ANC_STAT x, 1, 0⟩
abbrev ANC_STAT_ALONE (x : Nat) : Fld := ⟨ANC_STAT x, 2, 2⟩
abbrev ANC_STAT_TICK_FAULT (x : Nat) : Fld := ⟨ANC_STAT x, 3, 3⟩
abbrev ANC_STAT_SPOTTER_LOST (x : Nat) : Fld := ⟨ANC_STAT x, 4, 4⟩
abbrev ANC_STAT_DIS_RUN (x : Nat) : Fld := ⟨ANC_STAT x, 6, 5⟩
abbrev ANC_VERDICT (x : Nat) : Nat := (ancBase x) + 0x104
abbrev ANC_VERDICT_PITCH (x : Nat) : Fld := ⟨ANC_VERDICT x, 15, 0⟩
abbrev ANC_VERDICT_VERDICT (x : Nat) : Fld := ⟨ANC_VERDICT x, 17, 16⟩
abbrev ANC_VERDICT_MISSED (x : Nat) : Fld := ⟨ANC_VERDICT x, 23, 18⟩
abbrev ANC_VERDICT_GHOSTS (x : Nat) : Fld := ⟨ANC_VERDICT x, 31, 24⟩
abbrev ANC_DIS_CNT (x : Nat) : Nat := (ancBase x) + 0x108
abbrev ANC_DIS_CNT_COUNT (x : Nat) : Fld := ⟨ANC_DIS_CNT x, 31, 0⟩
abbrev ANC_LAST_CNT (x : Nat) : Nat := (ancBase x) + 0x10c
abbrev ANC_LAST_CNT_COUNT (x : Nat) : Fld := ⟨ANC_LAST_CNT x, 31, 0⟩
abbrev ANC_BLY_STAT (x : Nat) : Nat := (ancBase x) + 0x110
abbrev ANC_BLY_STAT_SRC_PITCH (x : Nat) : Fld := ⟨ANC_BLY_STAT x, 15, 0⟩
abbrev ANC_BLY_STAT_ACTIVE (x : Nat) : Fld := ⟨ANC_BLY_STAT x, 16, 16⟩
abbrev ANC_BLY_STAT_CAUSE (x : Nat) : Fld := ⟨ANC_BLY_STAT x, 19, 17⟩
abbrev ANC_BLY_STAT_MISMATCH (x : Nat) : Fld := ⟨ANC_BLY_STAT x, 20, 20⟩
abbrev ANC_BLY_CNT (x : Nat) : Nat := (ancBase x) + 0x114
abbrev ANC_BLY_CNT_COUNT (x : Nat) : Fld := ⟨ANC_BLY_CNT x, 31, 0⟩
abbrev ANC_BLY_T0_LO (x : Nat) : Nat := (ancBase x) + 0x118
abbrev ANC_BLY_T0 (x : Nat) : Nat := ANC_BLY_T0_LO x
abbrev ANC_BLY_T0_HI (x : Nat) : Nat := (ancBase x) + 0x11c
abbrev ANC_OVR_CNT (x : Nat) : Nat := (ancBase x) + 0x120
abbrev ANC_OVR_CNT_COUNT (x : Nat) : Fld := ⟨ANC_OVR_CNT x, 31, 0⟩
abbrev ANC_OVR_LAST (x : Nat) : Nat := (ancBase x) + 0x124
abbrev ANC_OVR_LAST_TASK (x : Nat) : Fld := ⟨ANC_OVR_LAST x, 5, 0⟩
abbrev ANC_OVR_LAST_PITCH (x : Nat) : Fld := ⟨ANC_OVR_LAST x, 31, 16⟩
abbrev ANC_LSK_ROLL_CNT (x : Nat) : Nat := (ancBase x) + 0x128
abbrev ANC_LSK_ROLL_CNT_COUNT (x : Nat) : Fld := ⟨ANC_LSK_ROLL_CNT x, 31, 0⟩
abbrev ANC_LSK_CMP_CNT (x : Nat) : Nat := (ancBase x) + 0x12c
abbrev ANC_LSK_CMP_CNT_COUNT (x : Nat) : Fld := ⟨ANC_LSK_CMP_CNT x, 31, 0⟩
abbrev ANC_LSK_RESET_CNT (x : Nat) : Nat := (ancBase x) + 0x130
abbrev ANC_LSK_RESET_CNT_COUNT (x : Nat) : Fld := ⟨ANC_LSK_RESET_CNT x, 31, 0⟩
abbrev ANC_LOG_HEAD (x : Nat) : Nat := (ancBase x) + 0x134
abbrev ANC_LOG_HEAD_COUNT (x : Nat) : Fld := ⟨ANC_LOG_HEAD x, 31, 0⟩
abbrev ANC_GWIN (x : Nat) : Nat := (ancBase x) + 0x138
abbrev ANC_GWIN_BASE (x : Nat) : Fld := ⟨ANC_GWIN x, 19, 0⟩
abbrev SUP_TASK_CFG (x : Nat) (t : Nat) : Nat := (ancBase x) + 0x200 + t * 0x10
abbrev SUP_TASK_CFG_OWNER (x : Nat) (t : Nat) : Fld := ⟨SUP_TASK_CFG x t, 4, 0⟩
abbrev SUP_TASK_CFG_RESTART_FITS (x : Nat) (t : Nat) : Fld := ⟨SUP_TASK_CFG x t, 5, 5⟩
abbrev SUP_TASK_CFG_ACTIVE (x : Nat) (t : Nat) : Fld := ⟨SUP_TASK_CFG x t, 6, 6⟩
abbrev SUP_TASK_DL (x : Nat) (t : Nat) : Nat := (ancBase x) + 0x204 + t * 0x10
abbrev SUP_TASK_DL_DEADLINE_US (x : Nat) (t : Nat) : Fld := ⟨SUP_TASK_DL x t, 16, 0⟩
abbrev SUP_TASK_LAST (x : Nat) (t : Nat) : Nat := (ancBase x) + 0x208 + t * 0x10
abbrev SUP_TASK_LAST_REPORT_US (x : Nat) (t : Nat) : Fld := ⟨SUP_TASK_LAST x t, 16, 0⟩
abbrev SUP_TASK_LAST_LATE (x : Nat) (t : Nat) : Fld := ⟨SUP_TASK_LAST x t, 17, 17⟩

-- R486 (18_faults_availability.md)
abbrev FLT_PART_STAT (p : Nat) : Nat := (0x200000D00000 + p * 0x40) + 0x0
abbrev FLT_PART_STAT_RETRY (p : Nat) : Fld := ⟨FLT_PART_STAT p, 0, 0⟩
abbrev FLT_PART_STAT_CARRY (p : Nat) : Fld := ⟨FLT_PART_STAT p, 1, 1⟩
abbrev FLT_PART_STAT_NOFIT (p : Nat) : Fld := ⟨FLT_PART_STAT p, 2, 2⟩
abbrev FLT_PART_STAT_LOAD_ERR (p : Nat) : Fld := ⟨FLT_PART_STAT p, 3, 3⟩
abbrev FLT_PART_STAT_HELD (p : Nat) : Fld := ⟨FLT_PART_STAT p, 4, 4⟩
abbrev FLT_PART_STAT_RST_LEFT (p : Nat) : Fld := ⟨FLT_PART_STAT p, 15, 8⟩
abbrev FLT_PART_STAT_CAUSE (p : Nat) : Fld := ⟨FLT_PART_STAT p, 18, 16⟩
abbrev FLT_PART_LAST (p : Nat) : Nat := (0x200000D00000 + p * 0x40) + 0x4
abbrev FLT_PART_LAST_CODE (p : Nat) : Fld := ⟨FLT_PART_LAST p, 7, 0⟩
abbrev FLT_PART_LAST_DIE (p : Nat) : Fld := ⟨FLT_PART_LAST p, 10, 8⟩
abbrev FLT_PART_LAST_NODIE (p : Nat) : Fld := ⟨FLT_PART_LAST p, 11, 11⟩
abbrev FLT_PART_LAST_VALID (p : Nat) : Fld := ⟨FLT_PART_LAST p, 12, 12⟩
abbrev FLT_PART_LAST_MULTI (p : Nat) : Fld := ⟨FLT_PART_LAST p, 13, 13⟩
abbrev FLT_PART_LAST_PITCH (p : Nat) : Fld := ⟨FLT_PART_LAST p, 31, 16⟩
abbrev FLT_PART_FAULT_CNT (p : Nat) : Nat := (0x200000D00000 + p * 0x40) + 0x8
abbrev FLT_PART_FAULT_CNT_COUNT (p : Nat) : Fld := ⟨FLT_PART_FAULT_CNT p, 31, 0⟩
abbrev FLT_PART_TRANS_CNT (p : Nat) : Nat := (0x200000D00000 + p * 0x40) + 0xc
abbrev FLT_PART_TRANS_CNT_COUNT (p : Nat) : Fld := ⟨FLT_PART_TRANS_CNT p, 31, 0⟩
abbrev FLT_PART_LAST_CNT (p : Nat) : Nat := (0x200000D00000 + p * 0x40) + 0x10
abbrev FLT_PART_LAST_CNT_COUNT (p : Nat) : Fld := ⟨FLT_PART_LAST_CNT p, 31, 0⟩
abbrev FLT_PART_RST_CNT (p : Nat) : Nat := (0x200000D00000 + p * 0x40) + 0x14
abbrev FLT_PART_RST_CNT_COUNT (p : Nat) : Fld := ⟨FLT_PART_RST_CNT p, 31, 0⟩
abbrev FLT_PART_RAISE (p : Nat) : Nat := (0x200000D00000 + p * 0x40) + 0x18
abbrev FLT_PART_RAISE_CODE (p : Nat) : Fld := ⟨FLT_PART_RAISE p, 7, 0⟩
abbrev FLT_PART_CTL (p : Nat) : Nat := (0x200000D00000 + p * 0x40) + 0x1c
abbrev FLT_PART_CTL_UNHOLD (p : Nat) : Fld := ⟨FLT_PART_CTL p, 0, 0⟩
abbrev FLT_SHARE_LO (p : Nat) : Nat := (0x200000D00000 + p * 0x40) + 0x20
abbrev FLT_SHARE (p : Nat) : Nat := FLT_SHARE_LO p
abbrev FLT_SHARE_HI (p : Nat) : Nat := (0x200000D00000 + p * 0x40) + 0x24

-- R487 (18_faults_availability.md)
abbrev FLT_DIE_STAT (d : Nat) : Nat := (0x200000D00000 + d * 0x20) + 0x400
abbrev FLT_DIE_STAT_STATE (d : Nat) : Fld := ⟨FLT_DIE_STAT d, 1, 0⟩
abbrev FLT_DIE_STAT_SUSPECT (d : Nat) : Fld := ⟨FLT_DIE_STAT d, 2, 2⟩
abbrev FLT_DIE_STAT_LAST_N (d : Nat) : Fld := ⟨FLT_DIE_STAT d, 9, 3⟩
abbrev FLT_DIE_CTL (d : Nat) : Nat := (0x200000D00000 + d * 0x20) + 0x404
abbrev FLT_DIE_CTL_READMIT (d : Nat) : Fld := ⟨FLT_DIE_CTL d, 0, 0⟩
abbrev FLT_DIE_FAIL_CNT (d : Nat) : Nat := (0x200000D00000 + d * 0x20) + 0x408
abbrev FLT_DIE_FAIL_CNT_COUNT (d : Nat) : Fld := ⟨FLT_DIE_FAIL_CNT d, 31, 0⟩
abbrev MAP_MIR_LO (d : Nat) : Nat := (0x200000D00000 + d * 0x20) + 0x40c
abbrev MAP_MIR (d : Nat) : Nat := MAP_MIR_LO d
abbrev MAP_MIR_HI (d : Nat) : Nat := (0x200000D00000 + d * 0x20) + 0x410

-- R488 (18_faults_availability.md)
abbrev FLT_CTL : Nat := 0x200000D00800 + 0x0
abbrev FLT_CTL_ALL_RST : Fld := ⟨FLT_CTL, 0, 0⟩
abbrev FLT_POL : Nat := 0x200000D00800 + 0x4
abbrev FLT_POL_REB_EN : Fld := ⟨FLT_POL, 0, 0⟩
abbrev FLT_POL_ST_EN : Fld := ⟨FLT_POL, 1, 1⟩
abbrev FLT_POL_SUS_N : Fld := ⟨FLT_POL, 15, 8⟩
abbrev FLT_POL_LAG_US : Fld := ⟨FLT_POL, 31, 16⟩
abbrev FLT_ST_STAT : Nat := 0x200000D00800 + 0x8
abbrev FLT_ST_STAT_COV_MISS : Fld := ⟨FLT_ST_STAT, 0, 0⟩
abbrev FLT_ST_STAT_MISS_RUN : Fld := ⟨FLT_ST_STAT, 15, 8⟩
abbrev FLT_ST_SLICE_CNT : Nat := 0x200000D00800 + 0xc
abbrev FLT_ST_SLICE_CNT_COUNT : Fld := ⟨FLT_ST_SLICE_CNT, 31, 0⟩
abbrev FLT_ST_ABANDON_CNT : Nat := 0x200000D00800 + 0x10
abbrev FLT_ST_ABANDON_CNT_COUNT : Fld := ⟨FLT_ST_ABANDON_CNT, 31, 0⟩
abbrev FLT_ALL_CNT : Nat := 0x200000D00800 + 0x14
abbrev FLT_ALL_CNT_COUNT : Fld := ⟨FLT_ALL_CNT, 31, 0⟩

-- R507 (19_security.md)
abbrev SEC_BOOT (x : Nat) : Nat := (ancBase x) + 0x800
abbrev SEC_BOOT_CODE (x : Nat) : Fld := ⟨SEC_BOOT x, 7, 0⟩
abbrev SEC_BOOT_SLOT (x : Nat) : Fld := ⟨SEC_BOOT x, 8, 8⟩
abbrev SEC_BOOT_UNWRAPPED (x : Nat) : Fld := ⟨SEC_BOOT x, 9, 9⟩
abbrev SEC_BOOT_ID_BAD (x : Nat) : Fld := ⟨SEC_BOOT x, 10, 10⟩
abbrev SEC_BOOT_PROD (x : Nat) : Fld := ⟨SEC_BOOT x, 11, 11⟩
abbrev SEC_BOOT_DEBUG (x : Nat) : Fld := ⟨SEC_BOOT x, 13, 12⟩
abbrev SEC_RB (x : Nat) : Nat := (ancBase x) + 0x804
abbrev SEC_RB_PENDING (x : Nat) : Fld := ⟨SEC_RB x, 0, 0⟩
abbrev SEC_ST_TOPO (x : Nat) : Nat := (ancBase x) + 0x808
abbrev SEC_ST_TOPO_SVN (x : Nat) : Fld := ⟨SEC_ST_TOPO x, 31, 0⟩
abbrev SEC_ST_FW (x : Nat) : Nat := (ancBase x) + 0x80c
abbrev SEC_ST_FW_SVN (x : Nat) : Fld := ⟨SEC_ST_FW x, 31, 0⟩
abbrev SEC_ST_CERT (x : Nat) : Nat := (ancBase x) + 0x810
abbrev SEC_ST_CERT_SVN (x : Nat) : Fld := ⟨SEC_ST_CERT x, 31, 0⟩
abbrev SEC_ST_CTR (x : Nat) : Nat := (ancBase x) + 0x814
abbrev SEC_ST_CTR_COUNT (x : Nat) : Fld := ⟨SEC_ST_CTR x, 31, 0⟩
abbrev SEC_DEVID_LO (x : Nat) : Nat := (ancBase x) + 0x818
abbrev SEC_DEVID (x : Nat) : Nat := SEC_DEVID_LO x
abbrev SEC_DEVID_HI (x : Nat) : Nat := (ancBase x) + 0x81c
abbrev SEC_DBG_LEFT (x : Nat) : Nat := (ancBase x) + 0x820
abbrev SEC_DBG_LEFT_SECONDS (x : Nat) : Fld := ⟨SEC_DBG_LEFT x, 16, 0⟩
abbrev SEC_UNLOCK_CNT (x : Nat) : Nat := (ancBase x) + 0x824
abbrev SEC_UNLOCK_CNT_COUNT (x : Nat) : Fld := ⟨SEC_UNLOCK_CNT x, 31, 0⟩

-- R508 (19_security.md)
abbrev SEC_Q_CTL : Nat := 0x200000E00000 + 0x0
abbrev SEC_Q_CTL_GO : Fld := ⟨SEC_Q_CTL, 0, 0⟩
abbrev SEC_Q_STAT : Nat := 0x200000E00000 + 0x4
abbrev SEC_Q_STAT_STATE : Fld := ⟨SEC_Q_STAT, 1, 0⟩
abbrev SEC_Q_STAT_IGN : Fld := ⟨SEC_Q_STAT, 2, 2⟩
abbrev SEC_Q_STAT_CODE : Fld := ⟨SEC_Q_STAT, 15, 8⟩
abbrev SEC_Q_DST_LO : Nat := 0x200000E00000 + 0x8
abbrev SEC_Q_DST : Nat := SEC_Q_DST_LO
abbrev SEC_Q_DST_HI : Nat := 0x200000E00000 + 0xc
abbrev SEC_Q_NONCE (i : Nat) : Nat := 0x200000E00000 + 0x10 + i * 0x4
abbrev SEC_Q_NONCE_NONCE (i : Nat) : Fld := ⟨SEC_Q_NONCE i, 31, 0⟩
abbrev SEC_Q_CNT : Nat := 0x200000E00000 + 0x30
abbrev SEC_Q_CNT_COUNT : Fld := ⟨SEC_Q_CNT, 31, 0⟩

-- R527 (20_clocks_power.md)
abbrev CLK_STAT : Nat := 0x200000F00000 + 0x0
abbrev CLK_STAT_REF_OK : Fld := ⟨CLK_STAT, 0, 0⟩
abbrev CLK_STAT_PCIE_REF_OK : Fld := ⟨CLK_STAT, 1, 1⟩
abbrev CLK_STAT_FAB_PT : Fld := ⟨CLK_STAT, 4, 2⟩
abbrev CLK_STAT_IGN : Fld := ⟨CLK_STAT, 5, 5⟩
abbrev CLK_OP_EN : Nat := 0x200000F00000 + 0x4
abbrev CLK_OP_EN_EN : Fld := ⟨CLK_OP_EN, 4, 0⟩
abbrev CLK_SS : Nat := 0x200000F00000 + 0x8
abbrev CLK_SS_PCIE : Fld := ⟨CLK_SS, 2, 0⟩
abbrev CLK_SS_DDR : Fld := ⟨CLK_SS, 6, 3⟩
abbrev CLK_SS_MOD : Fld := ⟨CLK_SS, 8, 7⟩
abbrev CLK_BUS (i : Nat) : Nat := 0x200000F00000 + 0xc + i * 0x4
abbrev CLK_BUS_SCLK_MHZ (i : Nat) : Fld := ⟨CLK_BUS i, 9, 0⟩
abbrev CLK_BUS_SDIV (i : Nat) : Fld := ⟨CLK_BUS i, 12, 10⟩
abbrev CLK_BUS_PBCLK_MHZ (i : Nat) : Fld := ⟨CLK_BUS i, 25, 16⟩
abbrev CLK_BUS_PDIV (i : Nat) : Fld := ⟨CLK_BUS i, 28, 26⟩
abbrev CLK_FAIL : Nat := 0x200000F00000 + 0x18
abbrev CLK_FAIL_SRC : Fld := ⟨CLK_FAIL, 3, 0⟩
abbrev CLK_FAIL_PITCH : Fld := ⟨CLK_FAIL, 19, 4⟩
abbrev CLK_FAIL_CNT : Nat := 0x200000F00000 + 0x1c
abbrev CLK_FAIL_CNT_COUNT : Fld := ⟨CLK_FAIL_CNT, 31, 0⟩
abbrev CLK_PT_SET : Nat := 0x200000F00000 + 0x20
abbrev CLK_PT_SET_DIE : Fld := ⟨CLK_PT_SET, 2, 0⟩
abbrev CLK_PT_SET_CL : Fld := ⟨CLK_PT_SET, 4, 3⟩
abbrev CLK_PT_SET_PT : Fld := ⟨CLK_PT_SET, 7, 5⟩
abbrev CLK_PT_SET_DONE : Fld := ⟨CLK_PT_SET, 8, 8⟩
abbrev CLK_PT_SET_IGN : Fld := ⟨CLK_PT_SET, 9, 9⟩

-- R528 (20_clocks_power.md)
abbrev CLK_CD_PLL (d : Nat) : Nat := (0x210000900000 + d * 0x1000000) + 0x0
abbrev CLK_CD_PLL_F_PT (d : Nat) : Fld := ⟨CLK_CD_PLL d, 2, 0⟩
abbrev CLK_CD_PLL_P1_PT (d : Nat) : Fld := ⟨CLK_CD_PLL d, 5, 3⟩
abbrev CLK_CD_PLL_P2_PT (d : Nat) : Fld := ⟨CLK_CD_PLL d, 8, 6⟩
abbrev CLK_CD_PLL_F_LOCK (d : Nat) : Fld := ⟨CLK_CD_PLL d, 9, 9⟩
abbrev CLK_CD_PLL_P1_LOCK (d : Nat) : Fld := ⟨CLK_CD_PLL d, 10, 10⟩
abbrev CLK_CD_PLL_P2_LOCK (d : Nat) : Fld := ⟨CLK_CD_PLL d, 11, 11⟩
abbrev CLK_CLU (d : Nat) (c : Nat) : Nat := (0x210000900000 + d * 0x1000000) + 0x10 + c * 0x4
abbrev CLK_CLU_PT_REQ (d : Nat) (c : Nat) : Fld := ⟨CLK_CLU d c, 2, 0⟩
abbrev CLK_CLU_PT_CUR (d : Nat) (c : Nat) : Fld := ⟨CLK_CLU d c, 5, 3⟩
abbrev CLK_CLU_DIP (d : Nat) (c : Nat) : Fld := ⟨CLK_CLU d c, 6, 6⟩
abbrev CLK_CLU_STOPPED (d : Nat) (c : Nat) : Fld := ⟨CLK_CLU d c, 7, 7⟩

-- R529 (20_clocks_power.md)
abbrev PWR_STAT (r : Nat) : Nat := (0x200001000000 + r * 0x10) + 0x0
abbrev PWR_STAT_LEVEL (r : Nat) : Fld := ⟨PWR_STAT r, 1, 0⟩
abbrev PWR_STAT_DIP (r : Nat) : Fld := ⟨PWR_STAT r, 2, 2⟩
abbrev PWR_VMIN (r : Nat) : Nat := (0x200001000000 + r * 0x10) + 0x4
abbrev PWR_VMIN_MV (r : Nat) : Fld := ⟨PWR_VMIN r, 11, 0⟩
abbrev PWR_WARN_CNT (r : Nat) : Nat := (0x200001000000 + r * 0x10) + 0x8
abbrev PWR_WARN_CNT_COUNT (r : Nat) : Fld := ⟨PWR_WARN_CNT r, 31, 0⟩
abbrev PWR_DIP_LAST (r : Nat) : Nat := (0x200001000000 + r * 0x10) + 0xc
abbrev PWR_DIP_LAST_NS (r : Nat) : Fld := ⟨PWR_DIP_LAST r, 31, 0⟩

-- R542 (21_cooling.md)
abbrev THM_CTL : Nat := 0x200001100000 + 0x0
abbrev THM_CTL_FW_EN : Fld := ⟨THM_CTL, 0, 0⟩
abbrev THM_CTL_ROT_EN : Fld := ⟨THM_CTL, 1, 1⟩
abbrev THM_CTL_FLOW_EN : Fld := ⟨THM_CTL, 2, 2⟩
abbrev THM_LIM : Nat := 0x200001100000 + 0x4
abbrev THM_LIM_P_LIM_W : Fld := ⟨THM_LIM, 9, 0⟩
abbrev THM_LIM_CAP_USER_W : Fld := ⟨THM_LIM, 25, 16⟩
abbrev THM_TGT : Nat := 0x200001100000 + 0x8
abbrev THM_TGT_TJ_TGT : Fld := ⟨THM_TGT, 11, 0⟩
abbrev THM_TGT_HYST_W : Fld := ⟨THM_TGT, 23, 16⟩
abbrev THM_FLOW_CFG : Nat := 0x200001100000 + 0xc
abbrev THM_FLOW_CFG_K_PPL : Fld := ⟨THM_FLOW_CFG, 15, 0⟩
abbrev THM_FLOW_CFG_FLOW_TMO_MS : Fld := ⟨THM_FLOW_CFG, 23, 16⟩
abbrev THM_STAT : Nat := 0x200001100000 + 0x10
abbrev THM_STAT_FLOOR : Fld := ⟨THM_STAT, 0, 0⟩
abbrev THM_STAT_FLOW_LOST : Fld := ⟨THM_STAT, 1, 1⟩
abbrev THM_STAT_SLOPE : Fld := ⟨THM_STAT, 2, 2⟩
abbrev THM_STAT_TRIP : Fld := ⟨THM_STAT, 3, 3⟩
abbrev THM_STAT_STEP : Fld := ⟨THM_STAT, 5, 4⟩
abbrev THM_STAT_CAP_LIM : Fld := ⟨THM_STAT, 6, 6⟩
abbrev THM_P : Nat := 0x200001100000 + 0x14
abbrev THM_P_P : Fld := ⟨THM_P, 15, 0⟩
abbrev THM_P_CAP : Fld := ⟨THM_P, 31, 16⟩
abbrev THM_R : Nat := 0x200001100000 + 0x18
abbrev THM_R_R : Fld := ⟨THM_R, 15, 0⟩
abbrev THM_TIN : Nat := 0x200001100000 + 0x1c
abbrev THM_TIN_T : Fld := ⟨THM_TIN, 15, 0⟩
abbrev THM_THOT : Nat := 0x200001100000 + 0x20
abbrev THM_THOT_T : Fld := ⟨THM_THOT, 15, 0⟩
abbrev THM_THOT_DIE : Fld := ⟨THM_THOT, 19, 16⟩
abbrev THM_FLOW : Nat := 0x200001100000 + 0x24
abbrev THM_FLOW_ML_MIN : Fld := ⟨THM_FLOW, 15, 0⟩
abbrev THM_RES : Nat := 0x200001100000 + 0x28
abbrev THM_RES_T : Fld := ⟨THM_RES, 15, 0⟩
abbrev THM_FLOOR_CNT : Nat := 0x200001100000 + 0x2c
abbrev THM_FLOOR_CNT_COUNT : Fld := ⟨THM_FLOOR_CNT, 31, 0⟩
abbrev THM_TRIP_CNT : Nat := 0x200001100000 + 0x30
abbrev THM_TRIP_CNT_COUNT : Fld := ⟨THM_TRIP_CNT, 31, 0⟩
abbrev THM_CAPSTEP_CNT : Nat := 0x200001100000 + 0x34
abbrev THM_CAPSTEP_CNT_COUNT : Fld := ⟨THM_CAPSTEP_CNT, 31, 0⟩
abbrev THM_TJ_PEAK : Nat := 0x200001100000 + 0x38
abbrev THM_TJ_PEAK_T : Fld := ⟨THM_TJ_PEAK, 15, 0⟩
abbrev THM_DIE_T (d : Nat) : Nat := 0x200001100000 + 0x40 + d * 0x4
abbrev THM_DIE_T_T (d : Nat) : Fld := ⟨THM_DIE_T d, 15, 0⟩

-- R550 (22_bounds.md)
abbrev BND_CTL : Nat := 0x200001200000 + 0x0
abbrev BND_CTL_WIN_P : Fld := ⟨BND_CTL, 9, 0⟩
abbrev BND_CTL_ENG_PART : Fld := ⟨BND_CTL, 20, 16⟩
abbrev BND_STAT : Nat := 0x200001200000 + 0x4
abbrev BND_STAT_VALID : Fld := ⟨BND_STAT, 4, 0⟩
abbrev BND_STAT_PITCH : Fld := ⟨BND_STAT, 31, 16⟩
abbrev BND_F_ROPE : Nat := 0x200001200000 + 0x8
abbrev BND_F_ROPE_F : Fld := ⟨BND_F_ROPE, 15, 0⟩
abbrev BND_F_DDR : Nat := 0x200001200000 + 0xc
abbrev BND_F_DDR_F : Fld := ⟨BND_F_DDR, 15, 0⟩
abbrev BND_F_ENG : Nat := 0x200001200000 + 0x10
abbrev BND_F_ENG_F : Fld := ⟨BND_F_ENG, 15, 0⟩
abbrev BND_F_SRAM : Nat := 0x200001200000 + 0x14
abbrev BND_F_SRAM_F : Fld := ⟨BND_F_SRAM, 15, 0⟩
abbrev BND_F_PKG : Nat := 0x200001200000 + 0x18
abbrev BND_F_PKG_F : Fld := ⟨BND_F_PKG, 15, 0⟩
abbrev BND_ROPE_BND_LO : Nat := 0x200001200000 + 0x20
abbrev BND_ROPE_BND : Nat := BND_ROPE_BND_LO
abbrev BND_ROPE_BND_HI : Nat := 0x200001200000 + 0x24
abbrev BND_ROPE_MEAS_LO : Nat := 0x200001200000 + 0x28
abbrev BND_ROPE_MEAS : Nat := BND_ROPE_MEAS_LO
abbrev BND_ROPE_MEAS_HI : Nat := 0x200001200000 + 0x2c
abbrev BND_DDR_PIN_LO : Nat := 0x200001200000 + 0x30
abbrev BND_DDR_PIN : Nat := BND_DDR_PIN_LO
abbrev BND_DDR_PIN_HI : Nat := 0x200001200000 + 0x34
abbrev BND_DDR_RD_LO : Nat := 0x200001200000 + 0x38
abbrev BND_DDR_RD : Nat := BND_DDR_RD_LO
abbrev BND_DDR_RD_HI : Nat := 0x200001200000 + 0x3c
abbrev BND_ENG_SLOT_LO : Nat := 0x200001200000 + 0x40
abbrev BND_ENG_SLOT : Nat := BND_ENG_SLOT_LO
abbrev BND_ENG_SLOT_HI : Nat := 0x200001200000 + 0x44
abbrev BND_ENG_MAC_LO : Nat := 0x200001200000 + 0x48
abbrev BND_ENG_MAC : Nat := BND_ENG_MAC_LO
abbrev BND_ENG_MAC_HI : Nat := 0x200001200000 + 0x4c
abbrev BND_PKG_E_LO : Nat := 0x200001200000 + 0x50
abbrev BND_PKG_E : Nat := BND_PKG_E_LO
abbrev BND_PKG_E_HI : Nat := 0x200001200000 + 0x54
abbrev BND_ARITH_E_LO : Nat := 0x200001200000 + 0x58
abbrev BND_ARITH_E : Nat := BND_ARITH_E_LO
abbrev BND_ARITH_E_HI : Nat := 0x200001200000 + 0x5c
abbrev BND_SRAM_BND : Nat := 0x200001200000 + 0x60
abbrev BND_SRAM_BND_FJ : Fld := ⟨BND_SRAM_BND, 15, 0⟩
abbrev BND_SRAM_D (d : Nat) : Nat := 0x200001200000 + 0x80 + d * 0x4
abbrev BND_SRAM_D_FJ (d : Nat) : Fld := ⟨BND_SRAM_D d, 15, 0⟩
abbrev BND_SRAM_D_T (d : Nat) : Fld := ⟨BND_SRAM_D d, 31, 16⟩

-- R566 (23_balls_electrical.md)
abbrev IO_PAD_CFG (g : Nat) : Nat := 0x200001300000 + 0x0 + g * 0x4
abbrev IO_PAD_CFG_SLEW (g : Nat) : Fld := ⟨IO_PAD_CFG g, 1, 0⟩
abbrev IO_PAD_CFG_DRIVE (g : Nat) : Fld := ⟨IO_PAD_CFG g, 3, 2⟩
abbrev IO_PAD_CFG_FILT (g : Nat) : Fld := ⟨IO_PAD_CFG g, 7, 4⟩
abbrev IO_PAD_CFG_PULL (g : Nat) : Fld := ⟨IO_PAD_CFG g, 9, 8⟩
abbrev GPIO_OE : Nat := 0x200001300000 + 0x40
abbrev GPIO_OE_OE : Fld := ⟨GPIO_OE, 31, 0⟩
abbrev GPIO_OUT : Nat := 0x200001300000 + 0x44
abbrev GPIO_OUT_OUT : Fld := ⟨GPIO_OUT, 31, 0⟩
abbrev GPIO_IN : Nat := 0x200001300000 + 0x48
abbrev GPIO_IN_IN : Fld := ⟨GPIO_IN, 31, 0⟩

-- R567 (23_balls_electrical.md)
abbrev ANC_PAD_CFG (x : Nat) : Nat := (ancBase x) + 0xa00
abbrev ANC_PAD_CFG_SLEW (x : Nat) : Fld := ⟨ANC_PAD_CFG x, 1, 0⟩
abbrev ANC_PAD_CFG_FILT (x : Nat) : Fld := ⟨ANC_PAD_CFG x, 7, 4⟩

-- R579 (24_cairn.md)
abbrev CRN_STAT (x : Nat) : Nat := (ancBase x) + 0xb00
abbrev CRN_STAT_BAUD (x : Nat) : Fld := ⟨CRN_STAT x, 2, 0⟩
abbrev CRN_STAT_TRACE (x : Nat) : Fld := ⟨CRN_STAT x, 5, 4⟩
abbrev CRN_STAT_SLOT_BUSY (x : Nat) : Fld := ⟨CRN_STAT x, 6, 6⟩
abbrev CRN_CMD_CNT (x : Nat) : Nat := (ancBase x) + 0xb04
abbrev CRN_CMD_CNT_COUNT (x : Nat) : Fld := ⟨CRN_CMD_CNT x, 31, 0⟩
abbrev CRN_ERR_CNT (x : Nat) : Nat := (ancBase x) + 0xb08
abbrev CRN_ERR_CNT_COUNT (x : Nat) : Fld := ⟨CRN_ERR_CNT x, 31, 0⟩

-- R295 (11_dma.md)
abbrev DMA_CH_ACT_OPC (n : Nat) (ch : Nat) : Nat := (dmaBase n ch) + 0x0
abbrev DMA_CH_ACT_OPC_OPC (n : Nat) (ch : Nat) : Fld := ⟨DMA_CH_ACT_OPC n ch, 31, 0⟩
abbrev DMA_CH_ACT_SHAPE (n : Nat) (ch : Nat) : Nat := (dmaBase n ch) + 0x4
abbrev DMA_CH_ACT_SHAPE_PITCH (n : Nat) (ch : Nat) : Fld := ⟨DMA_CH_ACT_SHAPE n ch, 15, 0⟩
abbrev DMA_CH_ACT_SHAPE_ELEM_M1 (n : Nat) (ch : Nat) : Fld := ⟨DMA_CH_ACT_SHAPE n ch, 27, 16⟩
abbrev DMA_CH_ACT_SRC_LO (n : Nat) (ch : Nat) : Nat := (dmaBase n ch) + 0x8
abbrev DMA_CH_ACT_SRC (n : Nat) (ch : Nat) : Nat := DMA_CH_ACT_SRC_LO n ch
abbrev DMA_CH_ACT_SRC_HI (n : Nat) (ch : Nat) : Nat := (dmaBase n ch) + 0xc
abbrev DMA_CH_ACT_DST_LO (n : Nat) (ch : Nat) : Nat := (dmaBase n ch) + 0x10
abbrev DMA_CH_ACT_DST (n : Nat) (ch : Nat) : Nat := DMA_CH_ACT_DST_LO n ch
abbrev DMA_CH_ACT_DST_HI (n : Nat) (ch : Nat) : Nat := (dmaBase n ch) + 0x14
abbrev DMA_CH_ACT_CNT (n : Nat) (ch : Nat) : Nat := (dmaBase n ch) + 0x18
abbrev DMA_CH_ACT_CNT_CNT0_M1 (n : Nat) (ch : Nat) : Fld := ⟨DMA_CH_ACT_CNT n ch, 15, 0⟩
abbrev DMA_CH_ACT_CNT_CNT1_M1 (n : Nat) (ch : Nat) : Fld := ⟨DMA_CH_ACT_CNT n ch, 31, 16⟩
abbrev DMA_CH_ACT_SSTR0 (n : Nat) (ch : Nat) : Nat := (dmaBase n ch) + 0x20
abbrev DMA_CH_ACT_SSTR0_STEP (n : Nat) (ch : Nat) : Fld := ⟨DMA_CH_ACT_SSTR0 n ch, 31, 0⟩
abbrev DMA_CH_ACT_DSTR0 (n : Nat) (ch : Nat) : Nat := (dmaBase n ch) + 0x24
abbrev DMA_CH_ACT_DSTR0_STEP (n : Nat) (ch : Nat) : Fld := ⟨DMA_CH_ACT_DSTR0 n ch, 31, 0⟩
abbrev DMA_CH_ACT_SSTR1 (n : Nat) (ch : Nat) : Nat := (dmaBase n ch) + 0x28
abbrev DMA_CH_ACT_SSTR1_STEP (n : Nat) (ch : Nat) : Fld := ⟨DMA_CH_ACT_SSTR1 n ch, 31, 0⟩
abbrev DMA_CH_ACT_DSTR1 (n : Nat) (ch : Nat) : Nat := (dmaBase n ch) + 0x2c
abbrev DMA_CH_ACT_DSTR1_STEP (n : Nat) (ch : Nat) : Fld := ⟨DMA_CH_ACT_DSTR1 n ch, 31, 0⟩
abbrev DMA_CH_ACT_CW_LO (n : Nat) (ch : Nat) : Nat := (dmaBase n ch) + 0x30
abbrev DMA_CH_ACT_CW (n : Nat) (ch : Nat) : Nat := DMA_CH_ACT_CW_LO n ch
abbrev DMA_CH_ACT_CW_HI (n : Nat) (ch : Nat) : Nat := (dmaBase n ch) + 0x34
abbrev DMA_CH_ACT_NEXT_LO (n : Nat) (ch : Nat) : Nat := (dmaBase n ch) + 0x38
abbrev DMA_CH_ACT_NEXT (n : Nat) (ch : Nat) : Nat := DMA_CH_ACT_NEXT_LO n ch
abbrev DMA_CH_ACT_NEXT_HI (n : Nat) (ch : Nat) : Nat := (dmaBase n ch) + 0x3c

end Sys2Proof.Machine
end

