-- ==== Sys2Proof/Machine/RegTable.lean ====
section
/-! DEFINITION. The access table of the control registers (R8 to R15): for every register of `Machine/Regs.lean` its
instances, its reset value and the bits of each access code, as the spec's register tables give them. -/
namespace Sys2Proof.Machine

/-- One register row: first address, instance dimensions (count, stride; widest stride first), reset value and the
masks of the access codes RW, W1C, RWS and TO (R8); every other bit is RO or reserved. -/
structure RegRow where
  base : Nat
  dims : List (Nat × Nat)
  reset : Nat
  rw : Nat
  w1c : Nat
  rws : Nat
  topo : Nat
  deriving DecidableEq, Repr

/-- Registers of R57 (02_pitch.md). -/
def rowsR57 : List RegRow :=
  [ ⟨0x200000100000, [], 0, 0, 0, 0, 0x37⟩,
    ⟨0x200000100004, [], 0x1fca055, 0, 0, 0, 0x7ffffff⟩,
    ⟨0x200000100008, [], 0, 0xffffffff, 0, 0, 0⟩,
    ⟨0x20000010000c, [], 0, 0xffffffff, 0, 0, 0⟩,
    ⟨0x200000100010, [], 0, 0xffffffff, 0, 0, 0⟩,
    ⟨0x200000100014, [], 0xfa, 0, 0, 0, 0x1ff⟩,
    ⟨0x200000100018, [], 0, 0, 0, 0, 0⟩,
    ⟨0x20000010001c, [], 0, 0, 0, 0, 0⟩,
    ⟨0x200000100020, [], 0, 0, 0, 0, 0⟩,
    ⟨0x200000100024, [], 0, 0, 0, 0, 0⟩,
    ⟨0x200000100028, [], 0, 0, 0, 0, 0⟩,
    ⟨0x20000010002c, [], 0, 0, 0, 0, 0⟩,
    ⟨0x200000100030, [], 0, 0, 0, 0, 0⟩,
    ⟨0x200000100034, [], 0, 0, 0xc, 0, 0⟩,
    ⟨0x200000100038, [], 0, 0, 0, 0, 0⟩,
    ⟨0x20000010003c, [], 0, 0, 0xffff, 0, 0⟩,
    ⟨0x200000100040, [], 0, 0, 0, 0, 0⟩,
    ⟨0x200000100044, [], 0, 0, 0, 0, 0⟩ ]

/-- Registers of R85 (03_topo_image.md). -/
def rowsR85 : List RegRow :=
  [ ⟨0x200000200000, [], 0, 0, 0, 0, 0⟩,
    ⟨0x200000200004, [], 0, 0xf, 0, 0, 0⟩,
    ⟨0x200000200008, [], 0, 0xffffffff, 0, 0, 0⟩,
    ⟨0x20000020000c, [], 0, 0xffffffff, 0, 0, 0⟩,
    ⟨0x200000200010, [], 0, 0x1ffffff, 0, 0, 0⟩,
    ⟨0x200000200014, [], 0, 0, 0x10000, 0, 0⟩,
    ⟨0x200000200018, [], 0, 0, 0, 0, 0⟩,
    ⟨0x20000020001c, [], 0, 0, 0, 0, 0⟩,
    ⟨0x200000200020, [], 0, 0, 0, 0, 0⟩,
    ⟨0x200000200024, [], 8, 0, 0, 0, 0xf⟩,
    ⟨0x200000200028, [], 0, 0, 0, 0, 0⟩,
    ⟨0x20000020002c, [], 0, 0, 0, 0, 0⟩,
    ⟨0x200000200030, [], 0, 0, 0, 0, 0⟩,
    ⟨0x200000200034, [], 0, 0xff, 0, 0, 0⟩,
    ⟨0x200000200038, [], 0, 0, 0x200, 0, 0⟩,
    ⟨0x200000200040, [(8, 4)], 0, 0, 0, 0, 0⟩ ]

/-- Registers of R105 (04_rope_fabric.md). -/
def rowsR105 : List RegRow :=
  [ ⟨0x210000010000, [(8, 0x1000000), (4, 0x100)], 0, 1, 0, 0, 0⟩,
    ⟨0x200000300000, [(20, 0x100)], 0, 1, 0, 0, 0⟩,
    ⟨0x210000010004, [(8, 0x1000000), (4, 0x100)], 0x10000, 0xffffff, 0, 0, 0⟩,
    ⟨0x200000300004, [(20, 0x100)], 0x10000, 0xffffff, 0, 0, 0⟩,
    ⟨0x210000010008, [(8, 0x1000000), (4, 0x100)], 0, 0, 0x10, 0, 0⟩,
    ⟨0x200000300008, [(20, 0x100)], 0, 0, 0x10, 0, 0⟩,
    ⟨0x21000001000c, [(8, 0x1000000), (4, 0x100)], 0, 0, 0, 0x7ffff, 0⟩,
    ⟨0x20000030000c, [(20, 0x100)], 0, 0, 0, 0x7ffff, 0⟩,
    ⟨0x210000010010, [(8, 0x1000000), (4, 0x100)], 0, 0, 0, 0, 0⟩,
    ⟨0x200000300010, [(20, 0x100)], 0, 0, 0, 0, 0⟩,
    ⟨0x210000010014, [(8, 0x1000000), (4, 0x100)], 0, 0, 0, 0, 0⟩,
    ⟨0x200000300014, [(20, 0x100)], 0, 0, 0, 0, 0⟩,
    ⟨0x210000010018, [(8, 0x1000000), (4, 0x100)], 0, 0, 0, 0, 0⟩,
    ⟨0x200000300018, [(20, 0x100)], 0, 0, 0, 0, 0⟩,
    ⟨0x210000010020, [(8, 0x1000000), (4, 0x100)], 0, 0, 0, 0, 0⟩,
    ⟨0x200000300020, [(20, 0x100)], 0, 0, 0, 0, 0⟩,
    ⟨0x210000010024, [(8, 0x1000000), (4, 0x100)], 0, 0, 0, 0, 0⟩,
    ⟨0x200000300024, [(20, 0x100)], 0, 0, 0, 0, 0⟩ ]

/-- Registers of R106 (04_rope_fabric.md). -/
def rowsR106 : List RegRow :=
  [ ⟨0x210000020000, [(8, 0x1000000), (8, 4)], 0xf, 0, 0, 0, 0xf⟩,
    ⟨0x210000020020, [(8, 0x1000000)], 0x10000, 0, 0, 0, 0x1fffff⟩,
    ⟨0x210000020024, [(8, 0x1000000)], 0, 0, 0, 0, 0⟩,
    ⟨0x210000020028, [(8, 0x1000000)], 0, 0, 0, 0, 0⟩,
    ⟨0x21000002002c, [(8, 0x1000000)], 0, 0, 0xff, 0, 0⟩ ]

/-- Registers of R135 (05_threads_and_cores.md). -/
def rowsR135 : List RegRow :=
  [ ⟨0x210000400000, [(8, 0x1000000), (32, 0x1000)], 0, 0, 0, 0, 0⟩,
    ⟨0x210000400004, [(8, 0x1000000), (32, 0x1000)], 0, 0, 0, 0, 0⟩,
    ⟨0x210000400008, [(8, 0x1000000), (32, 0x1000)], 0, 0, 0x40000, 0, 0⟩,
    ⟨0x21000040000c, [(8, 0x1000000), (32, 0x1000)], 0, 0, 0, 0, 0⟩,
    ⟨0x210000400010, [(8, 0x1000000), (32, 0x1000)], 0, 0, 0, 0, 0⟩,
    ⟨0x210000400014, [(8, 0x1000000), (32, 0x1000)], 0, 0, 0, 0, 0⟩,
    ⟨0x210000400018, [(8, 0x1000000), (32, 0x1000)], 0, 0, 0, 0, 0⟩,
    ⟨0x21000040001c, [(8, 0x1000000), (32, 0x1000)], 0, 0, 0, 0, 0⟩,
    ⟨0x210000400020, [(8, 0x1000000), (32, 0x1000)], 0, 0, 0, 0, 0⟩,
    ⟨0x210000400024, [(8, 0x1000000), (32, 0x1000)], 0, 0, 0, 0, 0⟩,
    ⟨0x210000400028, [(8, 0x1000000), (32, 0x1000)], 0, 0, 0, 0, 0⟩,
    ⟨0x21000040002c, [(8, 0x1000000), (32, 0x1000)], 0, 0, 0, 0, 0⟩,
    ⟨0x210000400100, [(8, 0x1000000), (32, 0x1000), (8, 0x20)], 0, 0, 0, 0, 0⟩,
    ⟨0x210000400104, [(8, 0x1000000), (32, 0x1000), (8, 0x20)], 0, 0, 0, 0, 0⟩,
    ⟨0x210000400108, [(8, 0x1000000), (32, 0x1000), (8, 0x20)], 0, 0, 0, 0, 0⟩,
    ⟨0x21000040010c, [(8, 0x1000000), (32, 0x1000), (8, 0x20)], 0, 0, 0, 0, 0⟩,
    ⟨0x210000400110, [(8, 0x1000000), (32, 0x1000), (8, 0x20)], 0, 0, 0, 0, 0⟩,
    ⟨0x210000400114, [(8, 0x1000000), (32, 0x1000), (8, 0x20)], 0, 0, 0, 0, 0⟩ ]

/-- Registers of R136 (05_threads_and_cores.md). -/
def rowsR136 : List RegRow :=
  [ ⟨0x210000300000, [(8, 0x1000000), (4, 4)], 0x1f, 0, 0, 0, 0x1f⟩ ]

/-- Registers of R162 (06_number_formats.md). -/
def rowsR162 : List RegRow :=
  [ ⟨0x210000400118, [(8, 0x1000000), (32, 0x1000), (8, 0x20)], 0, 0, 0x3f, 0, 0⟩ ]

/-- Registers of R187 (07_scratchpads.md). -/
def rowsR187 : List RegRow :=
  [ ⟨0x210000500000, [(8, 0x1000000), (64, 0x40)], 0, 0x400, 0, 0, 0x3ff⟩,
    ⟨0x210000500004, [(8, 0x1000000), (64, 0x40)], 0x1f, 0, 0, 0, 0x1f⟩,
    ⟨0x210000500008, [(8, 0x1000000), (64, 0x40)], 0, 0, 0, 0, 0⟩,
    ⟨0x21000050000c, [(8, 0x1000000), (64, 0x40)], 0, 0, 0, 0, 0⟩,
    ⟨0x210000500010, [(8, 0x1000000), (64, 0x40)], 0, 0, 0x4000, 0, 0⟩,
    ⟨0x210000500014, [(8, 0x1000000), (64, 0x40)], 0, 0, 0, 0, 0⟩,
    ⟨0x210000500018, [(8, 0x1000000), (64, 0x40)], 0, 0, 0, 0, 0⟩,
    ⟨0x21000050001c, [(8, 0x1000000), (64, 0x40)], 0, 0, 0x8000, 0, 0⟩ ]

/-- Registers of R188 (07_scratchpads.md). -/
def rowsR188 : List RegRow :=
  [ ⟨0x210000501000, [(8, 0x1000000), (16, 0x10)], 0, 0, 0, 0, 0x1ffff⟩,
    ⟨0x210000501004, [(8, 0x1000000), (16, 0x10)], 0, 0, 0, 0, 0x1ffff⟩,
    ⟨0x210000501008, [(8, 0x1000000), (16, 0x10)], 0, 0, 0, 0, 0x1ffff⟩,
    ⟨0x210000501100, [(8, 0x1000000), (4, 4)], 0, 0, 0, 0, 1⟩,
    ⟨0x210000501110, [(8, 0x1000000)], 0x8000001, 0xffff0001, 0, 0, 0⟩,
    ⟨0x210000501114, [(8, 0x1000000)], 0x400, 0, 0, 0, 0xffff⟩,
    ⟨0x210000501118, [(8, 0x1000000)], 0, 0, 0, 0, 0⟩,
    ⟨0x21000050111c, [(8, 0x1000000)], 0, 0, 0, 0, 0⟩,
    ⟨0x210000501120, [(8, 0x1000000)], 0, 0, 0, 0, 0⟩,
    ⟨0x210000501124, [(8, 0x1000000)], 0, 0, 0, 0, 0⟩,
    ⟨0x210000501128, [(8, 0x1000000)], 0, 0, 0, 0, 0⟩,
    ⟨0x21000050112c, [(8, 0x1000000)], 0, 0, 0x100000, 0, 0⟩,
    ⟨0x210000501130, [(8, 0x1000000)], 0, 0, 0x100000, 0, 0⟩ ]

/-- Registers of R215 (08_image_operators.md). -/
def rowsR215 : List RegRow :=
  [ ⟨0x200000700000, [], 0, 1, 0, 0, 0⟩,
    ⟨0x200000700004, [], 0x10000, 0xffffff, 0, 0, 0⟩,
    ⟨0x200000700008, [], 0, 0, 0, 0, 0⟩,
    ⟨0x20000070000c, [], 0, 0x1ffffff, 0, 0, 0⟩,
    ⟨0x200000700010, [], 0, 0, 0, 0, 0⟩,
    ⟨0x200000700014, [], 0, 0, 0, 0, 0⟩,
    ⟨0x200000700018, [], 0, 0, 0, 0, 0⟩,
    ⟨0x20000070001c, [], 0, 0, 0, 0, 0⟩,
    ⟨0x200000700020, [], 0, 0, 0, 0, 0⟩,
    ⟨0x200000700024, [], 0, 0, 0x1000, 0, 0⟩,
    ⟨0x200000700028, [], 0, 0, 0, 0, 0⟩,
    ⟨0x20000070002c, [], 0, 0, 0, 0, 0⟩ ]

/-- Registers of R243 (09_attention_kv.md). -/
def rowsR243 : List RegRow :=
  [ ⟨0x210000600000, [(8, 0x1000000)], 0, 1, 0, 0, 0⟩,
    ⟨0x210000600004, [(8, 0x1000000)], 0x10000, 0xffffff, 0, 0, 0⟩,
    ⟨0x210000600008, [(8, 0x1000000)], 0, 0, 0, 0, 0⟩,
    ⟨0x21000060000c, [(8, 0x1000000)], 0, 0x1ffffff, 0, 0, 0⟩,
    ⟨0x210000600010, [(8, 0x1000000)], 0, 0, 0, 0, 0⟩,
    ⟨0x210000600014, [(8, 0x1000000)], 0, 0, 0, 0, 0⟩,
    ⟨0x210000600018, [(8, 0x1000000)], 0, 0, 0, 0, 0⟩,
    ⟨0x21000060001c, [(8, 0x1000000)], 0, 0, 0, 0, 0⟩,
    ⟨0x210000600020, [(8, 0x1000000)], 0, 0, 0, 0, 0⟩,
    ⟨0x210000600024, [(8, 0x1000000)], 0, 0, 0, 0, 0⟩,
    ⟨0x210000600028, [(8, 0x1000000)], 0, 0, 0, 0, 0⟩,
    ⟨0x21000060002c, [(8, 0x1000000)], 0, 0, 0, 0, 0⟩,
    ⟨0x210000600030, [(8, 0x1000000)], 0, 0, 0, 0, 0⟩,
    ⟨0x210000600034, [(8, 0x1000000)], 0, 0, 0, 0, 0⟩,
    ⟨0x210000600038, [(8, 0x1000000)], 0, 0, 0x100000, 0, 0⟩,
    ⟨0x210000600100, [(8, 0x1000000), (16, 8)], 0, 0, 0, 0, 0⟩,
    ⟨0x210000600104, [(8, 0x1000000), (16, 8)], 0, 0, 0, 0, 0⟩,
    ⟨0x210000600200, [(8, 0x1000000), (16, 0x80), (32, 4)], 0, 0, 0, 0, 0xffffffff⟩ ]

/-- Registers of R266 (10_partitions.md). -/
def rowsR266 : List RegRow :=
  [ ⟨0x210000300040, [(8, 0x1000000), (4, 0x10)], 0x1f, 0, 0, 0, 0xf1f⟩,
    ⟨0x210000300044, [(8, 0x1000000), (4, 0x10)], 0, 0, 0, 0, 0x1ffff⟩,
    ⟨0x210000300048, [(8, 0x1000000), (4, 0x10)], 0, 0, 0, 0, 0x1ffff⟩,
    ⟨0x21000030004c, [(8, 0x1000000), (4, 0x10)], 0, 0, 0, 0, 0x3ff7f⟩ ]

/-- Registers of R267 (10_partitions.md). -/
def rowsR267 : List RegRow :=
  [ ⟨0x200000400000, [(16, 0x40)], 0x303, 0, 0, 0, 0x3f7⟩,
    ⟨0x200000400004, [(16, 0x40)], 0x30, 0, 0x10000, 0, 0⟩,
    ⟨0x200000400008, [(16, 0x40)], 0, 1, 0, 0, 0⟩,
    ⟨0x20000040000c, [(16, 0x40)], 0, 0, 0, 0, 0⟩,
    ⟨0x200000400010, [(16, 0x40)], 0, 0, 0, 0, 0⟩,
    ⟨0x200000400014, [(16, 0x40)], 0, 0, 0, 0, 0⟩,
    ⟨0x200000400018, [(16, 0x40)], 0, 0, 0, 0, 0⟩,
    ⟨0x20000040001c, [(16, 0x40)], 0, 0, 0, 0, 0⟩ ]

/-- Registers of R581 (11_dma.md). -/
def rowsR581 : List RegRow :=
  [ ⟨0x200001900000, [(64, 0x10)], 0, 0, 0, 0, 0xffffffff⟩,
    ⟨0x200001900004, [(64, 0x10)], 0, 0, 0, 0, 0xffffffff⟩,
    ⟨0x200001900008, [(64, 0x10)], 0x1f00000, 0, 0, 0, 0x1f7ffff⟩ ]

/-- Registers of R295 (11_dma.md). -/
def rowsR295a : List RegRow :=
  [ ⟨0x210000700040, [(8, 0x1000000), (16, 0x100)], 0, 0xffffffff, 0, 0, 0⟩,
    ⟨0x200000500040, [(32, 0x100)], 0, 0xffffffff, 0, 0, 0⟩,
    ⟨0x210000700044, [(8, 0x1000000), (16, 0x100)], 0, 0xfffffff, 0, 0, 0⟩,
    ⟨0x200000500044, [(32, 0x100)], 0, 0xfffffff, 0, 0, 0⟩,
    ⟨0x210000700048, [(8, 0x1000000), (16, 0x100)], 0, 0xffffffff, 0, 0, 0⟩,
    ⟨0x200000500048, [(32, 0x100)], 0, 0xffffffff, 0, 0, 0⟩,
    ⟨0x21000070004c, [(8, 0x1000000), (16, 0x100)], 0, 0xffffffff, 0, 0, 0⟩,
    ⟨0x20000050004c, [(32, 0x100)], 0, 0xffffffff, 0, 0, 0⟩,
    ⟨0x210000700050, [(8, 0x1000000), (16, 0x100)], 0, 0xffffffff, 0, 0, 0⟩,
    ⟨0x200000500050, [(32, 0x100)], 0, 0xffffffff, 0, 0, 0⟩,
    ⟨0x210000700054, [(8, 0x1000000), (16, 0x100)], 0, 0xffffffff, 0, 0, 0⟩,
    ⟨0x200000500054, [(32, 0x100)], 0, 0xffffffff, 0, 0, 0⟩,
    ⟨0x210000700058, [(8, 0x1000000), (16, 0x100)], 0, 0xffffffff, 0, 0, 0⟩,
    ⟨0x200000500058, [(32, 0x100)], 0, 0xffffffff, 0, 0, 0⟩,
    ⟨0x210000700060, [(8, 0x1000000), (16, 0x100)], 0, 0xffffffff, 0, 0, 0⟩,
    ⟨0x200000500060, [(32, 0x100)], 0, 0xffffffff, 0, 0, 0⟩,
    ⟨0x210000700064, [(8, 0x1000000), (16, 0x100)], 0, 0xffffffff, 0, 0, 0⟩,
    ⟨0x200000500064, [(32, 0x100)], 0, 0xffffffff, 0, 0, 0⟩,
    ⟨0x210000700068, [(8, 0x1000000), (16, 0x100)], 0, 0xffffffff, 0, 0, 0⟩,
    ⟨0x200000500068, [(32, 0x100)], 0, 0xffffffff, 0, 0, 0⟩,
    ⟨0x21000070006c, [(8, 0x1000000), (16, 0x100)], 0, 0xffffffff, 0, 0, 0⟩,
    ⟨0x20000050006c, [(32, 0x100)], 0, 0xffffffff, 0, 0, 0⟩,
    ⟨0x210000700070, [(8, 0x1000000), (16, 0x100)], 0, 0xffffffff, 0, 0, 0⟩,
    ⟨0x200000500070, [(32, 0x100)], 0, 0xffffffff, 0, 0, 0⟩,
    ⟨0x210000700074, [(8, 0x1000000), (16, 0x100)], 0, 0xffffffff, 0, 0, 0⟩,
    ⟨0x200000500074, [(32, 0x100)], 0, 0xffffffff, 0, 0, 0⟩,
    ⟨0x210000700078, [(8, 0x1000000), (16, 0x100)], 0, 0xffffffff, 0, 0, 0⟩,
    ⟨0x200000500078, [(32, 0x100)], 0, 0xffffffff, 0, 0, 0⟩,
    ⟨0x21000070007c, [(8, 0x1000000), (16, 0x100)], 0, 0xffffffff, 0, 0, 0⟩,
    ⟨0x20000050007c, [(32, 0x100)], 0, 0xffffffff, 0, 0, 0⟩,
    ⟨0x210000700080, [(8, 0x1000000), (16, 0x100)], 0, 7, 0, 0, 0⟩,
    ⟨0x200000500080, [(32, 0x100)], 0, 7, 0, 0, 0⟩,
    ⟨0x210000700084, [(8, 0x1000000), (16, 0x100)], 0x10000, 0xffffff, 0, 0, 0⟩,
    ⟨0x200000500084, [(32, 0x100)], 0x10000, 0xffffff, 0, 0, 0⟩,
    ⟨0x210000700088, [(8, 0x1000000), (16, 0x100)], 0, 0, 0x800, 0, 0⟩,
    ⟨0x200000500088, [(32, 0x100)], 0, 0, 0x800, 0, 0⟩,
    ⟨0x21000070008c, [(8, 0x1000000), (16, 0x100)], 0x1f, 0, 0, 0, 0x1f⟩,
    ⟨0x20000050008c, [(32, 0x100)], 0x1f, 0, 0, 0, 0x1f⟩,
    ⟨0x210000700090, [(8, 0x1000000), (16, 0x100)], 0, 0, 0, 0, 0xffffffff⟩,
    ⟨0x200000500090, [(32, 0x100)], 0, 0, 0, 0, 0xffffffff⟩ ]

/-- Registers of R295 (11_dma.md). -/
def rowsR295b : List RegRow :=
  [ ⟨0x210000700094, [(8, 0x1000000), (16, 0x100)], 0, 0, 0, 0, 0xffffffff⟩,
    ⟨0x200000500094, [(32, 0x100)], 0, 0, 0, 0, 0xffffffff⟩,
    ⟨0x210000700098, [(8, 0x1000000), (16, 0x100)], 0, 0, 0, 0, 0xffffffff⟩,
    ⟨0x200000500098, [(32, 0x100)], 0, 0, 0, 0, 0xffffffff⟩,
    ⟨0x21000070009c, [(8, 0x1000000), (16, 0x100)], 0, 0, 0, 0, 0xffffffff⟩,
    ⟨0x20000050009c, [(32, 0x100)], 0, 0, 0, 0, 0xffffffff⟩,
    ⟨0x2100007000a0, [(8, 0x1000000), (16, 0x100)], 0, 0xffffffff, 0, 0, 0⟩,
    ⟨0x2000005000a0, [(32, 0x100)], 0, 0xffffffff, 0, 0, 0⟩,
    ⟨0x2100007000a4, [(8, 0x1000000), (16, 0x100)], 0, 0xffffffff, 0, 0, 0⟩,
    ⟨0x2000005000a4, [(32, 0x100)], 0, 0xffffffff, 0, 0, 0⟩,
    ⟨0x2100007000a8, [(8, 0x1000000), (16, 0x100)], 0, 0, 0x100, 0, 0⟩,
    ⟨0x2000005000a8, [(32, 0x100)], 0, 0, 0x100, 0, 0⟩,
    ⟨0x2100007000ac, [(8, 0x1000000), (16, 0x100)], 0, 0, 0, 0, 0⟩,
    ⟨0x2000005000ac, [(32, 0x100)], 0, 0, 0, 0, 0⟩,
    ⟨0x2100007000b0, [(8, 0x1000000), (16, 0x100)], 0, 0, 0, 0, 0⟩,
    ⟨0x2000005000b0, [(32, 0x100)], 0, 0, 0, 0, 0⟩,
    ⟨0x2100007000b4, [(8, 0x1000000), (16, 0x100)], 0, 0, 0, 0, 0⟩,
    ⟨0x2000005000b4, [(32, 0x100)], 0, 0, 0, 0, 0⟩,
    ⟨0x2100007000b8, [(8, 0x1000000), (16, 0x100)], 0, 0, 0, 0, 0⟩,
    ⟨0x2000005000b8, [(32, 0x100)], 0, 0, 0, 0, 0⟩,
    ⟨0x2100007000bc, [(8, 0x1000000), (16, 0x100)], 0, 0, 0, 0, 0⟩,
    ⟨0x2000005000bc, [(32, 0x100)], 0, 0, 0, 0, 0⟩,
    ⟨0x2100007000c0, [(8, 0x1000000), (16, 0x100)], 0, 0, 0, 0, 0⟩,
    ⟨0x2000005000c0, [(32, 0x100)], 0, 0, 0, 0, 0⟩,
    ⟨0x2100007000c4, [(8, 0x1000000), (16, 0x100)], 0, 0, 0, 0, 0⟩,
    ⟨0x2000005000c4, [(32, 0x100)], 0, 0, 0, 0, 0⟩,
    ⟨0x2100007000c8, [(8, 0x1000000), (16, 0x100)], 0, 0, 0, 0, 0⟩,
    ⟨0x2000005000c8, [(32, 0x100)], 0, 0, 0, 0, 0⟩,
    ⟨0x2100007000cc, [(8, 0x1000000), (16, 0x100)], 0, 0, 0, 0, 0⟩,
    ⟨0x2000005000cc, [(32, 0x100)], 0, 0, 0, 0, 0⟩,
    ⟨0x210000700000, [(8, 0x1000000), (16, 0x100)], 0, 0, 0, 0, 0⟩,
    ⟨0x200000500000, [(32, 0x100)], 0, 0, 0, 0, 0⟩,
    ⟨0x210000700004, [(8, 0x1000000), (16, 0x100)], 0, 0, 0, 0, 0⟩,
    ⟨0x200000500004, [(32, 0x100)], 0, 0, 0, 0, 0⟩,
    ⟨0x210000700008, [(8, 0x1000000), (16, 0x100)], 0, 0, 0, 0, 0⟩,
    ⟨0x200000500008, [(32, 0x100)], 0, 0, 0, 0, 0⟩,
    ⟨0x21000070000c, [(8, 0x1000000), (16, 0x100)], 0, 0, 0, 0, 0⟩,
    ⟨0x20000050000c, [(32, 0x100)], 0, 0, 0, 0, 0⟩,
    ⟨0x210000700010, [(8, 0x1000000), (16, 0x100)], 0, 0, 0, 0, 0⟩,
    ⟨0x200000500010, [(32, 0x100)], 0, 0, 0, 0, 0⟩ ]

/-- Registers of R295 (11_dma.md). -/
def rowsR295c : List RegRow :=
  [ ⟨0x210000700014, [(8, 0x1000000), (16, 0x100)], 0, 0, 0, 0, 0⟩,
    ⟨0x200000500014, [(32, 0x100)], 0, 0, 0, 0, 0⟩,
    ⟨0x210000700018, [(8, 0x1000000), (16, 0x100)], 0, 0, 0, 0, 0⟩,
    ⟨0x200000500018, [(32, 0x100)], 0, 0, 0, 0, 0⟩,
    ⟨0x210000700020, [(8, 0x1000000), (16, 0x100)], 0, 0, 0, 0, 0⟩,
    ⟨0x200000500020, [(32, 0x100)], 0, 0, 0, 0, 0⟩,
    ⟨0x210000700024, [(8, 0x1000000), (16, 0x100)], 0, 0, 0, 0, 0⟩,
    ⟨0x200000500024, [(32, 0x100)], 0, 0, 0, 0, 0⟩,
    ⟨0x210000700028, [(8, 0x1000000), (16, 0x100)], 0, 0, 0, 0, 0⟩,
    ⟨0x200000500028, [(32, 0x100)], 0, 0, 0, 0, 0⟩,
    ⟨0x21000070002c, [(8, 0x1000000), (16, 0x100)], 0, 0, 0, 0, 0⟩,
    ⟨0x20000050002c, [(32, 0x100)], 0, 0, 0, 0, 0⟩,
    ⟨0x210000700030, [(8, 0x1000000), (16, 0x100)], 0, 0, 0, 0, 0⟩,
    ⟨0x200000500030, [(32, 0x100)], 0, 0, 0, 0, 0⟩,
    ⟨0x210000700034, [(8, 0x1000000), (16, 0x100)], 0, 0, 0, 0, 0⟩,
    ⟨0x200000500034, [(32, 0x100)], 0, 0, 0, 0, 0⟩,
    ⟨0x210000700038, [(8, 0x1000000), (16, 0x100)], 0, 0, 0, 0, 0⟩,
    ⟨0x200000500038, [(32, 0x100)], 0, 0, 0, 0, 0⟩,
    ⟨0x21000070003c, [(8, 0x1000000), (16, 0x100)], 0, 0, 0, 0, 0⟩,
    ⟨0x20000050003c, [(32, 0x100)], 0, 0, 0, 0, 0⟩ ]

def rowsR295 : List RegRow := rowsR295a ++ rowsR295b ++ rowsR295c

/-- Registers of R296 (11_dma.md). -/
def rowsR296 : List RegRow :=
  [ ⟨0x210000710000, [(8, 0x1000000), (8, 0x10)], 0, 0, 0, 0, 0x7fff3fff⟩,
    ⟨0x210000710004, [(8, 0x1000000), (8, 0x10)], 0x1f00, 1, 0, 0, 0x1f0e⟩,
    ⟨0x210000710008, [(8, 0x1000000), (8, 0x10)], 0, 0, 0, 0, 0⟩,
    ⟨0x21000071000c, [(8, 0x1000000), (8, 0x10)], 0, 0, 0x400, 0, 0⟩ ]

/-- Registers of R312 (12_regulation.md). -/
def rowsR312 : List RegRow :=
  [ ⟨0x200000600000, [(18, 0x40)], 3, 0, 0, 0, 7⟩,
    ⟨0x200000600004, [(18, 0x40)], 0x200, 0x3ff, 0, 0, 0⟩,
    ⟨0x200000600008, [(18, 0x40)], 0x2000000, 0, 0, 0, 0x3ff03ff⟩,
    ⟨0x20000060000c, [(18, 0x40)], 0, 0, 0, 0, 0xffff⟩,
    ⟨0x200000600010, [(18, 0x40)], 0, 0, 0, 0, 0⟩,
    ⟨0x200000600014, [(18, 0x40)], 0, 0, 0, 0, 0⟩,
    ⟨0x200000600018, [(18, 0x40)], 0, 0, 0, 0, 0⟩,
    ⟨0x20000060001c, [(18, 0x40)], 0, 0, 0, 0, 0⟩,
    ⟨0x200000600020, [(18, 0x40)], 0, 0, 0, 0, 0⟩,
    ⟨0x200000600024, [(18, 0x40)], 0, 0, 0, 0, 0⟩,
    ⟨0x200000600028, [(18, 0x40)], 0, 0, 0, 0, 0⟩ ]

/-- Registers of R313 (12_regulation.md). -/
def rowsR313 : List RegRow :=
  [ ⟨0x200000600800, [], 1, 1, 0, 0, 0⟩,
    ⟨0x200000600804, [], 0, 0, 0, 0, 0⟩ ]

/-- Registers of R314 (12_regulation.md). -/
def rowsR314 : List RegRow :=
  [ ⟨0x210000800000, [(8, 0x1000000), (16, 0x10)], 0x40, 0, 0, 0, 0xffff007f⟩,
    ⟨0x200000601000, [(32, 0x10)], 0x40, 0, 0, 0, 0xffff007f⟩,
    ⟨0x210000800004, [(8, 0x1000000), (16, 0x10)], 0, 0, 0, 0, 0⟩,
    ⟨0x200000601004, [(32, 0x10)], 0, 0, 0, 0, 0⟩,
    ⟨0x210000800008, [(8, 0x1000000), (16, 0x10)], 0, 0, 0, 0, 0⟩,
    ⟨0x200000601008, [(32, 0x10)], 0, 0, 0, 0, 0⟩ ]

/-- Registers of R338 (13_dram.md). -/
def rowsR338 : List RegRow :=
  [ ⟨0x200000800000, [(12, 0x1000)], 0, 0, 0, 0, 0⟩,
    ⟨0x200000800004, [(12, 0x1000)], 0, 0, 0x10000000, 0, 0⟩,
    ⟨0x200000800008, [(12, 0x1000)], 0, 0, 0, 0, 0⟩,
    ⟨0x20000080000c, [(12, 0x1000)], 0, 0, 0, 0, 0⟩,
    ⟨0x200000800010, [(12, 0x1000)], 0, 0, 0, 0, 0⟩,
    ⟨0x200000800014, [(12, 0x1000)], 0, 0, 0, 0, 0⟩,
    ⟨0x200000800018, [(12, 0x1000)], 0, 0, 0, 0, 0⟩,
    ⟨0x20000080001c, [(12, 0x1000)], 0, 0, 1, 0, 0⟩,
    ⟨0x200000800020, [(12, 0x1000)], 0, 0, 0, 0, 0⟩,
    ⟨0x200000800024, [(12, 0x1000)], 0, 0, 0, 0, 0⟩,
    ⟨0x200000800028, [(12, 0x1000)], 0, 0, 0, 0, 0⟩,
    ⟨0x20000080002c, [(12, 0x1000)], 0, 0, 0, 0, 0⟩,
    ⟨0x200000800030, [(12, 0x1000)], 0, 0, 0, 0, 0⟩,
    ⟨0x200000800034, [(12, 0x1000)], 0, 0, 0, 0, 0⟩,
    ⟨0x200000800038, [(12, 0x1000)], 0, 0, 0, 0, 0⟩,
    ⟨0x20000080003c, [(12, 0x1000)], 0, 0, 0, 0, 0⟩,
    ⟨0x200000800040, [(12, 0x1000), (16, 4)], 0x20202020, 0, 0, 0, 0xffffffff⟩,
    ⟨0x200000800080, [(12, 0x1000)], 0, 0, 0, 0, 0⟩,
    ⟨0x200000800084, [(12, 0x1000)], 0, 3, 0, 0, 0⟩,
    ⟨0x200000800800, [(12, 0x1000), (128, 4)], 0, 0, 0, 0, 0⟩ ]

/-- Registers of R339 (13_dram.md). -/
def rowsR339 : List RegRow :=
  [ ⟨0x20000080c000, [], 0, 0, 0, 0, 0x37⟩,
    ⟨0x20000080c004, [], 0, 3, 8, 0, 0⟩,
    ⟨0x20000080c008, [], 0, 0, 0, 0, 0⟩,
    ⟨0x20000080c00c, [], 0, 0, 0, 0, 0⟩,
    ⟨0x20000080c010, [], 0x11, 0x1f, 0, 0, 0⟩,
    ⟨0x20000080c014, [], 0x40800, 0, 0, 0, 0xffffff⟩,
    ⟨0x20000080c018, [], 0xa, 0, 0, 0, 0x3ff⟩,
    ⟨0x20000080c01c, [], 0, 0, 0, 0, 0⟩,
    ⟨0x20000080c020, [], 0, 0, 0, 0, 0⟩,
    ⟨0x20000080c024, [], 0x1f400001, 0xffff0001, 0, 0, 0⟩,
    ⟨0x20000080c028, [], 0x400, 0, 0, 0, 0xffff⟩,
    ⟨0x20000080c02c, [], 0x1001, 0xff01, 0, 0, 0⟩,
    ⟨0x20000080c030, [], 0, 0, 0, 0, 0⟩,
    ⟨0x20000080c034, [], 0, 0, 0, 0, 0⟩,
    ⟨0x20000080c038, [], 0, 0, 0, 0, 0⟩ ]

/-- Registers of R363 (14_sensor_ingress.md). -/
def rowsR363 : List RegRow :=
  [ ⟨0x200000901000, [(24, 0x100)], 0, 1, 0, 0, 0⟩,
    ⟨0x200000901004, [(24, 0x100)], 0x10000, 0xffffff, 0, 0, 0⟩,
    ⟨0x200000901008, [(24, 0x100)], 0, 0, 0, 0, 0⟩,
    ⟨0x20000090100c, [(24, 0x100)], 0, 0, 0, 0, 0⟩,
    ⟨0x200000901010, [(24, 0x100)], 0, 0, 0, 0, 0⟩,
    ⟨0x200000901014, [(24, 0x100)], 0, 0, 0, 0, 0⟩,
    ⟨0x200000901018, [(24, 0x100)], 0, 0, 0, 0, 0⟩,
    ⟨0x20000090101c, [(24, 0x100)], 0, 0, 0, 0, 0⟩,
    ⟨0x200000901020, [(24, 0x100)], 0, 0, 0, 0, 0⟩,
    ⟨0x200000901024, [(24, 0x100)], 0, 0, 0, 0, 0⟩,
    ⟨0x200000901028, [(24, 0x100)], 0, 0, 0, 0, 0⟩,
    ⟨0x20000090102c, [(24, 0x100)], 0, 0, 0, 0, 0⟩,
    ⟨0x200000901030, [(24, 0x100)], 0, 0, 0, 0, 0⟩,
    ⟨0x200000901034, [(24, 0x100)], 0, 0, 0, 0, 0⟩,
    ⟨0x200000901038, [(24, 0x100)], 0, 0, 0, 0, 0⟩,
    ⟨0x20000090103c, [(24, 0x100)], 0, 0, 0, 0, 0⟩,
    ⟨0x200000901080, [(24, 0x100), (32, 4)], 0, 0, 0, 0, 0xffffffff⟩ ]

/-- Registers of R364 (14_sensor_ingress.md). -/
def rowsR364 : List RegRow :=
  [ ⟨0x200000900000, [], 0, 0, 0, 0, 0⟩,
    ⟨0x200000900100, [(8, 0x10)], 0, 0, 2, 0, 0⟩,
    ⟨0x200000900104, [(8, 0x10)], 0, 0, 0, 0, 0⟩,
    ⟨0x200000900108, [(8, 0x10)], 0, 0, 0, 0, 0⟩,
    ⟨0x200000900300, [(16, 8)], 0x3e, 0, 0, 0, 0⟩,
    ⟨0x200000900304, [(16, 8)], 0, 0, 0, 0, 0⟩ ]

/-- Registers of R368 (14_sensor_ingress.md). -/
def rowsR368 : List RegRow :=
  [ ⟨0x200001400000, [(256, 4)], 0, 0xff, 0, 0, 0⟩,
    ⟨0x200001400800, [(32, 0x10)], 0, 7, 0, 0, 0⟩,
    ⟨0x200001400804, [(32, 0x10)], 0x1ff, 0x1ff, 0, 0, 0⟩,
    ⟨0x200001400a00, [], 0, 0xff, 0, 0, 0⟩,
    ⟨0x200001400a04, [], 0, 0, 0, 0, 0⟩ ]

/-- Registers of R371 (14_sensor_ingress.md). -/
def rowsR371 : List RegRow :=
  [ ⟨0x200001500000, [(4, 0x1000)], 0, 3, 0, 0, 0⟩,
    ⟨0x200001500004, [(4, 0x1000)], 0x10000, 0xffffff, 0, 0, 0⟩,
    ⟨0x200001500008, [(4, 0x1000)], 0, 0, 8, 0, 0⟩,
    ⟨0x200001500010, [(4, 0x1000)], 0, 0, 0, 0, 0xffffffff⟩,
    ⟨0x200001500014, [(4, 0x1000)], 0, 0, 0, 0, 0xfffff⟩,
    ⟨0x200001500020, [(4, 0x1000)], 0, 0xffffffff, 0, 0, 0⟩,
    ⟨0x200001500024, [(4, 0x1000)], 0, 0xffffffff, 0, 0, 0⟩,
    ⟨0x200001500028, [(4, 0x1000)], 0x900010, 0xff1fff, 0, 0, 0⟩,
    ⟨0x20000150002c, [(4, 0x1000)], 0, 0xfff0000, 0, 0, 0⟩,
    ⟨0x200001500030, [(4, 0x1000)], 0, 0xffffffff, 0, 0, 0⟩,
    ⟨0x200001500034, [(4, 0x1000)], 0, 0xffffffff, 0, 0, 0⟩,
    ⟨0x200001500038, [(4, 0x1000)], 0x10, 0x1fff, 0, 0, 0⟩,
    ⟨0x20000150003c, [(4, 0x1000)], 0, 0xfff0000, 0, 0, 0⟩,
    ⟨0x200001500040, [(4, 0x1000)], 0, 0xffffffff, 0, 0, 0⟩,
    ⟨0x200001500044, [(4, 0x1000)], 0, 0xffffffff, 0, 0, 0⟩,
    ⟨0x200001500048, [(4, 0x1000)], 0x10, 0x1fff, 0, 0, 0⟩,
    ⟨0x20000150004c, [(4, 0x1000)], 0, 0xfff0000, 0, 0, 0⟩,
    ⟨0x200001500050, [(4, 0x1000)], 0, 0xffffffff, 0, 0, 0⟩,
    ⟨0x200001500054, [(4, 0x1000)], 0, 0xffffffff, 0, 0, 0⟩,
    ⟨0x200001500058, [(4, 0x1000)], 0x1f, 0x1f, 0, 0, 0⟩,
    ⟨0x200001500060, [(4, 0x1000)], 0, 0, 0, 0, 0⟩,
    ⟨0x200001500064, [(4, 0x1000)], 0, 0, 0, 0, 0⟩,
    ⟨0x200001500068, [(4, 0x1000)], 0, 0, 0, 0, 0⟩,
    ⟨0x20000150006c, [(4, 0x1000)], 0, 0, 0, 0, 0⟩ ]

/-- Registers of R373 (14_sensor_ingress.md). -/
def rowsR373 : List RegRow :=
  [ ⟨0x200001600000, [(6, 0x400)], 6, 0xf, 0, 0, 0⟩,
    ⟨0x200001600004, [(6, 0x400)], 0x10000, 0xffffff, 0, 0, 0⟩,
    ⟨0x200001600008, [(6, 0x400)], 0xf9f7e00, 0x3fffffff, 0, 0, 0⟩,
    ⟨0x20000160000c, [(6, 0x400)], 0x19091c00, 0x1f0f1f1f, 0, 0, 0⟩,
    ⟨0x200001600010, [(6, 0x400)], 0, 0, 0x100000, 0, 0⟩,
    ⟨0x200001600014, [(6, 0x400)], 0, 0, 0, 0, 0⟩,
    ⟨0x200001600018, [(6, 0x400)], 0, 0, 0, 0, 0⟩,
    ⟨0x200001600020, [(6, 0x400)], 0, 0xffffffff, 0, 0, 0⟩,
    ⟨0x200001600024, [(6, 0x400)], 0, 0xffffffff, 0, 0, 0⟩,
    ⟨0x200001600028, [(6, 0x400)], 0x10, 0x1fff, 0, 0, 0⟩,
    ⟨0x20000160002c, [(6, 0x400)], 0, 0xfff0000, 0, 0, 0⟩,
    ⟨0x200001600030, [(6, 0x400)], 0, 0xffffffff, 0, 0, 0⟩,
    ⟨0x200001600034, [(6, 0x400)], 0, 0xffffffff, 0, 0, 0⟩,
    ⟨0x200001600038, [(6, 0x400)], 0x10, 0x1fff, 0, 0, 0⟩,
    ⟨0x20000160003c, [(6, 0x400)], 0, 0xfff0000, 0, 0, 0⟩,
    ⟨0x200001600040, [(6, 0x400)], 0, 0xffffffff, 0, 0, 0⟩,
    ⟨0x200001600044, [(6, 0x400)], 0, 0xffffffff, 0, 0, 0⟩,
    ⟨0x200001600048, [(6, 0x400)], 0x10, 0x1fff, 0, 0, 0⟩,
    ⟨0x20000160004c, [(6, 0x400)], 0, 0xfff0000, 0, 0, 0⟩,
    ⟨0x200001600050, [(6, 0x400)], 0, 0xffffffff, 0, 0, 0⟩,
    ⟨0x200001600054, [(6, 0x400)], 0, 0xffffffff, 0, 0, 0⟩,
    ⟨0x200001600058, [(6, 0x400)], 0x1f, 0x1f, 0, 0, 0⟩,
    ⟨0x200001600060, [(6, 0x400)], 0, 0, 0, 0, 0⟩,
    ⟨0x200001600064, [(6, 0x400)], 0, 0, 0, 0, 0⟩,
    ⟨0x200001600068, [(6, 0x400)], 0, 0, 0, 0, 0⟩,
    ⟨0x20000160006c, [(6, 0x400)], 0, 0, 0, 0, 0⟩,
    ⟨0x200001600080, [(6, 0x400), (16, 8)], 0, 0xbfffffff, 0, 0, 0⟩,
    ⟨0x200001600084, [(6, 0x400), (16, 8)], 0, 0x1fffffff, 0, 0, 0⟩ ]

/-- Registers of R375 (14_sensor_ingress.md). -/
def rowsR375 : List RegRow :=
  [ ⟨0x200001700000, [(4, 0x100)], 0x3e80000, 0x7fff0003, 0, 0, 0⟩,
    ⟨0x200001700004, [(4, 0x100)], 0, 0x13f3f, 0, 0, 0⟩,
    ⟨0x200001700008, [(4, 0x100)], 0, 0, 0xc, 0, 0⟩,
    ⟨0x20000170000c, [(4, 0x100)], 0, 0, 0, 0, 0x3ffff⟩,
    ⟨0x200001700010, [(4, 0x100), (8, 4)], 0, 0xffffffff, 0, 0, 0⟩,
    ⟨0x200001700030, [(4, 0x100), (8, 4)], 0, 0, 0, 0, 0⟩ ]

/-- Registers of R377 (14_sensor_ingress.md). -/
def rowsR377 : List RegRow :=
  [ ⟨0x200001700400, [(2, 0x100)], 0x1900, 0xff03, 0, 0, 0⟩,
    ⟨0x200001700404, [(2, 0x100)], 0, 0x13f3f7f, 0, 0, 0⟩,
    ⟨0x200001700408, [(2, 0x100)], 0, 0, 0x402, 0, 0⟩,
    ⟨0x200001700410, [(2, 0x100), (8, 4)], 0, 0xffffffff, 0, 0, 0⟩ ]

/-- Registers of R381 (14_sensor_ingress.md). -/
def rowsR381 : List RegRow :=
  [ ⟨0x200001800000, [], 0x74, 0x7f, 0, 0, 0⟩,
    ⟨0x200001800004, [], 0x2710, 0xffffff, 0, 0, 0⟩,
    ⟨0x200001800008, [], 0, 0, 0x100, 0, 0⟩,
    ⟨0x200001800010, [], 0, 0xffffffff, 0, 0, 0⟩,
    ⟨0x200001800014, [], 0, 0xffffffff, 0, 0, 0⟩,
    ⟨0x200001800018, [], 0, 0xffffffff, 0, 0, 0⟩,
    ⟨0x20000180001c, [], 0, 0xffffffff, 0, 0, 0⟩,
    ⟨0x200001800020, [], 0x14, 0x3f, 0, 0, 0⟩,
    ⟨0x200001800024, [], 0, 0xf, 0, 0, 0⟩,
    ⟨0x200001800030, [], 0, 0xfffffff, 0, 0, 0⟩,
    ⟨0x200001800034, [], 0, 0xffffffff, 0, 0, 0⟩,
    ⟨0x200001800038, [], 0, 0, 0, 0, 0⟩,
    ⟨0x200001800040, [(2, 0x20)], 0, 0xffffffff, 0, 0, 0⟩,
    ⟨0x200001800044, [(2, 0x20)], 0, 0xffffffff, 0, 0, 0⟩,
    ⟨0x200001800048, [(2, 0x20)], 0, 0xffffffff, 0, 0, 0⟩,
    ⟨0x20000180004c, [(2, 0x20)], 0, 0xffffffff, 0, 0, 0⟩,
    ⟨0x200001800050, [(2, 0x20)], 0xc, 0x8000003f, 0, 0, 0⟩,
    ⟨0x200001800080, [], 0, 0xffffffff, 0, 0, 0⟩,
    ⟨0x200001800084, [], 0, 0xffffffff, 0, 0, 0⟩,
    ⟨0x200001800088, [], 0, 0, 0, 0, 0⟩ ]

/-- Registers of R408 (15_fusion_tracking.md). -/
def rowsR408a : List RegRow :=
  [ ⟨0x200000a00000, [], 0, 3, 0, 0, 0⟩,
    ⟨0x200000a00004, [], 0x10000, 0xffffff, 0, 0, 0⟩,
    ⟨0x200000a00008, [], 0x20, 0, 0x40, 0, 0⟩,
    ⟨0x200000a0000c, [], 0x10000400, 0, 0, 0, 0x1fff07ff⟩,
    ⟨0x200000a00010, [], 0x2008, 0, 0, 0, 0x3fff⟩,
    ⟨0x200000a00014, [], 0, 0, 0, 0, 0x1ffff⟩,
    ⟨0x200000a00018, [], 0, 0x1ffff, 0, 0, 0⟩,
    ⟨0x200000a0001c, [], 0, 0xf, 0, 0, 0⟩,
    ⟨0x200000a00020, [], 0, 0xffffffff, 0, 0, 0⟩,
    ⟨0x200000a00024, [], 0, 0xffffffff, 0, 0, 0⟩,
    ⟨0x200000a00028, [], 0, 0xffffffff, 0, 0, 0⟩,
    ⟨0x200000a0002c, [], 0, 0xffffffff, 0, 0, 0⟩,
    ⟨0x200000a00030, [], 0, 0xffffffff, 0, 0, 0⟩,
    ⟨0x200000a00034, [], 0, 0xffffffff, 0, 0, 0⟩,
    ⟨0x200000a00038, [], 0, 0xffffffff, 0, 0, 0⟩,
    ⟨0x200000a0003c, [], 0, 0xffffffff, 0, 0, 0⟩,
    ⟨0x200000a00040, [], 0x9360a53, 0xffff3fff, 0, 0, 0⟩,
    ⟨0x200000a00044, [], 0x18800200, 0xffffffff, 0, 0, 0⟩,
    ⟨0x200000a00048, [], 0x1000200, 0xffffffff, 0, 0, 0⟩,
    ⟨0x200000a0004c, [], 0x80400c8, 0xfffffff, 0, 0, 0⟩,
    ⟨0x200000a00060, [], 0, 0, 0, 0, 0⟩,
    ⟨0x200000a00064, [], 0, 0, 0, 0, 0⟩,
    ⟨0x200000a00068, [], 0, 0, 0, 0, 0⟩,
    ⟨0x200000a0006c, [], 0, 0, 0, 0, 0⟩,
    ⟨0x200000a00070, [], 0, 0, 0, 0, 0⟩,
    ⟨0x200000a00074, [], 0, 0, 0, 0, 0⟩,
    ⟨0x200000a00078, [], 0, 0, 0, 0, 0⟩,
    ⟨0x200000a0007c, [], 0, 0, 0, 0, 0⟩,
    ⟨0x200000a00080, [], 0, 0, 0, 0, 0⟩,
    ⟨0x200000a00084, [], 0, 0, 0, 0, 0⟩,
    ⟨0x200000a00100, [], 0x1f0f1400, 0x1fffff3f, 0, 0, 0⟩,
    ⟨0x200000a00104, [], 0, 0x3fffffff, 0, 0, 0⟩,
    ⟨0x200000a00108, [], 0x3f000, 0x7fffff, 0, 0, 0⟩,
    ⟨0x200000a0010c, [], 0, 0xffffffff, 0, 0, 0⟩,
    ⟨0x200000a00110, [], 0, 0xffffffff, 0, 0, 0⟩,
    ⟨0x200000a00114, [], 2, 0, 0, 0, 0⟩,
    ⟨0x200000a00118, [], 0, 0, 0, 0, 0⟩,
    ⟨0x200000a0011c, [], 0, 0, 0, 0, 0⟩,
    ⟨0x200000a00200, [], 1, 1, 0, 0, 0⟩,
    ⟨0x200000a00204, [], 0, 0xffffff, 0, 0, 0⟩ ]

/-- Registers of R408 (15_fusion_tracking.md). -/
def rowsR408b : List RegRow :=
  [ ⟨0x200000a00208, [], 0x3e80032, 0xffffffff, 0, 0, 0⟩,
    ⟨0x200000a0020c, [], 0x140002, 0xffffffff, 0, 0, 0⟩,
    ⟨0x200000a00210, [], 0, 0, 0, 0, 0⟩,
    ⟨0x200000a00214, [], 0, 0, 0, 0, 0⟩ ]

def rowsR408 : List RegRow := rowsR408a ++ rowsR408b

/-- Registers of R409 (15_fusion_tracking.md). -/
def rowsR409 : List RegRow :=
  [ ⟨0x200000a00400, [(24, 0x40), (6, 4)], 0, 0xffffffff, 0, 0, 0⟩,
    ⟨0x200000a00418, [(24, 0x40)], 0, 3, 0, 0, 0⟩,
    ⟨0x200000a00420, [(24, 0x40), (6, 4)], 0, 0, 0, 0, 0⟩,
    ⟨0x200000a01000, [(32, 0x20)], 0x1f0, 0x1fff, 0, 0, 0⟩,
    ⟨0x200000a01004, [(32, 0x20)], 0, 0xffffffff, 0, 0, 0⟩,
    ⟨0x200000a01008, [(32, 0x20)], 0, 0xffffffff, 0, 0, 0⟩,
    ⟨0x200000a0100c, [(32, 0x20)], 0, 0, 0, 0, 0⟩ ]

/-- Registers of R429 (16_traverse.md). -/
def rowsR429 : List RegRow :=
  [ ⟨0x200000b00000, [], 0, 7, 0, 0, 0⟩,
    ⟨0x200000b00004, [], 0x10000, 0xffffff, 0, 0, 0⟩,
    ⟨0x200000b00008, [], 0, 0, 0x30, 0, 0⟩,
    ⟨0x200000b0000c, [], 0x10000, 0, 0, 0, 0x1ffff⟩,
    ⟨0x200000b00010, [], 0, 0, 0, 0, 0x1ffff⟩,
    ⟨0x200000b00014, [], 0, 0, 0, 0, 0x1ffff⟩,
    ⟨0x200000b00018, [], 0, 0xf, 0, 0, 0⟩,
    ⟨0x200000b00020, [], 0, 0xffffffff, 0, 0, 0⟩,
    ⟨0x200000b00024, [], 0, 0xffffffff, 0, 0, 0⟩,
    ⟨0x200000b00028, [], 0, 0xffffffff, 0, 0, 0⟩,
    ⟨0x200000b0002c, [], 0, 0xffffffff, 0, 0, 0⟩,
    ⟨0x200000b00030, [], 0, 0xffffffff, 0, 0, 0⟩,
    ⟨0x200000b00034, [], 0, 0xffffffff, 0, 0, 0⟩,
    ⟨0x200000b00038, [], 0, 0xffffffff, 0, 0, 0⟩,
    ⟨0x200000b0003c, [], 0, 0xffffffff, 0, 0, 0⟩,
    ⟨0x200000b00040, [], 0, 0, 0, 0, 0⟩,
    ⟨0x200000b00044, [], 0x1f4, 0x7ff, 0, 0, 0⟩,
    ⟨0x200000b00048, [(3, 4)], 0, 0xffffffff, 0, 0, 0⟩,
    ⟨0x200000b00054, [], 0, 0x83ff, 0, 0, 0⟩,
    ⟨0x200000b00058, [], 0x1900032, 0xffffffff, 0, 0, 0⟩,
    ⟨0x200000b0005c, [], 0x64, 0xffff, 0, 0, 0⟩,
    ⟨0x200000b00060, [(4, 4)], 0, 0xffffffff, 0, 0, 0⟩,
    ⟨0x200000b00070, [(4, 4)], 0, 0xffffffff, 0, 0, 0⟩,
    ⟨0x200000b00080, [], 0, 0, 0, 0, 0⟩,
    ⟨0x200000b00084, [], 0, 0, 0, 0, 0⟩,
    ⟨0x200000b00088, [], 0, 0, 0, 0, 0⟩,
    ⟨0x200000b0008c, [], 0, 0, 0, 0, 0⟩,
    ⟨0x200000b00090, [], 0, 0, 0, 0, 0⟩,
    ⟨0x200000b00094, [], 0, 0, 0, 0, 0⟩,
    ⟨0x200000b00098, [], 0, 0, 0, 0, 0⟩ ]

/-- Registers of R430 (16_traverse.md). -/
def rowsR430 : List RegRow :=
  [ ⟨0x200000b00100, [(8, 0x20)], 0x40010000, 0xffff0f1f, 0, 0, 0⟩,
    ⟨0x200000b00104, [(8, 0x20)], 0xff, 0xff, 0, 0, 0⟩,
    ⟨0x200000b00108, [(8, 0x20)], 0, 0xffffffff, 0, 0, 0⟩,
    ⟨0x200000b0010c, [(8, 0x20)], 0, 0xffffffff, 0, 0, 0⟩,
    ⟨0x200000b00110, [(8, 0x20)], 0, 0xffffffff, 0, 0, 0⟩,
    ⟨0x200000b00114, [(8, 0x20)], 0, 0xffffffff, 0, 0, 0⟩,
    ⟨0x200000b00118, [(8, 0x20)], 0, 0, 0, 0, 0⟩ ]

/-- Registers of R461 (17_anchor_dies.md). -/
def rowsR461 : List RegRow :=
  [ ⟨0x200000c00000, [], 0, 0x3f, 0, 0, 0⟩,
    ⟨0x200000c00004, [], 0, 0xffff, 0, 0, 0⟩,
    ⟨0x200000c00008, [], 0, 0, 0, 0, 0⟩,
    ⟨0x200000c0000c, [], 0, 0, 0, 0, 0⟩ ]

/-- Registers of R462 (17_anchor_dies.md). -/
def rowsR462 : List RegRow :=
  [ ⟨0x220000000000, [(2, 0x10000000)], 0x800, 0, 0, 0, 0x3fff⟩,
    ⟨0x220000000004, [(2, 0x10000000)], 0xa64096, 0, 0, 0, 0x3ffffff⟩,
    ⟨0x220000000008, [(2, 0x10000000)], 0x4b0, 0, 0, 0, 0x1fff⟩,
    ⟨0x22000000000c, [(2, 0x10000000)], 0, 0, 0, 0, 0x3fffffff⟩,
    ⟨0x220000000010, [(2, 0x10000000)], 0, 0, 0, 0, 0x3fffffff⟩,
    ⟨0x220000000014, [(2, 0x10000000)], 0x80ff080, 0, 0, 0, 0x1fffffff⟩,
    ⟨0x220000000018, [(2, 0x10000000)], 0, 0, 0, 0, 0x3ffffff⟩,
    ⟨0x22000000001c, [(2, 0x10000000)], 0, 0, 0, 0, 0xffff⟩,
    ⟨0x220000000020, [(2, 0x10000000)], 0, 0, 0, 0, 0x1ffff⟩,
    ⟨0x220000000040, [(2, 0x10000000), (8, 4)], 0, 0, 0, 0, 0xffffffff⟩,
    ⟨0x220000000060, [(2, 0x10000000), (4, 4)], 0, 0, 0, 0, 0xffffffff⟩,
    ⟨0x220000000100, [(2, 0x10000000)], 0, 0, 8, 0, 0⟩,
    ⟨0x220000000104, [(2, 0x10000000)], 0, 0, 0, 0, 0⟩,
    ⟨0x220000000108, [(2, 0x10000000)], 0, 0, 0, 0, 0⟩,
    ⟨0x22000000010c, [(2, 0x10000000)], 0, 0, 0, 0, 0⟩,
    ⟨0x220000000110, [(2, 0x10000000)], 0, 0, 0, 0, 0⟩,
    ⟨0x220000000114, [(2, 0x10000000)], 0, 0, 0, 0, 0⟩,
    ⟨0x220000000118, [(2, 0x10000000)], 0, 0, 0, 0, 0⟩,
    ⟨0x22000000011c, [(2, 0x10000000)], 0, 0, 0, 0, 0⟩,
    ⟨0x220000000120, [(2, 0x10000000)], 0, 0, 0, 0, 0⟩,
    ⟨0x220000000124, [(2, 0x10000000)], 0, 0, 0, 0, 0⟩,
    ⟨0x220000000128, [(2, 0x10000000)], 0, 0, 0, 0, 0⟩,
    ⟨0x22000000012c, [(2, 0x10000000)], 0, 0, 0, 0, 0⟩,
    ⟨0x220000000130, [(2, 0x10000000)], 0, 0, 0, 0xffffffff, 0⟩,
    ⟨0x220000000134, [(2, 0x10000000)], 0, 0, 0, 0, 0⟩,
    ⟨0x220000000138, [(2, 0x10000000)], 0, 0xfffff, 0, 0, 0⟩,
    ⟨0x220000000200, [(2, 0x10000000), (64, 0x10)], 0x1f, 0, 0, 0, 0x3f⟩,
    ⟨0x220000000204, [(2, 0x10000000), (64, 0x10)], 0, 0, 0, 0, 0x1ffff⟩,
    ⟨0x220000000208, [(2, 0x10000000), (64, 0x10)], 0, 0, 0, 0, 0⟩ ]

/-- Registers of R486 (18_faults_availability.md). -/
def rowsR486 : List RegRow :=
  [ ⟨0x200000d00000, [(16, 0x40)], 0, 0, 0, 0, 0⟩,
    ⟨0x200000d00004, [(16, 0x40)], 0, 0, 0x1000, 0, 0⟩,
    ⟨0x200000d00008, [(16, 0x40)], 0, 0, 0, 0, 0⟩,
    ⟨0x200000d0000c, [(16, 0x40)], 0, 0, 0, 0, 0⟩,
    ⟨0x200000d00010, [(16, 0x40)], 0, 0, 0, 0, 0⟩,
    ⟨0x200000d00014, [(16, 0x40)], 0, 0, 0, 0, 0⟩,
    ⟨0x200000d00018, [(16, 0x40)], 0, 0xff, 0, 0, 0⟩,
    ⟨0x200000d0001c, [(16, 0x40)], 0, 1, 0, 0, 0⟩,
    ⟨0x200000d00020, [(16, 0x40)], 0xffffffff, 0xffffffff, 0, 0, 0⟩,
    ⟨0x200000d00024, [(16, 0x40)], 0xffffffff, 0xffffffff, 0, 0, 0⟩ ]

/-- Registers of R487 (18_faults_availability.md). -/
def rowsR487 : List RegRow :=
  [ ⟨0x200000d00400, [(8, 0x20)], 0, 0, 0, 0, 0⟩,
    ⟨0x200000d00404, [(8, 0x20)], 0, 1, 0, 0, 0⟩,
    ⟨0x200000d00408, [(8, 0x20)], 0, 0, 0, 0, 0⟩,
    ⟨0x200000d0040c, [(8, 0x20)], 0, 0, 0, 0, 0xffffffff⟩,
    ⟨0x200000d00410, [(8, 0x20)], 0, 0, 0, 0, 0xffffffff⟩ ]

/-- Registers of R488 (18_faults_availability.md). -/
def rowsR488 : List RegRow :=
  [ ⟨0x200000d00800, [], 0, 1, 0, 0, 0⟩,
    ⟨0x200000d00804, [], 0x1f41003, 0xffffff03, 0, 0, 0⟩,
    ⟨0x200000d00808, [], 0, 0, 0, 0, 0⟩,
    ⟨0x200000d0080c, [], 0, 0, 0, 0, 0⟩,
    ⟨0x200000d00810, [], 0, 0, 0, 0, 0⟩,
    ⟨0x200000d00814, [], 0, 0, 0, 0, 0⟩ ]

/-- Registers of R507 (19_security.md). -/
def rowsR507 : List RegRow :=
  [ ⟨0x220000000800, [(2, 0x10000000)], 0, 0, 0, 0, 0⟩,
    ⟨0x220000000804, [(2, 0x10000000)], 0, 0, 0, 0, 0⟩,
    ⟨0x220000000808, [(2, 0x10000000)], 0, 0, 0, 0, 0⟩,
    ⟨0x22000000080c, [(2, 0x10000000)], 0, 0, 0, 0, 0⟩,
    ⟨0x220000000810, [(2, 0x10000000)], 0, 0, 0, 0, 0⟩,
    ⟨0x220000000814, [(2, 0x10000000)], 0, 0, 0, 0, 0⟩,
    ⟨0x220000000818, [(2, 0x10000000)], 0, 0, 0, 0, 0⟩,
    ⟨0x22000000081c, [(2, 0x10000000)], 0, 0, 0, 0, 0⟩,
    ⟨0x220000000820, [(2, 0x10000000)], 0, 0, 0, 0, 0⟩,
    ⟨0x220000000824, [(2, 0x10000000)], 0, 0, 0, 0, 0⟩ ]

/-- Registers of R508 (19_security.md). -/
def rowsR508 : List RegRow :=
  [ ⟨0x200000e00000, [], 0, 1, 0, 0, 0⟩,
    ⟨0x200000e00004, [], 0, 0, 4, 0, 0⟩,
    ⟨0x200000e00008, [], 0, 0xffffffff, 0, 0, 0⟩,
    ⟨0x200000e0000c, [], 0, 0xffffffff, 0, 0, 0⟩,
    ⟨0x200000e00010, [(8, 4)], 0, 0xffffffff, 0, 0, 0⟩,
    ⟨0x200000e00030, [], 0, 0, 0, 0, 0⟩ ]

/-- Registers of R527 (20_clocks_power.md). -/
def rowsR527 : List RegRow :=
  [ ⟨0x200000f00000, [], 0x10, 0, 0x20, 0, 0⟩,
    ⟨0x200000f00004, [], 0x1f, 0, 0, 0, 0x1f⟩,
    ⟨0x200000f00008, [], 0, 0, 0, 0, 0x1ff⟩,
    ⟨0x200000f0000c, [(3, 4)], 0x10c80990, 0, 0, 0, 0x1fff1fff⟩,
    ⟨0x200000f00018, [], 0, 0, 0, 0xfffff, 0⟩,
    ⟨0x200000f0001c, [], 0, 0, 0, 0xffffffff, 0⟩,
    ⟨0x200000f00020, [], 0x80, 0xff, 0x200, 0, 0⟩ ]

/-- Registers of R528 (20_clocks_power.md). -/
def rowsR528 : List RegRow :=
  [ ⟨0x210000900000, [(8, 0x1000000)], 0x1fc, 0, 0, 0, 0x1ff⟩,
    ⟨0x210000900010, [(8, 0x1000000), (4, 4)], 0x3c, 7, 0, 0, 0⟩ ]

/-- Registers of R529 (20_clocks_power.md). -/
def rowsR529 : List RegRow :=
  [ ⟨0x200001000000, [(9, 0x10)], 0, 0, 0, 0, 0⟩,
    ⟨0x200001000004, [(9, 0x10)], 0xfff, 0, 0, 0xfff, 0⟩,
    ⟨0x200001000008, [(9, 0x10)], 0, 0, 0, 0xffffffff, 0⟩,
    ⟨0x20000100000c, [(9, 0x10)], 0, 0, 0, 0xffffffff, 0⟩ ]

/-- Registers of R542 (21_cooling.md). -/
def rowsR542 : List RegRow :=
  [ ⟨0x200001100000, [], 3, 7, 0, 0, 0⟩,
    ⟨0x200001100004, [], 0x1a401a4, 0x3ff0000, 0, 0, 0⟩,
    ⟨0x200001100008, [], 0xa030d, 0xff0fff, 0, 0, 0⟩,
    ⟨0x20000110000c, [], 0xb401f4, 0xffffff, 0, 0, 0⟩,
    ⟨0x200001100010, [], 0, 0, 0xe, 0, 0⟩,
    ⟨0x200001100014, [], 0, 0, 0, 0, 0⟩,
    ⟨0x200001100018, [], 0x226, 0, 0, 0, 0⟩,
    ⟨0x20000110001c, [], 0, 0, 0, 0, 0⟩,
    ⟨0x200001100020, [], 0, 0, 0, 0, 0⟩,
    ⟨0x200001100024, [], 0, 0, 0, 0, 0⟩,
    ⟨0x200001100028, [], 0, 0, 0, 0, 0⟩,
    ⟨0x20000110002c, [], 0, 0, 0, 0xffffffff, 0⟩,
    ⟨0x200001100030, [], 0, 0, 0, 0xffffffff, 0⟩,
    ⟨0x200001100034, [], 0, 0, 0, 0, 0⟩,
    ⟨0x200001100038, [], 0x8000, 0, 0, 0xffff, 0⟩,
    ⟨0x200001100040, [(9, 4)], 0, 0, 0, 0, 0⟩ ]

/-- Registers of R550 (22_bounds.md). -/
def rowsR550 : List RegRow :=
  [ ⟨0x200001200000, [], 0x1f001e, 0x1f03ff, 0, 0, 0⟩,
    ⟨0x200001200004, [], 0, 0, 0, 0, 0⟩,
    ⟨0x200001200008, [], 0, 0, 0, 0, 0⟩,
    ⟨0x20000120000c, [], 0, 0, 0, 0, 0⟩,
    ⟨0x200001200010, [], 0, 0, 0, 0, 0⟩,
    ⟨0x200001200014, [], 0, 0, 0, 0, 0⟩,
    ⟨0x200001200018, [], 0, 0, 0, 0, 0⟩,
    ⟨0x200001200020, [], 0, 0, 0, 0, 0⟩,
    ⟨0x200001200024, [], 0, 0, 0, 0, 0⟩,
    ⟨0x200001200028, [], 0, 0, 0, 0, 0⟩,
    ⟨0x20000120002c, [], 0, 0, 0, 0, 0⟩,
    ⟨0x200001200030, [], 0, 0, 0, 0, 0⟩,
    ⟨0x200001200034, [], 0, 0, 0, 0, 0⟩,
    ⟨0x200001200038, [], 0, 0, 0, 0, 0⟩,
    ⟨0x20000120003c, [], 0, 0, 0, 0, 0⟩,
    ⟨0x200001200040, [], 0, 0, 0, 0, 0⟩,
    ⟨0x200001200044, [], 0, 0, 0, 0, 0⟩,
    ⟨0x200001200048, [], 0, 0, 0, 0, 0⟩,
    ⟨0x20000120004c, [], 0, 0, 0, 0, 0⟩,
    ⟨0x200001200050, [], 0, 0, 0, 0, 0⟩,
    ⟨0x200001200054, [], 0, 0, 0, 0, 0⟩,
    ⟨0x200001200058, [], 0, 0, 0, 0, 0⟩,
    ⟨0x20000120005c, [], 0, 0, 0, 0, 0⟩,
    ⟨0x200001200060, [], 0x198, 0, 0, 0, 0⟩,
    ⟨0x200001200080, [(8, 4)], 0, 0, 0, 0, 0⟩ ]

/-- Registers of R566 (23_balls_electrical.md). -/
def rowsR566 : List RegRow :=
  [ ⟨0x200001300000, [(6, 4)], 0x100, 0x3ff, 0, 0, 0⟩,
    ⟨0x200001300040, [], 0, 0xffffffff, 0, 0, 0⟩,
    ⟨0x200001300044, [], 0, 0xffffffff, 0, 0, 0⟩,
    ⟨0x200001300048, [], 0, 0, 0, 0, 0⟩ ]

/-- Registers of R567 (23_balls_electrical.md). -/
def rowsR567 : List RegRow :=
  [ ⟨0x220000000a00, [(2, 0x10000000)], 0x20, 0xf3, 0, 0, 0⟩ ]

/-- Registers of R579 (24_cairn.md). -/
def rowsR579 : List RegRow :=
  [ ⟨0x220000000b00, [(2, 0x10000000)], 0, 0, 0, 0, 0⟩,
    ⟨0x220000000b04, [(2, 0x10000000)], 0, 0, 0, 0, 0⟩,
    ⟨0x220000000b08, [(2, 0x10000000)], 0, 0, 0, 0, 0⟩ ]

/-- The register blocks: first and last address + 1 of the block over all its instances, and its rows. -/
def regBlocks : List (Nat × Nat × List RegRow) :=
  [ (0x200000100000, 0x200000100048, rowsR57),
    (0x200000200000, 0x200000200060, rowsR85),
    (0x210000010000, 0x210007010328, rowsR105),
    (0x200000300000, 0x200000301328, rowsR105),
    (0x210000020000, 0x210007020030, rowsR106),
    (0x210000400000, 0x21000741f1f8, rowsR135),
    (0x210000300000, 0x210007300010, rowsR136),
    (0x210000400118, 0x21000741f1fc, rowsR162),
    (0x210000500000, 0x210007500fe0, rowsR187),
    (0x210000501000, 0x210007501134, rowsR188),
    (0x200000700000, 0x200000700030, rowsR215),
    (0x210000600000, 0x210007600a00, rowsR243),
    (0x210000300040, 0x210007300080, rowsR266),
    (0x200000400000, 0x2000004003e0, rowsR267),
    (0x200001900000, 0x2000019003fc, rowsR581),
    (0x210000700000, 0x210007700fd0, rowsR295),
    (0x200000500000, 0x200000501fd0, rowsR295),
    (0x210000710000, 0x210007710080, rowsR296),
    (0x200000600000, 0x20000060046c, rowsR312),
    (0x200000600800, 0x200000600808, rowsR313),
    (0x210000800000, 0x2100078000fc, rowsR314),
    (0x200000601000, 0x2000006011fc, rowsR314),
    (0x200000800000, 0x20000080ba00, rowsR338),
    (0x20000080c000, 0x20000080c03c, rowsR339),
    (0x200000901000, 0x200000902800, rowsR363),
    (0x200000900000, 0x200000900380, rowsR364),
    (0x200001400000, 0x200001400a08, rowsR368),
    (0x200001500000, 0x200001503070, rowsR371),
    (0x200001600000, 0x200001601500, rowsR373),
    (0x200001700000, 0x200001700350, rowsR375),
    (0x200001700400, 0x200001700530, rowsR377),
    (0x200001800000, 0x20000180008c, rowsR381),
    (0x200000a00000, 0x200000a00218, rowsR408),
    (0x200000a00400, 0x200000a013f0, rowsR409),
    (0x200000b00000, 0x200000b0009c, rowsR429),
    (0x200000b00100, 0x200000b001fc, rowsR430),
    (0x200000c00000, 0x200000c00010, rowsR461),
    (0x220000000000, 0x2200100005fc, rowsR462),
    (0x200000d00000, 0x200000d003e8, rowsR486),
    (0x200000d00400, 0x200000d004f4, rowsR487),
    (0x200000d00800, 0x200000d00818, rowsR488),
    (0x220000000800, 0x220010000828, rowsR507),
    (0x200000e00000, 0x200000e00034, rowsR508),
    (0x200000f00000, 0x200000f00024, rowsR527),
    (0x210000900000, 0x210007900020, rowsR528),
    (0x200001000000, 0x200001000090, rowsR529),
    (0x200001100000, 0x200001100064, rowsR542),
    (0x200001200000, 0x2000012000a0, rowsR550),
    (0x200001300000, 0x20000130004c, rowsR566),
    (0x220000000a00, 0x220010000a04, rowsR567),
    (0x220000000b00, 0x220010000b0c, rowsR579) ]

/-- Does offset `o` from a row's first address fall on one of its instances? -/
def hitsDims : List (Nat × Nat) → Nat → Bool
  | [], o => o == 0
  | (c, st) :: ds, o => o / st < c && hitsDims ds (o % st)

/-- The row a register address belongs to, or none where the map lists no register. -/
def regRow (a : Nat) : Option RegRow :=
  regBlocks.findSome? (fun b =>
    if b.1 ≤ a ∧ a < b.2.1 then
      b.2.2.find? (fun r => r.base ≤ a && hitsDims r.dims (a - r.base))
    else none)

/-- The registers of one row type whose instances have different reset words: CLK_BUS1 and CLK_BUS2 (R527). -/
def resetExcept : List (Nat × Nat) := [(0x200000F00010, 0x10AF095E), (0x200000F00014, 0x1096092C)]

/-- Reset value of a register (R15); an address that no table lists reads as zero (R14). -/
def regReset (a : Nat) : BitVec 32 :=
  match resetExcept.find? (fun e => e.1 == a) with
  | some e => BitVec.ofNat 32 e.2
  | none => match regRow a with
    | some r => BitVec.ofNat 32 r.reset
    | none => 0

end Sys2Proof.Machine
end

