-- ==== Sys2Proof/Machine/State.lean ====
section
/-! DEFINITION. The state of the XK50 as plain data (spec/ R6 to R584): control registers, memories, and what each unit
holds beside its registers. A table is a list of (key, value) pairs, keys strictly rising, no entry equal to the default. -/
namespace Sys2Proof.Machine

/-- MODEL CHOICE (notes/assumptions): a byte of memory that nothing has written reads as zero. -/
def memDefault (_ : Nat) : Byte := 0
def hiNone (_ : Nat) : Option Word := none
def zeroNat (_ : Nat) : Nat := 0
def portDefault (_ : Nat) : Port := {}
def threadDefault (_ : Nat) : Thread := {}
def coreDefault (_ : Nat) : Core := {}
def engineDefault (_ : Nat) : Engine := {}
def noWatch (_ : Nat) : List Watch := []
def noHeld (_ : Nat) : List (ReqOp × Req) := []
def kvDefault (_ : Nat) : KvCache := {}
def partDefault (_ : Nat) : PartAux := {}
def dmaDefault (_ : Nat) : DmaCh := {}
def regPortDefault (_ : Nat) : RegPort := {}
def subChDefault (_ : Nat) : SubCh := {}
def noTrack (_ : Nat) : List TrackEnt := []
def noTx (_ : Nat) : Option (Nat × Nat) := none
def noTxq (_ : Nat) : Option Nat := none
def ancDefault (_ : Nat) : Anc := {}
def noNats (_ : Nat) : List Nat := []
def ctxDefault (_ : Nat) : Ctx := {}
def fconDefault (_ : Nat) : FCon := {}
def noShadow (_ : Nat) : Option Word := none
def tlayerDefault (_ : Nat) : TLayer := {}
def hiNoneN (_ : Nat) : Option Nat := none
def railDefault (_ : Nat) : Rail := {}
def noTrn (_ : Nat) : List Byte := []
def zeroInt (_ : Nat) : Int := 0
def slotDefault (_ : Nat) : SlotSt := {}
def storeDefault (_ : Nat) : Store := {}
def idDefault (_ : Nat) : AncId := {}

/-- The whole machine. -/
structure State where
  /-- commands waiting, first in, first out -/
  pending : List Instr
  /-- every control register by its global address; an address not listed reads as its reset value (R8 to R15) -/
  regs : List (Nat × Word)
  /-- DRAM and every scratchpad by global address (R25, R26): `Host.Cell` pairs -/
  mem : List (Nat × Byte)
  /-- SRAM of the anchor dies: key = anchor × 2^32 + local address (R431) -/
  sram : List (Nat × Byte)
  /-- device time in ns (R6, R35) -/
  time : Nat
  /-- fraction of a nanosecond, in units of 2^-40, that the rate trim has accumulated (R35) -/
  timeFrac : Nat
  /-- MODEL FIELD: counter that supplies fresh free values -/
  freeCtr : Nat
  /-- captured _HI half of a pair, by master code × 2^48 + address of the _LO register (R13) -/
  hiLatch : List (Nat × (Option Word))
  /-- device time has been set since the I/O domain left reset (R36) -/
  timeSet : Bool
  /-- N0 of R37 -/
  n0 : Nat
  /-- a tick has been raised since RUN rose -/
  ticked : Bool
  /-- device time of the last peer tick applied (R45) -/
  peerTickAt : Nat
  /-- pitch whose guard has begun (R47) -/
  guardPitch : Option Nat
  /-- pitch in force on each compute die (R43) -/
  diePitch : List (Nat × Nat)
  /-- responses on their way to their sources -/
  resps : List Resp
  /-- transactions in flight of all cores (R115) -/
  txns : List Txn
  /-- next transaction tag -/
  nextTag : Nat
  /-- timed-out tags whose late response is awaited (R101) -/
  lateTags : List (Master × Nat)
  /-- link state of rope port p of node n, key n × 32 + p -/
  ports : List (Nat × Port)
  /-- hardware thread t of global core g, key g × 64 + t (R109) -/
  threads : List (Nat × Thread)
  /-- core state by global number -/
  cores : List (Nat × Core)
  /-- engine e of core g, key g × 8 + e (R125) -/
  engines : List (Nat × Engine)
  /-- accesses held at operand buffers, in arrival order (R128) -/
  held : List (ReqOp × Req)
  /-- watch entries of bank b of die d, key d × 64 + b (R121) -/
  watches : List (Nat × (List Watch))
  /-- watched values on their way to cores (R121) -/
  watchMsgs : List WatchMsg
  /-- requests held by a WAKING bank, key d × 64 + b (R177) -/
  bankHeld : List (Nat × (List (ReqOp × Req)))
  /-- state a PD_WAIT or WAKING bank goes to, key d × 64 + b; 3: to ON from OFF, 2: to ON from RETAINED -/
  bankTarget : List (Nat × Nat)
  /-- bad symbols of a 32-byte scratchpad word, key word address / 32 (R165) -/
  ecc : List (Nat × Nat)
  /-- code state of a 64-byte DRAM line, key address / 64: 0 good, 1 + device corrected, 16 uncorrectable (R318) -/
  lineEcc : List (Nat × Nat)
  /-- scratchpad words awaiting their corrected write-back, by word address (R167) -/
  wbPending : List Nat
  /-- scrubber position of each compute die (R169) -/
  scrubPos : List (Nat × Nat)
  /-- refused accesses counted by the I/O die (R28) -/
  refusals : Nat
  /-- address and master of the first refusal since the count was read (R28) -/
  firstRefusal : Option (Nat × Master)
  /-- queued box stage requests in arrival order (R213) -/
  boxQueue : List BoxReq
  /-- the running box stage request -/
  boxRun : Option BoxRun
  /-- key-value caches by number -/
  kvs : List (Nat × KvCache)
  /-- partitions, beside their registers -/
  parts : List (Nat × PartAux)
  /-- DMA channel ch of node n, key n × 32 + ch -/
  dmas : List (Nat × DmaCh)
  /-- regulated requests outstanding (R298) -/
  regReqs : List RegReq
  /-- requests and marks of each master port in this pitch (R305) -/
  regPorts : List (Nat × RegPort)
  /-- DDR5 subchannel u = 2 × channel + subchannel (R322) -/
  subchs : List (Nat × SubCh)
  /-- row tracker of bank b of subchannel u, key u × 32 + b (R328) -/
  trackers : List (Nat × (List TrackEnt))
  /-- throttled ports (R329) -/
  throttles : List Throttle
  /-- the 256-entry DRAM error ring (R334) -/
  errRing : List DramErr
  /-- entries lost to overflow of the ring (R334) -/
  errRingOvf : Nat
  /-- next line of each channel for the patrol scrubber (R321) -/
  patrolLine : List (Nat × Nat)
  /-- page and device time of each corrected line of the last 24 h (R335) -/
  retTimes : List (Nat × Nat)
  /-- pages that the firmware has retired since reset (R335) -/
  retired : List Nat
  /-- arrival number of the next DRAM request (R324) -/
  dramSeq : Nat
  /-- training record in use of point p of channel c, key p × 12 + c (R333) -/
  trn : List (Nat × (List Byte))
  /-- change of the write delays of channel c since training, from the DQS oscillator (R333) -/
  dqsAdj : List (Nat × Int)
  /-- the policy of the DRAM point (R332) -/
  dpol : DramPol
  /-- device time of the last access to the open row, key u × 32 + bank (R323) -/
  idleAt : List (Nat × Nat)
  /-- what is fitted: DRAM capacity and ordering code; no command changes it (R1, R315) -/
  fitted : Fitted
  /-- thread-fault messages (core, code) on their way to the I/O die (R129) -/
  faultMsgs : List (Nat × Nat)
  /-- MODEL FIELD: what the package has sent on its pins, oldest first -/
  out : List Out
  /-- MODEL FIELD: master, address and value of the last register read -/
  lastRead : Option (Master × Nat × Nat)
  /-- messages the anchor forwarder has received and not yet delivered (R433) -/
  fwd : List FwdMsg
  /-- frame in transmission of MAC m: ring and start time (R370) -/
  ethTx : List (Nat × (Option (Nat × Nat)))
  /-- device time at which the present head reached the head of TXQq of MAC m, key m × 2 + q (R370) -/
  ethHeadAt : List (Nat × Nat)
  /-- ring whose head CAN controller k offers for arbitration (R372) -/
  canTx : List (Nat × (Option Nat))
  /-- outbound PCIe reads without a completion (R378) -/
  pcieOut : List (ReqOp × Req)
  /-- who waits for a configuration read (R380) -/
  pcieCfgRd : Option Master
  /-- words of the MSI-X table and pending-bit array by offset / 4 (R379) -/
  msix : List (Nat × Nat)
  /-- anchor A (0) and anchor B (1) -/
  ancs : List (Nat × Anc)
  /-- the AMB_TRAJ area of the forwarder by offset (R449, R461) -/
  trajArea : List (Nat × Byte)
  /-- claimed lidar datagrams: context, arrival time, payload (R342) -/
  lidarIn : List (Nat × Nat × List Byte)
  /-- wheel frames on their way to the ego block: arrival time and data (R386) -/
  wheelIn : List (Nat × List Byte)
  /-- step-tick transfer of SPI controller k in progress: 1 + step index (R348) -/
  spiStepBusy : List (Nat × Nat)
  /-- inertial records on their way to the fusion unit: controller, step tick time, pitch, step, bytes (R348) -/
  spiRec : List (Nat × Nat × Nat × Nat × List Byte)
  /-- TX_LEN, RX_LEN and TX bytes of the step transfer of SPI controller k, held inside it (R360, R374) -/
  spiStepCfg : List (Nat × (List Nat))
  /-- stream contexts (R340) -/
  ctxs : List (Nat × Ctx)
  /-- frame-sync output o: 1 omit the pulse of the next pitch, 2 omit that of this pitch (R358) -/
  fsyOmit : List (Nat × Nat)
  /-- 1 + pitch of the last pulse, or omission, of output o (R343) -/
  fsyPulsed : List (Nat × Nat)
  /-- supervision entries of the image in force, as the loader holds them (R49, R457, R458) -/
  supTasks : List TaskEnt
  /-- the fusion unit and the ego block beside their registers (R382 to R407) -/
  fus : Fus
  /-- contributors of the fusion unit (R393) -/
  fcons : List (Nat × FCon)
  /-- values written to RW fields of the fusion and traverse units and not yet in force, by register address (R383, R412) -/
  shadow : List (Nat × (Option Word))
  /-- the traverse unit beside its registers (R412 to R428) -/
  trv : Trv
  /-- layer store of the traverse unit (R419) -/
  tlayers : List (Nat × TLayer)
  /-- job faults on their way to the fault controller: partition, code, dies (R464) -/
  jobFaults : List (Nat × Nat × List Nat)
  /-- pitch of the last overrun or time-out of INGRESS (0), FUSION (1), TRAVERSE (2) (R469) -/
  unitLast : List (Nat × (Option Nat))
  /-- units cleared by R469: unit, its contexts, device time at which its drain ended -/
  unitRst : List (Nat × List Nat × Option Nat)
  /-- frames on the cross link, by receiving anchor (R434) -/
  xlink : List (Nat × XMsg)
  /-- the monitor trace (R577) -/
  trace : Trace
  /-- core entries of the bundles that the partitions run, as the loader read them (R64, R65) -/
  progs : List CoreProg
  /-- supply rails: 0 to 8 of R521, 9 VDD_ANA, 10 VDD_ANB -/
  rails : List (Nat × Rail)
  /-- the thermal policy beside its registers (R533 to R541) -/
  thm : Thm
  /-- the bound window in progress (R544) -/
  bnd : Bnd
  /-- dies stopped by a temperature trip (R541) -/
  thmTrip : List Nat
  /-- boot flash of the anchor dies: key = anchor × 2^32 + offset (R493) -/
  flash : List (Nat × Byte)
  /-- state of slot n of anchor die x, key 2 × x + n (R71) -/
  slots : List (Nat × SlotSt)
  /-- replay-protected store of each anchor die (R499) -/
  stores : List (Nat × Store)
  /-- boot and identity of each anchor die (R495 to R503) -/
  ids : List (Nat × AncId)
  /-- reset and release of the I/O domain (R496, R524) -/
  boot : Boot
  /-- the loader beside its registers (R63 to R85) -/
  load : Load
  /-- the fault controller beside its registers (R464 to R484) -/
  flt : Flt
  /-- the cairn monitor beside its registers (R569 to R578) -/
  mon : Mon
  deriving DecidableEq, Repr

/-- Why the machine stops with a fault. -/
inductive Fault where
  /-- no command raises it: the spec gives every command an effect or an error response (safe) -/
  | unreachable
  deriving DecidableEq, Repr

/-- Why a command is refused. -/
inductive Refusal where
  /-- raised by `exec` for a command that has no meaning yet (safe) -/
  | notModelled (mnemonic : String)
  deriving DecidableEq, Repr


/-- The machine right after reset: every register at its reset value (an empty table), every memory unwritten, no work anywhere. -/
def State.reset : State where
  pending := []
  regs := []
  mem := []
  sram := []
  time := 0
  timeFrac := 0
  freeCtr := 0
  hiLatch := []
  timeSet := false
  n0 := 0
  ticked := false
  peerTickAt := 0
  guardPitch := none
  diePitch := []
  resps := []
  txns := []
  nextTag := 0
  lateTags := []
  ports := []
  threads := []
  cores := []
  engines := []
  held := []
  watches := []
  watchMsgs := []
  bankHeld := []
  bankTarget := []
  ecc := []
  lineEcc := []
  wbPending := []
  scrubPos := []
  refusals := 0
  firstRefusal := none
  boxQueue := []
  boxRun := none
  kvs := []
  parts := []
  dmas := []
  regReqs := []
  regPorts := []
  subchs := []
  trackers := []
  throttles := []
  errRing := []
  errRingOvf := 0
  patrolLine := []
  retTimes := []
  retired := []
  dramSeq := 0
  trn := []
  dqsAdj := []
  dpol := {}
  idleAt := []
  fitted := {}
  faultMsgs := []
  out := []
  lastRead := none
  fwd := []
  ethTx := []
  ethHeadAt := []
  canTx := []
  pcieOut := []
  pcieCfgRd := none
  msix := []
  ancs := []
  trajArea := []
  lidarIn := []
  wheelIn := []
  spiStepBusy := []
  spiRec := []
  spiStepCfg := []
  ctxs := []
  fsyOmit := []
  fsyPulsed := []
  supTasks := []
  fus := {}
  fcons := []
  shadow := []
  trv := {}
  tlayers := []
  jobFaults := []
  unitLast := []
  unitRst := []
  xlink := []
  trace := {}
  progs := []
  rails := []
  thm := {}
  bnd := {}
  thmTrip := []
  flash := []
  slots := []
  stores := []
  ids := []
  boot := {}
  load := {}
  flt := {}
  mon := {}

end Sys2Proof.Machine
end

