-- ==== Sys2Proof/Machine/Effects.lean ====
section
/-! DEFINITION. Updates: the only ways a command changes the state. A meaning computes a list of updates; `applyAll`
performs them in order. One update sets one field of the state, or one entry of one table. -/
namespace Sys2Proof.Machine

/-- One change of the state. A table's update names the key; `memDrop` makes a range of memory unwritten again. -/
inductive Upd where
  | regs (k : Nat) (v : Word)
  | mem (k : Nat) (v : Byte)
  | sram (k : Nat) (v : Byte)
  | time (v : Nat)
  | timeFrac (v : Nat)
  | freeCtr (v : Nat)
  | hiLatch (k : Nat) (v : Option Word)
  | timeSet (v : Bool)
  | n0 (v : Nat)
  | ticked (v : Bool)
  | peerTickAt (v : Nat)
  | guardPitch (v : Option Nat)
  | diePitch (k : Nat) (v : Nat)
  | resps (v : List Resp)
  | txns (v : List Txn)
  | nextTag (v : Nat)
  | lateTags (v : List (Master × Nat))
  | ports (k : Nat) (v : Port)
  | threads (k : Nat) (v : Thread)
  | cores (k : Nat) (v : Core)
  | engines (k : Nat) (v : Engine)
  | held (v : List (ReqOp × Req))
  | watches (k : Nat) (v : List Watch)
  | watchMsgs (v : List WatchMsg)
  | bankHeld (k : Nat) (v : List (ReqOp × Req))
  | bankTarget (k : Nat) (v : Nat)
  | ecc (k : Nat) (v : Nat)
  | lineEcc (k : Nat) (v : Nat)
  | wbPending (v : List Nat)
  | scrubPos (k : Nat) (v : Nat)
  | refusals (v : Nat)
  | firstRefusal (v : Option (Nat × Master))
  | boxQueue (v : List BoxReq)
  | boxRun (v : Option BoxRun)
  | kvs (k : Nat) (v : KvCache)
  | parts (k : Nat) (v : PartAux)
  | dmas (k : Nat) (v : DmaCh)
  | regReqs (v : List RegReq)
  | regPorts (k : Nat) (v : RegPort)
  | subchs (k : Nat) (v : SubCh)
  | trackers (k : Nat) (v : List TrackEnt)
  | throttles (v : List Throttle)
  | errRing (v : List DramErr)
  | errRingOvf (v : Nat)
  | patrolLine (k : Nat) (v : Nat)
  | retTimes (v : List (Nat × Nat))
  | retired (v : List Nat)
  | dramSeq (v : Nat)
  | trn (k : Nat) (v : List Byte)
  | dqsAdj (k : Nat) (v : Int)
  | dpol (v : DramPol)
  | idleAt (k : Nat) (v : Nat)
  | fitted (v : Fitted)
  | faultMsgs (v : List (Nat × Nat))
  | out (v : List Out)
  | lastRead (v : Option (Master × Nat × Nat))
  | fwd (v : List FwdMsg)
  | ethTx (k : Nat) (v : Option (Nat × Nat))
  | ethHeadAt (k : Nat) (v : Nat)
  | canTx (k : Nat) (v : Option Nat)
  | pcieOut (v : List (ReqOp × Req))
  | pcieCfgRd (v : Option Master)
  | msix (k : Nat) (v : Nat)
  | ancs (k : Nat) (v : Anc)
  | trajArea (k : Nat) (v : Byte)
  | lidarIn (v : List (Nat × Nat × List Byte))
  | wheelIn (v : List (Nat × List Byte))
  | spiStepBusy (k : Nat) (v : Nat)
  | spiRec (v : List (Nat × Nat × Nat × Nat × List Byte))
  | spiStepCfg (k : Nat) (v : List Nat)
  | ctxs (k : Nat) (v : Ctx)
  | fsyOmit (k : Nat) (v : Nat)
  | fsyPulsed (k : Nat) (v : Nat)
  | supTasks (v : List TaskEnt)
  | fus (v : Fus)
  | fcons (k : Nat) (v : FCon)
  | shadow (k : Nat) (v : Option Word)
  | trv (v : Trv)
  | tlayers (k : Nat) (v : TLayer)
  | jobFaults (v : List (Nat × Nat × List Nat))
  | unitLast (k : Nat) (v : Option Nat)
  | unitRst (v : List (Nat × List Nat × Option Nat))
  | xlink (v : List (Nat × XMsg))
  | trace (v : Trace)
  | progs (v : List CoreProg)
  | rails (k : Nat) (v : Rail)
  | thm (v : Thm)
  | bnd (v : Bnd)
  | thmTrip (v : List Nat)
  | flash (k : Nat) (v : Byte)
  | slots (k : Nat) (v : SlotSt)
  | stores (k : Nat) (v : Store)
  | ids (k : Nat) (v : AncId)
  | boot (v : Boot)
  | load (v : Load)
  | flt (v : Flt)
  | mon (v : Mon)
  | memDrop (lo n : Nat)
  | sramDrop (lo n : Nat)
  deriving DecidableEq, Repr

/-- Perform one update. -/
def applyUpd (u : Upd) (s : State) : State :=
  match u with
  | .regs k v => { s with regs := tabSet regReset s.regs k v }
  | .mem k v => { s with mem := tabSet memDefault s.mem k v }
  | .sram k v => { s with sram := tabSet memDefault s.sram k v }
  | .time v => { s with time := v }
  | .timeFrac v => { s with timeFrac := v }
  | .freeCtr v => { s with freeCtr := v }
  | .hiLatch k v => { s with hiLatch := tabSet hiNone s.hiLatch k v }
  | .timeSet v => { s with timeSet := v }
  | .n0 v => { s with n0 := v }
  | .ticked v => { s with ticked := v }
  | .peerTickAt v => { s with peerTickAt := v }
  | .guardPitch v => { s with guardPitch := v }
  | .diePitch k v => { s with diePitch := tabSet zeroNat s.diePitch k v }
  | .resps v => { s with resps := v }
  | .txns v => { s with txns := v }
  | .nextTag v => { s with nextTag := v }
  | .lateTags v => { s with lateTags := v }
  | .ports k v => { s with ports := tabSet portDefault s.ports k v }
  | .threads k v => { s with threads := tabSet threadDefault s.threads k v }
  | .cores k v => { s with cores := tabSet coreDefault s.cores k v }
  | .engines k v => { s with engines := tabSet engineDefault s.engines k v }
  | .held v => { s with held := v }
  | .watches k v => { s with watches := tabSet noWatch s.watches k v }
  | .watchMsgs v => { s with watchMsgs := v }
  | .bankHeld k v => { s with bankHeld := tabSet noHeld s.bankHeld k v }
  | .bankTarget k v => { s with bankTarget := tabSet zeroNat s.bankTarget k v }
  | .ecc k v => { s with ecc := tabSet zeroNat s.ecc k v }
  | .lineEcc k v => { s with lineEcc := tabSet zeroNat s.lineEcc k v }
  | .wbPending v => { s with wbPending := v }
  | .scrubPos k v => { s with scrubPos := tabSet zeroNat s.scrubPos k v }
  | .refusals v => { s with refusals := v }
  | .firstRefusal v => { s with firstRefusal := v }
  | .boxQueue v => { s with boxQueue := v }
  | .boxRun v => { s with boxRun := v }
  | .kvs k v => { s with kvs := tabSet kvDefault s.kvs k v }
  | .parts k v => { s with parts := tabSet partDefault s.parts k v }
  | .dmas k v => { s with dmas := tabSet dmaDefault s.dmas k v }
  | .regReqs v => { s with regReqs := v }
  | .regPorts k v => { s with regPorts := tabSet regPortDefault s.regPorts k v }
  | .subchs k v => { s with subchs := tabSet subChDefault s.subchs k v }
  | .trackers k v => { s with trackers := tabSet noTrack s.trackers k v }
  | .throttles v => { s with throttles := v }
  | .errRing v => { s with errRing := v }
  | .errRingOvf v => { s with errRingOvf := v }
  | .patrolLine k v => { s with patrolLine := tabSet zeroNat s.patrolLine k v }
  | .retTimes v => { s with retTimes := v }
  | .retired v => { s with retired := v }
  | .dramSeq v => { s with dramSeq := v }
  | .trn k v => { s with trn := tabSet noTrn s.trn k v }
  | .dqsAdj k v => { s with dqsAdj := tabSet zeroInt s.dqsAdj k v }
  | .dpol v => { s with dpol := v }
  | .idleAt k v => { s with idleAt := tabSet zeroNat s.idleAt k v }
  | .fitted v => { s with fitted := v }
  | .faultMsgs v => { s with faultMsgs := v }
  | .out v => { s with out := v }
  | .lastRead v => { s with lastRead := v }
  | .fwd v => { s with fwd := v }
  | .ethTx k v => { s with ethTx := tabSet noTx s.ethTx k v }
  | .ethHeadAt k v => { s with ethHeadAt := tabSet zeroNat s.ethHeadAt k v }
  | .canTx k v => { s with canTx := tabSet noTxq s.canTx k v }
  | .pcieOut v => { s with pcieOut := v }
  | .pcieCfgRd v => { s with pcieCfgRd := v }
  | .msix k v => { s with msix := tabSet zeroNat s.msix k v }
  | .ancs k v => { s with ancs := tabSet ancDefault s.ancs k v }
  | .trajArea k v => { s with trajArea := tabSet memDefault s.trajArea k v }
  | .lidarIn v => { s with lidarIn := v }
  | .wheelIn v => { s with wheelIn := v }
  | .spiStepBusy k v => { s with spiStepBusy := tabSet zeroNat s.spiStepBusy k v }
  | .spiRec v => { s with spiRec := v }
  | .spiStepCfg k v => { s with spiStepCfg := tabSet noNats s.spiStepCfg k v }
  | .ctxs k v => { s with ctxs := tabSet ctxDefault s.ctxs k v }
  | .fsyOmit k v => { s with fsyOmit := tabSet zeroNat s.fsyOmit k v }
  | .fsyPulsed k v => { s with fsyPulsed := tabSet zeroNat s.fsyPulsed k v }
  | .supTasks v => { s with supTasks := v }
  | .fus v => { s with fus := v }
  | .fcons k v => { s with fcons := tabSet fconDefault s.fcons k v }
  | .shadow k v => { s with shadow := tabSet noShadow s.shadow k v }
  | .trv v => { s with trv := v }
  | .tlayers k v => { s with tlayers := tabSet tlayerDefault s.tlayers k v }
  | .jobFaults v => { s with jobFaults := v }
  | .unitLast k v => { s with unitLast := tabSet hiNoneN s.unitLast k v }
  | .unitRst v => { s with unitRst := v }
  | .xlink v => { s with xlink := v }
  | .trace v => { s with trace := v }
  | .progs v => { s with progs := v }
  | .rails k v => { s with rails := tabSet railDefault s.rails k v }
  | .thm v => { s with thm := v }
  | .bnd v => { s with bnd := v }
  | .thmTrip v => { s with thmTrip := v }
  | .flash k v => { s with flash := tabSet memDefault s.flash k v }
  | .slots k v => { s with slots := tabSet slotDefault s.slots k v }
  | .stores k v => { s with stores := tabSet storeDefault s.stores k v }
  | .ids k v => { s with ids := tabSet idDefault s.ids k v }
  | .boot v => { s with boot := v }
  | .load v => { s with load := v }
  | .flt v => { s with flt := v }
  | .mon v => { s with mon := v }
  | .memDrop lo n => { s with mem := tabDrop s.mem lo n }
  | .sramDrop lo n => { s with sram := tabDrop s.sram lo n }

/-- Perform a list of updates in order. -/
def applyAll : List Upd → State → State
  | [], s => s
  | u :: us, s => applyAll us (applyUpd u s)

/-- Entry `k` of `hiLatch`. -/
def get_hiLatch (s : State) (k : Nat) : Option Word := tabGet hiNone s.hiLatch k
/-- Entry `k` of `diePitch`. -/
def get_diePitch (s : State) (k : Nat) : Nat := tabGet zeroNat s.diePitch k
/-- Entry `k` of `ports`. -/
def get_ports (s : State) (k : Nat) : Port := tabGet portDefault s.ports k
/-- Entry `k` of `threads`. -/
def get_threads (s : State) (k : Nat) : Thread := tabGet threadDefault s.threads k
/-- Entry `k` of `cores`. -/
def get_cores (s : State) (k : Nat) : Core := tabGet coreDefault s.cores k
/-- Entry `k` of `engines`. -/
def get_engines (s : State) (k : Nat) : Engine := tabGet engineDefault s.engines k
/-- Entry `k` of `watches`. -/
def get_watches (s : State) (k : Nat) : List Watch := tabGet noWatch s.watches k
/-- Entry `k` of `bankHeld`. -/
def get_bankHeld (s : State) (k : Nat) : List (ReqOp × Req) := tabGet noHeld s.bankHeld k
/-- Entry `k` of `bankTarget`. -/
def get_bankTarget (s : State) (k : Nat) : Nat := tabGet zeroNat s.bankTarget k
/-- Entry `k` of `ecc`. -/
def get_ecc (s : State) (k : Nat) : Nat := tabGet zeroNat s.ecc k
/-- Entry `k` of `lineEcc`. -/
def get_lineEcc (s : State) (k : Nat) : Nat := tabGet zeroNat s.lineEcc k
/-- Entry `k` of `scrubPos`. -/
def get_scrubPos (s : State) (k : Nat) : Nat := tabGet zeroNat s.scrubPos k
/-- Entry `k` of `kvs`. -/
def get_kvs (s : State) (k : Nat) : KvCache := tabGet kvDefault s.kvs k
/-- Entry `k` of `parts`. -/
def get_parts (s : State) (k : Nat) : PartAux := tabGet partDefault s.parts k
/-- Entry `k` of `dmas`. -/
def get_dmas (s : State) (k : Nat) : DmaCh := tabGet dmaDefault s.dmas k
/-- Entry `k` of `regPorts`. -/
def get_regPorts (s : State) (k : Nat) : RegPort := tabGet regPortDefault s.regPorts k
/-- Entry `k` of `subchs`. -/
def get_subchs (s : State) (k : Nat) : SubCh := tabGet subChDefault s.subchs k
/-- Entry `k` of `trackers`. -/
def get_trackers (s : State) (k : Nat) : List TrackEnt := tabGet noTrack s.trackers k
/-- Entry `k` of `patrolLine`. -/
def get_patrolLine (s : State) (k : Nat) : Nat := tabGet zeroNat s.patrolLine k
/-- Entry `k` of `trn`. -/
def get_trn (s : State) (k : Nat) : List Byte := tabGet noTrn s.trn k
/-- Entry `k` of `dqsAdj`. -/
def get_dqsAdj (s : State) (k : Nat) : Int := tabGet zeroInt s.dqsAdj k
/-- Entry `k` of `idleAt`. -/
def get_idleAt (s : State) (k : Nat) : Nat := tabGet zeroNat s.idleAt k
/-- Entry `k` of `ethTx`. -/
def get_ethTx (s : State) (k : Nat) : Option (Nat × Nat) := tabGet noTx s.ethTx k
/-- Entry `k` of `ethHeadAt`. -/
def get_ethHeadAt (s : State) (k : Nat) : Nat := tabGet zeroNat s.ethHeadAt k
/-- Entry `k` of `canTx`. -/
def get_canTx (s : State) (k : Nat) : Option Nat := tabGet noTxq s.canTx k
/-- Entry `k` of `msix`. -/
def get_msix (s : State) (k : Nat) : Nat := tabGet zeroNat s.msix k
/-- Entry `k` of `ancs`. -/
def get_ancs (s : State) (k : Nat) : Anc := tabGet ancDefault s.ancs k
/-- Entry `k` of `trajArea`. -/
def get_trajArea (s : State) (k : Nat) : Byte := tabGet memDefault s.trajArea k
/-- Entry `k` of `spiStepBusy`. -/
def get_spiStepBusy (s : State) (k : Nat) : Nat := tabGet zeroNat s.spiStepBusy k
/-- Entry `k` of `spiStepCfg`. -/
def get_spiStepCfg (s : State) (k : Nat) : List Nat := tabGet noNats s.spiStepCfg k
/-- Entry `k` of `ctxs`. -/
def get_ctxs (s : State) (k : Nat) : Ctx := tabGet ctxDefault s.ctxs k
/-- Entry `k` of `fsyOmit`. -/
def get_fsyOmit (s : State) (k : Nat) : Nat := tabGet zeroNat s.fsyOmit k
/-- Entry `k` of `fsyPulsed`. -/
def get_fsyPulsed (s : State) (k : Nat) : Nat := tabGet zeroNat s.fsyPulsed k
/-- Entry `k` of `fcons`. -/
def get_fcons (s : State) (k : Nat) : FCon := tabGet fconDefault s.fcons k
/-- Entry `k` of `shadow`. -/
def get_shadow (s : State) (k : Nat) : Option Word := tabGet noShadow s.shadow k
/-- Entry `k` of `tlayers`. -/
def get_tlayers (s : State) (k : Nat) : TLayer := tabGet tlayerDefault s.tlayers k
/-- Entry `k` of `unitLast`. -/
def get_unitLast (s : State) (k : Nat) : Option Nat := tabGet hiNoneN s.unitLast k
/-- Entry `k` of `rails`. -/
def get_rails (s : State) (k : Nat) : Rail := tabGet railDefault s.rails k
/-- Entry `k` of `flash`. -/
def get_flash (s : State) (k : Nat) : Byte := tabGet memDefault s.flash k
/-- Entry `k` of `slots`. -/
def get_slots (s : State) (k : Nat) : SlotSt := tabGet slotDefault s.slots k
/-- Entry `k` of `stores`. -/
def get_stores (s : State) (k : Nat) : Store := tabGet storeDefault s.stores k
/-- Entry `k` of `ids`. -/
def get_ids (s : State) (k : Nat) : AncId := tabGet idDefault s.ids k

end Sys2Proof.Machine
end

