-- ==== Sys2Proof/Machine/Ops.lean ====
section
/-! DEFINITION. The shared operations: actions (state to list of updates), register fields, counters, memory bytes,
the address map (R25 to R28), completion words (R118, R119) and responses (R94). -/
namespace Sys2Proof.Machine

/-! ### Actions -/

/-- An action reads the state and answers the updates it makes. -/
abbrev Act := State → List Upd

/-- No effect. -/
def nop : Act := fun _ => []

/-- Perform `a`, then `b` on the state that `a` leaves. -/
def andThen (a b : Act) : Act := fun s => a s ++ b (applyAll (a s) s)

/-- Perform actions one after another. -/
def seq : List Act → Act
  | [] => nop
  | a :: as => andThen a (seq as)

/-- Perform an action if a condition holds. -/
def whenA (c : Bool) (a : Act) : Act := if c then a else nop

/-- Choose an action by the present state. -/
def withS (f : State → Act) : Act := fun s => f s s

/-- One update. -/
def upd (u : Upd) : Act := fun _ => [u]

/-- Perform an action for each member of a list, in order. -/
def forEach {α : Type} (xs : List α) (f : α → Act) : Act :=
  match xs with
  | [] => nop
  | x :: xs => andThen (f x) (forEach xs f)

/-- The state after an action. -/
def runAct (a : Act) (s : State) : State := applyAll (a s) s

/-- A command whose whole effect is an action: the next state. -/
def done (a : Act) (s : State) : Host.Outcome State Fault Refusal := .next (runAct a s)

/-! ### Registers -/

/-- The value a register holds (R8), as a number. -/
def rd (s : State) (a : Nat) : Nat := (tabGet regReset s.regs a).toNat

/-- Set a whole register. -/
def wr (a v : Nat) : Act := upd (.regs a (BitVec.ofNat 32 v))

/-- A 64-bit quantity in a _LO and _HI pair (R13). -/
def rd64 (s : State) (a : Nat) : Nat := rd s a + 2 ^ 32 * rd s (a + 4)

/-- Set a 64-bit pair. -/
def wr64 (a v : Nat) : Act := seq [wr a (v % 2 ^ 32), wr (a + 4) (v / 2 ^ 32)]

/-- Read a field. -/
def getF (s : State) (f : Fld) : Nat := bits (rd s f.addr) f.hi f.lo

/-- Is a one-bit field set? -/
def flag (s : State) (f : Fld) : Bool := getF s f == 1

/-- Set a field and leave the register's other bits. -/
def setF (f : Fld) (v : Nat) : Act := fun s => wr f.addr (putBits (rd s f.addr) f.hi f.lo v) s

/-- Add to a counter field that saturates at its largest value. -/
def addSat (f : Fld) (k : Nat) : Act :=
  fun s => setF f (satAdd (f.hi + 1 - f.lo) (getF s f) k) s

/-- Count one in a counter field that saturates. -/
def incSat (f : Fld) : Act := addSat f 1

/-- Add to a counter register of 32 bits that saturates. -/
def addReg (a k : Nat) : Act := fun s => wr a (satAdd 32 (rd s a) k) s

/-- Count one in a counter register that saturates. -/
def incReg (a : Nat) : Act := addReg a 1

/-- Add to a 64-bit pair, wrapping. -/
def inc64 (a k : Nat) : Act := fun s => wr64 a ((rd64 s a + k) % 2 ^ 64) s

/-- Add to a 64-bit pair that saturates. -/
def incSat64 (a k : Nat) : Act := fun s => wr64 a (min (rd64 s a + k) (2 ^ 64 - 1)) s

/-! ### Device time and the pitch -/

/-- Device time moves forward to the instant an event carries; it never runs backwards (R35). -/
def advance (now : Nat) : Act := fun s => if s.time < now then [.time now] else []

/-- PCH_NUM: n of the current pitch (R37). -/
def pitchNum (s : State) : Nat := rd64 s PCH_NUM

/-- The low 16 bits of PCH_NUM that completion words carry (R56). -/
def pitch16 (s : State) : Nat := pitchNum s % 2 ^ 16

/-- The pitch period P (R38). -/
def period (s : State) : Nat := getF s PCH_PERIOD_PERIOD_NS

/-- T_n of the current pitch. -/
def tickTime (s : State) : Nat := rd64 s PCH_TICK

/-! ### Memory bytes -/

/-- One byte of global memory, at the place that holds it. -/
def byteAt (s : State) (a : Nat) : Byte := tabGet memDefault s.mem a

/-- `n` bytes from a place on. -/
def rawBytes (s : State) (a : Nat) : Nat → List Byte
  | 0 => []
  | n + 1 => byteAt s a :: rawBytes s (a + 1) n

/-- The die partner of R19, to which a mirror write goes (R219). -/
def partner (d : Nat) : Nat := (d + 4) % 8

/-- Is compute die `d` removed (R475)? -/
def dieRemoved (s : State) (d : Nat) : Bool := getF s (FLT_DIE_STAT_STATE d) == 2

/-- Compute die window that an address names. -/
def windowDie (a : Nat) : Option Nat :=
  if 0x100000000000 ≤ a ∧ a < 0x100080000000 then some ((a - 0x100000000000) / 0x10000000) else none

/-- The place that serves an address: a mirrored bank of a removed die is served from the same bank of its partner
(R476, promotion). -/
def phys (s : State) (a : Nat) : Nat :=
  match windowDie a with
  | some d =>
    if dieRemoved s d && decide (a % 0x10000000 < 0x4000000) && bit (rd64 s (MAP_MIR d)) (a % 0x10000000 / 0x100000)
      && !dieRemoved s (partner d)
    then 0x100000000000 + partner d * 0x10000000 + a % 0x10000000 else a
  | none => a

/-- `n` bytes of global memory from an address. -/
def bytesAt (s : State) (a n : Nat) : List Byte := rawBytes s (phys s a) n

/-- A little-endian number of `n` bytes in memory (R7). -/
def numAt (s : State) (a n : Nat) : Nat := leNat (bytesAt s a n)

/-- Store bytes from an address on. -/
def storeBytes (a : Nat) : List Byte → Act
  | [] => nop
  | b :: bs => andThen (upd (.mem a b)) (storeBytes (a + 1) bs)

/-- Store a little-endian number of `n` bytes. -/
def storeNum (a n v : Nat) : Act := storeBytes a (leBytes n v)

/-! ### The address map -/

/-- A place of the global map (R25, R26). Offsets are within the unit named. -/
inductive Loc where
  | dram
  | bank (d b : Nat)
  | coreMem (d c : Nat)
  | opBuf (d c e : Nat)
  | peer (d : Nat)        -- peer aperture, mapped offset
  | iodCtl
  | dieCtl (d : Nat)
  | ancCtl (x : Nat)
  | pcieOut
  | none
  deriving DecidableEq, Repr

/-- The parts of a compute die window (R26). -/
def locInWindow (d o : Nat) : Loc :=
  if o < 0x4000000 then .bank d (o / 0x100000)
  else if o < 0x6000000 then .coreMem d ((o - 0x4000000) / 0x100000)
  else if o < 0x8000000 then .none
  else if o < 0xA000000 then .opBuf d ((o - 0x8000000) / 0x100000) ((o - 0x8000000) / 0x20000 % 8)
  else .none

/-- Is a peer paired (R97)? The follower or master role says so (R45). -/
def peerPaired (s : State) : Bool := getF s PCH_CFG_ROLE == 1 || getF s PCH_CFG_ROLE == 2

/-- Where an address lies (R25, R26, R28); the rest of a removed die's window is refused (R476). -/
def locOf (s : State) (a0 : Nat) : Loc :=
  let a := phys s a0
  if a < s.fitted.dramTop then .dram
  else if 0x100000000000 ≤ a ∧ a < 0x100080000000 then
    (if dieRemoved s ((a - 0x100000000000) / 0x10000000) then .none
     else locInWindow ((a - 0x100000000000) / 0x10000000) (a % 0x10000000))
  else if 0x180000000000 ≤ a ∧ a < 0x180080000000 then
    (if peerPaired s && locInWindow 0 (a % 0x10000000) != .none
      then .peer ((a - 0x180000000000) / 0x10000000) else .none)
  else if 0x200000000000 ≤ a ∧ a < 0x200004000000 then .iodCtl
  else if 0x210000000000 ≤ a ∧ a < 0x210008000000 then .dieCtl ((a - 0x210000000000) / 0x1000000)
  else if 0x220000000000 ≤ a ∧ a < 0x220010000000 then .ancCtl 0
  else if 0x220010000000 ≤ a ∧ a < 0x220020000000 then .ancCtl 1
  else if 0x230000000000 ≤ a ∧ a < 0x240000000000 then .pcieOut
  else .none

/-- The row of the map an address lies in, for the spanning rule of R28: 0 for none. -/
def mapRow (s : State) (a : Nat) : Nat :=
  match locOf s a with
  | .dram => 1
  | .bank d _ => 16 + d
  | .coreMem d _ => 32 + d
  | .opBuf d _ _ => 48 + d
  | .peer d => 64 + 4 * d + (if a % 0x10000000 < 0x4000000 then 0 else if a % 0x10000000 < 0x6000000 then 1 else 2)
  | .iodCtl => 2
  | .dieCtl d => 128 + d
  | .ancCtl x => 4 + x
  | .pcieOut => 3
  | .none => 0

/-- May an access of `len` bytes at `a` be performed at all (R28)? -/
def mapped (s : State) (a len : Nat) : Bool :=
  mapRow s a != 0 && mapRow s a == mapRow s (a + (len - 1))

/-- Base address of engine `e` of local core `c` of CD `d` (R26). -/
def opBufBase (d c e : Nat) : Nat := 0x100000000000 + d * 0x10000000 + 0x8000000 + (c * 8 + e) * 0x20000

/-- Base address of the memory of global core `g` (R26). -/
def coreMemBase (g : Nat) : Nat := 0x100000000000 + g / 32 * 0x10000000 + 0x4000000 + g % 32 * 0x100000

/-- Base address of shared-memory bank `b` of CD `d` (R26). -/
def bankBase (d b : Nat) : Nat := 0x100000000000 + d * 0x10000000 + b * 0x100000

/-! ### Masters -/

/-- Node number of a master (R91). -/
def nodeOf : Master → Nat
  | .core g => g / 32
  | .dma n _ => n
  | .kvc d => d
  | .anchor x => 9 + x
  | .cairn => 9
  | .peer d _ => 16 + d
  | _ => 8

/-- Local core, channel or unit number of a master (R187). -/
def unitOf : Master → Nat
  | .core g => g % 32
  | .dma _ ch => ch
  | .app c => c
  | .eth m => m
  | .can k => k
  | .peer _ u => u
  | _ => 0

/-- Is the master a compute core? -/
def isCore : Master → Bool
  | .core _ => true
  | _ => false

/-- A number for each master, the key of its _HI captures (R13). -/
def masterCode : Master → Nat
  | .core g => g
  | .dma n ch => 256 + n * 32 + ch
  | .kvc d => 600 + d
  | .ingress => 610 | .fusion => 611 | .traverse => 612 | .box => 613 | .mgmt => 614
  | .loader => 615 | .pcie => 616 | .cairn => 617
  | .anchor x => 620 + x
  | .app c => 630 + c
  | .eth m => 650 + m
  | .can k => 660 + k
  | .peer d u => 700 + d * 64 + u

/-- Partition whose cluster a core belongs to (R136); 0x1F none. -/
def coreOwner (s : State) (g : Nat) : Nat := getF s (PRT_CLU_PART (g / 32) (g % 32 / 8))

/-- Partition a master works for: the program on a core, or the owner of a channel. -/
def masterPart (s : State) : Master → Nat
  | .core g => if (get_cores s g).hasJob then (get_cores s g).part else coreOwner s g
  | .dma n ch => getF s (DMA_CH_OWN_PART n ch)
  | _ => 0x1F

/-- Compute cores of the clusters in service that a partition owns. -/
def coresOf (s : State) (p : Nat) : List Nat :=
  (List.range 256).filter (fun g => coreOwner s g == p && !dieRemoved s (g / 32))

/-! ### Refused accesses and responses -/

/-- The I/O die counts a refused access and records the first since the count was read (R28). -/
def recordRefusal (m : Master) (a : Nat) : Act := fun s =>
  [.refusals (s.refusals + 1)] ++
    (if s.firstRefusal = none then [.firstRefusal (some (a, m))] else [])

/-- Send a response to the source of a request. -/
def respond (r : Req) (op : ReqOp) (status : Nat) (data : List Byte) : Act := fun s =>
  [.resps (s.resps ++ [⟨r.src, r.tag, op, status, data, r.addr⟩])]

/-- Response status codes (R94). -/
abbrev stOK : Nat := 0
abbrev stUNMAPPED : Nat := 1
abbrev stBANK_OFF : Nat := 2
abbrev stWINDOW_CLOSED : Nat := 3
abbrev stDISABLED : Nat := 4
abbrev stABORTED : Nat := 5
abbrev stFABRIC_ERR : Nat := 6
abbrev stDATA_UNCORR : Nat := 7

/-! ### Completion words -/

/-- The word after an update "as SIGNAL does" (R118, R119). -/
def cwNext (w pitch inc status source : Nat) : Nat :=
  let count := if w % 2 ^ 16 = pitch then min (bits w 31 16 + inc) 0xFFFF else inc
  let st := if status ≠ 0 then status else bits w 39 32
  pitch % 2 ^ 16 + count * 2 ^ 16 + st * 2 ^ 32 + source * 2 ^ 40

/-! ### Free values -/

/-- Use the next free value and step the counter. -/
def withFree (f : Nat → Act) : Act := fun s => .freeCtr (s.freeCtr + 1) :: f s.freeCtr s

end Sys2Proof.Machine
end

