-- ==== Sys2Proof/Machine/Store.lean ====
section
/-! DEFINITION. Storing and reading as the memories do it: the symbol codes of scratchpads (R165 to R168) and DRAM
(R318 to R320, R334), power states (R177 to R185), watches (R121), granules (R132) and completion words (R119). -/
namespace Sys2Proof.Machine

/-! ### Power of the memories -/

/-- Is the memory at an address dark: a bank RETAINED or OFF, or the memories of a gated cluster (R177, R185)? -/
def locDark (s : State) (a : Nat) : Bool :=
  match locOf s a with
  | .bank d b => decide (getF s (BNK_PWR_STATE d b) ≤ 1)
  | .coreMem d c => decide (getF s (BNK_CLU_STATE d (c / 8)) ≤ 1)
  | .opBuf d c _ => decide (getF s (BNK_CLU_STATE d (c / 8)) ≤ 1)
  | _ => false

/-- R179: count a request that a dark bank refuses and record the first source. -/
def refuseDark (m : Master) (a : Nat) : Act := fun s =>
  match locOf s a with
  | .bank d b =>
    seq [incReg (BNK_OFF_CNT d b),
      fun s => if flag s (BNK_OFF_SRC_VALID d b) then []
        else wr (BNK_OFF_SRC d b)
          (nodeOf m + unitOf m % 256 * 2 ^ 5 + (if isCore m then 0 else 1) * 2 ^ 13 + 2 ^ 14) s] s
  | _ => []

/-! ### The scratchpad code (R165 to R168) -/

/-- Entries of the code table for the 32-byte words that `[a, a + len)` touches. -/
def eccIn (s : State) (a len : Nat) : List (Nat × Nat) :=
  s.ecc.filter (fun e => decide (a / 32 ≤ e.1 ∧ 32 * e.1 < a + len))

/-- Does `[a, a + len)` cover the whole word `w`? -/
def wholeWord (a len w : Nat) : Bool := decide (a ≤ 32 * w ∧ 32 * w + 32 ≤ a + len)

/-- Does a read of these bytes meet an uncorrectable word (R168)? -/
def readBad (s : State) (a len : Nat) : Bool := (eccIn s a len).any (fun e => decide (2 ≤ e.2))

/-- R168: the memory counts a corrected (`bad` 1) or uncorrectable (`bad` 2 or more) word and records the latter. -/
def countWord (w bad : Nat) : Act := fun s =>
  let o := 32 * w
  match locOf s o with
  | .bank d b =>
    if bad ≤ 1 then incReg (BNK_CORR_CNT d b) s
    else seq [incReg (BNK_UNC_CNT d b), wr (BNK_ERR_WORD d b) (o % 0x100000 / 32 + 2 ^ 15)] s
  | .coreMem d c =>
    if bad ≤ 1 then incReg (BNK_CM_CORR_CNT d) s
    else seq [incReg (BNK_CM_UNC_CNT d), wr (BNK_CM_ERR d) (c + o % 0x100000 / 32 * 2 ^ 5 + 2 ^ 20)] s
  | .opBuf d c e =>
    if bad ≤ 1 then incReg (BNK_EB_CORR_CNT d) s
    else seq [incReg (BNK_EB_UNC_CNT d), wr (BNK_EB_ERR d) (c + e * 2 ^ 5 + o % 0x20000 / 32 * 2 ^ 8 + 2 ^ 20)] s
  | _ => []

/-- R167: a corrected word of a shared bank or core memory awaits its write-back. -/
def queueWriteBack (w : Nat) : Act := fun s =>
  match locOf s (32 * w) with
  | .opBuf _ _ _ => []
  | _ => if s.wbPending.contains w then [] else [.wbPending (s.wbPending ++ [w])]

/-- A read counts the words it corrects or finds uncorrectable, and corrected words await their write-back. -/
def scRead (a len : Nat) (wb : Bool) : Act := fun s =>
  forEach (eccIn s a len) (fun e => seq [countWord e.1 e.2, whenA (wb && e.2 == 1) (queueWriteBack e.1)]) s

/-- R166: words that a write covers in part and finds uncorrectable; they stay unchanged. -/
def badPartial (s : State) (a len : Nat) : List Nat :=
  ((eccIn s a len).filter (fun e => decide (2 ≤ e.2) && !wholeWord a len e.1)).map (·.1)

/-- Store the bytes that lie in none of the given words. -/
def storeSkip (ws : List Nat) (a : Nat) : List Byte → Act
  | [] => nop
  | b :: bs => andThen (if ws.contains (a / 32) then nop else upd (.mem a b)) (storeSkip ws (a + 1) bs)

/-- Bits of the 4 KiB granules of an operand buffer that `[o, o + len)` touches. -/
def granuleBits (o len : Nat) : Nat :=
  (List.range 32).foldl (fun m i => if i * 4096 < o + len ∧ o < i * 4096 + 4096 then putBit m i true else m) 0

/-- R132: a write to an operand buffer makes its granules live. -/
def markGranules (a len : Nat) : Act := fun s =>
  match locOf s a with
  | .opBuf d c e =>
    let k := (d * 32 + c) * 8 + e
    let en := get_engines s k
    [.engines k { en with granules := Nat.lor en.granules (granuleBits (a % 0x20000) len) }]
  | _ => []

/-- R121: a write to a watched word sends the new value to every watching core and frees the entry. -/
def releaseWatches (a len : Nat) : Act := fun s =>
  match locOf s a with
  | .bank d b =>
    let ws := get_watches s (d * 64 + b)
    let hit (w : Watch) : Bool := decide (a < w.addr + 8 ∧ w.addr < a + len)
    if ws.any hit then
      [.watches (d * 64 + b) (ws.filter (fun w => !hit w)),
       .watchMsgs (s.watchMsgs ++
         ((ws.filter hit).map (fun w => w.cores.map (fun g => ⟨g, w.addr, numAt s w.addr 8⟩))).flatten)]
    else []
  | .coreMem d c =>
    let g := d * 32 + c
    let co := get_cores s g
    let hit (w : Nat) : Bool := decide (a < w + 8 ∧ w < a + len)
    if co.cwatch.any hit then
      [.cores g { co with cwatch := co.cwatch.filter (fun w => !hit w) },
       .watchMsgs (s.watchMsgs ++ (co.cwatch.filter hit).map (fun w => ⟨g, w, numAt s w 8⟩))]
    else []
  | _ => []

/-- A write performed at a scratchpad: whole words take new check symbols, partial words are read, merged and written,
and an uncorrectable partial word stays as it is (R166, R167). -/
def scWrite (a : Nat) (bs : List Byte) : Act := fun s =>
  let skip := badPartial s a bs.length
  seq [if skip.isEmpty then storeBytes a bs else storeSkip skip a bs,
    forEach (eccIn s a bs.length) (fun e =>
      if skip.contains e.1 then countWord e.1 e.2
      else seq [whenA (!wholeWord a bs.length e.1) (countWord e.1 e.2), upd (.ecc e.1 0)]),
    fun s => if s.wbPending.isEmpty then []
      else [.wbPending (s.wbPending.filter (fun w => !decide (a / 32 ≤ w ∧ 32 * w < a + bs.length)))],
    markGranules a bs.length,
    releaseWatches a bs.length] s

/-! ### The DRAM code (R317 to R320, R334) -/

/-- DRAM unit (24 subchannels) of an address: u = 2 × channel + subchannel (R317). -/
def dramUnit (a : Nat) : Nat := a / 4096 % 24
/-- Subchannel line L of an address (R317). -/
def dramLine (a : Nat) : Nat := a / 4096 / 24 * 64 + a / 64 % 64
/-- Bank index 4 × BG + BA of an address (R317, R338). -/
def dramBank (a : Nat) : Nat := 4 * (dramLine a % 8) + dramLine a / 512 % 4
/-- Row of an address (R317). -/
def dramRow (a : Nat) : Nat := dramLine a / 2048

/-- Entries of the line code table for the 64-byte lines that `[a, a + len)` touches. -/
def lineIn (s : State) (a len : Nat) : List (Nat × Nat) :=
  s.lineEcc.filter (fun e => decide (a / 64 ≤ e.1 ∧ 64 * e.1 < a + len))

/-- Does a read of these DRAM bytes meet an uncorrectable line (R319)? -/
def lineBad (s : State) (a len : Nat) : Bool := (lineIn s a len).any (fun e => decide (16 ≤ e.2))

/-- R334: enter a line in the error ring and count it. -/
def logLine (line code : Nat) : Act := fun s =>
  let a := 64 * line
  let c := dramUnit a / 2
  let unc := decide (16 ≤ code)
  seq [fun s => if s.errRing.length < 256 then [.errRing (s.errRing ++ [⟨a, code - 1, unc⟩])]
      else [.errRingOvf (s.errRingOvf + 1)],
    if unc then seq [incReg (DDR_UE_CNT c), wr (DDR_UE_ADDR_LO c) (a % 2 ^ 32 + 1), wr (DDR_UE_ADDR_HI c) (a / 2 ^ 32)]
    else seq [incReg (DDR_CE_CNT c), setF (DDR_CE_LOC_DEVICE c) (code - 1)]] s

/-- Is a write to the line queued (R319)? -/
def lineQueued (s : State) (line : Nat) : Bool :=
  (get_subchs s (dramUnit (64 * line))).wq.any (fun q =>
    decide (q.req.addr / 64 ≤ line ∧ 64 * line < q.req.addr + max q.req.len q.req.data.length))

/-- R319: a read of DRAM logs each line it corrects or finds uncorrectable; a corrected line is written back if no write to
it is queued. -/
def dramTouch (a len : Nat) : Act := fun s =>
  forEach (lineIn s a len) (fun e => seq [logLine e.1 e.2,
    whenA (decide (e.2 < 16) && !lineQueued s e.1) (seq [incReg (DDR_WB_CNT (dramUnit (64 * e.1) / 2)), upd (.lineEcc e.1 0)])]) s

/-- Lines that a write covers in part and finds uncorrectable (R320). -/
def badLines (s : State) (a len : Nat) : Bool :=
  (lineIn s a len).any (fun e => decide (16 ≤ e.2) && !decide (a ≤ 64 * e.1 ∧ 64 * e.1 + 64 ≤ a + len))

/-- A write performed at a DRAM line or lines; refused whole where a partial line is uncorrectable (R320). -/
def dramWrite (a : Nat) (bs : List Byte) : Act := fun s =>
  if badLines s a bs.length then forEach ((lineIn s a bs.length).filter (fun e => decide (16 ≤ e.2))) (fun e => logLine e.1 e.2) s
  else seq [storeBytes a bs,
    forEach (lineIn s a bs.length) (fun e =>
      seq [whenA (!decide (a ≤ 64 * e.1 ∧ 64 * e.1 + 64 ≤ a + bs.length)) (logLine e.1 e.2), upd (.lineEcc e.1 0)])] s

/-! ### Accesses by the device's own units -/

/-- Status that a unit's write of `len` bytes gets (R94): UNMAPPED, BANK_OFF, DATA_UNCORR or OK. -/
def writeStatus (s : State) (a len : Nat) : Nat :=
  if !mapped s a len then stUNMAPPED
  else if locDark s a then stBANK_OFF
  else match locOf s a with
    | .dram => if badLines s a len then stDATA_UNCORR else stOK
    | _ => if (badPartial s (phys s a) len).isEmpty then stOK else stDATA_UNCORR

/-- Status that a unit's read of `len` bytes gets. -/
def readStatus (s : State) (a len : Nat) : Nat :=
  if !mapped s a len then stUNMAPPED
  else if locDark s a then stBANK_OFF
  else match locOf s a with
    | .dram => if lineBad s a len then stDATA_UNCORR else stOK
    | _ => if readBad s (phys s a) len then stDATA_UNCORR else stOK

/-- A unit's write to memory: performed, or refused and recorded as R28 and R179 say. -/
def unitWrite (m : Master) (a : Nat) (bs : List Byte) : Act := fun s =>
  if bs.isEmpty then []
  else if !mapped s a bs.length then recordRefusal m a s
  else if locDark s a then refuseDark m a s
  else match locOf s a with
    | .dram => dramWrite a bs s
    | .bank _ _ | .coreMem _ _ | .opBuf _ _ _ => scWrite (phys s a) bs s
    | _ => []

/-- A unit's read of memory: what it counts and records. The data are `bytesAt` where `readStatus` is OK. -/
def unitRead (m : Master) (a len : Nat) : Act := fun s =>
  if len = 0 then []
  else if !mapped s a len then recordRefusal m a s
  else if locDark s a then refuseDark m a s
  else match locOf s a with
    | .dram => dramTouch a len s
    | .bank _ _ | .coreMem _ _ | .opBuf _ _ _ => scRead (phys s a) len true s
    | _ => []

/-- A unit updates a completion word "as SIGNAL does" (R119). -/
def signalWord (m : Master) (a pitch inc status source : Nat) : Act := fun s =>
  unitWrite m a (leBytes 8 (cwNext (numAt s a 8) pitch inc status source)) s

end Sys2Proof.Machine
end

