-- ==== Sys2Proof/Machine/Log.lean ====
section
/-! DEFINITION. What every unit reports through: output pins, the anchor forwarder (R433), the anchor fault log (R463),
interrupt sources (R366, R367), enables and drains (R104). -/
namespace Sys2Proof.Machine

/-- Send something to the outside. -/
def emit (o : Out) : Act := fun s => [.out (s.out ++ [o])]

/-- A register read returns its value to the master that asked. -/
def returnRead (m : Master) (a v : Nat) : Act := fun _ => [.lastRead (some (m, a, v))]

/-- A message for both anchor dies reaches the forwarder (R433). -/
def sendFwd (m : FwdMsg) : Act := fun s => [.fwd (s.fwd ++ [m])]

/-- A message logged as an EVENT entry of a kind (R584), sent by a node and unit. -/
def sendEvent (kind : Nat) (data : List Nat) (node unit : Nat) : Act :=
  sendFwd (.event kind (data.map (BitVec.ofNat 8)) node unit)

/-- Store bytes in the SRAM of anchor die `x`. -/
def sramStore (x off : Nat) : List Byte → Act
  | [] => nop
  | b :: bs => andThen (upd (.sram (x * 2 ^ 32 + off) b)) (sramStore x (off + 1) bs)

/-- A byte of the SRAM of anchor die `x`. -/
def sramAt (s : State) (x off : Nat) : Byte := tabGet memDefault s.sram (x * 2 ^ 32 + off)

/-- A little-endian number in the SRAM of anchor die `x`. -/
def sramNum (s : State) (x off : Nat) : Nat → Nat
  | 0 => 0
  | n + 1 => (sramAt s x off).toNat + 256 * sramNum s x (off + 1) n

/-- The first 16 bytes of a list, padded with zeros. -/
def pad16 (bs : List Byte) : List Byte := (bs ++ List.replicate 16 0).take 16

/-- Anchor time of die `x` (R435). -/
def ancTime (s : State) (x : Nat) : Nat := ((s.time : Int) + (get_ancs s x).off).toNat

/-- R463: anchor die `x` writes a fault-log entry: time, pitch, code, source node and unit, data. -/
def ancLog (x code node unit : Nat) (data : List Byte) : Act := fun s =>
  let h := rd s (ANC_LOG_HEAD x)
  seq [sramStore x (0x1E8000 + h % 1024 * 32)
      (leBytes 8 (ancTime s x) ++ leBytes 4 (get_ancs s x).n ++ leBytes 2 code ++ leBytes 1 node ++ leBytes 1 unit ++ pad16 data),
    wr (ANC_LOG_HEAD x) ((h + 1) % 2 ^ 32)] s

/-- An entry of the die's own with data given as numbers of one byte. -/
def ancLogB (x code : Nat) (data : List Nat) : Act := ancLog x code (9 + x) 0 (data.map (BitVec.ofNat 8))

/-! ### Interrupt sources (R366, R367) -/

/-- An event of source `n` sets its pending bit. -/
def icuPend (n : Nat) : Act := setF (ICU_SRC_CFG_PEND n) 1

/-- Target u = 2 × core + SMODE of a source. -/
def icuTargetOf (s : State) (n : Nat) : Nat := 2 * getF s (ICU_SRC_CFG_TARGET n) + getF s (ICU_SRC_CFG_SMODE n)

/-- May source `n` raise its target's external interrupt? -/
def icuRaises (s : State) (n : Nat) : Bool :=
  flag s (ICU_SRC_CFG_PEND n) && getF s (ICU_SRC_CFG_PRIO n) != 0 && !flag s (ICU_SRC_CFG_INSRV n)
    && decide (getF s (ICU_THR_THR (icuTargetOf s n)) < getF s (ICU_SRC_CFG_PRIO n))

/-- Is the external interrupt of target `u` raised? -/
def icuLine (s : State) (u : Nat) : Bool :=
  (List.range 256).any (fun n => icuTargetOf s n == u && icuRaises s n)

/-! ### Enables and drains (R104) -/

/-- A write of an EN bit: setting it starts an OFF block; clearing it puts an ON block into DRAINING; setting it during
a drain waits for the drain's end, and clearing it in OFF changes nothing else. -/
def writeEnable (en st : Fld) (v : Bool) : Act := fun s =>
  seq [setF en (if v then 1 else 0),
    if v then whenA (getF s st == 0) (setF st 1) else whenA (getF s st == 1) (setF st 2)] s

/-- The end of a drain: OFF, and ON again at once if EN was set meanwhile. -/
def endDrain (en st : Fld) : Act := fun s => setF st (if flag s en then 1 else 0) s

end Sys2Proof.Machine
end

