-- ==== Sys2Proof/Machine/Ethernet.lean ====
section
/-! DEFINITION. The interrupt controller commands (R367) and the Ethernet host queues (R342, R369 to R371). -/
namespace Sys2Proof.Machine

/-! ### Interrupt controller -/

/-- Sources that R366 lists. -/
def icuSource (n : Nat) : Bool :=
  decide (n ≤ 8) || decide (16 ≤ n ∧ n ≤ 41) || decide (43 ≤ n ∧ n ≤ 59) || decide (64 ≤ n ∧ n ≤ 255)

/-- ICU_EVENT (R367): the event of a source sets its pending bit; a reserved source has no event. -/
def execIcuEvent (src : Nat) (s : State) : Host.Outcome State Fault Refusal :=
  done (whenA (icuSource src) (icuPend src)) s

/-- The source a read of ICU_CLAIM returns: highest PRIO, lowest number on a tie (R367). -/
def icuBest (s : State) (u : Nat) : Option Nat :=
  ((List.range 256).filter (fun n => icuTargetOf s n == u && icuRaises s n)).foldl (fun b n =>
    match b with
    | some m => if getF s (ICU_SRC_CFG_PRIO m) < getF s (ICU_SRC_CFG_PRIO n) then some n else some m
    | none => some n) none

/-- A read of ICU_CLAIM by a master: claims, or returns 0x1FF (R367). -/
def icuClaim (m : Master) (u : Nat) : Act := fun s =>
  match icuBest s u with
  | some n => seq [setF (ICU_SRC_CFG_PEND n) 0, setF (ICU_SRC_CFG_INSRV n) 1, returnRead m (ICU_CLAIM u) n] s
  | none => returnRead m (ICU_CLAIM u) 0x1FF s

/-- ICU_CLAIM. -/
def execIcuClaim (src : Master) (u : Nat) (s : State) : Host.Outcome State Fault Refusal :=
  done (whenA (decide (u < 32)) (icuClaim src u)) s

/-- May the master write the registers of the application cores' controllers (R365)? -/
def hostWriteOk : Master → Bool
  | .app _ => true
  | .mgmt => true
  | _ => false

/-- Is the master one that runs software (or the loader, or inbound PCIe)? A register for which the spec names no writers
accepts a write from each of these: the fabric does not check a thread's stores (R246). The units and the DMA channels
store no register but those of R291 and R365. -/
def swWriteOk : Master → Bool
  | .core _ | .app _ | .mgmt | .loader | .pcie | .anchor _ | .cairn => true
  | .dma _ _ | .kvc _ | .ingress | .fusion | .traverse | .box | .peer _ _ | .eth _ | .can _ => false

/-- A register write by a master that may not make it is refused and recorded (R28). -/
def guarded (ok : Bool) (m : Master) (a : Nat) (act : Act) : Act := if ok then act else recordRefusal m a

/-- Writing a source number to ICU_CLAIM completes it (R367). -/
def icuComplete (n : Nat) : Act := whenA (decide (n < 256)) (setF (ICU_SRC_CFG_INSRV n) 0)

/-- ICU_COMPLETE. -/
def execIcuComplete (src : Master) (u n : Nat) (s : State) : Host.Outcome State Fault Refusal :=
  done (guarded (hostWriteOk src) src (ICU_CLAIM u) (icuComplete n)) s

/-- A store to ICU_MSG (R367): raises a source of 64 to 255; a lower number is ignored and counted. -/
def icuMsg (v : Nat) : Act := if v % 256 < 64 then incReg ICU_MSG_IGN_CNT else icuPend (v % 256)

/-- ICU_MSG: accepted from every master (R365). -/
def execIcuMsg (v : Nat) (s : State) : Host.Outcome State Fault Refusal := done (icuMsg v) s

/-! ### Rings (R369) -/

/-- A descriptor ring by its registers. -/
structure Ring where
  base : Nat
  cfg : Fld
  head : Fld
  tail : Fld
  ent : Nat
  ign : Fld
  deriving DecidableEq, Repr

/-- Rings of MAC m: 0 receive, 1 TXQ0, 2 TXQ1. -/
def ethRing (m r : Nat) : Ring :=
  match r with
  | 0 => ⟨ETH_RXQ_BASE m, ETH_RXQ_CFG_SIZE m, ETH_RXQ_PTR_HEAD m, ETH_RXQ_PTR_TAIL m, 32, ETH_STAT_PTR_IGN m⟩
  | 1 => ⟨ETH_TXQ0_BASE m, ETH_TXQ0_CFG_SIZE m, ETH_TXQ0_PTR_HEAD m, ETH_TXQ0_PTR_TAIL m, 32, ETH_STAT_PTR_IGN m⟩
  | _ => ⟨ETH_TXQ1_BASE m, ETH_TXQ1_CFG_SIZE m, ETH_TXQ1_PTR_HEAD m, ETH_TXQ1_PTR_TAIL m, 32, ETH_STAT_PTR_IGN m⟩

/-- Rings of CAN controller k (R372, R373). -/
def canRing (k r : Nat) : Ring :=
  match r with
  | 0 => ⟨CAN_RXQ_BASE k, CAN_RXQ_CFG_SIZE k, CAN_RXQ_PTR_HEAD k, CAN_RXQ_PTR_TAIL k, 96, CAN_STAT_PTR_IGN k⟩
  | 1 => ⟨CAN_TXQ0_BASE k, CAN_TXQ0_CFG_SIZE k, CAN_TXQ0_PTR_HEAD k, CAN_TXQ0_PTR_TAIL k, 96, CAN_STAT_PTR_IGN k⟩
  | _ => ⟨CAN_TXQ1_BASE k, CAN_TXQ1_CFG_SIZE k, CAN_TXQ1_PTR_HEAD k, CAN_TXQ1_PTR_TAIL k, 96, CAN_STAT_PTR_IGN k⟩

/-- Does hardware own no descriptor of the ring? -/
def ringEmpty (s : State) (r : Ring) : Bool := getF s r.head == getF s r.tail
/-- Address of the descriptor at HEAD; base bits [5:0] are ignored. -/
def ringHead (s : State) (r : Ring) : Nat := rd64 s r.base / 64 * 64 + getF s r.head * r.ent
/-- Hardware advances HEAD. -/
def ringAdvance (r : Ring) : Act := fun s => setF r.head ((getF s r.head + 1) % getF s r.cfg) s
/-- Would a TAIL write pass HEAD (R369)? -/
def tailBad (s : State) (r : Ring) (t : Nat) : Bool :=
  let n := getF s r.cfg
  let own := (getF s r.tail + n - getF s r.head) % n
  let adv := (t + n - getF s r.tail) % n
  decide (n ≤ t ∨ n ≤ own + adv)
/-- A TAIL write passes descriptors to hardware, or is ignored (R369, R370). -/
def ringTail (r : Ring) (accepts : Bool) (t : Nat) : Act := fun s =>
  if accepts && !tailBad s r t then setF r.tail t s else setF r.ign 1 s

/-! ### Frames -/

/-- A number of `n` bytes at an offset of a frame, little-endian. -/
def frameNum (f : List Byte) (o n : Nat) : Nat := leNat ((f.drop o).take n)
/-- A big-endian number in a frame. -/
def frameBe (f : List Byte) (o n : Nat) : Nat := beNat ((f.drop o).take n)
/-- Does the frame carry an 802.1Q tag? -/
def frameTagged (f : List Byte) : Bool := frameBe f 12 2 == 0x8100
/-- Ethertype behind at most one tag. -/
def frameType (f : List Byte) : Nat := if frameTagged f then frameBe f 16 2 else frameBe f 12 2
/-- Offset of the network header. -/
def frameNet (f : List Byte) : Nat := if frameTagged f then 18 else 14
/-- The UDP destination port of an IPv4 UDP frame, and the offset of its payload (R340, R342). -/
def frameUdp (f : List Byte) : Option (Nat × Nat) :=
  let o := frameNet f
  let ihl := frameBe f o 1 % 16 * 4
  if frameType f = 0x0800 ∧ frameBe f o 1 / 16 = 4 ∧ frameBe f (o + 9) 1 = 17 then some (frameBe f (o + ihl + 2) 2, o + ihl + 8)
  else none

/-- Byte `o` to `o + n - 1` of a context's entry (R361, R363). -/
def ctxNum (s : State) (x o n : Nat) : Nat :=
  (List.range n).foldr (fun i acc => rd s (ING_CTX_ENTRY x ((o + i) / 4)) / 256 ^ ((o + i) % 4) % 256 + 256 * acc) 0

/-- Is context x a lidar context on this MAC and UDP port (R361)? -/
def lidarOn (s : State) (m x port : Nat) : Bool :=
  ctxNum s x 1 1 == 1 && ctxNum s x 2 1 % 4 == m && ctxNum s x 0x40 2 == port

/-- The lidar context that claims a frame of MAC m, and the offset of its datagram (R342). -/
def lidarClaim (s : State) (m : Nat) (f : List Byte) : Option (Nat × Nat) :=
  match frameUdp f with
  | some (port, o) =>
    if getF s (ETH_ADDR_HI_USE m) = 1 then
      ((List.range 24).find? (fun x => lidarOn s m x port)).map (fun x => (x, o))
    else none
  | none => none

/-! ### Receive (R369) -/

/-- Does the MAC accept the destination: its own address, broadcast, multicast, or PROMISC? -/
def ethAccepts (s : State) (m : Nat) (f : List Byte) : Bool :=
  flag s (ETH_CTL_PROMISC m) || frameNum f 0 1 % 2 == 1 ||
  frameNum f 0 6 == rd s (ETH_ADDR_LO m) + 2 ^ 32 * getF s (ETH_ADDR_HI_ADDR m)

/-- Does the frame carry an 802.1AS message on the time port (R36)? -/
def ethSync (s : State) (m : Nat) (f : List Byte) : Bool :=
  frameType f == 0x88F7 && getF s PCH_CFG_TIME_PORT == m

/-- The receive ring takes a frame whose first bit arrived at `at_`. -/
def ethStoreFrame (m at_ : Nat) (f : List Byte) : Act := fun s =>
  let r := ethRing m 0
  if ringEmpty s r then incReg (ETH_RX_DROP_CNT m) s
  else
    let d := ringHead s r
    let cap := getF s (ETH_RXQ_CFG_BUF m) * 64
    let body := f.take cap
    let buf := numAt s d 8
    let st := writeStatus s buf body.length
    let status := if st ≠ 0 then st else if cap < f.length then 0x91 else 0
    let tag := frameTagged f
    seq [unitWrite (.eth m) buf body,
      unitWrite (.eth m) (d + 8) (leBytes 2 body.length ++ leBytes 1 (if tag then 1 else 0) ++ leBytes 1 status ++
        leBytes 4 (if tag then frameBe f 14 2 else 0)),
      unitWrite (.eth m) (d + 0x18) (leBytes 8 at_),
      ringAdvance r, incReg (ETH_RX_CNT m), icuPend (16 + 2 * m)] s

/-- ETH_FRAME_RECEIVE (R342, R369): a frame with a good frame check sequence, without it. -/
def execEthFrameReceive (m at_ : Nat) (f : List Byte) (s : State) : Host.Outcome State Fault Refusal :=
  done (seq [advance at_, fun s =>
    if getF s (ETH_STAT_STATE m) ≠ 1 then []
    else match lidarClaim s m f with
      | some (x, o) => [.lidarIn (s.lidarIn ++ [(x, at_, f.drop o)])]
      | none =>
        if ethSync s m f then []
        else if ethAccepts s m f then ethStoreFrame m at_ f s
        else []]) s

/-! ### Pointers and transmission (R369, R370) -/

/-- May the master write the TXQ1 registers of a queue owned by partition `p` (R365)? -/
def queueWriteOk (s : State) (p : Nat) (src : Master) : Bool :=
  hostWriteOk src || (match src with
    | .core g => coreOwner s g == p && p != 0x1F
    | _ => false)

/-- A TAIL write to ring r of MAC m; the head of a ring that was empty reaches the head now. -/
def ethTail (m r t : Nat) : Act := fun s =>
  seq [whenA (ringEmpty s (ethRing m r) && decide (1 ≤ r)) (upd (.ethHeadAt (m * 2 + (r - 1)) s.time)),
    ringTail (ethRing m r) (getF s (ETH_STAT_STATE m) == 1) t] s

/-- ETH_TAIL_WRITE: r is 0 for the receive ring, 1 for TXQ0, 2 for TXQ1. -/
def execEthTailWrite (src : Master) (m r t : Nat) (s : State) : Host.Outcome State Fault Refusal :=
  done (guarded (if r = 2 then queueWriteOk s (getF s (ETH_TXQ1_OWN_PART m)) src else hostWriteOk src) src
    (if r = 0 then ETH_RXQ_PTR m else if r = 1 then ETH_TXQ0_PTR m else ETH_TXQ1_PTR m) (ethTail m r t)) s

/-- R370: the completion word of TXQ1 is updated when a frame of the queue ends. -/
def ethCw (m q status : Nat) : Act := fun s =>
  let a := rd64 s (ETH_TXQ1_CW m)
  if q = 2 ∧ a ≠ 0 then signalWord (.eth m) a (pitch16 s) 1 status 6 s else []

/-- A transmit frame ends: its descriptor is written and HEAD advances past it. -/
def ethEnd (m q status : Nat) (time : Option Nat) : Act := fun s =>
  let r := ethRing m q
  let d := ringHead s r
  seq [unitWrite (.eth m) (d + 0x0B) (leBytes 1 status),
    (match time with
     | some t => if numAt s (d + 0x0A) 1 % 2 = 1 then unitWrite (.eth m) (d + 0x18) (leBytes 8 t) else nop
     | none => nop),
    ringAdvance r, fun s => [.ethHeadAt (m * 2 + (q - 1)) s.time],
    whenA (status == 0x90) (incReg (ETH_TX_LATE_CNT m)), icuPend (17 + 2 * m), ethCw m q status] s

/-- Is the head of ring q late (R370)? -/
def ethLate (s : State) (m q now : Nat) : Bool :=
  let l := numAt s (ringHead s (ethRing m q) + 0x10) 8
  l != 0 && (decide (l + 100000 < get_ethHeadAt s (m * 2 + (q - 1)))
    || (!flag s (ETH_STAT_LINK m) && decide (l + 100000 < now)))

/-- May the head of ring q leave at a frame boundary now? -/
def ethReady (s : State) (m q now : Nat) : Bool :=
  !ringEmpty s (ethRing m q) &&
  (let l := numAt s (ringHead s (ethRing m q) + 0x10) 8
   ethLate s m q now || (flag s (ETH_STAT_LINK m) && (l == 0 || decide (l ≤ now))))

/-- The frame bytes a transmit descriptor names, padded to 60 bytes (R369). -/
def ethFrameOf (s : State) (d : Nat) : List Byte :=
  let n := numAt s (d + 8) 2
  let f := bytesAt s (numAt s d 8) n
  f ++ List.replicate (60 - f.length) 0

/-- ETH_FRAME_LAUNCH (R370): at a frame boundary the MAC takes TXQ1 ahead of TXQ0; a late frame ends IF_LATE, and a
frame whose bytes cannot be read ends with the status of the read. -/
def execEthFrameLaunch (m now : Nat) (s : State) : Host.Outcome State Fault Refusal :=
  done (seq [advance now, fun s =>
    if getF s (ETH_STAT_STATE m) = 0 ∨ get_ethTx s m ≠ none then []
    else match [2, 1].find? (fun q => ethReady s m q now) with
      | none => []
      | some q =>
        let d := ringHead s (ethRing m q)
        let st := readStatus s (numAt s d 8) (numAt s (d + 8) 2)
        if ethLate s m q now then ethEnd m q 0x90 none s
        else if st ≠ 0 then seq [unitRead (.eth m) (numAt s d 8) (numAt s (d + 8) 2), ethEnd m q st none] s
        else seq [unitRead (.eth m) (numAt s d 8) (numAt s (d + 8) 2), upd (.ethTx m (some (q, now))),
          emit (.eth m (ethFrameOf s d))] s]) s

/-- ETH_FRAME_SENT (R370): the frame in transmission ends. -/
def execEthFrameSent (m now : Nat) (s : State) : Host.Outcome State Fault Refusal :=
  done (seq [advance now, fun s =>
    match get_ethTx s m with
    | none => []
    | some (q, t0) => seq [upd (.ethTx m none), incReg (ETH_TX_CNT m), ethEnd m q 0 (some t0)] s]) s

/-- Clearing or setting ETH_CTL.EN (R104, R370). -/
def ethEnable (m : Nat) (v : Bool) : Act := writeEnable (ETH_CTL_EN m) (ETH_STAT_STATE m) v

/-- ETH_DISABLE. -/
def execEthDisable (src : Master) (m : Nat) (s : State) : Host.Outcome State Fault Refusal :=
  done (guarded (hostWriteOk src) src (ETH_CTL m) (ethEnable m false)) s

/-- Is every transmit descriptor of MAC m done? -/
def ethIdle (s : State) (m : Nat) : Bool :=
  ringEmpty s (ethRing m 1) && ringEmpty s (ethRing m 2) && get_ethTx s m == none

/-- R370: every descriptor left at the end of the drain ends with ABORTED; at most `n` of them. -/
def ethAbort (m q : Nat) : Nat → Act
  | 0 => nop
  | n + 1 => fun s => if ringEmpty s (ethRing m q) then [] else seq [ethEnd m q 5 none, ethAbort m q n] s

/-- The drain timeout of a MAC. -/
def ethDrainTimeout (m : Nat) : Act := seq [upd (.ethTx m none), ethAbort m 2 4096, ethAbort m 1 4096,
  endDrain (ETH_CTL_EN m) (ETH_STAT_STATE m)]

/-- ETH_LINK_CHANGE (R371): the PCS link comes up or goes down. -/
def execEthLinkChange (m : Nat) (up : Bool) (s : State) : Host.Outcome State Fault Refusal :=
  done (setF (ETH_STAT_LINK m) (if up then 1 else 0)) s

end Sys2Proof.Machine
end

