-- ==== Sys2Proof/Machine/Can.lean ====
section
/-! DEFINITION. The CAN FD controllers of the I/O die (R372, R373) and the SPI and I²C controllers (R374 to R377). -/
namespace Sys2Proof.Machine

/-! ### CAN FD -/

/-- Does the identifier word pass filter f of controller k (R372)? Bit 29 of the word is EXT. -/
def canPass (s : State) (k f idw : Nat) : Bool :=
  flag s (CAN_FLT_ID_EN k f) &&
  Nat.land (Nat.xor (idw % 2 ^ 29) (getF s (CAN_FLT_ID_ID k f))) (getF s (CAN_FLT_MASK_MASK k f)) == 0 &&
  bits idw 29 29 == getF s (CAN_FLT_ID_EXT k f)

/-- Does the frame reach the ring: an enabled filter passes it, or no filter is enabled? -/
def canAccepts (s : State) (k idw : Nat) : Bool :=
  (List.range 16).any (fun f => canPass s k f idw) || (List.range 16).all (fun f => !flag s (CAN_FLT_ID_EN k f))

/-- Is it a wheel frame for the ego block (R386)? -/
def canWheel (s : State) (k idw : Nat) : Bool :=
  getF s FUS_EGO_CTL_EGO_CAN == k && getF s FUS_EGO_CANID_ID == idw % 2 ^ 29 && getF s FUS_EGO_CANID_EXT == bits idw 29 29

/-- The error state that the error counters give (ISO 11898-1): passive above 127. -/
def canErrState (k : Nat) : Act := fun s =>
  if getF s (CAN_STAT_ERR k) = 2 then []
  else setF (CAN_STAT_ERR k) (if 127 < getF s (CAN_STAT_TEC k) ∨ 127 < getF s (CAN_STAT_REC k) then 1 else 0) s

/-- A frame written to the receive ring. -/
def canStore (k at_ idw flags len : Nat) (data : List Byte) : Act := fun s =>
  let r := canRing k 0
  if ringEmpty s r then incReg (CAN_RX_DROP_CNT k) s
  else
    let d := ringHead s r
    seq [unitWrite (.can k) d (leBytes 4 idw ++ leBytes 1 len ++ leBytes 1 flags ++ leBytes 1 0 ++ leBytes 1 0 ++
        leBytes 8 at_),
      unitWrite (.can k) (d + 0x20) ((data ++ List.replicate 64 0).take 64),
      ringAdvance r, incReg (CAN_RX_CNT k), icuPend (24 + 2 * k)] s

/-- A good frame from the bus (or the loopback): the receive counter recovers, the ego block and the ring take it. -/
def canReceive (k at_ idw flags len : Nat) (data : List Byte) : Act := fun s =>
  seq [fun s => setF (CAN_STAT_REC k) (if 127 < getF s (CAN_STAT_REC k) then 127 else getF s (CAN_STAT_REC k) - 1) s,
    canErrState k,
    fun s => if canWheel s k idw then [.wheelIn (s.wheelIn ++ [(at_, data)])] else [],
    fun s => if canAccepts s k idw || canWheel s k idw then canStore k at_ idw flags len data s else []] s

/-- CAN_FRAME_RECEIVE (R372): a frame ends on the bus, good or with a protocol error. -/
def execCanFrameReceive (k at_ idw flags len : Nat) (data : List Byte) (err : Bool) (s : State) :
    Host.Outcome State Fault Refusal :=
  done (seq [advance at_, fun s =>
    if getF s (CAN_STAT_STATE k) ≠ 1 ∨ getF s (CAN_STAT_ERR k) = 2 then []
    else if err then
      seq [incReg (CAN_ERR_CNT k), addSat (CAN_STAT_REC k) 1, canErrState k] s
    else canReceive k at_ idw flags len data s]) s

/-- A TAIL write to ring r of controller k: 0 receive, 1 TXQ0, 2 TXQ1. -/
def canTail (k r t : Nat) : Act := fun s => ringTail (canRing k r) (getF s (CAN_STAT_STATE k) == 1) t s

/-- CAN_TAIL_WRITE. -/
def execCanTailWrite (src : Master) (k r t : Nat) (s : State) : Host.Outcome State Fault Refusal :=
  done (guarded (if r = 2 then queueWriteOk s (getF s (CAN_TXQ1_OWN_PART k)) src else hostWriteOk src) src
    (if r = 0 then CAN_RXQ_PTR k else if r = 1 then CAN_TXQ0_PTR k else CAN_TXQ1_PTR k) (canTail k r t)) s

/-- R370, R372: the completion word of TXQ1. -/
def canCw (k q status : Nat) : Act := fun s =>
  let a := rd64 s (CAN_TXQ1_CW k)
  if q = 2 ∧ a ≠ 0 then signalWord (.can k) a (pitch16 s) 1 status 6 s else []

/-- A transmit frame ends: descriptor written, HEAD advanced. -/
def canEnd (k q status : Nat) (time : Option Nat) : Act := fun s =>
  let r := canRing k q
  let d := ringHead s r
  seq [unitWrite (.can k) (d + 6) (leBytes 1 status),
    (match time with
     | some t => if numAt s (d + 5) 1 % 2 = 1 then unitWrite (.can k) (d + 8) (leBytes 8 t) else nop
     | none => nop),
    ringAdvance r, upd (.canTx k none),
    whenA (status == 0x90) (incReg (CAN_TX_LATE_CNT k)), icuPend (25 + 2 * k), canCw k q status] s

/-- Is LEN one that a DLC encodes for the frame (R372)? -/
def canLenOk (fd : Bool) (n : Nat) : Bool := decide (n ≤ 8) || (fd && [12, 16, 20, 24, 32, 48, 64].contains n)

/-- Is the head of ring q past its launch by more than 1 ms (R372)? -/
def canLate (s : State) (k q now : Nat) : Bool :=
  let l := numAt s (ringHead s (canRing k q) + 0x10) 8
  l != 0 && decide (l + 1000000 < now)

/-- CAN_FRAME_LAUNCH (R372): TXQ1 ahead of TXQ0; the frame whose launch has come is offered for arbitration. -/
def execCanFrameLaunch (k now : Nat) (s : State) : Host.Outcome State Fault Refusal :=
  done (seq [advance now, fun s =>
    if getF s (CAN_STAT_STATE k) = 0 ∨ getF s (CAN_STAT_ERR k) = 2 then []
    else match [2, 1].find? (fun q => !ringEmpty s (canRing k q) &&
        decide (numAt s (ringHead s (canRing k q) + 0x10) 8 ≤ now)) with
      | none => []
      | some q =>
        let d := ringHead s (canRing k q)
        let fd := bit (numAt s d 4) 30 && flag s (CAN_CTL_FD_EN k)
        let st := readStatus s d 96
        if st ≠ 0 then canEnd k q st none s
        else if canLate s k q now then canEnd k q 0x90 none s
        else if !canLenOk fd (numAt s (d + 4) 1) then canEnd k q 0x92 none s
        else [.canTx k (some q)]]) s

/-- CAN_FRAME_SENT (R372): outcome 0 the frame has been transmitted (its start of frame at `sof`), 1 an attempt failed
with a protocol error, 2 arbitration was lost. A frame not transmitted within 1 ms of its launch ends IF_LATE. -/
def execCanFrameSent (k now sof outcome : Nat) (s : State) : Host.Outcome State Fault Refusal :=
  done (seq [advance now, fun s =>
    match get_canTx s k with
    | none => []
    | some q =>
      let d := ringHead s (canRing k q)
      let idw := numAt s d 4
      let n := numAt s (d + 4) 1
      let data := bytesAt s (d + 0x20) n
      if outcome = 0 then
        seq [incReg (CAN_TX_CNT k), setF (CAN_STAT_TEC k) (getF s (CAN_STAT_TEC k) - 1), canErrState k,
          if flag s (CAN_CTL_LOOP k) then canReceive k sof idw 0 n data else emit (.can k idw data),
          canEnd k q 0 (some sof)] s
      else seq [
        whenA (outcome == 1) (seq [incReg (CAN_ERR_CNT k), addSat (CAN_STAT_TEC k) 8, canErrState k]),
        whenA (canLate s k q now) (canEnd k q 0x90 none)] s]) s

/-- CAN_BUS_OFF (R372). -/
def execCanBusOff (k : Nat) (s : State) : Host.Outcome State Fault Refusal :=
  done (fun s => if getF s (CAN_STAT_STATE k) = 0 ∨ getF s (CAN_STAT_ERR k) = 2 then []
    else seq [setF (CAN_STAT_ERR k) 2, incReg (CAN_BUSOFF_CNT k), upd (.canTx k none), icuPend (25 + 2 * k)] s) s

/-- The controller rejoins error-active with cleared counters. -/
def canRejoin (k : Nat) : Act := seq [setF (CAN_STAT_ERR k) 0, setF (CAN_STAT_TEC k) 0, setF (CAN_STAT_REC k) 0]

/-- CAN_BUS_OFF_RECOVERY (R372): only with RECOVER set. -/
def execCanBusOffRecovery (k : Nat) (s : State) : Host.Outcome State Fault Refusal :=
  done (fun s => if getF s (CAN_STAT_ERR k) = 2 ∧ flag s (CAN_CTL_RECOVER k) then canRejoin k s else []) s

/-- CAN_CTL.EN (R104, R372): setting it again ends a bus-off. -/
def canEnable (k : Nat) (v : Bool) : Act := fun s =>
  seq [whenA (v && getF s (CAN_STAT_STATE k) == 0) (canRejoin k),
    writeEnable (CAN_CTL_EN k) (CAN_STAT_STATE k) v] s

/-- CAN_DISABLE. -/
def execCanDisable (src : Master) (k : Nat) (s : State) : Host.Outcome State Fault Refusal :=
  done (guarded (hostWriteOk src) src (CAN_CTL k) (canEnable k false)) s

/-- Is every transmit descriptor done? -/
def canIdle (s : State) (k : Nat) : Bool := ringEmpty s (canRing k 1) && ringEmpty s (canRing k 2)

/-- Descriptors left at the drain's end end with ABORTED. -/
def canAbort (k q : Nat) : Nat → Act
  | 0 => nop
  | n + 1 => fun s => if ringEmpty s (canRing k q) then [] else seq [canEnd k q 5 none, canAbort k q n] s

/-- The drain timeout of a CAN FD controller. -/
def canDrainTimeout (k : Nat) : Act :=
  seq [canAbort k 2 4096, canAbort k 1 4096, endDrain (CAN_CTL_EN k) (CAN_STAT_STATE k)]

/-! ### SPI (R374, R375) -/

/-- Host clock in kHz: values outside 1,000 to 24,000 are taken as the nearer end. -/
def spiClock (s : State) (k : Nat) : Nat := max 1000 (min 24000 (getF s (SPI_CFG_CLK_KHZ k)))

/-- Device time of the step tick after `now` (R41): T_n + k × 1 ms, or the next pitch tick. -/
def nextStep (s : State) (now : Nat) : Nat :=
  let t := tickTime s
  min (t + ((now - t) / 1000000 + 1) * 1000000) (t + period s)

/-- Word i of a list of bytes, little-endian. -/
def wordOf (bs : List Byte) (i : Nat) : Nat := leNat ((bs.drop (4 * i)).take 4)

/-- The first `n` bytes of eight data words. -/
def wordsBytes (s : State) (w : Nat → Nat) (n : Nat) : List Byte :=
  (((List.range 8).map (fun i => leBytes 4 (rd s (w i)))).flatten).take n

/-- A host transfer starts: its bytes go out. -/
def spiStart (k : Nat) : Act := fun s =>
  seq [setF (SPI_STAT_BUSY k) 1, setF (SPI_STAT_HELD k) 0,
    emit (.spi k (wordsBytes s (SPI_TXD k) (getF s (SPI_CMD_TX_LEN k))))] s

/-- A write to SPI_CMD (R374): GO starts, holds or is ignored; GO reads 0. -/
def spiGo (k w now : Nat) : Act := fun s =>
  let tx := bits w 5 0
  let rx := bits w 13 8
  seq [setF (SPI_CMD_TX_LEN k) tx, setF (SPI_CMD_RX_LEN k) rx, fun s =>
    if !bit w 16 then []
    else if flag s (SPI_STAT_BUSY k) || flag s (SPI_STAT_HELD k) || (tx == 0 && rx == 0) || decide (32 < tx ∨ 32 < rx) then
      setF (SPI_STAT_IGN k) 1 s
    else if flag s (SPI_STEP_EN k) ∧ flag s PCH_CFG_RUN ∧
        nextStep s now < now + ((tx + rx) * 8000000 + spiClock s k - 1) / spiClock s k + 20000 then
      setF (SPI_STAT_HELD k) 1 s
    else spiStart k s] s

/-- SPI_GO. -/
def execSpiGo (src : Master) (k w now : Nat) (s : State) : Host.Outcome State Fault Refusal :=
  done (guarded (hostWriteOk src) src (SPI_CMD k) (seq [advance now, spiGo k w now])) s

/-- SPI_HELD_START (R374): a held transfer starts once the step-tick transfer has ended. -/
def execSpiHeldStart (k : Nat) (s : State) : Host.Outcome State Fault Refusal :=
  done (fun s => if flag s (SPI_STAT_HELD k) ∧ get_spiStepBusy s k = 0 then spiStart k s else []) s

/-- SPI_TRANSFER_DONE (R374): the bytes read enter SPI_RXD, DONE is set and source SPIk fires. -/
def execSpiTransferDone (k : Nat) (data : List Byte) (s : State) : Host.Outcome State Fault Refusal :=
  done (fun s => if !flag s (SPI_STAT_BUSY k) then [] else
    let n := getF s (SPI_CMD_RX_LEN k)
    let bs := ((data ++ List.replicate 32 0).take n) ++ (wordsBytes s (SPI_RXD k) 32).drop n
    seq [forEach (List.range 8) (fun i => wr (SPI_RXD k i) (wordOf bs i)),
      setF (SPI_STAT_BUSY k) 0, setF (SPI_STAT_DONE k) 1, icuPend (36 + k)] s) s

/-! ### I²C (R376, R377) -/

/-- A write to I2C_CMD: GO starts a command or is ignored; GO reads 0. -/
def i2cGo (k w : Nat) : Act := fun s =>
  let wl := bits w 13 8
  let rl := bits w 21 16
  let setLens : Act := seq [setF (I2C_CMD_ADDR k) (bits w 6 0), setF (I2C_CMD_WR_LEN k) wl, setF (I2C_CMD_RD_LEN k) rl]
  if !bit w 24 then setLens s
  else if flag s (I2C_STAT_BUSY k) || decide (32 < wl ∨ 32 < rl) then setF (I2C_STAT_IGN k) 1 s
  else seq [setLens, setF (I2C_STAT_BUSY k) 1,
    emit (.i2c k (bits w 6 0) (wordsBytes s (I2C_DATA k) wl))] s

/-- I2C_GO. -/
def execI2cGo (src : Master) (k w : Nat) (s : State) : Host.Outcome State Fault Refusal :=
  done (guarded (hostWriteOk src) src (I2C_CMD k) (i2cGo k w)) s

/-- A command ends with a result; the bytes read enter I2C_DATA from byte 0. -/
def i2cEnd (k result nack : Nat) (data : List Byte) : Act := fun s =>
  if !flag s (I2C_STAT_BUSY k) then [] else
  let n := if result = 0 then getF s (I2C_CMD_RD_LEN k) else 0
  let bs := ((data ++ List.replicate 32 0).take n) ++ (wordsBytes s (I2C_DATA k) 32).drop n
  seq [forEach (List.range 8) (fun i => wr (I2C_DATA k i) (wordOf bs i)),
    setF (I2C_STAT_RESULT k) result, whenA (result == 1) (setF (I2C_STAT_NACK_BYTE k) nack),
    setF (I2C_STAT_BUSY k) 0, setF (I2C_STAT_DONE k) 1, icuPend (40 + k)] s

/-- I2C_COMMAND_END (R376): 0 OK, 1 NACK at byte `nack`, 2 arbitration lost. -/
def execI2cCommandEnd (k result nack : Nat) (data : List Byte) (s : State) : Host.Outcome State Fault Refusal :=
  done (i2cEnd k (min result 2) nack data) s

/-- I2C_TIMEOUT (R376): SCL was held beyond TMO_MS; the controller frees the bus. -/
def execI2cTimeout (k : Nat) (s : State) : Host.Outcome State Fault Refusal := done (i2cEnd k 3 0 []) s

end Sys2Proof.Machine
end

