-- ==== Sys2Proof/Config.lean ====
section
/-! DEFINITION. Free values and implementation choices: constants without a body. Nothing can be proved of their values,
so every claim holds whatever they are (notes/assumptions name each). -/
namespace Sys2Proof

/-- FREE VALUE. A fresh value of `w` bits for each count of `State.freeCtr`. -/
opaque Config.fresh : Nat → Nat

/-- FREE VALUE. R153: the key by which an engine orders group `i` of the operation that draws the count `n`. -/
opaque Config.groupKey : Nat → Nat → Nat

/-- FREE VALUE. R160: the approximations inside their bounds (operation 0 exp2, 1 log2, 2 reciprocal, 3 reciprocal
square root; FP32 bits in and out). The special values are the machine's, not this function's. -/
opaque Config.approx : Nat → Nat → Nat

/-- FREE VALUE. R112: the order of a floating-point lane reduction is not given; the sum of the lanes' FP32 bits under a
rounding mode. -/
opaque Config.laneSum : Nat → List Nat → Nat

/-- IMPLEMENTATION CHOICE. R158: whether tininess is detected after rounding (IEEE 754 leaves it open). -/
opaque Config.tinyAfter : Bool

/-- FREE VALUE. R112: a shift by 64 or more (scalar) or 32 or more (vector): operation, value, amount. -/
opaque Config.wideShift : Nat → Nat → Nat → Nat

/-- FREE VALUE. R282: does the overlapping byte at this walk offset of a MOVE receive the value the MOVE wrote? -/
opaque Config.moveSeesWrite : Nat → Nat → Bool

/-- FREE VALUE. R347: x, y or z (axis 0, 1, 2) in FP32 bits of a point given as range, azimuth and elevation words. -/
opaque Config.polar : Nat → Nat → Nat → Nat → Nat

/-- FREE VALUE. R347: where a point lies at REF in the vehicle frame, in mm: free count, point index, axis. -/
opaque Config.deskew : Nat → Nat → Nat → Int

/-- FREE VALUE. R397, R403: an FP32 result of the fusion unit. The spec gives the formula and FP32, not the order of the
roundings: operation, FP32 operands, and the formula rounded operation by operation. -/
opaque Config.fusVal : Nat → List Nat → Nat → Nat

/-- FREE VALUE. R387, R389, R395, R396: a coordinate that a rotation gives (sine and cosine in FP32 are not specified):
operation, operands. -/
opaque Config.fusGeo : Nat → List Nat → Nat

/-- FREE VALUE. R388: the cell that a yaw step of 0.25° takes a grid cell to: step, axis, cell. -/
opaque Config.rotCell : Int → Nat → Int → Int → Int

/-- FREE VALUE. R390: the accumulators of a context after one more pair: old words and the pair's operands. -/
opaque Config.calAdd : List Nat → List Nat → List Nat

/-- FREE VALUE. R391: component i, in mm or µrad, of the solution of a context's accumulators. -/
opaque Config.calSolve : List Nat → Nat → Int

/-- FREE VALUE. R416, R417: the cell in which a lattice point falls (262,144 and above: outside the grid), by edge words,
sample, rectangle, lattice point, pose and configuration: the rotations' rounding is not given. -/
opaque Config.trvCell : List Nat → Nat

/-- FREE VALUE. R443: the spotter objects (class, score, X_CM, Y_CM) that the spotter bundle gives on its input buffers;
the network is the bundle's, and the bundle's form is not published. -/
opaque Config.spotter : List Byte → List Byte → List (Nat × Nat × Int × Int)

/-- FREE VALUE. R452: a number of the belay plan (what: 0 speed, 1 X_CM, 2 Y_CM, 3 YAW) by the held trajectory and the
time, with the value that integer steps give where there is one. -/
opaque Config.belayVal : Nat → List Int → Int → Int

/-- FREE VALUE. R207: exp in FP32; R211: the logistic in FP16 (the spec names the functions, not their rounding). -/
opaque Config.boxExp : Nat → Nat
opaque Config.boxLogistic : Nat → Nat

/-- IMPLEMENTATION CHOICE. R228: the size of cache `c`'s prefix tree, as a power of two above 256 (taken modulo 9); the
KVCACHE entry has no field for it. -/
opaque Config.kvTree : Nat → Nat

/-- IMPLEMENTATION CHOICE. R489: the SHA-256 of the Limjor root modulus in mask ROM. -/
opaque Config.rootHash : List Byte

/-- IMPLEMENTATION CHOICE. R498: the modulus of this device's key, as the device certificate carries it. -/
opaque Config.deviceModulus : List Byte

/-- FREE VALUE. R503: the signature of the device key over a quote (the private key is not a value of the model). -/
opaque Config.quoteSig : List Byte → List Byte

end Sys2Proof
end

