-- ==== Sys2Proof/Machine/Float.lean ====
section
/-! DEFINITION. The number formats of R137 to R144 and exact arithmetic on them: a finite value is sign, magnitude
and power of two; every operation is exact, and one rounding narrows the result (R148, R157, R158). -/
namespace Sys2Proof.Machine

/-- A floating-point format (R137, R140): exponent bits, mantissa bits, bias; `special` 0 IEEE infinities and NaNs,
1 E4M3 (all-ones NaN, no infinity), 2 MX element (every code a number). -/
structure FFmt where
  ebits : Nat
  mbits : Nat
  bias : Int
  special : Nat
  deriving DecidableEq, Repr

def fp32 : FFmt := ⟨8, 23, 127, 0⟩
def fp16 : FFmt := ⟨5, 10, 15, 0⟩
def bf16 : FFmt := ⟨8, 7, 127, 0⟩
def e4m3 : FFmt := ⟨4, 3, 7, 1⟩
def e5m2 : FFmt := ⟨5, 2, 15, 0⟩
def e2m1 : FFmt := ⟨2, 1, 1, 2⟩
def e2m3 : FFmt := ⟨2, 3, 1, 2⟩
def e3m2 : FFmt := ⟨3, 2, 3, 2⟩

/-- A value: NaN, an infinity, or (−1)^neg × m × 2^e. -/
inductive FVal where
  | nan
  | inf (neg : Bool)
  | fin (neg : Bool) (m : Nat) (e : Int)
  deriving DecidableEq, Repr

/-- The value of an encoding (R137): every encoding is accepted, subnormals keep their value (R139). -/
def fDecode (f : FFmt) (w : Nat) : FVal :=
  let neg := bit w (f.ebits + f.mbits)
  let ex := bits w (f.ebits + f.mbits - 1) f.mbits
  let m := w % 2 ^ f.mbits
  if f.special = 0 ∧ ex = 2 ^ f.ebits - 1 then (if m = 0 then .inf neg else .nan)
  else if f.special = 1 ∧ ex = 2 ^ f.ebits - 1 ∧ m = 2 ^ f.mbits - 1 then .nan
  else if ex = 0 then .fin neg m (1 - f.bias - f.mbits)
  else .fin neg (m + 2 ^ f.mbits) ((ex : Int) - f.bias - f.mbits)

/-- Canonical NaN of a format (R139). -/
def fNaN (f : FFmt) : Nat :=
  if f.special = 1 then 0x7F
  else (2 ^ f.ebits - 1) * 2 ^ f.mbits + 2 ^ (f.mbits - 1)

/-- Infinity of a sign. -/
def fInf (f : FFmt) (neg : Bool) : Nat :=
  (if neg then 2 ^ (f.ebits + f.mbits) else 0) + (2 ^ f.ebits - 1) * 2 ^ f.mbits

/-- Largest finite magnitude's encoding, without sign. -/
def fMaxCode (f : FFmt) : Nat :=
  match f.special with
  | 0 => (2 ^ f.ebits - 1) * 2 ^ f.mbits - 1
  | 1 => 2 ^ (f.ebits + f.mbits) - 2
  | _ => 2 ^ (f.ebits + f.mbits) - 1

/-- Round `m / 2^k` to an integer: mode 0 nearest even, 1 toward zero, 2 toward −infinity, 3 toward +infinity
(R159). Answers the integer and whether it is inexact. -/
def roundShift (mode : Nat) (neg : Bool) (m k : Nat) : Nat × Bool :=
  let q := m / 2 ^ k
  let r := m % 2 ^ k
  let up : Bool :=
    match mode with
    | 0 => decide (2 * r > 2 ^ k) || (decide (2 * r = 2 ^ k) && decide (q % 2 = 1))
    | 1 => false
    | 2 => neg && decide (r ≠ 0)
    | _ => !neg && decide (r ≠ 0)
  (if up then q + 1 else q, decide (r ≠ 0))

/-- What one rounding into a format gives: code without sign (past the largest if `beyond`), inexact, tiny. -/
structure FRound where
  code : Nat
  beyond : Bool
  inexact : Bool
  tiny : Bool
  deriving DecidableEq, Repr

/-- Round the magnitude m × 2^e of a sign into a format. -/
def fRoundMag (f : FFmt) (mode : Nat) (neg : Bool) (m : Nat) (e : Int) : FRound :=
  if m = 0 then ⟨0, false, false, false⟩
  else
    let lead : Int := e + Nat.log2 m
    let emin : Int := 1 - f.bias
    let q : Int := max lead emin - f.mbits
    let (r, ix) := if e ≥ q then (m * 2 ^ (e - q).toNat, false) else roundShift mode neg m (q - e).toNat
    -- a rounding up to the next power of two moves one binade up by itself: the code is linear in r
    let code := if r < 2 ^ f.mbits then r
      else ((q + f.mbits + f.bias - 1).toNat) * 2 ^ f.mbits + r
    let tinyB := decide (lead < emin)
    let tiny := if Config.tinyAfter then tinyB && decide (r < 2 ^ f.mbits) else tinyB
    ⟨code, decide (code > fMaxCode f), ix, tiny⟩

/-- Sticky flags (R159). -/
abbrev flNV : Nat := 1
abbrev flDZ : Nat := 2
abbrev flOF : Nat := 4
abbrev flUF : Nat := 8
abbrev flNX : Nat := 16

/-- Sign bit of a format. -/
def fSign (f : FFmt) (neg : Bool) : Nat := if neg then 2 ^ (f.ebits + f.mbits) else 0

/-- Encode an exact value in an IEEE format under a rounding mode, with the flags it raises (R158). -/
def fEncode (f : FFmt) (mode : Nat) : FVal → Nat × Nat
  | .nan => (fNaN f, 0)
  | .inf neg => (fInf f neg, 0)
  | .fin neg m e =>
    let r := fRoundMag f mode neg m e
    if r.beyond then
      let toInf := match mode with
        | 0 => true
        | 1 => false
        | 2 => neg
        | _ => !neg
      ((if toInf then fInf f neg else fSign f neg + fMaxCode f), flOF + flNX)
    else
      (fSign f neg + r.code,
        (if r.inexact then flNX else 0) + (if r.inexact && r.tiny then flUF else 0))

/-- The integer m × 2^e at a common exponent. -/
def fAlign (neg : Bool) (m : Nat) (e lo : Int) : Int :=
  (if neg then -1 else 1) * ((m * 2 ^ (e - lo).toNat : Nat) : Int)

/-- Exact sum; `rdn` decides the sign of an exact zero (R158, IEEE 754). -/
def fAdd (mode : Nat) : FVal → FVal → FVal
  | .nan, _ => .nan
  | _, .nan => .nan
  | .inf a, .inf b => if a = b then .inf a else .nan
  | .inf a, _ => .inf a
  | _, .inf b => .inf b
  | .fin na ma ea, .fin nb mb eb =>
    let lo := min ea eb
    let t := fAlign na ma ea lo + fAlign nb mb eb lo
    if t = 0 then .fin (if ma = 0 ∧ mb = 0 ∧ na = nb then na else mode = 2) 0 lo
    else .fin (decide (t < 0)) t.natAbs lo

/-- Exact product (R149: infinity times zero is NaN). -/
def fMul : FVal → FVal → FVal
  | .nan, _ => .nan
  | _, .nan => .nan
  | .inf a, .inf b => .inf (a != b)
  | .inf a, .fin b m _ => if m = 0 then .nan else .inf (a != b)
  | .fin a m _, .inf b => if m = 0 then .nan else .inf (a != b)
  | .fin na ma ea, .fin nb mb eb => .fin (na != nb) (ma * mb) (ea + eb)

/-- Negation. -/
def fNeg : FVal → FVal
  | .nan => .nan
  | .inf a => .inf (!a)
  | .fin a m e => .fin (!a) m e

/-- Magnitude. -/
def fAbs : FVal → FVal
  | .nan => .nan
  | .inf _ => .inf false
  | .fin _ m e => .fin false m e

/-- Did the operation invent a NaN (invalid operation)? -/
def fInvalid (r : FVal) (ins : List FVal) : Nat := if r = .nan ∧ ¬ ins.contains .nan then flNV else 0

/-- Exact quotient to far more bits than any format keeps, with a sticky last bit. -/
def fDiv (a b : FVal) : FVal :=
  match a, b with
  | .nan, _ => .nan
  | _, .nan => .nan
  | .inf _, .inf _ => .nan
  | .inf x, .fin y _ _ => .inf (x != y)
  | .fin x _ _, .inf y => .fin (x != y) 0 0
  | .fin x ma ea, .fin y mb eb =>
    if mb = 0 then (if ma = 0 then .nan else .inf (x != y))
    else
      let n := ma * 2 ^ 128
      .fin (x != y) (2 * (n / mb) + (if n % mb = 0 then 0 else 1)) (ea - eb - 129)

/-- Order of two numbers (neither NaN): −1, 0 or 1; −0 and +0 are equal. -/
def fCmp : FVal → FVal → Int
  | .inf a, .inf b => if a = b then 0 else if a then -1 else 1
  | .inf a, _ => if a then -1 else 1
  | _, .inf b => if b then 1 else -1
  | .fin na ma ea, .fin nb mb eb =>
    let lo := min ea eb
    let t := fAlign na ma ea lo - fAlign nb mb eb lo
    if t < 0 then -1 else if t = 0 then 0 else 1
  | _, _ => 0

/-- Less than; false when an operand is NaN (R158). -/
def fLt (a b : FVal) : Bool := a != .nan && b != .nan && fCmp a b == -1
/-- Equal as numbers; false when an operand is NaN. -/
def fEq (a b : FVal) : Bool := a != .nan && b != .nan && fCmp a b == 0

/-- Is the value zero? -/
def fIsZero : FVal → Bool
  | .fin _ m _ => m == 0
  | _ => false

/-- Sign of a value. -/
def fIsNeg : FVal → Bool
  | .nan => false
  | .inf a => a
  | .fin a _ _ => a

/-- Minimum (R158): the number when one operand is NaN; −0 below +0. -/
def fMin (a b : FVal) : FVal :=
  if a = .nan then b else if b = .nan then a
  else if fCmp a b = -1 then a else if fCmp a b = 1 then b else if fIsNeg a then a else b

/-- Maximum (R158). -/
def fMax (a b : FVal) : FVal :=
  if a = .nan then b else if b = .nan then a
  else if fCmp a b = 1 then a else if fCmp a b = -1 then b else if fIsNeg a then b else a

/-- An integer as an exact value. -/
def fOfInt (i : Int) : FVal := .fin (decide (i < 0)) i.natAbs 0

/-- Round a finite value to an integer. -/
def fToInt (mode : Nat) (neg : Bool) (m : Nat) (e : Int) : Int × Bool :=
  let (q, ix) := if e ≥ 0 then (m * 2 ^ e.toNat, false) else roundShift mode neg m (-e).toNat
  ((if neg then -(q : Int) else q), ix)

/-- Range of an integer format code (R137, R144). -/
def intRange (fmt : Nat) : Int × Int :=
  match fmt with
  | 0 => (-128, 127)
  | 1 => (0, 255)
  | 2 => (-8, 7)
  | _ => (-(2 ^ 31), 2 ^ 31 - 1)

/-- Bits of an element of a format code; an integer code is two's complement (R137, R144). -/
def fmtBits (fmt : Nat) : Nat :=
  match fmt with
  | 0 | 1 | 3 | 4 | 9 => 8
  | 2 | 0xC => 4
  | 5 | 6 => 16
  | 0xA | 0xB => 6
  | _ => 32

/-- Is the code an integer format? -/
def fmtIsInt (fmt : Nat) : Bool := fmt ≤ 2 || fmt == 8

/-- The floating format of a code. -/
def fmtFloat (fmt : Nat) : FFmt :=
  match fmt with
  | 3 => e4m3
  | 4 => e5m2
  | 5 => fp16
  | 6 => bf16
  | 0xA => e2m3
  | 0xB => e3m2
  | 0xC => e2m1
  | _ => fp32

/-- The value of an element of a format code: integers exactly, MXINT8 as code / 64 (R140). -/
def fmtDecode (fmt w : Nat) : FVal :=
  if fmt = 1 then .fin false (w % 256) 0
  else if fmtIsInt fmt then fOfInt (toSigned (fmtBits fmt) w)
  else if fmt = 9 then
    match fOfInt (toSigned 8 w) with
    | .fin n m e => .fin n m (e - 6)
    | v => v
  else fDecode (fmtFloat fmt) w

/-- What a conversion gives: code, saturated, NaN written, flags raised (R157). -/
structure Conv where
  code : Nat
  satd : Bool
  nan : Bool
  flags : Nat
  deriving DecidableEq, Repr

/-- R157: conversion of an exact value to a narrower format. -/
def convTo (fmt mode : Nat) (sat : Bool) (v : FVal) : Conv :=
  if fmtIsInt fmt then
    let (lo, hi) := intRange fmt
    let n := fmtBits fmt
    match v with
    | .nan => ⟨0, false, false, flNV⟩
    | .inf neg => ⟨ofSigned n (if neg then lo else hi), true, false, flNV⟩
    | .fin neg m e =>
      let (i, ix) := fToInt mode neg m e
      if i < lo then ⟨ofSigned n lo, true, false, flOF + flNX⟩
      else if hi < i then ⟨ofSigned n hi, true, false, flOF + flNX⟩
      else ⟨ofSigned n i, false, false, if ix then flNX else 0⟩
  else
    let f := fmtFloat fmt
    match v with
    | .nan => ⟨fNaN f, false, true, 0⟩
    | .inf neg =>
      if sat then ⟨fSign f neg + fMaxCode f, true, false, flOF + flNX⟩
      else if f.special = 1 then ⟨fNaN f, false, true, 0⟩
      else ⟨fInf f neg, false, false, 0⟩
    | .fin neg m e =>
      let r := fRoundMag f mode neg m e
      if r.beyond then
        if sat then ⟨fSign f neg + fMaxCode f, true, false, flOF + flNX⟩
        else if f.special = 1 then ⟨fNaN f, false, true, flOF + flNX⟩
        else ⟨fInf f neg, false, false, flOF + flNX⟩
      else ⟨fSign f neg + r.code, false, false,
        (if r.inexact then flNX else 0) + (if r.inexact && r.tiny then flUF else 0)⟩

/-- Largest element exponent e_max of an MX format (R140). -/
def mxEmax (fmt : Nat) : Int :=
  match fmt with
  | 0xC => 2
  | 0xA => 2
  | 0xB => 4
  | _ => 0

/-- R161 step 5: an element rounded to an MX element format and saturated to its largest magnitude. -/
def mxElem (fmt mode : Nat) (v : FVal) : Nat × Bool × Bool :=
  match v with
  | .fin neg m e =>
    if fmt = 9 then
      let (i, ix) := fToInt mode neg m (e + 6)
      if i < -128 then (ofSigned 8 (-128), true, true)
      else if 127 < i then (ofSigned 8 127, true, true)
      else (ofSigned 8 i, ix, false)
    else
      let f := fmtFloat fmt
      let r := fRoundMag f mode neg m e
      if r.beyond then (fSign f neg + fMaxCode f, true, true) else (fSign f neg + r.code, r.inexact, false)
  | _ => (0, false, false)

/-- R161: encode values into one MX block: elements, scale, rounded, saturated. -/
def mxEncode (fmt mode : Nat) (vs : List FVal) : List Nat × Nat × Bool × Bool :=
  if vs.any (fun v => match v with | .fin _ _ _ => false | _ => true) then (vs.map fun _ => 0, 0xFF, false, false)
  else
    let a := (vs.map fAbs).foldl fMax (.fin false 0 0)
    match a with
    | .fin _ m e =>
      if m = 0 then (vs.map fun _ => 0, 0, false, false)
      else
        let x : Int := max (-127) (min 127 (e + Nat.log2 m - mxEmax fmt))
        let el := vs.map fun v => mxElem fmt mode (match v with
          | .fin n mm ee => .fin n mm (ee - x)
          | w => w)
        (el.map (·.1), (x + 127).toNat, el.any (·.2.1), el.any (·.2.2))
    | _ => (vs.map fun _ => 0, 0, false, false)

/-- The value of a block scale (R140): 0xFF is NaN. -/
def mxScale (x : Nat) : FVal := if x = 0xFF then .nan else .fin false 1 ((x : Int) - 127)

/-- Pack elements of `n` bits little-endian (R138, R141). -/
def packBits (n : Nat) : List Nat → Nat
  | [] => 0
  | x :: xs => x % 2 ^ n + 2 ^ n * packBits n xs

/-- Element `i` of `n` bits of a packed number. -/
def unpackBit (n w i : Nat) : Nat := w / 2 ^ (n * i) % 2 ^ n

end Sys2Proof.Machine
end

