-- ==== Sys2Proof/Machine/Ingress.lean ====
section
/-! DEFINITION. The ingress pipeline (spec/14 R340 to R365): frame sync, camera and lidar stages, phase and lock,
repeat and frozen check, announcements, deadlines, enables. -/
namespace Sys2Proof.Machine

/-! ### Entry fields (R361) -/

/-- Stream context `x`. -/
def ctx (s : State) (x : Nat) : Ctx := get_ctxs s x
/-- Replace a context's state. -/
def setCtx (x : Nat) (f : Ctx → Ctx) : Act := fun s => [.ctxs x (f (ctx s x))]
/-- Replace the sample in progress. -/
def setCur (x : Nat) (f : Sample → Sample) : Act := setCtx x (fun c => { c with cur := c.cur.map f })
/-- Is the context a lidar? -/
def isLidar (s : State) (x : Nat) : Bool := ctxNum s x 1 1 == 1
def ctxOff (s : State) (x : Nat) : Nat := ctxNum s x 4 4 * 1000
def ctxExp (s : State) (x : Nat) : Nat := ctxNum s x 0x0C 4
def ctxDl (s : State) (x : Nat) : Nat := ctxNum s x 0x14 4 * 1000
def ctxFlag (s : State) (x i : Nat) : Bool := bit (ctxNum s x 0x0A 2) i
def ctxCw (s : State) (x : Nat) : Nat := ctxNum s x 0x20 8
/-- A signed field of an entry. -/
def ctxInt (s : State) (x o n : Nat) : Int := toSigned (8 * n) (ctxNum s x o n)
/-- Is the context ON? -/
def ctxOn (s : State) (x : Nat) : Bool := getF s (ING_CTX_STAT_STATE x) == 1
/-- Is a partition ACTIVE (R261)? -/
def partActive (s : State) (p : Nat) : Bool := decide (p < 16) && getF s (PRT_STAT_STATE p) == 2
/-- Due time of the tick of pitch n: T_n = (N0 + n) × P (R37). -/
def tickDue (s : State) (n : Nat) : Nat := (s.n0 + n) * period s
/-- Level-L width or height of the staged image (R344). -/
def pyrDim (v l : Nat) : Nat := v / 2 ^ l
/-- Space-to-depth factor (R346): 2 or 4; otherwise none. -/
def ctxS2d (s : State) (x : Nat) : Nat := max 1 (ctxNum s x 0x68 1)
/-- Rows of the output tensor of OUT0 (R352). -/
def out0Rows (s : State) (x : Nat) : Nat := pyrDim (ctxNum s x 0x62 2) (ctxNum s x 0x65 1) / ctxS2d s x
/-- NBANDS (R352): none for a lidar. -/
def nBands (s : State) (x : Nat) : Nat :=
  if isLidar s x then 0
  else let b := max 1 (ctxNum s x 0x6A 2); (out0Rows s x + b - 1) / b

/-! ### Messages and task end -/

/-- R357: a change of LOCKED (0) or FROZEN (1) goes to both anchor dies. -/
def stateMsg (x which v : Nat) : Act := sendEvent 1 [1, x, which, v] 8 0

/-- The task number of an owner in the image in force (R458). -/
def taskOf (s : State) (owner : Nat) : Option Nat := (s.supTasks.find? (fun t => t.owner == owner)).map (·.task)

/-- A fixed-function unit reports its task's end to both anchor mailboxes (R52, R440). -/
def reportTask (owner : Nat) : Act := fun s =>
  match taskOf s owner with
  | some t => sendFwd (.report t owner) s
  | none => []

/-- Has every ON context made its final announcement of pitch n (R356)? -/
def ingressDone (s : State) (n : Nat) : Bool :=
  (List.range 24).all (fun x => !ctxOn s x || (ctx s x).finalFor == some n)

/-! ### Lock (R349 to R351) -/

/-- Entering RELOCK from LOCKED: counters cleared, counted, sent to the anchors, a pulse omitted with GAP (R358). -/
def enterRelock (x : Nat) : Act := fun s =>
  let o := ctxNum s x 3 1
  seq [setF (ING_CTX_STAT_LOCKED x) 0, setF (ING_CTX_STAT_RELOCK_PITCHES x) 0,
    setCtx x (fun c => { c with outRun := 0, good := 0, sigs := [], rptRun := 0, freshRun := 0 }),
    incReg (ING_CTX_RELOCK_CNT x), stateMsg x 0 0,
    whenA (decide (o < 16) && ctxFlag s x 2) (upd (.fsyOmit o 1))] s

/-- What the lock update gives a sample: a status, or 0 to use it (R351). -/
structure LockOut where
  excl : Nat
  act : Act

/-- R351: the lock update of one sample of pitch `m` with phase φ. -/
def lockUpdate (s : State) (x m : Nat) (phi : Int) : LockOut :=
  let c := ctx s x
  let p : Int := period s
  let rn := ctxNum s x 0x1A 1
  let run (n : Nat) : Act := setF (ING_CTX_STAT_RUN x) (min n 15)
  if flag s (ING_CTX_STAT_LOCKED x) then
    let tie := setCtx x (fun c => { c with lastPitch := some m })
    if p < phi.natAbs then ⟨0x25, seq [tie, enterRelock x, run 0]⟩
    else if p < 2 * (phi.natAbs : Int) then
      let r := c.outRun + 1
      ⟨0x24, seq [tie, setCtx x (fun c => { c with outRun := r }), run r, whenA (decide (rn ≤ r)) (seq [enterRelock x, run 0])]⟩
    else ⟨0, seq [tie, setCtx x (fun c => { c with outRun := 0 }), run 0]⟩
  else
    let g := if 2 * (phi.natAbs : Int) ≤ p then (if c.lastPitch = some (m - 1) ∧ 1 ≤ m ∧ 0 < c.good then c.good + 1 else 1) else 0
    if rn ≤ g ∧ 0 < g then
      ⟨0, seq [setCtx x (fun c => { c with lastPitch := some m, good := 0, outRun := 0 }), run 0,
        setF (ING_CTX_STAT_LOCKED x) 1, setF (ING_CTX_STAT_RELOCK_PITCHES x) 0, stateMsg x 0 1]⟩
    else ⟨0x25, seq [setCtx x (fun c => { c with lastPitch := some m, good := g }), run g]⟩

/-- R350: the repeat and frozen check of a signature; `mark` notes a repeat on the sample or revolution. -/
def signature (x g : Nat) (mark : Bool → Act) : Act := fun s =>
  let c := ctx s x
  let rpt := c.sigs.contains g
  let rr := if rpt then c.rptRun + 1 else 0
  let fr := if rpt then 0 else c.freshRun + 1
  let was := flag s (ING_CTX_STAT_FROZEN x)
  let now := if rpt then was || decide (ctxNum s x 0x18 1 ≤ rr) else was && decide (fr < ctxNum s x 0x19 1)
  seq [setCtx x (fun c => { c with sigs := (g :: c.sigs).take 4, rptRun := rr, freshRun := fr }),
    wr64 (ING_CTX_SIG x) g, whenA rpt (incReg (ING_CTX_RPT_CNT x)),
    setF (ING_CTX_STAT_FROZEN x) (if now then 1 else 0),
    whenA (was != now) (stateMsg x 1 (if now then 1 else 0)), mark rpt] s

/-- One byte of the CRC-64 with the ECMA-182 polynomial (R350). -/
def crc64Byte (c : Nat) (b : Byte) : Nat :=
  (List.range 8).foldl (fun c _ =>
    if bit c 63 then Nat.xor (c * 2 % 2 ^ 64) 0x42F0E1EBA9EA3693 else c * 2 % 2 ^ 64) (Nat.xor c (b.toNat * 2 ^ 56))

/-- CRC-64 of bytes onto a running value. -/
def crc64 (c : Nat) (bs : List Byte) : Nat := bs.foldl crc64Byte c

/-! ### The end of a sample (R352 to R356) -/

/-- Status of a sample, by the first that applies (R354); `late` if its end is at or after DL_US. -/
def sampleStatus (s : State) (x : Nat) (sm : Sample) (late : Bool) : Nat :=
  if sm.excl ≠ 0 then sm.excl
  else if late then 0x21
  else if sm.link then 0x22
  else if sm.shape then 0x23
  else if sm.gap then 0x28
  else if flag s (ING_CTX_STAT_FROZEN x) then 0x27
  else if sm.rpt || (isLidar s x && (ctx s x).revRpt) then 0x26
  else sm.wErr

/-- The sample header (R362). -/
def sampleHeader (s : State) (x : Nat) (sm : Sample) (status inst : Nat) : List Byte :=
  leBytes 2 sm.pitch ++ leBytes 1 x ++ leBytes 1 status ++
  leBytes 1 (getF s (ING_CTX_STAT_LOCKED x) + 2 * getF s (ING_CTX_STAT_FROZEN x)) ++ leBytes 3 0 ++
  leBytes 8 inst ++ leBytes 8 (if isLidar s x then sm.tMin else sm.fs) ++
  leBytes 8 (if isLidar s x then sm.tMax else sm.fe.getD 0) ++ leBytes 8 (ofSigned 64 sm.phase) ++
  leBytes 8 (rd64 s (ING_CTX_SIG x)) ++
  leBytes 4 (if isLidar s x then (ctx s x).rev.getD 0 else (ctx s x).frames) ++
  leBytes 4 sm.npts ++ leBytes 4 sm.drop ++ leBytes 4 0

/-- The sample's instant (R349): FS − EXP_NS + INST_OFF_NS for a camera, REF for a lidar. -/
def sampleInstant (s : State) (x : Nat) (sm : Sample) : Nat :=
  if isLidar s x then tickDue s sm.pitch + ctxOff s x
  else ofSigned 64 ((sm.fs : Int) - ctxExp s x + ctxInt s x 0x10 4)

/-- The spotter copy: a 16-byte header, and the data of a used sample (R352, R443). -/
def spotCopy (x m status inst : Nat) (data : List Byte) : Act :=
  sendFwd (.spot x (leBytes 2 m ++ leBytes 1 x ++ leBytes 1 status ++ leBytes 4 0 ++ leBytes 8 inst ++
    (if status = 0 then data else [])))

/-- What every final announcement does beside the header (R352, R356, R359): spotter status, completion word, registers,
and the end of the INGRESS task. The partition's memory is written only while it is ACTIVE. -/
def finalCommon (x m status k inst : Nat) (spot : List Byte) : Act := fun s =>
  seq [whenA (ctxFlag s x 1) (spotCopy x m status inst spot),
    whenA (partActive s (ctx s x).part) (signalWord .ingress (ctxCw s x) (m % 2 ^ 16) (nBands s x + 1 - k) status 2),
    wr (ING_CTX_LAST x) (m % 2 ^ 16 + status * 2 ^ 16),
    (if status = 0 then incReg (ING_CTX_OK_CNT x) else incReg (ING_CTX_EXCL_CNT x)),
    setCtx x (fun c => { c with finalFor := some m, cur := none }),
    fun s => if m = pitchNum s ∧ ingressDone s m then reportTask 0x10 s else []] s

/-- The final announcement of the sample in progress (R352). -/
def finalSample (x : Nat) (sm : Sample) (status : Nat) : Act := fun s =>
  let inst := sampleInstant s x sm
  let hdr := ctxNum s x 0x28 8
  seq [whenA (partActive s (ctx s x).part) (unitWrite .ingress hdr (sampleHeader s x sm status inst)),
    wr64 (ING_CTX_STAMP x) inst,
    finalCommon x sm.pitch status sm.k inst sm.spot] s

/-- FINAL_ANNOUNCE (R352): a camera sample whose frame end has come, or a staged lidar grid. -/
def execFinalAnnounce (x now : Nat) (s : State) : Host.Outcome State Fault Refusal :=
  done (seq [advance now, fun s =>
    match (ctx s x).cur with
    | some sm => if sm.fe = none then [] else
        finalSample x sm (sampleStatus s x sm (decide (tickDue s sm.pitch + ctxDl s x ≤ now))) s
    | none => []]) s

/-- INGRESS_DEADLINE (R355): every ON context past DL_US without a final announcement of the pitch makes it, with
ING_MISSING where no frame start or packet arrived and ING_LATE otherwise, an exclusion of the lock going first. -/
def execIngressDeadline (now : Nat) (s : State) : Host.Outcome State Fault Refusal :=
  done (seq [advance now, forEach (List.range 24) (fun x => fun s =>
    let n := pitchNum s
    if !ctxOn s x || (ctx s x).finalFor == some n || decide (now < tickTime s + ctxDl s x) then []
    else match (ctx s x).cur with
      | some sm => if sm.pitch = n then finalSample x sm (sampleStatus s x sm true) s
          else finalCommon x n 0x20 0 0 [] s
      | none => finalCommon x n (if isLidar s x ∧ 0 < (ctx s x).packets then 0x21 else 0x20) 0 0 [] s)]) s

/-! ### Camera (R341, R344, R346, R349) -/

/-- Expected frame start of pitch 0 of a context. -/
def expect0 (s : State) (x : Nat) : Int := (tickDue s 0 + ctxOff s x + ctxExp s x : Nat)

/-- R349: the pitch a frame start belongs to, and whether the frame number shows a gap. -/
def attributeFrame (s : State) (x fs fn : Nat) : Nat × Bool :=
  let c := ctx s x
  let p : Int := period s
  let w0 := ctxNum s x 0x6C 2
  let w := if w0 = 0 then 65535 else w0
  match flag s (ING_CTX_STAT_LOCKED x), c.lastPitch with
  | true, some l =>
    if ctxFlag s x 0 then
      let d := if c.lastFn ≤ fn then fn - c.lastFn else fn + w - c.lastFn
      (l + d, d != 1)
    else (l + 1, false)
  | _, _ => ((Int.toNat (-((p - 2 * ((fs : Int) - expect0 s x)) / (2 * p)))), false)

/-- FRAME_START (R349, R351, R355): stamped, attributed, its phase measured, the lock updated, kept or discarded. A
frame still without its end ends with ING_SHAPE. -/
def execFrameStart (x fs fn : Nat) (s : State) : Host.Outcome State Fault Refusal :=
  done (seq [advance fs, fun s =>
    if !ctxOn s x then incReg (ING_CTX_IGN_CNT x) s
    else seq [
      (match (ctx s x).cur with
       | some sm => if sm.fe = none then finalSample x sm (sampleStatus s x { sm with shape := true } false) else nop
       | none => nop),
      fun s =>
        let (m, gap) := attributeFrame s x fs fn
        let phi : Int := (fs : Int) - (tickDue s m + ctxOff s x + ctxExp s x : Nat)
        let second := !flag s (ING_CTX_STAT_LOCKED x) && (ctx s x).kept == some m
        let late := decide (tickDue s m + ctxDl s x < fs)
        let lo := lockUpdate s x m phi
        seq [wr64 (ING_CTX_PHASE x) (ofSigned 64 phi),
          setCtx x (fun c => { c with frames := (c.frames + 1) % 2 ^ 32, lastFn := fn }),
          if second then incReg (ING_CTX_LATE_CNT x)
          else seq [lo.act,
            if late || (ctx s x).finalFor == some m then incReg (ING_CTX_LATE_CNT x)
            else setCtx x (fun c => { c with
              kept := some m,
              cur := some { pitch := m, fs := fs, phase := phi, excl := lo.excl, shape := gap } })]] s] s]) s

/-- Bytes of a line of the data type (R340). -/
def lineBytes (dt w : Nat) : Nat :=
  if dt = 0x2A then w else if dt = 0x2B then w * 5 / 4 else if dt = 0x2C then w * 3 / 2
  else if dt = 0x2D then w * 7 / 4 else w * 2

/-- LINE_PACKET (R341, R344): header ECC 0 good, 1 corrected, 2 uncorrectable; payload CRC; embedded data discarded. -/
def execLinePacket (x dt ecc : Nat) (crcOk : Bool) (bytes : List Byte) (s : State) : Host.Outcome State Fault Refusal :=
  done (fun s =>
    let p := ctxNum s x 2 1 % 8
    let bad := decide (ecc = 2) || !crcOk
    if (ctx s x).cur = none ∧ ¬ ctxOn s x then incReg (ING_CTX_IGN_CNT x) s
    else seq [whenA (ecc == 1) (incReg (ING_CSI_ECC_CNT p)), whenA bad (incReg (ING_CSI_CRC_CNT p)),
      setCur x (fun sm =>
        if sm.fe ≠ none ∨ (dt = 0x12 ∧ ecc ≠ 2) then { sm with link := sm.link || bad }
        else
          { sm with
            link := sm.link || bad
            shape := sm.shape || dt != ctxNum s x 0x44 1 || bytes.length != lineBytes dt (ctxNum s x 0x40 2)
            lines := sm.lines + 1
            crc := if dt = ctxNum s x 0x44 1 then crc64 sm.crc bytes else sm.crc
            raw := if ctxFlag s x 3 ∧ ctxNum s x 0x67 1 % 16 = 5 then sm.raw ++ [bytes] else sm.raw })] s) s

/-- FRAME_END (R344, R350): stamped, line count checked, signature checked. -/
def execFrameEnd (x now : Nat) (s : State) : Host.Outcome State Fault Refusal :=
  done (seq [advance now, fun s =>
    match (ctx s x).cur with
    | none => []
    | some sm =>
      if sm.fe ≠ none ∨ isLidar s x then []
      else seq [setCur x (fun sm => { sm with fe := some now, shape := sm.shape || sm.lines != ctxNum s x 0x42 2 }),
        signature x sm.crc (fun r => setCur x (fun sm => { sm with rpt := r }))] s]) s

/-! ### Bands (R346, R352) -/

/-- A free byte of an image output: the pixel stages' coefficient layouts are not published. -/
def freeByte (c i : Nat) : Byte := BitVec.ofNat 8 (Config.fresh (c + i))

/-- The sensor value at column `i` of a raw line (CSI-2 packing: the high bytes of a group, then the low bits). -/
def rawPixel (dt : Nat) (line : List Byte) (i : Nat) : Nat :=
  let b (k : Nat) : Nat := (line.getD k 0).toNat
  if dt = 0x2A then b i
  else if dt = 0x2B then b (i / 4 * 5 + i % 4) * 4 + b (i / 4 * 5 + 4) / 4 ^ (i % 4) % 4
  else if dt = 0x2C then b (i / 2 * 3 + i % 2) * 16 + b (i / 2 * 3 + 2) / 16 ^ (i % 2) % 16
  else if dt = 0x2D then
    b (i / 4 * 7 + i % 4) * 64 +
      (b (i / 4 * 7 + 4) + 256 * b (i / 4 * 7 + 5) + 65536 * b (i / 4 * 7 + 6)) / 64 ^ (i % 4) % 64
  else b (2 * i) + 256 * b (2 * i + 1)

/-- Rows of an output and the runs of bytes that its rows `[r0, r1)` occupy: address offset and bytes (R189, R346). -/
def outRuns (s : State) (x fmt lvl ctr r0 r1 : Nat) (raw : List (List Byte)) : List (Nat × List Byte) :=
  let sd := ctxS2d s x
  let w := pyrDim (ctxNum s x 0x60 2) lvl / (if fmt ≤ 2 then sd else 1)
  let h := pyrDim (ctxNum s x 0x62 2) lvl / (if fmt ≤ 2 then sd else 1)
  let rows (n : Nat) := (List.range (min r1 n)).filter (fun r => decide (r0 ≤ r))
  if fmt ≤ 2 then
    let cb := if fmt = 2 then 16 else 32
    let ch := sd * sd * 3
    let el := if fmt = 2 then 2 else 1
    ((List.range ((ch + cb - 1) / cb)).map (fun blk => (rows h).map (fun r =>
      ((blk * h + r) * w * cb * el,
        ((List.range (w * cb)).map (fun i =>
          if blk * cb + i % cb < ch then
            (List.range el).map (fun j => freeByte ctr (((blk * h + r) * w * cb + i) * el + j))
          else List.replicate el 0)).flatten)))).flatten
  else if fmt = 3 then
    (rows h).map (fun r => (r * w * 4, ((List.range w).map (fun i =>
      [freeByte ctr (r * w * 4 + 4 * i), freeByte ctr (r * w * 4 + 4 * i + 1), freeByte ctr (r * w * 4 + 4 * i + 2), 0])).flatten))
  else if fmt = 4 then (rows h).map (fun r => (r * w, (List.range w).map (fun i => freeByte ctr (r * w + i))))
  else
    let iw := ctxNum s x 0x40 2
    (rows (ctxNum s x 0x42 2)).map (fun r => (r * iw * 2, ((List.range iw).map (fun i =>
      leBytes 2 (rawPixel (ctxNum s x 0x44 1) (raw.getD r []) i))).flatten))

/-- Write the runs of an output, keeping the first failing status of the sample's writes (R354). -/
def writeRuns (x base : Nat) (runs : List (Nat × List Byte)) : Act :=
  forEach runs (fun r => fun s =>
    let st := writeStatus s (base + r.1) r.2.length
    if r.2.isEmpty then [] else
    seq [unitWrite .ingress (base + r.1) r.2,
      whenA (st != 0) (setCur x (fun sm => { sm with wErr := if sm.wErr = 0 then st else sm.wErr }))] s)

/-- BAND_ANNOUNCE (R352): the next band of both outputs is written, then announced with increment 1. The last band of
OUT1 takes all its remaining rows. -/
def execBandAnnounce (x : Nat) (s : State) : Host.Outcome State Fault Refusal :=
  done (fun s =>
    match (ctx s x).cur with
    | none => []
    | some sm =>
      let nb := nBands s x
      if nb ≤ sm.k then [] else
      let b := max 1 (ctxNum s x 0x6A 2)
      let r1 := (sm.k + 1) * b
      let o1 := ctxNum s x 0x67 1
      let ctr := s.freeCtr
      seq [upd (.freeCtr (ctr + 2 ^ 30)),
        whenA (partActive s (ctx s x).part) (seq [
          writeRuns x (ctxNum s x 0x30 8) (outRuns s x (ctxNum s x 0x66 1) (ctxNum s x 0x65 1) ctr (sm.k * b) r1 sm.raw),
          whenA (ctxFlag s x 3) (writeRuns x (ctxNum s x 0x38 8)
            (outRuns s x (o1 % 16) (o1 / 16) (ctr + 2 ^ 29) (sm.k * b) (if sm.k + 1 = nb then 65536 else r1) sm.raw)),
          signalWord .ingress (ctxCw s x) (sm.pitch % 2 ^ 16) 1 0 2]),
        setCur x (fun sm => { sm with
          k := sm.k + 1,
          spot := if ctxFlag s x 1 ∧ sm.k + 1 = nb then
            (List.range (pyrDim (ctxNum s x 0x60 2) (ctxNum s x 0x69 1) * pyrDim (ctxNum s x 0x62 2) (ctxNum s x 0x69 1))).map
              (freeByte (ctr + 2 ^ 28)) else sm.spot })] s) s

/-! ### Lidar (R347, R349, R350) -/

/-- A signed 32-bit length in UNIT_UM as FP32 metres. -/
def lidarLen (s : State) (x v : Nat) : Nat :=
  (fEncode fp32 0 (fDiv (fOfInt (toSigned 32 v * (ctxNum s x 0x5A 2 : Nat))) (fOfInt 1000000))).1

/-- Decode point `i` of a datagram (R347 DEC). -/
def lidarPoint (s : State) (x : Nat) (d : List Byte) (i : Nat) : Pt :=
  let o := ctxNum s x 0x42 2 + i * ctxNum s x 0x44 2
  let f (k n : Nat) : Nat := frameNum d (o + ctxNum s x k 2) n
  let a := f 0x50 4
  let b := f 0x52 4
  let c := f 0x54 4
  let t := frameNum d (ctxNum s x 0x48 2) 8
  { x := if ctxNum s x 0x4E 1 = 0 then lidarLen s x a else Config.polar 0 a b c % 2 ^ 32
    y := if ctxNum s x 0x4E 1 = 0 then lidarLen s x b else Config.polar 1 a b c % 2 ^ 32
    z := if ctxNum s x 0x4E 1 = 0 then lidarLen s x c else Config.polar 2 a b c % 2 ^ 32
    i := (fEncode fp32 0 (fOfInt (f 0x56 1 : Nat))).1
    t := ofSigned 64 ((t : Int) + (f 0x58 4 : Nat) + (ctx s x).phiPrev) }

/-- The record of a point in the ring. -/
def ptBytes (p : Pt) : List Byte :=
  leBytes 4 p.x ++ leBytes 4 p.y ++ leBytes 4 p.z ++ leBytes 4 p.i ++ leBytes 8 p.t ++ leBytes 8 0

/-- LIDAR_DATAGRAM (R347): the oldest claimed datagram of the context is stamped, checked and decoded. -/
def execLidarDatagram (x : Nat) (s : State) : Host.Outcome State Fault Refusal :=
  done (fun s =>
    match s.lidarIn.find? (fun e => e.1 == x) with
    | none => []
    | some e =>
      let (_, arr, d) := e
      let c := ctx s x
      let n := ctxNum s x 0x46 2
      let rp := max 1 (ctxNum s x 0x68 4)
      let sq := frameNum d (ctxNum s x 0x4A 2) 4
      let gap := match c.seqNo with | some q => (sq + 2 ^ 32 - q - 1) % 2 ^ 32 | none => 0
      let ptime := frameNum d (ctxNum s x 0x48 2) 8
      let phi : Int := (arr : Int) - ctxExp s x - ptime
      let rev := frameNum d (ctxNum s x 0x4C 2) 2
      let pts := (List.range n).map (lidarPoint s x d)
      let bytes := (d.drop (ctxNum s x 0x42 2)).take (n * ctxNum s x 0x44 2)
      let base := ctxNum s x 0x60 8
      if !ctxOn s x then ([.lidarIn (s.lidarIn.erase e)] : List Upd) ++ incReg (ING_CTX_IGN_CNT x) s
      else seq [upd (.lidarIn (s.lidarIn.erase e)),
        -- the packets of the revolution before have all arrived: its signature is checked
        (match c.rev with
         | some r => whenA (r != rev) (seq [signature x c.revCrc (fun rp => setCtx x (fun c => { c with revRpt := rp })),
             setCtx x (fun c => { c with revCrc := 0 })])
         | none => nop),
        whenA (partActive s c.part) (forEach pts.zipIdx (fun p =>
          unitWrite .ingress (base + (c.ptCnt + p.2) % rp * 32) (ptBytes p.1))),
        setCtx x (fun c => { c with
          seqNo := some sq, missing := c.missing + gap, packets := c.packets + 1,
          phiMin := some (match c.phiMin with | some q => min q phi | none => phi),
          rev := some rev, revCrc := crc64 c.revCrc bytes,
          pts := (c.pts ++ pts).drop ((c.pts ++ pts).length - rp), ptCnt := c.ptCnt + n })] s) s

/-- One deskewed point: position in mm and intensity. -/
structure VPt where
  x : Int
  y : Int
  z : Int
  i : Nat

/-- The 16 FP16 channels of a pillar (R347 VOX). -/
def pillar (cell x0 y0 : Int) (ps : List VPt) : List Nat :=
  let half (n d : Int) : Nat := (fEncode fp16 0 (fDiv (fOfInt n) (fOfInt d))).1
  let n : Int := ps.length
  let zs := ps.map (·.z)
  let sumI := (ps.map (fun p => fDecode fp32 p.i)).foldl (fAdd 0) (.fin false 0 0)
  match ps with
  | [] => List.replicate 16 0
  | p :: _ =>
    [half (min n 2048) 1, half (zs.foldl min p.z) 1000, half (zs.foldl max p.z) 1000, half zs.sum (1000 * n),
     (fEncode fp16 0 (fDiv sumI (fOfInt n))).1,
     (fEncode fp16 0 ((ps.map (fun p => fDecode fp32 p.i)).foldl fMax .nan)).1,
     half ((ps.map (fun p => 2 * (p.x - x0) - cell)).sum) (2000 * n),
     half ((ps.map (fun p => 2 * (p.y - y0) - cell)).sum) (2000 * n)] ++ List.replicate 8 0

/-- LIDAR_REF (R347, R349): at REF the points of the window become the pitch's pillar grid, and the lock is updated. -/
def execLidarRef (x now : Nat) (s : State) : Host.Outcome State Fault Refusal :=
  done (seq [advance now, fun s =>
    let c := ctx s x
    let n := pitchNum s
    let ref := tickTime s + ctxOff s x
    match c.phiMin with
    | none => []
    | some phi =>
      if !ctxOn s x || !isLidar s x || decide (now < ref) || c.cur != none || c.finalFor == some n then [] else
      let win := (c.pts.filter (fun p => decide (ref ≤ p.t + ctxNum s x 0x5C 4 * 1000 ∧ p.t < ref))).zipIdx
      let vs := win.map (fun e => (⟨Config.deskew s.freeCtr e.2 0, Config.deskew s.freeCtr e.2 1,
        Config.deskew s.freeCtr e.2 2, e.1.i⟩ : VPt))
      let nx := ctxNum s x 0x6C 2
      let ny := ctxNum s x 0x6E 2
      let cell : Int := (ctxNum s x 0x70 2 : Nat)
      let cx (p : VPt) : Int := (p.x - 10 * ctxInt s x 0x72 2) / cell
      let cy (p : VPt) : Int := (p.y - 10 * ctxInt s x 0x74 2) / cell
      let inG (p : VPt) : Bool := decide (0 ≤ cx p ∧ cx p < nx ∧ 0 ≤ cy p ∧ cy p < ny ∧
        10 * ctxInt s x 0x76 2 ≤ p.z ∧ p.z ≤ 10 * ctxInt s x 0x78 2)
      let used := vs.filter inG
      let cellPts (i j : Nat) := used.filter (fun p => cx p == (i : Int) && cy p == (j : Int))
      let row (j : Nat) : List Byte := ((List.range nx).map (fun (i : Nat) =>
        ((pillar cell (10 * ctxInt s x 0x72 2 + (i : Int) * cell) (10 * ctxInt s x 0x74 2 + (j : Int) * cell) (cellPts i j)).map (leBytes 2)).flatten)).flatten
      let pool := max 1 (ctxNum s x 0x7A 1)
      let lo := lockUpdate s x n phi
      seq [upd (.freeCtr (s.freeCtr + 1)), wr64 (ING_CTX_PHASE x) (ofSigned 64 phi), lo.act,
        setCtx x (fun c => { c with
          kept := some n, frames := (c.frames + 1) % 2 ^ 32,
          cur := some { pitch := n, fs := ref, phase := phi, excl := lo.excl, fe := some ref,
                        gap := decide (ctxNum s x 0x4F 1 < c.missing), npts := used.length,
                        drop := vs.length - used.length,
                        tMin := (win.map (·.1.t)).foldl min ((win.map (·.1.t)).headD 0),
                        tMax := (win.map (·.1.t)).foldl max 0,
                        spot := ((List.range (ny / pool)).map (fun j => (List.range (nx / pool)).map (fun i =>
                          BitVec.ofNat 8 (min 255 (used.filter (fun p => cx p / pool == (i : Int) && cy p / pool == (j : Int))).length)))).flatten } }),
        whenA (partActive s c.part) (writeRuns x (ctxNum s x 0x30 8) ((List.range ny).map (fun j => (j * nx * 32, row j))))] s]) s

/-! ### Frame sync (R343, R358) -/

/-- FRAME_SYNC_RISE (R343): at T_n + OFF_US the output of an ON context rises, once a pitch; R358 may omit it. -/
def execFrameSyncRise (o now : Nat) (s : State) : Host.Outcome State Fault Refusal :=
  done (seq [advance now, fun s =>
    let x := getF s (FSY_STAT_CTX o)
    if x = 0x1F ∨ ¬ ctxOn s x ∨ ¬ flag s PCH_STATUS_RUNNING ∨ get_fsyPulsed s o = pitchNum s + 1 ∨ now < tickTime s + ctxOff s x then []
    else if get_fsyOmit s o = 2 then
      seq [incReg (FSY_OMIT_CNT o), upd (.fsyOmit o 0), upd (.fsyPulsed o (pitchNum s + 1))] s
    else seq [setF (FSY_STAT_LEVEL o) 1, emit (.fsync o true), upd (.fsyPulsed o (pitchNum s + 1))] s]) s

/-- FRAME_SYNC_FALL (R343): the output falls FSY_W_US after its rise. -/
def execFrameSyncFall (o now : Nat) (s : State) : Host.Outcome State Fault Refusal :=
  done (seq [advance now, fun s =>
    let x := getF s (FSY_STAT_CTX o)
    if flag s (FSY_STAT_LEVEL o) ∧ tickTime s + ctxOff s x + ctxNum s x 8 2 * 1000 ≤ now then
      seq [setF (FSY_STAT_LEVEL o) 0, emit (.fsync o false)] s
    else []]) s

/-! ### Enables and port events (R359, R364) -/

/-- A context starts in RELOCK: at its entry, or when EN is set again (R351). -/
def ctxStart (x : Nat) : Act := seq [
  setCtx x (fun c => { part := c.part, ptCnt := c.ptCnt, pts := c.pts, rev := c.rev, finalFor := c.finalFor }),
  setF (ING_CTX_STAT_STATE x) 1, setF (ING_CTX_STAT_LOCKED x) 0, setF (ING_CTX_STAT_FROZEN x) 0,
  setF (ING_CTX_STAT_RUN x) 0, setF (ING_CTX_STAT_RELOCK_PITCHES x) 0,
  fun s => wr ING_STAT (putBit (rd s ING_STAT) x true) s]

/-- Clearing EN: DRAINING, and no longer ON. -/
def ctxDisable (x : Nat) : Act := fun s =>
  seq [setF (ING_CTX_CTL_EN x) 0,
    whenA (ctxOn s x) (seq [setF (ING_CTX_STAT_STATE x) 2, wr ING_STAT (putBit (rd s ING_STAT) x false)])] s

/-- Setting EN: the context restarts in RELOCK at the next tick (R359), which sees EN set in OFF. -/
def ctxEnable (x : Nat) : Act := setF (ING_CTX_CTL_EN x) 1

/-- CONTEXT_DISABLE (R104, R359). -/
def execContextDisable (x : Nat) (s : State) : Host.Outcome State Fault Refusal := done (ctxDisable x) s
/-- CONTEXT_ENABLE (R359). -/
def execContextEnable (x : Nat) (s : State) : Host.Outcome State Fault Refusal := done (ctxEnable x) s

/-- The end of a context's drain: OFF; a sample left unfinished is announced ABORTED. -/
def ctxDrainEnd (x : Nat) : Act := fun s =>
  seq [(match (ctx s x).cur with
      | some sm => finalSample x sm (if sm.excl ≠ 0 then sm.excl else 5)
      | none => nop),
    setF (ING_CTX_STAT_STATE x) 0] s

/-- CSI_SYNC_CHANGE (R364). -/
def execCsiSyncChange (p : Nat) (sync : Bool) (s : State) : Host.Outcome State Fault Refusal :=
  done (seq [setF (ING_CSI_STAT_SYNC p) (if sync then 1 else 0), whenA (!sync) (setF (ING_CSI_STAT_PHY_ERR p) 1)]) s

/-- What every tick does to the contexts: an enabled OFF context starts in RELOCK, RELOCK pitches are counted, the lidar
counts of the pitch restart, a requested omission applies to the new pitch (R351, R358, R359). -/
def ingressTick : Act := seq [
  forEach (List.range 24) (fun x => fun s =>
    if flag s (ING_CTX_CTL_EN x) && getF s (ING_CTX_STAT_STATE x) == 0 then
      seq [ctxStart x, setF (ING_CTX_STAT_RELOCK_PITCHES x) 1] s
    else if ctxOn s x then
      seq [whenA (!flag s (ING_CTX_STAT_LOCKED x)) (addSat (ING_CTX_STAT_RELOCK_PITCHES x) 1),
        whenA (isLidar s x) (setCtx x (fun c => { c with
          phiPrev := c.phiMin.getD c.phiPrev, phiMin := none, packets := 0, missing := 0 }))] s
    else []),
  fun s => forEach (s.fsyOmit.filter (fun e => e.2 == 1)) (fun e => upd (.fsyOmit e.1 2)) s,
  -- no context ON: the task ends at the tick (R356)
  fun s => if (List.range 24).all (fun x => !ctxOn s x) then reportTask 0x10 s else []]

end Sys2Proof.Machine
end

