-- ==== Sys2Proof/Machine/Own.lean ====
section
/-! DEFINITION. Who owns what (R244): partitions, banks, clusters, DRAM regions, and memory by address. -/
namespace Sys2Proof.Machine

/-- Is an address in DRAM region slot `r` (R581)? -/
def inRegion (s : State) (r a : Nat) : Bool :=
  decide (rd64 s (MAP_REG_BASE r) ≤ a ∧ a < rd64 s (MAP_REG_BASE r) + getF s (MAP_REG_CFG_LEN_2M r) * 0x200000)

/-- The region slot that holds an address. -/
def regionOf (s : State) (a : Nat) : Option Nat := (List.range 64).find? (fun r => inRegion s r a)

/-- Partition that owns the memory at an address (R187, R136, R581); 0x1F none. -/
def ownerOf (s : State) (a : Nat) : Nat :=
  match locOf s a with
  | .dram => match regionOf s a with
    | some r => getF s (MAP_REG_CFG_PART r)
    | none => 0x1F
  | .bank d b => getF s (MAP_BNK_OWN_PART d b)
  | .coreMem d c => coreOwner s (d * 32 + c)
  | .opBuf d c _ => coreOwner s (d * 32 + c)
  | _ => 0x1F

/-- Last address of the unit of ownership that holds an address: a region, a bank, a core memory, an operand buffer. -/
def ownUnitEnd (s : State) (a : Nat) : Nat :=
  match locOf s a with
  | .dram => match regionOf s a with
    | some r => rd64 s (MAP_REG_BASE r) + getF s (MAP_REG_CFG_LEN_2M r) * 0x200000 - 1
    | none => a
  | .bank _ _ | .coreMem _ _ => a / 0x100000 * 0x100000 + 0xFFFFF
  | .opBuf _ _ _ => a / 0x20000 * 0x20000 + 0x1FFFF
  | _ => a

/-- Does partition `p` own every byte of `[a, a + len)`? Unit by unit, at most `fuel` units. -/
def ownsGo (s : State) (p : Nat) : Nat → Nat → Nat → Bool
  | 0, _, _ => false
  | fuel + 1, a, last =>
    ownerOf s a == p && (decide (last ≤ ownUnitEnd s a) || ownsGo s p fuel (ownUnitEnd s a + 1) last)

/-- Does partition `p` own every byte of `[a, a + len)`? -/
def ownsRange (s : State) (p a len : Nat) : Bool := len == 0 || ownsGo s p 64 a (a + len - 1)

/-- As `ownsRange`, for scratchpad banks and DRAM regions only (R206, R234). -/
def ownsBank (s : State) (p a len : Nat) : Bool :=
  ownsRange s p a len &&
    (match locOf s a with | .dram | .bank _ _ => true | _ => false) &&
    (match locOf s (a + len - 1) with | .dram | .bank _ _ => true | _ => false)

/-- State of a partition (R261). -/
def partState (s : State) (p : Nat) : Nat := getF s (PRT_STAT_STATE p)

/-- Is a partition defined by the image in force? -/
def partDefined (s : State) (p : Nat) : Bool := decide (p < 16) && partState s p != 0

/-- Effective level of a partition's work (R248). -/
def effLevel (s : State) (p : Nat) : Nat := getF s (PRT_STAT_EFF_LEVEL p)

/-- Replace what the pitch generator holds for a partition. -/
def setPart (p : Nat) (f : PartAux → PartAux) : Act := fun s => [.parts p (f (get_parts s p))]

/-- Clusters (die, cluster) in service that a partition owns. -/
def clustersOf (s : State) (p : Nat) : List (Nat × Nat) :=
  ((List.range 32).map (fun i => (i / 4, i % 4))).filter (fun c =>
    getF s (PRT_CLU_PART c.1 c.2) == p && !dieRemoved s c.1)

/-- Banks (die, bank) in service that a partition owns. -/
def banksOf (s : State) (p : Nat) : List (Nat × Nat) :=
  ((List.range 512).map (fun i => (i / 64, i % 64))).filter (fun c =>
    getF s (MAP_BNK_OWN_PART c.1 c.2) == p && !dieRemoved s c.1)

/-- DMA channels (node, channel) a partition owns (R267 to R269). -/
def channelsOf (s : State) (p : Nat) : List (Nat × Nat) :=
  (((List.range 128).map (fun i => (i / 16, i % 16))) ++ (List.range 32).map (fun i => (8, i))).filter
    (fun c => getF s (DMA_CH_OWN_PART c.1 c.2) == p)

/-- A register whose RW fields a commit puts in force: the shadow's value where one was written (R383, R412). -/
def rdShadow (s : State) (a : Nat) : Nat :=
  match get_shadow s a with
  | some w => w.toNat
  | none => rd s a

/-- Field of the shadow copy. -/
def getShadow (s : State) (f : Fld) : Nat := bits (rdShadow s f.addr) f.hi f.lo

/-- A 64-bit pair of the shadow copy. -/
def rdShadow64 (s : State) (a : Nat) : Nat := rdShadow s a + 2 ^ 32 * rdShadow s (a + 4)

/-- Put every shadow value of the addresses `[lo, hi)` in force. -/
def applyShadow (lo hi : Nat) : Act := fun s =>
  forEach (s.shadow.filter (fun e => decide (lo ≤ e.1 ∧ e.1 < hi)))
    (fun e => seq [match e.2 with | some w => upd (.regs e.1 w) | none => nop, upd (.shadow e.1 none)]) s

end Sys2Proof.Machine
end

