-- ==== Sys2Proof/Machine/Ego.lean ====
section
/-! DEFINITION. Ego-motion and sensor transforms (spec/15 R384 to R391): wheel and inertial inputs, the pose ring, the
four modes, registration, and the corrections of the transforms. -/
namespace Sys2Proof.Machine

/-! ### FP32 codes -/

/-- Round to the nearest FP32 code. -/
def fE (v : FVal) : Nat := (fEncode fp32 0 v).1
/-- The value of an FP32 code. -/
def fD (w : Nat) : FVal := fDecode fp32 w
def fpAdd (a b : Nat) : Nat := fE (fAdd 0 (fD a) (fD b))
def fpSub (a b : Nat) : Nat := fE (fAdd 0 (fD a) (fNeg (fD b)))
def fpMul (a b : Nat) : Nat := fE (fMul (fD a) (fD b))
def fpDiv (a b : Nat) : Nat := fE (fDiv (fD a) (fD b))
/-- FP32 of the quotient of two integers. -/
def fpRat (n d : Int) : Nat := fE (fDiv (fOfInt n) (fOfInt d))
/-- FP32 seconds of a time difference in ns. -/
def fpSec (dt : Int) : Nat := fpRat dt 1000000000

/-- An FP32 result of the unit: a free function of its operands and of the formula's value (R403). -/
def fv (what : Nat) (args : List Nat) (formula : Nat) : Nat := Config.fusVal what args formula % 2 ^ 32
/-- A coordinate that a rotation gives. -/
def geo (what : Nat) (args : List Nat) : Nat := Config.fusGeo what args % 2 ^ 32

/-- Replace the fusion unit's state. -/
def setFus (f : Fus → Fus) : Act := fun s => [.fus (f s.fus)]

/-! ### The pose ring (R387) -/

/-- Address of the ring record of pose `k`. -/
def poseAddr (k : Nat) : Nat := 0x200000A10000 + k % 256 * 0x40

/-- Word `i` of pose `k`. -/
def poseWord (s : State) (k i : Nat) : Nat := rd s (poseAddr k + 4 * i)

/-- The 16 words of pose `k`. -/
def poseWords (s : State) (k : Nat) : List Nat := (List.range 16).map (poseWord s k)

/-- TIME of pose `k`. -/
def poseTime (s : State) (k : Nat) : Nat := poseWord s k 0 + 2 ^ 32 * poseWord s k 1

/-- The newest pose at or before `t`, searching back from pose `k`. -/
def poseBefore (s : State) (t : Nat) : Nat → Nat → Nat
  | 0, k => k
  | fuel + 1, k => if poseTime s k ≤ t ∨ k = 0 then k else poseBefore s t fuel (k - 1)

/-- Pose(t) (R387): x, y, z, roll, pitch, yaw, articulation as FP32 codes; linear between two step poses in position,
yaw and articulation, extrapolated with speed and yaw rate beyond the newest. -/
def poseAt (s : State) (t : Nat) : List Nat :=
  let q := rd s FUS_EGO_SEQ
  if q = 0 then List.replicate 7 0
  else
    let k := poseBefore s t 255 (q - 1)
    let a := poseWords s k
    if k + 1 = q then
      let dt := fpSec ((t : Int) - poseTime s k)
      [geo 10 (dt :: a), geo 11 (dt :: a), geo 12 (dt :: a), a.getD 7 0, a.getD 8 0,
       fv 1 [a.getD 9 0, a.getD 11 0, dt] (fpAdd (a.getD 9 0) (fpMul (a.getD 11 0) dt)), a.getD 12 0]
    else
      let b := poseWords s (k + 1)
      let f := fpDiv (fpSec ((t : Int) - poseTime s k)) (fpSec ((poseTime s (k + 1) : Int) - poseTime s k))
      let lin (i : Nat) : Nat := fv 2 [a.getD i 0, b.getD i 0, t, poseTime s k, poseTime s (k + 1)]
        (fpAdd (a.getD i 0) (fpMul (fpSub (b.getD i 0) (a.getD i 0)) f))
      [lin 4, lin 5, lin 6, a.getD 7 0, a.getD 8 0, lin 9, lin 12]

/-! ### Inputs (R386) -/

/-- A signed 16-bit little-endian value at a byte offset. -/
def s16 (bs : List Byte) (o : Nat) : Int := toSigned 16 (leNat ((bs.drop o).take 2))

/-- EGO_WHEEL_FRAME (R386): the ego block reads the oldest wheel frame, stamped with its arrival. -/
def execEgoWheelFrame (s : State) : Host.Outcome State Fault Refusal :=
  done (fun s =>
    match s.wheelIn with
    | [] => []
    | (at_, bs) :: rest =>
      let ao := getF s FUS_EGO_MAP_ART_OFF
      seq [upd (.wheelIn rest),
        setFus (fun f => { f with
          wheel := some (at_, s16 bs (getF s FUS_EGO_MAP_LEFT_OFF), s16 bs (getF s FUS_EGO_MAP_RIGHT_OFF),
            if ao < 0x3F then s16 bs ao else 0) }),
        setF FUS_EGO_STAT_WHEEL_OK 1] s) s

/-- Is the wheel input valid at time `t` (R386)? -/
def wheelValid (s : State) (t : Nat) : Bool :=
  match s.fus.wheel with
  | some w => decide (t ≤ w.1 + getF s FUS_EGO_CTL_WHEEL_TMO_MS * 1000000)
  | none => false

/-- EGO_WHEEL_TIMEOUT (R386): the last frame is older than WHEEL_TMO_MS. -/
def execEgoWheelTimeout (now : Nat) (s : State) : Host.Outcome State Fault Refusal :=
  done (seq [advance now, fun s =>
    if flag s FUS_EGO_STAT_WHEEL_OK ∧ wheelValid s now = false then
      seq [setF FUS_EGO_STAT_WHEEL_OK 0, setFus (fun f => { f with wheelThru := false })] s
    else []]) s

/-- SPI_STEP_TRANSFER_DONE (R348): the inertial transfer of a step tick ends and its record goes to the ego block. -/
def execSpiStepTransferDone (k : Nat) (data : List Byte) (s : State) : Host.Outcome State Fault Refusal :=
  done (fun s =>
    let b := get_spiStepBusy s k
    if b = 0 then [] else
    let step := (b - 1) % 64
    let n := (b - 1) / 64
    let rx := (get_spiStepCfg s k).getD 1 0
    [.spiStepBusy k 0,
     .spiRec (s.spiRec ++ [(k, tickDue s n + step * 1000000, n, step, (data ++ List.replicate 64 0).take rx)])]) s

/-- A step tick starts the transfers of every sampling controller and a pose falls due (R41, R42, R348). -/
def stepSample (k : Nat) : Act := fun s =>
  let n := pitchNum s
  seq [forEach (List.range 4) (fun c => fun s =>
      if flag s (SPI_STEP_EN c) then
        let cfg := get_spiStepCfg s c
        seq [upd (.spiStepBusy c (1 + k % 64 + 64 * n)),
          emit (.spi c ((cfg.drop 2).take (cfg.getD 0 0) |>.map (BitVec.ofNat 8)))] s
      else []),
    setFus (fun f => { f with posesDue := f.posesDue ++ [(tickDue s n + k * 1000000, n, k)] })] s

/-! ### The pose of a step (R387, R388) -/

/-- v of the WHEEL_IMU mode: the mean of the two wheel speeds in m/s. -/
def wheelSpeed (s : State) (l r : Int) : Nat := fpRat ((l + r) * (getF s FUS_EGO_SCALE_WHEEL_UMS : Nat)) 2000000

/-- ω of the WHEEL_IMU mode: gyro z minus the bias, in rad/s. -/
def gyroRate (s : State) (gz : Int) (zeros : List Int) : Nat :=
  let n : Int := max 1 zeros.length
  fpRat ((gz * n - zeros.sum) * (getF s FUS_EGO_SCALE_GYRO_URADS : Nat)) (n * 1000000)

/-- Write pose `q` to the ring. -/
def writePose (q t n k mode : Nat) (body : List Nat) : Act :=
  forEach (([t % 2 ^ 32, t / 2 ^ 32, n % 2 ^ 16 + k % 256 * 2 ^ 16 + mode * 2 ^ 24, 0] ++ body ++ [0, 0, 0]).zipIdx)
    (fun e => wr (poseAddr q + 4 * e.2) e.1)

/-- EGO_POSE (R387): the pose of the oldest step tick without one. -/
def execEgoPose (s : State) : Host.Outcome State Fault Refusal :=
  done (fun s =>
    match s.fus.posesDue with
    | [] => []
    | (t, n, k) :: due =>
      let spi := getF s FUS_EGO_CTL_EGO_SPI
      let recs := s.spiRec.filter (fun r => r.1 == spi && r.2.1 == t)
      let io := getF s FUS_EGO_MAP_IMU_OFF
      let axes := match recs with
        | r :: _ => (List.range 6).map (fun i => s16 r.2.2.2.2 (io + 2 * i))
        | [] => []
      let imuOk := axes.length == 6 && axes.all (fun a => a != 32767 && a != -32768)
      let imu := if imuOk then axes else s.fus.imu
      let whOk := wheelValid s t
      let (wl, wr', art) := match s.fus.wheel with
        | some w => (w.2.1, w.2.2.1, w.2.2.2)
        | none => (0, 0, 0)
      let zeros := if whOk && imuOk && wl == 0 && wr' == 0 then (axes.getD 2 0 :: s.fus.zeros).take 1000 else s.fus.zeros
      let mode := getF s FUS_EGO_STAT_MODE
      let v := if mode = 0 then wheelSpeed s wl wr' else s.fus.v
      let om := if mode = 0 then gyroRate s (imu.getD 2 0) zeros else s.fus.omega
      let q := rd s FUS_EGO_SEQ
      let old := if q = 0 then List.replicate 16 0 else poseWords s (q - 1)
      let dt := if q = 0 then 0 else fpSec ((t : Int) - poseTime s (q - 1))
      let yaw := fv 3 [old.getD 9 0, om, dt] (fpAdd (old.getD 9 0) (fpMul om dt))
      let g (i : Nat) : Nat := ofSigned 16 (imu.getD i 0)
      let roll := if imuOk then geo 3 [old.getD 7 0, g 3, g 4, g 5] else old.getD 7 0
      let pit := if imuOk then geo 4 [old.getD 8 0, g 3, g 4, g 5] else old.getD 8 0
      let body := if q = 0 then [0, 0, 0, 0, 0, 0, v, om, geo 5 [ofSigned 16 art]]
        else [geo 0 [old.getD 4 0, v, old.getD 9 0, yaw, dt], geo 1 [old.getD 5 0, v, old.getD 9 0, yaw, dt],
          geo 2 [old.getD 6 0, v, old.getD 8 0, dt], roll, pit, yaw, v, om, geo 5 [ofSigned 16 art]]
      seq [setFus (fun f => { f with
            posesDue := due, imu := imu, zeros := zeros, v := v, omega := om,
            imuThru := f.imuThru && imuOk, wheelThru := f.wheelThru && whOk }),
        upd (.spiRec (s.spiRec.filter (fun r => !(r.1 == spi && decide (r.2.1 ≤ t))))),
        setF FUS_EGO_STAT_IMU_OK (if imuOk then 1 else 0),
        setF FUS_EGO_STAT_WHEEL_OK (if whOk then 1 else 0),
        setF FUS_EGO_STAT_BIAS_OK (if zeros.length = 1000 then 1 else 0),
        writePose q t n k mode body, wr FUS_EGO_SEQ ((q + 1) % 2 ^ 32)] s) s

/-! ### Registration and modes (R388) -/

/-- Value of a grid cell as a signed byte; outside the grid unknown. -/
def gridVal (g : List Byte) (x y : Int) : Int :=
  if 0 ≤ x ∧ x < 512 ∧ 0 ≤ y ∧ y < 512 then toSigned 8 (g.getD (y * 512 + x).toNat 0x80).toNat else -128

/-- Cells occupied in both grids when the older one is turned by `a` × 0.25° and shifted by whole cells. -/
def overlap (old new : List Byte) (dx dy a : Int) : Nat :=
  ((List.range 262144).filter (fun (i : Nat) =>
    let x : Int := ((i % 512 : Nat) : Int)
    let y : Int := ((i / 512 : Nat) : Int)
    let x' := if a = 0 then x else Config.rotCell a 0 x y
    let y' := if a = 0 then y else Config.rotCell a 1 x y
    decide (0 < gridVal new x y) && decide (0 < gridVal old (x' + dx) (y' + dy)))).length

/-- The shifts and yaw steps tried, the smallest shift first, so that the first best one wins a tie. -/
def regTries (r : Nat) : List (Int × Int × Int) :=
  let all := ((List.range (2 * r + 1)).map (fun i => (List.range (2 * r + 1)).map (fun j =>
    (List.range 41).map (fun (k : Nat) => ((i : Int) - r, (j : Int) - r, (k : Int) - 20))))).flatten.flatten
  let size (e : Int × Int × Int) : Nat := (e.1 * e.1 + e.2.1 * e.2.1).toNat * 64 + e.2.2.natAbs
  (List.range (2 * r * r * 64 + 64)).foldr (fun d acc => all.filter (fun e => size e == d) ++ acc) []

/-- Registration of two grids (R388): v and ω if at least 64 cells coincide under the best shift. -/
def register (s : State) (old new : List Byte) : Option (Nat × Nat) :=
  let cell := max 1 (getF s FUS_GRID_CFG_CELL_MM)
  let best := (regTries (2000 / cell)).foldl (fun (b : Nat × Int × Int × Int) e =>
    let c := overlap old new e.1 e.2.1 e.2.2
    if b.1 < c then (c, e) else b) (0, 0, 0, 0)
  if 64 ≤ best.1 then
    some (fpRat (best.2.1 * cell * 1000000) (period s),
      geo 6 [ofSigned 32 best.2.2.2, period s])
  else none

/-- EGO_MODE_SELECT (R388): at the tick the mode of the new pitch is chosen by the first rule that applies; `n` is the
ending pitch. -/
def egoTick (n : Nat) : Act := fun s =>
  let f := s.fus
  let both := f.wheelThru && f.imuThru
  let good := if both then min 255 (getF s FUS_EGO_STAT_GOOD_RUN + 1) else 0
  let old := getF s FUS_EGO_STAT_MODE
  let reg := match f.grids with
    | (n1, g1) :: (n0, g0) :: _ => if n1 = n ∧ n0 + 1 = n then register s g0 g1 else none
    | _ => none
  let m := if !flag s FUS_EGO_CTL_FORCE_DATA && both && flag s FUS_EGO_STAT_BIAS_OK && decide (16 ≤ good) then 0
    else if reg.isSome then 1
    else if f.holdRun < getF s FUS_EGO_CTL_HOLD_MAX then 2 else 3
  seq [setF FUS_EGO_STAT_GOOD_RUN good,
    setFus (fun f => { f with
      holdRun := if m ≤ 1 then 0 else f.holdRun + 1, imuThru := true, wheelThru := flag s FUS_EGO_STAT_WHEEL_OK,
      v := if m = 1 then (reg.getD (0, 0)).1 else f.v, omega := if m = 1 then (reg.getD (0, 0)).2 else f.omega }),
    setF FUS_EGO_STAT_MODE m, setF FUS_STAT_EGO_MODE m,
    whenA (m != old) (seq [incReg FUS_EGO_CHG_CNT, sendEvent 3 [3, old, m] 8 0])] s

/-! ### Refinement of the transforms (R389 to R391) -/

/-- Largest magnitude of a component: millimetres, or µrad of a limit given in 0.001°. -/
def calBound (mm mdeg i : Nat) : Int := if i < 3 then mm else ((mdeg * 17453292519943 / 1000000000000 : Nat) : Int)

/-- Clamp to ±b. -/
def clampTo (b v : Int) : Int := max (-b) (min b v)

/-- CAL_SOLVE (R391): the firmware solves the accumulators of each context with 256 pairs or more, limits the change
and the total, clears them, and writes the result at the next tick. -/
def execCalSolve (s : State) : Host.Outcome State Fault Refusal :=
  done (fun s =>
    if !flag s FUS_CAL_CTL_FW_EN then [] else
    let go := s.fus.calAcc.filter (fun e => decide (256 ≤ e.2.1) && !bit (rd s FUS_CAL_FRZ) e.1)
    let corr (x : Nat) (acc : List Nat) : List Nat := (List.range 6).map (fun i =>
      let step := clampTo (calBound (getF s FUS_CAL_STEP_STEP_MM) (getF s FUS_CAL_STEP_STEP_MDEG) i) (Config.calSolve acc i)
      ofSigned 32 (clampTo (calBound (getF s FUS_CAL_LIM_LIM_MM) (getF s FUS_CAL_LIM_LIM_MDEG) i)
        (toSigned 32 (rd s (FUS_XF_CORR x i)) + step)))
    setFus (fun f => { f with
      calStaged := f.calStaged ++ go.map (fun e => (e.1, corr e.1 e.2.2)),
      calAcc := f.calAcc.filter (fun e => !(go.contains e)) }) s) s

/-- The corrections solved take effect at the tick; AT_LIMIT shows a component held at CAL_LIM. -/
def calTick : Act := fun s =>
  seq [forEach s.fus.calStaged (fun e => seq [
      forEach (e.2.zipIdx) (fun c => wr (FUS_XF_CORR e.1 c.2) c.1), incReg FUS_CAL_CNT,
      fun s => wr FUS_CAL_STAT (putBit (rd s FUS_CAL_STAT) e.1 (e.2.zipIdx.any (fun c =>
        (toSigned 32 c.1).natAbs == (calBound (getF s FUS_CAL_LIM_LIM_MM) (getF s FUS_CAL_LIM_LIM_MDEG) c.2).natAbs))) s]),
    setFus (fun f => { f with calStaged := [] })] s

/-- A new base sets the correction to zero and clears the context's accumulators (R389). -/
def newBase (x : Nat) : Act := seq [
  forEach (List.range 6) (fun i => wr (FUS_XF_CORR x i) 0),
  fun s => wr FUS_CAL_STAT (putBit (rd s FUS_CAL_STAT) x false) s,
  setFus (fun f => { f with
    calAcc := f.calAcc.filter (fun e => e.1 != x), calStaged := f.calStaged.filter (fun e => e.1 != x) })]

end Sys2Proof.Machine
end

