-- ==== Sys2Proof/Machine/Fusion.lean ====
section
/-! DEFINITION. The fusion unit (spec/15 R382, R383, R392 to R409): configuration, contributors, alignment, the track
engine, issue, late results and drains. -/
namespace Sys2Proof.Machine

/-- Put a keyed element into a list kept in rising order of `before`. -/
def insertBy {α : Type} (before : α → α → Bool) (x : α) : List α → List α
  | [] => [x]
  | y :: ys => if before x y then x :: y :: ys else y :: insertBy before x ys

/-- Sort by insertion; elements that compare alike keep their order. -/
def sortBy {α : Type} (before : α → α → Bool) (xs : List α) : List α :=
  xs.foldr (insertBy (fun a b => !before b a)) []

/-! ### Configuration (R383) -/

/-- KIND, PART and result block of contributor `c` in force. -/
def conKind (s : State) (c : Nat) : Nat := getF s (FUS_CON_CFG_KIND c)
def conPart (s : State) (c : Nat) : Nat := getF s (FUS_CON_CFG_PART c)
def conRes (s : State) (c : Nat) : Nat := rd64 s (FUS_CON_RES c)

/-- R383: does the shadow pass its checks: alignment, ownership, ranges, INST_OFF_US below DL_US? -/
def fusShadowOk (s : State) : Bool :=
  let own := getShadow s FUS_OWN_PART
  let al (a : Nat) : Bool := a % 64 == 0
  let o := rdShadow64 s FUS_OBJ
  let g := rdShadow64 s FUS_GRID
  let w := rdShadow64 s FUS_CW
  let p := rdShadow64 s FUS_APP
  let trk := getF s FUS_LIM_TRK_MAX
  let cell := getShadow s FUS_GRID_CFG_CELL_MM
  al o && al g && al w && al p && ownsRange s own o (64 + 64 * trk) && ownsRange s own g (64 + 262144) &&
    ownsRange s own w 8 && ownsRange s own p (256 * trk) && decide (100 ≤ cell ∧ cell ≤ 500) &&
    decide (getShadow s FUS_INST_INST_OFF_US < getF s FUS_DL_DL_US) && decide (getShadow s FUS_EGO_CTL_EGO_CAN ≤ 5) &&
    (List.range 32).all (fun c =>
      let k := getShadow s (FUS_CON_CFG_KIND c)
      let x := getShadow s (FUS_CON_CFG_CTX c)
      decide (k ≤ 2) && (decide (x < 24) || x == 0x1F) &&
        (k == 0 || (al (rdShadow64 s (FUS_CON_RES c)) &&
          ownsRange s (getShadow s (FUS_CON_CFG_PART c)) (rdShadow64 s (FUS_CON_RES c)) 64)))

/-- FUS_COMMIT_DECIDE (R383): at the tick the shadow takes effect whole, or CFG_ERR is set. A new base of a transform
clears its correction (R389). -/
def fusCommitDecide : Act := fun s =>
  if !flag s FUS_CTL_COMMIT then []
  else if fusShadowOk s then
    let changed := (List.range 24).filter (fun x => (List.range 6).any (fun i =>
      rdShadow s (FUS_XF_BASE x i) != rd s (FUS_XF_BASE x i)))
    seq [setF FUS_CTL_COMMIT 0, applyShadow 0x200000A00000 0x200000B00000, forEach changed newBase] s
  else seq [setF FUS_CTL_COMMIT 0, setF FUS_STAT_CFG_ERR 1] s

/-- FUS_COMMIT (R383): requests the shadow; decided at the next tick. -/
def execFusCommit (src : Master) (s : State) : Host.Outcome State Fault Refusal :=
  done (guarded (swWriteOk src) src FUS_CTL (setF FUS_CTL_COMMIT 1)) s

/-! ### Contributors (R392 to R394) -/

/-- t_f(n) (R385). -/
def fusInstant (s : State) (n : Nat) : Nat := tickDue s n + getF s FUS_INST_INST_OFF_US * 1000

/-- Bytes of a contributor's result block that the unit reads: header and records, or header and cells. -/
def conLen (s : State) (c : Nat) : Nat :=
  if conKind s c = 2 then 0x40 + 262144 else 0x40 + 64 * min 512 (numAt s (conRes s c + 0x0A) 2)

/-- Status of an announced result block of pitch n: owner, word, shape, instant, reads (R394 from FUS_OWNER on). -/
def blockStatus (s : State) (c n : Nat) : Nat :=
  let a := conRes s c
  let hs := readStatus s a 64
  let st := numAt s (a + 4) 1
  let inst := numAt s (a + 0x10) 8
  if !ownsRange s (conPart s c) a 64 then 0x74
  else if hs ≠ 0 then hs
  else if !ownsRange s (conPart s c) a (conLen s c) then 0x74
  else if st ≠ 0 then st
  else if numAt s (a + 8) 2 ≠ numAt s a 2 ∨ (conKind s c = 2 ∧ numAt s (a + 0x0A) 2 ≠ 0) then 0x73
  else if period s < ((inst : Int) - fusInstant s n).natAbs then 0x72
  else readStatus s a (conLen s c)

/-- Status of contributor `c` at the start of the run of pitch n; none where it takes no part (R393, R394). -/
def conStatus (s : State) (c n : Nat) : Option Nat :=
  let f := get_fcons s c
  if conKind s c = 0 then none
  else if f.part then some 0x71
  else if f.announced = some (n % 2 ^ 16) then some (blockStatus s c n)
  else if flag s (FUS_CON_CFG_EXPECT c) then some 0x70
  else none

/-- Detection record `i` of contributor `c`'s block (R392). -/
def detAt (s : State) (c i : Nat) : FDet :=
  let a := conRes s c
  let o := a + 0x40 + 64 * i
  let fl := numAt s (a + 0x0C) 2
  let e := a + numAt s (o + 0x2C) 4
  { con := c, recIdx := i, frame := bit fl 0, yawOk := bit fl 1, inst := numAt s (a + 0x10) 8, cls := numAt s o 1,
    score := numAt s (o + 4) 4, x := numAt s (o + 8) 4, y := numAt s (o + 0xC) 4, z := numAt s (o + 0x10) 4,
    l := numAt s (o + 0x14) 4, w := numAt s (o + 0x18) 4, h := numAt s (o + 0x1C) 4, yaw := numAt s (o + 0x20) 4,
    varXY := numAt s (o + 0x24) 4, varYaw := numAt s (o + 0x28) 4,
    emb := if numAt s (o + 2) 2 = 1 ∧ readStatus s e 128 = 0 then some (bytesAt s e 128) else none }

/-- The detections of a contributor, at most 512 (R394). -/
def detsOf (s : State) (c : Nat) : List FDet :=
  (List.range (min 512 (numAt s (conRes s c + 0x0A) 2))).map (detAt s c)

/-- The cells of a grid contributor. -/
def cellsOf (s : State) (c : Nat) : List Byte := bytesAt s (conRes s c + 0x40) 262144

/-! ### Alignment (R389, R395, R396) -/

/-- Words of a context's transform: base, correction, section and hinge. -/
def xfWords (s : State) (x : Nat) : List Nat :=
  (List.range 6).map (fun i => rd s (FUS_XF_BASE x i)) ++ (List.range 6).map (fun i => rd s (FUS_XF_CORR x i)) ++
    [getF s (FUS_XF_CFG_SECTION x), getF s FUS_EGO_SCALE2_HINGE_X_MM]

/-- A detection placed in O (R395). -/
def placeDet (s : State) (d : FDet) : FDet :=
  let args := poseAt s d.inst ++ (if d.frame then [1] else 0 :: xfWords s (getF s (FUS_CON_CFG_CTX d.con))) ++
    [d.x, d.y, d.z, d.yaw]
  { d with x := geo 20 args, y := geo 21 args, z := geo 22 args, yaw := geo 23 args }

/-- Cell of a contributor's grid that holds a cell centre of the fused grid; none outside (R396). -/
def cellFor (s : State) (t tf i : Nat) : Option Nat :=
  let v := geo 40 (poseAt s t ++ poseAt s tf ++ [i, rd s FUS_GRID_CFG]) % 262145
  if v = 262144 then none else some v

/-- The fused grid (R396): the clamped sum of the known values; −128 where no grid knows the cell. -/
def fuseGrids (s : State) (tf : Nat) (gs : List (Nat × List Byte)) : List Byte :=
  if gs.isEmpty then List.replicate 262144 0x80
  else (List.range 262144).map (fun i =>
    let vs := (gs.filterMap (fun g => (cellFor s g.1 tf i).map (fun j => toSigned 8 (g.2.getD j 0x80).toNat))).filter
      (fun v => v != -128)
    BitVec.ofNat 8 (ofSigned 8 (if vs.isEmpty then -128 else clampTo 127 vs.sum)))

/-! ### The track engine (R397 to R401) -/

/-- FP32 of a register fraction. -/
def frac (n k : Nat) : Nat := fE (.fin false n (-(k : Int)))

/-- Predict a track to device time `t` under constant velocity and constant yaw rate (R397); `noise` adds Q_ACC and
Q_YAW. -/
def predict (s : State) (noise : Bool) (t : Nat) (k : Track) : Track :=
  if t = k.time then k else
  let dt := fpSec ((t : Int) - k.time)
  let d2 := fpMul dt dt
  let d3 := fpMul d2 dt
  let q := if noise then frac (getF s FUS_TRK_NOISE_Q_ACC) 8 else 0
  let qy := if noise then frac (getF s FUS_TRK_NOISE_Q_YAW) 16 else 0
  let two := 0x40000000
  let three := 0x40400000
  let cov (what p c v qn : Nat) : Nat × Nat × Nat :=
    (fv what [p, c, v, qn, dt] (fpAdd (fpAdd (fpAdd p (fpMul two (fpMul c dt))) (fpMul v d2)) (fpDiv (fpMul qn d3) three)),
     fv (what + 1) [c, v, qn, dt] (fpAdd (fpAdd c (fpMul v dt)) (fpDiv (fpMul qn d2) two)),
     fv (what + 2) [v, qn, dt] (fpAdd v (fpMul qn dt)))
  let a := cov 100 k.pp k.pv k.vv q
  let b := cov 103 k.ya k.yb k.yc qy
  { k with
    x := fv 106 [k.x, k.vx, dt] (fpAdd k.x (fpMul k.vx dt)), y := fv 106 [k.y, k.vy, dt] (fpAdd k.y (fpMul k.vy dt)),
    yaw := fv 107 [k.yaw, k.yawRate, dt] (fpAdd k.yaw (fpMul k.yawRate dt)),
    pp := a.1, pv := a.2.1, vv := a.2.2, ya := b.1, yb := b.2.1, yc := b.2.2, time := t }

/-- d² of a detection and a track at the detection's instant (R398). -/
def mahal (k : Track) (d : FDet) : Nat :=
  let nx := fpSub d.x k.x
  let ny := fpSub d.y k.y
  fv 110 [d.x, d.y, k.x, k.y, k.pp, d.varXY]
    (fpDiv (fpAdd (fpMul nx nx) (fpMul ny ny)) (fpAdd k.pp d.varXY))

/-- A kept pair: cost, track slot, detection (R398, R399). -/
structure Pair where
  cost : Nat
  slot : Nat
  det : FDet

/-- Is FP32 code `a` below `b`? -/
def fpLt (a b : Nat) : Bool := fLt (fD a) (fD b)

/-- Order by cost or d², then contributor, then record. -/
def pairBefore (a b : Nat × FDet) : Bool :=
  fpLt a.1 b.1 || (!fpLt b.1 a.1 && (decide (a.2.con < b.2.con) || (a.2.con == b.2.con && decide (a.2.recIdx < b.2.recIdx))))

/-- The appearance state of a slot: none absent, some false stale, some true fresh (R402); `n` the run's pitch. -/
def appearance (s : State) (k : Track) (n : Nat) : Option Bool :=
  let a := rd64 s FUS_APP + k.slot * 256
  if readStatus s a 256 ≠ 0 then none
  else if numAt s (a + 2) 1 = 1 ∧ numAt s (a + 4) 4 = k.id ∧
      (numAt s a 2 = n % 2 ^ 16 ∨ numAt s a 2 = (n + 2 ^ 16 - 1) % 2 ^ 16) then some true
  else some false

/-- Kept pairs of one track (R398): the 8 of lowest d² inside the gate, with their costs. -/
def keptPairs (s : State) (n : Nat) (noise : Bool) (ds : List FDet) (k : Track) : List Pair :=
  let gate : FVal := .fin false (getF s FUS_TRK_CFG_GATE) (-8)
  let near := (ds.filter (fun d => d.cls == k.cls)).filterMap (fun d =>
    let v := mahal (predict s noise d.inst k) d
    if fD v = .nan ∨ fLt gate (fD v) = true then none else some (v, d))
  ((sortBy pairBefore near).take 8).map (fun e =>
    let c := match e.2.emb, appearance s k n with
      | some em, some true =>
        let sim := geo 50 ((em ++ bytesAt s (rd64 s FUS_APP + k.slot * 256 + 128) 128).map (·.toNat))
        let w := frac (getF s FUS_TRK_CFG2_W_APP) 8
        fv 111 [e.1, w, sim] (fpAdd e.1 (fpMul w (fpSub 0x3F800000 sim)))
      | _, _ => e.1
    ⟨c, k.slot, e.2⟩)

/-- Stale appearance states met by the kept pairs of one track (R398). -/
def staleMet (s : State) (n : Nat) (ps : List Pair) (k : Track) : Bool :=
  ps.any (fun p => p.slot == k.slot && p.det.emb.isSome) && appearance s k n == some false

/-- Greedy association (R399): pairs in ascending cost, slot, contributor, record. -/
def associate (ps : List Pair) : List Pair :=
  let before (a b : Pair) : Bool :=
    fpLt a.cost b.cost || (!fpLt b.cost a.cost && (decide (a.slot < b.slot) ||
      (a.slot == b.slot && (decide (a.det.con < b.det.con) ||
        (a.det.con == b.det.con && decide (a.det.recIdx < b.det.recIdx))))))
  (sortBy before ps).foldl (fun acc p =>
    if acc.any (fun q => (q.det.con == p.det.con && q.det.recIdx == p.det.recIdx) ||
        (q.slot == p.slot && q.det.con == p.det.con)) then acc else acc ++ [p]) []

/-- One update of a track at a detection's instant (R397, R400). -/
def updateTrack (k : Track) (d : FDet) : Track :=
  let sI := fpAdd k.pp d.varXY
  let g := fpDiv k.pp sI
  let gv := fpDiv k.pv sI
  let args := [k.x, k.y, k.vx, k.vy, k.pp, k.pv, k.vv, d.x, d.y, d.varXY]
  let mix (a b : Nat) : Nat := fv 120 [a, b] (fpAdd a (fpMul 0x3E800000 (fpSub b a)))
  let k1 := { k with
    x := fv 121 args (fpAdd k.x (fpMul g (fpSub d.x k.x))), y := fv 122 args (fpAdd k.y (fpMul g (fpSub d.y k.y))),
    vx := fv 123 args (fpAdd k.vx (fpMul gv (fpSub d.x k.x))), vy := fv 124 args (fpAdd k.vy (fpMul gv (fpSub d.y k.y))),
    pp := fv 125 args (fpSub k.pp (fpMul g k.pp)), pv := fv 126 args (fpSub k.pv (fpMul g k.pv)),
    vv := fv 127 args (fpSub k.vv (fpMul gv k.pv)),
    z := mix k.z d.z, l := mix k.l d.l, w := mix k.w d.w, h := mix k.h d.h }
  if d.yawOk then
    let y := [k.yaw, k.yawRate, k.ya, k.yb, k.yc, d.yaw, d.varYaw]
    -- the innovation is wrapped into (−π, π]
    { k1 with yaw := geo 60 y, yawRate := geo 61 y, ya := geo 62 y, yb := geo 63 y, yc := geo 64 y }
  else k1

/-- DET of an object record (R404). -/
def detCode (d : FDet) : Nat := d.recIdx % 512 + d.con % 32 * 512

/-- Apply a track's detections in ascending instant, then contributor (R400). -/
def applyDets (s : State) (noise : Bool) (k : Track) (ds : List FDet) : Track :=
  (sortBy (fun a b => decide (a.inst < b.inst) || (a.inst == b.inst && decide (a.con < b.con))) ds).foldl
    (fun k d =>
      let u := updateTrack (predict s noise d.inst k) d
      { u with
        updAt := d.inst, det := if noise then detCode d else k.det,
        updMask := Nat.lor u.updMask (2 ^ d.con) }) k

/-- A track born of a detection (R401). -/
def bornTrack (slot id : Nat) (d : FDet) : Track :=
  { slot := slot, id := id, cls := d.cls, state := 0, x := d.x, y := d.y, vx := 0, vy := 0, pp := d.varXY, pv := 0,
    vv := 0x41C80000, yaw := d.yaw, yawRate := 0, ya := d.varYaw, yb := 0, yc := geo 65 [d.varYaw], z := d.z, l := d.l,
    w := d.w, h := d.h, time := d.inst, updAt := d.inst, updMask := 2 ^ d.con, misses := 0, hist := [true],
    det := detCode d }

/-- The next track ID (R401): 1 upward, wrapping from 0xFFFF_FFFF to 1. -/
def nextTrackId (i : Nat) : Nat := if i = 0xFFFFFFFF then 1 else i + 1

/-- States after the updates of a pitch (R401): confirmation, coasting, misses, deletion (none: deleted). `okMask` holds
the contributors that were OK. -/
def trackState (s : State) (okMask : Nat) (old k : Track) (updated : Bool) : Option Track :=
  let hist := (updated :: k.hist).take 16
  if updated then
    let hits := (hist.take (getF s FUS_TRK_CFG_CONF_WIN)).count true
    some { k with
      hist := hist, misses := 0,
      state := if k.state = 2 then 1 else if k.state = 0 ∧ getF s FUS_TRK_CFG_CONF_HITS ≤ hits then 1 else k.state }
  else
    let miss := Nat.land old.updMask okMask != 0
    let m := if miss then min 255 (k.misses + 1) else k.misses
    let k' := { k with hist := hist, misses := m, state := if k.state = 1 then 2 else k.state, det := 0x8000 }
    if k.state = 0 ∧ miss then none
    else if getF s FUS_TRK_CFG_MISS_MAX < m then none else some k'

/-- Births (R401): unassigned detections in contributor and record order take the lowest free slots; answers tracks,
next ID, births and refusals. -/
def births (s : State) (taken : List Nat) : List FDet → List Track × Nat × Nat × Nat → List Track × Nat × Nat × Nat
  | [], a => a
  | d :: ds, (ts, id, nb, nf) =>
    let used := taken ++ ts.map (·.slot)
    match (List.range (getF s FUS_LIM_TRK_MAX)).find? (fun i => !used.contains i) with
    | some i => births s taken ds (ts ++ [bornTrack i id d], nextTrackId id, nb + 1, nf)
    | none => births s taken ds (ts, id, nb, nf + 1)

/-! ### Outputs (R404) -/

/-- One object record. -/
def objRecord (s : State) (tf : Nat) (k : Track) : List Byte :=
  let p := poseAt s tf
  let pos := p ++ [k.x, k.y, k.z]
  leBytes 4 k.id ++ leBytes 1 k.cls ++ leBytes 1 k.state ++ leBytes 2 k.slot ++
  leBytes 4 (geo 30 pos) ++ leBytes 4 (geo 31 pos) ++ leBytes 4 (geo 32 pos) ++
  leBytes 4 (geo 33 (p ++ [k.vx, k.vy])) ++ leBytes 4 (geo 34 (p ++ [k.vx, k.vy])) ++
  leBytes 4 (geo 35 (p ++ [k.yaw])) ++ leBytes 4 k.yawRate ++
  leBytes 4 k.l ++ leBytes 4 k.w ++ leBytes 4 k.h ++ leBytes 4 k.pp ++ leBytes 4 k.updMask ++
  leBytes 4 (min (2 ^ 32 - 1) ((tf - k.updAt) / 1000)) ++ leBytes 2 k.det ++ leBytes 1 k.misses ++ leBytes 1 0

/-- The header of the object list and, with COUNT zero, of the grid block. -/
def fusHeader (s : State) (n tf cnt flags present missing lateMask : Nat) : List Byte :=
  let p := poseAt s tf
  let q := rd s FUS_EGO_SEQ
  leBytes 2 n ++ leBytes 2 cnt ++ leBytes 2 flags ++ leBytes 1 (getF s FUS_STAT_EGO_MODE) ++ leBytes 1 0 ++ leBytes 8 tf ++
  leBytes 4 present ++ leBytes 4 missing ++ leBytes 4 lateMask ++ leBytes 2 (getF s FUS_GRID_CFG_CELL_MM) ++ leBytes 2 0 ++
  leBytes 4 (p.getD 0 0) ++ leBytes 4 (p.getD 1 0) ++ leBytes 4 (p.getD 5 0) ++
  leBytes 4 (if q = 0 then 0 else poseWord s (q - 1) 10) ++ leBytes 4 (if q = 0 then 0 else poseWord s (q - 1) 11) ++
  leBytes 4 (p.getD 6 0) ++ leBytes 2 (getF s FUS_GRID_CFG_ORG_X) ++ leBytes 2 (getF s FUS_GRID_CFG_ORG_Y) ++ leBytes 4 0

/-! ### The run (R393 to R401, R406) -/

/-- May the run of pitch n start (R393)? -/
def fusReady (s : State) (n now : Nat) : Bool :=
  decide (tickDue s n + getF s FUS_DL_DL_US * 1000 ≤ now) ||
    (List.range 32).all (fun c => conKind s c == 0 || !flag s (FUS_CON_CFG_EXPECT c) ||
      (get_fcons s c).part || (get_fcons s c).announced == some (n % 2 ^ 16))

/-- A mask of the contributors that satisfy a test. -/
def conMask (f : Nat → Bool) : Nat := (List.range 32).foldl (fun m c => if f c then m + 2 ^ c else m) 0

/-- The run of pitch n computes its outputs from the inputs as they stand at its start. -/
def fusRun (n : Nat) : Act := fun s =>
  let tf := fusInstant s n
  let st := (List.range 32).filterMap (fun c => (conStatus s c n).map (fun v => (c, v)))
  let ok (c : Nat) : Bool := st.contains (c, 0)
  let present := conMask ok
  let missing := conMask (fun c => st.any (fun e => e.1 == c && e.2 != 0))
  -- late results (R406)
  let fresh (inst : Nat) : Bool := decide (tf < inst + 2 * period s)
  let lateCons := conMask (fun c => s.fus.late.any (fun d => d.con == c && fresh d.inst))
  let lateOld := ((List.range 32).filter (fun c => s.fus.late.any (fun d => d.con == c && !fresh d.inst))).length
  let late := (s.fus.late.filter (fun d => fresh d.inst)).map (fun d =>
    { placeDet s d with varXY := fpMul d.varXY (frac (getF s FUS_TRK_CFG2_OOSM_INFL) 4) })
  let lateGrids := (List.range 32).filterMap (fun c => (get_fcons s c).lateGrid.map (fun g => (c, g)))
  let useGrid := lateGrids.filter (fun g => conKind s g.1 == 2 && !ok g.1 && fresh g.2.1)
  let lateMask := Nat.lor lateCons (conMask (fun c => useGrid.any (fun g => g.1 == c)))
  -- detections (R394, R395)
  let all := (((List.range 32).filter (fun c => ok c && conKind s c == 1)).map (detsOf s)).flatten
  let excess := ((List.range 32).filter (fun c => ok c && conKind s c == 1)).foldl
    (fun m c => m + (numAt s (conRes s c + 0x0A) 2 - 512)) 0 + (all.length - getF s FUS_LIM_DET_MAX)
  let dets := (all.take (getF s FUS_LIM_DET_MAX)).map (placeDet s)
  -- late association and updates, without process noise
  let t0 := s.fus.tracks
  let latePairs := associate ((t0.map (keptPairs s n false late)).flatten)
  let t1 := t0.map (fun k =>
    let ds := (latePairs.filter (fun p => p.slot == k.slot)).map (·.det)
    if ds.isEmpty then k else { predict s false k.time (applyDets s false { k with updMask := 0 } ds) with det := 0x8000 })
  -- association of the pitch's detections
  let kept := (t1.map (keptPairs s n true dets)).flatten
  let stale := (t1.filter (staleMet s n kept)).length
  let pairs := associate kept
  let t2 := t1.filterMap (fun k =>
    let ds := (pairs.filter (fun p => p.slot == k.slot)).map (·.det)
    let lateUpd := latePairs.any (fun p => p.slot == k.slot)
    let u := if ds.isEmpty then k else applyDets s true { k with updMask := if lateUpd then k.updMask else 0 } ds
    let old := (t0.find? (fun o => o.slot == k.slot)).getD k
    trackState s present old (predict s true tf u) (!ds.isEmpty || lateUpd))
  let free := dets.filter (fun d => flag s (FUS_CON_CFG_BIRTH d.con) &&
    !fLt (fD d.score) (.fin false (getF s FUS_TRK_CFG2_BIRTH_SCORE) (-8)) && fD d.score != .nan &&
    !pairs.any (fun p => p.det.con == d.con && p.det.recIdx == d.recIdx))
  let (born, id, nb, nf) := births s (t1.map (·.slot)) free ([], s.fus.nextId, 0, 0)
  let t3 := sortBy (fun a b => decide (a.slot < b.slot)) (t2 ++ born.map (predict s true tf))
  -- calibration evidence (R390)
  let cal := pairs.filter (fun p =>
    getF s (FUS_CON_CFG_CTX p.det.con) != 0x1F &&
      pairs.any (fun q => q.slot == p.slot && getF s (FUS_CON_CFG_CTX q.det.con) != getF s (FUS_CON_CFG_CTX p.det.con)))
  let acc := cal.foldl (fun acc p =>
    let x := getF s (FUS_CON_CFG_CTX p.det.con)
    let old := (acc.find? (fun e => e.1 == x)).getD (x, 0, List.replicate 42 0)
    (x, old.2.1 + 1, Config.calAdd old.2.2 [p.slot, p.det.con, p.det.recIdx, p.det.x, p.det.y, p.det.z]) ::
      acc.filter (fun e => e.1 != x)) s.fus.calAcc
  let flags := (if 0 < excess then 1 else 0) + (if 0 < nf then 2 else 0) + (if lateMask ≠ 0 then 4 else 0) + (if 0 < stale then 8 else 0)
  let own := (List.range 32).filter (fun c => ok c && conKind s c == 2)
  let grids := own.map (fun c => (numAt s (conRes s c + 0x10) 8, cellsOf s c)) ++ useGrid.map (·.2)
  let dc := getF s FUS_EGO_CTL_DATA_CON
  let run : FusRun := {
    pitch := n, header := fusHeader s n tf t3.length flags present missing lateMask,
    gridHeader := fusHeader s n tf 0 flags present missing lateMask,
    records := (t3.map (objRecord s tf)).flatten, grid := fuseGrids s tf grids,
    tracks := t3, nextId := id, births := nb, dels := t1.length - t2.length }
  seq [forEach st (fun e => seq [
      wr (FUS_CON_STAT e.1) (n % 2 ^ 16 + e.2 * 2 ^ 16),
      whenA (e.2 != 0) (incReg FUS_MISS_CNT),
      whenA (e.2 != 0x71 && e.2 != 0x70 && e.2 != 0x74) (unitRead .fusion (conRes s e.1) (conLen s e.1))]),
    addReg FUS_TRUNC_CNT excess, addReg FUS_FULL_CNT nf, addReg FUS_STALE_APP_CNT stale,
    addReg FUS_LATE_APP_CNT (((List.range 32).filter (fun c => bit lateMask c)).length),
    addReg FUS_LATE_DISC_CNT (lateOld + (lateGrids.length - useGrid.length)),
    forEach lateGrids (fun g => fun s => [.fcons g.1 { get_fcons s g.1 with lateGrid := none }]),
    setFus (fun f => { f with
      late := [], run := some run, calAcc := acc,
      grids := if dc < 32 ∧ own.contains dc then ((n, cellsOf s dc) :: f.grids).take 2 else f.grids })] s

/-- FUSION_RUN_START (R393): at most one run a pitch; nothing is written where the output memory is no longer owned
(R407). -/
def execFusionRunStart (now : Nat) (s : State) : Host.Outcome State Fault Refusal :=
  done (seq [advance now, fun s =>
    let n := pitchNum s
    let own := getF s FUS_OWN_PART
    if getF s FUS_STAT_STATE ≠ 1 ∨ getF s FUS_STAT_RUN ≠ 1 ∨ fusReady s n now = false then []
    else if !(ownsRange s own (rd64 s FUS_OBJ) 64 && ownsRange s own (rd64 s FUS_GRID) 64 &&
        ownsRange s own (rd64 s FUS_CW) 8 && ownsRange s own (rd64 s FUS_APP) 64) then
      seq [setF FUS_STAT_CFG_ERR 1, setF FUS_STAT_RUN 0, setFus (fun f => { f with ranPitch := some n })] s
    else seq [fusRun n, setF FUS_STAT_RUN 2, setFus (fun f => { f with ranPitch := some n })] s]) s

/-- LATE_RESULT (R406): a result announced after the run of its pitch started is held if it is OK. -/
def lateResult (c m : Nat) : Act := fun s =>
  if blockStatus s c m ≠ 0 then []
  else if conKind s c = 1 then
    let ds := detsOf s c
    let room := getF s FUS_LIM2_LATE_MAX - s.fus.late.length
    seq [setFus (fun f => { f with late := f.late ++ ds.take room }), setF (FUS_CON_STAT_LATE c) 1,
      whenA (decide (room < ds.length)) (incReg FUS_LATE_DISC_CNT)] s
  else
    seq [whenA (get_fcons s c).lateGrid.isSome (incReg FUS_LATE_DISC_CNT),
      upd (.fcons c { get_fcons s c with lateGrid := some (numAt s (conRes s c + 0x10) 8, cellsOf s c) }),
      setF (FUS_CON_STAT_LATE c) 1] s

/-- CONTRIBUTOR_ANNOUNCE (R393, R406): the completion word of contributor `c` reaches the unit. -/
def execContributorAnnounce (c : Nat) (s : State) : Host.Outcome State Fault Refusal :=
  done (fun s =>
    let n := pitchNum s
    let m := numAt s (conRes s c) 2
    if getF s FUS_STAT_STATE ≠ 1 ∨ conKind s c = 0 ∨ 32 ≤ c then []
    else match s.fus.ranPitch with
      | some r =>
        if m = r % 2 ^ 16 then lateResult c r s
        else if m = n % 2 ^ 16 then [.fcons c { get_fcons s c with announced := some m }]
        else []
      | none => if m = n % 2 ^ 16 then [.fcons c { get_fcons s c with announced := some m }] else []) s

/-! ### Issue, drain, tick (R404, R405, R407) -/

/-- FUSION_ISSUE (R404, R405): list, grid, anchor copies, completion word, report; the track store takes the updates. -/
def execFusionIssue (s : State) : Host.Outcome State Fault Refusal :=
  done (fun s =>
    match s.fus.run with
    | none => []
    | some r =>
      let o := rd64 s FUS_OBJ
      let g := rd64 s FUS_GRID
      let obj := r.header ++ r.records
      let st1 := writeStatus s o obj.length
      seq [unitWrite .fusion o obj, fun s =>
        let st2 := writeStatus s g (r.gridHeader ++ r.grid).length
        seq [unitWrite .fusion g (r.gridHeader ++ r.grid),
          sendFwd (.fused r.pitch obj),
          signalWord .fusion (rd64 s FUS_CW) (r.pitch % 2 ^ 16) 1 (if st1 ≠ 0 then st1 else st2) 3,
          setFus (fun f => { f with tracks := r.tracks, nextId := r.nextId, run := none }),
          setF FUS_STAT_TRACKS r.tracks.length, addReg FUS_BIRTH_CNT r.births, addReg FUS_DEL_CNT r.dels,
          incReg FUS_DONE_CNT, setF FUS_STAT_RUN 0, reportTask 0x11] s] s) s

/-- FUSION_DISABLE (R104, R407). -/
def fusEnable (v : Bool) : Act := fun s =>
  seq [setF FUS_CTL_EN (if v then 1 else 0),
    whenA (!v && getF s FUS_STAT_STATE == 1) (seq [setF FUS_STAT_STATE 2,
      whenA (getF s FUS_STAT_RUN == 1) (setF FUS_STAT_RUN 0)])] s

/-- FUSION_DISABLE (R104, R407): announcements are ignored from now on; a run in progress drains. -/
def execFusionDisable (src : Master) (s : State) : Host.Outcome State Fault Refusal :=
  done (guarded (swWriteOk src) src FUS_CTL (fusEnable false)) s

/-- Is no run in progress? -/
def fusIdle (s : State) : Bool := s.fus.run.isNone

/-- The drain timeout: nothing more is written, FUS_CW carries ABORTED, the track store stays. -/
def fusDrainTimeout : Act := fun s =>
  seq [(match s.fus.run with
      | some r => signalWord .fusion (rd64 s FUS_CW) (r.pitch % 2 ^ 16) 1 5 3
      | none => nop),
    setFus (fun f => { f with run := none }), setF FUS_STAT_RUN 0, setF FUS_STAT_STATE 0] s

/-- What tick n does to the unit (R383, R389, R393, R405, R407): a run unfinished is withheld, the shadow is decided, an
enabled unit that is OFF starts with every track deleted, contributors without a released job are marked. -/
def fusTick : Act := seq [
  fun s => if s.fus.run.isSome then
      seq [incReg FUS_WITHHELD_CNT, setFus (fun f => { f with run := none }), setF FUS_STAT_RUN 0] s else [],
  fusCommitDecide, calTick,
  fun s => if flag s FUS_CTL_EN && getF s FUS_STAT_STATE == 0 then
      seq [setF FUS_STAT_STATE 1, setFus (fun f => { f with tracks := [], late := [] }), setF FUS_STAT_TRACKS 0] s else [],
  fun s => if getF s FUS_STAT_STATE == 1 then setF FUS_STAT_RUN 1 s else [],
  forEach (List.range 32) (fun c => fun s =>
    if conKind s c = 0 then [] else
    [.fcons c { get_fcons s c with announced := none, part := !(get_parts s (conPart s c)).hadJob }])]

end Sys2Proof.Machine
end

