-- ==== Sys2Proof/Machine/Traverse.lean ====
section
/-! DEFINITION. The traverse unit (spec/16 R410 to R430): configuration, the road map, layers, checking, reduction,
re-check, the stop profile, issue and drains. -/
namespace Sys2Proof.Machine

def setTrv (f : Trv → Trv) : Act := fun s => [.trv (f s.trv)]

/-- Round a quotient up. -/
def ceilDiv (a b : Nat) : Nat := (a + b - 1) / b

/-! ### The map in force (R414, R415) -/

/-- A little-endian field of a map's bytes. -/
def mapNum (m : List Byte) (o n : Nat) : Nat := leNat ((m.drop o).take n)

/-- The map store in force. -/
def mapOf (s : State) : List Byte := s.trv.maps.getD (getF s TRV_STAT_MAP_SLOT) []
def nEdge (s : State) : Nat := getF s TRV_MAP_CNT_NEDGE
def nPath (s : State) : Nat := getF s TRV_MAP_CNT_NPATH
/-- Offset of edge `e`, and of path `p`, in a map of `ne` edges. -/
def edgeOff (e : Nat) : Nat := 64 + 32 * e
def pathOff (ne p : Nat) : Nat := 64 + 32 * ne + 64 * p
/-- Edge indices of path `p`. -/
def pathEdges (s : State) (p : Nat) : List Nat :=
  let m := mapOf s
  let o := pathOff (nEdge s) p
  (List.range (mapNum m o 1)).map (fun i => mapNum m (o + 0x10 + 2 * i) 2)

/-- Does an edge record pass validation? -/
def edgeOk (m : List Byte) (e : Nat) : Bool :=
  let o := edgeOff e
  decide (mapNum m o 2 < 16384 ∧ mapNum m (o + 2) 2 < 16384 ∧ 10 ≤ mapNum m (o + 0xE) 2 ∧ mapNum m (o + 0xE) 2 ≤ 5000 ∧
    mapNum m (o + 0x18) 1 < 4 ∧ mapNum m (o + 0x19) 1 = 0 ∧ mapNum m (o + 0x1E) 2 = 0)

/-- Does a path record pass validation? -/
def pathOk (m : List Byte) (ne p : Nat) : Bool :=
  let o := pathOff ne p
  let k := mapNum m o 1
  let idx (i : Nat) : Nat := mapNum m (o + 0x10 + 2 * i) 2
  decide (1 ≤ k ∧ k ≤ 16 ∧ mapNum m (o + 1) 1 < 2 ∧ mapNum m (o + 2) 2 = 0 ∧ mapNum m (o + 4) 12 = 0 ∧
    mapNum m (o + 0x30) 16 = 0) &&
  (List.range 16).all (fun i => if i < k then decide (idx i < ne) else idx i == 0xFFFF) &&
  (List.range (k - 1)).all (fun i => mapNum m (edgeOff (idx i) + 2) 2 == mapNum m (edgeOff (idx (i + 1))) 2)

/-- Does a staged map pass validation (R410, R415)? -/
def mapOk (m : List Byte) : Bool :=
  let ne := mapNum m 0 2
  let np := mapNum m 2 2
  decide (1 ≤ ne ∧ ne ≤ 16384 ∧ 1 ≤ np ∧ np ≤ 1024 ∧ mapNum m 4 60 = 0) &&
    (List.range ne).all (edgeOk m) && (List.range np).all (pathOk m ne)

/-- MAP_COMMIT (R414): starts loading the staged map; ignored while MAP_BUSY. -/
def mapCommit : Act := fun s =>
  if flag s TRV_STAT_MAP_BUSY then []
  else seq [setF TRV_STAT_MAP_BUSY 1, setTrv (fun t => { t with mapFrom := some (rd64 s TRV_MAP) })] s

/-- MAP_COMMIT. -/
def execMapCommit (src : Master) (s : State) : Host.Outcome State Fault Refusal :=
  done (guarded (swWriteOk src) src TRV_CTL mapCommit) s

/-- MAP_LOAD_DONE (R414, R415): with no run active the staged map has been loaded and is validated. -/
def execMapLoadDone (s : State) : Host.Outcome State Fault Refusal :=
  done (fun s =>
    match s.trv.mapFrom with
    | none => []
    | some a =>
      if s.trv.run.isSome then [] else
      let ne := min 16384 (numAt s a 2)
      let np := min 1024 (numAt s (a + 2) 2)
      let len := 64 + 32 * ne + 64 * np
      let m := bytesAt s a len
      let good := readStatus s a 64 == 0 && readStatus s a len == 0 && mapOk m
      seq [unitRead .traverse a len,
        if good then setTrv (fun t => { t with mapFrom := none, mapReady := some m })
        else seq [setTrv (fun t => { t with mapFrom := none }), setF TRV_STAT_MAP_BUSY 0, setF TRV_STAT_MAP_ERR 1]] s) s

/-- MAP_SWITCH (R414): a validated map takes effect at the tick. -/
def mapSwitch : Act := fun s =>
  match s.trv.mapReady with
  | none => []
  | some m =>
    let k := 1 - getF s TRV_STAT_MAP_SLOT
    seq [setTrv (fun t => { t with maps := t.maps.set k m, mapReady := none, mapSeq := (t.mapSeq + 1) % 2 ^ 32 }),
      setF TRV_STAT_MAP_SLOT k, setF TRV_STAT_MAP_BUSY 0,
      setF TRV_MAP_CNT_NEDGE (mapNum m 0 2), setF TRV_MAP_CNT_NPATH (mapNum m 2 2)] s

/-! ### Configuration (R412, R413, R416) -/

/-- Lattice points along x and along y of a rectangle, by its dimension word and the cell size. -/
def latX (w c : Nat) : Nat := ceilDiv (bits w 14 0) c + 1
def latY (w c : Nat) : Nat := ceilDiv (bits w 30 16) c + 1

/-- Lattice total over the enabled rectangles (R416). -/
def latTotal (dims : List Nat) (c : Nat) : Nat := (dims.filter (fun w => bit w 31)).foldl (fun n w => n + latX w c * latY w c) 0

/-- Samples of an edge of `len` cm at a spacing in mm (R416). -/
def samples (len mm : Nat) : Nat := ceilDiv (len * 10) (max 1 mm) + 1

/-- Does the shadow pass its checks (R412)? -/
def trvShadowOk (s : State) : Bool :=
  let own := getShadow s TRV_OWN_PART
  let o := rdShadow64 s TRV_OUT
  let w := rdShadow64 s TRV_CW
  let e := rdShadow64 s TRV_EDGE
  let mm := getShadow s TRV_SAMPLE_SAMPLE_MM
  let c := max 1 (getF s FUS_GRID_CFG_CELL_MM)
  let dims := (List.range 4).map (fun r => rdShadow s (TRV_FP_DIM r))
  let f := latTotal dims c
  o % 64 == 0 && w % 64 == 0 && e % 64 == 0 && ownsRange s own o 640 && ownsRange s own w 8 &&
    (e == 0 || ownsRange s own e (4 * max 1 (nEdge s))) && decide (100 ≤ mm ∧ mm ≤ 2000) && dims.any (fun w => bit w 31) &&
    (List.range 8).all (fun l => bits (rdShadow s (TRV_LYR_CFG l)) 0 0 == 0 ||
      (rdShadow64 s (TRV_LYR_CELL l) % 64 == 0 && rdShadow64 s (TRV_LYR_CW l) % 64 == 0 &&
        ownsRange s (getShadow s (TRV_LYR_CFG_PART l)) (rdShadow64 s (TRV_LYR_CELL l)) 262144 &&
        ownsRange s (getShadow s (TRV_LYR_CFG_PART l)) (rdShadow64 s (TRV_LYR_CW l)) 8)) &&
    (List.range (nEdge s)).all (fun i =>
      let k := samples (mapNum (mapOf s) (edgeOff i + 0xE) 2) mm
      decide (k ≤ 64 ∧ k * f ≤ getF s TRV_LIM_CELLS_MAX))

/-- The commit decided at the tick (R412). -/
def trvCommitDecide : Act := fun s =>
  if !flag s TRV_CTL_COMMIT then []
  else if trvShadowOk s then
    seq [setF TRV_CTL_COMMIT 0, applyShadow 0x200000B00000 0x200000C00000, setTrv (fun t => { t with committed := true })] s
  else seq [setF TRV_CTL_COMMIT 0, setF TRV_STAT_CFG_ERR 1] s

/-- TRV_COMMIT (R412). -/
def execTrvCommit (src : Master) (s : State) : Host.Outcome State Fault Refusal :=
  done (guarded (swWriteOk src) src TRV_CTL (setF TRV_CTL_COMMIT 1)) s

/-- May a master write TRV_HOLD (R413)? -/
def trvHoldOk (s : State) : Master → Bool
  | .app _ => true
  | .core g => coreOwner s g == getF s TRV_OWN_PART
  | _ => false

/-- A write of TRV_HOLD. -/
def trvHoldWrite (v : Nat) : Act := seq [setF TRV_HOLD_PATH (bits v 9 0), setF TRV_HOLD_VALID (bits v 15 15)]

/-- TRV_HOLD_WRITE (R413). -/
def execTrvHoldWrite (src : Master) (v : Nat) (s : State) : Host.Outcome State Fault Refusal :=
  done (guarded (trvHoldOk s src) src TRV_HOLD (trvHoldWrite v)) s

/-! ### Layers (R418, R419) -/

def lyrOn (s : State) (l : Nat) : Bool := flag s (TRV_LYR_CFG_EN l)

/-- Is layer `l` announced for pitch n (R419), and its partition released (R428)? -/
def lyrAnnounced (s : State) (l n : Nat) : Bool :=
  let w := rd64 s (TRV_LYR_CW l)
  (get_parts s (getF s (TRV_LYR_CFG_PART l))).hadJob && readStatus s w 8 == 0 && numAt s (w + 4) 1 == 0 &&
    decide (1 ≤ numAt s (w + 2) 2) && (flag s (TRV_LYR_CFG_PERSIST l) || numAt s w 2 == n % 2 ^ 16)

/-- Copy a layer into the store, its epoch with it; a failed read leaves it uncopied. -/
def lyrCopy (l n : Nat) : Act := fun s =>
  let a := rd64 s (TRV_LYR_CELL l)
  let w := rd64 s (TRV_LYR_CW l)
  seq [unitRead .traverse a 262144,
    whenA (readStatus s a 262144 == 0) (seq [
      upd (.tlayers l ⟨some n, numAt s (w + 2) 2, numAt s w 2, bytesAt s a 262144⟩),
      setF (TRV_LYR_STAT_EPOCH l) (numAt s (w + 2) 2)])] s

/-- LAYER_COPY (R419): an announced layer is copied early, once a pitch. -/
def execLayerCopy (l : Nat) (s : State) : Host.Outcome State Fault Refusal :=
  done (fun s =>
    let n := pitchNum s
    if getF s TRV_STAT_RUN = 1 ∧ lyrOn s l ∧ l < 8 ∧ (get_tlayers s l).copiedIn ≠ some n ∧ lyrAnnounced s l n then
      lyrCopy l n s else []) s

/-- Cost of a layer at a cell, 255 lethal (R418); none: outside the grid. -/
def lyrCost (s : State) (l : Nat) (missing : Bool) (i : Option Nat) : Nat :=
  let unk := getF s (TRV_LYR_CFG2_UNK_COST l)
  if missing then (if flag s (TRV_LYR_CFG_MISS l) then unk else 255)
  else match i with
    | none => unk
    | some i =>
      let v := ((get_tlayers s l).cells.getD i 0).toNat
      if !flag s (TRV_LYR_CFG_FMT l) then v
      else if v = 0x80 then unk
      else
        let sv := toSigned 8 v
        if toSigned 8 (getF s (TRV_LYR_CFG_LETHAL l)) ≤ sv then 255 else min (2 * (max sv 0).toNat) 254

/-! ### Checking (R416, R417, R420) -/

/-- The lattice cells of sample `k` of edge `e`. -/
def sampleCells (s : State) (n e k : Nat) : List (Option Nat) :=
  let c := max 1 (getF s FUS_GRID_CFG_CELL_MM)
  let m := mapOf s
  let ew := (List.range 8).map (fun i => mapNum m (edgeOff e + 4 * i) 4)
  let base := ew ++ poseAt s (fusInstant s n) ++ (List.range 3).map (fun i => rd s (TRV_MAP_XF i)) ++
    [rd s TRV_SAMPLE, rd s FUS_GRID_CFG, getF s FUS_EGO_SCALE2_HINGE_X_MM, k]
  ((List.range 4).map (fun r =>
    let d := rd s (TRV_FP_DIM r)
    if bit d 31 then
      (List.range (latX d c * latY d c)).map (fun i =>
        let v := Config.trvCell (base ++ [d, rd s (TRV_FP_POS r), i])
        if v < 262144 then some v else none)
    else [])).flatten

/-- Layers of a run, with whether each is missing. -/
def runLayers (used missing : Nat) : List (Nat × Bool) :=
  (List.range 8).filterMap (fun l => if bit used l then some (l, false) else if bit missing l then some (l, true) else none)

/-- Is a sample lethal, and what does it cost? -/
def sampleCheck (s : State) (ls : List (Nat × Bool)) (n e k : Nat) : Nat × Bool :=
  let cells := sampleCells s n e k
  let m := ls.map (fun l => (l.1, (cells.map (lyrCost s l.1 l.2)).foldl max 0))
  ((m.map (fun x => getF s (TRV_LYR_CFG_W x.1) * x.2)).sum, m.any (fun x => x.2 == 255))

/-- Edge `e` is free and costs so much (R420). -/
def edgeCheck (s : State) (ls : List (Nat × Bool)) (n e : Nat) : Nat × Bool :=
  let m := mapOf s
  let r := (List.range (samples (mapNum m (edgeOff e + 0xE) 2) (getF s TRV_SAMPLE_SAMPLE_MM))).map (sampleCheck s ls n e)
  (min 0x7FFFFFFF (mapNum m (edgeOff e + 0x1A) 2 + (r.map (·.1)).sum),
    bit (mapNum m (edgeOff e + 0x18) 1) 1 && !r.any (·.2))

/-- Path `p` is free and costs so much, by the edge results. -/
def pathCheck (s : State) (es : List (Nat × Bool)) (p : Nat) : Option Nat :=
  let rs := (pathEdges s p).map (fun e => es.getD e (0, false))
  if bit (mapNum (mapOf s) (pathOff (nEdge s) p + 1) 1) 0 ∧ rs.all (·.2) then
    some (min 0x7FFFFFFF ((rs.map (·.1)).sum))
  else none

/-- The reduction (R421): the 8 best free paths by cost, then number; and how many paths are free. -/
def reduction (s : State) (es : List (Nat × Bool)) : List (Nat × Nat) × Nat :=
  let free := (List.range (nPath s)).filterMap (fun p => (pathCheck s es p).map (fun c => (c, p)))
  (free.foldl (fun b x => (insertBy (fun a b => decide (a.1 < b.1)) x b).take 8) [], free.length)

/-- May the run of pitch n start (R419)? -/
def trvReady (s : State) (n now : Nat) : Bool :=
  decide (tickDue s n + getF s TRV_DL_DL_US * 1000 ≤ now) ||
    (List.range 8).all (fun l => !lyrOn s l || !flag s (TRV_LYR_CFG_EXPECT l) || lyrAnnounced s l n)

/-- TRAVERSE_RUN_START (R419 to R421): layers not yet copied are copied, the passes are checked, candidates reduced. -/
def execTraverseRunStart (now : Nat) (s : State) : Host.Outcome State Fault Refusal :=
  done (seq [advance now, fun s =>
    let n := pitchNum s
    if getF s TRV_STAT_STATE ≠ 1 ∨ getF s TRV_STAT_RUN ≠ 1 ∨ s.trv.committed = false ∨ trvReady s n now = false then []
    else seq [
      forEach (List.range 8) (fun l => fun s =>
        if lyrOn s l && (get_tlayers s l).copiedIn != some n && lyrAnnounced s l n then lyrCopy l n s else []),
      fun s =>
        let used := (List.range 8).foldl (fun m l =>
          if lyrOn s l && (get_tlayers s l).copiedIn == some n && (get_parts s (getF s (TRV_LYR_CFG_PART l))).hadJob then m + 2 ^ l else m) 0
        let missing := (List.range 8).foldl (fun m l =>
          if lyrOn s l && !bit used l && (flag s (TRV_LYR_CFG_EXPECT l) || lyrAnnounced s l n ||
              !(get_parts s (getF s (TRV_LYR_CFG_PART l))).hadJob) then m + 2 ^ l else m) 0
        let ls := runLayers used missing
        let hold := if flag s TRV_HOLD_VALID ∧ getF s TRV_HOLD_PATH < nPath s then some (getF s TRV_HOLD_PATH) else none
        let es := (List.range (nEdge s)).map (edgeCheck s ls n)
        let (best, fp) := reduction s es
        seq [forEach (List.range 8) (fun l => whenA (lyrOn s l) (seq [
            setF (TRV_LYR_STAT_USED l) (if bit used l then 1 else 0), setF (TRV_LYR_STAT_MISSING l) (if bit missing l then 1 else 0),
            setF (TRV_LYR_STAT_CHANGED l) 0])),
          setTrv (fun t => { t with run := some ⟨n, hold, used, missing, best, fp, es,
            ceilDiv (nEdge s) 4096 + (if hold.isSome then 1 else 0)⟩ }),
          setF TRV_STAT_RUN 2] s] s]) s

/-! ### The stop profile (R424) -/

/-- Nearest integer to an FP32 value. -/
def fpNearest (w : Nat) : Nat :=
  match fD w with
  | .fin _ m e => if 0 ≤ e then m * 2 ^ e.toNat else (2 * m / 2 ^ (-e).toNat + 1) / 2
  | _ => 0

/-- Nearest integer to the square root of an FP32 value. -/
def fpSqrtNearest (w : Nat) : Nat :=
  match fD w with
  | .fin false m e => (Nat.sqrt (if 0 ≤ e then 4 * m * 2 ^ e.toNat else 4 * m / 2 ^ (-e).toNat) + 1) / 2
  | _ => 0

/-- What R424 computes: v0, a, d in mm, SHORT, and eight (distance, speed) pairs. -/
structure StopProfile where
  v0 : Nat
  a : Nat
  d : Int
  short : Bool
  pts : List (Nat × Nat)

/-- |V| of Pose(t_f(n)) in cm/s as FP32. -/
def stopV0 (s : State) : Nat :=
  let q := rd s FUS_EGO_SEQ
  fpMul (if q = 0 then 0 else poseWord s (q - 1) 10 % 2 ^ 31) 0x42C80000

/-- Distance in mm along the hold path to its first lethal sample, or its length, less MARGIN_CM. -/
def stopDist (s : State) (ls : List (Nat × Bool)) (n p : Nat) : Int :=
  let m := mapOf s
  let mm := max 1 (getF s TRV_SAMPLE_SAMPLE_MM)
  let go := (pathEdges s p).foldl (fun (acc : Nat × Bool) e =>
    if acc.2 then acc else
    let len := mapNum m (edgeOff e + 0xE) 2 * 10
    match (List.range (samples (len / 10) mm)).find? (fun k => (sampleCheck s ls n e k).2) with
    | some k => (acc.1 + min (k * mm) len, true)
    | none => (acc.1 + len, false)) (0, false)
  (go.1 : Int) - 10 * (getF s TRV_STOP2_MARGIN_CM : Nat)

/-- The stop profile for a distance `d` in mm. -/
def stopProfile (s : State) (d : Int) : StopProfile :=
  let v0 := stopV0 s
  let vv := fpMul v0 v0
  let q := fpDiv vv (fpMul 0x40000000 (fpRat d 10))
  let amax := fpRat (getF s TRV_STOP_A_MAX) 1
  let short := decide (d ≤ 0) || fpLt amax q
  let comf := fpRat (getF s TRV_STOP_A_COMF) 1
  let a := if short then amax else if fpLt q comf then comf else q
  let full := fpDiv vv (fpMul 0x40000000 a)
  let pts := (List.range 8).map (fun (k : Nat) =>
    let dist := fpDiv (fpMul (fpRat k 1) full) (fpRat 7 1)
    let r := fpSub vv (fpMul (fpMul 0x40000000 a) dist)
    (fpNearest dist % 2 ^ 16, fv 201 [r] (fpSqrtNearest r) % 2 ^ 16))
  ⟨fpNearest v0 % 2 ^ 16, fpNearest a % 2 ^ 16, d, short, pts⟩

/-! ### Issue (R423 to R427) -/

/-- One candidate record. -/
def candRecord (s : State) (rank : Nat) (c : Nat × Nat) (rechecked : Bool) : List Byte :=
  let m := mapOf s
  let es := pathEdges s c.2
  let len := es.foldl (fun n e => n + mapNum m (edgeOff e + 0xE) 2) 0
  leBytes 2 c.2 ++ leBytes 1 rank ++ leBytes 1 es.length ++ leBytes 4 c.1 ++ leBytes 4 len ++
  leBytes 2 (if rechecked then 1 else 0) ++ leBytes 2 0 ++
  ((List.range 16).map (fun i => leBytes 2 (es.getD i 0xFFFF))).flatten ++
  ((List.range 8).map (fun i => leBytes 2 (match es[i]? with | some e => mapNum m (edgeOff e + 0x1C) 2 | none => 0))).flatten

/-- What an issue writes. -/
structure TrvOut where
  cands : List (Nat × Nat)
  rechecked : Bool
  changed : Nat
  timeout : Bool
  noEgo : Bool
  d : Int
  holdOk : Bool

/-- The header (R425). -/
def trvHeader (s : State) (r : TrvRun) (o : TrvOut) (status : Nat) : List Byte :=
  let sp := stopProfile s o.d
  let np := o.cands.isEmpty
  leBytes 2 r.pitch ++ leBytes 1 o.cands.length ++ leBytes 1 status ++
  leBytes 2 ((if np then 1 else 0) + (if o.timeout then 2 else 0) + (if o.rechecked then 4 else 0) +
    (if sp.short then 8 else 0) + (if o.holdOk then 16 else 0)) ++
  leBytes 2 (r.hold.getD 0xFFFF) ++ leBytes 8 (fusInstant s r.pitch) ++
  leBytes 1 r.used ++ leBytes 1 r.missing ++ leBytes 1 o.changed ++ leBytes 1 r.passes ++
  leBytes 2 r.freePaths ++ leBytes 2 0 ++ leBytes 2 sp.v0 ++ leBytes 2 sp.a ++
  leBytes 4 (ofSigned 32 ((o.d + 5) / 10)) ++
  ((sp.pts.map (fun p => leBytes 2 p.1 ++ leBytes 2 p.2)).flatten) ++ leBytes 4 s.trv.mapSeq ++ leBytes 60 0

/-- Issue a run's outputs in the order of R425; a partition without a released job is not written to (R428). -/
def trvIssue (r : TrvRun) (o : TrvOut) : Act := fun s =>
  let own := getF s TRV_OWN_PART
  let wr' := (get_parts s own).hadJob
  let out := rd64 s TRV_OUT
  let ea := rd64 s TRV_EDGE
  let recs := ((o.cands.zipIdx).map (fun c => candRecord s c.2 c.1 o.rechecked)).flatten
  let edges := ((List.range (nEdge s)).map (fun i => match r.edges[i]? with
    | some e => leBytes 4 (e.1 + (if e.2 then 0 else 2 ^ 31))
    | none => leBytes 4 0xFFFFFFFF)).flatten
  let st1 := if recs.isEmpty then 0 else writeStatus s (out + 0x80) recs.length
  let st2 := writeStatus s out 128
  let st3 := if ea = 0 ∨ edges = [] then 0 else writeStatus s ea edges.length
  let wst := if st1 ≠ 0 then st1 else if st2 ≠ 0 then st2 else st3
  let pre := if o.noEgo then 0x82 else if o.timeout then 0x81 else 0
  let post := if o.cands.isEmpty then 0x80 else 0
  let status := if pre ≠ 0 then pre else if wst ≠ 0 ∧ wr' then wst else post
  seq [(if wr' then seq [unitWrite .traverse (out + 0x80) recs,
        unitWrite .traverse out (trvHeader s r o (if pre ≠ 0 then pre else post)),
        whenA (ea != 0) (unitWrite .traverse ea edges),
        signalWord .traverse (rd64 s TRV_CW) (r.pitch % 2 ^ 16) 1 status 4]
      else incReg TRV_WITHHELD_CNT),
    incReg TRV_DONE_CNT, whenA o.cands.isEmpty (incReg TRV_NOPATH_CNT), whenA o.timeout (incReg TRV_TIMEOUT_CNT),
    wr TRV_LAST (r.pitch % 2 ^ 16 + status * 2 ^ 16), setTrv (fun t => { t with run := none }),
    setF TRV_STAT_RUN 0, reportTask 0x12] s

/-- Layers whose word changed since their copy (R423). -/
def changedLayers (s : State) (r : TrvRun) : List Nat :=
  (List.range 8).filter (fun l => bit r.used l &&
    (let w := rd64 s (TRV_LYR_CW l)
     numAt s (w + 2) 2 != (get_tlayers s l).epoch || numAt s w 2 != (get_tlayers s l).wordPitch))

/-- Is path `p` free on the layers as they now stand? -/
def holdFree (s : State) (r : TrvRun) (p : Nat) : Bool :=
  let ls := runLayers r.used r.missing
  bit (mapNum (mapOf s) (pathOff (nEdge s) p + 1) 1) 0 && (pathEdges s p).all (fun e => (edgeCheck s ls r.pitch e).2)

/-- TRAVERSE_ISSUE (R423 to R425): changed layers are copied again and the candidates re-checked once, then the outputs
are issued with the stop profile. -/
def execTraverseIssue (s : State) : Host.Outcome State Fault Refusal :=
  done (fun s =>
    match s.trv.run with
    | none => []
    | some r =>
      let ch := changedLayers s r
      let noEgo := getF s FUS_EGO_STAT_MODE == 3
      seq [forEach ch (fun l => seq [lyrCopy l r.pitch, setF (TRV_LYR_STAT_CHANGED l) 1]), fun s =>
        let ls := runLayers r.used r.missing
        let kept := if ch.isEmpty then r.best else r.best.filter (fun c => holdFree s r c.2)
        let d := match r.hold with
          | some p => if noEgo then 0 else stopDist s ls r.pitch p
          | none => 0
        let hok := match r.hold with | some p => holdFree s r p | none => false
        seq [whenA (!ch.isEmpty) (seq [incReg TRV_RECHECK_CNT, addReg TRV_DROP_CNT (r.best.length - kept.length)]),
          trvIssue r ⟨if noEgo then [] else kept, !ch.isEmpty, ch.foldl (fun m l => m + 2 ^ l) 0, false, noEgo, d, hok⟩] s] s) s

/-! ### Enables and ticks (R428) -/

/-- A write of TRV_CTL.EN; clearing abandons a map load in progress. -/
def trvEnable (v : Bool) : Act := seq [writeEnable TRV_CTL_EN TRV_STAT_STATE v,
  whenA (!v) (seq [fun s => if s.trv.mapFrom.isSome then setF TRV_STAT_MAP_BUSY 0 s else [],
    setTrv (fun t => { t with mapFrom := none }),
    fun s => if getF s TRV_STAT_RUN = 1 then setF TRV_STAT_RUN 0 s else []])]

/-- TRAVERSE_DISABLE (R104, R428). -/
def execTraverseDisable (src : Master) (s : State) : Host.Outcome State Fault Refusal :=
  done (guarded (swWriteOk src) src TRV_CTL (trvEnable false)) s

/-- Is no run in progress? -/
def trvIdle (s : State) : Bool := s.trv.run.isNone

/-- The drain timeout: TRV_CW carries ABORTED, nothing else is written. -/
def trvDrainTimeout : Act := fun s =>
  seq [(match s.trv.run with
      | some r => seq [signalWord .traverse (rd64 s TRV_CW) (r.pitch % 2 ^ 16) 1 5 4,
          wr TRV_LAST (r.pitch % 2 ^ 16 + 5 * 2 ^ 16)]
      | none => nop),
    setTrv (fun t => { t with run := none }), setF TRV_STAT_RUN 0, endDrain TRV_CTL_EN TRV_STAT_STATE] s

/-- What tick n does to the unit (R412, R414, R428). -/
def trvTick : Act := seq [
  fun s => if s.trv.run.isSome then seq [incReg TRV_WITHHELD_CNT, setTrv (fun t => { t with run := none })] s else [],
  trvCommitDecide, mapSwitch,
  fun s => setF TRV_STAT_RUN (if getF s TRV_STAT_STATE = 1 ∧ s.trv.committed then 1 else 0) s]

end Sys2Proof.Machine
end

