-- ==== Sys2Proof/Machine/FaultBase.lean ====
section
/-! DEFINITION. What other blocks tell the fault controller (R464, R469, R470): job faults, unit overruns, decisions to
restart a partition. -/
namespace Sys2Proof.Machine

/-- A job fault of partition `p` on its way to the fault controller (R464); no die for an empty list. -/
def raiseJobFault (p code : Nat) (dies : List Nat) : Act := fun s =>
  if p < 16 then [.jobFaults (s.jobFaults ++ [(p, code, dies)])] else []

/-- Does partition `p` run a program on core `g` of a cluster that is lent to it (R252)? -/
def runsLent (s : State) (p g : Nat) : Bool :=
  getF s (PRT_LEND_BORROWER (g / 32) (g % 32 / 8)) == p && s.progs.any (fun e => e.part == p && e.core == g)

/-- Does the fabric hold every barrier report of partition `p` from die `d` (R53, R124)? A die removed in this pitch
reports nothing more. -/
def dieArrived (s : State) (p d : Nat) : Bool :=
  if s.flt.removed.contains d then s.flt.gone.contains (d * 16 + p) else
  ((List.range 32).map (fun c => d * 32 + c)).all (fun g =>
    if coreOwner s g == p then flag s (CORE_STAT_ARRIVED g) || dieRemoved s d || getF s (PRT_CLU_PWR d (g % 32 / 8)) != 2
    else !runsLent s p g || (get_cores s g).bor == 2)

/-- Dies on which a partition runs: it owns clusters there, or runs on a lent one. -/
def diesOf (s : State) (p : Nat) : List Nat :=
  (List.range 8).filter (fun d => (List.range 4).any (fun c => getF s (PRT_CLU_PART d c) == p)
    || (List.range 32).any (fun c => runsLent s p (d * 32 + c)))

/-- Dies of the partition whose barrier report had not arrived (R464). -/
def lateDies (s : State) (p : Nat) : List Nat := (diesOf s p).filter (fun d => !dieArrived s p d)

/-- R464: an overrun of a partition that is not elastic is a job fault of code 0x02. -/
def overrunFault (p : Nat) : Act := fun s =>
  if flag s (PRT_CFG_ELASTIC p) then [] else raiseJobFault p 2 (lateDies s p) s

/-- R470: a restart of partition `p` is decided; it is entered at the next tick, held in PARKING and BIVOUAC (R264),
dropped in LOADING, and a restart in progress continues unchanged (R474). -/
def decideRestart (p cause : Nat) (keep : Option (Option Nat)) : Act := fun s =>
  let st := partState s p
  if st = 4 ∨ st = 5 then setPart p (fun a => { a with restartHeld := true, rstDue := some cause, rstKeep := keep }) s
  else if st = 2 ∨ st = 6 then setPart p (fun a => { a with rstDue := some cause, rstKeep := keep }) s
  else []

/-! ### Units (R469) -/

/-- Is unit `u` (0 INGRESS, 1 FUSION, 2 TRAVERSE) drained? -/
def unitOff (s : State) (u : Nat) (xs : List Nat) : Bool :=
  if u = 0 then xs.all (fun x => getF s (ING_CTX_STAT_STATE x) == 0)
  else if u = 1 then getF s FUS_STAT_STATE == 0
  else getF s TRV_STAT_STATE == 0

/-- A drain has ended: a unit that R469 cleared notes when. -/
def unitDrainNote : Act := fun s =>
  if s.unitRst.isEmpty then [] else
  [.unitRst (s.unitRst.map (fun e => if e.2.2 = none ∧ unitOff s e.1 e.2.1 then (e.1, e.2.1, some s.time) else e))]

/-- UNIT_LASTING_RESET (R469): clear the unit's enable; with nothing in flight the drain ends at once. -/
def unitLastingReset (u : Nat) : Act := fun s =>
  let xs := (List.range 24).filter (fun x => ctxOn s x)
  seq [(if u = 0 then forEach xs (fun x => seq [ctxDisable x,
        fun s => if (ctx s x).cur = none then ctxDrainEnd x s else []])
      else if u = 1 then seq [fusEnable false, fun s => if fusIdle s then setF FUS_STAT_STATE 0 s else []]
      else seq [trvEnable false, fun s => if trvIdle s then setF TRV_STAT_STATE 0 s else []]),
    fun s => [.unitRst (s.unitRst ++ [(u, if u = 0 then xs else [], none)])],
    unitDrainNote] s

/-- An overrun or time-out of a unit in pitch `n`; the second in consecutive pitches is lasting (R469). -/
def unitEvent (u n : Nat) : Act := fun s =>
  match get_unitLast s u with
  | some m => if m = n then [] else
      seq [upd (.unitLast u (if m + 1 = n then none else some n)),
        whenA (m + 1 == n && !s.unitRst.any (fun e => e.1 == u)) (unitLastingReset u)] s
  | none => [.unitLast u (some n)]

/-- At a tick that falls 1 ms or more after its drain ended, a unit's enable is set again (R469). -/
def unitTick : Act := fun s =>
  let ready (e : Nat × List Nat × Option Nat) : Bool :=
    match e.2.2 with | some t => decide (t + 1000000 ≤ s.time) | none => false
  forEach (s.unitRst.filter ready) (fun e => seq [
    (if e.1 = 0 then forEach e.2.1 ctxEnable
     else if e.1 = 1 then setF FUS_CTL_EN 1
     else writeEnable TRV_CTL_EN TRV_STAT_STATE true),
    fun s => [.unitRst (s.unitRst.erase e)]]) s

/-- TRAVERSE_OUT_DEADLINE (R424): work is left at OUT_US, and a no-path result is issued with d = 0; two in consecutive
pitches are a lasting fault of the unit (R469). -/
def execTraverseOutDeadline (now : Nat) (s : State) : Host.Outcome State Fault Refusal :=
  done (seq [advance now, fun s =>
    let n := pitchNum s
    if now < tickTime s + getF s TRV_OUT_T_OUT_US * 1000 ∨ getF s TRV_STAT_STATE ≠ 1 then []
    else
      let o : TrvOut := ⟨[], false, 0, true, getF s FUS_EGO_STAT_MODE == 3, 0, false⟩
      match s.trv.run with
      | some r => seq [trvIssue r o, unitEvent 2 n] s
      | none => if getF s TRV_STAT_RUN = 1 then seq [trvIssue ⟨n, none, 0, 0, [], 0, [], 0⟩ o, unitEvent 2 n] s else []]) s

/-! ### Resets of register ranges -/

/-- A reset of the registers in `[lo, hi)`: RWS bits and the registers that `keep` names survive (R8, R457); with `topo`
also the TO fields, which the loader writes again from the structure in force. -/
def resetRegsWith (topo : Bool) (lo hi : Nat) (keep : Nat → Bool) : Act := fun s =>
  forEach (s.regs.filter (fun e => decide (lo ≤ e.1 ∧ e.1 < hi) && !keep e.1)) (fun e =>
    let m := match regRow e.1 with | some r => if topo then Nat.lor r.rws r.topo else r.rws | none => 0
    upd (.regs e.1 (BitVec.ofNat 32 (Nat.lor (Nat.land e.2.toNat m)
      (Nat.land (regReset e.1).toNat (2 ^ 32 - 1 - m)))))) s

/-- A reset of registers that keeps no TO field. -/
def resetRegs (lo hi : Nat) (keep : Nat → Bool) : Act := resetRegsWith false lo hi keep

/-- The power-on reset of a supply domain clears the RWS bits of its registers as well (R8). -/
def rwsClear (lo hi : Nat) : Act := fun s =>
  forEach (s.regs.filter (fun e => decide (lo ≤ e.1 ∧ e.1 < hi))) (fun e =>
    let m := match regRow e.1 with | some r => r.rws | none => 0
    upd (.regs e.1 (BitVec.ofNat 32 (Nat.lor (Nat.land e.2.toNat (2 ^ 32 - 1 - m))
      (Nat.land (regReset e.1).toNat m))))) s

end Sys2Proof.Machine
end

