-- ==== Sys2Proof/Machine/Clocks.lean ====
section
/-! DEFINITION. Operating points (R511 to R515), supply warnings and step-downs (R521 to R523) and PLL locks (R519). -/
namespace Sys2Proof.Machine

/-! ### Operating points -/

/-- Points enabled for a partition (R526): bit k for point k. -/
def opEnOf (s : State) (p : Nat) : Nat :=
  if (get_parts s p).opEn = 0 then getF s CLK_OP_EN_EN else (get_parts s p).opEn

/-- Enabled points of a partition, highest frequency first (R511). -/
def opPoints (s : State) (p : Nat) : List Nat := (List.range 5).filter (fun k => bit (opEnOf s p) k)

/-- Highest enabled point of a partition. -/
def hiPoint (s : State) (p : Nat) : Nat := ((opPoints s p)[0]?).getD 4

/-- The next enabled point below it (R51); none where there is no other. -/
def loPoint (s : State) (p : Nat) : Option Nat := (opPoints s p)[1]?

/-- Compute rail of a die (R521): 0 VDD_CDA, 1 VDD_CDB. -/
def railOf (d : Nat) : Nat := d / 4

/-- Is die `d` stopped by a temperature trip (R541)? Its hottest sensor has tripped and not cleared. -/
def tripped (s : State) (d : Nat) : Bool := s.thmTrip.contains d

/-- Is the cluster serving a borrower? -/
def lentNow (s : State) (d c : Nat) : Bool := getF s (PRT_LEND_LSTATE d c) != 0

/-- The point at which a cluster runs and whether its clock is stopped for a dip or a trip: 7 where it is not on or in
bivouac (R261, R511); in bivouac a lent cluster runs at its borrower's point (R253); a step-down lowers it (R523). -/
def clusterPoint (s : State) (d c : Nat) : Nat × Bool :=
  let p := getF s (PRT_CLU_PART d c)
  if getF s (PRT_CLU_PWR d c) ≠ 2 ∨ 16 ≤ p then (7, false)
  else if tripped s d then (7, true)
  else
    let biv := partState s p == 5
    let base := if !biv then getF s (CLK_CLU_PT_REQ d c)
      else if lentNow s d c then hiPoint s (getF s (PRT_LEND_BORROWER d c)) else 7
    let who := if biv then getF s (PRT_LEND_BORROWER d c) else p
    if base = 7 ∨ !flag s (PWR_STAT_DIP (railOf d)) then (base, false)
    else match loPoint s who with
      | some k => (max base k, false)
      | none => (7, true)

/-- The cluster's clock follows: PT_CUR, DIP and STOPPED (R528). -/
def clkShow (d c : Nat) : Act := fun s =>
  let r := clusterPoint s d c
  seq [setF (CLK_CLU_PT_CUR d c) r.1,
    setF (CLK_CLU_DIP d c) (if flag s (PWR_STAT_DIP (railOf d)) then 1 else 0),
    setF (CLK_CLU_STOPPED d c) (if r.2 then 1 else 0)] s

/-- Every cluster of a die. -/
def clkShowDie (d : Nat) : Act := forEach (List.range 4) (fun c => clkShow d c)

/-- Every cluster of a partition. -/
def clkShowPart (p : Nat) : Act := fun s => forEach (clustersOf s p) (fun c => clkShow c.1 c.2) s

/-- Set the requested point of a cluster. -/
def setPoint (d c v : Nat) : Act := seq [setF (CLK_CLU_PT_REQ d c) v, clkShow d c]

/-- Set the requested point of every cluster of a partition. -/
def setPoints (p v : Nat) : Act := fun s => forEach (clustersOf s p) (fun c => setPoint c.1 c.2 v) s

/-- May PT_REQ of a cluster name point `v` (R514)? It is the highest enabled point of the cluster's partition or the
next enabled one below it. -/
def pointOk (s : State) (d c v : Nat) : Bool :=
  let p := getF s (PRT_CLU_PART d c)
  decide (p < 16) && bit (opEnOf s p) v && (v == hiPoint s p || loPoint s p == some v)

/-- PT_REQ_WRITE (R514): the management core sets a cluster's point, or the write is ignored and IGN set. -/
def ptReqWrite (src : Master) (d c v : Nat) : Act := fun s =>
  if src ≠ .mgmt then recordRefusal src (CLK_CLU d c) s
  else if v < 5 ∧ pointOk s d c v then setPoint d c v s
  else setF CLK_STAT_IGN 1 s

/-- PT_REQ_WRITE (R514). -/
def execPtReqWrite (src : Master) (d c v : Nat) (s : State) : Host.Outcome State Fault Refusal :=
  done (fun s => if d < 8 ∧ c < 4 then ptReqWrite src d c v s else []) s

/-- A write of CLK_PT_SET (R515): the application cores alone; ignored while the thermal policy owns PT_REQ; else the
firmware writes PT_REQ under R514, and DONE or IGN is set. -/
def ptSetWrite (src : Master) (w : Nat) : Act := fun s =>
  match src with
  | .app _ =>
    let d := bits w 2 0
    let c := bits w 4 3
    let v := bits w 7 5
    seq [setF CLK_PT_SET_DIE d, setF CLK_PT_SET_CL c, setF CLK_PT_SET_PT v, setF CLK_PT_SET_DONE 0,
      whenA (bit w 9) (setF CLK_PT_SET_IGN 0),
      if flag s THM_CTL_FW_EN then setF CLK_PT_SET_IGN 1
      else if v < 5 ∧ pointOk s d c v then seq [setPoint d c v, setF CLK_PT_SET_DONE 1]
      else seq [setF CLK_STAT_IGN 1, setF CLK_PT_SET_IGN 1]] s
  | _ => recordRefusal src CLK_PT_SET s

/-- PT_SET_WRITE (R515). -/
def execPtSetWrite (src : Master) (w : Nat) (s : State) : Host.Outcome State Fault Refusal := done (ptSetWrite src w) s

/-! ### Supplies -/

/-- EVENT entry of a rail (R522, R584): warning 0 or restore 1, with the lowest voltage. An anchor rail's is logged by
the anchor dies themselves. -/
def railEvent (r what mv : Nat) : Act := fun s =>
  let data := [5, r, what, 0, mv % 256, mv / 256 % 256]
  if r < 9 then sendEvent 5 data 8 0 s
  else forEach [0, 1] (fun x => fun s =>
    if getF s (ANC_STAT_STATE x) = 0 then [] else ancLog x 0x40 r 0 (data.map (BitVec.ofNat 8)) s) s

/-- What PWR_STAT.LEVEL shows of a rail (R529). A rail between its warning and restore levels shows 1 until its restore. -/
def railLevel (s : State) (r : Nat) : Nat :=
  if (get_rails s r).below then 0 else if (get_rails s r).fallAt.isSome then 1 else 2

/-- The I/O domain has left reset: its references are stable, and its status registers show them and the rails (R525, R527). -/
def supplyShow : Act := seq [setF CLK_STAT_REF_OK 1,
  fun s => setF CLK_STAT_PCIE_REF_OK (if s.boot.clkFailed.contains 3 then 0 else 1) s,
  forEach (List.range 9) (fun r => fun s => setF (PWR_STAT_LEVEL r) (railLevel s r) s)]

/-- The lowest voltage that a rail reached in an excursion (R522). -/
def railMin (r mv : Nat) : Act := fun s =>
  if r < 9 then setF (PWR_VMIN_MV r) (min (getF s (PWR_VMIN_MV r)) (min mv 0xFFF)) s else []

/-- SUPPLY_WARNING (R521 to R523): rail `r` trips its warning level at `mv` mV, having fallen below it at `fallAt`. The
clusters of a compute rail step down; a new trip during the dip is counted and changes nothing else. -/
def execSupplyWarning (r mv fallAt now : Nat) (s : State) : Host.Outcome State Fault Refusal :=
  done (seq [advance now, fun s =>
    if 11 ≤ r then [] else seq [
      railMin r mv,
      whenA (decide (r < 9)) (seq [incReg (PWR_WARN_CNT r), setF (PWR_STAT_LEVEL r) 1]),
      upd (.rails r { get_rails s r with fallAt := some fallAt, riseAt := none }),
      fun s => railEvent r 0 (if r < 9 then getF s (PWR_VMIN_MV r) else mv) s,
      whenA (decide (r < 2) && !flag s (PWR_STAT_DIP r)) (seq [setF (PWR_STAT_DIP r) 1,
        forEach (List.range 4) (fun i => clkShowDie (4 * r + i))])] s]) s

/-- SUPPLY_RESTORE (R522, R523): a rail that tripped rises above its restore level; PWR_DIP_LAST measures the excursion
and the restore timer starts. -/
def execSupplyRestore (r mv now : Nat) (s : State) : Host.Outcome State Fault Refusal :=
  done (seq [advance now, fun s =>
    match (get_rails s r).fallAt with
    | none => []
    | some t => seq [
        railMin r mv,
        whenA (decide (r < 9)) (seq [setF (PWR_STAT_LEVEL r) 2, setF (PWR_DIP_LAST_NS r) (min (now - t) 0xFFFFFFFF)]),
        upd (.rails r { get_rails s r with fallAt := none, riseAt := some now }),
        fun s => railEvent r 1 (if r < 9 then getF s (PWR_VMIN_MV r) else mv) s] s]) s

/-- The end of a dip of a compute rail: every cluster returns to PT_REQ (R523). -/
def dipEnd (r : Nat) : Act := seq [setF (PWR_STAT_DIP r) 0, forEach (List.range 4) (fun i => clkShowDie (4 * r + i))]

/-- Has the restore timer of a rail reached 1 ms? -/
def railHeld (s : State) (r now : Nat) : Bool :=
  match (get_rails s r).riseAt with
  | some t => decide (t + 1000000 ≤ now)
  | none => false

/-- PWR_VMIN_WRITE (R529): any write sets 0xFFF. -/
def execPwrVminWrite (src : Master) (r : Nat) (s : State) : Host.Outcome State Fault Refusal :=
  done (guarded (swWriteOk src && decide (r < 9)) src (PWR_VMIN r) (setF (PWR_VMIN_MV r) 0xFFF)) s

/-! ### PLL lock (R513, R519) -/

/-- PLL_LOCK (R519): PLL `k` (0 PLL_F, 1, 2) of compute die `d` locks; a PLL at point 7 is stopped and does not. -/
def execPllLock (d k : Nat) (s : State) : Host.Outcome State Fault Refusal :=
  done (fun s =>
    if 8 ≤ d then []
    else if k = 0 then setF (CLK_CD_PLL_F_LOCK d) 1 s
    else if k = 1 then (if getF s (CLK_CD_PLL_P1_PT d) = 7 then [] else setF (CLK_CD_PLL_P1_LOCK d) 1 s)
    else if k = 2 then (if getF s (CLK_CD_PLL_P2_PT d) = 7 then [] else setF (CLK_CD_PLL_P2_LOCK d) 1 s)
    else []) s

end Sys2Proof.Machine
end

