-- ==== Sys2Proof/Machine/Banks.lean ====
section
/-! DEFINITION. Power of the shared banks and of the cluster memories (R177 to R186), phases (R182), the scrubber (R169)
and write-backs (R167). -/
namespace Sys2Proof.Machine

/-- State codes of BNK_PWR (R187). -/
abbrev bkOFF : Nat := 0
abbrev bkRET : Nat := 1
abbrev bkON : Nat := 2
abbrev bkWAKING : Nat := 3
abbrev bkPD : Nat := 4

/-- Start of phase `k` of partition `p` on die `d`, in µs from the tick; 0 where it is absent (R182). -/
def phaseStart (s : State) (d p k : Nat) : Nat :=
  if k = 1 then getF s (BNK_PH1_START_US d p)
  else if k = 2 then getF s (BNK_PH2_START_US d p)
  else if k = 3 then getF s (BNK_PH3_START_US d p)
  else 0

/-- Has phase `k` begun in the present pitch? Phase 0 always has. -/
def phaseBegun (s : State) (d p k : Nat) : Bool :=
  phaseStart s d p k != 0 && decide (tickTime s + phaseStart s d p k * 1000 ≤ s.time)

/-- The current phase of partition `p` on die `d` (R182). -/
def phaseNow (s : State) (d p : Nat) : Nat :=
  if phaseBegun s d p 3 then 3 else if phaseBegun s d p 2 then 2 else if phaseBegun s d p 1 then 1 else 0

/-- State code that a bank's schedule gives for phase `k` (R187). -/
def bankPhase (s : State) (d b k : Nat) : Nat :=
  if k = 1 then getF s (BNK_PWR_PH1 d b)
  else if k = 2 then getF s (BNK_PWR_PH2 d b)
  else if k = 3 then getF s (BNK_PWR_PH3 d b)
  else getF s (BNK_PWR_PH0 d b)

/-- The state a bank is to be in: OFF without an owner (R183), held ON by OVR (R186), its BIV state while its owner is in
PARKING or BIVOUAC (R184), else the state of the current phase (R182). -/
def bankGoal (s : State) (d b : Nat) : Nat :=
  let p := getF s (MAP_BNK_OWN_PART d b)
  if 16 ≤ p then bkOFF
  else if flag s (BNK_PWR_OVR d b) then bkON
  else if partState s p = 4 ∨ partState s p = 5 then getF s (BNK_PWR_BIV d b)
  else bankPhase s d b (phaseNow s d p)

/-- A memory of `n` bytes at `a` loses its contents: every word reads zero with valid check symbols (R177, R181). -/
def loseContents (a n : Nat) : Act := fun s =>
  seq [upd (.memDrop a n), forEach (eccIn s a n) (fun e => upd (.ecc e.1 0))] s

/-- The watch entries of a bank send their words' current values and are freed (R180). -/
def releaseBankWatches (d b : Nat) : Act := fun s =>
  let ws := get_watches s (d * 64 + b)
  if ws.isEmpty then [] else
  [.watches (d * 64 + b) [],
   .watchMsgs (s.watchMsgs ++ (ws.map (fun w => w.cores.map (fun g => ⟨g, w.addr, numAt s w.addr 8⟩))).flatten)]

/-- The transition of a bank toward a state (R178, R181): ON to dark waits in PD_WAIT, a return to ON withdraws the
power-down, a dark bank wakes through WAKING, and OFF never becomes RETAINED. -/
def bankGo (d b goal : Nat) : Act := fun s =>
  let st := getF s (BNK_PWR_STATE d b)
  let k := d * 64 + b
  if st = bkON then
    if goal = bkON then [] else seq [setF (BNK_PWR_STATE d b) bkPD, upd (.bankTarget k goal)] s
  else if st = bkPD then
    if goal = bkON then seq [setF (BNK_PWR_STATE d b) bkON, upd (.bankTarget k 0)] s else [.bankTarget k goal]
  else if st = bkRET then
    if goal = bkON then seq [setF (BNK_PWR_STATE d b) bkWAKING, upd (.bankTarget k 2)] s
    else if goal = bkOFF then seq [loseContents (bankBase d b) 0x100000, setF (BNK_PWR_STATE d b) bkOFF] s
    else []
  else if st = bkOFF then
    if goal = bkON then seq [setF (BNK_PWR_STATE d b) bkWAKING, upd (.bankTarget k 3)] s else []
  else []

/-- A bank goes to the state that its owner, its phase and OVR give. -/
def bankSettle (d b : Nat) : Act := fun s => bankGo d b (bankGoal s d b) s

/-- Every bank of a partition goes to the state it is to be in (R184). -/
def banksSettle (p : Nat) : Act := fun s => forEach (banksOf s p) (fun c => bankSettle c.1 c.2) s

/-- The start of a phase on die `d` for the banks of partition `p` (R182). -/
def phaseBegin (d p : Nat) : Act := fun s =>
  forEach ((List.range 64).filter (fun b => getF s (MAP_BNK_OWN_PART d b) == p)) (fun b => bankSettle d b) s

/-- BANK_PHASE_START (R182): phase `k` of partition `p` begins on die `d`. -/
def execBankPhaseStart (d p k now : Nat) (s : State) : Host.Outcome State Fault Refusal :=
  done (seq [advance now, fun s =>
    whenA (decide (d < 8 ∧ p < 16 ∧ k < 4) && phaseBegun s d p k && phaseNow s d p == k) (phaseBegin d p) s]) s

/-- Does a core's save slot, to be written by a switch under way, lie in bank `b` of die `d` (R254, R255)? -/
def savePending (s : State) (d b : Nat) : Bool :=
  (List.range 32).any (fun c =>
    let x := PRT_SAVE d (c / 8)
    ((get_cores s (d * 32 + c)).sw == 1 || (get_cores s (d * 32 + c)).sw == 3) && bit (rd s x) 6 &&
      decide (bits (rd s x) 5 0 ≤ b ∧ b * 256 < bits (rd s x) 5 0 * 256 + 8 * bits (rd s x) 17 8))

/-- BANK_DARK (R178, R180): in the first cycle that ends with no request in flight, a PD_WAIT bank becomes dark after
`cyc` cycles of waiting. -/
def execBankDark (d b cyc : Nat) (s : State) : Host.Outcome State Fault Refusal :=
  done (fun s =>
    if d < 8 ∧ b < 64 ∧ getF s (BNK_PWR_STATE d b) = bkPD ∧ getF s (BNK_INFL_COUNT d b) = 0 ∧ !savePending s d b then
      let to_ := get_bankTarget s (d * 64 + b)
      seq [setF (BNK_INFL_PDW_MAX d b) (max (getF s (BNK_INFL_PDW_MAX d b)) (min cyc 0xFFFF)),
        releaseBankWatches d b,
        whenA (to_ == bkOFF) (loseContents (bankBase d b) 0x100000),
        setF (BNK_PWR_STATE d b) to_, upd (.bankTarget (d * 64 + b) 0)] s
    else []) s

/-- The end of a bank's wake: contents kept from RETAINED, zero from OFF (R177); a state asked for meanwhile follows. -/
def bankAwake (d b : Nat) : Act := fun s =>
  seq [whenA (get_bankTarget s (d * 64 + b) == 3) (loseContents (bankBase d b) 0x100000),
    setF (BNK_PWR_STATE d b) bkON, upd (.bankTarget (d * 64 + b) 0)] s

/-- BANK_OVR_WRITE (R186): software sets or clears OVR; it acts at the next phase start. -/
def execBankOvrWrite (src : Master) (d b : Nat) (v : Bool) (s : State) : Host.Outcome State Fault Refusal :=
  done (guarded (swWriteOk src && decide (d < 8 ∧ b < 64)) src (BNK_PWR d b)
    (setF (BNK_PWR_OVR d b) (if v then 1 else 0))) s

/-- INTERVAL of the scrubber, raised to the least value the bounds allow (R169). -/
def scrubInterval (d v : Nat) : Act := fun s =>
  setF (BNK_SCRUB_INTERVAL d) (max (v % 2 ^ 16) (getF s (BNK_SCRUB_MIN_MIN d))) s

/-- SCRUB_INTERVAL_WRITE (R169). -/
def execScrubIntervalWrite (src : Master) (d v : Nat) (s : State) : Host.Outcome State Fault Refusal :=
  done (guarded (swWriteOk src && decide (d < 8)) src (BNK_SCRUB d) (scrubInterval d v)) s

/-- Is the scratchpad memory at an address ON (R169)? -/
def memoryOn (s : State) (a : Nat) : Bool :=
  match locOf s a with
  | .bank d b => getF s (BNK_PWR_STATE d b) == bkON
  | .coreMem d c => getF s (BNK_CLU_STATE d (c / 8)) == 2
  | .opBuf d c _ => getF s (BNK_CLU_STATE d (c / 8)) == 2
  | _ => false

/-- Word index of a scratchpad word in its memory that the scrubber counts by: operand buffers hold 4,096 words. -/
def scrubHits (s : State) (d pos w : Nat) : Bool :=
  let o := 32 * w
  memoryOn s o && decide (w / 0x800000 = 0x100000000000 / 0x10000000 + d) &&
    (match locOf s o with
     | .opBuf _ _ _ => o % 0x20000 / 32 == pos % 4096
     | _ => o % 0x100000 / 32 == pos)

/-- SCRUB_READ (R169): the scrubber of die `d` reads the next word of each memory that is ON, counts what it finds and
has a corrected word written back (R167, R168). -/
def execScrubRead (d : Nat) (s : State) : Host.Outcome State Fault Refusal :=
  done (fun s =>
    if d < 8 ∧ flag s (BNK_SCRUB_EN d) then
      let pos := get_scrubPos s d
      seq [forEach (s.ecc.filter (fun e => scrubHits s d pos e.1)) (fun e => seq [countWord e.1 e.2,
          fun s => if e.2 = 1 ∧ !s.wbPending.contains e.1 then [.wbPending (s.wbPending ++ [e.1])] else []]),
        upd (.scrubPos d ((pos + 1) % 32768)),
        whenA (pos + 1 == 32768) (incReg (BNK_SCRUB_PASS d))] s
    else []) s

/-- CORRECTED_WRITE_BACK (R167): the oldest corrected word is written back, if its memory still performs accesses. -/
def execCorrectedWriteBack (s : State) : Host.Outcome State Fault Refusal :=
  done (fun s =>
    match s.wbPending with
    | [] => []
    | w :: ws => seq [upd (.wbPending ws),
        whenA (!locDark s (32 * w) && tabGet zeroNat s.ecc w == 1) (upd (.ecc w 0))] s) s

/-! ### Clusters (R133, R185) -/

/-- A cluster is gated: its threads end, its memories take the GATED state, and an unowned cluster's are OFF (R185). -/
def clusterGate (d c : Nat) : Act := fun s =>
  let gs := (List.range 8).map (fun i => d * 32 + c * 8 + i)
  let owned := decide (getF s (PRT_CLU_PART d c) < 16)
  let keep := owned && getF s (BNK_CLU_GATED d c) == 1 && getF s (BNK_CLU_STATE d c) != 0
  seq [forEach gs (fun g => seq [
      forEach (List.range 64) (fun t => upd (.threads (g * 64 + t) {})),
      forEach (List.range 8) (fun e => upd (.engines (g * 8 + e) {})),
      fun s =>
        let co := get_cores s g
        seq [fun s => if co.cwatch.isEmpty then [] else
            [.watchMsgs (s.watchMsgs ++ co.cwatch.map (fun w => ⟨g, w, numAt s w 8⟩))],
          upd (.cores g {})] s,
      whenA (!keep) (seq [loseContents (coreMemBase g) 0x100000, loseContents (opBufBase d (g % 32) 0) 0x100000])]),
    setF (BNK_CLU_STATE d c) (if keep then 1 else 0),
    setF (PRT_CLU_PWR d c) 0, clkShow d c] s

/-- A gated cluster begins to wake (R133). -/
def clusterWake (d c : Nat) : Act := fun s =>
  if getF s (PRT_CLU_PWR d c) = 0 then seq [setF (PRT_CLU_PWR d c) 1, setF (BNK_CLU_STATE d c) 3] s else []

end Sys2Proof.Machine
end

