-- ==== Sys2Proof/Machine/Threads.lean ====
section
/-! DEFINITION. Threads and cores (spec/05): register files, thread faults, the scalar and vector instructions, memory
instructions as transactions, fences, waiting and signalling, arrival at the barrier. -/
namespace Sys2Proof.Machine

/-! ### Thread registers -/

/-- Key of thread `t` of core `g`. -/
def tkey (g t : Nat) : Nat := g * 64 + t
/-- Thread `t` of core `g`. -/
def thr (s : State) (g t : Nat) : Thread := get_threads s (tkey g t)
/-- Replace a thread's state. -/
def setThr (g t : Nat) (f : Thread → Thread) : Act := fun s => [.threads (tkey g t) (f (thr s g t))]
/-- Replace a core's state. -/
def setCore (g : Nat) (f : Core → Core) : Act := fun s => [.cores g (f (get_cores s g))]

/-- A scalar register; s0 reads as zero (R109). -/
def sreg (th : Thread) (r : Nat) : Nat := if r = 0 then 0 else tabGet zeroNat th.sregs r
/-- Write a scalar register; s0 ignores writes (R109). -/
def setSreg (th : Thread) (r v : Nat) : Thread :=
  if r = 0 then th else { th with sregs := tabSet zeroNat th.sregs r (v % 2 ^ 64), failS := putBit th.failS r false }
/-- A lane of a vector register. -/
def vlane (th : Thread) (r i : Nat) : Nat := tabGet zeroNat th.vregs (16 * r + i)
/-- Write a lane; the register counts as written (R109). -/
def setVlane (th : Thread) (r i v : Nat) : Thread :=
  { th with vregs := tabSet zeroNat th.vregs (16 * r + i) (v % 2 ^ 32), vwritten := putBit th.vwritten r true }
/-- Write lanes 0 on of a vector register. -/
def setVreg (th : Thread) (r : Nat) (vs : List Nat) : Thread :=
  (vs.zipIdx).foldl (fun th e => setVlane th r e.2 e.1) { th with failV := putBit th.failV r false }
/-- A predicate register. -/
def preg (th : Thread) (p : Nat) : Nat := tabGet zeroNat th.pregs p
/-- Write a predicate register. -/
def setPreg (th : Thread) (p v : Nat) : Thread := { th with pregs := tabSet zeroNat th.pregs p (v % 2 ^ 16) }

/-! ### Thread faults (R129 to R131) -/

/-- Thread fault codes (R129). -/
abbrev tfILLEGAL_INSTR : Nat := 1
abbrev tfFETCH : Nat := 2
abbrev tfMISALIGNED : Nat := 3
abbrev tfILLEGAL_TARGET : Nat := 4
abbrev tfENGINE_OPERAND : Nat := 5
abbrev tfMEM_STATUS : Nat := 6
abbrev tfENGINE_DATA : Nat := 7

/-- R129, R131: record a thread fault, stop issue for the job on the core and send a fault message to the I/O die. -/
def threadFault (g t code mstat pc addr : Nat) : Act :=
  seq [incReg (CORE_FAULT_CNT g),
    fun s => if flag s (CORE_FAULT_VALID g) then [] else
      seq [wr (CORE_FAULT g) (code + t * 2 ^ 8 + mstat * 2 ^ 14 + 2 ^ 18),
        wr64 (CORE_FAULT_PC g) pc, wr64 (CORE_FAULT_ADDR g) addr] s,
    setCore g (fun c => { c with faulted := true }),
    fun s => [.faultMsgs (s.faultMsgs ++ [(g, code)])]]

/-- May thread `t` of core `g` issue an instruction now (R111)? It runs, its core issues, and no fence, WAIT, WAITE or
SIGNAL holds it. -/
def mayIssue (s : State) (g t : Nat) : Bool :=
  let th := thr s g t
  let c := get_cores s g
  th.running && c.hasJob && !c.faulted && !c.parked && th.fence == 0 && th.wait == none && th.waite == none
    && th.signal == none && t < 64 && g < 256 && !flag s (CLK_CLU_STOPPED (g / 32) (g % 32 / 8))

/-- Does an instruction that uses these registers wait for a load (R111)? -/
def pendingOn (th : Thread) (ss vs : List Nat) : Bool :=
  ss.any (fun r => bit th.pendS r) || vs.any (fun r => bit th.pendV r)

/-- Does it read the destination of a failed access (R130)? -/
def readsFailed (th : Thread) (ss vs : List Nat) : Bool :=
  th.err != none && (ss.any (fun r => r != 0 && bit th.failS r) || vs.any (fun r => bit th.failV r))

/-- Raise the thread's pending error (R130): CORE_FAULT names the failed access. -/
def raisePending (g t : Nat) : Act := fun s =>
  match (thr s g t).err with
  | some e => threadFault g t tfMEM_STATUS e.status e.pc e.addr s
  | none => []

/-- Is the instruction at the thread's program counter one it may fetch (R108, R251)? Core memory of its own core,
aligned to 8 bytes; while a window is open only the borrower's part, and otherwise not the borrower's part. -/
def fetchOk (s : State) (g t : Nat) : Bool :=
  let pc := (thr s g t).pc
  let b := coreMemBase g
  let d := g / 32
  let c := g % 32 / 8
  let split := b + 0x100000 - getF s (PRT_LEND_CM_64K d c) * 0x10000
  let lent := getF s (PRT_LEND_BORROWER d c) != 0x1F
  decide (b ≤ pc ∧ pc + 8 ≤ b + 0x100000 ∧ pc % 8 = 0) &&
    (if !lent then true
     else if getF s (PRT_LEND_LSTATE d c) == 2 then decide (split ≤ pc) else decide (pc + 8 ≤ split))

/-- R108, R111, R130: an instruction of thread `t` that uses the given registers. It waits (no effect) while the thread
may not issue or a source is pending; it faults on a bad fetch or a failed source; else `body` is performed, the
program counter moves on by 8 and CORE_ISSUE counts it. -/
def issue (g t : Nat) (ss vs : List Nat) (body : Act) : Act := fun s =>
  if !mayIssue s g t || pendingOn (thr s g t) ss vs then []
  else if !fetchOk s g t then threadFault g t tfFETCH 0 (thr s g t).pc 0 s
  else if readsFailed (thr s g t) ss vs then raisePending g t s
  else seq [setThr g t (fun th => { th with pc := th.pc + 8 }), body, inc64 (CORE_ISSUE g) 1] s

/-- The address of the instruction just issued. -/
def issuedPc (s : State) (g t : Nat) : Nat := (thr s g t).pc - 8

/-! ### Scalar instructions (R112) -/

/-- Second operand of a scalar instruction. -/
def sargVal (th : Thread) : SArg → Nat
  | .reg r => sreg th r
  | .imm i => ofSigned 64 (toSigned 32 i)

/-- Registers an SArg reads. -/
def sargRegs : SArg → List Nat
  | .reg r => [r]
  | .imm _ => []

/-- Registers beside its operands that a scalar operation reads. -/
def sopRegs : SOp → List Nat
  | .select c => [c]
  | _ => []

/-- A thread value (R110). `cycle` is the core-clock cycle count since the job's release, an input of the command. -/
def threadValue (s : State) (g t cycle : Nat) : ThreadValue → Nat
  | .thread => t
  | .core => g
  | .die => g / 32
  | .part => (get_cores s g).part
  | .pitch => (thr s g t).pitch
  | .cycle => cycle
  | .time => s.time

/-- Shift with a free value for amounts of the width or more. -/
def shiftVal (op w v k : Nat) : Nat :=
  if k < w then
    (match op with
     | 0 => v * 2 ^ k % 2 ^ w
     | 1 => v / 2 ^ k
     | _ => ofSigned w (toSigned w v / 2 ^ k))
  else Config.wideShift op v k % 2 ^ w

/-- The result of a scalar operation on two 64-bit operands (R112); quotients truncate toward zero, and division by
zero gives all ones and the dividend. -/
def scalarResult (op : SOp) (th : Thread) (a b : Nat) : Nat :=
  let sa := toSigned 64 a
  let sb := toSigned 64 b
  let b2 (c : Bool) : Nat := if c then 1 else 0
  match op with
  | .add => (a + b) % 2 ^ 64
  | .sub => ofSigned 64 ((a : Int) - b)
  | .mul => a * b % 2 ^ 64
  | .divs => if b = 0 then 2 ^ 64 - 1 else ofSigned 64 (Int.tdiv sa sb)
  | .divu => if b = 0 then 2 ^ 64 - 1 else a / b
  | .rems => if b = 0 then a else ofSigned 64 (Int.tmod sa sb)
  | .remu => if b = 0 then a else a % b
  | .and => Nat.land a b
  | .or => Nat.lor a b
  | .xor => Nat.xor a b
  | .shl => shiftVal 0 64 a b
  | .shr => shiftVal 1 64 a b
  | .sar => shiftVal 2 64 a b
  | .eq => b2 (a == b)
  | .ne => b2 (a != b)
  | .lt => b2 (sa < sb)
  | .ltu => b2 (a < b)
  | .le => b2 (sa ≤ sb)
  | .leu => b2 (a ≤ b)
  | .select c => if sreg th c ≠ 0 then a else b
  | .readRm => th.rm
  | .readFlags => th.flags
  | .readPred p => preg th p
  | _ => 0

/-- The effect of an issued scalar instruction on its thread. -/
def scalarBody (g t : Nat) (op : SOp) (rd ra : Nat) (arg : SArg) (cycle : Nat) : Act := fun s =>
  let th := thr s g t
  let a := sreg th ra
  let b := sargVal th arg
  match op with
  | .undefined => threadFault g t tfILLEGAL_INSTR 0 (issuedPc s g t) 0 s
  | .branchZ => setThr g t (fun th => if a = 0 then { th with pc := (ofSigned 64 ((th.pc : Int) - 8 + toSigned 64 b)) } else th) s
  | .branchNZ => setThr g t (fun th => if a ≠ 0 then { th with pc := (ofSigned 64 ((th.pc : Int) - 8 + toSigned 64 b)) } else th) s
  | .value v => setThr g t (fun th => setSreg th rd (threadValue s g t cycle v)) s
  | .writeRm => setThr g t (fun th => { th with rm := a % 4 }) s
  | .clearFlags => setThr g t (fun th => { th with flags := Nat.land th.flags (31 - a % 32) }) s
  | .writePred p => setThr g t (fun th => setPreg th p a) s
  | _ => setThr g t (fun th => setSreg th rd (scalarResult op th a b)) s

/-- SCALAR_INSTRUCTION (R112). -/
def execScalarInstruction (g t : Nat) (op : SOp) (rd ra : Nat) (arg : SArg) (cycle : Nat) (s : State) :
    Host.Outcome State Fault Refusal :=
  done (issue g t ([ra, rd] ++ sargRegs arg ++ sopRegs op) [] (scalarBody g t op rd ra arg cycle)) s

/-! ### Vector instructions (R112, R158, R160) -/

/-- FP32 value of lane bits. -/
def fpv (w : Nat) : FVal := fDecode fp32 w

/-- Round an exact result to FP32 under a mode, adding the invalid flag where an operand set made a NaN. -/
def fOut (rm : Nat) (ins : List Nat) (r : FVal) : Nat × Nat :=
  let (c, fl) := fEncode fp32 rm r
  (c, fl + fInvalid r (ins.map fpv))

/-- R160: an approximation with its special values: exp2 0, log2 1, reciprocal 2, reciprocal square root 3. -/
def approxOp (op x : Nat) : Nat × Nat :=
  let pInf := fInf fp32 false
  match op, fpv x with
  | _, .nan => (fNaN fp32, 0)
  | 0, .inf true => (0, 0)
  | 0, .inf false => (pInf, 0)
  | 0, v => if !fLt v (.fin false 128 0) then (pInf, flOF) else (Config.approx 0 x % 2 ^ 32, 0)
  | 1, .inf false => (pInf, 0)
  | 1, .inf true => (fNaN fp32, flNV)
  | 1, .fin n m _ => if m = 0 then (fInf fp32 true, flDZ) else if n then (fNaN fp32, flNV) else (Config.approx 1 x % 2 ^ 32, 0)
  | 2, .inf n => (fSign fp32 n, 0)
  | 2, .fin n m _ => if m = 0 then (fInf fp32 n, flDZ) else (Config.approx 2 x % 2 ^ 32, 0)
  | _, .inf false => (0, 0)
  | _, .inf true => (fNaN fp32, flNV)
  | _, .fin n m _ => if m = 0 then (fInf fp32 n, flDZ) else if n then (fNaN fp32, flNV) else (Config.approx 3 x % 2 ^ 32, 0)

/-- One lane of a vector operation: result and flags. -/
def laneOp (op : VOp) (rm a b c : Nat) : Nat × Nat :=
  let si := toSigned 32
  match op with
  | .fadd => fOut rm [a, b] (fAdd rm (fpv a) (fpv b))
  | .fmul => fOut rm [a, b] (fMul (fpv a) (fpv b))
  | .fma => fOut rm [a, b, c] (fAdd rm (fMul (fpv a) (fpv b)) (fpv c))
  | .fmin => ((fEncode fp32 rm (fMin (fpv a) (fpv b))).1, 0)
  | .fmax => ((fEncode fp32 rm (fMax (fpv a) (fpv b))).1, 0)
  | .iadd => ((a + b) % 2 ^ 32, 0)
  | .isub => (ofSigned 32 ((a : Int) - b), 0)
  | .imul => (a * b % 2 ^ 32, 0)
  | .iand => (Nat.land a b, 0)
  | .ior => (Nat.lor a b, 0)
  | .ixor => (Nat.xor a b, 0)
  | .ishl => (shiftVal 0 32 a b, 0)
  | .ishr => (shiftVal 1 32 a b, 0)
  | .isar => (shiftVal 2 32 a b, 0)
  | .imin => (ofSigned 32 (min (si a) (si b)), 0)
  | .imax => (ofSigned 32 (max (si a) (si b)), 0)
  | .toFmt fmt sat => let r := convTo fmt rm sat (fpv a); (r.code, r.flags)
  | .fromFmt fmt => fEncode fp32 rm (fmtDecode fmt a)
  | .exp2 => approxOp 0 a
  | .log2 => approxOp 1 a
  | .recip => approxOp 2 a
  | .rsqrt => approxOp 3 a
  | _ => (a, 0)

/-- A compare of one lane (R158: quiet, a NaN makes every compare false except not-equal). -/
def laneCmp (op : VOp) (a b : Nat) : Bool :=
  let si := toSigned 32
  match op with
  | .fcmpEq => fEq (fpv a) (fpv b)
  | .fcmpNe => !fEq (fpv a) (fpv b)
  | .fcmpLt => fLt (fpv a) (fpv b)
  | .fcmpLe => fLt (fpv a) (fpv b) || fEq (fpv a) (fpv b)
  | .icmpEq => a == b
  | .icmpNe => a != b
  | .icmpLt => si a < si b
  | _ => si a ≤ si b

/-- Is the operation a compare, whose destination is a predicate register? -/
def isCmp : VOp → Bool
  | .fcmpEq | .fcmpNe | .fcmpLt | .fcmpLe | .icmpEq | .icmpNe | .icmpLt | .icmpLe => true
  | _ => false

/-- May a vector conversion name the format (R144)? FP32 and INT32 are native; MX formats go by block (R161). -/
def vFmtOk (fmt : Nat) : Bool := decide (fmt ≤ 8)

/-- Is the operation one the pipes define? -/
def vDefined : VOp → Bool
  | .undefined => false
  | .toFmt f _ => vFmtOk f
  | .fromFmt f => vFmtOk f
  | _ => true

/-- The lanes a reduction folds, and the one value it gives. -/
def reduceOp (op : VOp) (rm : Nat) (xs : List Nat) : Nat :=
  match op with
  | .redMin => (fEncode fp32 rm ((xs.map fpv).foldl fMin .nan)).1
  | .redMax => (fEncode fp32 rm ((xs.map fpv).foldl fMax .nan)).1
  | .redIAdd => xs.foldl (· + ·) 0 % 2 ^ 32
  | _ => Config.laneSum rm xs % 2 ^ 32

/-- Is the operation a lane reduction? -/
def isRed : VOp → Bool
  | .redAdd | .redMin | .redMax | .redIAdd => true
  | _ => false

/-- The thread after a vector instruction. A predicated lane that is off keeps its destination. -/
def vectorThread (vi : VInstr) (th : Thread) : Thread :=
  let on (i : Nat) : Bool := match vi.pred with
    | some p => bit (preg th p) i
    | none => true
  let a (i : Nat) := vlane th vi.va i
  let b (i : Nat) := match vi.bcast with
    | some r => sreg th r % 2 ^ 32
    | none => vlane th vi.vb i
  let lanes := (List.range 16).filter on
  if isCmp vi.op then
    setPreg th vi.vd (lanes.foldl (fun w i => putBit w i (laneCmp vi.op (a i) (b i))) (preg th vi.vd))
  else if isRed vi.op then setVlane th vi.vd 0 (reduceOp vi.op th.rm (lanes.map a))
  else if vi.op = .permute then lanes.foldl (fun t2 i => setVlane t2 vi.vd i (a (b i % 16))) th
  else
    let rs := lanes.map (fun i => (i, laneOp vi.op th.rm (a i) (b i) (vlane th vi.vc i)))
    let th2 := rs.foldl (fun t2 r => setVlane t2 vi.vd r.1 r.2.1) th
    { th2 with flags := rs.foldl (fun f r => Nat.lor f r.2.2) th.flags }

/-- VECTOR_INSTRUCTION (R158). -/
def execVectorInstruction (g t : Nat) (vi : VInstr) (s : State) : Host.Outcome State Fault Refusal :=
  done (issue g t (match vi.bcast with | some r => [r] | none => [])
      ([vi.va, vi.vb, vi.vc] ++ (if isCmp vi.op then [] else [vi.vd]))
    (fun s => if vDefined vi.op then setThr g t (vectorThread vi) s
      else threadFault g t tfILLEGAL_INSTR 0 (issuedPc s g t) 0 s)) s

/-- The 32 FP32 lanes of two vector registers. -/
def lanes32 (th : Thread) (v0 v1 : Nat) : List Nat :=
  (List.range 16).map (vlane th v0) ++ (List.range 16).map (vlane th v1)

/-- MX format codes (R144). -/
def isMx (fmt : Nat) : Bool := decide (9 ≤ fmt ∧ fmt ≤ 0xC)

/-- BLOCK_ENCODE (R161): elements to the low bytes of `vd`, the scale to scalar register `rs`. -/
def execBlockEncode (g t fmt vd rs v0 v1 : Nat) (s : State) : Host.Outcome State Fault Refusal :=
  done (issue g t [rs] [vd, v0, v1] (fun s =>
    if isMx fmt then
      setThr g t (fun th =>
        let (el, sc, nx, ofl) := mxEncode fmt th.rm ((lanes32 th v0 v1).map fpv)
        let w := packBits (fmtBits fmt) el
        let th2 := setVreg th vd ((List.range 16).map (fun i => w / 2 ^ (32 * i) % 2 ^ 32))
        { setSreg th2 rs sc with flags := Nat.lor th.flags ((if nx then flNX else 0) + (if ofl then flOF else 0)) }) s
    else threadFault g t tfILLEGAL_INSTR 0 (issuedPc s g t) 0 s)) s

/-- BLOCK_DECODE (R161): 32 FP32 values, exactly, to two vector registers. -/
def execBlockDecode (g t fmt va rs v0 v1 : Nat) (s : State) : Host.Outcome State Fault Refusal :=
  done (issue g t [rs] [va, v0, v1] (fun s =>
    if isMx fmt then
      setThr g t (fun th =>
        let w := (List.range 16).foldr (fun i acc => vlane th va i + 2 ^ 32 * acc) 0
        let sc := mxScale (sreg th rs % 256)
        let out := (List.range 32).map (fun i =>
          (fEncode fp32 0 (fMul (fmtDecode fmt (unpackBit (fmtBits fmt) w i)) sc)).1)
        setVreg (setVreg th v0 (out.take 16)) v1 (out.drop 16)) s
    else threadFault g t tfILLEGAL_INSTR 0 (issuedPc s g t) 0 s)) s

/-! ### Memory instructions (R112, R113, R115) -/

/-- Transaction slots a core has in use (R115). -/
def slotsUsed (s : State) (g : Nat) : Nat := (s.txns.filter (fun x => x.src == .core g)).length
/-- Slots one thread holds. -/
def threadSlots (s : State) (g t : Nat) : Nat :=
  (s.txns.filter (fun x => x.src == .core g && x.thread == t)).length

/-- Record the transactions of an instruction: the slots fill, CORE_TXN follows, the destinations become pending. -/
def addTxns (g t : Nat) (mk : Nat → List Txn) : Act := fun s =>
  let xs := mk s.nextTag
  let out := slotsUsed s g + xs.length
  seq [fun s => [.txns (s.txns ++ xs), .nextTag (s.nextTag + xs.length)],
    setF (CORE_TXN_OUT g) out,
    fun s => if getF s (CORE_TXN_HWM g) < out then setF (CORE_TXN_HWM g) out s else [],
    setThr g t (fun th => xs.foldl (fun th x => match x.dest with
      | .s r => { th with pendS := if r = 0 then th.pendS else putBit th.pendS r true }
      | .v r => { th with pendV := putBit th.pendV r true }
      | .lane r _ => { th with pendV := putBit th.pendV r true }
      | .none => th) th)] s

/-- A memory or atomic instruction that needs `n` slots waits while they are not free (R115). -/
def issueMem (g t n : Nat) (ss vs : List Nat) (body : Act) : Act := fun s =>
  if slotsUsed s g + n ≤ 256 ∧ threadSlots s g t + n ≤ 32 then issue g t ss vs body s else []

/-- Byte address of a memory instruction: an s register plus a signed 32-bit offset (R112). -/
def memAddr (th : Thread) (rb off : Nat) : Nat := ofSigned 64 ((sreg th rb : Int) + toSigned 32 off)

/-- LOAD (R112, R113): 1, 2, 4 or 8 bytes to an s register, or 64 bytes to a v register. -/
def execLoadInstr (g t : Nat) (dest : Dest) (width rb off : Nat) (s : State) : Host.Outcome State Fault Refusal :=
  done (issueMem g t 1 ([rb] ++ (match dest with | .s r => [r] | _ => [])) (match dest with | .v r => [r] | _ => [])
    (fun s =>
      let a := memAddr (thr s g t) rb off
      if a % width ≠ 0 then threadFault g t tfMISALIGNED 0 (issuedPc s g t) a s
      else addTxns g t (fun tag => [⟨.core g, tag, t, .read, a, width, [], .add, 4, dest, issuedPc s g t, false⟩]) s)) s

/-- STORE (R112, R113): from an s register (1, 2, 4 or 8 bytes) or a v register (64 bytes). -/
def execStoreInstr (g t : Nat) (src : Dest) (width rb off : Nat) (s : State) : Host.Outcome State Fault Refusal :=
  done (issueMem g t 1 ([rb] ++ (match src with | .s r => [r] | _ => [])) (match src with | .v r => [r] | _ => [])
    (fun s =>
      let th := thr s g t
      let a := memAddr th rb off
      let data := match src with
        | .s r => leBytes width (sreg th r)
        | .v r => ((List.range 16).map (fun i => leBytes 4 (vlane th r i))).flatten
        | _ => []
      if a % width ≠ 0 then threadFault g t tfMISALIGNED 0 (issuedPc s g t) a s
      else addTxns g t (fun tag => [⟨.core g, tag, t, .write, a, width, data, .add, 4, .none, issuedPc s g t, false⟩]) s)) s

/-- Lane addresses of a gather or scatter: base plus each lane's signed offset (R112). -/
def laneAddrs (th : Thread) (rb off vo : Nat) : List (Nat × Nat) :=
  (List.range 16).map (fun i => (i, ofSigned 64 ((memAddr th rb off : Int) + toSigned 32 (vlane th vo i))))

/-- GATHER (R115): 16 lane loads of 4 bytes. -/
def execGatherInstr (g t vd rb off vo : Nat) (s : State) : Host.Outcome State Fault Refusal :=
  done (issueMem g t 16 [rb] [vd, vo] (fun s =>
    let la := laneAddrs (thr s g t) rb off vo
    match la.find? (fun e => e.2 % 4 != 0) with
    | some e => threadFault g t tfMISALIGNED 0 (issuedPc s g t) e.2 s
    | none => addTxns g t (fun tag => la.map (fun e =>
        ⟨.core g, tag + e.1, t, .read, e.2, 4, [], .add, 4, .lane vd e.1, issuedPc s g t, false⟩)) s)) s

/-- SCATTER (R115): 16 lane stores of 4 bytes. -/
def execScatterInstr (g t vs rb off vo : Nat) (s : State) : Host.Outcome State Fault Refusal :=
  done (issueMem g t 16 [rb] [vs, vo] (fun s =>
    let th := thr s g t
    let la := laneAddrs th rb off vo
    match la.find? (fun e => e.2 % 4 != 0) with
    | some e => threadFault g t tfMISALIGNED 0 (issuedPc s g t) e.2 s
    | none => addTxns g t (fun tag => la.map (fun e =>
        ⟨.core g, tag + e.1, t, .write, e.2, 4, leBytes 4 (vlane th vs e.1), .add, 4, .none, issuedPc s g t, false⟩)) s)) s

/-- R113: the fixed map's compute die windows. -/
def inWindow (a : Nat) : Bool := decide (0x100000000000 ≤ a ∧ a < 0x100080000000)
/-- R113: the fixed map's DRAM range (R25). -/
def inDramRange (a : Nat) : Bool := decide (a < 0x6000000000)

/-- ATOMIC_INSTRUCTION (R113): `ret` the returning form; `rv` the operand, `rc` the compare value of CAS. -/
def execAtomicInstruction (g t : Nat) (kind : AtomicKind) (ret : Bool) (width rd rb off rv rc : Nat) (s : State) :
    Host.Outcome State Fault Refusal :=
  done (issueMem g t 1 ([rb, rv, rc] ++ (if ret then [rd] else [])) [] (fun s =>
    let th := thr s g t
    let a := memAddr th rb off
    if a % width ≠ 0 then threadFault g t tfMISALIGNED 0 (issuedPc s g t) a s
    else if !(inWindow a || inDramRange a) then threadFault g t tfILLEGAL_TARGET 0 (issuedPc s g t) a s
    else addTxns g t (fun tag => [⟨.core g, tag, t, if ret then .atomicR else .atomicN, a, width,
        leBytes width (sreg th rv) ++ (if kind = .cas then leBytes width (sreg th rc) else []), kind, width,
        if ret then .s rd else .none, issuedPc s g t, false⟩]) s)) s

/-! ### Fences, waiting and signalling (R117 to R123) -/

/-- Does the thread have a transaction that bit L (loads, gathers, returning atomics) or S (stores, scatters, atomics)
of a fence waits for (R117)? -/
def fenceBusy (s : State) (g t : Nat) (isS : Bool) : Bool :=
  s.txns.any (fun x => x.src == .core g && x.thread == t && !x.timedOut &&
    (if isS then x.op == .write || x.op == .atomicR || x.op == .atomicN else x.op == .read || x.op == .atomicR))

/-- Has every tensor operation the thread issued finished (bit E)? -/
def engBusy (s : State) (g t : Nat) : Bool :=
  (List.range 8).any (fun e => (get_engines s (g * 8 + e)).queue.any (fun o => o.thread == t))

/-- The fence bits whose condition does not hold yet. -/
def fenceLeft (s : State) (g t m : Nat) : Nat :=
  (if bit m 0 && fenceBusy s g t false then 1 else 0) + (if bit m 1 && fenceBusy s g t true then 2 else 0)
    + (if bit m 2 && engBusy s g t then 4 else 0)

/-- Does a fence with these bits cover the thread's pending error (R130)? -/
def fenceCovers (th : Thread) (m : Nat) : Bool :=
  match th.err with
  | some e => if e.isStore then bit m 1 else bit m 0
  | none => false

/-- SIGNAL's atomic operation on the word (R119). It needs the word performed at its place, so it issues as a request. -/
def signalPerform (g t : Nat) : Act := fun s =>
  match (thr s g t).signal with
  | some (a, inc, st) =>
    seq [setThr g t (fun th => { th with signal := none }), signalWord (.core g) a (thr s g t).pitch inc st 0] s
  | none => []

/-- Re-examine the conditions that hold a thread: fences clear, a waiting SIGNAL is performed, a WAITE is satisfied. -/
def settleThread (g t : Nat) : Act := seq [
  setThr g t (fun th => th),
  fun s => setThr g t (fun th => { th with fence := fenceLeft s g t th.fence }) s,
  fun s => if (thr s g t).signal ≠ none ∧ ¬ fenceBusy s g t true ∧ (get_cores s g).faulted = false then
      (if (thr s g t).err ≠ none then raisePending g t s else signalPerform g t s) else [],
  fun s => match (thr s g t).waite with
    | some (e, tk) =>
      if ofSigned 32 ((rd s (ENG_DONE g e) : Int) - tk) < 2 ^ 31 then setThr g t (fun th => { th with waite := none }) s else []
    | none => []]

/-- FENCE (R117): bits [0] L, [1] S, [2] E. A pending error that it covers is raised (R130). -/
def execFenceInstr (g t m : Nat) (s : State) : Host.Outcome State Fault Refusal :=
  done (issue g t [] [] (seq [
    setThr g t (fun th => { th with fence := m % 8 }),
    fun s => if fenceCovers (thr s g t) m then raisePending g t s else [],
    settleThread g t])) s

/-- SIGNAL (R119): increment 1 to 255; it first waits as FENCE S does, and raises a pending error (R130). -/
def execSignalInstr (g t rb off inc status : Nat) (s : State) : Host.Outcome State Fault Refusal :=
  done (issue g t [rb] [] (fun s =>
    let a := memAddr (thr s g t) rb off
    if (thr s g t).err ≠ none then raisePending g t s
    else if a % 8 ≠ 0 then threadFault g t tfMISALIGNED 0 (issuedPc s g t) a s
    else if !(inWindow a || inDramRange a) then threadFault g t tfILLEGAL_TARGET 0 (issuedPc s g t) a s
    else seq [setThr g t (fun th => { th with signal := some (a, inc, status) }), settleThread g t] s)) s

/-- Is the word satisfied (R120)? -/
def waitSat (w pitch count : Nat) : Bool := w % 2 ^ 16 == pitch % 2 ^ 16 && decide (count ≤ bits w 31 16)

/-- End a WAIT: 0 satisfied or 1 timed out, and the word's value (R120). -/
def endWait (g t res w : Nat) : Act := setThr g t (fun th =>
  match th.wait with
  | some x => { setSreg (setSreg th x.rres res) x.rd w with wait := none }
  | none => th)

/-- Place a watch for core `g` on the word at `a` (R121): a bank holds 64 entries; a full bank makes the core poll and
count; a core-memory word is watched in the core. Answers whether the core must poll. -/
def placeWatch (g t a : Nat) : Act := fun s =>
  match locOf s a with
  | .bank d b =>
    let k := d * 64 + b
    let ws := get_watches s k
    match ws.find? (fun w => w.addr == a) with
    | some w => [.watches k (ws.map (fun x => if x.addr == a then { x with cores := if w.cores.contains g then w.cores else w.cores ++ [g] } else x))]
    | none =>
      if ws.length < 64 then [.watches k (ws ++ [⟨a, [g]⟩])]
      else seq [incReg (CORE_POLL_CNT g), setThr g t (fun th => { th with wait := th.wait.map (fun x => { x with polling := true }) })] s
  | _ => [.cores g { get_cores s g with cwatch := if (get_cores s g).cwatch.contains a then (get_cores s g).cwatch else (get_cores s g).cwatch ++ [a] }]

/-- WAIT (R120): evaluated on the word's value when issued; unsatisfied, a watch is placed. A word of a dark bank ends
in MEM_STATUS with BANK_OFF (R180). -/
def execWaitWord (g t rb off pitch count timeout rd rres : Nat) (s : State) : Host.Outcome State Fault Refusal :=
  done (issue g t [rb, rd, rres] [] (fun s =>
    let a := memAddr (thr s g t) rb off
    if a % 8 ≠ 0 then threadFault g t tfMISALIGNED 0 (issuedPc s g t) a s
    else if !inWindow a then threadFault g t tfILLEGAL_TARGET 0 (issuedPc s g t) a s
    else
      if locDark s a then threadFault g t tfMEM_STATUS stBANK_OFF (issuedPc s g t) a s
      else seq [setThr g t (fun th => { th with wait := some ⟨a, pitch, count, timeout, rd, rres, false⟩ }),
        fun s => if waitSat (numAt s a 8) pitch count then endWait g t 0 (numAt s a 8) s else placeWatch g t a s] s)) s

/-- WAITE (R123): hold until ENG_DONE has reached the ticket, modulo 2^32. -/
def execWaite (g t e ticket : Nat) (s : State) : Host.Outcome State Fault Refusal :=
  done (issue g t [] [] (seq [setThr g t (fun th => { th with waite := some (e, ticket) }), settleThread g t])) s

/-- WAIT_TIMEOUT (R120): the wait ends returning 1 with the word's value; no fault. -/
def execWaitTimeout (g t : Nat) (s : State) : Host.Outcome State Fault Refusal :=
  done (fun s => match (thr s g t).wait with
    | some x => if x.timeout = 0 then [] else endWait g t 1 (numAt s x.addr 8) s
    | none => []) s

/-- WAIT_POLL (R121): a core without a watch entry reads the word. -/
def execWaitPoll (g t : Nat) (s : State) : Host.Outcome State Fault Refusal :=
  done (fun s => match (thr s g t).wait with
    | some x => if x.polling && waitSat (numAt s x.addr 8) x.pitch x.count then endWait g t 0 (numAt s x.addr 8) s else []
    | none => []) s

/-- WATCH_VALUE_DELIVERED (R121, R122): the oldest value on its way to core `g`; each WAIT of the core on the word is
re-evaluated, a value of another pitch counts as stale, and an unsatisfied WAIT re-places its watch. -/
def execWatchValueDelivered (g : Nat) (s : State) : Host.Outcome State Fault Refusal :=
  done (fun s => match s.watchMsgs.find? (fun m => m.core == g) with
    | none => []
    | some m =>
      seq [fun s => [.watchMsgs (s.watchMsgs.erase m)],
        forEach (List.range 64) (fun t => fun s => match (thr s g t).wait with
          | some x =>
            if x.addr ≠ m.addr then []
            else if waitSat m.value x.pitch x.count then endWait g t 0 m.value s
            else seq [whenA (m.value % 2 ^ 16 != x.pitch % 2 ^ 16) (incReg (CORE_STALE_CNT g)), placeWatch g t x.addr] s
          | none => [])] s) s

/-! ### Starting and ending threads (R107) -/

/-- A thread started at an entry address with one scalar argument in s1. -/
def freshThread (pitch pc arg : Nat) : Thread := setSreg { running := true, pc := pc, pitch := pitch } 1 arg

/-- SPAWN (R107): start halted thread `t2` of the same core, or return 1 if it runs. -/
def execSpawn (g t t2 re ra rd : Nat) (s : State) : Host.Outcome State Fault Refusal :=
  done (issue g t [re, ra, rd] [] (fun s =>
    let th := thr s g t
    if (thr s g (t2 % 64)).running then setThr g t (fun th => setSreg th rd 1) s
    else seq [setThr g (t2 % 64) (fun _ => freshThread th.pitch (sreg th re) (sreg th ra)),
      setThr g t (fun th => setSreg th rd 0),
      fun s => setF (CORE_STAT_THREADS g) (getF s (CORE_STAT_THREADS g) + 1) s] s)) s

/-- HALT (R107, R130): raise any pending error first; otherwise the thread ends with no live state. -/
def execHalt (g t : Nat) (s : State) : Host.Outcome State Fault Refusal :=
  done (issue g t [] [] (fun s =>
    if (thr s g t).err ≠ none then raisePending g t s
    else seq [setThr g t (fun _ => {}), fun s => setF (CORE_STAT_THREADS g) (getF s (CORE_STAT_THREADS g) - 1) s] s)) s

/-- R124: do all four conditions of arrival hold? -/
def canArrive (s : State) (g : Nat) : Bool :=
  (List.range 64).all (fun t => !(thr s g t).running) && slotsUsed s g == 0
    && (List.range 8).all (fun e => (get_engines s (g * 8 + e)).queue.isEmpty) && !(get_cores s g).faulted

/-- CORE_ARRIVE (R124). On a lent cluster the borrower's arrival is kept beside the lender's. -/
def execCoreArrive (g : Nat) (s : State) : Host.Outcome State Fault Refusal :=
  done (fun s =>
    let c := get_cores s g
    if !(c.hasJob && canArrive s g) then []
    else if c.bor = 1 ∧ c.part ≠ coreOwner s g then setCore g (fun c => { c with bor := 2 }) s
    else setF (CORE_STAT_ARRIVED g) 1 s) s

/-- CORE_CLOCK_GATE (R133): a core gates its own clock after 64 idle cycles; nothing software sees changes. -/
def execCoreClockGate (_g : Nat) (s : State) : Host.Outcome State Fault Refusal := done nop s

/-! ### Responses to threads (R116, R130) -/

/-- Write a load's data to its destination; an error writes zero (R130). -/
def deliver (th : Thread) (d : Dest) (ok : Bool) (v : List Byte) : Thread :=
  match d with
  | .s r =>
    let th := { th with pendS := putBit th.pendS r false }
    let th := setSreg th r (if ok then leNat v else 0)
    if ok || r == 0 then th else { th with failS := putBit th.failS r true }
  | .v r =>
    let th := setVreg { th with pendV := putBit th.pendV r false } r
      ((List.range 16).map (fun i => if ok then leNat ((v.drop (4 * i)).take 4) else 0))
    if ok then th else { th with failV := putBit th.failV r true }
  | .lane r i =>
    let th := setVlane th r i (if ok then leNat v else 0)
    if ok then th else { th with failV := putBit th.failV r true }
  | .none => th

/-- A transaction of a core ends with a status and data: the slot is freed, the destination or the pending-error record
written, and whatever waited on it re-examined (R116, R130). A transaction whose thread was discarded (R54, R465) has
thread number 255. -/
def endTxn (g : Nat) (x : Txn) (status : Nat) (data : List Byte) : Act := seq [
  fun s => [.txns (s.txns.filter (fun y => !(y.src == .core g && y.tag == x.tag)))],
  fun s => setF (CORE_TXN_OUT g) (slotsUsed s g) s,
  if 64 ≤ x.thread then nop else seq [setThr g x.thread (fun th =>
    if !th.running then th else
    let th := deliver th x.dest (status == 0) data
    if status == 0 || th.err != none then th
    else { th with err := some ⟨status, x.pc, x.addr, x.op == .write || x.op == .atomicN⟩ }),
  fun s => setThr g x.thread (fun th => match x.dest with
    | .lane r _ => { th with pendV := putBit th.pendV r (s.txns.any (fun y => y.src == .core g && y.thread == x.thread &&
        (match y.dest with | .lane r2 _ => r2 == r | _ => false))) }
    | _ => th) s,
  fun s => if fenceCovers (thr s g x.thread) (thr s g x.thread).fence then raisePending g x.thread s else [],
  settleThread g x.thread]]

end Sys2Proof.Machine
end

