-- ==== Sys2Proof/Machine/Engines.lean ====
section
/-! DEFINITION. The engines (spec/05 R123 to R128, spec/06 R142 to R157): issue, protected regions, the
multiply-accumulate in its formats, the conversion of accumulators. -/
namespace Sys2Proof.Machine

/-- Engine `e` of core `g`. -/
def eng (s : State) (g e : Nat) : Engine := get_engines s (g * 8 + e)
/-- Replace an engine's state. -/
def setEng (g e : Nat) (f : Engine → Engine) : Act := fun s => [.engines (g * 8 + e) (f (eng s g e))]
/-- First address of the operand buffer of engine `e` of core `g` (R26). -/
def bufOf (g e : Nat) : Nat := opBufBase (g / 32) (g % 32) e

/-! ### Limits of an operation (R126, R127, R142 to R145, R150, R156, R191) -/

/-- The first 64-byte boundary at or after an offset. -/
def align64 (n : Nat) : Nat := (n + 63) / 64 * 64
/-- Elements of K consumed per cycle (R127). -/
def kcOf (fmt : Nat) : Nat := if fmt = 2 ∨ fmt = 0xC then 32 else if fmt = 5 ∨ fmt = 6 then 8 else 16
/-- Bytes of the A region, scales included (R126, R142). -/
def aSize (op : TensorOp) : Nat :=
  let el := op.m * op.k * fmtBits op.fmtA / 8
  if isMx op.fmtA then align64 el + op.m * op.k / 32 else el
/-- Offset of the index array of MMA.SP from the B region's base (R150). -/
def spIndexOff (op : TensorOp) : Nat := align64 (op.k / 2 * 16 * fmtBits op.fmtB / 8)
/-- Offset of the B scale array from the region's base (R142, R150). -/
def bScaleOff (op : TensorOp) : Nat :=
  if op.kind = .mmaSp then align64 (spIndexOff op + op.k / 4 * 8) else align64 (op.k * 16 * fmtBits op.fmtB / 8)
/-- Bytes of the B region (R126, R142, R150). -/
def bSize (op : TensorOp) : Nat :=
  if isMx op.fmtB then bScaleOff op + op.k / 32 * 16
  else if op.kind = .mmaSp then spIndexOff op + op.k / 4 * 8
  else op.k * 16 * fmtBits op.fmtB / 8
/-- Is the operation a multiply-accumulate? -/
def isMma (op : TensorOp) : Bool := op.kind == .mma || op.kind == .mmaSp
/-- May A and B carry these formats together (R144, R145)? -/
def pairOk (a b : Nat) : Bool :=
  (a == b && ([0, 2, 3, 4, 5, 6, 9, 0xA, 0xB, 0xC].contains a)) || (a == 1 && b == 0) ||
  (a == 3 && b == 4) || (a == 4 && b == 3) || (a == 0xA && b == 0xB) || (a == 0xB && b == 0xA)
/-- Formats of MMA.SP (R127). -/
def spFmtOk (a : Nat) : Bool := [0, 1, 2, 3, 4, 0xC].contains a
/-- Bytes of one output row of ACC.CVT. -/
def cvtRowBytes (op : TensorOp) : Nat := 16 * fmtBits op.outFmt / 8
/-- Does `[a, a + len)` lie in the operand buffers of core `g` or in its core memory (R126)? -/
def inOwnCore (g a len : Nat) : Bool :=
  decide (coreMemBase g ≤ a ∧ a + len ≤ coreMemBase g + 0x100000) || decide (bufOf g 0 ≤ a ∧ a + len ≤ bufOf g 0 + 0x100000)
/-- Does the operation keep every limit (else ENGINE_OPERAND, and it is not queued)? -/
def operandOk (g e : Nat) (op : TensorOp) : Bool :=
  decide (1 ≤ op.m ∧ op.m ≤ 512) && decide (0x18000 ≤ op.cOff ∧ op.cOff + op.m * 64 ≤ 0x20000) &&
  (match op.kind with
   | .accClr => true
   | .accCvt =>
     decide (op.outFmt ≤ 8) && decide (op.stride % 16 = 0 ∧ 16 ≤ op.stride ∧ op.stride ≤ 65520) &&
     inOwnCore g op.dst ((op.m - 1) * op.stride + cvtRowBytes op) &&
     (decide (bufOf g e ≤ op.table ∧ op.table + 128 ≤ bufOf g e + 0x20000) ||
      decide (coreMemBase g ≤ op.table ∧ op.table + 128 ≤ coreMemBase g + 0x100000))
   | _ =>
     decide (32 ≤ op.k ∧ op.k ≤ 4096) && op.k % (if op.kind = .mmaSp then 64 else 32) == 0 &&
     pairOk op.fmtA op.fmtB && (op.kind == .mma || spFmtOk op.fmtA) &&
     decide (op.aOff + aSize op ≤ 0xC000) && decide (0xC000 ≤ op.bOff ∧ op.bOff + bSize op ≤ 0x18000) &&
     (!(op.fmtA == 0xA || op.fmtA == 0xB) || decide (op.m * op.k ≤ 49152)))

/-! ### Issue and protection -/

/-- The byte ranges an accepted operation protects: offset, length and whether reads are held too (R128). -/
def opRegions (op : TensorOp) : List (Nat × Nat × Bool) :=
  (if isMma op then [(op.aOff, aSize op, false), (op.bOff, bSize op, false)] else []) ++ [(op.cOff, op.m * 64, true)]

/-- R128: is an access to `[a, a + len)` of the operand buffers held by an operation accepted and not finished? -/
def protectedRange (s : State) (a len : Nat) (isWrite : Bool) : Bool :=
  let hit (x : Nat) : Bool :=
    match locOf s x with
    | .opBuf d c e =>
      (eng s (d * 32 + c) e).queue.any (fun q => (opRegions q.op).any (fun r =>
        (isWrite || r.2.2) && decide (a < opBufBase d c e + r.1 + r.2.1 ∧ opBufBase d c e + r.1 < a + len)))
    | _ => false
  hit a || hit (a + (len - 1))

/-- TENSOR_ISSUE (R123, R125, R126): queue an operation on an engine of the thread's own core; the ticket is the value
ENG_DONE takes when it finishes. The thread waits while the queue holds 8 operations. -/
def execTensorIssue (g t e rt : Nat) (op : TensorOp) (s : State) : Host.Outcome State Fault Refusal :=
  done (fun s => if 8 ≤ (eng s g (e % 8)).queue.length then [] else
    issue g t [rt] [] (fun s =>
      let e := e % 8
      if operandOk g e op then
        let q := (eng s g e).queue
        let ticket := (rd s (ENG_DONE g e) + q.length + 1) % 2 ^ 32
        seq [setEng g e (fun en => { en with queue := en.queue ++ [⟨op, t, issuedPc s g t⟩] }),
          setF (ENG_QDEPTH_DEPTH g e) (q.length + 1),
          setThr g t (fun th => setSreg th rt ticket)] s
      else threadFault g t tfENGINE_OPERAND 0 (issuedPc s g t) 0 s) s) s

/-! ### Reading operands -/

/-- A byte of the operand buffer as the engine reads it: a byte of an uncorrectable word is a free value. -/
def engByte (s : State) (a : Nat) : Nat :=
  if s.ecc.any (fun e => e.1 == a / 32 && decide (2 ≤ e.2)) then Config.fresh (s.freeCtr + a % 0x20000) % 256
  else (byteAt s a).toNat

/-- `n` bytes as the engine reads them, little-endian. -/
def engNum (s : State) (a : Nat) : Nat → Nat
  | 0 => 0
  | n + 1 => engByte s a + 256 * engNum s (a + 1) n

/-- Element `i` of `n` bits of a packed array (R138, R141). -/
def engElem (s : State) (base n i : Nat) : Nat :=
  engNum s (base + n * i / 8) ((n * i % 8 + n + 7) / 8) / 2 ^ (n * i % 8) % 2 ^ n

/-- One factor: the element's value times its block scale (R140, R142, R148). -/
def scaled (fmt : Nat) (w sc : Nat) : FVal :=
  if isMx fmt then fMul (fmtDecode fmt w) (mxScale sc) else fmtDecode fmt w

/-- Element (r, k) of A. -/
def aVal (s : State) (base : Nat) (op : TensorOp) (r k : Nat) : FVal :=
  scaled op.fmtA (engElem s (base + op.aOff) (fmtBits op.fmtA) (r * op.k + k))
    (engByte s (base + op.aOff + align64 (op.m * op.k * fmtBits op.fmtA / 8) + r * (op.k / 32) + k / 32))

/-- Stored value `i` of column `c` of B, and the K index of the A element it multiplies (R142, R150). -/
def bVal (s : State) (base : Nat) (op : TensorOp) (i c : Nat) : FVal × Nat :=
  let b := base + op.bOff
  let k := if op.kind = .mmaSp then
      let f := engElem s (b + spIndexOff op) 4 (i / 2 * 16 + c)
      4 * (i / 2) + (if i % 2 = 0 then f % 4 else f / 4)
    else i
  (scaled op.fmtB (engElem s b (fmtBits op.fmtB) (i * 16 + c)) (engByte s (b + bScaleOff op + k / 32 * 16 + c)), k)

/-! ### The multiply-accumulate (R146 to R150, R153) -/

/-- Flags of ENG_FLAGS (R162). -/
abbrev efISAT : Nat := 1
abbrev efFINF : Nat := 2
abbrev efFNAN : Nat := 4
abbrev efFTZ : Nat := 8
abbrev efCVT_SAT : Nat := 16
abbrev efCVT_NAN : Nat := 32

/-- Insert a group into an order by key. -/
def insertKey (c i : Nat) : List Nat → List Nat
  | [] => [i]
  | j :: js => if Config.groupKey c i ≤ Config.groupKey c j then i :: j :: js else j :: insertKey c i js

/-- R153: the order in which the engine takes the `n` groups of an operation, free between runs. -/
def groupOrder (c n : Nat) : List Nat := (List.range n).foldr (fun i l => insertKey c i l) []

/-- The exact sum of a group's products (R147 to R149). -/
def groupSum (s : State) (base : Nat) (op : TensorOp) (r c grp : Nat) : FVal :=
  let kc := kcOf op.fmtA
  (List.range kc).foldl (fun acc j =>
    let (b, k) := bVal s base op (grp * kc + j) c
    fAdd 0 acc (fMul (aVal s base op r k) b)) (.fin false 0 0)

/-- The integer value of an exact integer. -/
def fInt : FVal → Int
  | .fin n m e => (if n then -1 else 1) * ((m * 2 ^ e.toNat : Nat) : Int)
  | _ => 0

/-- R147: add a group sum to an INT32 accumulator with saturation. -/
def accInt (acc sum : Int) : Int × Nat :=
  let t := acc + sum
  if t > 2 ^ 31 - 1 then (2 ^ 31 - 1, efISAT) else if t < -(2 ^ 31) then (-(2 ^ 31), efISAT) else (t, 0)

/-- R148: round the group sum to FP32, add it to the accumulator with one more rounding, flush a tiny result. -/
def accFloat (acc : Nat) (sum : FVal) : Nat × Nat :=
  let g := (fEncode fp32 0 sum).1
  let r := (fEncode fp32 0 (fAdd 0 (fDecode fp32 acc) (fDecode fp32 g))).1
  let mag := r % 2 ^ 31
  if mag ≠ 0 ∧ mag < 2 ^ 23 then (r - mag, efFTZ) else (r, 0)

/-- Does the operation accumulate in INT32 (R146)? -/
def accIsInt (op : TensorOp) : Bool := decide (op.fmtA ≤ 2)

/-- Stored values of one column of B. -/
def storedK (op : TensorOp) : Nat := if op.kind = .mmaSp then op.k / 2 else op.k

/-- One accumulator of row `r`, column `c` after the operation: bits and flags. -/
def mmaCell (s : State) (base : Nat) (op : TensorOp) (order : List Nat) (r c : Nat) : Nat × Nat :=
  let c0 := if op.acc then engNum s (base + op.cOff + r * 64 + c * 4) 4 else 0
  if accIsInt op then
    let (v, f) := order.foldl (fun (a : Int × Nat) g =>
      let (t, fl) := accInt a.1 (fInt (groupSum s base op r c g)); (t, Nat.lor a.2 fl)) (toSigned 32 c0, 0)
    (ofSigned 32 v, f)
  else
    let (v, f) := order.foldl (fun (a : Nat × Nat) g =>
      let (t, fl) := accFloat a.1 (groupSum s base op r c g); (t, Nat.lor a.2 fl)) (c0, 0)
    (v, Nat.lor f (match fDecode fp32 v with | .nan => efFNAN | .inf _ => efFINF | _ => 0))

/-- Set bits of ENG_FLAGS (R162). -/
def setEngFlags (g e fl : Nat) : Act := fun s => wr (ENG_FLAGS g e) (Nat.lor (rd s (ENG_FLAGS g e)) fl) s

/-- One row of a multiply-accumulate written to C. -/
def mmaRow (g e : Nat) (op : TensorOp) (order : List Nat) (r : Nat) : Act := fun s =>
  let base := bufOf g e
  let cells := (List.range 16).map (mmaCell s base op order r)
  seq [scWrite (base + op.cOff + r * 64) (cells.map (fun x => leBytes 4 x.1)).flatten,
    setEngFlags g e (cells.foldl (fun f x => Nat.lor f x.2) 0)] s

/-! ### Conversion of accumulators (R155 to R157, R191) -/

/-- One converted element: code, saturated, NaN written (R156). -/
def cvtElem (op : TensorOp) (acc scale bias : Nat) : Conv :=
  if op.outFmt = 8 ∧ op.accInt ∧ scale = 0x3F800000 ∧ fIsZero (fDecode fp32 bias) then ⟨acc, false, false, 0⟩
  else
    let v1 := if op.accInt then fDecode fp32 (fEncode fp32 0 (fOfInt (toSigned 32 acc))).1 else fDecode fp32 acc
    let v2 := fDecode fp32 (fEncode fp32 0 (fAdd 0 (fMul v1 (fDecode fp32 scale)) (fDecode fp32 bias))).1
    let v3 := if v2 = .nan then .nan else match op.act with
      | .none => v2
      | .relu => fMax v2 (.fin false 0 0)
      | .clip => fMin (fMax v2 (fDecode fp32 op.clipLo)) (fDecode fp32 op.clipHi)
    if op.outFmt = 7 then ⟨(fEncode fp32 0 v3).1, false, v3 == .nan, 0⟩
    else convTo op.outFmt (if op.towardZero then 1 else 0) op.sat v3

/-- The bytes of output row `r` and the flags its elements set. -/
def cvtRow (s : State) (base : Nat) (op : TensorOp) (r : Nat) : List Byte × Nat :=
  let cs := (List.range 16).map (fun j => cvtElem op (engNum s (base + op.cOff + r * 64 + j * 4) 4)
    (engNum s (op.table + 4 * j) 4) (engNum s (op.table + 64 + 4 * j) 4))
  (leBytes (cvtRowBytes op) (packBits (fmtBits op.outFmt) (cs.map (·.code))),
   cs.foldl (fun f x => Nat.lor f ((if x.satd then efCVT_SAT else 0) + (if x.nan then efCVT_NAN else 0))) 0)

/-- R191: one row written at the destination. -/
def cvtWrite (g e : Nat) (op : TensorOp) (r : Nat) : Act := fun s =>
  let (bs, fl) := cvtRow s (bufOf g e) op r
  seq [unitWrite (.core g) (op.dst + r * op.stride) bs, setEngFlags g e fl] s

/-- R128: is the destination of an ACC.CVT protected by an operation of another engine? -/
def cvtHeld (s : State) (e : Nat) (op : TensorOp) : Bool :=
  (List.range op.m).any (fun r =>
    let a := op.dst + r * op.stride
    match locOf s a with
    | .opBuf _ _ e2 => e2 != e && protectedRange s a (cvtRowBytes op) true
    | _ => false)

/-! ### Running an operation -/

/-- Cycles of an operation of `rows` rows (R126). -/
def opCycles (op : TensorOp) (rows : Nat) : Nat :=
  match op.kind with
  | .mma => rows * op.k / kcOf op.fmtA + 24
  | .mmaSp => rows * op.k / (2 * kcOf op.fmtA) + 24
  | .accCvt => rows + 8
  | .accClr => (rows + 7) / 8 + 4

/-- The buffer ranges an operation reads. -/
def opReads (g e : Nat) (op : TensorOp) : List (Nat × Nat) :=
  let b := bufOf g e
  (if isMma op then [(b + op.aOff, aSize op), (b + op.bOff, bSize op)] else []) ++
  (if op.acc || op.kind == .accCvt then [(b + op.cOff, op.m * 64)] else []) ++
  (if op.kind = .accCvt then [(op.table, 128)] else [])

/-- Rows `r0` to `r1 - 1` of the operation at the head of the engine's queue, with what their reads count and the
ENGINE_DATA fault of an uncorrectable word (R129, R168). -/
def runRows (g e : Nat) (q : EngOp) (r0 r1 : Nat) : Act := fun s =>
  let op := q.op
  let order := groupOrder s.freeCtr (storedK op / kcOf op.fmtA)
  let rows := (List.range r1).filter (fun r => decide (r0 ≤ r))
  seq [forEach (opReads g e op) (fun r => scRead r.1 r.2 false),
    forEach rows (fun r => match op.kind with
      | .mma | .mmaSp => mmaRow g e op order r
      | .accCvt => cvtWrite g e op r
      | .accClr => scWrite (bufOf g e + op.cOff + r * 64) (List.replicate 64 0)),
    upd (.freeCtr (s.freeCtr + 0x20001)),
    inc64 (ENG_BUSY g e) (opCycles op (r1 - r0)),
    whenA (isMma op) (inc64 (ENG_MAC g e) ((r1 - r0) * op.k * 16 / 256)),
    match (opReads g e op).find? (fun r => readBad s r.1 r.2) with
    | some r => threadFault g q.thread tfENGINE_DATA 0 q.pc r.1
    | none => nop] s

/-- The engine executes the operation at the head of its queue if it is of this kind and has not been executed. An
ACC.CVT whose destination another engine protects waits (R128). -/
def runHead (k : TensorKind) (g e : Nat) : Act := fun s =>
  let en := eng s g e
  match en.queue with
  | [] => []
  | q :: _ =>
    if en.done ∨ q.op.kind ≠ k ∨ (get_cores s g).parked ∨ flag s (CLK_CLU_STOPPED (g / 32) (g % 32 / 8)) ∨ (k = .accCvt ∧ cvtHeld s e q.op) then []
    else seq [runRows g e q en.row q.op.m, setEng g e (fun en => { en with done := true, row := q.op.m })] s

/-- MMA (R126, R147 to R149). -/
def execMma (g e : Nat) (s : State) : Host.Outcome State Fault Refusal := done (runHead .mma g e) s
/-- MMA_SP (R150). -/
def execMmaSp (g e : Nat) (s : State) : Host.Outcome State Fault Refusal := done (runHead .mmaSp g e) s
/-- ACC_CVT (R156). -/
def execAccCvt (g e : Nat) (s : State) : Host.Outcome State Fault Refusal := done (runHead .accCvt g e) s
/-- ACC_CLR (R126). -/
def execAccClr (g e : Nat) (s : State) : Host.Outcome State Fault Refusal := done (runHead .accClr g e) s

/-- The threads of core `g` that have live state. -/
def liveThreads (s : State) (g : Nat) : List Nat :=
  (s.threads.filter (fun e => decide (g * 64 ≤ e.1 ∧ e.1 < g * 64 + 64))).map (fun e => e.1 - g * 64)

/-- Stop the running operation of an engine at a row boundary (R132): the rows done by then are a free value. -/
def stopEngine (g e : Nat) : Act := fun s =>
  let en := eng s g e
  match en.queue with
  | [] => []
  | q :: _ =>
    if en.done ∨ (q.op.kind = .accCvt ∧ cvtHeld s e q.op) then []
    else
      let stop := en.row + Config.fresh s.freeCtr % (q.op.m - en.row + 1)
      seq [upd (.freeCtr (s.freeCtr + 1)), whenA (decide (en.row < stop)) (runRows g e q en.row stop),
        setEng g e (fun en => { en with row := stop })] s

end Sys2Proof.Machine
end

