-- ==== Sys2Proof/Machine/Box.lean ====
section
/-! DEFINITION. The box stage (R202 to R215). -/
namespace Sys2Proof.Machine

/-! ### Requests in flight as their sources hold them -/

/-- The request as its source sends it: a core's request takes address, length and data from its transaction (R115). -/
def reqOf (s : State) (op : ReqOp) (r : Req) : Req :=
  match r.src with
  | .core g =>
    match s.txns.find? (fun x => x.src == .core g && x.tag == r.tag && x.op == op) with
    | some x => { r with addr := x.addr, len := x.len, data := x.data, kind := x.kind, width := x.width }
    | none => r
  | _ => r

/-- Can the source have sent the request? A core needs its transaction. -/
def reqLive (s : State) (op : ReqOp) (r : Req) : Bool :=
  match r.src with
  | .core g => s.txns.any (fun x => x.src == .core g && x.tag == r.tag && x.op == op && x.addr == (reqOf s op r).addr)
  | _ => true

/-! ### Descriptors and checks (R203 to R206) -/

/-- The descriptor at an address, for a partition (R204). -/
def boxDesc (s : State) (p a : Nat) : BoxReq :=
  let n (o k : Nat) := numAt s (a + o) k
  let ctl := n 0 1
  { part := p, desc := a, op := bits ctl 1 0, mode := bits ctl 3 2, sfmt := bits ctl 4 4,
    agn := bit ctl 5, sig := bit ctl 6, center := bit ctl 7,
    levels := n 1 1, classes := n 2 1 + 1, nanch := n 3 1, pitch := n 4 2, preMax := n 6 2, postMax := n 8 2,
    iouThr := n 0xA 2, clsMax := n 0xC 2, logitThr := n 0x10 4, scoreScale := n 0x14 4, v0 := n 0x18 4, v1 := n 0x1C 4,
    imgW := n 0x20 2, imgH := n 0x22 2, levelAddr := n 0x28 8, outAddr := n 0x30 8, cwAddr := n 0x38 8 }

/-- Entry `l` of the level table (R205). -/
def boxLevel (s : State) (r : BoxReq) (l : Nat) : BoxLevel :=
  let a := r.levelAddr + 32 * l
  ⟨numAt s a 8, numAt s (a + 8) 8, numAt s (a + 16) 2, numAt s (a + 18) 2, numAt s (a + 20) 2⟩

/-- Bytes of a pixel-block of a score tensor (R190). -/
def scorePix (r : BoxReq) : Nat := if r.sfmt = 0 then 16 else 32

/-- Bytes of a level's score tensor and of its box tensor, C16 (R189, R205). -/
def scoreBytes (r : BoxReq) (v : BoxLevel) : Nat := (r.nanch * r.classes + 15) / 16 * v.w * v.h * scorePix r
def boxBytes (r : BoxReq) (v : BoxLevel) : Nat := (4 * r.nanch + 15) / 16 * v.w * v.h * 32

/-- Bytes of the level and anchor tables. -/
def levelBytes (r : BoxReq) : Nat := r.levels * 32 + r.levels * r.nanch * 8

/-- Does the completion word lie in a compute die window that the partition owns? -/
def boxCwOk (s : State) (r : BoxReq) : Bool := inWindow r.cwAddr && ownsBank s r.part r.cwAddr 8

/-- R206 check 1. -/
def boxOwnOk (s : State) (r : BoxReq) : Bool :=
  decide (r.part < 16) && ownsBank s r.part r.desc 64 && inWindow r.desc && boxCwOk s r
    && ownsBank s r.part r.levelAddr (levelBytes r) && ownsBank s r.part r.outAddr (32 + 32 * r.postMax)
    && (List.range r.levels).all (fun l =>
      ownsBank s r.part (boxLevel s r l).scoreAddr (scoreBytes r (boxLevel s r l))
        && ownsBank s r.part (boxLevel s r l).boxAddr (boxBytes r (boxLevel s r l)))

/-- R206 check 2: every field within R204 and R205, and the score tensors within 16 MiB. -/
def boxFieldsOk (s : State) (r : BoxReq) : Bool :=
  let lv := (List.range r.levels).map (boxLevel s r)
  decide (1 ≤ r.op ∧ r.op ≤ 2 ∧ r.mode ≤ 2 ∧ 1 ≤ r.levels ∧ r.levels ≤ 5 ∧ 1 ≤ r.nanch ∧ r.nanch ≤ 8
    ∧ r.nanch * r.classes ≤ 256 ∧ 1 ≤ r.preMax ∧ r.preMax ≤ 8192 ∧ 1 ≤ r.postMax ∧ r.postMax ≤ 1024
    ∧ r.postMax ≤ r.preMax ∧ r.clsMax ≤ 1024 ∧ r.outAddr % 64 = 0
    ∧ numAt s (r.desc + 0xE) 2 = 0 ∧ numAt s (r.desc + 0x24) 4 = 0)
  && (List.range r.levels).all (fun l =>
    let v := boxLevel s r l
    decide (1 ≤ v.w ∧ v.w ≤ 4096 ∧ 1 ≤ v.h ∧ v.h ≤ 4096 ∧ v.w * v.h ≤ 2 ^ 20 ∧ numAt s (r.levelAddr + 32 * l + 0x16) 10 = 0)
      && (r.mode == 2 || decide (1 ≤ v.stride ∧ v.stride ≤ 256)))
  && decide ((lv.map (scoreBytes r)).sum ≤ 0x1000000)

/-- Status codes of the box stage (R212). -/
abbrev bxDESC : Nat := 0x40
abbrev bxOWNER : Nat := 0x41
abbrev bxFULL : Nat := 0x42
abbrev bxPITCH : Nat := 0x43

/-- Requests of a partition queued or running. -/
def boxHeld (s : State) (p : Nat) : Nat :=
  (s.boxQueue.filter (fun q => q.part == p)).length + (match s.boxRun with | some b => if b.req.part = p then 1 else 0 | none => 0)

/-- The status a request's checks give, 0 where it passes (R206). -/
def boxCheck (s : State) (r : BoxReq) : Nat :=
  if !boxOwnOk s r then bxOWNER
  else if readStatus s r.desc 64 ≠ 0 then readStatus s r.desc 64
  else if readStatus s r.levelAddr (levelBytes r) ≠ 0 then readStatus s r.levelAddr (levelBytes r)
  else if !boxFieldsOk s r then bxDESC
  else if r.pitch ≠ pitch16 s then bxPITCH
  else if 4 ≤ boxHeld s r.part then bxFULL
  else 0

/-- Show the queue and the running request in BOX_STAT. -/
def boxShow : Act := fun s =>
  seq [setF BOX_STAT_QUEUED (min s.boxQueue.length 64), setF BOX_STAT_BUSY (if s.boxRun = none then 0 else 1)] s

/-- A request ends with a status other than OK (R206, R212). -/
def boxFail (r : BoxReq) (st : Nat) : Act := fun s =>
  seq [incReg BOX_ERR_CNT,
    wr BOX_LAST_ERR (st + r.part % 16 * 2 ^ 8 + 2 ^ 12),
    whenA (decide (r.part < 16) && boxCwOk s r) (signalWord .box r.cwAddr r.pitch 1 st 3)] s

/-- A word is written to BOX_SUBMIT by a master (R203, R206). -/
def boxSubmit (src : Master) (w : Nat) : Act := fun s =>
  let p := masterPart s src
  let a := 0x100000000000 + w % 8 * 0x10000000 + bits w 24 3 * 64
  let r := boxDesc s p a
  seq [unitRead .box a (if p < 16 ∧ ownsBank s p a 64 then 64 else 0),
    if boxCheck s r = 0 then (fun s => [.boxQueue (s.boxQueue ++ [r])]) else boxFail r (boxCheck s r), boxShow] s

/-- BOX_SUBMIT (R206): refused with DISABLED while the stage is not ON (R214). -/
def execBoxSubmit (r : Req) (s : State) : Host.Outcome State Fault Refusal :=
  done (if !reqLive s .write r then nop
    else if getF s BOX_STAT_STATE ≠ 1 then respond r .write stDISABLED []
    else seq [boxSubmit r.src (leNat ((reqOf s .write r).data.take 4)), respond r .write stOK []]) s

/-! ### Decoding and selection (R207 to R209) -/

/-- Code of one channel of a C16 tensor with `b` bytes an element. -/
def c16At (s : State) (base w h b ch x y : Nat) : Nat :=
  numAt s (base + (((ch / 16) * h + y) * w + x) * 16 * b + ch % 16 * b) b

/-- FP32 score of a class at a location and anchor: an INT8 code times SCORE_SCALE, or an FP16 number. -/
def boxScore (s : State) (r : BoxReq) (v : BoxLevel) (x y a c : Nat) : Nat :=
  if r.sfmt = 0 then fE (fMul (fOfInt (toSigned 8 (c16At s v.scoreAddr v.w v.h 1 (a * r.classes + c) x y))) (fD r.scoreScale))
  else fE (fDecode fp16 (c16At s v.scoreAddr v.w v.h 2 (a * r.classes + c) x y))

/-- Does one score exceed another (FP32 codes; false with a NaN)? -/
def scoreGt (a b : Nat) : Bool := fLt (fD b) (fD a)

/-- Class of highest score with AGN, the lower class on a tie. -/
def bestClass (cs : List BoxCand) : List BoxCand :=
  match cs with
  | [] => []
  | c :: rest => [rest.foldl (fun m x => if scoreGt x.score m.score then x else m) c]

/-- Candidates of one location and anchor (R208). -/
def candsAt (s : State) (r : BoxReq) (l idx : Nat) (v : BoxLevel) (x y a : Nat) : List BoxCand :=
  let cs := ((List.range r.classes).map (fun c => (⟨boxScore s r v x y a c, c, idx, l, x, y, a⟩ : BoxCand))).filter
    (fun c => scoreGt c.score r.logitThr)
  if r.agn then bestClass cs else cs

/-- Candidates of one level, whose first scan index is `base`. -/
def candsLevel (s : State) (r : BoxReq) (l base : Nat) : List BoxCand :=
  let v := boxLevel s r l
  ((List.range (v.h * v.w * r.nanch)).map (fun i =>
    candsAt s r l (base + i) v (i / r.nanch % v.w) (i / r.nanch / v.w) (i % r.nanch))).flatten

/-- First scan index of a level. -/
def scanBase (s : State) (r : BoxReq) (l : Nat) : Nat :=
  ((List.range l).map (fun k => (boxLevel s r k).w * (boxLevel s r k).h * r.nanch)).sum

/-- All candidates in scan order. -/
def boxCands (s : State) (r : BoxReq) : List BoxCand :=
  ((List.range r.levels).map (fun l => candsLevel s r l (scanBase s r l))).flatten

/-- Insert by descending score; equal scores stay in scan order (R208). -/
def insertCand (c : BoxCand) : List BoxCand → List BoxCand
  | [] => [c]
  | d :: ds => if scoreGt d.score c.score then d :: insertCand c ds else c :: d :: ds

/-- Candidates in the order of R208. -/
def orderCands (cs : List BoxCand) : List BoxCand := cs.foldr insertCand []

/-- Raise to 0 if negative. -/
def atLeast0 (w : Nat) : Nat := if fLt (fD w) (fD 0) then 0 else w
/-- Clamp to `[0, m]` pixels; a NaN stays. -/
def clampPix (m w : Nat) : Nat :=
  if m = 0 then w
  else if fLt (fD w) (fD 0) then 0
  else if fLt (fOfInt m) (fD w) then fE (fOfInt m) else w

/-- FP32 code of an integer over 2. -/
def fpHalf (n : Nat) : Nat := fE (fDiv (fOfInt n) (fOfInt 2))

/-- The decoded box of a candidate (R207). -/
def boxRect (s : State) (r : BoxReq) (c : BoxCand) : BoxRect :=
  let v := boxLevel s r c.level
  let ch (k : Nat) := fE (fDecode fp16 (c16At s v.boxAddr v.w v.h 2 (4 * c.anch + k) c.x c.y))
  let st := fE (fOfInt v.stride)
  let cx0 := fpMul (fpHalf (2 * c.x + 1)) st
  let cy0 := fpMul (fpHalf (2 * c.y + 1)) st
  let half (z : Nat) := fpDiv z (fE (fOfInt 2))
  let fromC (cx cy w h : Nat) : BoxRect := ⟨fpSub cx (half w), fpSub cy (half h), fpAdd cx (half w), fpAdd cy (half h)⟩
  let e8 (z : Nat) := Config.boxExp (if fLt (fOfInt 8) (fD z) then fE (fOfInt 8) else z) % 2 ^ 32
  let an (k : Nat) := numAt s (r.levelAddr + 32 * r.levels + (c.level * r.nanch + c.anch) * 8 + 4 * k) 4
  let q : BoxRect :=
    if r.mode = 0 then
      ⟨fpSub cx0 (fpMul (atLeast0 (ch 0)) st), fpSub cy0 (fpMul (atLeast0 (ch 1)) st),
        fpAdd cx0 (fpMul (atLeast0 (ch 2)) st), fpAdd cy0 (fpMul (atLeast0 (ch 3)) st)⟩
    else if r.mode = 1 then
      fromC (fpAdd cx0 (fpMul (fpMul (ch 0) (an 0)) r.v0)) (fpAdd cy0 (fpMul (fpMul (ch 1) (an 1)) r.v0))
        (fpMul (an 0) (e8 (fpMul (ch 2) r.v1))) (fpMul (an 1) (e8 (fpMul (ch 3) r.v1)))
    else if r.center then fromC (ch 0) (ch 1) (ch 2) (ch 3)
    else ⟨ch 0, ch 1, ch 2, ch 3⟩
  let q : BoxRect := ⟨clampPix r.imgW q.x1, clampPix r.imgH q.y1, clampPix r.imgW q.x2, clampPix r.imgH q.y2⟩
  { q with x2 := if fLt (fD q.x2) (fD q.x1) then q.x1 else q.x2, y2 := if fLt (fD q.y2) (fD q.y1) then q.y1 else q.y2 }

/-- Does a box have a NaN coordinate? -/
def rectNan (q : BoxRect) : Bool := [q.x1, q.y1, q.x2, q.y2].any (fun w => fD w == .nan)

/-- Area of a box in FP32. -/
def rectArea (q : BoxRect) : Nat := fpMul (fpSub q.x2 q.x1) (fpSub q.y2 q.y1)

/-- R209: does one box overlap another past the threshold T = IOU_THR / 65,536? -/
def overlaps (thr : Nat) (p q : BoxRect) : Bool :=
  let mx (a b : Nat) := if fLt (fD a) (fD b) then b else a
  let mn (a b : Nat) := if fLt (fD b) (fD a) then b else a
  let w := fpSub (mn p.x2 q.x2) (mx p.x1 q.x1)
  let h := fpSub (mn p.y2 q.y2) (mx p.y1 q.y1)
  let inter := if fLt (fD 0) (fD w) && fLt (fD 0) (fD h) then fpMul w h else 0
  let union := fpSub (fpAdd (rectArea p) (rectArea q)) inter
  let t := fE (fDiv (fOfInt thr) (fOfInt 65536))
  !fIsZero (fD (rectArea p)) && !fIsZero (fD (rectArea q)) && fLt (fD (fpMul t union)) (fD inter)

/-- Greedy suppression (R209): kept records oldest first; the flag says that candidates remained at POST_MAX. -/
def suppress (r : BoxReq) : List (BoxCand × BoxRect) → List (BoxCand × BoxRect) → List (BoxCand × BoxRect) × Bool
  | [], kept => (kept, false)
  | c :: cs, kept =>
    if r.postMax ≤ kept.length then (kept, true)
    else
      let full := r.clsMax != 0 && decide (r.clsMax ≤ (kept.filter (fun k => k.1.cls == c.1.cls)).length)
      let hit := kept.any (fun k => (r.agn || k.1.cls == c.1.cls) && overlaps r.iouThr k.2 c.2)
      suppress r cs (if full || hit then kept else kept ++ [c])

/-- One record (R211). -/
def boxRecord (r : BoxReq) (e : BoxCand × BoxRect) : List Byte :=
  let sc := if r.sig then Config.boxLogistic e.1.score % 2 ^ 16 else (fEncode fp16 0 (fD e.1.score)).1
  leBytes 4 e.2.x1 ++ leBytes 4 e.2.y1 ++ leBytes 4 e.2.x2 ++ leBytes 4 e.2.y2 ++ leBytes 2 sc ++ leBytes 2 e.1.cls
    ++ leBytes 2 e.1.x ++ leBytes 2 e.1.y ++ leBytes 1 e.1.level ++ leBytes 1 e.1.anch ++ leBytes 2 0 ++ leBytes 4 e.1.idx

/-- First failing status of the reads of a request's input (R212). -/
def boxReads (s : State) (r : BoxReq) : Nat :=
  let st := [readStatus s r.desc 64, readStatus s r.levelAddr (levelBytes r)] ++
    ((List.range r.levels).map (fun l =>
      let v := boxLevel s r l
      [readStatus s v.scoreAddr (scoreBytes r v), readStatus s v.boxAddr (boxBytes r v)])).flatten
  (st.find? (fun x => x != 0)).getD 0

/-- A request as the stage performs it: all input is read before any output is written (R211). -/
def boxPerform (s : State) (r : BoxReq) : BoxRun :=
  if boxReads s r ≠ 0 then ⟨r, [], boxReads s r, false, 0⟩
  else
    let all := orderCands (boxCands s r)
    let cut := (all.take r.preMax).map (fun c => (c, boxRect s r c))
    let good := cut.filter (fun e => !rectNan e.2)
    let nans := cut.length - good.length
    let (kept, limit) := if r.op = 2 then suppress r good [] else (good.take r.postMax, false)
    let trunc := decide (r.preMax < all.length)
    let fl := (if trunc then 1 else 0) + (if limit then 2 else 0) + (if nans ≠ 0 then 4 else 0)
    ⟨r, leBytes 2 r.pitch ++ leBytes 2 kept.length ++ leBytes 4 all.length ++ leBytes 2 fl ++ List.replicate 22 0
      ++ (kept.map (boxRecord r)).flatten, 0, trunc, nans⟩

/-- The queued request that starts next: lowest effective level number, oldest within a level (R213). -/
def boxNext (s : State) : Option BoxReq :=
  match s.boxQueue with
  | [] => none
  | q :: qs => some (qs.foldl (fun m x => if effLevel s x.part < effLevel s m.part then x else m) q)

/-- BOX_REQUEST_START (R213). -/
def execBoxRequestStart (s : State) : Host.Outcome State Fault Refusal :=
  done (fun s =>
    if s.boxRun ≠ none ∨ getF s BOX_STAT_STATE = 0 then [] else
    match boxNext s with
    | none => []
    | some r => seq [upd (.boxQueue (s.boxQueue.erase r)), upd (.boxRun (some (boxPerform s r))), boxShow] s) s

/-- BOX_REQUEST_DONE (R211): header, records, then the completion word; `cyc` FCLK cycles were used. -/
def execBoxRequestDone (cyc : Nat) (s : State) : Host.Outcome State Fault Refusal :=
  done (fun s =>
    match s.boxRun with
    | none => []
    | some b =>
      let ws := if b.status = 0 then writeStatus s b.req.outAddr b.out.length else b.status
      seq [upd (.boxRun none), inc64 BOX_BUSY_LO cyc,
        if ws ≠ 0 then boxFail b.req ws
        else seq [unitWrite .box b.req.outAddr b.out, signalWord .box b.req.cwAddr b.req.pitch 1 0 3,
          incReg BOX_DONE_CNT, whenA b.trunc (incReg BOX_TRUNC_CNT), addReg BOX_NAN_CNT b.nans],
        boxShow] s) s

/-! ### The pitch, restarts, bivouac and disabling (R214) -/

/-- Discard queued and running requests: nothing further is written for them. -/
def boxDiscard (drop : BoxReq → Bool) : Act := fun s =>
  let n := (s.boxQueue.filter drop).length + (match s.boxRun with | some b => if drop b.req then 1 else 0 | none => 0)
  if n = 0 then [] else
  seq [upd (.boxQueue (s.boxQueue.filter (fun r => !drop r))),
    (match s.boxRun with | some b => if drop b.req then upd (.boxRun none) else nop | none => nop),
    addReg BOX_STALE_CNT n, boxShow] s

/-- At a tick, requests of another pitch are discarded. -/
def boxTick : Act := fun s => boxDiscard (fun r => r.pitch != pitch16 s) s
/-- At the start of a partition's restart or bivouac, its requests are discarded. -/
def boxDiscardPart (p : Nat) : Act := boxDiscard (fun r => r.part == p)

/-- BOX_DISABLE (R104, R214). -/
def execBoxDisable (src : Master) (s : State) : Host.Outcome State Fault Refusal :=
  done (guarded (swWriteOk src) src BOX_CTL (writeEnable BOX_CTL_EN BOX_STAT_STATE false)) s

/-- Is all accepted work done? -/
def boxIdle (s : State) : Bool := s.boxQueue.isEmpty && s.boxRun.isNone

/-- The drain timeout: requests left end ABORTED. -/
def boxDrainTimeout : Act := fun s =>
  let left := (match s.boxRun with | some b => [b.req] | none => []) ++ s.boxQueue
  seq [upd (.boxQueue []), upd (.boxRun none), forEach left (fun r => boxFail r stABORTED), boxShow,
    endDrain BOX_CTL_EN BOX_STAT_STATE] s

end Sys2Proof.Machine
end

