-- ==== Sys2Proof/Machine/Crypto.lean ====
section
/-! DEFINITION. SHA-256 (FIPS 180-4) and the RSASSA-PSS verification of R66 (PKCS #1 v2.2, RSA-3072, exponent 65,537,
MGF1 with SHA-256, 32-byte salt). -/
namespace Sys2Proof.Machine

/-- Rotate a 32-bit number right. -/
def rotr (n x : Nat) : Nat := x / 2 ^ n + x % 2 ^ n * 2 ^ (32 - n)
/-- Exclusive or of three numbers. -/
def xor3 (a b c : Nat) : Nat := Nat.xor (Nat.xor a b) c

/-- Round constants of SHA-256. -/
def shaK : List Nat := [
  0x428a2f98, 0x71374491, 0xb5c0fbcf, 0xe9b5dba5, 0x3956c25b, 0x59f111f1, 0x923f82a4, 0xab1c5ed5,
  0xd807aa98, 0x12835b01, 0x243185be, 0x550c7dc3, 0x72be5d74, 0x80deb1fe, 0x9bdc06a7, 0xc19bf174,
  0xe49b69c1, 0xefbe4786, 0x0fc19dc6, 0x240ca1cc, 0x2de92c6f, 0x4a7484aa, 0x5cb0a9dc, 0x76f988da,
  0x983e5152, 0xa831c66d, 0xb00327c8, 0xbf597fc7, 0xc6e00bf3, 0xd5a79147, 0x06ca6351, 0x14292967,
  0x27b70a85, 0x2e1b2138, 0x4d2c6dfc, 0x53380d13, 0x650a7354, 0x766a0abb, 0x81c2c92e, 0x92722c85,
  0xa2bfe8a1, 0xa81a664b, 0xc24b8b70, 0xc76c51a3, 0xd192e819, 0xd6990624, 0xf40e3585, 0x106aa070,
  0x19a4c116, 0x1e376c08, 0x2748774c, 0x34b0bcb5, 0x391c0cb3, 0x4ed8aa4a, 0x5b9cca4f, 0x682e6ff3,
  0x748f82ee, 0x78a5636f, 0x84c87814, 0x8cc70208, 0x90befffa, 0xa4506ceb, 0xbef9a3f7, 0xc67178f2]

/-- Initial hash value of SHA-256. -/
def shaInit : List Nat := [
  0x6a09e667, 0xbb67ae85, 0x3c6ef372, 0xa54ff53a, 0x510e527f, 0x9b05688c, 0x1f83d9ab, 0x5be0cd19]

/-- The message schedule, newest word first, with `n` more words to make. -/
def shaSched : Nat → List Nat → List Nat
  | 0, ws => ws
  | n + 1, ws =>
    let w2 := ws.getD 1 0
    let w7 := ws.getD 6 0
    let w15 := ws.getD 14 0
    let w16 := ws.getD 15 0
    let s0 := xor3 (rotr 7 w15) (rotr 18 w15) (w15 / 2 ^ 3)
    let s1 := xor3 (rotr 17 w2) (rotr 19 w2) (w2 / 2 ^ 10)
    shaSched n ((w16 + s0 + w7 + s1) % 2 ^ 32 :: ws)

/-- One round on the eight working variables. -/
def shaRound (v : List Nat) (kw : Nat) : List Nat :=
  match v with
  | [a, b, c, d, e, f, g, h] =>
    let s1 := xor3 (rotr 6 e) (rotr 11 e) (rotr 25 e)
    let ch := Nat.xor (Nat.land e f) (Nat.land (2 ^ 32 - 1 - e) g)
    let t1 := (h + s1 + ch + kw) % 2 ^ 32
    let s0 := xor3 (rotr 2 a) (rotr 13 a) (rotr 22 a)
    let mj := xor3 (Nat.land a b) (Nat.land a c) (Nat.land b c)
    [(t1 + s0 + mj) % 2 ^ 32, a, b, c, (d + t1) % 2 ^ 32, e, f, g]
  | _ => v

/-- The 16 big-endian words of a 64-byte block. -/
def shaWords (blk : List Byte) : List Nat := (List.range 16).map (fun i => beNat ((blk.drop (4 * i)).take 4))

/-- The hash value after one block. -/
def shaBlock (h : List Nat) (blk : List Byte) : List Nat :=
  let ws := (shaSched 48 (shaWords blk).reverse).reverse
  let v := (List.zipWith (fun k w => k + w) shaK ws).foldl shaRound h
  List.zipWith (fun a b => (a + b) % 2 ^ 32) h v

/-- The message padded to whole blocks. -/
def shaPad (m : List Byte) : List Byte :=
  m ++ 0x80 :: (List.replicate ((119 - m.length % 64) % 64) 0 ++ beBytes 8 (8 * m.length))

/-- Hash `n` blocks. -/
def shaGo : Nat → List Nat → List Byte → List Nat
  | 0, h, _ => h
  | n + 1, h, m => shaGo n (shaBlock h (m.take 64)) (m.drop 64)

/-- SHA-256 of a byte string: 32 bytes. -/
def sha256 (m : List Byte) : List Byte :=
  let p := shaPad m
  ((shaGo (p.length / 64) shaInit p).map (beBytes 4)).flatten

/-- MGF1 with SHA-256: `n` bytes of mask from a seed. -/
def mgf1 (seed : List Byte) (n : Nat) : List Byte :=
  (((List.range ((n + 31) / 32)).map (fun i => sha256 (seed ++ beBytes 4 i))).flatten).take n

/-- b^65537 modulo n. -/
def rsaPublic (b n : Nat) : Nat := (List.range 16).foldl (fun x _ => x * x % n) b * b % n

/-- RSASSA-PSS verification of a 384-byte signature with a 3072-bit modulus (R66). -/
def pssVerify (modulus : Nat) (msg sig : List Byte) : Bool :=
  let em := beBytes 384 (rsaPublic (beNat sig) modulus)
  let h := (em.drop 351).take 32
  let masked := em.take 351
  let db := List.zipWith (fun a b => a ^^^ b) masked (mgf1 h 351)
  let db := BitVec.ofNat 8 ((db.headD 0).toNat % 128) :: db.drop 1
  let salt := db.drop 319
  decide (sig.length = 384 ∧ beNat sig < modulus ∧ em.drop 383 = [0xBC] ∧ (em.headD 0).toNat < 128
    ∧ db.take 318 = List.replicate 318 0 ∧ (db.drop 318).take 1 = [1]
    ∧ h = sha256 (List.replicate 8 0 ++ sha256 msg ++ salt))

end Sys2Proof.Machine
end

