-- ==== Sys2Proof/Machine/Kv.lean ====
section
/-! DEFINITION. The key-value cache managers (R216 to R243). -/
namespace Sys2Proof.Machine

/-! ### Caches and their entries (R217, R218) -/

/-- Cache `c`. -/
def kv (s : State) (c : Nat) : KvCache := get_kvs s c
/-- Replace a cache's state. -/
def setKv (c : Nat) (f : KvCache → KvCache) : Act := fun s => [.kvs c (f (kv s c))]

/-- `n` bytes at offset `o` of the KVCACHE entry of cache `c`, from the home manager's registers (R243). -/
def kvE (s : State) (c o n : Nat) : Nat :=
  leNat (((List.range n).map (fun i => BitVec.ofNat 8 (rd s (KVC_C_ENTRY (kv s c).home c ((o + i) / 4)) / 256 ^ ((o + i) % 4)))))

def kvByPos (s : State) (c : Nat) : Bool := kvE s c 2 1 == 1
def kvNdies (s : State) (c : Nat) : Nat := kvE s c 3 1
def kvDie (s : State) (c i : Nat) : Nat := kvE s c (4 + i) 1
def kvHeads (s : State) (c : Nat) : Nat := kvE s c 0xC 2
def kvDim (s : State) (c : Nat) : Nat := kvE s c 0xE 2
def kvFmt (s : State) (c : Nat) : Nat := kvE s c 0x10 1
def kvRing (s : State) (c : Nat) : Bool := kvE s c 0x12 1 == 1
def kvCap (s : State) (c : Nat) : Nat := kvE s c 0x13 1 + 1
def kvShare (s : State) (c : Nat) : Bool := bit (kvE s c 0x16 1) 0
def kvMirror (s : State) (c : Nat) : Bool := bit (kvE s c 0x16 1) 1
def kvPoolPages (s : State) (c : Nat) : Nat := kvE s c 0x18 2
def kvPool (s : State) (c i : Nat) : Nat := kvE s c (0x20 + 8 * i) 8
/-- Sequences a cache owns: first number and count. -/
def kvSeqBase (s : State) (c : Nat) : Nat := kvE s c 0x14 1
def kvSeqCnt (s : State) (c : Nat) : Nat := kvE s c 0x15 1 + 1
def kvRecBase (s : State) (c : Nat) : Nat := kvE s c 0x60 8
def kvTreeBase (s : State) (c : Nat) : Nat := kvE s c 0x68 8
def kvTokBase (s : State) (c : Nat) : Nat := kvE s c 0x70 8
/-- TREE_MAX (R228). -/
def kvTreeMax (c : Nat) : Nat := 2 ^ (8 + Config.kvTree c % 9)
/-- Handles of a cache (R218). -/
def kvHandles (s : State) (c : Nat) : Nat := kvPoolPages s c * (if kvByPos s c then kvNdies s c else 1)
/-- The mirror address of a primary address in a die's window. -/
def mirrorAddr (a : Nat) : Nat :=
  0x100000000000 + partner ((a - 0x100000000000) / 0x10000000) * 0x10000000 + a % 0x10000000

/-- Index in DIES of the die that holds a handle's page, with BY_POS (R218). -/
def pageDie (s : State) (c h : Nat) : Nat := h % kvNdies s c
/-- Address of handle `h`'s page on DIES[i] (R218). -/
def pageAddr (s : State) (c i h : Nat) : Nat :=
  kvPool s c i + (if kvByPos s c then h / kvNdies s c else h) * 2 ^ kvE s c 0x17 1

/-- Show the free pages of a cache on each die, and the lowest count (R243). -/
def kvShowFree (c : Nat) : Act := fun s =>
  forEach (List.range (kvNdies s c)) (fun i => fun s =>
    let n := if kvByPos s c then ((kv s c).free.filter (fun h => pageDie s c h == i)).length else (kv s c).free.length
    let d := kvDie s c i
    seq [setF (KVC_C_FREE_FREE d c) n, setF (KVC_C_FREE_MINFREE d c) (min n (getF s (KVC_C_FREE_MINFREE d c)))] s) s

/-- Caches whose home is die `d`. -/
def kvOn (s : State) (d : Nat) : List Nat := (List.range 16).filter (fun c => (kv s c).owner != 0x1F && (kv s c).home == d)

/-- Show the queue of a manager (R243). -/
def kvShow (d : Nat) : Act := fun s =>
  seq [setF (KVC_STAT_QUEUED d) (min 264 (((kvOn s d).map (fun c => (kv s c).queue.length)).sum)),
    setF (KVC_STAT_BUSY d) (if (kvOn s d).any (fun c => (kv s c).run.isSome) then 1 else 0)] s

/-! ### Writes with their mirror (R219) -/

/-- A failed mirror write: the cache's mirroring stops until its partition restarts. -/
def kvUnmirror (c : Nat) : Act := fun s => setF (KVC_C_LIVE_UNMIRRORED (kv s c).home c) 1 s

/-- A manager of die `d` writes bytes and, with MIRROR, the same bytes at the partner. -/
def kvWrite (c d a : Nat) (bs : List Byte) : Act := fun s =>
  seq [unitWrite (.kvc d) a bs,
    fun s => if kvMirror s c && !flag s (KVC_C_LIVE_UNMIRRORED (kv s c).home c) then
        (let st := writeStatus s (mirrorAddr a) bs.length
         seq [unitWrite (.kvc d) (mirrorAddr a) bs, whenA (st != 0) (kvUnmirror c)] s)
      else []] s

/-! ### Records (R233) -/

/-- Address of a sequence's record. -/
def recAddr (s : State) (c q : Nat) : Nat := kvRecBase s c + (q - kvSeqBase s c) * 2048
def recState (s : State) (c q : Nat) : Nat := numAt s (recAddr s c q) 1
def recMark (s : State) (c q : Nat) : Nat := numAt s (recAddr s c q + 2) 2
def recLen (s : State) (c q : Nat) : Nat := numAt s (recAddr s c q + 4) 4
def recFirst (s : State) (c q : Nat) : Nat := numAt s (recAddr s c q + 8) 8
def recMarkLen (s : State) (c q : Nat) : Nat := numAt s (recAddr s c q + 0x10) 4
def recMarkFirst (s : State) (c q : Nat) : Nat := numAt s (recAddr s c q + 0x18) 8
def recCommits (s : State) (c q : Nat) : Nat := numAt s (recAddr s c q + 0x20) 4
/-- Handle of block `j` in the record's map. -/
def recHandle (s : State) (c q j : Nat) : Nat := numAt s (recAddr s c q + 0x40 + j % 256 * 4) 4
/-- Is the sequence open? A cache whose records are still to be zeroed has none. -/
def seqOpen (s : State) (c q : Nat) : Bool := !(kv s c).fresh && recState s c q == 1
/-- Write a number at an offset of a record. -/
def recPut (c q o n v : Nat) : Act := fun s => kvWrite c (kv s c).home (recAddr s c q + o) (leBytes n v) s
/-- Set a map slot. -/
def recSlot (c q j h : Nat) : Act := recPut c q (0x40 + j % 256 * 4) 4 h
/-- Blocks that a sequence holds: absolute numbers from FIRST_POS. -/
def heldBlocks (first len : Nat) : List Nat := (List.range ((len + 255) / 256)).map (fun i => first / 256 + i)

/-- Open sequences of a cache. -/
def kvShowLive (c : Nat) : Act := fun s =>
  setF (KVC_C_LIVE_SEQS (kv s c).home c)
    ((List.range (kvSeqCnt s c)).filter (fun i => seqOpen s c (kvSeqBase s c + i))).length s

/-! ### The prefix tree (R227 to R231) -/

def noHandle : Nat := 0xFFFFFFFF
def entAddr (s : State) (c i : Nat) : Nat := kvTreeBase s c + i * 32
def entHash (s : State) (c i : Nat) : Nat := numAt s (entAddr s c i) 8
def entHandle (s : State) (c i : Nat) : Nat := numAt s (entAddr s c i + 8) 4
def entRefs (s : State) (c i : Nat) : Nat := numAt s (entAddr s c i + 0x10) 2
def entLast (s : State) (c i : Nat) : Nat := numAt s (entAddr s c i + 0x14) 4
/-- An entry is empty by its HANDLE, or still as the zeroing of R238 left it. -/
def entEmpty (s : State) (c i : Nat) : Bool :=
  entHandle s c i == noHandle || numAt s (entAddr s c i) 32 == 0
/-- Write a number at an offset of an entry. -/
def entPut (c i o n v : Nat) : Act := fun s => kvWrite c (kv s c).home (entAddr s c i + o) (leBytes n v) s

/-- The entries a lookup of a hash probes. -/
def probes (c x : Nat) : List Nat := (List.range 8).map (fun i => (x + i) % kvTreeMax c)
/-- Hash of a block (R227). -/
def blockHash (s : State) (c prev : Nat) (tok : List Byte) : Nat :=
  leNat ((sha256 (leBytes 8 prev ++ leBytes 8 (kvE s c 0x78 8) ++ tok)).take 8)
/-- The 256 tokens the store holds for a handle. -/
def storeToks (s : State) (c h : Nat) : List Byte := bytesAt s (kvTokBase s c + h * 1024) 1024

/-- The tree entry that holds a handle. -/
def treeOf (s : State) (c h : Nat) : Option Nat :=
  if kvShare s c then (List.range (kvTreeMax c)).find? (fun i => !entEmpty s c i && entHandle s c i == h) else none

/-- Is the handle a ghost whose pages must stay intact? -/
def isGhost (k : KvCache) (h : Nat) : Bool := k.ghosts.any (fun g => g.2.2.2 == h) || k.relGhosts.contains h

/-- The entry with REFS zero and the lowest LAST among some entries, ghosts apart. -/
def oldestEntry (s : State) (c : Nat) (is : List Nat) : Option Nat :=
  let ok := is.filter (fun i => !entEmpty s c i && entRefs s c i == 0 && !isGhost (kv s c) (entHandle s c i))
  match ok with
  | [] => none
  | i :: rest => some (rest.foldl (fun m x => if entLast s c x < entLast s c m then x else m) i)

/-- A handle's page returns to the free list unless the tree still holds the block (R231). -/
def freeHandle (c h : Nat) : Act := fun s =>
  if (treeOf s c h).isSome ∨ (kv s c).free.contains h then [] else setKv c (fun k => { k with free := k.free ++ [h] }) s

/-- REFS of a handle's entry changes by one as a sequence takes or leaves the block. -/
def refBlock (c h : Nat) (up : Bool) : Act := fun s =>
  match treeOf s c h with
  | some i => entPut c i 0x10 2 (if up then entRefs s c i + 1 else entRefs s c i - 1) s
  | none => []

/-- Allocate a page (R231): the free list first, then the tree's oldest unreferenced block. -/
def allocHandle (c : Nat) (s : State) : Option (Nat × Act) :=
  match (kv s c).free with
  | h :: hs => some (h, setKv c (fun k => { k with free := hs }))
  | [] =>
    if kvShare s c then
      (oldestEntry s c (List.range (kvTreeMax c))).map (fun i =>
        (entHandle s c i, seq [entPut c i 8 4 noHandle, incReg (KVC_EVICT_CNT (kv s c).home)]))
    else none

/-- Allocate pages for blocks one after another: handles, and the action; none where a page is missing. -/
def allocAll (c : Nat) : List Nat → State → Option (List (Nat × Nat) × Act)
  | [], _ => some ([], nop)
  | j :: js, s =>
    match allocHandle c s with
    | none => none
    | some (h, a) =>
      match allocAll c js (runAct a s) with
      | none => none
      | some (hs, b) => some ((j, h) :: hs, andThen a b)

/-! ### Submitting (R232, R234) -/

/-- The descriptor at an address, for a partition. -/
def kvDesc (s : State) (p a : Nat) : KvReq :=
  let n (o k : Nat) := numAt s (a + o) k
  { part := p, op := n 0 1, cache := n 1 1, seq := n 2 1, sfmt := n 3 1, pitch := n 4 2, count := n 8 4, rbPitch := n 0xC 2,
    kAddr := n 0x10 8, vAddr := n 0x18 8, tokAddr := n 0x20 8, cwAddr := n 0x28 8 }

/-- Bytes of the keys, or of the values, that an APPEND names (R222). -/
def kvBytes (s : State) (r : KvReq) : Nat := kvHeads s r.cache * r.count * kvDim s r.cache * (fmtBits r.sfmt / 8)

/-- R234 check 1. -/
def kvOwnOk (s : State) (d a : Nat) (r : KvReq) : Bool :=
  decide (r.part < 16 ∧ r.cache < 16) && (kv s r.cache).owner == r.part && (kv s r.cache).home == d
    && ownsBank s r.part a 64 && ownsBank s r.part r.cwAddr 8
    && (r.op != 2 || (ownsBank s r.part r.kAddr (kvBytes s r) && ownsBank s r.part r.vAddr (kvBytes s r)))
    && (!(r.op == 1 || r.op == 2) || r.tokAddr == 0 || ownsBank s r.part r.tokAddr (4 * r.count))

/-- R234 check 2. -/
def kvFieldsOk (s : State) (a : Nat) (r : KvReq) : Bool :=
  decide (1 ≤ r.op ∧ r.op ≤ 4 ∧ kvSeqBase s r.cache ≤ r.seq ∧ r.seq < kvSeqBase s r.cache + kvSeqCnt s r.cache
    ∧ numAt s (a + 6) 2 = 0 ∧ numAt s (a + 0xE) 2 = 0 ∧ numAt s (a + 0x30) 16 = 0)
  && (r.op != 2 || decide (5 ≤ r.sfmt ∧ r.sfmt ≤ 7 ∧ 1 ≤ r.count ∧ r.count ≤ 4096))
  && (r.op != 1 || decide (r.count ≤ 65536))
  && !(r.op == 2 && kvShare s r.cache && r.tokAddr == 0)

/-- Status codes of the managers (R235). -/
abbrev kvDESC : Nat := 0x50
abbrev kvOWNER : Nat := 0x51
abbrev kvPITCH : Nat := 0x52
abbrev kvFULL : Nat := 0x53
abbrev kvSEQ : Nat := 0x54
abbrev kvLIMIT : Nat := 0x55
abbrev kvNOPAGE : Nat := 0x56
abbrev kvUNMIRRORED : Nat := 0x57
abbrev kvNOMARK : Nat := 0x58

/-- The status the checks give, 0 where the request passes (R234). -/
def kvCheck (s : State) (d a : Nat) (r : KvReq) : Nat :=
  if !kvOwnOk s d a r then kvOWNER
  else if readStatus s a 64 ≠ 0 then readStatus s a 64
  else if !kvFieldsOk s a r then kvDESC
  else if r.pitch ≠ pitch16 s then kvPITCH
  else if 16 ≤ (kv s r.cache).queue.length + (if (kv s r.cache).run.isSome then 1 else 0) then kvFULL
  else if seqOpen s r.cache r.seq != (r.op != 1) then kvSEQ
  else 0

/-- A request ends without commit (R235). -/
def kvFail (d : Nat) (r : KvReq) (st : Nat) : Act := fun s =>
  seq [incReg (KVC_ERR_CNT d), wr (KVC_LAST_ERR d) (st + r.cache % 16 * 2 ^ 8 + r.seq * 2 ^ 12 + 2 ^ 20),
    whenA (decide (r.part < 16) && ownsBank s r.part r.cwAddr 8) (signalWord (.kvc d) r.cwAddr r.pitch 1 st 5)] s

/-- The descriptor address that a KVC_SUBMIT word names (R232). -/
def kvSubmitAddr (w : Nat) : Nat := 0x100000000000 + w % 8 * 0x10000000 + bits w 24 3 * 64

/-- A word is written to KVC_SUBMIT of die `d` (R232, R234). -/
def kvSubmit (d : Nat) (src : Master) (w : Nat) : Act := fun s =>
  let p := masterPart s src
  let a := kvSubmitAddr w
  let r := kvDesc s p a
  let st := kvCheck s d a r
  seq [unitRead (.kvc d) a (if p < 16 ∧ ownsBank s p a 64 then 64 else 0),
    if st = 0 then setKv r.cache (fun k => { k with queue := k.queue ++ [r] }) else kvFail d r st, kvShow d] s

/-- The KVC_SUBMIT register of a die that an address names. -/
def kvSubmitDie (a : Nat) : Option Nat := (List.range 8).find? (fun d => KVC_SUBMIT d == a)

/-- A KVC_SUBMIT store whose descriptor has a given OP (R232); refused with DISABLED while the manager is not ON. -/
def kvCommand (op : Nat) (r : Req) : Act := fun s =>
  let q := reqOf s .write r
  let w := leNat (q.data.take 4)
  match kvSubmitDie q.addr with
  | none => []
  | some d =>
    if !reqLive s .write r || numAt s (kvSubmitAddr w) 1 != op then []
    else if getF s (KVC_STAT_STATE d) ≠ 1 then respond r .write stDISABLED [] s
    else seq [kvSubmit d r.src w, respond r .write stOK []] s

/-- OPEN (R229). -/
def execKvOpen (r : Req) (s : State) : Host.Outcome State Fault Refusal := done (kvCommand 1 r) s
/-- APPEND (R222). -/
def execKvAppend (r : Req) (s : State) : Host.Outcome State Fault Refusal := done (kvCommand 2 r) s
/-- RELEASE (R231). -/
def execKvRelease (r : Req) (s : State) : Host.Outcome State Fault Refusal := done (kvCommand 3 r) s
/-- ROLLBACK (R226). -/
def execKvRollback (r : Req) (s : State) : Host.Outcome State Fault Refusal := done (kvCommand 4 r) s

/-! ### Quantising (R221 to R223) -/

/-- Size of an MXFP4 key tile, and the offset of value tiles and tail in a head slot (R221). -/
def mxKeyTile (dim : Nat) : Nat := 8 * dim + 64 * ((dim + 127) / 128)
def mxValBase (dim : Nat) : Nat := 16 * mxKeyTile dim
def mxTail (dim : Nat) : Nat := 264 * dim + 1024 * ((dim + 127) / 128)
/-- Bytes of a head slot. -/
def slotBytes (fmt dim : Nat) : Nat :=
  if fmt = 0xC then 328 * dim + 1024 * ((dim + 127) / 128) else if fmt = 0 then 512 * dim + 2048 else 512 * dim

/-- INT8 codes of one vector: scale bits, codes, NaN scale, saturated (R222). -/
def int8Vec (vs : List FVal) : Nat × List Nat × Bool × Bool :=
  if vs.any (fun v => match v with | .fin _ _ _ => false | _ => true) then (0x7FC00000, vs.map (fun _ => 0), true, false)
  else
    let a := (vs.map fAbs).foldl fMax (.fin false 0 0)
    if fIsZero a then (0, vs.map (fun _ => 0), false, false)
    else
      let sc := fE (fDiv a (fOfInt 127))
      let q (v : FVal) : Int := match fDiv v (fD sc) with
        | .fin n m e => (fToInt 0 n m e).1
        | _ => 0
      (sc, vs.map (fun v => ofSigned 8 (max (-127) (min 127 (q v)))), false,
        vs.any (fun v => decide (q v < -127 ∨ 127 < q v)))

/-- What quantising gives: memory writes in order, and counts of NaN scales and saturations. -/
structure KvQuant where
  puts : List (Nat × List Byte)
  nans : Nat
  sats : Nat
  deriving DecidableEq, Repr

/-- Both results together. -/
def KvQuant.join (a b : KvQuant) : KvQuant := ⟨a.puts ++ b.puts, a.nans + b.nans, a.sats + b.sats⟩

/-- Replace one 4-bit code: the byte's new value from its old one; low nibble first (R138). -/
def putNibble (old : Byte) (i code : Nat) : Byte :=
  BitVec.ofNat 8 (if i % 2 = 0 then old.toNat / 16 * 16 + code % 16 else code % 16 * 16 + old.toNat % 16)

/-- Keys and values of one position and head, FP8 or INT8 (R221, R222): `base` the head slot, `p` the position in the
block. -/
def quantPos (fmt dim base p : Nat) (ks vs : List FVal) : KvQuant :=
  let keyAt (r : Nat) := base + p / 16 * 16 * dim + r * 16 + p % 16
  let valAt (ch : Nat) := base + 256 * dim + 4096 * (ch / 16) + p * 16 + ch % 16
  let place (at_ : Nat → Nat) (codes : List Nat) := codes.zipIdx.map (fun e => (at_ e.2, leBytes 1 e.1))
  if fmt = 0 then
    let (sk, ck, nk, tk) := int8Vec ks
    let (sv, cv, nv, tv) := int8Vec vs
    ⟨place keyAt ck ++ place valAt cv ++ [(base + 512 * dim + 4 * p, leBytes 4 sk), (base + 512 * dim + 1024 + 4 * p, leBytes 4 sv)],
      (if nk then 1 else 0) + (if nv then 1 else 0), (if tk then 1 else 0) + (if tv then 1 else 0)⟩
  else
    let ck := ks.map (convTo fmt 0 true)
    let cv := vs.map (convTo fmt 0 true)
    ⟨place keyAt (ck.map (·.code)) ++ place valAt (cv.map (·.code)), 0,
      (if ck.any (·.satd) then 1 else 0) + (if cv.any (·.satd) then 1 else 0)⟩

/-- Write quantised bytes, counting what R222 counts at the shard's manager. -/
def kvStore (c d : Nat) (q : KvQuant) : Act :=
  seq [forEach q.puts (fun e => kvWrite c d e.1 e.2), addReg (KVC_NAN_CNT d) q.nans, addReg (KVC_SAT_CNT d) q.sats]

/-- Store 4-bit codes at element indices of a tile, reading each byte first. -/
def storeNibbles (c d base : Nat) (els : List (Nat × Nat)) : Act :=
  forEach els (fun e => fun s => kvWrite c d (base + e.1 / 2) [putNibble (byteAt s (base + e.1 / 2)) e.1 e.2] s)

/-- An MXFP4 key block: 32 channels from `r0` of one position and head (R222). -/
def mxKeyBlock (c d dim base p r0 : Nat) (ks : List FVal) : Act :=
  let (el, sc, _, sat) := mxEncode 0xC 0 ks
  let tile := base + p / 16 * mxKeyTile dim
  seq [storeNibbles c d tile (el.zipIdx.map (fun e => ((r0 + e.2) * 16 + p % 16, e.1))),
    kvWrite c d (tile + 8 * dim + r0 / 32 * 16 + p % 16) (leBytes 1 sc),
    whenA (sc == 0xFF) (incReg (KVC_NAN_CNT d)), whenA sat (incReg (KVC_SAT_CNT d))]

/-- The values of one position enter the FP16 tail (R223). -/
def mxTailPut (c d dim base p : Nat) (vs : List FVal) : Act :=
  let cv := vs.map (convTo 5 0 true)
  seq [kvWrite c d (base + mxTail dim + p % 32 * 2 * dim) (cv.map (fun x => leBytes 2 x.code)).flatten,
    whenA (cv.any (·.satd)) (incReg (KVC_SAT_CNT d))]

/-- The 32nd position completes a group: each channel's 32 values are encoded, and the tail is zeroed (R223). -/
def mxGroup (c d dim base p : Nat) : Act := fun s =>
  let g := p / 32
  let tail := base + mxTail dim
  seq [forEach (List.range dim) (fun ch => fun s =>
      let vs := (List.range 32).map (fun i => fmtDecode 5 (numAt s (tail + i * 2 * dim + 2 * ch) 2))
      let (el, sc, _, sat) := mxEncode 0xC 0 vs
      let tile := base + mxValBase dim + 2176 * (ch / 16)
      seq [storeNibbles c d tile (el.zipIdx.map (fun e => ((32 * g + e.2) * 16 + ch % 16, e.1))),
        kvWrite c d (tile + 2048 + g * 16 + ch % 16) (leBytes 1 sc),
        whenA (sc == 0xFF) (incReg (KVC_NAN_CNT d)), whenA sat (incReg (KVC_SAT_CNT d))] s),
    kvWrite c d tail (List.replicate (64 * dim) 0)] s

/-- One position of one head, MXFP4. -/
def mxPos (c d dim base p : Nat) (ks vs : List FVal) : Act :=
  seq [forEach (List.range (dim / 32)) (fun b => mxKeyBlock c d dim base p (32 * b) ((ks.drop (32 * b)).take 32)),
    mxTailPut c d dim base p vs, whenA (p % 32 == 31) (mxGroup c d dim base p)]

/-- Source values of head `h`, appended position `i` (R222). -/
def kvSource (s : State) (r : KvReq) (base h i : Nat) : List FVal :=
  let n := fmtBits r.sfmt / 8
  let dim := kvDim s r.cache
  (List.range dim).map (fun ch => fmtDecode r.sfmt (numAt s (base + ((h * r.count + i) * dim + ch) * n) n))

/-- Heads of a cache on DIES[i]: first and count (R218). -/
def headsOn (s : State) (c i : Nat) : Nat × Nat :=
  if kvByPos s c then (0, kvHeads s c) else (i * kvHeads s c / kvNdies s c, kvHeads s c / kvNdies s c)

/-- One shard writes one appended position: `src` the state whose input is read, `pos` the absolute position. -/
def shardPos (r : KvReq) (src : State) (i n pos hd : Nat) : Act := fun s =>
  let c := r.cache
  let d := kvDie s c i
  let fmt := kvFmt s c
  let dim := kvDim s c
  let (h0, hn) := headsOn s c i
  forEach (List.range hn) (fun k =>
    let base := pageAddr s c i hd + k * slotBytes fmt dim
    let ks := kvSource src r r.kAddr (h0 + k) n
    let vs := kvSource src r r.vAddr (h0 + k) n
    if fmt = 0xC then mxPos c d dim base (pos % 256) ks vs
    else kvStore c d (quantPos fmt dim base (pos % 256) ks vs)) s

/-- Every shard that keeps a block writes the appended position. -/
def appendPos (r : KvReq) (src : State) (n pos hd : Nat) : Act := fun s =>
  let c := r.cache
  let is := if kvByPos s c then [pageDie s c hd] else List.range (kvNdies s c)
  seq [forEach is (fun i => shardPos r src i n pos hd),
    whenA (kvShare s c) (kvWrite c (kv s c).home (kvTokBase s c + hd * 1024 + pos % 256 * 4) (bytesAt src (r.tokAddr + 4 * n) 4))] s

/-- First failing status of the pages an APPEND writes to. -/
def pagesStatus (s : State) (c : Nat) (hs : List Nat) : Nat :=
  let st := (hs.map (fun h =>
    (if kvByPos s c then [pageDie s c h] else List.range (kvNdies s c)).map (fun i =>
      writeStatus s (pageAddr s c i h) ((headsOn s c i).2 * slotBytes (kvFmt s c) (kvDim s c))))).flatten
  (st.find? (fun x => x != 0)).getD 0

/-! ### Starting work (R236) -/

/-- Zero the records and the tree of a changed or new cache before its first request (R238). -/
def kvZero (c : Nat) : Act := fun s =>
  if (kv s c).fresh then
    seq [setKv c (fun k => { k with fresh := false }),
      unitWrite (.kvc (kv s c).home) (kvRecBase s c) (List.replicate (kvSeqCnt s c * 2048) 0),
      whenA (kvShare s c) (unitWrite (.kvc (kv s c).home) (kvTreeBase s c) (List.replicate (kvTreeMax c * 32) 0))] s
  else []

/-- What an OPEN attaches: blocks from `j` on, `fuel` more to look at (R229). -/
def openGo (s : State) (r : KvReq) : Nat → Nat → Nat → KvRun → KvRun
  | 0, _, _, run => run
  | fuel + 1, j, prev, run =>
    let c := r.cache
    let tok := bytesAt s (r.tokAddr + j * 1024) 1024
    let h := blockHash s c prev tok
    match (probes c h).find? (fun i => !entEmpty s c i && entHash s c i == h) with
    | none => { run with misses := run.misses + 1 }
    | some i =>
      if storeToks s c (entHandle s c i) = tok then
        openGo s r fuel (j + 1) h { run with
          handles := run.handles ++ [(j, entHandle s c i)]
          hits := run.hits + 1
          length := 256 * (j + 1)
          hashes := run.hashes ++ [(j, h)] }
      else { run with misses := run.misses + 1, collides := run.collides + 1 }

/-- An OPEN as its manager starts it. -/
def startOpen (s : State) (r : KvReq) : KvRun :=
  if r.tokAddr = 0 ∨ !kvShare s r.cache then { req := r }
  else if readStatus s r.tokAddr (4 * r.count) ≠ 0 ∧ r.count ≠ 0 then { req := r, status := readStatus s r.tokAddr (4 * r.count) }
  else openGo s r (min (r.count / 256) (kvCap s r.cache)) 0 0 { req := r }

/-- The manager accepts an APPEND of a later pitch: a new mark, and the ghosts of the earlier pitch are freed (R226). -/
def acceptMark (r : KvReq) : Act := fun s =>
  let c := r.cache
  if (kv s c).marked.contains r.seq ∧ recMark s c r.seq = r.pitch then [] else
  let gs := (kv s c).ghosts.filter (fun g => g.1 == r.seq)
  seq [setKv c (fun k => { k with marked := r.seq :: k.marked.erase r.seq, ghosts := k.ghosts.filter (fun g => g.1 != r.seq) }),
    recPut c r.seq 2 2 r.pitch, recPut c r.seq 0x10 4 (recLen s c r.seq), recPut c r.seq 0x18 8 (recFirst s c r.seq),
    forEach gs (fun g => freeHandle c g.2.2.2)] s

/-- Whole blocks a RING sequence must evict before an APPEND (R225); none where eviction cannot make room. -/
def evictCount (s : State) (r : KvReq) : Option Nat :=
  let len := recLen s r.cache r.seq
  let cap := 256 * kvCap s r.cache
  if len + r.count ≤ cap then some 0
  else if !kvRing s r.cache then none
  else
    let k := (len + r.count - cap + 255) / 256
    if 256 * k ≤ len then some k else none

/-- First failing status of an APPEND's input reads. -/
def appendReads (s : State) (r : KvReq) : Nat :=
  let st := [readStatus s r.kAddr (kvBytes s r), readStatus s r.vAddr (kvBytes s r)] ++
    (if kvShare s r.cache then [readStatus s r.tokAddr (4 * r.count)] else [])
  (st.find? (fun x => x != 0)).getD 0

/-- An APPEND as its manager starts it: eviction, allocation, and every shard's writes (R222 to R225, R231). -/
def startAppend (r : KvReq) : Act := fun s =>
  let c := r.cache
  let d := (kv s c).home
  let len := recLen s c r.seq
  let f := recFirst s c r.seq
  let fail (st : Nat) : Act := setKv c (fun k => { k with run := some { req := r, status := st } })
  match evictCount s r with
  | none => fail kvLIMIT s
  | some k =>
    let old := (List.range ((f + len + 255) / 256 - f / 256)).map (fun i => f / 256 + i)
    let js := (List.range ((f + len + r.count + 255) / 256 - (f + len + 255) / 256)).map (fun i => (f + len + 255) / 256 + i)
    match allocAll c js s with
    | none => fail kvNOPAGE s
    | some (hs, act) =>
      let hOf (j : Nat) : Nat := match hs.find? (fun e => e.1 == j) with
        | some e => e.2
        | none => recHandle s c r.seq j
      let touched := (List.range ((f + len + r.count + 255) / 256 - (f + len) / 256)).map (fun i => (f + len) / 256 + i)
      let st := if appendReads s r ≠ 0 then appendReads s r else pagesStatus s c (touched.map hOf)
      seq [act,
        setKv c (fun kc => { kc with
          run := some ⟨r, st, hs, (old.take k).map (fun j => (j, recHandle s c r.seq j)), f + 256 * k, len + r.count - 256 * k,
            0, 0, 0, []⟩ }),
        whenA (st == 0) (seq [addReg (KVC_EVICT_CNT d) k,
          forEach (List.range r.count) (fun n => appendPos r s n (f + len + n) (hOf ((f + len + n) / 256)))]),
        kvShowFree c] s

/-- Start one request. -/
def kvStart (r : KvReq) : Act := fun s =>
  let c := r.cache
  seq [setKv c (fun k => { k with queue := k.queue.erase r }), kvZero c,
    if r.op = 1 then (fun s => setKv c (fun k => { k with run := some (startOpen s r) }) s)
    else if r.op = 2 then seq [acceptMark r, startAppend r]
    else if r.op = 3 then setKv c (fun k => { k with run := some { req := r } })
    else fun s =>
      let ok := (kv s c).marked.contains r.seq && recMark s c r.seq == r.rbPitch
      setKv c (fun k => { k with
        run := some ⟨r, if ok then 0 else kvNOMARK, [], [], recMarkFirst s c r.seq, recMarkLen s c r.seq, 0, 0, 0, []⟩ }) s,
    kvShow (kv s c).home] s

/-- The head request of a manager that starts next: lowest effective level number; requests of one cache in order. -/
def kvNext (s : State) (d : Nat) : Option KvReq :=
  let heads := ((kvOn s d).map (fun c => (kv s c).queue.take 1)).flatten
  match heads with
  | [] => none
  | q :: qs => some (qs.foldl (fun m x => if effLevel s x.part < effLevel s m.part then x else m) q)

/-- KV_WORK_START (R236): the manager of die `d` starts its next queued request. -/
def execKvWorkStart (d : Nat) (s : State) : Host.Outcome State Fault Refusal :=
  done (fun s =>
    if getF s (KVC_STAT_STATE d) = 0 ∨ (kvOn s d).any (fun c => (kv s c).run.isSome) then [] else
    match kvNext s d with
    | none => []
    | some r => kvStart r s) s

/-! ### Ending work -/

/-- The run ends: its pages return where it did not commit. -/
def kvDropRun (c : Nat) : Act := fun s =>
  match (kv s c).run with
  | none => []
  | some run => seq [setKv c (fun k => { k with run := none }),
      (if run.req.op = 2 then forEach run.handles (fun e => freeHandle c e.2) else nop), kvShowFree c] s

/-- A request ends without commit. -/
def kvEndFail (c st : Nat) : Act := fun s =>
  match (kv s c).run with
  | none => []
  | some run => seq [kvDropRun c, kvFail (kv s c).home run.req st, kvShow (kv s c).home] s

/-- A request ends with commit: the completion word, DONE_CNT, and KV_UNMIRRORED where mirroring has stopped. -/
def kvEndOk (c : Nat) (r : KvReq) : Act := fun s =>
  let d := (kv s c).home
  let un := flag s (KVC_C_LIVE_UNMIRRORED d c)
  seq [setKv c (fun k => { k with run := none }), incReg (KVC_DONE_CNT d), whenA un (incReg (KVC_UNMIR_CNT d)),
    signalWord (.kvc d) r.cwAddr r.pitch 1 (if un then kvUNMIRRORED else 0) 5, kvShowFree c, kvShowLive c, kvShow d] s

/-- Insert a filled block in the tree (R230). -/
def treeInsert (c q j : Nat) : Act := fun s =>
  let h := recHandle s c q j
  let tok := storeToks s c h
  let hs := (kv s c).hashes
  let prev := match hs.find? (fun e => e.1 == q && e.2.1 + 1 == j) with | some e => e.2.2 | none => 0
  let x := blockHash s c prev tok
  let note : Act := setKv c (fun k => { k with hashes := (q, j, x) :: k.hashes })
  let ps := probes c x
  let same := ps.filter (fun i => !entEmpty s c i && entHash s c i == x)
  if same.any (fun i => storeToks s c (entHandle s c i) == tok) then note s
  else
    let free := (ps.find? (entEmpty s c)).orElse (fun _ => oldestEntry s c (ps.filter (fun i => !same.contains i)))
    match free with
    | none => note s
    | some i =>
      let old := entHandle s c i
      let had := !entEmpty s c i
      let parent := if j = 0 then noHandle else recHandle s c q (j - 1)
      seq [note, kvWrite c (kv s c).home (entAddr s c i)
          (leBytes 8 x ++ leBytes 4 h ++ leBytes 4 parent ++ leBytes 2 1 ++ leBytes 2 0 ++ leBytes 4 (pitchNum s) ++ leBytes 8 0),
        whenA had (freeHandle c old)] s

/-- Blocks that an APPEND fills. -/
def filled (first0 len0 : Nat) (count : Nat) : List Nat :=
  (List.range ((first0 + len0 + count) / 256 - (first0 + len0) / 256)).map (fun i => (first0 + len0) / 256 + i)

/-- APPEND_COMMIT (R224): every shard's writes have ended; the record is updated, then the completion word. -/
def execAppendCommit (c : Nat) (s : State) : Host.Outcome State Fault Refusal :=
  done (fun s =>
    match (kv s c).run with
    | none => []
    | some run =>
      let r := run.req
      let st := if run.status ≠ 0 then run.status else writeStatus s (recAddr s c r.seq) 2048
      if r.op ≠ 2 then []
      else if st ≠ 0 then kvEndFail c st s
      else
        seq [forEach run.evicted (fun e => seq [recSlot c r.seq e.1 noHandle, refBlock c e.2 false]),
          setKv c (fun k => { k with ghosts := k.ghosts ++ run.evicted.map (fun e => (r.seq, r.pitch, e.1, e.2)) }),
          forEach run.handles (fun e => recSlot c r.seq e.1 e.2),
          recPut c r.seq 4 4 run.length, recPut c r.seq 8 8 run.first,
          recPut c r.seq 0x20 4 (recCommits s c r.seq + 1),
          whenA (kvShare s c) (forEach (filled (recFirst s c r.seq) (recLen s c r.seq) r.count) (treeInsert c r.seq)),
          kvEndOk c r] s) s

/-- An OPEN commits: the record opens, and the attached blocks' entries are referenced (R229). -/
def commitOpen (c : Nat) (run : KvRun) : Act := fun s =>
  let q := run.req.seq
  let d := (kv s c).home
  seq [kvWrite c d (recAddr s c q)
      (leBytes 1 1 ++ leBytes 3 0 ++ leBytes 4 run.length ++ List.replicate 56 0 ++ List.replicate 1024 0xFF),
    forEach run.handles (fun e => seq [recSlot c q e.1 e.2, refBlock c e.2 true,
      fun s => match treeOf s c e.2 with | some i => entPut c i 0x14 4 (pitchNum s) s | none => []]),
    setKv c (fun k => { k with
      marked := k.marked.erase q
      hashes := run.hashes.map (fun e => (q, e.1, e.2)) ++ k.hashes.filter (fun e => e.1 != q) }),
    addReg (KVC_HIT_CNT d) run.hits, addReg (KVC_MISS_CNT d) run.misses, addReg (KVC_COLLIDE_CNT d) run.collides] s

/-- A RELEASE commits: the blocks become ghosts until the next tick, and the sequence closes (R231). -/
def commitRelease (c : Nat) (run : KvRun) : Act := fun s =>
  let q := run.req.seq
  let hs := (heldBlocks (recFirst s c q) (recLen s c q)).map (recHandle s c q)
  seq [forEach hs (fun h => refBlock c h false),
    setKv c (fun k => { k with
      relGhosts := k.relGhosts ++ hs ++ ((k.ghosts.filter (fun g => g.1 == q)).map (fun g => g.2.2.2))
      ghosts := k.ghosts.filter (fun g => g.1 != q)
      marked := k.marked.erase q
      hashes := k.hashes.filter (fun e => e.1 != q) }),
    recPut c q 0 1 0] s

/-- A ROLLBACK commits: length and first position of the mark, the pitch's ghosts back in the map, and the blocks that
the pitch's APPENDs allocated released (R226). -/
def commitRollback (c : Nat) (run : KvRun) : Act := fun s =>
  let q := run.req.seq
  let last := (run.first + run.length + 255) / 256
  let gs := (kv s c).ghosts.filter (fun g => g.1 == q)
  let gone := (heldBlocks (recFirst s c q) (recLen s c q)).filter (fun j => decide (last ≤ j))
  seq [forEach gone (fun j =>
      let h := recHandle s c q j
      seq [recSlot c q j noHandle, refBlock c h false, freeHandle c h]),
    forEach gs (fun g => if last ≤ g.2.2.1 then freeHandle c g.2.2.2
      else seq [recSlot c q g.2.2.1 g.2.2.2, refBlock c g.2.2.2 true]),
    setKv c (fun k => { k with
      ghosts := k.ghosts.filter (fun g => g.1 != q)
      hashes := k.hashes.filter (fun e => !(e.1 == q && decide ((run.first + run.length) / 256 ≤ e.2.1))) }),
    recPut c q 4 4 run.length, recPut c q 8 8 run.first] s

/-- KV_REQUEST_END (R236): the manager finishes an OPEN, RELEASE or ROLLBACK. -/
def execKvRequestEnd (c : Nat) (s : State) : Host.Outcome State Fault Refusal :=
  done (fun s =>
    match (kv s c).run with
    | none => []
    | some run =>
      let r := run.req
      let st := if run.status ≠ 0 then run.status else writeStatus s (recAddr s c r.seq) 2048
      if r.op = 2 then []
      else if st ≠ 0 then kvEndFail c st s
      else seq [if r.op = 1 then commitOpen c run else if r.op = 3 then commitRelease c run else commitRollback c run,
        kvEndOk c r] s) s

/-- KV_MIRROR_FAIL (R235): a mirror write of the running request fails or times out. -/
def execKvMirrorFail (c : Nat) (s : State) : Host.Outcome State Fault Refusal :=
  done (fun s => if (kv s c).run.isSome && kvMirror s c then kvUnmirror c s else []) s

/-! ### The pitch, restarts, bivouac, commits and disabling (R237, R238) -/

/-- Discard requests without commit and without completion words. -/
def kvDiscard (drop : KvReq → Bool) : Act := fun s =>
  forEach ((List.range 16).filter (fun c => (kv s c).owner != 0x1F)) (fun c => fun s =>
    let k := kv s c
    let rn := match k.run with | some r => drop r.req | none => false
    let n := (k.queue.filter drop).length + (if rn then 1 else 0)
    if n = 0 then [] else
    seq [setKv c (fun k => { k with queue := k.queue.filter (fun r => !drop r) }),
      if rn then kvDropRun c else nop, addReg (KVC_STALE_CNT k.home) n, kvShow k.home] s) s

/-- At a tick: requests of another pitch are discarded, and the blocks of released sequences are freed (R231, R237). -/
def kvTick : Act := fun s =>
  seq [kvDiscard (fun r => r.pitch != pitch16 s),
    forEach (List.range 16) (fun c => fun s =>
      let hs := (kv s c).relGhosts
      if hs.isEmpty then [] else
      seq [setKv c (fun k => { k with relGhosts := [] }), forEach hs (freeHandle c), kvShowFree c] s)] s

/-- At the start of a partition's restart or bivouac. -/
def kvDiscardPart (p : Nat) : Act := kvDiscard (fun r => r.part == p)

/-- A changed or new cache starts with every sequence closed and every page free (R238). -/
def kvReset (c p : Nat) : Act := fun s =>
  seq [setKv c (fun k => { owner := p, home := k.home, fresh := true }),
    fun s => setKv c (fun k => { k with free := List.range (kvHandles s c) }) s,
    fun s => forEach (List.range (kvNdies s c)) (fun i =>
      wr (KVC_C_FREE (kvDie s c i) c) (kvPoolPages s c % 2 ^ 13 * (1 + 2 ^ 16))) s,
    fun s => wr (KVC_C_LIVE (kv s c).home c) 0 s] s

/-- Mirroring resumes when the cache's partition restarts (R235). -/
def kvRemirror (p : Nat) : Act := fun s =>
  forEach ((List.range 16).filter (fun c => (kv s c).owner == p)) (fun c => setF (KVC_C_LIVE_UNMIRRORED (kv s c).home c) 0) s

/-- Does a pool of the cache lie in a bank that is OFF (R238)? -/
def kvPoolOff (s : State) (c : Nat) : Bool :=
  (List.range (kvNdies s c)).any (fun i =>
    match locOf s (kvPool s c i) with
    | .bank d b => (List.range ((kvPoolPages s c * 2 ^ kvE s c 0x17 1 + 0xFFFFF) / 0x100000)).any (fun k =>
        getF s (BNK_PWR_STATE d (b + k)) == 0)
    | _ => false)

/-- When a partition leaves bivouac, its caches whose pools went OFF count as changed (R238). -/
def kvWake (p : Nat) : Act := fun s =>
  forEach ((List.range 16).filter (fun c => (kv s c).owner == p && kvPoolOff s c)) (fun c => kvReset c p) s

/-- KVC_DISABLE (R104, R237). -/
def execKvcDisable (src : Master) (d : Nat) (s : State) : Host.Outcome State Fault Refusal :=
  done (guarded (swWriteOk src && decide (d < 8)) src (KVC_CTL d)
    (writeEnable (KVC_CTL_EN d) (KVC_STAT_STATE d) false)) s

/-- Is all accepted work of a manager done? -/
def kvIdle (s : State) (d : Nat) : Bool := (kvOn s d).all (fun c => (kv s c).queue.isEmpty && (kv s c).run.isNone)

/-- The drain timeout: work left ends ABORTED. -/
def kvDrainTimeout (d : Nat) : Act := fun s =>
  seq [forEach (kvOn s d) (fun c => fun s =>
      let q := (kv s c).queue
      seq [kvEndFail c stABORTED, setKv c (fun k => { k with queue := [] }), forEach q (fun r => kvFail d r stABORTED)] s),
    kvShow d, endDrain (KVC_CTL_EN d) (KVC_STAT_STATE d)] s

end Sys2Proof.Machine
end

