-- ==== Sys2Proof/Machine/Regulate.lean ====
section
/-! DEFINITION. Bandwidth and latency regulation (R297 to R314). -/
namespace Sys2Proof.Machine

/-- Master port of a master (R297). -/
def portOf : Master → Nat
  | .core g => g / 32
  | .dma n _ => if n < 8 then n else 11
  | .kvc d => d
  | .ingress => 8
  | .fusion => 9 | .box => 9
  | .traverse => 10
  | .pcie => 13
  | .anchor x => 14 + x
  | .cairn => 14
  | .peer d _ => 16 + d % 2
  | .eth _ => 12 | .can _ => 12
  | _ => 12

/-- Ports 14 and 15, which are never marked and compete at level 0 (R299, R300). -/
def anchorPort (p : Nat) : Bool := p == 14 || p == 15

/-- BUDGET of a port; ports 14 and 15 read 0x200 (R312). -/
def budgetOf (s : State) (p : Nat) : Nat := if anchorPort p then 0x200 else getF s (REG_BUDGET_BUDGET p)

/-- Show OUT and OVER of a port. -/
def regShow (p : Nat) : Act := fun s =>
  let out := (s.regReqs.filter (fun r => r.port == p)).length
  seq [setF (REG_STAT_OUT p) out, setF (REG_STAT_OVER p) (if budgetOf s p ≤ out then 1 else 0),
    fun s => if getF s (REG_HWM_HWM p) < out then setF (REG_HWM_HWM p) out s else []] s

/-- Base level of a request: the larger of its PRIO and the port's CLASS (R299). -/
def baseLevel (s : State) (p prio : Nat) : Nat := max prio (getF s (REG_CFG_CLASS p))

/-- The regulated level of a request that enters (R302). -/
def regLevel (s : State) (p prio : Nat) (marked : Bool) : Nat :=
  if anchorPort p then 0 else if marked then 3 else max (baseLevel s p prio - getF s (REG_STAT_BOOST p)) 1

/-- Is a request that enters now over the port's budget (R300)? -/
def overBudget (s : State) (p : Nat) : Bool :=
  !anchorPort p && decide (budgetOf s p ≤ (s.regReqs.filter (fun r => r.port == p)).length)

/-- A regulated request enters at the crossbar (R298 to R302). -/
def regEnter (src : Master) (tag prio : Nat) (isRead : Bool) : Act := fun s =>
  let p := portOf src
  let marked := overBudget s p
  let rp := get_regPorts s p
  seq [upd (.regReqs (s.regReqs ++ [⟨p, src, tag, regLevel s p prio marked, marked, isRead, s.time⟩])),
    upd (.regPorts p { rp with reqs := rp.reqs + 1, marks := rp.marks + (if marked then 1 else 0) }),
    inc64 (REG_REQ p) 1, whenA marked (incReg (REG_OVER_CNT p)), regShow p] s

/-- REGULATED_REQUEST_ENTRY (R300). -/
def execRegulatedRequestEntry (src : Master) (tag prio : Nat) (isRead : Bool) (now : Nat) (s : State) :
    Host.Outcome State Fault Refusal :=
  done (seq [advance now, fun s =>
    if s.regReqs.any (fun r => r.src == src && r.tag == tag) then [] else regEnter src tag prio isRead s]) s

/-- Average after a latency: AVG + (x − AVG) / 16, truncated toward zero (R301). -/
def avgNext (avg x : Nat) : Nat := min 0xFFFF ((avg : Int) + Int.tdiv ((x : Int) - avg) 16).toNat

/-- Boost of a port after an update of its average (R301). -/
def boostNext (avg tgt boost : Nat) : Nat :=
  if tgt = 0 then 0
  else if tgt ≤ avg then 2
  else if 3 * tgt ≤ 4 * avg then max boost 1
  else if 2 * avg < tgt then 0
  else boost

/-- A regulated request leaves the I/O die (R298). -/
def regLeave (src : Master) (tag : Nat) : Act := fun s =>
  match s.regReqs.find? (fun r => r.src == src && r.tag == tag) with
  | none => []
  | some r => seq [upd (.regReqs (s.regReqs.erase r)), regShow r.port] s

/-- REGULATED_READ_RESPONSE (R301): the latency runs from entry to response in device time. -/
def execRegulatedReadResponse (src : Master) (tag now : Nat) (s : State) : Host.Outcome State Fault Refusal :=
  done (seq [advance now, fun s =>
    match s.regReqs.find? (fun r => r.src == src && r.tag == tag && r.isRead) with
    | none => []
    | some r =>
      let p := r.port
      let x := s.time - r.entered
      let avg := avgNext (getF s (REG_LAT_AVG p)) x
      seq [setF (REG_LAT_AVG p) avg, setF (REG_LAT_MAX p) (max (getF s (REG_LAT_MAX p)) (min x 0xFFFF)),
        setF (REG_STAT_BOOST p) (boostNext avg (getF s (REG_LAT_TGT_NS p)) (getF s (REG_STAT_BOOST p))),
        regLeave src tag] s]) s

/-- A value written to REG_BUDGET is clamped into [MIN, MAX]; ports 14 and 15 ignore it (R304, R312). -/
def budgetWrite (p v : Nat) : Act := fun s =>
  if anchorPort p then [] else
  seq [setF (REG_BUDGET_BUDGET p) (min (max (v % 2 ^ 10) (getF s (REG_BLIM_MIN p))) (getF s (REG_BLIM_MAX p))), regShow p] s

/-- REG_BUDGET_WRITE (R304). -/
def execRegBudgetWrite (src : Master) (p v : Nat) (s : State) : Host.Outcome State Fault Refusal :=
  done (guarded (swWriteOk src && decide (p < 18)) src (REG_BUDGET p) (budgetWrite p v)) s

/-- The shipped budget policy for one tuned port (R305). -/
def budgetPolicy (p : Nat) : Act := fun s =>
  let rp := get_regPorts s p
  let b := getF s (REG_BUDGET_BUDGET p)
  let step := getF s (REG_BLIM_MAX p) / 8
  if !flag s (REG_CFG_TUNE p) || anchorPort p then []
  else if rp.reqs < 20 * rp.marks then seq [budgetWrite p (min (b + step) 0x3FF), incReg REG_POL_CNT] s
  else if 2 * getF s (REG_HWM_HWM p) < b then seq [budgetWrite p (b - step), incReg REG_POL_CNT] s
  else []

/-- BUDGET_POLICY (R305): in the guard, while FW_EN is 1. -/
def budgetGuard : Act := fun s => if flag s REG_POL_FW_EN then forEach (List.range 18) budgetPolicy s else []

/-- At a tick the maxima of the pitch clear (R312). -/
def regTick : Act := forEach (List.range 18) (fun p =>
  seq [setF (REG_LAT_MAX p) 0, setF (REG_HWM_HWM p) 0, upd (.regPorts p {})])

/-- Average and boost of a DMA channel after a read's latency (R307). -/
def chLatency (n ch x : Nat) : Act := fun s =>
  let avg := avgNext (getF s (REG_CH_LAT_AVG n ch)) x
  let tgt := getF s (REG_CH_CFG_LAT_TGT_NS n ch)
  let b := if tgt = 0 then 0 else if 3 * tgt ≤ 4 * avg then 1 else if 2 * avg < tgt then 0 else getF s (REG_CH_LAT_BOOST n ch)
  seq [setF (REG_CH_LAT_AVG n ch) avg, setF (REG_CH_LAT_BOOST n ch) b] s

end Sys2Proof.Machine
end

