-- ==== Sys2Proof/Machine/Dma.lean ====
section
/-! DEFINITION. DMA channels up to the run of a descriptor (R268 to R277, R285, R287 to R296): register sets, arming and
taking, fetches, checks, completion, pitch end, and the control of remote windows. -/
namespace Sys2Proof.Machine

/-- Channel `ch` of node `n` (8: I/O die). -/
def dmaKey (n ch : Nat) : Nat := n * 32 + ch
def dch (s : State) (n ch : Nat) : DmaCh := get_dmas s (dmaKey n ch)
def setDch (n ch : Nat) (f : DmaCh → DmaCh) : Act := fun s => [.dmas (dmaKey n ch) (f (dch s n ch))]
/-- Does the channel exist (R268)? -/
def dmaExists (n ch : Nat) : Bool := decide (n < 8 ∧ ch < 16) || decide (n = 8 ∧ ch < 32)
/-- A firmware channel (R269). -/
def dmaFw (n ch : Nat) : Bool := decide (n = 8 ∧ 28 ≤ ch)
/-- Owning partition; 0x1F none. -/
def dmaPart (s : State) (n ch : Nat) : Nat := getF s (DMA_CH_OWN_PART n ch)

/-- Who may write a channel's registers (R270). -/
def dmaWriteOk (s : State) (n ch : Nat) : Master → Bool
  | .mgmt => true
  | .core g => decide (dmaPart s n ch < 16) && coreOwner s g == dmaPart s n ch
  | _ => false

/-! ### Descriptor words (R271, R272) -/

/-- Word `i` of a descriptor. -/
def dw (ws : List Nat) (i : Nat) : Nat := ws.getD i 0
def dOp (ws : List Nat) : Nat := bits (dw ws 0) 2 0
def dChain (ws : List Nat) : Bool := bit (dw ws 0) 3
def dCw (ws : List Nat) : Bool := bit (dw ws 0) 4
def dNoPitch (ws : List Nat) : Bool := bit (dw ws 0) 5
def dNoInplace (ws : List Nat) : Bool := bit (dw ws 0) 6
/-- Window of the destination, where DST_WIN is set. -/
def dDwin (ws : List Nat) : Option Nat := if bit (dw ws 0) 7 then some (bits (dw ws 0) 13 8) else none
/-- Window of the source, where SRC_WIN is set. -/
def dSwin (ws : List Nat) : Option Nat := if bit (dw ws 0) 14 then some (bits (dw ws 0) 20 15) else none
def dCwInc (ws : List Nat) : Nat := bits (dw ws 0) 31 24
def dPitch (ws : List Nat) : Nat := bits (dw ws 1) 15 0
/-- Element length in bytes. -/
def dElem (ws : List Nat) : Nat := bits (dw ws 1) 31 16 + 1
def dSrc (ws : List Nat) : Nat := dw ws 2 + 2 ^ 32 * dw ws 3
def dDst (ws : List Nat) : Nat := dw ws 4 + 2 ^ 32 * dw ws 5
def dCnt0 (ws : List Nat) : Nat := bits (dw ws 6) 15 0 + 1
def dCnt1 (ws : List Nat) : Nat := bits (dw ws 6) 31 16 + 1
def dSstr0 (ws : List Nat) : Int := toSigned 32 (dw ws 8)
def dDstr0 (ws : List Nat) : Int := toSigned 32 (dw ws 9)
def dSstr1 (ws : List Nat) : Int := toSigned 32 (dw ws 10)
def dDstr1 (ws : List Nat) : Int := toSigned 32 (dw ws 11)
def dCwAddr (ws : List Nat) : Nat := dw ws 12 + 2 ^ 32 * dw ws 13
def dNext (ws : List Nat) : Nat := dw ws 14 + 2 ^ 32 * dw ws 15

/-- The shadow set as a descriptor (R271). -/
def shadowWords (s : State) (n ch : Nat) : List Nat := (List.range 16).map (fun i => rd s (DMA_CH_OPC n ch + 4 * i))
/-- Write the shadow set; reserved bits are not held. -/
def setShadow (n ch : Nat) (ws : List Nat) : Act :=
  forEach (List.range 16) (fun i =>
    let v := dw ws i
    wr (DMA_CH_OPC n ch + 4 * i) (if i = 1 then v % 2 ^ 28 else if i = 7 then 0 else v))
/-- Copy a descriptor into the active set. -/
def setActive (n ch : Nat) (ws : List Nat) : Act :=
  forEach (List.range 16) (fun i => wr (DMA_CH_ACT_OPC n ch + 4 * i) (dw ws i))

/-! ### Checks (R285) -/

/-- Check 1. -/
def dmaDescOk (n ch : Nat) (ws : List Nat) (rawBad : Bool) : Bool :=
  decide (1 ≤ dOp ws ∧ dOp ws ≤ 4 ∧ bits (dw ws 0) 23 21 = 0 ∧ dw ws 7 = 0 ∧ dElem ws ≤ 4096
    ∧ dElem ws * dCnt0 ws * dCnt1 ws ≤ 2 ^ 32 ∧ dCwAddr ws % 8 = 0)
  && (!dCw ws || dCwInc ws != 0) && (!dNoPitch ws || dmaFw n ch)
  && !((dOp ws == 2 || dOp ws == 4) && (dSwin ws).isSome) && !rawBad

/-- Extent of a walk: first and last byte (R285). -/
def extent (base cnt0 cnt1 elem : Nat) (s0 s1 : Int) : Int × Int :=
  let a := ((cnt0 : Int) - 1) * s0
  let b := ((cnt1 : Int) - 1) * s1
  ((base : Int) + min 0 a + min 0 b, (base : Int) + max 0 a + max 0 b + elem - 1)

/-- Does `[lo, hi]` lie in one DRAM region, one run of banks of a die, or the memories of one cluster that the partition
owns? -/
def extentOwned (s : State) (p : Nat) (lo hi : Int) : Bool :=
  decide (0 ≤ lo) &&
  let a := lo.toNat
  let b := hi.toNat
  ownsRange s p a (b + 1 - a) &&
  (match locOf s a, locOf s b with
   | .dram, .dram => regionOf s a == regionOf s b
   | .bank d _, .bank e _ => d == e
   | .coreMem d c, .coreMem e f => d == e && c / 8 == f / 8
   | .opBuf d c _, .opBuf e f _ => d == e && c / 8 == f / 8
   | _, _ => false)

/-- First byte of a remote window, and one past its last (R292). -/
def winRange (s : State) (w : Nat) : Nat × Nat :=
  let b := 0x100000000000 + w / 8 * 0x10000000 + getF s (DMA_WIN_RANGE_BASE_4K w) * 4096
  (b, b + getF s (DMA_WIN_RANGE_LEN_4K w) * 4096)

/-- Does the extent lie in the die window of a remote window that the channel may name (R285)? In this package by
DMA_WIN_USE, in the paired package by DMA_WIN_USEP. -/
def extentInWindow (s : State) (n ch w : Nat) (lo hi : Int) : Bool :=
  let own := 0x100000000000 + w / 8 * 0x10000000
  let peer := 0x180000000000 + w / 8 * 0x10000000
  let within (base : Nat) : Bool := decide ((base : Int) ≤ lo ∧ hi < (base : Int) + 0x10000000)
  (bit (rd64 s (DMA_WIN_USE n ch)) w && within own) || (bit (rd64 s (DMA_WIN_USEP n ch)) w && within peer)

/-- One extent of check 2. -/
def extentOk (s : State) (n ch : Nat) (win : Option Nat) (e : Int × Int) : Bool :=
  match win with
  | some w => extentInWindow s n ch w e.1 e.2
  | none => extentOwned s (dmaPart s n ch) e.1 e.2

/-- Extents of the source and of the destination. -/
def srcExtent (ws : List Nat) : Int × Int := extent (dSrc ws) (dCnt0 ws) (dCnt1 ws) (dElem ws) (dSstr0 ws) (dSstr1 ws)
def dstExtent (ws : List Nat) : Int × Int := extent (dDst ws) (dCnt0 ws) (dCnt1 ws) (dElem ws) (dDstr0 ws) (dDstr1 ws)

/-- Does CW_ADDR lie in memory that the partition owns? -/
def dmaCwOk (s : State) (n ch : Nat) (ws : List Nat) : Bool := !dCw ws || dmaFw n ch || ownsRange s (dmaPart s n ch) (dCwAddr ws) 8

/-- Check 2; firmware channels skip it (R269). -/
def dmaOwnOk (s : State) (n ch : Nat) (ws : List Nat) : Bool :=
  dmaFw n ch ||
  (decide (dmaPart s n ch < 16)
    && (dOp ws == 2 || dOp ws == 4 || extentOk s n ch (dSwin ws) (srcExtent ws))
    && extentOk s n ch (dDwin ws) (dstExtent ws) && dmaCwOk s n ch ws
    && (!dChain ws || ownsRange s (dmaPart s n ch) (dNext ws) 64))

/-- Status codes of a descriptor (R288). -/
abbrev dmMISMATCH : Nat := 0x60
abbrev dmDESC : Nat := 0x61
abbrev dmOWNER : Nat := 0x62
abbrev dmPITCH : Nat := 0x63

/-- The status the checks give, 0 where the descriptor passes. -/
def dmaCheck (s : State) (n ch : Nat) (ws : List Nat) (rawBad : Bool) : Nat :=
  if !dmaDescOk n ch ws rawBad then dmDESC
  else if !dmaOwnOk s n ch ws then dmOWNER
  else if !dmaFw n ch && dPitch ws != pitch16 s then dmPITCH
  else 0

/-- Record the status of a descriptor that fails (R285, R289). -/
def dmaRecord (n ch st pitch addr : Nat) : Act :=
  seq [wr (DMA_CH_ERR n ch) (st + 2 ^ 8 + pitch * 2 ^ 16), wr64 (DMA_CH_ERR_ADDR n ch) addr]

/-! ### Arming and taking (R274 to R277) -/

/-- Accept a write of 1 to ARM. -/
def dmaArm (n ch : Nat) : Act := setF (DMA_CH_CTL_ARM n ch) 1

/-- Is the channel accepting arms and fetches (R291)? -/
def dmaOn (s : State) (n ch : Nat) : Bool := getF s (DMA_CH_STAT_STATE n ch) == 1

/-- DMA_ARM (R274); refused with DISABLED, without effect, while the channel is not ON (R291). -/
def execDmaArm (src : Master) (n ch : Nat) (s : State) : Host.Outcome State Fault Refusal :=
  done (guarded (dmaExists n ch && dmaWriteOk s n ch src) src (DMA_CH_CTL n ch) (whenA (dmaOn s n ch) (dmaArm n ch))) s

/-- DMA_TAKE (R274, R275, R285): the channel takes the armed shadow when the descriptor before it has issued its last
request and the tracker has room. A descriptor that fails a check issues nothing. -/
def execDmaTake (n ch : Nat) (s : State) : Host.Outcome State Fault Refusal :=
  done (fun s =>
    let d := dch s n ch
    if !dmaExists n ch || getF s (DMA_CH_STAT_STATE n ch) == 0 || !flag s (DMA_CH_CTL_ARM n ch) || d.active.isSome
      || getF s (DMA_CH_STAT_RUN n ch) == 2 || decide (2 ≤ d.ending.length) then []
    else
      let ws := shadowWords s n ch
      let st := dmaCheck s n ch ws d.rawBad
      let t : DmaTrack := { words := ws, status := st, ran := st != 0, noCw := st == dmOWNER && !dmaCwOk s n ch ws }
      seq [setActive n ch ws, wr (DMA_CH_OPC n ch) 0, setF (DMA_CH_CTL_ARM n ch) 0,
        setDch n ch (fun d => { d with
          active := if st = 0 then some t else none
          ending := if st = 0 then d.ending else d.ending ++ [t]
          rawBad := false
          chain := dChain ws && st == 0
          fetch := if dChain ws && st == 0 then some (dNext ws) else d.fetch }),
        whenA (st != 0) (dmaRecord n ch st (dPitch ws) 0),
        setF (DMA_CH_STAT_RUN n ch) (if st = 0 then 1 else 0)] s) s

/-- A failed chain fetch gives its status to the descriptor that requested it: the one taken last (R275). -/
def chainFail (n ch st addr : Nat) : Act := setDch n ch (fun d =>
  let mark (t : DmaTrack) : DmaTrack := if t.status = 0 then { t with status := st, addr := addr } else t
  match d.active with
  | some t => { d with active := some (mark t) }
  | none => { d with ending := d.ending.dropLast ++ (d.ending.getLast?.toList).map mark })

/-- DMA_CHAIN_FETCH_DONE (R275, R277): the fetched descriptor enters the shadow set and arms it. -/
def execDmaChainFetchDone (n ch : Nat) (s : State) : Host.Outcome State Fault Refusal :=
  done (fun s =>
    match (dch s n ch).fetch with
    | none => []
    | some a =>
      let m := Master.dma n ch
      let owned := dmaFw n ch || (decide (dmaPart s n ch < 16) && ownsRange s (dmaPart s n ch) a 64)
      let st := if !owned then dmOWNER else readStatus s a 64
      let ws := (List.range 16).map (fun i => numAt s (a + 4 * i) 4)
      seq [whenA owned (unitRead m a 64),
        setDch n ch (fun d => { d with fetch := none, chain := false }),
        if st = 0 then seq [setShadow n ch ws, setF (DMA_CH_CTL_ARM n ch) 1,
            setDch n ch (fun d => { d with rawBad := dw ws 7 != 0 || decide (dw ws 1 / 2 ^ 28 ≠ 0) })]
        else if (dch s n ch).chain then chainFail n ch st a
        else dmaRecord n ch st 0 a] s) s

/-- A write to DMA_CH_FETCH_LO (R276, R277). -/
def dmaFetchWrite (n ch lo : Nat) : Act := fun s =>
  if flag s (DMA_CH_CTL_ARM n ch) then setF (DMA_CH_STAT_SHW_IGN n ch) 1 s
  else
    let a := lo / 64 * 64 % 2 ^ 32 + 2 ^ 32 * rd s (DMA_CH_FETCH_HI n ch)
    seq [wr (DMA_CH_FETCH_LO n ch) (lo / 64 * 64), setDch n ch (fun d => { d with fetch := some a, chain := false })] s

/-- DMA_FETCH_WRITE (R277); refused with DISABLED, without effect, while the channel is not ON (R291). -/
def execDmaFetchWrite (src : Master) (n ch lo : Nat) (s : State) : Host.Outcome State Fault Refusal :=
  done (guarded (dmaExists n ch && dmaWriteOk s n ch src) src (DMA_CH_FETCH_LO n ch)
    (whenA (dmaOn s n ch) (dmaFetchWrite n ch lo))) s

/-- Writing GO takes a halted channel out of HALTED (R289). -/
def dmaGo (n ch : Nat) : Act := fun s => if getF s (DMA_CH_STAT_RUN n ch) = 2 then setF (DMA_CH_STAT_RUN n ch) 0 s else []

/-- DMA_GO (R289). -/
def execDmaGo (src : Master) (n ch : Nat) (s : State) : Host.Outcome State Fault Refusal :=
  done (guarded (dmaExists n ch && dmaWriteOk s n ch src) src (DMA_CH_CTL n ch) (dmaGo n ch)) s

/-! ### Completion (R287 to R289) -/

/-- Write a descriptor's completion word, where it has one. -/
def dmaSignal (n ch : Nat) (t : DmaTrack) (st : Nat) : Act :=
  whenA (dCw t.words && !t.noCw) (signalWord (.dma n ch) (dCwAddr t.words) (dPitch t.words) (dCwInc t.words) st 1)

/-- R464: a descriptor that ends with a failing status is a job fault of code 0x03 of the owning partition, attributed to
the channel's die, or to the word's for DATA_UNCORR from a scratchpad word. -/
def dmaFault (n ch : Nat) (t : DmaTrack) (st : Nat) : Act := fun s =>
  if st = 0 ∨ st = dmMISMATCH ∨ st = stWINDOW_CLOSED then []
  else raiseJobFault (dmaPart s n ch) 3 (match (if st = stDATA_UNCORR then windowDie t.addr else none) with
    | some d => [d]
    | none => if n < 8 then [n] else []) s

/-- DMA_DESCRIPTOR_COMPLETE (R287): the oldest descriptor in the tracker ends. -/
def execDmaDescriptorComplete (n ch : Nat) (s : State) : Host.Outcome State Fault Refusal :=
  done (fun s =>
    match (dch s n ch).ending with
    | [] => []
    | t :: rest =>
      seq [setDch n ch (fun d => { d with ending := rest }), dmaSignal n ch t t.status, dmaFault n ch t t.status,
        whenA (t.status == 0 || t.status == dmMISMATCH) (incReg (DMA_CH_DONE_CNT n ch))] s) s

/-! ### The pitch and other events (R290, R291) -/

/-- A channel ends its work: `keep` says which armed shadow stays. -/
def dmaEnd (n ch : Nat) (keep : Nat → Bool) : Act := fun s =>
  let d := dch s n ch
  let drop := flag s (DMA_CH_CTL_ARM n ch) && !keep (dPitch (shadowWords s n ch))
  let k := (if drop then 1 else 0) + (if d.active.isSome then 1 else 0) + d.ending.length
  seq [setDch n ch (fun d => { d with active := none, ending := [], fetch := none, chain := false }),
    whenA drop (seq [setF (DMA_CH_CTL_ARM n ch) 0, wr (DMA_CH_OPC n ch) 0]),
    whenA (decide (0 < k)) (addReg (DMA_CH_STALE_CNT n ch) k),
    whenA (getF s (DMA_CH_STAT_RUN n ch) != 0) (setF (DMA_CH_STAT_RUN n ch) 0)] s

/-- DMA_PITCH_END (R290): at a tick, every channel that a partition owns ends its work of the earlier pitch. -/
def dmaTick : Act := fun s =>
  forEach (((List.range 16).map (channelsOf s)).flatten) (fun c => dmaEnd c.1 c.2 (fun p => p == pitch16 s)) s

/-- A partition enters RESTART or PARKING: its channels end their work at that moment (R291). -/
def dmaPartEnd (p : Nat) : Act := fun s => forEach (channelsOf s p) (fun c => dmaEnd c.1 c.2 (fun _ => false)) s

/-- DMA_DISABLE (R104, R291). -/
def execDmaDisable (src : Master) (n ch : Nat) (s : State) : Host.Outcome State Fault Refusal :=
  done (guarded (dmaExists n ch && dmaWriteOk s n ch src) src (DMA_CH_CTL n ch)
    (writeEnable (DMA_CH_CTL_EN n ch) (DMA_CH_STAT_STATE n ch) false)) s

/-- Is all accepted work of a channel done? -/
def dmaIdle (s : State) (n ch : Nat) : Bool :=
  let d := dch s n ch
  d.active.isNone && d.ending.isEmpty && d.fetch.isNone && !flag s (DMA_CH_CTL_ARM n ch)

/-- The drain timeout: what remains ends ABORTED. -/
def dmaDrainTimeout (n ch : Nat) : Act := fun s =>
  let d := dch s n ch
  let ws := shadowWords s n ch
  let armed : List DmaTrack := if flag s (DMA_CH_CTL_ARM n ch) then [{ words := ws, noCw := !dmaCwOk s n ch ws }] else []
  let left := d.ending ++ d.active.toList ++ armed
  seq [setDch n ch (fun _ => {}), setF (DMA_CH_CTL_ARM n ch) 0,
    forEach left (fun t => seq [dmaSignal n ch t stABORTED, dmaFault n ch t stABORTED, dmaRecord n ch stABORTED (dPitch t.words) 0,
      incReg (DMA_CH_ABORT_CNT n ch)]),
    setF (DMA_CH_STAT_RUN n ch) 0, endDrain (DMA_CH_CTL_EN n ch) (DMA_CH_STAT_STATE n ch)] s

/-! ### Remote windows (R292 to R294) -/

/-- The status a window access gets at its bank (R293): 0 where it is admitted. -/
def winCheck (s : State) (w a len : Nat) (isWrite peer : Bool) : Nat :=
  if !flag s (DMA_WIN_CTL_OPEN w) || !(if isWrite then flag s (DMA_WIN_CTL_WRITE w) else flag s (DMA_WIN_CTL_READ w))
    || (peer && !flag s (DMA_WIN_CTL_PEER w)) then stWINDOW_CLOSED
  else if (winRange s w).1 ≤ a ∧ a + len ≤ (winRange s w).2 then 0 else stUNMAPPED

/-- A dropped window access is counted, and the first recorded (R293). -/
def winDrop (m : Master) (w st : Nat) : Act := fun s =>
  seq [incReg (DMA_WIN_DROP_CNT w),
    if flag s (DMA_WIN_DROP_SRC_VALID w) then nop
    else wr (DMA_WIN_DROP_SRC w) (nodeOf m + unitOf m % 32 * 2 ^ 5 + 2 ^ 10 + (if st = stUNMAPPED then 2 ^ 11 else 0)
      + pitch16 s * 2 ^ 12)] s

/-- Who may write DMA_WIN_CTL (R294). -/
def winWriteOk (s : State) (w : Nat) : Master → Bool
  | .mgmt => true
  | .core g => decide (getF s (DMA_WIN_CTL_OWNER w) < 16) && coreOwner s g == getF s (DMA_WIN_CTL_OWNER w)
  | _ => false

/-- WINDOW_CTL_WRITE (R294): OPEN is in force at every bank once the write is performed (and within its 4 cycles). -/
def execWindowCtlWrite (src : Master) (w : Nat) (v : Bool) (s : State) : Host.Outcome State Fault Refusal :=
  done (guarded (decide (w < 64) && winWriteOk s w src) src (DMA_WIN_CTL w)
    (setF (DMA_WIN_CTL_OPEN w) (if v then 1 else 0))) s

end Sys2Proof.Machine
end

