-- ==== Sys2Proof/Machine/Access.lean ====
section
/-! DEFINITION. Requests at the memories (R113, R114, R119, R128, R164 to R182, R286, R293): reads, writes, atomics, FILL,
COPY and window accesses, held accesses at operand buffers and waking banks, the end of an engine operation. -/
namespace Sys2Proof.Machine

/-! ### Atomics (R112, R114) -/

/-- The value an atomic leaves: `w` bits of old value, operand and compare value (CAS). FADD rounds to nearest even. -/
def atomicNew (k : AtomicKind) (w old x c : Nat) : Nat :=
  let so := toSigned w old
  let sx := toSigned w x
  match k with
  | .add => (old + x) % 2 ^ w
  | .and => Nat.land old x
  | .or => Nat.lor old x
  | .xor => Nat.xor old x
  | .min => ofSigned w (min so sx)
  | .max => ofSigned w (max so sx)
  | .minu => min old x
  | .maxu => max old x
  | .swap => x
  | .cas => if old = c then x else old
  | .fadd => if w = 32 then (fEncode fp32 0 (fAdd 0 (fpv old) (fpv x))).1 else old

/-- Is the atomic one the request word can carry: width 4 or 8, FADD 4, naturally aligned, all operands present? -/
def atomicOk (r : Req) : Bool :=
  (r.width == 4 || (r.width == 8 && r.kind != .fadd)) && r.addr % r.width == 0
    && r.data.length == (if r.kind = .cas then 2 * r.width else r.width)

/-! ### Performing a request at its memory -/

/-- Zero bytes, the data of a failed read (R28, R130). -/
def zeros (n : Nat) : List Byte := List.replicate n 0

/-- Perform a read: the data, or zeros with the failing status. -/
def performRead (op : ReqOp) (r : Req) : Act := fun s =>
  let st := readStatus s r.addr r.len
  seq [unitRead r.src r.addr r.len, respond r op st (if st = 0 then bytesAt s r.addr r.len else zeros r.len)] s

/-- Perform a write. -/
def performWrite (op : ReqOp) (r : Req) : Act := fun s =>
  seq [unitWrite r.src r.addr r.data, respond r op (writeStatus s r.addr r.data.length) []] s

/-- Perform an atomic whole (R114): the old value returns. -/
def performAtomic (op : ReqOp) (r : Req) : Act := fun s =>
  if !atomicOk r then respond r op stUNMAPPED (zeros r.width) s
  else
    let st := readStatus s r.addr r.width
    let old := bytesAt s r.addr r.width
    let w := 8 * r.width
    let new := atomicNew r.kind w (leNat old) (leNat (r.data.take r.width)) (leNat (r.data.drop r.width))
    if st ≠ 0 then seq [unitRead r.src r.addr r.width, respond r op st (if op = .atomicR then zeros r.width else [])] s
    else seq [unitWrite r.src r.addr (leBytes r.width new), respond r op 0 (if op = .atomicR then old else [])] s

/-- Bytes of a FILL or COPY, whose length is in 64-byte units (R173). -/
def unitsLen (r : Req) : Nat := 64 * r.len

/-- Do `[a, a + len)` lie in one scratchpad memory (R173): a bank, a core memory or an operand buffer? -/
def oneMemory (s : State) (a len : Nat) : Bool :=
  match locOf s a with
  | .bank _ _ | .coreMem _ _ | .opBuf _ _ _ => locOf s a == locOf s (a + (len - 1))
  | _ => false

/-- Is a FILL or COPY one that a bank performs (R173, R174)? -/
def fillOk (s : State) (r : Req) : Bool :=
  decide (1 ≤ r.len ∧ r.len ≤ 4096) && r.addr % 64 == 0 && oneMemory s r.addr (unitsLen r)

/-- Source address of a COPY. -/
def copySrc (r : Req) : Nat := leNat (r.data.take 8)

/-- The source of a COPY: aligned, in one 1 MiB block of scratchpad of the same compute die (R174). -/
def copyOk (s : State) (r : Req) : Bool :=
  let a := copySrc r
  fillOk s r && a % 64 == 0 && decide (a / 0x100000 = (a + (unitsLen r - 1)) / 0x100000)
    && (match locOf s a with | .bank _ _ | .coreMem _ _ | .opBuf _ _ _ => true | _ => false)
    && windowDie a == windowDie r.addr

/-- Perform a FILL (R173, R176). -/
def performFill (r : Req) : Act := fun s =>
  if !fillOk s r then seq [recordRefusal r.src r.addr, respond r .fill stUNMAPPED []] s
  else performWrite .fill { r with data := (List.replicate (unitsLen r / 8) (r.data.take 8)).flatten } s

/-- Source words of a COPY that read uncorrectable. -/
def copyBad (s : State) (r : Req) : List (Nat × Nat) :=
  (eccIn s (phys s (copySrc r)) (unitsLen r)).filter (fun e => decide (2 ≤ e.2))

/-- Status of a COPY (R174, R176, R179). -/
def copyStatus (s : State) (r : Req) : Nat :=
  if !copyOk s r then stUNMAPPED
  else if locDark s (copySrc r) || locDark s r.addr then stBANK_OFF
  else if (copyBad s r).isEmpty then stOK else stDATA_UNCORR

/-- The effect of a COPY (R174, R176): the whole source is read before the destination is written; an uncorrectable
source word reads uncorrectable at the destination too. -/
def copyBody (r : Req) : Act := fun s =>
  let a := copySrc r
  let n := unitsLen r
  if !copyOk s r then recordRefusal r.src a s
  else if locDark s a then refuseDark r.src a s
  else if locDark s r.addr then refuseDark r.src r.addr s
  else seq [unitRead r.src a n, unitWrite r.src r.addr (bytesAt s a n),
      forEach (copyBad s r) (fun e => upd (.ecc (phys s r.addr / 32 + (e.1 - phys s a / 32)) 2))] s

/-- Perform a COPY. -/
def performCopy (r : Req) : Act := fun s => seq [copyBody r, respond r .copy (copyStatus s r) []] s

/-- Place a watch for core `g` on a word (R121, R180); its core's waiting thread polls where the entries are full. -/
def performWatch (r : Req) : Act := fun s =>
  match r.src with
  | .core g =>
    if !mapped s r.addr 8 then seq [recordRefusal r.src r.addr, respond r .watch stUNMAPPED []] s
    else if locDark s r.addr then seq [refuseDark r.src r.addr, respond r .watch stBANK_OFF []] s
    else
      let t := (List.range 64).find? (fun t => match (thr s g t).wait with | some x => x.addr == r.addr | none => false)
      let room := match locOf s r.addr with
        | .bank d b => (get_watches s (d * 64 + b)).any (fun w => w.addr == r.addr) || decide ((get_watches s (d * 64 + b)).length < 64)
        | _ => true
      seq [match t with
        | some t => placeWatch g t r.addr
        | none => if room then placeWatch g 0 r.addr else incReg (CORE_POLL_CNT g),
        respond r .watch stOK []] s
  | _ => seq [recordRefusal r.src r.addr, respond r .watch stUNMAPPED []] s

/-- Did a request arrive through a peer port? -/
def fromPeer : Master → Bool
  | .peer _ _ => true
  | _ => false

/-- Perform a window access (R293): dropped where the window does not admit it. -/
def performWin (op : ReqOp) (r : Req) : Act := fun s =>
  let isW := op == .writeWin
  let n := if isW then r.data.length else r.len
  let st := if r.win < 64 then winCheck s r.win r.addr n isW (fromPeer r.src) else stUNMAPPED
  if st ≠ 0 then seq [whenA (decide (r.win < 64)) (winDrop r.src r.win st), respond r op st (if isW then [] else zeros n)] s
  else if isW then performWrite op r s else performRead op r s

/-- Perform a request at the memory that it names. -/
def performMem (op : ReqOp) (r : Req) : Act :=
  match op with
  | .read => performRead op r
  | .write => performWrite op r
  | .atomicR | .atomicN => performAtomic op r
  | .fill => performFill r
  | .copy => performCopy r
  | .readWin | .writeWin => performWin op r
  | .watch => performWatch r

/-! ### Requests that wait at their memory -/

/-- Bytes that a request touches at its destination. -/
def reqLen (op : ReqOp) (r : Req) : Nat :=
  match op with
  | .write | .writeWin => r.data.length
  | .atomicR | .atomicN => r.width
  | .fill | .copy => unitsLen r
  | .watch => 8
  | _ => r.len

/-- Does a request write? -/
def reqWrites : ReqOp → Bool
  | .read | .readWin | .watch => false
  | _ => true

/-- R128: is the request held by an operation of an engine? -/
def heldByEngine (s : State) (op : ReqOp) (r : Req) : Bool :=
  protectedRange s (phys s r.addr) (reqLen op r) (reqWrites op)
    || (op == .copy && protectedRange s (phys s (copySrc r)) (unitsLen r) false)

/-- R100: does an earlier request of the same source to the same order block wait in a list? -/
def behind (xs : List (ReqOp × Req)) (r : Req) : Bool :=
  xs.any (fun h => h.2.src == r.src && h.2.addr / 0x100000 == r.addr / 0x100000)

/-- Key of a memory that wakes in `bankHeld`: a bank d × 64 + b, a cluster's memories 512 + d × 4 + c. -/
def wakeKey (s : State) (a : Nat) : Option Nat :=
  match locOf s a with
  | .bank d b => if getF s (BNK_PWR_STATE d b) = bkWAKING then some (d * 64 + b) else none
  | .coreMem d c => if getF s (BNK_CLU_STATE d (c / 8)) = 3 then some (512 + d * 4 + c / 8) else none
  | .opBuf d c _ => if getF s (BNK_CLU_STATE d (c / 8)) = 3 then some (512 + d * 4 + c / 8) else none
  | _ => none

/-- The waking memory that holds a request (R177); a COPY also waits for its source. -/
def wakeFor (s : State) (op : ReqOp) (r : Req) : Option Nat :=
  match wakeKey s r.addr with
  | some k => some k
  | none => if op = .copy then wakeKey s (copySrc r) else none

/-- BNK_INFL.COUNT follows the requests that a waking bank holds. -/
def showHeld (k : Nat) : Act := fun s =>
  if k < 512 then setF (BNK_INFL_COUNT (k / 64) (k % 64)) (get_bankHeld s k).length s else []

/-- A request reaches a scratchpad memory: held by a waking memory (R177) or an engine (R128), else performed. -/
def memArrive (op : ReqOp) (r : Req) : Act := fun s =>
  match wakeFor s op r with
  | some k => seq [upd (.bankHeld k (get_bankHeld s k ++ [(op, r)])), showHeld k] s
  | none => if heldByEngine s op r || behind s.held r then [.held (s.held ++ [(op, r)])] else performMem op r s

/-- HELD_ACCESS_RELEASE (R128): accesses that no operation holds any more are performed in arrival order. -/
def heldRelease : Act := fun s =>
  forEach s.held (fun h => fun s =>
    if heldByEngine s h.1 h.2 || behind (s.held.takeWhile (fun x => x != h)) h.2 then []
    else seq [upd (.held (s.held.erase h)), performMem h.1 h.2] s) s

/-- Re-examine every live thread of a core. -/
def settleCore (g : Nat) : Act := fun s => forEach (liveThreads s g) (fun t => settleThread g t) s

/-- ENGINE_OP_FINISH (R123, R128): the operation at the head ends; ENG_DONE counts it, held accesses are released, and
WAITE and FENCE E re-examined. -/
def execEngineOpFinish (g e : Nat) (s : State) : Host.Outcome State Fault Refusal :=
  done (fun s =>
    if (eng s g e).queue = [] ∨ !(eng s g e).done then [] else
    seq [setEng g e (fun en => { en with queue := en.queue.drop 1, done := false, row := 0 }),
      wr (ENG_DONE g e) ((rd s (ENG_DONE g e) + 1) % 2 ^ 32),
      fun s => setF (ENG_QDEPTH_DEPTH g e) (eng s g e).queue.length s,
      heldRelease, settleCore g] s) s

/-- The requests that a memory held while it woke are performed in arrival order (R177). -/
def wakeRelease (k : Nat) : Act := fun s =>
  seq [upd (.bankHeld k []), showHeld k, forEach (get_bankHeld s k) (fun h => memArrive h.1 h.2)] s

/-- BANK_WAKE_DONE (R181): the bank is ON and performs what it held; its state follows a change asked for meanwhile. -/
def execBankWakeDone (d b : Nat) (s : State) : Host.Outcome State Fault Refusal :=
  done (fun s =>
    if d < 8 ∧ b < 64 ∧ getF s (BNK_PWR_STATE d b) = bkWAKING then
      seq [bankAwake d b, wakeRelease (d * 64 + b), bankSettle d b] s
    else []) s

/-- CLUSTER_WAKE_DONE (R133, R185): the cluster is on, and its memories are ON before its first fetch. -/
def execClusterWakeDone (d c : Nat) (s : State) : Host.Outcome State Fault Refusal :=
  done (fun s =>
    if d < 8 ∧ c < 4 ∧ getF s (PRT_CLU_PWR d c) = 1 then
      seq [setF (PRT_CLU_PWR d c) 2, setF (BNK_CLU_STATE d c) 2, clkShow d c, wakeRelease (512 + d * 4 + c)] s
    else []) s

end Sys2Proof.Machine
end

