-- ==== Sys2Proof/Machine/Anchor.lean ====
section
/-! DEFINITION. The anchor dies (spec/17 R431 to R463, R584): ticks, the released set, the forwarder, supervision, the
spotter and its comparison, belay, status, lockstep, the cross link. -/
namespace Sys2Proof.Machine

def anc (s : State) (x : Nat) : Anc := get_ancs s x
def setAnc (x : Nat) (f : Anc → Anc) : Act := fun s => [.ancs x (f (anc s x))]
/-- STATE of an anchor die: 0 boot, 1 NORMAL, 2 BELAY, 3 BOOT_FAIL. -/
def ancState (s : State) (x : Nat) : Nat := getF s (ANC_STAT_STATE x)
/-- Does the die supervise? -/
def ancRuns (s : State) (x : Nat) : Bool := ancState s x == 1 || ancState s x == 2
def inBelay (s : State) (x : Nat) : Bool := ancState s x == 2

/-- CRC-32 (IEEE 802.3) of bytes (R449, R453). -/
def crc32 (bs : List Byte) : Nat :=
  Nat.xor (bs.foldl (fun c b => (List.range 8).foldl (fun c _ =>
    if bit c 0 then Nat.xor (c / 2) 0xEDB88320 else c / 2) (Nat.xor c b.toNat)) 0xFFFFFFFF) 0xFFFFFFFF

/-- Send a frame to the other anchor die (R434). -/
def xsend (x : Nat) (m : XMsg) : Act := fun s => [.xlink (s.xlink ++ [(1 - x, m)])]

/-! ### Belay entry and exit (R451, R455) -/

def drivePart (s : State) (x : Nat) : Nat := getF s (SUP_CFG_DRIVE_PART x)
/-- Has a partition started (R76)? -/
def partStarted (s : State) (p : Nat) : Bool := (get_parts s p).started

/-- Enter belay at `tb` with a cause, with the plan and MISMATCH given (R451). -/
def belayStart (x cause tb : Nat) (plan : Option Traj) (mismatch : Bool) : Act :=
  let p := match plan with | some t => t.pitch | none => 0
  seq [setF (ANC_STAT_STATE x) 2,
    setF (ANC_BLY_STAT_SRC_PITCH x) p, setF (ANC_BLY_STAT_ACTIVE x) 1, setF (ANC_BLY_STAT_CAUSE x) cause,
    setF (ANC_BLY_STAT_MISMATCH x) (if mismatch then 1 else 0), incReg (ANC_BLY_CNT x), wr64 (ANC_BLY_T0 x) tb,
    ancLog x 0x30 (9 + x) 0 (leBytes 1 cause ++ leBytes 1 (if mismatch then 1 else 0) ++ leBytes 2 p ++ leBytes 4 0 ++ leBytes 8 tb),
    setAnc x (fun a => { a with plan := plan, resumeRun := 0 })]

/-- BELAY_ENTER (R451): a cause of the die's own; in belay already it is only logged. Causes 2 and 4 do not arise while
DRIVE_PART has not started. -/
def belayEnter (x cause : Nat) : Act := fun s =>
  if (cause = 2 ∨ cause = 4) ∧ partStarted s (drivePart s x) = false then []
  else seq [setAnc x (fun a => { a with causes := cause :: a.causes }),
    if inBelay s x then ancLogB x 0x33 [cause]
    else
      let h := (anc s x).held
      seq [belayStart x cause (ancTime s x) h false,
        xsend x (.belay (ancTime s x) (match h with | some t => t.pitch | none => 0) h.isSome)]] s

/-- BELAY_EXIT (R455). CAUSE and MISMATCH describe the belay in force and fall to 0 (DEDUCED, notes/assumptions). -/
def belayExit (x : Nat) : Act := seq [
  setF (ANC_STAT_STATE x) 1, setF (ANC_BLY_STAT_ACTIVE x) 0, setF (ANC_BLY_STAT_CAUSE x) 0, setF (ANC_BLY_STAT_MISMATCH x) 0,
  ancLogB x 0x31 [], xsend x .belayExit,
  setAnc x (fun a => { a with plan := none, resumeRun := 0 })]

/-! ### Ticks and the released set (R44, R258, R435, R442) -/

/-- A tick fault: log with the interval measured, enter belay with cause 3, suspend the checks (R442). -/
def tickFault (x : Nat) (interval : List Byte) : Act := seq [
  ancLog x 0x04 (9 + x) 0 interval, setF (ANC_STAT_TICK_FAULT x) 1,
  setAnc x (fun a => { a with suspended := true, faulted := true }), belayEnter x 3]

/-- While the ticks have stopped the die's own timer runs on at P from the last good tick (R44, R435): the pitches that have
begun since. -/
def ownTimer (x : Nat) : Act := fun s =>
  let a := anc s x
  let k := (ancTime s x - a.tn) / max 1 (period s)
  if a.faulted && decide (0 < k) then setAnc x (fun a => { a with n := (a.n + k) % 2 ^ 32, tn := a.tn + k * period s }) s else []

/-- A new pitch of the die: what it holds for the pitch starts anew. -/
def ancNewPitch (x : Nat) : Act := fun s =>
  setAnc x (fun a => { a with
    n := (a.n + 1) % 2 ^ 32, tn := a.tn + period s, tickAt := ancTime s x, relWait := true, reports := [], overran := [],
    traj := none, causes := [], spotStarted := false, spotObjs := none, spotFailed := false, spotExcl := false,
    fused := none, verdict := none }) s

/-- ANCHOR_SIDEBAND_TICK (R44): judged against P ± 50 µs if the interval is open. -/
def execAnchorSidebandTick (x now : Nat) (s : State) : Host.Outcome State Fault Refusal :=
  done (seq [advance now, fun s =>
    if !ancRuns s x then [] else
    let a := anc s x
    let iv := ancTime s x - a.tickAt
    let bad := a.judge && decide (50000 < ((iv : Int) - period s).natAbs)
    seq [ancNewPitch x, whenA bad (tickFault x (leBytes 8 iv)),
      setAnc x (fun a => { a with judge := true, faulted := false })] s]) s

/-- TICK_FAULT (R44, R442): no tick within P + 50 µs of the last; the die advances T_n by P itself. -/
def execTickFault (x now : Nat) (s : State) : Host.Outcome State Fault Refusal :=
  done (seq [advance now, fun s =>
    let a := anc s x
    if ancRuns s x ∧ a.judge ∧ a.faulted = false ∧ a.tickAt + period s + 50000 ≤ ancTime s x then
      seq [tickFault x (leBytes 8 (2 ^ 64 - 1)), setAnc x (fun a => { a with judge := false }), ownTimer x] s
    else []]) s

/-- RELEASED_SET_TIMEOUT (R258): 10 µs after the tick every started partition counts as released. -/
def execReleasedSetTimeout (x now : Nat) (s : State) : Host.Outcome State Fault Refusal :=
  done (seq [advance now, fun s =>
    let a := anc s x
    if ancRuns s x ∧ a.relWait ∧ a.relIn = none ∧ a.tickAt + 10000 ≤ ancTime s x then
      setAnc x (fun a => { a with
        released := (List.range 16).foldl (fun m p => if partStarted s p then m + 2 ^ p else m) 0, relWait := false }) s
    else []]) s

/-! ### Reports and the forwarder (R433, R440) -/

def taskOwner (s : State) (x t : Nat) : Nat := getF s (SUP_TASK_CFG_OWNER x t)
def taskDeadline (s : State) (x t : Nat) : Nat := getF s (SUP_TASK_DL_DEADLINE_US x t)

/-- A report of a task counts once per pitch; one after the deadline's check is logged LATE_REPORT (R440, R441). -/
def ancReport (x t : Nat) : Act := fun s =>
  let a := anc s x
  let us := (ancTime s x - a.tn) / 1000
  if a.reports.any (fun r => r.1 == t) then []
  else seq [setAnc x (fun a => { a with reports := (t, us) :: a.reports }),
    wr (SUP_TASK_LAST x t) (us % 2 ^ 17 + (if taskDeadline s x t < us then 2 ^ 17 else 0)),
    whenA (a.overran.contains t) (ancLog x 0x02 (9 + x) 0 (leBytes 4 t ++ leBytes 4 us))] s

/-- A trajectory record that passes the checks of R449 and R450. -/
def parseTraj (bs : List Byte) : Option Traj :=
  let num (o n : Nat) : Nat := leNat ((bs.drop o).take n)
  let np := num 2 1
  let pt (i : Nat) : TrajPt :=
    let o := 0x40 + 16 * i
    ⟨num o 2, num (o + 2) 2, toSigned 32 (num (o + 4) 4), toSigned 32 (num (o + 8) 4), toSigned 16 (num (o + 0xC) 2)⟩
  let pts := (List.range np).map pt
  let rising := ((pts.map (·.tOff)).zip ((pts.map (·.tOff)).drop 1)).all (fun p => decide (p.1 < p.2))
  if 2 ≤ np ∧ np ≤ 64 ∧ num 0x10 4 = crc32 ((bs.drop 0x40).take (16 * np)) ∧ (pts.map (·.tOff)).head? = some 0 ∧ rising then
    some ⟨num 0 2, num 8 8, pts⟩
  else none

/-- What one die does with a message of the forwarder (R433). -/
def ancTake (x : Nat) (m : FwdMsg) : Act := fun s =>
  if !ancRuns s x then [] else
  match m with
  | .report t owner =>
    if taskOwner s x t = owner ∧ t < 64 then ancReport x t s else ancLogB x 0x03 [t, owner] s
  | .traj p bs =>
    let a := anc s x
    let dt := getF s (SUP_CFG_DRIVE_TASK x)
    if p = a.n % 2 ^ 16 ∧ ancTime s x < a.tn + taskDeadline s x dt * 1000 then
      match parseTraj bs with
      | some t => if t.pitch = a.n % 2 ^ 16 then setAnc x (fun a => { a with traj := some t }) s else []
      | none => []
    else []
  | .spot c bs =>
    forEach ((List.range 24).filter (fun i =>
      bits (rd s (SUP_BUF x i)) 15 8 != 0 && bits (rd s (SUP_BUF x i)) 23 16 == c)) (fun i => fun s =>
        let e := rd s (SUP_BUF x i)
        sramStore x (bits e 7 0 * 4096) (bs.take (bits e 15 8 * 4096)) s) s
  | .fused p bs =>
    if p % 2 ^ 32 = (anc s x).n then setAnc x (fun a => { a with fused := some (p, bs) }) s else []
  | .event _ data node unit => ancLog x 0x40 node unit data s

/-- Is a report refused (R440)? -/
def reportRefused (s : State) (m : FwdMsg) : Bool :=
  match m with
  | .report t owner => [0, 1].any (fun x => ancRuns s x && taskOwner s x t != owner)
  | _ => false

/-- TRACE_RECORD (R577): the forwarder writes a record for what it delivers to anchor A: CODE 0x40, 0x50 for a task
report. The trace stops when its bytes are full, its pitches have passed, or a write fails. -/
def traceRecord (m : FwdMsg) : Act := fun s =>
  let t := s.trace
  if !t.running then [] else
  let (code, data, node, unit) := match m with
    | .report t owner => (0x50, [BitVec.ofNat 8 t, BitVec.ofNat 8 owner], 8, 0)
    | .event _ d n u => (0x40, d, n, u)
    | .traj _ d => (0x40, 8 :: d, 8, 0)
    | .spot _ d => (0x40, 8 :: d, 8, 0)
    | .fused _ d => (0x40, 8 :: d, 8, 0)
  let st := writeStatus s (t.addr + t.pos) 32
  let full := decide (t.len < t.pos + 64) || decide (t.lastPitch < pitchNum s)
  if t.lastPitch < pitchNum s then seq [upd (.trace { t with running := false }), setF (CRN_STAT_TRACE 0) 2] s
  else if st ≠ 0 then seq [upd (.trace { t with running := false, status := st }), setF (CRN_STAT_TRACE 0) 3] s
  else seq [unitWrite .cairn (t.addr + t.pos) (leBytes 8 (ancTime s 0) ++ leBytes 4 (anc s 0).n ++ leBytes 2 code ++ leBytes 1 node ++
      leBytes 1 unit ++ pad16 data),
    upd (.trace { t with pos := t.pos + 32, running := !full }), whenA full (setF (CRN_STAT_TRACE 0) 2)] s

/-- RELEASED_SET_RECEIVED (R258, R435): the set on its way to the die arrives, with n and T_n. -/
def execReleasedSetReceived (x : Nat) (s : State) : Host.Outcome State Fault Refusal :=
  done (fun s =>
    let a := anc s x
    match a.relIn with
    | none => []
    | some (n, tn, mask) =>
      seq [whenA (x == 0) (traceRecord (.event 8 ([8] ++ leBytes 2 mask ++ leBytes 4 n) 8 0)),
      if !ancRuns s x then setAnc x (fun a => { a with relIn := none })
      else seq [
        setAnc x (fun a => { a with
          off := 0
          tickAt := ((a.tickAt : Int) - a.off).toNat
          heardAt := ((a.heardAt : Int) - a.off).toNat
          validSince := ((a.validSince : Int) - a.off).toNat
          n := n % 2 ^ 32
          tn := tn
          released := mask
          relIn := none
          relWait := false
          suspended := false }),
        forEach ((List.range 16).filter (fun p => partStarted s p && !bit mask p)) (fun p => ancLogB x 0x05 [p]),
        whenA (!bit mask (drivePart s x)) (belayEnter x 4)]] s) s

/-- FORWARDER_DELIVER (R433): the oldest message goes to both anchor dies. -/
def execForwarderDeliver (s : State) : Host.Outcome State Fault Refusal :=
  done (fun s =>
    match s.fwd with
    | [] => []
    | m :: rest => seq [upd (.fwd rest), incReg AMB_FWD_CNT, whenA (reportRefused s m) (incReg AMB_REJ_CNT),
        ancTake 0 m, ancTake 1 m, traceRecord m] s) s

/-- TASK_REPORT (R440, R461): a store to AMB_MBX; only compute cores may make it. -/
def mbxWrite (src : Master) (t : Nat) : Act := fun s =>
  match src with
  | .core g => sendFwd (.report (t % 64) (coreOwner s g)) s
  | _ => recordRefusal src AMB_MBX s

/-- TASK_REPORT. -/
def execTaskReport (src : Master) (t : Nat) (s : State) : Host.Outcome State Fault Refusal := done (mbxWrite src t) s

/-- May a master write the trajectory area and AMB_TRAJ_DONE (R461)? -/
def trajWriteOk (s : State) : Master → Bool
  | .core g => coreOwner s g == drivePart s 0
  | _ => false

/-- The AMB_TRAJ area: 0x440 bytes. -/
def trajBytes (s : State) : List Byte := (List.range 0x440).map (fun i => tabGet memDefault s.trajArea i)

/-- A write of AMB_TRAJ_DONE: the record is complete (R449). -/
def trajDone (src : Master) (p : Nat) : Act := fun s =>
  if trajWriteOk s src then sendFwd (.traj (p % 2 ^ 16) (trajBytes s)) s else recordRefusal src AMB_TRAJ_DONE s

/-- TRAJECTORY_DONE. -/
def execTrajectoryDone (src : Master) (p : Nat) (s : State) : Host.Outcome State Fault Refusal := done (trajDone src p) s

/-! ### The spotter and its verdict (R443 to R450, R455) -/

/-- Does a buffer table entry hold a status for the pitch? none: no; some: the status. -/
def bufStatus (s : State) (x i : Nat) : Option Nat :=
  let o := bits (rd s (SUP_BUF x i)) 7 0 * 4096
  if sramNum s x o 2 = (anc s x).n % 2 ^ 16 ∧ sramNum s x (o + 2) 1 = bits (rd s (SUP_BUF x i)) 23 16 then
    some (sramNum s x (o + 3) 1) else none

/-- Entries of the buffer table in use. -/
def bufs (s : State) (x : Nat) : List Nat := (List.range 24).filter (fun i => bits (rd s (SUP_BUF x i)) 15 8 != 0)

/-- Was DRIVE_PART's record of the pitch valid (R450)? -/
def recordValid (s : State) (x v : Nat) : Option Traj :=
  let a := anc s x
  if a.overran.any (fun t => taskOwner s x t == drivePart s x) || v == 2 then none else a.traj

/-- The task number of the die's own spotter. -/
def spotTask (s : State) (x : Nat) : Option Nat := (List.range 64).find? (fun t => taskOwner s x t == 0x13 + x)

/-- The end of the spotter task (R445 to R450, R455): the verdict is recorded and sent, the disagreement and no-verdict
runs move, the record is held or missed, belay may end. -/
def giveVerdict (x v missed ghosts : Nat) : Act := fun s =>
  let a := anc s x
  let dr := getF s (ANC_STAT_DIS_RUN x)
  let dr' := if v = 1 then 0 else if v = 2 then min 2 (dr + 1) else dr
  let lasting := decide (v = 2) && decide (dr = 1)
  let nr := if v = 0 then a.noneRun + 1 else 0
  let lost := if v = 0 then flag s (ANC_STAT_SPOTTER_LOST x) || decide (getF s (SUP_SPT_CFG_NOVERDICT_MAX x) ≤ nr) else false
  let newLost := lost && !flag s (ANC_STAT_SPOTTER_LOST x)
  let rec_ := recordValid s x v
  let nrec := if rec_.isSome then 0 else a.noRecRun + 1
  seq [
    wr (ANC_VERDICT x) (a.n % 2 ^ 16 + v * 2 ^ 16 + min 63 missed * 2 ^ 18 + min 255 ghosts * 2 ^ 24),
    setAnc x (fun a => { a with verdict := some v, noneRun := nr, noRecRun := nrec, held := match rec_ with | some t => some t | none => a.held }),
    whenA (v == 2) (seq [incReg (ANC_DIS_CNT x), ancLogB x 0x20 [min 255 missed, min 255 ghosts]]),
    setF (ANC_STAT_DIS_RUN x) dr', setF (ANC_STAT_SPOTTER_LOST x) (if lost then 1 else 0),
    whenA newLost (ancLogB x 0x22 []),
    (match spotTask s x with | some t => ancReport x t | none => nop),
    xsend x (.verdict a.n v),
    whenA lasting (seq [incReg (ANC_LAST_CNT x), belayEnter x 1, decideRestart (drivePart s x) 2 none]),
    whenA (newLost && (a.otherLost || flag s (ANC_STAT_ALONE x))) (belayEnter x 5),
    whenA (decide (2 ≤ nrec)) (belayEnter x 2),
    fun s => if !inBelay s x then [] else
      let b := anc s x
      let good := bit b.released (drivePart s x) && rec_.isSome && v == 1 && !b.suspended && b.causes.all (fun c => c == 6)
      if !good then setAnc x (fun a => { a with resumeRun := 0 }) s
      else if getF s (SUP_CFG_RESUME_N x) ≤ b.resumeRun + 1 then belayExit x s
      else setAnc x (fun a => { a with resumeRun := b.resumeRun + 1 }) s] s

/-- SPOTTER_START (R443, R444): one inference per pitch. `residue` lists the layers whose residue mismatched; a layer
listed twice ends the inference without a verdict. -/
def execSpotterStart (x now : Nat) (residue : List Nat) (s : State) : Host.Outcome State Fault Refusal :=
  done (seq [advance now, ownTimer x, fun s =>
    let a := anc s x
    let bs := bufs s x
    if !ancRuns s x || a.spotStarted || a.verdict != none ||
        (bs.any (fun i => bufStatus s x i == none) && decide (ancTime s x < a.tn + getF s (SUP_SPT_START_START_US x) * 1000)) then []
    else
      let bad := (bs.filter (fun i => bufStatus s x i != some 0)).length
      let inputs := (bs.map (fun i => (List.range (bits (rd s (SUP_BUF x i)) 15 8 * 4096)).map (fun j =>
        sramAt s x (bits (rd s (SUP_BUF x i)) 7 0 * 4096 + j)))).flatten
      let prog := (List.range 0x80000).map (fun j => sramAt s x (0x100000 + j))
      let objs := ((Config.spotter inputs prog).take 64).map (fun o => (⟨o.1 % 8, o.2.1 % 256, o.2.2.1, o.2.2.2⟩ : SpotObj))
      match residue.find? (fun l => decide (2 ≤ residue.count l)) with
      | some l => seq [setAnc x (fun a => { a with spotStarted := true, spotFailed := true, layerBad := some l }),
          ancLogB x 0x21 [l], giveVerdict x 0 0 0] s
      | none => setAnc x (fun a => { a with
          spotStarted := true, spotObjs := some objs, spotExcl := decide (getF s (SUP_SPT_CFG_EXCL_MAX x) < bad) }) s]) s

/-- A main record of the fused list as the comparison reads it: class, confirmed, x and y in cm (FP32 metres × 100,
rounded). -/
structure MainRec where
  cls : Nat
  confirmed : Bool
  x : Int
  y : Int

/-- FP32 metres to the nearest centimetre. -/
def toCm (w : Nat) : Int :=
  let v := fpMul w 0x42C80000
  (if bit v 31 then -1 else 1) * (fpNearest (v % 2 ^ 31) : Nat)

/-- Records of a fused object list (R404). -/
def mainRecs (bs : List Byte) : List MainRec :=
  let num (o n : Nat) : Nat := leNat ((bs.drop o).take n)
  (List.range (num 2 2)).map (fun i =>
    let o := 64 + 64 * i
    ⟨num (o + 4) 1, num (o + 5) 1 == 1, toCm (num (o + 8) 4), toCm (num (o + 0xC) 4)⟩)

/-- |m − s| ≤ τ(r) with r² = `rr`: (d)² ≤ (TOL_POS + TOL_REL × r / 1000)², r rounded down to a centimetre. -/
def within (s : State) (x : Nat) (rr dd : Nat) : Bool :=
  let tau := getF s (SUP_SPT_TOL_TOL_POS_CM x) + getF s (SUP_SPT_TOL_TOL_REL_PM x) * Nat.sqrt rr / 1000
  decide (dd ≤ tau * tau)

/-- missed and ghosts of R445. -/
def spotCompare (s : State) (x : Nat) (objs : List SpotObj) (ms : List MainRec) : Nat × Nat :=
  let sq (a b : Int) : Nat := (a * a + b * b).toNat
  let rm := getF s (SUP_SPT_RANGE_R_MAX_CM x)
  let cls (c m : Nat) : Bool := decide (m < 32) && bit (rd s (SUP_SPT_CLS x c)) m
  let strong := objs.filter (fun o => decide (getF s (SUP_SPT_CFG_MIN_SCORE x) ≤ o.score))
  let missed := (strong.filter (fun o => decide (sq o.x o.y ≤ rm * rm) && !ms.any (fun m =>
    cls o.cls m.cls && within s x (sq o.x o.y) (sq (m.x - o.x) (m.y - o.y))))).length
  let ghosts := (ms.filter (fun m => m.confirmed && decide (sq m.x m.y ≤ rm * rm) &&
    (List.range 8).any (fun c => cls c m.cls) && !strong.any (fun o =>
      cls o.cls m.cls && within s x (sq m.x m.y) (sq (m.x - o.x) (m.y - o.y))))).length
  (missed, ghosts)

/-- SPOTTER_COMPARE (R445): once both the inference and the fused list of the pitch are present. -/
def execSpotterCompare (x now : Nat) (s : State) : Host.Outcome State Fault Refusal :=
  done (seq [advance now, ownTimer x, fun s =>
    let a := anc s x
    if !ancRuns s x || a.verdict != none then [] else
    match a.spotObjs with
    | none => []
    | some objs =>
      if a.spotExcl then giveVerdict x 0 0 0 s
      else match a.fused with
        | none => []
        | some f =>
          let r := spotCompare s x objs (mainRecs f.2)
          let gm := getF s (SUP_SPT_CFG_GHOST_MAX x)
          giveVerdict x (if getF s (SUP_SPT_CFG_MISS_MAX x) < r.1 ∨ (gm < 255 ∧ gm < r.2) then 2 else 1) r.1 r.2 s]) s

/-! ### Deadlines (R441) -/

/-- Does anchor `x` check task `t` in this pitch? -/
def taskChecked (s : State) (x t : Nat) : Bool :=
  let o := taskOwner s x t
  let a := anc s x
  flag s (SUP_TASK_CFG_ACTIVE x t) && !a.suspended &&
    (if o < 16 then bit a.released o else if o ≤ 0x12 then true else o == 0x13 + x)

/-- The overrun message to the management core: a job fault of the owner, or an event of the unit. Both dies send it for a
task of the pitch; it counts once. -/
def overrunMsg (x t owner n : Nat) : Act := fun s =>
  let o := anc s (1 - x)
  if owner < 16 then (if o.n = n ∧ o.overran.contains t then [] else overrunFault owner s)
  else if owner ≤ 0x12 then unitEvent (owner - 0x10) n s
  else []

/-- DEADLINE_CHECK (R441, R445): at DEADLINE_US of task `t`. For want of the fused list the spotter gives NONE then. -/
def execDeadlineCheck (x t now : Nat) (s : State) : Host.Outcome State Fault Refusal :=
  done (seq [advance now, ownTimer x, fun s =>
    let a := anc s x
    if !ancRuns s x || decide (64 ≤ t) || decide (ancTime s x < a.tn + taskDeadline s x t * 1000) || !taskChecked s x t then []
    else seq [
      fun s => if taskOwner s x t = 0x13 + x ∧ a.verdict = none ∧ a.fused = none then giveVerdict x 0 0 0 s else [],
      fun s =>
        let b := anc s x
        if b.reports.any (fun r => r.1 == t) || b.overran.contains t then []
        else seq [ancLogB x 0x01 [t, taskOwner s x t], incReg (ANC_OVR_CNT x),
          wr (ANC_OVR_LAST x) (t + b.n % 2 ^ 16 * 2 ^ 16),
          setAnc x (fun a => { a with overran := t :: a.overran }), overrunMsg x t (taskOwner s x t) b.n] s] s]) s

/-! ### Belay and status frames (R452 to R454) -/

/-- |V_CMS of h(t)| in 1/1000 cm/s at `ms` milliseconds from T_F, interpolated; the last point's beyond the end. -/
def hSpeed : List TrajPt → Int → Int
  | [], _ => 0
  | [p], _ => 1000 * (p.v.natAbs : Int)
  | p :: q :: ps, ms =>
    if ms < (q.tOff : Int) then
      ((1000 * (p.v * ((q.tOff : Int) - ms) + q.v * (ms - p.tOff)) / ((q.tOff : Int) - p.tOff)).natAbs : Int)
    else hSpeed (q :: ps) ms

/-- Speed of the plan in 1/1000 cm/s, `k` steps of 1 ms after t_b (R452). -/
def planSpeed (s : State) (x : Nat) (t : Traj) (tb : Nat) : Nat → Int
  | 0 => hSpeed t.pts (((tb : Int) - t.tf) / 1000000)
  | k + 1 =>
    let a : Int := if k + 1 < getF s (SUP_BLY_TIME_BELAY_MAX_MS x) then getF s (SUP_BLY_CFG_A_BELAY_CMS2 x)
      else getF s (SUP_BLY_CFG_A_STOP_CMS2 x)
    min (hSpeed t.pts (((tb : Int) - t.tf) / 1000000 + (k + 1 : Nat))) (max 0 (planSpeed s x t tb k - a))

/-- A plan point in the layout of R449, `k` ms after t_b. -/
def planPoint (s : State) (x tb k : Nat) : List Byte :=
  match (anc s x).plan with
  | none => List.replicate 16 0
  | some t =>
    let args : List Int := (tb : Int) :: (k : Int) :: (t.tf : Int) ::
      (t.pts.map (fun p => [(p.tOff : Int), (p.yaw : Int), p.x, p.y, p.v])).flatten
    let back := decide ((t.pts.getLast?.map (·.v)).getD 0 < 0)
    let v := Config.belayVal 0 args (planSpeed s x t tb k / 1000)
    leBytes 2 (((tb + k * 1000000 - t.tf) / 1000000) % 2 ^ 16) ++ leBytes 2 (ofSigned 16 (Config.belayVal 3 args 0)) ++
      leBytes 4 (ofSigned 32 (Config.belayVal 1 args 0)) ++ leBytes 4 (ofSigned 32 (Config.belayVal 2 args 0)) ++
      leBytes 2 (ofSigned 16 (if back then -v else v)) ++ leBytes 2 0

/-- BELAY_FRAME (R453): SEQ, STATE, PITCH, T_F, the next three plan points and a CRC-32. -/
def execBelayFrame (x now : Nat) (s : State) : Host.Outcome State Fault Refusal :=
  done (seq [advance now, ownTimer x, fun s =>
    if !inBelay s x then [] else
    let a := anc s x
    let tb := rd64 s (ANC_BLY_T0 x)
    let per := max 1 (getF s (SUP_BLY_CFG_PERIOD_MS x))
    let k0 := ((ancTime s x - tb) / 1000000) / per + 1
    let body := leBytes 1 a.frameSeq ++ leBytes 1 2 ++ leBytes 2 (match a.plan with | some t => t.pitch | none => 0) ++
      leBytes 8 (match a.plan with | some t => t.tf | none => tb) ++
      planPoint s x tb (k0 * per) ++ planPoint s x tb ((k0 + 1) * per) ++ planPoint s x tb ((k0 + 2) * per)
    seq [emit (.anchorCan x (rd s (SUP_BLY_ID x)) (body ++ leBytes 4 (crc32 body))),
      setAnc x (fun a => { a with frameSeq := (a.frameSeq + 1) % 256 })] s]) s

/-- STATUS_FRAME (R454): in every state but boot. -/
def execStatusFrame (x now : Nat) (s : State) : Host.Outcome State Fault Refusal :=
  done (seq [advance now, ownTimer x, fun s =>
    if ancState s x = 0 then [] else
    let a := anc s x
    let body := leBytes 1 a.statSeq ++ leBytes 1 (ancState s x) ++ leBytes 1 (getF s (ANC_VERDICT_VERDICT x)) ++
      leBytes 1 (getF s (ANC_STAT_ALONE x) + 2 * getF s (ANC_STAT_TICK_FAULT x) + 4 * getF s (ANC_STAT_SPOTTER_LOST x) +
        8 * getF s (ANC_BLY_STAT_MISMATCH x)) ++
      leBytes 4 a.n ++ leBytes 1 (getF s (ANC_STAT_DIS_RUN x)) ++ leBytes 1 (getF s (ANC_BLY_STAT_CAUSE x)) ++ leBytes 2 0
    seq [emit (.anchorCan x (rd s (SUP_STAT_ID x)) (body ++ leBytes 4 (crc32 body))),
      setAnc x (fun a => { a with statSeq := (a.statSeq + 1) % 256 })] s]) s

/-! ### The cross link (R434) -/

/-- HEARTBEAT_SEND. -/
def execHeartbeatSend (x : Nat) (s : State) : Host.Outcome State Fault Refusal :=
  done (fun s => if ancState s x = 0 then [] else xsend x (.heartbeat (flag s (ANC_STAT_SPOTTER_LOST x))) s) s

/-- CROSS_LINK_FRAME (R434, R451): the oldest frame for die `x` arrives; one with a bad CRC-8 is not valid. -/
def execCrossLinkFrame (x now : Nat) (good : Bool) (s : State) : Host.Outcome State Fault Refusal :=
  done (seq [advance now, fun s =>
    match s.xlink.find? (fun e => e.1 == x) with
    | none => []
    | some e =>
      seq [upd (.xlink (s.xlink.erase e)), fun s =>
        if !good || ancState s x == 0 then [] else
        seq [
          setAnc x (fun a => { a with
            validSince := if a.heardAt + 5000000 < ancTime s x then ancTime s x else a.validSince
            heardAt := ancTime s x }),
          fun s => if flag s (ANC_STAT_ALONE x) ∧ (anc s x).validSince + 100000000 ≤ ancTime s x then
            seq [setF (ANC_STAT_ALONE x) 0, ancLogB x 0x32 [0]] s else [],
          fun s => match e.2 with
            | .heartbeat lost =>
              seq [setAnc x (fun a => { a with otherLost := lost }),
                whenA (lost && !(anc s x).otherLost && ancRuns s x && flag s (ANC_STAT_SPOTTER_LOST x) && !flag s (ANC_STAT_ALONE x))
                  (belayEnter x 5)] s
            | .verdict _ v => ancLogB x 0x23 [v] s
            | .slot k => setAnc x (fun a => { a with slot := k, knowsSlot := true }) s
            | .belayExit => []
            | .belay tb p h =>
              if !ancRuns s x then [] else
              let own := (anc s x).held
              if inBelay s x then seq [setAnc x (fun a => { a with causes := 6 :: a.causes }), ancLogB x 0x33 [6]] s
              else belayStart x 6 tb own (match own with | some t => !h || t.pitch != p | none => h) s] s] s]) s

/-- CROSS_LINK_LOSS (R434, R448): no valid frame for 5 ms. -/
def execCrossLinkLoss (x now : Nat) (s : State) : Host.Outcome State Fault Refusal :=
  done (seq [advance now, fun s =>
    if ancState s x = 0 ∨ flag s (ANC_STAT_ALONE x) ∨ ancTime s x < (anc s x).heardAt + 5000000 then []
    else seq [setF (ANC_STAT_ALONE x) 1, ancLogB x 0x32 [1],
      whenA (ancRuns s x && flag s (ANC_STAT_SPOTTER_LOST x) && !(anc s x).otherLost) (belayEnter x 5)] s]) s

/-! ### Lockstep, scrub, self-reset (R431, R436 to R439, R457) -/

/-- What a reset of anchor A ends (R502, R505, R574): a debug level that a token gave, with its EVENT entry; the monitor's
command, trace and challenge; a quote or slot write in progress. The records of past pitches stay (R576). -/
def ancAReset : Act := fun s =>
  seq [whenA s.mon.expiry.isSome (forEach [0, 1] (fun y => fun s =>
      if y = 1 ∧ ancState s 1 = 0 then [] else
      ancLog y 0x40 9 0 ([6, 3, 0, 0, 0, 0, 0, 0].map (BitVec.ofNat 8) ++ leBytes 8 s.mon.serial) s)),
    upd (.mon { pstat := s.mon.pstat }), upd (.trace { s.trace with running := false }),
    upd (.load { s.load with slotJob := none }),
    whenA s.boot.quote.isSome (seq [setF SEC_Q_STAT_STATE 3, setF SEC_Q_STAT_CODE 1]),
    upd (.boot { s.boot with quote := none })] s

/-- A reset of anchor die `x`: registers but RWS fields and ANC_LOG_HEAD, and everything the die held but its slot. Between
the two release stages its hold lines keep the I/O die in reset (R496); after stage 2 they do not (R456). -/
def ancReset (x : Nat) : Act := seq [
  whenA (x == 0) ancAReset,
  resetRegs (0x220000000000 + x * 0x10000000) (0x220000010000 + x * 0x10000000) (fun a => a == ANC_LOG_HEAD x),
  setAnc x (fun a => { slot := a.slot, knowsSlot := a.knowsSlot }),
  fun s => [.ids x { get_ids s x with verified := false, tried := [] }],
  fun s => if s.boot.iod = 1 then [.boot { s.boot with iod := 0 }] else [],
  fun s => [.xlink (s.xlink.filter (fun e => e.1 != x))]]

/-- R457: log the cause, count, reset; the die keeps the slot in use. -/
def ancSelfReset (x cause : Nat) : Act := seq [ancLogB x 0x12 [cause], incReg (ANC_LSK_RESET_CNT x), ancReset x]

/-- LOCKSTEP_CHECKPOINT (R437, R438): the store buffer leaves; a roll-back that got here was transient. -/
def execLockstepCheckpoint (x : Nat) (s : State) : Host.Outcome State Fault Refusal :=
  done (fun s =>
    let a := anc s x
    seq [forEach a.stores (fun w => sramStore x (w.1 % 0x200000) (leBytes 4 w.2)),
      setAnc x (fun a => { a with stores := [], rolled := false }),
      whenA a.rolled (seq [incReg (ANC_LSK_ROLL_CNT x), ancLogB x 0x10 []])] s) s

/-- LOCKSTEP_MISMATCH (R436, R438): `one` names the comparator where only one saw the difference. -/
def execLockstepMismatch (x : Nat) (one : Option Nat) (s : State) : Host.Outcome State Fault Refusal :=
  done (fun s =>
    let a := anc s x
    seq [(match one with
        | some c => seq [incReg (ANC_LSK_CMP_CNT x), ancLogB x 0x11 [c % 2]]
        | none => nop),
      if a.rolled then ancSelfReset x 1
      else setAnc x (fun a => { a with stores := [], rolled := true })] s) s

/-- ANCHOR_WATCHDOG (R457): the 10 ms firmware watchdog expires. -/
def execAnchorWatchdog (x : Nat) (s : State) : Host.Outcome State Fault Refusal :=
  done (fun s => if ancState s x = 0 then [] else ancSelfReset x 3 s) s

/-- ANCHOR_SRAM_SCRUB (R431, R457): one pass; `bad` lists offsets of uncorrectable words. One in the firmware region
resets the die; corrected words are written back as they were. -/
def execAnchorSramScrub (x : Nat) (bad : List Nat) (s : State) : Host.Outcome State Fault Refusal :=
  done (fun s => if ancState s x ≠ 0 ∧ bad.any (fun o => decide (0x180000 ≤ o ∧ o < 0x1E8000)) then ancSelfReset x 2 s else []) s

end Sys2Proof.Machine
end

