-- ==== Sys2Proof/Machine/Park.lean ====
section
/-! DEFINITION. Stopping and saving cores: pre-emption (R132), lend windows (R250 to R253), switches (R254, R255), bivouac
(R261 to R264). -/
namespace Sys2Proof.Machine

/-! ### Stopping a core -/

/-- Bits set among the lowest `n` of a mask. -/
def popcount (n w : Nat) : Nat := ((List.range n).filter (fun i => bit w i)).length

/-- An engine drops its queue and its written granules read as zero (R54, R132). -/
def clearEngine (g e : Nat) : Act := fun s =>
  let en := eng s g e
  seq [upd (.engines (g * 8 + e) {}),
    whenA (!en.queue.isEmpty) (setF (ENG_QDEPTH_DEPTH g e) 0),
    forEach ((List.range 32).filter (fun i => bit en.granules i)) (fun i => loseContents (bufOf g e + i * 4096) 4096)] s

/-- The threads and engines of a core are discarded; its transactions end without a destination. -/
def coreStop (g : Nat) : Act := fun s =>
  seq [forEach (liveThreads s g) (fun t => upd (.threads (tkey g t) {})),
    forEach (List.range 8) (clearEngine g),
    whenA (s.txns.any (fun x => x.src == .core g))
      (upd (.txns (s.txns.map (fun x => if x.src == .core g then { x with thread := 255, dest := .none } else x)))),
    setF (CORE_STAT_THREADS g) 0,
    heldRelease] s

/-- A core's job is discarded without a save (R54, R465). -/
def coreDiscard (g : Nat) : Act := seq [
  coreStop g,
  setCore g (fun c => { c with hasJob := false, faulted := false, parked := false, saved := none, sw := 0 }),
  setF (CORE_STAT_PREEMPTED g) 0]

/-- Entry address of thread `t` from a core entry's table (R64). -/
def entryPc (s : State) (e : CoreProg) (t : Nat) : Nat := coreMemBase e.core + numAt s (coreMemBase e.core + e.entry + 4 * t) 4

/-- Start the threads that partition `p`'s bundles list for core `g` (R107). -/
def startThreads (p g : Nat) : Act := fun s =>
  let es := s.progs.filter (fun e => e.part == p && e.core == g)
  seq [forEach es (fun e => forEach ((List.range 64).filter (fun t => bit e.mask t)) (fun t =>
      upd (.threads (tkey g t) (freshThread (pitchNum s) (entryPc s e t) 0)))),
    fun s => setF (CORE_STAT_THREADS g) ((List.range 64).filter (fun t => (thr s g t).running)).length s] s

/-! ### Saving and restoring (R132, R254, R255) -/

/-- Has the core state of a job that has not arrived? -/
def coreLive (s : State) (g : Nat) : Bool := (get_cores s g).hasJob && !flag s (CORE_STAT_ARRIVED g)

/-- Bytes of live thread state (R109). -/
def threadBytes (s : State) (g : Nat) : Nat :=
  ((liveThreads s g).map (fun t => if (thr s g t).running then 512 + 64 * popcount 56 (thr s g t).vwritten else 0)).foldl (· + ·) 0

/-- Live engine granules (R132). -/
def granuleCount (s : State) (g : Nat) : Nat :=
  ((List.range 8).map (fun e => popcount 32 (eng s g e).granules)).foldl (· + ·) 0

/-- Live bytes of a core (R254). -/
def liveBytes (s : State) (g : Nat) : Nat := threadBytes s g + 4096 * granuleCount s g

/-- Save slot of a core and its size (R255). -/
def slotAddr (s : State) (g : Nat) : Nat :=
  bankBase (g / 32) (getF s (PRT_SAVE_BANK (g / 32) (g % 32 / 8))) + g % 8 * slotSize s g
where slotSize (s : State) (g : Nat) : Nat := getF s (PRT_SAVE_SLOT_4K (g / 32) (g % 32 / 8)) * 4096

/-- The live granules of a core: engine and granule, in ascending offset. -/
def granules (s : State) (g : Nat) : List (Nat × Nat) :=
  ((List.range 256).map (fun i => (i / 32, i % 32))).filter (fun c => bit (eng s g c.1).granules c.2)

/-- Free bytes written from an address: the encoding of saved threads and headers is not published. -/
def storeFree (m : Master) (a n : Nat) : Act :=
  withFree (fun k => unitWrite m a ((List.range n).map (fun i => BitVec.ofNat 8 (Config.fresh (k + i)))))

/-- Time of a switch in ns, with its scaling below 2.2 GHz of fabric clock (R254). -/
def switchNs (s : State) (bytes : Nat) : Nat :=
  let t := 400 * 96 + bytes
  let f := getF s CLK_STAT_FAB_PT
  if f ≤ 1 then (t + 95) / 96
  else if f = 2 then (t * 22 + 96 * 18 - 1) / (96 * 18)
  else if f = 3 then (t * 22 + 96 * 13 - 1) / (96 * 13)
  else (t * 220 + 96 * 65 - 1) / (96 * 65)

/-- PRT_SWITCH_MAX of a partition follows a switch. -/
def noteSwitch (p bytes : Nat) : Act := fun s =>
  if 16 ≤ p then [] else setF (PRT_SWITCH_MAX_NS p) (max (getF s (PRT_SWITCH_MAX_NS p)) (min (switchNs s bytes) 0xFFFF)) s

/-- Clear a core of a program whose state has been saved: every granule reads as zero (R252). -/
def vacate (g : Nat) : Act := seq [coreStop g, loseContents (bufOf g 0) 0x100000]

/-- The core's live state goes to its save slot (R255): header and threads in an encoding of the device's own, then the
granules. State that exceeds the slot is lost: SAVE_OVF, and the job is not resumed (R255, R464). -/
def saveCore (g : Nat) : Act := fun s =>
  let p := coreOwner s g
  let a := slotAddr s g
  let tb := threadBytes s g
  let gs := granules s g
  if slotAddr.slotSize s g < 4096 + liveBytes s g then
    seq [setF (PRT_STAT_SAVE_OVF p) 1, raiseJobFault p 5 [], setCore g (fun c => { c with saved := none, hasJob := false })] s
  else seq [
    storeFree (.core g) a (4096 + tb),
    forEach (gs.zipIdx) (fun e => unitWrite (.core g) (a + 4096 + tb + e.2 * 4096) (bytesAt s (bufOf g e.1.1 + e.1.2 * 4096) 4096)),
    setCore g (fun c => { c with saved := some ⟨(liveThreads s g).map (fun t => (t, thr s g t)),
      (List.range 8).map (fun e => (e, eng s g e)), a + 4096 + tb, c.faulted⟩ }),
    incReg (PRT_PREEMPT_CNT p)] s

/-- The saved state returns to the core (R132): granules to their offsets, all others zero. -/
def restoreCore (g : Nat) (v : SavedCore) : Act := fun s =>
  let gs := ((List.range 256).map (fun i => (i / 32, i % 32))).filter (fun c =>
    v.engines.any (fun e => e.1 == c.1 && bit e.2.granules c.2))
  seq [loseContents (bufOf g 0) 0x100000,
    forEach (gs.zipIdx) (fun e => unitWrite (.core g) (bufOf g e.1.1 + e.1.2 * 4096) (bytesAt s (v.granAddr + e.2 * 4096) 4096)),
    forEach v.engines (fun e => seq [upd (.engines (g * 8 + e.1) e.2), setF (ENG_QDEPTH_DEPTH g e.1) e.2.queue.length]),
    forEach v.threads (fun t => upd (.threads (tkey g t.1) t.2)),
    setF (CORE_STAT_THREADS g) (v.threads.filter (fun t => t.2.running)).length,
    setCore g (fun c => { c with saved := none, faulted := v.faulted, hasJob := true })] s

/-- PREEMPT (R132): a core stops issue; its engines stop at a row boundary; `sw` says where the switch leads. -/
def preempt (g sw : Nat) : Act := fun s =>
  seq [setCore g (fun c => { c with parked := true, sw := sw }),
    whenA (coreLive s g) (seq [setF (CORE_STAT_PREEMPTED g) 1, forEach (List.range 8) (stopEngine g)])] s

/-! ### Lend windows (R250 to R254) -/

/-- Global numbers of the cores of a cluster. -/
def cluCores (d c : Nat) : List Nat := (List.range 8).map (fun i => d * 32 + c * 8 + i)

/-- Device time of an offset in µs from the tick of the present pitch. -/
def atUs (s : State) (us : Nat) : Nat := tickTime s + us * 1000

/-- Does the borrower of a cluster take its window now (R253)? It is ACTIVE and its job runs; the lender is neither loading
nor restarting. -/
def windowTaken (s : State) (d c : Nat) : Bool :=
  let b := getF s (PRT_LEND_BORROWER d c)
  let l := partState s (getF s (PRT_CLU_PART d c))
  decide (b < 16) && partState s b == 2 && (get_parts s b).hadJob && !(get_parts s b).cancelled
    && getF s (PRT_CLU_PWR d c) == 2 && l != 1 && l != 3 && l != 0

/-- LEND_WINDOW_START (R252): the lender's cores are pre-empted for the borrower. -/
def execLendWindowStart (d c now : Nat) (s : State) : Host.Outcome State Fault Refusal :=
  done (seq [advance now, fun s =>
    if d < 8 ∧ c < 4 ∧ getF s (PRT_LEND_LSTATE d c) = 0 ∧ windowTaken s d c ∧ getF s (PRT_WSTART_US d c) ≠ 0
      ∧ atUs s (getF s (PRT_WSTART_US d c)) ≤ now ∧ now < atUs s (getF s (PRT_WEND_US d c))
      ∧ (cluCores d c).all (fun g => (get_cores s g).bor == 0 && (get_cores s g).sw == 0) then
      seq [setF (PRT_LEND_LSTATE d c) 1, forEach (cluCores d c) (fun g => preempt g 1), clkShow d c] s
    else []]) s

/-- The cores of a cluster have all switched: LSTATE follows (R266). -/
def lendSettle (d c : Nat) : Act := fun s =>
  if (cluCores d c).all (fun g => (get_cores s g).sw == 0) then
    seq [setF (PRT_LEND_LSTATE d c) (if (cluCores d c).any (fun g => (get_cores s g).bor == 1 || (get_cores s g).bor == 2)
        && (cluCores d c).all (fun g => (get_cores s g).part != coreOwner s g) then 2 else 0), clkShow d c] s
  else []

/-- The switch to the borrower (R252): the lender's live state is saved, the granule masks clear, the borrower starts. -/
def switchTo (g : Nat) : Act := fun s =>
  let b := getF s (PRT_LEND_BORROWER (g / 32) (g % 32 / 8))
  let n := if coreLive s g then liveBytes s g else 0
  seq [whenA (coreLive s g) (saveCore g), noteSwitch (coreOwner s g) n, vacate g,
    setCore g (fun c => { c with part := b, jobPitch := pitchNum s, hasJob := true, faulted := false, parked := false, sw := 0, bor := 1 }),
    startThreads b g] s

/-- The switch back to the lender (R253): its saved state is restored if its job still runs. -/
def switchBack (g : Nat) : Act := fun s =>
  let p := coreOwner s g
  let a := get_parts s p
  let runs := partState s p == 2 && a.hadJob && !a.cancelled
  let n := match (get_cores s g).saved with
    | some v => 4096 * ((v.engines.map (fun e => popcount 32 e.2.granules)).foldl (· + ·) 0)
        + ((v.threads.map (fun t => if t.2.running then 512 + 64 * popcount 56 t.2.vwritten else 0)).foldl (· + ·) 0)
    | none => 0
  seq [vacate g,
    setCore g (fun c => { c with
      part := p
      hasJob := runs && (c.saved.isSome || flag s (CORE_STAT_ARRIVED g))
      faulted := false
      parked := false
      sw := 0
      bor := if c.bor = 2 then 2 else 3 }),
    match (get_cores s g).saved with
    | some v => whenA runs (seq [restoreCore g v, setF (CORE_STAT_PREEMPTED g) 0, noteSwitch p n])
    | none => noteSwitch p 0] s

/-- The switch of a parking core (R262): its live state is saved, or discarded without a save area. -/
def switchPark (g : Nat) : Act := fun s =>
  let en := flag s (PRT_SAVE_EN (g / 32) (g % 32 / 8))
  let live := coreLive s g
  seq [whenA (live && en) (saveCore g),
    whenA (live && en) (noteSwitch (coreOwner s g) (liveBytes s g)),
    vacate g, setCore g (fun c => { c with hasJob := false, parked := true, sw := 0 })] s

/-- SWITCH_COMPLETE (R254): the transactions of the outgoing program have ended, its state is saved and the incoming
program starts. -/
def execSwitchComplete (g : Nat) (s : State) : Host.Outcome State Fault Refusal :=
  done (fun s =>
    if 256 ≤ g ∨ slotsUsed s g ≠ 0 then [] else
    match (get_cores s g).sw with
    | 1 => seq [switchTo g, lendSettle (g / 32) (g % 32 / 8)] s
    | 2 => seq [switchBack g, lendSettle (g / 32) (g % 32 / 8)] s
    | 3 => switchPark g s
    | _ => []) s

/-- A window closes (R253): a borrower core that has not arrived is stopped without a save, a core that had not switched
yet stays with the lender, and every other core switches back. -/
def windowClose (d c : Nat) : Act := seq [
  setF (PRT_LEND_LSTATE d c) 1,
  forEach (cluCores d c) (fun g => fun s =>
    let co := get_cores s g
    if co.sw = 1 then
      seq [setCore g (fun c => { c with sw := 0, parked := false, bor := 3 }), setF (CORE_STAT_PREEMPTED g) 0] s
    else if co.bor = 1 then
      seq [coreStop g, setCore g (fun c => { c with sw := 2, parked := true, bor := 3, hasJob := false })] s
    else if co.bor = 2 then setCore g (fun c => { c with sw := 2, parked := true }) s
    else []),
  lendSettle d c]

/-- Is a window of the cluster open? -/
def windowOpen (s : State) (d c : Nat) : Bool :=
  getF s (PRT_LEND_LSTATE d c) != 0 && (cluCores d c).any (fun g => (get_cores s g).sw == 1 || (get_cores s g).part != coreOwner s g)

/-- LEND_WINDOW_CLOSE_EARLY (R253): every borrower core of the cluster has arrived. -/
def execLendWindowCloseEarly (d c : Nat) (s : State) : Host.Outcome State Fault Refusal :=
  done (fun s =>
    if d < 8 ∧ c < 4 ∧ getF s (PRT_LEND_LSTATE d c) = 2
      ∧ (cluCores d c).all (fun g => (get_cores s g).bor == 2 && (get_cores s g).sw == 0) then windowClose d c s
    else []) s

/-- LEND_WINDOW_END (R253): WIN_END_US is reached. -/
def execLendWindowEnd (d c now : Nat) (s : State) : Host.Outcome State Fault Refusal :=
  done (seq [advance now, fun s =>
    if d < 8 ∧ c < 4 ∧ windowOpen s d c ∧ atUs s (getF s (PRT_WEND_US d c)) ≤ now
      ∧ !(cluCores d c).all (fun g => (get_cores s g).sw == 2) then windowClose d c s
    else []]) s

/-- Clusters lent to a partition whose window is open. -/
def lentTo (s : State) (p : Nat) : List (Nat × Nat) :=
  ((List.range 32).map (fun i => (i / 4, i % 4))).filter (fun c =>
    getF s (PRT_LEND_BORROWER c.1 c.2) == p && windowOpen s c.1 c.2)

/-- The borrower leaves the clusters lent to it (R253, R264, R474). -/
def leaveLent (p : Nat) : Act := fun s => forEach (lentTo s p) (fun c => windowClose c.1 c.2) s

/-! ### Bivouac (R261 to R264) -/

/-- A partition's work outside its cores is dropped: box stage, cache managers, DMA channels (R214, R237, R291). -/
def partDrop (p : Nat) : Act := seq [boxDiscardPart p, kvDiscardPart p, dmaPartEnd p]

/-- PARKING begins (R262): cores are pre-empted into their save slots, except those that serve a borrower. -/
def parkStart (p : Nat) : Act := fun s =>
  seq [setF (PRT_BIV_REQ p) 1, setF (PRT_STAT_STATE p) 4, setPart p (fun a => { a with wakeAfter := false }),
    leaveLent p,
    fun s => forEach (coresOf s p) (fun g =>
      if getF s (PRT_LEND_LSTATE (g / 32) (g % 32 / 8)) ≠ 0 then nop else preempt g 3) s,
    partDrop p, banksSettle p] s

/-- REQ is set for a partition, by its state (R262, R264). -/
def parkRequest (p : Nat) : Act := fun s =>
  match partState s p with
  | 1 => seq [setF (PRT_BIV_REQ p) 1, setPart p (fun a => { a with parkHeld := true })] s
  | 2 => parkStart p s
  | 3 => seq [setPart p (fun a => { a with restartHeld := true, rstStep := 0 }), parkStart p] s
  | 4 => seq [setF (PRT_BIV_REQ p) 1, setPart p (fun a => { a with wakeAfter := false })] s
  | 5 => setF (PRT_BIV_REQ p) 1 s
  | 6 => parkStart p s
  | _ => []

/-- BIVOUAC_REQUEST (R262). -/
def execBivouacRequest (src : Master) (p : Nat) (s : State) : Host.Outcome State Fault Refusal :=
  done (guarded (swWriteOk src && decide (p < 16)) src (PRT_BIV p) (parkRequest p)) s

/-- WAKING begins (R263): clusters step to the highest enabled point, banks wake, caches follow R238. -/
def wakeStart (p : Nat) : Act := fun s =>
  seq [setF (PRT_STAT_STATE p) 6, setPart p (fun a => { a with wokenAt := s.time, wakeAfter := false }),
    setPoints p (hiPoint s p), banksSettle p, kvWake p] s

/-- REQ is cleared (R263, R264): WAKING from BIVOUAC, unless a restart is held, which begins at the next tick. -/
def parkClear (p : Nat) : Act := fun s =>
  if !flag s (PRT_BIV_REQ p) then [] else
  seq [setF (PRT_BIV_REQ p) 0,
    match partState s p with
    | 1 => setPart p (fun a => { a with parkHeld := false })
    | 4 => setPart p (fun a => { a with wakeAfter := true, wokenAt := s.time })
    | 5 => whenA (!(get_parts s p).restartHeld) (wakeStart p)
    | _ => nop] s

/-- BIVOUAC_CLEAR (R263): ignored while HOLD is set by firmware policy. -/
def execBivouacClear (src : Master) (p : Nat) (s : State) : Host.Outcome State Fault Refusal :=
  done (guarded (swWriteOk src && decide (p < 16)) src (PRT_BIV p)
    (fun s => if flag s (PRT_BIV_HOLD p) then [] else parkClear p s)) s

/-- A write of PRT_BIV by software. -/
def bivWrite (p : Nat) (req : Bool) : Act := fun s =>
  if req then parkRequest p s else if flag s (PRT_BIV_HOLD p) then [] else parkClear p s

/-- Is every core of a parking partition stopped and every bank dark, but for banks that OVR holds (R262, R186)? -/
def parked (s : State) (p : Nat) : Bool :=
  (coresOf s p).all (fun g => (get_cores s g).sw != 3) &&
    (banksOf s p).all (fun b => flag s (BNK_PWR_OVR b.1 b.2) || decide (getF s (BNK_PWR_STATE b.1 b.2) ≤ 1))

/-- BIVOUAC is entered in pitch `n`: PRT_BIV_LAST records the pitch and the clocks stop (R261, R262). -/
def bivEnter (p n : Nat) : Act :=
  seq [setF (PRT_STAT_STATE p) 5, setF (PRT_BIV_LAST_PITCH p) (n % 2 ^ 16), clkShowPart p]

/-- PARKING_COMPLETE (R262, R264). -/
def execParkingComplete (p : Nat) (s : State) : Host.Outcome State Fault Refusal :=
  done (fun s =>
    if p < 16 ∧ partState s p = 4 ∧ parked s p then
      seq [bivEnter p (pitchNum s),
        whenA ((get_parts s p).wakeAfter && !(get_parts s p).restartHeld) (wakeStart p)] s
    else []) s

end Sys2Proof.Machine
end

