-- ==== Sys2Proof/Machine/Cooling.lean ====
section
/-! DEFINITION. Cooling (R532 to R542): samples, the measured resistance and the cap, the capping policy, the floor and the
temperature trip. Power in 0.1 W; temperatures in 1/16 °C. -/
namespace Sys2Proof.Machine

/-- Change the policy's state. -/
def setThm (f : Thm → Thm) : Act := fun s => [.thm (f s.thm)]

/-- P_LIM in W (R534): 420 on the A26, 330 on the A22. -/
def pLim (s : State) : Nat := if s.fitted.a22 then 330 else getF s THM_LIM_P_LIM_W

/-- The cap in 0.1 W (R534): the least of P_LIM, CAP_USER and (TJ_TGT − T_in) / R, and 0 where that is negative. -/
def capOf (s : State) (r20 : Nat) (tin : Int) : Nat :=
  let k := ((8 * (getF s THM_TGT_TJ_TGT : Int) - 5 * tin) * 1250 * 2 ^ 20 / (max r20 1 : Nat)).toNat
  min (min (10 * pLim s) (10 * getF s THM_LIM_CAP_USER_W)) k

/-- R after a sample (R533), in 0.1 mK/W × 2^20: it holds while P is below 100 W. -/
def rNext (r20 p10 : Nat) (dt : Int) : Nat :=
  if p10 < 1000 then r20 else ((r20 : Int) + (dt * 6250 * 2 ^ 20 / (p10 : Int) - r20) / 1024).toNat

/-- The residual T_hot − T_in − R × P (R533), in 1/16 K × 2^16. -/
def residual (r20 p10 : Nat) (dt : Int) : Int := dt * 65536 - (r20 * p10 / 100000 : Nat)

/-- Flow in mL/min from the interval of the last two pulses (R532). -/
def flowOf (s : State) (now : Nat) : Nat :=
  match s.thm.pulses with
  | a :: b :: _ =>
    if now - a < getF s THM_FLOW_CFG_FLOW_TMO_MS * 1000000 ∧ 0 < a - b ∧ 0 < getF s THM_FLOW_CFG_K_PPL then
      min 0xFFFF (60000 * 10 ^ 9 / (getF s THM_FLOW_CFG_K_PPL * (a - b)))
    else 0
  | _ => 0

/-- The warmest of a list of dies and its index. -/
def hottest (ts : List Int) : Int × Nat :=
  (ts.zipIdx).foldl (fun m e => if m.1 < e.1 then e else m) ((ts[0]?).getD 0, 0)

/-! ### The floor (R539, R540) -/

/-- FLOOR_EVENT (R539): every ACTIVE, WAKING or RESTART partition parks and is held, and CAP is held at 60 W. -/
def floorEvent : Act := fun s =>
  if flag s THM_STAT_FLOOR then [] else
  seq [setF THM_STAT_FLOOR 1, incReg THM_FLOOR_CNT, setF THM_P_CAP 600,
    setThm (fun t => { t with goodFrom := none, freeing := [] }),
    forEach ((List.range 16).filter (fun p => partState s p == 2 || partState s p == 6 || partState s p == 3)) (fun p =>
      seq [setF (PRT_BIV_HOLD p) 1, parkRequest p])] s

/-- Partitions that the floor holds, DRIVE_PART first, then by base level (R540). -/
def floorHeld (s : State) : List Nat :=
  let held := (List.range 16).filter (fun p => flag s (PRT_BIV_HOLD p) && !flag s (FLT_PART_STAT_HELD p))
  let d := held.filter (fun p => p == drivePart s 0)
  let rest := held.filter (fun p => p != drivePart s 0)
  d ++ ((List.range 4).map (fun l => rest.filter (fun p => getF s (PRT_CFG_LEVEL p) == l))).flatten

/-- FLOOR_END (R540): the conditions have held for 10 s. -/
def floorCheck (now flow cap : Nat) (res : Int) : Act := fun s =>
  if !flag s THM_STAT_FLOOR then [] else
  let good := (!flag s THM_CTL_FLOW_EN || decide (2000 ≤ flow)) && decide (res < 524288) && decide (1000 ≤ cap)
  match good, s.thm.goodFrom with
  | false, _ => setThm (fun t => { t with goodFrom := none }) s
  | true, none => setThm (fun t => { t with goodFrom := some now }) s
  | true, some t0 =>
    if t0 + 10 ^ 10 ≤ now then
      seq [setF THM_STAT_FLOOR 0, setThm (fun t => { t with goodFrom := none, freeing := floorHeld s })] s
    else []

/-- One partition of the floor is freed: HOLD is cleared, and then REQ (R540). -/
def floorFree : Act := fun s =>
  match s.thm.freeing with
  | [] => []
  | p :: ps => seq [setThm (fun t => { t with freeing := ps }), setF (PRT_BIV_HOLD p) 0, parkClear p] s

/-! ### Spreading heat (R537) -/

/-- Compute dies on which a partition owns clusters. -/
def ownDies (s : State) (p : Nat) : List Nat :=
  (List.range 8).filter (fun d => (List.range 4).any (fun c => getF s (PRT_CLU_PART d c) == p))

/-- By how much, times the number of the others, a die of a partition is warmer than the mean of its other dies. -/
def warmer (s : State) (ts : List Int) (p d : Nat) : Int × Nat :=
  let others := (ownDies s p).filter (fun e => e != d)
  (ts.getD d 0 * others.length - (others.map (fun e => ts.getD e 0)).foldl (· + ·) 0, others.length)

/-- Dies passed to the rebalancing policy: from 5 K above the mean of the others until below 2.5 K (R537). -/
def hotDies (s : State) (ts : List Int) : List Nat :=
  ((List.range 16).map (fun p => (ownDies s p).filterMap (fun d =>
    let w := warmer s ts p d
    if w.2 = 0 then none
    else if 80 * (w.2 : Int) ≤ w.1 ∨ (s.thm.hot.contains (d * 16 + p) ∧ 40 * (w.2 : Int) ≤ w.1) then some (d * 16 + p)
    else none))).flatten

/-! ### Samples -/

/-- THERMAL_SAMPLE (R532 to R534, R538, R539): package power in 0.1 W, inlet temperature, the hottest sensor of CD0 to CD7
and of the I/O die, and the power predicted for the state with the last capping step undone. -/
def execThermalSample (now p10 : Nat) (tin : Int) (ts : List Int) (pred : Nat) (s : State) : Host.Outcome State Fault Refusal :=
  done (seq [advance now, fun s =>
    let h := hottest ts
    let dt := h.1 - tin
    let r20 := rNext s.thm.r20 p10 dt
    let res := residual r20 p10 dt
    let cap := capOf s r20 tin
    let flow := if flag s THM_CTL_FLOW_EN then flowOf s now else getF s THM_FLOW_ML_MIN
    let rose := match s.thm.residues[99]? with | some r0 => decide (1048576 < 5 * (res - r0)) | none => false
    let slope := decide (1048576 < res) && rose
    let lowCap := decide (cap < 600)
    let room := decide (pred + 10 * getF s THM_TGT_HYST_W ≤ cap)
    seq [forEach (ts.zipIdx) (fun e => setF (THM_DIE_T_T e.2) (ofSigned 16 e.1)),
      setF THM_TIN_T (ofSigned 16 tin),
      setF THM_THOT_T (ofSigned 16 h.1), setF THM_THOT_DIE h.2,
      whenA (decide (toSigned 16 (getF s THM_TJ_PEAK_T) < h.1)) (setF THM_TJ_PEAK_T (ofSigned 16 h.1)),
      setF THM_P_P (min p10 0xFFFF),
      setF THM_R_R (min (r20 / 2 ^ 20) 0xFFFF),
      setF THM_RES_T (ofSigned 16 (res / 65536)),
      setF THM_FLOW_ML_MIN flow,
      setF THM_P_CAP (if flag s THM_STAT_FLOOR then 600 else cap),
      setThm (fun t => { t with
        r20 := r20
        residues := (res :: t.residues).take 100
        pSum := t.pSum + p10
        pCount := t.pCount + 1
        hot := if flag s THM_CTL_ROT_EN && flag s FLT_POL_REB_EN then hotDies s ts else []
        undoFrom := if room then (match t.undoFrom with | some u => some u | none => some now) else none }),
      whenA slope (setF THM_STAT_SLOPE 1),
      whenA (slope || lowCap) floorEvent,
      floorCheck now flow cap res] s]) s

/-- FLOW_PULSE (R532). -/
def execFlowPulse (now : Nat) (s : State) : Host.Outcome State Fault Refusal :=
  done (seq [advance now, setThm (fun t => { t with pulses := (now :: t.pulses).take 2 })]) s

/-- FLOW_TIMEOUT (R539): no pulse for FLOW_TMO_MS is a floor event. -/
def execFlowTimeout (now : Nat) (s : State) : Host.Outcome State Fault Refusal :=
  done (seq [advance now, fun s =>
    if flag s THM_CTL_FLOW_EN ∧ (s.thm.pulses.headD 0) + getF s THM_FLOW_CFG_FLOW_TMO_MS * 1000000 ≤ now then
      seq [setF THM_STAT_FLOW_LOST 1, floorEvent] s
    else []]) s

/-! ### The capping policy (R535) -/

/-- Partitions of a base level that the image defines. -/
def ofLevel (s : State) (l : Nat) : List Nat :=
  (List.range 16).filter (fun p => partDefined s p && getF s (PRT_CFG_LEVEL p) == l)

/-- Put every cluster of the partitions of a level at the point one below the highest, or back at the highest. -/
def levelPoints (l : Nat) (low : Bool) : Act := fun s =>
  forEach (ofLevel s l) (fun p => fun s =>
    if low then (match loPoint s p with | some k => setPoints p k s | none => []) else setPoints p (hiPoint s p) s) s

/-- The next partition that step 4 parks: level 3, then level 2, never DRIVE_PART. -/
def parkNext (s : State) : Option Nat :=
  (ofLevel s 3 ++ ofLevel s 2).find? (fun p => partState s p == 2 && p != drivePart s 0)

/-- One capping step. -/
def capStep : Act := fun s =>
  let k := getF s THM_STAT_STEP
  if k < 3 then seq [setF THM_STAT_STEP (k + 1), levelPoints (3 - k) true, incReg THM_CAPSTEP_CNT] s
  else match parkNext s with
    | some p => seq [parkRequest p, setThm (fun t => { t with parked := p :: t.parked }), incReg THM_CAPSTEP_CNT] s
    | none => setF THM_STAT_CAP_LIM 1 s

/-- The last capping step undone. -/
def capUndo : Act := fun s =>
  let k := getF s THM_STAT_STEP
  seq [setF THM_STAT_CAP_LIM 0, setThm (fun t => { t with undoFrom := none }),
    match s.thm.parked with
    | p :: ps => seq [setThm (fun t => { t with parked := ps }), parkClear p]
    | [] => if k = 0 then nop else seq [setF THM_STAT_STEP (k - 1), levelPoints (4 - k) false]] s

/-- CAP_POLICY (R535): one step per guard, while FW_EN is 1. -/
def capPolicy : Act := fun s =>
  let t := s.thm
  let ready := match t.undoFrom with | some u => decide (u + 10 ^ 9 ≤ s.time) | none => false
  seq [whenA (flag s THM_CTL_FW_EN && !flag s THM_STAT_FLOOR)
      (if decide (0 < t.pCount) && decide (t.pCount * getF s THM_P_CAP < t.pSum) then capStep
       else whenA (ready && (getF s THM_STAT_STEP != 0 || !t.parked.isEmpty)) capUndo),
    setThm (fun t => { t with pSum := 0, pCount := 0 })] s

/-! ### Limits (R536, R542) -/

/-- CAP_USER clamped from 60 W to P_LIM. -/
def capUserWrite (v : Nat) : Act := fun s => setF THM_LIM_CAP_USER_W (min (max v 60) (pLim s)) s
/-- TJ_TGT clamped from 60.0 °C to 85.0 °C. -/
def tjWrite (v : Nat) : Act := setF THM_TGT_TJ_TGT (min (max v 600) 850)
/-- HYST_W: 0 is taken as 1. -/
def hystWrite (v : Nat) : Act := setF THM_TGT_HYST_W (max v 1)

/-- THERMAL_LIMIT_WRITE (R536): `which` 0 CAP_USER, 1 TJ_TGT, 2 HYST_W. -/
def execThermalLimitWrite (src : Master) (which v : Nat) (s : State) : Host.Outcome State Fault Refusal :=
  done (guarded (swWriteOk src) src (if which = 0 then THM_LIM else THM_TGT)
    (if which = 0 then capUserWrite (v % 2 ^ 10) else if which = 1 then tjWrite (v % 2 ^ 12) else hystWrite (v % 2 ^ 8))) s

/-! ### The trip (R541) -/

/-- A sensor of compute die `d` reached 115 °C: its clusters stop and keep their state. -/
def dieTrip (d : Nat) : Act := fun s =>
  seq [incReg THM_TRIP_CNT, setF THM_STAT_TRIP 1,
    fun s => if s.thmTrip.contains d then [] else [.thmTrip (s.thmTrip ++ [d])], clkShowDie d] s

/-- All sensors of die `d` lie below 105 °C: its clusters restart at their PT_REQ. -/
def dieTripClear (d : Nat) : Act := seq [fun s => [.thmTrip (s.thmTrip.filter (fun e => e != d))], clkShowDie d]

end Sys2Proof.Machine
end

