-- ==== Sys2Proof/Machine/Bounds.lean ====
section
/-! DEFINITION. Efficiency against physical bounds (R543 to R550): the capture at the end of a window. -/
namespace Sys2Proof.Machine

/-- A factor (R544): floor(256 × numerator / denominator), saturating; 0 where the denominator is 0. -/
def bndFactor (num den : Nat) : Nat := if den = 0 then 0 else min 0xFFFF (256 * num / den)

/-- Read energies of the dies in service (R548). -/
def sramEnergies (s : State) : List Nat :=
  ((List.range 8).filter (fun d => !dieRemoved s d)).map (fun d => getF s (BND_SRAM_D_FJ d))

/-- A 64-bit accumulator saturates (R550). -/
def sat64 (v : Nat) : Nat := min v (2 ^ 64 - 1)

/-- Length of the window that begins now: WIN_P, 0 taken as 1 (R544, R550). -/
def nextWinP (s : State) : Nat := max 1 (getF s BND_CTL_WIN_P)

/-- The first window begins at the first tick. -/
def bndTick : Act := fun s => if s.bnd.start = none then [.bnd ⟨some (pitchNum s), nextWinP s⟩] else []

/-- BOUND_WINDOW_END (R544 to R549): at the tick that ends a window every accumulator is captured, every factor written,
and the next window begins. -/
def execBoundWindowEnd (a : BndAcc) (s : State) : Host.Outcome State Fault Refusal :=
  done (fun s =>
    match s.bnd.start with
    | none => []
    | some st =>
      if pitchNum s < st + s.bnd.winP then [] else
      let es := sramEnergies s
      let sum := es.foldl (· + ·) 0
      let v (b i : Nat) := if b = 0 then 0 else 2 ^ i
      seq [wr64 BND_ROPE_BND (sat64 a.ropeBnd), wr64 BND_ROPE_MEAS (sat64 a.ropeMeas),
        wr64 BND_DDR_PIN (sat64 a.ddrPin), wr64 BND_DDR_RD (sat64 a.ddrRd),
        wr64 BND_ENG_SLOT (sat64 a.engSlot), wr64 BND_ENG_MAC (sat64 a.engMac),
        wr64 BND_PKG_E (sat64 a.pkgE), wr64 BND_ARITH_E (sat64 a.arithE),
        setF BND_F_ROPE_F (bndFactor (sat64 a.ropeMeas) (sat64 a.ropeBnd)),
        setF BND_F_DDR_F (bndFactor (sat64 a.ddrPin) (sat64 a.ddrRd)),
        setF BND_F_ENG_F (bndFactor (sat64 a.engSlot) (sat64 a.engMac)),
        setF BND_F_SRAM_F (bndFactor sum (408 * es.length)),
        setF BND_F_PKG_F (bndFactor (sat64 a.pkgE) (sat64 a.arithE)),
        setF BND_STAT_VALID (v a.ropeBnd 0 + v a.ddrRd 1 + v a.engMac 2 + 8 + v a.arithE 4),
        setF BND_STAT_PITCH (pitch16 s),
        upd (.bnd ⟨some (pitchNum s), nextWinP s⟩)] s) s

end Sys2Proof.Machine
end

