-- ==== Sys2Proof/Machine/DmaRun.lean ====
section
/-! DEFINITION. The run of a DMA descriptor (R273, R278 to R284, R287, R289): its walk as runs, the requests of each run,
comparison, and how it ends. -/
namespace Sys2Proof.Machine

/-! ### The walk (R273, R278) -/

/-- A run: walk offset, source, destination, length. -/
structure DRun where
  off : Nat
  src : Nat
  dst : Nat
  len : Nat
  deriving DecidableEq, Repr

/-- The elements of a walk in order. -/
def walk (ws : List Nat) : List DRun :=
  ((List.range (dCnt1 ws)).map (fun j => (List.range (dCnt0 ws)).map (fun i =>
    let o := (j * dCnt0 ws + i) * dElem ws
    let src := (dSrc ws : Int) + i * dSstr0 ws + j * dSstr1 ws
    let dst := (dDst ws : Int) + i * dDstr0 ws + j * dDstr1 ws
    (⟨o, src.toNat, dst.toNat, dElem ws⟩ : DRun)))).flatten

/-- Join consecutive elements into runs (R278); `useSrc` says whether the source counts. -/
def joinRuns (useSrc : Bool) : List DRun → List DRun
  | [] => []
  | r :: rest =>
    match joinRuns useSrc rest with
    | q :: qs =>
      if r.dst + r.len = q.dst ∧ (!useSrc ∨ r.src + r.len = q.src) then { r with len := r.len + q.len } :: qs else r :: q :: qs
    | [] => [r]

/-- Cut points: the boundaries of `k` bytes that a run's address meets, then its end. -/
def cutAt (k : Nat) (addr : DRun → Nat) (fuel : Nat) (r : DRun) : List DRun :=
  match fuel with
  | 0 => [r]
  | fuel + 1 =>
    let n := k - addr r % k
    if r.len ≤ n then [r]
    else ⟨r.off, r.src, r.dst, n⟩ :: cutAt k addr fuel ⟨r.off + n, r.src + n, r.dst + n, r.len - n⟩

/-- The runs of a descriptor, cut at every 1 MiB boundary of either address. -/
def dmaRuns (useSrc : Bool) (ws : List Nat) : List DRun :=
  let rs := ((joinRuns useSrc (walk ws)).map (fun r => cutAt 0x100000 (·.dst) (r.len / 0x100000 + 1) r)).flatten
  if useSrc then (rs.map (fun r => cutAt 0x100000 (·.src) (r.len / 0x100000 + 1) r)).flatten else rs

/-- A run split at the 4 KiB boundaries of its source or destination. -/
def srcPieces (r : DRun) : List DRun := cutAt 4096 (·.src) (r.len / 4096 + 1) r
def dstPieces (r : DRun) : List DRun := cutAt 4096 (·.dst) (r.len / 4096 + 1) r

/-! ### One request of a channel -/

/-- What the run of a descriptor has come to: the state, the first failing status and its address, what the outside still
answers, bytes written or compared, and the walk offset of a difference. -/
structure DProg where
  s : State
  status : Nat := 0
  addr : Nat := 0
  ext : List (Nat × List Byte)
  bytes : Nat := 0
  mism : Option Nat := none

/-- Is an address outside this package's memories, where the answer comes from the paired package (R97)? -/
def isPeer (s : State) (a : Nat) : Bool := match locOf s a with | .peer _ => true | _ => false

/-- May a channel reach the location at all? Control spaces and the PCIe window are not memory. -/
def dmaTarget (s : State) (a len : Nat) : Bool :=
  mapped s a len && (match locOf s a with | .dram | .bank _ _ | .coreMem _ _ | .opBuf _ _ _ => true | _ => false)

/-- Note the first failure. -/
def dFail (p : DProg) (st a : Nat) : DProg := if st = 0 ∨ p.status ≠ 0 then p else { p with status := st, addr := a }

/-- A read of a piece: the program after it and the data. -/
def dRead (m : Master) (win : Option Nat) (p : DProg) (a len : Nat) : DProg × List Byte :=
  let s := p.s
  if isPeer s a then
    let e := p.ext.headD (stFABRIC_ERR, [])
    let r : Req := { src := m, tag := 0, addr := a, len := len, win := win.getD 0 }
    (dFail { p with s := runAct (emit (.peerReq (if win.isSome then .readWin else .read) r)) s, ext := p.ext.drop 1 } e.1 a,
      (e.2 ++ zeros len).take len)
  else
    let ws := match win with | some w => winCheck s w a len false false | none => 0
    if ws ≠ 0 then (dFail { p with s := runAct (winDrop m (win.getD 0) ws) s } ws a, [])
    else if !dmaTarget s a len then (dFail { p with s := runAct (recordRefusal m a) s } stUNMAPPED a, [])
    else (dFail { p with s := runAct (unitRead m a len) s } (readStatus s a len) a, bytesAt s a len)

/-- A write of a piece. -/
def dWrite (m : Master) (win : Option Nat) (p : DProg) (a : Nat) (bs : List Byte) : DProg :=
  let s := p.s
  if isPeer s a then
    let e := p.ext.headD (stFABRIC_ERR, [])
    let r : Req := { src := m, tag := 0, addr := a, len := bs.length, data := bs, win := win.getD 0 }
    dFail { p with
      s := runAct (emit (.peerReq (if win.isSome then .writeWin else .write) r)) s
      ext := p.ext.drop 1
      bytes := p.bytes + (if e.1 = 0 then bs.length else 0) } e.1 a
  else
    let ws := match win with | some w => winCheck s w a bs.length true false | none => 0
    if ws ≠ 0 then dFail { p with s := runAct (winDrop m (win.getD 0) ws) s } ws a
    else if !dmaTarget s a bs.length then dFail { p with s := runAct (recordRefusal m a) s } stUNMAPPED a
    else
      let st := writeStatus s a bs.length
      dFail { p with s := runAct (unitWrite m a bs) s, bytes := p.bytes + (if st = 0 then bs.length else 0) } st a

/-! ### MOVE (R273, R281, R282) -/

/-- Does a COPY serve the run (R281)? -/
def copyServes (s : State) (ws : List Nat) (r : DRun) : Bool :=
  !dNoInplace ws && (dSwin ws).isNone && (dDwin ws).isNone && r.src % 64 == 0 && r.dst % 64 == 0 && r.len % 64 == 0
    && decide (0 < r.len ∧ r.len / 64 ≤ 4096) && windowDie r.src == windowDie r.dst && (windowDie r.src).isSome
    && oneMemory s r.dst r.len && oneMemory s r.src r.len

/-- R282: data that a MOVE reads where it may have written before: the original byte or the one it wrote. -/
def overlapByte (k o : Nat) (was now : Byte) : Byte :=
  if was = now then now else if Config.moveSeesWrite k o then now else was

/-- One run of a MOVE: a COPY where it serves, else reads and writes; `s0` is the state before the MOVE. -/
def moveRun (m : Master) (ws : List Nat) (s0 : State) (p : DProg) (r : DRun) : DProg :=
  if p.status ≠ 0 then p
  else if copyServes p.s ws r then
    let q : Req := { src := m, tag := 0, addr := r.dst, len := r.len / 64, data := leBytes 8 r.src }
    let s := p.s
    let st := copyStatus s q
    dFail { p with s := runAct (copyBody q) s, bytes := p.bytes + (if st = 0 ∨ st = stDATA_UNCORR then r.len else 0) } st
      (if locDark s r.src then r.src else r.dst)
  else
    let rd := (srcPieces r).foldl (fun (x : DProg × List Byte) c =>
      if x.1.status ≠ 0 then x
      else
        let was := bytesAt s0 c.src c.len
        let y := dRead m (dSwin ws) x.1 c.src c.len
        if y.1.status ≠ 0 then (y.1, x.2)
        else if isPeer p.s c.src then (y.1, x.2 ++ y.2)
        else (y.1, x.2 ++ ((was.zip y.2).zipIdx).map (fun e => overlapByte s0.freeCtr (c.off + e.2) e.1.1 e.1.2))) (p, [])
    let data := rd.2
    let failed := rd.1
    let w := (dstPieces { r with len := data.length }).foldl (fun (x : DProg × Bool) c =>
      if x.2 ∨ c.len = 0 then x
      else
        let y := dWrite m (dDwin ws) { x.1 with status := 0 } c.dst ((data.drop (c.dst - r.dst)).take c.len)
        if y.status ≠ 0 then ((if failed.status ≠ 0 then { y with status := failed.status, addr := failed.addr } else y), true)
        else ({ y with status := failed.status, addr := failed.addr }, false)) (failed, false)
    w.1

/-! ### FILL (R283) -/

/-- Pattern byte for an address. -/
def patByte (ws : List Nat) (a : Nat) : Byte := BitVec.ofNat 8 (dSrc ws / 256 ^ (a % 8))

/-- The requests of a FILL run: head, whole units and tail in a scratchpad, else pieces of 4 KiB (R278, R281). -/
def fillPieces (s : State) (ws : List Nat) (r : DRun) : List DRun :=
  let units := !dNoInplace ws && (dDwin ws).isNone && oneMemory s r.dst r.len
  let head := min r.len ((64 - r.dst % 64) % 64)
  let mid := (r.len - head) / 64 * 64
  let cut (o n : Nat) : DRun := ⟨r.off + o, r.src, r.dst + o, n⟩
  if units && decide (64 ≤ mid) then
    ([cut 0 head] ++ cutAt 262144 (·.off) (mid / 262144 + 1) { cut head mid with off := 0 } ++ [cut (head + mid) (r.len - head - mid)]).filter
      (fun c => decide (0 < c.len))
  else dstPieces r

/-- One run of a FILL. -/
def fillRun (m : Master) (ws : List Nat) (p : DProg) (r : DRun) : DProg :=
  (fillPieces p.s ws r).foldl (fun p c =>
    if p.status ≠ 0 then p else dWrite m (dDwin ws) p c.dst ((List.range c.len).map (fun i => patByte ws (c.dst + i)))) p

/-! ### COMPARE and COMPARE_PAT (R284) -/

/-- The first unequal byte. -/
def firstDiff (a b : List Byte) : Option Nat := ((a.zip b).zipIdx.find? (fun e => e.1.1 != e.1.2)).map (·.2)

/-- One run of a comparison; `pat` compares with the pattern. -/
def compareRun (m : Master) (ws : List Nat) (pat : Bool) (p : DProg) (r : DRun) : DProg :=
  ((dstPieces r).map srcPieces).flatten.foldl (fun p c =>
    if p.status ≠ 0 ∨ p.mism.isSome then p
    else
      let x := if pat then (p, (List.range c.len).map (fun i => patByte ws (c.dst + i))) else dRead m (dSwin ws) p c.src c.len
      if x.1.status ≠ 0 then x.1
      else
        let y := dRead m (dDwin ws) x.1 c.dst c.len
        if y.1.status ≠ 0 then y.1
        else match firstDiff x.2 y.2 with
          | some i => { y.1 with mism := some (c.off + i), bytes := y.1.bytes + i + 1 }
          | none => { y.1 with bytes := y.1.bytes + c.len }) p

/-! ### Whether the descriptor's requests can go on -/

/-- Does a partition's channel wait for a lent cluster (R291)? -/
def lentHold (s : State) (n ch a : Nat) : Bool :=
  let held (d c : Nat) : Bool := getF s (PRT_CLU_PART d (c / 8)) == dmaPart s n ch && getF s (PRT_LEND_LSTATE d (c / 8)) != 0
  match locOf s a with
  | .coreMem d c => held d c
  | .opBuf d c _ => held d c
  | _ => false

/-- Is an access of a run held at its memory: a waking bank (R177), an engine's operation (R128), a lent cluster (R291)? -/
def runHeld (s : State) (n ch a len : Nat) (isWrite : Bool) : Bool :=
  (wakeKey s a).isSome || (wakeKey s (a + (len - 1))).isSome || protectedRange s (phys s a) len isWrite || lentHold s n ch a

/-- Do the requests of a descriptor all find their memories ready? -/
def dmaReady (s : State) (n ch : Nat) (ws : List Nat) : Bool :=
  let op := dOp ws
  let useSrc := op == 1 || op == 3
  let isW := op == 1 || op == 2
  (dmaRuns useSrc ws).all (fun r =>
    !(useSrc && runHeld s n ch r.src r.len false) && !runHeld s n ch r.dst r.len isW)

/-! ### The run -/

/-- Run the active descriptor of a channel: `f` performs one run of it. Latencies and holds of its requests are counted
(R307); a failing request ends it and halts the channel (R289). -/
def dmaRun (op n ch : Nat) (env : DmaEnv) (f : List Nat → State → DProg → DRun → DProg) (s : State) :
    Host.Outcome State Fault Refusal :=
  match (dch s n ch).active with
  | none => .next s
  | some t =>
    let ws := t.words
    if !dmaExists n ch || dOp ws != op || !dmaReady s n ch ws then .next s
    else
      let p := (dmaRuns (op == 1 || op == 3) ws).foldl (f ws s) { s := s, ext := env.ext }
      let st := if t.status ≠ 0 then t.status else if p.status ≠ 0 then p.status else if p.mism.isSome then dmMISMATCH else 0
      let ended : DmaTrack := { t with
        status := st
        addr := if t.status ≠ 0 then t.addr else p.addr
        ran := true }
      done (seq [setDch n ch (fun d => { d with active := none, ending := d.ending ++ [ended] }),
        upd (.freeCtr (s.freeCtr + 1)),
        inc64 (DMA_CH_BYTES n ch) p.bytes,
        forEach env.lats (chLatency n ch),
        addReg (REG_CH_HOLD_CNT n ch) env.hold,
        match p.mism with
        | some o => whenA (p.status == 0) (wr64 (DMA_CH_MISM n ch) o)
        | none => nop,
        if p.status = 0 then setF (DMA_CH_STAT_RUN n ch) 0
        else seq [dmaRecord n ch p.status (dPitch ws) p.addr, setF (DMA_CH_STAT_RUN n ch) 2]]) p.s

/-- MOVE (R273). -/
def execDmaMove (n ch : Nat) (env : DmaEnv) (s : State) : Host.Outcome State Fault Refusal :=
  dmaRun 1 n ch env (fun ws s0 p r => moveRun (.dma n ch) ws s0 p r) s
/-- DMA_FILL (R283). -/
def execDmaFill (n ch : Nat) (env : DmaEnv) (s : State) : Host.Outcome State Fault Refusal :=
  dmaRun 2 n ch env (fun ws _ p r => if p.status ≠ 0 then p else fillRun (.dma n ch) ws p r) s
/-- COMPARE (R284). -/
def execDmaCompare (n ch : Nat) (env : DmaEnv) (s : State) : Host.Outcome State Fault Refusal :=
  dmaRun 3 n ch env (fun ws _ p r => if p.status ≠ 0 ∨ p.mism.isSome then p else compareRun (.dma n ch) ws false p r) s
/-- COMPARE_PAT (R284). -/
def execDmaComparePat (n ch : Nat) (env : DmaEnv) (s : State) : Host.Outcome State Fault Refusal :=
  dmaRun 4 n ch env (fun ws _ p r => if p.status ≠ 0 ∨ p.mism.isSome then p else compareRun (.dma n ch) ws true p r) s

end Sys2Proof.Machine
end

