-- ==== Sys2Proof/Machine/Dram.lean ====
section
/-! DEFINITION. The DDR5 controllers (R315 to R339): queues, scheduling and in-order mode, refresh, the row tracker and
throttles, the patrol scrubber, frequency changes, page retirement. -/
namespace Sys2Proof.Machine

/-- Subchannel u. -/
def sub (s : State) (u : Nat) : SubCh := get_subchs s u
def setSub (u : Nat) (f : SubCh → SubCh) : Act := fun s => [.subchs u (f (sub s u))]

/-! ### Requests and their lines -/

/-- Bytes a queued request touches. -/
def dLen (q : DReq) : Nat := reqLen q.op q.req

/-- First line and one past the last line of a request. -/
def dLines (q : DReq) : Nat × Nat := (q.req.addr / 64, (q.req.addr + max (dLen q) 1 + 63) / 64)

/-- Do two requests share a line (R324)? -/
def shareLine (a b : DReq) : Bool := decide ((dLines a).1 < (dLines b).2 ∧ (dLines b).1 < (dLines a).2)

/-- Banks of subchannel `u` that a request touches, with the row in each. -/
def dBanks (u : Nat) (q : DReq) : List (Nat × Nat) :=
  ((((List.range ((dLines q).2 - (dLines q).1)).map (fun i => 64 * ((dLines q).1 + i))).filter (fun a => dramUnit a == u)).map
    (fun a => (dramBank a, dramRow a))).eraseDups

/-- Do two requests meet in a bank and row of subchannel `u`? -/
def sameRow (u : Nat) (a b : DReq) : Bool := (dBanks u a).any (fun x => (dBanks u b).contains x)

/-- Does a request go to the write queue: writes and read-merge-writes (R322)? -/
def dWrites (op : ReqOp) : Bool := op != .read

/-- Regulated level and port of a request, as it entered (R302). -/
def dLevel (s : State) (r : Req) : Nat × Nat :=
  match s.regReqs.find? (fun x => x.src == r.src && x.tag == r.tag) with
  | some x => (x.level, x.port)
  | none => (regLevel s (portOf r.src) r.prio false, portOf r.src)

/-- A request arrives at its controller (R322, R324): queued, and in-order mode begins where an opposite request to the
same bank and row waits. -/
def dramArrive (op : ReqOp) (r : Req) : Act := fun s =>
  let u := dramUnit r.addr
  let c := sub s u
  let lp := dLevel s r
  let q : DReq := { req := r, op := op, level := lp.1, port := lp.2, seq := s.dramSeq }
  let opp := if dWrites op then c.rq else c.wq
  let hit := ((dBanks u q).filter (fun b => opp.any (fun o => (dBanks u o).contains b))).map (·.1)
  let fresh := hit.filter (fun b => !c.inorder.any (fun e => e.1 == b))
  let c1 : SubCh := if dWrites op then { c with wq := c.wq ++ [q] } else { c with rq := c.rq ++ [q] }
  seq [upd (.dramSeq (s.dramSeq + 1)),
    upd (.subchs u { c1 with
      inorder := c.inorder.filter (fun e => !hit.contains e.1) ++ hit.map (fun b => (b, q.seq))
      draining := c1.draining || decide (48 ≤ c1.wq.length) }),
    whenA (!fresh.isEmpty) (addReg (DDR_INORD_CNT (u / 2)) fresh.length),
    whenA (!hit.isEmpty) (setF (DDR_CH_STAT_INORDER (u / 2)) 1)] s

/-! ### Scheduling (R322 to R324, R328, R329) -/

/-- Row open in a bank. -/
def openRow (c : SubCh) (b : Nat) : Option Nat := (c.rows.find? (fun e => e.1 == b)).bind (fun e => if e.2 = 0 then none else some (e.2 - 1))

/-- Every waiting request that the queues hold: 64 of each; the others wait at the crossbar. -/
def waiting (c : SubCh) : List DReq := c.rq.take 64 ++ c.wq.take 64

/-- Are all banks of a request open at its rows? -/
def rowOpen (c : SubCh) (u : Nat) (q : DReq) : Bool := (dBanks u q).all (fun b => openRow c b.1 == some b.2)

/-- Does a throttle keep the port from activating a row now (R329)? -/
def quotaSpent (s : State) (ch port now : Nat) : Bool :=
  s.throttles.any (fun t => t.chan == ch && t.port == port && decide (now < t.until_) && t.usec == now / 1000
    && decide (getF s DDR_RH_CFG_QUOTA ≤ t.acts))

/-- Would the request's next command be an activate? Some bank is closed and none holds another row. -/
def needsAct (c : SubCh) (u : Nat) (q : DReq) : Bool :=
  !rowOpen c u q && (dBanks u q).all (fun b => openRow c b.1 == some b.2 || openRow c b.1 == none)

/-- Is a request eligible (R322, R324): not held by timing, nor by an earlier request to one of its lines, nor by in-order
mode, nor by a throttle? -/
def eligible (s : State) (u now : Nat) (blocked : List Nat) (q : DReq) : Bool :=
  let c := sub s u
  let every := (List.range 24).map (fun v => (sub s v).rq ++ (sub s v).wq)
  !blocked.contains q.seq
    && !every.flatten.any (fun o => decide (o.seq < q.seq) && shareLine o q)
    && !(dBanks u q).any (fun b => c.inorder.any (fun e => e.1 == b.1)
        && (c.rq ++ c.wq).any (fun o => decide (o.seq < q.seq) && (dBanks u o).any (fun x => x.1 == b.1)))
    && !(needsAct c u q && quotaSpent s (u / 2) q.port now)

/-- Sort key of R322: level, open row, direction, age. -/
def dKey (s : State) (u : Nat) (q : DReq) : Nat × Nat × Nat × Nat :=
  let c := sub s u
  (q.level, if rowOpen c u q then 0 else 1, if dWrites q.op == c.draining then 0 else 1, q.seq)

/-- Order of keys. -/
def keyLt (a b : Nat × Nat × Nat × Nat) : Bool :=
  a.1 < b.1 || (a.1 == b.1 && (a.2.1 < b.2.1 || (a.2.1 == b.2.1 && (a.2.2.1 < b.2.2.1 || (a.2.2.1 == b.2.2.1 && a.2.2.2 < b.2.2.2)))))

/-- The request whose command is issued next: every 32nd grant the oldest, else the first by its keys (R303, R322). -/
def dChoose (s : State) (u now : Nat) (blocked : List Nat) : Option DReq :=
  let xs := (waiting (sub s u)).filter (eligible s u now blocked)
  let better (a b : DReq) : Bool :=
    if (sub s u).grants % 32 = 31 then decide (a.seq < b.seq) else keyLt (dKey s u a) (dKey s u b)
  xs.foldl (fun m q => match m with | none => some q | some p => if better q p then some q else some p) none

/-- Set a key of an association list. -/
def assocSet (xs : List (Nat × Nat)) (k v : Nat) : List (Nat × Nat) := xs.filter (fun e => e.1 != k) ++ [(k, v)]
/-- Read one; 0 where absent. -/
def assocGet (xs : List (Nat × Nat)) (k : Nat) : Nat := match xs.find? (fun e => e.1 == k) with | some e => e.2 | none => 0

/-- A row tracker after an activate of row `r` by port `p` (R328), and the entry that it updated. -/
def trackNext (es : List TrackEnt) (r p : Nat) : List TrackEnt × TrackEnt :=
  let low := es.foldl (fun m e => min m e.count) (es.headD ⟨0, 0, 0, 0⟩).count
  let vote (e : TrackEnt) : TrackEnt :=
    if e.cand = p then { e with weight := e.weight + 1 }
    else if 0 < e.weight then { e with weight := e.weight - 1 }
    else { e with cand := p, weight := 1 }
  match es.findIdx? (fun e => e.row == r) with
  | some i =>
    let e := es.getD i ⟨r, 0, p, 0⟩
    let e := vote { e with count := e.count + 1 }
    (es.set i e, e)
  | none =>
    if es.length < 32 then
      let e := vote ⟨r, 1, p, 0⟩
      (es ++ [e], e)
    else
      let i := es.findIdx (fun e => e.count == low)
      let e := vote ⟨r, low + 1, p, 0⟩
      (es.set i e, e)

/-- DDR_THR_STAT follows the throttles. -/
def showThrottles : Act := fun s =>
  setF DDR_THR_STAT_PORTS (s.throttles.foldl (fun m t => Nat.lor m (2 ^ t.port)) 0) s

/-- Throttle a port on a channel (R329). -/
def throttle (ch port now : Nat) : Act := fun s =>
  seq [upd (.throttles (s.throttles.filter (fun t => !(t.chan == ch && t.port == port)) ++
      [{ chan := ch, port := port, until_ := now + getF s DDR_RH_TIME_THR_MS * 1000000 }])),
    incReg DDR_THR_CNT, showThrottles] s

/-- ROW_TRACKER_UPDATE (R328): an activate of a row by a port; at ACT_THR an RFMsb, and its candidate is throttled. -/
def trackAct (u b row port now : Nat) : Act := fun s =>
  let r := trackNext (get_trackers s (u * 32 + b)) row port
  let hit := decide (getF s DDR_RH_CFG_ACT_THR ≤ r.2.count)
  let ch := u / 2
  seq [upd (.trackers (u * 32 + b) (if hit then r.1.map (fun e => if e.row == row then { e with count := 0 } else e) else r.1)),
    whenA hit (seq [incReg (DDR_RH_CNT ch), incReg (DDR_RFM_CNT ch),
      wr (DDR_RH_EVT ch) (b + u % 2 * 2 ^ 5 + row % 2 ^ 17 * 2 ^ 6 + r.2.cand % 32 * 2 ^ 23 + 2 ^ 28),
      whenA (r.2.cand != 14 && r.2.cand != 15) (throttle ch r.2.cand now)])] s

/-- Count an activation against a throttled port's quota (R329). -/
def quotaUse (ch port now : Nat) : Act := fun s =>
  if s.throttles.any (fun t => t.chan == ch && t.port == port) then
    [.throttles (s.throttles.map (fun t => if t.chan == ch && t.port == port then
      { t with usec := now / 1000, acts := if t.usec = now / 1000 then t.acts + 1 else 1 } else t))]
  else []

/-- The rolling activation counter of a bank (R327): at the devices' threshold an RFMsb. -/
def raaAct (u b thr : Nat) : Act := fun s =>
  let k := assocGet (sub s u).raa b + 1
  if 0 < thr ∧ thr ≤ k then
    seq [setSub u (fun c => { c with raa := assocSet c.raa b (k - thr) }), incReg (DDR_RFM_CNT (u / 2))] s
  else setSub u (fun c => { c with raa := assocSet c.raa b k }) s

/-- Open a row. -/
def activate (u : Nat) (q : DReq) (b row now thr : Nat) : Act := seq [
  setSub u (fun c => { c with rows := assocSet c.rows b (row + 1) }),
  upd (.idleAt (u * 32 + b) now), quotaUse (u / 2) q.port now, trackAct u b row q.port now, raaAct u b thr]

/-- Close a bank. -/
def precharge (u b : Nat) : Act := setSub u (fun c => { c with rows := c.rows.filter (fun e => e.1 != b) })

/-- Lines that a write covers in part (R320). -/
def partLines (q : DReq) : Nat :=
  if q.op = .write then
    ((List.range ((dLines q).2 - (dLines q).1)).filter (fun i =>
      let l := 64 * ((dLines q).1 + i)
      !decide (q.req.addr ≤ l ∧ l + 64 ≤ q.req.addr + dLen q))).length
  else 1

/-- A request is performed at its controller: it leaves its queue, in-order modes it caused end, bytes are counted. -/
def dramPerform (u : Nat) (q : DReq) (now : Nat) : Act := fun s =>
  let n := 64 * ((dLines q).2 - (dLines q).1)
  seq [setSub u (fun c => { c with
      rq := c.rq.filter (fun x => x.seq != q.seq)
      wq := c.wq.filter (fun x => x.seq != q.seq)
      inorder := c.inorder.filter (fun e => e.2 != q.seq) }),
    setSub u (fun c => { c with draining := c.draining && decide (16 < c.wq.length) }),
    forEach (dBanks u q) (fun b => upd (.idleAt (u * 32 + b.1) now)),
    fun s => setF (DDR_CH_STAT_INORDER (u / 2))
      (if (sub s (u / 2 * 2)).inorder.isEmpty && (sub s (u / 2 * 2 + 1)).inorder.isEmpty then 0 else 1) s,
    if q.op = .read then inc64 (DDR_RD (u / 2)) n
    else seq [whenA (decide (0 < partLines q)) (addReg (DDR_RMW_CNT (u / 2)) (partLines q)), inc64 (DDR_WR (u / 2)) n],
    performMem q.op q.req] s

/-- DRAM_SCHEDULE (R322): subchannel `u` issues its next eligible command: a precharge, an activate, or the access.
`blocked` names the requests that the timing set holds back, `thr` the devices' activation threshold (R327). -/
def execDramSchedule (u now : Nat) (blocked : List Nat) (thr : Nat) (s : State) : Host.Outcome State Fault Refusal :=
  done (seq [advance now, fun s =>
    if 24 ≤ u then [] else
    match dChoose s u now blocked with
    | none => []
    | some q =>
      let c := sub s u
      let old := c.grants % 32 == 31
      seq [setSub u (fun c => { c with grants := c.grants + 1 }),
        whenA (old && decide (q.port < 18)) (incReg (REG_OLD_CNT q.port)),
        match (dBanks u q).find? (fun b => openRow c b.1 != some b.2 && openRow c b.1 != none) with
        | some b => precharge u b.1
        | none => match (dBanks u q).find? (fun b => openRow c b.1 == none) with
          | some b => activate u q b.1 b.2 now thr
          | none => dramPerform u q now] s]) s

/-! ### Idle timers, refresh, throttles -/

/-- MCLK in MHz at a DRAM point (R316). -/
def mclk (pt : Nat) : Nat := if pt = 0 then 800 else if pt = 1 then 700 else 600

/-- Idle timer of a bank in MCLK cycles (R323, R337). -/
def idleTimer (s : State) (u b : Nat) : Nat :=
  let i := 32 * (u % 2) + b
  bits (rd s (DDR_IDLE (u / 2) (i / 4))) (i % 4 * 8 + 7) (i % 4 * 8)

/-- BANK_IDLE_PRECHARGE (R323): the idle timer has expired and no queued request targets the open row. -/
def execBankIdlePrecharge (u b now : Nat) (s : State) : Host.Outcome State Fault Refusal :=
  done (seq [advance now, fun s =>
    match openRow (sub s u) b with
    | none => []
    | some row =>
      let c := sub s u
      let late := decide (idleTimer s u b * 1000 ≤ (now - get_idleAt s (u * 32 + b)) * mclk (getF s DDR_PT_CUR))
      if u < 24 ∧ b < 32 ∧ late ∧ !(c.rq ++ c.wq).any (fun q => (dBanks u q).contains (b, row)) then precharge u b s else []]) s

/-- REFRESH (R327): issued, which closes the bank, or postponed, at most four times, while a read burst is in progress. -/
def execRefresh (u b : Nat) (burst : Bool) (thr : Nat) (s : State) : Host.Outcome State Fault Refusal :=
  done (fun s =>
    if 24 ≤ u ∨ 32 ≤ b then [] else
    let k := assocGet (sub s u).postponed b
    if burst ∧ k < 4 then setSub u (fun c => { c with postponed := assocSet c.postponed b (k + 1) }) s
    else seq [precharge u b, setSub u (fun c => { c with
      postponed := c.postponed.filter (fun e => e.1 != b)
      raa := assocSet c.raa b (assocGet c.raa b - thr) })] s) s

/-- MR4_READ (R327): the refresh rate of channel `c` follows the devices' temperature. -/
def execMr4Read (c : Nat) (hot : Bool) (s : State) : Host.Outcome State Fault Refusal :=
  done (if c < 12 then setF (DDR_CH_STAT_HOT c) (if hot then 1 else 0) else nop) s

/-- ROW_TRACKER_CLEAR (R328): all counts clear at every 32 ms. -/
def execRowTrackerClear (s : State) : Host.Outcome State Fault Refusal :=
  done (fun s => forEach s.trackers (fun e => upd (.trackers e.1 [])) s) s

/-- THROTTLE_EXPIRE (R329). -/
def execThrottleExpire (c port now : Nat) (s : State) : Host.Outcome State Fault Refusal :=
  done (seq [advance now,
    fun s => [.throttles (s.throttles.filter (fun t => !(t.chan == c && t.port == port && decide (t.until_ ≤ now))))],
    showThrottles]) s

/-! ### The patrol scrubber (R321) -/

/-- Address of line `k` of a channel in ascending order. -/
def patrolAddr (c k : Nat) : Nat := (k / 64 / 2 * 24 + 2 * c + k / 64 % 2) * 4096 + k % 64 * 64

/-- PATROL_SCRUB (R321): channel `c` reads its next line, corrects and logs it. -/
def execPatrolScrub (c : Nat) (s : State) : Host.Outcome State Fault Refusal :=
  done (fun s =>
    if c < 12 ∧ flag s DDR_SCRUB_EN ∧ getF s (DDR_CH_STAT_STATE c) = 2 then
      let k := get_patrolLine s c
      let lines := s.fitted.dramTop / 64 / 12
      seq [dramTouch (patrolAddr c k) 64, upd (.patrolLine c (if lines ≤ k + 1 then 0 else k + 1))] s
    else []) s

/-- A written INTERVAL is raised to DDR_SCRUB_MIN (R321). -/
def patrolInterval (v : Nat) : Act := fun s => setF DDR_SCRUB_INTERVAL (max (v % 2 ^ 16) (getF s DDR_SCRUB_MIN_MIN)) s

/-! ### The DRAM point (R330 to R333) -/

/-- Device time at which the guard of the present pitch begins (R47). -/
def guardStart (s : State) : Nat := tickTime s + (period s - 200000)

/-- May TARGET name a point for a master (R331)? -/
def targetOk (s : State) (src : Master) (v : Nat) : Bool :=
  !flag s DDR_FC_BUSY && v < 3 && bit (getF s DDR_PT_EN) v && decide (v ≤ getF s DDR_PT_FLOOR)
    && !((match src with | .app _ => true | _ => false) && flag s DDR_POL_FW_EN)

/-- A write of DDR_FC.TARGET (R331). -/
def targetWrite (src : Master) (v : Nat) : Act := fun s =>
  if !targetOk s src v then setF DDR_FC_IGN 1 s
  else seq [setF DDR_FC_TARGET v,
    whenA (v != getF s DDR_PT_CUR) (seq [setF DDR_FC_BUSY 1,
      upd (.dpol { s.dpol with fcFrom := if guardStart s ≤ s.time then pitchNum s + 1 else pitchNum s })])] s

/-- DDR_FC_TARGET_WRITE (R331). -/
def execDdrFcTargetWrite (src : Master) (v : Nat) (s : State) : Host.Outcome State Fault Refusal :=
  done (guarded (swWriteOk src) src DDR_FC (targetWrite src v)) s

/-- FREQUENCY_CHANGE (R330): in the guard that follows the write, all channels change point through self-refresh; every
bank is precharged and postponed refreshes are issued. `ns` is its duration. -/
def execFrequencyChange (now ns : Nat) (s : State) : Host.Outcome State Fault Refusal :=
  done (seq [advance now, fun s =>
    if flag s DDR_FC_BUSY ∧ guardStart s ≤ now ∧ s.dpol.fcFrom ≤ pitchNum s then
      let v := getF s DDR_FC_TARGET
      seq [setF DDR_PT_CUR v, setF DDR_FC_BUSY 0, incReg DDR_FC_CNT, setF DDR_FC_LAST_NS (min ns 0xFFFF),
        forEach (List.range 12) (fun c => setF (DDR_CH_STAT_PT c) v),
        forEach s.subchs (fun e => upd (.subchs e.1 { e.2 with rows := [], postponed := [] }))] s
    else []]) s

/-- Bytes moved by all channels so far. -/
def dramBytes (s : State) : Nat := ((List.range 12).map (fun c => rd64 s (DDR_RD c) + rd64 s (DDR_WR c))).foldl (· + ·) 0

/-- Sustained GB/s of a point (R326). -/
def sustained (hot : Bool) (pt : Nat) : Nat :=
  if hot then (if pt = 0 then 516 else if pt = 1 then 452 else 387) else (if pt = 0 then 540 else if pt = 1 then 473 else 405)

/-- Points the policy may choose, slowest first. -/
def polPoints (s : State) : List Nat :=
  [2, 1, 0].filter (fun p => bit (getF s DDR_PT_EN) p && decide (getF s DDR_POL_FAST ≤ p ∧ p ≤ getF s DDR_POL_SLOW ∧ p ≤ getF s DDR_PT_FLOOR))

/-- The shipped policy of R332, in the guard: the slowest point whose sustained figure exceeds 1.5 times the largest rate of
the last 64 pitches; a slower point than the present one only after 64 pitches. -/
def dramPolicy : Act := fun s =>
  let total := dramBytes s
  let hist := ((total - s.dpol.last) :: s.dpol.hist).take 64
  let most := hist.foldl max 0
  let hot := (List.range 12).any (fun c => flag s (DDR_CH_STAT_HOT c))
  let fits (p : Nat) : Bool := decide (3 * most < 2 * sustained hot p * period s)
  let want := match (polPoints s).find? fits with | some p => some p | none => (polPoints s).getLast?
  seq [upd (.dpol { s.dpol with last := total, hist := hist }),
    match want with
    | some p => whenA (flag s DDR_POL_FW_EN && p != getF s DDR_PT_CUR && !flag s DDR_FC_BUSY
        && (decide (p < getF s DDR_PT_CUR) || hist.length == 64)) (targetWrite .mgmt p)
    | none => nop] s

/-- DQS_OSCILLATOR_READ (R333): channel `c` adjusts its write delays by the measured change. -/
def execDqsOscillatorRead (c : Nat) (delta : Int) (s : State) : Host.Outcome State Fault Refusal :=
  done (fun s => if c < 12 ∧ getF s (DDR_CH_STAT_STATE c) = 2 then [.dqsAdj c (get_dqsAdj s c + delta)] else []) s

/-! ### Page retirement (R335) -/

/-- 24 hours in ns. -/
abbrev dayNs : Nat := 86400000000000

/-- Retire a page: the record and a message interrupt `v` to the application cores. -/
def retirePage (page v : Nat) : Act := fun s =>
  if s.retired.contains page then [] else
  seq [upd (.retired (s.retired ++ [page])), incReg DDR_RET_CNT, wr64 DDR_RET_LAST (page * 4096), icuMsg v] s

/-- PAGE_RETIREMENT (R335): the firmware takes the oldest entry of the error ring; a page is retired at its first
uncorrectable line, or at CE_THR corrected lines within 24 h. -/
def execPageRetirement (now v : Nat) (s : State) : Host.Outcome State Fault Refusal :=
  done (seq [advance now, fun s =>
    match s.errRing with
    | [] => []
    | e :: rest =>
      if !flag s DDR_RET_CFG_FW_EN then [] else
      let page := e.addr / 4096
      let times := s.retTimes.filter (fun t => decide (now < t.2 + dayNs)) ++ (if e.uncorrectable then [] else [(page, now)])
      let n := (times.filter (fun t => t.1 == page)).length
      seq [upd (.errRing rest), upd (.retTimes times),
        whenA (e.uncorrectable || decide (max 1 (getF s DDR_RET_CFG_CE_THR) ≤ n)) (retirePage page v)] s]) s

end Sys2Proof.Machine
end

