-- ==== Sys2Proof/Machine/Reset.lean ====
section
/-! DEFINITION. Reset of a compute die and its removal (R475, R476, R524): what a reset clears, what the fault controller
decides when a die fails, the die's return. -/
namespace Sys2Proof.Machine

/-! ### Reset of a compute die (R524) -/

/-- Keys of a table in a range, emptied by an update. -/
def dropKeys {α : Type} (t : List (Nat × α)) (lo n : Nat) (mk : Nat → Upd) : Act :=
  forEach (t.filter (fun e => decide (lo ≤ e.1 ∧ e.1 < lo + n))) (fun e => upd (mk e.1))

/-- Cores of a compute die. -/
def isCoreOf (d : Nat) : Master → Bool
  | .core g => g / 32 == d
  | _ => false

/-- The control registers of a compute die are reset; the TO fields hold what the loader writes again (R15). -/
def dieRegsReset (d : Nat) : Act :=
  resetRegsWith true (0x210000000000 + d * 0x1000000) (0x210000000000 + (d + 1) * 0x1000000) (fun _ => false)

/-- Reset of compute die `d` (R524): registers, threads, engines, channels, memories and whatever is in flight there. -/
def dieReset (d : Nat) : Act := fun s =>
  let base := 0x100000000000 + d * 0x10000000
  let there (a : Nat) : Bool := decide (base ≤ a ∧ a < base + 0x10000000)
  seq [dieRegsReset d,
    dropKeys s.threads (d * 2048) 2048 (fun k => .threads k {}),
    dropKeys s.cores (d * 32) 32 (fun k => .cores k {}),
    dropKeys s.engines (d * 256) 256 (fun k => .engines k {}),
    dropKeys s.watches (d * 64) 64 (fun k => .watches k []),
    dropKeys s.bankHeld (d * 64) 64 (fun k => .bankHeld k []),
    dropKeys s.bankHeld (512 + d * 4) 4 (fun k => .bankHeld k []),
    dropKeys s.bankTarget (d * 64) 64 (fun k => .bankTarget k 0),
    dropKeys s.ecc (base / 32) 0x800000 (fun k => .ecc k 0),
    dropKeys s.scrubPos d 1 (fun k => .scrubPos k 0),
    dropKeys s.diePitch d 1 (fun k => .diePitch k 0),
    dropKeys s.ports (d * 32) 32 (fun k => .ports k {}),
    dropKeys s.dmas (d * 32) 32 (fun k => .dmas k {}),
    upd (.txns (s.txns.filter (fun x => !isCoreOf d x.src))),
    upd (.lateTags (s.lateTags.filter (fun x => !isCoreOf d x.1))),
    upd (.resps (s.resps.filter (fun x => !isCoreOf d x.src))),
    upd (.held (s.held.filter (fun x => !there x.2.addr && !isCoreOf d x.2.src))),
    upd (.watchMsgs (s.watchMsgs.filter (fun m => m.core / 32 != d))),
    upd (.faultMsgs (s.faultMsgs.filter (fun m => m.1 / 32 != d))),
    upd (.wbPending (s.wbPending.filter (fun w => !there (32 * w)))),
    upd (.flt { s.flt with slices := s.flt.slices.filter (fun x => x.die != d) }),
    upd (.memDrop base 0x10000000)] s

/-! ### Links of a die -/

/-- The ring of compute dies (spec/04, Topology and routes). -/
def ring : List Nat := [0, 1, 2, 3, 7, 6, 5, 4]

/-- The compute die that ring port 0 (`back` false) or 1 of die `d` leads to. -/
def ringNext (d : Nat) (back : Bool) : Nat :=
  let i := ring.idxOf d
  ring.getD ((i + if back then 7 else 1) % 8) 0

/-- The other end of a rope link inside the package: node and port; none for the anchor and peer ends, which have no
registers of R105. -/
def otherEnd (n p : Nat) : Option (Nat × Nat) :=
  if n < 8 then
    (if p = 0 then some (ringNext n false, 1) else if p = 1 then some (ringNext n true, 0)
     else if p < 4 then some (8, 2 * n + (p - 2)) else none)
  else if n = 8 ∧ p < 16 then some (p / 2, 2 + p % 2)
  else none

/-- Is (n, p) a port of R105? -/
def portOk (n p : Nat) : Bool := (decide (n < 8) && decide (p < 4)) || (n == 8 && decide (p < 20))

/-- A port is on and its link not down. -/
def portUp (s : State) (n p : Nat) : Bool := getF s (RPL_STAT_STATE n p) == 1 && !flag s (RPL_STAT_DOWN n p)

/-- A rope link can carry flits: both ends are up. -/
def linkUp (s : State) (n p : Nat) : Bool :=
  portUp s n p && (match otherEnd n p with | some e => portUp s e.1 e.2 | none => true)

/-- A port comes up: enabled, its link trained. -/
def portStart (n p : Nat) : Act := seq [
  setF (RPL_CTL_EN n p) 1, setF (RPL_STAT_STATE n p) 1, setF (RPL_STAT_TRAINED n p) 1, setF (RPL_STAT_DOWN n p) 0,
  upd (.ports (n * 32 + p) {})]

/-- The rope ports of die `d` and their other ends come up as LINK_EN says (R97). -/
def dieLinks (d : Nat) : Act := fun s =>
  forEach ((List.range 4).filter (fun p => bit (s.load.linkEn.getD d 0) p)) (fun p =>
    seq [portStart d p, match otherEnd d p with | some e => portStart e.1 e.2 | none => nop]) s

/-! ### Removal and return of a die (R475, R476) -/

/-- Has partition `p` a cluster or a bank on die `d`? -/
def hasOnDie (s : State) (p d : Nat) : Bool :=
  (List.range 4).any (fun c => getF s (PRT_CLU_PART d c) == p) || (List.range 64).any (fun b => getF s (MAP_BNK_OWN_PART d b) == p)

/-- Caches that lose their mirror or their home with die `d` (R476). -/
def cachesHit (s : State) (d : Nat) : List Nat :=
  (List.range 16).filter (fun c => (kv s c).owner != 0x1F && ((kv s c).home == d || partner (kv s c).home == d))

/-- DIE_REMOVAL (R475): the die is held in reset, its rope ports are disabled, and every partition with a cluster or bank
on it enters RESTART at the next tick. -/
def dieRemove (d : Nat) : Act := fun s =>
  if 8 ≤ d ∨ dieRemoved s d then [] else
  let ps := (List.range 16).filter (fun p => partDefined s p && hasOnDie s p d)
  seq [setF (FLT_DIE_STAT_STATE d) 2,
    upd (.flt { s.flt with
      removed := s.flt.removed ++ [d]
      gone := s.flt.gone ++ ((List.range 16).filter (fun p => dieArrived s p d)).map (fun p => d * 16 + p) }),
    dieReset d,
    forEach (cachesHit s d) (fun c => setF (KVC_C_LIVE_UNMIRRORED (kv s c).home c) 1),
    forEach ps (fun p => decideRestart p 3 (some none))] s

/-- A die that passed its test returns to service: links come up, banks take their schedule, clusters stay gated until
their partition restarts (R475); caches mirror again. -/
def dieReturn (d : Nat) : Act := fun s =>
  seq [setF (FLT_DIE_STAT_STATE d) 0, dieLinks d,
    forEach (List.range 64) (fun b => bankSettle d b),
    forEach (cachesHit s d) (fun c => setF (KVC_C_LIVE_UNMIRRORED (kv s c).home c) 0)] s

/-- The test of R475 for a removed die: `pass` says how it ended. -/
def dieTest (d : Nat) (pass : Bool) : Act :=
  if pass then dieReturn d else seq [incReg (FLT_DIE_FAIL_CNT d), setF (FLT_DIE_STAT_STATE d) 2]

end Sys2Proof.Machine
end

