-- ==== Sys2Proof/Machine/Fabric.lean ====
section
/-! DEFINITION. Rope links and routes (R86 to R106): flits and their code, retry, links that go down, route switching,
transaction timeout, disabling a port. -/
namespace Sys2Proof.Machine

/-! ### Paths (R96) -/

/-- The spoke of die `d` that a message with address `a` takes: by address bit 20, or the other one where it is down. -/
def spokeOf (s : State) (d a : Nat) : Nat :=
  let i := a / 2 ^ 20 % 2
  if linkUp s d (2 + i) then i else 1 - i

/-- Both ends of the spoke that a message between die `d` and the I/O die takes. -/
def spokeEnds (s : State) (d a : Nat) : List (Nat × Nat) :=
  [(d, 2 + spokeOf s d a), (8, 2 * d + spokeOf s d a)]

/-- The route that die `d` uses to die `t`: 0, 1 a ring port, 2 the spokes, 3 none (R97, R106). -/
def routeOf (s : State) (d t : Nat) : Nat :=
  let act := getF s (RTE_DEST_ACTIVE d t)
  if act = 0 then getF s (RTE_DEST_PRIMARY d t) else if act = 1 then getF s (RTE_DEST_ALTERNATE d t) else 3

/-- The port ends on the way of a request from a node to an address; none where there is no route. -/
def pathOf (s : State) (src : Master) (a0 : Nat) : Option (List (Nat × Nat)) :=
  let a := phys s a0
  let n := nodeOf src
  let enter : List (Nat × Nat) :=
    if n < 8 then spokeEnds s n a
    else if n = 9 ∨ n = 10 then [(8, n + 7)]
    else if 16 ≤ n then [(8, 18 + a / 2 ^ 20 % 2)]
    else []
  let die : Option Nat := match locOf s a with
    | .bank d _ | .coreMem d _ | .opBuf d _ _ => some d
    | .dieCtl d => some d
    | _ => none
  match die with
  | some t =>
    if n = t then some []
    else if n < 8 then
      let r := routeOf s n t
      if r < 2 then some ((n, r) :: (otherEnd n r).toList)
      else if r = 2 then some (enter ++ spokeEnds s t a)
      else none
    else some (enter ++ spokeEnds s t a)
  | none =>
    match locOf s a with
    | .ancCtl x => some (enter ++ [(8, 16 + x)])
    | .peer _ =>
      let i := a / 2 ^ 20 % 2
      some (enter ++ [(8, if portUp s 8 (18 + i) then 18 + i else 19 - i)])
    | _ => some enter

/-- Is every link on the way of a request up? -/
def pathUp (s : State) (src : Master) (a : Nat) : Bool :=
  match pathOf s src a with
  | some es => es.all (fun e => portUp s e.1 e.2)
  | none => false

/-- Does a core's transaction use port `p` of node `n`? -/
def usesPort (s : State) (n p : Nat) (x : Txn) : Bool :=
  match pathOf s x.src x.addr with
  | some es => es.contains (n, p) || (match otherEnd n p with | some e => es.contains e | none => false)
  | none => false

/-! ### Flits (R89, R90, R102) -/

/-- Can the code correct the flit: at most one bad symbol in each of the four codewords? -/
def flitGood (bad : List Nat) : Bool :=
  (List.range 4).all (fun w => decide ((bad.filter (fun i => i / 32 == w)).length ≤ 1))

/-- Runs of corrections per symbol position after a flit. -/
def nextRuns (runs : List (Nat × Nat)) (bad : List Nat) : List (Nat × Nat) :=
  bad.map (fun i => match runs.find? (fun r => r.1 == i) with | some r => (i, r.2 + 1) | none => (i, 1))

/-- The receiver corrects and counts bad symbols (R90, R102). -/
def correctFlit (n p : Nat) (bad : List Nat) : Act := fun s =>
  let po := get_ports s (n * 32 + p)
  let runs := nextRuns po.runs bad
  seq [whenA (!bad.isEmpty) (seq [addReg (RPL_CORR_CNT n p) bad.length, setF (RPL_CORR_POS_SYMBOL n p) (bad.getLastD 0)]),
    whenA (runs.any (fun r => decide (1024 ≤ r.2))) (setF (RPL_STAT_DEGRADED n p) 1),
    upd (.ports (n * 32 + p) { po with runs := runs })] s

/-- The EVENT entry of a link that went down (R103, R584). -/
def linkEvent (n p cause : Nat) : Act :=
  let o := match otherEnd n p with
    | some e => e
    | none => if p = 16 then (9, 0) else if p = 17 then (10, 0) else (16, p)
  sendEvent 2 [2, cause, n, p, o.1, o.2] 8 0

/-- One end of a link stops sending: DOWN, with cause and pitch (R103). -/
def endDown (n p cause : Nat) : Act := fun s =>
  seq [setF (RPL_STAT_DOWN n p) 1, setF (RPL_DOWN_CAUSE n p) cause, setF (RPL_DOWN_PITCH n p) (pitch16 s),
    upd (.ports (n * 32 + p) {})] s

/-- Both spokes of a compute die are down: it cannot apply ticks and is a failed die (R103, R475). -/
def spokesDown (s : State) (d : Nat) : Bool :=
  decide (d < 8) && flag s (RPL_STAT_DOWN d 2) && flag s (RPL_STAT_DOWN d 3)

/-- A link goes down (R103): both ends stop, tags lost on it may be used again (R101), a die without spokes is removed,
a package without peer ports is PEER_LOST. -/
def linkDown (n p cause : Nat) : Act := fun s =>
  if !portOk n p || flag s (RPL_STAT_DOWN n p) then [] else
  let d := if n < 8 then n else p / 2
  seq [endDown n p cause, match otherEnd n p with | some e => endDown e.1 e.2 cause | none => nop,
    linkEvent n p cause,
    fun s => [.lateTags (s.lateTags.filter (fun t => nodeOf t.1 != n))],
    fun s => if (n < 8 ∨ p < 16) ∧ spokesDown s d then dieRemove d s else [],
    fun s => if n = 8 ∧ 18 ≤ p ∧ flag s (RPL_STAT_DOWN 8 18) ∧ flag s (RPL_STAT_DOWN 8 19) then setF PCH_STATUS_PEER_LOST 1 s
      else []] s

/-- LINK_DOWN (R103): a failed resend, a lost clock lane, a credit timeout or failed training. -/
def execLinkDown (n p cause : Nat) (s : State) : Host.Outcome State Fault Refusal :=
  done (if 1 ≤ cause ∧ cause ≤ 4 then linkDown n p cause else nop) s

/-- FLIT_RECEIVE (R90, R102): a flit with number `seqNo` arrives at port `p` of node `n` with the bad symbols given. -/
def execFlitReceive (n p seqNo : Nat) (idle : Bool) (bad : List Nat) (s : State) : Host.Outcome State Fault Refusal :=
  done (fun s =>
    if !portOk n p || !portUp s n p then [] else
    let k := n * 32 + p
    let po := get_ports s k
    seq [match otherEnd n p with | some e => whenA (!idle) (inc64 (RPL_FLIT e.1 e.2) 1) | none => nop,
      if po.discarding then
        (if seqNo ≠ po.retrySeq ∨ po.retryAsked then nop
         else if flitGood bad then
           seq [upd (.ports k { po with discarding := false, rxSeq := (seqNo + 1) % 256 }), incReg (RPL_RETRY_CNT n p),
             correctFlit n p bad]
         else linkDown n p 1)
      else if seqNo ≠ po.rxSeq then nop
      else if flitGood bad then seq [upd (.ports k { po with rxSeq := (seqNo + 1) % 256 }), correctFlit n p bad]
      else upd (.ports k { po with discarding := true, retrySeq := seqNo, retryAsked := true, runs := [] })] s) s

/-- LINK_RETRY_REQUEST (R102): the sender at port `p` of node `n` resends from the flit that its receiver named. -/
def execLinkRetryRequest (n p : Nat) (s : State) : Host.Outcome State Fault Refusal :=
  done (fun s =>
    match otherEnd n p with
    | none => []
    | some e =>
      let ke := e.1 * 32 + e.2
      let po := get_ports s ke
      if po.discarding ∧ po.retryAsked ∧ portUp s n p then
        seq [upd (.ports ke { po with retryAsked := false }),
          fun s => [.ports (n * 32 + p) { get_ports s (n * 32 + p) with txSeq := po.retrySeq }]] s
      else []) s

/-! ### Routes (R103) -/

/-- Can a route code carry traffic from die `d` to die `t`? -/
def routeUp (s : State) (d t r : Nat) : Bool :=
  if r < 2 then ringNext d (r == 1) == t && linkUp s d r
  else r == 2 && (linkUp s d 2 || linkUp s d 3) && (linkUp s t 2 || linkUp s t 3)

/-- Is a transaction of a core of die `d` to die `t` outstanding? -/
def outstanding (s : State) (d t : Nat) : Bool :=
  s.txns.any (fun x => isCoreOf d x.src && windowDie (phys s x.addr) == some t)

/-- ROUTE_SWITCH (R103): die `d`'s route to die `t` is down and nothing is outstanding on it: ACTIVE moves on. -/
def execRouteSwitch (d t : Nat) (s : State) : Host.Outcome State Fault Refusal :=
  done (fun s =>
    if 8 ≤ d ∨ 8 ≤ t ∨ d = t ∨ routeUp s d t (routeOf s d t) ∨ outstanding s d t then []
    else if getF s (RTE_DEST_ACTIVE d t) = 0 ∧ routeUp s d t (getF s (RTE_DEST_ALTERNATE d t)) then
      seq [setF (RTE_DEST_ACTIVE d t) 1, fun s => wr (RTE_FAIL d) (putBit (rd s (RTE_FAIL d)) t true) s] s
    else setF (RTE_DEST_ACTIVE d t) 2 s) s

/-! ### Timeout (R101) -/

/-- Does a request of a master wait somewhere without a response? -/
def waitsAnywhere (s : State) (src : Master) (tag : Nat) : Bool :=
  let is (r : Req) : Bool := r.src == src && r.tag == tag
  s.held.any (fun h => is h.2) || s.bankHeld.any (fun e => e.2.any (fun h => is h.2))
    || s.subchs.any (fun e => e.2.rq.any (fun q => is q.req) || e.2.wq.any (fun q => is q.req))
    || s.resps.any (fun r => r.src == src && r.tag == tag)

/-- FABRIC_ERR responses are counted by the requester's die. -/
def countFabricErr (src : Master) : Act := if nodeOf src < 8 then incReg (RTE_ERR_CNT (nodeOf src)) else nop

/-- TRANSACTION_TIMEOUT (R101): the requester receives FABRIC_ERR, and the late response will be discarded. -/
def execTransactionTimeout (src : Master) (tag : Nat) (s : State) : Host.Outcome State Fault Refusal :=
  done (fun s =>
    match src with
    | .core g =>
      (match s.txns.find? (fun x => x.src == src && x.tag == tag) with
      | none => []
      | some x => seq [fun s => [.lateTags (s.lateTags ++ [(src, tag)])], countFabricErr src, endTxn g x stFABRIC_ERR []] s)
    | _ =>
      if waitsAnywhere s src tag && !s.lateTags.contains (src, tag) then
        seq [fun s => [.lateTags (s.lateTags ++ [(src, tag)])], countFabricErr src, regLeave src tag] s
      else []) s

/-! ### Disabling a port (R104, R105) -/

/-- RPL_DISABLE (R104): no new flit is sent; the drain waits for the transactions routed through the port. -/
def execRplDisable (src : Master) (n p : Nat) (s : State) : Host.Outcome State Fault Refusal :=
  done (guarded (swWriteOk src && portOk n p) src (RPL_CTL n p)
    (writeEnable (RPL_CTL_EN n p) (RPL_STAT_STATE n p) false)) s

/-- Is no transaction of a core routed through a port? -/
def rplIdle (s : State) (n p : Nat) : Bool := !s.txns.any (fun x => usesPort s n p x)

end Sys2Proof.Machine
end

