-- ==== Sys2Proof/Machine/Image.lean ====
section
/-! DEFINITION. Images and packages as bytes: header and directory (R60, R61), certificates (R490, R491), firmware images
(R492), slot packages (R494), bundles (R64), and checks 0x01 to 0x06 of R67. -/
namespace Sys2Proof.Machine

/-! ### Fields -/

/-- The little-endian number of `n` bytes at an offset of a byte string; bytes beyond its end read zero. -/
def num (b : List Byte) (o n : Nat) : Nat := leNat ((b.drop o).take n)

/-- `n` bytes at an offset. -/
def sub8 (b : List Byte) (o n : Nat) : List Byte := (b.drop o).take n

/-- Are `n` bytes at an offset all zero? -/
def zeroAt (b : List Byte) (o n : Nat) : Bool := (sub8 b o n).all (fun x => x == 0)

/-- What an image is expected to be. -/
inductive ImgUse where
  | full | part | afw | mfw
  deriving DecidableEq, Repr

/-- Is it a firmware image? -/
def isFw : ImgUse → Bool
  | .afw | .mfw => true
  | _ => false

abbrev hSects (b : List Byte) : Nat := num b 0x0C 2
abbrev hPart (b : List Byte) : Nat := num b 7 1
abbrev hLen (b : List Byte) : Nat := num b 8 4
abbrev hMaxDefer (b : List Byte) : Nat := num b 0x12 2
abbrev hSvn (b : List Byte) : Nat := num b 0x14 4
abbrev hSeq (b : List Byte) : Nat := num b 0x18 8
abbrev hCert (b : List Byte) : Nat := num b 0x50 4
abbrev hSig (b : List Byte) : Nat := num b 0x58 4

/-- Check 0x01 (R60, R67, R492). -/
def check01 (u : ImgUse) (b : List Byte) : Bool :=
  num b 0 4 == (if isFw u then 0x4D524946 else 0x4F504F54) && num b 4 2 == 1
    && num b 6 1 == (match u with | .full => 0 | .part => 1 | .afw => 0x10 | .mfw => 0x11)
    && (match u with
      | .full => hPart b == 0xFF && decide (1 ≤ hMaxDefer b ∧ hMaxDefer b ≤ 15) && zeroAt b 0x30 32
      | .part => decide (hPart b < 16) && hMaxDefer b == 0
      | _ => hPart b == 0 && hMaxDefer b == 0 && zeroAt b 0x30 32 && zeroAt b 0x60 32)
    && decide (hLen b ≤ (if isFw u then 0x80000 else 0x1000000)) && hLen b == b.length
    && (if isFw u then hSects b == 0 else decide (1 ≤ hSects b ∧ hSects b ≤ 64))
    && zeroAt b 0x0E 2 && zeroAt b 0x5C 4
    && hCert b % 64 == 0 && hSig b % 64 == 0 && num b 0x54 4 == 1216
    && hSig b + 384 == hLen b && decide (hCert b + 1216 ≤ hLen b)

/-! ### Certificates (R490, R491) -/

/-- Certificate bits of USAGE. -/
abbrev usTOPO : Nat := 0
abbrev usFIRMWARE : Nat := 1
abbrev usDEBUG : Nat := 2
abbrev usPRODUCTION : Nat := 5

/-- Is a certificate part of 1,216 bytes valid for a use, with CERT_SVN at or above a floor (R490, R491)? -/
def certOk (c : List Byte) (usage floor : Nat) : Bool :=
  let root := sub8 c 0 384
  let k := sub8 c 384 832
  sha256 root == Config.rootHash && num k 0 4 == 0x54524543 && num k 4 2 == 1 && decide (num k 6 2 < 64)
    && zeroAt k 0x14 12 && sub8 k 0x20 32 == Config.rootHash && bit (num k 6 2) usage
    && pssVerify (beNat root) (sub8 k 0 0x1C0) (sub8 k 0x1C0 384) && decide (floor ≤ num k 0x10 4)

/-- The certificate part of an image. -/
def certPart (b : List Byte) : List Byte := sub8 b (hCert b) 1216

/-- CERT_SVN and USAGE of a certificate part, and the modulus it certifies. -/
def certSvn (c : List Byte) : Nat := num c (384 + 0x10) 4
def certUsage (c : List Byte) : Nat := num c (384 + 6) 2
def certKey (c : List Byte) : Nat := beNat (sub8 c (384 + 0x40) 384)

/-- Check 0x03 (R66). -/
def sigOk (b : List Byte) : Bool := pssVerify (certKey (certPart b)) (sub8 b 0 (hSig b)) (sub8 b (hSig b) 384)

/-! ### Sections (R61, R62) -/

/-- A section: directory index, type, scope, bytes. -/
structure Sect where
  idx : Nat
  ty : Nat
  scope : Nat
  off : Nat
  len : Nat
  b : List Byte
  deriving DecidableEq, Repr

/-- The sections of an image, in directory order. -/
def sects (img : List Byte) : List Sect :=
  (List.range (hSects img)).map (fun i =>
    let o := 0x60 + 16 * i
    ⟨i, num img o 2, num img (o + 2) 1, num img (o + 4) 4, num img (o + 8) 4, sub8 img (num img (o + 4) 4) (num img (o + 8) 4)⟩)

abbrev tyPARTITION : Nat := 1
abbrev tyROUTE : Nat := 2
abbrev tyMEMMAP : Nat := 3
abbrev tyBANKPOWER : Nat := 4
abbrev tyINGRESS : Nat := 5
abbrev tyCLOCKS : Nat := 6
abbrev tyREGULATE : Nat := 7
abbrev tySUPERVISE : Nat := 8
abbrev tyDRAM : Nat := 9
abbrev tyKVCACHE : Nat := 10

/-- Is a type carried by the device as a whole, and by a partition (R62)? -/
def devType (t : Nat) : Bool := [2, 3, 5, 6, 7, 8, 9].contains t
def partType (t : Nat) : Bool := [1, 3, 4, 5, 6, 7, 8, 10].contains t

/-- The section of a type and scope. -/
def secOf (img : List Byte) (ty scope : Nat) : Option (List Byte) :=
  ((sects img).find? (fun x => x.ty == ty && x.scope == scope)).map (fun x => x.b)

/-- Its bytes; empty where the image carries none. -/
def secB (img : List Byte) (ty scope : Nat) : List Byte := (secOf img ty scope).getD []

/-- The next multiple of 64. -/
def up64 (n : Nat) : Nat := (n + 63) / 64 * 64

/-- The length that a section's layout gives from its own counts (check 0x06). -/
def layoutLen (x : Sect) : Nat :=
  let dev := x.scope == 0xFF
  match x.ty with
  | 1 => 32 + 8 * num x.b 4 1 + 16 * num x.b 5 1 + 48 * num x.b 6 1 + 4 * num x.b 7 1
  | 2 => 80
  | 3 => if dev then 0x50 + 16 * num x.b 0x40 1 else 0x50 + 16 * num x.b 0 1 + 16 * num x.b 1 1
  | 4 => 16 + 4 * num x.b 0x0C 2 + 4 * num x.b 0x0E 1
  | 5 => if dev then 336 else 8 + 128 * num x.b 0 1
  | 6 => if dev then 48 else 8
  | 7 => if dev then 320 else 8 + 8 * num x.b 0 1
  | 8 => if dev then up64 (0x100 + 24 * num x.b 0 1) + num x.b 4 4 else 8 + 24 * num x.b 0 1
  | 9 => 0x80 + 6400 * ((List.range 8).filter (fun p => bit (num x.b 2 1) p)).length
  | 10 => 16 + 128 * num x.b 0 1
  | _ => 0

/-- Fields of a CLOCKS section outside their range fail check 0x06 (R526); PERIOD_NS and TRIM_LIM_PPM are check 0x08's. -/
def clocksFieldsOk (x : Sect) : Bool :=
  if x.ty ≠ tyCLOCKS then true
  else if x.scope = 0xFF then
    decide (num x.b 4 1 ≤ 2 ∧ num x.b 5 1 ≤ 3 ∧ num x.b 8 1 < 32 ∧ num x.b 9 1 ≤ 5 ∧ num x.b 0x0A 1 ≤ 10 ∧ num x.b 0x0B 1 ≤ 3)
      && zeroAt x.b 0x0C 4 && zeroAt x.b 0x28 8
      && (List.range 3).all (fun p => zeroAt x.b (0x10 + 8 * p + 6) 2)
  else decide (num x.b 4 1 < 32) && zeroAt x.b 5 3

/-- How many sections of a type and scope an image carries. -/
def secCount (img : List Byte) (ty scope : Nat) : Nat := ((sects img).filter (fun x => x.ty == ty && x.scope == scope)).length

/-- Check 0x06: the failing section, 0xFF for the image as a whole. -/
def check06 (partial_ : Bool) (img : List Byte) : Option Nat :=
  let xs := sects img
  match xs.find? (fun x => !(decide (1 ≤ x.ty ∧ x.ty ≤ 10) && x.off % 64 == 0 && decide (1 ≤ x.len)
      && decide (x.off + x.len ≤ img.length) && zeroAt img (0x60 + 16 * x.idx + 3) 1 && zeroAt img (0x60 + 16 * x.idx + 12) 4
      && (partial_ || (if x.scope = 0xFF then devType x.ty else decide (x.scope < 16) && partType x.ty))
      && x.len == layoutLen x && clocksFieldsOk x)) with
  | some x => some x.idx
  | none => match (xs.zip (xs.drop 1)).find? (fun e => decide (e.2.off < e.1.off + e.1.len)) with
    | some e => some e.2.idx
    | none =>
      let okCounts := if partial_ then
          (List.range 11).all (fun t => decide ((xs.filter (fun x => x.ty == t)).length ≤ 1)) && (xs.any (fun x => x.ty == tyPARTITION))
        else ((List.range 11).filter devType).all (fun t => secCount img t 0xFF == 1)
          && (List.range 11).all (fun t => (List.range 16).all (fun p => decide (secCount img t p ≤ 1)))
      if okCounts then none else some 0xFF

/-! ### Checks 0x01 to 0x05 of an anchor die -/

/-- Order code and stepping (R67, R492). -/
def orderOk (s : State) (b : List Byte) : Bool :=
  bit (num b 0x10 1) (if s.fitted.a22 then 1 else 0) && decide (num b 0x10 1 < 4) && num b 0x11 1 == 0xB0

/-- No enabled point above the ordering code's highest (R2): XK50-A22 has no 2.6 GHz. -/
def pointsOk (s : State) (b : List Byte) : Bool :=
  !s.fitted.a22 || (sects b).all (fun x => x.ty != tyCLOCKS || !bit (if x.scope = 0xFF then num x.b 8 1 else num x.b 4 1) 0)

/-- Can anchor die `x` read its store (R499)? -/
def storeReadable (s : State) (x : Nat) : Bool := (get_stores s x).key

/-- The first failing check of 0x01 to 0x05 on anchor die `x`; 0 for none. -/
def verify (s : State) (x : Nat) (u : ImgUse) (b : List Byte) : Nat :=
  let st := get_stores s x
  if !check01 u b then 1
  else if !certOk (certPart b) (if isFw u then usFIRMWARE else usTOPO) st.certSvn then 2
  else if !sigOk b then 3
  else if !storeReadable s x || decide (hSvn b < (if isFw u then st.fwSvn else st.topoSvn)) then 4
  else if !orderOk s b || !(isFw u || pointsOk s b) then 5
  else 0

/-- Check 0x0D follows 0x05 (R67, R69): anchor A's failing check decides; anchor B's is its veto. Both dies verify the same
bytes here, so the digests agree. -/
def verifyBoth (s : State) (u : ImgUse) (b : List Byte) : Nat :=
  let a := verify s 0 u b
  if a ≠ 0 then a else if verify s 1 u b ≠ 0 then 0x0D else 0

/-! ### Slot packages (R494) -/

/-- The three images of a package. -/
def pkgAfw (b : List Byte) : List Byte := sub8 b (num b 8 4) (num b 0xC 4)
def pkgMfw (b : List Byte) : List Byte := sub8 b (num b 0x10 4) (num b 0x14 4)
def pkgTopo (b : List Byte) : List Byte := sub8 b (num b 0x18 4) (num b 0x1C 4)

/-- Is the header of a slot package well formed (R494)? -/
def pkgOk (b : List Byte) : Bool :=
  let e (o : Nat) : Nat × Nat := (num b o 4, num b (o + 4) 4)
  let parts := [e 8, e 0x10, e 0x18]
  num b 0 4 == 0x544F4C53 && num b 4 2 == 1 && zeroAt b 6 2 && zeroAt b 0x20 32
    && parts.all (fun q => q.1 % 64 == 0 && decide (0x40 ≤ q.1 ∧ 1 ≤ q.2 ∧ q.1 + q.2 ≤ b.length))
    && decide ((e 8).2 ≤ 0x80000 ∧ (e 0x10).2 ≤ 0x80000 ∧ (e 0x18).2 ≤ 0x1000000)
    && num b 0x1C 4 == hLen (pkgTopo b)
    && (List.range 3).all (fun i => (List.range 3).all (fun j =>
      i == j || decide ((parts.getD i (0, 0)).1 + (parts.getD i (0, 0)).2 ≤ (parts.getD j (0, 0)).1
        ∨ (parts.getD j (0, 0)).1 + (parts.getD j (0, 0)).2 ≤ (parts.getD i (0, 0)).1)))

/-! ### Bundles (R64) -/

/-- Segment entries of a bundle: SRC_OFF, LEN, DST. -/
def bunSegs (b : List Byte) : List (Nat × Nat × Nat) :=
  (List.range (num b 0x0C 2)).map (fun i => let o := 64 + 16 * i; (num b o 4, num b (o + 4) 4, num b (o + 8) 8))

/-- Core entries: CORE, ENTRY_OFF, THREADS. -/
def bunCores (b : List Byte) : List (Nat × Nat × Nat) :=
  (List.range (num b 0x0E 2)).map (fun i =>
    let o := 64 + 16 * num b 0x0C 2 + 16 * i
    (num b o 2, num b (o + 4) 4, num b (o + 8) 8))

/-- The parts of the header check of R65 that the bundle alone decides. -/
def bunHeadOk (b : List Byte) : Bool :=
  let nseg := num b 0x0C 2
  let ncore := num b 0x0E 2
  num b 0 4 == 0x4C444E42 && num b 4 2 == 1 && zeroAt b 7 1 && zeroAt b 0x20 32
    && decide (num b 6 1 < 16 ∧ 1 ≤ nseg ∧ nseg ≤ 4096 ∧ 1 ≤ ncore ∧ ncore ≤ 256 ∧ 64 + 16 * nseg + 16 * ncore ≤ b.length)
    && (List.range ncore).all (fun i => zeroAt b (64 + 16 * nseg + 16 * i + 2) 2)
    && (bunSegs b).all (fun e => e.1 % 64 == 0 && e.2.1 % 64 == 0 && decide (64 ≤ e.2.1 ∧ e.1 + e.2.1 ≤ b.length) && e.2.2 % 64 == 0)
    && (bunCores b).all (fun e => decide (e.1 < 256) && bit (num b 8 4) (4 * (e.1 / 32) + e.1 % 32 / 8)
      && decide (e.2.1 + 256 ≤ 0x100000))
    && (bunCores b).zipIdx.all (fun e => (bunCores b).zipIdx.all (fun f => e.2 == f.2 || e.1.1 != f.1.1))

end Sys2Proof.Machine
end

