-- ==== Sys2Proof/Machine/Structure.lean ====
section
/-! DEFINITION. The structure that an image gives, or a partial image leaves, and the checks of R67 that judge it: sections
and ownership (0x07), periods (0x08), task entries (0x09), scope (0x0C). -/
namespace Sys2Proof.Machine

/-- An image under check: the partition of a partial image, and the bytes. -/
structure Im where
  part : Option Nat
  b : List Byte
  deriving DecidableEq, Repr

/-! ### What each partition would own -/

/-- Entries of a section's table. -/
def entries (b : List Byte) (off size n : Nat) : List (List Byte) := (List.range n).map (fun i => sub8 b (off + size * i) size)

/-- Cluster, lend, bundle and channel entries of a PARTITION section (R265). -/
def pClus (b : List Byte) : List (List Byte) := entries b 32 8 (num b 4 1)
def pLends (b : List Byte) : List (List Byte) := entries b (32 + 8 * num b 4 1) 16 (num b 5 1)
def pBuns (b : List Byte) : List (List Byte) := entries b (32 + 8 * num b 4 1 + 16 * num b 5 1) 48 (num b 6 1)
def pChans (b : List Byte) : List (List Byte) :=
  entries b (32 + 8 * num b 4 1 + 16 * num b 5 1 + 48 * num b 6 1) 4 (num b 7 1)

/-- Die and cluster, bank or channel that an entry begins with. -/
def pair (e : List Byte) : Nat × Nat := (num e 0 1, num e 1 1)

/-- The section of a partition, or what the running structure says where a partial image has none. -/
def viewOr {α : Type} (im : Im) (ty p : Nat) (f : List Byte → α) (running none_ : α) : α :=
  match secOf im.b ty p with
  | some b => f b
  | none => if im.part.isSome then running else none_

/-- Is partition `p` defined in the resulting structure? -/
def vDef (s : State) (im : Im) (p : Nat) : Bool :=
  viewOr im tyPARTITION p (fun _ => true) (partDefined s p) false

/-- Clusters that partition `p` owns in the resulting structure. -/
def vClus (s : State) (im : Im) (p : Nat) : List (Nat × Nat) :=
  viewOr im tyPARTITION p (fun b => (pClus b).map pair)
    (((List.range 32).map (fun i => (i / 4, i % 4))).filter (fun c => getF s (PRT_CLU_PART c.1 c.2) == p)) []

/-- Channels of partition `p`. -/
def vChans (s : State) (im : Im) (p : Nat) : List (Nat × Nat) :=
  viewOr im tyPARTITION p (fun b => (pChans b).map pair) (channelsOf s p) []

/-- Base level of partition `p`. -/
def vLevel (s : State) (im : Im) (p : Nat) : Nat :=
  viewOr im tyPARTITION p (fun b => num b 0 1) (getF s (PRT_CFG_LEVEL p)) 0

/-- Does partition `p` own bank `b` of die `d`? -/
def vBank (s : State) (im : Im) (p d b : Nat) : Bool :=
  viewOr im tyMEMMAP p (fun x => bit (num x (0x10 + 8 * d) 8) b) (getF s (MAP_BNK_OWN_PART d b) == p) false

/-- Regions of running slots with a given owner: base and length in bytes. -/
def runRegions (s : State) (p : Nat) : List (Nat × Nat) :=
  ((List.range 64).filter (fun r => getF s (MAP_REG_CFG_LEN_2M r) != 0 && getF s (MAP_REG_CFG_PART r) == p)).map
    (fun r => (rd64 s (MAP_REG_BASE r), getF s (MAP_REG_CFG_LEN_2M r) * 0x200000))

/-- Region entries of a MEMMAP section. -/
def mRegs (x : List Byte) (dev : Bool) : List (List Byte) := entries x 0x50 16 (num x (if dev then 0x40 else 0) 1)

/-- Window entries of a partition's MEMMAP section. -/
def mWins (x : List Byte) : List (List Byte) := entries x (0x50 + 16 * num x 0 1) 16 (num x 1 1)

/-- Base and length of a region entry. -/
def regSpan (e : List Byte) : Nat × Nat := (num e 0 8, num e 8 4 * 0x200000)

/-- Regions of partition `p`, or of no partition (0x1F). -/
def vRegions (s : State) (im : Im) (p : Nat) : List (Nat × Nat) :=
  viewOr im tyMEMMAP (if p = 0x1F then 0xFF else p) (fun x => (mRegs x (p == 0x1F)).map regSpan) (runRegions s p) []

/-- Does partition `p` own every byte of a range in the resulting structure? -/
def vOwns (s : State) (im : Im) (p a len : Nat) : Bool :=
  if len = 0 then true
  else if a < s.fitted.dramTop then (vRegions s im p).any (fun r => decide (r.1 ≤ a ∧ a + len ≤ r.1 + r.2))
  else match windowDie a with
    | none => false
    | some d =>
      let o := a % 0x10000000
      if o + len ≤ 0x4000000 then
        (List.range 64).all (fun b => decide (b < o / 0x100000 ∨ (o + len - 1) / 0x100000 < b) || vBank s im p d b)
      else if 0x4000000 ≤ o ∧ o + len ≤ 0x6000000 then
        (List.range 32).all (fun c => decide (c < (o - 0x4000000) / 0x100000 ∨ (o + len - 1 - 0x4000000) / 0x100000 < c)
          || (vClus s im p).contains (d, c / 8))
      else if 0x8000000 ≤ o ∧ o + len ≤ 0xA000000 then
        (List.range 32).all (fun c => decide (c < (o - 0x8000000) / 0x100000 ∨ (o + len - 1 - 0x8000000) / 0x100000 < c)
          || (vClus s im p).contains (d, c / 8))
      else false

/-- PERIOD_NS in force after the image. -/
def vPeriod (s : State) (im : Im) : Nat :=
  if im.part.isSome then period s else num (secB im.b tyCLOCKS 0xFF) 0 4

/-- P − 200 µs in µs. -/
def vLimit (s : State) (im : Im) : Nat := (vPeriod s im - 200000) / 1000

/-- Points that the device enables, and a partition's (R526). -/
def vOpDev (s : State) (im : Im) : Nat :=
  if im.part.isSome then getF s CLK_OP_EN_EN else num (secB im.b tyCLOCKS 0xFF) 8 1
def vOp (s : State) (im : Im) (p : Nat) : Nat :=
  viewOr im tyCLOCKS p (fun b => num b 4 1) (opEnOf s p) (vOpDev s im)

/-- The two points that a mask's partition needs: its highest and the next below (R513). -/
def twoPoints (m : Nat) : List Nat := ((List.range 5).filter (fun k => bit m k)).take 2

/-- Points that die `d` needs below the fabric point, fastest first (R513). -/
def pllNeeds (s : State) (im : Im) (d : Nat) : List Nat :=
  let fab := ((twoPoints (vOpDev s im))[0]?).getD 4
  (List.range 5).filter (fun k => k != fab && (List.range 16).any (fun p =>
    vDef s im p && (vClus s im p).any (fun c => c.1 == d) && (twoPoints (vOp s im p)).contains k))

/-- Context entries of an INGRESS section, and the words of a running context (R361, R363). -/
def iCtxs (b : List Byte) : List (List Byte) := entries b 8 128 (num b 0 1)
def runCtx (s : State) (x : Nat) : List Byte := ((List.range 32).map (fun i => leBytes 4 (rd s (ING_CTX_ENTRY x i)))).flatten

/-- Context entries in the resulting structure, with their owners. -/
def vCtxs (s : State) (im : Im) : List (Nat × List Byte) :=
  ((List.range 16).map (fun p => viewOr im tyINGRESS p (fun b => (iCtxs b).map (fun e => (p, e)))
    (((List.range 24).filter (fun x => (ctx s x).part == p)).map (fun x => (p, runCtx s x))) [])).flatten

/-- Cache entries in the resulting structure, with their owners (R217). -/
def kEntries (b : List Byte) : List (List Byte) := entries b 16 128 (num b 0 1)
def runCache (s : State) (c : Nat) : List Byte :=
  ((List.range 32).map (fun i => leBytes 4 (rd s (KVC_C_ENTRY (kv s c).home c i)))).flatten
def vCaches (s : State) (im : Im) : List (Nat × List Byte) :=
  ((List.range 16).map (fun p => viewOr im tyKVCACHE p (fun b => (kEntries b).map (fun e => (p, e)))
    (((List.range 16).filter (fun c => (kv s c).owner == p)).map (fun c => (p, runCache s c))) [])).flatten

/-- A task entry of a SUPERVISE section (R458). -/
def taskEnt (e : List Byte) : TaskEnt :=
  ⟨num e 0 1, num e 1 1, num e 2 1, bit (num e 3 1) 0, num e 4 4, num e 8 4, num e 0xC 4, num e 0x10 2⟩

/-- Task entries as a section holds them. -/
def sTasks (b : List Byte) (dev : Bool) : List (List Byte) := if dev then entries b 0x100 24 (num b 0 1) else entries b 8 24 (num b 0 1)

/-- Is a task of an owner the device-wide section lists? -/
def devOwner (o : Nat) : Bool := decide (16 ≤ o)

/-- Task entries in the resulting structure. -/
def vTasks (s : State) (im : Im) : List TaskEnt :=
  (viewOr im tySUPERVISE 0xFF (fun b => (sTasks b true).map taskEnt) (s.supTasks.filter (fun t => devOwner t.owner)) [])
    ++ ((List.range 16).map (fun p => viewOr im tySUPERVISE p (fun b => (sTasks b false).map taskEnt)
        (s.supTasks.filter (fun t => t.owner == p)) [])).flatten

/-! ### Check 0x07, section by section -/

/-- Does a list repeat nothing? -/
def nodup {α : Type} [DecidableEq α] : List α → Bool
  | [] => true
  | x :: xs => !xs.contains x && nodup xs

/-- Do two ranges (start, length) overlap? -/
def meets (a b : Nat × Nat) : Bool := decide (a.1 < b.1 + b.2 ∧ b.1 < a.1 + a.2)

/-- Are ranges disjoint? -/
def disjoint : List (Nat × Nat) → Bool
  | [] => true
  | a :: as => as.all (fun b => !meets a b) && disjoint as

/-- A PARTITION section (R245, R247, R250, R255, R265, R269). -/
def partitionOk (s : State) (im : Im) (p : Nat) (b : List Byte) : Bool :=
  let lv := num b 0 1
  decide (1 ≤ lv ∧ lv ≤ 3 ∧ num b 1 1 ≤ 1) && (num b 1 1 == 0 || lv != 1) && decide (num b 2 1 ≤ 15)
    && decide (1 ≤ num b 3 1 ∧ num b 3 1 ≤ lv) && (num b 2 1 != 0 || num b 3 1 == lv)
    && decide (1 ≤ num b 4 1 ∧ num b 4 1 ≤ 32 ∧ num b 5 1 ≤ num b 4 1 ∧ 1 ≤ num b 6 1 ∧ num b 6 1 ≤ 16 ∧ num b 7 1 ≤ 64)
    && zeroAt b 8 24
    && (pClus b).all (fun e =>
      decide (num e 0 1 < 8 ∧ num e 1 1 < 4 ∧ num e 2 1 < 64 ∧ num e 3 1 ≤ 1 ∧ 1 ≤ num e 4 2 ∧ num e 4 2 ≤ 321) && zeroAt e 6 2
        && (num e 3 1 == 0 || (decide (num e 2 1 * 256 + 8 * num e 4 2 ≤ 64 * 256) && (List.range 64).all (fun k =>
          decide (k < num e 2 1 ∨ num e 2 1 * 256 + 8 * num e 4 2 ≤ k * 256) || vBank s im p (num e 0 1) k))))
    && nodup ((pLends b).map pair)
    && (pLends b).all (fun e =>
      let bor := num e 2 1
      (pClus b).any (fun c => pair c == pair e && num c 3 1 == 1)
        && decide (bor < 16 ∧ 1 ≤ num e 3 1 ∧ num e 3 1 ≤ 15 ∧ 0 < num e 4 4 ∧ num e 4 4 < num e 8 4 ∧ num e 8 4 ≤ vLimit s im)
        && zeroAt e 0xC 4 && decide (vLevel s im bor < lv))
    && (pBuns b).all (fun e => zeroAt e 0x2C 4 && decide (num e 0x20 8 + num e 0x28 4 ≤ s.fitted.dramTop))
    && (pChans b).all (fun e => (decide (num e 0 1 < 8 ∧ num e 1 1 < 16) || (num e 0 1 == 8 && decide (num e 1 1 < 28))) && zeroAt e 2 2)

/-- The ROUTE section (R97). -/
def routeOk (s : State) (im : Im) (b : List Byte) : Bool :=
  let en (d p : Nat) : Bool := bit (num b (0x48 + d) 1) p
  let ok (d t r : Nat) : Bool :=
    match r with
    | 0 => ringNext d false == t && en d 0 && en t 1
    | 1 => ringNext d true == t && en d 1 && en t 0
    | 2 => en d 2 && en d 3 && en t 2 && en t 3
    | _ => true
  let role := if im.part.isSome then getF s PCH_CFG_ROLE else num (secB im.b tyCLOCKS 0xFF) 4 1
  decide (num b 0 1 ≤ 1) && zeroAt b 1 3 && decide (4096 ≤ num b 4 4 ∧ num b 4 4 ≤ 1048576) && (num b 0 1 == 0 || role != 0)
    && (List.range 64).all (fun i =>
      let v := num b (8 + i) 1
      if i / 8 = i % 8 then v == 0 else decide (v < 16) && ok (i / 8) (i % 8) (v % 4) && ok (i / 8) (i % 8) (v / 4))

/-- A region entry (R580). -/
def regionOk (s : State) (e : List Byte) : Bool :=
  num e 0 8 % 0x200000 == 0 && decide (1 ≤ num e 8 4 ∧ num e 0 8 + num e 8 4 * 0x200000 ≤ s.fitted.dramTop)
    && decide (num e 0xC 1 ≤ 1) && zeroAt e 0xD 3

/-- A window entry of partition `p` (R292). -/
def windowOk (s : State) (im : Im) (p : Nat) (e : List Byte) : Bool :=
  let w := num e 1 1
  decide (num e 0 1 ≤ 1 ∧ w < 64) && zeroAt e 3 1 && zeroAt e 0xA 6
    && (if num e 0 1 = 1 then (num e 2 1 == 0 || num e 2 1 == 4) && zeroAt e 4 4
      else decide (num e 2 1 < 16 ∧ 1 ≤ num e 6 2 ∧ num e 4 2 + num e 6 2 ≤ 16384)
        && (List.range 64).all (fun b => decide (b < num e 4 2 / 256 ∨ (num e 4 2 + num e 6 2 - 1) / 256 < b) || vBank s im p (w / 8) b))

/-- A MEMMAP section (R477, R580). -/
def memmapOk (s : State) (im : Im) (p : Nat) (b : List Byte) : Bool :=
  if p = 0xFF then
    decide (num b 0x40 1 ≤ 64) && zeroAt b 0x41 15 && (mRegs b true).all (regionOk s)
      && (List.range 8).all (fun d => (List.range 64).all (fun k => !bit (num b (8 * d) 8) k ||
        (List.range 16).any (fun q => vBank s im q d k && vBank s im q (partner d) k)))
  else decide (num b 0 1 ≤ 16 ∧ num b 1 1 ≤ 8) && zeroAt b 2 14 && (mRegs b false).all (regionOk s) && (mWins b).all (windowOk s im p)

/-- A BANKPOWER section (R182, R582). -/
def bankpowerOk (s : State) (im : Im) (p : Nat) (b : List Byte) : Bool :=
  let offs := [num b 0 4, num b 4 4, num b 8 4]
  let present := (List.range 4).filter (fun k => k == 0 || offs.getD (k - 1) 0 != 0)
  let starts := (present.filter (fun k => k != 0)).map (fun k => offs.getD (k - 1) 0)
  let banks := entries b 16 4 (num b 0xC 2)
  let clus := entries b (16 + 4 * num b 0xC 2) 4 (num b 0xE 1)
  let st (e : List Byte) (k : Nat) : Nat := bits (num e 2 1) (2 * k + 1) (2 * k)
  decide (num b 0xC 2 ≤ 512 ∧ num b 0xE 1 ≤ 32) && zeroAt b 0xF 1
    && starts.all (fun v => decide (v ≤ 99800)) && (starts.zip (starts.drop 1)).all (fun q => decide (q.1 < q.2))
    && banks.all (fun e => decide (num e 0 1 < 8 ∧ num e 1 1 < 64 ∧ num e 3 1 ≤ 1) && vBank s im p (num e 0 1) (num e 1 1)
      && present.all (fun k => st e k != 3)
      && (present.zip (present.drop 1 ++ [0])).all (fun q => !(st e q.1 == 0 && st e q.2 == 1)))
    && nodup (banks.map pair)
    && clus.all (fun e => decide (num e 0 1 < 8 ∧ num e 1 1 < 4 ∧ num e 2 1 ≤ 1) && zeroAt e 3 1 && (vClus s im p).contains (pair e))
    && nodup (clus.map pair)

/-- The device-wide INGRESS section (R360). A port, MAC or SPI entry that is off has no range to keep. -/
def ingressDevOk (b : List Byte) : Bool :=
  zeroAt b 0 16
    && (entries b 16 16 8).all (fun e => decide (num e 0 1 ≤ 2) && zeroAt e 5 11 && (num e 0 1 == 0 ||
      (decide (1 ≤ num e 1 1 ∧ num e 1 1 ≤ (if num e 0 1 = 1 then 4 else 3) ∧ 80 ≤ num e 2 2
        ∧ num e 2 2 ≤ (if num e 0 1 = 1 then 4500 else 6000) ∧ num e 4 1 < 16))))
    && (entries b 144 16 4).all (fun e => decide (num e 0 1 ≤ 2 ∧ num e 1 1 ≤ 1 ∧ num e 2 1 ≤ 1) && zeroAt e 3 5 && zeroAt e 0xE 2)
    && (entries b 208 32 4).all (fun e => decide (num e 0 1 ≤ 1) && zeroAt e 6 10 && (num e 0 1 == 0 ||
      decide (num e 1 1 ≤ 3 ∧ 1000 ≤ num e 2 2 ∧ num e 2 2 ≤ 24000 ∧ 1 ≤ num e 4 1 ∧ num e 4 1 ≤ 16 ∧ 1 ≤ num e 5 1 ∧ num e 5 1 ≤ 32)))

/-- PHY and VC_MASK of CSI-2 port `k`, MODE and USE of MAC `m`, in the resulting structure. -/
def vCsi (s : State) (im : Im) (k : Nat) : Nat × Nat :=
  let e := if im.part.isSome then sub8 s.load.csi (16 * k) 16 else sub8 (secB im.b tyINGRESS 0xFF) (16 + 16 * k) 16
  (num e 0 1, num e 4 1)
def vMac (s : State) (im : Im) (m : Nat) : Nat × Nat :=
  if im.part.isSome then (getF s (ETH_ADDR_HI_MODE m), getF s (ETH_ADDR_HI_USE m))
  else let e := sub8 (secB im.b tyINGRESS 0xFF) (144 + 16 * m) 16; (num e 0 1, num e 1 1)

/-- Bytes of a camera output in format `fmt` at level `lvl` (R189, R346). -/
def outSize (e : List Byte) (fmt lvl : Nat) : Nat :=
  let sd := max 1 (num e 0x68 1)
  let w := pyrDim (num e 0x60 2) lvl
  let h := pyrDim (num e 0x62 2) lvl
  match fmt with
  | 0 | 1 => (3 * sd * sd + 31) / 32 * (w / sd) * (h / sd) * 32
  | 2 => (3 * sd * sd + 15) / 16 * (w / sd) * (h / sd) * 32
  | 3 => w * h * 4
  | 4 => w * h
  | _ => num e 0x40 2 * num e 0x42 2 * 2

/-- A context entry of partition `p` (R340, R361, R362). -/
def contextOk (s : State) (im : Im) (p : Nat) (e : List Byte) : Bool :=
  let cam := num e 1 1 == 0
  let fl := num e 0xA 2
  let src := num e 2 1
  let owns (a n : Nat) : Bool := vOwns s im p a n
  decide (num e 0 1 < 24 ∧ num e 1 1 ≤ 1 ∧ fl < 16) && decide (1000 ≤ num e 0x14 4 ∧ num e 0x14 4 ≤ vLimit s im)
    && [0x18, 0x19, 0x1A].all (fun o => decide (1 ≤ num e o 1 ∧ num e o 1 ≤ 16)) && (!bit fl 1 || decide (num e 0x1B 1 < 24))
    && zeroAt e 0x1C 4 && num e 0x28 8 % 64 == 0 && num e 0x30 8 % 64 == 0 && num e 0x38 8 % 64 == 0
    && owns (num e 0x20 8) 8 && owns (num e 0x28 8) 64
    && (num e 3 1 == 0xFF || (cam && decide (num e 3 1 < 16 ∧ 1 ≤ num e 8 2 ∧ num e 8 2 ≤ 1000 ∧ num e 4 4 + num e 8 2 ≤ vLimit s im)))
    && (if cam then
      let lim (o : Nat) : Bool := decide (64 ≤ num e o 2 ∧ num e o 2 ≤ 4096)
      let b := num e 0x6A 2
      let o1 := num e 0x67 1
      decide (src < 32) && (vCsi s im (src % 8)).1 != 0 && bit (vCsi s im (src % 8)).2 (src / 8)
        && lim 0x40 && lim 0x42 && [0x2A, 0x2B, 0x2C, 0x2D, 0x1E].contains (num e 0x44 1) && decide (num e 0x45 1 < 8)
        && decide (num e 0x66 1 ≤ 4 ∧ o1 % 16 ≤ 5 ∧ 1 ≤ b ∧ b ≤ 4096)
        && decide ((pyrDim (num e 0x62 2) (num e 0x65 1) / max 1 (num e 0x68 1) + b - 1) / b ≤ 254)
        && !(bit fl 0 && num e 0x6C 2 == 1) && zeroAt e 0x70 16
        && owns (num e 0x30 8) (outSize e (num e 0x66 1) (num e 0x65 1))
        && (!bit fl 3 || owns (num e 0x38 8) (outSize e (o1 % 16) (o1 / 16)))
        && owns (num e 0x48 8) 1 && owns (num e 0x50 8) 1
    else decide (src < 4) && (vMac s im src).1 != 0 && decide (num e 0x46 2 ≤ 512)
        && decide (num e 0x4E 1 ≤ 1) && decide (10000 ≤ num e 0x5C 4 ∧ num e 0x5C 4 ≤ 200000)
        && decide (64 ≤ num e 0x6C 2 ∧ num e 0x6C 2 ≤ 1024 ∧ 64 ≤ num e 0x6E 2 ∧ num e 0x6E 2 ≤ 1024)
        && decide (50 ≤ num e 0x70 2 ∧ num e 0x70 2 ≤ 1000) && [1, 2, 4, 8].contains (num e 0x7A 1) && zeroAt e 0x7B 5
        && owns (num e 0x30 8) (num e 0x6C 2 * num e 0x6E 2 * 32) && owns (num e 0x60 8) (num e 0x68 4 * 32)
        && (!bit fl 3 || owns (num e 0x38 8) 1))

/-- Partitions whose resources check 0x07 compares: those of the image. What another partition owns in the running
structure is check 0x0C's (R67). -/
def imParts (im : Im) : List Nat :=
  match im.part with
  | some p => [p]
  | none => List.range 16

/-- Contexts that share what belongs to one (R244, R362). -/
def contextsApart (s : State) (im : Im) : Bool :=
  let xs := (vCtxs s im).map (fun e => e.2)
  let own := ((vCtxs s im).filter (fun e => (imParts im).contains e.1)).map (fun e => e.2)
  nodup (own.map (fun e => num e 0 1))
    && nodup ((xs.filter (fun e => num e 1 1 == 0)).map (fun e => num e 2 1 % 32))
    && nodup ((xs.filter (fun e => num e 1 1 == 1)).map (fun e => (num e 2 1 % 4, num e 0x40 2)))
    && nodup ((own.filter (fun e => num e 3 1 != 0xFF)).map (fun e => num e 3 1))
    && nodup ((xs.filter (fun e => bit (num e 0xA 2) 1)).map (fun e => num e 0x1B 1))

/-- A REGULATE channel entry. -/
def regChOk (e : List Byte) : Bool := decide (1 ≤ num e 2 1 ∧ num e 2 1 ≤ 64) && zeroAt e 3 1 && zeroAt e 6 2

/-- A REGULATE section (R310, R311). -/
def regulateOk (s : State) (im : Im) (p : Nat) (b : List Byte) : Bool :=
  if p = 0xFF then
    ((entries b 0 16 18).zipIdx).all (fun q =>
      let e := q.1
      let k := q.2
      if k = 14 ∨ k = 15 then zeroAt e 0 16
      else decide (1 ≤ num e 0 1 ∧ num e 0 1 ≤ 3 ∧ num e 1 1 ≤ 1 ∧ num e 4 2 ≤ num e 6 2 ∧ num e 6 2 ≤ 512
          ∧ num e 4 2 ≤ num e 2 2 ∧ num e 2 2 ≤ num e 6 2)
        && (!(decide (8 ≤ k ∧ k ≤ 10)) || num e 0 1 == 1) && zeroAt e 0xA 6)
      && ((entries b 288 8 4).zipIdx).all (fun q => pair q.1 == (8, 28 + q.2) && regChOk q.1)
  else decide (num b 0 1 ≤ 64) && zeroAt b 1 7 && (entries b 8 8 (num b 0 1)).all (fun e => (vChans s im p).contains (pair e) && regChOk e)

/-- Size of the spotter copy of a context (R443). -/
def spotSize (e : List Byte) : Nat :=
  if num e 1 1 = 0 then pyrDim (num e 0x60 2) (num e 0x69 1) * pyrDim (num e 0x62 2) (num e 0x69 1)
  else (num e 0x6C 2 / max 1 (num e 0x7A 1)) * (num e 0x6E 2 / max 1 (num e 0x7A 1))

/-- The buffer table of the device-wide SUPERVISE section (R459, code 0x07). -/
def buffersOk (s : State) (im : Im) (b : List Byte) : Bool :=
  let es := (entries b 0x80 4 24).filter (fun e => num e 1 1 != 0)
  es.all (fun e => decide (num e 0 1 + num e 1 1 ≤ 256) &&
      (vCtxs s im).any (fun c => num c.2 0 1 == num e 2 1 && bit (num c.2 0xA 2) 1 && decide (16 + spotSize c.2 ≤ num e 1 1 * 4096)))
    && disjoint (es.map (fun e => (num e 0 1, num e 1 1)))

/-- The DRAM section (R337). -/
def dramSecOk (b : List Byte) : Bool :=
  decide (num b 0 1 ≤ 2 ∧ num b 1 1 ≤ 2 ∧ num b 2 1 < 8) && (List.range 3).all (fun p => !bit (num b 2 1) p || decide (num b 0 1 ≤ p))
    && decide (num b 3 1 < 3 ∧ num b 4 1 < 3) && bit (num b 2 1) (num b 3 1) && bit (num b 2 1) (num b 4 1)
    && decide (1 ≤ num b 5 1 ∧ num b 5 1 ≤ 64 ∧ 512 ≤ num b 6 2 ∧ num b 6 2 ≤ 32768 ∧ 1 ≤ num b 8 2 ∧ num b 8 2 ≤ 1000)
    && zeroAt b 0xC 52

/-- Ranges of memory of a cache entry: pools, records, tree, tokens (R217, R228, R233). -/
def cacheRanges (e : List Byte) : List (Nat × Nat) :=
  let nd := num e 3 1
  let pages := num e 0x18 2
  let handles := if num e 2 1 = 1 then pages * nd else pages
  let share := bit (num e 0x16 1) 0
  (List.range nd).map (fun i => (num e (0x20 + 8 * i) 8, pages * 2 ^ num e 0x17 1))
    ++ [(num e 0x60 8, (num e 0x15 1 + 1) * 2048)]
    ++ (if share then [(num e 0x68 8, kvTreeMax (num e 0 1) * 32), (num e 0x70 8, 1024 * handles)] else [])

/-- A cache entry of partition `p` (R216, R217, R220). -/
def cacheOk (s : State) (im : Im) (p : Nat) (e : List Byte) : Bool :=
  let nd := num e 3 1
  let heads := num e 0xC 2
  let dim := num e 0xE 2
  let share := bit (num e 0x16 1) 0
  let mir := bit (num e 0x16 1) 1
  let inSm (r : Nat × Nat) (d : Nat) : Bool := windowDie r.1 == some d && decide (r.1 % 0x10000000 + r.2 ≤ 0x4000000)
  let rs := cacheRanges e
  decide (num e 0 1 < 16 ∧ num e 1 1 < 8 ∧ num e 2 1 ≤ 1 ∧ 1 ≤ nd ∧ nd ≤ 8)
    && (List.range 8).all (fun i => if i < nd then decide (num e (4 + i) 1 < 8) else num e (4 + i) 1 == 0xFF)
    && decide (1 ≤ heads ∧ heads ≤ 256 ∧ 32 ≤ dim ∧ dim ≤ 256) && dim % 32 == 0 && (num e 2 1 == 1 || heads % nd == 0)
    && [0, 3, 4, 0xC].contains (num e 0x10 1) && zeroAt e 0x11 1 && decide (num e 0x12 1 ≤ 1)
    && decide (num e 0x14 1 + num e 0x15 1 ≤ 255 ∧ num e 0x16 1 < 4 ∧ 12 ≤ num e 0x17 1 ∧ num e 0x17 1 ≤ 20)
    && decide (1 ≤ num e 0x18 2 ∧ num e 0x18 2 ≤ 4096) && zeroAt e 0x1A 6
    && (List.range nd).all (fun i => num e (0x20 + 8 * i) 8 % 2 ^ num e 0x17 1 == 0
      && (inSm (rs.getD i (0, 0)) (num e (4 + i) 1) || (!mir && decide (num e (0x20 + 8 * i) 8 < s.fitted.dramTop))))
    && decide ((if num e 2 1 = 1 then heads else heads / nd) * slotBytes (num e 0x10 1) dim ≤ 2 ^ num e 0x17 1)
    && (share || num e 0x70 8 == 0)
    && (rs.drop nd).all (fun r => inSm r (num e 1 1) || (!mir && decide (r.1 < s.fitted.dramTop)))
    && rs.all (fun r => vOwns s im p r.1 r.2 && (!mir || vOwns s im p (mirrorAddr r.1) r.2))

/-- Caches that share what belongs to one (R216, R217, R220). -/
def cachesApart (s : State) (im : Im) : Bool :=
  let xs := (vCaches s im).map (fun e => e.2)
  let own := ((vCaches s im).filter (fun e => (imParts im).contains e.1)).map (fun e => e.2)
  nodup (own.map (fun e => num e 0 1))
    && disjoint (xs.map (fun e => (num e 0x14 1, num e 0x15 1 + 1)))
    && (List.range xs.length).all (fun i => (List.range xs.length).all (fun j => i == j ||
      (cacheRanges (xs.getD i [])).all (fun a => (cacheRanges (xs.getD j [])).all (fun b => !meets a b))))

/-- A KVCACHE section. -/
def kvcacheOk (s : State) (im : Im) (p : Nat) (b : List Byte) : Bool :=
  decide (1 ≤ num b 0 1 ∧ num b 0 1 ≤ 4) && zeroAt b 1 15 && (kEntries b).all (cacheOk s im p)

/-- A partition's CLOCKS section: OP_EN not empty and within the device-wide one (R526). -/
def clocksPartOk (s : State) (im : Im) (b : List Byte) : Bool :=
  num b 4 1 != 0 && (List.range 5).all (fun k => !bit (num b 4 1) k || bit (vOpDev s im) k)

/-- The part of check 0x07 that one section decides. -/
def sect07 (s : State) (im : Im) (x : Sect) : Bool :=
  match x.ty with
  | 1 => partitionOk s im x.scope x.b
  | 2 => routeOk s im x.b
  | 3 => memmapOk s im x.scope x.b
  | 4 => bankpowerOk s im x.scope x.b
  | 5 => if x.scope = 0xFF then ingressDevOk x.b
    else decide (num x.b 0 1 ≤ 24) && zeroAt x.b 1 7 && (iCtxs x.b).all (contextOk s im x.scope)
  | 6 => x.scope == 0xFF || clocksPartOk s im x.b
  | 7 => regulateOk s im x.scope x.b
  | 8 => x.scope != 0xFF || buffersOk s im x.b
  | 9 => dramSecOk x.b
  | 10 => kvcacheOk s im x.scope x.b
  | _ => false

/-- The parts of check 0x07 that the image decides as a whole: nothing owned by two partitions (R244), at most 64 regions
that do not overlap (R580), windows declared once (R292), at most three points on a die (R513). -/
def cross07 (s : State) (im : Im) : Bool :=
  let ps := imParts im
  let regs := ((0x1F :: ps).map (vRegions s im)).flatten
  let total := ((0x1F :: List.range 16).map (fun p => (vRegions s im p).length)).foldl (· + ·) 0
  let wins := ((List.range 16).map (fun p => viewOr im tyMEMMAP p (fun b => ((mWins b).filter (fun e => num e 0 1 == 0)).map (fun e => num e 1 1))
    ((s.load.wins.filter (fun w => w.owner == p && !w.peer)).map (fun w => w.win)) [])).flatten
  nodup ((ps.map (vClus s im)).flatten) && nodup ((ps.map (vChans s im)).flatten)
    && (List.range 512).all (fun i => decide ((ps.filter (fun p => vBank s im p (i / 64) (i % 64))).length ≤ 1))
    && disjoint regs && decide (total ≤ 64) && nodup wins && contextsApart s im && cachesApart s im
    && (List.range 8).all (fun d => decide ((pllNeeds s im d).length ≤ 2))

/-- Check 0x07: the failing section. -/
def check07 (s : State) (im : Im) : Option Nat :=
  match (sects im.b).find? (fun x => !sect07 s im x) with
  | some x => some x.idx
  | none => if cross07 s im then none else some 0xFF

/-! ### Check 0x08 -/

/-- A valid period (R38). -/
def periodOk (v : Nat) : Bool := v == 33333333 || (v % 1000 == 0 && decide (10000000 ≤ v ∧ v ≤ 100000000))

/-- Check 0x08 (R36, R38, R39). -/
def check08 (s : State) (im : Im) : Option Nat :=
  ((sects im.b).find? (fun x => x.ty == tyCLOCKS && !(periodOk (num x.b 0 4)
    && (im.part.isNone || num x.b 0 4 == period s) && (x.scope != 0xFF || decide (num x.b 6 2 ≤ 400))))).map (fun x => x.idx)

/-! ### Check 0x09 -/

/-- A task entry (R49, R50). -/
def taskOk (s : State) (im : Im) (e : List Byte) : Bool :=
  let t := taskEnt e
  let b := max t.boundHi t.boundLo
  decide (t.task < 64 ∧ num e 3 1 ≤ 1 ∧ 1 ≤ t.deadline ∧ t.deadline ≤ vLimit s im ∧ 1 ≤ t.boundHi ∧ 1 ≤ t.boundLo
      ∧ b ≤ t.deadline ∧ 20 ≤ t.retryUs ∧ (b + 99) / 100 ≤ t.retryUs) && zeroAt e 0x12 6

/-- The device-wide section's own fields (R382, R411, R458, R459). -/
def supDevOk (s : State) (im : Im) (b : List Byte) : Bool :=
  let ts := (sTasks b true).map taskEnt
  let dl (o : Nat) : Nat := ((ts.find? (fun t => t.owner == o)).map (fun t => t.deadline)).getD 0
  let rng (o n lo hi : Nat) : Bool := decide (lo ≤ num b o n ∧ num b o n ≤ hi)
  num b 0 1 == 5 && rng 1 1 0 15 && rng 2 1 0 63 && rng 3 1 1 15 && rng 4 4 1 524288 && zeroAt b 8 8 && zeroAt b 0xE0 32
    && (List.range 5).all (fun i => (ts.filter (fun t => t.owner == 0x10 + i)).length == 1)
    && (vTasks s im).any (fun t => t.task == num b 2 1 && t.owner == num b 1 1)
    && rng 0x10 2 1 1024 && rng 0x12 2 1 4096 && rng 0x14 1 0 8 && zeroAt b 0x15 1 && rng 0x16 2 0 512
    && rng 0x18 4 1000 (vLimit s im) && zeroAt b 0x1C 4 && decide (num b 0x18 4 < dl 0x11)
    && rng 0x20 4 1 65536 && rng 0x24 4 1000 (vLimit s im) && zeroAt b 0x2C 4 && decide (num b 0x24 4 < num b 0x28 4)
    && decide (num b 0x28 4 + 5 ≤ dl 0x12)
    && rng 0x30 2 50 500 && rng 0x32 2 100 800 && rng 0x34 1 5 50 && zeroAt b 0x35 1 && rng 0x36 2 100 5000
    && rng 0x38 4 0 0x3FFFFFFF && rng 0x3C 4 0 0x3FFFFFFF
    && rng 0x45 1 0 15 && rng 0x47 1 0 24 && rng 0x48 1 1 15 && zeroAt b 0x49 1 && rng 0x4C 2 0 1000 && zeroAt b 0x70 16

/-- Lend windows against the tasks of borrower and lender (R250). -/
def lendTasksOk (s : State) (im : Im) (p : Nat) (b : List Byte) : Bool :=
  (pLends b).all (fun e => (vTasks s im).all (fun t => t.owner != num e 2 1 || decide (t.deadline ≤ num e 8 4)))
    && (vTasks s im).all (fun t => t.owner != p ||
      decide (((pLends b).filter (fun e => decide (num e 4 4 < t.deadline))).length ≤ t.preemptN))

/-- Check 0x09 (R49, R50, R250, R382, R411, R459). -/
def check09 (s : State) (im : Im) : Option Nat :=
  match (sects im.b).find? (fun x =>
      (x.ty == tySUPERVISE && !((sTasks x.b (x.scope == 0xFF)).all (taskOk s im)
        && (if x.scope = 0xFF then supDevOk s im x.b
          else decide (num x.b 0 1 ≤ 59) && zeroAt x.b 1 7 && (sTasks x.b false).all (fun e => num e 1 1 == x.scope))))
      || (x.ty == tyPARTITION && !lendTasksOk s im x.scope x.b)) with
  | some x => some x.idx
  | none => if nodup ((vTasks s im).map (fun t => t.task)) && decide ((vTasks s im).length ≤ 64) then none else some 0xFF

/-! ### Checks 0x0A to 0x0C -/

/-- Bundle entries of a PARTITION section: digest, address, length. -/
def bundleEnt (e : List Byte) : List Byte × Nat × Nat := (sub8 e 0 32, num e 0x20 8, num e 0x28 4)

/-- Check 0x0A: every bundle digest matches (R63). -/
def check0A (s : State) (im : Im) : Option Nat :=
  ((sects im.b).find? (fun x => x.ty == tyPARTITION && !(pBuns x.b).all (fun e =>
    sha256 (bytesAt s (bundleEnt e).2.1 (bundleEnt e).2.2) == (bundleEnt e).1))).map (fun x => x.idx)

/-- The running measurement as TOPO_MEAS shows it (R77). -/
def measNow (s : State) : List Byte := ((List.range 8).map (fun i => leBytes 4 (rd s (TOPO_MEAS i)))).flatten

/-- Points of die `d`'s PLLs that clusters of other partitions use (R513). -/
def pllHeld (s : State) (p d k : Nat) : Bool :=
  (List.range 4).any (fun c => let q := getF s (PRT_CLU_PART d c); decide (q < 16) && q != p && (twoPoints (opEnOf s q)).contains k)

/-- PLL_1 and PLL_2 points of die `d` after the image; 7 stopped (R513). A partial image keeps the PLLs that other
partitions' clusters use and places the partition's points in those left. -/
def pllPlan (s : State) (im : Im) (d : Nat) : Option (Nat × Nat) :=
  let need := pllNeeds s im d
  match im.part with
  | none => some ((need[0]?).getD 7, (need[1]?).getD 7)
  | some p =>
    let a := getF s (CLK_CD_PLL_P1_PT d)
    let b := getF s (CLK_CD_PLL_P2_PT d)
    let ka := if pllHeld s p d a || need.contains a then a else 7
    let kb := if pllHeld s p d b || need.contains b then b else 7
    let rest := need.filter (fun k => k != ka && k != kb)
    match rest with
    | [] => some (ka, kb)
    | [k] => if ka = 7 then some (k, kb) else if kb = 7 then some (ka, k) else none
    | [k, l] => if ka = 7 ∧ kb = 7 then some (k, l) else none
    | _ => none

/-- Does a section name something that another partition owns in the running structure (R81)? -/
def namesOthers (s : State) (p : Nat) (x : Sect) : Bool :=
  let foreign (q : Nat) : Bool := decide (q < 16) && q != p
  match x.ty with
  | 1 => (pClus x.b).any (fun e => foreign (getF s (PRT_CLU_PART (num e 0 1) (num e 1 1))))
      || (pChans x.b).any (fun e => foreign (getF s (DMA_CH_OWN_PART (num e 0 1) (num e 1 1))))
  | 3 => (List.range 512).any (fun i => bit (num x.b (0x10 + 8 * (i / 64)) 8) (i % 64) && foreign (getF s (MAP_BNK_OWN_PART (i / 64) (i % 64))))
      || (mRegs x.b false).any (fun e => (List.range 64).any (fun r => getF s (MAP_REG_CFG_LEN_2M r) != 0
        && foreign (getF s (MAP_REG_CFG_PART r)) && meets (regSpan e) (rd64 s (MAP_REG_BASE r), getF s (MAP_REG_CFG_LEN_2M r) * 0x200000)))
  | 5 => (iCtxs x.b).any (fun e => foreign (ctx s (num e 0 1)).part || (num e 3 1 != 0xFF && (List.range 24).any (fun c =>
      foreign (ctx s c).part && ctxNum s c 0 1 == c && ctxNum s c 1 1 == 0 && ctxNum s c 3 1 == num e 3 1)))
  | 10 => (kEntries x.b).any (fun e => foreign (kv s (num e 0 1)).owner)
  | _ => false

/-- Check 0x0C (R62, R67, R81, R513). -/
def check0C (s : State) (im : Im) : Option Nat :=
  match im.part with
  | none => none
  | some p =>
    match (sects im.b).find? (fun x => !(x.scope == p && partType x.ty) || namesOthers s p x) with
    | some x => some x.idx
    | none => if (List.range 8).all (fun d => (pllPlan s im d).isSome) then none else some 0xFF

/-- The first failing check of 0x06 to 0x09, with the failing section; (0, 0) for none. -/
def checks6to9 (s : State) (im : Im) : Nat × Nat :=
  match check06 im.part.isSome im.b with
  | some k => (6, k)
  | none => match check07 s im with
    | some k => (7, k)
    | none => match check08 s im with
      | some k => (8, k)
      | none => match check09 s im with
        | some k => (9, k)
        | none => (0, 0)

/-- The checks of Prepare (R67): 0x06 to 0x0C. -/
def prepareChecks (s : State) (im : Im) : Nat × Nat :=
  let r := checks6to9 s im
  if r.1 ≠ 0 then r
  else match check0A s im with
    | some k => (0xA, k)
    | none => if sub8 im.b 0x30 32 ≠ measNow s then (0xB, 0xFF)
      else match check0C s im with
        | some k => (0xC, k)
        | none => (0, 0)

end Sys2Proof.Machine
end

