-- ==== Sys2Proof/Machine/Sections.lean ====
section
/-! DEFINITION. What the sections write (R84): the fields of every block, and what a partition's old fields become when the
structure leaves them out. The same lists are written live at boot and into shadow copies for a partial image (R79). -/
namespace Sys2Proof.Machine

/-- A write of a field, of a register, of a 64-bit pair. -/
def fw (f : Fld) (v : Nat) : RegW := ⟨f.addr, f.hi, f.lo, v⟩
def ww (a v : Nat) : RegW := ⟨a, 31, 0, v⟩
def ww64 (a v : Nat) : List RegW := [ww a (v % 2 ^ 32), ww (a + 4) (v / 2 ^ 32)]

/-- Perform section writes in order. -/
def applyW (ws : List RegW) : Act := forEach ws (fun w => setF ⟨w.addr, w.hi, w.lo⟩ w.v)

/-! ### Device-wide sections -/

/-- CLOCKS (R526); TOPO_DEFER.MAX_DEFER comes from the header. -/
def clocksW (img b : List Byte) : List RegW :=
  [fw PCH_PERIOD_PERIOD_NS (num b 0 4), fw PCH_CFG_ROLE (num b 4 1), fw PCH_CFG_TIME_PORT (num b 5 1),
    fw PCH_TRIM_LIM_LIM_PPM (num b 6 2), fw CLK_OP_EN_EN (num b 8 1), fw CLK_SS_PCIE (num b 9 1), fw CLK_SS_DDR (num b 0xA 1),
    fw CLK_SS_MOD (num b 0xB 1), fw TOPO_DEFER_MAX_DEFER (hMaxDefer img)]
  ++ ((List.range 3).map (fun p =>
    let o := 0x10 + 8 * p
    [fw (CLK_BUS_SCLK_MHZ p) (num b o 2), fw (CLK_BUS_SDIV p) (num b (o + 2) 1), fw (CLK_BUS_PBCLK_MHZ p) (num b (o + 3) 2),
      fw (CLK_BUS_PDIV p) (num b (o + 5) 1)])).flatten

/-- DRAM (R337). -/
def dramW (b : List Byte) : List RegW :=
  [fw DDR_PT_EN (num b 2 1), fw DDR_PT_FLOOR (num b 3 1), fw DDR_RH_CFG_ACT_THR (num b 6 2), fw DDR_RH_CFG_QUOTA (num b 5 1),
    fw DDR_RH_TIME_THR_MS (num b 8 2), fw DDR_SCRUB_MIN_MIN (num b 0xA 2)]
  ++ ((List.range 12).map (fun c => (List.range 16).map (fun i => ww (DDR_IDLE c i) (num b (0x40 + 4 * i) 4)))).flatten

/-- ROUTE (R97). -/
def routeW (b : List Byte) : List RegW :=
  ((List.range 8).map (fun d => fw (RTE_TMO_TMO d) (num b 4 4) ::
    ((List.range 8).map (fun t => [fw (RTE_DEST_PRIMARY d t) (num b (8 + 8 * d + t) 1 % 4),
      fw (RTE_DEST_ALTERNATE d t) (num b (8 + 8 * d + t) 1 / 4 % 4)])).flatten)).flatten

/-- The registers of a region slot. -/
def slotW (r base len2m coh part : Nat) : List RegW :=
  ww64 (MAP_REG_BASE r) base ++ [fw (MAP_REG_CFG_LEN_2M r) len2m, fw (MAP_REG_CFG_COHERENT r) coh, fw (MAP_REG_CFG_PART r) part]

/-- Regions written into given slots. -/
def regionsW (slots : List Nat) (es : List (List Byte)) (part : Nat) : List RegW :=
  ((slots.zip es).map (fun q => slotW q.1 (num q.2 0 8) (num q.2 8 4) (num q.2 0xC 1) part)).flatten

/-- Device-wide MEMMAP (R477, R580, R581): mirror masks and the device's regions, in slots from 0. -/
def memmapDevW (b : List Byte) : List RegW :=
  ((List.range 8).map (fun d => ww64 (MAP_MIR d) (num b (8 * d) 8))).flatten
    ++ regionsW (List.range 64) (mRegs b true) 0x1F

/-- REGULATE, device-wide (R310). -/
def regulateDevW (b : List Byte) : List RegW :=
  ((List.range 18).map (fun k =>
    let e := sub8 b (16 * k) 16
    if k = 14 ∨ k = 15 then [fw (REG_CFG_CLASS k) 0]
    else [fw (REG_CFG_CLASS k) (num e 0 1), fw (REG_CFG_TUNE k) (num e 1 1), fw (REG_BUDGET_BUDGET k) (num e 2 2),
      fw (REG_BLIM_MIN k) (num e 4 2), fw (REG_BLIM_MAX k) (num e 6 2), fw (REG_LAT_TGT_NS k) (num e 8 2)])).flatten
  ++ ((entries b 288 8 4).map (fun e => [fw (REG_CH_CFG_OUT_MAX (num e 0 1) (num e 1 1)) (num e 2 1),
      fw (REG_CH_CFG_LAT_TGT_NS (num e 0 1) (num e 1 1)) (num e 4 2)])).flatten

/-- INGRESS, device-wide (R360, R371, R375). -/
def ingressDevW (b : List Byte) : List RegW :=
  ((List.range 4).map (fun m =>
    let e := sub8 b (144 + 16 * m) 16
    [ww (ETH_ADDR_LO m) (num e 8 4), fw (ETH_ADDR_HI_ADDR m) (num e 12 2), fw (ETH_ADDR_HI_MODE m) (num e 0 1),
      fw (ETH_ADDR_HI_USE m) (num e 1 1), fw (ETH_ADDR_HI_PTP m) (num e 2 1)])).flatten
  ++ ((List.range 4).map (fun k =>
    let e := sub8 b (208 + 32 * k) 32
    [fw (SPI_STEP_EN k) (num e 0 1), fw (SPI_STEP_MODE k) (num e 1 1), fw (SPI_STEP_CLK_KHZ k) (num e 2 2)])).flatten

/-- TX_LEN, RX_LEN and TX bytes of SPI controller `k`. -/
def spiCfg (b : List Byte) (k : Nat) : List Nat :=
  let e := sub8 b (208 + 32 * k) 32
  num e 4 1 :: num e 5 1 :: (sub8 e 16 16).map (fun x => x.toNat)

/-- The fusion and traverse limit blocks of the device-wide SUPERVISE section (R382, R411). -/
def limitsW (b : List Byte) : List RegW :=
  [fw FUS_LIM_TRK_MAX (num b 0x10 2), fw FUS_LIM_DET_MAX (num b 0x12 2), fw FUS_LIM2_GRID_MAX (num b 0x14 1),
    fw FUS_LIM2_LATE_MAX (num b 0x16 2), fw FUS_DL_DL_US (num b 0x18 4),
    fw TRV_LIM_CELLS_MAX (num b 0x20 4), fw TRV_DL_DL_US (num b 0x24 4), fw TRV_OUT_T_OUT_US (num b 0x28 4)]

/-- The SUP_ fields that anchor die `x` installs from the device-wide section (R458, R462). -/
def supDevW (x : Nat) (b : List Byte) : List RegW :=
  [fw (SUP_CFG_DRIVE_PART x) (num b 1 1), fw (SUP_CFG_DRIVE_TASK x) (num b 2 1), fw (SUP_CFG_RESUME_N x) (num b 3 1),
    fw (SUP_BLY_CFG_A_BELAY_CMS2 x) (num b 0x30 2), fw (SUP_BLY_CFG_A_STOP_CMS2 x) (num b 0x32 2),
    fw (SUP_BLY_CFG_PERIOD_MS x) (num b 0x34 1), fw (SUP_BLY_TIME_BELAY_MAX_MS x) (num b 0x36 2),
    fw (SUP_BLY_ID_ID x) (num b 0x38 4), fw (SUP_STAT_ID_ID x) (num b 0x3C 4),
    fw (SUP_SPT_START_START_US x) (num b 0x40 4), fw (SUP_SPT_CFG_MIN_SCORE x) (num b 0x44 1),
    fw (SUP_SPT_CFG_MISS_MAX x) (num b 0x45 1), fw (SUP_SPT_CFG_GHOST_MAX x) (num b 0x46 1), fw (SUP_SPT_CFG_EXCL_MAX x) (num b 0x47 1),
    fw (SUP_SPT_CFG_NOVERDICT_MAX x) (num b 0x48 1), fw (SUP_SPT_TOL_TOL_POS_CM x) (num b 0x4A 2),
    fw (SUP_SPT_TOL_TOL_REL_PM x) (num b 0x4C 2), fw (SUP_SPT_RANGE_R_MAX_CM x) (num b 0x4E 2)]
  ++ (List.range 8).map (fun i => ww (SUP_SPT_CLS x i) (num b (0x50 + 4 * i) 4))
  ++ (List.range 24).map (fun i => ww (SUP_BUF x i) (num b (0x80 + 4 * i) 4))

/-- Task entries as anchor die `x` installs them (R458, R462). -/
def tasksW (x : Nat) (ts : List TaskEnt) : List RegW :=
  (ts.map (fun t => [fw (SUP_TASK_CFG_OWNER x t.task) t.owner, fw (SUP_TASK_CFG_RESTART_FITS x t.task) (if t.restartFits then 1 else 0),
    fw (SUP_TASK_DL_DEADLINE_US x t.task) t.deadline])).flatten

/-- Task entries that leave the table: back to undefined. -/
def tasksDropW (x : Nat) (ts : List TaskEnt) : List RegW :=
  (ts.map (fun t => [ww (SUP_TASK_CFG x t.task) 0x1F, ww (SUP_TASK_DL x t.task) 0, ww (SUP_TASK_LAST x t.task) 0])).flatten

/-! ### Per-partition sections -/

/-- PARTITION (R265): what leaves partition `p` first, then what it owns. -/
def partitionW (s : State) (p : Nat) (b : List Byte) : List RegW :=
  let old := ((List.range 32).map (fun i => (i / 4, i % 4))).filter (fun c => getF s (PRT_CLU_PART c.1 c.2) == p)
  (old.map (fun c => [fw (PRT_CLU_PART c.1 c.2) 0x1F, fw (PRT_LEND_BORROWER c.1 c.2) 0x1F, fw (PRT_LEND_CM_64K c.1 c.2) 0,
      fw (PRT_WSTART_US c.1 c.2) 0, fw (PRT_WEND_US c.1 c.2) 0, ww (PRT_SAVE c.1 c.2) 0])).flatten
  ++ (channelsOf s p).map (fun c => fw (DMA_CH_OWN_PART c.1 c.2) 0x1F)
  ++ [fw (PRT_CFG_LEVEL p) (num b 0 1), fw (PRT_CFG_ELASTIC p) (num b 1 1), fw (PRT_CFG_AGE_THR p) (num b 2 1),
    fw (PRT_CFG_AGE_TOP p) (num b 3 1)]
  ++ ((pClus b).map (fun e => let d := num e 0 1; let c := num e 1 1; [fw (PRT_CLU_PART d c) p,
      fw (PRT_SAVE_BANK d c) (num e 2 1), fw (PRT_SAVE_EN d c) (num e 3 1), fw (PRT_SAVE_SLOT_4K d c) (num e 4 2)])).flatten
  ++ ((pLends b).map (fun e => let d := num e 0 1; let c := num e 1 1; [fw (PRT_LEND_BORROWER d c) (num e 2 1),
      fw (PRT_LEND_CM_64K d c) (num e 3 1), fw (PRT_WSTART_US d c) (num e 4 4), fw (PRT_WEND_US d c) (num e 8 4)])).flatten
  ++ (pChans b).map (fun e => fw (DMA_CH_OWN_PART (num e 0 1) (num e 1 1)) p)

/-- A partition's window of the package's own (R292). -/
def windowW (p : Nat) (e : List Byte) : List RegW :=
  let w := num e 1 1
  let m := num e 2 1
  if num e 0 1 = 1 then [] else
  [fw (DMA_WIN_RANGE_BASE_4K w) (num e 4 2), fw (DMA_WIN_RANGE_LEN_4K w) (num e 6 2), fw (DMA_WIN_CTL_WRITE w) (m % 2),
    fw (DMA_WIN_CTL_READ w) (m / 2 % 2), fw (DMA_WIN_CTL_PEER w) (m / 4 % 2), fw (DMA_WIN_CTL_OPEN w) (m / 8 % 2),
    fw (DMA_WIN_CTL_OWNER w) p]

/-- Window declarations of a section. -/
def winDecls (p : Nat) (b : List Byte) : List WinDecl := (mWins b).map (fun e => ⟨p, num e 0 1 == 1, num e 1 1, num e 8 2⟩)

/-- A partition's MEMMAP (R580, R581): its old banks, slots and windows are released, then the new ones are written; at boot
into free slots, at a partial topo first into the slots that its regions held. -/
def memmapW (s : State) (p : Nat) (taken : Nat) (b : List Byte) : List RegW :=
  let held := (List.range 64).filter (fun r => getF s (MAP_REG_CFG_LEN_2M r) != 0 && getF s (MAP_REG_CFG_PART r) == p)
  let free := (List.range 64).filter (fun r => getF s (MAP_REG_CFG_LEN_2M r) == 0 && decide (taken ≤ r))
  (((List.range 512).filter (fun i => getF s (MAP_BNK_OWN_PART (i / 64) (i % 64)) == p)).map
    (fun i => fw (MAP_BNK_OWN_PART (i / 64) (i % 64)) 0x1F))
  ++ (held.map (fun r => slotW r 0 0 0 0x1F)).flatten
  ++ ((s.load.wins.filter (fun w => w.owner == p && !w.peer)).map (fun w =>
      [ww (DMA_WIN_RANGE w.win) 0, fw (DMA_WIN_CTL_OPEN w.win) 0, fw (DMA_WIN_CTL_WRITE w.win) 0, fw (DMA_WIN_CTL_READ w.win) 0,
        fw (DMA_WIN_CTL_PEER w.win) 0, fw (DMA_WIN_CTL_OWNER w.win) 0x1F])).flatten
  ++ ((List.range 512).filter (fun i => bit (num b (0x10 + 8 * (i / 64)) 8) (i % 64))).map
    (fun i => fw (MAP_BNK_OWN_PART (i / 64) (i % 64)) p)
  ++ regionsW (held ++ free) (mRegs b false) p
  ++ ((mWins b).map (windowW p)).flatten

/-- BANKPOWER (R582): the phases of every die that holds something of the partition, entries, and the defaults for banks
and clusters that no entry names (R84). OVR does not survive (R186). -/
def bankpowerW (s : State) (im : Im) (p : Nat) : List RegW :=
  let b := secB im.b tyBANKPOWER p
  let has := (secOf im.b tyBANKPOWER p).isSome
  let banks := (List.range 512).filter (fun i => vBank s im p (i / 64) (i % 64))
  let clus := vClus s im p
  let bes := entries b 16 4 (num b 0xC 2)
  let ces := entries b (16 + 4 * num b 0xC 2) 4 (num b 0xE 1)
  let dies := (List.range 8).filter (fun d => banks.any (fun i => i / 64 == d) || clus.any (fun c => c.1 == d))
  let keepB (i : Nat) : Bool := im.part.isSome && !has && getF s (MAP_BNK_OWN_PART (i / 64) (i % 64)) == p
  let keepC (c : Nat × Nat) : Bool := im.part.isSome && !has && getF s (PRT_CLU_PART c.1 c.2) == p
  let gone := (List.range 512).filter (fun i => getF s (MAP_BNK_OWN_PART (i / 64) (i % 64)) == p && !banks.contains i)
  gone.map (fun i => ww (BNK_PWR (i / 64) (i % 64)) 0 |> fun w => { w with hi := 11 })
  ++ (if has || im.part.isNone then (dies.map (fun d => [fw (BNK_PH1_START_US d p) (num b 0 4), fw (BNK_PH2_START_US d p) (num b 4 4),
      fw (BNK_PH3_START_US d p) (num b 8 4)])).flatten else [])
  ++ ((banks.filter (fun i => !keepB i)).map (fun i =>
      let d := i / 64
      let k := i % 64
      let e := bes.find? (fun e => pair e == (d, k))
      let st := (e.map (fun e => num e 2 1)).getD 0xAA
      let bv := (e.map (fun e => num e 3 1)).getD 1
      [fw (BNK_PWR_PH0 d k) (st % 4), fw (BNK_PWR_PH1 d k) (st / 4 % 4), fw (BNK_PWR_PH2 d k) (st / 16 % 4),
        fw (BNK_PWR_PH3 d k) (st / 64 % 4), fw (BNK_PWR_BIV d k) bv, fw (BNK_PWR_OVR d k) 0])).flatten
  ++ (clus.filter (fun c => !keepC c)).map (fun c =>
      fw (BNK_CLU_GATED c.1 c.2) (((ces.find? (fun e => pair e == c)).map (fun e => num e 2 1)).getD 1))

/-- REGULATE of a partition (R311): channels named in no entry keep OUT_MAX 64 and no target. -/
def regulateW (s : State) (im : Im) (p : Nat) (b : List Byte) : List RegW :=
  ((vChans s im p).map (fun c =>
    let e := (entries b 8 8 (num b 0 1)).find? (fun e => pair e == c)
    [fw (REG_CH_CFG_OUT_MAX c.1 c.2) ((e.map (fun e => num e 2 1)).getD 64),
      fw (REG_CH_CFG_LAT_TGT_NS c.1 c.2) ((e.map (fun e => num e 4 2)).getD 0)])).flatten

/-- INGRESS of a partition (R361, R363): the entry words of its contexts and the owner of each frame-sync output. -/
def ingressW (s : State) (p : Nat) (b : List Byte) : List RegW :=
  let old := (List.range 24).filter (fun x => (ctx s x).part == p)
  ((old.filter (fun x => !(iCtxs b).any (fun e => num e 0 1 == x))).map (fun x =>
      (List.range 32).map (fun i => ww (ING_CTX_ENTRY x i) 0))).flatten
  ++ ((List.range 16).filter (fun o => old.contains (getF s (FSY_STAT_CTX o)))).map (fun o => fw (FSY_STAT_CTX o) 0x1F)
  ++ ((iCtxs b).map (fun e => (List.range 32).map (fun i => ww (ING_CTX_ENTRY (num e 0 1) i) (num e (4 * i) 4)))).flatten
  ++ ((iCtxs b).filter (fun e => num e 1 1 == 0 && num e 3 1 != 0xFF)).map (fun e => fw (FSY_STAT_CTX (num e 3 1)) (num e 0 1))

/-- KVCACHE of a partition (R217, R233): the entry words on the home die and on every die of the cache. -/
def kvcacheW (s : State) (p : Nat) (b : List Byte) : List RegW :=
  let dies (e : List Byte) : List Nat := num e 1 1 :: (List.range (num e 3 1)).map (fun i => num e (4 + i) 1)
  (((List.range 16).filter (fun c => (kv s c).owner == p && !(kEntries b).any (fun e => num e 0 1 == c))).map (fun c =>
      ((List.range 8).map (fun d => (List.range 32).map (fun i => ww (KVC_C_ENTRY d c i) 0))).flatten)).flatten
  ++ ((kEntries b).map (fun e => ((List.range 8).map (fun d =>
      (List.range 32).map (fun i => ww (KVC_C_ENTRY d (num e 0 1) i) (if (dies e).contains d then num e (4 * i) 4 else 0)))).flatten)).flatten

/-- Every register field that a partition's sections set (R79), a section that a partial image leaves out unchanged. -/
def partW (s : State) (im : Im) (p : Nat) : List RegW :=
  let opt (ty : Nat) (f : List Byte → List RegW) : List RegW :=
    match secOf im.b ty p with
    | some b => f b
    | none => []
  opt tyPARTITION (partitionW s p) ++ opt tyMEMMAP (memmapW s p 0) ++ bankpowerW s im p
    ++ (if (secOf im.b tyREGULATE p).isSome || im.part.isNone then regulateW s im p (secB im.b tyREGULATE p) else [])
    ++ opt tyINGRESS (ingressW s p) ++ opt tyKVCACHE (kvcacheW s p)

/-- Bundle entries of a PARTITION section as the loader keeps them. -/
def bundlesOf (p : Nat) (b : List Byte) : List Bundle :=
  ((pBuns b).zipIdx).map (fun q =>
    { part := p
      idx := q.2
      addr := (bundleEnt q.1).2.1
      len := (bundleEnt q.1).2.2
      digest := (bundleEnt q.1).1 })

/-! ### Masks and owners that follow the structure -/

/-- DMA_WIN_USE and DMA_WIN_USEP of every channel, from the window declarations in force (R292). -/
def winMasks : Act := fun s =>
  let mask (p : Nat) (peer : Bool) : Nat :=
    ((List.range 64).filter (fun w => s.load.wins.any (fun x => x.win == w && x.peer == peer && bit x.users p))).foldl
      (fun m w => m + 2 ^ w) 0
  forEach (((List.range 128).map (fun i => (i / 16, i % 16))) ++ (List.range 32).map (fun i => (8, i))) (fun c =>
    let p := getF s (DMA_CH_OWN_PART c.1 c.2)
    seq [wr64 (DMA_WIN_USE c.1 c.2) (if p < 16 then mask p false else 0),
      wr64 (DMA_WIN_USEP c.1 c.2) (if p < 16 then mask p true else 0)]) s

/-- The points of a die's PLLs (R513). A PLL whose point changes starts anew and is not locked yet. -/
def setPlls (d f a b : Nat) : Act := fun s =>
  seq [whenA (getF s (CLK_CD_PLL_F_PT d) != f) (setF (CLK_CD_PLL_F_LOCK d) 0),
    whenA (getF s (CLK_CD_PLL_P1_PT d) != a) (setF (CLK_CD_PLL_P1_LOCK d) 0),
    whenA (getF s (CLK_CD_PLL_P2_PT d) != b) (setF (CLK_CD_PLL_P2_LOCK d) 0),
    setF (CLK_CD_PLL_F_PT d) f, setF (CLK_CD_PLL_P1_PT d) a, setF (CLK_CD_PLL_P2_PT d) b] s

/-- The caches of a partition after its KVCACHE section took effect: a changed or new cache starts closed (R238), one left
out is undefined. `old` gives the entry words before. -/
def cachesFollow (p : Nat) (b : List Byte) (old : List (Nat × List Byte)) : Act := fun s =>
  let gone := (List.range 16).filter (fun c => (kv s c).owner == p && !(kEntries b).any (fun e => num e 0 1 == c))
  seq [forEach gone (fun c => setKv c (fun _ => {})),
    forEach (kEntries b) (fun e =>
      let c := num e 0 1
      if old.contains (c, e) then nop
      else seq [setKv c (fun k => { k with home := num e 1 1 }), kvReset c p])] s

/-- Contexts follow the image (R351, R359): a released one goes OFF, an entry equal to the running one keeps its state, a
changed or new one starts in RELOCK. `old` holds the entries of partition `p` before. -/
def contextsFollow (p : Nat) (b : List Byte) (old : List (Nat × List Byte)) : Act :=
  let new := (iCtxs b).map (fun e => (num e 0 1, e))
  seq [forEach (old.filter (fun o => !new.any (fun e => e.1 == o.1))) (fun o => seq [ctxDisable o.1, ctxDrainEnd o.1,
      setCtx o.1 (fun c => { c with part := 0x1F })]),
    forEach new (fun e => seq [setCtx e.1 (fun c => { c with part := p }), ctxEnable e.1,
      whenA (!old.contains e) (ctxStart e.1)])]

end Sys2Proof.Machine
end

