-- ==== Sys2Proof/Machine/Loader.lean ====
section
/-! DEFINITION. The loader: topo commands (R85), slots (R71 to R73), bundles (R63 to R65, R473), the boot load (R74) and
partial topo (R79 to R82). -/
namespace Sys2Proof.Machine

def setLoad (f : Load → Load) : Act := fun s => [.load (f s.load)]

/-! ### Flash (R493) -/

/-- A byte string of anchor die `x`'s boot flash. -/
def flashBytes (s : State) (x off : Nat) : Nat → List Byte
  | 0 => []
  | n + 1 => get_flash s (x * 2 ^ 32 + off) :: flashBytes s x (off + 1) n

/-- Write bytes to the flash of anchor die `x`. -/
def flashStore (x off : Nat) : List Byte → Act
  | [] => nop
  | b :: bs => andThen (upd (.flash (x * 2 ^ 32 + off) b)) (flashStore x (off + 1) bs)

/-- Offset of slot `n`. -/
def slotOff (n : Nat) : Nat := 0x100000 + n * 0x1200000

/-- Images of slot `n` of anchor die `x`, each as long as its header says. -/
def slotImage (s : State) (x n off most : Nat) : List Byte :=
  let h := leNat (flashBytes s x (slotOff n + off + 8) 4)
  flashBytes s x (slotOff n + off) (min h most)
def slotAfw (s : State) (x n : Nat) : List Byte := slotImage s x n 0x1000 0x80000
def slotMfw (s : State) (x n : Nat) : List Byte := slotImage s x n 0x81000 0x80000
def slotTopo (s : State) (x n : Nat) : List Byte := slotImage s x n 0x200000 0x1000000

/-- State of slot `n` of anchor die `x`: 0 EMPTY, 1 TRIAL, 2 CONFIRMED. -/
def slotSt (s : State) (x n : Nat) : SlotSt := get_slots s (2 * x + n)

/-- TOPO_STATUS shows the slots of anchor A (R85). -/
def topoShow : Act := fun s =>
  let r := getF s TOPO_STATUS_RUN_SLOT
  seq [setF TOPO_STATUS_TRIAL (if (slotSt s 0 r).st = 1 then 1 else 0),
    setF TOPO_STATUS_OTHER_VALID (if (slotSt s 0 (1 - r)).st = 2 then 1 else 0)] s

/-! ### Rejections (R70) -/

/-- TOPO_ERR takes a record. -/
def topoErr (code sect : Nat) (part : Bool) : Act := seq [
  setF TOPO_ERR_CODE code, setF TOPO_ERR_SECTION sect, setF TOPO_ERR_VALID 1, setF TOPO_ERR_PARTIAL (if part then 1 else 0)]

/-- The IMAGE_REJECTED entry in both anchor dies' logs. -/
def logRejected (code sect : Nat) (part : Bool) (seqNo : Nat) : Act := forEach [0, 1] (fun x => fun s =>
  if getF s (ANC_STAT_STATE x) = 0 then [] else
  ancLog x 0x07 (9 + x) 0 ([BitVec.ofNat 8 code, BitVec.ofNat 8 sect, if part then 1 else 0] ++ leBytes 5 0 ++ leBytes 8 seqNo) s)

/-- A rejected image changes nothing but the record of it. -/
def rejectImage (code sect : Nat) (part : Bool) (seqNo : Nat) : Act := seq [
  topoErr code sect part, incReg TOPO_REJ_CNT, logRejected code sect part seqNo]

/-! ### The replay-protected store (R499, R501) -/

/-- SEC_ST_ registers and SEC_BOOT.PROD of anchor die `x` show its record. -/
def storeShow (x : Nat) : Act := fun s =>
  let st := get_stores s x
  seq [wr (SEC_ST_TOPO x) st.topoSvn, wr (SEC_ST_FW x) st.fwSvn, wr (SEC_ST_CERT x) st.certSvn, wr (SEC_ST_CTR x) st.ctr,
    setF (SEC_BOOT_PROD x) st.life] s

/-- The record that slot `n` raises the store of die `x` to (R501). -/
def storeRaised (s : State) (x n : Nat) : Store :=
  let st := get_stores s x
  let t := slotTopo s x n
  let c := certPart t
  { st with
    topoSvn := max st.topoSvn (hSvn t)
    fwSvn := max st.fwSvn (min (hSvn (slotAfw s x n)) (hSvn (slotMfw s x n)))
    certSvn := max st.certSvn (certSvn c)
    life := max st.life (if bit (certUsage c) usPRODUCTION then 1 else 0) }

/-- A write of the store: it succeeds, or SEC_RB.PENDING is set and the record stays. -/
def storeWrite (x n : Nat) (ok : Bool) : Act := fun s =>
  if ok && (get_stores s x).key then
    let st := storeRaised s x n
    seq [upd (.stores x { st with ctr := (st.ctr + 1) % 2 ^ 32 }), setF (SEC_RB_PENDING x) 0, storeShow x] s
  else setF (SEC_RB_PENDING x) 1 s

/-! ### Slot commands (R73) -/

/-- The bytes staged at TOPO_STAGE. -/
def staged (s : State) : List Byte := bytesAt s (rd64 s TOPO_STAGE / 64 * 64) (getF s TOPO_STAGE_LEN_LEN)

/-- The checks of R73 on a slot package: failing code and section, (0, 0) for none. -/
def packageCheck (s : State) (b : List Byte) : Nat × Nat :=
  if !pkgOk b then (1, 0xFF) else
  let t := pkgTopo b
  let v := verifyBoth s .full t
  if v ≠ 0 then (v, 0xFF) else
  let r := checks6to9 s ⟨none, t⟩
  if r.1 ≠ 0 then r else
  let a := verifyBoth s .afw (pkgAfw b)
  if a ≠ 0 then (a, 0xFD) else
  let m := verifyBoth s .mfw (pkgMfw b)
  if m ≠ 0 then (m, 0xFE) else (0, 0)

/-- A slot write begins: a package that passes is written to both flashes, and the slot is EMPTY until the end. -/
def slotWrite (n : Nat) (b : List Byte) : Act := fun s =>
  if s.load.slotJob.isSome then [] else
  let r := packageCheck s b
  seq [setLoad (fun l => { l with slotJob := some ⟨n, r.1, r.2⟩ }),
    if r.1 ≠ 0 then rejectImage r.1 r.2 false (hSeq (pkgTopo b))
    else seq [forEach [0, 1] (fun x => seq [upd (.slots (2 * x + n) {}),
        flashStore x (slotOff n + 0x1000) (pkgAfw b), flashStore x (slotOff n + 0x81000) (pkgMfw b),
        flashStore x (slotOff n + 0x200000) (pkgTopo b)]), topoShow]] s

/-- WRITE_SLOT (R73): the slot that is not running. -/
def execWriteSlot (s : State) : Host.Outcome State Fault Refusal :=
  done (fun s => slotWrite (1 - getF s TOPO_STATUS_RUN_SLOT) (staged s) s) s

/-- SLOT_WRITE_DONE (R73): the slot state is written last, TRIAL and not tried. -/
def execSlotWriteDone (s : State) : Host.Outcome State Fault Refusal :=
  done (fun s => match s.load.slotJob with
    | none => []
    | some j => seq [setLoad (fun l => { l with slotJob := none }),
        whenA (j.code == 0) (seq [forEach [0, 1] (fun x => upd (.slots (2 * x + j.slot) ⟨1, false⟩)), topoShow])] s) s

/-- CONFIRM (R73, R501): the running slot is CONFIRMED and each anchor die raises its store record; `ok` says which of the
two writes succeed. -/
def confirmSlot (okA okB : Bool) : Act := fun s =>
  let n := getF s TOPO_STATUS_RUN_SLOT
  if (slotSt s 0 n).st = 0 then [] else
  seq [forEach [0, 1] (fun x => fun s => [.slots (2 * x + n) { slotSt s x n with st := 2 }]), topoShow,
    storeWrite 0 n okA, storeWrite 1 n okB] s

/-- CONFIRM (R73). -/
def execConfirm (okA okB : Bool) (s : State) : Host.Outcome State Fault Refusal := done (confirmSlot okA okB) s

/-- STORE_WRITE_RETRY (R501): a pending write is repeated after 1 s. -/
def execStoreWriteRetry (x : Nat) (ok : Bool) (s : State) : Host.Outcome State Fault Refusal :=
  done (fun s => if x < 2 ∧ flag s (SEC_RB_PENDING x) then storeWrite x (getF s (SEC_BOOT_SLOT x)) ok s else []) s

/-! ### Bundles (R63 to R65, R473) -/

/-- The bundle of a partition by its index. -/
def bundleAt (s : State) (p k : Nat) : Option Bundle := s.load.bundles.find? (fun b => b.part == p && b.idx == k)

/-- Replace a bundle's record. -/
def setBundle (p k : Nat) (f : Bundle → Bundle) : Act :=
  setLoad (fun l => { l with bundles := l.bundles.map (fun b => if b.part == p && b.idx == k then f b else b) })

/-- Bytes of a bundle. -/
def bundleBytes (s : State) (b : Bundle) : List Byte := bytesAt s b.addr b.len

/-- Does a range lie in the borrower's part of a core memory lent to partition `p` (R65, R251)? -/
def inLentPart (s : State) (p a len : Nat) : Bool :=
  match locOf s a with
  | .coreMem d c => getF s (PRT_LEND_BORROWER d (c / 8)) == p
      && decide (0x100000 - getF s (PRT_LEND_CM_64K d (c / 8)) * 0x10000 ≤ a % 0x100000 ∧ a % 0x100000 + len ≤ 0x100000)
  | _ => false

/-- The header check of R65 for a bundle of partition `p` against a structure. -/
def bundleOk (s : State) (im : Im) (p : Nat) (b : List Byte) : Bool :=
  bunHeadOk b
    && (bunSegs b).all (fun e => decide (s.fitted.dramTop ≤ e.2.2) && (vOwns s im p e.2.2 e.2.1 || inLentPart s p e.2.2 e.2.1))
    && (List.range 32).all (fun i => !bit (num b 8 4) i || (vClus s im p).contains (i / 4, i % 4)
      || getF s (PRT_LEND_BORROWER (i / 4) (i % 4)) == p)

/-- A view of the running structure: a partial image that carries nothing. -/
def running : Im := ⟨some 0x1F, []⟩

/-- TOPO_BERR records a refused bundle. -/
def bundleErr (p k cause : Nat) : Act := seq [
  setF TOPO_BERR_PART p, setF TOPO_BERR_BUNDLE k, setF TOPO_BERR_CAUSE cause, setF TOPO_BERR_VALID 1]

/-- A write of TOPO_BREADY (R65, R85): from the application cores and inbound PCIe; a bundle that the structure does not
define is ignored. -/
def breadyWrite (src : Master) (p k : Nat) : Act := fun s =>
  match src with
  | .app _ | .pcie =>
    match bundleAt s p k with
    | some b => if b.st = 0 ∨ b.st = 3 then setBundle p k (fun b => { b with st := 1 }) s else []
    | none => []
  | _ => recordRefusal src TOPO_BREADY s

/-- BUNDLE_READY (R65). -/
def execBundleReady (src : Master) (p k : Nat) (s : State) : Host.Outcome State Fault Refusal := done (breadyWrite src p k) s

/-- BUNDLE_HASH_DONE (R63, R65): digest, then header. -/
def execBundleHashDone (p k : Nat) (s : State) : Host.Outcome State Fault Refusal :=
  done (fun s => match bundleAt s p k with
    | none => []
    | some b =>
      if b.st ≠ 1 then [] else
      let d := bundleBytes s b
      if sha256 d ≠ b.digest then seq [bundleErr p k 0, setBundle p k (fun b => { b with st := 3 })] s
      else if !bundleOk s running p d then seq [bundleErr p k 1, setBundle p k (fun b => { b with st := 3 })] s
      else setBundle p k (fun b => { b with st := 2, model := num d 6 1, mask := num d 8 4 }) s) s

/-- Does a bundle list only clusters of dies in service (R473)? -/
def bundleFits (s : State) (b : Bundle) : Bool := (List.range 32).all (fun i => !bit b.mask i || !dieRemoved s (i / 4))

/-- Bundles of a partition that have passed. -/
def passed (s : State) (p : Nat) : List Bundle := s.load.bundles.filter (fun b => b.part == p && b.st == 2)

/-- R473: for each model the first bundle in PARTITION order that lists only clusters in service. -/
def chosen (s : State) (p : Nat) : List Bundle :=
  (passed s p).filter (fun b => bundleFits s b &&
    !(passed s p).any (fun c => c.model == b.model && bundleFits s c && decide (c.idx < b.idx)))

/-- Is there a model without a fitting bundle? -/
def noFit (s : State) (p : Nat) : Bool := (passed s p).any (fun b => !(chosen s p).any (fun c => c.model == b.model))

/-- The channel that copies for a partition: its first, or a firmware channel. -/
def copyMaster (s : State) (p : Nat) : Master :=
  match (channelsOf s p)[0]? with
  | some c => .dma c.1 c.2
  | none => .dma 8 28

/-- Does a copy of a segment meet an error? -/
def segBad (s : State) (b : Bundle) (e : Nat × Nat × Nat) : Bool :=
  readStatus s (b.addr + e.1) e.2.1 != 0 || writeStatus s e.2.2 e.2.1 != 0

/-- Copy the segments of a bundle that a predicate admits. -/
def copySegs (m : Master) (b : Bundle) (p : Nat × Nat × Nat → Bool) : Act := fun s =>
  forEach ((bunSegs (bundleBytes s b)).filter p) (fun e => unitWrite m e.2.2 (bytesAt s (b.addr + e.1) e.2.1)) s

/-- The core entries of a partition's chosen bundles. -/
def progsOf (s : State) (p : Nat) : List CoreProg :=
  ((chosen s p).map (fun b => (bunCores (bundleBytes s b)).map (fun e => ⟨p, e.1, e.2.1, e.2.2⟩))).flatten

/-- Programs, tables and resident weights of a partition arrive in its memories. -/
def copyAll (p : Nat) : Act := fun s =>
  seq [forEach (chosen s p) (fun b => copySegs (copyMaster s p) b (fun _ => true)),
    upd (.progs (s.progs.filter (fun e => e.part != p) ++ progsOf s p))] s

/-- Does any segment of the chosen bundles meet an error? -/
def copyFails (s : State) (p : Nat) : Bool := (chosen s p).any (fun b => (bunSegs (bundleBytes s b)).any (segBad s b))

/-- The reload step ends with an error (R473): the restart begins again at the next tick, or a second one leaves the
partition in RESTART. -/
def reloadError (p : Nat) : Act := fun s =>
  if flag s (FLT_PART_STAT_LOAD_ERR p) then setPart p (fun a => { a with rstStep := 7 }) s
  else seq [setF (FLT_PART_STAT_LOAD_ERR p) 1, setPart p (fun a => { a with rstStep := 4 })] s

/-- The cores of a partition take up its job and start their threads. -/
def coresStart (p : Nat) : Act := fun s =>
  forEach ((coresOf s p).filter (fun g => getF s (PRT_CLU_PWR (g / 32) (g % 32 / 8)) == 2)) (fun g => seq [
    setCore g (fun c => { c with part := p, jobPitch := pitchNum s, hasJob := true, faulted := false, parked := false }),
    startThreads p g]) s

/-- SEGMENT_COPY_DONE (R65, R76, R470 step 5): the loader's copies for a partition have ended: of a partition that is
loading, of one that reloads in a restart, or after a commit. -/
def execSegmentCopyDone (p now : Nat) (s : State) : Host.Outcome State Fault Refusal :=
  done (seq [advance now, fun s =>
    let a := get_parts s p
    let st := partState s p
    if 16 ≤ p then []
    else if st = 1 ∧ !a.loaded then
      if (s.load.bundles.filter (fun b => b.part == p)).all (fun b => b.st == 2) then
        if noFit s p then setF (FLT_PART_STAT_NOFIT p) 1 s
        else if copyFails s p then []
        else seq [copyAll p, setPart p (fun a => { a with loaded := true })] s
      else []
    else if st = 3 ∧ a.rstStep = 5 then
      if copyFails s p then reloadError p s
      else seq [copyAll p, setPart p (fun a => { a with rstStep := 6, rstEndAt := now })] s
    else if a.copyDue ∧ st = 2 then
      if copyFails s p then raiseJobFault p 3 [] s
      else seq [copyAll p, setPart p (fun a => { a with copyDue := false }),
        whenA (a.hadJob && !a.jobDone && !a.cancelled) (coresStart p)] s
    else []]) s

/-! ### The boot load (R74) -/

/-- The partitions that an image defines. -/
def imageParts (img : List Byte) : List Nat := (List.range 16).filter (fun p => (secOf img tyPARTITION p).isSome)

/-- Step 2 (R333): the training record of each enabled point and channel, its own or one of full training. `trained` gives
the replacements of records whose margin check failed; a record whose CRC fails and that has none takes free bytes. -/
def trainRecords (b : List Byte) (trained : List (Nat × Nat × List Byte)) : Act :=
  let pts := (List.range 3).filter (fun p => bit (num b 2 1) p)
  forEach (pts.zipIdx) (fun q => forEach (List.range 12) (fun c =>
    let r := sub8 b (0x80 + 6400 * q.2 + 256 + 512 * c) 512
    let repl := trained.find? (fun t => t.1 == q.1 && t.2.1 == c)
    let good := crc32 (sub8 r 0 508) == num r 508 4 && repl.isNone
    seq [withFree (fun k => upd (.trn (q.1 * 12 + c) (if good then r else match repl with
        | some t => sub8 (t.2.2 ++ List.replicate 512 0) 0 512
        | none => (List.range 512).map (fun i => BitVec.ofNat 8 (Config.fresh (k + i)))))),
      whenA (!good) (fun s => seq [
        setF (DDR_TRN_STAT_CHECK_FAIL c) (Nat.lor (getF s (DDR_TRN_STAT_CHECK_FAIL c)) (2 ^ q.1)),
        setF (DDR_TRN_STAT_TRAINED c) (Nat.lor (getF s (DDR_TRN_STAT_TRAINED c)) (2 ^ q.1))] s)]))

/-- Steps 1 to 3: CLOCKS, DRAM, ROUTE. -/
def loadLow (img : List Byte) (badLinks : List (Nat × Nat)) (trained : List (Nat × Nat × List Byte)) : Act :=
  let ck := secB img tyCLOCKS 0xFF
  let dr := secB img tyDRAM 0xFF
  let rt := secB img tyROUTE 0xFF
  let low := (((List.range 5).filter (fun k => bit (num ck 8 1) k)).getLast?).getD 4
  seq [applyW (clocksW img ck), setF CLK_STAT_FAB_PT low, forEach (List.range 8) (fun d => setPlls d low 7 7),
    applyW (dramW dr), trainRecords dr trained, setF DDR_PT_CUR (num dr 4 1),
    forEach (List.range 12) (fun c => seq [setF (DDR_CH_STAT_STATE c) 2, setF (DDR_CH_STAT_PT c) (num dr 4 1)]),
    applyW (routeW rt), setLoad (fun l => { l with dram := sub8 dr 0 0x80, linkEn := (sub8 rt 0x48 8).map (fun x => x.toNat) }),
    fun s => forEach ((List.range 8).filter (fun d => !dieRemoved s d)) dieLinks s,
    whenA (num rt 0 1 == 1) (seq [portStart 8 18, portStart 8 19]),
    forEach badLinks (fun l => linkDown l.1 l.2 4)]

/-- Steps 4 to 6: MEMMAP, BANKPOWER with the calibration of R548 (`cal`: energy and temperature of each die), REGULATE. -/
def loadMid (img : List Byte) (cal : List (Nat × Nat)) : Act :=
  let im : Im := ⟨none, img⟩
  let ps := imageParts img
  seq [applyW (memmapDevW (secB img tyMEMMAP 0xFF)),
    forEach ps (fun p => fun s => applyW (memmapW s p 0 (secB img tyMEMMAP p)) s),
    setLoad (fun l => { l with wins := (ps.map (fun p => winDecls p (secB img tyMEMMAP p))).flatten }),
    forEach (cal.zipIdx.take 8) (fun e => seq [setF (BND_SRAM_D_FJ e.2) e.1.1, setF (BND_SRAM_D_T e.2) e.1.2]),
    forEach ps (fun p => fun s => applyW (bankpowerW s im p) s),
    forEach (List.range 512) (fun i => bankSettle (i / 64) (i % 64)),
    applyW (regulateDevW (secB img tyREGULATE 0xFF)),
    forEach ps (fun p => fun s => applyW (regulateW s im p (secB img tyREGULATE p)) s)]

/-- Both anchor dies install what SUPERVISE gives (R462). -/
def ancInstall (x : Nat) : Act := fun s =>
  let b := s.load.supDev
  let off := up64 (0x100 + 24 * num b 0 1)
  seq [applyW (supDevW x b), applyW (tasksW x s.supTasks),
    forEach s.supTasks (fun t => setF (SUP_TASK_CFG_ACTIVE x t.task) (if t.owner < 16 ∧ !partStarted s t.owner then 0 else 1)),
    sramStore x 0x100000 (sub8 b off (num b 4 4))] s

/-- Steps 7 to 9: SUPERVISE, INGRESS, KVCACHE. A partition's tasks are held inactive until it starts (R76). -/
def loadSup (img : List Byte) : Act :=
  let im : Im := ⟨none, img⟩
  let ps := imageParts img
  let dev := secB img tySUPERVISE 0xFF
  let ing := secB img tyINGRESS 0xFF
  seq [applyW (limitsW dev), fun s => [.supTasks (vTasks s im)], setLoad (fun l => { l with supDev := dev }),
    forEach [0, 1] (fun x => fun s => if ancState s x = 1 ∨ ancState s x = 2 then ancInstall x s else []),
    applyW (ingressDevW ing), forEach (List.range 4) (fun k => upd (.spiStepCfg k (spiCfg ing k))),
    setLoad (fun l => { l with csi := sub8 ing 16 128 }),
    forEach ps (fun p => fun s => seq [applyW (ingressW s p (secB img tyINGRESS p)), contextsFollow p (secB img tyINGRESS p) []] s),
    forEach ps (fun p => fun s => seq [applyW (kvcacheW s p (secB img tyKVCACHE p)), cachesFollow p (secB img tyKVCACHE p) []] s),
    forEach (List.range 8) (fun d => writeEnable (KVC_CTL_EN d) (KVC_STAT_STATE d) true)]

/-- Step 10: PARTITION; the partitions are LOADING, their clusters wake at their highest enabled points (R74, R261). -/
def loadParts (img : List Byte) : Act :=
  let im : Im := ⟨none, img⟩
  let ps := imageParts img
  seq [forEach ps (fun p => fun s =>
      let b := secB img tyPARTITION p
      seq [applyW (partitionW s p b),
        setPart p (fun _ => { defined := true, opEn := num (secB img tyCLOCKS p) 4 1 }),
        setF (PRT_STAT_STATE p) 1, setF (PRT_STAT_EFF_LEVEL p) (num b 0 1)] s),
    setLoad (fun l => { l with bundles := (ps.map (fun p => bundlesOf p (secB img tyPARTITION p))).flatten }),
    winMasks,
    fun s =>
      let hi := ((twoPoints (getF s CLK_OP_EN_EN))[0]?).getD 4
      seq [setF CLK_STAT_FAB_PT hi,
        forEach (List.range 8) (fun d => match pllPlan s im d with | some q => setPlls d hi q.1 q.2 | none => nop)] s,
    forEach ps (fun p => fun s => seq [forEach (clustersOf s p) (fun c => clusterWake c.1 c.2), setPoints p (hiPoint s p)] s)]

/-- R37: RUN rises; N0, T_0 and PCH_EPOCH. -/
def runSet : Act := fun s =>
  let per := max 1 (period s)
  let n0 := (s.time + 1000000 + per - 1) / per
  seq [setF PCH_CFG_RUN 1, upd (.n0 n0), upd (.ticked false), wr64 PCH_EPOCH (n0 * per)] s

/-- Steps 1 to 11 of R74. `sync`: the device time of the first 802.1AS synchronisation, if one was received (R36). -/
def loaderSteps (img : List Byte) (sync : Option Nat) (badLinks : List (Nat × Nat)) (trained : List (Nat × Nat × List Byte))
    (cal : List (Nat × Nat)) : Act := seq [
  loadLow img badLinks trained, loadMid img cal, loadSup img, loadParts img,
  (match sync with
    | some t => seq [upd (.time t), upd (.timeFrac 0), upd (.timeSet true)]
    | none => setF PCH_STATUS_HOLDOVER 1),
  runSet]

/-! ### Partial topo (R79 to R82) -/

/-- A partial image leaves service. -/
def partialEnd : Act := seq [setLoad (fun l => { l with topo := none }), setF TOPO_STATUS_PART_STATE 0]

/-- SUBMIT (R82, R85): refused as busy while one is in progress; else Verify begins on the staged bytes. -/
def submit : Act := fun s =>
  if getF s TOPO_STATUS_PART_STATE ≠ 0 then seq [topoErr 0x0E 0xFF true, incReg TOPO_REJ_CNT] s
  else
    let b := staged s
    seq [setF TOPO_STATUS_PART_STATE 1, setF TOPO_STATUS_PART_ID (hPart b), setF TOPO_DEFER_DEFER_CNT 0,
      setLoad (fun l => { l with topo := some { part := hPart b % 16, img := b } })] s

/-- SUBMIT (R82). -/
def execSubmit (s : State) : Host.Outcome State Fault Refusal := done submit s

/-- Is device time in the guard of the present pitch (R47)? -/
def inGuard (s : State) (now : Nat) : Bool :=
  flag s PCH_STATUS_RUNNING && s.ticked && decide (tickTime s + period s - 200000 ≤ now)

/-- The partial in progress is cancelled with code 0x10. -/
def cancelPartial : Act := fun s => if getF s TOPO_STATUS_PART_STATE = 0 then [] else seq [topoErr 0x10 0xFF true, partialEnd] s

/-- A write of CANCEL: ignored in the guard of the pitch before the commit tick. -/
def cancelWrite (now : Nat) : Act := fun s =>
  if getF s TOPO_STATUS_PART_STATE = 3 ∧ inGuard s now then [] else cancelPartial s

/-- CANCEL ("The topo image"). -/
def execCancel (now : Nat) (s : State) : Host.Outcome State Fault Refusal := done (seq [advance now, cancelWrite now]) s

/-- PARTIAL_VERIFY_DONE (R67, R69): both anchor dies have made checks 0x01 to 0x05 and compared their results. -/
def execPartialVerifyDone (s : State) : Host.Outcome State Fault Refusal :=
  done (fun s => match s.load.topo with
    | none => []
    | some t =>
      if getF s TOPO_STATUS_PART_STATE ≠ 1 then [] else
      let v := verifyBoth s .part t.img
      if v ≠ 0 then seq [rejectImage v 0xFF true (hSeq t.img), partialEnd] s
      else setF TOPO_STATUS_PART_STATE 2 s) s

/-- Is a range used by a segment that partition `p` runs? -/
def segUsed (s : State) (p : Nat) (e : Nat × Nat × Nat) : Bool :=
  (chosen s p).any (fun b => (bunSegs (bundleBytes s b)).any (fun f => meets (e.2.2, e.2.1) (f.2.2, f.2.1)))

/-- PARTIAL_PREPARE_DONE (R67, R79): checks 0x06 to 0x0C, shadow copies, staged task entries, and the copies of segments
whose place the running structure does not use (R65). -/
def execPartialPrepareDone (s : State) : Host.Outcome State Fault Refusal :=
  done (fun s => match s.load.topo with
    | none => []
    | some t =>
      if getF s TOPO_STATUS_PART_STATE ≠ 2 ∨ t.prepared then [] else
      let im : Im := ⟨some t.part, t.img⟩
      let r := prepareChecks s im
      if r.1 ≠ 0 then seq [rejectImage r.1 r.2 true (hSeq t.img), partialEnd] s else
      let judged := (bundlesOf t.part (secB t.img tyPARTITION t.part)).map (fun b =>
        let d := bundleBytes s b
        { b with st := if bundleOk s im t.part d then 2 else 3, model := num d 6 1, mask := num d 8 4 })
      let tasks := (vTasks s im).filter (fun x => x.owner == t.part)
      let wins := match secOf t.img tyMEMMAP t.part with
        | some b => winDecls t.part b
        | none => s.load.wins.filter (fun w => w.owner == t.part)
      seq [setLoad (fun l => { l with topo := some { t with
          regs := partW s im t.part
          tasks := tasks
          bundles := judged
          wins := wins
          prepared := true } }),
        forEach (judged.filter (fun b => b.st == 3)) (fun b => bundleErr b.part b.idx 1),
        forEach (judged.filter (fun b => b.st == 2)) (fun b =>
          copySegs (.dma 8 28) b (fun e => !segUsed s t.part e && writeStatus s e.2.2 e.2.1 == 0))] s) s

/-- SUPERVISE_ACK (R80): anchor die `x` acknowledges the staged task entries. -/
def execSuperviseAck (x : Nat) (s : State) : Host.Outcome State Fault Refusal :=
  done (fun s => match s.load.topo with
    | none => []
    | some t => if x < 2 ∧ t.prepared ∧ ancRuns s x then
        setLoad (fun l => { l with topo := some { t with acks := putBits t.acks x x 1 } }) s else []) s

/-- PARTIAL_ARM (R80): in the guard, once both anchor dies have acknowledged. -/
def execPartialArm (now : Nat) (s : State) : Host.Outcome State Fault Refusal :=
  done (seq [advance now, fun s => match s.load.topo with
    | none => []
    | some t => if t.prepared ∧ t.acks = 3 ∧ getF s TOPO_STATUS_PART_STATE = 2 ∧ inGuard s now then
        seq [setF TOPO_STATUS_PART_STATE 3, setLoad (fun l => { l with topo := some { t with guardPitch := some (pitchNum s) } })] s
      else []]) s

/-- R77: both anchor dies and the loader follow a commit with the running measurement. -/
def measCommit (n : Nat) (img : List Byte) : Act := fun s =>
  let h := sha256 img
  let m := sha256 (measNow s ++ h)
  seq [forEach (List.range 8) (fun i => wr (TOPO_MEAS i) (num m (4 * i) 4)),
    forEach [0, 1] (fun x => fun s =>
      let d := get_ids s x
      [.ids x { d with prev := d.meas, meas := sha256 (d.meas ++ h), commitAt := n }])] s

/-- The commit at tick `n` (R79, R81): shadows and staged entries take effect, released clusters are gated, banks take their
new states, caches and contexts follow. -/
def partialCommit (n : Nat) (t : Partial) : Act := fun s =>
  let p := t.part
  let oldCaches := ((List.range 16).filter (fun c => (kv s c).owner == p)).map (fun c => (c, runCache s c))
  let oldClus := (List.range 32).filter (fun i => getF s (PRT_CLU_PART (i / 4) (i % 4)) == p)
  let oldBanks := (List.range 512).filter (fun i => getF s (MAP_BNK_OWN_PART (i / 64) (i % 64)) == p)
  let oldTasks := s.supTasks.filter (fun x => x.owner == p)
  let oldCtxs := ((List.range 24).filter (fun x => (ctx s x).part == p)).map (fun x => (x, runCtx s x))
  let im : Im := ⟨some p, t.img⟩
  seq [applyW t.regs,
    setLoad (fun l => { l with
      topo := none
      wins := l.wins.filter (fun w => w.owner != p) ++ t.wins
      bundles := l.bundles.filter (fun b => b.part != p) ++ t.bundles }),
    winMasks,
    upd (.supTasks (s.supTasks.filter (fun x => x.owner != p) ++ t.tasks)),
    forEach [0, 1] (fun x => fun s => if !ancRuns s x then [] else
      seq [applyW (tasksDropW x oldTasks), applyW (tasksW x t.tasks),
        forEach t.tasks (fun e => setF (SUP_TASK_CFG_ACTIVE x e.task) (if partStarted s p then 1 else 0))] s),
    (match secOf t.img tyCLOCKS p with
      | some b => setPart p (fun a => { a with opEn := num b 4 1 })
      | none => nop),
    (match secOf t.img tyINGRESS p with | some b => contextsFollow p b oldCtxs | none => nop),
    (match secOf t.img tyKVCACHE p with | some b => cachesFollow p b oldCaches | none => nop),
    forEach (List.range 8) (fun d => match pllPlan s im d with
      | some q => setPlls d (getF s (CLK_CD_PLL_F_PT d)) q.1 q.2
      | none => nop),
    fun s => seq [
      forEach (oldClus.filter (fun i => getF s (PRT_CLU_PART (i / 4) (i % 4)) != p)) (fun i => clusterGate (i / 4) (i % 4)),
      forEach (clustersOf s p) (fun c => clusterWake c.1 c.2),
      forEach oldBanks (fun i => bankSettle (i / 64) (i % 64)),
      banksSettle p, setPoints p (hiPoint s p)] s,
    setPart p (fun a => { a with copyDue := true }),
    wr64 TOPO_APPLY n, measCommit n t.img, setF TOPO_STATUS_PART_STATE 0] s

/-- R80 and "When a commit meets something else at the tick": an armed partial at tick `n`. It commits if its partition was
done and is ACTIVE with no restart decided, and is otherwise deferred, or abandoned at MAX_DEFER. -/
def partialTick (n : Nat) : Act := fun s =>
  match s.load.topo with
  | none => []
  | some t =>
    if getF s TOPO_STATUS_PART_STATE ≠ 3 then []
    else if bit (getF s PCH_DONE_DONE) t.part ∧ partState s t.part = 2 ∧ (get_parts s t.part).rstDue = none then partialCommit n t s
    else
      let k := getF s TOPO_DEFER_DEFER_CNT + 1
      seq [setF TOPO_DEFER_DEFER_CNT k,
        whenA (decide (getF s TOPO_DEFER_MAX_DEFER ≤ k)) (seq [topoErr 0x0F 0xFF true, incReg TOPO_REJ_CNT, partialEnd])] s

/-- A write of TOPO_CMD (R85): 1 SUBMIT, 2 CANCEL, 3 CONFIRM, 4 WRITE_SLOT. -/
def topoCmd (v now : Nat) : Act :=
  match v % 16 with
  | 1 => submit
  | 2 => cancelWrite now
  | 3 => confirmSlot true true
  | 4 => fun s => slotWrite (1 - getF s TOPO_STATUS_RUN_SLOT) (staged s) s
  | _ => nop

end Sys2Proof.Machine
end

