-- ==== Sys2Proof/Machine/Faults.lean ====
section
/-! DEFINITION. The fault controller (R464 to R485): job faults and the retry doctrine, partition restarts, the restart of
all compute dies, suspect dies and rebalancing, self-test. -/
namespace Sys2Proof.Machine

/-! ### Job faults and the retry (R464 to R468) -/

/-- Does a job of the partition run (R464)? -/
def jobRuns (s : State) (p : Nat) : Bool :=
  let a := get_parts s p
  a.hadJob && !a.jobDone && !a.cancelled

/-- A record of the fault controller to both anchor dies (R465, R584): 0 FAULT, 1 TRANSIENT, 2 LASTING. -/
def faultRecord (what p code : Nat) (dies : List Nat) : Act :=
  sendEvent 4 [4, what, p, code, (dies.min?).getD 0,
    (if dies.isEmpty then 1 else 0) + (if 1 < dies.length then 2 else 0)] 8 0

/-- A job of `p` ends at once (R465): its cores stop and discard their threads without a save; a cluster lent out keeps its
borrower, and one lent to `p` returns to its lender (R474). -/
def jobEnd (p : Nat) : Act := fun s =>
  seq [forEach (coresOf s p) (fun g => fun s =>
      let co := get_cores s g
      if co.part ≠ p ∧ co.hasJob then setCore g (fun c => { c with saved := none }) s
      else if co.sw ≠ 0 then seq [coreStop g,
        setCore g (fun c => { c with hasJob := false, faulted := false, saved := none }), setF (CORE_STAT_PREEMPTED g) 0] s
      else coreDiscard g s),
    leaveLent p,
    setPart p (fun a => { a with cancelled := true })] s

/-- Tasks of `p` that no anchor die has a report of in this pitch. -/
def unreported (s : State) (p : Nat) : List TaskEnt :=
  s.supTasks.filter (fun t => t.owner == p && !(anc s 0).reports.any (fun r => r.1 == t.task)
    && !(anc s 1).reports.any (fun r => r.1 == t.task))

/-- A fault is lasting (R467): LASTING, and a restart; kept banks stay where both faults name the same single die (R472). -/
def lastingFault (p code : Nat) (dies : List Nat) : Act := fun s =>
  let same := match (get_parts s p).firstDies, dies with
    | some [a], [b] => if a = b then some (some a) else none
    | _, _ => none
  seq [incReg (FLT_PART_LAST_CNT p), faultRecord 2 p code dies, decideRestart p 1 same] s

/-- The fault controller takes a job fault (R464, R465, R467); `inPitch`: before the tick that ends the pitch. -/
def takeFault (p code : Nat) (dies : List Nat) (inPitch : Bool) : Act := fun s =>
  let a := get_parts s p
  seq [incReg (FLT_PART_FAULT_CNT p),
    if !a.hadJob || a.faulted then nop else seq [
      faultRecord 0 p code dies,
      setF (FLT_PART_LAST_CODE p) code, setF (FLT_PART_LAST_DIE p) ((dies.min?).getD 0),
      setF (FLT_PART_LAST_NODIE p) (if dies.isEmpty then 1 else 0), setF (FLT_PART_LAST_VALID p) 1,
      setF (FLT_PART_LAST_MULTI p) (if 1 < dies.length then 1 else 0), setF (FLT_PART_LAST_PITCH p) (pitch16 s),
      setPart p (fun a => { a with faulted := true }),
      whenA (!a.jobDone) (jobEnd p),
      if flag s (FLT_PART_STAT_RETRY p) then seq [setF (FLT_PART_STAT_RETRY p) 0, lastingFault p code dies]
      else seq [setF (FLT_PART_STAT_RETRY p) 1,
        setPart p (fun b => { b with
          firstDies := some dies
          restartIn := inPitch && code != 2 && !a.jobDone && partState s p == 2
            && (unreported s p).all (fun t => t.restartFits) })]]] s

/-- Partition whose job runs on a core. -/
def faultPart (s : State) (g : Nat) : Nat :=
  let c := get_cores s g
  if c.part < 16 then c.part else coreOwner s g

/-- The next message for the fault controller that concerns partition `p`: a job fault, or a thread fault (R129, R464). -/
def faultNext (p : Nat) (inPitch : Bool) : Act := fun s =>
  match s.jobFaults.find? (fun m => m.1 == p) with
  | some m => seq [upd (.jobFaults (s.jobFaults.erase m)), takeFault p m.2.1 m.2.2 inPitch] s
  | none => match s.faultMsgs.find? (fun m => faultPart s m.1 == p) with
    | some m => seq [upd (.faultMsgs (s.faultMsgs.erase m)), takeFault p 1 [m.1 / 32] inPitch] s
    | none => []

/-- Every message still on its way when a tick ends the pitch. -/
def faultAll : Act := fun s =>
  seq [forEach s.jobFaults (fun m => faultNext m.1 false),
    forEach s.faultMsgs (fun m => faultNext (faultPart s m.1) false)] s

/-- JOB_FAULT (R464). -/
def execJobFault (p : Nat) (s : State) : Host.Outcome State Fault Refusal :=
  done (if p < 16 then faultNext p true else nop) s

/-- A write of FLT_PART_RAISE (R464, R486): from the cores of the partition's clusters alone. -/
def raiseWrite (src : Master) (p : Nat) : Act := fun s =>
  match src with
  | .core g => if coreOwner s g = p ∧ p < 16 then
      (if jobRuns s p then raiseJobFault p 4 [] else incReg (FLT_PART_FAULT_CNT p)) s
    else recordRefusal src (FLT_PART_RAISE p) s
  | _ => recordRefusal src (FLT_PART_RAISE p) s

/-- FLT_PART_RAISE (R464). -/
def execFltPartRaise (src : Master) (p : Nat) (s : State) : Host.Outcome State Fault Refusal := done (raiseWrite src p) s

/-- Threads of a core as a release starts them (R107). -/
def freshThreads (s : State) (p g : Nat) : List (Nat × Thread) :=
  ((s.progs.filter (fun e => e.part == p && e.core == g)).map (fun e =>
    ((List.range 64).filter (fun t => bit e.mask t)).map (fun t => (t, freshThread (pitchNum s) (entryPc s e t) 0)))).flatten

/-- JOB_RESTART_IN_PITCH (R468): once the issued transactions of its cores have ended, the threads start as at release; a
core that serves a borrower takes them at the end of its window. -/
def execJobRestartInPitch (p : Nat) (s : State) : Host.Outcome State Fault Refusal :=
  done (fun s =>
    if 16 ≤ p ∨ !(get_parts s p).restartIn ∨ !(coresOf s p).all (fun g => slotsUsed s g == 0 || (get_cores s g).part != p) then []
    else seq [
      setPart p (fun a => { a with restartIn := false, cancelled := false, faulted := false }),
      forEach ((coresOf s p).filter (fun g => getF s (PRT_CLU_PWR (g / 32) (g % 32 / 8)) == 2)) (fun g => fun s =>
        let co := get_cores s g
        seq [setF (CORE_STAT_ARRIVED g) 0,
          if co.sw = 0 ∧ (co.part = p ∨ !co.hasJob) then seq [
            setCore g (fun c => { c with part := p, jobPitch := pitchNum s, hasJob := true, faulted := false, parked := false }),
            startThreads p g]
          else setCore g (fun c => { c with saved := some ⟨freshThreads s p g,
            (List.range 8).map (fun e => (e, {})), slotAddr s g + 4096, false⟩ })] s)] s) s

/-- R467 at a tick: partitions whose PCH_DONE bit was set. -/
def retryTick : Act := fun s =>
  forEach ((List.range 16).filter (fun p => bit (getF s PCH_DONE_DONE) p)) (fun p => fun s => seq [
    whenA (flag s (FLT_PART_STAT_RETRY p)) (seq [setF (FLT_PART_STAT_RETRY p) 0, incReg (FLT_PART_TRANS_CNT p),
      faultRecord 1 p (getF s (FLT_PART_LAST_CODE p))
        (if flag s (FLT_PART_LAST_NODIE p) then [] else (get_parts s p).firstDies.getD [])]),
    setF (FLT_PART_STAT_CARRY p) (1 - getF s (FLT_PART_STAT_CARRY p))] s) s

/-! ### Partition restart (R470 to R474) -/

/-- Banks that a restart keeps (R472): mirrored ones and their partners, on dies in service. -/
def keptBank (s : State) (p d b : Nat) : Bool :=
  (get_parts s p).rstKeep.isSome && !dieRemoved s d && (bit (rd64 s (MAP_MIR d)) b || bit (rd64 s (MAP_MIR (partner d))) b)

/-- Does every bank of a range stay? A range outside the banks needs none. -/
def keptRange (s : State) (p a len : Nat) : Bool :=
  match locOf s a with
  | .bank d b => (List.range ((a % 0x100000 + len + 0xFFFFF) / 0x100000)).all (fun i => keptBank s p d (b + i))
  | .none => false
  | _ => true

/-- A cache whose banks all stay keeps its sequences (R472). -/
def keptCache (s : State) (p c : Nat) : Bool :=
  (get_parts s p).rstKeep.isSome &&
  (List.range (kvNdies s c)).all (fun i => keptRange s p (kvPool s c i) (kvPoolPages s c * 2 ^ kvE s c 0x17 1)) &&
  keptRange s p (kvRecBase s c) (kvSeqCnt s c * 2048)

/-- A bank goes OFF and wakes to zero (R470 step 4, R181). -/
def bankClear (d b : Nat) : Act := seq [
  releaseBankWatches d b, loseContents (bankBase d b) 0x100000,
  setF (BNK_PWR_STATE d b) bkOFF, upd (.bankTarget (d * 64 + b) 0), bankSettle d b]

/-- Pitches from an entry tick to its rejoin tick (R471, R478). -/
def rstPitches (s : State) (all : Bool) : Nat := (if all then 1200000000 else 300000000) / max 1 (period s) - 1

/-- Steps 1 to 4 of R470 at entry tick `n`; the reload of step 5 ends at SEGMENT_COPY_DONE. `bad`: dies in which the test
step finds a lasting fault; `all`: a restart of all compute dies, which tests its dies itself. -/
def restartSteps (p n : Nat) (bad : List Nat) (all : Bool) : Act := fun s =>
  let fails := if all then [] else bad.filter (fun d => decide (d < 8) && hasOnDie s p d && !dieRemoved s d)
  seq [forEach (coresOf s p) coreDiscard, leaveLent p, partDrop p, kvRemirror p,
    setPart p (fun a => { a with
      hadJob := false
      restartIn := false
      restartHeld := false
      rstDue := none
      rstEntry := n
      rstRejoin := n + rstPitches s all
      rstStep := 5
      loaded := false }),
    setF (PRT_STAT_STATE p) 3, setF (FLT_PART_STAT_RST_LEFT p) (min 255 (rstPitches s all)),
    forEach fails (fun d => seq [incReg (FLT_DIE_FAIL_CNT d), dieRemove d]),
    fun s => if noFit s p then seq [setF (FLT_PART_STAT_NOFIT p) 1, setPart p (fun a => { a with rstStep := 7 })] s
      else seq [
        forEach (clustersOf s p) (fun c => seq [clusterGate c.1 c.2, clusterWake c.1 c.2]),
        forEach ((List.range 16).filter (fun c => (kv s c).owner == p && !keptCache s p c)) (fun c => kvReset c p),
        forEach ((banksOf s p).filter (fun b => !keptBank s p b.1 b.2)) (fun b => bankClear b.1 b.2),
        fun s => forEach ((banksOf s p).filter (fun b => keptBank s p b.1 b.2)) (fun b => bankSettle b.1 b.2) s] s] s

/-- Partition `p` enters RESTART at tick `n` with a cause (R470); the third entry within 60 s clears every bank and leads to
BIVOUAC (R472, R474). -/
def restartEnter (p n cause : Nat) (bad : List Nat) (all : Bool) : Act := fun s =>
  let times := s.time :: (get_parts s p).rstTimes.filter (fun t => decide (s.time ≤ t + 60000000000))
  let third := decide (3 ≤ times.length)
  seq [whenA (partState s p == 5) (setPoints p (hiPoint s p)),
    incReg (FLT_PART_RST_CNT p), setF (FLT_PART_STAT_CAUSE p) cause,
    setPart p (fun a => { a with
      rstTimes := times
      rstHold := third
      rstKeep := if third || all then none else a.rstKeep }),
    restartSteps p n bad all] s

/-- R471: partition `p` leaves RESTART at tick `n`: ACTIVE, or BIVOUAC held after the third entry (R474). -/
def rejoin (p n : Nat) : Act := fun s =>
  seq [setPart p (fun a => { a with rstStep := 0, rstHold := false }), setF (FLT_PART_STAT_RST_LEFT p) 0,
    if (get_parts s p).rstHold then seq [setF (PRT_BIV_REQ p) 1, setF (PRT_BIV_HOLD p) 1, setF (FLT_PART_STAT_HELD p) 1,
      bivEnter p n, banksSettle p]
    else seq [setF (PRT_STAT_STATE p) 2, setF (FLT_PART_STAT_LOAD_ERR p) 0]] s

/-- Partition `p` in RESTART at tick `n`: it begins again after a reload error (R473), rejoins (R471), or waits. -/
def restartWait (p n : Nat) (bad : List Nat) : Act := fun s =>
  let a := get_parts s p
  if a.rstStep = 4 then restartSteps p n bad false s
  else if a.rstStep = 6 ∧ a.rstRejoin ≤ n ∧ a.rstEndAt + 1000000 ≤ s.time then rejoin p n s
  else setF (FLT_PART_STAT_RST_LEFT p) (if a.rstStep = 7 then 0 else min 255 (max 1 (a.rstRejoin - n))) s

/-- Restarts at tick `n`: those decided before the tick (`due`), those held and freed by the clear of REQ (R264), those
under way. -/
def restartTick (n : Nat) (due : List (Nat × Nat)) (bad : List Nat) : Act := fun s =>
  forEach (List.range 16) (fun p => fun s =>
    let a := get_parts s p
    let st := partState s p
    match due.find? (fun e => e.1 == p) with
    | some e =>
      if st = 2 ∨ st = 6 then restartEnter p n e.2 bad false s
      else if st = 5 ∧ a.restartHeld ∧ !flag s (PRT_BIV_REQ p) then restartEnter p n e.2 bad false s
      else if st = 3 then restartWait p n bad s
      else []
    | none =>
      if st = 5 ∧ a.restartHeld ∧ a.rstDue = none ∧ !flag s (PRT_BIV_REQ p) then
        seq [setPoints p (hiPoint s p), restartSteps p n bad false] s
      else if st = 3 then restartWait p n bad s
      else []) s

/-- Restarts decided before a tick, with their causes. -/
def restartsDue (s : State) : List (Nat × Nat) :=
  (List.range 16).filterMap (fun p => (get_parts s p).rstDue.map (fun c => (p, c)))

/-! ### Restart of all compute dies (R478) -/

/-- Is a restart of all compute dies due: software asked, or dies of both failure domains went since the last tick? -/
def allDue (s : State) : Bool :=
  s.flt.allDue || (s.flt.removed.any (fun d => decide (d < 4)) && s.flt.removed.any (fun d => decide (4 ≤ d)))

/-- The restart of all compute dies at tick `n`; the dies in `bad` fail their test and stay removed. -/
def allRestart (n : Nat) (bad : List Nat) : Act := fun s =>
  let st := (List.range 16).map (fun p => (p, partState s p))
  seq [incReg FLT_ALL_CNT, upd (.flt { s.flt with allDue := false, removed := [], gone := [] }),
    forEach (List.range 8) dieReset,
    forEach (List.range 8) (fun d => dieTest d (!bad.contains d)),
    forEach st (fun e =>
      if e.2 = 1 then setPart e.1 (fun a => { a with loaded := false })
      else if e.2 = 2 ∨ e.2 = 3 ∨ e.2 = 6 then restartEnter e.1 n 4 bad true
      else if e.2 = 4 ∨ e.2 = 5 then setPart e.1 (fun a => { a with restartHeld := true, rstDue := some 4, rstKeep := none })
      else nop)] s

/-- ALL_RST (R478). -/
def execAllRst (src : Master) (s : State) : Host.Outcome State Fault Refusal :=
  done (guarded (swWriteOk src) src FLT_CTL (fun s => [.flt { s.flt with allDue := true }])) s

/-- A write of READMIT (R475): a removed die is tested; `pass` says how the test ends. A die without supply fails. -/
def readmit (d : Nat) (pass : Bool) : Act := fun s =>
  if dieRemoved s d then dieTest d (pass && !(get_rails s (railOf d)).below) s else []

/-- READMIT (R475). -/
def execReadmit (src : Master) (d : Nat) (pass : Bool) (s : State) : Host.Outcome State Fault Refusal :=
  done (guarded (swWriteOk src && decide (d < 8)) src (FLT_DIE_CTL d) (readmit d pass)) s

/-- A write of UNHOLD (R474). -/
def unhold (p : Nat) : Act := seq [setF (PRT_BIV_HOLD p) 0, setF (FLT_PART_STAT_HELD p) 0]

/-- UNHOLD (R474). -/
def execUnhold (src : Master) (p : Nat) (s : State) : Host.Outcome State Fault Refusal :=
  done (guarded (swWriteOk src && decide (p < 16)) src (FLT_PART_CTL p) (unhold p)) s

/-! ### Suspect dies and rebalancing (R479, R480) -/

/-- LAST_N and SUSPECT of every die, from the lags of the last 64 pitches. -/
def suspectShow : Act := fun s =>
  forEach (List.range 8) (fun d => fun s =>
    let k := (s.flt.lags.filter (fun e => e.1 == d)).length
    let n := getF s FLT_POL_SUS_N
    seq [setF (FLT_DIE_STAT_LAST_N d) (min 127 k),
      if n ≤ k then setF (FLT_DIE_STAT_SUSPECT d) 1
      else if 2 * k < n then setF (FLT_DIE_STAT_SUSPECT d) 0 else nop] s) s

/-- The window of 64 pitches moves on with tick `n`. -/
def lagTick (n : Nat) : Act := seq [
  fun s => [.flt { s.flt with lags := s.flt.lags.filter (fun e => decide (n < e.2 + 64)) }], suspectShow]

/-- The lag of a barrier (R479): `times` gives each die and when its report arrived. -/
def noteLag (times : List (Nat × Nat)) : Act := fun s =>
  match times.foldl (fun (m : Option (Nat × Nat)) e => match m with
      | none => some e
      | some x => if x.2 < e.2 then some e else some x) none with
  | none => []
  | some l =>
    match ((times.filter (fun e => e.1 != l.1)).map (·.2)).max? with
    | none => []
    | some t => if getF s FLT_POL_LAG_US * 1000 ≤ l.2 - t then
        seq [upd (.flt { s.flt with lags := s.flt.lags ++ [(l.1, pitchNum s)] }), suspectShow] s
      else []

/-- A write of FLT_SHARE: any byte below 64 is raised to 64 (R480). -/
def shareWrite (p hi v : Nat) : Act :=
  wr (FLT_SHARE p + 4 * (hi % 2)) (leNat ((leBytes 4 v).map (fun b => if b.toNat < 64 then 64 else b)))

/-- FLT_SHARE_WRITE (R480): the _LO (0) or _HI (1) register of partition `p`. -/
def execFltShareWrite (src : Master) (p hi v : Nat) (s : State) : Host.Outcome State Fault Refusal :=
  done (guarded (swWriteOk src && decide (p < 16)) src (FLT_SHARE p) (shareWrite p hi v)) s

/-- REBALANCE (R480, R537): in the guard the policy lowers the share of a suspect die, and of a hot one, by 32, and raises
the others by 32. -/
def rebalance : Act := fun s =>
  if !flag s FLT_POL_REB_EN then [] else
  forEach ((List.range 16).filter (fun p => partDefined s p)) (fun p => fun s =>
    let v := rd64 s (FLT_SHARE p)
    let next (d : Nat) : Nat :=
      let x := v / 256 ^ d % 256
      if flag s (FLT_DIE_STAT_SUSPECT d) || s.thm.hot.contains (d * 16 + p) then max 64 (x - 32) else min 255 (x + 32)
    wr64 (FLT_SHARE p) (leNat ((List.range 8).map (fun d => BitVec.ofNat 8 (next d)))) s) s

/-! ### Self-test (R481 to R484) -/

/-- Cluster clock in units of 50 MHz by point code (R511); 0 stopped. -/
def pointF (k : Nat) : Nat := if k = 0 then 52 else if k = 1 then 44 else if k = 2 then 36 else if k = 3 then 26 else if k = 4 then 13 else 0

/-- Cycles of a slice and of a checkpoint interval (R481, R482). -/
abbrev sliceCycles : Nat := 520000
abbrev sliceStep : Nat := 26000

/-- Time in ns, rounded up, of a number of cycles of a cluster at its current clock; none where it is stopped. -/
def cyclesNs (s : State) (d c k : Nat) : Option Nat :=
  let f := pointF (getF s (CLK_CLU_PT_CUR d c))
  if f = 0 then none else some ((k * 20 + f - 1) / f)

/-- Slack end of a cluster (R482): the guard, or a lend window that has not begun. Restarts begin at ticks, later. -/
def slackEnd (s : State) (d c : Nat) : Nat :=
  let guard := tickTime s + period s - 200000
  let w := atUs s (getF s (PRT_WSTART_US d c))
  if getF s (PRT_LEND_BORROWER d c) < 16 ∧ getF s (PRT_WSTART_US d c) ≠ 0 ∧ s.time ≤ w then min guard w else guard

/-- Do `k` more cycles on a cluster, plus 2 µs, end by its slack end? -/
def sliceFits (s : State) (d c k : Nat) : Bool :=
  match cyclesNs s d c k with
  | none => false
  | some t => decide (s.time + t + 2000 ≤ slackEnd s d c)

/-- Has every core of the cluster arrived, or has the cluster no job (R482)? -/
def cluIdle (s : State) (d c : Nat) : Bool :=
  (cluCores d c).all (fun g => !(get_cores s g).hasJob || (flag s (CORE_STAT_ARRIVED g) && (get_cores s g).part == coreOwner s g))

/-- What a slice leaves in the bytes it uses of each engine's operand buffer (R481) is open. -/
def sliceBytes (d c : Nat) : Act :=
  forEach (cluCores d c) (fun g => forEach (List.range 8) (fun e =>
    withFree (fun k => storeBytes (bufOf g e + 0x1F000) ((List.range 4096).map (fun i => BitVec.ofNat 8 (Config.fresh (k + i)))))))

/-- The slice running on a die's test controller. -/
def sliceOn (s : State) (d : Nat) : Option Slice := s.flt.slices.find? (fun x => x.die == d)

/-- Remove a die's slice. -/
def sliceDrop (d : Nat) : Act := fun s => [.flt { s.flt with slices := s.flt.slices.filter (fun x => x.die != d) }]

/-- SLICE_START (R482, R484): the scheduling policy starts slice `k` on cluster `c` of die `d`. -/
def execSliceStart (d c k now : Nat) (s : State) : Host.Outcome State Fault Refusal :=
  done (seq [advance now, fun s =>
    if d < 8 ∧ c < 4 ∧ k < 8 ∧ flag s FLT_POL_ST_EN ∧ flag s PCH_STATUS_RUNNING ∧ s.ticked ∧ getF s (FLT_DIE_STAT_STATE d) = 0
      ∧ getF s (PRT_CLU_PWR d c) = 2 ∧ sliceOn s d = none ∧ cluIdle s d c ∧ sliceFits s d c sliceCycles then
      seq [upd (.flt { s.flt with slices := s.flt.slices ++ [⟨d, c, k, 0⟩] }), sliceBytes d c] s
    else []]) s

/-- A slice is abandoned (R482). -/
def sliceAbandon (d c : Nat) : Act := seq [sliceDrop d, incReg FLT_ST_ABANDON_CNT, sliceBytes d c]

/-- SLICE_CHECKPOINT (R482): every 26,000 cycles the slice goes on only if it still ends by the slack end, and not across a
restart within the pitch or PARKING of its partition. -/
def execSliceCheckpoint (d now : Nat) (s : State) : Host.Outcome State Fault Refusal :=
  done (seq [advance now, fun s =>
    match sliceOn s d with
    | none => []
    | some x =>
      let k := x.cycles + sliceStep
      let p := getF s (PRT_CLU_PART d x.clu)
      if sliceCycles ≤ k then []
      else if sliceFits s d x.clu (sliceCycles - k) && !((get_parts s p).restartIn || partState s p == 4) && cluIdle s d x.clu then
        [.flt { s.flt with slices := s.flt.slices.map (fun y => if y.die = d then { y with cycles := k } else y) }]
      else sliceAbandon d x.clu s]) s

/-- SLICE_END (R481, R483): a slice has run all its cycles. A first failure is run again; a pass of the repeat makes it
transient, and a second failure removes the die. -/
def execSliceEnd (d now : Nat) (pass : Bool) (s : State) : Host.Outcome State Fault Refusal :=
  done (seq [advance now, fun s =>
    match sliceOn s d with
    | none => []
    | some x =>
      if x.cycles + sliceStep < sliceCycles then [] else
      let key := (d * 4 + x.clu, x.slice)
      let again := s.flt.failed.contains key
      seq [sliceDrop d, sliceBytes d x.clu,
        if pass then seq [incReg FLT_ST_SLICE_CNT,
          fun s => [.flt { s.flt with
            passed := if s.flt.passed.contains key then s.flt.passed else s.flt.passed ++ [key]
            failed := s.flt.failed.erase key }],
          whenA again (faultRecord 1 (getF s (PRT_CLU_PART d x.clu)) 0 [d])]
        else if again then seq [incReg (FLT_DIE_FAIL_CNT d),
          fun s => [.flt { s.flt with failed := s.flt.failed.erase key }], dieRemove d]
        else seq [incReg (FLT_DIE_FAIL_CNT d), fun s => [.flt { s.flt with failed := s.flt.failed ++ [key] }]]] s]) s

/-- SELF_TEST_WINDOW_END (R484): a window of 100 ms from T_0 ends; it was covered if every owned cluster in service passed
its 8 slices. -/
def execSelfTestWindowEnd (now : Nat) (s : State) : Host.Outcome State Fault Refusal :=
  done (seq [advance now, fun s =>
    if !flag s PCH_STATUS_RUNNING ∨ now < rd64 s PCH_EPOCH + (s.flt.window + 1) * 100000000 then [] else
    let clus := (List.range 32).filter (fun i => decide (getF s (PRT_CLU_PART (i / 4) (i % 4)) < 16) && !dieRemoved s (i / 4))
    let covered := clus.all (fun i => (List.range 8).all (fun k => s.flt.passed.contains (i, k)))
    seq [upd (.flt { s.flt with window := s.flt.window + 1, passed := [] }),
      if covered then seq [setF FLT_ST_STAT_COV_MISS 0, setF FLT_ST_STAT_MISS_RUN 0]
      else seq [setF FLT_ST_STAT_COV_MISS 1, incSat FLT_ST_STAT_MISS_RUN]] s]) s

/-! ### Watchdog (R485) -/

/-- MANAGEMENT_WATCHDOG (R474, R485): the management core restarts. A partial topo in progress is cancelled, and restarts
in their steps 3 to 5 resume from step 3. -/
def execManagementWatchdog (s : State) : Host.Outcome State Fault Refusal :=
  done (seq [cancelPartial, fun s =>
    forEach ((List.range 16).filter (fun p => partState s p == 3 && (get_parts s p).rstStep == 5)) (fun p => fun s =>
      if noFit s p then seq [setF (FLT_PART_STAT_NOFIT p) 1, setPart p (fun a => { a with rstStep := 7 })] s else []) s]) s

end Sys2Proof.Machine
end

