-- ==== Sys2Proof/Machine/Boot.lean ====
section
/-! DEFINITION. Boot of the anchor dies and release of the I/O die (R495 to R500, R457), resets and power (R518 to R525,
R541), attestation quotes (R502, R503). -/
namespace Sys2Proof.Machine

/-! ### Times of the anchor dies -/

/-- Device time is set to `to_`. Anchor time goes on as it was (R435); times that the supervisors and the monitor hold move
with device time. -/
def rebaseTo (to_ : Nat) : Act := fun s =>
  let t := s.time
  seq [upd (.time to_), upd (.timeFrac 0),
    forEach [0, 1] (fun x => setAnc x (fun a => { a with off := a.off + t - to_ })),
    upd (.mon { s.mon with
      expiry := s.mon.expiry.map (fun e => e + to_ - t)
      nonce := s.mon.nonce.map (fun n => (n.1, n.2 + to_ - t)) }),
    forEach s.rails (fun r => upd (.rails r.1 { r.2 with
      fallAt := r.2.fallAt.map (fun e => e + to_ - t)
      riseAt := r.2.riseAt.map (fun e => e + to_ - t) }))] s

/-- Device time starts anew when the I/O die leaves reset (R35). -/
def rebase : Act := rebaseTo 0

/-! ### Reset of the I/O domain (R524) -/

/-- Empty a table. -/
def clearTab {α : Type} (t : List (Nat × α)) (mk : Nat → Upd) : Act := forEach t (fun e => upd (mk e.1))

/-- DRAM loses its contents (R525). -/
def dramLoss : Act := seq [upd (.memDrop 0 0x100000000000), fun s => clearTab s.lineEcc (fun k => .lineEcc k 0) s]

/-- The scratchpads lose their contents. DRAM keeps its own while its supplies hold (DEDUCED, notes/assumptions). -/
def memReset : Act := seq [upd (.memDrop 0x100000000000 0xF00000000000), fun s => clearTab s.ecc (fun k => .ecc k 0) s,
  upd (.wbPending [])]

/-- Work in flight between the units. -/
def flightReset : Act := fun s => seq [
  upd (.resps []), upd (.txns []), upd (.lateTags []), clearTab s.ports (fun k => .ports k {}), upd (.held []),
  clearTab s.watches (fun k => .watches k []), upd (.watchMsgs []), clearTab s.bankHeld (fun k => .bankHeld k []),
  clearTab s.bankTarget (fun k => .bankTarget k 0), upd (.faultMsgs []), upd (.jobFaults []), upd (.fwd []),
  upd (.regReqs []), clearTab s.regPorts (fun k => .regPorts k {}), upd (.pcieOut []), upd (.pcieCfgRd none)] s

/-- Compute dies and partitions. -/
def computeReset : Act := fun s => seq [
  clearTab s.threads (fun k => .threads k {}), clearTab s.cores (fun k => .cores k {}),
  clearTab s.engines (fun k => .engines k {}), clearTab s.diePitch (fun k => .diePitch k 0),
  clearTab s.scrubPos (fun k => .scrubPos k 0), upd (.boxQueue []), upd (.boxRun none), clearTab s.kvs (fun k => .kvs k {}),
  clearTab s.parts (fun k => .parts k {}), clearTab s.dmas (fun k => .dmas k {}), upd (.progs []), upd (.supTasks []),
  upd (.flt {}), upd (.load {})] s

/-- The DRAM controllers. -/
def dramReset : Act := fun s => seq [
  clearTab s.subchs (fun k => .subchs k {}), clearTab s.trackers (fun k => .trackers k []), upd (.throttles []),
  upd (.errRing []), upd (.errRingOvf 0), clearTab s.patrolLine (fun k => .patrolLine k 0),
  upd (.retTimes []), upd (.retired []), upd (.dramSeq 0), clearTab s.trn (fun k => .trn k []),
  clearTab s.dqsAdj (fun k => .dqsAdj k 0), upd (.dpol {}), clearTab s.idleAt (fun k => .idleAt k 0)] s

/-- The units of the I/O die. -/
def unitsReset : Act := fun s => seq [
  clearTab s.hiLatch (fun k => .hiLatch k none), upd (.refusals 0), upd (.firstRefusal none),
  clearTab s.ethTx (fun k => .ethTx k none), clearTab s.ethHeadAt (fun k => .ethHeadAt k 0),
  clearTab s.canTx (fun k => .canTx k none), clearTab s.msix (fun k => .msix k 0),
  clearTab s.trajArea (fun k => .trajArea k 0), upd (.lidarIn []), upd (.wheelIn []),
  clearTab s.spiStepBusy (fun k => .spiStepBusy k 0), upd (.spiRec []), clearTab s.spiStepCfg (fun k => .spiStepCfg k []),
  clearTab s.ctxs (fun k => .ctxs k {}), clearTab s.fsyOmit (fun k => .fsyOmit k 0),
  clearTab s.fsyPulsed (fun k => .fsyPulsed k 0), upd (.fus {}), clearTab s.fcons (fun k => .fcons k {}),
  clearTab s.shadow (fun k => .shadow k none), upd (.trv {}), clearTab s.tlayers (fun k => .tlayers k {}),
  clearTab s.unitLast (fun k => .unitLast k none), upd (.unitRst []), upd (.thm {}), upd (.bnd {}),
  upd (.timeSet false), upd (.n0 0), upd (.ticked false), upd (.peerTickAt 0), upd (.guardPitch none)] s

/-- Everything of the I/O and compute domains beside registers. -/
def iodClear : Act := seq [memReset, flightReset, computeReset, dramReset, unitsReset]

/-- Reset of the I/O domain with every compute die (R524): RWS fields survive; device time starts from zero when it ends (R35). A quote
in progress is lost with its registers. -/
def ioResetKeep (keep : Nat → Bool) : Act := seq [
  resetRegs 0x200000000000 0x220000000000 keep, iodClear,
  fun s => [.boot { s.boot with iod := 0, quote := none }]]

/-- The I/O domain's reset. -/
def ioReset : Act := ioResetKeep (fun _ => false)

/-- Where a clock failure forces the pads, their registers keep what was written (R566). -/
def ioResetPads : Act := ioResetKeep (fun a => decide (0x200001300000 ≤ a ∧ a < 0x200001300050))

/-! ### Boot (R495, R72) -/

/-- SEQ of the topo image in a slot. -/
def slotSeq (s : State) (x n : Nat) : Nat := leNat (flashBytes s x (slotOff n + 0x200000 + 0x18) 8)

/-- R72: the slot that anchor die `x` tries next. -/
def nextSlot (s : State) (x : Nat) : Option Nat :=
  match (get_ids s x).tried with
  | [] =>
    match [0, 1].find? (fun n => (slotSt s x n).st == 1 && !(slotSt s x n).tried) with
    | some n => some n
    | none =>
      if (slotSt s x 0).st = 2 ∧ (slotSt s x 1).st = 2 then some (if slotSeq s x 0 < slotSeq s x 1 then 1 else 0)
      else if (slotSt s x 0).st = 2 then some 0
      else if (slotSt s x 1).st = 2 then some 1
      else none
  | n :: ns => if ns = [] ∧ (slotSt s x (1 - n)).st = 2 then some (1 - n) else none

/-- Steps 4 and 6 of R495 on slot `n`: SEC_BOOT code and the failing check of R67; (0, 0) where all images pass. The
management firmware is checked at power-on only (R457). -/
def slotCode (s : State) (x n : Nat) (mfw : Bool) : Nat × Nat :=
  let a := verify s x .afw (slotAfw s x n)
  let t := verify s x .full (slotTopo s x n)
  let m := if mfw then verify s x .mfw (slotMfw s x n) else 0
  if a ≠ 0 then (3, a) else if t ≠ 0 then (5, t) else if m ≠ 0 then (4, m) else (0, 0)

/-- Anchor die `x` has verified slot `n`: digests and measurement. -/
def slotAccept (x n : Nat) : Act := fun s =>
  let t := sha256 (slotTopo s x n)
  seq [setF (SEC_BOOT_CODE x) 0,
    upd (.ids x { get_ids s x with
      verified := true
      slot := n
      topo := t
      afw := sha256 (slotAfw s x n)
      mfw := sha256 (slotMfw s x n)
      meas := t
      prev := t
      commitAt := 0
      imgSvn := hSvn (slotTopo s x n)
      fwSvn := min (hSvn (slotAfw s x n)) (hSvn (slotMfw s x n)) }),
    setAnc x (fun a => { a with slot := n, knowsSlot := true })] s

/-- Try slots until one is verified or none is left: BOOT_FAIL (R72, R75). -/
def bootTry (x : Nat) : Nat → Act
  | 0 => nop
  | fuel + 1 => fun s =>
    match nextSlot s x with
    | none => seq [whenA (getF s (SEC_BOOT_CODE x) == 0) (setF (SEC_BOOT_CODE x) 3), setF (ANC_STAT_STATE x) 3] s
    | some n =>
      let r := slotCode s x n true
      seq [whenA ((slotSt s x n).st == 1) (upd (.slots (2 * x + n) { slotSt s x n with tried := true })),
        setF (SEC_BOOT_SLOT x) n,
        if r.1 = 0 then slotAccept x n
        else seq [setF (SEC_BOOT_CODE x) r.1,
          whenA (r.1 == 5) (seq [topoErr r.2 0xFF false, incReg TOPO_REJ_CNT]),
          ancLog x 0x07 (9 + x) 0 ([BitVec.ofNat 8 r.2, if r.1 = 3 then 0xFD else if r.1 = 4 then 0xFE else 0xFF] ++ leBytes 6 0
            ++ leBytes 8 (slotSeq s x n)),
          upd (.ids x { get_ids s x with tried := (get_ids s x).tried ++ [n] }), bootTry x fuel]] s

/-- Why the I/O die is held in reset (R520, R524, R525, R541, R75). -/
def ioHeld (s : State) : Bool :=
  s.boot.hold || s.boot.sysRst || s.boot.clkFailed.contains 1 || s.boot.clkFailed.contains 2 || s.thmTrip.contains 8
    || (List.range 9).any (fun r => decide (2 ≤ r) && (get_rails s r).below)

/-- Both dies record a code and the boot holds (R75). -/
def bootHold (code : Nat) : Act := seq [
  forEach [0, 1] (fun x => seq [setF (SEC_BOOT_CODE x) code, setF (ANC_STAT_STATE x) 3]),
  fun s => [.boot { s.boot with hold := true, iod := 0 }]]

/-- IOD_RELEASE_STAGE1 (R496): both dies agree, both run, and nothing holds the I/O die; device time counts from zero. After
the first release anchor A reads its slot again, and a digest that differs from the one verified holds the boot (R524). -/
def stage1 (again : Bool) : Act := fun s =>
  let a := get_ids s 0
  let b := get_ids s 1
  if s.boot.iod ≠ 0 ∨ ioHeld s ∨ !s.boot.agreed ∨ !(a.verified && b.verified && ancRuns s 0 && ancRuns s 1) then []
  else if again ∧ sha256 (slotMfw s 0 a.slot) ≠ a.mfw then bootHold 4 s
  else if again ∧ sha256 (slotTopo s 0 a.slot) ≠ a.topo then bootHold 5 s
  else seq [rebase, fun s => [.boot { s.boot with iod := 1 }],
    forEach [0, 1] (fun x => fun s =>
      let d := get_ids s x
      [.ids x { d with meas := d.topo, prev := d.topo, commitAt := 0 }]),
    supplyShow, portStart 8 16, portStart 8 17] s

/-- Step 7 of R495: with both slots verified, slots and digests are compared; a difference moves both dies to their other
slots. -/
def agree : Nat → Act
  | 0 => nop
  | fuel + 1 => fun s =>
    let a := get_ids s 0
    let b := get_ids s 1
    if !(a.verified && b.verified) then []
    else if a.slot = b.slot ∧ a.topo = b.topo ∧ a.afw = b.afw ∧ a.mfw = b.mfw then seq [
      forEach [0, 1] (fun x => fun s => if ancState s x = 1 ∨ ancState s x = 2 then [] else seq [setF (ANC_STAT_STATE x) 1,
        setAnc x (fun c => { c with heardAt := ancTime s x, validSince := ancTime s x })] s),
      fun s => [.boot { s.boot with agreed := true, hold := false }],
      stage1 s.boot.afterStage2] s
    else seq [forEach [0, 1] (fun x => fun s =>
        let d := get_ids s x
        seq [setF (SEC_BOOT_CODE x) 6, setF (ANC_STAT_STATE x) 0,
          upd (.ids x { d with verified := false, tried := d.tried ++ [d.slot] }), bootTry x 3] s),
      agree fuel] s

/-- The device ID (R498). -/
def deviceId : Nat := leNat ((sha256 Config.deviceModulus).take 8)

/-- R500: a valid provisioning token of die `x`'s flash gives the store's first record. -/
def provision (s : State) (x : Nat) : Option Store :=
  let b := flashBytes s x 0x3000 1664
  if num b 0 4 == 0x564F5250 && zeroAt b 4 4 && num b 8 8 == deviceId && zeroAt b 0x30 16
      && certOk (sub8 b 64 1216) usTOPO 0 && pssVerify (certKey (sub8 b 64 1216)) (sub8 b 0 64) (sub8 b 1280 384)
  then some { key := true, topoSvn := num b 0x10 4, fwSvn := num b 0x14 4, certSvn := num b 0x18 4, life := min 1 (num b 0x1C 1) }
  else none

/-- The store is raised from the CONFIRMED slot at boot where that changes the record (R501). -/
def bootRaise (x : Nat) : Act := fun s =>
  let best := if (slotSt s x 0).st = 2 ∧ ((slotSt s x 1).st ≠ 2 ∨ slotSeq s x 1 ≤ slotSeq s x 0) then some 0
    else if (slotSt s x 1).st = 2 then some 1 else none
  match best with
  | some n => if storeRaised s x n = get_stores s x then [] else storeWrite x n true s
  | none => []

/-- Steps 1 to 3 of R495: seed, keys, store record. The code of a failure, 0 for none. -/
def bootKeys (s : State) (x : Nat) (seedOk storeOk : Bool) : Nat :=
  if !seedOk then 1 else if !storeOk then 2
  else if !(get_stores s x).key && (provision s x).isNone then 8 else 0

/-- Step 5 of R495 on anchor A: the device key, unwrapped or generated, and the device ID (R498). -/
def deviceKey (wrapped idBad : Bool) : Act := seq [
  setF (SEC_BOOT_UNWRAPPED 0) (if wrapped then 1 else 0), setF (SEC_BOOT_ID_BAD 0) (if idBad then 1 else 0),
  wr64 (SEC_DEVID 0) deviceId]

/-- May anchor die `x` boot: its supply and its reference are good (R524, R525)? -/
def ancPowered (s : State) (x : Nat) : Bool := !(get_rails s (9 + x)).below && !s.boot.clkFailed.contains (4 + x)

/-- ANCHOR_BOOT (R495, R457): `seedOk`, `storeOk`, `wrapped` and `idBad` say what the die's cells, its store and its wrapped
key give. While the I/O die is out of reset the die boots the slot in use; else it chooses and agrees with the other. -/
def execAnchorBoot (x : Nat) (seedOk storeOk wrapped idBad : Bool) (now : Nat) (s : State) : Host.Outcome State Fault Refusal :=
  done (seq [advance now, fun s =>
    if 2 ≤ x ∨ ancState s x ≠ 0 ∨ !ancPowered s x ∨ (get_ids s x).verified then [] else
    let k := bootKeys s x seedOk storeOk
    if k ≠ 0 then seq [setF (SEC_BOOT_CODE x) k, setF (ANC_STAT_STATE x) 3] s else
    let a := anc s x
    let used := if a.knowsSlot then some a.slot
      else if ancRuns s (1 - x) then some (anc s (1 - x)).slot else none
    seq [(match provision s x with
        | some st => whenA (!(get_stores s x).key) (upd (.stores x st))
        | none => nop),
      bootRaise x, storeShow x,
      whenA (x == 0) (deviceKey wrapped idBad),
      fun s => whenA (x == 0) (setF (SEC_BOOT_DEBUG 0) (if (get_stores s 0).life = 0 then 2 else 0)) s,
      match s.boot.iod, used with
      | 2, some n => fun s =>
        let r := slotCode s x n false
        seq [setF (SEC_BOOT_SLOT x) n, setF (SEC_BOOT_CODE x) r.1,
          if r.1 = 0 then seq [slotAccept x n, ancInstall x, setF (ANC_STAT_STATE x) 1,
            setAnc x (fun c => { c with heardAt := ancTime s x, validSince := ancTime s x })]
          else seq [ancLog x 0x07 (9 + x) 0 ([BitVec.ofNat 8 r.2, if r.1 = 3 then 0xFD else 0xFF] ++ leBytes 6 0
              ++ leBytes 8 (slotSeq s x n)), setF (ANC_STAT_STATE x) 3]] s
      | _, _ => seq [bootTry x 3, agree 3]] s]) s

/-- ANCHOR_SELF_RESET (R457): cause 1 lasting lockstep fault, 2 uncorrectable firmware word, 3 watchdog. The die boots again
at its next ANCHOR_BOOT. -/
def execAnchorSelfReset (x cause : Nat) (s : State) : Host.Outcome State Fault Refusal :=
  done (fun s => if x < 2 ∧ 1 ≤ cause ∧ cause ≤ 3 ∧ ancState s x ≠ 0 then ancSelfReset x cause s else []) s

/-- IOD_RELEASE_STAGE2 (R496, R74): the management firmware is in the boot SRAM (`readOk`: read back equal) and the loader
runs; it re-hashes the topo image. The other operands are what the boot meets outside: the first synchronisation (R36), links
that fail training, training results (R333), the SRAM calibration (R548). -/
def execIodReleaseStage2 (sync : Option Nat) (badLinks : List (Nat × Nat)) (trained : List (Nat × Nat × List Byte))
    (cal : List (Nat × Nat)) (now : Nat) (readOk : Bool) (s : State) : Host.Outcome State Fault Refusal :=
  done (seq [advance now, fun s =>
    if s.boot.iod ≠ 1 then [] else
    let a := get_ids s 0
    let img := slotTopo s 0 a.slot
    let h := sha256 img
    if !readOk then bootHold 7 s
    else if h ≠ a.meas ∨ h ≠ (get_ids s 1).meas then seq [rejectImage 0x0D 0xFF false (hSeq img), bootHold 5] s
    else seq [
      fun s => [.boot { s.boot with iod := 2, afterStage2 := true }],
      setF TOPO_STATUS_RUN_SLOT a.slot, topoShow, wr TOPO_SVN (hSvn img), wr64 TOPO_SEQ (hSeq img),
      forEach (List.range 8) (fun i => wr (TOPO_MEAS i) (num h (4 * i) 4)),
      loaderSteps img sync badLinks trained cal] s]) s

/-! ### Clock sources (R518 to R520) -/

/-- Clock sources: 1 REF_IO, 2 an I/O die PLL, 3 REF_PCIE (the codes of CLK_FAIL.SRC), 4 REF_ANA, 5 REF_ANB, 8 + d a PLL of
compute die d. CLOCK_SOURCE_FAIL (R520) holds the domain shown. -/
def execClockSourceFail (k now : Nat) (s : State) : Host.Outcome State Fault Refusal :=
  done (seq [advance now, fun s =>
    let note : Act := fun s => if s.boot.clkFailed.contains k then [] else [.boot { s.boot with clkFailed := s.boot.clkFailed ++ [k] }]
    let record : Act := seq [setF CLK_FAIL_SRC k, setF CLK_FAIL_PITCH (pitch16 s), incReg CLK_FAIL_CNT]
    if k = 1 ∨ k = 2 then seq [record, note, ioResetPads] s
    else if k = 3 then seq [record, note, setF CLK_STAT_PCIE_REF_OK 0, setF PCIE_STAT_LINK_UP 0] s
    else if k = 4 ∨ k = 5 then seq [note, ancReset (k - 4)] s
    else if 8 ≤ k ∧ k < 16 then dieRemove (k - 8) s
    else []]) s

/-- REFERENCE_STABLE (R518, R520): a source is stable again; the I/O die is released from stage 1. -/
def execReferenceStable (k now : Nat) (s : State) : Host.Outcome State Fault Refusal :=
  done (seq [advance now, fun s =>
    if !s.boot.clkFailed.contains k then [] else
    seq [upd (.boot { s.boot with clkFailed := s.boot.clkFailed.erase k }),
      whenA (k == 3) (setF CLK_STAT_PCIE_REF_OK 1), whenA (k == 1 || k == 2) (stage1 true)] s]) s

/-! ### Supplies and resets (R521 to R525) -/

/-- The supply of anchor die `x` is lost: RWS fields, the fault log, SRAM and derived keys go with it (R457, R497). -/
def ancPowerLoss (x : Nat) : Act := seq [
  ancReset x,
  fun s => forEach (s.regs.filter (fun e => decide (0x220000000000 + x * 0x10000000 ≤ e.1 ∧ e.1 < 0x220000010000 + x * 0x10000000)))
    (fun e => upd (.regs e.1 (regReset e.1))) s,
  fun s => forEach (s.sram.filter (fun e => e.1 / 2 ^ 32 == x)) (fun e => upd (.sram e.1 (memDefault e.1))) s,
  upd (.ancs x {}), upd (.ids x {}), whenA (x == 0) (upd (.mon {}))]

/-- SUPPLY_RESET (R521, R8): rail `r` fell below its reset level at `mv` mV. Where its warning trips in the same cycle it is only
counted; of a warning response before it, the records remain. -/
def execSupplyReset (r mv now : Nat) (s : State) : Host.Outcome State Fault Refusal :=
  done (seq [advance now, fun s =>
    if 11 ≤ r ∨ (get_rails s r).below then [] else seq [
      railMin r mv,
      whenA (decide (r < 9)) (seq [whenA ((get_rails s r).fallAt.isNone) (incReg (PWR_WARN_CNT r)),
        setF (PWR_STAT_LEVEL r) 0, setF (PWR_STAT_DIP r) 0]),
      upd (.rails r { get_rails s r with below := true, riseAt := none, fallAt := some (((get_rails s r).fallAt).getD now) }),
      if r < 2 then seq [forEach (List.range 4) (fun i => dieRemove (4 * r + i)),
        rwsClear (0x210000000000 + r * 0x4000000) (0x210000000000 + (r + 1) * 0x4000000),
        forEach (List.range 4) (fun i => clkShowDie (4 * r + i))]
      else if r < 9 then seq [ioReset, whenA (r == 2) (rwsClear 0x200000000000 0x210000000000), whenA (r == 3 || r == 4) dramLoss]
      else ancPowerLoss (r - 9)] s]) s

/-- SUPPLY_RESTORE_TIMER (R523 to R525): rail `r` has lain above its restore level for 1 ms: a dip ends, a held I/O domain
is released, an anchor die may boot. -/
def execSupplyRestoreTimer (r now : Nat) (s : State) : Host.Outcome State Fault Refusal :=
  done (seq [advance now, fun s =>
    if 11 ≤ r ∨ !railHeld s r now then [] else
    let was := (get_rails s r).below
    seq [upd (.rails r { get_rails s r with below := false, riseAt := none }),
      whenA (decide (r < 2) && flag s (PWR_STAT_DIP r)) (dipEnd r),
      whenA (was && decide (2 ≤ r ∧ r < 9)) (stage1 true)] s]) s

/-- SYS_RST_N (R524): low for 1 µs or more; both anchor dies assert their hold lines. -/
def execSysRstN (now : Nat) (s : State) : Host.Outcome State Fault Refusal :=
  done (seq [advance now, fun s => [.boot { s.boot with sysRst := true }], ioReset]) s

/-- SYS_RST_N_RELEASE (R524): the images are read again and the I/O die is released from stage 1. -/
def execSysRstNRelease (now : Nat) (s : State) : Host.Outcome State Fault Refusal :=
  done (seq [advance now, fun s => if s.boot.sysRst then
    seq [upd (.boot { s.boot with sysRst := false }), stage1 true] s else []]) s

/-- ANCHOR_RESET_PIN (R524): ANA_RST_N or ANB_RST_N low for 1 µs or more. -/
def execAnchorResetPin (x now : Nat) (s : State) : Host.Outcome State Fault Refusal :=
  done (seq [advance now, if x < 2 then ancReset x else nop]) s

/-- POWER_ON (R525): every rail has risen from nothing and its domain leaves reset; flash, stores and what is fitted keep
their contents. -/
def execPowerOn (s : State) : Host.Outcome State Fault Refusal :=
  done (seq [ancPowerLoss 0, ancPowerLoss 1, ioReset, dramLoss,
    fun s => clearTab s.regs (fun k => .regs k (regReset k)) s,
    fun s => clearTab s.rails (fun k => .rails k {}) s,
    upd (.boot {}), upd (.thmTrip []), upd (.trace {}), upd (.xlink []), upd (.nextTag 0), upd (.lastRead none)]) s

/-! ### Trips (R541) -/

/-- THERMAL_TRIP (R541): a sensor of die `d` (8: the I/O die) reaches 115 °C. -/
def execThermalTrip (d now : Nat) (s : State) : Host.Outcome State Fault Refusal :=
  done (seq [advance now,
    if d < 8 then dieTrip d
    else if d = 8 then seq [dieTrip 8, ioReset] else nop]) s

/-- THERMAL_TRIP_CLEAR (R541): every sensor of the tripped die lies below 105 °C. -/
def execThermalTripClear (d now : Nat) (s : State) : Host.Outcome State Fault Refusal :=
  done (seq [advance now, fun s =>
    if !s.thmTrip.contains d then [] else
    if d < 8 then dieTripClear d s
    else seq [upd (.thmTrip (s.thmTrip.filter (fun e => e != d))), stage1 true] s]) s

/-! ### Quotes (R502, R503, R508) -/

/-- Writers of the quote registers. -/
def quoteWriteOk : Master → Bool
  | .app _ | .mgmt => true
  | _ => false

/-- A write of SEC_Q_CTL.GO (R502). -/
def quoteGo : Act := fun s =>
  if getF s SEC_Q_STAT_STATE = 1 then setF SEC_Q_STAT_IGN 1 s
  else if !ancRuns s 0 then seq [setF SEC_Q_STAT_STATE 3, setF SEC_Q_STAT_CODE 1] s
  else if flag s (SEC_BOOT_ID_BAD 0) then seq [setF SEC_Q_STAT_STATE 3, setF SEC_Q_STAT_CODE 2] s
  else seq [setF SEC_Q_STAT_STATE 1,
    upd (.boot { s.boot with quote := some ⟨((List.range 8).map (fun i => leBytes 4 (rd s (SEC_Q_NONCE i)))).flatten,
      rd64 s SEC_Q_DST / 64 * 64, pitchNum s⟩ })] s

/-- QUOTE_GO (R502). -/
def execQuoteGo (src : Master) (s : State) : Host.Outcome State Fault Refusal :=
  done (guarded (quoteWriteOk src) src SEC_Q_CTL quoteGo) s

/-- 32 bytes of a digest, zero where there is none. -/
def digest32 (b : List Byte) : List Byte := (b ++ List.replicate 32 0).take 32

/-- The signed part of a quote: 256 bytes (R503). -/
def quoteBody (s : State) (q : Quote) : List Byte :=
  let a := get_ids s 0
  let b := get_ids s 1
  let lvl := getF s (SEC_BOOT_DEBUG 0)
  let fl := (if lvl = 1 then 1 else 0) + (if lvl = 2 then 2 else 0) + (if flag s (SEC_BOOT_PROD 0) then 4 else 0)
    + (if flag s (ANC_STAT_ALONE 0) then 8 else 0) + (if getF s TOPO_STATUS_PART_STATE ≠ 0 then 16 else 0)
    + (if digest32 (measNow s) ≠ digest32 a.meas then 32 else 0)
  leBytes 4 0x544F5551 ++ leBytes 2 1 ++ leBytes 2 fl ++ leBytes 8 deviceId ++ digest32 q.nonce ++ leBytes 8 s.time
    ++ leBytes 8 q.pitch ++ digest32 (if q.pitch < a.commitAt then a.prev else a.meas) ++ digest32 a.topo ++ digest32 a.afw
    ++ digest32 a.mfw ++ digest32 (if ancRuns s 1 then b.afw else []) ++ leBytes 4 a.imgSvn ++ leBytes 4 a.fwSvn
    ++ leBytes 4 (get_stores s 0).topoSvn ++ leBytes 4 (get_stores s 0).fwSvn ++ leBytes 16 0

/-- QUOTE_DONE (R502): anchor A signs and writes the quote of 640 bytes. -/
def execQuoteDone (now : Nat) (s : State) : Host.Outcome State Fault Refusal :=
  done (seq [advance now, fun s => match s.boot.quote with
    | none => []
    | some q =>
      let body := quoteBody s q
      let all := body ++ (Config.quoteSig body ++ List.replicate 384 0).take 384
      seq [upd (.boot { s.boot with quote := none }),
        if writeStatus s q.dst 640 ≠ 0 then seq [setF SEC_Q_STAT_STATE 3, setF SEC_Q_STAT_CODE 3]
        else seq [unitWrite (.anchor 0) q.dst all, setF SEC_Q_STAT_STATE 2, setF SEC_Q_STAT_CODE 0, incReg SEC_Q_CNT]] s]) s

end Sys2Proof.Machine
end

