-- ==== Sys2Proof/Machine/Pcie.lean ====
section
/-! DEFINITION. The PCIe controller (R378 to R381): link events, outbound requests, configuration requests, MSI-X. -/
namespace Sys2Proof.Machine

/-- PCIE_LINK_EVENT (R378): a change of link state sets LINK_EVT and source 43. -/
def execPcieLinkEvent (up : Bool) (gen width : Nat) (s : State) : Host.Outcome State Fault Refusal :=
  done (fun s => if getF s PCIE_STAT_STATE = 0 then [] else
    seq [setF PCIE_STAT_LINK_UP (if up then 1 else 0), setF PCIE_STAT_GEN (if up then gen else 0),
      setF PCIE_STAT_WIDTH (if up then width else 0), setF PCIE_STAT_LINK_EVT 1, icuPend 43] s) s

/-- An outbound request enters the window (R378): DISABLED once EN is clear; a write is posted, a read awaits its
completion. -/
def pcieOutbound (op : ReqOp) (r : Req) : Act := fun s =>
  if getF s PCIE_STAT_STATE ≠ 1 then respond r op stDISABLED [] s
  else if op = .read then
    seq [fun s => [.pcieOut (s.pcieOut ++ [(op, r)])], emit (.pcieRead r.tag (r.addr - 0x230000000000) r.len)] s
  else seq [emit (.pcieWrite (r.addr - 0x230000000000) r.data), respond r op stOK []] s

/-- End the outstanding outbound read of a source and tag with a status. -/
def pcieEndRead (src : Master) (tag status : Nat) (data : List Byte) : Act := fun s =>
  match s.pcieOut.find? (fun e => e.2.src == src && e.2.tag == tag) with
  | none => []
  | some e => seq [fun s => [.pcieOut (s.pcieOut.erase e)], respond e.2 e.1 status data] s

/-- PCIE_OUTBOUND_TIMEOUT (R378): no completion within 10 ms answers FABRIC_ERR. -/
def execPcieOutboundTimeout (src : Master) (tag : Nat) (s : State) : Host.Outcome State Fault Refusal :=
  done (pcieEndRead src tag stFABRIC_ERR []) s

/-- May a configuration request go out: root port, ON, none outstanding (R380)? -/
def pcieCfgReady (s : State) : Bool :=
  flag s PCIE_CTL_MODE && getF s PCIE_STAT_STATE == 1 && !flag s PCIE_CFG_STAT_BUSY

/-- A write to PCIE_CFG_DATA sends a configuration write (R380). -/
def pcieCfgWrite (v : Nat) : Act := fun s =>
  if pcieCfgReady s then seq [wr PCIE_CFG_DATA v, setF PCIE_CFG_STAT_BUSY 1, emit (.pcieCfg (rd s PCIE_CFG_ADDR) (some v))] s
  else []

/-- PCIE_CFG_WRITE. -/
def execPcieCfgWrite (src : Master) (v : Nat) (s : State) : Host.Outcome State Fault Refusal :=
  done (guarded (hostWriteOk src) src PCIE_CFG_DATA (pcieCfgWrite v)) s

/-- A read of PCIE_CFG_DATA sends a configuration read; the data return with its completion (R380). -/
def pcieCfgRead (m : Master) : Act := fun s =>
  if pcieCfgReady s then seq [setF PCIE_CFG_STAT_BUSY 1, upd (.pcieCfgRd (some m)), emit (.pcieCfg (rd s PCIE_CFG_ADDR) none)] s
  else returnRead m PCIE_CFG_DATA 0xFFFFFFFF s

/-- PCIE_CFG_READ. -/
def execPcieCfgRead (src : Master) (s : State) : Host.Outcome State Fault Refusal := done (pcieCfgRead src) s

/-- PCIE_CFG_COMPLETION (R380): 0 OK, 1 unsupported request, 2 completer abort, 3 timeout of 10 ms. -/
def execPcieCfgCompletion (result data : Nat) (s : State) : Host.Outcome State Fault Refusal :=
  done (fun s => if !flag s PCIE_CFG_STAT_BUSY then [] else
    let v := if result % 4 = 0 then data % 2 ^ 32 else 0xFFFFFFFF
    seq [setF PCIE_CFG_STAT_BUSY 0, setF PCIE_CFG_STAT_RESULT (result % 4),
      match s.pcieCfgRd with
      | some m => seq [wr PCIE_CFG_DATA v, returnRead m PCIE_CFG_DATA v, upd (.pcieCfgRd none)]
      | none => nop] s) s

/-! ### MSI-X (R379) -/

/-- Is vector v masked in the table (bit 0 of its vector control word)? -/
def msixMasked (s : State) (v : Nat) : Bool := bit (get_msix s (v * 4 + 3)) 0
/-- Word of the pending-bit array. -/
abbrev msixPba : Nat := 0x400

/-- Raise vector v: sent if enabled and unmasked, held pending otherwise (R379). `enabled` is the host's MSI-X enable. -/
def msixRaise (v : Nat) (enabled : Bool) : Act := fun s =>
  if enabled && !msixMasked s v then emit (.msix v) s
  else [.msix msixPba (putBit (get_msix s msixPba) v true)]

/-- PCIE_MSIX_TRIGGER (R379): in endpoint mode. -/
def execPcieMsixTrigger (src : Master) (v : Nat) (enabled : Bool) (s : State) : Host.Outcome State Fault Refusal :=
  done (guarded (hostWriteOk src) src PCIE_MSIX_TRIG
    (fun s => if flag s PCIE_CTL_MODE ∨ getF s PCIE_STAT_STATE = 0 then [] else msixRaise (v % 16) enabled s)) s

/-- A host write of a word of the MSI-X table; unmasking a pending vector sends it. -/
def msixTableWrite (i v : Nat) : Act := fun s =>
  if i < 64 then
    seq [upd (.msix i (v % 2 ^ 32)), fun s =>
      if i % 4 = 3 ∧ ¬ bit v 0 ∧ bit (get_msix s msixPba) (i / 4) then
        seq [upd (.msix msixPba (putBit (get_msix s msixPba) (i / 4) false)), emit (.msix (i / 4))] s
      else []] s
  else []

/-! ### Enable (R104, R378) -/

/-- PCIE_CTL.EN. -/
def pcieEnable (v : Bool) : Act := writeEnable PCIE_CTL_EN PCIE_STAT_STATE v

/-- PCIE_DISABLE. -/
def execPcieDisable (src : Master) (s : State) : Host.Outcome State Fault Refusal :=
  done (guarded (hostWriteOk src) src PCIE_CTL (pcieEnable false)) s

/-- Outbound requests left at the end of the drain return ABORTED; the link goes with the block. -/
def pcieDrainEnd : Act := seq [
  fun s => forEach s.pcieOut (fun e => respond e.2 e.1 stABORTED []) s,
  upd (.pcieOut []), endDrain PCIE_CTL_EN PCIE_STAT_STATE]

end Sys2Proof.Machine
end

