-- ==== Sys2Proof/Machine/RegPairs.lean ====
section
/-! DEFINITION. The 64-bit register pairs (R13): where each _LO register lies. -/
namespace Sys2Proof.Machine

/-- _LO registers PCH_TIME_LO to DMA_CH_FETCH_LO: first address and instance dimensions. -/
def pairRowsA : List (Nat × List (Nat × Nat)) :=
  [ (0x200000100008, []),
    (0x200000100018, []),
    (0x200000100020, []),
    (0x200000100028, []),
    (0x200000200008, []),
    (0x20000020001c, []),
    (0x20000020002c, []),
    (0x210000010020, [(8, 0x1000000), (4, 0x100)]),
    (0x200000300020, [(20, 0x100)]),
    (0x210000400010, [(8, 0x1000000), (32, 0x1000)]),
    (0x210000400018, [(8, 0x1000000), (32, 0x1000)]),
    (0x210000400028, [(8, 0x1000000), (32, 0x1000)]),
    (0x210000400108, [(8, 0x1000000), (32, 0x1000), (8, 0x20)]),
    (0x210000400110, [(8, 0x1000000), (32, 0x1000), (8, 0x20)]),
    (0x200000700028, []),
    (0x200001900000, [(64, 0x10)]),
    (0x210000700048, [(8, 0x1000000), (16, 0x100)]),
    (0x200000500048, [(32, 0x100)]),
    (0x210000700050, [(8, 0x1000000), (16, 0x100)]),
    (0x200000500050, [(32, 0x100)]),
    (0x210000700070, [(8, 0x1000000), (16, 0x100)]),
    (0x200000500070, [(32, 0x100)]),
    (0x210000700078, [(8, 0x1000000), (16, 0x100)]),
    (0x200000500078, [(32, 0x100)]),
    (0x210000700090, [(8, 0x1000000), (16, 0x100)]),
    (0x200000500090, [(32, 0x100)]),
    (0x210000700098, [(8, 0x1000000), (16, 0x100)]),
    (0x200000500098, [(32, 0x100)]),
    (0x2100007000a0, [(8, 0x1000000), (16, 0x100)]),
    (0x2000005000a0, [(32, 0x100)]) ]

/-- _LO registers DMA_CH_ERR_ADDR_LO to FUS_GRID_LO: first address and instance dimensions. -/
def pairRowsB : List (Nat × List (Nat × Nat)) :=
  [ (0x2100007000ac, [(8, 0x1000000), (16, 0x100)]),
    (0x2000005000ac, [(32, 0x100)]),
    (0x2100007000b4, [(8, 0x1000000), (16, 0x100)]),
    (0x2000005000b4, [(32, 0x100)]),
    (0x2100007000c8, [(8, 0x1000000), (16, 0x100)]),
    (0x2000005000c8, [(32, 0x100)]),
    (0x200000600020, [(18, 0x40)]),
    (0x20000080001c, [(12, 0x1000)]),
    (0x200000800030, [(12, 0x1000)]),
    (0x200000800038, [(12, 0x1000)]),
    (0x20000080c034, []),
    (0x20000090100c, [(24, 0x100)]),
    (0x200000901018, [(24, 0x100)]),
    (0x200000901020, [(24, 0x100)]),
    (0x200001500010, [(4, 0x1000)]),
    (0x200001500020, [(4, 0x1000)]),
    (0x200001500030, [(4, 0x1000)]),
    (0x200001500040, [(4, 0x1000)]),
    (0x200001500050, [(4, 0x1000)]),
    (0x200001600020, [(6, 0x400)]),
    (0x200001600030, [(6, 0x400)]),
    (0x200001600040, [(6, 0x400)]),
    (0x200001600050, [(6, 0x400)]),
    (0x200001800010, []),
    (0x200001800018, []),
    (0x200001800040, [(2, 0x20)]),
    (0x200001800048, [(2, 0x20)]),
    (0x200001800080, []),
    (0x200000a00020, []),
    (0x200000a00028, []) ]

/-- _LO registers FUS_CW_LO to DMA_CH_ACT_NEXT_LO: first address and instance dimensions. -/
def pairRowsC : List (Nat × List (Nat × Nat)) :=
  [ (0x200000a00030, []),
    (0x200000a00038, []),
    (0x200000a01004, [(32, 0x20)]),
    (0x200000b00020, []),
    (0x200000b00028, []),
    (0x200000b00030, []),
    (0x200000b00038, []),
    (0x200000b00108, [(8, 0x20)]),
    (0x200000b00110, [(8, 0x20)]),
    (0x220000000118, [(2, 0x10000000)]),
    (0x200000d00020, [(16, 0x40)]),
    (0x200000d0040c, [(8, 0x20)]),
    (0x220000000818, [(2, 0x10000000)]),
    (0x200000e00008, []),
    (0x200001200020, []),
    (0x200001200028, []),
    (0x200001200030, []),
    (0x200001200038, []),
    (0x200001200040, []),
    (0x200001200048, []),
    (0x200001200050, []),
    (0x200001200058, []),
    (0x210000700008, [(8, 0x1000000), (16, 0x100)]),
    (0x200000500008, [(32, 0x100)]),
    (0x210000700010, [(8, 0x1000000), (16, 0x100)]),
    (0x200000500010, [(32, 0x100)]),
    (0x210000700030, [(8, 0x1000000), (16, 0x100)]),
    (0x200000500030, [(32, 0x100)]),
    (0x210000700038, [(8, 0x1000000), (16, 0x100)]),
    (0x200000500038, [(32, 0x100)]) ]

/-- Is this the _LO register of a pair? -/
def isPairLo (a : Nat) : Bool :=
  (pairRowsA ++ pairRowsB ++ pairRowsC).any (fun r => decide (r.1 ≤ a) && hitsDims r.2 (a - r.1))

end Sys2Proof.Machine
end

