-- ==== Sys2Proof/Machine/RegWrite.lean ====
section
/-! DEFINITION. Reads and writes of the control registers (R8 to R14, R28, R30): who may write a register, what a write
does under its access codes, the registers whose write or read acts, and the pairs of R13. -/
namespace Sys2Proof.Machine

/-! ### Finding a register's instance -/

/-- Index of the instance of a register that an address names. -/
def famIdx (base stride n a : Nat) : Option Nat :=
  if base ≤ a ∧ (a - base) % stride = 0 ∧ (a - base) / stride < n then some ((a - base) / stride) else none

/-- The DMA channel whose register block holds an address, and the offset in the block (R295). -/
def dmaChAt (a : Nat) : Option (Nat × Nat × Nat) :=
  if 0x200000500000 ≤ a ∧ a < 0x200000502000 then some (8, (a - 0x200000500000) / 0x100, a % 0x100)
  else if 0x210000000000 ≤ a ∧ a < 0x210008000000 ∧ 0x700000 ≤ a % 0x1000000 ∧ a % 0x1000000 < 0x701000 then
    some ((a - 0x210000000000) / 0x1000000, a % 0x1000000 / 0x100 % 16, a % 0x100)
  else none

/-- The DMA window whose control register an address is (R296). -/
def winAt (a : Nat) : Option Nat := (List.range 64).find? (fun w => DMA_WIN_CTL w == a)

/-- The rope port whose control register an address is (R105). -/
def rplAt (a : Nat) : Option (Nat × Nat) :=
  (List.range 9).findSome? (fun n => ((List.range 20).find? (fun p => portOk n p && RPL_CTL n p == a)).map (fun p => (n, p)))

/-- The MAC or CAN FD controller whose partition queue (TXQ1) an address configures, by the queue's owner (R365). -/
def queueOwnerAt (s : State) (a : Nat) : Option Nat :=
  if 0x200001500000 ≤ a ∧ a < 0x200001504000 ∧ 0x40 ≤ a % 0x1000 ∧ a % 0x1000 < 0x58 then
    some (getF s (ETH_TXQ1_OWN_PART ((a - 0x200001500000) / 0x1000)))
  else if 0x200001600000 ≤ a ∧ a < 0x200001601800 ∧ 0x40 ≤ a % 0x400 ∧ a % 0x400 < 0x58 then
    some (getF s (CAN_TXQ1_OWN_PART ((a - 0x200001600000) / 0x400)))
  else none

/-- Is the address in the AMB_TRAJ area (R461)? -/
def inTrajArea (a : Nat) : Bool := decide (0x200000C00400 ≤ a ∧ a < 0x200000C00840)

/-! ### Who may write and read -/

/-- Is the master an application core? -/
def isApp : Master → Bool
  | .app _ => true
  | _ => false

/-- May a master write the I/O die register at `a` (R65, R365, R413, R461, R486, R508, R515, R566)? -/
def iodWriteOk (s : State) (src : Master) (a : Nat) : Bool :=
  if 0x200001400000 ≤ a ∧ a < 0x200001900000 then
    a == ICU_MSG || (match queueOwnerAt s a with
      | some p => queueWriteOk s p src
      | none => hostWriteOk src)
  else if (dmaChAt a).isSome then dmaWriteOk s 8 ((a - 0x200000500000) / 0x100) src
  else if 0x200001300040 ≤ a ∧ a < 0x200001300050 then isApp src
  else if a = TOPO_BREADY then isApp src || src == .pcie
  else if a = TRV_HOLD then trvHoldOk s src
  else if a = AMB_MBX then isCore src
  else if a = AMB_TRAJ_DONE ∨ inTrajArea a then trajWriteOk s src
  else if 0x200000E00000 ≤ a ∧ a < 0x200000E00040 then quoteWriteOk src
  else if a = CLK_PT_SET then isApp src
  else match famIdx (FLT_PART_RAISE 0) 0x40 16 a, src with
    | some p, .core g => coreOwner s g == p
    | some _, _ => false
    | none, _ => swWriteOk src

/-- May a master write the register at `a` (R30, R270, R294, R514)? -/
def regWriteOk (s : State) (src : Master) (a : Nat) : Bool :=
  match locOf s a with
  | .ancCtl x => src == .anchor x || (src == .cairn && x == 0)
  | .iodCtl => iodWriteOk s src a
  | .dieCtl d =>
    match dmaChAt a, winAt a with
    | some (_, ch, _), _ => dmaWriteOk s d ch src
    | none, some w => winWriteOk s w src
    | none, none => if 0x900010 ≤ a % 0x1000000 ∧ a % 0x1000000 < 0x900020 then src == .mgmt else swWriteOk src
  | _ => false

/-- May a master read the register at `a` (R30)? -/
def regReadOk (s : State) (src : Master) (a : Nat) : Bool :=
  match locOf s a with
  | .ancCtl x => src == .anchor x || (src == .cairn && x == 0) || src == .mgmt || isApp src
  | .iodCtl | .dieCtl _ => true
  | _ => false

/-- A refused access is recorded (R28), and by an anchor die whose control space it named (R30). -/
def regRefuse (src : Master) (a : Nat) (write : Option Nat) : Act := fun s =>
  seq [recordRefusal src a, match locOf s a with
    | .ancCtl x => whenA (ancRuns s x) (ancLog x 0x06 (9 + x) 0
        (leBytes 8 a ++ leBytes 4 (write.getD 0) ++ leBytes 1 (if write.isSome then 0 else 1)))
    | _ => nop] s

/-! ### A plain write (R8, R14) -/

/-- Bits of a field a software write puts (RW and RWS), and bits it clears by writing 1 (W1C). -/
def writeMasked (row : RegRow) (old v : Nat) : Nat :=
  let m := Nat.lor row.rw row.rws
  let kept := Nat.lor (Nat.land old (2 ^ 32 - 1 - m)) (Nat.land v m)
  Nat.land kept (2 ^ 32 - 1 - Nat.land row.w1c v)

/-- A write of a register under its access codes. -/
def plainWrite (a v : Nat) : Act := fun s =>
  match regRow a with
  | some row => wr a (writeMasked row (rd s a) v) s
  | none => []

/-- Registers of the fusion and traverse units whose RW fields go to a shadow copy (R383, R412). -/
def shadowed (a : Nat) : Bool :=
  (decide (FUS_CTL ≤ a ∧ a < 0x200000A02000) && !([FUS_CTL, FUS_DRAIN, FUS_CAL_CTL, FUS_CAL_FRZ].contains a)) ||
  (decide (TRV_CTL ≤ a ∧ a < 0x200000B00200) && !([TRV_CTL, TRV_DRAIN, TRV_HOLD, TRV_MAP_LO, TRV_MAP_HI].contains a))

/-- A write that goes to the shadow copy; W1C bits act at once. -/
def shadowWrite (a v : Nat) : Act := fun s =>
  match regRow a with
  | some row =>
    if row.rw = 0 then plainWrite a v s
    else [.shadow a (some (BitVec.ofNat 32 (writeMasked row (rdShadow s a) v)))]
  | none => []

/-! ### Device time (R35) -/

/-- PCH_TRIM is clamped to the limit when it is written (R35). -/
def trimWrite (v : Nat) : Act := fun s =>
  let lim : Int := (getF s PCH_TRIM_LIM_LIM_PPM * 2 ^ 40 / 1000000 : Nat)
  wr PCH_TRIM (ofSigned 32 (max (-lim) (min lim (toSigned 32 v)))) s

/-- Writes of the time pair take effect only while RUN is 0; _LO commits the pair. -/
def timeWrite (hi : Bool) (v : Nat) : Act := fun s =>
  if flag s PCH_CFG_RUN then []
  else if hi then wr PCH_TIME_HI v s
  else seq [rebaseTo (v + 2 ^ 32 * rd s PCH_TIME_HI)] s

/-! ### Registers whose write acts -/

/-- Pitch, topo and partition blocks. -/
def pitchBlock (src : Master) (a v now : Nat) : Option Act :=
  if a = PCH_TIME_LO then some (timeWrite false v)
  else if a = PCH_TIME_HI then some (timeWrite true v)
  else if a = PCH_TRIM then some (trimWrite v)
  else if a = TOPO_CMD then some (topoCmd v now)
  else if a = TOPO_BREADY then some (breadyWrite src (v % 16) (v / 16 % 16))
  else (famIdx (PRT_BIV 0) 0x40 16 a).map (fun p => bivWrite p (bit v 0))

/-- The DMA channel registers (R274 to R277, R289, R291). -/
def dmaBlock (a v : Nat) : Option Act :=
  (dmaChAt a).map (fun q => fun s =>
    let n := q.1
    let ch := q.2.1
    if 0x40 ≤ q.2.2 ∧ q.2.2 < 0x80 then
      (if flag s (DMA_CH_CTL_ARM n ch) then setF (DMA_CH_STAT_SHW_IGN n ch) 1 s else plainWrite a v s)
    else if a = DMA_CH_FETCH_LO n ch then whenA (dmaOn s n ch) (dmaFetchWrite n ch v) s
    else if a = DMA_CH_FETCH_HI n ch then
      (if flag s (DMA_CH_CTL_ARM n ch) then setF (DMA_CH_STAT_SHW_IGN n ch) 1 s else plainWrite a v s)
    else if a = DMA_CH_CTL n ch then seq [
      writeEnable (DMA_CH_CTL_EN n ch) (DMA_CH_STAT_STATE n ch) (bit v 0),
      fun s => whenA (bit v 1 && dmaOn s n ch) (dmaArm n ch) s,
      whenA (bit v 2) (dmaGo n ch)] s
    else plainWrite a v s)

/-- Operator units, regulator and DRAM. -/
def unitBlock (src : Master) (a v : Nat) : Option Act :=
  if a = BOX_CTL then some (writeEnable BOX_CTL_EN BOX_STAT_STATE (bit v 0))
  else if a = BOX_SUBMIT then some (fun s => whenA (getF s BOX_STAT_STATE == 1) (boxSubmit src v) s)
  else if a = DDR_FC then some (seq [whenA (bit v 3) (setF DDR_FC_IGN 0), targetWrite src (v % 4)])
  else if a = DDR_SCRUB then some (seq [plainWrite a (v % 2), patrolInterval (bits v 31 16)])
  else if a = DDR_RET_CFG then some (plainWrite a (if bits v 15 8 = 0 then Nat.lor v 0x100 else v))
  else ((famIdx (REG_BUDGET 0) 0x40 18 a).map (fun p => budgetWrite p v))
    <|> ((famIdx (KVC_CTL 0) 0x1000000 8 a).map (fun d => writeEnable (KVC_CTL_EN d) (KVC_STAT_STATE d) (bit v 0)))
    <|> ((famIdx (KVC_SUBMIT 0) 0x1000000 8 a).map (fun d => fun s =>
          whenA (getF s (KVC_STAT_STATE d) == 1) (kvSubmit d src v) s))
    <|> ((famIdx (BNK_SCRUB 0) 0x1000000 8 a).map (fun d =>
          seq [plainWrite a (v % 2), scrubInterval d (bits v 31 16)]))
    <|> ((rplAt a).map (fun q => writeEnable (RPL_CTL_EN q.1 q.2) (RPL_STAT_STATE q.1 q.2) (bit v 0)))

/-- The blocks of R365: interrupts, Ethernet, CAN, SPI, I2C and PCIe. `enabled` says whether the host enabled MSI-X. -/
def hostBlock (src : Master) (a v now : Nat) : Option Act :=
  if a = ICU_MSG then some (icuMsg v)
  else if a = PCIE_CTL then some (fun s => seq [
      setF PCIE_CTL_MAX_GEN (bits v 4 2), setF PCIE_CTL_WIDTH (bits v 6 5),
      whenA (!flag s PCIE_CTL_EN) (setF PCIE_CTL_MODE (bits v 1 1)), pcieEnable (bit v 0)] s)
  else if a = PCIE_BAR2_SIZE then some (fun s => if flag s PCIE_CTL_EN then [] else plainWrite a v s)
  else if a = PCIE_CFG_DATA then some (pcieCfgWrite v)
  else if a = PCIE_MSIX_TRIG then some (fun s =>
    if flag s PCIE_CTL_MODE ∨ getF s PCIE_STAT_STATE = 0 then [] else withFree (fun k =>
      msixRaise (v % 16) (Config.fresh k % 2 == 1)) s)
  else ((famIdx (ICU_CLAIM 0) 0x10 32 a).map (fun _ => icuComplete (v % 512)))
    <|> ((famIdx (ETH_CTL 0) 0x1000 4 a).map (fun m => seq [setF (ETH_CTL_PROMISC m) (bits v 1 1), ethEnable m (bit v 0)]))
    <|> ((famIdx (ETH_RXQ_PTR 0) 0x1000 4 a).map (fun m => ethTail m 0 (bits v 27 16)))
    <|> ((famIdx (ETH_TXQ0_PTR 0) 0x1000 4 a).map (fun m => ethTail m 1 (bits v 27 16)))
    <|> ((famIdx (ETH_TXQ1_PTR 0) 0x1000 4 a).map (fun m => ethTail m 2 (bits v 27 16)))
    <|> ((famIdx (ETH_TXQ1_OWN 0) 0x1000 4 a).map (fun _ => if isApp src then plainWrite a v else regRefuse src a (some v)))
    <|> ((famIdx (CAN_CTL 0) 0x400 6 a).map (fun k => seq [setF (CAN_CTL_FD_EN k) (bits v 1 1),
          setF (CAN_CTL_RECOVER k) (bits v 2 2), setF (CAN_CTL_LOOP k) (bits v 3 3), canEnable k (bit v 0)]))
    <|> ((famIdx (CAN_RXQ_PTR 0) 0x400 6 a).map (fun k => canTail k 0 (bits v 27 16)))
    <|> ((famIdx (CAN_TXQ0_PTR 0) 0x400 6 a).map (fun k => canTail k 1 (bits v 27 16)))
    <|> ((famIdx (CAN_TXQ1_PTR 0) 0x400 6 a).map (fun k => canTail k 2 (bits v 27 16)))
    <|> ((famIdx (CAN_TXQ1_OWN 0) 0x400 6 a).map (fun _ => if isApp src then plainWrite a v else regRefuse src a (some v)))
    <|> ((famIdx (SPI_CMD 0) 0x100 4 a).map (fun k => spiGo k v now))
    <|> ((famIdx (I2C_CMD 0) 0x100 2 a).map (fun k => i2cGo k v))

/-- Sensor contexts, fusion, traverse and the anchor forwarder. -/
def sensorBlock (src : Master) (a v : Nat) : Option Act :=
  if a = FUS_CTL then some (seq [fusEnable (bit v 0), whenA (bit v 1) (setF FUS_CTL_COMMIT 1)])
  else if a = TRV_CTL then some (seq [trvEnable (bit v 0), whenA (bit v 1) (setF TRV_CTL_COMMIT 1), whenA (bit v 2) mapCommit])
  else if a = AMB_MBX then some (mbxWrite src (v % 64))
  else if a = AMB_TRAJ_DONE then some (trajDone src (v % 2 ^ 16))
  else ((famIdx (ING_CTX_CTL 0) 0x100 24 a).map (fun x => if bit v 0 then ctxEnable x else ctxDisable x))
    <|> (if shadowed a then some (shadowWrite a v) else none)

/-- Faults, quotes, clocks, supplies, cooling and pads. -/
def healthBlock (src : Master) (a v : Nat) : Option Act :=
  if a = FLT_CTL then some (fun s => if bit v 0 then [.flt { s.flt with allDue := true }] else [])
  else if a = SEC_Q_CTL then some (whenA (bit v 0) quoteGo)
  else if a = CLK_PT_SET then some (ptSetWrite src v)
  else if a = THM_LIM then some (capUserWrite (bits v 25 16))
  else if a = THM_TGT then some (seq [tjWrite (bits v 11 0), hystWrite (bits v 23 16)])
  else if a = THM_FLOW_CFG then some (plainWrite a (if bits v 23 16 = 0 then Nat.lor v 0x10000 else v))
  else if a = IO_PAD_CFG 4 then some (plainWrite a (Nat.land v 0xFFFFFFF0))
  else if a = IO_PAD_CFG 0 ∨ a = IO_PAD_CFG 5 then some (plainWrite a (Nat.land v 0xFFFFFCFF))
  else ((famIdx (FLT_PART_RAISE 0) 0x40 16 a).map (fun p => fun s => raiseWrite src p s))
    <|> ((famIdx (FLT_PART_CTL 0) 0x40 16 a).map (fun p => whenA (bit v 0) (unhold p)))
    <|> ((famIdx (FLT_SHARE_LO 0) 0x40 16 a).map (fun p => shareWrite p 0 v))
    <|> ((famIdx (FLT_SHARE_HI 0) 0x40 16 a).map (fun p => shareWrite p 1 v))
    <|> ((famIdx (FLT_DIE_CTL 0) 0x20 8 a).map (fun d =>
          whenA (bit v 0) (withFree (fun k => readmit d (Config.fresh k % 2 == 1)))))
    <|> ((famIdx (PWR_VMIN 0) 0x10 9 a).map (fun r => setF (PWR_VMIN_MV r) 0xFFF))
    <|> ((List.range 32).findSome? (fun i =>
          if CLK_CLU (i / 4) (i % 4) = a then some (ptReqWrite src (i / 4) (i % 4) (v % 8)) else none))

/-- What an accepted write of `v` to the register at `a` does. -/
def regEffect (src : Master) (a v now : Nat) : Act :=
  ((pitchBlock src a v now) <|> (dmaBlock a v) <|> (unitBlock src a v) <|> (hostBlock src a v now)
    <|> (sensorBlock src a v) <|> (healthBlock src a v)).getD (plainWrite a v)

/-- Status an accepted write gets: DISABLED where the register's unit takes no work (R104). -/
def regWriteStatus (s : State) (a v : Nat) : Nat :=
  if a = BOX_SUBMIT then (if getF s BOX_STAT_STATE = 1 then stOK else stDISABLED)
  else match famIdx (KVC_SUBMIT 0) 0x1000000 8 a, dmaChAt a with
    | some d, _ => if getF s (KVC_STAT_STATE d) = 1 then stOK else stDISABLED
    | none, some (n, ch, _) =>
      if (a = DMA_CH_FETCH_LO n ch ∨ (a = DMA_CH_CTL n ch ∧ bit v 1)) ∧ !dmaOn s n ch ∧ !(a = DMA_CH_CTL n ch ∧ bit v 0)
      then stDISABLED else stOK
    | none, none => stOK

/-! ### A read -/

/-- Seconds left at the monitor's level (R507). -/
def dbgLeft (s : State) : Nat := match s.mon.expiry with
  | some e => min (2 ^ 17 - 1) ((e - s.time + 999999999) / 1000000000)
  | none => 0

/-- The value a read of the register at `a` returns. -/
def regValue (s : State) (a : Nat) : Nat :=
  if a = PCH_TIME_LO then s.time % 2 ^ 32
  else if a = PCH_TIME_HI then s.time / 2 ^ 32 % 2 ^ 32
  else if a = SEC_DBG_LEFT 0 then dbgLeft s
  else if a = THM_LIM then putBits (rd s a) 9 0 (pLim s)
  else if a = IO_PAD_CFG 4 then Nat.land (rd s a) 0xFFFFFFF0
  else if a = IO_PAD_CFG 0 ∨ a = IO_PAD_CFG 5 then Nat.land (rd s a) 0xFFFFFCFF
  else if 0x200000800000 ≤ a ∧ a < 0x20000080C000 ∧ 0x800 ≤ a % 0x1000 ∧ a % 0x1000 < 0xA00 then
    let c := (a - 0x200000800000) / 0x1000
    leNat (((get_trn s (getF s (DDR_TRN_SEL_POINT c) * 12 + c)).drop (a % 0x1000 - 0x800)).take 4)
  else match locOf s a with
    | .ancCtl x => if 0x10000 ≤ a % 0x10000000 ∧ a % 0x10000000 < 0x18000 then sramNum s x (0x1E8000 + (a % 0x10000000 - 0x10000)) 4
                   else rd s a
    | _ => match famIdx (ICU_CLAIM 0) 0x10 32 a with
      | some u => (icuBest s u).getD 0x1FF
      | none => rd s a

/-- Key of a master's capture of a pair. -/
def hiKey (m : Master) (lo : Nat) : Nat := masterCode m * 2 ^ 48 + lo

/-- The value that `m` gets from the register at `a`: a captured _HI, or the present value (R13). -/
def readValue (s : State) (m : Master) (a : Nat) : Nat :=
  match get_hiLatch s (hiKey m (a - 4)) with
  | some w => w.toNat
  | none => regValue s a

/-- What a read of the register at `a` does beside returning its value: the capture of R13, a claim (R367), a
configuration read (R380). -/
def readEffect (m : Master) (a : Nat) : Act := fun s =>
  if isPairLo a then [.hiLatch (hiKey m a) (some (BitVec.ofNat 32 (regValue s (a + 4))))]
  else if (get_hiLatch s (hiKey m (a - 4))).isSome then [.hiLatch (hiKey m (a - 4)) none]
  else if a = PCIE_CFG_DATA then pcieCfgRead m s
  else match famIdx (ICU_CLAIM 0) 0x10 32 a with
    | some u => icuClaim m u s
    | none => []

/-! ### The accesses -/

/-- An access that no register takes: narrower or wider than 32 bits, or misaligned (R12). -/
def badShape (a len : Nat) : Bool := !(a % 4 == 0 && len == 4)

/-- A write of the control spaces: bytes of the AMB_TRAJ area, or one register (R12, R30, R365). -/
def regWrite (r : Req) (now : Nat) : Act := fun s =>
  let v := leNat (r.data.take 4)
  if inTrajArea r.addr ∧ inTrajArea (r.addr + (r.len - 1)) then
    (if regWriteOk s r.src r.addr then
      seq [forEach (r.data.take r.len).zipIdx (fun e => upd (.trajArea (r.addr - 0x200000C00400 + e.2) e.1)), respond r .write stOK []]
    else seq [regRefuse r.src r.addr (some v), respond r .write stUNMAPPED []]) s
  else if badShape r.addr r.len then respond r .write stUNMAPPED [] s
  else if !regWriteOk s r.src r.addr then seq [regRefuse r.src r.addr (some v), respond r .write stUNMAPPED []] s
  else seq [regEffect r.src r.addr v now, respond r .write (regWriteStatus s r.addr v) []] s

/-- A read of the control spaces. -/
def regRead (r : Req) : Act := fun s =>
  if badShape r.addr r.len then seq [respond r .read stUNMAPPED (leBytes 4 0), returnRead r.src r.addr 0] s
  else if !regReadOk s r.src r.addr then
    seq [regRefuse r.src r.addr none, respond r .read stUNMAPPED (leBytes 4 0), returnRead r.src r.addr 0] s
  else if r.addr = PCIE_CFG_DATA ∧ pcieCfgReady s then seq [readEffect r.src r.addr, upd (.pcieOut (s.pcieOut ++ [(.read, r)]))] s
  else seq [readEffect r.src r.addr, returnRead r.src r.addr (readValue s r.src r.addr),
    respond r .read stOK (leBytes 4 (readValue s r.src r.addr))] s

/-- Is the address in a control space (R25)? -/
def inControl (s : State) (a : Nat) : Bool :=
  match locOf s a with
  | .iodCtl | .dieCtl _ | .ancCtl _ => true
  | _ => false

/-- REGISTER_WRITE: a write of `r.data` to the register at `r.addr` by `r.src` at device time `now`. -/
def execRegisterWrite (r : Req) (now : Nat) (s : State) : Host.Outcome State Fault Refusal :=
  done (seq [advance now, fun s => if inControl s r.addr then regWrite r now s
    else seq [recordRefusal r.src r.addr, respond r .write stUNMAPPED []] s]) s

/-- REGISTER_READ_LO: a read of a register, which for a _LO register captures its _HI (R13). -/
def execRegisterReadLo (r : Req) (now : Nat) (s : State) : Host.Outcome State Fault Refusal :=
  done (seq [advance now, fun s => if inControl s r.addr then regRead r s
    else seq [recordRefusal r.src r.addr, respond r .read stUNMAPPED (leBytes 4 0)] s]) s

end Sys2Proof.Machine
end

