-- ==== Sys2Proof/Machine/Requests.lean ====
section
/-! DEFINITION. Memory requests at their destinations (R93 to R101, R286), their responses at their sources (R116), and
inbound PCIe (R378 to R380). -/
namespace Sys2Proof.Machine

/-- Does the kind of request return data? -/
def returnsData : ReqOp → Bool
  | .read | .atomicR | .readWin => true
  | _ => false

/-- A request refused whole: recorded, and answered with UNMAPPED and zeros (R28). -/
def refuseReq (op : ReqOp) (r : Req) : Act :=
  seq [recordRefusal r.src r.addr, respond r op stUNMAPPED (if returnsData op then zeros (reqLen op r) else [])]

/-- A request to the paired package leaves by a peer port (R96, R97); with both ports down its path is lost. -/
def peerSend (op : ReqOp) (r : Req) : Act := fun s =>
  if !mapped s r.addr (reqLen op r) then refuseReq op r s
  else if portUp s 8 18 || portUp s 8 19 then emit (.peerReq op r) s
  else respond r op stFABRIC_ERR [] s

/-- A request arrives at its destination, chosen by the address map (R25). -/
def reqArrive (op : ReqOp) (r : Req) (now : Nat) : Act := fun s =>
  match locOf s r.addr with
  | .dram =>
    if fromPeer r.src then refuseReq op r s
    else if (op == .read || op == .write || op == .atomicR || op == .atomicN) && mapped s r.addr (reqLen op r) then dramArrive op r s
    else performMem op r s
  | .bank _ _ | .coreMem _ _ | .opBuf _ _ _ => memArrive op r s
  | .peer _ => if fromPeer r.src then refuseReq op r s else peerSend op r s
  | .pcieOut =>
    if fromPeer r.src || !(op == .read || op == .write) || !mapped s r.addr (reqLen op r) then refuseReq op r s
    else pcieOutbound op r s
  | .iodCtl | .dieCtl _ | .ancCtl _ =>
    if fromPeer r.src then refuseReq op r s
    else (match op with
      | .read => regRead r
      | .write => regWrite r now
      | _ => refuseReq op r) s
  | .none => refuseReq op r s

/-- Every port of the path carries the flits of transactions under way: it is on or draining, and its link not down. -/
def pathFlows (s : State) (src : Master) (a : Nat) : Bool :=
  match pathOf s src a with
  | some es => es.all (fun e => getF s (RPL_STAT_STATE e.1 e.2) != 0 && !flag s (RPL_STAT_DOWN e.1 e.2))
  | none => false

/-- A memory request: a core's is the transaction it has outstanding (R115). A path with a port down delivers nothing, and
the source times out (R101, R103); with no route left the answer is FABRIC_ERR. -/
def request (op : ReqOp) (r0 : Req) (now : Nat) : Act := fun s =>
  let r := reqOf s op r0
  if !reqLive s op r then []
  else if !isCore r.src then reqArrive op r now s
  else if pathOf s r.src r.addr = none then respond r op stFABRIC_ERR [] s
  else if pathFlows s r.src r.addr then reqArrive op r now s
  else []

/-- READ (R286). -/
def execReadReq (r : Req) (now : Nat) (s : State) : Host.Outcome State Fault Refusal :=
  done (seq [advance now, request .read r now]) s

/-- WRITE (R286). -/
def execWriteReq (r : Req) (now : Nat) (s : State) : Host.Outcome State Fault Refusal :=
  done (seq [advance now, request .write r now]) s

/-- ATOMIC_RETURNING (R114): performed whole at its destination; answers the old value. -/
def execAtomicReturning (r : Req) (now : Nat) (s : State) : Host.Outcome State Fault Refusal :=
  done (seq [advance now, request .atomicR r now]) s

/-- ATOMIC_NON_RETURNING (R114). -/
def execAtomicNonReturning (r : Req) (now : Nat) (s : State) : Host.Outcome State Fault Refusal :=
  done (seq [advance now, request .atomicN r now]) s

/-- FILL (R173): an 8-byte pattern over a range of one memory. -/
def execFillReq (r : Req) (now : Nat) (s : State) : Host.Outcome State Fault Refusal :=
  done (seq [advance now, request .fill r now]) s

/-- COPY (R174): a range copied within one compute die. -/
def execCopyReq (r : Req) (now : Nat) (s : State) : Host.Outcome State Fault Refusal :=
  done (seq [advance now, request .copy r now]) s

/-- READ_WIN (R293): a read through a remote window. -/
def execReadWin (r : Req) (now : Nat) (s : State) : Host.Outcome State Fault Refusal :=
  done (seq [advance now, request .readWin r now]) s

/-- WRITE_WIN (R293). -/
def execWriteWin (r : Req) (now : Nat) (s : State) : Host.Outcome State Fault Refusal :=
  done (seq [advance now, request .writeWin r now]) s

/-- WATCH (R121). -/
def execWatchReq (r : Req) (now : Nat) (s : State) : Host.Outcome State Fault Refusal :=
  done (seq [advance now, request .watch r now]) s

/-! ### Responses (R101, R116) -/

/-- A response reaches its source: a core's transaction ends, a host or peer gets its answer, another master its data. -/
def deliverResp (q : Resp) : Act := fun s =>
  seq [match q.src with
    | .core g => (match s.txns.find? (fun x => x.src == q.src && x.tag == q.tag) with
      | some x => endTxn g x q.status q.data
      | none => nop)
    | .peer _ _ => emit (.peerReply q)
    | .pcie => whenA (returnsData q.op) (emit (.pcieReply q.tag q.status q.data))
    | m => whenA (returnsData q.op) (returnRead m q.addr (leNat q.data)),
    regLeave q.src q.tag] s

/-- Is a request of this source and tag still on its way to an answer? -/
def awaited (s : State) (src : Master) (tag : Nat) : Bool :=
  s.txns.any (fun x => x.src == src && x.tag == tag) || s.pcieOut.any (fun e => e.2.src == src && e.2.tag == tag)

/-- The response of a unit outside the package to an outstanding request: a PCIe completion or the peer's answer. -/
def outsideResp (src : Master) (tag status : Nat) (data : List Byte) : Act := fun s =>
  match s.pcieOut.find? (fun e => e.2.src == src && e.2.tag == tag) with
  | some e => seq [upd (.pcieOut (s.pcieOut.erase e)), deliverResp ⟨src, tag, e.1, status, data, e.2.addr⟩] s
  | none =>
    match s.txns.find? (fun x => x.src == src && x.tag == tag) with
    | some x => (match locOf s x.addr with
      | .peer _ => deliverResp ⟨src, tag, x.op, status, data, x.addr⟩ s
      | _ => [])
    | none => []

/-- MEMORY_RESPONSE: the response to a request of `src` and `tag` arrives. Of a request answered in the package it is the
response held; `status` and `data` are a PCIe completion's or the paired package's. A late one is discarded (R101). -/
def execMemoryResponse (src : Master) (tag status : Nat) (data : List Byte) (s : State) : Host.Outcome State Fault Refusal :=
  done (fun s =>
    let late := s.lateTags.contains (src, tag)
    let discard : Act := seq [upd (.lateTags (s.lateTags.erase (src, tag))),
      whenA (decide (nodeOf src < 8)) (incReg (RTE_LATE_CNT (nodeOf src)))]
    match s.resps.find? (fun q => q.src == src && q.tag == tag) with
    | some q => seq [upd (.resps (s.resps.erase q)), if late then discard else deliverResp q] s
    | none => (if late then (if waitsAnywhere s src tag then nop else discard) else outsideResp src tag status data) s) s

/-! ### Inbound PCIe (R379, R380) -/

/-- An unsupported request: counted, and a read is answered. -/
def pcieUnsupported (write : Bool) (tag : Nat) : Act :=
  seq [incReg PCIE_ERR_CNT, whenA (!write) (emit (.pcieReply tag stUNMAPPED []))]

/-- The request goes on into the fabric through the PCIE port; R28 applies. -/
def pcieEnter (write : Bool) (a len : Nat) (data : List Byte) (tag now : Nat) : Act :=
  request (if write then .write else .read)
    { src := .pcie, tag := tag, addr := a, len := if write then data.length else len, data := data } now

/-- The MSI-X table and pending-bit array at BAR0 offsets 0x3FF_0000 to 0x3FF_1FFF: words `o / 4` on. -/
def pcieMsix (write : Bool) (o len : Nat) (data : List Byte) (tag : Nat) : Act := fun s =>
  if write then forEach (List.range (data.length / 4)) (fun i => msixTableWrite (o / 4 + i) (leNat ((data.drop (4 * i)).take 4))) s
  else emit (.pcieReply tag stOK (((List.range (len / 4)).map (fun i => leBytes 4 (get_msix s (o / 4 + i)))).flatten)) s

/-- The inbound window that holds a PCIe address, and the global address it maps to. -/
def pcieWindow (s : State) (a : Nat) : Option Nat :=
  ((List.range 2).find? (fun w => flag s (PCIE_IN_SIZE_EN w) &&
    decide (rd64 s (PCIE_IN_PCI w) ≤ a ∧ a < rd64 s (PCIE_IN_PCI w) + 2 ^ getF s (PCIE_IN_SIZE_LOG2 w)))).map
      (fun w => rd64 s (PCIE_IN_GLB w) + (a - rd64 s (PCIE_IN_PCI w)))

/-- PCIE_INBOUND_REQUEST: as an endpoint `addr` is an offset into BAR `bar` (0 or 2); as a root port it is a PCIe address. -/
def execPcieInboundRequest (write : Bool) (bar addr len : Nat) (data : List Byte) (tag now : Nat) (s : State) :
    Host.Outcome State Fault Refusal :=
  done (seq [advance now, fun s =>
    if getF s PCIE_STAT_STATE ≠ 1 then whenA (!write) (emit (.pcieReply tag stDISABLED [])) s
    else if !flag s PCIE_CTL_MODE then
      (if bar = 0 ∧ 0x3FF0000 ≤ addr ∧ addr < 0x3FF2000 then pcieMsix write (addr - 0x3FF0000) len data tag s
      else if bar = 0 ∧ addr < 0x4000000 then pcieEnter write (rd64 s PCIE_BAR0_MAP / 2 ^ 26 * 2 ^ 26 + addr) len data tag now s
      else if bar = 2 ∧ addr < 2 ^ getF s PCIE_BAR2_SIZE_LOG2 then
        pcieEnter write (rd64 s PCIE_BAR2_MAP / 2 ^ getF s PCIE_BAR2_SIZE_LOG2 * 2 ^ getF s PCIE_BAR2_SIZE_LOG2 + addr) len data tag now s
      else pcieUnsupported write tag s)
    else if write ∧ addr = rd64 s PCIE_MSI_ADDR ∧ leNat data < 16 then icuPend (44 + leNat data) s
    else match pcieWindow s addr with
      | some a => pcieEnter write a len data tag now s
      | none => pcieUnsupported write tag s]) s

end Sys2Proof.Machine
end

