-- ==== Sys2Proof/Machine/Drain.lean ====
section
/-! DEFINITION. The end of a drain (R104), for every block that can be disabled while work is in flight. -/
namespace Sys2Proof.Machine

/-- Does the block exist, and is it draining? -/
def draining (s : State) : Block → Bool
  | .rope n p => portOk n p && getF s (RPL_STAT_STATE n p) == 2
  | .box => getF s BOX_STAT_STATE == 2
  | .kvc d => decide (d < 8) && getF s (KVC_STAT_STATE d) == 2
  | .dma n ch => dmaExists n ch && getF s (DMA_CH_STAT_STATE n ch) == 2
  | .ctx x => decide (x < 24) && getF s (ING_CTX_STAT_STATE x) == 2
  | .eth m => decide (m < 4) && getF s (ETH_STAT_STATE m) == 2
  | .can k => decide (k < 6) && getF s (CAN_STAT_STATE k) == 2
  | .pcie => getF s PCIE_STAT_STATE == 2
  | .fusion => getF s FUS_STAT_STATE == 2
  | .traverse => getF s TRV_STAT_STATE == 2

/-- Is the work that the block accepted done? -/
def drained (s : State) : Block → Bool
  | .rope n p => rplIdle s n p
  | .box => boxIdle s
  | .kvc d => kvIdle s d
  | .dma n ch => dmaIdle s n ch
  | .ctx x => (ctx s x).cur.isNone
  | .eth m => ethIdle s m
  | .can k => canIdle s k
  | .pcie => s.pcieOut.isEmpty
  | .fusion => fusIdle s
  | .traverse => trvIdle s

/-- The block becomes OFF; where its enable was set again meanwhile, it accepts work once it is OFF. -/
def drainEnd : Block → Act
  | .rope n p => endDrain (RPL_CTL_EN n p) (RPL_STAT_STATE n p)
  | .box => endDrain BOX_CTL_EN BOX_STAT_STATE
  | .kvc d => endDrain (KVC_CTL_EN d) (KVC_STAT_STATE d)
  | .dma n ch => endDrain (DMA_CH_CTL_EN n ch) (DMA_CH_STAT_STATE n ch)
  | .ctx x => setF (ING_CTX_STAT_STATE x) 0
  | .eth m => endDrain (ETH_CTL_EN m) (ETH_STAT_STATE m)
  | .can k => endDrain (CAN_CTL_EN k) (CAN_STAT_STATE k)
  | .pcie => endDrain PCIE_CTL_EN PCIE_STAT_STATE
  | .fusion => setF FUS_STAT_STATE 0
  | .traverse => endDrain TRV_CTL_EN TRV_STAT_STATE

/-- What is left in the block ends ABORTED, and the block becomes OFF. A rope port holds no item: the transactions left end
by their sources' timeouts. -/
def drainAbort : Block → Act
  | .rope n p => endDrain (RPL_CTL_EN n p) (RPL_STAT_STATE n p)
  | .box => boxDrainTimeout
  | .kvc d => kvDrainTimeout d
  | .dma n ch => dmaDrainTimeout n ch
  | .ctx x => ctxDrainEnd x
  | .eth m => ethDrainTimeout m
  | .can k => canDrainTimeout k
  | .pcie => pcieDrainEnd
  | .fusion => fusDrainTimeout
  | .traverse => trvDrainTimeout

/-- DRAIN_DONE: the block drains and its accepted work is done. -/
def execDrainDone (b : Block) (s : State) : Host.Outcome State Fault Refusal :=
  done (fun s => if draining s b && drained s b then seq [drainEnd b, unitDrainNote] s else []) s

/-- DRAIN_TIMEOUT: work that is done at this time counts as done; the rest is aborted. -/
def execDrainTimeout (b : Block) (s : State) : Host.Outcome State Fault Refusal :=
  done (fun s => if draining s b then seq [if drained s b then drainEnd b else drainAbort b, unitDrainNote] s else []) s

end Sys2Proof.Machine
end

