-- ==== Sys2Proof/Machine/Cairn.lean ====
section
/-! DEFINITION. The cairn monitor of anchor A (R569 to R579, R504, R505): received characters, command lines, and the
commands. -/
namespace Sys2Proof.Machine

/-! ### Command lines (R570, R575) -/

/-- A command of the table of R575 with its fields. -/
inductive MonCmd where
  | help | baud (c : Nat) | chal | unlock | lock
  | peek (a : Nat) | dump (a n : Nat) | topo | pstat (k : Nat) | log (x : Nat) (k : Option Nat) | traceShow
  | poke (a v : Nat) | park (p : Nat) | wake (p : Nat) | restart (p : Nat)
  | traceStart (a n k : Nat) | traceStop | slot (n len : Nat)
  deriving DecidableEq, Repr

/-- What a line says: a command, a word that no row of the table has, or a field missing or out of range. -/
inductive MonLine where
  | empty | unknown | badField | cmd (c : MonCmd)
  deriving DecidableEq, Repr

/-- Characters of a text. -/
def codes (t : String) : List Nat := t.toList.map Char.toNat

/-- Upper case of a character; command words are case-insensitive. -/
def upChar (c : Nat) : Nat := if 97 ≤ c ∧ c ≤ 122 then c - 32 else c

/-- Fields of a line, separated by one or more spaces. -/
def splitFields : List Nat → List Nat → List (List Nat)
  | [], w => if w.isEmpty then [] else [w]
  | c :: cs, w => if c = 32 then (if w.isEmpty then splitFields cs [] else w :: splitFields cs []) else splitFields cs (w ++ [upChar c])

/-- Value of a digit in a base. -/
def digit (base c : Nat) : Option Nat :=
  let d := if 48 ≤ c ∧ c ≤ 57 then c - 48 else if 65 ≤ c ∧ c ≤ 90 then c - 55 else 99
  if d < base then some d else none

/-- A number: hexadecimal after 0x, with underscores allowed, else decimal. -/
def parseNum (w : List Nat) : Option Nat :=
  let go (base : Nat) (ds : List Nat) : Option Nat :=
    if ds.isEmpty then none
    else ds.foldl (fun acc c => match acc, digit base c with | some v, some d => some (v * base + d) | _, _ => none) (some 0)
  match w with
  | 48 :: 88 :: ds => go 16 (ds.filter (fun c => c != 95))
  | ds => go 10 ds

/-- A number within a range. -/
def fieldIn (lo hi : Nat) (w : List Nat) : Option Nat :=
  match parseNum w with
  | some v => if lo ≤ v ∧ v ≤ hi then some v else none
  | none => none

/-- A command if its fields are present and in range. -/
def orSyntax (c : Option MonCmd) : MonLine := match c with
  | some c => .cmd c
  | none => .badField

/-- The largest global address of 48 bits. -/
abbrev addrMax : Nat := 2 ^ 48 - 1

/-- Fields of LOG: the die, anchor A if omitted, and the number of entries. -/
def parseLog : List (List Nat) → Option MonCmd
  | [] => some (.log 0 none)
  | [w] => if w = [65] then some (.log 0 none) else if w = [66] then some (.log 1 none)
           else (fieldIn 1 1024 w).map (fun k => .log 0 (some k))
  | [w, k] => if w = [65] then (fieldIn 1 1024 k).map (fun k => .log 0 (some k))
              else if w = [66] then (fieldIn 1 1024 k).map (fun k => .log 1 (some k)) else none
  | _ => none

/-- Fields of PART. -/
def parsePart : List (List Nat) → Option MonCmd
  | [p, w] => (fieldIn 0 15 p).bind (fun p =>
      if w = codes "PARK" then some (.park p) else if w = codes "WAKE" then some (.wake p)
      else if w = codes "RESTART" then some (.restart p) else none)
  | _ => none

/-- Fields of TRACE. -/
def parseTrace : List (List Nat) → Option MonCmd
  | [w] => if w = codes "SHOW" then some .traceShow else if w = codes "STOP" then some .traceStop else none
  | [w, a, n, k] =>
    if w = codes "START" then
      (match fieldIn 0 addrMax a, fieldIn 0 addrMax n, fieldIn 1 4096 k with
      | some a, some n, some k => if a % 64 = 0 then some (.traceStart a n k) else none
      | _, _, _ => none)
    else none
  | _ => none

/-- Fields of DUMP. -/
def parseDump : List (List Nat) → Option MonCmd
  | [a, n] => (match fieldIn 0 addrMax a, fieldIn 4 4096 n with
    | some a, some n => if a % 4 = 0 ∧ n % 4 = 0 then some (.dump a n) else none
    | _, _ => none)
  | _ => none

/-- Fields of SLOT: the slot, the word LEN and the length. -/
def parseSlot : List (List Nat) → Option MonCmd
  | [n, w, b] => if w = codes "LEN" then
      (match fieldIn 0 1 n, fieldIn 0 (17 * 0x100000 + 64) b with
      | some n, some b => some (.slot n b)
      | _, _ => none)
    else none
  | _ => none

/-- A command without fields. -/
def noFields (c : MonCmd) (ws : List (List Nat)) : Option MonCmd := if ws.isEmpty then some c else none

/-- Parse a line (R570, R575). -/
def parseLine (line : List Nat) : MonLine :=
  match splitFields line [] with
  | [] => .empty
  | w :: ws =>
    if w = codes "HELP" then orSyntax (noFields .help ws)
    else if w = codes "BAUD" then orSyntax (match ws with | [c] => (fieldIn 0 5 c).map .baud | _ => none)
    else if w = codes "CHAL" then orSyntax (noFields .chal ws)
    else if w = codes "UNLOCK" then orSyntax (noFields .unlock ws)
    else if w = codes "LOCK" then orSyntax (noFields .lock ws)
    else if w = codes "PEEK" then orSyntax (match ws with | [a] => (fieldIn 0 addrMax a).map .peek | _ => none)
    else if w = codes "DUMP" then orSyntax (parseDump ws)
    else if w = codes "TOPO" then orSyntax (noFields .topo ws)
    else if w = codes "PSTAT" then orSyntax (match ws with
      | [] => some (.pstat 8) | [k] => (fieldIn 1 64 k).map .pstat | _ => none)
    else if w = codes "LOG" then orSyntax (parseLog ws)
    else if w = codes "TRACE" then orSyntax (parseTrace ws)
    else if w = codes "POKE" then orSyntax (match ws with
      | [a, v] => (match fieldIn 0 addrMax a, fieldIn 0 (2 ^ 32 - 1) v with
        | some a, some v => some (.poke a v)
        | _, _ => none)
      | _ => none)
    else if w = codes "PART" then orSyntax (parsePart ws)
    else if w = codes "SLOT" then orSyntax (parseSlot ws)
    else .unknown

/-! ### Replies (R571) -/

/-- The monitor's level (R504). -/
def monLevel (s : State) : Nat := getF s (SEC_BOOT_DEBUG 0)

/-- Does the monitor run: anchor A is past its boot (R75, R569)? -/
def monRuns (s : State) : Bool := ancState s 0 != 0

/-- The prompt that ends a reply, with the current level. -/
def prompt : Act := fun s =>
  forEach (codes "cairn" ++ [48 + monLevel s] ++ codes "> ") (fun c => emit (.uart c)) s

/-- A reply: OK and its result, or an ERR code and what follows it; the command is counted as accepted or refused. -/
def monReply (code : Nat) (vals : List Nat) : Act := seq [
  if code = 0 then incReg (CRN_CMD_CNT 0) else incReg (CRN_ERR_CNT 0), emit (.reply code vals), prompt]

/-- ERR code of a line that is refused as it stands; none for a command to perform or an empty line. -/
def lineErr (l : List Nat × Bool) : Option Nat :=
  if l.2 then some 2 else match parseLine l.1 with
  | .unknown => some 1
  | .badField => some 2
  | _ => none

/-- Does a line ask nothing of a command row: refused as it stands, or empty? -/
def lineIdle (l : List Nat × Bool) : Bool := (lineErr l).isSome || parseLine l.1 == .empty

/-- The oldest lines are answered as far as they are refused as they stand. -/
def monSettle : Act := fun s =>
  seq [upd (.mon { s.mon with lines := s.mon.lines.dropWhile lineIdle }),
    forEach (s.mon.lines.takeWhile lineIdle) (fun l => match lineErr l with
      | some e => monReply e []
      | none => nop)] s

/-- The command of the oldest line. -/
def monFront (s : State) : Option MonCmd :=
  match s.mon.lines with
  | l :: _ => if l.2 then none else (match parseLine l.1 with | .cmd c => some c | _ => none)
  | [] => none

/-- Characters that the receive buffer holds. -/
def monHeld (s : State) : Nat := s.mon.buf.length + (s.mon.lines.map (fun l => l.1.length)).foldl (· + ·) 0

/-- UART_CHARACTER (R570): a character arrives. -/
def uartChar (c : Nat) : Act := fun s =>
  let m := s.mon
  if !monRuns s then []
  else if c = 10 ∧ m.lastCr then [.mon { m with lastCr := false }]
  else if c = 13 ∨ c = 10 then
    seq [emit (.uart c), upd (.mon { m with
      lines := m.lines ++ [(m.buf, m.dropped)]
      buf := []
      dropped := false
      lastCr := c == 13 }), monSettle] s
  else if 512 ≤ monHeld s ∨ 256 ≤ m.buf.length then [.mon { m with dropped := true, lastCr := false }]
  else seq [emit (.uart c), upd (.mon { m with buf := m.buf ++ [c], lastCr := false })] s

/-- UART_CHARACTER. -/
def execUartCharacter (c : Nat) (s : State) : Host.Outcome State Fault Refusal := done (uartChar (c % 256)) s

/-- The I/O die is in reset or held (ERR 0x05). -/
def noIod (s : State) : Bool := s.boot.iod != 2

/-- Perform the command of the oldest line if it is the one asked for: level, I/O die, effect, reply (R571). -/
def monRun (pick : MonCmd → Bool) (lvl : Nat) (iod : Bool) (now : Nat) (f : MonCmd → State → Nat × List Nat × Act) : Act :=
  seq [advance now, fun s =>
    match monFront s with
    | some c =>
      if !pick c || !monRuns s then [] else
      seq [upd (.mon { s.mon with lines := s.mon.lines.drop 1 }), fun s =>
        let r := if monLevel s < lvl then (3, [], nop) else if iod && noIod s then (5, [], nop) else f c s
        seq [r.2.2, monReply r.1 r.2.1] s, monSettle] s
    | none => []]

/-- An EVENT entry of the monitor in both fault logs (R573, R505). -/
def monEvent (data : List Byte) : Act := forEach [0, 1] (fun y => fun s =>
  if ancState s y = 0 then [] else ancLog y 0x40 9 0 data s)

/-- The EVENT entry of a performed command. -/
def cmdEvent (what : Nat) (six : List Byte) (v : Nat) : Act :=
  monEvent (leBytes 1 7 ++ leBytes 1 what ++ (six ++ List.replicate 6 0).take 6 ++ leBytes 4 v)

/-! ### Levels (R504, R505) -/

/-- A trace in progress stops. -/
def traceEnd : Act := fun s =>
  if s.trace.running then seq [upd (.trace { s.trace with running := false }), setF (CRN_STAT_TRACE 0) 2] s else []

/-- The level returns to 0: the trace stops, and the fall is logged. -/
def levelFall (how : Nat) : Act := fun s =>
  seq [setF (SEC_BOOT_DEBUG 0) 0, traceEnd,
    whenA (monLevel s != 0) (monEvent (leBytes 1 6 ++ leBytes 1 how ++ leBytes 6 0 ++ leBytes 8 s.mon.serial)),
    upd (.mon { s.mon with expiry := none, serial := 0 })] s

/-- DEBUG_EXPIRY (R505): DURATION_S has ended. -/
def execDebugExpiry (now : Nat) (s : State) : Host.Outcome State Fault Refusal :=
  done (seq [advance now, fun s => match s.mon.expiry with
    | some e => if e ≤ s.time then levelFall 1 s else []
    | none => []]) s

/-- HELP: the commands of the current level, by their rows of R575. -/
def execMonHelp (now : Nat) (s : State) : Host.Outcome State Fault Refusal :=
  done (monRun (fun c => c == .help) 0 false now (fun _ s =>
    (0, if monLevel s = 0 then List.range 5 else if monLevel s = 1 then List.range 11 else List.range 17, nop))) s

/-- BAUD (R569): the reply goes out at the old rate, then the new one holds. -/
def execMonBaud (now : Nat) (s : State) : Host.Outcome State Fault Refusal :=
  done (seq [fun s => (match monFront s with
    | some (.baud c) => seq [monRun (fun c => match c with | .baud _ => true | _ => false) 0 false now (fun _ _ => (0, [], nop)),
        whenA (monRuns s) (setF (CRN_STAT_BAUD 0) c)] s
    | _ => advance now s)]) s

/-- CHAL (R505): the device ID and a fresh nonce, valid for 60 s; it voids the one before. -/
def execMonChal (now : Nat) (s : State) : Host.Outcome State Fault Refusal :=
  done (monRun (fun c => c == .chal) 0 false now (fun _ s =>
    let nonce : List Byte := (List.range 32).map (fun i => BitVec.ofNat 8 (Config.fresh (s.freeCtr + i)))
    (0, rd64 s (SEC_DEVID 0) :: nonce.map (·.toNat), seq [upd (.freeCtr (s.freeCtr + 32)),
      upd (.mon { s.mon with nonce := some (nonce, s.time + 60000000000) })]))) s

/-- Is an unlock token with its debug certificate part valid for this device and challenge (R505)? -/
def tokenOk (s : State) (b nonce : List Byte) : Bool :=
  let cert := sub8 b 448 1216
  b.length == 1664 && num b 0 4 == 0x4B4C4E55 && decide (1 ≤ num b 4 1 ∧ num b 4 1 ≤ 2) && zeroAt b 5 3
    && decide (1 ≤ num b 8 4 ∧ num b 8 4 ≤ 86400) && num b 0xC 8 == rd64 s (SEC_DEVID 0) && sub8 b 0x14 32 == nonce
    && zeroAt b 0x34 12 && certOk cert usDEBUG (get_stores s 0).certSvn
    && pssVerify (certKey cert) (sub8 b 0 64) (sub8 b 64 384)

/-- UNLOCK (R505) with the 1,664 bytes `b` that its lines spell: the nonce is spent, and a valid token raises the level. -/
def execMonUnlock (b : List Byte) (now : Nat) (s : State) : Host.Outcome State Fault Refusal :=
  done (monRun (fun c => c == .unlock) 0 false now (fun _ s =>
    let spent : Act := fun s => [.mon { s.mon with nonce := none }]
    match s.mon.nonce with
    | none => (8, [], nop)
    | some n =>
      if n.2 < s.time then (8, [], spent)
      else if !tokenOk s b n.1 then (7, [], spent)
      else
        let lvl := max (num b 4 1) (monLevel s)
        let serial := num b (448 + 384 + 8) 8
        (0, [lvl, num b 8 4], seq [spent,
          setF (SEC_BOOT_DEBUG 0) lvl, incReg (SEC_UNLOCK_CNT 0),
          fun s => [.mon { s.mon with expiry := some (s.time + num b 8 4 * 1000000000), serial := serial }],
          monEvent (leBytes 1 6 ++ leBytes 1 0 ++ leBytes 1 lvl ++ leBytes 5 0 ++ leBytes 8 serial)]))) s

/-- LOCK. -/
def execMonLock (now : Nat) (s : State) : Host.Outcome State Fault Refusal :=
  done (monRun (fun c => c == .lock) 0 false now (fun _ _ => (0, [], levelFall 2))) s

/-! ### Observing (level 1) -/

/-- A 32-bit read over the global window (R573): status, value and what the read does. `ext` is the answer of the PCIe link
or of the paired package where the address lies there. -/
def busRead (s : State) (a : Nat) (ext : Nat × Nat) : Nat × Nat × Act :=
  let r : Req := { src := .cairn, tag := 0, addr := a, len := 4 }
  if a % 4 ≠ 0 then (stUNMAPPED, 0, nop) else
  match locOf s a with
  | .iodCtl | .dieCtl _ | .ancCtl _ =>
    if regReadOk s .cairn a then (stOK, readValue s .cairn a, readEffect .cairn a) else (stUNMAPPED, 0, regRefuse .cairn a none)
  | .peer _ => (ext.1, ext.2 % 2 ^ 32, emit (.peerReq .read r))
  | .pcieOut => if getF s PCIE_STAT_STATE ≠ 1 then (stDISABLED, 0, nop)
      else (ext.1, ext.2 % 2 ^ 32, emit (.pcieRead 0 (a - 0x230000000000) 4))
  | .none => (stUNMAPPED, 0, recordRefusal .cairn a)
  | _ => if readStatus s a 4 = 0 then (stOK, numAt s a 4, unitRead .cairn a 4) else (readStatus s a 4, 0, unitRead .cairn a 4)

/-- A 32-bit write over the global window: whether the register refused it, status, effect. -/
def busWrite (s : State) (a v now : Nat) (ext : Nat) : Bool × Nat × Act :=
  let r : Req := { src := .cairn, tag := 0, addr := a, len := 4, data := leBytes 4 v }
  if a % 4 ≠ 0 then (false, stUNMAPPED, nop) else
  match locOf s a with
  | .iodCtl | .dieCtl _ | .ancCtl _ =>
    if inTrajArea a ∨ !regWriteOk s .cairn a then (true, stUNMAPPED, regRefuse .cairn a (some v))
    else (false, regWriteStatus s a v, regEffect .cairn a v now)
  | .peer _ => (false, ext, emit (.peerReq .write r))
  | .pcieOut => if getF s PCIE_STAT_STATE ≠ 1 then (false, stDISABLED, nop)
      else (false, stOK, emit (.pcieWrite (a - 0x230000000000) (leBytes 4 v)))
  | .none => (false, stUNMAPPED, recordRefusal .cairn a)
  | _ => (false, writeStatus s a 4, unitWrite .cairn a (leBytes 4 v))

/-- PEEK: `ext` as for `busRead`. -/
def execMonPeek (ext : Nat × Nat) (now : Nat) (s : State) : Host.Outcome State Fault Refusal :=
  done (monRun (fun c => match c with | .peek _ => true | _ => false) 1 true now (fun c s => match c with
    | .peek a =>
      let r := busRead s a ext
      if r.1 = 0 then (0, [r.2.1], r.2.2) else (4, [r.1], r.2.2)
    | _ => (1, [], nop))) s

/-- Read words one after another; the first that fails ends the reading. -/
def busWords (ext : Nat × Nat) : List Nat → State → Nat × List Nat × Act
  | [], _ => (0, [], nop)
  | a :: as, s =>
    let r := busRead s a ext
    if r.1 ≠ 0 then (4, [r.1], r.2.2)
    else
      let q := busWords ext as (runAct r.2.2 s)
      (q.1, if q.1 = 0 then r.2.1 :: q.2.1 else q.2.1, seq [r.2.2, q.2.2])

/-- DUMP. -/
def execMonDump (ext : Nat × Nat) (now : Nat) (s : State) : Host.Outcome State Fault Refusal :=
  done (monRun (fun c => match c with | .dump _ _ => true | _ => false) 1 true now (fun c s => match c with
    | .dump a n => busWords ext ((List.range (n / 4)).map (fun i => a + 4 * i)) s
    | _ => (1, [], nop))) s

/-- TOPO: TOPO_STATUS, TOPO_SEQ, TOPO_SVN, TOPO_MEAS, then partition number and PRT_STAT of each defined partition. -/
def execMonTopo (now : Nat) (s : State) : Host.Outcome State Fault Refusal :=
  done (monRun (fun c => c == .topo) 1 true now (fun _ s =>
    (0, [rd s TOPO_STATUS, rd64 s TOPO_SEQ, rd s TOPO_SVN] ++ (List.range 8).map (fun i => rd s (TOPO_MEAS i)) ++
      (((List.range 16).filter (partDefined s)).map (fun p => [p, rd s (PRT_STAT p)])).flatten, nop))) s

/-- The values of a PSTAT line; without the fields taken from the I/O die where `bare`. -/
def pstatLine (bare : Bool) (q : Pstat) : List Nat :=
  [q.pitch] ++ (if bare then [] else [q.ovr, q.released]) ++ [q.tasks.length] ++ q.tasks ++ [q.verdict, q.missed, q.ghosts, q.state]

/-- PSTAT (R576): the last k pitches, oldest first. -/
def execMonPstat (now : Nat) (s : State) : Host.Outcome State Fault Refusal :=
  done (monRun (fun c => match c with | .pstat _ => true | _ => false) 1 false now (fun c s => match c with
    | .pstat k => (if noIod s then 5 else 0, (((s.mon.pstat.take k).reverse).map (pstatLine (noIod s))).flatten, nop)
    | _ => (1, [], nop))) s

/-- LOG: the last k entries of a fault log, oldest first, as their bytes; without k the number shown is open. -/
def execMonLog (now : Nat) (s : State) : Host.Outcome State Fault Refusal :=
  done (monRun (fun c => match c with | .log _ _ => true | _ => false) 1 false now (fun c s => match c with
    | .log x k =>
      let h := rd s (ANC_LOG_HEAD x)
      let k := min (min h 1024) (k.getD (1 + Config.fresh s.freeCtr % 1024))
      (0, (((List.range k).map (fun i => ((List.range 32).map (fun b =>
        (sramAt s x (0x1E8000 + (h - k + i) % 1024 * 32 + b)).toNat)))).flatten), upd (.freeCtr (s.freeCtr + 1)))
    | _ => (1, [], nop))) s

/-- TRACE_SHOW: state, record count and, where a write failed, its status (R577). -/
def execTraceShow (now : Nat) (s : State) : Host.Outcome State Fault Refusal :=
  done (monRun (fun c => c == .traceShow) 1 false now (fun _ s =>
    (0, [getF s (CRN_STAT_TRACE 0), s.trace.pos / 32, s.trace.status], nop))) s

/-! ### Changing state (level 2) -/

/-- POKE (R573): under the access codes; a refused register is ERR 0x09. -/
def execMonPoke (ext : Nat) (now : Nat) (s : State) : Host.Outcome State Fault Refusal :=
  done (monRun (fun c => match c with | .poke _ _ => true | _ => false) 2 true now (fun c s => match c with
    | .poke a v =>
      let r := busWrite s a v now ext
      if r.1 then (9, [], r.2.2) else if r.2.1 ≠ 0 then (4, [r.2.1], r.2.2)
      else (0, [], seq [cmdEvent 1 (leBytes 6 a) v, r.2.2])
    | _ => (1, [], nop))) s

/-- The value a PART reply gives: STATE after the command. -/
def partReply (p : Nat) (act : Act) (what : Nat) (s : State) : Nat × List Nat × Act :=
  (0, [partState (runAct act s) p], seq [act, cmdEvent 2 (leBytes 1 p ++ leBytes 1 what) 0])

/-- PART_PARK (R262): sets PRT_BIV.REQ. -/
def execPartPark (now : Nat) (s : State) : Host.Outcome State Fault Refusal :=
  done (monRun (fun c => match c with | .park _ => true | _ => false) 2 true now (fun c s => match c with
    | .park p => partReply p (bivWrite p true) 0 s
    | _ => (1, [], nop))) s

/-- PART_WAKE (R263): clears PRT_BIV.REQ; ignored while HOLD is set. -/
def execPartWake (now : Nat) (s : State) : Host.Outcome State Fault Refusal :=
  done (monRun (fun c => match c with | .wake _ => true | _ => false) 2 true now (fun c s => match c with
    | .wake p => partReply p (bivWrite p false) 1 s
    | _ => (1, [], nop))) s

/-- PART_RESTART (R470): a restart request as an anchor die sends it. -/
def execPartRestart (now : Nat) (s : State) : Host.Outcome State Fault Refusal :=
  done (monRun (fun c => match c with | .restart _ => true | _ => false) 2 true now (fun c _ => match c with
    | .restart p => (0, [], seq [decideRestart p 2 none, cmdEvent 2 (leBytes 1 p ++ leBytes 1 2) 0])
    | _ => (1, [], nop))) s

/-- TRACE_START (R577). -/
def execTraceStart (now : Nat) (s : State) : Host.Outcome State Fault Refusal :=
  done (monRun (fun c => match c with | .traceStart _ _ _ => true | _ => false) 2 true now (fun c s => match c with
    | .traceStart a n k =>
      if s.trace.running then (6, [], nop)
      else (0, [], seq [
        upd (.trace { running := decide (32 ≤ n), addr := a, len := n, lastPitch := pitchNum s + k - 1 }),
        setF (CRN_STAT_TRACE 0) (if 32 ≤ n then 1 else 2), cmdEvent 3 (leBytes 6 a) k])
    | _ => (1, [], nop))) s

/-- TRACE_STOP. -/
def execTraceStop (now : Nat) (s : State) : Host.Outcome State Fault Refusal :=
  done (monRun (fun c => c == .traceStop) 2 false now (fun _ s =>
    (0, [s.trace.pos / 32], seq [traceEnd, cmdEvent 3 (leBytes 6 s.trace.addr) 0]))) s

/-- The running slot, where one runs. -/
def runningSlot (s : State) : Option Nat :=
  if s.boot.iod = 2 then some (getF s TOPO_STATUS_RUN_SLOT)
  else if s.boot.hold then none else if (anc s 0).knowsSlot then some (anc s 0).slot else none

/-- SLOT (R578) with the package bytes `b` that its lines spell. -/
def slotCmd (n len : Nat) (b : List Byte) (s : State) : Nat × List Nat × Act :=
  if runningSlot s = some n then (9, [], nop)
  else if s.load.slotJob.isSome then (6, [], nop)
  else
    let empty : Act := seq [forEach [0, 1] (fun x => upd (.slots (2 * x + n) {})), topoShow, cmdEvent 4 (leBytes 1 n) len]
    if b.length ≠ len then (2, [], empty)
    else
      let r := packageCheck s b
      let images : Act := forEach [0, 1] (fun x => seq [flashStore x (slotOff n + 0x1000) (pkgAfw b),
        flashStore x (slotOff n + 0x81000) (pkgMfw b), flashStore x (slotOff n + 0x200000) (pkgTopo b)])
      if r.1 ≠ 0 then (0x0A, [r.1], seq [empty, whenA (pkgOk b) images])
      else (0, [1], seq [empty, images, forEach [0, 1] (fun x => upd (.slots (2 * x + n) ⟨1, false⟩)), topoShow])

/-- SLOT. -/
def execMonSlot (b : List Byte) (now : Nat) (s : State) : Host.Outcome State Fault Refusal :=
  done (monRun (fun c => match c with | .slot _ _ => true | _ => false) 2 false now (fun c s => match c with
    | .slot n len => slotCmd n len b s
    | _ => (1, [], nop))) s

end Sys2Proof.Machine
end

