-- ==== Sys2Proof/Machine/Pitch.lean ====
section
/-! DEFINITION. The pitch generator (R35 to R57): ticks and everything a tick does, step ticks, the guard, barriers, peer
ticks and the time servo. -/
namespace Sys2Proof.Machine

/-! ### Overruns (R40, R53) -/

/-- Partitions of the present pitch that have a job whose PCH_DONE bit is clear. -/
def overran (s : State) : List Nat :=
  (List.range 16).filter (fun p => (get_parts s p).hadJob && !bit (getF s PCH_DONE_DONE) p)

/-- Record overruns of partitions: PCH_OVR, the count, and the last pitch with its lowest partition; source 1 of R366. -/
def ovrRecord (ps : List Nat) (count pitch : Nat) : Act := fun s =>
  match ps with
  | [] => []
  | p :: _ => seq [
      setF PCH_OVR_OVR (ps.foldl (fun m q => putBit m q true) (getF s PCH_OVR_OVR)),
      addReg PCH_OVR_CNT (ps.length * count),
      setF PCH_OVR_LAST_PITCH (pitch % 2 ^ 16), setF PCH_OVR_LAST_PART p, icuPend 1] s

/-- OVERRUN_RECORD (R53) at the tick after pitch `k`: a partition that is not elastic takes a job fault (R464). -/
def overrunTick (k : Nat) : Act := fun s =>
  let ps := overran s
  seq [ovrRecord ps 1 k, forEach ps (fun p => seq [overrunFault p, faultNext p false])] s

/-- The pitches between `k` and tick `m` were skipped (R40): each counts one overrun per partition with a job in `k`. -/
def skipTick (k m : Nat) : Act := fun s =>
  if m ≤ k + 1 then [] else
  seq [setF PCH_STATUS_TICK_LATE 1,
    ovrRecord ((List.range 16).filter (fun p => (get_parts s p).hadJob)) (m - k - 1) (m - 1)] s

/-! ### Aging (R260) -/

/-- AGING_UPDATE of partition `p`, ACTIVE in the ending pitch. -/
def ageUpdate (p : Nat) : Act := fun s =>
  let a := getF s (PRT_STAT_AGE p)
  let age := if (get_parts s p).hadJob then (if bit (getF s PCH_DONE_DONE) p then 0 else min (a + 1) 255) else a
  let thr := getF s (PRT_CFG_AGE_THR p)
  let lvl := getF s (PRT_CFG_LEVEL p)
  let eff := if thr = 0 ∨ age ≤ thr then lvl else max (getF s (PRT_CFG_AGE_TOP p)) (lvl - (age - thr))
  seq [setF (PRT_STAT_AGE p) age, whenA (decide (eff < effLevel s p)) (incReg (PRT_PROM_CNT p)),
    setF (PRT_STAT_EFF_LEVEL p) eff] s

/-- Aging of every partition that was ACTIVE. -/
def ageTick : Act := fun s =>
  forEach ((List.range 16).filter (fun p => partState s p == 2 || (get_parts s p).hadJob)) ageUpdate s

/-! ### Records of past pitches (R576) -/

/-- Anchor A keeps the record of pitch `k`: PCH_OVR at its end tick, the released set, overrun and late tasks, verdict. -/
def pstatTick (k : Nat) : Act := fun s =>
  if !ancRuns s 0 then [] else
  let a := anc s 0
  let late := (a.reports.filter (fun r => decide (taskDeadline s 0 r.1 < r.2))).map (fun r => r.1 + 64)
  let q : Pstat :=
    ⟨k, getF s PCH_OVR_OVR, a.released, a.overran ++ late, a.verdict.getD 0,
      if a.verdict.isSome then getF s (ANC_VERDICT_MISSED 0) else 0,
      if a.verdict.isSome then getF s (ANC_VERDICT_GHOSTS 0) else 0, ancState s 0⟩
  [.mon { s.mon with pstat := (q :: s.mon.pstat).take 64 }]

/-! ### The ending pitch (R54, R55) -/

/-- Has the core anything of the ending pitch: a job, saved state, a switch, a borrower's mark, engine state? -/
def coreUsed (s : State) (g : Nat) : Bool :=
  get_cores s g != {} || !(liveThreads s g).isEmpty || (List.range 8).any (fun e => eng s g e != {})

/-- JOB_DISCARD (R54): threads, engine buffers and saved state of the ending pitch are discarded, and lend windows end. -/
def discardTick : Act := fun s =>
  seq [forEach ((List.range 256).filter (coreUsed s)) (fun g => seq [coreDiscard g,
      setCore g (fun c => { c with part := coreOwner s g, bor := 0 })]),
    forEach ((List.range 256).filter (fun g => flag s (CORE_STAT_ARRIVED g))) (fun g => setF (CORE_STAT_ARRIVED g) 0),
    forEach ((List.range 32).filter (fun i => getF s (PRT_LEND_LSTATE (i / 4) (i % 4)) != 0)) (fun i =>
      seq [setF (PRT_LEND_LSTATE (i / 4) (i % 4)) 0, clkShow (i / 4) (i % 4)])] s

/-! ### Starting and waking (R76, R262, R263) -/

/-- PARTITION_START at tick `m`: a loaded partition starts and its supervision entries become active; with REQ held it goes to BIVOUAC. -/
def startPart (m p : Nat) : Act := fun s =>
  let a := get_parts s p
  if partState s p ≠ 1 ∨ !a.loaded then []
  else seq [
    setPart p (fun a => { a with started := true, parkHeld := false }),
    forEach ((List.range 128).filter (fun i => taskOwner s (i / 64) (i % 64) == p)) (fun i =>
      setF (SUP_TASK_CFG_ACTIVE (i / 64) (i % 64)) 1),
    if a.parkHeld then seq [bivEnter p m, banksSettle p] else setF (PRT_STAT_STATE p) 2] s

/-- WAKING_ACTIVE: at the first tick 1 ms or more after the clear. -/
def wakePart (p : Nat) : Act := fun s =>
  if partState s p = 6 ∧ (get_parts s p).wokenAt + 1000000 ≤ s.time then setF (PRT_STAT_STATE p) 2 s else []

/-! ### Release (R46, R258) -/

/-- What the release clears in a core: flags of its engines, instructions issued, the high-water mark (R135, R162). -/
def clearCore (g : Nat) : Act := fun s => seq [
  wr64 (CORE_ISSUE g) 0, setF (CORE_TXN_HWM g) (getF s (CORE_TXN_OUT g)),
  forEach (List.range 8) (fun e => wr (ENG_FLAGS g e) 0)] s

/-- JOB_RELEASE of partition `p`: its cores start their listed threads, unless its segments are still being copied (R65). -/
def releasePart (p : Nat) : Act := fun s =>
  seq [forEach (coresOf s p) clearCore, setPart p (fun a => { a with hadJob := true }),
    whenA (!(get_parts s p).copyDue) (coresStart p)] s

/-- The jobs of the new pitch: released where ACTIVE, withheld where started and not loading. -/
def releaseTick : Act := fun s =>
  let act := (List.range 16).filter (fun p => partState s p == 2)
  let held := (List.range 16).filter (fun p => partDefined s p && (get_parts s p).started && partState s p != 2 && partState s p != 1)
  seq [forEach (List.range 16) (fun p => fun s =>
      let a := get_parts s p
      if a.hadJob || a.jobDone || a.cancelled || a.faulted || a.restartIn then
        setPart p (fun a => { a with
          hadJob := false
          jobDone := false
          cancelled := false
          faulted := false
          restartIn := false }) s
      else []),
    forEach act releasePart, forEach held (fun p => incReg (PRT_WITHHELD_CNT p))] s

/-- RELEASED_SET_SEND (R258): the released partitions, with n and T_n, go to both anchor dies. -/
def sendReleased : Act := fun s =>
  let mask := (List.range 16).foldl (fun m p => if (get_parts s p).hadJob then m + 2 ^ p else m) 0
  seq [incReg AMB_FWD_CNT,
    forEach [0, 1] (fun x => setAnc x (fun a => { a with relIn := some (pitchNum s, tickTime s, mask) }))] s

/-! ### The tick (R37) -/

/-- The registers of the new pitch `m`. -/
def newPitch (m : Nat) : Act := fun s => seq [
  setF PCH_DONE_DONE 0, wr64 PCH_NUM m, wr64 PCH_TICK ((s.n0 + m) * period s),
  setF PCH_STEP_STEP_IDX 0, setF PCH_STEP_STEP_CNT ((period s + 999999) / 1000000),
  setF PCH_STATUS_RUNNING 1, upd (.ticked true), icuPend 0] s

/-- What the units do at tick `m`. -/
def unitsTick (m : Nat) : Act := seq [
  ingressTick, egoTick (m - 1), fusTick, trvTick, unitTick, boxTick, kvTick, dmaTick, regTick, bndTick, lagTick m,
  fun s => if s.trace.running && decide (s.trace.lastPitch < m) then traceEnd s else [],
  stepSample 0,
  fun s => if getF s PCH_CFG_ROLE = 1 then emit .peerTick s else []]

/-- What a pitch `k` that ends at tick `m` leaves: skipped pitches, retries, ages, its record, its discarded jobs. -/
def endPitch (m : Nat) : Act := fun s =>
  if !s.ticked then [] else
  let k := pitchNum s
  seq [overrunTick k, skipTick k m, retryTick, ageTick, pstatTick k, discardTick] s

/-- The tick-bound changes of partitions at tick `m`: commits, restarts, wakings and starts. `due` and `all` were decided
before the tick; `bad` names dies in which a restart's test finds a lasting fault. -/
def partsTick (m : Nat) (due : List (Nat × Nat)) (all : Bool) (bad : List Nat) : Act := seq [
  fun s => if s.flt.removed.isEmpty then [] else [.flt { s.flt with removed := [], gone := [] }],
  partialTick m,
  if all then allRestart m bad else restartTick m due bad,
  forEach (List.range 16) wakePart, forEach (List.range 16) (startPart m)]

/-- Tick `m` is raised: faults on their way are taken, the pitch before ends, and pitch `m` begins. -/
def tick (m : Nat) (bad : List Nat) : Act := seq [
  faultAll,
  fun s => seq [endPitch m, partsTick m (restartsDue s) (allDue s) bad, newPitch m, releaseTick, sendReleased, unitsTick m] s]

/-- Number of the tick due at or before a device time. -/
def tickAt (s : State) (now : Nat) : Option Nat :=
  if flag s PCH_CFG_RUN ∧ 0 < period s ∧ s.n0 ≤ now / period s then some (now / period s - s.n0) else none

/-- Raise the tick due at `now` (R40): one that cannot be raised within 1 µs of its due time is not raised late. -/
def raiseTick (now : Nat) (bad : List Nat) : Act := fun s =>
  match tickAt s now with
  | none => []
  | some m =>
    if s.ticked ∧ m ≤ pitchNum s then []
    else if 1000 < now % period s then setF PCH_STATUS_TICK_LATE 1 s
    else tick m bad s

/-- Does the part raise its own ticks: it is no follower, or it has lost its master (R45)? -/
def ownTicks (s : State) : Bool := getF s PCH_CFG_ROLE != 2 || flag s PCH_STATUS_PEER_LOST

/-- PITCH_TICK: the tick due at device time `now`; `bad` names the dies in which a restart entered at it finds a fault. -/
def execPitchTick (now : Nat) (bad : List Nat) (s : State) : Host.Outcome State Fault Refusal :=
  done (seq [advance now, fun s => if ownTicks s then raiseTick now bad s else []]) s

/-- STEP_TICK (R41, R42): step `k` of the present pitch; step 0 is the pitch tick. -/
def execStepTick (k now : Nat) (s : State) : Host.Outcome State Fault Refusal :=
  done (seq [advance now, fun s =>
    if flag s PCH_CFG_RUN ∧ s.ticked ∧ getF s PCH_STEP_STEP_IDX < k ∧ k < getF s PCH_STEP_STEP_CNT
      ∧ tickTime s + k * 1000000 ≤ now then seq [setF PCH_STEP_STEP_IDX k, stepSample k] s
    else []]) s

/-- COMPUTE_TICK_APPLY (R43): die `d` applies the tick, and phase 0 of its banks begins (R182). -/
def execComputeTickApply (d now : Nat) (s : State) : Host.Outcome State Fault Refusal :=
  done (seq [advance now, fun s =>
    if d < 8 ∧ s.ticked ∧ !dieRemoved s d ∧ tickTime s ≤ now then
      seq [upd (.diePitch d (pitchNum s)), forEach (List.range 16) (fun p => phaseBegin d p)] s
    else []]) s

/-! ### Peer ticks (R45) -/

/-- Is the sideband of peer port `i` the one a follower listens to? -/
def peerPort (s : State) (i : Nat) : Bool :=
  if i = 0 then !flag s (RPL_STAT_DOWN 8 18) else i == 1 && flag s (RPL_STAT_DOWN 8 18) && !flag s (RPL_STAT_DOWN 8 19)

/-- PEER_TICK: the follower applies the tick that the master sent on peer port `i`, at `now`, 100 ns after it was raised. -/
def execPeerTick (i now : Nat) (bad : List Nat) (s : State) : Host.Outcome State Fault Refusal :=
  done (seq [advance now, fun s =>
    if getF s PCH_CFG_ROLE = 2 ∧ flag s PCH_CFG_RUN ∧ peerPort s i then seq [upd (.peerTickAt now), raiseTick now bad] s
    else []]) s

/-- PEER_LOST: no peer tick on either port within P + 50 µs. -/
def execPeerLost (now : Nat) (s : State) : Host.Outcome State Fault Refusal :=
  done (seq [advance now, fun s =>
    let last := max s.peerTickAt (rd64 s PCH_EPOCH)
    if getF s PCH_CFG_ROLE = 2 ∧ flag s PCH_CFG_RUN ∧ last + period s + 50000 ≤ now then setF PCH_STATUS_PEER_LOST 1 s
    else []]) s

/-! ### The time servo (R35, R36) -/

/-- TIME_SYNC_MESSAGE: a synchronisation on MAC `m` gives time `t` and trim `trim`. Before RUN the first sets device time;
any other moves PCH_TRIM within its limit. The servo has its grandmaster, so HOLDOVER clears. -/
def execTimeSyncMessage (m t trim : Nat) (s : State) : Host.Outcome State Fault Refusal :=
  done (fun s =>
    if m ≠ getF s PCH_CFG_TIME_PORT then []
    else seq [if !flag s PCH_CFG_RUN && !s.timeSet then seq [rebaseTo t, upd (.timeSet true)] else trimWrite trim,
      setF PCH_STATUS_HOLDOVER 0] s) s

/-- HOLDOVER: the servo has lost its grandmaster; the last trim stays. -/
def execHoldover (s : State) : Host.Outcome State Fault Refusal := done (setF PCH_STATUS_HOLDOVER 1) s

/-- PCH_TRIM_WRITE (R35). -/
def execPchTrimWrite (src : Master) (v : Nat) (s : State) : Host.Outcome State Fault Refusal :=
  done (guarded (swWriteOk src) src PCH_TRIM (trimWrite v)) s

/-! ### The guard and the barrier (R47, R53, R55) -/

/-- GUARD_START: the last 200 µs of the pitch begin, in which the firmware's policies write, once. -/
def execGuardStart (now : Nat) (s : State) : Host.Outcome State Fault Refusal :=
  done (seq [advance now, fun s =>
    if flag s PCH_CFG_RUN ∧ s.ticked ∧ guardStart s ≤ now ∧ now < tickTime s + period s ∧ s.guardPitch ≠ some (pitchNum s) then
      seq [upd (.guardPitch (some (pitchNum s))), budgetGuard, capPolicy, rebalance, dramPolicy, floorFree] s
    else []]) s

/-- BARRIER_COMPLETE: every core of partition `p`'s job has arrived; `times` gives when each die's report did (R479). After
the tick the job is gone, and a completion counts for nothing (R55). -/
def execBarrierComplete (p : Nat) (times : List (Nat × Nat)) (now : Nat) (s : State) : Host.Outcome State Fault Refusal :=
  done (seq [advance now, fun s =>
    if p < 16 ∧ jobRuns s p ∧ (diesOf s p).all (fun d => dieArrived s p d) then
      seq [setF PCH_DONE_DONE (putBit (getF s PCH_DONE_DONE) p true), setPart p (fun a => { a with jobDone := true }),
        noteLag (times.filter (fun e => (diesOf s p).contains e.1))] s
    else []]) s

end Sys2Proof.Machine
end

