-- ==== Sys2Proof/Machine/Dispatch.lean ====
section
/-! DEFINITION. One arm per command of the opcode table: each calls its own meaning. -/
namespace Sys2Proof.Machine

def exec (i : Instr) (s : State) : Host.Outcome State Fault Refusal :=
  match i with
  | .pitchTick now bad => Sys2Proof.Machine.execPitchTick now bad s
  | .stepTick k now => Sys2Proof.Machine.execStepTick k now s
  | .computeTickApply d now => Sys2Proof.Machine.execComputeTickApply d now s
  | .anchorSidebandTick x now => Sys2Proof.Machine.execAnchorSidebandTick x now s
  | .tickFault x now => Sys2Proof.Machine.execTickFault x now s
  | .peerTick port now bad => Sys2Proof.Machine.execPeerTick port now bad s
  | .peerLost now => Sys2Proof.Machine.execPeerLost now s
  | .timeSyncMessage m t trim => Sys2Proof.Machine.execTimeSyncMessage m t trim s
  | .holdover => Sys2Proof.Machine.execHoldover s
  | .pchTrimWrite src v => Sys2Proof.Machine.execPchTrimWrite src v s
  | .guardStart now => Sys2Proof.Machine.execGuardStart now s
  | .coreArrive g => Sys2Proof.Machine.execCoreArrive g s
  | .barrierComplete p times now => Sys2Proof.Machine.execBarrierComplete p times now s
  | .submit => Sys2Proof.Machine.execSubmit s
  | .cancel now => Sys2Proof.Machine.execCancel now s
  | .confirm okA okB => Sys2Proof.Machine.execConfirm okA okB s
  | .writeSlot => Sys2Proof.Machine.execWriteSlot s
  | .slotWriteDone => Sys2Proof.Machine.execSlotWriteDone s
  | .bundleReady src p k => Sys2Proof.Machine.execBundleReady src p k s
  | .bundleHashDone p k => Sys2Proof.Machine.execBundleHashDone p k s
  | .segmentCopyDone p now => Sys2Proof.Machine.execSegmentCopyDone p now s
  | .partialVerifyDone => Sys2Proof.Machine.execPartialVerifyDone s
  | .partialPrepareDone => Sys2Proof.Machine.execPartialPrepareDone s
  | .superviseAck x => Sys2Proof.Machine.execSuperviseAck x s
  | .partialArm now => Sys2Proof.Machine.execPartialArm now s
  | .flitReceive n p seqNo idle bad => Sys2Proof.Machine.execFlitReceive n p seqNo idle bad s
  | .linkRetryRequest n p => Sys2Proof.Machine.execLinkRetryRequest n p s
  | .linkDown n p cause => Sys2Proof.Machine.execLinkDown n p cause s
  | .routeSwitch d t => Sys2Proof.Machine.execRouteSwitch d t s
  | .transactionTimeout src tag => Sys2Proof.Machine.execTransactionTimeout src tag s
  | .memoryResponse src tag status data => Sys2Proof.Machine.execMemoryResponse src tag status data s
  | .rplDisable src n p => Sys2Proof.Machine.execRplDisable src n p s
  | .drainDone b => Sys2Proof.Machine.execDrainDone b s
  | .drainTimeout b => Sys2Proof.Machine.execDrainTimeout b s
  | .readReq r now => Sys2Proof.Machine.execReadReq r now s
  | .writeReq r now => Sys2Proof.Machine.execWriteReq r now s
  | .atomicReturning r now => Sys2Proof.Machine.execAtomicReturning r now s
  | .atomicNonReturning r now => Sys2Proof.Machine.execAtomicNonReturning r now s
  | .fillReq r now => Sys2Proof.Machine.execFillReq r now s
  | .copyReq r now => Sys2Proof.Machine.execCopyReq r now s
  | .readWin r now => Sys2Proof.Machine.execReadWin r now s
  | .writeWin r now => Sys2Proof.Machine.execWriteWin r now s
  | .watchReq r now => Sys2Proof.Machine.execWatchReq r now s
  | .correctedWriteBack => Sys2Proof.Machine.execCorrectedWriteBack s
  | .scrubRead d => Sys2Proof.Machine.execScrubRead d s
  | .scalarInstruction g t op rd ra arg cycle => Sys2Proof.Machine.execScalarInstruction g t op rd ra arg cycle s
  | .vectorInstruction g t vi => Sys2Proof.Machine.execVectorInstruction g t vi s
  | .blockEncode g t fmt vd rs v0 v1 => Sys2Proof.Machine.execBlockEncode g t fmt vd rs v0 v1 s
  | .blockDecode g t fmt va rs v0 v1 => Sys2Proof.Machine.execBlockDecode g t fmt va rs v0 v1 s
  | .loadInstr g t dest width rb off => Sys2Proof.Machine.execLoadInstr g t dest width rb off s
  | .storeInstr g t src width rb off => Sys2Proof.Machine.execStoreInstr g t src width rb off s
  | .gatherInstr g t vd rb off vo => Sys2Proof.Machine.execGatherInstr g t vd rb off vo s
  | .scatterInstr g t vs rb off vo => Sys2Proof.Machine.execScatterInstr g t vs rb off vo s
  | .atomicInstruction g t kind ret width rd rb off rv rc => Sys2Proof.Machine.execAtomicInstruction g t kind ret width rd rb off rv rc s
  | .spawn g t t2 re ra rd => Sys2Proof.Machine.execSpawn g t t2 re ra rd s
  | .halt g t => Sys2Proof.Machine.execHalt g t s
  | .waitWord g t rb off pitch count timeout rd rres => Sys2Proof.Machine.execWaitWord g t rb off pitch count timeout rd rres s
  | .waite g t e ticket => Sys2Proof.Machine.execWaite g t e ticket s
  | .signalInstr g t rb off inc status => Sys2Proof.Machine.execSignalInstr g t rb off inc status s
  | .fenceInstr g t m => Sys2Proof.Machine.execFenceInstr g t m s
  | .tensorIssue g t e rt op => Sys2Proof.Machine.execTensorIssue g t e rt op s
  | .watchValueDelivered g => Sys2Proof.Machine.execWatchValueDelivered g s
  | .waitPoll g t => Sys2Proof.Machine.execWaitPoll g t s
  | .waitTimeout g t => Sys2Proof.Machine.execWaitTimeout g t s
  | .mma g e => Sys2Proof.Machine.execMma g e s
  | .mmaSp g e => Sys2Proof.Machine.execMmaSp g e s
  | .accCvt g e => Sys2Proof.Machine.execAccCvt g e s
  | .accClr g e => Sys2Proof.Machine.execAccClr g e s
  | .engineOpFinish g e => Sys2Proof.Machine.execEngineOpFinish g e s
  | .coreClockGate g => Sys2Proof.Machine.execCoreClockGate g s
  | .bankPhaseStart d p k now => Sys2Proof.Machine.execBankPhaseStart d p k now s
  | .bankDark d b cyc => Sys2Proof.Machine.execBankDark d b cyc s
  | .bankWakeDone d b => Sys2Proof.Machine.execBankWakeDone d b s
  | .bankOvrWrite src d b v => Sys2Proof.Machine.execBankOvrWrite src d b v s
  | .scrubIntervalWrite src d v => Sys2Proof.Machine.execScrubIntervalWrite src d v s
  | .boxSubmit r => Sys2Proof.Machine.execBoxSubmit r s
  | .boxRequestStart => Sys2Proof.Machine.execBoxRequestStart s
  | .boxRequestDone cyc => Sys2Proof.Machine.execBoxRequestDone cyc s
  | .boxDisable src => Sys2Proof.Machine.execBoxDisable src s
  | .kvOpen r => Sys2Proof.Machine.execKvOpen r s
  | .kvAppend r => Sys2Proof.Machine.execKvAppend r s
  | .kvRelease r => Sys2Proof.Machine.execKvRelease r s
  | .kvRollback r => Sys2Proof.Machine.execKvRollback r s
  | .kvWorkStart d => Sys2Proof.Machine.execKvWorkStart d s
  | .appendCommit c => Sys2Proof.Machine.execAppendCommit c s
  | .kvMirrorFail c => Sys2Proof.Machine.execKvMirrorFail c s
  | .kvcDisable src d => Sys2Proof.Machine.execKvcDisable src d s
  | .lendWindowStart d c now => Sys2Proof.Machine.execLendWindowStart d c now s
  | .switchComplete g => Sys2Proof.Machine.execSwitchComplete g s
  | .lendWindowEnd d c now => Sys2Proof.Machine.execLendWindowEnd d c now s
  | .lendWindowCloseEarly d c => Sys2Proof.Machine.execLendWindowCloseEarly d c s
  | .bivouacRequest src p => Sys2Proof.Machine.execBivouacRequest src p s
  | .bivouacClear src p => Sys2Proof.Machine.execBivouacClear src p s
  | .parkingComplete p => Sys2Proof.Machine.execParkingComplete p s
  | .releasedSetReceived x => Sys2Proof.Machine.execReleasedSetReceived x s
  | .releasedSetTimeout x now => Sys2Proof.Machine.execReleasedSetTimeout x now s
  | .dmaArm src n ch => Sys2Proof.Machine.execDmaArm src n ch s
  | .dmaTake n ch => Sys2Proof.Machine.execDmaTake n ch s
  | .dmaChainFetchDone n ch => Sys2Proof.Machine.execDmaChainFetchDone n ch s
  | .dmaFetchWrite src n ch lo => Sys2Proof.Machine.execDmaFetchWrite src n ch lo s
  | .dmaGo src n ch => Sys2Proof.Machine.execDmaGo src n ch s
  | .dmaMove n ch env => Sys2Proof.Machine.execDmaMove n ch env s
  | .dmaFill n ch env => Sys2Proof.Machine.execDmaFill n ch env s
  | .dmaCompare n ch env => Sys2Proof.Machine.execDmaCompare n ch env s
  | .dmaComparePat n ch env => Sys2Proof.Machine.execDmaComparePat n ch env s
  | .dmaDescriptorComplete n ch => Sys2Proof.Machine.execDmaDescriptorComplete n ch s
  | .dmaDisable src n ch => Sys2Proof.Machine.execDmaDisable src n ch s
  | .windowCtlWrite src w v => Sys2Proof.Machine.execWindowCtlWrite src w v s
  | .regulatedRequestEntry src tag prio isRead now => Sys2Proof.Machine.execRegulatedRequestEntry src tag prio isRead now s
  | .regulatedReadResponse src tag now => Sys2Proof.Machine.execRegulatedReadResponse src tag now s
  | .regBudgetWrite src p v => Sys2Proof.Machine.execRegBudgetWrite src p v s
  | .dramSchedule u now blocked thr => Sys2Proof.Machine.execDramSchedule u now blocked thr s
  | .bankIdlePrecharge u b now => Sys2Proof.Machine.execBankIdlePrecharge u b now s
  | .refresh u b burst thr => Sys2Proof.Machine.execRefresh u b burst thr s
  | .mr4Read c hot => Sys2Proof.Machine.execMr4Read c hot s
  | .rowTrackerClear => Sys2Proof.Machine.execRowTrackerClear s
  | .throttleExpire c port now => Sys2Proof.Machine.execThrottleExpire c port now s
  | .patrolScrub c => Sys2Proof.Machine.execPatrolScrub c s
  | .ddrFcTargetWrite src v => Sys2Proof.Machine.execDdrFcTargetWrite src v s
  | .frequencyChange now ns => Sys2Proof.Machine.execFrequencyChange now ns s
  | .dqsOscillatorRead c delta => Sys2Proof.Machine.execDqsOscillatorRead c delta s
  | .pageRetirement now v => Sys2Proof.Machine.execPageRetirement now v s
  | .frameSyncRise o now => Sys2Proof.Machine.execFrameSyncRise o now s
  | .frameSyncFall o now => Sys2Proof.Machine.execFrameSyncFall o now s
  | .frameStart x fs fn => Sys2Proof.Machine.execFrameStart x fs fn s
  | .linePacket x dt ecc crcOk bytes => Sys2Proof.Machine.execLinePacket x dt ecc crcOk bytes s
  | .frameEnd x now => Sys2Proof.Machine.execFrameEnd x now s
  | .lidarDatagram x => Sys2Proof.Machine.execLidarDatagram x s
  | .lidarRef x now => Sys2Proof.Machine.execLidarRef x now s
  | .bandAnnounce x => Sys2Proof.Machine.execBandAnnounce x s
  | .finalAnnounce x now => Sys2Proof.Machine.execFinalAnnounce x now s
  | .ingressDeadline now => Sys2Proof.Machine.execIngressDeadline now s
  | .contextDisable x => Sys2Proof.Machine.execContextDisable x s
  | .contextEnable x => Sys2Proof.Machine.execContextEnable x s
  | .spiStepTransferDone k data => Sys2Proof.Machine.execSpiStepTransferDone k data s
  | .icuEvent src => Sys2Proof.Machine.execIcuEvent src s
  | .icuClaim src u => Sys2Proof.Machine.execIcuClaim src u s
  | .icuComplete src u n => Sys2Proof.Machine.execIcuComplete src u n s
  | .icuMsg v => Sys2Proof.Machine.execIcuMsg v s
  | .ethFrameReceive m at_ f => Sys2Proof.Machine.execEthFrameReceive m at_ f s
  | .ethTailWrite src m r t => Sys2Proof.Machine.execEthTailWrite src m r t s
  | .ethFrameLaunch m now => Sys2Proof.Machine.execEthFrameLaunch m now s
  | .ethFrameSent m now => Sys2Proof.Machine.execEthFrameSent m now s
  | .ethDisable src m => Sys2Proof.Machine.execEthDisable src m s
  | .canFrameReceive k at_ idw flags len data err => Sys2Proof.Machine.execCanFrameReceive k at_ idw flags len data err s
  | .canTailWrite src k r t => Sys2Proof.Machine.execCanTailWrite src k r t s
  | .canFrameLaunch k now => Sys2Proof.Machine.execCanFrameLaunch k now s
  | .canFrameSent k now sof outcome => Sys2Proof.Machine.execCanFrameSent k now sof outcome s
  | .canBusOff k => Sys2Proof.Machine.execCanBusOff k s
  | .canBusOffRecovery k => Sys2Proof.Machine.execCanBusOffRecovery k s
  | .canDisable src k => Sys2Proof.Machine.execCanDisable src k s
  | .spiGo src k w now => Sys2Proof.Machine.execSpiGo src k w now s
  | .spiHeldStart k => Sys2Proof.Machine.execSpiHeldStart k s
  | .spiTransferDone k data => Sys2Proof.Machine.execSpiTransferDone k data s
  | .i2cGo src k w => Sys2Proof.Machine.execI2cGo src k w s
  | .i2cCommandEnd k result nack data => Sys2Proof.Machine.execI2cCommandEnd k result nack data s
  | .i2cTimeout k => Sys2Proof.Machine.execI2cTimeout k s
  | .pcieLinkEvent up gen width => Sys2Proof.Machine.execPcieLinkEvent up gen width s
  | .pcieOutboundTimeout src tag => Sys2Proof.Machine.execPcieOutboundTimeout src tag s
  | .pcieCfgWrite src v => Sys2Proof.Machine.execPcieCfgWrite src v s
  | .pcieCfgRead src => Sys2Proof.Machine.execPcieCfgRead src s
  | .pcieCfgCompletion result data => Sys2Proof.Machine.execPcieCfgCompletion result data s
  | .pcieMsixTrigger src v enabled => Sys2Proof.Machine.execPcieMsixTrigger src v enabled s
  | .pcieInboundRequest write bar addr len data tag now => Sys2Proof.Machine.execPcieInboundRequest write bar addr len data tag now s
  | .pcieDisable src => Sys2Proof.Machine.execPcieDisable src s
  | .fusCommit src => Sys2Proof.Machine.execFusCommit src s
  | .egoWheelFrame => Sys2Proof.Machine.execEgoWheelFrame s
  | .egoPose => Sys2Proof.Machine.execEgoPose s
  | .calSolve => Sys2Proof.Machine.execCalSolve s
  | .contributorAnnounce c => Sys2Proof.Machine.execContributorAnnounce c s
  | .fusionRunStart now => Sys2Proof.Machine.execFusionRunStart now s
  | .fusionIssue => Sys2Proof.Machine.execFusionIssue s
  | .fusionDisable src => Sys2Proof.Machine.execFusionDisable src s
  | .trvCommit src => Sys2Proof.Machine.execTrvCommit src s
  | .mapCommit src => Sys2Proof.Machine.execMapCommit src s
  | .mapLoadDone => Sys2Proof.Machine.execMapLoadDone s
  | .trvHoldWrite src v => Sys2Proof.Machine.execTrvHoldWrite src v s
  | .layerCopy l => Sys2Proof.Machine.execLayerCopy l s
  | .traverseRunStart now => Sys2Proof.Machine.execTraverseRunStart now s
  | .traverseOutDeadline now => Sys2Proof.Machine.execTraverseOutDeadline now s
  | .traverseIssue => Sys2Proof.Machine.execTraverseIssue s
  | .traverseDisable src => Sys2Proof.Machine.execTraverseDisable src s
  | .lockstepCheckpoint x => Sys2Proof.Machine.execLockstepCheckpoint x s
  | .lockstepMismatch x one => Sys2Proof.Machine.execLockstepMismatch x one s
  | .anchorWatchdog x => Sys2Proof.Machine.execAnchorWatchdog x s
  | .anchorSelfReset x cause => Sys2Proof.Machine.execAnchorSelfReset x cause s
  | .crossLinkFrame x now good => Sys2Proof.Machine.execCrossLinkFrame x now good s
  | .heartbeatSend x => Sys2Proof.Machine.execHeartbeatSend x s
  | .crossLinkLoss x now => Sys2Proof.Machine.execCrossLinkLoss x now s
  | .forwarderDeliver => Sys2Proof.Machine.execForwarderDeliver s
  | .taskReport src t => Sys2Proof.Machine.execTaskReport src t s
  | .deadlineCheck x t now => Sys2Proof.Machine.execDeadlineCheck x t now s
  | .spotterStart x now residue => Sys2Proof.Machine.execSpotterStart x now residue s
  | .spotterCompare x now => Sys2Proof.Machine.execSpotterCompare x now s
  | .trajectoryDone src p => Sys2Proof.Machine.execTrajectoryDone src p s
  | .belayFrame x now => Sys2Proof.Machine.execBelayFrame x now s
  | .statusFrame x now => Sys2Proof.Machine.execStatusFrame x now s
  | .anchorSramScrub x bad => Sys2Proof.Machine.execAnchorSramScrub x bad s
  | .anchorBoot x seedOk storeOk wrapped idBad now => Sys2Proof.Machine.execAnchorBoot x seedOk storeOk wrapped idBad now s
  | .iodReleaseStage2 sync badLinks trained cal now readOk => Sys2Proof.Machine.execIodReleaseStage2 sync badLinks trained cal now readOk s
  | .fltPartRaise src p => Sys2Proof.Machine.execFltPartRaise src p s
  | .jobFault p => Sys2Proof.Machine.execJobFault p s
  | .jobRestartInPitch p => Sys2Proof.Machine.execJobRestartInPitch p s
  | .readmit src d pass => Sys2Proof.Machine.execReadmit src d pass s
  | .allRst src => Sys2Proof.Machine.execAllRst src s
  | .unhold src p => Sys2Proof.Machine.execUnhold src p s
  | .fltShareWrite src p hi v => Sys2Proof.Machine.execFltShareWrite src p hi v s
  | .sliceStart d c k now => Sys2Proof.Machine.execSliceStart d c k now s
  | .sliceCheckpoint d now => Sys2Proof.Machine.execSliceCheckpoint d now s
  | .sliceEnd d now pass => Sys2Proof.Machine.execSliceEnd d now pass s
  | .selfTestWindowEnd now => Sys2Proof.Machine.execSelfTestWindowEnd now s
  | .managementWatchdog => Sys2Proof.Machine.execManagementWatchdog s
  | .quoteGo src => Sys2Proof.Machine.execQuoteGo src s
  | .quoteDone now => Sys2Proof.Machine.execQuoteDone now s
  | .storeWriteRetry x ok => Sys2Proof.Machine.execStoreWriteRetry x ok s
  | .debugExpiry now => Sys2Proof.Machine.execDebugExpiry now s
  | .referenceStable k now => Sys2Proof.Machine.execReferenceStable k now s
  | .pllLock d k => Sys2Proof.Machine.execPllLock d k s
  | .clockSourceFail k now => Sys2Proof.Machine.execClockSourceFail k now s
  | .ptReqWrite src d c v => Sys2Proof.Machine.execPtReqWrite src d c v s
  | .ptSetWrite src w => Sys2Proof.Machine.execPtSetWrite src w s
  | .supplyWarning r mv fallAt now => Sys2Proof.Machine.execSupplyWarning r mv fallAt now s
  | .supplyRestoreTimer r now => Sys2Proof.Machine.execSupplyRestoreTimer r now s
  | .supplyReset r mv now => Sys2Proof.Machine.execSupplyReset r mv now s
  | .pwrVminWrite src r => Sys2Proof.Machine.execPwrVminWrite src r s
  | .sysRstN now => Sys2Proof.Machine.execSysRstN now s
  | .anchorResetPin x now => Sys2Proof.Machine.execAnchorResetPin x now s
  | .powerOn => Sys2Proof.Machine.execPowerOn s
  | .thermalSample now p10 tin ts pred => Sys2Proof.Machine.execThermalSample now p10 tin ts pred s
  | .flowPulse now => Sys2Proof.Machine.execFlowPulse now s
  | .flowTimeout now => Sys2Proof.Machine.execFlowTimeout now s
  | .thermalTrip d now => Sys2Proof.Machine.execThermalTrip d now s
  | .thermalTripClear d now => Sys2Proof.Machine.execThermalTripClear d now s
  | .thermalLimitWrite src which v => Sys2Proof.Machine.execThermalLimitWrite src which v s
  | .boundWindowEnd a => Sys2Proof.Machine.execBoundWindowEnd a s
  | .uartCharacter c => Sys2Proof.Machine.execUartCharacter c s
  | .monHelp now => Sys2Proof.Machine.execMonHelp now s
  | .monBaud now => Sys2Proof.Machine.execMonBaud now s
  | .monChal now => Sys2Proof.Machine.execMonChal now s
  | .monUnlock b now => Sys2Proof.Machine.execMonUnlock b now s
  | .monLock now => Sys2Proof.Machine.execMonLock now s
  | .monPeek ext now => Sys2Proof.Machine.execMonPeek ext now s
  | .monDump ext now => Sys2Proof.Machine.execMonDump ext now s
  | .monTopo now => Sys2Proof.Machine.execMonTopo now s
  | .monPstat now => Sys2Proof.Machine.execMonPstat now s
  | .monLog now => Sys2Proof.Machine.execMonLog now s
  | .traceShow now => Sys2Proof.Machine.execTraceShow now s
  | .monPoke ext now => Sys2Proof.Machine.execMonPoke ext now s
  | .partPark now => Sys2Proof.Machine.execPartPark now s
  | .partWake now => Sys2Proof.Machine.execPartWake now s
  | .partRestart now => Sys2Proof.Machine.execPartRestart now s
  | .traceStart now => Sys2Proof.Machine.execTraceStart now s
  | .traceStop now => Sys2Proof.Machine.execTraceStop now s
  | .monSlot b now => Sys2Proof.Machine.execMonSlot b now s
  | .registerWrite r now => Sys2Proof.Machine.execRegisterWrite r now s
  | .registerReadLo r now => Sys2Proof.Machine.execRegisterReadLo r now s
  | .supplyRestore r mv now => Sys2Proof.Machine.execSupplyRestore r mv now s
  | .sysRstNRelease now => Sys2Proof.Machine.execSysRstNRelease now s
  | .csiSyncChange p sync => Sys2Proof.Machine.execCsiSyncChange p sync s
  | .ethLinkChange m up => Sys2Proof.Machine.execEthLinkChange m up s
  | .egoWheelTimeout now => Sys2Proof.Machine.execEgoWheelTimeout now s
  | .kvRequestEnd c => Sys2Proof.Machine.execKvRequestEnd c s
  | .clusterWakeDone d c => Sys2Proof.Machine.execClusterWakeDone d c s

end Sys2Proof.Machine
end

