-- ==== Sys2Proof/Machine/Idle.lean ====
section
/-! DEFINITION. The idle step: what happens while no command waits. DESIGN CHOICE (notes/assumptions): one nanosecond of
the reference passes. -/
namespace Sys2Proof.Machine

/-- Device time, in units of 2^-40 ns, after one nanosecond of the reference: corrected by the signed trim (R35). -/
def timeUnits (s : State) : Nat :=
  (((s.time * 2 ^ 40 + s.timeFrac + 2 ^ 40 : Nat) : Int) + toSigned 32 (rd s PCH_TRIM)).toNat

/-- One nanosecond of the reference (R35). -/
def idleAct : Act := fun s => [.time (timeUnits s / 2 ^ 40), .timeFrac (timeUnits s % 2 ^ 40)]

/-- The state after an idle step. -/
def idle (s : State) : State := runAct idleAct s

end Sys2Proof.Machine
end

