-- ==== Sys2Proof/Machine/Step.lean ====
section
/-! DEFINITION. One step: the command at the front of the queue is performed on the state with the queue's rest. -/
namespace Sys2Proof.Machine

/-- The state whose queue is what follows the front command. -/
def State.withPending (s : State) (q : List Instr) : State := { s with pending := q }

/-- One step of the block. On an empty queue the block idles: device time runs on by one nanosecond (`idle`; DESIGN
CHOICE, notes/assumptions). -/
def step (s : State) : Host.Outcome State Fault Refusal :=
  match s.pending with
  | c :: q => exec c (s.withPending q)
  | [] => .next (idle s)

/-- The state with the command that a word spells put at the front of the queue; unchanged where the word spells none. -/
def State.withFetchWord (s : State) (nbits w : Nat) : State :=
  match decodeTableWord nbits w with
  | some c => s.withPending (c :: s.pending)
  | none => s

end Sys2Proof.Machine
end

