-- ==== Sys2Proof/WellFormed.lean ====
section
/-! DEFINITION. Which commands are well formed: the units that a command names exist. R19 to R26, R91 (dies, cores, masters),
R109 (threads and their registers), R125 (engines), R163 (banks), R246 (partitions), R315 (channels), R340 (contexts). A
meaning is total: an ill-formed command names nothing of the machine, and what it does there is no claim of the model. -/
namespace Sys2Proof

/-- A node and one of its DMA channels: 16 on each compute die, 32 on the I/O die. -/
def chOk (n ch : Nat) : Bool := decide (n < 8 ∧ ch < 16 ∨ n = 8 ∧ ch < 32)

/-- A node and one of its rope ports: four on each compute die, 20 on the I/O die. -/
def portOk (n p : Nat) : Bool := decide (n < 8 ∧ p < 4 ∨ n = 8 ∧ p < 20)

/-- The master exists. -/
def Master.ok : Master → Bool
  | .core g => decide (g < 256)
  | .dma n ch => chOk n ch
  | .kvc d => decide (d < 8)
  | .app c => decide (c < 16)
  | .anchor x => decide (x < 2)
  | .peer d u => decide (d < 8 ∧ u < 64)
  | .eth m => decide (m < 4)
  | .can k => decide (k < 6)
  | .ingress => true
  | .fusion => true
  | .traverse => true
  | .box => true
  | .mgmt => true
  | .loader => true
  | .pcie => true
  | .cairn => true

/-- A request's source exists and its address has 48 bits (R24). -/
def Req.ok (r : Req) : Bool := r.src.ok && decide (r.addr + r.len ≤ 2 ^ 48)

/-- The part of the machine exists. -/
def Block.ok : Block → Bool
  | .rope n p => portOk n p
  | .box => true
  | .kvc d => decide (d < 8)
  | .dma n ch => chOk n ch
  | .ctx x => decide (x < 24)
  | .eth m => decide (m < 4)
  | .can k => decide (k < 6)
  | .pcie => true
  | .fusion => true
  | .traverse => true

/-- A command names only units that exist. -/
def Instr.wf : Instr → Bool
  | .pitchTick _ _ => true
  | .stepTick k _ => decide (k < 64)
  | .computeTickApply d _ => decide (d < 8)
  | .anchorSidebandTick x _ => decide (x < 2)
  | .tickFault x _ => decide (x < 2)
  | .peerTick i _ _ => decide (i < 2)
  | .peerLost _ => true
  | .timeSyncMessage m _ _ => decide (m < 4)
  | .holdover => true
  | .pchTrimWrite src _ => src.ok
  | .guardStart _ => true
  | .coreArrive g => decide (g < 256)
  | .barrierComplete p _ _ => decide (p < 16)
  | .submit => true
  | .cancel _ => true
  | .confirm _ _ => true
  | .writeSlot => true
  | .slotWriteDone => true
  | .bundleReady src p k => decide (p < 16) && decide (k < 256) && src.ok
  | .bundleHashDone p k => decide (p < 16) && decide (k < 256)
  | .segmentCopyDone p _ => decide (p < 16)
  | .partialVerifyDone => true
  | .partialPrepareDone => true
  | .superviseAck x => decide (x < 2)
  | .partialArm _ => true
  | .flitReceive n p seqNo _ _ => portOk n p && decide (seqNo < 256)
  | .linkRetryRequest n p => portOk n p
  | .linkDown n p _ => portOk n p
  | .routeSwitch d t => decide (d < 8) && decide (t < 64)
  | .transactionTimeout src _ => src.ok
  | .memoryResponse src _ _ _ => src.ok
  | .rplDisable src n p => portOk n p && src.ok
  | .drainDone b => b.ok
  | .drainTimeout b => b.ok
  | .readReq r _ => r.ok
  | .writeReq r _ => r.ok
  | .atomicReturning r _ => r.ok
  | .atomicNonReturning r _ => r.ok
  | .fillReq r _ => r.ok
  | .copyReq r _ => r.ok
  | .readWin r _ => r.ok
  | .writeWin r _ => r.ok
  | .watchReq r _ => r.ok
  | .correctedWriteBack => true
  | .scrubRead d => decide (d < 8)
  | .scalarInstruction g t _ rd ra _ _ => decide (g < 256) && decide (t < 64) && decide (rd < 32) && decide (ra < 32)
  | .vectorInstruction g t vi => decide (g < 256) && decide (t < 64) && decide (vi.va < 56 ∧ vi.vb < 56 ∧ vi.vc < 56 ∧ vi.vd < 56)
  | .blockEncode g t _ vd _ _ _ => decide (g < 256) && decide (t < 64) && decide (vd < 56)
  | .blockDecode g t _ va _ _ _ => decide (g < 256) && decide (t < 64) && decide (va < 56)
  | .loadInstr g t _ width _ _ => decide (g < 256) && decide (t < 64) && decide (width = 1 ∨ width = 2 ∨ width = 4 ∨ width = 8 ∨ width = 64)
  | .storeInstr g t _ width _ _ => decide (g < 256) && decide (t < 64) && decide (width = 1 ∨ width = 2 ∨ width = 4 ∨ width = 8 ∨ width = 64)
  | .gatherInstr g t vd rb _ vo => decide (g < 256) && decide (t < 64) && decide (vd < 56) && decide (rb < 32) && decide (vo < 56)
  | .scatterInstr g t vs rb _ vo => decide (g < 256) && decide (t < 64) && decide (vs < 56) && decide (rb < 32) && decide (vo < 56)
  | .atomicInstruction g t _ _ width rd rb _ rv rc => decide (g < 256) && decide (t < 64) && decide (rd < 32) && decide (rb < 32) && decide (rv < 32) && decide (rc < 32) && decide (width = 4 ∨ width = 8)
  | .spawn g t t2 re ra rd => decide (g < 256) && decide (t < 64) && decide (t2 < 64) && decide (re < 32) && decide (ra < 32) && decide (rd < 32)
  | .halt g t => decide (g < 256) && decide (t < 64)
  | .waitWord g t rb _ pitch count _ rd rres => decide (g < 256) && decide (t < 64) && decide (rb < 32) && decide (rd < 32) && decide (rres < 32) && decide (pitch < 65536) && decide (count < 65536)
  | .waite g t e _ => decide (g < 256) && decide (t < 64) && decide (e < 8)
  | .signalInstr g t rb _ inc status => decide (g < 256) && decide (t < 64) && decide (rb < 32) && decide (1 ≤ inc ∧ inc < 256) && decide (status < 256)
  | .fenceInstr g t m => decide (g < 256) && decide (t < 64) && decide (m < 8)
  | .tensorIssue g t e rt _ => decide (g < 256) && decide (t < 64) && decide (e < 8) && decide (rt < 32)
  | .watchValueDelivered g => decide (g < 256)
  | .waitPoll g t => decide (g < 256) && decide (t < 64)
  | .waitTimeout g t => decide (g < 256) && decide (t < 64)
  | .mma g e => decide (g < 256) && decide (e < 8)
  | .mmaSp g e => decide (g < 256) && decide (e < 8)
  | .accCvt g e => decide (g < 256) && decide (e < 8)
  | .accClr g e => decide (g < 256) && decide (e < 8)
  | .engineOpFinish g e => decide (g < 256) && decide (e < 8)
  | .coreClockGate g => decide (g < 256)
  | .bankPhaseStart d p k _ => decide (d < 8) && decide (p < 16) && decide (k < 4)
  | .bankDark d b _ => decide (d < 8) && decide (b < 64)
  | .bankWakeDone d b => decide (d < 8) && decide (b < 64)
  | .bankOvrWrite src d b _ => decide (d < 8) && decide (b < 64) && src.ok
  | .scrubIntervalWrite src d _ => decide (d < 8) && src.ok
  | .boxSubmit r => r.ok
  | .boxRequestStart => true
  | .boxRequestDone _ => true
  | .boxDisable src => src.ok
  | .kvOpen r => r.ok
  | .kvAppend r => r.ok
  | .kvRelease r => r.ok
  | .kvRollback r => r.ok
  | .kvWorkStart d => decide (d < 8)
  | .appendCommit c => decide (c < 16)
  | .kvMirrorFail c => decide (c < 16)
  | .kvcDisable src d => decide (d < 8) && src.ok
  | .lendWindowStart d c _ => decide (d < 8) && decide (c < 4)
  | .switchComplete g => decide (g < 256)
  | .lendWindowEnd d c _ => decide (d < 8) && decide (c < 4)
  | .lendWindowCloseEarly d c => decide (d < 8) && decide (c < 4)
  | .bivouacRequest src p => decide (p < 16) && src.ok
  | .bivouacClear src p => decide (p < 16) && src.ok
  | .parkingComplete p => decide (p < 16)
  | .releasedSetReceived x => decide (x < 2)
  | .releasedSetTimeout x _ => decide (x < 2)
  | .dmaArm src n ch => chOk n ch && src.ok
  | .dmaTake n ch => chOk n ch
  | .dmaChainFetchDone n ch => chOk n ch
  | .dmaFetchWrite src n ch _ => chOk n ch && src.ok
  | .dmaGo src n ch => chOk n ch && src.ok
  | .dmaMove n ch _ => chOk n ch
  | .dmaFill n ch _ => chOk n ch
  | .dmaCompare n ch _ => chOk n ch
  | .dmaComparePat n ch _ => chOk n ch
  | .dmaDescriptorComplete n ch => chOk n ch
  | .dmaDisable src n ch => chOk n ch && src.ok
  | .windowCtlWrite src w _ => decide (w < 64) && src.ok
  | .regulatedRequestEntry src _ _ _ _ => src.ok
  | .regulatedReadResponse src _ _ => src.ok
  | .regBudgetWrite src p _ => decide (p < 18) && src.ok
  | .dramSchedule u _ _ _ => decide (u < 24)
  | .bankIdlePrecharge u b _ => decide (u < 24) && decide (b < 32)
  | .refresh u b _ _ => decide (u < 24) && decide (b < 32)
  | .mr4Read c _ => decide (c < 12)
  | .rowTrackerClear => true
  | .throttleExpire c port _ => decide (c < 12) && decide (port < 18)
  | .patrolScrub c => decide (c < 12)
  | .ddrFcTargetWrite src _ => src.ok
  | .frequencyChange _ _ => true
  | .dqsOscillatorRead c _ => decide (c < 12)
  | .pageRetirement _ _ => true
  | .frameSyncRise o _ => decide (o < 16)
  | .frameSyncFall o _ => decide (o < 16)
  | .frameStart x _ _ => decide (x < 24)
  | .linePacket x _ _ _ _ => decide (x < 24)
  | .frameEnd x _ => decide (x < 24)
  | .lidarDatagram x => decide (x < 24)
  | .lidarRef x _ => decide (x < 24)
  | .bandAnnounce x => decide (x < 24)
  | .finalAnnounce x _ => decide (x < 24)
  | .ingressDeadline _ => true
  | .contextDisable x => decide (x < 24)
  | .contextEnable x => decide (x < 24)
  | .spiStepTransferDone k _ => decide (k < 4)
  | .icuEvent src => decide (src < 256)
  | .icuClaim src u => decide (u < 32) && src.ok
  | .icuComplete src u n => decide (u < 32) && decide (n < 256) && src.ok
  | .icuMsg _ => true
  | .ethFrameReceive m _ _ => decide (m < 4)
  | .ethTailWrite src m r _ => decide (m < 4) && decide (r < 3) && src.ok
  | .ethFrameLaunch m _ => decide (m < 4)
  | .ethFrameSent m _ => decide (m < 4)
  | .ethDisable src m => decide (m < 4) && src.ok
  | .canFrameReceive k _ _ _ len _ _ => decide (k < 6) && decide (len < 65)
  | .canTailWrite src k r _ => decide (k < 6) && decide (r < 3) && src.ok
  | .canFrameLaunch k _ => decide (k < 6)
  | .canFrameSent k _ _ _ => decide (k < 6)
  | .canBusOff k => decide (k < 6)
  | .canBusOffRecovery k => decide (k < 6)
  | .canDisable src k => decide (k < 6) && src.ok
  | .spiGo src k _ _ => decide (k < 4) && src.ok
  | .spiHeldStart k => decide (k < 4)
  | .spiTransferDone k _ => decide (k < 4)
  | .i2cGo src k _ => decide (k < 2) && src.ok
  | .i2cCommandEnd k _ _ _ => decide (k < 2)
  | .i2cTimeout k => decide (k < 2)
  | .pcieLinkEvent _ _ _ => true
  | .pcieOutboundTimeout src _ => src.ok
  | .pcieCfgWrite src _ => src.ok
  | .pcieCfgRead src => src.ok
  | .pcieCfgCompletion _ _ => true
  | .pcieMsixTrigger src _ _ => src.ok
  | .pcieInboundRequest _ bar _ _ _ _ _ => decide (bar = 0 ∨ bar = 2)
  | .pcieDisable src => src.ok
  | .fusCommit src => src.ok
  | .egoWheelFrame => true
  | .egoPose => true
  | .calSolve => true
  | .contributorAnnounce c => decide (c < 32)
  | .fusionRunStart _ => true
  | .fusionIssue => true
  | .fusionDisable src => src.ok
  | .trvCommit src => src.ok
  | .mapCommit src => src.ok
  | .mapLoadDone => true
  | .trvHoldWrite src _ => src.ok
  | .layerCopy l => decide (l < 8)
  | .traverseRunStart _ => true
  | .traverseOutDeadline _ => true
  | .traverseIssue => true
  | .traverseDisable src => src.ok
  | .lockstepCheckpoint x => decide (x < 2)
  | .lockstepMismatch x _ => decide (x < 2)
  | .anchorWatchdog x => decide (x < 2)
  | .anchorSelfReset x _ => decide (x < 2)
  | .crossLinkFrame x _ _ => decide (x < 2)
  | .heartbeatSend x => decide (x < 2)
  | .crossLinkLoss x _ => decide (x < 2)
  | .forwarderDeliver => true
  | .taskReport src t => decide (t < 64) && src.ok
  | .deadlineCheck x t _ => decide (x < 2) && decide (t < 64)
  | .spotterStart x _ _ => decide (x < 2)
  | .spotterCompare x _ => decide (x < 2)
  | .trajectoryDone src p => decide (p < 16) && src.ok
  | .belayFrame x _ => decide (x < 2)
  | .statusFrame x _ => decide (x < 2)
  | .anchorSramScrub x _ => decide (x < 2)
  | .anchorBoot x _ _ _ _ _ => decide (x < 2)
  | .iodReleaseStage2 _ _ _ _ _ _ => true
  | .fltPartRaise src p => decide (p < 16) && src.ok
  | .jobFault p => decide (p < 16)
  | .jobRestartInPitch p => decide (p < 16)
  | .readmit src d _ => decide (d < 8) && src.ok
  | .allRst src => src.ok
  | .unhold src p => decide (p < 16) && src.ok
  | .fltShareWrite src p hi _ => decide (p < 16) && decide (hi < 2) && src.ok
  | .sliceStart d c k _ => decide (d < 8) && decide (c < 4) && decide (k < 8)
  | .sliceCheckpoint d _ => decide (d < 8)
  | .sliceEnd d _ _ => decide (d < 8)
  | .selfTestWindowEnd _ => true
  | .managementWatchdog => true
  | .quoteGo src => src.ok
  | .quoteDone _ => true
  | .storeWriteRetry x _ => decide (x < 2)
  | .debugExpiry _ => true
  | .referenceStable k _ => decide (k < 16)
  | .pllLock d k => decide (d < 8) && decide (k < 3)
  | .clockSourceFail k _ => decide (k < 16)
  | .ptReqWrite src d c _ => decide (d < 8) && decide (c < 4) && src.ok
  | .ptSetWrite src _ => src.ok
  | .supplyWarning r _ _ _ => decide (r < 11)
  | .supplyRestoreTimer r _ => decide (r < 11)
  | .supplyReset r _ _ => decide (r < 11)
  | .pwrVminWrite src r => decide (r < 9) && src.ok
  | .sysRstN _ => true
  | .anchorResetPin x _ => decide (x < 2)
  | .powerOn => true
  | .thermalSample _ _ _ _ _ => true
  | .flowPulse _ => true
  | .flowTimeout _ => true
  | .thermalTrip d _ => decide (d < 9)
  | .thermalTripClear d _ => decide (d < 9)
  | .thermalLimitWrite src which _ => decide (which < 3) && src.ok
  | .boundWindowEnd _ => true
  | .uartCharacter c => decide (c < 256)
  | .monHelp _ => true
  | .monBaud _ => true
  | .monChal _ => true
  | .monUnlock _ _ => true
  | .monLock _ => true
  | .monPeek _ _ => true
  | .monDump _ _ => true
  | .monTopo _ => true
  | .monPstat _ => true
  | .monLog _ => true
  | .traceShow _ => true
  | .monPoke _ _ => true
  | .partPark _ => true
  | .partWake _ => true
  | .partRestart _ => true
  | .traceStart _ => true
  | .traceStop _ => true
  | .monSlot _ _ => true
  | .registerWrite r _ => r.ok
  | .registerReadLo r _ => r.ok
  | .supplyRestore r _ _ => decide (r < 11)
  | .sysRstNRelease _ => true
  | .csiSyncChange p _ => decide (p < 8)
  | .ethLinkChange m _ => decide (m < 4)
  | .egoWheelTimeout _ => true
  | .kvRequestEnd c => decide (c < 16)
  | .clusterWakeDone d c => decide (d < 8) && decide (c < 4)

end Sys2Proof
end

