-- ==== Sys2Proof/Safety.lean ====
section
/-! DEFINITION. What claims about runs are stated with: canonical memories and tables, what a command leaves as it was, and
steps that go on. -/
namespace Sys2Proof.Machine

/-- A memory in canonical form: addresses strictly rising, no byte listed that reads as an unlisted one. -/
abbrev Memory.wf (m : List (Nat × Byte)) : Bool := tabWf memDefault m

/-- Every memory of the machine is in canonical form: the global memory, the anchor SRAMs, the boot flashes and the
trajectory area. -/
def State.memOk (s : State) : Bool :=
  Memory.wf s.mem && Memory.wf s.sram && Memory.wf s.flash && Memory.wf s.trajArea

/-- The register file is in canonical form: no register is listed at its reset value. -/
def State.regsOk (s : State) : Bool := tabWf regReset s.regs

/-- Every other table of the state is in canonical form. -/
def State.tabsOk (s : State) : Bool :=
  tabWf hiNone s.hiLatch && tabWf zeroNat s.diePitch && tabWf portDefault s.ports &&
  tabWf threadDefault s.threads && tabWf coreDefault s.cores && tabWf engineDefault s.engines &&
  tabWf noWatch s.watches && tabWf noHeld s.bankHeld && tabWf zeroNat s.bankTarget &&
  tabWf zeroNat s.ecc && tabWf zeroNat s.lineEcc && tabWf zeroNat s.scrubPos &&
  tabWf kvDefault s.kvs && tabWf partDefault s.parts && tabWf dmaDefault s.dmas &&
  tabWf regPortDefault s.regPorts && tabWf subChDefault s.subchs && tabWf noTrack s.trackers &&
  tabWf zeroNat s.patrolLine && tabWf noTrn s.trn && tabWf zeroInt s.dqsAdj &&
  tabWf zeroNat s.idleAt && tabWf noTx s.ethTx && tabWf zeroNat s.ethHeadAt &&
  tabWf noTxq s.canTx && tabWf zeroNat s.msix && tabWf ancDefault s.ancs &&
  tabWf zeroNat s.spiStepBusy && tabWf noNats s.spiStepCfg && tabWf ctxDefault s.ctxs &&
  tabWf zeroNat s.fsyOmit && tabWf zeroNat s.fsyPulsed && tabWf fconDefault s.fcons &&
  tabWf noShadow s.shadow && tabWf tlayerDefault s.tlayers && tabWf hiNoneN s.unitLast &&
  tabWf railDefault s.rails && tabWf slotDefault s.slots && tabWf storeDefault s.stores &&
  tabWf idDefault s.ids

/-- Memories, registers and tables are in canonical form, so that equal contents are equal data. -/
def State.ok (s : State) : Bool := s.memOk && s.regsOk && s.tabsOk

/-- Every register outside `as` reads as before. -/
def regsExcept (as : List Nat) (s t : State) : Prop := ∀ a, a ∉ as → rd t a = rd s a

/-- Nothing but registers changed, and of these only the ones in `as`. -/
def onlyRegs (as : List Nat) (s t : State) : Prop := t = { s with regs := t.regs } ∧ regsExcept as s t

/-- Field `f` holds the low bits of `v`, and the other bits of its register are as before. -/
def fieldSet (f : Fld) (v : Nat) (s t : State) : Prop := rd t f.addr = putBits (rd s f.addr) f.hi f.lo v

/-- Field `f` was set to `v`, and nothing else changed. -/
def setsField (f : Fld) (v : Nat) (s t : State) : Prop := fieldSet f v s t ∧ onlyRegs [f.addr] s t

/-- The state with device time moved forward to `now`, if it lay before (R35). -/
def State.at_ (s : State) (now : Nat) : State := { s with time := max s.time now }

/-- The access was refused and counted, and recorded if it is the first since the count was read (R28); nothing else changed. -/
def refusedAt (m : Master) (a : Nat) (s t : State) : Prop :=
  t = { s with
    refusals := s.refusals + 1
    firstRefusal := if s.firstRefusal = none then some (a, m) else s.firstRefusal }

/-- The registers of the pitch (R57), which lie below every other control register, read as before. -/
def pitchRegsKept (s t : State) : Prop := ∀ a, a < 0x200000200000 → rd t a = rd s a

/-- Every byte of memory outside `[a, a + n)` reads as before. -/
def memExcept (a n : Nat) (s t : State) : Prop := ∀ b, b < a ∨ a + n ≤ b → byteAt t b = byteAt s b

end Sys2Proof.Machine
end

