-- ==== Sys2Proof/Certificates/Slice0/Obligations.lean ====
section
/-! DEFINITION. The statements about the XK50, command family by command family in the order of the spec's chapters. "Completes"
clauses name the conditions under which a command has its own effect, and the state it leaves. -/
open Sys2Proof hiding portOk
open Sys2Proof.Machine

/-! ### The machine -/

/-- A step takes the command at the front of the queue and performs it on the state with the queue's rest. -/
def Obligations.StepPerformsFrontCommand : Prop :=
  ∀ (c : Instr) (q : List Instr) (s : State), s.pending = c :: q → step s = exec c { s with pending := q }

/-- MODEL'S CHOICE (notes/assumptions/2): on an empty queue a step is one nanosecond of the reference, which device time
counts with the correction of PCH_TRIM in units of 2^-40 ns (R35); nothing else changes. -/
def Obligations.EmptyQueueRunsDeviceTime : Prop :=
  ∀ s : State, s.pending = [] → ∃ t, step s = .next t ∧
    t = { s with time := t.time, timeFrac := t.timeFrac } ∧
    (t.time * 2 ^ 40 + t.timeFrac : Nat) = (max 0 ((s.time * 2 ^ 40 + s.timeFrac + 2 ^ 40 : Nat) + toSigned 32 (rd s PCH_TRIM)) : Int) ∧
    t.timeFrac < 2 ^ 40

/-- Every command answers a next state from every state, leaves the queue's rest to the step, and changes nothing of what is
fitted (R1). -/
def Obligations.EveryCommandAnswersNextState : Prop :=
  ∀ (c : Instr) (s : State), ∃ t, exec c s = .next t ∧ t.pending = s.pending

/-- The state after reset is canonical, its queue empty, and every register holds its reset value. -/
def Obligations.ResetState : Prop :=
  State.reset.ok = true ∧ State.reset.pending = [] ∧ (∀ a, rd State.reset a = (regReset a).toNat) ∧
  getF State.reset PCH_PERIOD_PERIOD_NS = 33333333 ∧ flag State.reset PCH_CFG_RUN = false ∧
  getF State.reset PCH_TRIM_LIM_LIM_PPM = 250 ∧ (∀ a, byteAt State.reset a = 0)

/-- Every step keeps memories, registers and tables in canonical form, whatever state it starts from. -/
def Obligations.StepKeepsCanonicalForm : Prop :=
  ∀ s t : State, s.ok = true → step s = .next t → t.ok = true

/-! ### The pitch (spec/02_pitch.md) -/

/-- The state that a raised tick `m` leaves: its number, its time, RUNNING, an empty PCH_DONE and step 0 (R37, R39, R41). -/
def tickRaised (m : Nat) (s t : State) : Prop :=
  pitchNum t = m ∧ tickTime t = (s.n0 + m) * period t % 2 ^ 64 ∧ t.n0 = s.n0 ∧ t.ticked = true ∧
  flag t PCH_STATUS_RUNNING = true ∧ getF t PCH_DONE_DONE = 0 ∧ getF t PCH_STEP_STEP_IDX = 0

/-- What a tick leaves alone: flash, slots, replay-protected stores, rails, thermal policy, the DRAM channels. -/
def tickKept (s t : State) : Prop :=
  t.sram = s.sram ∧ t.trajArea = s.trajArea ∧ t.flash = s.flash ∧ t.slots = s.slots ∧ t.stores = s.stores ∧
  t.rails = s.rails ∧ t.thm = s.thm ∧ t.boot = s.boot ∧ t.subchs = s.subchs ∧ t.trackers = s.trackers ∧
  t.ethTx = s.ethTx ∧ t.canTx = s.canTx ∧ t.pcieOut = s.pcieOut ∧ t.tlayers = s.tlayers ∧ t.n0 = s.n0 ∧ t.nextTag = s.nextTag

/-- The tick due at `now`, no more than 1 µs after its due time, is raised by a part that raises its own ticks, and by a
follower on a tick of the port it listens to (R37, R39, R40, R45). -/
def Obligations.TickBeginsPitch : Prop :=
  (∀ (s : State) (now m : Nat) (bad : List Nat), s.ok = true → ownTicks s = true → flag s PCH_CFG_RUN = true →
    0 < period s → now / period s = s.n0 + m → (s.ticked = true → pitchNum s < m) → now % period s ≤ 1000 → now < 2 ^ 64 →
    ∃ t, exec (.pitchTick now bad) s = .next t ∧ tickRaised m s t ∧ tickKept s t) ∧
  (∀ (s : State) (p now m : Nat) (bad : List Nat), s.ok = true → getF s PCH_CFG_ROLE = 2 → peerPort s p = true →
    flag s PCH_CFG_RUN = true →
    0 < period s → now / period s = s.n0 + m → (s.ticked = true → pitchNum s < m) → now % period s ≤ 1000 → now < 2 ^ 64 →
    ∃ t, exec (.peerTick p now bad) s = .next t ∧ tickRaised m s t ∧ tickKept s t ∧ t.peerTickAt = now)

/-- Within a pitch: a step tick sets STEP_IDX and samples, a die applies the tick, the guard begins once, and a lost peer is
shown (R41 to R47). -/
def Obligations.EventsWithinPitch : Prop :=
  (∀ (s : State) (k now : Nat), s.ok = true → flag s PCH_CFG_RUN = true → s.ticked = true → getF s PCH_STEP_STEP_IDX < k →
    k < getF s PCH_STEP_STEP_CNT → tickTime s + k * 1000000 ≤ now →
    ∃ t, exec (.stepTick k now) s = .next t ∧ fieldSet PCH_STEP_STEP_IDX k s t ∧ regsExcept [PCH_STEP] s t ∧
      t.fus.posesDue = s.fus.posesDue ++ [(tickDue s (pitchNum s) + k * 1000000, pitchNum s, k)] ∧
      t = { s with regs := t.regs, time := max s.time now, out := t.out, spiStepBusy := t.spiStepBusy, fus := t.fus }) ∧
  (∀ (s : State) (d now : Nat), s.ok = true → d < 8 → s.ticked = true → dieRemoved s d = false → tickTime s ≤ now →
    ∃ t, exec (.computeTickApply d now) s = .next t ∧ get_diePitch t d = pitchNum s ∧ pitchRegsKept s t ∧
      t = { s with regs := t.regs, mem := t.mem, time := max s.time now, diePitch := t.diePitch,
                   bankTarget := t.bankTarget, ecc := t.ecc }) ∧
  (∀ (s : State) (now : Nat), s.ok = true → getF s PCH_CFG_ROLE = 2 → flag s PCH_CFG_RUN = true →
    max s.peerTickAt (rd64 s PCH_EPOCH) + period s + 50000 ≤ now →
    ∃ t, exec (.peerLost now) s = .next t ∧ setsField PCH_STATUS_PEER_LOST 1 (s.at_ now) t) ∧
  (∀ (s : State) (now : Nat), s.ok = true → flag s PCH_CFG_RUN = true → s.ticked = true → guardStart s ≤ now →
    now < tickTime s + period s → s.guardPitch ≠ some (pitchNum s) →
    ∃ t, exec (.guardStart now) s = .next t ∧ t.guardPitch = some (pitchNum s) ∧ pitchRegsKept s t ∧
      t = { s with
        regs := t.regs, mem := t.mem, time := t.time, freeCtr := t.freeCtr, guardPitch := t.guardPitch,
        resps := t.resps, txns := t.txns, threads := t.threads, cores := t.cores, engines := t.engines,
        held := t.held, watches := t.watches, watchMsgs := t.watchMsgs, bankTarget := t.bankTarget, ecc := t.ecc,
        lineEcc := t.lineEcc, wbPending := t.wbPending, refusals := t.refusals, firstRefusal := t.firstRefusal,
        boxQueue := t.boxQueue, boxRun := t.boxRun, kvs := t.kvs, parts := t.parts, dmas := t.dmas,
        errRing := t.errRing, errRingOvf := t.errRingOvf, dpol := t.dpol, faultMsgs := t.faultMsgs, thm := t.thm })

/-- The trim that a write of `v` leaves: limited to ± LIM_PPM × 10^-6 of the nominal rate (R35). -/
def trimLimited (s : State) (v : Nat) : Int :=
  let lim : Int := (getF s PCH_TRIM_LIM_LIM_PPM * 2 ^ 40 / 1000000 : Nat)
  max (-lim) (min lim (toSigned 32 v))

/-- Device time is disciplined through PCH_TRIM (R35, R36): a software master's write, limited; a synchronisation on the time
port moves the trim, or before RUN sets device time once, which leaves the anchor dies' own time as it was; a message on
another port does nothing; without a grandmaster HOLDOVER shows and the trim stays. A master without register writes is
refused (R28). -/
def Obligations.DeviceTimeDiscipline : Prop :=
  (∀ (s : State) (src : Master) (v : Nat), s.ok = true → swWriteOk src = true →
    ∃ t, exec (.pchTrimWrite src v) s = .next t ∧ rd t PCH_TRIM = ofSigned 32 (trimLimited s v) ∧ onlyRegs [PCH_TRIM] s t) ∧
  (∀ (s : State) (src : Master) (v : Nat), swWriteOk src = false →
    ∃ t, exec (.pchTrimWrite src v) s = .next t ∧ refusedAt src PCH_TRIM s t) ∧
  (∀ (s : State) (m t0 trim : Nat), m ≠ getF s PCH_CFG_TIME_PORT → exec (.timeSyncMessage m t0 trim) s = .next s) ∧
  (∀ (s : State) (m t0 trim : Nat), s.ok = true → m = getF s PCH_CFG_TIME_PORT → (flag s PCH_CFG_RUN = true ∨ s.timeSet = true) →
    ∃ t, exec (.timeSyncMessage m t0 trim) s = .next t ∧ rd t PCH_TRIM = ofSigned 32 (trimLimited s trim) ∧
      fieldSet PCH_STATUS_HOLDOVER 0 s t ∧ onlyRegs [PCH_TRIM, PCH_STATUS] s t) ∧
  (∀ (s : State) (m t0 trim : Nat), s.ok = true → m = getF s PCH_CFG_TIME_PORT → flag s PCH_CFG_RUN = false → s.timeSet = false →
    ∃ t, exec (.timeSyncMessage m t0 trim) s = .next t ∧ t.time = t0 ∧ t.timeSet = true ∧ fieldSet PCH_STATUS_HOLDOVER 0 s t ∧
      regsExcept [PCH_STATUS] s t ∧ (∀ x, x < 2 → ancTime t x = ancTime s x) ∧
      t = { s with regs := t.regs, time := t0, timeFrac := 0, timeSet := true, ancs := t.ancs, rails := t.rails, mon := t.mon }) ∧
  (∀ s : State, s.ok = true → ∃ t, exec .holdover s = .next t ∧ setsField PCH_STATUS_HOLDOVER 1 s t)

/-- Arrival and completion (R53, R55, R124): a core whose job has nothing left arrives, on a lent cluster the borrower's
arrival is kept beside the lender's, and the barrier of a partition completes once every core of its job has arrived. -/
def Obligations.BarrierCompletes : Prop :=
  (∀ (s : State) (g : Nat), s.ok = true → (get_cores s g).hasJob = true → canArrive s g = true →
    ¬((get_cores s g).bor = 1 ∧ (get_cores s g).part ≠ coreOwner s g) →
    ∃ t, exec (.coreArrive g) s = .next t ∧ setsField (CORE_STAT_ARRIVED g) 1 s t) ∧
  (∀ (s : State) (g : Nat), s.ok = true → (get_cores s g).hasJob = true → canArrive s g = true →
    (get_cores s g).bor = 1 → (get_cores s g).part ≠ coreOwner s g →
    ∃ t, exec (.coreArrive g) s = .next t ∧ get_cores t g = { get_cores s g with bor := 2 } ∧ t = { s with cores := t.cores } ∧
      (∀ h, h ≠ g → get_cores t h = get_cores s h)) ∧
  (∀ (s : State) (g : Nat), ((get_cores s g).hasJob && canArrive s g) = false → exec (.coreArrive g) s = .next s) ∧
  (∀ (s : State) (p now : Nat) (times : List (Nat × Nat)), s.ok = true → p < 16 → jobRuns s p = true →
    (∀ d ∈ diesOf s p, dieArrived s p d = true) →
    ∃ t, exec (.barrierComplete p times now) s = .next t ∧
      fieldSet PCH_DONE_DONE (putBit (getF s PCH_DONE_DONE) p true) s t ∧ (get_parts t p).jobDone = true ∧
      t = { s with regs := t.regs, time := max s.time now, parts := t.parts, flt := t.flt })

/-! ### Guarded registers, across the chapters (R8, R9, R28) -/

/-- A block that EN no longer enables: EN is 0, an enabled block drains, any other state stays, and nothing else changes (R104). -/
def drains (en st : Fld) (s t : State) : Prop :=
  fieldSet en 0 s t ∧ (getF s st = 1 → fieldSet st 2 s t) ∧ (getF s st ≠ 1 → rd t st.addr = rd s st.addr) ∧
  onlyRegs [en.addr, st.addr] s t

/-- The masters whose writes announce a bundle (R63). -/
def announces : Master → Bool
  | .app _ | .pcie => true
  | _ => false

/-- A command that writes a register is refused where its master may not write it: the access is counted, recorded if it is
the first, and nothing else changes (R28). -/
def Obligations.ForbiddenWritesRefused : Prop :=
  (∀ (s : State) (src : Master), swWriteOk src = false →
    (∀ n p, portOk n p = true → ∃ t, exec (.rplDisable src n p) s = .next t ∧ refusedAt src (RPL_CTL n p) s t) ∧
    (∀ d b v, ∃ t, exec (.bankOvrWrite src d b v) s = .next t ∧ refusedAt src (BNK_PWR d b) s t) ∧
    (∀ d v, ∃ t, exec (.scrubIntervalWrite src d v) s = .next t ∧ refusedAt src (BNK_SCRUB d) s t) ∧
    (∃ t, exec (.boxDisable src) s = .next t ∧ refusedAt src BOX_CTL s t) ∧
    (∀ d, ∃ t, exec (.kvcDisable src d) s = .next t ∧ refusedAt src (KVC_CTL d) s t) ∧
    (∀ p, ∃ t, exec (.bivouacRequest src p) s = .next t ∧ refusedAt src (PRT_BIV p) s t) ∧
    (∀ p, ∃ t, exec (.bivouacClear src p) s = .next t ∧ refusedAt src (PRT_BIV p) s t) ∧
    (∀ p v, ∃ t, exec (.regBudgetWrite src p v) s = .next t ∧ refusedAt src (REG_BUDGET p) s t) ∧
    (∀ v, ∃ t, exec (.ddrFcTargetWrite src v) s = .next t ∧ refusedAt src DDR_FC s t) ∧
    (∃ t, exec (.fusCommit src) s = .next t ∧ refusedAt src FUS_CTL s t) ∧
    (∃ t, exec (.fusionDisable src) s = .next t ∧ refusedAt src FUS_CTL s t) ∧
    (∃ t, exec (.trvCommit src) s = .next t ∧ refusedAt src TRV_CTL s t) ∧
    (∃ t, exec (.mapCommit src) s = .next t ∧ refusedAt src TRV_CTL s t) ∧
    (∃ t, exec (.traverseDisable src) s = .next t ∧ refusedAt src TRV_CTL s t) ∧
    (∀ d pass, ∃ t, exec (.readmit src d pass) s = .next t ∧ refusedAt src (FLT_DIE_CTL d) s t) ∧
    (∃ t, exec (.allRst src) s = .next t ∧ refusedAt src FLT_CTL s t) ∧
    (∀ p, ∃ t, exec (.unhold src p) s = .next t ∧ refusedAt src (FLT_PART_CTL p) s t) ∧
    (∀ p hi v, ∃ t, exec (.fltShareWrite src p hi v) s = .next t ∧ refusedAt src (FLT_SHARE p) s t) ∧
    (∀ r, ∃ t, exec (.pwrVminWrite src r) s = .next t ∧ refusedAt src (PWR_VMIN r) s t) ∧
    (∀ which v, ∃ t, exec (.thermalLimitWrite src which v) s = .next t ∧
      refusedAt src (if which = 0 then THM_LIM else THM_TGT) s t)) ∧
  (∀ (s : State) (src : Master), hostWriteOk src = false →
    (∀ u n, ∃ t, exec (.icuComplete src u n) s = .next t ∧ refusedAt src (ICU_CLAIM u) s t) ∧
    (∀ m, ∃ t, exec (.ethDisable src m) s = .next t ∧ refusedAt src (ETH_CTL m) s t) ∧
    (∀ k, ∃ t, exec (.canDisable src k) s = .next t ∧ refusedAt src (CAN_CTL k) s t) ∧
    (∀ k w now, ∃ t, exec (.spiGo src k w now) s = .next t ∧ refusedAt src (SPI_CMD k) s t) ∧
    (∀ k w, ∃ t, exec (.i2cGo src k w) s = .next t ∧ refusedAt src (I2C_CMD k) s t) ∧
    (∀ v, ∃ t, exec (.pcieCfgWrite src v) s = .next t ∧ refusedAt src PCIE_CFG_DATA s t) ∧
    (∀ v en, ∃ t, exec (.pcieMsixTrigger src v en) s = .next t ∧ refusedAt src PCIE_MSIX_TRIG s t) ∧
    (∃ t, exec (.pcieDisable src) s = .next t ∧ refusedAt src PCIE_CTL s t)) ∧
  (∀ (s : State) (src : Master) (n ch : Nat), dmaWriteOk s n ch src = false →
    (∃ t, exec (.dmaArm src n ch) s = .next t ∧ refusedAt src (DMA_CH_CTL n ch) s t) ∧
    (∃ t, exec (.dmaGo src n ch) s = .next t ∧ refusedAt src (DMA_CH_CTL n ch) s t) ∧
    (∃ t, exec (.dmaDisable src n ch) s = .next t ∧ refusedAt src (DMA_CH_CTL n ch) s t) ∧
    (∀ lo, ∃ t, exec (.dmaFetchWrite src n ch lo) s = .next t ∧ refusedAt src (DMA_CH_FETCH_LO n ch) s t)) ∧
  (∀ (s : State) (src : Master) (w : Nat) (v : Bool), winWriteOk s w src = false →
    ∃ t, exec (.windowCtlWrite src w v) s = .next t ∧ refusedAt src (DMA_WIN_CTL w) s t) ∧
  (∀ (s : State) (src : Master) (v : Nat), trvHoldOk s src = false →
    ∃ t, exec (.trvHoldWrite src v) s = .next t ∧ refusedAt src TRV_HOLD s t) ∧
  (∀ (s : State) (src : Master), quoteWriteOk src = false →
    ∃ t, exec (.quoteGo src) s = .next t ∧ refusedAt src SEC_Q_CTL s t) ∧
  (∀ (s : State) (src : Master) (p k : Nat), announces src = false →
    ∃ t, exec (.bundleReady src p k) s = .next t ∧ refusedAt src TOPO_BREADY s t)

/-- Clearing EN drains a port, the box stage, a cache manager, a DMA channel, a MAC, a CAN controller or the PCIe controller, and
leaves everything else as it was; a new context is enabled by EN alone (R104, R214, R237, R291, R359). -/
def Obligations.DisableDrains : Prop :=
  (∀ (s : State) (src : Master), s.ok = true → swWriteOk src = true →
    (∀ n p, portOk n p = true →
      ∃ t, exec (.rplDisable src n p) s = .next t ∧ drains (RPL_CTL_EN n p) (RPL_STAT_STATE n p) s t) ∧
    (∃ t, exec (.boxDisable src) s = .next t ∧ drains BOX_CTL_EN BOX_STAT_STATE s t) ∧
    (∀ d, d < 8 → ∃ t, exec (.kvcDisable src d) s = .next t ∧ drains (KVC_CTL_EN d) (KVC_STAT_STATE d) s t)) ∧
  (∀ (s : State) (src : Master), s.ok = true → hostWriteOk src = true →
    (∀ m, ∃ t, exec (.ethDisable src m) s = .next t ∧ drains (ETH_CTL_EN m) (ETH_STAT_STATE m) s t) ∧
    (∀ k, ∃ t, exec (.canDisable src k) s = .next t ∧ drains (CAN_CTL_EN k) (CAN_STAT_STATE k) s t) ∧
    (∃ t, exec (.pcieDisable src) s = .next t ∧ drains PCIE_CTL_EN PCIE_STAT_STATE s t)) ∧
  (∀ (s : State) (src : Master) (n ch : Nat), s.ok = true → dmaExists n ch = true → dmaWriteOk s n ch src = true →
    ∃ t, exec (.dmaDisable src n ch) s = .next t ∧ drains (DMA_CH_CTL_EN n ch) (DMA_CH_STAT_STATE n ch) s t) ∧
  (∀ (s : State) (x : Nat), s.ok = true → ctxOn s x = false →
    ∃ t, exec (.contextDisable x) s = .next t ∧ setsField (ING_CTX_CTL_EN x) 0 s t) ∧
  (∀ (s : State) (x : Nat), s.ok = true → x < 24 → ctxOn s x = true →
    ∃ t, exec (.contextDisable x) s = .next t ∧ fieldSet (ING_CTX_CTL_EN x) 0 s t ∧ fieldSet (ING_CTX_STAT_STATE x) 2 s t ∧
      rd t ING_STAT = putBit (rd s ING_STAT) x false ∧
      onlyRegs [ING_CTX_CTL x, ING_CTX_STAT x, ING_STAT] s t) ∧
  (∀ (s : State) (x : Nat), s.ok = true →
    ∃ t, exec (.contextEnable x) s = .next t ∧ setsField (ING_CTX_CTL_EN x) 1 s t)

/-- A unit that is disabled drains too: FUSION leaves a run that has not begun, TRAVERSE leaves a map it was loading (R407, R428). -/
def Obligations.UnitsDisable : Prop :=
  (∀ (s : State) (src : Master), s.ok = true → swWriteOk src = true →
    ∃ t, exec (.fusionDisable src) s = .next t ∧ flag t FUS_CTL_EN = false ∧
      getF t FUS_STAT_STATE = (if getF s FUS_STAT_STATE = 1 then 2 else getF s FUS_STAT_STATE) ∧
      getF t FUS_STAT_RUN = (if getF s FUS_STAT_STATE = 1 ∧ getF s FUS_STAT_RUN = 1 then 0 else getF s FUS_STAT_RUN) ∧
      onlyRegs [FUS_CTL, FUS_STAT] s t) ∧
  (∀ (s : State) (src : Master), s.ok = true → swWriteOk src = true →
    ∃ t, exec (.traverseDisable src) s = .next t ∧ flag t TRV_CTL_EN = false ∧
      getF t TRV_STAT_STATE = (if getF s TRV_STAT_STATE = 1 then 2 else getF s TRV_STAT_STATE) ∧
      getF t TRV_STAT_RUN = (if getF s TRV_STAT_RUN = 1 then 0 else getF s TRV_STAT_RUN) ∧
      (s.trv.mapFrom.isSome = true → flag t TRV_STAT_MAP_BUSY = false) ∧
      t.trv = { s.trv with mapFrom := none } ∧ regsExcept [TRV_CTL, TRV_STAT] s t ∧
      t = { s with regs := t.regs, trv := t.trv })

/-- A draining block ends: where its accepted work is done, or at the drain's timeout, it becomes OFF, or ON where EN has been
set again meanwhile (R104). -/
def Obligations.DrainEnds : Prop :=
  (∀ (s : State) (n p : Nat), s.ok = true → portOk n p = true → getF s (RPL_STAT_STATE n p) = 2 → s.unitRst = [] →
    (rplIdle s n p = true →
      ∃ t, exec (.drainDone (.rope n p)) s = .next t ∧
        setsField (RPL_STAT_STATE n p) (if flag s (RPL_CTL_EN n p) then 1 else 0) s t) ∧
    (∃ t, exec (.drainTimeout (.rope n p)) s = .next t ∧
      setsField (RPL_STAT_STATE n p) (if flag s (RPL_CTL_EN n p) then 1 else 0) s t)) ∧
  (∀ (s : State) (b : Block), draining s b = true → drained s b = false → exec (.drainDone b) s = .next s) ∧
  (∀ (s : State) (b : Block), draining s b = false →
    exec (.drainDone b) s = .next s ∧ exec (.drainTimeout b) s = .next s)

/-- Writes that set one field of one register and nothing else (R186, R294, R383, R412, R529, R474, R478). -/
def Obligations.FieldWrites : Prop :=
  (∀ (s : State) (src : Master), s.ok = true → swWriteOk src = true →
    (∀ d b v, d < 8 → b < 64 →
      ∃ t, exec (.bankOvrWrite src d b v) s = .next t ∧ setsField (BNK_PWR_OVR d b) (if v then 1 else 0) s t) ∧
    (∀ d v, d < 8 → ∃ t, exec (.scrubIntervalWrite src d v) s = .next t ∧
      setsField (BNK_SCRUB_INTERVAL d) (max (v % 2 ^ 16) (getF s (BNK_SCRUB_MIN_MIN d))) s t) ∧
    (∃ t, exec (.fusCommit src) s = .next t ∧ setsField FUS_CTL_COMMIT 1 s t) ∧
    (∃ t, exec (.trvCommit src) s = .next t ∧ setsField TRV_CTL_COMMIT 1 s t) ∧
    (∀ r, r < 9 → ∃ t, exec (.pwrVminWrite src r) s = .next t ∧ setsField (PWR_VMIN_MV r) 0xFFF s t) ∧
    (∃ t, exec (.allRst src) s = .next t ∧ t = { s with flt := { s.flt with allDue := true } }) ∧
    (∀ p, p < 16 → ∃ t, exec (.unhold src p) s = .next t ∧ fieldSet (PRT_BIV_HOLD p) 0 s t ∧
      fieldSet (FLT_PART_STAT_HELD p) 0 s t ∧ onlyRegs [PRT_BIV p, FLT_PART_STAT p] s t)) ∧
  (∀ (s : State) (src : Master) (w : Nat) (v : Bool), s.ok = true → w < 64 → winWriteOk s w src = true →
    ∃ t, exec (.windowCtlWrite src w v) s = .next t ∧ setsField (DMA_WIN_CTL_OPEN w) (if v then 1 else 0) s t) ∧
  (∀ (s : State) (src : Master) (v : Nat), s.ok = true → trvHoldOk s src = true →
    ∃ t, exec (.trvHoldWrite src v) s = .next t ∧ getF t TRV_HOLD_PATH = bits v 9 0 ∧ getF t TRV_HOLD_VALID = bits v 15 15 ∧
      onlyRegs [TRV_HOLD] s t) ∧
  (∀ (s : State) (src : Master) (u n : Nat), s.ok = true → hostWriteOk src = true → n < 256 →
    ∃ t, exec (.icuComplete src u n) s = .next t ∧ setsField (ICU_SRC_CFG_INSRV n) 0 s t)

/-- Limits that a write cannot leave (R304, R331, R480, R536): a budget stays within its limits, a power or temperature target
within its range, a share byte is at least 64, and a DRAM point that may not be chosen only sets IGN. -/
def Obligations.LimitedWrites : Prop :=
  (∀ (s : State) (src : Master), s.ok = true → swWriteOk src = true →
    (∀ p v, p < 18 → anchorPort p = false → getF s (REG_BLIM_MIN p) ≤ getF s (REG_BLIM_MAX p) →
      ∃ t, exec (.regBudgetWrite src p v) s = .next t ∧
        getF t (REG_BUDGET_BUDGET p) = min (max (v % 2 ^ 10) (getF s (REG_BLIM_MIN p))) (getF s (REG_BLIM_MAX p)) ∧
        t = { s with regs := t.regs }) ∧
    (∀ p v, p < 18 → anchorPort p = true → exec (.regBudgetWrite src p v) s = .next s) ∧
    (∀ v, ∃ t, exec (.thermalLimitWrite src 0 v) s = .next t ∧
      setsField THM_LIM_CAP_USER_W (min (max (v % 2 ^ 10) 60) (pLim s)) s t) ∧
    (∀ v, ∃ t, exec (.thermalLimitWrite src 1 v) s = .next t ∧
      setsField THM_TGT_TJ_TGT (min (max (v % 2 ^ 12) 600) 850) s t) ∧
    (∀ v, ∃ t, exec (.thermalLimitWrite src 2 v) s = .next t ∧ setsField THM_TGT_HYST_W (max (v % 2 ^ 8) 1) s t) ∧
    (∀ p hi v, p < 16 →
      ∃ t, exec (.fltShareWrite src p hi v) s = .next t ∧ onlyRegs [FLT_SHARE p + 4 * (hi % 2)] s t ∧
        (∀ i, i < 4 → bits (rd t (FLT_SHARE p + 4 * (hi % 2))) (8 * i + 7) (8 * i) =
          (if bits v (8 * i + 7) (8 * i) < 64 then 64 else bits v (8 * i + 7) (8 * i)))) ∧
    (∀ v, targetOk s src v = false →
      ∃ t, exec (.ddrFcTargetWrite src v) s = .next t ∧ setsField DDR_FC_IGN 1 s t) ∧
    (∀ v, targetOk s src v = true →
      ∃ t, exec (.ddrFcTargetWrite src v) s = .next t ∧ getF t DDR_FC_TARGET = v ∧
        getF t DDR_FC_BUSY = (if v = getF s DDR_PT_CUR then getF s DDR_FC_BUSY else 1) ∧ regsExcept [DDR_FC] s t ∧
        t = { s with regs := t.regs, dpol := t.dpol }))

/-! ### The topo image (spec/03_topo_image.md) -/

/-- What TOPO_ERR shows after an error: code, section, VALID, and whether the image was partial (R85). -/
def topoErrIs (code sect part : Nat) (t : State) : Prop :=
  getF t TOPO_ERR_CODE = code % 2 ^ 8 ∧ getF t TOPO_ERR_SECTION = sect % 2 ^ 8 ∧ getF t TOPO_ERR_VALID = 1 ∧
  getF t TOPO_ERR_PARTIAL = part

/-- SUBMIT takes the staged image, or is rejected with 0x0E while a partial is in progress; CANCEL ends a partial with 0x10, but
not in the guard before its commit (R82, "The topo image"). -/
def Obligations.SubmitAndCancel : Prop :=
  (∀ s : State, s.ok = true → getF s TOPO_STATUS_PART_STATE ≠ 0 →
    ∃ t, exec .submit s = .next t ∧ topoErrIs 0x0E 0xFF 1 t ∧ rd t TOPO_REJ_CNT = satAdd 32 (rd s TOPO_REJ_CNT) 1 ∧
      onlyRegs [TOPO_ERR, TOPO_REJ_CNT] s t) ∧
  (∀ s : State, s.ok = true → getF s TOPO_STATUS_PART_STATE = 0 →
    ∃ t, exec .submit s = .next t ∧ getF t TOPO_STATUS_PART_STATE = 1 ∧
      getF t TOPO_STATUS_PART_ID = hPart (staged s) % 16 ∧ getF t TOPO_DEFER_DEFER_CNT = 0 ∧
      t.load = { s.load with topo := some { part := hPart (staged s) % 16, img := staged s } } ∧
      regsExcept [TOPO_STATUS, TOPO_DEFER] s t ∧ t = { s with regs := t.regs, load := t.load }) ∧
  (∀ (s : State) (now : Nat), getF s TOPO_STATUS_PART_STATE = 3 → inGuard s now = true →
    exec (.cancel now) s = .next (s.at_ now)) ∧
  (∀ (s : State) (now : Nat), s.ok = true → getF s TOPO_STATUS_PART_STATE ≠ 0 →
    ¬(getF s TOPO_STATUS_PART_STATE = 3 ∧ inGuard s now = true) →
    ∃ t, exec (.cancel now) s = .next t ∧ topoErrIs 0x10 0xFF 1 t ∧ getF t TOPO_STATUS_PART_STATE = 0 ∧
      t.load = { s.load with topo := none } ∧ regsExcept [TOPO_ERR, TOPO_STATUS] s t ∧
      t = { s with regs := t.regs, time := max s.time now, load := t.load })

/-- Slots (R71, R73): WRITE_SLOT checks the staged package and writes the slot that is not running, one job at a time; the slot
state is written last, TRIAL and not tried; CONFIRM makes the running slot confirmed on both anchor dies. -/
def Obligations.SlotsWrittenAndConfirmed : Prop :=
  (∀ s : State, s.ok = true → s.load.slotJob = none →
    ∃ t, exec .writeSlot s = .next t ∧
      t.load = { s.load with slotJob := some ⟨1 - getF s TOPO_STATUS_RUN_SLOT,
          (packageCheck s (staged s)).1, (packageCheck s (staged s)).2⟩ } ∧
      ((packageCheck s (staged s)).1 = 0 → (∀ x, x < 2 → get_slots t (2 * x + (1 - getF s TOPO_STATUS_RUN_SLOT)) = {}) ∧
        (∀ x, x < 2 → get_slots t (2 * x + getF s TOPO_STATUS_RUN_SLOT) = get_slots s (2 * x + getF s TOPO_STATUS_RUN_SLOT)) ∧
        regsExcept [TOPO_STATUS] s t) ∧
      ((packageCheck s (staged s)).1 ≠ 0 → topoErrIs (packageCheck s (staged s)).1 (packageCheck s (staged s)).2 0 t ∧
        t.slots = s.slots ∧ t.flash = s.flash ∧ regsExcept [TOPO_ERR, TOPO_REJ_CNT] s t) ∧
      t = { s with
        regs := t.regs, sram := t.sram, flash := t.flash, slots := t.slots, load := t.load }) ∧
  (∀ s : State, s.load.slotJob.isSome = true → exec .writeSlot s = .next s) ∧
  (∀ (s : State) (j : SlotJob), s.ok = true → s.load.slotJob = some j → j.code = 0 → j.slot < 2 →
    ∃ t, exec .slotWriteDone s = .next t ∧ t.load = { s.load with slotJob := none } ∧
      (∀ x, x < 2 → get_slots t (2 * x + j.slot) = ⟨1, false⟩) ∧ regsExcept [TOPO_STATUS] s t ∧
      t = { s with regs := t.regs, slots := t.slots, load := t.load }) ∧
  (∀ (s : State) (j : SlotJob), s.load.slotJob = some j → j.code ≠ 0 →
    exec .slotWriteDone s = .next { s with load := { s.load with slotJob := none } }) ∧
  (∀ (s : State) (okA okB : Bool), s.ok = true → (slotSt s 0 (getF s TOPO_STATUS_RUN_SLOT)).st ≠ 0 →
    ∃ t, exec (.confirm okA okB) s = .next t ∧
      (∀ x, x < 2 → get_slots t (2 * x + getF s TOPO_STATUS_RUN_SLOT) =
        { get_slots s (2 * x + getF s TOPO_STATUS_RUN_SLOT) with st := 2 }) ∧
      t = { s with regs := t.regs, slots := t.slots, stores := t.stores }) ∧
  (∀ (s : State) (okA okB : Bool), (slotSt s 0 (getF s TOPO_STATUS_RUN_SLOT)).st = 0 →
    exec (.confirm okA okB) s = .next s)

/-- Bundles (R63, R65): an announced bundle waits for its digest; one that does not match, or whose header fails, is refused and
shown in TOPO_BERR; one that passes is known by its model and cluster mask. -/
def Obligations.BundlesJudged : Prop :=
  (∀ (s : State) (src : Master) (p k : Nat) (b : Bundle), announces src = true → bundleAt s p k = some b →
    (b.st = 0 ∨ b.st = 3) →
    exec (.bundleReady src p k) s = .next { s with load := { s.load with
      bundles := s.load.bundles.map (fun b => if b.part == p && b.idx == k then { b with st := 1 } else b) } }) ∧
  (∀ (s : State) (p k : Nat) (b : Bundle), s.ok = true → bundleAt s p k = some b → b.st = 1 →
    sha256 (bundleBytes s b) ≠ b.digest →
    ∃ t, exec (.bundleHashDone p k) s = .next t ∧ getF t TOPO_BERR_PART = p % 16 ∧ getF t TOPO_BERR_BUNDLE = k % 16 ∧
      getF t TOPO_BERR_CAUSE = 0 ∧ getF t TOPO_BERR_VALID = 1 ∧ regsExcept [TOPO_BERR] s t ∧
      t = { s with regs := t.regs, load := { s.load with
        bundles := s.load.bundles.map (fun b => if b.part == p && b.idx == k then { b with st := 3 } else b) } }) ∧
  (∀ (s : State) (p k : Nat) (b : Bundle), bundleAt s p k = some b → b.st = 1 → sha256 (bundleBytes s b) = b.digest →
    bundleOk s running p (bundleBytes s b) = true →
    exec (.bundleHashDone p k) s = .next { s with load := { s.load with
      bundles := s.load.bundles.map (fun c => if c.part == p && c.idx == k then
        { c with st := 2, model := num (bundleBytes s b) 6 1, mask := num (bundleBytes s b) 8 4 } else c) } })

/-- A loading partition whose bundles have all passed is loaded once its copies end, or shows NOFIT where its models do not fit
(R65, R76). -/
def Obligations.SegmentsCopied : Prop :=
  (∀ (s : State) (p now : Nat), s.ok = true → p < 16 → partState s p = 1 → (get_parts s p).loaded = false →
    (∀ b ∈ s.load.bundles, b.part = p → b.st = 2) → noFit s p = true →
    ∃ t, exec (.segmentCopyDone p now) s = .next t ∧ setsField (FLT_PART_STAT_NOFIT p) 1 (s.at_ now) t) ∧
  (∀ (s : State) (p now : Nat), s.ok = true → p < 16 → partState s p = 1 → (get_parts s p).loaded = false →
    (∀ b ∈ s.load.bundles, b.part = p → b.st = 2) → noFit s p = false → copyFails s p = false →
    ∃ t, exec (.segmentCopyDone p now) s = .next t ∧ (get_parts t p).loaded = true ∧ pitchRegsKept s t ∧
      t = { s with
        regs := t.regs, mem := t.mem, time := t.time, threads := t.threads, cores := t.cores, engines := t.engines,
        watches := t.watches, watchMsgs := t.watchMsgs, ecc := t.ecc, lineEcc := t.lineEcc, wbPending := t.wbPending,
        refusals := t.refusals, firstRefusal := t.firstRefusal, parts := t.parts, errRing := t.errRing,
        errRingOvf := t.errRingOvf, jobFaults := t.jobFaults, progs := t.progs })

/-- A partial topo (R67, R69, R79, R80): verified by both anchor dies, prepared, acknowledged, and armed in the guard. One that
fails a check is rejected with the check's code and ended. -/
def Obligations.PartialTopo : Prop :=
  (∀ (s : State) (x : Partial), s.ok = true → s.load.topo = some x → getF s TOPO_STATUS_PART_STATE = 1 →
    ∃ t, exec .partialVerifyDone s = .next t ∧
      (verifyBoth s .part x.img = 0 → setsField TOPO_STATUS_PART_STATE 2 s t) ∧
      (verifyBoth s .part x.img ≠ 0 → topoErrIs (verifyBoth s .part x.img) 0xFF 1 t ∧ getF t TOPO_STATUS_PART_STATE = 0 ∧
        t.load = { s.load with topo := none }) ∧ pitchRegsKept s t ∧
      t = { s with regs := t.regs, sram := t.sram, load := t.load }) ∧
  (∀ (s : State) (x : Partial), s.ok = true → s.load.topo = some x → getF s TOPO_STATUS_PART_STATE = 2 → x.prepared = false →
    (prepareChecks s ⟨some x.part, x.img⟩).1 = 0 →
    ∃ t, exec .partialPrepareDone s = .next t ∧ getF t TOPO_STATUS_PART_STATE = 2 ∧ pitchRegsKept s t ∧
      t.load.topo.map (fun y => (y.part, y.img, y.acks, y.prepared)) = some (x.part, x.img, x.acks, true) ∧
      t = { s with
        regs := t.regs, mem := t.mem, sram := t.sram, cores := t.cores, engines := t.engines, watches := t.watches,
        watchMsgs := t.watchMsgs, ecc := t.ecc, lineEcc := t.lineEcc, wbPending := t.wbPending,
        refusals := t.refusals, firstRefusal := t.firstRefusal, errRing := t.errRing, errRingOvf := t.errRingOvf,
        load := t.load }) ∧
  (∀ (s : State) (x : Nat) (y : Partial), s.load.topo = some y → x < 2 → y.prepared = true → ancRuns s x = true →
    exec (.superviseAck x) s = .next { s with load := { s.load with topo := some { y with acks := putBits y.acks x x 1 } } }) ∧
  (∀ (s : State) (now : Nat) (y : Partial), s.ok = true → s.load.topo = some y → y.prepared = true → y.acks = 3 →
    getF s TOPO_STATUS_PART_STATE = 2 → inGuard s now = true →
    ∃ t, exec (.partialArm now) s = .next t ∧ fieldSet TOPO_STATUS_PART_STATE 3 s t ∧ regsExcept [TOPO_STATUS] s t ∧
      t = { s with regs := t.regs, time := max s.time now,
                   load := { s.load with topo := some { y with guardPitch := some (pitchNum s) } } })

/-! ### Rope links and the package fabric (spec/04_rope_fabric.md) -/

/-- Flits (R90, R102): a flit in sequence with at most one bad symbol a word is taken, one that cannot be corrected starts a retry
from its number, one out of sequence is dropped, and the resend ends the retry. -/
def Obligations.FlitsInSequence : Prop :=
  (∀ (s : State) (n p q : Nat), s.ok = true → portOk n p = true → portUp s n p = true →
    (get_ports s (n * 32 + p)).discarding = false → q = (get_ports s (n * 32 + p)).rxSeq → (get_ports s (n * 32 + p)).runs = [] →
    ∃ t, exec (.flitReceive n p q true []) s = .next t ∧
      get_ports t (n * 32 + p) = { get_ports s (n * 32 + p) with rxSeq := (q + 1) % 256 } ∧ t = { s with ports := t.ports }) ∧
  (∀ (s : State) (n p q : Nat) (bad : List Nat), s.ok = true → portOk n p = true → portUp s n p = true →
    (get_ports s (n * 32 + p)).discarding = false → q = (get_ports s (n * 32 + p)).rxSeq → flitGood bad = false →
    ∃ t, exec (.flitReceive n p q true bad) s = .next t ∧
      get_ports t (n * 32 + p) =
        { get_ports s (n * 32 + p) with discarding := true, retrySeq := q, retryAsked := true, runs := [] } ∧
      t = { s with ports := t.ports }) ∧
  (∀ (s : State) (n p q : Nat) (bad : List Nat), portOk n p = true → portUp s n p = true →
    (get_ports s (n * 32 + p)).discarding = false → q ≠ (get_ports s (n * 32 + p)).rxSeq →
    exec (.flitReceive n p q true bad) s = .next s) ∧
  (∀ (s : State) (n p : Nat) (e : Nat × Nat), s.ok = true → otherEnd n p = some e → portUp s n p = true →
    (get_ports s (e.1 * 32 + e.2)).discarding = true → (get_ports s (e.1 * 32 + e.2)).retryAsked = true →
    e.1 * 32 + e.2 ≠ n * 32 + p →
    ∃ t, exec (.linkRetryRequest n p) s = .next t ∧
      get_ports t (n * 32 + p) = { get_ports s (n * 32 + p) with txSeq := (get_ports s (e.1 * 32 + e.2)).retrySeq } ∧
      get_ports t (e.1 * 32 + e.2) = { get_ports s (e.1 * 32 + e.2) with retryAsked := false } ∧
      t = { s with ports := t.ports })

/-- Links and routes (R101, R103): a link that goes down shows it; a route that is down moves on to its alternate, or to none,
once nothing is outstanding on it. -/
def Obligations.LinksAndRoutes : Prop :=
  (∀ (s : State) (p cause : Nat), s.ok = true → (p = 16 ∨ p = 17) → flag s (RPL_STAT_DOWN 8 p) = false →
    1 ≤ cause → cause ≤ 4 →
    ∃ t, exec (.linkDown 8 p cause) s = .next t ∧ fieldSet (RPL_STAT_DOWN 8 p) 1 s t ∧
      getF t (RPL_DOWN_CAUSE 8 p) = cause ∧ getF t (RPL_DOWN_PITCH 8 p) = pitch16 s ∧
      regsExcept [RPL_STAT 8 p, RPL_DOWN 8 p] s t ∧ get_ports t (8 * 32 + p) = {} ∧
      t = { s with regs := t.regs, lateTags := t.lateTags, ports := t.ports, fwd := t.fwd }) ∧
  (∀ (s : State) (n p cause : Nat), portOk n p = true → flag s (RPL_STAT_DOWN n p) = true →
    exec (.linkDown n p cause) s = .next s) ∧
  (∀ (s : State) (d t : Nat), s.ok = true → d < 8 → t < 8 → d ≠ t → routeUp s d t (routeOf s d t) = false →
    outstanding s d t = false → getF s (RTE_DEST_ACTIVE d t) = 0 → routeUp s d t (getF s (RTE_DEST_ALTERNATE d t)) = true →
    ∃ u, exec (.routeSwitch d t) s = .next u ∧ fieldSet (RTE_DEST_ACTIVE d t) 1 s u ∧
      rd u (RTE_FAIL d) = putBit (rd s (RTE_FAIL d)) t true ∧ onlyRegs [RTE_DEST d t, RTE_FAIL d] s u) ∧
  (∀ (s : State) (d t : Nat), s.ok = true → d < 8 → t < 8 → d ≠ t → routeUp s d t (routeOf s d t) = false →
    outstanding s d t = false → (getF s (RTE_DEST_ACTIVE d t) ≠ 0 ∨ routeUp s d t (getF s (RTE_DEST_ALTERNATE d t)) = false) →
    ∃ u, exec (.routeSwitch d t) s = .next u ∧ setsField (RTE_DEST_ACTIVE d t) 2 s u)

/-- Responses (R101): the held response leaves the fabric for its source; after a timeout the requester has FABRIC_ERR, the tag
awaits its late response, and that response is discarded and counted. -/
def Obligations.ResponsesAndTimeouts : Prop :=
  (∀ (s : State) (c tag status : Nat) (data : List Byte) (q : Resp), s.ok = true →
    s.resps.find? (fun r => r.src == .app c && r.tag == tag) = some q → q.src = .app c → q.tag = tag →
    s.lateTags.contains (.app c, tag) = false →
    s.regReqs.find? (fun r => r.src == .app c && r.tag == tag) = none → returnsData q.op = true →
    exec (.memoryResponse (.app c) tag status data) s =
      .next { s with resps := s.resps.erase q, lastRead := some (.app c, q.addr, leNat q.data) }) ∧
  (∀ (s : State) (g tag status : Nat) (data : List Byte) (q : Resp), s.ok = true → g < 256 →
    s.resps.find? (fun r => r.src == .core g && r.tag == tag) = some q → s.lateTags.contains (.core g, tag) = true →
    ∃ t, exec (.memoryResponse (.core g) tag status data) s = .next t ∧
      rd t (RTE_LATE_CNT (g / 32)) = satAdd 32 (rd s (RTE_LATE_CNT (g / 32))) 1 ∧ regsExcept [RTE_LATE_CNT (g / 32)] s t ∧
      t = { s with regs := t.regs, resps := s.resps.erase q, lateTags := s.lateTags.erase (.core g, tag) }) ∧
  (∀ (s : State) (c tag : Nat), s.ok = true → waitsAnywhere s (.app c) tag = true → s.lateTags.contains (.app c, tag) = false →
    s.regReqs.find? (fun r => r.src == .app c && r.tag == tag) = none →
    exec (.transactionTimeout (.app c) tag) s = .next { s with lateTags := s.lateTags ++ [(.app c, tag)] }) ∧
  (∀ (s : State) (src : Master) (tag : Nat), isCore src = false → (waitsAnywhere s src tag && !s.lateTags.contains (src, tag)) = false →
    exec (.transactionTimeout src tag) s = .next s)

/-! ### Requests at the memories (spec/04_rope_fabric.md, spec/08_scratchpad.md) -/

/-- An address in a scratchpad memory: a bank, a core memory or an operand buffer. -/
def scratchpad (s : State) (a : Nat) : Bool :=
  match locOf s a with
  | .bank _ _ | .coreMem _ _ | .opBuf _ _ _ => true
  | _ => false

/-- A request that reaches its destination: a core's is the transaction it has outstanding, and its path carries flits. -/
abbrev arrives (s : State) (op : ReqOp) (r : Req) : Prop :=
  reqOf s op r = r ∧ reqLive s op r = true ∧ (isCore r.src = false ∨ pathFlows s r.src r.addr = true)

/-- A request that its scratchpad memory performs at once: the memory is not waking, no engine operation holds the access,
and no earlier request of the source to the block waits (R100, R128, R177). -/
abbrev servedAt (s : State) (op : ReqOp) (r : Req) : Prop :=
  arrives s op r ∧ scratchpad s r.addr = true ∧ wakeFor s op r = none ∧ heldByEngine s op r = false ∧ behind s.held r = false

/-- What serving a scratchpad request may change, beside device time. -/
def servedFrame (s t : State) (now : Nat) : Prop :=
  t = { s with
    regs := t.regs, mem := t.mem, time := max s.time now, resps := t.resps, cores := t.cores, engines := t.engines,
    watches := t.watches, watchMsgs := t.watchMsgs, ecc := t.ecc, wbPending := t.wbPending, refusals := t.refusals,
    firstRefusal := t.firstRefusal } ∧ pitchRegsKept s t

/-- Reads and writes of a scratchpad (R94, R166, R286): a read answers its bytes, or zeros with the failing status, and changes
no memory; a write that the memory can perform stores its bytes and nothing else; each is answered with its status. -/
def Obligations.ScratchpadReadsAndWrites : Prop :=
  (∀ (s : State) (r : Req) (now : Nat), s.ok = true → servedAt s .read r →
    ∃ t, exec (.readReq r now) s = .next t ∧ t.mem = s.mem ∧ servedFrame s t now ∧
      t.resps = s.resps ++ [⟨r.src, r.tag, .read, readStatus s r.addr r.len,
        if readStatus s r.addr r.len = 0 then bytesAt s r.addr r.len else List.replicate r.len 0, r.addr⟩]) ∧
  (∀ (s : State) (r : Req) (now : Nat), s.ok = true → servedAt s .write r → writeStatus s r.addr r.data.length = 0 →
    ∃ t, exec (.writeReq r now) s = .next t ∧ bytesAt t r.addr r.data.length = r.data ∧
      memExcept (phys s r.addr) r.data.length s t ∧ servedFrame s t now ∧
      t.resps = s.resps ++ [⟨r.src, r.tag, .write, 0, [], r.addr⟩]) ∧
  (∀ (s : State) (r : Req) (now : Nat), s.ok = true → servedAt s .write r → mapped s r.addr r.data.length = true →
    locDark s r.addr = true →
    ∃ t, exec (.writeReq r now) s = .next t ∧ t.mem = s.mem ∧ servedFrame s t now ∧
      t.resps = s.resps ++ [⟨r.src, r.tag, .write, 2, [], r.addr⟩]) ∧
  (∀ (s : State) (r : Req) (now k : Nat), s.ok = true → arrives s .write r → scratchpad s r.addr = true →
    wakeFor s .write r = some k →
    ∃ t, exec (.writeReq r now) s = .next t ∧ get_bankHeld t k = get_bankHeld s k ++ [(.write, r)] ∧ t.mem = s.mem ∧
      t = { s with regs := t.regs, time := max s.time now, bankHeld := t.bankHeld }) ∧
  (∀ (s : State) (r : Req) (now : Nat), s.ok = true → arrives s .read r → scratchpad s r.addr = true →
    wakeFor s .read r = none → (heldByEngine s .read r || behind s.held r) = true →
    exec (.readReq r now) s = .next { s.at_ now with held := s.held ++ [(.read, r)] })

/-- Atomics at a scratchpad (R112, R114): an atomic leaves the new value, and answers the old one in its returning form. -/
def Obligations.AtomicsPerformed : Prop :=
  (∀ (s : State) (r : Req) (now : Nat), s.ok = true → servedAt s .atomicR r → atomicOk r = true → readStatus s r.addr r.width = 0 →
    ∃ t, exec (.atomicReturning r now) s = .next t ∧
      bytesAt t r.addr r.width = leBytes r.width (atomicNew r.kind (8 * r.width) (leNat (bytesAt s r.addr r.width))
        (leNat (r.data.take r.width)) (leNat (r.data.drop r.width))) ∧
      memExcept (phys s r.addr) r.width s t ∧ servedFrame s t now ∧
      t.resps = s.resps ++ [⟨r.src, r.tag, .atomicR, 0, bytesAt s r.addr r.width, r.addr⟩]) ∧
  (∀ (s : State) (r : Req) (now : Nat), s.ok = true → servedAt s .atomicN r → atomicOk r = true → readStatus s r.addr r.width = 0 →
    ∃ t, exec (.atomicNonReturning r now) s = .next t ∧
      bytesAt t r.addr r.width = leBytes r.width (atomicNew r.kind (8 * r.width) (leNat (bytesAt s r.addr r.width))
        (leNat (r.data.take r.width)) (leNat (r.data.drop r.width))) ∧
      memExcept (phys s r.addr) r.width s t ∧ servedFrame s t now ∧
      t.resps = s.resps ++ [⟨r.src, r.tag, .atomicN, 0, [], r.addr⟩])

/-- FILL (R173): a length from 1 to 4,096 units of 64 bytes, at a 64-byte aligned destination in one bank, core memory or operand
buffer; its 8-byte pattern is written repeatedly into every 8 bytes of the range, and nothing else is written. -/
def Obligations.FillWritesPattern : Prop :=
  ∀ (s : State) (r : Req) (now : Nat), s.ok = true → servedAt s .fill r → 1 ≤ r.len → r.len ≤ 4096 → r.addr % 64 = 0 →
    oneMemory s r.addr (64 * r.len) = true → r.data.length = 8 → writeStatus s r.addr (64 * r.len) = 0 →
    ∃ t, exec (.fillReq r now) s = .next t ∧
      bytesAt t r.addr (64 * r.len) = (List.replicate (8 * r.len) r.data).flatten ∧
      memExcept (phys s r.addr) (64 * r.len) s t ∧ servedFrame s t now ∧
      t.resps = s.resps ++ [⟨r.src, r.tag, .fill, 0, [], r.addr⟩]

/-- COPY (R174): the 8-byte source address after the request word names 64-byte aligned bytes in one 1 MiB block of scratchpad of
the destination's compute die; the destination gets what the whole source held before, whether or not the two overlap. A
source on another die or outside the window is refused UNMAPPED, recorded, and nothing is written. -/
def Obligations.CopyReadsWholeSource : Prop :=
  (∀ (s : State) (r : Req) (now : Nat), s.ok = true → servedAt s .copy r → fillOk s r = true → copySrc r % 64 = 0 →
    copySrc r / 0x100000 = (copySrc r + (64 * r.len - 1)) / 0x100000 → scratchpad s (copySrc r) = true →
    windowDie (copySrc r) = windowDie r.addr → locDark s (copySrc r) = false → locDark s r.addr = false → copyBad s r = [] →
    ∃ t, exec (.copyReq r now) s = .next t ∧
      bytesAt t r.addr (64 * r.len) = bytesAt s (copySrc r) (64 * r.len) ∧
      memExcept (phys s r.addr) (64 * r.len) s t ∧ servedFrame s t now ∧
      t.resps = s.resps ++ [⟨r.src, r.tag, .copy, 0, [], r.addr⟩]) ∧
  (∀ (s : State) (r : Req) (now : Nat), s.ok = true → servedAt s .copy r →
    (windowDie (copySrc r) ≠ windowDie r.addr ∨ scratchpad s (copySrc r) = false) →
    ∃ t, exec (.copyReq r now) s = .next t ∧ refusedAt r.src (copySrc r) (s.at_ now) { t with resps := s.resps } ∧
      t.resps = s.resps ++ [⟨r.src, r.tag, .copy, 1, [], r.addr⟩])

/-- Window accesses (R293) and watches (R121): an access that its window admits is performed, one that it does not is dropped,
counted and answered with the window's status; a watch takes an entry of the word's bank. -/
def Obligations.WindowAccessesAndWatches : Prop :=
  (∀ (s : State) (r : Req) (now : Nat), s.ok = true → servedAt s .readWin r → r.win < 64 →
    winCheck s r.win r.addr r.len false (fromPeer r.src) = 0 →
    ∃ t, exec (.readWin r now) s = .next t ∧ t.mem = s.mem ∧ servedFrame s t now ∧
      t.resps = s.resps ++ [⟨r.src, r.tag, .readWin, readStatus s r.addr r.len,
        if readStatus s r.addr r.len = 0 then bytesAt s r.addr r.len else List.replicate r.len 0, r.addr⟩]) ∧
  (∀ (s : State) (r : Req) (now : Nat), s.ok = true → servedAt s .writeWin r → r.win < 64 →
    winCheck s r.win r.addr r.data.length true (fromPeer r.src) = 0 → writeStatus s r.addr r.data.length = 0 →
    ∃ t, exec (.writeWin r now) s = .next t ∧ bytesAt t r.addr r.data.length = r.data ∧
      memExcept (phys s r.addr) r.data.length s t ∧ servedFrame s t now ∧
      t.resps = s.resps ++ [⟨r.src, r.tag, .writeWin, 0, [], r.addr⟩]) ∧
  (∀ (s : State) (r : Req) (now : Nat), s.ok = true → servedAt s .writeWin r → r.win < 64 →
    winCheck s r.win r.addr r.data.length true (fromPeer r.src) ≠ 0 →
    ∃ t, exec (.writeWin r now) s = .next t ∧ t.mem = s.mem ∧
      rd t (DMA_WIN_DROP_CNT r.win) = satAdd 32 (rd s (DMA_WIN_DROP_CNT r.win)) 1 ∧
      regsExcept [DMA_WIN_DROP_CNT r.win, DMA_WIN_DROP_SRC r.win] s t ∧
      t.resps = s.resps ++ [⟨r.src, r.tag, .writeWin, winCheck s r.win r.addr r.data.length true (fromPeer r.src), [], r.addr⟩] ∧
      t = { s with regs := t.regs, time := max s.time now, resps := t.resps }) ∧
  (∀ (s : State) (r : Req) (now g d b : Nat), s.ok = true → servedAt s .watch r → r.src = .core g → locOf s r.addr = .bank d b →
    mapped s r.addr 8 = true → locDark s r.addr = false → (get_watches s (d * 64 + b)).length < 64 →
    (get_watches s (d * 64 + b)).find? (fun w => w.addr == r.addr) = none →
    ∃ t, exec (.watchReq r now) s = .next t ∧ get_watches t (d * 64 + b) = get_watches s (d * 64 + b) ++ [⟨r.addr, [g]⟩] ∧
      t.resps = s.resps ++ [⟨r.src, r.tag, .watch, 0, [], r.addr⟩] ∧
      t = { s with time := max s.time now, watches := t.watches, resps := t.resps })

/-- The command that a request of each kind is. -/
def requestCmd (op : ReqOp) (r : Req) (now : Nat) : Instr :=
  match op with
  | .read => .readReq r now
  | .write => .writeReq r now
  | .atomicR => .atomicReturning r now
  | .atomicN => .atomicNonReturning r now
  | .fill => .fillReq r now
  | .copy => .copyReq r now
  | .readWin => .readWin r now
  | .writeWin => .writeWin r now
  | .watch => .watchReq r now

/-- A request of any kind to an address where the map has nothing is refused whole, recorded, and answered UNMAPPED, a read with
zeros (R28); a request that a core does not have outstanding is none. -/
def Obligations.UnmappedRequestsRefused : Prop :=
  (∀ (s : State) (op : ReqOp) (r : Req) (now : Nat), arrives s op r → locOf s r.addr = .none →
    ∃ t, exec (requestCmd op r now) s = .next t ∧ refusedAt r.src r.addr (s.at_ now) { t with resps := s.resps } ∧
      t.resps = s.resps ++ [⟨r.src, r.tag, op, 1,
        if op = .read ∨ op = .atomicR ∨ op = .readWin then List.replicate (reqLen op r) 0 else [], r.addr⟩]) ∧
  (∀ (s : State) (op : ReqOp) (r : Req) (now : Nat), reqLive s op (reqOf s op r) = false →
    exec (requestCmd op r now) s = .next (s.at_ now))

/-- The state that a bank takes toward a goal (R178, R181): 0 OFF, 1 RETAINED, 2 ON, 3 WAKING, 4 PD_WAIT. -/
def bankNext (st goal : Nat) : Nat :=
  if st = 2 ∨ st = 4 then (if goal = 2 then 2 else 4)
  else if st = 1 then (if goal = 2 then 3 else if goal = 0 then 0 else 1)
  else if st = 0 then (if goal = 2 then 3 else 0)
  else st

/-- Banks (R167, R169, R177, R178, R180 to R182): a phase start takes every bank of its partition toward the phase's state; a bank
with no request in flight goes dark, loses its contents where it goes OFF, and frees its watches; a waking bank is ON and
performs what it held; the scrubber moves on; the oldest corrected word is written back. -/
def Obligations.BankPowerAndScrub : Prop :=
  (∀ (s : State) (d p k now : Nat), s.ok = true → d < 8 → p < 16 → k < 4 → phaseBegun (s.at_ now) d p k = true →
    phaseNow (s.at_ now) d p = k →
    ∃ t, exec (.bankPhaseStart d p k now) s = .next t ∧
      (∀ b, b < 64 → getF t (BNK_PWR_STATE d b) = (if getF s (MAP_BNK_OWN_PART d b) = p then
        bankNext (getF s (BNK_PWR_STATE d b)) (bankGoal (s.at_ now) d b) else getF s (BNK_PWR_STATE d b))) ∧
      regsExcept ((List.range 64).map (BNK_PWR d)) s t ∧
      t = { s with
        regs := t.regs, mem := t.mem, time := t.time, bankTarget := t.bankTarget, ecc := t.ecc }) ∧
  (∀ (s : State) (d b cyc : Nat), s.ok = true → d < 8 → b < 64 → getF s (BNK_PWR_STATE d b) = 4 → getF s (BNK_INFL_COUNT d b) = 0 →
    savePending s d b = false →
    ∃ t, exec (.bankDark d b cyc) s = .next t ∧ fieldSet (BNK_PWR_STATE d b) (get_bankTarget s (d * 64 + b)) s t ∧
      getF t (BNK_INFL_PDW_MAX d b) = max (getF s (BNK_INFL_PDW_MAX d b)) (min cyc 0xFFFF) ∧ get_watches t (d * 64 + b) = [] ∧
      memExcept (bankBase d b) 0x100000 s t ∧
      (get_bankTarget s (d * 64 + b) = 0 → ∀ a, bankBase d b ≤ a → a < bankBase d b + 0x100000 → byteAt t a = 0) ∧
      (get_bankTarget s (d * 64 + b) ≠ 0 → t.mem = s.mem) ∧ regsExcept [BNK_PWR d b, BNK_INFL d b] s t ∧
      t = { s with
        regs := t.regs, mem := t.mem, watches := t.watches, watchMsgs := t.watchMsgs, bankTarget := t.bankTarget,
        ecc := t.ecc }) ∧
  (∀ (s : State) (d b : Nat), getF s (BNK_PWR_STATE d b) ≠ 4 → ∀ cyc, exec (.bankDark d b cyc) s = .next s) ∧
  (∀ (s : State) (d b : Nat), s.ok = true → d < 8 → b < 64 → getF s (BNK_PWR_STATE d b) = 3 → get_bankHeld s (d * 64 + b) = [] →
    bankGoal s d b = 2 →
    ∃ t, exec (.bankWakeDone d b) s = .next t ∧ fieldSet (BNK_PWR_STATE d b) 2 s t ∧
      (get_bankTarget s (d * 64 + b) = 3 → ∀ a, bankBase d b ≤ a → a < bankBase d b + 0x100000 → byteAt t a = 0) ∧
      (get_bankTarget s (d * 64 + b) ≠ 3 → t.mem = s.mem) ∧
      memExcept (bankBase d b) 0x100000 s t ∧ regsExcept [BNK_PWR d b, BNK_INFL d b] s t ∧
      t = { s with regs := t.regs, mem := t.mem, bankHeld := t.bankHeld, bankTarget := t.bankTarget, ecc := t.ecc }) ∧
  (∀ (s : State) (d b tag a n : Nat) (m : Master), s.ok = true → d < 8 → b < 64 → getF s (BNK_PWR_STATE d b) = 3 →
    get_bankHeld s (d * 64 + b) = [(.read, { src := m, tag := tag, addr := a, len := n })] → locOf s a = .bank d b → s.held = [] →
    s.engines = [] →
    ∃ t, exec (.bankWakeDone d b) s = .next t ∧ get_bankHeld t (d * 64 + b) = [] ∧
      t.resps.map (fun q => (q.src, q.tag, q.op)) = s.resps.map (fun q => (q.src, q.tag, q.op)) ++ [(m, tag, .read)]) ∧
  (∀ (s : State) (d : Nat), s.ok = true → d < 8 → flag s (BNK_SCRUB_EN d) = true →
    ∃ t, exec (.scrubRead d) s = .next t ∧ get_scrubPos t d = (get_scrubPos s d + 1) % 32768 ∧
      rd t (BNK_SCRUB_PASS d) = (if get_scrubPos s d + 1 = 32768 then satAdd 32 (rd s (BNK_SCRUB_PASS d)) 1
        else rd s (BNK_SCRUB_PASS d)) ∧ pitchRegsKept s t ∧
      t = { s with
        regs := t.regs, wbPending := t.wbPending, scrubPos := t.scrubPos }) ∧
  (∀ (s : State) (w : Nat) (ws : List Nat), s.ok = true → s.wbPending = w :: ws →
    ∃ t, exec .correctedWriteBack s = .next t ∧ t.wbPending = ws ∧
      get_ecc t w = (if locDark s (32 * w) = false ∧ get_ecc s w = 1 then 0 else get_ecc s w) ∧
      (∀ v, v ≠ w → get_ecc t v = get_ecc s v) ∧ t = { s with ecc := t.ecc, wbPending := t.wbPending }) ∧
  (∀ (s : State), s.wbPending = [] → exec .correctedWriteBack s = .next s)

/-! ### Threads (spec/05_cores_threads.md) -/

/-- Thread `t` of core `g` can issue an instruction that uses these registers: it runs, its core issues, no source awaits a
load, its fetch is good and no source holds the result of a failed access (R108, R111, R130). -/
abbrev issuable (s : State) (g t : Nat) (ss vs : List Nat) : Prop :=
  mayIssue s g t = true ∧ pendingOn (thr s g t) ss vs = false ∧ fetchOk s g t = true ∧ readsFailed (thr s g t) ss vs = false

/-- The thread became `th`, CORE_ISSUE of its core counted one more instruction, and nothing else changed. -/
def threadSteps (g t : Nat) (th : Thread) (s u : State) : Prop :=
  thr u g t = th ∧ (∀ k, k ≠ tkey g t → get_threads u k = get_threads s k) ∧
  rd64 u (CORE_ISSUE g) = (rd64 s (CORE_ISSUE g) + 1) % 2 ^ 64 ∧ regsExcept [CORE_ISSUE g, CORE_ISSUE g + 4] s u ∧
  u = { s with regs := u.regs, threads := u.threads }

/-- A thread fault of code `code` (R129, R131): counted, sent to the I/O die, the core's issue stopped for the job. -/
def threadFaults (g code : Nat) (s u : State) : Prop :=
  rd u (CORE_FAULT_CNT g) = satAdd 32 (rd s (CORE_FAULT_CNT g)) 1 ∧ get_cores u g = { get_cores s g with faulted := true } ∧
  u.faultMsgs = s.faultMsgs ++ [(g, code)] ∧
  u = { s with regs := u.regs, threads := u.threads, cores := u.cores, faultMsgs := u.faultMsgs }

/-- An instruction that cannot issue yet waits: the command has no effect (R111). Shown here for every scalar instruction. -/
def Obligations.ScalarInstructions : Prop :=
  (∀ (s : State) (g t : Nat) (op : SOp) (rd ra : Nat) (arg : SArg) (cycle : Nat), mayIssue s g t = false →
    exec (.scalarInstruction g t op rd ra arg cycle) s = .next s) ∧
  (∀ (s : State) (g t rd ra rb cycle : Nat), s.ok = true → issuable s g t [ra, rd, rb] [] →
    ∃ u, exec (.scalarInstruction g t .add rd ra (.reg rb) cycle) s = .next u ∧
      threadSteps g t (setSreg { thr s g t with pc := (thr s g t).pc + 8 } rd
        ((sreg (thr s g t) ra + sreg (thr s g t) rb) % 2 ^ 64)) s u ∧
      (rd = 0 → sreg (thr u g t) 0 = 0)) ∧
  (∀ (s : State) (g t rd ra i cycle : Nat), s.ok = true → issuable s g t [ra, rd] [] → i % 2 ^ 32 = 0 →
    ∃ u, exec (.scalarInstruction g t .divu rd ra (.imm i) cycle) s = .next u ∧
      threadSteps g t (setSreg { thr s g t with pc := (thr s g t).pc + 8 } rd (2 ^ 64 - 1)) s u) ∧
  (∀ (s : State) (g t rd ra i cycle : Nat), s.ok = true → issuable s g t [ra, rd] [] →
    ∃ u, exec (.scalarInstruction g t .branchZ rd ra (.imm i) cycle) s = .next u ∧
      threadSteps g t { thr s g t with pc := (if sreg (thr s g t) ra = 0 then ofSigned 64 ((thr s g t).pc + toSigned 32 i)
                                              else (thr s g t).pc + 8) } s u) ∧
  (∀ (s : State) (g t : Nat) (op : SOp) (rd ra : Nat) (arg : SArg) (cycle : Nat), s.ok = true → op ≠ .undefined →
    issuable s g t ([ra, rd] ++ sargRegs arg ++ sopRegs op) [] →
    ∃ u, exec (.scalarInstruction g t op rd ra arg cycle) s = .next u ∧ threadSteps g t (thr u g t) s u ∧
      (∀ r, r ≠ rd → sreg (thr u g t) r = sreg (thr s g t) r) ∧ (∀ r i, vlane (thr u g t) r i = vlane (thr s g t) r i) ∧
      (op ≠ .branchZ → op ≠ .branchNZ → (thr u g t).pc = (thr s g t).pc + 8)) ∧
  (∀ (s : State) (g t rd ra : Nat) (arg : SArg) (cycle : Nat), s.ok = true → issuable s g t ([ra, rd] ++ sargRegs arg) [] →
    ∃ u, exec (.scalarInstruction g t .undefined rd ra arg cycle) s = .next u ∧ threadFaults g 1 s u)

/-- Vector instructions (R112, R158, R161): lanes that a predicate turns off keep their destination, nothing but the
destination changes; block conversions write their vector registers and scale; an undefined one is a thread fault. -/
def Obligations.VectorInstructions : Prop :=
  (∀ (s : State) (g t : Nat) (vi : VInstr), s.ok = true → vDefined vi.op = true →
    issuable s g t (match vi.bcast with | some r => [r] | none => [])
      ([vi.va, vi.vb, vi.vc] ++ (if isCmp vi.op then [] else [vi.vd])) →
    ∃ u, exec (.vectorInstruction g t vi) s = .next u ∧
      threadSteps g t (vectorThread vi { thr s g t with pc := (thr s g t).pc + 8 }) s u ∧
      (isCmp vi.op = false → ∀ r i, r ≠ vi.vd → i < 16 → vlane (thr u g t) r i = vlane (thr s g t) r i)) ∧
  (∀ (s : State) (g t va vb vc vd i : Nat), s.ok = true → issuable s g t [] [va, vb, vc, vd] → i < 16 →
    ∃ u, exec (.vectorInstruction g t { op := .iadd, vd := vd, va := va, vb := vb, vc := vc, bcast := none, pred := none }) s
        = .next u ∧
      vlane (thr u g t) vd i = (vlane (thr s g t) va i + vlane (thr s g t) vb i) % 2 ^ 32) ∧
  (∀ (s : State) (g t : Nat) (vi : VInstr), s.ok = true → vDefined vi.op = false →
    issuable s g t (match vi.bcast with | some r => [r] | none => [])
      ([vi.va, vi.vb, vi.vc] ++ (if isCmp vi.op then [] else [vi.vd])) →
    ∃ u, exec (.vectorInstruction g t vi) s = .next u ∧ threadFaults g 1 s u) ∧
  (∀ (s : State) (g t fmt vd rs v0 v1 : Nat), s.ok = true → isMx fmt = true → issuable s g t [rs] [vd, v0, v1] →
    ∃ u, exec (.blockEncode g t fmt vd rs v0 v1) s = .next u ∧ threadSteps g t (thr u g t) s u ∧
      (thr u g t).pc = (thr s g t).pc + 8 ∧
      (rs ≠ 0 → sreg (thr u g t) rs = (mxEncode fmt (thr s g t).rm ((lanes32 (thr s g t) v0 v1).map fpv)).2.1 % 2 ^ 64) ∧
      (∀ r, r ≠ rs → sreg (thr u g t) r = sreg (thr s g t) r) ∧
      (∀ r i, r ≠ vd → i < 16 → vlane (thr u g t) r i = vlane (thr s g t) r i)) ∧
  (∀ (s : State) (g t fmt va rs v0 v1 : Nat), s.ok = true → isMx fmt = true → issuable s g t [rs] [va, v0, v1] →
    ∃ u, exec (.blockDecode g t fmt va rs v0 v1) s = .next u ∧ threadSteps g t (thr u g t) s u ∧
      (thr u g t).pc = (thr s g t).pc + 8 ∧
      (∀ r, sreg (thr u g t) r = sreg (thr s g t) r) ∧
      (∀ r i, r ≠ v0 → r ≠ v1 → i < 16 → vlane (thr u g t) r i = vlane (thr s g t) r i)) ∧
  (∀ (s : State) (g t fmt vd rs v0 v1 : Nat), s.ok = true → isMx fmt = false → issuable s g t [rs] [vd, v0, v1] →
    (∃ u, exec (.blockEncode g t fmt vd rs v0 v1) s = .next u ∧ threadFaults g 1 s u) ∧
    (∃ u, exec (.blockDecode g t fmt vd rs v0 v1) s = .next u ∧ threadFaults g 1 s u))

/-- Room in the transaction slots of a core and of a thread for `n` more (R115). -/
abbrev slotsFree (s : State) (g t n : Nat) : Prop := slotsUsed s g + n ≤ 256 ∧ threadSlots s g t + n ≤ 32

/-- The instruction issued the transactions `xs`: they fill slots, CORE_TXN follows, the program counter moves on (R115). -/
def issuesTxns (g t : Nat) (xs : List Txn) (s u : State) : Prop :=
  u.txns = s.txns ++ xs ∧ u.nextTag = s.nextTag + xs.length ∧ getF u (CORE_TXN_OUT g) = (slotsUsed s g + xs.length) % 2 ^ 16 ∧
  (thr u g t).pc = (thr s g t).pc + 8 ∧ (∀ r, sreg (thr u g t) r = sreg (thr s g t) r) ∧
  (∀ r i, vlane (thr u g t) r i = vlane (thr s g t) r i) ∧ (∀ k, k ≠ tkey g t → get_threads u k = get_threads s k) ∧
  rd64 u (CORE_ISSUE g) = (rd64 s (CORE_ISSUE g) + 1) % 2 ^ 64 ∧
  regsExcept [CORE_ISSUE g, CORE_ISSUE g + 4, CORE_TXN g] s u ∧
  u = { s with regs := u.regs, threads := u.threads, txns := u.txns, nextTag := u.nextTag }

/-- Memory instructions (R112, R113, R115): a load, store, gather, scatter or atomic of aligned addresses becomes transactions
with the thread's address and data; a misaligned one is a thread fault; without free slots it waits. -/
def Obligations.MemoryInstructions : Prop :=
  (∀ (s : State) (g t : Nat) (dest : Dest) (width rb off : Nat), s.ok = true → slotsFree s g t 1 →
    issuable s g t ([rb] ++ (match dest with | .s r => [r] | _ => [])) (match dest with | .v r => [r] | _ => []) →
    memAddr (thr s g t) rb off % width = 0 →
    ∃ u, exec (.loadInstr g t dest width rb off) s = .next u ∧
      issuesTxns g t [⟨.core g, s.nextTag, t, .read, memAddr (thr s g t) rb off, width, [], .add, 4, dest, (thr s g t).pc, false⟩] s u ∧
      (∀ r, dest = .s r → r ≠ 0 → bit (thr u g t).pendS r = true) ∧ (∀ r, dest = .v r → bit (thr u g t).pendV r = true)) ∧
  (∀ (s : State) (g t r width rb off : Nat), s.ok = true → slotsFree s g t 1 → issuable s g t [rb, r] [] →
    memAddr (thr s g t) rb off % width = 0 →
    ∃ u, exec (.storeInstr g t (.s r) width rb off) s = .next u ∧
      issuesTxns g t [⟨.core g, s.nextTag, t, .write, memAddr (thr s g t) rb off, width, leBytes width (sreg (thr s g t) r),
        .add, 4, .none, (thr s g t).pc, false⟩] s u) ∧
  (∀ (s : State) (g t r rb off : Nat), s.ok = true → slotsFree s g t 1 → issuable s g t [rb] [r] →
    memAddr (thr s g t) rb off % 64 = 0 →
    ∃ u, exec (.storeInstr g t (.v r) 64 rb off) s = .next u ∧
      issuesTxns g t [⟨.core g, s.nextTag, t, .write, memAddr (thr s g t) rb off, 64,
        ((List.range 16).map (fun i => leBytes 4 (vlane (thr s g t) r i))).flatten, .add, 4, .none, (thr s g t).pc, false⟩] s u) ∧
  (∀ (s : State) (g t vd rb off vo : Nat), s.ok = true → slotsFree s g t 16 → issuable s g t [rb] [vd, vo] →
    (∀ e ∈ laneAddrs (thr s g t) rb off vo, e.2 % 4 = 0) →
    ∃ u, exec (.gatherInstr g t vd rb off vo) s = .next u ∧ bit (thr u g t).pendV vd = true ∧
      issuesTxns g t ((laneAddrs (thr s g t) rb off vo).map (fun e =>
        ⟨.core g, s.nextTag + e.1, t, .read, e.2, 4, [], .add, 4, .lane vd e.1, (thr s g t).pc, false⟩)) s u) ∧
  (∀ (s : State) (g t vs rb off vo : Nat), s.ok = true → slotsFree s g t 16 → issuable s g t [rb] [vs, vo] →
    (∀ e ∈ laneAddrs (thr s g t) rb off vo, e.2 % 4 = 0) →
    ∃ u, exec (.scatterInstr g t vs rb off vo) s = .next u ∧
      issuesTxns g t ((laneAddrs (thr s g t) rb off vo).map (fun e =>
        ⟨.core g, s.nextTag + e.1, t, .write, e.2, 4, leBytes 4 (vlane (thr s g t) vs e.1), .add, 4, .none,
          (thr s g t).pc, false⟩)) s u) ∧
  (∀ (s : State) (g t : Nat) (kind : AtomicKind) (ret : Bool) (width rd rb off rv rc : Nat), s.ok = true → slotsFree s g t 1 →
    issuable s g t ([rb, rv, rc] ++ (if ret then [rd] else [])) [] → memAddr (thr s g t) rb off % width = 0 →
    (inWindow (memAddr (thr s g t) rb off) || inDramRange (memAddr (thr s g t) rb off)) = true →
    ∃ u, exec (.atomicInstruction g t kind ret width rd rb off rv rc) s = .next u ∧
      issuesTxns g t [⟨.core g, s.nextTag, t, if ret then .atomicR else .atomicN, memAddr (thr s g t) rb off, width,
        leBytes width (sreg (thr s g t) rv) ++ (if kind = .cas then leBytes width (sreg (thr s g t) rc) else []), kind, width,
        if ret then .s rd else .none, (thr s g t).pc, false⟩] s u) ∧
  (∀ (s : State) (g t r width rb off : Nat), s.ok = true → slotsFree s g t 1 → issuable s g t [rb, r] [] →
    memAddr (thr s g t) rb off % width ≠ 0 →
    ∃ u, exec (.loadInstr g t (.s r) width rb off) s = .next u ∧ threadFaults g 3 s u ∧ u.txns = s.txns) ∧
  (∀ (s : State) (g t : Nat) (dest : Dest) (width rb off : Nat), ¬slotsFree s g t 1 →
    exec (.loadInstr g t dest width rb off) s = .next s)

/-- SPAWN and HALT (R107, R130): SPAWN starts a halted thread of the core at its entry, or answers 1 for one that runs; HALT ends a
thread without a pending error and leaves it no live state. -/
def Obligations.SpawnAndHalt : Prop :=
  (∀ (s : State) (g t t2 re ra rd : Nat), s.ok = true → issuable s g t [re, ra, rd] [] → t2 < 64 → t2 ≠ t →
    (thr s g t2).running = false →
    ∃ u, exec (.spawn g t t2 re ra rd) s = .next u ∧
      thr u g t2 = freshThread (thr s g t).pitch (sreg (thr s g t) re) (sreg (thr s g t) ra) ∧
      thr u g t = setSreg { thr s g t with pc := (thr s g t).pc + 8 } rd 0 ∧
      fieldSet (CORE_STAT_THREADS g) (getF s (CORE_STAT_THREADS g) + 1) s u ∧
      regsExcept [CORE_ISSUE g, CORE_ISSUE g + 4, CORE_STAT g] s u ∧ u = { s with regs := u.regs, threads := u.threads }) ∧
  (∀ (s : State) (g t t2 re ra rd : Nat), s.ok = true → issuable s g t [re, ra, rd] [] → t2 < 64 → (thr s g t2).running = true →
    ∃ u, exec (.spawn g t t2 re ra rd) s = .next u ∧
      threadSteps g t (setSreg { thr s g t with pc := (thr s g t).pc + 8 } rd 1) s u) ∧
  (∀ (s : State) (g t : Nat), s.ok = true → issuable s g t [] [] → (thr s g t).err = none →
    ∃ u, exec (.halt g t) s = .next u ∧ thr u g t = {} ∧ (∀ k, k ≠ tkey g t → get_threads u k = get_threads s k) ∧
      fieldSet (CORE_STAT_THREADS g) (getF s (CORE_STAT_THREADS g) - 1) s u ∧
      regsExcept [CORE_ISSUE g, CORE_ISSUE g + 4, CORE_STAT g] s u ∧ u = { s with regs := u.regs, threads := u.threads }) ∧
  (∀ (s : State) (g t : Nat) (e : PendErr), s.ok = true → issuable s g t [] [] → (thr s g t).err = some e →
    ∃ u, exec (.halt g t) s = .next u ∧ threadFaults g 6 s u)
end

