-- ==== Sys2Proof/Laws/State.lean ====
section
/-! SUPPORT. What each update does to each field: one lemma per field per update, true by unfolding. -/
namespace Sys2Proof.Laws
open Sys2Proof.Machine

@[simp] theorem regs_upd_pending (s : State) (k : Nat) (v : Word) : (applyUpd (.regs k v) s).pending = s.pending := rfl
@[simp] theorem regs_upd_regs (s : State) (k : Nat) (v : Word) : (applyUpd (.regs k v) s).regs = tabSet regReset s.regs k v := rfl
@[simp] theorem regs_upd_mem (s : State) (k : Nat) (v : Word) : (applyUpd (.regs k v) s).mem = s.mem := rfl
@[simp] theorem regs_upd_sram (s : State) (k : Nat) (v : Word) : (applyUpd (.regs k v) s).sram = s.sram := rfl
@[simp] theorem regs_upd_time (s : State) (k : Nat) (v : Word) : (applyUpd (.regs k v) s).time = s.time := rfl
@[simp] theorem regs_upd_timeFrac (s : State) (k : Nat) (v : Word) : (applyUpd (.regs k v) s).timeFrac = s.timeFrac := rfl
@[simp] theorem regs_upd_freeCtr (s : State) (k : Nat) (v : Word) : (applyUpd (.regs k v) s).freeCtr = s.freeCtr := rfl
@[simp] theorem regs_upd_hiLatch (s : State) (k : Nat) (v : Word) : (applyUpd (.regs k v) s).hiLatch = s.hiLatch := rfl
@[simp] theorem regs_upd_timeSet (s : State) (k : Nat) (v : Word) : (applyUpd (.regs k v) s).timeSet = s.timeSet := rfl
@[simp] theorem regs_upd_n0 (s : State) (k : Nat) (v : Word) : (applyUpd (.regs k v) s).n0 = s.n0 := rfl
@[simp] theorem regs_upd_ticked (s : State) (k : Nat) (v : Word) : (applyUpd (.regs k v) s).ticked = s.ticked := rfl
@[simp] theorem regs_upd_peerTickAt (s : State) (k : Nat) (v : Word) : (applyUpd (.regs k v) s).peerTickAt = s.peerTickAt := rfl
@[simp] theorem regs_upd_guardPitch (s : State) (k : Nat) (v : Word) : (applyUpd (.regs k v) s).guardPitch = s.guardPitch := rfl
@[simp] theorem regs_upd_diePitch (s : State) (k : Nat) (v : Word) : (applyUpd (.regs k v) s).diePitch = s.diePitch := rfl
@[simp] theorem regs_upd_resps (s : State) (k : Nat) (v : Word) : (applyUpd (.regs k v) s).resps = s.resps := rfl
@[simp] theorem regs_upd_txns (s : State) (k : Nat) (v : Word) : (applyUpd (.regs k v) s).txns = s.txns := rfl
@[simp] theorem regs_upd_nextTag (s : State) (k : Nat) (v : Word) : (applyUpd (.regs k v) s).nextTag = s.nextTag := rfl
@[simp] theorem regs_upd_lateTags (s : State) (k : Nat) (v : Word) : (applyUpd (.regs k v) s).lateTags = s.lateTags := rfl
@[simp] theorem regs_upd_ports (s : State) (k : Nat) (v : Word) : (applyUpd (.regs k v) s).ports = s.ports := rfl
@[simp] theorem regs_upd_threads (s : State) (k : Nat) (v : Word) : (applyUpd (.regs k v) s).threads = s.threads := rfl
@[simp] theorem regs_upd_cores (s : State) (k : Nat) (v : Word) : (applyUpd (.regs k v) s).cores = s.cores := rfl
@[simp] theorem regs_upd_engines (s : State) (k : Nat) (v : Word) : (applyUpd (.regs k v) s).engines = s.engines := rfl
@[simp] theorem regs_upd_held (s : State) (k : Nat) (v : Word) : (applyUpd (.regs k v) s).held = s.held := rfl
@[simp] theorem regs_upd_watches (s : State) (k : Nat) (v : Word) : (applyUpd (.regs k v) s).watches = s.watches := rfl
@[simp] theorem regs_upd_watchMsgs (s : State) (k : Nat) (v : Word) : (applyUpd (.regs k v) s).watchMsgs = s.watchMsgs := rfl
@[simp] theorem regs_upd_bankHeld (s : State) (k : Nat) (v : Word) : (applyUpd (.regs k v) s).bankHeld = s.bankHeld := rfl
@[simp] theorem regs_upd_bankTarget (s : State) (k : Nat) (v : Word) : (applyUpd (.regs k v) s).bankTarget = s.bankTarget := rfl
@[simp] theorem regs_upd_ecc (s : State) (k : Nat) (v : Word) : (applyUpd (.regs k v) s).ecc = s.ecc := rfl
@[simp] theorem regs_upd_lineEcc (s : State) (k : Nat) (v : Word) : (applyUpd (.regs k v) s).lineEcc = s.lineEcc := rfl
@[simp] theorem regs_upd_wbPending (s : State) (k : Nat) (v : Word) : (applyUpd (.regs k v) s).wbPending = s.wbPending := rfl
@[simp] theorem regs_upd_scrubPos (s : State) (k : Nat) (v : Word) : (applyUpd (.regs k v) s).scrubPos = s.scrubPos := rfl
@[simp] theorem regs_upd_refusals (s : State) (k : Nat) (v : Word) : (applyUpd (.regs k v) s).refusals = s.refusals := rfl
@[simp] theorem regs_upd_firstRefusal (s : State) (k : Nat) (v : Word) : (applyUpd (.regs k v) s).firstRefusal = s.firstRefusal := rfl
@[simp] theorem regs_upd_boxQueue (s : State) (k : Nat) (v : Word) : (applyUpd (.regs k v) s).boxQueue = s.boxQueue := rfl
@[simp] theorem regs_upd_boxRun (s : State) (k : Nat) (v : Word) : (applyUpd (.regs k v) s).boxRun = s.boxRun := rfl
@[simp] theorem regs_upd_kvs (s : State) (k : Nat) (v : Word) : (applyUpd (.regs k v) s).kvs = s.kvs := rfl
@[simp] theorem regs_upd_parts (s : State) (k : Nat) (v : Word) : (applyUpd (.regs k v) s).parts = s.parts := rfl
@[simp] theorem regs_upd_dmas (s : State) (k : Nat) (v : Word) : (applyUpd (.regs k v) s).dmas = s.dmas := rfl
@[simp] theorem regs_upd_regReqs (s : State) (k : Nat) (v : Word) : (applyUpd (.regs k v) s).regReqs = s.regReqs := rfl
@[simp] theorem regs_upd_regPorts (s : State) (k : Nat) (v : Word) : (applyUpd (.regs k v) s).regPorts = s.regPorts := rfl
@[simp] theorem regs_upd_subchs (s : State) (k : Nat) (v : Word) : (applyUpd (.regs k v) s).subchs = s.subchs := rfl
@[simp] theorem regs_upd_trackers (s : State) (k : Nat) (v : Word) : (applyUpd (.regs k v) s).trackers = s.trackers := rfl
@[simp] theorem regs_upd_throttles (s : State) (k : Nat) (v : Word) : (applyUpd (.regs k v) s).throttles = s.throttles := rfl
@[simp] theorem regs_upd_errRing (s : State) (k : Nat) (v : Word) : (applyUpd (.regs k v) s).errRing = s.errRing := rfl
@[simp] theorem regs_upd_errRingOvf (s : State) (k : Nat) (v : Word) : (applyUpd (.regs k v) s).errRingOvf = s.errRingOvf := rfl
@[simp] theorem regs_upd_patrolLine (s : State) (k : Nat) (v : Word) : (applyUpd (.regs k v) s).patrolLine = s.patrolLine := rfl
@[simp] theorem regs_upd_retTimes (s : State) (k : Nat) (v : Word) : (applyUpd (.regs k v) s).retTimes = s.retTimes := rfl
@[simp] theorem regs_upd_retired (s : State) (k : Nat) (v : Word) : (applyUpd (.regs k v) s).retired = s.retired := rfl
@[simp] theorem regs_upd_dramSeq (s : State) (k : Nat) (v : Word) : (applyUpd (.regs k v) s).dramSeq = s.dramSeq := rfl
@[simp] theorem regs_upd_trn (s : State) (k : Nat) (v : Word) : (applyUpd (.regs k v) s).trn = s.trn := rfl
@[simp] theorem regs_upd_dqsAdj (s : State) (k : Nat) (v : Word) : (applyUpd (.regs k v) s).dqsAdj = s.dqsAdj := rfl
@[simp] theorem regs_upd_dpol (s : State) (k : Nat) (v : Word) : (applyUpd (.regs k v) s).dpol = s.dpol := rfl
@[simp] theorem regs_upd_idleAt (s : State) (k : Nat) (v : Word) : (applyUpd (.regs k v) s).idleAt = s.idleAt := rfl
@[simp] theorem regs_upd_fitted (s : State) (k : Nat) (v : Word) : (applyUpd (.regs k v) s).fitted = s.fitted := rfl
@[simp] theorem regs_upd_faultMsgs (s : State) (k : Nat) (v : Word) : (applyUpd (.regs k v) s).faultMsgs = s.faultMsgs := rfl
@[simp] theorem regs_upd_out (s : State) (k : Nat) (v : Word) : (applyUpd (.regs k v) s).out = s.out := rfl
@[simp] theorem regs_upd_lastRead (s : State) (k : Nat) (v : Word) : (applyUpd (.regs k v) s).lastRead = s.lastRead := rfl
@[simp] theorem regs_upd_fwd (s : State) (k : Nat) (v : Word) : (applyUpd (.regs k v) s).fwd = s.fwd := rfl
@[simp] theorem regs_upd_ethTx (s : State) (k : Nat) (v : Word) : (applyUpd (.regs k v) s).ethTx = s.ethTx := rfl
@[simp] theorem regs_upd_ethHeadAt (s : State) (k : Nat) (v : Word) : (applyUpd (.regs k v) s).ethHeadAt = s.ethHeadAt := rfl
@[simp] theorem regs_upd_canTx (s : State) (k : Nat) (v : Word) : (applyUpd (.regs k v) s).canTx = s.canTx := rfl
@[simp] theorem regs_upd_pcieOut (s : State) (k : Nat) (v : Word) : (applyUpd (.regs k v) s).pcieOut = s.pcieOut := rfl
@[simp] theorem regs_upd_pcieCfgRd (s : State) (k : Nat) (v : Word) : (applyUpd (.regs k v) s).pcieCfgRd = s.pcieCfgRd := rfl
@[simp] theorem regs_upd_msix (s : State) (k : Nat) (v : Word) : (applyUpd (.regs k v) s).msix = s.msix := rfl
@[simp] theorem regs_upd_ancs (s : State) (k : Nat) (v : Word) : (applyUpd (.regs k v) s).ancs = s.ancs := rfl
@[simp] theorem regs_upd_trajArea (s : State) (k : Nat) (v : Word) : (applyUpd (.regs k v) s).trajArea = s.trajArea := rfl
@[simp] theorem regs_upd_lidarIn (s : State) (k : Nat) (v : Word) : (applyUpd (.regs k v) s).lidarIn = s.lidarIn := rfl
@[simp] theorem regs_upd_wheelIn (s : State) (k : Nat) (v : Word) : (applyUpd (.regs k v) s).wheelIn = s.wheelIn := rfl
@[simp] theorem regs_upd_spiStepBusy (s : State) (k : Nat) (v : Word) : (applyUpd (.regs k v) s).spiStepBusy = s.spiStepBusy := rfl
@[simp] theorem regs_upd_spiRec (s : State) (k : Nat) (v : Word) : (applyUpd (.regs k v) s).spiRec = s.spiRec := rfl
@[simp] theorem regs_upd_spiStepCfg (s : State) (k : Nat) (v : Word) : (applyUpd (.regs k v) s).spiStepCfg = s.spiStepCfg := rfl
@[simp] theorem regs_upd_ctxs (s : State) (k : Nat) (v : Word) : (applyUpd (.regs k v) s).ctxs = s.ctxs := rfl
@[simp] theorem regs_upd_fsyOmit (s : State) (k : Nat) (v : Word) : (applyUpd (.regs k v) s).fsyOmit = s.fsyOmit := rfl
@[simp] theorem regs_upd_fsyPulsed (s : State) (k : Nat) (v : Word) : (applyUpd (.regs k v) s).fsyPulsed = s.fsyPulsed := rfl
@[simp] theorem regs_upd_supTasks (s : State) (k : Nat) (v : Word) : (applyUpd (.regs k v) s).supTasks = s.supTasks := rfl
@[simp] theorem regs_upd_fus (s : State) (k : Nat) (v : Word) : (applyUpd (.regs k v) s).fus = s.fus := rfl
@[simp] theorem regs_upd_fcons (s : State) (k : Nat) (v : Word) : (applyUpd (.regs k v) s).fcons = s.fcons := rfl
@[simp] theorem regs_upd_shadow (s : State) (k : Nat) (v : Word) : (applyUpd (.regs k v) s).shadow = s.shadow := rfl
@[simp] theorem regs_upd_trv (s : State) (k : Nat) (v : Word) : (applyUpd (.regs k v) s).trv = s.trv := rfl
@[simp] theorem regs_upd_tlayers (s : State) (k : Nat) (v : Word) : (applyUpd (.regs k v) s).tlayers = s.tlayers := rfl
@[simp] theorem regs_upd_jobFaults (s : State) (k : Nat) (v : Word) : (applyUpd (.regs k v) s).jobFaults = s.jobFaults := rfl
@[simp] theorem regs_upd_unitLast (s : State) (k : Nat) (v : Word) : (applyUpd (.regs k v) s).unitLast = s.unitLast := rfl
@[simp] theorem regs_upd_unitRst (s : State) (k : Nat) (v : Word) : (applyUpd (.regs k v) s).unitRst = s.unitRst := rfl
@[simp] theorem regs_upd_xlink (s : State) (k : Nat) (v : Word) : (applyUpd (.regs k v) s).xlink = s.xlink := rfl
@[simp] theorem regs_upd_trace (s : State) (k : Nat) (v : Word) : (applyUpd (.regs k v) s).trace = s.trace := rfl
@[simp] theorem regs_upd_progs (s : State) (k : Nat) (v : Word) : (applyUpd (.regs k v) s).progs = s.progs := rfl
@[simp] theorem regs_upd_rails (s : State) (k : Nat) (v : Word) : (applyUpd (.regs k v) s).rails = s.rails := rfl
@[simp] theorem regs_upd_thm (s : State) (k : Nat) (v : Word) : (applyUpd (.regs k v) s).thm = s.thm := rfl
@[simp] theorem regs_upd_bnd (s : State) (k : Nat) (v : Word) : (applyUpd (.regs k v) s).bnd = s.bnd := rfl
@[simp] theorem regs_upd_thmTrip (s : State) (k : Nat) (v : Word) : (applyUpd (.regs k v) s).thmTrip = s.thmTrip := rfl
@[simp] theorem regs_upd_flash (s : State) (k : Nat) (v : Word) : (applyUpd (.regs k v) s).flash = s.flash := rfl
@[simp] theorem regs_upd_slots (s : State) (k : Nat) (v : Word) : (applyUpd (.regs k v) s).slots = s.slots := rfl
@[simp] theorem regs_upd_stores (s : State) (k : Nat) (v : Word) : (applyUpd (.regs k v) s).stores = s.stores := rfl
@[simp] theorem regs_upd_ids (s : State) (k : Nat) (v : Word) : (applyUpd (.regs k v) s).ids = s.ids := rfl
@[simp] theorem regs_upd_boot (s : State) (k : Nat) (v : Word) : (applyUpd (.regs k v) s).boot = s.boot := rfl
@[simp] theorem regs_upd_load (s : State) (k : Nat) (v : Word) : (applyUpd (.regs k v) s).load = s.load := rfl
@[simp] theorem regs_upd_flt (s : State) (k : Nat) (v : Word) : (applyUpd (.regs k v) s).flt = s.flt := rfl
@[simp] theorem regs_upd_mon (s : State) (k : Nat) (v : Word) : (applyUpd (.regs k v) s).mon = s.mon := rfl
@[simp] theorem mem_upd_pending (s : State) (k : Nat) (v : Byte) : (applyUpd (.mem k v) s).pending = s.pending := rfl
@[simp] theorem mem_upd_regs (s : State) (k : Nat) (v : Byte) : (applyUpd (.mem k v) s).regs = s.regs := rfl
@[simp] theorem mem_upd_mem (s : State) (k : Nat) (v : Byte) : (applyUpd (.mem k v) s).mem = tabSet memDefault s.mem k v := rfl
@[simp] theorem mem_upd_sram (s : State) (k : Nat) (v : Byte) : (applyUpd (.mem k v) s).sram = s.sram := rfl
@[simp] theorem mem_upd_time (s : State) (k : Nat) (v : Byte) : (applyUpd (.mem k v) s).time = s.time := rfl
@[simp] theorem mem_upd_timeFrac (s : State) (k : Nat) (v : Byte) : (applyUpd (.mem k v) s).timeFrac = s.timeFrac := rfl
@[simp] theorem mem_upd_freeCtr (s : State) (k : Nat) (v : Byte) : (applyUpd (.mem k v) s).freeCtr = s.freeCtr := rfl
@[simp] theorem mem_upd_hiLatch (s : State) (k : Nat) (v : Byte) : (applyUpd (.mem k v) s).hiLatch = s.hiLatch := rfl
@[simp] theorem mem_upd_timeSet (s : State) (k : Nat) (v : Byte) : (applyUpd (.mem k v) s).timeSet = s.timeSet := rfl
@[simp] theorem mem_upd_n0 (s : State) (k : Nat) (v : Byte) : (applyUpd (.mem k v) s).n0 = s.n0 := rfl
@[simp] theorem mem_upd_ticked (s : State) (k : Nat) (v : Byte) : (applyUpd (.mem k v) s).ticked = s.ticked := rfl
@[simp] theorem mem_upd_peerTickAt (s : State) (k : Nat) (v : Byte) : (applyUpd (.mem k v) s).peerTickAt = s.peerTickAt := rfl
@[simp] theorem mem_upd_guardPitch (s : State) (k : Nat) (v : Byte) : (applyUpd (.mem k v) s).guardPitch = s.guardPitch := rfl
@[simp] theorem mem_upd_diePitch (s : State) (k : Nat) (v : Byte) : (applyUpd (.mem k v) s).diePitch = s.diePitch := rfl
@[simp] theorem mem_upd_resps (s : State) (k : Nat) (v : Byte) : (applyUpd (.mem k v) s).resps = s.resps := rfl
@[simp] theorem mem_upd_txns (s : State) (k : Nat) (v : Byte) : (applyUpd (.mem k v) s).txns = s.txns := rfl
@[simp] theorem mem_upd_nextTag (s : State) (k : Nat) (v : Byte) : (applyUpd (.mem k v) s).nextTag = s.nextTag := rfl
@[simp] theorem mem_upd_lateTags (s : State) (k : Nat) (v : Byte) : (applyUpd (.mem k v) s).lateTags = s.lateTags := rfl
@[simp] theorem mem_upd_ports (s : State) (k : Nat) (v : Byte) : (applyUpd (.mem k v) s).ports = s.ports := rfl
@[simp] theorem mem_upd_threads (s : State) (k : Nat) (v : Byte) : (applyUpd (.mem k v) s).threads = s.threads := rfl
@[simp] theorem mem_upd_cores (s : State) (k : Nat) (v : Byte) : (applyUpd (.mem k v) s).cores = s.cores := rfl
@[simp] theorem mem_upd_engines (s : State) (k : Nat) (v : Byte) : (applyUpd (.mem k v) s).engines = s.engines := rfl
@[simp] theorem mem_upd_held (s : State) (k : Nat) (v : Byte) : (applyUpd (.mem k v) s).held = s.held := rfl
@[simp] theorem mem_upd_watches (s : State) (k : Nat) (v : Byte) : (applyUpd (.mem k v) s).watches = s.watches := rfl
@[simp] theorem mem_upd_watchMsgs (s : State) (k : Nat) (v : Byte) : (applyUpd (.mem k v) s).watchMsgs = s.watchMsgs := rfl
@[simp] theorem mem_upd_bankHeld (s : State) (k : Nat) (v : Byte) : (applyUpd (.mem k v) s).bankHeld = s.bankHeld := rfl
@[simp] theorem mem_upd_bankTarget (s : State) (k : Nat) (v : Byte) : (applyUpd (.mem k v) s).bankTarget = s.bankTarget := rfl
@[simp] theorem mem_upd_ecc (s : State) (k : Nat) (v : Byte) : (applyUpd (.mem k v) s).ecc = s.ecc := rfl
@[simp] theorem mem_upd_lineEcc (s : State) (k : Nat) (v : Byte) : (applyUpd (.mem k v) s).lineEcc = s.lineEcc := rfl
@[simp] theorem mem_upd_wbPending (s : State) (k : Nat) (v : Byte) : (applyUpd (.mem k v) s).wbPending = s.wbPending := rfl
@[simp] theorem mem_upd_scrubPos (s : State) (k : Nat) (v : Byte) : (applyUpd (.mem k v) s).scrubPos = s.scrubPos := rfl
@[simp] theorem mem_upd_refusals (s : State) (k : Nat) (v : Byte) : (applyUpd (.mem k v) s).refusals = s.refusals := rfl
@[simp] theorem mem_upd_firstRefusal (s : State) (k : Nat) (v : Byte) : (applyUpd (.mem k v) s).firstRefusal = s.firstRefusal := rfl
@[simp] theorem mem_upd_boxQueue (s : State) (k : Nat) (v : Byte) : (applyUpd (.mem k v) s).boxQueue = s.boxQueue := rfl
@[simp] theorem mem_upd_boxRun (s : State) (k : Nat) (v : Byte) : (applyUpd (.mem k v) s).boxRun = s.boxRun := rfl
@[simp] theorem mem_upd_kvs (s : State) (k : Nat) (v : Byte) : (applyUpd (.mem k v) s).kvs = s.kvs := rfl
@[simp] theorem mem_upd_parts (s : State) (k : Nat) (v : Byte) : (applyUpd (.mem k v) s).parts = s.parts := rfl
@[simp] theorem mem_upd_dmas (s : State) (k : Nat) (v : Byte) : (applyUpd (.mem k v) s).dmas = s.dmas := rfl
@[simp] theorem mem_upd_regReqs (s : State) (k : Nat) (v : Byte) : (applyUpd (.mem k v) s).regReqs = s.regReqs := rfl
@[simp] theorem mem_upd_regPorts (s : State) (k : Nat) (v : Byte) : (applyUpd (.mem k v) s).regPorts = s.regPorts := rfl
@[simp] theorem mem_upd_subchs (s : State) (k : Nat) (v : Byte) : (applyUpd (.mem k v) s).subchs = s.subchs := rfl
@[simp] theorem mem_upd_trackers (s : State) (k : Nat) (v : Byte) : (applyUpd (.mem k v) s).trackers = s.trackers := rfl
@[simp] theorem mem_upd_throttles (s : State) (k : Nat) (v : Byte) : (applyUpd (.mem k v) s).throttles = s.throttles := rfl
@[simp] theorem mem_upd_errRing (s : State) (k : Nat) (v : Byte) : (applyUpd (.mem k v) s).errRing = s.errRing := rfl
@[simp] theorem mem_upd_errRingOvf (s : State) (k : Nat) (v : Byte) : (applyUpd (.mem k v) s).errRingOvf = s.errRingOvf := rfl
@[simp] theorem mem_upd_patrolLine (s : State) (k : Nat) (v : Byte) : (applyUpd (.mem k v) s).patrolLine = s.patrolLine := rfl
@[simp] theorem mem_upd_retTimes (s : State) (k : Nat) (v : Byte) : (applyUpd (.mem k v) s).retTimes = s.retTimes := rfl
@[simp] theorem mem_upd_retired (s : State) (k : Nat) (v : Byte) : (applyUpd (.mem k v) s).retired = s.retired := rfl
@[simp] theorem mem_upd_dramSeq (s : State) (k : Nat) (v : Byte) : (applyUpd (.mem k v) s).dramSeq = s.dramSeq := rfl
@[simp] theorem mem_upd_trn (s : State) (k : Nat) (v : Byte) : (applyUpd (.mem k v) s).trn = s.trn := rfl
@[simp] theorem mem_upd_dqsAdj (s : State) (k : Nat) (v : Byte) : (applyUpd (.mem k v) s).dqsAdj = s.dqsAdj := rfl
@[simp] theorem mem_upd_dpol (s : State) (k : Nat) (v : Byte) : (applyUpd (.mem k v) s).dpol = s.dpol := rfl
@[simp] theorem mem_upd_idleAt (s : State) (k : Nat) (v : Byte) : (applyUpd (.mem k v) s).idleAt = s.idleAt := rfl
@[simp] theorem mem_upd_fitted (s : State) (k : Nat) (v : Byte) : (applyUpd (.mem k v) s).fitted = s.fitted := rfl
@[simp] theorem mem_upd_faultMsgs (s : State) (k : Nat) (v : Byte) : (applyUpd (.mem k v) s).faultMsgs = s.faultMsgs := rfl
@[simp] theorem mem_upd_out (s : State) (k : Nat) (v : Byte) : (applyUpd (.mem k v) s).out = s.out := rfl
@[simp] theorem mem_upd_lastRead (s : State) (k : Nat) (v : Byte) : (applyUpd (.mem k v) s).lastRead = s.lastRead := rfl
@[simp] theorem mem_upd_fwd (s : State) (k : Nat) (v : Byte) : (applyUpd (.mem k v) s).fwd = s.fwd := rfl
@[simp] theorem mem_upd_ethTx (s : State) (k : Nat) (v : Byte) : (applyUpd (.mem k v) s).ethTx = s.ethTx := rfl
@[simp] theorem mem_upd_ethHeadAt (s : State) (k : Nat) (v : Byte) : (applyUpd (.mem k v) s).ethHeadAt = s.ethHeadAt := rfl
@[simp] theorem mem_upd_canTx (s : State) (k : Nat) (v : Byte) : (applyUpd (.mem k v) s).canTx = s.canTx := rfl
@[simp] theorem mem_upd_pcieOut (s : State) (k : Nat) (v : Byte) : (applyUpd (.mem k v) s).pcieOut = s.pcieOut := rfl
@[simp] theorem mem_upd_pcieCfgRd (s : State) (k : Nat) (v : Byte) : (applyUpd (.mem k v) s).pcieCfgRd = s.pcieCfgRd := rfl
@[simp] theorem mem_upd_msix (s : State) (k : Nat) (v : Byte) : (applyUpd (.mem k v) s).msix = s.msix := rfl
@[simp] theorem mem_upd_ancs (s : State) (k : Nat) (v : Byte) : (applyUpd (.mem k v) s).ancs = s.ancs := rfl
@[simp] theorem mem_upd_trajArea (s : State) (k : Nat) (v : Byte) : (applyUpd (.mem k v) s).trajArea = s.trajArea := rfl
@[simp] theorem mem_upd_lidarIn (s : State) (k : Nat) (v : Byte) : (applyUpd (.mem k v) s).lidarIn = s.lidarIn := rfl
@[simp] theorem mem_upd_wheelIn (s : State) (k : Nat) (v : Byte) : (applyUpd (.mem k v) s).wheelIn = s.wheelIn := rfl
@[simp] theorem mem_upd_spiStepBusy (s : State) (k : Nat) (v : Byte) : (applyUpd (.mem k v) s).spiStepBusy = s.spiStepBusy := rfl
@[simp] theorem mem_upd_spiRec (s : State) (k : Nat) (v : Byte) : (applyUpd (.mem k v) s).spiRec = s.spiRec := rfl
@[simp] theorem mem_upd_spiStepCfg (s : State) (k : Nat) (v : Byte) : (applyUpd (.mem k v) s).spiStepCfg = s.spiStepCfg := rfl
@[simp] theorem mem_upd_ctxs (s : State) (k : Nat) (v : Byte) : (applyUpd (.mem k v) s).ctxs = s.ctxs := rfl
@[simp] theorem mem_upd_fsyOmit (s : State) (k : Nat) (v : Byte) : (applyUpd (.mem k v) s).fsyOmit = s.fsyOmit := rfl
@[simp] theorem mem_upd_fsyPulsed (s : State) (k : Nat) (v : Byte) : (applyUpd (.mem k v) s).fsyPulsed = s.fsyPulsed := rfl
@[simp] theorem mem_upd_supTasks (s : State) (k : Nat) (v : Byte) : (applyUpd (.mem k v) s).supTasks = s.supTasks := rfl
@[simp] theorem mem_upd_fus (s : State) (k : Nat) (v : Byte) : (applyUpd (.mem k v) s).fus = s.fus := rfl
@[simp] theorem mem_upd_fcons (s : State) (k : Nat) (v : Byte) : (applyUpd (.mem k v) s).fcons = s.fcons := rfl
@[simp] theorem mem_upd_shadow (s : State) (k : Nat) (v : Byte) : (applyUpd (.mem k v) s).shadow = s.shadow := rfl
@[simp] theorem mem_upd_trv (s : State) (k : Nat) (v : Byte) : (applyUpd (.mem k v) s).trv = s.trv := rfl
@[simp] theorem mem_upd_tlayers (s : State) (k : Nat) (v : Byte) : (applyUpd (.mem k v) s).tlayers = s.tlayers := rfl
@[simp] theorem mem_upd_jobFaults (s : State) (k : Nat) (v : Byte) : (applyUpd (.mem k v) s).jobFaults = s.jobFaults := rfl
@[simp] theorem mem_upd_unitLast (s : State) (k : Nat) (v : Byte) : (applyUpd (.mem k v) s).unitLast = s.unitLast := rfl
@[simp] theorem mem_upd_unitRst (s : State) (k : Nat) (v : Byte) : (applyUpd (.mem k v) s).unitRst = s.unitRst := rfl
@[simp] theorem mem_upd_xlink (s : State) (k : Nat) (v : Byte) : (applyUpd (.mem k v) s).xlink = s.xlink := rfl
@[simp] theorem mem_upd_trace (s : State) (k : Nat) (v : Byte) : (applyUpd (.mem k v) s).trace = s.trace := rfl
@[simp] theorem mem_upd_progs (s : State) (k : Nat) (v : Byte) : (applyUpd (.mem k v) s).progs = s.progs := rfl
@[simp] theorem mem_upd_rails (s : State) (k : Nat) (v : Byte) : (applyUpd (.mem k v) s).rails = s.rails := rfl
@[simp] theorem mem_upd_thm (s : State) (k : Nat) (v : Byte) : (applyUpd (.mem k v) s).thm = s.thm := rfl
@[simp] theorem mem_upd_bnd (s : State) (k : Nat) (v : Byte) : (applyUpd (.mem k v) s).bnd = s.bnd := rfl
@[simp] theorem mem_upd_thmTrip (s : State) (k : Nat) (v : Byte) : (applyUpd (.mem k v) s).thmTrip = s.thmTrip := rfl
@[simp] theorem mem_upd_flash (s : State) (k : Nat) (v : Byte) : (applyUpd (.mem k v) s).flash = s.flash := rfl
@[simp] theorem mem_upd_slots (s : State) (k : Nat) (v : Byte) : (applyUpd (.mem k v) s).slots = s.slots := rfl
@[simp] theorem mem_upd_stores (s : State) (k : Nat) (v : Byte) : (applyUpd (.mem k v) s).stores = s.stores := rfl
@[simp] theorem mem_upd_ids (s : State) (k : Nat) (v : Byte) : (applyUpd (.mem k v) s).ids = s.ids := rfl
@[simp] theorem mem_upd_boot (s : State) (k : Nat) (v : Byte) : (applyUpd (.mem k v) s).boot = s.boot := rfl
@[simp] theorem mem_upd_load (s : State) (k : Nat) (v : Byte) : (applyUpd (.mem k v) s).load = s.load := rfl
@[simp] theorem mem_upd_flt (s : State) (k : Nat) (v : Byte) : (applyUpd (.mem k v) s).flt = s.flt := rfl
@[simp] theorem mem_upd_mon (s : State) (k : Nat) (v : Byte) : (applyUpd (.mem k v) s).mon = s.mon := rfl
@[simp] theorem sram_upd_pending (s : State) (k : Nat) (v : Byte) : (applyUpd (.sram k v) s).pending = s.pending := rfl
@[simp] theorem sram_upd_regs (s : State) (k : Nat) (v : Byte) : (applyUpd (.sram k v) s).regs = s.regs := rfl
@[simp] theorem sram_upd_mem (s : State) (k : Nat) (v : Byte) : (applyUpd (.sram k v) s).mem = s.mem := rfl
@[simp] theorem sram_upd_sram (s : State) (k : Nat) (v : Byte) : (applyUpd (.sram k v) s).sram = tabSet memDefault s.sram k v := rfl
@[simp] theorem sram_upd_time (s : State) (k : Nat) (v : Byte) : (applyUpd (.sram k v) s).time = s.time := rfl
@[simp] theorem sram_upd_timeFrac (s : State) (k : Nat) (v : Byte) : (applyUpd (.sram k v) s).timeFrac = s.timeFrac := rfl
@[simp] theorem sram_upd_freeCtr (s : State) (k : Nat) (v : Byte) : (applyUpd (.sram k v) s).freeCtr = s.freeCtr := rfl
@[simp] theorem sram_upd_hiLatch (s : State) (k : Nat) (v : Byte) : (applyUpd (.sram k v) s).hiLatch = s.hiLatch := rfl
@[simp] theorem sram_upd_timeSet (s : State) (k : Nat) (v : Byte) : (applyUpd (.sram k v) s).timeSet = s.timeSet := rfl
@[simp] theorem sram_upd_n0 (s : State) (k : Nat) (v : Byte) : (applyUpd (.sram k v) s).n0 = s.n0 := rfl
@[simp] theorem sram_upd_ticked (s : State) (k : Nat) (v : Byte) : (applyUpd (.sram k v) s).ticked = s.ticked := rfl
@[simp] theorem sram_upd_peerTickAt (s : State) (k : Nat) (v : Byte) : (applyUpd (.sram k v) s).peerTickAt = s.peerTickAt := rfl
@[simp] theorem sram_upd_guardPitch (s : State) (k : Nat) (v : Byte) : (applyUpd (.sram k v) s).guardPitch = s.guardPitch := rfl
@[simp] theorem sram_upd_diePitch (s : State) (k : Nat) (v : Byte) : (applyUpd (.sram k v) s).diePitch = s.diePitch := rfl
@[simp] theorem sram_upd_resps (s : State) (k : Nat) (v : Byte) : (applyUpd (.sram k v) s).resps = s.resps := rfl
@[simp] theorem sram_upd_txns (s : State) (k : Nat) (v : Byte) : (applyUpd (.sram k v) s).txns = s.txns := rfl
@[simp] theorem sram_upd_nextTag (s : State) (k : Nat) (v : Byte) : (applyUpd (.sram k v) s).nextTag = s.nextTag := rfl
@[simp] theorem sram_upd_lateTags (s : State) (k : Nat) (v : Byte) : (applyUpd (.sram k v) s).lateTags = s.lateTags := rfl
@[simp] theorem sram_upd_ports (s : State) (k : Nat) (v : Byte) : (applyUpd (.sram k v) s).ports = s.ports := rfl
@[simp] theorem sram_upd_threads (s : State) (k : Nat) (v : Byte) : (applyUpd (.sram k v) s).threads = s.threads := rfl
@[simp] theorem sram_upd_cores (s : State) (k : Nat) (v : Byte) : (applyUpd (.sram k v) s).cores = s.cores := rfl
@[simp] theorem sram_upd_engines (s : State) (k : Nat) (v : Byte) : (applyUpd (.sram k v) s).engines = s.engines := rfl
@[simp] theorem sram_upd_held (s : State) (k : Nat) (v : Byte) : (applyUpd (.sram k v) s).held = s.held := rfl
@[simp] theorem sram_upd_watches (s : State) (k : Nat) (v : Byte) : (applyUpd (.sram k v) s).watches = s.watches := rfl
@[simp] theorem sram_upd_watchMsgs (s : State) (k : Nat) (v : Byte) : (applyUpd (.sram k v) s).watchMsgs = s.watchMsgs := rfl
@[simp] theorem sram_upd_bankHeld (s : State) (k : Nat) (v : Byte) : (applyUpd (.sram k v) s).bankHeld = s.bankHeld := rfl
@[simp] theorem sram_upd_bankTarget (s : State) (k : Nat) (v : Byte) : (applyUpd (.sram k v) s).bankTarget = s.bankTarget := rfl
@[simp] theorem sram_upd_ecc (s : State) (k : Nat) (v : Byte) : (applyUpd (.sram k v) s).ecc = s.ecc := rfl
@[simp] theorem sram_upd_lineEcc (s : State) (k : Nat) (v : Byte) : (applyUpd (.sram k v) s).lineEcc = s.lineEcc := rfl
@[simp] theorem sram_upd_wbPending (s : State) (k : Nat) (v : Byte) : (applyUpd (.sram k v) s).wbPending = s.wbPending := rfl
@[simp] theorem sram_upd_scrubPos (s : State) (k : Nat) (v : Byte) : (applyUpd (.sram k v) s).scrubPos = s.scrubPos := rfl
@[simp] theorem sram_upd_refusals (s : State) (k : Nat) (v : Byte) : (applyUpd (.sram k v) s).refusals = s.refusals := rfl
@[simp] theorem sram_upd_firstRefusal (s : State) (k : Nat) (v : Byte) : (applyUpd (.sram k v) s).firstRefusal = s.firstRefusal := rfl
@[simp] theorem sram_upd_boxQueue (s : State) (k : Nat) (v : Byte) : (applyUpd (.sram k v) s).boxQueue = s.boxQueue := rfl
@[simp] theorem sram_upd_boxRun (s : State) (k : Nat) (v : Byte) : (applyUpd (.sram k v) s).boxRun = s.boxRun := rfl
@[simp] theorem sram_upd_kvs (s : State) (k : Nat) (v : Byte) : (applyUpd (.sram k v) s).kvs = s.kvs := rfl
@[simp] theorem sram_upd_parts (s : State) (k : Nat) (v : Byte) : (applyUpd (.sram k v) s).parts = s.parts := rfl
@[simp] theorem sram_upd_dmas (s : State) (k : Nat) (v : Byte) : (applyUpd (.sram k v) s).dmas = s.dmas := rfl
@[simp] theorem sram_upd_regReqs (s : State) (k : Nat) (v : Byte) : (applyUpd (.sram k v) s).regReqs = s.regReqs := rfl
@[simp] theorem sram_upd_regPorts (s : State) (k : Nat) (v : Byte) : (applyUpd (.sram k v) s).regPorts = s.regPorts := rfl
@[simp] theorem sram_upd_subchs (s : State) (k : Nat) (v : Byte) : (applyUpd (.sram k v) s).subchs = s.subchs := rfl
@[simp] theorem sram_upd_trackers (s : State) (k : Nat) (v : Byte) : (applyUpd (.sram k v) s).trackers = s.trackers := rfl
@[simp] theorem sram_upd_throttles (s : State) (k : Nat) (v : Byte) : (applyUpd (.sram k v) s).throttles = s.throttles := rfl
@[simp] theorem sram_upd_errRing (s : State) (k : Nat) (v : Byte) : (applyUpd (.sram k v) s).errRing = s.errRing := rfl
@[simp] theorem sram_upd_errRingOvf (s : State) (k : Nat) (v : Byte) : (applyUpd (.sram k v) s).errRingOvf = s.errRingOvf := rfl
@[simp] theorem sram_upd_patrolLine (s : State) (k : Nat) (v : Byte) : (applyUpd (.sram k v) s).patrolLine = s.patrolLine := rfl
@[simp] theorem sram_upd_retTimes (s : State) (k : Nat) (v : Byte) : (applyUpd (.sram k v) s).retTimes = s.retTimes := rfl
@[simp] theorem sram_upd_retired (s : State) (k : Nat) (v : Byte) : (applyUpd (.sram k v) s).retired = s.retired := rfl
@[simp] theorem sram_upd_dramSeq (s : State) (k : Nat) (v : Byte) : (applyUpd (.sram k v) s).dramSeq = s.dramSeq := rfl
@[simp] theorem sram_upd_trn (s : State) (k : Nat) (v : Byte) : (applyUpd (.sram k v) s).trn = s.trn := rfl
@[simp] theorem sram_upd_dqsAdj (s : State) (k : Nat) (v : Byte) : (applyUpd (.sram k v) s).dqsAdj = s.dqsAdj := rfl
@[simp] theorem sram_upd_dpol (s : State) (k : Nat) (v : Byte) : (applyUpd (.sram k v) s).dpol = s.dpol := rfl
@[simp] theorem sram_upd_idleAt (s : State) (k : Nat) (v : Byte) : (applyUpd (.sram k v) s).idleAt = s.idleAt := rfl
@[simp] theorem sram_upd_fitted (s : State) (k : Nat) (v : Byte) : (applyUpd (.sram k v) s).fitted = s.fitted := rfl
@[simp] theorem sram_upd_faultMsgs (s : State) (k : Nat) (v : Byte) : (applyUpd (.sram k v) s).faultMsgs = s.faultMsgs := rfl
@[simp] theorem sram_upd_out (s : State) (k : Nat) (v : Byte) : (applyUpd (.sram k v) s).out = s.out := rfl
@[simp] theorem sram_upd_lastRead (s : State) (k : Nat) (v : Byte) : (applyUpd (.sram k v) s).lastRead = s.lastRead := rfl
@[simp] theorem sram_upd_fwd (s : State) (k : Nat) (v : Byte) : (applyUpd (.sram k v) s).fwd = s.fwd := rfl
@[simp] theorem sram_upd_ethTx (s : State) (k : Nat) (v : Byte) : (applyUpd (.sram k v) s).ethTx = s.ethTx := rfl
@[simp] theorem sram_upd_ethHeadAt (s : State) (k : Nat) (v : Byte) : (applyUpd (.sram k v) s).ethHeadAt = s.ethHeadAt := rfl
@[simp] theorem sram_upd_canTx (s : State) (k : Nat) (v : Byte) : (applyUpd (.sram k v) s).canTx = s.canTx := rfl
@[simp] theorem sram_upd_pcieOut (s : State) (k : Nat) (v : Byte) : (applyUpd (.sram k v) s).pcieOut = s.pcieOut := rfl
@[simp] theorem sram_upd_pcieCfgRd (s : State) (k : Nat) (v : Byte) : (applyUpd (.sram k v) s).pcieCfgRd = s.pcieCfgRd := rfl
@[simp] theorem sram_upd_msix (s : State) (k : Nat) (v : Byte) : (applyUpd (.sram k v) s).msix = s.msix := rfl
@[simp] theorem sram_upd_ancs (s : State) (k : Nat) (v : Byte) : (applyUpd (.sram k v) s).ancs = s.ancs := rfl
@[simp] theorem sram_upd_trajArea (s : State) (k : Nat) (v : Byte) : (applyUpd (.sram k v) s).trajArea = s.trajArea := rfl
@[simp] theorem sram_upd_lidarIn (s : State) (k : Nat) (v : Byte) : (applyUpd (.sram k v) s).lidarIn = s.lidarIn := rfl
@[simp] theorem sram_upd_wheelIn (s : State) (k : Nat) (v : Byte) : (applyUpd (.sram k v) s).wheelIn = s.wheelIn := rfl
@[simp] theorem sram_upd_spiStepBusy (s : State) (k : Nat) (v : Byte) : (applyUpd (.sram k v) s).spiStepBusy = s.spiStepBusy := rfl
@[simp] theorem sram_upd_spiRec (s : State) (k : Nat) (v : Byte) : (applyUpd (.sram k v) s).spiRec = s.spiRec := rfl
@[simp] theorem sram_upd_spiStepCfg (s : State) (k : Nat) (v : Byte) : (applyUpd (.sram k v) s).spiStepCfg = s.spiStepCfg := rfl
@[simp] theorem sram_upd_ctxs (s : State) (k : Nat) (v : Byte) : (applyUpd (.sram k v) s).ctxs = s.ctxs := rfl
@[simp] theorem sram_upd_fsyOmit (s : State) (k : Nat) (v : Byte) : (applyUpd (.sram k v) s).fsyOmit = s.fsyOmit := rfl
@[simp] theorem sram_upd_fsyPulsed (s : State) (k : Nat) (v : Byte) : (applyUpd (.sram k v) s).fsyPulsed = s.fsyPulsed := rfl
@[simp] theorem sram_upd_supTasks (s : State) (k : Nat) (v : Byte) : (applyUpd (.sram k v) s).supTasks = s.supTasks := rfl
@[simp] theorem sram_upd_fus (s : State) (k : Nat) (v : Byte) : (applyUpd (.sram k v) s).fus = s.fus := rfl
@[simp] theorem sram_upd_fcons (s : State) (k : Nat) (v : Byte) : (applyUpd (.sram k v) s).fcons = s.fcons := rfl
@[simp] theorem sram_upd_shadow (s : State) (k : Nat) (v : Byte) : (applyUpd (.sram k v) s).shadow = s.shadow := rfl
@[simp] theorem sram_upd_trv (s : State) (k : Nat) (v : Byte) : (applyUpd (.sram k v) s).trv = s.trv := rfl
@[simp] theorem sram_upd_tlayers (s : State) (k : Nat) (v : Byte) : (applyUpd (.sram k v) s).tlayers = s.tlayers := rfl
@[simp] theorem sram_upd_jobFaults (s : State) (k : Nat) (v : Byte) : (applyUpd (.sram k v) s).jobFaults = s.jobFaults := rfl
@[simp] theorem sram_upd_unitLast (s : State) (k : Nat) (v : Byte) : (applyUpd (.sram k v) s).unitLast = s.unitLast := rfl
@[simp] theorem sram_upd_unitRst (s : State) (k : Nat) (v : Byte) : (applyUpd (.sram k v) s).unitRst = s.unitRst := rfl
@[simp] theorem sram_upd_xlink (s : State) (k : Nat) (v : Byte) : (applyUpd (.sram k v) s).xlink = s.xlink := rfl
@[simp] theorem sram_upd_trace (s : State) (k : Nat) (v : Byte) : (applyUpd (.sram k v) s).trace = s.trace := rfl
@[simp] theorem sram_upd_progs (s : State) (k : Nat) (v : Byte) : (applyUpd (.sram k v) s).progs = s.progs := rfl
@[simp] theorem sram_upd_rails (s : State) (k : Nat) (v : Byte) : (applyUpd (.sram k v) s).rails = s.rails := rfl
@[simp] theorem sram_upd_thm (s : State) (k : Nat) (v : Byte) : (applyUpd (.sram k v) s).thm = s.thm := rfl
@[simp] theorem sram_upd_bnd (s : State) (k : Nat) (v : Byte) : (applyUpd (.sram k v) s).bnd = s.bnd := rfl
@[simp] theorem sram_upd_thmTrip (s : State) (k : Nat) (v : Byte) : (applyUpd (.sram k v) s).thmTrip = s.thmTrip := rfl
@[simp] theorem sram_upd_flash (s : State) (k : Nat) (v : Byte) : (applyUpd (.sram k v) s).flash = s.flash := rfl
@[simp] theorem sram_upd_slots (s : State) (k : Nat) (v : Byte) : (applyUpd (.sram k v) s).slots = s.slots := rfl
@[simp] theorem sram_upd_stores (s : State) (k : Nat) (v : Byte) : (applyUpd (.sram k v) s).stores = s.stores := rfl
@[simp] theorem sram_upd_ids (s : State) (k : Nat) (v : Byte) : (applyUpd (.sram k v) s).ids = s.ids := rfl
@[simp] theorem sram_upd_boot (s : State) (k : Nat) (v : Byte) : (applyUpd (.sram k v) s).boot = s.boot := rfl
@[simp] theorem sram_upd_load (s : State) (k : Nat) (v : Byte) : (applyUpd (.sram k v) s).load = s.load := rfl
@[simp] theorem sram_upd_flt (s : State) (k : Nat) (v : Byte) : (applyUpd (.sram k v) s).flt = s.flt := rfl
@[simp] theorem sram_upd_mon (s : State) (k : Nat) (v : Byte) : (applyUpd (.sram k v) s).mon = s.mon := rfl
@[simp] theorem time_upd_pending (s : State) (v : Nat) : (applyUpd (.time v) s).pending = s.pending := rfl
@[simp] theorem time_upd_regs (s : State) (v : Nat) : (applyUpd (.time v) s).regs = s.regs := rfl
@[simp] theorem time_upd_mem (s : State) (v : Nat) : (applyUpd (.time v) s).mem = s.mem := rfl
@[simp] theorem time_upd_sram (s : State) (v : Nat) : (applyUpd (.time v) s).sram = s.sram := rfl
@[simp] theorem time_upd_time (s : State) (v : Nat) : (applyUpd (.time v) s).time = v := rfl
@[simp] theorem time_upd_timeFrac (s : State) (v : Nat) : (applyUpd (.time v) s).timeFrac = s.timeFrac := rfl
@[simp] theorem time_upd_freeCtr (s : State) (v : Nat) : (applyUpd (.time v) s).freeCtr = s.freeCtr := rfl
@[simp] theorem time_upd_hiLatch (s : State) (v : Nat) : (applyUpd (.time v) s).hiLatch = s.hiLatch := rfl
@[simp] theorem time_upd_timeSet (s : State) (v : Nat) : (applyUpd (.time v) s).timeSet = s.timeSet := rfl
@[simp] theorem time_upd_n0 (s : State) (v : Nat) : (applyUpd (.time v) s).n0 = s.n0 := rfl
@[simp] theorem time_upd_ticked (s : State) (v : Nat) : (applyUpd (.time v) s).ticked = s.ticked := rfl
@[simp] theorem time_upd_peerTickAt (s : State) (v : Nat) : (applyUpd (.time v) s).peerTickAt = s.peerTickAt := rfl
@[simp] theorem time_upd_guardPitch (s : State) (v : Nat) : (applyUpd (.time v) s).guardPitch = s.guardPitch := rfl
@[simp] theorem time_upd_diePitch (s : State) (v : Nat) : (applyUpd (.time v) s).diePitch = s.diePitch := rfl
@[simp] theorem time_upd_resps (s : State) (v : Nat) : (applyUpd (.time v) s).resps = s.resps := rfl
@[simp] theorem time_upd_txns (s : State) (v : Nat) : (applyUpd (.time v) s).txns = s.txns := rfl
@[simp] theorem time_upd_nextTag (s : State) (v : Nat) : (applyUpd (.time v) s).nextTag = s.nextTag := rfl
@[simp] theorem time_upd_lateTags (s : State) (v : Nat) : (applyUpd (.time v) s).lateTags = s.lateTags := rfl
@[simp] theorem time_upd_ports (s : State) (v : Nat) : (applyUpd (.time v) s).ports = s.ports := rfl
@[simp] theorem time_upd_threads (s : State) (v : Nat) : (applyUpd (.time v) s).threads = s.threads := rfl
@[simp] theorem time_upd_cores (s : State) (v : Nat) : (applyUpd (.time v) s).cores = s.cores := rfl
@[simp] theorem time_upd_engines (s : State) (v : Nat) : (applyUpd (.time v) s).engines = s.engines := rfl
@[simp] theorem time_upd_held (s : State) (v : Nat) : (applyUpd (.time v) s).held = s.held := rfl
@[simp] theorem time_upd_watches (s : State) (v : Nat) : (applyUpd (.time v) s).watches = s.watches := rfl
@[simp] theorem time_upd_watchMsgs (s : State) (v : Nat) : (applyUpd (.time v) s).watchMsgs = s.watchMsgs := rfl
@[simp] theorem time_upd_bankHeld (s : State) (v : Nat) : (applyUpd (.time v) s).bankHeld = s.bankHeld := rfl
@[simp] theorem time_upd_bankTarget (s : State) (v : Nat) : (applyUpd (.time v) s).bankTarget = s.bankTarget := rfl
@[simp] theorem time_upd_ecc (s : State) (v : Nat) : (applyUpd (.time v) s).ecc = s.ecc := rfl
@[simp] theorem time_upd_lineEcc (s : State) (v : Nat) : (applyUpd (.time v) s).lineEcc = s.lineEcc := rfl
@[simp] theorem time_upd_wbPending (s : State) (v : Nat) : (applyUpd (.time v) s).wbPending = s.wbPending := rfl
@[simp] theorem time_upd_scrubPos (s : State) (v : Nat) : (applyUpd (.time v) s).scrubPos = s.scrubPos := rfl
@[simp] theorem time_upd_refusals (s : State) (v : Nat) : (applyUpd (.time v) s).refusals = s.refusals := rfl
@[simp] theorem time_upd_firstRefusal (s : State) (v : Nat) : (applyUpd (.time v) s).firstRefusal = s.firstRefusal := rfl
@[simp] theorem time_upd_boxQueue (s : State) (v : Nat) : (applyUpd (.time v) s).boxQueue = s.boxQueue := rfl
@[simp] theorem time_upd_boxRun (s : State) (v : Nat) : (applyUpd (.time v) s).boxRun = s.boxRun := rfl
@[simp] theorem time_upd_kvs (s : State) (v : Nat) : (applyUpd (.time v) s).kvs = s.kvs := rfl
@[simp] theorem time_upd_parts (s : State) (v : Nat) : (applyUpd (.time v) s).parts = s.parts := rfl
@[simp] theorem time_upd_dmas (s : State) (v : Nat) : (applyUpd (.time v) s).dmas = s.dmas := rfl
@[simp] theorem time_upd_regReqs (s : State) (v : Nat) : (applyUpd (.time v) s).regReqs = s.regReqs := rfl
@[simp] theorem time_upd_regPorts (s : State) (v : Nat) : (applyUpd (.time v) s).regPorts = s.regPorts := rfl
@[simp] theorem time_upd_subchs (s : State) (v : Nat) : (applyUpd (.time v) s).subchs = s.subchs := rfl
@[simp] theorem time_upd_trackers (s : State) (v : Nat) : (applyUpd (.time v) s).trackers = s.trackers := rfl
@[simp] theorem time_upd_throttles (s : State) (v : Nat) : (applyUpd (.time v) s).throttles = s.throttles := rfl
@[simp] theorem time_upd_errRing (s : State) (v : Nat) : (applyUpd (.time v) s).errRing = s.errRing := rfl
@[simp] theorem time_upd_errRingOvf (s : State) (v : Nat) : (applyUpd (.time v) s).errRingOvf = s.errRingOvf := rfl
@[simp] theorem time_upd_patrolLine (s : State) (v : Nat) : (applyUpd (.time v) s).patrolLine = s.patrolLine := rfl
@[simp] theorem time_upd_retTimes (s : State) (v : Nat) : (applyUpd (.time v) s).retTimes = s.retTimes := rfl
@[simp] theorem time_upd_retired (s : State) (v : Nat) : (applyUpd (.time v) s).retired = s.retired := rfl
@[simp] theorem time_upd_dramSeq (s : State) (v : Nat) : (applyUpd (.time v) s).dramSeq = s.dramSeq := rfl
@[simp] theorem time_upd_trn (s : State) (v : Nat) : (applyUpd (.time v) s).trn = s.trn := rfl
@[simp] theorem time_upd_dqsAdj (s : State) (v : Nat) : (applyUpd (.time v) s).dqsAdj = s.dqsAdj := rfl
@[simp] theorem time_upd_dpol (s : State) (v : Nat) : (applyUpd (.time v) s).dpol = s.dpol := rfl
@[simp] theorem time_upd_idleAt (s : State) (v : Nat) : (applyUpd (.time v) s).idleAt = s.idleAt := rfl
@[simp] theorem time_upd_fitted (s : State) (v : Nat) : (applyUpd (.time v) s).fitted = s.fitted := rfl
@[simp] theorem time_upd_faultMsgs (s : State) (v : Nat) : (applyUpd (.time v) s).faultMsgs = s.faultMsgs := rfl
@[simp] theorem time_upd_out (s : State) (v : Nat) : (applyUpd (.time v) s).out = s.out := rfl
@[simp] theorem time_upd_lastRead (s : State) (v : Nat) : (applyUpd (.time v) s).lastRead = s.lastRead := rfl
@[simp] theorem time_upd_fwd (s : State) (v : Nat) : (applyUpd (.time v) s).fwd = s.fwd := rfl
@[simp] theorem time_upd_ethTx (s : State) (v : Nat) : (applyUpd (.time v) s).ethTx = s.ethTx := rfl
@[simp] theorem time_upd_ethHeadAt (s : State) (v : Nat) : (applyUpd (.time v) s).ethHeadAt = s.ethHeadAt := rfl
@[simp] theorem time_upd_canTx (s : State) (v : Nat) : (applyUpd (.time v) s).canTx = s.canTx := rfl
@[simp] theorem time_upd_pcieOut (s : State) (v : Nat) : (applyUpd (.time v) s).pcieOut = s.pcieOut := rfl
@[simp] theorem time_upd_pcieCfgRd (s : State) (v : Nat) : (applyUpd (.time v) s).pcieCfgRd = s.pcieCfgRd := rfl
@[simp] theorem time_upd_msix (s : State) (v : Nat) : (applyUpd (.time v) s).msix = s.msix := rfl
@[simp] theorem time_upd_ancs (s : State) (v : Nat) : (applyUpd (.time v) s).ancs = s.ancs := rfl
@[simp] theorem time_upd_trajArea (s : State) (v : Nat) : (applyUpd (.time v) s).trajArea = s.trajArea := rfl
@[simp] theorem time_upd_lidarIn (s : State) (v : Nat) : (applyUpd (.time v) s).lidarIn = s.lidarIn := rfl
@[simp] theorem time_upd_wheelIn (s : State) (v : Nat) : (applyUpd (.time v) s).wheelIn = s.wheelIn := rfl
@[simp] theorem time_upd_spiStepBusy (s : State) (v : Nat) : (applyUpd (.time v) s).spiStepBusy = s.spiStepBusy := rfl
@[simp] theorem time_upd_spiRec (s : State) (v : Nat) : (applyUpd (.time v) s).spiRec = s.spiRec := rfl
@[simp] theorem time_upd_spiStepCfg (s : State) (v : Nat) : (applyUpd (.time v) s).spiStepCfg = s.spiStepCfg := rfl
@[simp] theorem time_upd_ctxs (s : State) (v : Nat) : (applyUpd (.time v) s).ctxs = s.ctxs := rfl
@[simp] theorem time_upd_fsyOmit (s : State) (v : Nat) : (applyUpd (.time v) s).fsyOmit = s.fsyOmit := rfl
@[simp] theorem time_upd_fsyPulsed (s : State) (v : Nat) : (applyUpd (.time v) s).fsyPulsed = s.fsyPulsed := rfl
@[simp] theorem time_upd_supTasks (s : State) (v : Nat) : (applyUpd (.time v) s).supTasks = s.supTasks := rfl
@[simp] theorem time_upd_fus (s : State) (v : Nat) : (applyUpd (.time v) s).fus = s.fus := rfl
@[simp] theorem time_upd_fcons (s : State) (v : Nat) : (applyUpd (.time v) s).fcons = s.fcons := rfl
@[simp] theorem time_upd_shadow (s : State) (v : Nat) : (applyUpd (.time v) s).shadow = s.shadow := rfl
@[simp] theorem time_upd_trv (s : State) (v : Nat) : (applyUpd (.time v) s).trv = s.trv := rfl
@[simp] theorem time_upd_tlayers (s : State) (v : Nat) : (applyUpd (.time v) s).tlayers = s.tlayers := rfl
@[simp] theorem time_upd_jobFaults (s : State) (v : Nat) : (applyUpd (.time v) s).jobFaults = s.jobFaults := rfl
@[simp] theorem time_upd_unitLast (s : State) (v : Nat) : (applyUpd (.time v) s).unitLast = s.unitLast := rfl
@[simp] theorem time_upd_unitRst (s : State) (v : Nat) : (applyUpd (.time v) s).unitRst = s.unitRst := rfl
@[simp] theorem time_upd_xlink (s : State) (v : Nat) : (applyUpd (.time v) s).xlink = s.xlink := rfl
@[simp] theorem time_upd_trace (s : State) (v : Nat) : (applyUpd (.time v) s).trace = s.trace := rfl
@[simp] theorem time_upd_progs (s : State) (v : Nat) : (applyUpd (.time v) s).progs = s.progs := rfl
@[simp] theorem time_upd_rails (s : State) (v : Nat) : (applyUpd (.time v) s).rails = s.rails := rfl
@[simp] theorem time_upd_thm (s : State) (v : Nat) : (applyUpd (.time v) s).thm = s.thm := rfl
@[simp] theorem time_upd_bnd (s : State) (v : Nat) : (applyUpd (.time v) s).bnd = s.bnd := rfl
@[simp] theorem time_upd_thmTrip (s : State) (v : Nat) : (applyUpd (.time v) s).thmTrip = s.thmTrip := rfl
@[simp] theorem time_upd_flash (s : State) (v : Nat) : (applyUpd (.time v) s).flash = s.flash := rfl
@[simp] theorem time_upd_slots (s : State) (v : Nat) : (applyUpd (.time v) s).slots = s.slots := rfl
@[simp] theorem time_upd_stores (s : State) (v : Nat) : (applyUpd (.time v) s).stores = s.stores := rfl
@[simp] theorem time_upd_ids (s : State) (v : Nat) : (applyUpd (.time v) s).ids = s.ids := rfl
@[simp] theorem time_upd_boot (s : State) (v : Nat) : (applyUpd (.time v) s).boot = s.boot := rfl
@[simp] theorem time_upd_load (s : State) (v : Nat) : (applyUpd (.time v) s).load = s.load := rfl
@[simp] theorem time_upd_flt (s : State) (v : Nat) : (applyUpd (.time v) s).flt = s.flt := rfl
@[simp] theorem time_upd_mon (s : State) (v : Nat) : (applyUpd (.time v) s).mon = s.mon := rfl
@[simp] theorem timeFrac_upd_pending (s : State) (v : Nat) : (applyUpd (.timeFrac v) s).pending = s.pending := rfl
@[simp] theorem timeFrac_upd_regs (s : State) (v : Nat) : (applyUpd (.timeFrac v) s).regs = s.regs := rfl
@[simp] theorem timeFrac_upd_mem (s : State) (v : Nat) : (applyUpd (.timeFrac v) s).mem = s.mem := rfl
@[simp] theorem timeFrac_upd_sram (s : State) (v : Nat) : (applyUpd (.timeFrac v) s).sram = s.sram := rfl
@[simp] theorem timeFrac_upd_time (s : State) (v : Nat) : (applyUpd (.timeFrac v) s).time = s.time := rfl
@[simp] theorem timeFrac_upd_timeFrac (s : State) (v : Nat) : (applyUpd (.timeFrac v) s).timeFrac = v := rfl
@[simp] theorem timeFrac_upd_freeCtr (s : State) (v : Nat) : (applyUpd (.timeFrac v) s).freeCtr = s.freeCtr := rfl
@[simp] theorem timeFrac_upd_hiLatch (s : State) (v : Nat) : (applyUpd (.timeFrac v) s).hiLatch = s.hiLatch := rfl
@[simp] theorem timeFrac_upd_timeSet (s : State) (v : Nat) : (applyUpd (.timeFrac v) s).timeSet = s.timeSet := rfl
@[simp] theorem timeFrac_upd_n0 (s : State) (v : Nat) : (applyUpd (.timeFrac v) s).n0 = s.n0 := rfl
@[simp] theorem timeFrac_upd_ticked (s : State) (v : Nat) : (applyUpd (.timeFrac v) s).ticked = s.ticked := rfl
@[simp] theorem timeFrac_upd_peerTickAt (s : State) (v : Nat) : (applyUpd (.timeFrac v) s).peerTickAt = s.peerTickAt := rfl
@[simp] theorem timeFrac_upd_guardPitch (s : State) (v : Nat) : (applyUpd (.timeFrac v) s).guardPitch = s.guardPitch := rfl
@[simp] theorem timeFrac_upd_diePitch (s : State) (v : Nat) : (applyUpd (.timeFrac v) s).diePitch = s.diePitch := rfl
@[simp] theorem timeFrac_upd_resps (s : State) (v : Nat) : (applyUpd (.timeFrac v) s).resps = s.resps := rfl
@[simp] theorem timeFrac_upd_txns (s : State) (v : Nat) : (applyUpd (.timeFrac v) s).txns = s.txns := rfl
@[simp] theorem timeFrac_upd_nextTag (s : State) (v : Nat) : (applyUpd (.timeFrac v) s).nextTag = s.nextTag := rfl
@[simp] theorem timeFrac_upd_lateTags (s : State) (v : Nat) : (applyUpd (.timeFrac v) s).lateTags = s.lateTags := rfl
@[simp] theorem timeFrac_upd_ports (s : State) (v : Nat) : (applyUpd (.timeFrac v) s).ports = s.ports := rfl
@[simp] theorem timeFrac_upd_threads (s : State) (v : Nat) : (applyUpd (.timeFrac v) s).threads = s.threads := rfl
@[simp] theorem timeFrac_upd_cores (s : State) (v : Nat) : (applyUpd (.timeFrac v) s).cores = s.cores := rfl
@[simp] theorem timeFrac_upd_engines (s : State) (v : Nat) : (applyUpd (.timeFrac v) s).engines = s.engines := rfl
@[simp] theorem timeFrac_upd_held (s : State) (v : Nat) : (applyUpd (.timeFrac v) s).held = s.held := rfl
@[simp] theorem timeFrac_upd_watches (s : State) (v : Nat) : (applyUpd (.timeFrac v) s).watches = s.watches := rfl
@[simp] theorem timeFrac_upd_watchMsgs (s : State) (v : Nat) : (applyUpd (.timeFrac v) s).watchMsgs = s.watchMsgs := rfl
@[simp] theorem timeFrac_upd_bankHeld (s : State) (v : Nat) : (applyUpd (.timeFrac v) s).bankHeld = s.bankHeld := rfl
@[simp] theorem timeFrac_upd_bankTarget (s : State) (v : Nat) : (applyUpd (.timeFrac v) s).bankTarget = s.bankTarget := rfl
@[simp] theorem timeFrac_upd_ecc (s : State) (v : Nat) : (applyUpd (.timeFrac v) s).ecc = s.ecc := rfl
@[simp] theorem timeFrac_upd_lineEcc (s : State) (v : Nat) : (applyUpd (.timeFrac v) s).lineEcc = s.lineEcc := rfl
@[simp] theorem timeFrac_upd_wbPending (s : State) (v : Nat) : (applyUpd (.timeFrac v) s).wbPending = s.wbPending := rfl
@[simp] theorem timeFrac_upd_scrubPos (s : State) (v : Nat) : (applyUpd (.timeFrac v) s).scrubPos = s.scrubPos := rfl
@[simp] theorem timeFrac_upd_refusals (s : State) (v : Nat) : (applyUpd (.timeFrac v) s).refusals = s.refusals := rfl
@[simp] theorem timeFrac_upd_firstRefusal (s : State) (v : Nat) : (applyUpd (.timeFrac v) s).firstRefusal = s.firstRefusal := rfl
@[simp] theorem timeFrac_upd_boxQueue (s : State) (v : Nat) : (applyUpd (.timeFrac v) s).boxQueue = s.boxQueue := rfl
@[simp] theorem timeFrac_upd_boxRun (s : State) (v : Nat) : (applyUpd (.timeFrac v) s).boxRun = s.boxRun := rfl
@[simp] theorem timeFrac_upd_kvs (s : State) (v : Nat) : (applyUpd (.timeFrac v) s).kvs = s.kvs := rfl
@[simp] theorem timeFrac_upd_parts (s : State) (v : Nat) : (applyUpd (.timeFrac v) s).parts = s.parts := rfl
@[simp] theorem timeFrac_upd_dmas (s : State) (v : Nat) : (applyUpd (.timeFrac v) s).dmas = s.dmas := rfl
@[simp] theorem timeFrac_upd_regReqs (s : State) (v : Nat) : (applyUpd (.timeFrac v) s).regReqs = s.regReqs := rfl
@[simp] theorem timeFrac_upd_regPorts (s : State) (v : Nat) : (applyUpd (.timeFrac v) s).regPorts = s.regPorts := rfl
@[simp] theorem timeFrac_upd_subchs (s : State) (v : Nat) : (applyUpd (.timeFrac v) s).subchs = s.subchs := rfl
@[simp] theorem timeFrac_upd_trackers (s : State) (v : Nat) : (applyUpd (.timeFrac v) s).trackers = s.trackers := rfl
@[simp] theorem timeFrac_upd_throttles (s : State) (v : Nat) : (applyUpd (.timeFrac v) s).throttles = s.throttles := rfl
@[simp] theorem timeFrac_upd_errRing (s : State) (v : Nat) : (applyUpd (.timeFrac v) s).errRing = s.errRing := rfl
@[simp] theorem timeFrac_upd_errRingOvf (s : State) (v : Nat) : (applyUpd (.timeFrac v) s).errRingOvf = s.errRingOvf := rfl
@[simp] theorem timeFrac_upd_patrolLine (s : State) (v : Nat) : (applyUpd (.timeFrac v) s).patrolLine = s.patrolLine := rfl
@[simp] theorem timeFrac_upd_retTimes (s : State) (v : Nat) : (applyUpd (.timeFrac v) s).retTimes = s.retTimes := rfl
@[simp] theorem timeFrac_upd_retired (s : State) (v : Nat) : (applyUpd (.timeFrac v) s).retired = s.retired := rfl
@[simp] theorem timeFrac_upd_dramSeq (s : State) (v : Nat) : (applyUpd (.timeFrac v) s).dramSeq = s.dramSeq := rfl
@[simp] theorem timeFrac_upd_trn (s : State) (v : Nat) : (applyUpd (.timeFrac v) s).trn = s.trn := rfl
@[simp] theorem timeFrac_upd_dqsAdj (s : State) (v : Nat) : (applyUpd (.timeFrac v) s).dqsAdj = s.dqsAdj := rfl
@[simp] theorem timeFrac_upd_dpol (s : State) (v : Nat) : (applyUpd (.timeFrac v) s).dpol = s.dpol := rfl
@[simp] theorem timeFrac_upd_idleAt (s : State) (v : Nat) : (applyUpd (.timeFrac v) s).idleAt = s.idleAt := rfl
@[simp] theorem timeFrac_upd_fitted (s : State) (v : Nat) : (applyUpd (.timeFrac v) s).fitted = s.fitted := rfl
@[simp] theorem timeFrac_upd_faultMsgs (s : State) (v : Nat) : (applyUpd (.timeFrac v) s).faultMsgs = s.faultMsgs := rfl
@[simp] theorem timeFrac_upd_out (s : State) (v : Nat) : (applyUpd (.timeFrac v) s).out = s.out := rfl
@[simp] theorem timeFrac_upd_lastRead (s : State) (v : Nat) : (applyUpd (.timeFrac v) s).lastRead = s.lastRead := rfl
@[simp] theorem timeFrac_upd_fwd (s : State) (v : Nat) : (applyUpd (.timeFrac v) s).fwd = s.fwd := rfl
@[simp] theorem timeFrac_upd_ethTx (s : State) (v : Nat) : (applyUpd (.timeFrac v) s).ethTx = s.ethTx := rfl
@[simp] theorem timeFrac_upd_ethHeadAt (s : State) (v : Nat) : (applyUpd (.timeFrac v) s).ethHeadAt = s.ethHeadAt := rfl
@[simp] theorem timeFrac_upd_canTx (s : State) (v : Nat) : (applyUpd (.timeFrac v) s).canTx = s.canTx := rfl
@[simp] theorem timeFrac_upd_pcieOut (s : State) (v : Nat) : (applyUpd (.timeFrac v) s).pcieOut = s.pcieOut := rfl
@[simp] theorem timeFrac_upd_pcieCfgRd (s : State) (v : Nat) : (applyUpd (.timeFrac v) s).pcieCfgRd = s.pcieCfgRd := rfl
@[simp] theorem timeFrac_upd_msix (s : State) (v : Nat) : (applyUpd (.timeFrac v) s).msix = s.msix := rfl
@[simp] theorem timeFrac_upd_ancs (s : State) (v : Nat) : (applyUpd (.timeFrac v) s).ancs = s.ancs := rfl
@[simp] theorem timeFrac_upd_trajArea (s : State) (v : Nat) : (applyUpd (.timeFrac v) s).trajArea = s.trajArea := rfl
@[simp] theorem timeFrac_upd_lidarIn (s : State) (v : Nat) : (applyUpd (.timeFrac v) s).lidarIn = s.lidarIn := rfl
@[simp] theorem timeFrac_upd_wheelIn (s : State) (v : Nat) : (applyUpd (.timeFrac v) s).wheelIn = s.wheelIn := rfl
@[simp] theorem timeFrac_upd_spiStepBusy (s : State) (v : Nat) : (applyUpd (.timeFrac v) s).spiStepBusy = s.spiStepBusy := rfl
@[simp] theorem timeFrac_upd_spiRec (s : State) (v : Nat) : (applyUpd (.timeFrac v) s).spiRec = s.spiRec := rfl
@[simp] theorem timeFrac_upd_spiStepCfg (s : State) (v : Nat) : (applyUpd (.timeFrac v) s).spiStepCfg = s.spiStepCfg := rfl
@[simp] theorem timeFrac_upd_ctxs (s : State) (v : Nat) : (applyUpd (.timeFrac v) s).ctxs = s.ctxs := rfl
@[simp] theorem timeFrac_upd_fsyOmit (s : State) (v : Nat) : (applyUpd (.timeFrac v) s).fsyOmit = s.fsyOmit := rfl
@[simp] theorem timeFrac_upd_fsyPulsed (s : State) (v : Nat) : (applyUpd (.timeFrac v) s).fsyPulsed = s.fsyPulsed := rfl
@[simp] theorem timeFrac_upd_supTasks (s : State) (v : Nat) : (applyUpd (.timeFrac v) s).supTasks = s.supTasks := rfl
@[simp] theorem timeFrac_upd_fus (s : State) (v : Nat) : (applyUpd (.timeFrac v) s).fus = s.fus := rfl
@[simp] theorem timeFrac_upd_fcons (s : State) (v : Nat) : (applyUpd (.timeFrac v) s).fcons = s.fcons := rfl
@[simp] theorem timeFrac_upd_shadow (s : State) (v : Nat) : (applyUpd (.timeFrac v) s).shadow = s.shadow := rfl
@[simp] theorem timeFrac_upd_trv (s : State) (v : Nat) : (applyUpd (.timeFrac v) s).trv = s.trv := rfl
@[simp] theorem timeFrac_upd_tlayers (s : State) (v : Nat) : (applyUpd (.timeFrac v) s).tlayers = s.tlayers := rfl
@[simp] theorem timeFrac_upd_jobFaults (s : State) (v : Nat) : (applyUpd (.timeFrac v) s).jobFaults = s.jobFaults := rfl
@[simp] theorem timeFrac_upd_unitLast (s : State) (v : Nat) : (applyUpd (.timeFrac v) s).unitLast = s.unitLast := rfl
@[simp] theorem timeFrac_upd_unitRst (s : State) (v : Nat) : (applyUpd (.timeFrac v) s).unitRst = s.unitRst := rfl
@[simp] theorem timeFrac_upd_xlink (s : State) (v : Nat) : (applyUpd (.timeFrac v) s).xlink = s.xlink := rfl
@[simp] theorem timeFrac_upd_trace (s : State) (v : Nat) : (applyUpd (.timeFrac v) s).trace = s.trace := rfl
@[simp] theorem timeFrac_upd_progs (s : State) (v : Nat) : (applyUpd (.timeFrac v) s).progs = s.progs := rfl
@[simp] theorem timeFrac_upd_rails (s : State) (v : Nat) : (applyUpd (.timeFrac v) s).rails = s.rails := rfl
@[simp] theorem timeFrac_upd_thm (s : State) (v : Nat) : (applyUpd (.timeFrac v) s).thm = s.thm := rfl
@[simp] theorem timeFrac_upd_bnd (s : State) (v : Nat) : (applyUpd (.timeFrac v) s).bnd = s.bnd := rfl
@[simp] theorem timeFrac_upd_thmTrip (s : State) (v : Nat) : (applyUpd (.timeFrac v) s).thmTrip = s.thmTrip := rfl
@[simp] theorem timeFrac_upd_flash (s : State) (v : Nat) : (applyUpd (.timeFrac v) s).flash = s.flash := rfl
@[simp] theorem timeFrac_upd_slots (s : State) (v : Nat) : (applyUpd (.timeFrac v) s).slots = s.slots := rfl
@[simp] theorem timeFrac_upd_stores (s : State) (v : Nat) : (applyUpd (.timeFrac v) s).stores = s.stores := rfl
@[simp] theorem timeFrac_upd_ids (s : State) (v : Nat) : (applyUpd (.timeFrac v) s).ids = s.ids := rfl
@[simp] theorem timeFrac_upd_boot (s : State) (v : Nat) : (applyUpd (.timeFrac v) s).boot = s.boot := rfl
@[simp] theorem timeFrac_upd_load (s : State) (v : Nat) : (applyUpd (.timeFrac v) s).load = s.load := rfl
@[simp] theorem timeFrac_upd_flt (s : State) (v : Nat) : (applyUpd (.timeFrac v) s).flt = s.flt := rfl
@[simp] theorem timeFrac_upd_mon (s : State) (v : Nat) : (applyUpd (.timeFrac v) s).mon = s.mon := rfl
@[simp] theorem freeCtr_upd_pending (s : State) (v : Nat) : (applyUpd (.freeCtr v) s).pending = s.pending := rfl
@[simp] theorem freeCtr_upd_regs (s : State) (v : Nat) : (applyUpd (.freeCtr v) s).regs = s.regs := rfl
@[simp] theorem freeCtr_upd_mem (s : State) (v : Nat) : (applyUpd (.freeCtr v) s).mem = s.mem := rfl
@[simp] theorem freeCtr_upd_sram (s : State) (v : Nat) : (applyUpd (.freeCtr v) s).sram = s.sram := rfl
@[simp] theorem freeCtr_upd_time (s : State) (v : Nat) : (applyUpd (.freeCtr v) s).time = s.time := rfl
@[simp] theorem freeCtr_upd_timeFrac (s : State) (v : Nat) : (applyUpd (.freeCtr v) s).timeFrac = s.timeFrac := rfl
@[simp] theorem freeCtr_upd_freeCtr (s : State) (v : Nat) : (applyUpd (.freeCtr v) s).freeCtr = v := rfl
@[simp] theorem freeCtr_upd_hiLatch (s : State) (v : Nat) : (applyUpd (.freeCtr v) s).hiLatch = s.hiLatch := rfl
@[simp] theorem freeCtr_upd_timeSet (s : State) (v : Nat) : (applyUpd (.freeCtr v) s).timeSet = s.timeSet := rfl
@[simp] theorem freeCtr_upd_n0 (s : State) (v : Nat) : (applyUpd (.freeCtr v) s).n0 = s.n0 := rfl
@[simp] theorem freeCtr_upd_ticked (s : State) (v : Nat) : (applyUpd (.freeCtr v) s).ticked = s.ticked := rfl
@[simp] theorem freeCtr_upd_peerTickAt (s : State) (v : Nat) : (applyUpd (.freeCtr v) s).peerTickAt = s.peerTickAt := rfl
@[simp] theorem freeCtr_upd_guardPitch (s : State) (v : Nat) : (applyUpd (.freeCtr v) s).guardPitch = s.guardPitch := rfl
@[simp] theorem freeCtr_upd_diePitch (s : State) (v : Nat) : (applyUpd (.freeCtr v) s).diePitch = s.diePitch := rfl
@[simp] theorem freeCtr_upd_resps (s : State) (v : Nat) : (applyUpd (.freeCtr v) s).resps = s.resps := rfl
@[simp] theorem freeCtr_upd_txns (s : State) (v : Nat) : (applyUpd (.freeCtr v) s).txns = s.txns := rfl
@[simp] theorem freeCtr_upd_nextTag (s : State) (v : Nat) : (applyUpd (.freeCtr v) s).nextTag = s.nextTag := rfl
@[simp] theorem freeCtr_upd_lateTags (s : State) (v : Nat) : (applyUpd (.freeCtr v) s).lateTags = s.lateTags := rfl
@[simp] theorem freeCtr_upd_ports (s : State) (v : Nat) : (applyUpd (.freeCtr v) s).ports = s.ports := rfl
@[simp] theorem freeCtr_upd_threads (s : State) (v : Nat) : (applyUpd (.freeCtr v) s).threads = s.threads := rfl
@[simp] theorem freeCtr_upd_cores (s : State) (v : Nat) : (applyUpd (.freeCtr v) s).cores = s.cores := rfl
@[simp] theorem freeCtr_upd_engines (s : State) (v : Nat) : (applyUpd (.freeCtr v) s).engines = s.engines := rfl
@[simp] theorem freeCtr_upd_held (s : State) (v : Nat) : (applyUpd (.freeCtr v) s).held = s.held := rfl
@[simp] theorem freeCtr_upd_watches (s : State) (v : Nat) : (applyUpd (.freeCtr v) s).watches = s.watches := rfl
@[simp] theorem freeCtr_upd_watchMsgs (s : State) (v : Nat) : (applyUpd (.freeCtr v) s).watchMsgs = s.watchMsgs := rfl
@[simp] theorem freeCtr_upd_bankHeld (s : State) (v : Nat) : (applyUpd (.freeCtr v) s).bankHeld = s.bankHeld := rfl
@[simp] theorem freeCtr_upd_bankTarget (s : State) (v : Nat) : (applyUpd (.freeCtr v) s).bankTarget = s.bankTarget := rfl
@[simp] theorem freeCtr_upd_ecc (s : State) (v : Nat) : (applyUpd (.freeCtr v) s).ecc = s.ecc := rfl
@[simp] theorem freeCtr_upd_lineEcc (s : State) (v : Nat) : (applyUpd (.freeCtr v) s).lineEcc = s.lineEcc := rfl
@[simp] theorem freeCtr_upd_wbPending (s : State) (v : Nat) : (applyUpd (.freeCtr v) s).wbPending = s.wbPending := rfl
@[simp] theorem freeCtr_upd_scrubPos (s : State) (v : Nat) : (applyUpd (.freeCtr v) s).scrubPos = s.scrubPos := rfl
@[simp] theorem freeCtr_upd_refusals (s : State) (v : Nat) : (applyUpd (.freeCtr v) s).refusals = s.refusals := rfl
@[simp] theorem freeCtr_upd_firstRefusal (s : State) (v : Nat) : (applyUpd (.freeCtr v) s).firstRefusal = s.firstRefusal := rfl
@[simp] theorem freeCtr_upd_boxQueue (s : State) (v : Nat) : (applyUpd (.freeCtr v) s).boxQueue = s.boxQueue := rfl
@[simp] theorem freeCtr_upd_boxRun (s : State) (v : Nat) : (applyUpd (.freeCtr v) s).boxRun = s.boxRun := rfl
@[simp] theorem freeCtr_upd_kvs (s : State) (v : Nat) : (applyUpd (.freeCtr v) s).kvs = s.kvs := rfl
@[simp] theorem freeCtr_upd_parts (s : State) (v : Nat) : (applyUpd (.freeCtr v) s).parts = s.parts := rfl
@[simp] theorem freeCtr_upd_dmas (s : State) (v : Nat) : (applyUpd (.freeCtr v) s).dmas = s.dmas := rfl
@[simp] theorem freeCtr_upd_regReqs (s : State) (v : Nat) : (applyUpd (.freeCtr v) s).regReqs = s.regReqs := rfl
@[simp] theorem freeCtr_upd_regPorts (s : State) (v : Nat) : (applyUpd (.freeCtr v) s).regPorts = s.regPorts := rfl
@[simp] theorem freeCtr_upd_subchs (s : State) (v : Nat) : (applyUpd (.freeCtr v) s).subchs = s.subchs := rfl
@[simp] theorem freeCtr_upd_trackers (s : State) (v : Nat) : (applyUpd (.freeCtr v) s).trackers = s.trackers := rfl
@[simp] theorem freeCtr_upd_throttles (s : State) (v : Nat) : (applyUpd (.freeCtr v) s).throttles = s.throttles := rfl
@[simp] theorem freeCtr_upd_errRing (s : State) (v : Nat) : (applyUpd (.freeCtr v) s).errRing = s.errRing := rfl
@[simp] theorem freeCtr_upd_errRingOvf (s : State) (v : Nat) : (applyUpd (.freeCtr v) s).errRingOvf = s.errRingOvf := rfl
@[simp] theorem freeCtr_upd_patrolLine (s : State) (v : Nat) : (applyUpd (.freeCtr v) s).patrolLine = s.patrolLine := rfl
@[simp] theorem freeCtr_upd_retTimes (s : State) (v : Nat) : (applyUpd (.freeCtr v) s).retTimes = s.retTimes := rfl
@[simp] theorem freeCtr_upd_retired (s : State) (v : Nat) : (applyUpd (.freeCtr v) s).retired = s.retired := rfl
@[simp] theorem freeCtr_upd_dramSeq (s : State) (v : Nat) : (applyUpd (.freeCtr v) s).dramSeq = s.dramSeq := rfl
@[simp] theorem freeCtr_upd_trn (s : State) (v : Nat) : (applyUpd (.freeCtr v) s).trn = s.trn := rfl
@[simp] theorem freeCtr_upd_dqsAdj (s : State) (v : Nat) : (applyUpd (.freeCtr v) s).dqsAdj = s.dqsAdj := rfl
@[simp] theorem freeCtr_upd_dpol (s : State) (v : Nat) : (applyUpd (.freeCtr v) s).dpol = s.dpol := rfl
@[simp] theorem freeCtr_upd_idleAt (s : State) (v : Nat) : (applyUpd (.freeCtr v) s).idleAt = s.idleAt := rfl
@[simp] theorem freeCtr_upd_fitted (s : State) (v : Nat) : (applyUpd (.freeCtr v) s).fitted = s.fitted := rfl
@[simp] theorem freeCtr_upd_faultMsgs (s : State) (v : Nat) : (applyUpd (.freeCtr v) s).faultMsgs = s.faultMsgs := rfl
@[simp] theorem freeCtr_upd_out (s : State) (v : Nat) : (applyUpd (.freeCtr v) s).out = s.out := rfl
@[simp] theorem freeCtr_upd_lastRead (s : State) (v : Nat) : (applyUpd (.freeCtr v) s).lastRead = s.lastRead := rfl
@[simp] theorem freeCtr_upd_fwd (s : State) (v : Nat) : (applyUpd (.freeCtr v) s).fwd = s.fwd := rfl
@[simp] theorem freeCtr_upd_ethTx (s : State) (v : Nat) : (applyUpd (.freeCtr v) s).ethTx = s.ethTx := rfl
@[simp] theorem freeCtr_upd_ethHeadAt (s : State) (v : Nat) : (applyUpd (.freeCtr v) s).ethHeadAt = s.ethHeadAt := rfl
@[simp] theorem freeCtr_upd_canTx (s : State) (v : Nat) : (applyUpd (.freeCtr v) s).canTx = s.canTx := rfl
@[simp] theorem freeCtr_upd_pcieOut (s : State) (v : Nat) : (applyUpd (.freeCtr v) s).pcieOut = s.pcieOut := rfl
@[simp] theorem freeCtr_upd_pcieCfgRd (s : State) (v : Nat) : (applyUpd (.freeCtr v) s).pcieCfgRd = s.pcieCfgRd := rfl
@[simp] theorem freeCtr_upd_msix (s : State) (v : Nat) : (applyUpd (.freeCtr v) s).msix = s.msix := rfl
@[simp] theorem freeCtr_upd_ancs (s : State) (v : Nat) : (applyUpd (.freeCtr v) s).ancs = s.ancs := rfl
@[simp] theorem freeCtr_upd_trajArea (s : State) (v : Nat) : (applyUpd (.freeCtr v) s).trajArea = s.trajArea := rfl
@[simp] theorem freeCtr_upd_lidarIn (s : State) (v : Nat) : (applyUpd (.freeCtr v) s).lidarIn = s.lidarIn := rfl
@[simp] theorem freeCtr_upd_wheelIn (s : State) (v : Nat) : (applyUpd (.freeCtr v) s).wheelIn = s.wheelIn := rfl
@[simp] theorem freeCtr_upd_spiStepBusy (s : State) (v : Nat) : (applyUpd (.freeCtr v) s).spiStepBusy = s.spiStepBusy := rfl
@[simp] theorem freeCtr_upd_spiRec (s : State) (v : Nat) : (applyUpd (.freeCtr v) s).spiRec = s.spiRec := rfl
@[simp] theorem freeCtr_upd_spiStepCfg (s : State) (v : Nat) : (applyUpd (.freeCtr v) s).spiStepCfg = s.spiStepCfg := rfl
@[simp] theorem freeCtr_upd_ctxs (s : State) (v : Nat) : (applyUpd (.freeCtr v) s).ctxs = s.ctxs := rfl
@[simp] theorem freeCtr_upd_fsyOmit (s : State) (v : Nat) : (applyUpd (.freeCtr v) s).fsyOmit = s.fsyOmit := rfl
@[simp] theorem freeCtr_upd_fsyPulsed (s : State) (v : Nat) : (applyUpd (.freeCtr v) s).fsyPulsed = s.fsyPulsed := rfl
@[simp] theorem freeCtr_upd_supTasks (s : State) (v : Nat) : (applyUpd (.freeCtr v) s).supTasks = s.supTasks := rfl
@[simp] theorem freeCtr_upd_fus (s : State) (v : Nat) : (applyUpd (.freeCtr v) s).fus = s.fus := rfl
@[simp] theorem freeCtr_upd_fcons (s : State) (v : Nat) : (applyUpd (.freeCtr v) s).fcons = s.fcons := rfl
@[simp] theorem freeCtr_upd_shadow (s : State) (v : Nat) : (applyUpd (.freeCtr v) s).shadow = s.shadow := rfl
@[simp] theorem freeCtr_upd_trv (s : State) (v : Nat) : (applyUpd (.freeCtr v) s).trv = s.trv := rfl
@[simp] theorem freeCtr_upd_tlayers (s : State) (v : Nat) : (applyUpd (.freeCtr v) s).tlayers = s.tlayers := rfl
@[simp] theorem freeCtr_upd_jobFaults (s : State) (v : Nat) : (applyUpd (.freeCtr v) s).jobFaults = s.jobFaults := rfl
@[simp] theorem freeCtr_upd_unitLast (s : State) (v : Nat) : (applyUpd (.freeCtr v) s).unitLast = s.unitLast := rfl
@[simp] theorem freeCtr_upd_unitRst (s : State) (v : Nat) : (applyUpd (.freeCtr v) s).unitRst = s.unitRst := rfl
@[simp] theorem freeCtr_upd_xlink (s : State) (v : Nat) : (applyUpd (.freeCtr v) s).xlink = s.xlink := rfl
@[simp] theorem freeCtr_upd_trace (s : State) (v : Nat) : (applyUpd (.freeCtr v) s).trace = s.trace := rfl
@[simp] theorem freeCtr_upd_progs (s : State) (v : Nat) : (applyUpd (.freeCtr v) s).progs = s.progs := rfl
@[simp] theorem freeCtr_upd_rails (s : State) (v : Nat) : (applyUpd (.freeCtr v) s).rails = s.rails := rfl
@[simp] theorem freeCtr_upd_thm (s : State) (v : Nat) : (applyUpd (.freeCtr v) s).thm = s.thm := rfl
@[simp] theorem freeCtr_upd_bnd (s : State) (v : Nat) : (applyUpd (.freeCtr v) s).bnd = s.bnd := rfl
@[simp] theorem freeCtr_upd_thmTrip (s : State) (v : Nat) : (applyUpd (.freeCtr v) s).thmTrip = s.thmTrip := rfl
@[simp] theorem freeCtr_upd_flash (s : State) (v : Nat) : (applyUpd (.freeCtr v) s).flash = s.flash := rfl
@[simp] theorem freeCtr_upd_slots (s : State) (v : Nat) : (applyUpd (.freeCtr v) s).slots = s.slots := rfl
@[simp] theorem freeCtr_upd_stores (s : State) (v : Nat) : (applyUpd (.freeCtr v) s).stores = s.stores := rfl
@[simp] theorem freeCtr_upd_ids (s : State) (v : Nat) : (applyUpd (.freeCtr v) s).ids = s.ids := rfl
@[simp] theorem freeCtr_upd_boot (s : State) (v : Nat) : (applyUpd (.freeCtr v) s).boot = s.boot := rfl
@[simp] theorem freeCtr_upd_load (s : State) (v : Nat) : (applyUpd (.freeCtr v) s).load = s.load := rfl
@[simp] theorem freeCtr_upd_flt (s : State) (v : Nat) : (applyUpd (.freeCtr v) s).flt = s.flt := rfl
@[simp] theorem freeCtr_upd_mon (s : State) (v : Nat) : (applyUpd (.freeCtr v) s).mon = s.mon := rfl
@[simp] theorem hiLatch_upd_pending (s : State) (k : Nat) (v : Option Word) : (applyUpd (.hiLatch k v) s).pending = s.pending := rfl
@[simp] theorem hiLatch_upd_regs (s : State) (k : Nat) (v : Option Word) : (applyUpd (.hiLatch k v) s).regs = s.regs := rfl
@[simp] theorem hiLatch_upd_mem (s : State) (k : Nat) (v : Option Word) : (applyUpd (.hiLatch k v) s).mem = s.mem := rfl
@[simp] theorem hiLatch_upd_sram (s : State) (k : Nat) (v : Option Word) : (applyUpd (.hiLatch k v) s).sram = s.sram := rfl
@[simp] theorem hiLatch_upd_time (s : State) (k : Nat) (v : Option Word) : (applyUpd (.hiLatch k v) s).time = s.time := rfl
@[simp] theorem hiLatch_upd_timeFrac (s : State) (k : Nat) (v : Option Word) : (applyUpd (.hiLatch k v) s).timeFrac = s.timeFrac := rfl
@[simp] theorem hiLatch_upd_freeCtr (s : State) (k : Nat) (v : Option Word) : (applyUpd (.hiLatch k v) s).freeCtr = s.freeCtr := rfl
@[simp] theorem hiLatch_upd_hiLatch (s : State) (k : Nat) (v : Option Word) : (applyUpd (.hiLatch k v) s).hiLatch = tabSet hiNone s.hiLatch k v := rfl
@[simp] theorem hiLatch_upd_timeSet (s : State) (k : Nat) (v : Option Word) : (applyUpd (.hiLatch k v) s).timeSet = s.timeSet := rfl
@[simp] theorem hiLatch_upd_n0 (s : State) (k : Nat) (v : Option Word) : (applyUpd (.hiLatch k v) s).n0 = s.n0 := rfl
@[simp] theorem hiLatch_upd_ticked (s : State) (k : Nat) (v : Option Word) : (applyUpd (.hiLatch k v) s).ticked = s.ticked := rfl
@[simp] theorem hiLatch_upd_peerTickAt (s : State) (k : Nat) (v : Option Word) : (applyUpd (.hiLatch k v) s).peerTickAt = s.peerTickAt := rfl
@[simp] theorem hiLatch_upd_guardPitch (s : State) (k : Nat) (v : Option Word) : (applyUpd (.hiLatch k v) s).guardPitch = s.guardPitch := rfl
@[simp] theorem hiLatch_upd_diePitch (s : State) (k : Nat) (v : Option Word) : (applyUpd (.hiLatch k v) s).diePitch = s.diePitch := rfl
@[simp] theorem hiLatch_upd_resps (s : State) (k : Nat) (v : Option Word) : (applyUpd (.hiLatch k v) s).resps = s.resps := rfl
@[simp] theorem hiLatch_upd_txns (s : State) (k : Nat) (v : Option Word) : (applyUpd (.hiLatch k v) s).txns = s.txns := rfl
@[simp] theorem hiLatch_upd_nextTag (s : State) (k : Nat) (v : Option Word) : (applyUpd (.hiLatch k v) s).nextTag = s.nextTag := rfl
@[simp] theorem hiLatch_upd_lateTags (s : State) (k : Nat) (v : Option Word) : (applyUpd (.hiLatch k v) s).lateTags = s.lateTags := rfl
@[simp] theorem hiLatch_upd_ports (s : State) (k : Nat) (v : Option Word) : (applyUpd (.hiLatch k v) s).ports = s.ports := rfl
@[simp] theorem hiLatch_upd_threads (s : State) (k : Nat) (v : Option Word) : (applyUpd (.hiLatch k v) s).threads = s.threads := rfl
@[simp] theorem hiLatch_upd_cores (s : State) (k : Nat) (v : Option Word) : (applyUpd (.hiLatch k v) s).cores = s.cores := rfl
@[simp] theorem hiLatch_upd_engines (s : State) (k : Nat) (v : Option Word) : (applyUpd (.hiLatch k v) s).engines = s.engines := rfl
@[simp] theorem hiLatch_upd_held (s : State) (k : Nat) (v : Option Word) : (applyUpd (.hiLatch k v) s).held = s.held := rfl
@[simp] theorem hiLatch_upd_watches (s : State) (k : Nat) (v : Option Word) : (applyUpd (.hiLatch k v) s).watches = s.watches := rfl
@[simp] theorem hiLatch_upd_watchMsgs (s : State) (k : Nat) (v : Option Word) : (applyUpd (.hiLatch k v) s).watchMsgs = s.watchMsgs := rfl
@[simp] theorem hiLatch_upd_bankHeld (s : State) (k : Nat) (v : Option Word) : (applyUpd (.hiLatch k v) s).bankHeld = s.bankHeld := rfl
@[simp] theorem hiLatch_upd_bankTarget (s : State) (k : Nat) (v : Option Word) : (applyUpd (.hiLatch k v) s).bankTarget = s.bankTarget := rfl
@[simp] theorem hiLatch_upd_ecc (s : State) (k : Nat) (v : Option Word) : (applyUpd (.hiLatch k v) s).ecc = s.ecc := rfl
@[simp] theorem hiLatch_upd_lineEcc (s : State) (k : Nat) (v : Option Word) : (applyUpd (.hiLatch k v) s).lineEcc = s.lineEcc := rfl
@[simp] theorem hiLatch_upd_wbPending (s : State) (k : Nat) (v : Option Word) : (applyUpd (.hiLatch k v) s).wbPending = s.wbPending := rfl
@[simp] theorem hiLatch_upd_scrubPos (s : State) (k : Nat) (v : Option Word) : (applyUpd (.hiLatch k v) s).scrubPos = s.scrubPos := rfl
@[simp] theorem hiLatch_upd_refusals (s : State) (k : Nat) (v : Option Word) : (applyUpd (.hiLatch k v) s).refusals = s.refusals := rfl
@[simp] theorem hiLatch_upd_firstRefusal (s : State) (k : Nat) (v : Option Word) : (applyUpd (.hiLatch k v) s).firstRefusal = s.firstRefusal := rfl
@[simp] theorem hiLatch_upd_boxQueue (s : State) (k : Nat) (v : Option Word) : (applyUpd (.hiLatch k v) s).boxQueue = s.boxQueue := rfl
@[simp] theorem hiLatch_upd_boxRun (s : State) (k : Nat) (v : Option Word) : (applyUpd (.hiLatch k v) s).boxRun = s.boxRun := rfl
@[simp] theorem hiLatch_upd_kvs (s : State) (k : Nat) (v : Option Word) : (applyUpd (.hiLatch k v) s).kvs = s.kvs := rfl
@[simp] theorem hiLatch_upd_parts (s : State) (k : Nat) (v : Option Word) : (applyUpd (.hiLatch k v) s).parts = s.parts := rfl
@[simp] theorem hiLatch_upd_dmas (s : State) (k : Nat) (v : Option Word) : (applyUpd (.hiLatch k v) s).dmas = s.dmas := rfl
@[simp] theorem hiLatch_upd_regReqs (s : State) (k : Nat) (v : Option Word) : (applyUpd (.hiLatch k v) s).regReqs = s.regReqs := rfl
@[simp] theorem hiLatch_upd_regPorts (s : State) (k : Nat) (v : Option Word) : (applyUpd (.hiLatch k v) s).regPorts = s.regPorts := rfl
@[simp] theorem hiLatch_upd_subchs (s : State) (k : Nat) (v : Option Word) : (applyUpd (.hiLatch k v) s).subchs = s.subchs := rfl
@[simp] theorem hiLatch_upd_trackers (s : State) (k : Nat) (v : Option Word) : (applyUpd (.hiLatch k v) s).trackers = s.trackers := rfl
@[simp] theorem hiLatch_upd_throttles (s : State) (k : Nat) (v : Option Word) : (applyUpd (.hiLatch k v) s).throttles = s.throttles := rfl
@[simp] theorem hiLatch_upd_errRing (s : State) (k : Nat) (v : Option Word) : (applyUpd (.hiLatch k v) s).errRing = s.errRing := rfl
@[simp] theorem hiLatch_upd_errRingOvf (s : State) (k : Nat) (v : Option Word) : (applyUpd (.hiLatch k v) s).errRingOvf = s.errRingOvf := rfl
@[simp] theorem hiLatch_upd_patrolLine (s : State) (k : Nat) (v : Option Word) : (applyUpd (.hiLatch k v) s).patrolLine = s.patrolLine := rfl
@[simp] theorem hiLatch_upd_retTimes (s : State) (k : Nat) (v : Option Word) : (applyUpd (.hiLatch k v) s).retTimes = s.retTimes := rfl
@[simp] theorem hiLatch_upd_retired (s : State) (k : Nat) (v : Option Word) : (applyUpd (.hiLatch k v) s).retired = s.retired := rfl
@[simp] theorem hiLatch_upd_dramSeq (s : State) (k : Nat) (v : Option Word) : (applyUpd (.hiLatch k v) s).dramSeq = s.dramSeq := rfl
@[simp] theorem hiLatch_upd_trn (s : State) (k : Nat) (v : Option Word) : (applyUpd (.hiLatch k v) s).trn = s.trn := rfl
@[simp] theorem hiLatch_upd_dqsAdj (s : State) (k : Nat) (v : Option Word) : (applyUpd (.hiLatch k v) s).dqsAdj = s.dqsAdj := rfl
@[simp] theorem hiLatch_upd_dpol (s : State) (k : Nat) (v : Option Word) : (applyUpd (.hiLatch k v) s).dpol = s.dpol := rfl
@[simp] theorem hiLatch_upd_idleAt (s : State) (k : Nat) (v : Option Word) : (applyUpd (.hiLatch k v) s).idleAt = s.idleAt := rfl
@[simp] theorem hiLatch_upd_fitted (s : State) (k : Nat) (v : Option Word) : (applyUpd (.hiLatch k v) s).fitted = s.fitted := rfl
@[simp] theorem hiLatch_upd_faultMsgs (s : State) (k : Nat) (v : Option Word) : (applyUpd (.hiLatch k v) s).faultMsgs = s.faultMsgs := rfl
@[simp] theorem hiLatch_upd_out (s : State) (k : Nat) (v : Option Word) : (applyUpd (.hiLatch k v) s).out = s.out := rfl
@[simp] theorem hiLatch_upd_lastRead (s : State) (k : Nat) (v : Option Word) : (applyUpd (.hiLatch k v) s).lastRead = s.lastRead := rfl
@[simp] theorem hiLatch_upd_fwd (s : State) (k : Nat) (v : Option Word) : (applyUpd (.hiLatch k v) s).fwd = s.fwd := rfl
@[simp] theorem hiLatch_upd_ethTx (s : State) (k : Nat) (v : Option Word) : (applyUpd (.hiLatch k v) s).ethTx = s.ethTx := rfl
@[simp] theorem hiLatch_upd_ethHeadAt (s : State) (k : Nat) (v : Option Word) : (applyUpd (.hiLatch k v) s).ethHeadAt = s.ethHeadAt := rfl
@[simp] theorem hiLatch_upd_canTx (s : State) (k : Nat) (v : Option Word) : (applyUpd (.hiLatch k v) s).canTx = s.canTx := rfl
@[simp] theorem hiLatch_upd_pcieOut (s : State) (k : Nat) (v : Option Word) : (applyUpd (.hiLatch k v) s).pcieOut = s.pcieOut := rfl
@[simp] theorem hiLatch_upd_pcieCfgRd (s : State) (k : Nat) (v : Option Word) : (applyUpd (.hiLatch k v) s).pcieCfgRd = s.pcieCfgRd := rfl
@[simp] theorem hiLatch_upd_msix (s : State) (k : Nat) (v : Option Word) : (applyUpd (.hiLatch k v) s).msix = s.msix := rfl
@[simp] theorem hiLatch_upd_ancs (s : State) (k : Nat) (v : Option Word) : (applyUpd (.hiLatch k v) s).ancs = s.ancs := rfl
@[simp] theorem hiLatch_upd_trajArea (s : State) (k : Nat) (v : Option Word) : (applyUpd (.hiLatch k v) s).trajArea = s.trajArea := rfl
@[simp] theorem hiLatch_upd_lidarIn (s : State) (k : Nat) (v : Option Word) : (applyUpd (.hiLatch k v) s).lidarIn = s.lidarIn := rfl
@[simp] theorem hiLatch_upd_wheelIn (s : State) (k : Nat) (v : Option Word) : (applyUpd (.hiLatch k v) s).wheelIn = s.wheelIn := rfl
@[simp] theorem hiLatch_upd_spiStepBusy (s : State) (k : Nat) (v : Option Word) : (applyUpd (.hiLatch k v) s).spiStepBusy = s.spiStepBusy := rfl
@[simp] theorem hiLatch_upd_spiRec (s : State) (k : Nat) (v : Option Word) : (applyUpd (.hiLatch k v) s).spiRec = s.spiRec := rfl
@[simp] theorem hiLatch_upd_spiStepCfg (s : State) (k : Nat) (v : Option Word) : (applyUpd (.hiLatch k v) s).spiStepCfg = s.spiStepCfg := rfl
@[simp] theorem hiLatch_upd_ctxs (s : State) (k : Nat) (v : Option Word) : (applyUpd (.hiLatch k v) s).ctxs = s.ctxs := rfl
@[simp] theorem hiLatch_upd_fsyOmit (s : State) (k : Nat) (v : Option Word) : (applyUpd (.hiLatch k v) s).fsyOmit = s.fsyOmit := rfl
@[simp] theorem hiLatch_upd_fsyPulsed (s : State) (k : Nat) (v : Option Word) : (applyUpd (.hiLatch k v) s).fsyPulsed = s.fsyPulsed := rfl
@[simp] theorem hiLatch_upd_supTasks (s : State) (k : Nat) (v : Option Word) : (applyUpd (.hiLatch k v) s).supTasks = s.supTasks := rfl
@[simp] theorem hiLatch_upd_fus (s : State) (k : Nat) (v : Option Word) : (applyUpd (.hiLatch k v) s).fus = s.fus := rfl
@[simp] theorem hiLatch_upd_fcons (s : State) (k : Nat) (v : Option Word) : (applyUpd (.hiLatch k v) s).fcons = s.fcons := rfl
@[simp] theorem hiLatch_upd_shadow (s : State) (k : Nat) (v : Option Word) : (applyUpd (.hiLatch k v) s).shadow = s.shadow := rfl
@[simp] theorem hiLatch_upd_trv (s : State) (k : Nat) (v : Option Word) : (applyUpd (.hiLatch k v) s).trv = s.trv := rfl
@[simp] theorem hiLatch_upd_tlayers (s : State) (k : Nat) (v : Option Word) : (applyUpd (.hiLatch k v) s).tlayers = s.tlayers := rfl
@[simp] theorem hiLatch_upd_jobFaults (s : State) (k : Nat) (v : Option Word) : (applyUpd (.hiLatch k v) s).jobFaults = s.jobFaults := rfl
@[simp] theorem hiLatch_upd_unitLast (s : State) (k : Nat) (v : Option Word) : (applyUpd (.hiLatch k v) s).unitLast = s.unitLast := rfl
@[simp] theorem hiLatch_upd_unitRst (s : State) (k : Nat) (v : Option Word) : (applyUpd (.hiLatch k v) s).unitRst = s.unitRst := rfl
@[simp] theorem hiLatch_upd_xlink (s : State) (k : Nat) (v : Option Word) : (applyUpd (.hiLatch k v) s).xlink = s.xlink := rfl
@[simp] theorem hiLatch_upd_trace (s : State) (k : Nat) (v : Option Word) : (applyUpd (.hiLatch k v) s).trace = s.trace := rfl
@[simp] theorem hiLatch_upd_progs (s : State) (k : Nat) (v : Option Word) : (applyUpd (.hiLatch k v) s).progs = s.progs := rfl
@[simp] theorem hiLatch_upd_rails (s : State) (k : Nat) (v : Option Word) : (applyUpd (.hiLatch k v) s).rails = s.rails := rfl
@[simp] theorem hiLatch_upd_thm (s : State) (k : Nat) (v : Option Word) : (applyUpd (.hiLatch k v) s).thm = s.thm := rfl
@[simp] theorem hiLatch_upd_bnd (s : State) (k : Nat) (v : Option Word) : (applyUpd (.hiLatch k v) s).bnd = s.bnd := rfl
@[simp] theorem hiLatch_upd_thmTrip (s : State) (k : Nat) (v : Option Word) : (applyUpd (.hiLatch k v) s).thmTrip = s.thmTrip := rfl
@[simp] theorem hiLatch_upd_flash (s : State) (k : Nat) (v : Option Word) : (applyUpd (.hiLatch k v) s).flash = s.flash := rfl
@[simp] theorem hiLatch_upd_slots (s : State) (k : Nat) (v : Option Word) : (applyUpd (.hiLatch k v) s).slots = s.slots := rfl
@[simp] theorem hiLatch_upd_stores (s : State) (k : Nat) (v : Option Word) : (applyUpd (.hiLatch k v) s).stores = s.stores := rfl
@[simp] theorem hiLatch_upd_ids (s : State) (k : Nat) (v : Option Word) : (applyUpd (.hiLatch k v) s).ids = s.ids := rfl
@[simp] theorem hiLatch_upd_boot (s : State) (k : Nat) (v : Option Word) : (applyUpd (.hiLatch k v) s).boot = s.boot := rfl
@[simp] theorem hiLatch_upd_load (s : State) (k : Nat) (v : Option Word) : (applyUpd (.hiLatch k v) s).load = s.load := rfl
@[simp] theorem hiLatch_upd_flt (s : State) (k : Nat) (v : Option Word) : (applyUpd (.hiLatch k v) s).flt = s.flt := rfl
@[simp] theorem hiLatch_upd_mon (s : State) (k : Nat) (v : Option Word) : (applyUpd (.hiLatch k v) s).mon = s.mon := rfl
@[simp] theorem timeSet_upd_pending (s : State) (v : Bool) : (applyUpd (.timeSet v) s).pending = s.pending := rfl
@[simp] theorem timeSet_upd_regs (s : State) (v : Bool) : (applyUpd (.timeSet v) s).regs = s.regs := rfl
@[simp] theorem timeSet_upd_mem (s : State) (v : Bool) : (applyUpd (.timeSet v) s).mem = s.mem := rfl
@[simp] theorem timeSet_upd_sram (s : State) (v : Bool) : (applyUpd (.timeSet v) s).sram = s.sram := rfl
@[simp] theorem timeSet_upd_time (s : State) (v : Bool) : (applyUpd (.timeSet v) s).time = s.time := rfl
@[simp] theorem timeSet_upd_timeFrac (s : State) (v : Bool) : (applyUpd (.timeSet v) s).timeFrac = s.timeFrac := rfl
@[simp] theorem timeSet_upd_freeCtr (s : State) (v : Bool) : (applyUpd (.timeSet v) s).freeCtr = s.freeCtr := rfl
@[simp] theorem timeSet_upd_hiLatch (s : State) (v : Bool) : (applyUpd (.timeSet v) s).hiLatch = s.hiLatch := rfl
@[simp] theorem timeSet_upd_timeSet (s : State) (v : Bool) : (applyUpd (.timeSet v) s).timeSet = v := rfl
@[simp] theorem timeSet_upd_n0 (s : State) (v : Bool) : (applyUpd (.timeSet v) s).n0 = s.n0 := rfl
@[simp] theorem timeSet_upd_ticked (s : State) (v : Bool) : (applyUpd (.timeSet v) s).ticked = s.ticked := rfl
@[simp] theorem timeSet_upd_peerTickAt (s : State) (v : Bool) : (applyUpd (.timeSet v) s).peerTickAt = s.peerTickAt := rfl
@[simp] theorem timeSet_upd_guardPitch (s : State) (v : Bool) : (applyUpd (.timeSet v) s).guardPitch = s.guardPitch := rfl
@[simp] theorem timeSet_upd_diePitch (s : State) (v : Bool) : (applyUpd (.timeSet v) s).diePitch = s.diePitch := rfl
@[simp] theorem timeSet_upd_resps (s : State) (v : Bool) : (applyUpd (.timeSet v) s).resps = s.resps := rfl
@[simp] theorem timeSet_upd_txns (s : State) (v : Bool) : (applyUpd (.timeSet v) s).txns = s.txns := rfl
@[simp] theorem timeSet_upd_nextTag (s : State) (v : Bool) : (applyUpd (.timeSet v) s).nextTag = s.nextTag := rfl
@[simp] theorem timeSet_upd_lateTags (s : State) (v : Bool) : (applyUpd (.timeSet v) s).lateTags = s.lateTags := rfl
@[simp] theorem timeSet_upd_ports (s : State) (v : Bool) : (applyUpd (.timeSet v) s).ports = s.ports := rfl
@[simp] theorem timeSet_upd_threads (s : State) (v : Bool) : (applyUpd (.timeSet v) s).threads = s.threads := rfl
@[simp] theorem timeSet_upd_cores (s : State) (v : Bool) : (applyUpd (.timeSet v) s).cores = s.cores := rfl
@[simp] theorem timeSet_upd_engines (s : State) (v : Bool) : (applyUpd (.timeSet v) s).engines = s.engines := rfl
@[simp] theorem timeSet_upd_held (s : State) (v : Bool) : (applyUpd (.timeSet v) s).held = s.held := rfl
@[simp] theorem timeSet_upd_watches (s : State) (v : Bool) : (applyUpd (.timeSet v) s).watches = s.watches := rfl
@[simp] theorem timeSet_upd_watchMsgs (s : State) (v : Bool) : (applyUpd (.timeSet v) s).watchMsgs = s.watchMsgs := rfl
@[simp] theorem timeSet_upd_bankHeld (s : State) (v : Bool) : (applyUpd (.timeSet v) s).bankHeld = s.bankHeld := rfl
@[simp] theorem timeSet_upd_bankTarget (s : State) (v : Bool) : (applyUpd (.timeSet v) s).bankTarget = s.bankTarget := rfl
@[simp] theorem timeSet_upd_ecc (s : State) (v : Bool) : (applyUpd (.timeSet v) s).ecc = s.ecc := rfl
@[simp] theorem timeSet_upd_lineEcc (s : State) (v : Bool) : (applyUpd (.timeSet v) s).lineEcc = s.lineEcc := rfl
@[simp] theorem timeSet_upd_wbPending (s : State) (v : Bool) : (applyUpd (.timeSet v) s).wbPending = s.wbPending := rfl
@[simp] theorem timeSet_upd_scrubPos (s : State) (v : Bool) : (applyUpd (.timeSet v) s).scrubPos = s.scrubPos := rfl
@[simp] theorem timeSet_upd_refusals (s : State) (v : Bool) : (applyUpd (.timeSet v) s).refusals = s.refusals := rfl
@[simp] theorem timeSet_upd_firstRefusal (s : State) (v : Bool) : (applyUpd (.timeSet v) s).firstRefusal = s.firstRefusal := rfl
@[simp] theorem timeSet_upd_boxQueue (s : State) (v : Bool) : (applyUpd (.timeSet v) s).boxQueue = s.boxQueue := rfl
@[simp] theorem timeSet_upd_boxRun (s : State) (v : Bool) : (applyUpd (.timeSet v) s).boxRun = s.boxRun := rfl
@[simp] theorem timeSet_upd_kvs (s : State) (v : Bool) : (applyUpd (.timeSet v) s).kvs = s.kvs := rfl
@[simp] theorem timeSet_upd_parts (s : State) (v : Bool) : (applyUpd (.timeSet v) s).parts = s.parts := rfl
@[simp] theorem timeSet_upd_dmas (s : State) (v : Bool) : (applyUpd (.timeSet v) s).dmas = s.dmas := rfl
@[simp] theorem timeSet_upd_regReqs (s : State) (v : Bool) : (applyUpd (.timeSet v) s).regReqs = s.regReqs := rfl
@[simp] theorem timeSet_upd_regPorts (s : State) (v : Bool) : (applyUpd (.timeSet v) s).regPorts = s.regPorts := rfl
@[simp] theorem timeSet_upd_subchs (s : State) (v : Bool) : (applyUpd (.timeSet v) s).subchs = s.subchs := rfl
@[simp] theorem timeSet_upd_trackers (s : State) (v : Bool) : (applyUpd (.timeSet v) s).trackers = s.trackers := rfl
@[simp] theorem timeSet_upd_throttles (s : State) (v : Bool) : (applyUpd (.timeSet v) s).throttles = s.throttles := rfl
@[simp] theorem timeSet_upd_errRing (s : State) (v : Bool) : (applyUpd (.timeSet v) s).errRing = s.errRing := rfl
@[simp] theorem timeSet_upd_errRingOvf (s : State) (v : Bool) : (applyUpd (.timeSet v) s).errRingOvf = s.errRingOvf := rfl
@[simp] theorem timeSet_upd_patrolLine (s : State) (v : Bool) : (applyUpd (.timeSet v) s).patrolLine = s.patrolLine := rfl
@[simp] theorem timeSet_upd_retTimes (s : State) (v : Bool) : (applyUpd (.timeSet v) s).retTimes = s.retTimes := rfl
@[simp] theorem timeSet_upd_retired (s : State) (v : Bool) : (applyUpd (.timeSet v) s).retired = s.retired := rfl
@[simp] theorem timeSet_upd_dramSeq (s : State) (v : Bool) : (applyUpd (.timeSet v) s).dramSeq = s.dramSeq := rfl
@[simp] theorem timeSet_upd_trn (s : State) (v : Bool) : (applyUpd (.timeSet v) s).trn = s.trn := rfl
@[simp] theorem timeSet_upd_dqsAdj (s : State) (v : Bool) : (applyUpd (.timeSet v) s).dqsAdj = s.dqsAdj := rfl
@[simp] theorem timeSet_upd_dpol (s : State) (v : Bool) : (applyUpd (.timeSet v) s).dpol = s.dpol := rfl
@[simp] theorem timeSet_upd_idleAt (s : State) (v : Bool) : (applyUpd (.timeSet v) s).idleAt = s.idleAt := rfl
@[simp] theorem timeSet_upd_fitted (s : State) (v : Bool) : (applyUpd (.timeSet v) s).fitted = s.fitted := rfl
@[simp] theorem timeSet_upd_faultMsgs (s : State) (v : Bool) : (applyUpd (.timeSet v) s).faultMsgs = s.faultMsgs := rfl
@[simp] theorem timeSet_upd_out (s : State) (v : Bool) : (applyUpd (.timeSet v) s).out = s.out := rfl
@[simp] theorem timeSet_upd_lastRead (s : State) (v : Bool) : (applyUpd (.timeSet v) s).lastRead = s.lastRead := rfl
@[simp] theorem timeSet_upd_fwd (s : State) (v : Bool) : (applyUpd (.timeSet v) s).fwd = s.fwd := rfl
@[simp] theorem timeSet_upd_ethTx (s : State) (v : Bool) : (applyUpd (.timeSet v) s).ethTx = s.ethTx := rfl
@[simp] theorem timeSet_upd_ethHeadAt (s : State) (v : Bool) : (applyUpd (.timeSet v) s).ethHeadAt = s.ethHeadAt := rfl
@[simp] theorem timeSet_upd_canTx (s : State) (v : Bool) : (applyUpd (.timeSet v) s).canTx = s.canTx := rfl
@[simp] theorem timeSet_upd_pcieOut (s : State) (v : Bool) : (applyUpd (.timeSet v) s).pcieOut = s.pcieOut := rfl
@[simp] theorem timeSet_upd_pcieCfgRd (s : State) (v : Bool) : (applyUpd (.timeSet v) s).pcieCfgRd = s.pcieCfgRd := rfl
@[simp] theorem timeSet_upd_msix (s : State) (v : Bool) : (applyUpd (.timeSet v) s).msix = s.msix := rfl
@[simp] theorem timeSet_upd_ancs (s : State) (v : Bool) : (applyUpd (.timeSet v) s).ancs = s.ancs := rfl
@[simp] theorem timeSet_upd_trajArea (s : State) (v : Bool) : (applyUpd (.timeSet v) s).trajArea = s.trajArea := rfl
@[simp] theorem timeSet_upd_lidarIn (s : State) (v : Bool) : (applyUpd (.timeSet v) s).lidarIn = s.lidarIn := rfl
@[simp] theorem timeSet_upd_wheelIn (s : State) (v : Bool) : (applyUpd (.timeSet v) s).wheelIn = s.wheelIn := rfl
@[simp] theorem timeSet_upd_spiStepBusy (s : State) (v : Bool) : (applyUpd (.timeSet v) s).spiStepBusy = s.spiStepBusy := rfl
@[simp] theorem timeSet_upd_spiRec (s : State) (v : Bool) : (applyUpd (.timeSet v) s).spiRec = s.spiRec := rfl
@[simp] theorem timeSet_upd_spiStepCfg (s : State) (v : Bool) : (applyUpd (.timeSet v) s).spiStepCfg = s.spiStepCfg := rfl
@[simp] theorem timeSet_upd_ctxs (s : State) (v : Bool) : (applyUpd (.timeSet v) s).ctxs = s.ctxs := rfl
@[simp] theorem timeSet_upd_fsyOmit (s : State) (v : Bool) : (applyUpd (.timeSet v) s).fsyOmit = s.fsyOmit := rfl
@[simp] theorem timeSet_upd_fsyPulsed (s : State) (v : Bool) : (applyUpd (.timeSet v) s).fsyPulsed = s.fsyPulsed := rfl
@[simp] theorem timeSet_upd_supTasks (s : State) (v : Bool) : (applyUpd (.timeSet v) s).supTasks = s.supTasks := rfl
@[simp] theorem timeSet_upd_fus (s : State) (v : Bool) : (applyUpd (.timeSet v) s).fus = s.fus := rfl
@[simp] theorem timeSet_upd_fcons (s : State) (v : Bool) : (applyUpd (.timeSet v) s).fcons = s.fcons := rfl
@[simp] theorem timeSet_upd_shadow (s : State) (v : Bool) : (applyUpd (.timeSet v) s).shadow = s.shadow := rfl
@[simp] theorem timeSet_upd_trv (s : State) (v : Bool) : (applyUpd (.timeSet v) s).trv = s.trv := rfl
@[simp] theorem timeSet_upd_tlayers (s : State) (v : Bool) : (applyUpd (.timeSet v) s).tlayers = s.tlayers := rfl
@[simp] theorem timeSet_upd_jobFaults (s : State) (v : Bool) : (applyUpd (.timeSet v) s).jobFaults = s.jobFaults := rfl
@[simp] theorem timeSet_upd_unitLast (s : State) (v : Bool) : (applyUpd (.timeSet v) s).unitLast = s.unitLast := rfl
@[simp] theorem timeSet_upd_unitRst (s : State) (v : Bool) : (applyUpd (.timeSet v) s).unitRst = s.unitRst := rfl
@[simp] theorem timeSet_upd_xlink (s : State) (v : Bool) : (applyUpd (.timeSet v) s).xlink = s.xlink := rfl
@[simp] theorem timeSet_upd_trace (s : State) (v : Bool) : (applyUpd (.timeSet v) s).trace = s.trace := rfl
@[simp] theorem timeSet_upd_progs (s : State) (v : Bool) : (applyUpd (.timeSet v) s).progs = s.progs := rfl
@[simp] theorem timeSet_upd_rails (s : State) (v : Bool) : (applyUpd (.timeSet v) s).rails = s.rails := rfl
@[simp] theorem timeSet_upd_thm (s : State) (v : Bool) : (applyUpd (.timeSet v) s).thm = s.thm := rfl
@[simp] theorem timeSet_upd_bnd (s : State) (v : Bool) : (applyUpd (.timeSet v) s).bnd = s.bnd := rfl
@[simp] theorem timeSet_upd_thmTrip (s : State) (v : Bool) : (applyUpd (.timeSet v) s).thmTrip = s.thmTrip := rfl
@[simp] theorem timeSet_upd_flash (s : State) (v : Bool) : (applyUpd (.timeSet v) s).flash = s.flash := rfl
@[simp] theorem timeSet_upd_slots (s : State) (v : Bool) : (applyUpd (.timeSet v) s).slots = s.slots := rfl
@[simp] theorem timeSet_upd_stores (s : State) (v : Bool) : (applyUpd (.timeSet v) s).stores = s.stores := rfl
@[simp] theorem timeSet_upd_ids (s : State) (v : Bool) : (applyUpd (.timeSet v) s).ids = s.ids := rfl
@[simp] theorem timeSet_upd_boot (s : State) (v : Bool) : (applyUpd (.timeSet v) s).boot = s.boot := rfl
@[simp] theorem timeSet_upd_load (s : State) (v : Bool) : (applyUpd (.timeSet v) s).load = s.load := rfl
@[simp] theorem timeSet_upd_flt (s : State) (v : Bool) : (applyUpd (.timeSet v) s).flt = s.flt := rfl
@[simp] theorem timeSet_upd_mon (s : State) (v : Bool) : (applyUpd (.timeSet v) s).mon = s.mon := rfl
@[simp] theorem n0_upd_pending (s : State) (v : Nat) : (applyUpd (.n0 v) s).pending = s.pending := rfl
@[simp] theorem n0_upd_regs (s : State) (v : Nat) : (applyUpd (.n0 v) s).regs = s.regs := rfl
@[simp] theorem n0_upd_mem (s : State) (v : Nat) : (applyUpd (.n0 v) s).mem = s.mem := rfl
@[simp] theorem n0_upd_sram (s : State) (v : Nat) : (applyUpd (.n0 v) s).sram = s.sram := rfl
@[simp] theorem n0_upd_time (s : State) (v : Nat) : (applyUpd (.n0 v) s).time = s.time := rfl
@[simp] theorem n0_upd_timeFrac (s : State) (v : Nat) : (applyUpd (.n0 v) s).timeFrac = s.timeFrac := rfl
@[simp] theorem n0_upd_freeCtr (s : State) (v : Nat) : (applyUpd (.n0 v) s).freeCtr = s.freeCtr := rfl
@[simp] theorem n0_upd_hiLatch (s : State) (v : Nat) : (applyUpd (.n0 v) s).hiLatch = s.hiLatch := rfl
@[simp] theorem n0_upd_timeSet (s : State) (v : Nat) : (applyUpd (.n0 v) s).timeSet = s.timeSet := rfl
@[simp] theorem n0_upd_n0 (s : State) (v : Nat) : (applyUpd (.n0 v) s).n0 = v := rfl
@[simp] theorem n0_upd_ticked (s : State) (v : Nat) : (applyUpd (.n0 v) s).ticked = s.ticked := rfl
@[simp] theorem n0_upd_peerTickAt (s : State) (v : Nat) : (applyUpd (.n0 v) s).peerTickAt = s.peerTickAt := rfl
@[simp] theorem n0_upd_guardPitch (s : State) (v : Nat) : (applyUpd (.n0 v) s).guardPitch = s.guardPitch := rfl
@[simp] theorem n0_upd_diePitch (s : State) (v : Nat) : (applyUpd (.n0 v) s).diePitch = s.diePitch := rfl
@[simp] theorem n0_upd_resps (s : State) (v : Nat) : (applyUpd (.n0 v) s).resps = s.resps := rfl
@[simp] theorem n0_upd_txns (s : State) (v : Nat) : (applyUpd (.n0 v) s).txns = s.txns := rfl
@[simp] theorem n0_upd_nextTag (s : State) (v : Nat) : (applyUpd (.n0 v) s).nextTag = s.nextTag := rfl
@[simp] theorem n0_upd_lateTags (s : State) (v : Nat) : (applyUpd (.n0 v) s).lateTags = s.lateTags := rfl
@[simp] theorem n0_upd_ports (s : State) (v : Nat) : (applyUpd (.n0 v) s).ports = s.ports := rfl
@[simp] theorem n0_upd_threads (s : State) (v : Nat) : (applyUpd (.n0 v) s).threads = s.threads := rfl
@[simp] theorem n0_upd_cores (s : State) (v : Nat) : (applyUpd (.n0 v) s).cores = s.cores := rfl
@[simp] theorem n0_upd_engines (s : State) (v : Nat) : (applyUpd (.n0 v) s).engines = s.engines := rfl
@[simp] theorem n0_upd_held (s : State) (v : Nat) : (applyUpd (.n0 v) s).held = s.held := rfl
@[simp] theorem n0_upd_watches (s : State) (v : Nat) : (applyUpd (.n0 v) s).watches = s.watches := rfl
@[simp] theorem n0_upd_watchMsgs (s : State) (v : Nat) : (applyUpd (.n0 v) s).watchMsgs = s.watchMsgs := rfl
@[simp] theorem n0_upd_bankHeld (s : State) (v : Nat) : (applyUpd (.n0 v) s).bankHeld = s.bankHeld := rfl
@[simp] theorem n0_upd_bankTarget (s : State) (v : Nat) : (applyUpd (.n0 v) s).bankTarget = s.bankTarget := rfl
@[simp] theorem n0_upd_ecc (s : State) (v : Nat) : (applyUpd (.n0 v) s).ecc = s.ecc := rfl
@[simp] theorem n0_upd_lineEcc (s : State) (v : Nat) : (applyUpd (.n0 v) s).lineEcc = s.lineEcc := rfl
@[simp] theorem n0_upd_wbPending (s : State) (v : Nat) : (applyUpd (.n0 v) s).wbPending = s.wbPending := rfl
@[simp] theorem n0_upd_scrubPos (s : State) (v : Nat) : (applyUpd (.n0 v) s).scrubPos = s.scrubPos := rfl
@[simp] theorem n0_upd_refusals (s : State) (v : Nat) : (applyUpd (.n0 v) s).refusals = s.refusals := rfl
@[simp] theorem n0_upd_firstRefusal (s : State) (v : Nat) : (applyUpd (.n0 v) s).firstRefusal = s.firstRefusal := rfl
@[simp] theorem n0_upd_boxQueue (s : State) (v : Nat) : (applyUpd (.n0 v) s).boxQueue = s.boxQueue := rfl
@[simp] theorem n0_upd_boxRun (s : State) (v : Nat) : (applyUpd (.n0 v) s).boxRun = s.boxRun := rfl
@[simp] theorem n0_upd_kvs (s : State) (v : Nat) : (applyUpd (.n0 v) s).kvs = s.kvs := rfl
@[simp] theorem n0_upd_parts (s : State) (v : Nat) : (applyUpd (.n0 v) s).parts = s.parts := rfl
@[simp] theorem n0_upd_dmas (s : State) (v : Nat) : (applyUpd (.n0 v) s).dmas = s.dmas := rfl
@[simp] theorem n0_upd_regReqs (s : State) (v : Nat) : (applyUpd (.n0 v) s).regReqs = s.regReqs := rfl
@[simp] theorem n0_upd_regPorts (s : State) (v : Nat) : (applyUpd (.n0 v) s).regPorts = s.regPorts := rfl
@[simp] theorem n0_upd_subchs (s : State) (v : Nat) : (applyUpd (.n0 v) s).subchs = s.subchs := rfl
@[simp] theorem n0_upd_trackers (s : State) (v : Nat) : (applyUpd (.n0 v) s).trackers = s.trackers := rfl
@[simp] theorem n0_upd_throttles (s : State) (v : Nat) : (applyUpd (.n0 v) s).throttles = s.throttles := rfl
@[simp] theorem n0_upd_errRing (s : State) (v : Nat) : (applyUpd (.n0 v) s).errRing = s.errRing := rfl
@[simp] theorem n0_upd_errRingOvf (s : State) (v : Nat) : (applyUpd (.n0 v) s).errRingOvf = s.errRingOvf := rfl
@[simp] theorem n0_upd_patrolLine (s : State) (v : Nat) : (applyUpd (.n0 v) s).patrolLine = s.patrolLine := rfl
@[simp] theorem n0_upd_retTimes (s : State) (v : Nat) : (applyUpd (.n0 v) s).retTimes = s.retTimes := rfl
@[simp] theorem n0_upd_retired (s : State) (v : Nat) : (applyUpd (.n0 v) s).retired = s.retired := rfl
@[simp] theorem n0_upd_dramSeq (s : State) (v : Nat) : (applyUpd (.n0 v) s).dramSeq = s.dramSeq := rfl
@[simp] theorem n0_upd_trn (s : State) (v : Nat) : (applyUpd (.n0 v) s).trn = s.trn := rfl
@[simp] theorem n0_upd_dqsAdj (s : State) (v : Nat) : (applyUpd (.n0 v) s).dqsAdj = s.dqsAdj := rfl
@[simp] theorem n0_upd_dpol (s : State) (v : Nat) : (applyUpd (.n0 v) s).dpol = s.dpol := rfl
@[simp] theorem n0_upd_idleAt (s : State) (v : Nat) : (applyUpd (.n0 v) s).idleAt = s.idleAt := rfl
@[simp] theorem n0_upd_fitted (s : State) (v : Nat) : (applyUpd (.n0 v) s).fitted = s.fitted := rfl
@[simp] theorem n0_upd_faultMsgs (s : State) (v : Nat) : (applyUpd (.n0 v) s).faultMsgs = s.faultMsgs := rfl
@[simp] theorem n0_upd_out (s : State) (v : Nat) : (applyUpd (.n0 v) s).out = s.out := rfl
@[simp] theorem n0_upd_lastRead (s : State) (v : Nat) : (applyUpd (.n0 v) s).lastRead = s.lastRead := rfl
@[simp] theorem n0_upd_fwd (s : State) (v : Nat) : (applyUpd (.n0 v) s).fwd = s.fwd := rfl
@[simp] theorem n0_upd_ethTx (s : State) (v : Nat) : (applyUpd (.n0 v) s).ethTx = s.ethTx := rfl
@[simp] theorem n0_upd_ethHeadAt (s : State) (v : Nat) : (applyUpd (.n0 v) s).ethHeadAt = s.ethHeadAt := rfl
@[simp] theorem n0_upd_canTx (s : State) (v : Nat) : (applyUpd (.n0 v) s).canTx = s.canTx := rfl
@[simp] theorem n0_upd_pcieOut (s : State) (v : Nat) : (applyUpd (.n0 v) s).pcieOut = s.pcieOut := rfl
@[simp] theorem n0_upd_pcieCfgRd (s : State) (v : Nat) : (applyUpd (.n0 v) s).pcieCfgRd = s.pcieCfgRd := rfl
@[simp] theorem n0_upd_msix (s : State) (v : Nat) : (applyUpd (.n0 v) s).msix = s.msix := rfl
@[simp] theorem n0_upd_ancs (s : State) (v : Nat) : (applyUpd (.n0 v) s).ancs = s.ancs := rfl
@[simp] theorem n0_upd_trajArea (s : State) (v : Nat) : (applyUpd (.n0 v) s).trajArea = s.trajArea := rfl
@[simp] theorem n0_upd_lidarIn (s : State) (v : Nat) : (applyUpd (.n0 v) s).lidarIn = s.lidarIn := rfl
@[simp] theorem n0_upd_wheelIn (s : State) (v : Nat) : (applyUpd (.n0 v) s).wheelIn = s.wheelIn := rfl
@[simp] theorem n0_upd_spiStepBusy (s : State) (v : Nat) : (applyUpd (.n0 v) s).spiStepBusy = s.spiStepBusy := rfl
@[simp] theorem n0_upd_spiRec (s : State) (v : Nat) : (applyUpd (.n0 v) s).spiRec = s.spiRec := rfl
@[simp] theorem n0_upd_spiStepCfg (s : State) (v : Nat) : (applyUpd (.n0 v) s).spiStepCfg = s.spiStepCfg := rfl
@[simp] theorem n0_upd_ctxs (s : State) (v : Nat) : (applyUpd (.n0 v) s).ctxs = s.ctxs := rfl
@[simp] theorem n0_upd_fsyOmit (s : State) (v : Nat) : (applyUpd (.n0 v) s).fsyOmit = s.fsyOmit := rfl
@[simp] theorem n0_upd_fsyPulsed (s : State) (v : Nat) : (applyUpd (.n0 v) s).fsyPulsed = s.fsyPulsed := rfl
@[simp] theorem n0_upd_supTasks (s : State) (v : Nat) : (applyUpd (.n0 v) s).supTasks = s.supTasks := rfl
@[simp] theorem n0_upd_fus (s : State) (v : Nat) : (applyUpd (.n0 v) s).fus = s.fus := rfl
@[simp] theorem n0_upd_fcons (s : State) (v : Nat) : (applyUpd (.n0 v) s).fcons = s.fcons := rfl
@[simp] theorem n0_upd_shadow (s : State) (v : Nat) : (applyUpd (.n0 v) s).shadow = s.shadow := rfl
@[simp] theorem n0_upd_trv (s : State) (v : Nat) : (applyUpd (.n0 v) s).trv = s.trv := rfl
@[simp] theorem n0_upd_tlayers (s : State) (v : Nat) : (applyUpd (.n0 v) s).tlayers = s.tlayers := rfl
@[simp] theorem n0_upd_jobFaults (s : State) (v : Nat) : (applyUpd (.n0 v) s).jobFaults = s.jobFaults := rfl
@[simp] theorem n0_upd_unitLast (s : State) (v : Nat) : (applyUpd (.n0 v) s).unitLast = s.unitLast := rfl
@[simp] theorem n0_upd_unitRst (s : State) (v : Nat) : (applyUpd (.n0 v) s).unitRst = s.unitRst := rfl
@[simp] theorem n0_upd_xlink (s : State) (v : Nat) : (applyUpd (.n0 v) s).xlink = s.xlink := rfl
@[simp] theorem n0_upd_trace (s : State) (v : Nat) : (applyUpd (.n0 v) s).trace = s.trace := rfl
@[simp] theorem n0_upd_progs (s : State) (v : Nat) : (applyUpd (.n0 v) s).progs = s.progs := rfl
@[simp] theorem n0_upd_rails (s : State) (v : Nat) : (applyUpd (.n0 v) s).rails = s.rails := rfl
@[simp] theorem n0_upd_thm (s : State) (v : Nat) : (applyUpd (.n0 v) s).thm = s.thm := rfl
@[simp] theorem n0_upd_bnd (s : State) (v : Nat) : (applyUpd (.n0 v) s).bnd = s.bnd := rfl
@[simp] theorem n0_upd_thmTrip (s : State) (v : Nat) : (applyUpd (.n0 v) s).thmTrip = s.thmTrip := rfl
@[simp] theorem n0_upd_flash (s : State) (v : Nat) : (applyUpd (.n0 v) s).flash = s.flash := rfl
@[simp] theorem n0_upd_slots (s : State) (v : Nat) : (applyUpd (.n0 v) s).slots = s.slots := rfl
@[simp] theorem n0_upd_stores (s : State) (v : Nat) : (applyUpd (.n0 v) s).stores = s.stores := rfl
@[simp] theorem n0_upd_ids (s : State) (v : Nat) : (applyUpd (.n0 v) s).ids = s.ids := rfl
@[simp] theorem n0_upd_boot (s : State) (v : Nat) : (applyUpd (.n0 v) s).boot = s.boot := rfl
@[simp] theorem n0_upd_load (s : State) (v : Nat) : (applyUpd (.n0 v) s).load = s.load := rfl
@[simp] theorem n0_upd_flt (s : State) (v : Nat) : (applyUpd (.n0 v) s).flt = s.flt := rfl
@[simp] theorem n0_upd_mon (s : State) (v : Nat) : (applyUpd (.n0 v) s).mon = s.mon := rfl
@[simp] theorem ticked_upd_pending (s : State) (v : Bool) : (applyUpd (.ticked v) s).pending = s.pending := rfl
@[simp] theorem ticked_upd_regs (s : State) (v : Bool) : (applyUpd (.ticked v) s).regs = s.regs := rfl
@[simp] theorem ticked_upd_mem (s : State) (v : Bool) : (applyUpd (.ticked v) s).mem = s.mem := rfl
@[simp] theorem ticked_upd_sram (s : State) (v : Bool) : (applyUpd (.ticked v) s).sram = s.sram := rfl
@[simp] theorem ticked_upd_time (s : State) (v : Bool) : (applyUpd (.ticked v) s).time = s.time := rfl
@[simp] theorem ticked_upd_timeFrac (s : State) (v : Bool) : (applyUpd (.ticked v) s).timeFrac = s.timeFrac := rfl
@[simp] theorem ticked_upd_freeCtr (s : State) (v : Bool) : (applyUpd (.ticked v) s).freeCtr = s.freeCtr := rfl
@[simp] theorem ticked_upd_hiLatch (s : State) (v : Bool) : (applyUpd (.ticked v) s).hiLatch = s.hiLatch := rfl
@[simp] theorem ticked_upd_timeSet (s : State) (v : Bool) : (applyUpd (.ticked v) s).timeSet = s.timeSet := rfl
@[simp] theorem ticked_upd_n0 (s : State) (v : Bool) : (applyUpd (.ticked v) s).n0 = s.n0 := rfl
@[simp] theorem ticked_upd_ticked (s : State) (v : Bool) : (applyUpd (.ticked v) s).ticked = v := rfl
@[simp] theorem ticked_upd_peerTickAt (s : State) (v : Bool) : (applyUpd (.ticked v) s).peerTickAt = s.peerTickAt := rfl
@[simp] theorem ticked_upd_guardPitch (s : State) (v : Bool) : (applyUpd (.ticked v) s).guardPitch = s.guardPitch := rfl
@[simp] theorem ticked_upd_diePitch (s : State) (v : Bool) : (applyUpd (.ticked v) s).diePitch = s.diePitch := rfl
@[simp] theorem ticked_upd_resps (s : State) (v : Bool) : (applyUpd (.ticked v) s).resps = s.resps := rfl
@[simp] theorem ticked_upd_txns (s : State) (v : Bool) : (applyUpd (.ticked v) s).txns = s.txns := rfl
@[simp] theorem ticked_upd_nextTag (s : State) (v : Bool) : (applyUpd (.ticked v) s).nextTag = s.nextTag := rfl
@[simp] theorem ticked_upd_lateTags (s : State) (v : Bool) : (applyUpd (.ticked v) s).lateTags = s.lateTags := rfl
@[simp] theorem ticked_upd_ports (s : State) (v : Bool) : (applyUpd (.ticked v) s).ports = s.ports := rfl
@[simp] theorem ticked_upd_threads (s : State) (v : Bool) : (applyUpd (.ticked v) s).threads = s.threads := rfl
@[simp] theorem ticked_upd_cores (s : State) (v : Bool) : (applyUpd (.ticked v) s).cores = s.cores := rfl
@[simp] theorem ticked_upd_engines (s : State) (v : Bool) : (applyUpd (.ticked v) s).engines = s.engines := rfl
@[simp] theorem ticked_upd_held (s : State) (v : Bool) : (applyUpd (.ticked v) s).held = s.held := rfl
@[simp] theorem ticked_upd_watches (s : State) (v : Bool) : (applyUpd (.ticked v) s).watches = s.watches := rfl
@[simp] theorem ticked_upd_watchMsgs (s : State) (v : Bool) : (applyUpd (.ticked v) s).watchMsgs = s.watchMsgs := rfl
@[simp] theorem ticked_upd_bankHeld (s : State) (v : Bool) : (applyUpd (.ticked v) s).bankHeld = s.bankHeld := rfl
@[simp] theorem ticked_upd_bankTarget (s : State) (v : Bool) : (applyUpd (.ticked v) s).bankTarget = s.bankTarget := rfl
@[simp] theorem ticked_upd_ecc (s : State) (v : Bool) : (applyUpd (.ticked v) s).ecc = s.ecc := rfl
@[simp] theorem ticked_upd_lineEcc (s : State) (v : Bool) : (applyUpd (.ticked v) s).lineEcc = s.lineEcc := rfl
@[simp] theorem ticked_upd_wbPending (s : State) (v : Bool) : (applyUpd (.ticked v) s).wbPending = s.wbPending := rfl
@[simp] theorem ticked_upd_scrubPos (s : State) (v : Bool) : (applyUpd (.ticked v) s).scrubPos = s.scrubPos := rfl
@[simp] theorem ticked_upd_refusals (s : State) (v : Bool) : (applyUpd (.ticked v) s).refusals = s.refusals := rfl
@[simp] theorem ticked_upd_firstRefusal (s : State) (v : Bool) : (applyUpd (.ticked v) s).firstRefusal = s.firstRefusal := rfl
@[simp] theorem ticked_upd_boxQueue (s : State) (v : Bool) : (applyUpd (.ticked v) s).boxQueue = s.boxQueue := rfl
@[simp] theorem ticked_upd_boxRun (s : State) (v : Bool) : (applyUpd (.ticked v) s).boxRun = s.boxRun := rfl
@[simp] theorem ticked_upd_kvs (s : State) (v : Bool) : (applyUpd (.ticked v) s).kvs = s.kvs := rfl
@[simp] theorem ticked_upd_parts (s : State) (v : Bool) : (applyUpd (.ticked v) s).parts = s.parts := rfl
@[simp] theorem ticked_upd_dmas (s : State) (v : Bool) : (applyUpd (.ticked v) s).dmas = s.dmas := rfl
@[simp] theorem ticked_upd_regReqs (s : State) (v : Bool) : (applyUpd (.ticked v) s).regReqs = s.regReqs := rfl
@[simp] theorem ticked_upd_regPorts (s : State) (v : Bool) : (applyUpd (.ticked v) s).regPorts = s.regPorts := rfl
@[simp] theorem ticked_upd_subchs (s : State) (v : Bool) : (applyUpd (.ticked v) s).subchs = s.subchs := rfl
@[simp] theorem ticked_upd_trackers (s : State) (v : Bool) : (applyUpd (.ticked v) s).trackers = s.trackers := rfl
@[simp] theorem ticked_upd_throttles (s : State) (v : Bool) : (applyUpd (.ticked v) s).throttles = s.throttles := rfl
@[simp] theorem ticked_upd_errRing (s : State) (v : Bool) : (applyUpd (.ticked v) s).errRing = s.errRing := rfl
@[simp] theorem ticked_upd_errRingOvf (s : State) (v : Bool) : (applyUpd (.ticked v) s).errRingOvf = s.errRingOvf := rfl
@[simp] theorem ticked_upd_patrolLine (s : State) (v : Bool) : (applyUpd (.ticked v) s).patrolLine = s.patrolLine := rfl
@[simp] theorem ticked_upd_retTimes (s : State) (v : Bool) : (applyUpd (.ticked v) s).retTimes = s.retTimes := rfl
@[simp] theorem ticked_upd_retired (s : State) (v : Bool) : (applyUpd (.ticked v) s).retired = s.retired := rfl
@[simp] theorem ticked_upd_dramSeq (s : State) (v : Bool) : (applyUpd (.ticked v) s).dramSeq = s.dramSeq := rfl
@[simp] theorem ticked_upd_trn (s : State) (v : Bool) : (applyUpd (.ticked v) s).trn = s.trn := rfl
@[simp] theorem ticked_upd_dqsAdj (s : State) (v : Bool) : (applyUpd (.ticked v) s).dqsAdj = s.dqsAdj := rfl
@[simp] theorem ticked_upd_dpol (s : State) (v : Bool) : (applyUpd (.ticked v) s).dpol = s.dpol := rfl
@[simp] theorem ticked_upd_idleAt (s : State) (v : Bool) : (applyUpd (.ticked v) s).idleAt = s.idleAt := rfl
@[simp] theorem ticked_upd_fitted (s : State) (v : Bool) : (applyUpd (.ticked v) s).fitted = s.fitted := rfl
@[simp] theorem ticked_upd_faultMsgs (s : State) (v : Bool) : (applyUpd (.ticked v) s).faultMsgs = s.faultMsgs := rfl
@[simp] theorem ticked_upd_out (s : State) (v : Bool) : (applyUpd (.ticked v) s).out = s.out := rfl
@[simp] theorem ticked_upd_lastRead (s : State) (v : Bool) : (applyUpd (.ticked v) s).lastRead = s.lastRead := rfl
@[simp] theorem ticked_upd_fwd (s : State) (v : Bool) : (applyUpd (.ticked v) s).fwd = s.fwd := rfl
@[simp] theorem ticked_upd_ethTx (s : State) (v : Bool) : (applyUpd (.ticked v) s).ethTx = s.ethTx := rfl
@[simp] theorem ticked_upd_ethHeadAt (s : State) (v : Bool) : (applyUpd (.ticked v) s).ethHeadAt = s.ethHeadAt := rfl
@[simp] theorem ticked_upd_canTx (s : State) (v : Bool) : (applyUpd (.ticked v) s).canTx = s.canTx := rfl
@[simp] theorem ticked_upd_pcieOut (s : State) (v : Bool) : (applyUpd (.ticked v) s).pcieOut = s.pcieOut := rfl
@[simp] theorem ticked_upd_pcieCfgRd (s : State) (v : Bool) : (applyUpd (.ticked v) s).pcieCfgRd = s.pcieCfgRd := rfl
@[simp] theorem ticked_upd_msix (s : State) (v : Bool) : (applyUpd (.ticked v) s).msix = s.msix := rfl
@[simp] theorem ticked_upd_ancs (s : State) (v : Bool) : (applyUpd (.ticked v) s).ancs = s.ancs := rfl
@[simp] theorem ticked_upd_trajArea (s : State) (v : Bool) : (applyUpd (.ticked v) s).trajArea = s.trajArea := rfl
@[simp] theorem ticked_upd_lidarIn (s : State) (v : Bool) : (applyUpd (.ticked v) s).lidarIn = s.lidarIn := rfl
@[simp] theorem ticked_upd_wheelIn (s : State) (v : Bool) : (applyUpd (.ticked v) s).wheelIn = s.wheelIn := rfl
@[simp] theorem ticked_upd_spiStepBusy (s : State) (v : Bool) : (applyUpd (.ticked v) s).spiStepBusy = s.spiStepBusy := rfl
@[simp] theorem ticked_upd_spiRec (s : State) (v : Bool) : (applyUpd (.ticked v) s).spiRec = s.spiRec := rfl
@[simp] theorem ticked_upd_spiStepCfg (s : State) (v : Bool) : (applyUpd (.ticked v) s).spiStepCfg = s.spiStepCfg := rfl
@[simp] theorem ticked_upd_ctxs (s : State) (v : Bool) : (applyUpd (.ticked v) s).ctxs = s.ctxs := rfl
@[simp] theorem ticked_upd_fsyOmit (s : State) (v : Bool) : (applyUpd (.ticked v) s).fsyOmit = s.fsyOmit := rfl
@[simp] theorem ticked_upd_fsyPulsed (s : State) (v : Bool) : (applyUpd (.ticked v) s).fsyPulsed = s.fsyPulsed := rfl
@[simp] theorem ticked_upd_supTasks (s : State) (v : Bool) : (applyUpd (.ticked v) s).supTasks = s.supTasks := rfl
@[simp] theorem ticked_upd_fus (s : State) (v : Bool) : (applyUpd (.ticked v) s).fus = s.fus := rfl
@[simp] theorem ticked_upd_fcons (s : State) (v : Bool) : (applyUpd (.ticked v) s).fcons = s.fcons := rfl
@[simp] theorem ticked_upd_shadow (s : State) (v : Bool) : (applyUpd (.ticked v) s).shadow = s.shadow := rfl
@[simp] theorem ticked_upd_trv (s : State) (v : Bool) : (applyUpd (.ticked v) s).trv = s.trv := rfl
@[simp] theorem ticked_upd_tlayers (s : State) (v : Bool) : (applyUpd (.ticked v) s).tlayers = s.tlayers := rfl
@[simp] theorem ticked_upd_jobFaults (s : State) (v : Bool) : (applyUpd (.ticked v) s).jobFaults = s.jobFaults := rfl
@[simp] theorem ticked_upd_unitLast (s : State) (v : Bool) : (applyUpd (.ticked v) s).unitLast = s.unitLast := rfl
@[simp] theorem ticked_upd_unitRst (s : State) (v : Bool) : (applyUpd (.ticked v) s).unitRst = s.unitRst := rfl
@[simp] theorem ticked_upd_xlink (s : State) (v : Bool) : (applyUpd (.ticked v) s).xlink = s.xlink := rfl
@[simp] theorem ticked_upd_trace (s : State) (v : Bool) : (applyUpd (.ticked v) s).trace = s.trace := rfl
@[simp] theorem ticked_upd_progs (s : State) (v : Bool) : (applyUpd (.ticked v) s).progs = s.progs := rfl
@[simp] theorem ticked_upd_rails (s : State) (v : Bool) : (applyUpd (.ticked v) s).rails = s.rails := rfl
@[simp] theorem ticked_upd_thm (s : State) (v : Bool) : (applyUpd (.ticked v) s).thm = s.thm := rfl
@[simp] theorem ticked_upd_bnd (s : State) (v : Bool) : (applyUpd (.ticked v) s).bnd = s.bnd := rfl
@[simp] theorem ticked_upd_thmTrip (s : State) (v : Bool) : (applyUpd (.ticked v) s).thmTrip = s.thmTrip := rfl
@[simp] theorem ticked_upd_flash (s : State) (v : Bool) : (applyUpd (.ticked v) s).flash = s.flash := rfl
@[simp] theorem ticked_upd_slots (s : State) (v : Bool) : (applyUpd (.ticked v) s).slots = s.slots := rfl
@[simp] theorem ticked_upd_stores (s : State) (v : Bool) : (applyUpd (.ticked v) s).stores = s.stores := rfl
@[simp] theorem ticked_upd_ids (s : State) (v : Bool) : (applyUpd (.ticked v) s).ids = s.ids := rfl
@[simp] theorem ticked_upd_boot (s : State) (v : Bool) : (applyUpd (.ticked v) s).boot = s.boot := rfl
@[simp] theorem ticked_upd_load (s : State) (v : Bool) : (applyUpd (.ticked v) s).load = s.load := rfl
@[simp] theorem ticked_upd_flt (s : State) (v : Bool) : (applyUpd (.ticked v) s).flt = s.flt := rfl
@[simp] theorem ticked_upd_mon (s : State) (v : Bool) : (applyUpd (.ticked v) s).mon = s.mon := rfl
@[simp] theorem peerTickAt_upd_pending (s : State) (v : Nat) : (applyUpd (.peerTickAt v) s).pending = s.pending := rfl
@[simp] theorem peerTickAt_upd_regs (s : State) (v : Nat) : (applyUpd (.peerTickAt v) s).regs = s.regs := rfl
@[simp] theorem peerTickAt_upd_mem (s : State) (v : Nat) : (applyUpd (.peerTickAt v) s).mem = s.mem := rfl
@[simp] theorem peerTickAt_upd_sram (s : State) (v : Nat) : (applyUpd (.peerTickAt v) s).sram = s.sram := rfl
@[simp] theorem peerTickAt_upd_time (s : State) (v : Nat) : (applyUpd (.peerTickAt v) s).time = s.time := rfl
@[simp] theorem peerTickAt_upd_timeFrac (s : State) (v : Nat) : (applyUpd (.peerTickAt v) s).timeFrac = s.timeFrac := rfl
@[simp] theorem peerTickAt_upd_freeCtr (s : State) (v : Nat) : (applyUpd (.peerTickAt v) s).freeCtr = s.freeCtr := rfl
@[simp] theorem peerTickAt_upd_hiLatch (s : State) (v : Nat) : (applyUpd (.peerTickAt v) s).hiLatch = s.hiLatch := rfl
@[simp] theorem peerTickAt_upd_timeSet (s : State) (v : Nat) : (applyUpd (.peerTickAt v) s).timeSet = s.timeSet := rfl
@[simp] theorem peerTickAt_upd_n0 (s : State) (v : Nat) : (applyUpd (.peerTickAt v) s).n0 = s.n0 := rfl
@[simp] theorem peerTickAt_upd_ticked (s : State) (v : Nat) : (applyUpd (.peerTickAt v) s).ticked = s.ticked := rfl
@[simp] theorem peerTickAt_upd_peerTickAt (s : State) (v : Nat) : (applyUpd (.peerTickAt v) s).peerTickAt = v := rfl
@[simp] theorem peerTickAt_upd_guardPitch (s : State) (v : Nat) : (applyUpd (.peerTickAt v) s).guardPitch = s.guardPitch := rfl
@[simp] theorem peerTickAt_upd_diePitch (s : State) (v : Nat) : (applyUpd (.peerTickAt v) s).diePitch = s.diePitch := rfl
@[simp] theorem peerTickAt_upd_resps (s : State) (v : Nat) : (applyUpd (.peerTickAt v) s).resps = s.resps := rfl
@[simp] theorem peerTickAt_upd_txns (s : State) (v : Nat) : (applyUpd (.peerTickAt v) s).txns = s.txns := rfl
@[simp] theorem peerTickAt_upd_nextTag (s : State) (v : Nat) : (applyUpd (.peerTickAt v) s).nextTag = s.nextTag := rfl
@[simp] theorem peerTickAt_upd_lateTags (s : State) (v : Nat) : (applyUpd (.peerTickAt v) s).lateTags = s.lateTags := rfl
@[simp] theorem peerTickAt_upd_ports (s : State) (v : Nat) : (applyUpd (.peerTickAt v) s).ports = s.ports := rfl
@[simp] theorem peerTickAt_upd_threads (s : State) (v : Nat) : (applyUpd (.peerTickAt v) s).threads = s.threads := rfl
@[simp] theorem peerTickAt_upd_cores (s : State) (v : Nat) : (applyUpd (.peerTickAt v) s).cores = s.cores := rfl
@[simp] theorem peerTickAt_upd_engines (s : State) (v : Nat) : (applyUpd (.peerTickAt v) s).engines = s.engines := rfl
@[simp] theorem peerTickAt_upd_held (s : State) (v : Nat) : (applyUpd (.peerTickAt v) s).held = s.held := rfl
@[simp] theorem peerTickAt_upd_watches (s : State) (v : Nat) : (applyUpd (.peerTickAt v) s).watches = s.watches := rfl
@[simp] theorem peerTickAt_upd_watchMsgs (s : State) (v : Nat) : (applyUpd (.peerTickAt v) s).watchMsgs = s.watchMsgs := rfl
@[simp] theorem peerTickAt_upd_bankHeld (s : State) (v : Nat) : (applyUpd (.peerTickAt v) s).bankHeld = s.bankHeld := rfl
@[simp] theorem peerTickAt_upd_bankTarget (s : State) (v : Nat) : (applyUpd (.peerTickAt v) s).bankTarget = s.bankTarget := rfl
@[simp] theorem peerTickAt_upd_ecc (s : State) (v : Nat) : (applyUpd (.peerTickAt v) s).ecc = s.ecc := rfl
@[simp] theorem peerTickAt_upd_lineEcc (s : State) (v : Nat) : (applyUpd (.peerTickAt v) s).lineEcc = s.lineEcc := rfl
@[simp] theorem peerTickAt_upd_wbPending (s : State) (v : Nat) : (applyUpd (.peerTickAt v) s).wbPending = s.wbPending := rfl
@[simp] theorem peerTickAt_upd_scrubPos (s : State) (v : Nat) : (applyUpd (.peerTickAt v) s).scrubPos = s.scrubPos := rfl
@[simp] theorem peerTickAt_upd_refusals (s : State) (v : Nat) : (applyUpd (.peerTickAt v) s).refusals = s.refusals := rfl
@[simp] theorem peerTickAt_upd_firstRefusal (s : State) (v : Nat) : (applyUpd (.peerTickAt v) s).firstRefusal = s.firstRefusal := rfl
@[simp] theorem peerTickAt_upd_boxQueue (s : State) (v : Nat) : (applyUpd (.peerTickAt v) s).boxQueue = s.boxQueue := rfl
@[simp] theorem peerTickAt_upd_boxRun (s : State) (v : Nat) : (applyUpd (.peerTickAt v) s).boxRun = s.boxRun := rfl
@[simp] theorem peerTickAt_upd_kvs (s : State) (v : Nat) : (applyUpd (.peerTickAt v) s).kvs = s.kvs := rfl
@[simp] theorem peerTickAt_upd_parts (s : State) (v : Nat) : (applyUpd (.peerTickAt v) s).parts = s.parts := rfl
@[simp] theorem peerTickAt_upd_dmas (s : State) (v : Nat) : (applyUpd (.peerTickAt v) s).dmas = s.dmas := rfl
@[simp] theorem peerTickAt_upd_regReqs (s : State) (v : Nat) : (applyUpd (.peerTickAt v) s).regReqs = s.regReqs := rfl
@[simp] theorem peerTickAt_upd_regPorts (s : State) (v : Nat) : (applyUpd (.peerTickAt v) s).regPorts = s.regPorts := rfl
@[simp] theorem peerTickAt_upd_subchs (s : State) (v : Nat) : (applyUpd (.peerTickAt v) s).subchs = s.subchs := rfl
@[simp] theorem peerTickAt_upd_trackers (s : State) (v : Nat) : (applyUpd (.peerTickAt v) s).trackers = s.trackers := rfl
@[simp] theorem peerTickAt_upd_throttles (s : State) (v : Nat) : (applyUpd (.peerTickAt v) s).throttles = s.throttles := rfl
@[simp] theorem peerTickAt_upd_errRing (s : State) (v : Nat) : (applyUpd (.peerTickAt v) s).errRing = s.errRing := rfl
@[simp] theorem peerTickAt_upd_errRingOvf (s : State) (v : Nat) : (applyUpd (.peerTickAt v) s).errRingOvf = s.errRingOvf := rfl
@[simp] theorem peerTickAt_upd_patrolLine (s : State) (v : Nat) : (applyUpd (.peerTickAt v) s).patrolLine = s.patrolLine := rfl
@[simp] theorem peerTickAt_upd_retTimes (s : State) (v : Nat) : (applyUpd (.peerTickAt v) s).retTimes = s.retTimes := rfl
@[simp] theorem peerTickAt_upd_retired (s : State) (v : Nat) : (applyUpd (.peerTickAt v) s).retired = s.retired := rfl
@[simp] theorem peerTickAt_upd_dramSeq (s : State) (v : Nat) : (applyUpd (.peerTickAt v) s).dramSeq = s.dramSeq := rfl
@[simp] theorem peerTickAt_upd_trn (s : State) (v : Nat) : (applyUpd (.peerTickAt v) s).trn = s.trn := rfl
@[simp] theorem peerTickAt_upd_dqsAdj (s : State) (v : Nat) : (applyUpd (.peerTickAt v) s).dqsAdj = s.dqsAdj := rfl
@[simp] theorem peerTickAt_upd_dpol (s : State) (v : Nat) : (applyUpd (.peerTickAt v) s).dpol = s.dpol := rfl
@[simp] theorem peerTickAt_upd_idleAt (s : State) (v : Nat) : (applyUpd (.peerTickAt v) s).idleAt = s.idleAt := rfl
@[simp] theorem peerTickAt_upd_fitted (s : State) (v : Nat) : (applyUpd (.peerTickAt v) s).fitted = s.fitted := rfl
@[simp] theorem peerTickAt_upd_faultMsgs (s : State) (v : Nat) : (applyUpd (.peerTickAt v) s).faultMsgs = s.faultMsgs := rfl
@[simp] theorem peerTickAt_upd_out (s : State) (v : Nat) : (applyUpd (.peerTickAt v) s).out = s.out := rfl
@[simp] theorem peerTickAt_upd_lastRead (s : State) (v : Nat) : (applyUpd (.peerTickAt v) s).lastRead = s.lastRead := rfl
@[simp] theorem peerTickAt_upd_fwd (s : State) (v : Nat) : (applyUpd (.peerTickAt v) s).fwd = s.fwd := rfl
@[simp] theorem peerTickAt_upd_ethTx (s : State) (v : Nat) : (applyUpd (.peerTickAt v) s).ethTx = s.ethTx := rfl
@[simp] theorem peerTickAt_upd_ethHeadAt (s : State) (v : Nat) : (applyUpd (.peerTickAt v) s).ethHeadAt = s.ethHeadAt := rfl
@[simp] theorem peerTickAt_upd_canTx (s : State) (v : Nat) : (applyUpd (.peerTickAt v) s).canTx = s.canTx := rfl
@[simp] theorem peerTickAt_upd_pcieOut (s : State) (v : Nat) : (applyUpd (.peerTickAt v) s).pcieOut = s.pcieOut := rfl
@[simp] theorem peerTickAt_upd_pcieCfgRd (s : State) (v : Nat) : (applyUpd (.peerTickAt v) s).pcieCfgRd = s.pcieCfgRd := rfl
@[simp] theorem peerTickAt_upd_msix (s : State) (v : Nat) : (applyUpd (.peerTickAt v) s).msix = s.msix := rfl
@[simp] theorem peerTickAt_upd_ancs (s : State) (v : Nat) : (applyUpd (.peerTickAt v) s).ancs = s.ancs := rfl
@[simp] theorem peerTickAt_upd_trajArea (s : State) (v : Nat) : (applyUpd (.peerTickAt v) s).trajArea = s.trajArea := rfl
@[simp] theorem peerTickAt_upd_lidarIn (s : State) (v : Nat) : (applyUpd (.peerTickAt v) s).lidarIn = s.lidarIn := rfl
@[simp] theorem peerTickAt_upd_wheelIn (s : State) (v : Nat) : (applyUpd (.peerTickAt v) s).wheelIn = s.wheelIn := rfl
@[simp] theorem peerTickAt_upd_spiStepBusy (s : State) (v : Nat) : (applyUpd (.peerTickAt v) s).spiStepBusy = s.spiStepBusy := rfl
@[simp] theorem peerTickAt_upd_spiRec (s : State) (v : Nat) : (applyUpd (.peerTickAt v) s).spiRec = s.spiRec := rfl
@[simp] theorem peerTickAt_upd_spiStepCfg (s : State) (v : Nat) : (applyUpd (.peerTickAt v) s).spiStepCfg = s.spiStepCfg := rfl
@[simp] theorem peerTickAt_upd_ctxs (s : State) (v : Nat) : (applyUpd (.peerTickAt v) s).ctxs = s.ctxs := rfl
@[simp] theorem peerTickAt_upd_fsyOmit (s : State) (v : Nat) : (applyUpd (.peerTickAt v) s).fsyOmit = s.fsyOmit := rfl
@[simp] theorem peerTickAt_upd_fsyPulsed (s : State) (v : Nat) : (applyUpd (.peerTickAt v) s).fsyPulsed = s.fsyPulsed := rfl
@[simp] theorem peerTickAt_upd_supTasks (s : State) (v : Nat) : (applyUpd (.peerTickAt v) s).supTasks = s.supTasks := rfl
@[simp] theorem peerTickAt_upd_fus (s : State) (v : Nat) : (applyUpd (.peerTickAt v) s).fus = s.fus := rfl
@[simp] theorem peerTickAt_upd_fcons (s : State) (v : Nat) : (applyUpd (.peerTickAt v) s).fcons = s.fcons := rfl
@[simp] theorem peerTickAt_upd_shadow (s : State) (v : Nat) : (applyUpd (.peerTickAt v) s).shadow = s.shadow := rfl
@[simp] theorem peerTickAt_upd_trv (s : State) (v : Nat) : (applyUpd (.peerTickAt v) s).trv = s.trv := rfl
@[simp] theorem peerTickAt_upd_tlayers (s : State) (v : Nat) : (applyUpd (.peerTickAt v) s).tlayers = s.tlayers := rfl
@[simp] theorem peerTickAt_upd_jobFaults (s : State) (v : Nat) : (applyUpd (.peerTickAt v) s).jobFaults = s.jobFaults := rfl
@[simp] theorem peerTickAt_upd_unitLast (s : State) (v : Nat) : (applyUpd (.peerTickAt v) s).unitLast = s.unitLast := rfl
@[simp] theorem peerTickAt_upd_unitRst (s : State) (v : Nat) : (applyUpd (.peerTickAt v) s).unitRst = s.unitRst := rfl
@[simp] theorem peerTickAt_upd_xlink (s : State) (v : Nat) : (applyUpd (.peerTickAt v) s).xlink = s.xlink := rfl
@[simp] theorem peerTickAt_upd_trace (s : State) (v : Nat) : (applyUpd (.peerTickAt v) s).trace = s.trace := rfl
@[simp] theorem peerTickAt_upd_progs (s : State) (v : Nat) : (applyUpd (.peerTickAt v) s).progs = s.progs := rfl
@[simp] theorem peerTickAt_upd_rails (s : State) (v : Nat) : (applyUpd (.peerTickAt v) s).rails = s.rails := rfl
@[simp] theorem peerTickAt_upd_thm (s : State) (v : Nat) : (applyUpd (.peerTickAt v) s).thm = s.thm := rfl
@[simp] theorem peerTickAt_upd_bnd (s : State) (v : Nat) : (applyUpd (.peerTickAt v) s).bnd = s.bnd := rfl
@[simp] theorem peerTickAt_upd_thmTrip (s : State) (v : Nat) : (applyUpd (.peerTickAt v) s).thmTrip = s.thmTrip := rfl
@[simp] theorem peerTickAt_upd_flash (s : State) (v : Nat) : (applyUpd (.peerTickAt v) s).flash = s.flash := rfl
@[simp] theorem peerTickAt_upd_slots (s : State) (v : Nat) : (applyUpd (.peerTickAt v) s).slots = s.slots := rfl
@[simp] theorem peerTickAt_upd_stores (s : State) (v : Nat) : (applyUpd (.peerTickAt v) s).stores = s.stores := rfl
@[simp] theorem peerTickAt_upd_ids (s : State) (v : Nat) : (applyUpd (.peerTickAt v) s).ids = s.ids := rfl
@[simp] theorem peerTickAt_upd_boot (s : State) (v : Nat) : (applyUpd (.peerTickAt v) s).boot = s.boot := rfl
@[simp] theorem peerTickAt_upd_load (s : State) (v : Nat) : (applyUpd (.peerTickAt v) s).load = s.load := rfl
@[simp] theorem peerTickAt_upd_flt (s : State) (v : Nat) : (applyUpd (.peerTickAt v) s).flt = s.flt := rfl
@[simp] theorem peerTickAt_upd_mon (s : State) (v : Nat) : (applyUpd (.peerTickAt v) s).mon = s.mon := rfl
@[simp] theorem guardPitch_upd_pending (s : State) (v : Option Nat) : (applyUpd (.guardPitch v) s).pending = s.pending := rfl
@[simp] theorem guardPitch_upd_regs (s : State) (v : Option Nat) : (applyUpd (.guardPitch v) s).regs = s.regs := rfl
@[simp] theorem guardPitch_upd_mem (s : State) (v : Option Nat) : (applyUpd (.guardPitch v) s).mem = s.mem := rfl
@[simp] theorem guardPitch_upd_sram (s : State) (v : Option Nat) : (applyUpd (.guardPitch v) s).sram = s.sram := rfl
@[simp] theorem guardPitch_upd_time (s : State) (v : Option Nat) : (applyUpd (.guardPitch v) s).time = s.time := rfl
@[simp] theorem guardPitch_upd_timeFrac (s : State) (v : Option Nat) : (applyUpd (.guardPitch v) s).timeFrac = s.timeFrac := rfl
@[simp] theorem guardPitch_upd_freeCtr (s : State) (v : Option Nat) : (applyUpd (.guardPitch v) s).freeCtr = s.freeCtr := rfl
@[simp] theorem guardPitch_upd_hiLatch (s : State) (v : Option Nat) : (applyUpd (.guardPitch v) s).hiLatch = s.hiLatch := rfl
@[simp] theorem guardPitch_upd_timeSet (s : State) (v : Option Nat) : (applyUpd (.guardPitch v) s).timeSet = s.timeSet := rfl
@[simp] theorem guardPitch_upd_n0 (s : State) (v : Option Nat) : (applyUpd (.guardPitch v) s).n0 = s.n0 := rfl
@[simp] theorem guardPitch_upd_ticked (s : State) (v : Option Nat) : (applyUpd (.guardPitch v) s).ticked = s.ticked := rfl
@[simp] theorem guardPitch_upd_peerTickAt (s : State) (v : Option Nat) : (applyUpd (.guardPitch v) s).peerTickAt = s.peerTickAt := rfl
@[simp] theorem guardPitch_upd_guardPitch (s : State) (v : Option Nat) : (applyUpd (.guardPitch v) s).guardPitch = v := rfl
@[simp] theorem guardPitch_upd_diePitch (s : State) (v : Option Nat) : (applyUpd (.guardPitch v) s).diePitch = s.diePitch := rfl
@[simp] theorem guardPitch_upd_resps (s : State) (v : Option Nat) : (applyUpd (.guardPitch v) s).resps = s.resps := rfl
@[simp] theorem guardPitch_upd_txns (s : State) (v : Option Nat) : (applyUpd (.guardPitch v) s).txns = s.txns := rfl
@[simp] theorem guardPitch_upd_nextTag (s : State) (v : Option Nat) : (applyUpd (.guardPitch v) s).nextTag = s.nextTag := rfl
@[simp] theorem guardPitch_upd_lateTags (s : State) (v : Option Nat) : (applyUpd (.guardPitch v) s).lateTags = s.lateTags := rfl
@[simp] theorem guardPitch_upd_ports (s : State) (v : Option Nat) : (applyUpd (.guardPitch v) s).ports = s.ports := rfl
@[simp] theorem guardPitch_upd_threads (s : State) (v : Option Nat) : (applyUpd (.guardPitch v) s).threads = s.threads := rfl
@[simp] theorem guardPitch_upd_cores (s : State) (v : Option Nat) : (applyUpd (.guardPitch v) s).cores = s.cores := rfl
@[simp] theorem guardPitch_upd_engines (s : State) (v : Option Nat) : (applyUpd (.guardPitch v) s).engines = s.engines := rfl
@[simp] theorem guardPitch_upd_held (s : State) (v : Option Nat) : (applyUpd (.guardPitch v) s).held = s.held := rfl
@[simp] theorem guardPitch_upd_watches (s : State) (v : Option Nat) : (applyUpd (.guardPitch v) s).watches = s.watches := rfl
@[simp] theorem guardPitch_upd_watchMsgs (s : State) (v : Option Nat) : (applyUpd (.guardPitch v) s).watchMsgs = s.watchMsgs := rfl
@[simp] theorem guardPitch_upd_bankHeld (s : State) (v : Option Nat) : (applyUpd (.guardPitch v) s).bankHeld = s.bankHeld := rfl
@[simp] theorem guardPitch_upd_bankTarget (s : State) (v : Option Nat) : (applyUpd (.guardPitch v) s).bankTarget = s.bankTarget := rfl
@[simp] theorem guardPitch_upd_ecc (s : State) (v : Option Nat) : (applyUpd (.guardPitch v) s).ecc = s.ecc := rfl
@[simp] theorem guardPitch_upd_lineEcc (s : State) (v : Option Nat) : (applyUpd (.guardPitch v) s).lineEcc = s.lineEcc := rfl
@[simp] theorem guardPitch_upd_wbPending (s : State) (v : Option Nat) : (applyUpd (.guardPitch v) s).wbPending = s.wbPending := rfl
@[simp] theorem guardPitch_upd_scrubPos (s : State) (v : Option Nat) : (applyUpd (.guardPitch v) s).scrubPos = s.scrubPos := rfl
@[simp] theorem guardPitch_upd_refusals (s : State) (v : Option Nat) : (applyUpd (.guardPitch v) s).refusals = s.refusals := rfl
@[simp] theorem guardPitch_upd_firstRefusal (s : State) (v : Option Nat) : (applyUpd (.guardPitch v) s).firstRefusal = s.firstRefusal := rfl
@[simp] theorem guardPitch_upd_boxQueue (s : State) (v : Option Nat) : (applyUpd (.guardPitch v) s).boxQueue = s.boxQueue := rfl
@[simp] theorem guardPitch_upd_boxRun (s : State) (v : Option Nat) : (applyUpd (.guardPitch v) s).boxRun = s.boxRun := rfl
@[simp] theorem guardPitch_upd_kvs (s : State) (v : Option Nat) : (applyUpd (.guardPitch v) s).kvs = s.kvs := rfl
@[simp] theorem guardPitch_upd_parts (s : State) (v : Option Nat) : (applyUpd (.guardPitch v) s).parts = s.parts := rfl
@[simp] theorem guardPitch_upd_dmas (s : State) (v : Option Nat) : (applyUpd (.guardPitch v) s).dmas = s.dmas := rfl
@[simp] theorem guardPitch_upd_regReqs (s : State) (v : Option Nat) : (applyUpd (.guardPitch v) s).regReqs = s.regReqs := rfl
@[simp] theorem guardPitch_upd_regPorts (s : State) (v : Option Nat) : (applyUpd (.guardPitch v) s).regPorts = s.regPorts := rfl
@[simp] theorem guardPitch_upd_subchs (s : State) (v : Option Nat) : (applyUpd (.guardPitch v) s).subchs = s.subchs := rfl
@[simp] theorem guardPitch_upd_trackers (s : State) (v : Option Nat) : (applyUpd (.guardPitch v) s).trackers = s.trackers := rfl
@[simp] theorem guardPitch_upd_throttles (s : State) (v : Option Nat) : (applyUpd (.guardPitch v) s).throttles = s.throttles := rfl
@[simp] theorem guardPitch_upd_errRing (s : State) (v : Option Nat) : (applyUpd (.guardPitch v) s).errRing = s.errRing := rfl
@[simp] theorem guardPitch_upd_errRingOvf (s : State) (v : Option Nat) : (applyUpd (.guardPitch v) s).errRingOvf = s.errRingOvf := rfl
@[simp] theorem guardPitch_upd_patrolLine (s : State) (v : Option Nat) : (applyUpd (.guardPitch v) s).patrolLine = s.patrolLine := rfl
@[simp] theorem guardPitch_upd_retTimes (s : State) (v : Option Nat) : (applyUpd (.guardPitch v) s).retTimes = s.retTimes := rfl
@[simp] theorem guardPitch_upd_retired (s : State) (v : Option Nat) : (applyUpd (.guardPitch v) s).retired = s.retired := rfl
@[simp] theorem guardPitch_upd_dramSeq (s : State) (v : Option Nat) : (applyUpd (.guardPitch v) s).dramSeq = s.dramSeq := rfl
@[simp] theorem guardPitch_upd_trn (s : State) (v : Option Nat) : (applyUpd (.guardPitch v) s).trn = s.trn := rfl
@[simp] theorem guardPitch_upd_dqsAdj (s : State) (v : Option Nat) : (applyUpd (.guardPitch v) s).dqsAdj = s.dqsAdj := rfl
@[simp] theorem guardPitch_upd_dpol (s : State) (v : Option Nat) : (applyUpd (.guardPitch v) s).dpol = s.dpol := rfl
@[simp] theorem guardPitch_upd_idleAt (s : State) (v : Option Nat) : (applyUpd (.guardPitch v) s).idleAt = s.idleAt := rfl
@[simp] theorem guardPitch_upd_fitted (s : State) (v : Option Nat) : (applyUpd (.guardPitch v) s).fitted = s.fitted := rfl
@[simp] theorem guardPitch_upd_faultMsgs (s : State) (v : Option Nat) : (applyUpd (.guardPitch v) s).faultMsgs = s.faultMsgs := rfl
@[simp] theorem guardPitch_upd_out (s : State) (v : Option Nat) : (applyUpd (.guardPitch v) s).out = s.out := rfl
@[simp] theorem guardPitch_upd_lastRead (s : State) (v : Option Nat) : (applyUpd (.guardPitch v) s).lastRead = s.lastRead := rfl
@[simp] theorem guardPitch_upd_fwd (s : State) (v : Option Nat) : (applyUpd (.guardPitch v) s).fwd = s.fwd := rfl
@[simp] theorem guardPitch_upd_ethTx (s : State) (v : Option Nat) : (applyUpd (.guardPitch v) s).ethTx = s.ethTx := rfl
@[simp] theorem guardPitch_upd_ethHeadAt (s : State) (v : Option Nat) : (applyUpd (.guardPitch v) s).ethHeadAt = s.ethHeadAt := rfl
@[simp] theorem guardPitch_upd_canTx (s : State) (v : Option Nat) : (applyUpd (.guardPitch v) s).canTx = s.canTx := rfl
@[simp] theorem guardPitch_upd_pcieOut (s : State) (v : Option Nat) : (applyUpd (.guardPitch v) s).pcieOut = s.pcieOut := rfl
@[simp] theorem guardPitch_upd_pcieCfgRd (s : State) (v : Option Nat) : (applyUpd (.guardPitch v) s).pcieCfgRd = s.pcieCfgRd := rfl
@[simp] theorem guardPitch_upd_msix (s : State) (v : Option Nat) : (applyUpd (.guardPitch v) s).msix = s.msix := rfl
@[simp] theorem guardPitch_upd_ancs (s : State) (v : Option Nat) : (applyUpd (.guardPitch v) s).ancs = s.ancs := rfl
@[simp] theorem guardPitch_upd_trajArea (s : State) (v : Option Nat) : (applyUpd (.guardPitch v) s).trajArea = s.trajArea := rfl
@[simp] theorem guardPitch_upd_lidarIn (s : State) (v : Option Nat) : (applyUpd (.guardPitch v) s).lidarIn = s.lidarIn := rfl
@[simp] theorem guardPitch_upd_wheelIn (s : State) (v : Option Nat) : (applyUpd (.guardPitch v) s).wheelIn = s.wheelIn := rfl
@[simp] theorem guardPitch_upd_spiStepBusy (s : State) (v : Option Nat) : (applyUpd (.guardPitch v) s).spiStepBusy = s.spiStepBusy := rfl
@[simp] theorem guardPitch_upd_spiRec (s : State) (v : Option Nat) : (applyUpd (.guardPitch v) s).spiRec = s.spiRec := rfl
@[simp] theorem guardPitch_upd_spiStepCfg (s : State) (v : Option Nat) : (applyUpd (.guardPitch v) s).spiStepCfg = s.spiStepCfg := rfl
@[simp] theorem guardPitch_upd_ctxs (s : State) (v : Option Nat) : (applyUpd (.guardPitch v) s).ctxs = s.ctxs := rfl
@[simp] theorem guardPitch_upd_fsyOmit (s : State) (v : Option Nat) : (applyUpd (.guardPitch v) s).fsyOmit = s.fsyOmit := rfl
@[simp] theorem guardPitch_upd_fsyPulsed (s : State) (v : Option Nat) : (applyUpd (.guardPitch v) s).fsyPulsed = s.fsyPulsed := rfl
@[simp] theorem guardPitch_upd_supTasks (s : State) (v : Option Nat) : (applyUpd (.guardPitch v) s).supTasks = s.supTasks := rfl
@[simp] theorem guardPitch_upd_fus (s : State) (v : Option Nat) : (applyUpd (.guardPitch v) s).fus = s.fus := rfl
@[simp] theorem guardPitch_upd_fcons (s : State) (v : Option Nat) : (applyUpd (.guardPitch v) s).fcons = s.fcons := rfl
@[simp] theorem guardPitch_upd_shadow (s : State) (v : Option Nat) : (applyUpd (.guardPitch v) s).shadow = s.shadow := rfl
@[simp] theorem guardPitch_upd_trv (s : State) (v : Option Nat) : (applyUpd (.guardPitch v) s).trv = s.trv := rfl
@[simp] theorem guardPitch_upd_tlayers (s : State) (v : Option Nat) : (applyUpd (.guardPitch v) s).tlayers = s.tlayers := rfl
@[simp] theorem guardPitch_upd_jobFaults (s : State) (v : Option Nat) : (applyUpd (.guardPitch v) s).jobFaults = s.jobFaults := rfl
@[simp] theorem guardPitch_upd_unitLast (s : State) (v : Option Nat) : (applyUpd (.guardPitch v) s).unitLast = s.unitLast := rfl
@[simp] theorem guardPitch_upd_unitRst (s : State) (v : Option Nat) : (applyUpd (.guardPitch v) s).unitRst = s.unitRst := rfl
@[simp] theorem guardPitch_upd_xlink (s : State) (v : Option Nat) : (applyUpd (.guardPitch v) s).xlink = s.xlink := rfl
@[simp] theorem guardPitch_upd_trace (s : State) (v : Option Nat) : (applyUpd (.guardPitch v) s).trace = s.trace := rfl
@[simp] theorem guardPitch_upd_progs (s : State) (v : Option Nat) : (applyUpd (.guardPitch v) s).progs = s.progs := rfl
@[simp] theorem guardPitch_upd_rails (s : State) (v : Option Nat) : (applyUpd (.guardPitch v) s).rails = s.rails := rfl
@[simp] theorem guardPitch_upd_thm (s : State) (v : Option Nat) : (applyUpd (.guardPitch v) s).thm = s.thm := rfl
@[simp] theorem guardPitch_upd_bnd (s : State) (v : Option Nat) : (applyUpd (.guardPitch v) s).bnd = s.bnd := rfl
@[simp] theorem guardPitch_upd_thmTrip (s : State) (v : Option Nat) : (applyUpd (.guardPitch v) s).thmTrip = s.thmTrip := rfl
@[simp] theorem guardPitch_upd_flash (s : State) (v : Option Nat) : (applyUpd (.guardPitch v) s).flash = s.flash := rfl
@[simp] theorem guardPitch_upd_slots (s : State) (v : Option Nat) : (applyUpd (.guardPitch v) s).slots = s.slots := rfl
@[simp] theorem guardPitch_upd_stores (s : State) (v : Option Nat) : (applyUpd (.guardPitch v) s).stores = s.stores := rfl
@[simp] theorem guardPitch_upd_ids (s : State) (v : Option Nat) : (applyUpd (.guardPitch v) s).ids = s.ids := rfl
@[simp] theorem guardPitch_upd_boot (s : State) (v : Option Nat) : (applyUpd (.guardPitch v) s).boot = s.boot := rfl
@[simp] theorem guardPitch_upd_load (s : State) (v : Option Nat) : (applyUpd (.guardPitch v) s).load = s.load := rfl
@[simp] theorem guardPitch_upd_flt (s : State) (v : Option Nat) : (applyUpd (.guardPitch v) s).flt = s.flt := rfl
@[simp] theorem guardPitch_upd_mon (s : State) (v : Option Nat) : (applyUpd (.guardPitch v) s).mon = s.mon := rfl
@[simp] theorem diePitch_upd_pending (s : State) (k : Nat) (v : Nat) : (applyUpd (.diePitch k v) s).pending = s.pending := rfl
@[simp] theorem diePitch_upd_regs (s : State) (k : Nat) (v : Nat) : (applyUpd (.diePitch k v) s).regs = s.regs := rfl
@[simp] theorem diePitch_upd_mem (s : State) (k : Nat) (v : Nat) : (applyUpd (.diePitch k v) s).mem = s.mem := rfl
@[simp] theorem diePitch_upd_sram (s : State) (k : Nat) (v : Nat) : (applyUpd (.diePitch k v) s).sram = s.sram := rfl
@[simp] theorem diePitch_upd_time (s : State) (k : Nat) (v : Nat) : (applyUpd (.diePitch k v) s).time = s.time := rfl
@[simp] theorem diePitch_upd_timeFrac (s : State) (k : Nat) (v : Nat) : (applyUpd (.diePitch k v) s).timeFrac = s.timeFrac := rfl
@[simp] theorem diePitch_upd_freeCtr (s : State) (k : Nat) (v : Nat) : (applyUpd (.diePitch k v) s).freeCtr = s.freeCtr := rfl
@[simp] theorem diePitch_upd_hiLatch (s : State) (k : Nat) (v : Nat) : (applyUpd (.diePitch k v) s).hiLatch = s.hiLatch := rfl
@[simp] theorem diePitch_upd_timeSet (s : State) (k : Nat) (v : Nat) : (applyUpd (.diePitch k v) s).timeSet = s.timeSet := rfl
@[simp] theorem diePitch_upd_n0 (s : State) (k : Nat) (v : Nat) : (applyUpd (.diePitch k v) s).n0 = s.n0 := rfl
@[simp] theorem diePitch_upd_ticked (s : State) (k : Nat) (v : Nat) : (applyUpd (.diePitch k v) s).ticked = s.ticked := rfl
@[simp] theorem diePitch_upd_peerTickAt (s : State) (k : Nat) (v : Nat) : (applyUpd (.diePitch k v) s).peerTickAt = s.peerTickAt := rfl
@[simp] theorem diePitch_upd_guardPitch (s : State) (k : Nat) (v : Nat) : (applyUpd (.diePitch k v) s).guardPitch = s.guardPitch := rfl
@[simp] theorem diePitch_upd_diePitch (s : State) (k : Nat) (v : Nat) : (applyUpd (.diePitch k v) s).diePitch = tabSet zeroNat s.diePitch k v := rfl
@[simp] theorem diePitch_upd_resps (s : State) (k : Nat) (v : Nat) : (applyUpd (.diePitch k v) s).resps = s.resps := rfl
@[simp] theorem diePitch_upd_txns (s : State) (k : Nat) (v : Nat) : (applyUpd (.diePitch k v) s).txns = s.txns := rfl
@[simp] theorem diePitch_upd_nextTag (s : State) (k : Nat) (v : Nat) : (applyUpd (.diePitch k v) s).nextTag = s.nextTag := rfl
@[simp] theorem diePitch_upd_lateTags (s : State) (k : Nat) (v : Nat) : (applyUpd (.diePitch k v) s).lateTags = s.lateTags := rfl
@[simp] theorem diePitch_upd_ports (s : State) (k : Nat) (v : Nat) : (applyUpd (.diePitch k v) s).ports = s.ports := rfl
@[simp] theorem diePitch_upd_threads (s : State) (k : Nat) (v : Nat) : (applyUpd (.diePitch k v) s).threads = s.threads := rfl
@[simp] theorem diePitch_upd_cores (s : State) (k : Nat) (v : Nat) : (applyUpd (.diePitch k v) s).cores = s.cores := rfl
@[simp] theorem diePitch_upd_engines (s : State) (k : Nat) (v : Nat) : (applyUpd (.diePitch k v) s).engines = s.engines := rfl
@[simp] theorem diePitch_upd_held (s : State) (k : Nat) (v : Nat) : (applyUpd (.diePitch k v) s).held = s.held := rfl
@[simp] theorem diePitch_upd_watches (s : State) (k : Nat) (v : Nat) : (applyUpd (.diePitch k v) s).watches = s.watches := rfl
@[simp] theorem diePitch_upd_watchMsgs (s : State) (k : Nat) (v : Nat) : (applyUpd (.diePitch k v) s).watchMsgs = s.watchMsgs := rfl
@[simp] theorem diePitch_upd_bankHeld (s : State) (k : Nat) (v : Nat) : (applyUpd (.diePitch k v) s).bankHeld = s.bankHeld := rfl
@[simp] theorem diePitch_upd_bankTarget (s : State) (k : Nat) (v : Nat) : (applyUpd (.diePitch k v) s).bankTarget = s.bankTarget := rfl
@[simp] theorem diePitch_upd_ecc (s : State) (k : Nat) (v : Nat) : (applyUpd (.diePitch k v) s).ecc = s.ecc := rfl
@[simp] theorem diePitch_upd_lineEcc (s : State) (k : Nat) (v : Nat) : (applyUpd (.diePitch k v) s).lineEcc = s.lineEcc := rfl
@[simp] theorem diePitch_upd_wbPending (s : State) (k : Nat) (v : Nat) : (applyUpd (.diePitch k v) s).wbPending = s.wbPending := rfl
@[simp] theorem diePitch_upd_scrubPos (s : State) (k : Nat) (v : Nat) : (applyUpd (.diePitch k v) s).scrubPos = s.scrubPos := rfl
@[simp] theorem diePitch_upd_refusals (s : State) (k : Nat) (v : Nat) : (applyUpd (.diePitch k v) s).refusals = s.refusals := rfl
@[simp] theorem diePitch_upd_firstRefusal (s : State) (k : Nat) (v : Nat) : (applyUpd (.diePitch k v) s).firstRefusal = s.firstRefusal := rfl
@[simp] theorem diePitch_upd_boxQueue (s : State) (k : Nat) (v : Nat) : (applyUpd (.diePitch k v) s).boxQueue = s.boxQueue := rfl
@[simp] theorem diePitch_upd_boxRun (s : State) (k : Nat) (v : Nat) : (applyUpd (.diePitch k v) s).boxRun = s.boxRun := rfl
@[simp] theorem diePitch_upd_kvs (s : State) (k : Nat) (v : Nat) : (applyUpd (.diePitch k v) s).kvs = s.kvs := rfl
@[simp] theorem diePitch_upd_parts (s : State) (k : Nat) (v : Nat) : (applyUpd (.diePitch k v) s).parts = s.parts := rfl
@[simp] theorem diePitch_upd_dmas (s : State) (k : Nat) (v : Nat) : (applyUpd (.diePitch k v) s).dmas = s.dmas := rfl
@[simp] theorem diePitch_upd_regReqs (s : State) (k : Nat) (v : Nat) : (applyUpd (.diePitch k v) s).regReqs = s.regReqs := rfl
@[simp] theorem diePitch_upd_regPorts (s : State) (k : Nat) (v : Nat) : (applyUpd (.diePitch k v) s).regPorts = s.regPorts := rfl
@[simp] theorem diePitch_upd_subchs (s : State) (k : Nat) (v : Nat) : (applyUpd (.diePitch k v) s).subchs = s.subchs := rfl
@[simp] theorem diePitch_upd_trackers (s : State) (k : Nat) (v : Nat) : (applyUpd (.diePitch k v) s).trackers = s.trackers := rfl
@[simp] theorem diePitch_upd_throttles (s : State) (k : Nat) (v : Nat) : (applyUpd (.diePitch k v) s).throttles = s.throttles := rfl
@[simp] theorem diePitch_upd_errRing (s : State) (k : Nat) (v : Nat) : (applyUpd (.diePitch k v) s).errRing = s.errRing := rfl
@[simp] theorem diePitch_upd_errRingOvf (s : State) (k : Nat) (v : Nat) : (applyUpd (.diePitch k v) s).errRingOvf = s.errRingOvf := rfl
@[simp] theorem diePitch_upd_patrolLine (s : State) (k : Nat) (v : Nat) : (applyUpd (.diePitch k v) s).patrolLine = s.patrolLine := rfl
@[simp] theorem diePitch_upd_retTimes (s : State) (k : Nat) (v : Nat) : (applyUpd (.diePitch k v) s).retTimes = s.retTimes := rfl
@[simp] theorem diePitch_upd_retired (s : State) (k : Nat) (v : Nat) : (applyUpd (.diePitch k v) s).retired = s.retired := rfl
@[simp] theorem diePitch_upd_dramSeq (s : State) (k : Nat) (v : Nat) : (applyUpd (.diePitch k v) s).dramSeq = s.dramSeq := rfl
@[simp] theorem diePitch_upd_trn (s : State) (k : Nat) (v : Nat) : (applyUpd (.diePitch k v) s).trn = s.trn := rfl
@[simp] theorem diePitch_upd_dqsAdj (s : State) (k : Nat) (v : Nat) : (applyUpd (.diePitch k v) s).dqsAdj = s.dqsAdj := rfl
@[simp] theorem diePitch_upd_dpol (s : State) (k : Nat) (v : Nat) : (applyUpd (.diePitch k v) s).dpol = s.dpol := rfl
@[simp] theorem diePitch_upd_idleAt (s : State) (k : Nat) (v : Nat) : (applyUpd (.diePitch k v) s).idleAt = s.idleAt := rfl
@[simp] theorem diePitch_upd_fitted (s : State) (k : Nat) (v : Nat) : (applyUpd (.diePitch k v) s).fitted = s.fitted := rfl
@[simp] theorem diePitch_upd_faultMsgs (s : State) (k : Nat) (v : Nat) : (applyUpd (.diePitch k v) s).faultMsgs = s.faultMsgs := rfl
@[simp] theorem diePitch_upd_out (s : State) (k : Nat) (v : Nat) : (applyUpd (.diePitch k v) s).out = s.out := rfl
@[simp] theorem diePitch_upd_lastRead (s : State) (k : Nat) (v : Nat) : (applyUpd (.diePitch k v) s).lastRead = s.lastRead := rfl
@[simp] theorem diePitch_upd_fwd (s : State) (k : Nat) (v : Nat) : (applyUpd (.diePitch k v) s).fwd = s.fwd := rfl
@[simp] theorem diePitch_upd_ethTx (s : State) (k : Nat) (v : Nat) : (applyUpd (.diePitch k v) s).ethTx = s.ethTx := rfl
@[simp] theorem diePitch_upd_ethHeadAt (s : State) (k : Nat) (v : Nat) : (applyUpd (.diePitch k v) s).ethHeadAt = s.ethHeadAt := rfl
@[simp] theorem diePitch_upd_canTx (s : State) (k : Nat) (v : Nat) : (applyUpd (.diePitch k v) s).canTx = s.canTx := rfl
@[simp] theorem diePitch_upd_pcieOut (s : State) (k : Nat) (v : Nat) : (applyUpd (.diePitch k v) s).pcieOut = s.pcieOut := rfl
@[simp] theorem diePitch_upd_pcieCfgRd (s : State) (k : Nat) (v : Nat) : (applyUpd (.diePitch k v) s).pcieCfgRd = s.pcieCfgRd := rfl
@[simp] theorem diePitch_upd_msix (s : State) (k : Nat) (v : Nat) : (applyUpd (.diePitch k v) s).msix = s.msix := rfl
@[simp] theorem diePitch_upd_ancs (s : State) (k : Nat) (v : Nat) : (applyUpd (.diePitch k v) s).ancs = s.ancs := rfl
@[simp] theorem diePitch_upd_trajArea (s : State) (k : Nat) (v : Nat) : (applyUpd (.diePitch k v) s).trajArea = s.trajArea := rfl
@[simp] theorem diePitch_upd_lidarIn (s : State) (k : Nat) (v : Nat) : (applyUpd (.diePitch k v) s).lidarIn = s.lidarIn := rfl
@[simp] theorem diePitch_upd_wheelIn (s : State) (k : Nat) (v : Nat) : (applyUpd (.diePitch k v) s).wheelIn = s.wheelIn := rfl
@[simp] theorem diePitch_upd_spiStepBusy (s : State) (k : Nat) (v : Nat) : (applyUpd (.diePitch k v) s).spiStepBusy = s.spiStepBusy := rfl
@[simp] theorem diePitch_upd_spiRec (s : State) (k : Nat) (v : Nat) : (applyUpd (.diePitch k v) s).spiRec = s.spiRec := rfl
@[simp] theorem diePitch_upd_spiStepCfg (s : State) (k : Nat) (v : Nat) : (applyUpd (.diePitch k v) s).spiStepCfg = s.spiStepCfg := rfl
@[simp] theorem diePitch_upd_ctxs (s : State) (k : Nat) (v : Nat) : (applyUpd (.diePitch k v) s).ctxs = s.ctxs := rfl
@[simp] theorem diePitch_upd_fsyOmit (s : State) (k : Nat) (v : Nat) : (applyUpd (.diePitch k v) s).fsyOmit = s.fsyOmit := rfl
@[simp] theorem diePitch_upd_fsyPulsed (s : State) (k : Nat) (v : Nat) : (applyUpd (.diePitch k v) s).fsyPulsed = s.fsyPulsed := rfl
@[simp] theorem diePitch_upd_supTasks (s : State) (k : Nat) (v : Nat) : (applyUpd (.diePitch k v) s).supTasks = s.supTasks := rfl
@[simp] theorem diePitch_upd_fus (s : State) (k : Nat) (v : Nat) : (applyUpd (.diePitch k v) s).fus = s.fus := rfl
@[simp] theorem diePitch_upd_fcons (s : State) (k : Nat) (v : Nat) : (applyUpd (.diePitch k v) s).fcons = s.fcons := rfl
@[simp] theorem diePitch_upd_shadow (s : State) (k : Nat) (v : Nat) : (applyUpd (.diePitch k v) s).shadow = s.shadow := rfl
@[simp] theorem diePitch_upd_trv (s : State) (k : Nat) (v : Nat) : (applyUpd (.diePitch k v) s).trv = s.trv := rfl
@[simp] theorem diePitch_upd_tlayers (s : State) (k : Nat) (v : Nat) : (applyUpd (.diePitch k v) s).tlayers = s.tlayers := rfl
@[simp] theorem diePitch_upd_jobFaults (s : State) (k : Nat) (v : Nat) : (applyUpd (.diePitch k v) s).jobFaults = s.jobFaults := rfl
@[simp] theorem diePitch_upd_unitLast (s : State) (k : Nat) (v : Nat) : (applyUpd (.diePitch k v) s).unitLast = s.unitLast := rfl
@[simp] theorem diePitch_upd_unitRst (s : State) (k : Nat) (v : Nat) : (applyUpd (.diePitch k v) s).unitRst = s.unitRst := rfl
@[simp] theorem diePitch_upd_xlink (s : State) (k : Nat) (v : Nat) : (applyUpd (.diePitch k v) s).xlink = s.xlink := rfl
@[simp] theorem diePitch_upd_trace (s : State) (k : Nat) (v : Nat) : (applyUpd (.diePitch k v) s).trace = s.trace := rfl
@[simp] theorem diePitch_upd_progs (s : State) (k : Nat) (v : Nat) : (applyUpd (.diePitch k v) s).progs = s.progs := rfl
@[simp] theorem diePitch_upd_rails (s : State) (k : Nat) (v : Nat) : (applyUpd (.diePitch k v) s).rails = s.rails := rfl
@[simp] theorem diePitch_upd_thm (s : State) (k : Nat) (v : Nat) : (applyUpd (.diePitch k v) s).thm = s.thm := rfl
@[simp] theorem diePitch_upd_bnd (s : State) (k : Nat) (v : Nat) : (applyUpd (.diePitch k v) s).bnd = s.bnd := rfl
@[simp] theorem diePitch_upd_thmTrip (s : State) (k : Nat) (v : Nat) : (applyUpd (.diePitch k v) s).thmTrip = s.thmTrip := rfl
@[simp] theorem diePitch_upd_flash (s : State) (k : Nat) (v : Nat) : (applyUpd (.diePitch k v) s).flash = s.flash := rfl
@[simp] theorem diePitch_upd_slots (s : State) (k : Nat) (v : Nat) : (applyUpd (.diePitch k v) s).slots = s.slots := rfl
@[simp] theorem diePitch_upd_stores (s : State) (k : Nat) (v : Nat) : (applyUpd (.diePitch k v) s).stores = s.stores := rfl
@[simp] theorem diePitch_upd_ids (s : State) (k : Nat) (v : Nat) : (applyUpd (.diePitch k v) s).ids = s.ids := rfl
@[simp] theorem diePitch_upd_boot (s : State) (k : Nat) (v : Nat) : (applyUpd (.diePitch k v) s).boot = s.boot := rfl
@[simp] theorem diePitch_upd_load (s : State) (k : Nat) (v : Nat) : (applyUpd (.diePitch k v) s).load = s.load := rfl
@[simp] theorem diePitch_upd_flt (s : State) (k : Nat) (v : Nat) : (applyUpd (.diePitch k v) s).flt = s.flt := rfl
@[simp] theorem diePitch_upd_mon (s : State) (k : Nat) (v : Nat) : (applyUpd (.diePitch k v) s).mon = s.mon := rfl
@[simp] theorem resps_upd_pending (s : State) (v : List Resp) : (applyUpd (.resps v) s).pending = s.pending := rfl
@[simp] theorem resps_upd_regs (s : State) (v : List Resp) : (applyUpd (.resps v) s).regs = s.regs := rfl
@[simp] theorem resps_upd_mem (s : State) (v : List Resp) : (applyUpd (.resps v) s).mem = s.mem := rfl
@[simp] theorem resps_upd_sram (s : State) (v : List Resp) : (applyUpd (.resps v) s).sram = s.sram := rfl
@[simp] theorem resps_upd_time (s : State) (v : List Resp) : (applyUpd (.resps v) s).time = s.time := rfl
@[simp] theorem resps_upd_timeFrac (s : State) (v : List Resp) : (applyUpd (.resps v) s).timeFrac = s.timeFrac := rfl
@[simp] theorem resps_upd_freeCtr (s : State) (v : List Resp) : (applyUpd (.resps v) s).freeCtr = s.freeCtr := rfl
@[simp] theorem resps_upd_hiLatch (s : State) (v : List Resp) : (applyUpd (.resps v) s).hiLatch = s.hiLatch := rfl
@[simp] theorem resps_upd_timeSet (s : State) (v : List Resp) : (applyUpd (.resps v) s).timeSet = s.timeSet := rfl
@[simp] theorem resps_upd_n0 (s : State) (v : List Resp) : (applyUpd (.resps v) s).n0 = s.n0 := rfl
@[simp] theorem resps_upd_ticked (s : State) (v : List Resp) : (applyUpd (.resps v) s).ticked = s.ticked := rfl
@[simp] theorem resps_upd_peerTickAt (s : State) (v : List Resp) : (applyUpd (.resps v) s).peerTickAt = s.peerTickAt := rfl
@[simp] theorem resps_upd_guardPitch (s : State) (v : List Resp) : (applyUpd (.resps v) s).guardPitch = s.guardPitch := rfl
@[simp] theorem resps_upd_diePitch (s : State) (v : List Resp) : (applyUpd (.resps v) s).diePitch = s.diePitch := rfl
@[simp] theorem resps_upd_resps (s : State) (v : List Resp) : (applyUpd (.resps v) s).resps = v := rfl
@[simp] theorem resps_upd_txns (s : State) (v : List Resp) : (applyUpd (.resps v) s).txns = s.txns := rfl
@[simp] theorem resps_upd_nextTag (s : State) (v : List Resp) : (applyUpd (.resps v) s).nextTag = s.nextTag := rfl
@[simp] theorem resps_upd_lateTags (s : State) (v : List Resp) : (applyUpd (.resps v) s).lateTags = s.lateTags := rfl
@[simp] theorem resps_upd_ports (s : State) (v : List Resp) : (applyUpd (.resps v) s).ports = s.ports := rfl
@[simp] theorem resps_upd_threads (s : State) (v : List Resp) : (applyUpd (.resps v) s).threads = s.threads := rfl
@[simp] theorem resps_upd_cores (s : State) (v : List Resp) : (applyUpd (.resps v) s).cores = s.cores := rfl
@[simp] theorem resps_upd_engines (s : State) (v : List Resp) : (applyUpd (.resps v) s).engines = s.engines := rfl
@[simp] theorem resps_upd_held (s : State) (v : List Resp) : (applyUpd (.resps v) s).held = s.held := rfl
@[simp] theorem resps_upd_watches (s : State) (v : List Resp) : (applyUpd (.resps v) s).watches = s.watches := rfl
@[simp] theorem resps_upd_watchMsgs (s : State) (v : List Resp) : (applyUpd (.resps v) s).watchMsgs = s.watchMsgs := rfl
@[simp] theorem resps_upd_bankHeld (s : State) (v : List Resp) : (applyUpd (.resps v) s).bankHeld = s.bankHeld := rfl
@[simp] theorem resps_upd_bankTarget (s : State) (v : List Resp) : (applyUpd (.resps v) s).bankTarget = s.bankTarget := rfl
@[simp] theorem resps_upd_ecc (s : State) (v : List Resp) : (applyUpd (.resps v) s).ecc = s.ecc := rfl
@[simp] theorem resps_upd_lineEcc (s : State) (v : List Resp) : (applyUpd (.resps v) s).lineEcc = s.lineEcc := rfl
@[simp] theorem resps_upd_wbPending (s : State) (v : List Resp) : (applyUpd (.resps v) s).wbPending = s.wbPending := rfl
@[simp] theorem resps_upd_scrubPos (s : State) (v : List Resp) : (applyUpd (.resps v) s).scrubPos = s.scrubPos := rfl
@[simp] theorem resps_upd_refusals (s : State) (v : List Resp) : (applyUpd (.resps v) s).refusals = s.refusals := rfl
@[simp] theorem resps_upd_firstRefusal (s : State) (v : List Resp) : (applyUpd (.resps v) s).firstRefusal = s.firstRefusal := rfl
@[simp] theorem resps_upd_boxQueue (s : State) (v : List Resp) : (applyUpd (.resps v) s).boxQueue = s.boxQueue := rfl
@[simp] theorem resps_upd_boxRun (s : State) (v : List Resp) : (applyUpd (.resps v) s).boxRun = s.boxRun := rfl
@[simp] theorem resps_upd_kvs (s : State) (v : List Resp) : (applyUpd (.resps v) s).kvs = s.kvs := rfl
@[simp] theorem resps_upd_parts (s : State) (v : List Resp) : (applyUpd (.resps v) s).parts = s.parts := rfl
@[simp] theorem resps_upd_dmas (s : State) (v : List Resp) : (applyUpd (.resps v) s).dmas = s.dmas := rfl
@[simp] theorem resps_upd_regReqs (s : State) (v : List Resp) : (applyUpd (.resps v) s).regReqs = s.regReqs := rfl
@[simp] theorem resps_upd_regPorts (s : State) (v : List Resp) : (applyUpd (.resps v) s).regPorts = s.regPorts := rfl
@[simp] theorem resps_upd_subchs (s : State) (v : List Resp) : (applyUpd (.resps v) s).subchs = s.subchs := rfl
@[simp] theorem resps_upd_trackers (s : State) (v : List Resp) : (applyUpd (.resps v) s).trackers = s.trackers := rfl
@[simp] theorem resps_upd_throttles (s : State) (v : List Resp) : (applyUpd (.resps v) s).throttles = s.throttles := rfl
@[simp] theorem resps_upd_errRing (s : State) (v : List Resp) : (applyUpd (.resps v) s).errRing = s.errRing := rfl
@[simp] theorem resps_upd_errRingOvf (s : State) (v : List Resp) : (applyUpd (.resps v) s).errRingOvf = s.errRingOvf := rfl
@[simp] theorem resps_upd_patrolLine (s : State) (v : List Resp) : (applyUpd (.resps v) s).patrolLine = s.patrolLine := rfl
@[simp] theorem resps_upd_retTimes (s : State) (v : List Resp) : (applyUpd (.resps v) s).retTimes = s.retTimes := rfl
@[simp] theorem resps_upd_retired (s : State) (v : List Resp) : (applyUpd (.resps v) s).retired = s.retired := rfl
@[simp] theorem resps_upd_dramSeq (s : State) (v : List Resp) : (applyUpd (.resps v) s).dramSeq = s.dramSeq := rfl
@[simp] theorem resps_upd_trn (s : State) (v : List Resp) : (applyUpd (.resps v) s).trn = s.trn := rfl
@[simp] theorem resps_upd_dqsAdj (s : State) (v : List Resp) : (applyUpd (.resps v) s).dqsAdj = s.dqsAdj := rfl
@[simp] theorem resps_upd_dpol (s : State) (v : List Resp) : (applyUpd (.resps v) s).dpol = s.dpol := rfl
@[simp] theorem resps_upd_idleAt (s : State) (v : List Resp) : (applyUpd (.resps v) s).idleAt = s.idleAt := rfl
@[simp] theorem resps_upd_fitted (s : State) (v : List Resp) : (applyUpd (.resps v) s).fitted = s.fitted := rfl
@[simp] theorem resps_upd_faultMsgs (s : State) (v : List Resp) : (applyUpd (.resps v) s).faultMsgs = s.faultMsgs := rfl
@[simp] theorem resps_upd_out (s : State) (v : List Resp) : (applyUpd (.resps v) s).out = s.out := rfl
@[simp] theorem resps_upd_lastRead (s : State) (v : List Resp) : (applyUpd (.resps v) s).lastRead = s.lastRead := rfl
@[simp] theorem resps_upd_fwd (s : State) (v : List Resp) : (applyUpd (.resps v) s).fwd = s.fwd := rfl
@[simp] theorem resps_upd_ethTx (s : State) (v : List Resp) : (applyUpd (.resps v) s).ethTx = s.ethTx := rfl
@[simp] theorem resps_upd_ethHeadAt (s : State) (v : List Resp) : (applyUpd (.resps v) s).ethHeadAt = s.ethHeadAt := rfl
@[simp] theorem resps_upd_canTx (s : State) (v : List Resp) : (applyUpd (.resps v) s).canTx = s.canTx := rfl
@[simp] theorem resps_upd_pcieOut (s : State) (v : List Resp) : (applyUpd (.resps v) s).pcieOut = s.pcieOut := rfl
@[simp] theorem resps_upd_pcieCfgRd (s : State) (v : List Resp) : (applyUpd (.resps v) s).pcieCfgRd = s.pcieCfgRd := rfl
@[simp] theorem resps_upd_msix (s : State) (v : List Resp) : (applyUpd (.resps v) s).msix = s.msix := rfl
@[simp] theorem resps_upd_ancs (s : State) (v : List Resp) : (applyUpd (.resps v) s).ancs = s.ancs := rfl
@[simp] theorem resps_upd_trajArea (s : State) (v : List Resp) : (applyUpd (.resps v) s).trajArea = s.trajArea := rfl
@[simp] theorem resps_upd_lidarIn (s : State) (v : List Resp) : (applyUpd (.resps v) s).lidarIn = s.lidarIn := rfl
@[simp] theorem resps_upd_wheelIn (s : State) (v : List Resp) : (applyUpd (.resps v) s).wheelIn = s.wheelIn := rfl
@[simp] theorem resps_upd_spiStepBusy (s : State) (v : List Resp) : (applyUpd (.resps v) s).spiStepBusy = s.spiStepBusy := rfl
@[simp] theorem resps_upd_spiRec (s : State) (v : List Resp) : (applyUpd (.resps v) s).spiRec = s.spiRec := rfl
@[simp] theorem resps_upd_spiStepCfg (s : State) (v : List Resp) : (applyUpd (.resps v) s).spiStepCfg = s.spiStepCfg := rfl
@[simp] theorem resps_upd_ctxs (s : State) (v : List Resp) : (applyUpd (.resps v) s).ctxs = s.ctxs := rfl
@[simp] theorem resps_upd_fsyOmit (s : State) (v : List Resp) : (applyUpd (.resps v) s).fsyOmit = s.fsyOmit := rfl
@[simp] theorem resps_upd_fsyPulsed (s : State) (v : List Resp) : (applyUpd (.resps v) s).fsyPulsed = s.fsyPulsed := rfl
@[simp] theorem resps_upd_supTasks (s : State) (v : List Resp) : (applyUpd (.resps v) s).supTasks = s.supTasks := rfl
@[simp] theorem resps_upd_fus (s : State) (v : List Resp) : (applyUpd (.resps v) s).fus = s.fus := rfl
@[simp] theorem resps_upd_fcons (s : State) (v : List Resp) : (applyUpd (.resps v) s).fcons = s.fcons := rfl
@[simp] theorem resps_upd_shadow (s : State) (v : List Resp) : (applyUpd (.resps v) s).shadow = s.shadow := rfl
@[simp] theorem resps_upd_trv (s : State) (v : List Resp) : (applyUpd (.resps v) s).trv = s.trv := rfl
@[simp] theorem resps_upd_tlayers (s : State) (v : List Resp) : (applyUpd (.resps v) s).tlayers = s.tlayers := rfl
@[simp] theorem resps_upd_jobFaults (s : State) (v : List Resp) : (applyUpd (.resps v) s).jobFaults = s.jobFaults := rfl
@[simp] theorem resps_upd_unitLast (s : State) (v : List Resp) : (applyUpd (.resps v) s).unitLast = s.unitLast := rfl
@[simp] theorem resps_upd_unitRst (s : State) (v : List Resp) : (applyUpd (.resps v) s).unitRst = s.unitRst := rfl
@[simp] theorem resps_upd_xlink (s : State) (v : List Resp) : (applyUpd (.resps v) s).xlink = s.xlink := rfl
@[simp] theorem resps_upd_trace (s : State) (v : List Resp) : (applyUpd (.resps v) s).trace = s.trace := rfl
@[simp] theorem resps_upd_progs (s : State) (v : List Resp) : (applyUpd (.resps v) s).progs = s.progs := rfl
@[simp] theorem resps_upd_rails (s : State) (v : List Resp) : (applyUpd (.resps v) s).rails = s.rails := rfl
@[simp] theorem resps_upd_thm (s : State) (v : List Resp) : (applyUpd (.resps v) s).thm = s.thm := rfl
@[simp] theorem resps_upd_bnd (s : State) (v : List Resp) : (applyUpd (.resps v) s).bnd = s.bnd := rfl
@[simp] theorem resps_upd_thmTrip (s : State) (v : List Resp) : (applyUpd (.resps v) s).thmTrip = s.thmTrip := rfl
@[simp] theorem resps_upd_flash (s : State) (v : List Resp) : (applyUpd (.resps v) s).flash = s.flash := rfl
@[simp] theorem resps_upd_slots (s : State) (v : List Resp) : (applyUpd (.resps v) s).slots = s.slots := rfl
@[simp] theorem resps_upd_stores (s : State) (v : List Resp) : (applyUpd (.resps v) s).stores = s.stores := rfl
@[simp] theorem resps_upd_ids (s : State) (v : List Resp) : (applyUpd (.resps v) s).ids = s.ids := rfl
@[simp] theorem resps_upd_boot (s : State) (v : List Resp) : (applyUpd (.resps v) s).boot = s.boot := rfl
@[simp] theorem resps_upd_load (s : State) (v : List Resp) : (applyUpd (.resps v) s).load = s.load := rfl
@[simp] theorem resps_upd_flt (s : State) (v : List Resp) : (applyUpd (.resps v) s).flt = s.flt := rfl
@[simp] theorem resps_upd_mon (s : State) (v : List Resp) : (applyUpd (.resps v) s).mon = s.mon := rfl
@[simp] theorem txns_upd_pending (s : State) (v : List Txn) : (applyUpd (.txns v) s).pending = s.pending := rfl
@[simp] theorem txns_upd_regs (s : State) (v : List Txn) : (applyUpd (.txns v) s).regs = s.regs := rfl
@[simp] theorem txns_upd_mem (s : State) (v : List Txn) : (applyUpd (.txns v) s).mem = s.mem := rfl
@[simp] theorem txns_upd_sram (s : State) (v : List Txn) : (applyUpd (.txns v) s).sram = s.sram := rfl
@[simp] theorem txns_upd_time (s : State) (v : List Txn) : (applyUpd (.txns v) s).time = s.time := rfl
@[simp] theorem txns_upd_timeFrac (s : State) (v : List Txn) : (applyUpd (.txns v) s).timeFrac = s.timeFrac := rfl
@[simp] theorem txns_upd_freeCtr (s : State) (v : List Txn) : (applyUpd (.txns v) s).freeCtr = s.freeCtr := rfl
@[simp] theorem txns_upd_hiLatch (s : State) (v : List Txn) : (applyUpd (.txns v) s).hiLatch = s.hiLatch := rfl
@[simp] theorem txns_upd_timeSet (s : State) (v : List Txn) : (applyUpd (.txns v) s).timeSet = s.timeSet := rfl
@[simp] theorem txns_upd_n0 (s : State) (v : List Txn) : (applyUpd (.txns v) s).n0 = s.n0 := rfl
@[simp] theorem txns_upd_ticked (s : State) (v : List Txn) : (applyUpd (.txns v) s).ticked = s.ticked := rfl
@[simp] theorem txns_upd_peerTickAt (s : State) (v : List Txn) : (applyUpd (.txns v) s).peerTickAt = s.peerTickAt := rfl
@[simp] theorem txns_upd_guardPitch (s : State) (v : List Txn) : (applyUpd (.txns v) s).guardPitch = s.guardPitch := rfl
@[simp] theorem txns_upd_diePitch (s : State) (v : List Txn) : (applyUpd (.txns v) s).diePitch = s.diePitch := rfl
@[simp] theorem txns_upd_resps (s : State) (v : List Txn) : (applyUpd (.txns v) s).resps = s.resps := rfl
@[simp] theorem txns_upd_txns (s : State) (v : List Txn) : (applyUpd (.txns v) s).txns = v := rfl
@[simp] theorem txns_upd_nextTag (s : State) (v : List Txn) : (applyUpd (.txns v) s).nextTag = s.nextTag := rfl
@[simp] theorem txns_upd_lateTags (s : State) (v : List Txn) : (applyUpd (.txns v) s).lateTags = s.lateTags := rfl
@[simp] theorem txns_upd_ports (s : State) (v : List Txn) : (applyUpd (.txns v) s).ports = s.ports := rfl
@[simp] theorem txns_upd_threads (s : State) (v : List Txn) : (applyUpd (.txns v) s).threads = s.threads := rfl
@[simp] theorem txns_upd_cores (s : State) (v : List Txn) : (applyUpd (.txns v) s).cores = s.cores := rfl
@[simp] theorem txns_upd_engines (s : State) (v : List Txn) : (applyUpd (.txns v) s).engines = s.engines := rfl
@[simp] theorem txns_upd_held (s : State) (v : List Txn) : (applyUpd (.txns v) s).held = s.held := rfl
@[simp] theorem txns_upd_watches (s : State) (v : List Txn) : (applyUpd (.txns v) s).watches = s.watches := rfl
@[simp] theorem txns_upd_watchMsgs (s : State) (v : List Txn) : (applyUpd (.txns v) s).watchMsgs = s.watchMsgs := rfl
@[simp] theorem txns_upd_bankHeld (s : State) (v : List Txn) : (applyUpd (.txns v) s).bankHeld = s.bankHeld := rfl
@[simp] theorem txns_upd_bankTarget (s : State) (v : List Txn) : (applyUpd (.txns v) s).bankTarget = s.bankTarget := rfl
@[simp] theorem txns_upd_ecc (s : State) (v : List Txn) : (applyUpd (.txns v) s).ecc = s.ecc := rfl
@[simp] theorem txns_upd_lineEcc (s : State) (v : List Txn) : (applyUpd (.txns v) s).lineEcc = s.lineEcc := rfl
@[simp] theorem txns_upd_wbPending (s : State) (v : List Txn) : (applyUpd (.txns v) s).wbPending = s.wbPending := rfl
@[simp] theorem txns_upd_scrubPos (s : State) (v : List Txn) : (applyUpd (.txns v) s).scrubPos = s.scrubPos := rfl
@[simp] theorem txns_upd_refusals (s : State) (v : List Txn) : (applyUpd (.txns v) s).refusals = s.refusals := rfl
@[simp] theorem txns_upd_firstRefusal (s : State) (v : List Txn) : (applyUpd (.txns v) s).firstRefusal = s.firstRefusal := rfl
@[simp] theorem txns_upd_boxQueue (s : State) (v : List Txn) : (applyUpd (.txns v) s).boxQueue = s.boxQueue := rfl
@[simp] theorem txns_upd_boxRun (s : State) (v : List Txn) : (applyUpd (.txns v) s).boxRun = s.boxRun := rfl
@[simp] theorem txns_upd_kvs (s : State) (v : List Txn) : (applyUpd (.txns v) s).kvs = s.kvs := rfl
@[simp] theorem txns_upd_parts (s : State) (v : List Txn) : (applyUpd (.txns v) s).parts = s.parts := rfl
@[simp] theorem txns_upd_dmas (s : State) (v : List Txn) : (applyUpd (.txns v) s).dmas = s.dmas := rfl
@[simp] theorem txns_upd_regReqs (s : State) (v : List Txn) : (applyUpd (.txns v) s).regReqs = s.regReqs := rfl
@[simp] theorem txns_upd_regPorts (s : State) (v : List Txn) : (applyUpd (.txns v) s).regPorts = s.regPorts := rfl
@[simp] theorem txns_upd_subchs (s : State) (v : List Txn) : (applyUpd (.txns v) s).subchs = s.subchs := rfl
@[simp] theorem txns_upd_trackers (s : State) (v : List Txn) : (applyUpd (.txns v) s).trackers = s.trackers := rfl
@[simp] theorem txns_upd_throttles (s : State) (v : List Txn) : (applyUpd (.txns v) s).throttles = s.throttles := rfl
@[simp] theorem txns_upd_errRing (s : State) (v : List Txn) : (applyUpd (.txns v) s).errRing = s.errRing := rfl
@[simp] theorem txns_upd_errRingOvf (s : State) (v : List Txn) : (applyUpd (.txns v) s).errRingOvf = s.errRingOvf := rfl
@[simp] theorem txns_upd_patrolLine (s : State) (v : List Txn) : (applyUpd (.txns v) s).patrolLine = s.patrolLine := rfl
@[simp] theorem txns_upd_retTimes (s : State) (v : List Txn) : (applyUpd (.txns v) s).retTimes = s.retTimes := rfl
@[simp] theorem txns_upd_retired (s : State) (v : List Txn) : (applyUpd (.txns v) s).retired = s.retired := rfl
@[simp] theorem txns_upd_dramSeq (s : State) (v : List Txn) : (applyUpd (.txns v) s).dramSeq = s.dramSeq := rfl
@[simp] theorem txns_upd_trn (s : State) (v : List Txn) : (applyUpd (.txns v) s).trn = s.trn := rfl
@[simp] theorem txns_upd_dqsAdj (s : State) (v : List Txn) : (applyUpd (.txns v) s).dqsAdj = s.dqsAdj := rfl
@[simp] theorem txns_upd_dpol (s : State) (v : List Txn) : (applyUpd (.txns v) s).dpol = s.dpol := rfl
@[simp] theorem txns_upd_idleAt (s : State) (v : List Txn) : (applyUpd (.txns v) s).idleAt = s.idleAt := rfl
@[simp] theorem txns_upd_fitted (s : State) (v : List Txn) : (applyUpd (.txns v) s).fitted = s.fitted := rfl
@[simp] theorem txns_upd_faultMsgs (s : State) (v : List Txn) : (applyUpd (.txns v) s).faultMsgs = s.faultMsgs := rfl
@[simp] theorem txns_upd_out (s : State) (v : List Txn) : (applyUpd (.txns v) s).out = s.out := rfl
@[simp] theorem txns_upd_lastRead (s : State) (v : List Txn) : (applyUpd (.txns v) s).lastRead = s.lastRead := rfl
@[simp] theorem txns_upd_fwd (s : State) (v : List Txn) : (applyUpd (.txns v) s).fwd = s.fwd := rfl
@[simp] theorem txns_upd_ethTx (s : State) (v : List Txn) : (applyUpd (.txns v) s).ethTx = s.ethTx := rfl
@[simp] theorem txns_upd_ethHeadAt (s : State) (v : List Txn) : (applyUpd (.txns v) s).ethHeadAt = s.ethHeadAt := rfl
@[simp] theorem txns_upd_canTx (s : State) (v : List Txn) : (applyUpd (.txns v) s).canTx = s.canTx := rfl
@[simp] theorem txns_upd_pcieOut (s : State) (v : List Txn) : (applyUpd (.txns v) s).pcieOut = s.pcieOut := rfl
@[simp] theorem txns_upd_pcieCfgRd (s : State) (v : List Txn) : (applyUpd (.txns v) s).pcieCfgRd = s.pcieCfgRd := rfl
@[simp] theorem txns_upd_msix (s : State) (v : List Txn) : (applyUpd (.txns v) s).msix = s.msix := rfl
@[simp] theorem txns_upd_ancs (s : State) (v : List Txn) : (applyUpd (.txns v) s).ancs = s.ancs := rfl
@[simp] theorem txns_upd_trajArea (s : State) (v : List Txn) : (applyUpd (.txns v) s).trajArea = s.trajArea := rfl
@[simp] theorem txns_upd_lidarIn (s : State) (v : List Txn) : (applyUpd (.txns v) s).lidarIn = s.lidarIn := rfl
@[simp] theorem txns_upd_wheelIn (s : State) (v : List Txn) : (applyUpd (.txns v) s).wheelIn = s.wheelIn := rfl
@[simp] theorem txns_upd_spiStepBusy (s : State) (v : List Txn) : (applyUpd (.txns v) s).spiStepBusy = s.spiStepBusy := rfl
@[simp] theorem txns_upd_spiRec (s : State) (v : List Txn) : (applyUpd (.txns v) s).spiRec = s.spiRec := rfl
@[simp] theorem txns_upd_spiStepCfg (s : State) (v : List Txn) : (applyUpd (.txns v) s).spiStepCfg = s.spiStepCfg := rfl
@[simp] theorem txns_upd_ctxs (s : State) (v : List Txn) : (applyUpd (.txns v) s).ctxs = s.ctxs := rfl
@[simp] theorem txns_upd_fsyOmit (s : State) (v : List Txn) : (applyUpd (.txns v) s).fsyOmit = s.fsyOmit := rfl
@[simp] theorem txns_upd_fsyPulsed (s : State) (v : List Txn) : (applyUpd (.txns v) s).fsyPulsed = s.fsyPulsed := rfl
@[simp] theorem txns_upd_supTasks (s : State) (v : List Txn) : (applyUpd (.txns v) s).supTasks = s.supTasks := rfl
@[simp] theorem txns_upd_fus (s : State) (v : List Txn) : (applyUpd (.txns v) s).fus = s.fus := rfl
@[simp] theorem txns_upd_fcons (s : State) (v : List Txn) : (applyUpd (.txns v) s).fcons = s.fcons := rfl
@[simp] theorem txns_upd_shadow (s : State) (v : List Txn) : (applyUpd (.txns v) s).shadow = s.shadow := rfl
@[simp] theorem txns_upd_trv (s : State) (v : List Txn) : (applyUpd (.txns v) s).trv = s.trv := rfl
@[simp] theorem txns_upd_tlayers (s : State) (v : List Txn) : (applyUpd (.txns v) s).tlayers = s.tlayers := rfl
@[simp] theorem txns_upd_jobFaults (s : State) (v : List Txn) : (applyUpd (.txns v) s).jobFaults = s.jobFaults := rfl
@[simp] theorem txns_upd_unitLast (s : State) (v : List Txn) : (applyUpd (.txns v) s).unitLast = s.unitLast := rfl
@[simp] theorem txns_upd_unitRst (s : State) (v : List Txn) : (applyUpd (.txns v) s).unitRst = s.unitRst := rfl
@[simp] theorem txns_upd_xlink (s : State) (v : List Txn) : (applyUpd (.txns v) s).xlink = s.xlink := rfl
@[simp] theorem txns_upd_trace (s : State) (v : List Txn) : (applyUpd (.txns v) s).trace = s.trace := rfl
@[simp] theorem txns_upd_progs (s : State) (v : List Txn) : (applyUpd (.txns v) s).progs = s.progs := rfl
@[simp] theorem txns_upd_rails (s : State) (v : List Txn) : (applyUpd (.txns v) s).rails = s.rails := rfl
@[simp] theorem txns_upd_thm (s : State) (v : List Txn) : (applyUpd (.txns v) s).thm = s.thm := rfl
@[simp] theorem txns_upd_bnd (s : State) (v : List Txn) : (applyUpd (.txns v) s).bnd = s.bnd := rfl
@[simp] theorem txns_upd_thmTrip (s : State) (v : List Txn) : (applyUpd (.txns v) s).thmTrip = s.thmTrip := rfl
@[simp] theorem txns_upd_flash (s : State) (v : List Txn) : (applyUpd (.txns v) s).flash = s.flash := rfl
@[simp] theorem txns_upd_slots (s : State) (v : List Txn) : (applyUpd (.txns v) s).slots = s.slots := rfl
@[simp] theorem txns_upd_stores (s : State) (v : List Txn) : (applyUpd (.txns v) s).stores = s.stores := rfl
@[simp] theorem txns_upd_ids (s : State) (v : List Txn) : (applyUpd (.txns v) s).ids = s.ids := rfl
@[simp] theorem txns_upd_boot (s : State) (v : List Txn) : (applyUpd (.txns v) s).boot = s.boot := rfl
@[simp] theorem txns_upd_load (s : State) (v : List Txn) : (applyUpd (.txns v) s).load = s.load := rfl
@[simp] theorem txns_upd_flt (s : State) (v : List Txn) : (applyUpd (.txns v) s).flt = s.flt := rfl
@[simp] theorem txns_upd_mon (s : State) (v : List Txn) : (applyUpd (.txns v) s).mon = s.mon := rfl
@[simp] theorem nextTag_upd_pending (s : State) (v : Nat) : (applyUpd (.nextTag v) s).pending = s.pending := rfl
@[simp] theorem nextTag_upd_regs (s : State) (v : Nat) : (applyUpd (.nextTag v) s).regs = s.regs := rfl
@[simp] theorem nextTag_upd_mem (s : State) (v : Nat) : (applyUpd (.nextTag v) s).mem = s.mem := rfl
@[simp] theorem nextTag_upd_sram (s : State) (v : Nat) : (applyUpd (.nextTag v) s).sram = s.sram := rfl
@[simp] theorem nextTag_upd_time (s : State) (v : Nat) : (applyUpd (.nextTag v) s).time = s.time := rfl
@[simp] theorem nextTag_upd_timeFrac (s : State) (v : Nat) : (applyUpd (.nextTag v) s).timeFrac = s.timeFrac := rfl
@[simp] theorem nextTag_upd_freeCtr (s : State) (v : Nat) : (applyUpd (.nextTag v) s).freeCtr = s.freeCtr := rfl
@[simp] theorem nextTag_upd_hiLatch (s : State) (v : Nat) : (applyUpd (.nextTag v) s).hiLatch = s.hiLatch := rfl
@[simp] theorem nextTag_upd_timeSet (s : State) (v : Nat) : (applyUpd (.nextTag v) s).timeSet = s.timeSet := rfl
@[simp] theorem nextTag_upd_n0 (s : State) (v : Nat) : (applyUpd (.nextTag v) s).n0 = s.n0 := rfl
@[simp] theorem nextTag_upd_ticked (s : State) (v : Nat) : (applyUpd (.nextTag v) s).ticked = s.ticked := rfl
@[simp] theorem nextTag_upd_peerTickAt (s : State) (v : Nat) : (applyUpd (.nextTag v) s).peerTickAt = s.peerTickAt := rfl
@[simp] theorem nextTag_upd_guardPitch (s : State) (v : Nat) : (applyUpd (.nextTag v) s).guardPitch = s.guardPitch := rfl
@[simp] theorem nextTag_upd_diePitch (s : State) (v : Nat) : (applyUpd (.nextTag v) s).diePitch = s.diePitch := rfl
@[simp] theorem nextTag_upd_resps (s : State) (v : Nat) : (applyUpd (.nextTag v) s).resps = s.resps := rfl
@[simp] theorem nextTag_upd_txns (s : State) (v : Nat) : (applyUpd (.nextTag v) s).txns = s.txns := rfl
@[simp] theorem nextTag_upd_nextTag (s : State) (v : Nat) : (applyUpd (.nextTag v) s).nextTag = v := rfl
@[simp] theorem nextTag_upd_lateTags (s : State) (v : Nat) : (applyUpd (.nextTag v) s).lateTags = s.lateTags := rfl
@[simp] theorem nextTag_upd_ports (s : State) (v : Nat) : (applyUpd (.nextTag v) s).ports = s.ports := rfl
@[simp] theorem nextTag_upd_threads (s : State) (v : Nat) : (applyUpd (.nextTag v) s).threads = s.threads := rfl
@[simp] theorem nextTag_upd_cores (s : State) (v : Nat) : (applyUpd (.nextTag v) s).cores = s.cores := rfl
@[simp] theorem nextTag_upd_engines (s : State) (v : Nat) : (applyUpd (.nextTag v) s).engines = s.engines := rfl
@[simp] theorem nextTag_upd_held (s : State) (v : Nat) : (applyUpd (.nextTag v) s).held = s.held := rfl
@[simp] theorem nextTag_upd_watches (s : State) (v : Nat) : (applyUpd (.nextTag v) s).watches = s.watches := rfl
@[simp] theorem nextTag_upd_watchMsgs (s : State) (v : Nat) : (applyUpd (.nextTag v) s).watchMsgs = s.watchMsgs := rfl
@[simp] theorem nextTag_upd_bankHeld (s : State) (v : Nat) : (applyUpd (.nextTag v) s).bankHeld = s.bankHeld := rfl
@[simp] theorem nextTag_upd_bankTarget (s : State) (v : Nat) : (applyUpd (.nextTag v) s).bankTarget = s.bankTarget := rfl
@[simp] theorem nextTag_upd_ecc (s : State) (v : Nat) : (applyUpd (.nextTag v) s).ecc = s.ecc := rfl
@[simp] theorem nextTag_upd_lineEcc (s : State) (v : Nat) : (applyUpd (.nextTag v) s).lineEcc = s.lineEcc := rfl
@[simp] theorem nextTag_upd_wbPending (s : State) (v : Nat) : (applyUpd (.nextTag v) s).wbPending = s.wbPending := rfl
@[simp] theorem nextTag_upd_scrubPos (s : State) (v : Nat) : (applyUpd (.nextTag v) s).scrubPos = s.scrubPos := rfl
@[simp] theorem nextTag_upd_refusals (s : State) (v : Nat) : (applyUpd (.nextTag v) s).refusals = s.refusals := rfl
@[simp] theorem nextTag_upd_firstRefusal (s : State) (v : Nat) : (applyUpd (.nextTag v) s).firstRefusal = s.firstRefusal := rfl
@[simp] theorem nextTag_upd_boxQueue (s : State) (v : Nat) : (applyUpd (.nextTag v) s).boxQueue = s.boxQueue := rfl
@[simp] theorem nextTag_upd_boxRun (s : State) (v : Nat) : (applyUpd (.nextTag v) s).boxRun = s.boxRun := rfl
@[simp] theorem nextTag_upd_kvs (s : State) (v : Nat) : (applyUpd (.nextTag v) s).kvs = s.kvs := rfl
@[simp] theorem nextTag_upd_parts (s : State) (v : Nat) : (applyUpd (.nextTag v) s).parts = s.parts := rfl
@[simp] theorem nextTag_upd_dmas (s : State) (v : Nat) : (applyUpd (.nextTag v) s).dmas = s.dmas := rfl
@[simp] theorem nextTag_upd_regReqs (s : State) (v : Nat) : (applyUpd (.nextTag v) s).regReqs = s.regReqs := rfl
@[simp] theorem nextTag_upd_regPorts (s : State) (v : Nat) : (applyUpd (.nextTag v) s).regPorts = s.regPorts := rfl
@[simp] theorem nextTag_upd_subchs (s : State) (v : Nat) : (applyUpd (.nextTag v) s).subchs = s.subchs := rfl
@[simp] theorem nextTag_upd_trackers (s : State) (v : Nat) : (applyUpd (.nextTag v) s).trackers = s.trackers := rfl
@[simp] theorem nextTag_upd_throttles (s : State) (v : Nat) : (applyUpd (.nextTag v) s).throttles = s.throttles := rfl
@[simp] theorem nextTag_upd_errRing (s : State) (v : Nat) : (applyUpd (.nextTag v) s).errRing = s.errRing := rfl
@[simp] theorem nextTag_upd_errRingOvf (s : State) (v : Nat) : (applyUpd (.nextTag v) s).errRingOvf = s.errRingOvf := rfl
@[simp] theorem nextTag_upd_patrolLine (s : State) (v : Nat) : (applyUpd (.nextTag v) s).patrolLine = s.patrolLine := rfl
@[simp] theorem nextTag_upd_retTimes (s : State) (v : Nat) : (applyUpd (.nextTag v) s).retTimes = s.retTimes := rfl
@[simp] theorem nextTag_upd_retired (s : State) (v : Nat) : (applyUpd (.nextTag v) s).retired = s.retired := rfl
@[simp] theorem nextTag_upd_dramSeq (s : State) (v : Nat) : (applyUpd (.nextTag v) s).dramSeq = s.dramSeq := rfl
@[simp] theorem nextTag_upd_trn (s : State) (v : Nat) : (applyUpd (.nextTag v) s).trn = s.trn := rfl
@[simp] theorem nextTag_upd_dqsAdj (s : State) (v : Nat) : (applyUpd (.nextTag v) s).dqsAdj = s.dqsAdj := rfl
@[simp] theorem nextTag_upd_dpol (s : State) (v : Nat) : (applyUpd (.nextTag v) s).dpol = s.dpol := rfl
@[simp] theorem nextTag_upd_idleAt (s : State) (v : Nat) : (applyUpd (.nextTag v) s).idleAt = s.idleAt := rfl
@[simp] theorem nextTag_upd_fitted (s : State) (v : Nat) : (applyUpd (.nextTag v) s).fitted = s.fitted := rfl
@[simp] theorem nextTag_upd_faultMsgs (s : State) (v : Nat) : (applyUpd (.nextTag v) s).faultMsgs = s.faultMsgs := rfl
@[simp] theorem nextTag_upd_out (s : State) (v : Nat) : (applyUpd (.nextTag v) s).out = s.out := rfl
@[simp] theorem nextTag_upd_lastRead (s : State) (v : Nat) : (applyUpd (.nextTag v) s).lastRead = s.lastRead := rfl
@[simp] theorem nextTag_upd_fwd (s : State) (v : Nat) : (applyUpd (.nextTag v) s).fwd = s.fwd := rfl
@[simp] theorem nextTag_upd_ethTx (s : State) (v : Nat) : (applyUpd (.nextTag v) s).ethTx = s.ethTx := rfl
@[simp] theorem nextTag_upd_ethHeadAt (s : State) (v : Nat) : (applyUpd (.nextTag v) s).ethHeadAt = s.ethHeadAt := rfl
@[simp] theorem nextTag_upd_canTx (s : State) (v : Nat) : (applyUpd (.nextTag v) s).canTx = s.canTx := rfl
@[simp] theorem nextTag_upd_pcieOut (s : State) (v : Nat) : (applyUpd (.nextTag v) s).pcieOut = s.pcieOut := rfl
@[simp] theorem nextTag_upd_pcieCfgRd (s : State) (v : Nat) : (applyUpd (.nextTag v) s).pcieCfgRd = s.pcieCfgRd := rfl
@[simp] theorem nextTag_upd_msix (s : State) (v : Nat) : (applyUpd (.nextTag v) s).msix = s.msix := rfl
@[simp] theorem nextTag_upd_ancs (s : State) (v : Nat) : (applyUpd (.nextTag v) s).ancs = s.ancs := rfl
@[simp] theorem nextTag_upd_trajArea (s : State) (v : Nat) : (applyUpd (.nextTag v) s).trajArea = s.trajArea := rfl
@[simp] theorem nextTag_upd_lidarIn (s : State) (v : Nat) : (applyUpd (.nextTag v) s).lidarIn = s.lidarIn := rfl
@[simp] theorem nextTag_upd_wheelIn (s : State) (v : Nat) : (applyUpd (.nextTag v) s).wheelIn = s.wheelIn := rfl
@[simp] theorem nextTag_upd_spiStepBusy (s : State) (v : Nat) : (applyUpd (.nextTag v) s).spiStepBusy = s.spiStepBusy := rfl
@[simp] theorem nextTag_upd_spiRec (s : State) (v : Nat) : (applyUpd (.nextTag v) s).spiRec = s.spiRec := rfl
@[simp] theorem nextTag_upd_spiStepCfg (s : State) (v : Nat) : (applyUpd (.nextTag v) s).spiStepCfg = s.spiStepCfg := rfl
@[simp] theorem nextTag_upd_ctxs (s : State) (v : Nat) : (applyUpd (.nextTag v) s).ctxs = s.ctxs := rfl
@[simp] theorem nextTag_upd_fsyOmit (s : State) (v : Nat) : (applyUpd (.nextTag v) s).fsyOmit = s.fsyOmit := rfl
@[simp] theorem nextTag_upd_fsyPulsed (s : State) (v : Nat) : (applyUpd (.nextTag v) s).fsyPulsed = s.fsyPulsed := rfl
@[simp] theorem nextTag_upd_supTasks (s : State) (v : Nat) : (applyUpd (.nextTag v) s).supTasks = s.supTasks := rfl
@[simp] theorem nextTag_upd_fus (s : State) (v : Nat) : (applyUpd (.nextTag v) s).fus = s.fus := rfl
@[simp] theorem nextTag_upd_fcons (s : State) (v : Nat) : (applyUpd (.nextTag v) s).fcons = s.fcons := rfl
@[simp] theorem nextTag_upd_shadow (s : State) (v : Nat) : (applyUpd (.nextTag v) s).shadow = s.shadow := rfl
@[simp] theorem nextTag_upd_trv (s : State) (v : Nat) : (applyUpd (.nextTag v) s).trv = s.trv := rfl
@[simp] theorem nextTag_upd_tlayers (s : State) (v : Nat) : (applyUpd (.nextTag v) s).tlayers = s.tlayers := rfl
@[simp] theorem nextTag_upd_jobFaults (s : State) (v : Nat) : (applyUpd (.nextTag v) s).jobFaults = s.jobFaults := rfl
@[simp] theorem nextTag_upd_unitLast (s : State) (v : Nat) : (applyUpd (.nextTag v) s).unitLast = s.unitLast := rfl
@[simp] theorem nextTag_upd_unitRst (s : State) (v : Nat) : (applyUpd (.nextTag v) s).unitRst = s.unitRst := rfl
@[simp] theorem nextTag_upd_xlink (s : State) (v : Nat) : (applyUpd (.nextTag v) s).xlink = s.xlink := rfl
@[simp] theorem nextTag_upd_trace (s : State) (v : Nat) : (applyUpd (.nextTag v) s).trace = s.trace := rfl
@[simp] theorem nextTag_upd_progs (s : State) (v : Nat) : (applyUpd (.nextTag v) s).progs = s.progs := rfl
@[simp] theorem nextTag_upd_rails (s : State) (v : Nat) : (applyUpd (.nextTag v) s).rails = s.rails := rfl
@[simp] theorem nextTag_upd_thm (s : State) (v : Nat) : (applyUpd (.nextTag v) s).thm = s.thm := rfl
@[simp] theorem nextTag_upd_bnd (s : State) (v : Nat) : (applyUpd (.nextTag v) s).bnd = s.bnd := rfl
@[simp] theorem nextTag_upd_thmTrip (s : State) (v : Nat) : (applyUpd (.nextTag v) s).thmTrip = s.thmTrip := rfl
@[simp] theorem nextTag_upd_flash (s : State) (v : Nat) : (applyUpd (.nextTag v) s).flash = s.flash := rfl
@[simp] theorem nextTag_upd_slots (s : State) (v : Nat) : (applyUpd (.nextTag v) s).slots = s.slots := rfl
@[simp] theorem nextTag_upd_stores (s : State) (v : Nat) : (applyUpd (.nextTag v) s).stores = s.stores := rfl
@[simp] theorem nextTag_upd_ids (s : State) (v : Nat) : (applyUpd (.nextTag v) s).ids = s.ids := rfl
@[simp] theorem nextTag_upd_boot (s : State) (v : Nat) : (applyUpd (.nextTag v) s).boot = s.boot := rfl
@[simp] theorem nextTag_upd_load (s : State) (v : Nat) : (applyUpd (.nextTag v) s).load = s.load := rfl
@[simp] theorem nextTag_upd_flt (s : State) (v : Nat) : (applyUpd (.nextTag v) s).flt = s.flt := rfl
@[simp] theorem nextTag_upd_mon (s : State) (v : Nat) : (applyUpd (.nextTag v) s).mon = s.mon := rfl
@[simp] theorem lateTags_upd_pending (s : State) (v : List (Master × Nat)) : (applyUpd (.lateTags v) s).pending = s.pending := rfl
@[simp] theorem lateTags_upd_regs (s : State) (v : List (Master × Nat)) : (applyUpd (.lateTags v) s).regs = s.regs := rfl
@[simp] theorem lateTags_upd_mem (s : State) (v : List (Master × Nat)) : (applyUpd (.lateTags v) s).mem = s.mem := rfl
@[simp] theorem lateTags_upd_sram (s : State) (v : List (Master × Nat)) : (applyUpd (.lateTags v) s).sram = s.sram := rfl
@[simp] theorem lateTags_upd_time (s : State) (v : List (Master × Nat)) : (applyUpd (.lateTags v) s).time = s.time := rfl
@[simp] theorem lateTags_upd_timeFrac (s : State) (v : List (Master × Nat)) : (applyUpd (.lateTags v) s).timeFrac = s.timeFrac := rfl
@[simp] theorem lateTags_upd_freeCtr (s : State) (v : List (Master × Nat)) : (applyUpd (.lateTags v) s).freeCtr = s.freeCtr := rfl
@[simp] theorem lateTags_upd_hiLatch (s : State) (v : List (Master × Nat)) : (applyUpd (.lateTags v) s).hiLatch = s.hiLatch := rfl
@[simp] theorem lateTags_upd_timeSet (s : State) (v : List (Master × Nat)) : (applyUpd (.lateTags v) s).timeSet = s.timeSet := rfl
@[simp] theorem lateTags_upd_n0 (s : State) (v : List (Master × Nat)) : (applyUpd (.lateTags v) s).n0 = s.n0 := rfl
@[simp] theorem lateTags_upd_ticked (s : State) (v : List (Master × Nat)) : (applyUpd (.lateTags v) s).ticked = s.ticked := rfl
@[simp] theorem lateTags_upd_peerTickAt (s : State) (v : List (Master × Nat)) : (applyUpd (.lateTags v) s).peerTickAt = s.peerTickAt := rfl
@[simp] theorem lateTags_upd_guardPitch (s : State) (v : List (Master × Nat)) : (applyUpd (.lateTags v) s).guardPitch = s.guardPitch := rfl
@[simp] theorem lateTags_upd_diePitch (s : State) (v : List (Master × Nat)) : (applyUpd (.lateTags v) s).diePitch = s.diePitch := rfl
@[simp] theorem lateTags_upd_resps (s : State) (v : List (Master × Nat)) : (applyUpd (.lateTags v) s).resps = s.resps := rfl
@[simp] theorem lateTags_upd_txns (s : State) (v : List (Master × Nat)) : (applyUpd (.lateTags v) s).txns = s.txns := rfl
@[simp] theorem lateTags_upd_nextTag (s : State) (v : List (Master × Nat)) : (applyUpd (.lateTags v) s).nextTag = s.nextTag := rfl
@[simp] theorem lateTags_upd_lateTags (s : State) (v : List (Master × Nat)) : (applyUpd (.lateTags v) s).lateTags = v := rfl
@[simp] theorem lateTags_upd_ports (s : State) (v : List (Master × Nat)) : (applyUpd (.lateTags v) s).ports = s.ports := rfl
@[simp] theorem lateTags_upd_threads (s : State) (v : List (Master × Nat)) : (applyUpd (.lateTags v) s).threads = s.threads := rfl
@[simp] theorem lateTags_upd_cores (s : State) (v : List (Master × Nat)) : (applyUpd (.lateTags v) s).cores = s.cores := rfl
@[simp] theorem lateTags_upd_engines (s : State) (v : List (Master × Nat)) : (applyUpd (.lateTags v) s).engines = s.engines := rfl
@[simp] theorem lateTags_upd_held (s : State) (v : List (Master × Nat)) : (applyUpd (.lateTags v) s).held = s.held := rfl
@[simp] theorem lateTags_upd_watches (s : State) (v : List (Master × Nat)) : (applyUpd (.lateTags v) s).watches = s.watches := rfl
@[simp] theorem lateTags_upd_watchMsgs (s : State) (v : List (Master × Nat)) : (applyUpd (.lateTags v) s).watchMsgs = s.watchMsgs := rfl
@[simp] theorem lateTags_upd_bankHeld (s : State) (v : List (Master × Nat)) : (applyUpd (.lateTags v) s).bankHeld = s.bankHeld := rfl
@[simp] theorem lateTags_upd_bankTarget (s : State) (v : List (Master × Nat)) : (applyUpd (.lateTags v) s).bankTarget = s.bankTarget := rfl
@[simp] theorem lateTags_upd_ecc (s : State) (v : List (Master × Nat)) : (applyUpd (.lateTags v) s).ecc = s.ecc := rfl
@[simp] theorem lateTags_upd_lineEcc (s : State) (v : List (Master × Nat)) : (applyUpd (.lateTags v) s).lineEcc = s.lineEcc := rfl
@[simp] theorem lateTags_upd_wbPending (s : State) (v : List (Master × Nat)) : (applyUpd (.lateTags v) s).wbPending = s.wbPending := rfl
@[simp] theorem lateTags_upd_scrubPos (s : State) (v : List (Master × Nat)) : (applyUpd (.lateTags v) s).scrubPos = s.scrubPos := rfl
@[simp] theorem lateTags_upd_refusals (s : State) (v : List (Master × Nat)) : (applyUpd (.lateTags v) s).refusals = s.refusals := rfl
@[simp] theorem lateTags_upd_firstRefusal (s : State) (v : List (Master × Nat)) : (applyUpd (.lateTags v) s).firstRefusal = s.firstRefusal := rfl
@[simp] theorem lateTags_upd_boxQueue (s : State) (v : List (Master × Nat)) : (applyUpd (.lateTags v) s).boxQueue = s.boxQueue := rfl
@[simp] theorem lateTags_upd_boxRun (s : State) (v : List (Master × Nat)) : (applyUpd (.lateTags v) s).boxRun = s.boxRun := rfl
@[simp] theorem lateTags_upd_kvs (s : State) (v : List (Master × Nat)) : (applyUpd (.lateTags v) s).kvs = s.kvs := rfl
@[simp] theorem lateTags_upd_parts (s : State) (v : List (Master × Nat)) : (applyUpd (.lateTags v) s).parts = s.parts := rfl
@[simp] theorem lateTags_upd_dmas (s : State) (v : List (Master × Nat)) : (applyUpd (.lateTags v) s).dmas = s.dmas := rfl
@[simp] theorem lateTags_upd_regReqs (s : State) (v : List (Master × Nat)) : (applyUpd (.lateTags v) s).regReqs = s.regReqs := rfl
@[simp] theorem lateTags_upd_regPorts (s : State) (v : List (Master × Nat)) : (applyUpd (.lateTags v) s).regPorts = s.regPorts := rfl
@[simp] theorem lateTags_upd_subchs (s : State) (v : List (Master × Nat)) : (applyUpd (.lateTags v) s).subchs = s.subchs := rfl
@[simp] theorem lateTags_upd_trackers (s : State) (v : List (Master × Nat)) : (applyUpd (.lateTags v) s).trackers = s.trackers := rfl
@[simp] theorem lateTags_upd_throttles (s : State) (v : List (Master × Nat)) : (applyUpd (.lateTags v) s).throttles = s.throttles := rfl
@[simp] theorem lateTags_upd_errRing (s : State) (v : List (Master × Nat)) : (applyUpd (.lateTags v) s).errRing = s.errRing := rfl
@[simp] theorem lateTags_upd_errRingOvf (s : State) (v : List (Master × Nat)) : (applyUpd (.lateTags v) s).errRingOvf = s.errRingOvf := rfl
@[simp] theorem lateTags_upd_patrolLine (s : State) (v : List (Master × Nat)) : (applyUpd (.lateTags v) s).patrolLine = s.patrolLine := rfl
@[simp] theorem lateTags_upd_retTimes (s : State) (v : List (Master × Nat)) : (applyUpd (.lateTags v) s).retTimes = s.retTimes := rfl
@[simp] theorem lateTags_upd_retired (s : State) (v : List (Master × Nat)) : (applyUpd (.lateTags v) s).retired = s.retired := rfl
@[simp] theorem lateTags_upd_dramSeq (s : State) (v : List (Master × Nat)) : (applyUpd (.lateTags v) s).dramSeq = s.dramSeq := rfl
@[simp] theorem lateTags_upd_trn (s : State) (v : List (Master × Nat)) : (applyUpd (.lateTags v) s).trn = s.trn := rfl
@[simp] theorem lateTags_upd_dqsAdj (s : State) (v : List (Master × Nat)) : (applyUpd (.lateTags v) s).dqsAdj = s.dqsAdj := rfl
@[simp] theorem lateTags_upd_dpol (s : State) (v : List (Master × Nat)) : (applyUpd (.lateTags v) s).dpol = s.dpol := rfl
@[simp] theorem lateTags_upd_idleAt (s : State) (v : List (Master × Nat)) : (applyUpd (.lateTags v) s).idleAt = s.idleAt := rfl
@[simp] theorem lateTags_upd_fitted (s : State) (v : List (Master × Nat)) : (applyUpd (.lateTags v) s).fitted = s.fitted := rfl
@[simp] theorem lateTags_upd_faultMsgs (s : State) (v : List (Master × Nat)) : (applyUpd (.lateTags v) s).faultMsgs = s.faultMsgs := rfl
@[simp] theorem lateTags_upd_out (s : State) (v : List (Master × Nat)) : (applyUpd (.lateTags v) s).out = s.out := rfl
@[simp] theorem lateTags_upd_lastRead (s : State) (v : List (Master × Nat)) : (applyUpd (.lateTags v) s).lastRead = s.lastRead := rfl
@[simp] theorem lateTags_upd_fwd (s : State) (v : List (Master × Nat)) : (applyUpd (.lateTags v) s).fwd = s.fwd := rfl
@[simp] theorem lateTags_upd_ethTx (s : State) (v : List (Master × Nat)) : (applyUpd (.lateTags v) s).ethTx = s.ethTx := rfl
@[simp] theorem lateTags_upd_ethHeadAt (s : State) (v : List (Master × Nat)) : (applyUpd (.lateTags v) s).ethHeadAt = s.ethHeadAt := rfl
@[simp] theorem lateTags_upd_canTx (s : State) (v : List (Master × Nat)) : (applyUpd (.lateTags v) s).canTx = s.canTx := rfl
@[simp] theorem lateTags_upd_pcieOut (s : State) (v : List (Master × Nat)) : (applyUpd (.lateTags v) s).pcieOut = s.pcieOut := rfl
@[simp] theorem lateTags_upd_pcieCfgRd (s : State) (v : List (Master × Nat)) : (applyUpd (.lateTags v) s).pcieCfgRd = s.pcieCfgRd := rfl
@[simp] theorem lateTags_upd_msix (s : State) (v : List (Master × Nat)) : (applyUpd (.lateTags v) s).msix = s.msix := rfl
@[simp] theorem lateTags_upd_ancs (s : State) (v : List (Master × Nat)) : (applyUpd (.lateTags v) s).ancs = s.ancs := rfl
@[simp] theorem lateTags_upd_trajArea (s : State) (v : List (Master × Nat)) : (applyUpd (.lateTags v) s).trajArea = s.trajArea := rfl
@[simp] theorem lateTags_upd_lidarIn (s : State) (v : List (Master × Nat)) : (applyUpd (.lateTags v) s).lidarIn = s.lidarIn := rfl
@[simp] theorem lateTags_upd_wheelIn (s : State) (v : List (Master × Nat)) : (applyUpd (.lateTags v) s).wheelIn = s.wheelIn := rfl
@[simp] theorem lateTags_upd_spiStepBusy (s : State) (v : List (Master × Nat)) : (applyUpd (.lateTags v) s).spiStepBusy = s.spiStepBusy := rfl
@[simp] theorem lateTags_upd_spiRec (s : State) (v : List (Master × Nat)) : (applyUpd (.lateTags v) s).spiRec = s.spiRec := rfl
@[simp] theorem lateTags_upd_spiStepCfg (s : State) (v : List (Master × Nat)) : (applyUpd (.lateTags v) s).spiStepCfg = s.spiStepCfg := rfl
@[simp] theorem lateTags_upd_ctxs (s : State) (v : List (Master × Nat)) : (applyUpd (.lateTags v) s).ctxs = s.ctxs := rfl
@[simp] theorem lateTags_upd_fsyOmit (s : State) (v : List (Master × Nat)) : (applyUpd (.lateTags v) s).fsyOmit = s.fsyOmit := rfl
@[simp] theorem lateTags_upd_fsyPulsed (s : State) (v : List (Master × Nat)) : (applyUpd (.lateTags v) s).fsyPulsed = s.fsyPulsed := rfl
@[simp] theorem lateTags_upd_supTasks (s : State) (v : List (Master × Nat)) : (applyUpd (.lateTags v) s).supTasks = s.supTasks := rfl
@[simp] theorem lateTags_upd_fus (s : State) (v : List (Master × Nat)) : (applyUpd (.lateTags v) s).fus = s.fus := rfl
@[simp] theorem lateTags_upd_fcons (s : State) (v : List (Master × Nat)) : (applyUpd (.lateTags v) s).fcons = s.fcons := rfl
@[simp] theorem lateTags_upd_shadow (s : State) (v : List (Master × Nat)) : (applyUpd (.lateTags v) s).shadow = s.shadow := rfl
@[simp] theorem lateTags_upd_trv (s : State) (v : List (Master × Nat)) : (applyUpd (.lateTags v) s).trv = s.trv := rfl
@[simp] theorem lateTags_upd_tlayers (s : State) (v : List (Master × Nat)) : (applyUpd (.lateTags v) s).tlayers = s.tlayers := rfl
@[simp] theorem lateTags_upd_jobFaults (s : State) (v : List (Master × Nat)) : (applyUpd (.lateTags v) s).jobFaults = s.jobFaults := rfl
@[simp] theorem lateTags_upd_unitLast (s : State) (v : List (Master × Nat)) : (applyUpd (.lateTags v) s).unitLast = s.unitLast := rfl
@[simp] theorem lateTags_upd_unitRst (s : State) (v : List (Master × Nat)) : (applyUpd (.lateTags v) s).unitRst = s.unitRst := rfl
@[simp] theorem lateTags_upd_xlink (s : State) (v : List (Master × Nat)) : (applyUpd (.lateTags v) s).xlink = s.xlink := rfl
@[simp] theorem lateTags_upd_trace (s : State) (v : List (Master × Nat)) : (applyUpd (.lateTags v) s).trace = s.trace := rfl
@[simp] theorem lateTags_upd_progs (s : State) (v : List (Master × Nat)) : (applyUpd (.lateTags v) s).progs = s.progs := rfl
@[simp] theorem lateTags_upd_rails (s : State) (v : List (Master × Nat)) : (applyUpd (.lateTags v) s).rails = s.rails := rfl
@[simp] theorem lateTags_upd_thm (s : State) (v : List (Master × Nat)) : (applyUpd (.lateTags v) s).thm = s.thm := rfl
@[simp] theorem lateTags_upd_bnd (s : State) (v : List (Master × Nat)) : (applyUpd (.lateTags v) s).bnd = s.bnd := rfl
@[simp] theorem lateTags_upd_thmTrip (s : State) (v : List (Master × Nat)) : (applyUpd (.lateTags v) s).thmTrip = s.thmTrip := rfl
@[simp] theorem lateTags_upd_flash (s : State) (v : List (Master × Nat)) : (applyUpd (.lateTags v) s).flash = s.flash := rfl
@[simp] theorem lateTags_upd_slots (s : State) (v : List (Master × Nat)) : (applyUpd (.lateTags v) s).slots = s.slots := rfl
@[simp] theorem lateTags_upd_stores (s : State) (v : List (Master × Nat)) : (applyUpd (.lateTags v) s).stores = s.stores := rfl
@[simp] theorem lateTags_upd_ids (s : State) (v : List (Master × Nat)) : (applyUpd (.lateTags v) s).ids = s.ids := rfl
@[simp] theorem lateTags_upd_boot (s : State) (v : List (Master × Nat)) : (applyUpd (.lateTags v) s).boot = s.boot := rfl
@[simp] theorem lateTags_upd_load (s : State) (v : List (Master × Nat)) : (applyUpd (.lateTags v) s).load = s.load := rfl
@[simp] theorem lateTags_upd_flt (s : State) (v : List (Master × Nat)) : (applyUpd (.lateTags v) s).flt = s.flt := rfl
@[simp] theorem lateTags_upd_mon (s : State) (v : List (Master × Nat)) : (applyUpd (.lateTags v) s).mon = s.mon := rfl
@[simp] theorem ports_upd_pending (s : State) (k : Nat) (v : Port) : (applyUpd (.ports k v) s).pending = s.pending := rfl
@[simp] theorem ports_upd_regs (s : State) (k : Nat) (v : Port) : (applyUpd (.ports k v) s).regs = s.regs := rfl
@[simp] theorem ports_upd_mem (s : State) (k : Nat) (v : Port) : (applyUpd (.ports k v) s).mem = s.mem := rfl
@[simp] theorem ports_upd_sram (s : State) (k : Nat) (v : Port) : (applyUpd (.ports k v) s).sram = s.sram := rfl
@[simp] theorem ports_upd_time (s : State) (k : Nat) (v : Port) : (applyUpd (.ports k v) s).time = s.time := rfl
@[simp] theorem ports_upd_timeFrac (s : State) (k : Nat) (v : Port) : (applyUpd (.ports k v) s).timeFrac = s.timeFrac := rfl
@[simp] theorem ports_upd_freeCtr (s : State) (k : Nat) (v : Port) : (applyUpd (.ports k v) s).freeCtr = s.freeCtr := rfl
@[simp] theorem ports_upd_hiLatch (s : State) (k : Nat) (v : Port) : (applyUpd (.ports k v) s).hiLatch = s.hiLatch := rfl
@[simp] theorem ports_upd_timeSet (s : State) (k : Nat) (v : Port) : (applyUpd (.ports k v) s).timeSet = s.timeSet := rfl
@[simp] theorem ports_upd_n0 (s : State) (k : Nat) (v : Port) : (applyUpd (.ports k v) s).n0 = s.n0 := rfl
@[simp] theorem ports_upd_ticked (s : State) (k : Nat) (v : Port) : (applyUpd (.ports k v) s).ticked = s.ticked := rfl
@[simp] theorem ports_upd_peerTickAt (s : State) (k : Nat) (v : Port) : (applyUpd (.ports k v) s).peerTickAt = s.peerTickAt := rfl
@[simp] theorem ports_upd_guardPitch (s : State) (k : Nat) (v : Port) : (applyUpd (.ports k v) s).guardPitch = s.guardPitch := rfl
@[simp] theorem ports_upd_diePitch (s : State) (k : Nat) (v : Port) : (applyUpd (.ports k v) s).diePitch = s.diePitch := rfl
@[simp] theorem ports_upd_resps (s : State) (k : Nat) (v : Port) : (applyUpd (.ports k v) s).resps = s.resps := rfl
@[simp] theorem ports_upd_txns (s : State) (k : Nat) (v : Port) : (applyUpd (.ports k v) s).txns = s.txns := rfl
@[simp] theorem ports_upd_nextTag (s : State) (k : Nat) (v : Port) : (applyUpd (.ports k v) s).nextTag = s.nextTag := rfl
@[simp] theorem ports_upd_lateTags (s : State) (k : Nat) (v : Port) : (applyUpd (.ports k v) s).lateTags = s.lateTags := rfl
@[simp] theorem ports_upd_ports (s : State) (k : Nat) (v : Port) : (applyUpd (.ports k v) s).ports = tabSet portDefault s.ports k v := rfl
@[simp] theorem ports_upd_threads (s : State) (k : Nat) (v : Port) : (applyUpd (.ports k v) s).threads = s.threads := rfl
@[simp] theorem ports_upd_cores (s : State) (k : Nat) (v : Port) : (applyUpd (.ports k v) s).cores = s.cores := rfl
@[simp] theorem ports_upd_engines (s : State) (k : Nat) (v : Port) : (applyUpd (.ports k v) s).engines = s.engines := rfl
@[simp] theorem ports_upd_held (s : State) (k : Nat) (v : Port) : (applyUpd (.ports k v) s).held = s.held := rfl
@[simp] theorem ports_upd_watches (s : State) (k : Nat) (v : Port) : (applyUpd (.ports k v) s).watches = s.watches := rfl
@[simp] theorem ports_upd_watchMsgs (s : State) (k : Nat) (v : Port) : (applyUpd (.ports k v) s).watchMsgs = s.watchMsgs := rfl
@[simp] theorem ports_upd_bankHeld (s : State) (k : Nat) (v : Port) : (applyUpd (.ports k v) s).bankHeld = s.bankHeld := rfl
@[simp] theorem ports_upd_bankTarget (s : State) (k : Nat) (v : Port) : (applyUpd (.ports k v) s).bankTarget = s.bankTarget := rfl
@[simp] theorem ports_upd_ecc (s : State) (k : Nat) (v : Port) : (applyUpd (.ports k v) s).ecc = s.ecc := rfl
@[simp] theorem ports_upd_lineEcc (s : State) (k : Nat) (v : Port) : (applyUpd (.ports k v) s).lineEcc = s.lineEcc := rfl
@[simp] theorem ports_upd_wbPending (s : State) (k : Nat) (v : Port) : (applyUpd (.ports k v) s).wbPending = s.wbPending := rfl
@[simp] theorem ports_upd_scrubPos (s : State) (k : Nat) (v : Port) : (applyUpd (.ports k v) s).scrubPos = s.scrubPos := rfl
@[simp] theorem ports_upd_refusals (s : State) (k : Nat) (v : Port) : (applyUpd (.ports k v) s).refusals = s.refusals := rfl
@[simp] theorem ports_upd_firstRefusal (s : State) (k : Nat) (v : Port) : (applyUpd (.ports k v) s).firstRefusal = s.firstRefusal := rfl
@[simp] theorem ports_upd_boxQueue (s : State) (k : Nat) (v : Port) : (applyUpd (.ports k v) s).boxQueue = s.boxQueue := rfl
@[simp] theorem ports_upd_boxRun (s : State) (k : Nat) (v : Port) : (applyUpd (.ports k v) s).boxRun = s.boxRun := rfl
@[simp] theorem ports_upd_kvs (s : State) (k : Nat) (v : Port) : (applyUpd (.ports k v) s).kvs = s.kvs := rfl
@[simp] theorem ports_upd_parts (s : State) (k : Nat) (v : Port) : (applyUpd (.ports k v) s).parts = s.parts := rfl
@[simp] theorem ports_upd_dmas (s : State) (k : Nat) (v : Port) : (applyUpd (.ports k v) s).dmas = s.dmas := rfl
@[simp] theorem ports_upd_regReqs (s : State) (k : Nat) (v : Port) : (applyUpd (.ports k v) s).regReqs = s.regReqs := rfl
@[simp] theorem ports_upd_regPorts (s : State) (k : Nat) (v : Port) : (applyUpd (.ports k v) s).regPorts = s.regPorts := rfl
@[simp] theorem ports_upd_subchs (s : State) (k : Nat) (v : Port) : (applyUpd (.ports k v) s).subchs = s.subchs := rfl
@[simp] theorem ports_upd_trackers (s : State) (k : Nat) (v : Port) : (applyUpd (.ports k v) s).trackers = s.trackers := rfl
@[simp] theorem ports_upd_throttles (s : State) (k : Nat) (v : Port) : (applyUpd (.ports k v) s).throttles = s.throttles := rfl
@[simp] theorem ports_upd_errRing (s : State) (k : Nat) (v : Port) : (applyUpd (.ports k v) s).errRing = s.errRing := rfl
@[simp] theorem ports_upd_errRingOvf (s : State) (k : Nat) (v : Port) : (applyUpd (.ports k v) s).errRingOvf = s.errRingOvf := rfl
@[simp] theorem ports_upd_patrolLine (s : State) (k : Nat) (v : Port) : (applyUpd (.ports k v) s).patrolLine = s.patrolLine := rfl
@[simp] theorem ports_upd_retTimes (s : State) (k : Nat) (v : Port) : (applyUpd (.ports k v) s).retTimes = s.retTimes := rfl
@[simp] theorem ports_upd_retired (s : State) (k : Nat) (v : Port) : (applyUpd (.ports k v) s).retired = s.retired := rfl
@[simp] theorem ports_upd_dramSeq (s : State) (k : Nat) (v : Port) : (applyUpd (.ports k v) s).dramSeq = s.dramSeq := rfl
@[simp] theorem ports_upd_trn (s : State) (k : Nat) (v : Port) : (applyUpd (.ports k v) s).trn = s.trn := rfl
@[simp] theorem ports_upd_dqsAdj (s : State) (k : Nat) (v : Port) : (applyUpd (.ports k v) s).dqsAdj = s.dqsAdj := rfl
@[simp] theorem ports_upd_dpol (s : State) (k : Nat) (v : Port) : (applyUpd (.ports k v) s).dpol = s.dpol := rfl
@[simp] theorem ports_upd_idleAt (s : State) (k : Nat) (v : Port) : (applyUpd (.ports k v) s).idleAt = s.idleAt := rfl
@[simp] theorem ports_upd_fitted (s : State) (k : Nat) (v : Port) : (applyUpd (.ports k v) s).fitted = s.fitted := rfl
@[simp] theorem ports_upd_faultMsgs (s : State) (k : Nat) (v : Port) : (applyUpd (.ports k v) s).faultMsgs = s.faultMsgs := rfl
@[simp] theorem ports_upd_out (s : State) (k : Nat) (v : Port) : (applyUpd (.ports k v) s).out = s.out := rfl
@[simp] theorem ports_upd_lastRead (s : State) (k : Nat) (v : Port) : (applyUpd (.ports k v) s).lastRead = s.lastRead := rfl
@[simp] theorem ports_upd_fwd (s : State) (k : Nat) (v : Port) : (applyUpd (.ports k v) s).fwd = s.fwd := rfl
@[simp] theorem ports_upd_ethTx (s : State) (k : Nat) (v : Port) : (applyUpd (.ports k v) s).ethTx = s.ethTx := rfl
@[simp] theorem ports_upd_ethHeadAt (s : State) (k : Nat) (v : Port) : (applyUpd (.ports k v) s).ethHeadAt = s.ethHeadAt := rfl
@[simp] theorem ports_upd_canTx (s : State) (k : Nat) (v : Port) : (applyUpd (.ports k v) s).canTx = s.canTx := rfl
@[simp] theorem ports_upd_pcieOut (s : State) (k : Nat) (v : Port) : (applyUpd (.ports k v) s).pcieOut = s.pcieOut := rfl
@[simp] theorem ports_upd_pcieCfgRd (s : State) (k : Nat) (v : Port) : (applyUpd (.ports k v) s).pcieCfgRd = s.pcieCfgRd := rfl
@[simp] theorem ports_upd_msix (s : State) (k : Nat) (v : Port) : (applyUpd (.ports k v) s).msix = s.msix := rfl
@[simp] theorem ports_upd_ancs (s : State) (k : Nat) (v : Port) : (applyUpd (.ports k v) s).ancs = s.ancs := rfl
@[simp] theorem ports_upd_trajArea (s : State) (k : Nat) (v : Port) : (applyUpd (.ports k v) s).trajArea = s.trajArea := rfl
@[simp] theorem ports_upd_lidarIn (s : State) (k : Nat) (v : Port) : (applyUpd (.ports k v) s).lidarIn = s.lidarIn := rfl
@[simp] theorem ports_upd_wheelIn (s : State) (k : Nat) (v : Port) : (applyUpd (.ports k v) s).wheelIn = s.wheelIn := rfl
@[simp] theorem ports_upd_spiStepBusy (s : State) (k : Nat) (v : Port) : (applyUpd (.ports k v) s).spiStepBusy = s.spiStepBusy := rfl
@[simp] theorem ports_upd_spiRec (s : State) (k : Nat) (v : Port) : (applyUpd (.ports k v) s).spiRec = s.spiRec := rfl
@[simp] theorem ports_upd_spiStepCfg (s : State) (k : Nat) (v : Port) : (applyUpd (.ports k v) s).spiStepCfg = s.spiStepCfg := rfl
@[simp] theorem ports_upd_ctxs (s : State) (k : Nat) (v : Port) : (applyUpd (.ports k v) s).ctxs = s.ctxs := rfl
@[simp] theorem ports_upd_fsyOmit (s : State) (k : Nat) (v : Port) : (applyUpd (.ports k v) s).fsyOmit = s.fsyOmit := rfl
@[simp] theorem ports_upd_fsyPulsed (s : State) (k : Nat) (v : Port) : (applyUpd (.ports k v) s).fsyPulsed = s.fsyPulsed := rfl
@[simp] theorem ports_upd_supTasks (s : State) (k : Nat) (v : Port) : (applyUpd (.ports k v) s).supTasks = s.supTasks := rfl
@[simp] theorem ports_upd_fus (s : State) (k : Nat) (v : Port) : (applyUpd (.ports k v) s).fus = s.fus := rfl
@[simp] theorem ports_upd_fcons (s : State) (k : Nat) (v : Port) : (applyUpd (.ports k v) s).fcons = s.fcons := rfl
@[simp] theorem ports_upd_shadow (s : State) (k : Nat) (v : Port) : (applyUpd (.ports k v) s).shadow = s.shadow := rfl
@[simp] theorem ports_upd_trv (s : State) (k : Nat) (v : Port) : (applyUpd (.ports k v) s).trv = s.trv := rfl
@[simp] theorem ports_upd_tlayers (s : State) (k : Nat) (v : Port) : (applyUpd (.ports k v) s).tlayers = s.tlayers := rfl
@[simp] theorem ports_upd_jobFaults (s : State) (k : Nat) (v : Port) : (applyUpd (.ports k v) s).jobFaults = s.jobFaults := rfl
@[simp] theorem ports_upd_unitLast (s : State) (k : Nat) (v : Port) : (applyUpd (.ports k v) s).unitLast = s.unitLast := rfl
@[simp] theorem ports_upd_unitRst (s : State) (k : Nat) (v : Port) : (applyUpd (.ports k v) s).unitRst = s.unitRst := rfl
@[simp] theorem ports_upd_xlink (s : State) (k : Nat) (v : Port) : (applyUpd (.ports k v) s).xlink = s.xlink := rfl
@[simp] theorem ports_upd_trace (s : State) (k : Nat) (v : Port) : (applyUpd (.ports k v) s).trace = s.trace := rfl
@[simp] theorem ports_upd_progs (s : State) (k : Nat) (v : Port) : (applyUpd (.ports k v) s).progs = s.progs := rfl
@[simp] theorem ports_upd_rails (s : State) (k : Nat) (v : Port) : (applyUpd (.ports k v) s).rails = s.rails := rfl
@[simp] theorem ports_upd_thm (s : State) (k : Nat) (v : Port) : (applyUpd (.ports k v) s).thm = s.thm := rfl
@[simp] theorem ports_upd_bnd (s : State) (k : Nat) (v : Port) : (applyUpd (.ports k v) s).bnd = s.bnd := rfl
@[simp] theorem ports_upd_thmTrip (s : State) (k : Nat) (v : Port) : (applyUpd (.ports k v) s).thmTrip = s.thmTrip := rfl
@[simp] theorem ports_upd_flash (s : State) (k : Nat) (v : Port) : (applyUpd (.ports k v) s).flash = s.flash := rfl
@[simp] theorem ports_upd_slots (s : State) (k : Nat) (v : Port) : (applyUpd (.ports k v) s).slots = s.slots := rfl
@[simp] theorem ports_upd_stores (s : State) (k : Nat) (v : Port) : (applyUpd (.ports k v) s).stores = s.stores := rfl
@[simp] theorem ports_upd_ids (s : State) (k : Nat) (v : Port) : (applyUpd (.ports k v) s).ids = s.ids := rfl
@[simp] theorem ports_upd_boot (s : State) (k : Nat) (v : Port) : (applyUpd (.ports k v) s).boot = s.boot := rfl
@[simp] theorem ports_upd_load (s : State) (k : Nat) (v : Port) : (applyUpd (.ports k v) s).load = s.load := rfl
@[simp] theorem ports_upd_flt (s : State) (k : Nat) (v : Port) : (applyUpd (.ports k v) s).flt = s.flt := rfl
@[simp] theorem ports_upd_mon (s : State) (k : Nat) (v : Port) : (applyUpd (.ports k v) s).mon = s.mon := rfl
@[simp] theorem threads_upd_pending (s : State) (k : Nat) (v : Thread) : (applyUpd (.threads k v) s).pending = s.pending := rfl
@[simp] theorem threads_upd_regs (s : State) (k : Nat) (v : Thread) : (applyUpd (.threads k v) s).regs = s.regs := rfl
@[simp] theorem threads_upd_mem (s : State) (k : Nat) (v : Thread) : (applyUpd (.threads k v) s).mem = s.mem := rfl
@[simp] theorem threads_upd_sram (s : State) (k : Nat) (v : Thread) : (applyUpd (.threads k v) s).sram = s.sram := rfl
@[simp] theorem threads_upd_time (s : State) (k : Nat) (v : Thread) : (applyUpd (.threads k v) s).time = s.time := rfl
@[simp] theorem threads_upd_timeFrac (s : State) (k : Nat) (v : Thread) : (applyUpd (.threads k v) s).timeFrac = s.timeFrac := rfl
@[simp] theorem threads_upd_freeCtr (s : State) (k : Nat) (v : Thread) : (applyUpd (.threads k v) s).freeCtr = s.freeCtr := rfl
@[simp] theorem threads_upd_hiLatch (s : State) (k : Nat) (v : Thread) : (applyUpd (.threads k v) s).hiLatch = s.hiLatch := rfl
@[simp] theorem threads_upd_timeSet (s : State) (k : Nat) (v : Thread) : (applyUpd (.threads k v) s).timeSet = s.timeSet := rfl
@[simp] theorem threads_upd_n0 (s : State) (k : Nat) (v : Thread) : (applyUpd (.threads k v) s).n0 = s.n0 := rfl
@[simp] theorem threads_upd_ticked (s : State) (k : Nat) (v : Thread) : (applyUpd (.threads k v) s).ticked = s.ticked := rfl
@[simp] theorem threads_upd_peerTickAt (s : State) (k : Nat) (v : Thread) : (applyUpd (.threads k v) s).peerTickAt = s.peerTickAt := rfl
@[simp] theorem threads_upd_guardPitch (s : State) (k : Nat) (v : Thread) : (applyUpd (.threads k v) s).guardPitch = s.guardPitch := rfl
@[simp] theorem threads_upd_diePitch (s : State) (k : Nat) (v : Thread) : (applyUpd (.threads k v) s).diePitch = s.diePitch := rfl
@[simp] theorem threads_upd_resps (s : State) (k : Nat) (v : Thread) : (applyUpd (.threads k v) s).resps = s.resps := rfl
@[simp] theorem threads_upd_txns (s : State) (k : Nat) (v : Thread) : (applyUpd (.threads k v) s).txns = s.txns := rfl
@[simp] theorem threads_upd_nextTag (s : State) (k : Nat) (v : Thread) : (applyUpd (.threads k v) s).nextTag = s.nextTag := rfl
@[simp] theorem threads_upd_lateTags (s : State) (k : Nat) (v : Thread) : (applyUpd (.threads k v) s).lateTags = s.lateTags := rfl
@[simp] theorem threads_upd_ports (s : State) (k : Nat) (v : Thread) : (applyUpd (.threads k v) s).ports = s.ports := rfl
@[simp] theorem threads_upd_threads (s : State) (k : Nat) (v : Thread) : (applyUpd (.threads k v) s).threads = tabSet threadDefault s.threads k v := rfl
@[simp] theorem threads_upd_cores (s : State) (k : Nat) (v : Thread) : (applyUpd (.threads k v) s).cores = s.cores := rfl
@[simp] theorem threads_upd_engines (s : State) (k : Nat) (v : Thread) : (applyUpd (.threads k v) s).engines = s.engines := rfl
@[simp] theorem threads_upd_held (s : State) (k : Nat) (v : Thread) : (applyUpd (.threads k v) s).held = s.held := rfl
@[simp] theorem threads_upd_watches (s : State) (k : Nat) (v : Thread) : (applyUpd (.threads k v) s).watches = s.watches := rfl
@[simp] theorem threads_upd_watchMsgs (s : State) (k : Nat) (v : Thread) : (applyUpd (.threads k v) s).watchMsgs = s.watchMsgs := rfl
@[simp] theorem threads_upd_bankHeld (s : State) (k : Nat) (v : Thread) : (applyUpd (.threads k v) s).bankHeld = s.bankHeld := rfl
@[simp] theorem threads_upd_bankTarget (s : State) (k : Nat) (v : Thread) : (applyUpd (.threads k v) s).bankTarget = s.bankTarget := rfl
@[simp] theorem threads_upd_ecc (s : State) (k : Nat) (v : Thread) : (applyUpd (.threads k v) s).ecc = s.ecc := rfl
@[simp] theorem threads_upd_lineEcc (s : State) (k : Nat) (v : Thread) : (applyUpd (.threads k v) s).lineEcc = s.lineEcc := rfl
@[simp] theorem threads_upd_wbPending (s : State) (k : Nat) (v : Thread) : (applyUpd (.threads k v) s).wbPending = s.wbPending := rfl
@[simp] theorem threads_upd_scrubPos (s : State) (k : Nat) (v : Thread) : (applyUpd (.threads k v) s).scrubPos = s.scrubPos := rfl
@[simp] theorem threads_upd_refusals (s : State) (k : Nat) (v : Thread) : (applyUpd (.threads k v) s).refusals = s.refusals := rfl
@[simp] theorem threads_upd_firstRefusal (s : State) (k : Nat) (v : Thread) : (applyUpd (.threads k v) s).firstRefusal = s.firstRefusal := rfl
@[simp] theorem threads_upd_boxQueue (s : State) (k : Nat) (v : Thread) : (applyUpd (.threads k v) s).boxQueue = s.boxQueue := rfl
@[simp] theorem threads_upd_boxRun (s : State) (k : Nat) (v : Thread) : (applyUpd (.threads k v) s).boxRun = s.boxRun := rfl
@[simp] theorem threads_upd_kvs (s : State) (k : Nat) (v : Thread) : (applyUpd (.threads k v) s).kvs = s.kvs := rfl
@[simp] theorem threads_upd_parts (s : State) (k : Nat) (v : Thread) : (applyUpd (.threads k v) s).parts = s.parts := rfl
@[simp] theorem threads_upd_dmas (s : State) (k : Nat) (v : Thread) : (applyUpd (.threads k v) s).dmas = s.dmas := rfl
@[simp] theorem threads_upd_regReqs (s : State) (k : Nat) (v : Thread) : (applyUpd (.threads k v) s).regReqs = s.regReqs := rfl
@[simp] theorem threads_upd_regPorts (s : State) (k : Nat) (v : Thread) : (applyUpd (.threads k v) s).regPorts = s.regPorts := rfl
@[simp] theorem threads_upd_subchs (s : State) (k : Nat) (v : Thread) : (applyUpd (.threads k v) s).subchs = s.subchs := rfl
@[simp] theorem threads_upd_trackers (s : State) (k : Nat) (v : Thread) : (applyUpd (.threads k v) s).trackers = s.trackers := rfl
@[simp] theorem threads_upd_throttles (s : State) (k : Nat) (v : Thread) : (applyUpd (.threads k v) s).throttles = s.throttles := rfl
@[simp] theorem threads_upd_errRing (s : State) (k : Nat) (v : Thread) : (applyUpd (.threads k v) s).errRing = s.errRing := rfl
@[simp] theorem threads_upd_errRingOvf (s : State) (k : Nat) (v : Thread) : (applyUpd (.threads k v) s).errRingOvf = s.errRingOvf := rfl
@[simp] theorem threads_upd_patrolLine (s : State) (k : Nat) (v : Thread) : (applyUpd (.threads k v) s).patrolLine = s.patrolLine := rfl
@[simp] theorem threads_upd_retTimes (s : State) (k : Nat) (v : Thread) : (applyUpd (.threads k v) s).retTimes = s.retTimes := rfl
@[simp] theorem threads_upd_retired (s : State) (k : Nat) (v : Thread) : (applyUpd (.threads k v) s).retired = s.retired := rfl
@[simp] theorem threads_upd_dramSeq (s : State) (k : Nat) (v : Thread) : (applyUpd (.threads k v) s).dramSeq = s.dramSeq := rfl
@[simp] theorem threads_upd_trn (s : State) (k : Nat) (v : Thread) : (applyUpd (.threads k v) s).trn = s.trn := rfl
@[simp] theorem threads_upd_dqsAdj (s : State) (k : Nat) (v : Thread) : (applyUpd (.threads k v) s).dqsAdj = s.dqsAdj := rfl
@[simp] theorem threads_upd_dpol (s : State) (k : Nat) (v : Thread) : (applyUpd (.threads k v) s).dpol = s.dpol := rfl
@[simp] theorem threads_upd_idleAt (s : State) (k : Nat) (v : Thread) : (applyUpd (.threads k v) s).idleAt = s.idleAt := rfl
@[simp] theorem threads_upd_fitted (s : State) (k : Nat) (v : Thread) : (applyUpd (.threads k v) s).fitted = s.fitted := rfl
@[simp] theorem threads_upd_faultMsgs (s : State) (k : Nat) (v : Thread) : (applyUpd (.threads k v) s).faultMsgs = s.faultMsgs := rfl
@[simp] theorem threads_upd_out (s : State) (k : Nat) (v : Thread) : (applyUpd (.threads k v) s).out = s.out := rfl
@[simp] theorem threads_upd_lastRead (s : State) (k : Nat) (v : Thread) : (applyUpd (.threads k v) s).lastRead = s.lastRead := rfl
@[simp] theorem threads_upd_fwd (s : State) (k : Nat) (v : Thread) : (applyUpd (.threads k v) s).fwd = s.fwd := rfl
@[simp] theorem threads_upd_ethTx (s : State) (k : Nat) (v : Thread) : (applyUpd (.threads k v) s).ethTx = s.ethTx := rfl
@[simp] theorem threads_upd_ethHeadAt (s : State) (k : Nat) (v : Thread) : (applyUpd (.threads k v) s).ethHeadAt = s.ethHeadAt := rfl
@[simp] theorem threads_upd_canTx (s : State) (k : Nat) (v : Thread) : (applyUpd (.threads k v) s).canTx = s.canTx := rfl
@[simp] theorem threads_upd_pcieOut (s : State) (k : Nat) (v : Thread) : (applyUpd (.threads k v) s).pcieOut = s.pcieOut := rfl
@[simp] theorem threads_upd_pcieCfgRd (s : State) (k : Nat) (v : Thread) : (applyUpd (.threads k v) s).pcieCfgRd = s.pcieCfgRd := rfl
@[simp] theorem threads_upd_msix (s : State) (k : Nat) (v : Thread) : (applyUpd (.threads k v) s).msix = s.msix := rfl
@[simp] theorem threads_upd_ancs (s : State) (k : Nat) (v : Thread) : (applyUpd (.threads k v) s).ancs = s.ancs := rfl
@[simp] theorem threads_upd_trajArea (s : State) (k : Nat) (v : Thread) : (applyUpd (.threads k v) s).trajArea = s.trajArea := rfl
@[simp] theorem threads_upd_lidarIn (s : State) (k : Nat) (v : Thread) : (applyUpd (.threads k v) s).lidarIn = s.lidarIn := rfl
@[simp] theorem threads_upd_wheelIn (s : State) (k : Nat) (v : Thread) : (applyUpd (.threads k v) s).wheelIn = s.wheelIn := rfl
@[simp] theorem threads_upd_spiStepBusy (s : State) (k : Nat) (v : Thread) : (applyUpd (.threads k v) s).spiStepBusy = s.spiStepBusy := rfl
@[simp] theorem threads_upd_spiRec (s : State) (k : Nat) (v : Thread) : (applyUpd (.threads k v) s).spiRec = s.spiRec := rfl
@[simp] theorem threads_upd_spiStepCfg (s : State) (k : Nat) (v : Thread) : (applyUpd (.threads k v) s).spiStepCfg = s.spiStepCfg := rfl
@[simp] theorem threads_upd_ctxs (s : State) (k : Nat) (v : Thread) : (applyUpd (.threads k v) s).ctxs = s.ctxs := rfl
@[simp] theorem threads_upd_fsyOmit (s : State) (k : Nat) (v : Thread) : (applyUpd (.threads k v) s).fsyOmit = s.fsyOmit := rfl
@[simp] theorem threads_upd_fsyPulsed (s : State) (k : Nat) (v : Thread) : (applyUpd (.threads k v) s).fsyPulsed = s.fsyPulsed := rfl
@[simp] theorem threads_upd_supTasks (s : State) (k : Nat) (v : Thread) : (applyUpd (.threads k v) s).supTasks = s.supTasks := rfl
@[simp] theorem threads_upd_fus (s : State) (k : Nat) (v : Thread) : (applyUpd (.threads k v) s).fus = s.fus := rfl
@[simp] theorem threads_upd_fcons (s : State) (k : Nat) (v : Thread) : (applyUpd (.threads k v) s).fcons = s.fcons := rfl
@[simp] theorem threads_upd_shadow (s : State) (k : Nat) (v : Thread) : (applyUpd (.threads k v) s).shadow = s.shadow := rfl
@[simp] theorem threads_upd_trv (s : State) (k : Nat) (v : Thread) : (applyUpd (.threads k v) s).trv = s.trv := rfl
@[simp] theorem threads_upd_tlayers (s : State) (k : Nat) (v : Thread) : (applyUpd (.threads k v) s).tlayers = s.tlayers := rfl
@[simp] theorem threads_upd_jobFaults (s : State) (k : Nat) (v : Thread) : (applyUpd (.threads k v) s).jobFaults = s.jobFaults := rfl
@[simp] theorem threads_upd_unitLast (s : State) (k : Nat) (v : Thread) : (applyUpd (.threads k v) s).unitLast = s.unitLast := rfl
@[simp] theorem threads_upd_unitRst (s : State) (k : Nat) (v : Thread) : (applyUpd (.threads k v) s).unitRst = s.unitRst := rfl
@[simp] theorem threads_upd_xlink (s : State) (k : Nat) (v : Thread) : (applyUpd (.threads k v) s).xlink = s.xlink := rfl
@[simp] theorem threads_upd_trace (s : State) (k : Nat) (v : Thread) : (applyUpd (.threads k v) s).trace = s.trace := rfl
@[simp] theorem threads_upd_progs (s : State) (k : Nat) (v : Thread) : (applyUpd (.threads k v) s).progs = s.progs := rfl
@[simp] theorem threads_upd_rails (s : State) (k : Nat) (v : Thread) : (applyUpd (.threads k v) s).rails = s.rails := rfl
@[simp] theorem threads_upd_thm (s : State) (k : Nat) (v : Thread) : (applyUpd (.threads k v) s).thm = s.thm := rfl
@[simp] theorem threads_upd_bnd (s : State) (k : Nat) (v : Thread) : (applyUpd (.threads k v) s).bnd = s.bnd := rfl
@[simp] theorem threads_upd_thmTrip (s : State) (k : Nat) (v : Thread) : (applyUpd (.threads k v) s).thmTrip = s.thmTrip := rfl
@[simp] theorem threads_upd_flash (s : State) (k : Nat) (v : Thread) : (applyUpd (.threads k v) s).flash = s.flash := rfl
@[simp] theorem threads_upd_slots (s : State) (k : Nat) (v : Thread) : (applyUpd (.threads k v) s).slots = s.slots := rfl
@[simp] theorem threads_upd_stores (s : State) (k : Nat) (v : Thread) : (applyUpd (.threads k v) s).stores = s.stores := rfl
@[simp] theorem threads_upd_ids (s : State) (k : Nat) (v : Thread) : (applyUpd (.threads k v) s).ids = s.ids := rfl
@[simp] theorem threads_upd_boot (s : State) (k : Nat) (v : Thread) : (applyUpd (.threads k v) s).boot = s.boot := rfl
@[simp] theorem threads_upd_load (s : State) (k : Nat) (v : Thread) : (applyUpd (.threads k v) s).load = s.load := rfl
@[simp] theorem threads_upd_flt (s : State) (k : Nat) (v : Thread) : (applyUpd (.threads k v) s).flt = s.flt := rfl
@[simp] theorem threads_upd_mon (s : State) (k : Nat) (v : Thread) : (applyUpd (.threads k v) s).mon = s.mon := rfl
@[simp] theorem cores_upd_pending (s : State) (k : Nat) (v : Core) : (applyUpd (.cores k v) s).pending = s.pending := rfl
@[simp] theorem cores_upd_regs (s : State) (k : Nat) (v : Core) : (applyUpd (.cores k v) s).regs = s.regs := rfl
@[simp] theorem cores_upd_mem (s : State) (k : Nat) (v : Core) : (applyUpd (.cores k v) s).mem = s.mem := rfl
@[simp] theorem cores_upd_sram (s : State) (k : Nat) (v : Core) : (applyUpd (.cores k v) s).sram = s.sram := rfl
@[simp] theorem cores_upd_time (s : State) (k : Nat) (v : Core) : (applyUpd (.cores k v) s).time = s.time := rfl
@[simp] theorem cores_upd_timeFrac (s : State) (k : Nat) (v : Core) : (applyUpd (.cores k v) s).timeFrac = s.timeFrac := rfl
@[simp] theorem cores_upd_freeCtr (s : State) (k : Nat) (v : Core) : (applyUpd (.cores k v) s).freeCtr = s.freeCtr := rfl
@[simp] theorem cores_upd_hiLatch (s : State) (k : Nat) (v : Core) : (applyUpd (.cores k v) s).hiLatch = s.hiLatch := rfl
@[simp] theorem cores_upd_timeSet (s : State) (k : Nat) (v : Core) : (applyUpd (.cores k v) s).timeSet = s.timeSet := rfl
@[simp] theorem cores_upd_n0 (s : State) (k : Nat) (v : Core) : (applyUpd (.cores k v) s).n0 = s.n0 := rfl
@[simp] theorem cores_upd_ticked (s : State) (k : Nat) (v : Core) : (applyUpd (.cores k v) s).ticked = s.ticked := rfl
@[simp] theorem cores_upd_peerTickAt (s : State) (k : Nat) (v : Core) : (applyUpd (.cores k v) s).peerTickAt = s.peerTickAt := rfl
@[simp] theorem cores_upd_guardPitch (s : State) (k : Nat) (v : Core) : (applyUpd (.cores k v) s).guardPitch = s.guardPitch := rfl
@[simp] theorem cores_upd_diePitch (s : State) (k : Nat) (v : Core) : (applyUpd (.cores k v) s).diePitch = s.diePitch := rfl
@[simp] theorem cores_upd_resps (s : State) (k : Nat) (v : Core) : (applyUpd (.cores k v) s).resps = s.resps := rfl
@[simp] theorem cores_upd_txns (s : State) (k : Nat) (v : Core) : (applyUpd (.cores k v) s).txns = s.txns := rfl
@[simp] theorem cores_upd_nextTag (s : State) (k : Nat) (v : Core) : (applyUpd (.cores k v) s).nextTag = s.nextTag := rfl
@[simp] theorem cores_upd_lateTags (s : State) (k : Nat) (v : Core) : (applyUpd (.cores k v) s).lateTags = s.lateTags := rfl
@[simp] theorem cores_upd_ports (s : State) (k : Nat) (v : Core) : (applyUpd (.cores k v) s).ports = s.ports := rfl
@[simp] theorem cores_upd_threads (s : State) (k : Nat) (v : Core) : (applyUpd (.cores k v) s).threads = s.threads := rfl
@[simp] theorem cores_upd_cores (s : State) (k : Nat) (v : Core) : (applyUpd (.cores k v) s).cores = tabSet coreDefault s.cores k v := rfl
@[simp] theorem cores_upd_engines (s : State) (k : Nat) (v : Core) : (applyUpd (.cores k v) s).engines = s.engines := rfl
@[simp] theorem cores_upd_held (s : State) (k : Nat) (v : Core) : (applyUpd (.cores k v) s).held = s.held := rfl
@[simp] theorem cores_upd_watches (s : State) (k : Nat) (v : Core) : (applyUpd (.cores k v) s).watches = s.watches := rfl
@[simp] theorem cores_upd_watchMsgs (s : State) (k : Nat) (v : Core) : (applyUpd (.cores k v) s).watchMsgs = s.watchMsgs := rfl
@[simp] theorem cores_upd_bankHeld (s : State) (k : Nat) (v : Core) : (applyUpd (.cores k v) s).bankHeld = s.bankHeld := rfl
@[simp] theorem cores_upd_bankTarget (s : State) (k : Nat) (v : Core) : (applyUpd (.cores k v) s).bankTarget = s.bankTarget := rfl
@[simp] theorem cores_upd_ecc (s : State) (k : Nat) (v : Core) : (applyUpd (.cores k v) s).ecc = s.ecc := rfl
@[simp] theorem cores_upd_lineEcc (s : State) (k : Nat) (v : Core) : (applyUpd (.cores k v) s).lineEcc = s.lineEcc := rfl
@[simp] theorem cores_upd_wbPending (s : State) (k : Nat) (v : Core) : (applyUpd (.cores k v) s).wbPending = s.wbPending := rfl
@[simp] theorem cores_upd_scrubPos (s : State) (k : Nat) (v : Core) : (applyUpd (.cores k v) s).scrubPos = s.scrubPos := rfl
@[simp] theorem cores_upd_refusals (s : State) (k : Nat) (v : Core) : (applyUpd (.cores k v) s).refusals = s.refusals := rfl
@[simp] theorem cores_upd_firstRefusal (s : State) (k : Nat) (v : Core) : (applyUpd (.cores k v) s).firstRefusal = s.firstRefusal := rfl
@[simp] theorem cores_upd_boxQueue (s : State) (k : Nat) (v : Core) : (applyUpd (.cores k v) s).boxQueue = s.boxQueue := rfl
@[simp] theorem cores_upd_boxRun (s : State) (k : Nat) (v : Core) : (applyUpd (.cores k v) s).boxRun = s.boxRun := rfl
@[simp] theorem cores_upd_kvs (s : State) (k : Nat) (v : Core) : (applyUpd (.cores k v) s).kvs = s.kvs := rfl
@[simp] theorem cores_upd_parts (s : State) (k : Nat) (v : Core) : (applyUpd (.cores k v) s).parts = s.parts := rfl
@[simp] theorem cores_upd_dmas (s : State) (k : Nat) (v : Core) : (applyUpd (.cores k v) s).dmas = s.dmas := rfl
@[simp] theorem cores_upd_regReqs (s : State) (k : Nat) (v : Core) : (applyUpd (.cores k v) s).regReqs = s.regReqs := rfl
@[simp] theorem cores_upd_regPorts (s : State) (k : Nat) (v : Core) : (applyUpd (.cores k v) s).regPorts = s.regPorts := rfl
@[simp] theorem cores_upd_subchs (s : State) (k : Nat) (v : Core) : (applyUpd (.cores k v) s).subchs = s.subchs := rfl
@[simp] theorem cores_upd_trackers (s : State) (k : Nat) (v : Core) : (applyUpd (.cores k v) s).trackers = s.trackers := rfl
@[simp] theorem cores_upd_throttles (s : State) (k : Nat) (v : Core) : (applyUpd (.cores k v) s).throttles = s.throttles := rfl
@[simp] theorem cores_upd_errRing (s : State) (k : Nat) (v : Core) : (applyUpd (.cores k v) s).errRing = s.errRing := rfl
@[simp] theorem cores_upd_errRingOvf (s : State) (k : Nat) (v : Core) : (applyUpd (.cores k v) s).errRingOvf = s.errRingOvf := rfl
@[simp] theorem cores_upd_patrolLine (s : State) (k : Nat) (v : Core) : (applyUpd (.cores k v) s).patrolLine = s.patrolLine := rfl
@[simp] theorem cores_upd_retTimes (s : State) (k : Nat) (v : Core) : (applyUpd (.cores k v) s).retTimes = s.retTimes := rfl
@[simp] theorem cores_upd_retired (s : State) (k : Nat) (v : Core) : (applyUpd (.cores k v) s).retired = s.retired := rfl
@[simp] theorem cores_upd_dramSeq (s : State) (k : Nat) (v : Core) : (applyUpd (.cores k v) s).dramSeq = s.dramSeq := rfl
@[simp] theorem cores_upd_trn (s : State) (k : Nat) (v : Core) : (applyUpd (.cores k v) s).trn = s.trn := rfl
@[simp] theorem cores_upd_dqsAdj (s : State) (k : Nat) (v : Core) : (applyUpd (.cores k v) s).dqsAdj = s.dqsAdj := rfl
@[simp] theorem cores_upd_dpol (s : State) (k : Nat) (v : Core) : (applyUpd (.cores k v) s).dpol = s.dpol := rfl
@[simp] theorem cores_upd_idleAt (s : State) (k : Nat) (v : Core) : (applyUpd (.cores k v) s).idleAt = s.idleAt := rfl
@[simp] theorem cores_upd_fitted (s : State) (k : Nat) (v : Core) : (applyUpd (.cores k v) s).fitted = s.fitted := rfl
@[simp] theorem cores_upd_faultMsgs (s : State) (k : Nat) (v : Core) : (applyUpd (.cores k v) s).faultMsgs = s.faultMsgs := rfl
@[simp] theorem cores_upd_out (s : State) (k : Nat) (v : Core) : (applyUpd (.cores k v) s).out = s.out := rfl
@[simp] theorem cores_upd_lastRead (s : State) (k : Nat) (v : Core) : (applyUpd (.cores k v) s).lastRead = s.lastRead := rfl
@[simp] theorem cores_upd_fwd (s : State) (k : Nat) (v : Core) : (applyUpd (.cores k v) s).fwd = s.fwd := rfl
@[simp] theorem cores_upd_ethTx (s : State) (k : Nat) (v : Core) : (applyUpd (.cores k v) s).ethTx = s.ethTx := rfl
@[simp] theorem cores_upd_ethHeadAt (s : State) (k : Nat) (v : Core) : (applyUpd (.cores k v) s).ethHeadAt = s.ethHeadAt := rfl
@[simp] theorem cores_upd_canTx (s : State) (k : Nat) (v : Core) : (applyUpd (.cores k v) s).canTx = s.canTx := rfl
@[simp] theorem cores_upd_pcieOut (s : State) (k : Nat) (v : Core) : (applyUpd (.cores k v) s).pcieOut = s.pcieOut := rfl
@[simp] theorem cores_upd_pcieCfgRd (s : State) (k : Nat) (v : Core) : (applyUpd (.cores k v) s).pcieCfgRd = s.pcieCfgRd := rfl
@[simp] theorem cores_upd_msix (s : State) (k : Nat) (v : Core) : (applyUpd (.cores k v) s).msix = s.msix := rfl
@[simp] theorem cores_upd_ancs (s : State) (k : Nat) (v : Core) : (applyUpd (.cores k v) s).ancs = s.ancs := rfl
@[simp] theorem cores_upd_trajArea (s : State) (k : Nat) (v : Core) : (applyUpd (.cores k v) s).trajArea = s.trajArea := rfl
@[simp] theorem cores_upd_lidarIn (s : State) (k : Nat) (v : Core) : (applyUpd (.cores k v) s).lidarIn = s.lidarIn := rfl
@[simp] theorem cores_upd_wheelIn (s : State) (k : Nat) (v : Core) : (applyUpd (.cores k v) s).wheelIn = s.wheelIn := rfl
@[simp] theorem cores_upd_spiStepBusy (s : State) (k : Nat) (v : Core) : (applyUpd (.cores k v) s).spiStepBusy = s.spiStepBusy := rfl
@[simp] theorem cores_upd_spiRec (s : State) (k : Nat) (v : Core) : (applyUpd (.cores k v) s).spiRec = s.spiRec := rfl
@[simp] theorem cores_upd_spiStepCfg (s : State) (k : Nat) (v : Core) : (applyUpd (.cores k v) s).spiStepCfg = s.spiStepCfg := rfl
@[simp] theorem cores_upd_ctxs (s : State) (k : Nat) (v : Core) : (applyUpd (.cores k v) s).ctxs = s.ctxs := rfl
@[simp] theorem cores_upd_fsyOmit (s : State) (k : Nat) (v : Core) : (applyUpd (.cores k v) s).fsyOmit = s.fsyOmit := rfl
@[simp] theorem cores_upd_fsyPulsed (s : State) (k : Nat) (v : Core) : (applyUpd (.cores k v) s).fsyPulsed = s.fsyPulsed := rfl
@[simp] theorem cores_upd_supTasks (s : State) (k : Nat) (v : Core) : (applyUpd (.cores k v) s).supTasks = s.supTasks := rfl
@[simp] theorem cores_upd_fus (s : State) (k : Nat) (v : Core) : (applyUpd (.cores k v) s).fus = s.fus := rfl
@[simp] theorem cores_upd_fcons (s : State) (k : Nat) (v : Core) : (applyUpd (.cores k v) s).fcons = s.fcons := rfl
@[simp] theorem cores_upd_shadow (s : State) (k : Nat) (v : Core) : (applyUpd (.cores k v) s).shadow = s.shadow := rfl
@[simp] theorem cores_upd_trv (s : State) (k : Nat) (v : Core) : (applyUpd (.cores k v) s).trv = s.trv := rfl
@[simp] theorem cores_upd_tlayers (s : State) (k : Nat) (v : Core) : (applyUpd (.cores k v) s).tlayers = s.tlayers := rfl
@[simp] theorem cores_upd_jobFaults (s : State) (k : Nat) (v : Core) : (applyUpd (.cores k v) s).jobFaults = s.jobFaults := rfl
@[simp] theorem cores_upd_unitLast (s : State) (k : Nat) (v : Core) : (applyUpd (.cores k v) s).unitLast = s.unitLast := rfl
@[simp] theorem cores_upd_unitRst (s : State) (k : Nat) (v : Core) : (applyUpd (.cores k v) s).unitRst = s.unitRst := rfl
@[simp] theorem cores_upd_xlink (s : State) (k : Nat) (v : Core) : (applyUpd (.cores k v) s).xlink = s.xlink := rfl
@[simp] theorem cores_upd_trace (s : State) (k : Nat) (v : Core) : (applyUpd (.cores k v) s).trace = s.trace := rfl
@[simp] theorem cores_upd_progs (s : State) (k : Nat) (v : Core) : (applyUpd (.cores k v) s).progs = s.progs := rfl
@[simp] theorem cores_upd_rails (s : State) (k : Nat) (v : Core) : (applyUpd (.cores k v) s).rails = s.rails := rfl
@[simp] theorem cores_upd_thm (s : State) (k : Nat) (v : Core) : (applyUpd (.cores k v) s).thm = s.thm := rfl
@[simp] theorem cores_upd_bnd (s : State) (k : Nat) (v : Core) : (applyUpd (.cores k v) s).bnd = s.bnd := rfl
@[simp] theorem cores_upd_thmTrip (s : State) (k : Nat) (v : Core) : (applyUpd (.cores k v) s).thmTrip = s.thmTrip := rfl
@[simp] theorem cores_upd_flash (s : State) (k : Nat) (v : Core) : (applyUpd (.cores k v) s).flash = s.flash := rfl
@[simp] theorem cores_upd_slots (s : State) (k : Nat) (v : Core) : (applyUpd (.cores k v) s).slots = s.slots := rfl
@[simp] theorem cores_upd_stores (s : State) (k : Nat) (v : Core) : (applyUpd (.cores k v) s).stores = s.stores := rfl
@[simp] theorem cores_upd_ids (s : State) (k : Nat) (v : Core) : (applyUpd (.cores k v) s).ids = s.ids := rfl
@[simp] theorem cores_upd_boot (s : State) (k : Nat) (v : Core) : (applyUpd (.cores k v) s).boot = s.boot := rfl
@[simp] theorem cores_upd_load (s : State) (k : Nat) (v : Core) : (applyUpd (.cores k v) s).load = s.load := rfl
@[simp] theorem cores_upd_flt (s : State) (k : Nat) (v : Core) : (applyUpd (.cores k v) s).flt = s.flt := rfl
@[simp] theorem cores_upd_mon (s : State) (k : Nat) (v : Core) : (applyUpd (.cores k v) s).mon = s.mon := rfl
@[simp] theorem engines_upd_pending (s : State) (k : Nat) (v : Engine) : (applyUpd (.engines k v) s).pending = s.pending := rfl
@[simp] theorem engines_upd_regs (s : State) (k : Nat) (v : Engine) : (applyUpd (.engines k v) s).regs = s.regs := rfl
@[simp] theorem engines_upd_mem (s : State) (k : Nat) (v : Engine) : (applyUpd (.engines k v) s).mem = s.mem := rfl
@[simp] theorem engines_upd_sram (s : State) (k : Nat) (v : Engine) : (applyUpd (.engines k v) s).sram = s.sram := rfl
@[simp] theorem engines_upd_time (s : State) (k : Nat) (v : Engine) : (applyUpd (.engines k v) s).time = s.time := rfl
@[simp] theorem engines_upd_timeFrac (s : State) (k : Nat) (v : Engine) : (applyUpd (.engines k v) s).timeFrac = s.timeFrac := rfl
@[simp] theorem engines_upd_freeCtr (s : State) (k : Nat) (v : Engine) : (applyUpd (.engines k v) s).freeCtr = s.freeCtr := rfl
@[simp] theorem engines_upd_hiLatch (s : State) (k : Nat) (v : Engine) : (applyUpd (.engines k v) s).hiLatch = s.hiLatch := rfl
@[simp] theorem engines_upd_timeSet (s : State) (k : Nat) (v : Engine) : (applyUpd (.engines k v) s).timeSet = s.timeSet := rfl
@[simp] theorem engines_upd_n0 (s : State) (k : Nat) (v : Engine) : (applyUpd (.engines k v) s).n0 = s.n0 := rfl
@[simp] theorem engines_upd_ticked (s : State) (k : Nat) (v : Engine) : (applyUpd (.engines k v) s).ticked = s.ticked := rfl
@[simp] theorem engines_upd_peerTickAt (s : State) (k : Nat) (v : Engine) : (applyUpd (.engines k v) s).peerTickAt = s.peerTickAt := rfl
@[simp] theorem engines_upd_guardPitch (s : State) (k : Nat) (v : Engine) : (applyUpd (.engines k v) s).guardPitch = s.guardPitch := rfl
@[simp] theorem engines_upd_diePitch (s : State) (k : Nat) (v : Engine) : (applyUpd (.engines k v) s).diePitch = s.diePitch := rfl
@[simp] theorem engines_upd_resps (s : State) (k : Nat) (v : Engine) : (applyUpd (.engines k v) s).resps = s.resps := rfl
@[simp] theorem engines_upd_txns (s : State) (k : Nat) (v : Engine) : (applyUpd (.engines k v) s).txns = s.txns := rfl
@[simp] theorem engines_upd_nextTag (s : State) (k : Nat) (v : Engine) : (applyUpd (.engines k v) s).nextTag = s.nextTag := rfl
@[simp] theorem engines_upd_lateTags (s : State) (k : Nat) (v : Engine) : (applyUpd (.engines k v) s).lateTags = s.lateTags := rfl
@[simp] theorem engines_upd_ports (s : State) (k : Nat) (v : Engine) : (applyUpd (.engines k v) s).ports = s.ports := rfl
@[simp] theorem engines_upd_threads (s : State) (k : Nat) (v : Engine) : (applyUpd (.engines k v) s).threads = s.threads := rfl
@[simp] theorem engines_upd_cores (s : State) (k : Nat) (v : Engine) : (applyUpd (.engines k v) s).cores = s.cores := rfl
@[simp] theorem engines_upd_engines (s : State) (k : Nat) (v : Engine) : (applyUpd (.engines k v) s).engines = tabSet engineDefault s.engines k v := rfl
@[simp] theorem engines_upd_held (s : State) (k : Nat) (v : Engine) : (applyUpd (.engines k v) s).held = s.held := rfl
@[simp] theorem engines_upd_watches (s : State) (k : Nat) (v : Engine) : (applyUpd (.engines k v) s).watches = s.watches := rfl
@[simp] theorem engines_upd_watchMsgs (s : State) (k : Nat) (v : Engine) : (applyUpd (.engines k v) s).watchMsgs = s.watchMsgs := rfl
@[simp] theorem engines_upd_bankHeld (s : State) (k : Nat) (v : Engine) : (applyUpd (.engines k v) s).bankHeld = s.bankHeld := rfl
@[simp] theorem engines_upd_bankTarget (s : State) (k : Nat) (v : Engine) : (applyUpd (.engines k v) s).bankTarget = s.bankTarget := rfl
@[simp] theorem engines_upd_ecc (s : State) (k : Nat) (v : Engine) : (applyUpd (.engines k v) s).ecc = s.ecc := rfl
@[simp] theorem engines_upd_lineEcc (s : State) (k : Nat) (v : Engine) : (applyUpd (.engines k v) s).lineEcc = s.lineEcc := rfl
@[simp] theorem engines_upd_wbPending (s : State) (k : Nat) (v : Engine) : (applyUpd (.engines k v) s).wbPending = s.wbPending := rfl
@[simp] theorem engines_upd_scrubPos (s : State) (k : Nat) (v : Engine) : (applyUpd (.engines k v) s).scrubPos = s.scrubPos := rfl
@[simp] theorem engines_upd_refusals (s : State) (k : Nat) (v : Engine) : (applyUpd (.engines k v) s).refusals = s.refusals := rfl
@[simp] theorem engines_upd_firstRefusal (s : State) (k : Nat) (v : Engine) : (applyUpd (.engines k v) s).firstRefusal = s.firstRefusal := rfl
@[simp] theorem engines_upd_boxQueue (s : State) (k : Nat) (v : Engine) : (applyUpd (.engines k v) s).boxQueue = s.boxQueue := rfl
@[simp] theorem engines_upd_boxRun (s : State) (k : Nat) (v : Engine) : (applyUpd (.engines k v) s).boxRun = s.boxRun := rfl
@[simp] theorem engines_upd_kvs (s : State) (k : Nat) (v : Engine) : (applyUpd (.engines k v) s).kvs = s.kvs := rfl
@[simp] theorem engines_upd_parts (s : State) (k : Nat) (v : Engine) : (applyUpd (.engines k v) s).parts = s.parts := rfl
@[simp] theorem engines_upd_dmas (s : State) (k : Nat) (v : Engine) : (applyUpd (.engines k v) s).dmas = s.dmas := rfl
@[simp] theorem engines_upd_regReqs (s : State) (k : Nat) (v : Engine) : (applyUpd (.engines k v) s).regReqs = s.regReqs := rfl
@[simp] theorem engines_upd_regPorts (s : State) (k : Nat) (v : Engine) : (applyUpd (.engines k v) s).regPorts = s.regPorts := rfl
@[simp] theorem engines_upd_subchs (s : State) (k : Nat) (v : Engine) : (applyUpd (.engines k v) s).subchs = s.subchs := rfl
@[simp] theorem engines_upd_trackers (s : State) (k : Nat) (v : Engine) : (applyUpd (.engines k v) s).trackers = s.trackers := rfl
@[simp] theorem engines_upd_throttles (s : State) (k : Nat) (v : Engine) : (applyUpd (.engines k v) s).throttles = s.throttles := rfl
@[simp] theorem engines_upd_errRing (s : State) (k : Nat) (v : Engine) : (applyUpd (.engines k v) s).errRing = s.errRing := rfl
@[simp] theorem engines_upd_errRingOvf (s : State) (k : Nat) (v : Engine) : (applyUpd (.engines k v) s).errRingOvf = s.errRingOvf := rfl
@[simp] theorem engines_upd_patrolLine (s : State) (k : Nat) (v : Engine) : (applyUpd (.engines k v) s).patrolLine = s.patrolLine := rfl
@[simp] theorem engines_upd_retTimes (s : State) (k : Nat) (v : Engine) : (applyUpd (.engines k v) s).retTimes = s.retTimes := rfl
@[simp] theorem engines_upd_retired (s : State) (k : Nat) (v : Engine) : (applyUpd (.engines k v) s).retired = s.retired := rfl
@[simp] theorem engines_upd_dramSeq (s : State) (k : Nat) (v : Engine) : (applyUpd (.engines k v) s).dramSeq = s.dramSeq := rfl
@[simp] theorem engines_upd_trn (s : State) (k : Nat) (v : Engine) : (applyUpd (.engines k v) s).trn = s.trn := rfl
@[simp] theorem engines_upd_dqsAdj (s : State) (k : Nat) (v : Engine) : (applyUpd (.engines k v) s).dqsAdj = s.dqsAdj := rfl
@[simp] theorem engines_upd_dpol (s : State) (k : Nat) (v : Engine) : (applyUpd (.engines k v) s).dpol = s.dpol := rfl
@[simp] theorem engines_upd_idleAt (s : State) (k : Nat) (v : Engine) : (applyUpd (.engines k v) s).idleAt = s.idleAt := rfl
@[simp] theorem engines_upd_fitted (s : State) (k : Nat) (v : Engine) : (applyUpd (.engines k v) s).fitted = s.fitted := rfl
@[simp] theorem engines_upd_faultMsgs (s : State) (k : Nat) (v : Engine) : (applyUpd (.engines k v) s).faultMsgs = s.faultMsgs := rfl
@[simp] theorem engines_upd_out (s : State) (k : Nat) (v : Engine) : (applyUpd (.engines k v) s).out = s.out := rfl
@[simp] theorem engines_upd_lastRead (s : State) (k : Nat) (v : Engine) : (applyUpd (.engines k v) s).lastRead = s.lastRead := rfl
@[simp] theorem engines_upd_fwd (s : State) (k : Nat) (v : Engine) : (applyUpd (.engines k v) s).fwd = s.fwd := rfl
@[simp] theorem engines_upd_ethTx (s : State) (k : Nat) (v : Engine) : (applyUpd (.engines k v) s).ethTx = s.ethTx := rfl
@[simp] theorem engines_upd_ethHeadAt (s : State) (k : Nat) (v : Engine) : (applyUpd (.engines k v) s).ethHeadAt = s.ethHeadAt := rfl
@[simp] theorem engines_upd_canTx (s : State) (k : Nat) (v : Engine) : (applyUpd (.engines k v) s).canTx = s.canTx := rfl
@[simp] theorem engines_upd_pcieOut (s : State) (k : Nat) (v : Engine) : (applyUpd (.engines k v) s).pcieOut = s.pcieOut := rfl
@[simp] theorem engines_upd_pcieCfgRd (s : State) (k : Nat) (v : Engine) : (applyUpd (.engines k v) s).pcieCfgRd = s.pcieCfgRd := rfl
@[simp] theorem engines_upd_msix (s : State) (k : Nat) (v : Engine) : (applyUpd (.engines k v) s).msix = s.msix := rfl
@[simp] theorem engines_upd_ancs (s : State) (k : Nat) (v : Engine) : (applyUpd (.engines k v) s).ancs = s.ancs := rfl
@[simp] theorem engines_upd_trajArea (s : State) (k : Nat) (v : Engine) : (applyUpd (.engines k v) s).trajArea = s.trajArea := rfl
@[simp] theorem engines_upd_lidarIn (s : State) (k : Nat) (v : Engine) : (applyUpd (.engines k v) s).lidarIn = s.lidarIn := rfl
@[simp] theorem engines_upd_wheelIn (s : State) (k : Nat) (v : Engine) : (applyUpd (.engines k v) s).wheelIn = s.wheelIn := rfl
@[simp] theorem engines_upd_spiStepBusy (s : State) (k : Nat) (v : Engine) : (applyUpd (.engines k v) s).spiStepBusy = s.spiStepBusy := rfl
@[simp] theorem engines_upd_spiRec (s : State) (k : Nat) (v : Engine) : (applyUpd (.engines k v) s).spiRec = s.spiRec := rfl
@[simp] theorem engines_upd_spiStepCfg (s : State) (k : Nat) (v : Engine) : (applyUpd (.engines k v) s).spiStepCfg = s.spiStepCfg := rfl
@[simp] theorem engines_upd_ctxs (s : State) (k : Nat) (v : Engine) : (applyUpd (.engines k v) s).ctxs = s.ctxs := rfl
@[simp] theorem engines_upd_fsyOmit (s : State) (k : Nat) (v : Engine) : (applyUpd (.engines k v) s).fsyOmit = s.fsyOmit := rfl
@[simp] theorem engines_upd_fsyPulsed (s : State) (k : Nat) (v : Engine) : (applyUpd (.engines k v) s).fsyPulsed = s.fsyPulsed := rfl
@[simp] theorem engines_upd_supTasks (s : State) (k : Nat) (v : Engine) : (applyUpd (.engines k v) s).supTasks = s.supTasks := rfl
@[simp] theorem engines_upd_fus (s : State) (k : Nat) (v : Engine) : (applyUpd (.engines k v) s).fus = s.fus := rfl
@[simp] theorem engines_upd_fcons (s : State) (k : Nat) (v : Engine) : (applyUpd (.engines k v) s).fcons = s.fcons := rfl
@[simp] theorem engines_upd_shadow (s : State) (k : Nat) (v : Engine) : (applyUpd (.engines k v) s).shadow = s.shadow := rfl
@[simp] theorem engines_upd_trv (s : State) (k : Nat) (v : Engine) : (applyUpd (.engines k v) s).trv = s.trv := rfl
@[simp] theorem engines_upd_tlayers (s : State) (k : Nat) (v : Engine) : (applyUpd (.engines k v) s).tlayers = s.tlayers := rfl
@[simp] theorem engines_upd_jobFaults (s : State) (k : Nat) (v : Engine) : (applyUpd (.engines k v) s).jobFaults = s.jobFaults := rfl
@[simp] theorem engines_upd_unitLast (s : State) (k : Nat) (v : Engine) : (applyUpd (.engines k v) s).unitLast = s.unitLast := rfl
@[simp] theorem engines_upd_unitRst (s : State) (k : Nat) (v : Engine) : (applyUpd (.engines k v) s).unitRst = s.unitRst := rfl
@[simp] theorem engines_upd_xlink (s : State) (k : Nat) (v : Engine) : (applyUpd (.engines k v) s).xlink = s.xlink := rfl
@[simp] theorem engines_upd_trace (s : State) (k : Nat) (v : Engine) : (applyUpd (.engines k v) s).trace = s.trace := rfl
@[simp] theorem engines_upd_progs (s : State) (k : Nat) (v : Engine) : (applyUpd (.engines k v) s).progs = s.progs := rfl
@[simp] theorem engines_upd_rails (s : State) (k : Nat) (v : Engine) : (applyUpd (.engines k v) s).rails = s.rails := rfl
@[simp] theorem engines_upd_thm (s : State) (k : Nat) (v : Engine) : (applyUpd (.engines k v) s).thm = s.thm := rfl
@[simp] theorem engines_upd_bnd (s : State) (k : Nat) (v : Engine) : (applyUpd (.engines k v) s).bnd = s.bnd := rfl
@[simp] theorem engines_upd_thmTrip (s : State) (k : Nat) (v : Engine) : (applyUpd (.engines k v) s).thmTrip = s.thmTrip := rfl
@[simp] theorem engines_upd_flash (s : State) (k : Nat) (v : Engine) : (applyUpd (.engines k v) s).flash = s.flash := rfl
@[simp] theorem engines_upd_slots (s : State) (k : Nat) (v : Engine) : (applyUpd (.engines k v) s).slots = s.slots := rfl
@[simp] theorem engines_upd_stores (s : State) (k : Nat) (v : Engine) : (applyUpd (.engines k v) s).stores = s.stores := rfl
@[simp] theorem engines_upd_ids (s : State) (k : Nat) (v : Engine) : (applyUpd (.engines k v) s).ids = s.ids := rfl
@[simp] theorem engines_upd_boot (s : State) (k : Nat) (v : Engine) : (applyUpd (.engines k v) s).boot = s.boot := rfl
@[simp] theorem engines_upd_load (s : State) (k : Nat) (v : Engine) : (applyUpd (.engines k v) s).load = s.load := rfl
@[simp] theorem engines_upd_flt (s : State) (k : Nat) (v : Engine) : (applyUpd (.engines k v) s).flt = s.flt := rfl
@[simp] theorem engines_upd_mon (s : State) (k : Nat) (v : Engine) : (applyUpd (.engines k v) s).mon = s.mon := rfl
@[simp] theorem held_upd_pending (s : State) (v : List (ReqOp × Req)) : (applyUpd (.held v) s).pending = s.pending := rfl
@[simp] theorem held_upd_regs (s : State) (v : List (ReqOp × Req)) : (applyUpd (.held v) s).regs = s.regs := rfl
@[simp] theorem held_upd_mem (s : State) (v : List (ReqOp × Req)) : (applyUpd (.held v) s).mem = s.mem := rfl
@[simp] theorem held_upd_sram (s : State) (v : List (ReqOp × Req)) : (applyUpd (.held v) s).sram = s.sram := rfl
@[simp] theorem held_upd_time (s : State) (v : List (ReqOp × Req)) : (applyUpd (.held v) s).time = s.time := rfl
@[simp] theorem held_upd_timeFrac (s : State) (v : List (ReqOp × Req)) : (applyUpd (.held v) s).timeFrac = s.timeFrac := rfl
@[simp] theorem held_upd_freeCtr (s : State) (v : List (ReqOp × Req)) : (applyUpd (.held v) s).freeCtr = s.freeCtr := rfl
@[simp] theorem held_upd_hiLatch (s : State) (v : List (ReqOp × Req)) : (applyUpd (.held v) s).hiLatch = s.hiLatch := rfl
@[simp] theorem held_upd_timeSet (s : State) (v : List (ReqOp × Req)) : (applyUpd (.held v) s).timeSet = s.timeSet := rfl
@[simp] theorem held_upd_n0 (s : State) (v : List (ReqOp × Req)) : (applyUpd (.held v) s).n0 = s.n0 := rfl
@[simp] theorem held_upd_ticked (s : State) (v : List (ReqOp × Req)) : (applyUpd (.held v) s).ticked = s.ticked := rfl
@[simp] theorem held_upd_peerTickAt (s : State) (v : List (ReqOp × Req)) : (applyUpd (.held v) s).peerTickAt = s.peerTickAt := rfl
@[simp] theorem held_upd_guardPitch (s : State) (v : List (ReqOp × Req)) : (applyUpd (.held v) s).guardPitch = s.guardPitch := rfl
@[simp] theorem held_upd_diePitch (s : State) (v : List (ReqOp × Req)) : (applyUpd (.held v) s).diePitch = s.diePitch := rfl
@[simp] theorem held_upd_resps (s : State) (v : List (ReqOp × Req)) : (applyUpd (.held v) s).resps = s.resps := rfl
@[simp] theorem held_upd_txns (s : State) (v : List (ReqOp × Req)) : (applyUpd (.held v) s).txns = s.txns := rfl
@[simp] theorem held_upd_nextTag (s : State) (v : List (ReqOp × Req)) : (applyUpd (.held v) s).nextTag = s.nextTag := rfl
@[simp] theorem held_upd_lateTags (s : State) (v : List (ReqOp × Req)) : (applyUpd (.held v) s).lateTags = s.lateTags := rfl
@[simp] theorem held_upd_ports (s : State) (v : List (ReqOp × Req)) : (applyUpd (.held v) s).ports = s.ports := rfl
@[simp] theorem held_upd_threads (s : State) (v : List (ReqOp × Req)) : (applyUpd (.held v) s).threads = s.threads := rfl
@[simp] theorem held_upd_cores (s : State) (v : List (ReqOp × Req)) : (applyUpd (.held v) s).cores = s.cores := rfl
@[simp] theorem held_upd_engines (s : State) (v : List (ReqOp × Req)) : (applyUpd (.held v) s).engines = s.engines := rfl
@[simp] theorem held_upd_held (s : State) (v : List (ReqOp × Req)) : (applyUpd (.held v) s).held = v := rfl
@[simp] theorem held_upd_watches (s : State) (v : List (ReqOp × Req)) : (applyUpd (.held v) s).watches = s.watches := rfl
@[simp] theorem held_upd_watchMsgs (s : State) (v : List (ReqOp × Req)) : (applyUpd (.held v) s).watchMsgs = s.watchMsgs := rfl
@[simp] theorem held_upd_bankHeld (s : State) (v : List (ReqOp × Req)) : (applyUpd (.held v) s).bankHeld = s.bankHeld := rfl
@[simp] theorem held_upd_bankTarget (s : State) (v : List (ReqOp × Req)) : (applyUpd (.held v) s).bankTarget = s.bankTarget := rfl
@[simp] theorem held_upd_ecc (s : State) (v : List (ReqOp × Req)) : (applyUpd (.held v) s).ecc = s.ecc := rfl
@[simp] theorem held_upd_lineEcc (s : State) (v : List (ReqOp × Req)) : (applyUpd (.held v) s).lineEcc = s.lineEcc := rfl
@[simp] theorem held_upd_wbPending (s : State) (v : List (ReqOp × Req)) : (applyUpd (.held v) s).wbPending = s.wbPending := rfl
@[simp] theorem held_upd_scrubPos (s : State) (v : List (ReqOp × Req)) : (applyUpd (.held v) s).scrubPos = s.scrubPos := rfl
@[simp] theorem held_upd_refusals (s : State) (v : List (ReqOp × Req)) : (applyUpd (.held v) s).refusals = s.refusals := rfl
@[simp] theorem held_upd_firstRefusal (s : State) (v : List (ReqOp × Req)) : (applyUpd (.held v) s).firstRefusal = s.firstRefusal := rfl
@[simp] theorem held_upd_boxQueue (s : State) (v : List (ReqOp × Req)) : (applyUpd (.held v) s).boxQueue = s.boxQueue := rfl
@[simp] theorem held_upd_boxRun (s : State) (v : List (ReqOp × Req)) : (applyUpd (.held v) s).boxRun = s.boxRun := rfl
@[simp] theorem held_upd_kvs (s : State) (v : List (ReqOp × Req)) : (applyUpd (.held v) s).kvs = s.kvs := rfl
@[simp] theorem held_upd_parts (s : State) (v : List (ReqOp × Req)) : (applyUpd (.held v) s).parts = s.parts := rfl
@[simp] theorem held_upd_dmas (s : State) (v : List (ReqOp × Req)) : (applyUpd (.held v) s).dmas = s.dmas := rfl
@[simp] theorem held_upd_regReqs (s : State) (v : List (ReqOp × Req)) : (applyUpd (.held v) s).regReqs = s.regReqs := rfl
@[simp] theorem held_upd_regPorts (s : State) (v : List (ReqOp × Req)) : (applyUpd (.held v) s).regPorts = s.regPorts := rfl
@[simp] theorem held_upd_subchs (s : State) (v : List (ReqOp × Req)) : (applyUpd (.held v) s).subchs = s.subchs := rfl
@[simp] theorem held_upd_trackers (s : State) (v : List (ReqOp × Req)) : (applyUpd (.held v) s).trackers = s.trackers := rfl
@[simp] theorem held_upd_throttles (s : State) (v : List (ReqOp × Req)) : (applyUpd (.held v) s).throttles = s.throttles := rfl
@[simp] theorem held_upd_errRing (s : State) (v : List (ReqOp × Req)) : (applyUpd (.held v) s).errRing = s.errRing := rfl
@[simp] theorem held_upd_errRingOvf (s : State) (v : List (ReqOp × Req)) : (applyUpd (.held v) s).errRingOvf = s.errRingOvf := rfl
@[simp] theorem held_upd_patrolLine (s : State) (v : List (ReqOp × Req)) : (applyUpd (.held v) s).patrolLine = s.patrolLine := rfl
@[simp] theorem held_upd_retTimes (s : State) (v : List (ReqOp × Req)) : (applyUpd (.held v) s).retTimes = s.retTimes := rfl
@[simp] theorem held_upd_retired (s : State) (v : List (ReqOp × Req)) : (applyUpd (.held v) s).retired = s.retired := rfl
@[simp] theorem held_upd_dramSeq (s : State) (v : List (ReqOp × Req)) : (applyUpd (.held v) s).dramSeq = s.dramSeq := rfl
@[simp] theorem held_upd_trn (s : State) (v : List (ReqOp × Req)) : (applyUpd (.held v) s).trn = s.trn := rfl
@[simp] theorem held_upd_dqsAdj (s : State) (v : List (ReqOp × Req)) : (applyUpd (.held v) s).dqsAdj = s.dqsAdj := rfl
@[simp] theorem held_upd_dpol (s : State) (v : List (ReqOp × Req)) : (applyUpd (.held v) s).dpol = s.dpol := rfl
@[simp] theorem held_upd_idleAt (s : State) (v : List (ReqOp × Req)) : (applyUpd (.held v) s).idleAt = s.idleAt := rfl
@[simp] theorem held_upd_fitted (s : State) (v : List (ReqOp × Req)) : (applyUpd (.held v) s).fitted = s.fitted := rfl
@[simp] theorem held_upd_faultMsgs (s : State) (v : List (ReqOp × Req)) : (applyUpd (.held v) s).faultMsgs = s.faultMsgs := rfl
@[simp] theorem held_upd_out (s : State) (v : List (ReqOp × Req)) : (applyUpd (.held v) s).out = s.out := rfl
@[simp] theorem held_upd_lastRead (s : State) (v : List (ReqOp × Req)) : (applyUpd (.held v) s).lastRead = s.lastRead := rfl
@[simp] theorem held_upd_fwd (s : State) (v : List (ReqOp × Req)) : (applyUpd (.held v) s).fwd = s.fwd := rfl
@[simp] theorem held_upd_ethTx (s : State) (v : List (ReqOp × Req)) : (applyUpd (.held v) s).ethTx = s.ethTx := rfl
@[simp] theorem held_upd_ethHeadAt (s : State) (v : List (ReqOp × Req)) : (applyUpd (.held v) s).ethHeadAt = s.ethHeadAt := rfl
@[simp] theorem held_upd_canTx (s : State) (v : List (ReqOp × Req)) : (applyUpd (.held v) s).canTx = s.canTx := rfl
@[simp] theorem held_upd_pcieOut (s : State) (v : List (ReqOp × Req)) : (applyUpd (.held v) s).pcieOut = s.pcieOut := rfl
@[simp] theorem held_upd_pcieCfgRd (s : State) (v : List (ReqOp × Req)) : (applyUpd (.held v) s).pcieCfgRd = s.pcieCfgRd := rfl
@[simp] theorem held_upd_msix (s : State) (v : List (ReqOp × Req)) : (applyUpd (.held v) s).msix = s.msix := rfl
@[simp] theorem held_upd_ancs (s : State) (v : List (ReqOp × Req)) : (applyUpd (.held v) s).ancs = s.ancs := rfl
@[simp] theorem held_upd_trajArea (s : State) (v : List (ReqOp × Req)) : (applyUpd (.held v) s).trajArea = s.trajArea := rfl
@[simp] theorem held_upd_lidarIn (s : State) (v : List (ReqOp × Req)) : (applyUpd (.held v) s).lidarIn = s.lidarIn := rfl
@[simp] theorem held_upd_wheelIn (s : State) (v : List (ReqOp × Req)) : (applyUpd (.held v) s).wheelIn = s.wheelIn := rfl
@[simp] theorem held_upd_spiStepBusy (s : State) (v : List (ReqOp × Req)) : (applyUpd (.held v) s).spiStepBusy = s.spiStepBusy := rfl
@[simp] theorem held_upd_spiRec (s : State) (v : List (ReqOp × Req)) : (applyUpd (.held v) s).spiRec = s.spiRec := rfl
@[simp] theorem held_upd_spiStepCfg (s : State) (v : List (ReqOp × Req)) : (applyUpd (.held v) s).spiStepCfg = s.spiStepCfg := rfl
@[simp] theorem held_upd_ctxs (s : State) (v : List (ReqOp × Req)) : (applyUpd (.held v) s).ctxs = s.ctxs := rfl
@[simp] theorem held_upd_fsyOmit (s : State) (v : List (ReqOp × Req)) : (applyUpd (.held v) s).fsyOmit = s.fsyOmit := rfl
@[simp] theorem held_upd_fsyPulsed (s : State) (v : List (ReqOp × Req)) : (applyUpd (.held v) s).fsyPulsed = s.fsyPulsed := rfl
@[simp] theorem held_upd_supTasks (s : State) (v : List (ReqOp × Req)) : (applyUpd (.held v) s).supTasks = s.supTasks := rfl
@[simp] theorem held_upd_fus (s : State) (v : List (ReqOp × Req)) : (applyUpd (.held v) s).fus = s.fus := rfl
@[simp] theorem held_upd_fcons (s : State) (v : List (ReqOp × Req)) : (applyUpd (.held v) s).fcons = s.fcons := rfl
@[simp] theorem held_upd_shadow (s : State) (v : List (ReqOp × Req)) : (applyUpd (.held v) s).shadow = s.shadow := rfl
@[simp] theorem held_upd_trv (s : State) (v : List (ReqOp × Req)) : (applyUpd (.held v) s).trv = s.trv := rfl
@[simp] theorem held_upd_tlayers (s : State) (v : List (ReqOp × Req)) : (applyUpd (.held v) s).tlayers = s.tlayers := rfl
@[simp] theorem held_upd_jobFaults (s : State) (v : List (ReqOp × Req)) : (applyUpd (.held v) s).jobFaults = s.jobFaults := rfl
@[simp] theorem held_upd_unitLast (s : State) (v : List (ReqOp × Req)) : (applyUpd (.held v) s).unitLast = s.unitLast := rfl
@[simp] theorem held_upd_unitRst (s : State) (v : List (ReqOp × Req)) : (applyUpd (.held v) s).unitRst = s.unitRst := rfl
@[simp] theorem held_upd_xlink (s : State) (v : List (ReqOp × Req)) : (applyUpd (.held v) s).xlink = s.xlink := rfl
@[simp] theorem held_upd_trace (s : State) (v : List (ReqOp × Req)) : (applyUpd (.held v) s).trace = s.trace := rfl
@[simp] theorem held_upd_progs (s : State) (v : List (ReqOp × Req)) : (applyUpd (.held v) s).progs = s.progs := rfl
@[simp] theorem held_upd_rails (s : State) (v : List (ReqOp × Req)) : (applyUpd (.held v) s).rails = s.rails := rfl
@[simp] theorem held_upd_thm (s : State) (v : List (ReqOp × Req)) : (applyUpd (.held v) s).thm = s.thm := rfl
@[simp] theorem held_upd_bnd (s : State) (v : List (ReqOp × Req)) : (applyUpd (.held v) s).bnd = s.bnd := rfl
@[simp] theorem held_upd_thmTrip (s : State) (v : List (ReqOp × Req)) : (applyUpd (.held v) s).thmTrip = s.thmTrip := rfl
@[simp] theorem held_upd_flash (s : State) (v : List (ReqOp × Req)) : (applyUpd (.held v) s).flash = s.flash := rfl
@[simp] theorem held_upd_slots (s : State) (v : List (ReqOp × Req)) : (applyUpd (.held v) s).slots = s.slots := rfl
@[simp] theorem held_upd_stores (s : State) (v : List (ReqOp × Req)) : (applyUpd (.held v) s).stores = s.stores := rfl
@[simp] theorem held_upd_ids (s : State) (v : List (ReqOp × Req)) : (applyUpd (.held v) s).ids = s.ids := rfl
@[simp] theorem held_upd_boot (s : State) (v : List (ReqOp × Req)) : (applyUpd (.held v) s).boot = s.boot := rfl
@[simp] theorem held_upd_load (s : State) (v : List (ReqOp × Req)) : (applyUpd (.held v) s).load = s.load := rfl
@[simp] theorem held_upd_flt (s : State) (v : List (ReqOp × Req)) : (applyUpd (.held v) s).flt = s.flt := rfl
@[simp] theorem held_upd_mon (s : State) (v : List (ReqOp × Req)) : (applyUpd (.held v) s).mon = s.mon := rfl
@[simp] theorem watches_upd_pending (s : State) (k : Nat) (v : List Watch) : (applyUpd (.watches k v) s).pending = s.pending := rfl
@[simp] theorem watches_upd_regs (s : State) (k : Nat) (v : List Watch) : (applyUpd (.watches k v) s).regs = s.regs := rfl
@[simp] theorem watches_upd_mem (s : State) (k : Nat) (v : List Watch) : (applyUpd (.watches k v) s).mem = s.mem := rfl
@[simp] theorem watches_upd_sram (s : State) (k : Nat) (v : List Watch) : (applyUpd (.watches k v) s).sram = s.sram := rfl
@[simp] theorem watches_upd_time (s : State) (k : Nat) (v : List Watch) : (applyUpd (.watches k v) s).time = s.time := rfl
@[simp] theorem watches_upd_timeFrac (s : State) (k : Nat) (v : List Watch) : (applyUpd (.watches k v) s).timeFrac = s.timeFrac := rfl
@[simp] theorem watches_upd_freeCtr (s : State) (k : Nat) (v : List Watch) : (applyUpd (.watches k v) s).freeCtr = s.freeCtr := rfl
@[simp] theorem watches_upd_hiLatch (s : State) (k : Nat) (v : List Watch) : (applyUpd (.watches k v) s).hiLatch = s.hiLatch := rfl
@[simp] theorem watches_upd_timeSet (s : State) (k : Nat) (v : List Watch) : (applyUpd (.watches k v) s).timeSet = s.timeSet := rfl
@[simp] theorem watches_upd_n0 (s : State) (k : Nat) (v : List Watch) : (applyUpd (.watches k v) s).n0 = s.n0 := rfl
@[simp] theorem watches_upd_ticked (s : State) (k : Nat) (v : List Watch) : (applyUpd (.watches k v) s).ticked = s.ticked := rfl
@[simp] theorem watches_upd_peerTickAt (s : State) (k : Nat) (v : List Watch) : (applyUpd (.watches k v) s).peerTickAt = s.peerTickAt := rfl
@[simp] theorem watches_upd_guardPitch (s : State) (k : Nat) (v : List Watch) : (applyUpd (.watches k v) s).guardPitch = s.guardPitch := rfl
@[simp] theorem watches_upd_diePitch (s : State) (k : Nat) (v : List Watch) : (applyUpd (.watches k v) s).diePitch = s.diePitch := rfl
@[simp] theorem watches_upd_resps (s : State) (k : Nat) (v : List Watch) : (applyUpd (.watches k v) s).resps = s.resps := rfl
@[simp] theorem watches_upd_txns (s : State) (k : Nat) (v : List Watch) : (applyUpd (.watches k v) s).txns = s.txns := rfl
@[simp] theorem watches_upd_nextTag (s : State) (k : Nat) (v : List Watch) : (applyUpd (.watches k v) s).nextTag = s.nextTag := rfl
@[simp] theorem watches_upd_lateTags (s : State) (k : Nat) (v : List Watch) : (applyUpd (.watches k v) s).lateTags = s.lateTags := rfl
@[simp] theorem watches_upd_ports (s : State) (k : Nat) (v : List Watch) : (applyUpd (.watches k v) s).ports = s.ports := rfl
@[simp] theorem watches_upd_threads (s : State) (k : Nat) (v : List Watch) : (applyUpd (.watches k v) s).threads = s.threads := rfl
@[simp] theorem watches_upd_cores (s : State) (k : Nat) (v : List Watch) : (applyUpd (.watches k v) s).cores = s.cores := rfl
@[simp] theorem watches_upd_engines (s : State) (k : Nat) (v : List Watch) : (applyUpd (.watches k v) s).engines = s.engines := rfl
@[simp] theorem watches_upd_held (s : State) (k : Nat) (v : List Watch) : (applyUpd (.watches k v) s).held = s.held := rfl
@[simp] theorem watches_upd_watches (s : State) (k : Nat) (v : List Watch) : (applyUpd (.watches k v) s).watches = tabSet noWatch s.watches k v := rfl
@[simp] theorem watches_upd_watchMsgs (s : State) (k : Nat) (v : List Watch) : (applyUpd (.watches k v) s).watchMsgs = s.watchMsgs := rfl
@[simp] theorem watches_upd_bankHeld (s : State) (k : Nat) (v : List Watch) : (applyUpd (.watches k v) s).bankHeld = s.bankHeld := rfl
@[simp] theorem watches_upd_bankTarget (s : State) (k : Nat) (v : List Watch) : (applyUpd (.watches k v) s).bankTarget = s.bankTarget := rfl
@[simp] theorem watches_upd_ecc (s : State) (k : Nat) (v : List Watch) : (applyUpd (.watches k v) s).ecc = s.ecc := rfl
@[simp] theorem watches_upd_lineEcc (s : State) (k : Nat) (v : List Watch) : (applyUpd (.watches k v) s).lineEcc = s.lineEcc := rfl
@[simp] theorem watches_upd_wbPending (s : State) (k : Nat) (v : List Watch) : (applyUpd (.watches k v) s).wbPending = s.wbPending := rfl
@[simp] theorem watches_upd_scrubPos (s : State) (k : Nat) (v : List Watch) : (applyUpd (.watches k v) s).scrubPos = s.scrubPos := rfl
@[simp] theorem watches_upd_refusals (s : State) (k : Nat) (v : List Watch) : (applyUpd (.watches k v) s).refusals = s.refusals := rfl
@[simp] theorem watches_upd_firstRefusal (s : State) (k : Nat) (v : List Watch) : (applyUpd (.watches k v) s).firstRefusal = s.firstRefusal := rfl
@[simp] theorem watches_upd_boxQueue (s : State) (k : Nat) (v : List Watch) : (applyUpd (.watches k v) s).boxQueue = s.boxQueue := rfl
@[simp] theorem watches_upd_boxRun (s : State) (k : Nat) (v : List Watch) : (applyUpd (.watches k v) s).boxRun = s.boxRun := rfl
@[simp] theorem watches_upd_kvs (s : State) (k : Nat) (v : List Watch) : (applyUpd (.watches k v) s).kvs = s.kvs := rfl
@[simp] theorem watches_upd_parts (s : State) (k : Nat) (v : List Watch) : (applyUpd (.watches k v) s).parts = s.parts := rfl
@[simp] theorem watches_upd_dmas (s : State) (k : Nat) (v : List Watch) : (applyUpd (.watches k v) s).dmas = s.dmas := rfl
@[simp] theorem watches_upd_regReqs (s : State) (k : Nat) (v : List Watch) : (applyUpd (.watches k v) s).regReqs = s.regReqs := rfl
@[simp] theorem watches_upd_regPorts (s : State) (k : Nat) (v : List Watch) : (applyUpd (.watches k v) s).regPorts = s.regPorts := rfl
@[simp] theorem watches_upd_subchs (s : State) (k : Nat) (v : List Watch) : (applyUpd (.watches k v) s).subchs = s.subchs := rfl
@[simp] theorem watches_upd_trackers (s : State) (k : Nat) (v : List Watch) : (applyUpd (.watches k v) s).trackers = s.trackers := rfl
@[simp] theorem watches_upd_throttles (s : State) (k : Nat) (v : List Watch) : (applyUpd (.watches k v) s).throttles = s.throttles := rfl
@[simp] theorem watches_upd_errRing (s : State) (k : Nat) (v : List Watch) : (applyUpd (.watches k v) s).errRing = s.errRing := rfl
@[simp] theorem watches_upd_errRingOvf (s : State) (k : Nat) (v : List Watch) : (applyUpd (.watches k v) s).errRingOvf = s.errRingOvf := rfl
@[simp] theorem watches_upd_patrolLine (s : State) (k : Nat) (v : List Watch) : (applyUpd (.watches k v) s).patrolLine = s.patrolLine := rfl
@[simp] theorem watches_upd_retTimes (s : State) (k : Nat) (v : List Watch) : (applyUpd (.watches k v) s).retTimes = s.retTimes := rfl
@[simp] theorem watches_upd_retired (s : State) (k : Nat) (v : List Watch) : (applyUpd (.watches k v) s).retired = s.retired := rfl
@[simp] theorem watches_upd_dramSeq (s : State) (k : Nat) (v : List Watch) : (applyUpd (.watches k v) s).dramSeq = s.dramSeq := rfl
@[simp] theorem watches_upd_trn (s : State) (k : Nat) (v : List Watch) : (applyUpd (.watches k v) s).trn = s.trn := rfl
@[simp] theorem watches_upd_dqsAdj (s : State) (k : Nat) (v : List Watch) : (applyUpd (.watches k v) s).dqsAdj = s.dqsAdj := rfl
@[simp] theorem watches_upd_dpol (s : State) (k : Nat) (v : List Watch) : (applyUpd (.watches k v) s).dpol = s.dpol := rfl
@[simp] theorem watches_upd_idleAt (s : State) (k : Nat) (v : List Watch) : (applyUpd (.watches k v) s).idleAt = s.idleAt := rfl
@[simp] theorem watches_upd_fitted (s : State) (k : Nat) (v : List Watch) : (applyUpd (.watches k v) s).fitted = s.fitted := rfl
@[simp] theorem watches_upd_faultMsgs (s : State) (k : Nat) (v : List Watch) : (applyUpd (.watches k v) s).faultMsgs = s.faultMsgs := rfl
@[simp] theorem watches_upd_out (s : State) (k : Nat) (v : List Watch) : (applyUpd (.watches k v) s).out = s.out := rfl
@[simp] theorem watches_upd_lastRead (s : State) (k : Nat) (v : List Watch) : (applyUpd (.watches k v) s).lastRead = s.lastRead := rfl
@[simp] theorem watches_upd_fwd (s : State) (k : Nat) (v : List Watch) : (applyUpd (.watches k v) s).fwd = s.fwd := rfl
@[simp] theorem watches_upd_ethTx (s : State) (k : Nat) (v : List Watch) : (applyUpd (.watches k v) s).ethTx = s.ethTx := rfl
@[simp] theorem watches_upd_ethHeadAt (s : State) (k : Nat) (v : List Watch) : (applyUpd (.watches k v) s).ethHeadAt = s.ethHeadAt := rfl
@[simp] theorem watches_upd_canTx (s : State) (k : Nat) (v : List Watch) : (applyUpd (.watches k v) s).canTx = s.canTx := rfl
@[simp] theorem watches_upd_pcieOut (s : State) (k : Nat) (v : List Watch) : (applyUpd (.watches k v) s).pcieOut = s.pcieOut := rfl
@[simp] theorem watches_upd_pcieCfgRd (s : State) (k : Nat) (v : List Watch) : (applyUpd (.watches k v) s).pcieCfgRd = s.pcieCfgRd := rfl
@[simp] theorem watches_upd_msix (s : State) (k : Nat) (v : List Watch) : (applyUpd (.watches k v) s).msix = s.msix := rfl
@[simp] theorem watches_upd_ancs (s : State) (k : Nat) (v : List Watch) : (applyUpd (.watches k v) s).ancs = s.ancs := rfl
@[simp] theorem watches_upd_trajArea (s : State) (k : Nat) (v : List Watch) : (applyUpd (.watches k v) s).trajArea = s.trajArea := rfl
@[simp] theorem watches_upd_lidarIn (s : State) (k : Nat) (v : List Watch) : (applyUpd (.watches k v) s).lidarIn = s.lidarIn := rfl
@[simp] theorem watches_upd_wheelIn (s : State) (k : Nat) (v : List Watch) : (applyUpd (.watches k v) s).wheelIn = s.wheelIn := rfl
@[simp] theorem watches_upd_spiStepBusy (s : State) (k : Nat) (v : List Watch) : (applyUpd (.watches k v) s).spiStepBusy = s.spiStepBusy := rfl
@[simp] theorem watches_upd_spiRec (s : State) (k : Nat) (v : List Watch) : (applyUpd (.watches k v) s).spiRec = s.spiRec := rfl
@[simp] theorem watches_upd_spiStepCfg (s : State) (k : Nat) (v : List Watch) : (applyUpd (.watches k v) s).spiStepCfg = s.spiStepCfg := rfl
@[simp] theorem watches_upd_ctxs (s : State) (k : Nat) (v : List Watch) : (applyUpd (.watches k v) s).ctxs = s.ctxs := rfl
@[simp] theorem watches_upd_fsyOmit (s : State) (k : Nat) (v : List Watch) : (applyUpd (.watches k v) s).fsyOmit = s.fsyOmit := rfl
@[simp] theorem watches_upd_fsyPulsed (s : State) (k : Nat) (v : List Watch) : (applyUpd (.watches k v) s).fsyPulsed = s.fsyPulsed := rfl
@[simp] theorem watches_upd_supTasks (s : State) (k : Nat) (v : List Watch) : (applyUpd (.watches k v) s).supTasks = s.supTasks := rfl
@[simp] theorem watches_upd_fus (s : State) (k : Nat) (v : List Watch) : (applyUpd (.watches k v) s).fus = s.fus := rfl
@[simp] theorem watches_upd_fcons (s : State) (k : Nat) (v : List Watch) : (applyUpd (.watches k v) s).fcons = s.fcons := rfl
@[simp] theorem watches_upd_shadow (s : State) (k : Nat) (v : List Watch) : (applyUpd (.watches k v) s).shadow = s.shadow := rfl
@[simp] theorem watches_upd_trv (s : State) (k : Nat) (v : List Watch) : (applyUpd (.watches k v) s).trv = s.trv := rfl
@[simp] theorem watches_upd_tlayers (s : State) (k : Nat) (v : List Watch) : (applyUpd (.watches k v) s).tlayers = s.tlayers := rfl
@[simp] theorem watches_upd_jobFaults (s : State) (k : Nat) (v : List Watch) : (applyUpd (.watches k v) s).jobFaults = s.jobFaults := rfl
@[simp] theorem watches_upd_unitLast (s : State) (k : Nat) (v : List Watch) : (applyUpd (.watches k v) s).unitLast = s.unitLast := rfl
@[simp] theorem watches_upd_unitRst (s : State) (k : Nat) (v : List Watch) : (applyUpd (.watches k v) s).unitRst = s.unitRst := rfl
@[simp] theorem watches_upd_xlink (s : State) (k : Nat) (v : List Watch) : (applyUpd (.watches k v) s).xlink = s.xlink := rfl
@[simp] theorem watches_upd_trace (s : State) (k : Nat) (v : List Watch) : (applyUpd (.watches k v) s).trace = s.trace := rfl
@[simp] theorem watches_upd_progs (s : State) (k : Nat) (v : List Watch) : (applyUpd (.watches k v) s).progs = s.progs := rfl
@[simp] theorem watches_upd_rails (s : State) (k : Nat) (v : List Watch) : (applyUpd (.watches k v) s).rails = s.rails := rfl
@[simp] theorem watches_upd_thm (s : State) (k : Nat) (v : List Watch) : (applyUpd (.watches k v) s).thm = s.thm := rfl
@[simp] theorem watches_upd_bnd (s : State) (k : Nat) (v : List Watch) : (applyUpd (.watches k v) s).bnd = s.bnd := rfl
@[simp] theorem watches_upd_thmTrip (s : State) (k : Nat) (v : List Watch) : (applyUpd (.watches k v) s).thmTrip = s.thmTrip := rfl
@[simp] theorem watches_upd_flash (s : State) (k : Nat) (v : List Watch) : (applyUpd (.watches k v) s).flash = s.flash := rfl
@[simp] theorem watches_upd_slots (s : State) (k : Nat) (v : List Watch) : (applyUpd (.watches k v) s).slots = s.slots := rfl
@[simp] theorem watches_upd_stores (s : State) (k : Nat) (v : List Watch) : (applyUpd (.watches k v) s).stores = s.stores := rfl
@[simp] theorem watches_upd_ids (s : State) (k : Nat) (v : List Watch) : (applyUpd (.watches k v) s).ids = s.ids := rfl
@[simp] theorem watches_upd_boot (s : State) (k : Nat) (v : List Watch) : (applyUpd (.watches k v) s).boot = s.boot := rfl
@[simp] theorem watches_upd_load (s : State) (k : Nat) (v : List Watch) : (applyUpd (.watches k v) s).load = s.load := rfl
@[simp] theorem watches_upd_flt (s : State) (k : Nat) (v : List Watch) : (applyUpd (.watches k v) s).flt = s.flt := rfl
@[simp] theorem watches_upd_mon (s : State) (k : Nat) (v : List Watch) : (applyUpd (.watches k v) s).mon = s.mon := rfl
@[simp] theorem watchMsgs_upd_pending (s : State) (v : List WatchMsg) : (applyUpd (.watchMsgs v) s).pending = s.pending := rfl
@[simp] theorem watchMsgs_upd_regs (s : State) (v : List WatchMsg) : (applyUpd (.watchMsgs v) s).regs = s.regs := rfl
@[simp] theorem watchMsgs_upd_mem (s : State) (v : List WatchMsg) : (applyUpd (.watchMsgs v) s).mem = s.mem := rfl
@[simp] theorem watchMsgs_upd_sram (s : State) (v : List WatchMsg) : (applyUpd (.watchMsgs v) s).sram = s.sram := rfl
@[simp] theorem watchMsgs_upd_time (s : State) (v : List WatchMsg) : (applyUpd (.watchMsgs v) s).time = s.time := rfl
@[simp] theorem watchMsgs_upd_timeFrac (s : State) (v : List WatchMsg) : (applyUpd (.watchMsgs v) s).timeFrac = s.timeFrac := rfl
@[simp] theorem watchMsgs_upd_freeCtr (s : State) (v : List WatchMsg) : (applyUpd (.watchMsgs v) s).freeCtr = s.freeCtr := rfl
@[simp] theorem watchMsgs_upd_hiLatch (s : State) (v : List WatchMsg) : (applyUpd (.watchMsgs v) s).hiLatch = s.hiLatch := rfl
@[simp] theorem watchMsgs_upd_timeSet (s : State) (v : List WatchMsg) : (applyUpd (.watchMsgs v) s).timeSet = s.timeSet := rfl
@[simp] theorem watchMsgs_upd_n0 (s : State) (v : List WatchMsg) : (applyUpd (.watchMsgs v) s).n0 = s.n0 := rfl
@[simp] theorem watchMsgs_upd_ticked (s : State) (v : List WatchMsg) : (applyUpd (.watchMsgs v) s).ticked = s.ticked := rfl
@[simp] theorem watchMsgs_upd_peerTickAt (s : State) (v : List WatchMsg) : (applyUpd (.watchMsgs v) s).peerTickAt = s.peerTickAt := rfl
@[simp] theorem watchMsgs_upd_guardPitch (s : State) (v : List WatchMsg) : (applyUpd (.watchMsgs v) s).guardPitch = s.guardPitch := rfl
@[simp] theorem watchMsgs_upd_diePitch (s : State) (v : List WatchMsg) : (applyUpd (.watchMsgs v) s).diePitch = s.diePitch := rfl
@[simp] theorem watchMsgs_upd_resps (s : State) (v : List WatchMsg) : (applyUpd (.watchMsgs v) s).resps = s.resps := rfl
@[simp] theorem watchMsgs_upd_txns (s : State) (v : List WatchMsg) : (applyUpd (.watchMsgs v) s).txns = s.txns := rfl
@[simp] theorem watchMsgs_upd_nextTag (s : State) (v : List WatchMsg) : (applyUpd (.watchMsgs v) s).nextTag = s.nextTag := rfl
@[simp] theorem watchMsgs_upd_lateTags (s : State) (v : List WatchMsg) : (applyUpd (.watchMsgs v) s).lateTags = s.lateTags := rfl
@[simp] theorem watchMsgs_upd_ports (s : State) (v : List WatchMsg) : (applyUpd (.watchMsgs v) s).ports = s.ports := rfl
@[simp] theorem watchMsgs_upd_threads (s : State) (v : List WatchMsg) : (applyUpd (.watchMsgs v) s).threads = s.threads := rfl
@[simp] theorem watchMsgs_upd_cores (s : State) (v : List WatchMsg) : (applyUpd (.watchMsgs v) s).cores = s.cores := rfl
@[simp] theorem watchMsgs_upd_engines (s : State) (v : List WatchMsg) : (applyUpd (.watchMsgs v) s).engines = s.engines := rfl
@[simp] theorem watchMsgs_upd_held (s : State) (v : List WatchMsg) : (applyUpd (.watchMsgs v) s).held = s.held := rfl
@[simp] theorem watchMsgs_upd_watches (s : State) (v : List WatchMsg) : (applyUpd (.watchMsgs v) s).watches = s.watches := rfl
@[simp] theorem watchMsgs_upd_watchMsgs (s : State) (v : List WatchMsg) : (applyUpd (.watchMsgs v) s).watchMsgs = v := rfl
@[simp] theorem watchMsgs_upd_bankHeld (s : State) (v : List WatchMsg) : (applyUpd (.watchMsgs v) s).bankHeld = s.bankHeld := rfl
@[simp] theorem watchMsgs_upd_bankTarget (s : State) (v : List WatchMsg) : (applyUpd (.watchMsgs v) s).bankTarget = s.bankTarget := rfl
@[simp] theorem watchMsgs_upd_ecc (s : State) (v : List WatchMsg) : (applyUpd (.watchMsgs v) s).ecc = s.ecc := rfl
@[simp] theorem watchMsgs_upd_lineEcc (s : State) (v : List WatchMsg) : (applyUpd (.watchMsgs v) s).lineEcc = s.lineEcc := rfl
@[simp] theorem watchMsgs_upd_wbPending (s : State) (v : List WatchMsg) : (applyUpd (.watchMsgs v) s).wbPending = s.wbPending := rfl
@[simp] theorem watchMsgs_upd_scrubPos (s : State) (v : List WatchMsg) : (applyUpd (.watchMsgs v) s).scrubPos = s.scrubPos := rfl
@[simp] theorem watchMsgs_upd_refusals (s : State) (v : List WatchMsg) : (applyUpd (.watchMsgs v) s).refusals = s.refusals := rfl
@[simp] theorem watchMsgs_upd_firstRefusal (s : State) (v : List WatchMsg) : (applyUpd (.watchMsgs v) s).firstRefusal = s.firstRefusal := rfl
@[simp] theorem watchMsgs_upd_boxQueue (s : State) (v : List WatchMsg) : (applyUpd (.watchMsgs v) s).boxQueue = s.boxQueue := rfl
@[simp] theorem watchMsgs_upd_boxRun (s : State) (v : List WatchMsg) : (applyUpd (.watchMsgs v) s).boxRun = s.boxRun := rfl
@[simp] theorem watchMsgs_upd_kvs (s : State) (v : List WatchMsg) : (applyUpd (.watchMsgs v) s).kvs = s.kvs := rfl
@[simp] theorem watchMsgs_upd_parts (s : State) (v : List WatchMsg) : (applyUpd (.watchMsgs v) s).parts = s.parts := rfl
@[simp] theorem watchMsgs_upd_dmas (s : State) (v : List WatchMsg) : (applyUpd (.watchMsgs v) s).dmas = s.dmas := rfl
@[simp] theorem watchMsgs_upd_regReqs (s : State) (v : List WatchMsg) : (applyUpd (.watchMsgs v) s).regReqs = s.regReqs := rfl
@[simp] theorem watchMsgs_upd_regPorts (s : State) (v : List WatchMsg) : (applyUpd (.watchMsgs v) s).regPorts = s.regPorts := rfl
@[simp] theorem watchMsgs_upd_subchs (s : State) (v : List WatchMsg) : (applyUpd (.watchMsgs v) s).subchs = s.subchs := rfl
@[simp] theorem watchMsgs_upd_trackers (s : State) (v : List WatchMsg) : (applyUpd (.watchMsgs v) s).trackers = s.trackers := rfl
@[simp] theorem watchMsgs_upd_throttles (s : State) (v : List WatchMsg) : (applyUpd (.watchMsgs v) s).throttles = s.throttles := rfl
@[simp] theorem watchMsgs_upd_errRing (s : State) (v : List WatchMsg) : (applyUpd (.watchMsgs v) s).errRing = s.errRing := rfl
@[simp] theorem watchMsgs_upd_errRingOvf (s : State) (v : List WatchMsg) : (applyUpd (.watchMsgs v) s).errRingOvf = s.errRingOvf := rfl
@[simp] theorem watchMsgs_upd_patrolLine (s : State) (v : List WatchMsg) : (applyUpd (.watchMsgs v) s).patrolLine = s.patrolLine := rfl
@[simp] theorem watchMsgs_upd_retTimes (s : State) (v : List WatchMsg) : (applyUpd (.watchMsgs v) s).retTimes = s.retTimes := rfl
@[simp] theorem watchMsgs_upd_retired (s : State) (v : List WatchMsg) : (applyUpd (.watchMsgs v) s).retired = s.retired := rfl
@[simp] theorem watchMsgs_upd_dramSeq (s : State) (v : List WatchMsg) : (applyUpd (.watchMsgs v) s).dramSeq = s.dramSeq := rfl
@[simp] theorem watchMsgs_upd_trn (s : State) (v : List WatchMsg) : (applyUpd (.watchMsgs v) s).trn = s.trn := rfl
@[simp] theorem watchMsgs_upd_dqsAdj (s : State) (v : List WatchMsg) : (applyUpd (.watchMsgs v) s).dqsAdj = s.dqsAdj := rfl
@[simp] theorem watchMsgs_upd_dpol (s : State) (v : List WatchMsg) : (applyUpd (.watchMsgs v) s).dpol = s.dpol := rfl
@[simp] theorem watchMsgs_upd_idleAt (s : State) (v : List WatchMsg) : (applyUpd (.watchMsgs v) s).idleAt = s.idleAt := rfl
@[simp] theorem watchMsgs_upd_fitted (s : State) (v : List WatchMsg) : (applyUpd (.watchMsgs v) s).fitted = s.fitted := rfl
@[simp] theorem watchMsgs_upd_faultMsgs (s : State) (v : List WatchMsg) : (applyUpd (.watchMsgs v) s).faultMsgs = s.faultMsgs := rfl
@[simp] theorem watchMsgs_upd_out (s : State) (v : List WatchMsg) : (applyUpd (.watchMsgs v) s).out = s.out := rfl
@[simp] theorem watchMsgs_upd_lastRead (s : State) (v : List WatchMsg) : (applyUpd (.watchMsgs v) s).lastRead = s.lastRead := rfl
@[simp] theorem watchMsgs_upd_fwd (s : State) (v : List WatchMsg) : (applyUpd (.watchMsgs v) s).fwd = s.fwd := rfl
@[simp] theorem watchMsgs_upd_ethTx (s : State) (v : List WatchMsg) : (applyUpd (.watchMsgs v) s).ethTx = s.ethTx := rfl
@[simp] theorem watchMsgs_upd_ethHeadAt (s : State) (v : List WatchMsg) : (applyUpd (.watchMsgs v) s).ethHeadAt = s.ethHeadAt := rfl
@[simp] theorem watchMsgs_upd_canTx (s : State) (v : List WatchMsg) : (applyUpd (.watchMsgs v) s).canTx = s.canTx := rfl
@[simp] theorem watchMsgs_upd_pcieOut (s : State) (v : List WatchMsg) : (applyUpd (.watchMsgs v) s).pcieOut = s.pcieOut := rfl
@[simp] theorem watchMsgs_upd_pcieCfgRd (s : State) (v : List WatchMsg) : (applyUpd (.watchMsgs v) s).pcieCfgRd = s.pcieCfgRd := rfl
@[simp] theorem watchMsgs_upd_msix (s : State) (v : List WatchMsg) : (applyUpd (.watchMsgs v) s).msix = s.msix := rfl
@[simp] theorem watchMsgs_upd_ancs (s : State) (v : List WatchMsg) : (applyUpd (.watchMsgs v) s).ancs = s.ancs := rfl
@[simp] theorem watchMsgs_upd_trajArea (s : State) (v : List WatchMsg) : (applyUpd (.watchMsgs v) s).trajArea = s.trajArea := rfl
@[simp] theorem watchMsgs_upd_lidarIn (s : State) (v : List WatchMsg) : (applyUpd (.watchMsgs v) s).lidarIn = s.lidarIn := rfl
@[simp] theorem watchMsgs_upd_wheelIn (s : State) (v : List WatchMsg) : (applyUpd (.watchMsgs v) s).wheelIn = s.wheelIn := rfl
@[simp] theorem watchMsgs_upd_spiStepBusy (s : State) (v : List WatchMsg) : (applyUpd (.watchMsgs v) s).spiStepBusy = s.spiStepBusy := rfl
@[simp] theorem watchMsgs_upd_spiRec (s : State) (v : List WatchMsg) : (applyUpd (.watchMsgs v) s).spiRec = s.spiRec := rfl
@[simp] theorem watchMsgs_upd_spiStepCfg (s : State) (v : List WatchMsg) : (applyUpd (.watchMsgs v) s).spiStepCfg = s.spiStepCfg := rfl
@[simp] theorem watchMsgs_upd_ctxs (s : State) (v : List WatchMsg) : (applyUpd (.watchMsgs v) s).ctxs = s.ctxs := rfl
@[simp] theorem watchMsgs_upd_fsyOmit (s : State) (v : List WatchMsg) : (applyUpd (.watchMsgs v) s).fsyOmit = s.fsyOmit := rfl
@[simp] theorem watchMsgs_upd_fsyPulsed (s : State) (v : List WatchMsg) : (applyUpd (.watchMsgs v) s).fsyPulsed = s.fsyPulsed := rfl
@[simp] theorem watchMsgs_upd_supTasks (s : State) (v : List WatchMsg) : (applyUpd (.watchMsgs v) s).supTasks = s.supTasks := rfl
@[simp] theorem watchMsgs_upd_fus (s : State) (v : List WatchMsg) : (applyUpd (.watchMsgs v) s).fus = s.fus := rfl
@[simp] theorem watchMsgs_upd_fcons (s : State) (v : List WatchMsg) : (applyUpd (.watchMsgs v) s).fcons = s.fcons := rfl
@[simp] theorem watchMsgs_upd_shadow (s : State) (v : List WatchMsg) : (applyUpd (.watchMsgs v) s).shadow = s.shadow := rfl
@[simp] theorem watchMsgs_upd_trv (s : State) (v : List WatchMsg) : (applyUpd (.watchMsgs v) s).trv = s.trv := rfl
@[simp] theorem watchMsgs_upd_tlayers (s : State) (v : List WatchMsg) : (applyUpd (.watchMsgs v) s).tlayers = s.tlayers := rfl
@[simp] theorem watchMsgs_upd_jobFaults (s : State) (v : List WatchMsg) : (applyUpd (.watchMsgs v) s).jobFaults = s.jobFaults := rfl
@[simp] theorem watchMsgs_upd_unitLast (s : State) (v : List WatchMsg) : (applyUpd (.watchMsgs v) s).unitLast = s.unitLast := rfl
@[simp] theorem watchMsgs_upd_unitRst (s : State) (v : List WatchMsg) : (applyUpd (.watchMsgs v) s).unitRst = s.unitRst := rfl
@[simp] theorem watchMsgs_upd_xlink (s : State) (v : List WatchMsg) : (applyUpd (.watchMsgs v) s).xlink = s.xlink := rfl
@[simp] theorem watchMsgs_upd_trace (s : State) (v : List WatchMsg) : (applyUpd (.watchMsgs v) s).trace = s.trace := rfl
@[simp] theorem watchMsgs_upd_progs (s : State) (v : List WatchMsg) : (applyUpd (.watchMsgs v) s).progs = s.progs := rfl
@[simp] theorem watchMsgs_upd_rails (s : State) (v : List WatchMsg) : (applyUpd (.watchMsgs v) s).rails = s.rails := rfl
@[simp] theorem watchMsgs_upd_thm (s : State) (v : List WatchMsg) : (applyUpd (.watchMsgs v) s).thm = s.thm := rfl
@[simp] theorem watchMsgs_upd_bnd (s : State) (v : List WatchMsg) : (applyUpd (.watchMsgs v) s).bnd = s.bnd := rfl
@[simp] theorem watchMsgs_upd_thmTrip (s : State) (v : List WatchMsg) : (applyUpd (.watchMsgs v) s).thmTrip = s.thmTrip := rfl
@[simp] theorem watchMsgs_upd_flash (s : State) (v : List WatchMsg) : (applyUpd (.watchMsgs v) s).flash = s.flash := rfl
@[simp] theorem watchMsgs_upd_slots (s : State) (v : List WatchMsg) : (applyUpd (.watchMsgs v) s).slots = s.slots := rfl
@[simp] theorem watchMsgs_upd_stores (s : State) (v : List WatchMsg) : (applyUpd (.watchMsgs v) s).stores = s.stores := rfl
@[simp] theorem watchMsgs_upd_ids (s : State) (v : List WatchMsg) : (applyUpd (.watchMsgs v) s).ids = s.ids := rfl
@[simp] theorem watchMsgs_upd_boot (s : State) (v : List WatchMsg) : (applyUpd (.watchMsgs v) s).boot = s.boot := rfl
@[simp] theorem watchMsgs_upd_load (s : State) (v : List WatchMsg) : (applyUpd (.watchMsgs v) s).load = s.load := rfl
@[simp] theorem watchMsgs_upd_flt (s : State) (v : List WatchMsg) : (applyUpd (.watchMsgs v) s).flt = s.flt := rfl
@[simp] theorem watchMsgs_upd_mon (s : State) (v : List WatchMsg) : (applyUpd (.watchMsgs v) s).mon = s.mon := rfl
@[simp] theorem bankHeld_upd_pending (s : State) (k : Nat) (v : List (ReqOp × Req)) : (applyUpd (.bankHeld k v) s).pending = s.pending := rfl
@[simp] theorem bankHeld_upd_regs (s : State) (k : Nat) (v : List (ReqOp × Req)) : (applyUpd (.bankHeld k v) s).regs = s.regs := rfl
@[simp] theorem bankHeld_upd_mem (s : State) (k : Nat) (v : List (ReqOp × Req)) : (applyUpd (.bankHeld k v) s).mem = s.mem := rfl
@[simp] theorem bankHeld_upd_sram (s : State) (k : Nat) (v : List (ReqOp × Req)) : (applyUpd (.bankHeld k v) s).sram = s.sram := rfl
@[simp] theorem bankHeld_upd_time (s : State) (k : Nat) (v : List (ReqOp × Req)) : (applyUpd (.bankHeld k v) s).time = s.time := rfl
@[simp] theorem bankHeld_upd_timeFrac (s : State) (k : Nat) (v : List (ReqOp × Req)) : (applyUpd (.bankHeld k v) s).timeFrac = s.timeFrac := rfl
@[simp] theorem bankHeld_upd_freeCtr (s : State) (k : Nat) (v : List (ReqOp × Req)) : (applyUpd (.bankHeld k v) s).freeCtr = s.freeCtr := rfl
@[simp] theorem bankHeld_upd_hiLatch (s : State) (k : Nat) (v : List (ReqOp × Req)) : (applyUpd (.bankHeld k v) s).hiLatch = s.hiLatch := rfl
@[simp] theorem bankHeld_upd_timeSet (s : State) (k : Nat) (v : List (ReqOp × Req)) : (applyUpd (.bankHeld k v) s).timeSet = s.timeSet := rfl
@[simp] theorem bankHeld_upd_n0 (s : State) (k : Nat) (v : List (ReqOp × Req)) : (applyUpd (.bankHeld k v) s).n0 = s.n0 := rfl
@[simp] theorem bankHeld_upd_ticked (s : State) (k : Nat) (v : List (ReqOp × Req)) : (applyUpd (.bankHeld k v) s).ticked = s.ticked := rfl
@[simp] theorem bankHeld_upd_peerTickAt (s : State) (k : Nat) (v : List (ReqOp × Req)) : (applyUpd (.bankHeld k v) s).peerTickAt = s.peerTickAt := rfl
@[simp] theorem bankHeld_upd_guardPitch (s : State) (k : Nat) (v : List (ReqOp × Req)) : (applyUpd (.bankHeld k v) s).guardPitch = s.guardPitch := rfl
@[simp] theorem bankHeld_upd_diePitch (s : State) (k : Nat) (v : List (ReqOp × Req)) : (applyUpd (.bankHeld k v) s).diePitch = s.diePitch := rfl
@[simp] theorem bankHeld_upd_resps (s : State) (k : Nat) (v : List (ReqOp × Req)) : (applyUpd (.bankHeld k v) s).resps = s.resps := rfl
@[simp] theorem bankHeld_upd_txns (s : State) (k : Nat) (v : List (ReqOp × Req)) : (applyUpd (.bankHeld k v) s).txns = s.txns := rfl
@[simp] theorem bankHeld_upd_nextTag (s : State) (k : Nat) (v : List (ReqOp × Req)) : (applyUpd (.bankHeld k v) s).nextTag = s.nextTag := rfl
@[simp] theorem bankHeld_upd_lateTags (s : State) (k : Nat) (v : List (ReqOp × Req)) : (applyUpd (.bankHeld k v) s).lateTags = s.lateTags := rfl
@[simp] theorem bankHeld_upd_ports (s : State) (k : Nat) (v : List (ReqOp × Req)) : (applyUpd (.bankHeld k v) s).ports = s.ports := rfl
@[simp] theorem bankHeld_upd_threads (s : State) (k : Nat) (v : List (ReqOp × Req)) : (applyUpd (.bankHeld k v) s).threads = s.threads := rfl
@[simp] theorem bankHeld_upd_cores (s : State) (k : Nat) (v : List (ReqOp × Req)) : (applyUpd (.bankHeld k v) s).cores = s.cores := rfl
@[simp] theorem bankHeld_upd_engines (s : State) (k : Nat) (v : List (ReqOp × Req)) : (applyUpd (.bankHeld k v) s).engines = s.engines := rfl
@[simp] theorem bankHeld_upd_held (s : State) (k : Nat) (v : List (ReqOp × Req)) : (applyUpd (.bankHeld k v) s).held = s.held := rfl
@[simp] theorem bankHeld_upd_watches (s : State) (k : Nat) (v : List (ReqOp × Req)) : (applyUpd (.bankHeld k v) s).watches = s.watches := rfl
@[simp] theorem bankHeld_upd_watchMsgs (s : State) (k : Nat) (v : List (ReqOp × Req)) : (applyUpd (.bankHeld k v) s).watchMsgs = s.watchMsgs := rfl
@[simp] theorem bankHeld_upd_bankHeld (s : State) (k : Nat) (v : List (ReqOp × Req)) : (applyUpd (.bankHeld k v) s).bankHeld = tabSet noHeld s.bankHeld k v := rfl
@[simp] theorem bankHeld_upd_bankTarget (s : State) (k : Nat) (v : List (ReqOp × Req)) : (applyUpd (.bankHeld k v) s).bankTarget = s.bankTarget := rfl
@[simp] theorem bankHeld_upd_ecc (s : State) (k : Nat) (v : List (ReqOp × Req)) : (applyUpd (.bankHeld k v) s).ecc = s.ecc := rfl
@[simp] theorem bankHeld_upd_lineEcc (s : State) (k : Nat) (v : List (ReqOp × Req)) : (applyUpd (.bankHeld k v) s).lineEcc = s.lineEcc := rfl
@[simp] theorem bankHeld_upd_wbPending (s : State) (k : Nat) (v : List (ReqOp × Req)) : (applyUpd (.bankHeld k v) s).wbPending = s.wbPending := rfl
@[simp] theorem bankHeld_upd_scrubPos (s : State) (k : Nat) (v : List (ReqOp × Req)) : (applyUpd (.bankHeld k v) s).scrubPos = s.scrubPos := rfl
@[simp] theorem bankHeld_upd_refusals (s : State) (k : Nat) (v : List (ReqOp × Req)) : (applyUpd (.bankHeld k v) s).refusals = s.refusals := rfl
@[simp] theorem bankHeld_upd_firstRefusal (s : State) (k : Nat) (v : List (ReqOp × Req)) : (applyUpd (.bankHeld k v) s).firstRefusal = s.firstRefusal := rfl
@[simp] theorem bankHeld_upd_boxQueue (s : State) (k : Nat) (v : List (ReqOp × Req)) : (applyUpd (.bankHeld k v) s).boxQueue = s.boxQueue := rfl
@[simp] theorem bankHeld_upd_boxRun (s : State) (k : Nat) (v : List (ReqOp × Req)) : (applyUpd (.bankHeld k v) s).boxRun = s.boxRun := rfl
@[simp] theorem bankHeld_upd_kvs (s : State) (k : Nat) (v : List (ReqOp × Req)) : (applyUpd (.bankHeld k v) s).kvs = s.kvs := rfl
@[simp] theorem bankHeld_upd_parts (s : State) (k : Nat) (v : List (ReqOp × Req)) : (applyUpd (.bankHeld k v) s).parts = s.parts := rfl
@[simp] theorem bankHeld_upd_dmas (s : State) (k : Nat) (v : List (ReqOp × Req)) : (applyUpd (.bankHeld k v) s).dmas = s.dmas := rfl
@[simp] theorem bankHeld_upd_regReqs (s : State) (k : Nat) (v : List (ReqOp × Req)) : (applyUpd (.bankHeld k v) s).regReqs = s.regReqs := rfl
@[simp] theorem bankHeld_upd_regPorts (s : State) (k : Nat) (v : List (ReqOp × Req)) : (applyUpd (.bankHeld k v) s).regPorts = s.regPorts := rfl
@[simp] theorem bankHeld_upd_subchs (s : State) (k : Nat) (v : List (ReqOp × Req)) : (applyUpd (.bankHeld k v) s).subchs = s.subchs := rfl
@[simp] theorem bankHeld_upd_trackers (s : State) (k : Nat) (v : List (ReqOp × Req)) : (applyUpd (.bankHeld k v) s).trackers = s.trackers := rfl
@[simp] theorem bankHeld_upd_throttles (s : State) (k : Nat) (v : List (ReqOp × Req)) : (applyUpd (.bankHeld k v) s).throttles = s.throttles := rfl
@[simp] theorem bankHeld_upd_errRing (s : State) (k : Nat) (v : List (ReqOp × Req)) : (applyUpd (.bankHeld k v) s).errRing = s.errRing := rfl
@[simp] theorem bankHeld_upd_errRingOvf (s : State) (k : Nat) (v : List (ReqOp × Req)) : (applyUpd (.bankHeld k v) s).errRingOvf = s.errRingOvf := rfl
@[simp] theorem bankHeld_upd_patrolLine (s : State) (k : Nat) (v : List (ReqOp × Req)) : (applyUpd (.bankHeld k v) s).patrolLine = s.patrolLine := rfl
@[simp] theorem bankHeld_upd_retTimes (s : State) (k : Nat) (v : List (ReqOp × Req)) : (applyUpd (.bankHeld k v) s).retTimes = s.retTimes := rfl
@[simp] theorem bankHeld_upd_retired (s : State) (k : Nat) (v : List (ReqOp × Req)) : (applyUpd (.bankHeld k v) s).retired = s.retired := rfl
@[simp] theorem bankHeld_upd_dramSeq (s : State) (k : Nat) (v : List (ReqOp × Req)) : (applyUpd (.bankHeld k v) s).dramSeq = s.dramSeq := rfl
@[simp] theorem bankHeld_upd_trn (s : State) (k : Nat) (v : List (ReqOp × Req)) : (applyUpd (.bankHeld k v) s).trn = s.trn := rfl
@[simp] theorem bankHeld_upd_dqsAdj (s : State) (k : Nat) (v : List (ReqOp × Req)) : (applyUpd (.bankHeld k v) s).dqsAdj = s.dqsAdj := rfl
@[simp] theorem bankHeld_upd_dpol (s : State) (k : Nat) (v : List (ReqOp × Req)) : (applyUpd (.bankHeld k v) s).dpol = s.dpol := rfl
@[simp] theorem bankHeld_upd_idleAt (s : State) (k : Nat) (v : List (ReqOp × Req)) : (applyUpd (.bankHeld k v) s).idleAt = s.idleAt := rfl
@[simp] theorem bankHeld_upd_fitted (s : State) (k : Nat) (v : List (ReqOp × Req)) : (applyUpd (.bankHeld k v) s).fitted = s.fitted := rfl
@[simp] theorem bankHeld_upd_faultMsgs (s : State) (k : Nat) (v : List (ReqOp × Req)) : (applyUpd (.bankHeld k v) s).faultMsgs = s.faultMsgs := rfl
@[simp] theorem bankHeld_upd_out (s : State) (k : Nat) (v : List (ReqOp × Req)) : (applyUpd (.bankHeld k v) s).out = s.out := rfl
@[simp] theorem bankHeld_upd_lastRead (s : State) (k : Nat) (v : List (ReqOp × Req)) : (applyUpd (.bankHeld k v) s).lastRead = s.lastRead := rfl
@[simp] theorem bankHeld_upd_fwd (s : State) (k : Nat) (v : List (ReqOp × Req)) : (applyUpd (.bankHeld k v) s).fwd = s.fwd := rfl
@[simp] theorem bankHeld_upd_ethTx (s : State) (k : Nat) (v : List (ReqOp × Req)) : (applyUpd (.bankHeld k v) s).ethTx = s.ethTx := rfl
@[simp] theorem bankHeld_upd_ethHeadAt (s : State) (k : Nat) (v : List (ReqOp × Req)) : (applyUpd (.bankHeld k v) s).ethHeadAt = s.ethHeadAt := rfl
@[simp] theorem bankHeld_upd_canTx (s : State) (k : Nat) (v : List (ReqOp × Req)) : (applyUpd (.bankHeld k v) s).canTx = s.canTx := rfl
@[simp] theorem bankHeld_upd_pcieOut (s : State) (k : Nat) (v : List (ReqOp × Req)) : (applyUpd (.bankHeld k v) s).pcieOut = s.pcieOut := rfl
@[simp] theorem bankHeld_upd_pcieCfgRd (s : State) (k : Nat) (v : List (ReqOp × Req)) : (applyUpd (.bankHeld k v) s).pcieCfgRd = s.pcieCfgRd := rfl
@[simp] theorem bankHeld_upd_msix (s : State) (k : Nat) (v : List (ReqOp × Req)) : (applyUpd (.bankHeld k v) s).msix = s.msix := rfl
@[simp] theorem bankHeld_upd_ancs (s : State) (k : Nat) (v : List (ReqOp × Req)) : (applyUpd (.bankHeld k v) s).ancs = s.ancs := rfl
@[simp] theorem bankHeld_upd_trajArea (s : State) (k : Nat) (v : List (ReqOp × Req)) : (applyUpd (.bankHeld k v) s).trajArea = s.trajArea := rfl
@[simp] theorem bankHeld_upd_lidarIn (s : State) (k : Nat) (v : List (ReqOp × Req)) : (applyUpd (.bankHeld k v) s).lidarIn = s.lidarIn := rfl
@[simp] theorem bankHeld_upd_wheelIn (s : State) (k : Nat) (v : List (ReqOp × Req)) : (applyUpd (.bankHeld k v) s).wheelIn = s.wheelIn := rfl
@[simp] theorem bankHeld_upd_spiStepBusy (s : State) (k : Nat) (v : List (ReqOp × Req)) : (applyUpd (.bankHeld k v) s).spiStepBusy = s.spiStepBusy := rfl
@[simp] theorem bankHeld_upd_spiRec (s : State) (k : Nat) (v : List (ReqOp × Req)) : (applyUpd (.bankHeld k v) s).spiRec = s.spiRec := rfl
@[simp] theorem bankHeld_upd_spiStepCfg (s : State) (k : Nat) (v : List (ReqOp × Req)) : (applyUpd (.bankHeld k v) s).spiStepCfg = s.spiStepCfg := rfl
@[simp] theorem bankHeld_upd_ctxs (s : State) (k : Nat) (v : List (ReqOp × Req)) : (applyUpd (.bankHeld k v) s).ctxs = s.ctxs := rfl
@[simp] theorem bankHeld_upd_fsyOmit (s : State) (k : Nat) (v : List (ReqOp × Req)) : (applyUpd (.bankHeld k v) s).fsyOmit = s.fsyOmit := rfl
@[simp] theorem bankHeld_upd_fsyPulsed (s : State) (k : Nat) (v : List (ReqOp × Req)) : (applyUpd (.bankHeld k v) s).fsyPulsed = s.fsyPulsed := rfl
@[simp] theorem bankHeld_upd_supTasks (s : State) (k : Nat) (v : List (ReqOp × Req)) : (applyUpd (.bankHeld k v) s).supTasks = s.supTasks := rfl
@[simp] theorem bankHeld_upd_fus (s : State) (k : Nat) (v : List (ReqOp × Req)) : (applyUpd (.bankHeld k v) s).fus = s.fus := rfl
@[simp] theorem bankHeld_upd_fcons (s : State) (k : Nat) (v : List (ReqOp × Req)) : (applyUpd (.bankHeld k v) s).fcons = s.fcons := rfl
@[simp] theorem bankHeld_upd_shadow (s : State) (k : Nat) (v : List (ReqOp × Req)) : (applyUpd (.bankHeld k v) s).shadow = s.shadow := rfl
@[simp] theorem bankHeld_upd_trv (s : State) (k : Nat) (v : List (ReqOp × Req)) : (applyUpd (.bankHeld k v) s).trv = s.trv := rfl
@[simp] theorem bankHeld_upd_tlayers (s : State) (k : Nat) (v : List (ReqOp × Req)) : (applyUpd (.bankHeld k v) s).tlayers = s.tlayers := rfl
@[simp] theorem bankHeld_upd_jobFaults (s : State) (k : Nat) (v : List (ReqOp × Req)) : (applyUpd (.bankHeld k v) s).jobFaults = s.jobFaults := rfl
@[simp] theorem bankHeld_upd_unitLast (s : State) (k : Nat) (v : List (ReqOp × Req)) : (applyUpd (.bankHeld k v) s).unitLast = s.unitLast := rfl
@[simp] theorem bankHeld_upd_unitRst (s : State) (k : Nat) (v : List (ReqOp × Req)) : (applyUpd (.bankHeld k v) s).unitRst = s.unitRst := rfl
@[simp] theorem bankHeld_upd_xlink (s : State) (k : Nat) (v : List (ReqOp × Req)) : (applyUpd (.bankHeld k v) s).xlink = s.xlink := rfl
@[simp] theorem bankHeld_upd_trace (s : State) (k : Nat) (v : List (ReqOp × Req)) : (applyUpd (.bankHeld k v) s).trace = s.trace := rfl
@[simp] theorem bankHeld_upd_progs (s : State) (k : Nat) (v : List (ReqOp × Req)) : (applyUpd (.bankHeld k v) s).progs = s.progs := rfl
@[simp] theorem bankHeld_upd_rails (s : State) (k : Nat) (v : List (ReqOp × Req)) : (applyUpd (.bankHeld k v) s).rails = s.rails := rfl
@[simp] theorem bankHeld_upd_thm (s : State) (k : Nat) (v : List (ReqOp × Req)) : (applyUpd (.bankHeld k v) s).thm = s.thm := rfl
@[simp] theorem bankHeld_upd_bnd (s : State) (k : Nat) (v : List (ReqOp × Req)) : (applyUpd (.bankHeld k v) s).bnd = s.bnd := rfl
@[simp] theorem bankHeld_upd_thmTrip (s : State) (k : Nat) (v : List (ReqOp × Req)) : (applyUpd (.bankHeld k v) s).thmTrip = s.thmTrip := rfl
@[simp] theorem bankHeld_upd_flash (s : State) (k : Nat) (v : List (ReqOp × Req)) : (applyUpd (.bankHeld k v) s).flash = s.flash := rfl
@[simp] theorem bankHeld_upd_slots (s : State) (k : Nat) (v : List (ReqOp × Req)) : (applyUpd (.bankHeld k v) s).slots = s.slots := rfl
@[simp] theorem bankHeld_upd_stores (s : State) (k : Nat) (v : List (ReqOp × Req)) : (applyUpd (.bankHeld k v) s).stores = s.stores := rfl
@[simp] theorem bankHeld_upd_ids (s : State) (k : Nat) (v : List (ReqOp × Req)) : (applyUpd (.bankHeld k v) s).ids = s.ids := rfl
@[simp] theorem bankHeld_upd_boot (s : State) (k : Nat) (v : List (ReqOp × Req)) : (applyUpd (.bankHeld k v) s).boot = s.boot := rfl
@[simp] theorem bankHeld_upd_load (s : State) (k : Nat) (v : List (ReqOp × Req)) : (applyUpd (.bankHeld k v) s).load = s.load := rfl
@[simp] theorem bankHeld_upd_flt (s : State) (k : Nat) (v : List (ReqOp × Req)) : (applyUpd (.bankHeld k v) s).flt = s.flt := rfl
@[simp] theorem bankHeld_upd_mon (s : State) (k : Nat) (v : List (ReqOp × Req)) : (applyUpd (.bankHeld k v) s).mon = s.mon := rfl
@[simp] theorem bankTarget_upd_pending (s : State) (k : Nat) (v : Nat) : (applyUpd (.bankTarget k v) s).pending = s.pending := rfl
@[simp] theorem bankTarget_upd_regs (s : State) (k : Nat) (v : Nat) : (applyUpd (.bankTarget k v) s).regs = s.regs := rfl
@[simp] theorem bankTarget_upd_mem (s : State) (k : Nat) (v : Nat) : (applyUpd (.bankTarget k v) s).mem = s.mem := rfl
@[simp] theorem bankTarget_upd_sram (s : State) (k : Nat) (v : Nat) : (applyUpd (.bankTarget k v) s).sram = s.sram := rfl
@[simp] theorem bankTarget_upd_time (s : State) (k : Nat) (v : Nat) : (applyUpd (.bankTarget k v) s).time = s.time := rfl
@[simp] theorem bankTarget_upd_timeFrac (s : State) (k : Nat) (v : Nat) : (applyUpd (.bankTarget k v) s).timeFrac = s.timeFrac := rfl
@[simp] theorem bankTarget_upd_freeCtr (s : State) (k : Nat) (v : Nat) : (applyUpd (.bankTarget k v) s).freeCtr = s.freeCtr := rfl
@[simp] theorem bankTarget_upd_hiLatch (s : State) (k : Nat) (v : Nat) : (applyUpd (.bankTarget k v) s).hiLatch = s.hiLatch := rfl
@[simp] theorem bankTarget_upd_timeSet (s : State) (k : Nat) (v : Nat) : (applyUpd (.bankTarget k v) s).timeSet = s.timeSet := rfl
@[simp] theorem bankTarget_upd_n0 (s : State) (k : Nat) (v : Nat) : (applyUpd (.bankTarget k v) s).n0 = s.n0 := rfl
@[simp] theorem bankTarget_upd_ticked (s : State) (k : Nat) (v : Nat) : (applyUpd (.bankTarget k v) s).ticked = s.ticked := rfl
@[simp] theorem bankTarget_upd_peerTickAt (s : State) (k : Nat) (v : Nat) : (applyUpd (.bankTarget k v) s).peerTickAt = s.peerTickAt := rfl
@[simp] theorem bankTarget_upd_guardPitch (s : State) (k : Nat) (v : Nat) : (applyUpd (.bankTarget k v) s).guardPitch = s.guardPitch := rfl
@[simp] theorem bankTarget_upd_diePitch (s : State) (k : Nat) (v : Nat) : (applyUpd (.bankTarget k v) s).diePitch = s.diePitch := rfl
@[simp] theorem bankTarget_upd_resps (s : State) (k : Nat) (v : Nat) : (applyUpd (.bankTarget k v) s).resps = s.resps := rfl
@[simp] theorem bankTarget_upd_txns (s : State) (k : Nat) (v : Nat) : (applyUpd (.bankTarget k v) s).txns = s.txns := rfl
@[simp] theorem bankTarget_upd_nextTag (s : State) (k : Nat) (v : Nat) : (applyUpd (.bankTarget k v) s).nextTag = s.nextTag := rfl
@[simp] theorem bankTarget_upd_lateTags (s : State) (k : Nat) (v : Nat) : (applyUpd (.bankTarget k v) s).lateTags = s.lateTags := rfl
@[simp] theorem bankTarget_upd_ports (s : State) (k : Nat) (v : Nat) : (applyUpd (.bankTarget k v) s).ports = s.ports := rfl
@[simp] theorem bankTarget_upd_threads (s : State) (k : Nat) (v : Nat) : (applyUpd (.bankTarget k v) s).threads = s.threads := rfl
@[simp] theorem bankTarget_upd_cores (s : State) (k : Nat) (v : Nat) : (applyUpd (.bankTarget k v) s).cores = s.cores := rfl
@[simp] theorem bankTarget_upd_engines (s : State) (k : Nat) (v : Nat) : (applyUpd (.bankTarget k v) s).engines = s.engines := rfl
@[simp] theorem bankTarget_upd_held (s : State) (k : Nat) (v : Nat) : (applyUpd (.bankTarget k v) s).held = s.held := rfl
@[simp] theorem bankTarget_upd_watches (s : State) (k : Nat) (v : Nat) : (applyUpd (.bankTarget k v) s).watches = s.watches := rfl
@[simp] theorem bankTarget_upd_watchMsgs (s : State) (k : Nat) (v : Nat) : (applyUpd (.bankTarget k v) s).watchMsgs = s.watchMsgs := rfl
@[simp] theorem bankTarget_upd_bankHeld (s : State) (k : Nat) (v : Nat) : (applyUpd (.bankTarget k v) s).bankHeld = s.bankHeld := rfl
@[simp] theorem bankTarget_upd_bankTarget (s : State) (k : Nat) (v : Nat) : (applyUpd (.bankTarget k v) s).bankTarget = tabSet zeroNat s.bankTarget k v := rfl
@[simp] theorem bankTarget_upd_ecc (s : State) (k : Nat) (v : Nat) : (applyUpd (.bankTarget k v) s).ecc = s.ecc := rfl
@[simp] theorem bankTarget_upd_lineEcc (s : State) (k : Nat) (v : Nat) : (applyUpd (.bankTarget k v) s).lineEcc = s.lineEcc := rfl
@[simp] theorem bankTarget_upd_wbPending (s : State) (k : Nat) (v : Nat) : (applyUpd (.bankTarget k v) s).wbPending = s.wbPending := rfl
@[simp] theorem bankTarget_upd_scrubPos (s : State) (k : Nat) (v : Nat) : (applyUpd (.bankTarget k v) s).scrubPos = s.scrubPos := rfl
@[simp] theorem bankTarget_upd_refusals (s : State) (k : Nat) (v : Nat) : (applyUpd (.bankTarget k v) s).refusals = s.refusals := rfl
@[simp] theorem bankTarget_upd_firstRefusal (s : State) (k : Nat) (v : Nat) : (applyUpd (.bankTarget k v) s).firstRefusal = s.firstRefusal := rfl
@[simp] theorem bankTarget_upd_boxQueue (s : State) (k : Nat) (v : Nat) : (applyUpd (.bankTarget k v) s).boxQueue = s.boxQueue := rfl
@[simp] theorem bankTarget_upd_boxRun (s : State) (k : Nat) (v : Nat) : (applyUpd (.bankTarget k v) s).boxRun = s.boxRun := rfl
@[simp] theorem bankTarget_upd_kvs (s : State) (k : Nat) (v : Nat) : (applyUpd (.bankTarget k v) s).kvs = s.kvs := rfl
@[simp] theorem bankTarget_upd_parts (s : State) (k : Nat) (v : Nat) : (applyUpd (.bankTarget k v) s).parts = s.parts := rfl
@[simp] theorem bankTarget_upd_dmas (s : State) (k : Nat) (v : Nat) : (applyUpd (.bankTarget k v) s).dmas = s.dmas := rfl
@[simp] theorem bankTarget_upd_regReqs (s : State) (k : Nat) (v : Nat) : (applyUpd (.bankTarget k v) s).regReqs = s.regReqs := rfl
@[simp] theorem bankTarget_upd_regPorts (s : State) (k : Nat) (v : Nat) : (applyUpd (.bankTarget k v) s).regPorts = s.regPorts := rfl
@[simp] theorem bankTarget_upd_subchs (s : State) (k : Nat) (v : Nat) : (applyUpd (.bankTarget k v) s).subchs = s.subchs := rfl
@[simp] theorem bankTarget_upd_trackers (s : State) (k : Nat) (v : Nat) : (applyUpd (.bankTarget k v) s).trackers = s.trackers := rfl
@[simp] theorem bankTarget_upd_throttles (s : State) (k : Nat) (v : Nat) : (applyUpd (.bankTarget k v) s).throttles = s.throttles := rfl
@[simp] theorem bankTarget_upd_errRing (s : State) (k : Nat) (v : Nat) : (applyUpd (.bankTarget k v) s).errRing = s.errRing := rfl
@[simp] theorem bankTarget_upd_errRingOvf (s : State) (k : Nat) (v : Nat) : (applyUpd (.bankTarget k v) s).errRingOvf = s.errRingOvf := rfl
@[simp] theorem bankTarget_upd_patrolLine (s : State) (k : Nat) (v : Nat) : (applyUpd (.bankTarget k v) s).patrolLine = s.patrolLine := rfl
@[simp] theorem bankTarget_upd_retTimes (s : State) (k : Nat) (v : Nat) : (applyUpd (.bankTarget k v) s).retTimes = s.retTimes := rfl
@[simp] theorem bankTarget_upd_retired (s : State) (k : Nat) (v : Nat) : (applyUpd (.bankTarget k v) s).retired = s.retired := rfl
@[simp] theorem bankTarget_upd_dramSeq (s : State) (k : Nat) (v : Nat) : (applyUpd (.bankTarget k v) s).dramSeq = s.dramSeq := rfl
@[simp] theorem bankTarget_upd_trn (s : State) (k : Nat) (v : Nat) : (applyUpd (.bankTarget k v) s).trn = s.trn := rfl
@[simp] theorem bankTarget_upd_dqsAdj (s : State) (k : Nat) (v : Nat) : (applyUpd (.bankTarget k v) s).dqsAdj = s.dqsAdj := rfl
@[simp] theorem bankTarget_upd_dpol (s : State) (k : Nat) (v : Nat) : (applyUpd (.bankTarget k v) s).dpol = s.dpol := rfl
@[simp] theorem bankTarget_upd_idleAt (s : State) (k : Nat) (v : Nat) : (applyUpd (.bankTarget k v) s).idleAt = s.idleAt := rfl
@[simp] theorem bankTarget_upd_fitted (s : State) (k : Nat) (v : Nat) : (applyUpd (.bankTarget k v) s).fitted = s.fitted := rfl
@[simp] theorem bankTarget_upd_faultMsgs (s : State) (k : Nat) (v : Nat) : (applyUpd (.bankTarget k v) s).faultMsgs = s.faultMsgs := rfl
@[simp] theorem bankTarget_upd_out (s : State) (k : Nat) (v : Nat) : (applyUpd (.bankTarget k v) s).out = s.out := rfl
@[simp] theorem bankTarget_upd_lastRead (s : State) (k : Nat) (v : Nat) : (applyUpd (.bankTarget k v) s).lastRead = s.lastRead := rfl
@[simp] theorem bankTarget_upd_fwd (s : State) (k : Nat) (v : Nat) : (applyUpd (.bankTarget k v) s).fwd = s.fwd := rfl
@[simp] theorem bankTarget_upd_ethTx (s : State) (k : Nat) (v : Nat) : (applyUpd (.bankTarget k v) s).ethTx = s.ethTx := rfl
@[simp] theorem bankTarget_upd_ethHeadAt (s : State) (k : Nat) (v : Nat) : (applyUpd (.bankTarget k v) s).ethHeadAt = s.ethHeadAt := rfl
@[simp] theorem bankTarget_upd_canTx (s : State) (k : Nat) (v : Nat) : (applyUpd (.bankTarget k v) s).canTx = s.canTx := rfl
@[simp] theorem bankTarget_upd_pcieOut (s : State) (k : Nat) (v : Nat) : (applyUpd (.bankTarget k v) s).pcieOut = s.pcieOut := rfl
@[simp] theorem bankTarget_upd_pcieCfgRd (s : State) (k : Nat) (v : Nat) : (applyUpd (.bankTarget k v) s).pcieCfgRd = s.pcieCfgRd := rfl
@[simp] theorem bankTarget_upd_msix (s : State) (k : Nat) (v : Nat) : (applyUpd (.bankTarget k v) s).msix = s.msix := rfl
@[simp] theorem bankTarget_upd_ancs (s : State) (k : Nat) (v : Nat) : (applyUpd (.bankTarget k v) s).ancs = s.ancs := rfl
@[simp] theorem bankTarget_upd_trajArea (s : State) (k : Nat) (v : Nat) : (applyUpd (.bankTarget k v) s).trajArea = s.trajArea := rfl
@[simp] theorem bankTarget_upd_lidarIn (s : State) (k : Nat) (v : Nat) : (applyUpd (.bankTarget k v) s).lidarIn = s.lidarIn := rfl
@[simp] theorem bankTarget_upd_wheelIn (s : State) (k : Nat) (v : Nat) : (applyUpd (.bankTarget k v) s).wheelIn = s.wheelIn := rfl
@[simp] theorem bankTarget_upd_spiStepBusy (s : State) (k : Nat) (v : Nat) : (applyUpd (.bankTarget k v) s).spiStepBusy = s.spiStepBusy := rfl
@[simp] theorem bankTarget_upd_spiRec (s : State) (k : Nat) (v : Nat) : (applyUpd (.bankTarget k v) s).spiRec = s.spiRec := rfl
@[simp] theorem bankTarget_upd_spiStepCfg (s : State) (k : Nat) (v : Nat) : (applyUpd (.bankTarget k v) s).spiStepCfg = s.spiStepCfg := rfl
@[simp] theorem bankTarget_upd_ctxs (s : State) (k : Nat) (v : Nat) : (applyUpd (.bankTarget k v) s).ctxs = s.ctxs := rfl
@[simp] theorem bankTarget_upd_fsyOmit (s : State) (k : Nat) (v : Nat) : (applyUpd (.bankTarget k v) s).fsyOmit = s.fsyOmit := rfl
@[simp] theorem bankTarget_upd_fsyPulsed (s : State) (k : Nat) (v : Nat) : (applyUpd (.bankTarget k v) s).fsyPulsed = s.fsyPulsed := rfl
@[simp] theorem bankTarget_upd_supTasks (s : State) (k : Nat) (v : Nat) : (applyUpd (.bankTarget k v) s).supTasks = s.supTasks := rfl
@[simp] theorem bankTarget_upd_fus (s : State) (k : Nat) (v : Nat) : (applyUpd (.bankTarget k v) s).fus = s.fus := rfl
@[simp] theorem bankTarget_upd_fcons (s : State) (k : Nat) (v : Nat) : (applyUpd (.bankTarget k v) s).fcons = s.fcons := rfl
@[simp] theorem bankTarget_upd_shadow (s : State) (k : Nat) (v : Nat) : (applyUpd (.bankTarget k v) s).shadow = s.shadow := rfl
@[simp] theorem bankTarget_upd_trv (s : State) (k : Nat) (v : Nat) : (applyUpd (.bankTarget k v) s).trv = s.trv := rfl
@[simp] theorem bankTarget_upd_tlayers (s : State) (k : Nat) (v : Nat) : (applyUpd (.bankTarget k v) s).tlayers = s.tlayers := rfl
@[simp] theorem bankTarget_upd_jobFaults (s : State) (k : Nat) (v : Nat) : (applyUpd (.bankTarget k v) s).jobFaults = s.jobFaults := rfl
@[simp] theorem bankTarget_upd_unitLast (s : State) (k : Nat) (v : Nat) : (applyUpd (.bankTarget k v) s).unitLast = s.unitLast := rfl
@[simp] theorem bankTarget_upd_unitRst (s : State) (k : Nat) (v : Nat) : (applyUpd (.bankTarget k v) s).unitRst = s.unitRst := rfl
@[simp] theorem bankTarget_upd_xlink (s : State) (k : Nat) (v : Nat) : (applyUpd (.bankTarget k v) s).xlink = s.xlink := rfl
@[simp] theorem bankTarget_upd_trace (s : State) (k : Nat) (v : Nat) : (applyUpd (.bankTarget k v) s).trace = s.trace := rfl
@[simp] theorem bankTarget_upd_progs (s : State) (k : Nat) (v : Nat) : (applyUpd (.bankTarget k v) s).progs = s.progs := rfl
@[simp] theorem bankTarget_upd_rails (s : State) (k : Nat) (v : Nat) : (applyUpd (.bankTarget k v) s).rails = s.rails := rfl
@[simp] theorem bankTarget_upd_thm (s : State) (k : Nat) (v : Nat) : (applyUpd (.bankTarget k v) s).thm = s.thm := rfl
@[simp] theorem bankTarget_upd_bnd (s : State) (k : Nat) (v : Nat) : (applyUpd (.bankTarget k v) s).bnd = s.bnd := rfl
@[simp] theorem bankTarget_upd_thmTrip (s : State) (k : Nat) (v : Nat) : (applyUpd (.bankTarget k v) s).thmTrip = s.thmTrip := rfl
@[simp] theorem bankTarget_upd_flash (s : State) (k : Nat) (v : Nat) : (applyUpd (.bankTarget k v) s).flash = s.flash := rfl
@[simp] theorem bankTarget_upd_slots (s : State) (k : Nat) (v : Nat) : (applyUpd (.bankTarget k v) s).slots = s.slots := rfl
@[simp] theorem bankTarget_upd_stores (s : State) (k : Nat) (v : Nat) : (applyUpd (.bankTarget k v) s).stores = s.stores := rfl
@[simp] theorem bankTarget_upd_ids (s : State) (k : Nat) (v : Nat) : (applyUpd (.bankTarget k v) s).ids = s.ids := rfl
@[simp] theorem bankTarget_upd_boot (s : State) (k : Nat) (v : Nat) : (applyUpd (.bankTarget k v) s).boot = s.boot := rfl
@[simp] theorem bankTarget_upd_load (s : State) (k : Nat) (v : Nat) : (applyUpd (.bankTarget k v) s).load = s.load := rfl
@[simp] theorem bankTarget_upd_flt (s : State) (k : Nat) (v : Nat) : (applyUpd (.bankTarget k v) s).flt = s.flt := rfl
@[simp] theorem bankTarget_upd_mon (s : State) (k : Nat) (v : Nat) : (applyUpd (.bankTarget k v) s).mon = s.mon := rfl
@[simp] theorem ecc_upd_pending (s : State) (k : Nat) (v : Nat) : (applyUpd (.ecc k v) s).pending = s.pending := rfl
@[simp] theorem ecc_upd_regs (s : State) (k : Nat) (v : Nat) : (applyUpd (.ecc k v) s).regs = s.regs := rfl
@[simp] theorem ecc_upd_mem (s : State) (k : Nat) (v : Nat) : (applyUpd (.ecc k v) s).mem = s.mem := rfl
@[simp] theorem ecc_upd_sram (s : State) (k : Nat) (v : Nat) : (applyUpd (.ecc k v) s).sram = s.sram := rfl
@[simp] theorem ecc_upd_time (s : State) (k : Nat) (v : Nat) : (applyUpd (.ecc k v) s).time = s.time := rfl
@[simp] theorem ecc_upd_timeFrac (s : State) (k : Nat) (v : Nat) : (applyUpd (.ecc k v) s).timeFrac = s.timeFrac := rfl
@[simp] theorem ecc_upd_freeCtr (s : State) (k : Nat) (v : Nat) : (applyUpd (.ecc k v) s).freeCtr = s.freeCtr := rfl
@[simp] theorem ecc_upd_hiLatch (s : State) (k : Nat) (v : Nat) : (applyUpd (.ecc k v) s).hiLatch = s.hiLatch := rfl
@[simp] theorem ecc_upd_timeSet (s : State) (k : Nat) (v : Nat) : (applyUpd (.ecc k v) s).timeSet = s.timeSet := rfl
@[simp] theorem ecc_upd_n0 (s : State) (k : Nat) (v : Nat) : (applyUpd (.ecc k v) s).n0 = s.n0 := rfl
@[simp] theorem ecc_upd_ticked (s : State) (k : Nat) (v : Nat) : (applyUpd (.ecc k v) s).ticked = s.ticked := rfl
@[simp] theorem ecc_upd_peerTickAt (s : State) (k : Nat) (v : Nat) : (applyUpd (.ecc k v) s).peerTickAt = s.peerTickAt := rfl
@[simp] theorem ecc_upd_guardPitch (s : State) (k : Nat) (v : Nat) : (applyUpd (.ecc k v) s).guardPitch = s.guardPitch := rfl
@[simp] theorem ecc_upd_diePitch (s : State) (k : Nat) (v : Nat) : (applyUpd (.ecc k v) s).diePitch = s.diePitch := rfl
@[simp] theorem ecc_upd_resps (s : State) (k : Nat) (v : Nat) : (applyUpd (.ecc k v) s).resps = s.resps := rfl
@[simp] theorem ecc_upd_txns (s : State) (k : Nat) (v : Nat) : (applyUpd (.ecc k v) s).txns = s.txns := rfl
@[simp] theorem ecc_upd_nextTag (s : State) (k : Nat) (v : Nat) : (applyUpd (.ecc k v) s).nextTag = s.nextTag := rfl
@[simp] theorem ecc_upd_lateTags (s : State) (k : Nat) (v : Nat) : (applyUpd (.ecc k v) s).lateTags = s.lateTags := rfl
@[simp] theorem ecc_upd_ports (s : State) (k : Nat) (v : Nat) : (applyUpd (.ecc k v) s).ports = s.ports := rfl
@[simp] theorem ecc_upd_threads (s : State) (k : Nat) (v : Nat) : (applyUpd (.ecc k v) s).threads = s.threads := rfl
@[simp] theorem ecc_upd_cores (s : State) (k : Nat) (v : Nat) : (applyUpd (.ecc k v) s).cores = s.cores := rfl
@[simp] theorem ecc_upd_engines (s : State) (k : Nat) (v : Nat) : (applyUpd (.ecc k v) s).engines = s.engines := rfl
@[simp] theorem ecc_upd_held (s : State) (k : Nat) (v : Nat) : (applyUpd (.ecc k v) s).held = s.held := rfl
@[simp] theorem ecc_upd_watches (s : State) (k : Nat) (v : Nat) : (applyUpd (.ecc k v) s).watches = s.watches := rfl
@[simp] theorem ecc_upd_watchMsgs (s : State) (k : Nat) (v : Nat) : (applyUpd (.ecc k v) s).watchMsgs = s.watchMsgs := rfl
@[simp] theorem ecc_upd_bankHeld (s : State) (k : Nat) (v : Nat) : (applyUpd (.ecc k v) s).bankHeld = s.bankHeld := rfl
@[simp] theorem ecc_upd_bankTarget (s : State) (k : Nat) (v : Nat) : (applyUpd (.ecc k v) s).bankTarget = s.bankTarget := rfl
@[simp] theorem ecc_upd_ecc (s : State) (k : Nat) (v : Nat) : (applyUpd (.ecc k v) s).ecc = tabSet zeroNat s.ecc k v := rfl
@[simp] theorem ecc_upd_lineEcc (s : State) (k : Nat) (v : Nat) : (applyUpd (.ecc k v) s).lineEcc = s.lineEcc := rfl
@[simp] theorem ecc_upd_wbPending (s : State) (k : Nat) (v : Nat) : (applyUpd (.ecc k v) s).wbPending = s.wbPending := rfl
@[simp] theorem ecc_upd_scrubPos (s : State) (k : Nat) (v : Nat) : (applyUpd (.ecc k v) s).scrubPos = s.scrubPos := rfl
@[simp] theorem ecc_upd_refusals (s : State) (k : Nat) (v : Nat) : (applyUpd (.ecc k v) s).refusals = s.refusals := rfl
@[simp] theorem ecc_upd_firstRefusal (s : State) (k : Nat) (v : Nat) : (applyUpd (.ecc k v) s).firstRefusal = s.firstRefusal := rfl
@[simp] theorem ecc_upd_boxQueue (s : State) (k : Nat) (v : Nat) : (applyUpd (.ecc k v) s).boxQueue = s.boxQueue := rfl
@[simp] theorem ecc_upd_boxRun (s : State) (k : Nat) (v : Nat) : (applyUpd (.ecc k v) s).boxRun = s.boxRun := rfl
@[simp] theorem ecc_upd_kvs (s : State) (k : Nat) (v : Nat) : (applyUpd (.ecc k v) s).kvs = s.kvs := rfl
@[simp] theorem ecc_upd_parts (s : State) (k : Nat) (v : Nat) : (applyUpd (.ecc k v) s).parts = s.parts := rfl
@[simp] theorem ecc_upd_dmas (s : State) (k : Nat) (v : Nat) : (applyUpd (.ecc k v) s).dmas = s.dmas := rfl
@[simp] theorem ecc_upd_regReqs (s : State) (k : Nat) (v : Nat) : (applyUpd (.ecc k v) s).regReqs = s.regReqs := rfl
@[simp] theorem ecc_upd_regPorts (s : State) (k : Nat) (v : Nat) : (applyUpd (.ecc k v) s).regPorts = s.regPorts := rfl
@[simp] theorem ecc_upd_subchs (s : State) (k : Nat) (v : Nat) : (applyUpd (.ecc k v) s).subchs = s.subchs := rfl
@[simp] theorem ecc_upd_trackers (s : State) (k : Nat) (v : Nat) : (applyUpd (.ecc k v) s).trackers = s.trackers := rfl
@[simp] theorem ecc_upd_throttles (s : State) (k : Nat) (v : Nat) : (applyUpd (.ecc k v) s).throttles = s.throttles := rfl
@[simp] theorem ecc_upd_errRing (s : State) (k : Nat) (v : Nat) : (applyUpd (.ecc k v) s).errRing = s.errRing := rfl
@[simp] theorem ecc_upd_errRingOvf (s : State) (k : Nat) (v : Nat) : (applyUpd (.ecc k v) s).errRingOvf = s.errRingOvf := rfl
@[simp] theorem ecc_upd_patrolLine (s : State) (k : Nat) (v : Nat) : (applyUpd (.ecc k v) s).patrolLine = s.patrolLine := rfl
@[simp] theorem ecc_upd_retTimes (s : State) (k : Nat) (v : Nat) : (applyUpd (.ecc k v) s).retTimes = s.retTimes := rfl
@[simp] theorem ecc_upd_retired (s : State) (k : Nat) (v : Nat) : (applyUpd (.ecc k v) s).retired = s.retired := rfl
@[simp] theorem ecc_upd_dramSeq (s : State) (k : Nat) (v : Nat) : (applyUpd (.ecc k v) s).dramSeq = s.dramSeq := rfl
@[simp] theorem ecc_upd_trn (s : State) (k : Nat) (v : Nat) : (applyUpd (.ecc k v) s).trn = s.trn := rfl
@[simp] theorem ecc_upd_dqsAdj (s : State) (k : Nat) (v : Nat) : (applyUpd (.ecc k v) s).dqsAdj = s.dqsAdj := rfl
@[simp] theorem ecc_upd_dpol (s : State) (k : Nat) (v : Nat) : (applyUpd (.ecc k v) s).dpol = s.dpol := rfl
@[simp] theorem ecc_upd_idleAt (s : State) (k : Nat) (v : Nat) : (applyUpd (.ecc k v) s).idleAt = s.idleAt := rfl
@[simp] theorem ecc_upd_fitted (s : State) (k : Nat) (v : Nat) : (applyUpd (.ecc k v) s).fitted = s.fitted := rfl
@[simp] theorem ecc_upd_faultMsgs (s : State) (k : Nat) (v : Nat) : (applyUpd (.ecc k v) s).faultMsgs = s.faultMsgs := rfl
@[simp] theorem ecc_upd_out (s : State) (k : Nat) (v : Nat) : (applyUpd (.ecc k v) s).out = s.out := rfl
@[simp] theorem ecc_upd_lastRead (s : State) (k : Nat) (v : Nat) : (applyUpd (.ecc k v) s).lastRead = s.lastRead := rfl
@[simp] theorem ecc_upd_fwd (s : State) (k : Nat) (v : Nat) : (applyUpd (.ecc k v) s).fwd = s.fwd := rfl
@[simp] theorem ecc_upd_ethTx (s : State) (k : Nat) (v : Nat) : (applyUpd (.ecc k v) s).ethTx = s.ethTx := rfl
@[simp] theorem ecc_upd_ethHeadAt (s : State) (k : Nat) (v : Nat) : (applyUpd (.ecc k v) s).ethHeadAt = s.ethHeadAt := rfl
@[simp] theorem ecc_upd_canTx (s : State) (k : Nat) (v : Nat) : (applyUpd (.ecc k v) s).canTx = s.canTx := rfl
@[simp] theorem ecc_upd_pcieOut (s : State) (k : Nat) (v : Nat) : (applyUpd (.ecc k v) s).pcieOut = s.pcieOut := rfl
@[simp] theorem ecc_upd_pcieCfgRd (s : State) (k : Nat) (v : Nat) : (applyUpd (.ecc k v) s).pcieCfgRd = s.pcieCfgRd := rfl
@[simp] theorem ecc_upd_msix (s : State) (k : Nat) (v : Nat) : (applyUpd (.ecc k v) s).msix = s.msix := rfl
@[simp] theorem ecc_upd_ancs (s : State) (k : Nat) (v : Nat) : (applyUpd (.ecc k v) s).ancs = s.ancs := rfl
@[simp] theorem ecc_upd_trajArea (s : State) (k : Nat) (v : Nat) : (applyUpd (.ecc k v) s).trajArea = s.trajArea := rfl
@[simp] theorem ecc_upd_lidarIn (s : State) (k : Nat) (v : Nat) : (applyUpd (.ecc k v) s).lidarIn = s.lidarIn := rfl
@[simp] theorem ecc_upd_wheelIn (s : State) (k : Nat) (v : Nat) : (applyUpd (.ecc k v) s).wheelIn = s.wheelIn := rfl
@[simp] theorem ecc_upd_spiStepBusy (s : State) (k : Nat) (v : Nat) : (applyUpd (.ecc k v) s).spiStepBusy = s.spiStepBusy := rfl
@[simp] theorem ecc_upd_spiRec (s : State) (k : Nat) (v : Nat) : (applyUpd (.ecc k v) s).spiRec = s.spiRec := rfl
@[simp] theorem ecc_upd_spiStepCfg (s : State) (k : Nat) (v : Nat) : (applyUpd (.ecc k v) s).spiStepCfg = s.spiStepCfg := rfl
@[simp] theorem ecc_upd_ctxs (s : State) (k : Nat) (v : Nat) : (applyUpd (.ecc k v) s).ctxs = s.ctxs := rfl
@[simp] theorem ecc_upd_fsyOmit (s : State) (k : Nat) (v : Nat) : (applyUpd (.ecc k v) s).fsyOmit = s.fsyOmit := rfl
@[simp] theorem ecc_upd_fsyPulsed (s : State) (k : Nat) (v : Nat) : (applyUpd (.ecc k v) s).fsyPulsed = s.fsyPulsed := rfl
@[simp] theorem ecc_upd_supTasks (s : State) (k : Nat) (v : Nat) : (applyUpd (.ecc k v) s).supTasks = s.supTasks := rfl
@[simp] theorem ecc_upd_fus (s : State) (k : Nat) (v : Nat) : (applyUpd (.ecc k v) s).fus = s.fus := rfl
@[simp] theorem ecc_upd_fcons (s : State) (k : Nat) (v : Nat) : (applyUpd (.ecc k v) s).fcons = s.fcons := rfl
@[simp] theorem ecc_upd_shadow (s : State) (k : Nat) (v : Nat) : (applyUpd (.ecc k v) s).shadow = s.shadow := rfl
@[simp] theorem ecc_upd_trv (s : State) (k : Nat) (v : Nat) : (applyUpd (.ecc k v) s).trv = s.trv := rfl
@[simp] theorem ecc_upd_tlayers (s : State) (k : Nat) (v : Nat) : (applyUpd (.ecc k v) s).tlayers = s.tlayers := rfl
@[simp] theorem ecc_upd_jobFaults (s : State) (k : Nat) (v : Nat) : (applyUpd (.ecc k v) s).jobFaults = s.jobFaults := rfl
@[simp] theorem ecc_upd_unitLast (s : State) (k : Nat) (v : Nat) : (applyUpd (.ecc k v) s).unitLast = s.unitLast := rfl
@[simp] theorem ecc_upd_unitRst (s : State) (k : Nat) (v : Nat) : (applyUpd (.ecc k v) s).unitRst = s.unitRst := rfl
@[simp] theorem ecc_upd_xlink (s : State) (k : Nat) (v : Nat) : (applyUpd (.ecc k v) s).xlink = s.xlink := rfl
@[simp] theorem ecc_upd_trace (s : State) (k : Nat) (v : Nat) : (applyUpd (.ecc k v) s).trace = s.trace := rfl
@[simp] theorem ecc_upd_progs (s : State) (k : Nat) (v : Nat) : (applyUpd (.ecc k v) s).progs = s.progs := rfl
@[simp] theorem ecc_upd_rails (s : State) (k : Nat) (v : Nat) : (applyUpd (.ecc k v) s).rails = s.rails := rfl
@[simp] theorem ecc_upd_thm (s : State) (k : Nat) (v : Nat) : (applyUpd (.ecc k v) s).thm = s.thm := rfl
@[simp] theorem ecc_upd_bnd (s : State) (k : Nat) (v : Nat) : (applyUpd (.ecc k v) s).bnd = s.bnd := rfl
@[simp] theorem ecc_upd_thmTrip (s : State) (k : Nat) (v : Nat) : (applyUpd (.ecc k v) s).thmTrip = s.thmTrip := rfl
@[simp] theorem ecc_upd_flash (s : State) (k : Nat) (v : Nat) : (applyUpd (.ecc k v) s).flash = s.flash := rfl
@[simp] theorem ecc_upd_slots (s : State) (k : Nat) (v : Nat) : (applyUpd (.ecc k v) s).slots = s.slots := rfl
@[simp] theorem ecc_upd_stores (s : State) (k : Nat) (v : Nat) : (applyUpd (.ecc k v) s).stores = s.stores := rfl
@[simp] theorem ecc_upd_ids (s : State) (k : Nat) (v : Nat) : (applyUpd (.ecc k v) s).ids = s.ids := rfl
@[simp] theorem ecc_upd_boot (s : State) (k : Nat) (v : Nat) : (applyUpd (.ecc k v) s).boot = s.boot := rfl
@[simp] theorem ecc_upd_load (s : State) (k : Nat) (v : Nat) : (applyUpd (.ecc k v) s).load = s.load := rfl
@[simp] theorem ecc_upd_flt (s : State) (k : Nat) (v : Nat) : (applyUpd (.ecc k v) s).flt = s.flt := rfl
@[simp] theorem ecc_upd_mon (s : State) (k : Nat) (v : Nat) : (applyUpd (.ecc k v) s).mon = s.mon := rfl
@[simp] theorem lineEcc_upd_pending (s : State) (k : Nat) (v : Nat) : (applyUpd (.lineEcc k v) s).pending = s.pending := rfl
@[simp] theorem lineEcc_upd_regs (s : State) (k : Nat) (v : Nat) : (applyUpd (.lineEcc k v) s).regs = s.regs := rfl
@[simp] theorem lineEcc_upd_mem (s : State) (k : Nat) (v : Nat) : (applyUpd (.lineEcc k v) s).mem = s.mem := rfl
@[simp] theorem lineEcc_upd_sram (s : State) (k : Nat) (v : Nat) : (applyUpd (.lineEcc k v) s).sram = s.sram := rfl
@[simp] theorem lineEcc_upd_time (s : State) (k : Nat) (v : Nat) : (applyUpd (.lineEcc k v) s).time = s.time := rfl
@[simp] theorem lineEcc_upd_timeFrac (s : State) (k : Nat) (v : Nat) : (applyUpd (.lineEcc k v) s).timeFrac = s.timeFrac := rfl
@[simp] theorem lineEcc_upd_freeCtr (s : State) (k : Nat) (v : Nat) : (applyUpd (.lineEcc k v) s).freeCtr = s.freeCtr := rfl
@[simp] theorem lineEcc_upd_hiLatch (s : State) (k : Nat) (v : Nat) : (applyUpd (.lineEcc k v) s).hiLatch = s.hiLatch := rfl
@[simp] theorem lineEcc_upd_timeSet (s : State) (k : Nat) (v : Nat) : (applyUpd (.lineEcc k v) s).timeSet = s.timeSet := rfl
@[simp] theorem lineEcc_upd_n0 (s : State) (k : Nat) (v : Nat) : (applyUpd (.lineEcc k v) s).n0 = s.n0 := rfl
@[simp] theorem lineEcc_upd_ticked (s : State) (k : Nat) (v : Nat) : (applyUpd (.lineEcc k v) s).ticked = s.ticked := rfl
@[simp] theorem lineEcc_upd_peerTickAt (s : State) (k : Nat) (v : Nat) : (applyUpd (.lineEcc k v) s).peerTickAt = s.peerTickAt := rfl
@[simp] theorem lineEcc_upd_guardPitch (s : State) (k : Nat) (v : Nat) : (applyUpd (.lineEcc k v) s).guardPitch = s.guardPitch := rfl
@[simp] theorem lineEcc_upd_diePitch (s : State) (k : Nat) (v : Nat) : (applyUpd (.lineEcc k v) s).diePitch = s.diePitch := rfl
@[simp] theorem lineEcc_upd_resps (s : State) (k : Nat) (v : Nat) : (applyUpd (.lineEcc k v) s).resps = s.resps := rfl
@[simp] theorem lineEcc_upd_txns (s : State) (k : Nat) (v : Nat) : (applyUpd (.lineEcc k v) s).txns = s.txns := rfl
@[simp] theorem lineEcc_upd_nextTag (s : State) (k : Nat) (v : Nat) : (applyUpd (.lineEcc k v) s).nextTag = s.nextTag := rfl
@[simp] theorem lineEcc_upd_lateTags (s : State) (k : Nat) (v : Nat) : (applyUpd (.lineEcc k v) s).lateTags = s.lateTags := rfl
@[simp] theorem lineEcc_upd_ports (s : State) (k : Nat) (v : Nat) : (applyUpd (.lineEcc k v) s).ports = s.ports := rfl
@[simp] theorem lineEcc_upd_threads (s : State) (k : Nat) (v : Nat) : (applyUpd (.lineEcc k v) s).threads = s.threads := rfl
@[simp] theorem lineEcc_upd_cores (s : State) (k : Nat) (v : Nat) : (applyUpd (.lineEcc k v) s).cores = s.cores := rfl
@[simp] theorem lineEcc_upd_engines (s : State) (k : Nat) (v : Nat) : (applyUpd (.lineEcc k v) s).engines = s.engines := rfl
@[simp] theorem lineEcc_upd_held (s : State) (k : Nat) (v : Nat) : (applyUpd (.lineEcc k v) s).held = s.held := rfl
@[simp] theorem lineEcc_upd_watches (s : State) (k : Nat) (v : Nat) : (applyUpd (.lineEcc k v) s).watches = s.watches := rfl
@[simp] theorem lineEcc_upd_watchMsgs (s : State) (k : Nat) (v : Nat) : (applyUpd (.lineEcc k v) s).watchMsgs = s.watchMsgs := rfl
@[simp] theorem lineEcc_upd_bankHeld (s : State) (k : Nat) (v : Nat) : (applyUpd (.lineEcc k v) s).bankHeld = s.bankHeld := rfl
@[simp] theorem lineEcc_upd_bankTarget (s : State) (k : Nat) (v : Nat) : (applyUpd (.lineEcc k v) s).bankTarget = s.bankTarget := rfl
@[simp] theorem lineEcc_upd_ecc (s : State) (k : Nat) (v : Nat) : (applyUpd (.lineEcc k v) s).ecc = s.ecc := rfl
@[simp] theorem lineEcc_upd_lineEcc (s : State) (k : Nat) (v : Nat) : (applyUpd (.lineEcc k v) s).lineEcc = tabSet zeroNat s.lineEcc k v := rfl
@[simp] theorem lineEcc_upd_wbPending (s : State) (k : Nat) (v : Nat) : (applyUpd (.lineEcc k v) s).wbPending = s.wbPending := rfl
@[simp] theorem lineEcc_upd_scrubPos (s : State) (k : Nat) (v : Nat) : (applyUpd (.lineEcc k v) s).scrubPos = s.scrubPos := rfl
@[simp] theorem lineEcc_upd_refusals (s : State) (k : Nat) (v : Nat) : (applyUpd (.lineEcc k v) s).refusals = s.refusals := rfl
@[simp] theorem lineEcc_upd_firstRefusal (s : State) (k : Nat) (v : Nat) : (applyUpd (.lineEcc k v) s).firstRefusal = s.firstRefusal := rfl
@[simp] theorem lineEcc_upd_boxQueue (s : State) (k : Nat) (v : Nat) : (applyUpd (.lineEcc k v) s).boxQueue = s.boxQueue := rfl
@[simp] theorem lineEcc_upd_boxRun (s : State) (k : Nat) (v : Nat) : (applyUpd (.lineEcc k v) s).boxRun = s.boxRun := rfl
@[simp] theorem lineEcc_upd_kvs (s : State) (k : Nat) (v : Nat) : (applyUpd (.lineEcc k v) s).kvs = s.kvs := rfl
@[simp] theorem lineEcc_upd_parts (s : State) (k : Nat) (v : Nat) : (applyUpd (.lineEcc k v) s).parts = s.parts := rfl
@[simp] theorem lineEcc_upd_dmas (s : State) (k : Nat) (v : Nat) : (applyUpd (.lineEcc k v) s).dmas = s.dmas := rfl
@[simp] theorem lineEcc_upd_regReqs (s : State) (k : Nat) (v : Nat) : (applyUpd (.lineEcc k v) s).regReqs = s.regReqs := rfl
@[simp] theorem lineEcc_upd_regPorts (s : State) (k : Nat) (v : Nat) : (applyUpd (.lineEcc k v) s).regPorts = s.regPorts := rfl
@[simp] theorem lineEcc_upd_subchs (s : State) (k : Nat) (v : Nat) : (applyUpd (.lineEcc k v) s).subchs = s.subchs := rfl
@[simp] theorem lineEcc_upd_trackers (s : State) (k : Nat) (v : Nat) : (applyUpd (.lineEcc k v) s).trackers = s.trackers := rfl
@[simp] theorem lineEcc_upd_throttles (s : State) (k : Nat) (v : Nat) : (applyUpd (.lineEcc k v) s).throttles = s.throttles := rfl
@[simp] theorem lineEcc_upd_errRing (s : State) (k : Nat) (v : Nat) : (applyUpd (.lineEcc k v) s).errRing = s.errRing := rfl
@[simp] theorem lineEcc_upd_errRingOvf (s : State) (k : Nat) (v : Nat) : (applyUpd (.lineEcc k v) s).errRingOvf = s.errRingOvf := rfl
@[simp] theorem lineEcc_upd_patrolLine (s : State) (k : Nat) (v : Nat) : (applyUpd (.lineEcc k v) s).patrolLine = s.patrolLine := rfl
@[simp] theorem lineEcc_upd_retTimes (s : State) (k : Nat) (v : Nat) : (applyUpd (.lineEcc k v) s).retTimes = s.retTimes := rfl
@[simp] theorem lineEcc_upd_retired (s : State) (k : Nat) (v : Nat) : (applyUpd (.lineEcc k v) s).retired = s.retired := rfl
@[simp] theorem lineEcc_upd_dramSeq (s : State) (k : Nat) (v : Nat) : (applyUpd (.lineEcc k v) s).dramSeq = s.dramSeq := rfl
@[simp] theorem lineEcc_upd_trn (s : State) (k : Nat) (v : Nat) : (applyUpd (.lineEcc k v) s).trn = s.trn := rfl
@[simp] theorem lineEcc_upd_dqsAdj (s : State) (k : Nat) (v : Nat) : (applyUpd (.lineEcc k v) s).dqsAdj = s.dqsAdj := rfl
@[simp] theorem lineEcc_upd_dpol (s : State) (k : Nat) (v : Nat) : (applyUpd (.lineEcc k v) s).dpol = s.dpol := rfl
@[simp] theorem lineEcc_upd_idleAt (s : State) (k : Nat) (v : Nat) : (applyUpd (.lineEcc k v) s).idleAt = s.idleAt := rfl
@[simp] theorem lineEcc_upd_fitted (s : State) (k : Nat) (v : Nat) : (applyUpd (.lineEcc k v) s).fitted = s.fitted := rfl
@[simp] theorem lineEcc_upd_faultMsgs (s : State) (k : Nat) (v : Nat) : (applyUpd (.lineEcc k v) s).faultMsgs = s.faultMsgs := rfl
@[simp] theorem lineEcc_upd_out (s : State) (k : Nat) (v : Nat) : (applyUpd (.lineEcc k v) s).out = s.out := rfl
@[simp] theorem lineEcc_upd_lastRead (s : State) (k : Nat) (v : Nat) : (applyUpd (.lineEcc k v) s).lastRead = s.lastRead := rfl
@[simp] theorem lineEcc_upd_fwd (s : State) (k : Nat) (v : Nat) : (applyUpd (.lineEcc k v) s).fwd = s.fwd := rfl
@[simp] theorem lineEcc_upd_ethTx (s : State) (k : Nat) (v : Nat) : (applyUpd (.lineEcc k v) s).ethTx = s.ethTx := rfl
@[simp] theorem lineEcc_upd_ethHeadAt (s : State) (k : Nat) (v : Nat) : (applyUpd (.lineEcc k v) s).ethHeadAt = s.ethHeadAt := rfl
@[simp] theorem lineEcc_upd_canTx (s : State) (k : Nat) (v : Nat) : (applyUpd (.lineEcc k v) s).canTx = s.canTx := rfl
@[simp] theorem lineEcc_upd_pcieOut (s : State) (k : Nat) (v : Nat) : (applyUpd (.lineEcc k v) s).pcieOut = s.pcieOut := rfl
@[simp] theorem lineEcc_upd_pcieCfgRd (s : State) (k : Nat) (v : Nat) : (applyUpd (.lineEcc k v) s).pcieCfgRd = s.pcieCfgRd := rfl
@[simp] theorem lineEcc_upd_msix (s : State) (k : Nat) (v : Nat) : (applyUpd (.lineEcc k v) s).msix = s.msix := rfl
@[simp] theorem lineEcc_upd_ancs (s : State) (k : Nat) (v : Nat) : (applyUpd (.lineEcc k v) s).ancs = s.ancs := rfl
@[simp] theorem lineEcc_upd_trajArea (s : State) (k : Nat) (v : Nat) : (applyUpd (.lineEcc k v) s).trajArea = s.trajArea := rfl
@[simp] theorem lineEcc_upd_lidarIn (s : State) (k : Nat) (v : Nat) : (applyUpd (.lineEcc k v) s).lidarIn = s.lidarIn := rfl
@[simp] theorem lineEcc_upd_wheelIn (s : State) (k : Nat) (v : Nat) : (applyUpd (.lineEcc k v) s).wheelIn = s.wheelIn := rfl
@[simp] theorem lineEcc_upd_spiStepBusy (s : State) (k : Nat) (v : Nat) : (applyUpd (.lineEcc k v) s).spiStepBusy = s.spiStepBusy := rfl
@[simp] theorem lineEcc_upd_spiRec (s : State) (k : Nat) (v : Nat) : (applyUpd (.lineEcc k v) s).spiRec = s.spiRec := rfl
@[simp] theorem lineEcc_upd_spiStepCfg (s : State) (k : Nat) (v : Nat) : (applyUpd (.lineEcc k v) s).spiStepCfg = s.spiStepCfg := rfl
@[simp] theorem lineEcc_upd_ctxs (s : State) (k : Nat) (v : Nat) : (applyUpd (.lineEcc k v) s).ctxs = s.ctxs := rfl
@[simp] theorem lineEcc_upd_fsyOmit (s : State) (k : Nat) (v : Nat) : (applyUpd (.lineEcc k v) s).fsyOmit = s.fsyOmit := rfl
@[simp] theorem lineEcc_upd_fsyPulsed (s : State) (k : Nat) (v : Nat) : (applyUpd (.lineEcc k v) s).fsyPulsed = s.fsyPulsed := rfl
@[simp] theorem lineEcc_upd_supTasks (s : State) (k : Nat) (v : Nat) : (applyUpd (.lineEcc k v) s).supTasks = s.supTasks := rfl
@[simp] theorem lineEcc_upd_fus (s : State) (k : Nat) (v : Nat) : (applyUpd (.lineEcc k v) s).fus = s.fus := rfl
@[simp] theorem lineEcc_upd_fcons (s : State) (k : Nat) (v : Nat) : (applyUpd (.lineEcc k v) s).fcons = s.fcons := rfl
@[simp] theorem lineEcc_upd_shadow (s : State) (k : Nat) (v : Nat) : (applyUpd (.lineEcc k v) s).shadow = s.shadow := rfl
@[simp] theorem lineEcc_upd_trv (s : State) (k : Nat) (v : Nat) : (applyUpd (.lineEcc k v) s).trv = s.trv := rfl
@[simp] theorem lineEcc_upd_tlayers (s : State) (k : Nat) (v : Nat) : (applyUpd (.lineEcc k v) s).tlayers = s.tlayers := rfl
@[simp] theorem lineEcc_upd_jobFaults (s : State) (k : Nat) (v : Nat) : (applyUpd (.lineEcc k v) s).jobFaults = s.jobFaults := rfl
@[simp] theorem lineEcc_upd_unitLast (s : State) (k : Nat) (v : Nat) : (applyUpd (.lineEcc k v) s).unitLast = s.unitLast := rfl
@[simp] theorem lineEcc_upd_unitRst (s : State) (k : Nat) (v : Nat) : (applyUpd (.lineEcc k v) s).unitRst = s.unitRst := rfl
@[simp] theorem lineEcc_upd_xlink (s : State) (k : Nat) (v : Nat) : (applyUpd (.lineEcc k v) s).xlink = s.xlink := rfl
@[simp] theorem lineEcc_upd_trace (s : State) (k : Nat) (v : Nat) : (applyUpd (.lineEcc k v) s).trace = s.trace := rfl
@[simp] theorem lineEcc_upd_progs (s : State) (k : Nat) (v : Nat) : (applyUpd (.lineEcc k v) s).progs = s.progs := rfl
@[simp] theorem lineEcc_upd_rails (s : State) (k : Nat) (v : Nat) : (applyUpd (.lineEcc k v) s).rails = s.rails := rfl
@[simp] theorem lineEcc_upd_thm (s : State) (k : Nat) (v : Nat) : (applyUpd (.lineEcc k v) s).thm = s.thm := rfl
@[simp] theorem lineEcc_upd_bnd (s : State) (k : Nat) (v : Nat) : (applyUpd (.lineEcc k v) s).bnd = s.bnd := rfl
@[simp] theorem lineEcc_upd_thmTrip (s : State) (k : Nat) (v : Nat) : (applyUpd (.lineEcc k v) s).thmTrip = s.thmTrip := rfl
@[simp] theorem lineEcc_upd_flash (s : State) (k : Nat) (v : Nat) : (applyUpd (.lineEcc k v) s).flash = s.flash := rfl
@[simp] theorem lineEcc_upd_slots (s : State) (k : Nat) (v : Nat) : (applyUpd (.lineEcc k v) s).slots = s.slots := rfl
@[simp] theorem lineEcc_upd_stores (s : State) (k : Nat) (v : Nat) : (applyUpd (.lineEcc k v) s).stores = s.stores := rfl
@[simp] theorem lineEcc_upd_ids (s : State) (k : Nat) (v : Nat) : (applyUpd (.lineEcc k v) s).ids = s.ids := rfl
@[simp] theorem lineEcc_upd_boot (s : State) (k : Nat) (v : Nat) : (applyUpd (.lineEcc k v) s).boot = s.boot := rfl
@[simp] theorem lineEcc_upd_load (s : State) (k : Nat) (v : Nat) : (applyUpd (.lineEcc k v) s).load = s.load := rfl
@[simp] theorem lineEcc_upd_flt (s : State) (k : Nat) (v : Nat) : (applyUpd (.lineEcc k v) s).flt = s.flt := rfl
@[simp] theorem lineEcc_upd_mon (s : State) (k : Nat) (v : Nat) : (applyUpd (.lineEcc k v) s).mon = s.mon := rfl
@[simp] theorem wbPending_upd_pending (s : State) (v : List Nat) : (applyUpd (.wbPending v) s).pending = s.pending := rfl
@[simp] theorem wbPending_upd_regs (s : State) (v : List Nat) : (applyUpd (.wbPending v) s).regs = s.regs := rfl
@[simp] theorem wbPending_upd_mem (s : State) (v : List Nat) : (applyUpd (.wbPending v) s).mem = s.mem := rfl
@[simp] theorem wbPending_upd_sram (s : State) (v : List Nat) : (applyUpd (.wbPending v) s).sram = s.sram := rfl
@[simp] theorem wbPending_upd_time (s : State) (v : List Nat) : (applyUpd (.wbPending v) s).time = s.time := rfl
@[simp] theorem wbPending_upd_timeFrac (s : State) (v : List Nat) : (applyUpd (.wbPending v) s).timeFrac = s.timeFrac := rfl
@[simp] theorem wbPending_upd_freeCtr (s : State) (v : List Nat) : (applyUpd (.wbPending v) s).freeCtr = s.freeCtr := rfl
@[simp] theorem wbPending_upd_hiLatch (s : State) (v : List Nat) : (applyUpd (.wbPending v) s).hiLatch = s.hiLatch := rfl
@[simp] theorem wbPending_upd_timeSet (s : State) (v : List Nat) : (applyUpd (.wbPending v) s).timeSet = s.timeSet := rfl
@[simp] theorem wbPending_upd_n0 (s : State) (v : List Nat) : (applyUpd (.wbPending v) s).n0 = s.n0 := rfl
@[simp] theorem wbPending_upd_ticked (s : State) (v : List Nat) : (applyUpd (.wbPending v) s).ticked = s.ticked := rfl
@[simp] theorem wbPending_upd_peerTickAt (s : State) (v : List Nat) : (applyUpd (.wbPending v) s).peerTickAt = s.peerTickAt := rfl
@[simp] theorem wbPending_upd_guardPitch (s : State) (v : List Nat) : (applyUpd (.wbPending v) s).guardPitch = s.guardPitch := rfl
@[simp] theorem wbPending_upd_diePitch (s : State) (v : List Nat) : (applyUpd (.wbPending v) s).diePitch = s.diePitch := rfl
@[simp] theorem wbPending_upd_resps (s : State) (v : List Nat) : (applyUpd (.wbPending v) s).resps = s.resps := rfl
@[simp] theorem wbPending_upd_txns (s : State) (v : List Nat) : (applyUpd (.wbPending v) s).txns = s.txns := rfl
@[simp] theorem wbPending_upd_nextTag (s : State) (v : List Nat) : (applyUpd (.wbPending v) s).nextTag = s.nextTag := rfl
@[simp] theorem wbPending_upd_lateTags (s : State) (v : List Nat) : (applyUpd (.wbPending v) s).lateTags = s.lateTags := rfl
@[simp] theorem wbPending_upd_ports (s : State) (v : List Nat) : (applyUpd (.wbPending v) s).ports = s.ports := rfl
@[simp] theorem wbPending_upd_threads (s : State) (v : List Nat) : (applyUpd (.wbPending v) s).threads = s.threads := rfl
@[simp] theorem wbPending_upd_cores (s : State) (v : List Nat) : (applyUpd (.wbPending v) s).cores = s.cores := rfl
@[simp] theorem wbPending_upd_engines (s : State) (v : List Nat) : (applyUpd (.wbPending v) s).engines = s.engines := rfl
@[simp] theorem wbPending_upd_held (s : State) (v : List Nat) : (applyUpd (.wbPending v) s).held = s.held := rfl
@[simp] theorem wbPending_upd_watches (s : State) (v : List Nat) : (applyUpd (.wbPending v) s).watches = s.watches := rfl
@[simp] theorem wbPending_upd_watchMsgs (s : State) (v : List Nat) : (applyUpd (.wbPending v) s).watchMsgs = s.watchMsgs := rfl
@[simp] theorem wbPending_upd_bankHeld (s : State) (v : List Nat) : (applyUpd (.wbPending v) s).bankHeld = s.bankHeld := rfl
@[simp] theorem wbPending_upd_bankTarget (s : State) (v : List Nat) : (applyUpd (.wbPending v) s).bankTarget = s.bankTarget := rfl
@[simp] theorem wbPending_upd_ecc (s : State) (v : List Nat) : (applyUpd (.wbPending v) s).ecc = s.ecc := rfl
@[simp] theorem wbPending_upd_lineEcc (s : State) (v : List Nat) : (applyUpd (.wbPending v) s).lineEcc = s.lineEcc := rfl
@[simp] theorem wbPending_upd_wbPending (s : State) (v : List Nat) : (applyUpd (.wbPending v) s).wbPending = v := rfl
@[simp] theorem wbPending_upd_scrubPos (s : State) (v : List Nat) : (applyUpd (.wbPending v) s).scrubPos = s.scrubPos := rfl
@[simp] theorem wbPending_upd_refusals (s : State) (v : List Nat) : (applyUpd (.wbPending v) s).refusals = s.refusals := rfl
@[simp] theorem wbPending_upd_firstRefusal (s : State) (v : List Nat) : (applyUpd (.wbPending v) s).firstRefusal = s.firstRefusal := rfl
@[simp] theorem wbPending_upd_boxQueue (s : State) (v : List Nat) : (applyUpd (.wbPending v) s).boxQueue = s.boxQueue := rfl
@[simp] theorem wbPending_upd_boxRun (s : State) (v : List Nat) : (applyUpd (.wbPending v) s).boxRun = s.boxRun := rfl
@[simp] theorem wbPending_upd_kvs (s : State) (v : List Nat) : (applyUpd (.wbPending v) s).kvs = s.kvs := rfl
@[simp] theorem wbPending_upd_parts (s : State) (v : List Nat) : (applyUpd (.wbPending v) s).parts = s.parts := rfl
@[simp] theorem wbPending_upd_dmas (s : State) (v : List Nat) : (applyUpd (.wbPending v) s).dmas = s.dmas := rfl
@[simp] theorem wbPending_upd_regReqs (s : State) (v : List Nat) : (applyUpd (.wbPending v) s).regReqs = s.regReqs := rfl
@[simp] theorem wbPending_upd_regPorts (s : State) (v : List Nat) : (applyUpd (.wbPending v) s).regPorts = s.regPorts := rfl
@[simp] theorem wbPending_upd_subchs (s : State) (v : List Nat) : (applyUpd (.wbPending v) s).subchs = s.subchs := rfl
@[simp] theorem wbPending_upd_trackers (s : State) (v : List Nat) : (applyUpd (.wbPending v) s).trackers = s.trackers := rfl
@[simp] theorem wbPending_upd_throttles (s : State) (v : List Nat) : (applyUpd (.wbPending v) s).throttles = s.throttles := rfl
@[simp] theorem wbPending_upd_errRing (s : State) (v : List Nat) : (applyUpd (.wbPending v) s).errRing = s.errRing := rfl
@[simp] theorem wbPending_upd_errRingOvf (s : State) (v : List Nat) : (applyUpd (.wbPending v) s).errRingOvf = s.errRingOvf := rfl
@[simp] theorem wbPending_upd_patrolLine (s : State) (v : List Nat) : (applyUpd (.wbPending v) s).patrolLine = s.patrolLine := rfl
@[simp] theorem wbPending_upd_retTimes (s : State) (v : List Nat) : (applyUpd (.wbPending v) s).retTimes = s.retTimes := rfl
@[simp] theorem wbPending_upd_retired (s : State) (v : List Nat) : (applyUpd (.wbPending v) s).retired = s.retired := rfl
@[simp] theorem wbPending_upd_dramSeq (s : State) (v : List Nat) : (applyUpd (.wbPending v) s).dramSeq = s.dramSeq := rfl
@[simp] theorem wbPending_upd_trn (s : State) (v : List Nat) : (applyUpd (.wbPending v) s).trn = s.trn := rfl
@[simp] theorem wbPending_upd_dqsAdj (s : State) (v : List Nat) : (applyUpd (.wbPending v) s).dqsAdj = s.dqsAdj := rfl
@[simp] theorem wbPending_upd_dpol (s : State) (v : List Nat) : (applyUpd (.wbPending v) s).dpol = s.dpol := rfl
@[simp] theorem wbPending_upd_idleAt (s : State) (v : List Nat) : (applyUpd (.wbPending v) s).idleAt = s.idleAt := rfl
@[simp] theorem wbPending_upd_fitted (s : State) (v : List Nat) : (applyUpd (.wbPending v) s).fitted = s.fitted := rfl
@[simp] theorem wbPending_upd_faultMsgs (s : State) (v : List Nat) : (applyUpd (.wbPending v) s).faultMsgs = s.faultMsgs := rfl
@[simp] theorem wbPending_upd_out (s : State) (v : List Nat) : (applyUpd (.wbPending v) s).out = s.out := rfl
@[simp] theorem wbPending_upd_lastRead (s : State) (v : List Nat) : (applyUpd (.wbPending v) s).lastRead = s.lastRead := rfl
@[simp] theorem wbPending_upd_fwd (s : State) (v : List Nat) : (applyUpd (.wbPending v) s).fwd = s.fwd := rfl
@[simp] theorem wbPending_upd_ethTx (s : State) (v : List Nat) : (applyUpd (.wbPending v) s).ethTx = s.ethTx := rfl
@[simp] theorem wbPending_upd_ethHeadAt (s : State) (v : List Nat) : (applyUpd (.wbPending v) s).ethHeadAt = s.ethHeadAt := rfl
@[simp] theorem wbPending_upd_canTx (s : State) (v : List Nat) : (applyUpd (.wbPending v) s).canTx = s.canTx := rfl
@[simp] theorem wbPending_upd_pcieOut (s : State) (v : List Nat) : (applyUpd (.wbPending v) s).pcieOut = s.pcieOut := rfl
@[simp] theorem wbPending_upd_pcieCfgRd (s : State) (v : List Nat) : (applyUpd (.wbPending v) s).pcieCfgRd = s.pcieCfgRd := rfl
@[simp] theorem wbPending_upd_msix (s : State) (v : List Nat) : (applyUpd (.wbPending v) s).msix = s.msix := rfl
@[simp] theorem wbPending_upd_ancs (s : State) (v : List Nat) : (applyUpd (.wbPending v) s).ancs = s.ancs := rfl
@[simp] theorem wbPending_upd_trajArea (s : State) (v : List Nat) : (applyUpd (.wbPending v) s).trajArea = s.trajArea := rfl
@[simp] theorem wbPending_upd_lidarIn (s : State) (v : List Nat) : (applyUpd (.wbPending v) s).lidarIn = s.lidarIn := rfl
@[simp] theorem wbPending_upd_wheelIn (s : State) (v : List Nat) : (applyUpd (.wbPending v) s).wheelIn = s.wheelIn := rfl
@[simp] theorem wbPending_upd_spiStepBusy (s : State) (v : List Nat) : (applyUpd (.wbPending v) s).spiStepBusy = s.spiStepBusy := rfl
@[simp] theorem wbPending_upd_spiRec (s : State) (v : List Nat) : (applyUpd (.wbPending v) s).spiRec = s.spiRec := rfl
@[simp] theorem wbPending_upd_spiStepCfg (s : State) (v : List Nat) : (applyUpd (.wbPending v) s).spiStepCfg = s.spiStepCfg := rfl
@[simp] theorem wbPending_upd_ctxs (s : State) (v : List Nat) : (applyUpd (.wbPending v) s).ctxs = s.ctxs := rfl
@[simp] theorem wbPending_upd_fsyOmit (s : State) (v : List Nat) : (applyUpd (.wbPending v) s).fsyOmit = s.fsyOmit := rfl
@[simp] theorem wbPending_upd_fsyPulsed (s : State) (v : List Nat) : (applyUpd (.wbPending v) s).fsyPulsed = s.fsyPulsed := rfl
@[simp] theorem wbPending_upd_supTasks (s : State) (v : List Nat) : (applyUpd (.wbPending v) s).supTasks = s.supTasks := rfl
@[simp] theorem wbPending_upd_fus (s : State) (v : List Nat) : (applyUpd (.wbPending v) s).fus = s.fus := rfl
@[simp] theorem wbPending_upd_fcons (s : State) (v : List Nat) : (applyUpd (.wbPending v) s).fcons = s.fcons := rfl
@[simp] theorem wbPending_upd_shadow (s : State) (v : List Nat) : (applyUpd (.wbPending v) s).shadow = s.shadow := rfl
@[simp] theorem wbPending_upd_trv (s : State) (v : List Nat) : (applyUpd (.wbPending v) s).trv = s.trv := rfl
@[simp] theorem wbPending_upd_tlayers (s : State) (v : List Nat) : (applyUpd (.wbPending v) s).tlayers = s.tlayers := rfl
@[simp] theorem wbPending_upd_jobFaults (s : State) (v : List Nat) : (applyUpd (.wbPending v) s).jobFaults = s.jobFaults := rfl
@[simp] theorem wbPending_upd_unitLast (s : State) (v : List Nat) : (applyUpd (.wbPending v) s).unitLast = s.unitLast := rfl
@[simp] theorem wbPending_upd_unitRst (s : State) (v : List Nat) : (applyUpd (.wbPending v) s).unitRst = s.unitRst := rfl
@[simp] theorem wbPending_upd_xlink (s : State) (v : List Nat) : (applyUpd (.wbPending v) s).xlink = s.xlink := rfl
@[simp] theorem wbPending_upd_trace (s : State) (v : List Nat) : (applyUpd (.wbPending v) s).trace = s.trace := rfl
@[simp] theorem wbPending_upd_progs (s : State) (v : List Nat) : (applyUpd (.wbPending v) s).progs = s.progs := rfl
@[simp] theorem wbPending_upd_rails (s : State) (v : List Nat) : (applyUpd (.wbPending v) s).rails = s.rails := rfl
@[simp] theorem wbPending_upd_thm (s : State) (v : List Nat) : (applyUpd (.wbPending v) s).thm = s.thm := rfl
@[simp] theorem wbPending_upd_bnd (s : State) (v : List Nat) : (applyUpd (.wbPending v) s).bnd = s.bnd := rfl
@[simp] theorem wbPending_upd_thmTrip (s : State) (v : List Nat) : (applyUpd (.wbPending v) s).thmTrip = s.thmTrip := rfl
@[simp] theorem wbPending_upd_flash (s : State) (v : List Nat) : (applyUpd (.wbPending v) s).flash = s.flash := rfl
@[simp] theorem wbPending_upd_slots (s : State) (v : List Nat) : (applyUpd (.wbPending v) s).slots = s.slots := rfl
@[simp] theorem wbPending_upd_stores (s : State) (v : List Nat) : (applyUpd (.wbPending v) s).stores = s.stores := rfl
@[simp] theorem wbPending_upd_ids (s : State) (v : List Nat) : (applyUpd (.wbPending v) s).ids = s.ids := rfl
@[simp] theorem wbPending_upd_boot (s : State) (v : List Nat) : (applyUpd (.wbPending v) s).boot = s.boot := rfl
@[simp] theorem wbPending_upd_load (s : State) (v : List Nat) : (applyUpd (.wbPending v) s).load = s.load := rfl
@[simp] theorem wbPending_upd_flt (s : State) (v : List Nat) : (applyUpd (.wbPending v) s).flt = s.flt := rfl
@[simp] theorem wbPending_upd_mon (s : State) (v : List Nat) : (applyUpd (.wbPending v) s).mon = s.mon := rfl
@[simp] theorem scrubPos_upd_pending (s : State) (k : Nat) (v : Nat) : (applyUpd (.scrubPos k v) s).pending = s.pending := rfl
@[simp] theorem scrubPos_upd_regs (s : State) (k : Nat) (v : Nat) : (applyUpd (.scrubPos k v) s).regs = s.regs := rfl
@[simp] theorem scrubPos_upd_mem (s : State) (k : Nat) (v : Nat) : (applyUpd (.scrubPos k v) s).mem = s.mem := rfl
@[simp] theorem scrubPos_upd_sram (s : State) (k : Nat) (v : Nat) : (applyUpd (.scrubPos k v) s).sram = s.sram := rfl
@[simp] theorem scrubPos_upd_time (s : State) (k : Nat) (v : Nat) : (applyUpd (.scrubPos k v) s).time = s.time := rfl
@[simp] theorem scrubPos_upd_timeFrac (s : State) (k : Nat) (v : Nat) : (applyUpd (.scrubPos k v) s).timeFrac = s.timeFrac := rfl
@[simp] theorem scrubPos_upd_freeCtr (s : State) (k : Nat) (v : Nat) : (applyUpd (.scrubPos k v) s).freeCtr = s.freeCtr := rfl
@[simp] theorem scrubPos_upd_hiLatch (s : State) (k : Nat) (v : Nat) : (applyUpd (.scrubPos k v) s).hiLatch = s.hiLatch := rfl
@[simp] theorem scrubPos_upd_timeSet (s : State) (k : Nat) (v : Nat) : (applyUpd (.scrubPos k v) s).timeSet = s.timeSet := rfl
@[simp] theorem scrubPos_upd_n0 (s : State) (k : Nat) (v : Nat) : (applyUpd (.scrubPos k v) s).n0 = s.n0 := rfl
@[simp] theorem scrubPos_upd_ticked (s : State) (k : Nat) (v : Nat) : (applyUpd (.scrubPos k v) s).ticked = s.ticked := rfl
@[simp] theorem scrubPos_upd_peerTickAt (s : State) (k : Nat) (v : Nat) : (applyUpd (.scrubPos k v) s).peerTickAt = s.peerTickAt := rfl
@[simp] theorem scrubPos_upd_guardPitch (s : State) (k : Nat) (v : Nat) : (applyUpd (.scrubPos k v) s).guardPitch = s.guardPitch := rfl
@[simp] theorem scrubPos_upd_diePitch (s : State) (k : Nat) (v : Nat) : (applyUpd (.scrubPos k v) s).diePitch = s.diePitch := rfl
@[simp] theorem scrubPos_upd_resps (s : State) (k : Nat) (v : Nat) : (applyUpd (.scrubPos k v) s).resps = s.resps := rfl
@[simp] theorem scrubPos_upd_txns (s : State) (k : Nat) (v : Nat) : (applyUpd (.scrubPos k v) s).txns = s.txns := rfl
@[simp] theorem scrubPos_upd_nextTag (s : State) (k : Nat) (v : Nat) : (applyUpd (.scrubPos k v) s).nextTag = s.nextTag := rfl
@[simp] theorem scrubPos_upd_lateTags (s : State) (k : Nat) (v : Nat) : (applyUpd (.scrubPos k v) s).lateTags = s.lateTags := rfl
@[simp] theorem scrubPos_upd_ports (s : State) (k : Nat) (v : Nat) : (applyUpd (.scrubPos k v) s).ports = s.ports := rfl
@[simp] theorem scrubPos_upd_threads (s : State) (k : Nat) (v : Nat) : (applyUpd (.scrubPos k v) s).threads = s.threads := rfl
@[simp] theorem scrubPos_upd_cores (s : State) (k : Nat) (v : Nat) : (applyUpd (.scrubPos k v) s).cores = s.cores := rfl
@[simp] theorem scrubPos_upd_engines (s : State) (k : Nat) (v : Nat) : (applyUpd (.scrubPos k v) s).engines = s.engines := rfl
@[simp] theorem scrubPos_upd_held (s : State) (k : Nat) (v : Nat) : (applyUpd (.scrubPos k v) s).held = s.held := rfl
@[simp] theorem scrubPos_upd_watches (s : State) (k : Nat) (v : Nat) : (applyUpd (.scrubPos k v) s).watches = s.watches := rfl
@[simp] theorem scrubPos_upd_watchMsgs (s : State) (k : Nat) (v : Nat) : (applyUpd (.scrubPos k v) s).watchMsgs = s.watchMsgs := rfl
@[simp] theorem scrubPos_upd_bankHeld (s : State) (k : Nat) (v : Nat) : (applyUpd (.scrubPos k v) s).bankHeld = s.bankHeld := rfl
@[simp] theorem scrubPos_upd_bankTarget (s : State) (k : Nat) (v : Nat) : (applyUpd (.scrubPos k v) s).bankTarget = s.bankTarget := rfl
@[simp] theorem scrubPos_upd_ecc (s : State) (k : Nat) (v : Nat) : (applyUpd (.scrubPos k v) s).ecc = s.ecc := rfl
@[simp] theorem scrubPos_upd_lineEcc (s : State) (k : Nat) (v : Nat) : (applyUpd (.scrubPos k v) s).lineEcc = s.lineEcc := rfl
@[simp] theorem scrubPos_upd_wbPending (s : State) (k : Nat) (v : Nat) : (applyUpd (.scrubPos k v) s).wbPending = s.wbPending := rfl
@[simp] theorem scrubPos_upd_scrubPos (s : State) (k : Nat) (v : Nat) : (applyUpd (.scrubPos k v) s).scrubPos = tabSet zeroNat s.scrubPos k v := rfl
@[simp] theorem scrubPos_upd_refusals (s : State) (k : Nat) (v : Nat) : (applyUpd (.scrubPos k v) s).refusals = s.refusals := rfl
@[simp] theorem scrubPos_upd_firstRefusal (s : State) (k : Nat) (v : Nat) : (applyUpd (.scrubPos k v) s).firstRefusal = s.firstRefusal := rfl
@[simp] theorem scrubPos_upd_boxQueue (s : State) (k : Nat) (v : Nat) : (applyUpd (.scrubPos k v) s).boxQueue = s.boxQueue := rfl
@[simp] theorem scrubPos_upd_boxRun (s : State) (k : Nat) (v : Nat) : (applyUpd (.scrubPos k v) s).boxRun = s.boxRun := rfl
@[simp] theorem scrubPos_upd_kvs (s : State) (k : Nat) (v : Nat) : (applyUpd (.scrubPos k v) s).kvs = s.kvs := rfl
@[simp] theorem scrubPos_upd_parts (s : State) (k : Nat) (v : Nat) : (applyUpd (.scrubPos k v) s).parts = s.parts := rfl
@[simp] theorem scrubPos_upd_dmas (s : State) (k : Nat) (v : Nat) : (applyUpd (.scrubPos k v) s).dmas = s.dmas := rfl
@[simp] theorem scrubPos_upd_regReqs (s : State) (k : Nat) (v : Nat) : (applyUpd (.scrubPos k v) s).regReqs = s.regReqs := rfl
@[simp] theorem scrubPos_upd_regPorts (s : State) (k : Nat) (v : Nat) : (applyUpd (.scrubPos k v) s).regPorts = s.regPorts := rfl
@[simp] theorem scrubPos_upd_subchs (s : State) (k : Nat) (v : Nat) : (applyUpd (.scrubPos k v) s).subchs = s.subchs := rfl
@[simp] theorem scrubPos_upd_trackers (s : State) (k : Nat) (v : Nat) : (applyUpd (.scrubPos k v) s).trackers = s.trackers := rfl
@[simp] theorem scrubPos_upd_throttles (s : State) (k : Nat) (v : Nat) : (applyUpd (.scrubPos k v) s).throttles = s.throttles := rfl
@[simp] theorem scrubPos_upd_errRing (s : State) (k : Nat) (v : Nat) : (applyUpd (.scrubPos k v) s).errRing = s.errRing := rfl
@[simp] theorem scrubPos_upd_errRingOvf (s : State) (k : Nat) (v : Nat) : (applyUpd (.scrubPos k v) s).errRingOvf = s.errRingOvf := rfl
@[simp] theorem scrubPos_upd_patrolLine (s : State) (k : Nat) (v : Nat) : (applyUpd (.scrubPos k v) s).patrolLine = s.patrolLine := rfl
@[simp] theorem scrubPos_upd_retTimes (s : State) (k : Nat) (v : Nat) : (applyUpd (.scrubPos k v) s).retTimes = s.retTimes := rfl
@[simp] theorem scrubPos_upd_retired (s : State) (k : Nat) (v : Nat) : (applyUpd (.scrubPos k v) s).retired = s.retired := rfl
@[simp] theorem scrubPos_upd_dramSeq (s : State) (k : Nat) (v : Nat) : (applyUpd (.scrubPos k v) s).dramSeq = s.dramSeq := rfl
@[simp] theorem scrubPos_upd_trn (s : State) (k : Nat) (v : Nat) : (applyUpd (.scrubPos k v) s).trn = s.trn := rfl
@[simp] theorem scrubPos_upd_dqsAdj (s : State) (k : Nat) (v : Nat) : (applyUpd (.scrubPos k v) s).dqsAdj = s.dqsAdj := rfl
@[simp] theorem scrubPos_upd_dpol (s : State) (k : Nat) (v : Nat) : (applyUpd (.scrubPos k v) s).dpol = s.dpol := rfl
@[simp] theorem scrubPos_upd_idleAt (s : State) (k : Nat) (v : Nat) : (applyUpd (.scrubPos k v) s).idleAt = s.idleAt := rfl
@[simp] theorem scrubPos_upd_fitted (s : State) (k : Nat) (v : Nat) : (applyUpd (.scrubPos k v) s).fitted = s.fitted := rfl
@[simp] theorem scrubPos_upd_faultMsgs (s : State) (k : Nat) (v : Nat) : (applyUpd (.scrubPos k v) s).faultMsgs = s.faultMsgs := rfl
@[simp] theorem scrubPos_upd_out (s : State) (k : Nat) (v : Nat) : (applyUpd (.scrubPos k v) s).out = s.out := rfl
@[simp] theorem scrubPos_upd_lastRead (s : State) (k : Nat) (v : Nat) : (applyUpd (.scrubPos k v) s).lastRead = s.lastRead := rfl
@[simp] theorem scrubPos_upd_fwd (s : State) (k : Nat) (v : Nat) : (applyUpd (.scrubPos k v) s).fwd = s.fwd := rfl
@[simp] theorem scrubPos_upd_ethTx (s : State) (k : Nat) (v : Nat) : (applyUpd (.scrubPos k v) s).ethTx = s.ethTx := rfl
@[simp] theorem scrubPos_upd_ethHeadAt (s : State) (k : Nat) (v : Nat) : (applyUpd (.scrubPos k v) s).ethHeadAt = s.ethHeadAt := rfl
@[simp] theorem scrubPos_upd_canTx (s : State) (k : Nat) (v : Nat) : (applyUpd (.scrubPos k v) s).canTx = s.canTx := rfl
@[simp] theorem scrubPos_upd_pcieOut (s : State) (k : Nat) (v : Nat) : (applyUpd (.scrubPos k v) s).pcieOut = s.pcieOut := rfl
@[simp] theorem scrubPos_upd_pcieCfgRd (s : State) (k : Nat) (v : Nat) : (applyUpd (.scrubPos k v) s).pcieCfgRd = s.pcieCfgRd := rfl
@[simp] theorem scrubPos_upd_msix (s : State) (k : Nat) (v : Nat) : (applyUpd (.scrubPos k v) s).msix = s.msix := rfl
@[simp] theorem scrubPos_upd_ancs (s : State) (k : Nat) (v : Nat) : (applyUpd (.scrubPos k v) s).ancs = s.ancs := rfl
@[simp] theorem scrubPos_upd_trajArea (s : State) (k : Nat) (v : Nat) : (applyUpd (.scrubPos k v) s).trajArea = s.trajArea := rfl
@[simp] theorem scrubPos_upd_lidarIn (s : State) (k : Nat) (v : Nat) : (applyUpd (.scrubPos k v) s).lidarIn = s.lidarIn := rfl
@[simp] theorem scrubPos_upd_wheelIn (s : State) (k : Nat) (v : Nat) : (applyUpd (.scrubPos k v) s).wheelIn = s.wheelIn := rfl
@[simp] theorem scrubPos_upd_spiStepBusy (s : State) (k : Nat) (v : Nat) : (applyUpd (.scrubPos k v) s).spiStepBusy = s.spiStepBusy := rfl
@[simp] theorem scrubPos_upd_spiRec (s : State) (k : Nat) (v : Nat) : (applyUpd (.scrubPos k v) s).spiRec = s.spiRec := rfl
@[simp] theorem scrubPos_upd_spiStepCfg (s : State) (k : Nat) (v : Nat) : (applyUpd (.scrubPos k v) s).spiStepCfg = s.spiStepCfg := rfl
@[simp] theorem scrubPos_upd_ctxs (s : State) (k : Nat) (v : Nat) : (applyUpd (.scrubPos k v) s).ctxs = s.ctxs := rfl
@[simp] theorem scrubPos_upd_fsyOmit (s : State) (k : Nat) (v : Nat) : (applyUpd (.scrubPos k v) s).fsyOmit = s.fsyOmit := rfl
@[simp] theorem scrubPos_upd_fsyPulsed (s : State) (k : Nat) (v : Nat) : (applyUpd (.scrubPos k v) s).fsyPulsed = s.fsyPulsed := rfl
@[simp] theorem scrubPos_upd_supTasks (s : State) (k : Nat) (v : Nat) : (applyUpd (.scrubPos k v) s).supTasks = s.supTasks := rfl
@[simp] theorem scrubPos_upd_fus (s : State) (k : Nat) (v : Nat) : (applyUpd (.scrubPos k v) s).fus = s.fus := rfl
@[simp] theorem scrubPos_upd_fcons (s : State) (k : Nat) (v : Nat) : (applyUpd (.scrubPos k v) s).fcons = s.fcons := rfl
@[simp] theorem scrubPos_upd_shadow (s : State) (k : Nat) (v : Nat) : (applyUpd (.scrubPos k v) s).shadow = s.shadow := rfl
@[simp] theorem scrubPos_upd_trv (s : State) (k : Nat) (v : Nat) : (applyUpd (.scrubPos k v) s).trv = s.trv := rfl
@[simp] theorem scrubPos_upd_tlayers (s : State) (k : Nat) (v : Nat) : (applyUpd (.scrubPos k v) s).tlayers = s.tlayers := rfl
@[simp] theorem scrubPos_upd_jobFaults (s : State) (k : Nat) (v : Nat) : (applyUpd (.scrubPos k v) s).jobFaults = s.jobFaults := rfl
@[simp] theorem scrubPos_upd_unitLast (s : State) (k : Nat) (v : Nat) : (applyUpd (.scrubPos k v) s).unitLast = s.unitLast := rfl
@[simp] theorem scrubPos_upd_unitRst (s : State) (k : Nat) (v : Nat) : (applyUpd (.scrubPos k v) s).unitRst = s.unitRst := rfl
@[simp] theorem scrubPos_upd_xlink (s : State) (k : Nat) (v : Nat) : (applyUpd (.scrubPos k v) s).xlink = s.xlink := rfl
@[simp] theorem scrubPos_upd_trace (s : State) (k : Nat) (v : Nat) : (applyUpd (.scrubPos k v) s).trace = s.trace := rfl
@[simp] theorem scrubPos_upd_progs (s : State) (k : Nat) (v : Nat) : (applyUpd (.scrubPos k v) s).progs = s.progs := rfl
@[simp] theorem scrubPos_upd_rails (s : State) (k : Nat) (v : Nat) : (applyUpd (.scrubPos k v) s).rails = s.rails := rfl
@[simp] theorem scrubPos_upd_thm (s : State) (k : Nat) (v : Nat) : (applyUpd (.scrubPos k v) s).thm = s.thm := rfl
@[simp] theorem scrubPos_upd_bnd (s : State) (k : Nat) (v : Nat) : (applyUpd (.scrubPos k v) s).bnd = s.bnd := rfl
@[simp] theorem scrubPos_upd_thmTrip (s : State) (k : Nat) (v : Nat) : (applyUpd (.scrubPos k v) s).thmTrip = s.thmTrip := rfl
@[simp] theorem scrubPos_upd_flash (s : State) (k : Nat) (v : Nat) : (applyUpd (.scrubPos k v) s).flash = s.flash := rfl
@[simp] theorem scrubPos_upd_slots (s : State) (k : Nat) (v : Nat) : (applyUpd (.scrubPos k v) s).slots = s.slots := rfl
@[simp] theorem scrubPos_upd_stores (s : State) (k : Nat) (v : Nat) : (applyUpd (.scrubPos k v) s).stores = s.stores := rfl
@[simp] theorem scrubPos_upd_ids (s : State) (k : Nat) (v : Nat) : (applyUpd (.scrubPos k v) s).ids = s.ids := rfl
@[simp] theorem scrubPos_upd_boot (s : State) (k : Nat) (v : Nat) : (applyUpd (.scrubPos k v) s).boot = s.boot := rfl
@[simp] theorem scrubPos_upd_load (s : State) (k : Nat) (v : Nat) : (applyUpd (.scrubPos k v) s).load = s.load := rfl
@[simp] theorem scrubPos_upd_flt (s : State) (k : Nat) (v : Nat) : (applyUpd (.scrubPos k v) s).flt = s.flt := rfl
@[simp] theorem scrubPos_upd_mon (s : State) (k : Nat) (v : Nat) : (applyUpd (.scrubPos k v) s).mon = s.mon := rfl
@[simp] theorem refusals_upd_pending (s : State) (v : Nat) : (applyUpd (.refusals v) s).pending = s.pending := rfl
@[simp] theorem refusals_upd_regs (s : State) (v : Nat) : (applyUpd (.refusals v) s).regs = s.regs := rfl
@[simp] theorem refusals_upd_mem (s : State) (v : Nat) : (applyUpd (.refusals v) s).mem = s.mem := rfl
@[simp] theorem refusals_upd_sram (s : State) (v : Nat) : (applyUpd (.refusals v) s).sram = s.sram := rfl
@[simp] theorem refusals_upd_time (s : State) (v : Nat) : (applyUpd (.refusals v) s).time = s.time := rfl
@[simp] theorem refusals_upd_timeFrac (s : State) (v : Nat) : (applyUpd (.refusals v) s).timeFrac = s.timeFrac := rfl
@[simp] theorem refusals_upd_freeCtr (s : State) (v : Nat) : (applyUpd (.refusals v) s).freeCtr = s.freeCtr := rfl
@[simp] theorem refusals_upd_hiLatch (s : State) (v : Nat) : (applyUpd (.refusals v) s).hiLatch = s.hiLatch := rfl
@[simp] theorem refusals_upd_timeSet (s : State) (v : Nat) : (applyUpd (.refusals v) s).timeSet = s.timeSet := rfl
@[simp] theorem refusals_upd_n0 (s : State) (v : Nat) : (applyUpd (.refusals v) s).n0 = s.n0 := rfl
@[simp] theorem refusals_upd_ticked (s : State) (v : Nat) : (applyUpd (.refusals v) s).ticked = s.ticked := rfl
@[simp] theorem refusals_upd_peerTickAt (s : State) (v : Nat) : (applyUpd (.refusals v) s).peerTickAt = s.peerTickAt := rfl
@[simp] theorem refusals_upd_guardPitch (s : State) (v : Nat) : (applyUpd (.refusals v) s).guardPitch = s.guardPitch := rfl
@[simp] theorem refusals_upd_diePitch (s : State) (v : Nat) : (applyUpd (.refusals v) s).diePitch = s.diePitch := rfl
@[simp] theorem refusals_upd_resps (s : State) (v : Nat) : (applyUpd (.refusals v) s).resps = s.resps := rfl
@[simp] theorem refusals_upd_txns (s : State) (v : Nat) : (applyUpd (.refusals v) s).txns = s.txns := rfl
@[simp] theorem refusals_upd_nextTag (s : State) (v : Nat) : (applyUpd (.refusals v) s).nextTag = s.nextTag := rfl
@[simp] theorem refusals_upd_lateTags (s : State) (v : Nat) : (applyUpd (.refusals v) s).lateTags = s.lateTags := rfl
@[simp] theorem refusals_upd_ports (s : State) (v : Nat) : (applyUpd (.refusals v) s).ports = s.ports := rfl
@[simp] theorem refusals_upd_threads (s : State) (v : Nat) : (applyUpd (.refusals v) s).threads = s.threads := rfl
@[simp] theorem refusals_upd_cores (s : State) (v : Nat) : (applyUpd (.refusals v) s).cores = s.cores := rfl
@[simp] theorem refusals_upd_engines (s : State) (v : Nat) : (applyUpd (.refusals v) s).engines = s.engines := rfl
@[simp] theorem refusals_upd_held (s : State) (v : Nat) : (applyUpd (.refusals v) s).held = s.held := rfl
@[simp] theorem refusals_upd_watches (s : State) (v : Nat) : (applyUpd (.refusals v) s).watches = s.watches := rfl
@[simp] theorem refusals_upd_watchMsgs (s : State) (v : Nat) : (applyUpd (.refusals v) s).watchMsgs = s.watchMsgs := rfl
@[simp] theorem refusals_upd_bankHeld (s : State) (v : Nat) : (applyUpd (.refusals v) s).bankHeld = s.bankHeld := rfl
@[simp] theorem refusals_upd_bankTarget (s : State) (v : Nat) : (applyUpd (.refusals v) s).bankTarget = s.bankTarget := rfl
@[simp] theorem refusals_upd_ecc (s : State) (v : Nat) : (applyUpd (.refusals v) s).ecc = s.ecc := rfl
@[simp] theorem refusals_upd_lineEcc (s : State) (v : Nat) : (applyUpd (.refusals v) s).lineEcc = s.lineEcc := rfl
@[simp] theorem refusals_upd_wbPending (s : State) (v : Nat) : (applyUpd (.refusals v) s).wbPending = s.wbPending := rfl
@[simp] theorem refusals_upd_scrubPos (s : State) (v : Nat) : (applyUpd (.refusals v) s).scrubPos = s.scrubPos := rfl
@[simp] theorem refusals_upd_refusals (s : State) (v : Nat) : (applyUpd (.refusals v) s).refusals = v := rfl
@[simp] theorem refusals_upd_firstRefusal (s : State) (v : Nat) : (applyUpd (.refusals v) s).firstRefusal = s.firstRefusal := rfl
@[simp] theorem refusals_upd_boxQueue (s : State) (v : Nat) : (applyUpd (.refusals v) s).boxQueue = s.boxQueue := rfl
@[simp] theorem refusals_upd_boxRun (s : State) (v : Nat) : (applyUpd (.refusals v) s).boxRun = s.boxRun := rfl
@[simp] theorem refusals_upd_kvs (s : State) (v : Nat) : (applyUpd (.refusals v) s).kvs = s.kvs := rfl
@[simp] theorem refusals_upd_parts (s : State) (v : Nat) : (applyUpd (.refusals v) s).parts = s.parts := rfl
@[simp] theorem refusals_upd_dmas (s : State) (v : Nat) : (applyUpd (.refusals v) s).dmas = s.dmas := rfl
@[simp] theorem refusals_upd_regReqs (s : State) (v : Nat) : (applyUpd (.refusals v) s).regReqs = s.regReqs := rfl
@[simp] theorem refusals_upd_regPorts (s : State) (v : Nat) : (applyUpd (.refusals v) s).regPorts = s.regPorts := rfl
@[simp] theorem refusals_upd_subchs (s : State) (v : Nat) : (applyUpd (.refusals v) s).subchs = s.subchs := rfl
@[simp] theorem refusals_upd_trackers (s : State) (v : Nat) : (applyUpd (.refusals v) s).trackers = s.trackers := rfl
@[simp] theorem refusals_upd_throttles (s : State) (v : Nat) : (applyUpd (.refusals v) s).throttles = s.throttles := rfl
@[simp] theorem refusals_upd_errRing (s : State) (v : Nat) : (applyUpd (.refusals v) s).errRing = s.errRing := rfl
@[simp] theorem refusals_upd_errRingOvf (s : State) (v : Nat) : (applyUpd (.refusals v) s).errRingOvf = s.errRingOvf := rfl
@[simp] theorem refusals_upd_patrolLine (s : State) (v : Nat) : (applyUpd (.refusals v) s).patrolLine = s.patrolLine := rfl
@[simp] theorem refusals_upd_retTimes (s : State) (v : Nat) : (applyUpd (.refusals v) s).retTimes = s.retTimes := rfl
@[simp] theorem refusals_upd_retired (s : State) (v : Nat) : (applyUpd (.refusals v) s).retired = s.retired := rfl
@[simp] theorem refusals_upd_dramSeq (s : State) (v : Nat) : (applyUpd (.refusals v) s).dramSeq = s.dramSeq := rfl
@[simp] theorem refusals_upd_trn (s : State) (v : Nat) : (applyUpd (.refusals v) s).trn = s.trn := rfl
@[simp] theorem refusals_upd_dqsAdj (s : State) (v : Nat) : (applyUpd (.refusals v) s).dqsAdj = s.dqsAdj := rfl
@[simp] theorem refusals_upd_dpol (s : State) (v : Nat) : (applyUpd (.refusals v) s).dpol = s.dpol := rfl
@[simp] theorem refusals_upd_idleAt (s : State) (v : Nat) : (applyUpd (.refusals v) s).idleAt = s.idleAt := rfl
@[simp] theorem refusals_upd_fitted (s : State) (v : Nat) : (applyUpd (.refusals v) s).fitted = s.fitted := rfl
@[simp] theorem refusals_upd_faultMsgs (s : State) (v : Nat) : (applyUpd (.refusals v) s).faultMsgs = s.faultMsgs := rfl
@[simp] theorem refusals_upd_out (s : State) (v : Nat) : (applyUpd (.refusals v) s).out = s.out := rfl
@[simp] theorem refusals_upd_lastRead (s : State) (v : Nat) : (applyUpd (.refusals v) s).lastRead = s.lastRead := rfl
@[simp] theorem refusals_upd_fwd (s : State) (v : Nat) : (applyUpd (.refusals v) s).fwd = s.fwd := rfl
@[simp] theorem refusals_upd_ethTx (s : State) (v : Nat) : (applyUpd (.refusals v) s).ethTx = s.ethTx := rfl
@[simp] theorem refusals_upd_ethHeadAt (s : State) (v : Nat) : (applyUpd (.refusals v) s).ethHeadAt = s.ethHeadAt := rfl
@[simp] theorem refusals_upd_canTx (s : State) (v : Nat) : (applyUpd (.refusals v) s).canTx = s.canTx := rfl
@[simp] theorem refusals_upd_pcieOut (s : State) (v : Nat) : (applyUpd (.refusals v) s).pcieOut = s.pcieOut := rfl
@[simp] theorem refusals_upd_pcieCfgRd (s : State) (v : Nat) : (applyUpd (.refusals v) s).pcieCfgRd = s.pcieCfgRd := rfl
@[simp] theorem refusals_upd_msix (s : State) (v : Nat) : (applyUpd (.refusals v) s).msix = s.msix := rfl
@[simp] theorem refusals_upd_ancs (s : State) (v : Nat) : (applyUpd (.refusals v) s).ancs = s.ancs := rfl
@[simp] theorem refusals_upd_trajArea (s : State) (v : Nat) : (applyUpd (.refusals v) s).trajArea = s.trajArea := rfl
@[simp] theorem refusals_upd_lidarIn (s : State) (v : Nat) : (applyUpd (.refusals v) s).lidarIn = s.lidarIn := rfl
@[simp] theorem refusals_upd_wheelIn (s : State) (v : Nat) : (applyUpd (.refusals v) s).wheelIn = s.wheelIn := rfl
@[simp] theorem refusals_upd_spiStepBusy (s : State) (v : Nat) : (applyUpd (.refusals v) s).spiStepBusy = s.spiStepBusy := rfl
@[simp] theorem refusals_upd_spiRec (s : State) (v : Nat) : (applyUpd (.refusals v) s).spiRec = s.spiRec := rfl
@[simp] theorem refusals_upd_spiStepCfg (s : State) (v : Nat) : (applyUpd (.refusals v) s).spiStepCfg = s.spiStepCfg := rfl
@[simp] theorem refusals_upd_ctxs (s : State) (v : Nat) : (applyUpd (.refusals v) s).ctxs = s.ctxs := rfl
@[simp] theorem refusals_upd_fsyOmit (s : State) (v : Nat) : (applyUpd (.refusals v) s).fsyOmit = s.fsyOmit := rfl
@[simp] theorem refusals_upd_fsyPulsed (s : State) (v : Nat) : (applyUpd (.refusals v) s).fsyPulsed = s.fsyPulsed := rfl
@[simp] theorem refusals_upd_supTasks (s : State) (v : Nat) : (applyUpd (.refusals v) s).supTasks = s.supTasks := rfl
@[simp] theorem refusals_upd_fus (s : State) (v : Nat) : (applyUpd (.refusals v) s).fus = s.fus := rfl
@[simp] theorem refusals_upd_fcons (s : State) (v : Nat) : (applyUpd (.refusals v) s).fcons = s.fcons := rfl
@[simp] theorem refusals_upd_shadow (s : State) (v : Nat) : (applyUpd (.refusals v) s).shadow = s.shadow := rfl
@[simp] theorem refusals_upd_trv (s : State) (v : Nat) : (applyUpd (.refusals v) s).trv = s.trv := rfl
@[simp] theorem refusals_upd_tlayers (s : State) (v : Nat) : (applyUpd (.refusals v) s).tlayers = s.tlayers := rfl
@[simp] theorem refusals_upd_jobFaults (s : State) (v : Nat) : (applyUpd (.refusals v) s).jobFaults = s.jobFaults := rfl
@[simp] theorem refusals_upd_unitLast (s : State) (v : Nat) : (applyUpd (.refusals v) s).unitLast = s.unitLast := rfl
@[simp] theorem refusals_upd_unitRst (s : State) (v : Nat) : (applyUpd (.refusals v) s).unitRst = s.unitRst := rfl
@[simp] theorem refusals_upd_xlink (s : State) (v : Nat) : (applyUpd (.refusals v) s).xlink = s.xlink := rfl
@[simp] theorem refusals_upd_trace (s : State) (v : Nat) : (applyUpd (.refusals v) s).trace = s.trace := rfl
@[simp] theorem refusals_upd_progs (s : State) (v : Nat) : (applyUpd (.refusals v) s).progs = s.progs := rfl
@[simp] theorem refusals_upd_rails (s : State) (v : Nat) : (applyUpd (.refusals v) s).rails = s.rails := rfl
@[simp] theorem refusals_upd_thm (s : State) (v : Nat) : (applyUpd (.refusals v) s).thm = s.thm := rfl
@[simp] theorem refusals_upd_bnd (s : State) (v : Nat) : (applyUpd (.refusals v) s).bnd = s.bnd := rfl
@[simp] theorem refusals_upd_thmTrip (s : State) (v : Nat) : (applyUpd (.refusals v) s).thmTrip = s.thmTrip := rfl
@[simp] theorem refusals_upd_flash (s : State) (v : Nat) : (applyUpd (.refusals v) s).flash = s.flash := rfl
@[simp] theorem refusals_upd_slots (s : State) (v : Nat) : (applyUpd (.refusals v) s).slots = s.slots := rfl
@[simp] theorem refusals_upd_stores (s : State) (v : Nat) : (applyUpd (.refusals v) s).stores = s.stores := rfl
@[simp] theorem refusals_upd_ids (s : State) (v : Nat) : (applyUpd (.refusals v) s).ids = s.ids := rfl
@[simp] theorem refusals_upd_boot (s : State) (v : Nat) : (applyUpd (.refusals v) s).boot = s.boot := rfl
@[simp] theorem refusals_upd_load (s : State) (v : Nat) : (applyUpd (.refusals v) s).load = s.load := rfl
@[simp] theorem refusals_upd_flt (s : State) (v : Nat) : (applyUpd (.refusals v) s).flt = s.flt := rfl
@[simp] theorem refusals_upd_mon (s : State) (v : Nat) : (applyUpd (.refusals v) s).mon = s.mon := rfl
@[simp] theorem firstRefusal_upd_pending (s : State) (v : Option (Nat × Master)) : (applyUpd (.firstRefusal v) s).pending = s.pending := rfl
@[simp] theorem firstRefusal_upd_regs (s : State) (v : Option (Nat × Master)) : (applyUpd (.firstRefusal v) s).regs = s.regs := rfl
@[simp] theorem firstRefusal_upd_mem (s : State) (v : Option (Nat × Master)) : (applyUpd (.firstRefusal v) s).mem = s.mem := rfl
@[simp] theorem firstRefusal_upd_sram (s : State) (v : Option (Nat × Master)) : (applyUpd (.firstRefusal v) s).sram = s.sram := rfl
@[simp] theorem firstRefusal_upd_time (s : State) (v : Option (Nat × Master)) : (applyUpd (.firstRefusal v) s).time = s.time := rfl
@[simp] theorem firstRefusal_upd_timeFrac (s : State) (v : Option (Nat × Master)) : (applyUpd (.firstRefusal v) s).timeFrac = s.timeFrac := rfl
@[simp] theorem firstRefusal_upd_freeCtr (s : State) (v : Option (Nat × Master)) : (applyUpd (.firstRefusal v) s).freeCtr = s.freeCtr := rfl
@[simp] theorem firstRefusal_upd_hiLatch (s : State) (v : Option (Nat × Master)) : (applyUpd (.firstRefusal v) s).hiLatch = s.hiLatch := rfl
@[simp] theorem firstRefusal_upd_timeSet (s : State) (v : Option (Nat × Master)) : (applyUpd (.firstRefusal v) s).timeSet = s.timeSet := rfl
@[simp] theorem firstRefusal_upd_n0 (s : State) (v : Option (Nat × Master)) : (applyUpd (.firstRefusal v) s).n0 = s.n0 := rfl
@[simp] theorem firstRefusal_upd_ticked (s : State) (v : Option (Nat × Master)) : (applyUpd (.firstRefusal v) s).ticked = s.ticked := rfl
@[simp] theorem firstRefusal_upd_peerTickAt (s : State) (v : Option (Nat × Master)) : (applyUpd (.firstRefusal v) s).peerTickAt = s.peerTickAt := rfl
@[simp] theorem firstRefusal_upd_guardPitch (s : State) (v : Option (Nat × Master)) : (applyUpd (.firstRefusal v) s).guardPitch = s.guardPitch := rfl
@[simp] theorem firstRefusal_upd_diePitch (s : State) (v : Option (Nat × Master)) : (applyUpd (.firstRefusal v) s).diePitch = s.diePitch := rfl
@[simp] theorem firstRefusal_upd_resps (s : State) (v : Option (Nat × Master)) : (applyUpd (.firstRefusal v) s).resps = s.resps := rfl
@[simp] theorem firstRefusal_upd_txns (s : State) (v : Option (Nat × Master)) : (applyUpd (.firstRefusal v) s).txns = s.txns := rfl
@[simp] theorem firstRefusal_upd_nextTag (s : State) (v : Option (Nat × Master)) : (applyUpd (.firstRefusal v) s).nextTag = s.nextTag := rfl
@[simp] theorem firstRefusal_upd_lateTags (s : State) (v : Option (Nat × Master)) : (applyUpd (.firstRefusal v) s).lateTags = s.lateTags := rfl
@[simp] theorem firstRefusal_upd_ports (s : State) (v : Option (Nat × Master)) : (applyUpd (.firstRefusal v) s).ports = s.ports := rfl
@[simp] theorem firstRefusal_upd_threads (s : State) (v : Option (Nat × Master)) : (applyUpd (.firstRefusal v) s).threads = s.threads := rfl
@[simp] theorem firstRefusal_upd_cores (s : State) (v : Option (Nat × Master)) : (applyUpd (.firstRefusal v) s).cores = s.cores := rfl
@[simp] theorem firstRefusal_upd_engines (s : State) (v : Option (Nat × Master)) : (applyUpd (.firstRefusal v) s).engines = s.engines := rfl
@[simp] theorem firstRefusal_upd_held (s : State) (v : Option (Nat × Master)) : (applyUpd (.firstRefusal v) s).held = s.held := rfl
@[simp] theorem firstRefusal_upd_watches (s : State) (v : Option (Nat × Master)) : (applyUpd (.firstRefusal v) s).watches = s.watches := rfl
@[simp] theorem firstRefusal_upd_watchMsgs (s : State) (v : Option (Nat × Master)) : (applyUpd (.firstRefusal v) s).watchMsgs = s.watchMsgs := rfl
@[simp] theorem firstRefusal_upd_bankHeld (s : State) (v : Option (Nat × Master)) : (applyUpd (.firstRefusal v) s).bankHeld = s.bankHeld := rfl
@[simp] theorem firstRefusal_upd_bankTarget (s : State) (v : Option (Nat × Master)) : (applyUpd (.firstRefusal v) s).bankTarget = s.bankTarget := rfl
@[simp] theorem firstRefusal_upd_ecc (s : State) (v : Option (Nat × Master)) : (applyUpd (.firstRefusal v) s).ecc = s.ecc := rfl
@[simp] theorem firstRefusal_upd_lineEcc (s : State) (v : Option (Nat × Master)) : (applyUpd (.firstRefusal v) s).lineEcc = s.lineEcc := rfl
@[simp] theorem firstRefusal_upd_wbPending (s : State) (v : Option (Nat × Master)) : (applyUpd (.firstRefusal v) s).wbPending = s.wbPending := rfl
@[simp] theorem firstRefusal_upd_scrubPos (s : State) (v : Option (Nat × Master)) : (applyUpd (.firstRefusal v) s).scrubPos = s.scrubPos := rfl
@[simp] theorem firstRefusal_upd_refusals (s : State) (v : Option (Nat × Master)) : (applyUpd (.firstRefusal v) s).refusals = s.refusals := rfl
@[simp] theorem firstRefusal_upd_firstRefusal (s : State) (v : Option (Nat × Master)) : (applyUpd (.firstRefusal v) s).firstRefusal = v := rfl
@[simp] theorem firstRefusal_upd_boxQueue (s : State) (v : Option (Nat × Master)) : (applyUpd (.firstRefusal v) s).boxQueue = s.boxQueue := rfl
@[simp] theorem firstRefusal_upd_boxRun (s : State) (v : Option (Nat × Master)) : (applyUpd (.firstRefusal v) s).boxRun = s.boxRun := rfl
@[simp] theorem firstRefusal_upd_kvs (s : State) (v : Option (Nat × Master)) : (applyUpd (.firstRefusal v) s).kvs = s.kvs := rfl
@[simp] theorem firstRefusal_upd_parts (s : State) (v : Option (Nat × Master)) : (applyUpd (.firstRefusal v) s).parts = s.parts := rfl
@[simp] theorem firstRefusal_upd_dmas (s : State) (v : Option (Nat × Master)) : (applyUpd (.firstRefusal v) s).dmas = s.dmas := rfl
@[simp] theorem firstRefusal_upd_regReqs (s : State) (v : Option (Nat × Master)) : (applyUpd (.firstRefusal v) s).regReqs = s.regReqs := rfl
@[simp] theorem firstRefusal_upd_regPorts (s : State) (v : Option (Nat × Master)) : (applyUpd (.firstRefusal v) s).regPorts = s.regPorts := rfl
@[simp] theorem firstRefusal_upd_subchs (s : State) (v : Option (Nat × Master)) : (applyUpd (.firstRefusal v) s).subchs = s.subchs := rfl
@[simp] theorem firstRefusal_upd_trackers (s : State) (v : Option (Nat × Master)) : (applyUpd (.firstRefusal v) s).trackers = s.trackers := rfl
@[simp] theorem firstRefusal_upd_throttles (s : State) (v : Option (Nat × Master)) : (applyUpd (.firstRefusal v) s).throttles = s.throttles := rfl
@[simp] theorem firstRefusal_upd_errRing (s : State) (v : Option (Nat × Master)) : (applyUpd (.firstRefusal v) s).errRing = s.errRing := rfl
@[simp] theorem firstRefusal_upd_errRingOvf (s : State) (v : Option (Nat × Master)) : (applyUpd (.firstRefusal v) s).errRingOvf = s.errRingOvf := rfl
@[simp] theorem firstRefusal_upd_patrolLine (s : State) (v : Option (Nat × Master)) : (applyUpd (.firstRefusal v) s).patrolLine = s.patrolLine := rfl
@[simp] theorem firstRefusal_upd_retTimes (s : State) (v : Option (Nat × Master)) : (applyUpd (.firstRefusal v) s).retTimes = s.retTimes := rfl
@[simp] theorem firstRefusal_upd_retired (s : State) (v : Option (Nat × Master)) : (applyUpd (.firstRefusal v) s).retired = s.retired := rfl
@[simp] theorem firstRefusal_upd_dramSeq (s : State) (v : Option (Nat × Master)) : (applyUpd (.firstRefusal v) s).dramSeq = s.dramSeq := rfl
@[simp] theorem firstRefusal_upd_trn (s : State) (v : Option (Nat × Master)) : (applyUpd (.firstRefusal v) s).trn = s.trn := rfl
@[simp] theorem firstRefusal_upd_dqsAdj (s : State) (v : Option (Nat × Master)) : (applyUpd (.firstRefusal v) s).dqsAdj = s.dqsAdj := rfl
@[simp] theorem firstRefusal_upd_dpol (s : State) (v : Option (Nat × Master)) : (applyUpd (.firstRefusal v) s).dpol = s.dpol := rfl
@[simp] theorem firstRefusal_upd_idleAt (s : State) (v : Option (Nat × Master)) : (applyUpd (.firstRefusal v) s).idleAt = s.idleAt := rfl
@[simp] theorem firstRefusal_upd_fitted (s : State) (v : Option (Nat × Master)) : (applyUpd (.firstRefusal v) s).fitted = s.fitted := rfl
@[simp] theorem firstRefusal_upd_faultMsgs (s : State) (v : Option (Nat × Master)) : (applyUpd (.firstRefusal v) s).faultMsgs = s.faultMsgs := rfl
@[simp] theorem firstRefusal_upd_out (s : State) (v : Option (Nat × Master)) : (applyUpd (.firstRefusal v) s).out = s.out := rfl
@[simp] theorem firstRefusal_upd_lastRead (s : State) (v : Option (Nat × Master)) : (applyUpd (.firstRefusal v) s).lastRead = s.lastRead := rfl
@[simp] theorem firstRefusal_upd_fwd (s : State) (v : Option (Nat × Master)) : (applyUpd (.firstRefusal v) s).fwd = s.fwd := rfl
@[simp] theorem firstRefusal_upd_ethTx (s : State) (v : Option (Nat × Master)) : (applyUpd (.firstRefusal v) s).ethTx = s.ethTx := rfl
@[simp] theorem firstRefusal_upd_ethHeadAt (s : State) (v : Option (Nat × Master)) : (applyUpd (.firstRefusal v) s).ethHeadAt = s.ethHeadAt := rfl
@[simp] theorem firstRefusal_upd_canTx (s : State) (v : Option (Nat × Master)) : (applyUpd (.firstRefusal v) s).canTx = s.canTx := rfl
@[simp] theorem firstRefusal_upd_pcieOut (s : State) (v : Option (Nat × Master)) : (applyUpd (.firstRefusal v) s).pcieOut = s.pcieOut := rfl
@[simp] theorem firstRefusal_upd_pcieCfgRd (s : State) (v : Option (Nat × Master)) : (applyUpd (.firstRefusal v) s).pcieCfgRd = s.pcieCfgRd := rfl
@[simp] theorem firstRefusal_upd_msix (s : State) (v : Option (Nat × Master)) : (applyUpd (.firstRefusal v) s).msix = s.msix := rfl
@[simp] theorem firstRefusal_upd_ancs (s : State) (v : Option (Nat × Master)) : (applyUpd (.firstRefusal v) s).ancs = s.ancs := rfl
@[simp] theorem firstRefusal_upd_trajArea (s : State) (v : Option (Nat × Master)) : (applyUpd (.firstRefusal v) s).trajArea = s.trajArea := rfl
@[simp] theorem firstRefusal_upd_lidarIn (s : State) (v : Option (Nat × Master)) : (applyUpd (.firstRefusal v) s).lidarIn = s.lidarIn := rfl
@[simp] theorem firstRefusal_upd_wheelIn (s : State) (v : Option (Nat × Master)) : (applyUpd (.firstRefusal v) s).wheelIn = s.wheelIn := rfl
@[simp] theorem firstRefusal_upd_spiStepBusy (s : State) (v : Option (Nat × Master)) : (applyUpd (.firstRefusal v) s).spiStepBusy = s.spiStepBusy := rfl
@[simp] theorem firstRefusal_upd_spiRec (s : State) (v : Option (Nat × Master)) : (applyUpd (.firstRefusal v) s).spiRec = s.spiRec := rfl
@[simp] theorem firstRefusal_upd_spiStepCfg (s : State) (v : Option (Nat × Master)) : (applyUpd (.firstRefusal v) s).spiStepCfg = s.spiStepCfg := rfl
@[simp] theorem firstRefusal_upd_ctxs (s : State) (v : Option (Nat × Master)) : (applyUpd (.firstRefusal v) s).ctxs = s.ctxs := rfl
@[simp] theorem firstRefusal_upd_fsyOmit (s : State) (v : Option (Nat × Master)) : (applyUpd (.firstRefusal v) s).fsyOmit = s.fsyOmit := rfl
@[simp] theorem firstRefusal_upd_fsyPulsed (s : State) (v : Option (Nat × Master)) : (applyUpd (.firstRefusal v) s).fsyPulsed = s.fsyPulsed := rfl
@[simp] theorem firstRefusal_upd_supTasks (s : State) (v : Option (Nat × Master)) : (applyUpd (.firstRefusal v) s).supTasks = s.supTasks := rfl
@[simp] theorem firstRefusal_upd_fus (s : State) (v : Option (Nat × Master)) : (applyUpd (.firstRefusal v) s).fus = s.fus := rfl
@[simp] theorem firstRefusal_upd_fcons (s : State) (v : Option (Nat × Master)) : (applyUpd (.firstRefusal v) s).fcons = s.fcons := rfl
@[simp] theorem firstRefusal_upd_shadow (s : State) (v : Option (Nat × Master)) : (applyUpd (.firstRefusal v) s).shadow = s.shadow := rfl
@[simp] theorem firstRefusal_upd_trv (s : State) (v : Option (Nat × Master)) : (applyUpd (.firstRefusal v) s).trv = s.trv := rfl
@[simp] theorem firstRefusal_upd_tlayers (s : State) (v : Option (Nat × Master)) : (applyUpd (.firstRefusal v) s).tlayers = s.tlayers := rfl
@[simp] theorem firstRefusal_upd_jobFaults (s : State) (v : Option (Nat × Master)) : (applyUpd (.firstRefusal v) s).jobFaults = s.jobFaults := rfl
@[simp] theorem firstRefusal_upd_unitLast (s : State) (v : Option (Nat × Master)) : (applyUpd (.firstRefusal v) s).unitLast = s.unitLast := rfl
@[simp] theorem firstRefusal_upd_unitRst (s : State) (v : Option (Nat × Master)) : (applyUpd (.firstRefusal v) s).unitRst = s.unitRst := rfl
@[simp] theorem firstRefusal_upd_xlink (s : State) (v : Option (Nat × Master)) : (applyUpd (.firstRefusal v) s).xlink = s.xlink := rfl
@[simp] theorem firstRefusal_upd_trace (s : State) (v : Option (Nat × Master)) : (applyUpd (.firstRefusal v) s).trace = s.trace := rfl
@[simp] theorem firstRefusal_upd_progs (s : State) (v : Option (Nat × Master)) : (applyUpd (.firstRefusal v) s).progs = s.progs := rfl
@[simp] theorem firstRefusal_upd_rails (s : State) (v : Option (Nat × Master)) : (applyUpd (.firstRefusal v) s).rails = s.rails := rfl
@[simp] theorem firstRefusal_upd_thm (s : State) (v : Option (Nat × Master)) : (applyUpd (.firstRefusal v) s).thm = s.thm := rfl
@[simp] theorem firstRefusal_upd_bnd (s : State) (v : Option (Nat × Master)) : (applyUpd (.firstRefusal v) s).bnd = s.bnd := rfl
@[simp] theorem firstRefusal_upd_thmTrip (s : State) (v : Option (Nat × Master)) : (applyUpd (.firstRefusal v) s).thmTrip = s.thmTrip := rfl
@[simp] theorem firstRefusal_upd_flash (s : State) (v : Option (Nat × Master)) : (applyUpd (.firstRefusal v) s).flash = s.flash := rfl
@[simp] theorem firstRefusal_upd_slots (s : State) (v : Option (Nat × Master)) : (applyUpd (.firstRefusal v) s).slots = s.slots := rfl
@[simp] theorem firstRefusal_upd_stores (s : State) (v : Option (Nat × Master)) : (applyUpd (.firstRefusal v) s).stores = s.stores := rfl
@[simp] theorem firstRefusal_upd_ids (s : State) (v : Option (Nat × Master)) : (applyUpd (.firstRefusal v) s).ids = s.ids := rfl
@[simp] theorem firstRefusal_upd_boot (s : State) (v : Option (Nat × Master)) : (applyUpd (.firstRefusal v) s).boot = s.boot := rfl
@[simp] theorem firstRefusal_upd_load (s : State) (v : Option (Nat × Master)) : (applyUpd (.firstRefusal v) s).load = s.load := rfl
@[simp] theorem firstRefusal_upd_flt (s : State) (v : Option (Nat × Master)) : (applyUpd (.firstRefusal v) s).flt = s.flt := rfl
@[simp] theorem firstRefusal_upd_mon (s : State) (v : Option (Nat × Master)) : (applyUpd (.firstRefusal v) s).mon = s.mon := rfl
@[simp] theorem boxQueue_upd_pending (s : State) (v : List BoxReq) : (applyUpd (.boxQueue v) s).pending = s.pending := rfl
@[simp] theorem boxQueue_upd_regs (s : State) (v : List BoxReq) : (applyUpd (.boxQueue v) s).regs = s.regs := rfl
@[simp] theorem boxQueue_upd_mem (s : State) (v : List BoxReq) : (applyUpd (.boxQueue v) s).mem = s.mem := rfl
@[simp] theorem boxQueue_upd_sram (s : State) (v : List BoxReq) : (applyUpd (.boxQueue v) s).sram = s.sram := rfl
@[simp] theorem boxQueue_upd_time (s : State) (v : List BoxReq) : (applyUpd (.boxQueue v) s).time = s.time := rfl
@[simp] theorem boxQueue_upd_timeFrac (s : State) (v : List BoxReq) : (applyUpd (.boxQueue v) s).timeFrac = s.timeFrac := rfl
@[simp] theorem boxQueue_upd_freeCtr (s : State) (v : List BoxReq) : (applyUpd (.boxQueue v) s).freeCtr = s.freeCtr := rfl
@[simp] theorem boxQueue_upd_hiLatch (s : State) (v : List BoxReq) : (applyUpd (.boxQueue v) s).hiLatch = s.hiLatch := rfl
@[simp] theorem boxQueue_upd_timeSet (s : State) (v : List BoxReq) : (applyUpd (.boxQueue v) s).timeSet = s.timeSet := rfl
@[simp] theorem boxQueue_upd_n0 (s : State) (v : List BoxReq) : (applyUpd (.boxQueue v) s).n0 = s.n0 := rfl
@[simp] theorem boxQueue_upd_ticked (s : State) (v : List BoxReq) : (applyUpd (.boxQueue v) s).ticked = s.ticked := rfl
@[simp] theorem boxQueue_upd_peerTickAt (s : State) (v : List BoxReq) : (applyUpd (.boxQueue v) s).peerTickAt = s.peerTickAt := rfl
@[simp] theorem boxQueue_upd_guardPitch (s : State) (v : List BoxReq) : (applyUpd (.boxQueue v) s).guardPitch = s.guardPitch := rfl
@[simp] theorem boxQueue_upd_diePitch (s : State) (v : List BoxReq) : (applyUpd (.boxQueue v) s).diePitch = s.diePitch := rfl
@[simp] theorem boxQueue_upd_resps (s : State) (v : List BoxReq) : (applyUpd (.boxQueue v) s).resps = s.resps := rfl
@[simp] theorem boxQueue_upd_txns (s : State) (v : List BoxReq) : (applyUpd (.boxQueue v) s).txns = s.txns := rfl
@[simp] theorem boxQueue_upd_nextTag (s : State) (v : List BoxReq) : (applyUpd (.boxQueue v) s).nextTag = s.nextTag := rfl
@[simp] theorem boxQueue_upd_lateTags (s : State) (v : List BoxReq) : (applyUpd (.boxQueue v) s).lateTags = s.lateTags := rfl
@[simp] theorem boxQueue_upd_ports (s : State) (v : List BoxReq) : (applyUpd (.boxQueue v) s).ports = s.ports := rfl
@[simp] theorem boxQueue_upd_threads (s : State) (v : List BoxReq) : (applyUpd (.boxQueue v) s).threads = s.threads := rfl
@[simp] theorem boxQueue_upd_cores (s : State) (v : List BoxReq) : (applyUpd (.boxQueue v) s).cores = s.cores := rfl
@[simp] theorem boxQueue_upd_engines (s : State) (v : List BoxReq) : (applyUpd (.boxQueue v) s).engines = s.engines := rfl
@[simp] theorem boxQueue_upd_held (s : State) (v : List BoxReq) : (applyUpd (.boxQueue v) s).held = s.held := rfl
@[simp] theorem boxQueue_upd_watches (s : State) (v : List BoxReq) : (applyUpd (.boxQueue v) s).watches = s.watches := rfl
@[simp] theorem boxQueue_upd_watchMsgs (s : State) (v : List BoxReq) : (applyUpd (.boxQueue v) s).watchMsgs = s.watchMsgs := rfl
@[simp] theorem boxQueue_upd_bankHeld (s : State) (v : List BoxReq) : (applyUpd (.boxQueue v) s).bankHeld = s.bankHeld := rfl
@[simp] theorem boxQueue_upd_bankTarget (s : State) (v : List BoxReq) : (applyUpd (.boxQueue v) s).bankTarget = s.bankTarget := rfl
@[simp] theorem boxQueue_upd_ecc (s : State) (v : List BoxReq) : (applyUpd (.boxQueue v) s).ecc = s.ecc := rfl
@[simp] theorem boxQueue_upd_lineEcc (s : State) (v : List BoxReq) : (applyUpd (.boxQueue v) s).lineEcc = s.lineEcc := rfl
@[simp] theorem boxQueue_upd_wbPending (s : State) (v : List BoxReq) : (applyUpd (.boxQueue v) s).wbPending = s.wbPending := rfl
@[simp] theorem boxQueue_upd_scrubPos (s : State) (v : List BoxReq) : (applyUpd (.boxQueue v) s).scrubPos = s.scrubPos := rfl
@[simp] theorem boxQueue_upd_refusals (s : State) (v : List BoxReq) : (applyUpd (.boxQueue v) s).refusals = s.refusals := rfl
@[simp] theorem boxQueue_upd_firstRefusal (s : State) (v : List BoxReq) : (applyUpd (.boxQueue v) s).firstRefusal = s.firstRefusal := rfl
@[simp] theorem boxQueue_upd_boxQueue (s : State) (v : List BoxReq) : (applyUpd (.boxQueue v) s).boxQueue = v := rfl
@[simp] theorem boxQueue_upd_boxRun (s : State) (v : List BoxReq) : (applyUpd (.boxQueue v) s).boxRun = s.boxRun := rfl
@[simp] theorem boxQueue_upd_kvs (s : State) (v : List BoxReq) : (applyUpd (.boxQueue v) s).kvs = s.kvs := rfl
@[simp] theorem boxQueue_upd_parts (s : State) (v : List BoxReq) : (applyUpd (.boxQueue v) s).parts = s.parts := rfl
@[simp] theorem boxQueue_upd_dmas (s : State) (v : List BoxReq) : (applyUpd (.boxQueue v) s).dmas = s.dmas := rfl
@[simp] theorem boxQueue_upd_regReqs (s : State) (v : List BoxReq) : (applyUpd (.boxQueue v) s).regReqs = s.regReqs := rfl
@[simp] theorem boxQueue_upd_regPorts (s : State) (v : List BoxReq) : (applyUpd (.boxQueue v) s).regPorts = s.regPorts := rfl
@[simp] theorem boxQueue_upd_subchs (s : State) (v : List BoxReq) : (applyUpd (.boxQueue v) s).subchs = s.subchs := rfl
@[simp] theorem boxQueue_upd_trackers (s : State) (v : List BoxReq) : (applyUpd (.boxQueue v) s).trackers = s.trackers := rfl
@[simp] theorem boxQueue_upd_throttles (s : State) (v : List BoxReq) : (applyUpd (.boxQueue v) s).throttles = s.throttles := rfl
@[simp] theorem boxQueue_upd_errRing (s : State) (v : List BoxReq) : (applyUpd (.boxQueue v) s).errRing = s.errRing := rfl
@[simp] theorem boxQueue_upd_errRingOvf (s : State) (v : List BoxReq) : (applyUpd (.boxQueue v) s).errRingOvf = s.errRingOvf := rfl
@[simp] theorem boxQueue_upd_patrolLine (s : State) (v : List BoxReq) : (applyUpd (.boxQueue v) s).patrolLine = s.patrolLine := rfl
@[simp] theorem boxQueue_upd_retTimes (s : State) (v : List BoxReq) : (applyUpd (.boxQueue v) s).retTimes = s.retTimes := rfl
@[simp] theorem boxQueue_upd_retired (s : State) (v : List BoxReq) : (applyUpd (.boxQueue v) s).retired = s.retired := rfl
@[simp] theorem boxQueue_upd_dramSeq (s : State) (v : List BoxReq) : (applyUpd (.boxQueue v) s).dramSeq = s.dramSeq := rfl
@[simp] theorem boxQueue_upd_trn (s : State) (v : List BoxReq) : (applyUpd (.boxQueue v) s).trn = s.trn := rfl
@[simp] theorem boxQueue_upd_dqsAdj (s : State) (v : List BoxReq) : (applyUpd (.boxQueue v) s).dqsAdj = s.dqsAdj := rfl
@[simp] theorem boxQueue_upd_dpol (s : State) (v : List BoxReq) : (applyUpd (.boxQueue v) s).dpol = s.dpol := rfl
@[simp] theorem boxQueue_upd_idleAt (s : State) (v : List BoxReq) : (applyUpd (.boxQueue v) s).idleAt = s.idleAt := rfl
@[simp] theorem boxQueue_upd_fitted (s : State) (v : List BoxReq) : (applyUpd (.boxQueue v) s).fitted = s.fitted := rfl
@[simp] theorem boxQueue_upd_faultMsgs (s : State) (v : List BoxReq) : (applyUpd (.boxQueue v) s).faultMsgs = s.faultMsgs := rfl
@[simp] theorem boxQueue_upd_out (s : State) (v : List BoxReq) : (applyUpd (.boxQueue v) s).out = s.out := rfl
@[simp] theorem boxQueue_upd_lastRead (s : State) (v : List BoxReq) : (applyUpd (.boxQueue v) s).lastRead = s.lastRead := rfl
@[simp] theorem boxQueue_upd_fwd (s : State) (v : List BoxReq) : (applyUpd (.boxQueue v) s).fwd = s.fwd := rfl
@[simp] theorem boxQueue_upd_ethTx (s : State) (v : List BoxReq) : (applyUpd (.boxQueue v) s).ethTx = s.ethTx := rfl
@[simp] theorem boxQueue_upd_ethHeadAt (s : State) (v : List BoxReq) : (applyUpd (.boxQueue v) s).ethHeadAt = s.ethHeadAt := rfl
@[simp] theorem boxQueue_upd_canTx (s : State) (v : List BoxReq) : (applyUpd (.boxQueue v) s).canTx = s.canTx := rfl
@[simp] theorem boxQueue_upd_pcieOut (s : State) (v : List BoxReq) : (applyUpd (.boxQueue v) s).pcieOut = s.pcieOut := rfl
@[simp] theorem boxQueue_upd_pcieCfgRd (s : State) (v : List BoxReq) : (applyUpd (.boxQueue v) s).pcieCfgRd = s.pcieCfgRd := rfl
@[simp] theorem boxQueue_upd_msix (s : State) (v : List BoxReq) : (applyUpd (.boxQueue v) s).msix = s.msix := rfl
@[simp] theorem boxQueue_upd_ancs (s : State) (v : List BoxReq) : (applyUpd (.boxQueue v) s).ancs = s.ancs := rfl
@[simp] theorem boxQueue_upd_trajArea (s : State) (v : List BoxReq) : (applyUpd (.boxQueue v) s).trajArea = s.trajArea := rfl
@[simp] theorem boxQueue_upd_lidarIn (s : State) (v : List BoxReq) : (applyUpd (.boxQueue v) s).lidarIn = s.lidarIn := rfl
@[simp] theorem boxQueue_upd_wheelIn (s : State) (v : List BoxReq) : (applyUpd (.boxQueue v) s).wheelIn = s.wheelIn := rfl
@[simp] theorem boxQueue_upd_spiStepBusy (s : State) (v : List BoxReq) : (applyUpd (.boxQueue v) s).spiStepBusy = s.spiStepBusy := rfl
@[simp] theorem boxQueue_upd_spiRec (s : State) (v : List BoxReq) : (applyUpd (.boxQueue v) s).spiRec = s.spiRec := rfl
@[simp] theorem boxQueue_upd_spiStepCfg (s : State) (v : List BoxReq) : (applyUpd (.boxQueue v) s).spiStepCfg = s.spiStepCfg := rfl
@[simp] theorem boxQueue_upd_ctxs (s : State) (v : List BoxReq) : (applyUpd (.boxQueue v) s).ctxs = s.ctxs := rfl
@[simp] theorem boxQueue_upd_fsyOmit (s : State) (v : List BoxReq) : (applyUpd (.boxQueue v) s).fsyOmit = s.fsyOmit := rfl
@[simp] theorem boxQueue_upd_fsyPulsed (s : State) (v : List BoxReq) : (applyUpd (.boxQueue v) s).fsyPulsed = s.fsyPulsed := rfl
@[simp] theorem boxQueue_upd_supTasks (s : State) (v : List BoxReq) : (applyUpd (.boxQueue v) s).supTasks = s.supTasks := rfl
@[simp] theorem boxQueue_upd_fus (s : State) (v : List BoxReq) : (applyUpd (.boxQueue v) s).fus = s.fus := rfl
@[simp] theorem boxQueue_upd_fcons (s : State) (v : List BoxReq) : (applyUpd (.boxQueue v) s).fcons = s.fcons := rfl
@[simp] theorem boxQueue_upd_shadow (s : State) (v : List BoxReq) : (applyUpd (.boxQueue v) s).shadow = s.shadow := rfl
@[simp] theorem boxQueue_upd_trv (s : State) (v : List BoxReq) : (applyUpd (.boxQueue v) s).trv = s.trv := rfl
@[simp] theorem boxQueue_upd_tlayers (s : State) (v : List BoxReq) : (applyUpd (.boxQueue v) s).tlayers = s.tlayers := rfl
@[simp] theorem boxQueue_upd_jobFaults (s : State) (v : List BoxReq) : (applyUpd (.boxQueue v) s).jobFaults = s.jobFaults := rfl
@[simp] theorem boxQueue_upd_unitLast (s : State) (v : List BoxReq) : (applyUpd (.boxQueue v) s).unitLast = s.unitLast := rfl
@[simp] theorem boxQueue_upd_unitRst (s : State) (v : List BoxReq) : (applyUpd (.boxQueue v) s).unitRst = s.unitRst := rfl
@[simp] theorem boxQueue_upd_xlink (s : State) (v : List BoxReq) : (applyUpd (.boxQueue v) s).xlink = s.xlink := rfl
@[simp] theorem boxQueue_upd_trace (s : State) (v : List BoxReq) : (applyUpd (.boxQueue v) s).trace = s.trace := rfl
@[simp] theorem boxQueue_upd_progs (s : State) (v : List BoxReq) : (applyUpd (.boxQueue v) s).progs = s.progs := rfl
@[simp] theorem boxQueue_upd_rails (s : State) (v : List BoxReq) : (applyUpd (.boxQueue v) s).rails = s.rails := rfl
@[simp] theorem boxQueue_upd_thm (s : State) (v : List BoxReq) : (applyUpd (.boxQueue v) s).thm = s.thm := rfl
@[simp] theorem boxQueue_upd_bnd (s : State) (v : List BoxReq) : (applyUpd (.boxQueue v) s).bnd = s.bnd := rfl
@[simp] theorem boxQueue_upd_thmTrip (s : State) (v : List BoxReq) : (applyUpd (.boxQueue v) s).thmTrip = s.thmTrip := rfl
@[simp] theorem boxQueue_upd_flash (s : State) (v : List BoxReq) : (applyUpd (.boxQueue v) s).flash = s.flash := rfl
@[simp] theorem boxQueue_upd_slots (s : State) (v : List BoxReq) : (applyUpd (.boxQueue v) s).slots = s.slots := rfl
@[simp] theorem boxQueue_upd_stores (s : State) (v : List BoxReq) : (applyUpd (.boxQueue v) s).stores = s.stores := rfl
@[simp] theorem boxQueue_upd_ids (s : State) (v : List BoxReq) : (applyUpd (.boxQueue v) s).ids = s.ids := rfl
@[simp] theorem boxQueue_upd_boot (s : State) (v : List BoxReq) : (applyUpd (.boxQueue v) s).boot = s.boot := rfl
@[simp] theorem boxQueue_upd_load (s : State) (v : List BoxReq) : (applyUpd (.boxQueue v) s).load = s.load := rfl
@[simp] theorem boxQueue_upd_flt (s : State) (v : List BoxReq) : (applyUpd (.boxQueue v) s).flt = s.flt := rfl
@[simp] theorem boxQueue_upd_mon (s : State) (v : List BoxReq) : (applyUpd (.boxQueue v) s).mon = s.mon := rfl
@[simp] theorem boxRun_upd_pending (s : State) (v : Option BoxRun) : (applyUpd (.boxRun v) s).pending = s.pending := rfl
@[simp] theorem boxRun_upd_regs (s : State) (v : Option BoxRun) : (applyUpd (.boxRun v) s).regs = s.regs := rfl
@[simp] theorem boxRun_upd_mem (s : State) (v : Option BoxRun) : (applyUpd (.boxRun v) s).mem = s.mem := rfl
@[simp] theorem boxRun_upd_sram (s : State) (v : Option BoxRun) : (applyUpd (.boxRun v) s).sram = s.sram := rfl
@[simp] theorem boxRun_upd_time (s : State) (v : Option BoxRun) : (applyUpd (.boxRun v) s).time = s.time := rfl
@[simp] theorem boxRun_upd_timeFrac (s : State) (v : Option BoxRun) : (applyUpd (.boxRun v) s).timeFrac = s.timeFrac := rfl
@[simp] theorem boxRun_upd_freeCtr (s : State) (v : Option BoxRun) : (applyUpd (.boxRun v) s).freeCtr = s.freeCtr := rfl
@[simp] theorem boxRun_upd_hiLatch (s : State) (v : Option BoxRun) : (applyUpd (.boxRun v) s).hiLatch = s.hiLatch := rfl
@[simp] theorem boxRun_upd_timeSet (s : State) (v : Option BoxRun) : (applyUpd (.boxRun v) s).timeSet = s.timeSet := rfl
@[simp] theorem boxRun_upd_n0 (s : State) (v : Option BoxRun) : (applyUpd (.boxRun v) s).n0 = s.n0 := rfl
@[simp] theorem boxRun_upd_ticked (s : State) (v : Option BoxRun) : (applyUpd (.boxRun v) s).ticked = s.ticked := rfl
@[simp] theorem boxRun_upd_peerTickAt (s : State) (v : Option BoxRun) : (applyUpd (.boxRun v) s).peerTickAt = s.peerTickAt := rfl
@[simp] theorem boxRun_upd_guardPitch (s : State) (v : Option BoxRun) : (applyUpd (.boxRun v) s).guardPitch = s.guardPitch := rfl
@[simp] theorem boxRun_upd_diePitch (s : State) (v : Option BoxRun) : (applyUpd (.boxRun v) s).diePitch = s.diePitch := rfl
@[simp] theorem boxRun_upd_resps (s : State) (v : Option BoxRun) : (applyUpd (.boxRun v) s).resps = s.resps := rfl
@[simp] theorem boxRun_upd_txns (s : State) (v : Option BoxRun) : (applyUpd (.boxRun v) s).txns = s.txns := rfl
@[simp] theorem boxRun_upd_nextTag (s : State) (v : Option BoxRun) : (applyUpd (.boxRun v) s).nextTag = s.nextTag := rfl
@[simp] theorem boxRun_upd_lateTags (s : State) (v : Option BoxRun) : (applyUpd (.boxRun v) s).lateTags = s.lateTags := rfl
@[simp] theorem boxRun_upd_ports (s : State) (v : Option BoxRun) : (applyUpd (.boxRun v) s).ports = s.ports := rfl
@[simp] theorem boxRun_upd_threads (s : State) (v : Option BoxRun) : (applyUpd (.boxRun v) s).threads = s.threads := rfl
@[simp] theorem boxRun_upd_cores (s : State) (v : Option BoxRun) : (applyUpd (.boxRun v) s).cores = s.cores := rfl
@[simp] theorem boxRun_upd_engines (s : State) (v : Option BoxRun) : (applyUpd (.boxRun v) s).engines = s.engines := rfl
@[simp] theorem boxRun_upd_held (s : State) (v : Option BoxRun) : (applyUpd (.boxRun v) s).held = s.held := rfl
@[simp] theorem boxRun_upd_watches (s : State) (v : Option BoxRun) : (applyUpd (.boxRun v) s).watches = s.watches := rfl
@[simp] theorem boxRun_upd_watchMsgs (s : State) (v : Option BoxRun) : (applyUpd (.boxRun v) s).watchMsgs = s.watchMsgs := rfl
@[simp] theorem boxRun_upd_bankHeld (s : State) (v : Option BoxRun) : (applyUpd (.boxRun v) s).bankHeld = s.bankHeld := rfl
@[simp] theorem boxRun_upd_bankTarget (s : State) (v : Option BoxRun) : (applyUpd (.boxRun v) s).bankTarget = s.bankTarget := rfl
@[simp] theorem boxRun_upd_ecc (s : State) (v : Option BoxRun) : (applyUpd (.boxRun v) s).ecc = s.ecc := rfl
@[simp] theorem boxRun_upd_lineEcc (s : State) (v : Option BoxRun) : (applyUpd (.boxRun v) s).lineEcc = s.lineEcc := rfl
@[simp] theorem boxRun_upd_wbPending (s : State) (v : Option BoxRun) : (applyUpd (.boxRun v) s).wbPending = s.wbPending := rfl
@[simp] theorem boxRun_upd_scrubPos (s : State) (v : Option BoxRun) : (applyUpd (.boxRun v) s).scrubPos = s.scrubPos := rfl
@[simp] theorem boxRun_upd_refusals (s : State) (v : Option BoxRun) : (applyUpd (.boxRun v) s).refusals = s.refusals := rfl
@[simp] theorem boxRun_upd_firstRefusal (s : State) (v : Option BoxRun) : (applyUpd (.boxRun v) s).firstRefusal = s.firstRefusal := rfl
@[simp] theorem boxRun_upd_boxQueue (s : State) (v : Option BoxRun) : (applyUpd (.boxRun v) s).boxQueue = s.boxQueue := rfl
@[simp] theorem boxRun_upd_boxRun (s : State) (v : Option BoxRun) : (applyUpd (.boxRun v) s).boxRun = v := rfl
@[simp] theorem boxRun_upd_kvs (s : State) (v : Option BoxRun) : (applyUpd (.boxRun v) s).kvs = s.kvs := rfl
@[simp] theorem boxRun_upd_parts (s : State) (v : Option BoxRun) : (applyUpd (.boxRun v) s).parts = s.parts := rfl
@[simp] theorem boxRun_upd_dmas (s : State) (v : Option BoxRun) : (applyUpd (.boxRun v) s).dmas = s.dmas := rfl
@[simp] theorem boxRun_upd_regReqs (s : State) (v : Option BoxRun) : (applyUpd (.boxRun v) s).regReqs = s.regReqs := rfl
@[simp] theorem boxRun_upd_regPorts (s : State) (v : Option BoxRun) : (applyUpd (.boxRun v) s).regPorts = s.regPorts := rfl
@[simp] theorem boxRun_upd_subchs (s : State) (v : Option BoxRun) : (applyUpd (.boxRun v) s).subchs = s.subchs := rfl
@[simp] theorem boxRun_upd_trackers (s : State) (v : Option BoxRun) : (applyUpd (.boxRun v) s).trackers = s.trackers := rfl
@[simp] theorem boxRun_upd_throttles (s : State) (v : Option BoxRun) : (applyUpd (.boxRun v) s).throttles = s.throttles := rfl
@[simp] theorem boxRun_upd_errRing (s : State) (v : Option BoxRun) : (applyUpd (.boxRun v) s).errRing = s.errRing := rfl
@[simp] theorem boxRun_upd_errRingOvf (s : State) (v : Option BoxRun) : (applyUpd (.boxRun v) s).errRingOvf = s.errRingOvf := rfl
@[simp] theorem boxRun_upd_patrolLine (s : State) (v : Option BoxRun) : (applyUpd (.boxRun v) s).patrolLine = s.patrolLine := rfl
@[simp] theorem boxRun_upd_retTimes (s : State) (v : Option BoxRun) : (applyUpd (.boxRun v) s).retTimes = s.retTimes := rfl
@[simp] theorem boxRun_upd_retired (s : State) (v : Option BoxRun) : (applyUpd (.boxRun v) s).retired = s.retired := rfl
@[simp] theorem boxRun_upd_dramSeq (s : State) (v : Option BoxRun) : (applyUpd (.boxRun v) s).dramSeq = s.dramSeq := rfl
@[simp] theorem boxRun_upd_trn (s : State) (v : Option BoxRun) : (applyUpd (.boxRun v) s).trn = s.trn := rfl
@[simp] theorem boxRun_upd_dqsAdj (s : State) (v : Option BoxRun) : (applyUpd (.boxRun v) s).dqsAdj = s.dqsAdj := rfl
@[simp] theorem boxRun_upd_dpol (s : State) (v : Option BoxRun) : (applyUpd (.boxRun v) s).dpol = s.dpol := rfl
@[simp] theorem boxRun_upd_idleAt (s : State) (v : Option BoxRun) : (applyUpd (.boxRun v) s).idleAt = s.idleAt := rfl
@[simp] theorem boxRun_upd_fitted (s : State) (v : Option BoxRun) : (applyUpd (.boxRun v) s).fitted = s.fitted := rfl
@[simp] theorem boxRun_upd_faultMsgs (s : State) (v : Option BoxRun) : (applyUpd (.boxRun v) s).faultMsgs = s.faultMsgs := rfl
@[simp] theorem boxRun_upd_out (s : State) (v : Option BoxRun) : (applyUpd (.boxRun v) s).out = s.out := rfl
@[simp] theorem boxRun_upd_lastRead (s : State) (v : Option BoxRun) : (applyUpd (.boxRun v) s).lastRead = s.lastRead := rfl
@[simp] theorem boxRun_upd_fwd (s : State) (v : Option BoxRun) : (applyUpd (.boxRun v) s).fwd = s.fwd := rfl
@[simp] theorem boxRun_upd_ethTx (s : State) (v : Option BoxRun) : (applyUpd (.boxRun v) s).ethTx = s.ethTx := rfl
@[simp] theorem boxRun_upd_ethHeadAt (s : State) (v : Option BoxRun) : (applyUpd (.boxRun v) s).ethHeadAt = s.ethHeadAt := rfl
@[simp] theorem boxRun_upd_canTx (s : State) (v : Option BoxRun) : (applyUpd (.boxRun v) s).canTx = s.canTx := rfl
@[simp] theorem boxRun_upd_pcieOut (s : State) (v : Option BoxRun) : (applyUpd (.boxRun v) s).pcieOut = s.pcieOut := rfl
@[simp] theorem boxRun_upd_pcieCfgRd (s : State) (v : Option BoxRun) : (applyUpd (.boxRun v) s).pcieCfgRd = s.pcieCfgRd := rfl
@[simp] theorem boxRun_upd_msix (s : State) (v : Option BoxRun) : (applyUpd (.boxRun v) s).msix = s.msix := rfl
@[simp] theorem boxRun_upd_ancs (s : State) (v : Option BoxRun) : (applyUpd (.boxRun v) s).ancs = s.ancs := rfl
@[simp] theorem boxRun_upd_trajArea (s : State) (v : Option BoxRun) : (applyUpd (.boxRun v) s).trajArea = s.trajArea := rfl
@[simp] theorem boxRun_upd_lidarIn (s : State) (v : Option BoxRun) : (applyUpd (.boxRun v) s).lidarIn = s.lidarIn := rfl
@[simp] theorem boxRun_upd_wheelIn (s : State) (v : Option BoxRun) : (applyUpd (.boxRun v) s).wheelIn = s.wheelIn := rfl
@[simp] theorem boxRun_upd_spiStepBusy (s : State) (v : Option BoxRun) : (applyUpd (.boxRun v) s).spiStepBusy = s.spiStepBusy := rfl
@[simp] theorem boxRun_upd_spiRec (s : State) (v : Option BoxRun) : (applyUpd (.boxRun v) s).spiRec = s.spiRec := rfl
@[simp] theorem boxRun_upd_spiStepCfg (s : State) (v : Option BoxRun) : (applyUpd (.boxRun v) s).spiStepCfg = s.spiStepCfg := rfl
@[simp] theorem boxRun_upd_ctxs (s : State) (v : Option BoxRun) : (applyUpd (.boxRun v) s).ctxs = s.ctxs := rfl
@[simp] theorem boxRun_upd_fsyOmit (s : State) (v : Option BoxRun) : (applyUpd (.boxRun v) s).fsyOmit = s.fsyOmit := rfl
@[simp] theorem boxRun_upd_fsyPulsed (s : State) (v : Option BoxRun) : (applyUpd (.boxRun v) s).fsyPulsed = s.fsyPulsed := rfl
@[simp] theorem boxRun_upd_supTasks (s : State) (v : Option BoxRun) : (applyUpd (.boxRun v) s).supTasks = s.supTasks := rfl
@[simp] theorem boxRun_upd_fus (s : State) (v : Option BoxRun) : (applyUpd (.boxRun v) s).fus = s.fus := rfl
@[simp] theorem boxRun_upd_fcons (s : State) (v : Option BoxRun) : (applyUpd (.boxRun v) s).fcons = s.fcons := rfl
@[simp] theorem boxRun_upd_shadow (s : State) (v : Option BoxRun) : (applyUpd (.boxRun v) s).shadow = s.shadow := rfl
@[simp] theorem boxRun_upd_trv (s : State) (v : Option BoxRun) : (applyUpd (.boxRun v) s).trv = s.trv := rfl
@[simp] theorem boxRun_upd_tlayers (s : State) (v : Option BoxRun) : (applyUpd (.boxRun v) s).tlayers = s.tlayers := rfl
@[simp] theorem boxRun_upd_jobFaults (s : State) (v : Option BoxRun) : (applyUpd (.boxRun v) s).jobFaults = s.jobFaults := rfl
@[simp] theorem boxRun_upd_unitLast (s : State) (v : Option BoxRun) : (applyUpd (.boxRun v) s).unitLast = s.unitLast := rfl
@[simp] theorem boxRun_upd_unitRst (s : State) (v : Option BoxRun) : (applyUpd (.boxRun v) s).unitRst = s.unitRst := rfl
@[simp] theorem boxRun_upd_xlink (s : State) (v : Option BoxRun) : (applyUpd (.boxRun v) s).xlink = s.xlink := rfl
@[simp] theorem boxRun_upd_trace (s : State) (v : Option BoxRun) : (applyUpd (.boxRun v) s).trace = s.trace := rfl
@[simp] theorem boxRun_upd_progs (s : State) (v : Option BoxRun) : (applyUpd (.boxRun v) s).progs = s.progs := rfl
@[simp] theorem boxRun_upd_rails (s : State) (v : Option BoxRun) : (applyUpd (.boxRun v) s).rails = s.rails := rfl
@[simp] theorem boxRun_upd_thm (s : State) (v : Option BoxRun) : (applyUpd (.boxRun v) s).thm = s.thm := rfl
@[simp] theorem boxRun_upd_bnd (s : State) (v : Option BoxRun) : (applyUpd (.boxRun v) s).bnd = s.bnd := rfl
@[simp] theorem boxRun_upd_thmTrip (s : State) (v : Option BoxRun) : (applyUpd (.boxRun v) s).thmTrip = s.thmTrip := rfl
@[simp] theorem boxRun_upd_flash (s : State) (v : Option BoxRun) : (applyUpd (.boxRun v) s).flash = s.flash := rfl
@[simp] theorem boxRun_upd_slots (s : State) (v : Option BoxRun) : (applyUpd (.boxRun v) s).slots = s.slots := rfl
@[simp] theorem boxRun_upd_stores (s : State) (v : Option BoxRun) : (applyUpd (.boxRun v) s).stores = s.stores := rfl
@[simp] theorem boxRun_upd_ids (s : State) (v : Option BoxRun) : (applyUpd (.boxRun v) s).ids = s.ids := rfl
@[simp] theorem boxRun_upd_boot (s : State) (v : Option BoxRun) : (applyUpd (.boxRun v) s).boot = s.boot := rfl
@[simp] theorem boxRun_upd_load (s : State) (v : Option BoxRun) : (applyUpd (.boxRun v) s).load = s.load := rfl
@[simp] theorem boxRun_upd_flt (s : State) (v : Option BoxRun) : (applyUpd (.boxRun v) s).flt = s.flt := rfl
@[simp] theorem boxRun_upd_mon (s : State) (v : Option BoxRun) : (applyUpd (.boxRun v) s).mon = s.mon := rfl
@[simp] theorem kvs_upd_pending (s : State) (k : Nat) (v : KvCache) : (applyUpd (.kvs k v) s).pending = s.pending := rfl
@[simp] theorem kvs_upd_regs (s : State) (k : Nat) (v : KvCache) : (applyUpd (.kvs k v) s).regs = s.regs := rfl
@[simp] theorem kvs_upd_mem (s : State) (k : Nat) (v : KvCache) : (applyUpd (.kvs k v) s).mem = s.mem := rfl
@[simp] theorem kvs_upd_sram (s : State) (k : Nat) (v : KvCache) : (applyUpd (.kvs k v) s).sram = s.sram := rfl
@[simp] theorem kvs_upd_time (s : State) (k : Nat) (v : KvCache) : (applyUpd (.kvs k v) s).time = s.time := rfl
@[simp] theorem kvs_upd_timeFrac (s : State) (k : Nat) (v : KvCache) : (applyUpd (.kvs k v) s).timeFrac = s.timeFrac := rfl
@[simp] theorem kvs_upd_freeCtr (s : State) (k : Nat) (v : KvCache) : (applyUpd (.kvs k v) s).freeCtr = s.freeCtr := rfl
@[simp] theorem kvs_upd_hiLatch (s : State) (k : Nat) (v : KvCache) : (applyUpd (.kvs k v) s).hiLatch = s.hiLatch := rfl
@[simp] theorem kvs_upd_timeSet (s : State) (k : Nat) (v : KvCache) : (applyUpd (.kvs k v) s).timeSet = s.timeSet := rfl
@[simp] theorem kvs_upd_n0 (s : State) (k : Nat) (v : KvCache) : (applyUpd (.kvs k v) s).n0 = s.n0 := rfl
@[simp] theorem kvs_upd_ticked (s : State) (k : Nat) (v : KvCache) : (applyUpd (.kvs k v) s).ticked = s.ticked := rfl
@[simp] theorem kvs_upd_peerTickAt (s : State) (k : Nat) (v : KvCache) : (applyUpd (.kvs k v) s).peerTickAt = s.peerTickAt := rfl
@[simp] theorem kvs_upd_guardPitch (s : State) (k : Nat) (v : KvCache) : (applyUpd (.kvs k v) s).guardPitch = s.guardPitch := rfl
@[simp] theorem kvs_upd_diePitch (s : State) (k : Nat) (v : KvCache) : (applyUpd (.kvs k v) s).diePitch = s.diePitch := rfl
@[simp] theorem kvs_upd_resps (s : State) (k : Nat) (v : KvCache) : (applyUpd (.kvs k v) s).resps = s.resps := rfl
@[simp] theorem kvs_upd_txns (s : State) (k : Nat) (v : KvCache) : (applyUpd (.kvs k v) s).txns = s.txns := rfl
@[simp] theorem kvs_upd_nextTag (s : State) (k : Nat) (v : KvCache) : (applyUpd (.kvs k v) s).nextTag = s.nextTag := rfl
@[simp] theorem kvs_upd_lateTags (s : State) (k : Nat) (v : KvCache) : (applyUpd (.kvs k v) s).lateTags = s.lateTags := rfl
@[simp] theorem kvs_upd_ports (s : State) (k : Nat) (v : KvCache) : (applyUpd (.kvs k v) s).ports = s.ports := rfl
@[simp] theorem kvs_upd_threads (s : State) (k : Nat) (v : KvCache) : (applyUpd (.kvs k v) s).threads = s.threads := rfl
@[simp] theorem kvs_upd_cores (s : State) (k : Nat) (v : KvCache) : (applyUpd (.kvs k v) s).cores = s.cores := rfl
@[simp] theorem kvs_upd_engines (s : State) (k : Nat) (v : KvCache) : (applyUpd (.kvs k v) s).engines = s.engines := rfl
@[simp] theorem kvs_upd_held (s : State) (k : Nat) (v : KvCache) : (applyUpd (.kvs k v) s).held = s.held := rfl
@[simp] theorem kvs_upd_watches (s : State) (k : Nat) (v : KvCache) : (applyUpd (.kvs k v) s).watches = s.watches := rfl
@[simp] theorem kvs_upd_watchMsgs (s : State) (k : Nat) (v : KvCache) : (applyUpd (.kvs k v) s).watchMsgs = s.watchMsgs := rfl
@[simp] theorem kvs_upd_bankHeld (s : State) (k : Nat) (v : KvCache) : (applyUpd (.kvs k v) s).bankHeld = s.bankHeld := rfl
@[simp] theorem kvs_upd_bankTarget (s : State) (k : Nat) (v : KvCache) : (applyUpd (.kvs k v) s).bankTarget = s.bankTarget := rfl
@[simp] theorem kvs_upd_ecc (s : State) (k : Nat) (v : KvCache) : (applyUpd (.kvs k v) s).ecc = s.ecc := rfl
@[simp] theorem kvs_upd_lineEcc (s : State) (k : Nat) (v : KvCache) : (applyUpd (.kvs k v) s).lineEcc = s.lineEcc := rfl
@[simp] theorem kvs_upd_wbPending (s : State) (k : Nat) (v : KvCache) : (applyUpd (.kvs k v) s).wbPending = s.wbPending := rfl
@[simp] theorem kvs_upd_scrubPos (s : State) (k : Nat) (v : KvCache) : (applyUpd (.kvs k v) s).scrubPos = s.scrubPos := rfl
@[simp] theorem kvs_upd_refusals (s : State) (k : Nat) (v : KvCache) : (applyUpd (.kvs k v) s).refusals = s.refusals := rfl
@[simp] theorem kvs_upd_firstRefusal (s : State) (k : Nat) (v : KvCache) : (applyUpd (.kvs k v) s).firstRefusal = s.firstRefusal := rfl
@[simp] theorem kvs_upd_boxQueue (s : State) (k : Nat) (v : KvCache) : (applyUpd (.kvs k v) s).boxQueue = s.boxQueue := rfl
@[simp] theorem kvs_upd_boxRun (s : State) (k : Nat) (v : KvCache) : (applyUpd (.kvs k v) s).boxRun = s.boxRun := rfl
@[simp] theorem kvs_upd_kvs (s : State) (k : Nat) (v : KvCache) : (applyUpd (.kvs k v) s).kvs = tabSet kvDefault s.kvs k v := rfl
@[simp] theorem kvs_upd_parts (s : State) (k : Nat) (v : KvCache) : (applyUpd (.kvs k v) s).parts = s.parts := rfl
@[simp] theorem kvs_upd_dmas (s : State) (k : Nat) (v : KvCache) : (applyUpd (.kvs k v) s).dmas = s.dmas := rfl
@[simp] theorem kvs_upd_regReqs (s : State) (k : Nat) (v : KvCache) : (applyUpd (.kvs k v) s).regReqs = s.regReqs := rfl
@[simp] theorem kvs_upd_regPorts (s : State) (k : Nat) (v : KvCache) : (applyUpd (.kvs k v) s).regPorts = s.regPorts := rfl
@[simp] theorem kvs_upd_subchs (s : State) (k : Nat) (v : KvCache) : (applyUpd (.kvs k v) s).subchs = s.subchs := rfl
@[simp] theorem kvs_upd_trackers (s : State) (k : Nat) (v : KvCache) : (applyUpd (.kvs k v) s).trackers = s.trackers := rfl
@[simp] theorem kvs_upd_throttles (s : State) (k : Nat) (v : KvCache) : (applyUpd (.kvs k v) s).throttles = s.throttles := rfl
@[simp] theorem kvs_upd_errRing (s : State) (k : Nat) (v : KvCache) : (applyUpd (.kvs k v) s).errRing = s.errRing := rfl
@[simp] theorem kvs_upd_errRingOvf (s : State) (k : Nat) (v : KvCache) : (applyUpd (.kvs k v) s).errRingOvf = s.errRingOvf := rfl
@[simp] theorem kvs_upd_patrolLine (s : State) (k : Nat) (v : KvCache) : (applyUpd (.kvs k v) s).patrolLine = s.patrolLine := rfl
@[simp] theorem kvs_upd_retTimes (s : State) (k : Nat) (v : KvCache) : (applyUpd (.kvs k v) s).retTimes = s.retTimes := rfl
@[simp] theorem kvs_upd_retired (s : State) (k : Nat) (v : KvCache) : (applyUpd (.kvs k v) s).retired = s.retired := rfl
@[simp] theorem kvs_upd_dramSeq (s : State) (k : Nat) (v : KvCache) : (applyUpd (.kvs k v) s).dramSeq = s.dramSeq := rfl
@[simp] theorem kvs_upd_trn (s : State) (k : Nat) (v : KvCache) : (applyUpd (.kvs k v) s).trn = s.trn := rfl
@[simp] theorem kvs_upd_dqsAdj (s : State) (k : Nat) (v : KvCache) : (applyUpd (.kvs k v) s).dqsAdj = s.dqsAdj := rfl
@[simp] theorem kvs_upd_dpol (s : State) (k : Nat) (v : KvCache) : (applyUpd (.kvs k v) s).dpol = s.dpol := rfl
@[simp] theorem kvs_upd_idleAt (s : State) (k : Nat) (v : KvCache) : (applyUpd (.kvs k v) s).idleAt = s.idleAt := rfl
@[simp] theorem kvs_upd_fitted (s : State) (k : Nat) (v : KvCache) : (applyUpd (.kvs k v) s).fitted = s.fitted := rfl
@[simp] theorem kvs_upd_faultMsgs (s : State) (k : Nat) (v : KvCache) : (applyUpd (.kvs k v) s).faultMsgs = s.faultMsgs := rfl
@[simp] theorem kvs_upd_out (s : State) (k : Nat) (v : KvCache) : (applyUpd (.kvs k v) s).out = s.out := rfl
@[simp] theorem kvs_upd_lastRead (s : State) (k : Nat) (v : KvCache) : (applyUpd (.kvs k v) s).lastRead = s.lastRead := rfl
@[simp] theorem kvs_upd_fwd (s : State) (k : Nat) (v : KvCache) : (applyUpd (.kvs k v) s).fwd = s.fwd := rfl
@[simp] theorem kvs_upd_ethTx (s : State) (k : Nat) (v : KvCache) : (applyUpd (.kvs k v) s).ethTx = s.ethTx := rfl
@[simp] theorem kvs_upd_ethHeadAt (s : State) (k : Nat) (v : KvCache) : (applyUpd (.kvs k v) s).ethHeadAt = s.ethHeadAt := rfl
@[simp] theorem kvs_upd_canTx (s : State) (k : Nat) (v : KvCache) : (applyUpd (.kvs k v) s).canTx = s.canTx := rfl
@[simp] theorem kvs_upd_pcieOut (s : State) (k : Nat) (v : KvCache) : (applyUpd (.kvs k v) s).pcieOut = s.pcieOut := rfl
@[simp] theorem kvs_upd_pcieCfgRd (s : State) (k : Nat) (v : KvCache) : (applyUpd (.kvs k v) s).pcieCfgRd = s.pcieCfgRd := rfl
@[simp] theorem kvs_upd_msix (s : State) (k : Nat) (v : KvCache) : (applyUpd (.kvs k v) s).msix = s.msix := rfl
@[simp] theorem kvs_upd_ancs (s : State) (k : Nat) (v : KvCache) : (applyUpd (.kvs k v) s).ancs = s.ancs := rfl
@[simp] theorem kvs_upd_trajArea (s : State) (k : Nat) (v : KvCache) : (applyUpd (.kvs k v) s).trajArea = s.trajArea := rfl
@[simp] theorem kvs_upd_lidarIn (s : State) (k : Nat) (v : KvCache) : (applyUpd (.kvs k v) s).lidarIn = s.lidarIn := rfl
@[simp] theorem kvs_upd_wheelIn (s : State) (k : Nat) (v : KvCache) : (applyUpd (.kvs k v) s).wheelIn = s.wheelIn := rfl
@[simp] theorem kvs_upd_spiStepBusy (s : State) (k : Nat) (v : KvCache) : (applyUpd (.kvs k v) s).spiStepBusy = s.spiStepBusy := rfl
@[simp] theorem kvs_upd_spiRec (s : State) (k : Nat) (v : KvCache) : (applyUpd (.kvs k v) s).spiRec = s.spiRec := rfl
@[simp] theorem kvs_upd_spiStepCfg (s : State) (k : Nat) (v : KvCache) : (applyUpd (.kvs k v) s).spiStepCfg = s.spiStepCfg := rfl
@[simp] theorem kvs_upd_ctxs (s : State) (k : Nat) (v : KvCache) : (applyUpd (.kvs k v) s).ctxs = s.ctxs := rfl
@[simp] theorem kvs_upd_fsyOmit (s : State) (k : Nat) (v : KvCache) : (applyUpd (.kvs k v) s).fsyOmit = s.fsyOmit := rfl
@[simp] theorem kvs_upd_fsyPulsed (s : State) (k : Nat) (v : KvCache) : (applyUpd (.kvs k v) s).fsyPulsed = s.fsyPulsed := rfl
@[simp] theorem kvs_upd_supTasks (s : State) (k : Nat) (v : KvCache) : (applyUpd (.kvs k v) s).supTasks = s.supTasks := rfl
@[simp] theorem kvs_upd_fus (s : State) (k : Nat) (v : KvCache) : (applyUpd (.kvs k v) s).fus = s.fus := rfl
@[simp] theorem kvs_upd_fcons (s : State) (k : Nat) (v : KvCache) : (applyUpd (.kvs k v) s).fcons = s.fcons := rfl
@[simp] theorem kvs_upd_shadow (s : State) (k : Nat) (v : KvCache) : (applyUpd (.kvs k v) s).shadow = s.shadow := rfl
@[simp] theorem kvs_upd_trv (s : State) (k : Nat) (v : KvCache) : (applyUpd (.kvs k v) s).trv = s.trv := rfl
@[simp] theorem kvs_upd_tlayers (s : State) (k : Nat) (v : KvCache) : (applyUpd (.kvs k v) s).tlayers = s.tlayers := rfl
@[simp] theorem kvs_upd_jobFaults (s : State) (k : Nat) (v : KvCache) : (applyUpd (.kvs k v) s).jobFaults = s.jobFaults := rfl
@[simp] theorem kvs_upd_unitLast (s : State) (k : Nat) (v : KvCache) : (applyUpd (.kvs k v) s).unitLast = s.unitLast := rfl
@[simp] theorem kvs_upd_unitRst (s : State) (k : Nat) (v : KvCache) : (applyUpd (.kvs k v) s).unitRst = s.unitRst := rfl
@[simp] theorem kvs_upd_xlink (s : State) (k : Nat) (v : KvCache) : (applyUpd (.kvs k v) s).xlink = s.xlink := rfl
@[simp] theorem kvs_upd_trace (s : State) (k : Nat) (v : KvCache) : (applyUpd (.kvs k v) s).trace = s.trace := rfl
@[simp] theorem kvs_upd_progs (s : State) (k : Nat) (v : KvCache) : (applyUpd (.kvs k v) s).progs = s.progs := rfl
@[simp] theorem kvs_upd_rails (s : State) (k : Nat) (v : KvCache) : (applyUpd (.kvs k v) s).rails = s.rails := rfl
@[simp] theorem kvs_upd_thm (s : State) (k : Nat) (v : KvCache) : (applyUpd (.kvs k v) s).thm = s.thm := rfl
@[simp] theorem kvs_upd_bnd (s : State) (k : Nat) (v : KvCache) : (applyUpd (.kvs k v) s).bnd = s.bnd := rfl
@[simp] theorem kvs_upd_thmTrip (s : State) (k : Nat) (v : KvCache) : (applyUpd (.kvs k v) s).thmTrip = s.thmTrip := rfl
@[simp] theorem kvs_upd_flash (s : State) (k : Nat) (v : KvCache) : (applyUpd (.kvs k v) s).flash = s.flash := rfl
@[simp] theorem kvs_upd_slots (s : State) (k : Nat) (v : KvCache) : (applyUpd (.kvs k v) s).slots = s.slots := rfl
@[simp] theorem kvs_upd_stores (s : State) (k : Nat) (v : KvCache) : (applyUpd (.kvs k v) s).stores = s.stores := rfl
@[simp] theorem kvs_upd_ids (s : State) (k : Nat) (v : KvCache) : (applyUpd (.kvs k v) s).ids = s.ids := rfl
@[simp] theorem kvs_upd_boot (s : State) (k : Nat) (v : KvCache) : (applyUpd (.kvs k v) s).boot = s.boot := rfl
@[simp] theorem kvs_upd_load (s : State) (k : Nat) (v : KvCache) : (applyUpd (.kvs k v) s).load = s.load := rfl
@[simp] theorem kvs_upd_flt (s : State) (k : Nat) (v : KvCache) : (applyUpd (.kvs k v) s).flt = s.flt := rfl
@[simp] theorem kvs_upd_mon (s : State) (k : Nat) (v : KvCache) : (applyUpd (.kvs k v) s).mon = s.mon := rfl
@[simp] theorem parts_upd_pending (s : State) (k : Nat) (v : PartAux) : (applyUpd (.parts k v) s).pending = s.pending := rfl
@[simp] theorem parts_upd_regs (s : State) (k : Nat) (v : PartAux) : (applyUpd (.parts k v) s).regs = s.regs := rfl
@[simp] theorem parts_upd_mem (s : State) (k : Nat) (v : PartAux) : (applyUpd (.parts k v) s).mem = s.mem := rfl
@[simp] theorem parts_upd_sram (s : State) (k : Nat) (v : PartAux) : (applyUpd (.parts k v) s).sram = s.sram := rfl
@[simp] theorem parts_upd_time (s : State) (k : Nat) (v : PartAux) : (applyUpd (.parts k v) s).time = s.time := rfl
@[simp] theorem parts_upd_timeFrac (s : State) (k : Nat) (v : PartAux) : (applyUpd (.parts k v) s).timeFrac = s.timeFrac := rfl
@[simp] theorem parts_upd_freeCtr (s : State) (k : Nat) (v : PartAux) : (applyUpd (.parts k v) s).freeCtr = s.freeCtr := rfl
@[simp] theorem parts_upd_hiLatch (s : State) (k : Nat) (v : PartAux) : (applyUpd (.parts k v) s).hiLatch = s.hiLatch := rfl
@[simp] theorem parts_upd_timeSet (s : State) (k : Nat) (v : PartAux) : (applyUpd (.parts k v) s).timeSet = s.timeSet := rfl
@[simp] theorem parts_upd_n0 (s : State) (k : Nat) (v : PartAux) : (applyUpd (.parts k v) s).n0 = s.n0 := rfl
@[simp] theorem parts_upd_ticked (s : State) (k : Nat) (v : PartAux) : (applyUpd (.parts k v) s).ticked = s.ticked := rfl
@[simp] theorem parts_upd_peerTickAt (s : State) (k : Nat) (v : PartAux) : (applyUpd (.parts k v) s).peerTickAt = s.peerTickAt := rfl
@[simp] theorem parts_upd_guardPitch (s : State) (k : Nat) (v : PartAux) : (applyUpd (.parts k v) s).guardPitch = s.guardPitch := rfl
@[simp] theorem parts_upd_diePitch (s : State) (k : Nat) (v : PartAux) : (applyUpd (.parts k v) s).diePitch = s.diePitch := rfl
@[simp] theorem parts_upd_resps (s : State) (k : Nat) (v : PartAux) : (applyUpd (.parts k v) s).resps = s.resps := rfl
@[simp] theorem parts_upd_txns (s : State) (k : Nat) (v : PartAux) : (applyUpd (.parts k v) s).txns = s.txns := rfl
@[simp] theorem parts_upd_nextTag (s : State) (k : Nat) (v : PartAux) : (applyUpd (.parts k v) s).nextTag = s.nextTag := rfl
@[simp] theorem parts_upd_lateTags (s : State) (k : Nat) (v : PartAux) : (applyUpd (.parts k v) s).lateTags = s.lateTags := rfl
@[simp] theorem parts_upd_ports (s : State) (k : Nat) (v : PartAux) : (applyUpd (.parts k v) s).ports = s.ports := rfl
@[simp] theorem parts_upd_threads (s : State) (k : Nat) (v : PartAux) : (applyUpd (.parts k v) s).threads = s.threads := rfl
@[simp] theorem parts_upd_cores (s : State) (k : Nat) (v : PartAux) : (applyUpd (.parts k v) s).cores = s.cores := rfl
@[simp] theorem parts_upd_engines (s : State) (k : Nat) (v : PartAux) : (applyUpd (.parts k v) s).engines = s.engines := rfl
@[simp] theorem parts_upd_held (s : State) (k : Nat) (v : PartAux) : (applyUpd (.parts k v) s).held = s.held := rfl
@[simp] theorem parts_upd_watches (s : State) (k : Nat) (v : PartAux) : (applyUpd (.parts k v) s).watches = s.watches := rfl
@[simp] theorem parts_upd_watchMsgs (s : State) (k : Nat) (v : PartAux) : (applyUpd (.parts k v) s).watchMsgs = s.watchMsgs := rfl
@[simp] theorem parts_upd_bankHeld (s : State) (k : Nat) (v : PartAux) : (applyUpd (.parts k v) s).bankHeld = s.bankHeld := rfl
@[simp] theorem parts_upd_bankTarget (s : State) (k : Nat) (v : PartAux) : (applyUpd (.parts k v) s).bankTarget = s.bankTarget := rfl
@[simp] theorem parts_upd_ecc (s : State) (k : Nat) (v : PartAux) : (applyUpd (.parts k v) s).ecc = s.ecc := rfl
@[simp] theorem parts_upd_lineEcc (s : State) (k : Nat) (v : PartAux) : (applyUpd (.parts k v) s).lineEcc = s.lineEcc := rfl
@[simp] theorem parts_upd_wbPending (s : State) (k : Nat) (v : PartAux) : (applyUpd (.parts k v) s).wbPending = s.wbPending := rfl
@[simp] theorem parts_upd_scrubPos (s : State) (k : Nat) (v : PartAux) : (applyUpd (.parts k v) s).scrubPos = s.scrubPos := rfl
@[simp] theorem parts_upd_refusals (s : State) (k : Nat) (v : PartAux) : (applyUpd (.parts k v) s).refusals = s.refusals := rfl
@[simp] theorem parts_upd_firstRefusal (s : State) (k : Nat) (v : PartAux) : (applyUpd (.parts k v) s).firstRefusal = s.firstRefusal := rfl
@[simp] theorem parts_upd_boxQueue (s : State) (k : Nat) (v : PartAux) : (applyUpd (.parts k v) s).boxQueue = s.boxQueue := rfl
@[simp] theorem parts_upd_boxRun (s : State) (k : Nat) (v : PartAux) : (applyUpd (.parts k v) s).boxRun = s.boxRun := rfl
@[simp] theorem parts_upd_kvs (s : State) (k : Nat) (v : PartAux) : (applyUpd (.parts k v) s).kvs = s.kvs := rfl
@[simp] theorem parts_upd_parts (s : State) (k : Nat) (v : PartAux) : (applyUpd (.parts k v) s).parts = tabSet partDefault s.parts k v := rfl
@[simp] theorem parts_upd_dmas (s : State) (k : Nat) (v : PartAux) : (applyUpd (.parts k v) s).dmas = s.dmas := rfl
@[simp] theorem parts_upd_regReqs (s : State) (k : Nat) (v : PartAux) : (applyUpd (.parts k v) s).regReqs = s.regReqs := rfl
@[simp] theorem parts_upd_regPorts (s : State) (k : Nat) (v : PartAux) : (applyUpd (.parts k v) s).regPorts = s.regPorts := rfl
@[simp] theorem parts_upd_subchs (s : State) (k : Nat) (v : PartAux) : (applyUpd (.parts k v) s).subchs = s.subchs := rfl
@[simp] theorem parts_upd_trackers (s : State) (k : Nat) (v : PartAux) : (applyUpd (.parts k v) s).trackers = s.trackers := rfl
@[simp] theorem parts_upd_throttles (s : State) (k : Nat) (v : PartAux) : (applyUpd (.parts k v) s).throttles = s.throttles := rfl
@[simp] theorem parts_upd_errRing (s : State) (k : Nat) (v : PartAux) : (applyUpd (.parts k v) s).errRing = s.errRing := rfl
@[simp] theorem parts_upd_errRingOvf (s : State) (k : Nat) (v : PartAux) : (applyUpd (.parts k v) s).errRingOvf = s.errRingOvf := rfl
@[simp] theorem parts_upd_patrolLine (s : State) (k : Nat) (v : PartAux) : (applyUpd (.parts k v) s).patrolLine = s.patrolLine := rfl
@[simp] theorem parts_upd_retTimes (s : State) (k : Nat) (v : PartAux) : (applyUpd (.parts k v) s).retTimes = s.retTimes := rfl
@[simp] theorem parts_upd_retired (s : State) (k : Nat) (v : PartAux) : (applyUpd (.parts k v) s).retired = s.retired := rfl
@[simp] theorem parts_upd_dramSeq (s : State) (k : Nat) (v : PartAux) : (applyUpd (.parts k v) s).dramSeq = s.dramSeq := rfl
@[simp] theorem parts_upd_trn (s : State) (k : Nat) (v : PartAux) : (applyUpd (.parts k v) s).trn = s.trn := rfl
@[simp] theorem parts_upd_dqsAdj (s : State) (k : Nat) (v : PartAux) : (applyUpd (.parts k v) s).dqsAdj = s.dqsAdj := rfl
@[simp] theorem parts_upd_dpol (s : State) (k : Nat) (v : PartAux) : (applyUpd (.parts k v) s).dpol = s.dpol := rfl
@[simp] theorem parts_upd_idleAt (s : State) (k : Nat) (v : PartAux) : (applyUpd (.parts k v) s).idleAt = s.idleAt := rfl
@[simp] theorem parts_upd_fitted (s : State) (k : Nat) (v : PartAux) : (applyUpd (.parts k v) s).fitted = s.fitted := rfl
@[simp] theorem parts_upd_faultMsgs (s : State) (k : Nat) (v : PartAux) : (applyUpd (.parts k v) s).faultMsgs = s.faultMsgs := rfl
@[simp] theorem parts_upd_out (s : State) (k : Nat) (v : PartAux) : (applyUpd (.parts k v) s).out = s.out := rfl
@[simp] theorem parts_upd_lastRead (s : State) (k : Nat) (v : PartAux) : (applyUpd (.parts k v) s).lastRead = s.lastRead := rfl
@[simp] theorem parts_upd_fwd (s : State) (k : Nat) (v : PartAux) : (applyUpd (.parts k v) s).fwd = s.fwd := rfl
@[simp] theorem parts_upd_ethTx (s : State) (k : Nat) (v : PartAux) : (applyUpd (.parts k v) s).ethTx = s.ethTx := rfl
@[simp] theorem parts_upd_ethHeadAt (s : State) (k : Nat) (v : PartAux) : (applyUpd (.parts k v) s).ethHeadAt = s.ethHeadAt := rfl
@[simp] theorem parts_upd_canTx (s : State) (k : Nat) (v : PartAux) : (applyUpd (.parts k v) s).canTx = s.canTx := rfl
@[simp] theorem parts_upd_pcieOut (s : State) (k : Nat) (v : PartAux) : (applyUpd (.parts k v) s).pcieOut = s.pcieOut := rfl
@[simp] theorem parts_upd_pcieCfgRd (s : State) (k : Nat) (v : PartAux) : (applyUpd (.parts k v) s).pcieCfgRd = s.pcieCfgRd := rfl
@[simp] theorem parts_upd_msix (s : State) (k : Nat) (v : PartAux) : (applyUpd (.parts k v) s).msix = s.msix := rfl
@[simp] theorem parts_upd_ancs (s : State) (k : Nat) (v : PartAux) : (applyUpd (.parts k v) s).ancs = s.ancs := rfl
@[simp] theorem parts_upd_trajArea (s : State) (k : Nat) (v : PartAux) : (applyUpd (.parts k v) s).trajArea = s.trajArea := rfl
@[simp] theorem parts_upd_lidarIn (s : State) (k : Nat) (v : PartAux) : (applyUpd (.parts k v) s).lidarIn = s.lidarIn := rfl
@[simp] theorem parts_upd_wheelIn (s : State) (k : Nat) (v : PartAux) : (applyUpd (.parts k v) s).wheelIn = s.wheelIn := rfl
@[simp] theorem parts_upd_spiStepBusy (s : State) (k : Nat) (v : PartAux) : (applyUpd (.parts k v) s).spiStepBusy = s.spiStepBusy := rfl
@[simp] theorem parts_upd_spiRec (s : State) (k : Nat) (v : PartAux) : (applyUpd (.parts k v) s).spiRec = s.spiRec := rfl
@[simp] theorem parts_upd_spiStepCfg (s : State) (k : Nat) (v : PartAux) : (applyUpd (.parts k v) s).spiStepCfg = s.spiStepCfg := rfl
@[simp] theorem parts_upd_ctxs (s : State) (k : Nat) (v : PartAux) : (applyUpd (.parts k v) s).ctxs = s.ctxs := rfl
@[simp] theorem parts_upd_fsyOmit (s : State) (k : Nat) (v : PartAux) : (applyUpd (.parts k v) s).fsyOmit = s.fsyOmit := rfl
@[simp] theorem parts_upd_fsyPulsed (s : State) (k : Nat) (v : PartAux) : (applyUpd (.parts k v) s).fsyPulsed = s.fsyPulsed := rfl
@[simp] theorem parts_upd_supTasks (s : State) (k : Nat) (v : PartAux) : (applyUpd (.parts k v) s).supTasks = s.supTasks := rfl
@[simp] theorem parts_upd_fus (s : State) (k : Nat) (v : PartAux) : (applyUpd (.parts k v) s).fus = s.fus := rfl
@[simp] theorem parts_upd_fcons (s : State) (k : Nat) (v : PartAux) : (applyUpd (.parts k v) s).fcons = s.fcons := rfl
@[simp] theorem parts_upd_shadow (s : State) (k : Nat) (v : PartAux) : (applyUpd (.parts k v) s).shadow = s.shadow := rfl
@[simp] theorem parts_upd_trv (s : State) (k : Nat) (v : PartAux) : (applyUpd (.parts k v) s).trv = s.trv := rfl
@[simp] theorem parts_upd_tlayers (s : State) (k : Nat) (v : PartAux) : (applyUpd (.parts k v) s).tlayers = s.tlayers := rfl
@[simp] theorem parts_upd_jobFaults (s : State) (k : Nat) (v : PartAux) : (applyUpd (.parts k v) s).jobFaults = s.jobFaults := rfl
@[simp] theorem parts_upd_unitLast (s : State) (k : Nat) (v : PartAux) : (applyUpd (.parts k v) s).unitLast = s.unitLast := rfl
@[simp] theorem parts_upd_unitRst (s : State) (k : Nat) (v : PartAux) : (applyUpd (.parts k v) s).unitRst = s.unitRst := rfl
@[simp] theorem parts_upd_xlink (s : State) (k : Nat) (v : PartAux) : (applyUpd (.parts k v) s).xlink = s.xlink := rfl
@[simp] theorem parts_upd_trace (s : State) (k : Nat) (v : PartAux) : (applyUpd (.parts k v) s).trace = s.trace := rfl
@[simp] theorem parts_upd_progs (s : State) (k : Nat) (v : PartAux) : (applyUpd (.parts k v) s).progs = s.progs := rfl
@[simp] theorem parts_upd_rails (s : State) (k : Nat) (v : PartAux) : (applyUpd (.parts k v) s).rails = s.rails := rfl
@[simp] theorem parts_upd_thm (s : State) (k : Nat) (v : PartAux) : (applyUpd (.parts k v) s).thm = s.thm := rfl
@[simp] theorem parts_upd_bnd (s : State) (k : Nat) (v : PartAux) : (applyUpd (.parts k v) s).bnd = s.bnd := rfl
@[simp] theorem parts_upd_thmTrip (s : State) (k : Nat) (v : PartAux) : (applyUpd (.parts k v) s).thmTrip = s.thmTrip := rfl
@[simp] theorem parts_upd_flash (s : State) (k : Nat) (v : PartAux) : (applyUpd (.parts k v) s).flash = s.flash := rfl
@[simp] theorem parts_upd_slots (s : State) (k : Nat) (v : PartAux) : (applyUpd (.parts k v) s).slots = s.slots := rfl
@[simp] theorem parts_upd_stores (s : State) (k : Nat) (v : PartAux) : (applyUpd (.parts k v) s).stores = s.stores := rfl
@[simp] theorem parts_upd_ids (s : State) (k : Nat) (v : PartAux) : (applyUpd (.parts k v) s).ids = s.ids := rfl
@[simp] theorem parts_upd_boot (s : State) (k : Nat) (v : PartAux) : (applyUpd (.parts k v) s).boot = s.boot := rfl
@[simp] theorem parts_upd_load (s : State) (k : Nat) (v : PartAux) : (applyUpd (.parts k v) s).load = s.load := rfl
@[simp] theorem parts_upd_flt (s : State) (k : Nat) (v : PartAux) : (applyUpd (.parts k v) s).flt = s.flt := rfl
@[simp] theorem parts_upd_mon (s : State) (k : Nat) (v : PartAux) : (applyUpd (.parts k v) s).mon = s.mon := rfl
@[simp] theorem dmas_upd_pending (s : State) (k : Nat) (v : DmaCh) : (applyUpd (.dmas k v) s).pending = s.pending := rfl
@[simp] theorem dmas_upd_regs (s : State) (k : Nat) (v : DmaCh) : (applyUpd (.dmas k v) s).regs = s.regs := rfl
@[simp] theorem dmas_upd_mem (s : State) (k : Nat) (v : DmaCh) : (applyUpd (.dmas k v) s).mem = s.mem := rfl
@[simp] theorem dmas_upd_sram (s : State) (k : Nat) (v : DmaCh) : (applyUpd (.dmas k v) s).sram = s.sram := rfl
@[simp] theorem dmas_upd_time (s : State) (k : Nat) (v : DmaCh) : (applyUpd (.dmas k v) s).time = s.time := rfl
@[simp] theorem dmas_upd_timeFrac (s : State) (k : Nat) (v : DmaCh) : (applyUpd (.dmas k v) s).timeFrac = s.timeFrac := rfl
@[simp] theorem dmas_upd_freeCtr (s : State) (k : Nat) (v : DmaCh) : (applyUpd (.dmas k v) s).freeCtr = s.freeCtr := rfl
@[simp] theorem dmas_upd_hiLatch (s : State) (k : Nat) (v : DmaCh) : (applyUpd (.dmas k v) s).hiLatch = s.hiLatch := rfl
@[simp] theorem dmas_upd_timeSet (s : State) (k : Nat) (v : DmaCh) : (applyUpd (.dmas k v) s).timeSet = s.timeSet := rfl
@[simp] theorem dmas_upd_n0 (s : State) (k : Nat) (v : DmaCh) : (applyUpd (.dmas k v) s).n0 = s.n0 := rfl
@[simp] theorem dmas_upd_ticked (s : State) (k : Nat) (v : DmaCh) : (applyUpd (.dmas k v) s).ticked = s.ticked := rfl
@[simp] theorem dmas_upd_peerTickAt (s : State) (k : Nat) (v : DmaCh) : (applyUpd (.dmas k v) s).peerTickAt = s.peerTickAt := rfl
@[simp] theorem dmas_upd_guardPitch (s : State) (k : Nat) (v : DmaCh) : (applyUpd (.dmas k v) s).guardPitch = s.guardPitch := rfl
@[simp] theorem dmas_upd_diePitch (s : State) (k : Nat) (v : DmaCh) : (applyUpd (.dmas k v) s).diePitch = s.diePitch := rfl
@[simp] theorem dmas_upd_resps (s : State) (k : Nat) (v : DmaCh) : (applyUpd (.dmas k v) s).resps = s.resps := rfl
@[simp] theorem dmas_upd_txns (s : State) (k : Nat) (v : DmaCh) : (applyUpd (.dmas k v) s).txns = s.txns := rfl
@[simp] theorem dmas_upd_nextTag (s : State) (k : Nat) (v : DmaCh) : (applyUpd (.dmas k v) s).nextTag = s.nextTag := rfl
@[simp] theorem dmas_upd_lateTags (s : State) (k : Nat) (v : DmaCh) : (applyUpd (.dmas k v) s).lateTags = s.lateTags := rfl
@[simp] theorem dmas_upd_ports (s : State) (k : Nat) (v : DmaCh) : (applyUpd (.dmas k v) s).ports = s.ports := rfl
@[simp] theorem dmas_upd_threads (s : State) (k : Nat) (v : DmaCh) : (applyUpd (.dmas k v) s).threads = s.threads := rfl
@[simp] theorem dmas_upd_cores (s : State) (k : Nat) (v : DmaCh) : (applyUpd (.dmas k v) s).cores = s.cores := rfl
@[simp] theorem dmas_upd_engines (s : State) (k : Nat) (v : DmaCh) : (applyUpd (.dmas k v) s).engines = s.engines := rfl
@[simp] theorem dmas_upd_held (s : State) (k : Nat) (v : DmaCh) : (applyUpd (.dmas k v) s).held = s.held := rfl
@[simp] theorem dmas_upd_watches (s : State) (k : Nat) (v : DmaCh) : (applyUpd (.dmas k v) s).watches = s.watches := rfl
@[simp] theorem dmas_upd_watchMsgs (s : State) (k : Nat) (v : DmaCh) : (applyUpd (.dmas k v) s).watchMsgs = s.watchMsgs := rfl
@[simp] theorem dmas_upd_bankHeld (s : State) (k : Nat) (v : DmaCh) : (applyUpd (.dmas k v) s).bankHeld = s.bankHeld := rfl
@[simp] theorem dmas_upd_bankTarget (s : State) (k : Nat) (v : DmaCh) : (applyUpd (.dmas k v) s).bankTarget = s.bankTarget := rfl
@[simp] theorem dmas_upd_ecc (s : State) (k : Nat) (v : DmaCh) : (applyUpd (.dmas k v) s).ecc = s.ecc := rfl
@[simp] theorem dmas_upd_lineEcc (s : State) (k : Nat) (v : DmaCh) : (applyUpd (.dmas k v) s).lineEcc = s.lineEcc := rfl
@[simp] theorem dmas_upd_wbPending (s : State) (k : Nat) (v : DmaCh) : (applyUpd (.dmas k v) s).wbPending = s.wbPending := rfl
@[simp] theorem dmas_upd_scrubPos (s : State) (k : Nat) (v : DmaCh) : (applyUpd (.dmas k v) s).scrubPos = s.scrubPos := rfl
@[simp] theorem dmas_upd_refusals (s : State) (k : Nat) (v : DmaCh) : (applyUpd (.dmas k v) s).refusals = s.refusals := rfl
@[simp] theorem dmas_upd_firstRefusal (s : State) (k : Nat) (v : DmaCh) : (applyUpd (.dmas k v) s).firstRefusal = s.firstRefusal := rfl
@[simp] theorem dmas_upd_boxQueue (s : State) (k : Nat) (v : DmaCh) : (applyUpd (.dmas k v) s).boxQueue = s.boxQueue := rfl
@[simp] theorem dmas_upd_boxRun (s : State) (k : Nat) (v : DmaCh) : (applyUpd (.dmas k v) s).boxRun = s.boxRun := rfl
@[simp] theorem dmas_upd_kvs (s : State) (k : Nat) (v : DmaCh) : (applyUpd (.dmas k v) s).kvs = s.kvs := rfl
@[simp] theorem dmas_upd_parts (s : State) (k : Nat) (v : DmaCh) : (applyUpd (.dmas k v) s).parts = s.parts := rfl
@[simp] theorem dmas_upd_dmas (s : State) (k : Nat) (v : DmaCh) : (applyUpd (.dmas k v) s).dmas = tabSet dmaDefault s.dmas k v := rfl
@[simp] theorem dmas_upd_regReqs (s : State) (k : Nat) (v : DmaCh) : (applyUpd (.dmas k v) s).regReqs = s.regReqs := rfl
@[simp] theorem dmas_upd_regPorts (s : State) (k : Nat) (v : DmaCh) : (applyUpd (.dmas k v) s).regPorts = s.regPorts := rfl
@[simp] theorem dmas_upd_subchs (s : State) (k : Nat) (v : DmaCh) : (applyUpd (.dmas k v) s).subchs = s.subchs := rfl
@[simp] theorem dmas_upd_trackers (s : State) (k : Nat) (v : DmaCh) : (applyUpd (.dmas k v) s).trackers = s.trackers := rfl
@[simp] theorem dmas_upd_throttles (s : State) (k : Nat) (v : DmaCh) : (applyUpd (.dmas k v) s).throttles = s.throttles := rfl
@[simp] theorem dmas_upd_errRing (s : State) (k : Nat) (v : DmaCh) : (applyUpd (.dmas k v) s).errRing = s.errRing := rfl
@[simp] theorem dmas_upd_errRingOvf (s : State) (k : Nat) (v : DmaCh) : (applyUpd (.dmas k v) s).errRingOvf = s.errRingOvf := rfl
@[simp] theorem dmas_upd_patrolLine (s : State) (k : Nat) (v : DmaCh) : (applyUpd (.dmas k v) s).patrolLine = s.patrolLine := rfl
@[simp] theorem dmas_upd_retTimes (s : State) (k : Nat) (v : DmaCh) : (applyUpd (.dmas k v) s).retTimes = s.retTimes := rfl
@[simp] theorem dmas_upd_retired (s : State) (k : Nat) (v : DmaCh) : (applyUpd (.dmas k v) s).retired = s.retired := rfl
@[simp] theorem dmas_upd_dramSeq (s : State) (k : Nat) (v : DmaCh) : (applyUpd (.dmas k v) s).dramSeq = s.dramSeq := rfl
@[simp] theorem dmas_upd_trn (s : State) (k : Nat) (v : DmaCh) : (applyUpd (.dmas k v) s).trn = s.trn := rfl
@[simp] theorem dmas_upd_dqsAdj (s : State) (k : Nat) (v : DmaCh) : (applyUpd (.dmas k v) s).dqsAdj = s.dqsAdj := rfl
@[simp] theorem dmas_upd_dpol (s : State) (k : Nat) (v : DmaCh) : (applyUpd (.dmas k v) s).dpol = s.dpol := rfl
@[simp] theorem dmas_upd_idleAt (s : State) (k : Nat) (v : DmaCh) : (applyUpd (.dmas k v) s).idleAt = s.idleAt := rfl
@[simp] theorem dmas_upd_fitted (s : State) (k : Nat) (v : DmaCh) : (applyUpd (.dmas k v) s).fitted = s.fitted := rfl
@[simp] theorem dmas_upd_faultMsgs (s : State) (k : Nat) (v : DmaCh) : (applyUpd (.dmas k v) s).faultMsgs = s.faultMsgs := rfl
@[simp] theorem dmas_upd_out (s : State) (k : Nat) (v : DmaCh) : (applyUpd (.dmas k v) s).out = s.out := rfl
@[simp] theorem dmas_upd_lastRead (s : State) (k : Nat) (v : DmaCh) : (applyUpd (.dmas k v) s).lastRead = s.lastRead := rfl
@[simp] theorem dmas_upd_fwd (s : State) (k : Nat) (v : DmaCh) : (applyUpd (.dmas k v) s).fwd = s.fwd := rfl
@[simp] theorem dmas_upd_ethTx (s : State) (k : Nat) (v : DmaCh) : (applyUpd (.dmas k v) s).ethTx = s.ethTx := rfl
@[simp] theorem dmas_upd_ethHeadAt (s : State) (k : Nat) (v : DmaCh) : (applyUpd (.dmas k v) s).ethHeadAt = s.ethHeadAt := rfl
@[simp] theorem dmas_upd_canTx (s : State) (k : Nat) (v : DmaCh) : (applyUpd (.dmas k v) s).canTx = s.canTx := rfl
@[simp] theorem dmas_upd_pcieOut (s : State) (k : Nat) (v : DmaCh) : (applyUpd (.dmas k v) s).pcieOut = s.pcieOut := rfl
@[simp] theorem dmas_upd_pcieCfgRd (s : State) (k : Nat) (v : DmaCh) : (applyUpd (.dmas k v) s).pcieCfgRd = s.pcieCfgRd := rfl
@[simp] theorem dmas_upd_msix (s : State) (k : Nat) (v : DmaCh) : (applyUpd (.dmas k v) s).msix = s.msix := rfl
@[simp] theorem dmas_upd_ancs (s : State) (k : Nat) (v : DmaCh) : (applyUpd (.dmas k v) s).ancs = s.ancs := rfl
@[simp] theorem dmas_upd_trajArea (s : State) (k : Nat) (v : DmaCh) : (applyUpd (.dmas k v) s).trajArea = s.trajArea := rfl
@[simp] theorem dmas_upd_lidarIn (s : State) (k : Nat) (v : DmaCh) : (applyUpd (.dmas k v) s).lidarIn = s.lidarIn := rfl
@[simp] theorem dmas_upd_wheelIn (s : State) (k : Nat) (v : DmaCh) : (applyUpd (.dmas k v) s).wheelIn = s.wheelIn := rfl
@[simp] theorem dmas_upd_spiStepBusy (s : State) (k : Nat) (v : DmaCh) : (applyUpd (.dmas k v) s).spiStepBusy = s.spiStepBusy := rfl
@[simp] theorem dmas_upd_spiRec (s : State) (k : Nat) (v : DmaCh) : (applyUpd (.dmas k v) s).spiRec = s.spiRec := rfl
@[simp] theorem dmas_upd_spiStepCfg (s : State) (k : Nat) (v : DmaCh) : (applyUpd (.dmas k v) s).spiStepCfg = s.spiStepCfg := rfl
@[simp] theorem dmas_upd_ctxs (s : State) (k : Nat) (v : DmaCh) : (applyUpd (.dmas k v) s).ctxs = s.ctxs := rfl
@[simp] theorem dmas_upd_fsyOmit (s : State) (k : Nat) (v : DmaCh) : (applyUpd (.dmas k v) s).fsyOmit = s.fsyOmit := rfl
@[simp] theorem dmas_upd_fsyPulsed (s : State) (k : Nat) (v : DmaCh) : (applyUpd (.dmas k v) s).fsyPulsed = s.fsyPulsed := rfl
@[simp] theorem dmas_upd_supTasks (s : State) (k : Nat) (v : DmaCh) : (applyUpd (.dmas k v) s).supTasks = s.supTasks := rfl
@[simp] theorem dmas_upd_fus (s : State) (k : Nat) (v : DmaCh) : (applyUpd (.dmas k v) s).fus = s.fus := rfl
@[simp] theorem dmas_upd_fcons (s : State) (k : Nat) (v : DmaCh) : (applyUpd (.dmas k v) s).fcons = s.fcons := rfl
@[simp] theorem dmas_upd_shadow (s : State) (k : Nat) (v : DmaCh) : (applyUpd (.dmas k v) s).shadow = s.shadow := rfl
@[simp] theorem dmas_upd_trv (s : State) (k : Nat) (v : DmaCh) : (applyUpd (.dmas k v) s).trv = s.trv := rfl
@[simp] theorem dmas_upd_tlayers (s : State) (k : Nat) (v : DmaCh) : (applyUpd (.dmas k v) s).tlayers = s.tlayers := rfl
@[simp] theorem dmas_upd_jobFaults (s : State) (k : Nat) (v : DmaCh) : (applyUpd (.dmas k v) s).jobFaults = s.jobFaults := rfl
@[simp] theorem dmas_upd_unitLast (s : State) (k : Nat) (v : DmaCh) : (applyUpd (.dmas k v) s).unitLast = s.unitLast := rfl
@[simp] theorem dmas_upd_unitRst (s : State) (k : Nat) (v : DmaCh) : (applyUpd (.dmas k v) s).unitRst = s.unitRst := rfl
@[simp] theorem dmas_upd_xlink (s : State) (k : Nat) (v : DmaCh) : (applyUpd (.dmas k v) s).xlink = s.xlink := rfl
@[simp] theorem dmas_upd_trace (s : State) (k : Nat) (v : DmaCh) : (applyUpd (.dmas k v) s).trace = s.trace := rfl
@[simp] theorem dmas_upd_progs (s : State) (k : Nat) (v : DmaCh) : (applyUpd (.dmas k v) s).progs = s.progs := rfl
@[simp] theorem dmas_upd_rails (s : State) (k : Nat) (v : DmaCh) : (applyUpd (.dmas k v) s).rails = s.rails := rfl
@[simp] theorem dmas_upd_thm (s : State) (k : Nat) (v : DmaCh) : (applyUpd (.dmas k v) s).thm = s.thm := rfl
@[simp] theorem dmas_upd_bnd (s : State) (k : Nat) (v : DmaCh) : (applyUpd (.dmas k v) s).bnd = s.bnd := rfl
@[simp] theorem dmas_upd_thmTrip (s : State) (k : Nat) (v : DmaCh) : (applyUpd (.dmas k v) s).thmTrip = s.thmTrip := rfl
@[simp] theorem dmas_upd_flash (s : State) (k : Nat) (v : DmaCh) : (applyUpd (.dmas k v) s).flash = s.flash := rfl
@[simp] theorem dmas_upd_slots (s : State) (k : Nat) (v : DmaCh) : (applyUpd (.dmas k v) s).slots = s.slots := rfl
@[simp] theorem dmas_upd_stores (s : State) (k : Nat) (v : DmaCh) : (applyUpd (.dmas k v) s).stores = s.stores := rfl
@[simp] theorem dmas_upd_ids (s : State) (k : Nat) (v : DmaCh) : (applyUpd (.dmas k v) s).ids = s.ids := rfl
@[simp] theorem dmas_upd_boot (s : State) (k : Nat) (v : DmaCh) : (applyUpd (.dmas k v) s).boot = s.boot := rfl
@[simp] theorem dmas_upd_load (s : State) (k : Nat) (v : DmaCh) : (applyUpd (.dmas k v) s).load = s.load := rfl
@[simp] theorem dmas_upd_flt (s : State) (k : Nat) (v : DmaCh) : (applyUpd (.dmas k v) s).flt = s.flt := rfl
@[simp] theorem dmas_upd_mon (s : State) (k : Nat) (v : DmaCh) : (applyUpd (.dmas k v) s).mon = s.mon := rfl
@[simp] theorem regReqs_upd_pending (s : State) (v : List RegReq) : (applyUpd (.regReqs v) s).pending = s.pending := rfl
@[simp] theorem regReqs_upd_regs (s : State) (v : List RegReq) : (applyUpd (.regReqs v) s).regs = s.regs := rfl
@[simp] theorem regReqs_upd_mem (s : State) (v : List RegReq) : (applyUpd (.regReqs v) s).mem = s.mem := rfl
@[simp] theorem regReqs_upd_sram (s : State) (v : List RegReq) : (applyUpd (.regReqs v) s).sram = s.sram := rfl
@[simp] theorem regReqs_upd_time (s : State) (v : List RegReq) : (applyUpd (.regReqs v) s).time = s.time := rfl
@[simp] theorem regReqs_upd_timeFrac (s : State) (v : List RegReq) : (applyUpd (.regReqs v) s).timeFrac = s.timeFrac := rfl
@[simp] theorem regReqs_upd_freeCtr (s : State) (v : List RegReq) : (applyUpd (.regReqs v) s).freeCtr = s.freeCtr := rfl
@[simp] theorem regReqs_upd_hiLatch (s : State) (v : List RegReq) : (applyUpd (.regReqs v) s).hiLatch = s.hiLatch := rfl
@[simp] theorem regReqs_upd_timeSet (s : State) (v : List RegReq) : (applyUpd (.regReqs v) s).timeSet = s.timeSet := rfl
@[simp] theorem regReqs_upd_n0 (s : State) (v : List RegReq) : (applyUpd (.regReqs v) s).n0 = s.n0 := rfl
@[simp] theorem regReqs_upd_ticked (s : State) (v : List RegReq) : (applyUpd (.regReqs v) s).ticked = s.ticked := rfl
@[simp] theorem regReqs_upd_peerTickAt (s : State) (v : List RegReq) : (applyUpd (.regReqs v) s).peerTickAt = s.peerTickAt := rfl
@[simp] theorem regReqs_upd_guardPitch (s : State) (v : List RegReq) : (applyUpd (.regReqs v) s).guardPitch = s.guardPitch := rfl
@[simp] theorem regReqs_upd_diePitch (s : State) (v : List RegReq) : (applyUpd (.regReqs v) s).diePitch = s.diePitch := rfl
@[simp] theorem regReqs_upd_resps (s : State) (v : List RegReq) : (applyUpd (.regReqs v) s).resps = s.resps := rfl
@[simp] theorem regReqs_upd_txns (s : State) (v : List RegReq) : (applyUpd (.regReqs v) s).txns = s.txns := rfl
@[simp] theorem regReqs_upd_nextTag (s : State) (v : List RegReq) : (applyUpd (.regReqs v) s).nextTag = s.nextTag := rfl
@[simp] theorem regReqs_upd_lateTags (s : State) (v : List RegReq) : (applyUpd (.regReqs v) s).lateTags = s.lateTags := rfl
@[simp] theorem regReqs_upd_ports (s : State) (v : List RegReq) : (applyUpd (.regReqs v) s).ports = s.ports := rfl
@[simp] theorem regReqs_upd_threads (s : State) (v : List RegReq) : (applyUpd (.regReqs v) s).threads = s.threads := rfl
@[simp] theorem regReqs_upd_cores (s : State) (v : List RegReq) : (applyUpd (.regReqs v) s).cores = s.cores := rfl
@[simp] theorem regReqs_upd_engines (s : State) (v : List RegReq) : (applyUpd (.regReqs v) s).engines = s.engines := rfl
@[simp] theorem regReqs_upd_held (s : State) (v : List RegReq) : (applyUpd (.regReqs v) s).held = s.held := rfl
@[simp] theorem regReqs_upd_watches (s : State) (v : List RegReq) : (applyUpd (.regReqs v) s).watches = s.watches := rfl
@[simp] theorem regReqs_upd_watchMsgs (s : State) (v : List RegReq) : (applyUpd (.regReqs v) s).watchMsgs = s.watchMsgs := rfl
@[simp] theorem regReqs_upd_bankHeld (s : State) (v : List RegReq) : (applyUpd (.regReqs v) s).bankHeld = s.bankHeld := rfl
@[simp] theorem regReqs_upd_bankTarget (s : State) (v : List RegReq) : (applyUpd (.regReqs v) s).bankTarget = s.bankTarget := rfl
@[simp] theorem regReqs_upd_ecc (s : State) (v : List RegReq) : (applyUpd (.regReqs v) s).ecc = s.ecc := rfl
@[simp] theorem regReqs_upd_lineEcc (s : State) (v : List RegReq) : (applyUpd (.regReqs v) s).lineEcc = s.lineEcc := rfl
@[simp] theorem regReqs_upd_wbPending (s : State) (v : List RegReq) : (applyUpd (.regReqs v) s).wbPending = s.wbPending := rfl
@[simp] theorem regReqs_upd_scrubPos (s : State) (v : List RegReq) : (applyUpd (.regReqs v) s).scrubPos = s.scrubPos := rfl
@[simp] theorem regReqs_upd_refusals (s : State) (v : List RegReq) : (applyUpd (.regReqs v) s).refusals = s.refusals := rfl
@[simp] theorem regReqs_upd_firstRefusal (s : State) (v : List RegReq) : (applyUpd (.regReqs v) s).firstRefusal = s.firstRefusal := rfl
@[simp] theorem regReqs_upd_boxQueue (s : State) (v : List RegReq) : (applyUpd (.regReqs v) s).boxQueue = s.boxQueue := rfl
@[simp] theorem regReqs_upd_boxRun (s : State) (v : List RegReq) : (applyUpd (.regReqs v) s).boxRun = s.boxRun := rfl
@[simp] theorem regReqs_upd_kvs (s : State) (v : List RegReq) : (applyUpd (.regReqs v) s).kvs = s.kvs := rfl
@[simp] theorem regReqs_upd_parts (s : State) (v : List RegReq) : (applyUpd (.regReqs v) s).parts = s.parts := rfl
@[simp] theorem regReqs_upd_dmas (s : State) (v : List RegReq) : (applyUpd (.regReqs v) s).dmas = s.dmas := rfl
@[simp] theorem regReqs_upd_regReqs (s : State) (v : List RegReq) : (applyUpd (.regReqs v) s).regReqs = v := rfl
@[simp] theorem regReqs_upd_regPorts (s : State) (v : List RegReq) : (applyUpd (.regReqs v) s).regPorts = s.regPorts := rfl
@[simp] theorem regReqs_upd_subchs (s : State) (v : List RegReq) : (applyUpd (.regReqs v) s).subchs = s.subchs := rfl
@[simp] theorem regReqs_upd_trackers (s : State) (v : List RegReq) : (applyUpd (.regReqs v) s).trackers = s.trackers := rfl
@[simp] theorem regReqs_upd_throttles (s : State) (v : List RegReq) : (applyUpd (.regReqs v) s).throttles = s.throttles := rfl
@[simp] theorem regReqs_upd_errRing (s : State) (v : List RegReq) : (applyUpd (.regReqs v) s).errRing = s.errRing := rfl
@[simp] theorem regReqs_upd_errRingOvf (s : State) (v : List RegReq) : (applyUpd (.regReqs v) s).errRingOvf = s.errRingOvf := rfl
@[simp] theorem regReqs_upd_patrolLine (s : State) (v : List RegReq) : (applyUpd (.regReqs v) s).patrolLine = s.patrolLine := rfl
@[simp] theorem regReqs_upd_retTimes (s : State) (v : List RegReq) : (applyUpd (.regReqs v) s).retTimes = s.retTimes := rfl
@[simp] theorem regReqs_upd_retired (s : State) (v : List RegReq) : (applyUpd (.regReqs v) s).retired = s.retired := rfl
@[simp] theorem regReqs_upd_dramSeq (s : State) (v : List RegReq) : (applyUpd (.regReqs v) s).dramSeq = s.dramSeq := rfl
@[simp] theorem regReqs_upd_trn (s : State) (v : List RegReq) : (applyUpd (.regReqs v) s).trn = s.trn := rfl
@[simp] theorem regReqs_upd_dqsAdj (s : State) (v : List RegReq) : (applyUpd (.regReqs v) s).dqsAdj = s.dqsAdj := rfl
@[simp] theorem regReqs_upd_dpol (s : State) (v : List RegReq) : (applyUpd (.regReqs v) s).dpol = s.dpol := rfl
@[simp] theorem regReqs_upd_idleAt (s : State) (v : List RegReq) : (applyUpd (.regReqs v) s).idleAt = s.idleAt := rfl
@[simp] theorem regReqs_upd_fitted (s : State) (v : List RegReq) : (applyUpd (.regReqs v) s).fitted = s.fitted := rfl
@[simp] theorem regReqs_upd_faultMsgs (s : State) (v : List RegReq) : (applyUpd (.regReqs v) s).faultMsgs = s.faultMsgs := rfl
@[simp] theorem regReqs_upd_out (s : State) (v : List RegReq) : (applyUpd (.regReqs v) s).out = s.out := rfl
@[simp] theorem regReqs_upd_lastRead (s : State) (v : List RegReq) : (applyUpd (.regReqs v) s).lastRead = s.lastRead := rfl
@[simp] theorem regReqs_upd_fwd (s : State) (v : List RegReq) : (applyUpd (.regReqs v) s).fwd = s.fwd := rfl
@[simp] theorem regReqs_upd_ethTx (s : State) (v : List RegReq) : (applyUpd (.regReqs v) s).ethTx = s.ethTx := rfl
@[simp] theorem regReqs_upd_ethHeadAt (s : State) (v : List RegReq) : (applyUpd (.regReqs v) s).ethHeadAt = s.ethHeadAt := rfl
@[simp] theorem regReqs_upd_canTx (s : State) (v : List RegReq) : (applyUpd (.regReqs v) s).canTx = s.canTx := rfl
@[simp] theorem regReqs_upd_pcieOut (s : State) (v : List RegReq) : (applyUpd (.regReqs v) s).pcieOut = s.pcieOut := rfl
@[simp] theorem regReqs_upd_pcieCfgRd (s : State) (v : List RegReq) : (applyUpd (.regReqs v) s).pcieCfgRd = s.pcieCfgRd := rfl
@[simp] theorem regReqs_upd_msix (s : State) (v : List RegReq) : (applyUpd (.regReqs v) s).msix = s.msix := rfl
@[simp] theorem regReqs_upd_ancs (s : State) (v : List RegReq) : (applyUpd (.regReqs v) s).ancs = s.ancs := rfl
@[simp] theorem regReqs_upd_trajArea (s : State) (v : List RegReq) : (applyUpd (.regReqs v) s).trajArea = s.trajArea := rfl
@[simp] theorem regReqs_upd_lidarIn (s : State) (v : List RegReq) : (applyUpd (.regReqs v) s).lidarIn = s.lidarIn := rfl
@[simp] theorem regReqs_upd_wheelIn (s : State) (v : List RegReq) : (applyUpd (.regReqs v) s).wheelIn = s.wheelIn := rfl
@[simp] theorem regReqs_upd_spiStepBusy (s : State) (v : List RegReq) : (applyUpd (.regReqs v) s).spiStepBusy = s.spiStepBusy := rfl
@[simp] theorem regReqs_upd_spiRec (s : State) (v : List RegReq) : (applyUpd (.regReqs v) s).spiRec = s.spiRec := rfl
@[simp] theorem regReqs_upd_spiStepCfg (s : State) (v : List RegReq) : (applyUpd (.regReqs v) s).spiStepCfg = s.spiStepCfg := rfl
@[simp] theorem regReqs_upd_ctxs (s : State) (v : List RegReq) : (applyUpd (.regReqs v) s).ctxs = s.ctxs := rfl
@[simp] theorem regReqs_upd_fsyOmit (s : State) (v : List RegReq) : (applyUpd (.regReqs v) s).fsyOmit = s.fsyOmit := rfl
@[simp] theorem regReqs_upd_fsyPulsed (s : State) (v : List RegReq) : (applyUpd (.regReqs v) s).fsyPulsed = s.fsyPulsed := rfl
@[simp] theorem regReqs_upd_supTasks (s : State) (v : List RegReq) : (applyUpd (.regReqs v) s).supTasks = s.supTasks := rfl
@[simp] theorem regReqs_upd_fus (s : State) (v : List RegReq) : (applyUpd (.regReqs v) s).fus = s.fus := rfl
@[simp] theorem regReqs_upd_fcons (s : State) (v : List RegReq) : (applyUpd (.regReqs v) s).fcons = s.fcons := rfl
@[simp] theorem regReqs_upd_shadow (s : State) (v : List RegReq) : (applyUpd (.regReqs v) s).shadow = s.shadow := rfl
@[simp] theorem regReqs_upd_trv (s : State) (v : List RegReq) : (applyUpd (.regReqs v) s).trv = s.trv := rfl
@[simp] theorem regReqs_upd_tlayers (s : State) (v : List RegReq) : (applyUpd (.regReqs v) s).tlayers = s.tlayers := rfl
@[simp] theorem regReqs_upd_jobFaults (s : State) (v : List RegReq) : (applyUpd (.regReqs v) s).jobFaults = s.jobFaults := rfl
@[simp] theorem regReqs_upd_unitLast (s : State) (v : List RegReq) : (applyUpd (.regReqs v) s).unitLast = s.unitLast := rfl
@[simp] theorem regReqs_upd_unitRst (s : State) (v : List RegReq) : (applyUpd (.regReqs v) s).unitRst = s.unitRst := rfl
@[simp] theorem regReqs_upd_xlink (s : State) (v : List RegReq) : (applyUpd (.regReqs v) s).xlink = s.xlink := rfl
@[simp] theorem regReqs_upd_trace (s : State) (v : List RegReq) : (applyUpd (.regReqs v) s).trace = s.trace := rfl
@[simp] theorem regReqs_upd_progs (s : State) (v : List RegReq) : (applyUpd (.regReqs v) s).progs = s.progs := rfl
@[simp] theorem regReqs_upd_rails (s : State) (v : List RegReq) : (applyUpd (.regReqs v) s).rails = s.rails := rfl
@[simp] theorem regReqs_upd_thm (s : State) (v : List RegReq) : (applyUpd (.regReqs v) s).thm = s.thm := rfl
@[simp] theorem regReqs_upd_bnd (s : State) (v : List RegReq) : (applyUpd (.regReqs v) s).bnd = s.bnd := rfl
@[simp] theorem regReqs_upd_thmTrip (s : State) (v : List RegReq) : (applyUpd (.regReqs v) s).thmTrip = s.thmTrip := rfl
@[simp] theorem regReqs_upd_flash (s : State) (v : List RegReq) : (applyUpd (.regReqs v) s).flash = s.flash := rfl
@[simp] theorem regReqs_upd_slots (s : State) (v : List RegReq) : (applyUpd (.regReqs v) s).slots = s.slots := rfl
@[simp] theorem regReqs_upd_stores (s : State) (v : List RegReq) : (applyUpd (.regReqs v) s).stores = s.stores := rfl
@[simp] theorem regReqs_upd_ids (s : State) (v : List RegReq) : (applyUpd (.regReqs v) s).ids = s.ids := rfl
@[simp] theorem regReqs_upd_boot (s : State) (v : List RegReq) : (applyUpd (.regReqs v) s).boot = s.boot := rfl
@[simp] theorem regReqs_upd_load (s : State) (v : List RegReq) : (applyUpd (.regReqs v) s).load = s.load := rfl
@[simp] theorem regReqs_upd_flt (s : State) (v : List RegReq) : (applyUpd (.regReqs v) s).flt = s.flt := rfl
@[simp] theorem regReqs_upd_mon (s : State) (v : List RegReq) : (applyUpd (.regReqs v) s).mon = s.mon := rfl
@[simp] theorem regPorts_upd_pending (s : State) (k : Nat) (v : RegPort) : (applyUpd (.regPorts k v) s).pending = s.pending := rfl
@[simp] theorem regPorts_upd_regs (s : State) (k : Nat) (v : RegPort) : (applyUpd (.regPorts k v) s).regs = s.regs := rfl
@[simp] theorem regPorts_upd_mem (s : State) (k : Nat) (v : RegPort) : (applyUpd (.regPorts k v) s).mem = s.mem := rfl
@[simp] theorem regPorts_upd_sram (s : State) (k : Nat) (v : RegPort) : (applyUpd (.regPorts k v) s).sram = s.sram := rfl
@[simp] theorem regPorts_upd_time (s : State) (k : Nat) (v : RegPort) : (applyUpd (.regPorts k v) s).time = s.time := rfl
@[simp] theorem regPorts_upd_timeFrac (s : State) (k : Nat) (v : RegPort) : (applyUpd (.regPorts k v) s).timeFrac = s.timeFrac := rfl
@[simp] theorem regPorts_upd_freeCtr (s : State) (k : Nat) (v : RegPort) : (applyUpd (.regPorts k v) s).freeCtr = s.freeCtr := rfl
@[simp] theorem regPorts_upd_hiLatch (s : State) (k : Nat) (v : RegPort) : (applyUpd (.regPorts k v) s).hiLatch = s.hiLatch := rfl
@[simp] theorem regPorts_upd_timeSet (s : State) (k : Nat) (v : RegPort) : (applyUpd (.regPorts k v) s).timeSet = s.timeSet := rfl
@[simp] theorem regPorts_upd_n0 (s : State) (k : Nat) (v : RegPort) : (applyUpd (.regPorts k v) s).n0 = s.n0 := rfl
@[simp] theorem regPorts_upd_ticked (s : State) (k : Nat) (v : RegPort) : (applyUpd (.regPorts k v) s).ticked = s.ticked := rfl
@[simp] theorem regPorts_upd_peerTickAt (s : State) (k : Nat) (v : RegPort) : (applyUpd (.regPorts k v) s).peerTickAt = s.peerTickAt := rfl
@[simp] theorem regPorts_upd_guardPitch (s : State) (k : Nat) (v : RegPort) : (applyUpd (.regPorts k v) s).guardPitch = s.guardPitch := rfl
@[simp] theorem regPorts_upd_diePitch (s : State) (k : Nat) (v : RegPort) : (applyUpd (.regPorts k v) s).diePitch = s.diePitch := rfl
@[simp] theorem regPorts_upd_resps (s : State) (k : Nat) (v : RegPort) : (applyUpd (.regPorts k v) s).resps = s.resps := rfl
@[simp] theorem regPorts_upd_txns (s : State) (k : Nat) (v : RegPort) : (applyUpd (.regPorts k v) s).txns = s.txns := rfl
@[simp] theorem regPorts_upd_nextTag (s : State) (k : Nat) (v : RegPort) : (applyUpd (.regPorts k v) s).nextTag = s.nextTag := rfl
@[simp] theorem regPorts_upd_lateTags (s : State) (k : Nat) (v : RegPort) : (applyUpd (.regPorts k v) s).lateTags = s.lateTags := rfl
@[simp] theorem regPorts_upd_ports (s : State) (k : Nat) (v : RegPort) : (applyUpd (.regPorts k v) s).ports = s.ports := rfl
@[simp] theorem regPorts_upd_threads (s : State) (k : Nat) (v : RegPort) : (applyUpd (.regPorts k v) s).threads = s.threads := rfl
@[simp] theorem regPorts_upd_cores (s : State) (k : Nat) (v : RegPort) : (applyUpd (.regPorts k v) s).cores = s.cores := rfl
@[simp] theorem regPorts_upd_engines (s : State) (k : Nat) (v : RegPort) : (applyUpd (.regPorts k v) s).engines = s.engines := rfl
@[simp] theorem regPorts_upd_held (s : State) (k : Nat) (v : RegPort) : (applyUpd (.regPorts k v) s).held = s.held := rfl
@[simp] theorem regPorts_upd_watches (s : State) (k : Nat) (v : RegPort) : (applyUpd (.regPorts k v) s).watches = s.watches := rfl
@[simp] theorem regPorts_upd_watchMsgs (s : State) (k : Nat) (v : RegPort) : (applyUpd (.regPorts k v) s).watchMsgs = s.watchMsgs := rfl
@[simp] theorem regPorts_upd_bankHeld (s : State) (k : Nat) (v : RegPort) : (applyUpd (.regPorts k v) s).bankHeld = s.bankHeld := rfl
@[simp] theorem regPorts_upd_bankTarget (s : State) (k : Nat) (v : RegPort) : (applyUpd (.regPorts k v) s).bankTarget = s.bankTarget := rfl
@[simp] theorem regPorts_upd_ecc (s : State) (k : Nat) (v : RegPort) : (applyUpd (.regPorts k v) s).ecc = s.ecc := rfl
@[simp] theorem regPorts_upd_lineEcc (s : State) (k : Nat) (v : RegPort) : (applyUpd (.regPorts k v) s).lineEcc = s.lineEcc := rfl
@[simp] theorem regPorts_upd_wbPending (s : State) (k : Nat) (v : RegPort) : (applyUpd (.regPorts k v) s).wbPending = s.wbPending := rfl
@[simp] theorem regPorts_upd_scrubPos (s : State) (k : Nat) (v : RegPort) : (applyUpd (.regPorts k v) s).scrubPos = s.scrubPos := rfl
@[simp] theorem regPorts_upd_refusals (s : State) (k : Nat) (v : RegPort) : (applyUpd (.regPorts k v) s).refusals = s.refusals := rfl
@[simp] theorem regPorts_upd_firstRefusal (s : State) (k : Nat) (v : RegPort) : (applyUpd (.regPorts k v) s).firstRefusal = s.firstRefusal := rfl
@[simp] theorem regPorts_upd_boxQueue (s : State) (k : Nat) (v : RegPort) : (applyUpd (.regPorts k v) s).boxQueue = s.boxQueue := rfl
@[simp] theorem regPorts_upd_boxRun (s : State) (k : Nat) (v : RegPort) : (applyUpd (.regPorts k v) s).boxRun = s.boxRun := rfl
@[simp] theorem regPorts_upd_kvs (s : State) (k : Nat) (v : RegPort) : (applyUpd (.regPorts k v) s).kvs = s.kvs := rfl
@[simp] theorem regPorts_upd_parts (s : State) (k : Nat) (v : RegPort) : (applyUpd (.regPorts k v) s).parts = s.parts := rfl
@[simp] theorem regPorts_upd_dmas (s : State) (k : Nat) (v : RegPort) : (applyUpd (.regPorts k v) s).dmas = s.dmas := rfl
@[simp] theorem regPorts_upd_regReqs (s : State) (k : Nat) (v : RegPort) : (applyUpd (.regPorts k v) s).regReqs = s.regReqs := rfl
@[simp] theorem regPorts_upd_regPorts (s : State) (k : Nat) (v : RegPort) : (applyUpd (.regPorts k v) s).regPorts = tabSet regPortDefault s.regPorts k v := rfl
@[simp] theorem regPorts_upd_subchs (s : State) (k : Nat) (v : RegPort) : (applyUpd (.regPorts k v) s).subchs = s.subchs := rfl
@[simp] theorem regPorts_upd_trackers (s : State) (k : Nat) (v : RegPort) : (applyUpd (.regPorts k v) s).trackers = s.trackers := rfl
@[simp] theorem regPorts_upd_throttles (s : State) (k : Nat) (v : RegPort) : (applyUpd (.regPorts k v) s).throttles = s.throttles := rfl
@[simp] theorem regPorts_upd_errRing (s : State) (k : Nat) (v : RegPort) : (applyUpd (.regPorts k v) s).errRing = s.errRing := rfl
@[simp] theorem regPorts_upd_errRingOvf (s : State) (k : Nat) (v : RegPort) : (applyUpd (.regPorts k v) s).errRingOvf = s.errRingOvf := rfl
@[simp] theorem regPorts_upd_patrolLine (s : State) (k : Nat) (v : RegPort) : (applyUpd (.regPorts k v) s).patrolLine = s.patrolLine := rfl
@[simp] theorem regPorts_upd_retTimes (s : State) (k : Nat) (v : RegPort) : (applyUpd (.regPorts k v) s).retTimes = s.retTimes := rfl
@[simp] theorem regPorts_upd_retired (s : State) (k : Nat) (v : RegPort) : (applyUpd (.regPorts k v) s).retired = s.retired := rfl
@[simp] theorem regPorts_upd_dramSeq (s : State) (k : Nat) (v : RegPort) : (applyUpd (.regPorts k v) s).dramSeq = s.dramSeq := rfl
@[simp] theorem regPorts_upd_trn (s : State) (k : Nat) (v : RegPort) : (applyUpd (.regPorts k v) s).trn = s.trn := rfl
@[simp] theorem regPorts_upd_dqsAdj (s : State) (k : Nat) (v : RegPort) : (applyUpd (.regPorts k v) s).dqsAdj = s.dqsAdj := rfl
@[simp] theorem regPorts_upd_dpol (s : State) (k : Nat) (v : RegPort) : (applyUpd (.regPorts k v) s).dpol = s.dpol := rfl
@[simp] theorem regPorts_upd_idleAt (s : State) (k : Nat) (v : RegPort) : (applyUpd (.regPorts k v) s).idleAt = s.idleAt := rfl
@[simp] theorem regPorts_upd_fitted (s : State) (k : Nat) (v : RegPort) : (applyUpd (.regPorts k v) s).fitted = s.fitted := rfl
@[simp] theorem regPorts_upd_faultMsgs (s : State) (k : Nat) (v : RegPort) : (applyUpd (.regPorts k v) s).faultMsgs = s.faultMsgs := rfl
@[simp] theorem regPorts_upd_out (s : State) (k : Nat) (v : RegPort) : (applyUpd (.regPorts k v) s).out = s.out := rfl
@[simp] theorem regPorts_upd_lastRead (s : State) (k : Nat) (v : RegPort) : (applyUpd (.regPorts k v) s).lastRead = s.lastRead := rfl
@[simp] theorem regPorts_upd_fwd (s : State) (k : Nat) (v : RegPort) : (applyUpd (.regPorts k v) s).fwd = s.fwd := rfl
@[simp] theorem regPorts_upd_ethTx (s : State) (k : Nat) (v : RegPort) : (applyUpd (.regPorts k v) s).ethTx = s.ethTx := rfl
@[simp] theorem regPorts_upd_ethHeadAt (s : State) (k : Nat) (v : RegPort) : (applyUpd (.regPorts k v) s).ethHeadAt = s.ethHeadAt := rfl
@[simp] theorem regPorts_upd_canTx (s : State) (k : Nat) (v : RegPort) : (applyUpd (.regPorts k v) s).canTx = s.canTx := rfl
@[simp] theorem regPorts_upd_pcieOut (s : State) (k : Nat) (v : RegPort) : (applyUpd (.regPorts k v) s).pcieOut = s.pcieOut := rfl
@[simp] theorem regPorts_upd_pcieCfgRd (s : State) (k : Nat) (v : RegPort) : (applyUpd (.regPorts k v) s).pcieCfgRd = s.pcieCfgRd := rfl
@[simp] theorem regPorts_upd_msix (s : State) (k : Nat) (v : RegPort) : (applyUpd (.regPorts k v) s).msix = s.msix := rfl
@[simp] theorem regPorts_upd_ancs (s : State) (k : Nat) (v : RegPort) : (applyUpd (.regPorts k v) s).ancs = s.ancs := rfl
@[simp] theorem regPorts_upd_trajArea (s : State) (k : Nat) (v : RegPort) : (applyUpd (.regPorts k v) s).trajArea = s.trajArea := rfl
@[simp] theorem regPorts_upd_lidarIn (s : State) (k : Nat) (v : RegPort) : (applyUpd (.regPorts k v) s).lidarIn = s.lidarIn := rfl
@[simp] theorem regPorts_upd_wheelIn (s : State) (k : Nat) (v : RegPort) : (applyUpd (.regPorts k v) s).wheelIn = s.wheelIn := rfl
@[simp] theorem regPorts_upd_spiStepBusy (s : State) (k : Nat) (v : RegPort) : (applyUpd (.regPorts k v) s).spiStepBusy = s.spiStepBusy := rfl
@[simp] theorem regPorts_upd_spiRec (s : State) (k : Nat) (v : RegPort) : (applyUpd (.regPorts k v) s).spiRec = s.spiRec := rfl
@[simp] theorem regPorts_upd_spiStepCfg (s : State) (k : Nat) (v : RegPort) : (applyUpd (.regPorts k v) s).spiStepCfg = s.spiStepCfg := rfl
@[simp] theorem regPorts_upd_ctxs (s : State) (k : Nat) (v : RegPort) : (applyUpd (.regPorts k v) s).ctxs = s.ctxs := rfl
@[simp] theorem regPorts_upd_fsyOmit (s : State) (k : Nat) (v : RegPort) : (applyUpd (.regPorts k v) s).fsyOmit = s.fsyOmit := rfl
@[simp] theorem regPorts_upd_fsyPulsed (s : State) (k : Nat) (v : RegPort) : (applyUpd (.regPorts k v) s).fsyPulsed = s.fsyPulsed := rfl
@[simp] theorem regPorts_upd_supTasks (s : State) (k : Nat) (v : RegPort) : (applyUpd (.regPorts k v) s).supTasks = s.supTasks := rfl
@[simp] theorem regPorts_upd_fus (s : State) (k : Nat) (v : RegPort) : (applyUpd (.regPorts k v) s).fus = s.fus := rfl
@[simp] theorem regPorts_upd_fcons (s : State) (k : Nat) (v : RegPort) : (applyUpd (.regPorts k v) s).fcons = s.fcons := rfl
@[simp] theorem regPorts_upd_shadow (s : State) (k : Nat) (v : RegPort) : (applyUpd (.regPorts k v) s).shadow = s.shadow := rfl
@[simp] theorem regPorts_upd_trv (s : State) (k : Nat) (v : RegPort) : (applyUpd (.regPorts k v) s).trv = s.trv := rfl
@[simp] theorem regPorts_upd_tlayers (s : State) (k : Nat) (v : RegPort) : (applyUpd (.regPorts k v) s).tlayers = s.tlayers := rfl
@[simp] theorem regPorts_upd_jobFaults (s : State) (k : Nat) (v : RegPort) : (applyUpd (.regPorts k v) s).jobFaults = s.jobFaults := rfl
@[simp] theorem regPorts_upd_unitLast (s : State) (k : Nat) (v : RegPort) : (applyUpd (.regPorts k v) s).unitLast = s.unitLast := rfl
@[simp] theorem regPorts_upd_unitRst (s : State) (k : Nat) (v : RegPort) : (applyUpd (.regPorts k v) s).unitRst = s.unitRst := rfl
@[simp] theorem regPorts_upd_xlink (s : State) (k : Nat) (v : RegPort) : (applyUpd (.regPorts k v) s).xlink = s.xlink := rfl
@[simp] theorem regPorts_upd_trace (s : State) (k : Nat) (v : RegPort) : (applyUpd (.regPorts k v) s).trace = s.trace := rfl
@[simp] theorem regPorts_upd_progs (s : State) (k : Nat) (v : RegPort) : (applyUpd (.regPorts k v) s).progs = s.progs := rfl
@[simp] theorem regPorts_upd_rails (s : State) (k : Nat) (v : RegPort) : (applyUpd (.regPorts k v) s).rails = s.rails := rfl
@[simp] theorem regPorts_upd_thm (s : State) (k : Nat) (v : RegPort) : (applyUpd (.regPorts k v) s).thm = s.thm := rfl
@[simp] theorem regPorts_upd_bnd (s : State) (k : Nat) (v : RegPort) : (applyUpd (.regPorts k v) s).bnd = s.bnd := rfl
@[simp] theorem regPorts_upd_thmTrip (s : State) (k : Nat) (v : RegPort) : (applyUpd (.regPorts k v) s).thmTrip = s.thmTrip := rfl
@[simp] theorem regPorts_upd_flash (s : State) (k : Nat) (v : RegPort) : (applyUpd (.regPorts k v) s).flash = s.flash := rfl
@[simp] theorem regPorts_upd_slots (s : State) (k : Nat) (v : RegPort) : (applyUpd (.regPorts k v) s).slots = s.slots := rfl
@[simp] theorem regPorts_upd_stores (s : State) (k : Nat) (v : RegPort) : (applyUpd (.regPorts k v) s).stores = s.stores := rfl
@[simp] theorem regPorts_upd_ids (s : State) (k : Nat) (v : RegPort) : (applyUpd (.regPorts k v) s).ids = s.ids := rfl
@[simp] theorem regPorts_upd_boot (s : State) (k : Nat) (v : RegPort) : (applyUpd (.regPorts k v) s).boot = s.boot := rfl
@[simp] theorem regPorts_upd_load (s : State) (k : Nat) (v : RegPort) : (applyUpd (.regPorts k v) s).load = s.load := rfl
@[simp] theorem regPorts_upd_flt (s : State) (k : Nat) (v : RegPort) : (applyUpd (.regPorts k v) s).flt = s.flt := rfl
@[simp] theorem regPorts_upd_mon (s : State) (k : Nat) (v : RegPort) : (applyUpd (.regPorts k v) s).mon = s.mon := rfl
@[simp] theorem subchs_upd_pending (s : State) (k : Nat) (v : SubCh) : (applyUpd (.subchs k v) s).pending = s.pending := rfl
@[simp] theorem subchs_upd_regs (s : State) (k : Nat) (v : SubCh) : (applyUpd (.subchs k v) s).regs = s.regs := rfl
@[simp] theorem subchs_upd_mem (s : State) (k : Nat) (v : SubCh) : (applyUpd (.subchs k v) s).mem = s.mem := rfl
@[simp] theorem subchs_upd_sram (s : State) (k : Nat) (v : SubCh) : (applyUpd (.subchs k v) s).sram = s.sram := rfl
@[simp] theorem subchs_upd_time (s : State) (k : Nat) (v : SubCh) : (applyUpd (.subchs k v) s).time = s.time := rfl
@[simp] theorem subchs_upd_timeFrac (s : State) (k : Nat) (v : SubCh) : (applyUpd (.subchs k v) s).timeFrac = s.timeFrac := rfl
@[simp] theorem subchs_upd_freeCtr (s : State) (k : Nat) (v : SubCh) : (applyUpd (.subchs k v) s).freeCtr = s.freeCtr := rfl
@[simp] theorem subchs_upd_hiLatch (s : State) (k : Nat) (v : SubCh) : (applyUpd (.subchs k v) s).hiLatch = s.hiLatch := rfl
@[simp] theorem subchs_upd_timeSet (s : State) (k : Nat) (v : SubCh) : (applyUpd (.subchs k v) s).timeSet = s.timeSet := rfl
@[simp] theorem subchs_upd_n0 (s : State) (k : Nat) (v : SubCh) : (applyUpd (.subchs k v) s).n0 = s.n0 := rfl
@[simp] theorem subchs_upd_ticked (s : State) (k : Nat) (v : SubCh) : (applyUpd (.subchs k v) s).ticked = s.ticked := rfl
@[simp] theorem subchs_upd_peerTickAt (s : State) (k : Nat) (v : SubCh) : (applyUpd (.subchs k v) s).peerTickAt = s.peerTickAt := rfl
@[simp] theorem subchs_upd_guardPitch (s : State) (k : Nat) (v : SubCh) : (applyUpd (.subchs k v) s).guardPitch = s.guardPitch := rfl
@[simp] theorem subchs_upd_diePitch (s : State) (k : Nat) (v : SubCh) : (applyUpd (.subchs k v) s).diePitch = s.diePitch := rfl
@[simp] theorem subchs_upd_resps (s : State) (k : Nat) (v : SubCh) : (applyUpd (.subchs k v) s).resps = s.resps := rfl
@[simp] theorem subchs_upd_txns (s : State) (k : Nat) (v : SubCh) : (applyUpd (.subchs k v) s).txns = s.txns := rfl
@[simp] theorem subchs_upd_nextTag (s : State) (k : Nat) (v : SubCh) : (applyUpd (.subchs k v) s).nextTag = s.nextTag := rfl
@[simp] theorem subchs_upd_lateTags (s : State) (k : Nat) (v : SubCh) : (applyUpd (.subchs k v) s).lateTags = s.lateTags := rfl
@[simp] theorem subchs_upd_ports (s : State) (k : Nat) (v : SubCh) : (applyUpd (.subchs k v) s).ports = s.ports := rfl
@[simp] theorem subchs_upd_threads (s : State) (k : Nat) (v : SubCh) : (applyUpd (.subchs k v) s).threads = s.threads := rfl
@[simp] theorem subchs_upd_cores (s : State) (k : Nat) (v : SubCh) : (applyUpd (.subchs k v) s).cores = s.cores := rfl
@[simp] theorem subchs_upd_engines (s : State) (k : Nat) (v : SubCh) : (applyUpd (.subchs k v) s).engines = s.engines := rfl
@[simp] theorem subchs_upd_held (s : State) (k : Nat) (v : SubCh) : (applyUpd (.subchs k v) s).held = s.held := rfl
@[simp] theorem subchs_upd_watches (s : State) (k : Nat) (v : SubCh) : (applyUpd (.subchs k v) s).watches = s.watches := rfl
@[simp] theorem subchs_upd_watchMsgs (s : State) (k : Nat) (v : SubCh) : (applyUpd (.subchs k v) s).watchMsgs = s.watchMsgs := rfl
@[simp] theorem subchs_upd_bankHeld (s : State) (k : Nat) (v : SubCh) : (applyUpd (.subchs k v) s).bankHeld = s.bankHeld := rfl
@[simp] theorem subchs_upd_bankTarget (s : State) (k : Nat) (v : SubCh) : (applyUpd (.subchs k v) s).bankTarget = s.bankTarget := rfl
@[simp] theorem subchs_upd_ecc (s : State) (k : Nat) (v : SubCh) : (applyUpd (.subchs k v) s).ecc = s.ecc := rfl
@[simp] theorem subchs_upd_lineEcc (s : State) (k : Nat) (v : SubCh) : (applyUpd (.subchs k v) s).lineEcc = s.lineEcc := rfl
@[simp] theorem subchs_upd_wbPending (s : State) (k : Nat) (v : SubCh) : (applyUpd (.subchs k v) s).wbPending = s.wbPending := rfl
@[simp] theorem subchs_upd_scrubPos (s : State) (k : Nat) (v : SubCh) : (applyUpd (.subchs k v) s).scrubPos = s.scrubPos := rfl
@[simp] theorem subchs_upd_refusals (s : State) (k : Nat) (v : SubCh) : (applyUpd (.subchs k v) s).refusals = s.refusals := rfl
@[simp] theorem subchs_upd_firstRefusal (s : State) (k : Nat) (v : SubCh) : (applyUpd (.subchs k v) s).firstRefusal = s.firstRefusal := rfl
@[simp] theorem subchs_upd_boxQueue (s : State) (k : Nat) (v : SubCh) : (applyUpd (.subchs k v) s).boxQueue = s.boxQueue := rfl
@[simp] theorem subchs_upd_boxRun (s : State) (k : Nat) (v : SubCh) : (applyUpd (.subchs k v) s).boxRun = s.boxRun := rfl
@[simp] theorem subchs_upd_kvs (s : State) (k : Nat) (v : SubCh) : (applyUpd (.subchs k v) s).kvs = s.kvs := rfl
@[simp] theorem subchs_upd_parts (s : State) (k : Nat) (v : SubCh) : (applyUpd (.subchs k v) s).parts = s.parts := rfl
@[simp] theorem subchs_upd_dmas (s : State) (k : Nat) (v : SubCh) : (applyUpd (.subchs k v) s).dmas = s.dmas := rfl
@[simp] theorem subchs_upd_regReqs (s : State) (k : Nat) (v : SubCh) : (applyUpd (.subchs k v) s).regReqs = s.regReqs := rfl
@[simp] theorem subchs_upd_regPorts (s : State) (k : Nat) (v : SubCh) : (applyUpd (.subchs k v) s).regPorts = s.regPorts := rfl
@[simp] theorem subchs_upd_subchs (s : State) (k : Nat) (v : SubCh) : (applyUpd (.subchs k v) s).subchs = tabSet subChDefault s.subchs k v := rfl
@[simp] theorem subchs_upd_trackers (s : State) (k : Nat) (v : SubCh) : (applyUpd (.subchs k v) s).trackers = s.trackers := rfl
@[simp] theorem subchs_upd_throttles (s : State) (k : Nat) (v : SubCh) : (applyUpd (.subchs k v) s).throttles = s.throttles := rfl
@[simp] theorem subchs_upd_errRing (s : State) (k : Nat) (v : SubCh) : (applyUpd (.subchs k v) s).errRing = s.errRing := rfl
@[simp] theorem subchs_upd_errRingOvf (s : State) (k : Nat) (v : SubCh) : (applyUpd (.subchs k v) s).errRingOvf = s.errRingOvf := rfl
@[simp] theorem subchs_upd_patrolLine (s : State) (k : Nat) (v : SubCh) : (applyUpd (.subchs k v) s).patrolLine = s.patrolLine := rfl
@[simp] theorem subchs_upd_retTimes (s : State) (k : Nat) (v : SubCh) : (applyUpd (.subchs k v) s).retTimes = s.retTimes := rfl
@[simp] theorem subchs_upd_retired (s : State) (k : Nat) (v : SubCh) : (applyUpd (.subchs k v) s).retired = s.retired := rfl
@[simp] theorem subchs_upd_dramSeq (s : State) (k : Nat) (v : SubCh) : (applyUpd (.subchs k v) s).dramSeq = s.dramSeq := rfl
@[simp] theorem subchs_upd_trn (s : State) (k : Nat) (v : SubCh) : (applyUpd (.subchs k v) s).trn = s.trn := rfl
@[simp] theorem subchs_upd_dqsAdj (s : State) (k : Nat) (v : SubCh) : (applyUpd (.subchs k v) s).dqsAdj = s.dqsAdj := rfl
@[simp] theorem subchs_upd_dpol (s : State) (k : Nat) (v : SubCh) : (applyUpd (.subchs k v) s).dpol = s.dpol := rfl
@[simp] theorem subchs_upd_idleAt (s : State) (k : Nat) (v : SubCh) : (applyUpd (.subchs k v) s).idleAt = s.idleAt := rfl
@[simp] theorem subchs_upd_fitted (s : State) (k : Nat) (v : SubCh) : (applyUpd (.subchs k v) s).fitted = s.fitted := rfl
@[simp] theorem subchs_upd_faultMsgs (s : State) (k : Nat) (v : SubCh) : (applyUpd (.subchs k v) s).faultMsgs = s.faultMsgs := rfl
@[simp] theorem subchs_upd_out (s : State) (k : Nat) (v : SubCh) : (applyUpd (.subchs k v) s).out = s.out := rfl
@[simp] theorem subchs_upd_lastRead (s : State) (k : Nat) (v : SubCh) : (applyUpd (.subchs k v) s).lastRead = s.lastRead := rfl
@[simp] theorem subchs_upd_fwd (s : State) (k : Nat) (v : SubCh) : (applyUpd (.subchs k v) s).fwd = s.fwd := rfl
@[simp] theorem subchs_upd_ethTx (s : State) (k : Nat) (v : SubCh) : (applyUpd (.subchs k v) s).ethTx = s.ethTx := rfl
@[simp] theorem subchs_upd_ethHeadAt (s : State) (k : Nat) (v : SubCh) : (applyUpd (.subchs k v) s).ethHeadAt = s.ethHeadAt := rfl
@[simp] theorem subchs_upd_canTx (s : State) (k : Nat) (v : SubCh) : (applyUpd (.subchs k v) s).canTx = s.canTx := rfl
@[simp] theorem subchs_upd_pcieOut (s : State) (k : Nat) (v : SubCh) : (applyUpd (.subchs k v) s).pcieOut = s.pcieOut := rfl
@[simp] theorem subchs_upd_pcieCfgRd (s : State) (k : Nat) (v : SubCh) : (applyUpd (.subchs k v) s).pcieCfgRd = s.pcieCfgRd := rfl
@[simp] theorem subchs_upd_msix (s : State) (k : Nat) (v : SubCh) : (applyUpd (.subchs k v) s).msix = s.msix := rfl
@[simp] theorem subchs_upd_ancs (s : State) (k : Nat) (v : SubCh) : (applyUpd (.subchs k v) s).ancs = s.ancs := rfl
@[simp] theorem subchs_upd_trajArea (s : State) (k : Nat) (v : SubCh) : (applyUpd (.subchs k v) s).trajArea = s.trajArea := rfl
@[simp] theorem subchs_upd_lidarIn (s : State) (k : Nat) (v : SubCh) : (applyUpd (.subchs k v) s).lidarIn = s.lidarIn := rfl
@[simp] theorem subchs_upd_wheelIn (s : State) (k : Nat) (v : SubCh) : (applyUpd (.subchs k v) s).wheelIn = s.wheelIn := rfl
@[simp] theorem subchs_upd_spiStepBusy (s : State) (k : Nat) (v : SubCh) : (applyUpd (.subchs k v) s).spiStepBusy = s.spiStepBusy := rfl
@[simp] theorem subchs_upd_spiRec (s : State) (k : Nat) (v : SubCh) : (applyUpd (.subchs k v) s).spiRec = s.spiRec := rfl
@[simp] theorem subchs_upd_spiStepCfg (s : State) (k : Nat) (v : SubCh) : (applyUpd (.subchs k v) s).spiStepCfg = s.spiStepCfg := rfl
@[simp] theorem subchs_upd_ctxs (s : State) (k : Nat) (v : SubCh) : (applyUpd (.subchs k v) s).ctxs = s.ctxs := rfl
@[simp] theorem subchs_upd_fsyOmit (s : State) (k : Nat) (v : SubCh) : (applyUpd (.subchs k v) s).fsyOmit = s.fsyOmit := rfl
@[simp] theorem subchs_upd_fsyPulsed (s : State) (k : Nat) (v : SubCh) : (applyUpd (.subchs k v) s).fsyPulsed = s.fsyPulsed := rfl
@[simp] theorem subchs_upd_supTasks (s : State) (k : Nat) (v : SubCh) : (applyUpd (.subchs k v) s).supTasks = s.supTasks := rfl
@[simp] theorem subchs_upd_fus (s : State) (k : Nat) (v : SubCh) : (applyUpd (.subchs k v) s).fus = s.fus := rfl
@[simp] theorem subchs_upd_fcons (s : State) (k : Nat) (v : SubCh) : (applyUpd (.subchs k v) s).fcons = s.fcons := rfl
@[simp] theorem subchs_upd_shadow (s : State) (k : Nat) (v : SubCh) : (applyUpd (.subchs k v) s).shadow = s.shadow := rfl
@[simp] theorem subchs_upd_trv (s : State) (k : Nat) (v : SubCh) : (applyUpd (.subchs k v) s).trv = s.trv := rfl
@[simp] theorem subchs_upd_tlayers (s : State) (k : Nat) (v : SubCh) : (applyUpd (.subchs k v) s).tlayers = s.tlayers := rfl
@[simp] theorem subchs_upd_jobFaults (s : State) (k : Nat) (v : SubCh) : (applyUpd (.subchs k v) s).jobFaults = s.jobFaults := rfl
@[simp] theorem subchs_upd_unitLast (s : State) (k : Nat) (v : SubCh) : (applyUpd (.subchs k v) s).unitLast = s.unitLast := rfl
@[simp] theorem subchs_upd_unitRst (s : State) (k : Nat) (v : SubCh) : (applyUpd (.subchs k v) s).unitRst = s.unitRst := rfl
@[simp] theorem subchs_upd_xlink (s : State) (k : Nat) (v : SubCh) : (applyUpd (.subchs k v) s).xlink = s.xlink := rfl
@[simp] theorem subchs_upd_trace (s : State) (k : Nat) (v : SubCh) : (applyUpd (.subchs k v) s).trace = s.trace := rfl
@[simp] theorem subchs_upd_progs (s : State) (k : Nat) (v : SubCh) : (applyUpd (.subchs k v) s).progs = s.progs := rfl
@[simp] theorem subchs_upd_rails (s : State) (k : Nat) (v : SubCh) : (applyUpd (.subchs k v) s).rails = s.rails := rfl
@[simp] theorem subchs_upd_thm (s : State) (k : Nat) (v : SubCh) : (applyUpd (.subchs k v) s).thm = s.thm := rfl
@[simp] theorem subchs_upd_bnd (s : State) (k : Nat) (v : SubCh) : (applyUpd (.subchs k v) s).bnd = s.bnd := rfl
@[simp] theorem subchs_upd_thmTrip (s : State) (k : Nat) (v : SubCh) : (applyUpd (.subchs k v) s).thmTrip = s.thmTrip := rfl
@[simp] theorem subchs_upd_flash (s : State) (k : Nat) (v : SubCh) : (applyUpd (.subchs k v) s).flash = s.flash := rfl
@[simp] theorem subchs_upd_slots (s : State) (k : Nat) (v : SubCh) : (applyUpd (.subchs k v) s).slots = s.slots := rfl
@[simp] theorem subchs_upd_stores (s : State) (k : Nat) (v : SubCh) : (applyUpd (.subchs k v) s).stores = s.stores := rfl
@[simp] theorem subchs_upd_ids (s : State) (k : Nat) (v : SubCh) : (applyUpd (.subchs k v) s).ids = s.ids := rfl
@[simp] theorem subchs_upd_boot (s : State) (k : Nat) (v : SubCh) : (applyUpd (.subchs k v) s).boot = s.boot := rfl
@[simp] theorem subchs_upd_load (s : State) (k : Nat) (v : SubCh) : (applyUpd (.subchs k v) s).load = s.load := rfl
@[simp] theorem subchs_upd_flt (s : State) (k : Nat) (v : SubCh) : (applyUpd (.subchs k v) s).flt = s.flt := rfl
@[simp] theorem subchs_upd_mon (s : State) (k : Nat) (v : SubCh) : (applyUpd (.subchs k v) s).mon = s.mon := rfl
@[simp] theorem trackers_upd_pending (s : State) (k : Nat) (v : List TrackEnt) : (applyUpd (.trackers k v) s).pending = s.pending := rfl
@[simp] theorem trackers_upd_regs (s : State) (k : Nat) (v : List TrackEnt) : (applyUpd (.trackers k v) s).regs = s.regs := rfl
@[simp] theorem trackers_upd_mem (s : State) (k : Nat) (v : List TrackEnt) : (applyUpd (.trackers k v) s).mem = s.mem := rfl
@[simp] theorem trackers_upd_sram (s : State) (k : Nat) (v : List TrackEnt) : (applyUpd (.trackers k v) s).sram = s.sram := rfl
@[simp] theorem trackers_upd_time (s : State) (k : Nat) (v : List TrackEnt) : (applyUpd (.trackers k v) s).time = s.time := rfl
@[simp] theorem trackers_upd_timeFrac (s : State) (k : Nat) (v : List TrackEnt) : (applyUpd (.trackers k v) s).timeFrac = s.timeFrac := rfl
@[simp] theorem trackers_upd_freeCtr (s : State) (k : Nat) (v : List TrackEnt) : (applyUpd (.trackers k v) s).freeCtr = s.freeCtr := rfl
@[simp] theorem trackers_upd_hiLatch (s : State) (k : Nat) (v : List TrackEnt) : (applyUpd (.trackers k v) s).hiLatch = s.hiLatch := rfl
@[simp] theorem trackers_upd_timeSet (s : State) (k : Nat) (v : List TrackEnt) : (applyUpd (.trackers k v) s).timeSet = s.timeSet := rfl
@[simp] theorem trackers_upd_n0 (s : State) (k : Nat) (v : List TrackEnt) : (applyUpd (.trackers k v) s).n0 = s.n0 := rfl
@[simp] theorem trackers_upd_ticked (s : State) (k : Nat) (v : List TrackEnt) : (applyUpd (.trackers k v) s).ticked = s.ticked := rfl
@[simp] theorem trackers_upd_peerTickAt (s : State) (k : Nat) (v : List TrackEnt) : (applyUpd (.trackers k v) s).peerTickAt = s.peerTickAt := rfl
@[simp] theorem trackers_upd_guardPitch (s : State) (k : Nat) (v : List TrackEnt) : (applyUpd (.trackers k v) s).guardPitch = s.guardPitch := rfl
@[simp] theorem trackers_upd_diePitch (s : State) (k : Nat) (v : List TrackEnt) : (applyUpd (.trackers k v) s).diePitch = s.diePitch := rfl
@[simp] theorem trackers_upd_resps (s : State) (k : Nat) (v : List TrackEnt) : (applyUpd (.trackers k v) s).resps = s.resps := rfl
@[simp] theorem trackers_upd_txns (s : State) (k : Nat) (v : List TrackEnt) : (applyUpd (.trackers k v) s).txns = s.txns := rfl
@[simp] theorem trackers_upd_nextTag (s : State) (k : Nat) (v : List TrackEnt) : (applyUpd (.trackers k v) s).nextTag = s.nextTag := rfl
@[simp] theorem trackers_upd_lateTags (s : State) (k : Nat) (v : List TrackEnt) : (applyUpd (.trackers k v) s).lateTags = s.lateTags := rfl
@[simp] theorem trackers_upd_ports (s : State) (k : Nat) (v : List TrackEnt) : (applyUpd (.trackers k v) s).ports = s.ports := rfl
@[simp] theorem trackers_upd_threads (s : State) (k : Nat) (v : List TrackEnt) : (applyUpd (.trackers k v) s).threads = s.threads := rfl
@[simp] theorem trackers_upd_cores (s : State) (k : Nat) (v : List TrackEnt) : (applyUpd (.trackers k v) s).cores = s.cores := rfl
@[simp] theorem trackers_upd_engines (s : State) (k : Nat) (v : List TrackEnt) : (applyUpd (.trackers k v) s).engines = s.engines := rfl
@[simp] theorem trackers_upd_held (s : State) (k : Nat) (v : List TrackEnt) : (applyUpd (.trackers k v) s).held = s.held := rfl
@[simp] theorem trackers_upd_watches (s : State) (k : Nat) (v : List TrackEnt) : (applyUpd (.trackers k v) s).watches = s.watches := rfl
@[simp] theorem trackers_upd_watchMsgs (s : State) (k : Nat) (v : List TrackEnt) : (applyUpd (.trackers k v) s).watchMsgs = s.watchMsgs := rfl
@[simp] theorem trackers_upd_bankHeld (s : State) (k : Nat) (v : List TrackEnt) : (applyUpd (.trackers k v) s).bankHeld = s.bankHeld := rfl
@[simp] theorem trackers_upd_bankTarget (s : State) (k : Nat) (v : List TrackEnt) : (applyUpd (.trackers k v) s).bankTarget = s.bankTarget := rfl
@[simp] theorem trackers_upd_ecc (s : State) (k : Nat) (v : List TrackEnt) : (applyUpd (.trackers k v) s).ecc = s.ecc := rfl
@[simp] theorem trackers_upd_lineEcc (s : State) (k : Nat) (v : List TrackEnt) : (applyUpd (.trackers k v) s).lineEcc = s.lineEcc := rfl
@[simp] theorem trackers_upd_wbPending (s : State) (k : Nat) (v : List TrackEnt) : (applyUpd (.trackers k v) s).wbPending = s.wbPending := rfl
@[simp] theorem trackers_upd_scrubPos (s : State) (k : Nat) (v : List TrackEnt) : (applyUpd (.trackers k v) s).scrubPos = s.scrubPos := rfl
@[simp] theorem trackers_upd_refusals (s : State) (k : Nat) (v : List TrackEnt) : (applyUpd (.trackers k v) s).refusals = s.refusals := rfl
@[simp] theorem trackers_upd_firstRefusal (s : State) (k : Nat) (v : List TrackEnt) : (applyUpd (.trackers k v) s).firstRefusal = s.firstRefusal := rfl
@[simp] theorem trackers_upd_boxQueue (s : State) (k : Nat) (v : List TrackEnt) : (applyUpd (.trackers k v) s).boxQueue = s.boxQueue := rfl
@[simp] theorem trackers_upd_boxRun (s : State) (k : Nat) (v : List TrackEnt) : (applyUpd (.trackers k v) s).boxRun = s.boxRun := rfl
@[simp] theorem trackers_upd_kvs (s : State) (k : Nat) (v : List TrackEnt) : (applyUpd (.trackers k v) s).kvs = s.kvs := rfl
@[simp] theorem trackers_upd_parts (s : State) (k : Nat) (v : List TrackEnt) : (applyUpd (.trackers k v) s).parts = s.parts := rfl
@[simp] theorem trackers_upd_dmas (s : State) (k : Nat) (v : List TrackEnt) : (applyUpd (.trackers k v) s).dmas = s.dmas := rfl
@[simp] theorem trackers_upd_regReqs (s : State) (k : Nat) (v : List TrackEnt) : (applyUpd (.trackers k v) s).regReqs = s.regReqs := rfl
@[simp] theorem trackers_upd_regPorts (s : State) (k : Nat) (v : List TrackEnt) : (applyUpd (.trackers k v) s).regPorts = s.regPorts := rfl
@[simp] theorem trackers_upd_subchs (s : State) (k : Nat) (v : List TrackEnt) : (applyUpd (.trackers k v) s).subchs = s.subchs := rfl
@[simp] theorem trackers_upd_trackers (s : State) (k : Nat) (v : List TrackEnt) : (applyUpd (.trackers k v) s).trackers = tabSet noTrack s.trackers k v := rfl
@[simp] theorem trackers_upd_throttles (s : State) (k : Nat) (v : List TrackEnt) : (applyUpd (.trackers k v) s).throttles = s.throttles := rfl
@[simp] theorem trackers_upd_errRing (s : State) (k : Nat) (v : List TrackEnt) : (applyUpd (.trackers k v) s).errRing = s.errRing := rfl
@[simp] theorem trackers_upd_errRingOvf (s : State) (k : Nat) (v : List TrackEnt) : (applyUpd (.trackers k v) s).errRingOvf = s.errRingOvf := rfl
@[simp] theorem trackers_upd_patrolLine (s : State) (k : Nat) (v : List TrackEnt) : (applyUpd (.trackers k v) s).patrolLine = s.patrolLine := rfl
@[simp] theorem trackers_upd_retTimes (s : State) (k : Nat) (v : List TrackEnt) : (applyUpd (.trackers k v) s).retTimes = s.retTimes := rfl
@[simp] theorem trackers_upd_retired (s : State) (k : Nat) (v : List TrackEnt) : (applyUpd (.trackers k v) s).retired = s.retired := rfl
@[simp] theorem trackers_upd_dramSeq (s : State) (k : Nat) (v : List TrackEnt) : (applyUpd (.trackers k v) s).dramSeq = s.dramSeq := rfl
@[simp] theorem trackers_upd_trn (s : State) (k : Nat) (v : List TrackEnt) : (applyUpd (.trackers k v) s).trn = s.trn := rfl
@[simp] theorem trackers_upd_dqsAdj (s : State) (k : Nat) (v : List TrackEnt) : (applyUpd (.trackers k v) s).dqsAdj = s.dqsAdj := rfl
@[simp] theorem trackers_upd_dpol (s : State) (k : Nat) (v : List TrackEnt) : (applyUpd (.trackers k v) s).dpol = s.dpol := rfl
@[simp] theorem trackers_upd_idleAt (s : State) (k : Nat) (v : List TrackEnt) : (applyUpd (.trackers k v) s).idleAt = s.idleAt := rfl
@[simp] theorem trackers_upd_fitted (s : State) (k : Nat) (v : List TrackEnt) : (applyUpd (.trackers k v) s).fitted = s.fitted := rfl
@[simp] theorem trackers_upd_faultMsgs (s : State) (k : Nat) (v : List TrackEnt) : (applyUpd (.trackers k v) s).faultMsgs = s.faultMsgs := rfl
@[simp] theorem trackers_upd_out (s : State) (k : Nat) (v : List TrackEnt) : (applyUpd (.trackers k v) s).out = s.out := rfl
@[simp] theorem trackers_upd_lastRead (s : State) (k : Nat) (v : List TrackEnt) : (applyUpd (.trackers k v) s).lastRead = s.lastRead := rfl
@[simp] theorem trackers_upd_fwd (s : State) (k : Nat) (v : List TrackEnt) : (applyUpd (.trackers k v) s).fwd = s.fwd := rfl
@[simp] theorem trackers_upd_ethTx (s : State) (k : Nat) (v : List TrackEnt) : (applyUpd (.trackers k v) s).ethTx = s.ethTx := rfl
@[simp] theorem trackers_upd_ethHeadAt (s : State) (k : Nat) (v : List TrackEnt) : (applyUpd (.trackers k v) s).ethHeadAt = s.ethHeadAt := rfl
@[simp] theorem trackers_upd_canTx (s : State) (k : Nat) (v : List TrackEnt) : (applyUpd (.trackers k v) s).canTx = s.canTx := rfl
@[simp] theorem trackers_upd_pcieOut (s : State) (k : Nat) (v : List TrackEnt) : (applyUpd (.trackers k v) s).pcieOut = s.pcieOut := rfl
@[simp] theorem trackers_upd_pcieCfgRd (s : State) (k : Nat) (v : List TrackEnt) : (applyUpd (.trackers k v) s).pcieCfgRd = s.pcieCfgRd := rfl
@[simp] theorem trackers_upd_msix (s : State) (k : Nat) (v : List TrackEnt) : (applyUpd (.trackers k v) s).msix = s.msix := rfl
@[simp] theorem trackers_upd_ancs (s : State) (k : Nat) (v : List TrackEnt) : (applyUpd (.trackers k v) s).ancs = s.ancs := rfl
@[simp] theorem trackers_upd_trajArea (s : State) (k : Nat) (v : List TrackEnt) : (applyUpd (.trackers k v) s).trajArea = s.trajArea := rfl
@[simp] theorem trackers_upd_lidarIn (s : State) (k : Nat) (v : List TrackEnt) : (applyUpd (.trackers k v) s).lidarIn = s.lidarIn := rfl
@[simp] theorem trackers_upd_wheelIn (s : State) (k : Nat) (v : List TrackEnt) : (applyUpd (.trackers k v) s).wheelIn = s.wheelIn := rfl
@[simp] theorem trackers_upd_spiStepBusy (s : State) (k : Nat) (v : List TrackEnt) : (applyUpd (.trackers k v) s).spiStepBusy = s.spiStepBusy := rfl
@[simp] theorem trackers_upd_spiRec (s : State) (k : Nat) (v : List TrackEnt) : (applyUpd (.trackers k v) s).spiRec = s.spiRec := rfl
@[simp] theorem trackers_upd_spiStepCfg (s : State) (k : Nat) (v : List TrackEnt) : (applyUpd (.trackers k v) s).spiStepCfg = s.spiStepCfg := rfl
@[simp] theorem trackers_upd_ctxs (s : State) (k : Nat) (v : List TrackEnt) : (applyUpd (.trackers k v) s).ctxs = s.ctxs := rfl
@[simp] theorem trackers_upd_fsyOmit (s : State) (k : Nat) (v : List TrackEnt) : (applyUpd (.trackers k v) s).fsyOmit = s.fsyOmit := rfl
@[simp] theorem trackers_upd_fsyPulsed (s : State) (k : Nat) (v : List TrackEnt) : (applyUpd (.trackers k v) s).fsyPulsed = s.fsyPulsed := rfl
@[simp] theorem trackers_upd_supTasks (s : State) (k : Nat) (v : List TrackEnt) : (applyUpd (.trackers k v) s).supTasks = s.supTasks := rfl
@[simp] theorem trackers_upd_fus (s : State) (k : Nat) (v : List TrackEnt) : (applyUpd (.trackers k v) s).fus = s.fus := rfl
@[simp] theorem trackers_upd_fcons (s : State) (k : Nat) (v : List TrackEnt) : (applyUpd (.trackers k v) s).fcons = s.fcons := rfl
@[simp] theorem trackers_upd_shadow (s : State) (k : Nat) (v : List TrackEnt) : (applyUpd (.trackers k v) s).shadow = s.shadow := rfl
@[simp] theorem trackers_upd_trv (s : State) (k : Nat) (v : List TrackEnt) : (applyUpd (.trackers k v) s).trv = s.trv := rfl
@[simp] theorem trackers_upd_tlayers (s : State) (k : Nat) (v : List TrackEnt) : (applyUpd (.trackers k v) s).tlayers = s.tlayers := rfl
@[simp] theorem trackers_upd_jobFaults (s : State) (k : Nat) (v : List TrackEnt) : (applyUpd (.trackers k v) s).jobFaults = s.jobFaults := rfl
@[simp] theorem trackers_upd_unitLast (s : State) (k : Nat) (v : List TrackEnt) : (applyUpd (.trackers k v) s).unitLast = s.unitLast := rfl
@[simp] theorem trackers_upd_unitRst (s : State) (k : Nat) (v : List TrackEnt) : (applyUpd (.trackers k v) s).unitRst = s.unitRst := rfl
@[simp] theorem trackers_upd_xlink (s : State) (k : Nat) (v : List TrackEnt) : (applyUpd (.trackers k v) s).xlink = s.xlink := rfl
@[simp] theorem trackers_upd_trace (s : State) (k : Nat) (v : List TrackEnt) : (applyUpd (.trackers k v) s).trace = s.trace := rfl
@[simp] theorem trackers_upd_progs (s : State) (k : Nat) (v : List TrackEnt) : (applyUpd (.trackers k v) s).progs = s.progs := rfl
@[simp] theorem trackers_upd_rails (s : State) (k : Nat) (v : List TrackEnt) : (applyUpd (.trackers k v) s).rails = s.rails := rfl
@[simp] theorem trackers_upd_thm (s : State) (k : Nat) (v : List TrackEnt) : (applyUpd (.trackers k v) s).thm = s.thm := rfl
@[simp] theorem trackers_upd_bnd (s : State) (k : Nat) (v : List TrackEnt) : (applyUpd (.trackers k v) s).bnd = s.bnd := rfl
@[simp] theorem trackers_upd_thmTrip (s : State) (k : Nat) (v : List TrackEnt) : (applyUpd (.trackers k v) s).thmTrip = s.thmTrip := rfl
@[simp] theorem trackers_upd_flash (s : State) (k : Nat) (v : List TrackEnt) : (applyUpd (.trackers k v) s).flash = s.flash := rfl
@[simp] theorem trackers_upd_slots (s : State) (k : Nat) (v : List TrackEnt) : (applyUpd (.trackers k v) s).slots = s.slots := rfl
@[simp] theorem trackers_upd_stores (s : State) (k : Nat) (v : List TrackEnt) : (applyUpd (.trackers k v) s).stores = s.stores := rfl
@[simp] theorem trackers_upd_ids (s : State) (k : Nat) (v : List TrackEnt) : (applyUpd (.trackers k v) s).ids = s.ids := rfl
@[simp] theorem trackers_upd_boot (s : State) (k : Nat) (v : List TrackEnt) : (applyUpd (.trackers k v) s).boot = s.boot := rfl
@[simp] theorem trackers_upd_load (s : State) (k : Nat) (v : List TrackEnt) : (applyUpd (.trackers k v) s).load = s.load := rfl
@[simp] theorem trackers_upd_flt (s : State) (k : Nat) (v : List TrackEnt) : (applyUpd (.trackers k v) s).flt = s.flt := rfl
@[simp] theorem trackers_upd_mon (s : State) (k : Nat) (v : List TrackEnt) : (applyUpd (.trackers k v) s).mon = s.mon := rfl
@[simp] theorem throttles_upd_pending (s : State) (v : List Throttle) : (applyUpd (.throttles v) s).pending = s.pending := rfl
@[simp] theorem throttles_upd_regs (s : State) (v : List Throttle) : (applyUpd (.throttles v) s).regs = s.regs := rfl
@[simp] theorem throttles_upd_mem (s : State) (v : List Throttle) : (applyUpd (.throttles v) s).mem = s.mem := rfl
@[simp] theorem throttles_upd_sram (s : State) (v : List Throttle) : (applyUpd (.throttles v) s).sram = s.sram := rfl
@[simp] theorem throttles_upd_time (s : State) (v : List Throttle) : (applyUpd (.throttles v) s).time = s.time := rfl
@[simp] theorem throttles_upd_timeFrac (s : State) (v : List Throttle) : (applyUpd (.throttles v) s).timeFrac = s.timeFrac := rfl
@[simp] theorem throttles_upd_freeCtr (s : State) (v : List Throttle) : (applyUpd (.throttles v) s).freeCtr = s.freeCtr := rfl
@[simp] theorem throttles_upd_hiLatch (s : State) (v : List Throttle) : (applyUpd (.throttles v) s).hiLatch = s.hiLatch := rfl
@[simp] theorem throttles_upd_timeSet (s : State) (v : List Throttle) : (applyUpd (.throttles v) s).timeSet = s.timeSet := rfl
@[simp] theorem throttles_upd_n0 (s : State) (v : List Throttle) : (applyUpd (.throttles v) s).n0 = s.n0 := rfl
@[simp] theorem throttles_upd_ticked (s : State) (v : List Throttle) : (applyUpd (.throttles v) s).ticked = s.ticked := rfl
@[simp] theorem throttles_upd_peerTickAt (s : State) (v : List Throttle) : (applyUpd (.throttles v) s).peerTickAt = s.peerTickAt := rfl
@[simp] theorem throttles_upd_guardPitch (s : State) (v : List Throttle) : (applyUpd (.throttles v) s).guardPitch = s.guardPitch := rfl
@[simp] theorem throttles_upd_diePitch (s : State) (v : List Throttle) : (applyUpd (.throttles v) s).diePitch = s.diePitch := rfl
@[simp] theorem throttles_upd_resps (s : State) (v : List Throttle) : (applyUpd (.throttles v) s).resps = s.resps := rfl
@[simp] theorem throttles_upd_txns (s : State) (v : List Throttle) : (applyUpd (.throttles v) s).txns = s.txns := rfl
@[simp] theorem throttles_upd_nextTag (s : State) (v : List Throttle) : (applyUpd (.throttles v) s).nextTag = s.nextTag := rfl
@[simp] theorem throttles_upd_lateTags (s : State) (v : List Throttle) : (applyUpd (.throttles v) s).lateTags = s.lateTags := rfl
@[simp] theorem throttles_upd_ports (s : State) (v : List Throttle) : (applyUpd (.throttles v) s).ports = s.ports := rfl
@[simp] theorem throttles_upd_threads (s : State) (v : List Throttle) : (applyUpd (.throttles v) s).threads = s.threads := rfl
@[simp] theorem throttles_upd_cores (s : State) (v : List Throttle) : (applyUpd (.throttles v) s).cores = s.cores := rfl
@[simp] theorem throttles_upd_engines (s : State) (v : List Throttle) : (applyUpd (.throttles v) s).engines = s.engines := rfl
@[simp] theorem throttles_upd_held (s : State) (v : List Throttle) : (applyUpd (.throttles v) s).held = s.held := rfl
@[simp] theorem throttles_upd_watches (s : State) (v : List Throttle) : (applyUpd (.throttles v) s).watches = s.watches := rfl
@[simp] theorem throttles_upd_watchMsgs (s : State) (v : List Throttle) : (applyUpd (.throttles v) s).watchMsgs = s.watchMsgs := rfl
@[simp] theorem throttles_upd_bankHeld (s : State) (v : List Throttle) : (applyUpd (.throttles v) s).bankHeld = s.bankHeld := rfl
@[simp] theorem throttles_upd_bankTarget (s : State) (v : List Throttle) : (applyUpd (.throttles v) s).bankTarget = s.bankTarget := rfl
@[simp] theorem throttles_upd_ecc (s : State) (v : List Throttle) : (applyUpd (.throttles v) s).ecc = s.ecc := rfl
@[simp] theorem throttles_upd_lineEcc (s : State) (v : List Throttle) : (applyUpd (.throttles v) s).lineEcc = s.lineEcc := rfl
@[simp] theorem throttles_upd_wbPending (s : State) (v : List Throttle) : (applyUpd (.throttles v) s).wbPending = s.wbPending := rfl
@[simp] theorem throttles_upd_scrubPos (s : State) (v : List Throttle) : (applyUpd (.throttles v) s).scrubPos = s.scrubPos := rfl
@[simp] theorem throttles_upd_refusals (s : State) (v : List Throttle) : (applyUpd (.throttles v) s).refusals = s.refusals := rfl
@[simp] theorem throttles_upd_firstRefusal (s : State) (v : List Throttle) : (applyUpd (.throttles v) s).firstRefusal = s.firstRefusal := rfl
@[simp] theorem throttles_upd_boxQueue (s : State) (v : List Throttle) : (applyUpd (.throttles v) s).boxQueue = s.boxQueue := rfl
@[simp] theorem throttles_upd_boxRun (s : State) (v : List Throttle) : (applyUpd (.throttles v) s).boxRun = s.boxRun := rfl
@[simp] theorem throttles_upd_kvs (s : State) (v : List Throttle) : (applyUpd (.throttles v) s).kvs = s.kvs := rfl
@[simp] theorem throttles_upd_parts (s : State) (v : List Throttle) : (applyUpd (.throttles v) s).parts = s.parts := rfl
@[simp] theorem throttles_upd_dmas (s : State) (v : List Throttle) : (applyUpd (.throttles v) s).dmas = s.dmas := rfl
@[simp] theorem throttles_upd_regReqs (s : State) (v : List Throttle) : (applyUpd (.throttles v) s).regReqs = s.regReqs := rfl
@[simp] theorem throttles_upd_regPorts (s : State) (v : List Throttle) : (applyUpd (.throttles v) s).regPorts = s.regPorts := rfl
@[simp] theorem throttles_upd_subchs (s : State) (v : List Throttle) : (applyUpd (.throttles v) s).subchs = s.subchs := rfl
@[simp] theorem throttles_upd_trackers (s : State) (v : List Throttle) : (applyUpd (.throttles v) s).trackers = s.trackers := rfl
@[simp] theorem throttles_upd_throttles (s : State) (v : List Throttle) : (applyUpd (.throttles v) s).throttles = v := rfl
@[simp] theorem throttles_upd_errRing (s : State) (v : List Throttle) : (applyUpd (.throttles v) s).errRing = s.errRing := rfl
@[simp] theorem throttles_upd_errRingOvf (s : State) (v : List Throttle) : (applyUpd (.throttles v) s).errRingOvf = s.errRingOvf := rfl
@[simp] theorem throttles_upd_patrolLine (s : State) (v : List Throttle) : (applyUpd (.throttles v) s).patrolLine = s.patrolLine := rfl
@[simp] theorem throttles_upd_retTimes (s : State) (v : List Throttle) : (applyUpd (.throttles v) s).retTimes = s.retTimes := rfl
@[simp] theorem throttles_upd_retired (s : State) (v : List Throttle) : (applyUpd (.throttles v) s).retired = s.retired := rfl
@[simp] theorem throttles_upd_dramSeq (s : State) (v : List Throttle) : (applyUpd (.throttles v) s).dramSeq = s.dramSeq := rfl
@[simp] theorem throttles_upd_trn (s : State) (v : List Throttle) : (applyUpd (.throttles v) s).trn = s.trn := rfl
@[simp] theorem throttles_upd_dqsAdj (s : State) (v : List Throttle) : (applyUpd (.throttles v) s).dqsAdj = s.dqsAdj := rfl
@[simp] theorem throttles_upd_dpol (s : State) (v : List Throttle) : (applyUpd (.throttles v) s).dpol = s.dpol := rfl
@[simp] theorem throttles_upd_idleAt (s : State) (v : List Throttle) : (applyUpd (.throttles v) s).idleAt = s.idleAt := rfl
@[simp] theorem throttles_upd_fitted (s : State) (v : List Throttle) : (applyUpd (.throttles v) s).fitted = s.fitted := rfl
@[simp] theorem throttles_upd_faultMsgs (s : State) (v : List Throttle) : (applyUpd (.throttles v) s).faultMsgs = s.faultMsgs := rfl
@[simp] theorem throttles_upd_out (s : State) (v : List Throttle) : (applyUpd (.throttles v) s).out = s.out := rfl
@[simp] theorem throttles_upd_lastRead (s : State) (v : List Throttle) : (applyUpd (.throttles v) s).lastRead = s.lastRead := rfl
@[simp] theorem throttles_upd_fwd (s : State) (v : List Throttle) : (applyUpd (.throttles v) s).fwd = s.fwd := rfl
@[simp] theorem throttles_upd_ethTx (s : State) (v : List Throttle) : (applyUpd (.throttles v) s).ethTx = s.ethTx := rfl
@[simp] theorem throttles_upd_ethHeadAt (s : State) (v : List Throttle) : (applyUpd (.throttles v) s).ethHeadAt = s.ethHeadAt := rfl
@[simp] theorem throttles_upd_canTx (s : State) (v : List Throttle) : (applyUpd (.throttles v) s).canTx = s.canTx := rfl
@[simp] theorem throttles_upd_pcieOut (s : State) (v : List Throttle) : (applyUpd (.throttles v) s).pcieOut = s.pcieOut := rfl
@[simp] theorem throttles_upd_pcieCfgRd (s : State) (v : List Throttle) : (applyUpd (.throttles v) s).pcieCfgRd = s.pcieCfgRd := rfl
@[simp] theorem throttles_upd_msix (s : State) (v : List Throttle) : (applyUpd (.throttles v) s).msix = s.msix := rfl
@[simp] theorem throttles_upd_ancs (s : State) (v : List Throttle) : (applyUpd (.throttles v) s).ancs = s.ancs := rfl
@[simp] theorem throttles_upd_trajArea (s : State) (v : List Throttle) : (applyUpd (.throttles v) s).trajArea = s.trajArea := rfl
@[simp] theorem throttles_upd_lidarIn (s : State) (v : List Throttle) : (applyUpd (.throttles v) s).lidarIn = s.lidarIn := rfl
@[simp] theorem throttles_upd_wheelIn (s : State) (v : List Throttle) : (applyUpd (.throttles v) s).wheelIn = s.wheelIn := rfl
@[simp] theorem throttles_upd_spiStepBusy (s : State) (v : List Throttle) : (applyUpd (.throttles v) s).spiStepBusy = s.spiStepBusy := rfl
@[simp] theorem throttles_upd_spiRec (s : State) (v : List Throttle) : (applyUpd (.throttles v) s).spiRec = s.spiRec := rfl
@[simp] theorem throttles_upd_spiStepCfg (s : State) (v : List Throttle) : (applyUpd (.throttles v) s).spiStepCfg = s.spiStepCfg := rfl
@[simp] theorem throttles_upd_ctxs (s : State) (v : List Throttle) : (applyUpd (.throttles v) s).ctxs = s.ctxs := rfl
@[simp] theorem throttles_upd_fsyOmit (s : State) (v : List Throttle) : (applyUpd (.throttles v) s).fsyOmit = s.fsyOmit := rfl
@[simp] theorem throttles_upd_fsyPulsed (s : State) (v : List Throttle) : (applyUpd (.throttles v) s).fsyPulsed = s.fsyPulsed := rfl
@[simp] theorem throttles_upd_supTasks (s : State) (v : List Throttle) : (applyUpd (.throttles v) s).supTasks = s.supTasks := rfl
@[simp] theorem throttles_upd_fus (s : State) (v : List Throttle) : (applyUpd (.throttles v) s).fus = s.fus := rfl
@[simp] theorem throttles_upd_fcons (s : State) (v : List Throttle) : (applyUpd (.throttles v) s).fcons = s.fcons := rfl
@[simp] theorem throttles_upd_shadow (s : State) (v : List Throttle) : (applyUpd (.throttles v) s).shadow = s.shadow := rfl
@[simp] theorem throttles_upd_trv (s : State) (v : List Throttle) : (applyUpd (.throttles v) s).trv = s.trv := rfl
@[simp] theorem throttles_upd_tlayers (s : State) (v : List Throttle) : (applyUpd (.throttles v) s).tlayers = s.tlayers := rfl
@[simp] theorem throttles_upd_jobFaults (s : State) (v : List Throttle) : (applyUpd (.throttles v) s).jobFaults = s.jobFaults := rfl
@[simp] theorem throttles_upd_unitLast (s : State) (v : List Throttle) : (applyUpd (.throttles v) s).unitLast = s.unitLast := rfl
@[simp] theorem throttles_upd_unitRst (s : State) (v : List Throttle) : (applyUpd (.throttles v) s).unitRst = s.unitRst := rfl
@[simp] theorem throttles_upd_xlink (s : State) (v : List Throttle) : (applyUpd (.throttles v) s).xlink = s.xlink := rfl
@[simp] theorem throttles_upd_trace (s : State) (v : List Throttle) : (applyUpd (.throttles v) s).trace = s.trace := rfl
@[simp] theorem throttles_upd_progs (s : State) (v : List Throttle) : (applyUpd (.throttles v) s).progs = s.progs := rfl
@[simp] theorem throttles_upd_rails (s : State) (v : List Throttle) : (applyUpd (.throttles v) s).rails = s.rails := rfl
@[simp] theorem throttles_upd_thm (s : State) (v : List Throttle) : (applyUpd (.throttles v) s).thm = s.thm := rfl
@[simp] theorem throttles_upd_bnd (s : State) (v : List Throttle) : (applyUpd (.throttles v) s).bnd = s.bnd := rfl
@[simp] theorem throttles_upd_thmTrip (s : State) (v : List Throttle) : (applyUpd (.throttles v) s).thmTrip = s.thmTrip := rfl
@[simp] theorem throttles_upd_flash (s : State) (v : List Throttle) : (applyUpd (.throttles v) s).flash = s.flash := rfl
@[simp] theorem throttles_upd_slots (s : State) (v : List Throttle) : (applyUpd (.throttles v) s).slots = s.slots := rfl
@[simp] theorem throttles_upd_stores (s : State) (v : List Throttle) : (applyUpd (.throttles v) s).stores = s.stores := rfl
@[simp] theorem throttles_upd_ids (s : State) (v : List Throttle) : (applyUpd (.throttles v) s).ids = s.ids := rfl
@[simp] theorem throttles_upd_boot (s : State) (v : List Throttle) : (applyUpd (.throttles v) s).boot = s.boot := rfl
@[simp] theorem throttles_upd_load (s : State) (v : List Throttle) : (applyUpd (.throttles v) s).load = s.load := rfl
@[simp] theorem throttles_upd_flt (s : State) (v : List Throttle) : (applyUpd (.throttles v) s).flt = s.flt := rfl
@[simp] theorem throttles_upd_mon (s : State) (v : List Throttle) : (applyUpd (.throttles v) s).mon = s.mon := rfl
@[simp] theorem errRing_upd_pending (s : State) (v : List DramErr) : (applyUpd (.errRing v) s).pending = s.pending := rfl
@[simp] theorem errRing_upd_regs (s : State) (v : List DramErr) : (applyUpd (.errRing v) s).regs = s.regs := rfl
@[simp] theorem errRing_upd_mem (s : State) (v : List DramErr) : (applyUpd (.errRing v) s).mem = s.mem := rfl
@[simp] theorem errRing_upd_sram (s : State) (v : List DramErr) : (applyUpd (.errRing v) s).sram = s.sram := rfl
@[simp] theorem errRing_upd_time (s : State) (v : List DramErr) : (applyUpd (.errRing v) s).time = s.time := rfl
@[simp] theorem errRing_upd_timeFrac (s : State) (v : List DramErr) : (applyUpd (.errRing v) s).timeFrac = s.timeFrac := rfl
@[simp] theorem errRing_upd_freeCtr (s : State) (v : List DramErr) : (applyUpd (.errRing v) s).freeCtr = s.freeCtr := rfl
@[simp] theorem errRing_upd_hiLatch (s : State) (v : List DramErr) : (applyUpd (.errRing v) s).hiLatch = s.hiLatch := rfl
@[simp] theorem errRing_upd_timeSet (s : State) (v : List DramErr) : (applyUpd (.errRing v) s).timeSet = s.timeSet := rfl
@[simp] theorem errRing_upd_n0 (s : State) (v : List DramErr) : (applyUpd (.errRing v) s).n0 = s.n0 := rfl
@[simp] theorem errRing_upd_ticked (s : State) (v : List DramErr) : (applyUpd (.errRing v) s).ticked = s.ticked := rfl
@[simp] theorem errRing_upd_peerTickAt (s : State) (v : List DramErr) : (applyUpd (.errRing v) s).peerTickAt = s.peerTickAt := rfl
@[simp] theorem errRing_upd_guardPitch (s : State) (v : List DramErr) : (applyUpd (.errRing v) s).guardPitch = s.guardPitch := rfl
@[simp] theorem errRing_upd_diePitch (s : State) (v : List DramErr) : (applyUpd (.errRing v) s).diePitch = s.diePitch := rfl
@[simp] theorem errRing_upd_resps (s : State) (v : List DramErr) : (applyUpd (.errRing v) s).resps = s.resps := rfl
@[simp] theorem errRing_upd_txns (s : State) (v : List DramErr) : (applyUpd (.errRing v) s).txns = s.txns := rfl
@[simp] theorem errRing_upd_nextTag (s : State) (v : List DramErr) : (applyUpd (.errRing v) s).nextTag = s.nextTag := rfl
@[simp] theorem errRing_upd_lateTags (s : State) (v : List DramErr) : (applyUpd (.errRing v) s).lateTags = s.lateTags := rfl
@[simp] theorem errRing_upd_ports (s : State) (v : List DramErr) : (applyUpd (.errRing v) s).ports = s.ports := rfl
@[simp] theorem errRing_upd_threads (s : State) (v : List DramErr) : (applyUpd (.errRing v) s).threads = s.threads := rfl
@[simp] theorem errRing_upd_cores (s : State) (v : List DramErr) : (applyUpd (.errRing v) s).cores = s.cores := rfl
@[simp] theorem errRing_upd_engines (s : State) (v : List DramErr) : (applyUpd (.errRing v) s).engines = s.engines := rfl
@[simp] theorem errRing_upd_held (s : State) (v : List DramErr) : (applyUpd (.errRing v) s).held = s.held := rfl
@[simp] theorem errRing_upd_watches (s : State) (v : List DramErr) : (applyUpd (.errRing v) s).watches = s.watches := rfl
@[simp] theorem errRing_upd_watchMsgs (s : State) (v : List DramErr) : (applyUpd (.errRing v) s).watchMsgs = s.watchMsgs := rfl
@[simp] theorem errRing_upd_bankHeld (s : State) (v : List DramErr) : (applyUpd (.errRing v) s).bankHeld = s.bankHeld := rfl
@[simp] theorem errRing_upd_bankTarget (s : State) (v : List DramErr) : (applyUpd (.errRing v) s).bankTarget = s.bankTarget := rfl
@[simp] theorem errRing_upd_ecc (s : State) (v : List DramErr) : (applyUpd (.errRing v) s).ecc = s.ecc := rfl
@[simp] theorem errRing_upd_lineEcc (s : State) (v : List DramErr) : (applyUpd (.errRing v) s).lineEcc = s.lineEcc := rfl
@[simp] theorem errRing_upd_wbPending (s : State) (v : List DramErr) : (applyUpd (.errRing v) s).wbPending = s.wbPending := rfl
@[simp] theorem errRing_upd_scrubPos (s : State) (v : List DramErr) : (applyUpd (.errRing v) s).scrubPos = s.scrubPos := rfl
@[simp] theorem errRing_upd_refusals (s : State) (v : List DramErr) : (applyUpd (.errRing v) s).refusals = s.refusals := rfl
@[simp] theorem errRing_upd_firstRefusal (s : State) (v : List DramErr) : (applyUpd (.errRing v) s).firstRefusal = s.firstRefusal := rfl
@[simp] theorem errRing_upd_boxQueue (s : State) (v : List DramErr) : (applyUpd (.errRing v) s).boxQueue = s.boxQueue := rfl
@[simp] theorem errRing_upd_boxRun (s : State) (v : List DramErr) : (applyUpd (.errRing v) s).boxRun = s.boxRun := rfl
@[simp] theorem errRing_upd_kvs (s : State) (v : List DramErr) : (applyUpd (.errRing v) s).kvs = s.kvs := rfl
@[simp] theorem errRing_upd_parts (s : State) (v : List DramErr) : (applyUpd (.errRing v) s).parts = s.parts := rfl
@[simp] theorem errRing_upd_dmas (s : State) (v : List DramErr) : (applyUpd (.errRing v) s).dmas = s.dmas := rfl
@[simp] theorem errRing_upd_regReqs (s : State) (v : List DramErr) : (applyUpd (.errRing v) s).regReqs = s.regReqs := rfl
@[simp] theorem errRing_upd_regPorts (s : State) (v : List DramErr) : (applyUpd (.errRing v) s).regPorts = s.regPorts := rfl
@[simp] theorem errRing_upd_subchs (s : State) (v : List DramErr) : (applyUpd (.errRing v) s).subchs = s.subchs := rfl
@[simp] theorem errRing_upd_trackers (s : State) (v : List DramErr) : (applyUpd (.errRing v) s).trackers = s.trackers := rfl
@[simp] theorem errRing_upd_throttles (s : State) (v : List DramErr) : (applyUpd (.errRing v) s).throttles = s.throttles := rfl
@[simp] theorem errRing_upd_errRing (s : State) (v : List DramErr) : (applyUpd (.errRing v) s).errRing = v := rfl
@[simp] theorem errRing_upd_errRingOvf (s : State) (v : List DramErr) : (applyUpd (.errRing v) s).errRingOvf = s.errRingOvf := rfl
@[simp] theorem errRing_upd_patrolLine (s : State) (v : List DramErr) : (applyUpd (.errRing v) s).patrolLine = s.patrolLine := rfl
@[simp] theorem errRing_upd_retTimes (s : State) (v : List DramErr) : (applyUpd (.errRing v) s).retTimes = s.retTimes := rfl
@[simp] theorem errRing_upd_retired (s : State) (v : List DramErr) : (applyUpd (.errRing v) s).retired = s.retired := rfl
@[simp] theorem errRing_upd_dramSeq (s : State) (v : List DramErr) : (applyUpd (.errRing v) s).dramSeq = s.dramSeq := rfl
@[simp] theorem errRing_upd_trn (s : State) (v : List DramErr) : (applyUpd (.errRing v) s).trn = s.trn := rfl
@[simp] theorem errRing_upd_dqsAdj (s : State) (v : List DramErr) : (applyUpd (.errRing v) s).dqsAdj = s.dqsAdj := rfl
@[simp] theorem errRing_upd_dpol (s : State) (v : List DramErr) : (applyUpd (.errRing v) s).dpol = s.dpol := rfl
@[simp] theorem errRing_upd_idleAt (s : State) (v : List DramErr) : (applyUpd (.errRing v) s).idleAt = s.idleAt := rfl
@[simp] theorem errRing_upd_fitted (s : State) (v : List DramErr) : (applyUpd (.errRing v) s).fitted = s.fitted := rfl
@[simp] theorem errRing_upd_faultMsgs (s : State) (v : List DramErr) : (applyUpd (.errRing v) s).faultMsgs = s.faultMsgs := rfl
@[simp] theorem errRing_upd_out (s : State) (v : List DramErr) : (applyUpd (.errRing v) s).out = s.out := rfl
@[simp] theorem errRing_upd_lastRead (s : State) (v : List DramErr) : (applyUpd (.errRing v) s).lastRead = s.lastRead := rfl
@[simp] theorem errRing_upd_fwd (s : State) (v : List DramErr) : (applyUpd (.errRing v) s).fwd = s.fwd := rfl
@[simp] theorem errRing_upd_ethTx (s : State) (v : List DramErr) : (applyUpd (.errRing v) s).ethTx = s.ethTx := rfl
@[simp] theorem errRing_upd_ethHeadAt (s : State) (v : List DramErr) : (applyUpd (.errRing v) s).ethHeadAt = s.ethHeadAt := rfl
@[simp] theorem errRing_upd_canTx (s : State) (v : List DramErr) : (applyUpd (.errRing v) s).canTx = s.canTx := rfl
@[simp] theorem errRing_upd_pcieOut (s : State) (v : List DramErr) : (applyUpd (.errRing v) s).pcieOut = s.pcieOut := rfl
@[simp] theorem errRing_upd_pcieCfgRd (s : State) (v : List DramErr) : (applyUpd (.errRing v) s).pcieCfgRd = s.pcieCfgRd := rfl
@[simp] theorem errRing_upd_msix (s : State) (v : List DramErr) : (applyUpd (.errRing v) s).msix = s.msix := rfl
@[simp] theorem errRing_upd_ancs (s : State) (v : List DramErr) : (applyUpd (.errRing v) s).ancs = s.ancs := rfl
@[simp] theorem errRing_upd_trajArea (s : State) (v : List DramErr) : (applyUpd (.errRing v) s).trajArea = s.trajArea := rfl
@[simp] theorem errRing_upd_lidarIn (s : State) (v : List DramErr) : (applyUpd (.errRing v) s).lidarIn = s.lidarIn := rfl
@[simp] theorem errRing_upd_wheelIn (s : State) (v : List DramErr) : (applyUpd (.errRing v) s).wheelIn = s.wheelIn := rfl
@[simp] theorem errRing_upd_spiStepBusy (s : State) (v : List DramErr) : (applyUpd (.errRing v) s).spiStepBusy = s.spiStepBusy := rfl
@[simp] theorem errRing_upd_spiRec (s : State) (v : List DramErr) : (applyUpd (.errRing v) s).spiRec = s.spiRec := rfl
@[simp] theorem errRing_upd_spiStepCfg (s : State) (v : List DramErr) : (applyUpd (.errRing v) s).spiStepCfg = s.spiStepCfg := rfl
@[simp] theorem errRing_upd_ctxs (s : State) (v : List DramErr) : (applyUpd (.errRing v) s).ctxs = s.ctxs := rfl
@[simp] theorem errRing_upd_fsyOmit (s : State) (v : List DramErr) : (applyUpd (.errRing v) s).fsyOmit = s.fsyOmit := rfl
@[simp] theorem errRing_upd_fsyPulsed (s : State) (v : List DramErr) : (applyUpd (.errRing v) s).fsyPulsed = s.fsyPulsed := rfl
@[simp] theorem errRing_upd_supTasks (s : State) (v : List DramErr) : (applyUpd (.errRing v) s).supTasks = s.supTasks := rfl
@[simp] theorem errRing_upd_fus (s : State) (v : List DramErr) : (applyUpd (.errRing v) s).fus = s.fus := rfl
@[simp] theorem errRing_upd_fcons (s : State) (v : List DramErr) : (applyUpd (.errRing v) s).fcons = s.fcons := rfl
@[simp] theorem errRing_upd_shadow (s : State) (v : List DramErr) : (applyUpd (.errRing v) s).shadow = s.shadow := rfl
@[simp] theorem errRing_upd_trv (s : State) (v : List DramErr) : (applyUpd (.errRing v) s).trv = s.trv := rfl
@[simp] theorem errRing_upd_tlayers (s : State) (v : List DramErr) : (applyUpd (.errRing v) s).tlayers = s.tlayers := rfl
@[simp] theorem errRing_upd_jobFaults (s : State) (v : List DramErr) : (applyUpd (.errRing v) s).jobFaults = s.jobFaults := rfl
@[simp] theorem errRing_upd_unitLast (s : State) (v : List DramErr) : (applyUpd (.errRing v) s).unitLast = s.unitLast := rfl
@[simp] theorem errRing_upd_unitRst (s : State) (v : List DramErr) : (applyUpd (.errRing v) s).unitRst = s.unitRst := rfl
@[simp] theorem errRing_upd_xlink (s : State) (v : List DramErr) : (applyUpd (.errRing v) s).xlink = s.xlink := rfl
@[simp] theorem errRing_upd_trace (s : State) (v : List DramErr) : (applyUpd (.errRing v) s).trace = s.trace := rfl
@[simp] theorem errRing_upd_progs (s : State) (v : List DramErr) : (applyUpd (.errRing v) s).progs = s.progs := rfl
@[simp] theorem errRing_upd_rails (s : State) (v : List DramErr) : (applyUpd (.errRing v) s).rails = s.rails := rfl
@[simp] theorem errRing_upd_thm (s : State) (v : List DramErr) : (applyUpd (.errRing v) s).thm = s.thm := rfl
@[simp] theorem errRing_upd_bnd (s : State) (v : List DramErr) : (applyUpd (.errRing v) s).bnd = s.bnd := rfl
@[simp] theorem errRing_upd_thmTrip (s : State) (v : List DramErr) : (applyUpd (.errRing v) s).thmTrip = s.thmTrip := rfl
@[simp] theorem errRing_upd_flash (s : State) (v : List DramErr) : (applyUpd (.errRing v) s).flash = s.flash := rfl
@[simp] theorem errRing_upd_slots (s : State) (v : List DramErr) : (applyUpd (.errRing v) s).slots = s.slots := rfl
@[simp] theorem errRing_upd_stores (s : State) (v : List DramErr) : (applyUpd (.errRing v) s).stores = s.stores := rfl
@[simp] theorem errRing_upd_ids (s : State) (v : List DramErr) : (applyUpd (.errRing v) s).ids = s.ids := rfl
@[simp] theorem errRing_upd_boot (s : State) (v : List DramErr) : (applyUpd (.errRing v) s).boot = s.boot := rfl
@[simp] theorem errRing_upd_load (s : State) (v : List DramErr) : (applyUpd (.errRing v) s).load = s.load := rfl
@[simp] theorem errRing_upd_flt (s : State) (v : List DramErr) : (applyUpd (.errRing v) s).flt = s.flt := rfl
@[simp] theorem errRing_upd_mon (s : State) (v : List DramErr) : (applyUpd (.errRing v) s).mon = s.mon := rfl
@[simp] theorem errRingOvf_upd_pending (s : State) (v : Nat) : (applyUpd (.errRingOvf v) s).pending = s.pending := rfl
@[simp] theorem errRingOvf_upd_regs (s : State) (v : Nat) : (applyUpd (.errRingOvf v) s).regs = s.regs := rfl
@[simp] theorem errRingOvf_upd_mem (s : State) (v : Nat) : (applyUpd (.errRingOvf v) s).mem = s.mem := rfl
@[simp] theorem errRingOvf_upd_sram (s : State) (v : Nat) : (applyUpd (.errRingOvf v) s).sram = s.sram := rfl
@[simp] theorem errRingOvf_upd_time (s : State) (v : Nat) : (applyUpd (.errRingOvf v) s).time = s.time := rfl
@[simp] theorem errRingOvf_upd_timeFrac (s : State) (v : Nat) : (applyUpd (.errRingOvf v) s).timeFrac = s.timeFrac := rfl
@[simp] theorem errRingOvf_upd_freeCtr (s : State) (v : Nat) : (applyUpd (.errRingOvf v) s).freeCtr = s.freeCtr := rfl
@[simp] theorem errRingOvf_upd_hiLatch (s : State) (v : Nat) : (applyUpd (.errRingOvf v) s).hiLatch = s.hiLatch := rfl
@[simp] theorem errRingOvf_upd_timeSet (s : State) (v : Nat) : (applyUpd (.errRingOvf v) s).timeSet = s.timeSet := rfl
@[simp] theorem errRingOvf_upd_n0 (s : State) (v : Nat) : (applyUpd (.errRingOvf v) s).n0 = s.n0 := rfl
@[simp] theorem errRingOvf_upd_ticked (s : State) (v : Nat) : (applyUpd (.errRingOvf v) s).ticked = s.ticked := rfl
@[simp] theorem errRingOvf_upd_peerTickAt (s : State) (v : Nat) : (applyUpd (.errRingOvf v) s).peerTickAt = s.peerTickAt := rfl
@[simp] theorem errRingOvf_upd_guardPitch (s : State) (v : Nat) : (applyUpd (.errRingOvf v) s).guardPitch = s.guardPitch := rfl
@[simp] theorem errRingOvf_upd_diePitch (s : State) (v : Nat) : (applyUpd (.errRingOvf v) s).diePitch = s.diePitch := rfl
@[simp] theorem errRingOvf_upd_resps (s : State) (v : Nat) : (applyUpd (.errRingOvf v) s).resps = s.resps := rfl
@[simp] theorem errRingOvf_upd_txns (s : State) (v : Nat) : (applyUpd (.errRingOvf v) s).txns = s.txns := rfl
@[simp] theorem errRingOvf_upd_nextTag (s : State) (v : Nat) : (applyUpd (.errRingOvf v) s).nextTag = s.nextTag := rfl
@[simp] theorem errRingOvf_upd_lateTags (s : State) (v : Nat) : (applyUpd (.errRingOvf v) s).lateTags = s.lateTags := rfl
@[simp] theorem errRingOvf_upd_ports (s : State) (v : Nat) : (applyUpd (.errRingOvf v) s).ports = s.ports := rfl
@[simp] theorem errRingOvf_upd_threads (s : State) (v : Nat) : (applyUpd (.errRingOvf v) s).threads = s.threads := rfl
@[simp] theorem errRingOvf_upd_cores (s : State) (v : Nat) : (applyUpd (.errRingOvf v) s).cores = s.cores := rfl
@[simp] theorem errRingOvf_upd_engines (s : State) (v : Nat) : (applyUpd (.errRingOvf v) s).engines = s.engines := rfl
@[simp] theorem errRingOvf_upd_held (s : State) (v : Nat) : (applyUpd (.errRingOvf v) s).held = s.held := rfl
@[simp] theorem errRingOvf_upd_watches (s : State) (v : Nat) : (applyUpd (.errRingOvf v) s).watches = s.watches := rfl
@[simp] theorem errRingOvf_upd_watchMsgs (s : State) (v : Nat) : (applyUpd (.errRingOvf v) s).watchMsgs = s.watchMsgs := rfl
@[simp] theorem errRingOvf_upd_bankHeld (s : State) (v : Nat) : (applyUpd (.errRingOvf v) s).bankHeld = s.bankHeld := rfl
@[simp] theorem errRingOvf_upd_bankTarget (s : State) (v : Nat) : (applyUpd (.errRingOvf v) s).bankTarget = s.bankTarget := rfl
@[simp] theorem errRingOvf_upd_ecc (s : State) (v : Nat) : (applyUpd (.errRingOvf v) s).ecc = s.ecc := rfl
@[simp] theorem errRingOvf_upd_lineEcc (s : State) (v : Nat) : (applyUpd (.errRingOvf v) s).lineEcc = s.lineEcc := rfl
@[simp] theorem errRingOvf_upd_wbPending (s : State) (v : Nat) : (applyUpd (.errRingOvf v) s).wbPending = s.wbPending := rfl
@[simp] theorem errRingOvf_upd_scrubPos (s : State) (v : Nat) : (applyUpd (.errRingOvf v) s).scrubPos = s.scrubPos := rfl
@[simp] theorem errRingOvf_upd_refusals (s : State) (v : Nat) : (applyUpd (.errRingOvf v) s).refusals = s.refusals := rfl
@[simp] theorem errRingOvf_upd_firstRefusal (s : State) (v : Nat) : (applyUpd (.errRingOvf v) s).firstRefusal = s.firstRefusal := rfl
@[simp] theorem errRingOvf_upd_boxQueue (s : State) (v : Nat) : (applyUpd (.errRingOvf v) s).boxQueue = s.boxQueue := rfl
@[simp] theorem errRingOvf_upd_boxRun (s : State) (v : Nat) : (applyUpd (.errRingOvf v) s).boxRun = s.boxRun := rfl
@[simp] theorem errRingOvf_upd_kvs (s : State) (v : Nat) : (applyUpd (.errRingOvf v) s).kvs = s.kvs := rfl
@[simp] theorem errRingOvf_upd_parts (s : State) (v : Nat) : (applyUpd (.errRingOvf v) s).parts = s.parts := rfl
@[simp] theorem errRingOvf_upd_dmas (s : State) (v : Nat) : (applyUpd (.errRingOvf v) s).dmas = s.dmas := rfl
@[simp] theorem errRingOvf_upd_regReqs (s : State) (v : Nat) : (applyUpd (.errRingOvf v) s).regReqs = s.regReqs := rfl
@[simp] theorem errRingOvf_upd_regPorts (s : State) (v : Nat) : (applyUpd (.errRingOvf v) s).regPorts = s.regPorts := rfl
@[simp] theorem errRingOvf_upd_subchs (s : State) (v : Nat) : (applyUpd (.errRingOvf v) s).subchs = s.subchs := rfl
@[simp] theorem errRingOvf_upd_trackers (s : State) (v : Nat) : (applyUpd (.errRingOvf v) s).trackers = s.trackers := rfl
@[simp] theorem errRingOvf_upd_throttles (s : State) (v : Nat) : (applyUpd (.errRingOvf v) s).throttles = s.throttles := rfl
@[simp] theorem errRingOvf_upd_errRing (s : State) (v : Nat) : (applyUpd (.errRingOvf v) s).errRing = s.errRing := rfl
@[simp] theorem errRingOvf_upd_errRingOvf (s : State) (v : Nat) : (applyUpd (.errRingOvf v) s).errRingOvf = v := rfl
@[simp] theorem errRingOvf_upd_patrolLine (s : State) (v : Nat) : (applyUpd (.errRingOvf v) s).patrolLine = s.patrolLine := rfl
@[simp] theorem errRingOvf_upd_retTimes (s : State) (v : Nat) : (applyUpd (.errRingOvf v) s).retTimes = s.retTimes := rfl
@[simp] theorem errRingOvf_upd_retired (s : State) (v : Nat) : (applyUpd (.errRingOvf v) s).retired = s.retired := rfl
@[simp] theorem errRingOvf_upd_dramSeq (s : State) (v : Nat) : (applyUpd (.errRingOvf v) s).dramSeq = s.dramSeq := rfl
@[simp] theorem errRingOvf_upd_trn (s : State) (v : Nat) : (applyUpd (.errRingOvf v) s).trn = s.trn := rfl
@[simp] theorem errRingOvf_upd_dqsAdj (s : State) (v : Nat) : (applyUpd (.errRingOvf v) s).dqsAdj = s.dqsAdj := rfl
@[simp] theorem errRingOvf_upd_dpol (s : State) (v : Nat) : (applyUpd (.errRingOvf v) s).dpol = s.dpol := rfl
@[simp] theorem errRingOvf_upd_idleAt (s : State) (v : Nat) : (applyUpd (.errRingOvf v) s).idleAt = s.idleAt := rfl
@[simp] theorem errRingOvf_upd_fitted (s : State) (v : Nat) : (applyUpd (.errRingOvf v) s).fitted = s.fitted := rfl
@[simp] theorem errRingOvf_upd_faultMsgs (s : State) (v : Nat) : (applyUpd (.errRingOvf v) s).faultMsgs = s.faultMsgs := rfl
@[simp] theorem errRingOvf_upd_out (s : State) (v : Nat) : (applyUpd (.errRingOvf v) s).out = s.out := rfl
@[simp] theorem errRingOvf_upd_lastRead (s : State) (v : Nat) : (applyUpd (.errRingOvf v) s).lastRead = s.lastRead := rfl
@[simp] theorem errRingOvf_upd_fwd (s : State) (v : Nat) : (applyUpd (.errRingOvf v) s).fwd = s.fwd := rfl
@[simp] theorem errRingOvf_upd_ethTx (s : State) (v : Nat) : (applyUpd (.errRingOvf v) s).ethTx = s.ethTx := rfl
@[simp] theorem errRingOvf_upd_ethHeadAt (s : State) (v : Nat) : (applyUpd (.errRingOvf v) s).ethHeadAt = s.ethHeadAt := rfl
@[simp] theorem errRingOvf_upd_canTx (s : State) (v : Nat) : (applyUpd (.errRingOvf v) s).canTx = s.canTx := rfl
@[simp] theorem errRingOvf_upd_pcieOut (s : State) (v : Nat) : (applyUpd (.errRingOvf v) s).pcieOut = s.pcieOut := rfl
@[simp] theorem errRingOvf_upd_pcieCfgRd (s : State) (v : Nat) : (applyUpd (.errRingOvf v) s).pcieCfgRd = s.pcieCfgRd := rfl
@[simp] theorem errRingOvf_upd_msix (s : State) (v : Nat) : (applyUpd (.errRingOvf v) s).msix = s.msix := rfl
@[simp] theorem errRingOvf_upd_ancs (s : State) (v : Nat) : (applyUpd (.errRingOvf v) s).ancs = s.ancs := rfl
@[simp] theorem errRingOvf_upd_trajArea (s : State) (v : Nat) : (applyUpd (.errRingOvf v) s).trajArea = s.trajArea := rfl
@[simp] theorem errRingOvf_upd_lidarIn (s : State) (v : Nat) : (applyUpd (.errRingOvf v) s).lidarIn = s.lidarIn := rfl
@[simp] theorem errRingOvf_upd_wheelIn (s : State) (v : Nat) : (applyUpd (.errRingOvf v) s).wheelIn = s.wheelIn := rfl
@[simp] theorem errRingOvf_upd_spiStepBusy (s : State) (v : Nat) : (applyUpd (.errRingOvf v) s).spiStepBusy = s.spiStepBusy := rfl
@[simp] theorem errRingOvf_upd_spiRec (s : State) (v : Nat) : (applyUpd (.errRingOvf v) s).spiRec = s.spiRec := rfl
@[simp] theorem errRingOvf_upd_spiStepCfg (s : State) (v : Nat) : (applyUpd (.errRingOvf v) s).spiStepCfg = s.spiStepCfg := rfl
@[simp] theorem errRingOvf_upd_ctxs (s : State) (v : Nat) : (applyUpd (.errRingOvf v) s).ctxs = s.ctxs := rfl
@[simp] theorem errRingOvf_upd_fsyOmit (s : State) (v : Nat) : (applyUpd (.errRingOvf v) s).fsyOmit = s.fsyOmit := rfl
@[simp] theorem errRingOvf_upd_fsyPulsed (s : State) (v : Nat) : (applyUpd (.errRingOvf v) s).fsyPulsed = s.fsyPulsed := rfl
@[simp] theorem errRingOvf_upd_supTasks (s : State) (v : Nat) : (applyUpd (.errRingOvf v) s).supTasks = s.supTasks := rfl
@[simp] theorem errRingOvf_upd_fus (s : State) (v : Nat) : (applyUpd (.errRingOvf v) s).fus = s.fus := rfl
@[simp] theorem errRingOvf_upd_fcons (s : State) (v : Nat) : (applyUpd (.errRingOvf v) s).fcons = s.fcons := rfl
@[simp] theorem errRingOvf_upd_shadow (s : State) (v : Nat) : (applyUpd (.errRingOvf v) s).shadow = s.shadow := rfl
@[simp] theorem errRingOvf_upd_trv (s : State) (v : Nat) : (applyUpd (.errRingOvf v) s).trv = s.trv := rfl
@[simp] theorem errRingOvf_upd_tlayers (s : State) (v : Nat) : (applyUpd (.errRingOvf v) s).tlayers = s.tlayers := rfl
@[simp] theorem errRingOvf_upd_jobFaults (s : State) (v : Nat) : (applyUpd (.errRingOvf v) s).jobFaults = s.jobFaults := rfl
@[simp] theorem errRingOvf_upd_unitLast (s : State) (v : Nat) : (applyUpd (.errRingOvf v) s).unitLast = s.unitLast := rfl
@[simp] theorem errRingOvf_upd_unitRst (s : State) (v : Nat) : (applyUpd (.errRingOvf v) s).unitRst = s.unitRst := rfl
@[simp] theorem errRingOvf_upd_xlink (s : State) (v : Nat) : (applyUpd (.errRingOvf v) s).xlink = s.xlink := rfl
@[simp] theorem errRingOvf_upd_trace (s : State) (v : Nat) : (applyUpd (.errRingOvf v) s).trace = s.trace := rfl
@[simp] theorem errRingOvf_upd_progs (s : State) (v : Nat) : (applyUpd (.errRingOvf v) s).progs = s.progs := rfl
@[simp] theorem errRingOvf_upd_rails (s : State) (v : Nat) : (applyUpd (.errRingOvf v) s).rails = s.rails := rfl
@[simp] theorem errRingOvf_upd_thm (s : State) (v : Nat) : (applyUpd (.errRingOvf v) s).thm = s.thm := rfl
@[simp] theorem errRingOvf_upd_bnd (s : State) (v : Nat) : (applyUpd (.errRingOvf v) s).bnd = s.bnd := rfl
@[simp] theorem errRingOvf_upd_thmTrip (s : State) (v : Nat) : (applyUpd (.errRingOvf v) s).thmTrip = s.thmTrip := rfl
@[simp] theorem errRingOvf_upd_flash (s : State) (v : Nat) : (applyUpd (.errRingOvf v) s).flash = s.flash := rfl
@[simp] theorem errRingOvf_upd_slots (s : State) (v : Nat) : (applyUpd (.errRingOvf v) s).slots = s.slots := rfl
@[simp] theorem errRingOvf_upd_stores (s : State) (v : Nat) : (applyUpd (.errRingOvf v) s).stores = s.stores := rfl
@[simp] theorem errRingOvf_upd_ids (s : State) (v : Nat) : (applyUpd (.errRingOvf v) s).ids = s.ids := rfl
@[simp] theorem errRingOvf_upd_boot (s : State) (v : Nat) : (applyUpd (.errRingOvf v) s).boot = s.boot := rfl
@[simp] theorem errRingOvf_upd_load (s : State) (v : Nat) : (applyUpd (.errRingOvf v) s).load = s.load := rfl
@[simp] theorem errRingOvf_upd_flt (s : State) (v : Nat) : (applyUpd (.errRingOvf v) s).flt = s.flt := rfl
@[simp] theorem errRingOvf_upd_mon (s : State) (v : Nat) : (applyUpd (.errRingOvf v) s).mon = s.mon := rfl
@[simp] theorem patrolLine_upd_pending (s : State) (k : Nat) (v : Nat) : (applyUpd (.patrolLine k v) s).pending = s.pending := rfl
@[simp] theorem patrolLine_upd_regs (s : State) (k : Nat) (v : Nat) : (applyUpd (.patrolLine k v) s).regs = s.regs := rfl
@[simp] theorem patrolLine_upd_mem (s : State) (k : Nat) (v : Nat) : (applyUpd (.patrolLine k v) s).mem = s.mem := rfl
@[simp] theorem patrolLine_upd_sram (s : State) (k : Nat) (v : Nat) : (applyUpd (.patrolLine k v) s).sram = s.sram := rfl
@[simp] theorem patrolLine_upd_time (s : State) (k : Nat) (v : Nat) : (applyUpd (.patrolLine k v) s).time = s.time := rfl
@[simp] theorem patrolLine_upd_timeFrac (s : State) (k : Nat) (v : Nat) : (applyUpd (.patrolLine k v) s).timeFrac = s.timeFrac := rfl
@[simp] theorem patrolLine_upd_freeCtr (s : State) (k : Nat) (v : Nat) : (applyUpd (.patrolLine k v) s).freeCtr = s.freeCtr := rfl
@[simp] theorem patrolLine_upd_hiLatch (s : State) (k : Nat) (v : Nat) : (applyUpd (.patrolLine k v) s).hiLatch = s.hiLatch := rfl
@[simp] theorem patrolLine_upd_timeSet (s : State) (k : Nat) (v : Nat) : (applyUpd (.patrolLine k v) s).timeSet = s.timeSet := rfl
@[simp] theorem patrolLine_upd_n0 (s : State) (k : Nat) (v : Nat) : (applyUpd (.patrolLine k v) s).n0 = s.n0 := rfl
@[simp] theorem patrolLine_upd_ticked (s : State) (k : Nat) (v : Nat) : (applyUpd (.patrolLine k v) s).ticked = s.ticked := rfl
@[simp] theorem patrolLine_upd_peerTickAt (s : State) (k : Nat) (v : Nat) : (applyUpd (.patrolLine k v) s).peerTickAt = s.peerTickAt := rfl
@[simp] theorem patrolLine_upd_guardPitch (s : State) (k : Nat) (v : Nat) : (applyUpd (.patrolLine k v) s).guardPitch = s.guardPitch := rfl
@[simp] theorem patrolLine_upd_diePitch (s : State) (k : Nat) (v : Nat) : (applyUpd (.patrolLine k v) s).diePitch = s.diePitch := rfl
@[simp] theorem patrolLine_upd_resps (s : State) (k : Nat) (v : Nat) : (applyUpd (.patrolLine k v) s).resps = s.resps := rfl
@[simp] theorem patrolLine_upd_txns (s : State) (k : Nat) (v : Nat) : (applyUpd (.patrolLine k v) s).txns = s.txns := rfl
@[simp] theorem patrolLine_upd_nextTag (s : State) (k : Nat) (v : Nat) : (applyUpd (.patrolLine k v) s).nextTag = s.nextTag := rfl
@[simp] theorem patrolLine_upd_lateTags (s : State) (k : Nat) (v : Nat) : (applyUpd (.patrolLine k v) s).lateTags = s.lateTags := rfl
@[simp] theorem patrolLine_upd_ports (s : State) (k : Nat) (v : Nat) : (applyUpd (.patrolLine k v) s).ports = s.ports := rfl
@[simp] theorem patrolLine_upd_threads (s : State) (k : Nat) (v : Nat) : (applyUpd (.patrolLine k v) s).threads = s.threads := rfl
@[simp] theorem patrolLine_upd_cores (s : State) (k : Nat) (v : Nat) : (applyUpd (.patrolLine k v) s).cores = s.cores := rfl
@[simp] theorem patrolLine_upd_engines (s : State) (k : Nat) (v : Nat) : (applyUpd (.patrolLine k v) s).engines = s.engines := rfl
@[simp] theorem patrolLine_upd_held (s : State) (k : Nat) (v : Nat) : (applyUpd (.patrolLine k v) s).held = s.held := rfl
@[simp] theorem patrolLine_upd_watches (s : State) (k : Nat) (v : Nat) : (applyUpd (.patrolLine k v) s).watches = s.watches := rfl
@[simp] theorem patrolLine_upd_watchMsgs (s : State) (k : Nat) (v : Nat) : (applyUpd (.patrolLine k v) s).watchMsgs = s.watchMsgs := rfl
@[simp] theorem patrolLine_upd_bankHeld (s : State) (k : Nat) (v : Nat) : (applyUpd (.patrolLine k v) s).bankHeld = s.bankHeld := rfl
@[simp] theorem patrolLine_upd_bankTarget (s : State) (k : Nat) (v : Nat) : (applyUpd (.patrolLine k v) s).bankTarget = s.bankTarget := rfl
@[simp] theorem patrolLine_upd_ecc (s : State) (k : Nat) (v : Nat) : (applyUpd (.patrolLine k v) s).ecc = s.ecc := rfl
@[simp] theorem patrolLine_upd_lineEcc (s : State) (k : Nat) (v : Nat) : (applyUpd (.patrolLine k v) s).lineEcc = s.lineEcc := rfl
@[simp] theorem patrolLine_upd_wbPending (s : State) (k : Nat) (v : Nat) : (applyUpd (.patrolLine k v) s).wbPending = s.wbPending := rfl
@[simp] theorem patrolLine_upd_scrubPos (s : State) (k : Nat) (v : Nat) : (applyUpd (.patrolLine k v) s).scrubPos = s.scrubPos := rfl
@[simp] theorem patrolLine_upd_refusals (s : State) (k : Nat) (v : Nat) : (applyUpd (.patrolLine k v) s).refusals = s.refusals := rfl
@[simp] theorem patrolLine_upd_firstRefusal (s : State) (k : Nat) (v : Nat) : (applyUpd (.patrolLine k v) s).firstRefusal = s.firstRefusal := rfl
@[simp] theorem patrolLine_upd_boxQueue (s : State) (k : Nat) (v : Nat) : (applyUpd (.patrolLine k v) s).boxQueue = s.boxQueue := rfl
@[simp] theorem patrolLine_upd_boxRun (s : State) (k : Nat) (v : Nat) : (applyUpd (.patrolLine k v) s).boxRun = s.boxRun := rfl
@[simp] theorem patrolLine_upd_kvs (s : State) (k : Nat) (v : Nat) : (applyUpd (.patrolLine k v) s).kvs = s.kvs := rfl
@[simp] theorem patrolLine_upd_parts (s : State) (k : Nat) (v : Nat) : (applyUpd (.patrolLine k v) s).parts = s.parts := rfl
@[simp] theorem patrolLine_upd_dmas (s : State) (k : Nat) (v : Nat) : (applyUpd (.patrolLine k v) s).dmas = s.dmas := rfl
@[simp] theorem patrolLine_upd_regReqs (s : State) (k : Nat) (v : Nat) : (applyUpd (.patrolLine k v) s).regReqs = s.regReqs := rfl
@[simp] theorem patrolLine_upd_regPorts (s : State) (k : Nat) (v : Nat) : (applyUpd (.patrolLine k v) s).regPorts = s.regPorts := rfl
@[simp] theorem patrolLine_upd_subchs (s : State) (k : Nat) (v : Nat) : (applyUpd (.patrolLine k v) s).subchs = s.subchs := rfl
@[simp] theorem patrolLine_upd_trackers (s : State) (k : Nat) (v : Nat) : (applyUpd (.patrolLine k v) s).trackers = s.trackers := rfl
@[simp] theorem patrolLine_upd_throttles (s : State) (k : Nat) (v : Nat) : (applyUpd (.patrolLine k v) s).throttles = s.throttles := rfl
@[simp] theorem patrolLine_upd_errRing (s : State) (k : Nat) (v : Nat) : (applyUpd (.patrolLine k v) s).errRing = s.errRing := rfl
@[simp] theorem patrolLine_upd_errRingOvf (s : State) (k : Nat) (v : Nat) : (applyUpd (.patrolLine k v) s).errRingOvf = s.errRingOvf := rfl
@[simp] theorem patrolLine_upd_patrolLine (s : State) (k : Nat) (v : Nat) : (applyUpd (.patrolLine k v) s).patrolLine = tabSet zeroNat s.patrolLine k v := rfl
@[simp] theorem patrolLine_upd_retTimes (s : State) (k : Nat) (v : Nat) : (applyUpd (.patrolLine k v) s).retTimes = s.retTimes := rfl
@[simp] theorem patrolLine_upd_retired (s : State) (k : Nat) (v : Nat) : (applyUpd (.patrolLine k v) s).retired = s.retired := rfl
@[simp] theorem patrolLine_upd_dramSeq (s : State) (k : Nat) (v : Nat) : (applyUpd (.patrolLine k v) s).dramSeq = s.dramSeq := rfl
@[simp] theorem patrolLine_upd_trn (s : State) (k : Nat) (v : Nat) : (applyUpd (.patrolLine k v) s).trn = s.trn := rfl
@[simp] theorem patrolLine_upd_dqsAdj (s : State) (k : Nat) (v : Nat) : (applyUpd (.patrolLine k v) s).dqsAdj = s.dqsAdj := rfl
@[simp] theorem patrolLine_upd_dpol (s : State) (k : Nat) (v : Nat) : (applyUpd (.patrolLine k v) s).dpol = s.dpol := rfl
@[simp] theorem patrolLine_upd_idleAt (s : State) (k : Nat) (v : Nat) : (applyUpd (.patrolLine k v) s).idleAt = s.idleAt := rfl
@[simp] theorem patrolLine_upd_fitted (s : State) (k : Nat) (v : Nat) : (applyUpd (.patrolLine k v) s).fitted = s.fitted := rfl
@[simp] theorem patrolLine_upd_faultMsgs (s : State) (k : Nat) (v : Nat) : (applyUpd (.patrolLine k v) s).faultMsgs = s.faultMsgs := rfl
@[simp] theorem patrolLine_upd_out (s : State) (k : Nat) (v : Nat) : (applyUpd (.patrolLine k v) s).out = s.out := rfl
@[simp] theorem patrolLine_upd_lastRead (s : State) (k : Nat) (v : Nat) : (applyUpd (.patrolLine k v) s).lastRead = s.lastRead := rfl
@[simp] theorem patrolLine_upd_fwd (s : State) (k : Nat) (v : Nat) : (applyUpd (.patrolLine k v) s).fwd = s.fwd := rfl
@[simp] theorem patrolLine_upd_ethTx (s : State) (k : Nat) (v : Nat) : (applyUpd (.patrolLine k v) s).ethTx = s.ethTx := rfl
@[simp] theorem patrolLine_upd_ethHeadAt (s : State) (k : Nat) (v : Nat) : (applyUpd (.patrolLine k v) s).ethHeadAt = s.ethHeadAt := rfl
@[simp] theorem patrolLine_upd_canTx (s : State) (k : Nat) (v : Nat) : (applyUpd (.patrolLine k v) s).canTx = s.canTx := rfl
@[simp] theorem patrolLine_upd_pcieOut (s : State) (k : Nat) (v : Nat) : (applyUpd (.patrolLine k v) s).pcieOut = s.pcieOut := rfl
@[simp] theorem patrolLine_upd_pcieCfgRd (s : State) (k : Nat) (v : Nat) : (applyUpd (.patrolLine k v) s).pcieCfgRd = s.pcieCfgRd := rfl
@[simp] theorem patrolLine_upd_msix (s : State) (k : Nat) (v : Nat) : (applyUpd (.patrolLine k v) s).msix = s.msix := rfl
@[simp] theorem patrolLine_upd_ancs (s : State) (k : Nat) (v : Nat) : (applyUpd (.patrolLine k v) s).ancs = s.ancs := rfl
@[simp] theorem patrolLine_upd_trajArea (s : State) (k : Nat) (v : Nat) : (applyUpd (.patrolLine k v) s).trajArea = s.trajArea := rfl
@[simp] theorem patrolLine_upd_lidarIn (s : State) (k : Nat) (v : Nat) : (applyUpd (.patrolLine k v) s).lidarIn = s.lidarIn := rfl
@[simp] theorem patrolLine_upd_wheelIn (s : State) (k : Nat) (v : Nat) : (applyUpd (.patrolLine k v) s).wheelIn = s.wheelIn := rfl
@[simp] theorem patrolLine_upd_spiStepBusy (s : State) (k : Nat) (v : Nat) : (applyUpd (.patrolLine k v) s).spiStepBusy = s.spiStepBusy := rfl
@[simp] theorem patrolLine_upd_spiRec (s : State) (k : Nat) (v : Nat) : (applyUpd (.patrolLine k v) s).spiRec = s.spiRec := rfl
@[simp] theorem patrolLine_upd_spiStepCfg (s : State) (k : Nat) (v : Nat) : (applyUpd (.patrolLine k v) s).spiStepCfg = s.spiStepCfg := rfl
@[simp] theorem patrolLine_upd_ctxs (s : State) (k : Nat) (v : Nat) : (applyUpd (.patrolLine k v) s).ctxs = s.ctxs := rfl
@[simp] theorem patrolLine_upd_fsyOmit (s : State) (k : Nat) (v : Nat) : (applyUpd (.patrolLine k v) s).fsyOmit = s.fsyOmit := rfl
@[simp] theorem patrolLine_upd_fsyPulsed (s : State) (k : Nat) (v : Nat) : (applyUpd (.patrolLine k v) s).fsyPulsed = s.fsyPulsed := rfl
@[simp] theorem patrolLine_upd_supTasks (s : State) (k : Nat) (v : Nat) : (applyUpd (.patrolLine k v) s).supTasks = s.supTasks := rfl
@[simp] theorem patrolLine_upd_fus (s : State) (k : Nat) (v : Nat) : (applyUpd (.patrolLine k v) s).fus = s.fus := rfl
@[simp] theorem patrolLine_upd_fcons (s : State) (k : Nat) (v : Nat) : (applyUpd (.patrolLine k v) s).fcons = s.fcons := rfl
@[simp] theorem patrolLine_upd_shadow (s : State) (k : Nat) (v : Nat) : (applyUpd (.patrolLine k v) s).shadow = s.shadow := rfl
@[simp] theorem patrolLine_upd_trv (s : State) (k : Nat) (v : Nat) : (applyUpd (.patrolLine k v) s).trv = s.trv := rfl
@[simp] theorem patrolLine_upd_tlayers (s : State) (k : Nat) (v : Nat) : (applyUpd (.patrolLine k v) s).tlayers = s.tlayers := rfl
@[simp] theorem patrolLine_upd_jobFaults (s : State) (k : Nat) (v : Nat) : (applyUpd (.patrolLine k v) s).jobFaults = s.jobFaults := rfl
@[simp] theorem patrolLine_upd_unitLast (s : State) (k : Nat) (v : Nat) : (applyUpd (.patrolLine k v) s).unitLast = s.unitLast := rfl
@[simp] theorem patrolLine_upd_unitRst (s : State) (k : Nat) (v : Nat) : (applyUpd (.patrolLine k v) s).unitRst = s.unitRst := rfl
@[simp] theorem patrolLine_upd_xlink (s : State) (k : Nat) (v : Nat) : (applyUpd (.patrolLine k v) s).xlink = s.xlink := rfl
@[simp] theorem patrolLine_upd_trace (s : State) (k : Nat) (v : Nat) : (applyUpd (.patrolLine k v) s).trace = s.trace := rfl
@[simp] theorem patrolLine_upd_progs (s : State) (k : Nat) (v : Nat) : (applyUpd (.patrolLine k v) s).progs = s.progs := rfl
@[simp] theorem patrolLine_upd_rails (s : State) (k : Nat) (v : Nat) : (applyUpd (.patrolLine k v) s).rails = s.rails := rfl
@[simp] theorem patrolLine_upd_thm (s : State) (k : Nat) (v : Nat) : (applyUpd (.patrolLine k v) s).thm = s.thm := rfl
@[simp] theorem patrolLine_upd_bnd (s : State) (k : Nat) (v : Nat) : (applyUpd (.patrolLine k v) s).bnd = s.bnd := rfl
@[simp] theorem patrolLine_upd_thmTrip (s : State) (k : Nat) (v : Nat) : (applyUpd (.patrolLine k v) s).thmTrip = s.thmTrip := rfl
@[simp] theorem patrolLine_upd_flash (s : State) (k : Nat) (v : Nat) : (applyUpd (.patrolLine k v) s).flash = s.flash := rfl
@[simp] theorem patrolLine_upd_slots (s : State) (k : Nat) (v : Nat) : (applyUpd (.patrolLine k v) s).slots = s.slots := rfl
@[simp] theorem patrolLine_upd_stores (s : State) (k : Nat) (v : Nat) : (applyUpd (.patrolLine k v) s).stores = s.stores := rfl
@[simp] theorem patrolLine_upd_ids (s : State) (k : Nat) (v : Nat) : (applyUpd (.patrolLine k v) s).ids = s.ids := rfl
@[simp] theorem patrolLine_upd_boot (s : State) (k : Nat) (v : Nat) : (applyUpd (.patrolLine k v) s).boot = s.boot := rfl
@[simp] theorem patrolLine_upd_load (s : State) (k : Nat) (v : Nat) : (applyUpd (.patrolLine k v) s).load = s.load := rfl
@[simp] theorem patrolLine_upd_flt (s : State) (k : Nat) (v : Nat) : (applyUpd (.patrolLine k v) s).flt = s.flt := rfl
@[simp] theorem patrolLine_upd_mon (s : State) (k : Nat) (v : Nat) : (applyUpd (.patrolLine k v) s).mon = s.mon := rfl
@[simp] theorem retTimes_upd_pending (s : State) (v : List (Nat × Nat)) : (applyUpd (.retTimes v) s).pending = s.pending := rfl
@[simp] theorem retTimes_upd_regs (s : State) (v : List (Nat × Nat)) : (applyUpd (.retTimes v) s).regs = s.regs := rfl
@[simp] theorem retTimes_upd_mem (s : State) (v : List (Nat × Nat)) : (applyUpd (.retTimes v) s).mem = s.mem := rfl
@[simp] theorem retTimes_upd_sram (s : State) (v : List (Nat × Nat)) : (applyUpd (.retTimes v) s).sram = s.sram := rfl
@[simp] theorem retTimes_upd_time (s : State) (v : List (Nat × Nat)) : (applyUpd (.retTimes v) s).time = s.time := rfl
@[simp] theorem retTimes_upd_timeFrac (s : State) (v : List (Nat × Nat)) : (applyUpd (.retTimes v) s).timeFrac = s.timeFrac := rfl
@[simp] theorem retTimes_upd_freeCtr (s : State) (v : List (Nat × Nat)) : (applyUpd (.retTimes v) s).freeCtr = s.freeCtr := rfl
@[simp] theorem retTimes_upd_hiLatch (s : State) (v : List (Nat × Nat)) : (applyUpd (.retTimes v) s).hiLatch = s.hiLatch := rfl
@[simp] theorem retTimes_upd_timeSet (s : State) (v : List (Nat × Nat)) : (applyUpd (.retTimes v) s).timeSet = s.timeSet := rfl
@[simp] theorem retTimes_upd_n0 (s : State) (v : List (Nat × Nat)) : (applyUpd (.retTimes v) s).n0 = s.n0 := rfl
@[simp] theorem retTimes_upd_ticked (s : State) (v : List (Nat × Nat)) : (applyUpd (.retTimes v) s).ticked = s.ticked := rfl
@[simp] theorem retTimes_upd_peerTickAt (s : State) (v : List (Nat × Nat)) : (applyUpd (.retTimes v) s).peerTickAt = s.peerTickAt := rfl
@[simp] theorem retTimes_upd_guardPitch (s : State) (v : List (Nat × Nat)) : (applyUpd (.retTimes v) s).guardPitch = s.guardPitch := rfl
@[simp] theorem retTimes_upd_diePitch (s : State) (v : List (Nat × Nat)) : (applyUpd (.retTimes v) s).diePitch = s.diePitch := rfl
@[simp] theorem retTimes_upd_resps (s : State) (v : List (Nat × Nat)) : (applyUpd (.retTimes v) s).resps = s.resps := rfl
@[simp] theorem retTimes_upd_txns (s : State) (v : List (Nat × Nat)) : (applyUpd (.retTimes v) s).txns = s.txns := rfl
@[simp] theorem retTimes_upd_nextTag (s : State) (v : List (Nat × Nat)) : (applyUpd (.retTimes v) s).nextTag = s.nextTag := rfl
@[simp] theorem retTimes_upd_lateTags (s : State) (v : List (Nat × Nat)) : (applyUpd (.retTimes v) s).lateTags = s.lateTags := rfl
@[simp] theorem retTimes_upd_ports (s : State) (v : List (Nat × Nat)) : (applyUpd (.retTimes v) s).ports = s.ports := rfl
@[simp] theorem retTimes_upd_threads (s : State) (v : List (Nat × Nat)) : (applyUpd (.retTimes v) s).threads = s.threads := rfl
@[simp] theorem retTimes_upd_cores (s : State) (v : List (Nat × Nat)) : (applyUpd (.retTimes v) s).cores = s.cores := rfl
@[simp] theorem retTimes_upd_engines (s : State) (v : List (Nat × Nat)) : (applyUpd (.retTimes v) s).engines = s.engines := rfl
@[simp] theorem retTimes_upd_held (s : State) (v : List (Nat × Nat)) : (applyUpd (.retTimes v) s).held = s.held := rfl
@[simp] theorem retTimes_upd_watches (s : State) (v : List (Nat × Nat)) : (applyUpd (.retTimes v) s).watches = s.watches := rfl
@[simp] theorem retTimes_upd_watchMsgs (s : State) (v : List (Nat × Nat)) : (applyUpd (.retTimes v) s).watchMsgs = s.watchMsgs := rfl
@[simp] theorem retTimes_upd_bankHeld (s : State) (v : List (Nat × Nat)) : (applyUpd (.retTimes v) s).bankHeld = s.bankHeld := rfl
@[simp] theorem retTimes_upd_bankTarget (s : State) (v : List (Nat × Nat)) : (applyUpd (.retTimes v) s).bankTarget = s.bankTarget := rfl
@[simp] theorem retTimes_upd_ecc (s : State) (v : List (Nat × Nat)) : (applyUpd (.retTimes v) s).ecc = s.ecc := rfl
@[simp] theorem retTimes_upd_lineEcc (s : State) (v : List (Nat × Nat)) : (applyUpd (.retTimes v) s).lineEcc = s.lineEcc := rfl
@[simp] theorem retTimes_upd_wbPending (s : State) (v : List (Nat × Nat)) : (applyUpd (.retTimes v) s).wbPending = s.wbPending := rfl
@[simp] theorem retTimes_upd_scrubPos (s : State) (v : List (Nat × Nat)) : (applyUpd (.retTimes v) s).scrubPos = s.scrubPos := rfl
@[simp] theorem retTimes_upd_refusals (s : State) (v : List (Nat × Nat)) : (applyUpd (.retTimes v) s).refusals = s.refusals := rfl
@[simp] theorem retTimes_upd_firstRefusal (s : State) (v : List (Nat × Nat)) : (applyUpd (.retTimes v) s).firstRefusal = s.firstRefusal := rfl
@[simp] theorem retTimes_upd_boxQueue (s : State) (v : List (Nat × Nat)) : (applyUpd (.retTimes v) s).boxQueue = s.boxQueue := rfl
@[simp] theorem retTimes_upd_boxRun (s : State) (v : List (Nat × Nat)) : (applyUpd (.retTimes v) s).boxRun = s.boxRun := rfl
@[simp] theorem retTimes_upd_kvs (s : State) (v : List (Nat × Nat)) : (applyUpd (.retTimes v) s).kvs = s.kvs := rfl
@[simp] theorem retTimes_upd_parts (s : State) (v : List (Nat × Nat)) : (applyUpd (.retTimes v) s).parts = s.parts := rfl
@[simp] theorem retTimes_upd_dmas (s : State) (v : List (Nat × Nat)) : (applyUpd (.retTimes v) s).dmas = s.dmas := rfl
@[simp] theorem retTimes_upd_regReqs (s : State) (v : List (Nat × Nat)) : (applyUpd (.retTimes v) s).regReqs = s.regReqs := rfl
@[simp] theorem retTimes_upd_regPorts (s : State) (v : List (Nat × Nat)) : (applyUpd (.retTimes v) s).regPorts = s.regPorts := rfl
@[simp] theorem retTimes_upd_subchs (s : State) (v : List (Nat × Nat)) : (applyUpd (.retTimes v) s).subchs = s.subchs := rfl
@[simp] theorem retTimes_upd_trackers (s : State) (v : List (Nat × Nat)) : (applyUpd (.retTimes v) s).trackers = s.trackers := rfl
@[simp] theorem retTimes_upd_throttles (s : State) (v : List (Nat × Nat)) : (applyUpd (.retTimes v) s).throttles = s.throttles := rfl
@[simp] theorem retTimes_upd_errRing (s : State) (v : List (Nat × Nat)) : (applyUpd (.retTimes v) s).errRing = s.errRing := rfl
@[simp] theorem retTimes_upd_errRingOvf (s : State) (v : List (Nat × Nat)) : (applyUpd (.retTimes v) s).errRingOvf = s.errRingOvf := rfl
@[simp] theorem retTimes_upd_patrolLine (s : State) (v : List (Nat × Nat)) : (applyUpd (.retTimes v) s).patrolLine = s.patrolLine := rfl
@[simp] theorem retTimes_upd_retTimes (s : State) (v : List (Nat × Nat)) : (applyUpd (.retTimes v) s).retTimes = v := rfl
@[simp] theorem retTimes_upd_retired (s : State) (v : List (Nat × Nat)) : (applyUpd (.retTimes v) s).retired = s.retired := rfl
@[simp] theorem retTimes_upd_dramSeq (s : State) (v : List (Nat × Nat)) : (applyUpd (.retTimes v) s).dramSeq = s.dramSeq := rfl
@[simp] theorem retTimes_upd_trn (s : State) (v : List (Nat × Nat)) : (applyUpd (.retTimes v) s).trn = s.trn := rfl
@[simp] theorem retTimes_upd_dqsAdj (s : State) (v : List (Nat × Nat)) : (applyUpd (.retTimes v) s).dqsAdj = s.dqsAdj := rfl
@[simp] theorem retTimes_upd_dpol (s : State) (v : List (Nat × Nat)) : (applyUpd (.retTimes v) s).dpol = s.dpol := rfl
@[simp] theorem retTimes_upd_idleAt (s : State) (v : List (Nat × Nat)) : (applyUpd (.retTimes v) s).idleAt = s.idleAt := rfl
@[simp] theorem retTimes_upd_fitted (s : State) (v : List (Nat × Nat)) : (applyUpd (.retTimes v) s).fitted = s.fitted := rfl
@[simp] theorem retTimes_upd_faultMsgs (s : State) (v : List (Nat × Nat)) : (applyUpd (.retTimes v) s).faultMsgs = s.faultMsgs := rfl
@[simp] theorem retTimes_upd_out (s : State) (v : List (Nat × Nat)) : (applyUpd (.retTimes v) s).out = s.out := rfl
@[simp] theorem retTimes_upd_lastRead (s : State) (v : List (Nat × Nat)) : (applyUpd (.retTimes v) s).lastRead = s.lastRead := rfl
@[simp] theorem retTimes_upd_fwd (s : State) (v : List (Nat × Nat)) : (applyUpd (.retTimes v) s).fwd = s.fwd := rfl
@[simp] theorem retTimes_upd_ethTx (s : State) (v : List (Nat × Nat)) : (applyUpd (.retTimes v) s).ethTx = s.ethTx := rfl
@[simp] theorem retTimes_upd_ethHeadAt (s : State) (v : List (Nat × Nat)) : (applyUpd (.retTimes v) s).ethHeadAt = s.ethHeadAt := rfl
@[simp] theorem retTimes_upd_canTx (s : State) (v : List (Nat × Nat)) : (applyUpd (.retTimes v) s).canTx = s.canTx := rfl
@[simp] theorem retTimes_upd_pcieOut (s : State) (v : List (Nat × Nat)) : (applyUpd (.retTimes v) s).pcieOut = s.pcieOut := rfl
@[simp] theorem retTimes_upd_pcieCfgRd (s : State) (v : List (Nat × Nat)) : (applyUpd (.retTimes v) s).pcieCfgRd = s.pcieCfgRd := rfl
@[simp] theorem retTimes_upd_msix (s : State) (v : List (Nat × Nat)) : (applyUpd (.retTimes v) s).msix = s.msix := rfl
@[simp] theorem retTimes_upd_ancs (s : State) (v : List (Nat × Nat)) : (applyUpd (.retTimes v) s).ancs = s.ancs := rfl
@[simp] theorem retTimes_upd_trajArea (s : State) (v : List (Nat × Nat)) : (applyUpd (.retTimes v) s).trajArea = s.trajArea := rfl
@[simp] theorem retTimes_upd_lidarIn (s : State) (v : List (Nat × Nat)) : (applyUpd (.retTimes v) s).lidarIn = s.lidarIn := rfl
@[simp] theorem retTimes_upd_wheelIn (s : State) (v : List (Nat × Nat)) : (applyUpd (.retTimes v) s).wheelIn = s.wheelIn := rfl
@[simp] theorem retTimes_upd_spiStepBusy (s : State) (v : List (Nat × Nat)) : (applyUpd (.retTimes v) s).spiStepBusy = s.spiStepBusy := rfl
@[simp] theorem retTimes_upd_spiRec (s : State) (v : List (Nat × Nat)) : (applyUpd (.retTimes v) s).spiRec = s.spiRec := rfl
@[simp] theorem retTimes_upd_spiStepCfg (s : State) (v : List (Nat × Nat)) : (applyUpd (.retTimes v) s).spiStepCfg = s.spiStepCfg := rfl
@[simp] theorem retTimes_upd_ctxs (s : State) (v : List (Nat × Nat)) : (applyUpd (.retTimes v) s).ctxs = s.ctxs := rfl
@[simp] theorem retTimes_upd_fsyOmit (s : State) (v : List (Nat × Nat)) : (applyUpd (.retTimes v) s).fsyOmit = s.fsyOmit := rfl
@[simp] theorem retTimes_upd_fsyPulsed (s : State) (v : List (Nat × Nat)) : (applyUpd (.retTimes v) s).fsyPulsed = s.fsyPulsed := rfl
@[simp] theorem retTimes_upd_supTasks (s : State) (v : List (Nat × Nat)) : (applyUpd (.retTimes v) s).supTasks = s.supTasks := rfl
@[simp] theorem retTimes_upd_fus (s : State) (v : List (Nat × Nat)) : (applyUpd (.retTimes v) s).fus = s.fus := rfl
@[simp] theorem retTimes_upd_fcons (s : State) (v : List (Nat × Nat)) : (applyUpd (.retTimes v) s).fcons = s.fcons := rfl
@[simp] theorem retTimes_upd_shadow (s : State) (v : List (Nat × Nat)) : (applyUpd (.retTimes v) s).shadow = s.shadow := rfl
@[simp] theorem retTimes_upd_trv (s : State) (v : List (Nat × Nat)) : (applyUpd (.retTimes v) s).trv = s.trv := rfl
@[simp] theorem retTimes_upd_tlayers (s : State) (v : List (Nat × Nat)) : (applyUpd (.retTimes v) s).tlayers = s.tlayers := rfl
@[simp] theorem retTimes_upd_jobFaults (s : State) (v : List (Nat × Nat)) : (applyUpd (.retTimes v) s).jobFaults = s.jobFaults := rfl
@[simp] theorem retTimes_upd_unitLast (s : State) (v : List (Nat × Nat)) : (applyUpd (.retTimes v) s).unitLast = s.unitLast := rfl
@[simp] theorem retTimes_upd_unitRst (s : State) (v : List (Nat × Nat)) : (applyUpd (.retTimes v) s).unitRst = s.unitRst := rfl
@[simp] theorem retTimes_upd_xlink (s : State) (v : List (Nat × Nat)) : (applyUpd (.retTimes v) s).xlink = s.xlink := rfl
@[simp] theorem retTimes_upd_trace (s : State) (v : List (Nat × Nat)) : (applyUpd (.retTimes v) s).trace = s.trace := rfl
@[simp] theorem retTimes_upd_progs (s : State) (v : List (Nat × Nat)) : (applyUpd (.retTimes v) s).progs = s.progs := rfl
@[simp] theorem retTimes_upd_rails (s : State) (v : List (Nat × Nat)) : (applyUpd (.retTimes v) s).rails = s.rails := rfl
@[simp] theorem retTimes_upd_thm (s : State) (v : List (Nat × Nat)) : (applyUpd (.retTimes v) s).thm = s.thm := rfl
@[simp] theorem retTimes_upd_bnd (s : State) (v : List (Nat × Nat)) : (applyUpd (.retTimes v) s).bnd = s.bnd := rfl
@[simp] theorem retTimes_upd_thmTrip (s : State) (v : List (Nat × Nat)) : (applyUpd (.retTimes v) s).thmTrip = s.thmTrip := rfl
@[simp] theorem retTimes_upd_flash (s : State) (v : List (Nat × Nat)) : (applyUpd (.retTimes v) s).flash = s.flash := rfl
@[simp] theorem retTimes_upd_slots (s : State) (v : List (Nat × Nat)) : (applyUpd (.retTimes v) s).slots = s.slots := rfl
@[simp] theorem retTimes_upd_stores (s : State) (v : List (Nat × Nat)) : (applyUpd (.retTimes v) s).stores = s.stores := rfl
@[simp] theorem retTimes_upd_ids (s : State) (v : List (Nat × Nat)) : (applyUpd (.retTimes v) s).ids = s.ids := rfl
@[simp] theorem retTimes_upd_boot (s : State) (v : List (Nat × Nat)) : (applyUpd (.retTimes v) s).boot = s.boot := rfl
@[simp] theorem retTimes_upd_load (s : State) (v : List (Nat × Nat)) : (applyUpd (.retTimes v) s).load = s.load := rfl
@[simp] theorem retTimes_upd_flt (s : State) (v : List (Nat × Nat)) : (applyUpd (.retTimes v) s).flt = s.flt := rfl
@[simp] theorem retTimes_upd_mon (s : State) (v : List (Nat × Nat)) : (applyUpd (.retTimes v) s).mon = s.mon := rfl
@[simp] theorem retired_upd_pending (s : State) (v : List Nat) : (applyUpd (.retired v) s).pending = s.pending := rfl
@[simp] theorem retired_upd_regs (s : State) (v : List Nat) : (applyUpd (.retired v) s).regs = s.regs := rfl
@[simp] theorem retired_upd_mem (s : State) (v : List Nat) : (applyUpd (.retired v) s).mem = s.mem := rfl
@[simp] theorem retired_upd_sram (s : State) (v : List Nat) : (applyUpd (.retired v) s).sram = s.sram := rfl
@[simp] theorem retired_upd_time (s : State) (v : List Nat) : (applyUpd (.retired v) s).time = s.time := rfl
@[simp] theorem retired_upd_timeFrac (s : State) (v : List Nat) : (applyUpd (.retired v) s).timeFrac = s.timeFrac := rfl
@[simp] theorem retired_upd_freeCtr (s : State) (v : List Nat) : (applyUpd (.retired v) s).freeCtr = s.freeCtr := rfl
@[simp] theorem retired_upd_hiLatch (s : State) (v : List Nat) : (applyUpd (.retired v) s).hiLatch = s.hiLatch := rfl
@[simp] theorem retired_upd_timeSet (s : State) (v : List Nat) : (applyUpd (.retired v) s).timeSet = s.timeSet := rfl
@[simp] theorem retired_upd_n0 (s : State) (v : List Nat) : (applyUpd (.retired v) s).n0 = s.n0 := rfl
@[simp] theorem retired_upd_ticked (s : State) (v : List Nat) : (applyUpd (.retired v) s).ticked = s.ticked := rfl
@[simp] theorem retired_upd_peerTickAt (s : State) (v : List Nat) : (applyUpd (.retired v) s).peerTickAt = s.peerTickAt := rfl
@[simp] theorem retired_upd_guardPitch (s : State) (v : List Nat) : (applyUpd (.retired v) s).guardPitch = s.guardPitch := rfl
@[simp] theorem retired_upd_diePitch (s : State) (v : List Nat) : (applyUpd (.retired v) s).diePitch = s.diePitch := rfl
@[simp] theorem retired_upd_resps (s : State) (v : List Nat) : (applyUpd (.retired v) s).resps = s.resps := rfl
@[simp] theorem retired_upd_txns (s : State) (v : List Nat) : (applyUpd (.retired v) s).txns = s.txns := rfl
@[simp] theorem retired_upd_nextTag (s : State) (v : List Nat) : (applyUpd (.retired v) s).nextTag = s.nextTag := rfl
@[simp] theorem retired_upd_lateTags (s : State) (v : List Nat) : (applyUpd (.retired v) s).lateTags = s.lateTags := rfl
@[simp] theorem retired_upd_ports (s : State) (v : List Nat) : (applyUpd (.retired v) s).ports = s.ports := rfl
@[simp] theorem retired_upd_threads (s : State) (v : List Nat) : (applyUpd (.retired v) s).threads = s.threads := rfl
@[simp] theorem retired_upd_cores (s : State) (v : List Nat) : (applyUpd (.retired v) s).cores = s.cores := rfl
@[simp] theorem retired_upd_engines (s : State) (v : List Nat) : (applyUpd (.retired v) s).engines = s.engines := rfl
@[simp] theorem retired_upd_held (s : State) (v : List Nat) : (applyUpd (.retired v) s).held = s.held := rfl
@[simp] theorem retired_upd_watches (s : State) (v : List Nat) : (applyUpd (.retired v) s).watches = s.watches := rfl
@[simp] theorem retired_upd_watchMsgs (s : State) (v : List Nat) : (applyUpd (.retired v) s).watchMsgs = s.watchMsgs := rfl
@[simp] theorem retired_upd_bankHeld (s : State) (v : List Nat) : (applyUpd (.retired v) s).bankHeld = s.bankHeld := rfl
@[simp] theorem retired_upd_bankTarget (s : State) (v : List Nat) : (applyUpd (.retired v) s).bankTarget = s.bankTarget := rfl
@[simp] theorem retired_upd_ecc (s : State) (v : List Nat) : (applyUpd (.retired v) s).ecc = s.ecc := rfl
@[simp] theorem retired_upd_lineEcc (s : State) (v : List Nat) : (applyUpd (.retired v) s).lineEcc = s.lineEcc := rfl
@[simp] theorem retired_upd_wbPending (s : State) (v : List Nat) : (applyUpd (.retired v) s).wbPending = s.wbPending := rfl
@[simp] theorem retired_upd_scrubPos (s : State) (v : List Nat) : (applyUpd (.retired v) s).scrubPos = s.scrubPos := rfl
@[simp] theorem retired_upd_refusals (s : State) (v : List Nat) : (applyUpd (.retired v) s).refusals = s.refusals := rfl
@[simp] theorem retired_upd_firstRefusal (s : State) (v : List Nat) : (applyUpd (.retired v) s).firstRefusal = s.firstRefusal := rfl
@[simp] theorem retired_upd_boxQueue (s : State) (v : List Nat) : (applyUpd (.retired v) s).boxQueue = s.boxQueue := rfl
@[simp] theorem retired_upd_boxRun (s : State) (v : List Nat) : (applyUpd (.retired v) s).boxRun = s.boxRun := rfl
@[simp] theorem retired_upd_kvs (s : State) (v : List Nat) : (applyUpd (.retired v) s).kvs = s.kvs := rfl
@[simp] theorem retired_upd_parts (s : State) (v : List Nat) : (applyUpd (.retired v) s).parts = s.parts := rfl
@[simp] theorem retired_upd_dmas (s : State) (v : List Nat) : (applyUpd (.retired v) s).dmas = s.dmas := rfl
@[simp] theorem retired_upd_regReqs (s : State) (v : List Nat) : (applyUpd (.retired v) s).regReqs = s.regReqs := rfl
@[simp] theorem retired_upd_regPorts (s : State) (v : List Nat) : (applyUpd (.retired v) s).regPorts = s.regPorts := rfl
@[simp] theorem retired_upd_subchs (s : State) (v : List Nat) : (applyUpd (.retired v) s).subchs = s.subchs := rfl
@[simp] theorem retired_upd_trackers (s : State) (v : List Nat) : (applyUpd (.retired v) s).trackers = s.trackers := rfl
@[simp] theorem retired_upd_throttles (s : State) (v : List Nat) : (applyUpd (.retired v) s).throttles = s.throttles := rfl
@[simp] theorem retired_upd_errRing (s : State) (v : List Nat) : (applyUpd (.retired v) s).errRing = s.errRing := rfl
@[simp] theorem retired_upd_errRingOvf (s : State) (v : List Nat) : (applyUpd (.retired v) s).errRingOvf = s.errRingOvf := rfl
@[simp] theorem retired_upd_patrolLine (s : State) (v : List Nat) : (applyUpd (.retired v) s).patrolLine = s.patrolLine := rfl
@[simp] theorem retired_upd_retTimes (s : State) (v : List Nat) : (applyUpd (.retired v) s).retTimes = s.retTimes := rfl
@[simp] theorem retired_upd_retired (s : State) (v : List Nat) : (applyUpd (.retired v) s).retired = v := rfl
@[simp] theorem retired_upd_dramSeq (s : State) (v : List Nat) : (applyUpd (.retired v) s).dramSeq = s.dramSeq := rfl
@[simp] theorem retired_upd_trn (s : State) (v : List Nat) : (applyUpd (.retired v) s).trn = s.trn := rfl
@[simp] theorem retired_upd_dqsAdj (s : State) (v : List Nat) : (applyUpd (.retired v) s).dqsAdj = s.dqsAdj := rfl
@[simp] theorem retired_upd_dpol (s : State) (v : List Nat) : (applyUpd (.retired v) s).dpol = s.dpol := rfl
@[simp] theorem retired_upd_idleAt (s : State) (v : List Nat) : (applyUpd (.retired v) s).idleAt = s.idleAt := rfl
@[simp] theorem retired_upd_fitted (s : State) (v : List Nat) : (applyUpd (.retired v) s).fitted = s.fitted := rfl
@[simp] theorem retired_upd_faultMsgs (s : State) (v : List Nat) : (applyUpd (.retired v) s).faultMsgs = s.faultMsgs := rfl
@[simp] theorem retired_upd_out (s : State) (v : List Nat) : (applyUpd (.retired v) s).out = s.out := rfl
@[simp] theorem retired_upd_lastRead (s : State) (v : List Nat) : (applyUpd (.retired v) s).lastRead = s.lastRead := rfl
@[simp] theorem retired_upd_fwd (s : State) (v : List Nat) : (applyUpd (.retired v) s).fwd = s.fwd := rfl
@[simp] theorem retired_upd_ethTx (s : State) (v : List Nat) : (applyUpd (.retired v) s).ethTx = s.ethTx := rfl
@[simp] theorem retired_upd_ethHeadAt (s : State) (v : List Nat) : (applyUpd (.retired v) s).ethHeadAt = s.ethHeadAt := rfl
@[simp] theorem retired_upd_canTx (s : State) (v : List Nat) : (applyUpd (.retired v) s).canTx = s.canTx := rfl
@[simp] theorem retired_upd_pcieOut (s : State) (v : List Nat) : (applyUpd (.retired v) s).pcieOut = s.pcieOut := rfl
@[simp] theorem retired_upd_pcieCfgRd (s : State) (v : List Nat) : (applyUpd (.retired v) s).pcieCfgRd = s.pcieCfgRd := rfl
@[simp] theorem retired_upd_msix (s : State) (v : List Nat) : (applyUpd (.retired v) s).msix = s.msix := rfl
@[simp] theorem retired_upd_ancs (s : State) (v : List Nat) : (applyUpd (.retired v) s).ancs = s.ancs := rfl
@[simp] theorem retired_upd_trajArea (s : State) (v : List Nat) : (applyUpd (.retired v) s).trajArea = s.trajArea := rfl
@[simp] theorem retired_upd_lidarIn (s : State) (v : List Nat) : (applyUpd (.retired v) s).lidarIn = s.lidarIn := rfl
@[simp] theorem retired_upd_wheelIn (s : State) (v : List Nat) : (applyUpd (.retired v) s).wheelIn = s.wheelIn := rfl
@[simp] theorem retired_upd_spiStepBusy (s : State) (v : List Nat) : (applyUpd (.retired v) s).spiStepBusy = s.spiStepBusy := rfl
@[simp] theorem retired_upd_spiRec (s : State) (v : List Nat) : (applyUpd (.retired v) s).spiRec = s.spiRec := rfl
@[simp] theorem retired_upd_spiStepCfg (s : State) (v : List Nat) : (applyUpd (.retired v) s).spiStepCfg = s.spiStepCfg := rfl
@[simp] theorem retired_upd_ctxs (s : State) (v : List Nat) : (applyUpd (.retired v) s).ctxs = s.ctxs := rfl
@[simp] theorem retired_upd_fsyOmit (s : State) (v : List Nat) : (applyUpd (.retired v) s).fsyOmit = s.fsyOmit := rfl
@[simp] theorem retired_upd_fsyPulsed (s : State) (v : List Nat) : (applyUpd (.retired v) s).fsyPulsed = s.fsyPulsed := rfl
@[simp] theorem retired_upd_supTasks (s : State) (v : List Nat) : (applyUpd (.retired v) s).supTasks = s.supTasks := rfl
@[simp] theorem retired_upd_fus (s : State) (v : List Nat) : (applyUpd (.retired v) s).fus = s.fus := rfl
@[simp] theorem retired_upd_fcons (s : State) (v : List Nat) : (applyUpd (.retired v) s).fcons = s.fcons := rfl
@[simp] theorem retired_upd_shadow (s : State) (v : List Nat) : (applyUpd (.retired v) s).shadow = s.shadow := rfl
@[simp] theorem retired_upd_trv (s : State) (v : List Nat) : (applyUpd (.retired v) s).trv = s.trv := rfl
@[simp] theorem retired_upd_tlayers (s : State) (v : List Nat) : (applyUpd (.retired v) s).tlayers = s.tlayers := rfl
@[simp] theorem retired_upd_jobFaults (s : State) (v : List Nat) : (applyUpd (.retired v) s).jobFaults = s.jobFaults := rfl
@[simp] theorem retired_upd_unitLast (s : State) (v : List Nat) : (applyUpd (.retired v) s).unitLast = s.unitLast := rfl
@[simp] theorem retired_upd_unitRst (s : State) (v : List Nat) : (applyUpd (.retired v) s).unitRst = s.unitRst := rfl
@[simp] theorem retired_upd_xlink (s : State) (v : List Nat) : (applyUpd (.retired v) s).xlink = s.xlink := rfl
@[simp] theorem retired_upd_trace (s : State) (v : List Nat) : (applyUpd (.retired v) s).trace = s.trace := rfl
@[simp] theorem retired_upd_progs (s : State) (v : List Nat) : (applyUpd (.retired v) s).progs = s.progs := rfl
@[simp] theorem retired_upd_rails (s : State) (v : List Nat) : (applyUpd (.retired v) s).rails = s.rails := rfl
@[simp] theorem retired_upd_thm (s : State) (v : List Nat) : (applyUpd (.retired v) s).thm = s.thm := rfl
@[simp] theorem retired_upd_bnd (s : State) (v : List Nat) : (applyUpd (.retired v) s).bnd = s.bnd := rfl
@[simp] theorem retired_upd_thmTrip (s : State) (v : List Nat) : (applyUpd (.retired v) s).thmTrip = s.thmTrip := rfl
@[simp] theorem retired_upd_flash (s : State) (v : List Nat) : (applyUpd (.retired v) s).flash = s.flash := rfl
@[simp] theorem retired_upd_slots (s : State) (v : List Nat) : (applyUpd (.retired v) s).slots = s.slots := rfl
@[simp] theorem retired_upd_stores (s : State) (v : List Nat) : (applyUpd (.retired v) s).stores = s.stores := rfl
@[simp] theorem retired_upd_ids (s : State) (v : List Nat) : (applyUpd (.retired v) s).ids = s.ids := rfl
@[simp] theorem retired_upd_boot (s : State) (v : List Nat) : (applyUpd (.retired v) s).boot = s.boot := rfl
@[simp] theorem retired_upd_load (s : State) (v : List Nat) : (applyUpd (.retired v) s).load = s.load := rfl
@[simp] theorem retired_upd_flt (s : State) (v : List Nat) : (applyUpd (.retired v) s).flt = s.flt := rfl
@[simp] theorem retired_upd_mon (s : State) (v : List Nat) : (applyUpd (.retired v) s).mon = s.mon := rfl
@[simp] theorem dramSeq_upd_pending (s : State) (v : Nat) : (applyUpd (.dramSeq v) s).pending = s.pending := rfl
@[simp] theorem dramSeq_upd_regs (s : State) (v : Nat) : (applyUpd (.dramSeq v) s).regs = s.regs := rfl
@[simp] theorem dramSeq_upd_mem (s : State) (v : Nat) : (applyUpd (.dramSeq v) s).mem = s.mem := rfl
@[simp] theorem dramSeq_upd_sram (s : State) (v : Nat) : (applyUpd (.dramSeq v) s).sram = s.sram := rfl
@[simp] theorem dramSeq_upd_time (s : State) (v : Nat) : (applyUpd (.dramSeq v) s).time = s.time := rfl
@[simp] theorem dramSeq_upd_timeFrac (s : State) (v : Nat) : (applyUpd (.dramSeq v) s).timeFrac = s.timeFrac := rfl
@[simp] theorem dramSeq_upd_freeCtr (s : State) (v : Nat) : (applyUpd (.dramSeq v) s).freeCtr = s.freeCtr := rfl
@[simp] theorem dramSeq_upd_hiLatch (s : State) (v : Nat) : (applyUpd (.dramSeq v) s).hiLatch = s.hiLatch := rfl
@[simp] theorem dramSeq_upd_timeSet (s : State) (v : Nat) : (applyUpd (.dramSeq v) s).timeSet = s.timeSet := rfl
@[simp] theorem dramSeq_upd_n0 (s : State) (v : Nat) : (applyUpd (.dramSeq v) s).n0 = s.n0 := rfl
@[simp] theorem dramSeq_upd_ticked (s : State) (v : Nat) : (applyUpd (.dramSeq v) s).ticked = s.ticked := rfl
@[simp] theorem dramSeq_upd_peerTickAt (s : State) (v : Nat) : (applyUpd (.dramSeq v) s).peerTickAt = s.peerTickAt := rfl
@[simp] theorem dramSeq_upd_guardPitch (s : State) (v : Nat) : (applyUpd (.dramSeq v) s).guardPitch = s.guardPitch := rfl
@[simp] theorem dramSeq_upd_diePitch (s : State) (v : Nat) : (applyUpd (.dramSeq v) s).diePitch = s.diePitch := rfl
@[simp] theorem dramSeq_upd_resps (s : State) (v : Nat) : (applyUpd (.dramSeq v) s).resps = s.resps := rfl
@[simp] theorem dramSeq_upd_txns (s : State) (v : Nat) : (applyUpd (.dramSeq v) s).txns = s.txns := rfl
@[simp] theorem dramSeq_upd_nextTag (s : State) (v : Nat) : (applyUpd (.dramSeq v) s).nextTag = s.nextTag := rfl
@[simp] theorem dramSeq_upd_lateTags (s : State) (v : Nat) : (applyUpd (.dramSeq v) s).lateTags = s.lateTags := rfl
@[simp] theorem dramSeq_upd_ports (s : State) (v : Nat) : (applyUpd (.dramSeq v) s).ports = s.ports := rfl
@[simp] theorem dramSeq_upd_threads (s : State) (v : Nat) : (applyUpd (.dramSeq v) s).threads = s.threads := rfl
@[simp] theorem dramSeq_upd_cores (s : State) (v : Nat) : (applyUpd (.dramSeq v) s).cores = s.cores := rfl
@[simp] theorem dramSeq_upd_engines (s : State) (v : Nat) : (applyUpd (.dramSeq v) s).engines = s.engines := rfl
@[simp] theorem dramSeq_upd_held (s : State) (v : Nat) : (applyUpd (.dramSeq v) s).held = s.held := rfl
@[simp] theorem dramSeq_upd_watches (s : State) (v : Nat) : (applyUpd (.dramSeq v) s).watches = s.watches := rfl
@[simp] theorem dramSeq_upd_watchMsgs (s : State) (v : Nat) : (applyUpd (.dramSeq v) s).watchMsgs = s.watchMsgs := rfl
@[simp] theorem dramSeq_upd_bankHeld (s : State) (v : Nat) : (applyUpd (.dramSeq v) s).bankHeld = s.bankHeld := rfl
@[simp] theorem dramSeq_upd_bankTarget (s : State) (v : Nat) : (applyUpd (.dramSeq v) s).bankTarget = s.bankTarget := rfl
@[simp] theorem dramSeq_upd_ecc (s : State) (v : Nat) : (applyUpd (.dramSeq v) s).ecc = s.ecc := rfl
@[simp] theorem dramSeq_upd_lineEcc (s : State) (v : Nat) : (applyUpd (.dramSeq v) s).lineEcc = s.lineEcc := rfl
@[simp] theorem dramSeq_upd_wbPending (s : State) (v : Nat) : (applyUpd (.dramSeq v) s).wbPending = s.wbPending := rfl
@[simp] theorem dramSeq_upd_scrubPos (s : State) (v : Nat) : (applyUpd (.dramSeq v) s).scrubPos = s.scrubPos := rfl
@[simp] theorem dramSeq_upd_refusals (s : State) (v : Nat) : (applyUpd (.dramSeq v) s).refusals = s.refusals := rfl
@[simp] theorem dramSeq_upd_firstRefusal (s : State) (v : Nat) : (applyUpd (.dramSeq v) s).firstRefusal = s.firstRefusal := rfl
@[simp] theorem dramSeq_upd_boxQueue (s : State) (v : Nat) : (applyUpd (.dramSeq v) s).boxQueue = s.boxQueue := rfl
@[simp] theorem dramSeq_upd_boxRun (s : State) (v : Nat) : (applyUpd (.dramSeq v) s).boxRun = s.boxRun := rfl
@[simp] theorem dramSeq_upd_kvs (s : State) (v : Nat) : (applyUpd (.dramSeq v) s).kvs = s.kvs := rfl
@[simp] theorem dramSeq_upd_parts (s : State) (v : Nat) : (applyUpd (.dramSeq v) s).parts = s.parts := rfl
@[simp] theorem dramSeq_upd_dmas (s : State) (v : Nat) : (applyUpd (.dramSeq v) s).dmas = s.dmas := rfl
@[simp] theorem dramSeq_upd_regReqs (s : State) (v : Nat) : (applyUpd (.dramSeq v) s).regReqs = s.regReqs := rfl
@[simp] theorem dramSeq_upd_regPorts (s : State) (v : Nat) : (applyUpd (.dramSeq v) s).regPorts = s.regPorts := rfl
@[simp] theorem dramSeq_upd_subchs (s : State) (v : Nat) : (applyUpd (.dramSeq v) s).subchs = s.subchs := rfl
@[simp] theorem dramSeq_upd_trackers (s : State) (v : Nat) : (applyUpd (.dramSeq v) s).trackers = s.trackers := rfl
@[simp] theorem dramSeq_upd_throttles (s : State) (v : Nat) : (applyUpd (.dramSeq v) s).throttles = s.throttles := rfl
@[simp] theorem dramSeq_upd_errRing (s : State) (v : Nat) : (applyUpd (.dramSeq v) s).errRing = s.errRing := rfl
@[simp] theorem dramSeq_upd_errRingOvf (s : State) (v : Nat) : (applyUpd (.dramSeq v) s).errRingOvf = s.errRingOvf := rfl
@[simp] theorem dramSeq_upd_patrolLine (s : State) (v : Nat) : (applyUpd (.dramSeq v) s).patrolLine = s.patrolLine := rfl
@[simp] theorem dramSeq_upd_retTimes (s : State) (v : Nat) : (applyUpd (.dramSeq v) s).retTimes = s.retTimes := rfl
@[simp] theorem dramSeq_upd_retired (s : State) (v : Nat) : (applyUpd (.dramSeq v) s).retired = s.retired := rfl
@[simp] theorem dramSeq_upd_dramSeq (s : State) (v : Nat) : (applyUpd (.dramSeq v) s).dramSeq = v := rfl
@[simp] theorem dramSeq_upd_trn (s : State) (v : Nat) : (applyUpd (.dramSeq v) s).trn = s.trn := rfl
@[simp] theorem dramSeq_upd_dqsAdj (s : State) (v : Nat) : (applyUpd (.dramSeq v) s).dqsAdj = s.dqsAdj := rfl
@[simp] theorem dramSeq_upd_dpol (s : State) (v : Nat) : (applyUpd (.dramSeq v) s).dpol = s.dpol := rfl
@[simp] theorem dramSeq_upd_idleAt (s : State) (v : Nat) : (applyUpd (.dramSeq v) s).idleAt = s.idleAt := rfl
@[simp] theorem dramSeq_upd_fitted (s : State) (v : Nat) : (applyUpd (.dramSeq v) s).fitted = s.fitted := rfl
@[simp] theorem dramSeq_upd_faultMsgs (s : State) (v : Nat) : (applyUpd (.dramSeq v) s).faultMsgs = s.faultMsgs := rfl
@[simp] theorem dramSeq_upd_out (s : State) (v : Nat) : (applyUpd (.dramSeq v) s).out = s.out := rfl
@[simp] theorem dramSeq_upd_lastRead (s : State) (v : Nat) : (applyUpd (.dramSeq v) s).lastRead = s.lastRead := rfl
@[simp] theorem dramSeq_upd_fwd (s : State) (v : Nat) : (applyUpd (.dramSeq v) s).fwd = s.fwd := rfl
@[simp] theorem dramSeq_upd_ethTx (s : State) (v : Nat) : (applyUpd (.dramSeq v) s).ethTx = s.ethTx := rfl
@[simp] theorem dramSeq_upd_ethHeadAt (s : State) (v : Nat) : (applyUpd (.dramSeq v) s).ethHeadAt = s.ethHeadAt := rfl
@[simp] theorem dramSeq_upd_canTx (s : State) (v : Nat) : (applyUpd (.dramSeq v) s).canTx = s.canTx := rfl
@[simp] theorem dramSeq_upd_pcieOut (s : State) (v : Nat) : (applyUpd (.dramSeq v) s).pcieOut = s.pcieOut := rfl
@[simp] theorem dramSeq_upd_pcieCfgRd (s : State) (v : Nat) : (applyUpd (.dramSeq v) s).pcieCfgRd = s.pcieCfgRd := rfl
@[simp] theorem dramSeq_upd_msix (s : State) (v : Nat) : (applyUpd (.dramSeq v) s).msix = s.msix := rfl
@[simp] theorem dramSeq_upd_ancs (s : State) (v : Nat) : (applyUpd (.dramSeq v) s).ancs = s.ancs := rfl
@[simp] theorem dramSeq_upd_trajArea (s : State) (v : Nat) : (applyUpd (.dramSeq v) s).trajArea = s.trajArea := rfl
@[simp] theorem dramSeq_upd_lidarIn (s : State) (v : Nat) : (applyUpd (.dramSeq v) s).lidarIn = s.lidarIn := rfl
@[simp] theorem dramSeq_upd_wheelIn (s : State) (v : Nat) : (applyUpd (.dramSeq v) s).wheelIn = s.wheelIn := rfl
@[simp] theorem dramSeq_upd_spiStepBusy (s : State) (v : Nat) : (applyUpd (.dramSeq v) s).spiStepBusy = s.spiStepBusy := rfl
@[simp] theorem dramSeq_upd_spiRec (s : State) (v : Nat) : (applyUpd (.dramSeq v) s).spiRec = s.spiRec := rfl
@[simp] theorem dramSeq_upd_spiStepCfg (s : State) (v : Nat) : (applyUpd (.dramSeq v) s).spiStepCfg = s.spiStepCfg := rfl
@[simp] theorem dramSeq_upd_ctxs (s : State) (v : Nat) : (applyUpd (.dramSeq v) s).ctxs = s.ctxs := rfl
@[simp] theorem dramSeq_upd_fsyOmit (s : State) (v : Nat) : (applyUpd (.dramSeq v) s).fsyOmit = s.fsyOmit := rfl
@[simp] theorem dramSeq_upd_fsyPulsed (s : State) (v : Nat) : (applyUpd (.dramSeq v) s).fsyPulsed = s.fsyPulsed := rfl
@[simp] theorem dramSeq_upd_supTasks (s : State) (v : Nat) : (applyUpd (.dramSeq v) s).supTasks = s.supTasks := rfl
@[simp] theorem dramSeq_upd_fus (s : State) (v : Nat) : (applyUpd (.dramSeq v) s).fus = s.fus := rfl
@[simp] theorem dramSeq_upd_fcons (s : State) (v : Nat) : (applyUpd (.dramSeq v) s).fcons = s.fcons := rfl
@[simp] theorem dramSeq_upd_shadow (s : State) (v : Nat) : (applyUpd (.dramSeq v) s).shadow = s.shadow := rfl
@[simp] theorem dramSeq_upd_trv (s : State) (v : Nat) : (applyUpd (.dramSeq v) s).trv = s.trv := rfl
@[simp] theorem dramSeq_upd_tlayers (s : State) (v : Nat) : (applyUpd (.dramSeq v) s).tlayers = s.tlayers := rfl
@[simp] theorem dramSeq_upd_jobFaults (s : State) (v : Nat) : (applyUpd (.dramSeq v) s).jobFaults = s.jobFaults := rfl
@[simp] theorem dramSeq_upd_unitLast (s : State) (v : Nat) : (applyUpd (.dramSeq v) s).unitLast = s.unitLast := rfl
@[simp] theorem dramSeq_upd_unitRst (s : State) (v : Nat) : (applyUpd (.dramSeq v) s).unitRst = s.unitRst := rfl
@[simp] theorem dramSeq_upd_xlink (s : State) (v : Nat) : (applyUpd (.dramSeq v) s).xlink = s.xlink := rfl
@[simp] theorem dramSeq_upd_trace (s : State) (v : Nat) : (applyUpd (.dramSeq v) s).trace = s.trace := rfl
@[simp] theorem dramSeq_upd_progs (s : State) (v : Nat) : (applyUpd (.dramSeq v) s).progs = s.progs := rfl
@[simp] theorem dramSeq_upd_rails (s : State) (v : Nat) : (applyUpd (.dramSeq v) s).rails = s.rails := rfl
@[simp] theorem dramSeq_upd_thm (s : State) (v : Nat) : (applyUpd (.dramSeq v) s).thm = s.thm := rfl
@[simp] theorem dramSeq_upd_bnd (s : State) (v : Nat) : (applyUpd (.dramSeq v) s).bnd = s.bnd := rfl
@[simp] theorem dramSeq_upd_thmTrip (s : State) (v : Nat) : (applyUpd (.dramSeq v) s).thmTrip = s.thmTrip := rfl
@[simp] theorem dramSeq_upd_flash (s : State) (v : Nat) : (applyUpd (.dramSeq v) s).flash = s.flash := rfl
@[simp] theorem dramSeq_upd_slots (s : State) (v : Nat) : (applyUpd (.dramSeq v) s).slots = s.slots := rfl
@[simp] theorem dramSeq_upd_stores (s : State) (v : Nat) : (applyUpd (.dramSeq v) s).stores = s.stores := rfl
@[simp] theorem dramSeq_upd_ids (s : State) (v : Nat) : (applyUpd (.dramSeq v) s).ids = s.ids := rfl
@[simp] theorem dramSeq_upd_boot (s : State) (v : Nat) : (applyUpd (.dramSeq v) s).boot = s.boot := rfl
@[simp] theorem dramSeq_upd_load (s : State) (v : Nat) : (applyUpd (.dramSeq v) s).load = s.load := rfl
@[simp] theorem dramSeq_upd_flt (s : State) (v : Nat) : (applyUpd (.dramSeq v) s).flt = s.flt := rfl
@[simp] theorem dramSeq_upd_mon (s : State) (v : Nat) : (applyUpd (.dramSeq v) s).mon = s.mon := rfl
@[simp] theorem trn_upd_pending (s : State) (k : Nat) (v : List Byte) : (applyUpd (.trn k v) s).pending = s.pending := rfl
@[simp] theorem trn_upd_regs (s : State) (k : Nat) (v : List Byte) : (applyUpd (.trn k v) s).regs = s.regs := rfl
@[simp] theorem trn_upd_mem (s : State) (k : Nat) (v : List Byte) : (applyUpd (.trn k v) s).mem = s.mem := rfl
@[simp] theorem trn_upd_sram (s : State) (k : Nat) (v : List Byte) : (applyUpd (.trn k v) s).sram = s.sram := rfl
@[simp] theorem trn_upd_time (s : State) (k : Nat) (v : List Byte) : (applyUpd (.trn k v) s).time = s.time := rfl
@[simp] theorem trn_upd_timeFrac (s : State) (k : Nat) (v : List Byte) : (applyUpd (.trn k v) s).timeFrac = s.timeFrac := rfl
@[simp] theorem trn_upd_freeCtr (s : State) (k : Nat) (v : List Byte) : (applyUpd (.trn k v) s).freeCtr = s.freeCtr := rfl
@[simp] theorem trn_upd_hiLatch (s : State) (k : Nat) (v : List Byte) : (applyUpd (.trn k v) s).hiLatch = s.hiLatch := rfl
@[simp] theorem trn_upd_timeSet (s : State) (k : Nat) (v : List Byte) : (applyUpd (.trn k v) s).timeSet = s.timeSet := rfl
@[simp] theorem trn_upd_n0 (s : State) (k : Nat) (v : List Byte) : (applyUpd (.trn k v) s).n0 = s.n0 := rfl
@[simp] theorem trn_upd_ticked (s : State) (k : Nat) (v : List Byte) : (applyUpd (.trn k v) s).ticked = s.ticked := rfl
@[simp] theorem trn_upd_peerTickAt (s : State) (k : Nat) (v : List Byte) : (applyUpd (.trn k v) s).peerTickAt = s.peerTickAt := rfl
@[simp] theorem trn_upd_guardPitch (s : State) (k : Nat) (v : List Byte) : (applyUpd (.trn k v) s).guardPitch = s.guardPitch := rfl
@[simp] theorem trn_upd_diePitch (s : State) (k : Nat) (v : List Byte) : (applyUpd (.trn k v) s).diePitch = s.diePitch := rfl
@[simp] theorem trn_upd_resps (s : State) (k : Nat) (v : List Byte) : (applyUpd (.trn k v) s).resps = s.resps := rfl
@[simp] theorem trn_upd_txns (s : State) (k : Nat) (v : List Byte) : (applyUpd (.trn k v) s).txns = s.txns := rfl
@[simp] theorem trn_upd_nextTag (s : State) (k : Nat) (v : List Byte) : (applyUpd (.trn k v) s).nextTag = s.nextTag := rfl
@[simp] theorem trn_upd_lateTags (s : State) (k : Nat) (v : List Byte) : (applyUpd (.trn k v) s).lateTags = s.lateTags := rfl
@[simp] theorem trn_upd_ports (s : State) (k : Nat) (v : List Byte) : (applyUpd (.trn k v) s).ports = s.ports := rfl
@[simp] theorem trn_upd_threads (s : State) (k : Nat) (v : List Byte) : (applyUpd (.trn k v) s).threads = s.threads := rfl
@[simp] theorem trn_upd_cores (s : State) (k : Nat) (v : List Byte) : (applyUpd (.trn k v) s).cores = s.cores := rfl
@[simp] theorem trn_upd_engines (s : State) (k : Nat) (v : List Byte) : (applyUpd (.trn k v) s).engines = s.engines := rfl
@[simp] theorem trn_upd_held (s : State) (k : Nat) (v : List Byte) : (applyUpd (.trn k v) s).held = s.held := rfl
@[simp] theorem trn_upd_watches (s : State) (k : Nat) (v : List Byte) : (applyUpd (.trn k v) s).watches = s.watches := rfl
@[simp] theorem trn_upd_watchMsgs (s : State) (k : Nat) (v : List Byte) : (applyUpd (.trn k v) s).watchMsgs = s.watchMsgs := rfl
@[simp] theorem trn_upd_bankHeld (s : State) (k : Nat) (v : List Byte) : (applyUpd (.trn k v) s).bankHeld = s.bankHeld := rfl
@[simp] theorem trn_upd_bankTarget (s : State) (k : Nat) (v : List Byte) : (applyUpd (.trn k v) s).bankTarget = s.bankTarget := rfl
@[simp] theorem trn_upd_ecc (s : State) (k : Nat) (v : List Byte) : (applyUpd (.trn k v) s).ecc = s.ecc := rfl
@[simp] theorem trn_upd_lineEcc (s : State) (k : Nat) (v : List Byte) : (applyUpd (.trn k v) s).lineEcc = s.lineEcc := rfl
@[simp] theorem trn_upd_wbPending (s : State) (k : Nat) (v : List Byte) : (applyUpd (.trn k v) s).wbPending = s.wbPending := rfl
@[simp] theorem trn_upd_scrubPos (s : State) (k : Nat) (v : List Byte) : (applyUpd (.trn k v) s).scrubPos = s.scrubPos := rfl
@[simp] theorem trn_upd_refusals (s : State) (k : Nat) (v : List Byte) : (applyUpd (.trn k v) s).refusals = s.refusals := rfl
@[simp] theorem trn_upd_firstRefusal (s : State) (k : Nat) (v : List Byte) : (applyUpd (.trn k v) s).firstRefusal = s.firstRefusal := rfl
@[simp] theorem trn_upd_boxQueue (s : State) (k : Nat) (v : List Byte) : (applyUpd (.trn k v) s).boxQueue = s.boxQueue := rfl
@[simp] theorem trn_upd_boxRun (s : State) (k : Nat) (v : List Byte) : (applyUpd (.trn k v) s).boxRun = s.boxRun := rfl
@[simp] theorem trn_upd_kvs (s : State) (k : Nat) (v : List Byte) : (applyUpd (.trn k v) s).kvs = s.kvs := rfl
@[simp] theorem trn_upd_parts (s : State) (k : Nat) (v : List Byte) : (applyUpd (.trn k v) s).parts = s.parts := rfl
@[simp] theorem trn_upd_dmas (s : State) (k : Nat) (v : List Byte) : (applyUpd (.trn k v) s).dmas = s.dmas := rfl
@[simp] theorem trn_upd_regReqs (s : State) (k : Nat) (v : List Byte) : (applyUpd (.trn k v) s).regReqs = s.regReqs := rfl
@[simp] theorem trn_upd_regPorts (s : State) (k : Nat) (v : List Byte) : (applyUpd (.trn k v) s).regPorts = s.regPorts := rfl
@[simp] theorem trn_upd_subchs (s : State) (k : Nat) (v : List Byte) : (applyUpd (.trn k v) s).subchs = s.subchs := rfl
@[simp] theorem trn_upd_trackers (s : State) (k : Nat) (v : List Byte) : (applyUpd (.trn k v) s).trackers = s.trackers := rfl
@[simp] theorem trn_upd_throttles (s : State) (k : Nat) (v : List Byte) : (applyUpd (.trn k v) s).throttles = s.throttles := rfl
@[simp] theorem trn_upd_errRing (s : State) (k : Nat) (v : List Byte) : (applyUpd (.trn k v) s).errRing = s.errRing := rfl
@[simp] theorem trn_upd_errRingOvf (s : State) (k : Nat) (v : List Byte) : (applyUpd (.trn k v) s).errRingOvf = s.errRingOvf := rfl
@[simp] theorem trn_upd_patrolLine (s : State) (k : Nat) (v : List Byte) : (applyUpd (.trn k v) s).patrolLine = s.patrolLine := rfl
@[simp] theorem trn_upd_retTimes (s : State) (k : Nat) (v : List Byte) : (applyUpd (.trn k v) s).retTimes = s.retTimes := rfl
@[simp] theorem trn_upd_retired (s : State) (k : Nat) (v : List Byte) : (applyUpd (.trn k v) s).retired = s.retired := rfl
@[simp] theorem trn_upd_dramSeq (s : State) (k : Nat) (v : List Byte) : (applyUpd (.trn k v) s).dramSeq = s.dramSeq := rfl
@[simp] theorem trn_upd_trn (s : State) (k : Nat) (v : List Byte) : (applyUpd (.trn k v) s).trn = tabSet noTrn s.trn k v := rfl
@[simp] theorem trn_upd_dqsAdj (s : State) (k : Nat) (v : List Byte) : (applyUpd (.trn k v) s).dqsAdj = s.dqsAdj := rfl
@[simp] theorem trn_upd_dpol (s : State) (k : Nat) (v : List Byte) : (applyUpd (.trn k v) s).dpol = s.dpol := rfl
@[simp] theorem trn_upd_idleAt (s : State) (k : Nat) (v : List Byte) : (applyUpd (.trn k v) s).idleAt = s.idleAt := rfl
@[simp] theorem trn_upd_fitted (s : State) (k : Nat) (v : List Byte) : (applyUpd (.trn k v) s).fitted = s.fitted := rfl
@[simp] theorem trn_upd_faultMsgs (s : State) (k : Nat) (v : List Byte) : (applyUpd (.trn k v) s).faultMsgs = s.faultMsgs := rfl
@[simp] theorem trn_upd_out (s : State) (k : Nat) (v : List Byte) : (applyUpd (.trn k v) s).out = s.out := rfl
@[simp] theorem trn_upd_lastRead (s : State) (k : Nat) (v : List Byte) : (applyUpd (.trn k v) s).lastRead = s.lastRead := rfl
@[simp] theorem trn_upd_fwd (s : State) (k : Nat) (v : List Byte) : (applyUpd (.trn k v) s).fwd = s.fwd := rfl
@[simp] theorem trn_upd_ethTx (s : State) (k : Nat) (v : List Byte) : (applyUpd (.trn k v) s).ethTx = s.ethTx := rfl
@[simp] theorem trn_upd_ethHeadAt (s : State) (k : Nat) (v : List Byte) : (applyUpd (.trn k v) s).ethHeadAt = s.ethHeadAt := rfl
@[simp] theorem trn_upd_canTx (s : State) (k : Nat) (v : List Byte) : (applyUpd (.trn k v) s).canTx = s.canTx := rfl
@[simp] theorem trn_upd_pcieOut (s : State) (k : Nat) (v : List Byte) : (applyUpd (.trn k v) s).pcieOut = s.pcieOut := rfl
@[simp] theorem trn_upd_pcieCfgRd (s : State) (k : Nat) (v : List Byte) : (applyUpd (.trn k v) s).pcieCfgRd = s.pcieCfgRd := rfl
@[simp] theorem trn_upd_msix (s : State) (k : Nat) (v : List Byte) : (applyUpd (.trn k v) s).msix = s.msix := rfl
@[simp] theorem trn_upd_ancs (s : State) (k : Nat) (v : List Byte) : (applyUpd (.trn k v) s).ancs = s.ancs := rfl
@[simp] theorem trn_upd_trajArea (s : State) (k : Nat) (v : List Byte) : (applyUpd (.trn k v) s).trajArea = s.trajArea := rfl
@[simp] theorem trn_upd_lidarIn (s : State) (k : Nat) (v : List Byte) : (applyUpd (.trn k v) s).lidarIn = s.lidarIn := rfl
@[simp] theorem trn_upd_wheelIn (s : State) (k : Nat) (v : List Byte) : (applyUpd (.trn k v) s).wheelIn = s.wheelIn := rfl
@[simp] theorem trn_upd_spiStepBusy (s : State) (k : Nat) (v : List Byte) : (applyUpd (.trn k v) s).spiStepBusy = s.spiStepBusy := rfl
@[simp] theorem trn_upd_spiRec (s : State) (k : Nat) (v : List Byte) : (applyUpd (.trn k v) s).spiRec = s.spiRec := rfl
@[simp] theorem trn_upd_spiStepCfg (s : State) (k : Nat) (v : List Byte) : (applyUpd (.trn k v) s).spiStepCfg = s.spiStepCfg := rfl
@[simp] theorem trn_upd_ctxs (s : State) (k : Nat) (v : List Byte) : (applyUpd (.trn k v) s).ctxs = s.ctxs := rfl
@[simp] theorem trn_upd_fsyOmit (s : State) (k : Nat) (v : List Byte) : (applyUpd (.trn k v) s).fsyOmit = s.fsyOmit := rfl
@[simp] theorem trn_upd_fsyPulsed (s : State) (k : Nat) (v : List Byte) : (applyUpd (.trn k v) s).fsyPulsed = s.fsyPulsed := rfl
@[simp] theorem trn_upd_supTasks (s : State) (k : Nat) (v : List Byte) : (applyUpd (.trn k v) s).supTasks = s.supTasks := rfl
@[simp] theorem trn_upd_fus (s : State) (k : Nat) (v : List Byte) : (applyUpd (.trn k v) s).fus = s.fus := rfl
@[simp] theorem trn_upd_fcons (s : State) (k : Nat) (v : List Byte) : (applyUpd (.trn k v) s).fcons = s.fcons := rfl
@[simp] theorem trn_upd_shadow (s : State) (k : Nat) (v : List Byte) : (applyUpd (.trn k v) s).shadow = s.shadow := rfl
@[simp] theorem trn_upd_trv (s : State) (k : Nat) (v : List Byte) : (applyUpd (.trn k v) s).trv = s.trv := rfl
@[simp] theorem trn_upd_tlayers (s : State) (k : Nat) (v : List Byte) : (applyUpd (.trn k v) s).tlayers = s.tlayers := rfl
@[simp] theorem trn_upd_jobFaults (s : State) (k : Nat) (v : List Byte) : (applyUpd (.trn k v) s).jobFaults = s.jobFaults := rfl
@[simp] theorem trn_upd_unitLast (s : State) (k : Nat) (v : List Byte) : (applyUpd (.trn k v) s).unitLast = s.unitLast := rfl
@[simp] theorem trn_upd_unitRst (s : State) (k : Nat) (v : List Byte) : (applyUpd (.trn k v) s).unitRst = s.unitRst := rfl
@[simp] theorem trn_upd_xlink (s : State) (k : Nat) (v : List Byte) : (applyUpd (.trn k v) s).xlink = s.xlink := rfl
@[simp] theorem trn_upd_trace (s : State) (k : Nat) (v : List Byte) : (applyUpd (.trn k v) s).trace = s.trace := rfl
@[simp] theorem trn_upd_progs (s : State) (k : Nat) (v : List Byte) : (applyUpd (.trn k v) s).progs = s.progs := rfl
@[simp] theorem trn_upd_rails (s : State) (k : Nat) (v : List Byte) : (applyUpd (.trn k v) s).rails = s.rails := rfl
@[simp] theorem trn_upd_thm (s : State) (k : Nat) (v : List Byte) : (applyUpd (.trn k v) s).thm = s.thm := rfl
@[simp] theorem trn_upd_bnd (s : State) (k : Nat) (v : List Byte) : (applyUpd (.trn k v) s).bnd = s.bnd := rfl
@[simp] theorem trn_upd_thmTrip (s : State) (k : Nat) (v : List Byte) : (applyUpd (.trn k v) s).thmTrip = s.thmTrip := rfl
@[simp] theorem trn_upd_flash (s : State) (k : Nat) (v : List Byte) : (applyUpd (.trn k v) s).flash = s.flash := rfl
@[simp] theorem trn_upd_slots (s : State) (k : Nat) (v : List Byte) : (applyUpd (.trn k v) s).slots = s.slots := rfl
@[simp] theorem trn_upd_stores (s : State) (k : Nat) (v : List Byte) : (applyUpd (.trn k v) s).stores = s.stores := rfl
@[simp] theorem trn_upd_ids (s : State) (k : Nat) (v : List Byte) : (applyUpd (.trn k v) s).ids = s.ids := rfl
@[simp] theorem trn_upd_boot (s : State) (k : Nat) (v : List Byte) : (applyUpd (.trn k v) s).boot = s.boot := rfl
@[simp] theorem trn_upd_load (s : State) (k : Nat) (v : List Byte) : (applyUpd (.trn k v) s).load = s.load := rfl
@[simp] theorem trn_upd_flt (s : State) (k : Nat) (v : List Byte) : (applyUpd (.trn k v) s).flt = s.flt := rfl
@[simp] theorem trn_upd_mon (s : State) (k : Nat) (v : List Byte) : (applyUpd (.trn k v) s).mon = s.mon := rfl
@[simp] theorem dqsAdj_upd_pending (s : State) (k : Nat) (v : Int) : (applyUpd (.dqsAdj k v) s).pending = s.pending := rfl
@[simp] theorem dqsAdj_upd_regs (s : State) (k : Nat) (v : Int) : (applyUpd (.dqsAdj k v) s).regs = s.regs := rfl
@[simp] theorem dqsAdj_upd_mem (s : State) (k : Nat) (v : Int) : (applyUpd (.dqsAdj k v) s).mem = s.mem := rfl
@[simp] theorem dqsAdj_upd_sram (s : State) (k : Nat) (v : Int) : (applyUpd (.dqsAdj k v) s).sram = s.sram := rfl
@[simp] theorem dqsAdj_upd_time (s : State) (k : Nat) (v : Int) : (applyUpd (.dqsAdj k v) s).time = s.time := rfl
@[simp] theorem dqsAdj_upd_timeFrac (s : State) (k : Nat) (v : Int) : (applyUpd (.dqsAdj k v) s).timeFrac = s.timeFrac := rfl
@[simp] theorem dqsAdj_upd_freeCtr (s : State) (k : Nat) (v : Int) : (applyUpd (.dqsAdj k v) s).freeCtr = s.freeCtr := rfl
@[simp] theorem dqsAdj_upd_hiLatch (s : State) (k : Nat) (v : Int) : (applyUpd (.dqsAdj k v) s).hiLatch = s.hiLatch := rfl
@[simp] theorem dqsAdj_upd_timeSet (s : State) (k : Nat) (v : Int) : (applyUpd (.dqsAdj k v) s).timeSet = s.timeSet := rfl
@[simp] theorem dqsAdj_upd_n0 (s : State) (k : Nat) (v : Int) : (applyUpd (.dqsAdj k v) s).n0 = s.n0 := rfl
@[simp] theorem dqsAdj_upd_ticked (s : State) (k : Nat) (v : Int) : (applyUpd (.dqsAdj k v) s).ticked = s.ticked := rfl
@[simp] theorem dqsAdj_upd_peerTickAt (s : State) (k : Nat) (v : Int) : (applyUpd (.dqsAdj k v) s).peerTickAt = s.peerTickAt := rfl
@[simp] theorem dqsAdj_upd_guardPitch (s : State) (k : Nat) (v : Int) : (applyUpd (.dqsAdj k v) s).guardPitch = s.guardPitch := rfl
@[simp] theorem dqsAdj_upd_diePitch (s : State) (k : Nat) (v : Int) : (applyUpd (.dqsAdj k v) s).diePitch = s.diePitch := rfl
@[simp] theorem dqsAdj_upd_resps (s : State) (k : Nat) (v : Int) : (applyUpd (.dqsAdj k v) s).resps = s.resps := rfl
@[simp] theorem dqsAdj_upd_txns (s : State) (k : Nat) (v : Int) : (applyUpd (.dqsAdj k v) s).txns = s.txns := rfl
@[simp] theorem dqsAdj_upd_nextTag (s : State) (k : Nat) (v : Int) : (applyUpd (.dqsAdj k v) s).nextTag = s.nextTag := rfl
@[simp] theorem dqsAdj_upd_lateTags (s : State) (k : Nat) (v : Int) : (applyUpd (.dqsAdj k v) s).lateTags = s.lateTags := rfl
@[simp] theorem dqsAdj_upd_ports (s : State) (k : Nat) (v : Int) : (applyUpd (.dqsAdj k v) s).ports = s.ports := rfl
@[simp] theorem dqsAdj_upd_threads (s : State) (k : Nat) (v : Int) : (applyUpd (.dqsAdj k v) s).threads = s.threads := rfl
@[simp] theorem dqsAdj_upd_cores (s : State) (k : Nat) (v : Int) : (applyUpd (.dqsAdj k v) s).cores = s.cores := rfl
@[simp] theorem dqsAdj_upd_engines (s : State) (k : Nat) (v : Int) : (applyUpd (.dqsAdj k v) s).engines = s.engines := rfl
@[simp] theorem dqsAdj_upd_held (s : State) (k : Nat) (v : Int) : (applyUpd (.dqsAdj k v) s).held = s.held := rfl
@[simp] theorem dqsAdj_upd_watches (s : State) (k : Nat) (v : Int) : (applyUpd (.dqsAdj k v) s).watches = s.watches := rfl
@[simp] theorem dqsAdj_upd_watchMsgs (s : State) (k : Nat) (v : Int) : (applyUpd (.dqsAdj k v) s).watchMsgs = s.watchMsgs := rfl
@[simp] theorem dqsAdj_upd_bankHeld (s : State) (k : Nat) (v : Int) : (applyUpd (.dqsAdj k v) s).bankHeld = s.bankHeld := rfl
@[simp] theorem dqsAdj_upd_bankTarget (s : State) (k : Nat) (v : Int) : (applyUpd (.dqsAdj k v) s).bankTarget = s.bankTarget := rfl
@[simp] theorem dqsAdj_upd_ecc (s : State) (k : Nat) (v : Int) : (applyUpd (.dqsAdj k v) s).ecc = s.ecc := rfl
@[simp] theorem dqsAdj_upd_lineEcc (s : State) (k : Nat) (v : Int) : (applyUpd (.dqsAdj k v) s).lineEcc = s.lineEcc := rfl
@[simp] theorem dqsAdj_upd_wbPending (s : State) (k : Nat) (v : Int) : (applyUpd (.dqsAdj k v) s).wbPending = s.wbPending := rfl
@[simp] theorem dqsAdj_upd_scrubPos (s : State) (k : Nat) (v : Int) : (applyUpd (.dqsAdj k v) s).scrubPos = s.scrubPos := rfl
@[simp] theorem dqsAdj_upd_refusals (s : State) (k : Nat) (v : Int) : (applyUpd (.dqsAdj k v) s).refusals = s.refusals := rfl
@[simp] theorem dqsAdj_upd_firstRefusal (s : State) (k : Nat) (v : Int) : (applyUpd (.dqsAdj k v) s).firstRefusal = s.firstRefusal := rfl
@[simp] theorem dqsAdj_upd_boxQueue (s : State) (k : Nat) (v : Int) : (applyUpd (.dqsAdj k v) s).boxQueue = s.boxQueue := rfl
@[simp] theorem dqsAdj_upd_boxRun (s : State) (k : Nat) (v : Int) : (applyUpd (.dqsAdj k v) s).boxRun = s.boxRun := rfl
@[simp] theorem dqsAdj_upd_kvs (s : State) (k : Nat) (v : Int) : (applyUpd (.dqsAdj k v) s).kvs = s.kvs := rfl
@[simp] theorem dqsAdj_upd_parts (s : State) (k : Nat) (v : Int) : (applyUpd (.dqsAdj k v) s).parts = s.parts := rfl
@[simp] theorem dqsAdj_upd_dmas (s : State) (k : Nat) (v : Int) : (applyUpd (.dqsAdj k v) s).dmas = s.dmas := rfl
@[simp] theorem dqsAdj_upd_regReqs (s : State) (k : Nat) (v : Int) : (applyUpd (.dqsAdj k v) s).regReqs = s.regReqs := rfl
@[simp] theorem dqsAdj_upd_regPorts (s : State) (k : Nat) (v : Int) : (applyUpd (.dqsAdj k v) s).regPorts = s.regPorts := rfl
@[simp] theorem dqsAdj_upd_subchs (s : State) (k : Nat) (v : Int) : (applyUpd (.dqsAdj k v) s).subchs = s.subchs := rfl
@[simp] theorem dqsAdj_upd_trackers (s : State) (k : Nat) (v : Int) : (applyUpd (.dqsAdj k v) s).trackers = s.trackers := rfl
@[simp] theorem dqsAdj_upd_throttles (s : State) (k : Nat) (v : Int) : (applyUpd (.dqsAdj k v) s).throttles = s.throttles := rfl
@[simp] theorem dqsAdj_upd_errRing (s : State) (k : Nat) (v : Int) : (applyUpd (.dqsAdj k v) s).errRing = s.errRing := rfl
@[simp] theorem dqsAdj_upd_errRingOvf (s : State) (k : Nat) (v : Int) : (applyUpd (.dqsAdj k v) s).errRingOvf = s.errRingOvf := rfl
@[simp] theorem dqsAdj_upd_patrolLine (s : State) (k : Nat) (v : Int) : (applyUpd (.dqsAdj k v) s).patrolLine = s.patrolLine := rfl
@[simp] theorem dqsAdj_upd_retTimes (s : State) (k : Nat) (v : Int) : (applyUpd (.dqsAdj k v) s).retTimes = s.retTimes := rfl
@[simp] theorem dqsAdj_upd_retired (s : State) (k : Nat) (v : Int) : (applyUpd (.dqsAdj k v) s).retired = s.retired := rfl
@[simp] theorem dqsAdj_upd_dramSeq (s : State) (k : Nat) (v : Int) : (applyUpd (.dqsAdj k v) s).dramSeq = s.dramSeq := rfl
@[simp] theorem dqsAdj_upd_trn (s : State) (k : Nat) (v : Int) : (applyUpd (.dqsAdj k v) s).trn = s.trn := rfl
@[simp] theorem dqsAdj_upd_dqsAdj (s : State) (k : Nat) (v : Int) : (applyUpd (.dqsAdj k v) s).dqsAdj = tabSet zeroInt s.dqsAdj k v := rfl
@[simp] theorem dqsAdj_upd_dpol (s : State) (k : Nat) (v : Int) : (applyUpd (.dqsAdj k v) s).dpol = s.dpol := rfl
@[simp] theorem dqsAdj_upd_idleAt (s : State) (k : Nat) (v : Int) : (applyUpd (.dqsAdj k v) s).idleAt = s.idleAt := rfl
@[simp] theorem dqsAdj_upd_fitted (s : State) (k : Nat) (v : Int) : (applyUpd (.dqsAdj k v) s).fitted = s.fitted := rfl
@[simp] theorem dqsAdj_upd_faultMsgs (s : State) (k : Nat) (v : Int) : (applyUpd (.dqsAdj k v) s).faultMsgs = s.faultMsgs := rfl
@[simp] theorem dqsAdj_upd_out (s : State) (k : Nat) (v : Int) : (applyUpd (.dqsAdj k v) s).out = s.out := rfl
@[simp] theorem dqsAdj_upd_lastRead (s : State) (k : Nat) (v : Int) : (applyUpd (.dqsAdj k v) s).lastRead = s.lastRead := rfl
@[simp] theorem dqsAdj_upd_fwd (s : State) (k : Nat) (v : Int) : (applyUpd (.dqsAdj k v) s).fwd = s.fwd := rfl
@[simp] theorem dqsAdj_upd_ethTx (s : State) (k : Nat) (v : Int) : (applyUpd (.dqsAdj k v) s).ethTx = s.ethTx := rfl
@[simp] theorem dqsAdj_upd_ethHeadAt (s : State) (k : Nat) (v : Int) : (applyUpd (.dqsAdj k v) s).ethHeadAt = s.ethHeadAt := rfl
@[simp] theorem dqsAdj_upd_canTx (s : State) (k : Nat) (v : Int) : (applyUpd (.dqsAdj k v) s).canTx = s.canTx := rfl
@[simp] theorem dqsAdj_upd_pcieOut (s : State) (k : Nat) (v : Int) : (applyUpd (.dqsAdj k v) s).pcieOut = s.pcieOut := rfl
@[simp] theorem dqsAdj_upd_pcieCfgRd (s : State) (k : Nat) (v : Int) : (applyUpd (.dqsAdj k v) s).pcieCfgRd = s.pcieCfgRd := rfl
@[simp] theorem dqsAdj_upd_msix (s : State) (k : Nat) (v : Int) : (applyUpd (.dqsAdj k v) s).msix = s.msix := rfl
@[simp] theorem dqsAdj_upd_ancs (s : State) (k : Nat) (v : Int) : (applyUpd (.dqsAdj k v) s).ancs = s.ancs := rfl
@[simp] theorem dqsAdj_upd_trajArea (s : State) (k : Nat) (v : Int) : (applyUpd (.dqsAdj k v) s).trajArea = s.trajArea := rfl
@[simp] theorem dqsAdj_upd_lidarIn (s : State) (k : Nat) (v : Int) : (applyUpd (.dqsAdj k v) s).lidarIn = s.lidarIn := rfl
@[simp] theorem dqsAdj_upd_wheelIn (s : State) (k : Nat) (v : Int) : (applyUpd (.dqsAdj k v) s).wheelIn = s.wheelIn := rfl
@[simp] theorem dqsAdj_upd_spiStepBusy (s : State) (k : Nat) (v : Int) : (applyUpd (.dqsAdj k v) s).spiStepBusy = s.spiStepBusy := rfl
@[simp] theorem dqsAdj_upd_spiRec (s : State) (k : Nat) (v : Int) : (applyUpd (.dqsAdj k v) s).spiRec = s.spiRec := rfl
@[simp] theorem dqsAdj_upd_spiStepCfg (s : State) (k : Nat) (v : Int) : (applyUpd (.dqsAdj k v) s).spiStepCfg = s.spiStepCfg := rfl
@[simp] theorem dqsAdj_upd_ctxs (s : State) (k : Nat) (v : Int) : (applyUpd (.dqsAdj k v) s).ctxs = s.ctxs := rfl
@[simp] theorem dqsAdj_upd_fsyOmit (s : State) (k : Nat) (v : Int) : (applyUpd (.dqsAdj k v) s).fsyOmit = s.fsyOmit := rfl
@[simp] theorem dqsAdj_upd_fsyPulsed (s : State) (k : Nat) (v : Int) : (applyUpd (.dqsAdj k v) s).fsyPulsed = s.fsyPulsed := rfl
@[simp] theorem dqsAdj_upd_supTasks (s : State) (k : Nat) (v : Int) : (applyUpd (.dqsAdj k v) s).supTasks = s.supTasks := rfl
@[simp] theorem dqsAdj_upd_fus (s : State) (k : Nat) (v : Int) : (applyUpd (.dqsAdj k v) s).fus = s.fus := rfl
@[simp] theorem dqsAdj_upd_fcons (s : State) (k : Nat) (v : Int) : (applyUpd (.dqsAdj k v) s).fcons = s.fcons := rfl
@[simp] theorem dqsAdj_upd_shadow (s : State) (k : Nat) (v : Int) : (applyUpd (.dqsAdj k v) s).shadow = s.shadow := rfl
@[simp] theorem dqsAdj_upd_trv (s : State) (k : Nat) (v : Int) : (applyUpd (.dqsAdj k v) s).trv = s.trv := rfl
@[simp] theorem dqsAdj_upd_tlayers (s : State) (k : Nat) (v : Int) : (applyUpd (.dqsAdj k v) s).tlayers = s.tlayers := rfl
@[simp] theorem dqsAdj_upd_jobFaults (s : State) (k : Nat) (v : Int) : (applyUpd (.dqsAdj k v) s).jobFaults = s.jobFaults := rfl
@[simp] theorem dqsAdj_upd_unitLast (s : State) (k : Nat) (v : Int) : (applyUpd (.dqsAdj k v) s).unitLast = s.unitLast := rfl
@[simp] theorem dqsAdj_upd_unitRst (s : State) (k : Nat) (v : Int) : (applyUpd (.dqsAdj k v) s).unitRst = s.unitRst := rfl
@[simp] theorem dqsAdj_upd_xlink (s : State) (k : Nat) (v : Int) : (applyUpd (.dqsAdj k v) s).xlink = s.xlink := rfl
@[simp] theorem dqsAdj_upd_trace (s : State) (k : Nat) (v : Int) : (applyUpd (.dqsAdj k v) s).trace = s.trace := rfl
@[simp] theorem dqsAdj_upd_progs (s : State) (k : Nat) (v : Int) : (applyUpd (.dqsAdj k v) s).progs = s.progs := rfl
@[simp] theorem dqsAdj_upd_rails (s : State) (k : Nat) (v : Int) : (applyUpd (.dqsAdj k v) s).rails = s.rails := rfl
@[simp] theorem dqsAdj_upd_thm (s : State) (k : Nat) (v : Int) : (applyUpd (.dqsAdj k v) s).thm = s.thm := rfl
@[simp] theorem dqsAdj_upd_bnd (s : State) (k : Nat) (v : Int) : (applyUpd (.dqsAdj k v) s).bnd = s.bnd := rfl
@[simp] theorem dqsAdj_upd_thmTrip (s : State) (k : Nat) (v : Int) : (applyUpd (.dqsAdj k v) s).thmTrip = s.thmTrip := rfl
@[simp] theorem dqsAdj_upd_flash (s : State) (k : Nat) (v : Int) : (applyUpd (.dqsAdj k v) s).flash = s.flash := rfl
@[simp] theorem dqsAdj_upd_slots (s : State) (k : Nat) (v : Int) : (applyUpd (.dqsAdj k v) s).slots = s.slots := rfl
@[simp] theorem dqsAdj_upd_stores (s : State) (k : Nat) (v : Int) : (applyUpd (.dqsAdj k v) s).stores = s.stores := rfl
@[simp] theorem dqsAdj_upd_ids (s : State) (k : Nat) (v : Int) : (applyUpd (.dqsAdj k v) s).ids = s.ids := rfl
@[simp] theorem dqsAdj_upd_boot (s : State) (k : Nat) (v : Int) : (applyUpd (.dqsAdj k v) s).boot = s.boot := rfl
@[simp] theorem dqsAdj_upd_load (s : State) (k : Nat) (v : Int) : (applyUpd (.dqsAdj k v) s).load = s.load := rfl
@[simp] theorem dqsAdj_upd_flt (s : State) (k : Nat) (v : Int) : (applyUpd (.dqsAdj k v) s).flt = s.flt := rfl
@[simp] theorem dqsAdj_upd_mon (s : State) (k : Nat) (v : Int) : (applyUpd (.dqsAdj k v) s).mon = s.mon := rfl
@[simp] theorem dpol_upd_pending (s : State) (v : DramPol) : (applyUpd (.dpol v) s).pending = s.pending := rfl
@[simp] theorem dpol_upd_regs (s : State) (v : DramPol) : (applyUpd (.dpol v) s).regs = s.regs := rfl
@[simp] theorem dpol_upd_mem (s : State) (v : DramPol) : (applyUpd (.dpol v) s).mem = s.mem := rfl
@[simp] theorem dpol_upd_sram (s : State) (v : DramPol) : (applyUpd (.dpol v) s).sram = s.sram := rfl
@[simp] theorem dpol_upd_time (s : State) (v : DramPol) : (applyUpd (.dpol v) s).time = s.time := rfl
@[simp] theorem dpol_upd_timeFrac (s : State) (v : DramPol) : (applyUpd (.dpol v) s).timeFrac = s.timeFrac := rfl
@[simp] theorem dpol_upd_freeCtr (s : State) (v : DramPol) : (applyUpd (.dpol v) s).freeCtr = s.freeCtr := rfl
@[simp] theorem dpol_upd_hiLatch (s : State) (v : DramPol) : (applyUpd (.dpol v) s).hiLatch = s.hiLatch := rfl
@[simp] theorem dpol_upd_timeSet (s : State) (v : DramPol) : (applyUpd (.dpol v) s).timeSet = s.timeSet := rfl
@[simp] theorem dpol_upd_n0 (s : State) (v : DramPol) : (applyUpd (.dpol v) s).n0 = s.n0 := rfl
@[simp] theorem dpol_upd_ticked (s : State) (v : DramPol) : (applyUpd (.dpol v) s).ticked = s.ticked := rfl
@[simp] theorem dpol_upd_peerTickAt (s : State) (v : DramPol) : (applyUpd (.dpol v) s).peerTickAt = s.peerTickAt := rfl
@[simp] theorem dpol_upd_guardPitch (s : State) (v : DramPol) : (applyUpd (.dpol v) s).guardPitch = s.guardPitch := rfl
@[simp] theorem dpol_upd_diePitch (s : State) (v : DramPol) : (applyUpd (.dpol v) s).diePitch = s.diePitch := rfl
@[simp] theorem dpol_upd_resps (s : State) (v : DramPol) : (applyUpd (.dpol v) s).resps = s.resps := rfl
@[simp] theorem dpol_upd_txns (s : State) (v : DramPol) : (applyUpd (.dpol v) s).txns = s.txns := rfl
@[simp] theorem dpol_upd_nextTag (s : State) (v : DramPol) : (applyUpd (.dpol v) s).nextTag = s.nextTag := rfl
@[simp] theorem dpol_upd_lateTags (s : State) (v : DramPol) : (applyUpd (.dpol v) s).lateTags = s.lateTags := rfl
@[simp] theorem dpol_upd_ports (s : State) (v : DramPol) : (applyUpd (.dpol v) s).ports = s.ports := rfl
@[simp] theorem dpol_upd_threads (s : State) (v : DramPol) : (applyUpd (.dpol v) s).threads = s.threads := rfl
@[simp] theorem dpol_upd_cores (s : State) (v : DramPol) : (applyUpd (.dpol v) s).cores = s.cores := rfl
@[simp] theorem dpol_upd_engines (s : State) (v : DramPol) : (applyUpd (.dpol v) s).engines = s.engines := rfl
@[simp] theorem dpol_upd_held (s : State) (v : DramPol) : (applyUpd (.dpol v) s).held = s.held := rfl
@[simp] theorem dpol_upd_watches (s : State) (v : DramPol) : (applyUpd (.dpol v) s).watches = s.watches := rfl
@[simp] theorem dpol_upd_watchMsgs (s : State) (v : DramPol) : (applyUpd (.dpol v) s).watchMsgs = s.watchMsgs := rfl
@[simp] theorem dpol_upd_bankHeld (s : State) (v : DramPol) : (applyUpd (.dpol v) s).bankHeld = s.bankHeld := rfl
@[simp] theorem dpol_upd_bankTarget (s : State) (v : DramPol) : (applyUpd (.dpol v) s).bankTarget = s.bankTarget := rfl
@[simp] theorem dpol_upd_ecc (s : State) (v : DramPol) : (applyUpd (.dpol v) s).ecc = s.ecc := rfl
@[simp] theorem dpol_upd_lineEcc (s : State) (v : DramPol) : (applyUpd (.dpol v) s).lineEcc = s.lineEcc := rfl
@[simp] theorem dpol_upd_wbPending (s : State) (v : DramPol) : (applyUpd (.dpol v) s).wbPending = s.wbPending := rfl
@[simp] theorem dpol_upd_scrubPos (s : State) (v : DramPol) : (applyUpd (.dpol v) s).scrubPos = s.scrubPos := rfl
@[simp] theorem dpol_upd_refusals (s : State) (v : DramPol) : (applyUpd (.dpol v) s).refusals = s.refusals := rfl
@[simp] theorem dpol_upd_firstRefusal (s : State) (v : DramPol) : (applyUpd (.dpol v) s).firstRefusal = s.firstRefusal := rfl
@[simp] theorem dpol_upd_boxQueue (s : State) (v : DramPol) : (applyUpd (.dpol v) s).boxQueue = s.boxQueue := rfl
@[simp] theorem dpol_upd_boxRun (s : State) (v : DramPol) : (applyUpd (.dpol v) s).boxRun = s.boxRun := rfl
@[simp] theorem dpol_upd_kvs (s : State) (v : DramPol) : (applyUpd (.dpol v) s).kvs = s.kvs := rfl
@[simp] theorem dpol_upd_parts (s : State) (v : DramPol) : (applyUpd (.dpol v) s).parts = s.parts := rfl
@[simp] theorem dpol_upd_dmas (s : State) (v : DramPol) : (applyUpd (.dpol v) s).dmas = s.dmas := rfl
@[simp] theorem dpol_upd_regReqs (s : State) (v : DramPol) : (applyUpd (.dpol v) s).regReqs = s.regReqs := rfl
@[simp] theorem dpol_upd_regPorts (s : State) (v : DramPol) : (applyUpd (.dpol v) s).regPorts = s.regPorts := rfl
@[simp] theorem dpol_upd_subchs (s : State) (v : DramPol) : (applyUpd (.dpol v) s).subchs = s.subchs := rfl
@[simp] theorem dpol_upd_trackers (s : State) (v : DramPol) : (applyUpd (.dpol v) s).trackers = s.trackers := rfl
@[simp] theorem dpol_upd_throttles (s : State) (v : DramPol) : (applyUpd (.dpol v) s).throttles = s.throttles := rfl
@[simp] theorem dpol_upd_errRing (s : State) (v : DramPol) : (applyUpd (.dpol v) s).errRing = s.errRing := rfl
@[simp] theorem dpol_upd_errRingOvf (s : State) (v : DramPol) : (applyUpd (.dpol v) s).errRingOvf = s.errRingOvf := rfl
@[simp] theorem dpol_upd_patrolLine (s : State) (v : DramPol) : (applyUpd (.dpol v) s).patrolLine = s.patrolLine := rfl
@[simp] theorem dpol_upd_retTimes (s : State) (v : DramPol) : (applyUpd (.dpol v) s).retTimes = s.retTimes := rfl
@[simp] theorem dpol_upd_retired (s : State) (v : DramPol) : (applyUpd (.dpol v) s).retired = s.retired := rfl
@[simp] theorem dpol_upd_dramSeq (s : State) (v : DramPol) : (applyUpd (.dpol v) s).dramSeq = s.dramSeq := rfl
@[simp] theorem dpol_upd_trn (s : State) (v : DramPol) : (applyUpd (.dpol v) s).trn = s.trn := rfl
@[simp] theorem dpol_upd_dqsAdj (s : State) (v : DramPol) : (applyUpd (.dpol v) s).dqsAdj = s.dqsAdj := rfl
@[simp] theorem dpol_upd_dpol (s : State) (v : DramPol) : (applyUpd (.dpol v) s).dpol = v := rfl
@[simp] theorem dpol_upd_idleAt (s : State) (v : DramPol) : (applyUpd (.dpol v) s).idleAt = s.idleAt := rfl
@[simp] theorem dpol_upd_fitted (s : State) (v : DramPol) : (applyUpd (.dpol v) s).fitted = s.fitted := rfl
@[simp] theorem dpol_upd_faultMsgs (s : State) (v : DramPol) : (applyUpd (.dpol v) s).faultMsgs = s.faultMsgs := rfl
@[simp] theorem dpol_upd_out (s : State) (v : DramPol) : (applyUpd (.dpol v) s).out = s.out := rfl
@[simp] theorem dpol_upd_lastRead (s : State) (v : DramPol) : (applyUpd (.dpol v) s).lastRead = s.lastRead := rfl
@[simp] theorem dpol_upd_fwd (s : State) (v : DramPol) : (applyUpd (.dpol v) s).fwd = s.fwd := rfl
@[simp] theorem dpol_upd_ethTx (s : State) (v : DramPol) : (applyUpd (.dpol v) s).ethTx = s.ethTx := rfl
@[simp] theorem dpol_upd_ethHeadAt (s : State) (v : DramPol) : (applyUpd (.dpol v) s).ethHeadAt = s.ethHeadAt := rfl
@[simp] theorem dpol_upd_canTx (s : State) (v : DramPol) : (applyUpd (.dpol v) s).canTx = s.canTx := rfl
@[simp] theorem dpol_upd_pcieOut (s : State) (v : DramPol) : (applyUpd (.dpol v) s).pcieOut = s.pcieOut := rfl
@[simp] theorem dpol_upd_pcieCfgRd (s : State) (v : DramPol) : (applyUpd (.dpol v) s).pcieCfgRd = s.pcieCfgRd := rfl
@[simp] theorem dpol_upd_msix (s : State) (v : DramPol) : (applyUpd (.dpol v) s).msix = s.msix := rfl
@[simp] theorem dpol_upd_ancs (s : State) (v : DramPol) : (applyUpd (.dpol v) s).ancs = s.ancs := rfl
@[simp] theorem dpol_upd_trajArea (s : State) (v : DramPol) : (applyUpd (.dpol v) s).trajArea = s.trajArea := rfl
@[simp] theorem dpol_upd_lidarIn (s : State) (v : DramPol) : (applyUpd (.dpol v) s).lidarIn = s.lidarIn := rfl
@[simp] theorem dpol_upd_wheelIn (s : State) (v : DramPol) : (applyUpd (.dpol v) s).wheelIn = s.wheelIn := rfl
@[simp] theorem dpol_upd_spiStepBusy (s : State) (v : DramPol) : (applyUpd (.dpol v) s).spiStepBusy = s.spiStepBusy := rfl
@[simp] theorem dpol_upd_spiRec (s : State) (v : DramPol) : (applyUpd (.dpol v) s).spiRec = s.spiRec := rfl
@[simp] theorem dpol_upd_spiStepCfg (s : State) (v : DramPol) : (applyUpd (.dpol v) s).spiStepCfg = s.spiStepCfg := rfl
@[simp] theorem dpol_upd_ctxs (s : State) (v : DramPol) : (applyUpd (.dpol v) s).ctxs = s.ctxs := rfl
@[simp] theorem dpol_upd_fsyOmit (s : State) (v : DramPol) : (applyUpd (.dpol v) s).fsyOmit = s.fsyOmit := rfl
@[simp] theorem dpol_upd_fsyPulsed (s : State) (v : DramPol) : (applyUpd (.dpol v) s).fsyPulsed = s.fsyPulsed := rfl
@[simp] theorem dpol_upd_supTasks (s : State) (v : DramPol) : (applyUpd (.dpol v) s).supTasks = s.supTasks := rfl
@[simp] theorem dpol_upd_fus (s : State) (v : DramPol) : (applyUpd (.dpol v) s).fus = s.fus := rfl
@[simp] theorem dpol_upd_fcons (s : State) (v : DramPol) : (applyUpd (.dpol v) s).fcons = s.fcons := rfl
@[simp] theorem dpol_upd_shadow (s : State) (v : DramPol) : (applyUpd (.dpol v) s).shadow = s.shadow := rfl
@[simp] theorem dpol_upd_trv (s : State) (v : DramPol) : (applyUpd (.dpol v) s).trv = s.trv := rfl
@[simp] theorem dpol_upd_tlayers (s : State) (v : DramPol) : (applyUpd (.dpol v) s).tlayers = s.tlayers := rfl
@[simp] theorem dpol_upd_jobFaults (s : State) (v : DramPol) : (applyUpd (.dpol v) s).jobFaults = s.jobFaults := rfl
@[simp] theorem dpol_upd_unitLast (s : State) (v : DramPol) : (applyUpd (.dpol v) s).unitLast = s.unitLast := rfl
@[simp] theorem dpol_upd_unitRst (s : State) (v : DramPol) : (applyUpd (.dpol v) s).unitRst = s.unitRst := rfl
@[simp] theorem dpol_upd_xlink (s : State) (v : DramPol) : (applyUpd (.dpol v) s).xlink = s.xlink := rfl
@[simp] theorem dpol_upd_trace (s : State) (v : DramPol) : (applyUpd (.dpol v) s).trace = s.trace := rfl
@[simp] theorem dpol_upd_progs (s : State) (v : DramPol) : (applyUpd (.dpol v) s).progs = s.progs := rfl
@[simp] theorem dpol_upd_rails (s : State) (v : DramPol) : (applyUpd (.dpol v) s).rails = s.rails := rfl
@[simp] theorem dpol_upd_thm (s : State) (v : DramPol) : (applyUpd (.dpol v) s).thm = s.thm := rfl
@[simp] theorem dpol_upd_bnd (s : State) (v : DramPol) : (applyUpd (.dpol v) s).bnd = s.bnd := rfl
@[simp] theorem dpol_upd_thmTrip (s : State) (v : DramPol) : (applyUpd (.dpol v) s).thmTrip = s.thmTrip := rfl
@[simp] theorem dpol_upd_flash (s : State) (v : DramPol) : (applyUpd (.dpol v) s).flash = s.flash := rfl
@[simp] theorem dpol_upd_slots (s : State) (v : DramPol) : (applyUpd (.dpol v) s).slots = s.slots := rfl
@[simp] theorem dpol_upd_stores (s : State) (v : DramPol) : (applyUpd (.dpol v) s).stores = s.stores := rfl
@[simp] theorem dpol_upd_ids (s : State) (v : DramPol) : (applyUpd (.dpol v) s).ids = s.ids := rfl
@[simp] theorem dpol_upd_boot (s : State) (v : DramPol) : (applyUpd (.dpol v) s).boot = s.boot := rfl
@[simp] theorem dpol_upd_load (s : State) (v : DramPol) : (applyUpd (.dpol v) s).load = s.load := rfl
@[simp] theorem dpol_upd_flt (s : State) (v : DramPol) : (applyUpd (.dpol v) s).flt = s.flt := rfl
@[simp] theorem dpol_upd_mon (s : State) (v : DramPol) : (applyUpd (.dpol v) s).mon = s.mon := rfl
@[simp] theorem idleAt_upd_pending (s : State) (k : Nat) (v : Nat) : (applyUpd (.idleAt k v) s).pending = s.pending := rfl
@[simp] theorem idleAt_upd_regs (s : State) (k : Nat) (v : Nat) : (applyUpd (.idleAt k v) s).regs = s.regs := rfl
@[simp] theorem idleAt_upd_mem (s : State) (k : Nat) (v : Nat) : (applyUpd (.idleAt k v) s).mem = s.mem := rfl
@[simp] theorem idleAt_upd_sram (s : State) (k : Nat) (v : Nat) : (applyUpd (.idleAt k v) s).sram = s.sram := rfl
@[simp] theorem idleAt_upd_time (s : State) (k : Nat) (v : Nat) : (applyUpd (.idleAt k v) s).time = s.time := rfl
@[simp] theorem idleAt_upd_timeFrac (s : State) (k : Nat) (v : Nat) : (applyUpd (.idleAt k v) s).timeFrac = s.timeFrac := rfl
@[simp] theorem idleAt_upd_freeCtr (s : State) (k : Nat) (v : Nat) : (applyUpd (.idleAt k v) s).freeCtr = s.freeCtr := rfl
@[simp] theorem idleAt_upd_hiLatch (s : State) (k : Nat) (v : Nat) : (applyUpd (.idleAt k v) s).hiLatch = s.hiLatch := rfl
@[simp] theorem idleAt_upd_timeSet (s : State) (k : Nat) (v : Nat) : (applyUpd (.idleAt k v) s).timeSet = s.timeSet := rfl
@[simp] theorem idleAt_upd_n0 (s : State) (k : Nat) (v : Nat) : (applyUpd (.idleAt k v) s).n0 = s.n0 := rfl
@[simp] theorem idleAt_upd_ticked (s : State) (k : Nat) (v : Nat) : (applyUpd (.idleAt k v) s).ticked = s.ticked := rfl
@[simp] theorem idleAt_upd_peerTickAt (s : State) (k : Nat) (v : Nat) : (applyUpd (.idleAt k v) s).peerTickAt = s.peerTickAt := rfl
@[simp] theorem idleAt_upd_guardPitch (s : State) (k : Nat) (v : Nat) : (applyUpd (.idleAt k v) s).guardPitch = s.guardPitch := rfl
@[simp] theorem idleAt_upd_diePitch (s : State) (k : Nat) (v : Nat) : (applyUpd (.idleAt k v) s).diePitch = s.diePitch := rfl
@[simp] theorem idleAt_upd_resps (s : State) (k : Nat) (v : Nat) : (applyUpd (.idleAt k v) s).resps = s.resps := rfl
@[simp] theorem idleAt_upd_txns (s : State) (k : Nat) (v : Nat) : (applyUpd (.idleAt k v) s).txns = s.txns := rfl
@[simp] theorem idleAt_upd_nextTag (s : State) (k : Nat) (v : Nat) : (applyUpd (.idleAt k v) s).nextTag = s.nextTag := rfl
@[simp] theorem idleAt_upd_lateTags (s : State) (k : Nat) (v : Nat) : (applyUpd (.idleAt k v) s).lateTags = s.lateTags := rfl
@[simp] theorem idleAt_upd_ports (s : State) (k : Nat) (v : Nat) : (applyUpd (.idleAt k v) s).ports = s.ports := rfl
@[simp] theorem idleAt_upd_threads (s : State) (k : Nat) (v : Nat) : (applyUpd (.idleAt k v) s).threads = s.threads := rfl
@[simp] theorem idleAt_upd_cores (s : State) (k : Nat) (v : Nat) : (applyUpd (.idleAt k v) s).cores = s.cores := rfl
@[simp] theorem idleAt_upd_engines (s : State) (k : Nat) (v : Nat) : (applyUpd (.idleAt k v) s).engines = s.engines := rfl
@[simp] theorem idleAt_upd_held (s : State) (k : Nat) (v : Nat) : (applyUpd (.idleAt k v) s).held = s.held := rfl
@[simp] theorem idleAt_upd_watches (s : State) (k : Nat) (v : Nat) : (applyUpd (.idleAt k v) s).watches = s.watches := rfl
@[simp] theorem idleAt_upd_watchMsgs (s : State) (k : Nat) (v : Nat) : (applyUpd (.idleAt k v) s).watchMsgs = s.watchMsgs := rfl
@[simp] theorem idleAt_upd_bankHeld (s : State) (k : Nat) (v : Nat) : (applyUpd (.idleAt k v) s).bankHeld = s.bankHeld := rfl
@[simp] theorem idleAt_upd_bankTarget (s : State) (k : Nat) (v : Nat) : (applyUpd (.idleAt k v) s).bankTarget = s.bankTarget := rfl
@[simp] theorem idleAt_upd_ecc (s : State) (k : Nat) (v : Nat) : (applyUpd (.idleAt k v) s).ecc = s.ecc := rfl
@[simp] theorem idleAt_upd_lineEcc (s : State) (k : Nat) (v : Nat) : (applyUpd (.idleAt k v) s).lineEcc = s.lineEcc := rfl
@[simp] theorem idleAt_upd_wbPending (s : State) (k : Nat) (v : Nat) : (applyUpd (.idleAt k v) s).wbPending = s.wbPending := rfl
@[simp] theorem idleAt_upd_scrubPos (s : State) (k : Nat) (v : Nat) : (applyUpd (.idleAt k v) s).scrubPos = s.scrubPos := rfl
@[simp] theorem idleAt_upd_refusals (s : State) (k : Nat) (v : Nat) : (applyUpd (.idleAt k v) s).refusals = s.refusals := rfl
@[simp] theorem idleAt_upd_firstRefusal (s : State) (k : Nat) (v : Nat) : (applyUpd (.idleAt k v) s).firstRefusal = s.firstRefusal := rfl
@[simp] theorem idleAt_upd_boxQueue (s : State) (k : Nat) (v : Nat) : (applyUpd (.idleAt k v) s).boxQueue = s.boxQueue := rfl
@[simp] theorem idleAt_upd_boxRun (s : State) (k : Nat) (v : Nat) : (applyUpd (.idleAt k v) s).boxRun = s.boxRun := rfl
@[simp] theorem idleAt_upd_kvs (s : State) (k : Nat) (v : Nat) : (applyUpd (.idleAt k v) s).kvs = s.kvs := rfl
@[simp] theorem idleAt_upd_parts (s : State) (k : Nat) (v : Nat) : (applyUpd (.idleAt k v) s).parts = s.parts := rfl
@[simp] theorem idleAt_upd_dmas (s : State) (k : Nat) (v : Nat) : (applyUpd (.idleAt k v) s).dmas = s.dmas := rfl
@[simp] theorem idleAt_upd_regReqs (s : State) (k : Nat) (v : Nat) : (applyUpd (.idleAt k v) s).regReqs = s.regReqs := rfl
@[simp] theorem idleAt_upd_regPorts (s : State) (k : Nat) (v : Nat) : (applyUpd (.idleAt k v) s).regPorts = s.regPorts := rfl
@[simp] theorem idleAt_upd_subchs (s : State) (k : Nat) (v : Nat) : (applyUpd (.idleAt k v) s).subchs = s.subchs := rfl
@[simp] theorem idleAt_upd_trackers (s : State) (k : Nat) (v : Nat) : (applyUpd (.idleAt k v) s).trackers = s.trackers := rfl
@[simp] theorem idleAt_upd_throttles (s : State) (k : Nat) (v : Nat) : (applyUpd (.idleAt k v) s).throttles = s.throttles := rfl
@[simp] theorem idleAt_upd_errRing (s : State) (k : Nat) (v : Nat) : (applyUpd (.idleAt k v) s).errRing = s.errRing := rfl
@[simp] theorem idleAt_upd_errRingOvf (s : State) (k : Nat) (v : Nat) : (applyUpd (.idleAt k v) s).errRingOvf = s.errRingOvf := rfl
@[simp] theorem idleAt_upd_patrolLine (s : State) (k : Nat) (v : Nat) : (applyUpd (.idleAt k v) s).patrolLine = s.patrolLine := rfl
@[simp] theorem idleAt_upd_retTimes (s : State) (k : Nat) (v : Nat) : (applyUpd (.idleAt k v) s).retTimes = s.retTimes := rfl
@[simp] theorem idleAt_upd_retired (s : State) (k : Nat) (v : Nat) : (applyUpd (.idleAt k v) s).retired = s.retired := rfl
@[simp] theorem idleAt_upd_dramSeq (s : State) (k : Nat) (v : Nat) : (applyUpd (.idleAt k v) s).dramSeq = s.dramSeq := rfl
@[simp] theorem idleAt_upd_trn (s : State) (k : Nat) (v : Nat) : (applyUpd (.idleAt k v) s).trn = s.trn := rfl
@[simp] theorem idleAt_upd_dqsAdj (s : State) (k : Nat) (v : Nat) : (applyUpd (.idleAt k v) s).dqsAdj = s.dqsAdj := rfl
@[simp] theorem idleAt_upd_dpol (s : State) (k : Nat) (v : Nat) : (applyUpd (.idleAt k v) s).dpol = s.dpol := rfl
@[simp] theorem idleAt_upd_idleAt (s : State) (k : Nat) (v : Nat) : (applyUpd (.idleAt k v) s).idleAt = tabSet zeroNat s.idleAt k v := rfl
@[simp] theorem idleAt_upd_fitted (s : State) (k : Nat) (v : Nat) : (applyUpd (.idleAt k v) s).fitted = s.fitted := rfl
@[simp] theorem idleAt_upd_faultMsgs (s : State) (k : Nat) (v : Nat) : (applyUpd (.idleAt k v) s).faultMsgs = s.faultMsgs := rfl
@[simp] theorem idleAt_upd_out (s : State) (k : Nat) (v : Nat) : (applyUpd (.idleAt k v) s).out = s.out := rfl
@[simp] theorem idleAt_upd_lastRead (s : State) (k : Nat) (v : Nat) : (applyUpd (.idleAt k v) s).lastRead = s.lastRead := rfl
@[simp] theorem idleAt_upd_fwd (s : State) (k : Nat) (v : Nat) : (applyUpd (.idleAt k v) s).fwd = s.fwd := rfl
@[simp] theorem idleAt_upd_ethTx (s : State) (k : Nat) (v : Nat) : (applyUpd (.idleAt k v) s).ethTx = s.ethTx := rfl
@[simp] theorem idleAt_upd_ethHeadAt (s : State) (k : Nat) (v : Nat) : (applyUpd (.idleAt k v) s).ethHeadAt = s.ethHeadAt := rfl
@[simp] theorem idleAt_upd_canTx (s : State) (k : Nat) (v : Nat) : (applyUpd (.idleAt k v) s).canTx = s.canTx := rfl
@[simp] theorem idleAt_upd_pcieOut (s : State) (k : Nat) (v : Nat) : (applyUpd (.idleAt k v) s).pcieOut = s.pcieOut := rfl
@[simp] theorem idleAt_upd_pcieCfgRd (s : State) (k : Nat) (v : Nat) : (applyUpd (.idleAt k v) s).pcieCfgRd = s.pcieCfgRd := rfl
@[simp] theorem idleAt_upd_msix (s : State) (k : Nat) (v : Nat) : (applyUpd (.idleAt k v) s).msix = s.msix := rfl
@[simp] theorem idleAt_upd_ancs (s : State) (k : Nat) (v : Nat) : (applyUpd (.idleAt k v) s).ancs = s.ancs := rfl
@[simp] theorem idleAt_upd_trajArea (s : State) (k : Nat) (v : Nat) : (applyUpd (.idleAt k v) s).trajArea = s.trajArea := rfl
@[simp] theorem idleAt_upd_lidarIn (s : State) (k : Nat) (v : Nat) : (applyUpd (.idleAt k v) s).lidarIn = s.lidarIn := rfl
@[simp] theorem idleAt_upd_wheelIn (s : State) (k : Nat) (v : Nat) : (applyUpd (.idleAt k v) s).wheelIn = s.wheelIn := rfl
@[simp] theorem idleAt_upd_spiStepBusy (s : State) (k : Nat) (v : Nat) : (applyUpd (.idleAt k v) s).spiStepBusy = s.spiStepBusy := rfl
@[simp] theorem idleAt_upd_spiRec (s : State) (k : Nat) (v : Nat) : (applyUpd (.idleAt k v) s).spiRec = s.spiRec := rfl
@[simp] theorem idleAt_upd_spiStepCfg (s : State) (k : Nat) (v : Nat) : (applyUpd (.idleAt k v) s).spiStepCfg = s.spiStepCfg := rfl
@[simp] theorem idleAt_upd_ctxs (s : State) (k : Nat) (v : Nat) : (applyUpd (.idleAt k v) s).ctxs = s.ctxs := rfl
@[simp] theorem idleAt_upd_fsyOmit (s : State) (k : Nat) (v : Nat) : (applyUpd (.idleAt k v) s).fsyOmit = s.fsyOmit := rfl
@[simp] theorem idleAt_upd_fsyPulsed (s : State) (k : Nat) (v : Nat) : (applyUpd (.idleAt k v) s).fsyPulsed = s.fsyPulsed := rfl
@[simp] theorem idleAt_upd_supTasks (s : State) (k : Nat) (v : Nat) : (applyUpd (.idleAt k v) s).supTasks = s.supTasks := rfl
@[simp] theorem idleAt_upd_fus (s : State) (k : Nat) (v : Nat) : (applyUpd (.idleAt k v) s).fus = s.fus := rfl
@[simp] theorem idleAt_upd_fcons (s : State) (k : Nat) (v : Nat) : (applyUpd (.idleAt k v) s).fcons = s.fcons := rfl
@[simp] theorem idleAt_upd_shadow (s : State) (k : Nat) (v : Nat) : (applyUpd (.idleAt k v) s).shadow = s.shadow := rfl
@[simp] theorem idleAt_upd_trv (s : State) (k : Nat) (v : Nat) : (applyUpd (.idleAt k v) s).trv = s.trv := rfl
@[simp] theorem idleAt_upd_tlayers (s : State) (k : Nat) (v : Nat) : (applyUpd (.idleAt k v) s).tlayers = s.tlayers := rfl
@[simp] theorem idleAt_upd_jobFaults (s : State) (k : Nat) (v : Nat) : (applyUpd (.idleAt k v) s).jobFaults = s.jobFaults := rfl
@[simp] theorem idleAt_upd_unitLast (s : State) (k : Nat) (v : Nat) : (applyUpd (.idleAt k v) s).unitLast = s.unitLast := rfl
@[simp] theorem idleAt_upd_unitRst (s : State) (k : Nat) (v : Nat) : (applyUpd (.idleAt k v) s).unitRst = s.unitRst := rfl
@[simp] theorem idleAt_upd_xlink (s : State) (k : Nat) (v : Nat) : (applyUpd (.idleAt k v) s).xlink = s.xlink := rfl
@[simp] theorem idleAt_upd_trace (s : State) (k : Nat) (v : Nat) : (applyUpd (.idleAt k v) s).trace = s.trace := rfl
@[simp] theorem idleAt_upd_progs (s : State) (k : Nat) (v : Nat) : (applyUpd (.idleAt k v) s).progs = s.progs := rfl
@[simp] theorem idleAt_upd_rails (s : State) (k : Nat) (v : Nat) : (applyUpd (.idleAt k v) s).rails = s.rails := rfl
@[simp] theorem idleAt_upd_thm (s : State) (k : Nat) (v : Nat) : (applyUpd (.idleAt k v) s).thm = s.thm := rfl
@[simp] theorem idleAt_upd_bnd (s : State) (k : Nat) (v : Nat) : (applyUpd (.idleAt k v) s).bnd = s.bnd := rfl
@[simp] theorem idleAt_upd_thmTrip (s : State) (k : Nat) (v : Nat) : (applyUpd (.idleAt k v) s).thmTrip = s.thmTrip := rfl
@[simp] theorem idleAt_upd_flash (s : State) (k : Nat) (v : Nat) : (applyUpd (.idleAt k v) s).flash = s.flash := rfl
@[simp] theorem idleAt_upd_slots (s : State) (k : Nat) (v : Nat) : (applyUpd (.idleAt k v) s).slots = s.slots := rfl
@[simp] theorem idleAt_upd_stores (s : State) (k : Nat) (v : Nat) : (applyUpd (.idleAt k v) s).stores = s.stores := rfl
@[simp] theorem idleAt_upd_ids (s : State) (k : Nat) (v : Nat) : (applyUpd (.idleAt k v) s).ids = s.ids := rfl
@[simp] theorem idleAt_upd_boot (s : State) (k : Nat) (v : Nat) : (applyUpd (.idleAt k v) s).boot = s.boot := rfl
@[simp] theorem idleAt_upd_load (s : State) (k : Nat) (v : Nat) : (applyUpd (.idleAt k v) s).load = s.load := rfl
@[simp] theorem idleAt_upd_flt (s : State) (k : Nat) (v : Nat) : (applyUpd (.idleAt k v) s).flt = s.flt := rfl
@[simp] theorem idleAt_upd_mon (s : State) (k : Nat) (v : Nat) : (applyUpd (.idleAt k v) s).mon = s.mon := rfl
@[simp] theorem fitted_upd_pending (s : State) (v : Fitted) : (applyUpd (.fitted v) s).pending = s.pending := rfl
@[simp] theorem fitted_upd_regs (s : State) (v : Fitted) : (applyUpd (.fitted v) s).regs = s.regs := rfl
@[simp] theorem fitted_upd_mem (s : State) (v : Fitted) : (applyUpd (.fitted v) s).mem = s.mem := rfl
@[simp] theorem fitted_upd_sram (s : State) (v : Fitted) : (applyUpd (.fitted v) s).sram = s.sram := rfl
@[simp] theorem fitted_upd_time (s : State) (v : Fitted) : (applyUpd (.fitted v) s).time = s.time := rfl
@[simp] theorem fitted_upd_timeFrac (s : State) (v : Fitted) : (applyUpd (.fitted v) s).timeFrac = s.timeFrac := rfl
@[simp] theorem fitted_upd_freeCtr (s : State) (v : Fitted) : (applyUpd (.fitted v) s).freeCtr = s.freeCtr := rfl
@[simp] theorem fitted_upd_hiLatch (s : State) (v : Fitted) : (applyUpd (.fitted v) s).hiLatch = s.hiLatch := rfl
@[simp] theorem fitted_upd_timeSet (s : State) (v : Fitted) : (applyUpd (.fitted v) s).timeSet = s.timeSet := rfl
@[simp] theorem fitted_upd_n0 (s : State) (v : Fitted) : (applyUpd (.fitted v) s).n0 = s.n0 := rfl
@[simp] theorem fitted_upd_ticked (s : State) (v : Fitted) : (applyUpd (.fitted v) s).ticked = s.ticked := rfl
@[simp] theorem fitted_upd_peerTickAt (s : State) (v : Fitted) : (applyUpd (.fitted v) s).peerTickAt = s.peerTickAt := rfl
@[simp] theorem fitted_upd_guardPitch (s : State) (v : Fitted) : (applyUpd (.fitted v) s).guardPitch = s.guardPitch := rfl
@[simp] theorem fitted_upd_diePitch (s : State) (v : Fitted) : (applyUpd (.fitted v) s).diePitch = s.diePitch := rfl
@[simp] theorem fitted_upd_resps (s : State) (v : Fitted) : (applyUpd (.fitted v) s).resps = s.resps := rfl
@[simp] theorem fitted_upd_txns (s : State) (v : Fitted) : (applyUpd (.fitted v) s).txns = s.txns := rfl
@[simp] theorem fitted_upd_nextTag (s : State) (v : Fitted) : (applyUpd (.fitted v) s).nextTag = s.nextTag := rfl
@[simp] theorem fitted_upd_lateTags (s : State) (v : Fitted) : (applyUpd (.fitted v) s).lateTags = s.lateTags := rfl
@[simp] theorem fitted_upd_ports (s : State) (v : Fitted) : (applyUpd (.fitted v) s).ports = s.ports := rfl
@[simp] theorem fitted_upd_threads (s : State) (v : Fitted) : (applyUpd (.fitted v) s).threads = s.threads := rfl
@[simp] theorem fitted_upd_cores (s : State) (v : Fitted) : (applyUpd (.fitted v) s).cores = s.cores := rfl
@[simp] theorem fitted_upd_engines (s : State) (v : Fitted) : (applyUpd (.fitted v) s).engines = s.engines := rfl
@[simp] theorem fitted_upd_held (s : State) (v : Fitted) : (applyUpd (.fitted v) s).held = s.held := rfl
@[simp] theorem fitted_upd_watches (s : State) (v : Fitted) : (applyUpd (.fitted v) s).watches = s.watches := rfl
@[simp] theorem fitted_upd_watchMsgs (s : State) (v : Fitted) : (applyUpd (.fitted v) s).watchMsgs = s.watchMsgs := rfl
@[simp] theorem fitted_upd_bankHeld (s : State) (v : Fitted) : (applyUpd (.fitted v) s).bankHeld = s.bankHeld := rfl
@[simp] theorem fitted_upd_bankTarget (s : State) (v : Fitted) : (applyUpd (.fitted v) s).bankTarget = s.bankTarget := rfl
@[simp] theorem fitted_upd_ecc (s : State) (v : Fitted) : (applyUpd (.fitted v) s).ecc = s.ecc := rfl
@[simp] theorem fitted_upd_lineEcc (s : State) (v : Fitted) : (applyUpd (.fitted v) s).lineEcc = s.lineEcc := rfl
@[simp] theorem fitted_upd_wbPending (s : State) (v : Fitted) : (applyUpd (.fitted v) s).wbPending = s.wbPending := rfl
@[simp] theorem fitted_upd_scrubPos (s : State) (v : Fitted) : (applyUpd (.fitted v) s).scrubPos = s.scrubPos := rfl
@[simp] theorem fitted_upd_refusals (s : State) (v : Fitted) : (applyUpd (.fitted v) s).refusals = s.refusals := rfl
@[simp] theorem fitted_upd_firstRefusal (s : State) (v : Fitted) : (applyUpd (.fitted v) s).firstRefusal = s.firstRefusal := rfl
@[simp] theorem fitted_upd_boxQueue (s : State) (v : Fitted) : (applyUpd (.fitted v) s).boxQueue = s.boxQueue := rfl
@[simp] theorem fitted_upd_boxRun (s : State) (v : Fitted) : (applyUpd (.fitted v) s).boxRun = s.boxRun := rfl
@[simp] theorem fitted_upd_kvs (s : State) (v : Fitted) : (applyUpd (.fitted v) s).kvs = s.kvs := rfl
@[simp] theorem fitted_upd_parts (s : State) (v : Fitted) : (applyUpd (.fitted v) s).parts = s.parts := rfl
@[simp] theorem fitted_upd_dmas (s : State) (v : Fitted) : (applyUpd (.fitted v) s).dmas = s.dmas := rfl
@[simp] theorem fitted_upd_regReqs (s : State) (v : Fitted) : (applyUpd (.fitted v) s).regReqs = s.regReqs := rfl
@[simp] theorem fitted_upd_regPorts (s : State) (v : Fitted) : (applyUpd (.fitted v) s).regPorts = s.regPorts := rfl
@[simp] theorem fitted_upd_subchs (s : State) (v : Fitted) : (applyUpd (.fitted v) s).subchs = s.subchs := rfl
@[simp] theorem fitted_upd_trackers (s : State) (v : Fitted) : (applyUpd (.fitted v) s).trackers = s.trackers := rfl
@[simp] theorem fitted_upd_throttles (s : State) (v : Fitted) : (applyUpd (.fitted v) s).throttles = s.throttles := rfl
@[simp] theorem fitted_upd_errRing (s : State) (v : Fitted) : (applyUpd (.fitted v) s).errRing = s.errRing := rfl
@[simp] theorem fitted_upd_errRingOvf (s : State) (v : Fitted) : (applyUpd (.fitted v) s).errRingOvf = s.errRingOvf := rfl
@[simp] theorem fitted_upd_patrolLine (s : State) (v : Fitted) : (applyUpd (.fitted v) s).patrolLine = s.patrolLine := rfl
@[simp] theorem fitted_upd_retTimes (s : State) (v : Fitted) : (applyUpd (.fitted v) s).retTimes = s.retTimes := rfl
@[simp] theorem fitted_upd_retired (s : State) (v : Fitted) : (applyUpd (.fitted v) s).retired = s.retired := rfl
@[simp] theorem fitted_upd_dramSeq (s : State) (v : Fitted) : (applyUpd (.fitted v) s).dramSeq = s.dramSeq := rfl
@[simp] theorem fitted_upd_trn (s : State) (v : Fitted) : (applyUpd (.fitted v) s).trn = s.trn := rfl
@[simp] theorem fitted_upd_dqsAdj (s : State) (v : Fitted) : (applyUpd (.fitted v) s).dqsAdj = s.dqsAdj := rfl
@[simp] theorem fitted_upd_dpol (s : State) (v : Fitted) : (applyUpd (.fitted v) s).dpol = s.dpol := rfl
@[simp] theorem fitted_upd_idleAt (s : State) (v : Fitted) : (applyUpd (.fitted v) s).idleAt = s.idleAt := rfl
@[simp] theorem fitted_upd_fitted (s : State) (v : Fitted) : (applyUpd (.fitted v) s).fitted = v := rfl
@[simp] theorem fitted_upd_faultMsgs (s : State) (v : Fitted) : (applyUpd (.fitted v) s).faultMsgs = s.faultMsgs := rfl
@[simp] theorem fitted_upd_out (s : State) (v : Fitted) : (applyUpd (.fitted v) s).out = s.out := rfl
@[simp] theorem fitted_upd_lastRead (s : State) (v : Fitted) : (applyUpd (.fitted v) s).lastRead = s.lastRead := rfl
@[simp] theorem fitted_upd_fwd (s : State) (v : Fitted) : (applyUpd (.fitted v) s).fwd = s.fwd := rfl
@[simp] theorem fitted_upd_ethTx (s : State) (v : Fitted) : (applyUpd (.fitted v) s).ethTx = s.ethTx := rfl
@[simp] theorem fitted_upd_ethHeadAt (s : State) (v : Fitted) : (applyUpd (.fitted v) s).ethHeadAt = s.ethHeadAt := rfl
@[simp] theorem fitted_upd_canTx (s : State) (v : Fitted) : (applyUpd (.fitted v) s).canTx = s.canTx := rfl
@[simp] theorem fitted_upd_pcieOut (s : State) (v : Fitted) : (applyUpd (.fitted v) s).pcieOut = s.pcieOut := rfl
@[simp] theorem fitted_upd_pcieCfgRd (s : State) (v : Fitted) : (applyUpd (.fitted v) s).pcieCfgRd = s.pcieCfgRd := rfl
@[simp] theorem fitted_upd_msix (s : State) (v : Fitted) : (applyUpd (.fitted v) s).msix = s.msix := rfl
@[simp] theorem fitted_upd_ancs (s : State) (v : Fitted) : (applyUpd (.fitted v) s).ancs = s.ancs := rfl
@[simp] theorem fitted_upd_trajArea (s : State) (v : Fitted) : (applyUpd (.fitted v) s).trajArea = s.trajArea := rfl
@[simp] theorem fitted_upd_lidarIn (s : State) (v : Fitted) : (applyUpd (.fitted v) s).lidarIn = s.lidarIn := rfl
@[simp] theorem fitted_upd_wheelIn (s : State) (v : Fitted) : (applyUpd (.fitted v) s).wheelIn = s.wheelIn := rfl
@[simp] theorem fitted_upd_spiStepBusy (s : State) (v : Fitted) : (applyUpd (.fitted v) s).spiStepBusy = s.spiStepBusy := rfl
@[simp] theorem fitted_upd_spiRec (s : State) (v : Fitted) : (applyUpd (.fitted v) s).spiRec = s.spiRec := rfl
@[simp] theorem fitted_upd_spiStepCfg (s : State) (v : Fitted) : (applyUpd (.fitted v) s).spiStepCfg = s.spiStepCfg := rfl
@[simp] theorem fitted_upd_ctxs (s : State) (v : Fitted) : (applyUpd (.fitted v) s).ctxs = s.ctxs := rfl
@[simp] theorem fitted_upd_fsyOmit (s : State) (v : Fitted) : (applyUpd (.fitted v) s).fsyOmit = s.fsyOmit := rfl
@[simp] theorem fitted_upd_fsyPulsed (s : State) (v : Fitted) : (applyUpd (.fitted v) s).fsyPulsed = s.fsyPulsed := rfl
@[simp] theorem fitted_upd_supTasks (s : State) (v : Fitted) : (applyUpd (.fitted v) s).supTasks = s.supTasks := rfl
@[simp] theorem fitted_upd_fus (s : State) (v : Fitted) : (applyUpd (.fitted v) s).fus = s.fus := rfl
@[simp] theorem fitted_upd_fcons (s : State) (v : Fitted) : (applyUpd (.fitted v) s).fcons = s.fcons := rfl
@[simp] theorem fitted_upd_shadow (s : State) (v : Fitted) : (applyUpd (.fitted v) s).shadow = s.shadow := rfl
@[simp] theorem fitted_upd_trv (s : State) (v : Fitted) : (applyUpd (.fitted v) s).trv = s.trv := rfl
@[simp] theorem fitted_upd_tlayers (s : State) (v : Fitted) : (applyUpd (.fitted v) s).tlayers = s.tlayers := rfl
@[simp] theorem fitted_upd_jobFaults (s : State) (v : Fitted) : (applyUpd (.fitted v) s).jobFaults = s.jobFaults := rfl
@[simp] theorem fitted_upd_unitLast (s : State) (v : Fitted) : (applyUpd (.fitted v) s).unitLast = s.unitLast := rfl
@[simp] theorem fitted_upd_unitRst (s : State) (v : Fitted) : (applyUpd (.fitted v) s).unitRst = s.unitRst := rfl
@[simp] theorem fitted_upd_xlink (s : State) (v : Fitted) : (applyUpd (.fitted v) s).xlink = s.xlink := rfl
@[simp] theorem fitted_upd_trace (s : State) (v : Fitted) : (applyUpd (.fitted v) s).trace = s.trace := rfl
@[simp] theorem fitted_upd_progs (s : State) (v : Fitted) : (applyUpd (.fitted v) s).progs = s.progs := rfl
@[simp] theorem fitted_upd_rails (s : State) (v : Fitted) : (applyUpd (.fitted v) s).rails = s.rails := rfl
@[simp] theorem fitted_upd_thm (s : State) (v : Fitted) : (applyUpd (.fitted v) s).thm = s.thm := rfl
@[simp] theorem fitted_upd_bnd (s : State) (v : Fitted) : (applyUpd (.fitted v) s).bnd = s.bnd := rfl
@[simp] theorem fitted_upd_thmTrip (s : State) (v : Fitted) : (applyUpd (.fitted v) s).thmTrip = s.thmTrip := rfl
@[simp] theorem fitted_upd_flash (s : State) (v : Fitted) : (applyUpd (.fitted v) s).flash = s.flash := rfl
@[simp] theorem fitted_upd_slots (s : State) (v : Fitted) : (applyUpd (.fitted v) s).slots = s.slots := rfl
@[simp] theorem fitted_upd_stores (s : State) (v : Fitted) : (applyUpd (.fitted v) s).stores = s.stores := rfl
@[simp] theorem fitted_upd_ids (s : State) (v : Fitted) : (applyUpd (.fitted v) s).ids = s.ids := rfl
@[simp] theorem fitted_upd_boot (s : State) (v : Fitted) : (applyUpd (.fitted v) s).boot = s.boot := rfl
@[simp] theorem fitted_upd_load (s : State) (v : Fitted) : (applyUpd (.fitted v) s).load = s.load := rfl
@[simp] theorem fitted_upd_flt (s : State) (v : Fitted) : (applyUpd (.fitted v) s).flt = s.flt := rfl
@[simp] theorem fitted_upd_mon (s : State) (v : Fitted) : (applyUpd (.fitted v) s).mon = s.mon := rfl
@[simp] theorem faultMsgs_upd_pending (s : State) (v : List (Nat × Nat)) : (applyUpd (.faultMsgs v) s).pending = s.pending := rfl
@[simp] theorem faultMsgs_upd_regs (s : State) (v : List (Nat × Nat)) : (applyUpd (.faultMsgs v) s).regs = s.regs := rfl
@[simp] theorem faultMsgs_upd_mem (s : State) (v : List (Nat × Nat)) : (applyUpd (.faultMsgs v) s).mem = s.mem := rfl
@[simp] theorem faultMsgs_upd_sram (s : State) (v : List (Nat × Nat)) : (applyUpd (.faultMsgs v) s).sram = s.sram := rfl
@[simp] theorem faultMsgs_upd_time (s : State) (v : List (Nat × Nat)) : (applyUpd (.faultMsgs v) s).time = s.time := rfl
@[simp] theorem faultMsgs_upd_timeFrac (s : State) (v : List (Nat × Nat)) : (applyUpd (.faultMsgs v) s).timeFrac = s.timeFrac := rfl
@[simp] theorem faultMsgs_upd_freeCtr (s : State) (v : List (Nat × Nat)) : (applyUpd (.faultMsgs v) s).freeCtr = s.freeCtr := rfl
@[simp] theorem faultMsgs_upd_hiLatch (s : State) (v : List (Nat × Nat)) : (applyUpd (.faultMsgs v) s).hiLatch = s.hiLatch := rfl
@[simp] theorem faultMsgs_upd_timeSet (s : State) (v : List (Nat × Nat)) : (applyUpd (.faultMsgs v) s).timeSet = s.timeSet := rfl
@[simp] theorem faultMsgs_upd_n0 (s : State) (v : List (Nat × Nat)) : (applyUpd (.faultMsgs v) s).n0 = s.n0 := rfl
@[simp] theorem faultMsgs_upd_ticked (s : State) (v : List (Nat × Nat)) : (applyUpd (.faultMsgs v) s).ticked = s.ticked := rfl
@[simp] theorem faultMsgs_upd_peerTickAt (s : State) (v : List (Nat × Nat)) : (applyUpd (.faultMsgs v) s).peerTickAt = s.peerTickAt := rfl
@[simp] theorem faultMsgs_upd_guardPitch (s : State) (v : List (Nat × Nat)) : (applyUpd (.faultMsgs v) s).guardPitch = s.guardPitch := rfl
@[simp] theorem faultMsgs_upd_diePitch (s : State) (v : List (Nat × Nat)) : (applyUpd (.faultMsgs v) s).diePitch = s.diePitch := rfl
@[simp] theorem faultMsgs_upd_resps (s : State) (v : List (Nat × Nat)) : (applyUpd (.faultMsgs v) s).resps = s.resps := rfl
@[simp] theorem faultMsgs_upd_txns (s : State) (v : List (Nat × Nat)) : (applyUpd (.faultMsgs v) s).txns = s.txns := rfl
@[simp] theorem faultMsgs_upd_nextTag (s : State) (v : List (Nat × Nat)) : (applyUpd (.faultMsgs v) s).nextTag = s.nextTag := rfl
@[simp] theorem faultMsgs_upd_lateTags (s : State) (v : List (Nat × Nat)) : (applyUpd (.faultMsgs v) s).lateTags = s.lateTags := rfl
@[simp] theorem faultMsgs_upd_ports (s : State) (v : List (Nat × Nat)) : (applyUpd (.faultMsgs v) s).ports = s.ports := rfl
@[simp] theorem faultMsgs_upd_threads (s : State) (v : List (Nat × Nat)) : (applyUpd (.faultMsgs v) s).threads = s.threads := rfl
@[simp] theorem faultMsgs_upd_cores (s : State) (v : List (Nat × Nat)) : (applyUpd (.faultMsgs v) s).cores = s.cores := rfl
@[simp] theorem faultMsgs_upd_engines (s : State) (v : List (Nat × Nat)) : (applyUpd (.faultMsgs v) s).engines = s.engines := rfl
@[simp] theorem faultMsgs_upd_held (s : State) (v : List (Nat × Nat)) : (applyUpd (.faultMsgs v) s).held = s.held := rfl
@[simp] theorem faultMsgs_upd_watches (s : State) (v : List (Nat × Nat)) : (applyUpd (.faultMsgs v) s).watches = s.watches := rfl
@[simp] theorem faultMsgs_upd_watchMsgs (s : State) (v : List (Nat × Nat)) : (applyUpd (.faultMsgs v) s).watchMsgs = s.watchMsgs := rfl
@[simp] theorem faultMsgs_upd_bankHeld (s : State) (v : List (Nat × Nat)) : (applyUpd (.faultMsgs v) s).bankHeld = s.bankHeld := rfl
@[simp] theorem faultMsgs_upd_bankTarget (s : State) (v : List (Nat × Nat)) : (applyUpd (.faultMsgs v) s).bankTarget = s.bankTarget := rfl
@[simp] theorem faultMsgs_upd_ecc (s : State) (v : List (Nat × Nat)) : (applyUpd (.faultMsgs v) s).ecc = s.ecc := rfl
@[simp] theorem faultMsgs_upd_lineEcc (s : State) (v : List (Nat × Nat)) : (applyUpd (.faultMsgs v) s).lineEcc = s.lineEcc := rfl
@[simp] theorem faultMsgs_upd_wbPending (s : State) (v : List (Nat × Nat)) : (applyUpd (.faultMsgs v) s).wbPending = s.wbPending := rfl
@[simp] theorem faultMsgs_upd_scrubPos (s : State) (v : List (Nat × Nat)) : (applyUpd (.faultMsgs v) s).scrubPos = s.scrubPos := rfl
@[simp] theorem faultMsgs_upd_refusals (s : State) (v : List (Nat × Nat)) : (applyUpd (.faultMsgs v) s).refusals = s.refusals := rfl
@[simp] theorem faultMsgs_upd_firstRefusal (s : State) (v : List (Nat × Nat)) : (applyUpd (.faultMsgs v) s).firstRefusal = s.firstRefusal := rfl
@[simp] theorem faultMsgs_upd_boxQueue (s : State) (v : List (Nat × Nat)) : (applyUpd (.faultMsgs v) s).boxQueue = s.boxQueue := rfl
@[simp] theorem faultMsgs_upd_boxRun (s : State) (v : List (Nat × Nat)) : (applyUpd (.faultMsgs v) s).boxRun = s.boxRun := rfl
@[simp] theorem faultMsgs_upd_kvs (s : State) (v : List (Nat × Nat)) : (applyUpd (.faultMsgs v) s).kvs = s.kvs := rfl
@[simp] theorem faultMsgs_upd_parts (s : State) (v : List (Nat × Nat)) : (applyUpd (.faultMsgs v) s).parts = s.parts := rfl
@[simp] theorem faultMsgs_upd_dmas (s : State) (v : List (Nat × Nat)) : (applyUpd (.faultMsgs v) s).dmas = s.dmas := rfl
@[simp] theorem faultMsgs_upd_regReqs (s : State) (v : List (Nat × Nat)) : (applyUpd (.faultMsgs v) s).regReqs = s.regReqs := rfl
@[simp] theorem faultMsgs_upd_regPorts (s : State) (v : List (Nat × Nat)) : (applyUpd (.faultMsgs v) s).regPorts = s.regPorts := rfl
@[simp] theorem faultMsgs_upd_subchs (s : State) (v : List (Nat × Nat)) : (applyUpd (.faultMsgs v) s).subchs = s.subchs := rfl
@[simp] theorem faultMsgs_upd_trackers (s : State) (v : List (Nat × Nat)) : (applyUpd (.faultMsgs v) s).trackers = s.trackers := rfl
@[simp] theorem faultMsgs_upd_throttles (s : State) (v : List (Nat × Nat)) : (applyUpd (.faultMsgs v) s).throttles = s.throttles := rfl
@[simp] theorem faultMsgs_upd_errRing (s : State) (v : List (Nat × Nat)) : (applyUpd (.faultMsgs v) s).errRing = s.errRing := rfl
@[simp] theorem faultMsgs_upd_errRingOvf (s : State) (v : List (Nat × Nat)) : (applyUpd (.faultMsgs v) s).errRingOvf = s.errRingOvf := rfl
@[simp] theorem faultMsgs_upd_patrolLine (s : State) (v : List (Nat × Nat)) : (applyUpd (.faultMsgs v) s).patrolLine = s.patrolLine := rfl
@[simp] theorem faultMsgs_upd_retTimes (s : State) (v : List (Nat × Nat)) : (applyUpd (.faultMsgs v) s).retTimes = s.retTimes := rfl
@[simp] theorem faultMsgs_upd_retired (s : State) (v : List (Nat × Nat)) : (applyUpd (.faultMsgs v) s).retired = s.retired := rfl
@[simp] theorem faultMsgs_upd_dramSeq (s : State) (v : List (Nat × Nat)) : (applyUpd (.faultMsgs v) s).dramSeq = s.dramSeq := rfl
@[simp] theorem faultMsgs_upd_trn (s : State) (v : List (Nat × Nat)) : (applyUpd (.faultMsgs v) s).trn = s.trn := rfl
@[simp] theorem faultMsgs_upd_dqsAdj (s : State) (v : List (Nat × Nat)) : (applyUpd (.faultMsgs v) s).dqsAdj = s.dqsAdj := rfl
@[simp] theorem faultMsgs_upd_dpol (s : State) (v : List (Nat × Nat)) : (applyUpd (.faultMsgs v) s).dpol = s.dpol := rfl
@[simp] theorem faultMsgs_upd_idleAt (s : State) (v : List (Nat × Nat)) : (applyUpd (.faultMsgs v) s).idleAt = s.idleAt := rfl
@[simp] theorem faultMsgs_upd_fitted (s : State) (v : List (Nat × Nat)) : (applyUpd (.faultMsgs v) s).fitted = s.fitted := rfl
@[simp] theorem faultMsgs_upd_faultMsgs (s : State) (v : List (Nat × Nat)) : (applyUpd (.faultMsgs v) s).faultMsgs = v := rfl
@[simp] theorem faultMsgs_upd_out (s : State) (v : List (Nat × Nat)) : (applyUpd (.faultMsgs v) s).out = s.out := rfl
@[simp] theorem faultMsgs_upd_lastRead (s : State) (v : List (Nat × Nat)) : (applyUpd (.faultMsgs v) s).lastRead = s.lastRead := rfl
@[simp] theorem faultMsgs_upd_fwd (s : State) (v : List (Nat × Nat)) : (applyUpd (.faultMsgs v) s).fwd = s.fwd := rfl
@[simp] theorem faultMsgs_upd_ethTx (s : State) (v : List (Nat × Nat)) : (applyUpd (.faultMsgs v) s).ethTx = s.ethTx := rfl
@[simp] theorem faultMsgs_upd_ethHeadAt (s : State) (v : List (Nat × Nat)) : (applyUpd (.faultMsgs v) s).ethHeadAt = s.ethHeadAt := rfl
@[simp] theorem faultMsgs_upd_canTx (s : State) (v : List (Nat × Nat)) : (applyUpd (.faultMsgs v) s).canTx = s.canTx := rfl
@[simp] theorem faultMsgs_upd_pcieOut (s : State) (v : List (Nat × Nat)) : (applyUpd (.faultMsgs v) s).pcieOut = s.pcieOut := rfl
@[simp] theorem faultMsgs_upd_pcieCfgRd (s : State) (v : List (Nat × Nat)) : (applyUpd (.faultMsgs v) s).pcieCfgRd = s.pcieCfgRd := rfl
@[simp] theorem faultMsgs_upd_msix (s : State) (v : List (Nat × Nat)) : (applyUpd (.faultMsgs v) s).msix = s.msix := rfl
@[simp] theorem faultMsgs_upd_ancs (s : State) (v : List (Nat × Nat)) : (applyUpd (.faultMsgs v) s).ancs = s.ancs := rfl
@[simp] theorem faultMsgs_upd_trajArea (s : State) (v : List (Nat × Nat)) : (applyUpd (.faultMsgs v) s).trajArea = s.trajArea := rfl
@[simp] theorem faultMsgs_upd_lidarIn (s : State) (v : List (Nat × Nat)) : (applyUpd (.faultMsgs v) s).lidarIn = s.lidarIn := rfl
@[simp] theorem faultMsgs_upd_wheelIn (s : State) (v : List (Nat × Nat)) : (applyUpd (.faultMsgs v) s).wheelIn = s.wheelIn := rfl
@[simp] theorem faultMsgs_upd_spiStepBusy (s : State) (v : List (Nat × Nat)) : (applyUpd (.faultMsgs v) s).spiStepBusy = s.spiStepBusy := rfl
@[simp] theorem faultMsgs_upd_spiRec (s : State) (v : List (Nat × Nat)) : (applyUpd (.faultMsgs v) s).spiRec = s.spiRec := rfl
@[simp] theorem faultMsgs_upd_spiStepCfg (s : State) (v : List (Nat × Nat)) : (applyUpd (.faultMsgs v) s).spiStepCfg = s.spiStepCfg := rfl
@[simp] theorem faultMsgs_upd_ctxs (s : State) (v : List (Nat × Nat)) : (applyUpd (.faultMsgs v) s).ctxs = s.ctxs := rfl
@[simp] theorem faultMsgs_upd_fsyOmit (s : State) (v : List (Nat × Nat)) : (applyUpd (.faultMsgs v) s).fsyOmit = s.fsyOmit := rfl
@[simp] theorem faultMsgs_upd_fsyPulsed (s : State) (v : List (Nat × Nat)) : (applyUpd (.faultMsgs v) s).fsyPulsed = s.fsyPulsed := rfl
@[simp] theorem faultMsgs_upd_supTasks (s : State) (v : List (Nat × Nat)) : (applyUpd (.faultMsgs v) s).supTasks = s.supTasks := rfl
@[simp] theorem faultMsgs_upd_fus (s : State) (v : List (Nat × Nat)) : (applyUpd (.faultMsgs v) s).fus = s.fus := rfl
@[simp] theorem faultMsgs_upd_fcons (s : State) (v : List (Nat × Nat)) : (applyUpd (.faultMsgs v) s).fcons = s.fcons := rfl
@[simp] theorem faultMsgs_upd_shadow (s : State) (v : List (Nat × Nat)) : (applyUpd (.faultMsgs v) s).shadow = s.shadow := rfl
@[simp] theorem faultMsgs_upd_trv (s : State) (v : List (Nat × Nat)) : (applyUpd (.faultMsgs v) s).trv = s.trv := rfl
@[simp] theorem faultMsgs_upd_tlayers (s : State) (v : List (Nat × Nat)) : (applyUpd (.faultMsgs v) s).tlayers = s.tlayers := rfl
@[simp] theorem faultMsgs_upd_jobFaults (s : State) (v : List (Nat × Nat)) : (applyUpd (.faultMsgs v) s).jobFaults = s.jobFaults := rfl
@[simp] theorem faultMsgs_upd_unitLast (s : State) (v : List (Nat × Nat)) : (applyUpd (.faultMsgs v) s).unitLast = s.unitLast := rfl
@[simp] theorem faultMsgs_upd_unitRst (s : State) (v : List (Nat × Nat)) : (applyUpd (.faultMsgs v) s).unitRst = s.unitRst := rfl
@[simp] theorem faultMsgs_upd_xlink (s : State) (v : List (Nat × Nat)) : (applyUpd (.faultMsgs v) s).xlink = s.xlink := rfl
@[simp] theorem faultMsgs_upd_trace (s : State) (v : List (Nat × Nat)) : (applyUpd (.faultMsgs v) s).trace = s.trace := rfl
@[simp] theorem faultMsgs_upd_progs (s : State) (v : List (Nat × Nat)) : (applyUpd (.faultMsgs v) s).progs = s.progs := rfl
@[simp] theorem faultMsgs_upd_rails (s : State) (v : List (Nat × Nat)) : (applyUpd (.faultMsgs v) s).rails = s.rails := rfl
@[simp] theorem faultMsgs_upd_thm (s : State) (v : List (Nat × Nat)) : (applyUpd (.faultMsgs v) s).thm = s.thm := rfl
@[simp] theorem faultMsgs_upd_bnd (s : State) (v : List (Nat × Nat)) : (applyUpd (.faultMsgs v) s).bnd = s.bnd := rfl
@[simp] theorem faultMsgs_upd_thmTrip (s : State) (v : List (Nat × Nat)) : (applyUpd (.faultMsgs v) s).thmTrip = s.thmTrip := rfl
@[simp] theorem faultMsgs_upd_flash (s : State) (v : List (Nat × Nat)) : (applyUpd (.faultMsgs v) s).flash = s.flash := rfl
@[simp] theorem faultMsgs_upd_slots (s : State) (v : List (Nat × Nat)) : (applyUpd (.faultMsgs v) s).slots = s.slots := rfl
@[simp] theorem faultMsgs_upd_stores (s : State) (v : List (Nat × Nat)) : (applyUpd (.faultMsgs v) s).stores = s.stores := rfl
@[simp] theorem faultMsgs_upd_ids (s : State) (v : List (Nat × Nat)) : (applyUpd (.faultMsgs v) s).ids = s.ids := rfl
@[simp] theorem faultMsgs_upd_boot (s : State) (v : List (Nat × Nat)) : (applyUpd (.faultMsgs v) s).boot = s.boot := rfl
@[simp] theorem faultMsgs_upd_load (s : State) (v : List (Nat × Nat)) : (applyUpd (.faultMsgs v) s).load = s.load := rfl
@[simp] theorem faultMsgs_upd_flt (s : State) (v : List (Nat × Nat)) : (applyUpd (.faultMsgs v) s).flt = s.flt := rfl
@[simp] theorem faultMsgs_upd_mon (s : State) (v : List (Nat × Nat)) : (applyUpd (.faultMsgs v) s).mon = s.mon := rfl
@[simp] theorem out_upd_pending (s : State) (v : List Out) : (applyUpd (.out v) s).pending = s.pending := rfl
@[simp] theorem out_upd_regs (s : State) (v : List Out) : (applyUpd (.out v) s).regs = s.regs := rfl
@[simp] theorem out_upd_mem (s : State) (v : List Out) : (applyUpd (.out v) s).mem = s.mem := rfl
@[simp] theorem out_upd_sram (s : State) (v : List Out) : (applyUpd (.out v) s).sram = s.sram := rfl
@[simp] theorem out_upd_time (s : State) (v : List Out) : (applyUpd (.out v) s).time = s.time := rfl
@[simp] theorem out_upd_timeFrac (s : State) (v : List Out) : (applyUpd (.out v) s).timeFrac = s.timeFrac := rfl
@[simp] theorem out_upd_freeCtr (s : State) (v : List Out) : (applyUpd (.out v) s).freeCtr = s.freeCtr := rfl
@[simp] theorem out_upd_hiLatch (s : State) (v : List Out) : (applyUpd (.out v) s).hiLatch = s.hiLatch := rfl
@[simp] theorem out_upd_timeSet (s : State) (v : List Out) : (applyUpd (.out v) s).timeSet = s.timeSet := rfl
@[simp] theorem out_upd_n0 (s : State) (v : List Out) : (applyUpd (.out v) s).n0 = s.n0 := rfl
@[simp] theorem out_upd_ticked (s : State) (v : List Out) : (applyUpd (.out v) s).ticked = s.ticked := rfl
@[simp] theorem out_upd_peerTickAt (s : State) (v : List Out) : (applyUpd (.out v) s).peerTickAt = s.peerTickAt := rfl
@[simp] theorem out_upd_guardPitch (s : State) (v : List Out) : (applyUpd (.out v) s).guardPitch = s.guardPitch := rfl
@[simp] theorem out_upd_diePitch (s : State) (v : List Out) : (applyUpd (.out v) s).diePitch = s.diePitch := rfl
@[simp] theorem out_upd_resps (s : State) (v : List Out) : (applyUpd (.out v) s).resps = s.resps := rfl
@[simp] theorem out_upd_txns (s : State) (v : List Out) : (applyUpd (.out v) s).txns = s.txns := rfl
@[simp] theorem out_upd_nextTag (s : State) (v : List Out) : (applyUpd (.out v) s).nextTag = s.nextTag := rfl
@[simp] theorem out_upd_lateTags (s : State) (v : List Out) : (applyUpd (.out v) s).lateTags = s.lateTags := rfl
@[simp] theorem out_upd_ports (s : State) (v : List Out) : (applyUpd (.out v) s).ports = s.ports := rfl
@[simp] theorem out_upd_threads (s : State) (v : List Out) : (applyUpd (.out v) s).threads = s.threads := rfl
@[simp] theorem out_upd_cores (s : State) (v : List Out) : (applyUpd (.out v) s).cores = s.cores := rfl
@[simp] theorem out_upd_engines (s : State) (v : List Out) : (applyUpd (.out v) s).engines = s.engines := rfl
@[simp] theorem out_upd_held (s : State) (v : List Out) : (applyUpd (.out v) s).held = s.held := rfl
@[simp] theorem out_upd_watches (s : State) (v : List Out) : (applyUpd (.out v) s).watches = s.watches := rfl
@[simp] theorem out_upd_watchMsgs (s : State) (v : List Out) : (applyUpd (.out v) s).watchMsgs = s.watchMsgs := rfl
@[simp] theorem out_upd_bankHeld (s : State) (v : List Out) : (applyUpd (.out v) s).bankHeld = s.bankHeld := rfl
@[simp] theorem out_upd_bankTarget (s : State) (v : List Out) : (applyUpd (.out v) s).bankTarget = s.bankTarget := rfl
@[simp] theorem out_upd_ecc (s : State) (v : List Out) : (applyUpd (.out v) s).ecc = s.ecc := rfl
@[simp] theorem out_upd_lineEcc (s : State) (v : List Out) : (applyUpd (.out v) s).lineEcc = s.lineEcc := rfl
@[simp] theorem out_upd_wbPending (s : State) (v : List Out) : (applyUpd (.out v) s).wbPending = s.wbPending := rfl
@[simp] theorem out_upd_scrubPos (s : State) (v : List Out) : (applyUpd (.out v) s).scrubPos = s.scrubPos := rfl
@[simp] theorem out_upd_refusals (s : State) (v : List Out) : (applyUpd (.out v) s).refusals = s.refusals := rfl
@[simp] theorem out_upd_firstRefusal (s : State) (v : List Out) : (applyUpd (.out v) s).firstRefusal = s.firstRefusal := rfl
@[simp] theorem out_upd_boxQueue (s : State) (v : List Out) : (applyUpd (.out v) s).boxQueue = s.boxQueue := rfl
@[simp] theorem out_upd_boxRun (s : State) (v : List Out) : (applyUpd (.out v) s).boxRun = s.boxRun := rfl
@[simp] theorem out_upd_kvs (s : State) (v : List Out) : (applyUpd (.out v) s).kvs = s.kvs := rfl
@[simp] theorem out_upd_parts (s : State) (v : List Out) : (applyUpd (.out v) s).parts = s.parts := rfl
@[simp] theorem out_upd_dmas (s : State) (v : List Out) : (applyUpd (.out v) s).dmas = s.dmas := rfl
@[simp] theorem out_upd_regReqs (s : State) (v : List Out) : (applyUpd (.out v) s).regReqs = s.regReqs := rfl
@[simp] theorem out_upd_regPorts (s : State) (v : List Out) : (applyUpd (.out v) s).regPorts = s.regPorts := rfl
@[simp] theorem out_upd_subchs (s : State) (v : List Out) : (applyUpd (.out v) s).subchs = s.subchs := rfl
@[simp] theorem out_upd_trackers (s : State) (v : List Out) : (applyUpd (.out v) s).trackers = s.trackers := rfl
@[simp] theorem out_upd_throttles (s : State) (v : List Out) : (applyUpd (.out v) s).throttles = s.throttles := rfl
@[simp] theorem out_upd_errRing (s : State) (v : List Out) : (applyUpd (.out v) s).errRing = s.errRing := rfl
@[simp] theorem out_upd_errRingOvf (s : State) (v : List Out) : (applyUpd (.out v) s).errRingOvf = s.errRingOvf := rfl
@[simp] theorem out_upd_patrolLine (s : State) (v : List Out) : (applyUpd (.out v) s).patrolLine = s.patrolLine := rfl
@[simp] theorem out_upd_retTimes (s : State) (v : List Out) : (applyUpd (.out v) s).retTimes = s.retTimes := rfl
@[simp] theorem out_upd_retired (s : State) (v : List Out) : (applyUpd (.out v) s).retired = s.retired := rfl
@[simp] theorem out_upd_dramSeq (s : State) (v : List Out) : (applyUpd (.out v) s).dramSeq = s.dramSeq := rfl
@[simp] theorem out_upd_trn (s : State) (v : List Out) : (applyUpd (.out v) s).trn = s.trn := rfl
@[simp] theorem out_upd_dqsAdj (s : State) (v : List Out) : (applyUpd (.out v) s).dqsAdj = s.dqsAdj := rfl
@[simp] theorem out_upd_dpol (s : State) (v : List Out) : (applyUpd (.out v) s).dpol = s.dpol := rfl
@[simp] theorem out_upd_idleAt (s : State) (v : List Out) : (applyUpd (.out v) s).idleAt = s.idleAt := rfl
@[simp] theorem out_upd_fitted (s : State) (v : List Out) : (applyUpd (.out v) s).fitted = s.fitted := rfl
@[simp] theorem out_upd_faultMsgs (s : State) (v : List Out) : (applyUpd (.out v) s).faultMsgs = s.faultMsgs := rfl
@[simp] theorem out_upd_out (s : State) (v : List Out) : (applyUpd (.out v) s).out = v := rfl
@[simp] theorem out_upd_lastRead (s : State) (v : List Out) : (applyUpd (.out v) s).lastRead = s.lastRead := rfl
@[simp] theorem out_upd_fwd (s : State) (v : List Out) : (applyUpd (.out v) s).fwd = s.fwd := rfl
@[simp] theorem out_upd_ethTx (s : State) (v : List Out) : (applyUpd (.out v) s).ethTx = s.ethTx := rfl
@[simp] theorem out_upd_ethHeadAt (s : State) (v : List Out) : (applyUpd (.out v) s).ethHeadAt = s.ethHeadAt := rfl
@[simp] theorem out_upd_canTx (s : State) (v : List Out) : (applyUpd (.out v) s).canTx = s.canTx := rfl
@[simp] theorem out_upd_pcieOut (s : State) (v : List Out) : (applyUpd (.out v) s).pcieOut = s.pcieOut := rfl
@[simp] theorem out_upd_pcieCfgRd (s : State) (v : List Out) : (applyUpd (.out v) s).pcieCfgRd = s.pcieCfgRd := rfl
@[simp] theorem out_upd_msix (s : State) (v : List Out) : (applyUpd (.out v) s).msix = s.msix := rfl
@[simp] theorem out_upd_ancs (s : State) (v : List Out) : (applyUpd (.out v) s).ancs = s.ancs := rfl
@[simp] theorem out_upd_trajArea (s : State) (v : List Out) : (applyUpd (.out v) s).trajArea = s.trajArea := rfl
@[simp] theorem out_upd_lidarIn (s : State) (v : List Out) : (applyUpd (.out v) s).lidarIn = s.lidarIn := rfl
@[simp] theorem out_upd_wheelIn (s : State) (v : List Out) : (applyUpd (.out v) s).wheelIn = s.wheelIn := rfl
@[simp] theorem out_upd_spiStepBusy (s : State) (v : List Out) : (applyUpd (.out v) s).spiStepBusy = s.spiStepBusy := rfl
@[simp] theorem out_upd_spiRec (s : State) (v : List Out) : (applyUpd (.out v) s).spiRec = s.spiRec := rfl
@[simp] theorem out_upd_spiStepCfg (s : State) (v : List Out) : (applyUpd (.out v) s).spiStepCfg = s.spiStepCfg := rfl
@[simp] theorem out_upd_ctxs (s : State) (v : List Out) : (applyUpd (.out v) s).ctxs = s.ctxs := rfl
@[simp] theorem out_upd_fsyOmit (s : State) (v : List Out) : (applyUpd (.out v) s).fsyOmit = s.fsyOmit := rfl
@[simp] theorem out_upd_fsyPulsed (s : State) (v : List Out) : (applyUpd (.out v) s).fsyPulsed = s.fsyPulsed := rfl
@[simp] theorem out_upd_supTasks (s : State) (v : List Out) : (applyUpd (.out v) s).supTasks = s.supTasks := rfl
@[simp] theorem out_upd_fus (s : State) (v : List Out) : (applyUpd (.out v) s).fus = s.fus := rfl
@[simp] theorem out_upd_fcons (s : State) (v : List Out) : (applyUpd (.out v) s).fcons = s.fcons := rfl
@[simp] theorem out_upd_shadow (s : State) (v : List Out) : (applyUpd (.out v) s).shadow = s.shadow := rfl
@[simp] theorem out_upd_trv (s : State) (v : List Out) : (applyUpd (.out v) s).trv = s.trv := rfl
@[simp] theorem out_upd_tlayers (s : State) (v : List Out) : (applyUpd (.out v) s).tlayers = s.tlayers := rfl
@[simp] theorem out_upd_jobFaults (s : State) (v : List Out) : (applyUpd (.out v) s).jobFaults = s.jobFaults := rfl
@[simp] theorem out_upd_unitLast (s : State) (v : List Out) : (applyUpd (.out v) s).unitLast = s.unitLast := rfl
@[simp] theorem out_upd_unitRst (s : State) (v : List Out) : (applyUpd (.out v) s).unitRst = s.unitRst := rfl
@[simp] theorem out_upd_xlink (s : State) (v : List Out) : (applyUpd (.out v) s).xlink = s.xlink := rfl
@[simp] theorem out_upd_trace (s : State) (v : List Out) : (applyUpd (.out v) s).trace = s.trace := rfl
@[simp] theorem out_upd_progs (s : State) (v : List Out) : (applyUpd (.out v) s).progs = s.progs := rfl
@[simp] theorem out_upd_rails (s : State) (v : List Out) : (applyUpd (.out v) s).rails = s.rails := rfl
@[simp] theorem out_upd_thm (s : State) (v : List Out) : (applyUpd (.out v) s).thm = s.thm := rfl
@[simp] theorem out_upd_bnd (s : State) (v : List Out) : (applyUpd (.out v) s).bnd = s.bnd := rfl
@[simp] theorem out_upd_thmTrip (s : State) (v : List Out) : (applyUpd (.out v) s).thmTrip = s.thmTrip := rfl
@[simp] theorem out_upd_flash (s : State) (v : List Out) : (applyUpd (.out v) s).flash = s.flash := rfl
@[simp] theorem out_upd_slots (s : State) (v : List Out) : (applyUpd (.out v) s).slots = s.slots := rfl
@[simp] theorem out_upd_stores (s : State) (v : List Out) : (applyUpd (.out v) s).stores = s.stores := rfl
@[simp] theorem out_upd_ids (s : State) (v : List Out) : (applyUpd (.out v) s).ids = s.ids := rfl
@[simp] theorem out_upd_boot (s : State) (v : List Out) : (applyUpd (.out v) s).boot = s.boot := rfl
@[simp] theorem out_upd_load (s : State) (v : List Out) : (applyUpd (.out v) s).load = s.load := rfl
@[simp] theorem out_upd_flt (s : State) (v : List Out) : (applyUpd (.out v) s).flt = s.flt := rfl
@[simp] theorem out_upd_mon (s : State) (v : List Out) : (applyUpd (.out v) s).mon = s.mon := rfl
@[simp] theorem lastRead_upd_pending (s : State) (v : Option (Master × Nat × Nat)) : (applyUpd (.lastRead v) s).pending = s.pending := rfl
@[simp] theorem lastRead_upd_regs (s : State) (v : Option (Master × Nat × Nat)) : (applyUpd (.lastRead v) s).regs = s.regs := rfl
@[simp] theorem lastRead_upd_mem (s : State) (v : Option (Master × Nat × Nat)) : (applyUpd (.lastRead v) s).mem = s.mem := rfl
@[simp] theorem lastRead_upd_sram (s : State) (v : Option (Master × Nat × Nat)) : (applyUpd (.lastRead v) s).sram = s.sram := rfl
@[simp] theorem lastRead_upd_time (s : State) (v : Option (Master × Nat × Nat)) : (applyUpd (.lastRead v) s).time = s.time := rfl
@[simp] theorem lastRead_upd_timeFrac (s : State) (v : Option (Master × Nat × Nat)) : (applyUpd (.lastRead v) s).timeFrac = s.timeFrac := rfl
@[simp] theorem lastRead_upd_freeCtr (s : State) (v : Option (Master × Nat × Nat)) : (applyUpd (.lastRead v) s).freeCtr = s.freeCtr := rfl
@[simp] theorem lastRead_upd_hiLatch (s : State) (v : Option (Master × Nat × Nat)) : (applyUpd (.lastRead v) s).hiLatch = s.hiLatch := rfl
@[simp] theorem lastRead_upd_timeSet (s : State) (v : Option (Master × Nat × Nat)) : (applyUpd (.lastRead v) s).timeSet = s.timeSet := rfl
@[simp] theorem lastRead_upd_n0 (s : State) (v : Option (Master × Nat × Nat)) : (applyUpd (.lastRead v) s).n0 = s.n0 := rfl
@[simp] theorem lastRead_upd_ticked (s : State) (v : Option (Master × Nat × Nat)) : (applyUpd (.lastRead v) s).ticked = s.ticked := rfl
@[simp] theorem lastRead_upd_peerTickAt (s : State) (v : Option (Master × Nat × Nat)) : (applyUpd (.lastRead v) s).peerTickAt = s.peerTickAt := rfl
@[simp] theorem lastRead_upd_guardPitch (s : State) (v : Option (Master × Nat × Nat)) : (applyUpd (.lastRead v) s).guardPitch = s.guardPitch := rfl
@[simp] theorem lastRead_upd_diePitch (s : State) (v : Option (Master × Nat × Nat)) : (applyUpd (.lastRead v) s).diePitch = s.diePitch := rfl
@[simp] theorem lastRead_upd_resps (s : State) (v : Option (Master × Nat × Nat)) : (applyUpd (.lastRead v) s).resps = s.resps := rfl
@[simp] theorem lastRead_upd_txns (s : State) (v : Option (Master × Nat × Nat)) : (applyUpd (.lastRead v) s).txns = s.txns := rfl
@[simp] theorem lastRead_upd_nextTag (s : State) (v : Option (Master × Nat × Nat)) : (applyUpd (.lastRead v) s).nextTag = s.nextTag := rfl
@[simp] theorem lastRead_upd_lateTags (s : State) (v : Option (Master × Nat × Nat)) : (applyUpd (.lastRead v) s).lateTags = s.lateTags := rfl
@[simp] theorem lastRead_upd_ports (s : State) (v : Option (Master × Nat × Nat)) : (applyUpd (.lastRead v) s).ports = s.ports := rfl
@[simp] theorem lastRead_upd_threads (s : State) (v : Option (Master × Nat × Nat)) : (applyUpd (.lastRead v) s).threads = s.threads := rfl
@[simp] theorem lastRead_upd_cores (s : State) (v : Option (Master × Nat × Nat)) : (applyUpd (.lastRead v) s).cores = s.cores := rfl
@[simp] theorem lastRead_upd_engines (s : State) (v : Option (Master × Nat × Nat)) : (applyUpd (.lastRead v) s).engines = s.engines := rfl
@[simp] theorem lastRead_upd_held (s : State) (v : Option (Master × Nat × Nat)) : (applyUpd (.lastRead v) s).held = s.held := rfl
@[simp] theorem lastRead_upd_watches (s : State) (v : Option (Master × Nat × Nat)) : (applyUpd (.lastRead v) s).watches = s.watches := rfl
@[simp] theorem lastRead_upd_watchMsgs (s : State) (v : Option (Master × Nat × Nat)) : (applyUpd (.lastRead v) s).watchMsgs = s.watchMsgs := rfl
@[simp] theorem lastRead_upd_bankHeld (s : State) (v : Option (Master × Nat × Nat)) : (applyUpd (.lastRead v) s).bankHeld = s.bankHeld := rfl
@[simp] theorem lastRead_upd_bankTarget (s : State) (v : Option (Master × Nat × Nat)) : (applyUpd (.lastRead v) s).bankTarget = s.bankTarget := rfl
@[simp] theorem lastRead_upd_ecc (s : State) (v : Option (Master × Nat × Nat)) : (applyUpd (.lastRead v) s).ecc = s.ecc := rfl
@[simp] theorem lastRead_upd_lineEcc (s : State) (v : Option (Master × Nat × Nat)) : (applyUpd (.lastRead v) s).lineEcc = s.lineEcc := rfl
@[simp] theorem lastRead_upd_wbPending (s : State) (v : Option (Master × Nat × Nat)) : (applyUpd (.lastRead v) s).wbPending = s.wbPending := rfl
@[simp] theorem lastRead_upd_scrubPos (s : State) (v : Option (Master × Nat × Nat)) : (applyUpd (.lastRead v) s).scrubPos = s.scrubPos := rfl
@[simp] theorem lastRead_upd_refusals (s : State) (v : Option (Master × Nat × Nat)) : (applyUpd (.lastRead v) s).refusals = s.refusals := rfl
@[simp] theorem lastRead_upd_firstRefusal (s : State) (v : Option (Master × Nat × Nat)) : (applyUpd (.lastRead v) s).firstRefusal = s.firstRefusal := rfl
@[simp] theorem lastRead_upd_boxQueue (s : State) (v : Option (Master × Nat × Nat)) : (applyUpd (.lastRead v) s).boxQueue = s.boxQueue := rfl
@[simp] theorem lastRead_upd_boxRun (s : State) (v : Option (Master × Nat × Nat)) : (applyUpd (.lastRead v) s).boxRun = s.boxRun := rfl
@[simp] theorem lastRead_upd_kvs (s : State) (v : Option (Master × Nat × Nat)) : (applyUpd (.lastRead v) s).kvs = s.kvs := rfl
@[simp] theorem lastRead_upd_parts (s : State) (v : Option (Master × Nat × Nat)) : (applyUpd (.lastRead v) s).parts = s.parts := rfl
@[simp] theorem lastRead_upd_dmas (s : State) (v : Option (Master × Nat × Nat)) : (applyUpd (.lastRead v) s).dmas = s.dmas := rfl
@[simp] theorem lastRead_upd_regReqs (s : State) (v : Option (Master × Nat × Nat)) : (applyUpd (.lastRead v) s).regReqs = s.regReqs := rfl
@[simp] theorem lastRead_upd_regPorts (s : State) (v : Option (Master × Nat × Nat)) : (applyUpd (.lastRead v) s).regPorts = s.regPorts := rfl
@[simp] theorem lastRead_upd_subchs (s : State) (v : Option (Master × Nat × Nat)) : (applyUpd (.lastRead v) s).subchs = s.subchs := rfl
@[simp] theorem lastRead_upd_trackers (s : State) (v : Option (Master × Nat × Nat)) : (applyUpd (.lastRead v) s).trackers = s.trackers := rfl
@[simp] theorem lastRead_upd_throttles (s : State) (v : Option (Master × Nat × Nat)) : (applyUpd (.lastRead v) s).throttles = s.throttles := rfl
@[simp] theorem lastRead_upd_errRing (s : State) (v : Option (Master × Nat × Nat)) : (applyUpd (.lastRead v) s).errRing = s.errRing := rfl
@[simp] theorem lastRead_upd_errRingOvf (s : State) (v : Option (Master × Nat × Nat)) : (applyUpd (.lastRead v) s).errRingOvf = s.errRingOvf := rfl
@[simp] theorem lastRead_upd_patrolLine (s : State) (v : Option (Master × Nat × Nat)) : (applyUpd (.lastRead v) s).patrolLine = s.patrolLine := rfl
@[simp] theorem lastRead_upd_retTimes (s : State) (v : Option (Master × Nat × Nat)) : (applyUpd (.lastRead v) s).retTimes = s.retTimes := rfl
@[simp] theorem lastRead_upd_retired (s : State) (v : Option (Master × Nat × Nat)) : (applyUpd (.lastRead v) s).retired = s.retired := rfl
@[simp] theorem lastRead_upd_dramSeq (s : State) (v : Option (Master × Nat × Nat)) : (applyUpd (.lastRead v) s).dramSeq = s.dramSeq := rfl
@[simp] theorem lastRead_upd_trn (s : State) (v : Option (Master × Nat × Nat)) : (applyUpd (.lastRead v) s).trn = s.trn := rfl
@[simp] theorem lastRead_upd_dqsAdj (s : State) (v : Option (Master × Nat × Nat)) : (applyUpd (.lastRead v) s).dqsAdj = s.dqsAdj := rfl
@[simp] theorem lastRead_upd_dpol (s : State) (v : Option (Master × Nat × Nat)) : (applyUpd (.lastRead v) s).dpol = s.dpol := rfl
@[simp] theorem lastRead_upd_idleAt (s : State) (v : Option (Master × Nat × Nat)) : (applyUpd (.lastRead v) s).idleAt = s.idleAt := rfl
@[simp] theorem lastRead_upd_fitted (s : State) (v : Option (Master × Nat × Nat)) : (applyUpd (.lastRead v) s).fitted = s.fitted := rfl
@[simp] theorem lastRead_upd_faultMsgs (s : State) (v : Option (Master × Nat × Nat)) : (applyUpd (.lastRead v) s).faultMsgs = s.faultMsgs := rfl
@[simp] theorem lastRead_upd_out (s : State) (v : Option (Master × Nat × Nat)) : (applyUpd (.lastRead v) s).out = s.out := rfl
@[simp] theorem lastRead_upd_lastRead (s : State) (v : Option (Master × Nat × Nat)) : (applyUpd (.lastRead v) s).lastRead = v := rfl
@[simp] theorem lastRead_upd_fwd (s : State) (v : Option (Master × Nat × Nat)) : (applyUpd (.lastRead v) s).fwd = s.fwd := rfl
@[simp] theorem lastRead_upd_ethTx (s : State) (v : Option (Master × Nat × Nat)) : (applyUpd (.lastRead v) s).ethTx = s.ethTx := rfl
@[simp] theorem lastRead_upd_ethHeadAt (s : State) (v : Option (Master × Nat × Nat)) : (applyUpd (.lastRead v) s).ethHeadAt = s.ethHeadAt := rfl
@[simp] theorem lastRead_upd_canTx (s : State) (v : Option (Master × Nat × Nat)) : (applyUpd (.lastRead v) s).canTx = s.canTx := rfl
@[simp] theorem lastRead_upd_pcieOut (s : State) (v : Option (Master × Nat × Nat)) : (applyUpd (.lastRead v) s).pcieOut = s.pcieOut := rfl
@[simp] theorem lastRead_upd_pcieCfgRd (s : State) (v : Option (Master × Nat × Nat)) : (applyUpd (.lastRead v) s).pcieCfgRd = s.pcieCfgRd := rfl
@[simp] theorem lastRead_upd_msix (s : State) (v : Option (Master × Nat × Nat)) : (applyUpd (.lastRead v) s).msix = s.msix := rfl
@[simp] theorem lastRead_upd_ancs (s : State) (v : Option (Master × Nat × Nat)) : (applyUpd (.lastRead v) s).ancs = s.ancs := rfl
@[simp] theorem lastRead_upd_trajArea (s : State) (v : Option (Master × Nat × Nat)) : (applyUpd (.lastRead v) s).trajArea = s.trajArea := rfl
@[simp] theorem lastRead_upd_lidarIn (s : State) (v : Option (Master × Nat × Nat)) : (applyUpd (.lastRead v) s).lidarIn = s.lidarIn := rfl
@[simp] theorem lastRead_upd_wheelIn (s : State) (v : Option (Master × Nat × Nat)) : (applyUpd (.lastRead v) s).wheelIn = s.wheelIn := rfl
@[simp] theorem lastRead_upd_spiStepBusy (s : State) (v : Option (Master × Nat × Nat)) : (applyUpd (.lastRead v) s).spiStepBusy = s.spiStepBusy := rfl
@[simp] theorem lastRead_upd_spiRec (s : State) (v : Option (Master × Nat × Nat)) : (applyUpd (.lastRead v) s).spiRec = s.spiRec := rfl
@[simp] theorem lastRead_upd_spiStepCfg (s : State) (v : Option (Master × Nat × Nat)) : (applyUpd (.lastRead v) s).spiStepCfg = s.spiStepCfg := rfl
@[simp] theorem lastRead_upd_ctxs (s : State) (v : Option (Master × Nat × Nat)) : (applyUpd (.lastRead v) s).ctxs = s.ctxs := rfl
@[simp] theorem lastRead_upd_fsyOmit (s : State) (v : Option (Master × Nat × Nat)) : (applyUpd (.lastRead v) s).fsyOmit = s.fsyOmit := rfl
@[simp] theorem lastRead_upd_fsyPulsed (s : State) (v : Option (Master × Nat × Nat)) : (applyUpd (.lastRead v) s).fsyPulsed = s.fsyPulsed := rfl
@[simp] theorem lastRead_upd_supTasks (s : State) (v : Option (Master × Nat × Nat)) : (applyUpd (.lastRead v) s).supTasks = s.supTasks := rfl
@[simp] theorem lastRead_upd_fus (s : State) (v : Option (Master × Nat × Nat)) : (applyUpd (.lastRead v) s).fus = s.fus := rfl
@[simp] theorem lastRead_upd_fcons (s : State) (v : Option (Master × Nat × Nat)) : (applyUpd (.lastRead v) s).fcons = s.fcons := rfl
@[simp] theorem lastRead_upd_shadow (s : State) (v : Option (Master × Nat × Nat)) : (applyUpd (.lastRead v) s).shadow = s.shadow := rfl
@[simp] theorem lastRead_upd_trv (s : State) (v : Option (Master × Nat × Nat)) : (applyUpd (.lastRead v) s).trv = s.trv := rfl
@[simp] theorem lastRead_upd_tlayers (s : State) (v : Option (Master × Nat × Nat)) : (applyUpd (.lastRead v) s).tlayers = s.tlayers := rfl
@[simp] theorem lastRead_upd_jobFaults (s : State) (v : Option (Master × Nat × Nat)) : (applyUpd (.lastRead v) s).jobFaults = s.jobFaults := rfl
@[simp] theorem lastRead_upd_unitLast (s : State) (v : Option (Master × Nat × Nat)) : (applyUpd (.lastRead v) s).unitLast = s.unitLast := rfl
@[simp] theorem lastRead_upd_unitRst (s : State) (v : Option (Master × Nat × Nat)) : (applyUpd (.lastRead v) s).unitRst = s.unitRst := rfl
@[simp] theorem lastRead_upd_xlink (s : State) (v : Option (Master × Nat × Nat)) : (applyUpd (.lastRead v) s).xlink = s.xlink := rfl
@[simp] theorem lastRead_upd_trace (s : State) (v : Option (Master × Nat × Nat)) : (applyUpd (.lastRead v) s).trace = s.trace := rfl
@[simp] theorem lastRead_upd_progs (s : State) (v : Option (Master × Nat × Nat)) : (applyUpd (.lastRead v) s).progs = s.progs := rfl
@[simp] theorem lastRead_upd_rails (s : State) (v : Option (Master × Nat × Nat)) : (applyUpd (.lastRead v) s).rails = s.rails := rfl
@[simp] theorem lastRead_upd_thm (s : State) (v : Option (Master × Nat × Nat)) : (applyUpd (.lastRead v) s).thm = s.thm := rfl
@[simp] theorem lastRead_upd_bnd (s : State) (v : Option (Master × Nat × Nat)) : (applyUpd (.lastRead v) s).bnd = s.bnd := rfl
@[simp] theorem lastRead_upd_thmTrip (s : State) (v : Option (Master × Nat × Nat)) : (applyUpd (.lastRead v) s).thmTrip = s.thmTrip := rfl
@[simp] theorem lastRead_upd_flash (s : State) (v : Option (Master × Nat × Nat)) : (applyUpd (.lastRead v) s).flash = s.flash := rfl
@[simp] theorem lastRead_upd_slots (s : State) (v : Option (Master × Nat × Nat)) : (applyUpd (.lastRead v) s).slots = s.slots := rfl
@[simp] theorem lastRead_upd_stores (s : State) (v : Option (Master × Nat × Nat)) : (applyUpd (.lastRead v) s).stores = s.stores := rfl
@[simp] theorem lastRead_upd_ids (s : State) (v : Option (Master × Nat × Nat)) : (applyUpd (.lastRead v) s).ids = s.ids := rfl
@[simp] theorem lastRead_upd_boot (s : State) (v : Option (Master × Nat × Nat)) : (applyUpd (.lastRead v) s).boot = s.boot := rfl
@[simp] theorem lastRead_upd_load (s : State) (v : Option (Master × Nat × Nat)) : (applyUpd (.lastRead v) s).load = s.load := rfl
@[simp] theorem lastRead_upd_flt (s : State) (v : Option (Master × Nat × Nat)) : (applyUpd (.lastRead v) s).flt = s.flt := rfl
@[simp] theorem lastRead_upd_mon (s : State) (v : Option (Master × Nat × Nat)) : (applyUpd (.lastRead v) s).mon = s.mon := rfl
@[simp] theorem fwd_upd_pending (s : State) (v : List FwdMsg) : (applyUpd (.fwd v) s).pending = s.pending := rfl
@[simp] theorem fwd_upd_regs (s : State) (v : List FwdMsg) : (applyUpd (.fwd v) s).regs = s.regs := rfl
@[simp] theorem fwd_upd_mem (s : State) (v : List FwdMsg) : (applyUpd (.fwd v) s).mem = s.mem := rfl
@[simp] theorem fwd_upd_sram (s : State) (v : List FwdMsg) : (applyUpd (.fwd v) s).sram = s.sram := rfl
@[simp] theorem fwd_upd_time (s : State) (v : List FwdMsg) : (applyUpd (.fwd v) s).time = s.time := rfl
@[simp] theorem fwd_upd_timeFrac (s : State) (v : List FwdMsg) : (applyUpd (.fwd v) s).timeFrac = s.timeFrac := rfl
@[simp] theorem fwd_upd_freeCtr (s : State) (v : List FwdMsg) : (applyUpd (.fwd v) s).freeCtr = s.freeCtr := rfl
@[simp] theorem fwd_upd_hiLatch (s : State) (v : List FwdMsg) : (applyUpd (.fwd v) s).hiLatch = s.hiLatch := rfl
@[simp] theorem fwd_upd_timeSet (s : State) (v : List FwdMsg) : (applyUpd (.fwd v) s).timeSet = s.timeSet := rfl
@[simp] theorem fwd_upd_n0 (s : State) (v : List FwdMsg) : (applyUpd (.fwd v) s).n0 = s.n0 := rfl
@[simp] theorem fwd_upd_ticked (s : State) (v : List FwdMsg) : (applyUpd (.fwd v) s).ticked = s.ticked := rfl
@[simp] theorem fwd_upd_peerTickAt (s : State) (v : List FwdMsg) : (applyUpd (.fwd v) s).peerTickAt = s.peerTickAt := rfl
@[simp] theorem fwd_upd_guardPitch (s : State) (v : List FwdMsg) : (applyUpd (.fwd v) s).guardPitch = s.guardPitch := rfl
@[simp] theorem fwd_upd_diePitch (s : State) (v : List FwdMsg) : (applyUpd (.fwd v) s).diePitch = s.diePitch := rfl
@[simp] theorem fwd_upd_resps (s : State) (v : List FwdMsg) : (applyUpd (.fwd v) s).resps = s.resps := rfl
@[simp] theorem fwd_upd_txns (s : State) (v : List FwdMsg) : (applyUpd (.fwd v) s).txns = s.txns := rfl
@[simp] theorem fwd_upd_nextTag (s : State) (v : List FwdMsg) : (applyUpd (.fwd v) s).nextTag = s.nextTag := rfl
@[simp] theorem fwd_upd_lateTags (s : State) (v : List FwdMsg) : (applyUpd (.fwd v) s).lateTags = s.lateTags := rfl
@[simp] theorem fwd_upd_ports (s : State) (v : List FwdMsg) : (applyUpd (.fwd v) s).ports = s.ports := rfl
@[simp] theorem fwd_upd_threads (s : State) (v : List FwdMsg) : (applyUpd (.fwd v) s).threads = s.threads := rfl
@[simp] theorem fwd_upd_cores (s : State) (v : List FwdMsg) : (applyUpd (.fwd v) s).cores = s.cores := rfl
@[simp] theorem fwd_upd_engines (s : State) (v : List FwdMsg) : (applyUpd (.fwd v) s).engines = s.engines := rfl
@[simp] theorem fwd_upd_held (s : State) (v : List FwdMsg) : (applyUpd (.fwd v) s).held = s.held := rfl
@[simp] theorem fwd_upd_watches (s : State) (v : List FwdMsg) : (applyUpd (.fwd v) s).watches = s.watches := rfl
@[simp] theorem fwd_upd_watchMsgs (s : State) (v : List FwdMsg) : (applyUpd (.fwd v) s).watchMsgs = s.watchMsgs := rfl
@[simp] theorem fwd_upd_bankHeld (s : State) (v : List FwdMsg) : (applyUpd (.fwd v) s).bankHeld = s.bankHeld := rfl
@[simp] theorem fwd_upd_bankTarget (s : State) (v : List FwdMsg) : (applyUpd (.fwd v) s).bankTarget = s.bankTarget := rfl
@[simp] theorem fwd_upd_ecc (s : State) (v : List FwdMsg) : (applyUpd (.fwd v) s).ecc = s.ecc := rfl
@[simp] theorem fwd_upd_lineEcc (s : State) (v : List FwdMsg) : (applyUpd (.fwd v) s).lineEcc = s.lineEcc := rfl
@[simp] theorem fwd_upd_wbPending (s : State) (v : List FwdMsg) : (applyUpd (.fwd v) s).wbPending = s.wbPending := rfl
@[simp] theorem fwd_upd_scrubPos (s : State) (v : List FwdMsg) : (applyUpd (.fwd v) s).scrubPos = s.scrubPos := rfl
@[simp] theorem fwd_upd_refusals (s : State) (v : List FwdMsg) : (applyUpd (.fwd v) s).refusals = s.refusals := rfl
@[simp] theorem fwd_upd_firstRefusal (s : State) (v : List FwdMsg) : (applyUpd (.fwd v) s).firstRefusal = s.firstRefusal := rfl
@[simp] theorem fwd_upd_boxQueue (s : State) (v : List FwdMsg) : (applyUpd (.fwd v) s).boxQueue = s.boxQueue := rfl
@[simp] theorem fwd_upd_boxRun (s : State) (v : List FwdMsg) : (applyUpd (.fwd v) s).boxRun = s.boxRun := rfl
@[simp] theorem fwd_upd_kvs (s : State) (v : List FwdMsg) : (applyUpd (.fwd v) s).kvs = s.kvs := rfl
@[simp] theorem fwd_upd_parts (s : State) (v : List FwdMsg) : (applyUpd (.fwd v) s).parts = s.parts := rfl
@[simp] theorem fwd_upd_dmas (s : State) (v : List FwdMsg) : (applyUpd (.fwd v) s).dmas = s.dmas := rfl
@[simp] theorem fwd_upd_regReqs (s : State) (v : List FwdMsg) : (applyUpd (.fwd v) s).regReqs = s.regReqs := rfl
@[simp] theorem fwd_upd_regPorts (s : State) (v : List FwdMsg) : (applyUpd (.fwd v) s).regPorts = s.regPorts := rfl
@[simp] theorem fwd_upd_subchs (s : State) (v : List FwdMsg) : (applyUpd (.fwd v) s).subchs = s.subchs := rfl
@[simp] theorem fwd_upd_trackers (s : State) (v : List FwdMsg) : (applyUpd (.fwd v) s).trackers = s.trackers := rfl
@[simp] theorem fwd_upd_throttles (s : State) (v : List FwdMsg) : (applyUpd (.fwd v) s).throttles = s.throttles := rfl
@[simp] theorem fwd_upd_errRing (s : State) (v : List FwdMsg) : (applyUpd (.fwd v) s).errRing = s.errRing := rfl
@[simp] theorem fwd_upd_errRingOvf (s : State) (v : List FwdMsg) : (applyUpd (.fwd v) s).errRingOvf = s.errRingOvf := rfl
@[simp] theorem fwd_upd_patrolLine (s : State) (v : List FwdMsg) : (applyUpd (.fwd v) s).patrolLine = s.patrolLine := rfl
@[simp] theorem fwd_upd_retTimes (s : State) (v : List FwdMsg) : (applyUpd (.fwd v) s).retTimes = s.retTimes := rfl
@[simp] theorem fwd_upd_retired (s : State) (v : List FwdMsg) : (applyUpd (.fwd v) s).retired = s.retired := rfl
@[simp] theorem fwd_upd_dramSeq (s : State) (v : List FwdMsg) : (applyUpd (.fwd v) s).dramSeq = s.dramSeq := rfl
@[simp] theorem fwd_upd_trn (s : State) (v : List FwdMsg) : (applyUpd (.fwd v) s).trn = s.trn := rfl
@[simp] theorem fwd_upd_dqsAdj (s : State) (v : List FwdMsg) : (applyUpd (.fwd v) s).dqsAdj = s.dqsAdj := rfl
@[simp] theorem fwd_upd_dpol (s : State) (v : List FwdMsg) : (applyUpd (.fwd v) s).dpol = s.dpol := rfl
@[simp] theorem fwd_upd_idleAt (s : State) (v : List FwdMsg) : (applyUpd (.fwd v) s).idleAt = s.idleAt := rfl
@[simp] theorem fwd_upd_fitted (s : State) (v : List FwdMsg) : (applyUpd (.fwd v) s).fitted = s.fitted := rfl
@[simp] theorem fwd_upd_faultMsgs (s : State) (v : List FwdMsg) : (applyUpd (.fwd v) s).faultMsgs = s.faultMsgs := rfl
@[simp] theorem fwd_upd_out (s : State) (v : List FwdMsg) : (applyUpd (.fwd v) s).out = s.out := rfl
@[simp] theorem fwd_upd_lastRead (s : State) (v : List FwdMsg) : (applyUpd (.fwd v) s).lastRead = s.lastRead := rfl
@[simp] theorem fwd_upd_fwd (s : State) (v : List FwdMsg) : (applyUpd (.fwd v) s).fwd = v := rfl
@[simp] theorem fwd_upd_ethTx (s : State) (v : List FwdMsg) : (applyUpd (.fwd v) s).ethTx = s.ethTx := rfl
@[simp] theorem fwd_upd_ethHeadAt (s : State) (v : List FwdMsg) : (applyUpd (.fwd v) s).ethHeadAt = s.ethHeadAt := rfl
@[simp] theorem fwd_upd_canTx (s : State) (v : List FwdMsg) : (applyUpd (.fwd v) s).canTx = s.canTx := rfl
@[simp] theorem fwd_upd_pcieOut (s : State) (v : List FwdMsg) : (applyUpd (.fwd v) s).pcieOut = s.pcieOut := rfl
@[simp] theorem fwd_upd_pcieCfgRd (s : State) (v : List FwdMsg) : (applyUpd (.fwd v) s).pcieCfgRd = s.pcieCfgRd := rfl
@[simp] theorem fwd_upd_msix (s : State) (v : List FwdMsg) : (applyUpd (.fwd v) s).msix = s.msix := rfl
@[simp] theorem fwd_upd_ancs (s : State) (v : List FwdMsg) : (applyUpd (.fwd v) s).ancs = s.ancs := rfl
@[simp] theorem fwd_upd_trajArea (s : State) (v : List FwdMsg) : (applyUpd (.fwd v) s).trajArea = s.trajArea := rfl
@[simp] theorem fwd_upd_lidarIn (s : State) (v : List FwdMsg) : (applyUpd (.fwd v) s).lidarIn = s.lidarIn := rfl
@[simp] theorem fwd_upd_wheelIn (s : State) (v : List FwdMsg) : (applyUpd (.fwd v) s).wheelIn = s.wheelIn := rfl
@[simp] theorem fwd_upd_spiStepBusy (s : State) (v : List FwdMsg) : (applyUpd (.fwd v) s).spiStepBusy = s.spiStepBusy := rfl
@[simp] theorem fwd_upd_spiRec (s : State) (v : List FwdMsg) : (applyUpd (.fwd v) s).spiRec = s.spiRec := rfl
@[simp] theorem fwd_upd_spiStepCfg (s : State) (v : List FwdMsg) : (applyUpd (.fwd v) s).spiStepCfg = s.spiStepCfg := rfl
@[simp] theorem fwd_upd_ctxs (s : State) (v : List FwdMsg) : (applyUpd (.fwd v) s).ctxs = s.ctxs := rfl
@[simp] theorem fwd_upd_fsyOmit (s : State) (v : List FwdMsg) : (applyUpd (.fwd v) s).fsyOmit = s.fsyOmit := rfl
@[simp] theorem fwd_upd_fsyPulsed (s : State) (v : List FwdMsg) : (applyUpd (.fwd v) s).fsyPulsed = s.fsyPulsed := rfl
@[simp] theorem fwd_upd_supTasks (s : State) (v : List FwdMsg) : (applyUpd (.fwd v) s).supTasks = s.supTasks := rfl
@[simp] theorem fwd_upd_fus (s : State) (v : List FwdMsg) : (applyUpd (.fwd v) s).fus = s.fus := rfl
@[simp] theorem fwd_upd_fcons (s : State) (v : List FwdMsg) : (applyUpd (.fwd v) s).fcons = s.fcons := rfl
@[simp] theorem fwd_upd_shadow (s : State) (v : List FwdMsg) : (applyUpd (.fwd v) s).shadow = s.shadow := rfl
@[simp] theorem fwd_upd_trv (s : State) (v : List FwdMsg) : (applyUpd (.fwd v) s).trv = s.trv := rfl
@[simp] theorem fwd_upd_tlayers (s : State) (v : List FwdMsg) : (applyUpd (.fwd v) s).tlayers = s.tlayers := rfl
@[simp] theorem fwd_upd_jobFaults (s : State) (v : List FwdMsg) : (applyUpd (.fwd v) s).jobFaults = s.jobFaults := rfl
@[simp] theorem fwd_upd_unitLast (s : State) (v : List FwdMsg) : (applyUpd (.fwd v) s).unitLast = s.unitLast := rfl
@[simp] theorem fwd_upd_unitRst (s : State) (v : List FwdMsg) : (applyUpd (.fwd v) s).unitRst = s.unitRst := rfl
@[simp] theorem fwd_upd_xlink (s : State) (v : List FwdMsg) : (applyUpd (.fwd v) s).xlink = s.xlink := rfl
@[simp] theorem fwd_upd_trace (s : State) (v : List FwdMsg) : (applyUpd (.fwd v) s).trace = s.trace := rfl
@[simp] theorem fwd_upd_progs (s : State) (v : List FwdMsg) : (applyUpd (.fwd v) s).progs = s.progs := rfl
@[simp] theorem fwd_upd_rails (s : State) (v : List FwdMsg) : (applyUpd (.fwd v) s).rails = s.rails := rfl
@[simp] theorem fwd_upd_thm (s : State) (v : List FwdMsg) : (applyUpd (.fwd v) s).thm = s.thm := rfl
@[simp] theorem fwd_upd_bnd (s : State) (v : List FwdMsg) : (applyUpd (.fwd v) s).bnd = s.bnd := rfl
@[simp] theorem fwd_upd_thmTrip (s : State) (v : List FwdMsg) : (applyUpd (.fwd v) s).thmTrip = s.thmTrip := rfl
@[simp] theorem fwd_upd_flash (s : State) (v : List FwdMsg) : (applyUpd (.fwd v) s).flash = s.flash := rfl
@[simp] theorem fwd_upd_slots (s : State) (v : List FwdMsg) : (applyUpd (.fwd v) s).slots = s.slots := rfl
@[simp] theorem fwd_upd_stores (s : State) (v : List FwdMsg) : (applyUpd (.fwd v) s).stores = s.stores := rfl
@[simp] theorem fwd_upd_ids (s : State) (v : List FwdMsg) : (applyUpd (.fwd v) s).ids = s.ids := rfl
@[simp] theorem fwd_upd_boot (s : State) (v : List FwdMsg) : (applyUpd (.fwd v) s).boot = s.boot := rfl
@[simp] theorem fwd_upd_load (s : State) (v : List FwdMsg) : (applyUpd (.fwd v) s).load = s.load := rfl
@[simp] theorem fwd_upd_flt (s : State) (v : List FwdMsg) : (applyUpd (.fwd v) s).flt = s.flt := rfl
@[simp] theorem fwd_upd_mon (s : State) (v : List FwdMsg) : (applyUpd (.fwd v) s).mon = s.mon := rfl
@[simp] theorem ethTx_upd_pending (s : State) (k : Nat) (v : Option (Nat × Nat)) : (applyUpd (.ethTx k v) s).pending = s.pending := rfl
@[simp] theorem ethTx_upd_regs (s : State) (k : Nat) (v : Option (Nat × Nat)) : (applyUpd (.ethTx k v) s).regs = s.regs := rfl
@[simp] theorem ethTx_upd_mem (s : State) (k : Nat) (v : Option (Nat × Nat)) : (applyUpd (.ethTx k v) s).mem = s.mem := rfl
@[simp] theorem ethTx_upd_sram (s : State) (k : Nat) (v : Option (Nat × Nat)) : (applyUpd (.ethTx k v) s).sram = s.sram := rfl
@[simp] theorem ethTx_upd_time (s : State) (k : Nat) (v : Option (Nat × Nat)) : (applyUpd (.ethTx k v) s).time = s.time := rfl
@[simp] theorem ethTx_upd_timeFrac (s : State) (k : Nat) (v : Option (Nat × Nat)) : (applyUpd (.ethTx k v) s).timeFrac = s.timeFrac := rfl
@[simp] theorem ethTx_upd_freeCtr (s : State) (k : Nat) (v : Option (Nat × Nat)) : (applyUpd (.ethTx k v) s).freeCtr = s.freeCtr := rfl
@[simp] theorem ethTx_upd_hiLatch (s : State) (k : Nat) (v : Option (Nat × Nat)) : (applyUpd (.ethTx k v) s).hiLatch = s.hiLatch := rfl
@[simp] theorem ethTx_upd_timeSet (s : State) (k : Nat) (v : Option (Nat × Nat)) : (applyUpd (.ethTx k v) s).timeSet = s.timeSet := rfl
@[simp] theorem ethTx_upd_n0 (s : State) (k : Nat) (v : Option (Nat × Nat)) : (applyUpd (.ethTx k v) s).n0 = s.n0 := rfl
@[simp] theorem ethTx_upd_ticked (s : State) (k : Nat) (v : Option (Nat × Nat)) : (applyUpd (.ethTx k v) s).ticked = s.ticked := rfl
@[simp] theorem ethTx_upd_peerTickAt (s : State) (k : Nat) (v : Option (Nat × Nat)) : (applyUpd (.ethTx k v) s).peerTickAt = s.peerTickAt := rfl
@[simp] theorem ethTx_upd_guardPitch (s : State) (k : Nat) (v : Option (Nat × Nat)) : (applyUpd (.ethTx k v) s).guardPitch = s.guardPitch := rfl
@[simp] theorem ethTx_upd_diePitch (s : State) (k : Nat) (v : Option (Nat × Nat)) : (applyUpd (.ethTx k v) s).diePitch = s.diePitch := rfl
@[simp] theorem ethTx_upd_resps (s : State) (k : Nat) (v : Option (Nat × Nat)) : (applyUpd (.ethTx k v) s).resps = s.resps := rfl
@[simp] theorem ethTx_upd_txns (s : State) (k : Nat) (v : Option (Nat × Nat)) : (applyUpd (.ethTx k v) s).txns = s.txns := rfl
@[simp] theorem ethTx_upd_nextTag (s : State) (k : Nat) (v : Option (Nat × Nat)) : (applyUpd (.ethTx k v) s).nextTag = s.nextTag := rfl
@[simp] theorem ethTx_upd_lateTags (s : State) (k : Nat) (v : Option (Nat × Nat)) : (applyUpd (.ethTx k v) s).lateTags = s.lateTags := rfl
@[simp] theorem ethTx_upd_ports (s : State) (k : Nat) (v : Option (Nat × Nat)) : (applyUpd (.ethTx k v) s).ports = s.ports := rfl
@[simp] theorem ethTx_upd_threads (s : State) (k : Nat) (v : Option (Nat × Nat)) : (applyUpd (.ethTx k v) s).threads = s.threads := rfl
@[simp] theorem ethTx_upd_cores (s : State) (k : Nat) (v : Option (Nat × Nat)) : (applyUpd (.ethTx k v) s).cores = s.cores := rfl
@[simp] theorem ethTx_upd_engines (s : State) (k : Nat) (v : Option (Nat × Nat)) : (applyUpd (.ethTx k v) s).engines = s.engines := rfl
@[simp] theorem ethTx_upd_held (s : State) (k : Nat) (v : Option (Nat × Nat)) : (applyUpd (.ethTx k v) s).held = s.held := rfl
@[simp] theorem ethTx_upd_watches (s : State) (k : Nat) (v : Option (Nat × Nat)) : (applyUpd (.ethTx k v) s).watches = s.watches := rfl
@[simp] theorem ethTx_upd_watchMsgs (s : State) (k : Nat) (v : Option (Nat × Nat)) : (applyUpd (.ethTx k v) s).watchMsgs = s.watchMsgs := rfl
@[simp] theorem ethTx_upd_bankHeld (s : State) (k : Nat) (v : Option (Nat × Nat)) : (applyUpd (.ethTx k v) s).bankHeld = s.bankHeld := rfl
@[simp] theorem ethTx_upd_bankTarget (s : State) (k : Nat) (v : Option (Nat × Nat)) : (applyUpd (.ethTx k v) s).bankTarget = s.bankTarget := rfl
@[simp] theorem ethTx_upd_ecc (s : State) (k : Nat) (v : Option (Nat × Nat)) : (applyUpd (.ethTx k v) s).ecc = s.ecc := rfl
@[simp] theorem ethTx_upd_lineEcc (s : State) (k : Nat) (v : Option (Nat × Nat)) : (applyUpd (.ethTx k v) s).lineEcc = s.lineEcc := rfl
@[simp] theorem ethTx_upd_wbPending (s : State) (k : Nat) (v : Option (Nat × Nat)) : (applyUpd (.ethTx k v) s).wbPending = s.wbPending := rfl
@[simp] theorem ethTx_upd_scrubPos (s : State) (k : Nat) (v : Option (Nat × Nat)) : (applyUpd (.ethTx k v) s).scrubPos = s.scrubPos := rfl
@[simp] theorem ethTx_upd_refusals (s : State) (k : Nat) (v : Option (Nat × Nat)) : (applyUpd (.ethTx k v) s).refusals = s.refusals := rfl
@[simp] theorem ethTx_upd_firstRefusal (s : State) (k : Nat) (v : Option (Nat × Nat)) : (applyUpd (.ethTx k v) s).firstRefusal = s.firstRefusal := rfl
@[simp] theorem ethTx_upd_boxQueue (s : State) (k : Nat) (v : Option (Nat × Nat)) : (applyUpd (.ethTx k v) s).boxQueue = s.boxQueue := rfl
@[simp] theorem ethTx_upd_boxRun (s : State) (k : Nat) (v : Option (Nat × Nat)) : (applyUpd (.ethTx k v) s).boxRun = s.boxRun := rfl
@[simp] theorem ethTx_upd_kvs (s : State) (k : Nat) (v : Option (Nat × Nat)) : (applyUpd (.ethTx k v) s).kvs = s.kvs := rfl
@[simp] theorem ethTx_upd_parts (s : State) (k : Nat) (v : Option (Nat × Nat)) : (applyUpd (.ethTx k v) s).parts = s.parts := rfl
@[simp] theorem ethTx_upd_dmas (s : State) (k : Nat) (v : Option (Nat × Nat)) : (applyUpd (.ethTx k v) s).dmas = s.dmas := rfl
@[simp] theorem ethTx_upd_regReqs (s : State) (k : Nat) (v : Option (Nat × Nat)) : (applyUpd (.ethTx k v) s).regReqs = s.regReqs := rfl
@[simp] theorem ethTx_upd_regPorts (s : State) (k : Nat) (v : Option (Nat × Nat)) : (applyUpd (.ethTx k v) s).regPorts = s.regPorts := rfl
@[simp] theorem ethTx_upd_subchs (s : State) (k : Nat) (v : Option (Nat × Nat)) : (applyUpd (.ethTx k v) s).subchs = s.subchs := rfl
@[simp] theorem ethTx_upd_trackers (s : State) (k : Nat) (v : Option (Nat × Nat)) : (applyUpd (.ethTx k v) s).trackers = s.trackers := rfl
@[simp] theorem ethTx_upd_throttles (s : State) (k : Nat) (v : Option (Nat × Nat)) : (applyUpd (.ethTx k v) s).throttles = s.throttles := rfl
@[simp] theorem ethTx_upd_errRing (s : State) (k : Nat) (v : Option (Nat × Nat)) : (applyUpd (.ethTx k v) s).errRing = s.errRing := rfl
@[simp] theorem ethTx_upd_errRingOvf (s : State) (k : Nat) (v : Option (Nat × Nat)) : (applyUpd (.ethTx k v) s).errRingOvf = s.errRingOvf := rfl
@[simp] theorem ethTx_upd_patrolLine (s : State) (k : Nat) (v : Option (Nat × Nat)) : (applyUpd (.ethTx k v) s).patrolLine = s.patrolLine := rfl
@[simp] theorem ethTx_upd_retTimes (s : State) (k : Nat) (v : Option (Nat × Nat)) : (applyUpd (.ethTx k v) s).retTimes = s.retTimes := rfl
@[simp] theorem ethTx_upd_retired (s : State) (k : Nat) (v : Option (Nat × Nat)) : (applyUpd (.ethTx k v) s).retired = s.retired := rfl
@[simp] theorem ethTx_upd_dramSeq (s : State) (k : Nat) (v : Option (Nat × Nat)) : (applyUpd (.ethTx k v) s).dramSeq = s.dramSeq := rfl
@[simp] theorem ethTx_upd_trn (s : State) (k : Nat) (v : Option (Nat × Nat)) : (applyUpd (.ethTx k v) s).trn = s.trn := rfl
@[simp] theorem ethTx_upd_dqsAdj (s : State) (k : Nat) (v : Option (Nat × Nat)) : (applyUpd (.ethTx k v) s).dqsAdj = s.dqsAdj := rfl
@[simp] theorem ethTx_upd_dpol (s : State) (k : Nat) (v : Option (Nat × Nat)) : (applyUpd (.ethTx k v) s).dpol = s.dpol := rfl
@[simp] theorem ethTx_upd_idleAt (s : State) (k : Nat) (v : Option (Nat × Nat)) : (applyUpd (.ethTx k v) s).idleAt = s.idleAt := rfl
@[simp] theorem ethTx_upd_fitted (s : State) (k : Nat) (v : Option (Nat × Nat)) : (applyUpd (.ethTx k v) s).fitted = s.fitted := rfl
@[simp] theorem ethTx_upd_faultMsgs (s : State) (k : Nat) (v : Option (Nat × Nat)) : (applyUpd (.ethTx k v) s).faultMsgs = s.faultMsgs := rfl
@[simp] theorem ethTx_upd_out (s : State) (k : Nat) (v : Option (Nat × Nat)) : (applyUpd (.ethTx k v) s).out = s.out := rfl
@[simp] theorem ethTx_upd_lastRead (s : State) (k : Nat) (v : Option (Nat × Nat)) : (applyUpd (.ethTx k v) s).lastRead = s.lastRead := rfl
@[simp] theorem ethTx_upd_fwd (s : State) (k : Nat) (v : Option (Nat × Nat)) : (applyUpd (.ethTx k v) s).fwd = s.fwd := rfl
@[simp] theorem ethTx_upd_ethTx (s : State) (k : Nat) (v : Option (Nat × Nat)) : (applyUpd (.ethTx k v) s).ethTx = tabSet noTx s.ethTx k v := rfl
@[simp] theorem ethTx_upd_ethHeadAt (s : State) (k : Nat) (v : Option (Nat × Nat)) : (applyUpd (.ethTx k v) s).ethHeadAt = s.ethHeadAt := rfl
@[simp] theorem ethTx_upd_canTx (s : State) (k : Nat) (v : Option (Nat × Nat)) : (applyUpd (.ethTx k v) s).canTx = s.canTx := rfl
@[simp] theorem ethTx_upd_pcieOut (s : State) (k : Nat) (v : Option (Nat × Nat)) : (applyUpd (.ethTx k v) s).pcieOut = s.pcieOut := rfl
@[simp] theorem ethTx_upd_pcieCfgRd (s : State) (k : Nat) (v : Option (Nat × Nat)) : (applyUpd (.ethTx k v) s).pcieCfgRd = s.pcieCfgRd := rfl
@[simp] theorem ethTx_upd_msix (s : State) (k : Nat) (v : Option (Nat × Nat)) : (applyUpd (.ethTx k v) s).msix = s.msix := rfl
@[simp] theorem ethTx_upd_ancs (s : State) (k : Nat) (v : Option (Nat × Nat)) : (applyUpd (.ethTx k v) s).ancs = s.ancs := rfl
@[simp] theorem ethTx_upd_trajArea (s : State) (k : Nat) (v : Option (Nat × Nat)) : (applyUpd (.ethTx k v) s).trajArea = s.trajArea := rfl
@[simp] theorem ethTx_upd_lidarIn (s : State) (k : Nat) (v : Option (Nat × Nat)) : (applyUpd (.ethTx k v) s).lidarIn = s.lidarIn := rfl
@[simp] theorem ethTx_upd_wheelIn (s : State) (k : Nat) (v : Option (Nat × Nat)) : (applyUpd (.ethTx k v) s).wheelIn = s.wheelIn := rfl
@[simp] theorem ethTx_upd_spiStepBusy (s : State) (k : Nat) (v : Option (Nat × Nat)) : (applyUpd (.ethTx k v) s).spiStepBusy = s.spiStepBusy := rfl
@[simp] theorem ethTx_upd_spiRec (s : State) (k : Nat) (v : Option (Nat × Nat)) : (applyUpd (.ethTx k v) s).spiRec = s.spiRec := rfl
@[simp] theorem ethTx_upd_spiStepCfg (s : State) (k : Nat) (v : Option (Nat × Nat)) : (applyUpd (.ethTx k v) s).spiStepCfg = s.spiStepCfg := rfl
@[simp] theorem ethTx_upd_ctxs (s : State) (k : Nat) (v : Option (Nat × Nat)) : (applyUpd (.ethTx k v) s).ctxs = s.ctxs := rfl
@[simp] theorem ethTx_upd_fsyOmit (s : State) (k : Nat) (v : Option (Nat × Nat)) : (applyUpd (.ethTx k v) s).fsyOmit = s.fsyOmit := rfl
@[simp] theorem ethTx_upd_fsyPulsed (s : State) (k : Nat) (v : Option (Nat × Nat)) : (applyUpd (.ethTx k v) s).fsyPulsed = s.fsyPulsed := rfl
@[simp] theorem ethTx_upd_supTasks (s : State) (k : Nat) (v : Option (Nat × Nat)) : (applyUpd (.ethTx k v) s).supTasks = s.supTasks := rfl
@[simp] theorem ethTx_upd_fus (s : State) (k : Nat) (v : Option (Nat × Nat)) : (applyUpd (.ethTx k v) s).fus = s.fus := rfl
@[simp] theorem ethTx_upd_fcons (s : State) (k : Nat) (v : Option (Nat × Nat)) : (applyUpd (.ethTx k v) s).fcons = s.fcons := rfl
@[simp] theorem ethTx_upd_shadow (s : State) (k : Nat) (v : Option (Nat × Nat)) : (applyUpd (.ethTx k v) s).shadow = s.shadow := rfl
@[simp] theorem ethTx_upd_trv (s : State) (k : Nat) (v : Option (Nat × Nat)) : (applyUpd (.ethTx k v) s).trv = s.trv := rfl
@[simp] theorem ethTx_upd_tlayers (s : State) (k : Nat) (v : Option (Nat × Nat)) : (applyUpd (.ethTx k v) s).tlayers = s.tlayers := rfl
@[simp] theorem ethTx_upd_jobFaults (s : State) (k : Nat) (v : Option (Nat × Nat)) : (applyUpd (.ethTx k v) s).jobFaults = s.jobFaults := rfl
@[simp] theorem ethTx_upd_unitLast (s : State) (k : Nat) (v : Option (Nat × Nat)) : (applyUpd (.ethTx k v) s).unitLast = s.unitLast := rfl
@[simp] theorem ethTx_upd_unitRst (s : State) (k : Nat) (v : Option (Nat × Nat)) : (applyUpd (.ethTx k v) s).unitRst = s.unitRst := rfl
@[simp] theorem ethTx_upd_xlink (s : State) (k : Nat) (v : Option (Nat × Nat)) : (applyUpd (.ethTx k v) s).xlink = s.xlink := rfl
@[simp] theorem ethTx_upd_trace (s : State) (k : Nat) (v : Option (Nat × Nat)) : (applyUpd (.ethTx k v) s).trace = s.trace := rfl
@[simp] theorem ethTx_upd_progs (s : State) (k : Nat) (v : Option (Nat × Nat)) : (applyUpd (.ethTx k v) s).progs = s.progs := rfl
@[simp] theorem ethTx_upd_rails (s : State) (k : Nat) (v : Option (Nat × Nat)) : (applyUpd (.ethTx k v) s).rails = s.rails := rfl
@[simp] theorem ethTx_upd_thm (s : State) (k : Nat) (v : Option (Nat × Nat)) : (applyUpd (.ethTx k v) s).thm = s.thm := rfl
@[simp] theorem ethTx_upd_bnd (s : State) (k : Nat) (v : Option (Nat × Nat)) : (applyUpd (.ethTx k v) s).bnd = s.bnd := rfl
@[simp] theorem ethTx_upd_thmTrip (s : State) (k : Nat) (v : Option (Nat × Nat)) : (applyUpd (.ethTx k v) s).thmTrip = s.thmTrip := rfl
@[simp] theorem ethTx_upd_flash (s : State) (k : Nat) (v : Option (Nat × Nat)) : (applyUpd (.ethTx k v) s).flash = s.flash := rfl
@[simp] theorem ethTx_upd_slots (s : State) (k : Nat) (v : Option (Nat × Nat)) : (applyUpd (.ethTx k v) s).slots = s.slots := rfl
@[simp] theorem ethTx_upd_stores (s : State) (k : Nat) (v : Option (Nat × Nat)) : (applyUpd (.ethTx k v) s).stores = s.stores := rfl
@[simp] theorem ethTx_upd_ids (s : State) (k : Nat) (v : Option (Nat × Nat)) : (applyUpd (.ethTx k v) s).ids = s.ids := rfl
@[simp] theorem ethTx_upd_boot (s : State) (k : Nat) (v : Option (Nat × Nat)) : (applyUpd (.ethTx k v) s).boot = s.boot := rfl
@[simp] theorem ethTx_upd_load (s : State) (k : Nat) (v : Option (Nat × Nat)) : (applyUpd (.ethTx k v) s).load = s.load := rfl
@[simp] theorem ethTx_upd_flt (s : State) (k : Nat) (v : Option (Nat × Nat)) : (applyUpd (.ethTx k v) s).flt = s.flt := rfl
@[simp] theorem ethTx_upd_mon (s : State) (k : Nat) (v : Option (Nat × Nat)) : (applyUpd (.ethTx k v) s).mon = s.mon := rfl
@[simp] theorem ethHeadAt_upd_pending (s : State) (k : Nat) (v : Nat) : (applyUpd (.ethHeadAt k v) s).pending = s.pending := rfl
@[simp] theorem ethHeadAt_upd_regs (s : State) (k : Nat) (v : Nat) : (applyUpd (.ethHeadAt k v) s).regs = s.regs := rfl
@[simp] theorem ethHeadAt_upd_mem (s : State) (k : Nat) (v : Nat) : (applyUpd (.ethHeadAt k v) s).mem = s.mem := rfl
@[simp] theorem ethHeadAt_upd_sram (s : State) (k : Nat) (v : Nat) : (applyUpd (.ethHeadAt k v) s).sram = s.sram := rfl
@[simp] theorem ethHeadAt_upd_time (s : State) (k : Nat) (v : Nat) : (applyUpd (.ethHeadAt k v) s).time = s.time := rfl
@[simp] theorem ethHeadAt_upd_timeFrac (s : State) (k : Nat) (v : Nat) : (applyUpd (.ethHeadAt k v) s).timeFrac = s.timeFrac := rfl
@[simp] theorem ethHeadAt_upd_freeCtr (s : State) (k : Nat) (v : Nat) : (applyUpd (.ethHeadAt k v) s).freeCtr = s.freeCtr := rfl
@[simp] theorem ethHeadAt_upd_hiLatch (s : State) (k : Nat) (v : Nat) : (applyUpd (.ethHeadAt k v) s).hiLatch = s.hiLatch := rfl
@[simp] theorem ethHeadAt_upd_timeSet (s : State) (k : Nat) (v : Nat) : (applyUpd (.ethHeadAt k v) s).timeSet = s.timeSet := rfl
@[simp] theorem ethHeadAt_upd_n0 (s : State) (k : Nat) (v : Nat) : (applyUpd (.ethHeadAt k v) s).n0 = s.n0 := rfl
@[simp] theorem ethHeadAt_upd_ticked (s : State) (k : Nat) (v : Nat) : (applyUpd (.ethHeadAt k v) s).ticked = s.ticked := rfl
@[simp] theorem ethHeadAt_upd_peerTickAt (s : State) (k : Nat) (v : Nat) : (applyUpd (.ethHeadAt k v) s).peerTickAt = s.peerTickAt := rfl
@[simp] theorem ethHeadAt_upd_guardPitch (s : State) (k : Nat) (v : Nat) : (applyUpd (.ethHeadAt k v) s).guardPitch = s.guardPitch := rfl
@[simp] theorem ethHeadAt_upd_diePitch (s : State) (k : Nat) (v : Nat) : (applyUpd (.ethHeadAt k v) s).diePitch = s.diePitch := rfl
@[simp] theorem ethHeadAt_upd_resps (s : State) (k : Nat) (v : Nat) : (applyUpd (.ethHeadAt k v) s).resps = s.resps := rfl
@[simp] theorem ethHeadAt_upd_txns (s : State) (k : Nat) (v : Nat) : (applyUpd (.ethHeadAt k v) s).txns = s.txns := rfl
@[simp] theorem ethHeadAt_upd_nextTag (s : State) (k : Nat) (v : Nat) : (applyUpd (.ethHeadAt k v) s).nextTag = s.nextTag := rfl
@[simp] theorem ethHeadAt_upd_lateTags (s : State) (k : Nat) (v : Nat) : (applyUpd (.ethHeadAt k v) s).lateTags = s.lateTags := rfl
@[simp] theorem ethHeadAt_upd_ports (s : State) (k : Nat) (v : Nat) : (applyUpd (.ethHeadAt k v) s).ports = s.ports := rfl
@[simp] theorem ethHeadAt_upd_threads (s : State) (k : Nat) (v : Nat) : (applyUpd (.ethHeadAt k v) s).threads = s.threads := rfl
@[simp] theorem ethHeadAt_upd_cores (s : State) (k : Nat) (v : Nat) : (applyUpd (.ethHeadAt k v) s).cores = s.cores := rfl
@[simp] theorem ethHeadAt_upd_engines (s : State) (k : Nat) (v : Nat) : (applyUpd (.ethHeadAt k v) s).engines = s.engines := rfl
@[simp] theorem ethHeadAt_upd_held (s : State) (k : Nat) (v : Nat) : (applyUpd (.ethHeadAt k v) s).held = s.held := rfl
@[simp] theorem ethHeadAt_upd_watches (s : State) (k : Nat) (v : Nat) : (applyUpd (.ethHeadAt k v) s).watches = s.watches := rfl
@[simp] theorem ethHeadAt_upd_watchMsgs (s : State) (k : Nat) (v : Nat) : (applyUpd (.ethHeadAt k v) s).watchMsgs = s.watchMsgs := rfl
@[simp] theorem ethHeadAt_upd_bankHeld (s : State) (k : Nat) (v : Nat) : (applyUpd (.ethHeadAt k v) s).bankHeld = s.bankHeld := rfl
@[simp] theorem ethHeadAt_upd_bankTarget (s : State) (k : Nat) (v : Nat) : (applyUpd (.ethHeadAt k v) s).bankTarget = s.bankTarget := rfl
@[simp] theorem ethHeadAt_upd_ecc (s : State) (k : Nat) (v : Nat) : (applyUpd (.ethHeadAt k v) s).ecc = s.ecc := rfl
@[simp] theorem ethHeadAt_upd_lineEcc (s : State) (k : Nat) (v : Nat) : (applyUpd (.ethHeadAt k v) s).lineEcc = s.lineEcc := rfl
@[simp] theorem ethHeadAt_upd_wbPending (s : State) (k : Nat) (v : Nat) : (applyUpd (.ethHeadAt k v) s).wbPending = s.wbPending := rfl
@[simp] theorem ethHeadAt_upd_scrubPos (s : State) (k : Nat) (v : Nat) : (applyUpd (.ethHeadAt k v) s).scrubPos = s.scrubPos := rfl
@[simp] theorem ethHeadAt_upd_refusals (s : State) (k : Nat) (v : Nat) : (applyUpd (.ethHeadAt k v) s).refusals = s.refusals := rfl
@[simp] theorem ethHeadAt_upd_firstRefusal (s : State) (k : Nat) (v : Nat) : (applyUpd (.ethHeadAt k v) s).firstRefusal = s.firstRefusal := rfl
@[simp] theorem ethHeadAt_upd_boxQueue (s : State) (k : Nat) (v : Nat) : (applyUpd (.ethHeadAt k v) s).boxQueue = s.boxQueue := rfl
@[simp] theorem ethHeadAt_upd_boxRun (s : State) (k : Nat) (v : Nat) : (applyUpd (.ethHeadAt k v) s).boxRun = s.boxRun := rfl
@[simp] theorem ethHeadAt_upd_kvs (s : State) (k : Nat) (v : Nat) : (applyUpd (.ethHeadAt k v) s).kvs = s.kvs := rfl
@[simp] theorem ethHeadAt_upd_parts (s : State) (k : Nat) (v : Nat) : (applyUpd (.ethHeadAt k v) s).parts = s.parts := rfl
@[simp] theorem ethHeadAt_upd_dmas (s : State) (k : Nat) (v : Nat) : (applyUpd (.ethHeadAt k v) s).dmas = s.dmas := rfl
@[simp] theorem ethHeadAt_upd_regReqs (s : State) (k : Nat) (v : Nat) : (applyUpd (.ethHeadAt k v) s).regReqs = s.regReqs := rfl
@[simp] theorem ethHeadAt_upd_regPorts (s : State) (k : Nat) (v : Nat) : (applyUpd (.ethHeadAt k v) s).regPorts = s.regPorts := rfl
@[simp] theorem ethHeadAt_upd_subchs (s : State) (k : Nat) (v : Nat) : (applyUpd (.ethHeadAt k v) s).subchs = s.subchs := rfl
@[simp] theorem ethHeadAt_upd_trackers (s : State) (k : Nat) (v : Nat) : (applyUpd (.ethHeadAt k v) s).trackers = s.trackers := rfl
@[simp] theorem ethHeadAt_upd_throttles (s : State) (k : Nat) (v : Nat) : (applyUpd (.ethHeadAt k v) s).throttles = s.throttles := rfl
@[simp] theorem ethHeadAt_upd_errRing (s : State) (k : Nat) (v : Nat) : (applyUpd (.ethHeadAt k v) s).errRing = s.errRing := rfl
@[simp] theorem ethHeadAt_upd_errRingOvf (s : State) (k : Nat) (v : Nat) : (applyUpd (.ethHeadAt k v) s).errRingOvf = s.errRingOvf := rfl
@[simp] theorem ethHeadAt_upd_patrolLine (s : State) (k : Nat) (v : Nat) : (applyUpd (.ethHeadAt k v) s).patrolLine = s.patrolLine := rfl
@[simp] theorem ethHeadAt_upd_retTimes (s : State) (k : Nat) (v : Nat) : (applyUpd (.ethHeadAt k v) s).retTimes = s.retTimes := rfl
@[simp] theorem ethHeadAt_upd_retired (s : State) (k : Nat) (v : Nat) : (applyUpd (.ethHeadAt k v) s).retired = s.retired := rfl
@[simp] theorem ethHeadAt_upd_dramSeq (s : State) (k : Nat) (v : Nat) : (applyUpd (.ethHeadAt k v) s).dramSeq = s.dramSeq := rfl
@[simp] theorem ethHeadAt_upd_trn (s : State) (k : Nat) (v : Nat) : (applyUpd (.ethHeadAt k v) s).trn = s.trn := rfl
@[simp] theorem ethHeadAt_upd_dqsAdj (s : State) (k : Nat) (v : Nat) : (applyUpd (.ethHeadAt k v) s).dqsAdj = s.dqsAdj := rfl
@[simp] theorem ethHeadAt_upd_dpol (s : State) (k : Nat) (v : Nat) : (applyUpd (.ethHeadAt k v) s).dpol = s.dpol := rfl
@[simp] theorem ethHeadAt_upd_idleAt (s : State) (k : Nat) (v : Nat) : (applyUpd (.ethHeadAt k v) s).idleAt = s.idleAt := rfl
@[simp] theorem ethHeadAt_upd_fitted (s : State) (k : Nat) (v : Nat) : (applyUpd (.ethHeadAt k v) s).fitted = s.fitted := rfl
@[simp] theorem ethHeadAt_upd_faultMsgs (s : State) (k : Nat) (v : Nat) : (applyUpd (.ethHeadAt k v) s).faultMsgs = s.faultMsgs := rfl
@[simp] theorem ethHeadAt_upd_out (s : State) (k : Nat) (v : Nat) : (applyUpd (.ethHeadAt k v) s).out = s.out := rfl
@[simp] theorem ethHeadAt_upd_lastRead (s : State) (k : Nat) (v : Nat) : (applyUpd (.ethHeadAt k v) s).lastRead = s.lastRead := rfl
@[simp] theorem ethHeadAt_upd_fwd (s : State) (k : Nat) (v : Nat) : (applyUpd (.ethHeadAt k v) s).fwd = s.fwd := rfl
@[simp] theorem ethHeadAt_upd_ethTx (s : State) (k : Nat) (v : Nat) : (applyUpd (.ethHeadAt k v) s).ethTx = s.ethTx := rfl
@[simp] theorem ethHeadAt_upd_ethHeadAt (s : State) (k : Nat) (v : Nat) : (applyUpd (.ethHeadAt k v) s).ethHeadAt = tabSet zeroNat s.ethHeadAt k v := rfl
@[simp] theorem ethHeadAt_upd_canTx (s : State) (k : Nat) (v : Nat) : (applyUpd (.ethHeadAt k v) s).canTx = s.canTx := rfl
@[simp] theorem ethHeadAt_upd_pcieOut (s : State) (k : Nat) (v : Nat) : (applyUpd (.ethHeadAt k v) s).pcieOut = s.pcieOut := rfl
@[simp] theorem ethHeadAt_upd_pcieCfgRd (s : State) (k : Nat) (v : Nat) : (applyUpd (.ethHeadAt k v) s).pcieCfgRd = s.pcieCfgRd := rfl
@[simp] theorem ethHeadAt_upd_msix (s : State) (k : Nat) (v : Nat) : (applyUpd (.ethHeadAt k v) s).msix = s.msix := rfl
@[simp] theorem ethHeadAt_upd_ancs (s : State) (k : Nat) (v : Nat) : (applyUpd (.ethHeadAt k v) s).ancs = s.ancs := rfl
@[simp] theorem ethHeadAt_upd_trajArea (s : State) (k : Nat) (v : Nat) : (applyUpd (.ethHeadAt k v) s).trajArea = s.trajArea := rfl
@[simp] theorem ethHeadAt_upd_lidarIn (s : State) (k : Nat) (v : Nat) : (applyUpd (.ethHeadAt k v) s).lidarIn = s.lidarIn := rfl
@[simp] theorem ethHeadAt_upd_wheelIn (s : State) (k : Nat) (v : Nat) : (applyUpd (.ethHeadAt k v) s).wheelIn = s.wheelIn := rfl
@[simp] theorem ethHeadAt_upd_spiStepBusy (s : State) (k : Nat) (v : Nat) : (applyUpd (.ethHeadAt k v) s).spiStepBusy = s.spiStepBusy := rfl
@[simp] theorem ethHeadAt_upd_spiRec (s : State) (k : Nat) (v : Nat) : (applyUpd (.ethHeadAt k v) s).spiRec = s.spiRec := rfl
@[simp] theorem ethHeadAt_upd_spiStepCfg (s : State) (k : Nat) (v : Nat) : (applyUpd (.ethHeadAt k v) s).spiStepCfg = s.spiStepCfg := rfl
@[simp] theorem ethHeadAt_upd_ctxs (s : State) (k : Nat) (v : Nat) : (applyUpd (.ethHeadAt k v) s).ctxs = s.ctxs := rfl
@[simp] theorem ethHeadAt_upd_fsyOmit (s : State) (k : Nat) (v : Nat) : (applyUpd (.ethHeadAt k v) s).fsyOmit = s.fsyOmit := rfl
@[simp] theorem ethHeadAt_upd_fsyPulsed (s : State) (k : Nat) (v : Nat) : (applyUpd (.ethHeadAt k v) s).fsyPulsed = s.fsyPulsed := rfl
@[simp] theorem ethHeadAt_upd_supTasks (s : State) (k : Nat) (v : Nat) : (applyUpd (.ethHeadAt k v) s).supTasks = s.supTasks := rfl
@[simp] theorem ethHeadAt_upd_fus (s : State) (k : Nat) (v : Nat) : (applyUpd (.ethHeadAt k v) s).fus = s.fus := rfl
@[simp] theorem ethHeadAt_upd_fcons (s : State) (k : Nat) (v : Nat) : (applyUpd (.ethHeadAt k v) s).fcons = s.fcons := rfl
@[simp] theorem ethHeadAt_upd_shadow (s : State) (k : Nat) (v : Nat) : (applyUpd (.ethHeadAt k v) s).shadow = s.shadow := rfl
@[simp] theorem ethHeadAt_upd_trv (s : State) (k : Nat) (v : Nat) : (applyUpd (.ethHeadAt k v) s).trv = s.trv := rfl
@[simp] theorem ethHeadAt_upd_tlayers (s : State) (k : Nat) (v : Nat) : (applyUpd (.ethHeadAt k v) s).tlayers = s.tlayers := rfl
@[simp] theorem ethHeadAt_upd_jobFaults (s : State) (k : Nat) (v : Nat) : (applyUpd (.ethHeadAt k v) s).jobFaults = s.jobFaults := rfl
@[simp] theorem ethHeadAt_upd_unitLast (s : State) (k : Nat) (v : Nat) : (applyUpd (.ethHeadAt k v) s).unitLast = s.unitLast := rfl
@[simp] theorem ethHeadAt_upd_unitRst (s : State) (k : Nat) (v : Nat) : (applyUpd (.ethHeadAt k v) s).unitRst = s.unitRst := rfl
@[simp] theorem ethHeadAt_upd_xlink (s : State) (k : Nat) (v : Nat) : (applyUpd (.ethHeadAt k v) s).xlink = s.xlink := rfl
@[simp] theorem ethHeadAt_upd_trace (s : State) (k : Nat) (v : Nat) : (applyUpd (.ethHeadAt k v) s).trace = s.trace := rfl
@[simp] theorem ethHeadAt_upd_progs (s : State) (k : Nat) (v : Nat) : (applyUpd (.ethHeadAt k v) s).progs = s.progs := rfl
@[simp] theorem ethHeadAt_upd_rails (s : State) (k : Nat) (v : Nat) : (applyUpd (.ethHeadAt k v) s).rails = s.rails := rfl
@[simp] theorem ethHeadAt_upd_thm (s : State) (k : Nat) (v : Nat) : (applyUpd (.ethHeadAt k v) s).thm = s.thm := rfl
@[simp] theorem ethHeadAt_upd_bnd (s : State) (k : Nat) (v : Nat) : (applyUpd (.ethHeadAt k v) s).bnd = s.bnd := rfl
@[simp] theorem ethHeadAt_upd_thmTrip (s : State) (k : Nat) (v : Nat) : (applyUpd (.ethHeadAt k v) s).thmTrip = s.thmTrip := rfl
@[simp] theorem ethHeadAt_upd_flash (s : State) (k : Nat) (v : Nat) : (applyUpd (.ethHeadAt k v) s).flash = s.flash := rfl
@[simp] theorem ethHeadAt_upd_slots (s : State) (k : Nat) (v : Nat) : (applyUpd (.ethHeadAt k v) s).slots = s.slots := rfl
@[simp] theorem ethHeadAt_upd_stores (s : State) (k : Nat) (v : Nat) : (applyUpd (.ethHeadAt k v) s).stores = s.stores := rfl
@[simp] theorem ethHeadAt_upd_ids (s : State) (k : Nat) (v : Nat) : (applyUpd (.ethHeadAt k v) s).ids = s.ids := rfl
@[simp] theorem ethHeadAt_upd_boot (s : State) (k : Nat) (v : Nat) : (applyUpd (.ethHeadAt k v) s).boot = s.boot := rfl
@[simp] theorem ethHeadAt_upd_load (s : State) (k : Nat) (v : Nat) : (applyUpd (.ethHeadAt k v) s).load = s.load := rfl
@[simp] theorem ethHeadAt_upd_flt (s : State) (k : Nat) (v : Nat) : (applyUpd (.ethHeadAt k v) s).flt = s.flt := rfl
@[simp] theorem ethHeadAt_upd_mon (s : State) (k : Nat) (v : Nat) : (applyUpd (.ethHeadAt k v) s).mon = s.mon := rfl
@[simp] theorem canTx_upd_pending (s : State) (k : Nat) (v : Option Nat) : (applyUpd (.canTx k v) s).pending = s.pending := rfl
@[simp] theorem canTx_upd_regs (s : State) (k : Nat) (v : Option Nat) : (applyUpd (.canTx k v) s).regs = s.regs := rfl
@[simp] theorem canTx_upd_mem (s : State) (k : Nat) (v : Option Nat) : (applyUpd (.canTx k v) s).mem = s.mem := rfl
@[simp] theorem canTx_upd_sram (s : State) (k : Nat) (v : Option Nat) : (applyUpd (.canTx k v) s).sram = s.sram := rfl
@[simp] theorem canTx_upd_time (s : State) (k : Nat) (v : Option Nat) : (applyUpd (.canTx k v) s).time = s.time := rfl
@[simp] theorem canTx_upd_timeFrac (s : State) (k : Nat) (v : Option Nat) : (applyUpd (.canTx k v) s).timeFrac = s.timeFrac := rfl
@[simp] theorem canTx_upd_freeCtr (s : State) (k : Nat) (v : Option Nat) : (applyUpd (.canTx k v) s).freeCtr = s.freeCtr := rfl
@[simp] theorem canTx_upd_hiLatch (s : State) (k : Nat) (v : Option Nat) : (applyUpd (.canTx k v) s).hiLatch = s.hiLatch := rfl
@[simp] theorem canTx_upd_timeSet (s : State) (k : Nat) (v : Option Nat) : (applyUpd (.canTx k v) s).timeSet = s.timeSet := rfl
@[simp] theorem canTx_upd_n0 (s : State) (k : Nat) (v : Option Nat) : (applyUpd (.canTx k v) s).n0 = s.n0 := rfl
@[simp] theorem canTx_upd_ticked (s : State) (k : Nat) (v : Option Nat) : (applyUpd (.canTx k v) s).ticked = s.ticked := rfl
@[simp] theorem canTx_upd_peerTickAt (s : State) (k : Nat) (v : Option Nat) : (applyUpd (.canTx k v) s).peerTickAt = s.peerTickAt := rfl
@[simp] theorem canTx_upd_guardPitch (s : State) (k : Nat) (v : Option Nat) : (applyUpd (.canTx k v) s).guardPitch = s.guardPitch := rfl
@[simp] theorem canTx_upd_diePitch (s : State) (k : Nat) (v : Option Nat) : (applyUpd (.canTx k v) s).diePitch = s.diePitch := rfl
@[simp] theorem canTx_upd_resps (s : State) (k : Nat) (v : Option Nat) : (applyUpd (.canTx k v) s).resps = s.resps := rfl
@[simp] theorem canTx_upd_txns (s : State) (k : Nat) (v : Option Nat) : (applyUpd (.canTx k v) s).txns = s.txns := rfl
@[simp] theorem canTx_upd_nextTag (s : State) (k : Nat) (v : Option Nat) : (applyUpd (.canTx k v) s).nextTag = s.nextTag := rfl
@[simp] theorem canTx_upd_lateTags (s : State) (k : Nat) (v : Option Nat) : (applyUpd (.canTx k v) s).lateTags = s.lateTags := rfl
@[simp] theorem canTx_upd_ports (s : State) (k : Nat) (v : Option Nat) : (applyUpd (.canTx k v) s).ports = s.ports := rfl
@[simp] theorem canTx_upd_threads (s : State) (k : Nat) (v : Option Nat) : (applyUpd (.canTx k v) s).threads = s.threads := rfl
@[simp] theorem canTx_upd_cores (s : State) (k : Nat) (v : Option Nat) : (applyUpd (.canTx k v) s).cores = s.cores := rfl
@[simp] theorem canTx_upd_engines (s : State) (k : Nat) (v : Option Nat) : (applyUpd (.canTx k v) s).engines = s.engines := rfl
@[simp] theorem canTx_upd_held (s : State) (k : Nat) (v : Option Nat) : (applyUpd (.canTx k v) s).held = s.held := rfl
@[simp] theorem canTx_upd_watches (s : State) (k : Nat) (v : Option Nat) : (applyUpd (.canTx k v) s).watches = s.watches := rfl
@[simp] theorem canTx_upd_watchMsgs (s : State) (k : Nat) (v : Option Nat) : (applyUpd (.canTx k v) s).watchMsgs = s.watchMsgs := rfl
@[simp] theorem canTx_upd_bankHeld (s : State) (k : Nat) (v : Option Nat) : (applyUpd (.canTx k v) s).bankHeld = s.bankHeld := rfl
@[simp] theorem canTx_upd_bankTarget (s : State) (k : Nat) (v : Option Nat) : (applyUpd (.canTx k v) s).bankTarget = s.bankTarget := rfl
@[simp] theorem canTx_upd_ecc (s : State) (k : Nat) (v : Option Nat) : (applyUpd (.canTx k v) s).ecc = s.ecc := rfl
@[simp] theorem canTx_upd_lineEcc (s : State) (k : Nat) (v : Option Nat) : (applyUpd (.canTx k v) s).lineEcc = s.lineEcc := rfl
@[simp] theorem canTx_upd_wbPending (s : State) (k : Nat) (v : Option Nat) : (applyUpd (.canTx k v) s).wbPending = s.wbPending := rfl
@[simp] theorem canTx_upd_scrubPos (s : State) (k : Nat) (v : Option Nat) : (applyUpd (.canTx k v) s).scrubPos = s.scrubPos := rfl
@[simp] theorem canTx_upd_refusals (s : State) (k : Nat) (v : Option Nat) : (applyUpd (.canTx k v) s).refusals = s.refusals := rfl
@[simp] theorem canTx_upd_firstRefusal (s : State) (k : Nat) (v : Option Nat) : (applyUpd (.canTx k v) s).firstRefusal = s.firstRefusal := rfl
@[simp] theorem canTx_upd_boxQueue (s : State) (k : Nat) (v : Option Nat) : (applyUpd (.canTx k v) s).boxQueue = s.boxQueue := rfl
@[simp] theorem canTx_upd_boxRun (s : State) (k : Nat) (v : Option Nat) : (applyUpd (.canTx k v) s).boxRun = s.boxRun := rfl
@[simp] theorem canTx_upd_kvs (s : State) (k : Nat) (v : Option Nat) : (applyUpd (.canTx k v) s).kvs = s.kvs := rfl
@[simp] theorem canTx_upd_parts (s : State) (k : Nat) (v : Option Nat) : (applyUpd (.canTx k v) s).parts = s.parts := rfl
@[simp] theorem canTx_upd_dmas (s : State) (k : Nat) (v : Option Nat) : (applyUpd (.canTx k v) s).dmas = s.dmas := rfl
@[simp] theorem canTx_upd_regReqs (s : State) (k : Nat) (v : Option Nat) : (applyUpd (.canTx k v) s).regReqs = s.regReqs := rfl
@[simp] theorem canTx_upd_regPorts (s : State) (k : Nat) (v : Option Nat) : (applyUpd (.canTx k v) s).regPorts = s.regPorts := rfl
@[simp] theorem canTx_upd_subchs (s : State) (k : Nat) (v : Option Nat) : (applyUpd (.canTx k v) s).subchs = s.subchs := rfl
@[simp] theorem canTx_upd_trackers (s : State) (k : Nat) (v : Option Nat) : (applyUpd (.canTx k v) s).trackers = s.trackers := rfl
@[simp] theorem canTx_upd_throttles (s : State) (k : Nat) (v : Option Nat) : (applyUpd (.canTx k v) s).throttles = s.throttles := rfl
@[simp] theorem canTx_upd_errRing (s : State) (k : Nat) (v : Option Nat) : (applyUpd (.canTx k v) s).errRing = s.errRing := rfl
@[simp] theorem canTx_upd_errRingOvf (s : State) (k : Nat) (v : Option Nat) : (applyUpd (.canTx k v) s).errRingOvf = s.errRingOvf := rfl
@[simp] theorem canTx_upd_patrolLine (s : State) (k : Nat) (v : Option Nat) : (applyUpd (.canTx k v) s).patrolLine = s.patrolLine := rfl
@[simp] theorem canTx_upd_retTimes (s : State) (k : Nat) (v : Option Nat) : (applyUpd (.canTx k v) s).retTimes = s.retTimes := rfl
@[simp] theorem canTx_upd_retired (s : State) (k : Nat) (v : Option Nat) : (applyUpd (.canTx k v) s).retired = s.retired := rfl
@[simp] theorem canTx_upd_dramSeq (s : State) (k : Nat) (v : Option Nat) : (applyUpd (.canTx k v) s).dramSeq = s.dramSeq := rfl
@[simp] theorem canTx_upd_trn (s : State) (k : Nat) (v : Option Nat) : (applyUpd (.canTx k v) s).trn = s.trn := rfl
@[simp] theorem canTx_upd_dqsAdj (s : State) (k : Nat) (v : Option Nat) : (applyUpd (.canTx k v) s).dqsAdj = s.dqsAdj := rfl
@[simp] theorem canTx_upd_dpol (s : State) (k : Nat) (v : Option Nat) : (applyUpd (.canTx k v) s).dpol = s.dpol := rfl
@[simp] theorem canTx_upd_idleAt (s : State) (k : Nat) (v : Option Nat) : (applyUpd (.canTx k v) s).idleAt = s.idleAt := rfl
@[simp] theorem canTx_upd_fitted (s : State) (k : Nat) (v : Option Nat) : (applyUpd (.canTx k v) s).fitted = s.fitted := rfl
@[simp] theorem canTx_upd_faultMsgs (s : State) (k : Nat) (v : Option Nat) : (applyUpd (.canTx k v) s).faultMsgs = s.faultMsgs := rfl
@[simp] theorem canTx_upd_out (s : State) (k : Nat) (v : Option Nat) : (applyUpd (.canTx k v) s).out = s.out := rfl
@[simp] theorem canTx_upd_lastRead (s : State) (k : Nat) (v : Option Nat) : (applyUpd (.canTx k v) s).lastRead = s.lastRead := rfl
@[simp] theorem canTx_upd_fwd (s : State) (k : Nat) (v : Option Nat) : (applyUpd (.canTx k v) s).fwd = s.fwd := rfl
@[simp] theorem canTx_upd_ethTx (s : State) (k : Nat) (v : Option Nat) : (applyUpd (.canTx k v) s).ethTx = s.ethTx := rfl
@[simp] theorem canTx_upd_ethHeadAt (s : State) (k : Nat) (v : Option Nat) : (applyUpd (.canTx k v) s).ethHeadAt = s.ethHeadAt := rfl
@[simp] theorem canTx_upd_canTx (s : State) (k : Nat) (v : Option Nat) : (applyUpd (.canTx k v) s).canTx = tabSet noTxq s.canTx k v := rfl
@[simp] theorem canTx_upd_pcieOut (s : State) (k : Nat) (v : Option Nat) : (applyUpd (.canTx k v) s).pcieOut = s.pcieOut := rfl
@[simp] theorem canTx_upd_pcieCfgRd (s : State) (k : Nat) (v : Option Nat) : (applyUpd (.canTx k v) s).pcieCfgRd = s.pcieCfgRd := rfl
@[simp] theorem canTx_upd_msix (s : State) (k : Nat) (v : Option Nat) : (applyUpd (.canTx k v) s).msix = s.msix := rfl
@[simp] theorem canTx_upd_ancs (s : State) (k : Nat) (v : Option Nat) : (applyUpd (.canTx k v) s).ancs = s.ancs := rfl
@[simp] theorem canTx_upd_trajArea (s : State) (k : Nat) (v : Option Nat) : (applyUpd (.canTx k v) s).trajArea = s.trajArea := rfl
@[simp] theorem canTx_upd_lidarIn (s : State) (k : Nat) (v : Option Nat) : (applyUpd (.canTx k v) s).lidarIn = s.lidarIn := rfl
@[simp] theorem canTx_upd_wheelIn (s : State) (k : Nat) (v : Option Nat) : (applyUpd (.canTx k v) s).wheelIn = s.wheelIn := rfl
@[simp] theorem canTx_upd_spiStepBusy (s : State) (k : Nat) (v : Option Nat) : (applyUpd (.canTx k v) s).spiStepBusy = s.spiStepBusy := rfl
@[simp] theorem canTx_upd_spiRec (s : State) (k : Nat) (v : Option Nat) : (applyUpd (.canTx k v) s).spiRec = s.spiRec := rfl
@[simp] theorem canTx_upd_spiStepCfg (s : State) (k : Nat) (v : Option Nat) : (applyUpd (.canTx k v) s).spiStepCfg = s.spiStepCfg := rfl
@[simp] theorem canTx_upd_ctxs (s : State) (k : Nat) (v : Option Nat) : (applyUpd (.canTx k v) s).ctxs = s.ctxs := rfl
@[simp] theorem canTx_upd_fsyOmit (s : State) (k : Nat) (v : Option Nat) : (applyUpd (.canTx k v) s).fsyOmit = s.fsyOmit := rfl
@[simp] theorem canTx_upd_fsyPulsed (s : State) (k : Nat) (v : Option Nat) : (applyUpd (.canTx k v) s).fsyPulsed = s.fsyPulsed := rfl
@[simp] theorem canTx_upd_supTasks (s : State) (k : Nat) (v : Option Nat) : (applyUpd (.canTx k v) s).supTasks = s.supTasks := rfl
@[simp] theorem canTx_upd_fus (s : State) (k : Nat) (v : Option Nat) : (applyUpd (.canTx k v) s).fus = s.fus := rfl
@[simp] theorem canTx_upd_fcons (s : State) (k : Nat) (v : Option Nat) : (applyUpd (.canTx k v) s).fcons = s.fcons := rfl
@[simp] theorem canTx_upd_shadow (s : State) (k : Nat) (v : Option Nat) : (applyUpd (.canTx k v) s).shadow = s.shadow := rfl
@[simp] theorem canTx_upd_trv (s : State) (k : Nat) (v : Option Nat) : (applyUpd (.canTx k v) s).trv = s.trv := rfl
@[simp] theorem canTx_upd_tlayers (s : State) (k : Nat) (v : Option Nat) : (applyUpd (.canTx k v) s).tlayers = s.tlayers := rfl
@[simp] theorem canTx_upd_jobFaults (s : State) (k : Nat) (v : Option Nat) : (applyUpd (.canTx k v) s).jobFaults = s.jobFaults := rfl
@[simp] theorem canTx_upd_unitLast (s : State) (k : Nat) (v : Option Nat) : (applyUpd (.canTx k v) s).unitLast = s.unitLast := rfl
@[simp] theorem canTx_upd_unitRst (s : State) (k : Nat) (v : Option Nat) : (applyUpd (.canTx k v) s).unitRst = s.unitRst := rfl
@[simp] theorem canTx_upd_xlink (s : State) (k : Nat) (v : Option Nat) : (applyUpd (.canTx k v) s).xlink = s.xlink := rfl
@[simp] theorem canTx_upd_trace (s : State) (k : Nat) (v : Option Nat) : (applyUpd (.canTx k v) s).trace = s.trace := rfl
@[simp] theorem canTx_upd_progs (s : State) (k : Nat) (v : Option Nat) : (applyUpd (.canTx k v) s).progs = s.progs := rfl
@[simp] theorem canTx_upd_rails (s : State) (k : Nat) (v : Option Nat) : (applyUpd (.canTx k v) s).rails = s.rails := rfl
@[simp] theorem canTx_upd_thm (s : State) (k : Nat) (v : Option Nat) : (applyUpd (.canTx k v) s).thm = s.thm := rfl
@[simp] theorem canTx_upd_bnd (s : State) (k : Nat) (v : Option Nat) : (applyUpd (.canTx k v) s).bnd = s.bnd := rfl
@[simp] theorem canTx_upd_thmTrip (s : State) (k : Nat) (v : Option Nat) : (applyUpd (.canTx k v) s).thmTrip = s.thmTrip := rfl
@[simp] theorem canTx_upd_flash (s : State) (k : Nat) (v : Option Nat) : (applyUpd (.canTx k v) s).flash = s.flash := rfl
@[simp] theorem canTx_upd_slots (s : State) (k : Nat) (v : Option Nat) : (applyUpd (.canTx k v) s).slots = s.slots := rfl
@[simp] theorem canTx_upd_stores (s : State) (k : Nat) (v : Option Nat) : (applyUpd (.canTx k v) s).stores = s.stores := rfl
@[simp] theorem canTx_upd_ids (s : State) (k : Nat) (v : Option Nat) : (applyUpd (.canTx k v) s).ids = s.ids := rfl
@[simp] theorem canTx_upd_boot (s : State) (k : Nat) (v : Option Nat) : (applyUpd (.canTx k v) s).boot = s.boot := rfl
@[simp] theorem canTx_upd_load (s : State) (k : Nat) (v : Option Nat) : (applyUpd (.canTx k v) s).load = s.load := rfl
@[simp] theorem canTx_upd_flt (s : State) (k : Nat) (v : Option Nat) : (applyUpd (.canTx k v) s).flt = s.flt := rfl
@[simp] theorem canTx_upd_mon (s : State) (k : Nat) (v : Option Nat) : (applyUpd (.canTx k v) s).mon = s.mon := rfl
@[simp] theorem pcieOut_upd_pending (s : State) (v : List (ReqOp × Req)) : (applyUpd (.pcieOut v) s).pending = s.pending := rfl
@[simp] theorem pcieOut_upd_regs (s : State) (v : List (ReqOp × Req)) : (applyUpd (.pcieOut v) s).regs = s.regs := rfl
@[simp] theorem pcieOut_upd_mem (s : State) (v : List (ReqOp × Req)) : (applyUpd (.pcieOut v) s).mem = s.mem := rfl
@[simp] theorem pcieOut_upd_sram (s : State) (v : List (ReqOp × Req)) : (applyUpd (.pcieOut v) s).sram = s.sram := rfl
@[simp] theorem pcieOut_upd_time (s : State) (v : List (ReqOp × Req)) : (applyUpd (.pcieOut v) s).time = s.time := rfl
@[simp] theorem pcieOut_upd_timeFrac (s : State) (v : List (ReqOp × Req)) : (applyUpd (.pcieOut v) s).timeFrac = s.timeFrac := rfl
@[simp] theorem pcieOut_upd_freeCtr (s : State) (v : List (ReqOp × Req)) : (applyUpd (.pcieOut v) s).freeCtr = s.freeCtr := rfl
@[simp] theorem pcieOut_upd_hiLatch (s : State) (v : List (ReqOp × Req)) : (applyUpd (.pcieOut v) s).hiLatch = s.hiLatch := rfl
@[simp] theorem pcieOut_upd_timeSet (s : State) (v : List (ReqOp × Req)) : (applyUpd (.pcieOut v) s).timeSet = s.timeSet := rfl
@[simp] theorem pcieOut_upd_n0 (s : State) (v : List (ReqOp × Req)) : (applyUpd (.pcieOut v) s).n0 = s.n0 := rfl
@[simp] theorem pcieOut_upd_ticked (s : State) (v : List (ReqOp × Req)) : (applyUpd (.pcieOut v) s).ticked = s.ticked := rfl
@[simp] theorem pcieOut_upd_peerTickAt (s : State) (v : List (ReqOp × Req)) : (applyUpd (.pcieOut v) s).peerTickAt = s.peerTickAt := rfl
@[simp] theorem pcieOut_upd_guardPitch (s : State) (v : List (ReqOp × Req)) : (applyUpd (.pcieOut v) s).guardPitch = s.guardPitch := rfl
@[simp] theorem pcieOut_upd_diePitch (s : State) (v : List (ReqOp × Req)) : (applyUpd (.pcieOut v) s).diePitch = s.diePitch := rfl
@[simp] theorem pcieOut_upd_resps (s : State) (v : List (ReqOp × Req)) : (applyUpd (.pcieOut v) s).resps = s.resps := rfl
@[simp] theorem pcieOut_upd_txns (s : State) (v : List (ReqOp × Req)) : (applyUpd (.pcieOut v) s).txns = s.txns := rfl
@[simp] theorem pcieOut_upd_nextTag (s : State) (v : List (ReqOp × Req)) : (applyUpd (.pcieOut v) s).nextTag = s.nextTag := rfl
@[simp] theorem pcieOut_upd_lateTags (s : State) (v : List (ReqOp × Req)) : (applyUpd (.pcieOut v) s).lateTags = s.lateTags := rfl
@[simp] theorem pcieOut_upd_ports (s : State) (v : List (ReqOp × Req)) : (applyUpd (.pcieOut v) s).ports = s.ports := rfl
@[simp] theorem pcieOut_upd_threads (s : State) (v : List (ReqOp × Req)) : (applyUpd (.pcieOut v) s).threads = s.threads := rfl
@[simp] theorem pcieOut_upd_cores (s : State) (v : List (ReqOp × Req)) : (applyUpd (.pcieOut v) s).cores = s.cores := rfl
@[simp] theorem pcieOut_upd_engines (s : State) (v : List (ReqOp × Req)) : (applyUpd (.pcieOut v) s).engines = s.engines := rfl
@[simp] theorem pcieOut_upd_held (s : State) (v : List (ReqOp × Req)) : (applyUpd (.pcieOut v) s).held = s.held := rfl
@[simp] theorem pcieOut_upd_watches (s : State) (v : List (ReqOp × Req)) : (applyUpd (.pcieOut v) s).watches = s.watches := rfl
@[simp] theorem pcieOut_upd_watchMsgs (s : State) (v : List (ReqOp × Req)) : (applyUpd (.pcieOut v) s).watchMsgs = s.watchMsgs := rfl
@[simp] theorem pcieOut_upd_bankHeld (s : State) (v : List (ReqOp × Req)) : (applyUpd (.pcieOut v) s).bankHeld = s.bankHeld := rfl
@[simp] theorem pcieOut_upd_bankTarget (s : State) (v : List (ReqOp × Req)) : (applyUpd (.pcieOut v) s).bankTarget = s.bankTarget := rfl
@[simp] theorem pcieOut_upd_ecc (s : State) (v : List (ReqOp × Req)) : (applyUpd (.pcieOut v) s).ecc = s.ecc := rfl
@[simp] theorem pcieOut_upd_lineEcc (s : State) (v : List (ReqOp × Req)) : (applyUpd (.pcieOut v) s).lineEcc = s.lineEcc := rfl
@[simp] theorem pcieOut_upd_wbPending (s : State) (v : List (ReqOp × Req)) : (applyUpd (.pcieOut v) s).wbPending = s.wbPending := rfl
@[simp] theorem pcieOut_upd_scrubPos (s : State) (v : List (ReqOp × Req)) : (applyUpd (.pcieOut v) s).scrubPos = s.scrubPos := rfl
@[simp] theorem pcieOut_upd_refusals (s : State) (v : List (ReqOp × Req)) : (applyUpd (.pcieOut v) s).refusals = s.refusals := rfl
@[simp] theorem pcieOut_upd_firstRefusal (s : State) (v : List (ReqOp × Req)) : (applyUpd (.pcieOut v) s).firstRefusal = s.firstRefusal := rfl
@[simp] theorem pcieOut_upd_boxQueue (s : State) (v : List (ReqOp × Req)) : (applyUpd (.pcieOut v) s).boxQueue = s.boxQueue := rfl
@[simp] theorem pcieOut_upd_boxRun (s : State) (v : List (ReqOp × Req)) : (applyUpd (.pcieOut v) s).boxRun = s.boxRun := rfl
@[simp] theorem pcieOut_upd_kvs (s : State) (v : List (ReqOp × Req)) : (applyUpd (.pcieOut v) s).kvs = s.kvs := rfl
@[simp] theorem pcieOut_upd_parts (s : State) (v : List (ReqOp × Req)) : (applyUpd (.pcieOut v) s).parts = s.parts := rfl
@[simp] theorem pcieOut_upd_dmas (s : State) (v : List (ReqOp × Req)) : (applyUpd (.pcieOut v) s).dmas = s.dmas := rfl
@[simp] theorem pcieOut_upd_regReqs (s : State) (v : List (ReqOp × Req)) : (applyUpd (.pcieOut v) s).regReqs = s.regReqs := rfl
@[simp] theorem pcieOut_upd_regPorts (s : State) (v : List (ReqOp × Req)) : (applyUpd (.pcieOut v) s).regPorts = s.regPorts := rfl
@[simp] theorem pcieOut_upd_subchs (s : State) (v : List (ReqOp × Req)) : (applyUpd (.pcieOut v) s).subchs = s.subchs := rfl
@[simp] theorem pcieOut_upd_trackers (s : State) (v : List (ReqOp × Req)) : (applyUpd (.pcieOut v) s).trackers = s.trackers := rfl
@[simp] theorem pcieOut_upd_throttles (s : State) (v : List (ReqOp × Req)) : (applyUpd (.pcieOut v) s).throttles = s.throttles := rfl
@[simp] theorem pcieOut_upd_errRing (s : State) (v : List (ReqOp × Req)) : (applyUpd (.pcieOut v) s).errRing = s.errRing := rfl
@[simp] theorem pcieOut_upd_errRingOvf (s : State) (v : List (ReqOp × Req)) : (applyUpd (.pcieOut v) s).errRingOvf = s.errRingOvf := rfl
@[simp] theorem pcieOut_upd_patrolLine (s : State) (v : List (ReqOp × Req)) : (applyUpd (.pcieOut v) s).patrolLine = s.patrolLine := rfl
@[simp] theorem pcieOut_upd_retTimes (s : State) (v : List (ReqOp × Req)) : (applyUpd (.pcieOut v) s).retTimes = s.retTimes := rfl
@[simp] theorem pcieOut_upd_retired (s : State) (v : List (ReqOp × Req)) : (applyUpd (.pcieOut v) s).retired = s.retired := rfl
@[simp] theorem pcieOut_upd_dramSeq (s : State) (v : List (ReqOp × Req)) : (applyUpd (.pcieOut v) s).dramSeq = s.dramSeq := rfl
@[simp] theorem pcieOut_upd_trn (s : State) (v : List (ReqOp × Req)) : (applyUpd (.pcieOut v) s).trn = s.trn := rfl
@[simp] theorem pcieOut_upd_dqsAdj (s : State) (v : List (ReqOp × Req)) : (applyUpd (.pcieOut v) s).dqsAdj = s.dqsAdj := rfl
@[simp] theorem pcieOut_upd_dpol (s : State) (v : List (ReqOp × Req)) : (applyUpd (.pcieOut v) s).dpol = s.dpol := rfl
@[simp] theorem pcieOut_upd_idleAt (s : State) (v : List (ReqOp × Req)) : (applyUpd (.pcieOut v) s).idleAt = s.idleAt := rfl
@[simp] theorem pcieOut_upd_fitted (s : State) (v : List (ReqOp × Req)) : (applyUpd (.pcieOut v) s).fitted = s.fitted := rfl
@[simp] theorem pcieOut_upd_faultMsgs (s : State) (v : List (ReqOp × Req)) : (applyUpd (.pcieOut v) s).faultMsgs = s.faultMsgs := rfl
@[simp] theorem pcieOut_upd_out (s : State) (v : List (ReqOp × Req)) : (applyUpd (.pcieOut v) s).out = s.out := rfl
@[simp] theorem pcieOut_upd_lastRead (s : State) (v : List (ReqOp × Req)) : (applyUpd (.pcieOut v) s).lastRead = s.lastRead := rfl
@[simp] theorem pcieOut_upd_fwd (s : State) (v : List (ReqOp × Req)) : (applyUpd (.pcieOut v) s).fwd = s.fwd := rfl
@[simp] theorem pcieOut_upd_ethTx (s : State) (v : List (ReqOp × Req)) : (applyUpd (.pcieOut v) s).ethTx = s.ethTx := rfl
@[simp] theorem pcieOut_upd_ethHeadAt (s : State) (v : List (ReqOp × Req)) : (applyUpd (.pcieOut v) s).ethHeadAt = s.ethHeadAt := rfl
@[simp] theorem pcieOut_upd_canTx (s : State) (v : List (ReqOp × Req)) : (applyUpd (.pcieOut v) s).canTx = s.canTx := rfl
@[simp] theorem pcieOut_upd_pcieOut (s : State) (v : List (ReqOp × Req)) : (applyUpd (.pcieOut v) s).pcieOut = v := rfl
@[simp] theorem pcieOut_upd_pcieCfgRd (s : State) (v : List (ReqOp × Req)) : (applyUpd (.pcieOut v) s).pcieCfgRd = s.pcieCfgRd := rfl
@[simp] theorem pcieOut_upd_msix (s : State) (v : List (ReqOp × Req)) : (applyUpd (.pcieOut v) s).msix = s.msix := rfl
@[simp] theorem pcieOut_upd_ancs (s : State) (v : List (ReqOp × Req)) : (applyUpd (.pcieOut v) s).ancs = s.ancs := rfl
@[simp] theorem pcieOut_upd_trajArea (s : State) (v : List (ReqOp × Req)) : (applyUpd (.pcieOut v) s).trajArea = s.trajArea := rfl
@[simp] theorem pcieOut_upd_lidarIn (s : State) (v : List (ReqOp × Req)) : (applyUpd (.pcieOut v) s).lidarIn = s.lidarIn := rfl
@[simp] theorem pcieOut_upd_wheelIn (s : State) (v : List (ReqOp × Req)) : (applyUpd (.pcieOut v) s).wheelIn = s.wheelIn := rfl
@[simp] theorem pcieOut_upd_spiStepBusy (s : State) (v : List (ReqOp × Req)) : (applyUpd (.pcieOut v) s).spiStepBusy = s.spiStepBusy := rfl
@[simp] theorem pcieOut_upd_spiRec (s : State) (v : List (ReqOp × Req)) : (applyUpd (.pcieOut v) s).spiRec = s.spiRec := rfl
@[simp] theorem pcieOut_upd_spiStepCfg (s : State) (v : List (ReqOp × Req)) : (applyUpd (.pcieOut v) s).spiStepCfg = s.spiStepCfg := rfl
@[simp] theorem pcieOut_upd_ctxs (s : State) (v : List (ReqOp × Req)) : (applyUpd (.pcieOut v) s).ctxs = s.ctxs := rfl
@[simp] theorem pcieOut_upd_fsyOmit (s : State) (v : List (ReqOp × Req)) : (applyUpd (.pcieOut v) s).fsyOmit = s.fsyOmit := rfl
@[simp] theorem pcieOut_upd_fsyPulsed (s : State) (v : List (ReqOp × Req)) : (applyUpd (.pcieOut v) s).fsyPulsed = s.fsyPulsed := rfl
@[simp] theorem pcieOut_upd_supTasks (s : State) (v : List (ReqOp × Req)) : (applyUpd (.pcieOut v) s).supTasks = s.supTasks := rfl
@[simp] theorem pcieOut_upd_fus (s : State) (v : List (ReqOp × Req)) : (applyUpd (.pcieOut v) s).fus = s.fus := rfl
@[simp] theorem pcieOut_upd_fcons (s : State) (v : List (ReqOp × Req)) : (applyUpd (.pcieOut v) s).fcons = s.fcons := rfl
@[simp] theorem pcieOut_upd_shadow (s : State) (v : List (ReqOp × Req)) : (applyUpd (.pcieOut v) s).shadow = s.shadow := rfl
@[simp] theorem pcieOut_upd_trv (s : State) (v : List (ReqOp × Req)) : (applyUpd (.pcieOut v) s).trv = s.trv := rfl
@[simp] theorem pcieOut_upd_tlayers (s : State) (v : List (ReqOp × Req)) : (applyUpd (.pcieOut v) s).tlayers = s.tlayers := rfl
@[simp] theorem pcieOut_upd_jobFaults (s : State) (v : List (ReqOp × Req)) : (applyUpd (.pcieOut v) s).jobFaults = s.jobFaults := rfl
@[simp] theorem pcieOut_upd_unitLast (s : State) (v : List (ReqOp × Req)) : (applyUpd (.pcieOut v) s).unitLast = s.unitLast := rfl
@[simp] theorem pcieOut_upd_unitRst (s : State) (v : List (ReqOp × Req)) : (applyUpd (.pcieOut v) s).unitRst = s.unitRst := rfl
@[simp] theorem pcieOut_upd_xlink (s : State) (v : List (ReqOp × Req)) : (applyUpd (.pcieOut v) s).xlink = s.xlink := rfl
@[simp] theorem pcieOut_upd_trace (s : State) (v : List (ReqOp × Req)) : (applyUpd (.pcieOut v) s).trace = s.trace := rfl
@[simp] theorem pcieOut_upd_progs (s : State) (v : List (ReqOp × Req)) : (applyUpd (.pcieOut v) s).progs = s.progs := rfl
@[simp] theorem pcieOut_upd_rails (s : State) (v : List (ReqOp × Req)) : (applyUpd (.pcieOut v) s).rails = s.rails := rfl
@[simp] theorem pcieOut_upd_thm (s : State) (v : List (ReqOp × Req)) : (applyUpd (.pcieOut v) s).thm = s.thm := rfl
@[simp] theorem pcieOut_upd_bnd (s : State) (v : List (ReqOp × Req)) : (applyUpd (.pcieOut v) s).bnd = s.bnd := rfl
@[simp] theorem pcieOut_upd_thmTrip (s : State) (v : List (ReqOp × Req)) : (applyUpd (.pcieOut v) s).thmTrip = s.thmTrip := rfl
@[simp] theorem pcieOut_upd_flash (s : State) (v : List (ReqOp × Req)) : (applyUpd (.pcieOut v) s).flash = s.flash := rfl
@[simp] theorem pcieOut_upd_slots (s : State) (v : List (ReqOp × Req)) : (applyUpd (.pcieOut v) s).slots = s.slots := rfl
@[simp] theorem pcieOut_upd_stores (s : State) (v : List (ReqOp × Req)) : (applyUpd (.pcieOut v) s).stores = s.stores := rfl
@[simp] theorem pcieOut_upd_ids (s : State) (v : List (ReqOp × Req)) : (applyUpd (.pcieOut v) s).ids = s.ids := rfl
@[simp] theorem pcieOut_upd_boot (s : State) (v : List (ReqOp × Req)) : (applyUpd (.pcieOut v) s).boot = s.boot := rfl
@[simp] theorem pcieOut_upd_load (s : State) (v : List (ReqOp × Req)) : (applyUpd (.pcieOut v) s).load = s.load := rfl
@[simp] theorem pcieOut_upd_flt (s : State) (v : List (ReqOp × Req)) : (applyUpd (.pcieOut v) s).flt = s.flt := rfl
@[simp] theorem pcieOut_upd_mon (s : State) (v : List (ReqOp × Req)) : (applyUpd (.pcieOut v) s).mon = s.mon := rfl
@[simp] theorem pcieCfgRd_upd_pending (s : State) (v : Option Master) : (applyUpd (.pcieCfgRd v) s).pending = s.pending := rfl
@[simp] theorem pcieCfgRd_upd_regs (s : State) (v : Option Master) : (applyUpd (.pcieCfgRd v) s).regs = s.regs := rfl
@[simp] theorem pcieCfgRd_upd_mem (s : State) (v : Option Master) : (applyUpd (.pcieCfgRd v) s).mem = s.mem := rfl
@[simp] theorem pcieCfgRd_upd_sram (s : State) (v : Option Master) : (applyUpd (.pcieCfgRd v) s).sram = s.sram := rfl
@[simp] theorem pcieCfgRd_upd_time (s : State) (v : Option Master) : (applyUpd (.pcieCfgRd v) s).time = s.time := rfl
@[simp] theorem pcieCfgRd_upd_timeFrac (s : State) (v : Option Master) : (applyUpd (.pcieCfgRd v) s).timeFrac = s.timeFrac := rfl
@[simp] theorem pcieCfgRd_upd_freeCtr (s : State) (v : Option Master) : (applyUpd (.pcieCfgRd v) s).freeCtr = s.freeCtr := rfl
@[simp] theorem pcieCfgRd_upd_hiLatch (s : State) (v : Option Master) : (applyUpd (.pcieCfgRd v) s).hiLatch = s.hiLatch := rfl
@[simp] theorem pcieCfgRd_upd_timeSet (s : State) (v : Option Master) : (applyUpd (.pcieCfgRd v) s).timeSet = s.timeSet := rfl
@[simp] theorem pcieCfgRd_upd_n0 (s : State) (v : Option Master) : (applyUpd (.pcieCfgRd v) s).n0 = s.n0 := rfl
@[simp] theorem pcieCfgRd_upd_ticked (s : State) (v : Option Master) : (applyUpd (.pcieCfgRd v) s).ticked = s.ticked := rfl
@[simp] theorem pcieCfgRd_upd_peerTickAt (s : State) (v : Option Master) : (applyUpd (.pcieCfgRd v) s).peerTickAt = s.peerTickAt := rfl
@[simp] theorem pcieCfgRd_upd_guardPitch (s : State) (v : Option Master) : (applyUpd (.pcieCfgRd v) s).guardPitch = s.guardPitch := rfl
@[simp] theorem pcieCfgRd_upd_diePitch (s : State) (v : Option Master) : (applyUpd (.pcieCfgRd v) s).diePitch = s.diePitch := rfl
@[simp] theorem pcieCfgRd_upd_resps (s : State) (v : Option Master) : (applyUpd (.pcieCfgRd v) s).resps = s.resps := rfl
@[simp] theorem pcieCfgRd_upd_txns (s : State) (v : Option Master) : (applyUpd (.pcieCfgRd v) s).txns = s.txns := rfl
@[simp] theorem pcieCfgRd_upd_nextTag (s : State) (v : Option Master) : (applyUpd (.pcieCfgRd v) s).nextTag = s.nextTag := rfl
@[simp] theorem pcieCfgRd_upd_lateTags (s : State) (v : Option Master) : (applyUpd (.pcieCfgRd v) s).lateTags = s.lateTags := rfl
@[simp] theorem pcieCfgRd_upd_ports (s : State) (v : Option Master) : (applyUpd (.pcieCfgRd v) s).ports = s.ports := rfl
@[simp] theorem pcieCfgRd_upd_threads (s : State) (v : Option Master) : (applyUpd (.pcieCfgRd v) s).threads = s.threads := rfl
@[simp] theorem pcieCfgRd_upd_cores (s : State) (v : Option Master) : (applyUpd (.pcieCfgRd v) s).cores = s.cores := rfl
@[simp] theorem pcieCfgRd_upd_engines (s : State) (v : Option Master) : (applyUpd (.pcieCfgRd v) s).engines = s.engines := rfl
@[simp] theorem pcieCfgRd_upd_held (s : State) (v : Option Master) : (applyUpd (.pcieCfgRd v) s).held = s.held := rfl
@[simp] theorem pcieCfgRd_upd_watches (s : State) (v : Option Master) : (applyUpd (.pcieCfgRd v) s).watches = s.watches := rfl
@[simp] theorem pcieCfgRd_upd_watchMsgs (s : State) (v : Option Master) : (applyUpd (.pcieCfgRd v) s).watchMsgs = s.watchMsgs := rfl
@[simp] theorem pcieCfgRd_upd_bankHeld (s : State) (v : Option Master) : (applyUpd (.pcieCfgRd v) s).bankHeld = s.bankHeld := rfl
@[simp] theorem pcieCfgRd_upd_bankTarget (s : State) (v : Option Master) : (applyUpd (.pcieCfgRd v) s).bankTarget = s.bankTarget := rfl
@[simp] theorem pcieCfgRd_upd_ecc (s : State) (v : Option Master) : (applyUpd (.pcieCfgRd v) s).ecc = s.ecc := rfl
@[simp] theorem pcieCfgRd_upd_lineEcc (s : State) (v : Option Master) : (applyUpd (.pcieCfgRd v) s).lineEcc = s.lineEcc := rfl
@[simp] theorem pcieCfgRd_upd_wbPending (s : State) (v : Option Master) : (applyUpd (.pcieCfgRd v) s).wbPending = s.wbPending := rfl
@[simp] theorem pcieCfgRd_upd_scrubPos (s : State) (v : Option Master) : (applyUpd (.pcieCfgRd v) s).scrubPos = s.scrubPos := rfl
@[simp] theorem pcieCfgRd_upd_refusals (s : State) (v : Option Master) : (applyUpd (.pcieCfgRd v) s).refusals = s.refusals := rfl
@[simp] theorem pcieCfgRd_upd_firstRefusal (s : State) (v : Option Master) : (applyUpd (.pcieCfgRd v) s).firstRefusal = s.firstRefusal := rfl
@[simp] theorem pcieCfgRd_upd_boxQueue (s : State) (v : Option Master) : (applyUpd (.pcieCfgRd v) s).boxQueue = s.boxQueue := rfl
@[simp] theorem pcieCfgRd_upd_boxRun (s : State) (v : Option Master) : (applyUpd (.pcieCfgRd v) s).boxRun = s.boxRun := rfl
@[simp] theorem pcieCfgRd_upd_kvs (s : State) (v : Option Master) : (applyUpd (.pcieCfgRd v) s).kvs = s.kvs := rfl
@[simp] theorem pcieCfgRd_upd_parts (s : State) (v : Option Master) : (applyUpd (.pcieCfgRd v) s).parts = s.parts := rfl
@[simp] theorem pcieCfgRd_upd_dmas (s : State) (v : Option Master) : (applyUpd (.pcieCfgRd v) s).dmas = s.dmas := rfl
@[simp] theorem pcieCfgRd_upd_regReqs (s : State) (v : Option Master) : (applyUpd (.pcieCfgRd v) s).regReqs = s.regReqs := rfl
@[simp] theorem pcieCfgRd_upd_regPorts (s : State) (v : Option Master) : (applyUpd (.pcieCfgRd v) s).regPorts = s.regPorts := rfl
@[simp] theorem pcieCfgRd_upd_subchs (s : State) (v : Option Master) : (applyUpd (.pcieCfgRd v) s).subchs = s.subchs := rfl
@[simp] theorem pcieCfgRd_upd_trackers (s : State) (v : Option Master) : (applyUpd (.pcieCfgRd v) s).trackers = s.trackers := rfl
@[simp] theorem pcieCfgRd_upd_throttles (s : State) (v : Option Master) : (applyUpd (.pcieCfgRd v) s).throttles = s.throttles := rfl
@[simp] theorem pcieCfgRd_upd_errRing (s : State) (v : Option Master) : (applyUpd (.pcieCfgRd v) s).errRing = s.errRing := rfl
@[simp] theorem pcieCfgRd_upd_errRingOvf (s : State) (v : Option Master) : (applyUpd (.pcieCfgRd v) s).errRingOvf = s.errRingOvf := rfl
@[simp] theorem pcieCfgRd_upd_patrolLine (s : State) (v : Option Master) : (applyUpd (.pcieCfgRd v) s).patrolLine = s.patrolLine := rfl
@[simp] theorem pcieCfgRd_upd_retTimes (s : State) (v : Option Master) : (applyUpd (.pcieCfgRd v) s).retTimes = s.retTimes := rfl
@[simp] theorem pcieCfgRd_upd_retired (s : State) (v : Option Master) : (applyUpd (.pcieCfgRd v) s).retired = s.retired := rfl
@[simp] theorem pcieCfgRd_upd_dramSeq (s : State) (v : Option Master) : (applyUpd (.pcieCfgRd v) s).dramSeq = s.dramSeq := rfl
@[simp] theorem pcieCfgRd_upd_trn (s : State) (v : Option Master) : (applyUpd (.pcieCfgRd v) s).trn = s.trn := rfl
@[simp] theorem pcieCfgRd_upd_dqsAdj (s : State) (v : Option Master) : (applyUpd (.pcieCfgRd v) s).dqsAdj = s.dqsAdj := rfl
@[simp] theorem pcieCfgRd_upd_dpol (s : State) (v : Option Master) : (applyUpd (.pcieCfgRd v) s).dpol = s.dpol := rfl
@[simp] theorem pcieCfgRd_upd_idleAt (s : State) (v : Option Master) : (applyUpd (.pcieCfgRd v) s).idleAt = s.idleAt := rfl
@[simp] theorem pcieCfgRd_upd_fitted (s : State) (v : Option Master) : (applyUpd (.pcieCfgRd v) s).fitted = s.fitted := rfl
@[simp] theorem pcieCfgRd_upd_faultMsgs (s : State) (v : Option Master) : (applyUpd (.pcieCfgRd v) s).faultMsgs = s.faultMsgs := rfl
@[simp] theorem pcieCfgRd_upd_out (s : State) (v : Option Master) : (applyUpd (.pcieCfgRd v) s).out = s.out := rfl
@[simp] theorem pcieCfgRd_upd_lastRead (s : State) (v : Option Master) : (applyUpd (.pcieCfgRd v) s).lastRead = s.lastRead := rfl
@[simp] theorem pcieCfgRd_upd_fwd (s : State) (v : Option Master) : (applyUpd (.pcieCfgRd v) s).fwd = s.fwd := rfl
@[simp] theorem pcieCfgRd_upd_ethTx (s : State) (v : Option Master) : (applyUpd (.pcieCfgRd v) s).ethTx = s.ethTx := rfl
@[simp] theorem pcieCfgRd_upd_ethHeadAt (s : State) (v : Option Master) : (applyUpd (.pcieCfgRd v) s).ethHeadAt = s.ethHeadAt := rfl
@[simp] theorem pcieCfgRd_upd_canTx (s : State) (v : Option Master) : (applyUpd (.pcieCfgRd v) s).canTx = s.canTx := rfl
@[simp] theorem pcieCfgRd_upd_pcieOut (s : State) (v : Option Master) : (applyUpd (.pcieCfgRd v) s).pcieOut = s.pcieOut := rfl
@[simp] theorem pcieCfgRd_upd_pcieCfgRd (s : State) (v : Option Master) : (applyUpd (.pcieCfgRd v) s).pcieCfgRd = v := rfl
@[simp] theorem pcieCfgRd_upd_msix (s : State) (v : Option Master) : (applyUpd (.pcieCfgRd v) s).msix = s.msix := rfl
@[simp] theorem pcieCfgRd_upd_ancs (s : State) (v : Option Master) : (applyUpd (.pcieCfgRd v) s).ancs = s.ancs := rfl
@[simp] theorem pcieCfgRd_upd_trajArea (s : State) (v : Option Master) : (applyUpd (.pcieCfgRd v) s).trajArea = s.trajArea := rfl
@[simp] theorem pcieCfgRd_upd_lidarIn (s : State) (v : Option Master) : (applyUpd (.pcieCfgRd v) s).lidarIn = s.lidarIn := rfl
@[simp] theorem pcieCfgRd_upd_wheelIn (s : State) (v : Option Master) : (applyUpd (.pcieCfgRd v) s).wheelIn = s.wheelIn := rfl
@[simp] theorem pcieCfgRd_upd_spiStepBusy (s : State) (v : Option Master) : (applyUpd (.pcieCfgRd v) s).spiStepBusy = s.spiStepBusy := rfl
@[simp] theorem pcieCfgRd_upd_spiRec (s : State) (v : Option Master) : (applyUpd (.pcieCfgRd v) s).spiRec = s.spiRec := rfl
@[simp] theorem pcieCfgRd_upd_spiStepCfg (s : State) (v : Option Master) : (applyUpd (.pcieCfgRd v) s).spiStepCfg = s.spiStepCfg := rfl
@[simp] theorem pcieCfgRd_upd_ctxs (s : State) (v : Option Master) : (applyUpd (.pcieCfgRd v) s).ctxs = s.ctxs := rfl
@[simp] theorem pcieCfgRd_upd_fsyOmit (s : State) (v : Option Master) : (applyUpd (.pcieCfgRd v) s).fsyOmit = s.fsyOmit := rfl
@[simp] theorem pcieCfgRd_upd_fsyPulsed (s : State) (v : Option Master) : (applyUpd (.pcieCfgRd v) s).fsyPulsed = s.fsyPulsed := rfl
@[simp] theorem pcieCfgRd_upd_supTasks (s : State) (v : Option Master) : (applyUpd (.pcieCfgRd v) s).supTasks = s.supTasks := rfl
@[simp] theorem pcieCfgRd_upd_fus (s : State) (v : Option Master) : (applyUpd (.pcieCfgRd v) s).fus = s.fus := rfl
@[simp] theorem pcieCfgRd_upd_fcons (s : State) (v : Option Master) : (applyUpd (.pcieCfgRd v) s).fcons = s.fcons := rfl
@[simp] theorem pcieCfgRd_upd_shadow (s : State) (v : Option Master) : (applyUpd (.pcieCfgRd v) s).shadow = s.shadow := rfl
@[simp] theorem pcieCfgRd_upd_trv (s : State) (v : Option Master) : (applyUpd (.pcieCfgRd v) s).trv = s.trv := rfl
@[simp] theorem pcieCfgRd_upd_tlayers (s : State) (v : Option Master) : (applyUpd (.pcieCfgRd v) s).tlayers = s.tlayers := rfl
@[simp] theorem pcieCfgRd_upd_jobFaults (s : State) (v : Option Master) : (applyUpd (.pcieCfgRd v) s).jobFaults = s.jobFaults := rfl
@[simp] theorem pcieCfgRd_upd_unitLast (s : State) (v : Option Master) : (applyUpd (.pcieCfgRd v) s).unitLast = s.unitLast := rfl
@[simp] theorem pcieCfgRd_upd_unitRst (s : State) (v : Option Master) : (applyUpd (.pcieCfgRd v) s).unitRst = s.unitRst := rfl
@[simp] theorem pcieCfgRd_upd_xlink (s : State) (v : Option Master) : (applyUpd (.pcieCfgRd v) s).xlink = s.xlink := rfl
@[simp] theorem pcieCfgRd_upd_trace (s : State) (v : Option Master) : (applyUpd (.pcieCfgRd v) s).trace = s.trace := rfl
@[simp] theorem pcieCfgRd_upd_progs (s : State) (v : Option Master) : (applyUpd (.pcieCfgRd v) s).progs = s.progs := rfl
@[simp] theorem pcieCfgRd_upd_rails (s : State) (v : Option Master) : (applyUpd (.pcieCfgRd v) s).rails = s.rails := rfl
@[simp] theorem pcieCfgRd_upd_thm (s : State) (v : Option Master) : (applyUpd (.pcieCfgRd v) s).thm = s.thm := rfl
@[simp] theorem pcieCfgRd_upd_bnd (s : State) (v : Option Master) : (applyUpd (.pcieCfgRd v) s).bnd = s.bnd := rfl
@[simp] theorem pcieCfgRd_upd_thmTrip (s : State) (v : Option Master) : (applyUpd (.pcieCfgRd v) s).thmTrip = s.thmTrip := rfl
@[simp] theorem pcieCfgRd_upd_flash (s : State) (v : Option Master) : (applyUpd (.pcieCfgRd v) s).flash = s.flash := rfl
@[simp] theorem pcieCfgRd_upd_slots (s : State) (v : Option Master) : (applyUpd (.pcieCfgRd v) s).slots = s.slots := rfl
@[simp] theorem pcieCfgRd_upd_stores (s : State) (v : Option Master) : (applyUpd (.pcieCfgRd v) s).stores = s.stores := rfl
@[simp] theorem pcieCfgRd_upd_ids (s : State) (v : Option Master) : (applyUpd (.pcieCfgRd v) s).ids = s.ids := rfl
@[simp] theorem pcieCfgRd_upd_boot (s : State) (v : Option Master) : (applyUpd (.pcieCfgRd v) s).boot = s.boot := rfl
@[simp] theorem pcieCfgRd_upd_load (s : State) (v : Option Master) : (applyUpd (.pcieCfgRd v) s).load = s.load := rfl
@[simp] theorem pcieCfgRd_upd_flt (s : State) (v : Option Master) : (applyUpd (.pcieCfgRd v) s).flt = s.flt := rfl
@[simp] theorem pcieCfgRd_upd_mon (s : State) (v : Option Master) : (applyUpd (.pcieCfgRd v) s).mon = s.mon := rfl
@[simp] theorem msix_upd_pending (s : State) (k : Nat) (v : Nat) : (applyUpd (.msix k v) s).pending = s.pending := rfl
@[simp] theorem msix_upd_regs (s : State) (k : Nat) (v : Nat) : (applyUpd (.msix k v) s).regs = s.regs := rfl
@[simp] theorem msix_upd_mem (s : State) (k : Nat) (v : Nat) : (applyUpd (.msix k v) s).mem = s.mem := rfl
@[simp] theorem msix_upd_sram (s : State) (k : Nat) (v : Nat) : (applyUpd (.msix k v) s).sram = s.sram := rfl
@[simp] theorem msix_upd_time (s : State) (k : Nat) (v : Nat) : (applyUpd (.msix k v) s).time = s.time := rfl
@[simp] theorem msix_upd_timeFrac (s : State) (k : Nat) (v : Nat) : (applyUpd (.msix k v) s).timeFrac = s.timeFrac := rfl
@[simp] theorem msix_upd_freeCtr (s : State) (k : Nat) (v : Nat) : (applyUpd (.msix k v) s).freeCtr = s.freeCtr := rfl
@[simp] theorem msix_upd_hiLatch (s : State) (k : Nat) (v : Nat) : (applyUpd (.msix k v) s).hiLatch = s.hiLatch := rfl
@[simp] theorem msix_upd_timeSet (s : State) (k : Nat) (v : Nat) : (applyUpd (.msix k v) s).timeSet = s.timeSet := rfl
@[simp] theorem msix_upd_n0 (s : State) (k : Nat) (v : Nat) : (applyUpd (.msix k v) s).n0 = s.n0 := rfl
@[simp] theorem msix_upd_ticked (s : State) (k : Nat) (v : Nat) : (applyUpd (.msix k v) s).ticked = s.ticked := rfl
@[simp] theorem msix_upd_peerTickAt (s : State) (k : Nat) (v : Nat) : (applyUpd (.msix k v) s).peerTickAt = s.peerTickAt := rfl
@[simp] theorem msix_upd_guardPitch (s : State) (k : Nat) (v : Nat) : (applyUpd (.msix k v) s).guardPitch = s.guardPitch := rfl
@[simp] theorem msix_upd_diePitch (s : State) (k : Nat) (v : Nat) : (applyUpd (.msix k v) s).diePitch = s.diePitch := rfl
@[simp] theorem msix_upd_resps (s : State) (k : Nat) (v : Nat) : (applyUpd (.msix k v) s).resps = s.resps := rfl
@[simp] theorem msix_upd_txns (s : State) (k : Nat) (v : Nat) : (applyUpd (.msix k v) s).txns = s.txns := rfl
@[simp] theorem msix_upd_nextTag (s : State) (k : Nat) (v : Nat) : (applyUpd (.msix k v) s).nextTag = s.nextTag := rfl
@[simp] theorem msix_upd_lateTags (s : State) (k : Nat) (v : Nat) : (applyUpd (.msix k v) s).lateTags = s.lateTags := rfl
@[simp] theorem msix_upd_ports (s : State) (k : Nat) (v : Nat) : (applyUpd (.msix k v) s).ports = s.ports := rfl
@[simp] theorem msix_upd_threads (s : State) (k : Nat) (v : Nat) : (applyUpd (.msix k v) s).threads = s.threads := rfl
@[simp] theorem msix_upd_cores (s : State) (k : Nat) (v : Nat) : (applyUpd (.msix k v) s).cores = s.cores := rfl
@[simp] theorem msix_upd_engines (s : State) (k : Nat) (v : Nat) : (applyUpd (.msix k v) s).engines = s.engines := rfl
@[simp] theorem msix_upd_held (s : State) (k : Nat) (v : Nat) : (applyUpd (.msix k v) s).held = s.held := rfl
@[simp] theorem msix_upd_watches (s : State) (k : Nat) (v : Nat) : (applyUpd (.msix k v) s).watches = s.watches := rfl
@[simp] theorem msix_upd_watchMsgs (s : State) (k : Nat) (v : Nat) : (applyUpd (.msix k v) s).watchMsgs = s.watchMsgs := rfl
@[simp] theorem msix_upd_bankHeld (s : State) (k : Nat) (v : Nat) : (applyUpd (.msix k v) s).bankHeld = s.bankHeld := rfl
@[simp] theorem msix_upd_bankTarget (s : State) (k : Nat) (v : Nat) : (applyUpd (.msix k v) s).bankTarget = s.bankTarget := rfl
@[simp] theorem msix_upd_ecc (s : State) (k : Nat) (v : Nat) : (applyUpd (.msix k v) s).ecc = s.ecc := rfl
@[simp] theorem msix_upd_lineEcc (s : State) (k : Nat) (v : Nat) : (applyUpd (.msix k v) s).lineEcc = s.lineEcc := rfl
@[simp] theorem msix_upd_wbPending (s : State) (k : Nat) (v : Nat) : (applyUpd (.msix k v) s).wbPending = s.wbPending := rfl
@[simp] theorem msix_upd_scrubPos (s : State) (k : Nat) (v : Nat) : (applyUpd (.msix k v) s).scrubPos = s.scrubPos := rfl
@[simp] theorem msix_upd_refusals (s : State) (k : Nat) (v : Nat) : (applyUpd (.msix k v) s).refusals = s.refusals := rfl
@[simp] theorem msix_upd_firstRefusal (s : State) (k : Nat) (v : Nat) : (applyUpd (.msix k v) s).firstRefusal = s.firstRefusal := rfl
@[simp] theorem msix_upd_boxQueue (s : State) (k : Nat) (v : Nat) : (applyUpd (.msix k v) s).boxQueue = s.boxQueue := rfl
@[simp] theorem msix_upd_boxRun (s : State) (k : Nat) (v : Nat) : (applyUpd (.msix k v) s).boxRun = s.boxRun := rfl
@[simp] theorem msix_upd_kvs (s : State) (k : Nat) (v : Nat) : (applyUpd (.msix k v) s).kvs = s.kvs := rfl
@[simp] theorem msix_upd_parts (s : State) (k : Nat) (v : Nat) : (applyUpd (.msix k v) s).parts = s.parts := rfl
@[simp] theorem msix_upd_dmas (s : State) (k : Nat) (v : Nat) : (applyUpd (.msix k v) s).dmas = s.dmas := rfl
@[simp] theorem msix_upd_regReqs (s : State) (k : Nat) (v : Nat) : (applyUpd (.msix k v) s).regReqs = s.regReqs := rfl
@[simp] theorem msix_upd_regPorts (s : State) (k : Nat) (v : Nat) : (applyUpd (.msix k v) s).regPorts = s.regPorts := rfl
@[simp] theorem msix_upd_subchs (s : State) (k : Nat) (v : Nat) : (applyUpd (.msix k v) s).subchs = s.subchs := rfl
@[simp] theorem msix_upd_trackers (s : State) (k : Nat) (v : Nat) : (applyUpd (.msix k v) s).trackers = s.trackers := rfl
@[simp] theorem msix_upd_throttles (s : State) (k : Nat) (v : Nat) : (applyUpd (.msix k v) s).throttles = s.throttles := rfl
@[simp] theorem msix_upd_errRing (s : State) (k : Nat) (v : Nat) : (applyUpd (.msix k v) s).errRing = s.errRing := rfl
@[simp] theorem msix_upd_errRingOvf (s : State) (k : Nat) (v : Nat) : (applyUpd (.msix k v) s).errRingOvf = s.errRingOvf := rfl
@[simp] theorem msix_upd_patrolLine (s : State) (k : Nat) (v : Nat) : (applyUpd (.msix k v) s).patrolLine = s.patrolLine := rfl
@[simp] theorem msix_upd_retTimes (s : State) (k : Nat) (v : Nat) : (applyUpd (.msix k v) s).retTimes = s.retTimes := rfl
@[simp] theorem msix_upd_retired (s : State) (k : Nat) (v : Nat) : (applyUpd (.msix k v) s).retired = s.retired := rfl
@[simp] theorem msix_upd_dramSeq (s : State) (k : Nat) (v : Nat) : (applyUpd (.msix k v) s).dramSeq = s.dramSeq := rfl
@[simp] theorem msix_upd_trn (s : State) (k : Nat) (v : Nat) : (applyUpd (.msix k v) s).trn = s.trn := rfl
@[simp] theorem msix_upd_dqsAdj (s : State) (k : Nat) (v : Nat) : (applyUpd (.msix k v) s).dqsAdj = s.dqsAdj := rfl
@[simp] theorem msix_upd_dpol (s : State) (k : Nat) (v : Nat) : (applyUpd (.msix k v) s).dpol = s.dpol := rfl
@[simp] theorem msix_upd_idleAt (s : State) (k : Nat) (v : Nat) : (applyUpd (.msix k v) s).idleAt = s.idleAt := rfl
@[simp] theorem msix_upd_fitted (s : State) (k : Nat) (v : Nat) : (applyUpd (.msix k v) s).fitted = s.fitted := rfl
@[simp] theorem msix_upd_faultMsgs (s : State) (k : Nat) (v : Nat) : (applyUpd (.msix k v) s).faultMsgs = s.faultMsgs := rfl
@[simp] theorem msix_upd_out (s : State) (k : Nat) (v : Nat) : (applyUpd (.msix k v) s).out = s.out := rfl
@[simp] theorem msix_upd_lastRead (s : State) (k : Nat) (v : Nat) : (applyUpd (.msix k v) s).lastRead = s.lastRead := rfl
@[simp] theorem msix_upd_fwd (s : State) (k : Nat) (v : Nat) : (applyUpd (.msix k v) s).fwd = s.fwd := rfl
@[simp] theorem msix_upd_ethTx (s : State) (k : Nat) (v : Nat) : (applyUpd (.msix k v) s).ethTx = s.ethTx := rfl
@[simp] theorem msix_upd_ethHeadAt (s : State) (k : Nat) (v : Nat) : (applyUpd (.msix k v) s).ethHeadAt = s.ethHeadAt := rfl
@[simp] theorem msix_upd_canTx (s : State) (k : Nat) (v : Nat) : (applyUpd (.msix k v) s).canTx = s.canTx := rfl
@[simp] theorem msix_upd_pcieOut (s : State) (k : Nat) (v : Nat) : (applyUpd (.msix k v) s).pcieOut = s.pcieOut := rfl
@[simp] theorem msix_upd_pcieCfgRd (s : State) (k : Nat) (v : Nat) : (applyUpd (.msix k v) s).pcieCfgRd = s.pcieCfgRd := rfl
@[simp] theorem msix_upd_msix (s : State) (k : Nat) (v : Nat) : (applyUpd (.msix k v) s).msix = tabSet zeroNat s.msix k v := rfl
@[simp] theorem msix_upd_ancs (s : State) (k : Nat) (v : Nat) : (applyUpd (.msix k v) s).ancs = s.ancs := rfl
@[simp] theorem msix_upd_trajArea (s : State) (k : Nat) (v : Nat) : (applyUpd (.msix k v) s).trajArea = s.trajArea := rfl
@[simp] theorem msix_upd_lidarIn (s : State) (k : Nat) (v : Nat) : (applyUpd (.msix k v) s).lidarIn = s.lidarIn := rfl
@[simp] theorem msix_upd_wheelIn (s : State) (k : Nat) (v : Nat) : (applyUpd (.msix k v) s).wheelIn = s.wheelIn := rfl
@[simp] theorem msix_upd_spiStepBusy (s : State) (k : Nat) (v : Nat) : (applyUpd (.msix k v) s).spiStepBusy = s.spiStepBusy := rfl
@[simp] theorem msix_upd_spiRec (s : State) (k : Nat) (v : Nat) : (applyUpd (.msix k v) s).spiRec = s.spiRec := rfl
@[simp] theorem msix_upd_spiStepCfg (s : State) (k : Nat) (v : Nat) : (applyUpd (.msix k v) s).spiStepCfg = s.spiStepCfg := rfl
@[simp] theorem msix_upd_ctxs (s : State) (k : Nat) (v : Nat) : (applyUpd (.msix k v) s).ctxs = s.ctxs := rfl
@[simp] theorem msix_upd_fsyOmit (s : State) (k : Nat) (v : Nat) : (applyUpd (.msix k v) s).fsyOmit = s.fsyOmit := rfl
@[simp] theorem msix_upd_fsyPulsed (s : State) (k : Nat) (v : Nat) : (applyUpd (.msix k v) s).fsyPulsed = s.fsyPulsed := rfl
@[simp] theorem msix_upd_supTasks (s : State) (k : Nat) (v : Nat) : (applyUpd (.msix k v) s).supTasks = s.supTasks := rfl
@[simp] theorem msix_upd_fus (s : State) (k : Nat) (v : Nat) : (applyUpd (.msix k v) s).fus = s.fus := rfl
@[simp] theorem msix_upd_fcons (s : State) (k : Nat) (v : Nat) : (applyUpd (.msix k v) s).fcons = s.fcons := rfl
@[simp] theorem msix_upd_shadow (s : State) (k : Nat) (v : Nat) : (applyUpd (.msix k v) s).shadow = s.shadow := rfl
@[simp] theorem msix_upd_trv (s : State) (k : Nat) (v : Nat) : (applyUpd (.msix k v) s).trv = s.trv := rfl
@[simp] theorem msix_upd_tlayers (s : State) (k : Nat) (v : Nat) : (applyUpd (.msix k v) s).tlayers = s.tlayers := rfl
@[simp] theorem msix_upd_jobFaults (s : State) (k : Nat) (v : Nat) : (applyUpd (.msix k v) s).jobFaults = s.jobFaults := rfl
@[simp] theorem msix_upd_unitLast (s : State) (k : Nat) (v : Nat) : (applyUpd (.msix k v) s).unitLast = s.unitLast := rfl
@[simp] theorem msix_upd_unitRst (s : State) (k : Nat) (v : Nat) : (applyUpd (.msix k v) s).unitRst = s.unitRst := rfl
@[simp] theorem msix_upd_xlink (s : State) (k : Nat) (v : Nat) : (applyUpd (.msix k v) s).xlink = s.xlink := rfl
@[simp] theorem msix_upd_trace (s : State) (k : Nat) (v : Nat) : (applyUpd (.msix k v) s).trace = s.trace := rfl
@[simp] theorem msix_upd_progs (s : State) (k : Nat) (v : Nat) : (applyUpd (.msix k v) s).progs = s.progs := rfl
@[simp] theorem msix_upd_rails (s : State) (k : Nat) (v : Nat) : (applyUpd (.msix k v) s).rails = s.rails := rfl
@[simp] theorem msix_upd_thm (s : State) (k : Nat) (v : Nat) : (applyUpd (.msix k v) s).thm = s.thm := rfl
@[simp] theorem msix_upd_bnd (s : State) (k : Nat) (v : Nat) : (applyUpd (.msix k v) s).bnd = s.bnd := rfl
@[simp] theorem msix_upd_thmTrip (s : State) (k : Nat) (v : Nat) : (applyUpd (.msix k v) s).thmTrip = s.thmTrip := rfl
@[simp] theorem msix_upd_flash (s : State) (k : Nat) (v : Nat) : (applyUpd (.msix k v) s).flash = s.flash := rfl
@[simp] theorem msix_upd_slots (s : State) (k : Nat) (v : Nat) : (applyUpd (.msix k v) s).slots = s.slots := rfl
@[simp] theorem msix_upd_stores (s : State) (k : Nat) (v : Nat) : (applyUpd (.msix k v) s).stores = s.stores := rfl
@[simp] theorem msix_upd_ids (s : State) (k : Nat) (v : Nat) : (applyUpd (.msix k v) s).ids = s.ids := rfl
@[simp] theorem msix_upd_boot (s : State) (k : Nat) (v : Nat) : (applyUpd (.msix k v) s).boot = s.boot := rfl
@[simp] theorem msix_upd_load (s : State) (k : Nat) (v : Nat) : (applyUpd (.msix k v) s).load = s.load := rfl
@[simp] theorem msix_upd_flt (s : State) (k : Nat) (v : Nat) : (applyUpd (.msix k v) s).flt = s.flt := rfl
@[simp] theorem msix_upd_mon (s : State) (k : Nat) (v : Nat) : (applyUpd (.msix k v) s).mon = s.mon := rfl
@[simp] theorem ancs_upd_pending (s : State) (k : Nat) (v : Anc) : (applyUpd (.ancs k v) s).pending = s.pending := rfl
@[simp] theorem ancs_upd_regs (s : State) (k : Nat) (v : Anc) : (applyUpd (.ancs k v) s).regs = s.regs := rfl
@[simp] theorem ancs_upd_mem (s : State) (k : Nat) (v : Anc) : (applyUpd (.ancs k v) s).mem = s.mem := rfl
@[simp] theorem ancs_upd_sram (s : State) (k : Nat) (v : Anc) : (applyUpd (.ancs k v) s).sram = s.sram := rfl
@[simp] theorem ancs_upd_time (s : State) (k : Nat) (v : Anc) : (applyUpd (.ancs k v) s).time = s.time := rfl
@[simp] theorem ancs_upd_timeFrac (s : State) (k : Nat) (v : Anc) : (applyUpd (.ancs k v) s).timeFrac = s.timeFrac := rfl
@[simp] theorem ancs_upd_freeCtr (s : State) (k : Nat) (v : Anc) : (applyUpd (.ancs k v) s).freeCtr = s.freeCtr := rfl
@[simp] theorem ancs_upd_hiLatch (s : State) (k : Nat) (v : Anc) : (applyUpd (.ancs k v) s).hiLatch = s.hiLatch := rfl
@[simp] theorem ancs_upd_timeSet (s : State) (k : Nat) (v : Anc) : (applyUpd (.ancs k v) s).timeSet = s.timeSet := rfl
@[simp] theorem ancs_upd_n0 (s : State) (k : Nat) (v : Anc) : (applyUpd (.ancs k v) s).n0 = s.n0 := rfl
@[simp] theorem ancs_upd_ticked (s : State) (k : Nat) (v : Anc) : (applyUpd (.ancs k v) s).ticked = s.ticked := rfl
@[simp] theorem ancs_upd_peerTickAt (s : State) (k : Nat) (v : Anc) : (applyUpd (.ancs k v) s).peerTickAt = s.peerTickAt := rfl
@[simp] theorem ancs_upd_guardPitch (s : State) (k : Nat) (v : Anc) : (applyUpd (.ancs k v) s).guardPitch = s.guardPitch := rfl
@[simp] theorem ancs_upd_diePitch (s : State) (k : Nat) (v : Anc) : (applyUpd (.ancs k v) s).diePitch = s.diePitch := rfl
@[simp] theorem ancs_upd_resps (s : State) (k : Nat) (v : Anc) : (applyUpd (.ancs k v) s).resps = s.resps := rfl
@[simp] theorem ancs_upd_txns (s : State) (k : Nat) (v : Anc) : (applyUpd (.ancs k v) s).txns = s.txns := rfl
@[simp] theorem ancs_upd_nextTag (s : State) (k : Nat) (v : Anc) : (applyUpd (.ancs k v) s).nextTag = s.nextTag := rfl
@[simp] theorem ancs_upd_lateTags (s : State) (k : Nat) (v : Anc) : (applyUpd (.ancs k v) s).lateTags = s.lateTags := rfl
@[simp] theorem ancs_upd_ports (s : State) (k : Nat) (v : Anc) : (applyUpd (.ancs k v) s).ports = s.ports := rfl
@[simp] theorem ancs_upd_threads (s : State) (k : Nat) (v : Anc) : (applyUpd (.ancs k v) s).threads = s.threads := rfl
@[simp] theorem ancs_upd_cores (s : State) (k : Nat) (v : Anc) : (applyUpd (.ancs k v) s).cores = s.cores := rfl
@[simp] theorem ancs_upd_engines (s : State) (k : Nat) (v : Anc) : (applyUpd (.ancs k v) s).engines = s.engines := rfl
@[simp] theorem ancs_upd_held (s : State) (k : Nat) (v : Anc) : (applyUpd (.ancs k v) s).held = s.held := rfl
@[simp] theorem ancs_upd_watches (s : State) (k : Nat) (v : Anc) : (applyUpd (.ancs k v) s).watches = s.watches := rfl
@[simp] theorem ancs_upd_watchMsgs (s : State) (k : Nat) (v : Anc) : (applyUpd (.ancs k v) s).watchMsgs = s.watchMsgs := rfl
@[simp] theorem ancs_upd_bankHeld (s : State) (k : Nat) (v : Anc) : (applyUpd (.ancs k v) s).bankHeld = s.bankHeld := rfl
@[simp] theorem ancs_upd_bankTarget (s : State) (k : Nat) (v : Anc) : (applyUpd (.ancs k v) s).bankTarget = s.bankTarget := rfl
@[simp] theorem ancs_upd_ecc (s : State) (k : Nat) (v : Anc) : (applyUpd (.ancs k v) s).ecc = s.ecc := rfl
@[simp] theorem ancs_upd_lineEcc (s : State) (k : Nat) (v : Anc) : (applyUpd (.ancs k v) s).lineEcc = s.lineEcc := rfl
@[simp] theorem ancs_upd_wbPending (s : State) (k : Nat) (v : Anc) : (applyUpd (.ancs k v) s).wbPending = s.wbPending := rfl
@[simp] theorem ancs_upd_scrubPos (s : State) (k : Nat) (v : Anc) : (applyUpd (.ancs k v) s).scrubPos = s.scrubPos := rfl
@[simp] theorem ancs_upd_refusals (s : State) (k : Nat) (v : Anc) : (applyUpd (.ancs k v) s).refusals = s.refusals := rfl
@[simp] theorem ancs_upd_firstRefusal (s : State) (k : Nat) (v : Anc) : (applyUpd (.ancs k v) s).firstRefusal = s.firstRefusal := rfl
@[simp] theorem ancs_upd_boxQueue (s : State) (k : Nat) (v : Anc) : (applyUpd (.ancs k v) s).boxQueue = s.boxQueue := rfl
@[simp] theorem ancs_upd_boxRun (s : State) (k : Nat) (v : Anc) : (applyUpd (.ancs k v) s).boxRun = s.boxRun := rfl
@[simp] theorem ancs_upd_kvs (s : State) (k : Nat) (v : Anc) : (applyUpd (.ancs k v) s).kvs = s.kvs := rfl
@[simp] theorem ancs_upd_parts (s : State) (k : Nat) (v : Anc) : (applyUpd (.ancs k v) s).parts = s.parts := rfl
@[simp] theorem ancs_upd_dmas (s : State) (k : Nat) (v : Anc) : (applyUpd (.ancs k v) s).dmas = s.dmas := rfl
@[simp] theorem ancs_upd_regReqs (s : State) (k : Nat) (v : Anc) : (applyUpd (.ancs k v) s).regReqs = s.regReqs := rfl
@[simp] theorem ancs_upd_regPorts (s : State) (k : Nat) (v : Anc) : (applyUpd (.ancs k v) s).regPorts = s.regPorts := rfl
@[simp] theorem ancs_upd_subchs (s : State) (k : Nat) (v : Anc) : (applyUpd (.ancs k v) s).subchs = s.subchs := rfl
@[simp] theorem ancs_upd_trackers (s : State) (k : Nat) (v : Anc) : (applyUpd (.ancs k v) s).trackers = s.trackers := rfl
@[simp] theorem ancs_upd_throttles (s : State) (k : Nat) (v : Anc) : (applyUpd (.ancs k v) s).throttles = s.throttles := rfl
@[simp] theorem ancs_upd_errRing (s : State) (k : Nat) (v : Anc) : (applyUpd (.ancs k v) s).errRing = s.errRing := rfl
@[simp] theorem ancs_upd_errRingOvf (s : State) (k : Nat) (v : Anc) : (applyUpd (.ancs k v) s).errRingOvf = s.errRingOvf := rfl
@[simp] theorem ancs_upd_patrolLine (s : State) (k : Nat) (v : Anc) : (applyUpd (.ancs k v) s).patrolLine = s.patrolLine := rfl
@[simp] theorem ancs_upd_retTimes (s : State) (k : Nat) (v : Anc) : (applyUpd (.ancs k v) s).retTimes = s.retTimes := rfl
@[simp] theorem ancs_upd_retired (s : State) (k : Nat) (v : Anc) : (applyUpd (.ancs k v) s).retired = s.retired := rfl
@[simp] theorem ancs_upd_dramSeq (s : State) (k : Nat) (v : Anc) : (applyUpd (.ancs k v) s).dramSeq = s.dramSeq := rfl
@[simp] theorem ancs_upd_trn (s : State) (k : Nat) (v : Anc) : (applyUpd (.ancs k v) s).trn = s.trn := rfl
@[simp] theorem ancs_upd_dqsAdj (s : State) (k : Nat) (v : Anc) : (applyUpd (.ancs k v) s).dqsAdj = s.dqsAdj := rfl
@[simp] theorem ancs_upd_dpol (s : State) (k : Nat) (v : Anc) : (applyUpd (.ancs k v) s).dpol = s.dpol := rfl
@[simp] theorem ancs_upd_idleAt (s : State) (k : Nat) (v : Anc) : (applyUpd (.ancs k v) s).idleAt = s.idleAt := rfl
@[simp] theorem ancs_upd_fitted (s : State) (k : Nat) (v : Anc) : (applyUpd (.ancs k v) s).fitted = s.fitted := rfl
@[simp] theorem ancs_upd_faultMsgs (s : State) (k : Nat) (v : Anc) : (applyUpd (.ancs k v) s).faultMsgs = s.faultMsgs := rfl
@[simp] theorem ancs_upd_out (s : State) (k : Nat) (v : Anc) : (applyUpd (.ancs k v) s).out = s.out := rfl
@[simp] theorem ancs_upd_lastRead (s : State) (k : Nat) (v : Anc) : (applyUpd (.ancs k v) s).lastRead = s.lastRead := rfl
@[simp] theorem ancs_upd_fwd (s : State) (k : Nat) (v : Anc) : (applyUpd (.ancs k v) s).fwd = s.fwd := rfl
@[simp] theorem ancs_upd_ethTx (s : State) (k : Nat) (v : Anc) : (applyUpd (.ancs k v) s).ethTx = s.ethTx := rfl
@[simp] theorem ancs_upd_ethHeadAt (s : State) (k : Nat) (v : Anc) : (applyUpd (.ancs k v) s).ethHeadAt = s.ethHeadAt := rfl
@[simp] theorem ancs_upd_canTx (s : State) (k : Nat) (v : Anc) : (applyUpd (.ancs k v) s).canTx = s.canTx := rfl
@[simp] theorem ancs_upd_pcieOut (s : State) (k : Nat) (v : Anc) : (applyUpd (.ancs k v) s).pcieOut = s.pcieOut := rfl
@[simp] theorem ancs_upd_pcieCfgRd (s : State) (k : Nat) (v : Anc) : (applyUpd (.ancs k v) s).pcieCfgRd = s.pcieCfgRd := rfl
@[simp] theorem ancs_upd_msix (s : State) (k : Nat) (v : Anc) : (applyUpd (.ancs k v) s).msix = s.msix := rfl
@[simp] theorem ancs_upd_ancs (s : State) (k : Nat) (v : Anc) : (applyUpd (.ancs k v) s).ancs = tabSet ancDefault s.ancs k v := rfl
@[simp] theorem ancs_upd_trajArea (s : State) (k : Nat) (v : Anc) : (applyUpd (.ancs k v) s).trajArea = s.trajArea := rfl
@[simp] theorem ancs_upd_lidarIn (s : State) (k : Nat) (v : Anc) : (applyUpd (.ancs k v) s).lidarIn = s.lidarIn := rfl
@[simp] theorem ancs_upd_wheelIn (s : State) (k : Nat) (v : Anc) : (applyUpd (.ancs k v) s).wheelIn = s.wheelIn := rfl
@[simp] theorem ancs_upd_spiStepBusy (s : State) (k : Nat) (v : Anc) : (applyUpd (.ancs k v) s).spiStepBusy = s.spiStepBusy := rfl
@[simp] theorem ancs_upd_spiRec (s : State) (k : Nat) (v : Anc) : (applyUpd (.ancs k v) s).spiRec = s.spiRec := rfl
@[simp] theorem ancs_upd_spiStepCfg (s : State) (k : Nat) (v : Anc) : (applyUpd (.ancs k v) s).spiStepCfg = s.spiStepCfg := rfl
@[simp] theorem ancs_upd_ctxs (s : State) (k : Nat) (v : Anc) : (applyUpd (.ancs k v) s).ctxs = s.ctxs := rfl
@[simp] theorem ancs_upd_fsyOmit (s : State) (k : Nat) (v : Anc) : (applyUpd (.ancs k v) s).fsyOmit = s.fsyOmit := rfl
@[simp] theorem ancs_upd_fsyPulsed (s : State) (k : Nat) (v : Anc) : (applyUpd (.ancs k v) s).fsyPulsed = s.fsyPulsed := rfl
@[simp] theorem ancs_upd_supTasks (s : State) (k : Nat) (v : Anc) : (applyUpd (.ancs k v) s).supTasks = s.supTasks := rfl
@[simp] theorem ancs_upd_fus (s : State) (k : Nat) (v : Anc) : (applyUpd (.ancs k v) s).fus = s.fus := rfl
@[simp] theorem ancs_upd_fcons (s : State) (k : Nat) (v : Anc) : (applyUpd (.ancs k v) s).fcons = s.fcons := rfl
@[simp] theorem ancs_upd_shadow (s : State) (k : Nat) (v : Anc) : (applyUpd (.ancs k v) s).shadow = s.shadow := rfl
@[simp] theorem ancs_upd_trv (s : State) (k : Nat) (v : Anc) : (applyUpd (.ancs k v) s).trv = s.trv := rfl
@[simp] theorem ancs_upd_tlayers (s : State) (k : Nat) (v : Anc) : (applyUpd (.ancs k v) s).tlayers = s.tlayers := rfl
@[simp] theorem ancs_upd_jobFaults (s : State) (k : Nat) (v : Anc) : (applyUpd (.ancs k v) s).jobFaults = s.jobFaults := rfl
@[simp] theorem ancs_upd_unitLast (s : State) (k : Nat) (v : Anc) : (applyUpd (.ancs k v) s).unitLast = s.unitLast := rfl
@[simp] theorem ancs_upd_unitRst (s : State) (k : Nat) (v : Anc) : (applyUpd (.ancs k v) s).unitRst = s.unitRst := rfl
@[simp] theorem ancs_upd_xlink (s : State) (k : Nat) (v : Anc) : (applyUpd (.ancs k v) s).xlink = s.xlink := rfl
@[simp] theorem ancs_upd_trace (s : State) (k : Nat) (v : Anc) : (applyUpd (.ancs k v) s).trace = s.trace := rfl
@[simp] theorem ancs_upd_progs (s : State) (k : Nat) (v : Anc) : (applyUpd (.ancs k v) s).progs = s.progs := rfl
@[simp] theorem ancs_upd_rails (s : State) (k : Nat) (v : Anc) : (applyUpd (.ancs k v) s).rails = s.rails := rfl
@[simp] theorem ancs_upd_thm (s : State) (k : Nat) (v : Anc) : (applyUpd (.ancs k v) s).thm = s.thm := rfl
@[simp] theorem ancs_upd_bnd (s : State) (k : Nat) (v : Anc) : (applyUpd (.ancs k v) s).bnd = s.bnd := rfl
@[simp] theorem ancs_upd_thmTrip (s : State) (k : Nat) (v : Anc) : (applyUpd (.ancs k v) s).thmTrip = s.thmTrip := rfl
@[simp] theorem ancs_upd_flash (s : State) (k : Nat) (v : Anc) : (applyUpd (.ancs k v) s).flash = s.flash := rfl
@[simp] theorem ancs_upd_slots (s : State) (k : Nat) (v : Anc) : (applyUpd (.ancs k v) s).slots = s.slots := rfl
@[simp] theorem ancs_upd_stores (s : State) (k : Nat) (v : Anc) : (applyUpd (.ancs k v) s).stores = s.stores := rfl
@[simp] theorem ancs_upd_ids (s : State) (k : Nat) (v : Anc) : (applyUpd (.ancs k v) s).ids = s.ids := rfl
@[simp] theorem ancs_upd_boot (s : State) (k : Nat) (v : Anc) : (applyUpd (.ancs k v) s).boot = s.boot := rfl
@[simp] theorem ancs_upd_load (s : State) (k : Nat) (v : Anc) : (applyUpd (.ancs k v) s).load = s.load := rfl
@[simp] theorem ancs_upd_flt (s : State) (k : Nat) (v : Anc) : (applyUpd (.ancs k v) s).flt = s.flt := rfl
@[simp] theorem ancs_upd_mon (s : State) (k : Nat) (v : Anc) : (applyUpd (.ancs k v) s).mon = s.mon := rfl
@[simp] theorem trajArea_upd_pending (s : State) (k : Nat) (v : Byte) : (applyUpd (.trajArea k v) s).pending = s.pending := rfl
@[simp] theorem trajArea_upd_regs (s : State) (k : Nat) (v : Byte) : (applyUpd (.trajArea k v) s).regs = s.regs := rfl
@[simp] theorem trajArea_upd_mem (s : State) (k : Nat) (v : Byte) : (applyUpd (.trajArea k v) s).mem = s.mem := rfl
@[simp] theorem trajArea_upd_sram (s : State) (k : Nat) (v : Byte) : (applyUpd (.trajArea k v) s).sram = s.sram := rfl
@[simp] theorem trajArea_upd_time (s : State) (k : Nat) (v : Byte) : (applyUpd (.trajArea k v) s).time = s.time := rfl
@[simp] theorem trajArea_upd_timeFrac (s : State) (k : Nat) (v : Byte) : (applyUpd (.trajArea k v) s).timeFrac = s.timeFrac := rfl
@[simp] theorem trajArea_upd_freeCtr (s : State) (k : Nat) (v : Byte) : (applyUpd (.trajArea k v) s).freeCtr = s.freeCtr := rfl
@[simp] theorem trajArea_upd_hiLatch (s : State) (k : Nat) (v : Byte) : (applyUpd (.trajArea k v) s).hiLatch = s.hiLatch := rfl
@[simp] theorem trajArea_upd_timeSet (s : State) (k : Nat) (v : Byte) : (applyUpd (.trajArea k v) s).timeSet = s.timeSet := rfl
@[simp] theorem trajArea_upd_n0 (s : State) (k : Nat) (v : Byte) : (applyUpd (.trajArea k v) s).n0 = s.n0 := rfl
@[simp] theorem trajArea_upd_ticked (s : State) (k : Nat) (v : Byte) : (applyUpd (.trajArea k v) s).ticked = s.ticked := rfl
@[simp] theorem trajArea_upd_peerTickAt (s : State) (k : Nat) (v : Byte) : (applyUpd (.trajArea k v) s).peerTickAt = s.peerTickAt := rfl
@[simp] theorem trajArea_upd_guardPitch (s : State) (k : Nat) (v : Byte) : (applyUpd (.trajArea k v) s).guardPitch = s.guardPitch := rfl
@[simp] theorem trajArea_upd_diePitch (s : State) (k : Nat) (v : Byte) : (applyUpd (.trajArea k v) s).diePitch = s.diePitch := rfl
@[simp] theorem trajArea_upd_resps (s : State) (k : Nat) (v : Byte) : (applyUpd (.trajArea k v) s).resps = s.resps := rfl
@[simp] theorem trajArea_upd_txns (s : State) (k : Nat) (v : Byte) : (applyUpd (.trajArea k v) s).txns = s.txns := rfl
@[simp] theorem trajArea_upd_nextTag (s : State) (k : Nat) (v : Byte) : (applyUpd (.trajArea k v) s).nextTag = s.nextTag := rfl
@[simp] theorem trajArea_upd_lateTags (s : State) (k : Nat) (v : Byte) : (applyUpd (.trajArea k v) s).lateTags = s.lateTags := rfl
@[simp] theorem trajArea_upd_ports (s : State) (k : Nat) (v : Byte) : (applyUpd (.trajArea k v) s).ports = s.ports := rfl
@[simp] theorem trajArea_upd_threads (s : State) (k : Nat) (v : Byte) : (applyUpd (.trajArea k v) s).threads = s.threads := rfl
@[simp] theorem trajArea_upd_cores (s : State) (k : Nat) (v : Byte) : (applyUpd (.trajArea k v) s).cores = s.cores := rfl
@[simp] theorem trajArea_upd_engines (s : State) (k : Nat) (v : Byte) : (applyUpd (.trajArea k v) s).engines = s.engines := rfl
@[simp] theorem trajArea_upd_held (s : State) (k : Nat) (v : Byte) : (applyUpd (.trajArea k v) s).held = s.held := rfl
@[simp] theorem trajArea_upd_watches (s : State) (k : Nat) (v : Byte) : (applyUpd (.trajArea k v) s).watches = s.watches := rfl
@[simp] theorem trajArea_upd_watchMsgs (s : State) (k : Nat) (v : Byte) : (applyUpd (.trajArea k v) s).watchMsgs = s.watchMsgs := rfl
@[simp] theorem trajArea_upd_bankHeld (s : State) (k : Nat) (v : Byte) : (applyUpd (.trajArea k v) s).bankHeld = s.bankHeld := rfl
@[simp] theorem trajArea_upd_bankTarget (s : State) (k : Nat) (v : Byte) : (applyUpd (.trajArea k v) s).bankTarget = s.bankTarget := rfl
@[simp] theorem trajArea_upd_ecc (s : State) (k : Nat) (v : Byte) : (applyUpd (.trajArea k v) s).ecc = s.ecc := rfl
@[simp] theorem trajArea_upd_lineEcc (s : State) (k : Nat) (v : Byte) : (applyUpd (.trajArea k v) s).lineEcc = s.lineEcc := rfl
@[simp] theorem trajArea_upd_wbPending (s : State) (k : Nat) (v : Byte) : (applyUpd (.trajArea k v) s).wbPending = s.wbPending := rfl
@[simp] theorem trajArea_upd_scrubPos (s : State) (k : Nat) (v : Byte) : (applyUpd (.trajArea k v) s).scrubPos = s.scrubPos := rfl
@[simp] theorem trajArea_upd_refusals (s : State) (k : Nat) (v : Byte) : (applyUpd (.trajArea k v) s).refusals = s.refusals := rfl
@[simp] theorem trajArea_upd_firstRefusal (s : State) (k : Nat) (v : Byte) : (applyUpd (.trajArea k v) s).firstRefusal = s.firstRefusal := rfl
@[simp] theorem trajArea_upd_boxQueue (s : State) (k : Nat) (v : Byte) : (applyUpd (.trajArea k v) s).boxQueue = s.boxQueue := rfl
@[simp] theorem trajArea_upd_boxRun (s : State) (k : Nat) (v : Byte) : (applyUpd (.trajArea k v) s).boxRun = s.boxRun := rfl
@[simp] theorem trajArea_upd_kvs (s : State) (k : Nat) (v : Byte) : (applyUpd (.trajArea k v) s).kvs = s.kvs := rfl
@[simp] theorem trajArea_upd_parts (s : State) (k : Nat) (v : Byte) : (applyUpd (.trajArea k v) s).parts = s.parts := rfl
@[simp] theorem trajArea_upd_dmas (s : State) (k : Nat) (v : Byte) : (applyUpd (.trajArea k v) s).dmas = s.dmas := rfl
@[simp] theorem trajArea_upd_regReqs (s : State) (k : Nat) (v : Byte) : (applyUpd (.trajArea k v) s).regReqs = s.regReqs := rfl
@[simp] theorem trajArea_upd_regPorts (s : State) (k : Nat) (v : Byte) : (applyUpd (.trajArea k v) s).regPorts = s.regPorts := rfl
@[simp] theorem trajArea_upd_subchs (s : State) (k : Nat) (v : Byte) : (applyUpd (.trajArea k v) s).subchs = s.subchs := rfl
@[simp] theorem trajArea_upd_trackers (s : State) (k : Nat) (v : Byte) : (applyUpd (.trajArea k v) s).trackers = s.trackers := rfl
@[simp] theorem trajArea_upd_throttles (s : State) (k : Nat) (v : Byte) : (applyUpd (.trajArea k v) s).throttles = s.throttles := rfl
@[simp] theorem trajArea_upd_errRing (s : State) (k : Nat) (v : Byte) : (applyUpd (.trajArea k v) s).errRing = s.errRing := rfl
@[simp] theorem trajArea_upd_errRingOvf (s : State) (k : Nat) (v : Byte) : (applyUpd (.trajArea k v) s).errRingOvf = s.errRingOvf := rfl
@[simp] theorem trajArea_upd_patrolLine (s : State) (k : Nat) (v : Byte) : (applyUpd (.trajArea k v) s).patrolLine = s.patrolLine := rfl
@[simp] theorem trajArea_upd_retTimes (s : State) (k : Nat) (v : Byte) : (applyUpd (.trajArea k v) s).retTimes = s.retTimes := rfl
@[simp] theorem trajArea_upd_retired (s : State) (k : Nat) (v : Byte) : (applyUpd (.trajArea k v) s).retired = s.retired := rfl
@[simp] theorem trajArea_upd_dramSeq (s : State) (k : Nat) (v : Byte) : (applyUpd (.trajArea k v) s).dramSeq = s.dramSeq := rfl
@[simp] theorem trajArea_upd_trn (s : State) (k : Nat) (v : Byte) : (applyUpd (.trajArea k v) s).trn = s.trn := rfl
@[simp] theorem trajArea_upd_dqsAdj (s : State) (k : Nat) (v : Byte) : (applyUpd (.trajArea k v) s).dqsAdj = s.dqsAdj := rfl
@[simp] theorem trajArea_upd_dpol (s : State) (k : Nat) (v : Byte) : (applyUpd (.trajArea k v) s).dpol = s.dpol := rfl
@[simp] theorem trajArea_upd_idleAt (s : State) (k : Nat) (v : Byte) : (applyUpd (.trajArea k v) s).idleAt = s.idleAt := rfl
@[simp] theorem trajArea_upd_fitted (s : State) (k : Nat) (v : Byte) : (applyUpd (.trajArea k v) s).fitted = s.fitted := rfl
@[simp] theorem trajArea_upd_faultMsgs (s : State) (k : Nat) (v : Byte) : (applyUpd (.trajArea k v) s).faultMsgs = s.faultMsgs := rfl
@[simp] theorem trajArea_upd_out (s : State) (k : Nat) (v : Byte) : (applyUpd (.trajArea k v) s).out = s.out := rfl
@[simp] theorem trajArea_upd_lastRead (s : State) (k : Nat) (v : Byte) : (applyUpd (.trajArea k v) s).lastRead = s.lastRead := rfl
@[simp] theorem trajArea_upd_fwd (s : State) (k : Nat) (v : Byte) : (applyUpd (.trajArea k v) s).fwd = s.fwd := rfl
@[simp] theorem trajArea_upd_ethTx (s : State) (k : Nat) (v : Byte) : (applyUpd (.trajArea k v) s).ethTx = s.ethTx := rfl
@[simp] theorem trajArea_upd_ethHeadAt (s : State) (k : Nat) (v : Byte) : (applyUpd (.trajArea k v) s).ethHeadAt = s.ethHeadAt := rfl
@[simp] theorem trajArea_upd_canTx (s : State) (k : Nat) (v : Byte) : (applyUpd (.trajArea k v) s).canTx = s.canTx := rfl
@[simp] theorem trajArea_upd_pcieOut (s : State) (k : Nat) (v : Byte) : (applyUpd (.trajArea k v) s).pcieOut = s.pcieOut := rfl
@[simp] theorem trajArea_upd_pcieCfgRd (s : State) (k : Nat) (v : Byte) : (applyUpd (.trajArea k v) s).pcieCfgRd = s.pcieCfgRd := rfl
@[simp] theorem trajArea_upd_msix (s : State) (k : Nat) (v : Byte) : (applyUpd (.trajArea k v) s).msix = s.msix := rfl
@[simp] theorem trajArea_upd_ancs (s : State) (k : Nat) (v : Byte) : (applyUpd (.trajArea k v) s).ancs = s.ancs := rfl
@[simp] theorem trajArea_upd_trajArea (s : State) (k : Nat) (v : Byte) : (applyUpd (.trajArea k v) s).trajArea = tabSet memDefault s.trajArea k v := rfl
@[simp] theorem trajArea_upd_lidarIn (s : State) (k : Nat) (v : Byte) : (applyUpd (.trajArea k v) s).lidarIn = s.lidarIn := rfl
@[simp] theorem trajArea_upd_wheelIn (s : State) (k : Nat) (v : Byte) : (applyUpd (.trajArea k v) s).wheelIn = s.wheelIn := rfl
@[simp] theorem trajArea_upd_spiStepBusy (s : State) (k : Nat) (v : Byte) : (applyUpd (.trajArea k v) s).spiStepBusy = s.spiStepBusy := rfl
@[simp] theorem trajArea_upd_spiRec (s : State) (k : Nat) (v : Byte) : (applyUpd (.trajArea k v) s).spiRec = s.spiRec := rfl
@[simp] theorem trajArea_upd_spiStepCfg (s : State) (k : Nat) (v : Byte) : (applyUpd (.trajArea k v) s).spiStepCfg = s.spiStepCfg := rfl
@[simp] theorem trajArea_upd_ctxs (s : State) (k : Nat) (v : Byte) : (applyUpd (.trajArea k v) s).ctxs = s.ctxs := rfl
@[simp] theorem trajArea_upd_fsyOmit (s : State) (k : Nat) (v : Byte) : (applyUpd (.trajArea k v) s).fsyOmit = s.fsyOmit := rfl
@[simp] theorem trajArea_upd_fsyPulsed (s : State) (k : Nat) (v : Byte) : (applyUpd (.trajArea k v) s).fsyPulsed = s.fsyPulsed := rfl
@[simp] theorem trajArea_upd_supTasks (s : State) (k : Nat) (v : Byte) : (applyUpd (.trajArea k v) s).supTasks = s.supTasks := rfl
@[simp] theorem trajArea_upd_fus (s : State) (k : Nat) (v : Byte) : (applyUpd (.trajArea k v) s).fus = s.fus := rfl
@[simp] theorem trajArea_upd_fcons (s : State) (k : Nat) (v : Byte) : (applyUpd (.trajArea k v) s).fcons = s.fcons := rfl
@[simp] theorem trajArea_upd_shadow (s : State) (k : Nat) (v : Byte) : (applyUpd (.trajArea k v) s).shadow = s.shadow := rfl
@[simp] theorem trajArea_upd_trv (s : State) (k : Nat) (v : Byte) : (applyUpd (.trajArea k v) s).trv = s.trv := rfl
@[simp] theorem trajArea_upd_tlayers (s : State) (k : Nat) (v : Byte) : (applyUpd (.trajArea k v) s).tlayers = s.tlayers := rfl
@[simp] theorem trajArea_upd_jobFaults (s : State) (k : Nat) (v : Byte) : (applyUpd (.trajArea k v) s).jobFaults = s.jobFaults := rfl
@[simp] theorem trajArea_upd_unitLast (s : State) (k : Nat) (v : Byte) : (applyUpd (.trajArea k v) s).unitLast = s.unitLast := rfl
@[simp] theorem trajArea_upd_unitRst (s : State) (k : Nat) (v : Byte) : (applyUpd (.trajArea k v) s).unitRst = s.unitRst := rfl
@[simp] theorem trajArea_upd_xlink (s : State) (k : Nat) (v : Byte) : (applyUpd (.trajArea k v) s).xlink = s.xlink := rfl
@[simp] theorem trajArea_upd_trace (s : State) (k : Nat) (v : Byte) : (applyUpd (.trajArea k v) s).trace = s.trace := rfl
@[simp] theorem trajArea_upd_progs (s : State) (k : Nat) (v : Byte) : (applyUpd (.trajArea k v) s).progs = s.progs := rfl
@[simp] theorem trajArea_upd_rails (s : State) (k : Nat) (v : Byte) : (applyUpd (.trajArea k v) s).rails = s.rails := rfl
@[simp] theorem trajArea_upd_thm (s : State) (k : Nat) (v : Byte) : (applyUpd (.trajArea k v) s).thm = s.thm := rfl
@[simp] theorem trajArea_upd_bnd (s : State) (k : Nat) (v : Byte) : (applyUpd (.trajArea k v) s).bnd = s.bnd := rfl
@[simp] theorem trajArea_upd_thmTrip (s : State) (k : Nat) (v : Byte) : (applyUpd (.trajArea k v) s).thmTrip = s.thmTrip := rfl
@[simp] theorem trajArea_upd_flash (s : State) (k : Nat) (v : Byte) : (applyUpd (.trajArea k v) s).flash = s.flash := rfl
@[simp] theorem trajArea_upd_slots (s : State) (k : Nat) (v : Byte) : (applyUpd (.trajArea k v) s).slots = s.slots := rfl
@[simp] theorem trajArea_upd_stores (s : State) (k : Nat) (v : Byte) : (applyUpd (.trajArea k v) s).stores = s.stores := rfl
@[simp] theorem trajArea_upd_ids (s : State) (k : Nat) (v : Byte) : (applyUpd (.trajArea k v) s).ids = s.ids := rfl
@[simp] theorem trajArea_upd_boot (s : State) (k : Nat) (v : Byte) : (applyUpd (.trajArea k v) s).boot = s.boot := rfl
@[simp] theorem trajArea_upd_load (s : State) (k : Nat) (v : Byte) : (applyUpd (.trajArea k v) s).load = s.load := rfl
@[simp] theorem trajArea_upd_flt (s : State) (k : Nat) (v : Byte) : (applyUpd (.trajArea k v) s).flt = s.flt := rfl
@[simp] theorem trajArea_upd_mon (s : State) (k : Nat) (v : Byte) : (applyUpd (.trajArea k v) s).mon = s.mon := rfl
@[simp] theorem lidarIn_upd_pending (s : State) (v : List (Nat × Nat × List Byte)) : (applyUpd (.lidarIn v) s).pending = s.pending := rfl
@[simp] theorem lidarIn_upd_regs (s : State) (v : List (Nat × Nat × List Byte)) : (applyUpd (.lidarIn v) s).regs = s.regs := rfl
@[simp] theorem lidarIn_upd_mem (s : State) (v : List (Nat × Nat × List Byte)) : (applyUpd (.lidarIn v) s).mem = s.mem := rfl
@[simp] theorem lidarIn_upd_sram (s : State) (v : List (Nat × Nat × List Byte)) : (applyUpd (.lidarIn v) s).sram = s.sram := rfl
@[simp] theorem lidarIn_upd_time (s : State) (v : List (Nat × Nat × List Byte)) : (applyUpd (.lidarIn v) s).time = s.time := rfl
@[simp] theorem lidarIn_upd_timeFrac (s : State) (v : List (Nat × Nat × List Byte)) : (applyUpd (.lidarIn v) s).timeFrac = s.timeFrac := rfl
@[simp] theorem lidarIn_upd_freeCtr (s : State) (v : List (Nat × Nat × List Byte)) : (applyUpd (.lidarIn v) s).freeCtr = s.freeCtr := rfl
@[simp] theorem lidarIn_upd_hiLatch (s : State) (v : List (Nat × Nat × List Byte)) : (applyUpd (.lidarIn v) s).hiLatch = s.hiLatch := rfl
@[simp] theorem lidarIn_upd_timeSet (s : State) (v : List (Nat × Nat × List Byte)) : (applyUpd (.lidarIn v) s).timeSet = s.timeSet := rfl
@[simp] theorem lidarIn_upd_n0 (s : State) (v : List (Nat × Nat × List Byte)) : (applyUpd (.lidarIn v) s).n0 = s.n0 := rfl
@[simp] theorem lidarIn_upd_ticked (s : State) (v : List (Nat × Nat × List Byte)) : (applyUpd (.lidarIn v) s).ticked = s.ticked := rfl
@[simp] theorem lidarIn_upd_peerTickAt (s : State) (v : List (Nat × Nat × List Byte)) : (applyUpd (.lidarIn v) s).peerTickAt = s.peerTickAt := rfl
@[simp] theorem lidarIn_upd_guardPitch (s : State) (v : List (Nat × Nat × List Byte)) : (applyUpd (.lidarIn v) s).guardPitch = s.guardPitch := rfl
@[simp] theorem lidarIn_upd_diePitch (s : State) (v : List (Nat × Nat × List Byte)) : (applyUpd (.lidarIn v) s).diePitch = s.diePitch := rfl
@[simp] theorem lidarIn_upd_resps (s : State) (v : List (Nat × Nat × List Byte)) : (applyUpd (.lidarIn v) s).resps = s.resps := rfl
@[simp] theorem lidarIn_upd_txns (s : State) (v : List (Nat × Nat × List Byte)) : (applyUpd (.lidarIn v) s).txns = s.txns := rfl
@[simp] theorem lidarIn_upd_nextTag (s : State) (v : List (Nat × Nat × List Byte)) : (applyUpd (.lidarIn v) s).nextTag = s.nextTag := rfl
@[simp] theorem lidarIn_upd_lateTags (s : State) (v : List (Nat × Nat × List Byte)) : (applyUpd (.lidarIn v) s).lateTags = s.lateTags := rfl
@[simp] theorem lidarIn_upd_ports (s : State) (v : List (Nat × Nat × List Byte)) : (applyUpd (.lidarIn v) s).ports = s.ports := rfl
@[simp] theorem lidarIn_upd_threads (s : State) (v : List (Nat × Nat × List Byte)) : (applyUpd (.lidarIn v) s).threads = s.threads := rfl
@[simp] theorem lidarIn_upd_cores (s : State) (v : List (Nat × Nat × List Byte)) : (applyUpd (.lidarIn v) s).cores = s.cores := rfl
@[simp] theorem lidarIn_upd_engines (s : State) (v : List (Nat × Nat × List Byte)) : (applyUpd (.lidarIn v) s).engines = s.engines := rfl
@[simp] theorem lidarIn_upd_held (s : State) (v : List (Nat × Nat × List Byte)) : (applyUpd (.lidarIn v) s).held = s.held := rfl
@[simp] theorem lidarIn_upd_watches (s : State) (v : List (Nat × Nat × List Byte)) : (applyUpd (.lidarIn v) s).watches = s.watches := rfl
@[simp] theorem lidarIn_upd_watchMsgs (s : State) (v : List (Nat × Nat × List Byte)) : (applyUpd (.lidarIn v) s).watchMsgs = s.watchMsgs := rfl
@[simp] theorem lidarIn_upd_bankHeld (s : State) (v : List (Nat × Nat × List Byte)) : (applyUpd (.lidarIn v) s).bankHeld = s.bankHeld := rfl
@[simp] theorem lidarIn_upd_bankTarget (s : State) (v : List (Nat × Nat × List Byte)) : (applyUpd (.lidarIn v) s).bankTarget = s.bankTarget := rfl
@[simp] theorem lidarIn_upd_ecc (s : State) (v : List (Nat × Nat × List Byte)) : (applyUpd (.lidarIn v) s).ecc = s.ecc := rfl
@[simp] theorem lidarIn_upd_lineEcc (s : State) (v : List (Nat × Nat × List Byte)) : (applyUpd (.lidarIn v) s).lineEcc = s.lineEcc := rfl
@[simp] theorem lidarIn_upd_wbPending (s : State) (v : List (Nat × Nat × List Byte)) : (applyUpd (.lidarIn v) s).wbPending = s.wbPending := rfl
@[simp] theorem lidarIn_upd_scrubPos (s : State) (v : List (Nat × Nat × List Byte)) : (applyUpd (.lidarIn v) s).scrubPos = s.scrubPos := rfl
@[simp] theorem lidarIn_upd_refusals (s : State) (v : List (Nat × Nat × List Byte)) : (applyUpd (.lidarIn v) s).refusals = s.refusals := rfl
@[simp] theorem lidarIn_upd_firstRefusal (s : State) (v : List (Nat × Nat × List Byte)) : (applyUpd (.lidarIn v) s).firstRefusal = s.firstRefusal := rfl
@[simp] theorem lidarIn_upd_boxQueue (s : State) (v : List (Nat × Nat × List Byte)) : (applyUpd (.lidarIn v) s).boxQueue = s.boxQueue := rfl
@[simp] theorem lidarIn_upd_boxRun (s : State) (v : List (Nat × Nat × List Byte)) : (applyUpd (.lidarIn v) s).boxRun = s.boxRun := rfl
@[simp] theorem lidarIn_upd_kvs (s : State) (v : List (Nat × Nat × List Byte)) : (applyUpd (.lidarIn v) s).kvs = s.kvs := rfl
@[simp] theorem lidarIn_upd_parts (s : State) (v : List (Nat × Nat × List Byte)) : (applyUpd (.lidarIn v) s).parts = s.parts := rfl
@[simp] theorem lidarIn_upd_dmas (s : State) (v : List (Nat × Nat × List Byte)) : (applyUpd (.lidarIn v) s).dmas = s.dmas := rfl
@[simp] theorem lidarIn_upd_regReqs (s : State) (v : List (Nat × Nat × List Byte)) : (applyUpd (.lidarIn v) s).regReqs = s.regReqs := rfl
@[simp] theorem lidarIn_upd_regPorts (s : State) (v : List (Nat × Nat × List Byte)) : (applyUpd (.lidarIn v) s).regPorts = s.regPorts := rfl
@[simp] theorem lidarIn_upd_subchs (s : State) (v : List (Nat × Nat × List Byte)) : (applyUpd (.lidarIn v) s).subchs = s.subchs := rfl
@[simp] theorem lidarIn_upd_trackers (s : State) (v : List (Nat × Nat × List Byte)) : (applyUpd (.lidarIn v) s).trackers = s.trackers := rfl
@[simp] theorem lidarIn_upd_throttles (s : State) (v : List (Nat × Nat × List Byte)) : (applyUpd (.lidarIn v) s).throttles = s.throttles := rfl
@[simp] theorem lidarIn_upd_errRing (s : State) (v : List (Nat × Nat × List Byte)) : (applyUpd (.lidarIn v) s).errRing = s.errRing := rfl
@[simp] theorem lidarIn_upd_errRingOvf (s : State) (v : List (Nat × Nat × List Byte)) : (applyUpd (.lidarIn v) s).errRingOvf = s.errRingOvf := rfl
@[simp] theorem lidarIn_upd_patrolLine (s : State) (v : List (Nat × Nat × List Byte)) : (applyUpd (.lidarIn v) s).patrolLine = s.patrolLine := rfl
@[simp] theorem lidarIn_upd_retTimes (s : State) (v : List (Nat × Nat × List Byte)) : (applyUpd (.lidarIn v) s).retTimes = s.retTimes := rfl
@[simp] theorem lidarIn_upd_retired (s : State) (v : List (Nat × Nat × List Byte)) : (applyUpd (.lidarIn v) s).retired = s.retired := rfl
@[simp] theorem lidarIn_upd_dramSeq (s : State) (v : List (Nat × Nat × List Byte)) : (applyUpd (.lidarIn v) s).dramSeq = s.dramSeq := rfl
@[simp] theorem lidarIn_upd_trn (s : State) (v : List (Nat × Nat × List Byte)) : (applyUpd (.lidarIn v) s).trn = s.trn := rfl
@[simp] theorem lidarIn_upd_dqsAdj (s : State) (v : List (Nat × Nat × List Byte)) : (applyUpd (.lidarIn v) s).dqsAdj = s.dqsAdj := rfl
@[simp] theorem lidarIn_upd_dpol (s : State) (v : List (Nat × Nat × List Byte)) : (applyUpd (.lidarIn v) s).dpol = s.dpol := rfl
@[simp] theorem lidarIn_upd_idleAt (s : State) (v : List (Nat × Nat × List Byte)) : (applyUpd (.lidarIn v) s).idleAt = s.idleAt := rfl
@[simp] theorem lidarIn_upd_fitted (s : State) (v : List (Nat × Nat × List Byte)) : (applyUpd (.lidarIn v) s).fitted = s.fitted := rfl
@[simp] theorem lidarIn_upd_faultMsgs (s : State) (v : List (Nat × Nat × List Byte)) : (applyUpd (.lidarIn v) s).faultMsgs = s.faultMsgs := rfl
@[simp] theorem lidarIn_upd_out (s : State) (v : List (Nat × Nat × List Byte)) : (applyUpd (.lidarIn v) s).out = s.out := rfl
@[simp] theorem lidarIn_upd_lastRead (s : State) (v : List (Nat × Nat × List Byte)) : (applyUpd (.lidarIn v) s).lastRead = s.lastRead := rfl
@[simp] theorem lidarIn_upd_fwd (s : State) (v : List (Nat × Nat × List Byte)) : (applyUpd (.lidarIn v) s).fwd = s.fwd := rfl
@[simp] theorem lidarIn_upd_ethTx (s : State) (v : List (Nat × Nat × List Byte)) : (applyUpd (.lidarIn v) s).ethTx = s.ethTx := rfl
@[simp] theorem lidarIn_upd_ethHeadAt (s : State) (v : List (Nat × Nat × List Byte)) : (applyUpd (.lidarIn v) s).ethHeadAt = s.ethHeadAt := rfl
@[simp] theorem lidarIn_upd_canTx (s : State) (v : List (Nat × Nat × List Byte)) : (applyUpd (.lidarIn v) s).canTx = s.canTx := rfl
@[simp] theorem lidarIn_upd_pcieOut (s : State) (v : List (Nat × Nat × List Byte)) : (applyUpd (.lidarIn v) s).pcieOut = s.pcieOut := rfl
@[simp] theorem lidarIn_upd_pcieCfgRd (s : State) (v : List (Nat × Nat × List Byte)) : (applyUpd (.lidarIn v) s).pcieCfgRd = s.pcieCfgRd := rfl
@[simp] theorem lidarIn_upd_msix (s : State) (v : List (Nat × Nat × List Byte)) : (applyUpd (.lidarIn v) s).msix = s.msix := rfl
@[simp] theorem lidarIn_upd_ancs (s : State) (v : List (Nat × Nat × List Byte)) : (applyUpd (.lidarIn v) s).ancs = s.ancs := rfl
@[simp] theorem lidarIn_upd_trajArea (s : State) (v : List (Nat × Nat × List Byte)) : (applyUpd (.lidarIn v) s).trajArea = s.trajArea := rfl
@[simp] theorem lidarIn_upd_lidarIn (s : State) (v : List (Nat × Nat × List Byte)) : (applyUpd (.lidarIn v) s).lidarIn = v := rfl
@[simp] theorem lidarIn_upd_wheelIn (s : State) (v : List (Nat × Nat × List Byte)) : (applyUpd (.lidarIn v) s).wheelIn = s.wheelIn := rfl
@[simp] theorem lidarIn_upd_spiStepBusy (s : State) (v : List (Nat × Nat × List Byte)) : (applyUpd (.lidarIn v) s).spiStepBusy = s.spiStepBusy := rfl
@[simp] theorem lidarIn_upd_spiRec (s : State) (v : List (Nat × Nat × List Byte)) : (applyUpd (.lidarIn v) s).spiRec = s.spiRec := rfl
@[simp] theorem lidarIn_upd_spiStepCfg (s : State) (v : List (Nat × Nat × List Byte)) : (applyUpd (.lidarIn v) s).spiStepCfg = s.spiStepCfg := rfl
@[simp] theorem lidarIn_upd_ctxs (s : State) (v : List (Nat × Nat × List Byte)) : (applyUpd (.lidarIn v) s).ctxs = s.ctxs := rfl
@[simp] theorem lidarIn_upd_fsyOmit (s : State) (v : List (Nat × Nat × List Byte)) : (applyUpd (.lidarIn v) s).fsyOmit = s.fsyOmit := rfl
@[simp] theorem lidarIn_upd_fsyPulsed (s : State) (v : List (Nat × Nat × List Byte)) : (applyUpd (.lidarIn v) s).fsyPulsed = s.fsyPulsed := rfl
@[simp] theorem lidarIn_upd_supTasks (s : State) (v : List (Nat × Nat × List Byte)) : (applyUpd (.lidarIn v) s).supTasks = s.supTasks := rfl
@[simp] theorem lidarIn_upd_fus (s : State) (v : List (Nat × Nat × List Byte)) : (applyUpd (.lidarIn v) s).fus = s.fus := rfl
@[simp] theorem lidarIn_upd_fcons (s : State) (v : List (Nat × Nat × List Byte)) : (applyUpd (.lidarIn v) s).fcons = s.fcons := rfl
@[simp] theorem lidarIn_upd_shadow (s : State) (v : List (Nat × Nat × List Byte)) : (applyUpd (.lidarIn v) s).shadow = s.shadow := rfl
@[simp] theorem lidarIn_upd_trv (s : State) (v : List (Nat × Nat × List Byte)) : (applyUpd (.lidarIn v) s).trv = s.trv := rfl
@[simp] theorem lidarIn_upd_tlayers (s : State) (v : List (Nat × Nat × List Byte)) : (applyUpd (.lidarIn v) s).tlayers = s.tlayers := rfl
@[simp] theorem lidarIn_upd_jobFaults (s : State) (v : List (Nat × Nat × List Byte)) : (applyUpd (.lidarIn v) s).jobFaults = s.jobFaults := rfl
@[simp] theorem lidarIn_upd_unitLast (s : State) (v : List (Nat × Nat × List Byte)) : (applyUpd (.lidarIn v) s).unitLast = s.unitLast := rfl
@[simp] theorem lidarIn_upd_unitRst (s : State) (v : List (Nat × Nat × List Byte)) : (applyUpd (.lidarIn v) s).unitRst = s.unitRst := rfl
@[simp] theorem lidarIn_upd_xlink (s : State) (v : List (Nat × Nat × List Byte)) : (applyUpd (.lidarIn v) s).xlink = s.xlink := rfl
@[simp] theorem lidarIn_upd_trace (s : State) (v : List (Nat × Nat × List Byte)) : (applyUpd (.lidarIn v) s).trace = s.trace := rfl
@[simp] theorem lidarIn_upd_progs (s : State) (v : List (Nat × Nat × List Byte)) : (applyUpd (.lidarIn v) s).progs = s.progs := rfl
@[simp] theorem lidarIn_upd_rails (s : State) (v : List (Nat × Nat × List Byte)) : (applyUpd (.lidarIn v) s).rails = s.rails := rfl
@[simp] theorem lidarIn_upd_thm (s : State) (v : List (Nat × Nat × List Byte)) : (applyUpd (.lidarIn v) s).thm = s.thm := rfl
@[simp] theorem lidarIn_upd_bnd (s : State) (v : List (Nat × Nat × List Byte)) : (applyUpd (.lidarIn v) s).bnd = s.bnd := rfl
@[simp] theorem lidarIn_upd_thmTrip (s : State) (v : List (Nat × Nat × List Byte)) : (applyUpd (.lidarIn v) s).thmTrip = s.thmTrip := rfl
@[simp] theorem lidarIn_upd_flash (s : State) (v : List (Nat × Nat × List Byte)) : (applyUpd (.lidarIn v) s).flash = s.flash := rfl
@[simp] theorem lidarIn_upd_slots (s : State) (v : List (Nat × Nat × List Byte)) : (applyUpd (.lidarIn v) s).slots = s.slots := rfl
@[simp] theorem lidarIn_upd_stores (s : State) (v : List (Nat × Nat × List Byte)) : (applyUpd (.lidarIn v) s).stores = s.stores := rfl
@[simp] theorem lidarIn_upd_ids (s : State) (v : List (Nat × Nat × List Byte)) : (applyUpd (.lidarIn v) s).ids = s.ids := rfl
@[simp] theorem lidarIn_upd_boot (s : State) (v : List (Nat × Nat × List Byte)) : (applyUpd (.lidarIn v) s).boot = s.boot := rfl
@[simp] theorem lidarIn_upd_load (s : State) (v : List (Nat × Nat × List Byte)) : (applyUpd (.lidarIn v) s).load = s.load := rfl
@[simp] theorem lidarIn_upd_flt (s : State) (v : List (Nat × Nat × List Byte)) : (applyUpd (.lidarIn v) s).flt = s.flt := rfl
@[simp] theorem lidarIn_upd_mon (s : State) (v : List (Nat × Nat × List Byte)) : (applyUpd (.lidarIn v) s).mon = s.mon := rfl
@[simp] theorem wheelIn_upd_pending (s : State) (v : List (Nat × List Byte)) : (applyUpd (.wheelIn v) s).pending = s.pending := rfl
@[simp] theorem wheelIn_upd_regs (s : State) (v : List (Nat × List Byte)) : (applyUpd (.wheelIn v) s).regs = s.regs := rfl
@[simp] theorem wheelIn_upd_mem (s : State) (v : List (Nat × List Byte)) : (applyUpd (.wheelIn v) s).mem = s.mem := rfl
@[simp] theorem wheelIn_upd_sram (s : State) (v : List (Nat × List Byte)) : (applyUpd (.wheelIn v) s).sram = s.sram := rfl
@[simp] theorem wheelIn_upd_time (s : State) (v : List (Nat × List Byte)) : (applyUpd (.wheelIn v) s).time = s.time := rfl
@[simp] theorem wheelIn_upd_timeFrac (s : State) (v : List (Nat × List Byte)) : (applyUpd (.wheelIn v) s).timeFrac = s.timeFrac := rfl
@[simp] theorem wheelIn_upd_freeCtr (s : State) (v : List (Nat × List Byte)) : (applyUpd (.wheelIn v) s).freeCtr = s.freeCtr := rfl
@[simp] theorem wheelIn_upd_hiLatch (s : State) (v : List (Nat × List Byte)) : (applyUpd (.wheelIn v) s).hiLatch = s.hiLatch := rfl
@[simp] theorem wheelIn_upd_timeSet (s : State) (v : List (Nat × List Byte)) : (applyUpd (.wheelIn v) s).timeSet = s.timeSet := rfl
@[simp] theorem wheelIn_upd_n0 (s : State) (v : List (Nat × List Byte)) : (applyUpd (.wheelIn v) s).n0 = s.n0 := rfl
@[simp] theorem wheelIn_upd_ticked (s : State) (v : List (Nat × List Byte)) : (applyUpd (.wheelIn v) s).ticked = s.ticked := rfl
@[simp] theorem wheelIn_upd_peerTickAt (s : State) (v : List (Nat × List Byte)) : (applyUpd (.wheelIn v) s).peerTickAt = s.peerTickAt := rfl
@[simp] theorem wheelIn_upd_guardPitch (s : State) (v : List (Nat × List Byte)) : (applyUpd (.wheelIn v) s).guardPitch = s.guardPitch := rfl
@[simp] theorem wheelIn_upd_diePitch (s : State) (v : List (Nat × List Byte)) : (applyUpd (.wheelIn v) s).diePitch = s.diePitch := rfl
@[simp] theorem wheelIn_upd_resps (s : State) (v : List (Nat × List Byte)) : (applyUpd (.wheelIn v) s).resps = s.resps := rfl
@[simp] theorem wheelIn_upd_txns (s : State) (v : List (Nat × List Byte)) : (applyUpd (.wheelIn v) s).txns = s.txns := rfl
@[simp] theorem wheelIn_upd_nextTag (s : State) (v : List (Nat × List Byte)) : (applyUpd (.wheelIn v) s).nextTag = s.nextTag := rfl
@[simp] theorem wheelIn_upd_lateTags (s : State) (v : List (Nat × List Byte)) : (applyUpd (.wheelIn v) s).lateTags = s.lateTags := rfl
@[simp] theorem wheelIn_upd_ports (s : State) (v : List (Nat × List Byte)) : (applyUpd (.wheelIn v) s).ports = s.ports := rfl
@[simp] theorem wheelIn_upd_threads (s : State) (v : List (Nat × List Byte)) : (applyUpd (.wheelIn v) s).threads = s.threads := rfl
@[simp] theorem wheelIn_upd_cores (s : State) (v : List (Nat × List Byte)) : (applyUpd (.wheelIn v) s).cores = s.cores := rfl
@[simp] theorem wheelIn_upd_engines (s : State) (v : List (Nat × List Byte)) : (applyUpd (.wheelIn v) s).engines = s.engines := rfl
@[simp] theorem wheelIn_upd_held (s : State) (v : List (Nat × List Byte)) : (applyUpd (.wheelIn v) s).held = s.held := rfl
@[simp] theorem wheelIn_upd_watches (s : State) (v : List (Nat × List Byte)) : (applyUpd (.wheelIn v) s).watches = s.watches := rfl
@[simp] theorem wheelIn_upd_watchMsgs (s : State) (v : List (Nat × List Byte)) : (applyUpd (.wheelIn v) s).watchMsgs = s.watchMsgs := rfl
@[simp] theorem wheelIn_upd_bankHeld (s : State) (v : List (Nat × List Byte)) : (applyUpd (.wheelIn v) s).bankHeld = s.bankHeld := rfl
@[simp] theorem wheelIn_upd_bankTarget (s : State) (v : List (Nat × List Byte)) : (applyUpd (.wheelIn v) s).bankTarget = s.bankTarget := rfl
@[simp] theorem wheelIn_upd_ecc (s : State) (v : List (Nat × List Byte)) : (applyUpd (.wheelIn v) s).ecc = s.ecc := rfl
@[simp] theorem wheelIn_upd_lineEcc (s : State) (v : List (Nat × List Byte)) : (applyUpd (.wheelIn v) s).lineEcc = s.lineEcc := rfl
@[simp] theorem wheelIn_upd_wbPending (s : State) (v : List (Nat × List Byte)) : (applyUpd (.wheelIn v) s).wbPending = s.wbPending := rfl
@[simp] theorem wheelIn_upd_scrubPos (s : State) (v : List (Nat × List Byte)) : (applyUpd (.wheelIn v) s).scrubPos = s.scrubPos := rfl
@[simp] theorem wheelIn_upd_refusals (s : State) (v : List (Nat × List Byte)) : (applyUpd (.wheelIn v) s).refusals = s.refusals := rfl
@[simp] theorem wheelIn_upd_firstRefusal (s : State) (v : List (Nat × List Byte)) : (applyUpd (.wheelIn v) s).firstRefusal = s.firstRefusal := rfl
@[simp] theorem wheelIn_upd_boxQueue (s : State) (v : List (Nat × List Byte)) : (applyUpd (.wheelIn v) s).boxQueue = s.boxQueue := rfl
@[simp] theorem wheelIn_upd_boxRun (s : State) (v : List (Nat × List Byte)) : (applyUpd (.wheelIn v) s).boxRun = s.boxRun := rfl
@[simp] theorem wheelIn_upd_kvs (s : State) (v : List (Nat × List Byte)) : (applyUpd (.wheelIn v) s).kvs = s.kvs := rfl
@[simp] theorem wheelIn_upd_parts (s : State) (v : List (Nat × List Byte)) : (applyUpd (.wheelIn v) s).parts = s.parts := rfl
@[simp] theorem wheelIn_upd_dmas (s : State) (v : List (Nat × List Byte)) : (applyUpd (.wheelIn v) s).dmas = s.dmas := rfl
@[simp] theorem wheelIn_upd_regReqs (s : State) (v : List (Nat × List Byte)) : (applyUpd (.wheelIn v) s).regReqs = s.regReqs := rfl
@[simp] theorem wheelIn_upd_regPorts (s : State) (v : List (Nat × List Byte)) : (applyUpd (.wheelIn v) s).regPorts = s.regPorts := rfl
@[simp] theorem wheelIn_upd_subchs (s : State) (v : List (Nat × List Byte)) : (applyUpd (.wheelIn v) s).subchs = s.subchs := rfl
@[simp] theorem wheelIn_upd_trackers (s : State) (v : List (Nat × List Byte)) : (applyUpd (.wheelIn v) s).trackers = s.trackers := rfl
@[simp] theorem wheelIn_upd_throttles (s : State) (v : List (Nat × List Byte)) : (applyUpd (.wheelIn v) s).throttles = s.throttles := rfl
@[simp] theorem wheelIn_upd_errRing (s : State) (v : List (Nat × List Byte)) : (applyUpd (.wheelIn v) s).errRing = s.errRing := rfl
@[simp] theorem wheelIn_upd_errRingOvf (s : State) (v : List (Nat × List Byte)) : (applyUpd (.wheelIn v) s).errRingOvf = s.errRingOvf := rfl
@[simp] theorem wheelIn_upd_patrolLine (s : State) (v : List (Nat × List Byte)) : (applyUpd (.wheelIn v) s).patrolLine = s.patrolLine := rfl
@[simp] theorem wheelIn_upd_retTimes (s : State) (v : List (Nat × List Byte)) : (applyUpd (.wheelIn v) s).retTimes = s.retTimes := rfl
@[simp] theorem wheelIn_upd_retired (s : State) (v : List (Nat × List Byte)) : (applyUpd (.wheelIn v) s).retired = s.retired := rfl
@[simp] theorem wheelIn_upd_dramSeq (s : State) (v : List (Nat × List Byte)) : (applyUpd (.wheelIn v) s).dramSeq = s.dramSeq := rfl
@[simp] theorem wheelIn_upd_trn (s : State) (v : List (Nat × List Byte)) : (applyUpd (.wheelIn v) s).trn = s.trn := rfl
@[simp] theorem wheelIn_upd_dqsAdj (s : State) (v : List (Nat × List Byte)) : (applyUpd (.wheelIn v) s).dqsAdj = s.dqsAdj := rfl
@[simp] theorem wheelIn_upd_dpol (s : State) (v : List (Nat × List Byte)) : (applyUpd (.wheelIn v) s).dpol = s.dpol := rfl
@[simp] theorem wheelIn_upd_idleAt (s : State) (v : List (Nat × List Byte)) : (applyUpd (.wheelIn v) s).idleAt = s.idleAt := rfl
@[simp] theorem wheelIn_upd_fitted (s : State) (v : List (Nat × List Byte)) : (applyUpd (.wheelIn v) s).fitted = s.fitted := rfl
@[simp] theorem wheelIn_upd_faultMsgs (s : State) (v : List (Nat × List Byte)) : (applyUpd (.wheelIn v) s).faultMsgs = s.faultMsgs := rfl
@[simp] theorem wheelIn_upd_out (s : State) (v : List (Nat × List Byte)) : (applyUpd (.wheelIn v) s).out = s.out := rfl
@[simp] theorem wheelIn_upd_lastRead (s : State) (v : List (Nat × List Byte)) : (applyUpd (.wheelIn v) s).lastRead = s.lastRead := rfl
@[simp] theorem wheelIn_upd_fwd (s : State) (v : List (Nat × List Byte)) : (applyUpd (.wheelIn v) s).fwd = s.fwd := rfl
@[simp] theorem wheelIn_upd_ethTx (s : State) (v : List (Nat × List Byte)) : (applyUpd (.wheelIn v) s).ethTx = s.ethTx := rfl
@[simp] theorem wheelIn_upd_ethHeadAt (s : State) (v : List (Nat × List Byte)) : (applyUpd (.wheelIn v) s).ethHeadAt = s.ethHeadAt := rfl
@[simp] theorem wheelIn_upd_canTx (s : State) (v : List (Nat × List Byte)) : (applyUpd (.wheelIn v) s).canTx = s.canTx := rfl
@[simp] theorem wheelIn_upd_pcieOut (s : State) (v : List (Nat × List Byte)) : (applyUpd (.wheelIn v) s).pcieOut = s.pcieOut := rfl
@[simp] theorem wheelIn_upd_pcieCfgRd (s : State) (v : List (Nat × List Byte)) : (applyUpd (.wheelIn v) s).pcieCfgRd = s.pcieCfgRd := rfl
@[simp] theorem wheelIn_upd_msix (s : State) (v : List (Nat × List Byte)) : (applyUpd (.wheelIn v) s).msix = s.msix := rfl
@[simp] theorem wheelIn_upd_ancs (s : State) (v : List (Nat × List Byte)) : (applyUpd (.wheelIn v) s).ancs = s.ancs := rfl
@[simp] theorem wheelIn_upd_trajArea (s : State) (v : List (Nat × List Byte)) : (applyUpd (.wheelIn v) s).trajArea = s.trajArea := rfl
@[simp] theorem wheelIn_upd_lidarIn (s : State) (v : List (Nat × List Byte)) : (applyUpd (.wheelIn v) s).lidarIn = s.lidarIn := rfl
@[simp] theorem wheelIn_upd_wheelIn (s : State) (v : List (Nat × List Byte)) : (applyUpd (.wheelIn v) s).wheelIn = v := rfl
@[simp] theorem wheelIn_upd_spiStepBusy (s : State) (v : List (Nat × List Byte)) : (applyUpd (.wheelIn v) s).spiStepBusy = s.spiStepBusy := rfl
@[simp] theorem wheelIn_upd_spiRec (s : State) (v : List (Nat × List Byte)) : (applyUpd (.wheelIn v) s).spiRec = s.spiRec := rfl
@[simp] theorem wheelIn_upd_spiStepCfg (s : State) (v : List (Nat × List Byte)) : (applyUpd (.wheelIn v) s).spiStepCfg = s.spiStepCfg := rfl
@[simp] theorem wheelIn_upd_ctxs (s : State) (v : List (Nat × List Byte)) : (applyUpd (.wheelIn v) s).ctxs = s.ctxs := rfl
@[simp] theorem wheelIn_upd_fsyOmit (s : State) (v : List (Nat × List Byte)) : (applyUpd (.wheelIn v) s).fsyOmit = s.fsyOmit := rfl
@[simp] theorem wheelIn_upd_fsyPulsed (s : State) (v : List (Nat × List Byte)) : (applyUpd (.wheelIn v) s).fsyPulsed = s.fsyPulsed := rfl
@[simp] theorem wheelIn_upd_supTasks (s : State) (v : List (Nat × List Byte)) : (applyUpd (.wheelIn v) s).supTasks = s.supTasks := rfl
@[simp] theorem wheelIn_upd_fus (s : State) (v : List (Nat × List Byte)) : (applyUpd (.wheelIn v) s).fus = s.fus := rfl
@[simp] theorem wheelIn_upd_fcons (s : State) (v : List (Nat × List Byte)) : (applyUpd (.wheelIn v) s).fcons = s.fcons := rfl
@[simp] theorem wheelIn_upd_shadow (s : State) (v : List (Nat × List Byte)) : (applyUpd (.wheelIn v) s).shadow = s.shadow := rfl
@[simp] theorem wheelIn_upd_trv (s : State) (v : List (Nat × List Byte)) : (applyUpd (.wheelIn v) s).trv = s.trv := rfl
@[simp] theorem wheelIn_upd_tlayers (s : State) (v : List (Nat × List Byte)) : (applyUpd (.wheelIn v) s).tlayers = s.tlayers := rfl
@[simp] theorem wheelIn_upd_jobFaults (s : State) (v : List (Nat × List Byte)) : (applyUpd (.wheelIn v) s).jobFaults = s.jobFaults := rfl
@[simp] theorem wheelIn_upd_unitLast (s : State) (v : List (Nat × List Byte)) : (applyUpd (.wheelIn v) s).unitLast = s.unitLast := rfl
@[simp] theorem wheelIn_upd_unitRst (s : State) (v : List (Nat × List Byte)) : (applyUpd (.wheelIn v) s).unitRst = s.unitRst := rfl
@[simp] theorem wheelIn_upd_xlink (s : State) (v : List (Nat × List Byte)) : (applyUpd (.wheelIn v) s).xlink = s.xlink := rfl
@[simp] theorem wheelIn_upd_trace (s : State) (v : List (Nat × List Byte)) : (applyUpd (.wheelIn v) s).trace = s.trace := rfl
@[simp] theorem wheelIn_upd_progs (s : State) (v : List (Nat × List Byte)) : (applyUpd (.wheelIn v) s).progs = s.progs := rfl
@[simp] theorem wheelIn_upd_rails (s : State) (v : List (Nat × List Byte)) : (applyUpd (.wheelIn v) s).rails = s.rails := rfl
@[simp] theorem wheelIn_upd_thm (s : State) (v : List (Nat × List Byte)) : (applyUpd (.wheelIn v) s).thm = s.thm := rfl
@[simp] theorem wheelIn_upd_bnd (s : State) (v : List (Nat × List Byte)) : (applyUpd (.wheelIn v) s).bnd = s.bnd := rfl
@[simp] theorem wheelIn_upd_thmTrip (s : State) (v : List (Nat × List Byte)) : (applyUpd (.wheelIn v) s).thmTrip = s.thmTrip := rfl
@[simp] theorem wheelIn_upd_flash (s : State) (v : List (Nat × List Byte)) : (applyUpd (.wheelIn v) s).flash = s.flash := rfl
@[simp] theorem wheelIn_upd_slots (s : State) (v : List (Nat × List Byte)) : (applyUpd (.wheelIn v) s).slots = s.slots := rfl
@[simp] theorem wheelIn_upd_stores (s : State) (v : List (Nat × List Byte)) : (applyUpd (.wheelIn v) s).stores = s.stores := rfl
@[simp] theorem wheelIn_upd_ids (s : State) (v : List (Nat × List Byte)) : (applyUpd (.wheelIn v) s).ids = s.ids := rfl
@[simp] theorem wheelIn_upd_boot (s : State) (v : List (Nat × List Byte)) : (applyUpd (.wheelIn v) s).boot = s.boot := rfl
@[simp] theorem wheelIn_upd_load (s : State) (v : List (Nat × List Byte)) : (applyUpd (.wheelIn v) s).load = s.load := rfl
@[simp] theorem wheelIn_upd_flt (s : State) (v : List (Nat × List Byte)) : (applyUpd (.wheelIn v) s).flt = s.flt := rfl
@[simp] theorem wheelIn_upd_mon (s : State) (v : List (Nat × List Byte)) : (applyUpd (.wheelIn v) s).mon = s.mon := rfl
@[simp] theorem spiStepBusy_upd_pending (s : State) (k : Nat) (v : Nat) : (applyUpd (.spiStepBusy k v) s).pending = s.pending := rfl
@[simp] theorem spiStepBusy_upd_regs (s : State) (k : Nat) (v : Nat) : (applyUpd (.spiStepBusy k v) s).regs = s.regs := rfl
@[simp] theorem spiStepBusy_upd_mem (s : State) (k : Nat) (v : Nat) : (applyUpd (.spiStepBusy k v) s).mem = s.mem := rfl
@[simp] theorem spiStepBusy_upd_sram (s : State) (k : Nat) (v : Nat) : (applyUpd (.spiStepBusy k v) s).sram = s.sram := rfl
@[simp] theorem spiStepBusy_upd_time (s : State) (k : Nat) (v : Nat) : (applyUpd (.spiStepBusy k v) s).time = s.time := rfl
@[simp] theorem spiStepBusy_upd_timeFrac (s : State) (k : Nat) (v : Nat) : (applyUpd (.spiStepBusy k v) s).timeFrac = s.timeFrac := rfl
@[simp] theorem spiStepBusy_upd_freeCtr (s : State) (k : Nat) (v : Nat) : (applyUpd (.spiStepBusy k v) s).freeCtr = s.freeCtr := rfl
@[simp] theorem spiStepBusy_upd_hiLatch (s : State) (k : Nat) (v : Nat) : (applyUpd (.spiStepBusy k v) s).hiLatch = s.hiLatch := rfl
@[simp] theorem spiStepBusy_upd_timeSet (s : State) (k : Nat) (v : Nat) : (applyUpd (.spiStepBusy k v) s).timeSet = s.timeSet := rfl
@[simp] theorem spiStepBusy_upd_n0 (s : State) (k : Nat) (v : Nat) : (applyUpd (.spiStepBusy k v) s).n0 = s.n0 := rfl
@[simp] theorem spiStepBusy_upd_ticked (s : State) (k : Nat) (v : Nat) : (applyUpd (.spiStepBusy k v) s).ticked = s.ticked := rfl
@[simp] theorem spiStepBusy_upd_peerTickAt (s : State) (k : Nat) (v : Nat) : (applyUpd (.spiStepBusy k v) s).peerTickAt = s.peerTickAt := rfl
@[simp] theorem spiStepBusy_upd_guardPitch (s : State) (k : Nat) (v : Nat) : (applyUpd (.spiStepBusy k v) s).guardPitch = s.guardPitch := rfl
@[simp] theorem spiStepBusy_upd_diePitch (s : State) (k : Nat) (v : Nat) : (applyUpd (.spiStepBusy k v) s).diePitch = s.diePitch := rfl
@[simp] theorem spiStepBusy_upd_resps (s : State) (k : Nat) (v : Nat) : (applyUpd (.spiStepBusy k v) s).resps = s.resps := rfl
@[simp] theorem spiStepBusy_upd_txns (s : State) (k : Nat) (v : Nat) : (applyUpd (.spiStepBusy k v) s).txns = s.txns := rfl
@[simp] theorem spiStepBusy_upd_nextTag (s : State) (k : Nat) (v : Nat) : (applyUpd (.spiStepBusy k v) s).nextTag = s.nextTag := rfl
@[simp] theorem spiStepBusy_upd_lateTags (s : State) (k : Nat) (v : Nat) : (applyUpd (.spiStepBusy k v) s).lateTags = s.lateTags := rfl
@[simp] theorem spiStepBusy_upd_ports (s : State) (k : Nat) (v : Nat) : (applyUpd (.spiStepBusy k v) s).ports = s.ports := rfl
@[simp] theorem spiStepBusy_upd_threads (s : State) (k : Nat) (v : Nat) : (applyUpd (.spiStepBusy k v) s).threads = s.threads := rfl
@[simp] theorem spiStepBusy_upd_cores (s : State) (k : Nat) (v : Nat) : (applyUpd (.spiStepBusy k v) s).cores = s.cores := rfl
@[simp] theorem spiStepBusy_upd_engines (s : State) (k : Nat) (v : Nat) : (applyUpd (.spiStepBusy k v) s).engines = s.engines := rfl
@[simp] theorem spiStepBusy_upd_held (s : State) (k : Nat) (v : Nat) : (applyUpd (.spiStepBusy k v) s).held = s.held := rfl
@[simp] theorem spiStepBusy_upd_watches (s : State) (k : Nat) (v : Nat) : (applyUpd (.spiStepBusy k v) s).watches = s.watches := rfl
@[simp] theorem spiStepBusy_upd_watchMsgs (s : State) (k : Nat) (v : Nat) : (applyUpd (.spiStepBusy k v) s).watchMsgs = s.watchMsgs := rfl
@[simp] theorem spiStepBusy_upd_bankHeld (s : State) (k : Nat) (v : Nat) : (applyUpd (.spiStepBusy k v) s).bankHeld = s.bankHeld := rfl
@[simp] theorem spiStepBusy_upd_bankTarget (s : State) (k : Nat) (v : Nat) : (applyUpd (.spiStepBusy k v) s).bankTarget = s.bankTarget := rfl
@[simp] theorem spiStepBusy_upd_ecc (s : State) (k : Nat) (v : Nat) : (applyUpd (.spiStepBusy k v) s).ecc = s.ecc := rfl
@[simp] theorem spiStepBusy_upd_lineEcc (s : State) (k : Nat) (v : Nat) : (applyUpd (.spiStepBusy k v) s).lineEcc = s.lineEcc := rfl
@[simp] theorem spiStepBusy_upd_wbPending (s : State) (k : Nat) (v : Nat) : (applyUpd (.spiStepBusy k v) s).wbPending = s.wbPending := rfl
@[simp] theorem spiStepBusy_upd_scrubPos (s : State) (k : Nat) (v : Nat) : (applyUpd (.spiStepBusy k v) s).scrubPos = s.scrubPos := rfl
@[simp] theorem spiStepBusy_upd_refusals (s : State) (k : Nat) (v : Nat) : (applyUpd (.spiStepBusy k v) s).refusals = s.refusals := rfl
@[simp] theorem spiStepBusy_upd_firstRefusal (s : State) (k : Nat) (v : Nat) : (applyUpd (.spiStepBusy k v) s).firstRefusal = s.firstRefusal := rfl
@[simp] theorem spiStepBusy_upd_boxQueue (s : State) (k : Nat) (v : Nat) : (applyUpd (.spiStepBusy k v) s).boxQueue = s.boxQueue := rfl
@[simp] theorem spiStepBusy_upd_boxRun (s : State) (k : Nat) (v : Nat) : (applyUpd (.spiStepBusy k v) s).boxRun = s.boxRun := rfl
@[simp] theorem spiStepBusy_upd_kvs (s : State) (k : Nat) (v : Nat) : (applyUpd (.spiStepBusy k v) s).kvs = s.kvs := rfl
@[simp] theorem spiStepBusy_upd_parts (s : State) (k : Nat) (v : Nat) : (applyUpd (.spiStepBusy k v) s).parts = s.parts := rfl
@[simp] theorem spiStepBusy_upd_dmas (s : State) (k : Nat) (v : Nat) : (applyUpd (.spiStepBusy k v) s).dmas = s.dmas := rfl
@[simp] theorem spiStepBusy_upd_regReqs (s : State) (k : Nat) (v : Nat) : (applyUpd (.spiStepBusy k v) s).regReqs = s.regReqs := rfl
@[simp] theorem spiStepBusy_upd_regPorts (s : State) (k : Nat) (v : Nat) : (applyUpd (.spiStepBusy k v) s).regPorts = s.regPorts := rfl
@[simp] theorem spiStepBusy_upd_subchs (s : State) (k : Nat) (v : Nat) : (applyUpd (.spiStepBusy k v) s).subchs = s.subchs := rfl
@[simp] theorem spiStepBusy_upd_trackers (s : State) (k : Nat) (v : Nat) : (applyUpd (.spiStepBusy k v) s).trackers = s.trackers := rfl
@[simp] theorem spiStepBusy_upd_throttles (s : State) (k : Nat) (v : Nat) : (applyUpd (.spiStepBusy k v) s).throttles = s.throttles := rfl
@[simp] theorem spiStepBusy_upd_errRing (s : State) (k : Nat) (v : Nat) : (applyUpd (.spiStepBusy k v) s).errRing = s.errRing := rfl
@[simp] theorem spiStepBusy_upd_errRingOvf (s : State) (k : Nat) (v : Nat) : (applyUpd (.spiStepBusy k v) s).errRingOvf = s.errRingOvf := rfl
@[simp] theorem spiStepBusy_upd_patrolLine (s : State) (k : Nat) (v : Nat) : (applyUpd (.spiStepBusy k v) s).patrolLine = s.patrolLine := rfl
@[simp] theorem spiStepBusy_upd_retTimes (s : State) (k : Nat) (v : Nat) : (applyUpd (.spiStepBusy k v) s).retTimes = s.retTimes := rfl
@[simp] theorem spiStepBusy_upd_retired (s : State) (k : Nat) (v : Nat) : (applyUpd (.spiStepBusy k v) s).retired = s.retired := rfl
@[simp] theorem spiStepBusy_upd_dramSeq (s : State) (k : Nat) (v : Nat) : (applyUpd (.spiStepBusy k v) s).dramSeq = s.dramSeq := rfl
@[simp] theorem spiStepBusy_upd_trn (s : State) (k : Nat) (v : Nat) : (applyUpd (.spiStepBusy k v) s).trn = s.trn := rfl
@[simp] theorem spiStepBusy_upd_dqsAdj (s : State) (k : Nat) (v : Nat) : (applyUpd (.spiStepBusy k v) s).dqsAdj = s.dqsAdj := rfl
@[simp] theorem spiStepBusy_upd_dpol (s : State) (k : Nat) (v : Nat) : (applyUpd (.spiStepBusy k v) s).dpol = s.dpol := rfl
@[simp] theorem spiStepBusy_upd_idleAt (s : State) (k : Nat) (v : Nat) : (applyUpd (.spiStepBusy k v) s).idleAt = s.idleAt := rfl
@[simp] theorem spiStepBusy_upd_fitted (s : State) (k : Nat) (v : Nat) : (applyUpd (.spiStepBusy k v) s).fitted = s.fitted := rfl
@[simp] theorem spiStepBusy_upd_faultMsgs (s : State) (k : Nat) (v : Nat) : (applyUpd (.spiStepBusy k v) s).faultMsgs = s.faultMsgs := rfl
@[simp] theorem spiStepBusy_upd_out (s : State) (k : Nat) (v : Nat) : (applyUpd (.spiStepBusy k v) s).out = s.out := rfl
@[simp] theorem spiStepBusy_upd_lastRead (s : State) (k : Nat) (v : Nat) : (applyUpd (.spiStepBusy k v) s).lastRead = s.lastRead := rfl
@[simp] theorem spiStepBusy_upd_fwd (s : State) (k : Nat) (v : Nat) : (applyUpd (.spiStepBusy k v) s).fwd = s.fwd := rfl
@[simp] theorem spiStepBusy_upd_ethTx (s : State) (k : Nat) (v : Nat) : (applyUpd (.spiStepBusy k v) s).ethTx = s.ethTx := rfl
@[simp] theorem spiStepBusy_upd_ethHeadAt (s : State) (k : Nat) (v : Nat) : (applyUpd (.spiStepBusy k v) s).ethHeadAt = s.ethHeadAt := rfl
@[simp] theorem spiStepBusy_upd_canTx (s : State) (k : Nat) (v : Nat) : (applyUpd (.spiStepBusy k v) s).canTx = s.canTx := rfl
@[simp] theorem spiStepBusy_upd_pcieOut (s : State) (k : Nat) (v : Nat) : (applyUpd (.spiStepBusy k v) s).pcieOut = s.pcieOut := rfl
@[simp] theorem spiStepBusy_upd_pcieCfgRd (s : State) (k : Nat) (v : Nat) : (applyUpd (.spiStepBusy k v) s).pcieCfgRd = s.pcieCfgRd := rfl
@[simp] theorem spiStepBusy_upd_msix (s : State) (k : Nat) (v : Nat) : (applyUpd (.spiStepBusy k v) s).msix = s.msix := rfl
@[simp] theorem spiStepBusy_upd_ancs (s : State) (k : Nat) (v : Nat) : (applyUpd (.spiStepBusy k v) s).ancs = s.ancs := rfl
@[simp] theorem spiStepBusy_upd_trajArea (s : State) (k : Nat) (v : Nat) : (applyUpd (.spiStepBusy k v) s).trajArea = s.trajArea := rfl
@[simp] theorem spiStepBusy_upd_lidarIn (s : State) (k : Nat) (v : Nat) : (applyUpd (.spiStepBusy k v) s).lidarIn = s.lidarIn := rfl
@[simp] theorem spiStepBusy_upd_wheelIn (s : State) (k : Nat) (v : Nat) : (applyUpd (.spiStepBusy k v) s).wheelIn = s.wheelIn := rfl
@[simp] theorem spiStepBusy_upd_spiStepBusy (s : State) (k : Nat) (v : Nat) : (applyUpd (.spiStepBusy k v) s).spiStepBusy = tabSet zeroNat s.spiStepBusy k v := rfl
@[simp] theorem spiStepBusy_upd_spiRec (s : State) (k : Nat) (v : Nat) : (applyUpd (.spiStepBusy k v) s).spiRec = s.spiRec := rfl
@[simp] theorem spiStepBusy_upd_spiStepCfg (s : State) (k : Nat) (v : Nat) : (applyUpd (.spiStepBusy k v) s).spiStepCfg = s.spiStepCfg := rfl
@[simp] theorem spiStepBusy_upd_ctxs (s : State) (k : Nat) (v : Nat) : (applyUpd (.spiStepBusy k v) s).ctxs = s.ctxs := rfl
@[simp] theorem spiStepBusy_upd_fsyOmit (s : State) (k : Nat) (v : Nat) : (applyUpd (.spiStepBusy k v) s).fsyOmit = s.fsyOmit := rfl
@[simp] theorem spiStepBusy_upd_fsyPulsed (s : State) (k : Nat) (v : Nat) : (applyUpd (.spiStepBusy k v) s).fsyPulsed = s.fsyPulsed := rfl
@[simp] theorem spiStepBusy_upd_supTasks (s : State) (k : Nat) (v : Nat) : (applyUpd (.spiStepBusy k v) s).supTasks = s.supTasks := rfl
@[simp] theorem spiStepBusy_upd_fus (s : State) (k : Nat) (v : Nat) : (applyUpd (.spiStepBusy k v) s).fus = s.fus := rfl
@[simp] theorem spiStepBusy_upd_fcons (s : State) (k : Nat) (v : Nat) : (applyUpd (.spiStepBusy k v) s).fcons = s.fcons := rfl
@[simp] theorem spiStepBusy_upd_shadow (s : State) (k : Nat) (v : Nat) : (applyUpd (.spiStepBusy k v) s).shadow = s.shadow := rfl
@[simp] theorem spiStepBusy_upd_trv (s : State) (k : Nat) (v : Nat) : (applyUpd (.spiStepBusy k v) s).trv = s.trv := rfl
@[simp] theorem spiStepBusy_upd_tlayers (s : State) (k : Nat) (v : Nat) : (applyUpd (.spiStepBusy k v) s).tlayers = s.tlayers := rfl
@[simp] theorem spiStepBusy_upd_jobFaults (s : State) (k : Nat) (v : Nat) : (applyUpd (.spiStepBusy k v) s).jobFaults = s.jobFaults := rfl
@[simp] theorem spiStepBusy_upd_unitLast (s : State) (k : Nat) (v : Nat) : (applyUpd (.spiStepBusy k v) s).unitLast = s.unitLast := rfl
@[simp] theorem spiStepBusy_upd_unitRst (s : State) (k : Nat) (v : Nat) : (applyUpd (.spiStepBusy k v) s).unitRst = s.unitRst := rfl
@[simp] theorem spiStepBusy_upd_xlink (s : State) (k : Nat) (v : Nat) : (applyUpd (.spiStepBusy k v) s).xlink = s.xlink := rfl
@[simp] theorem spiStepBusy_upd_trace (s : State) (k : Nat) (v : Nat) : (applyUpd (.spiStepBusy k v) s).trace = s.trace := rfl
@[simp] theorem spiStepBusy_upd_progs (s : State) (k : Nat) (v : Nat) : (applyUpd (.spiStepBusy k v) s).progs = s.progs := rfl
@[simp] theorem spiStepBusy_upd_rails (s : State) (k : Nat) (v : Nat) : (applyUpd (.spiStepBusy k v) s).rails = s.rails := rfl
@[simp] theorem spiStepBusy_upd_thm (s : State) (k : Nat) (v : Nat) : (applyUpd (.spiStepBusy k v) s).thm = s.thm := rfl
@[simp] theorem spiStepBusy_upd_bnd (s : State) (k : Nat) (v : Nat) : (applyUpd (.spiStepBusy k v) s).bnd = s.bnd := rfl
@[simp] theorem spiStepBusy_upd_thmTrip (s : State) (k : Nat) (v : Nat) : (applyUpd (.spiStepBusy k v) s).thmTrip = s.thmTrip := rfl
@[simp] theorem spiStepBusy_upd_flash (s : State) (k : Nat) (v : Nat) : (applyUpd (.spiStepBusy k v) s).flash = s.flash := rfl
@[simp] theorem spiStepBusy_upd_slots (s : State) (k : Nat) (v : Nat) : (applyUpd (.spiStepBusy k v) s).slots = s.slots := rfl
@[simp] theorem spiStepBusy_upd_stores (s : State) (k : Nat) (v : Nat) : (applyUpd (.spiStepBusy k v) s).stores = s.stores := rfl
@[simp] theorem spiStepBusy_upd_ids (s : State) (k : Nat) (v : Nat) : (applyUpd (.spiStepBusy k v) s).ids = s.ids := rfl
@[simp] theorem spiStepBusy_upd_boot (s : State) (k : Nat) (v : Nat) : (applyUpd (.spiStepBusy k v) s).boot = s.boot := rfl
@[simp] theorem spiStepBusy_upd_load (s : State) (k : Nat) (v : Nat) : (applyUpd (.spiStepBusy k v) s).load = s.load := rfl
@[simp] theorem spiStepBusy_upd_flt (s : State) (k : Nat) (v : Nat) : (applyUpd (.spiStepBusy k v) s).flt = s.flt := rfl
@[simp] theorem spiStepBusy_upd_mon (s : State) (k : Nat) (v : Nat) : (applyUpd (.spiStepBusy k v) s).mon = s.mon := rfl
@[simp] theorem spiRec_upd_pending (s : State) (v : List (Nat × Nat × Nat × Nat × List Byte)) : (applyUpd (.spiRec v) s).pending = s.pending := rfl
@[simp] theorem spiRec_upd_regs (s : State) (v : List (Nat × Nat × Nat × Nat × List Byte)) : (applyUpd (.spiRec v) s).regs = s.regs := rfl
@[simp] theorem spiRec_upd_mem (s : State) (v : List (Nat × Nat × Nat × Nat × List Byte)) : (applyUpd (.spiRec v) s).mem = s.mem := rfl
@[simp] theorem spiRec_upd_sram (s : State) (v : List (Nat × Nat × Nat × Nat × List Byte)) : (applyUpd (.spiRec v) s).sram = s.sram := rfl
@[simp] theorem spiRec_upd_time (s : State) (v : List (Nat × Nat × Nat × Nat × List Byte)) : (applyUpd (.spiRec v) s).time = s.time := rfl
@[simp] theorem spiRec_upd_timeFrac (s : State) (v : List (Nat × Nat × Nat × Nat × List Byte)) : (applyUpd (.spiRec v) s).timeFrac = s.timeFrac := rfl
@[simp] theorem spiRec_upd_freeCtr (s : State) (v : List (Nat × Nat × Nat × Nat × List Byte)) : (applyUpd (.spiRec v) s).freeCtr = s.freeCtr := rfl
@[simp] theorem spiRec_upd_hiLatch (s : State) (v : List (Nat × Nat × Nat × Nat × List Byte)) : (applyUpd (.spiRec v) s).hiLatch = s.hiLatch := rfl
@[simp] theorem spiRec_upd_timeSet (s : State) (v : List (Nat × Nat × Nat × Nat × List Byte)) : (applyUpd (.spiRec v) s).timeSet = s.timeSet := rfl
@[simp] theorem spiRec_upd_n0 (s : State) (v : List (Nat × Nat × Nat × Nat × List Byte)) : (applyUpd (.spiRec v) s).n0 = s.n0 := rfl
@[simp] theorem spiRec_upd_ticked (s : State) (v : List (Nat × Nat × Nat × Nat × List Byte)) : (applyUpd (.spiRec v) s).ticked = s.ticked := rfl
@[simp] theorem spiRec_upd_peerTickAt (s : State) (v : List (Nat × Nat × Nat × Nat × List Byte)) : (applyUpd (.spiRec v) s).peerTickAt = s.peerTickAt := rfl
@[simp] theorem spiRec_upd_guardPitch (s : State) (v : List (Nat × Nat × Nat × Nat × List Byte)) : (applyUpd (.spiRec v) s).guardPitch = s.guardPitch := rfl
@[simp] theorem spiRec_upd_diePitch (s : State) (v : List (Nat × Nat × Nat × Nat × List Byte)) : (applyUpd (.spiRec v) s).diePitch = s.diePitch := rfl
@[simp] theorem spiRec_upd_resps (s : State) (v : List (Nat × Nat × Nat × Nat × List Byte)) : (applyUpd (.spiRec v) s).resps = s.resps := rfl
@[simp] theorem spiRec_upd_txns (s : State) (v : List (Nat × Nat × Nat × Nat × List Byte)) : (applyUpd (.spiRec v) s).txns = s.txns := rfl
@[simp] theorem spiRec_upd_nextTag (s : State) (v : List (Nat × Nat × Nat × Nat × List Byte)) : (applyUpd (.spiRec v) s).nextTag = s.nextTag := rfl
@[simp] theorem spiRec_upd_lateTags (s : State) (v : List (Nat × Nat × Nat × Nat × List Byte)) : (applyUpd (.spiRec v) s).lateTags = s.lateTags := rfl
@[simp] theorem spiRec_upd_ports (s : State) (v : List (Nat × Nat × Nat × Nat × List Byte)) : (applyUpd (.spiRec v) s).ports = s.ports := rfl
@[simp] theorem spiRec_upd_threads (s : State) (v : List (Nat × Nat × Nat × Nat × List Byte)) : (applyUpd (.spiRec v) s).threads = s.threads := rfl
@[simp] theorem spiRec_upd_cores (s : State) (v : List (Nat × Nat × Nat × Nat × List Byte)) : (applyUpd (.spiRec v) s).cores = s.cores := rfl
@[simp] theorem spiRec_upd_engines (s : State) (v : List (Nat × Nat × Nat × Nat × List Byte)) : (applyUpd (.spiRec v) s).engines = s.engines := rfl
@[simp] theorem spiRec_upd_held (s : State) (v : List (Nat × Nat × Nat × Nat × List Byte)) : (applyUpd (.spiRec v) s).held = s.held := rfl
@[simp] theorem spiRec_upd_watches (s : State) (v : List (Nat × Nat × Nat × Nat × List Byte)) : (applyUpd (.spiRec v) s).watches = s.watches := rfl
@[simp] theorem spiRec_upd_watchMsgs (s : State) (v : List (Nat × Nat × Nat × Nat × List Byte)) : (applyUpd (.spiRec v) s).watchMsgs = s.watchMsgs := rfl
@[simp] theorem spiRec_upd_bankHeld (s : State) (v : List (Nat × Nat × Nat × Nat × List Byte)) : (applyUpd (.spiRec v) s).bankHeld = s.bankHeld := rfl
@[simp] theorem spiRec_upd_bankTarget (s : State) (v : List (Nat × Nat × Nat × Nat × List Byte)) : (applyUpd (.spiRec v) s).bankTarget = s.bankTarget := rfl
@[simp] theorem spiRec_upd_ecc (s : State) (v : List (Nat × Nat × Nat × Nat × List Byte)) : (applyUpd (.spiRec v) s).ecc = s.ecc := rfl
@[simp] theorem spiRec_upd_lineEcc (s : State) (v : List (Nat × Nat × Nat × Nat × List Byte)) : (applyUpd (.spiRec v) s).lineEcc = s.lineEcc := rfl
@[simp] theorem spiRec_upd_wbPending (s : State) (v : List (Nat × Nat × Nat × Nat × List Byte)) : (applyUpd (.spiRec v) s).wbPending = s.wbPending := rfl
@[simp] theorem spiRec_upd_scrubPos (s : State) (v : List (Nat × Nat × Nat × Nat × List Byte)) : (applyUpd (.spiRec v) s).scrubPos = s.scrubPos := rfl
@[simp] theorem spiRec_upd_refusals (s : State) (v : List (Nat × Nat × Nat × Nat × List Byte)) : (applyUpd (.spiRec v) s).refusals = s.refusals := rfl
@[simp] theorem spiRec_upd_firstRefusal (s : State) (v : List (Nat × Nat × Nat × Nat × List Byte)) : (applyUpd (.spiRec v) s).firstRefusal = s.firstRefusal := rfl
@[simp] theorem spiRec_upd_boxQueue (s : State) (v : List (Nat × Nat × Nat × Nat × List Byte)) : (applyUpd (.spiRec v) s).boxQueue = s.boxQueue := rfl
@[simp] theorem spiRec_upd_boxRun (s : State) (v : List (Nat × Nat × Nat × Nat × List Byte)) : (applyUpd (.spiRec v) s).boxRun = s.boxRun := rfl
@[simp] theorem spiRec_upd_kvs (s : State) (v : List (Nat × Nat × Nat × Nat × List Byte)) : (applyUpd (.spiRec v) s).kvs = s.kvs := rfl
@[simp] theorem spiRec_upd_parts (s : State) (v : List (Nat × Nat × Nat × Nat × List Byte)) : (applyUpd (.spiRec v) s).parts = s.parts := rfl
@[simp] theorem spiRec_upd_dmas (s : State) (v : List (Nat × Nat × Nat × Nat × List Byte)) : (applyUpd (.spiRec v) s).dmas = s.dmas := rfl
@[simp] theorem spiRec_upd_regReqs (s : State) (v : List (Nat × Nat × Nat × Nat × List Byte)) : (applyUpd (.spiRec v) s).regReqs = s.regReqs := rfl
@[simp] theorem spiRec_upd_regPorts (s : State) (v : List (Nat × Nat × Nat × Nat × List Byte)) : (applyUpd (.spiRec v) s).regPorts = s.regPorts := rfl
@[simp] theorem spiRec_upd_subchs (s : State) (v : List (Nat × Nat × Nat × Nat × List Byte)) : (applyUpd (.spiRec v) s).subchs = s.subchs := rfl
@[simp] theorem spiRec_upd_trackers (s : State) (v : List (Nat × Nat × Nat × Nat × List Byte)) : (applyUpd (.spiRec v) s).trackers = s.trackers := rfl
@[simp] theorem spiRec_upd_throttles (s : State) (v : List (Nat × Nat × Nat × Nat × List Byte)) : (applyUpd (.spiRec v) s).throttles = s.throttles := rfl
@[simp] theorem spiRec_upd_errRing (s : State) (v : List (Nat × Nat × Nat × Nat × List Byte)) : (applyUpd (.spiRec v) s).errRing = s.errRing := rfl
@[simp] theorem spiRec_upd_errRingOvf (s : State) (v : List (Nat × Nat × Nat × Nat × List Byte)) : (applyUpd (.spiRec v) s).errRingOvf = s.errRingOvf := rfl
@[simp] theorem spiRec_upd_patrolLine (s : State) (v : List (Nat × Nat × Nat × Nat × List Byte)) : (applyUpd (.spiRec v) s).patrolLine = s.patrolLine := rfl
@[simp] theorem spiRec_upd_retTimes (s : State) (v : List (Nat × Nat × Nat × Nat × List Byte)) : (applyUpd (.spiRec v) s).retTimes = s.retTimes := rfl
@[simp] theorem spiRec_upd_retired (s : State) (v : List (Nat × Nat × Nat × Nat × List Byte)) : (applyUpd (.spiRec v) s).retired = s.retired := rfl
@[simp] theorem spiRec_upd_dramSeq (s : State) (v : List (Nat × Nat × Nat × Nat × List Byte)) : (applyUpd (.spiRec v) s).dramSeq = s.dramSeq := rfl
@[simp] theorem spiRec_upd_trn (s : State) (v : List (Nat × Nat × Nat × Nat × List Byte)) : (applyUpd (.spiRec v) s).trn = s.trn := rfl
@[simp] theorem spiRec_upd_dqsAdj (s : State) (v : List (Nat × Nat × Nat × Nat × List Byte)) : (applyUpd (.spiRec v) s).dqsAdj = s.dqsAdj := rfl
@[simp] theorem spiRec_upd_dpol (s : State) (v : List (Nat × Nat × Nat × Nat × List Byte)) : (applyUpd (.spiRec v) s).dpol = s.dpol := rfl
@[simp] theorem spiRec_upd_idleAt (s : State) (v : List (Nat × Nat × Nat × Nat × List Byte)) : (applyUpd (.spiRec v) s).idleAt = s.idleAt := rfl
@[simp] theorem spiRec_upd_fitted (s : State) (v : List (Nat × Nat × Nat × Nat × List Byte)) : (applyUpd (.spiRec v) s).fitted = s.fitted := rfl
@[simp] theorem spiRec_upd_faultMsgs (s : State) (v : List (Nat × Nat × Nat × Nat × List Byte)) : (applyUpd (.spiRec v) s).faultMsgs = s.faultMsgs := rfl
@[simp] theorem spiRec_upd_out (s : State) (v : List (Nat × Nat × Nat × Nat × List Byte)) : (applyUpd (.spiRec v) s).out = s.out := rfl
@[simp] theorem spiRec_upd_lastRead (s : State) (v : List (Nat × Nat × Nat × Nat × List Byte)) : (applyUpd (.spiRec v) s).lastRead = s.lastRead := rfl
@[simp] theorem spiRec_upd_fwd (s : State) (v : List (Nat × Nat × Nat × Nat × List Byte)) : (applyUpd (.spiRec v) s).fwd = s.fwd := rfl
@[simp] theorem spiRec_upd_ethTx (s : State) (v : List (Nat × Nat × Nat × Nat × List Byte)) : (applyUpd (.spiRec v) s).ethTx = s.ethTx := rfl
@[simp] theorem spiRec_upd_ethHeadAt (s : State) (v : List (Nat × Nat × Nat × Nat × List Byte)) : (applyUpd (.spiRec v) s).ethHeadAt = s.ethHeadAt := rfl
@[simp] theorem spiRec_upd_canTx (s : State) (v : List (Nat × Nat × Nat × Nat × List Byte)) : (applyUpd (.spiRec v) s).canTx = s.canTx := rfl
@[simp] theorem spiRec_upd_pcieOut (s : State) (v : List (Nat × Nat × Nat × Nat × List Byte)) : (applyUpd (.spiRec v) s).pcieOut = s.pcieOut := rfl
@[simp] theorem spiRec_upd_pcieCfgRd (s : State) (v : List (Nat × Nat × Nat × Nat × List Byte)) : (applyUpd (.spiRec v) s).pcieCfgRd = s.pcieCfgRd := rfl
@[simp] theorem spiRec_upd_msix (s : State) (v : List (Nat × Nat × Nat × Nat × List Byte)) : (applyUpd (.spiRec v) s).msix = s.msix := rfl
@[simp] theorem spiRec_upd_ancs (s : State) (v : List (Nat × Nat × Nat × Nat × List Byte)) : (applyUpd (.spiRec v) s).ancs = s.ancs := rfl
@[simp] theorem spiRec_upd_trajArea (s : State) (v : List (Nat × Nat × Nat × Nat × List Byte)) : (applyUpd (.spiRec v) s).trajArea = s.trajArea := rfl
@[simp] theorem spiRec_upd_lidarIn (s : State) (v : List (Nat × Nat × Nat × Nat × List Byte)) : (applyUpd (.spiRec v) s).lidarIn = s.lidarIn := rfl
@[simp] theorem spiRec_upd_wheelIn (s : State) (v : List (Nat × Nat × Nat × Nat × List Byte)) : (applyUpd (.spiRec v) s).wheelIn = s.wheelIn := rfl
@[simp] theorem spiRec_upd_spiStepBusy (s : State) (v : List (Nat × Nat × Nat × Nat × List Byte)) : (applyUpd (.spiRec v) s).spiStepBusy = s.spiStepBusy := rfl
@[simp] theorem spiRec_upd_spiRec (s : State) (v : List (Nat × Nat × Nat × Nat × List Byte)) : (applyUpd (.spiRec v) s).spiRec = v := rfl
@[simp] theorem spiRec_upd_spiStepCfg (s : State) (v : List (Nat × Nat × Nat × Nat × List Byte)) : (applyUpd (.spiRec v) s).spiStepCfg = s.spiStepCfg := rfl
@[simp] theorem spiRec_upd_ctxs (s : State) (v : List (Nat × Nat × Nat × Nat × List Byte)) : (applyUpd (.spiRec v) s).ctxs = s.ctxs := rfl
@[simp] theorem spiRec_upd_fsyOmit (s : State) (v : List (Nat × Nat × Nat × Nat × List Byte)) : (applyUpd (.spiRec v) s).fsyOmit = s.fsyOmit := rfl
@[simp] theorem spiRec_upd_fsyPulsed (s : State) (v : List (Nat × Nat × Nat × Nat × List Byte)) : (applyUpd (.spiRec v) s).fsyPulsed = s.fsyPulsed := rfl
@[simp] theorem spiRec_upd_supTasks (s : State) (v : List (Nat × Nat × Nat × Nat × List Byte)) : (applyUpd (.spiRec v) s).supTasks = s.supTasks := rfl
@[simp] theorem spiRec_upd_fus (s : State) (v : List (Nat × Nat × Nat × Nat × List Byte)) : (applyUpd (.spiRec v) s).fus = s.fus := rfl
@[simp] theorem spiRec_upd_fcons (s : State) (v : List (Nat × Nat × Nat × Nat × List Byte)) : (applyUpd (.spiRec v) s).fcons = s.fcons := rfl
@[simp] theorem spiRec_upd_shadow (s : State) (v : List (Nat × Nat × Nat × Nat × List Byte)) : (applyUpd (.spiRec v) s).shadow = s.shadow := rfl
@[simp] theorem spiRec_upd_trv (s : State) (v : List (Nat × Nat × Nat × Nat × List Byte)) : (applyUpd (.spiRec v) s).trv = s.trv := rfl
@[simp] theorem spiRec_upd_tlayers (s : State) (v : List (Nat × Nat × Nat × Nat × List Byte)) : (applyUpd (.spiRec v) s).tlayers = s.tlayers := rfl
@[simp] theorem spiRec_upd_jobFaults (s : State) (v : List (Nat × Nat × Nat × Nat × List Byte)) : (applyUpd (.spiRec v) s).jobFaults = s.jobFaults := rfl
@[simp] theorem spiRec_upd_unitLast (s : State) (v : List (Nat × Nat × Nat × Nat × List Byte)) : (applyUpd (.spiRec v) s).unitLast = s.unitLast := rfl
@[simp] theorem spiRec_upd_unitRst (s : State) (v : List (Nat × Nat × Nat × Nat × List Byte)) : (applyUpd (.spiRec v) s).unitRst = s.unitRst := rfl
@[simp] theorem spiRec_upd_xlink (s : State) (v : List (Nat × Nat × Nat × Nat × List Byte)) : (applyUpd (.spiRec v) s).xlink = s.xlink := rfl
@[simp] theorem spiRec_upd_trace (s : State) (v : List (Nat × Nat × Nat × Nat × List Byte)) : (applyUpd (.spiRec v) s).trace = s.trace := rfl
@[simp] theorem spiRec_upd_progs (s : State) (v : List (Nat × Nat × Nat × Nat × List Byte)) : (applyUpd (.spiRec v) s).progs = s.progs := rfl
@[simp] theorem spiRec_upd_rails (s : State) (v : List (Nat × Nat × Nat × Nat × List Byte)) : (applyUpd (.spiRec v) s).rails = s.rails := rfl
@[simp] theorem spiRec_upd_thm (s : State) (v : List (Nat × Nat × Nat × Nat × List Byte)) : (applyUpd (.spiRec v) s).thm = s.thm := rfl
@[simp] theorem spiRec_upd_bnd (s : State) (v : List (Nat × Nat × Nat × Nat × List Byte)) : (applyUpd (.spiRec v) s).bnd = s.bnd := rfl
@[simp] theorem spiRec_upd_thmTrip (s : State) (v : List (Nat × Nat × Nat × Nat × List Byte)) : (applyUpd (.spiRec v) s).thmTrip = s.thmTrip := rfl
@[simp] theorem spiRec_upd_flash (s : State) (v : List (Nat × Nat × Nat × Nat × List Byte)) : (applyUpd (.spiRec v) s).flash = s.flash := rfl
@[simp] theorem spiRec_upd_slots (s : State) (v : List (Nat × Nat × Nat × Nat × List Byte)) : (applyUpd (.spiRec v) s).slots = s.slots := rfl
@[simp] theorem spiRec_upd_stores (s : State) (v : List (Nat × Nat × Nat × Nat × List Byte)) : (applyUpd (.spiRec v) s).stores = s.stores := rfl
@[simp] theorem spiRec_upd_ids (s : State) (v : List (Nat × Nat × Nat × Nat × List Byte)) : (applyUpd (.spiRec v) s).ids = s.ids := rfl
@[simp] theorem spiRec_upd_boot (s : State) (v : List (Nat × Nat × Nat × Nat × List Byte)) : (applyUpd (.spiRec v) s).boot = s.boot := rfl
@[simp] theorem spiRec_upd_load (s : State) (v : List (Nat × Nat × Nat × Nat × List Byte)) : (applyUpd (.spiRec v) s).load = s.load := rfl
@[simp] theorem spiRec_upd_flt (s : State) (v : List (Nat × Nat × Nat × Nat × List Byte)) : (applyUpd (.spiRec v) s).flt = s.flt := rfl
@[simp] theorem spiRec_upd_mon (s : State) (v : List (Nat × Nat × Nat × Nat × List Byte)) : (applyUpd (.spiRec v) s).mon = s.mon := rfl
@[simp] theorem spiStepCfg_upd_pending (s : State) (k : Nat) (v : List Nat) : (applyUpd (.spiStepCfg k v) s).pending = s.pending := rfl
@[simp] theorem spiStepCfg_upd_regs (s : State) (k : Nat) (v : List Nat) : (applyUpd (.spiStepCfg k v) s).regs = s.regs := rfl
@[simp] theorem spiStepCfg_upd_mem (s : State) (k : Nat) (v : List Nat) : (applyUpd (.spiStepCfg k v) s).mem = s.mem := rfl
@[simp] theorem spiStepCfg_upd_sram (s : State) (k : Nat) (v : List Nat) : (applyUpd (.spiStepCfg k v) s).sram = s.sram := rfl
@[simp] theorem spiStepCfg_upd_time (s : State) (k : Nat) (v : List Nat) : (applyUpd (.spiStepCfg k v) s).time = s.time := rfl
@[simp] theorem spiStepCfg_upd_timeFrac (s : State) (k : Nat) (v : List Nat) : (applyUpd (.spiStepCfg k v) s).timeFrac = s.timeFrac := rfl
@[simp] theorem spiStepCfg_upd_freeCtr (s : State) (k : Nat) (v : List Nat) : (applyUpd (.spiStepCfg k v) s).freeCtr = s.freeCtr := rfl
@[simp] theorem spiStepCfg_upd_hiLatch (s : State) (k : Nat) (v : List Nat) : (applyUpd (.spiStepCfg k v) s).hiLatch = s.hiLatch := rfl
@[simp] theorem spiStepCfg_upd_timeSet (s : State) (k : Nat) (v : List Nat) : (applyUpd (.spiStepCfg k v) s).timeSet = s.timeSet := rfl
@[simp] theorem spiStepCfg_upd_n0 (s : State) (k : Nat) (v : List Nat) : (applyUpd (.spiStepCfg k v) s).n0 = s.n0 := rfl
@[simp] theorem spiStepCfg_upd_ticked (s : State) (k : Nat) (v : List Nat) : (applyUpd (.spiStepCfg k v) s).ticked = s.ticked := rfl
@[simp] theorem spiStepCfg_upd_peerTickAt (s : State) (k : Nat) (v : List Nat) : (applyUpd (.spiStepCfg k v) s).peerTickAt = s.peerTickAt := rfl
@[simp] theorem spiStepCfg_upd_guardPitch (s : State) (k : Nat) (v : List Nat) : (applyUpd (.spiStepCfg k v) s).guardPitch = s.guardPitch := rfl
@[simp] theorem spiStepCfg_upd_diePitch (s : State) (k : Nat) (v : List Nat) : (applyUpd (.spiStepCfg k v) s).diePitch = s.diePitch := rfl
@[simp] theorem spiStepCfg_upd_resps (s : State) (k : Nat) (v : List Nat) : (applyUpd (.spiStepCfg k v) s).resps = s.resps := rfl
@[simp] theorem spiStepCfg_upd_txns (s : State) (k : Nat) (v : List Nat) : (applyUpd (.spiStepCfg k v) s).txns = s.txns := rfl
@[simp] theorem spiStepCfg_upd_nextTag (s : State) (k : Nat) (v : List Nat) : (applyUpd (.spiStepCfg k v) s).nextTag = s.nextTag := rfl
@[simp] theorem spiStepCfg_upd_lateTags (s : State) (k : Nat) (v : List Nat) : (applyUpd (.spiStepCfg k v) s).lateTags = s.lateTags := rfl
@[simp] theorem spiStepCfg_upd_ports (s : State) (k : Nat) (v : List Nat) : (applyUpd (.spiStepCfg k v) s).ports = s.ports := rfl
@[simp] theorem spiStepCfg_upd_threads (s : State) (k : Nat) (v : List Nat) : (applyUpd (.spiStepCfg k v) s).threads = s.threads := rfl
@[simp] theorem spiStepCfg_upd_cores (s : State) (k : Nat) (v : List Nat) : (applyUpd (.spiStepCfg k v) s).cores = s.cores := rfl
@[simp] theorem spiStepCfg_upd_engines (s : State) (k : Nat) (v : List Nat) : (applyUpd (.spiStepCfg k v) s).engines = s.engines := rfl
@[simp] theorem spiStepCfg_upd_held (s : State) (k : Nat) (v : List Nat) : (applyUpd (.spiStepCfg k v) s).held = s.held := rfl
@[simp] theorem spiStepCfg_upd_watches (s : State) (k : Nat) (v : List Nat) : (applyUpd (.spiStepCfg k v) s).watches = s.watches := rfl
@[simp] theorem spiStepCfg_upd_watchMsgs (s : State) (k : Nat) (v : List Nat) : (applyUpd (.spiStepCfg k v) s).watchMsgs = s.watchMsgs := rfl
@[simp] theorem spiStepCfg_upd_bankHeld (s : State) (k : Nat) (v : List Nat) : (applyUpd (.spiStepCfg k v) s).bankHeld = s.bankHeld := rfl
@[simp] theorem spiStepCfg_upd_bankTarget (s : State) (k : Nat) (v : List Nat) : (applyUpd (.spiStepCfg k v) s).bankTarget = s.bankTarget := rfl
@[simp] theorem spiStepCfg_upd_ecc (s : State) (k : Nat) (v : List Nat) : (applyUpd (.spiStepCfg k v) s).ecc = s.ecc := rfl
@[simp] theorem spiStepCfg_upd_lineEcc (s : State) (k : Nat) (v : List Nat) : (applyUpd (.spiStepCfg k v) s).lineEcc = s.lineEcc := rfl
@[simp] theorem spiStepCfg_upd_wbPending (s : State) (k : Nat) (v : List Nat) : (applyUpd (.spiStepCfg k v) s).wbPending = s.wbPending := rfl
@[simp] theorem spiStepCfg_upd_scrubPos (s : State) (k : Nat) (v : List Nat) : (applyUpd (.spiStepCfg k v) s).scrubPos = s.scrubPos := rfl
@[simp] theorem spiStepCfg_upd_refusals (s : State) (k : Nat) (v : List Nat) : (applyUpd (.spiStepCfg k v) s).refusals = s.refusals := rfl
@[simp] theorem spiStepCfg_upd_firstRefusal (s : State) (k : Nat) (v : List Nat) : (applyUpd (.spiStepCfg k v) s).firstRefusal = s.firstRefusal := rfl
@[simp] theorem spiStepCfg_upd_boxQueue (s : State) (k : Nat) (v : List Nat) : (applyUpd (.spiStepCfg k v) s).boxQueue = s.boxQueue := rfl
@[simp] theorem spiStepCfg_upd_boxRun (s : State) (k : Nat) (v : List Nat) : (applyUpd (.spiStepCfg k v) s).boxRun = s.boxRun := rfl
@[simp] theorem spiStepCfg_upd_kvs (s : State) (k : Nat) (v : List Nat) : (applyUpd (.spiStepCfg k v) s).kvs = s.kvs := rfl
@[simp] theorem spiStepCfg_upd_parts (s : State) (k : Nat) (v : List Nat) : (applyUpd (.spiStepCfg k v) s).parts = s.parts := rfl
@[simp] theorem spiStepCfg_upd_dmas (s : State) (k : Nat) (v : List Nat) : (applyUpd (.spiStepCfg k v) s).dmas = s.dmas := rfl
@[simp] theorem spiStepCfg_upd_regReqs (s : State) (k : Nat) (v : List Nat) : (applyUpd (.spiStepCfg k v) s).regReqs = s.regReqs := rfl
@[simp] theorem spiStepCfg_upd_regPorts (s : State) (k : Nat) (v : List Nat) : (applyUpd (.spiStepCfg k v) s).regPorts = s.regPorts := rfl
@[simp] theorem spiStepCfg_upd_subchs (s : State) (k : Nat) (v : List Nat) : (applyUpd (.spiStepCfg k v) s).subchs = s.subchs := rfl
@[simp] theorem spiStepCfg_upd_trackers (s : State) (k : Nat) (v : List Nat) : (applyUpd (.spiStepCfg k v) s).trackers = s.trackers := rfl
@[simp] theorem spiStepCfg_upd_throttles (s : State) (k : Nat) (v : List Nat) : (applyUpd (.spiStepCfg k v) s).throttles = s.throttles := rfl
@[simp] theorem spiStepCfg_upd_errRing (s : State) (k : Nat) (v : List Nat) : (applyUpd (.spiStepCfg k v) s).errRing = s.errRing := rfl
@[simp] theorem spiStepCfg_upd_errRingOvf (s : State) (k : Nat) (v : List Nat) : (applyUpd (.spiStepCfg k v) s).errRingOvf = s.errRingOvf := rfl
@[simp] theorem spiStepCfg_upd_patrolLine (s : State) (k : Nat) (v : List Nat) : (applyUpd (.spiStepCfg k v) s).patrolLine = s.patrolLine := rfl
@[simp] theorem spiStepCfg_upd_retTimes (s : State) (k : Nat) (v : List Nat) : (applyUpd (.spiStepCfg k v) s).retTimes = s.retTimes := rfl
@[simp] theorem spiStepCfg_upd_retired (s : State) (k : Nat) (v : List Nat) : (applyUpd (.spiStepCfg k v) s).retired = s.retired := rfl
@[simp] theorem spiStepCfg_upd_dramSeq (s : State) (k : Nat) (v : List Nat) : (applyUpd (.spiStepCfg k v) s).dramSeq = s.dramSeq := rfl
@[simp] theorem spiStepCfg_upd_trn (s : State) (k : Nat) (v : List Nat) : (applyUpd (.spiStepCfg k v) s).trn = s.trn := rfl
@[simp] theorem spiStepCfg_upd_dqsAdj (s : State) (k : Nat) (v : List Nat) : (applyUpd (.spiStepCfg k v) s).dqsAdj = s.dqsAdj := rfl
@[simp] theorem spiStepCfg_upd_dpol (s : State) (k : Nat) (v : List Nat) : (applyUpd (.spiStepCfg k v) s).dpol = s.dpol := rfl
@[simp] theorem spiStepCfg_upd_idleAt (s : State) (k : Nat) (v : List Nat) : (applyUpd (.spiStepCfg k v) s).idleAt = s.idleAt := rfl
@[simp] theorem spiStepCfg_upd_fitted (s : State) (k : Nat) (v : List Nat) : (applyUpd (.spiStepCfg k v) s).fitted = s.fitted := rfl
@[simp] theorem spiStepCfg_upd_faultMsgs (s : State) (k : Nat) (v : List Nat) : (applyUpd (.spiStepCfg k v) s).faultMsgs = s.faultMsgs := rfl
@[simp] theorem spiStepCfg_upd_out (s : State) (k : Nat) (v : List Nat) : (applyUpd (.spiStepCfg k v) s).out = s.out := rfl
@[simp] theorem spiStepCfg_upd_lastRead (s : State) (k : Nat) (v : List Nat) : (applyUpd (.spiStepCfg k v) s).lastRead = s.lastRead := rfl
@[simp] theorem spiStepCfg_upd_fwd (s : State) (k : Nat) (v : List Nat) : (applyUpd (.spiStepCfg k v) s).fwd = s.fwd := rfl
@[simp] theorem spiStepCfg_upd_ethTx (s : State) (k : Nat) (v : List Nat) : (applyUpd (.spiStepCfg k v) s).ethTx = s.ethTx := rfl
@[simp] theorem spiStepCfg_upd_ethHeadAt (s : State) (k : Nat) (v : List Nat) : (applyUpd (.spiStepCfg k v) s).ethHeadAt = s.ethHeadAt := rfl
@[simp] theorem spiStepCfg_upd_canTx (s : State) (k : Nat) (v : List Nat) : (applyUpd (.spiStepCfg k v) s).canTx = s.canTx := rfl
@[simp] theorem spiStepCfg_upd_pcieOut (s : State) (k : Nat) (v : List Nat) : (applyUpd (.spiStepCfg k v) s).pcieOut = s.pcieOut := rfl
@[simp] theorem spiStepCfg_upd_pcieCfgRd (s : State) (k : Nat) (v : List Nat) : (applyUpd (.spiStepCfg k v) s).pcieCfgRd = s.pcieCfgRd := rfl
@[simp] theorem spiStepCfg_upd_msix (s : State) (k : Nat) (v : List Nat) : (applyUpd (.spiStepCfg k v) s).msix = s.msix := rfl
@[simp] theorem spiStepCfg_upd_ancs (s : State) (k : Nat) (v : List Nat) : (applyUpd (.spiStepCfg k v) s).ancs = s.ancs := rfl
@[simp] theorem spiStepCfg_upd_trajArea (s : State) (k : Nat) (v : List Nat) : (applyUpd (.spiStepCfg k v) s).trajArea = s.trajArea := rfl
@[simp] theorem spiStepCfg_upd_lidarIn (s : State) (k : Nat) (v : List Nat) : (applyUpd (.spiStepCfg k v) s).lidarIn = s.lidarIn := rfl
@[simp] theorem spiStepCfg_upd_wheelIn (s : State) (k : Nat) (v : List Nat) : (applyUpd (.spiStepCfg k v) s).wheelIn = s.wheelIn := rfl
@[simp] theorem spiStepCfg_upd_spiStepBusy (s : State) (k : Nat) (v : List Nat) : (applyUpd (.spiStepCfg k v) s).spiStepBusy = s.spiStepBusy := rfl
@[simp] theorem spiStepCfg_upd_spiRec (s : State) (k : Nat) (v : List Nat) : (applyUpd (.spiStepCfg k v) s).spiRec = s.spiRec := rfl
@[simp] theorem spiStepCfg_upd_spiStepCfg (s : State) (k : Nat) (v : List Nat) : (applyUpd (.spiStepCfg k v) s).spiStepCfg = tabSet noNats s.spiStepCfg k v := rfl
@[simp] theorem spiStepCfg_upd_ctxs (s : State) (k : Nat) (v : List Nat) : (applyUpd (.spiStepCfg k v) s).ctxs = s.ctxs := rfl
@[simp] theorem spiStepCfg_upd_fsyOmit (s : State) (k : Nat) (v : List Nat) : (applyUpd (.spiStepCfg k v) s).fsyOmit = s.fsyOmit := rfl
@[simp] theorem spiStepCfg_upd_fsyPulsed (s : State) (k : Nat) (v : List Nat) : (applyUpd (.spiStepCfg k v) s).fsyPulsed = s.fsyPulsed := rfl
@[simp] theorem spiStepCfg_upd_supTasks (s : State) (k : Nat) (v : List Nat) : (applyUpd (.spiStepCfg k v) s).supTasks = s.supTasks := rfl
@[simp] theorem spiStepCfg_upd_fus (s : State) (k : Nat) (v : List Nat) : (applyUpd (.spiStepCfg k v) s).fus = s.fus := rfl
@[simp] theorem spiStepCfg_upd_fcons (s : State) (k : Nat) (v : List Nat) : (applyUpd (.spiStepCfg k v) s).fcons = s.fcons := rfl
@[simp] theorem spiStepCfg_upd_shadow (s : State) (k : Nat) (v : List Nat) : (applyUpd (.spiStepCfg k v) s).shadow = s.shadow := rfl
@[simp] theorem spiStepCfg_upd_trv (s : State) (k : Nat) (v : List Nat) : (applyUpd (.spiStepCfg k v) s).trv = s.trv := rfl
@[simp] theorem spiStepCfg_upd_tlayers (s : State) (k : Nat) (v : List Nat) : (applyUpd (.spiStepCfg k v) s).tlayers = s.tlayers := rfl
@[simp] theorem spiStepCfg_upd_jobFaults (s : State) (k : Nat) (v : List Nat) : (applyUpd (.spiStepCfg k v) s).jobFaults = s.jobFaults := rfl
@[simp] theorem spiStepCfg_upd_unitLast (s : State) (k : Nat) (v : List Nat) : (applyUpd (.spiStepCfg k v) s).unitLast = s.unitLast := rfl
@[simp] theorem spiStepCfg_upd_unitRst (s : State) (k : Nat) (v : List Nat) : (applyUpd (.spiStepCfg k v) s).unitRst = s.unitRst := rfl
@[simp] theorem spiStepCfg_upd_xlink (s : State) (k : Nat) (v : List Nat) : (applyUpd (.spiStepCfg k v) s).xlink = s.xlink := rfl
@[simp] theorem spiStepCfg_upd_trace (s : State) (k : Nat) (v : List Nat) : (applyUpd (.spiStepCfg k v) s).trace = s.trace := rfl
@[simp] theorem spiStepCfg_upd_progs (s : State) (k : Nat) (v : List Nat) : (applyUpd (.spiStepCfg k v) s).progs = s.progs := rfl
@[simp] theorem spiStepCfg_upd_rails (s : State) (k : Nat) (v : List Nat) : (applyUpd (.spiStepCfg k v) s).rails = s.rails := rfl
@[simp] theorem spiStepCfg_upd_thm (s : State) (k : Nat) (v : List Nat) : (applyUpd (.spiStepCfg k v) s).thm = s.thm := rfl
@[simp] theorem spiStepCfg_upd_bnd (s : State) (k : Nat) (v : List Nat) : (applyUpd (.spiStepCfg k v) s).bnd = s.bnd := rfl
@[simp] theorem spiStepCfg_upd_thmTrip (s : State) (k : Nat) (v : List Nat) : (applyUpd (.spiStepCfg k v) s).thmTrip = s.thmTrip := rfl
@[simp] theorem spiStepCfg_upd_flash (s : State) (k : Nat) (v : List Nat) : (applyUpd (.spiStepCfg k v) s).flash = s.flash := rfl
@[simp] theorem spiStepCfg_upd_slots (s : State) (k : Nat) (v : List Nat) : (applyUpd (.spiStepCfg k v) s).slots = s.slots := rfl
@[simp] theorem spiStepCfg_upd_stores (s : State) (k : Nat) (v : List Nat) : (applyUpd (.spiStepCfg k v) s).stores = s.stores := rfl
@[simp] theorem spiStepCfg_upd_ids (s : State) (k : Nat) (v : List Nat) : (applyUpd (.spiStepCfg k v) s).ids = s.ids := rfl
@[simp] theorem spiStepCfg_upd_boot (s : State) (k : Nat) (v : List Nat) : (applyUpd (.spiStepCfg k v) s).boot = s.boot := rfl
@[simp] theorem spiStepCfg_upd_load (s : State) (k : Nat) (v : List Nat) : (applyUpd (.spiStepCfg k v) s).load = s.load := rfl
@[simp] theorem spiStepCfg_upd_flt (s : State) (k : Nat) (v : List Nat) : (applyUpd (.spiStepCfg k v) s).flt = s.flt := rfl
@[simp] theorem spiStepCfg_upd_mon (s : State) (k : Nat) (v : List Nat) : (applyUpd (.spiStepCfg k v) s).mon = s.mon := rfl
@[simp] theorem ctxs_upd_pending (s : State) (k : Nat) (v : Ctx) : (applyUpd (.ctxs k v) s).pending = s.pending := rfl
@[simp] theorem ctxs_upd_regs (s : State) (k : Nat) (v : Ctx) : (applyUpd (.ctxs k v) s).regs = s.regs := rfl
@[simp] theorem ctxs_upd_mem (s : State) (k : Nat) (v : Ctx) : (applyUpd (.ctxs k v) s).mem = s.mem := rfl
@[simp] theorem ctxs_upd_sram (s : State) (k : Nat) (v : Ctx) : (applyUpd (.ctxs k v) s).sram = s.sram := rfl
@[simp] theorem ctxs_upd_time (s : State) (k : Nat) (v : Ctx) : (applyUpd (.ctxs k v) s).time = s.time := rfl
@[simp] theorem ctxs_upd_timeFrac (s : State) (k : Nat) (v : Ctx) : (applyUpd (.ctxs k v) s).timeFrac = s.timeFrac := rfl
@[simp] theorem ctxs_upd_freeCtr (s : State) (k : Nat) (v : Ctx) : (applyUpd (.ctxs k v) s).freeCtr = s.freeCtr := rfl
@[simp] theorem ctxs_upd_hiLatch (s : State) (k : Nat) (v : Ctx) : (applyUpd (.ctxs k v) s).hiLatch = s.hiLatch := rfl
@[simp] theorem ctxs_upd_timeSet (s : State) (k : Nat) (v : Ctx) : (applyUpd (.ctxs k v) s).timeSet = s.timeSet := rfl
@[simp] theorem ctxs_upd_n0 (s : State) (k : Nat) (v : Ctx) : (applyUpd (.ctxs k v) s).n0 = s.n0 := rfl
@[simp] theorem ctxs_upd_ticked (s : State) (k : Nat) (v : Ctx) : (applyUpd (.ctxs k v) s).ticked = s.ticked := rfl
@[simp] theorem ctxs_upd_peerTickAt (s : State) (k : Nat) (v : Ctx) : (applyUpd (.ctxs k v) s).peerTickAt = s.peerTickAt := rfl
@[simp] theorem ctxs_upd_guardPitch (s : State) (k : Nat) (v : Ctx) : (applyUpd (.ctxs k v) s).guardPitch = s.guardPitch := rfl
@[simp] theorem ctxs_upd_diePitch (s : State) (k : Nat) (v : Ctx) : (applyUpd (.ctxs k v) s).diePitch = s.diePitch := rfl
@[simp] theorem ctxs_upd_resps (s : State) (k : Nat) (v : Ctx) : (applyUpd (.ctxs k v) s).resps = s.resps := rfl
@[simp] theorem ctxs_upd_txns (s : State) (k : Nat) (v : Ctx) : (applyUpd (.ctxs k v) s).txns = s.txns := rfl
@[simp] theorem ctxs_upd_nextTag (s : State) (k : Nat) (v : Ctx) : (applyUpd (.ctxs k v) s).nextTag = s.nextTag := rfl
@[simp] theorem ctxs_upd_lateTags (s : State) (k : Nat) (v : Ctx) : (applyUpd (.ctxs k v) s).lateTags = s.lateTags := rfl
@[simp] theorem ctxs_upd_ports (s : State) (k : Nat) (v : Ctx) : (applyUpd (.ctxs k v) s).ports = s.ports := rfl
@[simp] theorem ctxs_upd_threads (s : State) (k : Nat) (v : Ctx) : (applyUpd (.ctxs k v) s).threads = s.threads := rfl
@[simp] theorem ctxs_upd_cores (s : State) (k : Nat) (v : Ctx) : (applyUpd (.ctxs k v) s).cores = s.cores := rfl
@[simp] theorem ctxs_upd_engines (s : State) (k : Nat) (v : Ctx) : (applyUpd (.ctxs k v) s).engines = s.engines := rfl
@[simp] theorem ctxs_upd_held (s : State) (k : Nat) (v : Ctx) : (applyUpd (.ctxs k v) s).held = s.held := rfl
@[simp] theorem ctxs_upd_watches (s : State) (k : Nat) (v : Ctx) : (applyUpd (.ctxs k v) s).watches = s.watches := rfl
@[simp] theorem ctxs_upd_watchMsgs (s : State) (k : Nat) (v : Ctx) : (applyUpd (.ctxs k v) s).watchMsgs = s.watchMsgs := rfl
@[simp] theorem ctxs_upd_bankHeld (s : State) (k : Nat) (v : Ctx) : (applyUpd (.ctxs k v) s).bankHeld = s.bankHeld := rfl
@[simp] theorem ctxs_upd_bankTarget (s : State) (k : Nat) (v : Ctx) : (applyUpd (.ctxs k v) s).bankTarget = s.bankTarget := rfl
@[simp] theorem ctxs_upd_ecc (s : State) (k : Nat) (v : Ctx) : (applyUpd (.ctxs k v) s).ecc = s.ecc := rfl
@[simp] theorem ctxs_upd_lineEcc (s : State) (k : Nat) (v : Ctx) : (applyUpd (.ctxs k v) s).lineEcc = s.lineEcc := rfl
@[simp] theorem ctxs_upd_wbPending (s : State) (k : Nat) (v : Ctx) : (applyUpd (.ctxs k v) s).wbPending = s.wbPending := rfl
@[simp] theorem ctxs_upd_scrubPos (s : State) (k : Nat) (v : Ctx) : (applyUpd (.ctxs k v) s).scrubPos = s.scrubPos := rfl
@[simp] theorem ctxs_upd_refusals (s : State) (k : Nat) (v : Ctx) : (applyUpd (.ctxs k v) s).refusals = s.refusals := rfl
@[simp] theorem ctxs_upd_firstRefusal (s : State) (k : Nat) (v : Ctx) : (applyUpd (.ctxs k v) s).firstRefusal = s.firstRefusal := rfl
@[simp] theorem ctxs_upd_boxQueue (s : State) (k : Nat) (v : Ctx) : (applyUpd (.ctxs k v) s).boxQueue = s.boxQueue := rfl
@[simp] theorem ctxs_upd_boxRun (s : State) (k : Nat) (v : Ctx) : (applyUpd (.ctxs k v) s).boxRun = s.boxRun := rfl
@[simp] theorem ctxs_upd_kvs (s : State) (k : Nat) (v : Ctx) : (applyUpd (.ctxs k v) s).kvs = s.kvs := rfl
@[simp] theorem ctxs_upd_parts (s : State) (k : Nat) (v : Ctx) : (applyUpd (.ctxs k v) s).parts = s.parts := rfl
@[simp] theorem ctxs_upd_dmas (s : State) (k : Nat) (v : Ctx) : (applyUpd (.ctxs k v) s).dmas = s.dmas := rfl
@[simp] theorem ctxs_upd_regReqs (s : State) (k : Nat) (v : Ctx) : (applyUpd (.ctxs k v) s).regReqs = s.regReqs := rfl
@[simp] theorem ctxs_upd_regPorts (s : State) (k : Nat) (v : Ctx) : (applyUpd (.ctxs k v) s).regPorts = s.regPorts := rfl
@[simp] theorem ctxs_upd_subchs (s : State) (k : Nat) (v : Ctx) : (applyUpd (.ctxs k v) s).subchs = s.subchs := rfl
@[simp] theorem ctxs_upd_trackers (s : State) (k : Nat) (v : Ctx) : (applyUpd (.ctxs k v) s).trackers = s.trackers := rfl
@[simp] theorem ctxs_upd_throttles (s : State) (k : Nat) (v : Ctx) : (applyUpd (.ctxs k v) s).throttles = s.throttles := rfl
@[simp] theorem ctxs_upd_errRing (s : State) (k : Nat) (v : Ctx) : (applyUpd (.ctxs k v) s).errRing = s.errRing := rfl
@[simp] theorem ctxs_upd_errRingOvf (s : State) (k : Nat) (v : Ctx) : (applyUpd (.ctxs k v) s).errRingOvf = s.errRingOvf := rfl
@[simp] theorem ctxs_upd_patrolLine (s : State) (k : Nat) (v : Ctx) : (applyUpd (.ctxs k v) s).patrolLine = s.patrolLine := rfl
@[simp] theorem ctxs_upd_retTimes (s : State) (k : Nat) (v : Ctx) : (applyUpd (.ctxs k v) s).retTimes = s.retTimes := rfl
@[simp] theorem ctxs_upd_retired (s : State) (k : Nat) (v : Ctx) : (applyUpd (.ctxs k v) s).retired = s.retired := rfl
@[simp] theorem ctxs_upd_dramSeq (s : State) (k : Nat) (v : Ctx) : (applyUpd (.ctxs k v) s).dramSeq = s.dramSeq := rfl
@[simp] theorem ctxs_upd_trn (s : State) (k : Nat) (v : Ctx) : (applyUpd (.ctxs k v) s).trn = s.trn := rfl
@[simp] theorem ctxs_upd_dqsAdj (s : State) (k : Nat) (v : Ctx) : (applyUpd (.ctxs k v) s).dqsAdj = s.dqsAdj := rfl
@[simp] theorem ctxs_upd_dpol (s : State) (k : Nat) (v : Ctx) : (applyUpd (.ctxs k v) s).dpol = s.dpol := rfl
@[simp] theorem ctxs_upd_idleAt (s : State) (k : Nat) (v : Ctx) : (applyUpd (.ctxs k v) s).idleAt = s.idleAt := rfl
@[simp] theorem ctxs_upd_fitted (s : State) (k : Nat) (v : Ctx) : (applyUpd (.ctxs k v) s).fitted = s.fitted := rfl
@[simp] theorem ctxs_upd_faultMsgs (s : State) (k : Nat) (v : Ctx) : (applyUpd (.ctxs k v) s).faultMsgs = s.faultMsgs := rfl
@[simp] theorem ctxs_upd_out (s : State) (k : Nat) (v : Ctx) : (applyUpd (.ctxs k v) s).out = s.out := rfl
@[simp] theorem ctxs_upd_lastRead (s : State) (k : Nat) (v : Ctx) : (applyUpd (.ctxs k v) s).lastRead = s.lastRead := rfl
@[simp] theorem ctxs_upd_fwd (s : State) (k : Nat) (v : Ctx) : (applyUpd (.ctxs k v) s).fwd = s.fwd := rfl
@[simp] theorem ctxs_upd_ethTx (s : State) (k : Nat) (v : Ctx) : (applyUpd (.ctxs k v) s).ethTx = s.ethTx := rfl
@[simp] theorem ctxs_upd_ethHeadAt (s : State) (k : Nat) (v : Ctx) : (applyUpd (.ctxs k v) s).ethHeadAt = s.ethHeadAt := rfl
@[simp] theorem ctxs_upd_canTx (s : State) (k : Nat) (v : Ctx) : (applyUpd (.ctxs k v) s).canTx = s.canTx := rfl
@[simp] theorem ctxs_upd_pcieOut (s : State) (k : Nat) (v : Ctx) : (applyUpd (.ctxs k v) s).pcieOut = s.pcieOut := rfl
@[simp] theorem ctxs_upd_pcieCfgRd (s : State) (k : Nat) (v : Ctx) : (applyUpd (.ctxs k v) s).pcieCfgRd = s.pcieCfgRd := rfl
@[simp] theorem ctxs_upd_msix (s : State) (k : Nat) (v : Ctx) : (applyUpd (.ctxs k v) s).msix = s.msix := rfl
@[simp] theorem ctxs_upd_ancs (s : State) (k : Nat) (v : Ctx) : (applyUpd (.ctxs k v) s).ancs = s.ancs := rfl
@[simp] theorem ctxs_upd_trajArea (s : State) (k : Nat) (v : Ctx) : (applyUpd (.ctxs k v) s).trajArea = s.trajArea := rfl
@[simp] theorem ctxs_upd_lidarIn (s : State) (k : Nat) (v : Ctx) : (applyUpd (.ctxs k v) s).lidarIn = s.lidarIn := rfl
@[simp] theorem ctxs_upd_wheelIn (s : State) (k : Nat) (v : Ctx) : (applyUpd (.ctxs k v) s).wheelIn = s.wheelIn := rfl
@[simp] theorem ctxs_upd_spiStepBusy (s : State) (k : Nat) (v : Ctx) : (applyUpd (.ctxs k v) s).spiStepBusy = s.spiStepBusy := rfl
@[simp] theorem ctxs_upd_spiRec (s : State) (k : Nat) (v : Ctx) : (applyUpd (.ctxs k v) s).spiRec = s.spiRec := rfl
@[simp] theorem ctxs_upd_spiStepCfg (s : State) (k : Nat) (v : Ctx) : (applyUpd (.ctxs k v) s).spiStepCfg = s.spiStepCfg := rfl
@[simp] theorem ctxs_upd_ctxs (s : State) (k : Nat) (v : Ctx) : (applyUpd (.ctxs k v) s).ctxs = tabSet ctxDefault s.ctxs k v := rfl
@[simp] theorem ctxs_upd_fsyOmit (s : State) (k : Nat) (v : Ctx) : (applyUpd (.ctxs k v) s).fsyOmit = s.fsyOmit := rfl
@[simp] theorem ctxs_upd_fsyPulsed (s : State) (k : Nat) (v : Ctx) : (applyUpd (.ctxs k v) s).fsyPulsed = s.fsyPulsed := rfl
@[simp] theorem ctxs_upd_supTasks (s : State) (k : Nat) (v : Ctx) : (applyUpd (.ctxs k v) s).supTasks = s.supTasks := rfl
@[simp] theorem ctxs_upd_fus (s : State) (k : Nat) (v : Ctx) : (applyUpd (.ctxs k v) s).fus = s.fus := rfl
@[simp] theorem ctxs_upd_fcons (s : State) (k : Nat) (v : Ctx) : (applyUpd (.ctxs k v) s).fcons = s.fcons := rfl
@[simp] theorem ctxs_upd_shadow (s : State) (k : Nat) (v : Ctx) : (applyUpd (.ctxs k v) s).shadow = s.shadow := rfl
@[simp] theorem ctxs_upd_trv (s : State) (k : Nat) (v : Ctx) : (applyUpd (.ctxs k v) s).trv = s.trv := rfl
@[simp] theorem ctxs_upd_tlayers (s : State) (k : Nat) (v : Ctx) : (applyUpd (.ctxs k v) s).tlayers = s.tlayers := rfl
@[simp] theorem ctxs_upd_jobFaults (s : State) (k : Nat) (v : Ctx) : (applyUpd (.ctxs k v) s).jobFaults = s.jobFaults := rfl
@[simp] theorem ctxs_upd_unitLast (s : State) (k : Nat) (v : Ctx) : (applyUpd (.ctxs k v) s).unitLast = s.unitLast := rfl
@[simp] theorem ctxs_upd_unitRst (s : State) (k : Nat) (v : Ctx) : (applyUpd (.ctxs k v) s).unitRst = s.unitRst := rfl
@[simp] theorem ctxs_upd_xlink (s : State) (k : Nat) (v : Ctx) : (applyUpd (.ctxs k v) s).xlink = s.xlink := rfl
@[simp] theorem ctxs_upd_trace (s : State) (k : Nat) (v : Ctx) : (applyUpd (.ctxs k v) s).trace = s.trace := rfl
@[simp] theorem ctxs_upd_progs (s : State) (k : Nat) (v : Ctx) : (applyUpd (.ctxs k v) s).progs = s.progs := rfl
@[simp] theorem ctxs_upd_rails (s : State) (k : Nat) (v : Ctx) : (applyUpd (.ctxs k v) s).rails = s.rails := rfl
@[simp] theorem ctxs_upd_thm (s : State) (k : Nat) (v : Ctx) : (applyUpd (.ctxs k v) s).thm = s.thm := rfl
@[simp] theorem ctxs_upd_bnd (s : State) (k : Nat) (v : Ctx) : (applyUpd (.ctxs k v) s).bnd = s.bnd := rfl
@[simp] theorem ctxs_upd_thmTrip (s : State) (k : Nat) (v : Ctx) : (applyUpd (.ctxs k v) s).thmTrip = s.thmTrip := rfl
@[simp] theorem ctxs_upd_flash (s : State) (k : Nat) (v : Ctx) : (applyUpd (.ctxs k v) s).flash = s.flash := rfl
@[simp] theorem ctxs_upd_slots (s : State) (k : Nat) (v : Ctx) : (applyUpd (.ctxs k v) s).slots = s.slots := rfl
@[simp] theorem ctxs_upd_stores (s : State) (k : Nat) (v : Ctx) : (applyUpd (.ctxs k v) s).stores = s.stores := rfl
@[simp] theorem ctxs_upd_ids (s : State) (k : Nat) (v : Ctx) : (applyUpd (.ctxs k v) s).ids = s.ids := rfl
@[simp] theorem ctxs_upd_boot (s : State) (k : Nat) (v : Ctx) : (applyUpd (.ctxs k v) s).boot = s.boot := rfl
@[simp] theorem ctxs_upd_load (s : State) (k : Nat) (v : Ctx) : (applyUpd (.ctxs k v) s).load = s.load := rfl
@[simp] theorem ctxs_upd_flt (s : State) (k : Nat) (v : Ctx) : (applyUpd (.ctxs k v) s).flt = s.flt := rfl
@[simp] theorem ctxs_upd_mon (s : State) (k : Nat) (v : Ctx) : (applyUpd (.ctxs k v) s).mon = s.mon := rfl
@[simp] theorem fsyOmit_upd_pending (s : State) (k : Nat) (v : Nat) : (applyUpd (.fsyOmit k v) s).pending = s.pending := rfl
@[simp] theorem fsyOmit_upd_regs (s : State) (k : Nat) (v : Nat) : (applyUpd (.fsyOmit k v) s).regs = s.regs := rfl
@[simp] theorem fsyOmit_upd_mem (s : State) (k : Nat) (v : Nat) : (applyUpd (.fsyOmit k v) s).mem = s.mem := rfl
@[simp] theorem fsyOmit_upd_sram (s : State) (k : Nat) (v : Nat) : (applyUpd (.fsyOmit k v) s).sram = s.sram := rfl
@[simp] theorem fsyOmit_upd_time (s : State) (k : Nat) (v : Nat) : (applyUpd (.fsyOmit k v) s).time = s.time := rfl
@[simp] theorem fsyOmit_upd_timeFrac (s : State) (k : Nat) (v : Nat) : (applyUpd (.fsyOmit k v) s).timeFrac = s.timeFrac := rfl
@[simp] theorem fsyOmit_upd_freeCtr (s : State) (k : Nat) (v : Nat) : (applyUpd (.fsyOmit k v) s).freeCtr = s.freeCtr := rfl
@[simp] theorem fsyOmit_upd_hiLatch (s : State) (k : Nat) (v : Nat) : (applyUpd (.fsyOmit k v) s).hiLatch = s.hiLatch := rfl
@[simp] theorem fsyOmit_upd_timeSet (s : State) (k : Nat) (v : Nat) : (applyUpd (.fsyOmit k v) s).timeSet = s.timeSet := rfl
@[simp] theorem fsyOmit_upd_n0 (s : State) (k : Nat) (v : Nat) : (applyUpd (.fsyOmit k v) s).n0 = s.n0 := rfl
@[simp] theorem fsyOmit_upd_ticked (s : State) (k : Nat) (v : Nat) : (applyUpd (.fsyOmit k v) s).ticked = s.ticked := rfl
@[simp] theorem fsyOmit_upd_peerTickAt (s : State) (k : Nat) (v : Nat) : (applyUpd (.fsyOmit k v) s).peerTickAt = s.peerTickAt := rfl
@[simp] theorem fsyOmit_upd_guardPitch (s : State) (k : Nat) (v : Nat) : (applyUpd (.fsyOmit k v) s).guardPitch = s.guardPitch := rfl
@[simp] theorem fsyOmit_upd_diePitch (s : State) (k : Nat) (v : Nat) : (applyUpd (.fsyOmit k v) s).diePitch = s.diePitch := rfl
@[simp] theorem fsyOmit_upd_resps (s : State) (k : Nat) (v : Nat) : (applyUpd (.fsyOmit k v) s).resps = s.resps := rfl
@[simp] theorem fsyOmit_upd_txns (s : State) (k : Nat) (v : Nat) : (applyUpd (.fsyOmit k v) s).txns = s.txns := rfl
@[simp] theorem fsyOmit_upd_nextTag (s : State) (k : Nat) (v : Nat) : (applyUpd (.fsyOmit k v) s).nextTag = s.nextTag := rfl
@[simp] theorem fsyOmit_upd_lateTags (s : State) (k : Nat) (v : Nat) : (applyUpd (.fsyOmit k v) s).lateTags = s.lateTags := rfl
@[simp] theorem fsyOmit_upd_ports (s : State) (k : Nat) (v : Nat) : (applyUpd (.fsyOmit k v) s).ports = s.ports := rfl
@[simp] theorem fsyOmit_upd_threads (s : State) (k : Nat) (v : Nat) : (applyUpd (.fsyOmit k v) s).threads = s.threads := rfl
@[simp] theorem fsyOmit_upd_cores (s : State) (k : Nat) (v : Nat) : (applyUpd (.fsyOmit k v) s).cores = s.cores := rfl
@[simp] theorem fsyOmit_upd_engines (s : State) (k : Nat) (v : Nat) : (applyUpd (.fsyOmit k v) s).engines = s.engines := rfl
@[simp] theorem fsyOmit_upd_held (s : State) (k : Nat) (v : Nat) : (applyUpd (.fsyOmit k v) s).held = s.held := rfl
@[simp] theorem fsyOmit_upd_watches (s : State) (k : Nat) (v : Nat) : (applyUpd (.fsyOmit k v) s).watches = s.watches := rfl
@[simp] theorem fsyOmit_upd_watchMsgs (s : State) (k : Nat) (v : Nat) : (applyUpd (.fsyOmit k v) s).watchMsgs = s.watchMsgs := rfl
@[simp] theorem fsyOmit_upd_bankHeld (s : State) (k : Nat) (v : Nat) : (applyUpd (.fsyOmit k v) s).bankHeld = s.bankHeld := rfl
@[simp] theorem fsyOmit_upd_bankTarget (s : State) (k : Nat) (v : Nat) : (applyUpd (.fsyOmit k v) s).bankTarget = s.bankTarget := rfl
@[simp] theorem fsyOmit_upd_ecc (s : State) (k : Nat) (v : Nat) : (applyUpd (.fsyOmit k v) s).ecc = s.ecc := rfl
@[simp] theorem fsyOmit_upd_lineEcc (s : State) (k : Nat) (v : Nat) : (applyUpd (.fsyOmit k v) s).lineEcc = s.lineEcc := rfl
@[simp] theorem fsyOmit_upd_wbPending (s : State) (k : Nat) (v : Nat) : (applyUpd (.fsyOmit k v) s).wbPending = s.wbPending := rfl
@[simp] theorem fsyOmit_upd_scrubPos (s : State) (k : Nat) (v : Nat) : (applyUpd (.fsyOmit k v) s).scrubPos = s.scrubPos := rfl
@[simp] theorem fsyOmit_upd_refusals (s : State) (k : Nat) (v : Nat) : (applyUpd (.fsyOmit k v) s).refusals = s.refusals := rfl
@[simp] theorem fsyOmit_upd_firstRefusal (s : State) (k : Nat) (v : Nat) : (applyUpd (.fsyOmit k v) s).firstRefusal = s.firstRefusal := rfl
@[simp] theorem fsyOmit_upd_boxQueue (s : State) (k : Nat) (v : Nat) : (applyUpd (.fsyOmit k v) s).boxQueue = s.boxQueue := rfl
@[simp] theorem fsyOmit_upd_boxRun (s : State) (k : Nat) (v : Nat) : (applyUpd (.fsyOmit k v) s).boxRun = s.boxRun := rfl
@[simp] theorem fsyOmit_upd_kvs (s : State) (k : Nat) (v : Nat) : (applyUpd (.fsyOmit k v) s).kvs = s.kvs := rfl
@[simp] theorem fsyOmit_upd_parts (s : State) (k : Nat) (v : Nat) : (applyUpd (.fsyOmit k v) s).parts = s.parts := rfl
@[simp] theorem fsyOmit_upd_dmas (s : State) (k : Nat) (v : Nat) : (applyUpd (.fsyOmit k v) s).dmas = s.dmas := rfl
@[simp] theorem fsyOmit_upd_regReqs (s : State) (k : Nat) (v : Nat) : (applyUpd (.fsyOmit k v) s).regReqs = s.regReqs := rfl
@[simp] theorem fsyOmit_upd_regPorts (s : State) (k : Nat) (v : Nat) : (applyUpd (.fsyOmit k v) s).regPorts = s.regPorts := rfl
@[simp] theorem fsyOmit_upd_subchs (s : State) (k : Nat) (v : Nat) : (applyUpd (.fsyOmit k v) s).subchs = s.subchs := rfl
@[simp] theorem fsyOmit_upd_trackers (s : State) (k : Nat) (v : Nat) : (applyUpd (.fsyOmit k v) s).trackers = s.trackers := rfl
@[simp] theorem fsyOmit_upd_throttles (s : State) (k : Nat) (v : Nat) : (applyUpd (.fsyOmit k v) s).throttles = s.throttles := rfl
@[simp] theorem fsyOmit_upd_errRing (s : State) (k : Nat) (v : Nat) : (applyUpd (.fsyOmit k v) s).errRing = s.errRing := rfl
@[simp] theorem fsyOmit_upd_errRingOvf (s : State) (k : Nat) (v : Nat) : (applyUpd (.fsyOmit k v) s).errRingOvf = s.errRingOvf := rfl
@[simp] theorem fsyOmit_upd_patrolLine (s : State) (k : Nat) (v : Nat) : (applyUpd (.fsyOmit k v) s).patrolLine = s.patrolLine := rfl
@[simp] theorem fsyOmit_upd_retTimes (s : State) (k : Nat) (v : Nat) : (applyUpd (.fsyOmit k v) s).retTimes = s.retTimes := rfl
@[simp] theorem fsyOmit_upd_retired (s : State) (k : Nat) (v : Nat) : (applyUpd (.fsyOmit k v) s).retired = s.retired := rfl
@[simp] theorem fsyOmit_upd_dramSeq (s : State) (k : Nat) (v : Nat) : (applyUpd (.fsyOmit k v) s).dramSeq = s.dramSeq := rfl
@[simp] theorem fsyOmit_upd_trn (s : State) (k : Nat) (v : Nat) : (applyUpd (.fsyOmit k v) s).trn = s.trn := rfl
@[simp] theorem fsyOmit_upd_dqsAdj (s : State) (k : Nat) (v : Nat) : (applyUpd (.fsyOmit k v) s).dqsAdj = s.dqsAdj := rfl
@[simp] theorem fsyOmit_upd_dpol (s : State) (k : Nat) (v : Nat) : (applyUpd (.fsyOmit k v) s).dpol = s.dpol := rfl
@[simp] theorem fsyOmit_upd_idleAt (s : State) (k : Nat) (v : Nat) : (applyUpd (.fsyOmit k v) s).idleAt = s.idleAt := rfl
@[simp] theorem fsyOmit_upd_fitted (s : State) (k : Nat) (v : Nat) : (applyUpd (.fsyOmit k v) s).fitted = s.fitted := rfl
@[simp] theorem fsyOmit_upd_faultMsgs (s : State) (k : Nat) (v : Nat) : (applyUpd (.fsyOmit k v) s).faultMsgs = s.faultMsgs := rfl
@[simp] theorem fsyOmit_upd_out (s : State) (k : Nat) (v : Nat) : (applyUpd (.fsyOmit k v) s).out = s.out := rfl
@[simp] theorem fsyOmit_upd_lastRead (s : State) (k : Nat) (v : Nat) : (applyUpd (.fsyOmit k v) s).lastRead = s.lastRead := rfl
@[simp] theorem fsyOmit_upd_fwd (s : State) (k : Nat) (v : Nat) : (applyUpd (.fsyOmit k v) s).fwd = s.fwd := rfl
@[simp] theorem fsyOmit_upd_ethTx (s : State) (k : Nat) (v : Nat) : (applyUpd (.fsyOmit k v) s).ethTx = s.ethTx := rfl
@[simp] theorem fsyOmit_upd_ethHeadAt (s : State) (k : Nat) (v : Nat) : (applyUpd (.fsyOmit k v) s).ethHeadAt = s.ethHeadAt := rfl
@[simp] theorem fsyOmit_upd_canTx (s : State) (k : Nat) (v : Nat) : (applyUpd (.fsyOmit k v) s).canTx = s.canTx := rfl
@[simp] theorem fsyOmit_upd_pcieOut (s : State) (k : Nat) (v : Nat) : (applyUpd (.fsyOmit k v) s).pcieOut = s.pcieOut := rfl
@[simp] theorem fsyOmit_upd_pcieCfgRd (s : State) (k : Nat) (v : Nat) : (applyUpd (.fsyOmit k v) s).pcieCfgRd = s.pcieCfgRd := rfl
@[simp] theorem fsyOmit_upd_msix (s : State) (k : Nat) (v : Nat) : (applyUpd (.fsyOmit k v) s).msix = s.msix := rfl
@[simp] theorem fsyOmit_upd_ancs (s : State) (k : Nat) (v : Nat) : (applyUpd (.fsyOmit k v) s).ancs = s.ancs := rfl
@[simp] theorem fsyOmit_upd_trajArea (s : State) (k : Nat) (v : Nat) : (applyUpd (.fsyOmit k v) s).trajArea = s.trajArea := rfl
@[simp] theorem fsyOmit_upd_lidarIn (s : State) (k : Nat) (v : Nat) : (applyUpd (.fsyOmit k v) s).lidarIn = s.lidarIn := rfl
@[simp] theorem fsyOmit_upd_wheelIn (s : State) (k : Nat) (v : Nat) : (applyUpd (.fsyOmit k v) s).wheelIn = s.wheelIn := rfl
@[simp] theorem fsyOmit_upd_spiStepBusy (s : State) (k : Nat) (v : Nat) : (applyUpd (.fsyOmit k v) s).spiStepBusy = s.spiStepBusy := rfl
@[simp] theorem fsyOmit_upd_spiRec (s : State) (k : Nat) (v : Nat) : (applyUpd (.fsyOmit k v) s).spiRec = s.spiRec := rfl
@[simp] theorem fsyOmit_upd_spiStepCfg (s : State) (k : Nat) (v : Nat) : (applyUpd (.fsyOmit k v) s).spiStepCfg = s.spiStepCfg := rfl
@[simp] theorem fsyOmit_upd_ctxs (s : State) (k : Nat) (v : Nat) : (applyUpd (.fsyOmit k v) s).ctxs = s.ctxs := rfl
@[simp] theorem fsyOmit_upd_fsyOmit (s : State) (k : Nat) (v : Nat) : (applyUpd (.fsyOmit k v) s).fsyOmit = tabSet zeroNat s.fsyOmit k v := rfl
@[simp] theorem fsyOmit_upd_fsyPulsed (s : State) (k : Nat) (v : Nat) : (applyUpd (.fsyOmit k v) s).fsyPulsed = s.fsyPulsed := rfl
@[simp] theorem fsyOmit_upd_supTasks (s : State) (k : Nat) (v : Nat) : (applyUpd (.fsyOmit k v) s).supTasks = s.supTasks := rfl
@[simp] theorem fsyOmit_upd_fus (s : State) (k : Nat) (v : Nat) : (applyUpd (.fsyOmit k v) s).fus = s.fus := rfl
@[simp] theorem fsyOmit_upd_fcons (s : State) (k : Nat) (v : Nat) : (applyUpd (.fsyOmit k v) s).fcons = s.fcons := rfl
@[simp] theorem fsyOmit_upd_shadow (s : State) (k : Nat) (v : Nat) : (applyUpd (.fsyOmit k v) s).shadow = s.shadow := rfl
@[simp] theorem fsyOmit_upd_trv (s : State) (k : Nat) (v : Nat) : (applyUpd (.fsyOmit k v) s).trv = s.trv := rfl
@[simp] theorem fsyOmit_upd_tlayers (s : State) (k : Nat) (v : Nat) : (applyUpd (.fsyOmit k v) s).tlayers = s.tlayers := rfl
@[simp] theorem fsyOmit_upd_jobFaults (s : State) (k : Nat) (v : Nat) : (applyUpd (.fsyOmit k v) s).jobFaults = s.jobFaults := rfl
@[simp] theorem fsyOmit_upd_unitLast (s : State) (k : Nat) (v : Nat) : (applyUpd (.fsyOmit k v) s).unitLast = s.unitLast := rfl
@[simp] theorem fsyOmit_upd_unitRst (s : State) (k : Nat) (v : Nat) : (applyUpd (.fsyOmit k v) s).unitRst = s.unitRst := rfl
@[simp] theorem fsyOmit_upd_xlink (s : State) (k : Nat) (v : Nat) : (applyUpd (.fsyOmit k v) s).xlink = s.xlink := rfl
@[simp] theorem fsyOmit_upd_trace (s : State) (k : Nat) (v : Nat) : (applyUpd (.fsyOmit k v) s).trace = s.trace := rfl
@[simp] theorem fsyOmit_upd_progs (s : State) (k : Nat) (v : Nat) : (applyUpd (.fsyOmit k v) s).progs = s.progs := rfl
@[simp] theorem fsyOmit_upd_rails (s : State) (k : Nat) (v : Nat) : (applyUpd (.fsyOmit k v) s).rails = s.rails := rfl
@[simp] theorem fsyOmit_upd_thm (s : State) (k : Nat) (v : Nat) : (applyUpd (.fsyOmit k v) s).thm = s.thm := rfl
@[simp] theorem fsyOmit_upd_bnd (s : State) (k : Nat) (v : Nat) : (applyUpd (.fsyOmit k v) s).bnd = s.bnd := rfl
@[simp] theorem fsyOmit_upd_thmTrip (s : State) (k : Nat) (v : Nat) : (applyUpd (.fsyOmit k v) s).thmTrip = s.thmTrip := rfl
@[simp] theorem fsyOmit_upd_flash (s : State) (k : Nat) (v : Nat) : (applyUpd (.fsyOmit k v) s).flash = s.flash := rfl
@[simp] theorem fsyOmit_upd_slots (s : State) (k : Nat) (v : Nat) : (applyUpd (.fsyOmit k v) s).slots = s.slots := rfl
@[simp] theorem fsyOmit_upd_stores (s : State) (k : Nat) (v : Nat) : (applyUpd (.fsyOmit k v) s).stores = s.stores := rfl
@[simp] theorem fsyOmit_upd_ids (s : State) (k : Nat) (v : Nat) : (applyUpd (.fsyOmit k v) s).ids = s.ids := rfl
@[simp] theorem fsyOmit_upd_boot (s : State) (k : Nat) (v : Nat) : (applyUpd (.fsyOmit k v) s).boot = s.boot := rfl
@[simp] theorem fsyOmit_upd_load (s : State) (k : Nat) (v : Nat) : (applyUpd (.fsyOmit k v) s).load = s.load := rfl
@[simp] theorem fsyOmit_upd_flt (s : State) (k : Nat) (v : Nat) : (applyUpd (.fsyOmit k v) s).flt = s.flt := rfl
@[simp] theorem fsyOmit_upd_mon (s : State) (k : Nat) (v : Nat) : (applyUpd (.fsyOmit k v) s).mon = s.mon := rfl
@[simp] theorem fsyPulsed_upd_pending (s : State) (k : Nat) (v : Nat) : (applyUpd (.fsyPulsed k v) s).pending = s.pending := rfl
@[simp] theorem fsyPulsed_upd_regs (s : State) (k : Nat) (v : Nat) : (applyUpd (.fsyPulsed k v) s).regs = s.regs := rfl
@[simp] theorem fsyPulsed_upd_mem (s : State) (k : Nat) (v : Nat) : (applyUpd (.fsyPulsed k v) s).mem = s.mem := rfl
@[simp] theorem fsyPulsed_upd_sram (s : State) (k : Nat) (v : Nat) : (applyUpd (.fsyPulsed k v) s).sram = s.sram := rfl
@[simp] theorem fsyPulsed_upd_time (s : State) (k : Nat) (v : Nat) : (applyUpd (.fsyPulsed k v) s).time = s.time := rfl
@[simp] theorem fsyPulsed_upd_timeFrac (s : State) (k : Nat) (v : Nat) : (applyUpd (.fsyPulsed k v) s).timeFrac = s.timeFrac := rfl
@[simp] theorem fsyPulsed_upd_freeCtr (s : State) (k : Nat) (v : Nat) : (applyUpd (.fsyPulsed k v) s).freeCtr = s.freeCtr := rfl
@[simp] theorem fsyPulsed_upd_hiLatch (s : State) (k : Nat) (v : Nat) : (applyUpd (.fsyPulsed k v) s).hiLatch = s.hiLatch := rfl
@[simp] theorem fsyPulsed_upd_timeSet (s : State) (k : Nat) (v : Nat) : (applyUpd (.fsyPulsed k v) s).timeSet = s.timeSet := rfl
@[simp] theorem fsyPulsed_upd_n0 (s : State) (k : Nat) (v : Nat) : (applyUpd (.fsyPulsed k v) s).n0 = s.n0 := rfl
@[simp] theorem fsyPulsed_upd_ticked (s : State) (k : Nat) (v : Nat) : (applyUpd (.fsyPulsed k v) s).ticked = s.ticked := rfl
@[simp] theorem fsyPulsed_upd_peerTickAt (s : State) (k : Nat) (v : Nat) : (applyUpd (.fsyPulsed k v) s).peerTickAt = s.peerTickAt := rfl
@[simp] theorem fsyPulsed_upd_guardPitch (s : State) (k : Nat) (v : Nat) : (applyUpd (.fsyPulsed k v) s).guardPitch = s.guardPitch := rfl
@[simp] theorem fsyPulsed_upd_diePitch (s : State) (k : Nat) (v : Nat) : (applyUpd (.fsyPulsed k v) s).diePitch = s.diePitch := rfl
@[simp] theorem fsyPulsed_upd_resps (s : State) (k : Nat) (v : Nat) : (applyUpd (.fsyPulsed k v) s).resps = s.resps := rfl
@[simp] theorem fsyPulsed_upd_txns (s : State) (k : Nat) (v : Nat) : (applyUpd (.fsyPulsed k v) s).txns = s.txns := rfl
@[simp] theorem fsyPulsed_upd_nextTag (s : State) (k : Nat) (v : Nat) : (applyUpd (.fsyPulsed k v) s).nextTag = s.nextTag := rfl
@[simp] theorem fsyPulsed_upd_lateTags (s : State) (k : Nat) (v : Nat) : (applyUpd (.fsyPulsed k v) s).lateTags = s.lateTags := rfl
@[simp] theorem fsyPulsed_upd_ports (s : State) (k : Nat) (v : Nat) : (applyUpd (.fsyPulsed k v) s).ports = s.ports := rfl
@[simp] theorem fsyPulsed_upd_threads (s : State) (k : Nat) (v : Nat) : (applyUpd (.fsyPulsed k v) s).threads = s.threads := rfl
@[simp] theorem fsyPulsed_upd_cores (s : State) (k : Nat) (v : Nat) : (applyUpd (.fsyPulsed k v) s).cores = s.cores := rfl
@[simp] theorem fsyPulsed_upd_engines (s : State) (k : Nat) (v : Nat) : (applyUpd (.fsyPulsed k v) s).engines = s.engines := rfl
@[simp] theorem fsyPulsed_upd_held (s : State) (k : Nat) (v : Nat) : (applyUpd (.fsyPulsed k v) s).held = s.held := rfl
@[simp] theorem fsyPulsed_upd_watches (s : State) (k : Nat) (v : Nat) : (applyUpd (.fsyPulsed k v) s).watches = s.watches := rfl
@[simp] theorem fsyPulsed_upd_watchMsgs (s : State) (k : Nat) (v : Nat) : (applyUpd (.fsyPulsed k v) s).watchMsgs = s.watchMsgs := rfl
@[simp] theorem fsyPulsed_upd_bankHeld (s : State) (k : Nat) (v : Nat) : (applyUpd (.fsyPulsed k v) s).bankHeld = s.bankHeld := rfl
@[simp] theorem fsyPulsed_upd_bankTarget (s : State) (k : Nat) (v : Nat) : (applyUpd (.fsyPulsed k v) s).bankTarget = s.bankTarget := rfl
@[simp] theorem fsyPulsed_upd_ecc (s : State) (k : Nat) (v : Nat) : (applyUpd (.fsyPulsed k v) s).ecc = s.ecc := rfl
@[simp] theorem fsyPulsed_upd_lineEcc (s : State) (k : Nat) (v : Nat) : (applyUpd (.fsyPulsed k v) s).lineEcc = s.lineEcc := rfl
@[simp] theorem fsyPulsed_upd_wbPending (s : State) (k : Nat) (v : Nat) : (applyUpd (.fsyPulsed k v) s).wbPending = s.wbPending := rfl
@[simp] theorem fsyPulsed_upd_scrubPos (s : State) (k : Nat) (v : Nat) : (applyUpd (.fsyPulsed k v) s).scrubPos = s.scrubPos := rfl
@[simp] theorem fsyPulsed_upd_refusals (s : State) (k : Nat) (v : Nat) : (applyUpd (.fsyPulsed k v) s).refusals = s.refusals := rfl
@[simp] theorem fsyPulsed_upd_firstRefusal (s : State) (k : Nat) (v : Nat) : (applyUpd (.fsyPulsed k v) s).firstRefusal = s.firstRefusal := rfl
@[simp] theorem fsyPulsed_upd_boxQueue (s : State) (k : Nat) (v : Nat) : (applyUpd (.fsyPulsed k v) s).boxQueue = s.boxQueue := rfl
@[simp] theorem fsyPulsed_upd_boxRun (s : State) (k : Nat) (v : Nat) : (applyUpd (.fsyPulsed k v) s).boxRun = s.boxRun := rfl
@[simp] theorem fsyPulsed_upd_kvs (s : State) (k : Nat) (v : Nat) : (applyUpd (.fsyPulsed k v) s).kvs = s.kvs := rfl
@[simp] theorem fsyPulsed_upd_parts (s : State) (k : Nat) (v : Nat) : (applyUpd (.fsyPulsed k v) s).parts = s.parts := rfl
@[simp] theorem fsyPulsed_upd_dmas (s : State) (k : Nat) (v : Nat) : (applyUpd (.fsyPulsed k v) s).dmas = s.dmas := rfl
@[simp] theorem fsyPulsed_upd_regReqs (s : State) (k : Nat) (v : Nat) : (applyUpd (.fsyPulsed k v) s).regReqs = s.regReqs := rfl
@[simp] theorem fsyPulsed_upd_regPorts (s : State) (k : Nat) (v : Nat) : (applyUpd (.fsyPulsed k v) s).regPorts = s.regPorts := rfl
@[simp] theorem fsyPulsed_upd_subchs (s : State) (k : Nat) (v : Nat) : (applyUpd (.fsyPulsed k v) s).subchs = s.subchs := rfl
@[simp] theorem fsyPulsed_upd_trackers (s : State) (k : Nat) (v : Nat) : (applyUpd (.fsyPulsed k v) s).trackers = s.trackers := rfl
@[simp] theorem fsyPulsed_upd_throttles (s : State) (k : Nat) (v : Nat) : (applyUpd (.fsyPulsed k v) s).throttles = s.throttles := rfl
@[simp] theorem fsyPulsed_upd_errRing (s : State) (k : Nat) (v : Nat) : (applyUpd (.fsyPulsed k v) s).errRing = s.errRing := rfl
@[simp] theorem fsyPulsed_upd_errRingOvf (s : State) (k : Nat) (v : Nat) : (applyUpd (.fsyPulsed k v) s).errRingOvf = s.errRingOvf := rfl
@[simp] theorem fsyPulsed_upd_patrolLine (s : State) (k : Nat) (v : Nat) : (applyUpd (.fsyPulsed k v) s).patrolLine = s.patrolLine := rfl
@[simp] theorem fsyPulsed_upd_retTimes (s : State) (k : Nat) (v : Nat) : (applyUpd (.fsyPulsed k v) s).retTimes = s.retTimes := rfl
@[simp] theorem fsyPulsed_upd_retired (s : State) (k : Nat) (v : Nat) : (applyUpd (.fsyPulsed k v) s).retired = s.retired := rfl
@[simp] theorem fsyPulsed_upd_dramSeq (s : State) (k : Nat) (v : Nat) : (applyUpd (.fsyPulsed k v) s).dramSeq = s.dramSeq := rfl
@[simp] theorem fsyPulsed_upd_trn (s : State) (k : Nat) (v : Nat) : (applyUpd (.fsyPulsed k v) s).trn = s.trn := rfl
@[simp] theorem fsyPulsed_upd_dqsAdj (s : State) (k : Nat) (v : Nat) : (applyUpd (.fsyPulsed k v) s).dqsAdj = s.dqsAdj := rfl
@[simp] theorem fsyPulsed_upd_dpol (s : State) (k : Nat) (v : Nat) : (applyUpd (.fsyPulsed k v) s).dpol = s.dpol := rfl
@[simp] theorem fsyPulsed_upd_idleAt (s : State) (k : Nat) (v : Nat) : (applyUpd (.fsyPulsed k v) s).idleAt = s.idleAt := rfl
@[simp] theorem fsyPulsed_upd_fitted (s : State) (k : Nat) (v : Nat) : (applyUpd (.fsyPulsed k v) s).fitted = s.fitted := rfl
@[simp] theorem fsyPulsed_upd_faultMsgs (s : State) (k : Nat) (v : Nat) : (applyUpd (.fsyPulsed k v) s).faultMsgs = s.faultMsgs := rfl
@[simp] theorem fsyPulsed_upd_out (s : State) (k : Nat) (v : Nat) : (applyUpd (.fsyPulsed k v) s).out = s.out := rfl
@[simp] theorem fsyPulsed_upd_lastRead (s : State) (k : Nat) (v : Nat) : (applyUpd (.fsyPulsed k v) s).lastRead = s.lastRead := rfl
@[simp] theorem fsyPulsed_upd_fwd (s : State) (k : Nat) (v : Nat) : (applyUpd (.fsyPulsed k v) s).fwd = s.fwd := rfl
@[simp] theorem fsyPulsed_upd_ethTx (s : State) (k : Nat) (v : Nat) : (applyUpd (.fsyPulsed k v) s).ethTx = s.ethTx := rfl
@[simp] theorem fsyPulsed_upd_ethHeadAt (s : State) (k : Nat) (v : Nat) : (applyUpd (.fsyPulsed k v) s).ethHeadAt = s.ethHeadAt := rfl
@[simp] theorem fsyPulsed_upd_canTx (s : State) (k : Nat) (v : Nat) : (applyUpd (.fsyPulsed k v) s).canTx = s.canTx := rfl
@[simp] theorem fsyPulsed_upd_pcieOut (s : State) (k : Nat) (v : Nat) : (applyUpd (.fsyPulsed k v) s).pcieOut = s.pcieOut := rfl
@[simp] theorem fsyPulsed_upd_pcieCfgRd (s : State) (k : Nat) (v : Nat) : (applyUpd (.fsyPulsed k v) s).pcieCfgRd = s.pcieCfgRd := rfl
@[simp] theorem fsyPulsed_upd_msix (s : State) (k : Nat) (v : Nat) : (applyUpd (.fsyPulsed k v) s).msix = s.msix := rfl
@[simp] theorem fsyPulsed_upd_ancs (s : State) (k : Nat) (v : Nat) : (applyUpd (.fsyPulsed k v) s).ancs = s.ancs := rfl
@[simp] theorem fsyPulsed_upd_trajArea (s : State) (k : Nat) (v : Nat) : (applyUpd (.fsyPulsed k v) s).trajArea = s.trajArea := rfl
@[simp] theorem fsyPulsed_upd_lidarIn (s : State) (k : Nat) (v : Nat) : (applyUpd (.fsyPulsed k v) s).lidarIn = s.lidarIn := rfl
@[simp] theorem fsyPulsed_upd_wheelIn (s : State) (k : Nat) (v : Nat) : (applyUpd (.fsyPulsed k v) s).wheelIn = s.wheelIn := rfl
@[simp] theorem fsyPulsed_upd_spiStepBusy (s : State) (k : Nat) (v : Nat) : (applyUpd (.fsyPulsed k v) s).spiStepBusy = s.spiStepBusy := rfl
@[simp] theorem fsyPulsed_upd_spiRec (s : State) (k : Nat) (v : Nat) : (applyUpd (.fsyPulsed k v) s).spiRec = s.spiRec := rfl
@[simp] theorem fsyPulsed_upd_spiStepCfg (s : State) (k : Nat) (v : Nat) : (applyUpd (.fsyPulsed k v) s).spiStepCfg = s.spiStepCfg := rfl
@[simp] theorem fsyPulsed_upd_ctxs (s : State) (k : Nat) (v : Nat) : (applyUpd (.fsyPulsed k v) s).ctxs = s.ctxs := rfl
@[simp] theorem fsyPulsed_upd_fsyOmit (s : State) (k : Nat) (v : Nat) : (applyUpd (.fsyPulsed k v) s).fsyOmit = s.fsyOmit := rfl
@[simp] theorem fsyPulsed_upd_fsyPulsed (s : State) (k : Nat) (v : Nat) : (applyUpd (.fsyPulsed k v) s).fsyPulsed = tabSet zeroNat s.fsyPulsed k v := rfl
@[simp] theorem fsyPulsed_upd_supTasks (s : State) (k : Nat) (v : Nat) : (applyUpd (.fsyPulsed k v) s).supTasks = s.supTasks := rfl
@[simp] theorem fsyPulsed_upd_fus (s : State) (k : Nat) (v : Nat) : (applyUpd (.fsyPulsed k v) s).fus = s.fus := rfl
@[simp] theorem fsyPulsed_upd_fcons (s : State) (k : Nat) (v : Nat) : (applyUpd (.fsyPulsed k v) s).fcons = s.fcons := rfl
@[simp] theorem fsyPulsed_upd_shadow (s : State) (k : Nat) (v : Nat) : (applyUpd (.fsyPulsed k v) s).shadow = s.shadow := rfl
@[simp] theorem fsyPulsed_upd_trv (s : State) (k : Nat) (v : Nat) : (applyUpd (.fsyPulsed k v) s).trv = s.trv := rfl
@[simp] theorem fsyPulsed_upd_tlayers (s : State) (k : Nat) (v : Nat) : (applyUpd (.fsyPulsed k v) s).tlayers = s.tlayers := rfl
@[simp] theorem fsyPulsed_upd_jobFaults (s : State) (k : Nat) (v : Nat) : (applyUpd (.fsyPulsed k v) s).jobFaults = s.jobFaults := rfl
@[simp] theorem fsyPulsed_upd_unitLast (s : State) (k : Nat) (v : Nat) : (applyUpd (.fsyPulsed k v) s).unitLast = s.unitLast := rfl
@[simp] theorem fsyPulsed_upd_unitRst (s : State) (k : Nat) (v : Nat) : (applyUpd (.fsyPulsed k v) s).unitRst = s.unitRst := rfl
@[simp] theorem fsyPulsed_upd_xlink (s : State) (k : Nat) (v : Nat) : (applyUpd (.fsyPulsed k v) s).xlink = s.xlink := rfl
@[simp] theorem fsyPulsed_upd_trace (s : State) (k : Nat) (v : Nat) : (applyUpd (.fsyPulsed k v) s).trace = s.trace := rfl
@[simp] theorem fsyPulsed_upd_progs (s : State) (k : Nat) (v : Nat) : (applyUpd (.fsyPulsed k v) s).progs = s.progs := rfl
@[simp] theorem fsyPulsed_upd_rails (s : State) (k : Nat) (v : Nat) : (applyUpd (.fsyPulsed k v) s).rails = s.rails := rfl
@[simp] theorem fsyPulsed_upd_thm (s : State) (k : Nat) (v : Nat) : (applyUpd (.fsyPulsed k v) s).thm = s.thm := rfl
@[simp] theorem fsyPulsed_upd_bnd (s : State) (k : Nat) (v : Nat) : (applyUpd (.fsyPulsed k v) s).bnd = s.bnd := rfl
@[simp] theorem fsyPulsed_upd_thmTrip (s : State) (k : Nat) (v : Nat) : (applyUpd (.fsyPulsed k v) s).thmTrip = s.thmTrip := rfl
@[simp] theorem fsyPulsed_upd_flash (s : State) (k : Nat) (v : Nat) : (applyUpd (.fsyPulsed k v) s).flash = s.flash := rfl
@[simp] theorem fsyPulsed_upd_slots (s : State) (k : Nat) (v : Nat) : (applyUpd (.fsyPulsed k v) s).slots = s.slots := rfl
@[simp] theorem fsyPulsed_upd_stores (s : State) (k : Nat) (v : Nat) : (applyUpd (.fsyPulsed k v) s).stores = s.stores := rfl
@[simp] theorem fsyPulsed_upd_ids (s : State) (k : Nat) (v : Nat) : (applyUpd (.fsyPulsed k v) s).ids = s.ids := rfl
@[simp] theorem fsyPulsed_upd_boot (s : State) (k : Nat) (v : Nat) : (applyUpd (.fsyPulsed k v) s).boot = s.boot := rfl
@[simp] theorem fsyPulsed_upd_load (s : State) (k : Nat) (v : Nat) : (applyUpd (.fsyPulsed k v) s).load = s.load := rfl
@[simp] theorem fsyPulsed_upd_flt (s : State) (k : Nat) (v : Nat) : (applyUpd (.fsyPulsed k v) s).flt = s.flt := rfl
@[simp] theorem fsyPulsed_upd_mon (s : State) (k : Nat) (v : Nat) : (applyUpd (.fsyPulsed k v) s).mon = s.mon := rfl
@[simp] theorem supTasks_upd_pending (s : State) (v : List TaskEnt) : (applyUpd (.supTasks v) s).pending = s.pending := rfl
@[simp] theorem supTasks_upd_regs (s : State) (v : List TaskEnt) : (applyUpd (.supTasks v) s).regs = s.regs := rfl
@[simp] theorem supTasks_upd_mem (s : State) (v : List TaskEnt) : (applyUpd (.supTasks v) s).mem = s.mem := rfl
@[simp] theorem supTasks_upd_sram (s : State) (v : List TaskEnt) : (applyUpd (.supTasks v) s).sram = s.sram := rfl
@[simp] theorem supTasks_upd_time (s : State) (v : List TaskEnt) : (applyUpd (.supTasks v) s).time = s.time := rfl
@[simp] theorem supTasks_upd_timeFrac (s : State) (v : List TaskEnt) : (applyUpd (.supTasks v) s).timeFrac = s.timeFrac := rfl
@[simp] theorem supTasks_upd_freeCtr (s : State) (v : List TaskEnt) : (applyUpd (.supTasks v) s).freeCtr = s.freeCtr := rfl
@[simp] theorem supTasks_upd_hiLatch (s : State) (v : List TaskEnt) : (applyUpd (.supTasks v) s).hiLatch = s.hiLatch := rfl
@[simp] theorem supTasks_upd_timeSet (s : State) (v : List TaskEnt) : (applyUpd (.supTasks v) s).timeSet = s.timeSet := rfl
@[simp] theorem supTasks_upd_n0 (s : State) (v : List TaskEnt) : (applyUpd (.supTasks v) s).n0 = s.n0 := rfl
@[simp] theorem supTasks_upd_ticked (s : State) (v : List TaskEnt) : (applyUpd (.supTasks v) s).ticked = s.ticked := rfl
@[simp] theorem supTasks_upd_peerTickAt (s : State) (v : List TaskEnt) : (applyUpd (.supTasks v) s).peerTickAt = s.peerTickAt := rfl
@[simp] theorem supTasks_upd_guardPitch (s : State) (v : List TaskEnt) : (applyUpd (.supTasks v) s).guardPitch = s.guardPitch := rfl
@[simp] theorem supTasks_upd_diePitch (s : State) (v : List TaskEnt) : (applyUpd (.supTasks v) s).diePitch = s.diePitch := rfl
@[simp] theorem supTasks_upd_resps (s : State) (v : List TaskEnt) : (applyUpd (.supTasks v) s).resps = s.resps := rfl
@[simp] theorem supTasks_upd_txns (s : State) (v : List TaskEnt) : (applyUpd (.supTasks v) s).txns = s.txns := rfl
@[simp] theorem supTasks_upd_nextTag (s : State) (v : List TaskEnt) : (applyUpd (.supTasks v) s).nextTag = s.nextTag := rfl
@[simp] theorem supTasks_upd_lateTags (s : State) (v : List TaskEnt) : (applyUpd (.supTasks v) s).lateTags = s.lateTags := rfl
@[simp] theorem supTasks_upd_ports (s : State) (v : List TaskEnt) : (applyUpd (.supTasks v) s).ports = s.ports := rfl
@[simp] theorem supTasks_upd_threads (s : State) (v : List TaskEnt) : (applyUpd (.supTasks v) s).threads = s.threads := rfl
@[simp] theorem supTasks_upd_cores (s : State) (v : List TaskEnt) : (applyUpd (.supTasks v) s).cores = s.cores := rfl
@[simp] theorem supTasks_upd_engines (s : State) (v : List TaskEnt) : (applyUpd (.supTasks v) s).engines = s.engines := rfl
@[simp] theorem supTasks_upd_held (s : State) (v : List TaskEnt) : (applyUpd (.supTasks v) s).held = s.held := rfl
@[simp] theorem supTasks_upd_watches (s : State) (v : List TaskEnt) : (applyUpd (.supTasks v) s).watches = s.watches := rfl
@[simp] theorem supTasks_upd_watchMsgs (s : State) (v : List TaskEnt) : (applyUpd (.supTasks v) s).watchMsgs = s.watchMsgs := rfl
@[simp] theorem supTasks_upd_bankHeld (s : State) (v : List TaskEnt) : (applyUpd (.supTasks v) s).bankHeld = s.bankHeld := rfl
@[simp] theorem supTasks_upd_bankTarget (s : State) (v : List TaskEnt) : (applyUpd (.supTasks v) s).bankTarget = s.bankTarget := rfl
@[simp] theorem supTasks_upd_ecc (s : State) (v : List TaskEnt) : (applyUpd (.supTasks v) s).ecc = s.ecc := rfl
@[simp] theorem supTasks_upd_lineEcc (s : State) (v : List TaskEnt) : (applyUpd (.supTasks v) s).lineEcc = s.lineEcc := rfl
@[simp] theorem supTasks_upd_wbPending (s : State) (v : List TaskEnt) : (applyUpd (.supTasks v) s).wbPending = s.wbPending := rfl
@[simp] theorem supTasks_upd_scrubPos (s : State) (v : List TaskEnt) : (applyUpd (.supTasks v) s).scrubPos = s.scrubPos := rfl
@[simp] theorem supTasks_upd_refusals (s : State) (v : List TaskEnt) : (applyUpd (.supTasks v) s).refusals = s.refusals := rfl
@[simp] theorem supTasks_upd_firstRefusal (s : State) (v : List TaskEnt) : (applyUpd (.supTasks v) s).firstRefusal = s.firstRefusal := rfl
@[simp] theorem supTasks_upd_boxQueue (s : State) (v : List TaskEnt) : (applyUpd (.supTasks v) s).boxQueue = s.boxQueue := rfl
@[simp] theorem supTasks_upd_boxRun (s : State) (v : List TaskEnt) : (applyUpd (.supTasks v) s).boxRun = s.boxRun := rfl
@[simp] theorem supTasks_upd_kvs (s : State) (v : List TaskEnt) : (applyUpd (.supTasks v) s).kvs = s.kvs := rfl
@[simp] theorem supTasks_upd_parts (s : State) (v : List TaskEnt) : (applyUpd (.supTasks v) s).parts = s.parts := rfl
@[simp] theorem supTasks_upd_dmas (s : State) (v : List TaskEnt) : (applyUpd (.supTasks v) s).dmas = s.dmas := rfl
@[simp] theorem supTasks_upd_regReqs (s : State) (v : List TaskEnt) : (applyUpd (.supTasks v) s).regReqs = s.regReqs := rfl
@[simp] theorem supTasks_upd_regPorts (s : State) (v : List TaskEnt) : (applyUpd (.supTasks v) s).regPorts = s.regPorts := rfl
@[simp] theorem supTasks_upd_subchs (s : State) (v : List TaskEnt) : (applyUpd (.supTasks v) s).subchs = s.subchs := rfl
@[simp] theorem supTasks_upd_trackers (s : State) (v : List TaskEnt) : (applyUpd (.supTasks v) s).trackers = s.trackers := rfl
@[simp] theorem supTasks_upd_throttles (s : State) (v : List TaskEnt) : (applyUpd (.supTasks v) s).throttles = s.throttles := rfl
@[simp] theorem supTasks_upd_errRing (s : State) (v : List TaskEnt) : (applyUpd (.supTasks v) s).errRing = s.errRing := rfl
@[simp] theorem supTasks_upd_errRingOvf (s : State) (v : List TaskEnt) : (applyUpd (.supTasks v) s).errRingOvf = s.errRingOvf := rfl
@[simp] theorem supTasks_upd_patrolLine (s : State) (v : List TaskEnt) : (applyUpd (.supTasks v) s).patrolLine = s.patrolLine := rfl
@[simp] theorem supTasks_upd_retTimes (s : State) (v : List TaskEnt) : (applyUpd (.supTasks v) s).retTimes = s.retTimes := rfl
@[simp] theorem supTasks_upd_retired (s : State) (v : List TaskEnt) : (applyUpd (.supTasks v) s).retired = s.retired := rfl
@[simp] theorem supTasks_upd_dramSeq (s : State) (v : List TaskEnt) : (applyUpd (.supTasks v) s).dramSeq = s.dramSeq := rfl
@[simp] theorem supTasks_upd_trn (s : State) (v : List TaskEnt) : (applyUpd (.supTasks v) s).trn = s.trn := rfl
@[simp] theorem supTasks_upd_dqsAdj (s : State) (v : List TaskEnt) : (applyUpd (.supTasks v) s).dqsAdj = s.dqsAdj := rfl
@[simp] theorem supTasks_upd_dpol (s : State) (v : List TaskEnt) : (applyUpd (.supTasks v) s).dpol = s.dpol := rfl
@[simp] theorem supTasks_upd_idleAt (s : State) (v : List TaskEnt) : (applyUpd (.supTasks v) s).idleAt = s.idleAt := rfl
@[simp] theorem supTasks_upd_fitted (s : State) (v : List TaskEnt) : (applyUpd (.supTasks v) s).fitted = s.fitted := rfl
@[simp] theorem supTasks_upd_faultMsgs (s : State) (v : List TaskEnt) : (applyUpd (.supTasks v) s).faultMsgs = s.faultMsgs := rfl
@[simp] theorem supTasks_upd_out (s : State) (v : List TaskEnt) : (applyUpd (.supTasks v) s).out = s.out := rfl
@[simp] theorem supTasks_upd_lastRead (s : State) (v : List TaskEnt) : (applyUpd (.supTasks v) s).lastRead = s.lastRead := rfl
@[simp] theorem supTasks_upd_fwd (s : State) (v : List TaskEnt) : (applyUpd (.supTasks v) s).fwd = s.fwd := rfl
@[simp] theorem supTasks_upd_ethTx (s : State) (v : List TaskEnt) : (applyUpd (.supTasks v) s).ethTx = s.ethTx := rfl
@[simp] theorem supTasks_upd_ethHeadAt (s : State) (v : List TaskEnt) : (applyUpd (.supTasks v) s).ethHeadAt = s.ethHeadAt := rfl
@[simp] theorem supTasks_upd_canTx (s : State) (v : List TaskEnt) : (applyUpd (.supTasks v) s).canTx = s.canTx := rfl
@[simp] theorem supTasks_upd_pcieOut (s : State) (v : List TaskEnt) : (applyUpd (.supTasks v) s).pcieOut = s.pcieOut := rfl
@[simp] theorem supTasks_upd_pcieCfgRd (s : State) (v : List TaskEnt) : (applyUpd (.supTasks v) s).pcieCfgRd = s.pcieCfgRd := rfl
@[simp] theorem supTasks_upd_msix (s : State) (v : List TaskEnt) : (applyUpd (.supTasks v) s).msix = s.msix := rfl
@[simp] theorem supTasks_upd_ancs (s : State) (v : List TaskEnt) : (applyUpd (.supTasks v) s).ancs = s.ancs := rfl
@[simp] theorem supTasks_upd_trajArea (s : State) (v : List TaskEnt) : (applyUpd (.supTasks v) s).trajArea = s.trajArea := rfl
@[simp] theorem supTasks_upd_lidarIn (s : State) (v : List TaskEnt) : (applyUpd (.supTasks v) s).lidarIn = s.lidarIn := rfl
@[simp] theorem supTasks_upd_wheelIn (s : State) (v : List TaskEnt) : (applyUpd (.supTasks v) s).wheelIn = s.wheelIn := rfl
@[simp] theorem supTasks_upd_spiStepBusy (s : State) (v : List TaskEnt) : (applyUpd (.supTasks v) s).spiStepBusy = s.spiStepBusy := rfl
@[simp] theorem supTasks_upd_spiRec (s : State) (v : List TaskEnt) : (applyUpd (.supTasks v) s).spiRec = s.spiRec := rfl
@[simp] theorem supTasks_upd_spiStepCfg (s : State) (v : List TaskEnt) : (applyUpd (.supTasks v) s).spiStepCfg = s.spiStepCfg := rfl
@[simp] theorem supTasks_upd_ctxs (s : State) (v : List TaskEnt) : (applyUpd (.supTasks v) s).ctxs = s.ctxs := rfl
@[simp] theorem supTasks_upd_fsyOmit (s : State) (v : List TaskEnt) : (applyUpd (.supTasks v) s).fsyOmit = s.fsyOmit := rfl
@[simp] theorem supTasks_upd_fsyPulsed (s : State) (v : List TaskEnt) : (applyUpd (.supTasks v) s).fsyPulsed = s.fsyPulsed := rfl
@[simp] theorem supTasks_upd_supTasks (s : State) (v : List TaskEnt) : (applyUpd (.supTasks v) s).supTasks = v := rfl
@[simp] theorem supTasks_upd_fus (s : State) (v : List TaskEnt) : (applyUpd (.supTasks v) s).fus = s.fus := rfl
@[simp] theorem supTasks_upd_fcons (s : State) (v : List TaskEnt) : (applyUpd (.supTasks v) s).fcons = s.fcons := rfl
@[simp] theorem supTasks_upd_shadow (s : State) (v : List TaskEnt) : (applyUpd (.supTasks v) s).shadow = s.shadow := rfl
@[simp] theorem supTasks_upd_trv (s : State) (v : List TaskEnt) : (applyUpd (.supTasks v) s).trv = s.trv := rfl
@[simp] theorem supTasks_upd_tlayers (s : State) (v : List TaskEnt) : (applyUpd (.supTasks v) s).tlayers = s.tlayers := rfl
@[simp] theorem supTasks_upd_jobFaults (s : State) (v : List TaskEnt) : (applyUpd (.supTasks v) s).jobFaults = s.jobFaults := rfl
@[simp] theorem supTasks_upd_unitLast (s : State) (v : List TaskEnt) : (applyUpd (.supTasks v) s).unitLast = s.unitLast := rfl
@[simp] theorem supTasks_upd_unitRst (s : State) (v : List TaskEnt) : (applyUpd (.supTasks v) s).unitRst = s.unitRst := rfl
@[simp] theorem supTasks_upd_xlink (s : State) (v : List TaskEnt) : (applyUpd (.supTasks v) s).xlink = s.xlink := rfl
@[simp] theorem supTasks_upd_trace (s : State) (v : List TaskEnt) : (applyUpd (.supTasks v) s).trace = s.trace := rfl
@[simp] theorem supTasks_upd_progs (s : State) (v : List TaskEnt) : (applyUpd (.supTasks v) s).progs = s.progs := rfl
@[simp] theorem supTasks_upd_rails (s : State) (v : List TaskEnt) : (applyUpd (.supTasks v) s).rails = s.rails := rfl
@[simp] theorem supTasks_upd_thm (s : State) (v : List TaskEnt) : (applyUpd (.supTasks v) s).thm = s.thm := rfl
@[simp] theorem supTasks_upd_bnd (s : State) (v : List TaskEnt) : (applyUpd (.supTasks v) s).bnd = s.bnd := rfl
@[simp] theorem supTasks_upd_thmTrip (s : State) (v : List TaskEnt) : (applyUpd (.supTasks v) s).thmTrip = s.thmTrip := rfl
@[simp] theorem supTasks_upd_flash (s : State) (v : List TaskEnt) : (applyUpd (.supTasks v) s).flash = s.flash := rfl
@[simp] theorem supTasks_upd_slots (s : State) (v : List TaskEnt) : (applyUpd (.supTasks v) s).slots = s.slots := rfl
@[simp] theorem supTasks_upd_stores (s : State) (v : List TaskEnt) : (applyUpd (.supTasks v) s).stores = s.stores := rfl
@[simp] theorem supTasks_upd_ids (s : State) (v : List TaskEnt) : (applyUpd (.supTasks v) s).ids = s.ids := rfl
@[simp] theorem supTasks_upd_boot (s : State) (v : List TaskEnt) : (applyUpd (.supTasks v) s).boot = s.boot := rfl
@[simp] theorem supTasks_upd_load (s : State) (v : List TaskEnt) : (applyUpd (.supTasks v) s).load = s.load := rfl
@[simp] theorem supTasks_upd_flt (s : State) (v : List TaskEnt) : (applyUpd (.supTasks v) s).flt = s.flt := rfl
@[simp] theorem supTasks_upd_mon (s : State) (v : List TaskEnt) : (applyUpd (.supTasks v) s).mon = s.mon := rfl
@[simp] theorem fus_upd_pending (s : State) (v : Fus) : (applyUpd (.fus v) s).pending = s.pending := rfl
@[simp] theorem fus_upd_regs (s : State) (v : Fus) : (applyUpd (.fus v) s).regs = s.regs := rfl
@[simp] theorem fus_upd_mem (s : State) (v : Fus) : (applyUpd (.fus v) s).mem = s.mem := rfl
@[simp] theorem fus_upd_sram (s : State) (v : Fus) : (applyUpd (.fus v) s).sram = s.sram := rfl
@[simp] theorem fus_upd_time (s : State) (v : Fus) : (applyUpd (.fus v) s).time = s.time := rfl
@[simp] theorem fus_upd_timeFrac (s : State) (v : Fus) : (applyUpd (.fus v) s).timeFrac = s.timeFrac := rfl
@[simp] theorem fus_upd_freeCtr (s : State) (v : Fus) : (applyUpd (.fus v) s).freeCtr = s.freeCtr := rfl
@[simp] theorem fus_upd_hiLatch (s : State) (v : Fus) : (applyUpd (.fus v) s).hiLatch = s.hiLatch := rfl
@[simp] theorem fus_upd_timeSet (s : State) (v : Fus) : (applyUpd (.fus v) s).timeSet = s.timeSet := rfl
@[simp] theorem fus_upd_n0 (s : State) (v : Fus) : (applyUpd (.fus v) s).n0 = s.n0 := rfl
@[simp] theorem fus_upd_ticked (s : State) (v : Fus) : (applyUpd (.fus v) s).ticked = s.ticked := rfl
@[simp] theorem fus_upd_peerTickAt (s : State) (v : Fus) : (applyUpd (.fus v) s).peerTickAt = s.peerTickAt := rfl
@[simp] theorem fus_upd_guardPitch (s : State) (v : Fus) : (applyUpd (.fus v) s).guardPitch = s.guardPitch := rfl
@[simp] theorem fus_upd_diePitch (s : State) (v : Fus) : (applyUpd (.fus v) s).diePitch = s.diePitch := rfl
@[simp] theorem fus_upd_resps (s : State) (v : Fus) : (applyUpd (.fus v) s).resps = s.resps := rfl
@[simp] theorem fus_upd_txns (s : State) (v : Fus) : (applyUpd (.fus v) s).txns = s.txns := rfl
@[simp] theorem fus_upd_nextTag (s : State) (v : Fus) : (applyUpd (.fus v) s).nextTag = s.nextTag := rfl
@[simp] theorem fus_upd_lateTags (s : State) (v : Fus) : (applyUpd (.fus v) s).lateTags = s.lateTags := rfl
@[simp] theorem fus_upd_ports (s : State) (v : Fus) : (applyUpd (.fus v) s).ports = s.ports := rfl
@[simp] theorem fus_upd_threads (s : State) (v : Fus) : (applyUpd (.fus v) s).threads = s.threads := rfl
@[simp] theorem fus_upd_cores (s : State) (v : Fus) : (applyUpd (.fus v) s).cores = s.cores := rfl
@[simp] theorem fus_upd_engines (s : State) (v : Fus) : (applyUpd (.fus v) s).engines = s.engines := rfl
@[simp] theorem fus_upd_held (s : State) (v : Fus) : (applyUpd (.fus v) s).held = s.held := rfl
@[simp] theorem fus_upd_watches (s : State) (v : Fus) : (applyUpd (.fus v) s).watches = s.watches := rfl
@[simp] theorem fus_upd_watchMsgs (s : State) (v : Fus) : (applyUpd (.fus v) s).watchMsgs = s.watchMsgs := rfl
@[simp] theorem fus_upd_bankHeld (s : State) (v : Fus) : (applyUpd (.fus v) s).bankHeld = s.bankHeld := rfl
@[simp] theorem fus_upd_bankTarget (s : State) (v : Fus) : (applyUpd (.fus v) s).bankTarget = s.bankTarget := rfl
@[simp] theorem fus_upd_ecc (s : State) (v : Fus) : (applyUpd (.fus v) s).ecc = s.ecc := rfl
@[simp] theorem fus_upd_lineEcc (s : State) (v : Fus) : (applyUpd (.fus v) s).lineEcc = s.lineEcc := rfl
@[simp] theorem fus_upd_wbPending (s : State) (v : Fus) : (applyUpd (.fus v) s).wbPending = s.wbPending := rfl
@[simp] theorem fus_upd_scrubPos (s : State) (v : Fus) : (applyUpd (.fus v) s).scrubPos = s.scrubPos := rfl
@[simp] theorem fus_upd_refusals (s : State) (v : Fus) : (applyUpd (.fus v) s).refusals = s.refusals := rfl
@[simp] theorem fus_upd_firstRefusal (s : State) (v : Fus) : (applyUpd (.fus v) s).firstRefusal = s.firstRefusal := rfl
@[simp] theorem fus_upd_boxQueue (s : State) (v : Fus) : (applyUpd (.fus v) s).boxQueue = s.boxQueue := rfl
@[simp] theorem fus_upd_boxRun (s : State) (v : Fus) : (applyUpd (.fus v) s).boxRun = s.boxRun := rfl
@[simp] theorem fus_upd_kvs (s : State) (v : Fus) : (applyUpd (.fus v) s).kvs = s.kvs := rfl
@[simp] theorem fus_upd_parts (s : State) (v : Fus) : (applyUpd (.fus v) s).parts = s.parts := rfl
@[simp] theorem fus_upd_dmas (s : State) (v : Fus) : (applyUpd (.fus v) s).dmas = s.dmas := rfl
@[simp] theorem fus_upd_regReqs (s : State) (v : Fus) : (applyUpd (.fus v) s).regReqs = s.regReqs := rfl
@[simp] theorem fus_upd_regPorts (s : State) (v : Fus) : (applyUpd (.fus v) s).regPorts = s.regPorts := rfl
@[simp] theorem fus_upd_subchs (s : State) (v : Fus) : (applyUpd (.fus v) s).subchs = s.subchs := rfl
@[simp] theorem fus_upd_trackers (s : State) (v : Fus) : (applyUpd (.fus v) s).trackers = s.trackers := rfl
@[simp] theorem fus_upd_throttles (s : State) (v : Fus) : (applyUpd (.fus v) s).throttles = s.throttles := rfl
@[simp] theorem fus_upd_errRing (s : State) (v : Fus) : (applyUpd (.fus v) s).errRing = s.errRing := rfl
@[simp] theorem fus_upd_errRingOvf (s : State) (v : Fus) : (applyUpd (.fus v) s).errRingOvf = s.errRingOvf := rfl
@[simp] theorem fus_upd_patrolLine (s : State) (v : Fus) : (applyUpd (.fus v) s).patrolLine = s.patrolLine := rfl
@[simp] theorem fus_upd_retTimes (s : State) (v : Fus) : (applyUpd (.fus v) s).retTimes = s.retTimes := rfl
@[simp] theorem fus_upd_retired (s : State) (v : Fus) : (applyUpd (.fus v) s).retired = s.retired := rfl
@[simp] theorem fus_upd_dramSeq (s : State) (v : Fus) : (applyUpd (.fus v) s).dramSeq = s.dramSeq := rfl
@[simp] theorem fus_upd_trn (s : State) (v : Fus) : (applyUpd (.fus v) s).trn = s.trn := rfl
@[simp] theorem fus_upd_dqsAdj (s : State) (v : Fus) : (applyUpd (.fus v) s).dqsAdj = s.dqsAdj := rfl
@[simp] theorem fus_upd_dpol (s : State) (v : Fus) : (applyUpd (.fus v) s).dpol = s.dpol := rfl
@[simp] theorem fus_upd_idleAt (s : State) (v : Fus) : (applyUpd (.fus v) s).idleAt = s.idleAt := rfl
@[simp] theorem fus_upd_fitted (s : State) (v : Fus) : (applyUpd (.fus v) s).fitted = s.fitted := rfl
@[simp] theorem fus_upd_faultMsgs (s : State) (v : Fus) : (applyUpd (.fus v) s).faultMsgs = s.faultMsgs := rfl
@[simp] theorem fus_upd_out (s : State) (v : Fus) : (applyUpd (.fus v) s).out = s.out := rfl
@[simp] theorem fus_upd_lastRead (s : State) (v : Fus) : (applyUpd (.fus v) s).lastRead = s.lastRead := rfl
@[simp] theorem fus_upd_fwd (s : State) (v : Fus) : (applyUpd (.fus v) s).fwd = s.fwd := rfl
@[simp] theorem fus_upd_ethTx (s : State) (v : Fus) : (applyUpd (.fus v) s).ethTx = s.ethTx := rfl
@[simp] theorem fus_upd_ethHeadAt (s : State) (v : Fus) : (applyUpd (.fus v) s).ethHeadAt = s.ethHeadAt := rfl
@[simp] theorem fus_upd_canTx (s : State) (v : Fus) : (applyUpd (.fus v) s).canTx = s.canTx := rfl
@[simp] theorem fus_upd_pcieOut (s : State) (v : Fus) : (applyUpd (.fus v) s).pcieOut = s.pcieOut := rfl
@[simp] theorem fus_upd_pcieCfgRd (s : State) (v : Fus) : (applyUpd (.fus v) s).pcieCfgRd = s.pcieCfgRd := rfl
@[simp] theorem fus_upd_msix (s : State) (v : Fus) : (applyUpd (.fus v) s).msix = s.msix := rfl
@[simp] theorem fus_upd_ancs (s : State) (v : Fus) : (applyUpd (.fus v) s).ancs = s.ancs := rfl
@[simp] theorem fus_upd_trajArea (s : State) (v : Fus) : (applyUpd (.fus v) s).trajArea = s.trajArea := rfl
@[simp] theorem fus_upd_lidarIn (s : State) (v : Fus) : (applyUpd (.fus v) s).lidarIn = s.lidarIn := rfl
@[simp] theorem fus_upd_wheelIn (s : State) (v : Fus) : (applyUpd (.fus v) s).wheelIn = s.wheelIn := rfl
@[simp] theorem fus_upd_spiStepBusy (s : State) (v : Fus) : (applyUpd (.fus v) s).spiStepBusy = s.spiStepBusy := rfl
@[simp] theorem fus_upd_spiRec (s : State) (v : Fus) : (applyUpd (.fus v) s).spiRec = s.spiRec := rfl
@[simp] theorem fus_upd_spiStepCfg (s : State) (v : Fus) : (applyUpd (.fus v) s).spiStepCfg = s.spiStepCfg := rfl
@[simp] theorem fus_upd_ctxs (s : State) (v : Fus) : (applyUpd (.fus v) s).ctxs = s.ctxs := rfl
@[simp] theorem fus_upd_fsyOmit (s : State) (v : Fus) : (applyUpd (.fus v) s).fsyOmit = s.fsyOmit := rfl
@[simp] theorem fus_upd_fsyPulsed (s : State) (v : Fus) : (applyUpd (.fus v) s).fsyPulsed = s.fsyPulsed := rfl
@[simp] theorem fus_upd_supTasks (s : State) (v : Fus) : (applyUpd (.fus v) s).supTasks = s.supTasks := rfl
@[simp] theorem fus_upd_fus (s : State) (v : Fus) : (applyUpd (.fus v) s).fus = v := rfl
@[simp] theorem fus_upd_fcons (s : State) (v : Fus) : (applyUpd (.fus v) s).fcons = s.fcons := rfl
@[simp] theorem fus_upd_shadow (s : State) (v : Fus) : (applyUpd (.fus v) s).shadow = s.shadow := rfl
@[simp] theorem fus_upd_trv (s : State) (v : Fus) : (applyUpd (.fus v) s).trv = s.trv := rfl
@[simp] theorem fus_upd_tlayers (s : State) (v : Fus) : (applyUpd (.fus v) s).tlayers = s.tlayers := rfl
@[simp] theorem fus_upd_jobFaults (s : State) (v : Fus) : (applyUpd (.fus v) s).jobFaults = s.jobFaults := rfl
@[simp] theorem fus_upd_unitLast (s : State) (v : Fus) : (applyUpd (.fus v) s).unitLast = s.unitLast := rfl
@[simp] theorem fus_upd_unitRst (s : State) (v : Fus) : (applyUpd (.fus v) s).unitRst = s.unitRst := rfl
@[simp] theorem fus_upd_xlink (s : State) (v : Fus) : (applyUpd (.fus v) s).xlink = s.xlink := rfl
@[simp] theorem fus_upd_trace (s : State) (v : Fus) : (applyUpd (.fus v) s).trace = s.trace := rfl
@[simp] theorem fus_upd_progs (s : State) (v : Fus) : (applyUpd (.fus v) s).progs = s.progs := rfl
@[simp] theorem fus_upd_rails (s : State) (v : Fus) : (applyUpd (.fus v) s).rails = s.rails := rfl
@[simp] theorem fus_upd_thm (s : State) (v : Fus) : (applyUpd (.fus v) s).thm = s.thm := rfl
@[simp] theorem fus_upd_bnd (s : State) (v : Fus) : (applyUpd (.fus v) s).bnd = s.bnd := rfl
@[simp] theorem fus_upd_thmTrip (s : State) (v : Fus) : (applyUpd (.fus v) s).thmTrip = s.thmTrip := rfl
@[simp] theorem fus_upd_flash (s : State) (v : Fus) : (applyUpd (.fus v) s).flash = s.flash := rfl
@[simp] theorem fus_upd_slots (s : State) (v : Fus) : (applyUpd (.fus v) s).slots = s.slots := rfl
@[simp] theorem fus_upd_stores (s : State) (v : Fus) : (applyUpd (.fus v) s).stores = s.stores := rfl
@[simp] theorem fus_upd_ids (s : State) (v : Fus) : (applyUpd (.fus v) s).ids = s.ids := rfl
@[simp] theorem fus_upd_boot (s : State) (v : Fus) : (applyUpd (.fus v) s).boot = s.boot := rfl
@[simp] theorem fus_upd_load (s : State) (v : Fus) : (applyUpd (.fus v) s).load = s.load := rfl
@[simp] theorem fus_upd_flt (s : State) (v : Fus) : (applyUpd (.fus v) s).flt = s.flt := rfl
@[simp] theorem fus_upd_mon (s : State) (v : Fus) : (applyUpd (.fus v) s).mon = s.mon := rfl
@[simp] theorem fcons_upd_pending (s : State) (k : Nat) (v : FCon) : (applyUpd (.fcons k v) s).pending = s.pending := rfl
@[simp] theorem fcons_upd_regs (s : State) (k : Nat) (v : FCon) : (applyUpd (.fcons k v) s).regs = s.regs := rfl
@[simp] theorem fcons_upd_mem (s : State) (k : Nat) (v : FCon) : (applyUpd (.fcons k v) s).mem = s.mem := rfl
@[simp] theorem fcons_upd_sram (s : State) (k : Nat) (v : FCon) : (applyUpd (.fcons k v) s).sram = s.sram := rfl
@[simp] theorem fcons_upd_time (s : State) (k : Nat) (v : FCon) : (applyUpd (.fcons k v) s).time = s.time := rfl
@[simp] theorem fcons_upd_timeFrac (s : State) (k : Nat) (v : FCon) : (applyUpd (.fcons k v) s).timeFrac = s.timeFrac := rfl
@[simp] theorem fcons_upd_freeCtr (s : State) (k : Nat) (v : FCon) : (applyUpd (.fcons k v) s).freeCtr = s.freeCtr := rfl
@[simp] theorem fcons_upd_hiLatch (s : State) (k : Nat) (v : FCon) : (applyUpd (.fcons k v) s).hiLatch = s.hiLatch := rfl
@[simp] theorem fcons_upd_timeSet (s : State) (k : Nat) (v : FCon) : (applyUpd (.fcons k v) s).timeSet = s.timeSet := rfl
@[simp] theorem fcons_upd_n0 (s : State) (k : Nat) (v : FCon) : (applyUpd (.fcons k v) s).n0 = s.n0 := rfl
@[simp] theorem fcons_upd_ticked (s : State) (k : Nat) (v : FCon) : (applyUpd (.fcons k v) s).ticked = s.ticked := rfl
@[simp] theorem fcons_upd_peerTickAt (s : State) (k : Nat) (v : FCon) : (applyUpd (.fcons k v) s).peerTickAt = s.peerTickAt := rfl
@[simp] theorem fcons_upd_guardPitch (s : State) (k : Nat) (v : FCon) : (applyUpd (.fcons k v) s).guardPitch = s.guardPitch := rfl
@[simp] theorem fcons_upd_diePitch (s : State) (k : Nat) (v : FCon) : (applyUpd (.fcons k v) s).diePitch = s.diePitch := rfl
@[simp] theorem fcons_upd_resps (s : State) (k : Nat) (v : FCon) : (applyUpd (.fcons k v) s).resps = s.resps := rfl
@[simp] theorem fcons_upd_txns (s : State) (k : Nat) (v : FCon) : (applyUpd (.fcons k v) s).txns = s.txns := rfl
@[simp] theorem fcons_upd_nextTag (s : State) (k : Nat) (v : FCon) : (applyUpd (.fcons k v) s).nextTag = s.nextTag := rfl
@[simp] theorem fcons_upd_lateTags (s : State) (k : Nat) (v : FCon) : (applyUpd (.fcons k v) s).lateTags = s.lateTags := rfl
@[simp] theorem fcons_upd_ports (s : State) (k : Nat) (v : FCon) : (applyUpd (.fcons k v) s).ports = s.ports := rfl
@[simp] theorem fcons_upd_threads (s : State) (k : Nat) (v : FCon) : (applyUpd (.fcons k v) s).threads = s.threads := rfl
@[simp] theorem fcons_upd_cores (s : State) (k : Nat) (v : FCon) : (applyUpd (.fcons k v) s).cores = s.cores := rfl
@[simp] theorem fcons_upd_engines (s : State) (k : Nat) (v : FCon) : (applyUpd (.fcons k v) s).engines = s.engines := rfl
@[simp] theorem fcons_upd_held (s : State) (k : Nat) (v : FCon) : (applyUpd (.fcons k v) s).held = s.held := rfl
@[simp] theorem fcons_upd_watches (s : State) (k : Nat) (v : FCon) : (applyUpd (.fcons k v) s).watches = s.watches := rfl
@[simp] theorem fcons_upd_watchMsgs (s : State) (k : Nat) (v : FCon) : (applyUpd (.fcons k v) s).watchMsgs = s.watchMsgs := rfl
@[simp] theorem fcons_upd_bankHeld (s : State) (k : Nat) (v : FCon) : (applyUpd (.fcons k v) s).bankHeld = s.bankHeld := rfl
@[simp] theorem fcons_upd_bankTarget (s : State) (k : Nat) (v : FCon) : (applyUpd (.fcons k v) s).bankTarget = s.bankTarget := rfl
@[simp] theorem fcons_upd_ecc (s : State) (k : Nat) (v : FCon) : (applyUpd (.fcons k v) s).ecc = s.ecc := rfl
@[simp] theorem fcons_upd_lineEcc (s : State) (k : Nat) (v : FCon) : (applyUpd (.fcons k v) s).lineEcc = s.lineEcc := rfl
@[simp] theorem fcons_upd_wbPending (s : State) (k : Nat) (v : FCon) : (applyUpd (.fcons k v) s).wbPending = s.wbPending := rfl
@[simp] theorem fcons_upd_scrubPos (s : State) (k : Nat) (v : FCon) : (applyUpd (.fcons k v) s).scrubPos = s.scrubPos := rfl
@[simp] theorem fcons_upd_refusals (s : State) (k : Nat) (v : FCon) : (applyUpd (.fcons k v) s).refusals = s.refusals := rfl
@[simp] theorem fcons_upd_firstRefusal (s : State) (k : Nat) (v : FCon) : (applyUpd (.fcons k v) s).firstRefusal = s.firstRefusal := rfl
@[simp] theorem fcons_upd_boxQueue (s : State) (k : Nat) (v : FCon) : (applyUpd (.fcons k v) s).boxQueue = s.boxQueue := rfl
@[simp] theorem fcons_upd_boxRun (s : State) (k : Nat) (v : FCon) : (applyUpd (.fcons k v) s).boxRun = s.boxRun := rfl
@[simp] theorem fcons_upd_kvs (s : State) (k : Nat) (v : FCon) : (applyUpd (.fcons k v) s).kvs = s.kvs := rfl
@[simp] theorem fcons_upd_parts (s : State) (k : Nat) (v : FCon) : (applyUpd (.fcons k v) s).parts = s.parts := rfl
@[simp] theorem fcons_upd_dmas (s : State) (k : Nat) (v : FCon) : (applyUpd (.fcons k v) s).dmas = s.dmas := rfl
@[simp] theorem fcons_upd_regReqs (s : State) (k : Nat) (v : FCon) : (applyUpd (.fcons k v) s).regReqs = s.regReqs := rfl
@[simp] theorem fcons_upd_regPorts (s : State) (k : Nat) (v : FCon) : (applyUpd (.fcons k v) s).regPorts = s.regPorts := rfl
@[simp] theorem fcons_upd_subchs (s : State) (k : Nat) (v : FCon) : (applyUpd (.fcons k v) s).subchs = s.subchs := rfl
@[simp] theorem fcons_upd_trackers (s : State) (k : Nat) (v : FCon) : (applyUpd (.fcons k v) s).trackers = s.trackers := rfl
@[simp] theorem fcons_upd_throttles (s : State) (k : Nat) (v : FCon) : (applyUpd (.fcons k v) s).throttles = s.throttles := rfl
@[simp] theorem fcons_upd_errRing (s : State) (k : Nat) (v : FCon) : (applyUpd (.fcons k v) s).errRing = s.errRing := rfl
@[simp] theorem fcons_upd_errRingOvf (s : State) (k : Nat) (v : FCon) : (applyUpd (.fcons k v) s).errRingOvf = s.errRingOvf := rfl
@[simp] theorem fcons_upd_patrolLine (s : State) (k : Nat) (v : FCon) : (applyUpd (.fcons k v) s).patrolLine = s.patrolLine := rfl
@[simp] theorem fcons_upd_retTimes (s : State) (k : Nat) (v : FCon) : (applyUpd (.fcons k v) s).retTimes = s.retTimes := rfl
@[simp] theorem fcons_upd_retired (s : State) (k : Nat) (v : FCon) : (applyUpd (.fcons k v) s).retired = s.retired := rfl
@[simp] theorem fcons_upd_dramSeq (s : State) (k : Nat) (v : FCon) : (applyUpd (.fcons k v) s).dramSeq = s.dramSeq := rfl
@[simp] theorem fcons_upd_trn (s : State) (k : Nat) (v : FCon) : (applyUpd (.fcons k v) s).trn = s.trn := rfl
@[simp] theorem fcons_upd_dqsAdj (s : State) (k : Nat) (v : FCon) : (applyUpd (.fcons k v) s).dqsAdj = s.dqsAdj := rfl
@[simp] theorem fcons_upd_dpol (s : State) (k : Nat) (v : FCon) : (applyUpd (.fcons k v) s).dpol = s.dpol := rfl
@[simp] theorem fcons_upd_idleAt (s : State) (k : Nat) (v : FCon) : (applyUpd (.fcons k v) s).idleAt = s.idleAt := rfl
@[simp] theorem fcons_upd_fitted (s : State) (k : Nat) (v : FCon) : (applyUpd (.fcons k v) s).fitted = s.fitted := rfl
@[simp] theorem fcons_upd_faultMsgs (s : State) (k : Nat) (v : FCon) : (applyUpd (.fcons k v) s).faultMsgs = s.faultMsgs := rfl
@[simp] theorem fcons_upd_out (s : State) (k : Nat) (v : FCon) : (applyUpd (.fcons k v) s).out = s.out := rfl
@[simp] theorem fcons_upd_lastRead (s : State) (k : Nat) (v : FCon) : (applyUpd (.fcons k v) s).lastRead = s.lastRead := rfl
@[simp] theorem fcons_upd_fwd (s : State) (k : Nat) (v : FCon) : (applyUpd (.fcons k v) s).fwd = s.fwd := rfl
@[simp] theorem fcons_upd_ethTx (s : State) (k : Nat) (v : FCon) : (applyUpd (.fcons k v) s).ethTx = s.ethTx := rfl
@[simp] theorem fcons_upd_ethHeadAt (s : State) (k : Nat) (v : FCon) : (applyUpd (.fcons k v) s).ethHeadAt = s.ethHeadAt := rfl
@[simp] theorem fcons_upd_canTx (s : State) (k : Nat) (v : FCon) : (applyUpd (.fcons k v) s).canTx = s.canTx := rfl
@[simp] theorem fcons_upd_pcieOut (s : State) (k : Nat) (v : FCon) : (applyUpd (.fcons k v) s).pcieOut = s.pcieOut := rfl
@[simp] theorem fcons_upd_pcieCfgRd (s : State) (k : Nat) (v : FCon) : (applyUpd (.fcons k v) s).pcieCfgRd = s.pcieCfgRd := rfl
@[simp] theorem fcons_upd_msix (s : State) (k : Nat) (v : FCon) : (applyUpd (.fcons k v) s).msix = s.msix := rfl
@[simp] theorem fcons_upd_ancs (s : State) (k : Nat) (v : FCon) : (applyUpd (.fcons k v) s).ancs = s.ancs := rfl
@[simp] theorem fcons_upd_trajArea (s : State) (k : Nat) (v : FCon) : (applyUpd (.fcons k v) s).trajArea = s.trajArea := rfl
@[simp] theorem fcons_upd_lidarIn (s : State) (k : Nat) (v : FCon) : (applyUpd (.fcons k v) s).lidarIn = s.lidarIn := rfl
@[simp] theorem fcons_upd_wheelIn (s : State) (k : Nat) (v : FCon) : (applyUpd (.fcons k v) s).wheelIn = s.wheelIn := rfl
@[simp] theorem fcons_upd_spiStepBusy (s : State) (k : Nat) (v : FCon) : (applyUpd (.fcons k v) s).spiStepBusy = s.spiStepBusy := rfl
@[simp] theorem fcons_upd_spiRec (s : State) (k : Nat) (v : FCon) : (applyUpd (.fcons k v) s).spiRec = s.spiRec := rfl
@[simp] theorem fcons_upd_spiStepCfg (s : State) (k : Nat) (v : FCon) : (applyUpd (.fcons k v) s).spiStepCfg = s.spiStepCfg := rfl
@[simp] theorem fcons_upd_ctxs (s : State) (k : Nat) (v : FCon) : (applyUpd (.fcons k v) s).ctxs = s.ctxs := rfl
@[simp] theorem fcons_upd_fsyOmit (s : State) (k : Nat) (v : FCon) : (applyUpd (.fcons k v) s).fsyOmit = s.fsyOmit := rfl
@[simp] theorem fcons_upd_fsyPulsed (s : State) (k : Nat) (v : FCon) : (applyUpd (.fcons k v) s).fsyPulsed = s.fsyPulsed := rfl
@[simp] theorem fcons_upd_supTasks (s : State) (k : Nat) (v : FCon) : (applyUpd (.fcons k v) s).supTasks = s.supTasks := rfl
@[simp] theorem fcons_upd_fus (s : State) (k : Nat) (v : FCon) : (applyUpd (.fcons k v) s).fus = s.fus := rfl
@[simp] theorem fcons_upd_fcons (s : State) (k : Nat) (v : FCon) : (applyUpd (.fcons k v) s).fcons = tabSet fconDefault s.fcons k v := rfl
@[simp] theorem fcons_upd_shadow (s : State) (k : Nat) (v : FCon) : (applyUpd (.fcons k v) s).shadow = s.shadow := rfl
@[simp] theorem fcons_upd_trv (s : State) (k : Nat) (v : FCon) : (applyUpd (.fcons k v) s).trv = s.trv := rfl
@[simp] theorem fcons_upd_tlayers (s : State) (k : Nat) (v : FCon) : (applyUpd (.fcons k v) s).tlayers = s.tlayers := rfl
@[simp] theorem fcons_upd_jobFaults (s : State) (k : Nat) (v : FCon) : (applyUpd (.fcons k v) s).jobFaults = s.jobFaults := rfl
@[simp] theorem fcons_upd_unitLast (s : State) (k : Nat) (v : FCon) : (applyUpd (.fcons k v) s).unitLast = s.unitLast := rfl
@[simp] theorem fcons_upd_unitRst (s : State) (k : Nat) (v : FCon) : (applyUpd (.fcons k v) s).unitRst = s.unitRst := rfl
@[simp] theorem fcons_upd_xlink (s : State) (k : Nat) (v : FCon) : (applyUpd (.fcons k v) s).xlink = s.xlink := rfl
@[simp] theorem fcons_upd_trace (s : State) (k : Nat) (v : FCon) : (applyUpd (.fcons k v) s).trace = s.trace := rfl
@[simp] theorem fcons_upd_progs (s : State) (k : Nat) (v : FCon) : (applyUpd (.fcons k v) s).progs = s.progs := rfl
@[simp] theorem fcons_upd_rails (s : State) (k : Nat) (v : FCon) : (applyUpd (.fcons k v) s).rails = s.rails := rfl
@[simp] theorem fcons_upd_thm (s : State) (k : Nat) (v : FCon) : (applyUpd (.fcons k v) s).thm = s.thm := rfl
@[simp] theorem fcons_upd_bnd (s : State) (k : Nat) (v : FCon) : (applyUpd (.fcons k v) s).bnd = s.bnd := rfl
@[simp] theorem fcons_upd_thmTrip (s : State) (k : Nat) (v : FCon) : (applyUpd (.fcons k v) s).thmTrip = s.thmTrip := rfl
@[simp] theorem fcons_upd_flash (s : State) (k : Nat) (v : FCon) : (applyUpd (.fcons k v) s).flash = s.flash := rfl
@[simp] theorem fcons_upd_slots (s : State) (k : Nat) (v : FCon) : (applyUpd (.fcons k v) s).slots = s.slots := rfl
@[simp] theorem fcons_upd_stores (s : State) (k : Nat) (v : FCon) : (applyUpd (.fcons k v) s).stores = s.stores := rfl
@[simp] theorem fcons_upd_ids (s : State) (k : Nat) (v : FCon) : (applyUpd (.fcons k v) s).ids = s.ids := rfl
@[simp] theorem fcons_upd_boot (s : State) (k : Nat) (v : FCon) : (applyUpd (.fcons k v) s).boot = s.boot := rfl
@[simp] theorem fcons_upd_load (s : State) (k : Nat) (v : FCon) : (applyUpd (.fcons k v) s).load = s.load := rfl
@[simp] theorem fcons_upd_flt (s : State) (k : Nat) (v : FCon) : (applyUpd (.fcons k v) s).flt = s.flt := rfl
@[simp] theorem fcons_upd_mon (s : State) (k : Nat) (v : FCon) : (applyUpd (.fcons k v) s).mon = s.mon := rfl
@[simp] theorem shadow_upd_pending (s : State) (k : Nat) (v : Option Word) : (applyUpd (.shadow k v) s).pending = s.pending := rfl
@[simp] theorem shadow_upd_regs (s : State) (k : Nat) (v : Option Word) : (applyUpd (.shadow k v) s).regs = s.regs := rfl
@[simp] theorem shadow_upd_mem (s : State) (k : Nat) (v : Option Word) : (applyUpd (.shadow k v) s).mem = s.mem := rfl
@[simp] theorem shadow_upd_sram (s : State) (k : Nat) (v : Option Word) : (applyUpd (.shadow k v) s).sram = s.sram := rfl
@[simp] theorem shadow_upd_time (s : State) (k : Nat) (v : Option Word) : (applyUpd (.shadow k v) s).time = s.time := rfl
@[simp] theorem shadow_upd_timeFrac (s : State) (k : Nat) (v : Option Word) : (applyUpd (.shadow k v) s).timeFrac = s.timeFrac := rfl
@[simp] theorem shadow_upd_freeCtr (s : State) (k : Nat) (v : Option Word) : (applyUpd (.shadow k v) s).freeCtr = s.freeCtr := rfl
@[simp] theorem shadow_upd_hiLatch (s : State) (k : Nat) (v : Option Word) : (applyUpd (.shadow k v) s).hiLatch = s.hiLatch := rfl
@[simp] theorem shadow_upd_timeSet (s : State) (k : Nat) (v : Option Word) : (applyUpd (.shadow k v) s).timeSet = s.timeSet := rfl
@[simp] theorem shadow_upd_n0 (s : State) (k : Nat) (v : Option Word) : (applyUpd (.shadow k v) s).n0 = s.n0 := rfl
@[simp] theorem shadow_upd_ticked (s : State) (k : Nat) (v : Option Word) : (applyUpd (.shadow k v) s).ticked = s.ticked := rfl
@[simp] theorem shadow_upd_peerTickAt (s : State) (k : Nat) (v : Option Word) : (applyUpd (.shadow k v) s).peerTickAt = s.peerTickAt := rfl
@[simp] theorem shadow_upd_guardPitch (s : State) (k : Nat) (v : Option Word) : (applyUpd (.shadow k v) s).guardPitch = s.guardPitch := rfl
@[simp] theorem shadow_upd_diePitch (s : State) (k : Nat) (v : Option Word) : (applyUpd (.shadow k v) s).diePitch = s.diePitch := rfl
@[simp] theorem shadow_upd_resps (s : State) (k : Nat) (v : Option Word) : (applyUpd (.shadow k v) s).resps = s.resps := rfl
@[simp] theorem shadow_upd_txns (s : State) (k : Nat) (v : Option Word) : (applyUpd (.shadow k v) s).txns = s.txns := rfl
@[simp] theorem shadow_upd_nextTag (s : State) (k : Nat) (v : Option Word) : (applyUpd (.shadow k v) s).nextTag = s.nextTag := rfl
@[simp] theorem shadow_upd_lateTags (s : State) (k : Nat) (v : Option Word) : (applyUpd (.shadow k v) s).lateTags = s.lateTags := rfl
@[simp] theorem shadow_upd_ports (s : State) (k : Nat) (v : Option Word) : (applyUpd (.shadow k v) s).ports = s.ports := rfl
@[simp] theorem shadow_upd_threads (s : State) (k : Nat) (v : Option Word) : (applyUpd (.shadow k v) s).threads = s.threads := rfl
@[simp] theorem shadow_upd_cores (s : State) (k : Nat) (v : Option Word) : (applyUpd (.shadow k v) s).cores = s.cores := rfl
@[simp] theorem shadow_upd_engines (s : State) (k : Nat) (v : Option Word) : (applyUpd (.shadow k v) s).engines = s.engines := rfl
@[simp] theorem shadow_upd_held (s : State) (k : Nat) (v : Option Word) : (applyUpd (.shadow k v) s).held = s.held := rfl
@[simp] theorem shadow_upd_watches (s : State) (k : Nat) (v : Option Word) : (applyUpd (.shadow k v) s).watches = s.watches := rfl
@[simp] theorem shadow_upd_watchMsgs (s : State) (k : Nat) (v : Option Word) : (applyUpd (.shadow k v) s).watchMsgs = s.watchMsgs := rfl
@[simp] theorem shadow_upd_bankHeld (s : State) (k : Nat) (v : Option Word) : (applyUpd (.shadow k v) s).bankHeld = s.bankHeld := rfl
@[simp] theorem shadow_upd_bankTarget (s : State) (k : Nat) (v : Option Word) : (applyUpd (.shadow k v) s).bankTarget = s.bankTarget := rfl
@[simp] theorem shadow_upd_ecc (s : State) (k : Nat) (v : Option Word) : (applyUpd (.shadow k v) s).ecc = s.ecc := rfl
@[simp] theorem shadow_upd_lineEcc (s : State) (k : Nat) (v : Option Word) : (applyUpd (.shadow k v) s).lineEcc = s.lineEcc := rfl
@[simp] theorem shadow_upd_wbPending (s : State) (k : Nat) (v : Option Word) : (applyUpd (.shadow k v) s).wbPending = s.wbPending := rfl
@[simp] theorem shadow_upd_scrubPos (s : State) (k : Nat) (v : Option Word) : (applyUpd (.shadow k v) s).scrubPos = s.scrubPos := rfl
@[simp] theorem shadow_upd_refusals (s : State) (k : Nat) (v : Option Word) : (applyUpd (.shadow k v) s).refusals = s.refusals := rfl
@[simp] theorem shadow_upd_firstRefusal (s : State) (k : Nat) (v : Option Word) : (applyUpd (.shadow k v) s).firstRefusal = s.firstRefusal := rfl
@[simp] theorem shadow_upd_boxQueue (s : State) (k : Nat) (v : Option Word) : (applyUpd (.shadow k v) s).boxQueue = s.boxQueue := rfl
@[simp] theorem shadow_upd_boxRun (s : State) (k : Nat) (v : Option Word) : (applyUpd (.shadow k v) s).boxRun = s.boxRun := rfl
@[simp] theorem shadow_upd_kvs (s : State) (k : Nat) (v : Option Word) : (applyUpd (.shadow k v) s).kvs = s.kvs := rfl
@[simp] theorem shadow_upd_parts (s : State) (k : Nat) (v : Option Word) : (applyUpd (.shadow k v) s).parts = s.parts := rfl
@[simp] theorem shadow_upd_dmas (s : State) (k : Nat) (v : Option Word) : (applyUpd (.shadow k v) s).dmas = s.dmas := rfl
@[simp] theorem shadow_upd_regReqs (s : State) (k : Nat) (v : Option Word) : (applyUpd (.shadow k v) s).regReqs = s.regReqs := rfl
@[simp] theorem shadow_upd_regPorts (s : State) (k : Nat) (v : Option Word) : (applyUpd (.shadow k v) s).regPorts = s.regPorts := rfl
@[simp] theorem shadow_upd_subchs (s : State) (k : Nat) (v : Option Word) : (applyUpd (.shadow k v) s).subchs = s.subchs := rfl
@[simp] theorem shadow_upd_trackers (s : State) (k : Nat) (v : Option Word) : (applyUpd (.shadow k v) s).trackers = s.trackers := rfl
@[simp] theorem shadow_upd_throttles (s : State) (k : Nat) (v : Option Word) : (applyUpd (.shadow k v) s).throttles = s.throttles := rfl
@[simp] theorem shadow_upd_errRing (s : State) (k : Nat) (v : Option Word) : (applyUpd (.shadow k v) s).errRing = s.errRing := rfl
@[simp] theorem shadow_upd_errRingOvf (s : State) (k : Nat) (v : Option Word) : (applyUpd (.shadow k v) s).errRingOvf = s.errRingOvf := rfl
@[simp] theorem shadow_upd_patrolLine (s : State) (k : Nat) (v : Option Word) : (applyUpd (.shadow k v) s).patrolLine = s.patrolLine := rfl
@[simp] theorem shadow_upd_retTimes (s : State) (k : Nat) (v : Option Word) : (applyUpd (.shadow k v) s).retTimes = s.retTimes := rfl
@[simp] theorem shadow_upd_retired (s : State) (k : Nat) (v : Option Word) : (applyUpd (.shadow k v) s).retired = s.retired := rfl
@[simp] theorem shadow_upd_dramSeq (s : State) (k : Nat) (v : Option Word) : (applyUpd (.shadow k v) s).dramSeq = s.dramSeq := rfl
@[simp] theorem shadow_upd_trn (s : State) (k : Nat) (v : Option Word) : (applyUpd (.shadow k v) s).trn = s.trn := rfl
@[simp] theorem shadow_upd_dqsAdj (s : State) (k : Nat) (v : Option Word) : (applyUpd (.shadow k v) s).dqsAdj = s.dqsAdj := rfl
@[simp] theorem shadow_upd_dpol (s : State) (k : Nat) (v : Option Word) : (applyUpd (.shadow k v) s).dpol = s.dpol := rfl
@[simp] theorem shadow_upd_idleAt (s : State) (k : Nat) (v : Option Word) : (applyUpd (.shadow k v) s).idleAt = s.idleAt := rfl
@[simp] theorem shadow_upd_fitted (s : State) (k : Nat) (v : Option Word) : (applyUpd (.shadow k v) s).fitted = s.fitted := rfl
@[simp] theorem shadow_upd_faultMsgs (s : State) (k : Nat) (v : Option Word) : (applyUpd (.shadow k v) s).faultMsgs = s.faultMsgs := rfl
@[simp] theorem shadow_upd_out (s : State) (k : Nat) (v : Option Word) : (applyUpd (.shadow k v) s).out = s.out := rfl
@[simp] theorem shadow_upd_lastRead (s : State) (k : Nat) (v : Option Word) : (applyUpd (.shadow k v) s).lastRead = s.lastRead := rfl
@[simp] theorem shadow_upd_fwd (s : State) (k : Nat) (v : Option Word) : (applyUpd (.shadow k v) s).fwd = s.fwd := rfl
@[simp] theorem shadow_upd_ethTx (s : State) (k : Nat) (v : Option Word) : (applyUpd (.shadow k v) s).ethTx = s.ethTx := rfl
@[simp] theorem shadow_upd_ethHeadAt (s : State) (k : Nat) (v : Option Word) : (applyUpd (.shadow k v) s).ethHeadAt = s.ethHeadAt := rfl
@[simp] theorem shadow_upd_canTx (s : State) (k : Nat) (v : Option Word) : (applyUpd (.shadow k v) s).canTx = s.canTx := rfl
@[simp] theorem shadow_upd_pcieOut (s : State) (k : Nat) (v : Option Word) : (applyUpd (.shadow k v) s).pcieOut = s.pcieOut := rfl
@[simp] theorem shadow_upd_pcieCfgRd (s : State) (k : Nat) (v : Option Word) : (applyUpd (.shadow k v) s).pcieCfgRd = s.pcieCfgRd := rfl
@[simp] theorem shadow_upd_msix (s : State) (k : Nat) (v : Option Word) : (applyUpd (.shadow k v) s).msix = s.msix := rfl
@[simp] theorem shadow_upd_ancs (s : State) (k : Nat) (v : Option Word) : (applyUpd (.shadow k v) s).ancs = s.ancs := rfl
@[simp] theorem shadow_upd_trajArea (s : State) (k : Nat) (v : Option Word) : (applyUpd (.shadow k v) s).trajArea = s.trajArea := rfl
@[simp] theorem shadow_upd_lidarIn (s : State) (k : Nat) (v : Option Word) : (applyUpd (.shadow k v) s).lidarIn = s.lidarIn := rfl
@[simp] theorem shadow_upd_wheelIn (s : State) (k : Nat) (v : Option Word) : (applyUpd (.shadow k v) s).wheelIn = s.wheelIn := rfl
@[simp] theorem shadow_upd_spiStepBusy (s : State) (k : Nat) (v : Option Word) : (applyUpd (.shadow k v) s).spiStepBusy = s.spiStepBusy := rfl
@[simp] theorem shadow_upd_spiRec (s : State) (k : Nat) (v : Option Word) : (applyUpd (.shadow k v) s).spiRec = s.spiRec := rfl
@[simp] theorem shadow_upd_spiStepCfg (s : State) (k : Nat) (v : Option Word) : (applyUpd (.shadow k v) s).spiStepCfg = s.spiStepCfg := rfl
@[simp] theorem shadow_upd_ctxs (s : State) (k : Nat) (v : Option Word) : (applyUpd (.shadow k v) s).ctxs = s.ctxs := rfl
@[simp] theorem shadow_upd_fsyOmit (s : State) (k : Nat) (v : Option Word) : (applyUpd (.shadow k v) s).fsyOmit = s.fsyOmit := rfl
@[simp] theorem shadow_upd_fsyPulsed (s : State) (k : Nat) (v : Option Word) : (applyUpd (.shadow k v) s).fsyPulsed = s.fsyPulsed := rfl
@[simp] theorem shadow_upd_supTasks (s : State) (k : Nat) (v : Option Word) : (applyUpd (.shadow k v) s).supTasks = s.supTasks := rfl
@[simp] theorem shadow_upd_fus (s : State) (k : Nat) (v : Option Word) : (applyUpd (.shadow k v) s).fus = s.fus := rfl
@[simp] theorem shadow_upd_fcons (s : State) (k : Nat) (v : Option Word) : (applyUpd (.shadow k v) s).fcons = s.fcons := rfl
@[simp] theorem shadow_upd_shadow (s : State) (k : Nat) (v : Option Word) : (applyUpd (.shadow k v) s).shadow = tabSet noShadow s.shadow k v := rfl
@[simp] theorem shadow_upd_trv (s : State) (k : Nat) (v : Option Word) : (applyUpd (.shadow k v) s).trv = s.trv := rfl
@[simp] theorem shadow_upd_tlayers (s : State) (k : Nat) (v : Option Word) : (applyUpd (.shadow k v) s).tlayers = s.tlayers := rfl
@[simp] theorem shadow_upd_jobFaults (s : State) (k : Nat) (v : Option Word) : (applyUpd (.shadow k v) s).jobFaults = s.jobFaults := rfl
@[simp] theorem shadow_upd_unitLast (s : State) (k : Nat) (v : Option Word) : (applyUpd (.shadow k v) s).unitLast = s.unitLast := rfl
@[simp] theorem shadow_upd_unitRst (s : State) (k : Nat) (v : Option Word) : (applyUpd (.shadow k v) s).unitRst = s.unitRst := rfl
@[simp] theorem shadow_upd_xlink (s : State) (k : Nat) (v : Option Word) : (applyUpd (.shadow k v) s).xlink = s.xlink := rfl
@[simp] theorem shadow_upd_trace (s : State) (k : Nat) (v : Option Word) : (applyUpd (.shadow k v) s).trace = s.trace := rfl
@[simp] theorem shadow_upd_progs (s : State) (k : Nat) (v : Option Word) : (applyUpd (.shadow k v) s).progs = s.progs := rfl
@[simp] theorem shadow_upd_rails (s : State) (k : Nat) (v : Option Word) : (applyUpd (.shadow k v) s).rails = s.rails := rfl
@[simp] theorem shadow_upd_thm (s : State) (k : Nat) (v : Option Word) : (applyUpd (.shadow k v) s).thm = s.thm := rfl
@[simp] theorem shadow_upd_bnd (s : State) (k : Nat) (v : Option Word) : (applyUpd (.shadow k v) s).bnd = s.bnd := rfl
@[simp] theorem shadow_upd_thmTrip (s : State) (k : Nat) (v : Option Word) : (applyUpd (.shadow k v) s).thmTrip = s.thmTrip := rfl
@[simp] theorem shadow_upd_flash (s : State) (k : Nat) (v : Option Word) : (applyUpd (.shadow k v) s).flash = s.flash := rfl
@[simp] theorem shadow_upd_slots (s : State) (k : Nat) (v : Option Word) : (applyUpd (.shadow k v) s).slots = s.slots := rfl
@[simp] theorem shadow_upd_stores (s : State) (k : Nat) (v : Option Word) : (applyUpd (.shadow k v) s).stores = s.stores := rfl
@[simp] theorem shadow_upd_ids (s : State) (k : Nat) (v : Option Word) : (applyUpd (.shadow k v) s).ids = s.ids := rfl
@[simp] theorem shadow_upd_boot (s : State) (k : Nat) (v : Option Word) : (applyUpd (.shadow k v) s).boot = s.boot := rfl
@[simp] theorem shadow_upd_load (s : State) (k : Nat) (v : Option Word) : (applyUpd (.shadow k v) s).load = s.load := rfl
@[simp] theorem shadow_upd_flt (s : State) (k : Nat) (v : Option Word) : (applyUpd (.shadow k v) s).flt = s.flt := rfl
@[simp] theorem shadow_upd_mon (s : State) (k : Nat) (v : Option Word) : (applyUpd (.shadow k v) s).mon = s.mon := rfl
@[simp] theorem trv_upd_pending (s : State) (v : Trv) : (applyUpd (.trv v) s).pending = s.pending := rfl
@[simp] theorem trv_upd_regs (s : State) (v : Trv) : (applyUpd (.trv v) s).regs = s.regs := rfl
@[simp] theorem trv_upd_mem (s : State) (v : Trv) : (applyUpd (.trv v) s).mem = s.mem := rfl
@[simp] theorem trv_upd_sram (s : State) (v : Trv) : (applyUpd (.trv v) s).sram = s.sram := rfl
@[simp] theorem trv_upd_time (s : State) (v : Trv) : (applyUpd (.trv v) s).time = s.time := rfl
@[simp] theorem trv_upd_timeFrac (s : State) (v : Trv) : (applyUpd (.trv v) s).timeFrac = s.timeFrac := rfl
@[simp] theorem trv_upd_freeCtr (s : State) (v : Trv) : (applyUpd (.trv v) s).freeCtr = s.freeCtr := rfl
@[simp] theorem trv_upd_hiLatch (s : State) (v : Trv) : (applyUpd (.trv v) s).hiLatch = s.hiLatch := rfl
@[simp] theorem trv_upd_timeSet (s : State) (v : Trv) : (applyUpd (.trv v) s).timeSet = s.timeSet := rfl
@[simp] theorem trv_upd_n0 (s : State) (v : Trv) : (applyUpd (.trv v) s).n0 = s.n0 := rfl
@[simp] theorem trv_upd_ticked (s : State) (v : Trv) : (applyUpd (.trv v) s).ticked = s.ticked := rfl
@[simp] theorem trv_upd_peerTickAt (s : State) (v : Trv) : (applyUpd (.trv v) s).peerTickAt = s.peerTickAt := rfl
@[simp] theorem trv_upd_guardPitch (s : State) (v : Trv) : (applyUpd (.trv v) s).guardPitch = s.guardPitch := rfl
@[simp] theorem trv_upd_diePitch (s : State) (v : Trv) : (applyUpd (.trv v) s).diePitch = s.diePitch := rfl
@[simp] theorem trv_upd_resps (s : State) (v : Trv) : (applyUpd (.trv v) s).resps = s.resps := rfl
@[simp] theorem trv_upd_txns (s : State) (v : Trv) : (applyUpd (.trv v) s).txns = s.txns := rfl
@[simp] theorem trv_upd_nextTag (s : State) (v : Trv) : (applyUpd (.trv v) s).nextTag = s.nextTag := rfl
@[simp] theorem trv_upd_lateTags (s : State) (v : Trv) : (applyUpd (.trv v) s).lateTags = s.lateTags := rfl
@[simp] theorem trv_upd_ports (s : State) (v : Trv) : (applyUpd (.trv v) s).ports = s.ports := rfl
@[simp] theorem trv_upd_threads (s : State) (v : Trv) : (applyUpd (.trv v) s).threads = s.threads := rfl
@[simp] theorem trv_upd_cores (s : State) (v : Trv) : (applyUpd (.trv v) s).cores = s.cores := rfl
@[simp] theorem trv_upd_engines (s : State) (v : Trv) : (applyUpd (.trv v) s).engines = s.engines := rfl
@[simp] theorem trv_upd_held (s : State) (v : Trv) : (applyUpd (.trv v) s).held = s.held := rfl
@[simp] theorem trv_upd_watches (s : State) (v : Trv) : (applyUpd (.trv v) s).watches = s.watches := rfl
@[simp] theorem trv_upd_watchMsgs (s : State) (v : Trv) : (applyUpd (.trv v) s).watchMsgs = s.watchMsgs := rfl
@[simp] theorem trv_upd_bankHeld (s : State) (v : Trv) : (applyUpd (.trv v) s).bankHeld = s.bankHeld := rfl
@[simp] theorem trv_upd_bankTarget (s : State) (v : Trv) : (applyUpd (.trv v) s).bankTarget = s.bankTarget := rfl
@[simp] theorem trv_upd_ecc (s : State) (v : Trv) : (applyUpd (.trv v) s).ecc = s.ecc := rfl
@[simp] theorem trv_upd_lineEcc (s : State) (v : Trv) : (applyUpd (.trv v) s).lineEcc = s.lineEcc := rfl
@[simp] theorem trv_upd_wbPending (s : State) (v : Trv) : (applyUpd (.trv v) s).wbPending = s.wbPending := rfl
@[simp] theorem trv_upd_scrubPos (s : State) (v : Trv) : (applyUpd (.trv v) s).scrubPos = s.scrubPos := rfl
@[simp] theorem trv_upd_refusals (s : State) (v : Trv) : (applyUpd (.trv v) s).refusals = s.refusals := rfl
@[simp] theorem trv_upd_firstRefusal (s : State) (v : Trv) : (applyUpd (.trv v) s).firstRefusal = s.firstRefusal := rfl
@[simp] theorem trv_upd_boxQueue (s : State) (v : Trv) : (applyUpd (.trv v) s).boxQueue = s.boxQueue := rfl
@[simp] theorem trv_upd_boxRun (s : State) (v : Trv) : (applyUpd (.trv v) s).boxRun = s.boxRun := rfl
@[simp] theorem trv_upd_kvs (s : State) (v : Trv) : (applyUpd (.trv v) s).kvs = s.kvs := rfl
@[simp] theorem trv_upd_parts (s : State) (v : Trv) : (applyUpd (.trv v) s).parts = s.parts := rfl
@[simp] theorem trv_upd_dmas (s : State) (v : Trv) : (applyUpd (.trv v) s).dmas = s.dmas := rfl
@[simp] theorem trv_upd_regReqs (s : State) (v : Trv) : (applyUpd (.trv v) s).regReqs = s.regReqs := rfl
@[simp] theorem trv_upd_regPorts (s : State) (v : Trv) : (applyUpd (.trv v) s).regPorts = s.regPorts := rfl
@[simp] theorem trv_upd_subchs (s : State) (v : Trv) : (applyUpd (.trv v) s).subchs = s.subchs := rfl
@[simp] theorem trv_upd_trackers (s : State) (v : Trv) : (applyUpd (.trv v) s).trackers = s.trackers := rfl
@[simp] theorem trv_upd_throttles (s : State) (v : Trv) : (applyUpd (.trv v) s).throttles = s.throttles := rfl
@[simp] theorem trv_upd_errRing (s : State) (v : Trv) : (applyUpd (.trv v) s).errRing = s.errRing := rfl
@[simp] theorem trv_upd_errRingOvf (s : State) (v : Trv) : (applyUpd (.trv v) s).errRingOvf = s.errRingOvf := rfl
@[simp] theorem trv_upd_patrolLine (s : State) (v : Trv) : (applyUpd (.trv v) s).patrolLine = s.patrolLine := rfl
@[simp] theorem trv_upd_retTimes (s : State) (v : Trv) : (applyUpd (.trv v) s).retTimes = s.retTimes := rfl
@[simp] theorem trv_upd_retired (s : State) (v : Trv) : (applyUpd (.trv v) s).retired = s.retired := rfl
@[simp] theorem trv_upd_dramSeq (s : State) (v : Trv) : (applyUpd (.trv v) s).dramSeq = s.dramSeq := rfl
@[simp] theorem trv_upd_trn (s : State) (v : Trv) : (applyUpd (.trv v) s).trn = s.trn := rfl
@[simp] theorem trv_upd_dqsAdj (s : State) (v : Trv) : (applyUpd (.trv v) s).dqsAdj = s.dqsAdj := rfl
@[simp] theorem trv_upd_dpol (s : State) (v : Trv) : (applyUpd (.trv v) s).dpol = s.dpol := rfl
@[simp] theorem trv_upd_idleAt (s : State) (v : Trv) : (applyUpd (.trv v) s).idleAt = s.idleAt := rfl
@[simp] theorem trv_upd_fitted (s : State) (v : Trv) : (applyUpd (.trv v) s).fitted = s.fitted := rfl
@[simp] theorem trv_upd_faultMsgs (s : State) (v : Trv) : (applyUpd (.trv v) s).faultMsgs = s.faultMsgs := rfl
@[simp] theorem trv_upd_out (s : State) (v : Trv) : (applyUpd (.trv v) s).out = s.out := rfl
@[simp] theorem trv_upd_lastRead (s : State) (v : Trv) : (applyUpd (.trv v) s).lastRead = s.lastRead := rfl
@[simp] theorem trv_upd_fwd (s : State) (v : Trv) : (applyUpd (.trv v) s).fwd = s.fwd := rfl
@[simp] theorem trv_upd_ethTx (s : State) (v : Trv) : (applyUpd (.trv v) s).ethTx = s.ethTx := rfl
@[simp] theorem trv_upd_ethHeadAt (s : State) (v : Trv) : (applyUpd (.trv v) s).ethHeadAt = s.ethHeadAt := rfl
@[simp] theorem trv_upd_canTx (s : State) (v : Trv) : (applyUpd (.trv v) s).canTx = s.canTx := rfl
@[simp] theorem trv_upd_pcieOut (s : State) (v : Trv) : (applyUpd (.trv v) s).pcieOut = s.pcieOut := rfl
@[simp] theorem trv_upd_pcieCfgRd (s : State) (v : Trv) : (applyUpd (.trv v) s).pcieCfgRd = s.pcieCfgRd := rfl
@[simp] theorem trv_upd_msix (s : State) (v : Trv) : (applyUpd (.trv v) s).msix = s.msix := rfl
@[simp] theorem trv_upd_ancs (s : State) (v : Trv) : (applyUpd (.trv v) s).ancs = s.ancs := rfl
@[simp] theorem trv_upd_trajArea (s : State) (v : Trv) : (applyUpd (.trv v) s).trajArea = s.trajArea := rfl
@[simp] theorem trv_upd_lidarIn (s : State) (v : Trv) : (applyUpd (.trv v) s).lidarIn = s.lidarIn := rfl
@[simp] theorem trv_upd_wheelIn (s : State) (v : Trv) : (applyUpd (.trv v) s).wheelIn = s.wheelIn := rfl
@[simp] theorem trv_upd_spiStepBusy (s : State) (v : Trv) : (applyUpd (.trv v) s).spiStepBusy = s.spiStepBusy := rfl
@[simp] theorem trv_upd_spiRec (s : State) (v : Trv) : (applyUpd (.trv v) s).spiRec = s.spiRec := rfl
@[simp] theorem trv_upd_spiStepCfg (s : State) (v : Trv) : (applyUpd (.trv v) s).spiStepCfg = s.spiStepCfg := rfl
@[simp] theorem trv_upd_ctxs (s : State) (v : Trv) : (applyUpd (.trv v) s).ctxs = s.ctxs := rfl
@[simp] theorem trv_upd_fsyOmit (s : State) (v : Trv) : (applyUpd (.trv v) s).fsyOmit = s.fsyOmit := rfl
@[simp] theorem trv_upd_fsyPulsed (s : State) (v : Trv) : (applyUpd (.trv v) s).fsyPulsed = s.fsyPulsed := rfl
@[simp] theorem trv_upd_supTasks (s : State) (v : Trv) : (applyUpd (.trv v) s).supTasks = s.supTasks := rfl
@[simp] theorem trv_upd_fus (s : State) (v : Trv) : (applyUpd (.trv v) s).fus = s.fus := rfl
@[simp] theorem trv_upd_fcons (s : State) (v : Trv) : (applyUpd (.trv v) s).fcons = s.fcons := rfl
@[simp] theorem trv_upd_shadow (s : State) (v : Trv) : (applyUpd (.trv v) s).shadow = s.shadow := rfl
@[simp] theorem trv_upd_trv (s : State) (v : Trv) : (applyUpd (.trv v) s).trv = v := rfl
@[simp] theorem trv_upd_tlayers (s : State) (v : Trv) : (applyUpd (.trv v) s).tlayers = s.tlayers := rfl
@[simp] theorem trv_upd_jobFaults (s : State) (v : Trv) : (applyUpd (.trv v) s).jobFaults = s.jobFaults := rfl
@[simp] theorem trv_upd_unitLast (s : State) (v : Trv) : (applyUpd (.trv v) s).unitLast = s.unitLast := rfl
@[simp] theorem trv_upd_unitRst (s : State) (v : Trv) : (applyUpd (.trv v) s).unitRst = s.unitRst := rfl
@[simp] theorem trv_upd_xlink (s : State) (v : Trv) : (applyUpd (.trv v) s).xlink = s.xlink := rfl
@[simp] theorem trv_upd_trace (s : State) (v : Trv) : (applyUpd (.trv v) s).trace = s.trace := rfl
@[simp] theorem trv_upd_progs (s : State) (v : Trv) : (applyUpd (.trv v) s).progs = s.progs := rfl
@[simp] theorem trv_upd_rails (s : State) (v : Trv) : (applyUpd (.trv v) s).rails = s.rails := rfl
@[simp] theorem trv_upd_thm (s : State) (v : Trv) : (applyUpd (.trv v) s).thm = s.thm := rfl
@[simp] theorem trv_upd_bnd (s : State) (v : Trv) : (applyUpd (.trv v) s).bnd = s.bnd := rfl
@[simp] theorem trv_upd_thmTrip (s : State) (v : Trv) : (applyUpd (.trv v) s).thmTrip = s.thmTrip := rfl
@[simp] theorem trv_upd_flash (s : State) (v : Trv) : (applyUpd (.trv v) s).flash = s.flash := rfl
@[simp] theorem trv_upd_slots (s : State) (v : Trv) : (applyUpd (.trv v) s).slots = s.slots := rfl
@[simp] theorem trv_upd_stores (s : State) (v : Trv) : (applyUpd (.trv v) s).stores = s.stores := rfl
@[simp] theorem trv_upd_ids (s : State) (v : Trv) : (applyUpd (.trv v) s).ids = s.ids := rfl
@[simp] theorem trv_upd_boot (s : State) (v : Trv) : (applyUpd (.trv v) s).boot = s.boot := rfl
@[simp] theorem trv_upd_load (s : State) (v : Trv) : (applyUpd (.trv v) s).load = s.load := rfl
@[simp] theorem trv_upd_flt (s : State) (v : Trv) : (applyUpd (.trv v) s).flt = s.flt := rfl
@[simp] theorem trv_upd_mon (s : State) (v : Trv) : (applyUpd (.trv v) s).mon = s.mon := rfl
@[simp] theorem tlayers_upd_pending (s : State) (k : Nat) (v : TLayer) : (applyUpd (.tlayers k v) s).pending = s.pending := rfl
@[simp] theorem tlayers_upd_regs (s : State) (k : Nat) (v : TLayer) : (applyUpd (.tlayers k v) s).regs = s.regs := rfl
@[simp] theorem tlayers_upd_mem (s : State) (k : Nat) (v : TLayer) : (applyUpd (.tlayers k v) s).mem = s.mem := rfl
@[simp] theorem tlayers_upd_sram (s : State) (k : Nat) (v : TLayer) : (applyUpd (.tlayers k v) s).sram = s.sram := rfl
@[simp] theorem tlayers_upd_time (s : State) (k : Nat) (v : TLayer) : (applyUpd (.tlayers k v) s).time = s.time := rfl
@[simp] theorem tlayers_upd_timeFrac (s : State) (k : Nat) (v : TLayer) : (applyUpd (.tlayers k v) s).timeFrac = s.timeFrac := rfl
@[simp] theorem tlayers_upd_freeCtr (s : State) (k : Nat) (v : TLayer) : (applyUpd (.tlayers k v) s).freeCtr = s.freeCtr := rfl
@[simp] theorem tlayers_upd_hiLatch (s : State) (k : Nat) (v : TLayer) : (applyUpd (.tlayers k v) s).hiLatch = s.hiLatch := rfl
@[simp] theorem tlayers_upd_timeSet (s : State) (k : Nat) (v : TLayer) : (applyUpd (.tlayers k v) s).timeSet = s.timeSet := rfl
@[simp] theorem tlayers_upd_n0 (s : State) (k : Nat) (v : TLayer) : (applyUpd (.tlayers k v) s).n0 = s.n0 := rfl
@[simp] theorem tlayers_upd_ticked (s : State) (k : Nat) (v : TLayer) : (applyUpd (.tlayers k v) s).ticked = s.ticked := rfl
@[simp] theorem tlayers_upd_peerTickAt (s : State) (k : Nat) (v : TLayer) : (applyUpd (.tlayers k v) s).peerTickAt = s.peerTickAt := rfl
@[simp] theorem tlayers_upd_guardPitch (s : State) (k : Nat) (v : TLayer) : (applyUpd (.tlayers k v) s).guardPitch = s.guardPitch := rfl
@[simp] theorem tlayers_upd_diePitch (s : State) (k : Nat) (v : TLayer) : (applyUpd (.tlayers k v) s).diePitch = s.diePitch := rfl
@[simp] theorem tlayers_upd_resps (s : State) (k : Nat) (v : TLayer) : (applyUpd (.tlayers k v) s).resps = s.resps := rfl
@[simp] theorem tlayers_upd_txns (s : State) (k : Nat) (v : TLayer) : (applyUpd (.tlayers k v) s).txns = s.txns := rfl
@[simp] theorem tlayers_upd_nextTag (s : State) (k : Nat) (v : TLayer) : (applyUpd (.tlayers k v) s).nextTag = s.nextTag := rfl
@[simp] theorem tlayers_upd_lateTags (s : State) (k : Nat) (v : TLayer) : (applyUpd (.tlayers k v) s).lateTags = s.lateTags := rfl
@[simp] theorem tlayers_upd_ports (s : State) (k : Nat) (v : TLayer) : (applyUpd (.tlayers k v) s).ports = s.ports := rfl
@[simp] theorem tlayers_upd_threads (s : State) (k : Nat) (v : TLayer) : (applyUpd (.tlayers k v) s).threads = s.threads := rfl
@[simp] theorem tlayers_upd_cores (s : State) (k : Nat) (v : TLayer) : (applyUpd (.tlayers k v) s).cores = s.cores := rfl
@[simp] theorem tlayers_upd_engines (s : State) (k : Nat) (v : TLayer) : (applyUpd (.tlayers k v) s).engines = s.engines := rfl
@[simp] theorem tlayers_upd_held (s : State) (k : Nat) (v : TLayer) : (applyUpd (.tlayers k v) s).held = s.held := rfl
@[simp] theorem tlayers_upd_watches (s : State) (k : Nat) (v : TLayer) : (applyUpd (.tlayers k v) s).watches = s.watches := rfl
@[simp] theorem tlayers_upd_watchMsgs (s : State) (k : Nat) (v : TLayer) : (applyUpd (.tlayers k v) s).watchMsgs = s.watchMsgs := rfl
@[simp] theorem tlayers_upd_bankHeld (s : State) (k : Nat) (v : TLayer) : (applyUpd (.tlayers k v) s).bankHeld = s.bankHeld := rfl
@[simp] theorem tlayers_upd_bankTarget (s : State) (k : Nat) (v : TLayer) : (applyUpd (.tlayers k v) s).bankTarget = s.bankTarget := rfl
@[simp] theorem tlayers_upd_ecc (s : State) (k : Nat) (v : TLayer) : (applyUpd (.tlayers k v) s).ecc = s.ecc := rfl
@[simp] theorem tlayers_upd_lineEcc (s : State) (k : Nat) (v : TLayer) : (applyUpd (.tlayers k v) s).lineEcc = s.lineEcc := rfl
@[simp] theorem tlayers_upd_wbPending (s : State) (k : Nat) (v : TLayer) : (applyUpd (.tlayers k v) s).wbPending = s.wbPending := rfl
@[simp] theorem tlayers_upd_scrubPos (s : State) (k : Nat) (v : TLayer) : (applyUpd (.tlayers k v) s).scrubPos = s.scrubPos := rfl
@[simp] theorem tlayers_upd_refusals (s : State) (k : Nat) (v : TLayer) : (applyUpd (.tlayers k v) s).refusals = s.refusals := rfl
@[simp] theorem tlayers_upd_firstRefusal (s : State) (k : Nat) (v : TLayer) : (applyUpd (.tlayers k v) s).firstRefusal = s.firstRefusal := rfl
@[simp] theorem tlayers_upd_boxQueue (s : State) (k : Nat) (v : TLayer) : (applyUpd (.tlayers k v) s).boxQueue = s.boxQueue := rfl
@[simp] theorem tlayers_upd_boxRun (s : State) (k : Nat) (v : TLayer) : (applyUpd (.tlayers k v) s).boxRun = s.boxRun := rfl
@[simp] theorem tlayers_upd_kvs (s : State) (k : Nat) (v : TLayer) : (applyUpd (.tlayers k v) s).kvs = s.kvs := rfl
@[simp] theorem tlayers_upd_parts (s : State) (k : Nat) (v : TLayer) : (applyUpd (.tlayers k v) s).parts = s.parts := rfl
@[simp] theorem tlayers_upd_dmas (s : State) (k : Nat) (v : TLayer) : (applyUpd (.tlayers k v) s).dmas = s.dmas := rfl
@[simp] theorem tlayers_upd_regReqs (s : State) (k : Nat) (v : TLayer) : (applyUpd (.tlayers k v) s).regReqs = s.regReqs := rfl
@[simp] theorem tlayers_upd_regPorts (s : State) (k : Nat) (v : TLayer) : (applyUpd (.tlayers k v) s).regPorts = s.regPorts := rfl
@[simp] theorem tlayers_upd_subchs (s : State) (k : Nat) (v : TLayer) : (applyUpd (.tlayers k v) s).subchs = s.subchs := rfl
@[simp] theorem tlayers_upd_trackers (s : State) (k : Nat) (v : TLayer) : (applyUpd (.tlayers k v) s).trackers = s.trackers := rfl
@[simp] theorem tlayers_upd_throttles (s : State) (k : Nat) (v : TLayer) : (applyUpd (.tlayers k v) s).throttles = s.throttles := rfl
@[simp] theorem tlayers_upd_errRing (s : State) (k : Nat) (v : TLayer) : (applyUpd (.tlayers k v) s).errRing = s.errRing := rfl
@[simp] theorem tlayers_upd_errRingOvf (s : State) (k : Nat) (v : TLayer) : (applyUpd (.tlayers k v) s).errRingOvf = s.errRingOvf := rfl
@[simp] theorem tlayers_upd_patrolLine (s : State) (k : Nat) (v : TLayer) : (applyUpd (.tlayers k v) s).patrolLine = s.patrolLine := rfl
@[simp] theorem tlayers_upd_retTimes (s : State) (k : Nat) (v : TLayer) : (applyUpd (.tlayers k v) s).retTimes = s.retTimes := rfl
@[simp] theorem tlayers_upd_retired (s : State) (k : Nat) (v : TLayer) : (applyUpd (.tlayers k v) s).retired = s.retired := rfl
@[simp] theorem tlayers_upd_dramSeq (s : State) (k : Nat) (v : TLayer) : (applyUpd (.tlayers k v) s).dramSeq = s.dramSeq := rfl
@[simp] theorem tlayers_upd_trn (s : State) (k : Nat) (v : TLayer) : (applyUpd (.tlayers k v) s).trn = s.trn := rfl
@[simp] theorem tlayers_upd_dqsAdj (s : State) (k : Nat) (v : TLayer) : (applyUpd (.tlayers k v) s).dqsAdj = s.dqsAdj := rfl
@[simp] theorem tlayers_upd_dpol (s : State) (k : Nat) (v : TLayer) : (applyUpd (.tlayers k v) s).dpol = s.dpol := rfl
@[simp] theorem tlayers_upd_idleAt (s : State) (k : Nat) (v : TLayer) : (applyUpd (.tlayers k v) s).idleAt = s.idleAt := rfl
@[simp] theorem tlayers_upd_fitted (s : State) (k : Nat) (v : TLayer) : (applyUpd (.tlayers k v) s).fitted = s.fitted := rfl
@[simp] theorem tlayers_upd_faultMsgs (s : State) (k : Nat) (v : TLayer) : (applyUpd (.tlayers k v) s).faultMsgs = s.faultMsgs := rfl
@[simp] theorem tlayers_upd_out (s : State) (k : Nat) (v : TLayer) : (applyUpd (.tlayers k v) s).out = s.out := rfl
@[simp] theorem tlayers_upd_lastRead (s : State) (k : Nat) (v : TLayer) : (applyUpd (.tlayers k v) s).lastRead = s.lastRead := rfl
@[simp] theorem tlayers_upd_fwd (s : State) (k : Nat) (v : TLayer) : (applyUpd (.tlayers k v) s).fwd = s.fwd := rfl
@[simp] theorem tlayers_upd_ethTx (s : State) (k : Nat) (v : TLayer) : (applyUpd (.tlayers k v) s).ethTx = s.ethTx := rfl
@[simp] theorem tlayers_upd_ethHeadAt (s : State) (k : Nat) (v : TLayer) : (applyUpd (.tlayers k v) s).ethHeadAt = s.ethHeadAt := rfl
@[simp] theorem tlayers_upd_canTx (s : State) (k : Nat) (v : TLayer) : (applyUpd (.tlayers k v) s).canTx = s.canTx := rfl
@[simp] theorem tlayers_upd_pcieOut (s : State) (k : Nat) (v : TLayer) : (applyUpd (.tlayers k v) s).pcieOut = s.pcieOut := rfl
@[simp] theorem tlayers_upd_pcieCfgRd (s : State) (k : Nat) (v : TLayer) : (applyUpd (.tlayers k v) s).pcieCfgRd = s.pcieCfgRd := rfl
@[simp] theorem tlayers_upd_msix (s : State) (k : Nat) (v : TLayer) : (applyUpd (.tlayers k v) s).msix = s.msix := rfl
@[simp] theorem tlayers_upd_ancs (s : State) (k : Nat) (v : TLayer) : (applyUpd (.tlayers k v) s).ancs = s.ancs := rfl
@[simp] theorem tlayers_upd_trajArea (s : State) (k : Nat) (v : TLayer) : (applyUpd (.tlayers k v) s).trajArea = s.trajArea := rfl
@[simp] theorem tlayers_upd_lidarIn (s : State) (k : Nat) (v : TLayer) : (applyUpd (.tlayers k v) s).lidarIn = s.lidarIn := rfl
@[simp] theorem tlayers_upd_wheelIn (s : State) (k : Nat) (v : TLayer) : (applyUpd (.tlayers k v) s).wheelIn = s.wheelIn := rfl
@[simp] theorem tlayers_upd_spiStepBusy (s : State) (k : Nat) (v : TLayer) : (applyUpd (.tlayers k v) s).spiStepBusy = s.spiStepBusy := rfl
@[simp] theorem tlayers_upd_spiRec (s : State) (k : Nat) (v : TLayer) : (applyUpd (.tlayers k v) s).spiRec = s.spiRec := rfl
@[simp] theorem tlayers_upd_spiStepCfg (s : State) (k : Nat) (v : TLayer) : (applyUpd (.tlayers k v) s).spiStepCfg = s.spiStepCfg := rfl
@[simp] theorem tlayers_upd_ctxs (s : State) (k : Nat) (v : TLayer) : (applyUpd (.tlayers k v) s).ctxs = s.ctxs := rfl
@[simp] theorem tlayers_upd_fsyOmit (s : State) (k : Nat) (v : TLayer) : (applyUpd (.tlayers k v) s).fsyOmit = s.fsyOmit := rfl
@[simp] theorem tlayers_upd_fsyPulsed (s : State) (k : Nat) (v : TLayer) : (applyUpd (.tlayers k v) s).fsyPulsed = s.fsyPulsed := rfl
@[simp] theorem tlayers_upd_supTasks (s : State) (k : Nat) (v : TLayer) : (applyUpd (.tlayers k v) s).supTasks = s.supTasks := rfl
@[simp] theorem tlayers_upd_fus (s : State) (k : Nat) (v : TLayer) : (applyUpd (.tlayers k v) s).fus = s.fus := rfl
@[simp] theorem tlayers_upd_fcons (s : State) (k : Nat) (v : TLayer) : (applyUpd (.tlayers k v) s).fcons = s.fcons := rfl
@[simp] theorem tlayers_upd_shadow (s : State) (k : Nat) (v : TLayer) : (applyUpd (.tlayers k v) s).shadow = s.shadow := rfl
@[simp] theorem tlayers_upd_trv (s : State) (k : Nat) (v : TLayer) : (applyUpd (.tlayers k v) s).trv = s.trv := rfl
@[simp] theorem tlayers_upd_tlayers (s : State) (k : Nat) (v : TLayer) : (applyUpd (.tlayers k v) s).tlayers = tabSet tlayerDefault s.tlayers k v := rfl
@[simp] theorem tlayers_upd_jobFaults (s : State) (k : Nat) (v : TLayer) : (applyUpd (.tlayers k v) s).jobFaults = s.jobFaults := rfl
@[simp] theorem tlayers_upd_unitLast (s : State) (k : Nat) (v : TLayer) : (applyUpd (.tlayers k v) s).unitLast = s.unitLast := rfl
@[simp] theorem tlayers_upd_unitRst (s : State) (k : Nat) (v : TLayer) : (applyUpd (.tlayers k v) s).unitRst = s.unitRst := rfl
@[simp] theorem tlayers_upd_xlink (s : State) (k : Nat) (v : TLayer) : (applyUpd (.tlayers k v) s).xlink = s.xlink := rfl
@[simp] theorem tlayers_upd_trace (s : State) (k : Nat) (v : TLayer) : (applyUpd (.tlayers k v) s).trace = s.trace := rfl
@[simp] theorem tlayers_upd_progs (s : State) (k : Nat) (v : TLayer) : (applyUpd (.tlayers k v) s).progs = s.progs := rfl
@[simp] theorem tlayers_upd_rails (s : State) (k : Nat) (v : TLayer) : (applyUpd (.tlayers k v) s).rails = s.rails := rfl
@[simp] theorem tlayers_upd_thm (s : State) (k : Nat) (v : TLayer) : (applyUpd (.tlayers k v) s).thm = s.thm := rfl
@[simp] theorem tlayers_upd_bnd (s : State) (k : Nat) (v : TLayer) : (applyUpd (.tlayers k v) s).bnd = s.bnd := rfl
@[simp] theorem tlayers_upd_thmTrip (s : State) (k : Nat) (v : TLayer) : (applyUpd (.tlayers k v) s).thmTrip = s.thmTrip := rfl
@[simp] theorem tlayers_upd_flash (s : State) (k : Nat) (v : TLayer) : (applyUpd (.tlayers k v) s).flash = s.flash := rfl
@[simp] theorem tlayers_upd_slots (s : State) (k : Nat) (v : TLayer) : (applyUpd (.tlayers k v) s).slots = s.slots := rfl
@[simp] theorem tlayers_upd_stores (s : State) (k : Nat) (v : TLayer) : (applyUpd (.tlayers k v) s).stores = s.stores := rfl
@[simp] theorem tlayers_upd_ids (s : State) (k : Nat) (v : TLayer) : (applyUpd (.tlayers k v) s).ids = s.ids := rfl
@[simp] theorem tlayers_upd_boot (s : State) (k : Nat) (v : TLayer) : (applyUpd (.tlayers k v) s).boot = s.boot := rfl
@[simp] theorem tlayers_upd_load (s : State) (k : Nat) (v : TLayer) : (applyUpd (.tlayers k v) s).load = s.load := rfl
@[simp] theorem tlayers_upd_flt (s : State) (k : Nat) (v : TLayer) : (applyUpd (.tlayers k v) s).flt = s.flt := rfl
@[simp] theorem tlayers_upd_mon (s : State) (k : Nat) (v : TLayer) : (applyUpd (.tlayers k v) s).mon = s.mon := rfl
@[simp] theorem jobFaults_upd_pending (s : State) (v : List (Nat × Nat × List Nat)) : (applyUpd (.jobFaults v) s).pending = s.pending := rfl
@[simp] theorem jobFaults_upd_regs (s : State) (v : List (Nat × Nat × List Nat)) : (applyUpd (.jobFaults v) s).regs = s.regs := rfl
@[simp] theorem jobFaults_upd_mem (s : State) (v : List (Nat × Nat × List Nat)) : (applyUpd (.jobFaults v) s).mem = s.mem := rfl
@[simp] theorem jobFaults_upd_sram (s : State) (v : List (Nat × Nat × List Nat)) : (applyUpd (.jobFaults v) s).sram = s.sram := rfl
@[simp] theorem jobFaults_upd_time (s : State) (v : List (Nat × Nat × List Nat)) : (applyUpd (.jobFaults v) s).time = s.time := rfl
@[simp] theorem jobFaults_upd_timeFrac (s : State) (v : List (Nat × Nat × List Nat)) : (applyUpd (.jobFaults v) s).timeFrac = s.timeFrac := rfl
@[simp] theorem jobFaults_upd_freeCtr (s : State) (v : List (Nat × Nat × List Nat)) : (applyUpd (.jobFaults v) s).freeCtr = s.freeCtr := rfl
@[simp] theorem jobFaults_upd_hiLatch (s : State) (v : List (Nat × Nat × List Nat)) : (applyUpd (.jobFaults v) s).hiLatch = s.hiLatch := rfl
@[simp] theorem jobFaults_upd_timeSet (s : State) (v : List (Nat × Nat × List Nat)) : (applyUpd (.jobFaults v) s).timeSet = s.timeSet := rfl
@[simp] theorem jobFaults_upd_n0 (s : State) (v : List (Nat × Nat × List Nat)) : (applyUpd (.jobFaults v) s).n0 = s.n0 := rfl
@[simp] theorem jobFaults_upd_ticked (s : State) (v : List (Nat × Nat × List Nat)) : (applyUpd (.jobFaults v) s).ticked = s.ticked := rfl
@[simp] theorem jobFaults_upd_peerTickAt (s : State) (v : List (Nat × Nat × List Nat)) : (applyUpd (.jobFaults v) s).peerTickAt = s.peerTickAt := rfl
@[simp] theorem jobFaults_upd_guardPitch (s : State) (v : List (Nat × Nat × List Nat)) : (applyUpd (.jobFaults v) s).guardPitch = s.guardPitch := rfl
@[simp] theorem jobFaults_upd_diePitch (s : State) (v : List (Nat × Nat × List Nat)) : (applyUpd (.jobFaults v) s).diePitch = s.diePitch := rfl
@[simp] theorem jobFaults_upd_resps (s : State) (v : List (Nat × Nat × List Nat)) : (applyUpd (.jobFaults v) s).resps = s.resps := rfl
@[simp] theorem jobFaults_upd_txns (s : State) (v : List (Nat × Nat × List Nat)) : (applyUpd (.jobFaults v) s).txns = s.txns := rfl
@[simp] theorem jobFaults_upd_nextTag (s : State) (v : List (Nat × Nat × List Nat)) : (applyUpd (.jobFaults v) s).nextTag = s.nextTag := rfl
@[simp] theorem jobFaults_upd_lateTags (s : State) (v : List (Nat × Nat × List Nat)) : (applyUpd (.jobFaults v) s).lateTags = s.lateTags := rfl
@[simp] theorem jobFaults_upd_ports (s : State) (v : List (Nat × Nat × List Nat)) : (applyUpd (.jobFaults v) s).ports = s.ports := rfl
@[simp] theorem jobFaults_upd_threads (s : State) (v : List (Nat × Nat × List Nat)) : (applyUpd (.jobFaults v) s).threads = s.threads := rfl
@[simp] theorem jobFaults_upd_cores (s : State) (v : List (Nat × Nat × List Nat)) : (applyUpd (.jobFaults v) s).cores = s.cores := rfl
@[simp] theorem jobFaults_upd_engines (s : State) (v : List (Nat × Nat × List Nat)) : (applyUpd (.jobFaults v) s).engines = s.engines := rfl
@[simp] theorem jobFaults_upd_held (s : State) (v : List (Nat × Nat × List Nat)) : (applyUpd (.jobFaults v) s).held = s.held := rfl
@[simp] theorem jobFaults_upd_watches (s : State) (v : List (Nat × Nat × List Nat)) : (applyUpd (.jobFaults v) s).watches = s.watches := rfl
@[simp] theorem jobFaults_upd_watchMsgs (s : State) (v : List (Nat × Nat × List Nat)) : (applyUpd (.jobFaults v) s).watchMsgs = s.watchMsgs := rfl
@[simp] theorem jobFaults_upd_bankHeld (s : State) (v : List (Nat × Nat × List Nat)) : (applyUpd (.jobFaults v) s).bankHeld = s.bankHeld := rfl
@[simp] theorem jobFaults_upd_bankTarget (s : State) (v : List (Nat × Nat × List Nat)) : (applyUpd (.jobFaults v) s).bankTarget = s.bankTarget := rfl
@[simp] theorem jobFaults_upd_ecc (s : State) (v : List (Nat × Nat × List Nat)) : (applyUpd (.jobFaults v) s).ecc = s.ecc := rfl
@[simp] theorem jobFaults_upd_lineEcc (s : State) (v : List (Nat × Nat × List Nat)) : (applyUpd (.jobFaults v) s).lineEcc = s.lineEcc := rfl
@[simp] theorem jobFaults_upd_wbPending (s : State) (v : List (Nat × Nat × List Nat)) : (applyUpd (.jobFaults v) s).wbPending = s.wbPending := rfl
@[simp] theorem jobFaults_upd_scrubPos (s : State) (v : List (Nat × Nat × List Nat)) : (applyUpd (.jobFaults v) s).scrubPos = s.scrubPos := rfl
@[simp] theorem jobFaults_upd_refusals (s : State) (v : List (Nat × Nat × List Nat)) : (applyUpd (.jobFaults v) s).refusals = s.refusals := rfl
@[simp] theorem jobFaults_upd_firstRefusal (s : State) (v : List (Nat × Nat × List Nat)) : (applyUpd (.jobFaults v) s).firstRefusal = s.firstRefusal := rfl
@[simp] theorem jobFaults_upd_boxQueue (s : State) (v : List (Nat × Nat × List Nat)) : (applyUpd (.jobFaults v) s).boxQueue = s.boxQueue := rfl
@[simp] theorem jobFaults_upd_boxRun (s : State) (v : List (Nat × Nat × List Nat)) : (applyUpd (.jobFaults v) s).boxRun = s.boxRun := rfl
@[simp] theorem jobFaults_upd_kvs (s : State) (v : List (Nat × Nat × List Nat)) : (applyUpd (.jobFaults v) s).kvs = s.kvs := rfl
@[simp] theorem jobFaults_upd_parts (s : State) (v : List (Nat × Nat × List Nat)) : (applyUpd (.jobFaults v) s).parts = s.parts := rfl
@[simp] theorem jobFaults_upd_dmas (s : State) (v : List (Nat × Nat × List Nat)) : (applyUpd (.jobFaults v) s).dmas = s.dmas := rfl
@[simp] theorem jobFaults_upd_regReqs (s : State) (v : List (Nat × Nat × List Nat)) : (applyUpd (.jobFaults v) s).regReqs = s.regReqs := rfl
@[simp] theorem jobFaults_upd_regPorts (s : State) (v : List (Nat × Nat × List Nat)) : (applyUpd (.jobFaults v) s).regPorts = s.regPorts := rfl
@[simp] theorem jobFaults_upd_subchs (s : State) (v : List (Nat × Nat × List Nat)) : (applyUpd (.jobFaults v) s).subchs = s.subchs := rfl
@[simp] theorem jobFaults_upd_trackers (s : State) (v : List (Nat × Nat × List Nat)) : (applyUpd (.jobFaults v) s).trackers = s.trackers := rfl
@[simp] theorem jobFaults_upd_throttles (s : State) (v : List (Nat × Nat × List Nat)) : (applyUpd (.jobFaults v) s).throttles = s.throttles := rfl
@[simp] theorem jobFaults_upd_errRing (s : State) (v : List (Nat × Nat × List Nat)) : (applyUpd (.jobFaults v) s).errRing = s.errRing := rfl
@[simp] theorem jobFaults_upd_errRingOvf (s : State) (v : List (Nat × Nat × List Nat)) : (applyUpd (.jobFaults v) s).errRingOvf = s.errRingOvf := rfl
@[simp] theorem jobFaults_upd_patrolLine (s : State) (v : List (Nat × Nat × List Nat)) : (applyUpd (.jobFaults v) s).patrolLine = s.patrolLine := rfl
@[simp] theorem jobFaults_upd_retTimes (s : State) (v : List (Nat × Nat × List Nat)) : (applyUpd (.jobFaults v) s).retTimes = s.retTimes := rfl
@[simp] theorem jobFaults_upd_retired (s : State) (v : List (Nat × Nat × List Nat)) : (applyUpd (.jobFaults v) s).retired = s.retired := rfl
@[simp] theorem jobFaults_upd_dramSeq (s : State) (v : List (Nat × Nat × List Nat)) : (applyUpd (.jobFaults v) s).dramSeq = s.dramSeq := rfl
@[simp] theorem jobFaults_upd_trn (s : State) (v : List (Nat × Nat × List Nat)) : (applyUpd (.jobFaults v) s).trn = s.trn := rfl
@[simp] theorem jobFaults_upd_dqsAdj (s : State) (v : List (Nat × Nat × List Nat)) : (applyUpd (.jobFaults v) s).dqsAdj = s.dqsAdj := rfl
@[simp] theorem jobFaults_upd_dpol (s : State) (v : List (Nat × Nat × List Nat)) : (applyUpd (.jobFaults v) s).dpol = s.dpol := rfl
@[simp] theorem jobFaults_upd_idleAt (s : State) (v : List (Nat × Nat × List Nat)) : (applyUpd (.jobFaults v) s).idleAt = s.idleAt := rfl
@[simp] theorem jobFaults_upd_fitted (s : State) (v : List (Nat × Nat × List Nat)) : (applyUpd (.jobFaults v) s).fitted = s.fitted := rfl
@[simp] theorem jobFaults_upd_faultMsgs (s : State) (v : List (Nat × Nat × List Nat)) : (applyUpd (.jobFaults v) s).faultMsgs = s.faultMsgs := rfl
@[simp] theorem jobFaults_upd_out (s : State) (v : List (Nat × Nat × List Nat)) : (applyUpd (.jobFaults v) s).out = s.out := rfl
@[simp] theorem jobFaults_upd_lastRead (s : State) (v : List (Nat × Nat × List Nat)) : (applyUpd (.jobFaults v) s).lastRead = s.lastRead := rfl
@[simp] theorem jobFaults_upd_fwd (s : State) (v : List (Nat × Nat × List Nat)) : (applyUpd (.jobFaults v) s).fwd = s.fwd := rfl
@[simp] theorem jobFaults_upd_ethTx (s : State) (v : List (Nat × Nat × List Nat)) : (applyUpd (.jobFaults v) s).ethTx = s.ethTx := rfl
@[simp] theorem jobFaults_upd_ethHeadAt (s : State) (v : List (Nat × Nat × List Nat)) : (applyUpd (.jobFaults v) s).ethHeadAt = s.ethHeadAt := rfl
@[simp] theorem jobFaults_upd_canTx (s : State) (v : List (Nat × Nat × List Nat)) : (applyUpd (.jobFaults v) s).canTx = s.canTx := rfl
@[simp] theorem jobFaults_upd_pcieOut (s : State) (v : List (Nat × Nat × List Nat)) : (applyUpd (.jobFaults v) s).pcieOut = s.pcieOut := rfl
@[simp] theorem jobFaults_upd_pcieCfgRd (s : State) (v : List (Nat × Nat × List Nat)) : (applyUpd (.jobFaults v) s).pcieCfgRd = s.pcieCfgRd := rfl
@[simp] theorem jobFaults_upd_msix (s : State) (v : List (Nat × Nat × List Nat)) : (applyUpd (.jobFaults v) s).msix = s.msix := rfl
@[simp] theorem jobFaults_upd_ancs (s : State) (v : List (Nat × Nat × List Nat)) : (applyUpd (.jobFaults v) s).ancs = s.ancs := rfl
@[simp] theorem jobFaults_upd_trajArea (s : State) (v : List (Nat × Nat × List Nat)) : (applyUpd (.jobFaults v) s).trajArea = s.trajArea := rfl
@[simp] theorem jobFaults_upd_lidarIn (s : State) (v : List (Nat × Nat × List Nat)) : (applyUpd (.jobFaults v) s).lidarIn = s.lidarIn := rfl
@[simp] theorem jobFaults_upd_wheelIn (s : State) (v : List (Nat × Nat × List Nat)) : (applyUpd (.jobFaults v) s).wheelIn = s.wheelIn := rfl
@[simp] theorem jobFaults_upd_spiStepBusy (s : State) (v : List (Nat × Nat × List Nat)) : (applyUpd (.jobFaults v) s).spiStepBusy = s.spiStepBusy := rfl
@[simp] theorem jobFaults_upd_spiRec (s : State) (v : List (Nat × Nat × List Nat)) : (applyUpd (.jobFaults v) s).spiRec = s.spiRec := rfl
@[simp] theorem jobFaults_upd_spiStepCfg (s : State) (v : List (Nat × Nat × List Nat)) : (applyUpd (.jobFaults v) s).spiStepCfg = s.spiStepCfg := rfl
@[simp] theorem jobFaults_upd_ctxs (s : State) (v : List (Nat × Nat × List Nat)) : (applyUpd (.jobFaults v) s).ctxs = s.ctxs := rfl
@[simp] theorem jobFaults_upd_fsyOmit (s : State) (v : List (Nat × Nat × List Nat)) : (applyUpd (.jobFaults v) s).fsyOmit = s.fsyOmit := rfl
@[simp] theorem jobFaults_upd_fsyPulsed (s : State) (v : List (Nat × Nat × List Nat)) : (applyUpd (.jobFaults v) s).fsyPulsed = s.fsyPulsed := rfl
@[simp] theorem jobFaults_upd_supTasks (s : State) (v : List (Nat × Nat × List Nat)) : (applyUpd (.jobFaults v) s).supTasks = s.supTasks := rfl
@[simp] theorem jobFaults_upd_fus (s : State) (v : List (Nat × Nat × List Nat)) : (applyUpd (.jobFaults v) s).fus = s.fus := rfl
@[simp] theorem jobFaults_upd_fcons (s : State) (v : List (Nat × Nat × List Nat)) : (applyUpd (.jobFaults v) s).fcons = s.fcons := rfl
@[simp] theorem jobFaults_upd_shadow (s : State) (v : List (Nat × Nat × List Nat)) : (applyUpd (.jobFaults v) s).shadow = s.shadow := rfl
@[simp] theorem jobFaults_upd_trv (s : State) (v : List (Nat × Nat × List Nat)) : (applyUpd (.jobFaults v) s).trv = s.trv := rfl
@[simp] theorem jobFaults_upd_tlayers (s : State) (v : List (Nat × Nat × List Nat)) : (applyUpd (.jobFaults v) s).tlayers = s.tlayers := rfl
@[simp] theorem jobFaults_upd_jobFaults (s : State) (v : List (Nat × Nat × List Nat)) : (applyUpd (.jobFaults v) s).jobFaults = v := rfl
@[simp] theorem jobFaults_upd_unitLast (s : State) (v : List (Nat × Nat × List Nat)) : (applyUpd (.jobFaults v) s).unitLast = s.unitLast := rfl
@[simp] theorem jobFaults_upd_unitRst (s : State) (v : List (Nat × Nat × List Nat)) : (applyUpd (.jobFaults v) s).unitRst = s.unitRst := rfl
@[simp] theorem jobFaults_upd_xlink (s : State) (v : List (Nat × Nat × List Nat)) : (applyUpd (.jobFaults v) s).xlink = s.xlink := rfl
@[simp] theorem jobFaults_upd_trace (s : State) (v : List (Nat × Nat × List Nat)) : (applyUpd (.jobFaults v) s).trace = s.trace := rfl
@[simp] theorem jobFaults_upd_progs (s : State) (v : List (Nat × Nat × List Nat)) : (applyUpd (.jobFaults v) s).progs = s.progs := rfl
@[simp] theorem jobFaults_upd_rails (s : State) (v : List (Nat × Nat × List Nat)) : (applyUpd (.jobFaults v) s).rails = s.rails := rfl
@[simp] theorem jobFaults_upd_thm (s : State) (v : List (Nat × Nat × List Nat)) : (applyUpd (.jobFaults v) s).thm = s.thm := rfl
@[simp] theorem jobFaults_upd_bnd (s : State) (v : List (Nat × Nat × List Nat)) : (applyUpd (.jobFaults v) s).bnd = s.bnd := rfl
@[simp] theorem jobFaults_upd_thmTrip (s : State) (v : List (Nat × Nat × List Nat)) : (applyUpd (.jobFaults v) s).thmTrip = s.thmTrip := rfl
@[simp] theorem jobFaults_upd_flash (s : State) (v : List (Nat × Nat × List Nat)) : (applyUpd (.jobFaults v) s).flash = s.flash := rfl
@[simp] theorem jobFaults_upd_slots (s : State) (v : List (Nat × Nat × List Nat)) : (applyUpd (.jobFaults v) s).slots = s.slots := rfl
@[simp] theorem jobFaults_upd_stores (s : State) (v : List (Nat × Nat × List Nat)) : (applyUpd (.jobFaults v) s).stores = s.stores := rfl
@[simp] theorem jobFaults_upd_ids (s : State) (v : List (Nat × Nat × List Nat)) : (applyUpd (.jobFaults v) s).ids = s.ids := rfl
@[simp] theorem jobFaults_upd_boot (s : State) (v : List (Nat × Nat × List Nat)) : (applyUpd (.jobFaults v) s).boot = s.boot := rfl
@[simp] theorem jobFaults_upd_load (s : State) (v : List (Nat × Nat × List Nat)) : (applyUpd (.jobFaults v) s).load = s.load := rfl
@[simp] theorem jobFaults_upd_flt (s : State) (v : List (Nat × Nat × List Nat)) : (applyUpd (.jobFaults v) s).flt = s.flt := rfl
@[simp] theorem jobFaults_upd_mon (s : State) (v : List (Nat × Nat × List Nat)) : (applyUpd (.jobFaults v) s).mon = s.mon := rfl
@[simp] theorem unitLast_upd_pending (s : State) (k : Nat) (v : Option Nat) : (applyUpd (.unitLast k v) s).pending = s.pending := rfl
@[simp] theorem unitLast_upd_regs (s : State) (k : Nat) (v : Option Nat) : (applyUpd (.unitLast k v) s).regs = s.regs := rfl
@[simp] theorem unitLast_upd_mem (s : State) (k : Nat) (v : Option Nat) : (applyUpd (.unitLast k v) s).mem = s.mem := rfl
@[simp] theorem unitLast_upd_sram (s : State) (k : Nat) (v : Option Nat) : (applyUpd (.unitLast k v) s).sram = s.sram := rfl
@[simp] theorem unitLast_upd_time (s : State) (k : Nat) (v : Option Nat) : (applyUpd (.unitLast k v) s).time = s.time := rfl
@[simp] theorem unitLast_upd_timeFrac (s : State) (k : Nat) (v : Option Nat) : (applyUpd (.unitLast k v) s).timeFrac = s.timeFrac := rfl
@[simp] theorem unitLast_upd_freeCtr (s : State) (k : Nat) (v : Option Nat) : (applyUpd (.unitLast k v) s).freeCtr = s.freeCtr := rfl
@[simp] theorem unitLast_upd_hiLatch (s : State) (k : Nat) (v : Option Nat) : (applyUpd (.unitLast k v) s).hiLatch = s.hiLatch := rfl
@[simp] theorem unitLast_upd_timeSet (s : State) (k : Nat) (v : Option Nat) : (applyUpd (.unitLast k v) s).timeSet = s.timeSet := rfl
@[simp] theorem unitLast_upd_n0 (s : State) (k : Nat) (v : Option Nat) : (applyUpd (.unitLast k v) s).n0 = s.n0 := rfl
@[simp] theorem unitLast_upd_ticked (s : State) (k : Nat) (v : Option Nat) : (applyUpd (.unitLast k v) s).ticked = s.ticked := rfl
@[simp] theorem unitLast_upd_peerTickAt (s : State) (k : Nat) (v : Option Nat) : (applyUpd (.unitLast k v) s).peerTickAt = s.peerTickAt := rfl
@[simp] theorem unitLast_upd_guardPitch (s : State) (k : Nat) (v : Option Nat) : (applyUpd (.unitLast k v) s).guardPitch = s.guardPitch := rfl
@[simp] theorem unitLast_upd_diePitch (s : State) (k : Nat) (v : Option Nat) : (applyUpd (.unitLast k v) s).diePitch = s.diePitch := rfl
@[simp] theorem unitLast_upd_resps (s : State) (k : Nat) (v : Option Nat) : (applyUpd (.unitLast k v) s).resps = s.resps := rfl
@[simp] theorem unitLast_upd_txns (s : State) (k : Nat) (v : Option Nat) : (applyUpd (.unitLast k v) s).txns = s.txns := rfl
@[simp] theorem unitLast_upd_nextTag (s : State) (k : Nat) (v : Option Nat) : (applyUpd (.unitLast k v) s).nextTag = s.nextTag := rfl
@[simp] theorem unitLast_upd_lateTags (s : State) (k : Nat) (v : Option Nat) : (applyUpd (.unitLast k v) s).lateTags = s.lateTags := rfl
@[simp] theorem unitLast_upd_ports (s : State) (k : Nat) (v : Option Nat) : (applyUpd (.unitLast k v) s).ports = s.ports := rfl
@[simp] theorem unitLast_upd_threads (s : State) (k : Nat) (v : Option Nat) : (applyUpd (.unitLast k v) s).threads = s.threads := rfl
@[simp] theorem unitLast_upd_cores (s : State) (k : Nat) (v : Option Nat) : (applyUpd (.unitLast k v) s).cores = s.cores := rfl
@[simp] theorem unitLast_upd_engines (s : State) (k : Nat) (v : Option Nat) : (applyUpd (.unitLast k v) s).engines = s.engines := rfl
@[simp] theorem unitLast_upd_held (s : State) (k : Nat) (v : Option Nat) : (applyUpd (.unitLast k v) s).held = s.held := rfl
@[simp] theorem unitLast_upd_watches (s : State) (k : Nat) (v : Option Nat) : (applyUpd (.unitLast k v) s).watches = s.watches := rfl
@[simp] theorem unitLast_upd_watchMsgs (s : State) (k : Nat) (v : Option Nat) : (applyUpd (.unitLast k v) s).watchMsgs = s.watchMsgs := rfl
@[simp] theorem unitLast_upd_bankHeld (s : State) (k : Nat) (v : Option Nat) : (applyUpd (.unitLast k v) s).bankHeld = s.bankHeld := rfl
@[simp] theorem unitLast_upd_bankTarget (s : State) (k : Nat) (v : Option Nat) : (applyUpd (.unitLast k v) s).bankTarget = s.bankTarget := rfl
@[simp] theorem unitLast_upd_ecc (s : State) (k : Nat) (v : Option Nat) : (applyUpd (.unitLast k v) s).ecc = s.ecc := rfl
@[simp] theorem unitLast_upd_lineEcc (s : State) (k : Nat) (v : Option Nat) : (applyUpd (.unitLast k v) s).lineEcc = s.lineEcc := rfl
@[simp] theorem unitLast_upd_wbPending (s : State) (k : Nat) (v : Option Nat) : (applyUpd (.unitLast k v) s).wbPending = s.wbPending := rfl
@[simp] theorem unitLast_upd_scrubPos (s : State) (k : Nat) (v : Option Nat) : (applyUpd (.unitLast k v) s).scrubPos = s.scrubPos := rfl
@[simp] theorem unitLast_upd_refusals (s : State) (k : Nat) (v : Option Nat) : (applyUpd (.unitLast k v) s).refusals = s.refusals := rfl
@[simp] theorem unitLast_upd_firstRefusal (s : State) (k : Nat) (v : Option Nat) : (applyUpd (.unitLast k v) s).firstRefusal = s.firstRefusal := rfl
@[simp] theorem unitLast_upd_boxQueue (s : State) (k : Nat) (v : Option Nat) : (applyUpd (.unitLast k v) s).boxQueue = s.boxQueue := rfl
@[simp] theorem unitLast_upd_boxRun (s : State) (k : Nat) (v : Option Nat) : (applyUpd (.unitLast k v) s).boxRun = s.boxRun := rfl
@[simp] theorem unitLast_upd_kvs (s : State) (k : Nat) (v : Option Nat) : (applyUpd (.unitLast k v) s).kvs = s.kvs := rfl
@[simp] theorem unitLast_upd_parts (s : State) (k : Nat) (v : Option Nat) : (applyUpd (.unitLast k v) s).parts = s.parts := rfl
@[simp] theorem unitLast_upd_dmas (s : State) (k : Nat) (v : Option Nat) : (applyUpd (.unitLast k v) s).dmas = s.dmas := rfl
@[simp] theorem unitLast_upd_regReqs (s : State) (k : Nat) (v : Option Nat) : (applyUpd (.unitLast k v) s).regReqs = s.regReqs := rfl
@[simp] theorem unitLast_upd_regPorts (s : State) (k : Nat) (v : Option Nat) : (applyUpd (.unitLast k v) s).regPorts = s.regPorts := rfl
@[simp] theorem unitLast_upd_subchs (s : State) (k : Nat) (v : Option Nat) : (applyUpd (.unitLast k v) s).subchs = s.subchs := rfl
@[simp] theorem unitLast_upd_trackers (s : State) (k : Nat) (v : Option Nat) : (applyUpd (.unitLast k v) s).trackers = s.trackers := rfl
@[simp] theorem unitLast_upd_throttles (s : State) (k : Nat) (v : Option Nat) : (applyUpd (.unitLast k v) s).throttles = s.throttles := rfl
@[simp] theorem unitLast_upd_errRing (s : State) (k : Nat) (v : Option Nat) : (applyUpd (.unitLast k v) s).errRing = s.errRing := rfl
@[simp] theorem unitLast_upd_errRingOvf (s : State) (k : Nat) (v : Option Nat) : (applyUpd (.unitLast k v) s).errRingOvf = s.errRingOvf := rfl
@[simp] theorem unitLast_upd_patrolLine (s : State) (k : Nat) (v : Option Nat) : (applyUpd (.unitLast k v) s).patrolLine = s.patrolLine := rfl
@[simp] theorem unitLast_upd_retTimes (s : State) (k : Nat) (v : Option Nat) : (applyUpd (.unitLast k v) s).retTimes = s.retTimes := rfl
@[simp] theorem unitLast_upd_retired (s : State) (k : Nat) (v : Option Nat) : (applyUpd (.unitLast k v) s).retired = s.retired := rfl
@[simp] theorem unitLast_upd_dramSeq (s : State) (k : Nat) (v : Option Nat) : (applyUpd (.unitLast k v) s).dramSeq = s.dramSeq := rfl
@[simp] theorem unitLast_upd_trn (s : State) (k : Nat) (v : Option Nat) : (applyUpd (.unitLast k v) s).trn = s.trn := rfl
@[simp] theorem unitLast_upd_dqsAdj (s : State) (k : Nat) (v : Option Nat) : (applyUpd (.unitLast k v) s).dqsAdj = s.dqsAdj := rfl
@[simp] theorem unitLast_upd_dpol (s : State) (k : Nat) (v : Option Nat) : (applyUpd (.unitLast k v) s).dpol = s.dpol := rfl
@[simp] theorem unitLast_upd_idleAt (s : State) (k : Nat) (v : Option Nat) : (applyUpd (.unitLast k v) s).idleAt = s.idleAt := rfl
@[simp] theorem unitLast_upd_fitted (s : State) (k : Nat) (v : Option Nat) : (applyUpd (.unitLast k v) s).fitted = s.fitted := rfl
@[simp] theorem unitLast_upd_faultMsgs (s : State) (k : Nat) (v : Option Nat) : (applyUpd (.unitLast k v) s).faultMsgs = s.faultMsgs := rfl
@[simp] theorem unitLast_upd_out (s : State) (k : Nat) (v : Option Nat) : (applyUpd (.unitLast k v) s).out = s.out := rfl
@[simp] theorem unitLast_upd_lastRead (s : State) (k : Nat) (v : Option Nat) : (applyUpd (.unitLast k v) s).lastRead = s.lastRead := rfl
@[simp] theorem unitLast_upd_fwd (s : State) (k : Nat) (v : Option Nat) : (applyUpd (.unitLast k v) s).fwd = s.fwd := rfl
@[simp] theorem unitLast_upd_ethTx (s : State) (k : Nat) (v : Option Nat) : (applyUpd (.unitLast k v) s).ethTx = s.ethTx := rfl
@[simp] theorem unitLast_upd_ethHeadAt (s : State) (k : Nat) (v : Option Nat) : (applyUpd (.unitLast k v) s).ethHeadAt = s.ethHeadAt := rfl
@[simp] theorem unitLast_upd_canTx (s : State) (k : Nat) (v : Option Nat) : (applyUpd (.unitLast k v) s).canTx = s.canTx := rfl
@[simp] theorem unitLast_upd_pcieOut (s : State) (k : Nat) (v : Option Nat) : (applyUpd (.unitLast k v) s).pcieOut = s.pcieOut := rfl
@[simp] theorem unitLast_upd_pcieCfgRd (s : State) (k : Nat) (v : Option Nat) : (applyUpd (.unitLast k v) s).pcieCfgRd = s.pcieCfgRd := rfl
@[simp] theorem unitLast_upd_msix (s : State) (k : Nat) (v : Option Nat) : (applyUpd (.unitLast k v) s).msix = s.msix := rfl
@[simp] theorem unitLast_upd_ancs (s : State) (k : Nat) (v : Option Nat) : (applyUpd (.unitLast k v) s).ancs = s.ancs := rfl
@[simp] theorem unitLast_upd_trajArea (s : State) (k : Nat) (v : Option Nat) : (applyUpd (.unitLast k v) s).trajArea = s.trajArea := rfl
@[simp] theorem unitLast_upd_lidarIn (s : State) (k : Nat) (v : Option Nat) : (applyUpd (.unitLast k v) s).lidarIn = s.lidarIn := rfl
@[simp] theorem unitLast_upd_wheelIn (s : State) (k : Nat) (v : Option Nat) : (applyUpd (.unitLast k v) s).wheelIn = s.wheelIn := rfl
@[simp] theorem unitLast_upd_spiStepBusy (s : State) (k : Nat) (v : Option Nat) : (applyUpd (.unitLast k v) s).spiStepBusy = s.spiStepBusy := rfl
@[simp] theorem unitLast_upd_spiRec (s : State) (k : Nat) (v : Option Nat) : (applyUpd (.unitLast k v) s).spiRec = s.spiRec := rfl
@[simp] theorem unitLast_upd_spiStepCfg (s : State) (k : Nat) (v : Option Nat) : (applyUpd (.unitLast k v) s).spiStepCfg = s.spiStepCfg := rfl
@[simp] theorem unitLast_upd_ctxs (s : State) (k : Nat) (v : Option Nat) : (applyUpd (.unitLast k v) s).ctxs = s.ctxs := rfl
@[simp] theorem unitLast_upd_fsyOmit (s : State) (k : Nat) (v : Option Nat) : (applyUpd (.unitLast k v) s).fsyOmit = s.fsyOmit := rfl
@[simp] theorem unitLast_upd_fsyPulsed (s : State) (k : Nat) (v : Option Nat) : (applyUpd (.unitLast k v) s).fsyPulsed = s.fsyPulsed := rfl
@[simp] theorem unitLast_upd_supTasks (s : State) (k : Nat) (v : Option Nat) : (applyUpd (.unitLast k v) s).supTasks = s.supTasks := rfl
@[simp] theorem unitLast_upd_fus (s : State) (k : Nat) (v : Option Nat) : (applyUpd (.unitLast k v) s).fus = s.fus := rfl
@[simp] theorem unitLast_upd_fcons (s : State) (k : Nat) (v : Option Nat) : (applyUpd (.unitLast k v) s).fcons = s.fcons := rfl
@[simp] theorem unitLast_upd_shadow (s : State) (k : Nat) (v : Option Nat) : (applyUpd (.unitLast k v) s).shadow = s.shadow := rfl
@[simp] theorem unitLast_upd_trv (s : State) (k : Nat) (v : Option Nat) : (applyUpd (.unitLast k v) s).trv = s.trv := rfl
@[simp] theorem unitLast_upd_tlayers (s : State) (k : Nat) (v : Option Nat) : (applyUpd (.unitLast k v) s).tlayers = s.tlayers := rfl
@[simp] theorem unitLast_upd_jobFaults (s : State) (k : Nat) (v : Option Nat) : (applyUpd (.unitLast k v) s).jobFaults = s.jobFaults := rfl
@[simp] theorem unitLast_upd_unitLast (s : State) (k : Nat) (v : Option Nat) : (applyUpd (.unitLast k v) s).unitLast = tabSet hiNoneN s.unitLast k v := rfl
@[simp] theorem unitLast_upd_unitRst (s : State) (k : Nat) (v : Option Nat) : (applyUpd (.unitLast k v) s).unitRst = s.unitRst := rfl
@[simp] theorem unitLast_upd_xlink (s : State) (k : Nat) (v : Option Nat) : (applyUpd (.unitLast k v) s).xlink = s.xlink := rfl
@[simp] theorem unitLast_upd_trace (s : State) (k : Nat) (v : Option Nat) : (applyUpd (.unitLast k v) s).trace = s.trace := rfl
@[simp] theorem unitLast_upd_progs (s : State) (k : Nat) (v : Option Nat) : (applyUpd (.unitLast k v) s).progs = s.progs := rfl
@[simp] theorem unitLast_upd_rails (s : State) (k : Nat) (v : Option Nat) : (applyUpd (.unitLast k v) s).rails = s.rails := rfl
@[simp] theorem unitLast_upd_thm (s : State) (k : Nat) (v : Option Nat) : (applyUpd (.unitLast k v) s).thm = s.thm := rfl
@[simp] theorem unitLast_upd_bnd (s : State) (k : Nat) (v : Option Nat) : (applyUpd (.unitLast k v) s).bnd = s.bnd := rfl
@[simp] theorem unitLast_upd_thmTrip (s : State) (k : Nat) (v : Option Nat) : (applyUpd (.unitLast k v) s).thmTrip = s.thmTrip := rfl
@[simp] theorem unitLast_upd_flash (s : State) (k : Nat) (v : Option Nat) : (applyUpd (.unitLast k v) s).flash = s.flash := rfl
@[simp] theorem unitLast_upd_slots (s : State) (k : Nat) (v : Option Nat) : (applyUpd (.unitLast k v) s).slots = s.slots := rfl
@[simp] theorem unitLast_upd_stores (s : State) (k : Nat) (v : Option Nat) : (applyUpd (.unitLast k v) s).stores = s.stores := rfl
@[simp] theorem unitLast_upd_ids (s : State) (k : Nat) (v : Option Nat) : (applyUpd (.unitLast k v) s).ids = s.ids := rfl
@[simp] theorem unitLast_upd_boot (s : State) (k : Nat) (v : Option Nat) : (applyUpd (.unitLast k v) s).boot = s.boot := rfl
@[simp] theorem unitLast_upd_load (s : State) (k : Nat) (v : Option Nat) : (applyUpd (.unitLast k v) s).load = s.load := rfl
@[simp] theorem unitLast_upd_flt (s : State) (k : Nat) (v : Option Nat) : (applyUpd (.unitLast k v) s).flt = s.flt := rfl
@[simp] theorem unitLast_upd_mon (s : State) (k : Nat) (v : Option Nat) : (applyUpd (.unitLast k v) s).mon = s.mon := rfl
@[simp] theorem unitRst_upd_pending (s : State) (v : List (Nat × List Nat × Option Nat)) : (applyUpd (.unitRst v) s).pending = s.pending := rfl
@[simp] theorem unitRst_upd_regs (s : State) (v : List (Nat × List Nat × Option Nat)) : (applyUpd (.unitRst v) s).regs = s.regs := rfl
@[simp] theorem unitRst_upd_mem (s : State) (v : List (Nat × List Nat × Option Nat)) : (applyUpd (.unitRst v) s).mem = s.mem := rfl
@[simp] theorem unitRst_upd_sram (s : State) (v : List (Nat × List Nat × Option Nat)) : (applyUpd (.unitRst v) s).sram = s.sram := rfl
@[simp] theorem unitRst_upd_time (s : State) (v : List (Nat × List Nat × Option Nat)) : (applyUpd (.unitRst v) s).time = s.time := rfl
@[simp] theorem unitRst_upd_timeFrac (s : State) (v : List (Nat × List Nat × Option Nat)) : (applyUpd (.unitRst v) s).timeFrac = s.timeFrac := rfl
@[simp] theorem unitRst_upd_freeCtr (s : State) (v : List (Nat × List Nat × Option Nat)) : (applyUpd (.unitRst v) s).freeCtr = s.freeCtr := rfl
@[simp] theorem unitRst_upd_hiLatch (s : State) (v : List (Nat × List Nat × Option Nat)) : (applyUpd (.unitRst v) s).hiLatch = s.hiLatch := rfl
@[simp] theorem unitRst_upd_timeSet (s : State) (v : List (Nat × List Nat × Option Nat)) : (applyUpd (.unitRst v) s).timeSet = s.timeSet := rfl
@[simp] theorem unitRst_upd_n0 (s : State) (v : List (Nat × List Nat × Option Nat)) : (applyUpd (.unitRst v) s).n0 = s.n0 := rfl
@[simp] theorem unitRst_upd_ticked (s : State) (v : List (Nat × List Nat × Option Nat)) : (applyUpd (.unitRst v) s).ticked = s.ticked := rfl
@[simp] theorem unitRst_upd_peerTickAt (s : State) (v : List (Nat × List Nat × Option Nat)) : (applyUpd (.unitRst v) s).peerTickAt = s.peerTickAt := rfl
@[simp] theorem unitRst_upd_guardPitch (s : State) (v : List (Nat × List Nat × Option Nat)) : (applyUpd (.unitRst v) s).guardPitch = s.guardPitch := rfl
@[simp] theorem unitRst_upd_diePitch (s : State) (v : List (Nat × List Nat × Option Nat)) : (applyUpd (.unitRst v) s).diePitch = s.diePitch := rfl
@[simp] theorem unitRst_upd_resps (s : State) (v : List (Nat × List Nat × Option Nat)) : (applyUpd (.unitRst v) s).resps = s.resps := rfl
@[simp] theorem unitRst_upd_txns (s : State) (v : List (Nat × List Nat × Option Nat)) : (applyUpd (.unitRst v) s).txns = s.txns := rfl
@[simp] theorem unitRst_upd_nextTag (s : State) (v : List (Nat × List Nat × Option Nat)) : (applyUpd (.unitRst v) s).nextTag = s.nextTag := rfl
@[simp] theorem unitRst_upd_lateTags (s : State) (v : List (Nat × List Nat × Option Nat)) : (applyUpd (.unitRst v) s).lateTags = s.lateTags := rfl
@[simp] theorem unitRst_upd_ports (s : State) (v : List (Nat × List Nat × Option Nat)) : (applyUpd (.unitRst v) s).ports = s.ports := rfl
@[simp] theorem unitRst_upd_threads (s : State) (v : List (Nat × List Nat × Option Nat)) : (applyUpd (.unitRst v) s).threads = s.threads := rfl
@[simp] theorem unitRst_upd_cores (s : State) (v : List (Nat × List Nat × Option Nat)) : (applyUpd (.unitRst v) s).cores = s.cores := rfl
@[simp] theorem unitRst_upd_engines (s : State) (v : List (Nat × List Nat × Option Nat)) : (applyUpd (.unitRst v) s).engines = s.engines := rfl
@[simp] theorem unitRst_upd_held (s : State) (v : List (Nat × List Nat × Option Nat)) : (applyUpd (.unitRst v) s).held = s.held := rfl
@[simp] theorem unitRst_upd_watches (s : State) (v : List (Nat × List Nat × Option Nat)) : (applyUpd (.unitRst v) s).watches = s.watches := rfl
@[simp] theorem unitRst_upd_watchMsgs (s : State) (v : List (Nat × List Nat × Option Nat)) : (applyUpd (.unitRst v) s).watchMsgs = s.watchMsgs := rfl
@[simp] theorem unitRst_upd_bankHeld (s : State) (v : List (Nat × List Nat × Option Nat)) : (applyUpd (.unitRst v) s).bankHeld = s.bankHeld := rfl
@[simp] theorem unitRst_upd_bankTarget (s : State) (v : List (Nat × List Nat × Option Nat)) : (applyUpd (.unitRst v) s).bankTarget = s.bankTarget := rfl
@[simp] theorem unitRst_upd_ecc (s : State) (v : List (Nat × List Nat × Option Nat)) : (applyUpd (.unitRst v) s).ecc = s.ecc := rfl
@[simp] theorem unitRst_upd_lineEcc (s : State) (v : List (Nat × List Nat × Option Nat)) : (applyUpd (.unitRst v) s).lineEcc = s.lineEcc := rfl
@[simp] theorem unitRst_upd_wbPending (s : State) (v : List (Nat × List Nat × Option Nat)) : (applyUpd (.unitRst v) s).wbPending = s.wbPending := rfl
@[simp] theorem unitRst_upd_scrubPos (s : State) (v : List (Nat × List Nat × Option Nat)) : (applyUpd (.unitRst v) s).scrubPos = s.scrubPos := rfl
@[simp] theorem unitRst_upd_refusals (s : State) (v : List (Nat × List Nat × Option Nat)) : (applyUpd (.unitRst v) s).refusals = s.refusals := rfl
@[simp] theorem unitRst_upd_firstRefusal (s : State) (v : List (Nat × List Nat × Option Nat)) : (applyUpd (.unitRst v) s).firstRefusal = s.firstRefusal := rfl
@[simp] theorem unitRst_upd_boxQueue (s : State) (v : List (Nat × List Nat × Option Nat)) : (applyUpd (.unitRst v) s).boxQueue = s.boxQueue := rfl
@[simp] theorem unitRst_upd_boxRun (s : State) (v : List (Nat × List Nat × Option Nat)) : (applyUpd (.unitRst v) s).boxRun = s.boxRun := rfl
@[simp] theorem unitRst_upd_kvs (s : State) (v : List (Nat × List Nat × Option Nat)) : (applyUpd (.unitRst v) s).kvs = s.kvs := rfl
@[simp] theorem unitRst_upd_parts (s : State) (v : List (Nat × List Nat × Option Nat)) : (applyUpd (.unitRst v) s).parts = s.parts := rfl
@[simp] theorem unitRst_upd_dmas (s : State) (v : List (Nat × List Nat × Option Nat)) : (applyUpd (.unitRst v) s).dmas = s.dmas := rfl
@[simp] theorem unitRst_upd_regReqs (s : State) (v : List (Nat × List Nat × Option Nat)) : (applyUpd (.unitRst v) s).regReqs = s.regReqs := rfl
@[simp] theorem unitRst_upd_regPorts (s : State) (v : List (Nat × List Nat × Option Nat)) : (applyUpd (.unitRst v) s).regPorts = s.regPorts := rfl
@[simp] theorem unitRst_upd_subchs (s : State) (v : List (Nat × List Nat × Option Nat)) : (applyUpd (.unitRst v) s).subchs = s.subchs := rfl
@[simp] theorem unitRst_upd_trackers (s : State) (v : List (Nat × List Nat × Option Nat)) : (applyUpd (.unitRst v) s).trackers = s.trackers := rfl
@[simp] theorem unitRst_upd_throttles (s : State) (v : List (Nat × List Nat × Option Nat)) : (applyUpd (.unitRst v) s).throttles = s.throttles := rfl
@[simp] theorem unitRst_upd_errRing (s : State) (v : List (Nat × List Nat × Option Nat)) : (applyUpd (.unitRst v) s).errRing = s.errRing := rfl
@[simp] theorem unitRst_upd_errRingOvf (s : State) (v : List (Nat × List Nat × Option Nat)) : (applyUpd (.unitRst v) s).errRingOvf = s.errRingOvf := rfl
@[simp] theorem unitRst_upd_patrolLine (s : State) (v : List (Nat × List Nat × Option Nat)) : (applyUpd (.unitRst v) s).patrolLine = s.patrolLine := rfl
@[simp] theorem unitRst_upd_retTimes (s : State) (v : List (Nat × List Nat × Option Nat)) : (applyUpd (.unitRst v) s).retTimes = s.retTimes := rfl
@[simp] theorem unitRst_upd_retired (s : State) (v : List (Nat × List Nat × Option Nat)) : (applyUpd (.unitRst v) s).retired = s.retired := rfl
@[simp] theorem unitRst_upd_dramSeq (s : State) (v : List (Nat × List Nat × Option Nat)) : (applyUpd (.unitRst v) s).dramSeq = s.dramSeq := rfl
@[simp] theorem unitRst_upd_trn (s : State) (v : List (Nat × List Nat × Option Nat)) : (applyUpd (.unitRst v) s).trn = s.trn := rfl
@[simp] theorem unitRst_upd_dqsAdj (s : State) (v : List (Nat × List Nat × Option Nat)) : (applyUpd (.unitRst v) s).dqsAdj = s.dqsAdj := rfl
@[simp] theorem unitRst_upd_dpol (s : State) (v : List (Nat × List Nat × Option Nat)) : (applyUpd (.unitRst v) s).dpol = s.dpol := rfl
@[simp] theorem unitRst_upd_idleAt (s : State) (v : List (Nat × List Nat × Option Nat)) : (applyUpd (.unitRst v) s).idleAt = s.idleAt := rfl
@[simp] theorem unitRst_upd_fitted (s : State) (v : List (Nat × List Nat × Option Nat)) : (applyUpd (.unitRst v) s).fitted = s.fitted := rfl
@[simp] theorem unitRst_upd_faultMsgs (s : State) (v : List (Nat × List Nat × Option Nat)) : (applyUpd (.unitRst v) s).faultMsgs = s.faultMsgs := rfl
@[simp] theorem unitRst_upd_out (s : State) (v : List (Nat × List Nat × Option Nat)) : (applyUpd (.unitRst v) s).out = s.out := rfl
@[simp] theorem unitRst_upd_lastRead (s : State) (v : List (Nat × List Nat × Option Nat)) : (applyUpd (.unitRst v) s).lastRead = s.lastRead := rfl
@[simp] theorem unitRst_upd_fwd (s : State) (v : List (Nat × List Nat × Option Nat)) : (applyUpd (.unitRst v) s).fwd = s.fwd := rfl
@[simp] theorem unitRst_upd_ethTx (s : State) (v : List (Nat × List Nat × Option Nat)) : (applyUpd (.unitRst v) s).ethTx = s.ethTx := rfl
@[simp] theorem unitRst_upd_ethHeadAt (s : State) (v : List (Nat × List Nat × Option Nat)) : (applyUpd (.unitRst v) s).ethHeadAt = s.ethHeadAt := rfl
@[simp] theorem unitRst_upd_canTx (s : State) (v : List (Nat × List Nat × Option Nat)) : (applyUpd (.unitRst v) s).canTx = s.canTx := rfl
@[simp] theorem unitRst_upd_pcieOut (s : State) (v : List (Nat × List Nat × Option Nat)) : (applyUpd (.unitRst v) s).pcieOut = s.pcieOut := rfl
@[simp] theorem unitRst_upd_pcieCfgRd (s : State) (v : List (Nat × List Nat × Option Nat)) : (applyUpd (.unitRst v) s).pcieCfgRd = s.pcieCfgRd := rfl
@[simp] theorem unitRst_upd_msix (s : State) (v : List (Nat × List Nat × Option Nat)) : (applyUpd (.unitRst v) s).msix = s.msix := rfl
@[simp] theorem unitRst_upd_ancs (s : State) (v : List (Nat × List Nat × Option Nat)) : (applyUpd (.unitRst v) s).ancs = s.ancs := rfl
@[simp] theorem unitRst_upd_trajArea (s : State) (v : List (Nat × List Nat × Option Nat)) : (applyUpd (.unitRst v) s).trajArea = s.trajArea := rfl
@[simp] theorem unitRst_upd_lidarIn (s : State) (v : List (Nat × List Nat × Option Nat)) : (applyUpd (.unitRst v) s).lidarIn = s.lidarIn := rfl
@[simp] theorem unitRst_upd_wheelIn (s : State) (v : List (Nat × List Nat × Option Nat)) : (applyUpd (.unitRst v) s).wheelIn = s.wheelIn := rfl
@[simp] theorem unitRst_upd_spiStepBusy (s : State) (v : List (Nat × List Nat × Option Nat)) : (applyUpd (.unitRst v) s).spiStepBusy = s.spiStepBusy := rfl
@[simp] theorem unitRst_upd_spiRec (s : State) (v : List (Nat × List Nat × Option Nat)) : (applyUpd (.unitRst v) s).spiRec = s.spiRec := rfl
@[simp] theorem unitRst_upd_spiStepCfg (s : State) (v : List (Nat × List Nat × Option Nat)) : (applyUpd (.unitRst v) s).spiStepCfg = s.spiStepCfg := rfl
@[simp] theorem unitRst_upd_ctxs (s : State) (v : List (Nat × List Nat × Option Nat)) : (applyUpd (.unitRst v) s).ctxs = s.ctxs := rfl
@[simp] theorem unitRst_upd_fsyOmit (s : State) (v : List (Nat × List Nat × Option Nat)) : (applyUpd (.unitRst v) s).fsyOmit = s.fsyOmit := rfl
@[simp] theorem unitRst_upd_fsyPulsed (s : State) (v : List (Nat × List Nat × Option Nat)) : (applyUpd (.unitRst v) s).fsyPulsed = s.fsyPulsed := rfl
@[simp] theorem unitRst_upd_supTasks (s : State) (v : List (Nat × List Nat × Option Nat)) : (applyUpd (.unitRst v) s).supTasks = s.supTasks := rfl
@[simp] theorem unitRst_upd_fus (s : State) (v : List (Nat × List Nat × Option Nat)) : (applyUpd (.unitRst v) s).fus = s.fus := rfl
@[simp] theorem unitRst_upd_fcons (s : State) (v : List (Nat × List Nat × Option Nat)) : (applyUpd (.unitRst v) s).fcons = s.fcons := rfl
@[simp] theorem unitRst_upd_shadow (s : State) (v : List (Nat × List Nat × Option Nat)) : (applyUpd (.unitRst v) s).shadow = s.shadow := rfl
@[simp] theorem unitRst_upd_trv (s : State) (v : List (Nat × List Nat × Option Nat)) : (applyUpd (.unitRst v) s).trv = s.trv := rfl
@[simp] theorem unitRst_upd_tlayers (s : State) (v : List (Nat × List Nat × Option Nat)) : (applyUpd (.unitRst v) s).tlayers = s.tlayers := rfl
@[simp] theorem unitRst_upd_jobFaults (s : State) (v : List (Nat × List Nat × Option Nat)) : (applyUpd (.unitRst v) s).jobFaults = s.jobFaults := rfl
@[simp] theorem unitRst_upd_unitLast (s : State) (v : List (Nat × List Nat × Option Nat)) : (applyUpd (.unitRst v) s).unitLast = s.unitLast := rfl
@[simp] theorem unitRst_upd_unitRst (s : State) (v : List (Nat × List Nat × Option Nat)) : (applyUpd (.unitRst v) s).unitRst = v := rfl
@[simp] theorem unitRst_upd_xlink (s : State) (v : List (Nat × List Nat × Option Nat)) : (applyUpd (.unitRst v) s).xlink = s.xlink := rfl
@[simp] theorem unitRst_upd_trace (s : State) (v : List (Nat × List Nat × Option Nat)) : (applyUpd (.unitRst v) s).trace = s.trace := rfl
@[simp] theorem unitRst_upd_progs (s : State) (v : List (Nat × List Nat × Option Nat)) : (applyUpd (.unitRst v) s).progs = s.progs := rfl
@[simp] theorem unitRst_upd_rails (s : State) (v : List (Nat × List Nat × Option Nat)) : (applyUpd (.unitRst v) s).rails = s.rails := rfl
@[simp] theorem unitRst_upd_thm (s : State) (v : List (Nat × List Nat × Option Nat)) : (applyUpd (.unitRst v) s).thm = s.thm := rfl
@[simp] theorem unitRst_upd_bnd (s : State) (v : List (Nat × List Nat × Option Nat)) : (applyUpd (.unitRst v) s).bnd = s.bnd := rfl
@[simp] theorem unitRst_upd_thmTrip (s : State) (v : List (Nat × List Nat × Option Nat)) : (applyUpd (.unitRst v) s).thmTrip = s.thmTrip := rfl
@[simp] theorem unitRst_upd_flash (s : State) (v : List (Nat × List Nat × Option Nat)) : (applyUpd (.unitRst v) s).flash = s.flash := rfl
@[simp] theorem unitRst_upd_slots (s : State) (v : List (Nat × List Nat × Option Nat)) : (applyUpd (.unitRst v) s).slots = s.slots := rfl
@[simp] theorem unitRst_upd_stores (s : State) (v : List (Nat × List Nat × Option Nat)) : (applyUpd (.unitRst v) s).stores = s.stores := rfl
@[simp] theorem unitRst_upd_ids (s : State) (v : List (Nat × List Nat × Option Nat)) : (applyUpd (.unitRst v) s).ids = s.ids := rfl
@[simp] theorem unitRst_upd_boot (s : State) (v : List (Nat × List Nat × Option Nat)) : (applyUpd (.unitRst v) s).boot = s.boot := rfl
@[simp] theorem unitRst_upd_load (s : State) (v : List (Nat × List Nat × Option Nat)) : (applyUpd (.unitRst v) s).load = s.load := rfl
@[simp] theorem unitRst_upd_flt (s : State) (v : List (Nat × List Nat × Option Nat)) : (applyUpd (.unitRst v) s).flt = s.flt := rfl
@[simp] theorem unitRst_upd_mon (s : State) (v : List (Nat × List Nat × Option Nat)) : (applyUpd (.unitRst v) s).mon = s.mon := rfl
@[simp] theorem xlink_upd_pending (s : State) (v : List (Nat × XMsg)) : (applyUpd (.xlink v) s).pending = s.pending := rfl
@[simp] theorem xlink_upd_regs (s : State) (v : List (Nat × XMsg)) : (applyUpd (.xlink v) s).regs = s.regs := rfl
@[simp] theorem xlink_upd_mem (s : State) (v : List (Nat × XMsg)) : (applyUpd (.xlink v) s).mem = s.mem := rfl
@[simp] theorem xlink_upd_sram (s : State) (v : List (Nat × XMsg)) : (applyUpd (.xlink v) s).sram = s.sram := rfl
@[simp] theorem xlink_upd_time (s : State) (v : List (Nat × XMsg)) : (applyUpd (.xlink v) s).time = s.time := rfl
@[simp] theorem xlink_upd_timeFrac (s : State) (v : List (Nat × XMsg)) : (applyUpd (.xlink v) s).timeFrac = s.timeFrac := rfl
@[simp] theorem xlink_upd_freeCtr (s : State) (v : List (Nat × XMsg)) : (applyUpd (.xlink v) s).freeCtr = s.freeCtr := rfl
@[simp] theorem xlink_upd_hiLatch (s : State) (v : List (Nat × XMsg)) : (applyUpd (.xlink v) s).hiLatch = s.hiLatch := rfl
@[simp] theorem xlink_upd_timeSet (s : State) (v : List (Nat × XMsg)) : (applyUpd (.xlink v) s).timeSet = s.timeSet := rfl
@[simp] theorem xlink_upd_n0 (s : State) (v : List (Nat × XMsg)) : (applyUpd (.xlink v) s).n0 = s.n0 := rfl
@[simp] theorem xlink_upd_ticked (s : State) (v : List (Nat × XMsg)) : (applyUpd (.xlink v) s).ticked = s.ticked := rfl
@[simp] theorem xlink_upd_peerTickAt (s : State) (v : List (Nat × XMsg)) : (applyUpd (.xlink v) s).peerTickAt = s.peerTickAt := rfl
@[simp] theorem xlink_upd_guardPitch (s : State) (v : List (Nat × XMsg)) : (applyUpd (.xlink v) s).guardPitch = s.guardPitch := rfl
@[simp] theorem xlink_upd_diePitch (s : State) (v : List (Nat × XMsg)) : (applyUpd (.xlink v) s).diePitch = s.diePitch := rfl
@[simp] theorem xlink_upd_resps (s : State) (v : List (Nat × XMsg)) : (applyUpd (.xlink v) s).resps = s.resps := rfl
@[simp] theorem xlink_upd_txns (s : State) (v : List (Nat × XMsg)) : (applyUpd (.xlink v) s).txns = s.txns := rfl
@[simp] theorem xlink_upd_nextTag (s : State) (v : List (Nat × XMsg)) : (applyUpd (.xlink v) s).nextTag = s.nextTag := rfl
@[simp] theorem xlink_upd_lateTags (s : State) (v : List (Nat × XMsg)) : (applyUpd (.xlink v) s).lateTags = s.lateTags := rfl
@[simp] theorem xlink_upd_ports (s : State) (v : List (Nat × XMsg)) : (applyUpd (.xlink v) s).ports = s.ports := rfl
@[simp] theorem xlink_upd_threads (s : State) (v : List (Nat × XMsg)) : (applyUpd (.xlink v) s).threads = s.threads := rfl
@[simp] theorem xlink_upd_cores (s : State) (v : List (Nat × XMsg)) : (applyUpd (.xlink v) s).cores = s.cores := rfl
@[simp] theorem xlink_upd_engines (s : State) (v : List (Nat × XMsg)) : (applyUpd (.xlink v) s).engines = s.engines := rfl
@[simp] theorem xlink_upd_held (s : State) (v : List (Nat × XMsg)) : (applyUpd (.xlink v) s).held = s.held := rfl
@[simp] theorem xlink_upd_watches (s : State) (v : List (Nat × XMsg)) : (applyUpd (.xlink v) s).watches = s.watches := rfl
@[simp] theorem xlink_upd_watchMsgs (s : State) (v : List (Nat × XMsg)) : (applyUpd (.xlink v) s).watchMsgs = s.watchMsgs := rfl
@[simp] theorem xlink_upd_bankHeld (s : State) (v : List (Nat × XMsg)) : (applyUpd (.xlink v) s).bankHeld = s.bankHeld := rfl
@[simp] theorem xlink_upd_bankTarget (s : State) (v : List (Nat × XMsg)) : (applyUpd (.xlink v) s).bankTarget = s.bankTarget := rfl
@[simp] theorem xlink_upd_ecc (s : State) (v : List (Nat × XMsg)) : (applyUpd (.xlink v) s).ecc = s.ecc := rfl
@[simp] theorem xlink_upd_lineEcc (s : State) (v : List (Nat × XMsg)) : (applyUpd (.xlink v) s).lineEcc = s.lineEcc := rfl
@[simp] theorem xlink_upd_wbPending (s : State) (v : List (Nat × XMsg)) : (applyUpd (.xlink v) s).wbPending = s.wbPending := rfl
@[simp] theorem xlink_upd_scrubPos (s : State) (v : List (Nat × XMsg)) : (applyUpd (.xlink v) s).scrubPos = s.scrubPos := rfl
@[simp] theorem xlink_upd_refusals (s : State) (v : List (Nat × XMsg)) : (applyUpd (.xlink v) s).refusals = s.refusals := rfl
@[simp] theorem xlink_upd_firstRefusal (s : State) (v : List (Nat × XMsg)) : (applyUpd (.xlink v) s).firstRefusal = s.firstRefusal := rfl
@[simp] theorem xlink_upd_boxQueue (s : State) (v : List (Nat × XMsg)) : (applyUpd (.xlink v) s).boxQueue = s.boxQueue := rfl
@[simp] theorem xlink_upd_boxRun (s : State) (v : List (Nat × XMsg)) : (applyUpd (.xlink v) s).boxRun = s.boxRun := rfl
@[simp] theorem xlink_upd_kvs (s : State) (v : List (Nat × XMsg)) : (applyUpd (.xlink v) s).kvs = s.kvs := rfl
@[simp] theorem xlink_upd_parts (s : State) (v : List (Nat × XMsg)) : (applyUpd (.xlink v) s).parts = s.parts := rfl
@[simp] theorem xlink_upd_dmas (s : State) (v : List (Nat × XMsg)) : (applyUpd (.xlink v) s).dmas = s.dmas := rfl
@[simp] theorem xlink_upd_regReqs (s : State) (v : List (Nat × XMsg)) : (applyUpd (.xlink v) s).regReqs = s.regReqs := rfl
@[simp] theorem xlink_upd_regPorts (s : State) (v : List (Nat × XMsg)) : (applyUpd (.xlink v) s).regPorts = s.regPorts := rfl
@[simp] theorem xlink_upd_subchs (s : State) (v : List (Nat × XMsg)) : (applyUpd (.xlink v) s).subchs = s.subchs := rfl
@[simp] theorem xlink_upd_trackers (s : State) (v : List (Nat × XMsg)) : (applyUpd (.xlink v) s).trackers = s.trackers := rfl
@[simp] theorem xlink_upd_throttles (s : State) (v : List (Nat × XMsg)) : (applyUpd (.xlink v) s).throttles = s.throttles := rfl
@[simp] theorem xlink_upd_errRing (s : State) (v : List (Nat × XMsg)) : (applyUpd (.xlink v) s).errRing = s.errRing := rfl
@[simp] theorem xlink_upd_errRingOvf (s : State) (v : List (Nat × XMsg)) : (applyUpd (.xlink v) s).errRingOvf = s.errRingOvf := rfl
@[simp] theorem xlink_upd_patrolLine (s : State) (v : List (Nat × XMsg)) : (applyUpd (.xlink v) s).patrolLine = s.patrolLine := rfl
@[simp] theorem xlink_upd_retTimes (s : State) (v : List (Nat × XMsg)) : (applyUpd (.xlink v) s).retTimes = s.retTimes := rfl
@[simp] theorem xlink_upd_retired (s : State) (v : List (Nat × XMsg)) : (applyUpd (.xlink v) s).retired = s.retired := rfl
@[simp] theorem xlink_upd_dramSeq (s : State) (v : List (Nat × XMsg)) : (applyUpd (.xlink v) s).dramSeq = s.dramSeq := rfl
@[simp] theorem xlink_upd_trn (s : State) (v : List (Nat × XMsg)) : (applyUpd (.xlink v) s).trn = s.trn := rfl
@[simp] theorem xlink_upd_dqsAdj (s : State) (v : List (Nat × XMsg)) : (applyUpd (.xlink v) s).dqsAdj = s.dqsAdj := rfl
@[simp] theorem xlink_upd_dpol (s : State) (v : List (Nat × XMsg)) : (applyUpd (.xlink v) s).dpol = s.dpol := rfl
@[simp] theorem xlink_upd_idleAt (s : State) (v : List (Nat × XMsg)) : (applyUpd (.xlink v) s).idleAt = s.idleAt := rfl
@[simp] theorem xlink_upd_fitted (s : State) (v : List (Nat × XMsg)) : (applyUpd (.xlink v) s).fitted = s.fitted := rfl
@[simp] theorem xlink_upd_faultMsgs (s : State) (v : List (Nat × XMsg)) : (applyUpd (.xlink v) s).faultMsgs = s.faultMsgs := rfl
@[simp] theorem xlink_upd_out (s : State) (v : List (Nat × XMsg)) : (applyUpd (.xlink v) s).out = s.out := rfl
@[simp] theorem xlink_upd_lastRead (s : State) (v : List (Nat × XMsg)) : (applyUpd (.xlink v) s).lastRead = s.lastRead := rfl
@[simp] theorem xlink_upd_fwd (s : State) (v : List (Nat × XMsg)) : (applyUpd (.xlink v) s).fwd = s.fwd := rfl
@[simp] theorem xlink_upd_ethTx (s : State) (v : List (Nat × XMsg)) : (applyUpd (.xlink v) s).ethTx = s.ethTx := rfl
@[simp] theorem xlink_upd_ethHeadAt (s : State) (v : List (Nat × XMsg)) : (applyUpd (.xlink v) s).ethHeadAt = s.ethHeadAt := rfl
@[simp] theorem xlink_upd_canTx (s : State) (v : List (Nat × XMsg)) : (applyUpd (.xlink v) s).canTx = s.canTx := rfl
@[simp] theorem xlink_upd_pcieOut (s : State) (v : List (Nat × XMsg)) : (applyUpd (.xlink v) s).pcieOut = s.pcieOut := rfl
@[simp] theorem xlink_upd_pcieCfgRd (s : State) (v : List (Nat × XMsg)) : (applyUpd (.xlink v) s).pcieCfgRd = s.pcieCfgRd := rfl
@[simp] theorem xlink_upd_msix (s : State) (v : List (Nat × XMsg)) : (applyUpd (.xlink v) s).msix = s.msix := rfl
@[simp] theorem xlink_upd_ancs (s : State) (v : List (Nat × XMsg)) : (applyUpd (.xlink v) s).ancs = s.ancs := rfl
@[simp] theorem xlink_upd_trajArea (s : State) (v : List (Nat × XMsg)) : (applyUpd (.xlink v) s).trajArea = s.trajArea := rfl
@[simp] theorem xlink_upd_lidarIn (s : State) (v : List (Nat × XMsg)) : (applyUpd (.xlink v) s).lidarIn = s.lidarIn := rfl
@[simp] theorem xlink_upd_wheelIn (s : State) (v : List (Nat × XMsg)) : (applyUpd (.xlink v) s).wheelIn = s.wheelIn := rfl
@[simp] theorem xlink_upd_spiStepBusy (s : State) (v : List (Nat × XMsg)) : (applyUpd (.xlink v) s).spiStepBusy = s.spiStepBusy := rfl
@[simp] theorem xlink_upd_spiRec (s : State) (v : List (Nat × XMsg)) : (applyUpd (.xlink v) s).spiRec = s.spiRec := rfl
@[simp] theorem xlink_upd_spiStepCfg (s : State) (v : List (Nat × XMsg)) : (applyUpd (.xlink v) s).spiStepCfg = s.spiStepCfg := rfl
@[simp] theorem xlink_upd_ctxs (s : State) (v : List (Nat × XMsg)) : (applyUpd (.xlink v) s).ctxs = s.ctxs := rfl
@[simp] theorem xlink_upd_fsyOmit (s : State) (v : List (Nat × XMsg)) : (applyUpd (.xlink v) s).fsyOmit = s.fsyOmit := rfl
@[simp] theorem xlink_upd_fsyPulsed (s : State) (v : List (Nat × XMsg)) : (applyUpd (.xlink v) s).fsyPulsed = s.fsyPulsed := rfl
@[simp] theorem xlink_upd_supTasks (s : State) (v : List (Nat × XMsg)) : (applyUpd (.xlink v) s).supTasks = s.supTasks := rfl
@[simp] theorem xlink_upd_fus (s : State) (v : List (Nat × XMsg)) : (applyUpd (.xlink v) s).fus = s.fus := rfl
@[simp] theorem xlink_upd_fcons (s : State) (v : List (Nat × XMsg)) : (applyUpd (.xlink v) s).fcons = s.fcons := rfl
@[simp] theorem xlink_upd_shadow (s : State) (v : List (Nat × XMsg)) : (applyUpd (.xlink v) s).shadow = s.shadow := rfl
@[simp] theorem xlink_upd_trv (s : State) (v : List (Nat × XMsg)) : (applyUpd (.xlink v) s).trv = s.trv := rfl
@[simp] theorem xlink_upd_tlayers (s : State) (v : List (Nat × XMsg)) : (applyUpd (.xlink v) s).tlayers = s.tlayers := rfl
@[simp] theorem xlink_upd_jobFaults (s : State) (v : List (Nat × XMsg)) : (applyUpd (.xlink v) s).jobFaults = s.jobFaults := rfl
@[simp] theorem xlink_upd_unitLast (s : State) (v : List (Nat × XMsg)) : (applyUpd (.xlink v) s).unitLast = s.unitLast := rfl
@[simp] theorem xlink_upd_unitRst (s : State) (v : List (Nat × XMsg)) : (applyUpd (.xlink v) s).unitRst = s.unitRst := rfl
@[simp] theorem xlink_upd_xlink (s : State) (v : List (Nat × XMsg)) : (applyUpd (.xlink v) s).xlink = v := rfl
@[simp] theorem xlink_upd_trace (s : State) (v : List (Nat × XMsg)) : (applyUpd (.xlink v) s).trace = s.trace := rfl
@[simp] theorem xlink_upd_progs (s : State) (v : List (Nat × XMsg)) : (applyUpd (.xlink v) s).progs = s.progs := rfl
@[simp] theorem xlink_upd_rails (s : State) (v : List (Nat × XMsg)) : (applyUpd (.xlink v) s).rails = s.rails := rfl
@[simp] theorem xlink_upd_thm (s : State) (v : List (Nat × XMsg)) : (applyUpd (.xlink v) s).thm = s.thm := rfl
@[simp] theorem xlink_upd_bnd (s : State) (v : List (Nat × XMsg)) : (applyUpd (.xlink v) s).bnd = s.bnd := rfl
@[simp] theorem xlink_upd_thmTrip (s : State) (v : List (Nat × XMsg)) : (applyUpd (.xlink v) s).thmTrip = s.thmTrip := rfl
@[simp] theorem xlink_upd_flash (s : State) (v : List (Nat × XMsg)) : (applyUpd (.xlink v) s).flash = s.flash := rfl
@[simp] theorem xlink_upd_slots (s : State) (v : List (Nat × XMsg)) : (applyUpd (.xlink v) s).slots = s.slots := rfl
@[simp] theorem xlink_upd_stores (s : State) (v : List (Nat × XMsg)) : (applyUpd (.xlink v) s).stores = s.stores := rfl
@[simp] theorem xlink_upd_ids (s : State) (v : List (Nat × XMsg)) : (applyUpd (.xlink v) s).ids = s.ids := rfl
@[simp] theorem xlink_upd_boot (s : State) (v : List (Nat × XMsg)) : (applyUpd (.xlink v) s).boot = s.boot := rfl
@[simp] theorem xlink_upd_load (s : State) (v : List (Nat × XMsg)) : (applyUpd (.xlink v) s).load = s.load := rfl
@[simp] theorem xlink_upd_flt (s : State) (v : List (Nat × XMsg)) : (applyUpd (.xlink v) s).flt = s.flt := rfl
@[simp] theorem xlink_upd_mon (s : State) (v : List (Nat × XMsg)) : (applyUpd (.xlink v) s).mon = s.mon := rfl
@[simp] theorem trace_upd_pending (s : State) (v : Trace) : (applyUpd (.trace v) s).pending = s.pending := rfl
@[simp] theorem trace_upd_regs (s : State) (v : Trace) : (applyUpd (.trace v) s).regs = s.regs := rfl
@[simp] theorem trace_upd_mem (s : State) (v : Trace) : (applyUpd (.trace v) s).mem = s.mem := rfl
@[simp] theorem trace_upd_sram (s : State) (v : Trace) : (applyUpd (.trace v) s).sram = s.sram := rfl
@[simp] theorem trace_upd_time (s : State) (v : Trace) : (applyUpd (.trace v) s).time = s.time := rfl
@[simp] theorem trace_upd_timeFrac (s : State) (v : Trace) : (applyUpd (.trace v) s).timeFrac = s.timeFrac := rfl
@[simp] theorem trace_upd_freeCtr (s : State) (v : Trace) : (applyUpd (.trace v) s).freeCtr = s.freeCtr := rfl
@[simp] theorem trace_upd_hiLatch (s : State) (v : Trace) : (applyUpd (.trace v) s).hiLatch = s.hiLatch := rfl
@[simp] theorem trace_upd_timeSet (s : State) (v : Trace) : (applyUpd (.trace v) s).timeSet = s.timeSet := rfl
@[simp] theorem trace_upd_n0 (s : State) (v : Trace) : (applyUpd (.trace v) s).n0 = s.n0 := rfl
@[simp] theorem trace_upd_ticked (s : State) (v : Trace) : (applyUpd (.trace v) s).ticked = s.ticked := rfl
@[simp] theorem trace_upd_peerTickAt (s : State) (v : Trace) : (applyUpd (.trace v) s).peerTickAt = s.peerTickAt := rfl
@[simp] theorem trace_upd_guardPitch (s : State) (v : Trace) : (applyUpd (.trace v) s).guardPitch = s.guardPitch := rfl
@[simp] theorem trace_upd_diePitch (s : State) (v : Trace) : (applyUpd (.trace v) s).diePitch = s.diePitch := rfl
@[simp] theorem trace_upd_resps (s : State) (v : Trace) : (applyUpd (.trace v) s).resps = s.resps := rfl
@[simp] theorem trace_upd_txns (s : State) (v : Trace) : (applyUpd (.trace v) s).txns = s.txns := rfl
@[simp] theorem trace_upd_nextTag (s : State) (v : Trace) : (applyUpd (.trace v) s).nextTag = s.nextTag := rfl
@[simp] theorem trace_upd_lateTags (s : State) (v : Trace) : (applyUpd (.trace v) s).lateTags = s.lateTags := rfl
@[simp] theorem trace_upd_ports (s : State) (v : Trace) : (applyUpd (.trace v) s).ports = s.ports := rfl
@[simp] theorem trace_upd_threads (s : State) (v : Trace) : (applyUpd (.trace v) s).threads = s.threads := rfl
@[simp] theorem trace_upd_cores (s : State) (v : Trace) : (applyUpd (.trace v) s).cores = s.cores := rfl
@[simp] theorem trace_upd_engines (s : State) (v : Trace) : (applyUpd (.trace v) s).engines = s.engines := rfl
@[simp] theorem trace_upd_held (s : State) (v : Trace) : (applyUpd (.trace v) s).held = s.held := rfl
@[simp] theorem trace_upd_watches (s : State) (v : Trace) : (applyUpd (.trace v) s).watches = s.watches := rfl
@[simp] theorem trace_upd_watchMsgs (s : State) (v : Trace) : (applyUpd (.trace v) s).watchMsgs = s.watchMsgs := rfl
@[simp] theorem trace_upd_bankHeld (s : State) (v : Trace) : (applyUpd (.trace v) s).bankHeld = s.bankHeld := rfl
@[simp] theorem trace_upd_bankTarget (s : State) (v : Trace) : (applyUpd (.trace v) s).bankTarget = s.bankTarget := rfl
@[simp] theorem trace_upd_ecc (s : State) (v : Trace) : (applyUpd (.trace v) s).ecc = s.ecc := rfl
@[simp] theorem trace_upd_lineEcc (s : State) (v : Trace) : (applyUpd (.trace v) s).lineEcc = s.lineEcc := rfl
@[simp] theorem trace_upd_wbPending (s : State) (v : Trace) : (applyUpd (.trace v) s).wbPending = s.wbPending := rfl
@[simp] theorem trace_upd_scrubPos (s : State) (v : Trace) : (applyUpd (.trace v) s).scrubPos = s.scrubPos := rfl
@[simp] theorem trace_upd_refusals (s : State) (v : Trace) : (applyUpd (.trace v) s).refusals = s.refusals := rfl
@[simp] theorem trace_upd_firstRefusal (s : State) (v : Trace) : (applyUpd (.trace v) s).firstRefusal = s.firstRefusal := rfl
@[simp] theorem trace_upd_boxQueue (s : State) (v : Trace) : (applyUpd (.trace v) s).boxQueue = s.boxQueue := rfl
@[simp] theorem trace_upd_boxRun (s : State) (v : Trace) : (applyUpd (.trace v) s).boxRun = s.boxRun := rfl
@[simp] theorem trace_upd_kvs (s : State) (v : Trace) : (applyUpd (.trace v) s).kvs = s.kvs := rfl
@[simp] theorem trace_upd_parts (s : State) (v : Trace) : (applyUpd (.trace v) s).parts = s.parts := rfl
@[simp] theorem trace_upd_dmas (s : State) (v : Trace) : (applyUpd (.trace v) s).dmas = s.dmas := rfl
@[simp] theorem trace_upd_regReqs (s : State) (v : Trace) : (applyUpd (.trace v) s).regReqs = s.regReqs := rfl
@[simp] theorem trace_upd_regPorts (s : State) (v : Trace) : (applyUpd (.trace v) s).regPorts = s.regPorts := rfl
@[simp] theorem trace_upd_subchs (s : State) (v : Trace) : (applyUpd (.trace v) s).subchs = s.subchs := rfl
@[simp] theorem trace_upd_trackers (s : State) (v : Trace) : (applyUpd (.trace v) s).trackers = s.trackers := rfl
@[simp] theorem trace_upd_throttles (s : State) (v : Trace) : (applyUpd (.trace v) s).throttles = s.throttles := rfl
@[simp] theorem trace_upd_errRing (s : State) (v : Trace) : (applyUpd (.trace v) s).errRing = s.errRing := rfl
@[simp] theorem trace_upd_errRingOvf (s : State) (v : Trace) : (applyUpd (.trace v) s).errRingOvf = s.errRingOvf := rfl
@[simp] theorem trace_upd_patrolLine (s : State) (v : Trace) : (applyUpd (.trace v) s).patrolLine = s.patrolLine := rfl
@[simp] theorem trace_upd_retTimes (s : State) (v : Trace) : (applyUpd (.trace v) s).retTimes = s.retTimes := rfl
@[simp] theorem trace_upd_retired (s : State) (v : Trace) : (applyUpd (.trace v) s).retired = s.retired := rfl
@[simp] theorem trace_upd_dramSeq (s : State) (v : Trace) : (applyUpd (.trace v) s).dramSeq = s.dramSeq := rfl
@[simp] theorem trace_upd_trn (s : State) (v : Trace) : (applyUpd (.trace v) s).trn = s.trn := rfl
@[simp] theorem trace_upd_dqsAdj (s : State) (v : Trace) : (applyUpd (.trace v) s).dqsAdj = s.dqsAdj := rfl
@[simp] theorem trace_upd_dpol (s : State) (v : Trace) : (applyUpd (.trace v) s).dpol = s.dpol := rfl
@[simp] theorem trace_upd_idleAt (s : State) (v : Trace) : (applyUpd (.trace v) s).idleAt = s.idleAt := rfl
@[simp] theorem trace_upd_fitted (s : State) (v : Trace) : (applyUpd (.trace v) s).fitted = s.fitted := rfl
@[simp] theorem trace_upd_faultMsgs (s : State) (v : Trace) : (applyUpd (.trace v) s).faultMsgs = s.faultMsgs := rfl
@[simp] theorem trace_upd_out (s : State) (v : Trace) : (applyUpd (.trace v) s).out = s.out := rfl
@[simp] theorem trace_upd_lastRead (s : State) (v : Trace) : (applyUpd (.trace v) s).lastRead = s.lastRead := rfl
@[simp] theorem trace_upd_fwd (s : State) (v : Trace) : (applyUpd (.trace v) s).fwd = s.fwd := rfl
@[simp] theorem trace_upd_ethTx (s : State) (v : Trace) : (applyUpd (.trace v) s).ethTx = s.ethTx := rfl
@[simp] theorem trace_upd_ethHeadAt (s : State) (v : Trace) : (applyUpd (.trace v) s).ethHeadAt = s.ethHeadAt := rfl
@[simp] theorem trace_upd_canTx (s : State) (v : Trace) : (applyUpd (.trace v) s).canTx = s.canTx := rfl
@[simp] theorem trace_upd_pcieOut (s : State) (v : Trace) : (applyUpd (.trace v) s).pcieOut = s.pcieOut := rfl
@[simp] theorem trace_upd_pcieCfgRd (s : State) (v : Trace) : (applyUpd (.trace v) s).pcieCfgRd = s.pcieCfgRd := rfl
@[simp] theorem trace_upd_msix (s : State) (v : Trace) : (applyUpd (.trace v) s).msix = s.msix := rfl
@[simp] theorem trace_upd_ancs (s : State) (v : Trace) : (applyUpd (.trace v) s).ancs = s.ancs := rfl
@[simp] theorem trace_upd_trajArea (s : State) (v : Trace) : (applyUpd (.trace v) s).trajArea = s.trajArea := rfl
@[simp] theorem trace_upd_lidarIn (s : State) (v : Trace) : (applyUpd (.trace v) s).lidarIn = s.lidarIn := rfl
@[simp] theorem trace_upd_wheelIn (s : State) (v : Trace) : (applyUpd (.trace v) s).wheelIn = s.wheelIn := rfl
@[simp] theorem trace_upd_spiStepBusy (s : State) (v : Trace) : (applyUpd (.trace v) s).spiStepBusy = s.spiStepBusy := rfl
@[simp] theorem trace_upd_spiRec (s : State) (v : Trace) : (applyUpd (.trace v) s).spiRec = s.spiRec := rfl
@[simp] theorem trace_upd_spiStepCfg (s : State) (v : Trace) : (applyUpd (.trace v) s).spiStepCfg = s.spiStepCfg := rfl
@[simp] theorem trace_upd_ctxs (s : State) (v : Trace) : (applyUpd (.trace v) s).ctxs = s.ctxs := rfl
@[simp] theorem trace_upd_fsyOmit (s : State) (v : Trace) : (applyUpd (.trace v) s).fsyOmit = s.fsyOmit := rfl
@[simp] theorem trace_upd_fsyPulsed (s : State) (v : Trace) : (applyUpd (.trace v) s).fsyPulsed = s.fsyPulsed := rfl
@[simp] theorem trace_upd_supTasks (s : State) (v : Trace) : (applyUpd (.trace v) s).supTasks = s.supTasks := rfl
@[simp] theorem trace_upd_fus (s : State) (v : Trace) : (applyUpd (.trace v) s).fus = s.fus := rfl
@[simp] theorem trace_upd_fcons (s : State) (v : Trace) : (applyUpd (.trace v) s).fcons = s.fcons := rfl
@[simp] theorem trace_upd_shadow (s : State) (v : Trace) : (applyUpd (.trace v) s).shadow = s.shadow := rfl
@[simp] theorem trace_upd_trv (s : State) (v : Trace) : (applyUpd (.trace v) s).trv = s.trv := rfl
@[simp] theorem trace_upd_tlayers (s : State) (v : Trace) : (applyUpd (.trace v) s).tlayers = s.tlayers := rfl
@[simp] theorem trace_upd_jobFaults (s : State) (v : Trace) : (applyUpd (.trace v) s).jobFaults = s.jobFaults := rfl
@[simp] theorem trace_upd_unitLast (s : State) (v : Trace) : (applyUpd (.trace v) s).unitLast = s.unitLast := rfl
@[simp] theorem trace_upd_unitRst (s : State) (v : Trace) : (applyUpd (.trace v) s).unitRst = s.unitRst := rfl
@[simp] theorem trace_upd_xlink (s : State) (v : Trace) : (applyUpd (.trace v) s).xlink = s.xlink := rfl
@[simp] theorem trace_upd_trace (s : State) (v : Trace) : (applyUpd (.trace v) s).trace = v := rfl
@[simp] theorem trace_upd_progs (s : State) (v : Trace) : (applyUpd (.trace v) s).progs = s.progs := rfl
@[simp] theorem trace_upd_rails (s : State) (v : Trace) : (applyUpd (.trace v) s).rails = s.rails := rfl
@[simp] theorem trace_upd_thm (s : State) (v : Trace) : (applyUpd (.trace v) s).thm = s.thm := rfl
@[simp] theorem trace_upd_bnd (s : State) (v : Trace) : (applyUpd (.trace v) s).bnd = s.bnd := rfl
@[simp] theorem trace_upd_thmTrip (s : State) (v : Trace) : (applyUpd (.trace v) s).thmTrip = s.thmTrip := rfl
@[simp] theorem trace_upd_flash (s : State) (v : Trace) : (applyUpd (.trace v) s).flash = s.flash := rfl
@[simp] theorem trace_upd_slots (s : State) (v : Trace) : (applyUpd (.trace v) s).slots = s.slots := rfl
@[simp] theorem trace_upd_stores (s : State) (v : Trace) : (applyUpd (.trace v) s).stores = s.stores := rfl
@[simp] theorem trace_upd_ids (s : State) (v : Trace) : (applyUpd (.trace v) s).ids = s.ids := rfl
@[simp] theorem trace_upd_boot (s : State) (v : Trace) : (applyUpd (.trace v) s).boot = s.boot := rfl
@[simp] theorem trace_upd_load (s : State) (v : Trace) : (applyUpd (.trace v) s).load = s.load := rfl
@[simp] theorem trace_upd_flt (s : State) (v : Trace) : (applyUpd (.trace v) s).flt = s.flt := rfl
@[simp] theorem trace_upd_mon (s : State) (v : Trace) : (applyUpd (.trace v) s).mon = s.mon := rfl
@[simp] theorem progs_upd_pending (s : State) (v : List CoreProg) : (applyUpd (.progs v) s).pending = s.pending := rfl
@[simp] theorem progs_upd_regs (s : State) (v : List CoreProg) : (applyUpd (.progs v) s).regs = s.regs := rfl
@[simp] theorem progs_upd_mem (s : State) (v : List CoreProg) : (applyUpd (.progs v) s).mem = s.mem := rfl
@[simp] theorem progs_upd_sram (s : State) (v : List CoreProg) : (applyUpd (.progs v) s).sram = s.sram := rfl
@[simp] theorem progs_upd_time (s : State) (v : List CoreProg) : (applyUpd (.progs v) s).time = s.time := rfl
@[simp] theorem progs_upd_timeFrac (s : State) (v : List CoreProg) : (applyUpd (.progs v) s).timeFrac = s.timeFrac := rfl
@[simp] theorem progs_upd_freeCtr (s : State) (v : List CoreProg) : (applyUpd (.progs v) s).freeCtr = s.freeCtr := rfl
@[simp] theorem progs_upd_hiLatch (s : State) (v : List CoreProg) : (applyUpd (.progs v) s).hiLatch = s.hiLatch := rfl
@[simp] theorem progs_upd_timeSet (s : State) (v : List CoreProg) : (applyUpd (.progs v) s).timeSet = s.timeSet := rfl
@[simp] theorem progs_upd_n0 (s : State) (v : List CoreProg) : (applyUpd (.progs v) s).n0 = s.n0 := rfl
@[simp] theorem progs_upd_ticked (s : State) (v : List CoreProg) : (applyUpd (.progs v) s).ticked = s.ticked := rfl
@[simp] theorem progs_upd_peerTickAt (s : State) (v : List CoreProg) : (applyUpd (.progs v) s).peerTickAt = s.peerTickAt := rfl
@[simp] theorem progs_upd_guardPitch (s : State) (v : List CoreProg) : (applyUpd (.progs v) s).guardPitch = s.guardPitch := rfl
@[simp] theorem progs_upd_diePitch (s : State) (v : List CoreProg) : (applyUpd (.progs v) s).diePitch = s.diePitch := rfl
@[simp] theorem progs_upd_resps (s : State) (v : List CoreProg) : (applyUpd (.progs v) s).resps = s.resps := rfl
@[simp] theorem progs_upd_txns (s : State) (v : List CoreProg) : (applyUpd (.progs v) s).txns = s.txns := rfl
@[simp] theorem progs_upd_nextTag (s : State) (v : List CoreProg) : (applyUpd (.progs v) s).nextTag = s.nextTag := rfl
@[simp] theorem progs_upd_lateTags (s : State) (v : List CoreProg) : (applyUpd (.progs v) s).lateTags = s.lateTags := rfl
@[simp] theorem progs_upd_ports (s : State) (v : List CoreProg) : (applyUpd (.progs v) s).ports = s.ports := rfl
@[simp] theorem progs_upd_threads (s : State) (v : List CoreProg) : (applyUpd (.progs v) s).threads = s.threads := rfl
@[simp] theorem progs_upd_cores (s : State) (v : List CoreProg) : (applyUpd (.progs v) s).cores = s.cores := rfl
@[simp] theorem progs_upd_engines (s : State) (v : List CoreProg) : (applyUpd (.progs v) s).engines = s.engines := rfl
@[simp] theorem progs_upd_held (s : State) (v : List CoreProg) : (applyUpd (.progs v) s).held = s.held := rfl
@[simp] theorem progs_upd_watches (s : State) (v : List CoreProg) : (applyUpd (.progs v) s).watches = s.watches := rfl
@[simp] theorem progs_upd_watchMsgs (s : State) (v : List CoreProg) : (applyUpd (.progs v) s).watchMsgs = s.watchMsgs := rfl
@[simp] theorem progs_upd_bankHeld (s : State) (v : List CoreProg) : (applyUpd (.progs v) s).bankHeld = s.bankHeld := rfl
@[simp] theorem progs_upd_bankTarget (s : State) (v : List CoreProg) : (applyUpd (.progs v) s).bankTarget = s.bankTarget := rfl
@[simp] theorem progs_upd_ecc (s : State) (v : List CoreProg) : (applyUpd (.progs v) s).ecc = s.ecc := rfl
@[simp] theorem progs_upd_lineEcc (s : State) (v : List CoreProg) : (applyUpd (.progs v) s).lineEcc = s.lineEcc := rfl
@[simp] theorem progs_upd_wbPending (s : State) (v : List CoreProg) : (applyUpd (.progs v) s).wbPending = s.wbPending := rfl
@[simp] theorem progs_upd_scrubPos (s : State) (v : List CoreProg) : (applyUpd (.progs v) s).scrubPos = s.scrubPos := rfl
@[simp] theorem progs_upd_refusals (s : State) (v : List CoreProg) : (applyUpd (.progs v) s).refusals = s.refusals := rfl
@[simp] theorem progs_upd_firstRefusal (s : State) (v : List CoreProg) : (applyUpd (.progs v) s).firstRefusal = s.firstRefusal := rfl
@[simp] theorem progs_upd_boxQueue (s : State) (v : List CoreProg) : (applyUpd (.progs v) s).boxQueue = s.boxQueue := rfl
@[simp] theorem progs_upd_boxRun (s : State) (v : List CoreProg) : (applyUpd (.progs v) s).boxRun = s.boxRun := rfl
@[simp] theorem progs_upd_kvs (s : State) (v : List CoreProg) : (applyUpd (.progs v) s).kvs = s.kvs := rfl
@[simp] theorem progs_upd_parts (s : State) (v : List CoreProg) : (applyUpd (.progs v) s).parts = s.parts := rfl
@[simp] theorem progs_upd_dmas (s : State) (v : List CoreProg) : (applyUpd (.progs v) s).dmas = s.dmas := rfl
@[simp] theorem progs_upd_regReqs (s : State) (v : List CoreProg) : (applyUpd (.progs v) s).regReqs = s.regReqs := rfl
@[simp] theorem progs_upd_regPorts (s : State) (v : List CoreProg) : (applyUpd (.progs v) s).regPorts = s.regPorts := rfl
@[simp] theorem progs_upd_subchs (s : State) (v : List CoreProg) : (applyUpd (.progs v) s).subchs = s.subchs := rfl
@[simp] theorem progs_upd_trackers (s : State) (v : List CoreProg) : (applyUpd (.progs v) s).trackers = s.trackers := rfl
@[simp] theorem progs_upd_throttles (s : State) (v : List CoreProg) : (applyUpd (.progs v) s).throttles = s.throttles := rfl
@[simp] theorem progs_upd_errRing (s : State) (v : List CoreProg) : (applyUpd (.progs v) s).errRing = s.errRing := rfl
@[simp] theorem progs_upd_errRingOvf (s : State) (v : List CoreProg) : (applyUpd (.progs v) s).errRingOvf = s.errRingOvf := rfl
@[simp] theorem progs_upd_patrolLine (s : State) (v : List CoreProg) : (applyUpd (.progs v) s).patrolLine = s.patrolLine := rfl
@[simp] theorem progs_upd_retTimes (s : State) (v : List CoreProg) : (applyUpd (.progs v) s).retTimes = s.retTimes := rfl
@[simp] theorem progs_upd_retired (s : State) (v : List CoreProg) : (applyUpd (.progs v) s).retired = s.retired := rfl
@[simp] theorem progs_upd_dramSeq (s : State) (v : List CoreProg) : (applyUpd (.progs v) s).dramSeq = s.dramSeq := rfl
@[simp] theorem progs_upd_trn (s : State) (v : List CoreProg) : (applyUpd (.progs v) s).trn = s.trn := rfl
@[simp] theorem progs_upd_dqsAdj (s : State) (v : List CoreProg) : (applyUpd (.progs v) s).dqsAdj = s.dqsAdj := rfl
@[simp] theorem progs_upd_dpol (s : State) (v : List CoreProg) : (applyUpd (.progs v) s).dpol = s.dpol := rfl
@[simp] theorem progs_upd_idleAt (s : State) (v : List CoreProg) : (applyUpd (.progs v) s).idleAt = s.idleAt := rfl
@[simp] theorem progs_upd_fitted (s : State) (v : List CoreProg) : (applyUpd (.progs v) s).fitted = s.fitted := rfl
@[simp] theorem progs_upd_faultMsgs (s : State) (v : List CoreProg) : (applyUpd (.progs v) s).faultMsgs = s.faultMsgs := rfl
@[simp] theorem progs_upd_out (s : State) (v : List CoreProg) : (applyUpd (.progs v) s).out = s.out := rfl
@[simp] theorem progs_upd_lastRead (s : State) (v : List CoreProg) : (applyUpd (.progs v) s).lastRead = s.lastRead := rfl
@[simp] theorem progs_upd_fwd (s : State) (v : List CoreProg) : (applyUpd (.progs v) s).fwd = s.fwd := rfl
@[simp] theorem progs_upd_ethTx (s : State) (v : List CoreProg) : (applyUpd (.progs v) s).ethTx = s.ethTx := rfl
@[simp] theorem progs_upd_ethHeadAt (s : State) (v : List CoreProg) : (applyUpd (.progs v) s).ethHeadAt = s.ethHeadAt := rfl
@[simp] theorem progs_upd_canTx (s : State) (v : List CoreProg) : (applyUpd (.progs v) s).canTx = s.canTx := rfl
@[simp] theorem progs_upd_pcieOut (s : State) (v : List CoreProg) : (applyUpd (.progs v) s).pcieOut = s.pcieOut := rfl
@[simp] theorem progs_upd_pcieCfgRd (s : State) (v : List CoreProg) : (applyUpd (.progs v) s).pcieCfgRd = s.pcieCfgRd := rfl
@[simp] theorem progs_upd_msix (s : State) (v : List CoreProg) : (applyUpd (.progs v) s).msix = s.msix := rfl
@[simp] theorem progs_upd_ancs (s : State) (v : List CoreProg) : (applyUpd (.progs v) s).ancs = s.ancs := rfl
@[simp] theorem progs_upd_trajArea (s : State) (v : List CoreProg) : (applyUpd (.progs v) s).trajArea = s.trajArea := rfl
@[simp] theorem progs_upd_lidarIn (s : State) (v : List CoreProg) : (applyUpd (.progs v) s).lidarIn = s.lidarIn := rfl
@[simp] theorem progs_upd_wheelIn (s : State) (v : List CoreProg) : (applyUpd (.progs v) s).wheelIn = s.wheelIn := rfl
@[simp] theorem progs_upd_spiStepBusy (s : State) (v : List CoreProg) : (applyUpd (.progs v) s).spiStepBusy = s.spiStepBusy := rfl
@[simp] theorem progs_upd_spiRec (s : State) (v : List CoreProg) : (applyUpd (.progs v) s).spiRec = s.spiRec := rfl
@[simp] theorem progs_upd_spiStepCfg (s : State) (v : List CoreProg) : (applyUpd (.progs v) s).spiStepCfg = s.spiStepCfg := rfl
@[simp] theorem progs_upd_ctxs (s : State) (v : List CoreProg) : (applyUpd (.progs v) s).ctxs = s.ctxs := rfl
@[simp] theorem progs_upd_fsyOmit (s : State) (v : List CoreProg) : (applyUpd (.progs v) s).fsyOmit = s.fsyOmit := rfl
@[simp] theorem progs_upd_fsyPulsed (s : State) (v : List CoreProg) : (applyUpd (.progs v) s).fsyPulsed = s.fsyPulsed := rfl
@[simp] theorem progs_upd_supTasks (s : State) (v : List CoreProg) : (applyUpd (.progs v) s).supTasks = s.supTasks := rfl
@[simp] theorem progs_upd_fus (s : State) (v : List CoreProg) : (applyUpd (.progs v) s).fus = s.fus := rfl
@[simp] theorem progs_upd_fcons (s : State) (v : List CoreProg) : (applyUpd (.progs v) s).fcons = s.fcons := rfl
@[simp] theorem progs_upd_shadow (s : State) (v : List CoreProg) : (applyUpd (.progs v) s).shadow = s.shadow := rfl
@[simp] theorem progs_upd_trv (s : State) (v : List CoreProg) : (applyUpd (.progs v) s).trv = s.trv := rfl
@[simp] theorem progs_upd_tlayers (s : State) (v : List CoreProg) : (applyUpd (.progs v) s).tlayers = s.tlayers := rfl
@[simp] theorem progs_upd_jobFaults (s : State) (v : List CoreProg) : (applyUpd (.progs v) s).jobFaults = s.jobFaults := rfl
@[simp] theorem progs_upd_unitLast (s : State) (v : List CoreProg) : (applyUpd (.progs v) s).unitLast = s.unitLast := rfl
@[simp] theorem progs_upd_unitRst (s : State) (v : List CoreProg) : (applyUpd (.progs v) s).unitRst = s.unitRst := rfl
@[simp] theorem progs_upd_xlink (s : State) (v : List CoreProg) : (applyUpd (.progs v) s).xlink = s.xlink := rfl
@[simp] theorem progs_upd_trace (s : State) (v : List CoreProg) : (applyUpd (.progs v) s).trace = s.trace := rfl
@[simp] theorem progs_upd_progs (s : State) (v : List CoreProg) : (applyUpd (.progs v) s).progs = v := rfl
@[simp] theorem progs_upd_rails (s : State) (v : List CoreProg) : (applyUpd (.progs v) s).rails = s.rails := rfl
@[simp] theorem progs_upd_thm (s : State) (v : List CoreProg) : (applyUpd (.progs v) s).thm = s.thm := rfl
@[simp] theorem progs_upd_bnd (s : State) (v : List CoreProg) : (applyUpd (.progs v) s).bnd = s.bnd := rfl
@[simp] theorem progs_upd_thmTrip (s : State) (v : List CoreProg) : (applyUpd (.progs v) s).thmTrip = s.thmTrip := rfl
@[simp] theorem progs_upd_flash (s : State) (v : List CoreProg) : (applyUpd (.progs v) s).flash = s.flash := rfl
@[simp] theorem progs_upd_slots (s : State) (v : List CoreProg) : (applyUpd (.progs v) s).slots = s.slots := rfl
@[simp] theorem progs_upd_stores (s : State) (v : List CoreProg) : (applyUpd (.progs v) s).stores = s.stores := rfl
@[simp] theorem progs_upd_ids (s : State) (v : List CoreProg) : (applyUpd (.progs v) s).ids = s.ids := rfl
@[simp] theorem progs_upd_boot (s : State) (v : List CoreProg) : (applyUpd (.progs v) s).boot = s.boot := rfl
@[simp] theorem progs_upd_load (s : State) (v : List CoreProg) : (applyUpd (.progs v) s).load = s.load := rfl
@[simp] theorem progs_upd_flt (s : State) (v : List CoreProg) : (applyUpd (.progs v) s).flt = s.flt := rfl
@[simp] theorem progs_upd_mon (s : State) (v : List CoreProg) : (applyUpd (.progs v) s).mon = s.mon := rfl
@[simp] theorem rails_upd_pending (s : State) (k : Nat) (v : Rail) : (applyUpd (.rails k v) s).pending = s.pending := rfl
@[simp] theorem rails_upd_regs (s : State) (k : Nat) (v : Rail) : (applyUpd (.rails k v) s).regs = s.regs := rfl
@[simp] theorem rails_upd_mem (s : State) (k : Nat) (v : Rail) : (applyUpd (.rails k v) s).mem = s.mem := rfl
@[simp] theorem rails_upd_sram (s : State) (k : Nat) (v : Rail) : (applyUpd (.rails k v) s).sram = s.sram := rfl
@[simp] theorem rails_upd_time (s : State) (k : Nat) (v : Rail) : (applyUpd (.rails k v) s).time = s.time := rfl
@[simp] theorem rails_upd_timeFrac (s : State) (k : Nat) (v : Rail) : (applyUpd (.rails k v) s).timeFrac = s.timeFrac := rfl
@[simp] theorem rails_upd_freeCtr (s : State) (k : Nat) (v : Rail) : (applyUpd (.rails k v) s).freeCtr = s.freeCtr := rfl
@[simp] theorem rails_upd_hiLatch (s : State) (k : Nat) (v : Rail) : (applyUpd (.rails k v) s).hiLatch = s.hiLatch := rfl
@[simp] theorem rails_upd_timeSet (s : State) (k : Nat) (v : Rail) : (applyUpd (.rails k v) s).timeSet = s.timeSet := rfl
@[simp] theorem rails_upd_n0 (s : State) (k : Nat) (v : Rail) : (applyUpd (.rails k v) s).n0 = s.n0 := rfl
@[simp] theorem rails_upd_ticked (s : State) (k : Nat) (v : Rail) : (applyUpd (.rails k v) s).ticked = s.ticked := rfl
@[simp] theorem rails_upd_peerTickAt (s : State) (k : Nat) (v : Rail) : (applyUpd (.rails k v) s).peerTickAt = s.peerTickAt := rfl
@[simp] theorem rails_upd_guardPitch (s : State) (k : Nat) (v : Rail) : (applyUpd (.rails k v) s).guardPitch = s.guardPitch := rfl
@[simp] theorem rails_upd_diePitch (s : State) (k : Nat) (v : Rail) : (applyUpd (.rails k v) s).diePitch = s.diePitch := rfl
@[simp] theorem rails_upd_resps (s : State) (k : Nat) (v : Rail) : (applyUpd (.rails k v) s).resps = s.resps := rfl
@[simp] theorem rails_upd_txns (s : State) (k : Nat) (v : Rail) : (applyUpd (.rails k v) s).txns = s.txns := rfl
@[simp] theorem rails_upd_nextTag (s : State) (k : Nat) (v : Rail) : (applyUpd (.rails k v) s).nextTag = s.nextTag := rfl
@[simp] theorem rails_upd_lateTags (s : State) (k : Nat) (v : Rail) : (applyUpd (.rails k v) s).lateTags = s.lateTags := rfl
@[simp] theorem rails_upd_ports (s : State) (k : Nat) (v : Rail) : (applyUpd (.rails k v) s).ports = s.ports := rfl
@[simp] theorem rails_upd_threads (s : State) (k : Nat) (v : Rail) : (applyUpd (.rails k v) s).threads = s.threads := rfl
@[simp] theorem rails_upd_cores (s : State) (k : Nat) (v : Rail) : (applyUpd (.rails k v) s).cores = s.cores := rfl
@[simp] theorem rails_upd_engines (s : State) (k : Nat) (v : Rail) : (applyUpd (.rails k v) s).engines = s.engines := rfl
@[simp] theorem rails_upd_held (s : State) (k : Nat) (v : Rail) : (applyUpd (.rails k v) s).held = s.held := rfl
@[simp] theorem rails_upd_watches (s : State) (k : Nat) (v : Rail) : (applyUpd (.rails k v) s).watches = s.watches := rfl
@[simp] theorem rails_upd_watchMsgs (s : State) (k : Nat) (v : Rail) : (applyUpd (.rails k v) s).watchMsgs = s.watchMsgs := rfl
@[simp] theorem rails_upd_bankHeld (s : State) (k : Nat) (v : Rail) : (applyUpd (.rails k v) s).bankHeld = s.bankHeld := rfl
@[simp] theorem rails_upd_bankTarget (s : State) (k : Nat) (v : Rail) : (applyUpd (.rails k v) s).bankTarget = s.bankTarget := rfl
@[simp] theorem rails_upd_ecc (s : State) (k : Nat) (v : Rail) : (applyUpd (.rails k v) s).ecc = s.ecc := rfl
@[simp] theorem rails_upd_lineEcc (s : State) (k : Nat) (v : Rail) : (applyUpd (.rails k v) s).lineEcc = s.lineEcc := rfl
@[simp] theorem rails_upd_wbPending (s : State) (k : Nat) (v : Rail) : (applyUpd (.rails k v) s).wbPending = s.wbPending := rfl
@[simp] theorem rails_upd_scrubPos (s : State) (k : Nat) (v : Rail) : (applyUpd (.rails k v) s).scrubPos = s.scrubPos := rfl
@[simp] theorem rails_upd_refusals (s : State) (k : Nat) (v : Rail) : (applyUpd (.rails k v) s).refusals = s.refusals := rfl
@[simp] theorem rails_upd_firstRefusal (s : State) (k : Nat) (v : Rail) : (applyUpd (.rails k v) s).firstRefusal = s.firstRefusal := rfl
@[simp] theorem rails_upd_boxQueue (s : State) (k : Nat) (v : Rail) : (applyUpd (.rails k v) s).boxQueue = s.boxQueue := rfl
@[simp] theorem rails_upd_boxRun (s : State) (k : Nat) (v : Rail) : (applyUpd (.rails k v) s).boxRun = s.boxRun := rfl
@[simp] theorem rails_upd_kvs (s : State) (k : Nat) (v : Rail) : (applyUpd (.rails k v) s).kvs = s.kvs := rfl
@[simp] theorem rails_upd_parts (s : State) (k : Nat) (v : Rail) : (applyUpd (.rails k v) s).parts = s.parts := rfl
@[simp] theorem rails_upd_dmas (s : State) (k : Nat) (v : Rail) : (applyUpd (.rails k v) s).dmas = s.dmas := rfl
@[simp] theorem rails_upd_regReqs (s : State) (k : Nat) (v : Rail) : (applyUpd (.rails k v) s).regReqs = s.regReqs := rfl
@[simp] theorem rails_upd_regPorts (s : State) (k : Nat) (v : Rail) : (applyUpd (.rails k v) s).regPorts = s.regPorts := rfl
@[simp] theorem rails_upd_subchs (s : State) (k : Nat) (v : Rail) : (applyUpd (.rails k v) s).subchs = s.subchs := rfl
@[simp] theorem rails_upd_trackers (s : State) (k : Nat) (v : Rail) : (applyUpd (.rails k v) s).trackers = s.trackers := rfl
@[simp] theorem rails_upd_throttles (s : State) (k : Nat) (v : Rail) : (applyUpd (.rails k v) s).throttles = s.throttles := rfl
@[simp] theorem rails_upd_errRing (s : State) (k : Nat) (v : Rail) : (applyUpd (.rails k v) s).errRing = s.errRing := rfl
@[simp] theorem rails_upd_errRingOvf (s : State) (k : Nat) (v : Rail) : (applyUpd (.rails k v) s).errRingOvf = s.errRingOvf := rfl
@[simp] theorem rails_upd_patrolLine (s : State) (k : Nat) (v : Rail) : (applyUpd (.rails k v) s).patrolLine = s.patrolLine := rfl
@[simp] theorem rails_upd_retTimes (s : State) (k : Nat) (v : Rail) : (applyUpd (.rails k v) s).retTimes = s.retTimes := rfl
@[simp] theorem rails_upd_retired (s : State) (k : Nat) (v : Rail) : (applyUpd (.rails k v) s).retired = s.retired := rfl
@[simp] theorem rails_upd_dramSeq (s : State) (k : Nat) (v : Rail) : (applyUpd (.rails k v) s).dramSeq = s.dramSeq := rfl
@[simp] theorem rails_upd_trn (s : State) (k : Nat) (v : Rail) : (applyUpd (.rails k v) s).trn = s.trn := rfl
@[simp] theorem rails_upd_dqsAdj (s : State) (k : Nat) (v : Rail) : (applyUpd (.rails k v) s).dqsAdj = s.dqsAdj := rfl
@[simp] theorem rails_upd_dpol (s : State) (k : Nat) (v : Rail) : (applyUpd (.rails k v) s).dpol = s.dpol := rfl
@[simp] theorem rails_upd_idleAt (s : State) (k : Nat) (v : Rail) : (applyUpd (.rails k v) s).idleAt = s.idleAt := rfl
@[simp] theorem rails_upd_fitted (s : State) (k : Nat) (v : Rail) : (applyUpd (.rails k v) s).fitted = s.fitted := rfl
@[simp] theorem rails_upd_faultMsgs (s : State) (k : Nat) (v : Rail) : (applyUpd (.rails k v) s).faultMsgs = s.faultMsgs := rfl
@[simp] theorem rails_upd_out (s : State) (k : Nat) (v : Rail) : (applyUpd (.rails k v) s).out = s.out := rfl
@[simp] theorem rails_upd_lastRead (s : State) (k : Nat) (v : Rail) : (applyUpd (.rails k v) s).lastRead = s.lastRead := rfl
@[simp] theorem rails_upd_fwd (s : State) (k : Nat) (v : Rail) : (applyUpd (.rails k v) s).fwd = s.fwd := rfl
@[simp] theorem rails_upd_ethTx (s : State) (k : Nat) (v : Rail) : (applyUpd (.rails k v) s).ethTx = s.ethTx := rfl
@[simp] theorem rails_upd_ethHeadAt (s : State) (k : Nat) (v : Rail) : (applyUpd (.rails k v) s).ethHeadAt = s.ethHeadAt := rfl
@[simp] theorem rails_upd_canTx (s : State) (k : Nat) (v : Rail) : (applyUpd (.rails k v) s).canTx = s.canTx := rfl
@[simp] theorem rails_upd_pcieOut (s : State) (k : Nat) (v : Rail) : (applyUpd (.rails k v) s).pcieOut = s.pcieOut := rfl
@[simp] theorem rails_upd_pcieCfgRd (s : State) (k : Nat) (v : Rail) : (applyUpd (.rails k v) s).pcieCfgRd = s.pcieCfgRd := rfl
@[simp] theorem rails_upd_msix (s : State) (k : Nat) (v : Rail) : (applyUpd (.rails k v) s).msix = s.msix := rfl
@[simp] theorem rails_upd_ancs (s : State) (k : Nat) (v : Rail) : (applyUpd (.rails k v) s).ancs = s.ancs := rfl
@[simp] theorem rails_upd_trajArea (s : State) (k : Nat) (v : Rail) : (applyUpd (.rails k v) s).trajArea = s.trajArea := rfl
@[simp] theorem rails_upd_lidarIn (s : State) (k : Nat) (v : Rail) : (applyUpd (.rails k v) s).lidarIn = s.lidarIn := rfl
@[simp] theorem rails_upd_wheelIn (s : State) (k : Nat) (v : Rail) : (applyUpd (.rails k v) s).wheelIn = s.wheelIn := rfl
@[simp] theorem rails_upd_spiStepBusy (s : State) (k : Nat) (v : Rail) : (applyUpd (.rails k v) s).spiStepBusy = s.spiStepBusy := rfl
@[simp] theorem rails_upd_spiRec (s : State) (k : Nat) (v : Rail) : (applyUpd (.rails k v) s).spiRec = s.spiRec := rfl
@[simp] theorem rails_upd_spiStepCfg (s : State) (k : Nat) (v : Rail) : (applyUpd (.rails k v) s).spiStepCfg = s.spiStepCfg := rfl
@[simp] theorem rails_upd_ctxs (s : State) (k : Nat) (v : Rail) : (applyUpd (.rails k v) s).ctxs = s.ctxs := rfl
@[simp] theorem rails_upd_fsyOmit (s : State) (k : Nat) (v : Rail) : (applyUpd (.rails k v) s).fsyOmit = s.fsyOmit := rfl
@[simp] theorem rails_upd_fsyPulsed (s : State) (k : Nat) (v : Rail) : (applyUpd (.rails k v) s).fsyPulsed = s.fsyPulsed := rfl
@[simp] theorem rails_upd_supTasks (s : State) (k : Nat) (v : Rail) : (applyUpd (.rails k v) s).supTasks = s.supTasks := rfl
@[simp] theorem rails_upd_fus (s : State) (k : Nat) (v : Rail) : (applyUpd (.rails k v) s).fus = s.fus := rfl
@[simp] theorem rails_upd_fcons (s : State) (k : Nat) (v : Rail) : (applyUpd (.rails k v) s).fcons = s.fcons := rfl
@[simp] theorem rails_upd_shadow (s : State) (k : Nat) (v : Rail) : (applyUpd (.rails k v) s).shadow = s.shadow := rfl
@[simp] theorem rails_upd_trv (s : State) (k : Nat) (v : Rail) : (applyUpd (.rails k v) s).trv = s.trv := rfl
@[simp] theorem rails_upd_tlayers (s : State) (k : Nat) (v : Rail) : (applyUpd (.rails k v) s).tlayers = s.tlayers := rfl
@[simp] theorem rails_upd_jobFaults (s : State) (k : Nat) (v : Rail) : (applyUpd (.rails k v) s).jobFaults = s.jobFaults := rfl
@[simp] theorem rails_upd_unitLast (s : State) (k : Nat) (v : Rail) : (applyUpd (.rails k v) s).unitLast = s.unitLast := rfl
@[simp] theorem rails_upd_unitRst (s : State) (k : Nat) (v : Rail) : (applyUpd (.rails k v) s).unitRst = s.unitRst := rfl
@[simp] theorem rails_upd_xlink (s : State) (k : Nat) (v : Rail) : (applyUpd (.rails k v) s).xlink = s.xlink := rfl
@[simp] theorem rails_upd_trace (s : State) (k : Nat) (v : Rail) : (applyUpd (.rails k v) s).trace = s.trace := rfl
@[simp] theorem rails_upd_progs (s : State) (k : Nat) (v : Rail) : (applyUpd (.rails k v) s).progs = s.progs := rfl
@[simp] theorem rails_upd_rails (s : State) (k : Nat) (v : Rail) : (applyUpd (.rails k v) s).rails = tabSet railDefault s.rails k v := rfl
@[simp] theorem rails_upd_thm (s : State) (k : Nat) (v : Rail) : (applyUpd (.rails k v) s).thm = s.thm := rfl
@[simp] theorem rails_upd_bnd (s : State) (k : Nat) (v : Rail) : (applyUpd (.rails k v) s).bnd = s.bnd := rfl
@[simp] theorem rails_upd_thmTrip (s : State) (k : Nat) (v : Rail) : (applyUpd (.rails k v) s).thmTrip = s.thmTrip := rfl
@[simp] theorem rails_upd_flash (s : State) (k : Nat) (v : Rail) : (applyUpd (.rails k v) s).flash = s.flash := rfl
@[simp] theorem rails_upd_slots (s : State) (k : Nat) (v : Rail) : (applyUpd (.rails k v) s).slots = s.slots := rfl
@[simp] theorem rails_upd_stores (s : State) (k : Nat) (v : Rail) : (applyUpd (.rails k v) s).stores = s.stores := rfl
@[simp] theorem rails_upd_ids (s : State) (k : Nat) (v : Rail) : (applyUpd (.rails k v) s).ids = s.ids := rfl
@[simp] theorem rails_upd_boot (s : State) (k : Nat) (v : Rail) : (applyUpd (.rails k v) s).boot = s.boot := rfl
@[simp] theorem rails_upd_load (s : State) (k : Nat) (v : Rail) : (applyUpd (.rails k v) s).load = s.load := rfl
@[simp] theorem rails_upd_flt (s : State) (k : Nat) (v : Rail) : (applyUpd (.rails k v) s).flt = s.flt := rfl
@[simp] theorem rails_upd_mon (s : State) (k : Nat) (v : Rail) : (applyUpd (.rails k v) s).mon = s.mon := rfl
@[simp] theorem thm_upd_pending (s : State) (v : Thm) : (applyUpd (.thm v) s).pending = s.pending := rfl
@[simp] theorem thm_upd_regs (s : State) (v : Thm) : (applyUpd (.thm v) s).regs = s.regs := rfl
@[simp] theorem thm_upd_mem (s : State) (v : Thm) : (applyUpd (.thm v) s).mem = s.mem := rfl
@[simp] theorem thm_upd_sram (s : State) (v : Thm) : (applyUpd (.thm v) s).sram = s.sram := rfl
@[simp] theorem thm_upd_time (s : State) (v : Thm) : (applyUpd (.thm v) s).time = s.time := rfl
@[simp] theorem thm_upd_timeFrac (s : State) (v : Thm) : (applyUpd (.thm v) s).timeFrac = s.timeFrac := rfl
@[simp] theorem thm_upd_freeCtr (s : State) (v : Thm) : (applyUpd (.thm v) s).freeCtr = s.freeCtr := rfl
@[simp] theorem thm_upd_hiLatch (s : State) (v : Thm) : (applyUpd (.thm v) s).hiLatch = s.hiLatch := rfl
@[simp] theorem thm_upd_timeSet (s : State) (v : Thm) : (applyUpd (.thm v) s).timeSet = s.timeSet := rfl
@[simp] theorem thm_upd_n0 (s : State) (v : Thm) : (applyUpd (.thm v) s).n0 = s.n0 := rfl
@[simp] theorem thm_upd_ticked (s : State) (v : Thm) : (applyUpd (.thm v) s).ticked = s.ticked := rfl
@[simp] theorem thm_upd_peerTickAt (s : State) (v : Thm) : (applyUpd (.thm v) s).peerTickAt = s.peerTickAt := rfl
@[simp] theorem thm_upd_guardPitch (s : State) (v : Thm) : (applyUpd (.thm v) s).guardPitch = s.guardPitch := rfl
@[simp] theorem thm_upd_diePitch (s : State) (v : Thm) : (applyUpd (.thm v) s).diePitch = s.diePitch := rfl
@[simp] theorem thm_upd_resps (s : State) (v : Thm) : (applyUpd (.thm v) s).resps = s.resps := rfl
@[simp] theorem thm_upd_txns (s : State) (v : Thm) : (applyUpd (.thm v) s).txns = s.txns := rfl
@[simp] theorem thm_upd_nextTag (s : State) (v : Thm) : (applyUpd (.thm v) s).nextTag = s.nextTag := rfl
@[simp] theorem thm_upd_lateTags (s : State) (v : Thm) : (applyUpd (.thm v) s).lateTags = s.lateTags := rfl
@[simp] theorem thm_upd_ports (s : State) (v : Thm) : (applyUpd (.thm v) s).ports = s.ports := rfl
@[simp] theorem thm_upd_threads (s : State) (v : Thm) : (applyUpd (.thm v) s).threads = s.threads := rfl
@[simp] theorem thm_upd_cores (s : State) (v : Thm) : (applyUpd (.thm v) s).cores = s.cores := rfl
@[simp] theorem thm_upd_engines (s : State) (v : Thm) : (applyUpd (.thm v) s).engines = s.engines := rfl
@[simp] theorem thm_upd_held (s : State) (v : Thm) : (applyUpd (.thm v) s).held = s.held := rfl
@[simp] theorem thm_upd_watches (s : State) (v : Thm) : (applyUpd (.thm v) s).watches = s.watches := rfl
@[simp] theorem thm_upd_watchMsgs (s : State) (v : Thm) : (applyUpd (.thm v) s).watchMsgs = s.watchMsgs := rfl
@[simp] theorem thm_upd_bankHeld (s : State) (v : Thm) : (applyUpd (.thm v) s).bankHeld = s.bankHeld := rfl
@[simp] theorem thm_upd_bankTarget (s : State) (v : Thm) : (applyUpd (.thm v) s).bankTarget = s.bankTarget := rfl
@[simp] theorem thm_upd_ecc (s : State) (v : Thm) : (applyUpd (.thm v) s).ecc = s.ecc := rfl
@[simp] theorem thm_upd_lineEcc (s : State) (v : Thm) : (applyUpd (.thm v) s).lineEcc = s.lineEcc := rfl
@[simp] theorem thm_upd_wbPending (s : State) (v : Thm) : (applyUpd (.thm v) s).wbPending = s.wbPending := rfl
@[simp] theorem thm_upd_scrubPos (s : State) (v : Thm) : (applyUpd (.thm v) s).scrubPos = s.scrubPos := rfl
@[simp] theorem thm_upd_refusals (s : State) (v : Thm) : (applyUpd (.thm v) s).refusals = s.refusals := rfl
@[simp] theorem thm_upd_firstRefusal (s : State) (v : Thm) : (applyUpd (.thm v) s).firstRefusal = s.firstRefusal := rfl
@[simp] theorem thm_upd_boxQueue (s : State) (v : Thm) : (applyUpd (.thm v) s).boxQueue = s.boxQueue := rfl
@[simp] theorem thm_upd_boxRun (s : State) (v : Thm) : (applyUpd (.thm v) s).boxRun = s.boxRun := rfl
@[simp] theorem thm_upd_kvs (s : State) (v : Thm) : (applyUpd (.thm v) s).kvs = s.kvs := rfl
@[simp] theorem thm_upd_parts (s : State) (v : Thm) : (applyUpd (.thm v) s).parts = s.parts := rfl
@[simp] theorem thm_upd_dmas (s : State) (v : Thm) : (applyUpd (.thm v) s).dmas = s.dmas := rfl
@[simp] theorem thm_upd_regReqs (s : State) (v : Thm) : (applyUpd (.thm v) s).regReqs = s.regReqs := rfl
@[simp] theorem thm_upd_regPorts (s : State) (v : Thm) : (applyUpd (.thm v) s).regPorts = s.regPorts := rfl
@[simp] theorem thm_upd_subchs (s : State) (v : Thm) : (applyUpd (.thm v) s).subchs = s.subchs := rfl
@[simp] theorem thm_upd_trackers (s : State) (v : Thm) : (applyUpd (.thm v) s).trackers = s.trackers := rfl
@[simp] theorem thm_upd_throttles (s : State) (v : Thm) : (applyUpd (.thm v) s).throttles = s.throttles := rfl
@[simp] theorem thm_upd_errRing (s : State) (v : Thm) : (applyUpd (.thm v) s).errRing = s.errRing := rfl
@[simp] theorem thm_upd_errRingOvf (s : State) (v : Thm) : (applyUpd (.thm v) s).errRingOvf = s.errRingOvf := rfl
@[simp] theorem thm_upd_patrolLine (s : State) (v : Thm) : (applyUpd (.thm v) s).patrolLine = s.patrolLine := rfl
@[simp] theorem thm_upd_retTimes (s : State) (v : Thm) : (applyUpd (.thm v) s).retTimes = s.retTimes := rfl
@[simp] theorem thm_upd_retired (s : State) (v : Thm) : (applyUpd (.thm v) s).retired = s.retired := rfl
@[simp] theorem thm_upd_dramSeq (s : State) (v : Thm) : (applyUpd (.thm v) s).dramSeq = s.dramSeq := rfl
@[simp] theorem thm_upd_trn (s : State) (v : Thm) : (applyUpd (.thm v) s).trn = s.trn := rfl
@[simp] theorem thm_upd_dqsAdj (s : State) (v : Thm) : (applyUpd (.thm v) s).dqsAdj = s.dqsAdj := rfl
@[simp] theorem thm_upd_dpol (s : State) (v : Thm) : (applyUpd (.thm v) s).dpol = s.dpol := rfl
@[simp] theorem thm_upd_idleAt (s : State) (v : Thm) : (applyUpd (.thm v) s).idleAt = s.idleAt := rfl
@[simp] theorem thm_upd_fitted (s : State) (v : Thm) : (applyUpd (.thm v) s).fitted = s.fitted := rfl
@[simp] theorem thm_upd_faultMsgs (s : State) (v : Thm) : (applyUpd (.thm v) s).faultMsgs = s.faultMsgs := rfl
@[simp] theorem thm_upd_out (s : State) (v : Thm) : (applyUpd (.thm v) s).out = s.out := rfl
@[simp] theorem thm_upd_lastRead (s : State) (v : Thm) : (applyUpd (.thm v) s).lastRead = s.lastRead := rfl
@[simp] theorem thm_upd_fwd (s : State) (v : Thm) : (applyUpd (.thm v) s).fwd = s.fwd := rfl
@[simp] theorem thm_upd_ethTx (s : State) (v : Thm) : (applyUpd (.thm v) s).ethTx = s.ethTx := rfl
@[simp] theorem thm_upd_ethHeadAt (s : State) (v : Thm) : (applyUpd (.thm v) s).ethHeadAt = s.ethHeadAt := rfl
@[simp] theorem thm_upd_canTx (s : State) (v : Thm) : (applyUpd (.thm v) s).canTx = s.canTx := rfl
@[simp] theorem thm_upd_pcieOut (s : State) (v : Thm) : (applyUpd (.thm v) s).pcieOut = s.pcieOut := rfl
@[simp] theorem thm_upd_pcieCfgRd (s : State) (v : Thm) : (applyUpd (.thm v) s).pcieCfgRd = s.pcieCfgRd := rfl
@[simp] theorem thm_upd_msix (s : State) (v : Thm) : (applyUpd (.thm v) s).msix = s.msix := rfl
@[simp] theorem thm_upd_ancs (s : State) (v : Thm) : (applyUpd (.thm v) s).ancs = s.ancs := rfl
@[simp] theorem thm_upd_trajArea (s : State) (v : Thm) : (applyUpd (.thm v) s).trajArea = s.trajArea := rfl
@[simp] theorem thm_upd_lidarIn (s : State) (v : Thm) : (applyUpd (.thm v) s).lidarIn = s.lidarIn := rfl
@[simp] theorem thm_upd_wheelIn (s : State) (v : Thm) : (applyUpd (.thm v) s).wheelIn = s.wheelIn := rfl
@[simp] theorem thm_upd_spiStepBusy (s : State) (v : Thm) : (applyUpd (.thm v) s).spiStepBusy = s.spiStepBusy := rfl
@[simp] theorem thm_upd_spiRec (s : State) (v : Thm) : (applyUpd (.thm v) s).spiRec = s.spiRec := rfl
@[simp] theorem thm_upd_spiStepCfg (s : State) (v : Thm) : (applyUpd (.thm v) s).spiStepCfg = s.spiStepCfg := rfl
@[simp] theorem thm_upd_ctxs (s : State) (v : Thm) : (applyUpd (.thm v) s).ctxs = s.ctxs := rfl
@[simp] theorem thm_upd_fsyOmit (s : State) (v : Thm) : (applyUpd (.thm v) s).fsyOmit = s.fsyOmit := rfl
@[simp] theorem thm_upd_fsyPulsed (s : State) (v : Thm) : (applyUpd (.thm v) s).fsyPulsed = s.fsyPulsed := rfl
@[simp] theorem thm_upd_supTasks (s : State) (v : Thm) : (applyUpd (.thm v) s).supTasks = s.supTasks := rfl
@[simp] theorem thm_upd_fus (s : State) (v : Thm) : (applyUpd (.thm v) s).fus = s.fus := rfl
@[simp] theorem thm_upd_fcons (s : State) (v : Thm) : (applyUpd (.thm v) s).fcons = s.fcons := rfl
@[simp] theorem thm_upd_shadow (s : State) (v : Thm) : (applyUpd (.thm v) s).shadow = s.shadow := rfl
@[simp] theorem thm_upd_trv (s : State) (v : Thm) : (applyUpd (.thm v) s).trv = s.trv := rfl
@[simp] theorem thm_upd_tlayers (s : State) (v : Thm) : (applyUpd (.thm v) s).tlayers = s.tlayers := rfl
@[simp] theorem thm_upd_jobFaults (s : State) (v : Thm) : (applyUpd (.thm v) s).jobFaults = s.jobFaults := rfl
@[simp] theorem thm_upd_unitLast (s : State) (v : Thm) : (applyUpd (.thm v) s).unitLast = s.unitLast := rfl
@[simp] theorem thm_upd_unitRst (s : State) (v : Thm) : (applyUpd (.thm v) s).unitRst = s.unitRst := rfl
@[simp] theorem thm_upd_xlink (s : State) (v : Thm) : (applyUpd (.thm v) s).xlink = s.xlink := rfl
@[simp] theorem thm_upd_trace (s : State) (v : Thm) : (applyUpd (.thm v) s).trace = s.trace := rfl
@[simp] theorem thm_upd_progs (s : State) (v : Thm) : (applyUpd (.thm v) s).progs = s.progs := rfl
@[simp] theorem thm_upd_rails (s : State) (v : Thm) : (applyUpd (.thm v) s).rails = s.rails := rfl
@[simp] theorem thm_upd_thm (s : State) (v : Thm) : (applyUpd (.thm v) s).thm = v := rfl
@[simp] theorem thm_upd_bnd (s : State) (v : Thm) : (applyUpd (.thm v) s).bnd = s.bnd := rfl
@[simp] theorem thm_upd_thmTrip (s : State) (v : Thm) : (applyUpd (.thm v) s).thmTrip = s.thmTrip := rfl
@[simp] theorem thm_upd_flash (s : State) (v : Thm) : (applyUpd (.thm v) s).flash = s.flash := rfl
@[simp] theorem thm_upd_slots (s : State) (v : Thm) : (applyUpd (.thm v) s).slots = s.slots := rfl
@[simp] theorem thm_upd_stores (s : State) (v : Thm) : (applyUpd (.thm v) s).stores = s.stores := rfl
@[simp] theorem thm_upd_ids (s : State) (v : Thm) : (applyUpd (.thm v) s).ids = s.ids := rfl
@[simp] theorem thm_upd_boot (s : State) (v : Thm) : (applyUpd (.thm v) s).boot = s.boot := rfl
@[simp] theorem thm_upd_load (s : State) (v : Thm) : (applyUpd (.thm v) s).load = s.load := rfl
@[simp] theorem thm_upd_flt (s : State) (v : Thm) : (applyUpd (.thm v) s).flt = s.flt := rfl
@[simp] theorem thm_upd_mon (s : State) (v : Thm) : (applyUpd (.thm v) s).mon = s.mon := rfl
@[simp] theorem bnd_upd_pending (s : State) (v : Bnd) : (applyUpd (.bnd v) s).pending = s.pending := rfl
@[simp] theorem bnd_upd_regs (s : State) (v : Bnd) : (applyUpd (.bnd v) s).regs = s.regs := rfl
@[simp] theorem bnd_upd_mem (s : State) (v : Bnd) : (applyUpd (.bnd v) s).mem = s.mem := rfl
@[simp] theorem bnd_upd_sram (s : State) (v : Bnd) : (applyUpd (.bnd v) s).sram = s.sram := rfl
@[simp] theorem bnd_upd_time (s : State) (v : Bnd) : (applyUpd (.bnd v) s).time = s.time := rfl
@[simp] theorem bnd_upd_timeFrac (s : State) (v : Bnd) : (applyUpd (.bnd v) s).timeFrac = s.timeFrac := rfl
@[simp] theorem bnd_upd_freeCtr (s : State) (v : Bnd) : (applyUpd (.bnd v) s).freeCtr = s.freeCtr := rfl
@[simp] theorem bnd_upd_hiLatch (s : State) (v : Bnd) : (applyUpd (.bnd v) s).hiLatch = s.hiLatch := rfl
@[simp] theorem bnd_upd_timeSet (s : State) (v : Bnd) : (applyUpd (.bnd v) s).timeSet = s.timeSet := rfl
@[simp] theorem bnd_upd_n0 (s : State) (v : Bnd) : (applyUpd (.bnd v) s).n0 = s.n0 := rfl
@[simp] theorem bnd_upd_ticked (s : State) (v : Bnd) : (applyUpd (.bnd v) s).ticked = s.ticked := rfl
@[simp] theorem bnd_upd_peerTickAt (s : State) (v : Bnd) : (applyUpd (.bnd v) s).peerTickAt = s.peerTickAt := rfl
@[simp] theorem bnd_upd_guardPitch (s : State) (v : Bnd) : (applyUpd (.bnd v) s).guardPitch = s.guardPitch := rfl
@[simp] theorem bnd_upd_diePitch (s : State) (v : Bnd) : (applyUpd (.bnd v) s).diePitch = s.diePitch := rfl
@[simp] theorem bnd_upd_resps (s : State) (v : Bnd) : (applyUpd (.bnd v) s).resps = s.resps := rfl
@[simp] theorem bnd_upd_txns (s : State) (v : Bnd) : (applyUpd (.bnd v) s).txns = s.txns := rfl
@[simp] theorem bnd_upd_nextTag (s : State) (v : Bnd) : (applyUpd (.bnd v) s).nextTag = s.nextTag := rfl
@[simp] theorem bnd_upd_lateTags (s : State) (v : Bnd) : (applyUpd (.bnd v) s).lateTags = s.lateTags := rfl
@[simp] theorem bnd_upd_ports (s : State) (v : Bnd) : (applyUpd (.bnd v) s).ports = s.ports := rfl
@[simp] theorem bnd_upd_threads (s : State) (v : Bnd) : (applyUpd (.bnd v) s).threads = s.threads := rfl
@[simp] theorem bnd_upd_cores (s : State) (v : Bnd) : (applyUpd (.bnd v) s).cores = s.cores := rfl
@[simp] theorem bnd_upd_engines (s : State) (v : Bnd) : (applyUpd (.bnd v) s).engines = s.engines := rfl
@[simp] theorem bnd_upd_held (s : State) (v : Bnd) : (applyUpd (.bnd v) s).held = s.held := rfl
@[simp] theorem bnd_upd_watches (s : State) (v : Bnd) : (applyUpd (.bnd v) s).watches = s.watches := rfl
@[simp] theorem bnd_upd_watchMsgs (s : State) (v : Bnd) : (applyUpd (.bnd v) s).watchMsgs = s.watchMsgs := rfl
@[simp] theorem bnd_upd_bankHeld (s : State) (v : Bnd) : (applyUpd (.bnd v) s).bankHeld = s.bankHeld := rfl
@[simp] theorem bnd_upd_bankTarget (s : State) (v : Bnd) : (applyUpd (.bnd v) s).bankTarget = s.bankTarget := rfl
@[simp] theorem bnd_upd_ecc (s : State) (v : Bnd) : (applyUpd (.bnd v) s).ecc = s.ecc := rfl
@[simp] theorem bnd_upd_lineEcc (s : State) (v : Bnd) : (applyUpd (.bnd v) s).lineEcc = s.lineEcc := rfl
@[simp] theorem bnd_upd_wbPending (s : State) (v : Bnd) : (applyUpd (.bnd v) s).wbPending = s.wbPending := rfl
@[simp] theorem bnd_upd_scrubPos (s : State) (v : Bnd) : (applyUpd (.bnd v) s).scrubPos = s.scrubPos := rfl
@[simp] theorem bnd_upd_refusals (s : State) (v : Bnd) : (applyUpd (.bnd v) s).refusals = s.refusals := rfl
@[simp] theorem bnd_upd_firstRefusal (s : State) (v : Bnd) : (applyUpd (.bnd v) s).firstRefusal = s.firstRefusal := rfl
@[simp] theorem bnd_upd_boxQueue (s : State) (v : Bnd) : (applyUpd (.bnd v) s).boxQueue = s.boxQueue := rfl
@[simp] theorem bnd_upd_boxRun (s : State) (v : Bnd) : (applyUpd (.bnd v) s).boxRun = s.boxRun := rfl
@[simp] theorem bnd_upd_kvs (s : State) (v : Bnd) : (applyUpd (.bnd v) s).kvs = s.kvs := rfl
@[simp] theorem bnd_upd_parts (s : State) (v : Bnd) : (applyUpd (.bnd v) s).parts = s.parts := rfl
@[simp] theorem bnd_upd_dmas (s : State) (v : Bnd) : (applyUpd (.bnd v) s).dmas = s.dmas := rfl
@[simp] theorem bnd_upd_regReqs (s : State) (v : Bnd) : (applyUpd (.bnd v) s).regReqs = s.regReqs := rfl
@[simp] theorem bnd_upd_regPorts (s : State) (v : Bnd) : (applyUpd (.bnd v) s).regPorts = s.regPorts := rfl
@[simp] theorem bnd_upd_subchs (s : State) (v : Bnd) : (applyUpd (.bnd v) s).subchs = s.subchs := rfl
@[simp] theorem bnd_upd_trackers (s : State) (v : Bnd) : (applyUpd (.bnd v) s).trackers = s.trackers := rfl
@[simp] theorem bnd_upd_throttles (s : State) (v : Bnd) : (applyUpd (.bnd v) s).throttles = s.throttles := rfl
@[simp] theorem bnd_upd_errRing (s : State) (v : Bnd) : (applyUpd (.bnd v) s).errRing = s.errRing := rfl
@[simp] theorem bnd_upd_errRingOvf (s : State) (v : Bnd) : (applyUpd (.bnd v) s).errRingOvf = s.errRingOvf := rfl
@[simp] theorem bnd_upd_patrolLine (s : State) (v : Bnd) : (applyUpd (.bnd v) s).patrolLine = s.patrolLine := rfl
@[simp] theorem bnd_upd_retTimes (s : State) (v : Bnd) : (applyUpd (.bnd v) s).retTimes = s.retTimes := rfl
@[simp] theorem bnd_upd_retired (s : State) (v : Bnd) : (applyUpd (.bnd v) s).retired = s.retired := rfl
@[simp] theorem bnd_upd_dramSeq (s : State) (v : Bnd) : (applyUpd (.bnd v) s).dramSeq = s.dramSeq := rfl
@[simp] theorem bnd_upd_trn (s : State) (v : Bnd) : (applyUpd (.bnd v) s).trn = s.trn := rfl
@[simp] theorem bnd_upd_dqsAdj (s : State) (v : Bnd) : (applyUpd (.bnd v) s).dqsAdj = s.dqsAdj := rfl
@[simp] theorem bnd_upd_dpol (s : State) (v : Bnd) : (applyUpd (.bnd v) s).dpol = s.dpol := rfl
@[simp] theorem bnd_upd_idleAt (s : State) (v : Bnd) : (applyUpd (.bnd v) s).idleAt = s.idleAt := rfl
@[simp] theorem bnd_upd_fitted (s : State) (v : Bnd) : (applyUpd (.bnd v) s).fitted = s.fitted := rfl
@[simp] theorem bnd_upd_faultMsgs (s : State) (v : Bnd) : (applyUpd (.bnd v) s).faultMsgs = s.faultMsgs := rfl
@[simp] theorem bnd_upd_out (s : State) (v : Bnd) : (applyUpd (.bnd v) s).out = s.out := rfl
@[simp] theorem bnd_upd_lastRead (s : State) (v : Bnd) : (applyUpd (.bnd v) s).lastRead = s.lastRead := rfl
@[simp] theorem bnd_upd_fwd (s : State) (v : Bnd) : (applyUpd (.bnd v) s).fwd = s.fwd := rfl
@[simp] theorem bnd_upd_ethTx (s : State) (v : Bnd) : (applyUpd (.bnd v) s).ethTx = s.ethTx := rfl
@[simp] theorem bnd_upd_ethHeadAt (s : State) (v : Bnd) : (applyUpd (.bnd v) s).ethHeadAt = s.ethHeadAt := rfl
@[simp] theorem bnd_upd_canTx (s : State) (v : Bnd) : (applyUpd (.bnd v) s).canTx = s.canTx := rfl
@[simp] theorem bnd_upd_pcieOut (s : State) (v : Bnd) : (applyUpd (.bnd v) s).pcieOut = s.pcieOut := rfl
@[simp] theorem bnd_upd_pcieCfgRd (s : State) (v : Bnd) : (applyUpd (.bnd v) s).pcieCfgRd = s.pcieCfgRd := rfl
@[simp] theorem bnd_upd_msix (s : State) (v : Bnd) : (applyUpd (.bnd v) s).msix = s.msix := rfl
@[simp] theorem bnd_upd_ancs (s : State) (v : Bnd) : (applyUpd (.bnd v) s).ancs = s.ancs := rfl
@[simp] theorem bnd_upd_trajArea (s : State) (v : Bnd) : (applyUpd (.bnd v) s).trajArea = s.trajArea := rfl
@[simp] theorem bnd_upd_lidarIn (s : State) (v : Bnd) : (applyUpd (.bnd v) s).lidarIn = s.lidarIn := rfl
@[simp] theorem bnd_upd_wheelIn (s : State) (v : Bnd) : (applyUpd (.bnd v) s).wheelIn = s.wheelIn := rfl
@[simp] theorem bnd_upd_spiStepBusy (s : State) (v : Bnd) : (applyUpd (.bnd v) s).spiStepBusy = s.spiStepBusy := rfl
@[simp] theorem bnd_upd_spiRec (s : State) (v : Bnd) : (applyUpd (.bnd v) s).spiRec = s.spiRec := rfl
@[simp] theorem bnd_upd_spiStepCfg (s : State) (v : Bnd) : (applyUpd (.bnd v) s).spiStepCfg = s.spiStepCfg := rfl
@[simp] theorem bnd_upd_ctxs (s : State) (v : Bnd) : (applyUpd (.bnd v) s).ctxs = s.ctxs := rfl
@[simp] theorem bnd_upd_fsyOmit (s : State) (v : Bnd) : (applyUpd (.bnd v) s).fsyOmit = s.fsyOmit := rfl
@[simp] theorem bnd_upd_fsyPulsed (s : State) (v : Bnd) : (applyUpd (.bnd v) s).fsyPulsed = s.fsyPulsed := rfl
@[simp] theorem bnd_upd_supTasks (s : State) (v : Bnd) : (applyUpd (.bnd v) s).supTasks = s.supTasks := rfl
@[simp] theorem bnd_upd_fus (s : State) (v : Bnd) : (applyUpd (.bnd v) s).fus = s.fus := rfl
@[simp] theorem bnd_upd_fcons (s : State) (v : Bnd) : (applyUpd (.bnd v) s).fcons = s.fcons := rfl
@[simp] theorem bnd_upd_shadow (s : State) (v : Bnd) : (applyUpd (.bnd v) s).shadow = s.shadow := rfl
@[simp] theorem bnd_upd_trv (s : State) (v : Bnd) : (applyUpd (.bnd v) s).trv = s.trv := rfl
@[simp] theorem bnd_upd_tlayers (s : State) (v : Bnd) : (applyUpd (.bnd v) s).tlayers = s.tlayers := rfl
@[simp] theorem bnd_upd_jobFaults (s : State) (v : Bnd) : (applyUpd (.bnd v) s).jobFaults = s.jobFaults := rfl
@[simp] theorem bnd_upd_unitLast (s : State) (v : Bnd) : (applyUpd (.bnd v) s).unitLast = s.unitLast := rfl
@[simp] theorem bnd_upd_unitRst (s : State) (v : Bnd) : (applyUpd (.bnd v) s).unitRst = s.unitRst := rfl
@[simp] theorem bnd_upd_xlink (s : State) (v : Bnd) : (applyUpd (.bnd v) s).xlink = s.xlink := rfl
@[simp] theorem bnd_upd_trace (s : State) (v : Bnd) : (applyUpd (.bnd v) s).trace = s.trace := rfl
@[simp] theorem bnd_upd_progs (s : State) (v : Bnd) : (applyUpd (.bnd v) s).progs = s.progs := rfl
@[simp] theorem bnd_upd_rails (s : State) (v : Bnd) : (applyUpd (.bnd v) s).rails = s.rails := rfl
@[simp] theorem bnd_upd_thm (s : State) (v : Bnd) : (applyUpd (.bnd v) s).thm = s.thm := rfl
@[simp] theorem bnd_upd_bnd (s : State) (v : Bnd) : (applyUpd (.bnd v) s).bnd = v := rfl
@[simp] theorem bnd_upd_thmTrip (s : State) (v : Bnd) : (applyUpd (.bnd v) s).thmTrip = s.thmTrip := rfl
@[simp] theorem bnd_upd_flash (s : State) (v : Bnd) : (applyUpd (.bnd v) s).flash = s.flash := rfl
@[simp] theorem bnd_upd_slots (s : State) (v : Bnd) : (applyUpd (.bnd v) s).slots = s.slots := rfl
@[simp] theorem bnd_upd_stores (s : State) (v : Bnd) : (applyUpd (.bnd v) s).stores = s.stores := rfl
@[simp] theorem bnd_upd_ids (s : State) (v : Bnd) : (applyUpd (.bnd v) s).ids = s.ids := rfl
@[simp] theorem bnd_upd_boot (s : State) (v : Bnd) : (applyUpd (.bnd v) s).boot = s.boot := rfl
@[simp] theorem bnd_upd_load (s : State) (v : Bnd) : (applyUpd (.bnd v) s).load = s.load := rfl
@[simp] theorem bnd_upd_flt (s : State) (v : Bnd) : (applyUpd (.bnd v) s).flt = s.flt := rfl
@[simp] theorem bnd_upd_mon (s : State) (v : Bnd) : (applyUpd (.bnd v) s).mon = s.mon := rfl
@[simp] theorem thmTrip_upd_pending (s : State) (v : List Nat) : (applyUpd (.thmTrip v) s).pending = s.pending := rfl
@[simp] theorem thmTrip_upd_regs (s : State) (v : List Nat) : (applyUpd (.thmTrip v) s).regs = s.regs := rfl
@[simp] theorem thmTrip_upd_mem (s : State) (v : List Nat) : (applyUpd (.thmTrip v) s).mem = s.mem := rfl
@[simp] theorem thmTrip_upd_sram (s : State) (v : List Nat) : (applyUpd (.thmTrip v) s).sram = s.sram := rfl
@[simp] theorem thmTrip_upd_time (s : State) (v : List Nat) : (applyUpd (.thmTrip v) s).time = s.time := rfl
@[simp] theorem thmTrip_upd_timeFrac (s : State) (v : List Nat) : (applyUpd (.thmTrip v) s).timeFrac = s.timeFrac := rfl
@[simp] theorem thmTrip_upd_freeCtr (s : State) (v : List Nat) : (applyUpd (.thmTrip v) s).freeCtr = s.freeCtr := rfl
@[simp] theorem thmTrip_upd_hiLatch (s : State) (v : List Nat) : (applyUpd (.thmTrip v) s).hiLatch = s.hiLatch := rfl
@[simp] theorem thmTrip_upd_timeSet (s : State) (v : List Nat) : (applyUpd (.thmTrip v) s).timeSet = s.timeSet := rfl
@[simp] theorem thmTrip_upd_n0 (s : State) (v : List Nat) : (applyUpd (.thmTrip v) s).n0 = s.n0 := rfl
@[simp] theorem thmTrip_upd_ticked (s : State) (v : List Nat) : (applyUpd (.thmTrip v) s).ticked = s.ticked := rfl
@[simp] theorem thmTrip_upd_peerTickAt (s : State) (v : List Nat) : (applyUpd (.thmTrip v) s).peerTickAt = s.peerTickAt := rfl
@[simp] theorem thmTrip_upd_guardPitch (s : State) (v : List Nat) : (applyUpd (.thmTrip v) s).guardPitch = s.guardPitch := rfl
@[simp] theorem thmTrip_upd_diePitch (s : State) (v : List Nat) : (applyUpd (.thmTrip v) s).diePitch = s.diePitch := rfl
@[simp] theorem thmTrip_upd_resps (s : State) (v : List Nat) : (applyUpd (.thmTrip v) s).resps = s.resps := rfl
@[simp] theorem thmTrip_upd_txns (s : State) (v : List Nat) : (applyUpd (.thmTrip v) s).txns = s.txns := rfl
@[simp] theorem thmTrip_upd_nextTag (s : State) (v : List Nat) : (applyUpd (.thmTrip v) s).nextTag = s.nextTag := rfl
@[simp] theorem thmTrip_upd_lateTags (s : State) (v : List Nat) : (applyUpd (.thmTrip v) s).lateTags = s.lateTags := rfl
@[simp] theorem thmTrip_upd_ports (s : State) (v : List Nat) : (applyUpd (.thmTrip v) s).ports = s.ports := rfl
@[simp] theorem thmTrip_upd_threads (s : State) (v : List Nat) : (applyUpd (.thmTrip v) s).threads = s.threads := rfl
@[simp] theorem thmTrip_upd_cores (s : State) (v : List Nat) : (applyUpd (.thmTrip v) s).cores = s.cores := rfl
@[simp] theorem thmTrip_upd_engines (s : State) (v : List Nat) : (applyUpd (.thmTrip v) s).engines = s.engines := rfl
@[simp] theorem thmTrip_upd_held (s : State) (v : List Nat) : (applyUpd (.thmTrip v) s).held = s.held := rfl
@[simp] theorem thmTrip_upd_watches (s : State) (v : List Nat) : (applyUpd (.thmTrip v) s).watches = s.watches := rfl
@[simp] theorem thmTrip_upd_watchMsgs (s : State) (v : List Nat) : (applyUpd (.thmTrip v) s).watchMsgs = s.watchMsgs := rfl
@[simp] theorem thmTrip_upd_bankHeld (s : State) (v : List Nat) : (applyUpd (.thmTrip v) s).bankHeld = s.bankHeld := rfl
@[simp] theorem thmTrip_upd_bankTarget (s : State) (v : List Nat) : (applyUpd (.thmTrip v) s).bankTarget = s.bankTarget := rfl
@[simp] theorem thmTrip_upd_ecc (s : State) (v : List Nat) : (applyUpd (.thmTrip v) s).ecc = s.ecc := rfl
@[simp] theorem thmTrip_upd_lineEcc (s : State) (v : List Nat) : (applyUpd (.thmTrip v) s).lineEcc = s.lineEcc := rfl
@[simp] theorem thmTrip_upd_wbPending (s : State) (v : List Nat) : (applyUpd (.thmTrip v) s).wbPending = s.wbPending := rfl
@[simp] theorem thmTrip_upd_scrubPos (s : State) (v : List Nat) : (applyUpd (.thmTrip v) s).scrubPos = s.scrubPos := rfl
@[simp] theorem thmTrip_upd_refusals (s : State) (v : List Nat) : (applyUpd (.thmTrip v) s).refusals = s.refusals := rfl
@[simp] theorem thmTrip_upd_firstRefusal (s : State) (v : List Nat) : (applyUpd (.thmTrip v) s).firstRefusal = s.firstRefusal := rfl
@[simp] theorem thmTrip_upd_boxQueue (s : State) (v : List Nat) : (applyUpd (.thmTrip v) s).boxQueue = s.boxQueue := rfl
@[simp] theorem thmTrip_upd_boxRun (s : State) (v : List Nat) : (applyUpd (.thmTrip v) s).boxRun = s.boxRun := rfl
@[simp] theorem thmTrip_upd_kvs (s : State) (v : List Nat) : (applyUpd (.thmTrip v) s).kvs = s.kvs := rfl
@[simp] theorem thmTrip_upd_parts (s : State) (v : List Nat) : (applyUpd (.thmTrip v) s).parts = s.parts := rfl
@[simp] theorem thmTrip_upd_dmas (s : State) (v : List Nat) : (applyUpd (.thmTrip v) s).dmas = s.dmas := rfl
@[simp] theorem thmTrip_upd_regReqs (s : State) (v : List Nat) : (applyUpd (.thmTrip v) s).regReqs = s.regReqs := rfl
@[simp] theorem thmTrip_upd_regPorts (s : State) (v : List Nat) : (applyUpd (.thmTrip v) s).regPorts = s.regPorts := rfl
@[simp] theorem thmTrip_upd_subchs (s : State) (v : List Nat) : (applyUpd (.thmTrip v) s).subchs = s.subchs := rfl
@[simp] theorem thmTrip_upd_trackers (s : State) (v : List Nat) : (applyUpd (.thmTrip v) s).trackers = s.trackers := rfl
@[simp] theorem thmTrip_upd_throttles (s : State) (v : List Nat) : (applyUpd (.thmTrip v) s).throttles = s.throttles := rfl
@[simp] theorem thmTrip_upd_errRing (s : State) (v : List Nat) : (applyUpd (.thmTrip v) s).errRing = s.errRing := rfl
@[simp] theorem thmTrip_upd_errRingOvf (s : State) (v : List Nat) : (applyUpd (.thmTrip v) s).errRingOvf = s.errRingOvf := rfl
@[simp] theorem thmTrip_upd_patrolLine (s : State) (v : List Nat) : (applyUpd (.thmTrip v) s).patrolLine = s.patrolLine := rfl
@[simp] theorem thmTrip_upd_retTimes (s : State) (v : List Nat) : (applyUpd (.thmTrip v) s).retTimes = s.retTimes := rfl
@[simp] theorem thmTrip_upd_retired (s : State) (v : List Nat) : (applyUpd (.thmTrip v) s).retired = s.retired := rfl
@[simp] theorem thmTrip_upd_dramSeq (s : State) (v : List Nat) : (applyUpd (.thmTrip v) s).dramSeq = s.dramSeq := rfl
@[simp] theorem thmTrip_upd_trn (s : State) (v : List Nat) : (applyUpd (.thmTrip v) s).trn = s.trn := rfl
@[simp] theorem thmTrip_upd_dqsAdj (s : State) (v : List Nat) : (applyUpd (.thmTrip v) s).dqsAdj = s.dqsAdj := rfl
@[simp] theorem thmTrip_upd_dpol (s : State) (v : List Nat) : (applyUpd (.thmTrip v) s).dpol = s.dpol := rfl
@[simp] theorem thmTrip_upd_idleAt (s : State) (v : List Nat) : (applyUpd (.thmTrip v) s).idleAt = s.idleAt := rfl
@[simp] theorem thmTrip_upd_fitted (s : State) (v : List Nat) : (applyUpd (.thmTrip v) s).fitted = s.fitted := rfl
@[simp] theorem thmTrip_upd_faultMsgs (s : State) (v : List Nat) : (applyUpd (.thmTrip v) s).faultMsgs = s.faultMsgs := rfl
@[simp] theorem thmTrip_upd_out (s : State) (v : List Nat) : (applyUpd (.thmTrip v) s).out = s.out := rfl
@[simp] theorem thmTrip_upd_lastRead (s : State) (v : List Nat) : (applyUpd (.thmTrip v) s).lastRead = s.lastRead := rfl
@[simp] theorem thmTrip_upd_fwd (s : State) (v : List Nat) : (applyUpd (.thmTrip v) s).fwd = s.fwd := rfl
@[simp] theorem thmTrip_upd_ethTx (s : State) (v : List Nat) : (applyUpd (.thmTrip v) s).ethTx = s.ethTx := rfl
@[simp] theorem thmTrip_upd_ethHeadAt (s : State) (v : List Nat) : (applyUpd (.thmTrip v) s).ethHeadAt = s.ethHeadAt := rfl
@[simp] theorem thmTrip_upd_canTx (s : State) (v : List Nat) : (applyUpd (.thmTrip v) s).canTx = s.canTx := rfl
@[simp] theorem thmTrip_upd_pcieOut (s : State) (v : List Nat) : (applyUpd (.thmTrip v) s).pcieOut = s.pcieOut := rfl
@[simp] theorem thmTrip_upd_pcieCfgRd (s : State) (v : List Nat) : (applyUpd (.thmTrip v) s).pcieCfgRd = s.pcieCfgRd := rfl
@[simp] theorem thmTrip_upd_msix (s : State) (v : List Nat) : (applyUpd (.thmTrip v) s).msix = s.msix := rfl
@[simp] theorem thmTrip_upd_ancs (s : State) (v : List Nat) : (applyUpd (.thmTrip v) s).ancs = s.ancs := rfl
@[simp] theorem thmTrip_upd_trajArea (s : State) (v : List Nat) : (applyUpd (.thmTrip v) s).trajArea = s.trajArea := rfl
@[simp] theorem thmTrip_upd_lidarIn (s : State) (v : List Nat) : (applyUpd (.thmTrip v) s).lidarIn = s.lidarIn := rfl
@[simp] theorem thmTrip_upd_wheelIn (s : State) (v : List Nat) : (applyUpd (.thmTrip v) s).wheelIn = s.wheelIn := rfl
@[simp] theorem thmTrip_upd_spiStepBusy (s : State) (v : List Nat) : (applyUpd (.thmTrip v) s).spiStepBusy = s.spiStepBusy := rfl
@[simp] theorem thmTrip_upd_spiRec (s : State) (v : List Nat) : (applyUpd (.thmTrip v) s).spiRec = s.spiRec := rfl
@[simp] theorem thmTrip_upd_spiStepCfg (s : State) (v : List Nat) : (applyUpd (.thmTrip v) s).spiStepCfg = s.spiStepCfg := rfl
@[simp] theorem thmTrip_upd_ctxs (s : State) (v : List Nat) : (applyUpd (.thmTrip v) s).ctxs = s.ctxs := rfl
@[simp] theorem thmTrip_upd_fsyOmit (s : State) (v : List Nat) : (applyUpd (.thmTrip v) s).fsyOmit = s.fsyOmit := rfl
@[simp] theorem thmTrip_upd_fsyPulsed (s : State) (v : List Nat) : (applyUpd (.thmTrip v) s).fsyPulsed = s.fsyPulsed := rfl
@[simp] theorem thmTrip_upd_supTasks (s : State) (v : List Nat) : (applyUpd (.thmTrip v) s).supTasks = s.supTasks := rfl
@[simp] theorem thmTrip_upd_fus (s : State) (v : List Nat) : (applyUpd (.thmTrip v) s).fus = s.fus := rfl
@[simp] theorem thmTrip_upd_fcons (s : State) (v : List Nat) : (applyUpd (.thmTrip v) s).fcons = s.fcons := rfl
@[simp] theorem thmTrip_upd_shadow (s : State) (v : List Nat) : (applyUpd (.thmTrip v) s).shadow = s.shadow := rfl
@[simp] theorem thmTrip_upd_trv (s : State) (v : List Nat) : (applyUpd (.thmTrip v) s).trv = s.trv := rfl
@[simp] theorem thmTrip_upd_tlayers (s : State) (v : List Nat) : (applyUpd (.thmTrip v) s).tlayers = s.tlayers := rfl
@[simp] theorem thmTrip_upd_jobFaults (s : State) (v : List Nat) : (applyUpd (.thmTrip v) s).jobFaults = s.jobFaults := rfl
@[simp] theorem thmTrip_upd_unitLast (s : State) (v : List Nat) : (applyUpd (.thmTrip v) s).unitLast = s.unitLast := rfl
@[simp] theorem thmTrip_upd_unitRst (s : State) (v : List Nat) : (applyUpd (.thmTrip v) s).unitRst = s.unitRst := rfl
@[simp] theorem thmTrip_upd_xlink (s : State) (v : List Nat) : (applyUpd (.thmTrip v) s).xlink = s.xlink := rfl
@[simp] theorem thmTrip_upd_trace (s : State) (v : List Nat) : (applyUpd (.thmTrip v) s).trace = s.trace := rfl
@[simp] theorem thmTrip_upd_progs (s : State) (v : List Nat) : (applyUpd (.thmTrip v) s).progs = s.progs := rfl
@[simp] theorem thmTrip_upd_rails (s : State) (v : List Nat) : (applyUpd (.thmTrip v) s).rails = s.rails := rfl
@[simp] theorem thmTrip_upd_thm (s : State) (v : List Nat) : (applyUpd (.thmTrip v) s).thm = s.thm := rfl
@[simp] theorem thmTrip_upd_bnd (s : State) (v : List Nat) : (applyUpd (.thmTrip v) s).bnd = s.bnd := rfl
@[simp] theorem thmTrip_upd_thmTrip (s : State) (v : List Nat) : (applyUpd (.thmTrip v) s).thmTrip = v := rfl
@[simp] theorem thmTrip_upd_flash (s : State) (v : List Nat) : (applyUpd (.thmTrip v) s).flash = s.flash := rfl
@[simp] theorem thmTrip_upd_slots (s : State) (v : List Nat) : (applyUpd (.thmTrip v) s).slots = s.slots := rfl
@[simp] theorem thmTrip_upd_stores (s : State) (v : List Nat) : (applyUpd (.thmTrip v) s).stores = s.stores := rfl
@[simp] theorem thmTrip_upd_ids (s : State) (v : List Nat) : (applyUpd (.thmTrip v) s).ids = s.ids := rfl
@[simp] theorem thmTrip_upd_boot (s : State) (v : List Nat) : (applyUpd (.thmTrip v) s).boot = s.boot := rfl
@[simp] theorem thmTrip_upd_load (s : State) (v : List Nat) : (applyUpd (.thmTrip v) s).load = s.load := rfl
@[simp] theorem thmTrip_upd_flt (s : State) (v : List Nat) : (applyUpd (.thmTrip v) s).flt = s.flt := rfl
@[simp] theorem thmTrip_upd_mon (s : State) (v : List Nat) : (applyUpd (.thmTrip v) s).mon = s.mon := rfl
@[simp] theorem flash_upd_pending (s : State) (k : Nat) (v : Byte) : (applyUpd (.flash k v) s).pending = s.pending := rfl
@[simp] theorem flash_upd_regs (s : State) (k : Nat) (v : Byte) : (applyUpd (.flash k v) s).regs = s.regs := rfl
@[simp] theorem flash_upd_mem (s : State) (k : Nat) (v : Byte) : (applyUpd (.flash k v) s).mem = s.mem := rfl
@[simp] theorem flash_upd_sram (s : State) (k : Nat) (v : Byte) : (applyUpd (.flash k v) s).sram = s.sram := rfl
@[simp] theorem flash_upd_time (s : State) (k : Nat) (v : Byte) : (applyUpd (.flash k v) s).time = s.time := rfl
@[simp] theorem flash_upd_timeFrac (s : State) (k : Nat) (v : Byte) : (applyUpd (.flash k v) s).timeFrac = s.timeFrac := rfl
@[simp] theorem flash_upd_freeCtr (s : State) (k : Nat) (v : Byte) : (applyUpd (.flash k v) s).freeCtr = s.freeCtr := rfl
@[simp] theorem flash_upd_hiLatch (s : State) (k : Nat) (v : Byte) : (applyUpd (.flash k v) s).hiLatch = s.hiLatch := rfl
@[simp] theorem flash_upd_timeSet (s : State) (k : Nat) (v : Byte) : (applyUpd (.flash k v) s).timeSet = s.timeSet := rfl
@[simp] theorem flash_upd_n0 (s : State) (k : Nat) (v : Byte) : (applyUpd (.flash k v) s).n0 = s.n0 := rfl
@[simp] theorem flash_upd_ticked (s : State) (k : Nat) (v : Byte) : (applyUpd (.flash k v) s).ticked = s.ticked := rfl
@[simp] theorem flash_upd_peerTickAt (s : State) (k : Nat) (v : Byte) : (applyUpd (.flash k v) s).peerTickAt = s.peerTickAt := rfl
@[simp] theorem flash_upd_guardPitch (s : State) (k : Nat) (v : Byte) : (applyUpd (.flash k v) s).guardPitch = s.guardPitch := rfl
@[simp] theorem flash_upd_diePitch (s : State) (k : Nat) (v : Byte) : (applyUpd (.flash k v) s).diePitch = s.diePitch := rfl
@[simp] theorem flash_upd_resps (s : State) (k : Nat) (v : Byte) : (applyUpd (.flash k v) s).resps = s.resps := rfl
@[simp] theorem flash_upd_txns (s : State) (k : Nat) (v : Byte) : (applyUpd (.flash k v) s).txns = s.txns := rfl
@[simp] theorem flash_upd_nextTag (s : State) (k : Nat) (v : Byte) : (applyUpd (.flash k v) s).nextTag = s.nextTag := rfl
@[simp] theorem flash_upd_lateTags (s : State) (k : Nat) (v : Byte) : (applyUpd (.flash k v) s).lateTags = s.lateTags := rfl
@[simp] theorem flash_upd_ports (s : State) (k : Nat) (v : Byte) : (applyUpd (.flash k v) s).ports = s.ports := rfl
@[simp] theorem flash_upd_threads (s : State) (k : Nat) (v : Byte) : (applyUpd (.flash k v) s).threads = s.threads := rfl
@[simp] theorem flash_upd_cores (s : State) (k : Nat) (v : Byte) : (applyUpd (.flash k v) s).cores = s.cores := rfl
@[simp] theorem flash_upd_engines (s : State) (k : Nat) (v : Byte) : (applyUpd (.flash k v) s).engines = s.engines := rfl
@[simp] theorem flash_upd_held (s : State) (k : Nat) (v : Byte) : (applyUpd (.flash k v) s).held = s.held := rfl
@[simp] theorem flash_upd_watches (s : State) (k : Nat) (v : Byte) : (applyUpd (.flash k v) s).watches = s.watches := rfl
@[simp] theorem flash_upd_watchMsgs (s : State) (k : Nat) (v : Byte) : (applyUpd (.flash k v) s).watchMsgs = s.watchMsgs := rfl
@[simp] theorem flash_upd_bankHeld (s : State) (k : Nat) (v : Byte) : (applyUpd (.flash k v) s).bankHeld = s.bankHeld := rfl
@[simp] theorem flash_upd_bankTarget (s : State) (k : Nat) (v : Byte) : (applyUpd (.flash k v) s).bankTarget = s.bankTarget := rfl
@[simp] theorem flash_upd_ecc (s : State) (k : Nat) (v : Byte) : (applyUpd (.flash k v) s).ecc = s.ecc := rfl
@[simp] theorem flash_upd_lineEcc (s : State) (k : Nat) (v : Byte) : (applyUpd (.flash k v) s).lineEcc = s.lineEcc := rfl
@[simp] theorem flash_upd_wbPending (s : State) (k : Nat) (v : Byte) : (applyUpd (.flash k v) s).wbPending = s.wbPending := rfl
@[simp] theorem flash_upd_scrubPos (s : State) (k : Nat) (v : Byte) : (applyUpd (.flash k v) s).scrubPos = s.scrubPos := rfl
@[simp] theorem flash_upd_refusals (s : State) (k : Nat) (v : Byte) : (applyUpd (.flash k v) s).refusals = s.refusals := rfl
@[simp] theorem flash_upd_firstRefusal (s : State) (k : Nat) (v : Byte) : (applyUpd (.flash k v) s).firstRefusal = s.firstRefusal := rfl
@[simp] theorem flash_upd_boxQueue (s : State) (k : Nat) (v : Byte) : (applyUpd (.flash k v) s).boxQueue = s.boxQueue := rfl
@[simp] theorem flash_upd_boxRun (s : State) (k : Nat) (v : Byte) : (applyUpd (.flash k v) s).boxRun = s.boxRun := rfl
@[simp] theorem flash_upd_kvs (s : State) (k : Nat) (v : Byte) : (applyUpd (.flash k v) s).kvs = s.kvs := rfl
@[simp] theorem flash_upd_parts (s : State) (k : Nat) (v : Byte) : (applyUpd (.flash k v) s).parts = s.parts := rfl
@[simp] theorem flash_upd_dmas (s : State) (k : Nat) (v : Byte) : (applyUpd (.flash k v) s).dmas = s.dmas := rfl
@[simp] theorem flash_upd_regReqs (s : State) (k : Nat) (v : Byte) : (applyUpd (.flash k v) s).regReqs = s.regReqs := rfl
@[simp] theorem flash_upd_regPorts (s : State) (k : Nat) (v : Byte) : (applyUpd (.flash k v) s).regPorts = s.regPorts := rfl
@[simp] theorem flash_upd_subchs (s : State) (k : Nat) (v : Byte) : (applyUpd (.flash k v) s).subchs = s.subchs := rfl
@[simp] theorem flash_upd_trackers (s : State) (k : Nat) (v : Byte) : (applyUpd (.flash k v) s).trackers = s.trackers := rfl
@[simp] theorem flash_upd_throttles (s : State) (k : Nat) (v : Byte) : (applyUpd (.flash k v) s).throttles = s.throttles := rfl
@[simp] theorem flash_upd_errRing (s : State) (k : Nat) (v : Byte) : (applyUpd (.flash k v) s).errRing = s.errRing := rfl
@[simp] theorem flash_upd_errRingOvf (s : State) (k : Nat) (v : Byte) : (applyUpd (.flash k v) s).errRingOvf = s.errRingOvf := rfl
@[simp] theorem flash_upd_patrolLine (s : State) (k : Nat) (v : Byte) : (applyUpd (.flash k v) s).patrolLine = s.patrolLine := rfl
@[simp] theorem flash_upd_retTimes (s : State) (k : Nat) (v : Byte) : (applyUpd (.flash k v) s).retTimes = s.retTimes := rfl
@[simp] theorem flash_upd_retired (s : State) (k : Nat) (v : Byte) : (applyUpd (.flash k v) s).retired = s.retired := rfl
@[simp] theorem flash_upd_dramSeq (s : State) (k : Nat) (v : Byte) : (applyUpd (.flash k v) s).dramSeq = s.dramSeq := rfl
@[simp] theorem flash_upd_trn (s : State) (k : Nat) (v : Byte) : (applyUpd (.flash k v) s).trn = s.trn := rfl
@[simp] theorem flash_upd_dqsAdj (s : State) (k : Nat) (v : Byte) : (applyUpd (.flash k v) s).dqsAdj = s.dqsAdj := rfl
@[simp] theorem flash_upd_dpol (s : State) (k : Nat) (v : Byte) : (applyUpd (.flash k v) s).dpol = s.dpol := rfl
@[simp] theorem flash_upd_idleAt (s : State) (k : Nat) (v : Byte) : (applyUpd (.flash k v) s).idleAt = s.idleAt := rfl
@[simp] theorem flash_upd_fitted (s : State) (k : Nat) (v : Byte) : (applyUpd (.flash k v) s).fitted = s.fitted := rfl
@[simp] theorem flash_upd_faultMsgs (s : State) (k : Nat) (v : Byte) : (applyUpd (.flash k v) s).faultMsgs = s.faultMsgs := rfl
@[simp] theorem flash_upd_out (s : State) (k : Nat) (v : Byte) : (applyUpd (.flash k v) s).out = s.out := rfl
@[simp] theorem flash_upd_lastRead (s : State) (k : Nat) (v : Byte) : (applyUpd (.flash k v) s).lastRead = s.lastRead := rfl
@[simp] theorem flash_upd_fwd (s : State) (k : Nat) (v : Byte) : (applyUpd (.flash k v) s).fwd = s.fwd := rfl
@[simp] theorem flash_upd_ethTx (s : State) (k : Nat) (v : Byte) : (applyUpd (.flash k v) s).ethTx = s.ethTx := rfl
@[simp] theorem flash_upd_ethHeadAt (s : State) (k : Nat) (v : Byte) : (applyUpd (.flash k v) s).ethHeadAt = s.ethHeadAt := rfl
@[simp] theorem flash_upd_canTx (s : State) (k : Nat) (v : Byte) : (applyUpd (.flash k v) s).canTx = s.canTx := rfl
@[simp] theorem flash_upd_pcieOut (s : State) (k : Nat) (v : Byte) : (applyUpd (.flash k v) s).pcieOut = s.pcieOut := rfl
@[simp] theorem flash_upd_pcieCfgRd (s : State) (k : Nat) (v : Byte) : (applyUpd (.flash k v) s).pcieCfgRd = s.pcieCfgRd := rfl
@[simp] theorem flash_upd_msix (s : State) (k : Nat) (v : Byte) : (applyUpd (.flash k v) s).msix = s.msix := rfl
@[simp] theorem flash_upd_ancs (s : State) (k : Nat) (v : Byte) : (applyUpd (.flash k v) s).ancs = s.ancs := rfl
@[simp] theorem flash_upd_trajArea (s : State) (k : Nat) (v : Byte) : (applyUpd (.flash k v) s).trajArea = s.trajArea := rfl
@[simp] theorem flash_upd_lidarIn (s : State) (k : Nat) (v : Byte) : (applyUpd (.flash k v) s).lidarIn = s.lidarIn := rfl
@[simp] theorem flash_upd_wheelIn (s : State) (k : Nat) (v : Byte) : (applyUpd (.flash k v) s).wheelIn = s.wheelIn := rfl
@[simp] theorem flash_upd_spiStepBusy (s : State) (k : Nat) (v : Byte) : (applyUpd (.flash k v) s).spiStepBusy = s.spiStepBusy := rfl
@[simp] theorem flash_upd_spiRec (s : State) (k : Nat) (v : Byte) : (applyUpd (.flash k v) s).spiRec = s.spiRec := rfl
@[simp] theorem flash_upd_spiStepCfg (s : State) (k : Nat) (v : Byte) : (applyUpd (.flash k v) s).spiStepCfg = s.spiStepCfg := rfl
@[simp] theorem flash_upd_ctxs (s : State) (k : Nat) (v : Byte) : (applyUpd (.flash k v) s).ctxs = s.ctxs := rfl
@[simp] theorem flash_upd_fsyOmit (s : State) (k : Nat) (v : Byte) : (applyUpd (.flash k v) s).fsyOmit = s.fsyOmit := rfl
@[simp] theorem flash_upd_fsyPulsed (s : State) (k : Nat) (v : Byte) : (applyUpd (.flash k v) s).fsyPulsed = s.fsyPulsed := rfl
@[simp] theorem flash_upd_supTasks (s : State) (k : Nat) (v : Byte) : (applyUpd (.flash k v) s).supTasks = s.supTasks := rfl
@[simp] theorem flash_upd_fus (s : State) (k : Nat) (v : Byte) : (applyUpd (.flash k v) s).fus = s.fus := rfl
@[simp] theorem flash_upd_fcons (s : State) (k : Nat) (v : Byte) : (applyUpd (.flash k v) s).fcons = s.fcons := rfl
@[simp] theorem flash_upd_shadow (s : State) (k : Nat) (v : Byte) : (applyUpd (.flash k v) s).shadow = s.shadow := rfl
@[simp] theorem flash_upd_trv (s : State) (k : Nat) (v : Byte) : (applyUpd (.flash k v) s).trv = s.trv := rfl
@[simp] theorem flash_upd_tlayers (s : State) (k : Nat) (v : Byte) : (applyUpd (.flash k v) s).tlayers = s.tlayers := rfl
@[simp] theorem flash_upd_jobFaults (s : State) (k : Nat) (v : Byte) : (applyUpd (.flash k v) s).jobFaults = s.jobFaults := rfl
@[simp] theorem flash_upd_unitLast (s : State) (k : Nat) (v : Byte) : (applyUpd (.flash k v) s).unitLast = s.unitLast := rfl
@[simp] theorem flash_upd_unitRst (s : State) (k : Nat) (v : Byte) : (applyUpd (.flash k v) s).unitRst = s.unitRst := rfl
@[simp] theorem flash_upd_xlink (s : State) (k : Nat) (v : Byte) : (applyUpd (.flash k v) s).xlink = s.xlink := rfl
@[simp] theorem flash_upd_trace (s : State) (k : Nat) (v : Byte) : (applyUpd (.flash k v) s).trace = s.trace := rfl
@[simp] theorem flash_upd_progs (s : State) (k : Nat) (v : Byte) : (applyUpd (.flash k v) s).progs = s.progs := rfl
@[simp] theorem flash_upd_rails (s : State) (k : Nat) (v : Byte) : (applyUpd (.flash k v) s).rails = s.rails := rfl
@[simp] theorem flash_upd_thm (s : State) (k : Nat) (v : Byte) : (applyUpd (.flash k v) s).thm = s.thm := rfl
@[simp] theorem flash_upd_bnd (s : State) (k : Nat) (v : Byte) : (applyUpd (.flash k v) s).bnd = s.bnd := rfl
@[simp] theorem flash_upd_thmTrip (s : State) (k : Nat) (v : Byte) : (applyUpd (.flash k v) s).thmTrip = s.thmTrip := rfl
@[simp] theorem flash_upd_flash (s : State) (k : Nat) (v : Byte) : (applyUpd (.flash k v) s).flash = tabSet memDefault s.flash k v := rfl
@[simp] theorem flash_upd_slots (s : State) (k : Nat) (v : Byte) : (applyUpd (.flash k v) s).slots = s.slots := rfl
@[simp] theorem flash_upd_stores (s : State) (k : Nat) (v : Byte) : (applyUpd (.flash k v) s).stores = s.stores := rfl
@[simp] theorem flash_upd_ids (s : State) (k : Nat) (v : Byte) : (applyUpd (.flash k v) s).ids = s.ids := rfl
@[simp] theorem flash_upd_boot (s : State) (k : Nat) (v : Byte) : (applyUpd (.flash k v) s).boot = s.boot := rfl
@[simp] theorem flash_upd_load (s : State) (k : Nat) (v : Byte) : (applyUpd (.flash k v) s).load = s.load := rfl
@[simp] theorem flash_upd_flt (s : State) (k : Nat) (v : Byte) : (applyUpd (.flash k v) s).flt = s.flt := rfl
@[simp] theorem flash_upd_mon (s : State) (k : Nat) (v : Byte) : (applyUpd (.flash k v) s).mon = s.mon := rfl
@[simp] theorem slots_upd_pending (s : State) (k : Nat) (v : SlotSt) : (applyUpd (.slots k v) s).pending = s.pending := rfl
@[simp] theorem slots_upd_regs (s : State) (k : Nat) (v : SlotSt) : (applyUpd (.slots k v) s).regs = s.regs := rfl
@[simp] theorem slots_upd_mem (s : State) (k : Nat) (v : SlotSt) : (applyUpd (.slots k v) s).mem = s.mem := rfl
@[simp] theorem slots_upd_sram (s : State) (k : Nat) (v : SlotSt) : (applyUpd (.slots k v) s).sram = s.sram := rfl
@[simp] theorem slots_upd_time (s : State) (k : Nat) (v : SlotSt) : (applyUpd (.slots k v) s).time = s.time := rfl
@[simp] theorem slots_upd_timeFrac (s : State) (k : Nat) (v : SlotSt) : (applyUpd (.slots k v) s).timeFrac = s.timeFrac := rfl
@[simp] theorem slots_upd_freeCtr (s : State) (k : Nat) (v : SlotSt) : (applyUpd (.slots k v) s).freeCtr = s.freeCtr := rfl
@[simp] theorem slots_upd_hiLatch (s : State) (k : Nat) (v : SlotSt) : (applyUpd (.slots k v) s).hiLatch = s.hiLatch := rfl
@[simp] theorem slots_upd_timeSet (s : State) (k : Nat) (v : SlotSt) : (applyUpd (.slots k v) s).timeSet = s.timeSet := rfl
@[simp] theorem slots_upd_n0 (s : State) (k : Nat) (v : SlotSt) : (applyUpd (.slots k v) s).n0 = s.n0 := rfl
@[simp] theorem slots_upd_ticked (s : State) (k : Nat) (v : SlotSt) : (applyUpd (.slots k v) s).ticked = s.ticked := rfl
@[simp] theorem slots_upd_peerTickAt (s : State) (k : Nat) (v : SlotSt) : (applyUpd (.slots k v) s).peerTickAt = s.peerTickAt := rfl
@[simp] theorem slots_upd_guardPitch (s : State) (k : Nat) (v : SlotSt) : (applyUpd (.slots k v) s).guardPitch = s.guardPitch := rfl
@[simp] theorem slots_upd_diePitch (s : State) (k : Nat) (v : SlotSt) : (applyUpd (.slots k v) s).diePitch = s.diePitch := rfl
@[simp] theorem slots_upd_resps (s : State) (k : Nat) (v : SlotSt) : (applyUpd (.slots k v) s).resps = s.resps := rfl
@[simp] theorem slots_upd_txns (s : State) (k : Nat) (v : SlotSt) : (applyUpd (.slots k v) s).txns = s.txns := rfl
@[simp] theorem slots_upd_nextTag (s : State) (k : Nat) (v : SlotSt) : (applyUpd (.slots k v) s).nextTag = s.nextTag := rfl
@[simp] theorem slots_upd_lateTags (s : State) (k : Nat) (v : SlotSt) : (applyUpd (.slots k v) s).lateTags = s.lateTags := rfl
@[simp] theorem slots_upd_ports (s : State) (k : Nat) (v : SlotSt) : (applyUpd (.slots k v) s).ports = s.ports := rfl
@[simp] theorem slots_upd_threads (s : State) (k : Nat) (v : SlotSt) : (applyUpd (.slots k v) s).threads = s.threads := rfl
@[simp] theorem slots_upd_cores (s : State) (k : Nat) (v : SlotSt) : (applyUpd (.slots k v) s).cores = s.cores := rfl
@[simp] theorem slots_upd_engines (s : State) (k : Nat) (v : SlotSt) : (applyUpd (.slots k v) s).engines = s.engines := rfl
@[simp] theorem slots_upd_held (s : State) (k : Nat) (v : SlotSt) : (applyUpd (.slots k v) s).held = s.held := rfl
@[simp] theorem slots_upd_watches (s : State) (k : Nat) (v : SlotSt) : (applyUpd (.slots k v) s).watches = s.watches := rfl
@[simp] theorem slots_upd_watchMsgs (s : State) (k : Nat) (v : SlotSt) : (applyUpd (.slots k v) s).watchMsgs = s.watchMsgs := rfl
@[simp] theorem slots_upd_bankHeld (s : State) (k : Nat) (v : SlotSt) : (applyUpd (.slots k v) s).bankHeld = s.bankHeld := rfl
@[simp] theorem slots_upd_bankTarget (s : State) (k : Nat) (v : SlotSt) : (applyUpd (.slots k v) s).bankTarget = s.bankTarget := rfl
@[simp] theorem slots_upd_ecc (s : State) (k : Nat) (v : SlotSt) : (applyUpd (.slots k v) s).ecc = s.ecc := rfl
@[simp] theorem slots_upd_lineEcc (s : State) (k : Nat) (v : SlotSt) : (applyUpd (.slots k v) s).lineEcc = s.lineEcc := rfl
@[simp] theorem slots_upd_wbPending (s : State) (k : Nat) (v : SlotSt) : (applyUpd (.slots k v) s).wbPending = s.wbPending := rfl
@[simp] theorem slots_upd_scrubPos (s : State) (k : Nat) (v : SlotSt) : (applyUpd (.slots k v) s).scrubPos = s.scrubPos := rfl
@[simp] theorem slots_upd_refusals (s : State) (k : Nat) (v : SlotSt) : (applyUpd (.slots k v) s).refusals = s.refusals := rfl
@[simp] theorem slots_upd_firstRefusal (s : State) (k : Nat) (v : SlotSt) : (applyUpd (.slots k v) s).firstRefusal = s.firstRefusal := rfl
@[simp] theorem slots_upd_boxQueue (s : State) (k : Nat) (v : SlotSt) : (applyUpd (.slots k v) s).boxQueue = s.boxQueue := rfl
@[simp] theorem slots_upd_boxRun (s : State) (k : Nat) (v : SlotSt) : (applyUpd (.slots k v) s).boxRun = s.boxRun := rfl
@[simp] theorem slots_upd_kvs (s : State) (k : Nat) (v : SlotSt) : (applyUpd (.slots k v) s).kvs = s.kvs := rfl
@[simp] theorem slots_upd_parts (s : State) (k : Nat) (v : SlotSt) : (applyUpd (.slots k v) s).parts = s.parts := rfl
@[simp] theorem slots_upd_dmas (s : State) (k : Nat) (v : SlotSt) : (applyUpd (.slots k v) s).dmas = s.dmas := rfl
@[simp] theorem slots_upd_regReqs (s : State) (k : Nat) (v : SlotSt) : (applyUpd (.slots k v) s).regReqs = s.regReqs := rfl
@[simp] theorem slots_upd_regPorts (s : State) (k : Nat) (v : SlotSt) : (applyUpd (.slots k v) s).regPorts = s.regPorts := rfl
@[simp] theorem slots_upd_subchs (s : State) (k : Nat) (v : SlotSt) : (applyUpd (.slots k v) s).subchs = s.subchs := rfl
@[simp] theorem slots_upd_trackers (s : State) (k : Nat) (v : SlotSt) : (applyUpd (.slots k v) s).trackers = s.trackers := rfl
@[simp] theorem slots_upd_throttles (s : State) (k : Nat) (v : SlotSt) : (applyUpd (.slots k v) s).throttles = s.throttles := rfl
@[simp] theorem slots_upd_errRing (s : State) (k : Nat) (v : SlotSt) : (applyUpd (.slots k v) s).errRing = s.errRing := rfl
@[simp] theorem slots_upd_errRingOvf (s : State) (k : Nat) (v : SlotSt) : (applyUpd (.slots k v) s).errRingOvf = s.errRingOvf := rfl
@[simp] theorem slots_upd_patrolLine (s : State) (k : Nat) (v : SlotSt) : (applyUpd (.slots k v) s).patrolLine = s.patrolLine := rfl
@[simp] theorem slots_upd_retTimes (s : State) (k : Nat) (v : SlotSt) : (applyUpd (.slots k v) s).retTimes = s.retTimes := rfl
@[simp] theorem slots_upd_retired (s : State) (k : Nat) (v : SlotSt) : (applyUpd (.slots k v) s).retired = s.retired := rfl
@[simp] theorem slots_upd_dramSeq (s : State) (k : Nat) (v : SlotSt) : (applyUpd (.slots k v) s).dramSeq = s.dramSeq := rfl
@[simp] theorem slots_upd_trn (s : State) (k : Nat) (v : SlotSt) : (applyUpd (.slots k v) s).trn = s.trn := rfl
@[simp] theorem slots_upd_dqsAdj (s : State) (k : Nat) (v : SlotSt) : (applyUpd (.slots k v) s).dqsAdj = s.dqsAdj := rfl
@[simp] theorem slots_upd_dpol (s : State) (k : Nat) (v : SlotSt) : (applyUpd (.slots k v) s).dpol = s.dpol := rfl
@[simp] theorem slots_upd_idleAt (s : State) (k : Nat) (v : SlotSt) : (applyUpd (.slots k v) s).idleAt = s.idleAt := rfl
@[simp] theorem slots_upd_fitted (s : State) (k : Nat) (v : SlotSt) : (applyUpd (.slots k v) s).fitted = s.fitted := rfl
@[simp] theorem slots_upd_faultMsgs (s : State) (k : Nat) (v : SlotSt) : (applyUpd (.slots k v) s).faultMsgs = s.faultMsgs := rfl
@[simp] theorem slots_upd_out (s : State) (k : Nat) (v : SlotSt) : (applyUpd (.slots k v) s).out = s.out := rfl
@[simp] theorem slots_upd_lastRead (s : State) (k : Nat) (v : SlotSt) : (applyUpd (.slots k v) s).lastRead = s.lastRead := rfl
@[simp] theorem slots_upd_fwd (s : State) (k : Nat) (v : SlotSt) : (applyUpd (.slots k v) s).fwd = s.fwd := rfl
@[simp] theorem slots_upd_ethTx (s : State) (k : Nat) (v : SlotSt) : (applyUpd (.slots k v) s).ethTx = s.ethTx := rfl
@[simp] theorem slots_upd_ethHeadAt (s : State) (k : Nat) (v : SlotSt) : (applyUpd (.slots k v) s).ethHeadAt = s.ethHeadAt := rfl
@[simp] theorem slots_upd_canTx (s : State) (k : Nat) (v : SlotSt) : (applyUpd (.slots k v) s).canTx = s.canTx := rfl
@[simp] theorem slots_upd_pcieOut (s : State) (k : Nat) (v : SlotSt) : (applyUpd (.slots k v) s).pcieOut = s.pcieOut := rfl
@[simp] theorem slots_upd_pcieCfgRd (s : State) (k : Nat) (v : SlotSt) : (applyUpd (.slots k v) s).pcieCfgRd = s.pcieCfgRd := rfl
@[simp] theorem slots_upd_msix (s : State) (k : Nat) (v : SlotSt) : (applyUpd (.slots k v) s).msix = s.msix := rfl
@[simp] theorem slots_upd_ancs (s : State) (k : Nat) (v : SlotSt) : (applyUpd (.slots k v) s).ancs = s.ancs := rfl
@[simp] theorem slots_upd_trajArea (s : State) (k : Nat) (v : SlotSt) : (applyUpd (.slots k v) s).trajArea = s.trajArea := rfl
@[simp] theorem slots_upd_lidarIn (s : State) (k : Nat) (v : SlotSt) : (applyUpd (.slots k v) s).lidarIn = s.lidarIn := rfl
@[simp] theorem slots_upd_wheelIn (s : State) (k : Nat) (v : SlotSt) : (applyUpd (.slots k v) s).wheelIn = s.wheelIn := rfl
@[simp] theorem slots_upd_spiStepBusy (s : State) (k : Nat) (v : SlotSt) : (applyUpd (.slots k v) s).spiStepBusy = s.spiStepBusy := rfl
@[simp] theorem slots_upd_spiRec (s : State) (k : Nat) (v : SlotSt) : (applyUpd (.slots k v) s).spiRec = s.spiRec := rfl
@[simp] theorem slots_upd_spiStepCfg (s : State) (k : Nat) (v : SlotSt) : (applyUpd (.slots k v) s).spiStepCfg = s.spiStepCfg := rfl
@[simp] theorem slots_upd_ctxs (s : State) (k : Nat) (v : SlotSt) : (applyUpd (.slots k v) s).ctxs = s.ctxs := rfl
@[simp] theorem slots_upd_fsyOmit (s : State) (k : Nat) (v : SlotSt) : (applyUpd (.slots k v) s).fsyOmit = s.fsyOmit := rfl
@[simp] theorem slots_upd_fsyPulsed (s : State) (k : Nat) (v : SlotSt) : (applyUpd (.slots k v) s).fsyPulsed = s.fsyPulsed := rfl
@[simp] theorem slots_upd_supTasks (s : State) (k : Nat) (v : SlotSt) : (applyUpd (.slots k v) s).supTasks = s.supTasks := rfl
@[simp] theorem slots_upd_fus (s : State) (k : Nat) (v : SlotSt) : (applyUpd (.slots k v) s).fus = s.fus := rfl
@[simp] theorem slots_upd_fcons (s : State) (k : Nat) (v : SlotSt) : (applyUpd (.slots k v) s).fcons = s.fcons := rfl
@[simp] theorem slots_upd_shadow (s : State) (k : Nat) (v : SlotSt) : (applyUpd (.slots k v) s).shadow = s.shadow := rfl
@[simp] theorem slots_upd_trv (s : State) (k : Nat) (v : SlotSt) : (applyUpd (.slots k v) s).trv = s.trv := rfl
@[simp] theorem slots_upd_tlayers (s : State) (k : Nat) (v : SlotSt) : (applyUpd (.slots k v) s).tlayers = s.tlayers := rfl
@[simp] theorem slots_upd_jobFaults (s : State) (k : Nat) (v : SlotSt) : (applyUpd (.slots k v) s).jobFaults = s.jobFaults := rfl
@[simp] theorem slots_upd_unitLast (s : State) (k : Nat) (v : SlotSt) : (applyUpd (.slots k v) s).unitLast = s.unitLast := rfl
@[simp] theorem slots_upd_unitRst (s : State) (k : Nat) (v : SlotSt) : (applyUpd (.slots k v) s).unitRst = s.unitRst := rfl
@[simp] theorem slots_upd_xlink (s : State) (k : Nat) (v : SlotSt) : (applyUpd (.slots k v) s).xlink = s.xlink := rfl
@[simp] theorem slots_upd_trace (s : State) (k : Nat) (v : SlotSt) : (applyUpd (.slots k v) s).trace = s.trace := rfl
@[simp] theorem slots_upd_progs (s : State) (k : Nat) (v : SlotSt) : (applyUpd (.slots k v) s).progs = s.progs := rfl
@[simp] theorem slots_upd_rails (s : State) (k : Nat) (v : SlotSt) : (applyUpd (.slots k v) s).rails = s.rails := rfl
@[simp] theorem slots_upd_thm (s : State) (k : Nat) (v : SlotSt) : (applyUpd (.slots k v) s).thm = s.thm := rfl
@[simp] theorem slots_upd_bnd (s : State) (k : Nat) (v : SlotSt) : (applyUpd (.slots k v) s).bnd = s.bnd := rfl
@[simp] theorem slots_upd_thmTrip (s : State) (k : Nat) (v : SlotSt) : (applyUpd (.slots k v) s).thmTrip = s.thmTrip := rfl
@[simp] theorem slots_upd_flash (s : State) (k : Nat) (v : SlotSt) : (applyUpd (.slots k v) s).flash = s.flash := rfl
@[simp] theorem slots_upd_slots (s : State) (k : Nat) (v : SlotSt) : (applyUpd (.slots k v) s).slots = tabSet slotDefault s.slots k v := rfl
@[simp] theorem slots_upd_stores (s : State) (k : Nat) (v : SlotSt) : (applyUpd (.slots k v) s).stores = s.stores := rfl
@[simp] theorem slots_upd_ids (s : State) (k : Nat) (v : SlotSt) : (applyUpd (.slots k v) s).ids = s.ids := rfl
@[simp] theorem slots_upd_boot (s : State) (k : Nat) (v : SlotSt) : (applyUpd (.slots k v) s).boot = s.boot := rfl
@[simp] theorem slots_upd_load (s : State) (k : Nat) (v : SlotSt) : (applyUpd (.slots k v) s).load = s.load := rfl
@[simp] theorem slots_upd_flt (s : State) (k : Nat) (v : SlotSt) : (applyUpd (.slots k v) s).flt = s.flt := rfl
@[simp] theorem slots_upd_mon (s : State) (k : Nat) (v : SlotSt) : (applyUpd (.slots k v) s).mon = s.mon := rfl
@[simp] theorem stores_upd_pending (s : State) (k : Nat) (v : Store) : (applyUpd (.stores k v) s).pending = s.pending := rfl
@[simp] theorem stores_upd_regs (s : State) (k : Nat) (v : Store) : (applyUpd (.stores k v) s).regs = s.regs := rfl
@[simp] theorem stores_upd_mem (s : State) (k : Nat) (v : Store) : (applyUpd (.stores k v) s).mem = s.mem := rfl
@[simp] theorem stores_upd_sram (s : State) (k : Nat) (v : Store) : (applyUpd (.stores k v) s).sram = s.sram := rfl
@[simp] theorem stores_upd_time (s : State) (k : Nat) (v : Store) : (applyUpd (.stores k v) s).time = s.time := rfl
@[simp] theorem stores_upd_timeFrac (s : State) (k : Nat) (v : Store) : (applyUpd (.stores k v) s).timeFrac = s.timeFrac := rfl
@[simp] theorem stores_upd_freeCtr (s : State) (k : Nat) (v : Store) : (applyUpd (.stores k v) s).freeCtr = s.freeCtr := rfl
@[simp] theorem stores_upd_hiLatch (s : State) (k : Nat) (v : Store) : (applyUpd (.stores k v) s).hiLatch = s.hiLatch := rfl
@[simp] theorem stores_upd_timeSet (s : State) (k : Nat) (v : Store) : (applyUpd (.stores k v) s).timeSet = s.timeSet := rfl
@[simp] theorem stores_upd_n0 (s : State) (k : Nat) (v : Store) : (applyUpd (.stores k v) s).n0 = s.n0 := rfl
@[simp] theorem stores_upd_ticked (s : State) (k : Nat) (v : Store) : (applyUpd (.stores k v) s).ticked = s.ticked := rfl
@[simp] theorem stores_upd_peerTickAt (s : State) (k : Nat) (v : Store) : (applyUpd (.stores k v) s).peerTickAt = s.peerTickAt := rfl
@[simp] theorem stores_upd_guardPitch (s : State) (k : Nat) (v : Store) : (applyUpd (.stores k v) s).guardPitch = s.guardPitch := rfl
@[simp] theorem stores_upd_diePitch (s : State) (k : Nat) (v : Store) : (applyUpd (.stores k v) s).diePitch = s.diePitch := rfl
@[simp] theorem stores_upd_resps (s : State) (k : Nat) (v : Store) : (applyUpd (.stores k v) s).resps = s.resps := rfl
@[simp] theorem stores_upd_txns (s : State) (k : Nat) (v : Store) : (applyUpd (.stores k v) s).txns = s.txns := rfl
@[simp] theorem stores_upd_nextTag (s : State) (k : Nat) (v : Store) : (applyUpd (.stores k v) s).nextTag = s.nextTag := rfl
@[simp] theorem stores_upd_lateTags (s : State) (k : Nat) (v : Store) : (applyUpd (.stores k v) s).lateTags = s.lateTags := rfl
@[simp] theorem stores_upd_ports (s : State) (k : Nat) (v : Store) : (applyUpd (.stores k v) s).ports = s.ports := rfl
@[simp] theorem stores_upd_threads (s : State) (k : Nat) (v : Store) : (applyUpd (.stores k v) s).threads = s.threads := rfl
@[simp] theorem stores_upd_cores (s : State) (k : Nat) (v : Store) : (applyUpd (.stores k v) s).cores = s.cores := rfl
@[simp] theorem stores_upd_engines (s : State) (k : Nat) (v : Store) : (applyUpd (.stores k v) s).engines = s.engines := rfl
@[simp] theorem stores_upd_held (s : State) (k : Nat) (v : Store) : (applyUpd (.stores k v) s).held = s.held := rfl
@[simp] theorem stores_upd_watches (s : State) (k : Nat) (v : Store) : (applyUpd (.stores k v) s).watches = s.watches := rfl
@[simp] theorem stores_upd_watchMsgs (s : State) (k : Nat) (v : Store) : (applyUpd (.stores k v) s).watchMsgs = s.watchMsgs := rfl
@[simp] theorem stores_upd_bankHeld (s : State) (k : Nat) (v : Store) : (applyUpd (.stores k v) s).bankHeld = s.bankHeld := rfl
@[simp] theorem stores_upd_bankTarget (s : State) (k : Nat) (v : Store) : (applyUpd (.stores k v) s).bankTarget = s.bankTarget := rfl
@[simp] theorem stores_upd_ecc (s : State) (k : Nat) (v : Store) : (applyUpd (.stores k v) s).ecc = s.ecc := rfl
@[simp] theorem stores_upd_lineEcc (s : State) (k : Nat) (v : Store) : (applyUpd (.stores k v) s).lineEcc = s.lineEcc := rfl
@[simp] theorem stores_upd_wbPending (s : State) (k : Nat) (v : Store) : (applyUpd (.stores k v) s).wbPending = s.wbPending := rfl
@[simp] theorem stores_upd_scrubPos (s : State) (k : Nat) (v : Store) : (applyUpd (.stores k v) s).scrubPos = s.scrubPos := rfl
@[simp] theorem stores_upd_refusals (s : State) (k : Nat) (v : Store) : (applyUpd (.stores k v) s).refusals = s.refusals := rfl
@[simp] theorem stores_upd_firstRefusal (s : State) (k : Nat) (v : Store) : (applyUpd (.stores k v) s).firstRefusal = s.firstRefusal := rfl
@[simp] theorem stores_upd_boxQueue (s : State) (k : Nat) (v : Store) : (applyUpd (.stores k v) s).boxQueue = s.boxQueue := rfl
@[simp] theorem stores_upd_boxRun (s : State) (k : Nat) (v : Store) : (applyUpd (.stores k v) s).boxRun = s.boxRun := rfl
@[simp] theorem stores_upd_kvs (s : State) (k : Nat) (v : Store) : (applyUpd (.stores k v) s).kvs = s.kvs := rfl
@[simp] theorem stores_upd_parts (s : State) (k : Nat) (v : Store) : (applyUpd (.stores k v) s).parts = s.parts := rfl
@[simp] theorem stores_upd_dmas (s : State) (k : Nat) (v : Store) : (applyUpd (.stores k v) s).dmas = s.dmas := rfl
@[simp] theorem stores_upd_regReqs (s : State) (k : Nat) (v : Store) : (applyUpd (.stores k v) s).regReqs = s.regReqs := rfl
@[simp] theorem stores_upd_regPorts (s : State) (k : Nat) (v : Store) : (applyUpd (.stores k v) s).regPorts = s.regPorts := rfl
@[simp] theorem stores_upd_subchs (s : State) (k : Nat) (v : Store) : (applyUpd (.stores k v) s).subchs = s.subchs := rfl
@[simp] theorem stores_upd_trackers (s : State) (k : Nat) (v : Store) : (applyUpd (.stores k v) s).trackers = s.trackers := rfl
@[simp] theorem stores_upd_throttles (s : State) (k : Nat) (v : Store) : (applyUpd (.stores k v) s).throttles = s.throttles := rfl
@[simp] theorem stores_upd_errRing (s : State) (k : Nat) (v : Store) : (applyUpd (.stores k v) s).errRing = s.errRing := rfl
@[simp] theorem stores_upd_errRingOvf (s : State) (k : Nat) (v : Store) : (applyUpd (.stores k v) s).errRingOvf = s.errRingOvf := rfl
@[simp] theorem stores_upd_patrolLine (s : State) (k : Nat) (v : Store) : (applyUpd (.stores k v) s).patrolLine = s.patrolLine := rfl
@[simp] theorem stores_upd_retTimes (s : State) (k : Nat) (v : Store) : (applyUpd (.stores k v) s).retTimes = s.retTimes := rfl
@[simp] theorem stores_upd_retired (s : State) (k : Nat) (v : Store) : (applyUpd (.stores k v) s).retired = s.retired := rfl
@[simp] theorem stores_upd_dramSeq (s : State) (k : Nat) (v : Store) : (applyUpd (.stores k v) s).dramSeq = s.dramSeq := rfl
@[simp] theorem stores_upd_trn (s : State) (k : Nat) (v : Store) : (applyUpd (.stores k v) s).trn = s.trn := rfl
@[simp] theorem stores_upd_dqsAdj (s : State) (k : Nat) (v : Store) : (applyUpd (.stores k v) s).dqsAdj = s.dqsAdj := rfl
@[simp] theorem stores_upd_dpol (s : State) (k : Nat) (v : Store) : (applyUpd (.stores k v) s).dpol = s.dpol := rfl
@[simp] theorem stores_upd_idleAt (s : State) (k : Nat) (v : Store) : (applyUpd (.stores k v) s).idleAt = s.idleAt := rfl
@[simp] theorem stores_upd_fitted (s : State) (k : Nat) (v : Store) : (applyUpd (.stores k v) s).fitted = s.fitted := rfl
@[simp] theorem stores_upd_faultMsgs (s : State) (k : Nat) (v : Store) : (applyUpd (.stores k v) s).faultMsgs = s.faultMsgs := rfl
@[simp] theorem stores_upd_out (s : State) (k : Nat) (v : Store) : (applyUpd (.stores k v) s).out = s.out := rfl
@[simp] theorem stores_upd_lastRead (s : State) (k : Nat) (v : Store) : (applyUpd (.stores k v) s).lastRead = s.lastRead := rfl
@[simp] theorem stores_upd_fwd (s : State) (k : Nat) (v : Store) : (applyUpd (.stores k v) s).fwd = s.fwd := rfl
@[simp] theorem stores_upd_ethTx (s : State) (k : Nat) (v : Store) : (applyUpd (.stores k v) s).ethTx = s.ethTx := rfl
@[simp] theorem stores_upd_ethHeadAt (s : State) (k : Nat) (v : Store) : (applyUpd (.stores k v) s).ethHeadAt = s.ethHeadAt := rfl
@[simp] theorem stores_upd_canTx (s : State) (k : Nat) (v : Store) : (applyUpd (.stores k v) s).canTx = s.canTx := rfl
@[simp] theorem stores_upd_pcieOut (s : State) (k : Nat) (v : Store) : (applyUpd (.stores k v) s).pcieOut = s.pcieOut := rfl
@[simp] theorem stores_upd_pcieCfgRd (s : State) (k : Nat) (v : Store) : (applyUpd (.stores k v) s).pcieCfgRd = s.pcieCfgRd := rfl
@[simp] theorem stores_upd_msix (s : State) (k : Nat) (v : Store) : (applyUpd (.stores k v) s).msix = s.msix := rfl
@[simp] theorem stores_upd_ancs (s : State) (k : Nat) (v : Store) : (applyUpd (.stores k v) s).ancs = s.ancs := rfl
@[simp] theorem stores_upd_trajArea (s : State) (k : Nat) (v : Store) : (applyUpd (.stores k v) s).trajArea = s.trajArea := rfl
@[simp] theorem stores_upd_lidarIn (s : State) (k : Nat) (v : Store) : (applyUpd (.stores k v) s).lidarIn = s.lidarIn := rfl
@[simp] theorem stores_upd_wheelIn (s : State) (k : Nat) (v : Store) : (applyUpd (.stores k v) s).wheelIn = s.wheelIn := rfl
@[simp] theorem stores_upd_spiStepBusy (s : State) (k : Nat) (v : Store) : (applyUpd (.stores k v) s).spiStepBusy = s.spiStepBusy := rfl
@[simp] theorem stores_upd_spiRec (s : State) (k : Nat) (v : Store) : (applyUpd (.stores k v) s).spiRec = s.spiRec := rfl
@[simp] theorem stores_upd_spiStepCfg (s : State) (k : Nat) (v : Store) : (applyUpd (.stores k v) s).spiStepCfg = s.spiStepCfg := rfl
@[simp] theorem stores_upd_ctxs (s : State) (k : Nat) (v : Store) : (applyUpd (.stores k v) s).ctxs = s.ctxs := rfl
@[simp] theorem stores_upd_fsyOmit (s : State) (k : Nat) (v : Store) : (applyUpd (.stores k v) s).fsyOmit = s.fsyOmit := rfl
@[simp] theorem stores_upd_fsyPulsed (s : State) (k : Nat) (v : Store) : (applyUpd (.stores k v) s).fsyPulsed = s.fsyPulsed := rfl
@[simp] theorem stores_upd_supTasks (s : State) (k : Nat) (v : Store) : (applyUpd (.stores k v) s).supTasks = s.supTasks := rfl
@[simp] theorem stores_upd_fus (s : State) (k : Nat) (v : Store) : (applyUpd (.stores k v) s).fus = s.fus := rfl
@[simp] theorem stores_upd_fcons (s : State) (k : Nat) (v : Store) : (applyUpd (.stores k v) s).fcons = s.fcons := rfl
@[simp] theorem stores_upd_shadow (s : State) (k : Nat) (v : Store) : (applyUpd (.stores k v) s).shadow = s.shadow := rfl
@[simp] theorem stores_upd_trv (s : State) (k : Nat) (v : Store) : (applyUpd (.stores k v) s).trv = s.trv := rfl
@[simp] theorem stores_upd_tlayers (s : State) (k : Nat) (v : Store) : (applyUpd (.stores k v) s).tlayers = s.tlayers := rfl
@[simp] theorem stores_upd_jobFaults (s : State) (k : Nat) (v : Store) : (applyUpd (.stores k v) s).jobFaults = s.jobFaults := rfl
@[simp] theorem stores_upd_unitLast (s : State) (k : Nat) (v : Store) : (applyUpd (.stores k v) s).unitLast = s.unitLast := rfl
@[simp] theorem stores_upd_unitRst (s : State) (k : Nat) (v : Store) : (applyUpd (.stores k v) s).unitRst = s.unitRst := rfl
@[simp] theorem stores_upd_xlink (s : State) (k : Nat) (v : Store) : (applyUpd (.stores k v) s).xlink = s.xlink := rfl
@[simp] theorem stores_upd_trace (s : State) (k : Nat) (v : Store) : (applyUpd (.stores k v) s).trace = s.trace := rfl
@[simp] theorem stores_upd_progs (s : State) (k : Nat) (v : Store) : (applyUpd (.stores k v) s).progs = s.progs := rfl
@[simp] theorem stores_upd_rails (s : State) (k : Nat) (v : Store) : (applyUpd (.stores k v) s).rails = s.rails := rfl
@[simp] theorem stores_upd_thm (s : State) (k : Nat) (v : Store) : (applyUpd (.stores k v) s).thm = s.thm := rfl
@[simp] theorem stores_upd_bnd (s : State) (k : Nat) (v : Store) : (applyUpd (.stores k v) s).bnd = s.bnd := rfl
@[simp] theorem stores_upd_thmTrip (s : State) (k : Nat) (v : Store) : (applyUpd (.stores k v) s).thmTrip = s.thmTrip := rfl
@[simp] theorem stores_upd_flash (s : State) (k : Nat) (v : Store) : (applyUpd (.stores k v) s).flash = s.flash := rfl
@[simp] theorem stores_upd_slots (s : State) (k : Nat) (v : Store) : (applyUpd (.stores k v) s).slots = s.slots := rfl
@[simp] theorem stores_upd_stores (s : State) (k : Nat) (v : Store) : (applyUpd (.stores k v) s).stores = tabSet storeDefault s.stores k v := rfl
@[simp] theorem stores_upd_ids (s : State) (k : Nat) (v : Store) : (applyUpd (.stores k v) s).ids = s.ids := rfl
@[simp] theorem stores_upd_boot (s : State) (k : Nat) (v : Store) : (applyUpd (.stores k v) s).boot = s.boot := rfl
@[simp] theorem stores_upd_load (s : State) (k : Nat) (v : Store) : (applyUpd (.stores k v) s).load = s.load := rfl
@[simp] theorem stores_upd_flt (s : State) (k : Nat) (v : Store) : (applyUpd (.stores k v) s).flt = s.flt := rfl
@[simp] theorem stores_upd_mon (s : State) (k : Nat) (v : Store) : (applyUpd (.stores k v) s).mon = s.mon := rfl
@[simp] theorem ids_upd_pending (s : State) (k : Nat) (v : AncId) : (applyUpd (.ids k v) s).pending = s.pending := rfl
@[simp] theorem ids_upd_regs (s : State) (k : Nat) (v : AncId) : (applyUpd (.ids k v) s).regs = s.regs := rfl
@[simp] theorem ids_upd_mem (s : State) (k : Nat) (v : AncId) : (applyUpd (.ids k v) s).mem = s.mem := rfl
@[simp] theorem ids_upd_sram (s : State) (k : Nat) (v : AncId) : (applyUpd (.ids k v) s).sram = s.sram := rfl
@[simp] theorem ids_upd_time (s : State) (k : Nat) (v : AncId) : (applyUpd (.ids k v) s).time = s.time := rfl
@[simp] theorem ids_upd_timeFrac (s : State) (k : Nat) (v : AncId) : (applyUpd (.ids k v) s).timeFrac = s.timeFrac := rfl
@[simp] theorem ids_upd_freeCtr (s : State) (k : Nat) (v : AncId) : (applyUpd (.ids k v) s).freeCtr = s.freeCtr := rfl
@[simp] theorem ids_upd_hiLatch (s : State) (k : Nat) (v : AncId) : (applyUpd (.ids k v) s).hiLatch = s.hiLatch := rfl
@[simp] theorem ids_upd_timeSet (s : State) (k : Nat) (v : AncId) : (applyUpd (.ids k v) s).timeSet = s.timeSet := rfl
@[simp] theorem ids_upd_n0 (s : State) (k : Nat) (v : AncId) : (applyUpd (.ids k v) s).n0 = s.n0 := rfl
@[simp] theorem ids_upd_ticked (s : State) (k : Nat) (v : AncId) : (applyUpd (.ids k v) s).ticked = s.ticked := rfl
@[simp] theorem ids_upd_peerTickAt (s : State) (k : Nat) (v : AncId) : (applyUpd (.ids k v) s).peerTickAt = s.peerTickAt := rfl
@[simp] theorem ids_upd_guardPitch (s : State) (k : Nat) (v : AncId) : (applyUpd (.ids k v) s).guardPitch = s.guardPitch := rfl
@[simp] theorem ids_upd_diePitch (s : State) (k : Nat) (v : AncId) : (applyUpd (.ids k v) s).diePitch = s.diePitch := rfl
@[simp] theorem ids_upd_resps (s : State) (k : Nat) (v : AncId) : (applyUpd (.ids k v) s).resps = s.resps := rfl
@[simp] theorem ids_upd_txns (s : State) (k : Nat) (v : AncId) : (applyUpd (.ids k v) s).txns = s.txns := rfl
@[simp] theorem ids_upd_nextTag (s : State) (k : Nat) (v : AncId) : (applyUpd (.ids k v) s).nextTag = s.nextTag := rfl
@[simp] theorem ids_upd_lateTags (s : State) (k : Nat) (v : AncId) : (applyUpd (.ids k v) s).lateTags = s.lateTags := rfl
@[simp] theorem ids_upd_ports (s : State) (k : Nat) (v : AncId) : (applyUpd (.ids k v) s).ports = s.ports := rfl
@[simp] theorem ids_upd_threads (s : State) (k : Nat) (v : AncId) : (applyUpd (.ids k v) s).threads = s.threads := rfl
@[simp] theorem ids_upd_cores (s : State) (k : Nat) (v : AncId) : (applyUpd (.ids k v) s).cores = s.cores := rfl
@[simp] theorem ids_upd_engines (s : State) (k : Nat) (v : AncId) : (applyUpd (.ids k v) s).engines = s.engines := rfl
@[simp] theorem ids_upd_held (s : State) (k : Nat) (v : AncId) : (applyUpd (.ids k v) s).held = s.held := rfl
@[simp] theorem ids_upd_watches (s : State) (k : Nat) (v : AncId) : (applyUpd (.ids k v) s).watches = s.watches := rfl
@[simp] theorem ids_upd_watchMsgs (s : State) (k : Nat) (v : AncId) : (applyUpd (.ids k v) s).watchMsgs = s.watchMsgs := rfl
@[simp] theorem ids_upd_bankHeld (s : State) (k : Nat) (v : AncId) : (applyUpd (.ids k v) s).bankHeld = s.bankHeld := rfl
@[simp] theorem ids_upd_bankTarget (s : State) (k : Nat) (v : AncId) : (applyUpd (.ids k v) s).bankTarget = s.bankTarget := rfl
@[simp] theorem ids_upd_ecc (s : State) (k : Nat) (v : AncId) : (applyUpd (.ids k v) s).ecc = s.ecc := rfl
@[simp] theorem ids_upd_lineEcc (s : State) (k : Nat) (v : AncId) : (applyUpd (.ids k v) s).lineEcc = s.lineEcc := rfl
@[simp] theorem ids_upd_wbPending (s : State) (k : Nat) (v : AncId) : (applyUpd (.ids k v) s).wbPending = s.wbPending := rfl
@[simp] theorem ids_upd_scrubPos (s : State) (k : Nat) (v : AncId) : (applyUpd (.ids k v) s).scrubPos = s.scrubPos := rfl
@[simp] theorem ids_upd_refusals (s : State) (k : Nat) (v : AncId) : (applyUpd (.ids k v) s).refusals = s.refusals := rfl
@[simp] theorem ids_upd_firstRefusal (s : State) (k : Nat) (v : AncId) : (applyUpd (.ids k v) s).firstRefusal = s.firstRefusal := rfl
@[simp] theorem ids_upd_boxQueue (s : State) (k : Nat) (v : AncId) : (applyUpd (.ids k v) s).boxQueue = s.boxQueue := rfl
@[simp] theorem ids_upd_boxRun (s : State) (k : Nat) (v : AncId) : (applyUpd (.ids k v) s).boxRun = s.boxRun := rfl
@[simp] theorem ids_upd_kvs (s : State) (k : Nat) (v : AncId) : (applyUpd (.ids k v) s).kvs = s.kvs := rfl
@[simp] theorem ids_upd_parts (s : State) (k : Nat) (v : AncId) : (applyUpd (.ids k v) s).parts = s.parts := rfl
@[simp] theorem ids_upd_dmas (s : State) (k : Nat) (v : AncId) : (applyUpd (.ids k v) s).dmas = s.dmas := rfl
@[simp] theorem ids_upd_regReqs (s : State) (k : Nat) (v : AncId) : (applyUpd (.ids k v) s).regReqs = s.regReqs := rfl
@[simp] theorem ids_upd_regPorts (s : State) (k : Nat) (v : AncId) : (applyUpd (.ids k v) s).regPorts = s.regPorts := rfl
@[simp] theorem ids_upd_subchs (s : State) (k : Nat) (v : AncId) : (applyUpd (.ids k v) s).subchs = s.subchs := rfl
@[simp] theorem ids_upd_trackers (s : State) (k : Nat) (v : AncId) : (applyUpd (.ids k v) s).trackers = s.trackers := rfl
@[simp] theorem ids_upd_throttles (s : State) (k : Nat) (v : AncId) : (applyUpd (.ids k v) s).throttles = s.throttles := rfl
@[simp] theorem ids_upd_errRing (s : State) (k : Nat) (v : AncId) : (applyUpd (.ids k v) s).errRing = s.errRing := rfl
@[simp] theorem ids_upd_errRingOvf (s : State) (k : Nat) (v : AncId) : (applyUpd (.ids k v) s).errRingOvf = s.errRingOvf := rfl
@[simp] theorem ids_upd_patrolLine (s : State) (k : Nat) (v : AncId) : (applyUpd (.ids k v) s).patrolLine = s.patrolLine := rfl
@[simp] theorem ids_upd_retTimes (s : State) (k : Nat) (v : AncId) : (applyUpd (.ids k v) s).retTimes = s.retTimes := rfl
@[simp] theorem ids_upd_retired (s : State) (k : Nat) (v : AncId) : (applyUpd (.ids k v) s).retired = s.retired := rfl
@[simp] theorem ids_upd_dramSeq (s : State) (k : Nat) (v : AncId) : (applyUpd (.ids k v) s).dramSeq = s.dramSeq := rfl
@[simp] theorem ids_upd_trn (s : State) (k : Nat) (v : AncId) : (applyUpd (.ids k v) s).trn = s.trn := rfl
@[simp] theorem ids_upd_dqsAdj (s : State) (k : Nat) (v : AncId) : (applyUpd (.ids k v) s).dqsAdj = s.dqsAdj := rfl
@[simp] theorem ids_upd_dpol (s : State) (k : Nat) (v : AncId) : (applyUpd (.ids k v) s).dpol = s.dpol := rfl
@[simp] theorem ids_upd_idleAt (s : State) (k : Nat) (v : AncId) : (applyUpd (.ids k v) s).idleAt = s.idleAt := rfl
@[simp] theorem ids_upd_fitted (s : State) (k : Nat) (v : AncId) : (applyUpd (.ids k v) s).fitted = s.fitted := rfl
@[simp] theorem ids_upd_faultMsgs (s : State) (k : Nat) (v : AncId) : (applyUpd (.ids k v) s).faultMsgs = s.faultMsgs := rfl
@[simp] theorem ids_upd_out (s : State) (k : Nat) (v : AncId) : (applyUpd (.ids k v) s).out = s.out := rfl
@[simp] theorem ids_upd_lastRead (s : State) (k : Nat) (v : AncId) : (applyUpd (.ids k v) s).lastRead = s.lastRead := rfl
@[simp] theorem ids_upd_fwd (s : State) (k : Nat) (v : AncId) : (applyUpd (.ids k v) s).fwd = s.fwd := rfl
@[simp] theorem ids_upd_ethTx (s : State) (k : Nat) (v : AncId) : (applyUpd (.ids k v) s).ethTx = s.ethTx := rfl
@[simp] theorem ids_upd_ethHeadAt (s : State) (k : Nat) (v : AncId) : (applyUpd (.ids k v) s).ethHeadAt = s.ethHeadAt := rfl
@[simp] theorem ids_upd_canTx (s : State) (k : Nat) (v : AncId) : (applyUpd (.ids k v) s).canTx = s.canTx := rfl
@[simp] theorem ids_upd_pcieOut (s : State) (k : Nat) (v : AncId) : (applyUpd (.ids k v) s).pcieOut = s.pcieOut := rfl
@[simp] theorem ids_upd_pcieCfgRd (s : State) (k : Nat) (v : AncId) : (applyUpd (.ids k v) s).pcieCfgRd = s.pcieCfgRd := rfl
@[simp] theorem ids_upd_msix (s : State) (k : Nat) (v : AncId) : (applyUpd (.ids k v) s).msix = s.msix := rfl
@[simp] theorem ids_upd_ancs (s : State) (k : Nat) (v : AncId) : (applyUpd (.ids k v) s).ancs = s.ancs := rfl
@[simp] theorem ids_upd_trajArea (s : State) (k : Nat) (v : AncId) : (applyUpd (.ids k v) s).trajArea = s.trajArea := rfl
@[simp] theorem ids_upd_lidarIn (s : State) (k : Nat) (v : AncId) : (applyUpd (.ids k v) s).lidarIn = s.lidarIn := rfl
@[simp] theorem ids_upd_wheelIn (s : State) (k : Nat) (v : AncId) : (applyUpd (.ids k v) s).wheelIn = s.wheelIn := rfl
@[simp] theorem ids_upd_spiStepBusy (s : State) (k : Nat) (v : AncId) : (applyUpd (.ids k v) s).spiStepBusy = s.spiStepBusy := rfl
@[simp] theorem ids_upd_spiRec (s : State) (k : Nat) (v : AncId) : (applyUpd (.ids k v) s).spiRec = s.spiRec := rfl
@[simp] theorem ids_upd_spiStepCfg (s : State) (k : Nat) (v : AncId) : (applyUpd (.ids k v) s).spiStepCfg = s.spiStepCfg := rfl
@[simp] theorem ids_upd_ctxs (s : State) (k : Nat) (v : AncId) : (applyUpd (.ids k v) s).ctxs = s.ctxs := rfl
@[simp] theorem ids_upd_fsyOmit (s : State) (k : Nat) (v : AncId) : (applyUpd (.ids k v) s).fsyOmit = s.fsyOmit := rfl
@[simp] theorem ids_upd_fsyPulsed (s : State) (k : Nat) (v : AncId) : (applyUpd (.ids k v) s).fsyPulsed = s.fsyPulsed := rfl
@[simp] theorem ids_upd_supTasks (s : State) (k : Nat) (v : AncId) : (applyUpd (.ids k v) s).supTasks = s.supTasks := rfl
@[simp] theorem ids_upd_fus (s : State) (k : Nat) (v : AncId) : (applyUpd (.ids k v) s).fus = s.fus := rfl
@[simp] theorem ids_upd_fcons (s : State) (k : Nat) (v : AncId) : (applyUpd (.ids k v) s).fcons = s.fcons := rfl
@[simp] theorem ids_upd_shadow (s : State) (k : Nat) (v : AncId) : (applyUpd (.ids k v) s).shadow = s.shadow := rfl
@[simp] theorem ids_upd_trv (s : State) (k : Nat) (v : AncId) : (applyUpd (.ids k v) s).trv = s.trv := rfl
@[simp] theorem ids_upd_tlayers (s : State) (k : Nat) (v : AncId) : (applyUpd (.ids k v) s).tlayers = s.tlayers := rfl
@[simp] theorem ids_upd_jobFaults (s : State) (k : Nat) (v : AncId) : (applyUpd (.ids k v) s).jobFaults = s.jobFaults := rfl
@[simp] theorem ids_upd_unitLast (s : State) (k : Nat) (v : AncId) : (applyUpd (.ids k v) s).unitLast = s.unitLast := rfl
@[simp] theorem ids_upd_unitRst (s : State) (k : Nat) (v : AncId) : (applyUpd (.ids k v) s).unitRst = s.unitRst := rfl
@[simp] theorem ids_upd_xlink (s : State) (k : Nat) (v : AncId) : (applyUpd (.ids k v) s).xlink = s.xlink := rfl
@[simp] theorem ids_upd_trace (s : State) (k : Nat) (v : AncId) : (applyUpd (.ids k v) s).trace = s.trace := rfl
@[simp] theorem ids_upd_progs (s : State) (k : Nat) (v : AncId) : (applyUpd (.ids k v) s).progs = s.progs := rfl
@[simp] theorem ids_upd_rails (s : State) (k : Nat) (v : AncId) : (applyUpd (.ids k v) s).rails = s.rails := rfl
@[simp] theorem ids_upd_thm (s : State) (k : Nat) (v : AncId) : (applyUpd (.ids k v) s).thm = s.thm := rfl
@[simp] theorem ids_upd_bnd (s : State) (k : Nat) (v : AncId) : (applyUpd (.ids k v) s).bnd = s.bnd := rfl
@[simp] theorem ids_upd_thmTrip (s : State) (k : Nat) (v : AncId) : (applyUpd (.ids k v) s).thmTrip = s.thmTrip := rfl
@[simp] theorem ids_upd_flash (s : State) (k : Nat) (v : AncId) : (applyUpd (.ids k v) s).flash = s.flash := rfl
@[simp] theorem ids_upd_slots (s : State) (k : Nat) (v : AncId) : (applyUpd (.ids k v) s).slots = s.slots := rfl
@[simp] theorem ids_upd_stores (s : State) (k : Nat) (v : AncId) : (applyUpd (.ids k v) s).stores = s.stores := rfl
@[simp] theorem ids_upd_ids (s : State) (k : Nat) (v : AncId) : (applyUpd (.ids k v) s).ids = tabSet idDefault s.ids k v := rfl
@[simp] theorem ids_upd_boot (s : State) (k : Nat) (v : AncId) : (applyUpd (.ids k v) s).boot = s.boot := rfl
@[simp] theorem ids_upd_load (s : State) (k : Nat) (v : AncId) : (applyUpd (.ids k v) s).load = s.load := rfl
@[simp] theorem ids_upd_flt (s : State) (k : Nat) (v : AncId) : (applyUpd (.ids k v) s).flt = s.flt := rfl
@[simp] theorem ids_upd_mon (s : State) (k : Nat) (v : AncId) : (applyUpd (.ids k v) s).mon = s.mon := rfl
@[simp] theorem boot_upd_pending (s : State) (v : Boot) : (applyUpd (.boot v) s).pending = s.pending := rfl
@[simp] theorem boot_upd_regs (s : State) (v : Boot) : (applyUpd (.boot v) s).regs = s.regs := rfl
@[simp] theorem boot_upd_mem (s : State) (v : Boot) : (applyUpd (.boot v) s).mem = s.mem := rfl
@[simp] theorem boot_upd_sram (s : State) (v : Boot) : (applyUpd (.boot v) s).sram = s.sram := rfl
@[simp] theorem boot_upd_time (s : State) (v : Boot) : (applyUpd (.boot v) s).time = s.time := rfl
@[simp] theorem boot_upd_timeFrac (s : State) (v : Boot) : (applyUpd (.boot v) s).timeFrac = s.timeFrac := rfl
@[simp] theorem boot_upd_freeCtr (s : State) (v : Boot) : (applyUpd (.boot v) s).freeCtr = s.freeCtr := rfl
@[simp] theorem boot_upd_hiLatch (s : State) (v : Boot) : (applyUpd (.boot v) s).hiLatch = s.hiLatch := rfl
@[simp] theorem boot_upd_timeSet (s : State) (v : Boot) : (applyUpd (.boot v) s).timeSet = s.timeSet := rfl
@[simp] theorem boot_upd_n0 (s : State) (v : Boot) : (applyUpd (.boot v) s).n0 = s.n0 := rfl
@[simp] theorem boot_upd_ticked (s : State) (v : Boot) : (applyUpd (.boot v) s).ticked = s.ticked := rfl
@[simp] theorem boot_upd_peerTickAt (s : State) (v : Boot) : (applyUpd (.boot v) s).peerTickAt = s.peerTickAt := rfl
@[simp] theorem boot_upd_guardPitch (s : State) (v : Boot) : (applyUpd (.boot v) s).guardPitch = s.guardPitch := rfl
@[simp] theorem boot_upd_diePitch (s : State) (v : Boot) : (applyUpd (.boot v) s).diePitch = s.diePitch := rfl
@[simp] theorem boot_upd_resps (s : State) (v : Boot) : (applyUpd (.boot v) s).resps = s.resps := rfl
@[simp] theorem boot_upd_txns (s : State) (v : Boot) : (applyUpd (.boot v) s).txns = s.txns := rfl
@[simp] theorem boot_upd_nextTag (s : State) (v : Boot) : (applyUpd (.boot v) s).nextTag = s.nextTag := rfl
@[simp] theorem boot_upd_lateTags (s : State) (v : Boot) : (applyUpd (.boot v) s).lateTags = s.lateTags := rfl
@[simp] theorem boot_upd_ports (s : State) (v : Boot) : (applyUpd (.boot v) s).ports = s.ports := rfl
@[simp] theorem boot_upd_threads (s : State) (v : Boot) : (applyUpd (.boot v) s).threads = s.threads := rfl
@[simp] theorem boot_upd_cores (s : State) (v : Boot) : (applyUpd (.boot v) s).cores = s.cores := rfl
@[simp] theorem boot_upd_engines (s : State) (v : Boot) : (applyUpd (.boot v) s).engines = s.engines := rfl
@[simp] theorem boot_upd_held (s : State) (v : Boot) : (applyUpd (.boot v) s).held = s.held := rfl
@[simp] theorem boot_upd_watches (s : State) (v : Boot) : (applyUpd (.boot v) s).watches = s.watches := rfl
@[simp] theorem boot_upd_watchMsgs (s : State) (v : Boot) : (applyUpd (.boot v) s).watchMsgs = s.watchMsgs := rfl
@[simp] theorem boot_upd_bankHeld (s : State) (v : Boot) : (applyUpd (.boot v) s).bankHeld = s.bankHeld := rfl
@[simp] theorem boot_upd_bankTarget (s : State) (v : Boot) : (applyUpd (.boot v) s).bankTarget = s.bankTarget := rfl
@[simp] theorem boot_upd_ecc (s : State) (v : Boot) : (applyUpd (.boot v) s).ecc = s.ecc := rfl
@[simp] theorem boot_upd_lineEcc (s : State) (v : Boot) : (applyUpd (.boot v) s).lineEcc = s.lineEcc := rfl
@[simp] theorem boot_upd_wbPending (s : State) (v : Boot) : (applyUpd (.boot v) s).wbPending = s.wbPending := rfl
@[simp] theorem boot_upd_scrubPos (s : State) (v : Boot) : (applyUpd (.boot v) s).scrubPos = s.scrubPos := rfl
@[simp] theorem boot_upd_refusals (s : State) (v : Boot) : (applyUpd (.boot v) s).refusals = s.refusals := rfl
@[simp] theorem boot_upd_firstRefusal (s : State) (v : Boot) : (applyUpd (.boot v) s).firstRefusal = s.firstRefusal := rfl
@[simp] theorem boot_upd_boxQueue (s : State) (v : Boot) : (applyUpd (.boot v) s).boxQueue = s.boxQueue := rfl
@[simp] theorem boot_upd_boxRun (s : State) (v : Boot) : (applyUpd (.boot v) s).boxRun = s.boxRun := rfl
@[simp] theorem boot_upd_kvs (s : State) (v : Boot) : (applyUpd (.boot v) s).kvs = s.kvs := rfl
@[simp] theorem boot_upd_parts (s : State) (v : Boot) : (applyUpd (.boot v) s).parts = s.parts := rfl
@[simp] theorem boot_upd_dmas (s : State) (v : Boot) : (applyUpd (.boot v) s).dmas = s.dmas := rfl
@[simp] theorem boot_upd_regReqs (s : State) (v : Boot) : (applyUpd (.boot v) s).regReqs = s.regReqs := rfl
@[simp] theorem boot_upd_regPorts (s : State) (v : Boot) : (applyUpd (.boot v) s).regPorts = s.regPorts := rfl
@[simp] theorem boot_upd_subchs (s : State) (v : Boot) : (applyUpd (.boot v) s).subchs = s.subchs := rfl
@[simp] theorem boot_upd_trackers (s : State) (v : Boot) : (applyUpd (.boot v) s).trackers = s.trackers := rfl
@[simp] theorem boot_upd_throttles (s : State) (v : Boot) : (applyUpd (.boot v) s).throttles = s.throttles := rfl
@[simp] theorem boot_upd_errRing (s : State) (v : Boot) : (applyUpd (.boot v) s).errRing = s.errRing := rfl
@[simp] theorem boot_upd_errRingOvf (s : State) (v : Boot) : (applyUpd (.boot v) s).errRingOvf = s.errRingOvf := rfl
@[simp] theorem boot_upd_patrolLine (s : State) (v : Boot) : (applyUpd (.boot v) s).patrolLine = s.patrolLine := rfl
@[simp] theorem boot_upd_retTimes (s : State) (v : Boot) : (applyUpd (.boot v) s).retTimes = s.retTimes := rfl
@[simp] theorem boot_upd_retired (s : State) (v : Boot) : (applyUpd (.boot v) s).retired = s.retired := rfl
@[simp] theorem boot_upd_dramSeq (s : State) (v : Boot) : (applyUpd (.boot v) s).dramSeq = s.dramSeq := rfl
@[simp] theorem boot_upd_trn (s : State) (v : Boot) : (applyUpd (.boot v) s).trn = s.trn := rfl
@[simp] theorem boot_upd_dqsAdj (s : State) (v : Boot) : (applyUpd (.boot v) s).dqsAdj = s.dqsAdj := rfl
@[simp] theorem boot_upd_dpol (s : State) (v : Boot) : (applyUpd (.boot v) s).dpol = s.dpol := rfl
@[simp] theorem boot_upd_idleAt (s : State) (v : Boot) : (applyUpd (.boot v) s).idleAt = s.idleAt := rfl
@[simp] theorem boot_upd_fitted (s : State) (v : Boot) : (applyUpd (.boot v) s).fitted = s.fitted := rfl
@[simp] theorem boot_upd_faultMsgs (s : State) (v : Boot) : (applyUpd (.boot v) s).faultMsgs = s.faultMsgs := rfl
@[simp] theorem boot_upd_out (s : State) (v : Boot) : (applyUpd (.boot v) s).out = s.out := rfl
@[simp] theorem boot_upd_lastRead (s : State) (v : Boot) : (applyUpd (.boot v) s).lastRead = s.lastRead := rfl
@[simp] theorem boot_upd_fwd (s : State) (v : Boot) : (applyUpd (.boot v) s).fwd = s.fwd := rfl
@[simp] theorem boot_upd_ethTx (s : State) (v : Boot) : (applyUpd (.boot v) s).ethTx = s.ethTx := rfl
@[simp] theorem boot_upd_ethHeadAt (s : State) (v : Boot) : (applyUpd (.boot v) s).ethHeadAt = s.ethHeadAt := rfl
@[simp] theorem boot_upd_canTx (s : State) (v : Boot) : (applyUpd (.boot v) s).canTx = s.canTx := rfl
@[simp] theorem boot_upd_pcieOut (s : State) (v : Boot) : (applyUpd (.boot v) s).pcieOut = s.pcieOut := rfl
@[simp] theorem boot_upd_pcieCfgRd (s : State) (v : Boot) : (applyUpd (.boot v) s).pcieCfgRd = s.pcieCfgRd := rfl
@[simp] theorem boot_upd_msix (s : State) (v : Boot) : (applyUpd (.boot v) s).msix = s.msix := rfl
@[simp] theorem boot_upd_ancs (s : State) (v : Boot) : (applyUpd (.boot v) s).ancs = s.ancs := rfl
@[simp] theorem boot_upd_trajArea (s : State) (v : Boot) : (applyUpd (.boot v) s).trajArea = s.trajArea := rfl
@[simp] theorem boot_upd_lidarIn (s : State) (v : Boot) : (applyUpd (.boot v) s).lidarIn = s.lidarIn := rfl
@[simp] theorem boot_upd_wheelIn (s : State) (v : Boot) : (applyUpd (.boot v) s).wheelIn = s.wheelIn := rfl
@[simp] theorem boot_upd_spiStepBusy (s : State) (v : Boot) : (applyUpd (.boot v) s).spiStepBusy = s.spiStepBusy := rfl
@[simp] theorem boot_upd_spiRec (s : State) (v : Boot) : (applyUpd (.boot v) s).spiRec = s.spiRec := rfl
@[simp] theorem boot_upd_spiStepCfg (s : State) (v : Boot) : (applyUpd (.boot v) s).spiStepCfg = s.spiStepCfg := rfl
@[simp] theorem boot_upd_ctxs (s : State) (v : Boot) : (applyUpd (.boot v) s).ctxs = s.ctxs := rfl
@[simp] theorem boot_upd_fsyOmit (s : State) (v : Boot) : (applyUpd (.boot v) s).fsyOmit = s.fsyOmit := rfl
@[simp] theorem boot_upd_fsyPulsed (s : State) (v : Boot) : (applyUpd (.boot v) s).fsyPulsed = s.fsyPulsed := rfl
@[simp] theorem boot_upd_supTasks (s : State) (v : Boot) : (applyUpd (.boot v) s).supTasks = s.supTasks := rfl
@[simp] theorem boot_upd_fus (s : State) (v : Boot) : (applyUpd (.boot v) s).fus = s.fus := rfl
@[simp] theorem boot_upd_fcons (s : State) (v : Boot) : (applyUpd (.boot v) s).fcons = s.fcons := rfl
@[simp] theorem boot_upd_shadow (s : State) (v : Boot) : (applyUpd (.boot v) s).shadow = s.shadow := rfl
@[simp] theorem boot_upd_trv (s : State) (v : Boot) : (applyUpd (.boot v) s).trv = s.trv := rfl
@[simp] theorem boot_upd_tlayers (s : State) (v : Boot) : (applyUpd (.boot v) s).tlayers = s.tlayers := rfl
@[simp] theorem boot_upd_jobFaults (s : State) (v : Boot) : (applyUpd (.boot v) s).jobFaults = s.jobFaults := rfl
@[simp] theorem boot_upd_unitLast (s : State) (v : Boot) : (applyUpd (.boot v) s).unitLast = s.unitLast := rfl
@[simp] theorem boot_upd_unitRst (s : State) (v : Boot) : (applyUpd (.boot v) s).unitRst = s.unitRst := rfl
@[simp] theorem boot_upd_xlink (s : State) (v : Boot) : (applyUpd (.boot v) s).xlink = s.xlink := rfl
@[simp] theorem boot_upd_trace (s : State) (v : Boot) : (applyUpd (.boot v) s).trace = s.trace := rfl
@[simp] theorem boot_upd_progs (s : State) (v : Boot) : (applyUpd (.boot v) s).progs = s.progs := rfl
@[simp] theorem boot_upd_rails (s : State) (v : Boot) : (applyUpd (.boot v) s).rails = s.rails := rfl
@[simp] theorem boot_upd_thm (s : State) (v : Boot) : (applyUpd (.boot v) s).thm = s.thm := rfl
@[simp] theorem boot_upd_bnd (s : State) (v : Boot) : (applyUpd (.boot v) s).bnd = s.bnd := rfl
@[simp] theorem boot_upd_thmTrip (s : State) (v : Boot) : (applyUpd (.boot v) s).thmTrip = s.thmTrip := rfl
@[simp] theorem boot_upd_flash (s : State) (v : Boot) : (applyUpd (.boot v) s).flash = s.flash := rfl
@[simp] theorem boot_upd_slots (s : State) (v : Boot) : (applyUpd (.boot v) s).slots = s.slots := rfl
@[simp] theorem boot_upd_stores (s : State) (v : Boot) : (applyUpd (.boot v) s).stores = s.stores := rfl
@[simp] theorem boot_upd_ids (s : State) (v : Boot) : (applyUpd (.boot v) s).ids = s.ids := rfl
@[simp] theorem boot_upd_boot (s : State) (v : Boot) : (applyUpd (.boot v) s).boot = v := rfl
@[simp] theorem boot_upd_load (s : State) (v : Boot) : (applyUpd (.boot v) s).load = s.load := rfl
@[simp] theorem boot_upd_flt (s : State) (v : Boot) : (applyUpd (.boot v) s).flt = s.flt := rfl
@[simp] theorem boot_upd_mon (s : State) (v : Boot) : (applyUpd (.boot v) s).mon = s.mon := rfl
@[simp] theorem load_upd_pending (s : State) (v : Load) : (applyUpd (.load v) s).pending = s.pending := rfl
@[simp] theorem load_upd_regs (s : State) (v : Load) : (applyUpd (.load v) s).regs = s.regs := rfl
@[simp] theorem load_upd_mem (s : State) (v : Load) : (applyUpd (.load v) s).mem = s.mem := rfl
@[simp] theorem load_upd_sram (s : State) (v : Load) : (applyUpd (.load v) s).sram = s.sram := rfl
@[simp] theorem load_upd_time (s : State) (v : Load) : (applyUpd (.load v) s).time = s.time := rfl
@[simp] theorem load_upd_timeFrac (s : State) (v : Load) : (applyUpd (.load v) s).timeFrac = s.timeFrac := rfl
@[simp] theorem load_upd_freeCtr (s : State) (v : Load) : (applyUpd (.load v) s).freeCtr = s.freeCtr := rfl
@[simp] theorem load_upd_hiLatch (s : State) (v : Load) : (applyUpd (.load v) s).hiLatch = s.hiLatch := rfl
@[simp] theorem load_upd_timeSet (s : State) (v : Load) : (applyUpd (.load v) s).timeSet = s.timeSet := rfl
@[simp] theorem load_upd_n0 (s : State) (v : Load) : (applyUpd (.load v) s).n0 = s.n0 := rfl
@[simp] theorem load_upd_ticked (s : State) (v : Load) : (applyUpd (.load v) s).ticked = s.ticked := rfl
@[simp] theorem load_upd_peerTickAt (s : State) (v : Load) : (applyUpd (.load v) s).peerTickAt = s.peerTickAt := rfl
@[simp] theorem load_upd_guardPitch (s : State) (v : Load) : (applyUpd (.load v) s).guardPitch = s.guardPitch := rfl
@[simp] theorem load_upd_diePitch (s : State) (v : Load) : (applyUpd (.load v) s).diePitch = s.diePitch := rfl
@[simp] theorem load_upd_resps (s : State) (v : Load) : (applyUpd (.load v) s).resps = s.resps := rfl
@[simp] theorem load_upd_txns (s : State) (v : Load) : (applyUpd (.load v) s).txns = s.txns := rfl
@[simp] theorem load_upd_nextTag (s : State) (v : Load) : (applyUpd (.load v) s).nextTag = s.nextTag := rfl
@[simp] theorem load_upd_lateTags (s : State) (v : Load) : (applyUpd (.load v) s).lateTags = s.lateTags := rfl
@[simp] theorem load_upd_ports (s : State) (v : Load) : (applyUpd (.load v) s).ports = s.ports := rfl
@[simp] theorem load_upd_threads (s : State) (v : Load) : (applyUpd (.load v) s).threads = s.threads := rfl
@[simp] theorem load_upd_cores (s : State) (v : Load) : (applyUpd (.load v) s).cores = s.cores := rfl
@[simp] theorem load_upd_engines (s : State) (v : Load) : (applyUpd (.load v) s).engines = s.engines := rfl
@[simp] theorem load_upd_held (s : State) (v : Load) : (applyUpd (.load v) s).held = s.held := rfl
@[simp] theorem load_upd_watches (s : State) (v : Load) : (applyUpd (.load v) s).watches = s.watches := rfl
@[simp] theorem load_upd_watchMsgs (s : State) (v : Load) : (applyUpd (.load v) s).watchMsgs = s.watchMsgs := rfl
@[simp] theorem load_upd_bankHeld (s : State) (v : Load) : (applyUpd (.load v) s).bankHeld = s.bankHeld := rfl
@[simp] theorem load_upd_bankTarget (s : State) (v : Load) : (applyUpd (.load v) s).bankTarget = s.bankTarget := rfl
@[simp] theorem load_upd_ecc (s : State) (v : Load) : (applyUpd (.load v) s).ecc = s.ecc := rfl
@[simp] theorem load_upd_lineEcc (s : State) (v : Load) : (applyUpd (.load v) s).lineEcc = s.lineEcc := rfl
@[simp] theorem load_upd_wbPending (s : State) (v : Load) : (applyUpd (.load v) s).wbPending = s.wbPending := rfl
@[simp] theorem load_upd_scrubPos (s : State) (v : Load) : (applyUpd (.load v) s).scrubPos = s.scrubPos := rfl
@[simp] theorem load_upd_refusals (s : State) (v : Load) : (applyUpd (.load v) s).refusals = s.refusals := rfl
@[simp] theorem load_upd_firstRefusal (s : State) (v : Load) : (applyUpd (.load v) s).firstRefusal = s.firstRefusal := rfl
@[simp] theorem load_upd_boxQueue (s : State) (v : Load) : (applyUpd (.load v) s).boxQueue = s.boxQueue := rfl
@[simp] theorem load_upd_boxRun (s : State) (v : Load) : (applyUpd (.load v) s).boxRun = s.boxRun := rfl
@[simp] theorem load_upd_kvs (s : State) (v : Load) : (applyUpd (.load v) s).kvs = s.kvs := rfl
@[simp] theorem load_upd_parts (s : State) (v : Load) : (applyUpd (.load v) s).parts = s.parts := rfl
@[simp] theorem load_upd_dmas (s : State) (v : Load) : (applyUpd (.load v) s).dmas = s.dmas := rfl
@[simp] theorem load_upd_regReqs (s : State) (v : Load) : (applyUpd (.load v) s).regReqs = s.regReqs := rfl
@[simp] theorem load_upd_regPorts (s : State) (v : Load) : (applyUpd (.load v) s).regPorts = s.regPorts := rfl
@[simp] theorem load_upd_subchs (s : State) (v : Load) : (applyUpd (.load v) s).subchs = s.subchs := rfl
@[simp] theorem load_upd_trackers (s : State) (v : Load) : (applyUpd (.load v) s).trackers = s.trackers := rfl
@[simp] theorem load_upd_throttles (s : State) (v : Load) : (applyUpd (.load v) s).throttles = s.throttles := rfl
@[simp] theorem load_upd_errRing (s : State) (v : Load) : (applyUpd (.load v) s).errRing = s.errRing := rfl
@[simp] theorem load_upd_errRingOvf (s : State) (v : Load) : (applyUpd (.load v) s).errRingOvf = s.errRingOvf := rfl
@[simp] theorem load_upd_patrolLine (s : State) (v : Load) : (applyUpd (.load v) s).patrolLine = s.patrolLine := rfl
@[simp] theorem load_upd_retTimes (s : State) (v : Load) : (applyUpd (.load v) s).retTimes = s.retTimes := rfl
@[simp] theorem load_upd_retired (s : State) (v : Load) : (applyUpd (.load v) s).retired = s.retired := rfl
@[simp] theorem load_upd_dramSeq (s : State) (v : Load) : (applyUpd (.load v) s).dramSeq = s.dramSeq := rfl
@[simp] theorem load_upd_trn (s : State) (v : Load) : (applyUpd (.load v) s).trn = s.trn := rfl
@[simp] theorem load_upd_dqsAdj (s : State) (v : Load) : (applyUpd (.load v) s).dqsAdj = s.dqsAdj := rfl
@[simp] theorem load_upd_dpol (s : State) (v : Load) : (applyUpd (.load v) s).dpol = s.dpol := rfl
@[simp] theorem load_upd_idleAt (s : State) (v : Load) : (applyUpd (.load v) s).idleAt = s.idleAt := rfl
@[simp] theorem load_upd_fitted (s : State) (v : Load) : (applyUpd (.load v) s).fitted = s.fitted := rfl
@[simp] theorem load_upd_faultMsgs (s : State) (v : Load) : (applyUpd (.load v) s).faultMsgs = s.faultMsgs := rfl
@[simp] theorem load_upd_out (s : State) (v : Load) : (applyUpd (.load v) s).out = s.out := rfl
@[simp] theorem load_upd_lastRead (s : State) (v : Load) : (applyUpd (.load v) s).lastRead = s.lastRead := rfl
@[simp] theorem load_upd_fwd (s : State) (v : Load) : (applyUpd (.load v) s).fwd = s.fwd := rfl
@[simp] theorem load_upd_ethTx (s : State) (v : Load) : (applyUpd (.load v) s).ethTx = s.ethTx := rfl
@[simp] theorem load_upd_ethHeadAt (s : State) (v : Load) : (applyUpd (.load v) s).ethHeadAt = s.ethHeadAt := rfl
@[simp] theorem load_upd_canTx (s : State) (v : Load) : (applyUpd (.load v) s).canTx = s.canTx := rfl
@[simp] theorem load_upd_pcieOut (s : State) (v : Load) : (applyUpd (.load v) s).pcieOut = s.pcieOut := rfl
@[simp] theorem load_upd_pcieCfgRd (s : State) (v : Load) : (applyUpd (.load v) s).pcieCfgRd = s.pcieCfgRd := rfl
@[simp] theorem load_upd_msix (s : State) (v : Load) : (applyUpd (.load v) s).msix = s.msix := rfl
@[simp] theorem load_upd_ancs (s : State) (v : Load) : (applyUpd (.load v) s).ancs = s.ancs := rfl
@[simp] theorem load_upd_trajArea (s : State) (v : Load) : (applyUpd (.load v) s).trajArea = s.trajArea := rfl
@[simp] theorem load_upd_lidarIn (s : State) (v : Load) : (applyUpd (.load v) s).lidarIn = s.lidarIn := rfl
@[simp] theorem load_upd_wheelIn (s : State) (v : Load) : (applyUpd (.load v) s).wheelIn = s.wheelIn := rfl
@[simp] theorem load_upd_spiStepBusy (s : State) (v : Load) : (applyUpd (.load v) s).spiStepBusy = s.spiStepBusy := rfl
@[simp] theorem load_upd_spiRec (s : State) (v : Load) : (applyUpd (.load v) s).spiRec = s.spiRec := rfl
@[simp] theorem load_upd_spiStepCfg (s : State) (v : Load) : (applyUpd (.load v) s).spiStepCfg = s.spiStepCfg := rfl
@[simp] theorem load_upd_ctxs (s : State) (v : Load) : (applyUpd (.load v) s).ctxs = s.ctxs := rfl
@[simp] theorem load_upd_fsyOmit (s : State) (v : Load) : (applyUpd (.load v) s).fsyOmit = s.fsyOmit := rfl
@[simp] theorem load_upd_fsyPulsed (s : State) (v : Load) : (applyUpd (.load v) s).fsyPulsed = s.fsyPulsed := rfl
@[simp] theorem load_upd_supTasks (s : State) (v : Load) : (applyUpd (.load v) s).supTasks = s.supTasks := rfl
@[simp] theorem load_upd_fus (s : State) (v : Load) : (applyUpd (.load v) s).fus = s.fus := rfl
@[simp] theorem load_upd_fcons (s : State) (v : Load) : (applyUpd (.load v) s).fcons = s.fcons := rfl
@[simp] theorem load_upd_shadow (s : State) (v : Load) : (applyUpd (.load v) s).shadow = s.shadow := rfl
@[simp] theorem load_upd_trv (s : State) (v : Load) : (applyUpd (.load v) s).trv = s.trv := rfl
@[simp] theorem load_upd_tlayers (s : State) (v : Load) : (applyUpd (.load v) s).tlayers = s.tlayers := rfl
@[simp] theorem load_upd_jobFaults (s : State) (v : Load) : (applyUpd (.load v) s).jobFaults = s.jobFaults := rfl
@[simp] theorem load_upd_unitLast (s : State) (v : Load) : (applyUpd (.load v) s).unitLast = s.unitLast := rfl
@[simp] theorem load_upd_unitRst (s : State) (v : Load) : (applyUpd (.load v) s).unitRst = s.unitRst := rfl
@[simp] theorem load_upd_xlink (s : State) (v : Load) : (applyUpd (.load v) s).xlink = s.xlink := rfl
@[simp] theorem load_upd_trace (s : State) (v : Load) : (applyUpd (.load v) s).trace = s.trace := rfl
@[simp] theorem load_upd_progs (s : State) (v : Load) : (applyUpd (.load v) s).progs = s.progs := rfl
@[simp] theorem load_upd_rails (s : State) (v : Load) : (applyUpd (.load v) s).rails = s.rails := rfl
@[simp] theorem load_upd_thm (s : State) (v : Load) : (applyUpd (.load v) s).thm = s.thm := rfl
@[simp] theorem load_upd_bnd (s : State) (v : Load) : (applyUpd (.load v) s).bnd = s.bnd := rfl
@[simp] theorem load_upd_thmTrip (s : State) (v : Load) : (applyUpd (.load v) s).thmTrip = s.thmTrip := rfl
@[simp] theorem load_upd_flash (s : State) (v : Load) : (applyUpd (.load v) s).flash = s.flash := rfl
@[simp] theorem load_upd_slots (s : State) (v : Load) : (applyUpd (.load v) s).slots = s.slots := rfl
@[simp] theorem load_upd_stores (s : State) (v : Load) : (applyUpd (.load v) s).stores = s.stores := rfl
@[simp] theorem load_upd_ids (s : State) (v : Load) : (applyUpd (.load v) s).ids = s.ids := rfl
@[simp] theorem load_upd_boot (s : State) (v : Load) : (applyUpd (.load v) s).boot = s.boot := rfl
@[simp] theorem load_upd_load (s : State) (v : Load) : (applyUpd (.load v) s).load = v := rfl
@[simp] theorem load_upd_flt (s : State) (v : Load) : (applyUpd (.load v) s).flt = s.flt := rfl
@[simp] theorem load_upd_mon (s : State) (v : Load) : (applyUpd (.load v) s).mon = s.mon := rfl
@[simp] theorem flt_upd_pending (s : State) (v : Flt) : (applyUpd (.flt v) s).pending = s.pending := rfl
@[simp] theorem flt_upd_regs (s : State) (v : Flt) : (applyUpd (.flt v) s).regs = s.regs := rfl
@[simp] theorem flt_upd_mem (s : State) (v : Flt) : (applyUpd (.flt v) s).mem = s.mem := rfl
@[simp] theorem flt_upd_sram (s : State) (v : Flt) : (applyUpd (.flt v) s).sram = s.sram := rfl
@[simp] theorem flt_upd_time (s : State) (v : Flt) : (applyUpd (.flt v) s).time = s.time := rfl
@[simp] theorem flt_upd_timeFrac (s : State) (v : Flt) : (applyUpd (.flt v) s).timeFrac = s.timeFrac := rfl
@[simp] theorem flt_upd_freeCtr (s : State) (v : Flt) : (applyUpd (.flt v) s).freeCtr = s.freeCtr := rfl
@[simp] theorem flt_upd_hiLatch (s : State) (v : Flt) : (applyUpd (.flt v) s).hiLatch = s.hiLatch := rfl
@[simp] theorem flt_upd_timeSet (s : State) (v : Flt) : (applyUpd (.flt v) s).timeSet = s.timeSet := rfl
@[simp] theorem flt_upd_n0 (s : State) (v : Flt) : (applyUpd (.flt v) s).n0 = s.n0 := rfl
@[simp] theorem flt_upd_ticked (s : State) (v : Flt) : (applyUpd (.flt v) s).ticked = s.ticked := rfl
@[simp] theorem flt_upd_peerTickAt (s : State) (v : Flt) : (applyUpd (.flt v) s).peerTickAt = s.peerTickAt := rfl
@[simp] theorem flt_upd_guardPitch (s : State) (v : Flt) : (applyUpd (.flt v) s).guardPitch = s.guardPitch := rfl
@[simp] theorem flt_upd_diePitch (s : State) (v : Flt) : (applyUpd (.flt v) s).diePitch = s.diePitch := rfl
@[simp] theorem flt_upd_resps (s : State) (v : Flt) : (applyUpd (.flt v) s).resps = s.resps := rfl
@[simp] theorem flt_upd_txns (s : State) (v : Flt) : (applyUpd (.flt v) s).txns = s.txns := rfl
@[simp] theorem flt_upd_nextTag (s : State) (v : Flt) : (applyUpd (.flt v) s).nextTag = s.nextTag := rfl
@[simp] theorem flt_upd_lateTags (s : State) (v : Flt) : (applyUpd (.flt v) s).lateTags = s.lateTags := rfl
@[simp] theorem flt_upd_ports (s : State) (v : Flt) : (applyUpd (.flt v) s).ports = s.ports := rfl
@[simp] theorem flt_upd_threads (s : State) (v : Flt) : (applyUpd (.flt v) s).threads = s.threads := rfl
@[simp] theorem flt_upd_cores (s : State) (v : Flt) : (applyUpd (.flt v) s).cores = s.cores := rfl
@[simp] theorem flt_upd_engines (s : State) (v : Flt) : (applyUpd (.flt v) s).engines = s.engines := rfl
@[simp] theorem flt_upd_held (s : State) (v : Flt) : (applyUpd (.flt v) s).held = s.held := rfl
@[simp] theorem flt_upd_watches (s : State) (v : Flt) : (applyUpd (.flt v) s).watches = s.watches := rfl
@[simp] theorem flt_upd_watchMsgs (s : State) (v : Flt) : (applyUpd (.flt v) s).watchMsgs = s.watchMsgs := rfl
@[simp] theorem flt_upd_bankHeld (s : State) (v : Flt) : (applyUpd (.flt v) s).bankHeld = s.bankHeld := rfl
@[simp] theorem flt_upd_bankTarget (s : State) (v : Flt) : (applyUpd (.flt v) s).bankTarget = s.bankTarget := rfl
@[simp] theorem flt_upd_ecc (s : State) (v : Flt) : (applyUpd (.flt v) s).ecc = s.ecc := rfl
@[simp] theorem flt_upd_lineEcc (s : State) (v : Flt) : (applyUpd (.flt v) s).lineEcc = s.lineEcc := rfl
@[simp] theorem flt_upd_wbPending (s : State) (v : Flt) : (applyUpd (.flt v) s).wbPending = s.wbPending := rfl
@[simp] theorem flt_upd_scrubPos (s : State) (v : Flt) : (applyUpd (.flt v) s).scrubPos = s.scrubPos := rfl
@[simp] theorem flt_upd_refusals (s : State) (v : Flt) : (applyUpd (.flt v) s).refusals = s.refusals := rfl
@[simp] theorem flt_upd_firstRefusal (s : State) (v : Flt) : (applyUpd (.flt v) s).firstRefusal = s.firstRefusal := rfl
@[simp] theorem flt_upd_boxQueue (s : State) (v : Flt) : (applyUpd (.flt v) s).boxQueue = s.boxQueue := rfl
@[simp] theorem flt_upd_boxRun (s : State) (v : Flt) : (applyUpd (.flt v) s).boxRun = s.boxRun := rfl
@[simp] theorem flt_upd_kvs (s : State) (v : Flt) : (applyUpd (.flt v) s).kvs = s.kvs := rfl
@[simp] theorem flt_upd_parts (s : State) (v : Flt) : (applyUpd (.flt v) s).parts = s.parts := rfl
@[simp] theorem flt_upd_dmas (s : State) (v : Flt) : (applyUpd (.flt v) s).dmas = s.dmas := rfl
@[simp] theorem flt_upd_regReqs (s : State) (v : Flt) : (applyUpd (.flt v) s).regReqs = s.regReqs := rfl
@[simp] theorem flt_upd_regPorts (s : State) (v : Flt) : (applyUpd (.flt v) s).regPorts = s.regPorts := rfl
@[simp] theorem flt_upd_subchs (s : State) (v : Flt) : (applyUpd (.flt v) s).subchs = s.subchs := rfl
@[simp] theorem flt_upd_trackers (s : State) (v : Flt) : (applyUpd (.flt v) s).trackers = s.trackers := rfl
@[simp] theorem flt_upd_throttles (s : State) (v : Flt) : (applyUpd (.flt v) s).throttles = s.throttles := rfl
@[simp] theorem flt_upd_errRing (s : State) (v : Flt) : (applyUpd (.flt v) s).errRing = s.errRing := rfl
@[simp] theorem flt_upd_errRingOvf (s : State) (v : Flt) : (applyUpd (.flt v) s).errRingOvf = s.errRingOvf := rfl
@[simp] theorem flt_upd_patrolLine (s : State) (v : Flt) : (applyUpd (.flt v) s).patrolLine = s.patrolLine := rfl
@[simp] theorem flt_upd_retTimes (s : State) (v : Flt) : (applyUpd (.flt v) s).retTimes = s.retTimes := rfl
@[simp] theorem flt_upd_retired (s : State) (v : Flt) : (applyUpd (.flt v) s).retired = s.retired := rfl
@[simp] theorem flt_upd_dramSeq (s : State) (v : Flt) : (applyUpd (.flt v) s).dramSeq = s.dramSeq := rfl
@[simp] theorem flt_upd_trn (s : State) (v : Flt) : (applyUpd (.flt v) s).trn = s.trn := rfl
@[simp] theorem flt_upd_dqsAdj (s : State) (v : Flt) : (applyUpd (.flt v) s).dqsAdj = s.dqsAdj := rfl
@[simp] theorem flt_upd_dpol (s : State) (v : Flt) : (applyUpd (.flt v) s).dpol = s.dpol := rfl
@[simp] theorem flt_upd_idleAt (s : State) (v : Flt) : (applyUpd (.flt v) s).idleAt = s.idleAt := rfl
@[simp] theorem flt_upd_fitted (s : State) (v : Flt) : (applyUpd (.flt v) s).fitted = s.fitted := rfl
@[simp] theorem flt_upd_faultMsgs (s : State) (v : Flt) : (applyUpd (.flt v) s).faultMsgs = s.faultMsgs := rfl
@[simp] theorem flt_upd_out (s : State) (v : Flt) : (applyUpd (.flt v) s).out = s.out := rfl
@[simp] theorem flt_upd_lastRead (s : State) (v : Flt) : (applyUpd (.flt v) s).lastRead = s.lastRead := rfl
@[simp] theorem flt_upd_fwd (s : State) (v : Flt) : (applyUpd (.flt v) s).fwd = s.fwd := rfl
@[simp] theorem flt_upd_ethTx (s : State) (v : Flt) : (applyUpd (.flt v) s).ethTx = s.ethTx := rfl
@[simp] theorem flt_upd_ethHeadAt (s : State) (v : Flt) : (applyUpd (.flt v) s).ethHeadAt = s.ethHeadAt := rfl
@[simp] theorem flt_upd_canTx (s : State) (v : Flt) : (applyUpd (.flt v) s).canTx = s.canTx := rfl
@[simp] theorem flt_upd_pcieOut (s : State) (v : Flt) : (applyUpd (.flt v) s).pcieOut = s.pcieOut := rfl
@[simp] theorem flt_upd_pcieCfgRd (s : State) (v : Flt) : (applyUpd (.flt v) s).pcieCfgRd = s.pcieCfgRd := rfl
@[simp] theorem flt_upd_msix (s : State) (v : Flt) : (applyUpd (.flt v) s).msix = s.msix := rfl
@[simp] theorem flt_upd_ancs (s : State) (v : Flt) : (applyUpd (.flt v) s).ancs = s.ancs := rfl
@[simp] theorem flt_upd_trajArea (s : State) (v : Flt) : (applyUpd (.flt v) s).trajArea = s.trajArea := rfl
@[simp] theorem flt_upd_lidarIn (s : State) (v : Flt) : (applyUpd (.flt v) s).lidarIn = s.lidarIn := rfl
@[simp] theorem flt_upd_wheelIn (s : State) (v : Flt) : (applyUpd (.flt v) s).wheelIn = s.wheelIn := rfl
@[simp] theorem flt_upd_spiStepBusy (s : State) (v : Flt) : (applyUpd (.flt v) s).spiStepBusy = s.spiStepBusy := rfl
@[simp] theorem flt_upd_spiRec (s : State) (v : Flt) : (applyUpd (.flt v) s).spiRec = s.spiRec := rfl
@[simp] theorem flt_upd_spiStepCfg (s : State) (v : Flt) : (applyUpd (.flt v) s).spiStepCfg = s.spiStepCfg := rfl
@[simp] theorem flt_upd_ctxs (s : State) (v : Flt) : (applyUpd (.flt v) s).ctxs = s.ctxs := rfl
@[simp] theorem flt_upd_fsyOmit (s : State) (v : Flt) : (applyUpd (.flt v) s).fsyOmit = s.fsyOmit := rfl
@[simp] theorem flt_upd_fsyPulsed (s : State) (v : Flt) : (applyUpd (.flt v) s).fsyPulsed = s.fsyPulsed := rfl
@[simp] theorem flt_upd_supTasks (s : State) (v : Flt) : (applyUpd (.flt v) s).supTasks = s.supTasks := rfl
@[simp] theorem flt_upd_fus (s : State) (v : Flt) : (applyUpd (.flt v) s).fus = s.fus := rfl
@[simp] theorem flt_upd_fcons (s : State) (v : Flt) : (applyUpd (.flt v) s).fcons = s.fcons := rfl
@[simp] theorem flt_upd_shadow (s : State) (v : Flt) : (applyUpd (.flt v) s).shadow = s.shadow := rfl
@[simp] theorem flt_upd_trv (s : State) (v : Flt) : (applyUpd (.flt v) s).trv = s.trv := rfl
@[simp] theorem flt_upd_tlayers (s : State) (v : Flt) : (applyUpd (.flt v) s).tlayers = s.tlayers := rfl
@[simp] theorem flt_upd_jobFaults (s : State) (v : Flt) : (applyUpd (.flt v) s).jobFaults = s.jobFaults := rfl
@[simp] theorem flt_upd_unitLast (s : State) (v : Flt) : (applyUpd (.flt v) s).unitLast = s.unitLast := rfl
@[simp] theorem flt_upd_unitRst (s : State) (v : Flt) : (applyUpd (.flt v) s).unitRst = s.unitRst := rfl
@[simp] theorem flt_upd_xlink (s : State) (v : Flt) : (applyUpd (.flt v) s).xlink = s.xlink := rfl
@[simp] theorem flt_upd_trace (s : State) (v : Flt) : (applyUpd (.flt v) s).trace = s.trace := rfl
@[simp] theorem flt_upd_progs (s : State) (v : Flt) : (applyUpd (.flt v) s).progs = s.progs := rfl
@[simp] theorem flt_upd_rails (s : State) (v : Flt) : (applyUpd (.flt v) s).rails = s.rails := rfl
@[simp] theorem flt_upd_thm (s : State) (v : Flt) : (applyUpd (.flt v) s).thm = s.thm := rfl
@[simp] theorem flt_upd_bnd (s : State) (v : Flt) : (applyUpd (.flt v) s).bnd = s.bnd := rfl
@[simp] theorem flt_upd_thmTrip (s : State) (v : Flt) : (applyUpd (.flt v) s).thmTrip = s.thmTrip := rfl
@[simp] theorem flt_upd_flash (s : State) (v : Flt) : (applyUpd (.flt v) s).flash = s.flash := rfl
@[simp] theorem flt_upd_slots (s : State) (v : Flt) : (applyUpd (.flt v) s).slots = s.slots := rfl
@[simp] theorem flt_upd_stores (s : State) (v : Flt) : (applyUpd (.flt v) s).stores = s.stores := rfl
@[simp] theorem flt_upd_ids (s : State) (v : Flt) : (applyUpd (.flt v) s).ids = s.ids := rfl
@[simp] theorem flt_upd_boot (s : State) (v : Flt) : (applyUpd (.flt v) s).boot = s.boot := rfl
@[simp] theorem flt_upd_load (s : State) (v : Flt) : (applyUpd (.flt v) s).load = s.load := rfl
@[simp] theorem flt_upd_flt (s : State) (v : Flt) : (applyUpd (.flt v) s).flt = v := rfl
@[simp] theorem flt_upd_mon (s : State) (v : Flt) : (applyUpd (.flt v) s).mon = s.mon := rfl
@[simp] theorem mon_upd_pending (s : State) (v : Mon) : (applyUpd (.mon v) s).pending = s.pending := rfl
@[simp] theorem mon_upd_regs (s : State) (v : Mon) : (applyUpd (.mon v) s).regs = s.regs := rfl
@[simp] theorem mon_upd_mem (s : State) (v : Mon) : (applyUpd (.mon v) s).mem = s.mem := rfl
@[simp] theorem mon_upd_sram (s : State) (v : Mon) : (applyUpd (.mon v) s).sram = s.sram := rfl
@[simp] theorem mon_upd_time (s : State) (v : Mon) : (applyUpd (.mon v) s).time = s.time := rfl
@[simp] theorem mon_upd_timeFrac (s : State) (v : Mon) : (applyUpd (.mon v) s).timeFrac = s.timeFrac := rfl
@[simp] theorem mon_upd_freeCtr (s : State) (v : Mon) : (applyUpd (.mon v) s).freeCtr = s.freeCtr := rfl
@[simp] theorem mon_upd_hiLatch (s : State) (v : Mon) : (applyUpd (.mon v) s).hiLatch = s.hiLatch := rfl
@[simp] theorem mon_upd_timeSet (s : State) (v : Mon) : (applyUpd (.mon v) s).timeSet = s.timeSet := rfl
@[simp] theorem mon_upd_n0 (s : State) (v : Mon) : (applyUpd (.mon v) s).n0 = s.n0 := rfl
@[simp] theorem mon_upd_ticked (s : State) (v : Mon) : (applyUpd (.mon v) s).ticked = s.ticked := rfl
@[simp] theorem mon_upd_peerTickAt (s : State) (v : Mon) : (applyUpd (.mon v) s).peerTickAt = s.peerTickAt := rfl
@[simp] theorem mon_upd_guardPitch (s : State) (v : Mon) : (applyUpd (.mon v) s).guardPitch = s.guardPitch := rfl
@[simp] theorem mon_upd_diePitch (s : State) (v : Mon) : (applyUpd (.mon v) s).diePitch = s.diePitch := rfl
@[simp] theorem mon_upd_resps (s : State) (v : Mon) : (applyUpd (.mon v) s).resps = s.resps := rfl
@[simp] theorem mon_upd_txns (s : State) (v : Mon) : (applyUpd (.mon v) s).txns = s.txns := rfl
@[simp] theorem mon_upd_nextTag (s : State) (v : Mon) : (applyUpd (.mon v) s).nextTag = s.nextTag := rfl
@[simp] theorem mon_upd_lateTags (s : State) (v : Mon) : (applyUpd (.mon v) s).lateTags = s.lateTags := rfl
@[simp] theorem mon_upd_ports (s : State) (v : Mon) : (applyUpd (.mon v) s).ports = s.ports := rfl
@[simp] theorem mon_upd_threads (s : State) (v : Mon) : (applyUpd (.mon v) s).threads = s.threads := rfl
@[simp] theorem mon_upd_cores (s : State) (v : Mon) : (applyUpd (.mon v) s).cores = s.cores := rfl
@[simp] theorem mon_upd_engines (s : State) (v : Mon) : (applyUpd (.mon v) s).engines = s.engines := rfl
@[simp] theorem mon_upd_held (s : State) (v : Mon) : (applyUpd (.mon v) s).held = s.held := rfl
@[simp] theorem mon_upd_watches (s : State) (v : Mon) : (applyUpd (.mon v) s).watches = s.watches := rfl
@[simp] theorem mon_upd_watchMsgs (s : State) (v : Mon) : (applyUpd (.mon v) s).watchMsgs = s.watchMsgs := rfl
@[simp] theorem mon_upd_bankHeld (s : State) (v : Mon) : (applyUpd (.mon v) s).bankHeld = s.bankHeld := rfl
@[simp] theorem mon_upd_bankTarget (s : State) (v : Mon) : (applyUpd (.mon v) s).bankTarget = s.bankTarget := rfl
@[simp] theorem mon_upd_ecc (s : State) (v : Mon) : (applyUpd (.mon v) s).ecc = s.ecc := rfl
@[simp] theorem mon_upd_lineEcc (s : State) (v : Mon) : (applyUpd (.mon v) s).lineEcc = s.lineEcc := rfl
@[simp] theorem mon_upd_wbPending (s : State) (v : Mon) : (applyUpd (.mon v) s).wbPending = s.wbPending := rfl
@[simp] theorem mon_upd_scrubPos (s : State) (v : Mon) : (applyUpd (.mon v) s).scrubPos = s.scrubPos := rfl
@[simp] theorem mon_upd_refusals (s : State) (v : Mon) : (applyUpd (.mon v) s).refusals = s.refusals := rfl
@[simp] theorem mon_upd_firstRefusal (s : State) (v : Mon) : (applyUpd (.mon v) s).firstRefusal = s.firstRefusal := rfl
@[simp] theorem mon_upd_boxQueue (s : State) (v : Mon) : (applyUpd (.mon v) s).boxQueue = s.boxQueue := rfl
@[simp] theorem mon_upd_boxRun (s : State) (v : Mon) : (applyUpd (.mon v) s).boxRun = s.boxRun := rfl
@[simp] theorem mon_upd_kvs (s : State) (v : Mon) : (applyUpd (.mon v) s).kvs = s.kvs := rfl
@[simp] theorem mon_upd_parts (s : State) (v : Mon) : (applyUpd (.mon v) s).parts = s.parts := rfl
@[simp] theorem mon_upd_dmas (s : State) (v : Mon) : (applyUpd (.mon v) s).dmas = s.dmas := rfl
@[simp] theorem mon_upd_regReqs (s : State) (v : Mon) : (applyUpd (.mon v) s).regReqs = s.regReqs := rfl
@[simp] theorem mon_upd_regPorts (s : State) (v : Mon) : (applyUpd (.mon v) s).regPorts = s.regPorts := rfl
@[simp] theorem mon_upd_subchs (s : State) (v : Mon) : (applyUpd (.mon v) s).subchs = s.subchs := rfl
@[simp] theorem mon_upd_trackers (s : State) (v : Mon) : (applyUpd (.mon v) s).trackers = s.trackers := rfl
@[simp] theorem mon_upd_throttles (s : State) (v : Mon) : (applyUpd (.mon v) s).throttles = s.throttles := rfl
@[simp] theorem mon_upd_errRing (s : State) (v : Mon) : (applyUpd (.mon v) s).errRing = s.errRing := rfl
@[simp] theorem mon_upd_errRingOvf (s : State) (v : Mon) : (applyUpd (.mon v) s).errRingOvf = s.errRingOvf := rfl
@[simp] theorem mon_upd_patrolLine (s : State) (v : Mon) : (applyUpd (.mon v) s).patrolLine = s.patrolLine := rfl
@[simp] theorem mon_upd_retTimes (s : State) (v : Mon) : (applyUpd (.mon v) s).retTimes = s.retTimes := rfl
@[simp] theorem mon_upd_retired (s : State) (v : Mon) : (applyUpd (.mon v) s).retired = s.retired := rfl
@[simp] theorem mon_upd_dramSeq (s : State) (v : Mon) : (applyUpd (.mon v) s).dramSeq = s.dramSeq := rfl
@[simp] theorem mon_upd_trn (s : State) (v : Mon) : (applyUpd (.mon v) s).trn = s.trn := rfl
@[simp] theorem mon_upd_dqsAdj (s : State) (v : Mon) : (applyUpd (.mon v) s).dqsAdj = s.dqsAdj := rfl
@[simp] theorem mon_upd_dpol (s : State) (v : Mon) : (applyUpd (.mon v) s).dpol = s.dpol := rfl
@[simp] theorem mon_upd_idleAt (s : State) (v : Mon) : (applyUpd (.mon v) s).idleAt = s.idleAt := rfl
@[simp] theorem mon_upd_fitted (s : State) (v : Mon) : (applyUpd (.mon v) s).fitted = s.fitted := rfl
@[simp] theorem mon_upd_faultMsgs (s : State) (v : Mon) : (applyUpd (.mon v) s).faultMsgs = s.faultMsgs := rfl
@[simp] theorem mon_upd_out (s : State) (v : Mon) : (applyUpd (.mon v) s).out = s.out := rfl
@[simp] theorem mon_upd_lastRead (s : State) (v : Mon) : (applyUpd (.mon v) s).lastRead = s.lastRead := rfl
@[simp] theorem mon_upd_fwd (s : State) (v : Mon) : (applyUpd (.mon v) s).fwd = s.fwd := rfl
@[simp] theorem mon_upd_ethTx (s : State) (v : Mon) : (applyUpd (.mon v) s).ethTx = s.ethTx := rfl
@[simp] theorem mon_upd_ethHeadAt (s : State) (v : Mon) : (applyUpd (.mon v) s).ethHeadAt = s.ethHeadAt := rfl
@[simp] theorem mon_upd_canTx (s : State) (v : Mon) : (applyUpd (.mon v) s).canTx = s.canTx := rfl
@[simp] theorem mon_upd_pcieOut (s : State) (v : Mon) : (applyUpd (.mon v) s).pcieOut = s.pcieOut := rfl
@[simp] theorem mon_upd_pcieCfgRd (s : State) (v : Mon) : (applyUpd (.mon v) s).pcieCfgRd = s.pcieCfgRd := rfl
@[simp] theorem mon_upd_msix (s : State) (v : Mon) : (applyUpd (.mon v) s).msix = s.msix := rfl
@[simp] theorem mon_upd_ancs (s : State) (v : Mon) : (applyUpd (.mon v) s).ancs = s.ancs := rfl
@[simp] theorem mon_upd_trajArea (s : State) (v : Mon) : (applyUpd (.mon v) s).trajArea = s.trajArea := rfl
@[simp] theorem mon_upd_lidarIn (s : State) (v : Mon) : (applyUpd (.mon v) s).lidarIn = s.lidarIn := rfl
@[simp] theorem mon_upd_wheelIn (s : State) (v : Mon) : (applyUpd (.mon v) s).wheelIn = s.wheelIn := rfl
@[simp] theorem mon_upd_spiStepBusy (s : State) (v : Mon) : (applyUpd (.mon v) s).spiStepBusy = s.spiStepBusy := rfl
@[simp] theorem mon_upd_spiRec (s : State) (v : Mon) : (applyUpd (.mon v) s).spiRec = s.spiRec := rfl
@[simp] theorem mon_upd_spiStepCfg (s : State) (v : Mon) : (applyUpd (.mon v) s).spiStepCfg = s.spiStepCfg := rfl
@[simp] theorem mon_upd_ctxs (s : State) (v : Mon) : (applyUpd (.mon v) s).ctxs = s.ctxs := rfl
@[simp] theorem mon_upd_fsyOmit (s : State) (v : Mon) : (applyUpd (.mon v) s).fsyOmit = s.fsyOmit := rfl
@[simp] theorem mon_upd_fsyPulsed (s : State) (v : Mon) : (applyUpd (.mon v) s).fsyPulsed = s.fsyPulsed := rfl
@[simp] theorem mon_upd_supTasks (s : State) (v : Mon) : (applyUpd (.mon v) s).supTasks = s.supTasks := rfl
@[simp] theorem mon_upd_fus (s : State) (v : Mon) : (applyUpd (.mon v) s).fus = s.fus := rfl
@[simp] theorem mon_upd_fcons (s : State) (v : Mon) : (applyUpd (.mon v) s).fcons = s.fcons := rfl
@[simp] theorem mon_upd_shadow (s : State) (v : Mon) : (applyUpd (.mon v) s).shadow = s.shadow := rfl
@[simp] theorem mon_upd_trv (s : State) (v : Mon) : (applyUpd (.mon v) s).trv = s.trv := rfl
@[simp] theorem mon_upd_tlayers (s : State) (v : Mon) : (applyUpd (.mon v) s).tlayers = s.tlayers := rfl
@[simp] theorem mon_upd_jobFaults (s : State) (v : Mon) : (applyUpd (.mon v) s).jobFaults = s.jobFaults := rfl
@[simp] theorem mon_upd_unitLast (s : State) (v : Mon) : (applyUpd (.mon v) s).unitLast = s.unitLast := rfl
@[simp] theorem mon_upd_unitRst (s : State) (v : Mon) : (applyUpd (.mon v) s).unitRst = s.unitRst := rfl
@[simp] theorem mon_upd_xlink (s : State) (v : Mon) : (applyUpd (.mon v) s).xlink = s.xlink := rfl
@[simp] theorem mon_upd_trace (s : State) (v : Mon) : (applyUpd (.mon v) s).trace = s.trace := rfl
@[simp] theorem mon_upd_progs (s : State) (v : Mon) : (applyUpd (.mon v) s).progs = s.progs := rfl
@[simp] theorem mon_upd_rails (s : State) (v : Mon) : (applyUpd (.mon v) s).rails = s.rails := rfl
@[simp] theorem mon_upd_thm (s : State) (v : Mon) : (applyUpd (.mon v) s).thm = s.thm := rfl
@[simp] theorem mon_upd_bnd (s : State) (v : Mon) : (applyUpd (.mon v) s).bnd = s.bnd := rfl
@[simp] theorem mon_upd_thmTrip (s : State) (v : Mon) : (applyUpd (.mon v) s).thmTrip = s.thmTrip := rfl
@[simp] theorem mon_upd_flash (s : State) (v : Mon) : (applyUpd (.mon v) s).flash = s.flash := rfl
@[simp] theorem mon_upd_slots (s : State) (v : Mon) : (applyUpd (.mon v) s).slots = s.slots := rfl
@[simp] theorem mon_upd_stores (s : State) (v : Mon) : (applyUpd (.mon v) s).stores = s.stores := rfl
@[simp] theorem mon_upd_ids (s : State) (v : Mon) : (applyUpd (.mon v) s).ids = s.ids := rfl
@[simp] theorem mon_upd_boot (s : State) (v : Mon) : (applyUpd (.mon v) s).boot = s.boot := rfl
@[simp] theorem mon_upd_load (s : State) (v : Mon) : (applyUpd (.mon v) s).load = s.load := rfl
@[simp] theorem mon_upd_flt (s : State) (v : Mon) : (applyUpd (.mon v) s).flt = s.flt := rfl
@[simp] theorem mon_upd_mon (s : State) (v : Mon) : (applyUpd (.mon v) s).mon = v := rfl
@[simp] theorem memDrop_upd_pending (s : State) (lo n : Nat) : (applyUpd (.memDrop lo n) s).pending = s.pending := rfl
@[simp] theorem memDrop_upd_regs (s : State) (lo n : Nat) : (applyUpd (.memDrop lo n) s).regs = s.regs := rfl
@[simp] theorem memDrop_upd_mem (s : State) (lo n : Nat) : (applyUpd (.memDrop lo n) s).mem = tabDrop s.mem lo n := rfl
@[simp] theorem memDrop_upd_sram (s : State) (lo n : Nat) : (applyUpd (.memDrop lo n) s).sram = s.sram := rfl
@[simp] theorem memDrop_upd_time (s : State) (lo n : Nat) : (applyUpd (.memDrop lo n) s).time = s.time := rfl
@[simp] theorem memDrop_upd_timeFrac (s : State) (lo n : Nat) : (applyUpd (.memDrop lo n) s).timeFrac = s.timeFrac := rfl
@[simp] theorem memDrop_upd_freeCtr (s : State) (lo n : Nat) : (applyUpd (.memDrop lo n) s).freeCtr = s.freeCtr := rfl
@[simp] theorem memDrop_upd_hiLatch (s : State) (lo n : Nat) : (applyUpd (.memDrop lo n) s).hiLatch = s.hiLatch := rfl
@[simp] theorem memDrop_upd_timeSet (s : State) (lo n : Nat) : (applyUpd (.memDrop lo n) s).timeSet = s.timeSet := rfl
@[simp] theorem memDrop_upd_n0 (s : State) (lo n : Nat) : (applyUpd (.memDrop lo n) s).n0 = s.n0 := rfl
@[simp] theorem memDrop_upd_ticked (s : State) (lo n : Nat) : (applyUpd (.memDrop lo n) s).ticked = s.ticked := rfl
@[simp] theorem memDrop_upd_peerTickAt (s : State) (lo n : Nat) : (applyUpd (.memDrop lo n) s).peerTickAt = s.peerTickAt := rfl
@[simp] theorem memDrop_upd_guardPitch (s : State) (lo n : Nat) : (applyUpd (.memDrop lo n) s).guardPitch = s.guardPitch := rfl
@[simp] theorem memDrop_upd_diePitch (s : State) (lo n : Nat) : (applyUpd (.memDrop lo n) s).diePitch = s.diePitch := rfl
@[simp] theorem memDrop_upd_resps (s : State) (lo n : Nat) : (applyUpd (.memDrop lo n) s).resps = s.resps := rfl
@[simp] theorem memDrop_upd_txns (s : State) (lo n : Nat) : (applyUpd (.memDrop lo n) s).txns = s.txns := rfl
@[simp] theorem memDrop_upd_nextTag (s : State) (lo n : Nat) : (applyUpd (.memDrop lo n) s).nextTag = s.nextTag := rfl
@[simp] theorem memDrop_upd_lateTags (s : State) (lo n : Nat) : (applyUpd (.memDrop lo n) s).lateTags = s.lateTags := rfl
@[simp] theorem memDrop_upd_ports (s : State) (lo n : Nat) : (applyUpd (.memDrop lo n) s).ports = s.ports := rfl
@[simp] theorem memDrop_upd_threads (s : State) (lo n : Nat) : (applyUpd (.memDrop lo n) s).threads = s.threads := rfl
@[simp] theorem memDrop_upd_cores (s : State) (lo n : Nat) : (applyUpd (.memDrop lo n) s).cores = s.cores := rfl
@[simp] theorem memDrop_upd_engines (s : State) (lo n : Nat) : (applyUpd (.memDrop lo n) s).engines = s.engines := rfl
@[simp] theorem memDrop_upd_held (s : State) (lo n : Nat) : (applyUpd (.memDrop lo n) s).held = s.held := rfl
@[simp] theorem memDrop_upd_watches (s : State) (lo n : Nat) : (applyUpd (.memDrop lo n) s).watches = s.watches := rfl
@[simp] theorem memDrop_upd_watchMsgs (s : State) (lo n : Nat) : (applyUpd (.memDrop lo n) s).watchMsgs = s.watchMsgs := rfl
@[simp] theorem memDrop_upd_bankHeld (s : State) (lo n : Nat) : (applyUpd (.memDrop lo n) s).bankHeld = s.bankHeld := rfl
@[simp] theorem memDrop_upd_bankTarget (s : State) (lo n : Nat) : (applyUpd (.memDrop lo n) s).bankTarget = s.bankTarget := rfl
@[simp] theorem memDrop_upd_ecc (s : State) (lo n : Nat) : (applyUpd (.memDrop lo n) s).ecc = s.ecc := rfl
@[simp] theorem memDrop_upd_lineEcc (s : State) (lo n : Nat) : (applyUpd (.memDrop lo n) s).lineEcc = s.lineEcc := rfl
@[simp] theorem memDrop_upd_wbPending (s : State) (lo n : Nat) : (applyUpd (.memDrop lo n) s).wbPending = s.wbPending := rfl
@[simp] theorem memDrop_upd_scrubPos (s : State) (lo n : Nat) : (applyUpd (.memDrop lo n) s).scrubPos = s.scrubPos := rfl
@[simp] theorem memDrop_upd_refusals (s : State) (lo n : Nat) : (applyUpd (.memDrop lo n) s).refusals = s.refusals := rfl
@[simp] theorem memDrop_upd_firstRefusal (s : State) (lo n : Nat) : (applyUpd (.memDrop lo n) s).firstRefusal = s.firstRefusal := rfl
@[simp] theorem memDrop_upd_boxQueue (s : State) (lo n : Nat) : (applyUpd (.memDrop lo n) s).boxQueue = s.boxQueue := rfl
@[simp] theorem memDrop_upd_boxRun (s : State) (lo n : Nat) : (applyUpd (.memDrop lo n) s).boxRun = s.boxRun := rfl
@[simp] theorem memDrop_upd_kvs (s : State) (lo n : Nat) : (applyUpd (.memDrop lo n) s).kvs = s.kvs := rfl
@[simp] theorem memDrop_upd_parts (s : State) (lo n : Nat) : (applyUpd (.memDrop lo n) s).parts = s.parts := rfl
@[simp] theorem memDrop_upd_dmas (s : State) (lo n : Nat) : (applyUpd (.memDrop lo n) s).dmas = s.dmas := rfl
@[simp] theorem memDrop_upd_regReqs (s : State) (lo n : Nat) : (applyUpd (.memDrop lo n) s).regReqs = s.regReqs := rfl
@[simp] theorem memDrop_upd_regPorts (s : State) (lo n : Nat) : (applyUpd (.memDrop lo n) s).regPorts = s.regPorts := rfl
@[simp] theorem memDrop_upd_subchs (s : State) (lo n : Nat) : (applyUpd (.memDrop lo n) s).subchs = s.subchs := rfl
@[simp] theorem memDrop_upd_trackers (s : State) (lo n : Nat) : (applyUpd (.memDrop lo n) s).trackers = s.trackers := rfl
@[simp] theorem memDrop_upd_throttles (s : State) (lo n : Nat) : (applyUpd (.memDrop lo n) s).throttles = s.throttles := rfl
@[simp] theorem memDrop_upd_errRing (s : State) (lo n : Nat) : (applyUpd (.memDrop lo n) s).errRing = s.errRing := rfl
@[simp] theorem memDrop_upd_errRingOvf (s : State) (lo n : Nat) : (applyUpd (.memDrop lo n) s).errRingOvf = s.errRingOvf := rfl
@[simp] theorem memDrop_upd_patrolLine (s : State) (lo n : Nat) : (applyUpd (.memDrop lo n) s).patrolLine = s.patrolLine := rfl
@[simp] theorem memDrop_upd_retTimes (s : State) (lo n : Nat) : (applyUpd (.memDrop lo n) s).retTimes = s.retTimes := rfl
@[simp] theorem memDrop_upd_retired (s : State) (lo n : Nat) : (applyUpd (.memDrop lo n) s).retired = s.retired := rfl
@[simp] theorem memDrop_upd_dramSeq (s : State) (lo n : Nat) : (applyUpd (.memDrop lo n) s).dramSeq = s.dramSeq := rfl
@[simp] theorem memDrop_upd_trn (s : State) (lo n : Nat) : (applyUpd (.memDrop lo n) s).trn = s.trn := rfl
@[simp] theorem memDrop_upd_dqsAdj (s : State) (lo n : Nat) : (applyUpd (.memDrop lo n) s).dqsAdj = s.dqsAdj := rfl
@[simp] theorem memDrop_upd_dpol (s : State) (lo n : Nat) : (applyUpd (.memDrop lo n) s).dpol = s.dpol := rfl
@[simp] theorem memDrop_upd_idleAt (s : State) (lo n : Nat) : (applyUpd (.memDrop lo n) s).idleAt = s.idleAt := rfl
@[simp] theorem memDrop_upd_fitted (s : State) (lo n : Nat) : (applyUpd (.memDrop lo n) s).fitted = s.fitted := rfl
@[simp] theorem memDrop_upd_faultMsgs (s : State) (lo n : Nat) : (applyUpd (.memDrop lo n) s).faultMsgs = s.faultMsgs := rfl
@[simp] theorem memDrop_upd_out (s : State) (lo n : Nat) : (applyUpd (.memDrop lo n) s).out = s.out := rfl
@[simp] theorem memDrop_upd_lastRead (s : State) (lo n : Nat) : (applyUpd (.memDrop lo n) s).lastRead = s.lastRead := rfl
@[simp] theorem memDrop_upd_fwd (s : State) (lo n : Nat) : (applyUpd (.memDrop lo n) s).fwd = s.fwd := rfl
@[simp] theorem memDrop_upd_ethTx (s : State) (lo n : Nat) : (applyUpd (.memDrop lo n) s).ethTx = s.ethTx := rfl
@[simp] theorem memDrop_upd_ethHeadAt (s : State) (lo n : Nat) : (applyUpd (.memDrop lo n) s).ethHeadAt = s.ethHeadAt := rfl
@[simp] theorem memDrop_upd_canTx (s : State) (lo n : Nat) : (applyUpd (.memDrop lo n) s).canTx = s.canTx := rfl
@[simp] theorem memDrop_upd_pcieOut (s : State) (lo n : Nat) : (applyUpd (.memDrop lo n) s).pcieOut = s.pcieOut := rfl
@[simp] theorem memDrop_upd_pcieCfgRd (s : State) (lo n : Nat) : (applyUpd (.memDrop lo n) s).pcieCfgRd = s.pcieCfgRd := rfl
@[simp] theorem memDrop_upd_msix (s : State) (lo n : Nat) : (applyUpd (.memDrop lo n) s).msix = s.msix := rfl
@[simp] theorem memDrop_upd_ancs (s : State) (lo n : Nat) : (applyUpd (.memDrop lo n) s).ancs = s.ancs := rfl
@[simp] theorem memDrop_upd_trajArea (s : State) (lo n : Nat) : (applyUpd (.memDrop lo n) s).trajArea = s.trajArea := rfl
@[simp] theorem memDrop_upd_lidarIn (s : State) (lo n : Nat) : (applyUpd (.memDrop lo n) s).lidarIn = s.lidarIn := rfl
@[simp] theorem memDrop_upd_wheelIn (s : State) (lo n : Nat) : (applyUpd (.memDrop lo n) s).wheelIn = s.wheelIn := rfl
@[simp] theorem memDrop_upd_spiStepBusy (s : State) (lo n : Nat) : (applyUpd (.memDrop lo n) s).spiStepBusy = s.spiStepBusy := rfl
@[simp] theorem memDrop_upd_spiRec (s : State) (lo n : Nat) : (applyUpd (.memDrop lo n) s).spiRec = s.spiRec := rfl
@[simp] theorem memDrop_upd_spiStepCfg (s : State) (lo n : Nat) : (applyUpd (.memDrop lo n) s).spiStepCfg = s.spiStepCfg := rfl
@[simp] theorem memDrop_upd_ctxs (s : State) (lo n : Nat) : (applyUpd (.memDrop lo n) s).ctxs = s.ctxs := rfl
@[simp] theorem memDrop_upd_fsyOmit (s : State) (lo n : Nat) : (applyUpd (.memDrop lo n) s).fsyOmit = s.fsyOmit := rfl
@[simp] theorem memDrop_upd_fsyPulsed (s : State) (lo n : Nat) : (applyUpd (.memDrop lo n) s).fsyPulsed = s.fsyPulsed := rfl
@[simp] theorem memDrop_upd_supTasks (s : State) (lo n : Nat) : (applyUpd (.memDrop lo n) s).supTasks = s.supTasks := rfl
@[simp] theorem memDrop_upd_fus (s : State) (lo n : Nat) : (applyUpd (.memDrop lo n) s).fus = s.fus := rfl
@[simp] theorem memDrop_upd_fcons (s : State) (lo n : Nat) : (applyUpd (.memDrop lo n) s).fcons = s.fcons := rfl
@[simp] theorem memDrop_upd_shadow (s : State) (lo n : Nat) : (applyUpd (.memDrop lo n) s).shadow = s.shadow := rfl
@[simp] theorem memDrop_upd_trv (s : State) (lo n : Nat) : (applyUpd (.memDrop lo n) s).trv = s.trv := rfl
@[simp] theorem memDrop_upd_tlayers (s : State) (lo n : Nat) : (applyUpd (.memDrop lo n) s).tlayers = s.tlayers := rfl
@[simp] theorem memDrop_upd_jobFaults (s : State) (lo n : Nat) : (applyUpd (.memDrop lo n) s).jobFaults = s.jobFaults := rfl
@[simp] theorem memDrop_upd_unitLast (s : State) (lo n : Nat) : (applyUpd (.memDrop lo n) s).unitLast = s.unitLast := rfl
@[simp] theorem memDrop_upd_unitRst (s : State) (lo n : Nat) : (applyUpd (.memDrop lo n) s).unitRst = s.unitRst := rfl
@[simp] theorem memDrop_upd_xlink (s : State) (lo n : Nat) : (applyUpd (.memDrop lo n) s).xlink = s.xlink := rfl
@[simp] theorem memDrop_upd_trace (s : State) (lo n : Nat) : (applyUpd (.memDrop lo n) s).trace = s.trace := rfl
@[simp] theorem memDrop_upd_progs (s : State) (lo n : Nat) : (applyUpd (.memDrop lo n) s).progs = s.progs := rfl
@[simp] theorem memDrop_upd_rails (s : State) (lo n : Nat) : (applyUpd (.memDrop lo n) s).rails = s.rails := rfl
@[simp] theorem memDrop_upd_thm (s : State) (lo n : Nat) : (applyUpd (.memDrop lo n) s).thm = s.thm := rfl
@[simp] theorem memDrop_upd_bnd (s : State) (lo n : Nat) : (applyUpd (.memDrop lo n) s).bnd = s.bnd := rfl
@[simp] theorem memDrop_upd_thmTrip (s : State) (lo n : Nat) : (applyUpd (.memDrop lo n) s).thmTrip = s.thmTrip := rfl
@[simp] theorem memDrop_upd_flash (s : State) (lo n : Nat) : (applyUpd (.memDrop lo n) s).flash = s.flash := rfl
@[simp] theorem memDrop_upd_slots (s : State) (lo n : Nat) : (applyUpd (.memDrop lo n) s).slots = s.slots := rfl
@[simp] theorem memDrop_upd_stores (s : State) (lo n : Nat) : (applyUpd (.memDrop lo n) s).stores = s.stores := rfl
@[simp] theorem memDrop_upd_ids (s : State) (lo n : Nat) : (applyUpd (.memDrop lo n) s).ids = s.ids := rfl
@[simp] theorem memDrop_upd_boot (s : State) (lo n : Nat) : (applyUpd (.memDrop lo n) s).boot = s.boot := rfl
@[simp] theorem memDrop_upd_load (s : State) (lo n : Nat) : (applyUpd (.memDrop lo n) s).load = s.load := rfl
@[simp] theorem memDrop_upd_flt (s : State) (lo n : Nat) : (applyUpd (.memDrop lo n) s).flt = s.flt := rfl
@[simp] theorem memDrop_upd_mon (s : State) (lo n : Nat) : (applyUpd (.memDrop lo n) s).mon = s.mon := rfl
@[simp] theorem sramDrop_upd_pending (s : State) (lo n : Nat) : (applyUpd (.sramDrop lo n) s).pending = s.pending := rfl
@[simp] theorem sramDrop_upd_regs (s : State) (lo n : Nat) : (applyUpd (.sramDrop lo n) s).regs = s.regs := rfl
@[simp] theorem sramDrop_upd_mem (s : State) (lo n : Nat) : (applyUpd (.sramDrop lo n) s).mem = s.mem := rfl
@[simp] theorem sramDrop_upd_sram (s : State) (lo n : Nat) : (applyUpd (.sramDrop lo n) s).sram = tabDrop s.sram lo n := rfl
@[simp] theorem sramDrop_upd_time (s : State) (lo n : Nat) : (applyUpd (.sramDrop lo n) s).time = s.time := rfl
@[simp] theorem sramDrop_upd_timeFrac (s : State) (lo n : Nat) : (applyUpd (.sramDrop lo n) s).timeFrac = s.timeFrac := rfl
@[simp] theorem sramDrop_upd_freeCtr (s : State) (lo n : Nat) : (applyUpd (.sramDrop lo n) s).freeCtr = s.freeCtr := rfl
@[simp] theorem sramDrop_upd_hiLatch (s : State) (lo n : Nat) : (applyUpd (.sramDrop lo n) s).hiLatch = s.hiLatch := rfl
@[simp] theorem sramDrop_upd_timeSet (s : State) (lo n : Nat) : (applyUpd (.sramDrop lo n) s).timeSet = s.timeSet := rfl
@[simp] theorem sramDrop_upd_n0 (s : State) (lo n : Nat) : (applyUpd (.sramDrop lo n) s).n0 = s.n0 := rfl
@[simp] theorem sramDrop_upd_ticked (s : State) (lo n : Nat) : (applyUpd (.sramDrop lo n) s).ticked = s.ticked := rfl
@[simp] theorem sramDrop_upd_peerTickAt (s : State) (lo n : Nat) : (applyUpd (.sramDrop lo n) s).peerTickAt = s.peerTickAt := rfl
@[simp] theorem sramDrop_upd_guardPitch (s : State) (lo n : Nat) : (applyUpd (.sramDrop lo n) s).guardPitch = s.guardPitch := rfl
@[simp] theorem sramDrop_upd_diePitch (s : State) (lo n : Nat) : (applyUpd (.sramDrop lo n) s).diePitch = s.diePitch := rfl
@[simp] theorem sramDrop_upd_resps (s : State) (lo n : Nat) : (applyUpd (.sramDrop lo n) s).resps = s.resps := rfl
@[simp] theorem sramDrop_upd_txns (s : State) (lo n : Nat) : (applyUpd (.sramDrop lo n) s).txns = s.txns := rfl
@[simp] theorem sramDrop_upd_nextTag (s : State) (lo n : Nat) : (applyUpd (.sramDrop lo n) s).nextTag = s.nextTag := rfl
@[simp] theorem sramDrop_upd_lateTags (s : State) (lo n : Nat) : (applyUpd (.sramDrop lo n) s).lateTags = s.lateTags := rfl
@[simp] theorem sramDrop_upd_ports (s : State) (lo n : Nat) : (applyUpd (.sramDrop lo n) s).ports = s.ports := rfl
@[simp] theorem sramDrop_upd_threads (s : State) (lo n : Nat) : (applyUpd (.sramDrop lo n) s).threads = s.threads := rfl
@[simp] theorem sramDrop_upd_cores (s : State) (lo n : Nat) : (applyUpd (.sramDrop lo n) s).cores = s.cores := rfl
@[simp] theorem sramDrop_upd_engines (s : State) (lo n : Nat) : (applyUpd (.sramDrop lo n) s).engines = s.engines := rfl
@[simp] theorem sramDrop_upd_held (s : State) (lo n : Nat) : (applyUpd (.sramDrop lo n) s).held = s.held := rfl
@[simp] theorem sramDrop_upd_watches (s : State) (lo n : Nat) : (applyUpd (.sramDrop lo n) s).watches = s.watches := rfl
@[simp] theorem sramDrop_upd_watchMsgs (s : State) (lo n : Nat) : (applyUpd (.sramDrop lo n) s).watchMsgs = s.watchMsgs := rfl
@[simp] theorem sramDrop_upd_bankHeld (s : State) (lo n : Nat) : (applyUpd (.sramDrop lo n) s).bankHeld = s.bankHeld := rfl
@[simp] theorem sramDrop_upd_bankTarget (s : State) (lo n : Nat) : (applyUpd (.sramDrop lo n) s).bankTarget = s.bankTarget := rfl
@[simp] theorem sramDrop_upd_ecc (s : State) (lo n : Nat) : (applyUpd (.sramDrop lo n) s).ecc = s.ecc := rfl
@[simp] theorem sramDrop_upd_lineEcc (s : State) (lo n : Nat) : (applyUpd (.sramDrop lo n) s).lineEcc = s.lineEcc := rfl
@[simp] theorem sramDrop_upd_wbPending (s : State) (lo n : Nat) : (applyUpd (.sramDrop lo n) s).wbPending = s.wbPending := rfl
@[simp] theorem sramDrop_upd_scrubPos (s : State) (lo n : Nat) : (applyUpd (.sramDrop lo n) s).scrubPos = s.scrubPos := rfl
@[simp] theorem sramDrop_upd_refusals (s : State) (lo n : Nat) : (applyUpd (.sramDrop lo n) s).refusals = s.refusals := rfl
@[simp] theorem sramDrop_upd_firstRefusal (s : State) (lo n : Nat) : (applyUpd (.sramDrop lo n) s).firstRefusal = s.firstRefusal := rfl
@[simp] theorem sramDrop_upd_boxQueue (s : State) (lo n : Nat) : (applyUpd (.sramDrop lo n) s).boxQueue = s.boxQueue := rfl
@[simp] theorem sramDrop_upd_boxRun (s : State) (lo n : Nat) : (applyUpd (.sramDrop lo n) s).boxRun = s.boxRun := rfl
@[simp] theorem sramDrop_upd_kvs (s : State) (lo n : Nat) : (applyUpd (.sramDrop lo n) s).kvs = s.kvs := rfl
@[simp] theorem sramDrop_upd_parts (s : State) (lo n : Nat) : (applyUpd (.sramDrop lo n) s).parts = s.parts := rfl
@[simp] theorem sramDrop_upd_dmas (s : State) (lo n : Nat) : (applyUpd (.sramDrop lo n) s).dmas = s.dmas := rfl
@[simp] theorem sramDrop_upd_regReqs (s : State) (lo n : Nat) : (applyUpd (.sramDrop lo n) s).regReqs = s.regReqs := rfl
@[simp] theorem sramDrop_upd_regPorts (s : State) (lo n : Nat) : (applyUpd (.sramDrop lo n) s).regPorts = s.regPorts := rfl
@[simp] theorem sramDrop_upd_subchs (s : State) (lo n : Nat) : (applyUpd (.sramDrop lo n) s).subchs = s.subchs := rfl
@[simp] theorem sramDrop_upd_trackers (s : State) (lo n : Nat) : (applyUpd (.sramDrop lo n) s).trackers = s.trackers := rfl
@[simp] theorem sramDrop_upd_throttles (s : State) (lo n : Nat) : (applyUpd (.sramDrop lo n) s).throttles = s.throttles := rfl
@[simp] theorem sramDrop_upd_errRing (s : State) (lo n : Nat) : (applyUpd (.sramDrop lo n) s).errRing = s.errRing := rfl
@[simp] theorem sramDrop_upd_errRingOvf (s : State) (lo n : Nat) : (applyUpd (.sramDrop lo n) s).errRingOvf = s.errRingOvf := rfl
@[simp] theorem sramDrop_upd_patrolLine (s : State) (lo n : Nat) : (applyUpd (.sramDrop lo n) s).patrolLine = s.patrolLine := rfl
@[simp] theorem sramDrop_upd_retTimes (s : State) (lo n : Nat) : (applyUpd (.sramDrop lo n) s).retTimes = s.retTimes := rfl
@[simp] theorem sramDrop_upd_retired (s : State) (lo n : Nat) : (applyUpd (.sramDrop lo n) s).retired = s.retired := rfl
@[simp] theorem sramDrop_upd_dramSeq (s : State) (lo n : Nat) : (applyUpd (.sramDrop lo n) s).dramSeq = s.dramSeq := rfl
@[simp] theorem sramDrop_upd_trn (s : State) (lo n : Nat) : (applyUpd (.sramDrop lo n) s).trn = s.trn := rfl
@[simp] theorem sramDrop_upd_dqsAdj (s : State) (lo n : Nat) : (applyUpd (.sramDrop lo n) s).dqsAdj = s.dqsAdj := rfl
@[simp] theorem sramDrop_upd_dpol (s : State) (lo n : Nat) : (applyUpd (.sramDrop lo n) s).dpol = s.dpol := rfl
@[simp] theorem sramDrop_upd_idleAt (s : State) (lo n : Nat) : (applyUpd (.sramDrop lo n) s).idleAt = s.idleAt := rfl
@[simp] theorem sramDrop_upd_fitted (s : State) (lo n : Nat) : (applyUpd (.sramDrop lo n) s).fitted = s.fitted := rfl
@[simp] theorem sramDrop_upd_faultMsgs (s : State) (lo n : Nat) : (applyUpd (.sramDrop lo n) s).faultMsgs = s.faultMsgs := rfl
@[simp] theorem sramDrop_upd_out (s : State) (lo n : Nat) : (applyUpd (.sramDrop lo n) s).out = s.out := rfl
@[simp] theorem sramDrop_upd_lastRead (s : State) (lo n : Nat) : (applyUpd (.sramDrop lo n) s).lastRead = s.lastRead := rfl
@[simp] theorem sramDrop_upd_fwd (s : State) (lo n : Nat) : (applyUpd (.sramDrop lo n) s).fwd = s.fwd := rfl
@[simp] theorem sramDrop_upd_ethTx (s : State) (lo n : Nat) : (applyUpd (.sramDrop lo n) s).ethTx = s.ethTx := rfl
@[simp] theorem sramDrop_upd_ethHeadAt (s : State) (lo n : Nat) : (applyUpd (.sramDrop lo n) s).ethHeadAt = s.ethHeadAt := rfl
@[simp] theorem sramDrop_upd_canTx (s : State) (lo n : Nat) : (applyUpd (.sramDrop lo n) s).canTx = s.canTx := rfl
@[simp] theorem sramDrop_upd_pcieOut (s : State) (lo n : Nat) : (applyUpd (.sramDrop lo n) s).pcieOut = s.pcieOut := rfl
@[simp] theorem sramDrop_upd_pcieCfgRd (s : State) (lo n : Nat) : (applyUpd (.sramDrop lo n) s).pcieCfgRd = s.pcieCfgRd := rfl
@[simp] theorem sramDrop_upd_msix (s : State) (lo n : Nat) : (applyUpd (.sramDrop lo n) s).msix = s.msix := rfl
@[simp] theorem sramDrop_upd_ancs (s : State) (lo n : Nat) : (applyUpd (.sramDrop lo n) s).ancs = s.ancs := rfl
@[simp] theorem sramDrop_upd_trajArea (s : State) (lo n : Nat) : (applyUpd (.sramDrop lo n) s).trajArea = s.trajArea := rfl
@[simp] theorem sramDrop_upd_lidarIn (s : State) (lo n : Nat) : (applyUpd (.sramDrop lo n) s).lidarIn = s.lidarIn := rfl
@[simp] theorem sramDrop_upd_wheelIn (s : State) (lo n : Nat) : (applyUpd (.sramDrop lo n) s).wheelIn = s.wheelIn := rfl
@[simp] theorem sramDrop_upd_spiStepBusy (s : State) (lo n : Nat) : (applyUpd (.sramDrop lo n) s).spiStepBusy = s.spiStepBusy := rfl
@[simp] theorem sramDrop_upd_spiRec (s : State) (lo n : Nat) : (applyUpd (.sramDrop lo n) s).spiRec = s.spiRec := rfl
@[simp] theorem sramDrop_upd_spiStepCfg (s : State) (lo n : Nat) : (applyUpd (.sramDrop lo n) s).spiStepCfg = s.spiStepCfg := rfl
@[simp] theorem sramDrop_upd_ctxs (s : State) (lo n : Nat) : (applyUpd (.sramDrop lo n) s).ctxs = s.ctxs := rfl
@[simp] theorem sramDrop_upd_fsyOmit (s : State) (lo n : Nat) : (applyUpd (.sramDrop lo n) s).fsyOmit = s.fsyOmit := rfl
@[simp] theorem sramDrop_upd_fsyPulsed (s : State) (lo n : Nat) : (applyUpd (.sramDrop lo n) s).fsyPulsed = s.fsyPulsed := rfl
@[simp] theorem sramDrop_upd_supTasks (s : State) (lo n : Nat) : (applyUpd (.sramDrop lo n) s).supTasks = s.supTasks := rfl
@[simp] theorem sramDrop_upd_fus (s : State) (lo n : Nat) : (applyUpd (.sramDrop lo n) s).fus = s.fus := rfl
@[simp] theorem sramDrop_upd_fcons (s : State) (lo n : Nat) : (applyUpd (.sramDrop lo n) s).fcons = s.fcons := rfl
@[simp] theorem sramDrop_upd_shadow (s : State) (lo n : Nat) : (applyUpd (.sramDrop lo n) s).shadow = s.shadow := rfl
@[simp] theorem sramDrop_upd_trv (s : State) (lo n : Nat) : (applyUpd (.sramDrop lo n) s).trv = s.trv := rfl
@[simp] theorem sramDrop_upd_tlayers (s : State) (lo n : Nat) : (applyUpd (.sramDrop lo n) s).tlayers = s.tlayers := rfl
@[simp] theorem sramDrop_upd_jobFaults (s : State) (lo n : Nat) : (applyUpd (.sramDrop lo n) s).jobFaults = s.jobFaults := rfl
@[simp] theorem sramDrop_upd_unitLast (s : State) (lo n : Nat) : (applyUpd (.sramDrop lo n) s).unitLast = s.unitLast := rfl
@[simp] theorem sramDrop_upd_unitRst (s : State) (lo n : Nat) : (applyUpd (.sramDrop lo n) s).unitRst = s.unitRst := rfl
@[simp] theorem sramDrop_upd_xlink (s : State) (lo n : Nat) : (applyUpd (.sramDrop lo n) s).xlink = s.xlink := rfl
@[simp] theorem sramDrop_upd_trace (s : State) (lo n : Nat) : (applyUpd (.sramDrop lo n) s).trace = s.trace := rfl
@[simp] theorem sramDrop_upd_progs (s : State) (lo n : Nat) : (applyUpd (.sramDrop lo n) s).progs = s.progs := rfl
@[simp] theorem sramDrop_upd_rails (s : State) (lo n : Nat) : (applyUpd (.sramDrop lo n) s).rails = s.rails := rfl
@[simp] theorem sramDrop_upd_thm (s : State) (lo n : Nat) : (applyUpd (.sramDrop lo n) s).thm = s.thm := rfl
@[simp] theorem sramDrop_upd_bnd (s : State) (lo n : Nat) : (applyUpd (.sramDrop lo n) s).bnd = s.bnd := rfl
@[simp] theorem sramDrop_upd_thmTrip (s : State) (lo n : Nat) : (applyUpd (.sramDrop lo n) s).thmTrip = s.thmTrip := rfl
@[simp] theorem sramDrop_upd_flash (s : State) (lo n : Nat) : (applyUpd (.sramDrop lo n) s).flash = s.flash := rfl
@[simp] theorem sramDrop_upd_slots (s : State) (lo n : Nat) : (applyUpd (.sramDrop lo n) s).slots = s.slots := rfl
@[simp] theorem sramDrop_upd_stores (s : State) (lo n : Nat) : (applyUpd (.sramDrop lo n) s).stores = s.stores := rfl
@[simp] theorem sramDrop_upd_ids (s : State) (lo n : Nat) : (applyUpd (.sramDrop lo n) s).ids = s.ids := rfl
@[simp] theorem sramDrop_upd_boot (s : State) (lo n : Nat) : (applyUpd (.sramDrop lo n) s).boot = s.boot := rfl
@[simp] theorem sramDrop_upd_load (s : State) (lo n : Nat) : (applyUpd (.sramDrop lo n) s).load = s.load := rfl
@[simp] theorem sramDrop_upd_flt (s : State) (lo n : Nat) : (applyUpd (.sramDrop lo n) s).flt = s.flt := rfl
@[simp] theorem sramDrop_upd_mon (s : State) (lo n : Nat) : (applyUpd (.sramDrop lo n) s).mon = s.mon := rfl

end Sys2Proof.Laws
end

