-- ==== Sys2Proof/Laws/Tables.lean ====
section
/-! SUPPORT. Sparse tables in canonical form: read after write, and that writing keeps the form. -/
namespace Sys2Proof.Laws
open Sys2Proof.Machine

variable {α : Type} [DecidableEq α] {d : Nat → α}

/-- The keys of a table are all above `k`. -/
def Above (k : Nat) (t : List (Nat × α)) : Prop := ∀ e ∈ t, k < e.1

theorem tabWf_cons {k : Nat} {v : α} {t : List (Nat × α)} :
    tabWf d ((k, v) :: t) = true ↔ v ≠ d k ∧ Above k t ∧ tabWf d t = true := by
  induction t generalizing k v with
  | nil => simp [tabWf, Above]
  | cons e t ih =>
    obtain ⟨k', v'⟩ := e
    have h := @ih k' v'
    simp only [tabWf, Bool.and_eq_true, decide_eq_true_eq, Above, List.mem_cons, forall_eq_or_imp] at *
    constructor
    · rintro ⟨⟨h1, h2⟩, h3⟩
      exact ⟨h1, ⟨h2, fun e he => Nat.lt_trans h2 ((h.1 h3).2.1 e he)⟩, h3⟩
    · rintro ⟨h1, ⟨h2, _⟩, h3⟩
      exact ⟨⟨h1, h2⟩, h3⟩

omit [DecidableEq α] in
/-- A key below all of a table's is not in it. -/
theorem tabGet_above {k : Nat} {t : List (Nat × α)} (h : Above k t) : tabGet d t k = d k := by
  induction t with
  | nil => rfl
  | cons e t ih =>
    obtain ⟨k', v'⟩ := e
    have h1 : k < k' := h (k', v') (by simp)
    simp only [tabGet, if_neg (Nat.ne_of_lt h1)]
    exact ih (fun e he => h e (by simp [he]))

/-- Writing keeps keys above a bound. -/
theorem above_tabSet {b k : Nat} {v : α} {t : List (Nat × α)} (h : Above b t) (hk : b < k) : Above b (tabSet d t k v) := by
  induction t with
  | nil =>
    simp only [tabSet]
    split <;> simp [Above, hk]
  | cons e t ih =>
    obtain ⟨k', v'⟩ := e
    have h1 : b < k' := h (k', v') (by simp)
    have h2 : Above b t := fun e he => h e (by simp [he])
    have h3 := ih h2
    simp only [tabSet]
    split
    · split
      · exact h
      · simp [Above, hk, h1]; exact fun a b' hab => h2 (a, b') hab
    · split
      · split
        · exact h2
        · simp [Above, hk]; exact fun a b' hab => h2 (a, b') hab
      · simp [Above, h1]; exact fun a b' hab => h3 (a, b') hab

/-- Writing keeps the canonical form. -/
theorem tabWf_tabSet {k : Nat} {v : α} {t : List (Nat × α)} (h : tabWf d t = true) : tabWf d (tabSet d t k v) = true := by
  induction t with
  | nil =>
    simp only [tabSet]
    split <;> simp_all [tabWf]
  | cons e t ih =>
    obtain ⟨k', v'⟩ := e
    obtain ⟨h1, h2, h3⟩ := tabWf_cons.1 h
    simp only [tabSet]
    split
    · rename_i hlt
      split
      · exact h
      · rename_i hv
        refine tabWf_cons.2 ⟨hv, ?_, h⟩
        intro e he
        rcases List.mem_cons.1 he with rfl | he
        · exact hlt
        · exact Nat.lt_trans hlt (h2 e he)
    · split
      · rename_i hkk
        subst hkk
        split
        · exact h3
        · rename_i hv
          exact tabWf_cons.2 ⟨hv, h2, h3⟩
      · rename_i h4 h5
        exact tabWf_cons.2 ⟨h1, above_tabSet h2 (by omega), ih h3⟩

/-- Read after write. -/
theorem tabGet_tabSet {k j : Nat} {v : α} {t : List (Nat × α)} (h : tabWf d t = true) :
    tabGet d (tabSet d t k v) j = if j = k then v else tabGet d t j := by
  induction t with
  | nil =>
    simp only [tabSet]
    split
    · rename_i hv
      simp only [tabGet]
      split
      · rename_i hj; rw [hj, hv]
      · rfl
    · simp [tabGet]
  | cons e t ih =>
    obtain ⟨k', v'⟩ := e
    obtain ⟨h1, h2, h3⟩ := tabWf_cons.1 h
    simp only [tabSet]
    split
    · rename_i hlt
      split
      · rename_i hv
        split
        · rename_i hj
          subst hj
          rw [tabGet_above (k := j) (by
            intro e he
            rcases List.mem_cons.1 he with rfl | he
            · exact hlt
            · exact Nat.lt_trans hlt (h2 e he)), hv]
        · rfl
      · simp [tabGet]
    · split
      · rename_i hkk
        subst hkk
        split
        · rename_i hv
          simp only [tabGet]
          split
          · rename_i hj
            subst hj
            rw [tabGet_above h2, hv]
          · rfl
        · simp only [tabGet]
          split <;> rfl
      · simp only [tabGet, ih h3]
        split
        · rename_i h6 h7 hj
          rw [if_neg (by omega)]
        · rfl

omit [DecidableEq α] in
theorem above_filter {k : Nat} {t : List (Nat × α)} {p : Nat × α → Bool} (h : Above k t) : Above k (t.filter p) :=
  fun e he => h e (List.mem_of_mem_filter he)

/-- Dropping a range keeps the canonical form. -/
theorem tabWf_tabDrop {lo n : Nat} {t : List (Nat × α)} (h : tabWf d t = true) : tabWf d (tabDrop t lo n) = true := by
  unfold tabDrop
  induction t with
  | nil => rfl
  | cons e t ih =>
    obtain ⟨k', v'⟩ := e
    obtain ⟨h1, h2, h3⟩ := tabWf_cons.1 h
    simp only [List.filter_cons]
    split
    · exact tabWf_cons.2 ⟨h1, above_filter h2, ih h3⟩
    · exact ih h3

omit [DecidableEq α] in
/-- A range that was dropped reads as the default, and every other key as before. -/
theorem tabGet_tabDrop {lo n j : Nat} {t : List (Nat × α)} :
    tabGet d (tabDrop t lo n) j = if lo ≤ j ∧ j < lo + n then d j else tabGet d t j := by
  unfold tabDrop
  induction t with
  | nil => simp [tabGet]
  | cons e t ih =>
    obtain ⟨k', v'⟩ := e
    simp only [List.filter_cons]
    by_cases hk : lo ≤ k' ∧ k' < lo + n
    · rw [if_neg (by simp [hk]), ih]
      by_cases hj : j = k'
      · subst hj; simp [hk]
      · simp [tabGet, hj]
    · have hb : (!(decide (lo ≤ k') && decide (k' < lo + n))) = true := by
        by_cases h1 : lo ≤ k' <;> by_cases h2 : k' < lo + n <;> simp_all
      rw [if_pos hb]
      simp only [tabGet]
      by_cases hj : j = k'
      · subst hj; rw [if_pos rfl, if_pos rfl, if_neg hk]
      · rw [if_neg hj, if_neg hj, ih]

end Sys2Proof.Laws
end

