-- ==== Sys2Proof/Laws/Actions.lean ====
section
/-! SUPPORT. Actions: how a list of updates runs, what the combinators do, and that every update keeps the canonical forms
and the queue. -/
namespace Sys2Proof.Laws
open Sys2Proof.Machine

/-! ### Running a list of updates -/

@[simp] theorem applyAll_nil (s : State) : applyAll [] s = s := rfl
@[simp] theorem applyAll_cons (u : Upd) (us : List Upd) (s : State) : applyAll (u :: us) s = applyAll us (applyUpd u s) := rfl

theorem applyAll_append (us vs : List Upd) (s : State) : applyAll (us ++ vs) s = applyAll vs (applyAll us s) := by
  induction us generalizing s with
  | nil => rfl
  | cons u us ih => exact ih _

/-! ### Combinators -/

/- These equations are proved by unfolding and not by `rfl` alone: `simp` would otherwise leave the kernel to compare whole runs. -/
@[simp] theorem runAct_nop (s : State) : runAct nop s = s := by unfold runAct nop applyAll; rfl
@[simp] theorem runAct_upd (u : Upd) (s : State) : runAct (upd u) s = applyUpd u s := by unfold runAct upd applyAll; rfl
@[simp] theorem runAct_andThen (a b : Act) (s : State) : runAct (andThen a b) s = runAct b (runAct a s) :=
  applyAll_append _ _ _
@[simp] theorem runAct_seq_nil (s : State) : runAct (seq []) s = s := by unfold seq; exact runAct_nop s
@[simp] theorem runAct_seq_cons (a : Act) (as : List Act) (s : State) :
    runAct (seq (a :: as)) s = runAct (seq as) (runAct a s) := runAct_andThen _ _ _
@[simp] theorem runAct_whenA (c : Bool) (a : Act) (s : State) : runAct (whenA c a) s = if c then runAct a s else s := by
  unfold whenA; split <;> rfl
@[simp] theorem runAct_withS (f : State → Act) (s : State) : runAct (withS f) s = runAct (f s) s := by
  unfold runAct withS; rfl
@[simp] theorem runAct_forEach_nil {α : Type} (f : α → Act) (s : State) : runAct (forEach [] f) s = s := by
  unfold forEach; exact runAct_nop s
@[simp] theorem runAct_forEach_cons {α : Type} (x : α) (xs : List α) (f : α → Act) (s : State) :
    runAct (forEach (x :: xs) f) s = runAct (forEach xs f) (runAct (f x) s) := runAct_andThen _ _ _

/-- An action that chooses by the present state runs as what it chooses. -/
theorem runAct_at (f : State → Act) (s : State) : runAct (fun s => f s s) s = runAct (f s) s := rfl
/-- A branch on a condition. -/
theorem runAct_ite (c : Prop) [Decidable c] (a b : Act) (s : State) :
    runAct (if c then a else b) s = if c then runAct a s else runAct b s := by split <;> rfl
/-- A command whose effect is an action answers the state after it. -/
theorem done_eq (a : Act) (s : State) : done a s = .next (runAct a s) := rfl

/-! ### Canonical forms -/

/-- Every update keeps memories, registers and tables in canonical form. -/
theorem ok_applyUpd {u : Upd} {s : State} (h : s.ok = true) : (applyUpd u s).ok = true := by
  simp only [State.ok, State.memOk, State.regsOk, State.tabsOk, Memory.wf, Bool.and_eq_true] at h ⊢
  cases u <;> simp [applyUpd, h, tabWf_tabSet, tabWf_tabDrop]

theorem ok_applyAll {us : List Upd} {s : State} (h : s.ok = true) : (applyAll us s).ok = true := by
  induction us generalizing s with
  | nil => exact h
  | cons u us ih => exact ih (ok_applyUpd h)

/-- Every action keeps them. -/
@[simp] theorem ok_runAct {a : Act} {s : State} (h : s.ok = true) : (runAct a s).ok = true := ok_applyAll h

theorem ok_mem {s : State} (h : s.ok = true) : Memory.wf s.mem = true := by
  simp_all [State.ok, State.memOk]
theorem ok_regs {s : State} (h : s.ok = true) : tabWf regReset s.regs = true := by
  simp_all [State.ok, State.regsOk]

/-! ### The queue of commands -/

/-- No update touches the queue. -/
@[simp] theorem pending_applyUpd (u : Upd) (s : State) : (applyUpd u s).pending = s.pending := by cases u <;> rfl
theorem pending_applyAll (us : List Upd) (s : State) : (applyAll us s).pending = s.pending := by
  induction us generalizing s with
  | nil => rfl
  | cons u us ih => exact (ih _).trans (pending_applyUpd u s)
/-- No action touches the queue. -/
@[simp] theorem pending_runAct (a : Act) (s : State) : (runAct a s).pending = s.pending := pending_applyAll _ _

end Sys2Proof.Laws
end

