-- ==== Sys2Proof/Laws/Dma.lean ====
section
/-! SUPPORT. The run of a DMA descriptor reaches its state by updates alone. -/
namespace Sys2Proof.Laws
open Sys2Proof.Machine

/-- A state that updates lead to. -/
def Reach (s t : State) : Prop := ∃ us, t = applyAll us s

theorem Reach.refl (s : State) : Reach s s := ⟨[], rfl⟩
theorem Reach.trans {s t u : State} (h : Reach s t) (k : Reach t u) : Reach s u := by
  obtain ⟨us, rfl⟩ := h
  obtain ⟨vs, rfl⟩ := k
  exact ⟨us ++ vs, (applyAll_append us vs s).symm⟩
theorem Reach.act (a : Act) {s t : State} (h : Reach s t) : Reach s (runAct a t) := h.trans ⟨a t, rfl⟩

/-- A fold keeps what each of its steps keeps. -/
theorem foldl_keeps {α β : Type} {P : β → Prop} {f : β → α → β} (hf : ∀ b a, P b → P (f b a)) (xs : List α) {b : β}
    (hb : P b) : P (xs.foldl f b) := by
  induction xs generalizing b with
  | nil => exact hb
  | cons x xs ih => exact ih (hf b x hb)

@[simp] theorem dFail_s (p : DProg) (st a : Nat) : (dFail p st a).s = p.s := by unfold dFail; split <;> rfl

theorem dRead_reach {s : State} {p : DProg} (m : Master) (win : Option Nat) (a len : Nat) (h : Reach s p.s) :
    Reach s (dRead m win p a len).1.s := by
  unfold dRead
  dsimp only
  repeat' split
  all_goals (rw [dFail_s]; exact h.act _)

theorem dWrite_reach {s : State} {p : DProg} (m : Master) (win : Option Nat) (a : Nat) (bs : List Byte) (h : Reach s p.s) :
    Reach s (dWrite m win p a bs).s := by
  unfold dWrite
  dsimp only
  repeat' split
  all_goals (rw [dFail_s]; exact h.act _)

theorem moveRun_reach {s : State} {p : DProg} (m : Master) (ws : List Nat) (s0 : State) (r : DRun) (h : Reach s p.s) :
    Reach s (moveRun m ws s0 p r).s := by
  unfold moveRun
  dsimp only
  split
  · exact h
  · split
    · rw [dFail_s]; exact h.act _
    · refine foldl_keeps (P := fun x : DProg × Bool => Reach s x.1.s) ?_ _ ?_
      · intro x c hx
        split
        · exact hx
        · split
          · split <;> exact dWrite_reach _ _ _ _ hx
          · exact dWrite_reach _ _ _ _ hx
      · refine foldl_keeps (P := fun x : DProg × List Byte => Reach s x.1.s) ?_ _ h
        intro x c hx
        split
        · exact hx
        · split
          · exact dRead_reach _ _ _ _ hx
          · split <;> exact dRead_reach _ _ _ _ hx

theorem fillRun_reach {s : State} {p : DProg} (m : Master) (ws : List Nat) (r : DRun) (h : Reach s p.s) :
    Reach s (fillRun m ws p r).s := by
  unfold fillRun
  refine foldl_keeps (P := fun x : DProg => Reach s x.s) ?_ _ h
  intro x c hx
  split
  · exact hx
  · exact dWrite_reach _ _ _ _ hx

theorem compareRun_reach {s : State} {p : DProg} (m : Master) (ws : List Nat) (pat : Bool) (r : DRun) (h : Reach s p.s) :
    Reach s (compareRun m ws pat p r).s := by
  unfold compareRun
  refine foldl_keeps (P := fun x : DProg => Reach s x.s) ?_ _ h
  intro x c hx
  dsimp only
  have key : Reach s (if pat = true then (x, (List.range c.len).map (fun i => patByte ws (c.dst + i)))
      else dRead m (dSwin ws) x c.src c.len).1.s := by
    split
    · exact hx
    · exact dRead_reach _ _ _ _ hx
  revert key
  generalize (if pat = true then (x, (List.range c.len).map (fun i => patByte ws (c.dst + i)))
      else dRead m (dSwin ws) x c.src c.len) = y
  intro key
  split
  · exact hx
  · split
    · exact key
    · split
      · exact dRead_reach _ _ _ _ key
      · split <;> exact dRead_reach _ _ _ _ key

/-- A run of a descriptor answers a next state that updates lead to. -/
theorem dmaRun_next {op n ch : Nat} {env : DmaEnv} {f : List Nat → State → DProg → DRun → DProg} {s : State}
    (hf : ∀ ws p r, Reach s p.s → Reach s (f ws s p r).s) : ∃ us, dmaRun op n ch env f s = .next (applyAll us s) := by
  have base : ∃ us, (.next s : Host.Outcome State Fault Refusal) = .next (applyAll us s) := ⟨[], rfl⟩
  unfold dmaRun
  split
  · exact base
  · rename_i t _
    dsimp only
    split
    · exact base
    · have key := foldl_keeps (P := fun x : DProg => Reach s x.s) (f := f t.words s) (fun p r hp => hf _ p r hp)
        (dmaRuns (op == 1 || op == 3) t.words) (b := { s := s, ext := env.ext }) (Reach.refl s)
      obtain ⟨us, h⟩ := key.act _
      exact ⟨us, congrArg _ h⟩

end Sys2Proof.Laws
end

