-- ==== Sys2Proof/Laws/Registers.lean ====
section
/-! SUPPORT. Registers and their fields: what a write leaves in the field it names, in the register's other fields and in
every other register. -/
namespace Sys2Proof.Laws
open Sys2Proof.Machine

/-! ### Bit fields -/

theorem pow_split {lo hi : Nat} (h : lo ≤ hi) : 2 ^ (hi + 1) = 2 ^ lo * 2 ^ (hi + 1 - lo) := by
  rw [← Nat.pow_add]; congr 1; omega

/-- A field is what the bits below its top leave, shifted down. -/
theorem bits_eq {w hi lo : Nat} (h : lo ≤ hi + 1) : bits w hi lo = w % 2 ^ (hi + 1) / 2 ^ lo := by
  have : 2 ^ (hi + 1) = 2 ^ lo * 2 ^ (hi + 1 - lo) := by rw [← Nat.pow_add]; congr 1; omega
  rw [bits, this, Nat.mod_mul_right_div_self]

theorem putBits_lt {w hi lo v n : Nat} (h : lo ≤ hi) (hn : hi < n) (hw : w < 2 ^ n) : putBits w hi lo v < 2 ^ n := by
  have h1 := pow_split h
  have h2 : 2 ^ n = 2 ^ (hi + 1) * 2 ^ (n - (hi + 1)) := by rw [← Nat.pow_add]; congr 1; omega
  have hA : 0 < 2 ^ lo := Nat.two_pow_pos _
  have hB : 0 < 2 ^ (hi + 1 - lo) := Nat.two_pow_pos _
  have hC : 0 < 2 ^ (hi + 1) := Nat.two_pow_pos _
  have h3 : v % 2 ^ (hi + 1 - lo) * 2 ^ lo + w % 2 ^ lo < 2 ^ (hi + 1) := by
    rw [h1]
    have h4 := Nat.mod_lt v hB
    have h5 := Nat.mod_lt w hA
    calc v % 2 ^ (hi + 1 - lo) * 2 ^ lo + w % 2 ^ lo < v % 2 ^ (hi + 1 - lo) * 2 ^ lo + 2 ^ lo := by omega
      _ = (v % 2 ^ (hi + 1 - lo) + 1) * 2 ^ lo := by rw [Nat.add_mul, Nat.one_mul]
      _ ≤ 2 ^ (hi + 1 - lo) * 2 ^ lo := Nat.mul_le_mul_right _ h4
      _ = 2 ^ lo * 2 ^ (hi + 1 - lo) := Nat.mul_comm _ _
  have h6 : w / 2 ^ (hi + 1) < 2 ^ (n - (hi + 1)) := by
    rw [Nat.div_lt_iff_lt_mul hC, Nat.mul_comm, ← h2]; exact hw
  unfold putBits
  calc w / 2 ^ (hi + 1) * 2 ^ (hi + 1) + v % 2 ^ (hi + 1 - lo) * 2 ^ lo + w % 2 ^ lo
      < w / 2 ^ (hi + 1) * 2 ^ (hi + 1) + 2 ^ (hi + 1) := by omega
    _ = (w / 2 ^ (hi + 1) + 1) * 2 ^ (hi + 1) := by rw [Nat.add_mul, Nat.one_mul]
    _ ≤ 2 ^ (n - (hi + 1)) * 2 ^ (hi + 1) := Nat.mul_le_mul_right _ h6
    _ = 2 ^ n := by rw [h2, Nat.mul_comm]

/-- The field that was set holds the value's low bits. -/
theorem bits_putBits {w hi lo v : Nat} (h : lo ≤ hi) : bits (putBits w hi lo v) hi lo = v % 2 ^ (hi + 1 - lo) := by
  have h1 := pow_split h
  have hA : 0 < 2 ^ lo := Nat.two_pow_pos _
  unfold bits putBits
  have : w / 2 ^ (hi + 1) * 2 ^ (hi + 1) + v % 2 ^ (hi + 1 - lo) * 2 ^ lo + w % 2 ^ lo
      = w % 2 ^ lo + 2 ^ lo * (w / 2 ^ (hi + 1) * 2 ^ (hi + 1 - lo) + v % 2 ^ (hi + 1 - lo)) := by
    rw [Nat.mul_add, Nat.mul_comm (2 ^ lo) (v % _)]
    have : 2 ^ lo * (w / 2 ^ (hi + 1) * 2 ^ (hi + 1 - lo)) = w / 2 ^ (hi + 1) * 2 ^ (hi + 1) := by
      rw [Nat.mul_left_comm, ← h1]
    omega
  rw [this, Nat.add_mul_div_left _ _ hA, Nat.div_eq_of_lt (Nat.mod_lt _ hA), Nat.zero_add, Nat.mul_add_mod_self_right,
    Nat.mod_mod]

/-- A field that lies above or below the one set is as before. -/
theorem bits_putBits_ne {w hi lo v h l : Nat} (h1 : lo ≤ hi) (h2 : l ≤ h) (h3 : h < lo ∨ hi < l) :
    bits (putBits w hi lo v) h l = bits w h l := by
  have hp := pow_split h1
  have hA : 0 < 2 ^ lo := Nat.two_pow_pos _
  have hB : 0 < 2 ^ (hi + 1 - lo) := Nat.two_pow_pos _
  have hC : 0 < 2 ^ (hi + 1) := Nat.two_pow_pos _
  rcases h3 with h3 | h3
  · rw [bits_eq (by omega), bits_eq (by omega)]
    congr 1
    have hd : 2 ^ (h + 1) ∣ 2 ^ lo := Nat.pow_dvd_pow 2 h3
    have : putBits w hi lo v = w % 2 ^ lo + 2 ^ lo * (w / 2 ^ (hi + 1) * 2 ^ (hi + 1 - lo) + v % 2 ^ (hi + 1 - lo)) := by
      unfold putBits
      rw [Nat.mul_add, Nat.mul_comm (2 ^ lo) (v % _)]
      have : 2 ^ lo * (w / 2 ^ (hi + 1) * 2 ^ (hi + 1 - lo)) = w / 2 ^ (hi + 1) * 2 ^ (hi + 1) := by
        rw [Nat.mul_left_comm, ← hp]
      omega
    rw [this]
    obtain ⟨c, hc⟩ := hd
    rw [hc, Nat.mul_assoc, Nat.add_mul_mod_self_left, Nat.mod_mul_right_mod]
  · unfold bits
    congr 1
    have hl : 2 ^ l = 2 ^ (hi + 1) * 2 ^ (l - (hi + 1)) := by rw [← Nat.pow_add]; congr 1; omega
    rw [hl, ← Nat.div_div_eq_div_mul, ← Nat.div_div_eq_div_mul]
    congr 1
    unfold putBits
    have h4 : v % 2 ^ (hi + 1 - lo) * 2 ^ lo + w % 2 ^ lo < 2 ^ (hi + 1) := by
      rw [hp]
      have h4 := Nat.mod_lt v hB
      have h5 := Nat.mod_lt w hA
      calc v % 2 ^ (hi + 1 - lo) * 2 ^ lo + w % 2 ^ lo < v % 2 ^ (hi + 1 - lo) * 2 ^ lo + 2 ^ lo := by omega
        _ = (v % 2 ^ (hi + 1 - lo) + 1) * 2 ^ lo := by rw [Nat.add_mul, Nat.one_mul]
        _ ≤ 2 ^ (hi + 1 - lo) * 2 ^ lo := Nat.mul_le_mul_right _ h4
        _ = 2 ^ lo * 2 ^ (hi + 1 - lo) := Nat.mul_comm _ _
    rw [Nat.add_assoc, Nat.add_comm, Nat.add_mul_div_right _ _ hC, Nat.div_eq_of_lt h4, Nat.zero_add]

/-! ### Registers -/

/-- A register holds 32 bits. -/
theorem rd_lt (s : State) (a : Nat) : rd s a < 2 ^ 32 := (tabGet regReset s.regs a).isLt

/-- Reading a register depends on the register file alone. -/
theorem rd_congr {s t : State} (h : t.regs = s.regs) (a : Nat) : rd t a = rd s a := by unfold rd; rw [h]

/-- A register after one register has been set. -/
theorem rd_applyRegs {s : State} (h : s.ok = true) (k a : Nat) (v : Word) :
    rd (applyUpd (.regs k v) s) a = if a = k then v.toNat else rd s a := by
  show (tabGet regReset (tabSet regReset s.regs k v) a).toNat = _
  rw [tabGet_tabSet (ok_regs h)]
  split <;> rfl

/-- A register after a whole register has been set. -/
theorem rd_wr {s : State} (h : s.ok = true) (k a v : Nat) :
    rd (runAct (wr k v) s) a = if a = k then v % 2 ^ 32 else rd s a := by
  show rd (applyUpd (.regs k (BitVec.ofNat 32 v)) s) a = _
  rw [rd_applyRegs h]
  simp

/-- A register after a field has been set. -/
theorem rd_setF {s : State} (h : s.ok = true) (f : Fld) (v a : Nat) (hf : f.lo ≤ f.hi ∧ f.hi < 32) :
    rd (runAct (setF f v) s) a = if a = f.addr then putBits (rd s f.addr) f.hi f.lo v else rd s a := by
  show rd (runAct (wr f.addr (putBits (rd s f.addr) f.hi f.lo v)) s) a = _
  rw [rd_wr h]
  split
  · rw [Nat.mod_eq_of_lt (putBits_lt hf.1 hf.2 (rd_lt _ _))]
  · rfl

/-- The field that was set. -/
theorem getF_setF {s : State} (h : s.ok = true) (f : Fld) (v : Nat) (hf : f.lo ≤ f.hi ∧ f.hi < 32) :
    getF (runAct (setF f v) s) f = v % 2 ^ (f.hi + 1 - f.lo) := by
  rw [getF, rd_setF h f v _ hf, if_pos rfl, bits_putBits hf.1]

/-- A field of another register, or of other bits, is as before. -/
theorem getF_setF_ne {s : State} (h : s.ok = true) (f g : Fld) (v : Nat) (hf : f.lo ≤ f.hi ∧ f.hi < 32)
    (hg : g.lo ≤ g.hi) (hne : g.addr ≠ f.addr ∨ g.hi < f.lo ∨ f.hi < g.lo) :
    getF (runAct (setF f v) s) g = getF s g := by
  rw [getF, rd_setF h f v _ hf]
  split
  · rename_i he
    rw [bits_putBits_ne hf.1 hg (hne.resolve_left (fun h => h he)), getF, he]
  · rfl

/-- An update of anything but a register. -/
def notReg : Upd → Bool
  | .regs _ _ => false
  | _ => true

/-- Registers after an update of anything else. -/
theorem rd_notReg {u : Upd} (h : notReg u = true) (s : State) (a : Nat) : rd (applyUpd u s) a = rd s a := by
  cases u <;> first | rfl | exact Bool.noConfusion h

/-- A 64-bit pair after it was set. -/
theorem rd64_wr64 {s : State} (h : s.ok = true) (a v : Nat) : rd64 (runAct (wr64 a v) s) a = v % 2 ^ 64 := by
  unfold wr64 rd64
  simp only [runAct_seq_cons, runAct_seq_nil]
  rw [rd_wr (ok_runAct h), rd_wr (ok_runAct h), rd_wr h, rd_wr h]
  simp
  omega

/-- A register after a 64-bit pair was set. -/
theorem rd_wr64 {s : State} (h : s.ok = true) (k a v : Nat) :
    rd (runAct (wr64 k v) s) a =
      if a = k + 4 then v / 2 ^ 32 % 2 ^ 32 else if a = k then v % 2 ^ 32 else rd s a := by
  unfold wr64
  simp only [runAct_seq_cons, runAct_seq_nil]
  rw [rd_wr (ok_runAct h), rd_wr h]
  simp

/-- Setting a register changes nothing but the register file. -/
theorem wr_only (k v : Nat) (s : State) : runAct (wr k v) s = { s with regs := (runAct (wr k v) s).regs } := rfl
/-- Setting a field changes nothing but the register file. -/
theorem setF_only (f : Fld) (v : Nat) (s : State) : runAct (setF f v) s = { s with regs := (runAct (setF f v) s).regs } := rfl

/-- Device time moves to the later of its value and the instant given. -/
theorem runAct_advance (now : Nat) (s : State) : runAct (advance now) s = s.at_ now := by
  show applyAll (advance now s) s = _
  unfold advance
  split
  · rename_i h
    show { s with time := now } = { s with time := max s.time now }
    congr 1; omega
  · rename_i h
    show s = { s with time := max s.time now }
    cases s; simp only [State.mk.injEq] at *; simp_all

/-- The same device time, the same registers. -/
@[simp] theorem rd_at (s : State) (n a : Nat) : rd (s.at_ n) a = rd s a := by unfold rd State.at_; rfl
@[simp] theorem getF_at (s : State) (n : Nat) (f : Fld) : getF (s.at_ n) f = getF s f := by
  unfold getF; rw [rd_at]
@[simp] theorem flag_at (s : State) (n : Nat) (f : Fld) : flag (s.at_ n) f = flag s f := by
  unfold flag; rw [getF_at]
@[simp] theorem ok_at (s : State) (n : Nat) : (s.at_ n).ok = s.ok := by
  unfold State.at_ State.ok State.memOk State.regsOk State.tabsOk; rfl

/-! ### Guarded writes -/

/-- A refused access changes nothing but the count and the record of the first (R28). -/
theorem recordRefusal_at (m : Master) (a : Nat) (s : State) : refusedAt m a s (runAct (recordRefusal m a) s) := by
  unfold refusedAt runAct recordRefusal
  split
  · rfl
  · rename_i h
    obtain ⟨v, hv⟩ := Option.ne_none_iff_exists'.1 h
    cases s; simp_all [applyUpd]

/-- A guarded register write is performed or refused. -/
theorem runAct_guarded (ok : Bool) (m : Master) (a : Nat) (act : Act) (s : State) :
    runAct (guarded ok m a act) s = if ok then runAct act s else runAct (recordRefusal m a) s := by
  unfold guarded; split <;> rfl

/-- What a command answers that first lets device time run to `now`. -/
theorem done_advance (now : Nat) (as : List Act) (s : State) :
    done (seq (advance now :: as)) s = .next (runAct (seq as) (s.at_ now)) := by
  rw [done_eq, runAct_seq_cons, runAct_advance]

/-- An action that branches on the state. -/
theorem runAct_cond (c : State → Prop) [∀ s, Decidable (c s)] (a b : State → List Upd) (s : State) :
    runAct (fun s => if c s then a s else b s) s = if c s then runAct a s else runAct b s := by
  unfold runAct; dsimp only; split <;> rfl

/-- Actions that make the same updates have the same effect. -/
theorem runAct_eq {a b : Act} {s : State} (h : a s = b s) : runAct a s = runAct b s := by unfold runAct; rw [h]

end Sys2Proof.Laws
end

