-- ==== Sys2Proof/Laws/Within.lean ====
section
/-! SUPPORT. Which fields of the state an action can write: `Within T us` says that every update of `us` writes a field whose
bit is set in `T`; the pitch registers (R57) count as a field of their own. One lemma per combinator here, one per shared operation in the files Writes*. -/
namespace Sys2Proof.Laws
open Sys2Proof.Machine

/-- The number of the field that an update writes, in the order of `Upd`; 97 for the pitch registers, the lowest of the
control spaces. -/
def fieldOf : Upd → Nat
  | .regs k _ => if k < 0x200000200000 then 97 else 0
  | .mem _ _ => 1
  | .sram _ _ => 2
  | .time _ => 3
  | .timeFrac _ => 4
  | .freeCtr _ => 5
  | .hiLatch _ _ => 6
  | .timeSet _ => 7
  | .n0 _ => 8
  | .ticked _ => 9
  | .peerTickAt _ => 10
  | .guardPitch _ => 11
  | .diePitch _ _ => 12
  | .resps _ => 13
  | .txns _ => 14
  | .nextTag _ => 15
  | .lateTags _ => 16
  | .ports _ _ => 17
  | .threads _ _ => 18
  | .cores _ _ => 19
  | .engines _ _ => 20
  | .held _ => 21
  | .watches _ _ => 22
  | .watchMsgs _ => 23
  | .bankHeld _ _ => 24
  | .bankTarget _ _ => 25
  | .ecc _ _ => 26
  | .lineEcc _ _ => 27
  | .wbPending _ => 28
  | .scrubPos _ _ => 29
  | .refusals _ => 30
  | .firstRefusal _ => 31
  | .boxQueue _ => 32
  | .boxRun _ => 33
  | .kvs _ _ => 34
  | .parts _ _ => 35
  | .dmas _ _ => 36
  | .regReqs _ => 37
  | .regPorts _ _ => 38
  | .subchs _ _ => 39
  | .trackers _ _ => 40
  | .throttles _ => 41
  | .errRing _ => 42
  | .errRingOvf _ => 43
  | .patrolLine _ _ => 44
  | .retTimes _ => 45
  | .retired _ => 46
  | .dramSeq _ => 47
  | .trn _ _ => 48
  | .dqsAdj _ _ => 49
  | .dpol _ => 50
  | .idleAt _ _ => 51
  | .fitted _ => 52
  | .faultMsgs _ => 53
  | .out _ => 54
  | .lastRead _ => 55
  | .fwd _ => 56
  | .ethTx _ _ => 57
  | .ethHeadAt _ _ => 58
  | .canTx _ _ => 59
  | .pcieOut _ => 60
  | .pcieCfgRd _ => 61
  | .msix _ _ => 62
  | .ancs _ _ => 63
  | .trajArea _ _ => 64
  | .lidarIn _ => 65
  | .wheelIn _ => 66
  | .spiStepBusy _ _ => 67
  | .spiRec _ => 68
  | .spiStepCfg _ _ => 69
  | .ctxs _ _ => 70
  | .fsyOmit _ _ => 71
  | .fsyPulsed _ _ => 72
  | .supTasks _ => 73
  | .fus _ => 74
  | .fcons _ _ => 75
  | .shadow _ _ => 76
  | .trv _ => 77
  | .tlayers _ _ => 78
  | .jobFaults _ => 79
  | .unitLast _ _ => 80
  | .unitRst _ => 81
  | .xlink _ => 82
  | .trace _ => 83
  | .progs _ => 84
  | .rails _ _ => 85
  | .thm _ => 86
  | .bnd _ => 87
  | .thmTrip _ => 88
  | .flash _ _ => 89
  | .slots _ _ => 90
  | .stores _ _ => 91
  | .ids _ _ => 92
  | .boot _ => 93
  | .load _ => 94
  | .flt _ => 95
  | .mon _ => 96
  | .memDrop _ _ => 1
  | .sramDrop _ _ => 2

/-- Every update of `us` writes a field of `T`. -/
@[irreducible] def Within (T : Nat) (us : List Upd) : Prop := ∀ u ∈ us, T.testBit (fieldOf u) = true

theorem within_iff {T : Nat} {us : List Upd} : Within T us ↔ ∀ u ∈ us, T.testBit (fieldOf u) = true := by
  unfold Within
  exact Iff.rfl

theorem Within.mono {T T' : Nat} {us : List Upd} (h : Within T us) (hT : T ||| T' = T') : Within T' us := by
  refine within_iff.2 (fun u hu => ?_)
  rw [← hT, Nat.testBit_or, within_iff.1 h u hu, Bool.true_or]

/-- Within `T` from every state. -/
def WithinA (T : Nat) (a : Act) : Prop := ∀ s, Within T (a s)

variable {T : Nat} {s : State}
theorem wRun {a : Act} (h : WithinA T a) : Within T (a s) := h s
theorem wNil : Within T [] := within_iff.2 (by simp)
theorem wCons {u : Upd} {us : List Upd} (h : T.testBit (fieldOf u) = true) (k : Within T us) : Within T (u :: us) := by
  refine within_iff.2 (fun v hv => ?_)
  rcases List.mem_cons.1 hv with rfl | hv
  · exact h
  · exact within_iff.1 k v hv
theorem wApp {us vs : List Upd} (h : Within T us) (k : Within T vs) : Within T (us ++ vs) := by
  refine within_iff.2 (fun v hv => ?_)
  rcases List.mem_append.1 hv with hv | hv
  · exact within_iff.1 h v hv
  · exact within_iff.1 k v hv
theorem wNop : Within T (nop s) := wNil
theorem wUpd {u : Upd} (h : T.testBit (fieldOf u) = true) : Within T (upd u s) := wCons h wNil
theorem wAnd {a b : Act} (h : Within T (a s)) (k : ∀ t, Within T (b t)) : Within T (andThen a b s) := wApp h (k _)
theorem wSeqNil : Within T (seq [] s) := wNil
theorem wSeq {a : Act} {as : List Act} (h : Within T (a s)) (k : ∀ t, Within T (seq as t)) : Within T (seq (a :: as) s) :=
  wAnd h k
theorem wWhen {c : Bool} {a : Act} (h : Within T (a s)) : Within T (whenA c a s) := by
  unfold whenA; split
  · exact h
  · exact wNil
theorem wIf {c : Prop} [Decidable c] {us vs : List Upd} (h : Within T us) (k : Within T vs) : Within T (if c then us else vs) := by
  split <;> assumption
theorem wIfAct {c : Prop} [Decidable c] {a b : Act} (h : Within T (a s)) (k : Within T (b s)) :
    Within T ((if c then a else b) s) := by split <;> assumption
theorem wEach {α : Type} {xs : List α} {f : α → Act} (h : ∀ x t, Within T (f x t)) : Within T (forEach xs f s) := by
  induction xs generalizing s with
  | nil => exact wNil
  | cons x xs ih => exact wAnd (h _ _) (fun t => ih)
theorem wEachMem {α : Type} {xs : List α} {f : α → Act} (h : ∀ x ∈ xs, ∀ t, Within T (f x t)) : Within T (forEach xs f s) := by
  induction xs generalizing s with
  | nil => exact wNil
  | cons x xs ih =>
    exact wAnd (h _ (List.mem_cons_self ..) _) (fun t => ih (fun y hy => h y (List.mem_cons_of_mem _ hy)))
theorem wFree {f : Nat → Act} (h : T.testBit 5 = true) (k : ∀ n t, Within T (f n t)) : Within T (withFree f s) :=
  wCons h (k _ _)

/-! ### Registers -/

theorem w_wr (a v : Nat) (s : State) : Within 158456325028528675187087900673 (wr a v s) := by
  refine wUpd ?_
  simp only [fieldOf]
  split <;> decide
theorem w_wr_hi (a v : Nat) (s : State) (h : 0x200000200000 ≤ a) : Within 1 (wr a v s) := by
  refine wUpd ?_
  simp only [fieldOf, if_neg (Nat.not_lt.2 h)]
  decide
theorem w_setF (f : Fld) (v : Nat) (s : State) : Within 158456325028528675187087900673 (setF f v s) := w_wr _ _ _
theorem w_setF_hi (f : Fld) (v : Nat) (s : State) (h : 0x200000200000 ≤ f.addr) : Within 1 (setF f v s) := w_wr_hi _ _ _ h
theorem w_addSat (f : Fld) (k : Nat) (s : State) : Within 158456325028528675187087900673 (addSat f k s) := w_setF _ _ _
theorem w_addSat_hi (f : Fld) (k : Nat) (s : State) (h : 0x200000200000 ≤ f.addr) : Within 1 (addSat f k s) := w_setF_hi _ _ _ h
theorem w_incSat (f : Fld)  (s : State) : Within 158456325028528675187087900673 (incSat f s) := w_addSat _ _ _
theorem w_incSat_hi (f : Fld)  (s : State) (h : 0x200000200000 ≤ f.addr) : Within 1 (incSat f s) := w_addSat_hi _ _ _ h
theorem w_addReg (a : Nat) (k : Nat) (s : State) : Within 158456325028528675187087900673 (addReg a k s) := w_wr _ _ _
theorem w_addReg_hi (a : Nat) (k : Nat) (s : State) (h : 0x200000200000 ≤ a) : Within 1 (addReg a k s) := w_wr_hi _ _ _ h
theorem w_incReg (a : Nat)  (s : State) : Within 158456325028528675187087900673 (incReg a s) := w_addReg _ _ _
theorem w_incReg_hi (a : Nat)  (s : State) (h : 0x200000200000 ≤ a) : Within 1 (incReg a s) := w_addReg_hi _ _ _ h
theorem w_wr64 (a : Nat) (v : Nat) (s : State) : Within 158456325028528675187087900673 (wr64 a v s) := wSeq (w_wr _ _ _) (fun _ => wSeq (w_wr _ _ _) (fun _ => wSeqNil))
theorem w_wr64_hi (a : Nat) (v : Nat) (s : State) (h : 0x200000200000 ≤ a) : Within 1 (wr64 a v s) := wSeq (w_wr_hi _ _ _ h) (fun _ => wSeq (w_wr_hi _ _ _ (Nat.le_trans h (Nat.le_add_right _ _))) (fun _ => wSeqNil))
theorem w_inc64 (a : Nat) (k : Nat) (s : State) : Within 158456325028528675187087900673 (inc64 a k s) := w_wr64 _ _ _
theorem w_inc64_hi (a : Nat) (k : Nat) (s : State) (h : 0x200000200000 ≤ a) : Within 1 (inc64 a k s) := w_wr64_hi _ _ _ h
theorem w_incSat64 (a : Nat) (k : Nat) (s : State) : Within 158456325028528675187087900673 (incSat64 a k s) := w_wr64 _ _ _
theorem w_incSat64_hi (a : Nat) (k : Nat) (s : State) (h : 0x200000200000 ≤ a) : Within 1 (incSat64 a k s) := w_wr64_hi _ _ _ h

theorem w_writeEnable (en st : Fld) (v : Bool) (s : State) (he : 0x200000200000 ≤ en.addr) (hs : 0x200000200000 ≤ st.addr) :
    Within 1 (writeEnable en st v s) := by
  unfold writeEnable
  refine wSeq (w_setF_hi _ _ _ he) (fun _ => wSeq ?_ (fun _ => wSeqNil))
  split <;> exact wWhen (w_setF_hi _ _ _ hs)
theorem w_endDrain (en st : Fld) (s : State) (hs : 0x200000200000 ≤ st.addr) : Within 1 (endDrain en st s) := w_setF_hi _ _ _ hs
theorem w_resetRegsWith (topo : Bool) (lo hi : Nat) (keep : Nat → Bool) (s : State) (h : 0x200000200000 ≤ lo) :
    Within 1 (resetRegsWith topo lo hi keep s) := by
  refine wEachMem (fun e he _ => ?_)
  have h1 : lo ≤ e.1 := by simp at he; omega
  refine wUpd ?_
  simp only [fieldOf, if_neg (Nat.not_lt.2 (Nat.le_trans h h1))]
  decide
theorem w_resetRegs (lo hi : Nat) (keep : Nat → Bool) (s : State) (h : 0x200000200000 ≤ lo) : Within 1 (resetRegs lo hi keep s) :=
  w_resetRegsWith _ _ _ _ _ h
theorem w_resetRegs_any (lo hi : Nat) (keep : Nat → Bool) (s : State) :
    Within 158456325028528675187087900673 (resetRegs lo hi keep s) := by
  refine wEachMem (fun e he _ => wUpd ?_)
  simp only [fieldOf]
  split <;> decide
theorem w_rwsClear (lo hi : Nat) (s : State) (h : 0x200000200000 ≤ lo) : Within 1 (rwsClear lo hi s) := by
  refine wEachMem (fun e he _ => ?_)
  have h1 : lo ≤ e.1 := by simp at he; omega
  refine wUpd ?_
  simp only [fieldOf, if_neg (Nat.not_lt.2 (Nat.le_trans h h1))]
  decide
theorem w_rwsClear_any (lo hi : Nat) (s : State) : Within 158456325028528675187087900673 (rwsClear lo hi s) := by
  refine wEachMem (fun e he _ => wUpd ?_)
  simp only [fieldOf]
  split <;> decide
theorem w_applyShadow (lo hi : Nat) (s : State) (h : 0x200000200000 ≤ lo) : Within 75557863725914323419137 (applyShadow lo hi s) := by
  refine wEachMem (fun e he _ => ?_)
  have h1 : lo ≤ e.1 := by simp at he; omega
  refine wSeq (wRun ?_) (fun _ => wSeq (wUpd (by simp only [fieldOf]; decide)) (fun _ => wSeqNil))
  split
  · intro _
    refine wUpd ?_
    simp only [fieldOf, if_neg (Nat.not_lt.2 (Nat.le_trans h h1))]
    decide
  · intro _; exact wNop

end Sys2Proof.Laws
end

