-- ==== Sys2Proof/Laws/Frames.lean ====
section
/-! SUPPORT. From `Within` to equal fields: a list of updates that writes only the fields of `T` leaves every other field, and the
pitch registers where `T` lacks them, as they were. -/
namespace Sys2Proof.Laws
open Sys2Proof.Machine

/-- A projection that no update of `us` changes is as before. -/
theorem keeps_applyAll {β : Type} {P : State → β} {us : List Upd} (h : ∀ u ∈ us, ∀ s, P (applyUpd u s) = P s) (s : State) :
    P (applyAll us s) = P s := by
  induction us generalizing s with
  | nil => rfl
  | cons u us ih =>
    exact (ih (fun v hv => h v (List.mem_cons_of_mem _ hv)) _).trans (h u (List.mem_cons_self ..) s)

/-- An update of another field keeps a projection, if those that change it write field `k`. -/
theorem keeps_within {β : Type} {P : State → β} {T k : Nat} {us : List Upd} (w : Within T us) (hT : T.testBit k = false)
    (hP : ∀ u s, P (applyUpd u s) = P s ∨ fieldOf u = k) (s : State) : P (applyAll us s) = P s :=
  keeps_applyAll (fun u hu s => (hP u s).resolve_right (fun e => by
    have := within_iff.1 w u hu
    rw [e, hT] at this
    exact Bool.noConfusion this)) s

theorem same_mem {T : Nat} {us : List Upd} (w : Within T us) (hT : T.testBit 1 = false) (s : State) : (applyAll us s).mem = s.mem :=
  keeps_within (P := State.mem) w hT (fun u _ => by cases u <;> first | exact .inl rfl | exact .inr rfl) s
theorem same_sram {T : Nat} {us : List Upd} (w : Within T us) (hT : T.testBit 2 = false) (s : State) : (applyAll us s).sram = s.sram :=
  keeps_within (P := State.sram) w hT (fun u _ => by cases u <;> first | exact .inl rfl | exact .inr rfl) s
theorem same_time {T : Nat} {us : List Upd} (w : Within T us) (hT : T.testBit 3 = false) (s : State) : (applyAll us s).time = s.time :=
  keeps_within (P := State.time) w hT (fun u _ => by cases u <;> first | exact .inl rfl | exact .inr rfl) s
theorem same_timeFrac {T : Nat} {us : List Upd} (w : Within T us) (hT : T.testBit 4 = false) (s : State) : (applyAll us s).timeFrac = s.timeFrac :=
  keeps_within (P := State.timeFrac) w hT (fun u _ => by cases u <;> first | exact .inl rfl | exact .inr rfl) s
theorem same_freeCtr {T : Nat} {us : List Upd} (w : Within T us) (hT : T.testBit 5 = false) (s : State) : (applyAll us s).freeCtr = s.freeCtr :=
  keeps_within (P := State.freeCtr) w hT (fun u _ => by cases u <;> first | exact .inl rfl | exact .inr rfl) s
theorem same_hiLatch {T : Nat} {us : List Upd} (w : Within T us) (hT : T.testBit 6 = false) (s : State) : (applyAll us s).hiLatch = s.hiLatch :=
  keeps_within (P := State.hiLatch) w hT (fun u _ => by cases u <;> first | exact .inl rfl | exact .inr rfl) s
theorem same_timeSet {T : Nat} {us : List Upd} (w : Within T us) (hT : T.testBit 7 = false) (s : State) : (applyAll us s).timeSet = s.timeSet :=
  keeps_within (P := State.timeSet) w hT (fun u _ => by cases u <;> first | exact .inl rfl | exact .inr rfl) s
theorem same_n0 {T : Nat} {us : List Upd} (w : Within T us) (hT : T.testBit 8 = false) (s : State) : (applyAll us s).n0 = s.n0 :=
  keeps_within (P := State.n0) w hT (fun u _ => by cases u <;> first | exact .inl rfl | exact .inr rfl) s
theorem same_ticked {T : Nat} {us : List Upd} (w : Within T us) (hT : T.testBit 9 = false) (s : State) : (applyAll us s).ticked = s.ticked :=
  keeps_within (P := State.ticked) w hT (fun u _ => by cases u <;> first | exact .inl rfl | exact .inr rfl) s
theorem same_peerTickAt {T : Nat} {us : List Upd} (w : Within T us) (hT : T.testBit 10 = false) (s : State) : (applyAll us s).peerTickAt = s.peerTickAt :=
  keeps_within (P := State.peerTickAt) w hT (fun u _ => by cases u <;> first | exact .inl rfl | exact .inr rfl) s
theorem same_guardPitch {T : Nat} {us : List Upd} (w : Within T us) (hT : T.testBit 11 = false) (s : State) : (applyAll us s).guardPitch = s.guardPitch :=
  keeps_within (P := State.guardPitch) w hT (fun u _ => by cases u <;> first | exact .inl rfl | exact .inr rfl) s
theorem same_diePitch {T : Nat} {us : List Upd} (w : Within T us) (hT : T.testBit 12 = false) (s : State) : (applyAll us s).diePitch = s.diePitch :=
  keeps_within (P := State.diePitch) w hT (fun u _ => by cases u <;> first | exact .inl rfl | exact .inr rfl) s
theorem same_resps {T : Nat} {us : List Upd} (w : Within T us) (hT : T.testBit 13 = false) (s : State) : (applyAll us s).resps = s.resps :=
  keeps_within (P := State.resps) w hT (fun u _ => by cases u <;> first | exact .inl rfl | exact .inr rfl) s
theorem same_txns {T : Nat} {us : List Upd} (w : Within T us) (hT : T.testBit 14 = false) (s : State) : (applyAll us s).txns = s.txns :=
  keeps_within (P := State.txns) w hT (fun u _ => by cases u <;> first | exact .inl rfl | exact .inr rfl) s
theorem same_nextTag {T : Nat} {us : List Upd} (w : Within T us) (hT : T.testBit 15 = false) (s : State) : (applyAll us s).nextTag = s.nextTag :=
  keeps_within (P := State.nextTag) w hT (fun u _ => by cases u <;> first | exact .inl rfl | exact .inr rfl) s
theorem same_lateTags {T : Nat} {us : List Upd} (w : Within T us) (hT : T.testBit 16 = false) (s : State) : (applyAll us s).lateTags = s.lateTags :=
  keeps_within (P := State.lateTags) w hT (fun u _ => by cases u <;> first | exact .inl rfl | exact .inr rfl) s
theorem same_ports {T : Nat} {us : List Upd} (w : Within T us) (hT : T.testBit 17 = false) (s : State) : (applyAll us s).ports = s.ports :=
  keeps_within (P := State.ports) w hT (fun u _ => by cases u <;> first | exact .inl rfl | exact .inr rfl) s
theorem same_threads {T : Nat} {us : List Upd} (w : Within T us) (hT : T.testBit 18 = false) (s : State) : (applyAll us s).threads = s.threads :=
  keeps_within (P := State.threads) w hT (fun u _ => by cases u <;> first | exact .inl rfl | exact .inr rfl) s
theorem same_cores {T : Nat} {us : List Upd} (w : Within T us) (hT : T.testBit 19 = false) (s : State) : (applyAll us s).cores = s.cores :=
  keeps_within (P := State.cores) w hT (fun u _ => by cases u <;> first | exact .inl rfl | exact .inr rfl) s
theorem same_engines {T : Nat} {us : List Upd} (w : Within T us) (hT : T.testBit 20 = false) (s : State) : (applyAll us s).engines = s.engines :=
  keeps_within (P := State.engines) w hT (fun u _ => by cases u <;> first | exact .inl rfl | exact .inr rfl) s
theorem same_held {T : Nat} {us : List Upd} (w : Within T us) (hT : T.testBit 21 = false) (s : State) : (applyAll us s).held = s.held :=
  keeps_within (P := State.held) w hT (fun u _ => by cases u <;> first | exact .inl rfl | exact .inr rfl) s
theorem same_watches {T : Nat} {us : List Upd} (w : Within T us) (hT : T.testBit 22 = false) (s : State) : (applyAll us s).watches = s.watches :=
  keeps_within (P := State.watches) w hT (fun u _ => by cases u <;> first | exact .inl rfl | exact .inr rfl) s
theorem same_watchMsgs {T : Nat} {us : List Upd} (w : Within T us) (hT : T.testBit 23 = false) (s : State) : (applyAll us s).watchMsgs = s.watchMsgs :=
  keeps_within (P := State.watchMsgs) w hT (fun u _ => by cases u <;> first | exact .inl rfl | exact .inr rfl) s
theorem same_bankHeld {T : Nat} {us : List Upd} (w : Within T us) (hT : T.testBit 24 = false) (s : State) : (applyAll us s).bankHeld = s.bankHeld :=
  keeps_within (P := State.bankHeld) w hT (fun u _ => by cases u <;> first | exact .inl rfl | exact .inr rfl) s
theorem same_bankTarget {T : Nat} {us : List Upd} (w : Within T us) (hT : T.testBit 25 = false) (s : State) : (applyAll us s).bankTarget = s.bankTarget :=
  keeps_within (P := State.bankTarget) w hT (fun u _ => by cases u <;> first | exact .inl rfl | exact .inr rfl) s
theorem same_ecc {T : Nat} {us : List Upd} (w : Within T us) (hT : T.testBit 26 = false) (s : State) : (applyAll us s).ecc = s.ecc :=
  keeps_within (P := State.ecc) w hT (fun u _ => by cases u <;> first | exact .inl rfl | exact .inr rfl) s
theorem same_lineEcc {T : Nat} {us : List Upd} (w : Within T us) (hT : T.testBit 27 = false) (s : State) : (applyAll us s).lineEcc = s.lineEcc :=
  keeps_within (P := State.lineEcc) w hT (fun u _ => by cases u <;> first | exact .inl rfl | exact .inr rfl) s
theorem same_wbPending {T : Nat} {us : List Upd} (w : Within T us) (hT : T.testBit 28 = false) (s : State) : (applyAll us s).wbPending = s.wbPending :=
  keeps_within (P := State.wbPending) w hT (fun u _ => by cases u <;> first | exact .inl rfl | exact .inr rfl) s
theorem same_scrubPos {T : Nat} {us : List Upd} (w : Within T us) (hT : T.testBit 29 = false) (s : State) : (applyAll us s).scrubPos = s.scrubPos :=
  keeps_within (P := State.scrubPos) w hT (fun u _ => by cases u <;> first | exact .inl rfl | exact .inr rfl) s
theorem same_refusals {T : Nat} {us : List Upd} (w : Within T us) (hT : T.testBit 30 = false) (s : State) : (applyAll us s).refusals = s.refusals :=
  keeps_within (P := State.refusals) w hT (fun u _ => by cases u <;> first | exact .inl rfl | exact .inr rfl) s
theorem same_firstRefusal {T : Nat} {us : List Upd} (w : Within T us) (hT : T.testBit 31 = false) (s : State) : (applyAll us s).firstRefusal = s.firstRefusal :=
  keeps_within (P := State.firstRefusal) w hT (fun u _ => by cases u <;> first | exact .inl rfl | exact .inr rfl) s
theorem same_boxQueue {T : Nat} {us : List Upd} (w : Within T us) (hT : T.testBit 32 = false) (s : State) : (applyAll us s).boxQueue = s.boxQueue :=
  keeps_within (P := State.boxQueue) w hT (fun u _ => by cases u <;> first | exact .inl rfl | exact .inr rfl) s
theorem same_boxRun {T : Nat} {us : List Upd} (w : Within T us) (hT : T.testBit 33 = false) (s : State) : (applyAll us s).boxRun = s.boxRun :=
  keeps_within (P := State.boxRun) w hT (fun u _ => by cases u <;> first | exact .inl rfl | exact .inr rfl) s
theorem same_kvs {T : Nat} {us : List Upd} (w : Within T us) (hT : T.testBit 34 = false) (s : State) : (applyAll us s).kvs = s.kvs :=
  keeps_within (P := State.kvs) w hT (fun u _ => by cases u <;> first | exact .inl rfl | exact .inr rfl) s
theorem same_parts {T : Nat} {us : List Upd} (w : Within T us) (hT : T.testBit 35 = false) (s : State) : (applyAll us s).parts = s.parts :=
  keeps_within (P := State.parts) w hT (fun u _ => by cases u <;> first | exact .inl rfl | exact .inr rfl) s
theorem same_dmas {T : Nat} {us : List Upd} (w : Within T us) (hT : T.testBit 36 = false) (s : State) : (applyAll us s).dmas = s.dmas :=
  keeps_within (P := State.dmas) w hT (fun u _ => by cases u <;> first | exact .inl rfl | exact .inr rfl) s
theorem same_regReqs {T : Nat} {us : List Upd} (w : Within T us) (hT : T.testBit 37 = false) (s : State) : (applyAll us s).regReqs = s.regReqs :=
  keeps_within (P := State.regReqs) w hT (fun u _ => by cases u <;> first | exact .inl rfl | exact .inr rfl) s
theorem same_regPorts {T : Nat} {us : List Upd} (w : Within T us) (hT : T.testBit 38 = false) (s : State) : (applyAll us s).regPorts = s.regPorts :=
  keeps_within (P := State.regPorts) w hT (fun u _ => by cases u <;> first | exact .inl rfl | exact .inr rfl) s
theorem same_subchs {T : Nat} {us : List Upd} (w : Within T us) (hT : T.testBit 39 = false) (s : State) : (applyAll us s).subchs = s.subchs :=
  keeps_within (P := State.subchs) w hT (fun u _ => by cases u <;> first | exact .inl rfl | exact .inr rfl) s
theorem same_trackers {T : Nat} {us : List Upd} (w : Within T us) (hT : T.testBit 40 = false) (s : State) : (applyAll us s).trackers = s.trackers :=
  keeps_within (P := State.trackers) w hT (fun u _ => by cases u <;> first | exact .inl rfl | exact .inr rfl) s
theorem same_throttles {T : Nat} {us : List Upd} (w : Within T us) (hT : T.testBit 41 = false) (s : State) : (applyAll us s).throttles = s.throttles :=
  keeps_within (P := State.throttles) w hT (fun u _ => by cases u <;> first | exact .inl rfl | exact .inr rfl) s
theorem same_errRing {T : Nat} {us : List Upd} (w : Within T us) (hT : T.testBit 42 = false) (s : State) : (applyAll us s).errRing = s.errRing :=
  keeps_within (P := State.errRing) w hT (fun u _ => by cases u <;> first | exact .inl rfl | exact .inr rfl) s
theorem same_errRingOvf {T : Nat} {us : List Upd} (w : Within T us) (hT : T.testBit 43 = false) (s : State) : (applyAll us s).errRingOvf = s.errRingOvf :=
  keeps_within (P := State.errRingOvf) w hT (fun u _ => by cases u <;> first | exact .inl rfl | exact .inr rfl) s
theorem same_patrolLine {T : Nat} {us : List Upd} (w : Within T us) (hT : T.testBit 44 = false) (s : State) : (applyAll us s).patrolLine = s.patrolLine :=
  keeps_within (P := State.patrolLine) w hT (fun u _ => by cases u <;> first | exact .inl rfl | exact .inr rfl) s
theorem same_retTimes {T : Nat} {us : List Upd} (w : Within T us) (hT : T.testBit 45 = false) (s : State) : (applyAll us s).retTimes = s.retTimes :=
  keeps_within (P := State.retTimes) w hT (fun u _ => by cases u <;> first | exact .inl rfl | exact .inr rfl) s
theorem same_retired {T : Nat} {us : List Upd} (w : Within T us) (hT : T.testBit 46 = false) (s : State) : (applyAll us s).retired = s.retired :=
  keeps_within (P := State.retired) w hT (fun u _ => by cases u <;> first | exact .inl rfl | exact .inr rfl) s
theorem same_dramSeq {T : Nat} {us : List Upd} (w : Within T us) (hT : T.testBit 47 = false) (s : State) : (applyAll us s).dramSeq = s.dramSeq :=
  keeps_within (P := State.dramSeq) w hT (fun u _ => by cases u <;> first | exact .inl rfl | exact .inr rfl) s
theorem same_trn {T : Nat} {us : List Upd} (w : Within T us) (hT : T.testBit 48 = false) (s : State) : (applyAll us s).trn = s.trn :=
  keeps_within (P := State.trn) w hT (fun u _ => by cases u <;> first | exact .inl rfl | exact .inr rfl) s
theorem same_dqsAdj {T : Nat} {us : List Upd} (w : Within T us) (hT : T.testBit 49 = false) (s : State) : (applyAll us s).dqsAdj = s.dqsAdj :=
  keeps_within (P := State.dqsAdj) w hT (fun u _ => by cases u <;> first | exact .inl rfl | exact .inr rfl) s
theorem same_dpol {T : Nat} {us : List Upd} (w : Within T us) (hT : T.testBit 50 = false) (s : State) : (applyAll us s).dpol = s.dpol :=
  keeps_within (P := State.dpol) w hT (fun u _ => by cases u <;> first | exact .inl rfl | exact .inr rfl) s
theorem same_idleAt {T : Nat} {us : List Upd} (w : Within T us) (hT : T.testBit 51 = false) (s : State) : (applyAll us s).idleAt = s.idleAt :=
  keeps_within (P := State.idleAt) w hT (fun u _ => by cases u <;> first | exact .inl rfl | exact .inr rfl) s
theorem same_fitted {T : Nat} {us : List Upd} (w : Within T us) (hT : T.testBit 52 = false) (s : State) : (applyAll us s).fitted = s.fitted :=
  keeps_within (P := State.fitted) w hT (fun u _ => by cases u <;> first | exact .inl rfl | exact .inr rfl) s
theorem same_faultMsgs {T : Nat} {us : List Upd} (w : Within T us) (hT : T.testBit 53 = false) (s : State) : (applyAll us s).faultMsgs = s.faultMsgs :=
  keeps_within (P := State.faultMsgs) w hT (fun u _ => by cases u <;> first | exact .inl rfl | exact .inr rfl) s
theorem same_out {T : Nat} {us : List Upd} (w : Within T us) (hT : T.testBit 54 = false) (s : State) : (applyAll us s).out = s.out :=
  keeps_within (P := State.out) w hT (fun u _ => by cases u <;> first | exact .inl rfl | exact .inr rfl) s
theorem same_lastRead {T : Nat} {us : List Upd} (w : Within T us) (hT : T.testBit 55 = false) (s : State) : (applyAll us s).lastRead = s.lastRead :=
  keeps_within (P := State.lastRead) w hT (fun u _ => by cases u <;> first | exact .inl rfl | exact .inr rfl) s
theorem same_fwd {T : Nat} {us : List Upd} (w : Within T us) (hT : T.testBit 56 = false) (s : State) : (applyAll us s).fwd = s.fwd :=
  keeps_within (P := State.fwd) w hT (fun u _ => by cases u <;> first | exact .inl rfl | exact .inr rfl) s
theorem same_ethTx {T : Nat} {us : List Upd} (w : Within T us) (hT : T.testBit 57 = false) (s : State) : (applyAll us s).ethTx = s.ethTx :=
  keeps_within (P := State.ethTx) w hT (fun u _ => by cases u <;> first | exact .inl rfl | exact .inr rfl) s
theorem same_ethHeadAt {T : Nat} {us : List Upd} (w : Within T us) (hT : T.testBit 58 = false) (s : State) : (applyAll us s).ethHeadAt = s.ethHeadAt :=
  keeps_within (P := State.ethHeadAt) w hT (fun u _ => by cases u <;> first | exact .inl rfl | exact .inr rfl) s
theorem same_canTx {T : Nat} {us : List Upd} (w : Within T us) (hT : T.testBit 59 = false) (s : State) : (applyAll us s).canTx = s.canTx :=
  keeps_within (P := State.canTx) w hT (fun u _ => by cases u <;> first | exact .inl rfl | exact .inr rfl) s
theorem same_pcieOut {T : Nat} {us : List Upd} (w : Within T us) (hT : T.testBit 60 = false) (s : State) : (applyAll us s).pcieOut = s.pcieOut :=
  keeps_within (P := State.pcieOut) w hT (fun u _ => by cases u <;> first | exact .inl rfl | exact .inr rfl) s
theorem same_pcieCfgRd {T : Nat} {us : List Upd} (w : Within T us) (hT : T.testBit 61 = false) (s : State) : (applyAll us s).pcieCfgRd = s.pcieCfgRd :=
  keeps_within (P := State.pcieCfgRd) w hT (fun u _ => by cases u <;> first | exact .inl rfl | exact .inr rfl) s
theorem same_msix {T : Nat} {us : List Upd} (w : Within T us) (hT : T.testBit 62 = false) (s : State) : (applyAll us s).msix = s.msix :=
  keeps_within (P := State.msix) w hT (fun u _ => by cases u <;> first | exact .inl rfl | exact .inr rfl) s
theorem same_ancs {T : Nat} {us : List Upd} (w : Within T us) (hT : T.testBit 63 = false) (s : State) : (applyAll us s).ancs = s.ancs :=
  keeps_within (P := State.ancs) w hT (fun u _ => by cases u <;> first | exact .inl rfl | exact .inr rfl) s
theorem same_trajArea {T : Nat} {us : List Upd} (w : Within T us) (hT : T.testBit 64 = false) (s : State) : (applyAll us s).trajArea = s.trajArea :=
  keeps_within (P := State.trajArea) w hT (fun u _ => by cases u <;> first | exact .inl rfl | exact .inr rfl) s
theorem same_lidarIn {T : Nat} {us : List Upd} (w : Within T us) (hT : T.testBit 65 = false) (s : State) : (applyAll us s).lidarIn = s.lidarIn :=
  keeps_within (P := State.lidarIn) w hT (fun u _ => by cases u <;> first | exact .inl rfl | exact .inr rfl) s
theorem same_wheelIn {T : Nat} {us : List Upd} (w : Within T us) (hT : T.testBit 66 = false) (s : State) : (applyAll us s).wheelIn = s.wheelIn :=
  keeps_within (P := State.wheelIn) w hT (fun u _ => by cases u <;> first | exact .inl rfl | exact .inr rfl) s
theorem same_spiStepBusy {T : Nat} {us : List Upd} (w : Within T us) (hT : T.testBit 67 = false) (s : State) : (applyAll us s).spiStepBusy = s.spiStepBusy :=
  keeps_within (P := State.spiStepBusy) w hT (fun u _ => by cases u <;> first | exact .inl rfl | exact .inr rfl) s
theorem same_spiRec {T : Nat} {us : List Upd} (w : Within T us) (hT : T.testBit 68 = false) (s : State) : (applyAll us s).spiRec = s.spiRec :=
  keeps_within (P := State.spiRec) w hT (fun u _ => by cases u <;> first | exact .inl rfl | exact .inr rfl) s
theorem same_spiStepCfg {T : Nat} {us : List Upd} (w : Within T us) (hT : T.testBit 69 = false) (s : State) : (applyAll us s).spiStepCfg = s.spiStepCfg :=
  keeps_within (P := State.spiStepCfg) w hT (fun u _ => by cases u <;> first | exact .inl rfl | exact .inr rfl) s
theorem same_ctxs {T : Nat} {us : List Upd} (w : Within T us) (hT : T.testBit 70 = false) (s : State) : (applyAll us s).ctxs = s.ctxs :=
  keeps_within (P := State.ctxs) w hT (fun u _ => by cases u <;> first | exact .inl rfl | exact .inr rfl) s
theorem same_fsyOmit {T : Nat} {us : List Upd} (w : Within T us) (hT : T.testBit 71 = false) (s : State) : (applyAll us s).fsyOmit = s.fsyOmit :=
  keeps_within (P := State.fsyOmit) w hT (fun u _ => by cases u <;> first | exact .inl rfl | exact .inr rfl) s
theorem same_fsyPulsed {T : Nat} {us : List Upd} (w : Within T us) (hT : T.testBit 72 = false) (s : State) : (applyAll us s).fsyPulsed = s.fsyPulsed :=
  keeps_within (P := State.fsyPulsed) w hT (fun u _ => by cases u <;> first | exact .inl rfl | exact .inr rfl) s
theorem same_supTasks {T : Nat} {us : List Upd} (w : Within T us) (hT : T.testBit 73 = false) (s : State) : (applyAll us s).supTasks = s.supTasks :=
  keeps_within (P := State.supTasks) w hT (fun u _ => by cases u <;> first | exact .inl rfl | exact .inr rfl) s
theorem same_fus {T : Nat} {us : List Upd} (w : Within T us) (hT : T.testBit 74 = false) (s : State) : (applyAll us s).fus = s.fus :=
  keeps_within (P := State.fus) w hT (fun u _ => by cases u <;> first | exact .inl rfl | exact .inr rfl) s
theorem same_fcons {T : Nat} {us : List Upd} (w : Within T us) (hT : T.testBit 75 = false) (s : State) : (applyAll us s).fcons = s.fcons :=
  keeps_within (P := State.fcons) w hT (fun u _ => by cases u <;> first | exact .inl rfl | exact .inr rfl) s
theorem same_shadow {T : Nat} {us : List Upd} (w : Within T us) (hT : T.testBit 76 = false) (s : State) : (applyAll us s).shadow = s.shadow :=
  keeps_within (P := State.shadow) w hT (fun u _ => by cases u <;> first | exact .inl rfl | exact .inr rfl) s
theorem same_trv {T : Nat} {us : List Upd} (w : Within T us) (hT : T.testBit 77 = false) (s : State) : (applyAll us s).trv = s.trv :=
  keeps_within (P := State.trv) w hT (fun u _ => by cases u <;> first | exact .inl rfl | exact .inr rfl) s
theorem same_tlayers {T : Nat} {us : List Upd} (w : Within T us) (hT : T.testBit 78 = false) (s : State) : (applyAll us s).tlayers = s.tlayers :=
  keeps_within (P := State.tlayers) w hT (fun u _ => by cases u <;> first | exact .inl rfl | exact .inr rfl) s
theorem same_jobFaults {T : Nat} {us : List Upd} (w : Within T us) (hT : T.testBit 79 = false) (s : State) : (applyAll us s).jobFaults = s.jobFaults :=
  keeps_within (P := State.jobFaults) w hT (fun u _ => by cases u <;> first | exact .inl rfl | exact .inr rfl) s
theorem same_unitLast {T : Nat} {us : List Upd} (w : Within T us) (hT : T.testBit 80 = false) (s : State) : (applyAll us s).unitLast = s.unitLast :=
  keeps_within (P := State.unitLast) w hT (fun u _ => by cases u <;> first | exact .inl rfl | exact .inr rfl) s
theorem same_unitRst {T : Nat} {us : List Upd} (w : Within T us) (hT : T.testBit 81 = false) (s : State) : (applyAll us s).unitRst = s.unitRst :=
  keeps_within (P := State.unitRst) w hT (fun u _ => by cases u <;> first | exact .inl rfl | exact .inr rfl) s
theorem same_xlink {T : Nat} {us : List Upd} (w : Within T us) (hT : T.testBit 82 = false) (s : State) : (applyAll us s).xlink = s.xlink :=
  keeps_within (P := State.xlink) w hT (fun u _ => by cases u <;> first | exact .inl rfl | exact .inr rfl) s
theorem same_trace {T : Nat} {us : List Upd} (w : Within T us) (hT : T.testBit 83 = false) (s : State) : (applyAll us s).trace = s.trace :=
  keeps_within (P := State.trace) w hT (fun u _ => by cases u <;> first | exact .inl rfl | exact .inr rfl) s
theorem same_progs {T : Nat} {us : List Upd} (w : Within T us) (hT : T.testBit 84 = false) (s : State) : (applyAll us s).progs = s.progs :=
  keeps_within (P := State.progs) w hT (fun u _ => by cases u <;> first | exact .inl rfl | exact .inr rfl) s
theorem same_rails {T : Nat} {us : List Upd} (w : Within T us) (hT : T.testBit 85 = false) (s : State) : (applyAll us s).rails = s.rails :=
  keeps_within (P := State.rails) w hT (fun u _ => by cases u <;> first | exact .inl rfl | exact .inr rfl) s
theorem same_thm {T : Nat} {us : List Upd} (w : Within T us) (hT : T.testBit 86 = false) (s : State) : (applyAll us s).thm = s.thm :=
  keeps_within (P := State.thm) w hT (fun u _ => by cases u <;> first | exact .inl rfl | exact .inr rfl) s
theorem same_bnd {T : Nat} {us : List Upd} (w : Within T us) (hT : T.testBit 87 = false) (s : State) : (applyAll us s).bnd = s.bnd :=
  keeps_within (P := State.bnd) w hT (fun u _ => by cases u <;> first | exact .inl rfl | exact .inr rfl) s
theorem same_thmTrip {T : Nat} {us : List Upd} (w : Within T us) (hT : T.testBit 88 = false) (s : State) : (applyAll us s).thmTrip = s.thmTrip :=
  keeps_within (P := State.thmTrip) w hT (fun u _ => by cases u <;> first | exact .inl rfl | exact .inr rfl) s
theorem same_flash {T : Nat} {us : List Upd} (w : Within T us) (hT : T.testBit 89 = false) (s : State) : (applyAll us s).flash = s.flash :=
  keeps_within (P := State.flash) w hT (fun u _ => by cases u <;> first | exact .inl rfl | exact .inr rfl) s
theorem same_slots {T : Nat} {us : List Upd} (w : Within T us) (hT : T.testBit 90 = false) (s : State) : (applyAll us s).slots = s.slots :=
  keeps_within (P := State.slots) w hT (fun u _ => by cases u <;> first | exact .inl rfl | exact .inr rfl) s
theorem same_stores {T : Nat} {us : List Upd} (w : Within T us) (hT : T.testBit 91 = false) (s : State) : (applyAll us s).stores = s.stores :=
  keeps_within (P := State.stores) w hT (fun u _ => by cases u <;> first | exact .inl rfl | exact .inr rfl) s
theorem same_ids {T : Nat} {us : List Upd} (w : Within T us) (hT : T.testBit 92 = false) (s : State) : (applyAll us s).ids = s.ids :=
  keeps_within (P := State.ids) w hT (fun u _ => by cases u <;> first | exact .inl rfl | exact .inr rfl) s
theorem same_boot {T : Nat} {us : List Upd} (w : Within T us) (hT : T.testBit 93 = false) (s : State) : (applyAll us s).boot = s.boot :=
  keeps_within (P := State.boot) w hT (fun u _ => by cases u <;> first | exact .inl rfl | exact .inr rfl) s
theorem same_load {T : Nat} {us : List Upd} (w : Within T us) (hT : T.testBit 94 = false) (s : State) : (applyAll us s).load = s.load :=
  keeps_within (P := State.load) w hT (fun u _ => by cases u <;> first | exact .inl rfl | exact .inr rfl) s
theorem same_flt {T : Nat} {us : List Upd} (w : Within T us) (hT : T.testBit 95 = false) (s : State) : (applyAll us s).flt = s.flt :=
  keeps_within (P := State.flt) w hT (fun u _ => by cases u <;> first | exact .inl rfl | exact .inr rfl) s
theorem same_mon {T : Nat} {us : List Upd} (w : Within T us) (hT : T.testBit 96 = false) (s : State) : (applyAll us s).mon = s.mon :=
  keeps_within (P := State.mon) w hT (fun u _ => by cases u <;> first | exact .inl rfl | exact .inr rfl) s

/-- The registers are as before where neither the pitch registers nor others are written. -/
theorem same_regs {T : Nat} {us : List Upd} (w : Within T us) (h0 : T.testBit 0 = false) (h1 : T.testBit 97 = false) (s : State) :
    (applyAll us s).regs = s.regs := by
  refine keeps_applyAll (P := State.regs) (fun u hu s => ?_) s
  have hu := within_iff.1 w u hu
  cases u <;> try rfl
  simp only [fieldOf] at hu
  split at hu <;> simp_all

/-- The pitch registers (R57) are as before. -/
theorem same_pitchRegs {T : Nat} {us : List Upd} (w : Within T us) (hT : T.testBit 97 = false) {s : State} (hs : s.ok = true)
    {a : Nat} (ha : a < 0x200000200000) : rd (applyAll us s) a = rd s a := by
  induction us generalizing s with
  | nil => rfl
  | cons u us ih =>
    have hu := within_iff.1 w u (List.mem_cons_self ..)
    refine (ih (within_iff.2 (fun v hv => within_iff.1 w v (List.mem_cons_of_mem _ hv))) (ok_applyUpd hs)).trans ?_
    cases u <;> try rfl
    rename_i k v
    simp only [fieldOf] at hu
    rw [rd_applyRegs hs, if_neg]
    rintro rfl
    rw [if_pos ha, hT] at hu
    exact Bool.noConfusion hu

/-- The fields of `T` from `t`, the others from `s`. -/
def mix (T : Nat) (s t : State) : State where
  pending := s.pending
  regs := bif T.testBit 0 || T.testBit 97 then t.regs else s.regs
  mem := bif T.testBit 1 then t.mem else s.mem
  sram := bif T.testBit 2 then t.sram else s.sram
  time := bif T.testBit 3 then t.time else s.time
  timeFrac := bif T.testBit 4 then t.timeFrac else s.timeFrac
  freeCtr := bif T.testBit 5 then t.freeCtr else s.freeCtr
  hiLatch := bif T.testBit 6 then t.hiLatch else s.hiLatch
  timeSet := bif T.testBit 7 then t.timeSet else s.timeSet
  n0 := bif T.testBit 8 then t.n0 else s.n0
  ticked := bif T.testBit 9 then t.ticked else s.ticked
  peerTickAt := bif T.testBit 10 then t.peerTickAt else s.peerTickAt
  guardPitch := bif T.testBit 11 then t.guardPitch else s.guardPitch
  diePitch := bif T.testBit 12 then t.diePitch else s.diePitch
  resps := bif T.testBit 13 then t.resps else s.resps
  txns := bif T.testBit 14 then t.txns else s.txns
  nextTag := bif T.testBit 15 then t.nextTag else s.nextTag
  lateTags := bif T.testBit 16 then t.lateTags else s.lateTags
  ports := bif T.testBit 17 then t.ports else s.ports
  threads := bif T.testBit 18 then t.threads else s.threads
  cores := bif T.testBit 19 then t.cores else s.cores
  engines := bif T.testBit 20 then t.engines else s.engines
  held := bif T.testBit 21 then t.held else s.held
  watches := bif T.testBit 22 then t.watches else s.watches
  watchMsgs := bif T.testBit 23 then t.watchMsgs else s.watchMsgs
  bankHeld := bif T.testBit 24 then t.bankHeld else s.bankHeld
  bankTarget := bif T.testBit 25 then t.bankTarget else s.bankTarget
  ecc := bif T.testBit 26 then t.ecc else s.ecc
  lineEcc := bif T.testBit 27 then t.lineEcc else s.lineEcc
  wbPending := bif T.testBit 28 then t.wbPending else s.wbPending
  scrubPos := bif T.testBit 29 then t.scrubPos else s.scrubPos
  refusals := bif T.testBit 30 then t.refusals else s.refusals
  firstRefusal := bif T.testBit 31 then t.firstRefusal else s.firstRefusal
  boxQueue := bif T.testBit 32 then t.boxQueue else s.boxQueue
  boxRun := bif T.testBit 33 then t.boxRun else s.boxRun
  kvs := bif T.testBit 34 then t.kvs else s.kvs
  parts := bif T.testBit 35 then t.parts else s.parts
  dmas := bif T.testBit 36 then t.dmas else s.dmas
  regReqs := bif T.testBit 37 then t.regReqs else s.regReqs
  regPorts := bif T.testBit 38 then t.regPorts else s.regPorts
  subchs := bif T.testBit 39 then t.subchs else s.subchs
  trackers := bif T.testBit 40 then t.trackers else s.trackers
  throttles := bif T.testBit 41 then t.throttles else s.throttles
  errRing := bif T.testBit 42 then t.errRing else s.errRing
  errRingOvf := bif T.testBit 43 then t.errRingOvf else s.errRingOvf
  patrolLine := bif T.testBit 44 then t.patrolLine else s.patrolLine
  retTimes := bif T.testBit 45 then t.retTimes else s.retTimes
  retired := bif T.testBit 46 then t.retired else s.retired
  dramSeq := bif T.testBit 47 then t.dramSeq else s.dramSeq
  trn := bif T.testBit 48 then t.trn else s.trn
  dqsAdj := bif T.testBit 49 then t.dqsAdj else s.dqsAdj
  dpol := bif T.testBit 50 then t.dpol else s.dpol
  idleAt := bif T.testBit 51 then t.idleAt else s.idleAt
  fitted := bif T.testBit 52 then t.fitted else s.fitted
  faultMsgs := bif T.testBit 53 then t.faultMsgs else s.faultMsgs
  out := bif T.testBit 54 then t.out else s.out
  lastRead := bif T.testBit 55 then t.lastRead else s.lastRead
  fwd := bif T.testBit 56 then t.fwd else s.fwd
  ethTx := bif T.testBit 57 then t.ethTx else s.ethTx
  ethHeadAt := bif T.testBit 58 then t.ethHeadAt else s.ethHeadAt
  canTx := bif T.testBit 59 then t.canTx else s.canTx
  pcieOut := bif T.testBit 60 then t.pcieOut else s.pcieOut
  pcieCfgRd := bif T.testBit 61 then t.pcieCfgRd else s.pcieCfgRd
  msix := bif T.testBit 62 then t.msix else s.msix
  ancs := bif T.testBit 63 then t.ancs else s.ancs
  trajArea := bif T.testBit 64 then t.trajArea else s.trajArea
  lidarIn := bif T.testBit 65 then t.lidarIn else s.lidarIn
  wheelIn := bif T.testBit 66 then t.wheelIn else s.wheelIn
  spiStepBusy := bif T.testBit 67 then t.spiStepBusy else s.spiStepBusy
  spiRec := bif T.testBit 68 then t.spiRec else s.spiRec
  spiStepCfg := bif T.testBit 69 then t.spiStepCfg else s.spiStepCfg
  ctxs := bif T.testBit 70 then t.ctxs else s.ctxs
  fsyOmit := bif T.testBit 71 then t.fsyOmit else s.fsyOmit
  fsyPulsed := bif T.testBit 72 then t.fsyPulsed else s.fsyPulsed
  supTasks := bif T.testBit 73 then t.supTasks else s.supTasks
  fus := bif T.testBit 74 then t.fus else s.fus
  fcons := bif T.testBit 75 then t.fcons else s.fcons
  shadow := bif T.testBit 76 then t.shadow else s.shadow
  trv := bif T.testBit 77 then t.trv else s.trv
  tlayers := bif T.testBit 78 then t.tlayers else s.tlayers
  jobFaults := bif T.testBit 79 then t.jobFaults else s.jobFaults
  unitLast := bif T.testBit 80 then t.unitLast else s.unitLast
  unitRst := bif T.testBit 81 then t.unitRst else s.unitRst
  xlink := bif T.testBit 82 then t.xlink else s.xlink
  trace := bif T.testBit 83 then t.trace else s.trace
  progs := bif T.testBit 84 then t.progs else s.progs
  rails := bif T.testBit 85 then t.rails else s.rails
  thm := bif T.testBit 86 then t.thm else s.thm
  bnd := bif T.testBit 87 then t.bnd else s.bnd
  thmTrip := bif T.testBit 88 then t.thmTrip else s.thmTrip
  flash := bif T.testBit 89 then t.flash else s.flash
  slots := bif T.testBit 90 then t.slots else s.slots
  stores := bif T.testBit 91 then t.stores else s.stores
  ids := bif T.testBit 92 then t.ids else s.ids
  boot := bif T.testBit 93 then t.boot else s.boot
  load := bif T.testBit 94 then t.load else s.load
  flt := bif T.testBit 95 then t.flt else s.flt
  mon := bif T.testBit 96 then t.mon else s.mon

theorem cond_of {β : Type} {b : Bool} {x y : β} (h : b = false → x = y) : x = bif b then x else y := by
  cases b
  · exact h rfl
  · rfl

/-- What a list of updates within `T` leaves as it was: everything outside `T`. -/
theorem frame {T : Nat} {us : List Upd} (w : Within T us) (s : State) : applyAll us s = mix T s (applyAll us s) := by
  have e : ∀ t : State, t = ⟨t.pending, t.regs, t.mem, t.sram, t.time, t.timeFrac, t.freeCtr, t.hiLatch, t.timeSet, t.n0, t.ticked, t.peerTickAt, t.guardPitch, t.diePitch, t.resps, t.txns, t.nextTag, t.lateTags, t.ports, t.threads, t.cores, t.engines, t.held, t.watches, t.watchMsgs, t.bankHeld, t.bankTarget, t.ecc, t.lineEcc, t.wbPending, t.scrubPos, t.refusals, t.firstRefusal, t.boxQueue, t.boxRun, t.kvs, t.parts, t.dmas, t.regReqs, t.regPorts, t.subchs, t.trackers, t.throttles, t.errRing, t.errRingOvf, t.patrolLine, t.retTimes, t.retired, t.dramSeq, t.trn, t.dqsAdj, t.dpol, t.idleAt, t.fitted, t.faultMsgs, t.out, t.lastRead, t.fwd, t.ethTx, t.ethHeadAt, t.canTx, t.pcieOut, t.pcieCfgRd, t.msix, t.ancs, t.trajArea, t.lidarIn, t.wheelIn, t.spiStepBusy, t.spiRec, t.spiStepCfg, t.ctxs, t.fsyOmit, t.fsyPulsed, t.supTasks, t.fus, t.fcons, t.shadow, t.trv, t.tlayers, t.jobFaults, t.unitLast, t.unitRst, t.xlink, t.trace, t.progs, t.rails, t.thm, t.bnd, t.thmTrip, t.flash, t.slots, t.stores, t.ids, t.boot, t.load, t.flt, t.mon⟩ := fun _ => rfl
  refine (e _).trans ?_
  unfold mix
  rw [State.mk.injEq]
  refine ⟨pending_applyAll us s, cond_of (fun h => ?_), cond_of (fun h => same_mem w h s), cond_of (fun h => same_sram w h s), cond_of (fun h => same_time w h s), cond_of (fun h => same_timeFrac w h s), cond_of (fun h => same_freeCtr w h s), cond_of (fun h => same_hiLatch w h s), cond_of (fun h => same_timeSet w h s), cond_of (fun h => same_n0 w h s), cond_of (fun h => same_ticked w h s), cond_of (fun h => same_peerTickAt w h s), cond_of (fun h => same_guardPitch w h s), cond_of (fun h => same_diePitch w h s), cond_of (fun h => same_resps w h s), cond_of (fun h => same_txns w h s), cond_of (fun h => same_nextTag w h s), cond_of (fun h => same_lateTags w h s), cond_of (fun h => same_ports w h s), cond_of (fun h => same_threads w h s), cond_of (fun h => same_cores w h s), cond_of (fun h => same_engines w h s), cond_of (fun h => same_held w h s), cond_of (fun h => same_watches w h s), cond_of (fun h => same_watchMsgs w h s), cond_of (fun h => same_bankHeld w h s), cond_of (fun h => same_bankTarget w h s), cond_of (fun h => same_ecc w h s), cond_of (fun h => same_lineEcc w h s), cond_of (fun h => same_wbPending w h s), cond_of (fun h => same_scrubPos w h s), cond_of (fun h => same_refusals w h s), cond_of (fun h => same_firstRefusal w h s), cond_of (fun h => same_boxQueue w h s), cond_of (fun h => same_boxRun w h s), cond_of (fun h => same_kvs w h s), cond_of (fun h => same_parts w h s), cond_of (fun h => same_dmas w h s), cond_of (fun h => same_regReqs w h s), cond_of (fun h => same_regPorts w h s), cond_of (fun h => same_subchs w h s), cond_of (fun h => same_trackers w h s), cond_of (fun h => same_throttles w h s), cond_of (fun h => same_errRing w h s), cond_of (fun h => same_errRingOvf w h s), cond_of (fun h => same_patrolLine w h s), cond_of (fun h => same_retTimes w h s), cond_of (fun h => same_retired w h s), cond_of (fun h => same_dramSeq w h s), cond_of (fun h => same_trn w h s), cond_of (fun h => same_dqsAdj w h s), cond_of (fun h => same_dpol w h s), cond_of (fun h => same_idleAt w h s), cond_of (fun h => same_fitted w h s), cond_of (fun h => same_faultMsgs w h s), cond_of (fun h => same_out w h s), cond_of (fun h => same_lastRead w h s), cond_of (fun h => same_fwd w h s), cond_of (fun h => same_ethTx w h s), cond_of (fun h => same_ethHeadAt w h s), cond_of (fun h => same_canTx w h s), cond_of (fun h => same_pcieOut w h s), cond_of (fun h => same_pcieCfgRd w h s), cond_of (fun h => same_msix w h s), cond_of (fun h => same_ancs w h s), cond_of (fun h => same_trajArea w h s), cond_of (fun h => same_lidarIn w h s), cond_of (fun h => same_wheelIn w h s), cond_of (fun h => same_spiStepBusy w h s), cond_of (fun h => same_spiRec w h s), cond_of (fun h => same_spiStepCfg w h s), cond_of (fun h => same_ctxs w h s), cond_of (fun h => same_fsyOmit w h s), cond_of (fun h => same_fsyPulsed w h s), cond_of (fun h => same_supTasks w h s), cond_of (fun h => same_fus w h s), cond_of (fun h => same_fcons w h s), cond_of (fun h => same_shadow w h s), cond_of (fun h => same_trv w h s), cond_of (fun h => same_tlayers w h s), cond_of (fun h => same_jobFaults w h s), cond_of (fun h => same_unitLast w h s), cond_of (fun h => same_unitRst w h s), cond_of (fun h => same_xlink w h s), cond_of (fun h => same_trace w h s), cond_of (fun h => same_progs w h s), cond_of (fun h => same_rails w h s), cond_of (fun h => same_thm w h s), cond_of (fun h => same_bnd w h s), cond_of (fun h => same_thmTrip w h s), cond_of (fun h => same_flash w h s), cond_of (fun h => same_slots w h s), cond_of (fun h => same_stores w h s), cond_of (fun h => same_ids w h s), cond_of (fun h => same_boot w h s), cond_of (fun h => same_load w h s), cond_of (fun h => same_flt w h s), cond_of (fun h => same_mon w h s)⟩
  rw [Bool.or_eq_false_iff] at h
  exact same_regs w h.1 h.2 s

end Sys2Proof.Laws
end

