-- ==== Sys2Proof/Laws/Steps.lean ====
section
/-! SUPPORT. What every command does: it answers the state after an action. -/
namespace Sys2Proof.Laws
open Sys2Proof.Machine

theorem execDmaMove_next (n ch : Nat) (env : DmaEnv) (s : State) : ∃ us, execDmaMove n ch env s = .next (applyAll us s) := by
  unfold execDmaMove
  exact dmaRun_next (fun ws p r h => moveRun_reach _ _ _ _ h)
theorem execDmaFill_next (n ch : Nat) (env : DmaEnv) (s : State) : ∃ us, execDmaFill n ch env s = .next (applyAll us s) := by
  unfold execDmaFill
  exact dmaRun_next (fun ws p r h => by split; exacts [h, fillRun_reach _ _ _ h])
theorem execDmaCompare_next (n ch : Nat) (env : DmaEnv) (s : State) :
    ∃ us, execDmaCompare n ch env s = .next (applyAll us s) := by
  unfold execDmaCompare
  exact dmaRun_next (fun ws p r h => by split; exacts [h, compareRun_reach _ _ _ _ h])
theorem execDmaComparePat_next (n ch : Nat) (env : DmaEnv) (s : State) :
    ∃ us, execDmaComparePat n ch env s = .next (applyAll us s) := by
  unfold execDmaComparePat
  exact dmaRun_next (fun ws p r h => by split; exacts [h, compareRun_reach _ _ _ _ h])

/-- Every command but the four runs of a DMA descriptor is an action. -/
theorem exec_forms (c : Instr) (s : State) :
    (∃ a, exec c s = done a s) ∨ (∃ us, exec c s = .next (applyAll us s)) := by
  cases c
  case dmaMove n ch env => exact .inr (execDmaMove_next n ch env s)
  case dmaFill n ch env => exact .inr (execDmaFill_next n ch env s)
  case dmaCompare n ch env => exact .inr (execDmaCompare_next n ch env s)
  case dmaComparePat n ch env => exact .inr (execDmaComparePat_next n ch env s)
  all_goals exact .inl ⟨_, rfl⟩

/-- Every command answers a next state, reached by a list of updates. -/
theorem exec_next (c : Instr) (s : State) : ∃ us, exec c s = .next (applyAll us s) := by
  obtain ⟨a, h⟩ | h := exec_forms c s
  · exact ⟨a s, h⟩
  · exact h

/-- A command keeps the canonical forms. -/
theorem exec_ok {c : Instr} {s t : State} (h : exec c s = .next t) (hs : s.ok = true) : t.ok = true := by
  obtain ⟨us, hu⟩ := exec_next c s
  rw [hu] at h
  cases h
  exact ok_applyAll hs

/-- A command leaves the queue to the step. -/
theorem exec_pending {c : Instr} {s t : State} (h : exec c s = .next t) : t.pending = s.pending := by
  obtain ⟨us, hu⟩ := exec_next c s
  rw [hu] at h
  cases h
  exact pending_applyAll _ _

end Sys2Proof.Laws
end

