-- ==== Sys2Proof/Laws/WritesMemory.lean ====
section
/-! SUPPORT. Which fields the shared operations can write: the memories, counters, threads and engines. The number after `Within` has a bit
for each field (`fieldOf`). -/
namespace Sys2Proof.Laws
open Sys2Proof.Machine

set_option linter.unusedTactic false
set_option linter.unreachableTactic false
set_option linter.unusedSimpArgs false
set_option linter.unnecessarySeqFocus false

theorem w_advance (now : Nat) (s : State) : Within 8 (advance now s) := by
  unfold advance
  repeat' first
    | exact (rfl : (_ : Nat) = _)
    | exact (rfl : (_ : Bool) = _)
    | with_reducible first
      | exact wNil | refine wIf ?_ ?_ | refine wIfAct ?_ ?_ | refine wCons ?_ ?_
    | (simp only [fieldOf]; decide)
    | intro _
    | split
    | extract_lets
    | (refine wRun ?_; split <;> intro _)
    | dsimp only

theorem w_storeBytes (a : Nat) (bs : List Byte) (s : State) : Within 2 (storeBytes a bs s) := by
  induction bs generalizing a s with
  | nil => exact wNil
  | cons b bs ih => exact wAnd (wUpd (by simp only [fieldOf]; decide)) (fun _ => ih _ _)

theorem w_storeNum (a n v : Nat) (s : State) : Within 2 (storeNum a n v s) := by
  unfold storeNum
  repeat' first
    | exact (rfl : (_ : Nat) = _)
    | exact (rfl : (_ : Bool) = _)
    | with_reducible first
      | exact wNil
      | apply Within.mono (w_storeBytes ..)
    | (simp only [fieldOf]; decide)
    | intro _
    | split
    | extract_lets
    | (refine wRun ?_; split <;> intro _)
    | dsimp only

theorem w_recordRefusal (m : Master) (a : Nat) (s : State) : Within 3221225472 (recordRefusal m a s) := by
  unfold recordRefusal
  repeat' first
    | exact (rfl : (_ : Nat) = _)
    | exact (rfl : (_ : Bool) = _)
    | with_reducible first
      | exact wNil | refine wIf ?_ ?_ | refine wIfAct ?_ ?_ | refine wCons ?_ ?_ | refine wApp ?_ ?_
    | (simp only [fieldOf]; decide)
    | intro _
    | split
    | extract_lets
    | (refine wRun ?_; split <;> intro _)
    | dsimp only

theorem w_respond (r : Req) (op : ReqOp) (status : Nat) (data : List Byte) (s : State) : Within 8192 (respond r op status data s) := by
  unfold respond
  repeat' first
    | exact (rfl : (_ : Nat) = _)
    | exact (rfl : (_ : Bool) = _)
    | with_reducible first
      | exact wNil | refine wCons ?_ ?_ | refine wApp ?_ ?_
    | (simp only [fieldOf]; decide)
    | intro _
    | split
    | extract_lets
    | (refine wRun ?_; split <;> intro _)
    | dsimp only

theorem w_refuseDark (m : Master) (a : Nat) (s : State) : Within 1 (refuseDark m a s) := by
  unfold refuseDark
  repeat' first
    | exact (rfl : (_ : Nat) = _)
    | exact (rfl : (_ : Bool) = _)
    | with_reducible first
      | exact wNil | exact wSeqNil | refine wSeq ?_ (fun _ => ?_) | refine wIf ?_ ?_ | refine wIfAct ?_ ?_
      | apply Within.mono (w_incReg_hi _ _ ?_)
      | apply Within.mono (w_wr_hi _ _ _ ?_)
    | (simp only [fieldOf]; decide)
    | (show 0x200000200000 ≤ _; (try simp only [BNK_OFF_CNT, BNK_OFF_SRC, BNK_OFF_SRC_VALID]); (repeat' split) <;> omega)
    | intro _
    | split
    | extract_lets
    | (refine wRun ?_; split <;> intro _)
    | dsimp only

theorem w_countWord (w bad : Nat) (s : State) : Within 1 (countWord w bad s) := by
  unfold countWord
  repeat' first
    | exact (rfl : (_ : Nat) = _)
    | exact (rfl : (_ : Bool) = _)
    | with_reducible first
      | exact wNil | exact wSeqNil | refine wSeq ?_ (fun _ => ?_) | refine wIf ?_ ?_ | refine wIfAct ?_ ?_
      | apply Within.mono (w_incReg_hi _ _ ?_)
      | apply Within.mono (w_wr_hi _ _ _ ?_)
    | (simp only [fieldOf]; decide)
    | (show 0x200000200000 ≤ _; (try simp only [BNK_CM_CORR_CNT, BNK_CM_ERR, BNK_CM_UNC_CNT, BNK_CORR_CNT, BNK_EB_CORR_CNT, BNK_EB_ERR, BNK_EB_UNC_CNT, BNK_ERR_WORD, BNK_UNC_CNT]); (repeat' split) <;> omega)
    | intro _
    | split
    | extract_lets
    | (refine wRun ?_; split <;> intro _)
    | dsimp only

theorem w_queueWriteBack (w : Nat) (s : State) : Within 268435456 (queueWriteBack w s) := by
  unfold queueWriteBack
  repeat' first
    | exact (rfl : (_ : Nat) = _)
    | exact (rfl : (_ : Bool) = _)
    | with_reducible first
      | exact wNil | refine wIf ?_ ?_ | refine wIfAct ?_ ?_ | refine wCons ?_ ?_ | refine wApp ?_ ?_
    | (simp only [fieldOf]; decide)
    | intro _
    | split
    | extract_lets
    | (refine wRun ?_; split <;> intro _)
    | dsimp only

theorem w_scRead (a len : Nat) (wb : Bool) (s : State) : Within 268435457 (scRead a len wb s) := by
  unfold scRead
  repeat' first
    | exact (rfl : (_ : Nat) = _)
    | exact (rfl : (_ : Bool) = _)
    | with_reducible first
      | exact wNil | exact wSeqNil | refine wSeq ?_ (fun _ => ?_) | refine wWhen ?_ | refine wEach (fun _ _ => ?_)
      | apply Within.mono (w_countWord ..)
      | apply Within.mono (w_queueWriteBack ..)
    | (simp only [fieldOf]; decide)
    | intro _
    | split
    | extract_lets
    | (refine wRun ?_; split <;> intro _)
    | dsimp only

theorem w_storeSkip (ws : List Nat) (a : Nat) (bs : List Byte) (s : State) : Within 2 (storeSkip ws a bs s) := by
  induction bs generalizing a s with
  | nil => exact wNil
  | cons b bs ih => exact wAnd (wIfAct wNop (wUpd (by simp only [fieldOf]; decide))) (fun _ => ih _ _)

theorem w_markGranules (a len : Nat) (s : State) : Within 1048576 (markGranules a len s) := by
  unfold markGranules
  repeat' first
    | exact (rfl : (_ : Nat) = _)
    | exact (rfl : (_ : Bool) = _)
    | with_reducible first
      | exact wNil | refine wCons ?_ ?_
    | (simp only [fieldOf]; decide)
    | intro _
    | split
    | extract_lets
    | (refine wRun ?_; split <;> intro _)
    | dsimp only

theorem w_releaseWatches (a len : Nat) (s : State) : Within 13107200 (releaseWatches a len s) := by
  unfold releaseWatches
  repeat' first
    | exact (rfl : (_ : Nat) = _)
    | exact (rfl : (_ : Bool) = _)
    | with_reducible first
      | exact wNil | refine wIf ?_ ?_ | refine wIfAct ?_ ?_ | refine wCons ?_ ?_ | refine wApp ?_ ?_
    | (simp only [fieldOf]; decide)
    | intro _
    | split
    | extract_lets
    | (refine wRun ?_; split <;> intro _)
    | dsimp only

theorem w_scWrite (a : Nat) (bs : List Byte) (s : State) : Within 349700099 (scWrite a bs s) := by
  unfold scWrite
  repeat' first
    | exact (rfl : (_ : Nat) = _)
    | exact (rfl : (_ : Bool) = _)
    | with_reducible first
      | exact wNil | exact wSeqNil | refine wSeq ?_ (fun _ => ?_) | refine wWhen ?_ | refine wIf ?_ ?_ | refine wIfAct ?_ ?_ | refine wUpd ?_ | refine wCons ?_ ?_ | refine wEach (fun _ _ => ?_)
      | apply Within.mono (w_countWord ..)
      | apply Within.mono (w_markGranules ..)
      | apply Within.mono (w_releaseWatches ..)
      | apply Within.mono (w_storeBytes ..)
      | apply Within.mono (w_storeSkip ..)
    | (simp only [fieldOf]; decide)
    | intro _
    | split
    | extract_lets
    | (refine wRun ?_; split <;> intro _)
    | dsimp only

theorem w_logLine (line code : Nat) (s : State) : Within 13194139533313 (logLine line code s) := by
  unfold logLine
  repeat' first
    | exact (rfl : (_ : Nat) = _)
    | exact (rfl : (_ : Bool) = _)
    | with_reducible first
      | exact wNil | exact wSeqNil | refine wSeq ?_ (fun _ => ?_) | refine wIf ?_ ?_ | refine wIfAct ?_ ?_ | refine wCons ?_ ?_ | refine wApp ?_ ?_
      | apply Within.mono (w_incReg_hi _ _ ?_)
      | apply Within.mono (w_setF_hi _ _ _ ?_)
      | apply Within.mono (w_wr_hi _ _ _ ?_)
    | (simp only [fieldOf]; decide)
    | (show 0x200000200000 ≤ _; (try simp only [DDR_CE_CNT, DDR_CE_LOC, DDR_CE_LOC_DEVICE, DDR_UE_ADDR_HI, DDR_UE_ADDR_LO, DDR_UE_CNT]); (repeat' split) <;> omega)
    | intro _
    | split
    | extract_lets
    | (refine wRun ?_; split <;> intro _)
    | dsimp only

theorem w_dramTouch (a len : Nat) (s : State) : Within 13194273751041 (dramTouch a len s) := by
  unfold dramTouch
  repeat' first
    | exact (rfl : (_ : Nat) = _)
    | exact (rfl : (_ : Bool) = _)
    | with_reducible first
      | exact wNil | exact wSeqNil | refine wSeq ?_ (fun _ => ?_) | refine wWhen ?_ | refine wUpd ?_ | refine wEach (fun _ _ => ?_)
      | apply Within.mono (w_incReg_hi _ _ ?_)
      | apply Within.mono (w_logLine ..)
    | (simp only [fieldOf]; decide)
    | (show 0x200000200000 ≤ _; (try simp only [DDR_WB_CNT]); (repeat' split) <;> omega)
    | intro _
    | split
    | extract_lets
    | (refine wRun ?_; split <;> intro _)
    | dsimp only

theorem w_dramWrite (a : Nat) (bs : List Byte) (s : State) : Within 13194273751043 (dramWrite a bs s) := by
  unfold dramWrite
  repeat' first
    | exact (rfl : (_ : Nat) = _)
    | exact (rfl : (_ : Bool) = _)
    | with_reducible first
      | exact wNil | exact wSeqNil | refine wSeq ?_ (fun _ => ?_) | refine wWhen ?_ | refine wIf ?_ ?_ | refine wIfAct ?_ ?_ | refine wUpd ?_ | refine wEach (fun _ _ => ?_)
      | apply Within.mono (w_logLine ..)
      | apply Within.mono (w_storeBytes ..)
    | (simp only [fieldOf]; decide)
    | intro _
    | split
    | extract_lets
    | (refine wRun ?_; split <;> intro _)
    | dsimp only

theorem w_unitWrite (m : Master) (a : Nat) (bs : List Byte) (s : State) : Within 13197844676611 (unitWrite m a bs s) := by
  unfold unitWrite
  repeat' first
    | exact (rfl : (_ : Nat) = _)
    | exact (rfl : (_ : Bool) = _)
    | with_reducible first
      | exact wNil | refine wIf ?_ ?_ | refine wIfAct ?_ ?_
      | apply Within.mono (w_dramWrite ..)
      | apply Within.mono (w_recordRefusal ..)
      | apply Within.mono (w_refuseDark ..)
      | apply Within.mono (w_scWrite ..)
    | (simp only [fieldOf]; decide)
    | intro _
    | split
    | extract_lets
    | (refine wRun ?_; split <;> intro _)
    | dsimp only

theorem w_unitRead (m : Master) (a len : Nat) (s : State) : Within 13197763411969 (unitRead m a len s) := by
  unfold unitRead
  repeat' first
    | exact (rfl : (_ : Nat) = _)
    | exact (rfl : (_ : Bool) = _)
    | with_reducible first
      | exact wNil | refine wIf ?_ ?_ | refine wIfAct ?_ ?_
      | apply Within.mono (w_dramTouch ..)
      | apply Within.mono (w_recordRefusal ..)
      | apply Within.mono (w_refuseDark ..)
      | apply Within.mono (w_scRead ..)
    | (simp only [fieldOf]; decide)
    | intro _
    | split
    | extract_lets
    | (refine wRun ?_; split <;> intro _)
    | dsimp only

theorem w_signalWord (m : Master) (a pitch inc status source : Nat) (s : State) : Within 13197844676611 (signalWord m a pitch inc status source s) := by
  unfold signalWord
  repeat' first
    | exact (rfl : (_ : Nat) = _)
    | exact (rfl : (_ : Bool) = _)
    | with_reducible first
      | exact wNil
      | apply Within.mono (w_unitWrite ..)
    | (simp only [fieldOf]; decide)
    | intro _
    | split
    | extract_lets
    | (refine wRun ?_; split <;> intro _)
    | dsimp only

theorem w_emit (o : Out) (s : State) : Within 18014398509481984 (emit o s) := by
  unfold emit
  repeat' first
    | exact (rfl : (_ : Nat) = _)
    | exact (rfl : (_ : Bool) = _)
    | with_reducible first
      | exact wNil | refine wCons ?_ ?_ | refine wApp ?_ ?_
    | (simp only [fieldOf]; decide)
    | intro _
    | split
    | extract_lets
    | (refine wRun ?_; split <;> intro _)
    | dsimp only

theorem w_returnRead (m : Master) (a v : Nat) (s : State) : Within 36028797018963968 (returnRead m a v s) := by
  unfold returnRead
  repeat' first
    | exact (rfl : (_ : Nat) = _)
    | exact (rfl : (_ : Bool) = _)
    | with_reducible first
      | exact wNil | refine wCons ?_ ?_
    | (simp only [fieldOf]; decide)
    | intro _
    | split
    | extract_lets
    | (refine wRun ?_; split <;> intro _)
    | dsimp only

theorem w_sendFwd (m : FwdMsg) (s : State) : Within 72057594037927936 (sendFwd m s) := by
  unfold sendFwd
  repeat' first
    | exact (rfl : (_ : Nat) = _)
    | exact (rfl : (_ : Bool) = _)
    | with_reducible first
      | exact wNil | refine wCons ?_ ?_ | refine wApp ?_ ?_
    | (simp only [fieldOf]; decide)
    | intro _
    | split
    | extract_lets
    | (refine wRun ?_; split <;> intro _)
    | dsimp only

theorem w_sendEvent (kind : Nat) (data : List Nat) (node unit : Nat) (s : State) : Within 72057594037927936 (sendEvent kind data node unit s) := by
  unfold sendEvent
  repeat' first
    | exact (rfl : (_ : Nat) = _)
    | exact (rfl : (_ : Bool) = _)
    | with_reducible first
      | exact wNil
      | apply Within.mono (w_sendFwd ..)
    | (simp only [fieldOf]; decide)
    | intro _
    | split
    | extract_lets
    | (refine wRun ?_; split <;> intro _)
    | dsimp only

theorem w_sramStore (x off : Nat) (bs : List Byte) (s : State) : Within 4 (sramStore x off bs s) := by
  induction bs generalizing off s with
  | nil => exact wNil
  | cons b bs ih => exact wAnd (wUpd (by simp only [fieldOf]; decide)) (fun _ => ih _ _)

theorem w_ancLog (x code node unit : Nat) (data : List Byte) (s : State) : Within 5 (ancLog x code node unit data s) := by
  unfold ancLog
  repeat' first
    | exact (rfl : (_ : Nat) = _)
    | exact (rfl : (_ : Bool) = _)
    | with_reducible first
      | exact wNil | exact wSeqNil | refine wSeq ?_ (fun _ => ?_) | refine wApp ?_ ?_
      | apply Within.mono (w_sramStore ..)
      | apply Within.mono (w_wr_hi _ _ _ ?_)
    | (simp only [fieldOf]; decide)
    | (show 0x200000200000 ≤ _; (try simp only [ANC_LOG_HEAD, ancBase]); (repeat' split) <;> omega)
    | intro _
    | split
    | extract_lets
    | (refine wRun ?_; split <;> intro _)
    | dsimp only

theorem w_ancLogB (x code : Nat) (data : List Nat) (s : State) : Within 5 (ancLogB x code data s) := by
  unfold ancLogB
  repeat' first
    | exact (rfl : (_ : Nat) = _)
    | exact (rfl : (_ : Bool) = _)
    | with_reducible first
      | exact wNil
      | apply Within.mono (w_ancLog ..)
    | (simp only [fieldOf]; decide)
    | intro _
    | split
    | extract_lets
    | (refine wRun ?_; split <;> intro _)
    | dsimp only

theorem w_icuPend (n : Nat) (s : State) : Within 1 (icuPend n s) := by
  unfold icuPend
  repeat' first
    | exact (rfl : (_ : Nat) = _)
    | exact (rfl : (_ : Bool) = _)
    | with_reducible first
      | exact wNil
      | apply Within.mono (w_setF_hi _ _ _ ?_)
    | (simp only [fieldOf]; decide)
    | (show 0x200000200000 ≤ _; (try simp only [ICU_SRC_CFG, ICU_SRC_CFG_PEND]); (repeat' split) <;> omega)
    | intro _
    | split
    | extract_lets
    | (refine wRun ?_; split <;> intro _)
    | dsimp only

theorem w_icuClaim (m : Master) (u : Nat) (s : State) : Within 36028797018963969 (icuClaim m u s) := by
  unfold icuClaim
  repeat' first
    | exact (rfl : (_ : Nat) = _)
    | exact (rfl : (_ : Bool) = _)
    | with_reducible first
      | exact wNil | exact wSeqNil | refine wSeq ?_ (fun _ => ?_)
      | apply Within.mono (w_returnRead ..)
      | apply Within.mono (w_setF_hi _ _ _ ?_)
    | (simp only [fieldOf]; decide)
    | (show 0x200000200000 ≤ _; (try simp only [ICU_CLAIM, ICU_SRC_CFG, ICU_SRC_CFG_INSRV, ICU_SRC_CFG_PEND]); (repeat' split) <;> omega)
    | intro _
    | split
    | extract_lets
    | (refine wRun ?_; split <;> intro _)
    | dsimp only

theorem w_guarded {T : Nat} {ok : Bool} {m : Master} {a : Nat} {act : Act} {s : State} (hT : 3221225472 ||| T = T)
    (h : ∀ t, Within T (act t)) : Within T (guarded ok m a act s) := by
  unfold guarded
  repeat' first
    | exact (rfl : (_ : Nat) = _)
    | exact (rfl : (_ : Bool) = _)
    | with_reducible first
      | exact wNil | refine wIf ?_ ?_ | refine wIfAct ?_ ?_
      | exact h _
      | exact h _ _
      | exact hT
      | refine Within.mono (T := 3221225472) ?_ hT; apply Within.mono (w_recordRefusal ..)
    | (simp only [fieldOf]; decide)
    | intro _
    | split
    | extract_lets
    | (refine wRun ?_; split <;> intro _)
    | dsimp only

theorem w_icuComplete (n : Nat) (s : State) : Within 1 (icuComplete n s) := by
  unfold icuComplete
  repeat' first
    | exact (rfl : (_ : Nat) = _)
    | exact (rfl : (_ : Bool) = _)
    | with_reducible first
      | exact wNil | refine wWhen ?_
      | apply Within.mono (w_setF_hi _ _ _ ?_)
    | (simp only [fieldOf]; decide)
    | (show 0x200000200000 ≤ _; (try simp only [ICU_SRC_CFG, ICU_SRC_CFG_INSRV]); (repeat' split) <;> omega)
    | intro _
    | split
    | extract_lets
    | (refine wRun ?_; split <;> intro _)
    | dsimp only

theorem w_icuMsg (v : Nat) (s : State) : Within 1 (icuMsg v s) := by
  unfold icuMsg
  repeat' first
    | exact (rfl : (_ : Nat) = _)
    | exact (rfl : (_ : Bool) = _)
    | with_reducible first
      | exact wNil | refine wIf ?_ ?_ | refine wIfAct ?_ ?_
      | apply Within.mono (w_icuPend ..)
      | apply Within.mono (w_incReg_hi _ _ ?_)
    | (simp only [fieldOf]; decide)
    | (show 0x200000200000 ≤ _; (try simp only [ICU_MSG_IGN_CNT]); (repeat' split) <;> omega)
    | intro _
    | split
    | extract_lets
    | (refine wRun ?_; split <;> intro _)
    | dsimp only

theorem ethRing_hi (m r : Nat) : 0x200000200000 ≤ (ethRing m r).head.addr ∧ 0x200000200000 ≤ (ethRing m r).tail.addr ∧ 0x200000200000 ≤ (ethRing m r).ign.addr := by
  unfold ethRing
  split <;> (simp only [ETH_RXQ_PTR, ETH_RXQ_PTR_HEAD, ETH_RXQ_PTR_TAIL, ETH_STAT, ETH_STAT_PTR_IGN, ETH_TXQ0_PTR, ETH_TXQ0_PTR_HEAD, ETH_TXQ0_PTR_TAIL, ETH_TXQ1_PTR, ETH_TXQ1_PTR_HEAD, ETH_TXQ1_PTR_TAIL]; omega)
theorem w_ringAdvance (r : Ring) (s : State) (h : 0x200000200000 ≤ r.head.addr) : Within 1 (ringAdvance r s) := w_setF_hi _ _ _ h

theorem w_ringTail (r : Ring) (ok : Bool) (t : Nat) (s : State) (h : 0x200000200000 ≤ r.tail.addr) (k : 0x200000200000 ≤ r.ign.addr) :
    Within 1 (ringTail r ok t s) := by
  unfold ringTail
  split
  · exact w_setF_hi _ _ _ h
  · exact w_setF_hi _ _ _ k

theorem w_ethStoreFrame (m at_ : Nat) (f : List Byte) (s : State) : Within 13197844676611 (ethStoreFrame m at_ f s) := by
  unfold ethStoreFrame
  repeat' first
    | exact (rfl : (_ : Nat) = _)
    | exact (rfl : (_ : Bool) = _)
    | with_reducible first
      | exact wNil | exact wSeqNil | refine wSeq ?_ (fun _ => ?_) | refine wIf ?_ ?_ | refine wIfAct ?_ ?_ | refine wApp ?_ ?_
      | apply Within.mono (w_icuPend ..)
      | apply Within.mono (w_incReg_hi _ _ ?_)
      | apply Within.mono (w_ringAdvance _ _ ?_)
      | apply Within.mono (w_unitWrite ..)
    | (simp only [fieldOf]; decide)
    | (first | exact (ethRing_hi _ _).1 | exact (ethRing_hi _ _).2.1 | exact (ethRing_hi _ _).2.2 | exact (canRing_hi _ _).1 | exact (canRing_hi _ _).2.1 | exact (canRing_hi _ _).2.2)
    | (show 0x200000200000 ≤ _; (try simp only [ETH_RXQ_CFG, ETH_RXQ_CFG_BUF, ETH_RX_CNT, ETH_RX_DROP_CNT]); (repeat' split) <;> omega)
    | intro _
    | split
    | extract_lets
    | (refine wRun ?_; split <;> intro _)
    | dsimp only

theorem w_ethTail (m r t : Nat) (s : State) : Within 288230376151711745 (ethTail m r t s) := by
  unfold ethTail
  repeat' first
    | exact (rfl : (_ : Nat) = _)
    | exact (rfl : (_ : Bool) = _)
    | with_reducible first
      | exact wNil | exact wSeqNil | refine wSeq ?_ (fun _ => ?_) | refine wWhen ?_ | refine wUpd ?_
      | apply Within.mono (w_ringTail _ _ _ _ ?_ ?_)
    | (simp only [fieldOf]; decide)
    | (first | exact (ethRing_hi _ _).1 | exact (ethRing_hi _ _).2.1 | exact (ethRing_hi _ _).2.2 | exact (canRing_hi _ _).1 | exact (canRing_hi _ _).2.1 | exact (canRing_hi _ _).2.2)
    | intro _
    | split
    | extract_lets
    | (refine wRun ?_; split <;> intro _)
    | dsimp only

theorem w_ethCw (m q status : Nat) (s : State) : Within 13197844676611 (ethCw m q status s) := by
  unfold ethCw
  repeat' first
    | exact (rfl : (_ : Nat) = _)
    | exact (rfl : (_ : Bool) = _)
    | with_reducible first
      | exact wNil | refine wIf ?_ ?_ | refine wIfAct ?_ ?_
      | apply Within.mono (w_signalWord ..)
    | (simp only [fieldOf]; decide)
    | intro _
    | split
    | extract_lets
    | (refine wRun ?_; split <;> intro _)
    | dsimp only

theorem w_ethEnd (m q status : Nat) (time : Option Nat) (s : State) : Within 288243573996388355 (ethEnd m q status time s) := by
  unfold ethEnd
  repeat' first
    | exact (rfl : (_ : Nat) = _)
    | exact (rfl : (_ : Bool) = _)
    | with_reducible first
      | exact wNil | exact wNop | exact wSeqNil | refine wSeq ?_ (fun _ => ?_) | refine wWhen ?_ | refine wIf ?_ ?_ | refine wIfAct ?_ ?_ | refine wCons ?_ ?_
      | apply Within.mono (w_ethCw ..)
      | apply Within.mono (w_icuPend ..)
      | apply Within.mono (w_incReg_hi _ _ ?_)
      | apply Within.mono (w_ringAdvance _ _ ?_)
      | apply Within.mono (w_unitWrite ..)
    | (simp only [fieldOf]; decide)
    | (first | exact (ethRing_hi _ _).1 | exact (ethRing_hi _ _).2.1 | exact (ethRing_hi _ _).2.2 | exact (canRing_hi _ _).1 | exact (canRing_hi _ _).2.1 | exact (canRing_hi _ _).2.2)
    | (show 0x200000200000 ≤ _; (try simp only [ETH_TX_LATE_CNT]); (repeat' split) <;> omega)
    | intro _
    | split
    | extract_lets
    | (refine wRun ?_; split <;> intro _)
    | dsimp only

theorem w_ethEnable (m : Nat) (v : Bool) (s : State) : Within 1 (ethEnable m v s) := by
  unfold ethEnable
  repeat' first
    | exact (rfl : (_ : Nat) = _)
    | exact (rfl : (_ : Bool) = _)
    | with_reducible first
      | exact wNil
      | apply Within.mono (w_writeEnable _ _ _ _ ?_ ?_)
    | (simp only [fieldOf]; decide)
    | (show 0x200000200000 ≤ _; (try simp only [ETH_CTL, ETH_CTL_EN, ETH_STAT, ETH_STAT_STATE]); (repeat' split) <;> omega)
    | intro _
    | split
    | extract_lets
    | (refine wRun ?_; split <;> intro _)
    | dsimp only

theorem w_ethAbort (m q n : Nat) (s : State) : Within 288243573996388355 (ethAbort m q n s) := by
  induction n generalizing s with
  | zero => exact wNil
  | succ n ih => exact wIf wNil (wSeq (Within.mono (w_ethEnd _ _ _ _ _ ) rfl) (fun _ => wSeq (ih _) (fun _ => wSeqNil)))

theorem w_ethDrainTimeout (m : Nat) (s : State) : Within 432358762072244227 (ethDrainTimeout m s) := by
  unfold ethDrainTimeout
  repeat' first
    | exact (rfl : (_ : Nat) = _)
    | exact (rfl : (_ : Bool) = _)
    | with_reducible first
      | exact wNil | exact wSeqNil | refine wSeq ?_ (fun _ => ?_) | refine wUpd ?_
      | apply Within.mono (w_endDrain _ _ _ ?_)
      | apply Within.mono (w_ethAbort ..)
    | (simp only [fieldOf]; decide)
    | (show 0x200000200000 ≤ _; (try simp only [ETH_CTL, ETH_CTL_EN, ETH_STAT, ETH_STAT_STATE]); (repeat' split) <;> omega)
    | intro _
    | split
    | extract_lets
    | (refine wRun ?_; split <;> intro _)
    | dsimp only

theorem canRing_hi (m r : Nat) : 0x200000200000 ≤ (canRing m r).head.addr ∧ 0x200000200000 ≤ (canRing m r).tail.addr ∧ 0x200000200000 ≤ (canRing m r).ign.addr := by
  unfold canRing
  split <;> (simp only [CAN_RXQ_PTR, CAN_RXQ_PTR_HEAD, CAN_RXQ_PTR_TAIL, CAN_STAT, CAN_STAT_PTR_IGN, CAN_TXQ0_PTR, CAN_TXQ0_PTR_HEAD, CAN_TXQ0_PTR_TAIL, CAN_TXQ1_PTR, CAN_TXQ1_PTR_HEAD, CAN_TXQ1_PTR_TAIL]; omega)

theorem w_canErrState (k : Nat) (s : State) : Within 1 (canErrState k s) := by
  unfold canErrState
  repeat' first
    | exact (rfl : (_ : Nat) = _)
    | exact (rfl : (_ : Bool) = _)
    | with_reducible first
      | exact wNil | refine wIf ?_ ?_ | refine wIfAct ?_ ?_
      | apply Within.mono (w_setF_hi _ _ _ ?_)
    | (simp only [fieldOf]; decide)
    | (show 0x200000200000 ≤ _; (try simp only [CAN_STAT, CAN_STAT_ERR, CAN_STAT_REC, CAN_STAT_TEC]); (repeat' split) <;> omega)
    | intro _
    | split
    | extract_lets
    | (refine wRun ?_; split <;> intro _)
    | dsimp only

theorem w_canStore (k at_ idw flags len : Nat) (data : List Byte) (s : State) : Within 13197844676611 (canStore k at_ idw flags len data s) := by
  unfold canStore
  repeat' first
    | exact (rfl : (_ : Nat) = _)
    | exact (rfl : (_ : Bool) = _)
    | with_reducible first
      | exact wNil | exact wSeqNil | refine wSeq ?_ (fun _ => ?_) | refine wIf ?_ ?_ | refine wIfAct ?_ ?_ | refine wApp ?_ ?_
      | apply Within.mono (w_icuPend ..)
      | apply Within.mono (w_incReg_hi _ _ ?_)
      | apply Within.mono (w_ringAdvance _ _ ?_)
      | apply Within.mono (w_unitWrite ..)
    | (simp only [fieldOf]; decide)
    | (first | exact (ethRing_hi _ _).1 | exact (ethRing_hi _ _).2.1 | exact (ethRing_hi _ _).2.2 | exact (canRing_hi _ _).1 | exact (canRing_hi _ _).2.1 | exact (canRing_hi _ _).2.2)
    | (show 0x200000200000 ≤ _; (try simp only [CAN_RX_CNT, CAN_RX_DROP_CNT]); (repeat' split) <;> omega)
    | intro _
    | split
    | extract_lets
    | (refine wRun ?_; split <;> intro _)
    | dsimp only

theorem w_canReceive (k at_ idw flags len : Nat) (data : List Byte) (s : State) : Within 73786989492682883075 (canReceive k at_ idw flags len data s) := by
  unfold canReceive
  repeat' first
    | exact (rfl : (_ : Nat) = _)
    | exact (rfl : (_ : Bool) = _)
    | with_reducible first
      | exact wNil | exact wSeqNil | refine wSeq ?_ (fun _ => ?_) | refine wIf ?_ ?_ | refine wIfAct ?_ ?_ | refine wCons ?_ ?_ | refine wApp ?_ ?_
      | apply Within.mono (w_canErrState ..)
      | apply Within.mono (w_canStore ..)
      | apply Within.mono (w_setF_hi _ _ _ ?_)
    | (simp only [fieldOf]; decide)
    | (show 0x200000200000 ≤ _; (try simp only [CAN_STAT, CAN_STAT_REC]); (repeat' split) <;> omega)
    | intro _
    | split
    | extract_lets
    | (refine wRun ?_; split <;> intro _)
    | dsimp only

theorem w_canTail (k r t : Nat) (s : State) : Within 1 (canTail k r t s) := by
  unfold canTail
  repeat' first
    | exact (rfl : (_ : Nat) = _)
    | exact (rfl : (_ : Bool) = _)
    | with_reducible first
      | exact wNil
      | apply Within.mono (w_ringTail _ _ _ _ ?_ ?_)
    | (simp only [fieldOf]; decide)
    | (first | exact (ethRing_hi _ _).1 | exact (ethRing_hi _ _).2.1 | exact (ethRing_hi _ _).2.2 | exact (canRing_hi _ _).1 | exact (canRing_hi _ _).2.1 | exact (canRing_hi _ _).2.2)
    | intro _
    | split
    | extract_lets
    | (refine wRun ?_; split <;> intro _)
    | dsimp only

theorem w_canCw (k q status : Nat) (s : State) : Within 13197844676611 (canCw k q status s) := by
  unfold canCw
  repeat' first
    | exact (rfl : (_ : Nat) = _)
    | exact (rfl : (_ : Bool) = _)
    | with_reducible first
      | exact wNil | refine wIf ?_ ?_ | refine wIfAct ?_ ?_
      | apply Within.mono (w_signalWord ..)
    | (simp only [fieldOf]; decide)
    | intro _
    | split
    | extract_lets
    | (refine wRun ?_; split <;> intro _)
    | dsimp only

theorem w_canEnd (k q status : Nat) (time : Option Nat) (s : State) : Within 576473950148100099 (canEnd k q status time s) := by
  unfold canEnd
  repeat' first
    | exact (rfl : (_ : Nat) = _)
    | exact (rfl : (_ : Bool) = _)
    | with_reducible first
      | exact wNil | exact wNop | exact wSeqNil | refine wSeq ?_ (fun _ => ?_) | refine wWhen ?_ | refine wIf ?_ ?_ | refine wIfAct ?_ ?_ | refine wUpd ?_
      | apply Within.mono (w_canCw ..)
      | apply Within.mono (w_icuPend ..)
      | apply Within.mono (w_incReg_hi _ _ ?_)
      | apply Within.mono (w_ringAdvance _ _ ?_)
      | apply Within.mono (w_unitWrite ..)
    | (simp only [fieldOf]; decide)
    | (first | exact (ethRing_hi _ _).1 | exact (ethRing_hi _ _).2.1 | exact (ethRing_hi _ _).2.2 | exact (canRing_hi _ _).1 | exact (canRing_hi _ _).2.1 | exact (canRing_hi _ _).2.2)
    | (show 0x200000200000 ≤ _; (try simp only [CAN_TX_LATE_CNT]); (repeat' split) <;> omega)
    | intro _
    | split
    | extract_lets
    | (refine wRun ?_; split <;> intro _)
    | dsimp only

theorem w_canRejoin (k : Nat) (s : State) : Within 1 (canRejoin k s) := by
  unfold canRejoin
  repeat' first
    | exact (rfl : (_ : Nat) = _)
    | exact (rfl : (_ : Bool) = _)
    | with_reducible first
      | exact wNil | exact wSeqNil | refine wSeq ?_ (fun _ => ?_)
      | apply Within.mono (w_setF_hi _ _ _ ?_)
    | (simp only [fieldOf]; decide)
    | (show 0x200000200000 ≤ _; (try simp only [CAN_STAT, CAN_STAT_ERR, CAN_STAT_REC, CAN_STAT_TEC]); (repeat' split) <;> omega)
    | intro _
    | split
    | extract_lets
    | (refine wRun ?_; split <;> intro _)
    | dsimp only

theorem w_canEnable (k : Nat) (v : Bool) (s : State) : Within 1 (canEnable k v s) := by
  unfold canEnable
  repeat' first
    | exact (rfl : (_ : Nat) = _)
    | exact (rfl : (_ : Bool) = _)
    | with_reducible first
      | exact wNil | exact wSeqNil | refine wSeq ?_ (fun _ => ?_) | refine wWhen ?_
      | apply Within.mono (w_canRejoin ..)
      | apply Within.mono (w_writeEnable _ _ _ _ ?_ ?_)
    | (simp only [fieldOf]; decide)
    | (show 0x200000200000 ≤ _; (try simp only [CAN_CTL, CAN_CTL_EN, CAN_STAT, CAN_STAT_STATE]); (repeat' split) <;> omega)
    | intro _
    | split
    | extract_lets
    | (refine wRun ?_; split <;> intro _)
    | dsimp only

theorem w_canAbort (k q n : Nat) (s : State) : Within 576473950148100099 (canAbort k q n s) := by
  induction n generalizing s with
  | zero => exact wNil
  | succ n ih => exact wIf wNil (wSeq (Within.mono (w_canEnd _ _ _ _ _ ) rfl) (fun _ => wSeq (ih _) (fun _ => wSeqNil)))

theorem w_canDrainTimeout (k : Nat) (s : State) : Within 576473950148100099 (canDrainTimeout k s) := by
  unfold canDrainTimeout
  repeat' first
    | exact (rfl : (_ : Nat) = _)
    | exact (rfl : (_ : Bool) = _)
    | with_reducible first
      | exact wNil | exact wSeqNil | refine wSeq ?_ (fun _ => ?_)
      | apply Within.mono (w_canAbort ..)
      | apply Within.mono (w_endDrain _ _ _ ?_)
    | (simp only [fieldOf]; decide)
    | (show 0x200000200000 ≤ _; (try simp only [CAN_CTL, CAN_CTL_EN, CAN_STAT, CAN_STAT_STATE]); (repeat' split) <;> omega)
    | intro _
    | split
    | extract_lets
    | (refine wRun ?_; split <;> intro _)
    | dsimp only

theorem w_spiStart (k : Nat) (s : State) : Within 18014398509481985 (spiStart k s) := by
  unfold spiStart
  repeat' first
    | exact (rfl : (_ : Nat) = _)
    | exact (rfl : (_ : Bool) = _)
    | with_reducible first
      | exact wNil | exact wSeqNil | refine wSeq ?_ (fun _ => ?_)
      | apply Within.mono (w_emit ..)
      | apply Within.mono (w_setF_hi _ _ _ ?_)
    | (simp only [fieldOf]; decide)
    | (show 0x200000200000 ≤ _; (try simp only [SPI_CMD, SPI_CMD_TX_LEN, SPI_STAT, SPI_STAT_BUSY, SPI_STAT_HELD, SPI_TXD]); (repeat' split) <;> omega)
    | intro _
    | split
    | extract_lets
    | (refine wRun ?_; split <;> intro _)
    | dsimp only

theorem w_spiGo (k w now : Nat) (s : State) : Within 18014398509481985 (spiGo k w now s) := by
  unfold spiGo
  repeat' first
    | exact (rfl : (_ : Nat) = _)
    | exact (rfl : (_ : Bool) = _)
    | with_reducible first
      | exact wNil | exact wSeqNil | refine wSeq ?_ (fun _ => ?_) | refine wIf ?_ ?_ | refine wIfAct ?_ ?_
      | apply Within.mono (w_setF_hi _ _ _ ?_)
      | apply Within.mono (w_spiStart ..)
    | (simp only [fieldOf]; decide)
    | (show 0x200000200000 ≤ _; (try simp only [PCH_CFG, PCH_CFG_RUN, SPI_CMD, SPI_CMD_RX_LEN, SPI_CMD_TX_LEN, SPI_STAT, SPI_STAT_BUSY, SPI_STAT_HELD, SPI_STAT_IGN, SPI_STEP, SPI_STEP_EN]); (repeat' split) <;> omega)
    | intro _
    | split
    | extract_lets
    | (refine wRun ?_; split <;> intro _)
    | dsimp only

theorem w_i2cGo (k w : Nat) (s : State) : Within 18014398509481985 (i2cGo k w s) := by
  unfold i2cGo
  repeat' first
    | exact (rfl : (_ : Nat) = _)
    | exact (rfl : (_ : Bool) = _)
    | with_reducible first
      | exact wNil | exact wSeqNil | refine wSeq ?_ (fun _ => ?_) | refine wIf ?_ ?_ | refine wIfAct ?_ ?_
      | apply Within.mono (w_emit ..)
      | apply Within.mono (w_setF_hi _ _ _ ?_)
    | (simp only [fieldOf]; decide)
    | (show 0x200000200000 ≤ _; (try simp only [I2C_CMD, I2C_CMD_ADDR, I2C_CMD_RD_LEN, I2C_CMD_WR_LEN, I2C_DATA, I2C_STAT, I2C_STAT_BUSY, I2C_STAT_IGN]); (repeat' split) <;> omega)
    | intro _
    | split
    | extract_lets
    | (refine wRun ?_; split <;> intro _)
    | dsimp only

theorem w_i2cEnd (k result nack : Nat) (data : List Byte) (s : State) : Within 1 (i2cEnd k result nack data s) := by
  unfold i2cEnd
  repeat' first
    | exact (rfl : (_ : Nat) = _)
    | exact (rfl : (_ : Bool) = _)
    | with_reducible first
      | exact wNil | exact wSeqNil | refine wSeq ?_ (fun _ => ?_) | refine wWhen ?_ | refine wIf ?_ ?_ | refine wIfAct ?_ ?_ | refine wApp ?_ ?_ | refine wEach (fun _ _ => ?_)
      | apply Within.mono (w_icuPend ..)
      | apply Within.mono (w_setF_hi _ _ _ ?_)
      | apply Within.mono (w_wr_hi _ _ _ ?_)
    | (simp only [fieldOf]; decide)
    | (show 0x200000200000 ≤ _; (try simp only [I2C_CMD, I2C_CMD_RD_LEN, I2C_DATA, I2C_STAT, I2C_STAT_BUSY, I2C_STAT_DONE, I2C_STAT_NACK_BYTE, I2C_STAT_RESULT]); (repeat' split) <;> omega)
    | intro _
    | split
    | extract_lets
    | (refine wRun ?_; split <;> intro _)
    | dsimp only

theorem w_setCtx (x : Nat) (f : Ctx → Ctx) (s : State) : Within 1180591620717411303424 (setCtx x f s) := by
  unfold setCtx
  repeat' first
    | exact (rfl : (_ : Nat) = _)
    | exact (rfl : (_ : Bool) = _)
    | with_reducible first
      | exact wNil | refine wCons ?_ ?_
    | (simp only [fieldOf]; decide)
    | intro _
    | split
    | extract_lets
    | (refine wRun ?_; split <;> intro _)
    | dsimp only

theorem w_setCur (x : Nat) (f : Sample → Sample) (s : State) : Within 1180591620717411303424 (setCur x f s) := by
  unfold setCur
  repeat' first
    | exact (rfl : (_ : Nat) = _)
    | exact (rfl : (_ : Bool) = _)
    | with_reducible first
      | exact wNil
      | apply Within.mono (w_setCtx ..)
    | (simp only [fieldOf]; decide)
    | intro _
    | split
    | extract_lets
    | (refine wRun ?_; split <;> intro _)
    | dsimp only

theorem w_stateMsg (x which v : Nat) (s : State) : Within 72057594037927936 (stateMsg x which v s) := by
  unfold stateMsg
  repeat' first
    | exact (rfl : (_ : Nat) = _)
    | exact (rfl : (_ : Bool) = _)
    | with_reducible first
      | exact wNil
      | apply Within.mono (w_sendEvent ..)
    | (simp only [fieldOf]; decide)
    | intro _
    | split
    | extract_lets
    | (refine wRun ?_; split <;> intro _)
    | dsimp only

theorem w_reportTask (owner : Nat) (s : State) : Within 72057594037927936 (reportTask owner s) := by
  unfold reportTask
  repeat' first
    | exact (rfl : (_ : Nat) = _)
    | exact (rfl : (_ : Bool) = _)
    | with_reducible first
      | exact wNil
      | apply Within.mono (w_sendFwd ..)
    | (simp only [fieldOf]; decide)
    | intro _
    | split
    | extract_lets
    | (refine wRun ?_; split <;> intro _)
    | dsimp only

theorem w_enterRelock (x : Nat) (s : State) : Within 3541846919746271838209 (enterRelock x s) := by
  unfold enterRelock
  repeat' first
    | exact (rfl : (_ : Nat) = _)
    | exact (rfl : (_ : Bool) = _)
    | with_reducible first
      | exact wNil | exact wSeqNil | refine wSeq ?_ (fun _ => ?_) | refine wWhen ?_ | refine wUpd ?_
      | apply Within.mono (w_incReg_hi _ _ ?_)
      | apply Within.mono (w_setCtx ..)
      | apply Within.mono (w_setF_hi _ _ _ ?_)
      | apply Within.mono (w_stateMsg ..)
    | (simp only [fieldOf]; decide)
    | (show 0x200000200000 ≤ _; (try simp only [ING_CTX_RELOCK_CNT, ING_CTX_STAT, ING_CTX_STAT_LOCKED, ING_CTX_STAT_RELOCK_PITCHES]); (repeat' split) <;> omega)
    | intro _
    | split
    | extract_lets
    | (refine wRun ?_; split <;> intro _)
    | dsimp only

theorem w_signature {T : Nat} {x g : Nat} {mark : Bool → Act} {s : State} (hT : 1180663678311449231361 ||| T = T)
    (h : ∀ r t, Within T (mark r t)) : Within T (signature x g mark s) := by
  unfold signature
  repeat' first
    | exact (rfl : (_ : Nat) = _)
    | exact (rfl : (_ : Bool) = _)
    | with_reducible first
      | exact wNil | exact wSeqNil | refine wSeq ?_ (fun _ => ?_) | refine wWhen ?_ | refine wIf ?_ ?_ | refine wIfAct ?_ ?_ | refine wCons ?_ ?_
      | exact h _
      | exact h _ _
      | exact hT
      | refine Within.mono (T := 1180663678311449231361) ?_ hT; apply Within.mono (w_incReg_hi _ _ ?_)
      | refine Within.mono (T := 1180663678311449231361) ?_ hT; apply Within.mono (w_setCtx ..)
      | refine Within.mono (T := 1180663678311449231361) ?_ hT; apply Within.mono (w_setF_hi _ _ _ ?_)
      | refine Within.mono (T := 1180663678311449231361) ?_ hT; apply Within.mono (w_stateMsg ..)
      | refine Within.mono (T := 1180663678311449231361) ?_ hT; apply Within.mono (w_wr64_hi _ _ _ ?_)
    | (simp only [fieldOf]; decide)
    | (show 0x200000200000 ≤ _; (try simp only [ING_CTX_RPT_CNT, ING_CTX_SIG, ING_CTX_SIG_LO, ING_CTX_STAT, ING_CTX_STAT_FROZEN]); (repeat' split) <;> omega)
    | intro _
    | split
    | extract_lets
    | (refine wRun ?_; split <;> intro _)
    | dsimp only

theorem w_spotCopy (x m status inst : Nat) (data : List Byte) (s : State) : Within 72057594037927936 (spotCopy x m status inst data s) := by
  unfold spotCopy
  repeat' first
    | exact (rfl : (_ : Nat) = _)
    | exact (rfl : (_ : Bool) = _)
    | with_reducible first
      | exact wNil | refine wIf ?_ ?_ | refine wIfAct ?_ ?_ | refine wApp ?_ ?_
      | apply Within.mono (w_sendFwd ..)
    | (simp only [fieldOf]; decide)
    | intro _
    | split
    | extract_lets
    | (refine wRun ?_; split <;> intro _)
    | dsimp only

theorem w_finalCommon (x m status k inst : Nat) (spot : List Byte) (s : State) : Within 1180663691509293907971 (finalCommon x m status k inst spot s) := by
  unfold finalCommon
  repeat' first
    | exact (rfl : (_ : Nat) = _)
    | exact (rfl : (_ : Bool) = _)
    | with_reducible first
      | exact wNil | exact wSeqNil | refine wSeq ?_ (fun _ => ?_) | refine wWhen ?_ | refine wIf ?_ ?_ | refine wIfAct ?_ ?_
      | apply Within.mono (w_incReg_hi _ _ ?_)
      | apply Within.mono (w_reportTask ..)
      | apply Within.mono (w_setCtx ..)
      | apply Within.mono (w_signalWord ..)
      | apply Within.mono (w_spotCopy ..)
      | apply Within.mono (w_wr_hi _ _ _ ?_)
    | (simp only [fieldOf]; decide)
    | (show 0x200000200000 ≤ _; (try simp only [ING_CTX_EXCL_CNT, ING_CTX_LAST, ING_CTX_OK_CNT]); (repeat' split) <;> omega)
    | intro _
    | split
    | extract_lets
    | (refine wRun ?_; split <;> intro _)
    | dsimp only

theorem w_finalSample (x : Nat) (sm : Sample) (status : Nat) (s : State) : Within 1180663691509293907971 (finalSample x sm status s) := by
  unfold finalSample
  repeat' first
    | exact (rfl : (_ : Nat) = _)
    | exact (rfl : (_ : Bool) = _)
    | with_reducible first
      | exact wNil | exact wSeqNil | refine wSeq ?_ (fun _ => ?_) | refine wWhen ?_
      | apply Within.mono (w_finalCommon ..)
      | apply Within.mono (w_unitWrite ..)
      | apply Within.mono (w_wr64_hi _ _ _ ?_)
    | (simp only [fieldOf]; decide)
    | (show 0x200000200000 ≤ _; (try simp only [ING_CTX_STAMP, ING_CTX_STAMP_LO]); (repeat' split) <;> omega)
    | intro _
    | split
    | extract_lets
    | (refine wRun ?_; split <;> intro _)
    | dsimp only

theorem w_writeRuns (x base : Nat) (runs : List (Nat × List Byte)) (s : State) : Within 1180591633915255980035 (writeRuns x base runs s) := by
  unfold writeRuns
  repeat' first
    | exact (rfl : (_ : Nat) = _)
    | exact (rfl : (_ : Bool) = _)
    | with_reducible first
      | exact wNil | exact wSeqNil | refine wSeq ?_ (fun _ => ?_) | refine wWhen ?_ | refine wIf ?_ ?_ | refine wIfAct ?_ ?_ | refine wEach (fun _ _ => ?_)
      | apply Within.mono (w_setCur ..)
      | apply Within.mono (w_unitWrite ..)
    | (simp only [fieldOf]; decide)
    | intro _
    | split
    | extract_lets
    | (refine wRun ?_; split <;> intro _)
    | dsimp only

theorem w_ctxStart (x : Nat) (s : State) : Within 1180591620717411303425 (ctxStart x s) := by
  unfold ctxStart
  repeat' first
    | exact (rfl : (_ : Nat) = _)
    | exact (rfl : (_ : Bool) = _)
    | with_reducible first
      | exact wNil | exact wSeqNil | refine wSeq ?_ (fun _ => ?_)
      | apply Within.mono (w_setCtx ..)
      | apply Within.mono (w_setF_hi _ _ _ ?_)
      | apply Within.mono (w_wr_hi _ _ _ ?_)
    | (simp only [fieldOf]; decide)
    | (show 0x200000200000 ≤ _; (try simp only [ING_CTX_STAT, ING_CTX_STAT_FROZEN, ING_CTX_STAT_LOCKED, ING_CTX_STAT_RELOCK_PITCHES, ING_CTX_STAT_RUN, ING_CTX_STAT_STATE, ING_STAT]); (repeat' split) <;> omega)
    | intro _
    | split
    | extract_lets
    | (refine wRun ?_; split <;> intro _)
    | dsimp only

theorem w_ctxDisable (x : Nat) (s : State) : Within 1 (ctxDisable x s) := by
  unfold ctxDisable
  repeat' first
    | exact (rfl : (_ : Nat) = _)
    | exact (rfl : (_ : Bool) = _)
    | with_reducible first
      | exact wNil | exact wSeqNil | refine wSeq ?_ (fun _ => ?_) | refine wWhen ?_
      | apply Within.mono (w_setF_hi _ _ _ ?_)
      | apply Within.mono (w_wr_hi _ _ _ ?_)
    | (simp only [fieldOf]; decide)
    | (show 0x200000200000 ≤ _; (try simp only [ING_CTX_CTL, ING_CTX_CTL_EN, ING_CTX_STAT, ING_CTX_STAT_STATE, ING_STAT]); (repeat' split) <;> omega)
    | intro _
    | split
    | extract_lets
    | (refine wRun ?_; split <;> intro _)
    | dsimp only

theorem w_ctxEnable (x : Nat) (s : State) : Within 1 (ctxEnable x s) := by
  unfold ctxEnable
  repeat' first
    | exact (rfl : (_ : Nat) = _)
    | exact (rfl : (_ : Bool) = _)
    | with_reducible first
      | exact wNil
      | apply Within.mono (w_setF_hi _ _ _ ?_)
    | (simp only [fieldOf]; decide)
    | (show 0x200000200000 ≤ _; (try simp only [ING_CTX_CTL, ING_CTX_CTL_EN]); (repeat' split) <;> omega)
    | intro _
    | split
    | extract_lets
    | (refine wRun ?_; split <;> intro _)
    | dsimp only

theorem w_ctxDrainEnd (x : Nat) (s : State) : Within 1180663691509293907971 (ctxDrainEnd x s) := by
  unfold ctxDrainEnd
  repeat' first
    | exact (rfl : (_ : Nat) = _)
    | exact (rfl : (_ : Bool) = _)
    | with_reducible first
      | exact wNil | exact wNop | exact wSeqNil | refine wSeq ?_ (fun _ => ?_) | refine wIf ?_ ?_ | refine wIfAct ?_ ?_
      | apply Within.mono (w_finalSample ..)
      | apply Within.mono (w_setF_hi _ _ _ ?_)
    | (simp only [fieldOf]; decide)
    | (show 0x200000200000 ≤ _; (try simp only [ING_CTX_STAT, ING_CTX_STAT_STATE]); (repeat' split) <;> omega)
    | intro _
    | split
    | extract_lets
    | (refine wRun ?_; split <;> intro _)
    | dsimp only

theorem w_ingressTick  (s : State) : Within 3541846919746271838209 (ingressTick  s) := by
  unfold ingressTick
  repeat' first
    | exact (rfl : (_ : Nat) = _)
    | exact (rfl : (_ : Bool) = _)
    | with_reducible first
      | exact wNil | exact wSeqNil | refine wSeq ?_ (fun _ => ?_) | refine wWhen ?_ | refine wIf ?_ ?_ | refine wIfAct ?_ ?_ | refine wUpd ?_ | refine wEach (fun _ _ => ?_)
      | apply Within.mono (w_addSat_hi _ _ _ ?_)
      | apply Within.mono (w_ctxStart ..)
      | apply Within.mono (w_reportTask ..)
      | apply Within.mono (w_setCtx ..)
      | apply Within.mono (w_setF_hi _ _ _ ?_)
    | (simp only [fieldOf]; decide)
    | (show 0x200000200000 ≤ _; (try simp only [ING_CTX_CTL, ING_CTX_CTL_EN, ING_CTX_STAT, ING_CTX_STAT_LOCKED, ING_CTX_STAT_RELOCK_PITCHES, ING_CTX_STAT_STATE]); (repeat' split) <;> omega)
    | intro _
    | split
    | extract_lets
    | (refine wRun ?_; split <;> intro _)
    | dsimp only

theorem w_setPart (p : Nat) (f : PartAux → PartAux) (s : State) : Within 34359738368 (setPart p f s) := by
  unfold setPart
  repeat' first
    | exact (rfl : (_ : Nat) = _)
    | exact (rfl : (_ : Bool) = _)
    | with_reducible first
      | exact wNil | refine wCons ?_ ?_
    | (simp only [fieldOf]; decide)
    | intro _
    | split
    | extract_lets
    | (refine wRun ?_; split <;> intro _)
    | dsimp only

theorem w_setFus (f : Fus → Fus) (s : State) : Within 18889465931478580854784 (setFus f s) := by
  unfold setFus
  repeat' first
    | exact (rfl : (_ : Nat) = _)
    | exact (rfl : (_ : Bool) = _)
    | with_reducible first
      | exact wNil | refine wCons ?_ ?_
    | (simp only [fieldOf]; decide)
    | intro _
    | split
    | extract_lets
    | (refine wRun ?_; split <;> intro _)
    | dsimp only

theorem w_stepSample (k : Nat) (s : State) : Within 19037057898466766749696 (stepSample k s) := by
  unfold stepSample
  repeat' first
    | exact (rfl : (_ : Nat) = _)
    | exact (rfl : (_ : Bool) = _)
    | with_reducible first
      | exact wNil | exact wSeqNil | refine wSeq ?_ (fun _ => ?_) | refine wIf ?_ ?_ | refine wIfAct ?_ ?_ | refine wUpd ?_ | refine wApp ?_ ?_ | refine wEach (fun _ _ => ?_)
      | apply Within.mono (w_emit ..)
      | apply Within.mono (w_setFus ..)
    | (simp only [fieldOf]; decide)
    | intro _
    | split
    | extract_lets
    | (refine wRun ?_; split <;> intro _)
    | dsimp only

theorem w_writePose (q t n k mode : Nat) (body : List Nat) (s : State) : Within 1 (writePose q t n k mode body s) := by
  unfold writePose
  repeat' first
    | exact (rfl : (_ : Nat) = _)
    | exact (rfl : (_ : Bool) = _)
    | with_reducible first
      | exact wNil | refine wCons ?_ ?_ | refine wApp ?_ ?_ | refine wEach (fun _ _ => ?_)
      | apply Within.mono (w_wr_hi _ _ _ ?_)
    | (simp only [fieldOf]; decide)
    | (show 0x200000200000 ≤ _; (try simp only [poseAddr]); (repeat' split) <;> omega)
    | intro _
    | split
    | extract_lets
    | (refine wRun ?_; split <;> intro _)
    | dsimp only

theorem w_egoTick (n : Nat) (s : State) : Within 18889537989072618782721 (egoTick n s) := by
  unfold egoTick
  repeat' first
    | exact (rfl : (_ : Nat) = _)
    | exact (rfl : (_ : Bool) = _)
    | with_reducible first
      | exact wNil | exact wSeqNil | refine wSeq ?_ (fun _ => ?_) | refine wWhen ?_ | refine wIf ?_ ?_ | refine wIfAct ?_ ?_ | refine wCons ?_ ?_
      | apply Within.mono (w_incReg_hi _ _ ?_)
      | apply Within.mono (w_sendEvent ..)
      | apply Within.mono (w_setF_hi _ _ _ ?_)
      | apply Within.mono (w_setFus ..)
    | (simp only [fieldOf]; decide)
    | (show 0x200000200000 ≤ _; (try simp only [FUS_EGO_CHG_CNT, FUS_EGO_CTL, FUS_EGO_CTL_FORCE_DATA, FUS_EGO_CTL_HOLD_MAX, FUS_EGO_STAT, FUS_EGO_STAT_BIAS_OK, FUS_EGO_STAT_GOOD_RUN, FUS_EGO_STAT_MODE, FUS_EGO_STAT_WHEEL_OK, FUS_STAT, FUS_STAT_EGO_MODE]); (repeat' split) <;> omega)
    | intro _
    | split
    | extract_lets
    | (refine wRun ?_; split <;> intro _)
    | dsimp only

theorem w_calTick  (s : State) : Within 18889465931478580854785 (calTick  s) := by
  unfold calTick
  repeat' first
    | exact (rfl : (_ : Nat) = _)
    | exact (rfl : (_ : Bool) = _)
    | with_reducible first
      | exact wNil | exact wSeqNil | refine wSeq ?_ (fun _ => ?_) | refine wEach (fun _ _ => ?_)
      | apply Within.mono (w_incReg_hi _ _ ?_)
      | apply Within.mono (w_setFus ..)
      | apply Within.mono (w_wr_hi _ _ _ ?_)
    | (simp only [fieldOf]; decide)
    | (show 0x200000200000 ≤ _; (try simp only [FUS_CAL_CNT, FUS_CAL_LIM, FUS_CAL_LIM_LIM_MDEG, FUS_CAL_LIM_LIM_MM, FUS_CAL_STAT, FUS_XF_CORR]); (repeat' split) <;> omega)
    | intro _
    | split
    | extract_lets
    | (refine wRun ?_; split <;> intro _)
    | dsimp only

theorem w_newBase (x : Nat) (s : State) : Within 18889465931478580854785 (newBase x s) := by
  unfold newBase
  repeat' first
    | exact (rfl : (_ : Nat) = _)
    | exact (rfl : (_ : Bool) = _)
    | with_reducible first
      | exact wNil | exact wSeqNil | refine wSeq ?_ (fun _ => ?_) | refine wEach (fun _ _ => ?_)
      | apply Within.mono (w_setFus ..)
      | apply Within.mono (w_wr_hi _ _ _ ?_)
    | (simp only [fieldOf]; decide)
    | (show 0x200000200000 ≤ _; (try simp only [FUS_CAL_STAT, FUS_XF_CORR]); (repeat' split) <;> omega)
    | intro _
    | split
    | extract_lets
    | (refine wRun ?_; split <;> intro _)
    | dsimp only

theorem w_fusCommitDecide  (s : State) : Within 94447329657392904273921 (fusCommitDecide  s) := by
  unfold fusCommitDecide
  repeat' first
    | exact (rfl : (_ : Nat) = _)
    | exact (rfl : (_ : Bool) = _)
    | with_reducible first
      | exact wNil | exact wSeqNil | refine wSeq ?_ (fun _ => ?_) | refine wIf ?_ ?_ | refine wIfAct ?_ ?_ | refine wEach (fun _ _ => ?_)
      | apply Within.mono (w_applyShadow _ _ _ ?_)
      | apply Within.mono (w_newBase ..)
      | apply Within.mono (w_setF_hi _ _ _ ?_)
    | (simp only [fieldOf]; decide)
    | (show 0x200000200000 ≤ _; (try simp only [FUS_CTL, FUS_CTL_COMMIT, FUS_STAT, FUS_STAT_CFG_ERR, FUS_XF_BASE]); (repeat' split) <;> omega)
    | intro _
    | split
    | extract_lets
    | (refine wRun ?_; split <;> intro _)
    | dsimp only

theorem w_fusRun (n : Nat) (s : State) : Within 56668397807633505976321 (fusRun n s) := by
  unfold fusRun
  repeat' first
    | exact (rfl : (_ : Nat) = _)
    | exact (rfl : (_ : Bool) = _)
    | with_reducible first
      | exact wNil | exact wSeqNil | refine wSeq ?_ (fun _ => ?_) | refine wWhen ?_ | refine wIf ?_ ?_ | refine wIfAct ?_ ?_ | refine wUpd ?_ | refine wCons ?_ ?_ | refine wApp ?_ ?_ | refine wEach (fun _ _ => ?_)
      | apply Within.mono (w_addReg_hi _ _ _ ?_)
      | apply Within.mono (w_incReg_hi _ _ ?_)
      | apply Within.mono (w_setFus ..)
      | apply Within.mono (w_unitRead ..)
      | apply Within.mono (w_wr_hi _ _ _ ?_)
    | (simp only [fieldOf]; decide)
    | (show 0x200000200000 ≤ _; (try simp only [FUS_CON_CFG, FUS_CON_CFG_BIRTH, FUS_CON_CFG_CTX, FUS_CON_STAT, FUS_EGO_CTL, FUS_EGO_CTL_DATA_CON, FUS_FULL_CNT, FUS_LATE_APP_CNT, FUS_LATE_DISC_CNT, FUS_LIM, FUS_LIM_DET_MAX, FUS_MISS_CNT, FUS_STALE_APP_CNT, FUS_TRK_CFG2, FUS_TRK_CFG2_BIRTH_SCORE, FUS_TRK_CFG2_OOSM_INFL, FUS_TRUNC_CNT]); (repeat' split) <;> omega)
    | intro _
    | split
    | extract_lets
    | (refine wRun ?_; split <;> intro _)
    | dsimp only

theorem w_lateResult (c m : Nat) (s : State) : Within 56668397794435742564353 (lateResult c m s) := by
  unfold lateResult
  repeat' first
    | exact (rfl : (_ : Nat) = _)
    | exact (rfl : (_ : Bool) = _)
    | with_reducible first
      | exact wNil | exact wSeqNil | refine wSeq ?_ (fun _ => ?_) | refine wWhen ?_ | refine wIf ?_ ?_ | refine wIfAct ?_ ?_ | refine wUpd ?_ | refine wApp ?_ ?_
      | apply Within.mono (w_incReg_hi _ _ ?_)
      | apply Within.mono (w_setF_hi _ _ _ ?_)
      | apply Within.mono (w_setFus ..)
    | (simp only [fieldOf]; decide)
    | (show 0x200000200000 ≤ _; (try simp only [FUS_CON_STAT, FUS_CON_STAT_LATE, FUS_LATE_DISC_CNT, FUS_LIM2, FUS_LIM2_LATE_MAX]); (repeat' split) <;> omega)
    | intro _
    | split
    | extract_lets
    | (refine wRun ?_; split <;> intro _)
    | dsimp only

theorem w_fusEnable (v : Bool) (s : State) : Within 1 (fusEnable v s) := by
  unfold fusEnable
  repeat' first
    | exact (rfl : (_ : Nat) = _)
    | exact (rfl : (_ : Bool) = _)
    | with_reducible first
      | exact wNil | exact wSeqNil | refine wSeq ?_ (fun _ => ?_) | refine wWhen ?_ | refine wIf ?_ ?_ | refine wIfAct ?_ ?_
      | apply Within.mono (w_setF_hi _ _ _ ?_)
    | (simp only [fieldOf]; decide)
    | (show 0x200000200000 ≤ _; (try simp only [FUS_CTL, FUS_CTL_EN, FUS_STAT, FUS_STAT_RUN, FUS_STAT_STATE]); (repeat' split) <;> omega)
    | intro _
    | split
    | extract_lets
    | (refine wRun ?_; split <;> intro _)
    | dsimp only

theorem w_fusDrainTimeout  (s : State) : Within 18889465944676425531395 (fusDrainTimeout  s) := by
  unfold fusDrainTimeout
  repeat' first
    | exact (rfl : (_ : Nat) = _)
    | exact (rfl : (_ : Bool) = _)
    | with_reducible first
      | exact wNil | exact wNop | exact wSeqNil | refine wSeq ?_ (fun _ => ?_)
      | apply Within.mono (w_setF_hi _ _ _ ?_)
      | apply Within.mono (w_setFus ..)
      | apply Within.mono (w_signalWord ..)
    | (simp only [fieldOf]; decide)
    | (show 0x200000200000 ≤ _; (try simp only [FUS_CW, FUS_CW_LO, FUS_STAT, FUS_STAT_RUN, FUS_STAT_STATE]); (repeat' split) <;> omega)
    | intro _
    | split
    | extract_lets
    | (refine wRun ?_; split <;> intro _)
    | dsimp only

theorem w_fusTick  (s : State) : Within 132226261520350065983489 (fusTick  s) := by
  unfold fusTick
  repeat' first
    | exact (rfl : (_ : Nat) = _)
    | exact (rfl : (_ : Bool) = _)
    | with_reducible first
      | exact wNil | exact wSeqNil | refine wSeq ?_ (fun _ => ?_) | refine wIf ?_ ?_ | refine wIfAct ?_ ?_ | refine wCons ?_ ?_ | refine wEach (fun _ _ => ?_)
      | apply Within.mono (w_calTick ..)
      | apply Within.mono (w_fusCommitDecide ..)
      | apply Within.mono (w_incReg_hi _ _ ?_)
      | apply Within.mono (w_setF_hi _ _ _ ?_)
      | apply Within.mono (w_setFus ..)
    | (simp only [fieldOf]; decide)
    | (show 0x200000200000 ≤ _; (try simp only [FUS_CTL, FUS_CTL_EN, FUS_STAT, FUS_STAT_RUN, FUS_STAT_STATE, FUS_STAT_TRACKS, FUS_WITHHELD_CNT]); (repeat' split) <;> omega)
    | intro _
    | split
    | extract_lets
    | (refine wRun ?_; split <;> intro _)
    | dsimp only

theorem w_setTrv (f : Trv → Trv) (s : State) : Within 151115727451828646838272 (setTrv f s) := by
  unfold setTrv
  repeat' first
    | exact (rfl : (_ : Nat) = _)
    | exact (rfl : (_ : Bool) = _)
    | with_reducible first
      | exact wNil | refine wCons ?_ ?_
    | (simp only [fieldOf]; decide)
    | intro _
    | split
    | extract_lets
    | (refine wRun ?_; split <;> intro _)
    | dsimp only

theorem w_mapCommit  (s : State) : Within 151115727451828646838273 (mapCommit  s) := by
  unfold mapCommit
  repeat' first
    | exact (rfl : (_ : Nat) = _)
    | exact (rfl : (_ : Bool) = _)
    | with_reducible first
      | exact wNil | exact wSeqNil | refine wSeq ?_ (fun _ => ?_) | refine wIf ?_ ?_ | refine wIfAct ?_ ?_
      | apply Within.mono (w_setF_hi _ _ _ ?_)
      | apply Within.mono (w_setTrv ..)
    | (simp only [fieldOf]; decide)
    | (show 0x200000200000 ≤ _; (try simp only [TRV_MAP, TRV_MAP_LO, TRV_STAT, TRV_STAT_MAP_BUSY]); (repeat' split) <;> omega)
    | intro _
    | split
    | extract_lets
    | (refine wRun ?_; split <;> intro _)
    | dsimp only

theorem w_mapSwitch  (s : State) : Within 151115727451828646838273 (mapSwitch  s) := by
  unfold mapSwitch
  repeat' first
    | exact (rfl : (_ : Nat) = _)
    | exact (rfl : (_ : Bool) = _)
    | with_reducible first
      | exact wNil | exact wSeqNil | refine wSeq ?_ (fun _ => ?_)
      | apply Within.mono (w_setF_hi _ _ _ ?_)
      | apply Within.mono (w_setTrv ..)
    | (simp only [fieldOf]; decide)
    | (show 0x200000200000 ≤ _; (try simp only [TRV_MAP_CNT, TRV_MAP_CNT_NEDGE, TRV_MAP_CNT_NPATH, TRV_STAT, TRV_STAT_MAP_BUSY, TRV_STAT_MAP_SLOT]); (repeat' split) <;> omega)
    | intro _
    | split
    | extract_lets
    | (refine wRun ?_; split <;> intro _)
    | dsimp only

theorem w_trvCommitDecide  (s : State) : Within 226673591177742970257409 (trvCommitDecide  s) := by
  unfold trvCommitDecide
  repeat' first
    | exact (rfl : (_ : Nat) = _)
    | exact (rfl : (_ : Bool) = _)
    | with_reducible first
      | exact wNil | exact wSeqNil | refine wSeq ?_ (fun _ => ?_) | refine wIf ?_ ?_ | refine wIfAct ?_ ?_
      | apply Within.mono (w_applyShadow _ _ _ ?_)
      | apply Within.mono (w_setF_hi _ _ _ ?_)
      | apply Within.mono (w_setTrv ..)
    | (simp only [fieldOf]; decide)
    | (show 0x200000200000 ≤ _; (try simp only [TRV_CTL, TRV_CTL_COMMIT, TRV_STAT, TRV_STAT_CFG_ERR]); (repeat' split) <;> omega)
    | intro _
    | split
    | extract_lets
    | (refine wRun ?_; split <;> intro _)
    | dsimp only

theorem w_trvHoldWrite (v : Nat) (s : State) : Within 1 (trvHoldWrite v s) := by
  unfold trvHoldWrite
  repeat' first
    | exact (rfl : (_ : Nat) = _)
    | exact (rfl : (_ : Bool) = _)
    | with_reducible first
      | exact wNil | exact wSeqNil | refine wSeq ?_ (fun _ => ?_)
      | apply Within.mono (w_setF_hi _ _ _ ?_)
    | (simp only [fieldOf]; decide)
    | (show 0x200000200000 ≤ _; (try simp only [TRV_HOLD, TRV_HOLD_PATH, TRV_HOLD_VALID]); (repeat' split) <;> omega)
    | intro _
    | split
    | extract_lets
    | (refine wRun ?_; split <;> intro _)
    | dsimp only

theorem w_lyrCopy (l n : Nat) (s : State) : Within 302231454916855057088513 (lyrCopy l n s) := by
  unfold lyrCopy
  repeat' first
    | exact (rfl : (_ : Nat) = _)
    | exact (rfl : (_ : Bool) = _)
    | with_reducible first
      | exact wNil | exact wSeqNil | refine wSeq ?_ (fun _ => ?_) | refine wWhen ?_ | refine wUpd ?_
      | apply Within.mono (w_setF_hi _ _ _ ?_)
      | apply Within.mono (w_unitRead ..)
    | (simp only [fieldOf]; decide)
    | (show 0x200000200000 ≤ _; (try simp only [TRV_LYR_CELL, TRV_LYR_CELL_LO, TRV_LYR_CW, TRV_LYR_CW_LO, TRV_LYR_STAT, TRV_LYR_STAT_EPOCH]); (repeat' split) <;> omega)
    | intro _
    | split
    | extract_lets
    | (refine wRun ?_; split <;> intro _)
    | dsimp only

theorem w_trvIssue (r : TrvRun) (o : TrvOut) (s : State) : Within 151115799522620529442819 (trvIssue r o s) := by
  unfold trvIssue
  extract_lets own wr' out ea recs edges st1 st2 st3 wst pre post status
  clear_value own wr' out ea recs edges st1 st2 st3 wst pre post status
  refine wSeq (wIfAct ?_ (Within.mono (w_incReg_hi _ _ (by simp only [TRV_CW, TRV_CW_LO, TRV_DONE_CNT, TRV_EDGE, TRV_EDGE_LO, TRV_LAST, TRV_NOPATH_CNT, TRV_OUT, TRV_OUT_LO, TRV_OWN, TRV_OWN_PART, TRV_STAT, TRV_STAT_RUN, TRV_TIMEOUT_CNT, TRV_WITHHELD_CNT]; omega)) rfl)) (fun _ => wSeq (Within.mono (w_incReg_hi _ _ (by simp only [TRV_CW, TRV_CW_LO, TRV_DONE_CNT, TRV_EDGE, TRV_EDGE_LO, TRV_LAST, TRV_NOPATH_CNT, TRV_OUT, TRV_OUT_LO, TRV_OWN, TRV_OWN_PART, TRV_STAT, TRV_STAT_RUN, TRV_TIMEOUT_CNT, TRV_WITHHELD_CNT]; omega)) rfl) (fun _ => wSeq (wWhen (Within.mono (w_incReg_hi _ _ (by simp only [TRV_CW, TRV_CW_LO, TRV_DONE_CNT, TRV_EDGE, TRV_EDGE_LO, TRV_LAST, TRV_NOPATH_CNT, TRV_OUT, TRV_OUT_LO, TRV_OWN, TRV_OWN_PART, TRV_STAT, TRV_STAT_RUN, TRV_TIMEOUT_CNT, TRV_WITHHELD_CNT]; omega)) rfl))
    (fun _ => wSeq (wWhen (Within.mono (w_incReg_hi _ _ (by simp only [TRV_CW, TRV_CW_LO, TRV_DONE_CNT, TRV_EDGE, TRV_EDGE_LO, TRV_LAST, TRV_NOPATH_CNT, TRV_OUT, TRV_OUT_LO, TRV_OWN, TRV_OWN_PART, TRV_STAT, TRV_STAT_RUN, TRV_TIMEOUT_CNT, TRV_WITHHELD_CNT]; omega)) rfl)) (fun _ => wSeq (Within.mono (w_wr_hi _ _ _ (by simp only [TRV_CW, TRV_CW_LO, TRV_DONE_CNT, TRV_EDGE, TRV_EDGE_LO, TRV_LAST, TRV_NOPATH_CNT, TRV_OUT, TRV_OUT_LO, TRV_OWN, TRV_OWN_PART, TRV_STAT, TRV_STAT_RUN, TRV_TIMEOUT_CNT, TRV_WITHHELD_CNT]; omega)) rfl) (fun _ => wSeq (Within.mono (w_setTrv _ _) rfl)
    (fun _ => wSeq (Within.mono (w_setF_hi _ _ _ (by simp only [TRV_CW, TRV_CW_LO, TRV_DONE_CNT, TRV_EDGE, TRV_EDGE_LO, TRV_LAST, TRV_NOPATH_CNT, TRV_OUT, TRV_OUT_LO, TRV_OWN, TRV_OWN_PART, TRV_STAT, TRV_STAT_RUN, TRV_TIMEOUT_CNT, TRV_WITHHELD_CNT]; omega)) rfl) (fun _ => wSeq (Within.mono (w_reportTask _ _) rfl) (fun _ => wSeqNil))))))))
  exact wSeq (Within.mono (w_unitWrite _ _ _ _) rfl) (fun _ => wSeq (Within.mono (w_unitWrite _ _ _ _) rfl) (fun _ => wSeq (wWhen (Within.mono (w_unitWrite _ _ _ _) rfl))
    (fun _ => wSeq (Within.mono (w_signalWord _ _ _ _ _ _ _) rfl) (fun _ => wSeqNil))))

theorem w_trvEnable (v : Bool) (s : State) : Within 151115727451828646838273 (trvEnable v s) := by
  unfold trvEnable
  repeat' first
    | exact (rfl : (_ : Nat) = _)
    | exact (rfl : (_ : Bool) = _)
    | with_reducible first
      | exact wNil | exact wSeqNil | refine wSeq ?_ (fun _ => ?_) | refine wWhen ?_ | refine wIf ?_ ?_ | refine wIfAct ?_ ?_
      | apply Within.mono (w_setF_hi _ _ _ ?_)
      | apply Within.mono (w_setTrv ..)
      | apply Within.mono (w_writeEnable _ _ _ _ ?_ ?_)
    | (simp only [fieldOf]; decide)
    | (show 0x200000200000 ≤ _; (try simp only [TRV_CTL, TRV_CTL_EN, TRV_STAT, TRV_STAT_MAP_BUSY, TRV_STAT_RUN, TRV_STAT_STATE]); (repeat' split) <;> omega)
    | intro _
    | split
    | extract_lets
    | (refine wRun ?_; split <;> intro _)
    | dsimp only

theorem w_trvDrainTimeout  (s : State) : Within 151115727465026491514883 (trvDrainTimeout  s) := by
  unfold trvDrainTimeout
  repeat' first
    | exact (rfl : (_ : Nat) = _)
    | exact (rfl : (_ : Bool) = _)
    | with_reducible first
      | exact wNil | exact wNop | exact wSeqNil | refine wSeq ?_ (fun _ => ?_)
      | apply Within.mono (w_endDrain _ _ _ ?_)
      | apply Within.mono (w_setF_hi _ _ _ ?_)
      | apply Within.mono (w_setTrv ..)
      | apply Within.mono (w_signalWord ..)
      | apply Within.mono (w_wr_hi _ _ _ ?_)
    | (simp only [fieldOf]; decide)
    | (show 0x200000200000 ≤ _; (try simp only [TRV_CTL, TRV_CTL_EN, TRV_CW, TRV_CW_LO, TRV_LAST, TRV_STAT, TRV_STAT_RUN, TRV_STAT_STATE]); (repeat' split) <;> omega)
    | intro _
    | split
    | extract_lets
    | (refine wRun ?_; split <;> intro _)
    | dsimp only

theorem w_trvTick  (s : State) : Within 226673591177742970257409 (trvTick  s) := by
  unfold trvTick
  repeat' first
    | exact (rfl : (_ : Nat) = _)
    | exact (rfl : (_ : Bool) = _)
    | with_reducible first
      | exact wNil | exact wSeqNil | refine wSeq ?_ (fun _ => ?_) | refine wIf ?_ ?_ | refine wIfAct ?_ ?_
      | apply Within.mono (w_incReg_hi _ _ ?_)
      | apply Within.mono (w_mapSwitch ..)
      | apply Within.mono (w_setF_hi _ _ _ ?_)
      | apply Within.mono (w_setTrv ..)
      | apply Within.mono (w_trvCommitDecide ..)
    | (simp only [fieldOf]; decide)
    | (show 0x200000200000 ≤ _; (try simp only [TRV_STAT, TRV_STAT_RUN, TRV_STAT_STATE, TRV_WITHHELD_CNT]); (repeat' split) <;> omega)
    | intro _
    | split
    | extract_lets
    | (refine wRun ?_; split <;> intro _)
    | dsimp only

theorem w_raiseJobFault (p code : Nat) (dies : List Nat) (s : State) : Within 604462909807314587353088 (raiseJobFault p code dies s) := by
  unfold raiseJobFault
  repeat' first
    | exact (rfl : (_ : Nat) = _)
    | exact (rfl : (_ : Bool) = _)
    | with_reducible first
      | exact wNil | refine wIf ?_ ?_ | refine wIfAct ?_ ?_ | refine wCons ?_ ?_ | refine wApp ?_ ?_
    | (simp only [fieldOf]; decide)
    | intro _
    | split
    | extract_lets
    | (refine wRun ?_; split <;> intro _)
    | dsimp only

theorem w_overrunFault (p : Nat) (s : State) : Within 604462909807314587353088 (overrunFault p s) := by
  unfold overrunFault
  repeat' first
    | exact (rfl : (_ : Nat) = _)
    | exact (rfl : (_ : Bool) = _)
    | with_reducible first
      | exact wNil | refine wIf ?_ ?_ | refine wIfAct ?_ ?_
      | apply Within.mono (w_raiseJobFault ..)
    | (simp only [fieldOf]; decide)
    | intro _
    | split
    | extract_lets
    | (refine wRun ?_; split <;> intro _)
    | dsimp only

theorem w_decideRestart (p cause : Nat) (keep : Option (Option Nat)) (s : State) : Within 34359738368 (decideRestart p cause keep s) := by
  unfold decideRestart
  repeat' first
    | exact (rfl : (_ : Nat) = _)
    | exact (rfl : (_ : Bool) = _)
    | with_reducible first
      | exact wNil | refine wIf ?_ ?_ | refine wIfAct ?_ ?_
      | apply Within.mono (w_setPart ..)
    | (simp only [fieldOf]; decide)
    | intro _
    | split
    | extract_lets
    | (refine wRun ?_; split <;> intro _)
    | dsimp only

theorem w_unitDrainNote  (s : State) : Within 2417851639229258349412352 (unitDrainNote  s) := by
  unfold unitDrainNote
  repeat' first
    | exact (rfl : (_ : Nat) = _)
    | exact (rfl : (_ : Bool) = _)
    | with_reducible first
      | exact wNil | refine wIf ?_ ?_ | refine wIfAct ?_ ?_ | refine wCons ?_ ?_
    | (simp only [fieldOf]; decide)
    | intro _
    | split
    | extract_lets
    | (refine wRun ?_; split <;> intro _)
    | dsimp only

theorem w_unitLastingReset (u : Nat) (s : State) : Within 2570148030372596290158595 (unitLastingReset u s) := by
  unfold unitLastingReset
  repeat' first
    | exact (rfl : (_ : Nat) = _)
    | exact (rfl : (_ : Bool) = _)
    | with_reducible first
      | exact wNil | exact wSeqNil | refine wSeq ?_ (fun _ => ?_) | refine wIf ?_ ?_ | refine wIfAct ?_ ?_ | refine wCons ?_ ?_ | refine wApp ?_ ?_ | refine wEach (fun _ _ => ?_)
      | apply Within.mono (w_ctxDisable ..)
      | apply Within.mono (w_ctxDrainEnd ..)
      | apply Within.mono (w_fusEnable ..)
      | apply Within.mono (w_setF_hi _ _ _ ?_)
      | apply Within.mono (w_trvEnable ..)
      | apply Within.mono (w_unitDrainNote ..)
    | (simp only [fieldOf]; decide)
    | (show 0x200000200000 ≤ _; (try simp only [FUS_STAT, FUS_STAT_STATE, TRV_STAT, TRV_STAT_STATE]); (repeat' split) <;> omega)
    | intro _
    | split
    | extract_lets
    | (refine wRun ?_; split <;> intro _)
    | dsimp only

theorem w_unitEvent (u n : Nat) (s : State) : Within 3779073849987225464864771 (unitEvent u n s) := by
  unfold unitEvent
  repeat' first
    | exact (rfl : (_ : Nat) = _)
    | exact (rfl : (_ : Bool) = _)
    | with_reducible first
      | exact wNil | exact wSeqNil | refine wSeq ?_ (fun _ => ?_) | refine wWhen ?_ | refine wIf ?_ ?_ | refine wIfAct ?_ ?_ | refine wUpd ?_ | refine wCons ?_ ?_
      | apply Within.mono (w_unitLastingReset ..)
    | (simp only [fieldOf]; decide)
    | intro _
    | split
    | extract_lets
    | (refine wRun ?_; split <;> intro _)
    | dsimp only

theorem w_unitTick  (s : State) : Within 2417851639229258349412353 (unitTick  s) := by
  unfold unitTick
  repeat' first
    | exact (rfl : (_ : Nat) = _)
    | exact (rfl : (_ : Bool) = _)
    | with_reducible first
      | exact wNil | exact wSeqNil | refine wSeq ?_ (fun _ => ?_) | refine wIf ?_ ?_ | refine wIfAct ?_ ?_ | refine wCons ?_ ?_ | refine wEach (fun _ _ => ?_)
      | apply Within.mono (w_ctxEnable ..)
      | apply Within.mono (w_setF_hi _ _ _ ?_)
      | apply Within.mono (w_writeEnable _ _ _ _ ?_ ?_)
    | (simp only [fieldOf]; decide)
    | (show 0x200000200000 ≤ _; (try simp only [FUS_CTL, FUS_CTL_EN, TRV_CTL, TRV_CTL_EN, TRV_STAT, TRV_STAT_STATE]); (repeat' split) <;> omega)
    | intro _
    | split
    | extract_lets
    | (refine wRun ?_; split <;> intro _)
    | dsimp only

theorem w_clkShow (d c : Nat) (s : State) : Within 1 (clkShow d c s) := by
  unfold clkShow
  repeat' first
    | exact (rfl : (_ : Nat) = _)
    | exact (rfl : (_ : Bool) = _)
    | with_reducible first
      | exact wNil | exact wSeqNil | refine wSeq ?_ (fun _ => ?_) | refine wIf ?_ ?_ | refine wIfAct ?_ ?_
      | apply Within.mono (w_setF_hi _ _ _ ?_)
    | (simp only [fieldOf]; decide)
    | (show 0x200000200000 ≤ _; (try simp only [CLK_CLU, CLK_CLU_DIP, CLK_CLU_PT_CUR, CLK_CLU_STOPPED, PWR_STAT, PWR_STAT_DIP]); (repeat' split) <;> omega)
    | intro _
    | split
    | extract_lets
    | (refine wRun ?_; split <;> intro _)
    | dsimp only

theorem w_clkShowDie (d : Nat) (s : State) : Within 1 (clkShowDie d s) := by
  unfold clkShowDie
  repeat' first
    | exact (rfl : (_ : Nat) = _)
    | exact (rfl : (_ : Bool) = _)
    | with_reducible first
      | exact wNil | refine wEach (fun _ _ => ?_)
      | apply Within.mono (w_clkShow ..)
    | (simp only [fieldOf]; decide)
    | intro _
    | split
    | extract_lets
    | (refine wRun ?_; split <;> intro _)
    | dsimp only

theorem w_clkShowPart (p : Nat) (s : State) : Within 1 (clkShowPart p s) := by
  unfold clkShowPart
  repeat' first
    | exact (rfl : (_ : Nat) = _)
    | exact (rfl : (_ : Bool) = _)
    | with_reducible first
      | exact wNil | refine wEach (fun _ _ => ?_)
      | apply Within.mono (w_clkShow ..)
    | (simp only [fieldOf]; decide)
    | intro _
    | split
    | extract_lets
    | (refine wRun ?_; split <;> intro _)
    | dsimp only

theorem w_setPoint (d c v : Nat) (s : State) : Within 1 (setPoint d c v s) := by
  unfold setPoint
  repeat' first
    | exact (rfl : (_ : Nat) = _)
    | exact (rfl : (_ : Bool) = _)
    | with_reducible first
      | exact wNil | exact wSeqNil | refine wSeq ?_ (fun _ => ?_)
      | apply Within.mono (w_clkShow ..)
      | apply Within.mono (w_setF_hi _ _ _ ?_)
    | (simp only [fieldOf]; decide)
    | (show 0x200000200000 ≤ _; (try simp only [CLK_CLU, CLK_CLU_PT_REQ]); (repeat' split) <;> omega)
    | intro _
    | split
    | extract_lets
    | (refine wRun ?_; split <;> intro _)
    | dsimp only

theorem w_setPoints (p v : Nat) (s : State) : Within 1 (setPoints p v s) := by
  unfold setPoints
  repeat' first
    | exact (rfl : (_ : Nat) = _)
    | exact (rfl : (_ : Bool) = _)
    | with_reducible first
      | exact wNil | refine wEach (fun _ _ => ?_)
      | apply Within.mono (w_setPoint ..)
    | (simp only [fieldOf]; decide)
    | intro _
    | split
    | extract_lets
    | (refine wRun ?_; split <;> intro _)
    | dsimp only

theorem w_ptReqWrite (src : Master) (d c v : Nat) (s : State) : Within 3221225473 (ptReqWrite src d c v s) := by
  unfold ptReqWrite
  repeat' first
    | exact (rfl : (_ : Nat) = _)
    | exact (rfl : (_ : Bool) = _)
    | with_reducible first
      | exact wNil | refine wIf ?_ ?_ | refine wIfAct ?_ ?_
      | apply Within.mono (w_recordRefusal ..)
      | apply Within.mono (w_setF_hi _ _ _ ?_)
      | apply Within.mono (w_setPoint ..)
    | (simp only [fieldOf]; decide)
    | (show 0x200000200000 ≤ _; (try simp only [CLK_CLU, CLK_STAT, CLK_STAT_IGN]); (repeat' split) <;> omega)
    | intro _
    | split
    | extract_lets
    | (refine wRun ?_; split <;> intro _)
    | dsimp only

theorem w_ptSetWrite (src : Master) (w : Nat) (s : State) : Within 3221225473 (ptSetWrite src w s) := by
  unfold ptSetWrite
  repeat' first
    | exact (rfl : (_ : Nat) = _)
    | exact (rfl : (_ : Bool) = _)
    | with_reducible first
      | exact wNil | exact wSeqNil | refine wSeq ?_ (fun _ => ?_) | refine wWhen ?_ | refine wIf ?_ ?_ | refine wIfAct ?_ ?_
      | apply Within.mono (w_recordRefusal ..)
      | apply Within.mono (w_setF_hi _ _ _ ?_)
      | apply Within.mono (w_setPoint ..)
    | (simp only [fieldOf]; decide)
    | (show 0x200000200000 ≤ _; (try simp only [CLK_PT_SET, CLK_PT_SET_CL, CLK_PT_SET_DIE, CLK_PT_SET_DONE, CLK_PT_SET_IGN, CLK_PT_SET_PT, CLK_STAT, CLK_STAT_IGN, THM_CTL, THM_CTL_FW_EN]); (repeat' split) <;> omega)
    | intro _
    | split
    | extract_lets
    | (refine wRun ?_; split <;> intro _)
    | dsimp only

theorem w_railEvent (r what mv : Nat) (s : State) : Within 72057594037927941 (railEvent r what mv s) := by
  unfold railEvent
  repeat' first
    | exact (rfl : (_ : Nat) = _)
    | exact (rfl : (_ : Bool) = _)
    | with_reducible first
      | exact wNil | refine wIf ?_ ?_ | refine wIfAct ?_ ?_ | refine wEach (fun _ _ => ?_)
      | apply Within.mono (w_ancLog ..)
      | apply Within.mono (w_sendEvent ..)
    | (simp only [fieldOf]; decide)
    | intro _
    | split
    | extract_lets
    | (refine wRun ?_; split <;> intro _)
    | dsimp only

theorem w_supplyShow  (s : State) : Within 1 (supplyShow  s) := by
  unfold supplyShow
  repeat' first
    | exact (rfl : (_ : Nat) = _)
    | exact (rfl : (_ : Bool) = _)
    | with_reducible first
      | exact wNil | exact wSeqNil | refine wSeq ?_ (fun _ => ?_) | refine wIf ?_ ?_ | refine wIfAct ?_ ?_ | refine wEach (fun _ _ => ?_)
      | apply Within.mono (w_setF_hi _ _ _ ?_)
    | (simp only [fieldOf]; decide)
    | (show 0x200000200000 ≤ _; (try simp only [CLK_STAT, CLK_STAT_PCIE_REF_OK, CLK_STAT_REF_OK, PWR_STAT, PWR_STAT_LEVEL]); (repeat' split) <;> omega)
    | intro _
    | split
    | extract_lets
    | (refine wRun ?_; split <;> intro _)
    | dsimp only

theorem w_railMin (r mv : Nat) (s : State) : Within 1 (railMin r mv s) := by
  unfold railMin
  repeat' first
    | exact (rfl : (_ : Nat) = _)
    | exact (rfl : (_ : Bool) = _)
    | with_reducible first
      | exact wNil | refine wIf ?_ ?_ | refine wIfAct ?_ ?_
      | apply Within.mono (w_setF_hi _ _ _ ?_)
    | (simp only [fieldOf]; decide)
    | (show 0x200000200000 ≤ _; (try simp only [PWR_VMIN, PWR_VMIN_MV]); (repeat' split) <;> omega)
    | intro _
    | split
    | extract_lets
    | (refine wRun ?_; split <;> intro _)
    | dsimp only

theorem w_dipEnd (r : Nat) (s : State) : Within 1 (dipEnd r s) := by
  unfold dipEnd
  repeat' first
    | exact (rfl : (_ : Nat) = _)
    | exact (rfl : (_ : Bool) = _)
    | with_reducible first
      | exact wNil | exact wSeqNil | refine wSeq ?_ (fun _ => ?_) | refine wEach (fun _ _ => ?_)
      | apply Within.mono (w_clkShowDie ..)
      | apply Within.mono (w_setF_hi _ _ _ ?_)
    | (simp only [fieldOf]; decide)
    | (show 0x200000200000 ≤ _; (try simp only [PWR_STAT, PWR_STAT_DIP]); (repeat' split) <;> omega)
    | intro _
    | split
    | extract_lets
    | (refine wRun ?_; split <;> intro _)
    | dsimp only

theorem w_loseContents (a n : Nat) (s : State) : Within 67108866 (loseContents a n s) := by
  unfold loseContents
  repeat' first
    | exact (rfl : (_ : Nat) = _)
    | exact (rfl : (_ : Bool) = _)
    | with_reducible first
      | exact wNil | exact wSeqNil | refine wSeq ?_ (fun _ => ?_) | refine wUpd ?_ | refine wEach (fun _ _ => ?_)
    | (simp only [fieldOf]; decide)
    | intro _
    | split
    | extract_lets
    | (refine wRun ?_; split <;> intro _)
    | dsimp only

theorem w_releaseBankWatches (d b : Nat) (s : State) : Within 12582912 (releaseBankWatches d b s) := by
  unfold releaseBankWatches
  repeat' first
    | exact (rfl : (_ : Nat) = _)
    | exact (rfl : (_ : Bool) = _)
    | with_reducible first
      | exact wNil | refine wIf ?_ ?_ | refine wIfAct ?_ ?_ | refine wCons ?_ ?_ | refine wApp ?_ ?_
    | (simp only [fieldOf]; decide)
    | intro _
    | split
    | extract_lets
    | (refine wRun ?_; split <;> intro _)
    | dsimp only

theorem w_bankGo (d b goal : Nat) (s : State) : Within 100663299 (bankGo d b goal s) := by
  unfold bankGo
  repeat' first
    | exact (rfl : (_ : Nat) = _)
    | exact (rfl : (_ : Bool) = _)
    | with_reducible first
      | exact wNil | exact wSeqNil | refine wSeq ?_ (fun _ => ?_) | refine wIf ?_ ?_ | refine wIfAct ?_ ?_ | refine wUpd ?_ | refine wCons ?_ ?_
      | apply Within.mono (w_loseContents ..)
      | apply Within.mono (w_setF_hi _ _ _ ?_)
    | (simp only [fieldOf]; decide)
    | (show 0x200000200000 ≤ _; (try simp only [BNK_PWR, BNK_PWR_STATE]); (repeat' split) <;> omega)
    | intro _
    | split
    | extract_lets
    | (refine wRun ?_; split <;> intro _)
    | dsimp only

theorem w_bankSettle (d b : Nat) (s : State) : Within 100663299 (bankSettle d b s) := by
  unfold bankSettle
  repeat' first
    | exact (rfl : (_ : Nat) = _)
    | exact (rfl : (_ : Bool) = _)
    | with_reducible first
      | exact wNil
      | apply Within.mono (w_bankGo ..)
    | (simp only [fieldOf]; decide)
    | intro _
    | split
    | extract_lets
    | (refine wRun ?_; split <;> intro _)
    | dsimp only

theorem w_banksSettle (p : Nat) (s : State) : Within 100663299 (banksSettle p s) := by
  unfold banksSettle
  repeat' first
    | exact (rfl : (_ : Nat) = _)
    | exact (rfl : (_ : Bool) = _)
    | with_reducible first
      | exact wNil | refine wEach (fun _ _ => ?_)
      | apply Within.mono (w_bankSettle ..)
    | (simp only [fieldOf]; decide)
    | intro _
    | split
    | extract_lets
    | (refine wRun ?_; split <;> intro _)
    | dsimp only

theorem w_phaseBegin (d p : Nat) (s : State) : Within 100663299 (phaseBegin d p s) := by
  unfold phaseBegin
  repeat' first
    | exact (rfl : (_ : Nat) = _)
    | exact (rfl : (_ : Bool) = _)
    | with_reducible first
      | exact wNil | refine wEach (fun _ _ => ?_)
      | apply Within.mono (w_bankSettle ..)
    | (simp only [fieldOf]; decide)
    | intro _
    | split
    | extract_lets
    | (refine wRun ?_; split <;> intro _)
    | dsimp only

theorem w_bankAwake (d b : Nat) (s : State) : Within 100663299 (bankAwake d b s) := by
  unfold bankAwake
  repeat' first
    | exact (rfl : (_ : Nat) = _)
    | exact (rfl : (_ : Bool) = _)
    | with_reducible first
      | exact wNil | exact wSeqNil | refine wSeq ?_ (fun _ => ?_) | refine wWhen ?_ | refine wUpd ?_
      | apply Within.mono (w_loseContents ..)
      | apply Within.mono (w_setF_hi _ _ _ ?_)
    | (simp only [fieldOf]; decide)
    | (show 0x200000200000 ≤ _; (try simp only [BNK_PWR, BNK_PWR_STATE]); (repeat' split) <;> omega)
    | intro _
    | split
    | extract_lets
    | (refine wRun ?_; split <;> intro _)
    | dsimp only

theorem w_scrubInterval (d v : Nat) (s : State) : Within 1 (scrubInterval d v s) := by
  unfold scrubInterval
  repeat' first
    | exact (rfl : (_ : Nat) = _)
    | exact (rfl : (_ : Bool) = _)
    | with_reducible first
      | exact wNil
      | apply Within.mono (w_setF_hi _ _ _ ?_)
    | (simp only [fieldOf]; decide)
    | (show 0x200000200000 ≤ _; (try simp only [BNK_SCRUB, BNK_SCRUB_INTERVAL, BNK_SCRUB_MIN, BNK_SCRUB_MIN_MIN]); (repeat' split) <;> omega)
    | intro _
    | split
    | extract_lets
    | (refine wRun ?_; split <;> intro _)
    | dsimp only

theorem w_clusterGate (d c : Nat) (s : State) : Within 77332483 (clusterGate d c s) := by
  unfold clusterGate
  repeat' first
    | exact (rfl : (_ : Nat) = _)
    | exact (rfl : (_ : Bool) = _)
    | with_reducible first
      | exact wNil | exact wSeqNil | refine wSeq ?_ (fun _ => ?_) | refine wWhen ?_ | refine wIf ?_ ?_ | refine wIfAct ?_ ?_ | refine wUpd ?_ | refine wCons ?_ ?_ | refine wApp ?_ ?_ | refine wEach (fun _ _ => ?_)
      | apply Within.mono (w_clkShow ..)
      | apply Within.mono (w_loseContents ..)
      | apply Within.mono (w_setF_hi _ _ _ ?_)
    | (simp only [fieldOf]; decide)
    | (show 0x200000200000 ≤ _; (try simp only [BNK_CLU, BNK_CLU_GATED, BNK_CLU_STATE, PRT_CLU, PRT_CLU_PART, PRT_CLU_PWR]); (repeat' split) <;> omega)
    | intro _
    | split
    | extract_lets
    | (refine wRun ?_; split <;> intro _)
    | dsimp only

theorem w_clusterWake (d c : Nat) (s : State) : Within 1 (clusterWake d c s) := by
  unfold clusterWake
  repeat' first
    | exact (rfl : (_ : Nat) = _)
    | exact (rfl : (_ : Bool) = _)
    | with_reducible first
      | exact wNil | exact wSeqNil | refine wSeq ?_ (fun _ => ?_) | refine wIf ?_ ?_ | refine wIfAct ?_ ?_
      | apply Within.mono (w_setF_hi _ _ _ ?_)
    | (simp only [fieldOf]; decide)
    | (show 0x200000200000 ≤ _; (try simp only [BNK_CLU, BNK_CLU_STATE, PRT_CLU, PRT_CLU_PWR]); (repeat' split) <;> omega)
    | intro _
    | split
    | extract_lets
    | (refine wRun ?_; split <;> intro _)
    | dsimp only

theorem w_setThr (g t : Nat) (f : Thread → Thread) (s : State) : Within 262144 (setThr g t f s) := by
  unfold setThr
  repeat' first
    | exact (rfl : (_ : Nat) = _)
    | exact (rfl : (_ : Bool) = _)
    | with_reducible first
      | exact wNil | refine wCons ?_ ?_
    | (simp only [fieldOf]; decide)
    | intro _
    | split
    | extract_lets
    | (refine wRun ?_; split <;> intro _)
    | dsimp only

theorem w_setCore (g : Nat) (f : Core → Core) (s : State) : Within 524288 (setCore g f s) := by
  unfold setCore
  repeat' first
    | exact (rfl : (_ : Nat) = _)
    | exact (rfl : (_ : Bool) = _)
    | with_reducible first
      | exact wNil | refine wCons ?_ ?_
    | (simp only [fieldOf]; decide)
    | intro _
    | split
    | extract_lets
    | (refine wRun ?_; split <;> intro _)
    | dsimp only

theorem w_threadFault (g t code mstat pc addr : Nat) (s : State) : Within 9007199255265281 (threadFault g t code mstat pc addr s) := by
  unfold threadFault
  repeat' first
    | exact (rfl : (_ : Nat) = _)
    | exact (rfl : (_ : Bool) = _)
    | with_reducible first
      | exact wNil | exact wSeqNil | refine wSeq ?_ (fun _ => ?_) | refine wIf ?_ ?_ | refine wIfAct ?_ ?_ | refine wCons ?_ ?_ | refine wApp ?_ ?_
      | apply Within.mono (w_incReg_hi _ _ ?_)
      | apply Within.mono (w_setCore ..)
      | apply Within.mono (w_wr_hi _ _ _ ?_)
      | apply Within.mono (w_wr64_hi _ _ _ ?_)
    | (simp only [fieldOf]; decide)
    | (show 0x200000200000 ≤ _; (try simp only [CORE_FAULT, CORE_FAULT_ADDR, CORE_FAULT_ADDR_LO, CORE_FAULT_CNT, CORE_FAULT_PC, CORE_FAULT_PC_LO, CORE_FAULT_VALID, coreBase]); (repeat' split) <;> omega)
    | intro _
    | split
    | extract_lets
    | (refine wRun ?_; split <;> intro _)
    | dsimp only

theorem w_raisePending (g t : Nat) (s : State) : Within 9007199255265281 (raisePending g t s) := by
  unfold raisePending
  repeat' first
    | exact (rfl : (_ : Nat) = _)
    | exact (rfl : (_ : Bool) = _)
    | with_reducible first
      | exact wNil
      | apply Within.mono (w_threadFault ..)
    | (simp only [fieldOf]; decide)
    | intro _
    | split
    | extract_lets
    | (refine wRun ?_; split <;> intro _)
    | dsimp only

theorem w_issue {T : Nat} {g t : Nat} {ss vs : List Nat} {body : Act} {s : State} (hT : 9007199255527425 ||| T = T)
    (h : ∀ t, Within T (body t)) : Within T (issue g t ss vs body s) := by
  unfold issue
  repeat' first
    | exact (rfl : (_ : Nat) = _)
    | exact (rfl : (_ : Bool) = _)
    | with_reducible first
      | exact wNil | exact wSeqNil | refine wSeq ?_ (fun _ => ?_) | refine wIf ?_ ?_ | refine wIfAct ?_ ?_
      | exact h _
      | exact h _ _
      | exact hT
      | refine Within.mono (T := 9007199255527425) ?_ hT; apply Within.mono (w_inc64_hi _ _ _ ?_)
      | refine Within.mono (T := 9007199255527425) ?_ hT; apply Within.mono (w_raisePending ..)
      | refine Within.mono (T := 9007199255527425) ?_ hT; apply Within.mono (w_setThr ..)
      | refine Within.mono (T := 9007199255527425) ?_ hT; apply Within.mono (w_threadFault ..)
    | (simp only [fieldOf]; decide)
    | (show 0x200000200000 ≤ _; (try simp only [CORE_ISSUE, CORE_ISSUE_LO, coreBase]); (repeat' split) <;> omega)
    | intro _
    | split
    | extract_lets
    | (refine wRun ?_; split <;> intro _)
    | dsimp only

theorem w_scalarBody (g t : Nat) (op : SOp) (rd ra : Nat) (arg : SArg) (cycle : Nat) (s : State) : Within 9007199255527425 (scalarBody g t op rd ra arg cycle s) := by
  unfold scalarBody
  repeat' first
    | exact (rfl : (_ : Nat) = _)
    | exact (rfl : (_ : Bool) = _)
    | with_reducible first
      | exact wNil | refine wIf ?_ ?_ | refine wIfAct ?_ ?_
      | apply Within.mono (w_setThr ..)
      | apply Within.mono (w_threadFault ..)
    | (simp only [fieldOf]; decide)
    | intro _
    | split
    | extract_lets
    | (refine wRun ?_; split <;> intro _)
    | dsimp only

theorem w_addTxns (g t : Nat) (mk : Nat → List Txn) (s : State) : Within 311297 (addTxns g t mk s) := by
  unfold addTxns
  repeat' first
    | exact (rfl : (_ : Nat) = _)
    | exact (rfl : (_ : Bool) = _)
    | with_reducible first
      | exact wNil | exact wSeqNil | refine wSeq ?_ (fun _ => ?_) | refine wIf ?_ ?_ | refine wIfAct ?_ ?_ | refine wCons ?_ ?_ | refine wApp ?_ ?_
      | apply Within.mono (w_setF_hi _ _ _ ?_)
      | apply Within.mono (w_setThr ..)
    | (simp only [fieldOf]; decide)
    | (show 0x200000200000 ≤ _; (try simp only [CORE_TXN, CORE_TXN_HWM, CORE_TXN_OUT, coreBase]); (repeat' split) <;> omega)
    | intro _
    | split
    | extract_lets
    | (refine wRun ?_; split <;> intro _)
    | dsimp only

theorem w_issueMem {T : Nat} {g t n : Nat} {ss vs : List Nat} {body : Act} {s : State} (hT : 9007199255527425 ||| T = T)
    (h : ∀ t, Within T (body t)) : Within T (issueMem g t n ss vs body s) := by
  unfold issueMem
  split
  · exact w_issue hT h
  · exact wNil

theorem w_signalPerform (g t : Nat) (s : State) : Within 13197844938755 (signalPerform g t s) := by
  unfold signalPerform
  repeat' first
    | exact (rfl : (_ : Nat) = _)
    | exact (rfl : (_ : Bool) = _)
    | with_reducible first
      | exact wNil | exact wSeqNil | refine wSeq ?_ (fun _ => ?_)
      | apply Within.mono (w_setThr ..)
      | apply Within.mono (w_signalWord ..)
    | (simp only [fieldOf]; decide)
    | intro _
    | split
    | extract_lets
    | (refine wRun ?_; split <;> intro _)
    | dsimp only

theorem w_settleThread (g t : Nat) (s : State) : Within 9020397099679747 (settleThread g t s) := by
  unfold settleThread
  repeat' first
    | exact (rfl : (_ : Nat) = _)
    | exact (rfl : (_ : Bool) = _)
    | with_reducible first
      | exact wNil | exact wSeqNil | refine wSeq ?_ (fun _ => ?_) | refine wIf ?_ ?_ | refine wIfAct ?_ ?_
      | apply Within.mono (w_raisePending ..)
      | apply Within.mono (w_setThr ..)
      | apply Within.mono (w_signalPerform ..)
    | (simp only [fieldOf]; decide)
    | intro _
    | split
    | extract_lets
    | (refine wRun ?_; split <;> intro _)
    | dsimp only

theorem w_endWait (g t res w : Nat) (s : State) : Within 262144 (endWait g t res w s) := by
  unfold endWait
  repeat' first
    | exact (rfl : (_ : Nat) = _)
    | exact (rfl : (_ : Bool) = _)
    | with_reducible first
      | exact wNil
      | apply Within.mono (w_setThr ..)
    | (simp only [fieldOf]; decide)
    | intro _
    | split
    | extract_lets
    | (refine wRun ?_; split <;> intro _)
    | dsimp only

theorem w_placeWatch (g t a : Nat) (s : State) : Within 4980737 (placeWatch g t a s) := by
  unfold placeWatch
  repeat' first
    | exact (rfl : (_ : Nat) = _)
    | exact (rfl : (_ : Bool) = _)
    | with_reducible first
      | exact wNil | exact wSeqNil | refine wSeq ?_ (fun _ => ?_) | refine wIf ?_ ?_ | refine wIfAct ?_ ?_ | refine wCons ?_ ?_ | refine wApp ?_ ?_
      | apply Within.mono (w_incReg_hi _ _ ?_)
      | apply Within.mono (w_setThr ..)
    | (simp only [fieldOf]; decide)
    | (show 0x200000200000 ≤ _; (try simp only [CORE_POLL_CNT, coreBase]); (repeat' split) <;> omega)
    | intro _
    | split
    | extract_lets
    | (refine wRun ?_; split <;> intro _)
    | dsimp only

theorem w_endTxn (g : Nat) (x : Txn) (status : Nat) (data : List Byte) (s : State) : Within 9020397099696131 (endTxn g x status data s) := by
  unfold endTxn
  repeat' first
    | exact (rfl : (_ : Nat) = _)
    | exact (rfl : (_ : Bool) = _)
    | with_reducible first
      | exact wNil | exact wNop | exact wSeqNil | refine wSeq ?_ (fun _ => ?_) | refine wIf ?_ ?_ | refine wIfAct ?_ ?_ | refine wCons ?_ ?_
      | apply Within.mono (w_raisePending ..)
      | apply Within.mono (w_setF_hi _ _ _ ?_)
      | apply Within.mono (w_setThr ..)
      | apply Within.mono (w_settleThread ..)
    | (simp only [fieldOf]; decide)
    | (show 0x200000200000 ≤ _; (try simp only [CORE_TXN, CORE_TXN_OUT, coreBase]); (repeat' split) <;> omega)
    | intro _
    | split
    | extract_lets
    | (refine wRun ?_; split <;> intro _)
    | dsimp only

theorem w_setEng (g e : Nat) (f : Engine → Engine) (s : State) : Within 1048576 (setEng g e f s) := by
  unfold setEng
  repeat' first
    | exact (rfl : (_ : Nat) = _)
    | exact (rfl : (_ : Bool) = _)
    | with_reducible first
      | exact wNil | refine wCons ?_ ?_
    | (simp only [fieldOf]; decide)
    | intro _
    | split
    | extract_lets
    | (refine wRun ?_; split <;> intro _)
    | dsimp only

theorem w_setEngFlags (g e fl : Nat) (s : State) : Within 1 (setEngFlags g e fl s) := by
  unfold setEngFlags
  repeat' first
    | exact (rfl : (_ : Nat) = _)
    | exact (rfl : (_ : Bool) = _)
    | with_reducible first
      | exact wNil
      | apply Within.mono (w_wr_hi _ _ _ ?_)
    | (simp only [fieldOf]; decide)
    | (show 0x200000200000 ≤ _; (try simp only [ENG_FLAGS, coreBase]); (repeat' split) <;> omega)
    | intro _
    | split
    | extract_lets
    | (refine wRun ?_; split <;> intro _)
    | dsimp only

theorem w_mmaRow (g e : Nat) (op : TensorOp) (order : List Nat) (r : Nat) (s : State) : Within 349700099 (mmaRow g e op order r s) := by
  unfold mmaRow
  repeat' first
    | exact (rfl : (_ : Nat) = _)
    | exact (rfl : (_ : Bool) = _)
    | with_reducible first
      | exact wNil | exact wSeqNil | refine wSeq ?_ (fun _ => ?_)
      | apply Within.mono (w_scWrite ..)
      | apply Within.mono (w_setEngFlags ..)
    | (simp only [fieldOf]; decide)
    | intro _
    | split
    | extract_lets
    | (refine wRun ?_; split <;> intro _)
    | dsimp only

theorem w_cvtWrite (g e : Nat) (op : TensorOp) (r : Nat) (s : State) : Within 13197844676611 (cvtWrite g e op r s) := by
  unfold cvtWrite
  repeat' first
    | exact (rfl : (_ : Nat) = _)
    | exact (rfl : (_ : Bool) = _)
    | with_reducible first
      | exact wNil | exact wSeqNil | refine wSeq ?_ (fun _ => ?_)
      | apply Within.mono (w_setEngFlags ..)
      | apply Within.mono (w_unitWrite ..)
    | (simp only [fieldOf]; decide)
    | intro _
    | split
    | extract_lets
    | (refine wRun ?_; split <;> intro _)
    | dsimp only

theorem w_runRows (g e : Nat) (q : EngOp) (r0 r1 : Nat) (s : State) : Within 9020397099417635 (runRows g e q r0 r1 s) := by
  unfold runRows
  repeat' first
    | exact (rfl : (_ : Nat) = _)
    | exact (rfl : (_ : Bool) = _)
    | with_reducible first
      | exact wNil | exact wNop | exact wSeqNil | refine wSeq ?_ (fun _ => ?_) | refine wWhen ?_ | refine wUpd ?_ | refine wEach (fun _ _ => ?_)
      | apply Within.mono (w_cvtWrite ..)
      | apply Within.mono (w_inc64_hi _ _ _ ?_)
      | apply Within.mono (w_mmaRow ..)
      | apply Within.mono (w_scRead ..)
      | apply Within.mono (w_scWrite ..)
      | apply Within.mono (w_threadFault ..)
    | (simp only [fieldOf]; decide)
    | (show 0x200000200000 ≤ _; (try simp only [ENG_BUSY, ENG_BUSY_LO, ENG_MAC, ENG_MAC_LO, coreBase]); (repeat' split) <;> omega)
    | intro _
    | split
    | extract_lets
    | (refine wRun ?_; split <;> intro _)
    | dsimp only

theorem w_runHead (k : TensorKind) (g e : Nat) (s : State) : Within 9020397099417635 (runHead k g e s) := by
  unfold runHead
  repeat' first
    | exact (rfl : (_ : Nat) = _)
    | exact (rfl : (_ : Bool) = _)
    | with_reducible first
      | exact wNil | exact wSeqNil | refine wSeq ?_ (fun _ => ?_) | refine wIf ?_ ?_ | refine wIfAct ?_ ?_ | refine wCons ?_ ?_
      | apply Within.mono (w_runRows ..)
      | apply Within.mono (w_setEng ..)
    | (simp only [fieldOf]; decide)
    | intro _
    | split
    | extract_lets
    | (refine wRun ?_; split <;> intro _)
    | dsimp only

theorem w_stopEngine (g e : Nat) (s : State) : Within 9020397099417635 (stopEngine g e s) := by
  unfold stopEngine
  repeat' first
    | exact (rfl : (_ : Nat) = _)
    | exact (rfl : (_ : Bool) = _)
    | with_reducible first
      | exact wNil | exact wSeqNil | refine wSeq ?_ (fun _ => ?_) | refine wWhen ?_ | refine wIf ?_ ?_ | refine wIfAct ?_ ?_ | refine wUpd ?_ | refine wCons ?_ ?_
      | apply Within.mono (w_runRows ..)
      | apply Within.mono (w_setEng ..)
    | (simp only [fieldOf]; decide)
    | intro _
    | split
    | extract_lets
    | (refine wRun ?_; split <;> intro _)
    | dsimp only

end Sys2Proof.Laws
end

