-- ==== Sys2Proof/Laws/WritesHost.lean ====
section
/-! SUPPORT. Which fields the shared operations can write: the host interfaces, anchors and ingress. The number after `Within` has a bit
for each field (`fieldOf`). -/
namespace Sys2Proof.Laws
open Sys2Proof.Machine

set_option linter.unusedTactic false
set_option linter.unreachableTactic false
set_option linter.unusedSimpArgs false
set_option linter.unnecessarySeqFocus false

theorem w_boxShow  (s : State) : Within 1 (boxShow  s) := by
  unfold boxShow
  repeat' first
    | exact (rfl : (_ : Nat) = _)
    | exact (rfl : (_ : Bool) = _)
    | with_reducible first
      | exact wNil | exact wSeqNil | refine wSeq ?_ (fun _ => ?_) | refine wIf ?_ ?_ | refine wIfAct ?_ ?_
      | apply Within.mono (w_setF_hi _ _ _ ?_)
    | (simp only [fieldOf]; decide)
    | (show 0x200000200000 ≤ _; (try simp only [BOX_STAT, BOX_STAT_BUSY, BOX_STAT_QUEUED]); (repeat' split) <;> omega)
    | intro _
    | split
    | extract_lets
    | (refine wRun ?_; split <;> intro _)
    | dsimp only

theorem w_boxFail (r : BoxReq) (st : Nat) (s : State) : Within 13197844676611 (boxFail r st s) := by
  unfold boxFail
  repeat' first
    | exact (rfl : (_ : Nat) = _)
    | exact (rfl : (_ : Bool) = _)
    | with_reducible first
      | exact wNil | exact wSeqNil | refine wSeq ?_ (fun _ => ?_) | refine wWhen ?_
      | apply Within.mono (w_incReg_hi _ _ ?_)
      | apply Within.mono (w_signalWord ..)
      | apply Within.mono (w_wr_hi _ _ _ ?_)
    | (simp only [fieldOf]; decide)
    | (show 0x200000200000 ≤ _; (try simp only [BOX_ERR_CNT, BOX_LAST_ERR]); (repeat' split) <;> omega)
    | intro _
    | split
    | extract_lets
    | (refine wRun ?_; split <;> intro _)
    | dsimp only

theorem w_boxSubmit (src : Master) (w : Nat) (s : State) : Within 13202139643907 (boxSubmit src w s) := by
  unfold boxSubmit
  repeat' first
    | exact (rfl : (_ : Nat) = _)
    | exact (rfl : (_ : Bool) = _)
    | with_reducible first
      | exact wNil | exact wSeqNil | refine wSeq ?_ (fun _ => ?_) | refine wIf ?_ ?_ | refine wIfAct ?_ ?_ | refine wCons ?_ ?_ | refine wApp ?_ ?_
      | apply Within.mono (w_boxFail ..)
      | apply Within.mono (w_boxShow ..)
      | apply Within.mono (w_unitRead ..)
    | (simp only [fieldOf]; decide)
    | intro _
    | split
    | extract_lets
    | (refine wRun ?_; split <;> intro _)
    | dsimp only

theorem w_boxDiscard (drop : BoxReq → Bool) (s : State) : Within 12884901889 (boxDiscard drop s) := by
  unfold boxDiscard
  repeat' first
    | exact (rfl : (_ : Nat) = _)
    | exact (rfl : (_ : Bool) = _)
    | with_reducible first
      | exact wNil | exact wNop | exact wSeqNil | refine wSeq ?_ (fun _ => ?_) | refine wIf ?_ ?_ | refine wIfAct ?_ ?_ | refine wUpd ?_
      | apply Within.mono (w_addReg_hi _ _ _ ?_)
      | apply Within.mono (w_boxShow ..)
    | (simp only [fieldOf]; decide)
    | (show 0x200000200000 ≤ _; (try simp only [BOX_STALE_CNT]); (repeat' split) <;> omega)
    | intro _
    | split
    | extract_lets
    | (refine wRun ?_; split <;> intro _)
    | dsimp only

theorem w_boxTick  (s : State) : Within 12884901889 (boxTick  s) := by
  unfold boxTick
  repeat' first
    | exact (rfl : (_ : Nat) = _)
    | exact (rfl : (_ : Bool) = _)
    | with_reducible first
      | exact wNil
      | apply Within.mono (w_boxDiscard ..)
    | (simp only [fieldOf]; decide)
    | intro _
    | split
    | extract_lets
    | (refine wRun ?_; split <;> intro _)
    | dsimp only

theorem w_boxDiscardPart (p : Nat) (s : State) : Within 12884901889 (boxDiscardPart p s) := by
  unfold boxDiscardPart
  repeat' first
    | exact (rfl : (_ : Nat) = _)
    | exact (rfl : (_ : Bool) = _)
    | with_reducible first
      | exact wNil
      | apply Within.mono (w_boxDiscard ..)
    | (simp only [fieldOf]; decide)
    | intro _
    | split
    | extract_lets
    | (refine wRun ?_; split <;> intro _)
    | dsimp only

theorem w_boxDrainTimeout  (s : State) : Within 13210729578499 (boxDrainTimeout  s) := by
  unfold boxDrainTimeout
  repeat' first
    | exact (rfl : (_ : Nat) = _)
    | exact (rfl : (_ : Bool) = _)
    | with_reducible first
      | exact wNil | exact wSeqNil | refine wSeq ?_ (fun _ => ?_) | refine wUpd ?_ | refine wApp ?_ ?_ | refine wEach (fun _ _ => ?_)
      | apply Within.mono (w_boxFail ..)
      | apply Within.mono (w_boxShow ..)
      | apply Within.mono (w_endDrain _ _ _ ?_)
    | (simp only [fieldOf]; decide)
    | (show 0x200000200000 ≤ _; (try simp only [BOX_CTL, BOX_CTL_EN, BOX_STAT, BOX_STAT_STATE]); (repeat' split) <;> omega)
    | intro _
    | split
    | extract_lets
    | (refine wRun ?_; split <;> intro _)
    | dsimp only

theorem w_setKv (c : Nat) (f : KvCache → KvCache) (s : State) : Within 17179869184 (setKv c f s) := by
  unfold setKv
  repeat' first
    | exact (rfl : (_ : Nat) = _)
    | exact (rfl : (_ : Bool) = _)
    | with_reducible first
      | exact wNil | refine wCons ?_ ?_
    | (simp only [fieldOf]; decide)
    | intro _
    | split
    | extract_lets
    | (refine wRun ?_; split <;> intro _)
    | dsimp only

theorem w_kvShowFree (c : Nat) (s : State) : Within 1 (kvShowFree c s) := by
  unfold kvShowFree
  repeat' first
    | exact (rfl : (_ : Nat) = _)
    | exact (rfl : (_ : Bool) = _)
    | with_reducible first
      | exact wNil | exact wSeqNil | refine wSeq ?_ (fun _ => ?_) | refine wIf ?_ ?_ | refine wIfAct ?_ ?_ | refine wEach (fun _ _ => ?_)
      | apply Within.mono (w_setF_hi _ _ _ ?_)
    | (simp only [fieldOf]; decide)
    | (show 0x200000200000 ≤ _; (try simp only [KVC_C_FREE, KVC_C_FREE_FREE, KVC_C_FREE_MINFREE]); (repeat' split) <;> omega)
    | intro _
    | split
    | extract_lets
    | (refine wRun ?_; split <;> intro _)
    | dsimp only

theorem w_kvShow (d : Nat) (s : State) : Within 1 (kvShow d s) := by
  unfold kvShow
  repeat' first
    | exact (rfl : (_ : Nat) = _)
    | exact (rfl : (_ : Bool) = _)
    | with_reducible first
      | exact wNil | exact wSeqNil | refine wSeq ?_ (fun _ => ?_) | refine wIf ?_ ?_ | refine wIfAct ?_ ?_
      | apply Within.mono (w_setF_hi _ _ _ ?_)
    | (simp only [fieldOf]; decide)
    | (show 0x200000200000 ≤ _; (try simp only [KVC_STAT, KVC_STAT_BUSY, KVC_STAT_QUEUED]); (repeat' split) <;> omega)
    | intro _
    | split
    | extract_lets
    | (refine wRun ?_; split <;> intro _)
    | dsimp only

theorem w_kvUnmirror (c : Nat) (s : State) : Within 1 (kvUnmirror c s) := by
  unfold kvUnmirror
  repeat' first
    | exact (rfl : (_ : Nat) = _)
    | exact (rfl : (_ : Bool) = _)
    | with_reducible first
      | exact wNil
      | apply Within.mono (w_setF_hi _ _ _ ?_)
    | (simp only [fieldOf]; decide)
    | (show 0x200000200000 ≤ _; (try simp only [KVC_C_LIVE, KVC_C_LIVE_UNMIRRORED]); (repeat' split) <;> omega)
    | intro _
    | split
    | extract_lets
    | (refine wRun ?_; split <;> intro _)
    | dsimp only

theorem w_kvWrite (c d a : Nat) (bs : List Byte) (s : State) : Within 13197844676611 (kvWrite c d a bs s) := by
  unfold kvWrite
  repeat' first
    | exact (rfl : (_ : Nat) = _)
    | exact (rfl : (_ : Bool) = _)
    | with_reducible first
      | exact wNil | exact wSeqNil | refine wSeq ?_ (fun _ => ?_) | refine wWhen ?_ | refine wIf ?_ ?_ | refine wIfAct ?_ ?_
      | apply Within.mono (w_kvUnmirror ..)
      | apply Within.mono (w_unitWrite ..)
    | (simp only [fieldOf]; decide)
    | intro _
    | split
    | extract_lets
    | (refine wRun ?_; split <;> intro _)
    | dsimp only

theorem w_recPut (c q o n v : Nat) (s : State) : Within 13197844676611 (recPut c q o n v s) := by
  unfold recPut
  repeat' first
    | exact (rfl : (_ : Nat) = _)
    | exact (rfl : (_ : Bool) = _)
    | with_reducible first
      | exact wNil
      | apply Within.mono (w_kvWrite ..)
    | (simp only [fieldOf]; decide)
    | intro _
    | split
    | extract_lets
    | (refine wRun ?_; split <;> intro _)
    | dsimp only

theorem w_recSlot (c q j h : Nat) (s : State) : Within 13197844676611 (recSlot c q j h s) := by
  unfold recSlot
  repeat' first
    | exact (rfl : (_ : Nat) = _)
    | exact (rfl : (_ : Bool) = _)
    | with_reducible first
      | exact wNil
      | apply Within.mono (w_recPut ..)
    | (simp only [fieldOf]; decide)
    | intro _
    | split
    | extract_lets
    | (refine wRun ?_; split <;> intro _)
    | dsimp only

theorem w_kvShowLive (c : Nat) (s : State) : Within 1 (kvShowLive c s) := by
  unfold kvShowLive
  repeat' first
    | exact (rfl : (_ : Nat) = _)
    | exact (rfl : (_ : Bool) = _)
    | with_reducible first
      | exact wNil | exact wSeqNil | refine wSeq ?_ (fun _ => ?_)
      | apply Within.mono (w_setF_hi _ _ _ ?_)
    | (simp only [fieldOf]; decide)
    | (show 0x200000200000 ≤ _; (try simp only [KVC_C_LIVE, KVC_C_LIVE_SEQS]); (repeat' split) <;> omega)
    | intro _
    | split
    | extract_lets
    | (refine wRun ?_; split <;> intro _)
    | dsimp only

theorem w_entPut (c i o n v : Nat) (s : State) : Within 13197844676611 (entPut c i o n v s) := by
  unfold entPut
  repeat' first
    | exact (rfl : (_ : Nat) = _)
    | exact (rfl : (_ : Bool) = _)
    | with_reducible first
      | exact wNil
      | apply Within.mono (w_kvWrite ..)
    | (simp only [fieldOf]; decide)
    | intro _
    | split
    | extract_lets
    | (refine wRun ?_; split <;> intro _)
    | dsimp only

theorem w_freeHandle (c h : Nat) (s : State) : Within 17179869184 (freeHandle c h s) := by
  unfold freeHandle
  repeat' first
    | exact (rfl : (_ : Nat) = _)
    | exact (rfl : (_ : Bool) = _)
    | with_reducible first
      | exact wNil | refine wIf ?_ ?_ | refine wIfAct ?_ ?_ | refine wApp ?_ ?_
      | apply Within.mono (w_setKv ..)
    | (simp only [fieldOf]; decide)
    | intro _
    | split
    | extract_lets
    | (refine wRun ?_; split <;> intro _)
    | dsimp only

theorem w_refBlock (c h : Nat) (up : Bool) (s : State) : Within 13197844676611 (refBlock c h up s) := by
  unfold refBlock
  repeat' first
    | exact (rfl : (_ : Nat) = _)
    | exact (rfl : (_ : Bool) = _)
    | with_reducible first
      | exact wNil | refine wIf ?_ ?_ | refine wIfAct ?_ ?_
      | apply Within.mono (w_entPut ..)
    | (simp only [fieldOf]; decide)
    | intro _
    | split
    | extract_lets
    | (refine wRun ?_; split <;> intro _)
    | dsimp only

theorem w_allocHandle {c : Nat} {s : State} {r : Nat × Act} (h : allocHandle c s = some r) (t : State) :
    Within 13215024545795 (r.2 t) := by
  unfold allocHandle at h
  split at h
  · cases h; dsimp only; exact Within.mono (T := 17179869184) (w_setKv _ _ _) rfl
  · split at h
    · cases hx : oldestEntry s c (List.range (kvTreeMax c)) with
      | none => rw [hx] at h; cases h
      | some i =>
        rw [hx] at h; cases h
        exact wSeq (Within.mono (w_entPut _ _ _ _ _ _) rfl) (fun _ => wSeq (Within.mono (T := 1) (w_incReg_hi _ _ (by simp only [KVC_EVICT_CNT]; omega)) rfl) (fun _ => wSeqNil))
    · cases h

theorem w_allocAll {c : Nat} {js : List Nat} {s : State} {r : List (Nat × Nat) × Act} (h : allocAll c js s = some r) (t : State) :
    Within 13215024545795 (r.2 t) := by
  induction js generalizing s r t with
  | nil => cases h; exact wNil
  | cons j js ih =>
    unfold allocAll at h
    split at h
    · cases h
    · rename_i h1
      split at h
      · cases h
      · rename_i h2
        cases h
        exact wAnd (w_allocHandle h1 _) (fun _ => ih h2 _)

theorem w_kvFail (d : Nat) (r : KvReq) (st : Nat) (s : State) : Within 13197844676611 (kvFail d r st s) := by
  unfold kvFail
  repeat' first
    | exact (rfl : (_ : Nat) = _)
    | exact (rfl : (_ : Bool) = _)
    | with_reducible first
      | exact wNil | exact wSeqNil | refine wSeq ?_ (fun _ => ?_) | refine wWhen ?_
      | apply Within.mono (w_incReg_hi _ _ ?_)
      | apply Within.mono (w_signalWord ..)
      | apply Within.mono (w_wr_hi _ _ _ ?_)
    | (simp only [fieldOf]; decide)
    | (show 0x200000200000 ≤ _; (try simp only [KVC_ERR_CNT, KVC_LAST_ERR]); (repeat' split) <;> omega)
    | intro _
    | split
    | extract_lets
    | (refine wRun ?_; split <;> intro _)
    | dsimp only

theorem w_kvSubmit (d : Nat) (src : Master) (w : Nat) (s : State) : Within 13215024545795 (kvSubmit d src w s) := by
  unfold kvSubmit
  repeat' first
    | exact (rfl : (_ : Nat) = _)
    | exact (rfl : (_ : Bool) = _)
    | with_reducible first
      | exact wNil | exact wSeqNil | refine wSeq ?_ (fun _ => ?_) | refine wIf ?_ ?_ | refine wIfAct ?_ ?_ | refine wApp ?_ ?_
      | apply Within.mono (w_kvFail ..)
      | apply Within.mono (w_kvShow ..)
      | apply Within.mono (w_setKv ..)
      | apply Within.mono (w_unitRead ..)
    | (simp only [fieldOf]; decide)
    | intro _
    | split
    | extract_lets
    | (refine wRun ?_; split <;> intro _)
    | dsimp only

theorem w_kvCommand (op : Nat) (r : Req) (s : State) : Within 13215024553987 (kvCommand op r s) := by
  unfold kvCommand
  repeat' first
    | exact (rfl : (_ : Nat) = _)
    | exact (rfl : (_ : Bool) = _)
    | with_reducible first
      | exact wNil | exact wSeqNil | refine wSeq ?_ (fun _ => ?_) | refine wIf ?_ ?_ | refine wIfAct ?_ ?_
      | apply Within.mono (w_kvSubmit ..)
      | apply Within.mono (w_respond ..)
    | (simp only [fieldOf]; decide)
    | intro _
    | split
    | extract_lets
    | (refine wRun ?_; split <;> intro _)
    | dsimp only

theorem w_kvStore (c d : Nat) (q : KvQuant) (s : State) : Within 13197844676611 (kvStore c d q s) := by
  unfold kvStore
  repeat' first
    | exact (rfl : (_ : Nat) = _)
    | exact (rfl : (_ : Bool) = _)
    | with_reducible first
      | exact wNil | exact wSeqNil | refine wSeq ?_ (fun _ => ?_) | refine wEach (fun _ _ => ?_)
      | apply Within.mono (w_addReg_hi _ _ _ ?_)
      | apply Within.mono (w_kvWrite ..)
    | (simp only [fieldOf]; decide)
    | (show 0x200000200000 ≤ _; (try simp only [KVC_NAN_CNT, KVC_SAT_CNT]); (repeat' split) <;> omega)
    | intro _
    | split
    | extract_lets
    | (refine wRun ?_; split <;> intro _)
    | dsimp only

theorem w_storeNibbles (c d base : Nat) (els : List (Nat × Nat)) (s : State) : Within 13197844676611 (storeNibbles c d base els s) := by
  unfold storeNibbles
  repeat' first
    | exact (rfl : (_ : Nat) = _)
    | exact (rfl : (_ : Bool) = _)
    | with_reducible first
      | exact wNil | refine wEach (fun _ _ => ?_)
      | apply Within.mono (w_kvWrite ..)
    | (simp only [fieldOf]; decide)
    | intro _
    | split
    | extract_lets
    | (refine wRun ?_; split <;> intro _)
    | dsimp only

theorem w_mxKeyBlock (c d dim base p r0 : Nat) (ks : List FVal) (s : State) : Within 13197844676611 (mxKeyBlock c d dim base p r0 ks s) := by
  unfold mxKeyBlock
  repeat' first
    | exact (rfl : (_ : Nat) = _)
    | exact (rfl : (_ : Bool) = _)
    | with_reducible first
      | exact wNil | exact wSeqNil | refine wSeq ?_ (fun _ => ?_) | refine wWhen ?_
      | apply Within.mono (w_incReg_hi _ _ ?_)
      | apply Within.mono (w_kvWrite ..)
      | apply Within.mono (w_storeNibbles ..)
    | (simp only [fieldOf]; decide)
    | (show 0x200000200000 ≤ _; (try simp only [KVC_NAN_CNT, KVC_SAT_CNT]); (repeat' split) <;> omega)
    | intro _
    | split
    | extract_lets
    | (refine wRun ?_; split <;> intro _)
    | dsimp only

theorem w_mxTailPut (c d dim base p : Nat) (vs : List FVal) (s : State) : Within 13197844676611 (mxTailPut c d dim base p vs s) := by
  unfold mxTailPut
  repeat' first
    | exact (rfl : (_ : Nat) = _)
    | exact (rfl : (_ : Bool) = _)
    | with_reducible first
      | exact wNil | exact wSeqNil | refine wSeq ?_ (fun _ => ?_) | refine wWhen ?_
      | apply Within.mono (w_incReg_hi _ _ ?_)
      | apply Within.mono (w_kvWrite ..)
    | (simp only [fieldOf]; decide)
    | (show 0x200000200000 ≤ _; (try simp only [KVC_SAT_CNT]); (repeat' split) <;> omega)
    | intro _
    | split
    | extract_lets
    | (refine wRun ?_; split <;> intro _)
    | dsimp only

theorem w_mxGroup (c d dim base p : Nat) (s : State) : Within 13197844676611 (mxGroup c d dim base p s) := by
  unfold mxGroup
  repeat' first
    | exact (rfl : (_ : Nat) = _)
    | exact (rfl : (_ : Bool) = _)
    | with_reducible first
      | exact wNil | exact wSeqNil | refine wSeq ?_ (fun _ => ?_) | refine wWhen ?_ | refine wEach (fun _ _ => ?_)
      | apply Within.mono (w_incReg_hi _ _ ?_)
      | apply Within.mono (w_kvWrite ..)
      | apply Within.mono (w_storeNibbles ..)
    | (simp only [fieldOf]; decide)
    | (show 0x200000200000 ≤ _; (try simp only [KVC_NAN_CNT, KVC_SAT_CNT]); (repeat' split) <;> omega)
    | intro _
    | split
    | extract_lets
    | (refine wRun ?_; split <;> intro _)
    | dsimp only

theorem w_mxPos (c d dim base p : Nat) (ks vs : List FVal) (s : State) : Within 13197844676611 (mxPos c d dim base p ks vs s) := by
  unfold mxPos
  repeat' first
    | exact (rfl : (_ : Nat) = _)
    | exact (rfl : (_ : Bool) = _)
    | with_reducible first
      | exact wNil | exact wSeqNil | refine wSeq ?_ (fun _ => ?_) | refine wWhen ?_ | refine wEach (fun _ _ => ?_)
      | apply Within.mono (w_mxGroup ..)
      | apply Within.mono (w_mxKeyBlock ..)
      | apply Within.mono (w_mxTailPut ..)
    | (simp only [fieldOf]; decide)
    | intro _
    | split
    | extract_lets
    | (refine wRun ?_; split <;> intro _)
    | dsimp only

theorem w_shardPos (r : KvReq) (src : State) (i n pos hd : Nat) (s : State) : Within 13197844676611 (shardPos r src i n pos hd s) := by
  unfold shardPos
  repeat' first
    | exact (rfl : (_ : Nat) = _)
    | exact (rfl : (_ : Bool) = _)
    | with_reducible first
      | exact wNil | refine wIf ?_ ?_ | refine wIfAct ?_ ?_ | refine wEach (fun _ _ => ?_)
      | apply Within.mono (w_kvStore ..)
      | apply Within.mono (w_mxPos ..)
    | (simp only [fieldOf]; decide)
    | intro _
    | split
    | extract_lets
    | (refine wRun ?_; split <;> intro _)
    | dsimp only

theorem w_appendPos (r : KvReq) (src : State) (n pos hd : Nat) (s : State) : Within 13197844676611 (appendPos r src n pos hd s) := by
  unfold appendPos
  repeat' first
    | exact (rfl : (_ : Nat) = _)
    | exact (rfl : (_ : Bool) = _)
    | with_reducible first
      | exact wNil | exact wSeqNil | refine wSeq ?_ (fun _ => ?_) | refine wWhen ?_ | refine wIf ?_ ?_ | refine wIfAct ?_ ?_ | refine wEach (fun _ _ => ?_)
      | apply Within.mono (w_kvWrite ..)
      | apply Within.mono (w_shardPos ..)
    | (simp only [fieldOf]; decide)
    | intro _
    | split
    | extract_lets
    | (refine wRun ?_; split <;> intro _)
    | dsimp only

theorem w_kvZero (c : Nat) (s : State) : Within 13215024545795 (kvZero c s) := by
  unfold kvZero
  repeat' first
    | exact (rfl : (_ : Nat) = _)
    | exact (rfl : (_ : Bool) = _)
    | with_reducible first
      | exact wNil | exact wSeqNil | refine wSeq ?_ (fun _ => ?_) | refine wWhen ?_ | refine wIf ?_ ?_ | refine wIfAct ?_ ?_
      | apply Within.mono (w_setKv ..)
      | apply Within.mono (w_unitWrite ..)
    | (simp only [fieldOf]; decide)
    | intro _
    | split
    | extract_lets
    | (refine wRun ?_; split <;> intro _)
    | dsimp only

theorem w_acceptMark (r : KvReq) (s : State) : Within 13215024545795 (acceptMark r s) := by
  unfold acceptMark
  repeat' first
    | exact (rfl : (_ : Nat) = _)
    | exact (rfl : (_ : Bool) = _)
    | with_reducible first
      | exact wNil | exact wSeqNil | refine wSeq ?_ (fun _ => ?_) | refine wIf ?_ ?_ | refine wIfAct ?_ ?_ | refine wCons ?_ ?_ | refine wEach (fun _ _ => ?_)
      | apply Within.mono (w_freeHandle ..)
      | apply Within.mono (w_recPut ..)
      | apply Within.mono (w_setKv ..)
    | (simp only [fieldOf]; decide)
    | intro _
    | split
    | extract_lets
    | (refine wRun ?_; split <;> intro _)
    | dsimp only

theorem w_startAppend (r : KvReq) (s : State) : Within 13215024545795 (startAppend r s) := by
  unfold startAppend
  dsimp only
  split
  · exact Within.mono (w_setKv _ _ _) rfl
  · split
    · exact Within.mono (w_setKv _ _ _) rfl
    · rename_i h
      refine wSeq ((w_allocAll h _).mono rfl) (fun _ => wSeq (Within.mono (w_setKv _ _ _) rfl) (fun _ => wSeq (wWhen (wSeq (Within.mono (w_addReg_hi _ _ _ (by simp only [KVC_EVICT_CNT]; omega)) rfl)
        (fun _ => wSeq (wEach (fun _ _ => Within.mono (w_appendPos _ _ _ _ _ _) rfl)) (fun _ => wSeqNil)))) (fun _ => wSeq (Within.mono (w_kvShowFree _ _) rfl) (fun _ => wSeqNil))))

theorem w_kvStart (r : KvReq) (s : State) : Within 13215024545795 (kvStart r s) := by
  unfold kvStart
  repeat' first
    | exact (rfl : (_ : Nat) = _)
    | exact (rfl : (_ : Bool) = _)
    | with_reducible first
      | exact wNil | exact wSeqNil | refine wSeq ?_ (fun _ => ?_) | refine wIf ?_ ?_ | refine wIfAct ?_ ?_
      | apply Within.mono (w_acceptMark ..)
      | apply Within.mono (w_kvShow ..)
      | apply Within.mono (w_kvZero ..)
      | apply Within.mono (w_setKv ..)
      | apply Within.mono (w_startAppend ..)
    | (simp only [fieldOf]; decide)
    | intro _
    | split
    | extract_lets
    | (refine wRun ?_; split <;> intro _)
    | dsimp only

theorem w_kvDropRun (c : Nat) (s : State) : Within 17179869185 (kvDropRun c s) := by
  unfold kvDropRun
  repeat' first
    | exact (rfl : (_ : Nat) = _)
    | exact (rfl : (_ : Bool) = _)
    | with_reducible first
      | exact wNil | exact wNop | exact wSeqNil | refine wSeq ?_ (fun _ => ?_) | refine wIf ?_ ?_ | refine wIfAct ?_ ?_ | refine wEach (fun _ _ => ?_)
      | apply Within.mono (w_freeHandle ..)
      | apply Within.mono (w_kvShowFree ..)
      | apply Within.mono (w_setKv ..)
    | (simp only [fieldOf]; decide)
    | intro _
    | split
    | extract_lets
    | (refine wRun ?_; split <;> intro _)
    | dsimp only

theorem w_kvEndFail (c st : Nat) (s : State) : Within 13215024545795 (kvEndFail c st s) := by
  unfold kvEndFail
  repeat' first
    | exact (rfl : (_ : Nat) = _)
    | exact (rfl : (_ : Bool) = _)
    | with_reducible first
      | exact wNil | exact wSeqNil | refine wSeq ?_ (fun _ => ?_)
      | apply Within.mono (w_kvDropRun ..)
      | apply Within.mono (w_kvFail ..)
      | apply Within.mono (w_kvShow ..)
    | (simp only [fieldOf]; decide)
    | intro _
    | split
    | extract_lets
    | (refine wRun ?_; split <;> intro _)
    | dsimp only

theorem w_kvEndOk (c : Nat) (r : KvReq) (s : State) : Within 13215024545795 (kvEndOk c r s) := by
  unfold kvEndOk
  repeat' first
    | exact (rfl : (_ : Nat) = _)
    | exact (rfl : (_ : Bool) = _)
    | with_reducible first
      | exact wNil | exact wSeqNil | refine wSeq ?_ (fun _ => ?_) | refine wWhen ?_ | refine wIf ?_ ?_ | refine wIfAct ?_ ?_
      | apply Within.mono (w_incReg_hi _ _ ?_)
      | apply Within.mono (w_kvShow ..)
      | apply Within.mono (w_kvShowFree ..)
      | apply Within.mono (w_kvShowLive ..)
      | apply Within.mono (w_setKv ..)
      | apply Within.mono (w_signalWord ..)
    | (simp only [fieldOf]; decide)
    | (show 0x200000200000 ≤ _; (try simp only [KVC_C_LIVE, KVC_C_LIVE_UNMIRRORED, KVC_DONE_CNT, KVC_UNMIR_CNT]); (repeat' split) <;> omega)
    | intro _
    | split
    | extract_lets
    | (refine wRun ?_; split <;> intro _)
    | dsimp only

theorem w_treeInsert (c q j : Nat) (s : State) : Within 13215024545795 (treeInsert c q j s) := by
  unfold treeInsert
  extract_lets h tok hs prev x note ps same free
  split
  · exact Within.mono (w_setKv _ _ _) rfl
  · clear_value free
    cases free with
    | none => exact Within.mono (w_setKv _ _ _) rfl
    | some i =>
      exact wSeq (Within.mono (w_setKv _ _ _) rfl) (fun _ => wSeq (Within.mono (w_kvWrite _ _ _ _ _) rfl) (fun _ => wSeq (wWhen (Within.mono (w_freeHandle _ _ _) rfl))
        (fun _ => wSeqNil)))

theorem w_commitOpen (c : Nat) (run : KvRun) (s : State) : Within 13215024545795 (commitOpen c run s) := by
  unfold commitOpen
  repeat' first
    | exact (rfl : (_ : Nat) = _)
    | exact (rfl : (_ : Bool) = _)
    | with_reducible first
      | exact wNil | exact wSeqNil | refine wSeq ?_ (fun _ => ?_) | refine wApp ?_ ?_ | refine wEach (fun _ _ => ?_)
      | apply Within.mono (w_addReg_hi _ _ _ ?_)
      | apply Within.mono (w_entPut ..)
      | apply Within.mono (w_kvWrite ..)
      | apply Within.mono (w_recSlot ..)
      | apply Within.mono (w_refBlock ..)
      | apply Within.mono (w_setKv ..)
    | (simp only [fieldOf]; decide)
    | (show 0x200000200000 ≤ _; (try simp only [KVC_COLLIDE_CNT, KVC_HIT_CNT, KVC_MISS_CNT]); (repeat' split) <;> omega)
    | intro _
    | split
    | extract_lets
    | (refine wRun ?_; split <;> intro _)
    | dsimp only

theorem w_commitRelease (c : Nat) (run : KvRun) (s : State) : Within 13215024545795 (commitRelease c run s) := by
  unfold commitRelease
  repeat' first
    | exact (rfl : (_ : Nat) = _)
    | exact (rfl : (_ : Bool) = _)
    | with_reducible first
      | exact wNil | exact wSeqNil | refine wSeq ?_ (fun _ => ?_) | refine wApp ?_ ?_ | refine wEach (fun _ _ => ?_)
      | apply Within.mono (w_recPut ..)
      | apply Within.mono (w_refBlock ..)
      | apply Within.mono (w_setKv ..)
    | (simp only [fieldOf]; decide)
    | intro _
    | split
    | extract_lets
    | (refine wRun ?_; split <;> intro _)
    | dsimp only

theorem w_commitRollback (c : Nat) (run : KvRun) (s : State) : Within 13215024545795 (commitRollback c run s) := by
  unfold commitRollback
  repeat' first
    | exact (rfl : (_ : Nat) = _)
    | exact (rfl : (_ : Bool) = _)
    | with_reducible first
      | exact wNil | exact wSeqNil | refine wSeq ?_ (fun _ => ?_) | refine wIf ?_ ?_ | refine wIfAct ?_ ?_ | refine wEach (fun _ _ => ?_)
      | apply Within.mono (w_freeHandle ..)
      | apply Within.mono (w_recPut ..)
      | apply Within.mono (w_recSlot ..)
      | apply Within.mono (w_refBlock ..)
      | apply Within.mono (w_setKv ..)
    | (simp only [fieldOf]; decide)
    | intro _
    | split
    | extract_lets
    | (refine wRun ?_; split <;> intro _)
    | dsimp only

theorem w_kvDiscard (drop : KvReq → Bool) (s : State) : Within 17179869185 (kvDiscard drop s) := by
  unfold kvDiscard
  repeat' first
    | exact (rfl : (_ : Nat) = _)
    | exact (rfl : (_ : Bool) = _)
    | with_reducible first
      | exact wNil | exact wNop | exact wSeqNil | refine wSeq ?_ (fun _ => ?_) | refine wIf ?_ ?_ | refine wIfAct ?_ ?_ | refine wEach (fun _ _ => ?_)
      | apply Within.mono (w_addReg_hi _ _ _ ?_)
      | apply Within.mono (w_kvDropRun ..)
      | apply Within.mono (w_kvShow ..)
      | apply Within.mono (w_setKv ..)
    | (simp only [fieldOf]; decide)
    | (show 0x200000200000 ≤ _; (try simp only [KVC_STALE_CNT]); (repeat' split) <;> omega)
    | intro _
    | split
    | extract_lets
    | (refine wRun ?_; split <;> intro _)
    | dsimp only

theorem w_kvTick  (s : State) : Within 17179869185 (kvTick  s) := by
  unfold kvTick
  repeat' first
    | exact (rfl : (_ : Nat) = _)
    | exact (rfl : (_ : Bool) = _)
    | with_reducible first
      | exact wNil | exact wSeqNil | refine wSeq ?_ (fun _ => ?_) | refine wIf ?_ ?_ | refine wIfAct ?_ ?_ | refine wEach (fun _ _ => ?_)
      | apply Within.mono (w_freeHandle ..)
      | apply Within.mono (w_kvDiscard ..)
      | apply Within.mono (w_kvShowFree ..)
      | apply Within.mono (w_setKv ..)
    | (simp only [fieldOf]; decide)
    | intro _
    | split
    | extract_lets
    | (refine wRun ?_; split <;> intro _)
    | dsimp only

theorem w_kvDiscardPart (p : Nat) (s : State) : Within 17179869185 (kvDiscardPart p s) := by
  unfold kvDiscardPart
  repeat' first
    | exact (rfl : (_ : Nat) = _)
    | exact (rfl : (_ : Bool) = _)
    | with_reducible first
      | exact wNil
      | apply Within.mono (w_kvDiscard ..)
    | (simp only [fieldOf]; decide)
    | intro _
    | split
    | extract_lets
    | (refine wRun ?_; split <;> intro _)
    | dsimp only

theorem w_kvReset (c p : Nat) (s : State) : Within 17179869185 (kvReset c p s) := by
  unfold kvReset
  repeat' first
    | exact (rfl : (_ : Nat) = _)
    | exact (rfl : (_ : Bool) = _)
    | with_reducible first
      | exact wNil | exact wSeqNil | refine wSeq ?_ (fun _ => ?_) | refine wEach (fun _ _ => ?_)
      | apply Within.mono (w_setKv ..)
      | apply Within.mono (w_wr_hi _ _ _ ?_)
    | (simp only [fieldOf]; decide)
    | (show 0x200000200000 ≤ _; (try simp only [KVC_C_FREE, KVC_C_LIVE]); (repeat' split) <;> omega)
    | intro _
    | split
    | extract_lets
    | (refine wRun ?_; split <;> intro _)
    | dsimp only

theorem w_kvRemirror (p : Nat) (s : State) : Within 1 (kvRemirror p s) := by
  unfold kvRemirror
  repeat' first
    | exact (rfl : (_ : Nat) = _)
    | exact (rfl : (_ : Bool) = _)
    | with_reducible first
      | exact wNil | refine wEach (fun _ _ => ?_)
      | apply Within.mono (w_setF_hi _ _ _ ?_)
    | (simp only [fieldOf]; decide)
    | (show 0x200000200000 ≤ _; (try simp only [KVC_C_LIVE, KVC_C_LIVE_UNMIRRORED]); (repeat' split) <;> omega)
    | intro _
    | split
    | extract_lets
    | (refine wRun ?_; split <;> intro _)
    | dsimp only

theorem w_kvWake (p : Nat) (s : State) : Within 17179869185 (kvWake p s) := by
  unfold kvWake
  repeat' first
    | exact (rfl : (_ : Nat) = _)
    | exact (rfl : (_ : Bool) = _)
    | with_reducible first
      | exact wNil | refine wEach (fun _ _ => ?_)
      | apply Within.mono (w_kvReset ..)
    | (simp only [fieldOf]; decide)
    | intro _
    | split
    | extract_lets
    | (refine wRun ?_; split <;> intro _)
    | dsimp only

theorem w_kvDrainTimeout (d : Nat) (s : State) : Within 13215024545795 (kvDrainTimeout d s) := by
  unfold kvDrainTimeout
  repeat' first
    | exact (rfl : (_ : Nat) = _)
    | exact (rfl : (_ : Bool) = _)
    | with_reducible first
      | exact wNil | exact wSeqNil | refine wSeq ?_ (fun _ => ?_) | refine wEach (fun _ _ => ?_)
      | apply Within.mono (w_endDrain _ _ _ ?_)
      | apply Within.mono (w_kvEndFail ..)
      | apply Within.mono (w_kvFail ..)
      | apply Within.mono (w_kvShow ..)
      | apply Within.mono (w_setKv ..)
    | (simp only [fieldOf]; decide)
    | (show 0x200000200000 ≤ _; (try simp only [KVC_CTL, KVC_CTL_EN, KVC_STAT, KVC_STAT_STATE]); (repeat' split) <;> omega)
    | intro _
    | split
    | extract_lets
    | (refine wRun ?_; split <;> intro _)
    | dsimp only

theorem w_regShow (p : Nat) (s : State) : Within 1 (regShow p s) := by
  unfold regShow
  repeat' first
    | exact (rfl : (_ : Nat) = _)
    | exact (rfl : (_ : Bool) = _)
    | with_reducible first
      | exact wNil | exact wSeqNil | refine wSeq ?_ (fun _ => ?_) | refine wIf ?_ ?_ | refine wIfAct ?_ ?_
      | apply Within.mono (w_setF_hi _ _ _ ?_)
    | (simp only [fieldOf]; decide)
    | (show 0x200000200000 ≤ _; (try simp only [REG_HWM, REG_HWM_HWM, REG_STAT, REG_STAT_OUT, REG_STAT_OVER]); (repeat' split) <;> omega)
    | intro _
    | split
    | extract_lets
    | (refine wRun ?_; split <;> intro _)
    | dsimp only

theorem w_regEnter (src : Master) (tag prio : Nat) (isRead : Bool) (s : State) : Within 412316860417 (regEnter src tag prio isRead s) := by
  unfold regEnter
  repeat' first
    | exact (rfl : (_ : Nat) = _)
    | exact (rfl : (_ : Bool) = _)
    | with_reducible first
      | exact wNil | exact wSeqNil | refine wSeq ?_ (fun _ => ?_) | refine wWhen ?_ | refine wIf ?_ ?_ | refine wIfAct ?_ ?_ | refine wUpd ?_ | refine wApp ?_ ?_
      | apply Within.mono (w_inc64_hi _ _ _ ?_)
      | apply Within.mono (w_incReg_hi _ _ ?_)
      | apply Within.mono (w_regShow ..)
    | (simp only [fieldOf]; decide)
    | (show 0x200000200000 ≤ _; (try simp only [REG_OVER_CNT, REG_REQ, REG_REQ_LO]); (repeat' split) <;> omega)
    | intro _
    | split
    | extract_lets
    | (refine wRun ?_; split <;> intro _)
    | dsimp only

theorem w_regLeave (src : Master) (tag : Nat) (s : State) : Within 137438953473 (regLeave src tag s) := by
  unfold regLeave
  repeat' first
    | exact (rfl : (_ : Nat) = _)
    | exact (rfl : (_ : Bool) = _)
    | with_reducible first
      | exact wNil | exact wSeqNil | refine wSeq ?_ (fun _ => ?_) | refine wUpd ?_
      | apply Within.mono (w_regShow ..)
    | (simp only [fieldOf]; decide)
    | intro _
    | split
    | extract_lets
    | (refine wRun ?_; split <;> intro _)
    | dsimp only

theorem w_budgetWrite (p v : Nat) (s : State) : Within 1 (budgetWrite p v s) := by
  unfold budgetWrite
  repeat' first
    | exact (rfl : (_ : Nat) = _)
    | exact (rfl : (_ : Bool) = _)
    | with_reducible first
      | exact wNil | exact wSeqNil | refine wSeq ?_ (fun _ => ?_) | refine wIf ?_ ?_ | refine wIfAct ?_ ?_
      | apply Within.mono (w_regShow ..)
      | apply Within.mono (w_setF_hi _ _ _ ?_)
    | (simp only [fieldOf]; decide)
    | (show 0x200000200000 ≤ _; (try simp only [REG_BLIM, REG_BLIM_MAX, REG_BLIM_MIN, REG_BUDGET, REG_BUDGET_BUDGET]); (repeat' split) <;> omega)
    | intro _
    | split
    | extract_lets
    | (refine wRun ?_; split <;> intro _)
    | dsimp only

theorem w_budgetPolicy (p : Nat) (s : State) : Within 1 (budgetPolicy p s) := by
  unfold budgetPolicy
  repeat' first
    | exact (rfl : (_ : Nat) = _)
    | exact (rfl : (_ : Bool) = _)
    | with_reducible first
      | exact wNil | exact wSeqNil | refine wSeq ?_ (fun _ => ?_) | refine wIf ?_ ?_ | refine wIfAct ?_ ?_
      | apply Within.mono (w_budgetWrite ..)
      | apply Within.mono (w_incReg_hi _ _ ?_)
    | (simp only [fieldOf]; decide)
    | (show 0x200000200000 ≤ _; (try simp only [REG_BLIM, REG_BLIM_MAX, REG_BUDGET, REG_BUDGET_BUDGET, REG_CFG, REG_CFG_TUNE, REG_HWM, REG_HWM_HWM, REG_POL_CNT]); (repeat' split) <;> omega)
    | intro _
    | split
    | extract_lets
    | (refine wRun ?_; split <;> intro _)
    | dsimp only

theorem w_budgetGuard  (s : State) : Within 1 (budgetGuard  s) := by
  unfold budgetGuard
  repeat' first
    | exact (rfl : (_ : Nat) = _)
    | exact (rfl : (_ : Bool) = _)
    | with_reducible first
      | exact wNil | refine wIf ?_ ?_ | refine wIfAct ?_ ?_ | refine wEach (fun _ _ => ?_)
      | apply Within.mono (w_budgetPolicy ..)
    | (simp only [fieldOf]; decide)
    | intro _
    | split
    | extract_lets
    | (refine wRun ?_; split <;> intro _)
    | dsimp only

theorem w_regTick  (s : State) : Within 274877906945 (regTick  s) := by
  unfold regTick
  repeat' first
    | exact (rfl : (_ : Nat) = _)
    | exact (rfl : (_ : Bool) = _)
    | with_reducible first
      | exact wNil | exact wSeqNil | refine wSeq ?_ (fun _ => ?_) | refine wUpd ?_ | refine wEach (fun _ _ => ?_)
      | apply Within.mono (w_setF_hi _ _ _ ?_)
    | (simp only [fieldOf]; decide)
    | (show 0x200000200000 ≤ _; (try simp only [REG_HWM, REG_HWM_HWM, REG_LAT, REG_LAT_MAX]); (repeat' split) <;> omega)
    | intro _
    | split
    | extract_lets
    | (refine wRun ?_; split <;> intro _)
    | dsimp only

theorem w_chLatency (n ch x : Nat) (s : State) : Within 1 (chLatency n ch x s) := by
  unfold chLatency
  repeat' first
    | exact (rfl : (_ : Nat) = _)
    | exact (rfl : (_ : Bool) = _)
    | with_reducible first
      | exact wNil | exact wSeqNil | refine wSeq ?_ (fun _ => ?_) | refine wIf ?_ ?_ | refine wIfAct ?_ ?_
      | apply Within.mono (w_setF_hi _ _ _ ?_)
    | (simp only [fieldOf]; decide)
    | (show 0x200000200000 ≤ _; (try simp only [REG_CH_CFG, REG_CH_CFG_LAT_TGT_NS, REG_CH_LAT, REG_CH_LAT_AVG, REG_CH_LAT_BOOST, regChBase]); (repeat' split) <;> omega)
    | intro _
    | split
    | extract_lets
    | (refine wRun ?_; split <;> intro _)
    | dsimp only

theorem w_setDch (n ch : Nat) (f : DmaCh → DmaCh) (s : State) : Within 68719476736 (setDch n ch f s) := by
  unfold setDch
  repeat' first
    | exact (rfl : (_ : Nat) = _)
    | exact (rfl : (_ : Bool) = _)
    | with_reducible first
      | exact wNil | refine wCons ?_ ?_
    | (simp only [fieldOf]; decide)
    | intro _
    | split
    | extract_lets
    | (refine wRun ?_; split <;> intro _)
    | dsimp only

theorem w_setShadow (n ch : Nat) (ws : List Nat) (s : State) : Within 1 (setShadow n ch ws s) := by
  unfold setShadow
  repeat' first
    | exact (rfl : (_ : Nat) = _)
    | exact (rfl : (_ : Bool) = _)
    | with_reducible first
      | exact wNil | refine wIf ?_ ?_ | refine wIfAct ?_ ?_ | refine wEach (fun _ _ => ?_)
      | apply Within.mono (w_wr_hi _ _ _ ?_)
    | (simp only [fieldOf]; decide)
    | (show 0x200000200000 ≤ _; (try simp only [DMA_CH_OPC, dmaBase]); (repeat' split) <;> omega)
    | intro _
    | split
    | extract_lets
    | (refine wRun ?_; split <;> intro _)
    | dsimp only

theorem w_setActive (n ch : Nat) (ws : List Nat) (s : State) : Within 1 (setActive n ch ws s) := by
  unfold setActive
  repeat' first
    | exact (rfl : (_ : Nat) = _)
    | exact (rfl : (_ : Bool) = _)
    | with_reducible first
      | exact wNil | refine wEach (fun _ _ => ?_)
      | apply Within.mono (w_wr_hi _ _ _ ?_)
    | (simp only [fieldOf]; decide)
    | (show 0x200000200000 ≤ _; (try simp only [DMA_CH_ACT_OPC, dmaBase]); (repeat' split) <;> omega)
    | intro _
    | split
    | extract_lets
    | (refine wRun ?_; split <;> intro _)
    | dsimp only

theorem w_dmaRecord (n ch st pitch addr : Nat) (s : State) : Within 1 (dmaRecord n ch st pitch addr s) := by
  unfold dmaRecord
  repeat' first
    | exact (rfl : (_ : Nat) = _)
    | exact (rfl : (_ : Bool) = _)
    | with_reducible first
      | exact wNil | exact wSeqNil | refine wSeq ?_ (fun _ => ?_)
      | apply Within.mono (w_wr_hi _ _ _ ?_)
      | apply Within.mono (w_wr64_hi _ _ _ ?_)
    | (simp only [fieldOf]; decide)
    | (show 0x200000200000 ≤ _; (try simp only [DMA_CH_ERR, DMA_CH_ERR_ADDR, DMA_CH_ERR_ADDR_LO, dmaBase]); (repeat' split) <;> omega)
    | intro _
    | split
    | extract_lets
    | (refine wRun ?_; split <;> intro _)
    | dsimp only

theorem w_dmaArm (n ch : Nat) (s : State) : Within 1 (dmaArm n ch s) := by
  unfold dmaArm
  repeat' first
    | exact (rfl : (_ : Nat) = _)
    | exact (rfl : (_ : Bool) = _)
    | with_reducible first
      | exact wNil
      | apply Within.mono (w_setF_hi _ _ _ ?_)
    | (simp only [fieldOf]; decide)
    | (show 0x200000200000 ≤ _; (try simp only [DMA_CH_CTL, DMA_CH_CTL_ARM, dmaBase]); (repeat' split) <;> omega)
    | intro _
    | split
    | extract_lets
    | (refine wRun ?_; split <;> intro _)
    | dsimp only

theorem w_chainFail (n ch st addr : Nat) (s : State) : Within 68719476736 (chainFail n ch st addr s) := by
  unfold chainFail
  repeat' first
    | exact (rfl : (_ : Nat) = _)
    | exact (rfl : (_ : Bool) = _)
    | with_reducible first
      | exact wNil | refine wIf ?_ ?_ | refine wIfAct ?_ ?_ | refine wApp ?_ ?_
      | apply Within.mono (w_setDch ..)
    | (simp only [fieldOf]; decide)
    | intro _
    | split
    | extract_lets
    | (refine wRun ?_; split <;> intro _)
    | dsimp only

theorem w_dmaFetchWrite (n ch lo : Nat) (s : State) : Within 68719476737 (dmaFetchWrite n ch lo s) := by
  unfold dmaFetchWrite
  repeat' first
    | exact (rfl : (_ : Nat) = _)
    | exact (rfl : (_ : Bool) = _)
    | with_reducible first
      | exact wNil | exact wSeqNil | refine wSeq ?_ (fun _ => ?_) | refine wIf ?_ ?_ | refine wIfAct ?_ ?_
      | apply Within.mono (w_setDch ..)
      | apply Within.mono (w_setF_hi _ _ _ ?_)
      | apply Within.mono (w_wr_hi _ _ _ ?_)
    | (simp only [fieldOf]; decide)
    | (show 0x200000200000 ≤ _; (try simp only [DMA_CH_CTL, DMA_CH_CTL_ARM, DMA_CH_FETCH_HI, DMA_CH_FETCH_LO, DMA_CH_STAT, DMA_CH_STAT_SHW_IGN, dmaBase]); (repeat' split) <;> omega)
    | intro _
    | split
    | extract_lets
    | (refine wRun ?_; split <;> intro _)
    | dsimp only

theorem w_dmaGo (n ch : Nat) (s : State) : Within 1 (dmaGo n ch s) := by
  unfold dmaGo
  repeat' first
    | exact (rfl : (_ : Nat) = _)
    | exact (rfl : (_ : Bool) = _)
    | with_reducible first
      | exact wNil | refine wIf ?_ ?_ | refine wIfAct ?_ ?_
      | apply Within.mono (w_setF_hi _ _ _ ?_)
    | (simp only [fieldOf]; decide)
    | (show 0x200000200000 ≤ _; (try simp only [DMA_CH_STAT, DMA_CH_STAT_RUN, dmaBase]); (repeat' split) <;> omega)
    | intro _
    | split
    | extract_lets
    | (refine wRun ?_; split <;> intro _)
    | dsimp only

theorem w_dmaSignal (n ch : Nat) (t : DmaTrack) (st : Nat) (s : State) : Within 13197844676611 (dmaSignal n ch t st s) := by
  unfold dmaSignal
  repeat' first
    | exact (rfl : (_ : Nat) = _)
    | exact (rfl : (_ : Bool) = _)
    | with_reducible first
      | exact wNil | refine wWhen ?_
      | apply Within.mono (w_signalWord ..)
    | (simp only [fieldOf]; decide)
    | intro _
    | split
    | extract_lets
    | (refine wRun ?_; split <;> intro _)
    | dsimp only

theorem w_dmaFault (n ch : Nat) (t : DmaTrack) (st : Nat) (s : State) : Within 604462909807314587353088 (dmaFault n ch t st s) := by
  unfold dmaFault
  repeat' first
    | exact (rfl : (_ : Nat) = _)
    | exact (rfl : (_ : Bool) = _)
    | with_reducible first
      | exact wNil | refine wIf ?_ ?_ | refine wIfAct ?_ ?_
      | apply Within.mono (w_raiseJobFault ..)
    | (simp only [fieldOf]; decide)
    | intro _
    | split
    | extract_lets
    | (refine wRun ?_; split <;> intro _)
    | dsimp only

theorem w_dmaEnd (n ch : Nat) (keep : Nat → Bool) (s : State) : Within 68719476737 (dmaEnd n ch keep s) := by
  unfold dmaEnd
  repeat' first
    | exact (rfl : (_ : Nat) = _)
    | exact (rfl : (_ : Bool) = _)
    | with_reducible first
      | exact wNil | exact wSeqNil | refine wSeq ?_ (fun _ => ?_) | refine wWhen ?_ | refine wIf ?_ ?_ | refine wIfAct ?_ ?_
      | apply Within.mono (w_addReg_hi _ _ _ ?_)
      | apply Within.mono (w_setDch ..)
      | apply Within.mono (w_setF_hi _ _ _ ?_)
      | apply Within.mono (w_wr_hi _ _ _ ?_)
    | (simp only [fieldOf]; decide)
    | (show 0x200000200000 ≤ _; (try simp only [DMA_CH_CTL, DMA_CH_CTL_ARM, DMA_CH_OPC, DMA_CH_STALE_CNT, DMA_CH_STAT, DMA_CH_STAT_RUN, dmaBase]); (repeat' split) <;> omega)
    | intro _
    | split
    | extract_lets
    | (refine wRun ?_; split <;> intro _)
    | dsimp only

theorem w_dmaTick  (s : State) : Within 68719476737 (dmaTick  s) := by
  unfold dmaTick
  repeat' first
    | exact (rfl : (_ : Nat) = _)
    | exact (rfl : (_ : Bool) = _)
    | with_reducible first
      | exact wNil | refine wEach (fun _ _ => ?_)
      | apply Within.mono (w_dmaEnd ..)
    | (simp only [fieldOf]; decide)
    | intro _
    | split
    | extract_lets
    | (refine wRun ?_; split <;> intro _)
    | dsimp only

theorem w_dmaPartEnd (p : Nat) (s : State) : Within 68719476737 (dmaPartEnd p s) := by
  unfold dmaPartEnd
  repeat' first
    | exact (rfl : (_ : Nat) = _)
    | exact (rfl : (_ : Bool) = _)
    | with_reducible first
      | exact wNil | refine wEach (fun _ _ => ?_)
      | apply Within.mono (w_dmaEnd ..)
    | (simp only [fieldOf]; decide)
    | intro _
    | split
    | extract_lets
    | (refine wRun ?_; split <;> intro _)
    | dsimp only

theorem w_dmaDrainTimeout (n ch : Nat) (s : State) : Within 604462909820581151506435 (dmaDrainTimeout n ch s) := by
  unfold dmaDrainTimeout
  repeat' first
    | exact (rfl : (_ : Nat) = _)
    | exact (rfl : (_ : Bool) = _)
    | with_reducible first
      | exact wNil | exact wSeqNil | refine wSeq ?_ (fun _ => ?_) | refine wIf ?_ ?_ | refine wIfAct ?_ ?_ | refine wApp ?_ ?_ | refine wEach (fun _ _ => ?_)
      | apply Within.mono (w_dmaFault ..)
      | apply Within.mono (w_dmaRecord ..)
      | apply Within.mono (w_dmaSignal ..)
      | apply Within.mono (w_endDrain _ _ _ ?_)
      | apply Within.mono (w_incReg_hi _ _ ?_)
      | apply Within.mono (w_setDch ..)
      | apply Within.mono (w_setF_hi _ _ _ ?_)
    | (simp only [fieldOf]; decide)
    | (show 0x200000200000 ≤ _; (try simp only [DMA_CH_ABORT_CNT, DMA_CH_CTL, DMA_CH_CTL_ARM, DMA_CH_CTL_EN, DMA_CH_STAT, DMA_CH_STAT_RUN, DMA_CH_STAT_STATE, dmaBase]); (repeat' split) <;> omega)
    | intro _
    | split
    | extract_lets
    | (refine wRun ?_; split <;> intro _)
    | dsimp only

theorem w_winDrop (m : Master) (w st : Nat) (s : State) : Within 1 (winDrop m w st s) := by
  unfold winDrop
  repeat' first
    | exact (rfl : (_ : Nat) = _)
    | exact (rfl : (_ : Bool) = _)
    | with_reducible first
      | exact wNil | exact wNop | exact wSeqNil | refine wSeq ?_ (fun _ => ?_) | refine wIf ?_ ?_ | refine wIfAct ?_ ?_
      | apply Within.mono (w_incReg_hi _ _ ?_)
      | apply Within.mono (w_wr_hi _ _ _ ?_)
    | (simp only [fieldOf]; decide)
    | (show 0x200000200000 ≤ _; (try simp only [DMA_WIN_DROP_CNT, DMA_WIN_DROP_SRC, DMA_WIN_DROP_SRC_VALID]); (repeat' split) <;> omega)
    | intro _
    | split
    | extract_lets
    | (refine wRun ?_; split <;> intro _)
    | dsimp only

theorem w_performRead (op : ReqOp) (r : Req) (s : State) : Within 13197763420161 (performRead op r s) := by
  unfold performRead
  repeat' first
    | exact (rfl : (_ : Nat) = _)
    | exact (rfl : (_ : Bool) = _)
    | with_reducible first
      | exact wNil | exact wSeqNil | refine wSeq ?_ (fun _ => ?_) | refine wIf ?_ ?_ | refine wIfAct ?_ ?_
      | apply Within.mono (w_respond ..)
      | apply Within.mono (w_unitRead ..)
    | (simp only [fieldOf]; decide)
    | intro _
    | split
    | extract_lets
    | (refine wRun ?_; split <;> intro _)
    | dsimp only

theorem w_performWrite (op : ReqOp) (r : Req) (s : State) : Within 13197844684803 (performWrite op r s) := by
  unfold performWrite
  repeat' first
    | exact (rfl : (_ : Nat) = _)
    | exact (rfl : (_ : Bool) = _)
    | with_reducible first
      | exact wNil | exact wSeqNil | refine wSeq ?_ (fun _ => ?_)
      | apply Within.mono (w_respond ..)
      | apply Within.mono (w_unitWrite ..)
    | (simp only [fieldOf]; decide)
    | intro _
    | split
    | extract_lets
    | (refine wRun ?_; split <;> intro _)
    | dsimp only

theorem w_performAtomic (op : ReqOp) (r : Req) (s : State) : Within 13197844684803 (performAtomic op r s) := by
  unfold performAtomic
  repeat' first
    | exact (rfl : (_ : Nat) = _)
    | exact (rfl : (_ : Bool) = _)
    | with_reducible first
      | exact wNil | exact wSeqNil | refine wSeq ?_ (fun _ => ?_) | refine wIf ?_ ?_ | refine wIfAct ?_ ?_
      | apply Within.mono (w_respond ..)
      | apply Within.mono (w_unitRead ..)
      | apply Within.mono (w_unitWrite ..)
    | (simp only [fieldOf]; decide)
    | intro _
    | split
    | extract_lets
    | (refine wRun ?_; split <;> intro _)
    | dsimp only

theorem w_performFill (r : Req) (s : State) : Within 13197844684803 (performFill r s) := by
  unfold performFill
  repeat' first
    | exact (rfl : (_ : Nat) = _)
    | exact (rfl : (_ : Bool) = _)
    | with_reducible first
      | exact wNil | exact wSeqNil | refine wSeq ?_ (fun _ => ?_) | refine wIf ?_ ?_ | refine wIfAct ?_ ?_
      | apply Within.mono (w_performWrite ..)
      | apply Within.mono (w_recordRefusal ..)
      | apply Within.mono (w_respond ..)
    | (simp only [fieldOf]; decide)
    | intro _
    | split
    | extract_lets
    | (refine wRun ?_; split <;> intro _)
    | dsimp only

theorem w_copyBody (r : Req) (s : State) : Within 13197844676611 (copyBody r s) := by
  unfold copyBody
  repeat' first
    | exact (rfl : (_ : Nat) = _)
    | exact (rfl : (_ : Bool) = _)
    | with_reducible first
      | exact wNil | exact wSeqNil | refine wSeq ?_ (fun _ => ?_) | refine wIf ?_ ?_ | refine wIfAct ?_ ?_ | refine wUpd ?_ | refine wEach (fun _ _ => ?_)
      | apply Within.mono (w_recordRefusal ..)
      | apply Within.mono (w_refuseDark ..)
      | apply Within.mono (w_unitRead ..)
      | apply Within.mono (w_unitWrite ..)
    | (simp only [fieldOf]; decide)
    | intro _
    | split
    | extract_lets
    | (refine wRun ?_; split <;> intro _)
    | dsimp only

theorem w_performCopy (r : Req) (s : State) : Within 13197844684803 (performCopy r s) := by
  unfold performCopy
  repeat' first
    | exact (rfl : (_ : Nat) = _)
    | exact (rfl : (_ : Bool) = _)
    | with_reducible first
      | exact wNil | exact wSeqNil | refine wSeq ?_ (fun _ => ?_)
      | apply Within.mono (w_copyBody ..)
      | apply Within.mono (w_respond ..)
    | (simp only [fieldOf]; decide)
    | intro _
    | split
    | extract_lets
    | (refine wRun ?_; split <;> intro _)
    | dsimp only

theorem w_performWatch (r : Req) (s : State) : Within 3226214401 (performWatch r s) := by
  unfold performWatch
  repeat' first
    | exact (rfl : (_ : Nat) = _)
    | exact (rfl : (_ : Bool) = _)
    | with_reducible first
      | exact wNil | exact wSeqNil | refine wSeq ?_ (fun _ => ?_) | refine wIf ?_ ?_ | refine wIfAct ?_ ?_
      | apply Within.mono (w_incReg_hi _ _ ?_)
      | apply Within.mono (w_placeWatch ..)
      | apply Within.mono (w_recordRefusal ..)
      | apply Within.mono (w_refuseDark ..)
      | apply Within.mono (w_respond ..)
    | (simp only [fieldOf]; decide)
    | (show 0x200000200000 ≤ _; (try simp only [CORE_POLL_CNT, coreBase]); (repeat' split) <;> omega)
    | intro _
    | split
    | extract_lets
    | (refine wRun ?_; split <;> intro _)
    | dsimp only

theorem w_performWin (op : ReqOp) (r : Req) (s : State) : Within 13197844684803 (performWin op r s) := by
  unfold performWin
  repeat' first
    | exact (rfl : (_ : Nat) = _)
    | exact (rfl : (_ : Bool) = _)
    | with_reducible first
      | exact wNil | exact wSeqNil | refine wSeq ?_ (fun _ => ?_) | refine wWhen ?_ | refine wIf ?_ ?_ | refine wIfAct ?_ ?_
      | apply Within.mono (w_performRead ..)
      | apply Within.mono (w_performWrite ..)
      | apply Within.mono (w_respond ..)
      | apply Within.mono (w_winDrop ..)
    | (simp only [fieldOf]; decide)
    | intro _
    | split
    | extract_lets
    | (refine wRun ?_; split <;> intro _)
    | dsimp only

theorem w_performMem (op : ReqOp) (r : Req) (s : State) : Within 13197844946947 (performMem op r s) := by
  unfold performMem
  repeat' first
    | exact (rfl : (_ : Nat) = _)
    | exact (rfl : (_ : Bool) = _)
    | with_reducible first
      | exact wNil
      | apply Within.mono (w_performAtomic ..)
      | apply Within.mono (w_performCopy ..)
      | apply Within.mono (w_performFill ..)
      | apply Within.mono (w_performRead ..)
      | apply Within.mono (w_performWatch ..)
      | apply Within.mono (w_performWin ..)
      | apply Within.mono (w_performWrite ..)
    | (simp only [fieldOf]; decide)
    | intro _
    | split
    | extract_lets
    | (refine wRun ?_; split <;> intro _)
    | dsimp only

theorem w_showHeld (k : Nat) (s : State) : Within 1 (showHeld k s) := by
  unfold showHeld
  repeat' first
    | exact (rfl : (_ : Nat) = _)
    | exact (rfl : (_ : Bool) = _)
    | with_reducible first
      | exact wNil | refine wIf ?_ ?_ | refine wIfAct ?_ ?_
      | apply Within.mono (w_setF_hi _ _ _ ?_)
    | (simp only [fieldOf]; decide)
    | (show 0x200000200000 ≤ _; (try simp only [BNK_INFL, BNK_INFL_COUNT]); (repeat' split) <;> omega)
    | intro _
    | split
    | extract_lets
    | (refine wRun ?_; split <;> intro _)
    | dsimp only

theorem w_memArrive (op : ReqOp) (r : Req) (s : State) : Within 13197863821315 (memArrive op r s) := by
  unfold memArrive
  repeat' first
    | exact (rfl : (_ : Nat) = _)
    | exact (rfl : (_ : Bool) = _)
    | with_reducible first
      | exact wNil | exact wSeqNil | refine wSeq ?_ (fun _ => ?_) | refine wIf ?_ ?_ | refine wIfAct ?_ ?_ | refine wUpd ?_ | refine wCons ?_ ?_ | refine wApp ?_ ?_
      | apply Within.mono (w_performMem ..)
      | apply Within.mono (w_showHeld ..)
    | (simp only [fieldOf]; decide)
    | intro _
    | split
    | extract_lets
    | (refine wRun ?_; split <;> intro _)
    | dsimp only

theorem w_heldRelease  (s : State) : Within 13197847044099 (heldRelease  s) := by
  unfold heldRelease
  repeat' first
    | exact (rfl : (_ : Nat) = _)
    | exact (rfl : (_ : Bool) = _)
    | with_reducible first
      | exact wNil | exact wSeqNil | refine wSeq ?_ (fun _ => ?_) | refine wIf ?_ ?_ | refine wIfAct ?_ ?_ | refine wUpd ?_ | refine wEach (fun _ _ => ?_)
      | apply Within.mono (w_performMem ..)
    | (simp only [fieldOf]; decide)
    | intro _
    | split
    | extract_lets
    | (refine wRun ?_; split <;> intro _)
    | dsimp only

theorem w_settleCore (g : Nat) (s : State) : Within 9020397099679747 (settleCore g s) := by
  unfold settleCore
  repeat' first
    | exact (rfl : (_ : Nat) = _)
    | exact (rfl : (_ : Bool) = _)
    | with_reducible first
      | exact wNil | refine wEach (fun _ _ => ?_)
      | apply Within.mono (w_settleThread ..)
    | (simp only [fieldOf]; decide)
    | intro _
    | split
    | extract_lets
    | (refine wRun ?_; split <;> intro _)
    | dsimp only

theorem w_wakeRelease (k : Nat) (s : State) : Within 13197863821315 (wakeRelease k s) := by
  unfold wakeRelease
  repeat' first
    | exact (rfl : (_ : Nat) = _)
    | exact (rfl : (_ : Bool) = _)
    | with_reducible first
      | exact wNil | exact wSeqNil | refine wSeq ?_ (fun _ => ?_) | refine wUpd ?_ | refine wEach (fun _ _ => ?_)
      | apply Within.mono (w_memArrive ..)
      | apply Within.mono (w_showHeld ..)
    | (simp only [fieldOf]; decide)
    | intro _
    | split
    | extract_lets
    | (refine wRun ?_; split <;> intro _)
    | dsimp only

theorem w_setAnc (x : Nat) (f : Anc → Anc) (s : State) : Within 9223372036854775808 (setAnc x f s) := by
  unfold setAnc
  repeat' first
    | exact (rfl : (_ : Nat) = _)
    | exact (rfl : (_ : Bool) = _)
    | with_reducible first
      | exact wNil | refine wCons ?_ ?_
    | (simp only [fieldOf]; decide)
    | intro _
    | split
    | extract_lets
    | (refine wRun ?_; split <;> intro _)
    | dsimp only

theorem w_xsend (x : Nat) (m : XMsg) (s : State) : Within 4835703278458516698824704 (xsend x m s) := by
  unfold xsend
  repeat' first
    | exact (rfl : (_ : Nat) = _)
    | exact (rfl : (_ : Bool) = _)
    | with_reducible first
      | exact wNil | refine wCons ?_ ?_ | refine wApp ?_ ?_
    | (simp only [fieldOf]; decide)
    | intro _
    | split
    | extract_lets
    | (refine wRun ?_; split <;> intro _)
    | dsimp only

theorem w_belayStart (x cause tb : Nat) (plan : Option Traj) (mismatch : Bool) (s : State) : Within 9223372036854775813 (belayStart x cause tb plan mismatch s) := by
  unfold belayStart
  repeat' first
    | exact (rfl : (_ : Nat) = _)
    | exact (rfl : (_ : Bool) = _)
    | with_reducible first
      | exact wNil | exact wSeqNil | refine wSeq ?_ (fun _ => ?_) | refine wIf ?_ ?_ | refine wIfAct ?_ ?_ | refine wApp ?_ ?_
      | apply Within.mono (w_ancLog ..)
      | apply Within.mono (w_incReg_hi _ _ ?_)
      | apply Within.mono (w_setAnc ..)
      | apply Within.mono (w_setF_hi _ _ _ ?_)
      | apply Within.mono (w_wr64_hi _ _ _ ?_)
    | (simp only [fieldOf]; decide)
    | (show 0x200000200000 ≤ _; (try simp only [ANC_BLY_CNT, ANC_BLY_STAT, ANC_BLY_STAT_ACTIVE, ANC_BLY_STAT_CAUSE, ANC_BLY_STAT_MISMATCH, ANC_BLY_STAT_SRC_PITCH, ANC_BLY_T0, ANC_BLY_T0_LO, ANC_STAT, ANC_STAT_STATE, ancBase]); (repeat' split) <;> omega)
    | intro _
    | split
    | extract_lets
    | (refine wRun ?_; split <;> intro _)
    | dsimp only

theorem w_belayEnter (x cause : Nat) (s : State) : Within 4835712501830553553600517 (belayEnter x cause s) := by
  unfold belayEnter
  repeat' first
    | exact (rfl : (_ : Nat) = _)
    | exact (rfl : (_ : Bool) = _)
    | with_reducible first
      | exact wNil | exact wSeqNil | refine wSeq ?_ (fun _ => ?_) | refine wIf ?_ ?_ | refine wIfAct ?_ ?_ | refine wCons ?_ ?_
      | apply Within.mono (w_ancLogB ..)
      | apply Within.mono (w_belayStart ..)
      | apply Within.mono (w_setAnc ..)
      | apply Within.mono (w_xsend ..)
    | (simp only [fieldOf]; decide)
    | intro _
    | split
    | extract_lets
    | (refine wRun ?_; split <;> intro _)
    | dsimp only

theorem w_belayExit (x : Nat) (s : State) : Within 4835712501830553553600517 (belayExit x s) := by
  unfold belayExit
  repeat' first
    | exact (rfl : (_ : Nat) = _)
    | exact (rfl : (_ : Bool) = _)
    | with_reducible first
      | exact wNil | exact wSeqNil | refine wSeq ?_ (fun _ => ?_)
      | apply Within.mono (w_ancLogB ..)
      | apply Within.mono (w_setAnc ..)
      | apply Within.mono (w_setF_hi _ _ _ ?_)
      | apply Within.mono (w_xsend ..)
    | (simp only [fieldOf]; decide)
    | (show 0x200000200000 ≤ _; (try simp only [ANC_BLY_STAT, ANC_BLY_STAT_ACTIVE, ANC_BLY_STAT_CAUSE, ANC_BLY_STAT_MISMATCH, ANC_STAT, ANC_STAT_STATE, ancBase]); (repeat' split) <;> omega)
    | intro _
    | split
    | extract_lets
    | (refine wRun ?_; split <;> intro _)
    | dsimp only

theorem w_tickFault (x : Nat) (interval : List Byte) (s : State) : Within 4835712501830553553600517 (tickFault x interval s) := by
  unfold tickFault
  repeat' first
    | exact (rfl : (_ : Nat) = _)
    | exact (rfl : (_ : Bool) = _)
    | with_reducible first
      | exact wNil | exact wSeqNil | refine wSeq ?_ (fun _ => ?_)
      | apply Within.mono (w_ancLog ..)
      | apply Within.mono (w_belayEnter ..)
      | apply Within.mono (w_setAnc ..)
      | apply Within.mono (w_setF_hi _ _ _ ?_)
    | (simp only [fieldOf]; decide)
    | (show 0x200000200000 ≤ _; (try simp only [ANC_STAT, ANC_STAT_TICK_FAULT, ancBase]); (repeat' split) <;> omega)
    | intro _
    | split
    | extract_lets
    | (refine wRun ?_; split <;> intro _)
    | dsimp only

theorem w_ownTimer (x : Nat) (s : State) : Within 9223372036854775808 (ownTimer x s) := by
  unfold ownTimer
  repeat' first
    | exact (rfl : (_ : Nat) = _)
    | exact (rfl : (_ : Bool) = _)
    | with_reducible first
      | exact wNil | refine wIf ?_ ?_ | refine wIfAct ?_ ?_
      | apply Within.mono (w_setAnc ..)
    | (simp only [fieldOf]; decide)
    | intro _
    | split
    | extract_lets
    | (refine wRun ?_; split <;> intro _)
    | dsimp only

theorem w_ancNewPitch (x : Nat) (s : State) : Within 9223372036854775808 (ancNewPitch x s) := by
  unfold ancNewPitch
  repeat' first
    | exact (rfl : (_ : Nat) = _)
    | exact (rfl : (_ : Bool) = _)
    | with_reducible first
      | exact wNil
      | apply Within.mono (w_setAnc ..)
    | (simp only [fieldOf]; decide)
    | intro _
    | split
    | extract_lets
    | (refine wRun ?_; split <;> intro _)
    | dsimp only

theorem w_ancReport (x t : Nat) (s : State) : Within 9223372036854775813 (ancReport x t s) := by
  unfold ancReport
  repeat' first
    | exact (rfl : (_ : Nat) = _)
    | exact (rfl : (_ : Bool) = _)
    | with_reducible first
      | exact wNil | exact wSeqNil | refine wSeq ?_ (fun _ => ?_) | refine wWhen ?_ | refine wIf ?_ ?_ | refine wIfAct ?_ ?_ | refine wCons ?_ ?_ | refine wApp ?_ ?_
      | apply Within.mono (w_ancLog ..)
      | apply Within.mono (w_setAnc ..)
      | apply Within.mono (w_wr_hi _ _ _ ?_)
    | (simp only [fieldOf]; decide)
    | (show 0x200000200000 ≤ _; (try simp only [SUP_TASK_LAST, ancBase]); (repeat' split) <;> omega)
    | intro _
    | split
    | extract_lets
    | (refine wRun ?_; split <;> intro _)
    | dsimp only

theorem w_ancTake (x : Nat) (m : FwdMsg) (s : State) : Within 9223372036854775813 (ancTake x m s) := by
  unfold ancTake
  repeat' first
    | exact (rfl : (_ : Nat) = _)
    | exact (rfl : (_ : Bool) = _)
    | with_reducible first
      | exact wNil | refine wIf ?_ ?_ | refine wIfAct ?_ ?_ | refine wEach (fun _ _ => ?_)
      | apply Within.mono (w_ancLog ..)
      | apply Within.mono (w_ancLogB ..)
      | apply Within.mono (w_ancReport ..)
      | apply Within.mono (w_setAnc ..)
      | apply Within.mono (w_sramStore ..)
    | (simp only [fieldOf]; decide)
    | intro _
    | split
    | extract_lets
    | (refine wRun ?_; split <;> intro _)
    | dsimp only

theorem w_traceRecord (m : FwdMsg) (s : State) : Within 9671406556930231242326019 (traceRecord m s) := by
  unfold traceRecord
  repeat' first
    | exact (rfl : (_ : Nat) = _)
    | exact (rfl : (_ : Bool) = _)
    | with_reducible first
      | exact wNil | exact wSeqNil | refine wSeq ?_ (fun _ => ?_) | refine wWhen ?_ | refine wIf ?_ ?_ | refine wIfAct ?_ ?_ | refine wUpd ?_ | refine wCons ?_ ?_ | refine wApp ?_ ?_
      | apply Within.mono (w_setF_hi _ _ _ ?_)
      | apply Within.mono (w_unitWrite ..)
    | (simp only [fieldOf]; decide)
    | (show 0x200000200000 ≤ _; (try simp only [CRN_STAT, CRN_STAT_TRACE, ancBase]); (repeat' split) <;> omega)
    | intro _
    | split
    | extract_lets
    | (refine wRun ?_; split <;> intro _)
    | dsimp only

theorem w_mbxWrite (src : Master) (t : Nat) (s : State) : Within 72057597259153408 (mbxWrite src t s) := by
  unfold mbxWrite
  repeat' first
    | exact (rfl : (_ : Nat) = _)
    | exact (rfl : (_ : Bool) = _)
    | with_reducible first
      | exact wNil
      | apply Within.mono (w_recordRefusal ..)
      | apply Within.mono (w_sendFwd ..)
    | (simp only [fieldOf]; decide)
    | intro _
    | split
    | extract_lets
    | (refine wRun ?_; split <;> intro _)
    | dsimp only

theorem w_trajDone (src : Master) (p : Nat) (s : State) : Within 72057597259153408 (trajDone src p s) := by
  unfold trajDone
  repeat' first
    | exact (rfl : (_ : Nat) = _)
    | exact (rfl : (_ : Bool) = _)
    | with_reducible first
      | exact wNil | refine wIf ?_ ?_ | refine wIfAct ?_ ?_
      | apply Within.mono (w_recordRefusal ..)
      | apply Within.mono (w_sendFwd ..)
    | (simp only [fieldOf]; decide)
    | intro _
    | split
    | extract_lets
    | (refine wRun ?_; split <;> intro _)
    | dsimp only

theorem w_giveVerdict (x v missed ghosts : Nat) (s : State) : Within 4835712501830587913338885 (giveVerdict x v missed ghosts s) := by
  unfold giveVerdict
  repeat' first
    | exact (rfl : (_ : Nat) = _)
    | exact (rfl : (_ : Bool) = _)
    | with_reducible first
      | exact wNil | exact wNop | exact wSeqNil | refine wSeq ?_ (fun _ => ?_) | refine wWhen ?_ | refine wIf ?_ ?_ | refine wIfAct ?_ ?_
      | apply Within.mono (w_ancLogB ..)
      | apply Within.mono (w_ancReport ..)
      | apply Within.mono (w_belayEnter ..)
      | apply Within.mono (w_belayExit ..)
      | apply Within.mono (w_decideRestart ..)
      | apply Within.mono (w_incReg_hi _ _ ?_)
      | apply Within.mono (w_setAnc ..)
      | apply Within.mono (w_setF_hi _ _ _ ?_)
      | apply Within.mono (w_wr_hi _ _ _ ?_)
      | apply Within.mono (w_xsend ..)
    | (simp only [fieldOf]; decide)
    | (show 0x200000200000 ≤ _; (try simp only [ANC_DIS_CNT, ANC_LAST_CNT, ANC_STAT, ANC_STAT_ALONE, ANC_STAT_DIS_RUN, ANC_STAT_SPOTTER_LOST, ANC_VERDICT, SUP_CFG, SUP_CFG_RESUME_N, SUP_SPT_CFG, SUP_SPT_CFG_NOVERDICT_MAX, ancBase]); (repeat' split) <;> omega)
    | intro _
    | split
    | extract_lets
    | (refine wRun ?_; split <;> intro _)
    | dsimp only

theorem w_overrunMsg (x t owner n : Nat) (s : State) : Within 4383536759794540052217859 (overrunMsg x t owner n s) := by
  unfold overrunMsg
  repeat' first
    | exact (rfl : (_ : Nat) = _)
    | exact (rfl : (_ : Bool) = _)
    | with_reducible first
      | exact wNil | refine wIf ?_ ?_ | refine wIfAct ?_ ?_
      | apply Within.mono (w_overrunFault ..)
      | apply Within.mono (w_unitEvent ..)
    | (simp only [fieldOf]; decide)
    | intro _
    | split
    | extract_lets
    | (refine wRun ?_; split <;> intro _)
    | dsimp only

theorem w_ancAReset  (s : State) : Within 108948394863670381224520581125 (ancAReset  s) := by
  unfold ancAReset
  repeat' first
    | exact (rfl : (_ : Nat) = _)
    | exact (rfl : (_ : Bool) = _)
    | with_reducible first
      | exact wNil | exact wSeqNil | refine wSeq ?_ (fun _ => ?_) | refine wWhen ?_ | refine wIf ?_ ?_ | refine wIfAct ?_ ?_ | refine wUpd ?_ | refine wCons ?_ ?_ | refine wApp ?_ ?_ | refine wEach (fun _ _ => ?_)
      | apply Within.mono (w_ancLog ..)
      | apply Within.mono (w_setF_hi _ _ _ ?_)
    | (simp only [fieldOf]; decide)
    | (show 0x200000200000 ≤ _; (try simp only [SEC_Q_STAT, SEC_Q_STAT_CODE, SEC_Q_STAT_STATE]); (repeat' split) <;> omega)
    | intro _
    | split
    | extract_lets
    | (refine wRun ?_; split <;> intro _)
    | dsimp only

theorem w_ancReset (x : Nat) (s : State) : Within 113904990733313732877670678533 (ancReset x s) := by
  unfold ancReset
  repeat' first
    | exact (rfl : (_ : Nat) = _)
    | exact (rfl : (_ : Bool) = _)
    | with_reducible first
      | exact wNil | exact wSeqNil | refine wSeq ?_ (fun _ => ?_) | refine wWhen ?_ | refine wIf ?_ ?_ | refine wIfAct ?_ ?_ | refine wCons ?_ ?_
      | apply Within.mono (w_ancAReset ..)
      | apply Within.mono (w_resetRegs _ _ _ _ ?_)
      | apply Within.mono (w_setAnc ..)
    | (simp only [fieldOf]; decide)
    | (show 0x200000200000 ≤ _; (try simp only [ANC_LOG_HEAD, ancBase]); (repeat' split) <;> omega)
    | intro _
    | split
    | extract_lets
    | (refine wRun ?_; split <;> intro _)
    | dsimp only

theorem w_ancSelfReset (x cause : Nat) (s : State) : Within 113904990733313732877670678533 (ancSelfReset x cause s) := by
  unfold ancSelfReset
  repeat' first
    | exact (rfl : (_ : Nat) = _)
    | exact (rfl : (_ : Bool) = _)
    | with_reducible first
      | exact wNil | exact wSeqNil | refine wSeq ?_ (fun _ => ?_)
      | apply Within.mono (w_ancLogB ..)
      | apply Within.mono (w_ancReset ..)
      | apply Within.mono (w_incReg_hi _ _ ?_)
    | (simp only [fieldOf]; decide)
    | (show 0x200000200000 ≤ _; (try simp only [ANC_LSK_RESET_CNT, ancBase]); (repeat' split) <;> omega)
    | intro _
    | split
    | extract_lets
    | (refine wRun ?_; split <;> intro _)
    | dsimp only

theorem w_clearEngine (g e : Nat) (s : State) : Within 68157443 (clearEngine g e s) := by
  unfold clearEngine
  repeat' first
    | exact (rfl : (_ : Nat) = _)
    | exact (rfl : (_ : Bool) = _)
    | with_reducible first
      | exact wNil | exact wSeqNil | refine wSeq ?_ (fun _ => ?_) | refine wWhen ?_ | refine wUpd ?_ | refine wEach (fun _ _ => ?_)
      | apply Within.mono (w_loseContents ..)
      | apply Within.mono (w_setF_hi _ _ _ ?_)
    | (simp only [fieldOf]; decide)
    | (show 0x200000200000 ≤ _; (try simp only [ENG_QDEPTH, ENG_QDEPTH_DEPTH, coreBase]); (repeat' split) <;> omega)
    | intro _
    | split
    | extract_lets
    | (refine wRun ?_; split <;> intro _)
    | dsimp only

theorem w_coreStop (g : Nat) (s : State) : Within 13197847060483 (coreStop g s) := by
  unfold coreStop
  repeat' first
    | exact (rfl : (_ : Nat) = _)
    | exact (rfl : (_ : Bool) = _)
    | with_reducible first
      | exact wNil | exact wSeqNil | refine wSeq ?_ (fun _ => ?_) | refine wWhen ?_ | refine wIf ?_ ?_ | refine wIfAct ?_ ?_ | refine wUpd ?_ | refine wEach (fun _ _ => ?_)
      | apply Within.mono (w_clearEngine ..)
      | apply Within.mono (w_heldRelease ..)
      | apply Within.mono (w_setF_hi _ _ _ ?_)
    | (simp only [fieldOf]; decide)
    | (show 0x200000200000 ≤ _; (try simp only [CORE_STAT, CORE_STAT_THREADS, coreBase]); (repeat' split) <;> omega)
    | intro _
    | split
    | extract_lets
    | (refine wRun ?_; split <;> intro _)
    | dsimp only

theorem w_coreDiscard (g : Nat) (s : State) : Within 13197847060483 (coreDiscard g s) := by
  unfold coreDiscard
  repeat' first
    | exact (rfl : (_ : Nat) = _)
    | exact (rfl : (_ : Bool) = _)
    | with_reducible first
      | exact wNil | exact wSeqNil | refine wSeq ?_ (fun _ => ?_)
      | apply Within.mono (w_coreStop ..)
      | apply Within.mono (w_setCore ..)
      | apply Within.mono (w_setF_hi _ _ _ ?_)
    | (simp only [fieldOf]; decide)
    | (show 0x200000200000 ≤ _; (try simp only [CORE_STAT, CORE_STAT_PREEMPTED, coreBase]); (repeat' split) <;> omega)
    | intro _
    | split
    | extract_lets
    | (refine wRun ?_; split <;> intro _)
    | dsimp only

theorem w_startThreads (p g : Nat) (s : State) : Within 262145 (startThreads p g s) := by
  unfold startThreads
  repeat' first
    | exact (rfl : (_ : Nat) = _)
    | exact (rfl : (_ : Bool) = _)
    | with_reducible first
      | exact wNil | exact wSeqNil | refine wSeq ?_ (fun _ => ?_) | refine wUpd ?_ | refine wEach (fun _ _ => ?_)
      | apply Within.mono (w_setF_hi _ _ _ ?_)
    | (simp only [fieldOf]; decide)
    | (show 0x200000200000 ≤ _; (try simp only [CORE_STAT, CORE_STAT_THREADS, coreBase]); (repeat' split) <;> omega)
    | intro _
    | split
    | extract_lets
    | (refine wRun ?_; split <;> intro _)
    | dsimp only

theorem w_storeFree (m : Master) (a n : Nat) (s : State) : Within 13197844676643 (storeFree m a n s) := by
  unfold storeFree
  repeat' first
    | exact (rfl : (_ : Nat) = _)
    | exact (rfl : (_ : Bool) = _)
    | with_reducible first
      | exact wNil | refine wFree ?_ (fun _ _ => ?_)
      | apply Within.mono (w_unitWrite ..)
    | (simp only [fieldOf]; decide)
    | intro _
    | split
    | extract_lets
    | (refine wRun ?_; split <;> intro _)
    | dsimp only

theorem w_noteSwitch (p bytes : Nat) (s : State) : Within 1 (noteSwitch p bytes s) := by
  unfold noteSwitch
  repeat' first
    | exact (rfl : (_ : Nat) = _)
    | exact (rfl : (_ : Bool) = _)
    | with_reducible first
      | exact wNil | refine wIf ?_ ?_ | refine wIfAct ?_ ?_
      | apply Within.mono (w_setF_hi _ _ _ ?_)
    | (simp only [fieldOf]; decide)
    | (show 0x200000200000 ≤ _; (try simp only [PRT_SWITCH_MAX, PRT_SWITCH_MAX_NS]); (repeat' split) <;> omega)
    | intro _
    | split
    | extract_lets
    | (refine wRun ?_; split <;> intro _)
    | dsimp only

theorem w_vacate (g : Nat) (s : State) : Within 13197847060483 (vacate g s) := by
  unfold vacate
  repeat' first
    | exact (rfl : (_ : Nat) = _)
    | exact (rfl : (_ : Bool) = _)
    | with_reducible first
      | exact wNil | exact wSeqNil | refine wSeq ?_ (fun _ => ?_)
      | apply Within.mono (w_coreStop ..)
      | apply Within.mono (w_loseContents ..)
    | (simp only [fieldOf]; decide)
    | intro _
    | split
    | extract_lets
    | (refine wRun ?_; split <;> intro _)
    | dsimp only

theorem w_saveCore (g : Nat) (s : State) : Within 604462909820512432029731 (saveCore g s) := by
  unfold saveCore
  repeat' first
    | exact (rfl : (_ : Nat) = _)
    | exact (rfl : (_ : Bool) = _)
    | with_reducible first
      | exact wNil | exact wSeqNil | refine wSeq ?_ (fun _ => ?_) | refine wIf ?_ ?_ | refine wIfAct ?_ ?_ | refine wEach (fun _ _ => ?_)
      | apply Within.mono (w_incReg_hi _ _ ?_)
      | apply Within.mono (w_raiseJobFault ..)
      | apply Within.mono (w_setCore ..)
      | apply Within.mono (w_setF_hi _ _ _ ?_)
      | apply Within.mono (w_storeFree ..)
      | apply Within.mono (w_unitWrite ..)
    | (simp only [fieldOf]; decide)
    | (show 0x200000200000 ≤ _; (try simp only [PRT_PREEMPT_CNT, PRT_STAT, PRT_STAT_SAVE_OVF]); (repeat' split) <;> omega)
    | intro _
    | split
    | extract_lets
    | (refine wRun ?_; split <;> intro _)
    | dsimp only

theorem w_restoreCore (g : Nat) (v : SavedCore) (s : State) : Within 13197844938755 (restoreCore g v s) := by
  unfold restoreCore
  repeat' first
    | exact (rfl : (_ : Nat) = _)
    | exact (rfl : (_ : Bool) = _)
    | with_reducible first
      | exact wNil | exact wSeqNil | refine wSeq ?_ (fun _ => ?_) | refine wUpd ?_ | refine wEach (fun _ _ => ?_)
      | apply Within.mono (w_loseContents ..)
      | apply Within.mono (w_setCore ..)
      | apply Within.mono (w_setF_hi _ _ _ ?_)
      | apply Within.mono (w_unitWrite ..)
    | (simp only [fieldOf]; decide)
    | (show 0x200000200000 ≤ _; (try simp only [CORE_STAT, CORE_STAT_THREADS, ENG_QDEPTH, ENG_QDEPTH_DEPTH, coreBase]); (repeat' split) <;> omega)
    | intro _
    | split
    | extract_lets
    | (refine wRun ?_; split <;> intro _)
    | dsimp only

theorem w_preempt (g sw : Nat) (s : State) : Within 9020397099417635 (preempt g sw s) := by
  unfold preempt
  repeat' first
    | exact (rfl : (_ : Nat) = _)
    | exact (rfl : (_ : Bool) = _)
    | with_reducible first
      | exact wNil | exact wSeqNil | refine wSeq ?_ (fun _ => ?_) | refine wWhen ?_ | refine wEach (fun _ _ => ?_)
      | apply Within.mono (w_setCore ..)
      | apply Within.mono (w_setF_hi _ _ _ ?_)
      | apply Within.mono (w_stopEngine ..)
    | (simp only [fieldOf]; decide)
    | (show 0x200000200000 ≤ _; (try simp only [CORE_STAT, CORE_STAT_PREEMPTED, coreBase]); (repeat' split) <;> omega)
    | intro _
    | split
    | extract_lets
    | (refine wRun ?_; split <;> intro _)
    | dsimp only

theorem w_lendSettle (d c : Nat) (s : State) : Within 1 (lendSettle d c s) := by
  unfold lendSettle
  repeat' first
    | exact (rfl : (_ : Nat) = _)
    | exact (rfl : (_ : Bool) = _)
    | with_reducible first
      | exact wNil | exact wSeqNil | refine wSeq ?_ (fun _ => ?_) | refine wIf ?_ ?_ | refine wIfAct ?_ ?_
      | apply Within.mono (w_clkShow ..)
      | apply Within.mono (w_setF_hi _ _ _ ?_)
    | (simp only [fieldOf]; decide)
    | (show 0x200000200000 ≤ _; (try simp only [PRT_LEND, PRT_LEND_LSTATE]); (repeat' split) <;> omega)
    | intro _
    | split
    | extract_lets
    | (refine wRun ?_; split <;> intro _)
    | dsimp only

theorem w_switchTo (g : Nat) (s : State) : Within 604462909820512434413603 (switchTo g s) := by
  unfold switchTo
  repeat' first
    | exact (rfl : (_ : Nat) = _)
    | exact (rfl : (_ : Bool) = _)
    | with_reducible first
      | exact wNil | exact wSeqNil | refine wSeq ?_ (fun _ => ?_) | refine wWhen ?_ | refine wIf ?_ ?_ | refine wIfAct ?_ ?_
      | apply Within.mono (w_noteSwitch ..)
      | apply Within.mono (w_saveCore ..)
      | apply Within.mono (w_setCore ..)
      | apply Within.mono (w_startThreads ..)
      | apply Within.mono (w_vacate ..)
    | (simp only [fieldOf]; decide)
    | intro _
    | split
    | extract_lets
    | (refine wRun ?_; split <;> intro _)
    | dsimp only

theorem w_switchBack (g : Nat) (s : State) : Within 13197847060483 (switchBack g s) := by
  unfold switchBack
  repeat' first
    | exact (rfl : (_ : Nat) = _)
    | exact (rfl : (_ : Bool) = _)
    | with_reducible first
      | exact wNil | exact wSeqNil | refine wSeq ?_ (fun _ => ?_) | refine wWhen ?_ | refine wIf ?_ ?_ | refine wIfAct ?_ ?_
      | apply Within.mono (w_noteSwitch ..)
      | apply Within.mono (w_restoreCore ..)
      | apply Within.mono (w_setCore ..)
      | apply Within.mono (w_setF_hi _ _ _ ?_)
      | apply Within.mono (w_vacate ..)
    | (simp only [fieldOf]; decide)
    | (show 0x200000200000 ≤ _; (try simp only [CORE_STAT, CORE_STAT_ARRIVED, CORE_STAT_PREEMPTED, coreBase]); (repeat' split) <;> omega)
    | intro _
    | split
    | extract_lets
    | (refine wRun ?_; split <;> intro _)
    | dsimp only

theorem w_switchPark (g : Nat) (s : State) : Within 604462909820512434413603 (switchPark g s) := by
  unfold switchPark
  repeat' first
    | exact (rfl : (_ : Nat) = _)
    | exact (rfl : (_ : Bool) = _)
    | with_reducible first
      | exact wNil | exact wSeqNil | refine wSeq ?_ (fun _ => ?_) | refine wWhen ?_
      | apply Within.mono (w_noteSwitch ..)
      | apply Within.mono (w_saveCore ..)
      | apply Within.mono (w_setCore ..)
      | apply Within.mono (w_vacate ..)
    | (simp only [fieldOf]; decide)
    | intro _
    | split
    | extract_lets
    | (refine wRun ?_; split <;> intro _)
    | dsimp only

theorem w_windowClose (d c : Nat) (s : State) : Within 13197847060483 (windowClose d c s) := by
  unfold windowClose
  repeat' first
    | exact (rfl : (_ : Nat) = _)
    | exact (rfl : (_ : Bool) = _)
    | with_reducible first
      | exact wNil | exact wSeqNil | refine wSeq ?_ (fun _ => ?_) | refine wIf ?_ ?_ | refine wIfAct ?_ ?_ | refine wEach (fun _ _ => ?_)
      | apply Within.mono (w_coreStop ..)
      | apply Within.mono (w_lendSettle ..)
      | apply Within.mono (w_setCore ..)
      | apply Within.mono (w_setF_hi _ _ _ ?_)
    | (simp only [fieldOf]; decide)
    | (show 0x200000200000 ≤ _; (try simp only [CORE_STAT, CORE_STAT_PREEMPTED, PRT_LEND, PRT_LEND_LSTATE, coreBase]); (repeat' split) <;> omega)
    | intro _
    | split
    | extract_lets
    | (refine wRun ?_; split <;> intro _)
    | dsimp only

theorem w_leaveLent (p : Nat) (s : State) : Within 13197847060483 (leaveLent p s) := by
  unfold leaveLent
  repeat' first
    | exact (rfl : (_ : Nat) = _)
    | exact (rfl : (_ : Bool) = _)
    | with_reducible first
      | exact wNil | refine wEach (fun _ _ => ?_)
      | apply Within.mono (w_windowClose ..)
    | (simp only [fieldOf]; decide)
    | intro _
    | split
    | extract_lets
    | (refine wRun ?_; split <;> intro _)
    | dsimp only

theorem w_partDrop (p : Nat) (s : State) : Within 98784247809 (partDrop p s) := by
  unfold partDrop
  repeat' first
    | exact (rfl : (_ : Nat) = _)
    | exact (rfl : (_ : Bool) = _)
    | with_reducible first
      | exact wNil | exact wSeqNil | refine wSeq ?_ (fun _ => ?_)
      | apply Within.mono (w_boxDiscardPart ..)
      | apply Within.mono (w_dmaPartEnd ..)
      | apply Within.mono (w_kvDiscardPart ..)
    | (simp only [fieldOf]; decide)
    | intro _
    | split
    | extract_lets
    | (refine wRun ?_; split <;> intro _)
    | dsimp only

theorem w_parkStart (p : Nat) (s : State) : Within 9020530279342115 (parkStart p s) := by
  unfold parkStart
  repeat' first
    | exact (rfl : (_ : Nat) = _)
    | exact (rfl : (_ : Bool) = _)
    | with_reducible first
      | exact wNil | exact wNop | exact wSeqNil | refine wSeq ?_ (fun _ => ?_) | refine wIf ?_ ?_ | refine wIfAct ?_ ?_ | refine wEach (fun _ _ => ?_)
      | apply Within.mono (w_banksSettle ..)
      | apply Within.mono (w_leaveLent ..)
      | apply Within.mono (w_partDrop ..)
      | apply Within.mono (w_preempt ..)
      | apply Within.mono (w_setF_hi _ _ _ ?_)
      | apply Within.mono (w_setPart ..)
    | (simp only [fieldOf]; decide)
    | (show 0x200000200000 ≤ _; (try simp only [PRT_BIV, PRT_BIV_REQ, PRT_LEND, PRT_LEND_LSTATE, PRT_STAT, PRT_STAT_STATE]); (repeat' split) <;> omega)
    | intro _
    | split
    | extract_lets
    | (refine wRun ?_; split <;> intro _)
    | dsimp only

theorem w_parkRequest (p : Nat) (s : State) : Within 9020530279342115 (parkRequest p s) := by
  unfold parkRequest
  repeat' first
    | exact (rfl : (_ : Nat) = _)
    | exact (rfl : (_ : Bool) = _)
    | with_reducible first
      | exact wNil | exact wSeqNil | refine wSeq ?_ (fun _ => ?_)
      | apply Within.mono (w_parkStart ..)
      | apply Within.mono (w_setF_hi _ _ _ ?_)
      | apply Within.mono (w_setPart ..)
    | (simp only [fieldOf]; decide)
    | (show 0x200000200000 ≤ _; (try simp only [PRT_BIV, PRT_BIV_REQ]); (repeat' split) <;> omega)
    | intro _
    | split
    | extract_lets
    | (refine wRun ?_; split <;> intro _)
    | dsimp only

theorem w_wakeStart (p : Nat) (s : State) : Within 51640270851 (wakeStart p s) := by
  unfold wakeStart
  repeat' first
    | exact (rfl : (_ : Nat) = _)
    | exact (rfl : (_ : Bool) = _)
    | with_reducible first
      | exact wNil | exact wSeqNil | refine wSeq ?_ (fun _ => ?_)
      | apply Within.mono (w_banksSettle ..)
      | apply Within.mono (w_kvWake ..)
      | apply Within.mono (w_setF_hi _ _ _ ?_)
      | apply Within.mono (w_setPart ..)
      | apply Within.mono (w_setPoints ..)
    | (simp only [fieldOf]; decide)
    | (show 0x200000200000 ≤ _; (try simp only [PRT_STAT, PRT_STAT_STATE]); (repeat' split) <;> omega)
    | intro _
    | split
    | extract_lets
    | (refine wRun ?_; split <;> intro _)
    | dsimp only

theorem w_parkClear (p : Nat) (s : State) : Within 51640270851 (parkClear p s) := by
  unfold parkClear
  repeat' first
    | exact (rfl : (_ : Nat) = _)
    | exact (rfl : (_ : Bool) = _)
    | with_reducible first
      | exact wNil | exact wNop | exact wSeqNil | refine wSeq ?_ (fun _ => ?_) | refine wWhen ?_ | refine wIf ?_ ?_ | refine wIfAct ?_ ?_
      | apply Within.mono (w_setF_hi _ _ _ ?_)
      | apply Within.mono (w_setPart ..)
      | apply Within.mono (w_wakeStart ..)
    | (simp only [fieldOf]; decide)
    | (show 0x200000200000 ≤ _; (try simp only [PRT_BIV, PRT_BIV_REQ]); (repeat' split) <;> omega)
    | intro _
    | split
    | extract_lets
    | (refine wRun ?_; split <;> intro _)
    | dsimp only

theorem w_bivWrite (p : Nat) (req : Bool) (s : State) : Within 9020530279342115 (bivWrite p req s) := by
  unfold bivWrite
  repeat' first
    | exact (rfl : (_ : Nat) = _)
    | exact (rfl : (_ : Bool) = _)
    | with_reducible first
      | exact wNil | refine wIf ?_ ?_ | refine wIfAct ?_ ?_
      | apply Within.mono (w_parkClear ..)
      | apply Within.mono (w_parkRequest ..)
    | (simp only [fieldOf]; decide)
    | intro _
    | split
    | extract_lets
    | (refine wRun ?_; split <;> intro _)
    | dsimp only

theorem w_bivEnter (p n : Nat) (s : State) : Within 1 (bivEnter p n s) := by
  unfold bivEnter
  repeat' first
    | exact (rfl : (_ : Nat) = _)
    | exact (rfl : (_ : Bool) = _)
    | with_reducible first
      | exact wNil | exact wSeqNil | refine wSeq ?_ (fun _ => ?_)
      | apply Within.mono (w_clkShowPart ..)
      | apply Within.mono (w_setF_hi _ _ _ ?_)
    | (simp only [fieldOf]; decide)
    | (show 0x200000200000 ≤ _; (try simp only [PRT_BIV_LAST, PRT_BIV_LAST_PITCH, PRT_STAT, PRT_STAT_STATE]); (repeat' split) <;> omega)
    | intro _
    | split
    | extract_lets
    | (refine wRun ?_; split <;> intro _)
    | dsimp only

theorem w_setThm (f : Thm → Thm) (s : State) : Within 77371252455336267181195264 (setThm f s) := by
  unfold setThm
  repeat' first
    | exact (rfl : (_ : Nat) = _)
    | exact (rfl : (_ : Bool) = _)
    | with_reducible first
      | exact wNil | refine wCons ?_ ?_
    | (simp only [fieldOf]; decide)
    | intro _
    | split
    | extract_lets
    | (refine wRun ?_; split <;> intro _)
    | dsimp only

theorem w_floorEvent  (s : State) : Within 77371252464356797460537379 (floorEvent  s) := by
  unfold floorEvent
  repeat' first
    | exact (rfl : (_ : Nat) = _)
    | exact (rfl : (_ : Bool) = _)
    | with_reducible first
      | exact wNil | exact wSeqNil | refine wSeq ?_ (fun _ => ?_) | refine wIf ?_ ?_ | refine wIfAct ?_ ?_ | refine wEach (fun _ _ => ?_)
      | apply Within.mono (w_incReg_hi _ _ ?_)
      | apply Within.mono (w_parkRequest ..)
      | apply Within.mono (w_setF_hi _ _ _ ?_)
      | apply Within.mono (w_setThm ..)
    | (simp only [fieldOf]; decide)
    | (show 0x200000200000 ≤ _; (try simp only [PRT_BIV, PRT_BIV_HOLD, THM_FLOOR_CNT, THM_P, THM_P_CAP, THM_STAT, THM_STAT_FLOOR]); (repeat' split) <;> omega)
    | intro _
    | split
    | extract_lets
    | (refine wRun ?_; split <;> intro _)
    | dsimp only

theorem w_floorCheck (now flow cap : Nat) (res : Int) (s : State) : Within 77371252455336267181195265 (floorCheck now flow cap res s) := by
  unfold floorCheck
  repeat' first
    | exact (rfl : (_ : Nat) = _)
    | exact (rfl : (_ : Bool) = _)
    | with_reducible first
      | exact wNil | exact wSeqNil | refine wSeq ?_ (fun _ => ?_) | refine wIf ?_ ?_ | refine wIfAct ?_ ?_
      | apply Within.mono (w_setF_hi _ _ _ ?_)
      | apply Within.mono (w_setThm ..)
    | (simp only [fieldOf]; decide)
    | (show 0x200000200000 ≤ _; (try simp only [THM_CTL, THM_CTL_FLOW_EN, THM_STAT, THM_STAT_FLOOR]); (repeat' split) <;> omega)
    | intro _
    | split
    | extract_lets
    | (refine wRun ?_; split <;> intro _)
    | dsimp only

theorem w_floorFree  (s : State) : Within 77371252455336318821466115 (floorFree  s) := by
  unfold floorFree
  repeat' first
    | exact (rfl : (_ : Nat) = _)
    | exact (rfl : (_ : Bool) = _)
    | with_reducible first
      | exact wNil | exact wSeqNil | refine wSeq ?_ (fun _ => ?_) | refine wCons ?_ ?_
      | apply Within.mono (w_parkClear ..)
      | apply Within.mono (w_setF_hi _ _ _ ?_)
      | apply Within.mono (w_setThm ..)
    | (simp only [fieldOf]; decide)
    | (show 0x200000200000 ≤ _; (try simp only [PRT_BIV, PRT_BIV_HOLD]); (repeat' split) <;> omega)
    | intro _
    | split
    | extract_lets
    | (refine wRun ?_; split <;> intro _)
    | dsimp only

theorem w_levelPoints (l : Nat) (low : Bool) (s : State) : Within 1 (levelPoints l low s) := by
  unfold levelPoints
  repeat' first
    | exact (rfl : (_ : Nat) = _)
    | exact (rfl : (_ : Bool) = _)
    | with_reducible first
      | exact wNil | refine wIf ?_ ?_ | refine wIfAct ?_ ?_ | refine wEach (fun _ _ => ?_)
      | apply Within.mono (w_setPoints ..)
    | (simp only [fieldOf]; decide)
    | intro _
    | split
    | extract_lets
    | (refine wRun ?_; split <;> intro _)
    | dsimp only

theorem w_capStep  (s : State) : Within 77371252464356797460537379 (capStep  s) := by
  unfold capStep
  repeat' first
    | exact (rfl : (_ : Nat) = _)
    | exact (rfl : (_ : Bool) = _)
    | with_reducible first
      | exact wNil | exact wSeqNil | refine wSeq ?_ (fun _ => ?_) | refine wIf ?_ ?_ | refine wIfAct ?_ ?_ | refine wCons ?_ ?_
      | apply Within.mono (w_incReg_hi _ _ ?_)
      | apply Within.mono (w_levelPoints ..)
      | apply Within.mono (w_parkRequest ..)
      | apply Within.mono (w_setF_hi _ _ _ ?_)
      | apply Within.mono (w_setThm ..)
    | (simp only [fieldOf]; decide)
    | (show 0x200000200000 ≤ _; (try simp only [THM_CAPSTEP_CNT, THM_STAT, THM_STAT_CAP_LIM, THM_STAT_STEP]); (repeat' split) <;> omega)
    | intro _
    | split
    | extract_lets
    | (refine wRun ?_; split <;> intro _)
    | dsimp only

theorem w_capUndo  (s : State) : Within 77371252455336318821466115 (capUndo  s) := by
  unfold capUndo
  repeat' first
    | exact (rfl : (_ : Nat) = _)
    | exact (rfl : (_ : Bool) = _)
    | with_reducible first
      | exact wNil | exact wNop | exact wSeqNil | refine wSeq ?_ (fun _ => ?_) | refine wIf ?_ ?_ | refine wIfAct ?_ ?_ | refine wCons ?_ ?_
      | apply Within.mono (w_levelPoints ..)
      | apply Within.mono (w_parkClear ..)
      | apply Within.mono (w_setF_hi _ _ _ ?_)
      | apply Within.mono (w_setThm ..)
    | (simp only [fieldOf]; decide)
    | (show 0x200000200000 ≤ _; (try simp only [THM_STAT, THM_STAT_CAP_LIM, THM_STAT_STEP]); (repeat' split) <;> omega)
    | intro _
    | split
    | extract_lets
    | (refine wRun ?_; split <;> intro _)
    | dsimp only

theorem w_capPolicy  (s : State) : Within 77371252464356797460537379 (capPolicy  s) := by
  unfold capPolicy
  repeat' first
    | exact (rfl : (_ : Nat) = _)
    | exact (rfl : (_ : Bool) = _)
    | with_reducible first
      | exact wNil | exact wSeqNil | refine wSeq ?_ (fun _ => ?_) | refine wWhen ?_ | refine wIf ?_ ?_ | refine wIfAct ?_ ?_
      | apply Within.mono (w_capStep ..)
      | apply Within.mono (w_capUndo ..)
      | apply Within.mono (w_setThm ..)
    | (simp only [fieldOf]; decide)
    | intro _
    | split
    | extract_lets
    | (refine wRun ?_; split <;> intro _)
    | dsimp only

theorem w_capUserWrite (v : Nat) (s : State) : Within 1 (capUserWrite v s) := by
  unfold capUserWrite
  repeat' first
    | exact (rfl : (_ : Nat) = _)
    | exact (rfl : (_ : Bool) = _)
    | with_reducible first
      | exact wNil
      | apply Within.mono (w_setF_hi _ _ _ ?_)
    | (simp only [fieldOf]; decide)
    | (show 0x200000200000 ≤ _; (try simp only [THM_LIM, THM_LIM_CAP_USER_W]); (repeat' split) <;> omega)
    | intro _
    | split
    | extract_lets
    | (refine wRun ?_; split <;> intro _)
    | dsimp only

theorem w_tjWrite (v : Nat) (s : State) : Within 1 (tjWrite v s) := by
  unfold tjWrite
  repeat' first
    | exact (rfl : (_ : Nat) = _)
    | exact (rfl : (_ : Bool) = _)
    | with_reducible first
      | exact wNil
      | apply Within.mono (w_setF_hi _ _ _ ?_)
    | (simp only [fieldOf]; decide)
    | (show 0x200000200000 ≤ _; (try simp only [THM_TGT, THM_TGT_TJ_TGT]); (repeat' split) <;> omega)
    | intro _
    | split
    | extract_lets
    | (refine wRun ?_; split <;> intro _)
    | dsimp only

theorem w_hystWrite (v : Nat) (s : State) : Within 1 (hystWrite v s) := by
  unfold hystWrite
  repeat' first
    | exact (rfl : (_ : Nat) = _)
    | exact (rfl : (_ : Bool) = _)
    | with_reducible first
      | exact wNil
      | apply Within.mono (w_setF_hi _ _ _ ?_)
    | (simp only [fieldOf]; decide)
    | (show 0x200000200000 ≤ _; (try simp only [THM_TGT, THM_TGT_HYST_W]); (repeat' split) <;> omega)
    | intro _
    | split
    | extract_lets
    | (refine wRun ?_; split <;> intro _)
    | dsimp only

theorem w_dieTrip (d : Nat) (s : State) : Within 309485009821345068724781057 (dieTrip d s) := by
  unfold dieTrip
  repeat' first
    | exact (rfl : (_ : Nat) = _)
    | exact (rfl : (_ : Bool) = _)
    | with_reducible first
      | exact wNil | exact wSeqNil | refine wSeq ?_ (fun _ => ?_) | refine wIf ?_ ?_ | refine wIfAct ?_ ?_ | refine wCons ?_ ?_ | refine wApp ?_ ?_
      | apply Within.mono (w_clkShowDie ..)
      | apply Within.mono (w_incReg_hi _ _ ?_)
      | apply Within.mono (w_setF_hi _ _ _ ?_)
    | (simp only [fieldOf]; decide)
    | (show 0x200000200000 ≤ _; (try simp only [THM_STAT, THM_STAT_TRIP, THM_TRIP_CNT]); (repeat' split) <;> omega)
    | intro _
    | split
    | extract_lets
    | (refine wRun ?_; split <;> intro _)
    | dsimp only

theorem w_dieTripClear (d : Nat) (s : State) : Within 309485009821345068724781057 (dieTripClear d s) := by
  unfold dieTripClear
  repeat' first
    | exact (rfl : (_ : Nat) = _)
    | exact (rfl : (_ : Bool) = _)
    | with_reducible first
      | exact wNil | exact wSeqNil | refine wSeq ?_ (fun _ => ?_) | refine wCons ?_ ?_
      | apply Within.mono (w_clkShowDie ..)
    | (simp only [fieldOf]; decide)
    | intro _
    | split
    | extract_lets
    | (refine wRun ?_; split <;> intro _)
    | dsimp only

end Sys2Proof.Laws
end

