-- ==== Sys2Proof/Laws/WritesUnits.lean ====
section
/-! SUPPORT. Which fields the shared operations can write: ownership, the fusion and traverse units, banks and boxes. The number after `Within` has a bit
for each field (`fieldOf`). -/
namespace Sys2Proof.Laws
open Sys2Proof.Machine

set_option linter.unusedTactic false
set_option linter.unreachableTactic false
set_option linter.unusedSimpArgs false
set_option linter.unnecessarySeqFocus false

theorem w_bndTick  (s : State) : Within 154742504910672534362390528 (bndTick  s) := by
  unfold bndTick
  repeat' first
    | exact (rfl : (_ : Nat) = _)
    | exact (rfl : (_ : Bool) = _)
    | with_reducible first
      | exact wNil | refine wIf ?_ ?_ | refine wIfAct ?_ ?_ | refine wCons ?_ ?_
    | (simp only [fieldOf]; decide)
    | intro _
    | split
    | extract_lets
    | (refine wRun ?_; split <;> intro _)
    | dsimp only

theorem w_setSub (u : Nat) (f : SubCh → SubCh) (s : State) : Within 549755813888 (setSub u f s) := by
  unfold setSub
  repeat' first
    | exact (rfl : (_ : Nat) = _)
    | exact (rfl : (_ : Bool) = _)
    | with_reducible first
      | exact wNil | refine wCons ?_ ?_
    | (simp only [fieldOf]; decide)
    | intro _
    | split
    | extract_lets
    | (refine wRun ?_; split <;> intro _)
    | dsimp only

theorem w_dramArrive (op : ReqOp) (r : Req) (s : State) : Within 141287244169217 (dramArrive op r s) := by
  unfold dramArrive
  repeat' first
    | exact (rfl : (_ : Nat) = _)
    | exact (rfl : (_ : Bool) = _)
    | with_reducible first
      | exact wNil | exact wSeqNil | refine wSeq ?_ (fun _ => ?_) | refine wWhen ?_ | refine wIf ?_ ?_ | refine wIfAct ?_ ?_ | refine wUpd ?_ | refine wApp ?_ ?_
      | apply Within.mono (w_addReg_hi _ _ _ ?_)
      | apply Within.mono (w_setF_hi _ _ _ ?_)
    | (simp only [fieldOf]; decide)
    | (show 0x200000200000 ≤ _; (try simp only [DDR_CH_STAT, DDR_CH_STAT_INORDER, DDR_INORD_CNT]); (repeat' split) <;> omega)
    | intro _
    | split
    | extract_lets
    | (refine wRun ?_; split <;> intro _)
    | dsimp only

theorem w_showThrottles  (s : State) : Within 1 (showThrottles  s) := by
  unfold showThrottles
  repeat' first
    | exact (rfl : (_ : Nat) = _)
    | exact (rfl : (_ : Bool) = _)
    | with_reducible first
      | exact wNil
      | apply Within.mono (w_setF_hi _ _ _ ?_)
    | (simp only [fieldOf]; decide)
    | (show 0x200000200000 ≤ _; (try simp only [DDR_THR_STAT, DDR_THR_STAT_PORTS]); (repeat' split) <;> omega)
    | intro _
    | split
    | extract_lets
    | (refine wRun ?_; split <;> intro _)
    | dsimp only

theorem w_throttle (ch port now : Nat) (s : State) : Within 2199023255553 (throttle ch port now s) := by
  unfold throttle
  repeat' first
    | exact (rfl : (_ : Nat) = _)
    | exact (rfl : (_ : Bool) = _)
    | with_reducible first
      | exact wNil | exact wSeqNil | refine wSeq ?_ (fun _ => ?_) | refine wUpd ?_ | refine wApp ?_ ?_
      | apply Within.mono (w_incReg_hi _ _ ?_)
      | apply Within.mono (w_showThrottles ..)
    | (simp only [fieldOf]; decide)
    | (show 0x200000200000 ≤ _; (try simp only [DDR_RH_TIME, DDR_RH_TIME_THR_MS, DDR_THR_CNT]); (repeat' split) <;> omega)
    | intro _
    | split
    | extract_lets
    | (refine wRun ?_; split <;> intro _)
    | dsimp only

theorem w_trackAct (u b row port now : Nat) (s : State) : Within 3298534883329 (trackAct u b row port now s) := by
  unfold trackAct
  repeat' first
    | exact (rfl : (_ : Nat) = _)
    | exact (rfl : (_ : Bool) = _)
    | with_reducible first
      | exact wNil | exact wSeqNil | refine wSeq ?_ (fun _ => ?_) | refine wWhen ?_ | refine wIf ?_ ?_ | refine wIfAct ?_ ?_ | refine wUpd ?_
      | apply Within.mono (w_incReg_hi _ _ ?_)
      | apply Within.mono (w_throttle ..)
      | apply Within.mono (w_wr_hi _ _ _ ?_)
    | (simp only [fieldOf]; decide)
    | (show 0x200000200000 ≤ _; (try simp only [DDR_RFM_CNT, DDR_RH_CFG, DDR_RH_CFG_ACT_THR, DDR_RH_CNT, DDR_RH_EVT]); (repeat' split) <;> omega)
    | intro _
    | split
    | extract_lets
    | (refine wRun ?_; split <;> intro _)
    | dsimp only

theorem w_quotaUse (ch port now : Nat) (s : State) : Within 2199023255552 (quotaUse ch port now s) := by
  unfold quotaUse
  repeat' first
    | exact (rfl : (_ : Nat) = _)
    | exact (rfl : (_ : Bool) = _)
    | with_reducible first
      | exact wNil | refine wIf ?_ ?_ | refine wIfAct ?_ ?_ | refine wCons ?_ ?_
    | (simp only [fieldOf]; decide)
    | intro _
    | split
    | extract_lets
    | (refine wRun ?_; split <;> intro _)
    | dsimp only

theorem w_raaAct (u b thr : Nat) (s : State) : Within 549755813889 (raaAct u b thr s) := by
  unfold raaAct
  repeat' first
    | exact (rfl : (_ : Nat) = _)
    | exact (rfl : (_ : Bool) = _)
    | with_reducible first
      | exact wNil | exact wSeqNil | refine wSeq ?_ (fun _ => ?_) | refine wIf ?_ ?_ | refine wIfAct ?_ ?_
      | apply Within.mono (w_incReg_hi _ _ ?_)
      | apply Within.mono (w_setSub ..)
    | (simp only [fieldOf]; decide)
    | (show 0x200000200000 ≤ _; (try simp only [DDR_RFM_CNT]); (repeat' split) <;> omega)
    | intro _
    | split
    | extract_lets
    | (refine wRun ?_; split <;> intro _)
    | dsimp only

theorem w_activate (u : Nat) (q : DReq) (b row now thr : Nat) (s : State) : Within 2255648104382465 (activate u q b row now thr s) := by
  unfold activate
  repeat' first
    | exact (rfl : (_ : Nat) = _)
    | exact (rfl : (_ : Bool) = _)
    | with_reducible first
      | exact wNil | exact wSeqNil | refine wSeq ?_ (fun _ => ?_) | refine wUpd ?_
      | apply Within.mono (w_quotaUse ..)
      | apply Within.mono (w_raaAct ..)
      | apply Within.mono (w_setSub ..)
      | apply Within.mono (w_trackAct ..)
    | (simp only [fieldOf]; decide)
    | intro _
    | split
    | extract_lets
    | (refine wRun ?_; split <;> intro _)
    | dsimp only

theorem w_precharge (u b : Nat) (s : State) : Within 549755813888 (precharge u b s) := by
  unfold precharge
  repeat' first
    | exact (rfl : (_ : Nat) = _)
    | exact (rfl : (_ : Bool) = _)
    | with_reducible first
      | exact wNil
      | apply Within.mono (w_setSub ..)
    | (simp only [fieldOf]; decide)
    | intro _
    | split
    | extract_lets
    | (refine wRun ?_; split <;> intro _)
    | dsimp only

theorem w_dramPerform (u : Nat) (q : DReq) (now : Nat) (s : State) : Within 2265547414446083 (dramPerform u q now s) := by
  unfold dramPerform
  repeat' first
    | exact (rfl : (_ : Nat) = _)
    | exact (rfl : (_ : Bool) = _)
    | with_reducible first
      | exact wNil | exact wSeqNil | refine wSeq ?_ (fun _ => ?_) | refine wWhen ?_ | refine wIf ?_ ?_ | refine wIfAct ?_ ?_ | refine wUpd ?_ | refine wEach (fun _ _ => ?_)
      | apply Within.mono (w_addReg_hi _ _ _ ?_)
      | apply Within.mono (w_inc64_hi _ _ _ ?_)
      | apply Within.mono (w_performMem ..)
      | apply Within.mono (w_setF_hi _ _ _ ?_)
      | apply Within.mono (w_setSub ..)
    | (simp only [fieldOf]; decide)
    | (show 0x200000200000 ≤ _; (try simp only [DDR_CH_STAT, DDR_CH_STAT_INORDER, DDR_RD, DDR_RD_LO, DDR_RMW_CNT, DDR_WR, DDR_WR_LO]); (repeat' split) <;> omega)
    | intro _
    | split
    | extract_lets
    | (refine wRun ?_; split <;> intro _)
    | dsimp only

theorem w_patrolInterval (v : Nat) (s : State) : Within 1 (patrolInterval v s) := by
  unfold patrolInterval
  repeat' first
    | exact (rfl : (_ : Nat) = _)
    | exact (rfl : (_ : Bool) = _)
    | with_reducible first
      | exact wNil
      | apply Within.mono (w_setF_hi _ _ _ ?_)
    | (simp only [fieldOf]; decide)
    | (show 0x200000200000 ≤ _; (try simp only [DDR_SCRUB, DDR_SCRUB_INTERVAL, DDR_SCRUB_MIN, DDR_SCRUB_MIN_MIN]); (repeat' split) <;> omega)
    | intro _
    | split
    | extract_lets
    | (refine wRun ?_; split <;> intro _)
    | dsimp only

theorem w_targetWrite (src : Master) (v : Nat) (s : State) : Within 1125899906842625 (targetWrite src v s) := by
  unfold targetWrite
  repeat' first
    | exact (rfl : (_ : Nat) = _)
    | exact (rfl : (_ : Bool) = _)
    | with_reducible first
      | exact wNil | exact wSeqNil | refine wSeq ?_ (fun _ => ?_) | refine wWhen ?_ | refine wIf ?_ ?_ | refine wIfAct ?_ ?_ | refine wUpd ?_
      | apply Within.mono (w_setF_hi _ _ _ ?_)
    | (simp only [fieldOf]; decide)
    | (show 0x200000200000 ≤ _; (try simp only [DDR_FC, DDR_FC_BUSY, DDR_FC_IGN, DDR_FC_TARGET, DDR_PT, DDR_PT_CUR]); (repeat' split) <;> omega)
    | intro _
    | split
    | extract_lets
    | (refine wRun ?_; split <;> intro _)
    | dsimp only

theorem w_dramPolicy  (s : State) : Within 1125899906842625 (dramPolicy  s) := by
  unfold dramPolicy
  repeat' first
    | exact (rfl : (_ : Nat) = _)
    | exact (rfl : (_ : Bool) = _)
    | with_reducible first
      | exact wNil | exact wNop | exact wSeqNil | refine wSeq ?_ (fun _ => ?_) | refine wWhen ?_ | refine wUpd ?_ | refine wCons ?_ ?_
      | apply Within.mono (w_targetWrite ..)
    | (simp only [fieldOf]; decide)
    | intro _
    | split
    | extract_lets
    | (refine wRun ?_; split <;> intro _)
    | dsimp only

theorem w_retirePage (page v : Nat) (s : State) : Within 70368744177665 (retirePage page v s) := by
  unfold retirePage
  repeat' first
    | exact (rfl : (_ : Nat) = _)
    | exact (rfl : (_ : Bool) = _)
    | with_reducible first
      | exact wNil | exact wSeqNil | refine wSeq ?_ (fun _ => ?_) | refine wIf ?_ ?_ | refine wIfAct ?_ ?_ | refine wUpd ?_ | refine wApp ?_ ?_
      | apply Within.mono (w_icuMsg ..)
      | apply Within.mono (w_incReg_hi _ _ ?_)
      | apply Within.mono (w_wr64_hi _ _ _ ?_)
    | (simp only [fieldOf]; decide)
    | (show 0x200000200000 ≤ _; (try simp only [DDR_RET_CNT, DDR_RET_LAST, DDR_RET_LAST_LO]); (repeat' split) <;> omega)
    | intro _
    | split
    | extract_lets
    | (refine wRun ?_; split <;> intro _)
    | dsimp only

theorem w_dropKeys {T : Nat} {α : Type} {t : List (Nat × α)} {lo n : Nat} {mk : Nat → Upd} {s : State} (h : ∀ k, T.testBit (fieldOf (mk k)) = true) :
    Within T (dropKeys t lo n mk s) := wEach (fun _ _ => wUpd (h _))

theorem w_dieRegsReset (d : Nat) (s : State) : Within 1 (dieRegsReset d s) := by
  unfold dieRegsReset
  repeat' first
    | exact (rfl : (_ : Nat) = _)
    | exact (rfl : (_ : Bool) = _)
    | with_reducible first
      | exact wNil
      | apply Within.mono (w_resetRegsWith _ _ _ _ _ ?_)
    | (simp only [fieldOf]; decide)
    | (show 0x200000200000 ≤ _; (repeat' split) <;> omega)
    | intro _
    | split
    | extract_lets
    | (refine wRun ?_; split <;> intro _)
    | dsimp only

theorem w_dieReset (d : Nat) (s : State) : Within 39614081257141176065685680131 (dieReset d s) := by
  unfold dieReset
  repeat' first
    | exact (rfl : (_ : Nat) = _)
    | exact (rfl : (_ : Bool) = _)
    | with_reducible first
      | exact wNil | exact wSeqNil | refine wSeq ?_ (fun _ => ?_) | refine wUpd ?_
      | apply Within.mono (w_dieRegsReset ..)
      | apply w_dropKeys
    | (simp only [fieldOf]; decide)
    | intro _
    | split
    | extract_lets
    | (refine wRun ?_; split <;> intro _)
    | dsimp only

theorem w_portStart (n p : Nat) (s : State) : Within 131073 (portStart n p s) := by
  unfold portStart
  repeat' first
    | exact (rfl : (_ : Nat) = _)
    | exact (rfl : (_ : Bool) = _)
    | with_reducible first
      | exact wNil | exact wSeqNil | refine wSeq ?_ (fun _ => ?_) | refine wUpd ?_
      | apply Within.mono (w_setF_hi _ _ _ ?_)
    | (simp only [fieldOf]; decide)
    | (show 0x200000200000 ≤ _; (try simp only [RPL_CTL, RPL_CTL_EN, RPL_STAT, RPL_STAT_DOWN, RPL_STAT_STATE, RPL_STAT_TRAINED, rplBase]); (repeat' split) <;> omega)
    | intro _
    | split
    | extract_lets
    | (refine wRun ?_; split <;> intro _)
    | dsimp only

theorem w_dieLinks (d : Nat) (s : State) : Within 131073 (dieLinks d s) := by
  unfold dieLinks
  repeat' first
    | exact (rfl : (_ : Nat) = _)
    | exact (rfl : (_ : Bool) = _)
    | with_reducible first
      | exact wNil | exact wNop | exact wSeqNil | refine wSeq ?_ (fun _ => ?_) | refine wEach (fun _ _ => ?_)
      | apply Within.mono (w_portStart ..)
    | (simp only [fieldOf]; decide)
    | intro _
    | split
    | extract_lets
    | (refine wRun ?_; split <;> intro _)
    | dsimp only

theorem w_dieRemove (d : Nat) (s : State) : Within 39614081257141176100045418499 (dieRemove d s) := by
  unfold dieRemove
  repeat' first
    | exact (rfl : (_ : Nat) = _)
    | exact (rfl : (_ : Bool) = _)
    | with_reducible first
      | exact wNil | exact wSeqNil | refine wSeq ?_ (fun _ => ?_) | refine wIf ?_ ?_ | refine wIfAct ?_ ?_ | refine wUpd ?_ | refine wApp ?_ ?_ | refine wEach (fun _ _ => ?_)
      | apply Within.mono (w_decideRestart ..)
      | apply Within.mono (w_dieReset ..)
      | apply Within.mono (w_setF_hi _ _ _ ?_)
    | (simp only [fieldOf]; decide)
    | (show 0x200000200000 ≤ _; (try simp only [FLT_DIE_STAT, FLT_DIE_STAT_STATE, KVC_C_LIVE, KVC_C_LIVE_UNMIRRORED]); (repeat' split) <;> omega)
    | intro _
    | split
    | extract_lets
    | (refine wRun ?_; split <;> intro _)
    | dsimp only

theorem w_dieReturn (d : Nat) (s : State) : Within 100794371 (dieReturn d s) := by
  unfold dieReturn
  repeat' first
    | exact (rfl : (_ : Nat) = _)
    | exact (rfl : (_ : Bool) = _)
    | with_reducible first
      | exact wNil | exact wSeqNil | refine wSeq ?_ (fun _ => ?_) | refine wEach (fun _ _ => ?_)
      | apply Within.mono (w_bankSettle ..)
      | apply Within.mono (w_dieLinks ..)
      | apply Within.mono (w_setF_hi _ _ _ ?_)
    | (simp only [fieldOf]; decide)
    | (show 0x200000200000 ≤ _; (try simp only [FLT_DIE_STAT, FLT_DIE_STAT_STATE, KVC_C_LIVE, KVC_C_LIVE_UNMIRRORED]); (repeat' split) <;> omega)
    | intro _
    | split
    | extract_lets
    | (refine wRun ?_; split <;> intro _)
    | dsimp only

theorem w_dieTest (d : Nat) (pass : Bool) (s : State) : Within 100794371 (dieTest d pass s) := by
  unfold dieTest
  repeat' first
    | exact (rfl : (_ : Nat) = _)
    | exact (rfl : (_ : Bool) = _)
    | with_reducible first
      | exact wNil | exact wSeqNil | refine wSeq ?_ (fun _ => ?_) | refine wIf ?_ ?_ | refine wIfAct ?_ ?_
      | apply Within.mono (w_dieReturn ..)
      | apply Within.mono (w_incReg_hi _ _ ?_)
      | apply Within.mono (w_setF_hi _ _ _ ?_)
    | (simp only [fieldOf]; decide)
    | (show 0x200000200000 ≤ _; (try simp only [FLT_DIE_FAIL_CNT, FLT_DIE_STAT, FLT_DIE_STAT_STATE]); (repeat' split) <;> omega)
    | intro _
    | split
    | extract_lets
    | (refine wRun ?_; split <;> intro _)
    | dsimp only

theorem w_correctFlit (n p : Nat) (bad : List Nat) (s : State) : Within 131073 (correctFlit n p bad s) := by
  unfold correctFlit
  repeat' first
    | exact (rfl : (_ : Nat) = _)
    | exact (rfl : (_ : Bool) = _)
    | with_reducible first
      | exact wNil | exact wSeqNil | refine wSeq ?_ (fun _ => ?_) | refine wWhen ?_ | refine wUpd ?_
      | apply Within.mono (w_addReg_hi _ _ _ ?_)
      | apply Within.mono (w_setF_hi _ _ _ ?_)
    | (simp only [fieldOf]; decide)
    | (show 0x200000200000 ≤ _; (try simp only [RPL_CORR_CNT, RPL_CORR_POS, RPL_CORR_POS_SYMBOL, RPL_STAT, RPL_STAT_DEGRADED, rplBase]); (repeat' split) <;> omega)
    | intro _
    | split
    | extract_lets
    | (refine wRun ?_; split <;> intro _)
    | dsimp only

theorem w_linkEvent (n p cause : Nat) (s : State) : Within 72057594037927936 (linkEvent n p cause s) := by
  unfold linkEvent
  repeat' first
    | exact (rfl : (_ : Nat) = _)
    | exact (rfl : (_ : Bool) = _)
    | with_reducible first
      | exact wNil | refine wIf ?_ ?_ | refine wIfAct ?_ ?_
      | apply Within.mono (w_sendEvent ..)
    | (simp only [fieldOf]; decide)
    | intro _
    | split
    | extract_lets
    | (refine wRun ?_; split <;> intro _)
    | dsimp only

theorem w_endDown (n p cause : Nat) (s : State) : Within 131073 (endDown n p cause s) := by
  unfold endDown
  repeat' first
    | exact (rfl : (_ : Nat) = _)
    | exact (rfl : (_ : Bool) = _)
    | with_reducible first
      | exact wNil | exact wSeqNil | refine wSeq ?_ (fun _ => ?_) | refine wUpd ?_
      | apply Within.mono (w_setF_hi _ _ _ ?_)
    | (simp only [fieldOf]; decide)
    | (show 0x200000200000 ≤ _; (try simp only [RPL_DOWN, RPL_DOWN_CAUSE, RPL_DOWN_PITCH, RPL_STAT, RPL_STAT_DOWN, rplBase]); (repeat' split) <;> omega)
    | intro _
    | split
    | extract_lets
    | (refine wRun ?_; split <;> intro _)
    | dsimp only

theorem w_linkDown (n p cause : Nat) (s : State) : Within 198070406285741908881171247107 (linkDown n p cause s) := by
  unfold linkDown
  repeat' first
    | exact (rfl : (_ : Nat) = _)
    | exact (rfl : (_ : Bool) = _)
    | with_reducible first
      | exact wNil | exact wNop | exact wSeqNil | refine wSeq ?_ (fun _ => ?_) | refine wIf ?_ ?_ | refine wIfAct ?_ ?_ | refine wCons ?_ ?_
      | apply Within.mono (w_dieRemove ..)
      | apply Within.mono (w_endDown ..)
      | apply Within.mono (w_linkEvent ..)
      | apply Within.mono (w_setF ..)
    | (simp only [fieldOf]; decide)
    | (show 0x200000200000 ≤ _; (try simp only [PCH_STATUS, PCH_STATUS_PEER_LOST, RPL_STAT, RPL_STAT_DOWN, rplBase]); (repeat' split) <;> omega)
    | intro _
    | split
    | extract_lets
    | (refine wRun ?_; split <;> intro _)
    | dsimp only

theorem w_countFabricErr (src : Master) (s : State) : Within 1 (countFabricErr src s) := by
  unfold countFabricErr
  repeat' first
    | exact (rfl : (_ : Nat) = _)
    | exact (rfl : (_ : Bool) = _)
    | with_reducible first
      | exact wNil | exact wNop | refine wIf ?_ ?_ | refine wIfAct ?_ ?_
      | apply Within.mono (w_incReg_hi _ _ ?_)
    | (simp only [fieldOf]; decide)
    | (show 0x200000200000 ≤ _; (try simp only [RTE_ERR_CNT]); (repeat' split) <;> omega)
    | intro _
    | split
    | extract_lets
    | (refine wRun ?_; split <;> intro _)
    | dsimp only

theorem w_applyW (ws : List RegW) (s : State) : Within 158456325028528675187087900673 (applyW ws s) := wEach (fun _ _ => w_setF _ _ _)

theorem w_winMasks  (s : State) : Within 1 (winMasks  s) := by
  unfold winMasks
  repeat' first
    | exact (rfl : (_ : Nat) = _)
    | exact (rfl : (_ : Bool) = _)
    | with_reducible first
      | exact wNil | exact wSeqNil | refine wSeq ?_ (fun _ => ?_) | refine wIf ?_ ?_ | refine wIfAct ?_ ?_ | refine wApp ?_ ?_ | refine wEach (fun _ _ => ?_)
      | apply Within.mono (w_wr64_hi _ _ _ ?_)
    | (simp only [fieldOf]; decide)
    | (show 0x200000200000 ≤ _; (try simp only [DMA_CH_OWN, DMA_CH_OWN_PART, DMA_WIN_USE, DMA_WIN_USEP, DMA_WIN_USEP_LO, DMA_WIN_USE_LO, dmaBase]); (repeat' split) <;> omega)
    | intro _
    | split
    | extract_lets
    | (refine wRun ?_; split <;> intro _)
    | dsimp only

theorem w_setPlls (d f a b : Nat) (s : State) : Within 1 (setPlls d f a b s) := by
  unfold setPlls
  repeat' first
    | exact (rfl : (_ : Nat) = _)
    | exact (rfl : (_ : Bool) = _)
    | with_reducible first
      | exact wNil | exact wSeqNil | refine wSeq ?_ (fun _ => ?_) | refine wWhen ?_
      | apply Within.mono (w_setF_hi _ _ _ ?_)
    | (simp only [fieldOf]; decide)
    | (show 0x200000200000 ≤ _; (try simp only [CLK_CD_PLL, CLK_CD_PLL_F_LOCK, CLK_CD_PLL_F_PT, CLK_CD_PLL_P1_LOCK, CLK_CD_PLL_P1_PT, CLK_CD_PLL_P2_LOCK, CLK_CD_PLL_P2_PT]); (repeat' split) <;> omega)
    | intro _
    | split
    | extract_lets
    | (refine wRun ?_; split <;> intro _)
    | dsimp only

theorem w_cachesFollow (p : Nat) (b : List Byte) (old : List (Nat × List Byte)) (s : State) : Within 17179869185 (cachesFollow p b old s) := by
  unfold cachesFollow
  repeat' first
    | exact (rfl : (_ : Nat) = _)
    | exact (rfl : (_ : Bool) = _)
    | with_reducible first
      | exact wNil | exact wNop | exact wSeqNil | refine wSeq ?_ (fun _ => ?_) | refine wIf ?_ ?_ | refine wIfAct ?_ ?_ | refine wEach (fun _ _ => ?_)
      | apply Within.mono (w_kvReset ..)
      | apply Within.mono (w_setKv ..)
    | (simp only [fieldOf]; decide)
    | intro _
    | split
    | extract_lets
    | (refine wRun ?_; split <;> intro _)
    | dsimp only

theorem w_contextsFollow (p : Nat) (b : List Byte) (old : List (Nat × List Byte)) (s : State) : Within 1180663691509293907971 (contextsFollow p b old s) := by
  unfold contextsFollow
  repeat' first
    | exact (rfl : (_ : Nat) = _)
    | exact (rfl : (_ : Bool) = _)
    | with_reducible first
      | exact wNil | exact wSeqNil | refine wSeq ?_ (fun _ => ?_) | refine wWhen ?_ | refine wEach (fun _ _ => ?_)
      | apply Within.mono (w_ctxDisable ..)
      | apply Within.mono (w_ctxDrainEnd ..)
      | apply Within.mono (w_ctxEnable ..)
      | apply Within.mono (w_ctxStart ..)
      | apply Within.mono (w_setCtx ..)
    | (simp only [fieldOf]; decide)
    | intro _
    | split
    | extract_lets
    | (refine wRun ?_; split <;> intro _)
    | dsimp only

theorem w_setLoad (f : Load → Load) (s : State) : Within 19807040628566084398385987584 (setLoad f s) := by
  unfold setLoad
  repeat' first
    | exact (rfl : (_ : Nat) = _)
    | exact (rfl : (_ : Bool) = _)
    | with_reducible first
      | exact wNil | refine wCons ?_ ?_
    | (simp only [fieldOf]; decide)
    | intro _
    | split
    | extract_lets
    | (refine wRun ?_; split <;> intro _)
    | dsimp only

theorem w_flashStore (x off : Nat) (bs : List Byte) (s : State) : Within 618970019642690137449562112 (flashStore x off bs s) := by
  induction bs generalizing off s with
  | nil => exact wNil
  | cons b bs ih => exact wAnd (wUpd (by simp only [fieldOf]; decide)) (fun _ => ih _ _)

theorem w_topoShow  (s : State) : Within 1 (topoShow  s) := by
  unfold topoShow
  repeat' first
    | exact (rfl : (_ : Nat) = _)
    | exact (rfl : (_ : Bool) = _)
    | with_reducible first
      | exact wNil | exact wSeqNil | refine wSeq ?_ (fun _ => ?_) | refine wIf ?_ ?_ | refine wIfAct ?_ ?_
      | apply Within.mono (w_setF_hi _ _ _ ?_)
    | (simp only [fieldOf]; decide)
    | (show 0x200000200000 ≤ _; (try simp only [TOPO_STATUS, TOPO_STATUS_OTHER_VALID, TOPO_STATUS_RUN_SLOT, TOPO_STATUS_TRIAL]); (repeat' split) <;> omega)
    | intro _
    | split
    | extract_lets
    | (refine wRun ?_; split <;> intro _)
    | dsimp only

theorem w_topoErr (code sect : Nat) (part : Bool) (s : State) : Within 1 (topoErr code sect part s) := by
  unfold topoErr
  repeat' first
    | exact (rfl : (_ : Nat) = _)
    | exact (rfl : (_ : Bool) = _)
    | with_reducible first
      | exact wNil | exact wSeqNil | refine wSeq ?_ (fun _ => ?_) | refine wIf ?_ ?_ | refine wIfAct ?_ ?_
      | apply Within.mono (w_setF_hi _ _ _ ?_)
    | (simp only [fieldOf]; decide)
    | (show 0x200000200000 ≤ _; (try simp only [TOPO_ERR, TOPO_ERR_CODE, TOPO_ERR_PARTIAL, TOPO_ERR_SECTION, TOPO_ERR_VALID]); (repeat' split) <;> omega)
    | intro _
    | split
    | extract_lets
    | (refine wRun ?_; split <;> intro _)
    | dsimp only

theorem w_logRejected (code sect : Nat) (part : Bool) (seqNo : Nat) (s : State) : Within 5 (logRejected code sect part seqNo s) := by
  unfold logRejected
  repeat' first
    | exact (rfl : (_ : Nat) = _)
    | exact (rfl : (_ : Bool) = _)
    | with_reducible first
      | exact wNil | exact wSeqNil | refine wSeq ?_ (fun _ => ?_) | refine wIf ?_ ?_ | refine wIfAct ?_ ?_ | refine wCons ?_ ?_ | refine wApp ?_ ?_ | refine wEach (fun _ _ => ?_)
      | apply Within.mono (w_ancLog ..)
    | (simp only [fieldOf]; decide)
    | intro _
    | split
    | extract_lets
    | (refine wRun ?_; split <;> intro _)
    | dsimp only

theorem w_rejectImage (code sect : Nat) (part : Bool) (seqNo : Nat) (s : State) : Within 5 (rejectImage code sect part seqNo s) := by
  unfold rejectImage
  repeat' first
    | exact (rfl : (_ : Nat) = _)
    | exact (rfl : (_ : Bool) = _)
    | with_reducible first
      | exact wNil | exact wSeqNil | refine wSeq ?_ (fun _ => ?_)
      | apply Within.mono (w_incReg_hi _ _ ?_)
      | apply Within.mono (w_logRejected ..)
      | apply Within.mono (w_topoErr ..)
    | (simp only [fieldOf]; decide)
    | (show 0x200000200000 ≤ _; (try simp only [TOPO_REJ_CNT]); (repeat' split) <;> omega)
    | intro _
    | split
    | extract_lets
    | (refine wRun ?_; split <;> intro _)
    | dsimp only

theorem w_storeShow (x : Nat) (s : State) : Within 1 (storeShow x s) := by
  unfold storeShow
  repeat' first
    | exact (rfl : (_ : Nat) = _)
    | exact (rfl : (_ : Bool) = _)
    | with_reducible first
      | exact wNil | exact wSeqNil | refine wSeq ?_ (fun _ => ?_)
      | apply Within.mono (w_setF_hi _ _ _ ?_)
      | apply Within.mono (w_wr_hi _ _ _ ?_)
    | (simp only [fieldOf]; decide)
    | (show 0x200000200000 ≤ _; (try simp only [SEC_BOOT, SEC_BOOT_PROD, SEC_ST_CERT, SEC_ST_CTR, SEC_ST_FW, SEC_ST_TOPO, ancBase]); (repeat' split) <;> omega)
    | intro _
    | split
    | extract_lets
    | (refine wRun ?_; split <;> intro _)
    | dsimp only

theorem w_storeWrite (x n : Nat) (ok : Bool) (s : State) : Within 2475880078570760549798248449 (storeWrite x n ok s) := by
  unfold storeWrite
  repeat' first
    | exact (rfl : (_ : Nat) = _)
    | exact (rfl : (_ : Bool) = _)
    | with_reducible first
      | exact wNil | exact wSeqNil | refine wSeq ?_ (fun _ => ?_) | refine wIf ?_ ?_ | refine wIfAct ?_ ?_ | refine wUpd ?_
      | apply Within.mono (w_setF_hi _ _ _ ?_)
      | apply Within.mono (w_storeShow ..)
    | (simp only [fieldOf]; decide)
    | (show 0x200000200000 ≤ _; (try simp only [SEC_RB, SEC_RB_PENDING, ancBase]); (repeat' split) <;> omega)
    | intro _
    | split
    | extract_lets
    | (refine wRun ?_; split <;> intro _)
    | dsimp only

theorem w_slotWrite (n : Nat) (b : List Byte) (s : State) : Within 21663950687494154810734673925 (slotWrite n b s) := by
  unfold slotWrite
  repeat' first
    | exact (rfl : (_ : Nat) = _)
    | exact (rfl : (_ : Bool) = _)
    | with_reducible first
      | exact wNil | exact wSeqNil | refine wSeq ?_ (fun _ => ?_) | refine wIf ?_ ?_ | refine wIfAct ?_ ?_ | refine wUpd ?_ | refine wEach (fun _ _ => ?_)
      | apply Within.mono (w_flashStore ..)
      | apply Within.mono (w_rejectImage ..)
      | apply Within.mono (w_setLoad ..)
      | apply Within.mono (w_topoShow ..)
    | (simp only [fieldOf]; decide)
    | intro _
    | split
    | extract_lets
    | (refine wRun ?_; split <;> intro _)
    | dsimp only

theorem w_confirmSlot (okA okB : Bool) (s : State) : Within 3713820117856140824697372673 (confirmSlot okA okB s) := by
  unfold confirmSlot
  repeat' first
    | exact (rfl : (_ : Nat) = _)
    | exact (rfl : (_ : Bool) = _)
    | with_reducible first
      | exact wNil | exact wSeqNil | refine wSeq ?_ (fun _ => ?_) | refine wIf ?_ ?_ | refine wIfAct ?_ ?_ | refine wCons ?_ ?_ | refine wEach (fun _ _ => ?_)
      | apply Within.mono (w_storeWrite ..)
      | apply Within.mono (w_topoShow ..)
    | (simp only [fieldOf]; decide)
    | intro _
    | split
    | extract_lets
    | (refine wRun ?_; split <;> intro _)
    | dsimp only

theorem w_setBundle (p k : Nat) (f : Bundle → Bundle) (s : State) : Within 19807040628566084398385987584 (setBundle p k f s) := by
  unfold setBundle
  repeat' first
    | exact (rfl : (_ : Nat) = _)
    | exact (rfl : (_ : Bool) = _)
    | with_reducible first
      | exact wNil | refine wIf ?_ ?_ | refine wIfAct ?_ ?_
      | apply Within.mono (w_setLoad ..)
    | (simp only [fieldOf]; decide)
    | intro _
    | split
    | extract_lets
    | (refine wRun ?_; split <;> intro _)
    | dsimp only

theorem w_bundleErr (p k cause : Nat) (s : State) : Within 1 (bundleErr p k cause s) := by
  unfold bundleErr
  repeat' first
    | exact (rfl : (_ : Nat) = _)
    | exact (rfl : (_ : Bool) = _)
    | with_reducible first
      | exact wNil | exact wSeqNil | refine wSeq ?_ (fun _ => ?_)
      | apply Within.mono (w_setF_hi _ _ _ ?_)
    | (simp only [fieldOf]; decide)
    | (show 0x200000200000 ≤ _; (try simp only [TOPO_BERR, TOPO_BERR_BUNDLE, TOPO_BERR_CAUSE, TOPO_BERR_PART, TOPO_BERR_VALID]); (repeat' split) <;> omega)
    | intro _
    | split
    | extract_lets
    | (refine wRun ?_; split <;> intro _)
    | dsimp only

theorem w_breadyWrite (src : Master) (p k : Nat) (s : State) : Within 19807040628566084401607213056 (breadyWrite src p k s) := by
  unfold breadyWrite
  repeat' first
    | exact (rfl : (_ : Nat) = _)
    | exact (rfl : (_ : Bool) = _)
    | with_reducible first
      | exact wNil | refine wIf ?_ ?_ | refine wIfAct ?_ ?_
      | apply Within.mono (w_recordRefusal ..)
      | apply Within.mono (w_setBundle ..)
    | (simp only [fieldOf]; decide)
    | intro _
    | split
    | extract_lets
    | (refine wRun ?_; split <;> intro _)
    | dsimp only

theorem w_copySegs (m : Master) (b : Bundle) (p : Nat × Nat × Nat → Bool) (s : State) : Within 13197844676611 (copySegs m b p s) := by
  unfold copySegs
  repeat' first
    | exact (rfl : (_ : Nat) = _)
    | exact (rfl : (_ : Bool) = _)
    | with_reducible first
      | exact wNil | refine wEach (fun _ _ => ?_)
      | apply Within.mono (w_unitWrite ..)
    | (simp only [fieldOf]; decide)
    | intro _
    | split
    | extract_lets
    | (refine wRun ?_; split <;> intro _)
    | dsimp only

theorem w_copyAll (p : Nat) (s : State) : Within 19342813113847264639975427 (copyAll p s) := by
  unfold copyAll
  repeat' first
    | exact (rfl : (_ : Nat) = _)
    | exact (rfl : (_ : Bool) = _)
    | with_reducible first
      | exact wNil | exact wSeqNil | refine wSeq ?_ (fun _ => ?_) | refine wUpd ?_ | refine wApp ?_ ?_ | refine wEach (fun _ _ => ?_)
      | apply Within.mono (w_copySegs ..)
    | (simp only [fieldOf]; decide)
    | intro _
    | split
    | extract_lets
    | (refine wRun ?_; split <;> intro _)
    | dsimp only

theorem w_reloadError (p : Nat) (s : State) : Within 34359738369 (reloadError p s) := by
  unfold reloadError
  repeat' first
    | exact (rfl : (_ : Nat) = _)
    | exact (rfl : (_ : Bool) = _)
    | with_reducible first
      | exact wNil | exact wSeqNil | refine wSeq ?_ (fun _ => ?_) | refine wIf ?_ ?_ | refine wIfAct ?_ ?_
      | apply Within.mono (w_setF_hi _ _ _ ?_)
      | apply Within.mono (w_setPart ..)
    | (simp only [fieldOf]; decide)
    | (show 0x200000200000 ≤ _; (try simp only [FLT_PART_STAT, FLT_PART_STAT_LOAD_ERR]); (repeat' split) <;> omega)
    | intro _
    | split
    | extract_lets
    | (refine wRun ?_; split <;> intro _)
    | dsimp only

theorem w_coresStart (p : Nat) (s : State) : Within 786433 (coresStart p s) := by
  unfold coresStart
  repeat' first
    | exact (rfl : (_ : Nat) = _)
    | exact (rfl : (_ : Bool) = _)
    | with_reducible first
      | exact wNil | exact wSeqNil | refine wSeq ?_ (fun _ => ?_) | refine wEach (fun _ _ => ?_)
      | apply Within.mono (w_setCore ..)
      | apply Within.mono (w_startThreads ..)
    | (simp only [fieldOf]; decide)
    | intro _
    | split
    | extract_lets
    | (refine wRun ?_; split <;> intro _)
    | dsimp only

theorem w_trainRecords (b : List Byte) (trained : List (Nat × Nat × List Byte)) (s : State) : Within 281474976710689 (trainRecords b trained s) := by
  unfold trainRecords
  repeat' first
    | exact (rfl : (_ : Nat) = _)
    | exact (rfl : (_ : Bool) = _)
    | with_reducible first
      | exact wNil | exact wSeqNil | refine wSeq ?_ (fun _ => ?_) | refine wWhen ?_ | refine wIf ?_ ?_ | refine wIfAct ?_ ?_ | refine wUpd ?_ | refine wApp ?_ ?_ | refine wEach (fun _ _ => ?_) | refine wFree ?_ (fun _ _ => ?_)
      | apply Within.mono (w_setF_hi _ _ _ ?_)
    | (simp only [fieldOf]; decide)
    | (show 0x200000200000 ≤ _; (try simp only [DDR_TRN_STAT, DDR_TRN_STAT_CHECK_FAIL, DDR_TRN_STAT_TRAINED]); (repeat' split) <;> omega)
    | intro _
    | split
    | extract_lets
    | (refine wRun ?_; split <;> intro _)
    | dsimp only

theorem w_loadLow (img : List Byte) (badLinks : List (Nat × Nat)) (trained : List (Nat × Nat × List Byte)) (s : State) : Within 217877446914308274754533945379 (loadLow img badLinks trained s) := by
  unfold loadLow
  repeat' first
    | exact (rfl : (_ : Nat) = _)
    | exact (rfl : (_ : Bool) = _)
    | with_reducible first
      | exact wNil | exact wSeqNil | refine wSeq ?_ (fun _ => ?_) | refine wWhen ?_ | refine wEach (fun _ _ => ?_)
      | apply Within.mono (w_applyW ..)
      | apply Within.mono (w_dieLinks ..)
      | apply Within.mono (w_linkDown ..)
      | apply Within.mono (w_portStart ..)
      | apply Within.mono (w_setF ..)
      | apply Within.mono (w_setLoad ..)
      | apply Within.mono (w_setPlls ..)
      | apply Within.mono (w_trainRecords ..)
    | (simp only [fieldOf]; decide)
    | (show 0x200000200000 ≤ _; (try simp only [CLK_STAT, CLK_STAT_FAB_PT, DDR_CH_STAT, DDR_CH_STAT_PT, DDR_CH_STAT_STATE, DDR_PT, DDR_PT_CUR]); (repeat' split) <;> omega)
    | intro _
    | split
    | extract_lets
    | (refine wRun ?_; split <;> intro _)
    | dsimp only

theorem w_loadMid (img : List Byte) (cal : List (Nat × Nat)) (s : State) : Within 178263365657094759585574551555 (loadMid img cal s) := by
  unfold loadMid
  repeat' first
    | exact (rfl : (_ : Nat) = _)
    | exact (rfl : (_ : Bool) = _)
    | with_reducible first
      | exact wNil | exact wSeqNil | refine wSeq ?_ (fun _ => ?_) | refine wEach (fun _ _ => ?_)
      | apply Within.mono (w_applyW ..)
      | apply Within.mono (w_bankSettle ..)
      | apply Within.mono (w_setF ..)
      | apply Within.mono (w_setLoad ..)
    | (simp only [fieldOf]; decide)
    | (show 0x200000200000 ≤ _; (try simp only [BND_SRAM_D, BND_SRAM_D_FJ, BND_SRAM_D_T]); (repeat' split) <;> omega)
    | intro _
    | split
    | extract_lets
    | (refine wRun ?_; split <;> intro _)
    | dsimp only

theorem w_ancInstall (x : Nat) (s : State) : Within 158456325028528675187087900677 (ancInstall x s) := by
  unfold ancInstall
  repeat' first
    | exact (rfl : (_ : Nat) = _)
    | exact (rfl : (_ : Bool) = _)
    | with_reducible first
      | exact wNil | exact wSeqNil | refine wSeq ?_ (fun _ => ?_) | refine wIf ?_ ?_ | refine wIfAct ?_ ?_ | refine wEach (fun _ _ => ?_)
      | apply Within.mono (w_applyW ..)
      | apply Within.mono (w_setF ..)
      | apply Within.mono (w_sramStore ..)
    | (simp only [fieldOf]; decide)
    | (show 0x200000200000 ≤ _; (try simp only [SUP_TASK_CFG, SUP_TASK_CFG_ACTIVE, ancBase]); (repeat' split) <;> omega)
    | intro _
    | split
    | extract_lets
    | (refine wRun ?_; split <;> intro _)
    | dsimp only

theorem w_loadSup (img : List Byte) (s : State) : Within 178263376872787227209943744519 (loadSup img s) := by
  unfold loadSup
  repeat' first
    | exact (rfl : (_ : Nat) = _)
    | exact (rfl : (_ : Bool) = _)
    | with_reducible first
      | exact wNil | exact wSeqNil | refine wSeq ?_ (fun _ => ?_) | refine wIf ?_ ?_ | refine wIfAct ?_ ?_ | refine wUpd ?_ | refine wCons ?_ ?_ | refine wEach (fun _ _ => ?_)
      | apply Within.mono (w_ancInstall ..)
      | apply Within.mono (w_applyW ..)
      | apply Within.mono (w_cachesFollow ..)
      | apply Within.mono (w_contextsFollow ..)
      | apply Within.mono (w_setLoad ..)
      | apply Within.mono (w_writeEnable _ _ _ _ ?_ ?_)
    | (simp only [fieldOf]; decide)
    | (show 0x200000200000 ≤ _; (try simp only [KVC_CTL, KVC_CTL_EN, KVC_STAT, KVC_STAT_STATE]); (repeat' split) <;> omega)
    | intro _
    | split
    | extract_lets
    | (refine wRun ?_; split <;> intro _)
    | dsimp only

theorem w_loadParts (img : List Byte) (s : State) : Within 178263365657094759619833626625 (loadParts img s) := by
  unfold loadParts
  repeat' first
    | exact (rfl : (_ : Nat) = _)
    | exact (rfl : (_ : Bool) = _)
    | with_reducible first
      | exact wNil | exact wNop | exact wSeqNil | refine wSeq ?_ (fun _ => ?_) | refine wEach (fun _ _ => ?_)
      | apply Within.mono (w_applyW ..)
      | apply Within.mono (w_clusterWake ..)
      | apply Within.mono (w_setF ..)
      | apply Within.mono (w_setLoad ..)
      | apply Within.mono (w_setPart ..)
      | apply Within.mono (w_setPlls ..)
      | apply Within.mono (w_setPoints ..)
      | apply Within.mono (w_winMasks ..)
    | (simp only [fieldOf]; decide)
    | (show 0x200000200000 ≤ _; (try simp only [CLK_OP_EN, CLK_OP_EN_EN, CLK_STAT, CLK_STAT_FAB_PT, PRT_STAT, PRT_STAT_EFF_LEVEL, PRT_STAT_STATE]); (repeat' split) <;> omega)
    | intro _
    | split
    | extract_lets
    | (refine wRun ?_; split <;> intro _)
    | dsimp only

theorem w_runSet  (s : State) : Within 158456325028528675187087901441 (runSet  s) := by
  unfold runSet
  repeat' first
    | exact (rfl : (_ : Nat) = _)
    | exact (rfl : (_ : Bool) = _)
    | with_reducible first
      | exact wNil | exact wSeqNil | refine wSeq ?_ (fun _ => ?_) | refine wUpd ?_
      | apply Within.mono (w_setF ..)
      | apply Within.mono (w_wr64 ..)
    | (simp only [fieldOf]; decide)
    | (show 0x200000200000 ≤ _; (try simp only [PCH_CFG, PCH_CFG_RUN, PCH_EPOCH, PCH_EPOCH_LO]); (repeat' split) <;> omega)
    | intro _
    | split
    | extract_lets
    | (refine wRun ?_; split <;> intro _)
    | dsimp only

theorem w_loaderSteps (img : List Byte) (sync : Option Nat) (badLinks : List (Nat × Nat)) (trained : List (Nat × Nat × List Byte)) (cal : List (Nat × Nat)) (s : State) : Within 217877458129928684784616174527 (loaderSteps img sync badLinks trained cal s) := by
  unfold loaderSteps
  repeat' first
    | exact (rfl : (_ : Nat) = _)
    | exact (rfl : (_ : Bool) = _)
    | with_reducible first
      | exact wNil | exact wSeqNil | refine wSeq ?_ (fun _ => ?_) | refine wUpd ?_
      | apply Within.mono (w_loadLow ..)
      | apply Within.mono (w_loadMid ..)
      | apply Within.mono (w_loadParts ..)
      | apply Within.mono (w_loadSup ..)
      | apply Within.mono (w_runSet ..)
      | apply Within.mono (w_setF ..)
    | (simp only [fieldOf]; decide)
    | (show 0x200000200000 ≤ _; (try simp only [PCH_STATUS, PCH_STATUS_HOLDOVER]); (repeat' split) <;> omega)
    | intro _
    | split
    | extract_lets
    | (refine wRun ?_; split <;> intro _)
    | dsimp only

theorem w_partialEnd  (s : State) : Within 19807040628566084398385987585 (partialEnd  s) := by
  unfold partialEnd
  repeat' first
    | exact (rfl : (_ : Nat) = _)
    | exact (rfl : (_ : Bool) = _)
    | with_reducible first
      | exact wNil | exact wSeqNil | refine wSeq ?_ (fun _ => ?_)
      | apply Within.mono (w_setF_hi _ _ _ ?_)
      | apply Within.mono (w_setLoad ..)
    | (simp only [fieldOf]; decide)
    | (show 0x200000200000 ≤ _; (try simp only [TOPO_STATUS, TOPO_STATUS_PART_STATE]); (repeat' split) <;> omega)
    | intro _
    | split
    | extract_lets
    | (refine wRun ?_; split <;> intro _)
    | dsimp only

theorem w_submit  (s : State) : Within 19807040628566084398385987585 (submit  s) := by
  unfold submit
  repeat' first
    | exact (rfl : (_ : Nat) = _)
    | exact (rfl : (_ : Bool) = _)
    | with_reducible first
      | exact wNil | exact wSeqNil | refine wSeq ?_ (fun _ => ?_) | refine wIf ?_ ?_ | refine wIfAct ?_ ?_
      | apply Within.mono (w_incReg_hi _ _ ?_)
      | apply Within.mono (w_setF_hi _ _ _ ?_)
      | apply Within.mono (w_setLoad ..)
      | apply Within.mono (w_topoErr ..)
    | (simp only [fieldOf]; decide)
    | (show 0x200000200000 ≤ _; (try simp only [TOPO_DEFER, TOPO_DEFER_DEFER_CNT, TOPO_REJ_CNT, TOPO_STATUS, TOPO_STATUS_PART_ID, TOPO_STATUS_PART_STATE]); (repeat' split) <;> omega)
    | intro _
    | split
    | extract_lets
    | (refine wRun ?_; split <;> intro _)
    | dsimp only

theorem w_cancelPartial  (s : State) : Within 19807040628566084398385987585 (cancelPartial  s) := by
  unfold cancelPartial
  repeat' first
    | exact (rfl : (_ : Nat) = _)
    | exact (rfl : (_ : Bool) = _)
    | with_reducible first
      | exact wNil | exact wSeqNil | refine wSeq ?_ (fun _ => ?_) | refine wIf ?_ ?_ | refine wIfAct ?_ ?_
      | apply Within.mono (w_partialEnd ..)
      | apply Within.mono (w_topoErr ..)
    | (simp only [fieldOf]; decide)
    | intro _
    | split
    | extract_lets
    | (refine wRun ?_; split <;> intro _)
    | dsimp only

theorem w_cancelWrite (now : Nat) (s : State) : Within 19807040628566084398385987585 (cancelWrite now s) := by
  unfold cancelWrite
  repeat' first
    | exact (rfl : (_ : Nat) = _)
    | exact (rfl : (_ : Bool) = _)
    | with_reducible first
      | exact wNil | refine wIf ?_ ?_ | refine wIfAct ?_ ?_
      | apply Within.mono (w_cancelPartial ..)
    | (simp only [fieldOf]; decide)
    | intro _
    | split
    | extract_lets
    | (refine wRun ?_; split <;> intro _)
    | dsimp only

theorem w_measCommit (n : Nat) (img : List Byte) (s : State) : Within 4951760157141521099596496897 (measCommit n img s) := by
  unfold measCommit
  repeat' first
    | exact (rfl : (_ : Nat) = _)
    | exact (rfl : (_ : Bool) = _)
    | with_reducible first
      | exact wNil | exact wSeqNil | refine wSeq ?_ (fun _ => ?_) | refine wCons ?_ ?_ | refine wApp ?_ ?_ | refine wEach (fun _ _ => ?_)
      | apply Within.mono (w_wr_hi _ _ _ ?_)
    | (simp only [fieldOf]; decide)
    | (show 0x200000200000 ≤ _; (try simp only [TOPO_MEAS]); (repeat' split) <;> omega)
    | intro _
    | split
    | extract_lets
    | (refine wRun ?_; split <;> intro _)
    | dsimp only

theorem w_partialCommit (n : Nat) (t : Partial) (s : State) : Within 183215136439632937985228144643 (partialCommit n t s) := by
  unfold partialCommit
  repeat' first
    | exact (rfl : (_ : Nat) = _)
    | exact (rfl : (_ : Bool) = _)
    | with_reducible first
      | exact wNil | exact wNop | exact wSeqNil | refine wSeq ?_ (fun _ => ?_) | refine wIf ?_ ?_ | refine wIfAct ?_ ?_ | refine wUpd ?_ | refine wApp ?_ ?_ | refine wEach (fun _ _ => ?_)
      | apply Within.mono (w_applyW ..)
      | apply Within.mono (w_bankSettle ..)
      | apply Within.mono (w_banksSettle ..)
      | apply Within.mono (w_cachesFollow ..)
      | apply Within.mono (w_clusterGate ..)
      | apply Within.mono (w_clusterWake ..)
      | apply Within.mono (w_contextsFollow ..)
      | apply Within.mono (w_measCommit ..)
      | apply Within.mono (w_setF ..)
      | apply Within.mono (w_setLoad ..)
      | apply Within.mono (w_setPart ..)
      | apply Within.mono (w_setPlls ..)
      | apply Within.mono (w_setPoints ..)
      | apply Within.mono (w_winMasks ..)
      | apply Within.mono (w_wr64 ..)
    | (simp only [fieldOf]; decide)
    | (show 0x200000200000 ≤ _; (try simp only [CLK_CD_PLL, CLK_CD_PLL_F_PT, MAP_BNK_OWN, MAP_BNK_OWN_PART, PRT_CLU, PRT_CLU_PART, SUP_TASK_CFG, SUP_TASK_CFG_ACTIVE, TOPO_APPLY, TOPO_APPLY_LO, TOPO_STATUS, TOPO_STATUS_PART_STATE, ancBase]); (repeat' split) <;> omega)
    | intro _
    | split
    | extract_lets
    | (refine wRun ?_; split <;> intro _)
    | dsimp only

theorem w_partialTick (n : Nat) (s : State) : Within 183215136439632937985228144643 (partialTick n s) := by
  unfold partialTick
  repeat' first
    | exact (rfl : (_ : Nat) = _)
    | exact (rfl : (_ : Bool) = _)
    | with_reducible first
      | exact wNil | exact wSeqNil | refine wSeq ?_ (fun _ => ?_) | refine wWhen ?_ | refine wIf ?_ ?_ | refine wIfAct ?_ ?_
      | apply Within.mono (w_incReg ..)
      | apply Within.mono (w_partialCommit ..)
      | apply Within.mono (w_partialEnd ..)
      | apply Within.mono (w_setF ..)
      | apply Within.mono (w_topoErr ..)
    | (simp only [fieldOf]; decide)
    | (show 0x200000200000 ≤ _; (try simp only [PCH_DONE, PCH_DONE_DONE, TOPO_DEFER, TOPO_DEFER_DEFER_CNT, TOPO_DEFER_MAX_DEFER, TOPO_REJ_CNT, TOPO_STATUS, TOPO_STATUS_PART_STATE]); (repeat' split) <;> omega)
    | intro _
    | split
    | extract_lets
    | (refine wRun ?_; split <;> intro _)
    | dsimp only

theorem w_topoCmd (v now : Nat) (s : State) : Within 24139830766064915360532922373 (topoCmd v now s) := by
  unfold topoCmd
  repeat' first
    | exact (rfl : (_ : Nat) = _)
    | exact (rfl : (_ : Bool) = _)
    | with_reducible first
      | exact wNil | exact wNop
      | apply Within.mono (w_cancelWrite ..)
      | apply Within.mono (w_confirmSlot ..)
      | apply Within.mono (w_slotWrite ..)
      | apply Within.mono (w_submit ..)
    | (simp only [fieldOf]; decide)
    | intro _
    | split
    | extract_lets
    | (refine wRun ?_; split <;> intro _)
    | dsimp only

theorem w_faultRecord (what p code : Nat) (dies : List Nat) (s : State) : Within 72057594037927936 (faultRecord what p code dies s) := by
  unfold faultRecord
  repeat' first
    | exact (rfl : (_ : Nat) = _)
    | exact (rfl : (_ : Bool) = _)
    | with_reducible first
      | exact wNil | refine wIf ?_ ?_ | refine wIfAct ?_ ?_
      | apply Within.mono (w_sendEvent ..)
    | (simp only [fieldOf]; decide)
    | intro _
    | split
    | extract_lets
    | (refine wRun ?_; split <;> intro _)
    | dsimp only

theorem w_jobEnd (p : Nat) (s : State) : Within 13232206798851 (jobEnd p s) := by
  unfold jobEnd
  repeat' first
    | exact (rfl : (_ : Nat) = _)
    | exact (rfl : (_ : Bool) = _)
    | with_reducible first
      | exact wNil | exact wSeqNil | refine wSeq ?_ (fun _ => ?_) | refine wIf ?_ ?_ | refine wIfAct ?_ ?_ | refine wEach (fun _ _ => ?_)
      | apply Within.mono (w_coreDiscard ..)
      | apply Within.mono (w_coreStop ..)
      | apply Within.mono (w_leaveLent ..)
      | apply Within.mono (w_setCore ..)
      | apply Within.mono (w_setF_hi _ _ _ ?_)
      | apply Within.mono (w_setPart ..)
    | (simp only [fieldOf]; decide)
    | (show 0x200000200000 ≤ _; (try simp only [CORE_STAT, CORE_STAT_PREEMPTED, coreBase]); (repeat' split) <;> omega)
    | intro _
    | split
    | extract_lets
    | (refine wRun ?_; split <;> intro _)
    | dsimp only

theorem w_lastingFault (p code : Nat) (dies : List Nat) (s : State) : Within 72057628397666305 (lastingFault p code dies s) := by
  unfold lastingFault
  repeat' first
    | exact (rfl : (_ : Nat) = _)
    | exact (rfl : (_ : Bool) = _)
    | with_reducible first
      | exact wNil | exact wSeqNil | refine wSeq ?_ (fun _ => ?_) | refine wIf ?_ ?_ | refine wIfAct ?_ ?_
      | apply Within.mono (w_decideRestart ..)
      | apply Within.mono (w_faultRecord ..)
      | apply Within.mono (w_incReg_hi _ _ ?_)
    | (simp only [fieldOf]; decide)
    | (show 0x200000200000 ≤ _; (try simp only [FLT_PART_LAST_CNT]); (repeat' split) <;> omega)
    | intro _
    | split
    | extract_lets
    | (refine wRun ?_; split <;> intro _)
    | dsimp only

theorem w_takeFault (p code : Nat) (dies : List Nat) (inPitch : Bool) (s : State) : Within 72070826244726787 (takeFault p code dies inPitch s) := by
  unfold takeFault
  repeat' first
    | exact (rfl : (_ : Nat) = _)
    | exact (rfl : (_ : Bool) = _)
    | with_reducible first
      | exact wNil | exact wNop | exact wSeqNil | refine wSeq ?_ (fun _ => ?_) | refine wWhen ?_ | refine wIf ?_ ?_ | refine wIfAct ?_ ?_
      | apply Within.mono (w_faultRecord ..)
      | apply Within.mono (w_incReg_hi _ _ ?_)
      | apply Within.mono (w_jobEnd ..)
      | apply Within.mono (w_lastingFault ..)
      | apply Within.mono (w_setF_hi _ _ _ ?_)
      | apply Within.mono (w_setPart ..)
    | (simp only [fieldOf]; decide)
    | (show 0x200000200000 ≤ _; (try simp only [FLT_PART_FAULT_CNT, FLT_PART_LAST, FLT_PART_LAST_CODE, FLT_PART_LAST_DIE, FLT_PART_LAST_MULTI, FLT_PART_LAST_NODIE, FLT_PART_LAST_PITCH, FLT_PART_LAST_VALID, FLT_PART_STAT, FLT_PART_STAT_RETRY]); (repeat' split) <;> omega)
    | intro _
    | split
    | extract_lets
    | (refine wRun ?_; split <;> intro _)
    | dsimp only

theorem w_faultNext (p : Nat) (inPitch : Bool) (s : State) : Within 604462990885340086820867 (faultNext p inPitch s) := by
  unfold faultNext
  repeat' first
    | exact (rfl : (_ : Nat) = _)
    | exact (rfl : (_ : Bool) = _)
    | with_reducible first
      | exact wNil | exact wSeqNil | refine wSeq ?_ (fun _ => ?_) | refine wUpd ?_
      | apply Within.mono (w_takeFault ..)
    | (simp only [fieldOf]; decide)
    | intro _
    | split
    | extract_lets
    | (refine wRun ?_; split <;> intro _)
    | dsimp only

theorem w_faultAll  (s : State) : Within 604462990885340086820867 (faultAll  s) := by
  unfold faultAll
  repeat' first
    | exact (rfl : (_ : Nat) = _)
    | exact (rfl : (_ : Bool) = _)
    | with_reducible first
      | exact wNil | exact wSeqNil | refine wSeq ?_ (fun _ => ?_) | refine wEach (fun _ _ => ?_)
      | apply Within.mono (w_faultNext ..)
    | (simp only [fieldOf]; decide)
    | intro _
    | split
    | extract_lets
    | (refine wRun ?_; split <;> intro _)
    | dsimp only

theorem w_raiseWrite (src : Master) (p : Nat) (s : State) : Within 604462909807317808578561 (raiseWrite src p s) := by
  unfold raiseWrite
  repeat' first
    | exact (rfl : (_ : Nat) = _)
    | exact (rfl : (_ : Bool) = _)
    | with_reducible first
      | exact wNil | refine wIf ?_ ?_ | refine wIfAct ?_ ?_
      | apply Within.mono (w_incReg_hi _ _ ?_)
      | apply Within.mono (w_raiseJobFault ..)
      | apply Within.mono (w_recordRefusal ..)
    | (simp only [fieldOf]; decide)
    | (show 0x200000200000 ≤ _; (try simp only [FLT_PART_FAULT_CNT, FLT_PART_RAISE]); (repeat' split) <;> omega)
    | intro _
    | split
    | extract_lets
    | (refine wRun ?_; split <;> intro _)
    | dsimp only

theorem w_retryTick  (s : State) : Within 72057594037927937 (retryTick  s) := by
  unfold retryTick
  repeat' first
    | exact (rfl : (_ : Nat) = _)
    | exact (rfl : (_ : Bool) = _)
    | with_reducible first
      | exact wNil | exact wSeqNil | refine wSeq ?_ (fun _ => ?_) | refine wWhen ?_ | refine wIf ?_ ?_ | refine wIfAct ?_ ?_ | refine wEach (fun _ _ => ?_)
      | apply Within.mono (w_faultRecord ..)
      | apply Within.mono (w_incReg_hi _ _ ?_)
      | apply Within.mono (w_setF_hi _ _ _ ?_)
    | (simp only [fieldOf]; decide)
    | (show 0x200000200000 ≤ _; (try simp only [FLT_PART_LAST, FLT_PART_LAST_CODE, FLT_PART_LAST_NODIE, FLT_PART_STAT, FLT_PART_STAT_CARRY, FLT_PART_STAT_RETRY, FLT_PART_TRANS_CNT, PCH_DONE, PCH_DONE_DONE]); (repeat' split) <;> omega)
    | intro _
    | split
    | extract_lets
    | (refine wRun ?_; split <;> intro _)
    | dsimp only

theorem w_bankClear (d b : Nat) (s : State) : Within 113246211 (bankClear d b s) := by
  unfold bankClear
  repeat' first
    | exact (rfl : (_ : Nat) = _)
    | exact (rfl : (_ : Bool) = _)
    | with_reducible first
      | exact wNil | exact wSeqNil | refine wSeq ?_ (fun _ => ?_) | refine wUpd ?_
      | apply Within.mono (w_bankSettle ..)
      | apply Within.mono (w_loseContents ..)
      | apply Within.mono (w_releaseBankWatches ..)
      | apply Within.mono (w_setF_hi _ _ _ ?_)
    | (simp only [fieldOf]; decide)
    | (show 0x200000200000 ≤ _; (try simp only [BNK_PWR, BNK_PWR_STATE]); (repeat' split) <;> omega)
    | intro _
    | split
    | extract_lets
    | (refine wRun ?_; split <;> intro _)
    | dsimp only

theorem w_restartSteps (p n : Nat) (bad : List Nat) (all : Bool) (s : State) : Within 39614081257141189327605166083 (restartSteps p n bad all s) := by
  unfold restartSteps
  repeat' first
    | exact (rfl : (_ : Nat) = _)
    | exact (rfl : (_ : Bool) = _)
    | with_reducible first
      | exact wNil | exact wSeqNil | refine wSeq ?_ (fun _ => ?_) | refine wIf ?_ ?_ | refine wIfAct ?_ ?_ | refine wEach (fun _ _ => ?_)
      | apply Within.mono (w_bankClear ..)
      | apply Within.mono (w_bankSettle ..)
      | apply Within.mono (w_clusterGate ..)
      | apply Within.mono (w_clusterWake ..)
      | apply Within.mono (w_coreDiscard ..)
      | apply Within.mono (w_dieRemove ..)
      | apply Within.mono (w_incReg_hi _ _ ?_)
      | apply Within.mono (w_kvRemirror ..)
      | apply Within.mono (w_kvReset ..)
      | apply Within.mono (w_leaveLent ..)
      | apply Within.mono (w_partDrop ..)
      | apply Within.mono (w_setF_hi _ _ _ ?_)
      | apply Within.mono (w_setPart ..)
    | (simp only [fieldOf]; decide)
    | (show 0x200000200000 ≤ _; (try simp only [FLT_DIE_FAIL_CNT, FLT_PART_STAT, FLT_PART_STAT_NOFIT, FLT_PART_STAT_RST_LEFT, PRT_STAT, PRT_STAT_STATE]); (repeat' split) <;> omega)
    | intro _
    | split
    | extract_lets
    | (refine wRun ?_; split <;> intro _)
    | dsimp only

theorem w_restartEnter (p n cause : Nat) (bad : List Nat) (all : Bool) (s : State) : Within 39614081257141189327605166083 (restartEnter p n cause bad all s) := by
  unfold restartEnter
  repeat' first
    | exact (rfl : (_ : Nat) = _)
    | exact (rfl : (_ : Bool) = _)
    | with_reducible first
      | exact wNil | exact wSeqNil | refine wSeq ?_ (fun _ => ?_) | refine wWhen ?_ | refine wIf ?_ ?_ | refine wIfAct ?_ ?_ | refine wCons ?_ ?_
      | apply Within.mono (w_incReg_hi _ _ ?_)
      | apply Within.mono (w_restartSteps ..)
      | apply Within.mono (w_setF_hi _ _ _ ?_)
      | apply Within.mono (w_setPart ..)
      | apply Within.mono (w_setPoints ..)
    | (simp only [fieldOf]; decide)
    | (show 0x200000200000 ≤ _; (try simp only [FLT_PART_RST_CNT, FLT_PART_STAT, FLT_PART_STAT_CAUSE]); (repeat' split) <;> omega)
    | intro _
    | split
    | extract_lets
    | (refine wRun ?_; split <;> intro _)
    | dsimp only

theorem w_rejoin (p n : Nat) (s : State) : Within 34460401667 (rejoin p n s) := by
  unfold rejoin
  repeat' first
    | exact (rfl : (_ : Nat) = _)
    | exact (rfl : (_ : Bool) = _)
    | with_reducible first
      | exact wNil | exact wSeqNil | refine wSeq ?_ (fun _ => ?_) | refine wIf ?_ ?_ | refine wIfAct ?_ ?_
      | apply Within.mono (w_banksSettle ..)
      | apply Within.mono (w_bivEnter ..)
      | apply Within.mono (w_setF_hi _ _ _ ?_)
      | apply Within.mono (w_setPart ..)
    | (simp only [fieldOf]; decide)
    | (show 0x200000200000 ≤ _; (try simp only [FLT_PART_STAT, FLT_PART_STAT_HELD, FLT_PART_STAT_LOAD_ERR, FLT_PART_STAT_RST_LEFT, PRT_BIV, PRT_BIV_HOLD, PRT_BIV_REQ, PRT_STAT, PRT_STAT_STATE]); (repeat' split) <;> omega)
    | intro _
    | split
    | extract_lets
    | (refine wRun ?_; split <;> intro _)
    | dsimp only

theorem w_restartWait (p n : Nat) (bad : List Nat) (s : State) : Within 39614081257141189327605166083 (restartWait p n bad s) := by
  unfold restartWait
  repeat' first
    | exact (rfl : (_ : Nat) = _)
    | exact (rfl : (_ : Bool) = _)
    | with_reducible first
      | exact wNil | refine wIf ?_ ?_ | refine wIfAct ?_ ?_
      | apply Within.mono (w_rejoin ..)
      | apply Within.mono (w_restartSteps ..)
      | apply Within.mono (w_setF_hi _ _ _ ?_)
    | (simp only [fieldOf]; decide)
    | (show 0x200000200000 ≤ _; (try simp only [FLT_PART_STAT, FLT_PART_STAT_RST_LEFT]); (repeat' split) <;> omega)
    | intro _
    | split
    | extract_lets
    | (refine wRun ?_; split <;> intro _)
    | dsimp only

theorem w_restartTick (n : Nat) (due : List (Nat × Nat)) (bad : List Nat) (s : State) : Within 39614081257141189327605166083 (restartTick n due bad s) := by
  unfold restartTick
  repeat' first
    | exact (rfl : (_ : Nat) = _)
    | exact (rfl : (_ : Bool) = _)
    | with_reducible first
      | exact wNil | exact wSeqNil | refine wSeq ?_ (fun _ => ?_) | refine wIf ?_ ?_ | refine wIfAct ?_ ?_ | refine wEach (fun _ _ => ?_)
      | apply Within.mono (w_restartEnter ..)
      | apply Within.mono (w_restartSteps ..)
      | apply Within.mono (w_restartWait ..)
      | apply Within.mono (w_setPoints ..)
    | (simp only [fieldOf]; decide)
    | intro _
    | split
    | extract_lets
    | (refine wRun ?_; split <;> intro _)
    | dsimp only

theorem w_allRestart (n : Nat) (bad : List Nat) (s : State) : Within 39614081257141189327605166083 (allRestart n bad s) := by
  unfold allRestart
  repeat' first
    | exact (rfl : (_ : Nat) = _)
    | exact (rfl : (_ : Bool) = _)
    | with_reducible first
      | exact wNil | exact wNop | exact wSeqNil | refine wSeq ?_ (fun _ => ?_) | refine wIf ?_ ?_ | refine wIfAct ?_ ?_ | refine wUpd ?_ | refine wEach (fun _ _ => ?_)
      | apply Within.mono (w_dieReset ..)
      | apply Within.mono (w_dieTest ..)
      | apply Within.mono (w_incReg_hi _ _ ?_)
      | apply Within.mono (w_restartEnter ..)
      | apply Within.mono (w_setPart ..)
    | (simp only [fieldOf]; decide)
    | (show 0x200000200000 ≤ _; (try simp only [FLT_ALL_CNT]); (repeat' split) <;> omega)
    | intro _
    | split
    | extract_lets
    | (refine wRun ?_; split <;> intro _)
    | dsimp only

theorem w_readmit (d : Nat) (pass : Bool) (s : State) : Within 100794371 (readmit d pass s) := by
  unfold readmit
  repeat' first
    | exact (rfl : (_ : Nat) = _)
    | exact (rfl : (_ : Bool) = _)
    | with_reducible first
      | exact wNil | refine wIf ?_ ?_ | refine wIfAct ?_ ?_
      | apply Within.mono (w_dieTest ..)
    | (simp only [fieldOf]; decide)
    | intro _
    | split
    | extract_lets
    | (refine wRun ?_; split <;> intro _)
    | dsimp only

theorem w_unhold (p : Nat) (s : State) : Within 1 (unhold p s) := by
  unfold unhold
  repeat' first
    | exact (rfl : (_ : Nat) = _)
    | exact (rfl : (_ : Bool) = _)
    | with_reducible first
      | exact wNil | exact wSeqNil | refine wSeq ?_ (fun _ => ?_)
      | apply Within.mono (w_setF_hi _ _ _ ?_)
    | (simp only [fieldOf]; decide)
    | (show 0x200000200000 ≤ _; (try simp only [FLT_PART_STAT, FLT_PART_STAT_HELD, PRT_BIV, PRT_BIV_HOLD]); (repeat' split) <;> omega)
    | intro _
    | split
    | extract_lets
    | (refine wRun ?_; split <;> intro _)
    | dsimp only

theorem w_suspectShow  (s : State) : Within 1 (suspectShow  s) := by
  unfold suspectShow
  repeat' first
    | exact (rfl : (_ : Nat) = _)
    | exact (rfl : (_ : Bool) = _)
    | with_reducible first
      | exact wNil | exact wNop | exact wSeqNil | refine wSeq ?_ (fun _ => ?_) | refine wIf ?_ ?_ | refine wIfAct ?_ ?_ | refine wEach (fun _ _ => ?_)
      | apply Within.mono (w_setF_hi _ _ _ ?_)
    | (simp only [fieldOf]; decide)
    | (show 0x200000200000 ≤ _; (try simp only [FLT_DIE_STAT, FLT_DIE_STAT_LAST_N, FLT_DIE_STAT_SUSPECT, FLT_POL, FLT_POL_SUS_N]); (repeat' split) <;> omega)
    | intro _
    | split
    | extract_lets
    | (refine wRun ?_; split <;> intro _)
    | dsimp only

theorem w_lagTick (n : Nat) (s : State) : Within 39614081257132168796771975169 (lagTick n s) := by
  unfold lagTick
  repeat' first
    | exact (rfl : (_ : Nat) = _)
    | exact (rfl : (_ : Bool) = _)
    | with_reducible first
      | exact wNil | exact wSeqNil | refine wSeq ?_ (fun _ => ?_) | refine wCons ?_ ?_
      | apply Within.mono (w_suspectShow ..)
    | (simp only [fieldOf]; decide)
    | intro _
    | split
    | extract_lets
    | (refine wRun ?_; split <;> intro _)
    | dsimp only

theorem w_noteLag (times : List (Nat × Nat)) (s : State) : Within 39614081257132168796771975169 (noteLag times s) := by
  unfold noteLag
  repeat' first
    | exact (rfl : (_ : Nat) = _)
    | exact (rfl : (_ : Bool) = _)
    | with_reducible first
      | exact wNil | exact wSeqNil | refine wSeq ?_ (fun _ => ?_) | refine wIf ?_ ?_ | refine wIfAct ?_ ?_ | refine wUpd ?_ | refine wApp ?_ ?_
      | apply Within.mono (w_suspectShow ..)
    | (simp only [fieldOf]; decide)
    | intro _
    | split
    | extract_lets
    | (refine wRun ?_; split <;> intro _)
    | dsimp only

theorem w_shareWrite (p hi v : Nat) (s : State) : Within 1 (shareWrite p hi v s) := by
  unfold shareWrite
  repeat' first
    | exact (rfl : (_ : Nat) = _)
    | exact (rfl : (_ : Bool) = _)
    | with_reducible first
      | exact wNil | refine wIf ?_ ?_ | refine wIfAct ?_ ?_
      | apply Within.mono (w_wr_hi _ _ _ ?_)
    | (simp only [fieldOf]; decide)
    | (show 0x200000200000 ≤ _; (try simp only [FLT_SHARE, FLT_SHARE_LO]); (repeat' split) <;> omega)
    | intro _
    | split
    | extract_lets
    | (refine wRun ?_; split <;> intro _)
    | dsimp only

theorem w_rebalance  (s : State) : Within 1 (rebalance  s) := by
  unfold rebalance
  repeat' first
    | exact (rfl : (_ : Nat) = _)
    | exact (rfl : (_ : Bool) = _)
    | with_reducible first
      | exact wNil | refine wIf ?_ ?_ | refine wIfAct ?_ ?_ | refine wEach (fun _ _ => ?_)
      | apply Within.mono (w_wr64_hi _ _ _ ?_)
    | (simp only [fieldOf]; decide)
    | (show 0x200000200000 ≤ _; (try simp only [FLT_DIE_STAT, FLT_DIE_STAT_SUSPECT, FLT_POL, FLT_POL_REB_EN, FLT_SHARE, FLT_SHARE_LO]); (repeat' split) <;> omega)
    | intro _
    | split
    | extract_lets
    | (refine wRun ?_; split <;> intro _)
    | dsimp only

theorem w_sliceBytes (d c : Nat) (s : State) : Within 34 (sliceBytes d c s) := by
  unfold sliceBytes
  repeat' first
    | exact (rfl : (_ : Nat) = _)
    | exact (rfl : (_ : Bool) = _)
    | with_reducible first
      | exact wNil | refine wEach (fun _ _ => ?_) | refine wFree ?_ (fun _ _ => ?_)
      | apply Within.mono (w_storeBytes ..)
    | (simp only [fieldOf]; decide)
    | intro _
    | split
    | extract_lets
    | (refine wRun ?_; split <;> intro _)
    | dsimp only

theorem w_sliceDrop (d : Nat) (s : State) : Within 39614081257132168796771975168 (sliceDrop d s) := by
  unfold sliceDrop
  repeat' first
    | exact (rfl : (_ : Nat) = _)
    | exact (rfl : (_ : Bool) = _)
    | with_reducible first
      | exact wNil | refine wCons ?_ ?_
    | (simp only [fieldOf]; decide)
    | intro _
    | split
    | extract_lets
    | (refine wRun ?_; split <;> intro _)
    | dsimp only

theorem w_sliceAbandon (d c : Nat) (s : State) : Within 39614081257132168796771975203 (sliceAbandon d c s) := by
  unfold sliceAbandon
  repeat' first
    | exact (rfl : (_ : Nat) = _)
    | exact (rfl : (_ : Bool) = _)
    | with_reducible first
      | exact wNil | exact wSeqNil | refine wSeq ?_ (fun _ => ?_)
      | apply Within.mono (w_incReg_hi _ _ ?_)
      | apply Within.mono (w_sliceBytes ..)
      | apply Within.mono (w_sliceDrop ..)
    | (simp only [fieldOf]; decide)
    | (show 0x200000200000 ≤ _; (try simp only [FLT_ST_ABANDON_CNT]); (repeat' split) <;> omega)
    | intro _
    | split
    | extract_lets
    | (refine wRun ?_; split <;> intro _)
    | dsimp only

theorem w_rebaseTo (to_ : Nat) (s : State) : Within 79266848149715377763989323800 (rebaseTo to_ s) := by
  unfold rebaseTo
  repeat' first
    | exact (rfl : (_ : Nat) = _)
    | exact (rfl : (_ : Bool) = _)
    | with_reducible first
      | exact wNil | exact wSeqNil | refine wSeq ?_ (fun _ => ?_) | refine wUpd ?_ | refine wEach (fun _ _ => ?_)
      | apply Within.mono (w_setAnc ..)
    | (simp only [fieldOf]; decide)
    | intro _
    | split
    | extract_lets
    | (refine wRun ?_; split <;> intro _)
    | dsimp only

theorem w_rebase  (s : State) : Within 79266848149715377763989323800 (rebase  s) := by
  unfold rebase
  repeat' first
    | exact (rfl : (_ : Nat) = _)
    | exact (rfl : (_ : Bool) = _)
    | with_reducible first
      | exact wNil
      | apply Within.mono (w_rebaseTo ..)
    | (simp only [fieldOf]; decide)
    | intro _
    | split
    | extract_lets
    | (refine wRun ?_; split <;> intro _)
    | dsimp only

theorem w_clearTab {T : Nat} {α : Type} {t : List (Nat × α)} {mk : Nat → Upd} {s : State} (h : ∀ k, T.testBit (fieldOf (mk k)) = true) :
    Within T (clearTab t mk s) := wEach (fun _ _ => wUpd (h _))

theorem w_dramLoss  (s : State) : Within 134217730 (dramLoss  s) := by
  unfold dramLoss
  repeat' first
    | exact (rfl : (_ : Nat) = _)
    | exact (rfl : (_ : Bool) = _)
    | with_reducible first
      | exact wNil | exact wSeqNil | refine wSeq ?_ (fun _ => ?_) | refine wUpd ?_
      | apply w_clearTab
    | (simp only [fieldOf]; decide)
    | intro _
    | split
    | extract_lets
    | (refine wRun ?_; split <;> intro _)
    | dsimp only

theorem w_memReset  (s : State) : Within 335544322 (memReset  s) := by
  unfold memReset
  repeat' first
    | exact (rfl : (_ : Nat) = _)
    | exact (rfl : (_ : Bool) = _)
    | with_reducible first
      | exact wNil | exact wSeqNil | refine wSeq ?_ (fun _ => ?_) | refine wUpd ?_
      | apply w_clearTab
    | (simp only [fieldOf]; decide)
    | intro _
    | split
    | extract_lets
    | (refine wRun ?_; split <;> intro _)
    | dsimp only

theorem w_flightReset  (s : State) : Within 604466449637034082656256 (flightReset  s) := by
  unfold flightReset
  repeat' first
    | exact (rfl : (_ : Nat) = _)
    | exact (rfl : (_ : Bool) = _)
    | with_reducible first
      | exact wNil | exact wSeqNil | refine wSeq ?_ (fun _ => ?_) | refine wUpd ?_
      | apply w_clearTab
    | (simp only [fieldOf]; decide)
    | intro _
    | split
    | extract_lets
    | (refine wRun ?_; split <;> intro _)
    | dsimp only

theorem w_computeReset  (s : State) : Within 59440474143545053134926385152 (computeReset  s) := by
  unfold computeReset
  repeat' first
    | exact (rfl : (_ : Nat) = _)
    | exact (rfl : (_ : Bool) = _)
    | with_reducible first
      | exact wNil | exact wSeqNil | refine wSeq ?_ (fun _ => ?_) | refine wUpd ?_
      | apply w_clearTab
    | (simp only [fieldOf]; decide)
    | intro _
    | split
    | extract_lets
    | (refine wRun ?_; split <;> intro _)
    | dsimp only

theorem w_dramReset  (s : State) : Within 4503049871556608 (dramReset  s) := by
  unfold dramReset
  repeat' first
    | exact (rfl : (_ : Nat) = _)
    | exact (rfl : (_ : Bool) = _)
    | with_reducible first
      | exact wNil | exact wSeqNil | refine wSeq ?_ (fun _ => ?_) | refine wUpd ?_
      | apply w_clearTab
    | (simp only [fieldOf]; decide)
    | intro _
    | split
    | extract_lets
    | (refine wRun ?_; split <;> intro _)
    | dsimp only

theorem w_unitsReset  (s : State) : Within 236335540175442528834686912 (unitsReset  s) := by
  unfold unitsReset
  repeat' first
    | exact (rfl : (_ : Nat) = _)
    | exact (rfl : (_ : Bool) = _)
    | with_reducible first
      | exact wNil | exact wSeqNil | refine wSeq ?_ (fun _ => ?_) | refine wUpd ?_
      | apply w_clearTab
    | (simp only [fieldOf]; decide)
    | intro _
    | split
    | extract_lets
    | (refine wRun ?_; split <;> intro _)
    | dsimp only

theorem w_iodClear  (s : State) : Within 59677414150174635748050829250 (iodClear  s) := by
  unfold iodClear
  repeat' first
    | exact (rfl : (_ : Nat) = _)
    | exact (rfl : (_ : Bool) = _)
    | with_reducible first
      | exact wNil | exact wSeqNil | refine wSeq ?_ (fun _ => ?_)
      | apply Within.mono (w_computeReset ..)
      | apply Within.mono (w_dramReset ..)
      | apply Within.mono (w_flightReset ..)
      | apply Within.mono (w_memReset ..)
      | apply Within.mono (w_unitsReset ..)
    | (simp only [fieldOf]; decide)
    | intro _
    | split
    | extract_lets
    | (refine wRun ?_; split <;> intro _)
    | dsimp only

theorem w_ioResetKeep (keep : Nat → Bool) (s : State) : Within 228037259492986353134331723715 (ioResetKeep keep s) := by
  unfold ioResetKeep
  repeat' first
    | exact (rfl : (_ : Nat) = _)
    | exact (rfl : (_ : Bool) = _)
    | with_reducible first
      | exact wNil | exact wSeqNil | refine wSeq ?_ (fun _ => ?_) | refine wCons ?_ ?_
      | apply Within.mono (w_iodClear ..)
      | apply Within.mono (w_resetRegs_any ..)
    | (simp only [fieldOf]; decide)
    | (show 0x200000200000 ≤ _; (repeat' split) <;> omega)
    | intro _
    | split
    | extract_lets
    | (refine wRun ?_; split <;> intro _)
    | dsimp only

theorem w_ioReset  (s : State) : Within 228037259492986353134331723715 (ioReset  s) := by
  unfold ioReset
  repeat' first
    | exact (rfl : (_ : Nat) = _)
    | exact (rfl : (_ : Bool) = _)
    | with_reducible first
      | exact wNil
      | apply Within.mono (w_ioResetKeep ..)
    | (simp only [fieldOf]; decide)
    | intro _
    | split
    | extract_lets
    | (refine wRun ?_; split <;> intro _)
    | dsimp only

theorem w_ioResetPads  (s : State) : Within 228037259492986353134331723715 (ioResetPads  s) := by
  unfold ioResetPads
  repeat' first
    | exact (rfl : (_ : Nat) = _)
    | exact (rfl : (_ : Bool) = _)
    | with_reducible first
      | exact wNil
      | apply Within.mono (w_ioResetKeep ..)
    | (simp only [fieldOf]; decide)
    | intro _
    | split
    | extract_lets
    | (refine wRun ?_; split <;> intro _)
    | dsimp only

theorem w_slotAccept (x n : Nat) (s : State) : Within 4951760166364893136451272705 (slotAccept x n s) := by
  unfold slotAccept
  repeat' first
    | exact (rfl : (_ : Nat) = _)
    | exact (rfl : (_ : Bool) = _)
    | with_reducible first
      | exact wNil | exact wSeqNil | refine wSeq ?_ (fun _ => ?_) | refine wUpd ?_
      | apply Within.mono (w_setAnc ..)
      | apply Within.mono (w_setF_hi _ _ _ ?_)
    | (simp only [fieldOf]; decide)
    | (show 0x200000200000 ≤ _; (try simp only [SEC_BOOT, SEC_BOOT_CODE, ancBase]); (repeat' split) <;> omega)
    | intro _
    | split
    | extract_lets
    | (refine wRun ?_; split <;> intro _)
    | dsimp only

theorem w_bootTry (x fuel : Nat) (s : State) : Within 6189700205650273411350396933 (bootTry x fuel s) := by
  induction fuel generalizing s with
  | zero => exact wNil
  | succ fuel ih =>
    unfold bootTry
    repeat' first
      | exact (rfl : (_ : Nat) = _)
      | exact (rfl : (_ : Bool) = _)
      | with_reducible first
        | exact wNil | exact wNop | exact wSeqNil | refine wSeq ?_ (fun _ => ?_) | refine wWhen ?_ | refine wIf ?_ ?_ | refine wIfAct ?_ ?_ | refine wUpd ?_ | refine wCons ?_ ?_ | refine wApp ?_ ?_ | refine wEach (fun _ _ => ?_) | refine wFree ?_ (fun _ _ => ?_)
        | exact ih _
        | apply Within.mono (w_ancLog ..)
        | apply Within.mono (w_incReg_hi _ _ ?_)
        | apply Within.mono (w_setF_hi _ _ _ ?_)
        | apply Within.mono (w_slotAccept ..)
        | apply Within.mono (w_topoErr ..)
      | (simp only [fieldOf]; decide)
      | (show 0x200000200000 ≤ _; (try simp only [ANC_STAT, ANC_STAT_STATE, SEC_BOOT, SEC_BOOT_CODE, SEC_BOOT_SLOT, TOPO_REJ_CNT, ancBase]); (repeat' split) <;> omega)
      | intro _
      | split
      | extract_lets
      | (refine wRun ?_; split <;> intro _)
      | dsimp only

theorem w_bootHold (code : Nat) (s : State) : Within 9903520314283042199192993793 (bootHold code s) := by
  unfold bootHold
  repeat' first
    | exact (rfl : (_ : Nat) = _)
    | exact (rfl : (_ : Bool) = _)
    | with_reducible first
      | exact wNil | exact wSeqNil | refine wSeq ?_ (fun _ => ?_) | refine wCons ?_ ?_ | refine wEach (fun _ _ => ?_)
      | apply Within.mono (w_setF_hi _ _ _ ?_)
    | (simp only [fieldOf]; decide)
    | (show 0x200000200000 ≤ _; (try simp only [ANC_STAT, ANC_STAT_STATE, SEC_BOOT, SEC_BOOT_CODE, ancBase]); (repeat' split) <;> omega)
    | intro _
    | split
    | extract_lets
    | (refine wRun ?_; split <;> intro _)
    | dsimp only

theorem w_stage1 (again : Bool) (s : State) : Within 94122128621139941062778945561 (stage1 again s) := by
  unfold stage1
  repeat' first
    | exact (rfl : (_ : Nat) = _)
    | exact (rfl : (_ : Bool) = _)
    | with_reducible first
      | exact wNil | exact wSeqNil | refine wSeq ?_ (fun _ => ?_) | refine wIf ?_ ?_ | refine wIfAct ?_ ?_ | refine wCons ?_ ?_ | refine wEach (fun _ _ => ?_)
      | apply Within.mono (w_bootHold ..)
      | apply Within.mono (w_portStart ..)
      | apply Within.mono (w_rebase ..)
      | apply Within.mono (w_supplyShow ..)
    | (simp only [fieldOf]; decide)
    | intro _
    | split
    | extract_lets
    | (refine wRun ?_; split <;> intro _)
    | dsimp only

theorem w_agree (fuel : Nat) (s : State) : Within 95360068660425321337678069789 (agree fuel s) := by
  induction fuel generalizing s with
  | zero => exact wNil
  | succ fuel ih =>
    unfold agree
    repeat' first
      | exact (rfl : (_ : Nat) = _)
      | exact (rfl : (_ : Bool) = _)
      | with_reducible first
        | exact wNil | exact wNop | exact wSeqNil | refine wSeq ?_ (fun _ => ?_) | refine wWhen ?_ | refine wIf ?_ ?_ | refine wIfAct ?_ ?_ | refine wUpd ?_ | refine wCons ?_ ?_ | refine wApp ?_ ?_ | refine wEach (fun _ _ => ?_) | refine wFree ?_ (fun _ _ => ?_)
        | exact ih _
        | apply Within.mono (w_bootTry ..)
        | apply Within.mono (w_setAnc ..)
        | apply Within.mono (w_setF_hi _ _ _ ?_)
        | apply Within.mono (w_stage1 ..)
      | (simp only [fieldOf]; decide)
      | (show 0x200000200000 ≤ _; (try simp only [ANC_STAT, ANC_STAT_STATE, SEC_BOOT, SEC_BOOT_CODE, ancBase]); (repeat' split) <;> omega)
      | intro _
      | split
      | extract_lets
      | (refine wRun ?_; split <;> intro _)
      | dsimp only

theorem w_bootRaise (x : Nat) (s : State) : Within 2475880078570760549798248449 (bootRaise x s) := by
  unfold bootRaise
  repeat' first
    | exact (rfl : (_ : Nat) = _)
    | exact (rfl : (_ : Bool) = _)
    | with_reducible first
      | exact wNil | refine wIf ?_ ?_ | refine wIfAct ?_ ?_
      | apply Within.mono (w_storeWrite ..)
    | (simp only [fieldOf]; decide)
    | intro _
    | split
    | extract_lets
    | (refine wRun ?_; split <;> intro _)
    | dsimp only

theorem w_deviceKey (wrapped idBad : Bool) (s : State) : Within 1 (deviceKey wrapped idBad s) := by
  unfold deviceKey
  repeat' first
    | exact (rfl : (_ : Nat) = _)
    | exact (rfl : (_ : Bool) = _)
    | with_reducible first
      | exact wNil | exact wSeqNil | refine wSeq ?_ (fun _ => ?_) | refine wIf ?_ ?_ | refine wIfAct ?_ ?_
      | apply Within.mono (w_setF_hi _ _ _ ?_)
      | apply Within.mono (w_wr64_hi _ _ _ ?_)
    | (simp only [fieldOf]; decide)
    | (show 0x200000200000 ≤ _; (try simp only [SEC_BOOT, SEC_BOOT_ID_BAD, SEC_BOOT_UNWRAPPED, SEC_DEVID, SEC_DEVID_LO, ancBase]); (repeat' split) <;> omega)
    | intro _
    | split
    | extract_lets
    | (refine wRun ?_; split <;> intro _)
    | dsimp only

theorem w_ancPowerLoss (x : Nat) (s : State) : Within 272361315761842408064758579205 (ancPowerLoss x s) := by
  unfold ancPowerLoss
  refine wSeq (Within.mono (w_ancReset ..) rfl) (fun _ => wSeq (wEach (fun _ _ => wUpd ?_)) (fun _ => wSeq
    (wEach (fun _ _ => wUpd ?_)) (fun _ => wSeq (wUpd ?_) (fun _ => wSeq (wUpd ?_) (fun _ => wSeq (wWhen (wUpd ?_)) (fun _ => wSeqNil))))))
  all_goals simp only [fieldOf]
  all_goals (try split) <;> decide

theorem w_quoteGo  (s : State) : Within 9903520314283042199192993793 (quoteGo  s) := by
  unfold quoteGo
  repeat' first
    | exact (rfl : (_ : Nat) = _)
    | exact (rfl : (_ : Bool) = _)
    | with_reducible first
      | exact wNil | exact wSeqNil | refine wSeq ?_ (fun _ => ?_) | refine wIf ?_ ?_ | refine wIfAct ?_ ?_ | refine wUpd ?_
      | apply Within.mono (w_setF_hi _ _ _ ?_)
    | (simp only [fieldOf]; decide)
    | (show 0x200000200000 ≤ _; (try simp only [SEC_BOOT, SEC_BOOT_ID_BAD, SEC_Q_DST, SEC_Q_DST_LO, SEC_Q_NONCE, SEC_Q_STAT, SEC_Q_STAT_CODE, SEC_Q_STAT_IGN, SEC_Q_STAT_STATE, ancBase]); (repeat' split) <;> omega)
    | intro _
    | split
    | extract_lets
    | (refine wRun ?_; split <;> intro _)
    | dsimp only

theorem w_pcieOutbound (op : ReqOp) (r : Req) (s : State) : Within 1170935903116337152 (pcieOutbound op r s) := by
  unfold pcieOutbound
  repeat' first
    | exact (rfl : (_ : Nat) = _)
    | exact (rfl : (_ : Bool) = _)
    | with_reducible first
      | exact wNil | exact wSeqNil | refine wSeq ?_ (fun _ => ?_) | refine wIf ?_ ?_ | refine wIfAct ?_ ?_ | refine wCons ?_ ?_ | refine wApp ?_ ?_
      | apply Within.mono (w_emit ..)
      | apply Within.mono (w_respond ..)
    | (simp only [fieldOf]; decide)
    | intro _
    | split
    | extract_lets
    | (refine wRun ?_; split <;> intro _)
    | dsimp only

theorem w_pcieEndRead (src : Master) (tag status : Nat) (data : List Byte) (s : State) : Within 1152921504606855168 (pcieEndRead src tag status data s) := by
  unfold pcieEndRead
  repeat' first
    | exact (rfl : (_ : Nat) = _)
    | exact (rfl : (_ : Bool) = _)
    | with_reducible first
      | exact wNil | exact wSeqNil | refine wSeq ?_ (fun _ => ?_) | refine wCons ?_ ?_
      | apply Within.mono (w_respond ..)
    | (simp only [fieldOf]; decide)
    | intro _
    | split
    | extract_lets
    | (refine wRun ?_; split <;> intro _)
    | dsimp only

theorem w_pcieCfgWrite (v : Nat) (s : State) : Within 18014398509481985 (pcieCfgWrite v s) := by
  unfold pcieCfgWrite
  repeat' first
    | exact (rfl : (_ : Nat) = _)
    | exact (rfl : (_ : Bool) = _)
    | with_reducible first
      | exact wNil | exact wSeqNil | refine wSeq ?_ (fun _ => ?_) | refine wIf ?_ ?_ | refine wIfAct ?_ ?_
      | apply Within.mono (w_emit ..)
      | apply Within.mono (w_setF_hi _ _ _ ?_)
      | apply Within.mono (w_wr_hi _ _ _ ?_)
    | (simp only [fieldOf]; decide)
    | (show 0x200000200000 ≤ _; (try simp only [PCIE_CFG_ADDR, PCIE_CFG_DATA, PCIE_CFG_STAT, PCIE_CFG_STAT_BUSY]); (repeat' split) <;> omega)
    | intro _
    | split
    | extract_lets
    | (refine wRun ?_; split <;> intro _)
    | dsimp only

theorem w_pcieCfgRead (m : Master) (s : State) : Within 2359886204742139905 (pcieCfgRead m s) := by
  unfold pcieCfgRead
  repeat' first
    | exact (rfl : (_ : Nat) = _)
    | exact (rfl : (_ : Bool) = _)
    | with_reducible first
      | exact wNil | exact wSeqNil | refine wSeq ?_ (fun _ => ?_) | refine wIf ?_ ?_ | refine wIfAct ?_ ?_ | refine wUpd ?_
      | apply Within.mono (w_emit ..)
      | apply Within.mono (w_returnRead ..)
      | apply Within.mono (w_setF_hi _ _ _ ?_)
    | (simp only [fieldOf]; decide)
    | (show 0x200000200000 ≤ _; (try simp only [PCIE_CFG_ADDR, PCIE_CFG_DATA, PCIE_CFG_STAT, PCIE_CFG_STAT_BUSY]); (repeat' split) <;> omega)
    | intro _
    | split
    | extract_lets
    | (refine wRun ?_; split <;> intro _)
    | dsimp only

theorem w_msixRaise (v : Nat) (enabled : Bool) (s : State) : Within 4629700416936869888 (msixRaise v enabled s) := by
  unfold msixRaise
  repeat' first
    | exact (rfl : (_ : Nat) = _)
    | exact (rfl : (_ : Bool) = _)
    | with_reducible first
      | exact wNil | refine wIf ?_ ?_ | refine wIfAct ?_ ?_ | refine wCons ?_ ?_
      | apply Within.mono (w_emit ..)
    | (simp only [fieldOf]; decide)
    | intro _
    | split
    | extract_lets
    | (refine wRun ?_; split <;> intro _)
    | dsimp only

theorem w_msixTableWrite (i v : Nat) (s : State) : Within 4629700416936869888 (msixTableWrite i v s) := by
  unfold msixTableWrite
  repeat' first
    | exact (rfl : (_ : Nat) = _)
    | exact (rfl : (_ : Bool) = _)
    | with_reducible first
      | exact wNil | exact wSeqNil | refine wSeq ?_ (fun _ => ?_) | refine wIf ?_ ?_ | refine wIfAct ?_ ?_ | refine wUpd ?_
      | apply Within.mono (w_emit ..)
    | (simp only [fieldOf]; decide)
    | intro _
    | split
    | extract_lets
    | (refine wRun ?_; split <;> intro _)
    | dsimp only

theorem w_pcieEnable (v : Bool) (s : State) : Within 1 (pcieEnable v s) := by
  unfold pcieEnable
  repeat' first
    | exact (rfl : (_ : Nat) = _)
    | exact (rfl : (_ : Bool) = _)
    | with_reducible first
      | exact wNil
      | apply Within.mono (w_writeEnable _ _ _ _ ?_ ?_)
    | (simp only [fieldOf]; decide)
    | (show 0x200000200000 ≤ _; (try simp only [PCIE_CTL, PCIE_CTL_EN, PCIE_STAT, PCIE_STAT_STATE]); (repeat' split) <;> omega)
    | intro _
    | split
    | extract_lets
    | (refine wRun ?_; split <;> intro _)
    | dsimp only

theorem w_pcieDrainEnd  (s : State) : Within 1152921504606855169 (pcieDrainEnd  s) := by
  unfold pcieDrainEnd
  repeat' first
    | exact (rfl : (_ : Nat) = _)
    | exact (rfl : (_ : Bool) = _)
    | with_reducible first
      | exact wNil | exact wSeqNil | refine wSeq ?_ (fun _ => ?_) | refine wUpd ?_ | refine wEach (fun _ _ => ?_)
      | apply Within.mono (w_endDrain _ _ _ ?_)
      | apply Within.mono (w_respond ..)
    | (simp only [fieldOf]; decide)
    | (show 0x200000200000 ≤ _; (try simp only [PCIE_CTL, PCIE_CTL_EN, PCIE_STAT, PCIE_STAT_STATE]); (repeat' split) <;> omega)
    | intro _
    | split
    | extract_lets
    | (refine wRun ?_; split <;> intro _)
    | dsimp only

theorem w_regRefuse (src : Master) (a : Nat) (write : Option Nat) (s : State) : Within 3221225477 (regRefuse src a write s) := by
  unfold regRefuse
  repeat' first
    | exact (rfl : (_ : Nat) = _)
    | exact (rfl : (_ : Bool) = _)
    | with_reducible first
      | exact wNil | exact wNop | exact wSeqNil | refine wSeq ?_ (fun _ => ?_) | refine wWhen ?_ | refine wIf ?_ ?_ | refine wIfAct ?_ ?_ | refine wApp ?_ ?_
      | apply Within.mono (w_ancLog ..)
      | apply Within.mono (w_recordRefusal ..)
    | (simp only [fieldOf]; decide)
    | intro _
    | split
    | extract_lets
    | (refine wRun ?_; split <;> intro _)
    | dsimp only

theorem w_plainWrite (a v : Nat) (s : State) : Within 158456325028528675187087900673 (plainWrite a v s) := by
  unfold plainWrite
  repeat' first
    | exact (rfl : (_ : Nat) = _)
    | exact (rfl : (_ : Bool) = _)
    | with_reducible first
      | exact wNil
      | apply Within.mono (w_wr ..)
    | (simp only [fieldOf]; decide)
    | (show 0x200000200000 ≤ _; (repeat' split) <;> omega)
    | intro _
    | split
    | extract_lets
    | (refine wRun ?_; split <;> intro _)
    | dsimp only

theorem w_shadowWrite (a v : Nat) (s : State) : Within 158456400586392401101411319809 (shadowWrite a v s) := by
  unfold shadowWrite
  repeat' first
    | exact (rfl : (_ : Nat) = _)
    | exact (rfl : (_ : Bool) = _)
    | with_reducible first
      | exact wNil | refine wIf ?_ ?_ | refine wIfAct ?_ ?_ | refine wCons ?_ ?_
      | apply Within.mono (w_plainWrite ..)
    | (simp only [fieldOf]; decide)
    | intro _
    | split
    | extract_lets
    | (refine wRun ?_; split <;> intro _)
    | dsimp only

theorem w_trimWrite (v : Nat) (s : State) : Within 158456325028528675187087900673 (trimWrite v s) := by
  unfold trimWrite
  repeat' first
    | exact (rfl : (_ : Nat) = _)
    | exact (rfl : (_ : Bool) = _)
    | with_reducible first
      | exact wNil
      | apply Within.mono (w_wr ..)
    | (simp only [fieldOf]; decide)
    | (show 0x200000200000 ≤ _; (try simp only [PCH_TRIM, PCH_TRIM_LIM, PCH_TRIM_LIM_LIM_PPM]); (repeat' split) <;> omega)
    | intro _
    | split
    | extract_lets
    | (refine wRun ?_; split <;> intro _)
    | dsimp only

theorem w_timeWrite (hi : Bool) (v : Nat) (s : State) : Within 237723173178244052951077224473 (timeWrite hi v s) := by
  unfold timeWrite
  repeat' first
    | exact (rfl : (_ : Nat) = _)
    | exact (rfl : (_ : Bool) = _)
    | with_reducible first
      | exact wNil | exact wSeqNil | refine wSeq ?_ (fun _ => ?_) | refine wIf ?_ ?_ | refine wIfAct ?_ ?_
      | apply Within.mono (w_rebaseTo ..)
      | apply Within.mono (w_wr ..)
    | (simp only [fieldOf]; decide)
    | (show 0x200000200000 ≤ _; (try simp only [PCH_CFG, PCH_CFG_RUN, PCH_TIME_HI]); (repeat' split) <;> omega)
    | intro _
    | split
    | extract_lets
    | (refine wRun ?_; split <;> intro _)
    | dsimp only

theorem w_readEffect (m : Master) (a : Nat) (s : State) : Within 2359886204742139969 (readEffect m a s) := by
  unfold readEffect
  repeat' first
    | exact (rfl : (_ : Nat) = _)
    | exact (rfl : (_ : Bool) = _)
    | with_reducible first
      | exact wNil | refine wIf ?_ ?_ | refine wIfAct ?_ ?_ | refine wCons ?_ ?_
      | apply Within.mono (w_icuClaim ..)
      | apply Within.mono (w_pcieCfgRead ..)
    | (simp only [fieldOf]; decide)
    | intro _
    | split
    | extract_lets
    | (refine wRun ?_; split <;> intro _)
    | dsimp only

theorem w_regRead (r : Req) (s : State) : Within 3512807712570220613 (regRead r s) := by
  unfold regRead
  repeat' first
    | exact (rfl : (_ : Nat) = _)
    | exact (rfl : (_ : Bool) = _)
    | with_reducible first
      | exact wNil | exact wSeqNil | refine wSeq ?_ (fun _ => ?_) | refine wIf ?_ ?_ | refine wIfAct ?_ ?_ | refine wUpd ?_ | refine wCons ?_ ?_ | refine wApp ?_ ?_
      | apply Within.mono (w_readEffect ..)
      | apply Within.mono (w_regRefuse ..)
      | apply Within.mono (w_respond ..)
      | apply Within.mono (w_returnRead ..)
    | (simp only [fieldOf]; decide)
    | intro _
    | split
    | extract_lets
    | (refine wRun ?_; split <;> intro _)
    | dsimp only

theorem w_refuseReq (op : ReqOp) (r : Req) (s : State) : Within 3221233664 (refuseReq op r s) := by
  unfold refuseReq
  repeat' first
    | exact (rfl : (_ : Nat) = _)
    | exact (rfl : (_ : Bool) = _)
    | with_reducible first
      | exact wNil | exact wSeqNil | refine wSeq ?_ (fun _ => ?_) | refine wIf ?_ ?_ | refine wIfAct ?_ ?_
      | apply Within.mono (w_recordRefusal ..)
      | apply Within.mono (w_respond ..)
    | (simp only [fieldOf]; decide)
    | intro _
    | split
    | extract_lets
    | (refine wRun ?_; split <;> intro _)
    | dsimp only

theorem w_peerSend (op : ReqOp) (r : Req) (s : State) : Within 18014401730715648 (peerSend op r s) := by
  unfold peerSend
  repeat' first
    | exact (rfl : (_ : Nat) = _)
    | exact (rfl : (_ : Bool) = _)
    | with_reducible first
      | exact wNil | refine wIf ?_ ?_ | refine wIfAct ?_ ?_
      | apply Within.mono (w_emit ..)
      | apply Within.mono (w_refuseReq ..)
      | apply Within.mono (w_respond ..)
    | (simp only [fieldOf]; decide)
    | intro _
    | split
    | extract_lets
    | (refine wRun ?_; split <;> intro _)
    | dsimp only

theorem w_deliverResp (q : Resp) (s : State) : Within 63063730067095555 (deliverResp q s) := by
  unfold deliverResp
  repeat' first
    | exact (rfl : (_ : Nat) = _)
    | exact (rfl : (_ : Bool) = _)
    | with_reducible first
      | exact wNil | exact wNop | exact wSeqNil | refine wSeq ?_ (fun _ => ?_) | refine wWhen ?_
      | apply Within.mono (w_emit ..)
      | apply Within.mono (w_endTxn ..)
      | apply Within.mono (w_regLeave ..)
      | apply Within.mono (w_returnRead ..)
    | (simp only [fieldOf]; decide)
    | intro _
    | split
    | extract_lets
    | (refine wRun ?_; split <;> intro _)
    | dsimp only

theorem w_outsideResp (src : Master) (tag status : Nat) (data : List Byte) (s : State) : Within 1215985234673942531 (outsideResp src tag status data s) := by
  unfold outsideResp
  repeat' first
    | exact (rfl : (_ : Nat) = _)
    | exact (rfl : (_ : Bool) = _)
    | with_reducible first
      | exact wNil | exact wSeqNil | refine wSeq ?_ (fun _ => ?_) | refine wUpd ?_
      | apply Within.mono (w_deliverResp ..)
    | (simp only [fieldOf]; decide)
    | intro _
    | split
    | extract_lets
    | (refine wRun ?_; split <;> intro _)
    | dsimp only

theorem w_pcieUnsupported (write : Bool) (tag : Nat) (s : State) : Within 18014398509481985 (pcieUnsupported write tag s) := by
  unfold pcieUnsupported
  repeat' first
    | exact (rfl : (_ : Nat) = _)
    | exact (rfl : (_ : Bool) = _)
    | with_reducible first
      | exact wNil | exact wSeqNil | refine wSeq ?_ (fun _ => ?_) | refine wWhen ?_
      | apply Within.mono (w_emit ..)
      | apply Within.mono (w_incReg_hi _ _ ?_)
    | (simp only [fieldOf]; decide)
    | (show 0x200000200000 ≤ _; (try simp only [PCIE_ERR_CNT]); (repeat' split) <;> omega)
    | intro _
    | split
    | extract_lets
    | (refine wRun ?_; split <;> intro _)
    | dsimp only

theorem w_pcieMsix (write : Bool) (o len : Nat) (data : List Byte) (tag : Nat) (s : State) : Within 4629700416936869888 (pcieMsix write o len data tag s) := by
  unfold pcieMsix
  repeat' first
    | exact (rfl : (_ : Nat) = _)
    | exact (rfl : (_ : Bool) = _)
    | with_reducible first
      | exact wNil | refine wIf ?_ ?_ | refine wIfAct ?_ ?_ | refine wEach (fun _ _ => ?_)
      | apply Within.mono (w_emit ..)
      | apply Within.mono (w_msixTableWrite ..)
    | (simp only [fieldOf]; decide)
    | intro _
    | split
    | extract_lets
    | (refine wRun ?_; split <;> intro _)
    | dsimp only

theorem w_drainEnd (b : Block) (s : State) : Within 1 (drainEnd b s) := by
  cases b
  all_goals unfold drainEnd
  repeat' first
    | exact (rfl : (_ : Nat) = _)
    | exact (rfl : (_ : Bool) = _)
    | with_reducible first
      | exact wNil | exact wNop | exact wSeqNil | refine wSeq ?_ (fun _ => ?_) | refine wWhen ?_ | refine wIf ?_ ?_ | refine wIfAct ?_ ?_ | refine wUpd ?_ | refine wCons ?_ ?_ | refine wApp ?_ ?_ | refine wEach (fun _ _ => ?_) | refine wFree ?_ (fun _ _ => ?_)
      | apply Within.mono (w_endDrain _ _ _ ?_)
      | apply Within.mono (w_setF_hi _ _ _ ?_)
    | (simp only [fieldOf]; decide)
    | (show 0x200000200000 ≤ _; (try simp only [BOX_CTL, BOX_CTL_EN, BOX_STAT, BOX_STAT_STATE, CAN_CTL, CAN_CTL_EN, CAN_STAT, CAN_STAT_STATE, DMA_CH_CTL, DMA_CH_CTL_EN, DMA_CH_STAT, DMA_CH_STAT_STATE, ETH_CTL, ETH_CTL_EN, ETH_STAT, ETH_STAT_STATE, FUS_STAT, FUS_STAT_STATE, ING_CTX_STAT, ING_CTX_STAT_STATE, KVC_CTL, KVC_CTL_EN, KVC_STAT, KVC_STAT_STATE, PCIE_CTL, PCIE_CTL_EN, PCIE_STAT, PCIE_STAT_STATE, RPL_CTL, RPL_CTL_EN, RPL_STAT, RPL_STAT_STATE, TRV_CTL, TRV_CTL_EN, TRV_STAT, TRV_STAT_STATE, dmaBase, rplBase]); (repeat' split) <;> omega)
    | intro _
    | split
    | extract_lets
    | (refine wRun ?_; split <;> intro _)
    | dsimp only

theorem w_drainAbort (b : Block) (s : State) : Within 775650928610051031048195 (drainAbort b s) := by
  cases b
  all_goals unfold drainAbort
  repeat' first
    | exact (rfl : (_ : Nat) = _)
    | exact (rfl : (_ : Bool) = _)
    | with_reducible first
      | exact wNil | exact wNop | exact wSeqNil | refine wSeq ?_ (fun _ => ?_) | refine wWhen ?_ | refine wIf ?_ ?_ | refine wIfAct ?_ ?_ | refine wUpd ?_ | refine wCons ?_ ?_ | refine wApp ?_ ?_ | refine wEach (fun _ _ => ?_) | refine wFree ?_ (fun _ _ => ?_)
      | apply Within.mono (w_boxDrainTimeout ..)
      | apply Within.mono (w_canDrainTimeout ..)
      | apply Within.mono (w_ctxDrainEnd ..)
      | apply Within.mono (w_dmaDrainTimeout ..)
      | apply Within.mono (w_endDrain _ _ _ ?_)
      | apply Within.mono (w_ethDrainTimeout ..)
      | apply Within.mono (w_fusDrainTimeout ..)
      | apply Within.mono (w_kvDrainTimeout ..)
      | apply Within.mono (w_pcieDrainEnd ..)
      | apply Within.mono (w_trvDrainTimeout ..)
    | (simp only [fieldOf]; decide)
    | (show 0x200000200000 ≤ _; (try simp only [RPL_CTL, RPL_CTL_EN, RPL_STAT, RPL_STAT_STATE, rplBase]); (repeat' split) <;> omega)
    | intro _
    | split
    | extract_lets
    | (refine wRun ?_; split <;> intro _)
    | dsimp only

end Sys2Proof.Laws
end

