-- ==== Sys2Proof/Laws/WritesMachine.lean ====
section
/-! SUPPORT. Which fields the shared operations can write: channels, DRAM, resets, the loader, faults and the tick. The number after `Within` has a bit
for each field (`fieldOf`). -/
namespace Sys2Proof.Laws
open Sys2Proof.Machine

set_option linter.unusedTactic false
set_option linter.unreachableTactic false
set_option linter.unusedSimpArgs false
set_option linter.unnecessarySeqFocus false

theorem w_prompt  (s : State) : Within 18014398509481984 (prompt  s) := by
  unfold prompt
  repeat' first
    | exact (rfl : (_ : Nat) = _)
    | exact (rfl : (_ : Bool) = _)
    | with_reducible first
      | exact wNil | refine wApp ?_ ?_ | refine wEach (fun _ _ => ?_)
      | apply Within.mono (w_emit ..)
    | (simp only [fieldOf]; decide)
    | intro _
    | split
    | extract_lets
    | (refine wRun ?_; split <;> intro _)
    | dsimp only

theorem w_monReply (code : Nat) (vals : List Nat) (s : State) : Within 18014398509481985 (monReply code vals s) := by
  unfold monReply
  repeat' first
    | exact (rfl : (_ : Nat) = _)
    | exact (rfl : (_ : Bool) = _)
    | with_reducible first
      | exact wNil | exact wSeqNil | refine wSeq ?_ (fun _ => ?_) | refine wIf ?_ ?_ | refine wIfAct ?_ ?_
      | apply Within.mono (w_emit ..)
      | apply Within.mono (w_incReg_hi _ _ ?_)
      | apply Within.mono (w_prompt ..)
    | (simp only [fieldOf]; decide)
    | (show 0x200000200000 ≤ _; (try simp only [CRN_CMD_CNT, CRN_ERR_CNT, ancBase]); (repeat' split) <;> omega)
    | intro _
    | split
    | extract_lets
    | (refine wRun ?_; split <;> intro _)
    | dsimp only

theorem w_monSettle  (s : State) : Within 79228162514282351992053432321 (monSettle  s) := by
  unfold monSettle
  repeat' first
    | exact (rfl : (_ : Nat) = _)
    | exact (rfl : (_ : Bool) = _)
    | with_reducible first
      | exact wNil | exact wNop | exact wSeqNil | refine wSeq ?_ (fun _ => ?_) | refine wUpd ?_ | refine wEach (fun _ _ => ?_)
      | apply Within.mono (w_monReply ..)
    | (simp only [fieldOf]; decide)
    | intro _
    | split
    | extract_lets
    | (refine wRun ?_; split <;> intro _)
    | dsimp only

theorem w_uartChar (c : Nat) (s : State) : Within 79228162514282351992053432321 (uartChar c s) := by
  unfold uartChar
  repeat' first
    | exact (rfl : (_ : Nat) = _)
    | exact (rfl : (_ : Bool) = _)
    | with_reducible first
      | exact wNil | exact wSeqNil | refine wSeq ?_ (fun _ => ?_) | refine wIf ?_ ?_ | refine wIfAct ?_ ?_ | refine wUpd ?_ | refine wCons ?_ ?_ | refine wApp ?_ ?_
      | apply Within.mono (w_emit ..)
      | apply Within.mono (w_monSettle ..)
    | (simp only [fieldOf]; decide)
    | intro _
    | split
    | extract_lets
    | (refine wRun ?_; split <;> intro _)
    | dsimp only

theorem w_monEvent (data : List Byte) (s : State) : Within 5 (monEvent data s) := by
  unfold monEvent
  repeat' first
    | exact (rfl : (_ : Nat) = _)
    | exact (rfl : (_ : Bool) = _)
    | with_reducible first
      | exact wNil | refine wIf ?_ ?_ | refine wIfAct ?_ ?_ | refine wEach (fun _ _ => ?_)
      | apply Within.mono (w_ancLog ..)
    | (simp only [fieldOf]; decide)
    | intro _
    | split
    | extract_lets
    | (refine wRun ?_; split <;> intro _)
    | dsimp only

theorem w_cmdEvent (what : Nat) (six : List Byte) (v : Nat) (s : State) : Within 5 (cmdEvent what six v s) := by
  unfold cmdEvent
  repeat' first
    | exact (rfl : (_ : Nat) = _)
    | exact (rfl : (_ : Bool) = _)
    | with_reducible first
      | exact wNil | refine wApp ?_ ?_
      | apply Within.mono (w_monEvent ..)
    | (simp only [fieldOf]; decide)
    | intro _
    | split
    | extract_lets
    | (refine wRun ?_; split <;> intro _)
    | dsimp only

theorem w_traceEnd  (s : State) : Within 9671406556917033397649409 (traceEnd  s) := by
  unfold traceEnd
  repeat' first
    | exact (rfl : (_ : Nat) = _)
    | exact (rfl : (_ : Bool) = _)
    | with_reducible first
      | exact wNil | exact wSeqNil | refine wSeq ?_ (fun _ => ?_) | refine wIf ?_ ?_ | refine wIfAct ?_ ?_ | refine wUpd ?_
      | apply Within.mono (w_setF_hi _ _ _ ?_)
    | (simp only [fieldOf]; decide)
    | (show 0x200000200000 ≤ _; (try simp only [CRN_STAT, CRN_STAT_TRACE, ancBase]); (repeat' split) <;> omega)
    | intro _
    | split
    | extract_lets
    | (refine wRun ?_; split <;> intro _)
    | dsimp only

theorem w_levelFall (how : Nat) (s : State) : Within 79237833920821254626941599749 (levelFall how s) := by
  unfold levelFall
  repeat' first
    | exact (rfl : (_ : Nat) = _)
    | exact (rfl : (_ : Bool) = _)
    | with_reducible first
      | exact wNil | exact wSeqNil | refine wSeq ?_ (fun _ => ?_) | refine wWhen ?_ | refine wUpd ?_ | refine wApp ?_ ?_
      | apply Within.mono (w_monEvent ..)
      | apply Within.mono (w_setF_hi _ _ _ ?_)
      | apply Within.mono (w_traceEnd ..)
    | (simp only [fieldOf]; decide)
    | (show 0x200000200000 ≤ _; (try simp only [SEC_BOOT, SEC_BOOT_DEBUG, ancBase]); (repeat' split) <;> omega)
    | intro _
    | split
    | extract_lets
    | (refine wRun ?_; split <;> intro _)
    | dsimp only

theorem w_ovrRecord (ps : List Nat) (count pitch : Nat) (s : State) : Within 158456325028528675187087900673 (ovrRecord ps count pitch s) := by
  unfold ovrRecord
  repeat' first
    | exact (rfl : (_ : Nat) = _)
    | exact (rfl : (_ : Bool) = _)
    | with_reducible first
      | exact wNil | exact wSeqNil | refine wSeq ?_ (fun _ => ?_) | refine wCons ?_ ?_
      | apply Within.mono (w_addReg ..)
      | apply Within.mono (w_icuPend ..)
      | apply Within.mono (w_setF ..)
    | (simp only [fieldOf]; decide)
    | (show 0x200000200000 ≤ _; (try simp only [PCH_OVR, PCH_OVR_CNT, PCH_OVR_LAST, PCH_OVR_LAST_PART, PCH_OVR_LAST_PITCH, PCH_OVR_OVR]); (repeat' split) <;> omega)
    | intro _
    | split
    | extract_lets
    | (refine wRun ?_; split <;> intro _)
    | dsimp only

theorem w_overrunTick (k : Nat) (s : State) : Within 158456929491519560527174721539 (overrunTick k s) := by
  unfold overrunTick
  repeat' first
    | exact (rfl : (_ : Nat) = _)
    | exact (rfl : (_ : Bool) = _)
    | with_reducible first
      | exact wNil | exact wSeqNil | refine wSeq ?_ (fun _ => ?_) | refine wEach (fun _ _ => ?_)
      | apply Within.mono (w_faultNext ..)
      | apply Within.mono (w_overrunFault ..)
      | apply Within.mono (w_ovrRecord ..)
    | (simp only [fieldOf]; decide)
    | intro _
    | split
    | extract_lets
    | (refine wRun ?_; split <;> intro _)
    | dsimp only

theorem w_skipTick (k m : Nat) (s : State) : Within 158456325028528675187087900673 (skipTick k m s) := by
  unfold skipTick
  repeat' first
    | exact (rfl : (_ : Nat) = _)
    | exact (rfl : (_ : Bool) = _)
    | with_reducible first
      | exact wNil | exact wSeqNil | refine wSeq ?_ (fun _ => ?_) | refine wIf ?_ ?_ | refine wIfAct ?_ ?_
      | apply Within.mono (w_ovrRecord ..)
      | apply Within.mono (w_setF ..)
    | (simp only [fieldOf]; decide)
    | (show 0x200000200000 ≤ _; (try simp only [PCH_STATUS, PCH_STATUS_TICK_LATE]); (repeat' split) <;> omega)
    | intro _
    | split
    | extract_lets
    | (refine wRun ?_; split <;> intro _)
    | dsimp only

theorem w_ageUpdate (p : Nat) (s : State) : Within 1 (ageUpdate p s) := by
  unfold ageUpdate
  repeat' first
    | exact (rfl : (_ : Nat) = _)
    | exact (rfl : (_ : Bool) = _)
    | with_reducible first
      | exact wNil | exact wSeqNil | refine wSeq ?_ (fun _ => ?_) | refine wWhen ?_ | refine wIf ?_ ?_ | refine wIfAct ?_ ?_
      | apply Within.mono (w_incReg_hi _ _ ?_)
      | apply Within.mono (w_setF_hi _ _ _ ?_)
    | (simp only [fieldOf]; decide)
    | (show 0x200000200000 ≤ _; (try simp only [PCH_DONE, PCH_DONE_DONE, PRT_CFG, PRT_CFG_AGE_THR, PRT_CFG_AGE_TOP, PRT_CFG_LEVEL, PRT_PROM_CNT, PRT_STAT, PRT_STAT_AGE, PRT_STAT_EFF_LEVEL]); (repeat' split) <;> omega)
    | intro _
    | split
    | extract_lets
    | (refine wRun ?_; split <;> intro _)
    | dsimp only

theorem w_ageTick  (s : State) : Within 1 (ageTick  s) := by
  unfold ageTick
  repeat' first
    | exact (rfl : (_ : Nat) = _)
    | exact (rfl : (_ : Bool) = _)
    | with_reducible first
      | exact wNil | refine wEach (fun _ _ => ?_)
      | apply Within.mono (w_ageUpdate ..)
    | (simp only [fieldOf]; decide)
    | intro _
    | split
    | extract_lets
    | (refine wRun ?_; split <;> intro _)
    | dsimp only

theorem w_pstatTick (k : Nat) (s : State) : Within 79228162514264337593543950336 (pstatTick k s) := by
  unfold pstatTick
  repeat' first
    | exact (rfl : (_ : Nat) = _)
    | exact (rfl : (_ : Bool) = _)
    | with_reducible first
      | exact wNil | refine wIf ?_ ?_ | refine wIfAct ?_ ?_ | refine wCons ?_ ?_ | refine wApp ?_ ?_
    | (simp only [fieldOf]; decide)
    | intro _
    | split
    | extract_lets
    | (refine wRun ?_; split <;> intro _)
    | dsimp only

theorem w_discardTick  (s : State) : Within 13197847060483 (discardTick  s) := by
  unfold discardTick
  repeat' first
    | exact (rfl : (_ : Nat) = _)
    | exact (rfl : (_ : Bool) = _)
    | with_reducible first
      | exact wNil | exact wSeqNil | refine wSeq ?_ (fun _ => ?_) | refine wEach (fun _ _ => ?_)
      | apply Within.mono (w_clkShow ..)
      | apply Within.mono (w_coreDiscard ..)
      | apply Within.mono (w_setCore ..)
      | apply Within.mono (w_setF_hi _ _ _ ?_)
    | (simp only [fieldOf]; decide)
    | (show 0x200000200000 ≤ _; (try simp only [CORE_STAT, CORE_STAT_ARRIVED, PRT_LEND, PRT_LEND_LSTATE, coreBase]); (repeat' split) <;> omega)
    | intro _
    | split
    | extract_lets
    | (refine wRun ?_; split <;> intro _)
    | dsimp only

theorem w_startPart (m p : Nat) (s : State) : Within 34460401667 (startPart m p s) := by
  unfold startPart
  repeat' first
    | exact (rfl : (_ : Nat) = _)
    | exact (rfl : (_ : Bool) = _)
    | with_reducible first
      | exact wNil | exact wSeqNil | refine wSeq ?_ (fun _ => ?_) | refine wIf ?_ ?_ | refine wIfAct ?_ ?_ | refine wEach (fun _ _ => ?_)
      | apply Within.mono (w_banksSettle ..)
      | apply Within.mono (w_bivEnter ..)
      | apply Within.mono (w_setF_hi _ _ _ ?_)
      | apply Within.mono (w_setPart ..)
    | (simp only [fieldOf]; decide)
    | (show 0x200000200000 ≤ _; (try simp only [PRT_STAT, PRT_STAT_STATE, SUP_TASK_CFG, SUP_TASK_CFG_ACTIVE, ancBase]); (repeat' split) <;> omega)
    | intro _
    | split
    | extract_lets
    | (refine wRun ?_; split <;> intro _)
    | dsimp only

theorem w_wakePart (p : Nat) (s : State) : Within 1 (wakePart p s) := by
  unfold wakePart
  repeat' first
    | exact (rfl : (_ : Nat) = _)
    | exact (rfl : (_ : Bool) = _)
    | with_reducible first
      | exact wNil | refine wIf ?_ ?_ | refine wIfAct ?_ ?_
      | apply Within.mono (w_setF_hi _ _ _ ?_)
    | (simp only [fieldOf]; decide)
    | (show 0x200000200000 ≤ _; (try simp only [PRT_STAT, PRT_STAT_STATE]); (repeat' split) <;> omega)
    | intro _
    | split
    | extract_lets
    | (refine wRun ?_; split <;> intro _)
    | dsimp only

theorem w_clearCore (g : Nat) (s : State) : Within 1 (clearCore g s) := by
  unfold clearCore
  repeat' first
    | exact (rfl : (_ : Nat) = _)
    | exact (rfl : (_ : Bool) = _)
    | with_reducible first
      | exact wNil | exact wSeqNil | refine wSeq ?_ (fun _ => ?_) | refine wEach (fun _ _ => ?_)
      | apply Within.mono (w_setF_hi _ _ _ ?_)
      | apply Within.mono (w_wr_hi _ _ _ ?_)
      | apply Within.mono (w_wr64_hi _ _ _ ?_)
    | (simp only [fieldOf]; decide)
    | (show 0x200000200000 ≤ _; (try simp only [CORE_ISSUE, CORE_ISSUE_LO, CORE_TXN, CORE_TXN_HWM, CORE_TXN_OUT, ENG_FLAGS, coreBase]); (repeat' split) <;> omega)
    | intro _
    | split
    | extract_lets
    | (refine wRun ?_; split <;> intro _)
    | dsimp only

theorem w_releasePart (p : Nat) (s : State) : Within 34360524801 (releasePart p s) := by
  unfold releasePart
  repeat' first
    | exact (rfl : (_ : Nat) = _)
    | exact (rfl : (_ : Bool) = _)
    | with_reducible first
      | exact wNil | exact wSeqNil | refine wSeq ?_ (fun _ => ?_) | refine wWhen ?_ | refine wEach (fun _ _ => ?_)
      | apply Within.mono (w_clearCore ..)
      | apply Within.mono (w_coresStart ..)
      | apply Within.mono (w_setPart ..)
    | (simp only [fieldOf]; decide)
    | intro _
    | split
    | extract_lets
    | (refine wRun ?_; split <;> intro _)
    | dsimp only

theorem w_releaseTick  (s : State) : Within 34360524801 (releaseTick  s) := by
  unfold releaseTick
  repeat' first
    | exact (rfl : (_ : Nat) = _)
    | exact (rfl : (_ : Bool) = _)
    | with_reducible first
      | exact wNil | exact wSeqNil | refine wSeq ?_ (fun _ => ?_) | refine wIf ?_ ?_ | refine wIfAct ?_ ?_ | refine wEach (fun _ _ => ?_)
      | apply Within.mono (w_incReg_hi _ _ ?_)
      | apply Within.mono (w_releasePart ..)
      | apply Within.mono (w_setPart ..)
    | (simp only [fieldOf]; decide)
    | (show 0x200000200000 ≤ _; (try simp only [PRT_WITHHELD_CNT]); (repeat' split) <;> omega)
    | intro _
    | split
    | extract_lets
    | (refine wRun ?_; split <;> intro _)
    | dsimp only

theorem w_sendReleased  (s : State) : Within 9223372036854775809 (sendReleased  s) := by
  unfold sendReleased
  repeat' first
    | exact (rfl : (_ : Nat) = _)
    | exact (rfl : (_ : Bool) = _)
    | with_reducible first
      | exact wNil | exact wSeqNil | refine wSeq ?_ (fun _ => ?_) | refine wIf ?_ ?_ | refine wIfAct ?_ ?_ | refine wEach (fun _ _ => ?_)
      | apply Within.mono (w_incReg_hi _ _ ?_)
      | apply Within.mono (w_setAnc ..)
    | (simp only [fieldOf]; decide)
    | (show 0x200000200000 ≤ _; (try simp only [AMB_FWD_CNT]); (repeat' split) <;> omega)
    | intro _
    | split
    | extract_lets
    | (refine wRun ?_; split <;> intro _)
    | dsimp only

theorem w_newPitch (m : Nat) (s : State) : Within 158456325028528675187087901185 (newPitch m s) := by
  unfold newPitch
  repeat' first
    | exact (rfl : (_ : Nat) = _)
    | exact (rfl : (_ : Bool) = _)
    | with_reducible first
      | exact wNil | exact wSeqNil | refine wSeq ?_ (fun _ => ?_) | refine wUpd ?_
      | apply Within.mono (w_icuPend ..)
      | apply Within.mono (w_setF ..)
      | apply Within.mono (w_wr64 ..)
    | (simp only [fieldOf]; decide)
    | (show 0x200000200000 ≤ _; (try simp only [PCH_DONE, PCH_DONE_DONE, PCH_NUM, PCH_NUM_LO, PCH_STATUS, PCH_STATUS_RUNNING, PCH_STEP, PCH_STEP_STEP_CNT, PCH_STEP_STEP_IDX, PCH_TICK, PCH_TICK_LO]); (repeat' split) <;> omega)
    | intro _
    | split
    | extract_lets
    | (refine wRun ?_; split <;> intro _)
    | dsimp only

theorem w_unitsTick (m : Nat) (s : State) : Within 39781200051666846909714137089 (unitsTick m s) := by
  unfold unitsTick
  repeat' first
    | exact (rfl : (_ : Nat) = _)
    | exact (rfl : (_ : Bool) = _)
    | with_reducible first
      | exact wNil | exact wSeqNil | refine wSeq ?_ (fun _ => ?_) | refine wIf ?_ ?_ | refine wIfAct ?_ ?_
      | apply Within.mono (w_bndTick ..)
      | apply Within.mono (w_boxTick ..)
      | apply Within.mono (w_dmaTick ..)
      | apply Within.mono (w_egoTick ..)
      | apply Within.mono (w_emit ..)
      | apply Within.mono (w_fusTick ..)
      | apply Within.mono (w_ingressTick ..)
      | apply Within.mono (w_kvTick ..)
      | apply Within.mono (w_lagTick ..)
      | apply Within.mono (w_regTick ..)
      | apply Within.mono (w_stepSample ..)
      | apply Within.mono (w_traceEnd ..)
      | apply Within.mono (w_trvTick ..)
      | apply Within.mono (w_unitTick ..)
    | (simp only [fieldOf]; decide)
    | intro _
    | split
    | extract_lets
    | (refine wRun ?_; split <;> intro _)
    | dsimp only

theorem w_endPitch (m : Nat) (s : State) : Within 237685092005783898120718671875 (endPitch m s) := by
  unfold endPitch
  repeat' first
    | exact (rfl : (_ : Nat) = _)
    | exact (rfl : (_ : Bool) = _)
    | with_reducible first
      | exact wNil | exact wSeqNil | refine wSeq ?_ (fun _ => ?_) | refine wIf ?_ ?_ | refine wIfAct ?_ ?_
      | apply Within.mono (w_ageTick ..)
      | apply Within.mono (w_discardTick ..)
      | apply Within.mono (w_overrunTick ..)
      | apply Within.mono (w_pstatTick ..)
      | apply Within.mono (w_retryTick ..)
      | apply Within.mono (w_skipTick ..)
    | (simp only [fieldOf]; decide)
    | intro _
    | split
    | extract_lets
    | (refine wRun ?_; split <;> intro _)
    | dsimp only

theorem w_partsTick (m : Nat) (due : List (Nat × Nat)) (all : Bool) (bad : List Nat) (s : State) : Within 222829217696774114063415209987 (partsTick m due all bad s) := by
  unfold partsTick
  repeat' first
    | exact (rfl : (_ : Nat) = _)
    | exact (rfl : (_ : Bool) = _)
    | with_reducible first
      | exact wNil | exact wSeqNil | refine wSeq ?_ (fun _ => ?_) | refine wIf ?_ ?_ | refine wIfAct ?_ ?_ | refine wCons ?_ ?_ | refine wEach (fun _ _ => ?_)
      | apply Within.mono (w_allRestart ..)
      | apply Within.mono (w_partialTick ..)
      | apply Within.mono (w_restartTick ..)
      | apply Within.mono (w_startPart ..)
      | apply Within.mono (w_wakePart ..)
    | (simp only [fieldOf]; decide)
    | intro _
    | split
    | extract_lets
    | (refine wRun ?_; split <;> intro _)
    | dsimp only

theorem w_tick (m : Nat) (bad : List Nat) (s : State) : Within 302225102297042630711109972483 (tick m bad s) := by
  unfold tick
  repeat' first
    | exact (rfl : (_ : Nat) = _)
    | exact (rfl : (_ : Bool) = _)
    | with_reducible first
      | exact wNil | exact wSeqNil | refine wSeq ?_ (fun _ => ?_)
      | apply Within.mono (w_endPitch ..)
      | apply Within.mono (w_faultAll ..)
      | apply Within.mono (w_newPitch ..)
      | apply Within.mono (w_partsTick ..)
      | apply Within.mono (w_releaseTick ..)
      | apply Within.mono (w_sendReleased ..)
      | apply Within.mono (w_unitsTick ..)
    | (simp only [fieldOf]; decide)
    | intro _
    | split
    | extract_lets
    | (refine wRun ?_; split <;> intro _)
    | dsimp only

theorem w_raiseTick (now : Nat) (bad : List Nat) (s : State) : Within 302225102297042630711109972483 (raiseTick now bad s) := by
  unfold raiseTick
  repeat' first
    | exact (rfl : (_ : Nat) = _)
    | exact (rfl : (_ : Bool) = _)
    | with_reducible first
      | exact wNil | refine wIf ?_ ?_ | refine wIfAct ?_ ?_
      | apply Within.mono (w_setF ..)
      | apply Within.mono (w_tick ..)
    | (simp only [fieldOf]; decide)
    | (show 0x200000200000 ≤ _; (try simp only [PCH_STATUS, PCH_STATUS_TICK_LATE]); (repeat' split) <;> omega)
    | intro _
    | split
    | extract_lets
    | (refine wRun ?_; split <;> intro _)
    | dsimp only

theorem w_idleAct  (s : State) : Within 24 (idleAct  s) := by
  unfold idleAct
  repeat' first
    | exact (rfl : (_ : Nat) = _)
    | exact (rfl : (_ : Bool) = _)
    | with_reducible first
      | exact wNil | refine wCons ?_ ?_
    | (simp only [fieldOf]; decide)
    | intro _
    | split
    | extract_lets
    | (refine wRun ?_; split <;> intro _)
    | dsimp only

end Sys2Proof.Laws
end

