-- ==== Sys2Proof/Laws/WritesCommands.lean ====
section
/-! SUPPORT. Which fields each command can write: the commands whose effect is built from the operations of the files Writes*. -/
namespace Sys2Proof.Laws
open Sys2Proof.Machine

set_option linter.unusedTactic false
set_option linter.unreachableTactic false
set_option linter.unusedSimpArgs false
set_option linter.unnecessarySeqFocus false

/-- A command answers a state that a list of updates reaches, each in a field of `T`. -/
def CmdWithin (T : Nat) (c : Instr) (s : State) : Prop := ∃ us, exec c s = .next (applyAll us s) ∧ Within T us

/-- The lock update of a sample (R351). -/
theorem w_lockUpdate (s0 : State) (x m : Nat) (phi : Int) (s : State) : Within 3541846919746271838209 ((lockUpdate s0 x m phi).act s) := by
  unfold lockUpdate
  extract_lets
  repeat' split
  all_goals
    repeat' first
    | exact (rfl : (_ : Nat) = _)
    | with_reducible first
      | exact wSeqNil | refine wSeq ?_ (fun _ => ?_) | refine wWhen ?_
      | apply Within.mono (w_enterRelock ..) | apply Within.mono (w_stateMsg ..) | apply Within.mono (w_setCtx ..)
      | apply Within.mono (w_setF_hi _ _ _ ?_)
    | (show 0x200000200000 ≤ _; (try simp only [ING_CTX_STAT, ING_CTX_STAT_LOCKED, ING_CTX_STAT_RELOCK_PITCHES, ING_CTX_STAT_RUN]); omega)

/-- A monitor command (R570 to R572): a reply, its prompt, and what the row does. -/
theorem w_monRun {T : Nat} {pick : MonCmd → Bool} {lvl : Nat} {iod : Bool} {now : Nat} {f : MonCmd → State → Nat × List Nat × Act}
    {s : State} (hT : 79228162514282351992053432329 ||| T = T) (h : ∀ c s t, Within T ((f c s).2.2 t)) : Within T (monRun pick lvl iod now f s) := by
  have h0 : ∀ {n : Nat}, n ||| 79228162514282351992053432329 = 79228162514282351992053432329 → n ||| T = T := fun hn => by rw [← hT, ← Nat.or_assoc, hn]
  unfold monRun
  refine wSeq ((w_advance ..).mono (h0 rfl)) (fun t => wSeq ?_ (fun _ => wSeqNil))
  show Within T (match monFront t with | some c => _ | none => _)
  split
  · refine wIf wNil (wSeq (wUpd (by rw [← hT]; simp only [fieldOf, Nat.testBit_or]; rfl)) (fun u => wSeq ?_ (fun _ =>
      wSeq ((w_monSettle ..).mono (h0 rfl)) (fun _ => wSeqNil))))
    refine wSeq ?_ (fun _ => wSeq ((w_monReply ..).mono (h0 rfl)) (fun _ => wSeqNil))
    split
    · exact wNop (s := u)
    · split
      · exact wNop (s := u)
      · exact h _ _ _
  · exact wNil

theorem cw_pitchTick (now : Nat) (bad : List Nat) (s : State) : CmdWithin 302225102297042630711109972491 (.pitchTick now bad) s := by
  refine ⟨_, rfl, ?_⟩
  repeat' first
    | exact (rfl : (_ : Nat) = _)
    | exact (rfl : (_ : Bool) = _)
    | with_reducible first
      | exact wNil | exact wSeqNil | refine wSeq ?_ (fun _ => ?_) | refine wIf ?_ ?_ | refine wIfAct ?_ ?_
      | apply Within.mono (w_advance ..)
      | apply Within.mono (w_raiseTick ..)
    | (simp only [fieldOf]; decide)
    | intro _
    | split
    | extract_lets
    | (refine wRun ?_; split <;> intro _)
    | dsimp only

theorem cw_stepTick (k now : Nat) (s : State) : CmdWithin 158456344065586573653854650377 (.stepTick k now) s := by
  refine ⟨_, rfl, ?_⟩
  repeat' first
    | exact (rfl : (_ : Nat) = _)
    | exact (rfl : (_ : Bool) = _)
    | with_reducible first
      | exact wNil | exact wSeqNil | refine wSeq ?_ (fun _ => ?_) | refine wIf ?_ ?_ | refine wIfAct ?_ ?_
      | apply Within.mono (w_advance ..)
      | apply Within.mono (w_setF ..)
      | apply Within.mono (w_stepSample ..)
    | (simp only [fieldOf]; decide)
    | (show 0x200000200000 ≤ _; (try simp only [PCH_CFG, PCH_CFG_RUN, PCH_STEP, PCH_STEP_STEP_CNT, PCH_STEP_STEP_IDX]); (repeat' split) <;> omega)
    | intro _
    | split
    | extract_lets
    | (refine wRun ?_; split <;> intro _)
    | dsimp only

theorem cw_computeTickApply (d now : Nat) (s : State) : CmdWithin 100667403 (.computeTickApply d now) s := by
  refine ⟨_, rfl, ?_⟩
  repeat' first
    | exact (rfl : (_ : Nat) = _)
    | exact (rfl : (_ : Bool) = _)
    | with_reducible first
      | exact wNil | exact wSeqNil | refine wSeq ?_ (fun _ => ?_) | refine wIf ?_ ?_ | refine wIfAct ?_ ?_ | refine wUpd ?_ | refine wEach (fun _ _ => ?_)
      | apply Within.mono (w_advance ..)
      | apply Within.mono (w_phaseBegin ..)
    | (simp only [fieldOf]; decide)
    | intro _
    | split
    | extract_lets
    | (refine wRun ?_; split <;> intro _)
    | dsimp only

theorem cw_anchorSidebandTick (x now : Nat) (s : State) : CmdWithin 4835712501830553553600525 (.anchorSidebandTick x now) s := by
  refine ⟨_, rfl, ?_⟩
  repeat' first
    | exact (rfl : (_ : Nat) = _)
    | exact (rfl : (_ : Bool) = _)
    | with_reducible first
      | exact wNil | exact wSeqNil | refine wSeq ?_ (fun _ => ?_) | refine wWhen ?_ | refine wIf ?_ ?_ | refine wIfAct ?_ ?_
      | apply Within.mono (w_advance ..)
      | apply Within.mono (w_ancNewPitch ..)
      | apply Within.mono (w_setAnc ..)
      | apply Within.mono (w_tickFault ..)
    | (simp only [fieldOf]; decide)
    | intro _
    | split
    | extract_lets
    | (refine wRun ?_; split <;> intro _)
    | dsimp only

theorem cw_tickFault (x now : Nat) (s : State) : CmdWithin 4835712501830553553600525 (.tickFault x now) s := by
  refine ⟨_, rfl, ?_⟩
  repeat' first
    | exact (rfl : (_ : Nat) = _)
    | exact (rfl : (_ : Bool) = _)
    | with_reducible first
      | exact wNil | exact wSeqNil | refine wSeq ?_ (fun _ => ?_) | refine wIf ?_ ?_ | refine wIfAct ?_ ?_
      | apply Within.mono (w_advance ..)
      | apply Within.mono (w_ownTimer ..)
      | apply Within.mono (w_setAnc ..)
      | apply Within.mono (w_tickFault ..)
    | (simp only [fieldOf]; decide)
    | intro _
    | split
    | extract_lets
    | (refine wRun ?_; split <;> intro _)
    | dsimp only

theorem cw_peerTick (i now : Nat) (bad : List Nat) (s : State) : CmdWithin 302225102297042630711109973515 (.peerTick i now bad) s := by
  refine ⟨_, rfl, ?_⟩
  repeat' first
    | exact (rfl : (_ : Nat) = _)
    | exact (rfl : (_ : Bool) = _)
    | with_reducible first
      | exact wNil | exact wSeqNil | refine wSeq ?_ (fun _ => ?_) | refine wIf ?_ ?_ | refine wIfAct ?_ ?_ | refine wUpd ?_
      | apply Within.mono (w_advance ..)
      | apply Within.mono (w_raiseTick ..)
    | (simp only [fieldOf]; decide)
    | intro _
    | split
    | extract_lets
    | (refine wRun ?_; split <;> intro _)
    | dsimp only

theorem cw_peerLost (now : Nat) (s : State) : CmdWithin 158456325028528675187087900681 (.peerLost now) s := by
  refine ⟨_, rfl, ?_⟩
  repeat' first
    | exact (rfl : (_ : Nat) = _)
    | exact (rfl : (_ : Bool) = _)
    | with_reducible first
      | exact wNil | exact wSeqNil | refine wSeq ?_ (fun _ => ?_) | refine wIf ?_ ?_ | refine wIfAct ?_ ?_
      | apply Within.mono (w_advance ..)
      | apply Within.mono (w_setF ..)
    | (simp only [fieldOf]; decide)
    | (show 0x200000200000 ≤ _; (try simp only [PCH_CFG, PCH_CFG_ROLE, PCH_CFG_RUN, PCH_EPOCH, PCH_EPOCH_LO, PCH_STATUS, PCH_STATUS_PEER_LOST]); (repeat' split) <;> omega)
    | intro _
    | split
    | extract_lets
    | (refine wRun ?_; split <;> intro _)
    | dsimp only

theorem cw_timeSyncMessage (m t trim : Nat) (s : State) : CmdWithin 237723173178244052951077224601 (.timeSyncMessage m t trim) s := by
  refine ⟨_, rfl, ?_⟩
  repeat' first
    | exact (rfl : (_ : Nat) = _)
    | exact (rfl : (_ : Bool) = _)
    | with_reducible first
      | exact wNil | exact wSeqNil | refine wSeq ?_ (fun _ => ?_) | refine wIf ?_ ?_ | refine wIfAct ?_ ?_ | refine wUpd ?_
      | apply Within.mono (w_rebaseTo ..)
      | apply Within.mono (w_setF ..)
      | apply Within.mono (w_trimWrite ..)
    | (simp only [fieldOf]; decide)
    | (show 0x200000200000 ≤ _; (try simp only [PCH_CFG, PCH_CFG_RUN, PCH_CFG_TIME_PORT, PCH_STATUS, PCH_STATUS_HOLDOVER]); (repeat' split) <;> omega)
    | intro _
    | split
    | extract_lets
    | (refine wRun ?_; split <;> intro _)
    | dsimp only

theorem cw_holdover  (s : State) : CmdWithin 158456325028528675187087900673 (.holdover ) s := by
  refine ⟨_, rfl, ?_⟩
  repeat' first
    | exact (rfl : (_ : Nat) = _)
    | exact (rfl : (_ : Bool) = _)
    | with_reducible first
      | exact wNil
      | apply Within.mono (w_setF ..)
    | (simp only [fieldOf]; decide)
    | (show 0x200000200000 ≤ _; (try simp only [PCH_STATUS, PCH_STATUS_HOLDOVER]); (repeat' split) <;> omega)
    | intro _
    | split
    | extract_lets
    | (refine wRun ?_; split <;> intro _)
    | dsimp only

theorem cw_pchTrimWrite (src : Master) (v : Nat) (s : State) : CmdWithin 158456325028528675190309126145 (.pchTrimWrite src v) s := by
  refine ⟨_, rfl, ?_⟩
  repeat' first
    | exact (rfl : (_ : Nat) = _)
    | exact (rfl : (_ : Bool) = _)
    | with_reducible first
      | exact wNil
      | refine w_guarded ?_ (fun _ => ?_)
      | apply Within.mono (w_trimWrite ..)
    | (simp only [fieldOf]; decide)
    | intro _
    | split
    | extract_lets
    | (refine wRun ?_; split <;> intro _)
    | dsimp only

theorem cw_guardStart (now : Nat) (s : State) : CmdWithin 77371252465482697367382059 (.guardStart now) s := by
  refine ⟨_, rfl, ?_⟩
  repeat' first
    | exact (rfl : (_ : Nat) = _)
    | exact (rfl : (_ : Bool) = _)
    | with_reducible first
      | exact wNil | exact wSeqNil | refine wSeq ?_ (fun _ => ?_) | refine wIf ?_ ?_ | refine wIfAct ?_ ?_ | refine wUpd ?_
      | apply Within.mono (w_advance ..)
      | apply Within.mono (w_budgetGuard ..)
      | apply Within.mono (w_capPolicy ..)
      | apply Within.mono (w_dramPolicy ..)
      | apply Within.mono (w_floorFree ..)
      | apply Within.mono (w_rebalance ..)
    | (simp only [fieldOf]; decide)
    | intro _
    | split
    | extract_lets
    | (refine wRun ?_; split <;> intro _)
    | dsimp only

theorem cw_coreArrive (g : Nat) (s : State) : CmdWithin 524289 (.coreArrive g) s := by
  refine ⟨_, rfl, ?_⟩
  repeat' first
    | exact (rfl : (_ : Nat) = _)
    | exact (rfl : (_ : Bool) = _)
    | with_reducible first
      | exact wNil | refine wIf ?_ ?_ | refine wIfAct ?_ ?_
      | apply Within.mono (w_setCore ..)
      | apply Within.mono (w_setF_hi _ _ _ ?_)
    | (simp only [fieldOf]; decide)
    | (show 0x200000200000 ≤ _; (try simp only [CORE_STAT, CORE_STAT_ARRIVED, coreBase]); (repeat' split) <;> omega)
    | intro _
    | split
    | extract_lets
    | (refine wRun ?_; split <;> intro _)
    | dsimp only

theorem cw_barrierComplete (p : Nat) (times : List (Nat × Nat)) (now : Nat) (s : State) : CmdWithin 198070406285660844018219614217 (.barrierComplete p times now) s := by
  refine ⟨_, rfl, ?_⟩
  repeat' first
    | exact (rfl : (_ : Nat) = _)
    | exact (rfl : (_ : Bool) = _)
    | with_reducible first
      | exact wNil | exact wSeqNil | refine wSeq ?_ (fun _ => ?_) | refine wIf ?_ ?_ | refine wIfAct ?_ ?_
      | apply Within.mono (w_advance ..)
      | apply Within.mono (w_noteLag ..)
      | apply Within.mono (w_setF ..)
      | apply Within.mono (w_setPart ..)
    | (simp only [fieldOf]; decide)
    | (show 0x200000200000 ≤ _; (try simp only [PCH_DONE, PCH_DONE_DONE]); (repeat' split) <;> omega)
    | intro _
    | split
    | extract_lets
    | (refine wRun ?_; split <;> intro _)
    | dsimp only

theorem cw_submit  (s : State) : CmdWithin 19807040628566084398385987585 (.submit ) s := by
  refine ⟨_, rfl, ?_⟩
  repeat' first
    | exact (rfl : (_ : Nat) = _)
    | exact (rfl : (_ : Bool) = _)
    | with_reducible first
      | exact wNil
      | apply Within.mono (w_submit ..)
    | (simp only [fieldOf]; decide)
    | intro _
    | split
    | extract_lets
    | (refine wRun ?_; split <;> intro _)
    | dsimp only

theorem cw_cancel (now : Nat) (s : State) : CmdWithin 19807040628566084398385987593 (.cancel now) s := by
  refine ⟨_, rfl, ?_⟩
  repeat' first
    | exact (rfl : (_ : Nat) = _)
    | exact (rfl : (_ : Bool) = _)
    | with_reducible first
      | exact wNil | exact wSeqNil | refine wSeq ?_ (fun _ => ?_)
      | apply Within.mono (w_advance ..)
      | apply Within.mono (w_cancelWrite ..)
    | (simp only [fieldOf]; decide)
    | intro _
    | split
    | extract_lets
    | (refine wRun ?_; split <;> intro _)
    | dsimp only

theorem cw_confirm (okA okB : Bool) (s : State) : CmdWithin 3713820117856140824697372673 (.confirm okA okB) s := by
  refine ⟨_, rfl, ?_⟩
  repeat' first
    | exact (rfl : (_ : Nat) = _)
    | exact (rfl : (_ : Bool) = _)
    | with_reducible first
      | exact wNil
      | apply Within.mono (w_confirmSlot ..)
    | (simp only [fieldOf]; decide)
    | intro _
    | split
    | extract_lets
    | (refine wRun ?_; split <;> intro _)
    | dsimp only

theorem cw_writeSlot  (s : State) : CmdWithin 21663950687494154810734673925 (.writeSlot ) s := by
  refine ⟨_, rfl, ?_⟩
  repeat' first
    | exact (rfl : (_ : Nat) = _)
    | exact (rfl : (_ : Bool) = _)
    | with_reducible first
      | exact wNil
      | apply Within.mono (w_slotWrite ..)
    | (simp only [fieldOf]; decide)
    | intro _
    | split
    | extract_lets
    | (refine wRun ?_; split <;> intro _)
    | dsimp only

theorem cw_slotWriteDone  (s : State) : CmdWithin 21044980667851464673285111809 (.slotWriteDone ) s := by
  refine ⟨_, rfl, ?_⟩
  repeat' first
    | exact (rfl : (_ : Nat) = _)
    | exact (rfl : (_ : Bool) = _)
    | with_reducible first
      | exact wNil | exact wSeqNil | refine wSeq ?_ (fun _ => ?_) | refine wWhen ?_ | refine wUpd ?_ | refine wEach (fun _ _ => ?_)
      | apply Within.mono (w_setLoad ..)
      | apply Within.mono (w_topoShow ..)
    | (simp only [fieldOf]; decide)
    | intro _
    | split
    | extract_lets
    | (refine wRun ?_; split <;> intro _)
    | dsimp only

theorem cw_bundleReady (src : Master) (p k : Nat) (s : State) : CmdWithin 19807040628566084401607213056 (.bundleReady src p k) s := by
  refine ⟨_, rfl, ?_⟩
  repeat' first
    | exact (rfl : (_ : Nat) = _)
    | exact (rfl : (_ : Bool) = _)
    | with_reducible first
      | exact wNil
      | apply Within.mono (w_breadyWrite ..)
    | (simp only [fieldOf]; decide)
    | intro _
    | split
    | extract_lets
    | (refine wRun ?_; split <;> intro _)
    | dsimp only

theorem cw_bundleHashDone (p k : Nat) (s : State) : CmdWithin 19807040628566084398385987585 (.bundleHashDone p k) s := by
  refine ⟨_, rfl, ?_⟩
  repeat' first
    | exact (rfl : (_ : Nat) = _)
    | exact (rfl : (_ : Bool) = _)
    | with_reducible first
      | exact wNil | exact wSeqNil | refine wSeq ?_ (fun _ => ?_) | refine wIf ?_ ?_ | refine wIfAct ?_ ?_
      | apply Within.mono (w_bundleErr ..)
      | apply Within.mono (w_setBundle ..)
    | (simp only [fieldOf]; decide)
    | intro _
    | split
    | extract_lets
    | (refine wRun ?_; split <;> intro _)
    | dsimp only

theorem cw_segmentCopyDone (p now : Nat) (s : State) : CmdWithin 19947276023654613587329035 (.segmentCopyDone p now) s := by
  refine ⟨_, rfl, ?_⟩
  repeat' first
    | exact (rfl : (_ : Nat) = _)
    | exact (rfl : (_ : Bool) = _)
    | with_reducible first
      | exact wNil | exact wSeqNil | refine wSeq ?_ (fun _ => ?_) | refine wWhen ?_ | refine wIf ?_ ?_ | refine wIfAct ?_ ?_
      | apply Within.mono (w_advance ..)
      | apply Within.mono (w_copyAll ..)
      | apply Within.mono (w_coresStart ..)
      | apply Within.mono (w_raiseJobFault ..)
      | apply Within.mono (w_reloadError ..)
      | apply Within.mono (w_setF_hi _ _ _ ?_)
      | apply Within.mono (w_setPart ..)
    | (simp only [fieldOf]; decide)
    | (show 0x200000200000 ≤ _; (try simp only [FLT_PART_STAT, FLT_PART_STAT_NOFIT]); (repeat' split) <;> omega)
    | intro _
    | split
    | extract_lets
    | (refine wRun ?_; split <;> intro _)
    | dsimp only

theorem cw_partialVerifyDone  (s : State) : CmdWithin 19807040628566084398385987589 (.partialVerifyDone ) s := by
  refine ⟨_, rfl, ?_⟩
  repeat' first
    | exact (rfl : (_ : Nat) = _)
    | exact (rfl : (_ : Bool) = _)
    | with_reducible first
      | exact wNil | exact wSeqNil | refine wSeq ?_ (fun _ => ?_) | refine wIf ?_ ?_ | refine wIfAct ?_ ?_
      | apply Within.mono (w_partialEnd ..)
      | apply Within.mono (w_rejectImage ..)
      | apply Within.mono (w_setF_hi _ _ _ ?_)
    | (simp only [fieldOf]; decide)
    | (show 0x200000200000 ≤ _; (try simp only [TOPO_STATUS, TOPO_STATUS_PART_STATE]); (repeat' split) <;> omega)
    | intro _
    | split
    | extract_lets
    | (refine wRun ?_; split <;> intro _)
    | dsimp only

theorem cw_partialPrepareDone  (s : State) : CmdWithin 19807040628566097596230664199 (.partialPrepareDone ) s := by
  refine ⟨_, rfl, ?_⟩
  repeat' first
    | exact (rfl : (_ : Nat) = _)
    | exact (rfl : (_ : Bool) = _)
    | with_reducible first
      | exact wNil | exact wSeqNil | refine wSeq ?_ (fun _ => ?_) | refine wIf ?_ ?_ | refine wIfAct ?_ ?_ | refine wEach (fun _ _ => ?_)
      | apply Within.mono (w_bundleErr ..)
      | apply Within.mono (w_copySegs ..)
      | apply Within.mono (w_partialEnd ..)
      | apply Within.mono (w_rejectImage ..)
      | apply Within.mono (w_setLoad ..)
    | (simp only [fieldOf]; decide)
    | intro _
    | split
    | extract_lets
    | (refine wRun ?_; split <;> intro _)
    | dsimp only

theorem cw_superviseAck (x : Nat) (s : State) : CmdWithin 19807040628566084398385987584 (.superviseAck x) s := by
  refine ⟨_, rfl, ?_⟩
  repeat' first
    | exact (rfl : (_ : Nat) = _)
    | exact (rfl : (_ : Bool) = _)
    | with_reducible first
      | exact wNil | refine wIf ?_ ?_ | refine wIfAct ?_ ?_
      | apply Within.mono (w_setLoad ..)
    | (simp only [fieldOf]; decide)
    | intro _
    | split
    | extract_lets
    | (refine wRun ?_; split <;> intro _)
    | dsimp only

theorem cw_partialArm (now : Nat) (s : State) : CmdWithin 19807040628566084398385987593 (.partialArm now) s := by
  refine ⟨_, rfl, ?_⟩
  repeat' first
    | exact (rfl : (_ : Nat) = _)
    | exact (rfl : (_ : Bool) = _)
    | with_reducible first
      | exact wNil | exact wSeqNil | refine wSeq ?_ (fun _ => ?_) | refine wIf ?_ ?_ | refine wIfAct ?_ ?_
      | apply Within.mono (w_advance ..)
      | apply Within.mono (w_setF_hi _ _ _ ?_)
      | apply Within.mono (w_setLoad ..)
    | (simp only [fieldOf]; decide)
    | (show 0x200000200000 ≤ _; (try simp only [TOPO_STATUS, TOPO_STATUS_PART_STATE]); (repeat' split) <;> omega)
    | intro _
    | split
    | extract_lets
    | (refine wRun ?_; split <;> intro _)
    | dsimp only

theorem cw_flitReceive (n p seqNo : Nat) (idle : Bool) (bad : List Nat) (s : State) : CmdWithin 198070406285741908881171247107 (.flitReceive n p seqNo idle bad) s := by
  refine ⟨_, rfl, ?_⟩
  repeat' first
    | exact (rfl : (_ : Nat) = _)
    | exact (rfl : (_ : Bool) = _)
    | with_reducible first
      | exact wNil | exact wNop | exact wSeqNil | refine wSeq ?_ (fun _ => ?_) | refine wWhen ?_ | refine wIf ?_ ?_ | refine wIfAct ?_ ?_ | refine wUpd ?_
      | apply Within.mono (w_correctFlit ..)
      | apply Within.mono (w_inc64 ..)
      | apply Within.mono (w_incReg ..)
      | apply Within.mono (w_linkDown ..)
    | (simp only [fieldOf]; decide)
    | (show 0x200000200000 ≤ _; (try simp only [RPL_FLIT, RPL_FLIT_LO, RPL_RETRY_CNT, rplBase]); (repeat' split) <;> omega)
    | intro _
    | split
    | extract_lets
    | (refine wRun ?_; split <;> intro _)
    | dsimp only

theorem cw_linkRetryRequest (n p : Nat) (s : State) : CmdWithin 131072 (.linkRetryRequest n p) s := by
  refine ⟨_, rfl, ?_⟩
  repeat' first
    | exact (rfl : (_ : Nat) = _)
    | exact (rfl : (_ : Bool) = _)
    | with_reducible first
      | exact wNil | exact wSeqNil | refine wSeq ?_ (fun _ => ?_) | refine wIf ?_ ?_ | refine wIfAct ?_ ?_ | refine wUpd ?_ | refine wCons ?_ ?_
    | (simp only [fieldOf]; decide)
    | intro _
    | split
    | extract_lets
    | (refine wRun ?_; split <;> intro _)
    | dsimp only

theorem cw_linkDown (n p cause : Nat) (s : State) : CmdWithin 198070406285741908881171247107 (.linkDown n p cause) s := by
  refine ⟨_, rfl, ?_⟩
  repeat' first
    | exact (rfl : (_ : Nat) = _)
    | exact (rfl : (_ : Bool) = _)
    | with_reducible first
      | exact wNil | exact wNop | refine wIf ?_ ?_ | refine wIfAct ?_ ?_
      | apply Within.mono (w_linkDown ..)
    | (simp only [fieldOf]; decide)
    | intro _
    | split
    | extract_lets
    | (refine wRun ?_; split <;> intro _)
    | dsimp only

theorem cw_routeSwitch (d t : Nat) (s : State) : CmdWithin 1 (.routeSwitch d t) s := by
  refine ⟨_, rfl, ?_⟩
  repeat' first
    | exact (rfl : (_ : Nat) = _)
    | exact (rfl : (_ : Bool) = _)
    | with_reducible first
      | exact wNil | exact wSeqNil | refine wSeq ?_ (fun _ => ?_) | refine wIf ?_ ?_ | refine wIfAct ?_ ?_
      | apply Within.mono (w_setF_hi _ _ _ ?_)
      | apply Within.mono (w_wr_hi _ _ _ ?_)
    | (simp only [fieldOf]; decide)
    | (show 0x200000200000 ≤ _; (try simp only [RTE_DEST, RTE_DEST_ACTIVE, RTE_DEST_ALTERNATE, RTE_FAIL]); (repeat' split) <;> omega)
    | intro _
    | split
    | extract_lets
    | (refine wRun ?_; split <;> intro _)
    | dsimp only

theorem cw_transactionTimeout (src : Master) (tag : Nat) (s : State) : CmdWithin 9020534538715139 (.transactionTimeout src tag) s := by
  refine ⟨_, rfl, ?_⟩
  repeat' first
    | exact (rfl : (_ : Nat) = _)
    | exact (rfl : (_ : Bool) = _)
    | with_reducible first
      | exact wNil | exact wSeqNil | refine wSeq ?_ (fun _ => ?_) | refine wIf ?_ ?_ | refine wIfAct ?_ ?_ | refine wCons ?_ ?_ | refine wApp ?_ ?_
      | apply Within.mono (w_countFabricErr ..)
      | apply Within.mono (w_endTxn ..)
      | apply Within.mono (w_regLeave ..)
    | (simp only [fieldOf]; decide)
    | intro _
    | split
    | extract_lets
    | (refine wRun ?_; split <;> intro _)
    | dsimp only

theorem cw_memoryResponse (src : Master) (tag status : Nat) (data : List Byte) (s : State) : CmdWithin 1215985234674016259 (.memoryResponse src tag status data) s := by
  refine ⟨_, rfl, ?_⟩
  repeat' first
    | exact (rfl : (_ : Nat) = _)
    | exact (rfl : (_ : Bool) = _)
    | with_reducible first
      | exact wNil | exact wNop | exact wSeqNil | refine wSeq ?_ (fun _ => ?_) | refine wWhen ?_ | refine wIf ?_ ?_ | refine wIfAct ?_ ?_ | refine wUpd ?_
      | apply Within.mono (w_deliverResp ..)
      | apply Within.mono (w_incReg_hi _ _ ?_)
      | apply Within.mono (w_outsideResp ..)
    | (simp only [fieldOf]; decide)
    | (show 0x200000200000 ≤ _; (try simp only [RTE_LATE_CNT]); (repeat' split) <;> omega)
    | intro _
    | split
    | extract_lets
    | (refine wRun ?_; split <;> intro _)
    | dsimp only

theorem cw_rplDisable (src : Master) (n p : Nat) (s : State) : CmdWithin 3221225473 (.rplDisable src n p) s := by
  refine ⟨_, rfl, ?_⟩
  repeat' first
    | exact (rfl : (_ : Nat) = _)
    | exact (rfl : (_ : Bool) = _)
    | with_reducible first
      | exact wNil
      | refine w_guarded ?_ (fun _ => ?_)
      | apply Within.mono (w_writeEnable _ _ _ _ ?_ ?_)
    | (simp only [fieldOf]; decide)
    | (show 0x200000200000 ≤ _; (try simp only [RPL_CTL, RPL_CTL_EN, RPL_STAT, RPL_STAT_STATE, rplBase]); (repeat' split) <;> omega)
    | intro _
    | split
    | extract_lets
    | (refine wRun ?_; split <;> intro _)
    | dsimp only

theorem cw_drainDone (b : Block) (s : State) : CmdWithin 2417851639229258349412353 (.drainDone b) s := by
  refine ⟨_, rfl, ?_⟩
  repeat' first
    | exact (rfl : (_ : Nat) = _)
    | exact (rfl : (_ : Bool) = _)
    | with_reducible first
      | exact wNil | exact wSeqNil | refine wSeq ?_ (fun _ => ?_) | refine wIf ?_ ?_ | refine wIfAct ?_ ?_
      | apply Within.mono (w_drainEnd ..)
      | apply Within.mono (w_unitDrainNote ..)
    | (simp only [fieldOf]; decide)
    | intro _
    | split
    | extract_lets
    | (refine wRun ?_; split <;> intro _)
    | dsimp only

theorem cw_drainTimeout (b : Block) (s : State) : CmdWithin 3193502567839309380460547 (.drainTimeout b) s := by
  refine ⟨_, rfl, ?_⟩
  repeat' first
    | exact (rfl : (_ : Nat) = _)
    | exact (rfl : (_ : Bool) = _)
    | with_reducible first
      | exact wNil | exact wSeqNil | refine wSeq ?_ (fun _ => ?_) | refine wIf ?_ ?_ | refine wIfAct ?_ ?_
      | apply Within.mono (w_drainAbort ..)
      | apply Within.mono (w_drainEnd ..)
      | apply Within.mono (w_unitDrainNote ..)
    | (simp only [fieldOf]; decide)
    | intro _
    | split
    | extract_lets
    | (refine wRun ?_; split <;> intro _)
    | dsimp only

theorem cw_correctedWriteBack  (s : State) : CmdWithin 335544320 (.correctedWriteBack ) s := by
  refine ⟨_, rfl, ?_⟩
  repeat' first
    | exact (rfl : (_ : Nat) = _)
    | exact (rfl : (_ : Bool) = _)
    | with_reducible first
      | exact wNil | exact wSeqNil | refine wSeq ?_ (fun _ => ?_) | refine wWhen ?_ | refine wUpd ?_ | refine wCons ?_ ?_
    | (simp only [fieldOf]; decide)
    | intro _
    | split
    | extract_lets
    | (refine wRun ?_; split <;> intro _)
    | dsimp only

theorem cw_scrubRead (d : Nat) (s : State) : CmdWithin 805306369 (.scrubRead d) s := by
  refine ⟨_, rfl, ?_⟩
  repeat' first
    | exact (rfl : (_ : Nat) = _)
    | exact (rfl : (_ : Bool) = _)
    | with_reducible first
      | exact wNil | exact wSeqNil | refine wSeq ?_ (fun _ => ?_) | refine wWhen ?_ | refine wIf ?_ ?_ | refine wIfAct ?_ ?_ | refine wUpd ?_ | refine wCons ?_ ?_ | refine wApp ?_ ?_ | refine wEach (fun _ _ => ?_)
      | apply Within.mono (w_countWord ..)
      | apply Within.mono (w_incReg_hi _ _ ?_)
    | (simp only [fieldOf]; decide)
    | (show 0x200000200000 ≤ _; (try simp only [BNK_SCRUB, BNK_SCRUB_EN, BNK_SCRUB_PASS]); (repeat' split) <;> omega)
    | intro _
    | split
    | extract_lets
    | (refine wRun ?_; split <;> intro _)
    | dsimp only

theorem cw_scalarInstruction (g t : Nat) (op : SOp) (rd ra : Nat) (arg : SArg) (cycle : Nat) (s : State) : CmdWithin 9007199255527425 (.scalarInstruction g t op rd ra arg cycle) s := by
  refine ⟨_, rfl, ?_⟩
  repeat' first
    | exact (rfl : (_ : Nat) = _)
    | exact (rfl : (_ : Bool) = _)
    | with_reducible first
      | exact wNil | refine wCons ?_ ?_ | refine wApp ?_ ?_
      | refine w_issue ?_ (fun _ => ?_)
      | apply Within.mono (w_scalarBody ..)
    | (simp only [fieldOf]; decide)
    | intro _
    | split
    | extract_lets
    | (refine wRun ?_; split <;> intro _)
    | dsimp only

theorem cw_vectorInstruction (g t : Nat) (vi : VInstr) (s : State) : CmdWithin 9007199255527425 (.vectorInstruction g t vi) s := by
  refine ⟨_, rfl, ?_⟩
  repeat' first
    | exact (rfl : (_ : Nat) = _)
    | exact (rfl : (_ : Bool) = _)
    | with_reducible first
      | exact wNil | refine wIf ?_ ?_ | refine wIfAct ?_ ?_ | refine wCons ?_ ?_ | refine wApp ?_ ?_
      | refine w_issue ?_ (fun _ => ?_)
      | apply Within.mono (w_setThr ..)
      | apply Within.mono (w_threadFault ..)
    | (simp only [fieldOf]; decide)
    | intro _
    | split
    | extract_lets
    | (refine wRun ?_; split <;> intro _)
    | dsimp only

theorem cw_blockEncode (g t fmt vd rs v0 v1 : Nat) (s : State) : CmdWithin 9007199255527425 (.blockEncode g t fmt vd rs v0 v1) s := by
  refine ⟨_, rfl, ?_⟩
  repeat' first
    | exact (rfl : (_ : Nat) = _)
    | exact (rfl : (_ : Bool) = _)
    | with_reducible first
      | exact wNil | refine wIf ?_ ?_ | refine wIfAct ?_ ?_
      | refine w_issue ?_ (fun _ => ?_)
      | apply Within.mono (w_setThr ..)
      | apply Within.mono (w_threadFault ..)
    | (simp only [fieldOf]; decide)
    | intro _
    | split
    | extract_lets
    | (refine wRun ?_; split <;> intro _)
    | dsimp only

theorem cw_blockDecode (g t fmt va rs v0 v1 : Nat) (s : State) : CmdWithin 9007199255527425 (.blockDecode g t fmt va rs v0 v1) s := by
  refine ⟨_, rfl, ?_⟩
  repeat' first
    | exact (rfl : (_ : Nat) = _)
    | exact (rfl : (_ : Bool) = _)
    | with_reducible first
      | exact wNil | refine wIf ?_ ?_ | refine wIfAct ?_ ?_
      | refine w_issue ?_ (fun _ => ?_)
      | apply Within.mono (w_setThr ..)
      | apply Within.mono (w_threadFault ..)
    | (simp only [fieldOf]; decide)
    | intro _
    | split
    | extract_lets
    | (refine wRun ?_; split <;> intro _)
    | dsimp only

theorem cw_loadInstr (g t : Nat) (dest : Dest) (width rb off : Nat) (s : State) : CmdWithin 9007199255576577 (.loadInstr g t dest width rb off) s := by
  refine ⟨_, rfl, ?_⟩
  repeat' first
    | exact (rfl : (_ : Nat) = _)
    | exact (rfl : (_ : Bool) = _)
    | with_reducible first
      | exact wNil | refine wIf ?_ ?_ | refine wIfAct ?_ ?_ | refine wCons ?_ ?_ | refine wApp ?_ ?_
      | apply Within.mono (w_addTxns ..)
      | refine w_issueMem ?_ (fun _ => ?_)
      | apply Within.mono (w_threadFault ..)
    | (simp only [fieldOf]; decide)
    | intro _
    | split
    | extract_lets
    | (refine wRun ?_; split <;> intro _)
    | dsimp only

theorem cw_storeInstr (g t : Nat) (src : Dest) (width rb off : Nat) (s : State) : CmdWithin 9007199255576577 (.storeInstr g t src width rb off) s := by
  refine ⟨_, rfl, ?_⟩
  repeat' first
    | exact (rfl : (_ : Nat) = _)
    | exact (rfl : (_ : Bool) = _)
    | with_reducible first
      | exact wNil | refine wIf ?_ ?_ | refine wIfAct ?_ ?_ | refine wCons ?_ ?_ | refine wApp ?_ ?_
      | apply Within.mono (w_addTxns ..)
      | refine w_issueMem ?_ (fun _ => ?_)
      | apply Within.mono (w_threadFault ..)
    | (simp only [fieldOf]; decide)
    | intro _
    | split
    | extract_lets
    | (refine wRun ?_; split <;> intro _)
    | dsimp only

theorem cw_gatherInstr (g t vd rb off vo : Nat) (s : State) : CmdWithin 9007199255576577 (.gatherInstr g t vd rb off vo) s := by
  refine ⟨_, rfl, ?_⟩
  repeat' first
    | exact (rfl : (_ : Nat) = _)
    | exact (rfl : (_ : Bool) = _)
    | with_reducible first
      | exact wNil
      | apply Within.mono (w_addTxns ..)
      | refine w_issueMem ?_ (fun _ => ?_)
      | apply Within.mono (w_threadFault ..)
    | (simp only [fieldOf]; decide)
    | intro _
    | split
    | extract_lets
    | (refine wRun ?_; split <;> intro _)
    | dsimp only

theorem cw_scatterInstr (g t vs rb off vo : Nat) (s : State) : CmdWithin 9007199255576577 (.scatterInstr g t vs rb off vo) s := by
  refine ⟨_, rfl, ?_⟩
  repeat' first
    | exact (rfl : (_ : Nat) = _)
    | exact (rfl : (_ : Bool) = _)
    | with_reducible first
      | exact wNil
      | apply Within.mono (w_addTxns ..)
      | refine w_issueMem ?_ (fun _ => ?_)
      | apply Within.mono (w_threadFault ..)
    | (simp only [fieldOf]; decide)
    | intro _
    | split
    | extract_lets
    | (refine wRun ?_; split <;> intro _)
    | dsimp only

theorem cw_atomicInstruction (g t : Nat) (kind : AtomicKind) (ret : Bool) (width rd rb off rv rc : Nat) (s : State) : CmdWithin 9007199255576577 (.atomicInstruction g t kind ret width rd rb off rv rc) s := by
  refine ⟨_, rfl, ?_⟩
  repeat' first
    | exact (rfl : (_ : Nat) = _)
    | exact (rfl : (_ : Bool) = _)
    | with_reducible first
      | exact wNil | refine wIf ?_ ?_ | refine wIfAct ?_ ?_ | refine wCons ?_ ?_ | refine wApp ?_ ?_
      | apply Within.mono (w_addTxns ..)
      | refine w_issueMem ?_ (fun _ => ?_)
      | apply Within.mono (w_threadFault ..)
    | (simp only [fieldOf]; decide)
    | intro _
    | split
    | extract_lets
    | (refine wRun ?_; split <;> intro _)
    | dsimp only

theorem cw_spawn (g t t2 re ra rd : Nat) (s : State) : CmdWithin 9007199255527425 (.spawn g t t2 re ra rd) s := by
  refine ⟨_, rfl, ?_⟩
  repeat' first
    | exact (rfl : (_ : Nat) = _)
    | exact (rfl : (_ : Bool) = _)
    | with_reducible first
      | exact wNil | exact wSeqNil | refine wSeq ?_ (fun _ => ?_) | refine wIf ?_ ?_ | refine wIfAct ?_ ?_
      | refine w_issue ?_ (fun _ => ?_)
      | apply Within.mono (w_setF_hi _ _ _ ?_)
      | apply Within.mono (w_setThr ..)
    | (simp only [fieldOf]; decide)
    | (show 0x200000200000 ≤ _; (try simp only [CORE_STAT, CORE_STAT_THREADS, coreBase]); (repeat' split) <;> omega)
    | intro _
    | split
    | extract_lets
    | (refine wRun ?_; split <;> intro _)
    | dsimp only

theorem cw_halt (g t : Nat) (s : State) : CmdWithin 9007199255527425 (.halt g t) s := by
  refine ⟨_, rfl, ?_⟩
  repeat' first
    | exact (rfl : (_ : Nat) = _)
    | exact (rfl : (_ : Bool) = _)
    | with_reducible first
      | exact wNil | exact wSeqNil | refine wSeq ?_ (fun _ => ?_) | refine wIf ?_ ?_ | refine wIfAct ?_ ?_
      | refine w_issue ?_ (fun _ => ?_)
      | apply Within.mono (w_raisePending ..)
      | apply Within.mono (w_setF_hi _ _ _ ?_)
      | apply Within.mono (w_setThr ..)
    | (simp only [fieldOf]; decide)
    | (show 0x200000200000 ≤ _; (try simp only [CORE_STAT, CORE_STAT_THREADS, coreBase]); (repeat' split) <;> omega)
    | intro _
    | split
    | extract_lets
    | (refine wRun ?_; split <;> intro _)
    | dsimp only

theorem cw_waitWord (g t rb off pitch count timeout rd rres : Nat) (s : State) : CmdWithin 9007199259721729 (.waitWord g t rb off pitch count timeout rd rres) s := by
  refine ⟨_, rfl, ?_⟩
  repeat' first
    | exact (rfl : (_ : Nat) = _)
    | exact (rfl : (_ : Bool) = _)
    | with_reducible first
      | exact wNil | exact wSeqNil | refine wSeq ?_ (fun _ => ?_) | refine wIf ?_ ?_ | refine wIfAct ?_ ?_
      | apply Within.mono (w_endWait ..)
      | refine w_issue ?_ (fun _ => ?_)
      | apply Within.mono (w_placeWatch ..)
      | apply Within.mono (w_setThr ..)
      | apply Within.mono (w_threadFault ..)
    | (simp only [fieldOf]; decide)
    | intro _
    | split
    | extract_lets
    | (refine wRun ?_; split <;> intro _)
    | dsimp only

theorem cw_waite (g t e ticket : Nat) (s : State) : CmdWithin 9020397099679747 (.waite g t e ticket) s := by
  refine ⟨_, rfl, ?_⟩
  repeat' first
    | exact (rfl : (_ : Nat) = _)
    | exact (rfl : (_ : Bool) = _)
    | with_reducible first
      | exact wNil | exact wSeqNil | refine wSeq ?_ (fun _ => ?_)
      | refine w_issue ?_ (fun _ => ?_)
      | apply Within.mono (w_setThr ..)
      | apply Within.mono (w_settleThread ..)
    | (simp only [fieldOf]; decide)
    | intro _
    | split
    | extract_lets
    | (refine wRun ?_; split <;> intro _)
    | dsimp only

theorem cw_signalInstr (g t rb off inc status : Nat) (s : State) : CmdWithin 9020397099679747 (.signalInstr g t rb off inc status) s := by
  refine ⟨_, rfl, ?_⟩
  repeat' first
    | exact (rfl : (_ : Nat) = _)
    | exact (rfl : (_ : Bool) = _)
    | with_reducible first
      | exact wNil | exact wSeqNil | refine wSeq ?_ (fun _ => ?_) | refine wIf ?_ ?_ | refine wIfAct ?_ ?_
      | refine w_issue ?_ (fun _ => ?_)
      | apply Within.mono (w_raisePending ..)
      | apply Within.mono (w_setThr ..)
      | apply Within.mono (w_settleThread ..)
      | apply Within.mono (w_threadFault ..)
    | (simp only [fieldOf]; decide)
    | intro _
    | split
    | extract_lets
    | (refine wRun ?_; split <;> intro _)
    | dsimp only

theorem cw_fenceInstr (g t m : Nat) (s : State) : CmdWithin 9020397099679747 (.fenceInstr g t m) s := by
  refine ⟨_, rfl, ?_⟩
  repeat' first
    | exact (rfl : (_ : Nat) = _)
    | exact (rfl : (_ : Bool) = _)
    | with_reducible first
      | exact wNil | exact wSeqNil | refine wSeq ?_ (fun _ => ?_) | refine wIf ?_ ?_ | refine wIfAct ?_ ?_
      | refine w_issue ?_ (fun _ => ?_)
      | apply Within.mono (w_raisePending ..)
      | apply Within.mono (w_setThr ..)
      | apply Within.mono (w_settleThread ..)
    | (simp only [fieldOf]; decide)
    | intro _
    | split
    | extract_lets
    | (refine wRun ?_; split <;> intro _)
    | dsimp only

theorem cw_tensorIssue (g t e rt : Nat) (op : TensorOp) (s : State) : CmdWithin 9007199256576001 (.tensorIssue g t e rt op) s := by
  refine ⟨_, rfl, ?_⟩
  repeat' first
    | exact (rfl : (_ : Nat) = _)
    | exact (rfl : (_ : Bool) = _)
    | with_reducible first
      | exact wNil | exact wSeqNil | refine wSeq ?_ (fun _ => ?_) | refine wIf ?_ ?_ | refine wIfAct ?_ ?_ | refine wApp ?_ ?_
      | refine w_issue ?_ (fun _ => ?_)
      | apply Within.mono (w_setEng ..)
      | apply Within.mono (w_setF_hi _ _ _ ?_)
      | apply Within.mono (w_setThr ..)
      | apply Within.mono (w_threadFault ..)
    | (simp only [fieldOf]; decide)
    | (show 0x200000200000 ≤ _; (try simp only [ENG_DONE, ENG_QDEPTH, ENG_QDEPTH_DEPTH, coreBase]); (repeat' split) <;> omega)
    | intro _
    | split
    | extract_lets
    | (refine wRun ?_; split <;> intro _)
    | dsimp only

theorem cw_watchValueDelivered (g : Nat) (s : State) : CmdWithin 13369345 (.watchValueDelivered g) s := by
  refine ⟨_, rfl, ?_⟩
  repeat' first
    | exact (rfl : (_ : Nat) = _)
    | exact (rfl : (_ : Bool) = _)
    | with_reducible first
      | exact wNil | exact wSeqNil | refine wSeq ?_ (fun _ => ?_) | refine wWhen ?_ | refine wIf ?_ ?_ | refine wIfAct ?_ ?_ | refine wCons ?_ ?_ | refine wEach (fun _ _ => ?_)
      | apply Within.mono (w_endWait ..)
      | apply Within.mono (w_incReg_hi _ _ ?_)
      | apply Within.mono (w_placeWatch ..)
    | (simp only [fieldOf]; decide)
    | (show 0x200000200000 ≤ _; (try simp only [CORE_STALE_CNT, coreBase]); (repeat' split) <;> omega)
    | intro _
    | split
    | extract_lets
    | (refine wRun ?_; split <;> intro _)
    | dsimp only

theorem cw_waitPoll (g t : Nat) (s : State) : CmdWithin 262144 (.waitPoll g t) s := by
  refine ⟨_, rfl, ?_⟩
  repeat' first
    | exact (rfl : (_ : Nat) = _)
    | exact (rfl : (_ : Bool) = _)
    | with_reducible first
      | exact wNil | refine wIf ?_ ?_ | refine wIfAct ?_ ?_
      | apply Within.mono (w_endWait ..)
    | (simp only [fieldOf]; decide)
    | intro _
    | split
    | extract_lets
    | (refine wRun ?_; split <;> intro _)
    | dsimp only

theorem cw_waitTimeout (g t : Nat) (s : State) : CmdWithin 262144 (.waitTimeout g t) s := by
  refine ⟨_, rfl, ?_⟩
  repeat' first
    | exact (rfl : (_ : Nat) = _)
    | exact (rfl : (_ : Bool) = _)
    | with_reducible first
      | exact wNil | refine wIf ?_ ?_ | refine wIfAct ?_ ?_
      | apply Within.mono (w_endWait ..)
    | (simp only [fieldOf]; decide)
    | intro _
    | split
    | extract_lets
    | (refine wRun ?_; split <;> intro _)
    | dsimp only

theorem cw_mma (g e : Nat) (s : State) : CmdWithin 9020397099417635 (.mma g e) s := by
  refine ⟨_, rfl, ?_⟩
  repeat' first
    | exact (rfl : (_ : Nat) = _)
    | exact (rfl : (_ : Bool) = _)
    | with_reducible first
      | exact wNil
      | apply Within.mono (w_runHead ..)
    | (simp only [fieldOf]; decide)
    | intro _
    | split
    | extract_lets
    | (refine wRun ?_; split <;> intro _)
    | dsimp only

theorem cw_mmaSp (g e : Nat) (s : State) : CmdWithin 9020397099417635 (.mmaSp g e) s := by
  refine ⟨_, rfl, ?_⟩
  repeat' first
    | exact (rfl : (_ : Nat) = _)
    | exact (rfl : (_ : Bool) = _)
    | with_reducible first
      | exact wNil
      | apply Within.mono (w_runHead ..)
    | (simp only [fieldOf]; decide)
    | intro _
    | split
    | extract_lets
    | (refine wRun ?_; split <;> intro _)
    | dsimp only

theorem cw_accCvt (g e : Nat) (s : State) : CmdWithin 9020397099417635 (.accCvt g e) s := by
  refine ⟨_, rfl, ?_⟩
  repeat' first
    | exact (rfl : (_ : Nat) = _)
    | exact (rfl : (_ : Bool) = _)
    | with_reducible first
      | exact wNil
      | apply Within.mono (w_runHead ..)
    | (simp only [fieldOf]; decide)
    | intro _
    | split
    | extract_lets
    | (refine wRun ?_; split <;> intro _)
    | dsimp only

theorem cw_accClr (g e : Nat) (s : State) : CmdWithin 9020397099417635 (.accClr g e) s := by
  refine ⟨_, rfl, ?_⟩
  repeat' first
    | exact (rfl : (_ : Nat) = _)
    | exact (rfl : (_ : Bool) = _)
    | with_reducible first
      | exact wNil
      | apply Within.mono (w_runHead ..)
    | (simp only [fieldOf]; decide)
    | intro _
    | split
    | extract_lets
    | (refine wRun ?_; split <;> intro _)
    | dsimp only

theorem cw_engineOpFinish (g e : Nat) (s : State) : CmdWithin 9020397101785091 (.engineOpFinish g e) s := by
  refine ⟨_, rfl, ?_⟩
  repeat' first
    | exact (rfl : (_ : Nat) = _)
    | exact (rfl : (_ : Bool) = _)
    | with_reducible first
      | exact wNil | exact wSeqNil | refine wSeq ?_ (fun _ => ?_) | refine wIf ?_ ?_ | refine wIfAct ?_ ?_
      | apply Within.mono (w_heldRelease ..)
      | apply Within.mono (w_setEng ..)
      | apply Within.mono (w_setF_hi _ _ _ ?_)
      | apply Within.mono (w_settleCore ..)
      | apply Within.mono (w_wr_hi _ _ _ ?_)
    | (simp only [fieldOf]; decide)
    | (show 0x200000200000 ≤ _; (try simp only [ENG_DONE, ENG_QDEPTH, ENG_QDEPTH_DEPTH, coreBase]); (repeat' split) <;> omega)
    | intro _
    | split
    | extract_lets
    | (refine wRun ?_; split <;> intro _)
    | dsimp only

theorem cw_coreClockGate (g : Nat) (s : State) : CmdWithin 0 (.coreClockGate g) s := by
  refine ⟨_, rfl, ?_⟩
  repeat' first
    | exact (rfl : (_ : Nat) = _)
    | exact (rfl : (_ : Bool) = _)
    | with_reducible first
      | exact wNil | exact wNop
    | (simp only [fieldOf]; decide)
    | intro _
    | split
    | extract_lets
    | (refine wRun ?_; split <;> intro _)
    | dsimp only

theorem cw_bankPhaseStart (d p k now : Nat) (s : State) : CmdWithin 100663307 (.bankPhaseStart d p k now) s := by
  refine ⟨_, rfl, ?_⟩
  repeat' first
    | exact (rfl : (_ : Nat) = _)
    | exact (rfl : (_ : Bool) = _)
    | with_reducible first
      | exact wNil | exact wSeqNil | refine wSeq ?_ (fun _ => ?_) | refine wWhen ?_
      | apply Within.mono (w_advance ..)
      | apply Within.mono (w_phaseBegin ..)
    | (simp only [fieldOf]; decide)
    | intro _
    | split
    | extract_lets
    | (refine wRun ?_; split <;> intro _)
    | dsimp only

theorem cw_bankDark (d b cyc : Nat) (s : State) : CmdWithin 113246211 (.bankDark d b cyc) s := by
  refine ⟨_, rfl, ?_⟩
  repeat' first
    | exact (rfl : (_ : Nat) = _)
    | exact (rfl : (_ : Bool) = _)
    | with_reducible first
      | exact wNil | exact wSeqNil | refine wSeq ?_ (fun _ => ?_) | refine wWhen ?_ | refine wIf ?_ ?_ | refine wIfAct ?_ ?_ | refine wUpd ?_
      | apply Within.mono (w_loseContents ..)
      | apply Within.mono (w_releaseBankWatches ..)
      | apply Within.mono (w_setF_hi _ _ _ ?_)
    | (simp only [fieldOf]; decide)
    | (show 0x200000200000 ≤ _; (try simp only [BNK_INFL, BNK_INFL_COUNT, BNK_INFL_PDW_MAX, BNK_PWR, BNK_PWR_STATE]); (repeat' split) <;> omega)
    | intro _
    | split
    | extract_lets
    | (refine wRun ?_; split <;> intro _)
    | dsimp only

theorem cw_bankWakeDone (d b : Nat) (s : State) : CmdWithin 13197897375747 (.bankWakeDone d b) s := by
  refine ⟨_, rfl, ?_⟩
  repeat' first
    | exact (rfl : (_ : Nat) = _)
    | exact (rfl : (_ : Bool) = _)
    | with_reducible first
      | exact wNil | exact wSeqNil | refine wSeq ?_ (fun _ => ?_) | refine wIf ?_ ?_ | refine wIfAct ?_ ?_
      | apply Within.mono (w_bankAwake ..)
      | apply Within.mono (w_bankSettle ..)
      | apply Within.mono (w_wakeRelease ..)
    | (simp only [fieldOf]; decide)
    | intro _
    | split
    | extract_lets
    | (refine wRun ?_; split <;> intro _)
    | dsimp only

theorem cw_bankOvrWrite (src : Master) (d b : Nat) (v : Bool) (s : State) : CmdWithin 3221225473 (.bankOvrWrite src d b v) s := by
  refine ⟨_, rfl, ?_⟩
  repeat' first
    | exact (rfl : (_ : Nat) = _)
    | exact (rfl : (_ : Bool) = _)
    | with_reducible first
      | exact wNil | refine wIf ?_ ?_ | refine wIfAct ?_ ?_
      | refine w_guarded ?_ (fun _ => ?_)
      | apply Within.mono (w_setF_hi _ _ _ ?_)
    | (simp only [fieldOf]; decide)
    | (show 0x200000200000 ≤ _; (try simp only [BNK_PWR, BNK_PWR_OVR]); (repeat' split) <;> omega)
    | intro _
    | split
    | extract_lets
    | (refine wRun ?_; split <;> intro _)
    | dsimp only

theorem cw_scrubIntervalWrite (src : Master) (d v : Nat) (s : State) : CmdWithin 3221225473 (.scrubIntervalWrite src d v) s := by
  refine ⟨_, rfl, ?_⟩
  repeat' first
    | exact (rfl : (_ : Nat) = _)
    | exact (rfl : (_ : Bool) = _)
    | with_reducible first
      | exact wNil
      | refine w_guarded ?_ (fun _ => ?_)
      | apply Within.mono (w_scrubInterval ..)
    | (simp only [fieldOf]; decide)
    | intro _
    | split
    | extract_lets
    | (refine wRun ?_; split <;> intro _)
    | dsimp only

theorem cw_boxSubmit (r : Req) (s : State) : CmdWithin 13202139652099 (.boxSubmit r) s := by
  refine ⟨_, rfl, ?_⟩
  repeat' first
    | exact (rfl : (_ : Nat) = _)
    | exact (rfl : (_ : Bool) = _)
    | with_reducible first
      | exact wNil | exact wNop | exact wSeqNil | refine wSeq ?_ (fun _ => ?_) | refine wIf ?_ ?_ | refine wIfAct ?_ ?_
      | apply Within.mono (w_boxSubmit ..)
      | apply Within.mono (w_respond ..)
    | (simp only [fieldOf]; decide)
    | intro _
    | split
    | extract_lets
    | (refine wRun ?_; split <;> intro _)
    | dsimp only

theorem cw_boxRequestStart  (s : State) : CmdWithin 12884901889 (.boxRequestStart ) s := by
  refine ⟨_, rfl, ?_⟩
  repeat' first
    | exact (rfl : (_ : Nat) = _)
    | exact (rfl : (_ : Bool) = _)
    | with_reducible first
      | exact wNil | exact wSeqNil | refine wSeq ?_ (fun _ => ?_) | refine wIf ?_ ?_ | refine wIfAct ?_ ?_ | refine wUpd ?_
      | apply Within.mono (w_boxShow ..)
    | (simp only [fieldOf]; decide)
    | intro _
    | split
    | extract_lets
    | (refine wRun ?_; split <;> intro _)
    | dsimp only

theorem cw_boxRequestDone (cyc : Nat) (s : State) : CmdWithin 13206434611203 (.boxRequestDone cyc) s := by
  refine ⟨_, rfl, ?_⟩
  repeat' first
    | exact (rfl : (_ : Nat) = _)
    | exact (rfl : (_ : Bool) = _)
    | with_reducible first
      | exact wNil | exact wSeqNil | refine wSeq ?_ (fun _ => ?_) | refine wWhen ?_ | refine wIf ?_ ?_ | refine wIfAct ?_ ?_ | refine wUpd ?_
      | apply Within.mono (w_addReg_hi _ _ _ ?_)
      | apply Within.mono (w_boxFail ..)
      | apply Within.mono (w_boxShow ..)
      | apply Within.mono (w_inc64_hi _ _ _ ?_)
      | apply Within.mono (w_incReg_hi _ _ ?_)
      | apply Within.mono (w_signalWord ..)
      | apply Within.mono (w_unitWrite ..)
    | (simp only [fieldOf]; decide)
    | (show 0x200000200000 ≤ _; (try simp only [BOX_BUSY_LO, BOX_DONE_CNT, BOX_NAN_CNT, BOX_TRUNC_CNT]); (repeat' split) <;> omega)
    | intro _
    | split
    | extract_lets
    | (refine wRun ?_; split <;> intro _)
    | dsimp only

theorem cw_boxDisable (src : Master) (s : State) : CmdWithin 3221225473 (.boxDisable src) s := by
  refine ⟨_, rfl, ?_⟩
  repeat' first
    | exact (rfl : (_ : Nat) = _)
    | exact (rfl : (_ : Bool) = _)
    | with_reducible first
      | exact wNil
      | refine w_guarded ?_ (fun _ => ?_)
      | apply Within.mono (w_writeEnable _ _ _ _ ?_ ?_)
    | (simp only [fieldOf]; decide)
    | (show 0x200000200000 ≤ _; (try simp only [BOX_CTL, BOX_CTL_EN, BOX_STAT, BOX_STAT_STATE]); (repeat' split) <;> omega)
    | intro _
    | split
    | extract_lets
    | (refine wRun ?_; split <;> intro _)
    | dsimp only

theorem cw_kvOpen (r : Req) (s : State) : CmdWithin 13215024553987 (.kvOpen r) s := by
  refine ⟨_, rfl, ?_⟩
  repeat' first
    | exact (rfl : (_ : Nat) = _)
    | exact (rfl : (_ : Bool) = _)
    | with_reducible first
      | exact wNil
      | apply Within.mono (w_kvCommand ..)
    | (simp only [fieldOf]; decide)
    | intro _
    | split
    | extract_lets
    | (refine wRun ?_; split <;> intro _)
    | dsimp only

theorem cw_kvAppend (r : Req) (s : State) : CmdWithin 13215024553987 (.kvAppend r) s := by
  refine ⟨_, rfl, ?_⟩
  repeat' first
    | exact (rfl : (_ : Nat) = _)
    | exact (rfl : (_ : Bool) = _)
    | with_reducible first
      | exact wNil
      | apply Within.mono (w_kvCommand ..)
    | (simp only [fieldOf]; decide)
    | intro _
    | split
    | extract_lets
    | (refine wRun ?_; split <;> intro _)
    | dsimp only

theorem cw_kvRelease (r : Req) (s : State) : CmdWithin 13215024553987 (.kvRelease r) s := by
  refine ⟨_, rfl, ?_⟩
  repeat' first
    | exact (rfl : (_ : Nat) = _)
    | exact (rfl : (_ : Bool) = _)
    | with_reducible first
      | exact wNil
      | apply Within.mono (w_kvCommand ..)
    | (simp only [fieldOf]; decide)
    | intro _
    | split
    | extract_lets
    | (refine wRun ?_; split <;> intro _)
    | dsimp only

theorem cw_kvRollback (r : Req) (s : State) : CmdWithin 13215024553987 (.kvRollback r) s := by
  refine ⟨_, rfl, ?_⟩
  repeat' first
    | exact (rfl : (_ : Nat) = _)
    | exact (rfl : (_ : Bool) = _)
    | with_reducible first
      | exact wNil
      | apply Within.mono (w_kvCommand ..)
    | (simp only [fieldOf]; decide)
    | intro _
    | split
    | extract_lets
    | (refine wRun ?_; split <;> intro _)
    | dsimp only

theorem cw_kvWorkStart (d : Nat) (s : State) : CmdWithin 13215024545795 (.kvWorkStart d) s := by
  refine ⟨_, rfl, ?_⟩
  repeat' first
    | exact (rfl : (_ : Nat) = _)
    | exact (rfl : (_ : Bool) = _)
    | with_reducible first
      | exact wNil | refine wIf ?_ ?_ | refine wIfAct ?_ ?_
      | apply Within.mono (w_kvStart ..)
    | (simp only [fieldOf]; decide)
    | intro _
    | split
    | extract_lets
    | (refine wRun ?_; split <;> intro _)
    | dsimp only

theorem cw_appendCommit (c : Nat) (s : State) : CmdWithin 13215024545795 (.appendCommit c) s := by
  refine ⟨_, rfl, ?_⟩
  repeat' first
    | exact (rfl : (_ : Nat) = _)
    | exact (rfl : (_ : Bool) = _)
    | with_reducible first
      | exact wNil | exact wSeqNil | refine wSeq ?_ (fun _ => ?_) | refine wWhen ?_ | refine wIf ?_ ?_ | refine wIfAct ?_ ?_ | refine wApp ?_ ?_ | refine wEach (fun _ _ => ?_)
      | apply Within.mono (w_kvEndFail ..)
      | apply Within.mono (w_kvEndOk ..)
      | apply Within.mono (w_recPut ..)
      | apply Within.mono (w_recSlot ..)
      | apply Within.mono (w_refBlock ..)
      | apply Within.mono (w_setKv ..)
      | apply Within.mono (w_treeInsert ..)
    | (simp only [fieldOf]; decide)
    | intro _
    | split
    | extract_lets
    | (refine wRun ?_; split <;> intro _)
    | dsimp only

theorem cw_kvMirrorFail (c : Nat) (s : State) : CmdWithin 1 (.kvMirrorFail c) s := by
  refine ⟨_, rfl, ?_⟩
  repeat' first
    | exact (rfl : (_ : Nat) = _)
    | exact (rfl : (_ : Bool) = _)
    | with_reducible first
      | exact wNil | refine wIf ?_ ?_ | refine wIfAct ?_ ?_
      | apply Within.mono (w_kvUnmirror ..)
    | (simp only [fieldOf]; decide)
    | intro _
    | split
    | extract_lets
    | (refine wRun ?_; split <;> intro _)
    | dsimp only

theorem cw_kvcDisable (src : Master) (d : Nat) (s : State) : CmdWithin 3221225473 (.kvcDisable src d) s := by
  refine ⟨_, rfl, ?_⟩
  repeat' first
    | exact (rfl : (_ : Nat) = _)
    | exact (rfl : (_ : Bool) = _)
    | with_reducible first
      | exact wNil
      | refine w_guarded ?_ (fun _ => ?_)
      | apply Within.mono (w_writeEnable _ _ _ _ ?_ ?_)
    | (simp only [fieldOf]; decide)
    | (show 0x200000200000 ≤ _; (try simp only [KVC_CTL, KVC_CTL_EN, KVC_STAT, KVC_STAT_STATE]); (repeat' split) <;> omega)
    | intro _
    | split
    | extract_lets
    | (refine wRun ?_; split <;> intro _)
    | dsimp only

theorem cw_lendWindowStart (d c now : Nat) (s : State) : CmdWithin 9020397099417643 (.lendWindowStart d c now) s := by
  refine ⟨_, rfl, ?_⟩
  repeat' first
    | exact (rfl : (_ : Nat) = _)
    | exact (rfl : (_ : Bool) = _)
    | with_reducible first
      | exact wNil | exact wSeqNil | refine wSeq ?_ (fun _ => ?_) | refine wIf ?_ ?_ | refine wIfAct ?_ ?_ | refine wEach (fun _ _ => ?_)
      | apply Within.mono (w_advance ..)
      | apply Within.mono (w_clkShow ..)
      | apply Within.mono (w_preempt ..)
      | apply Within.mono (w_setF_hi _ _ _ ?_)
    | (simp only [fieldOf]; decide)
    | (show 0x200000200000 ≤ _; (try simp only [PRT_LEND, PRT_LEND_LSTATE, PRT_WEND, PRT_WEND_US, PRT_WSTART, PRT_WSTART_US]); (repeat' split) <;> omega)
    | intro _
    | split
    | extract_lets
    | (refine wRun ?_; split <;> intro _)
    | dsimp only

theorem cw_switchComplete (g : Nat) (s : State) : CmdWithin 604462909820512434413603 (.switchComplete g) s := by
  refine ⟨_, rfl, ?_⟩
  repeat' first
    | exact (rfl : (_ : Nat) = _)
    | exact (rfl : (_ : Bool) = _)
    | with_reducible first
      | exact wNil | exact wSeqNil | refine wSeq ?_ (fun _ => ?_) | refine wIf ?_ ?_ | refine wIfAct ?_ ?_
      | apply Within.mono (w_lendSettle ..)
      | apply Within.mono (w_switchBack ..)
      | apply Within.mono (w_switchPark ..)
      | apply Within.mono (w_switchTo ..)
    | (simp only [fieldOf]; decide)
    | intro _
    | split
    | extract_lets
    | (refine wRun ?_; split <;> intro _)
    | dsimp only

theorem cw_lendWindowEnd (d c now : Nat) (s : State) : CmdWithin 13197847060491 (.lendWindowEnd d c now) s := by
  refine ⟨_, rfl, ?_⟩
  repeat' first
    | exact (rfl : (_ : Nat) = _)
    | exact (rfl : (_ : Bool) = _)
    | with_reducible first
      | exact wNil | exact wSeqNil | refine wSeq ?_ (fun _ => ?_) | refine wIf ?_ ?_ | refine wIfAct ?_ ?_
      | apply Within.mono (w_advance ..)
      | apply Within.mono (w_windowClose ..)
    | (simp only [fieldOf]; decide)
    | intro _
    | split
    | extract_lets
    | (refine wRun ?_; split <;> intro _)
    | dsimp only

theorem cw_lendWindowCloseEarly (d c : Nat) (s : State) : CmdWithin 13197847060483 (.lendWindowCloseEarly d c) s := by
  refine ⟨_, rfl, ?_⟩
  repeat' first
    | exact (rfl : (_ : Nat) = _)
    | exact (rfl : (_ : Bool) = _)
    | with_reducible first
      | exact wNil | refine wIf ?_ ?_ | refine wIfAct ?_ ?_
      | apply Within.mono (w_windowClose ..)
    | (simp only [fieldOf]; decide)
    | intro _
    | split
    | extract_lets
    | (refine wRun ?_; split <;> intro _)
    | dsimp only

theorem cw_bivouacRequest (src : Master) (p : Nat) (s : State) : CmdWithin 9020530279342115 (.bivouacRequest src p) s := by
  refine ⟨_, rfl, ?_⟩
  repeat' first
    | exact (rfl : (_ : Nat) = _)
    | exact (rfl : (_ : Bool) = _)
    | with_reducible first
      | exact wNil
      | refine w_guarded ?_ (fun _ => ?_)
      | apply Within.mono (w_parkRequest ..)
    | (simp only [fieldOf]; decide)
    | intro _
    | split
    | extract_lets
    | (refine wRun ?_; split <;> intro _)
    | dsimp only

theorem cw_bivouacClear (src : Master) (p : Nat) (s : State) : CmdWithin 54861496323 (.bivouacClear src p) s := by
  refine ⟨_, rfl, ?_⟩
  repeat' first
    | exact (rfl : (_ : Nat) = _)
    | exact (rfl : (_ : Bool) = _)
    | with_reducible first
      | exact wNil | refine wIf ?_ ?_ | refine wIfAct ?_ ?_
      | refine w_guarded ?_ (fun _ => ?_)
      | apply Within.mono (w_parkClear ..)
    | (simp only [fieldOf]; decide)
    | intro _
    | split
    | extract_lets
    | (refine wRun ?_; split <;> intro _)
    | dsimp only

theorem cw_parkingComplete (p : Nat) (s : State) : CmdWithin 51640270851 (.parkingComplete p) s := by
  refine ⟨_, rfl, ?_⟩
  repeat' first
    | exact (rfl : (_ : Nat) = _)
    | exact (rfl : (_ : Bool) = _)
    | with_reducible first
      | exact wNil | exact wSeqNil | refine wSeq ?_ (fun _ => ?_) | refine wWhen ?_ | refine wIf ?_ ?_ | refine wIfAct ?_ ?_
      | apply Within.mono (w_bivEnter ..)
      | apply Within.mono (w_wakeStart ..)
    | (simp only [fieldOf]; decide)
    | intro _
    | split
    | extract_lets
    | (refine wRun ?_; split <;> intro _)
    | dsimp only

theorem cw_releasedSetReceived (x : Nat) (s : State) : CmdWithin 14507119058760784795926535 (.releasedSetReceived x) s := by
  refine ⟨_, rfl, ?_⟩
  repeat' first
    | exact (rfl : (_ : Nat) = _)
    | exact (rfl : (_ : Bool) = _)
    | with_reducible first
      | exact wNil | exact wSeqNil | refine wSeq ?_ (fun _ => ?_) | refine wWhen ?_ | refine wIf ?_ ?_ | refine wIfAct ?_ ?_ | refine wCons ?_ ?_ | refine wApp ?_ ?_ | refine wEach (fun _ _ => ?_)
      | apply Within.mono (w_ancLogB ..)
      | apply Within.mono (w_belayEnter ..)
      | apply Within.mono (w_setAnc ..)
      | apply Within.mono (w_traceRecord ..)
    | (simp only [fieldOf]; decide)
    | intro _
    | split
    | extract_lets
    | (refine wRun ?_; split <;> intro _)
    | dsimp only

theorem cw_releasedSetTimeout (x now : Nat) (s : State) : CmdWithin 9223372036854775816 (.releasedSetTimeout x now) s := by
  refine ⟨_, rfl, ?_⟩
  repeat' first
    | exact (rfl : (_ : Nat) = _)
    | exact (rfl : (_ : Bool) = _)
    | with_reducible first
      | exact wNil | exact wSeqNil | refine wSeq ?_ (fun _ => ?_) | refine wIf ?_ ?_ | refine wIfAct ?_ ?_
      | apply Within.mono (w_advance ..)
      | apply Within.mono (w_setAnc ..)
    | (simp only [fieldOf]; decide)
    | intro _
    | split
    | extract_lets
    | (refine wRun ?_; split <;> intro _)
    | dsimp only

theorem cw_dmaArm (src : Master) (n ch : Nat) (s : State) : CmdWithin 3221225473 (.dmaArm src n ch) s := by
  refine ⟨_, rfl, ?_⟩
  repeat' first
    | exact (rfl : (_ : Nat) = _)
    | exact (rfl : (_ : Bool) = _)
    | with_reducible first
      | exact wNil | refine wWhen ?_
      | apply Within.mono (w_dmaArm ..)
      | refine w_guarded ?_ (fun _ => ?_)
    | (simp only [fieldOf]; decide)
    | intro _
    | split
    | extract_lets
    | (refine wRun ?_; split <;> intro _)
    | dsimp only

theorem cw_dmaTake (n ch : Nat) (s : State) : CmdWithin 68719476737 (.dmaTake n ch) s := by
  refine ⟨_, rfl, ?_⟩
  repeat' first
    | exact (rfl : (_ : Nat) = _)
    | exact (rfl : (_ : Bool) = _)
    | with_reducible first
      | exact wNil | exact wSeqNil | refine wSeq ?_ (fun _ => ?_) | refine wWhen ?_ | refine wIf ?_ ?_ | refine wIfAct ?_ ?_ | refine wApp ?_ ?_
      | apply Within.mono (w_dmaRecord ..)
      | apply Within.mono (w_setActive ..)
      | apply Within.mono (w_setDch ..)
      | apply Within.mono (w_setF_hi _ _ _ ?_)
      | apply Within.mono (w_wr_hi _ _ _ ?_)
    | (simp only [fieldOf]; decide)
    | (show 0x200000200000 ≤ _; (try simp only [DMA_CH_CTL, DMA_CH_CTL_ARM, DMA_CH_OPC, DMA_CH_STAT, DMA_CH_STAT_RUN, DMA_CH_STAT_STATE, dmaBase]); (repeat' split) <;> omega)
    | intro _
    | split
    | extract_lets
    | (refine wRun ?_; split <;> intro _)
    | dsimp only

theorem cw_dmaChainFetchDone (n ch : Nat) (s : State) : CmdWithin 13266482888705 (.dmaChainFetchDone n ch) s := by
  refine ⟨_, rfl, ?_⟩
  repeat' first
    | exact (rfl : (_ : Nat) = _)
    | exact (rfl : (_ : Bool) = _)
    | with_reducible first
      | exact wNil | exact wSeqNil | refine wSeq ?_ (fun _ => ?_) | refine wWhen ?_ | refine wIf ?_ ?_ | refine wIfAct ?_ ?_
      | apply Within.mono (w_chainFail ..)
      | apply Within.mono (w_dmaRecord ..)
      | apply Within.mono (w_setDch ..)
      | apply Within.mono (w_setF_hi _ _ _ ?_)
      | apply Within.mono (w_setShadow ..)
      | apply Within.mono (w_unitRead ..)
    | (simp only [fieldOf]; decide)
    | (show 0x200000200000 ≤ _; (try simp only [DMA_CH_CTL, DMA_CH_CTL_ARM, dmaBase]); (repeat' split) <;> omega)
    | intro _
    | split
    | extract_lets
    | (refine wRun ?_; split <;> intro _)
    | dsimp only

theorem cw_dmaFetchWrite (src : Master) (n ch lo : Nat) (s : State) : CmdWithin 71940702209 (.dmaFetchWrite src n ch lo) s := by
  refine ⟨_, rfl, ?_⟩
  repeat' first
    | exact (rfl : (_ : Nat) = _)
    | exact (rfl : (_ : Bool) = _)
    | with_reducible first
      | exact wNil | refine wWhen ?_
      | apply Within.mono (w_dmaFetchWrite ..)
      | refine w_guarded ?_ (fun _ => ?_)
    | (simp only [fieldOf]; decide)
    | intro _
    | split
    | extract_lets
    | (refine wRun ?_; split <;> intro _)
    | dsimp only

theorem cw_dmaGo (src : Master) (n ch : Nat) (s : State) : CmdWithin 3221225473 (.dmaGo src n ch) s := by
  refine ⟨_, rfl, ?_⟩
  repeat' first
    | exact (rfl : (_ : Nat) = _)
    | exact (rfl : (_ : Bool) = _)
    | with_reducible first
      | exact wNil
      | apply Within.mono (w_dmaGo ..)
      | refine w_guarded ?_ (fun _ => ?_)
    | (simp only [fieldOf]; decide)
    | intro _
    | split
    | extract_lets
    | (refine wRun ?_; split <;> intro _)
    | dsimp only

theorem cw_dmaDescriptorComplete (n ch : Nat) (s : State) : CmdWithin 604462909820581151506435 (.dmaDescriptorComplete n ch) s := by
  refine ⟨_, rfl, ?_⟩
  repeat' first
    | exact (rfl : (_ : Nat) = _)
    | exact (rfl : (_ : Bool) = _)
    | with_reducible first
      | exact wNil | exact wSeqNil | refine wSeq ?_ (fun _ => ?_) | refine wWhen ?_ | refine wCons ?_ ?_
      | apply Within.mono (w_dmaFault ..)
      | apply Within.mono (w_dmaSignal ..)
      | apply Within.mono (w_incReg_hi _ _ ?_)
      | apply Within.mono (w_setDch ..)
    | (simp only [fieldOf]; decide)
    | (show 0x200000200000 ≤ _; (try simp only [DMA_CH_DONE_CNT, dmaBase]); (repeat' split) <;> omega)
    | intro _
    | split
    | extract_lets
    | (refine wRun ?_; split <;> intro _)
    | dsimp only

theorem cw_dmaDisable (src : Master) (n ch : Nat) (s : State) : CmdWithin 3221225473 (.dmaDisable src n ch) s := by
  refine ⟨_, rfl, ?_⟩
  repeat' first
    | exact (rfl : (_ : Nat) = _)
    | exact (rfl : (_ : Bool) = _)
    | with_reducible first
      | exact wNil
      | refine w_guarded ?_ (fun _ => ?_)
      | apply Within.mono (w_writeEnable _ _ _ _ ?_ ?_)
    | (simp only [fieldOf]; decide)
    | (show 0x200000200000 ≤ _; (try simp only [DMA_CH_CTL, DMA_CH_CTL_EN, DMA_CH_STAT, DMA_CH_STAT_STATE, dmaBase]); (repeat' split) <;> omega)
    | intro _
    | split
    | extract_lets
    | (refine wRun ?_; split <;> intro _)
    | dsimp only

theorem cw_windowCtlWrite (src : Master) (w : Nat) (v : Bool) (s : State) : CmdWithin 3221225473 (.windowCtlWrite src w v) s := by
  refine ⟨_, rfl, ?_⟩
  repeat' first
    | exact (rfl : (_ : Nat) = _)
    | exact (rfl : (_ : Bool) = _)
    | with_reducible first
      | exact wNil | refine wIf ?_ ?_ | refine wIfAct ?_ ?_
      | refine w_guarded ?_ (fun _ => ?_)
      | apply Within.mono (w_setF_hi _ _ _ ?_)
    | (simp only [fieldOf]; decide)
    | (show 0x200000200000 ≤ _; (try simp only [DMA_WIN_CTL, DMA_WIN_CTL_OPEN]); (repeat' split) <;> omega)
    | intro _
    | split
    | extract_lets
    | (refine wRun ?_; split <;> intro _)
    | dsimp only

theorem cw_regulatedRequestEntry (src : Master) (tag prio : Nat) (isRead : Bool) (now : Nat) (s : State) : CmdWithin 412316860425 (.regulatedRequestEntry src tag prio isRead now) s := by
  refine ⟨_, rfl, ?_⟩
  repeat' first
    | exact (rfl : (_ : Nat) = _)
    | exact (rfl : (_ : Bool) = _)
    | with_reducible first
      | exact wNil | exact wSeqNil | refine wSeq ?_ (fun _ => ?_) | refine wIf ?_ ?_ | refine wIfAct ?_ ?_
      | apply Within.mono (w_advance ..)
      | apply Within.mono (w_regEnter ..)
    | (simp only [fieldOf]; decide)
    | intro _
    | split
    | extract_lets
    | (refine wRun ?_; split <;> intro _)
    | dsimp only

theorem cw_regulatedReadResponse (src : Master) (tag now : Nat) (s : State) : CmdWithin 137438953481 (.regulatedReadResponse src tag now) s := by
  refine ⟨_, rfl, ?_⟩
  repeat' first
    | exact (rfl : (_ : Nat) = _)
    | exact (rfl : (_ : Bool) = _)
    | with_reducible first
      | exact wNil | exact wSeqNil | refine wSeq ?_ (fun _ => ?_)
      | apply Within.mono (w_advance ..)
      | apply Within.mono (w_regLeave ..)
      | apply Within.mono (w_setF_hi _ _ _ ?_)
    | (simp only [fieldOf]; decide)
    | (show 0x200000200000 ≤ _; (try simp only [REG_LAT, REG_LAT_AVG, REG_LAT_MAX, REG_LAT_TGT, REG_LAT_TGT_NS, REG_STAT, REG_STAT_BOOST]); (repeat' split) <;> omega)
    | intro _
    | split
    | extract_lets
    | (refine wRun ?_; split <;> intro _)
    | dsimp only

theorem cw_regBudgetWrite (src : Master) (p v : Nat) (s : State) : CmdWithin 3221225473 (.regBudgetWrite src p v) s := by
  refine ⟨_, rfl, ?_⟩
  repeat' first
    | exact (rfl : (_ : Nat) = _)
    | exact (rfl : (_ : Bool) = _)
    | with_reducible first
      | exact wNil
      | apply Within.mono (w_budgetWrite ..)
      | refine w_guarded ?_ (fun _ => ?_)
    | (simp only [fieldOf]; decide)
    | intro _
    | split
    | extract_lets
    | (refine wRun ?_; split <;> intro _)
    | dsimp only

theorem cw_dramSchedule (u now : Nat) (blocked : List Nat) (thr : Nat) (s : State) : CmdWithin 2268845949329419 (.dramSchedule u now blocked thr) s := by
  refine ⟨_, rfl, ?_⟩
  repeat' first
    | exact (rfl : (_ : Nat) = _)
    | exact (rfl : (_ : Bool) = _)
    | with_reducible first
      | exact wNil | exact wSeqNil | refine wSeq ?_ (fun _ => ?_) | refine wWhen ?_ | refine wIf ?_ ?_ | refine wIfAct ?_ ?_
      | apply Within.mono (w_activate ..)
      | apply Within.mono (w_advance ..)
      | apply Within.mono (w_dramPerform ..)
      | apply Within.mono (w_incReg_hi _ _ ?_)
      | apply Within.mono (w_precharge ..)
      | apply Within.mono (w_setSub ..)
    | (simp only [fieldOf]; decide)
    | (show 0x200000200000 ≤ _; (try simp only [REG_OLD_CNT]); (repeat' split) <;> omega)
    | intro _
    | split
    | extract_lets
    | (refine wRun ?_; split <;> intro _)
    | dsimp only

theorem cw_bankIdlePrecharge (u b now : Nat) (s : State) : CmdWithin 549755813896 (.bankIdlePrecharge u b now) s := by
  refine ⟨_, rfl, ?_⟩
  repeat' first
    | exact (rfl : (_ : Nat) = _)
    | exact (rfl : (_ : Bool) = _)
    | with_reducible first
      | exact wNil | exact wSeqNil | refine wSeq ?_ (fun _ => ?_) | refine wIf ?_ ?_ | refine wIfAct ?_ ?_ | refine wApp ?_ ?_
      | apply Within.mono (w_advance ..)
      | apply Within.mono (w_precharge ..)
    | (simp only [fieldOf]; decide)
    | intro _
    | split
    | extract_lets
    | (refine wRun ?_; split <;> intro _)
    | dsimp only

theorem cw_refresh (u b : Nat) (burst : Bool) (thr : Nat) (s : State) : CmdWithin 549755813888 (.refresh u b burst thr) s := by
  refine ⟨_, rfl, ?_⟩
  repeat' first
    | exact (rfl : (_ : Nat) = _)
    | exact (rfl : (_ : Bool) = _)
    | with_reducible first
      | exact wNil | exact wSeqNil | refine wSeq ?_ (fun _ => ?_) | refine wIf ?_ ?_ | refine wIfAct ?_ ?_
      | apply Within.mono (w_precharge ..)
      | apply Within.mono (w_setSub ..)
    | (simp only [fieldOf]; decide)
    | intro _
    | split
    | extract_lets
    | (refine wRun ?_; split <;> intro _)
    | dsimp only

theorem cw_mr4Read (c : Nat) (hot : Bool) (s : State) : CmdWithin 1 (.mr4Read c hot) s := by
  refine ⟨_, rfl, ?_⟩
  repeat' first
    | exact (rfl : (_ : Nat) = _)
    | exact (rfl : (_ : Bool) = _)
    | with_reducible first
      | exact wNil | exact wNop | refine wIf ?_ ?_ | refine wIfAct ?_ ?_
      | apply Within.mono (w_setF_hi _ _ _ ?_)
    | (simp only [fieldOf]; decide)
    | (show 0x200000200000 ≤ _; (try simp only [DDR_CH_STAT, DDR_CH_STAT_HOT]); (repeat' split) <;> omega)
    | intro _
    | split
    | extract_lets
    | (refine wRun ?_; split <;> intro _)
    | dsimp only

theorem cw_rowTrackerClear  (s : State) : CmdWithin 1099511627776 (.rowTrackerClear ) s := by
  refine ⟨_, rfl, ?_⟩
  repeat' first
    | exact (rfl : (_ : Nat) = _)
    | exact (rfl : (_ : Bool) = _)
    | with_reducible first
      | exact wNil | refine wUpd ?_ | refine wEach (fun _ _ => ?_)
    | (simp only [fieldOf]; decide)
    | intro _
    | split
    | extract_lets
    | (refine wRun ?_; split <;> intro _)
    | dsimp only

theorem cw_throttleExpire (c port now : Nat) (s : State) : CmdWithin 2199023255561 (.throttleExpire c port now) s := by
  refine ⟨_, rfl, ?_⟩
  repeat' first
    | exact (rfl : (_ : Nat) = _)
    | exact (rfl : (_ : Bool) = _)
    | with_reducible first
      | exact wNil | exact wSeqNil | refine wSeq ?_ (fun _ => ?_) | refine wCons ?_ ?_
      | apply Within.mono (w_advance ..)
      | apply Within.mono (w_showThrottles ..)
    | (simp only [fieldOf]; decide)
    | intro _
    | split
    | extract_lets
    | (refine wRun ?_; split <;> intro _)
    | dsimp only

theorem cw_patrolScrub (c : Nat) (s : State) : CmdWithin 30786459795457 (.patrolScrub c) s := by
  refine ⟨_, rfl, ?_⟩
  repeat' first
    | exact (rfl : (_ : Nat) = _)
    | exact (rfl : (_ : Bool) = _)
    | with_reducible first
      | exact wNil | exact wSeqNil | refine wSeq ?_ (fun _ => ?_) | refine wIf ?_ ?_ | refine wIfAct ?_ ?_ | refine wUpd ?_
      | apply Within.mono (w_dramTouch ..)
    | (simp only [fieldOf]; decide)
    | intro _
    | split
    | extract_lets
    | (refine wRun ?_; split <;> intro _)
    | dsimp only

theorem cw_ddrFcTargetWrite (src : Master) (v : Nat) (s : State) : CmdWithin 1125903128068097 (.ddrFcTargetWrite src v) s := by
  refine ⟨_, rfl, ?_⟩
  repeat' first
    | exact (rfl : (_ : Nat) = _)
    | exact (rfl : (_ : Bool) = _)
    | with_reducible first
      | exact wNil
      | refine w_guarded ?_ (fun _ => ?_)
      | apply Within.mono (w_targetWrite ..)
    | (simp only [fieldOf]; decide)
    | intro _
    | split
    | extract_lets
    | (refine wRun ?_; split <;> intro _)
    | dsimp only

theorem cw_frequencyChange (now ns : Nat) (s : State) : CmdWithin 549755813897 (.frequencyChange now ns) s := by
  refine ⟨_, rfl, ?_⟩
  repeat' first
    | exact (rfl : (_ : Nat) = _)
    | exact (rfl : (_ : Bool) = _)
    | with_reducible first
      | exact wNil | exact wSeqNil | refine wSeq ?_ (fun _ => ?_) | refine wIf ?_ ?_ | refine wIfAct ?_ ?_ | refine wUpd ?_ | refine wEach (fun _ _ => ?_)
      | apply Within.mono (w_advance ..)
      | apply Within.mono (w_incReg_hi _ _ ?_)
      | apply Within.mono (w_setF_hi _ _ _ ?_)
    | (simp only [fieldOf]; decide)
    | (show 0x200000200000 ≤ _; (try simp only [DDR_CH_STAT, DDR_CH_STAT_PT, DDR_FC, DDR_FC_BUSY, DDR_FC_CNT, DDR_FC_LAST, DDR_FC_LAST_NS, DDR_FC_TARGET, DDR_PT, DDR_PT_CUR]); (repeat' split) <;> omega)
    | intro _
    | split
    | extract_lets
    | (refine wRun ?_; split <;> intro _)
    | dsimp only

theorem cw_dqsOscillatorRead (c : Nat) (delta : Int) (s : State) : CmdWithin 562949953421312 (.dqsOscillatorRead c delta) s := by
  refine ⟨_, rfl, ?_⟩
  repeat' first
    | exact (rfl : (_ : Nat) = _)
    | exact (rfl : (_ : Bool) = _)
    | with_reducible first
      | exact wNil | refine wIf ?_ ?_ | refine wIfAct ?_ ?_ | refine wCons ?_ ?_
    | (simp only [fieldOf]; decide)
    | intro _
    | split
    | extract_lets
    | (refine wRun ?_; split <;> intro _)
    | dsimp only

theorem cw_pageRetirement (now v : Nat) (s : State) : CmdWithin 109951162777609 (.pageRetirement now v) s := by
  refine ⟨_, rfl, ?_⟩
  repeat' first
    | exact (rfl : (_ : Nat) = _)
    | exact (rfl : (_ : Bool) = _)
    | with_reducible first
      | exact wNil | exact wSeqNil | refine wSeq ?_ (fun _ => ?_) | refine wWhen ?_ | refine wIf ?_ ?_ | refine wIfAct ?_ ?_ | refine wUpd ?_ | refine wCons ?_ ?_ | refine wApp ?_ ?_
      | apply Within.mono (w_advance ..)
      | apply Within.mono (w_retirePage ..)
    | (simp only [fieldOf]; decide)
    | intro _
    | split
    | extract_lets
    | (refine wRun ?_; split <;> intro _)
    | dsimp only

theorem cw_frameSyncRise (o now : Nat) (s : State) : CmdWithin 7083567738702977302537 (.frameSyncRise o now) s := by
  refine ⟨_, rfl, ?_⟩
  repeat' first
    | exact (rfl : (_ : Nat) = _)
    | exact (rfl : (_ : Bool) = _)
    | with_reducible first
      | exact wNil | exact wSeqNil | refine wSeq ?_ (fun _ => ?_) | refine wIf ?_ ?_ | refine wIfAct ?_ ?_ | refine wUpd ?_
      | apply Within.mono (w_advance ..)
      | apply Within.mono (w_emit ..)
      | apply Within.mono (w_incReg_hi _ _ ?_)
      | apply Within.mono (w_setF_hi _ _ _ ?_)
    | (simp only [fieldOf]; decide)
    | (show 0x200000200000 ≤ _; (try simp only [FSY_OMIT_CNT, FSY_STAT, FSY_STAT_CTX, FSY_STAT_LEVEL, PCH_STATUS, PCH_STATUS_RUNNING]); (repeat' split) <;> omega)
    | intro _
    | split
    | extract_lets
    | (refine wRun ?_; split <;> intro _)
    | dsimp only

theorem cw_frameSyncFall (o now : Nat) (s : State) : CmdWithin 18014398509481993 (.frameSyncFall o now) s := by
  refine ⟨_, rfl, ?_⟩
  repeat' first
    | exact (rfl : (_ : Nat) = _)
    | exact (rfl : (_ : Bool) = _)
    | with_reducible first
      | exact wNil | exact wSeqNil | refine wSeq ?_ (fun _ => ?_) | refine wIf ?_ ?_ | refine wIfAct ?_ ?_
      | apply Within.mono (w_advance ..)
      | apply Within.mono (w_emit ..)
      | apply Within.mono (w_setF_hi _ _ _ ?_)
    | (simp only [fieldOf]; decide)
    | (show 0x200000200000 ≤ _; (try simp only [FSY_STAT, FSY_STAT_CTX, FSY_STAT_LEVEL]); (repeat' split) <;> omega)
    | intro _
    | split
    | extract_lets
    | (refine wRun ?_; split <;> intro _)
    | dsimp only

theorem cw_frameStart (x fs fn : Nat) (s : State) : CmdWithin 3541846932944116514827 (.frameStart x fs fn) s := by
  refine ⟨_, rfl, ?_⟩
  repeat' first
    | exact (rfl : (_ : Nat) = _)
    | exact (rfl : (_ : Bool) = _)
    | with_reducible first
      | exact wNil | exact wNop | exact wSeqNil | refine wSeq ?_ (fun _ => ?_) | refine wIf ?_ ?_ | refine wIfAct ?_ ?_
      | apply Within.mono (w_advance ..)
      | apply Within.mono (w_finalSample ..)
      | apply Within.mono (w_incReg_hi _ _ ?_)
      | apply Within.mono (w_setCtx ..)
      | apply Within.mono (w_lockUpdate ..)
      | apply Within.mono (w_wr64_hi _ _ _ ?_)
    | (simp only [fieldOf]; decide)
    | (show 0x200000200000 ≤ _; (try simp only [ING_CTX_IGN_CNT, ING_CTX_LATE_CNT, ING_CTX_PHASE, ING_CTX_PHASE_LO, ING_CTX_STAT, ING_CTX_STAT_LOCKED]); (repeat' split) <;> omega)
    | intro _
    | split
    | extract_lets
    | (refine wRun ?_; split <;> intro _)
    | dsimp only

theorem cw_linePacket (x dt ecc : Nat) (crcOk : Bool) (bytes : List Byte) (s : State) : CmdWithin 1180591620717411303425 (.linePacket x dt ecc crcOk bytes) s := by
  refine ⟨_, rfl, ?_⟩
  repeat' first
    | exact (rfl : (_ : Nat) = _)
    | exact (rfl : (_ : Bool) = _)
    | with_reducible first
      | exact wNil | exact wSeqNil | refine wSeq ?_ (fun _ => ?_) | refine wWhen ?_ | refine wIf ?_ ?_ | refine wIfAct ?_ ?_ | refine wApp ?_ ?_
      | apply Within.mono (w_incReg_hi _ _ ?_)
      | apply Within.mono (w_setCur ..)
    | (simp only [fieldOf]; decide)
    | (show 0x200000200000 ≤ _; (try simp only [ING_CSI_CRC_CNT, ING_CSI_ECC_CNT, ING_CTX_IGN_CNT]); (repeat' split) <;> omega)
    | intro _
    | split
    | extract_lets
    | (refine wRun ?_; split <;> intro _)
    | dsimp only

theorem cw_frameEnd (x now : Nat) (s : State) : CmdWithin 1180663678311449231369 (.frameEnd x now) s := by
  refine ⟨_, rfl, ?_⟩
  repeat' first
    | exact (rfl : (_ : Nat) = _)
    | exact (rfl : (_ : Bool) = _)
    | with_reducible first
      | exact wNil | exact wSeqNil | refine wSeq ?_ (fun _ => ?_) | refine wIf ?_ ?_ | refine wIfAct ?_ ?_
      | apply Within.mono (w_advance ..)
      | apply Within.mono (w_setCur ..)
      | refine w_signature ?_ (fun _ _ => ?_)
    | (simp only [fieldOf]; decide)
    | intro _
    | split
    | extract_lets
    | (refine wRun ?_; split <;> intro _)
    | dsimp only

theorem cw_lidarDatagram (x : Nat) (s : State) : CmdWithin 1217557179656713011203 (.lidarDatagram x) s := by
  refine ⟨_, rfl, ?_⟩
  repeat' first
    | exact (rfl : (_ : Nat) = _)
    | exact (rfl : (_ : Bool) = _)
    | with_reducible first
      | exact wNil | exact wNop | exact wSeqNil | refine wSeq ?_ (fun _ => ?_) | refine wWhen ?_ | refine wIf ?_ ?_ | refine wIfAct ?_ ?_ | refine wUpd ?_ | refine wCons ?_ ?_ | refine wApp ?_ ?_ | refine wEach (fun _ _ => ?_)
      | apply Within.mono (w_incReg_hi _ _ ?_)
      | apply Within.mono (w_setCtx ..)
      | refine w_signature ?_ (fun _ _ => ?_)
      | apply Within.mono (w_unitWrite ..)
    | (simp only [fieldOf]; decide)
    | (show 0x200000200000 ≤ _; (try simp only [ING_CTX_IGN_CNT]); (repeat' split) <;> omega)
    | intro _
    | split
    | extract_lets
    | (refine wRun ?_; split <;> intro _)
    | dsimp only

theorem cw_lidarRef (x now : Nat) (s : State) : CmdWithin 3541846932944116514859 (.lidarRef x now) s := by
  refine ⟨_, rfl, ?_⟩
  repeat' first
    | exact (rfl : (_ : Nat) = _)
    | exact (rfl : (_ : Bool) = _)
    | with_reducible first
      | exact wNil | exact wSeqNil | refine wSeq ?_ (fun _ => ?_) | refine wWhen ?_ | refine wIf ?_ ?_ | refine wIfAct ?_ ?_ | refine wUpd ?_
      | apply Within.mono (w_advance ..)
      | apply Within.mono (w_setCtx ..)
      | apply Within.mono (w_lockUpdate ..)
      | apply Within.mono (w_wr64_hi _ _ _ ?_)
      | apply Within.mono (w_writeRuns ..)
    | (simp only [fieldOf]; decide)
    | (show 0x200000200000 ≤ _; (try simp only [ING_CTX_PHASE, ING_CTX_PHASE_LO]); (repeat' split) <;> omega)
    | intro _
    | split
    | extract_lets
    | (refine wRun ?_; split <;> intro _)
    | dsimp only

theorem cw_bandAnnounce (x : Nat) (s : State) : CmdWithin 1180591633915255980067 (.bandAnnounce x) s := by
  refine ⟨_, rfl, ?_⟩
  repeat' first
    | exact (rfl : (_ : Nat) = _)
    | exact (rfl : (_ : Bool) = _)
    | with_reducible first
      | exact wNil | exact wSeqNil | refine wSeq ?_ (fun _ => ?_) | refine wWhen ?_ | refine wIf ?_ ?_ | refine wIfAct ?_ ?_ | refine wUpd ?_
      | apply Within.mono (w_setCur ..)
      | apply Within.mono (w_signalWord ..)
      | apply Within.mono (w_writeRuns ..)
    | (simp only [fieldOf]; decide)
    | intro _
    | split
    | extract_lets
    | (refine wRun ?_; split <;> intro _)
    | dsimp only

theorem cw_finalAnnounce (x now : Nat) (s : State) : CmdWithin 1180663691509293907979 (.finalAnnounce x now) s := by
  refine ⟨_, rfl, ?_⟩
  repeat' first
    | exact (rfl : (_ : Nat) = _)
    | exact (rfl : (_ : Bool) = _)
    | with_reducible first
      | exact wNil | exact wSeqNil | refine wSeq ?_ (fun _ => ?_) | refine wIf ?_ ?_ | refine wIfAct ?_ ?_
      | apply Within.mono (w_advance ..)
      | apply Within.mono (w_finalSample ..)
    | (simp only [fieldOf]; decide)
    | intro _
    | split
    | extract_lets
    | (refine wRun ?_; split <;> intro _)
    | dsimp only

theorem cw_ingressDeadline (now : Nat) (s : State) : CmdWithin 1180663691509293907979 (.ingressDeadline now) s := by
  refine ⟨_, rfl, ?_⟩
  repeat' first
    | exact (rfl : (_ : Nat) = _)
    | exact (rfl : (_ : Bool) = _)
    | with_reducible first
      | exact wNil | exact wSeqNil | refine wSeq ?_ (fun _ => ?_) | refine wIf ?_ ?_ | refine wIfAct ?_ ?_ | refine wEach (fun _ _ => ?_)
      | apply Within.mono (w_advance ..)
      | apply Within.mono (w_finalCommon ..)
      | apply Within.mono (w_finalSample ..)
    | (simp only [fieldOf]; decide)
    | intro _
    | split
    | extract_lets
    | (refine wRun ?_; split <;> intro _)
    | dsimp only

theorem cw_contextDisable (x : Nat) (s : State) : CmdWithin 1 (.contextDisable x) s := by
  refine ⟨_, rfl, ?_⟩
  repeat' first
    | exact (rfl : (_ : Nat) = _)
    | exact (rfl : (_ : Bool) = _)
    | with_reducible first
      | exact wNil
      | apply Within.mono (w_ctxDisable ..)
    | (simp only [fieldOf]; decide)
    | intro _
    | split
    | extract_lets
    | (refine wRun ?_; split <;> intro _)
    | dsimp only

theorem cw_contextEnable (x : Nat) (s : State) : CmdWithin 1 (.contextEnable x) s := by
  refine ⟨_, rfl, ?_⟩
  repeat' first
    | exact (rfl : (_ : Nat) = _)
    | exact (rfl : (_ : Bool) = _)
    | with_reducible first
      | exact wNil
      | apply Within.mono (w_ctxEnable ..)
    | (simp only [fieldOf]; decide)
    | intro _
    | split
    | extract_lets
    | (refine wRun ?_; split <;> intro _)
    | dsimp only

theorem cw_spiStepTransferDone (k : Nat) (data : List Byte) (s : State) : CmdWithin 442721857769029238784 (.spiStepTransferDone k data) s := by
  refine ⟨_, rfl, ?_⟩
  repeat' first
    | exact (rfl : (_ : Nat) = _)
    | exact (rfl : (_ : Bool) = _)
    | with_reducible first
      | exact wNil | refine wIf ?_ ?_ | refine wIfAct ?_ ?_ | refine wCons ?_ ?_ | refine wApp ?_ ?_
    | (simp only [fieldOf]; decide)
    | intro _
    | split
    | extract_lets
    | (refine wRun ?_; split <;> intro _)
    | dsimp only

theorem cw_icuEvent (src : Nat) (s : State) : CmdWithin 1 (.icuEvent src) s := by
  refine ⟨_, rfl, ?_⟩
  repeat' first
    | exact (rfl : (_ : Nat) = _)
    | exact (rfl : (_ : Bool) = _)
    | with_reducible first
      | exact wNil | refine wWhen ?_
      | apply Within.mono (w_icuPend ..)
    | (simp only [fieldOf]; decide)
    | intro _
    | split
    | extract_lets
    | (refine wRun ?_; split <;> intro _)
    | dsimp only

theorem cw_icuClaim (src : Master) (u : Nat) (s : State) : CmdWithin 36028797018963969 (.icuClaim src u) s := by
  refine ⟨_, rfl, ?_⟩
  repeat' first
    | exact (rfl : (_ : Nat) = _)
    | exact (rfl : (_ : Bool) = _)
    | with_reducible first
      | exact wNil | refine wWhen ?_
      | apply Within.mono (w_icuClaim ..)
    | (simp only [fieldOf]; decide)
    | intro _
    | split
    | extract_lets
    | (refine wRun ?_; split <;> intro _)
    | dsimp only

theorem cw_icuComplete (src : Master) (u n : Nat) (s : State) : CmdWithin 3221225473 (.icuComplete src u n) s := by
  refine ⟨_, rfl, ?_⟩
  repeat' first
    | exact (rfl : (_ : Nat) = _)
    | exact (rfl : (_ : Bool) = _)
    | with_reducible first
      | exact wNil
      | refine w_guarded ?_ (fun _ => ?_)
      | apply Within.mono (w_icuComplete ..)
    | (simp only [fieldOf]; decide)
    | intro _
    | split
    | extract_lets
    | (refine wRun ?_; split <;> intro _)
    | dsimp only

theorem cw_icuMsg (v : Nat) (s : State) : CmdWithin 1 (.icuMsg v) s := by
  refine ⟨_, rfl, ?_⟩
  repeat' first
    | exact (rfl : (_ : Nat) = _)
    | exact (rfl : (_ : Bool) = _)
    | with_reducible first
      | exact wNil
      | apply Within.mono (w_icuMsg ..)
    | (simp only [fieldOf]; decide)
    | intro _
    | split
    | extract_lets
    | (refine wRun ?_; split <;> intro _)
    | dsimp only

theorem cw_ethFrameReceive (m at_ : Nat) (f : List Byte) (s : State) : CmdWithin 36893501345263779851 (.ethFrameReceive m at_ f) s := by
  refine ⟨_, rfl, ?_⟩
  repeat' first
    | exact (rfl : (_ : Nat) = _)
    | exact (rfl : (_ : Bool) = _)
    | with_reducible first
      | exact wNil | exact wSeqNil | refine wSeq ?_ (fun _ => ?_) | refine wIf ?_ ?_ | refine wIfAct ?_ ?_ | refine wCons ?_ ?_ | refine wApp ?_ ?_
      | apply Within.mono (w_advance ..)
      | apply Within.mono (w_ethStoreFrame ..)
    | (simp only [fieldOf]; decide)
    | intro _
    | split
    | extract_lets
    | (refine wRun ?_; split <;> intro _)
    | dsimp only

theorem cw_ethTailWrite (src : Master) (m r t : Nat) (s : State) : CmdWithin 288230379372937217 (.ethTailWrite src m r t) s := by
  refine ⟨_, rfl, ?_⟩
  repeat' first
    | exact (rfl : (_ : Nat) = _)
    | exact (rfl : (_ : Bool) = _)
    | with_reducible first
      | exact wNil | refine wIf ?_ ?_ | refine wIfAct ?_ ?_
      | apply Within.mono (w_ethTail ..)
      | refine w_guarded ?_ (fun _ => ?_)
    | (simp only [fieldOf]; decide)
    | intro _
    | split
    | extract_lets
    | (refine wRun ?_; split <;> intro _)
    | dsimp only

theorem cw_ethFrameLaunch (m now : Nat) (s : State) : CmdWithin 450373160581726219 (.ethFrameLaunch m now) s := by
  refine ⟨_, rfl, ?_⟩
  repeat' first
    | exact (rfl : (_ : Nat) = _)
    | exact (rfl : (_ : Bool) = _)
    | with_reducible first
      | exact wNil | exact wSeqNil | refine wSeq ?_ (fun _ => ?_) | refine wIf ?_ ?_ | refine wIfAct ?_ ?_ | refine wUpd ?_
      | apply Within.mono (w_advance ..)
      | apply Within.mono (w_emit ..)
      | apply Within.mono (w_ethEnd ..)
      | apply Within.mono (w_unitRead ..)
    | (simp only [fieldOf]; decide)
    | intro _
    | split
    | extract_lets
    | (refine wRun ?_; split <;> intro _)
    | dsimp only

theorem cw_ethFrameSent (m now : Nat) (s : State) : CmdWithin 432358762072244235 (.ethFrameSent m now) s := by
  refine ⟨_, rfl, ?_⟩
  repeat' first
    | exact (rfl : (_ : Nat) = _)
    | exact (rfl : (_ : Bool) = _)
    | with_reducible first
      | exact wNil | exact wSeqNil | refine wSeq ?_ (fun _ => ?_) | refine wUpd ?_
      | apply Within.mono (w_advance ..)
      | apply Within.mono (w_ethEnd ..)
      | apply Within.mono (w_incReg_hi _ _ ?_)
    | (simp only [fieldOf]; decide)
    | (show 0x200000200000 ≤ _; (try simp only [ETH_TX_CNT]); (repeat' split) <;> omega)
    | intro _
    | split
    | extract_lets
    | (refine wRun ?_; split <;> intro _)
    | dsimp only

theorem cw_ethDisable (src : Master) (m : Nat) (s : State) : CmdWithin 3221225473 (.ethDisable src m) s := by
  refine ⟨_, rfl, ?_⟩
  repeat' first
    | exact (rfl : (_ : Nat) = _)
    | exact (rfl : (_ : Bool) = _)
    | with_reducible first
      | exact wNil
      | apply Within.mono (w_ethEnable ..)
      | refine w_guarded ?_ (fun _ => ?_)
    | (simp only [fieldOf]; decide)
    | intro _
    | split
    | extract_lets
    | (refine wRun ?_; split <;> intro _)
    | dsimp only

theorem cw_canFrameReceive (k at_ idw flags len : Nat) (data : List Byte) (err : Bool) (s : State) : CmdWithin 73786989492682883083 (.canFrameReceive k at_ idw flags len data err) s := by
  refine ⟨_, rfl, ?_⟩
  repeat' first
    | exact (rfl : (_ : Nat) = _)
    | exact (rfl : (_ : Bool) = _)
    | with_reducible first
      | exact wNil | exact wSeqNil | refine wSeq ?_ (fun _ => ?_) | refine wIf ?_ ?_ | refine wIfAct ?_ ?_
      | apply Within.mono (w_addSat_hi _ _ _ ?_)
      | apply Within.mono (w_advance ..)
      | apply Within.mono (w_canErrState ..)
      | apply Within.mono (w_canReceive ..)
      | apply Within.mono (w_incReg_hi _ _ ?_)
    | (simp only [fieldOf]; decide)
    | (show 0x200000200000 ≤ _; (try simp only [CAN_ERR_CNT, CAN_STAT, CAN_STAT_ERR, CAN_STAT_REC, CAN_STAT_STATE]); (repeat' split) <;> omega)
    | intro _
    | split
    | extract_lets
    | (refine wRun ?_; split <;> intro _)
    | dsimp only

theorem cw_canTailWrite (src : Master) (k r t : Nat) (s : State) : CmdWithin 3221225473 (.canTailWrite src k r t) s := by
  refine ⟨_, rfl, ?_⟩
  repeat' first
    | exact (rfl : (_ : Nat) = _)
    | exact (rfl : (_ : Bool) = _)
    | with_reducible first
      | exact wNil | refine wIf ?_ ?_ | refine wIfAct ?_ ?_
      | apply Within.mono (w_canTail ..)
      | refine w_guarded ?_ (fun _ => ?_)
    | (simp only [fieldOf]; decide)
    | intro _
    | split
    | extract_lets
    | (refine wRun ?_; split <;> intro _)
    | dsimp only

theorem cw_canFrameLaunch (k now : Nat) (s : State) : CmdWithin 576473950148100107 (.canFrameLaunch k now) s := by
  refine ⟨_, rfl, ?_⟩
  repeat' first
    | exact (rfl : (_ : Nat) = _)
    | exact (rfl : (_ : Bool) = _)
    | with_reducible first
      | exact wNil | exact wSeqNil | refine wSeq ?_ (fun _ => ?_) | refine wIf ?_ ?_ | refine wIfAct ?_ ?_ | refine wCons ?_ ?_
      | apply Within.mono (w_advance ..)
      | apply Within.mono (w_canEnd ..)
    | (simp only [fieldOf]; decide)
    | intro _
    | split
    | extract_lets
    | (refine wRun ?_; split <;> intro _)
    | dsimp only

theorem cw_canFrameSent (k now sof outcome : Nat) (s : State) : CmdWithin 74381464643495788555 (.canFrameSent k now sof outcome) s := by
  refine ⟨_, rfl, ?_⟩
  repeat' first
    | exact (rfl : (_ : Nat) = _)
    | exact (rfl : (_ : Bool) = _)
    | with_reducible first
      | exact wNil | exact wSeqNil | refine wSeq ?_ (fun _ => ?_) | refine wWhen ?_ | refine wIf ?_ ?_ | refine wIfAct ?_ ?_
      | apply Within.mono (w_addSat_hi _ _ _ ?_)
      | apply Within.mono (w_advance ..)
      | apply Within.mono (w_canEnd ..)
      | apply Within.mono (w_canErrState ..)
      | apply Within.mono (w_canReceive ..)
      | apply Within.mono (w_emit ..)
      | apply Within.mono (w_incReg_hi _ _ ?_)
      | apply Within.mono (w_setF_hi _ _ _ ?_)
    | (simp only [fieldOf]; decide)
    | (show 0x200000200000 ≤ _; (try simp only [CAN_CTL, CAN_CTL_LOOP, CAN_ERR_CNT, CAN_STAT, CAN_STAT_TEC, CAN_TX_CNT]); (repeat' split) <;> omega)
    | intro _
    | split
    | extract_lets
    | (refine wRun ?_; split <;> intro _)
    | dsimp only

theorem cw_canBusOff (k : Nat) (s : State) : CmdWithin 576460752303423489 (.canBusOff k) s := by
  refine ⟨_, rfl, ?_⟩
  repeat' first
    | exact (rfl : (_ : Nat) = _)
    | exact (rfl : (_ : Bool) = _)
    | with_reducible first
      | exact wNil | exact wSeqNil | refine wSeq ?_ (fun _ => ?_) | refine wIf ?_ ?_ | refine wIfAct ?_ ?_ | refine wUpd ?_
      | apply Within.mono (w_icuPend ..)
      | apply Within.mono (w_incReg_hi _ _ ?_)
      | apply Within.mono (w_setF_hi _ _ _ ?_)
    | (simp only [fieldOf]; decide)
    | (show 0x200000200000 ≤ _; (try simp only [CAN_BUSOFF_CNT, CAN_STAT, CAN_STAT_ERR, CAN_STAT_STATE]); (repeat' split) <;> omega)
    | intro _
    | split
    | extract_lets
    | (refine wRun ?_; split <;> intro _)
    | dsimp only

theorem cw_canBusOffRecovery (k : Nat) (s : State) : CmdWithin 1 (.canBusOffRecovery k) s := by
  refine ⟨_, rfl, ?_⟩
  repeat' first
    | exact (rfl : (_ : Nat) = _)
    | exact (rfl : (_ : Bool) = _)
    | with_reducible first
      | exact wNil | refine wIf ?_ ?_ | refine wIfAct ?_ ?_
      | apply Within.mono (w_canRejoin ..)
    | (simp only [fieldOf]; decide)
    | intro _
    | split
    | extract_lets
    | (refine wRun ?_; split <;> intro _)
    | dsimp only

theorem cw_canDisable (src : Master) (k : Nat) (s : State) : CmdWithin 3221225473 (.canDisable src k) s := by
  refine ⟨_, rfl, ?_⟩
  repeat' first
    | exact (rfl : (_ : Nat) = _)
    | exact (rfl : (_ : Bool) = _)
    | with_reducible first
      | exact wNil
      | apply Within.mono (w_canEnable ..)
      | refine w_guarded ?_ (fun _ => ?_)
    | (simp only [fieldOf]; decide)
    | intro _
    | split
    | extract_lets
    | (refine wRun ?_; split <;> intro _)
    | dsimp only

theorem cw_spiGo (src : Master) (k w now : Nat) (s : State) : CmdWithin 18014401730707465 (.spiGo src k w now) s := by
  refine ⟨_, rfl, ?_⟩
  repeat' first
    | exact (rfl : (_ : Nat) = _)
    | exact (rfl : (_ : Bool) = _)
    | with_reducible first
      | exact wNil | exact wSeqNil | refine wSeq ?_ (fun _ => ?_)
      | apply Within.mono (w_advance ..)
      | refine w_guarded ?_ (fun _ => ?_)
      | apply Within.mono (w_spiGo ..)
    | (simp only [fieldOf]; decide)
    | intro _
    | split
    | extract_lets
    | (refine wRun ?_; split <;> intro _)
    | dsimp only

theorem cw_spiHeldStart (k : Nat) (s : State) : CmdWithin 18014398509481985 (.spiHeldStart k) s := by
  refine ⟨_, rfl, ?_⟩
  repeat' first
    | exact (rfl : (_ : Nat) = _)
    | exact (rfl : (_ : Bool) = _)
    | with_reducible first
      | exact wNil | refine wIf ?_ ?_ | refine wIfAct ?_ ?_
      | apply Within.mono (w_spiStart ..)
    | (simp only [fieldOf]; decide)
    | intro _
    | split
    | extract_lets
    | (refine wRun ?_; split <;> intro _)
    | dsimp only

theorem cw_spiTransferDone (k : Nat) (data : List Byte) (s : State) : CmdWithin 1 (.spiTransferDone k data) s := by
  refine ⟨_, rfl, ?_⟩
  repeat' first
    | exact (rfl : (_ : Nat) = _)
    | exact (rfl : (_ : Bool) = _)
    | with_reducible first
      | exact wNil | exact wSeqNil | refine wSeq ?_ (fun _ => ?_) | refine wIf ?_ ?_ | refine wIfAct ?_ ?_ | refine wApp ?_ ?_ | refine wEach (fun _ _ => ?_)
      | apply Within.mono (w_icuPend ..)
      | apply Within.mono (w_setF_hi _ _ _ ?_)
      | apply Within.mono (w_wr_hi _ _ _ ?_)
    | (simp only [fieldOf]; decide)
    | (show 0x200000200000 ≤ _; (try simp only [SPI_CMD, SPI_CMD_RX_LEN, SPI_RXD, SPI_STAT, SPI_STAT_BUSY, SPI_STAT_DONE]); (repeat' split) <;> omega)
    | intro _
    | split
    | extract_lets
    | (refine wRun ?_; split <;> intro _)
    | dsimp only

theorem cw_i2cGo (src : Master) (k w : Nat) (s : State) : CmdWithin 18014401730707457 (.i2cGo src k w) s := by
  refine ⟨_, rfl, ?_⟩
  repeat' first
    | exact (rfl : (_ : Nat) = _)
    | exact (rfl : (_ : Bool) = _)
    | with_reducible first
      | exact wNil
      | refine w_guarded ?_ (fun _ => ?_)
      | apply Within.mono (w_i2cGo ..)
    | (simp only [fieldOf]; decide)
    | intro _
    | split
    | extract_lets
    | (refine wRun ?_; split <;> intro _)
    | dsimp only

theorem cw_i2cCommandEnd (k result nack : Nat) (data : List Byte) (s : State) : CmdWithin 1 (.i2cCommandEnd k result nack data) s := by
  refine ⟨_, rfl, ?_⟩
  repeat' first
    | exact (rfl : (_ : Nat) = _)
    | exact (rfl : (_ : Bool) = _)
    | with_reducible first
      | exact wNil
      | apply Within.mono (w_i2cEnd ..)
    | (simp only [fieldOf]; decide)
    | intro _
    | split
    | extract_lets
    | (refine wRun ?_; split <;> intro _)
    | dsimp only

theorem cw_i2cTimeout (k : Nat) (s : State) : CmdWithin 1 (.i2cTimeout k) s := by
  refine ⟨_, rfl, ?_⟩
  repeat' first
    | exact (rfl : (_ : Nat) = _)
    | exact (rfl : (_ : Bool) = _)
    | with_reducible first
      | exact wNil
      | apply Within.mono (w_i2cEnd ..)
    | (simp only [fieldOf]; decide)
    | intro _
    | split
    | extract_lets
    | (refine wRun ?_; split <;> intro _)
    | dsimp only

theorem cw_pcieLinkEvent (up : Bool) (gen width : Nat) (s : State) : CmdWithin 1 (.pcieLinkEvent up gen width) s := by
  refine ⟨_, rfl, ?_⟩
  repeat' first
    | exact (rfl : (_ : Nat) = _)
    | exact (rfl : (_ : Bool) = _)
    | with_reducible first
      | exact wNil | exact wSeqNil | refine wSeq ?_ (fun _ => ?_) | refine wIf ?_ ?_ | refine wIfAct ?_ ?_
      | apply Within.mono (w_icuPend ..)
      | apply Within.mono (w_setF_hi _ _ _ ?_)
    | (simp only [fieldOf]; decide)
    | (show 0x200000200000 ≤ _; (try simp only [PCIE_STAT, PCIE_STAT_GEN, PCIE_STAT_LINK_EVT, PCIE_STAT_LINK_UP, PCIE_STAT_STATE, PCIE_STAT_WIDTH]); (repeat' split) <;> omega)
    | intro _
    | split
    | extract_lets
    | (refine wRun ?_; split <;> intro _)
    | dsimp only

theorem cw_pcieOutboundTimeout (src : Master) (tag : Nat) (s : State) : CmdWithin 1152921504606855168 (.pcieOutboundTimeout src tag) s := by
  refine ⟨_, rfl, ?_⟩
  repeat' first
    | exact (rfl : (_ : Nat) = _)
    | exact (rfl : (_ : Bool) = _)
    | with_reducible first
      | exact wNil
      | apply Within.mono (w_pcieEndRead ..)
    | (simp only [fieldOf]; decide)
    | intro _
    | split
    | extract_lets
    | (refine wRun ?_; split <;> intro _)
    | dsimp only

theorem cw_pcieCfgWrite (src : Master) (v : Nat) (s : State) : CmdWithin 18014401730707457 (.pcieCfgWrite src v) s := by
  refine ⟨_, rfl, ?_⟩
  repeat' first
    | exact (rfl : (_ : Nat) = _)
    | exact (rfl : (_ : Bool) = _)
    | with_reducible first
      | exact wNil
      | refine w_guarded ?_ (fun _ => ?_)
      | apply Within.mono (w_pcieCfgWrite ..)
    | (simp only [fieldOf]; decide)
    | intro _
    | split
    | extract_lets
    | (refine wRun ?_; split <;> intro _)
    | dsimp only

theorem cw_pcieCfgRead (src : Master) (s : State) : CmdWithin 2359886204742139905 (.pcieCfgRead src) s := by
  refine ⟨_, rfl, ?_⟩
  repeat' first
    | exact (rfl : (_ : Nat) = _)
    | exact (rfl : (_ : Bool) = _)
    | with_reducible first
      | exact wNil
      | apply Within.mono (w_pcieCfgRead ..)
    | (simp only [fieldOf]; decide)
    | intro _
    | split
    | extract_lets
    | (refine wRun ?_; split <;> intro _)
    | dsimp only

theorem cw_pcieCfgCompletion (result data : Nat) (s : State) : CmdWithin 2341871806232657921 (.pcieCfgCompletion result data) s := by
  refine ⟨_, rfl, ?_⟩
  repeat' first
    | exact (rfl : (_ : Nat) = _)
    | exact (rfl : (_ : Bool) = _)
    | with_reducible first
      | exact wNil | exact wNop | exact wSeqNil | refine wSeq ?_ (fun _ => ?_) | refine wIf ?_ ?_ | refine wIfAct ?_ ?_ | refine wUpd ?_
      | apply Within.mono (w_returnRead ..)
      | apply Within.mono (w_setF_hi _ _ _ ?_)
      | apply Within.mono (w_wr_hi _ _ _ ?_)
    | (simp only [fieldOf]; decide)
    | (show 0x200000200000 ≤ _; (try simp only [PCIE_CFG_DATA, PCIE_CFG_STAT, PCIE_CFG_STAT_BUSY, PCIE_CFG_STAT_RESULT]); (repeat' split) <;> omega)
    | intro _
    | split
    | extract_lets
    | (refine wRun ?_; split <;> intro _)
    | dsimp only

theorem cw_pcieMsixTrigger (src : Master) (v : Nat) (enabled : Bool) (s : State) : CmdWithin 4629700420158095360 (.pcieMsixTrigger src v enabled) s := by
  refine ⟨_, rfl, ?_⟩
  repeat' first
    | exact (rfl : (_ : Nat) = _)
    | exact (rfl : (_ : Bool) = _)
    | with_reducible first
      | exact wNil | refine wIf ?_ ?_ | refine wIfAct ?_ ?_
      | refine w_guarded ?_ (fun _ => ?_)
      | apply Within.mono (w_msixRaise ..)
    | (simp only [fieldOf]; decide)
    | intro _
    | split
    | extract_lets
    | (refine wRun ?_; split <;> intro _)
    | dsimp only

theorem cw_pcieDisable (src : Master) (s : State) : CmdWithin 3221225473 (.pcieDisable src) s := by
  refine ⟨_, rfl, ?_⟩
  repeat' first
    | exact (rfl : (_ : Nat) = _)
    | exact (rfl : (_ : Bool) = _)
    | with_reducible first
      | exact wNil
      | refine w_guarded ?_ (fun _ => ?_)
      | apply Within.mono (w_pcieEnable ..)
    | (simp only [fieldOf]; decide)
    | intro _
    | split
    | extract_lets
    | (refine wRun ?_; split <;> intro _)
    | dsimp only

theorem cw_fusCommit (src : Master) (s : State) : CmdWithin 3221225473 (.fusCommit src) s := by
  refine ⟨_, rfl, ?_⟩
  repeat' first
    | exact (rfl : (_ : Nat) = _)
    | exact (rfl : (_ : Bool) = _)
    | with_reducible first
      | exact wNil
      | refine w_guarded ?_ (fun _ => ?_)
      | apply Within.mono (w_setF_hi _ _ _ ?_)
    | (simp only [fieldOf]; decide)
    | (show 0x200000200000 ≤ _; (try simp only [FUS_CTL, FUS_CTL_COMMIT]); (repeat' split) <;> omega)
    | intro _
    | split
    | extract_lets
    | (refine wRun ?_; split <;> intro _)
    | dsimp only

theorem cw_egoWheelFrame  (s : State) : CmdWithin 18963252907773419061249 (.egoWheelFrame ) s := by
  refine ⟨_, rfl, ?_⟩
  repeat' first
    | exact (rfl : (_ : Nat) = _)
    | exact (rfl : (_ : Bool) = _)
    | with_reducible first
      | exact wNil | exact wSeqNil | refine wSeq ?_ (fun _ => ?_) | refine wIf ?_ ?_ | refine wIfAct ?_ ?_ | refine wUpd ?_ | refine wCons ?_ ?_
      | apply Within.mono (w_setF_hi _ _ _ ?_)
      | apply Within.mono (w_setFus ..)
    | (simp only [fieldOf]; decide)
    | (show 0x200000200000 ≤ _; (try simp only [FUS_EGO_MAP, FUS_EGO_MAP_ART_OFF, FUS_EGO_MAP_LEFT_OFF, FUS_EGO_MAP_RIGHT_OFF, FUS_EGO_STAT, FUS_EGO_STAT_WHEEL_OK]); (repeat' split) <;> omega)
    | intro _
    | split
    | extract_lets
    | (refine wRun ?_; split <;> intro _)
    | dsimp only

theorem cw_egoPose  (s : State) : CmdWithin 19184613836657933680641 (.egoPose ) s := by
  refine ⟨_, rfl, ?_⟩
  repeat' first
    | exact (rfl : (_ : Nat) = _)
    | exact (rfl : (_ : Bool) = _)
    | with_reducible first
      | exact wNil | exact wSeqNil | refine wSeq ?_ (fun _ => ?_) | refine wIf ?_ ?_ | refine wIfAct ?_ ?_ | refine wUpd ?_ | refine wCons ?_ ?_
      | apply Within.mono (w_setF_hi _ _ _ ?_)
      | apply Within.mono (w_setFus ..)
      | apply Within.mono (w_wr_hi _ _ _ ?_)
      | apply Within.mono (w_writePose ..)
    | (simp only [fieldOf]; decide)
    | (show 0x200000200000 ≤ _; (try simp only [FUS_EGO_CTL, FUS_EGO_CTL_EGO_SPI, FUS_EGO_MAP, FUS_EGO_MAP_IMU_OFF, FUS_EGO_SEQ, FUS_EGO_STAT, FUS_EGO_STAT_BIAS_OK, FUS_EGO_STAT_IMU_OK, FUS_EGO_STAT_MODE, FUS_EGO_STAT_WHEEL_OK]); (repeat' split) <;> omega)
    | intro _
    | split
    | extract_lets
    | (refine wRun ?_; split <;> intro _)
    | dsimp only

theorem cw_calSolve  (s : State) : CmdWithin 18889465931478580854784 (.calSolve ) s := by
  refine ⟨_, rfl, ?_⟩
  repeat' first
    | exact (rfl : (_ : Nat) = _)
    | exact (rfl : (_ : Bool) = _)
    | with_reducible first
      | exact wNil | refine wIf ?_ ?_ | refine wIfAct ?_ ?_ | refine wApp ?_ ?_
      | apply Within.mono (w_setFus ..)
    | (simp only [fieldOf]; decide)
    | intro _
    | split
    | extract_lets
    | (refine wRun ?_; split <;> intro _)
    | dsimp only

theorem cw_contributorAnnounce (c : Nat) (s : State) : CmdWithin 56668397794435742564353 (.contributorAnnounce c) s := by
  refine ⟨_, rfl, ?_⟩
  repeat' first
    | exact (rfl : (_ : Nat) = _)
    | exact (rfl : (_ : Bool) = _)
    | with_reducible first
      | exact wNil | refine wIf ?_ ?_ | refine wIfAct ?_ ?_ | refine wCons ?_ ?_
      | apply Within.mono (w_lateResult ..)
    | (simp only [fieldOf]; decide)
    | intro _
    | split
    | extract_lets
    | (refine wRun ?_; split <;> intro _)
    | dsimp only

theorem cw_fusionRunStart (now : Nat) (s : State) : CmdWithin 56668397807633505976329 (.fusionRunStart now) s := by
  refine ⟨_, rfl, ?_⟩
  repeat' first
    | exact (rfl : (_ : Nat) = _)
    | exact (rfl : (_ : Bool) = _)
    | with_reducible first
      | exact wNil | exact wSeqNil | refine wSeq ?_ (fun _ => ?_) | refine wIf ?_ ?_ | refine wIfAct ?_ ?_
      | apply Within.mono (w_advance ..)
      | apply Within.mono (w_fusRun ..)
      | apply Within.mono (w_setF_hi _ _ _ ?_)
      | apply Within.mono (w_setFus ..)
    | (simp only [fieldOf]; decide)
    | (show 0x200000200000 ≤ _; (try simp only [FUS_APP, FUS_APP_LO, FUS_CW, FUS_CW_LO, FUS_GRID, FUS_GRID_LO, FUS_OBJ, FUS_OBJ_LO, FUS_OWN, FUS_OWN_PART, FUS_STAT, FUS_STAT_CFG_ERR, FUS_STAT_RUN, FUS_STAT_STATE]); (repeat' split) <;> omega)
    | intro _
    | split
    | extract_lets
    | (refine wRun ?_; split <;> intro _)
    | dsimp only

theorem cw_fusionIssue  (s : State) : CmdWithin 18889538002270463459331 (.fusionIssue ) s := by
  refine ⟨_, rfl, ?_⟩
  repeat' first
    | exact (rfl : (_ : Nat) = _)
    | exact (rfl : (_ : Bool) = _)
    | with_reducible first
      | exact wNil | exact wSeqNil | refine wSeq ?_ (fun _ => ?_) | refine wIf ?_ ?_ | refine wIfAct ?_ ?_ | refine wApp ?_ ?_
      | apply Within.mono (w_addReg_hi _ _ _ ?_)
      | apply Within.mono (w_incReg_hi _ _ ?_)
      | apply Within.mono (w_reportTask ..)
      | apply Within.mono (w_sendFwd ..)
      | apply Within.mono (w_setF_hi _ _ _ ?_)
      | apply Within.mono (w_setFus ..)
      | apply Within.mono (w_signalWord ..)
      | apply Within.mono (w_unitWrite ..)
    | (simp only [fieldOf]; decide)
    | (show 0x200000200000 ≤ _; (try simp only [FUS_BIRTH_CNT, FUS_CW, FUS_CW_LO, FUS_DEL_CNT, FUS_DONE_CNT, FUS_GRID, FUS_GRID_LO, FUS_OBJ, FUS_OBJ_LO, FUS_STAT, FUS_STAT_RUN, FUS_STAT_TRACKS]); (repeat' split) <;> omega)
    | intro _
    | split
    | extract_lets
    | (refine wRun ?_; split <;> intro _)
    | dsimp only

theorem cw_fusionDisable (src : Master) (s : State) : CmdWithin 3221225473 (.fusionDisable src) s := by
  refine ⟨_, rfl, ?_⟩
  repeat' first
    | exact (rfl : (_ : Nat) = _)
    | exact (rfl : (_ : Bool) = _)
    | with_reducible first
      | exact wNil
      | apply Within.mono (w_fusEnable ..)
      | refine w_guarded ?_ (fun _ => ?_)
    | (simp only [fieldOf]; decide)
    | intro _
    | split
    | extract_lets
    | (refine wRun ?_; split <;> intro _)
    | dsimp only

theorem cw_trvCommit (src : Master) (s : State) : CmdWithin 3221225473 (.trvCommit src) s := by
  refine ⟨_, rfl, ?_⟩
  repeat' first
    | exact (rfl : (_ : Nat) = _)
    | exact (rfl : (_ : Bool) = _)
    | with_reducible first
      | exact wNil
      | refine w_guarded ?_ (fun _ => ?_)
      | apply Within.mono (w_setF_hi _ _ _ ?_)
    | (simp only [fieldOf]; decide)
    | (show 0x200000200000 ≤ _; (try simp only [TRV_CTL, TRV_CTL_COMMIT]); (repeat' split) <;> omega)
    | intro _
    | split
    | extract_lets
    | (refine wRun ?_; split <;> intro _)
    | dsimp only

theorem cw_mapCommit (src : Master) (s : State) : CmdWithin 151115727451831868063745 (.mapCommit src) s := by
  refine ⟨_, rfl, ?_⟩
  repeat' first
    | exact (rfl : (_ : Nat) = _)
    | exact (rfl : (_ : Bool) = _)
    | with_reducible first
      | exact wNil
      | refine w_guarded ?_ (fun _ => ?_)
      | apply Within.mono (w_mapCommit ..)
    | (simp only [fieldOf]; decide)
    | intro _
    | split
    | extract_lets
    | (refine wRun ?_; split <;> intro _)
    | dsimp only

theorem cw_mapLoadDone  (s : State) : CmdWithin 151115727465026410250241 (.mapLoadDone ) s := by
  refine ⟨_, rfl, ?_⟩
  repeat' first
    | exact (rfl : (_ : Nat) = _)
    | exact (rfl : (_ : Bool) = _)
    | with_reducible first
      | exact wNil | exact wSeqNil | refine wSeq ?_ (fun _ => ?_) | refine wIf ?_ ?_ | refine wIfAct ?_ ?_
      | apply Within.mono (w_setF_hi _ _ _ ?_)
      | apply Within.mono (w_setTrv ..)
      | apply Within.mono (w_unitRead ..)
    | (simp only [fieldOf]; decide)
    | (show 0x200000200000 ≤ _; (try simp only [TRV_STAT, TRV_STAT_MAP_BUSY, TRV_STAT_MAP_ERR]); (repeat' split) <;> omega)
    | intro _
    | split
    | extract_lets
    | (refine wRun ?_; split <;> intro _)
    | dsimp only

theorem cw_trvHoldWrite (src : Master) (v : Nat) (s : State) : CmdWithin 3221225473 (.trvHoldWrite src v) s := by
  refine ⟨_, rfl, ?_⟩
  repeat' first
    | exact (rfl : (_ : Nat) = _)
    | exact (rfl : (_ : Bool) = _)
    | with_reducible first
      | exact wNil
      | refine w_guarded ?_ (fun _ => ?_)
      | apply Within.mono (w_trvHoldWrite ..)
    | (simp only [fieldOf]; decide)
    | intro _
    | split
    | extract_lets
    | (refine wRun ?_; split <;> intro _)
    | dsimp only

theorem cw_layerCopy (l : Nat) (s : State) : CmdWithin 302231454916855057088513 (.layerCopy l) s := by
  refine ⟨_, rfl, ?_⟩
  repeat' first
    | exact (rfl : (_ : Nat) = _)
    | exact (rfl : (_ : Bool) = _)
    | with_reducible first
      | exact wNil | refine wIf ?_ ?_ | refine wIfAct ?_ ?_
      | apply Within.mono (w_lyrCopy ..)
    | (simp only [fieldOf]; decide)
    | intro _
    | split
    | extract_lets
    | (refine wRun ?_; split <;> intro _)
    | dsimp only

theorem cw_traverseRunStart (now : Nat) (s : State) : CmdWithin 453347182368683703926793 (.traverseRunStart now) s := by
  refine ⟨_, rfl, ?_⟩
  repeat' first
    | exact (rfl : (_ : Nat) = _)
    | exact (rfl : (_ : Bool) = _)
    | with_reducible first
      | exact wNil | exact wSeqNil | refine wSeq ?_ (fun _ => ?_) | refine wWhen ?_ | refine wIf ?_ ?_ | refine wIfAct ?_ ?_ | refine wEach (fun _ _ => ?_)
      | apply Within.mono (w_advance ..)
      | apply Within.mono (w_lyrCopy ..)
      | apply Within.mono (w_setF_hi _ _ _ ?_)
      | apply Within.mono (w_setTrv ..)
    | (simp only [fieldOf]; decide)
    | (show 0x200000200000 ≤ _; (try simp only [TRV_HOLD, TRV_HOLD_PATH, TRV_HOLD_VALID, TRV_LYR_CFG, TRV_LYR_CFG_EXPECT, TRV_LYR_CFG_PART, TRV_LYR_STAT, TRV_LYR_STAT_CHANGED, TRV_LYR_STAT_MISSING, TRV_LYR_STAT_USED, TRV_STAT, TRV_STAT_RUN, TRV_STAT_STATE]); (repeat' split) <;> omega)
    | intro _
    | split
    | extract_lets
    | (refine wRun ?_; split <;> intro _)
    | dsimp only

theorem cw_traverseOutDeadline (now : Nat) (s : State) : CmdWithin 3779073849987225464864779 (.traverseOutDeadline now) s := by
  refine ⟨_, rfl, ?_⟩
  repeat' first
    | exact (rfl : (_ : Nat) = _)
    | exact (rfl : (_ : Bool) = _)
    | with_reducible first
      | exact wNil | exact wSeqNil | refine wSeq ?_ (fun _ => ?_) | refine wIf ?_ ?_ | refine wIfAct ?_ ?_
      | apply Within.mono (w_advance ..)
      | apply Within.mono (w_trvIssue ..)
      | apply Within.mono (w_unitEvent ..)
    | (simp only [fieldOf]; decide)
    | intro _
    | split
    | extract_lets
    | (refine wRun ?_; split <;> intro _)
    | dsimp only

theorem cw_traverseIssue  (s : State) : CmdWithin 453347254426277823119363 (.traverseIssue ) s := by
  refine ⟨_, rfl, ?_⟩
  repeat' first
    | exact (rfl : (_ : Nat) = _)
    | exact (rfl : (_ : Bool) = _)
    | with_reducible first
      | exact wNil | exact wSeqNil | refine wSeq ?_ (fun _ => ?_) | refine wWhen ?_ | refine wIf ?_ ?_ | refine wIfAct ?_ ?_ | refine wEach (fun _ _ => ?_)
      | apply Within.mono (w_addReg_hi _ _ _ ?_)
      | apply Within.mono (w_incReg_hi _ _ ?_)
      | apply Within.mono (w_lyrCopy ..)
      | apply Within.mono (w_setF_hi _ _ _ ?_)
      | apply Within.mono (w_trvIssue ..)
    | (simp only [fieldOf]; decide)
    | (show 0x200000200000 ≤ _; (try simp only [FUS_EGO_STAT, FUS_EGO_STAT_MODE, TRV_DROP_CNT, TRV_LYR_STAT, TRV_LYR_STAT_CHANGED, TRV_RECHECK_CNT]); (repeat' split) <;> omega)
    | intro _
    | split
    | extract_lets
    | (refine wRun ?_; split <;> intro _)
    | dsimp only

theorem cw_traverseDisable (src : Master) (s : State) : CmdWithin 151115727451831868063745 (.traverseDisable src) s := by
  refine ⟨_, rfl, ?_⟩
  repeat' first
    | exact (rfl : (_ : Nat) = _)
    | exact (rfl : (_ : Bool) = _)
    | with_reducible first
      | exact wNil
      | refine w_guarded ?_ (fun _ => ?_)
      | apply Within.mono (w_trvEnable ..)
    | (simp only [fieldOf]; decide)
    | intro _
    | split
    | extract_lets
    | (refine wRun ?_; split <;> intro _)
    | dsimp only

theorem cw_lockstepCheckpoint (x : Nat) (s : State) : CmdWithin 9223372036854775813 (.lockstepCheckpoint x) s := by
  refine ⟨_, rfl, ?_⟩
  repeat' first
    | exact (rfl : (_ : Nat) = _)
    | exact (rfl : (_ : Bool) = _)
    | with_reducible first
      | exact wNil | exact wSeqNil | refine wSeq ?_ (fun _ => ?_) | refine wWhen ?_ | refine wEach (fun _ _ => ?_)
      | apply Within.mono (w_ancLogB ..)
      | apply Within.mono (w_incReg_hi _ _ ?_)
      | apply Within.mono (w_setAnc ..)
      | apply Within.mono (w_sramStore ..)
    | (simp only [fieldOf]; decide)
    | (show 0x200000200000 ≤ _; (try simp only [ANC_LSK_ROLL_CNT, ancBase]); (repeat' split) <;> omega)
    | intro _
    | split
    | extract_lets
    | (refine wRun ?_; split <;> intro _)
    | dsimp only

theorem cw_lockstepMismatch (x : Nat) (one : Option Nat) (s : State) : CmdWithin 113904990733313732877670678533 (.lockstepMismatch x one) s := by
  refine ⟨_, rfl, ?_⟩
  repeat' first
    | exact (rfl : (_ : Nat) = _)
    | exact (rfl : (_ : Bool) = _)
    | with_reducible first
      | exact wNil | exact wNop | exact wSeqNil | refine wSeq ?_ (fun _ => ?_) | refine wIf ?_ ?_ | refine wIfAct ?_ ?_
      | apply Within.mono (w_ancLogB ..)
      | apply Within.mono (w_ancSelfReset ..)
      | apply Within.mono (w_incReg_hi _ _ ?_)
      | apply Within.mono (w_setAnc ..)
    | (simp only [fieldOf]; decide)
    | (show 0x200000200000 ≤ _; (try simp only [ANC_LSK_CMP_CNT, ancBase]); (repeat' split) <;> omega)
    | intro _
    | split
    | extract_lets
    | (refine wRun ?_; split <;> intro _)
    | dsimp only

theorem cw_anchorWatchdog (x : Nat) (s : State) : CmdWithin 113904990733313732877670678533 (.anchorWatchdog x) s := by
  refine ⟨_, rfl, ?_⟩
  repeat' first
    | exact (rfl : (_ : Nat) = _)
    | exact (rfl : (_ : Bool) = _)
    | with_reducible first
      | exact wNil | refine wIf ?_ ?_ | refine wIfAct ?_ ?_
      | apply Within.mono (w_ancSelfReset ..)
    | (simp only [fieldOf]; decide)
    | intro _
    | split
    | extract_lets
    | (refine wRun ?_; split <;> intro _)
    | dsimp only

theorem cw_anchorSelfReset (x cause : Nat) (s : State) : CmdWithin 113904990733313732877670678533 (.anchorSelfReset x cause) s := by
  refine ⟨_, rfl, ?_⟩
  repeat' first
    | exact (rfl : (_ : Nat) = _)
    | exact (rfl : (_ : Bool) = _)
    | with_reducible first
      | exact wNil | refine wIf ?_ ?_ | refine wIfAct ?_ ?_
      | apply Within.mono (w_ancSelfReset ..)
    | (simp only [fieldOf]; decide)
    | intro _
    | split
    | extract_lets
    | (refine wRun ?_; split <;> intro _)
    | dsimp only

theorem cw_crossLinkFrame (x now : Nat) (good : Bool) (s : State) : CmdWithin 4835712501830553553600525 (.crossLinkFrame x now good) s := by
  refine ⟨_, rfl, ?_⟩
  repeat' first
    | exact (rfl : (_ : Nat) = _)
    | exact (rfl : (_ : Bool) = _)
    | with_reducible first
      | exact wNil | exact wSeqNil | refine wSeq ?_ (fun _ => ?_) | refine wWhen ?_ | refine wIf ?_ ?_ | refine wIfAct ?_ ?_ | refine wUpd ?_ | refine wCons ?_ ?_
      | apply Within.mono (w_advance ..)
      | apply Within.mono (w_ancLogB ..)
      | apply Within.mono (w_belayEnter ..)
      | apply Within.mono (w_belayStart ..)
      | apply Within.mono (w_setAnc ..)
      | apply Within.mono (w_setF_hi _ _ _ ?_)
    | (simp only [fieldOf]; decide)
    | (show 0x200000200000 ≤ _; (try simp only [ANC_STAT, ANC_STAT_ALONE, ANC_STAT_SPOTTER_LOST, ancBase]); (repeat' split) <;> omega)
    | intro _
    | split
    | extract_lets
    | (refine wRun ?_; split <;> intro _)
    | dsimp only

theorem cw_heartbeatSend (x : Nat) (s : State) : CmdWithin 4835703278458516698824704 (.heartbeatSend x) s := by
  refine ⟨_, rfl, ?_⟩
  repeat' first
    | exact (rfl : (_ : Nat) = _)
    | exact (rfl : (_ : Bool) = _)
    | with_reducible first
      | exact wNil | refine wIf ?_ ?_ | refine wIfAct ?_ ?_
      | apply Within.mono (w_xsend ..)
    | (simp only [fieldOf]; decide)
    | intro _
    | split
    | extract_lets
    | (refine wRun ?_; split <;> intro _)
    | dsimp only

theorem cw_crossLinkLoss (x now : Nat) (s : State) : CmdWithin 4835712501830553553600525 (.crossLinkLoss x now) s := by
  refine ⟨_, rfl, ?_⟩
  repeat' first
    | exact (rfl : (_ : Nat) = _)
    | exact (rfl : (_ : Bool) = _)
    | with_reducible first
      | exact wNil | exact wSeqNil | refine wSeq ?_ (fun _ => ?_) | refine wWhen ?_ | refine wIf ?_ ?_ | refine wIfAct ?_ ?_
      | apply Within.mono (w_advance ..)
      | apply Within.mono (w_ancLogB ..)
      | apply Within.mono (w_belayEnter ..)
      | apply Within.mono (w_setF_hi _ _ _ ?_)
    | (simp only [fieldOf]; decide)
    | (show 0x200000200000 ≤ _; (try simp only [ANC_STAT, ANC_STAT_ALONE, ANC_STAT_SPOTTER_LOST, ancBase]); (repeat' split) <;> omega)
    | intro _
    | split
    | extract_lets
    | (refine wRun ?_; split <;> intro _)
    | dsimp only

theorem cw_forwarderDeliver  (s : State) : CmdWithin 9671415852359862135029767 (.forwarderDeliver ) s := by
  refine ⟨_, rfl, ?_⟩
  repeat' first
    | exact (rfl : (_ : Nat) = _)
    | exact (rfl : (_ : Bool) = _)
    | with_reducible first
      | exact wNil | exact wSeqNil | refine wSeq ?_ (fun _ => ?_) | refine wWhen ?_ | refine wUpd ?_ | refine wCons ?_ ?_
      | apply Within.mono (w_ancTake ..)
      | apply Within.mono (w_incReg_hi _ _ ?_)
      | apply Within.mono (w_traceRecord ..)
    | (simp only [fieldOf]; decide)
    | (show 0x200000200000 ≤ _; (try simp only [AMB_FWD_CNT, AMB_REJ_CNT]); (repeat' split) <;> omega)
    | intro _
    | split
    | extract_lets
    | (refine wRun ?_; split <;> intro _)
    | dsimp only

theorem cw_taskReport (src : Master) (t : Nat) (s : State) : CmdWithin 72057597259153408 (.taskReport src t) s := by
  refine ⟨_, rfl, ?_⟩
  repeat' first
    | exact (rfl : (_ : Nat) = _)
    | exact (rfl : (_ : Bool) = _)
    | with_reducible first
      | exact wNil
      | apply Within.mono (w_mbxWrite ..)
    | (simp only [fieldOf]; decide)
    | intro _
    | split
    | extract_lets
    | (refine wRun ?_; split <;> intro _)
    | dsimp only

theorem cw_deadlineCheck (x t now : Nat) (s : State) : CmdWithin 9219249261625127965556751 (.deadlineCheck x t now) s := by
  refine ⟨_, rfl, ?_⟩
  repeat' first
    | exact (rfl : (_ : Nat) = _)
    | exact (rfl : (_ : Bool) = _)
    | with_reducible first
      | exact wNil | exact wSeqNil | refine wSeq ?_ (fun _ => ?_) | refine wIf ?_ ?_ | refine wIfAct ?_ ?_ | refine wCons ?_ ?_
      | apply Within.mono (w_advance ..)
      | apply Within.mono (w_ancLogB ..)
      | apply Within.mono (w_giveVerdict ..)
      | apply Within.mono (w_incReg_hi _ _ ?_)
      | apply Within.mono (w_overrunMsg ..)
      | apply Within.mono (w_ownTimer ..)
      | apply Within.mono (w_setAnc ..)
      | apply Within.mono (w_wr_hi _ _ _ ?_)
    | (simp only [fieldOf]; decide)
    | (show 0x200000200000 ≤ _; (try simp only [ANC_OVR_CNT, ANC_OVR_LAST, ancBase]); (repeat' split) <;> omega)
    | intro _
    | split
    | extract_lets
    | (refine wRun ?_; split <;> intro _)
    | dsimp only

theorem cw_spotterStart (x now : Nat) (residue : List Nat) (s : State) : CmdWithin 4835712501830587913338893 (.spotterStart x now residue) s := by
  refine ⟨_, rfl, ?_⟩
  repeat' first
    | exact (rfl : (_ : Nat) = _)
    | exact (rfl : (_ : Bool) = _)
    | with_reducible first
      | exact wNil | exact wSeqNil | refine wSeq ?_ (fun _ => ?_) | refine wIf ?_ ?_ | refine wIfAct ?_ ?_
      | apply Within.mono (w_advance ..)
      | apply Within.mono (w_ancLogB ..)
      | apply Within.mono (w_giveVerdict ..)
      | apply Within.mono (w_ownTimer ..)
      | apply Within.mono (w_setAnc ..)
    | (simp only [fieldOf]; decide)
    | intro _
    | split
    | extract_lets
    | (refine wRun ?_; split <;> intro _)
    | dsimp only

theorem cw_spotterCompare (x now : Nat) (s : State) : CmdWithin 4835712501830587913338893 (.spotterCompare x now) s := by
  refine ⟨_, rfl, ?_⟩
  repeat' first
    | exact (rfl : (_ : Nat) = _)
    | exact (rfl : (_ : Bool) = _)
    | with_reducible first
      | exact wNil | exact wSeqNil | refine wSeq ?_ (fun _ => ?_) | refine wIf ?_ ?_ | refine wIfAct ?_ ?_
      | apply Within.mono (w_advance ..)
      | apply Within.mono (w_giveVerdict ..)
      | apply Within.mono (w_ownTimer ..)
    | (simp only [fieldOf]; decide)
    | intro _
    | split
    | extract_lets
    | (refine wRun ?_; split <;> intro _)
    | dsimp only

theorem cw_trajectoryDone (src : Master) (p : Nat) (s : State) : CmdWithin 72057597259153408 (.trajectoryDone src p) s := by
  refine ⟨_, rfl, ?_⟩
  repeat' first
    | exact (rfl : (_ : Nat) = _)
    | exact (rfl : (_ : Bool) = _)
    | with_reducible first
      | exact wNil
      | apply Within.mono (w_trajDone ..)
    | (simp only [fieldOf]; decide)
    | intro _
    | split
    | extract_lets
    | (refine wRun ?_; split <;> intro _)
    | dsimp only

theorem cw_belayFrame (x now : Nat) (s : State) : CmdWithin 9241386435364257800 (.belayFrame x now) s := by
  refine ⟨_, rfl, ?_⟩
  repeat' first
    | exact (rfl : (_ : Nat) = _)
    | exact (rfl : (_ : Bool) = _)
    | with_reducible first
      | exact wNil | exact wSeqNil | refine wSeq ?_ (fun _ => ?_) | refine wIf ?_ ?_ | refine wIfAct ?_ ?_ | refine wApp ?_ ?_
      | apply Within.mono (w_advance ..)
      | apply Within.mono (w_emit ..)
      | apply Within.mono (w_ownTimer ..)
      | apply Within.mono (w_setAnc ..)
    | (simp only [fieldOf]; decide)
    | intro _
    | split
    | extract_lets
    | (refine wRun ?_; split <;> intro _)
    | dsimp only

theorem cw_statusFrame (x now : Nat) (s : State) : CmdWithin 9241386435364257800 (.statusFrame x now) s := by
  refine ⟨_, rfl, ?_⟩
  repeat' first
    | exact (rfl : (_ : Nat) = _)
    | exact (rfl : (_ : Bool) = _)
    | with_reducible first
      | exact wNil | exact wSeqNil | refine wSeq ?_ (fun _ => ?_) | refine wIf ?_ ?_ | refine wIfAct ?_ ?_ | refine wApp ?_ ?_
      | apply Within.mono (w_advance ..)
      | apply Within.mono (w_emit ..)
      | apply Within.mono (w_ownTimer ..)
      | apply Within.mono (w_setAnc ..)
    | (simp only [fieldOf]; decide)
    | intro _
    | split
    | extract_lets
    | (refine wRun ?_; split <;> intro _)
    | dsimp only

theorem cw_anchorSramScrub (x : Nat) (bad : List Nat) (s : State) : CmdWithin 113904990733313732877670678533 (.anchorSramScrub x bad) s := by
  refine ⟨_, rfl, ?_⟩
  repeat' first
    | exact (rfl : (_ : Nat) = _)
    | exact (rfl : (_ : Bool) = _)
    | with_reducible first
      | exact wNil | refine wIf ?_ ?_ | refine wIfAct ?_ ?_
      | apply Within.mono (w_ancSelfReset ..)
    | (simp only [fieldOf]; decide)
    | intro _
    | split
    | extract_lets
    | (refine wRun ?_; split <;> intro _)
    | dsimp only

theorem cw_anchorBoot (x : Nat) (seedOk storeOk wrapped idBad : Bool) (now : Nat) (s : State) : CmdWithin 256292273767524757074564218909 (.anchorBoot x seedOk storeOk wrapped idBad now) s := by
  refine ⟨_, rfl, ?_⟩
  repeat' first
    | exact (rfl : (_ : Nat) = _)
    | exact (rfl : (_ : Bool) = _)
    | with_reducible first
      | exact wNil | exact wNop | exact wSeqNil | refine wSeq ?_ (fun _ => ?_) | refine wWhen ?_ | refine wIf ?_ ?_ | refine wIfAct ?_ ?_ | refine wUpd ?_ | refine wCons ?_ ?_ | refine wApp ?_ ?_
      | apply Within.mono (w_advance ..)
      | apply Within.mono (w_agree ..)
      | apply Within.mono (w_ancInstall ..)
      | apply Within.mono (w_ancLog ..)
      | apply Within.mono (w_bootRaise ..)
      | apply Within.mono (w_bootTry ..)
      | apply Within.mono (w_deviceKey ..)
      | apply Within.mono (w_setAnc ..)
      | apply Within.mono (w_setF ..)
      | apply Within.mono (w_slotAccept ..)
      | apply Within.mono (w_storeShow ..)
    | (simp only [fieldOf]; decide)
    | (show 0x200000200000 ≤ _; (try simp only [ANC_STAT, ANC_STAT_STATE, SEC_BOOT, SEC_BOOT_CODE, SEC_BOOT_DEBUG, SEC_BOOT_SLOT, ancBase]); (repeat' split) <;> omega)
    | intro _
    | split
    | extract_lets
    | (refine wRun ?_; split <;> intro _)
    | dsimp only

theorem cw_iodReleaseStage2 (sync : Option Nat) (badLinks : List (Nat × Nat)) (trained : List (Nat × Nat × List Byte)) (cal : List (Nat × Nat)) (now : Nat) (readOk : Bool) (s : State) : CmdWithin 227780978444211726983809168319 (.iodReleaseStage2 sync badLinks trained cal now readOk) s := by
  refine ⟨_, rfl, ?_⟩
  repeat' first
    | exact (rfl : (_ : Nat) = _)
    | exact (rfl : (_ : Bool) = _)
    | with_reducible first
      | exact wNil | exact wSeqNil | refine wSeq ?_ (fun _ => ?_) | refine wIf ?_ ?_ | refine wIfAct ?_ ?_ | refine wCons ?_ ?_ | refine wEach (fun _ _ => ?_)
      | apply Within.mono (w_advance ..)
      | apply Within.mono (w_bootHold ..)
      | apply Within.mono (w_loaderSteps ..)
      | apply Within.mono (w_rejectImage ..)
      | apply Within.mono (w_setF ..)
      | apply Within.mono (w_topoShow ..)
      | apply Within.mono (w_wr ..)
      | apply Within.mono (w_wr64 ..)
    | (simp only [fieldOf]; decide)
    | (show 0x200000200000 ≤ _; (try simp only [TOPO_MEAS, TOPO_SEQ, TOPO_SEQ_LO, TOPO_STATUS, TOPO_STATUS_RUN_SLOT, TOPO_SVN]); (repeat' split) <;> omega)
    | intro _
    | split
    | extract_lets
    | (refine wRun ?_; split <;> intro _)
    | dsimp only

theorem cw_fltPartRaise (src : Master) (p : Nat) (s : State) : CmdWithin 604462909807317808578561 (.fltPartRaise src p) s := by
  refine ⟨_, rfl, ?_⟩
  repeat' first
    | exact (rfl : (_ : Nat) = _)
    | exact (rfl : (_ : Bool) = _)
    | with_reducible first
      | exact wNil
      | apply Within.mono (w_raiseWrite ..)
    | (simp only [fieldOf]; decide)
    | intro _
    | split
    | extract_lets
    | (refine wRun ?_; split <;> intro _)
    | dsimp only

theorem cw_jobFault (p : Nat) (s : State) : CmdWithin 604462990885340086820867 (.jobFault p) s := by
  refine ⟨_, rfl, ?_⟩
  repeat' first
    | exact (rfl : (_ : Nat) = _)
    | exact (rfl : (_ : Bool) = _)
    | with_reducible first
      | exact wNil | exact wNop | refine wIf ?_ ?_ | refine wIfAct ?_ ?_
      | apply Within.mono (w_faultNext ..)
    | (simp only [fieldOf]; decide)
    | intro _
    | split
    | extract_lets
    | (refine wRun ?_; split <;> intro _)
    | dsimp only

theorem cw_jobRestartInPitch (p : Nat) (s : State) : CmdWithin 34360524801 (.jobRestartInPitch p) s := by
  refine ⟨_, rfl, ?_⟩
  repeat' first
    | exact (rfl : (_ : Nat) = _)
    | exact (rfl : (_ : Bool) = _)
    | with_reducible first
      | exact wNil | exact wSeqNil | refine wSeq ?_ (fun _ => ?_) | refine wIf ?_ ?_ | refine wIfAct ?_ ?_ | refine wEach (fun _ _ => ?_)
      | apply Within.mono (w_setCore ..)
      | apply Within.mono (w_setF_hi _ _ _ ?_)
      | apply Within.mono (w_setPart ..)
      | apply Within.mono (w_startThreads ..)
    | (simp only [fieldOf]; decide)
    | (show 0x200000200000 ≤ _; (try simp only [CORE_STAT, CORE_STAT_ARRIVED, PRT_CLU, PRT_CLU_PWR, coreBase]); (repeat' split) <;> omega)
    | intro _
    | split
    | extract_lets
    | (refine wRun ?_; split <;> intro _)
    | dsimp only

theorem cw_readmit (src : Master) (d : Nat) (pass : Bool) (s : State) : CmdWithin 3322019843 (.readmit src d pass) s := by
  refine ⟨_, rfl, ?_⟩
  repeat' first
    | exact (rfl : (_ : Nat) = _)
    | exact (rfl : (_ : Bool) = _)
    | with_reducible first
      | exact wNil
      | refine w_guarded ?_ (fun _ => ?_)
      | apply Within.mono (w_readmit ..)
    | (simp only [fieldOf]; decide)
    | intro _
    | split
    | extract_lets
    | (refine wRun ?_; split <;> intro _)
    | dsimp only

theorem cw_allRst (src : Master) (s : State) : CmdWithin 39614081257132168799993200640 (.allRst src) s := by
  refine ⟨_, rfl, ?_⟩
  repeat' first
    | exact (rfl : (_ : Nat) = _)
    | exact (rfl : (_ : Bool) = _)
    | with_reducible first
      | exact wNil | refine wCons ?_ ?_
      | refine w_guarded ?_ (fun _ => ?_)
    | (simp only [fieldOf]; decide)
    | intro _
    | split
    | extract_lets
    | (refine wRun ?_; split <;> intro _)
    | dsimp only

theorem cw_unhold (src : Master) (p : Nat) (s : State) : CmdWithin 3221225473 (.unhold src p) s := by
  refine ⟨_, rfl, ?_⟩
  repeat' first
    | exact (rfl : (_ : Nat) = _)
    | exact (rfl : (_ : Bool) = _)
    | with_reducible first
      | exact wNil
      | refine w_guarded ?_ (fun _ => ?_)
      | apply Within.mono (w_unhold ..)
    | (simp only [fieldOf]; decide)
    | intro _
    | split
    | extract_lets
    | (refine wRun ?_; split <;> intro _)
    | dsimp only

theorem cw_fltShareWrite (src : Master) (p hi v : Nat) (s : State) : CmdWithin 3221225473 (.fltShareWrite src p hi v) s := by
  refine ⟨_, rfl, ?_⟩
  repeat' first
    | exact (rfl : (_ : Nat) = _)
    | exact (rfl : (_ : Bool) = _)
    | with_reducible first
      | exact wNil
      | refine w_guarded ?_ (fun _ => ?_)
      | apply Within.mono (w_shareWrite ..)
    | (simp only [fieldOf]; decide)
    | intro _
    | split
    | extract_lets
    | (refine wRun ?_; split <;> intro _)
    | dsimp only

theorem cw_sliceStart (d c k now : Nat) (s : State) : CmdWithin 39614081257132168796771975210 (.sliceStart d c k now) s := by
  refine ⟨_, rfl, ?_⟩
  repeat' first
    | exact (rfl : (_ : Nat) = _)
    | exact (rfl : (_ : Bool) = _)
    | with_reducible first
      | exact wNil | exact wSeqNil | refine wSeq ?_ (fun _ => ?_) | refine wIf ?_ ?_ | refine wIfAct ?_ ?_ | refine wUpd ?_ | refine wApp ?_ ?_
      | apply Within.mono (w_advance ..)
      | apply Within.mono (w_sliceBytes ..)
    | (simp only [fieldOf]; decide)
    | intro _
    | split
    | extract_lets
    | (refine wRun ?_; split <;> intro _)
    | dsimp only

theorem cw_sliceCheckpoint (d now : Nat) (s : State) : CmdWithin 39614081257132168796771975211 (.sliceCheckpoint d now) s := by
  refine ⟨_, rfl, ?_⟩
  repeat' first
    | exact (rfl : (_ : Nat) = _)
    | exact (rfl : (_ : Bool) = _)
    | with_reducible first
      | exact wNil | exact wSeqNil | refine wSeq ?_ (fun _ => ?_) | refine wIf ?_ ?_ | refine wIfAct ?_ ?_ | refine wCons ?_ ?_
      | apply Within.mono (w_advance ..)
      | apply Within.mono (w_sliceAbandon ..)
    | (simp only [fieldOf]; decide)
    | intro _
    | split
    | extract_lets
    | (refine wRun ?_; split <;> intro _)
    | dsimp only

theorem cw_sliceEnd (d now : Nat) (pass : Bool) (s : State) : CmdWithin 39614081257213233694083346475 (.sliceEnd d now pass) s := by
  refine ⟨_, rfl, ?_⟩
  repeat' first
    | exact (rfl : (_ : Nat) = _)
    | exact (rfl : (_ : Bool) = _)
    | with_reducible first
      | exact wNil | exact wSeqNil | refine wSeq ?_ (fun _ => ?_) | refine wWhen ?_ | refine wIf ?_ ?_ | refine wIfAct ?_ ?_ | refine wCons ?_ ?_ | refine wApp ?_ ?_
      | apply Within.mono (w_advance ..)
      | apply Within.mono (w_dieRemove ..)
      | apply Within.mono (w_faultRecord ..)
      | apply Within.mono (w_incReg_hi _ _ ?_)
      | apply Within.mono (w_sliceBytes ..)
      | apply Within.mono (w_sliceDrop ..)
    | (simp only [fieldOf]; decide)
    | (show 0x200000200000 ≤ _; (try simp only [FLT_DIE_FAIL_CNT, FLT_ST_SLICE_CNT, PRT_CLU, PRT_CLU_PART]); (repeat' split) <;> omega)
    | intro _
    | split
    | extract_lets
    | (refine wRun ?_; split <;> intro _)
    | dsimp only

theorem cw_selfTestWindowEnd (now : Nat) (s : State) : CmdWithin 39614081257132168796771975177 (.selfTestWindowEnd now) s := by
  refine ⟨_, rfl, ?_⟩
  repeat' first
    | exact (rfl : (_ : Nat) = _)
    | exact (rfl : (_ : Bool) = _)
    | with_reducible first
      | exact wNil | exact wSeqNil | refine wSeq ?_ (fun _ => ?_) | refine wIf ?_ ?_ | refine wIfAct ?_ ?_ | refine wUpd ?_
      | apply Within.mono (w_advance ..)
      | apply Within.mono (w_incSat_hi _ _ ?_)
      | apply Within.mono (w_setF_hi _ _ _ ?_)
    | (simp only [fieldOf]; decide)
    | (show 0x200000200000 ≤ _; (try simp only [FLT_ST_STAT, FLT_ST_STAT_COV_MISS, FLT_ST_STAT_MISS_RUN, PCH_EPOCH, PCH_EPOCH_LO, PCH_STATUS, PCH_STATUS_RUNNING, PRT_CLU, PRT_CLU_PART]); (repeat' split) <;> omega)
    | intro _
    | split
    | extract_lets
    | (refine wRun ?_; split <;> intro _)
    | dsimp only

theorem cw_managementWatchdog  (s : State) : CmdWithin 19807040628566084432745725953 (.managementWatchdog ) s := by
  refine ⟨_, rfl, ?_⟩
  repeat' first
    | exact (rfl : (_ : Nat) = _)
    | exact (rfl : (_ : Bool) = _)
    | with_reducible first
      | exact wNil | exact wSeqNil | refine wSeq ?_ (fun _ => ?_) | refine wIf ?_ ?_ | refine wIfAct ?_ ?_ | refine wEach (fun _ _ => ?_)
      | apply Within.mono (w_cancelPartial ..)
      | apply Within.mono (w_setF_hi _ _ _ ?_)
      | apply Within.mono (w_setPart ..)
    | (simp only [fieldOf]; decide)
    | (show 0x200000200000 ≤ _; (try simp only [FLT_PART_STAT, FLT_PART_STAT_NOFIT]); (repeat' split) <;> omega)
    | intro _
    | split
    | extract_lets
    | (refine wRun ?_; split <;> intro _)
    | dsimp only

theorem cw_quoteGo (src : Master) (s : State) : CmdWithin 9903520314283042202414219265 (.quoteGo src) s := by
  refine ⟨_, rfl, ?_⟩
  repeat' first
    | exact (rfl : (_ : Nat) = _)
    | exact (rfl : (_ : Bool) = _)
    | with_reducible first
      | exact wNil
      | refine w_guarded ?_ (fun _ => ?_)
      | apply Within.mono (w_quoteGo ..)
    | (simp only [fieldOf]; decide)
    | intro _
    | split
    | extract_lets
    | (refine wRun ?_; split <;> intro _)
    | dsimp only

theorem cw_quoteDone (now : Nat) (s : State) : CmdWithin 9903520314283055397037670411 (.quoteDone now) s := by
  refine ⟨_, rfl, ?_⟩
  repeat' first
    | exact (rfl : (_ : Nat) = _)
    | exact (rfl : (_ : Bool) = _)
    | with_reducible first
      | exact wNil | exact wSeqNil | refine wSeq ?_ (fun _ => ?_) | refine wIf ?_ ?_ | refine wIfAct ?_ ?_ | refine wUpd ?_ | refine wApp ?_ ?_
      | apply Within.mono (w_advance ..)
      | apply Within.mono (w_incReg_hi _ _ ?_)
      | apply Within.mono (w_setF_hi _ _ _ ?_)
      | apply Within.mono (w_unitWrite ..)
    | (simp only [fieldOf]; decide)
    | (show 0x200000200000 ≤ _; (try simp only [SEC_Q_CNT, SEC_Q_STAT, SEC_Q_STAT_CODE, SEC_Q_STAT_STATE]); (repeat' split) <;> omega)
    | intro _
    | split
    | extract_lets
    | (refine wRun ?_; split <;> intro _)
    | dsimp only

theorem cw_storeWriteRetry (x : Nat) (ok : Bool) (s : State) : CmdWithin 2475880078570760549798248449 (.storeWriteRetry x ok) s := by
  refine ⟨_, rfl, ?_⟩
  repeat' first
    | exact (rfl : (_ : Nat) = _)
    | exact (rfl : (_ : Bool) = _)
    | with_reducible first
      | exact wNil | refine wIf ?_ ?_ | refine wIfAct ?_ ?_
      | apply Within.mono (w_storeWrite ..)
    | (simp only [fieldOf]; decide)
    | intro _
    | split
    | extract_lets
    | (refine wRun ?_; split <;> intro _)
    | dsimp only

theorem cw_debugExpiry (now : Nat) (s : State) : CmdWithin 79237833920821254626941599757 (.debugExpiry now) s := by
  refine ⟨_, rfl, ?_⟩
  repeat' first
    | exact (rfl : (_ : Nat) = _)
    | exact (rfl : (_ : Bool) = _)
    | with_reducible first
      | exact wNil | exact wSeqNil | refine wSeq ?_ (fun _ => ?_) | refine wIf ?_ ?_ | refine wIfAct ?_ ?_
      | apply Within.mono (w_advance ..)
      | apply Within.mono (w_levelFall ..)
    | (simp only [fieldOf]; decide)
    | intro _
    | split
    | extract_lets
    | (refine wRun ?_; split <;> intro _)
    | dsimp only

theorem cw_referenceStable (k now : Nat) (s : State) : CmdWithin 94122128621139941062778945561 (.referenceStable k now) s := by
  refine ⟨_, rfl, ?_⟩
  repeat' first
    | exact (rfl : (_ : Nat) = _)
    | exact (rfl : (_ : Bool) = _)
    | with_reducible first
      | exact wNil | exact wSeqNil | refine wSeq ?_ (fun _ => ?_) | refine wWhen ?_ | refine wIf ?_ ?_ | refine wIfAct ?_ ?_ | refine wUpd ?_
      | apply Within.mono (w_advance ..)
      | apply Within.mono (w_setF_hi _ _ _ ?_)
      | apply Within.mono (w_stage1 ..)
    | (simp only [fieldOf]; decide)
    | (show 0x200000200000 ≤ _; (try simp only [CLK_STAT, CLK_STAT_PCIE_REF_OK]); (repeat' split) <;> omega)
    | intro _
    | split
    | extract_lets
    | (refine wRun ?_; split <;> intro _)
    | dsimp only

theorem cw_pllLock (d k : Nat) (s : State) : CmdWithin 1 (.pllLock d k) s := by
  refine ⟨_, rfl, ?_⟩
  repeat' first
    | exact (rfl : (_ : Nat) = _)
    | exact (rfl : (_ : Bool) = _)
    | with_reducible first
      | exact wNil | refine wIf ?_ ?_ | refine wIfAct ?_ ?_
      | apply Within.mono (w_setF_hi _ _ _ ?_)
    | (simp only [fieldOf]; decide)
    | (show 0x200000200000 ≤ _; (try simp only [CLK_CD_PLL, CLK_CD_PLL_F_LOCK, CLK_CD_PLL_P1_LOCK, CLK_CD_PLL_P1_PT, CLK_CD_PLL_P2_LOCK, CLK_CD_PLL_P2_PT]); (repeat' split) <;> omega)
    | intro _
    | split
    | extract_lets
    | (refine wRun ?_; split <;> intro _)
    | dsimp only

theorem cw_clockSourceFail (k now : Nat) (s : State) : CmdWithin 312231689283450959414423420879 (.clockSourceFail k now) s := by
  refine ⟨_, rfl, ?_⟩
  repeat' first
    | exact (rfl : (_ : Nat) = _)
    | exact (rfl : (_ : Bool) = _)
    | with_reducible first
      | exact wNil | exact wSeqNil | refine wSeq ?_ (fun _ => ?_) | refine wIf ?_ ?_ | refine wIfAct ?_ ?_ | refine wCons ?_ ?_ | refine wApp ?_ ?_
      | apply Within.mono (w_advance ..)
      | apply Within.mono (w_ancReset ..)
      | apply Within.mono (w_dieRemove ..)
      | apply Within.mono (w_incReg ..)
      | apply Within.mono (w_ioResetPads ..)
      | apply Within.mono (w_setF ..)
    | (simp only [fieldOf]; decide)
    | (show 0x200000200000 ≤ _; (try simp only [CLK_FAIL, CLK_FAIL_CNT, CLK_FAIL_PITCH, CLK_FAIL_SRC, CLK_STAT, CLK_STAT_PCIE_REF_OK, PCIE_STAT, PCIE_STAT_LINK_UP]); (repeat' split) <;> omega)
    | intro _
    | split
    | extract_lets
    | (refine wRun ?_; split <;> intro _)
    | dsimp only

theorem cw_ptReqWrite (src : Master) (d c v : Nat) (s : State) : CmdWithin 3221225473 (.ptReqWrite src d c v) s := by
  refine ⟨_, rfl, ?_⟩
  repeat' first
    | exact (rfl : (_ : Nat) = _)
    | exact (rfl : (_ : Bool) = _)
    | with_reducible first
      | exact wNil | refine wIf ?_ ?_ | refine wIfAct ?_ ?_
      | apply Within.mono (w_ptReqWrite ..)
    | (simp only [fieldOf]; decide)
    | intro _
    | split
    | extract_lets
    | (refine wRun ?_; split <;> intro _)
    | dsimp only

theorem cw_ptSetWrite (src : Master) (w : Nat) (s : State) : CmdWithin 3221225473 (.ptSetWrite src w) s := by
  refine ⟨_, rfl, ?_⟩
  repeat' first
    | exact (rfl : (_ : Nat) = _)
    | exact (rfl : (_ : Bool) = _)
    | with_reducible first
      | exact wNil
      | apply Within.mono (w_ptSetWrite ..)
    | (simp only [fieldOf]; decide)
    | intro _
    | split
    | extract_lets
    | (refine wRun ?_; split <;> intro _)
    | dsimp only

theorem cw_supplyWarning (r mv fallAt now : Nat) (s : State) : CmdWithin 38685626299725727628525581 (.supplyWarning r mv fallAt now) s := by
  refine ⟨_, rfl, ?_⟩
  repeat' first
    | exact (rfl : (_ : Nat) = _)
    | exact (rfl : (_ : Bool) = _)
    | with_reducible first
      | exact wNil | exact wSeqNil | refine wSeq ?_ (fun _ => ?_) | refine wWhen ?_ | refine wIf ?_ ?_ | refine wIfAct ?_ ?_ | refine wUpd ?_ | refine wEach (fun _ _ => ?_)
      | apply Within.mono (w_advance ..)
      | apply Within.mono (w_clkShowDie ..)
      | apply Within.mono (w_incReg_hi _ _ ?_)
      | apply Within.mono (w_railEvent ..)
      | apply Within.mono (w_railMin ..)
      | apply Within.mono (w_setF_hi _ _ _ ?_)
    | (simp only [fieldOf]; decide)
    | (show 0x200000200000 ≤ _; (try simp only [PWR_STAT, PWR_STAT_DIP, PWR_STAT_LEVEL, PWR_VMIN, PWR_VMIN_MV, PWR_WARN_CNT]); (repeat' split) <;> omega)
    | intro _
    | split
    | extract_lets
    | (refine wRun ?_; split <;> intro _)
    | dsimp only

theorem cw_supplyRestoreTimer (r now : Nat) (s : State) : CmdWithin 94122128621139941062778945561 (.supplyRestoreTimer r now) s := by
  refine ⟨_, rfl, ?_⟩
  repeat' first
    | exact (rfl : (_ : Nat) = _)
    | exact (rfl : (_ : Bool) = _)
    | with_reducible first
      | exact wNil | exact wSeqNil | refine wSeq ?_ (fun _ => ?_) | refine wWhen ?_ | refine wIf ?_ ?_ | refine wIfAct ?_ ?_ | refine wUpd ?_
      | apply Within.mono (w_advance ..)
      | apply Within.mono (w_dipEnd ..)
      | apply Within.mono (w_stage1 ..)
    | (simp only [fieldOf]; decide)
    | intro _
    | split
    | extract_lets
    | (refine wRun ?_; split <;> intro _)
    | dsimp only

theorem cw_supplyReset (r mv now : Nat) (s : State) : CmdWithin 312270374909678627548148236239 (.supplyReset r mv now) s := by
  refine ⟨_, rfl, ?_⟩
  repeat' first
    | exact (rfl : (_ : Nat) = _)
    | exact (rfl : (_ : Bool) = _)
    | with_reducible first
      | exact wNil | exact wSeqNil | refine wSeq ?_ (fun _ => ?_) | refine wWhen ?_ | refine wIf ?_ ?_ | refine wIfAct ?_ ?_ | refine wUpd ?_ | refine wEach (fun _ _ => ?_)
      | apply Within.mono (w_advance ..)
      | apply Within.mono (w_ancPowerLoss ..)
      | apply Within.mono (w_clkShowDie ..)
      | apply Within.mono (w_dieRemove ..)
      | apply Within.mono (w_dramLoss ..)
      | apply Within.mono (w_incReg ..)
      | apply Within.mono (w_ioReset ..)
      | apply Within.mono (w_railMin ..)
      | apply Within.mono (w_rwsClear_any ..)
      | apply Within.mono (w_setF ..)
    | (simp only [fieldOf]; decide)
    | (show 0x200000200000 ≤ _; (try simp only [PWR_STAT, PWR_STAT_DIP, PWR_STAT_LEVEL, PWR_WARN_CNT]); (repeat' split) <;> omega)
    | intro _
    | split
    | extract_lets
    | (refine wRun ?_; split <;> intro _)
    | dsimp only

theorem cw_pwrVminWrite (src : Master) (r : Nat) (s : State) : CmdWithin 3221225473 (.pwrVminWrite src r) s := by
  refine ⟨_, rfl, ?_⟩
  repeat' first
    | exact (rfl : (_ : Nat) = _)
    | exact (rfl : (_ : Bool) = _)
    | with_reducible first
      | exact wNil
      | refine w_guarded ?_ (fun _ => ?_)
      | apply Within.mono (w_setF_hi _ _ _ ?_)
    | (simp only [fieldOf]; decide)
    | (show 0x200000200000 ≤ _; (try simp only [PWR_VMIN, PWR_VMIN_MV]); (repeat' split) <;> omega)
    | intro _
    | split
    | extract_lets
    | (refine wRun ?_; split <;> intro _)
    | dsimp only

theorem cw_sysRstN (now : Nat) (s : State) : CmdWithin 228037259492986353134331723723 (.sysRstN now) s := by
  refine ⟨_, rfl, ?_⟩
  repeat' first
    | exact (rfl : (_ : Nat) = _)
    | exact (rfl : (_ : Bool) = _)
    | with_reducible first
      | exact wNil | exact wSeqNil | refine wSeq ?_ (fun _ => ?_) | refine wCons ?_ ?_
      | apply Within.mono (w_advance ..)
      | apply Within.mono (w_ioReset ..)
    | (simp only [fieldOf]; decide)
    | intro _
    | split
    | extract_lets
    | (refine wRun ?_; split <;> intro _)
    | dsimp only

theorem cw_anchorResetPin (x now : Nat) (s : State) : CmdWithin 113904990733313732877670678541 (.anchorResetPin x now) s := by
  refine ⟨_, rfl, ?_⟩
  repeat' first
    | exact (rfl : (_ : Nat) = _)
    | exact (rfl : (_ : Bool) = _)
    | with_reducible first
      | exact wNil | exact wNop | exact wSeqNil | refine wSeq ?_ (fun _ => ?_) | refine wIf ?_ ?_ | refine wIfAct ?_ ?_
      | apply Within.mono (w_advance ..)
      | apply Within.mono (w_ancReset ..)
    | (simp only [fieldOf]; decide)
    | intro _
    | split
    | extract_lets
    | (refine wRun ?_; split <;> intro _)
    | dsimp only

theorem cw_powerOn  (s : State) : CmdWithin 312579859919536001413892014023 (.powerOn ) s := by
  refine ⟨_, rfl, ?_⟩
  repeat' first
    | exact (rfl : (_ : Nat) = _)
    | exact (rfl : (_ : Bool) = _)
    | with_reducible first
      | exact wNil | exact wSeqNil | refine wSeq ?_ (fun _ => ?_) | refine wUpd ?_
      | apply Within.mono (w_ancPowerLoss ..)
      | apply w_clearTab
      | apply Within.mono (w_dramLoss ..)
      | apply Within.mono (w_ioReset ..)
    | (simp only [fieldOf]; first | decide | (split <;> decide))
    | intro _
    | split
    | extract_lets
    | (refine wRun ?_; split <;> intro _)
    | dsimp only

theorem cw_thermalSample (now p10 : Nat) (tin : Int) (ts : List Int) (pred : Nat) (s : State) : CmdWithin 77371252464356797460537387 (.thermalSample now p10 tin ts pred) s := by
  refine ⟨_, rfl, ?_⟩
  repeat' first
    | exact (rfl : (_ : Nat) = _)
    | exact (rfl : (_ : Bool) = _)
    | with_reducible first
      | exact wNil | exact wSeqNil | refine wSeq ?_ (fun _ => ?_) | refine wWhen ?_ | refine wIf ?_ ?_ | refine wIfAct ?_ ?_ | refine wCons ?_ ?_ | refine wEach (fun _ _ => ?_)
      | apply Within.mono (w_advance ..)
      | apply Within.mono (w_floorCheck ..)
      | apply Within.mono (w_floorEvent ..)
      | apply Within.mono (w_setF_hi _ _ _ ?_)
      | apply Within.mono (w_setThm ..)
    | (simp only [fieldOf]; decide)
    | (show 0x200000200000 ≤ _; (try simp only [FLT_POL, FLT_POL_REB_EN, THM_CTL, THM_CTL_FLOW_EN, THM_CTL_ROT_EN, THM_DIE_T, THM_DIE_T_T, THM_FLOW, THM_FLOW_ML_MIN, THM_P, THM_P_CAP, THM_P_P, THM_R, THM_RES, THM_RES_T, THM_R_R, THM_STAT, THM_STAT_FLOOR, THM_STAT_SLOPE, THM_TGT, THM_TGT_HYST_W, THM_THOT, THM_THOT_DIE, THM_THOT_T, THM_TIN, THM_TIN_T, THM_TJ_PEAK, THM_TJ_PEAK_T]); (repeat' split) <;> omega)
    | intro _
    | split
    | extract_lets
    | (refine wRun ?_; split <;> intro _)
    | dsimp only

theorem cw_flowPulse (now : Nat) (s : State) : CmdWithin 77371252455336267181195272 (.flowPulse now) s := by
  refine ⟨_, rfl, ?_⟩
  repeat' first
    | exact (rfl : (_ : Nat) = _)
    | exact (rfl : (_ : Bool) = _)
    | with_reducible first
      | exact wNil | exact wSeqNil | refine wSeq ?_ (fun _ => ?_) | refine wCons ?_ ?_
      | apply Within.mono (w_advance ..)
      | apply Within.mono (w_setThm ..)
    | (simp only [fieldOf]; decide)
    | intro _
    | split
    | extract_lets
    | (refine wRun ?_; split <;> intro _)
    | dsimp only

theorem cw_flowTimeout (now : Nat) (s : State) : CmdWithin 77371252464356797460537387 (.flowTimeout now) s := by
  refine ⟨_, rfl, ?_⟩
  repeat' first
    | exact (rfl : (_ : Nat) = _)
    | exact (rfl : (_ : Bool) = _)
    | with_reducible first
      | exact wNil | exact wSeqNil | refine wSeq ?_ (fun _ => ?_) | refine wIf ?_ ?_ | refine wIfAct ?_ ?_
      | apply Within.mono (w_advance ..)
      | apply Within.mono (w_floorEvent ..)
      | apply Within.mono (w_setF_hi _ _ _ ?_)
    | (simp only [fieldOf]; decide)
    | (show 0x200000200000 ≤ _; (try simp only [THM_CTL, THM_CTL_FLOW_EN, THM_FLOW_CFG, THM_FLOW_CFG_FLOW_TMO_MS, THM_STAT, THM_STAT_FLOW_LOST]); (repeat' split) <;> omega)
    | intro _
    | split
    | extract_lets
    | (refine wRun ?_; split <;> intro _)
    | dsimp only

theorem cw_thermalTrip (d now : Nat) (s : State) : CmdWithin 228346744502807698203056504779 (.thermalTrip d now) s := by
  refine ⟨_, rfl, ?_⟩
  repeat' first
    | exact (rfl : (_ : Nat) = _)
    | exact (rfl : (_ : Bool) = _)
    | with_reducible first
      | exact wNil | exact wNop | exact wSeqNil | refine wSeq ?_ (fun _ => ?_) | refine wIf ?_ ?_ | refine wIfAct ?_ ?_
      | apply Within.mono (w_advance ..)
      | apply Within.mono (w_dieTrip ..)
      | apply Within.mono (w_ioReset ..)
    | (simp only [fieldOf]; decide)
    | intro _
    | split
    | extract_lets
    | (refine wRun ?_; split <;> intro _)
    | dsimp only

theorem cw_thermalTripClear (d now : Nat) (s : State) : CmdWithin 94431613630961286131503726617 (.thermalTripClear d now) s := by
  refine ⟨_, rfl, ?_⟩
  repeat' first
    | exact (rfl : (_ : Nat) = _)
    | exact (rfl : (_ : Bool) = _)
    | with_reducible first
      | exact wNil | exact wSeqNil | refine wSeq ?_ (fun _ => ?_) | refine wIf ?_ ?_ | refine wIfAct ?_ ?_ | refine wUpd ?_
      | apply Within.mono (w_advance ..)
      | apply Within.mono (w_dieTripClear ..)
      | apply Within.mono (w_stage1 ..)
    | (simp only [fieldOf]; decide)
    | intro _
    | split
    | extract_lets
    | (refine wRun ?_; split <;> intro _)
    | dsimp only

theorem cw_thermalLimitWrite (src : Master) (which v : Nat) (s : State) : CmdWithin 3221225473 (.thermalLimitWrite src which v) s := by
  refine ⟨_, rfl, ?_⟩
  repeat' first
    | exact (rfl : (_ : Nat) = _)
    | exact (rfl : (_ : Bool) = _)
    | with_reducible first
      | exact wNil | refine wIf ?_ ?_ | refine wIfAct ?_ ?_
      | apply Within.mono (w_capUserWrite ..)
      | refine w_guarded ?_ (fun _ => ?_)
      | apply Within.mono (w_hystWrite ..)
      | apply Within.mono (w_tjWrite ..)
    | (simp only [fieldOf]; decide)
    | intro _
    | split
    | extract_lets
    | (refine wRun ?_; split <;> intro _)
    | dsimp only

theorem cw_boundWindowEnd (a : BndAcc) (s : State) : CmdWithin 154742504910672534362390529 (.boundWindowEnd a) s := by
  refine ⟨_, rfl, ?_⟩
  repeat' first
    | exact (rfl : (_ : Nat) = _)
    | exact (rfl : (_ : Bool) = _)
    | with_reducible first
      | exact wNil | exact wSeqNil | refine wSeq ?_ (fun _ => ?_) | refine wIf ?_ ?_ | refine wIfAct ?_ ?_ | refine wUpd ?_
      | apply Within.mono (w_setF_hi _ _ _ ?_)
      | apply Within.mono (w_wr64_hi _ _ _ ?_)
    | (simp only [fieldOf]; decide)
    | (show 0x200000200000 ≤ _; (try simp only [BND_ARITH_E, BND_ARITH_E_LO, BND_DDR_PIN, BND_DDR_PIN_LO, BND_DDR_RD, BND_DDR_RD_LO, BND_ENG_MAC, BND_ENG_MAC_LO, BND_ENG_SLOT, BND_ENG_SLOT_LO, BND_F_DDR, BND_F_DDR_F, BND_F_ENG, BND_F_ENG_F, BND_F_PKG, BND_F_PKG_F, BND_F_ROPE, BND_F_ROPE_F, BND_F_SRAM, BND_F_SRAM_F, BND_PKG_E, BND_PKG_E_LO, BND_ROPE_BND, BND_ROPE_BND_LO, BND_ROPE_MEAS, BND_ROPE_MEAS_LO, BND_STAT, BND_STAT_PITCH, BND_STAT_VALID]); (repeat' split) <;> omega)
    | intro _
    | split
    | extract_lets
    | (refine wRun ?_; split <;> intro _)
    | dsimp only

theorem cw_uartCharacter (c : Nat) (s : State) : CmdWithin 79228162514282351992053432321 (.uartCharacter c) s := by
  refine ⟨_, rfl, ?_⟩
  repeat' first
    | exact (rfl : (_ : Nat) = _)
    | exact (rfl : (_ : Bool) = _)
    | with_reducible first
      | exact wNil
      | apply Within.mono (w_uartChar ..)
    | (simp only [fieldOf]; decide)
    | intro _
    | split
    | extract_lets
    | (refine wRun ?_; split <;> intro _)
    | dsimp only

theorem cw_monHelp (now : Nat) (s : State) : CmdWithin 79228162514282351992053432329 (.monHelp now) s := by
  refine ⟨_, rfl, ?_⟩
  repeat' first
    | exact (rfl : (_ : Nat) = _)
    | exact (rfl : (_ : Bool) = _)
    | with_reducible first
      | refine w_monRun ?_ (fun _ _ _ => ?_)
      | exact wNil | exact wNop | refine wIf ?_ ?_ | refine wIfAct ?_ ?_
      | apply Within.mono (w_monRun ..)
    | (simp only [fieldOf]; decide)
    | intro _
    | split
    | extract_lets
    | (refine wRun ?_; split <;> intro _)
    | dsimp only

theorem cw_monBaud (now : Nat) (s : State) : CmdWithin 79228162514282351992053432329 (.monBaud now) s := by
  refine ⟨_, rfl, ?_⟩
  repeat' first
    | exact (rfl : (_ : Nat) = _)
    | exact (rfl : (_ : Bool) = _)
    | with_reducible first
      | refine w_monRun ?_ (fun _ _ _ => ?_)
      | exact wNil | exact wNop | exact wSeqNil | refine wSeq ?_ (fun _ => ?_) | refine wWhen ?_
      | apply Within.mono (w_advance ..)
      | apply Within.mono (w_monRun ..)
      | apply Within.mono (w_setF_hi _ _ _ ?_)
    | (simp only [fieldOf]; decide)
    | (show 0x200000200000 ≤ _; (try simp only [CRN_STAT, CRN_STAT_BAUD, ancBase]); (repeat' split) <;> omega)
    | intro _
    | split
    | extract_lets
    | (refine wRun ?_; split <;> intro _)
    | dsimp only

theorem cw_monChal (now : Nat) (s : State) : CmdWithin 79228162514282351992053432361 (.monChal now) s := by
  refine ⟨_, rfl, ?_⟩
  repeat' first
    | exact (rfl : (_ : Nat) = _)
    | exact (rfl : (_ : Bool) = _)
    | with_reducible first
      | refine w_monRun ?_ (fun _ _ _ => ?_)
      | exact wNil | exact wSeqNil | refine wSeq ?_ (fun _ => ?_) | refine wUpd ?_ | refine wCons ?_ ?_
      | apply Within.mono (w_monRun ..)
    | (simp only [fieldOf]; decide)
    | intro _
    | split
    | extract_lets
    | (refine wRun ?_; split <;> intro _)
    | dsimp only

theorem cw_monUnlock (b : List Byte) (now : Nat) (s : State) : CmdWithin 79228162514282351992053432333 (.monUnlock b now) s := by
  refine ⟨_, rfl, ?_⟩
  repeat' first
    | exact (rfl : (_ : Nat) = _)
    | exact (rfl : (_ : Bool) = _)
    | with_reducible first
      | refine w_monRun ?_ (fun _ _ _ => ?_)
      | exact wNil | exact wNop | exact wSeqNil | refine wSeq ?_ (fun _ => ?_) | refine wIf ?_ ?_ | refine wIfAct ?_ ?_ | refine wCons ?_ ?_ | refine wApp ?_ ?_
      | apply Within.mono (w_incReg_hi _ _ ?_)
      | apply Within.mono (w_monEvent ..)
      | apply Within.mono (w_monRun ..)
      | apply Within.mono (w_setF_hi _ _ _ ?_)
    | (simp only [fieldOf]; decide)
    | (show 0x200000200000 ≤ _; (try simp only [SEC_BOOT, SEC_BOOT_DEBUG, SEC_UNLOCK_CNT, ancBase]); (repeat' split) <;> omega)
    | intro _
    | split
    | extract_lets
    | (refine wRun ?_; split <;> intro _)
    | dsimp only

theorem cw_monLock (now : Nat) (s : State) : CmdWithin 79237833920839269025451081741 (.monLock now) s := by
  refine ⟨_, rfl, ?_⟩
  repeat' first
    | exact (rfl : (_ : Nat) = _)
    | exact (rfl : (_ : Bool) = _)
    | with_reducible first
      | refine w_monRun ?_ (fun _ _ _ => ?_)
      | exact wNil
      | apply Within.mono (w_levelFall ..)
      | apply Within.mono (w_monRun ..)
    | (simp only [fieldOf]; decide)
    | intro _
    | split
    | extract_lets
    | (refine wRun ?_; split <;> intro _)
    | dsimp only

theorem cw_monTopo (now : Nat) (s : State) : CmdWithin 79228162514282351992053432329 (.monTopo now) s := by
  refine ⟨_, rfl, ?_⟩
  repeat' first
    | exact (rfl : (_ : Nat) = _)
    | exact (rfl : (_ : Bool) = _)
    | with_reducible first
      | refine w_monRun ?_ (fun _ _ _ => ?_)
      | exact wNil | exact wNop | refine wApp ?_ ?_
      | apply Within.mono (w_monRun ..)
    | (simp only [fieldOf]; decide)
    | intro _
    | split
    | extract_lets
    | (refine wRun ?_; split <;> intro _)
    | dsimp only

theorem cw_monPstat (now : Nat) (s : State) : CmdWithin 79228162514282351992053432329 (.monPstat now) s := by
  refine ⟨_, rfl, ?_⟩
  repeat' first
    | exact (rfl : (_ : Nat) = _)
    | exact (rfl : (_ : Bool) = _)
    | with_reducible first
      | refine w_monRun ?_ (fun _ _ _ => ?_)
      | exact wNil | exact wNop | refine wIf ?_ ?_ | refine wIfAct ?_ ?_
      | apply Within.mono (w_monRun ..)
    | (simp only [fieldOf]; decide)
    | intro _
    | split
    | extract_lets
    | (refine wRun ?_; split <;> intro _)
    | dsimp only

theorem cw_monLog (now : Nat) (s : State) : CmdWithin 79228162514282351992053432361 (.monLog now) s := by
  refine ⟨_, rfl, ?_⟩
  repeat' first
    | exact (rfl : (_ : Nat) = _)
    | exact (rfl : (_ : Bool) = _)
    | with_reducible first
      | refine w_monRun ?_ (fun _ _ _ => ?_)
      | exact wNil | exact wNop | refine wUpd ?_
      | apply Within.mono (w_monRun ..)
    | (simp only [fieldOf]; decide)
    | intro _
    | split
    | extract_lets
    | (refine wRun ?_; split <;> intro _)
    | dsimp only

theorem cw_traceShow (now : Nat) (s : State) : CmdWithin 79228162514282351992053432329 (.traceShow now) s := by
  refine ⟨_, rfl, ?_⟩
  repeat' first
    | exact (rfl : (_ : Nat) = _)
    | exact (rfl : (_ : Bool) = _)
    | with_reducible first
      | refine w_monRun ?_ (fun _ _ _ => ?_)
      | exact wNil | exact wNop
      | apply Within.mono (w_monRun ..)
    | (simp only [fieldOf]; decide)
    | intro _
    | split
    | extract_lets
    | (refine wRun ?_; split <;> intro _)
    | dsimp only

theorem cw_partRestart (now : Nat) (s : State) : CmdWithin 79228162514282352026413170701 (.partRestart now) s := by
  refine ⟨_, rfl, ?_⟩
  repeat' first
    | exact (rfl : (_ : Nat) = _)
    | exact (rfl : (_ : Bool) = _)
    | with_reducible first
      | refine w_monRun ?_ (fun _ _ _ => ?_)
      | exact wNil | exact wNop | exact wSeqNil | refine wSeq ?_ (fun _ => ?_) | refine wApp ?_ ?_
      | apply Within.mono (w_cmdEvent ..)
      | apply Within.mono (w_decideRestart ..)
      | apply Within.mono (w_monRun ..)
    | (simp only [fieldOf]; decide)
    | intro _
    | split
    | extract_lets
    | (refine wRun ?_; split <;> intro _)
    | dsimp only

theorem cw_traceStart (now : Nat) (s : State) : CmdWithin 79237833920839269025451081741 (.traceStart now) s := by
  refine ⟨_, rfl, ?_⟩
  repeat' first
    | exact (rfl : (_ : Nat) = _)
    | exact (rfl : (_ : Bool) = _)
    | with_reducible first
      | refine w_monRun ?_ (fun _ _ _ => ?_)
      | exact wNil | exact wNop | exact wSeqNil | refine wSeq ?_ (fun _ => ?_) | refine wIf ?_ ?_ | refine wIfAct ?_ ?_ | refine wUpd ?_
      | apply Within.mono (w_cmdEvent ..)
      | apply Within.mono (w_monRun ..)
      | apply Within.mono (w_setF_hi _ _ _ ?_)
    | (simp only [fieldOf]; decide)
    | (show 0x200000200000 ≤ _; (try simp only [CRN_STAT, CRN_STAT_TRACE, ancBase]); (repeat' split) <;> omega)
    | intro _
    | split
    | extract_lets
    | (refine wRun ?_; split <;> intro _)
    | dsimp only

theorem cw_traceStop (now : Nat) (s : State) : CmdWithin 79237833920839269025451081741 (.traceStop now) s := by
  refine ⟨_, rfl, ?_⟩
  repeat' first
    | exact (rfl : (_ : Nat) = _)
    | exact (rfl : (_ : Bool) = _)
    | with_reducible first
      | refine w_monRun ?_ (fun _ _ _ => ?_)
      | exact wNil | exact wSeqNil | refine wSeq ?_ (fun _ => ?_)
      | apply Within.mono (w_cmdEvent ..)
      | apply Within.mono (w_monRun ..)
      | apply Within.mono (w_traceEnd ..)
    | (simp only [fieldOf]; decide)
    | intro _
    | split
    | extract_lets
    | (refine wRun ?_; split <;> intro _)
    | dsimp only

theorem cw_registerReadLo (r : Req) (now : Nat) (s : State) : CmdWithin 3512807712570220621 (.registerReadLo r now) s := by
  refine ⟨_, rfl, ?_⟩
  repeat' first
    | exact (rfl : (_ : Nat) = _)
    | exact (rfl : (_ : Bool) = _)
    | with_reducible first
      | exact wNil | exact wSeqNil | refine wSeq ?_ (fun _ => ?_) | refine wIf ?_ ?_ | refine wIfAct ?_ ?_
      | apply Within.mono (w_advance ..)
      | apply Within.mono (w_recordRefusal ..)
      | apply Within.mono (w_regRead ..)
      | apply Within.mono (w_respond ..)
    | (simp only [fieldOf]; decide)
    | intro _
    | split
    | extract_lets
    | (refine wRun ?_; split <;> intro _)
    | dsimp only

theorem cw_supplyRestore (r mv now : Nat) (s : State) : CmdWithin 38685626299725727628525581 (.supplyRestore r mv now) s := by
  refine ⟨_, rfl, ?_⟩
  repeat' first
    | exact (rfl : (_ : Nat) = _)
    | exact (rfl : (_ : Bool) = _)
    | with_reducible first
      | exact wNil | exact wSeqNil | refine wSeq ?_ (fun _ => ?_) | refine wWhen ?_ | refine wIf ?_ ?_ | refine wIfAct ?_ ?_ | refine wUpd ?_
      | apply Within.mono (w_advance ..)
      | apply Within.mono (w_railEvent ..)
      | apply Within.mono (w_railMin ..)
      | apply Within.mono (w_setF_hi _ _ _ ?_)
    | (simp only [fieldOf]; decide)
    | (show 0x200000200000 ≤ _; (try simp only [PWR_DIP_LAST, PWR_DIP_LAST_NS, PWR_STAT, PWR_STAT_LEVEL, PWR_VMIN, PWR_VMIN_MV]); (repeat' split) <;> omega)
    | intro _
    | split
    | extract_lets
    | (refine wRun ?_; split <;> intro _)
    | dsimp only

theorem cw_sysRstNRelease (now : Nat) (s : State) : CmdWithin 94122128621139941062778945561 (.sysRstNRelease now) s := by
  refine ⟨_, rfl, ?_⟩
  repeat' first
    | exact (rfl : (_ : Nat) = _)
    | exact (rfl : (_ : Bool) = _)
    | with_reducible first
      | exact wNil | exact wSeqNil | refine wSeq ?_ (fun _ => ?_) | refine wIf ?_ ?_ | refine wIfAct ?_ ?_ | refine wUpd ?_
      | apply Within.mono (w_advance ..)
      | apply Within.mono (w_stage1 ..)
    | (simp only [fieldOf]; decide)
    | intro _
    | split
    | extract_lets
    | (refine wRun ?_; split <;> intro _)
    | dsimp only

theorem cw_csiSyncChange (p : Nat) (sync : Bool) (s : State) : CmdWithin 1 (.csiSyncChange p sync) s := by
  refine ⟨_, rfl, ?_⟩
  repeat' first
    | exact (rfl : (_ : Nat) = _)
    | exact (rfl : (_ : Bool) = _)
    | with_reducible first
      | exact wNil | exact wSeqNil | refine wSeq ?_ (fun _ => ?_) | refine wWhen ?_ | refine wIf ?_ ?_ | refine wIfAct ?_ ?_
      | apply Within.mono (w_setF_hi _ _ _ ?_)
    | (simp only [fieldOf]; decide)
    | (show 0x200000200000 ≤ _; (try simp only [ING_CSI_STAT, ING_CSI_STAT_PHY_ERR, ING_CSI_STAT_SYNC]); (repeat' split) <;> omega)
    | intro _
    | split
    | extract_lets
    | (refine wRun ?_; split <;> intro _)
    | dsimp only

theorem cw_ethLinkChange (m : Nat) (up : Bool) (s : State) : CmdWithin 1 (.ethLinkChange m up) s := by
  refine ⟨_, rfl, ?_⟩
  repeat' first
    | exact (rfl : (_ : Nat) = _)
    | exact (rfl : (_ : Bool) = _)
    | with_reducible first
      | exact wNil | refine wIf ?_ ?_ | refine wIfAct ?_ ?_
      | apply Within.mono (w_setF_hi _ _ _ ?_)
    | (simp only [fieldOf]; decide)
    | (show 0x200000200000 ≤ _; (try simp only [ETH_STAT, ETH_STAT_LINK]); (repeat' split) <;> omega)
    | intro _
    | split
    | extract_lets
    | (refine wRun ?_; split <;> intro _)
    | dsimp only

theorem cw_egoWheelTimeout (now : Nat) (s : State) : CmdWithin 18889465931478580854793 (.egoWheelTimeout now) s := by
  refine ⟨_, rfl, ?_⟩
  repeat' first
    | exact (rfl : (_ : Nat) = _)
    | exact (rfl : (_ : Bool) = _)
    | with_reducible first
      | exact wNil | exact wSeqNil | refine wSeq ?_ (fun _ => ?_) | refine wIf ?_ ?_ | refine wIfAct ?_ ?_
      | apply Within.mono (w_advance ..)
      | apply Within.mono (w_setF_hi _ _ _ ?_)
      | apply Within.mono (w_setFus ..)
    | (simp only [fieldOf]; decide)
    | (show 0x200000200000 ≤ _; (try simp only [FUS_EGO_STAT, FUS_EGO_STAT_WHEEL_OK]); (repeat' split) <;> omega)
    | intro _
    | split
    | extract_lets
    | (refine wRun ?_; split <;> intro _)
    | dsimp only

theorem cw_kvRequestEnd (c : Nat) (s : State) : CmdWithin 13215024545795 (.kvRequestEnd c) s := by
  refine ⟨_, rfl, ?_⟩
  repeat' first
    | exact (rfl : (_ : Nat) = _)
    | exact (rfl : (_ : Bool) = _)
    | with_reducible first
      | exact wNil | exact wSeqNil | refine wSeq ?_ (fun _ => ?_) | refine wIf ?_ ?_ | refine wIfAct ?_ ?_
      | apply Within.mono (w_commitOpen ..)
      | apply Within.mono (w_commitRelease ..)
      | apply Within.mono (w_commitRollback ..)
      | apply Within.mono (w_kvEndFail ..)
      | apply Within.mono (w_kvEndOk ..)
    | (simp only [fieldOf]; decide)
    | intro _
    | split
    | extract_lets
    | (refine wRun ?_; split <;> intro _)
    | dsimp only

theorem cw_clusterWakeDone (d c : Nat) (s : State) : CmdWithin 13197863821315 (.clusterWakeDone d c) s := by
  refine ⟨_, rfl, ?_⟩
  repeat' first
    | exact (rfl : (_ : Nat) = _)
    | exact (rfl : (_ : Bool) = _)
    | with_reducible first
      | exact wNil | exact wSeqNil | refine wSeq ?_ (fun _ => ?_) | refine wIf ?_ ?_ | refine wIfAct ?_ ?_
      | apply Within.mono (w_clkShow ..)
      | apply Within.mono (w_setF_hi _ _ _ ?_)
      | apply Within.mono (w_wakeRelease ..)
    | (simp only [fieldOf]; decide)
    | (show 0x200000200000 ≤ _; (try simp only [BNK_CLU, BNK_CLU_STATE, PRT_CLU, PRT_CLU_PWR]); (repeat' split) <;> omega)
    | intro _
    | split
    | extract_lets
    | (refine wRun ?_; split <;> intro _)
    | dsimp only

end Sys2Proof.Laws
end

