-- ==== Sys2Proof/Tests/Slice0.lean ====
section
/-! SUPPORT. Tests: ill-formed commands are refused (one for each check), concrete states and operands meet the hypotheses of
every clause of the statements (`wit_<statement>`, clause by clause), and single steps with results worked out from the spec. -/
namespace Sys2Proof.Tests
set_option Elab.async false
open Sys2Proof hiding portOk
open Sys2Proof.Machine

/-! ### Ill-formed commands -/

/-- A request and a vector instruction to start from. -/
def rq0 : Req := { src := .mgmt, tag := 0, addr := 0, len := 0 }
def vi0 : VInstr := { op := .iadd, vd := 0, va := 0 }

theorem test_wf_refuses_1 : ([
    .stepTick 64 0,
    .computeTickApply 8 0,
    .anchorSidebandTick 2 0,
    .tickFault 2 0,
    .peerTick 2 0 [],
    .timeSyncMessage 4 0 0,
    .pchTrimWrite (.core 256) 0,
    .coreArrive 256,
    .barrierComplete 16 [] 0,
    .bundleReady .mgmt 16 0,
    .bundleReady .mgmt 0 256,
    .bundleReady (.core 256) 0 0,
    .bundleHashDone 16 0,
    .bundleHashDone 0 256,
    .segmentCopyDone 16 0,
    .superviseAck 2,
    .flitReceive 8 20 0 false [],
    .flitReceive 0 0 256 false [],
    .linkRetryRequest 8 20,
    .linkDown 8 20 0] : List Instr).all (fun i => !i.wf) = true := by decide

theorem test_wf_refuses_2 : ([
    .routeSwitch 8 0,
    .routeSwitch 0 64,
    .transactionTimeout (.core 256) 0,
    .memoryResponse (.core 256) 0 0 [],
    .rplDisable .mgmt 8 20,
    .rplDisable (.core 256) 0 0,
    .drainDone (.ctx 24),
    .drainTimeout (.ctx 24),
    .readReq { rq0 with src := .kvc 8 } 0,
    .writeReq { rq0 with src := .kvc 8 } 0,
    .atomicReturning { rq0 with src := .kvc 8 } 0,
    .atomicNonReturning { rq0 with src := .kvc 8 } 0,
    .fillReq { rq0 with src := .kvc 8 } 0,
    .copyReq { rq0 with src := .kvc 8 } 0,
    .readWin { rq0 with src := .kvc 8 } 0,
    .writeWin { rq0 with src := .kvc 8 } 0,
    .watchReq { rq0 with src := .kvc 8 } 0,
    .scrubRead 8,
    .scalarInstruction 256 0 .add 0 0 (.imm 0) 0,
    .scalarInstruction 0 64 .add 0 0 (.imm 0) 0] : List Instr).all (fun i => !i.wf) = true := by decide

theorem test_wf_refuses_3 : ([
    .scalarInstruction 0 0 .add 32 0 (.imm 0) 0,
    .scalarInstruction 0 0 .add 0 32 (.imm 0) 0,
    .vectorInstruction 256 0 vi0,
    .vectorInstruction 0 64 vi0,
    .vectorInstruction 0 0 { vi0 with vb := 56 },
    .blockEncode 256 0 0 0 0 0 0,
    .blockEncode 0 64 0 0 0 0 0,
    .blockEncode 0 0 0 56 0 0 0,
    .blockDecode 256 0 0 0 0 0 0,
    .blockDecode 0 64 0 0 0 0 0,
    .blockDecode 0 0 0 56 0 0 0,
    .loadInstr 256 0 .none 4 0 0,
    .loadInstr 0 64 .none 4 0 0,
    .loadInstr 0 0 .none 3 0 0,
    .storeInstr 256 0 .none 4 0 0,
    .storeInstr 0 64 .none 4 0 0,
    .storeInstr 0 0 .none 3 0 0,
    .gatherInstr 256 0 0 0 0 0,
    .gatherInstr 0 64 0 0 0 0,
    .gatherInstr 0 0 56 0 0 0] : List Instr).all (fun i => !i.wf) = true := by decide

theorem test_wf_refuses_4 : ([
    .gatherInstr 0 0 0 32 0 0,
    .gatherInstr 0 0 0 0 0 56,
    .scatterInstr 256 0 0 0 0 0,
    .scatterInstr 0 64 0 0 0 0,
    .scatterInstr 0 0 56 0 0 0,
    .scatterInstr 0 0 0 32 0 0,
    .scatterInstr 0 0 0 0 0 56,
    .atomicInstruction 256 0 .add false 4 0 0 0 0 0,
    .atomicInstruction 0 64 .add false 4 0 0 0 0 0,
    .atomicInstruction 0 0 .add false 4 32 0 0 0 0,
    .atomicInstruction 0 0 .add false 4 0 32 0 0 0,
    .atomicInstruction 0 0 .add false 4 0 0 0 32 0,
    .atomicInstruction 0 0 .add false 4 0 0 0 0 32,
    .atomicInstruction 0 0 .add false 3 0 0 0 0 0,
    .spawn 256 0 0 0 0 0,
    .spawn 0 64 0 0 0 0,
    .spawn 0 0 64 0 0 0,
    .spawn 0 0 0 32 0 0,
    .spawn 0 0 0 0 32 0,
    .spawn 0 0 0 0 0 32] : List Instr).all (fun i => !i.wf) = true := by decide

theorem test_wf_refuses_5 : ([
    .halt 256 0,
    .halt 0 64,
    .waitWord 256 0 0 0 0 0 0 0 0,
    .waitWord 0 64 0 0 0 0 0 0 0,
    .waitWord 0 0 32 0 0 0 0 0 0,
    .waitWord 0 0 0 0 0 0 0 32 0,
    .waitWord 0 0 0 0 0 0 0 0 32,
    .waitWord 0 0 0 0 65536 0 0 0 0,
    .waitWord 0 0 0 0 0 65536 0 0 0,
    .waite 256 0 0 0,
    .waite 0 64 0 0,
    .waite 0 0 8 0,
    .signalInstr 256 0 0 0 1 0,
    .signalInstr 0 64 0 0 1 0,
    .signalInstr 0 0 32 0 1 0,
    .signalInstr 0 0 0 0 0 0,
    .signalInstr 0 0 0 0 1 256,
    .fenceInstr 256 0 0,
    .fenceInstr 0 64 0,
    .fenceInstr 0 0 8] : List Instr).all (fun i => !i.wf) = true := by decide

theorem test_wf_refuses_6 : ([
    .tensorIssue 256 0 0 0 { kind := .mma },
    .tensorIssue 0 64 0 0 { kind := .mma },
    .tensorIssue 0 0 8 0 { kind := .mma },
    .tensorIssue 0 0 0 32 { kind := .mma },
    .watchValueDelivered 256,
    .waitPoll 256 0,
    .waitPoll 0 64,
    .waitTimeout 256 0,
    .waitTimeout 0 64,
    .mma 256 0,
    .mma 0 8,
    .mmaSp 256 0,
    .mmaSp 0 8,
    .accCvt 256 0,
    .accCvt 0 8,
    .accClr 256 0,
    .accClr 0 8,
    .engineOpFinish 256 0,
    .engineOpFinish 0 8,
    .coreClockGate 256] : List Instr).all (fun i => !i.wf) = true := by decide

theorem test_wf_refuses_7 : ([
    .bankPhaseStart 8 0 0 0,
    .bankPhaseStart 0 16 0 0,
    .bankPhaseStart 0 0 4 0,
    .bankDark 8 0 0,
    .bankDark 0 64 0,
    .bankWakeDone 8 0,
    .bankWakeDone 0 64,
    .bankOvrWrite .mgmt 8 0 false,
    .bankOvrWrite .mgmt 0 64 false,
    .bankOvrWrite (.core 256) 0 0 false,
    .scrubIntervalWrite .mgmt 8 0,
    .scrubIntervalWrite (.core 256) 0 0,
    .boxSubmit { rq0 with src := .kvc 8 },
    .boxDisable (.core 256),
    .kvOpen { rq0 with src := .kvc 8 },
    .kvAppend { rq0 with src := .kvc 8 },
    .kvRelease { rq0 with src := .kvc 8 },
    .kvRollback { rq0 with src := .kvc 8 },
    .kvWorkStart 8,
    .appendCommit 16] : List Instr).all (fun i => !i.wf) = true := by decide

theorem test_wf_refuses_8 : ([
    .kvMirrorFail 16,
    .kvcDisable .mgmt 8,
    .kvcDisable (.core 256) 0,
    .lendWindowStart 8 0 0,
    .lendWindowStart 0 4 0,
    .switchComplete 256,
    .lendWindowEnd 8 0 0,
    .lendWindowEnd 0 4 0,
    .lendWindowCloseEarly 8 0,
    .lendWindowCloseEarly 0 4,
    .bivouacRequest .mgmt 16,
    .bivouacRequest (.core 256) 0,
    .bivouacClear .mgmt 16,
    .bivouacClear (.core 256) 0,
    .parkingComplete 16,
    .releasedSetReceived 2,
    .releasedSetTimeout 2 0,
    .dmaArm .mgmt 8 32,
    .dmaArm (.core 256) 0 0,
    .dmaTake 8 32] : List Instr).all (fun i => !i.wf) = true := by decide

theorem test_wf_refuses_9 : ([
    .dmaChainFetchDone 8 32,
    .dmaFetchWrite .mgmt 8 32 0,
    .dmaFetchWrite (.core 256) 0 0 0,
    .dmaGo .mgmt 8 32,
    .dmaGo (.core 256) 0 0,
    .dmaMove 8 32 {},
    .dmaFill 8 32 {},
    .dmaCompare 8 32 {},
    .dmaComparePat 8 32 {},
    .dmaDescriptorComplete 8 32,
    .dmaDisable .mgmt 8 32,
    .dmaDisable (.core 256) 0 0,
    .windowCtlWrite .mgmt 64 false,
    .windowCtlWrite (.core 256) 0 false,
    .regulatedRequestEntry (.core 256) 0 0 false 0,
    .regulatedReadResponse (.core 256) 0 0,
    .regBudgetWrite .mgmt 18 0,
    .regBudgetWrite (.core 256) 0 0,
    .dramSchedule 24 0 [] 0,
    .bankIdlePrecharge 24 0 0] : List Instr).all (fun i => !i.wf) = true := by decide

theorem test_wf_refuses_10 : ([
    .bankIdlePrecharge 0 32 0,
    .refresh 24 0 false 0,
    .refresh 0 32 false 0,
    .mr4Read 12 false,
    .throttleExpire 12 0 0,
    .throttleExpire 0 18 0,
    .patrolScrub 12,
    .ddrFcTargetWrite (.core 256) 0,
    .dqsOscillatorRead 12 0,
    .frameSyncRise 16 0,
    .frameSyncFall 16 0,
    .frameStart 24 0 0,
    .linePacket 24 0 0 false [],
    .frameEnd 24 0,
    .lidarDatagram 24,
    .lidarRef 24 0,
    .bandAnnounce 24,
    .finalAnnounce 24 0,
    .contextDisable 24,
    .contextEnable 24] : List Instr).all (fun i => !i.wf) = true := by decide

theorem test_wf_refuses_11 : ([
    .spiStepTransferDone 4 [],
    .icuEvent 256,
    .icuClaim .mgmt 32,
    .icuClaim (.core 256) 0,
    .icuComplete .mgmt 32 0,
    .icuComplete .mgmt 0 256,
    .icuComplete (.core 256) 0 0,
    .ethFrameReceive 4 0 [],
    .ethTailWrite .mgmt 4 0 0,
    .ethTailWrite .mgmt 0 3 0,
    .ethTailWrite (.core 256) 0 0 0,
    .ethFrameLaunch 4 0,
    .ethFrameSent 4 0,
    .ethDisable .mgmt 4,
    .ethDisable (.core 256) 0,
    .canFrameReceive 6 0 0 0 0 [] false,
    .canFrameReceive 0 0 0 0 65 [] false,
    .canTailWrite .mgmt 6 0 0,
    .canTailWrite .mgmt 0 3 0,
    .canTailWrite (.core 256) 0 0 0] : List Instr).all (fun i => !i.wf) = true := by decide

theorem test_wf_refuses_12 : ([
    .canFrameLaunch 6 0,
    .canFrameSent 6 0 0 0,
    .canBusOff 6,
    .canBusOffRecovery 6,
    .canDisable .mgmt 6,
    .canDisable (.core 256) 0,
    .spiGo .mgmt 4 0 0,
    .spiGo (.core 256) 0 0 0,
    .spiHeldStart 4,
    .spiTransferDone 4 [],
    .i2cGo .mgmt 2 0,
    .i2cGo (.core 256) 0 0,
    .i2cCommandEnd 2 0 0 [],
    .i2cTimeout 2,
    .pcieOutboundTimeout (.core 256) 0,
    .pcieCfgWrite (.core 256) 0,
    .pcieCfgRead (.core 256),
    .pcieMsixTrigger (.core 256) 0 false,
    .pcieInboundRequest false 1 0 0 [] 0 0,
    .pcieDisable (.core 256)] : List Instr).all (fun i => !i.wf) = true := by decide

theorem test_wf_refuses_13 : ([
    .fusCommit (.core 256),
    .contributorAnnounce 32,
    .fusionDisable (.core 256),
    .trvCommit (.core 256),
    .mapCommit (.core 256),
    .trvHoldWrite (.core 256) 0,
    .layerCopy 8,
    .traverseDisable (.core 256),
    .lockstepCheckpoint 2,
    .lockstepMismatch 2 none,
    .anchorWatchdog 2,
    .anchorSelfReset 2 0,
    .crossLinkFrame 2 0 false,
    .heartbeatSend 2,
    .crossLinkLoss 2 0,
    .taskReport .mgmt 64,
    .taskReport (.core 256) 0,
    .deadlineCheck 2 0 0,
    .deadlineCheck 0 64 0,
    .spotterStart 2 0 []] : List Instr).all (fun i => !i.wf) = true := by decide

theorem test_wf_refuses_14 : ([
    .spotterCompare 2 0,
    .trajectoryDone .mgmt 16,
    .trajectoryDone (.core 256) 0,
    .belayFrame 2 0,
    .statusFrame 2 0,
    .anchorSramScrub 2 [],
    .anchorBoot 2 false false false false 0,
    .fltPartRaise .mgmt 16,
    .fltPartRaise (.core 256) 0,
    .jobFault 16,
    .jobRestartInPitch 16,
    .readmit .mgmt 8 false,
    .readmit (.core 256) 0 false,
    .allRst (.core 256),
    .unhold .mgmt 16,
    .unhold (.core 256) 0,
    .fltShareWrite .mgmt 16 0 0,
    .fltShareWrite .mgmt 0 2 0,
    .fltShareWrite (.core 256) 0 0 0,
    .sliceStart 8 0 0 0] : List Instr).all (fun i => !i.wf) = true := by decide

theorem test_wf_refuses_15 : ([
    .sliceStart 0 4 0 0,
    .sliceStart 0 0 8 0,
    .sliceCheckpoint 8 0,
    .sliceEnd 8 0 false,
    .quoteGo (.core 256),
    .storeWriteRetry 2 false,
    .referenceStable 16 0,
    .pllLock 8 0,
    .pllLock 0 3,
    .clockSourceFail 16 0,
    .ptReqWrite .mgmt 8 0 0,
    .ptReqWrite .mgmt 0 4 0,
    .ptReqWrite (.core 256) 0 0 0,
    .ptSetWrite (.core 256) 0,
    .supplyWarning 11 0 0 0,
    .supplyRestoreTimer 11 0,
    .supplyReset 11 0 0,
    .pwrVminWrite .mgmt 9,
    .pwrVminWrite (.core 256) 0,
    .anchorResetPin 2 0] : List Instr).all (fun i => !i.wf) = true := by decide

theorem test_wf_refuses_16 : ([
    .thermalTrip 9 0,
    .thermalTripClear 9 0,
    .thermalLimitWrite .mgmt 3 0,
    .thermalLimitWrite (.core 256) 0 0,
    .uartCharacter 256,
    .registerWrite { rq0 with src := .kvc 8 } 0,
    .registerReadLo { rq0 with src := .kvc 8 } 0,
    .supplyRestore 11 0 0,
    .csiSyncChange 8 false,
    .ethLinkChange 4 false,
    .kvRequestEnd 16,
    .clusterWakeDone 8 0,
    .clusterWakeDone 0 4] : List Instr).all (fun i => !i.wf) = true := by decide

/-! ### States to start from -/

/-- The reset state after some actions. -/
def st (as : List Act) : State := runAct (seq as) State.reset
/-- running, tick raised, pitch 3, default period -/
def b1 (as : List Act) : State := { st (seq [setF PCH_CFG_RUN 1, setF PCH_STATUS_RUNNING 1, wr64 PCH_NUM 3, wr64 PCH_TICK 99999999] :: as) with ticked := true }
def bunHead : List Byte := leBytes 4 0x4C444E42 ++ leBytes 2 1 ++ leBytes 2 7 ++ leBytes 4 1 ++ leBytes 2 1 ++ leBytes 2 1 ++
  List.replicate 48 0 ++ leBytes 4 0x80 ++ leBytes 4 0x40 ++ leBytes 8 0x100000000000 ++ leBytes 2 0 ++ leBytes 2 0 ++ leBytes 4 0 ++
  leBytes 8 1 ++ List.replicate 96 0
def partImg : List Byte := leBytes 4 0x4F504F54 ++ leBytes 2 1 ++ leBytes 1 1 ++ leBytes 1 2 ++ leBytes 4 216 ++ leBytes 2 1 ++
  List.replicate 82 0 ++ leBytes 2 1 ++ leBytes 1 2 ++ leBytes 1 0 ++ leBytes 4 0x80 ++ leBytes 4 88 ++ leBytes 4 0 ++ List.replicate 16 0 ++
  leBytes 4 0x01020003 ++ leBytes 1 1 ++ leBytes 1 0 ++ leBytes 1 1 ++ leBytes 1 0 ++ List.replicate 24 0 ++
  leBytes 4 0x00000100 ++ leBytes 4 1 ++ sha256 [] ++ List.replicate 16 0
def bq : BoxReq := ⟨2, 64, 0, 0, 0, false, false, false, 1, 1, 1, 0, 8, 8, 0, 8, 0, 0, 0, 0, 64, 64, 4096, 8192, 0⟩
/-- Bank 3 of compute die 1 is ON and thread 2 of core 40 runs a job. -/
def bOn (as : List Act) : State := st ([setF (BNK_PWR_STATE 1 3) 2, setF (BNK_PWR_STATE 1 4) 2] ++ as)
def bk3 : Nat := 0x100010300000
def rd3 (n : Nat) (data : List Byte) : Req := { src := .dma 1 2, tag := 7, addr := bk3 + 64, len := n, data := data }
def thA (th : Thread) (as : List Act) : State := st ([setCore 40 (fun c => { c with hasJob := true, part := 2 }),
  setF (CLK_CLU_STOPPED 1 1) 0, upd (.threads (tkey 40 2) { th with running := true, pc := 0x100014800040 })] ++ as)

/-! ### Witnesses of the statements -/

theorem wit_TickBeginsPitch :
    (∃ (s : State) (now : Nat) (m : Nat), s.ok = true ∧ ownTicks s = true ∧ flag s PCH_CFG_RUN = true ∧ 0 < period s ∧ now / period s = s.n0 + m ∧ ((s.ticked = true → pitchNum s < m)) ∧ now % period s ≤ 1000 ∧ now < 2 ^ 64) ∧
    (∃ (s : State) (p : Nat) (now : Nat) (m : Nat), s.ok = true ∧ getF s PCH_CFG_ROLE = 2 ∧ peerPort s p = true ∧ flag s PCH_CFG_RUN = true ∧ 0 < period s ∧ now / period s = s.n0 + m ∧ ((s.ticked = true → pitchNum s < m)) ∧ now % period s ≤ 1000 ∧ now < 2 ^ 64) :=
  ⟨⟨st [setF PCH_CFG_RUN 1], 33333343, 1, by decide +kernel⟩,
   ⟨st [setF PCH_CFG_RUN 1, setF PCH_CFG_ROLE 2], 0, 33333343, 1, by decide +kernel⟩⟩
theorem wit_EventsWithinPitch :
    (∃ (s : State) (k : Nat) (now : Nat), s.ok = true ∧ flag s PCH_CFG_RUN = true ∧ s.ticked = true ∧ getF s PCH_STEP_STEP_IDX < k ∧ k < getF s PCH_STEP_STEP_CNT ∧ tickTime s + k * 1000000 ≤ now) ∧
    (∃ (s : State) (d : Nat) (now : Nat), s.ok = true ∧ d < 8 ∧ s.ticked = true ∧ dieRemoved s d = false ∧ tickTime s ≤ now) ∧
    (∃ (s : State) (now : Nat), s.ok = true ∧ getF s PCH_CFG_ROLE = 2 ∧ flag s PCH_CFG_RUN = true ∧ max s.peerTickAt (rd64 s PCH_EPOCH) + period s + 50000 ≤ now) ∧
    (∃ (s : State) (now : Nat), s.ok = true ∧ flag s PCH_CFG_RUN = true ∧ s.ticked = true ∧ guardStart s ≤ now ∧ now < tickTime s + period s ∧ s.guardPitch ≠ some (pitchNum s)) :=
  ⟨⟨b1 [setF PCH_STEP_STEP_CNT 33], 4, 104000000, by decide +kernel⟩,
   ⟨b1 [], 2, 100000100, by decide +kernel⟩,
   ⟨b1 [setF PCH_CFG_ROLE 2], 40000000, by decide +kernel⟩,
   ⟨b1 [], 133200000, by decide +kernel⟩⟩
theorem wit_DeviceTimeDiscipline :
    (∃ (s : State) (src : Master), s.ok = true ∧ swWriteOk src = true) ∧
    (∃ (src : Master), swWriteOk src = false) ∧
    (∃ (s : State) (m : Nat), m ≠ getF s PCH_CFG_TIME_PORT) ∧
    (∃ (s : State) (m : Nat), s.ok = true ∧ m = getF s PCH_CFG_TIME_PORT ∧ ((flag s PCH_CFG_RUN = true ∨ s.timeSet = true))) ∧
    (∃ (s : State) (m : Nat), s.ok = true ∧ m = getF s PCH_CFG_TIME_PORT ∧ flag s PCH_CFG_RUN = false ∧ s.timeSet = false) ∧
    (∃ (s : State), s.ok = true) :=
  ⟨⟨st [], .app 3, by decide +kernel⟩,
   ⟨.eth 0, by decide +kernel⟩,
   ⟨st [], 3, by decide +kernel⟩,
   ⟨b1 [], 0, by decide +kernel⟩,
   ⟨st [], 0, by decide +kernel⟩,
   ⟨st [], by decide +kernel⟩⟩
theorem wit_BarrierCompletes :
    (∃ (s : State) (g : Nat), s.ok = true ∧ (get_cores s g).hasJob = true ∧ canArrive s g = true ∧ ¬((get_cores s g).bor = 1 ∧ (get_cores s g).part ≠ coreOwner s g)) ∧
    (∃ (s : State) (g : Nat), s.ok = true ∧ (get_cores s g).hasJob = true ∧ canArrive s g = true ∧ (get_cores s g).bor = 1 ∧ (get_cores s g).part ≠ coreOwner s g) ∧
    (∃ (s : State) (g : Nat), ((get_cores s g).hasJob && canArrive s g) = false) ∧
    (∃ (s : State) (p : Nat), s.ok = true ∧ p < 16 ∧ jobRuns s p = true ∧ ((∀ d ∈ diesOf s p, dieArrived s p d = true))) :=
  ⟨⟨st [setCore 9 (fun c => { c with hasJob := true, part := 2 })], 9, by decide +kernel⟩,
   ⟨st [setCore 9 (fun c => { c with hasJob := true, part := 2, bor := 1 })], 9, by decide +kernel⟩,
   ⟨st [], 9, by decide +kernel⟩,
   ⟨b1 [setPart 2 (fun a => { a with hadJob := true })], 2, by decide +kernel⟩⟩
theorem wit_ForbiddenWritesRefused :
    (∃ (src : Master) (n : _) (p : _), swWriteOk src = false ∧ portOk n p = true) ∧
    (∃ (src : Master), swWriteOk src = false) ∧
    (∃ (src : Master), hostWriteOk src = false) ∧
    (∃ (s : State) (src : Master) (n : Nat) (ch : Nat), dmaWriteOk s n ch src = false) ∧
    (∃ (s : State) (src : Master) (w : Nat), winWriteOk s w src = false) ∧
    (∃ (s : State) (src : Master), trvHoldOk s src = false) ∧
    (∃ (src : Master), quoteWriteOk src = false) ∧
    (∃ (src : Master), announces src = false) :=
  ⟨⟨.kvc 0, 8, 3, by decide +kernel⟩,
   ⟨.kvc 0, by decide +kernel⟩,
   ⟨.pcie, by decide +kernel⟩,
   ⟨st [setF (DMA_CH_OWN_PART 0 3) 2], .core 5, 0, 3, by decide +kernel⟩,
   ⟨st [], .core 5, 3, by decide +kernel⟩,
   ⟨st [setF TRV_OWN_PART 3], .core 5, by decide +kernel⟩,
   ⟨.core 5, by decide +kernel⟩,
   ⟨.core 5, by decide +kernel⟩⟩
theorem wit_DisableDrains :
    (∃ (s : State) (src : Master) (n : _) (p : _), s.ok = true ∧ swWriteOk src = true ∧ portOk n p = true) ∧
    (∃ (s : State) (src : Master), s.ok = true ∧ swWriteOk src = true) ∧
    (∃ (s : State) (src : Master) (d : _), s.ok = true ∧ swWriteOk src = true ∧ d < 8) ∧
    (∃ (s : State) (src : Master), s.ok = true ∧ hostWriteOk src = true) ∧
    (∃ (s : State) (src : Master) (n : Nat) (ch : Nat), s.ok = true ∧ dmaExists n ch = true ∧ dmaWriteOk s n ch src = true) ∧
    (∃ (s : State) (x : Nat), s.ok = true ∧ ctxOn s x = false) ∧
    (∃ (s : State) (x : Nat), s.ok = true ∧ x < 24 ∧ ctxOn s x = true) ∧
    (∃ (s : State), s.ok = true) :=
  ⟨⟨st [setF (RPL_STAT_STATE 8 3) 1, setF (RPL_CTL_EN 8 3) 1, setF BOX_STAT_STATE 1, setF BOX_CTL_EN 1, setF (KVC_STAT_STATE 2) 1], .app 0, 8, 3, by decide +kernel⟩,
   ⟨st [setF (RPL_STAT_STATE 8 3) 1, setF (RPL_CTL_EN 8 3) 1, setF BOX_STAT_STATE 1, setF BOX_CTL_EN 1, setF (KVC_STAT_STATE 2) 1], .app 0, by decide +kernel⟩,
   ⟨st [setF (RPL_STAT_STATE 8 3) 1, setF (RPL_CTL_EN 8 3) 1, setF BOX_STAT_STATE 1, setF BOX_CTL_EN 1, setF (KVC_STAT_STATE 2) 1], .app 0, 2, by decide +kernel⟩,
   ⟨st [setF (ETH_STAT_STATE 2) 1, setF (ETH_CTL_EN 2) 1, setF (CAN_STAT_STATE 2) 1, setF (CAN_CTL_EN 2) 1, setF PCIE_STAT_STATE 1], .app 0, by decide +kernel⟩,
   ⟨st [setF (DMA_CH_OWN_PART 8 3) 2, setF (PRT_CLU_PART 0 0) 2, setF (DMA_CH_STAT_STATE 8 3) 1], .core 5, 8, 3, by decide +kernel⟩,
   ⟨st [setF (ING_CTX_CTL_EN 5) 1], 5, by decide +kernel⟩,
   ⟨st [setF (ING_CTX_CTL_EN 5) 1, setF (ING_CTX_STAT_STATE 5) 1, wr ING_STAT 0x24], 5, by decide +kernel⟩,
   ⟨st [], by decide +kernel⟩⟩
theorem wit_UnitsDisable :
    (∃ (s : State) (src : Master), s.ok = true ∧ swWriteOk src = true) ∧
    (∃ (s : State) (src : Master), s.ok = true ∧ swWriteOk src = true) :=
  ⟨⟨st [setF FUS_STAT_STATE 1, setF FUS_STAT_RUN 1, setF FUS_CTL_EN 1], .mgmt, by decide +kernel⟩,
   ⟨st [setF TRV_STAT_STATE 1, setF TRV_STAT_RUN 1, setF TRV_CTL_EN 1, setF TRV_STAT_MAP_BUSY 1, fun s => [.trv { s.trv with mapFrom := some 64 }]], .mgmt, by decide +kernel⟩⟩
theorem wit_DrainEnds :
    (∃ (s : State) (n : Nat) (p : Nat), s.ok = true ∧ portOk n p = true ∧ getF s (RPL_STAT_STATE n p) = 2 ∧ s.unitRst = [] ∧ rplIdle s n p = true) ∧
    (∃ (s : State) (n : Nat) (p : Nat), s.ok = true ∧ portOk n p = true ∧ getF s (RPL_STAT_STATE n p) = 2 ∧ s.unitRst = []) ∧
    (∃ (s : State) (b : Block), draining s b = true ∧ drained s b = false) ∧
    (∃ (s : State) (b : Block), draining s b = false) :=
  ⟨⟨st [setF (RPL_STAT_STATE 8 3) 2], 8, 3, by decide +kernel⟩,
   ⟨st [setF (RPL_STAT_STATE 8 3) 2], 8, 3, by decide +kernel⟩,
   ⟨st [setF (RPL_STAT_STATE 8 3) 2, upd (.ports 259 { discarding := true }), setF BOX_STAT_STATE 2, upd (.boxQueue [bq])], .box, by decide +kernel⟩,
   ⟨st [], .eth 3, by decide +kernel⟩⟩
theorem wit_FieldWrites :
    (∃ (s : State) (src : Master) (d : _) (b : _), s.ok = true ∧ swWriteOk src = true ∧ d < 8 ∧ b < 64) ∧
    (∃ (s : State) (src : Master) (d : _), s.ok = true ∧ swWriteOk src = true ∧ d < 8) ∧
    (∃ (s : State) (src : Master), s.ok = true ∧ swWriteOk src = true) ∧
    (∃ (s : State) (src : Master) (r : _), s.ok = true ∧ swWriteOk src = true ∧ r < 9) ∧
    (∃ (s : State) (src : Master) (p : _), s.ok = true ∧ swWriteOk src = true ∧ p < 16) ∧
    (∃ (s : State) (src : Master) (w : Nat), s.ok = true ∧ w < 64 ∧ winWriteOk s w src = true) ∧
    (∃ (s : State) (src : Master), s.ok = true ∧ trvHoldOk s src = true) ∧
    (∃ (s : State) (src : Master) (n : Nat), s.ok = true ∧ hostWriteOk src = true ∧ n < 256) :=
  ⟨⟨st [], .app 0, 7, 63, by decide +kernel⟩,
   ⟨st [], .app 0, 7, by decide +kernel⟩,
   ⟨st [], .app 0, by decide +kernel⟩,
   ⟨st [], .app 0, 8, by decide +kernel⟩,
   ⟨st [], .app 0, 15, by decide +kernel⟩,
   ⟨st [setF (DMA_WIN_CTL_OWNER 63) 2, setF (PRT_CLU_PART 7 3) 2], .core 255, 63, by decide +kernel⟩,
   ⟨st [setF (PRT_CLU_PART 7 3) 2, setF TRV_OWN_PART 2], .core 255, by decide +kernel⟩,
   ⟨st [setF (ICU_SRC_CFG_INSRV 255) 1], .app 0, 255, by decide +kernel⟩⟩
theorem wit_LimitedWrites :
    (∃ (s : State) (src : Master) (p : _), s.ok = true ∧ swWriteOk src = true ∧ p < 18 ∧ anchorPort p = false ∧ getF s (REG_BLIM_MIN p) ≤ getF s (REG_BLIM_MAX p)) ∧
    (∃ (s : State) (src : Master) (p : _), s.ok = true ∧ swWriteOk src = true ∧ p < 18 ∧ anchorPort p = true) ∧
    (∃ (s : State) (src : Master), s.ok = true ∧ swWriteOk src = true) ∧
    (∃ (s : State) (src : Master) (p : _), s.ok = true ∧ swWriteOk src = true ∧ p < 16) ∧
    (∃ (s : State) (src : Master) (v : _), s.ok = true ∧ swWriteOk src = true ∧ targetOk s src v = false) ∧
    (∃ (s : State) (src : Master) (v : _), s.ok = true ∧ swWriteOk src = true ∧ targetOk s src v = true) :=
  ⟨⟨st [], .app 0, 17, by decide +kernel⟩,
   ⟨st [], .app 0, 15, by decide +kernel⟩,
   ⟨st [], .app 0, by decide +kernel⟩,
   ⟨st [], .app 0, 15, by decide +kernel⟩,
   ⟨st [], .app 0, 3, by decide +kernel⟩,
   ⟨st [setF DDR_PT_EN 7, setF DDR_PT_FLOOR 2], .mgmt, 1, by decide +kernel⟩⟩
theorem wit_SubmitAndCancel :
    (∃ (s : State), s.ok = true ∧ getF s TOPO_STATUS_PART_STATE ≠ 0) ∧
    (∃ (s : State), s.ok = true ∧ getF s TOPO_STATUS_PART_STATE = 0) ∧
    (∃ (s : State) (now : Nat), getF s TOPO_STATUS_PART_STATE = 3 ∧ inGuard s now = true) ∧
    (∃ (s : State) (now : Nat), s.ok = true ∧ getF s TOPO_STATUS_PART_STATE ≠ 0 ∧ ¬(getF s TOPO_STATUS_PART_STATE = 3 ∧ inGuard s now = true)) :=
  ⟨⟨st [setF TOPO_STATUS_PART_STATE 2], by decide +kernel⟩,
   ⟨st [], by decide +kernel⟩,
   ⟨b1 [setF TOPO_STATUS_PART_STATE 3], 133200000, by decide +kernel⟩,
   ⟨b1 [setF TOPO_STATUS_PART_STATE 2], 133200000, by decide +kernel⟩⟩
theorem wit_SlotsWrittenAndConfirmed :
    (∃ (s : State), s.ok = true ∧ s.load.slotJob = none) ∧
    (∃ (s : State), s.load.slotJob.isSome = true) ∧
    (∃ (s : State) (j : SlotJob), s.ok = true ∧ s.load.slotJob = some j ∧ j.code = 0 ∧ j.slot < 2) ∧
    (∃ (s : State) (j : SlotJob), s.load.slotJob = some j ∧ j.code ≠ 0) ∧
    (∃ (s : State), s.ok = true ∧ (slotSt s 0 (getF s TOPO_STATUS_RUN_SLOT)).st ≠ 0) ∧
    (∃ (s : State), (slotSt s 0 (getF s TOPO_STATUS_RUN_SLOT)).st = 0) :=
  ⟨⟨st [], by decide +kernel⟩,
   ⟨st [setLoad (fun l => { l with slotJob := some ⟨0, 0, 0⟩ })], by decide +kernel⟩,
   ⟨st [setLoad (fun l => { l with slotJob := some ⟨1, 0, 0⟩ })], ⟨1, 0, 0⟩, by decide +kernel⟩,
   ⟨st [setLoad (fun l => { l with slotJob := some ⟨1, 3, 0⟩ })], ⟨1, 3, 0⟩, by decide +kernel⟩,
   ⟨st [upd (.slots 0 ⟨1, true⟩)], by decide +kernel⟩,
   ⟨st [], by decide +kernel⟩⟩
theorem wit_BundlesJudged :
    (∃ (s : State) (src : Master) (p : Nat) (k : Nat) (b : Bundle), announces src = true ∧ bundleAt s p k = some b ∧ ((b.st = 0 ∨ b.st = 3))) ∧
    (∃ (s : State) (p : Nat) (k : Nat) (b : Bundle), s.ok = true ∧ bundleAt s p k = some b ∧ b.st = 1 ∧ sha256 (bundleBytes s b) ≠ b.digest) ∧
    (∃ (s : State) (p : Nat) (k : Nat) (b : Bundle), bundleAt s p k = some b ∧ b.st = 1 ∧ sha256 (bundleBytes s b) = b.digest ∧ bundleOk s running p (bundleBytes s b) = true) :=
  ⟨⟨st [setLoad (fun l => { l with bundles := [⟨2, 1, 0x800000000, 64, [], 0, 0, 0⟩] })], .app 3, 2, 1, ⟨2, 1, 0x800000000, 64, [], 0, 0, 0⟩, by decide +kernel⟩,
   ⟨st [setLoad (fun l => { l with bundles := [⟨2, 1, 0x800000000, 64, [], 1, 0, 0⟩] })], 2, 1, ⟨2, 1, 0x800000000, 64, [], 1, 0, 0⟩, by decide +kernel⟩,
   ⟨st [storeBytes 0x800000000 bunHead, setF (MAP_BNK_OWN_PART 0 0) 2, setF (PRT_CLU_PART 0 0) 2, setLoad (fun l => { l with bundles := [⟨2, 1, 0x800000000, 192, sha256 bunHead, 1, 0, 0⟩] })], 2, 1, ⟨2, 1, 0x800000000, 192, sha256 bunHead, 1, 0, 0⟩, by decide +kernel⟩⟩
theorem wit_SegmentsCopied :
    (∃ (s : State) (p : Nat), s.ok = true ∧ p < 16 ∧ partState s p = 1 ∧ (get_parts s p).loaded = false ∧ ((∀ b ∈ s.load.bundles, b.part = p → b.st = 2)) ∧ noFit s p = true) ∧
    (∃ (s : State) (p : Nat), s.ok = true ∧ p < 16 ∧ partState s p = 1 ∧ (get_parts s p).loaded = false ∧ ((∀ b ∈ s.load.bundles, b.part = p → b.st = 2)) ∧ noFit s p = false ∧ copyFails s p = false) :=
  ⟨⟨st [setF (PRT_STAT_STATE 2) 1, setF (FLT_DIE_STAT_STATE 0) 2, setLoad (fun l => { l with bundles := [⟨2, 1, 0x800000000, 64, [], 2, 7, 2⟩] })], 2, by decide +kernel⟩,
   ⟨st [setF (PRT_STAT_STATE 2) 1], 2, by decide +kernel⟩⟩
theorem wit_PartialTopo :
    (∃ (s : State) (x : Partial), s.ok = true ∧ s.load.topo = some x ∧ getF s TOPO_STATUS_PART_STATE = 1) ∧
    (∃ (s : State) (x : Partial), s.ok = true ∧ s.load.topo = some x ∧ getF s TOPO_STATUS_PART_STATE = 2 ∧ x.prepared = false ∧ (prepareChecks s ⟨some x.part, x.img⟩).1 = 0) ∧
    (∃ (s : State) (x : Nat) (y : Partial), s.load.topo = some y ∧ x < 2 ∧ y.prepared = true ∧ ancRuns s x = true) ∧
    (∃ (s : State) (now : Nat) (y : Partial), s.ok = true ∧ s.load.topo = some y ∧ y.prepared = true ∧ y.acks = 3 ∧ getF s TOPO_STATUS_PART_STATE = 2 ∧ inGuard s now = true) :=
  ⟨⟨st [setF TOPO_STATUS_PART_STATE 1, setLoad (fun l => { l with topo := some { part := 2, img := [1, 2, 3] } })], { part := 2, img := [1, 2, 3] }, by decide +kernel⟩,
   ⟨st [setF TOPO_STATUS_PART_STATE 2, setLoad (fun l => { l with topo := some { part := 2, img := partImg } })], { part := 2, img := partImg }, by decide +kernel⟩,
   ⟨st [upd (.ancs 1 {}), setF (ANC_STAT_STATE 1) 1, setLoad (fun l => { l with topo := some { part := 2, img := [], prepared := true } })], 1, { part := 2, img := [], prepared := true }, by decide +kernel⟩,
   ⟨b1 [setF TOPO_STATUS_PART_STATE 2, setLoad (fun l => { l with topo := some { part := 2, img := [], prepared := true, acks := 3 } })], 133200000, { part := 2, img := [], prepared := true, acks := 3 }, by decide +kernel⟩⟩
theorem wit_FlitsInSequence :
    (∃ (s : State) (n : Nat) (p : Nat) (q : Nat), s.ok = true ∧ portOk n p = true ∧ portUp s n p = true ∧ (get_ports s (n * 32 + p)).discarding = false ∧ q = (get_ports s (n * 32 + p)).rxSeq ∧ (get_ports s (n * 32 + p)).runs = []) ∧
    (∃ (s : State) (n : Nat) (p : Nat) (q : Nat) (bad : List Nat), s.ok = true ∧ portOk n p = true ∧ portUp s n p = true ∧ (get_ports s (n * 32 + p)).discarding = false ∧ q = (get_ports s (n * 32 + p)).rxSeq ∧ flitGood bad = false) ∧
    (∃ (s : State) (n : Nat) (p : Nat) (q : Nat), portOk n p = true ∧ portUp s n p = true ∧ (get_ports s (n * 32 + p)).discarding = false ∧ q ≠ (get_ports s (n * 32 + p)).rxSeq) ∧
    (∃ (s : State) (n : Nat) (p : Nat) (e : Nat × Nat), s.ok = true ∧ otherEnd n p = some e ∧ portUp s n p = true ∧ (get_ports s (e.1 * 32 + e.2)).discarding = true ∧ (get_ports s (e.1 * 32 + e.2)).retryAsked = true ∧ e.1 * 32 + e.2 ≠ n * 32 + p) :=
  ⟨⟨st [upd (.ports 257 { rxSeq := 255 }), setF (RPL_STAT_STATE 8 1) 1], 8, 1, 255, by decide +kernel⟩,
   ⟨st [upd (.ports 257 { rxSeq := 255 }), setF (RPL_STAT_STATE 8 1) 1], 8, 1, 255, [3, 9], by decide +kernel⟩,
   ⟨st [upd (.ports 257 { rxSeq := 255 }), setF (RPL_STAT_STATE 8 1) 1], 8, 1, 0, by decide +kernel⟩,
   ⟨st [upd (.ports 257 { discarding := true, retryAsked := true, retrySeq := 7 }), setF (RPL_STAT_STATE 0 3) 1], 0, 3, (8, 1), by decide +kernel⟩⟩
theorem wit_LinksAndRoutes :
    (∃ (s : State) (p : Nat) (cause : Nat), s.ok = true ∧ ((p = 16 ∨ p = 17)) ∧ flag s (RPL_STAT_DOWN 8 p) = false ∧ 1 ≤ cause ∧ cause ≤ 4) ∧
    (∃ (s : State) (n : Nat) (p : Nat), portOk n p = true ∧ flag s (RPL_STAT_DOWN n p) = true) ∧
    (∃ (s : State) (d : Nat) (t : Nat), s.ok = true ∧ d < 8 ∧ t < 8 ∧ d ≠ t ∧ routeUp s d t (routeOf s d t) = false ∧ outstanding s d t = false ∧ getF s (RTE_DEST_ACTIVE d t) = 0 ∧ routeUp s d t (getF s (RTE_DEST_ALTERNATE d t)) = true) ∧
    (∃ (s : State) (d : Nat) (t : Nat), s.ok = true ∧ d < 8 ∧ t < 8 ∧ d ≠ t ∧ routeUp s d t (routeOf s d t) = false ∧ outstanding s d t = false ∧ ((getF s (RTE_DEST_ACTIVE d t) ≠ 0 ∨ routeUp s d t (getF s (RTE_DEST_ALTERNATE d t)) = false))) :=
  ⟨⟨b1 [setF (RPL_STAT_STATE 8 16) 1], 16, 3, by decide +kernel⟩,
   ⟨st [setF (RPL_STAT_DOWN 8 16) 1], 8, 16, by decide +kernel⟩,
   ⟨st [setF (RTE_DEST_PRIMARY 0 1) 0, setF (RTE_DEST_ALTERNATE 0 1) 2, setF (RPL_STAT_STATE 0 2) 1, setF (RPL_STAT_STATE 1 2) 1, setF (RPL_STAT_STATE 8 0) 1, setF (RPL_STAT_STATE 8 2) 1], 0, 1, by decide +kernel⟩,
   ⟨st [setF (RTE_DEST_PRIMARY 0 1) 0, setF (RTE_DEST_ALTERNATE 0 1) 2], 0, 1, by decide +kernel⟩⟩
theorem wit_ResponsesAndTimeouts :
    (∃ (s : State) (c : Nat) (tag : Nat) (q : Resp), s.ok = true ∧ s.resps.find? (fun r => r.src == .app c && r.tag == tag) = some q ∧ q.src = .app c ∧ q.tag = tag ∧ s.lateTags.contains (.app c, tag) = false ∧ s.regReqs.find? (fun r => r.src == .app c && r.tag == tag) = none ∧ returnsData q.op = true) ∧
    (∃ (s : State) (g : Nat) (tag : Nat) (q : Resp), s.ok = true ∧ g < 256 ∧ s.resps.find? (fun r => r.src == .core g && r.tag == tag) = some q ∧ s.lateTags.contains (.core g, tag) = true) ∧
    (∃ (s : State) (c : Nat) (tag : Nat), s.ok = true ∧ waitsAnywhere s (.app c) tag = true ∧ s.lateTags.contains (.app c, tag) = false ∧ s.regReqs.find? (fun r => r.src == .app c && r.tag == tag) = none) ∧
    (∃ (s : State) (src : Master) (tag : Nat), isCore src = false ∧ (waitsAnywhere s src tag && !s.lateTags.contains (src, tag)) = false) :=
  ⟨⟨st [upd (.resps [⟨.app 3, 5, .read, 0, [1, 2, 3, 4], 0x40⟩])], 3, 5, ⟨.app 3, 5, .read, 0, [1, 2, 3, 4], 0x40⟩, by decide +kernel⟩,
   ⟨st [upd (.resps [⟨.core 33, 5, .read, 0, [1, 2, 3, 4], 0x40⟩]), upd (.lateTags [(.core 33, 5)])], 33, 5, ⟨.core 33, 5, .read, 0, [1, 2, 3, 4], 0x40⟩, by decide +kernel⟩,
   ⟨st [upd (.resps [⟨.app 3, 5, .read, 0, [1, 2, 3, 4], 0x40⟩])], 3, 5, by decide +kernel⟩,
   ⟨st [], .app 3, 5, by decide +kernel⟩⟩
theorem wit_ScratchpadReadsAndWrites :
    (∃ (s : State) (r : Req), s.ok = true ∧ servedAt s .read r) ∧
    (∃ (s : State) (r : Req), s.ok = true ∧ servedAt s .write r ∧ writeStatus s r.addr r.data.length = 0) ∧
    (∃ (s : State) (r : Req), s.ok = true ∧ servedAt s .write r ∧ mapped s r.addr r.data.length = true ∧ locDark s r.addr = true) ∧
    (∃ (s : State) (r : Req) (k : Nat), s.ok = true ∧ arrives s .write r ∧ scratchpad s r.addr = true ∧ wakeFor s .write r = some k) ∧
    (∃ (s : State) (r : Req), s.ok = true ∧ arrives s .read r ∧ scratchpad s r.addr = true ∧ wakeFor s .read r = none ∧ (heldByEngine s .read r || behind s.held r) = true) :=
  ⟨⟨bOn [storeBytes bk3 [1, 2, 3]], { rd3 16 [] with addr := bk3 }, by decide +kernel⟩,
   ⟨bOn [storeBytes bk3 [1, 2, 3]], rd3 0 [9, 8, 7], by decide +kernel⟩,
   ⟨st [], rd3 0 [9, 8, 7], by decide +kernel⟩,
   ⟨st [setF (BNK_PWR_STATE 1 3) 3], rd3 0 [9, 8, 7], 67, by decide +kernel⟩,
   ⟨bOn [upd (.held [(.write, rd3 0 [1])])], rd3 8 [], by decide +kernel⟩⟩
theorem wit_AtomicsPerformed :
    (∃ (s : State) (r : Req), s.ok = true ∧ servedAt s .atomicR r ∧ atomicOk r = true ∧ readStatus s r.addr r.width = 0) ∧
    (∃ (s : State) (r : Req), s.ok = true ∧ servedAt s .atomicN r ∧ atomicOk r = true ∧ readStatus s r.addr r.width = 0) :=
  ⟨⟨bOn [storeBytes (bk3 + 64) [255, 255, 255, 255]], { rd3 0 [2, 0, 0, 0] with kind := .add, width := 4 }, by decide +kernel⟩,
   ⟨bOn [storeBytes (bk3 + 64) [5, 0, 0, 0, 0, 0, 0, 0]], { rd3 0 [5, 0, 0, 0, 0, 0, 0, 0, 7, 0, 0, 0, 0, 0, 0, 0] with kind := .cas, width := 8 }, by decide +kernel⟩⟩
theorem wit_FillWritesPattern : ∃ (s : State) (r : Req), s.ok = true ∧ servedAt s .fill r ∧ 1 ≤ r.len ∧ r.len ≤ 4096 ∧ r.addr % 64 = 0 ∧ oneMemory s r.addr (64 * r.len) = true ∧ r.data.length = 8 ∧ writeStatus s r.addr (64 * r.len) = 0 :=
  ⟨bOn [], rd3 2 [1, 2, 3, 4, 5, 6, 7, 8], by decide +kernel⟩
theorem wit_CopyReadsWholeSource :
    (∃ (s : State) (r : Req), s.ok = true ∧ servedAt s .copy r ∧ fillOk s r = true ∧ copySrc r % 64 = 0 ∧ copySrc r / 0x100000 = (copySrc r + (64 * r.len - 1)) / 0x100000 ∧ scratchpad s (copySrc r) = true ∧ windowDie (copySrc r) = windowDie r.addr ∧ locDark s (copySrc r) = false ∧ locDark s r.addr = false ∧ copyBad s r = []) ∧
    (∃ (s : State) (r : Req), s.ok = true ∧ servedAt s .copy r ∧ ((windowDie (copySrc r) ≠ windowDie r.addr ∨ scratchpad s (copySrc r) = false))) :=
  ⟨⟨bOn [storeBytes (bk3 + 0x100000) [1, 2, 3]], rd3 1 (leBytes 8 (bk3 + 0x100000)), by decide +kernel⟩,
   ⟨bOn [], rd3 1 (leBytes 8 0x100000000000), by decide +kernel⟩⟩
theorem wit_WindowAccessesAndWatches :
    (∃ (s : State) (r : Req), s.ok = true ∧ servedAt s .readWin r ∧ r.win < 64 ∧ winCheck s r.win r.addr r.len false (fromPeer r.src) = 0) ∧
    (∃ (s : State) (r : Req), s.ok = true ∧ servedAt s .writeWin r ∧ r.win < 64 ∧ winCheck s r.win r.addr r.data.length true (fromPeer r.src) = 0 ∧ writeStatus s r.addr r.data.length = 0) ∧
    (∃ (s : State) (r : Req), s.ok = true ∧ servedAt s .writeWin r ∧ r.win < 64 ∧ winCheck s r.win r.addr r.data.length true (fromPeer r.src) ≠ 0) ∧
    (∃ (s : State) (r : Req) (g : Nat) (d : Nat) (b : Nat), s.ok = true ∧ servedAt s .watch r ∧ r.src = .core g ∧ locOf s r.addr = .bank d b ∧ mapped s r.addr 8 = true ∧ locDark s r.addr = false ∧ (get_watches s (d * 64 + b)).length < 64 ∧ (get_watches s (d * 64 + b)).find? (fun w => w.addr == r.addr) = none) :=
  ⟨⟨bOn [setF (DMA_WIN_CTL_OPEN 9) 1, setF (DMA_WIN_CTL_READ 9) 1, setF (DMA_WIN_RANGE_BASE_4K 9) 0x300, setF (DMA_WIN_RANGE_LEN_4K 9) 1], { rd3 8 [] with win := 9 }, by decide +kernel⟩,
   ⟨bOn [setF (DMA_WIN_CTL_OPEN 9) 1, setF (DMA_WIN_CTL_WRITE 9) 1, setF (DMA_WIN_RANGE_BASE_4K 9) 0x300, setF (DMA_WIN_RANGE_LEN_4K 9) 1], { rd3 0 [4, 5] with win := 9 }, by decide +kernel⟩,
   ⟨bOn [], { rd3 0 [4, 5] with win := 9 }, by decide +kernel⟩,
   ⟨bOn [upd (.txns [⟨.core 40, 7, 2, .watch, bk3 + 64, 8, [], .add, 4, .none, 0, false⟩])], { src := .core 40, tag := 7, addr := bk3 + 64, len := 8, kind := .add, width := 4 }, 40, 1, 3, by decide +kernel⟩⟩
theorem wit_UnmappedRequestsRefused :
    (∃ (s : State) (op : ReqOp) (r : Req), arrives s op r ∧ locOf s r.addr = .none) ∧
    (∃ (s : State) (op : ReqOp) (r : Req), reqLive s op (reqOf s op r) = false) :=
  ⟨⟨st [], .read, { rd3 8 [] with addr := 0x250000000000 }, by decide +kernel⟩,
   ⟨bOn [], .watch, { src := .core 40, tag := 7, addr := bk3 + 64, len := 8 }, by decide +kernel⟩⟩
theorem wit_BankPowerAndScrub :
    (∃ (s : State) (d : Nat) (p : Nat) (k : Nat) (now : Nat), s.ok = true ∧ d < 8 ∧ p < 16 ∧ k < 4 ∧ phaseBegun (s.at_ now) d p k = true ∧ phaseNow (s.at_ now) d p = k) ∧
    (∃ (s : State) (d : Nat) (b : Nat), s.ok = true ∧ d < 8 ∧ b < 64 ∧ getF s (BNK_PWR_STATE d b) = 4 ∧ getF s (BNK_INFL_COUNT d b) = 0 ∧ savePending s d b = false) ∧
    (∃ (s : State) (d : Nat) (b : Nat), getF s (BNK_PWR_STATE d b) ≠ 4) ∧
    (∃ (s : State) (d : Nat) (b : Nat), s.ok = true ∧ d < 8 ∧ b < 64 ∧ getF s (BNK_PWR_STATE d b) = 3 ∧ get_bankHeld s (d * 64 + b) = [] ∧ bankGoal s d b = 2) ∧
    (∃ (s : State) (d : Nat) (b : Nat) (tag : Nat) (a : Nat) (n : Nat) (m : Master), s.ok = true ∧ d < 8 ∧ b < 64 ∧ getF s (BNK_PWR_STATE d b) = 3 ∧ get_bankHeld s (d * 64 + b) = [(.read, { src := m, tag := tag, addr := a, len := n })] ∧ locOf s a = .bank d b ∧ s.held = [] ∧ s.engines = []) ∧
    (∃ (s : State) (d : Nat), s.ok = true ∧ d < 8 ∧ flag s (BNK_SCRUB_EN d) = true) ∧
    (∃ (s : State) (w : Nat) (ws : List Nat), s.ok = true ∧ s.wbPending = w :: ws) ∧
    (∃ (s : State), s.wbPending = []) :=
  ⟨⟨b1 [setF (MAP_BNK_OWN_PART 1 3) 2, setF (BNK_PWR_STATE 1 3) 2, setF (MAP_BNK_OWN_PART 1 5) 2, setF (BNK_PWR_PH1 1 5) 2, setF (BNK_PH1_START_US 1 2) 100], 1, 2, 1, 100099999, by decide +kernel⟩,
   ⟨st [setF (BNK_PWR_STATE 1 3) 4, storeBytes bk3 [1, 2], upd (.watches 67 [⟨bk3, [40, 41]⟩])], 1, 3, by decide +kernel⟩,
   ⟨bOn [], 1, 3, by decide +kernel⟩,
   ⟨st [setF (BNK_PWR_STATE 1 3) 3, storeBytes bk3 [1, 2], upd (.bankTarget 67 3), setF (MAP_BNK_OWN_PART 1 3) 2, setF (BNK_PWR_OVR 1 3) 1], 1, 3, by decide +kernel⟩,
   ⟨st [setF (BNK_PWR_STATE 1 3) 3, storeBytes bk3 [1, 2], upd (.bankTarget 67 2), upd (.bankHeld 67 [(.read, { src := .dma 1 2, tag := 7, addr := bk3, len := 8 })])], 1, 3, 7, bk3, 8, .dma 1 2, by decide +kernel⟩,
   ⟨st [setF (BNK_SCRUB_EN 1) 1, upd (.scrubPos 1 32767), setF (BNK_PWR_STATE 1 3) 2, upd (.ecc ((bk3 + 0xFFFE0) / 32) 1)], 1, by decide +kernel⟩,
   ⟨bOn [upd (.ecc (bk3 / 32) 1), upd (.wbPending [bk3 / 32, 5])], bk3 / 32, [5], by decide +kernel⟩,
   ⟨st [], by decide +kernel⟩⟩
theorem wit_ScalarInstructions :
    (∃ (s : State) (g : Nat) (t : Nat), mayIssue s g t = false) ∧
    (∃ (s : State) (g : Nat) (t : Nat) (rd : Nat) (ra : Nat) (rb : Nat), s.ok = true ∧ issuable s g t [ra, rd, rb] []) ∧
    (∃ (s : State) (g : Nat) (t : Nat) (rd : Nat) (ra : Nat) (i : Nat), s.ok = true ∧ issuable s g t [ra, rd] [] ∧ i % 2 ^ 32 = 0) ∧
    (∃ (s : State) (g : Nat) (t : Nat) (rd : Nat) (ra : Nat), s.ok = true ∧ issuable s g t [ra, rd] []) ∧
    (∃ (s : State) (g : Nat) (t : Nat) (op : SOp) (rd : Nat) (ra : Nat) (arg : SArg), s.ok = true ∧ op ≠ .undefined ∧ issuable s g t ([ra, rd] ++ sargRegs arg ++ sopRegs op) []) ∧
    (∃ (s : State) (g : Nat) (t : Nat) (rd : Nat) (ra : Nat) (arg : SArg), s.ok = true ∧ issuable s g t ([ra, rd] ++ sargRegs arg) []) :=
  ⟨⟨st [], 40, 2, by decide +kernel⟩,
   ⟨thA { sregs := [(3, 2^64 - 1), (4, 5)] } [], 40, 2, 3, 3, 4, by decide +kernel⟩,
   ⟨thA { sregs := [(3, 2^64 - 1), (4, 5)] } [], 40, 2, 3, 3, 0, by decide +kernel⟩,
   ⟨thA { sregs := [(4, 5)] } [], 40, 2, 3, 3, by decide +kernel⟩,
   ⟨thA { sregs := [(3, 2^64 - 1), (4, 5)] } [], 40, 2, .lt, 3, 3, .reg 4, by decide +kernel⟩,
   ⟨thA { sregs := [(4, 5)] } [], 40, 2, 3, 3, .imm 0, by decide +kernel⟩⟩
theorem wit_VectorInstructions :
    (∃ (s : State) (g : Nat) (t : Nat) (vi : VInstr), s.ok = true ∧ vDefined vi.op = true ∧ issuable s g t (match vi.bcast with | some r => [r] | none => []) ([vi.va, vi.vb, vi.vc] ++ (if isCmp vi.op then [] else [vi.vd]))) ∧
    (∃ (s : State) (g : Nat) (t : Nat) (va : Nat) (vb : Nat) (vc : Nat) (vd : Nat) (i : Nat), s.ok = true ∧ issuable s g t [] [va, vb, vc, vd] ∧ i < 16) ∧
    (∃ (s : State) (g : Nat) (t : Nat) (vi : VInstr), s.ok = true ∧ vDefined vi.op = false ∧ issuable s g t (match vi.bcast with | some r => [r] | none => []) ([vi.va, vi.vb, vi.vc] ++ (if isCmp vi.op then [] else [vi.vd]))) ∧
    (∃ (s : State) (g : Nat) (t : Nat) (fmt : Nat) (vd : Nat) (rs : Nat) (v0 : Nat) (v1 : Nat), s.ok = true ∧ isMx fmt = true ∧ issuable s g t [rs] [vd, v0, v1]) ∧
    (∃ (s : State) (g : Nat) (t : Nat) (fmt : Nat) (va : Nat) (rs : Nat) (v0 : Nat) (v1 : Nat), s.ok = true ∧ isMx fmt = true ∧ issuable s g t [rs] [va, v0, v1]) ∧
    (∃ (s : State) (g : Nat) (t : Nat) (fmt : Nat) (vd : Nat) (rs : Nat) (v0 : Nat) (v1 : Nat), s.ok = true ∧ isMx fmt = false ∧ issuable s g t [rs] [vd, v0, v1]) :=
  ⟨⟨thA { vregs := [(16, 5), (17, 6), (32, 2^32 - 1)] } [], 40, 2, { op := .iadd, vd := 1, va := 1, vb := 2 }, by decide +kernel⟩,
   ⟨thA { vregs := [(16, 5), (17, 6), (32, 2^32 - 1)] } [], 40, 2, 1, 2, 0, 1, 0, by decide +kernel⟩,
   ⟨thA {} [], 40, 2, { op := .undefined, vd := 1, va := 1, vb := 2 }, by decide +kernel⟩,
   ⟨thA { vregs := [(16, 0x40400000)] } [], 40, 2, 9, 3, 5, 1, 2, by decide +kernel⟩,
   ⟨thA { vregs := [(16, 0x40400000)] } [], 40, 2, 9, 1, 5, 3, 4, by decide +kernel⟩,
   ⟨thA {} [], 40, 2, 3, 3, 5, 1, 2, by decide +kernel⟩⟩
theorem wit_MemoryInstructions :
    (∃ (s : State) (g : Nat) (t : Nat) (dest : Dest) (width : Nat) (rb : Nat) (off : Nat), s.ok = true ∧ slotsFree s g t 1 ∧ issuable s g t ([rb] ++ (match dest with | .s r => [r] | _ => [])) (match dest with | .v r => [r] | _ => []) ∧ memAddr (thr s g t) rb off % width = 0) ∧
    (∃ (s : State) (g : Nat) (t : Nat) (r : Nat) (width : Nat) (rb : Nat) (off : Nat), s.ok = true ∧ slotsFree s g t 1 ∧ issuable s g t [rb, r] [] ∧ memAddr (thr s g t) rb off % width = 0) ∧
    (∃ (s : State) (g : Nat) (t : Nat) (r : Nat) (rb : Nat) (off : Nat), s.ok = true ∧ slotsFree s g t 1 ∧ issuable s g t [rb] [r] ∧ memAddr (thr s g t) rb off % 64 = 0) ∧
    (∃ (s : State) (g : Nat) (t : Nat) (vd : Nat) (rb : Nat) (off : Nat) (vo : Nat), s.ok = true ∧ slotsFree s g t 16 ∧ issuable s g t [rb] [vd, vo] ∧ ((∀ e ∈ laneAddrs (thr s g t) rb off vo, e.2 % 4 = 0))) ∧
    (∃ (s : State) (g : Nat) (t : Nat) (vs : Nat) (rb : Nat) (off : Nat) (vo : Nat), s.ok = true ∧ slotsFree s g t 16 ∧ issuable s g t [rb] [vs, vo] ∧ ((∀ e ∈ laneAddrs (thr s g t) rb off vo, e.2 % 4 = 0))) ∧
    (∃ (s : State) (g : Nat) (t : Nat) (ret : Bool) (width : Nat) (rd : Nat) (rb : Nat) (off : Nat) (rv : Nat) (rc : Nat), s.ok = true ∧ slotsFree s g t 1 ∧ issuable s g t ([rb, rv, rc] ++ (if ret then [rd] else [])) [] ∧ memAddr (thr s g t) rb off % width = 0 ∧ (inWindow (memAddr (thr s g t) rb off) || inDramRange (memAddr (thr s g t) rb off)) = true) ∧
    (∃ (s : State) (g : Nat) (t : Nat) (r : Nat) (width : Nat) (rb : Nat) (off : Nat), s.ok = true ∧ slotsFree s g t 1 ∧ issuable s g t [rb, r] [] ∧ memAddr (thr s g t) rb off % width ≠ 0) ∧
    (∃ (s : State) (g : Nat) (t : Nat), ¬slotsFree s g t 1) :=
  ⟨⟨thA { sregs := [(4, 0x100010300000)] } [], 40, 2, .s 7, 8, 4, 8, by decide +kernel⟩,
   ⟨thA { sregs := [(4, 0x100010300000)] } [], 40, 2, 4, 4, 4, 8, by decide +kernel⟩,
   ⟨thA { sregs := [(4, 0x100010300000)], vregs := [(32, 77)] } [], 40, 2, 2, 4, 64, by decide +kernel⟩,
   ⟨thA { sregs := [(4, 0x100010300000)], vregs := [(32, 64)] } [], 40, 2, 3, 4, 4, 2, by decide +kernel⟩,
   ⟨thA { sregs := [(4, 0x100010300000)], vregs := [(32, 64)] } [], 40, 2, 3, 4, 4, 2, by decide +kernel⟩,
   ⟨thA { sregs := [(4, 0x100010300000), (5, 3)] } [], 40, 2, true, 4, 9, 4, 4, 5, 6, by decide +kernel⟩,
   ⟨thA { sregs := [(4, 0x100010300000)] } [], 40, 2, 7, 8, 4, 4, by decide +kernel⟩,
   ⟨thA {} [upd (.txns (List.replicate 32 ⟨.core 40, 7, 2, .read, 0, 8, [], .add, 4, .none, 0, false⟩))], 40, 2, by decide +kernel⟩⟩
theorem wit_SpawnAndHalt :
    (∃ (s : State) (g : Nat) (t : Nat) (t2 : Nat) (re : Nat) (ra : Nat) (rd : Nat), s.ok = true ∧ issuable s g t [re, ra, rd] [] ∧ t2 < 64 ∧ t2 ≠ t ∧ (thr s g t2).running = false) ∧
    (∃ (s : State) (g : Nat) (t : Nat) (t2 : Nat) (re : Nat) (ra : Nat) (rd : Nat), s.ok = true ∧ issuable s g t [re, ra, rd] [] ∧ t2 < 64 ∧ (thr s g t2).running = true) ∧
    (∃ (s : State) (g : Nat) (t : Nat), s.ok = true ∧ issuable s g t [] [] ∧ (thr s g t).err = none) ∧
    (∃ (s : State) (g : Nat) (t : Nat) (e : PendErr), s.ok = true ∧ issuable s g t [] [] ∧ (thr s g t).err = some e) :=
  ⟨⟨thA { sregs := [(4, 0x100014800100), (5, 3)], pitch := 6 } [], 40, 2, 9, 4, 5, 6, by decide +kernel⟩,
   ⟨thA {} [], 40, 2, 2, 4, 5, 6, by decide +kernel⟩,
   ⟨thA {} [setF (CORE_STAT_THREADS 40) 1], 40, 2, by decide +kernel⟩,
   ⟨thA { err := some ⟨7, 64, 128, false⟩ } [], 40, 2, ⟨7, 64, 128, false⟩, by decide +kernel⟩⟩

/-- Witnesses of the machine's own statements. -/
theorem wit_StepPerformsFrontCommand : ∃ (c : Instr) (q : List Instr) (s : State), s.pending = c :: q :=
  ⟨.holdover, [.submit], { State.reset with pending := [.holdover, .submit] }, rfl⟩
theorem wit_EmptyQueueRunsDeviceTime : ∃ s : State, s.pending = [] := ⟨State.reset, rfl⟩
theorem wit_StepKeepsCanonicalForm : ∃ s t : State, s.ok = true ∧ step s = .next t :=
  ⟨State.reset, _, by decide +kernel, rfl⟩

/-! ### Steps with results worked out from the spec -/

/-- R35: 250 ppm of 2^40 is 274,877,906 and a fraction; a larger trim is clamped to it. -/
theorem test_trim_clamped : (match exec (.pchTrimWrite .mgmt 0x7FFFFFFF) State.reset with
    | .next t => rd t PCH_TRIM == 274877906 | _ => false) = true := by decide +kernel
/-- R35: the clamp is symmetric. -/
theorem test_trim_clamped_below : (match exec (.pchTrimWrite .mgmt 0x80000000) State.reset with
    | .next t => rd t PCH_TRIM == 2 ^ 32 - 274877906 | _ => false) = true := by decide +kernel
/-- R118, R119: a count that would pass 0xFFFF stays there, and a nonzero status replaces the old one. -/
theorem test_count_saturates : cwNext 0xFFFE0003 3 5 7 0 = 0x7FFFF0003 := by decide +kernel
/-- R119: a word of another pitch starts to count anew. -/
theorem test_count_of_new_pitch : cwNext 0x120003 4 5 0 0 = 0x50004 := by decide +kernel
/-- FIPS 180-4: the digest of "abc". -/
theorem test_sha256_abc : (sha256 [0x61, 0x62, 0x63]).take 4 = [0xBA, 0x78, 0x16, 0xBF] := by decide +kernel
/-- R114: ADD wraps at its width. -/
theorem test_atomic_wraps : atomicNew .add 32 0xFFFFFFFF 2 0 = 1 := by decide +kernel
/-- R112: signed MIN of -1 and 1. -/
theorem test_atomic_min_signed : atomicNew .min 32 0xFFFFFFFF 1 0 = 0xFFFFFFFF := by decide +kernel
/-- R25: the first address above 384 GiB of DRAM is reserved. -/
theorem test_above_dram_refused : (match exec (.readReq { src := .dma 0 0, tag := 1, addr := 0x6000000000, len := 4 } 0) State.reset with
    | .next t => (t.refusals == 1 && (t.resps.map (fun q => (q.status, q.data))) == [(1, [0, 0, 0, 0])]) | _ => false) = true := by
  decide +kernel
/-- R26: the last byte of shared memory and the first of core memory lie in two rows. -/
theorem test_span_refused : mapped State.reset 0x100003FFFFFF 2 = false := by decide +kernel
/-- R38: the period's reset value. -/
theorem test_period_reset : period State.reset = 33333333 := by decide +kernel


end Sys2Proof.Tests
end

section
/-! SUPPORT. The address map across an access (R25, R26, R476): it rests on registers of the I/O die and on what is
fitted, while the scratchpad code counts and records in registers of the compute dies (R168). -/
namespace Sys2Proof.Proofs
open Sys2Proof.Machine Sys2Proof.Laws

/-! ### The registers of the scratchpad code -/

/-- The registers in which compute die `d` counts and records what its scratchpad code finds in bank `b`, its core memories
and its operand buffers (R168). -/
def codeRegs (d b : Nat) : List Nat :=
  [BNK_CORR_CNT d b, BNK_UNC_CNT d b, BNK_ERR_WORD d b, BNK_CM_CORR_CNT d, BNK_CM_UNC_CNT d, BNK_CM_ERR d,
    BNK_EB_CORR_CNT d, BNK_EB_UNC_CNT d, BNK_EB_ERR d]

/-- A register of the scratchpad code of some bank. -/
def CodeReg (k : Nat) : Prop := ∃ d b, b < 64 ∧ k ∈ codeRegs d b

/-- Where the registers of the scratchpad code lie among those of a compute die's memories: none at the start of a bank's
64 bytes, where the bank's power state is, and none among the clusters' states. -/
theorem CodeReg.place {k : Nat} (h : CodeReg k) :
    ∃ d o, k = 0x210000500000 + d * 0x1000000 + o ∧ o % 0x40 ≠ 0 ∧ (o < 0x1000 ∨ 0x111c ≤ o ∧ o < 0x1134) := by
  obtain ⟨d, b, hb, hk⟩ := h
  simp only [codeRegs, List.mem_cons, List.not_mem_nil, or_false, BNK_CORR_CNT, BNK_UNC_CNT, BNK_ERR_WORD, BNK_CM_CORR_CNT,
    BNK_CM_UNC_CNT, BNK_CM_ERR, BNK_EB_CORR_CNT, BNK_EB_UNC_CNT, BNK_EB_ERR] at hk
  exact ⟨d, k - 0x210000500000 - d * 0x1000000, by omega⟩

theorem not_codeReg_io {k : Nat} (h : k < 0x210000000000) : ¬ CodeReg k := by
  intro hk
  obtain ⟨d, o, he, _⟩ := hk.place
  omega

theorem not_codeReg_bankPower (d b : Nat) : ¬ CodeReg (BNK_PWR d b) := by
  intro hk
  obtain ⟨d', o, he, ho, hr⟩ := hk.place
  rw [BNK_PWR] at he
  omega

theorem not_codeReg_cluster {d i : Nat} (hi : i < 4) : ¬ CodeReg (BNK_CLU d i) := by
  intro hk
  obtain ⟨d', o, he, ho, hr⟩ := hk.place
  rw [BNK_CLU] at he
  omega

/-! ### States with the same map -/

/-- `t` has the fitted parts and the registers of `s`, except registers of the scratchpad code. -/
structure SameMap (s t : State) : Prop where
  fitted : t.fitted = s.fitted
  rd : ∀ a, ¬ CodeReg a → rd t a = rd s a

theorem SameMap.refl (s : State) : SameMap s s := ⟨rfl, fun _ _ => rfl⟩

theorem SameMap.trans {s t u : State} (h : SameMap s t) (k : SameMap t u) : SameMap s u :=
  ⟨k.fitted.trans h.fitted, fun a ha => (k.rd a ha).trans (h.rd a ha)⟩

theorem SameMap.getF {s t : State} (h : SameMap s t) {f : Fld} (hf : ¬ CodeReg f.addr) : getF t f = getF s f := by
  unfold Machine.getF
  rw [h.rd _ hf]

theorem SameMap.dieRemoved {s t : State} (h : SameMap s t) {d : Nat} (hd : d < 8) : dieRemoved t d = dieRemoved s d := by
  unfold Machine.dieRemoved
  rw [h.getF (not_codeReg_io (by simp only [FLT_DIE_STAT]; omega))]

theorem SameMap.peerPaired {s t : State} (h : SameMap s t) : peerPaired t = peerPaired s := by
  unfold Machine.peerPaired
  rw [h.getF (not_codeReg_io (by decide))]

theorem SameMap.mirrored {s t : State} (h : SameMap s t) {d : Nat} (hd : d < 8) : rd64 t (MAP_MIR d) = rd64 s (MAP_MIR d) := by
  unfold rd64
  rw [h.rd _ (not_codeReg_io (by simp only [MAP_MIR, MAP_MIR_LO]; omega)),
    h.rd _ (not_codeReg_io (by simp only [MAP_MIR, MAP_MIR_LO]; omega))]

theorem windowDie_lt {a d : Nat} (h : windowDie a = some d) : d < 8 := by
  unfold windowDie at h
  split at h
  · cases h; omega
  · cases h

theorem SameMap.phys {s t : State} (h : SameMap s t) (a : Nat) : phys t a = phys s a := by
  unfold Machine.phys
  split
  · next d hd =>
    have hd := windowDie_lt hd
    rw [h.dieRemoved hd, h.mirrored hd, h.dieRemoved (d := partner d) (Nat.mod_lt _ (by decide))]
  · rfl

theorem SameMap.locOf {s t : State} (h : SameMap s t) (a : Nat) : locOf t a = locOf s a := by
  unfold Machine.locOf
  simp only [h.phys, h.fitted, h.peerPaired]
  by_cases hw : 0x100000000000 ≤ Machine.phys s a ∧ Machine.phys s a < 0x100080000000
  · rw [h.dieRemoved (by omega)]
  · simp only [if_neg hw]

/-! ### Scratchpad addresses -/

/-- The compute die in whose window a place lies. -/
def dieOf (a : Nat) : Nat := (a - 0x100000000000) / 0x10000000

/-- An address whose place lies in the window of a compute die that is not removed: the window alone says what is there. -/
structure InWindow (s : State) (a : Nat) : Prop where
  aboveDram : s.fitted.dramTop ≤ phys s a
  lower : 0x100000000000 ≤ phys s a
  upper : phys s a < 0x100080000000
  present : dieRemoved s (dieOf (phys s a)) = false

theorem InWindow.locOf {s : State} {a : Nat} (h : InWindow s a) :
    locOf s a = locInWindow (dieOf (phys s a)) (phys s a % 0x10000000) := by
  unfold Machine.locOf
  dsimp only
  rw [if_neg (Nat.not_lt.2 h.aboveDram), if_pos ⟨h.lower, h.upper⟩]
  exact if_neg (by simpa [dieOf] using h.present)

theorem inWindow_of_scratchpad {s : State} {a : Nat} (h : scratchpad s a = true) : InWindow s a := by
  unfold scratchpad locOf at h
  dsimp only at h
  split_ifs at h with hdram hwin hrem
  exact ⟨Nat.not_lt.1 hdram, hwin.1, hwin.2, by simpa [dieOf] using hrem⟩

/-- The numbers that a place in a compute die's window can have (R26). -/
def LocBounds : Loc → Prop
  | .bank _ b => b < 64
  | .coreMem _ c => c < 32
  | .opBuf _ c _ => c < 32
  | _ => True

theorem locInWindow_bounds (d o : Nat) : LocBounds (locInWindow d o) := by
  unfold locInWindow
  split_ifs <;> simp only [LocBounds] <;> omega

theorem locOf_bounds (s : State) (a : Nat) : LocBounds (locOf s a) := by
  unfold locOf
  dsimp only
  split_ifs
  case neg => exact locInWindow_bounds _ _
  all_goals trivial

theorem SameMap.locDark {s t : State} (h : SameMap s t) (a : Nat) : locDark t a = locDark s a := by
  have hb := locOf_bounds s a
  unfold Machine.locDark
  rw [h.locOf]
  split
  · rw [h.getF (not_codeReg_bankPower _ _)]
  · next d c hl =>
    have hc : c < 32 := by rwa [hl] at hb
    rw [h.getF (not_codeReg_cluster (by omega))]
  · next d c e hl =>
    have hc : c < 32 := by rwa [hl] at hb
    rw [h.getF (not_codeReg_cluster (by omega))]
  · rfl

theorem SameMap.oneMemory {s t : State} (h : SameMap s t) (a n : Nat) : oneMemory t a n = oneMemory s a n := by
  simp only [Machine.oneMemory, h.locOf]

theorem sameMap_at (s : State) (now : Nat) : SameMap s (s.at_ now) := ⟨rfl, fun a _ => rd_at s now a⟩

theorem phys_at (s : State) (now a : Nat) : phys (s.at_ now) a = phys s a := (sameMap_at s now).phys a

/-! ### Actions that keep the map -/

/-- The action leaves the map as it was. -/
def KeepsMap (a : Act) : Prop := ∀ s, s.ok = true → SameMap s (runAct a s)

theorem keepsMap_seq {as : List Act} (h : ∀ a ∈ as, KeepsMap a) : KeepsMap (seq as) := by
  induction as with
  | nil => exact fun s _ => by rw [runAct_seq_nil]; exact .refl s
  | cons a as ih =>
    intro s hs
    rw [runAct_seq_cons]
    exact (h a (List.mem_cons_self ..) s hs).trans
      (ih (fun b hb => h b (List.mem_cons_of_mem _ hb)) _ (ok_runAct hs))

theorem keepsMap_forEach {α : Type} {xs : List α} {f : α → Act} (h : ∀ x, KeepsMap (f x)) : KeepsMap (forEach xs f) := by
  induction xs with
  | nil => exact fun s _ => by rw [runAct_forEach_nil]; exact .refl s
  | cons x xs ih =>
    intro s hs
    rw [runAct_forEach_cons]
    exact (h x s hs).trans (ih _ (ok_runAct hs))

theorem keepsMap_whenA {c : Bool} {a : Act} (h : KeepsMap a) : KeepsMap (whenA c a) := by
  intro s hs
  rw [runAct_whenA]
  split
  · exact h s hs
  · exact .refl s

/-- Keeping the map is a matter of the updates made in each state. -/
theorem keepsMap_at {a : Act} {f : State → Act} (hf : ∀ s, KeepsMap (f s)) (h : ∀ s, a s = f s s) : KeepsMap a := by
  intro s hs
  rw [runAct_eq (h s)]
  exact hf s s hs

/-- An action that writes no register and not what is fitted. -/
theorem keepsMap_of_within {T : Nat} {a : Act} (w : ∀ s, Within T (a s)) (h0 : T.testBit 0 = false) (h97 : T.testBit 97 = false)
    (hf : T.testBit 52 = false) : KeepsMap a :=
  fun s _ => ⟨same_fitted (w s) hf s, fun a _ => rd_congr (same_regs (w s) h0 h97 s) a⟩

theorem keepsMap_wr {k v : Nat} (hk : CodeReg k) : KeepsMap (wr k v) := by
  refine fun s hs => ⟨rfl, fun a ha => ?_⟩
  rw [rd_wr hs, if_neg (by rintro rfl; exact ha hk)]

theorem keepsMap_incReg {k : Nat} (hk : CodeReg k) : KeepsMap (incReg k) :=
  keepsMap_at (fun _ => keepsMap_wr hk) (fun _ => rfl)

/-- Counting a word (R168): a corrected word in one register, an uncorrectable one in a second and its record. -/
theorem keepsMap_tally {c u e v bad : Nat} (hc : CodeReg c) (hu : CodeReg u) (he : CodeReg e) :
    KeepsMap (fun s => if bad ≤ 1 then incReg c s else seq [incReg u, wr e v] s) := by
  refine keepsMap_at (f := fun _ => if bad ≤ 1 then incReg c else seq [incReg u, wr e v]) (fun _ => ?_)
    (fun _ => by split <;> rfl)
  split
  · exact keepsMap_incReg hc
  · exact keepsMap_seq (by simpa using ⟨keepsMap_incReg hu, keepsMap_wr he⟩)

/-- The registers in which a word is counted are those of the scratchpad code. -/
theorem keepsMap_countWord (w bad : Nat) : KeepsMap (countWord w bad) := by
  intro s hs
  show SameMap s (applyAll (countWord w bad s) s)
  unfold countWord
  extract_lets o
  have hb := locOf_bounds s o
  cases hl : locOf s o
  case bank d b =>
    rw [hl] at hb
    have reg {k : Nat} (hk : k ∈ codeRegs d b) : CodeReg k := ⟨d, b, hb, hk⟩
    exact keepsMap_tally (reg (by simp [codeRegs])) (reg (by simp [codeRegs])) (reg (by simp [codeRegs])) s hs
  case coreMem d c =>
    have reg {k : Nat} (hk : k ∈ codeRegs d 0) : CodeReg k := ⟨d, 0, by decide, hk⟩
    exact keepsMap_tally (reg (by simp [codeRegs])) (reg (by simp [codeRegs])) (reg (by simp [codeRegs])) s hs
  case opBuf d c e =>
    have reg {k : Nat} (hk : k ∈ codeRegs d 0) : CodeReg k := ⟨d, 0, by decide, hk⟩
    exact keepsMap_tally (reg (by simp [codeRegs])) (reg (by simp [codeRegs])) (reg (by simp [codeRegs])) s hs
  all_goals exact .refl s

theorem keepsMap_queueWriteBack (w : Nat) : KeepsMap (queueWriteBack w) :=
  keepsMap_of_within (w_queueWriteBack w) (by decide) (by decide) (by decide)

theorem keepsMap_scRead (a n : Nat) (wb : Bool) : KeepsMap (scRead a n wb) :=
  keepsMap_at (f := fun s => forEach (eccIn s a n)
      (fun e => seq [countWord e.1 e.2, whenA (wb && e.2 == 1) (queueWriteBack e.1)]))
    (fun _ => keepsMap_forEach (fun e => keepsMap_seq (by
      simpa using ⟨keepsMap_countWord e.1 e.2, keepsMap_whenA (keepsMap_queueWriteBack e.1)⟩)))
    (fun _ => rfl)

/-! ### Memories and blocks of 1 MiB -/

/-- A place lies in its block of 1 MiB as its address does. -/
theorem phys_mod (s : State) (a : Nat) : phys s a % 0x100000 = a % 0x100000 := by
  unfold phys
  split
  · split
    · omega
    · rfl
  · rfl

/-- Addresses of one 1 MiB block have their places in one block. -/
theorem phys_block {s : State} {a b : Nat} (h : a / 0x100000 = b / 0x100000) : phys s b / 0x100000 = phys s a / 0x100000 := by
  have hdie : windowDie b = windowDie a := by
    have hin : (0x100000000000 ≤ b ∧ b < 0x100080000000) ↔ (0x100000000000 ≤ a ∧ a < 0x100080000000) := by omega
    have hnum : (b - 0x100000000000) / 0x10000000 = (a - 0x100000000000) / 0x10000000 := by omega
    simp only [windowDie, hin, hnum]
  have hbank : b % 0x10000000 / 0x100000 = a % 0x10000000 / 0x100000 := by omega
  have hlow : b % 0x10000000 < 0x4000000 ↔ a % 0x10000000 < 0x4000000 := by omega
  unfold phys
  rw [hdie]
  split
  · simp only [hbank, hlow]
    split <;> omega
  · exact h.symm

/-- What lies in one 1 MiB block of a compute die's window: a bank, a core memory, the operand buffers of one core, or nothing
(R26). -/
theorem locInWindow_block {o o' : Nat} (d : Nat) (h : o / 0x100000 = o' / 0x100000) :
    (∃ b, locInWindow d o = .bank d b ∧ locInWindow d o' = .bank d b) ∨
    (∃ c, locInWindow d o = .coreMem d c ∧ locInWindow d o' = .coreMem d c) ∨
    (∃ c e e', locInWindow d o = .opBuf d c e ∧ locInWindow d o' = .opBuf d c e') ∨ locInWindow d o = .none := by
  unfold locInWindow
  by_cases hbank : o < 0x4000000
  · exact .inl ⟨o / 0x100000, if_pos hbank, by rw [if_pos (by omega), h]⟩
  by_cases hcore : o < 0x6000000
  · refine .inr (.inl ⟨(o - 0x4000000) / 0x100000, by rw [if_neg hbank, if_pos hcore], ?_⟩)
    have hcore' : (o' - 0x4000000) / 0x100000 = (o - 0x4000000) / 0x100000 := by omega
    rw [if_neg (by omega), if_pos (by omega), hcore']
  by_cases hgap : o < 0x8000000
  · exact .inr (.inr (.inr (by rw [if_neg hbank, if_neg hcore, if_pos hgap])))
  by_cases hbuf : o < 0xA000000
  · refine .inr (.inr (.inl ⟨(o - 0x8000000) / 0x100000, _, (o' - 0x8000000) / 0x20000 % 8,
      by rw [if_neg hbank, if_neg hcore, if_neg hgap, if_pos hbuf], ?_⟩))
    have hbuf' : (o' - 0x8000000) / 0x100000 = (o - 0x8000000) / 0x100000 := by omega
    rw [if_neg (by omega), if_neg (by omega), if_neg (by omega), if_pos (by omega), hbuf']
  · exact .inr (.inr (.inr (by rw [if_neg hbank, if_neg hcore, if_neg hgap, if_neg hbuf])))

/-- From a scratchpad address on, the rest of its 1 MiB block lies in the window of the same compute die. -/
theorem inWindow_of_block {s : State} {a b : Nat} (ha : InWindow s a) (hb : a / 0x100000 = b / 0x100000) (hle : a ≤ b) :
    InWindow s b ∧ dieOf (phys s b) = dieOf (phys s a) := by
  have hmodA := phys_mod s a
  have hmodB := phys_mod s b
  have hblock := phys_block (s := s) hb
  obtain ⟨hdram, hlower, hupper, hpresent⟩ := ha
  have hdie : dieOf (phys s b) = dieOf (phys s a) := by
    unfold dieOf
    omega
  exact ⟨⟨by omega, by omega, by omega, by rwa [hdie]⟩, hdie⟩

theorem mapRow_block {s : State} {a b : Nat} (hsp : scratchpad s a = true) (hb : a / 0x100000 = b / 0x100000) (hle : a ≤ b) :
    mapRow s b = mapRow s a := by
  have ha := inWindow_of_scratchpad hsp
  obtain ⟨hbw, hdie⟩ := inWindow_of_block ha hb hle
  have hblock := phys_block (s := s) hb
  have hoff : phys s a % 0x10000000 / 0x100000 = phys s b % 0x10000000 / 0x100000 := by omega
  have hlocA := ha.locOf
  have hlocB := hbw.locOf
  rw [hdie] at hlocB
  unfold mapRow
  obtain ⟨n, hA, hB⟩ | ⟨n, hA, hB⟩ | ⟨n, e, e', hA, hB⟩ | hA := locInWindow_block (dieOf (phys s a)) hoff
  · rw [hlocA, hlocB, hA, hB]
  · rw [hlocA, hlocB, hA, hB]
  · rw [hlocA, hlocB, hA, hB]
  · rw [scratchpad, hlocA, hA] at hsp
    cases hsp

/-- The three kinds of scratchpad memory. -/
theorem scratchpad_cases {s : State} {a : Nat} (h : scratchpad s a = true) :
    (∃ d b, locOf s a = .bank d b) ∨ (∃ d c, locOf s a = .coreMem d c) ∨ ∃ d c e, locOf s a = .opBuf d c e := by
  unfold scratchpad at h
  split at h
  · next d b hl => exact .inl ⟨d, b, hl⟩
  · next d c hl => exact .inr (.inl ⟨d, c, hl⟩)
  · next d c e hl => exact .inr (.inr ⟨d, c, e, hl⟩)
  · cases h

theorem mapRow_scratchpad_ne {s : State} {a : Nat} (h : scratchpad s a = true) : mapRow s a ≠ 0 := by
  unfold mapRow
  obtain ⟨d, b, hl⟩ | ⟨d, c, hl⟩ | ⟨d, c, e, hl⟩ := scratchpad_cases h <;> simp [hl]

/-- The source of a COPY, one 1 MiB block of scratchpad at most, lies in one row of the map. -/
theorem mapped_of_block {s : State} {a n : Nat} (hsp : scratchpad s a = true) (hb : a / 0x100000 = (a + (n - 1)) / 0x100000) :
    mapped s a n = true := by
  rw [mapped, mapRow_block hsp hb (Nat.le_add_right ..)]
  simpa using mapRow_scratchpad_ne hsp

theorem scratchpad_of_oneMemory {s : State} {a n : Nat} (h : oneMemory s a n = true) : scratchpad s a = true := by
  unfold oneMemory at h
  split at h
  · next d b hl => rw [scratchpad, hl]
  · next d c hl => rw [scratchpad, hl]
  · next d c e hl => rw [scratchpad, hl]
  · cases h

/-- The destination of a FILL or COPY, one memory, lies in one row of the map. -/
theorem mapped_of_oneMemory {s : State} {a n : Nat} (h : oneMemory s a n = true) : mapped s a n = true := by
  have hsp := scratchpad_of_oneMemory h
  have hrow : mapRow s (a + (n - 1)) = mapRow s a := by
    unfold oneMemory at h
    unfold mapRow
    obtain ⟨d, b, hl⟩ | ⟨d, c, hl⟩ | ⟨d, c, e, hl⟩ := scratchpad_cases hsp <;>
      · simp only [hl, beq_iff_eq] at h
        rw [hl, ← h]
  rw [mapped, hrow]
  simpa using mapRow_scratchpad_ne hsp

end Sys2Proof.Proofs
end

section
/-! SUPPORT. Writes performed at a scratchpad memory: the bytes they leave, what they leave unchanged, and what else follows them
(R121, R132, R166, R167). -/
namespace Sys2Proof.Proofs
open Sys2Proof.Machine Sys2Proof.Laws

/-! ### Bytes of memory -/

theorem byteAt_upd_mem {s : State} (hs : s.ok = true) (a x : Nat) (b : Byte) :
    byteAt (runAct (upd (.mem a b)) s) x = if x = a then b else byteAt s x := by
  rw [runAct_upd]
  exact tabGet_tabSet (ok_mem hs)

/-- A store leaves every byte outside its range as it was. -/
theorem byteAt_storeBytes_outside {s : State} (hs : s.ok = true) {a x : Nat} {bs : List Byte}
    (hx : x < a ∨ a + bs.length ≤ x) :
    byteAt (runAct (storeBytes a bs) s) x = byteAt s x := by
  induction bs generalizing a s with
  | nil => rfl
  | cons b bs ih =>
    rw [List.length_cons] at hx
    rw [storeBytes, runAct_andThen, ih (ok_runAct hs) (by omega), byteAt_upd_mem hs, if_neg (by omega)]

/-- The range of a store holds the bytes stored. -/
theorem rawBytes_storeBytes {s : State} (hs : s.ok = true) (a : Nat) (bs : List Byte) :
    rawBytes (runAct (storeBytes a bs) s) a bs.length = bs := by
  induction bs generalizing a s with
  | nil => rfl
  | cons b bs ih =>
    rw [storeBytes, runAct_andThen, List.length_cons, rawBytes, ih (ok_runAct hs),
      byteAt_storeBytes_outside (ok_runAct hs) (by omega), byteAt_upd_mem hs, if_pos rfl]

theorem byteAt_congr {s t : State} (h : t.mem = s.mem) (a : Nat) : byteAt t a = byteAt s a := by
  unfold byteAt
  rw [h]

theorem rawBytes_congr {s t : State} (h : t.mem = s.mem) (a n : Nat) : rawBytes t a n = rawBytes s a n := by
  induction n generalizing a with
  | zero => rfl
  | succ n ih => rw [rawBytes, rawBytes, ih, byteAt_congr h]

theorem length_rawBytes (s : State) (a n : Nat) : (rawBytes s a n).length = n := by
  induction n generalizing a with
  | zero => rfl
  | succ n ih => rw [rawBytes, List.length_cons, ih]

theorem bytesAt_at (s : State) (now a n : Nat) : bytesAt (s.at_ now) a n = bytesAt s a n := by
  rw [bytesAt, bytesAt, phys_at]
  exact rawBytes_congr (s := s) (t := s.at_ now) rfl _ _

/-! ### A write of whole words -/

/-- The words of a range have good check symbols again; those covered in part are counted first (R166). -/
def renewWords (a n : Nat) (es : List (Nat × Nat)) : Act :=
  forEach es (fun e => seq [whenA (!wholeWord a n e.1) (countWord e.1 e.2), upd (.ecc e.1 0)])

/-- A write replaces the write-backs that its words await (R167). -/
def dropWriteBacks (a n : Nat) : Act := fun s =>
  if s.wbPending.isEmpty then []
  else [.wbPending (s.wbPending.filter (fun w => !decide (a / 32 ≤ w ∧ 32 * w < a + n)))]

/-- What a write that meets no uncorrectable partial word does beside storing: new check symbols, write-backs that it replaces,
granules and watches (R121, R132, R166, R167). -/
def afterStore (a n : Nat) (es : List (Nat × Nat)) : Act :=
  seq [renewWords a n es, dropWriteBacks a n, markGranules a n, releaseWatches a n]

theorem runAct_scWrite {s : State} {a : Nat} {bs : List Byte} (h : badPartial s a bs.length = []) :
    runAct (scWrite a bs) s = runAct (afterStore a bs.length (eccIn s a bs.length)) (runAct (storeBytes a bs) s) := by
  rw [← runAct_andThen]
  refine runAct_eq ?_
  unfold scWrite afterStore renewWords dropWriteBacks
  simp only [h]
  rfl

theorem w_setEcc (w v : Nat) (s : State) : Within (2 ^ 26) (upd (.ecc w v) s) := wUpd (by simp only [fieldOf]; decide)

theorem w_renewWords (a n : Nat) (es : List (Nat × Nat)) (s : State) : Within (2 ^ 26 + 1) (renewWords a n es s) :=
  wEach fun e _ => wSeq (wWhen ((w_countWord ..).mono (by decide))) fun _ =>
    wSeq ((w_setEcc ..).mono (by decide)) fun _ => wSeqNil

theorem w_dropWriteBacks (a n : Nat) (s : State) : Within (2 ^ 28) (dropWriteBacks a n s) :=
  wIf wNil (wCons (by simp only [fieldOf]; decide) wNil)

/-- The fields of `scWrite` without memory. -/
theorem w_afterStore (a n : Nat) (es : List (Nat × Nat)) (s : State) : Within 349700097 (afterStore a n es s) :=
  wSeq ((w_renewWords ..).mono (by decide)) fun _ => wSeq ((w_dropWriteBacks ..).mono (by decide)) fun _ =>
    wSeq ((w_markGranules ..).mono (by decide)) fun _ => wSeq ((w_releaseWatches ..).mono (by decide)) fun _ => wSeqNil

theorem keepsMap_renewWords (a n : Nat) (es : List (Nat × Nat)) : KeepsMap (renewWords a n es) :=
  keepsMap_forEach (fun e => keepsMap_seq (by
    simpa using ⟨keepsMap_whenA (keepsMap_countWord e.1 e.2),
      keepsMap_of_within (w_setEcc e.1 0) (by decide) (by decide) (by decide)⟩))

theorem keepsMap_afterStore (a n : Nat) (es : List (Nat × Nat)) : KeepsMap (afterStore a n es) :=
  keepsMap_seq (by
    simpa using ⟨keepsMap_renewWords a n es,
      keepsMap_of_within (w_dropWriteBacks a n) (by decide) (by decide) (by decide),
      keepsMap_of_within (w_markGranules a n) (by decide) (by decide) (by decide),
      keepsMap_of_within (w_releaseWatches a n) (by decide) (by decide) (by decide)⟩)

theorem keepsMap_storeBytes (a : Nat) (bs : List Byte) : KeepsMap (storeBytes a bs) :=
  keepsMap_of_within (w_storeBytes a bs) (by decide) (by decide) (by decide)

/-! ### Frames of served requests -/

theorem servedFrame_at (s : State) (now : Nat) : servedFrame s (s.at_ now) now := ⟨rfl, fun a _ => rd_at s now a⟩

/-- Updates of the fields that serving a scratchpad request may change, and of no pitch register. -/
theorem servedFrame_of_within {us : List Upd} (w : Within 3570933763 us) {s : State} (hs : s.ok = true) :
    servedFrame s (applyAll us s) 0 := by
  refine ⟨?_, fun a ha => same_pitchRegs w (by decide) hs ha⟩
  rw [Nat.max_eq_left (Nat.zero_le s.time)]
  exact frame w s

theorem servedFrame_trans {s t u : State} {now : Nat} (h : servedFrame s t now) (k : servedFrame t u 0) :
    servedFrame s u now := by
  obtain ⟨hf, hp⟩ := h
  obtain ⟨kf, kp⟩ := k
  refine ⟨kf.trans ?_, fun a ha => (kp a ha).trans (hp a ha)⟩
  rw [Nat.max_eq_left (Nat.zero_le t.time), hf]

/-! ### Writes performed at a scratchpad -/

/-- A memory's write has been performed: its range holds the bytes, nothing else is written, and beside memory only what serving
a request may change has changed. -/
structure Stored (s t : State) (a : Nat) (bs : List Byte) : Prop where
  bytes : rawBytes t a bs.length = bs
  others : memExcept a bs.length s t
  frame : servedFrame s t 0
  resps : t.resps = s.resps
  map : SameMap s t

theorem scWrite_stored {s : State} (hs : s.ok = true) {a : Nat} {bs : List Byte} (h : badPartial s a bs.length = []) :
    Stored s (runAct (scWrite a bs) s) a bs := by
  have hok := ok_runAct (a := storeBytes a bs) hs
  have hmem : (runAct (scWrite a bs) s).mem = (runAct (storeBytes a bs) s).mem := by
    rw [runAct_scWrite h]
    exact same_mem (w_afterStore ..) (by decide) _
  exact {
    bytes := (rawBytes_congr hmem _ _).trans (rawBytes_storeBytes hs a bs)
    others := fun x hx => (byteAt_congr hmem x).trans (byteAt_storeBytes_outside hs hx)
    frame := servedFrame_of_within ((w_scWrite ..).mono rfl) hs
    resps := same_resps (w_scWrite ..) (by decide) s
    map := by
      rw [runAct_scWrite h]
      exact (keepsMap_storeBytes a bs s hs).trans (keepsMap_afterStore _ _ _ _ hok) }

theorem unitWrite_scratchpad {s : State} {a : Nat} (h : scratchpad s a = true) (m : Master) (bs : List Byte) :
    unitWrite m a bs s = if bs.isEmpty then [] else if !mapped s a bs.length then recordRefusal m a s
      else if locDark s a then refuseDark m a s else scWrite (phys s a) bs s := by
  unfold unitWrite
  obtain ⟨d, b, hl⟩ | ⟨d, c, hl⟩ | ⟨d, c, e, hl⟩ := scratchpad_cases h <;> simp only [hl]

theorem unitRead_scratchpad {s : State} {a : Nat} (h : scratchpad s a = true) (m : Master) (n : Nat) :
    unitRead m a n s = if n = 0 then [] else if !mapped s a n then recordRefusal m a s
      else if locDark s a then refuseDark m a s else scRead (phys s a) n true s := by
  unfold unitRead
  obtain ⟨d, b, hl⟩ | ⟨d, c, hl⟩ | ⟨d, c, e, hl⟩ := scratchpad_cases h <;> simp only [hl]

theorem writeStatus_scratchpad {s : State} {a : Nat} (h : scratchpad s a = true) (n : Nat) :
    writeStatus s a n = if !mapped s a n then stUNMAPPED else if locDark s a then stBANK_OFF
      else if (badPartial s (phys s a) n).isEmpty then stOK else stDATA_UNCORR := by
  unfold writeStatus
  obtain ⟨d, b, hl⟩ | ⟨d, c, hl⟩ | ⟨d, c, e, hl⟩ := scratchpad_cases h <;> simp only [hl]

/-- A write whose status is OK is performed at its place, and covers no uncorrectable word in part. -/
theorem unitWrite_performed {s : State} {a : Nat} {bs : List Byte} (m : Master) (hsp : scratchpad s a = true) (hne : bs ≠ [])
    (hst : writeStatus s a bs.length = 0) :
    unitWrite m a bs s = scWrite (phys s a) bs s ∧ badPartial s (phys s a) bs.length = [] := by
  rw [writeStatus_scratchpad hsp] at hst
  split_ifs at hst with hmap hdark hbad
  rw [unitWrite_scratchpad hsp, if_neg (by simpa using hne), if_neg hmap, if_neg hdark]
  exact ⟨rfl, by simpa using hbad⟩

theorem unitWrite_stored {s : State} (hs : s.ok = true) {a n : Nat} {bs : List Byte} (m : Master) (hsp : scratchpad s a = true)
    (hn : bs.length = n) (hpos : 0 < n) (hst : writeStatus s a n = 0) : Stored s (runAct (unitWrite m a bs) s) (phys s a) bs := by
  subst hn
  obtain ⟨hrun, hwhole⟩ := unitWrite_performed m hsp (List.ne_nil_of_length_pos hpos) hst
  rw [runAct_eq hrun]
  exact scWrite_stored hs hwhole

/-- A whole word of the code is written where the range is aligned to words. -/
theorem badPartial_aligned {s : State} {a n : Nat} (ha : a % 32 = 0) (hn : n % 32 = 0) : badPartial s a n = [] := by
  have hwhole : ∀ e ∈ eccIn s a n, wholeWord a n e.1 = true := by
    intro e he
    have hin := of_decide_eq_true (List.mem_filter.1 he).2
    exact decide_eq_true (by omega)
  rw [badPartial, List.map_eq_nil_iff, List.filter_eq_nil_iff]
  intro e he
  simp [hwhole e he]

theorem writeStatus_aligned {s : State} {a n : Nat} (h : oneMemory s a n = true) (hd : locDark s a = false) (ha : a % 32 = 0)
    (hn : n % 32 = 0) : writeStatus s a n = 0 := by
  have hplace : phys s a % 32 = 0 := by have := phys_mod s a; omega
  rw [writeStatus_scratchpad (scratchpad_of_oneMemory h), mapped_of_oneMemory h, hd, badPartial_aligned hplace hn]
  rfl

/-- From `s` to `u` nothing but the reading of a memory has happened, at `now`. -/
structure ReadServed (s u : State) (now : Nat) : Prop where
  frame : servedFrame s u now
  map : SameMap s u
  mem : u.mem = s.mem
  resps : u.resps = s.resps

theorem readServed_at (s : State) (now : Nat) : ReadServed s (s.at_ now) now :=
  ⟨servedFrame_at s now, sameMap_at s now, rfl, rfl⟩

/-- A memory that performs a read only counts and queues what its code finds (R167, R168). -/
theorem readServed_scRead {s : State} (hs : s.ok = true) (now a n : Nat) (wb : Bool) :
    ReadServed s (runAct (scRead a n wb) (s.at_ now)) now := by
  have hs' : (s.at_ now).ok = true := by rwa [ok_at]
  have w := w_scRead a n wb (s.at_ now)
  exact {
    frame := servedFrame_trans (servedFrame_at s now) (servedFrame_of_within (w.mono rfl) hs')
    map := (sameMap_at s now).trans (keepsMap_scRead _ _ _ _ hs')
    mem := same_mem w (by decide) _
    resps := same_resps w (by decide) _ }

theorem runAct_respond (r : Req) (op : ReqOp) (st : Nat) (data : List Byte) (s : State) :
    runAct (respond r op st data) s = { s with resps := s.resps ++ [⟨r.src, r.tag, op, st, data, r.addr⟩] } := rfl

theorem servedFrame_respond (r : Req) (op : ReqOp) (st : Nat) (data : List Byte) (s : State) :
    servedFrame s (runAct (respond r op st data) s) 0 := by
  refine ⟨?_, fun _ _ => rfl⟩
  rw [Nat.max_eq_left (Nat.zero_le s.time)]
  rfl

/-- The answer to a request whose write was performed, as the statements about scratchpad requests give it; `u` is the state
before the write. -/
theorem served_of_stored {s u t : State} {now a n : Nat} {bs : List Byte} {r : Req} {op : ReqOp} (h : ReadServed s u now)
    (hn : bs.length = n) (k : Stored u t (phys s a) bs) :
    let v := runAct (respond r op 0 []) t
    bytesAt v a n = bs ∧ memExcept (phys s a) n s v ∧ servedFrame s v now ∧
      v.resps = s.resps ++ [⟨r.src, r.tag, op, 0, [], r.addr⟩] := by
  intro v
  subst hn
  have hphys : phys t a = phys s a := (h.map.trans k.map).phys a
  refine ⟨?_, fun x hx => (k.others x hx).trans (byteAt_congr h.mem x), ?_, ?_⟩
  · show rawBytes v (phys t a) bs.length = bs
    rw [hphys]
    exact (rawBytes_congr (s := t) (t := v) rfl _ _).trans k.bytes
  · exact servedFrame_trans (servedFrame_trans h.frame k.frame) (servedFrame_respond ..)
  · show t.resps ++ _ = _
    rw [k.resps, h.resps]

end Sys2Proof.Proofs
end

section
/-! SUPPORT. FILL and COPY (R173, R174) as requests that their scratchpad memory performs at once. -/
namespace Sys2Proof.Proofs
open Sys2Proof.Machine Sys2Proof.Laws

/-! ### Requests that their scratchpad memory performs at once -/

theorem reqArrive_scratchpad {s : State} {r : Req} (h : scratchpad s r.addr = true) (op : ReqOp) (now : Nat) :
    reqArrive op r now s = memArrive op r s := by
  unfold reqArrive
  obtain ⟨d, b, hl⟩ | ⟨d, c, hl⟩ | ⟨d, c, e, hl⟩ := scratchpad_cases h <;> simp only [hl]

theorem memArrive_performs {s : State} {op : ReqOp} {r : Req} (hw : wakeFor s op r = none) (he : heldByEngine s op r = false)
    (hb : behind s.held r = false) : memArrive op r s = performMem op r s := by
  simp only [memArrive, hw, he, hb, Bool.or_self, Bool.false_eq_true, if_false]

theorem request_served {s : State} {op : ReqOp} {r : Req} (h : servedAt s op r) (now : Nat) :
    request op r now s = performMem op r s := by
  obtain ⟨⟨hreq, hlive, hpath⟩, hsp, hw, he, hb⟩ := h
  have harr : reqArrive op r now s = performMem op r s := (reqArrive_scratchpad hsp op now).trans (memArrive_performs hw he hb)
  unfold request
  simp only [hreq, hlive, Bool.not_true, Bool.false_eq_true, if_false]
  split
  · exact harr
  · next hc =>
    have hflow : pathFlows s r.src r.addr = true := hpath.resolve_left (by simpa using hc)
    have hroute : pathOf s r.src r.addr ≠ none := fun hn => by simp [pathFlows, hn] at hflow
    rw [if_neg hroute, if_pos hflow, harr]

/-- The device time at which a request is served plays no part in where it goes. -/
theorem runAct_request {s : State} {op : ReqOp} {r : Req} (h : servedAt s op r) (now : Nat) :
    runAct (request op r now) (s.at_ now) = runAct (performMem op r) (s.at_ now) :=
  runAct_eq (request_served (s := s.at_ now) h now)

theorem exec_fillReq {s : State} {r : Req} (h : servedAt s .fill r) (now : Nat) :
    exec (.fillReq r now) s = .next (runAct (performFill r) (s.at_ now)) := by
  show done (seq [advance now, request .fill r now]) s = _
  rw [done_advance, runAct_seq_cons, runAct_seq_nil, runAct_request h]
  rfl

theorem exec_copyReq {s : State} {r : Req} (h : servedAt s .copy r) (now : Nat) :
    exec (.copyReq r now) s = .next (runAct (performCopy r) (s.at_ now)) := by
  show done (seq [advance now, request .copy r now]) s = _
  rw [done_advance, runAct_seq_cons, runAct_seq_nil, runAct_request h]
  rfl

/-! ### FILL -/

/-- The bytes that a FILL writes: its pattern, once for every 8 bytes of its range (R173). -/
def fillBytes (r : Req) : List Byte := (List.replicate (8 * r.len) r.data).flatten

theorem length_fillBytes {r : Req} (h : r.data.length = 8) : (fillBytes r).length = 64 * r.len := by
  rw [fillBytes, List.length_flatten, List.map_replicate, List.sum_replicate, h, smul_eq_mul]
  omega

theorem fillOk_iff {s : State} {r : Req} :
    fillOk s r = true ↔ (1 ≤ r.len ∧ r.len ≤ 4096) ∧ r.addr % 64 = 0 ∧ oneMemory s r.addr (64 * r.len) = true := by
  simp only [fillOk, unitsLen, Bool.and_eq_true, decide_eq_true_eq, beq_iff_eq, and_assoc]

/-- A FILL that its memory takes is one write of its pattern, repeated, over its range (R173). -/
theorem runAct_performFill {s : State} {r : Req} (hok : fillOk s r = true) (hd : r.data.length = 8)
    (hst : writeStatus s r.addr (64 * r.len) = 0) :
    runAct (performFill r) s = runAct (respond r .fill 0 []) (runAct (unitWrite r.src r.addr (fillBytes r)) s) := by
  have hpat : (List.replicate (unitsLen r / 8) (r.data.take 8)).flatten = fillBytes r := by
    rw [fillBytes, unitsLen, List.take_of_length_le (Nat.le_of_eq hd)]
    congr 2
    omega
  have hrun : performFill r s = seq [unitWrite r.src r.addr (fillBytes r),
      respond r .fill (writeStatus s r.addr (fillBytes r).length) []] s := by
    unfold performFill
    rw [hok, hpat]
    rfl
  rw [runAct_eq hrun, length_fillBytes hd, hst, runAct_seq_cons, runAct_seq_cons, runAct_seq_nil]

/-- Settles O26: a FILL that its memory takes is one write, which leaves its pattern in the range and nothing else. -/
theorem fillWritesPattern : Obligations.FillWritesPattern := by
  unfold Obligations.FillWritesPattern
  intro s r now hs hserved hlo hhi haddr hmem hdata hst
  have hlen := length_fillBytes hdata
  have hstored := unitWrite_stored (s := s.at_ now) (by rwa [ok_at]) r.src (scratchpad_of_oneMemory hmem) hlen
    (by omega) hst
  have hrun := runAct_performFill (s := s.at_ now) (fillOk_iff.2 ⟨⟨hlo, hhi⟩, haddr, hmem⟩) hdata hst
  exact ⟨_, (exec_fillReq hserved now).trans (congrArg _ hrun), served_of_stored (readServed_at s now) hlen hstored⟩

/-! ### COPY -/

theorem copyOk_iff {s : State} {r : Req} :
    copyOk s r = true ↔ fillOk s r = true ∧ copySrc r % 64 = 0 ∧
      copySrc r / 0x100000 = (copySrc r + (64 * r.len - 1)) / 0x100000 ∧ scratchpad s (copySrc r) = true ∧
      windowDie (copySrc r) = windowDie r.addr := by
  have hdef : copyOk s r = (fillOk s r && copySrc r % 64 == 0 &&
      decide (copySrc r / 0x100000 = (copySrc r + (64 * r.len - 1)) / 0x100000) && scratchpad s (copySrc r) &&
      windowDie (copySrc r) == windowDie r.addr) := rfl
  rw [hdef]
  simp only [Bool.and_eq_true, decide_eq_true_eq, beq_iff_eq, and_assoc]

/-- A COPY that its die takes reads the source, then writes the bytes that the source held before the read (R174). -/
theorem runAct_performCopy {s : State} {r : Req} (hok : copyOk s r = true) (hsrc : locDark s (copySrc r) = false)
    (hdst : locDark s r.addr = false) (hbad : copyBad s r = []) :
    runAct (performCopy r) s = runAct (respond r .copy 0 [])
      (runAct (unitWrite r.src r.addr (bytesAt s (copySrc r) (64 * r.len)))
        (runAct (scRead (phys s (copySrc r)) (64 * r.len) true) s)) := by
  obtain ⟨hfill, -, hblock, hsp, -⟩ := copyOk_iff.1 hok
  obtain ⟨⟨hlen, -⟩, -⟩ := fillOk_iff.1 hfill
  have hstatus : copyStatus s r = 0 := by
    unfold copyStatus
    rw [hok, hsrc, hdst, hbad]
    rfl
  obtain ⟨f, hbody⟩ : ∃ f : Nat × Nat → Act, copyBody r s = seq [unitRead r.src (copySrc r) (64 * r.len),
      unitWrite r.src r.addr (bytesAt s (copySrc r) (64 * r.len)), forEach (copyBad s r) f] s :=
    ⟨_, by unfold copyBody; simp only [hok, hsrc, hdst]; rfl⟩
  have hread : unitRead r.src (copySrc r) (64 * r.len) s = scRead (phys s (copySrc r)) (64 * r.len) true s := by
    rw [unitRead_scratchpad hsp, if_neg (by omega), mapped_of_block hsp hblock, hsrc]
    rfl
  have hrun : performCopy r s = seq [copyBody r, respond r .copy (copyStatus s r) []] s := rfl
  rw [runAct_eq hrun, hstatus, runAct_seq_cons, runAct_seq_cons, runAct_seq_nil, runAct_eq hbody, runAct_seq_cons,
    runAct_seq_cons, runAct_seq_cons, runAct_seq_nil, hbad, runAct_forEach_nil, runAct_eq hread]

/-- A COPY whose source is not scratchpad of the destination's die is refused (R174). -/
theorem runAct_performCopy_refused {s : State} {r : Req} (h : copyOk s r = false) :
    runAct (performCopy r) s = runAct (respond r .copy 1 []) (runAct (recordRefusal r.src (copySrc r)) s) := by
  have hstatus : copyStatus s r = 1 := by
    unfold copyStatus
    rw [h]
    rfl
  have hbody : copyBody r s = recordRefusal r.src (copySrc r) s := by
    unfold copyBody
    rw [h]
    rfl
  have hrun : performCopy r s = seq [copyBody r, respond r .copy (copyStatus s r) []] s := rfl
  rw [runAct_eq hrun, hstatus, runAct_seq_cons, runAct_seq_cons, runAct_seq_nil, runAct_eq hbody]

/-- A COPY that its die takes leaves at its destination what the source held before the command (R174). -/
theorem copyReq_performed {s : State} {r : Req} {now : Nat} (hs : s.ok = true) (hserved : servedAt s .copy r)
    (hok : copyOk s r = true) (hsrc : locDark s (copySrc r) = false) (hdst : locDark s r.addr = false) (hbad : copyBad s r = []) :
    ∃ t, exec (.copyReq r now) s = .next t ∧ bytesAt t r.addr (64 * r.len) = bytesAt s (copySrc r) (64 * r.len) ∧
      memExcept (phys s r.addr) (64 * r.len) s t ∧ servedFrame s t now ∧
      t.resps = s.resps ++ [⟨r.src, r.tag, .copy, 0, [], r.addr⟩] := by
  obtain ⟨⟨hlen, -⟩, haddr, hone⟩ := fillOk_iff.1 (copyOk_iff.1 hok).1
  have hread := readServed_scRead hs now (phys s (copySrc r)) (64 * r.len) true
  have hbytes : (bytesAt s (copySrc r) (64 * r.len)).length = 64 * r.len := length_rawBytes ..
  have hone' := hone
  rw [← hread.map.oneMemory] at hone'
  have hst := writeStatus_aligned hone' (by rw [hread.map.locDark, hdst]) (by omega) (by omega)
  have hstored := unitWrite_stored (ok_runAct (by rwa [ok_at])) r.src (scratchpad_of_oneMemory hone') hbytes (by omega) hst
  rw [hread.map.phys] at hstored
  have hrun := runAct_performCopy (s := s.at_ now) hok hsrc hdst hbad
  rw [phys_at, bytesAt_at] at hrun
  exact ⟨_, (exec_copyReq hserved now).trans (congrArg _ hrun), served_of_stored hread hbytes hstored⟩

/-- A COPY whose source is not scratchpad of the destination's die is refused, recorded and answered (R28, R174). -/
theorem copyReq_refused {s : State} {r : Req} {now : Nat} (hserved : servedAt s .copy r) (hok : copyOk s r = false) :
    ∃ t, exec (.copyReq r now) s = .next t ∧ refusedAt r.src (copySrc r) (s.at_ now) { t with resps := s.resps } ∧
      t.resps = s.resps ++ [⟨r.src, r.tag, .copy, 1, [], r.addr⟩] := by
  refine ⟨_, (exec_copyReq hserved now).trans (congrArg _ (runAct_performCopy_refused (s := s.at_ now) hok)), ?_, ?_⟩
  · rw [runAct_respond, recordRefusal_at r.src (copySrc r) (s.at_ now)]
    rfl
  · rw [runAct_respond, recordRefusal_at r.src (copySrc r) (s.at_ now)]
    rfl

/-- Settles O27: a COPY writes what its source held before the command, and one whose source is not scratchpad of its die is
refused. -/
theorem copyReadsWholeSource : Obligations.CopyReadsWholeSource := by
  unfold Obligations.CopyReadsWholeSource
  constructor
  · intro s r now hs hserved hfill halign hblock hsp hdie hsrc hdst hbad
    exact copyReq_performed hs hserved (copyOk_iff.2 ⟨hfill, halign, hblock, hsp, hdie⟩) hsrc hdst hbad
  · intro s r now _ hserved helse
    refine copyReq_refused hserved (Bool.eq_false_iff.2 fun hok => ?_)
    obtain ⟨-, -, -, hsp, hdie⟩ := copyOk_iff.1 hok
    rcases helse with hne | hno
    · exact hne hdie
    · rw [hno] at hsp
      cases hsp

end Sys2Proof.Proofs
end

section
/-! SUPPORT. The machine as a whole: a step performs the front command, an idle step is one nanosecond of the reference, and
canonical form, which reset meets and every step keeps. -/
namespace Sys2Proof.Proofs
open Sys2Proof.Machine Sys2Proof.Laws

/-! ### Steps -/

theorem step_cons {s : State} {c : Instr} {q : List Instr} (h : s.pending = c :: q) :
    step s = exec c { s with pending := q } := by
  unfold step
  rw [h]
  rfl

theorem step_nil {s : State} (h : s.pending = []) : step s = .next (idle s) := by
  unfold step
  rw [h]

/-- Settles O1: a step is its front command, performed on the state with the queue's rest. -/
theorem stepPerformsFrontCommand : Obligations.StepPerformsFrontCommand := by
  unfold Obligations.StepPerformsFrontCommand
  intro c q s h
  exact step_cons h

/-- An idle step moves device time alone. -/
theorem idle_eq (s : State) :
    idle s = { s with time := timeUnits s / 2 ^ 40, timeFrac := timeUnits s % 2 ^ 40 } := rfl

/-- Settles O2: device time after an idle step is the corrected time, split at 2^40 units to the nanosecond (R35). -/
theorem emptyQueueRunsDeviceTime : Obligations.EmptyQueueRunsDeviceTime := by
  unfold Obligations.EmptyQueueRunsDeviceTime
  intro s h
  refine ⟨idle s, step_nil h, rfl, ?_, Nat.mod_lt _ (by decide)⟩
  rw [idle_eq]
  have hsplit : timeUnits s / 2 ^ 40 * 2 ^ 40 + timeUnits s % 2 ^ 40 = timeUnits s := Nat.div_add_mod' ..
  rw [hsplit, timeUnits, Int.toNat_eq_max, max_comm]

/-! ### Canonical form -/

/-- Leaving the queue's front does not touch a memory, a register or a table. -/
theorem ok_withPending (s : State) (q : List Instr) : (s.withPending q).ok = s.ok := by
  unfold State.withPending State.ok State.memOk State.regsOk State.tabsOk
  rfl

theorem ok_idle {s : State} (h : s.ok = true) : (idle s).ok = true := ok_runAct h

/-- Settles O5: a command reaches its next state by updates, and each of them keeps the canonical form. -/
theorem stepKeepsCanonicalForm : Obligations.StepKeepsCanonicalForm := by
  unfold Obligations.StepKeepsCanonicalForm
  intro s t hs hstep
  cases hq : s.pending with
  | nil =>
    rw [step_nil hq] at hstep
    cases hstep
    exact ok_idle hs
  | cons c q =>
    rw [step_cons hq] at hstep
    exact exec_ok hstep ((ok_withPending s q).trans hs)

theorem ok_reset : State.reset.ok = true := by decide

theorem rd_reset (a : Nat) : rd State.reset a = (regReset a).toNat := rfl

theorem byteAt_reset (a : Nat) : byteAt State.reset a = 0 := rfl

/-- Settles O4: at reset the register file and the memories are empty tables, which read as their defaults. -/
theorem resetState : Obligations.ResetState := by
  unfold Obligations.ResetState
  refine ⟨ok_reset, rfl, rd_reset, ?_, ?_, ?_, byteAt_reset⟩
  · decide
  · decide
  · decide

end Sys2Proof.Proofs
end

section
/-! SUPPORT. Register writes as the statements speak of them: what setting a field leaves unchanged (`setsField`, `onlyRegs`),
what a guarded write does, and the drain that clearing EN begins (R28, R104). -/
namespace Sys2Proof.Proofs
open Sys2Proof.Machine Sys2Proof.Laws

/-! ### Frames of register writes -/

theorem regsExcept_refl (as : List Nat) (s : State) : regsExcept as s s := fun _ _ => rfl

theorem regsExcept_trans {as : List Nat} {s t u : State} (h : regsExcept as s t) (k : regsExcept as t u) : regsExcept as s u :=
  fun a ha => (k a ha).trans (h a ha)

theorem regsExcept_mono {as bs : List Nat} {s t : State} (h : regsExcept as s t) (hsub : as ⊆ bs) : regsExcept bs s t :=
  fun a ha => h a (fun hin => ha (hsub hin))

theorem onlyRegs_trans {as : List Nat} {s t u : State} (h : onlyRegs as s t) (k : onlyRegs as t u) : onlyRegs as s u := by
  obtain ⟨hst, hregs⟩ := h
  obtain ⟨hu, kregs⟩ := k
  refine ⟨?_, regsExcept_trans hregs kregs⟩
  rw [hu, hst]

theorem onlyRegs_mono {as bs : List Nat} {s t : State} (h : onlyRegs as s t) (hsub : as ⊆ bs) : onlyRegs bs s t :=
  ⟨h.1, regsExcept_mono h.2 hsub⟩

/-- A field of a register outside the list reads as before. -/
theorem getF_of_regsExcept {as : List Nat} {s t : State} (h : regsExcept as s t) {f : Fld} (hf : f.addr ∉ as) :
    getF t f = getF s f := by
  rw [getF, h _ hf, getF]

/-! ### Setting registers and fields -/

/-- The field lies in the 32 bits of its register: `rfl` for each field of the register tables. -/
def Fits (f : Fld) : Bool := decide (f.lo ≤ f.hi) && decide (f.hi < 32)

theorem bounds_of_fits {f : Fld} (h : Fits f = true) : f.lo ≤ f.hi ∧ f.hi < 32 := by
  simpa [Fits] using h

section SetField
variable {s : State} (hs : s.ok = true)
include hs

theorem onlyRegs_wr (a v : Nat) : onlyRegs [a] s (runAct (wr a v) s) :=
  ⟨wr_only a v s, fun b hb => by rw [rd_wr hs, if_neg (by simpa using hb)]⟩

theorem setsField_setF {f : Fld} (hf : Fits f = true) (v : Nat) : setsField f v s (runAct (setF f v) s) := by
  have hb := bounds_of_fits hf
  refine ⟨?_, setF_only f v s, fun a ha => ?_⟩
  · rw [fieldSet, rd_setF hs f v _ hb, if_pos rfl]
  · rw [rd_setF hs f v _ hb, if_neg (by simpa using ha)]

theorem onlyRegs_setF {f : Fld} (hf : Fits f = true) (v : Nat) : onlyRegs [f.addr] s (runAct (setF f v) s) :=
  (setsField_setF hs hf v).2

end SetField

/-- What happens to other registers afterwards leaves the field as it was set. -/
theorem fieldSet_of_regsExcept {f : Fld} {v : Nat} {as : List Nat} {s t u : State} (h : fieldSet f v s t)
    (k : regsExcept as t u) (hf : f.addr ∉ as) : fieldSet f v s u := by
  rw [fieldSet, k _ hf, h]

/-- What happened to other registers before plays no part in how the field was set. -/
theorem fieldSet_after {f : Fld} {v : Nat} {as : List Nat} {s t u : State} (h : regsExcept as s t) (k : fieldSet f v t u)
    (hf : f.addr ∉ as) : fieldSet f v s u := by
  rw [fieldSet, k, h _ hf]

/-! ### Actions that write few registers -/

/-- Of the registers, the action writes none outside `as`. -/
def Touches (as : List Nat) (a : Act) : Prop := ∀ s, s.ok = true → regsExcept as s (runAct a s)

section Touches
variable {as : List Nat}

theorem touches_setF {f : Fld} (hf : Fits f = true) (v : Nat) (h : f.addr ∈ as) : Touches as (setF f v) :=
  fun _ hs => regsExcept_mono (onlyRegs_setF hs hf v).2 (by simpa using h)

theorem touches_wr {a : Nat} (v : Nat) (h : a ∈ as) : Touches as (wr a v) :=
  fun _ hs => regsExcept_mono (onlyRegs_wr hs a v).2 (by simpa using h)

theorem touches_nil : Touches as (seq []) := fun s _ => by rw [runAct_seq_nil]; exact regsExcept_refl as s

theorem touches_cons {a : Act} {l : List Act} (h : Touches as a) (k : Touches as (seq l)) : Touches as (seq (a :: l)) :=
  fun s hs => by rw [runAct_seq_cons]; exact regsExcept_trans (h s hs) (k _ (ok_runAct hs))

theorem touches_whenA {c : Bool} {a : Act} (h : Touches as a) : Touches as (whenA c a) := by
  intro s hs
  rw [runAct_whenA]
  split
  · exact h s hs
  · exact regsExcept_refl as s

/-- Which registers an action writes is a matter of the updates made in each state. -/
theorem touches_at {a : Act} {f : State → Act} (hf : ∀ s, Touches as (f s)) (h : ∀ s, a s = f s s) : Touches as a := by
  intro s hs
  rw [runAct_eq (h s)]
  exact hf s s hs

theorem touches_if {c : State → Prop} [∀ s, Decidable (c s)] {a : Act} (h : Touches as a) :
    Touches as (fun s => if c s then a s else []) :=
  touches_at (f := fun s => if c s then a else nop)
    (fun s => by split; exacts [h, fun s _ => regsExcept_refl as s]) (fun s => by split <;> rfl)

theorem runAct_if {c : State → Prop} [∀ s, Decidable (c s)] (a : Act) (s : State) :
    runAct (fun s => if c s then a s else []) s = if c s then runAct a s else s := by
  rw [runAct_cond]
  rfl

/-- An action that writes no register. -/
theorem touches_of_within {T : Nat} {a : Act} (w : ∀ s, Within T (a s)) (h0 : T.testBit 0 = false) (h97 : T.testBit 97 = false) :
    Touches as a := fun s _ a _ => rd_congr (same_regs (w s) h0 h97 s) a

/-- An action that writes registers alone. -/
theorem onlyRegs_of_touches {a : Act} {s : State} (hs : s.ok = true) (w : Within 1 (a s)) (h : Touches as a) :
    onlyRegs as s (runAct a s) := ⟨frame w s, h s hs⟩

end Touches

/-! ### Guarded writes (R28) -/

theorem guarded_refuses {c : Bool} (hc : c = false) (m : Master) (a : Nat) (act : Act) (s : State) :
    ∃ t, done (guarded c m a act) s = .next t ∧ refusedAt m a s t := by
  refine ⟨_, done_eq _ _, ?_⟩
  rw [runAct_guarded, hc]
  exact recordRefusal_at m a s

theorem guarded_performs {c : Bool} (hc : c = true) (m : Master) (a : Nat) (act : Act) (s : State) :
    done (guarded c m a act) s = .next (runAct act s) := by
  rw [done_eq, runAct_guarded, hc, if_pos rfl]

/-- A guarded write that its master may make leaves what the write does. -/
theorem guarded_leaves {c : Bool} (hc : c = true) {m : Master} {a : Nat} {act : Act} {s : State} {P : State → Prop}
    (h : P (runAct act s)) : ∃ t, done (guarded c m a act) s = .next t ∧ P t :=
  ⟨_, guarded_performs hc m a act s, h⟩

theorem guarded_setsField {c : Bool} (hc : c = true) (m : Master) (a : Nat) {s : State} (hs : s.ok = true) {f : Fld}
    (hf : Fits f = true) (v : Nat) : ∃ t, done (guarded c m a (setF f v)) s = .next t ∧ setsField f v s t :=
  guarded_leaves hc (setsField_setF hs hf v)

/-- An announcement from a master that announces no bundle is refused (R63). -/
theorem breadyWrite_refused {src : Master} (h : announces src = false) (p k : Nat) :
    breadyWrite src p k = recordRefusal src TOPO_BREADY := by
  funext s
  cases src
  case app c => cases h
  case pcie => cases h
  all_goals rfl

/-- Settles O10: each of these commands is a guarded write, and its guard fails. -/
theorem forbiddenWritesRefused : Obligations.ForbiddenWritesRefused := by
  unfold Obligations.ForbiddenWritesRefused
  refine ⟨fun s src h => ?_, fun s src h => ?_, fun s src n ch h => ?_, fun s src w v h => ?_, fun s src v h => ?_,
    fun s src h => ?_, fun s src p k h => ?_⟩
  · have hand (b : Bool) : (swWriteOk src && b) = false := by rw [h, Bool.false_and]
    exact ⟨fun _ _ _ => guarded_refuses (hand _) .., fun _ _ _ => guarded_refuses (hand _) ..,
      fun _ _ => guarded_refuses (hand _) .., guarded_refuses h .., fun _ => guarded_refuses (hand _) ..,
      fun _ => guarded_refuses (hand _) .., fun _ => guarded_refuses (hand _) .., fun _ _ => guarded_refuses (hand _) ..,
      fun _ => guarded_refuses h .., guarded_refuses h .., guarded_refuses h .., guarded_refuses h .., guarded_refuses h ..,
      guarded_refuses h .., fun _ _ => guarded_refuses (hand _) .., guarded_refuses h .., fun _ => guarded_refuses (hand _) ..,
      fun _ _ _ => guarded_refuses (hand _) .., fun _ => guarded_refuses (hand _) .., fun _ _ => guarded_refuses h ..⟩
  · exact ⟨fun _ _ => guarded_refuses h .., fun _ => guarded_refuses h .., fun _ => guarded_refuses h ..,
      fun _ _ _ => guarded_refuses h .., fun _ _ => guarded_refuses h .., fun _ => guarded_refuses h ..,
      fun _ _ => guarded_refuses h .., guarded_refuses h ..⟩
  · have hand : (dmaExists n ch && dmaWriteOk s n ch src) = false := by rw [h, Bool.and_false]
    exact ⟨guarded_refuses hand .., guarded_refuses hand .., guarded_refuses hand .., fun _ => guarded_refuses hand ..⟩
  · exact guarded_refuses (by rw [h, Bool.and_false]) ..
  · exact guarded_refuses h ..
  · exact guarded_refuses h ..
  · refine ⟨_, rfl, ?_⟩
    rw [breadyWrite_refused h]
    exact recordRefusal_at ..

/-! ### Enables and drains (R104) -/

theorem runAct_writeEnable_false (en st : Fld) (s : State) :
    runAct (writeEnable en st false) s
      = if getF s st = 1 then runAct (setF st 2) (runAct (setF en 0) s) else runAct (setF en 0) s := by
  have h : runAct (writeEnable en st false) s = runAct (seq [setF en 0, whenA (getF s st == 1) (setF st 2)]) s := rfl
  rw [h, runAct_seq_cons, runAct_seq_cons, runAct_seq_nil, runAct_whenA]
  simp only [beq_iff_eq]

/-- Clearing EN takes an enabled block to draining. -/
theorem drains_writeEnable {en st : Fld} {s : State} (hs : s.ok = true) (hen : Fits en = true) (hst : Fits st = true)
    (hne : en.addr ≠ st.addr) : drains en st s (runAct (writeEnable en st false) s) := by
  have hclear := setsField_setF hs hen 0
  have hs' := ok_runAct (a := setF en 0) hs
  have hnot : st.addr ∉ [en.addr] := by simpa using hne.symm
  rw [runAct_writeEnable_false]
  split
  · next h1 =>
    have hdrain := setsField_setF hs' hst 2
    exact ⟨fieldSet_of_regsExcept hclear.1 hdrain.2.2 (by simpa using hne), fun _ => fieldSet_after hclear.2.2 hdrain.1 hnot,
      fun h => absurd h1 h, onlyRegs_trans (onlyRegs_mono hclear.2 (by simp)) (onlyRegs_mono hdrain.2 (by simp))⟩
  · next h1 =>
    exact ⟨hclear.1, fun h => absurd h h1, fun _ => hclear.2.2 _ hnot, onlyRegs_mono hclear.2 (by simp)⟩

theorem touches_writeEnable_false {as : List Nat} {en st : Fld} (hen : Fits en = true) (hst : Fits st = true)
    (hea : en.addr ∈ as) (hsa : st.addr ∈ as) : Touches as (writeEnable en st false) :=
  touches_at (fun _ => touches_cons (touches_setF hen 0 hea) (touches_cons (touches_whenA (touches_setF hst 2 hsa)) touches_nil))
    (fun _ => rfl)

end Sys2Proof.Proofs
end

section
/-! SUPPORT. Enables, single fields and limits: the commands that write a few fields of one block's registers. -/
namespace Sys2Proof.Proofs
open Sys2Proof.Machine Sys2Proof.Laws

/-! ### Blocks that drain (R104, R214, R237, R291, R359) -/

theorem guarded_drains {c : Bool} (hc : c = true) (m : Master) (a : Nat) {s : State} (hs : s.ok = true) {en st : Fld}
    (hen : Fits en = true) (hst : Fits st = true) (hne : en.addr ≠ st.addr) :
    ∃ t, done (guarded c m a (writeEnable en st false)) s = .next t ∧ drains en st s t :=
  guarded_leaves hc (drains_writeEnable hs hen hst hne)

/-- Clearing EN of a CAN controller only drains it: it does not rejoin its bus. -/
theorem runAct_canEnable_false (k : Nat) (s : State) :
    runAct (canEnable k false) s = runAct (writeEnable (CAN_CTL_EN k) (CAN_STAT_STATE k) false) s := by
  have h : runAct (canEnable k false) s
      = runAct (seq [whenA false (canRejoin k), writeEnable (CAN_CTL_EN k) (CAN_STAT_STATE k) false]) s := rfl
  rw [h, runAct_seq_cons, runAct_whenA, if_neg (by decide), runAct_seq_cons, runAct_seq_nil]

/-- What a context that is ON leaves when EN is cleared: it drains, and ING_STAT shows it no longer. -/
theorem runAct_ctxDisable_on {s : State} {x : Nat} (h : ctxOn s x = true) :
    runAct (ctxDisable x) s = runAct (wr ING_STAT (putBit (rd s ING_STAT) x false))
      (runAct (setF (ING_CTX_STAT_STATE x) 2) (runAct (setF (ING_CTX_CTL_EN x) 0) s)) := by
  have hrun : runAct (ctxDisable x) s = runAct (seq [setF (ING_CTX_CTL_EN x) 0,
      whenA (ctxOn s x) (seq [setF (ING_CTX_STAT_STATE x) 2, wr ING_STAT (putBit (rd s ING_STAT) x false)])]) s := rfl
  rw [hrun, h]
  simp only [runAct_seq_cons, runAct_seq_nil, runAct_whenA, if_true]

theorem runAct_ctxDisable_off {s : State} {x : Nat} (h : ctxOn s x = false) :
    runAct (ctxDisable x) s = runAct (setF (ING_CTX_CTL_EN x) 0) s := by
  have hrun : runAct (ctxDisable x) s = runAct (seq [setF (ING_CTX_CTL_EN x) 0,
      whenA (ctxOn s x) (seq [setF (ING_CTX_STAT_STATE x) 2, wr ING_STAT (putBit (rd s ING_STAT) x false)])]) s := rfl
  rw [hrun, h]
  simp only [runAct_seq_cons, runAct_seq_nil, runAct_whenA, Bool.false_eq_true, if_false]

/-- Settles O11: clearing EN is one guarded write of EN and STATE; a context also leaves ING_STAT. -/
theorem disableDrains : Obligations.DisableDrains := by
  unfold Obligations.DisableDrains
  refine ⟨fun s src hs hsw => ⟨fun n p hp => ?_, ?_, fun d hd => ?_⟩, fun s src hs hhost => ⟨fun m => ?_, fun k => ?_, ?_⟩,
    fun s src n ch hs hex hown => ?_, fun s x hs hoff => ?_, fun s x hs hx hon => ?_, fun s x hs => ?_⟩
  · exact guarded_drains (by rw [hsw, hp]; rfl) _ _ hs rfl rfl (by simp only [RPL_CTL, RPL_STAT]; omega)
  · exact guarded_drains hsw _ _ hs rfl rfl (by decide)
  · exact guarded_drains (by rw [hsw, decide_eq_true hd]; rfl) _ _ hs rfl rfl (by simp only [KVC_CTL, KVC_STAT]; omega)
  · exact guarded_drains hhost _ _ hs rfl rfl (by simp only [ETH_CTL, ETH_STAT]; omega)
  · refine guarded_leaves hhost ?_
    rw [runAct_canEnable_false]
    exact drains_writeEnable hs rfl rfl (by simp only [CAN_CTL, CAN_STAT]; omega)
  · exact guarded_drains hhost _ _ hs rfl rfl (by decide)
  · exact guarded_drains (by rw [hex, hown]; rfl) _ _ hs rfl rfl (by simp only [DMA_CH_CTL, DMA_CH_STAT]; omega)
  · refine ⟨_, rfl, ?_⟩
    rw [runAct_ctxDisable_off hoff]
    exact setsField_setF hs rfl 0
  · refine ⟨_, rfl, ?_⟩
    rw [runAct_ctxDisable_on hon]
    have hs1 := ok_runAct (a := setF (ING_CTX_CTL_EN x) 0) hs
    have hs2 := ok_runAct (a := setF (ING_CTX_STAT_STATE x) 2) hs1
    obtain ⟨hen, oen⟩ := setsField_setF hs (f := ING_CTX_CTL_EN x) rfl 0
    obtain ⟨hst, ost⟩ := setsField_setF hs1 (f := ING_CTX_STAT_STATE x) rfl 2
    have ostat := onlyRegs_wr hs2 ING_STAT (putBit (rd s ING_STAT) x false)
    have hci : ING_CTX_CTL x ≠ ING_STAT := by simp only [ING_CTX_CTL, ING_STAT]; omega
    have hsi : ING_CTX_STAT x ≠ ING_STAT := by simp only [ING_CTX_STAT, ING_STAT]; omega
    refine ⟨?_, ?_, ?_, ?_⟩
    · exact fieldSet_of_regsExcept (fieldSet_of_regsExcept hen ost.2 (by simp)) ostat.2 (by simpa using hci)
    · exact fieldSet_of_regsExcept (fieldSet_after oen.2 hst (by simp)) ostat.2 (by simpa using hsi)
    · rw [rd_wr hs2, if_pos rfl, putBit, Nat.mod_eq_of_lt (putBits_lt (Nat.le_refl x) (by omega) (rd_lt s ING_STAT))]
    · exact onlyRegs_trans (onlyRegs_trans (onlyRegs_mono oen (by simp)) (onlyRegs_mono ost (by simp)))
        (onlyRegs_mono ostat (by simp))
  · exact ⟨_, rfl, setsField_setF hs rfl 1⟩

/-! ### Units that drop what they have not begun (R407, R428) -/

/-- FUSION without EN: an enabled unit drains, and its run that has not begun is dropped (R407). -/
theorem runAct_fusEnable_false (s : State) :
    runAct (fusEnable false) s = runAct (seq [setF FUS_CTL_EN 0, whenA (getF s FUS_STAT_STATE == 1) (seq [setF FUS_STAT_STATE 2,
      whenA (getF s FUS_STAT_RUN == 1) (setF FUS_STAT_RUN 0)])]) s := rfl

theorem touches_fusEnable_false : Touches [FUS_CTL, FUS_STAT] (fusEnable false) :=
  touches_at (fun _ => touches_cons (touches_setF rfl 0 (by simp)) (touches_cons (touches_whenA (touches_cons
    (touches_setF rfl 2 (by simp)) (touches_cons (touches_whenA (touches_setF rfl 0 (by simp))) touches_nil))) touches_nil))
    (fun _ => rfl)

theorem flag_eq_false {s : State} {f : Fld} (h : getF s f = 0) : flag s f = false := by
  rw [flag, h]
  rfl

/-- The registers of FUSION after EN was cleared. -/
theorem fusEnable_false_fields {s : State} (hs : s.ok = true) :
    getF (runAct (fusEnable false) s) FUS_CTL_EN = 0 ∧
    getF (runAct (fusEnable false) s) FUS_STAT_STATE = (if getF s FUS_STAT_STATE = 1 then 2 else getF s FUS_STAT_STATE) ∧
    getF (runAct (fusEnable false) s) FUS_STAT_RUN =
      (if getF s FUS_STAT_STATE = 1 ∧ getF s FUS_STAT_RUN = 1 then 0 else getF s FUS_STAT_RUN) := by
  have hs1 := ok_runAct (a := setF FUS_CTL_EN 0) hs
  have hs2 := ok_runAct (a := setF FUS_STAT_STATE 2) hs1
  rw [runAct_fusEnable_false]
  simp only [runAct_seq_cons, runAct_seq_nil, runAct_whenA, beq_iff_eq]
  by_cases hon : getF s FUS_STAT_STATE = 1 <;> by_cases hrun : getF s FUS_STAT_RUN = 1 <;>
    simp [hon, hrun, getF_setF, getF_setF_ne, hs, hs1, hs2]

/-- The action in which TRAVERSE leaves the map that it was loading. -/
def leaveMap : Act := setTrv (fun t => { t with mapFrom := none })

/- As in Laws/Actions.lean, these are not left to `rfl` alone, which would have the kernel compare whole runs. -/
theorem getF_leaveMap (s : State) (f : Fld) : getF (runAct leaveMap s) f = getF s f := by
  unfold leaveMap
  rfl

theorem trv_leaveMap (s : State) : (runAct leaveMap s).trv = { s.trv with mapFrom := none } := by
  unfold leaveMap
  rfl

theorem trv_setF (f : Fld) (v : Nat) (s : State) : (runAct (setF f v) s).trv = s.trv := same_trv (w_setF ..) (by decide) s

/-- TRAVERSE without EN: an enabled unit drains, a map being loaded is dropped, and so is a run that waits (R428). -/
theorem trvEnable_false :
    trvEnable false = seq [writeEnable TRV_CTL_EN TRV_STAT_STATE false, whenA true (seq [
      fun s => if s.trv.mapFrom.isSome then setF TRV_STAT_MAP_BUSY 0 s else [], leaveMap,
      fun s => if getF s TRV_STAT_RUN = 1 then setF TRV_STAT_RUN 0 s else []])] := rfl

/-- The unit's registers and its map after EN was cleared. -/
theorem trvEnable_false_fields {s : State} (hs : s.ok = true) :
    getF (runAct (trvEnable false) s) TRV_CTL_EN = 0 ∧
    getF (runAct (trvEnable false) s) TRV_STAT_STATE = (if getF s TRV_STAT_STATE = 1 then 2 else getF s TRV_STAT_STATE) ∧
    getF (runAct (trvEnable false) s) TRV_STAT_RUN = (if getF s TRV_STAT_RUN = 1 then 0 else getF s TRV_STAT_RUN) ∧
    (s.trv.mapFrom.isSome = true → getF (runAct (trvEnable false) s) TRV_STAT_MAP_BUSY = 0) ∧
    (runAct (trvEnable false) s).trv = { s.trv with mapFrom := none } := by
  have hs1 := ok_runAct (a := setF TRV_CTL_EN 0) hs
  have hs2 := ok_runAct (a := setF TRV_STAT_STATE 2) hs1
  have hdrain := ok_runAct (a := setF TRV_STAT_MAP_BUSY 0) hs2
  have hidle := ok_runAct (a := setF TRV_STAT_MAP_BUSY 0) hs1
  rw [trvEnable_false]
  simp only [runAct_seq_cons, runAct_seq_nil, runAct_whenA, runAct_if, if_true, runAct_writeEnable_false]
  by_cases hon : getF s TRV_STAT_STATE = 1 <;> by_cases hmap : s.trv.mapFrom.isSome = true <;>
    by_cases hrun : getF s TRV_STAT_RUN = 1 <;>
    simp [hon, hmap, hrun, getF_setF, getF_setF_ne, hs, hs1, hs2, hdrain, hidle, getF_leaveMap, trv_leaveMap, trv_setF]

theorem touches_trvEnable_false : Touches [TRV_CTL, TRV_STAT] (trvEnable false) := by
  rw [trvEnable_false]
  exact touches_cons (touches_writeEnable_false rfl rfl (by simp) (by simp))
    (touches_cons (touches_whenA (touches_cons (touches_if (touches_setF rfl 0 (by simp)))
      (touches_cons (touches_of_within (w_setTrv _) (by decide) (by decide))
        (touches_cons (touches_if (touches_setF rfl 0 (by simp))) touches_nil)))) touches_nil)

/-- Settles O12: the units' STATE, RUN and MAP_BUSY follow from the writes that clearing EN makes. -/
theorem unitsDisable : Obligations.UnitsDisable := by
  unfold Obligations.UnitsDisable
  constructor
  · intro s src hs hsw
    obtain ⟨hen, hst, hrun⟩ := fusEnable_false_fields hs
    exact guarded_leaves hsw ⟨flag_eq_false hen, hst, hrun, onlyRegs_of_touches hs (w_fusEnable ..) touches_fusEnable_false⟩
  · intro s src hs hsw
    obtain ⟨hen, hst, hrun, hbusy, htrv⟩ := trvEnable_false_fields hs
    exact guarded_leaves hsw ⟨flag_eq_false hen, hst, hrun, fun h => flag_eq_false (hbusy h), htrv,
      touches_trvEnable_false s hs, frame (w_trvEnable false s) s⟩

end Sys2Proof.Proofs
end

section
/-! SUPPORT. Single fields and limits: the commands that write a few fields of one block's registers. -/
namespace Sys2Proof.Proofs
open Sys2Proof.Machine Sys2Proof.Laws

/-! ### Single fields (R186, R294, R383, R412, R529, R474, R478) -/

theorem bits_mod (w hi lo : Nat) : bits w hi lo % 2 ^ (hi + 1 - lo) = bits w hi lo := Nat.mod_mod ..

theorem bits_lt (w hi lo : Nat) : bits w hi lo < 2 ^ (hi + 1 - lo) := Nat.mod_lt _ (Nat.two_pow_pos _)

theorem getF_lt (s : State) (f : Fld) : getF s f < 2 ^ (f.hi + 1 - f.lo) := bits_lt ..

/-- A field that another one of its register follows in the write. -/
theorem getF_setF_setF {s : State} (hs : s.ok = true) {f g : Fld} (hf : Fits f = true) (hg : Fits g = true)
    (hne : f.hi < g.lo ∨ g.hi < f.lo) (v w : Nat) :
    getF (runAct (setF g w) (runAct (setF f v) s)) f = v % 2 ^ (f.hi + 1 - f.lo) := by
  rw [getF_setF_ne (ok_runAct hs) g f w (bounds_of_fits hg) (bounds_of_fits hf).1 (.inr hne), getF_setF hs f v (bounds_of_fits hf)]

theorem runAct_scrubInterval (d v : Nat) (s : State) : runAct (scrubInterval d v) s =
    runAct (setF (BNK_SCRUB_INTERVAL d) (max (v % 2 ^ 16) (getF s (BNK_SCRUB_MIN_MIN d)))) s :=
  runAct_eq (show scrubInterval d v s = _ by unfold scrubInterval; rfl)

/-- Settles O14: each command is one guarded write of a field; UNHOLD writes two registers, TRV_HOLD two fields of one. -/
theorem fieldWrites : Obligations.FieldWrites := by
  unfold Obligations.FieldWrites
  refine ⟨fun s src hs hsw => ⟨fun d b v hd hb => ?_, fun d v hd => ?_, ?_, ?_, fun r hr => ?_, ?_, fun p hp => ?_⟩,
    fun s src w v hs hw hown => ?_, fun s src v hs hown => ?_, fun s src u n hs hhost hn => ?_⟩
  · exact guarded_setsField (by rw [hsw, decide_eq_true ⟨hd, hb⟩]; rfl) _ _ hs rfl _
  · refine guarded_leaves (by rw [hsw, decide_eq_true hd]; rfl) ?_
    rw [runAct_scrubInterval]
    exact setsField_setF hs rfl _
  · exact guarded_setsField hsw _ _ hs rfl _
  · exact guarded_setsField hsw _ _ hs rfl _
  · exact guarded_setsField (by rw [hsw, decide_eq_true hr]; rfl) _ _ hs rfl _
  · exact guarded_leaves hsw rfl
  · refine guarded_leaves (by rw [hsw, decide_eq_true hp]; rfl) ?_
    rw [unhold, runAct_seq_cons, runAct_seq_cons, runAct_seq_nil]
    obtain ⟨hhold, ohold⟩ := setsField_setF hs (f := PRT_BIV_HOLD p) rfl 0
    obtain ⟨hheld, oheld⟩ := setsField_setF (ok_runAct (a := setF (PRT_BIV_HOLD p) 0) hs) (f := FLT_PART_STAT_HELD p) rfl 0
    have hne : PRT_BIV p ≠ FLT_PART_STAT p := by simp only [PRT_BIV, FLT_PART_STAT]; omega
    exact ⟨fieldSet_of_regsExcept hhold oheld.2 (by simpa using hne), fieldSet_after ohold.2 hheld (by simpa using hne.symm),
      onlyRegs_trans (onlyRegs_mono ohold (by simp)) (onlyRegs_mono oheld (by simp))⟩
  · exact guarded_setsField (by rw [decide_eq_true hw, hown]; rfl) _ _ hs rfl _
  · refine guarded_leaves hown ?_
    rw [trvHoldWrite, runAct_seq_cons, runAct_seq_cons, runAct_seq_nil]
    refine ⟨?_, ?_, onlyRegs_trans (onlyRegs_setF hs rfl _) (onlyRegs_setF (ok_runAct hs) rfl _)⟩
    · exact (getF_setF_setF hs rfl rfl (.inl (by decide)) ..).trans (bits_mod ..)
    · exact (getF_setF (ok_runAct hs) _ _ (by decide)).trans (bits_mod ..)
  · refine guarded_leaves hhost ?_
    rw [icuComplete, decide_eq_true hn, runAct_whenA, if_pos rfl]
    exact setsField_setF hs rfl 0

/-! ### Limits (R304, R331, R480, R536) -/

/-- Showing `out` requests of a port: OUT, OVER and the high-water mark (R299). -/
def showRequests (p late out : Nat) : Act :=
  seq [setF (REG_STAT_OUT p) out, setF (REG_STAT_OVER p) late,
    fun s => if getF s (REG_HWM_HWM p) < out then setF (REG_HWM_HWM p) out s else []]

theorem touches_showRequests (p late out : Nat) : Touches [REG_STAT p, REG_HWM p] (showRequests p late out) :=
  touches_cons (touches_setF rfl _ (by simp)) (touches_cons (touches_setF rfl _ (by simp))
    (touches_cons (touches_if (touches_setF rfl _ (by simp))) touches_nil))

theorem touches_regShow (p : Nat) : Touches [REG_STAT p, REG_HWM p] (regShow p) :=
  touches_at (f := fun s => showRequests p _ _) (fun _ => touches_showRequests _ _ _) (fun s => by unfold regShow showRequests; rfl)

theorem runAct_budgetWrite {s : State} {p : Nat} (h : anchorPort p = false) (v : Nat) : runAct (budgetWrite p v) s =
    runAct (regShow p) (runAct (setF (REG_BUDGET_BUDGET p)
      (min (max (v % 2 ^ 10) (getF s (REG_BLIM_MIN p))) (getF s (REG_BLIM_MAX p)))) s) := by
  have hrun : budgetWrite p v s = seq [setF (REG_BUDGET_BUDGET p)
      (min (max (v % 2 ^ 10) (getF s (REG_BLIM_MIN p))) (getF s (REG_BLIM_MAX p))), regShow p] s := by
    unfold budgetWrite
    rw [h]
    rfl
  rw [runAct_eq hrun, runAct_seq_cons, runAct_seq_cons, runAct_seq_nil]

theorem getF_budgetWrite {s : State} (hs : s.ok = true) {p : Nat} (h : anchorPort p = false) (v : Nat) :
    getF (runAct (budgetWrite p v) s) (REG_BUDGET_BUDGET p) =
      min (max (v % 2 ^ 10) (getF s (REG_BLIM_MIN p))) (getF s (REG_BLIM_MAX p)) := by
  have hmax : getF s (REG_BLIM_MAX p) < 2 ^ 10 := getF_lt ..
  have hout : REG_BUDGET p ∉ [REG_STAT p, REG_HWM p] := by
    simp only [List.mem_cons, List.not_mem_nil, or_false, not_or, REG_BUDGET, REG_STAT, REG_HWM]
    omega
  rw [runAct_budgetWrite h, getF_of_regsExcept (touches_regShow p _ (ok_runAct hs)) hout, getF_setF hs _ _ (by simp)]
  exact Nat.mod_eq_of_lt (Nat.lt_of_le_of_lt (Nat.min_le_right ..) hmax)

theorem budgetWrite_anchorPort {p : Nat} (h : anchorPort p = true) (v : Nat) (s : State) : budgetWrite p v s = [] := by
  unfold budgetWrite
  rw [h]
  rfl

/-- A share byte, raised to 64 where it lies below (R480). -/
def raiseShare (b : Byte) : Byte := if b.toNat < 64 then 64 else b

theorem toNat_raiseShare (n : Nat) :
    (raiseShare (BitVec.ofNat 8 n)).toNat = if n % 256 < 64 then 64 else n % 256 := by
  unfold raiseShare
  rw [BitVec.toNat_ofNat]
  split
  · rfl
  · rw [BitVec.toNat_ofNat]

/-- Byte `i` of a little-endian number of four bytes. -/
theorem bits_leNat_four (a b c d : Byte) {i : Nat} (hi : i < 4) :
    bits (leNat [a, b, c, d] % 2 ^ 32) (8 * i + 7) (8 * i) = ([a, b, c, d].map BitVec.toNat).getD i 0 := by
  have ha := a.isLt
  have hb := b.isLt
  have hc := c.isLt
  have hd := d.isLt
  simp only [leNat, bits]
  interval_cases i <;> norm_num <;> omega

theorem bits_shareBytes (v : Nat) {i : Nat} (hi : i < 4) :
    bits (leNat ((leBytes 4 v).map raiseShare) % 2 ^ 32) (8 * i + 7) (8 * i) =
      if bits v (8 * i + 7) (8 * i) < 64 then 64 else bits v (8 * i + 7) (8 * i) := by
  refine (bits_leNat_four _ _ _ _ hi).trans ?_
  simp only [List.map_cons, List.map_nil, toNat_raiseShare, bits]
  interval_cases i <;> norm_num [Nat.div_div_eq_div_mul]

theorem runAct_capUserWrite (v : Nat) (s : State) :
    runAct (capUserWrite v) s = runAct (setF THM_LIM_CAP_USER_W (min (max v 60) (pLim s))) s :=
  runAct_eq (show capUserWrite v s = _ by unfold capUserWrite; rfl)

theorem runAct_targetWrite_bad {s : State} {src : Master} {v : Nat} (h : targetOk s src v = false) :
    runAct (targetWrite src v) s = runAct (setF DDR_FC_IGN 1) s := by
  refine runAct_eq ?_
  unfold targetWrite
  rw [h]
  rfl

/-- The pitch from whose guard a frequency change may begin (R332). -/
def changeFrom (s : State) : DramPol := { s.dpol with fcFrom := if guardStart s ≤ s.time then pitchNum s + 1 else pitchNum s }

theorem runAct_targetWrite_ok {s : State} {src : Master} {v : Nat} (h : targetOk s src v = true) :
    runAct (targetWrite src v) s = runAct (whenA (v != getF s DDR_PT_CUR) (seq [setF DDR_FC_BUSY 1, upd (.dpol (changeFrom s))]))
      (runAct (setF DDR_FC_TARGET v) s) := by
  have hrun : targetWrite src v s = seq [setF DDR_FC_TARGET v,
      whenA (v != getF s DDR_PT_CUR) (seq [setF DDR_FC_BUSY 1, upd (.dpol (changeFrom s))])] s := by
    unfold targetWrite
    rw [h]
    rfl
  rw [runAct_eq hrun, runAct_seq_cons, runAct_seq_cons, runAct_seq_nil]

/-- What a target that may be chosen leaves in DDR_FC (R331). -/
theorem targetWrite_ok_fields {s : State} (hs : s.ok = true) {src : Master} {v : Nat} (h : targetOk s src v = true) :
    getF (runAct (targetWrite src v) s) DDR_FC_TARGET = v ∧
    getF (runAct (targetWrite src v) s) DDR_FC_BUSY = (if v = getF s DDR_PT_CUR then getF s DDR_FC_BUSY else 1) ∧
    regsExcept [DDR_FC] s (runAct (targetWrite src v) s) := by
  have hv : v < 3 := by
    simp only [targetOk, Bool.and_eq_true, decide_eq_true_eq] at h
    omega
  have hs1 := ok_runAct (a := setF DDR_FC_TARGET v) hs
  have hkeep (t : State) (p : DramPol) (f : Fld) : getF (applyUpd (.dpol p) t) f = getF t f := rfl
  have hchange : Touches [DDR_FC] (seq [setF DDR_FC_BUSY 1, upd (.dpol (changeFrom s))]) :=
    touches_cons (touches_setF rfl 1 (by simp)) (touches_cons
      (touches_of_within (T := 2 ^ 50) (fun _ => wUpd (by simp only [fieldOf]; decide)) (by decide) (by decide)) touches_nil)
  rw [runAct_targetWrite_ok h]
  have hregs := regsExcept_trans (onlyRegs_setF hs (f := DDR_FC_TARGET) rfl v).2
    (touches_whenA (c := v != getF s DDR_PT_CUR) hchange _ hs1)
  have hv4 : v < 4 := by omega
  by_cases hcur : v = getF s DDR_PT_CUR
  · refine ⟨?_, ?_, hregs⟩ <;> simp [← hcur, getF_setF, getF_setF_ne, hs, hv4]
  · refine ⟨?_, ?_, hregs⟩ <;> simp [hcur, getF_setF, getF_setF_ne, hs, hs1, hkeep, hv4]

/-- Settles O15: every limit is the value that the write computes; a target that may not be chosen sets IGN instead. -/
theorem limitedWrites : Obligations.LimitedWrites := by
  unfold Obligations.LimitedWrites
  refine fun s src hs hsw => ⟨fun p v hp hanc hlim => ?_, fun p v hp hanc => ?_, fun v => ?_, fun v => ?_, fun v => ?_,
    fun p hi v hp => ?_, fun v hbad => ?_, fun v hok => ?_⟩
  · refine guarded_leaves (by rw [hsw, decide_eq_true hp]; rfl) ?_
    exact ⟨getF_budgetWrite hs hanc v, frame (w_budgetWrite p v s) s⟩
  · refine (guarded_performs (by rw [hsw, decide_eq_true hp]; rfl) ..).trans ?_
    rw [runAct, budgetWrite_anchorPort hanc, applyAll_nil]
  · refine guarded_leaves hsw ?_
    rw [if_pos rfl, runAct_capUserWrite]
    exact setsField_setF hs rfl _
  · exact guarded_setsField hsw _ _ hs rfl _
  · exact guarded_setsField hsw _ _ hs rfl _
  · refine guarded_leaves (by rw [hsw, decide_eq_true hp]; rfl) ⟨onlyRegs_wr hs _ _, fun i hi4 => ?_⟩
    rw [shareWrite, rd_wr hs, if_pos rfl]
    exact bits_shareBytes v hi4
  · refine guarded_leaves hsw ?_
    rw [runAct_targetWrite_bad hbad]
    exact setsField_setF hs rfl 1
  · refine guarded_leaves hsw ?_
    obtain ⟨htarget, hbusy, hregs⟩ := targetWrite_ok_fields hs hok
    exact ⟨htarget, hbusy, hregs, frame (w_targetWrite src v s) s⟩

end Sys2Proof.Proofs
end

section
/-! SUPPORT. Device time and its discipline (R35, R36). -/
namespace Sys2Proof.Proofs
open Sys2Proof.Machine Sys2Proof.Laws

theorem ofSigned_lt (n : Nat) (i : Int) : ofSigned n i < 2 ^ n := by
  have hpos : (0 : Int) < ((2 ^ n : Nat) : Int) := by exact_mod_cast Nat.two_pow_pos n
  have hlt := Int.emod_lt_of_pos i hpos
  have hnonneg := Int.emod_nonneg i (Int.ne_of_gt hpos)
  unfold ofSigned
  omega

/-- A write of PCH_TRIM writes the limited value (R35). -/
theorem runAct_trimWrite (v : Nat) (s : State) : runAct (trimWrite v) s = runAct (wr PCH_TRIM (ofSigned 32 (trimLimited s v))) s :=
  runAct_eq (show trimWrite v s = _ by unfold trimWrite trimLimited; rfl)

theorem rd_trimWrite {s : State} (hs : s.ok = true) (v : Nat) :
    rd (runAct (trimWrite v) s) PCH_TRIM = ofSigned 32 (trimLimited s v) := by
  rw [runAct_trimWrite, rd_wr hs, if_pos rfl, Nat.mod_eq_of_lt (ofSigned_lt ..)]

theorem onlyRegs_trimWrite {s : State} (hs : s.ok = true) (v : Nat) : onlyRegs [PCH_TRIM] s (runAct (trimWrite v) s) := by
  rw [runAct_trimWrite]
  exact onlyRegs_wr hs ..

/-! ### The first synchronisation (R36) -/

theorem ok_ancs {s : State} (h : s.ok = true) : tabWf ancDefault s.ancs = true := by
  simp_all [State.ok, State.tabsOk]

theorem anc_setAnc {s : State} (hs : s.ok = true) (x y : Nat) (f : Anc → Anc) :
    get_ancs (runAct (setAnc x f) s) y = if y = x then f (get_ancs s x) else get_ancs s y :=
  tabGet_tabSet (ok_ancs hs)

/-- Setting device time moves the offset of each anchor die by as much the other way. -/
def moveOffset (t t0 : Nat) (a : Anc) : Anc := { a with off := a.off + t - t0 }

/-- Setting device time: first the time, then what is kept relative to it. -/
theorem runAct_rebaseTo (t0 : Nat) (s : State) : ∃ m : Mon, ∃ f : Nat × Rail → Rail, runAct (rebaseTo t0) s =
    runAct (seq [upd (.mon m), forEach s.rails (fun r => upd (.rails r.1 (f r)))])
      (runAct (setAnc 1 (moveOffset s.time t0)) (runAct (setAnc 0 (moveOffset s.time t0)) { s with time := t0, timeFrac := 0 })) :=
  ⟨_, _, by
    have hrun : runAct (rebaseTo t0) s = runAct (seq [upd (.time t0), upd (.timeFrac 0),
        forEach [0, 1] (fun x => setAnc x (moveOffset s.time t0)), upd (.mon _), forEach s.rails (fun r => upd (.rails r.1 _))]) s :=
      runAct_eq (by unfold rebaseTo; rfl)
    rw [hrun, runAct_seq_cons, runAct_seq_cons, runAct_seq_cons, runAct_forEach_cons, runAct_forEach_cons, runAct_forEach_nil]
    rfl⟩

/-- Device time after it was set, and the anchor dies' own time as before. -/
theorem rebaseTo_times {s : State} (hs : s.ok = true) (t0 : Nat) :
    (runAct (rebaseTo t0) s).time = t0 ∧ (runAct (rebaseTo t0) s).timeFrac = 0 ∧
    ∀ x, x < 2 → get_ancs (runAct (rebaseTo t0) s) x = moveOffset s.time t0 (get_ancs s x) := by
  obtain ⟨m, f, hrun⟩ := runAct_rebaseTo t0 s
  have hs0 : ({ s with time := t0, timeFrac := 0 } : State).ok = true :=
    ok_runAct (a := seq [upd (.time t0), upd (.timeFrac 0)]) hs
  have w (u : State) : Within (2 ^ 85 + 2 ^ 96) (seq [upd (.mon m), forEach s.rails (fun r => upd (.rails r.1 (f r)))] u) :=
    wSeq (wUpd (by simp only [fieldOf]; decide)) fun _ =>
      wSeq (wEach fun _ _ => wUpd (by simp only [fieldOf]; decide)) fun _ => wSeqNil
  rw [hrun]
  refine ⟨same_time (w _) (by decide) _, same_timeFrac (w _) (by decide) _, fun x hx => ?_⟩
  have hancs : get_ancs (runAct (setAnc 1 (moveOffset s.time t0)) (runAct (setAnc 0 (moveOffset s.time t0))
      { s with time := t0, timeFrac := 0 })) x = moveOffset s.time t0 (get_ancs s x) := by
    rw [anc_setAnc (ok_runAct hs0), anc_setAnc hs0, anc_setAnc hs0]
    interval_cases x <;> rfl
  rw [← hancs, get_ancs, get_ancs, runAct, same_ancs (w _) (by decide)]

theorem off_moveOffset (t t0 : Nat) (a : Anc) : (moveOffset t t0 a).off = a.off + t - t0 := rfl

theorem ancTime_of_moveOffset {s t : State} {x t0 : Nat} (htime : t.time = t0)
    (h : get_ancs t x = moveOffset s.time t0 (get_ancs s x)) : ancTime t x = ancTime s x := by
  rw [ancTime, ancTime, htime, h, off_moveOffset]
  congr 1
  omega

/-- The first synchronisation, as one action. -/
def setTime (t0 : Nat) : Act := seq [rebaseTo t0, upd (.timeSet true), setF PCH_STATUS_HOLDOVER 0]

theorem w_setTime (t0 : Nat) (s : State) : Within (79266848149715377763989323800 + 2 ^ 7 + 2 ^ 97 + 1) (setTime t0 s) :=
  wSeq ((w_rebaseTo ..).mono (by decide)) fun _ => wSeq (wUpd (by simp only [fieldOf]; decide)) fun _ =>
    wSeq ((w_setF ..).mono (by decide)) fun _ => wSeqNil

/-- A synchronisation on the time port moves the trim, or sets device time before RUN; HOLDOVER clears. -/
theorem exec_timeSync {s : State} {m : Nat} (h : m = getF s PCH_CFG_TIME_PORT) (t0 trim : Nat) :
    exec (.timeSyncMessage m t0 trim) s = .next (runAct (setF PCH_STATUS_HOLDOVER 0)
      (if flag s PCH_CFG_RUN = false ∧ s.timeSet = false then runAct (upd (.timeSet true)) (runAct (rebaseTo t0) s)
        else runAct (trimWrite trim) s)) := by
  have hrun : exec (.timeSyncMessage m t0 trim) s = .next (runAct
      (seq [if !flag s PCH_CFG_RUN && !s.timeSet then seq [rebaseTo t0, upd (.timeSet true)] else trimWrite trim,
        setF PCH_STATUS_HOLDOVER 0]) s) := by
    show done _ s = _
    rw [done_eq]
    exact congrArg _ (runAct_eq (if_neg (not_not.2 h)))
  rw [hrun]
  simp only [runAct_seq_cons, runAct_seq_nil, runAct_ite, Bool.and_eq_true, Bool.not_eq_true']

theorem setTime_frame {s t : State} {t0 : Nat} (htime : (runAct (rebaseTo t0) s).time = t0)
    (hfrac : (runAct (rebaseTo t0) s).timeFrac = 0)
    (ht : runAct (setF PCH_STATUS_HOLDOVER 0) (runAct (upd (.timeSet true)) (runAct (rebaseTo t0) s)) = t) :
    t = { s with regs := t.regs, time := t0, timeFrac := 0, timeSet := true, ancs := t.ancs, rails := t.rails, mon := t.mon } := by
  have hrun : applyAll (setTime t0 s) s = t := by
    rw [← ht, ← runAct, setTime, runAct_seq_cons, runAct_seq_cons, runAct_seq_cons, runAct_seq_nil]
  have hkept : t = { s with regs := t.regs, time := t.time, timeFrac := t.timeFrac, timeSet := t.timeSet, ancs := t.ancs,
                            rails := t.rails, mon := t.mon } := by
    have h := frame (w_setTime t0 s) s
    rwa [hrun] at h
  have h1 : t.time = t0 := ht ▸ htime
  have h2 : t.timeFrac = 0 := ht ▸ hfrac
  have h3 : t.timeSet = true := ht ▸ rfl
  rwa [h1, h2, h3] at hkept

/-- Settles O8: the trim is limited where it is written; the first synchronisation moves the anchor dies' offsets against device
time. -/
theorem deviceTimeDiscipline : Obligations.DeviceTimeDiscipline := by
  unfold Obligations.DeviceTimeDiscipline
  refine ⟨fun s src v hs hsw => ?_, fun s src v hno => ?_, fun s m t0 trim hm => ?_, fun s m t0 trim hs hm hrun => ?_,
    fun s m t0 trim hs hm hrun hset => ?_, fun s hs => ?_⟩
  · exact guarded_leaves hsw ⟨rd_trimWrite hs v, onlyRegs_trimWrite hs v⟩
  · exact guarded_refuses hno ..
  · show done _ s = _
    rw [done_eq]
    exact congrArg _ (runAct_eq (b := nop) (if_pos hm))
  · refine ⟨_, exec_timeSync hm .., ?_⟩
    rw [if_neg (by rintro ⟨h1, h2⟩; simp [h1, h2] at hrun)]
    obtain ⟨hhold, ohold⟩ := setsField_setF (ok_runAct (a := trimWrite trim) hs) (f := PCH_STATUS_HOLDOVER) rfl 0
    have otrim := onlyRegs_trimWrite hs trim
    exact ⟨(ohold.2 _ (by decide)).trans (rd_trimWrite hs trim), fieldSet_after otrim.2 hhold (by decide),
      onlyRegs_trans (onlyRegs_mono otrim (by simp)) (onlyRegs_mono ohold (by simp))⟩
  · refine ⟨_, exec_timeSync hm .., ?_⟩
    rw [if_pos ⟨hrun, hset⟩]
    obtain ⟨htime, hfrac, hanc⟩ := rebaseTo_times hs t0
    have hregs : regsExcept [] s (runAct (upd (.timeSet true)) (runAct (rebaseTo t0) s)) :=
      fun a _ => rd_congr (same_regs (w_rebaseTo t0 s) (by decide) (by decide) s) a
    obtain ⟨hhold, ohold⟩ := setsField_setF
      (ok_runAct (a := upd (.timeSet true)) (ok_runAct (a := rebaseTo t0) hs)) (f := PCH_STATUS_HOLDOVER) rfl 0
    refine ⟨htime, rfl, fieldSet_after hregs hhold (by simp), ?_, fun x hx => ?_, ?_⟩
    · exact regsExcept_trans (regsExcept_mono hregs (by simp)) ohold.2
    · exact ancTime_of_moveOffset htime (hanc x hx)
    · exact setTime_frame htime hfrac rfl
  · exact ⟨_, rfl, setsField_setF hs rfl 1⟩

end Sys2Proof.Proofs
end

section
/-! SUPPORT. The commands of a partial image (R82), and links and routes that go down (R101, R103). -/
namespace Sys2Proof.Proofs
open Sys2Proof.Machine Sys2Proof.Laws

/-! ### Counters -/

theorem satAdd_lt (w k : Nat) : satAdd 32 w k < 2 ^ 32 := by
  unfold satAdd
  omega

theorem runAct_incReg (a : Nat) (s : State) : runAct (incReg a) s = runAct (wr a (satAdd 32 (rd s a) 1)) s :=
  runAct_eq (show incReg a s = _ by unfold incReg addReg; rfl)

theorem rd_incReg {s : State} (hs : s.ok = true) (a : Nat) : rd (runAct (incReg a) s) a = satAdd 32 (rd s a) 1 := by
  rw [runAct_incReg, rd_wr hs, if_pos rfl, Nat.mod_eq_of_lt (satAdd_lt ..)]

theorem onlyRegs_incReg {s : State} (hs : s.ok = true) (a : Nat) : onlyRegs [a] s (runAct (incReg a) s) := by
  rw [runAct_incReg]
  exact onlyRegs_wr hs ..

/-! ### TOPO_ERR (R85) -/

theorem topoErr_shows {s : State} (hs : s.ok = true) (code sect : Nat) :
    topoErrIs code sect 1 (runAct (topoErr code sect true) s) := by
  have hs1 := ok_runAct (a := setF TOPO_ERR_CODE code) hs
  have hs2 := ok_runAct (a := setF TOPO_ERR_SECTION sect) hs1
  have hs3 := ok_runAct (a := setF TOPO_ERR_VALID 1) hs2
  unfold topoErr topoErrIs
  simp only [runAct_seq_cons, runAct_seq_nil]
  refine ⟨?_, ?_, ?_, ?_⟩ <;> simp [getF_setF, getF_setF_ne, hs, hs1, hs2, hs3]

theorem touches_topoErr (code sect : Nat) (part : Bool) : Touches [TOPO_ERR] (topoErr code sect part) :=
  touches_cons (touches_setF rfl _ (by simp)) (touches_cons (touches_setF rfl _ (by simp))
    (touches_cons (touches_setF rfl _ (by simp)) (touches_cons (touches_setF rfl _ (by simp)) touches_nil)))

theorem onlyRegs_topoErr {s : State} (hs : s.ok = true) (code sect : Nat) (part : Bool) :
    onlyRegs [TOPO_ERR] s (runAct (topoErr code sect part) s) :=
  onlyRegs_of_touches hs (w_topoErr ..) (touches_topoErr code sect part)

theorem topoErrIs_of_regsExcept {code sect part : Nat} {as : List Nat} {s t : State} (h : topoErrIs code sect part s)
    (k : regsExcept as s t) (hne : TOPO_ERR ∉ as) : topoErrIs code sect part t := by
  obtain ⟨hcode, hsect, hvalid, hpart⟩ := h
  exact ⟨(getF_of_regsExcept k hne).trans hcode, (getF_of_regsExcept k hne).trans hsect,
    (getF_of_regsExcept k hne).trans hvalid, (getF_of_regsExcept k hne).trans hpart⟩

/-! ### SUBMIT and CANCEL (R82) -/

theorem exec_submit_busy {s : State} (h : getF s TOPO_STATUS_PART_STATE ≠ 0) :
    exec .submit s = .next (runAct (incReg TOPO_REJ_CNT) (runAct (topoErr 0x0E 0xFF true) s)) := by
  have hrun : submit s = seq [topoErr 0x0E 0xFF true, incReg TOPO_REJ_CNT] s := if_pos h
  show done submit s = _
  rw [done_eq, runAct_eq hrun, runAct_seq_cons, runAct_seq_cons, runAct_seq_nil]

/-- The loader's state once SUBMIT has taken the staged image. -/
def taken (s : State) (l : Load) : Load := { l with topo := some { part := hPart (staged s) % 16, img := staged s } }

/- As in Laws/Actions.lean, these are not left to `rfl` alone, which would have the kernel compare whole runs. -/
theorem load_setLoad (f : Load → Load) (s : State) : (runAct (setLoad f) s).load = f s.load := by
  unfold setLoad
  rfl
theorem load_setF (f : Fld) (v : Nat) (s : State) : (runAct (setF f v) s).load = s.load :=
  same_load (w_setF ..) (by decide) s
theorem getF_setLoad (f : Load → Load) (s : State) (g : Fld) : getF (runAct (setLoad f) s) g = getF s g := by
  unfold setLoad
  rfl
theorem touches_setLoad {as : List Nat} (f : Load → Load) : Touches as (setLoad f) :=
  touches_of_within (w_setLoad f) (by decide) (by decide)

theorem submit_idle {s : State} (h : getF s TOPO_STATUS_PART_STATE = 0) :
    submit s = seq [setF TOPO_STATUS_PART_STATE 1, setF TOPO_STATUS_PART_ID (hPart (staged s)), setF TOPO_DEFER_DEFER_CNT 0,
      setLoad (taken s)] s := if_neg (not_not.2 h)

theorem submit_idle_fields {s : State} (hs : s.ok = true) (h : getF s TOPO_STATUS_PART_STATE = 0) :
    getF (runAct submit s) TOPO_STATUS_PART_STATE = 1 ∧ getF (runAct submit s) TOPO_STATUS_PART_ID = hPart (staged s) % 16 ∧
    getF (runAct submit s) TOPO_DEFER_DEFER_CNT = 0 ∧ (runAct submit s).load = taken s s.load := by
  have hs1 := ok_runAct (a := setF TOPO_STATUS_PART_STATE 1) hs
  have hs2 := ok_runAct (a := setF TOPO_STATUS_PART_ID (hPart (staged s))) hs1
  rw [runAct_eq (submit_idle h)]
  simp only [runAct_seq_cons, runAct_seq_nil, getF_setLoad, load_setLoad, load_setF, and_true]
  refine ⟨?_, ?_, ?_⟩ <;> simp [getF_setF, getF_setF_ne, hs, hs1, hs2]

theorem regsExcept_submit_idle {s : State} (hs : s.ok = true) (h : getF s TOPO_STATUS_PART_STATE = 0) :
    regsExcept [TOPO_STATUS, TOPO_DEFER] s (runAct submit s) := by
  rw [runAct_eq (submit_idle h)]
  exact touches_cons (touches_setF rfl _ (by simp)) (touches_cons (touches_setF rfl _ (by simp))
    (touches_cons (touches_setF rfl _ (by simp)) (touches_cons (touches_setLoad _) touches_nil))) s hs

/-- The image leaves service. -/
def dropped (l : Load) : Load := { l with topo := none }

theorem cancelWrite_runs {s : State} {now : Nat} (h : getF s TOPO_STATUS_PART_STATE ≠ 0)
    (hg : ¬(getF s TOPO_STATUS_PART_STATE = 3 ∧ inGuard s now = true)) :
    cancelWrite now s = seq [topoErr 0x10 0xFF true, seq [setLoad dropped, setF TOPO_STATUS_PART_STATE 0]] s := by
  unfold cancelWrite cancelPartial
  exact (if_neg hg).trans (if_neg h)

theorem cancelWrite_ignored {s : State} {now : Nat} (h : getF s TOPO_STATUS_PART_STATE = 3) (hg : inGuard s now = true) :
    cancelWrite now s = nop s := by
  unfold cancelWrite
  exact if_pos ⟨h, hg⟩

theorem inGuard_at (s : State) (now n : Nat) : inGuard (s.at_ now) n = inGuard s n := by
  unfold inGuard tickTime period rd64
  rw [flag_at, rd_at, rd_at, getF_at]
  rfl

theorem exec_cancel (now : Nat) (s : State) : exec (.cancel now) s = .next (runAct (cancelWrite now) (s.at_ now)) := by
  show done (seq [advance now, cancelWrite now]) s = _
  rw [done_advance, runAct_seq_cons, runAct_seq_nil]

/-- Settles O16: SUBMIT and CANCEL write TOPO_ERR, TOPO_STATUS and the loader's image, as their branches say. -/
theorem submitAndCancel : Obligations.SubmitAndCancel := by
  unfold Obligations.SubmitAndCancel
  refine ⟨fun s hs hbusy => ?_, fun s hs hidle => ?_, fun s now h3 hg => ?_, fun s now hs hbusy hg => ?_⟩
  · refine ⟨_, exec_submit_busy hbusy, ?_⟩
    have herr := onlyRegs_topoErr hs 0x0E 0xFF true
    have hs1 := ok_runAct (a := topoErr 0x0E 0xFF true) hs
    have hcount := onlyRegs_incReg hs1 TOPO_REJ_CNT
    refine ⟨topoErrIs_of_regsExcept (topoErr_shows hs ..) hcount.2 (by decide), ?_,
      onlyRegs_trans (onlyRegs_mono herr (by simp)) (onlyRegs_mono hcount (by simp))⟩
    rw [rd_incReg hs1, herr.2 _ (by decide)]
  · obtain ⟨hstate, hid, hdefer, hload⟩ := submit_idle_fields hs hidle
    exact ⟨runAct submit s, rfl, hstate, hid, hdefer, hload, regsExcept_submit_idle hs hidle, frame (w_submit s) s⟩
  · rw [exec_cancel, runAct_eq (cancelWrite_ignored (s := s.at_ now) (by rwa [getF_at]) (by rwa [inGuard_at])), runAct_nop]
  · refine ⟨_, exec_cancel now s, ?_⟩
    have hs' : (s.at_ now).ok = true := by rwa [ok_at]
    have hrun := cancelWrite_runs (s := s.at_ now) (now := now) (by rwa [getF_at])
      (by rwa [getF_at, inGuard_at])
    have hdrop : Touches [TOPO_STATUS] (seq [setLoad dropped, setF TOPO_STATUS_PART_STATE 0]) :=
      touches_cons (touches_setLoad _) (touches_cons (touches_setF rfl _ (by simp)) touches_nil)
    have hs1 := ok_runAct (a := topoErr 0x10 0xFF true) hs'
    have hregs : regsExcept [TOPO_ERR, TOPO_STATUS] (s.at_ now) (runAct (cancelWrite now) (s.at_ now)) := by
      rw [runAct_eq hrun, runAct_seq_cons, runAct_seq_cons, runAct_seq_nil]
      exact regsExcept_trans (regsExcept_mono (touches_topoErr _ _ _ _ hs') (by simp)) (regsExcept_mono (hdrop _ hs1) (by simp))
    refine ⟨?_, ?_, ?_, fun a ha => (hregs a ha).trans (rd_at s now a), frame (w_cancelWrite now _) (s.at_ now)⟩
    · rw [runAct_eq hrun, runAct_seq_cons, runAct_seq_cons, runAct_seq_nil]
      exact topoErrIs_of_regsExcept (topoErr_shows hs' ..) (hdrop _ hs1) (by decide)
    · rw [runAct_eq hrun]
      simp only [runAct_seq_cons, runAct_seq_nil]
      exact getF_setF (ok_runAct hs1) _ _ (by decide)
    · rw [runAct_eq hrun]
      simp only [runAct_seq_cons, runAct_seq_nil, load_setF, load_setLoad]
      rw [runAct, same_load (w_topoErr ..) (by decide)]
      rfl

end Sys2Proof.Proofs
end

section
/-! SUPPORT. Links and routes that go down (R101, R103). -/
namespace Sys2Proof.Proofs
open Sys2Proof.Machine Sys2Proof.Laws

theorem ok_ports {s : State} (h : s.ok = true) : tabWf portDefault s.ports = true := by
  simp_all [State.ok, State.tabsOk]

theorem ports_upd {s : State} (hs : s.ok = true) (k j : Nat) (p : Port) :
    get_ports (runAct (upd (.ports k p)) s) j = if j = k then p else get_ports s j := by
  rw [runAct_upd]
  exact tabGet_tabSet (ok_ports hs)

/-! ### Links (R103) -/

theorem runAct_endDown (n p cause : Nat) (s : State) :
    runAct (endDown n p cause) s = runAct (upd (.ports (n * 32 + p) {})) (runAct (setF (RPL_DOWN_PITCH n p) (pitch16 s))
      (runAct (setF (RPL_DOWN_CAUSE n p) cause) (runAct (setF (RPL_STAT_DOWN n p) 1) s))) := by
  have hrun : endDown n p cause s = seq [setF (RPL_STAT_DOWN n p) 1, setF (RPL_DOWN_CAUSE n p) cause,
      setF (RPL_DOWN_PITCH n p) (pitch16 s), upd (.ports (n * 32 + p) {})] s := rfl
  rw [runAct_eq hrun]
  simp only [runAct_seq_cons, runAct_seq_nil]

/-- What an end of a link that goes down shows: DOWN, with cause and pitch. -/
structure EndShown (n p cause : Nat) (s t : State) : Prop where
  down : fieldSet (RPL_STAT_DOWN n p) 1 s t
  cause : getF t (RPL_DOWN_CAUSE n p) = cause
  pitch : getF t (RPL_DOWN_PITCH n p) = pitch16 s
  regs : regsExcept [RPL_STAT n p, RPL_DOWN n p] s t
  port : get_ports t (n * 32 + p) = {}

theorem getF_upd_ports (k : Nat) (p : Port) (s : State) (f : Fld) : getF (runAct (upd (.ports k p)) s) f = getF s f := by
  rw [runAct_upd]
  rfl

theorem rd_upd_ports (k : Nat) (p : Port) (s : State) (a : Nat) : rd (runAct (upd (.ports k p)) s) a = rd s a := by
  rw [runAct_upd]
  rfl

theorem endDown_shows {s : State} (hs : s.ok = true) (n p : Nat) {cause : Nat} (hc : cause ≤ 4) :
    EndShown n p cause s (runAct (endDown n p cause) s) := by
  rw [runAct_endDown]
  have hs1 := ok_runAct (a := setF (RPL_STAT_DOWN n p) 1) hs
  have hs2 := ok_runAct (a := setF (RPL_DOWN_CAUSE n p) cause) hs1
  have hs3 := ok_runAct (a := setF (RPL_DOWN_PITCH n p) (pitch16 s)) hs2
  obtain ⟨hdown, odown⟩ := setsField_setF hs (f := RPL_STAT_DOWN n p) rfl 1
  have ocause := onlyRegs_setF hs1 (f := RPL_DOWN_CAUSE n p) rfl cause
  have opitch := onlyRegs_setF hs2 (f := RPL_DOWN_PITCH n p) rfl (pitch16 s)
  refine ⟨?_, ?_, ?_, ?_, ?_⟩
  · rw [fieldSet, rd_upd_ports]
    exact fieldSet_of_regsExcept (fieldSet_of_regsExcept hdown ocause.2 (by simp)) opitch.2 (by simp)
  · rw [getF_upd_ports, getF_setF_setF hs1 rfl rfl (.inl (by simp))]
    exact Nat.mod_eq_of_lt (show cause < 8 by omega)
  · rw [getF_upd_ports, getF_setF hs2 _ _ (by simp)]
    exact Nat.mod_eq_of_lt (Nat.mod_lt _ (by decide))
  · intro a ha
    rw [rd_upd_ports]
    exact regsExcept_trans (regsExcept_mono odown.2 (by simp)) (regsExcept_trans (regsExcept_mono ocause.2 (by simp))
      (regsExcept_mono opitch.2 (by simp))) a ha
  · rw [ports_upd hs3, if_pos rfl]

theorem EndShown.of_same {n p cause : Nat} {s t u : State} (h : EndShown n p cause s t) (hregs : u.regs = t.regs)
    (hports : u.ports = t.ports) : EndShown n p cause s u := by
  have hrd := rd_congr hregs
  exact ⟨(hrd _).trans h.down, by rw [← h.cause, getF, hrd, getF], by rw [← h.pitch, getF, hrd, getF],
    fun a ha => (hrd a).trans (h.regs a ha), by rw [get_ports, hports]; exact h.port⟩

/-- Tags of the node behind a link that went down no longer await a late response (R101). -/
def dropLate (n : Nat) : Act := fun s => [.lateTags (s.lateTags.filter (fun t => nodeOf t.1 != n))]

theorem w_dropLate (n : Nat) (s : State) : Within (2 ^ 16) (dropLate n s) := wCons (by simp only [fieldOf]; decide) wNil

/-- An anchor port of the I/O die that goes down has no other end, and takes no die and no peer with it. -/
theorem linkDown_anchorPort {s : State} {p : Nat} (hp : p = 16 ∨ p = 17) (hup : flag s (RPL_STAT_DOWN 8 p) = false) (cause : Nat) :
    runAct (linkDown 8 p cause) s =
      runAct (dropLate 8) (runAct (linkEvent 8 p cause) (runAct (endDown 8 p cause) s)) := by
  have hport : Machine.portOk 8 p = true := by rcases hp with rfl | rfl <;> decide
  have hend : otherEnd 8 p = none := by rcases hp with rfl | rfl <;> decide
  have hrun : linkDown 8 p cause s = seq [endDown 8 p cause, nop, linkEvent 8 p cause, dropLate 8,
      fun s => if (8 < 8 ∨ p < 16) ∧ spokesDown s (p / 2) then dieRemove (p / 2) s else [],
      fun s => if 8 = 8 ∧ 18 ≤ p ∧ flag s (RPL_STAT_DOWN 8 18) ∧ flag s (RPL_STAT_DOWN 8 19) then setF PCH_STATUS_PEER_LOST 1 s
        else []] s := by
    unfold linkDown
    rw [hport, hup, hend]
    rfl
  rw [runAct_eq hrun]
  simp only [runAct_seq_cons, runAct_seq_nil, runAct_nop]
  rw [runAct_if, if_neg (by omega), runAct_if, if_neg (by omega)]

theorem linkDown_again {s : State} {n p : Nat} (h : flag s (RPL_STAT_DOWN n p) = true) (cause : Nat) :
    linkDown n p cause s = nop s := by
  unfold linkDown
  rw [h, Bool.or_true, if_pos rfl]
  rfl

theorem exec_linkDown {cause : Nat} (h1 : 1 ≤ cause) (h4 : cause ≤ 4) (n p : Nat) (s : State) :
    exec (.linkDown n p cause) s = .next (runAct (linkDown n p cause) s) := by
  show done (if 1 ≤ cause ∧ cause ≤ 4 then linkDown n p cause else nop) s = _
  rw [if_pos ⟨h1, h4⟩, done_eq]

/-- What is beside registers and ports when an anchor port goes down: the event on its way, and the dropped tags. -/
theorem w_linkDown_anchorPort (p cause : Nat) (s : State) :
    Within (1 + 2 ^ 16 + 2 ^ 17 + 2 ^ 56) (seq [endDown 8 p cause, linkEvent 8 p cause, dropLate 8] s) :=
  wSeq ((w_endDown ..).mono (by decide)) fun _ => wSeq ((w_linkEvent ..).mono (by decide)) fun _ =>
    wSeq ((w_dropLate ..).mono (by decide)) fun _ => wSeqNil

/-! ### Routes (R103) -/

theorem exec_routeSwitch {s : State} {d t : Nat} (hd : d < 8) (ht : t < 8) (hne : d ≠ t)
    (hroute : routeUp s d t (routeOf s d t) = false) (hout : outstanding s d t = false) :
    exec (.routeSwitch d t) s = .next (if getF s (RTE_DEST_ACTIVE d t) = 0 ∧ routeUp s d t (getF s (RTE_DEST_ALTERNATE d t)) = true
      then runAct (seq [setF (RTE_DEST_ACTIVE d t) 1, fun s => wr (RTE_FAIL d) (putBit (rd s (RTE_FAIL d)) t true) s]) s
      else runAct (setF (RTE_DEST_ACTIVE d t) 2) s) := by
  have hgo : ¬(8 ≤ d ∨ 8 ≤ t ∨ d = t ∨ routeUp s d t (routeOf s d t) = true ∨ outstanding s d t = true) := by
    simp [hroute, hout, hne]
    omega
  show done _ s = _
  rw [done_eq, runAct]
  simp only [if_neg hgo]
  split <;> rfl

theorem runAct_fail (d t : Nat) (s : State) : runAct (fun s => wr (RTE_FAIL d) (putBit (rd s (RTE_FAIL d)) t true) s) s =
    runAct (wr (RTE_FAIL d) (putBit (rd s (RTE_FAIL d)) t true)) s := by
  rw [runAct, runAct]

/-- Settles O22: a link's own end shows that it is down; a route's ACTIVE moves on, and RTE_FAIL shows that it did. -/
theorem linksAndRoutes : Obligations.LinksAndRoutes := by
  unfold Obligations.LinksAndRoutes
  refine ⟨fun s p cause hs hp hup h1 h4 => ?_, fun s n p cause hp hdown => ?_, fun s d t hs hd ht hne hroute hout hact halt => ?_,
    fun s d t hs hd ht hne hroute hout hno => ?_⟩
  · refine ⟨_, exec_linkDown h1 h4 8 p s, ?_⟩
    rw [linkDown_anchorPort hp hup]
    have hframe := frame (w_linkDown_anchorPort p cause s) s
    rw [← runAct, runAct_seq_cons, runAct_seq_cons, runAct_seq_cons, runAct_seq_nil] at hframe
    have hevent := w_linkEvent 8 p cause (runAct (endDown 8 p cause) s)
    have hdrop := w_dropLate 8 (runAct (linkEvent 8 p cause) (runAct (endDown 8 p cause) s))
    have hshown := ((endDown_shows hs 8 p h4).of_same (same_regs hevent (by decide) (by decide) _)
      (same_ports hevent (by decide) _)).of_same (same_regs hdrop (by decide) (by decide) _) (same_ports hdrop (by decide) _)
    exact ⟨hshown.down, hshown.cause, hshown.pitch, hshown.regs, hshown.port, hframe⟩
  · show done (if 1 ≤ cause ∧ cause ≤ 4 then linkDown n p cause else nop) s = _
    rw [done_eq, runAct_ite, runAct_nop, runAct_eq (linkDown_again hdown cause), runAct_nop, ite_self]
  · refine ⟨_, exec_routeSwitch hd ht hne hroute hout, ?_⟩
    rw [if_pos ⟨hact, halt⟩, runAct_seq_cons, runAct_seq_cons, runAct_seq_nil]
    have hs1 := ok_runAct (a := setF (RTE_DEST_ACTIVE d t) 1) hs
    obtain ⟨hactive, oactive⟩ := setsField_setF hs (f := RTE_DEST_ACTIVE d t) rfl 1
    have hfail : RTE_FAIL d ≠ RTE_DEST d t := by simp only [RTE_FAIL, RTE_DEST]; omega
    rw [runAct_fail]
    have ofail := onlyRegs_wr hs1 (RTE_FAIL d) (putBit (rd (runAct (setF (RTE_DEST_ACTIVE d t) 1) s) (RTE_FAIL d)) t true)
    refine ⟨fieldSet_of_regsExcept hactive ofail.2 (by simpa using hfail.symm), ?_,
      onlyRegs_trans (onlyRegs_mono oactive (by simp)) (onlyRegs_mono ofail (by simp))⟩
    rw [rd_wr hs1, if_pos rfl, oactive.2 _ (by simpa using hfail), putBit,
      Nat.mod_eq_of_lt (putBits_lt (Nat.le_refl t) (by omega) (rd_lt s (RTE_FAIL d)))]
  · refine ⟨_, exec_routeSwitch hd ht hne hroute hout, ?_⟩
    rw [if_neg (by rintro ⟨h0, hup⟩; simp [h0, hup] at hno)]
    exact setsField_setF hs rfl 2

end Sys2Proof.Proofs
end

section
/-! SUPPORT. Arrival of cores and completion of a partition's barrier (R53, R55, R124). -/
namespace Sys2Proof.Proofs
open Sys2Proof.Machine Sys2Proof.Laws

theorem ok_cores {s : State} (h : s.ok = true) : tabWf coreDefault s.cores = true := by
  simp_all [State.ok, State.tabsOk]

theorem ok_parts {s : State} (h : s.ok = true) : tabWf partDefault s.parts = true := by
  simp_all [State.ok, State.tabsOk]

theorem cores_setCore {s : State} (hs : s.ok = true) (g h : Nat) (f : Core → Core) :
    get_cores (runAct (setCore g f) s) h = if h = g then f (get_cores s g) else get_cores s h :=
  tabGet_tabSet (ok_cores hs)

theorem setCore_only (g : Nat) (f : Core → Core) (s : State) :
    runAct (setCore g f) s = { s with cores := (runAct (setCore g f) s).cores } := rfl

theorem parts_setPart {s : State} (hs : s.ok = true) (p q : Nat) (f : PartAux → PartAux) :
    get_parts (runAct (setPart p f) s) q = if q = p then f (get_parts s p) else get_parts s q :=
  tabGet_tabSet (ok_parts hs)

/-- A core that cannot arrive does nothing (R124). -/
theorem exec_coreArrive_none {s : State} {g : Nat} (h : ((get_cores s g).hasJob && canArrive s g) = false) :
    exec (.coreArrive g) s = .next s := by
  show done _ s = _
  rw [done_eq, runAct_eq (b := nop) (if_pos (by simp only [h, Bool.not_false])), runAct_nop]

/-- On a lent cluster the borrower's arrival is kept beside the lender's (R124). -/
theorem exec_coreArrive_lent {s : State} {g : Nat} (h : ((get_cores s g).hasJob && canArrive s g) = true)
    (hlent : (get_cores s g).bor = 1 ∧ (get_cores s g).part ≠ coreOwner s g) :
    exec (.coreArrive g) s = .next (runAct (setCore g (fun c => { c with bor := 2 })) s) := by
  show done _ s = _
  rw [done_eq, runAct_eq ((if_neg (by simp only [h, Bool.not_true, Bool.false_eq_true, not_false_eq_true])).trans (if_pos hlent))]

/-- Any other arrival shows in CORE_STAT (R124). -/
theorem exec_coreArrive_own {s : State} {g : Nat} (h : ((get_cores s g).hasJob && canArrive s g) = true)
    (hown : ¬((get_cores s g).bor = 1 ∧ (get_cores s g).part ≠ coreOwner s g)) :
    exec (.coreArrive g) s = .next (runAct (setF (CORE_STAT_ARRIVED g) 1) s) := by
  show done _ s = _
  rw [done_eq, runAct_eq ((if_neg (by simp only [h, Bool.not_true, Bool.false_eq_true, not_false_eq_true])).trans (if_neg hown))]

/-- What the completion of a barrier does: DONE, the partition's mark, and the lag of its dies (R53, R479). -/
def complete (p : Nat) (times : List (Nat × Nat)) (done : Nat) : Act :=
  seq [setF PCH_DONE_DONE done, setPart p (fun a => { a with jobDone := true }), noteLag times]

theorem w_complete (p : Nat) (times : List (Nat × Nat)) (done : Nat) (s : State) :
    Within (1 + 2 ^ 35 + 2 ^ 95 + 2 ^ 97) (complete p times done s) :=
  wSeq ((w_setF ..).mono (by decide)) fun _ => wSeq (wCons (by simp only [fieldOf]; decide) wNil) fun _ =>
    wSeq ((w_noteLag ..).mono (by decide)) fun _ => wSeqNil

theorem runAct_complete (p : Nat) (times : List (Nat × Nat)) (done : Nat) (s : State) :
    runAct (complete p times done) s = runAct (noteLag times)
      (runAct (setPart p (fun a => { a with jobDone := true })) (runAct (setF PCH_DONE_DONE done) s)) := by
  rw [complete, runAct_seq_cons, runAct_seq_cons, runAct_seq_cons, runAct_seq_nil]

theorem exec_barrierComplete {s : State} {p : Nat} (hp : p < 16) {now : Nat} (hjob : jobRuns (s.at_ now) p = true)
    (hall : ∀ d ∈ diesOf (s.at_ now) p, dieArrived (s.at_ now) p d = true) (times : List (Nat × Nat)) :
    exec (.barrierComplete p times now) s = .next (runAct (complete p (times.filter (fun e => (diesOf (s.at_ now) p).contains e.1))
      (putBit (getF (s.at_ now) PCH_DONE_DONE) p true)) (s.at_ now)) := by
  show done (seq [advance now, _]) s = _
  rw [done_advance, runAct_seq_cons, runAct_seq_nil]
  exact congrArg _ (runAct_eq (if_pos ⟨hp, hjob, List.all_eq_true.2 hall⟩))

theorem runsLent_at (s : State) (now p g : Nat) : runsLent (s.at_ now) p g = runsLent s p g := by
  unfold runsLent
  rw [getF_at]
  rfl

theorem diesOf_at (s : State) (now p : Nat) : diesOf (s.at_ now) p = diesOf s p := by
  unfold diesOf
  simp only [getF_at, runsLent_at]

theorem dieArrived_at (s : State) (now p d : Nat) : dieArrived (s.at_ now) p d = dieArrived s p d := by
  unfold dieArrived coreOwner dieRemoved
  simp only [flag_at, getF_at, runsLent_at]
  rfl

/-- Settles O9: an arrival writes CORE_STAT or the core; a completed barrier writes DONE, which the lag of its dies leaves. -/
theorem barrierCompletes : Obligations.BarrierCompletes := by
  unfold Obligations.BarrierCompletes
  refine ⟨fun s g hs hjob hcan hnot => ?_, fun s g hs hjob hcan hbor hpart => ?_, fun s g hno => exec_coreArrive_none hno,
    fun s p now times hs hp hjob hall => ?_⟩
  · exact ⟨_, exec_coreArrive_own (by rw [hjob, hcan]; rfl) hnot, setsField_setF hs rfl 1⟩
  · refine ⟨_, exec_coreArrive_lent (by rw [hjob, hcan]; rfl) ⟨hbor, hpart⟩, ?_⟩
    exact ⟨by rw [cores_setCore hs, if_pos rfl], setCore_only .., fun h hne => by rw [cores_setCore hs, if_neg hne]⟩
  · have hs' : (s.at_ now).ok = true := by rwa [ok_at]
    refine ⟨_, exec_barrierComplete hp hjob (fun d hd => ?_) times, ?_, ?_, frame (w_complete ..) (s.at_ now)⟩
    · rw [dieArrived_at]
      exact hall d (by rwa [diesOf_at] at hd)
    · have hdone := (setsField_setF hs' (f := PCH_DONE_DONE) rfl (putBit (getF (s.at_ now) PCH_DONE_DONE) p true)).1
      rw [fieldSet, rd_at, getF_at] at hdone
      rw [fieldSet, runAct_complete, runAct, same_pitchRegs (w_noteLag ..) (by decide) (ok_runAct (ok_runAct hs')) (by decide)]
      rw [getF_at]
      exact hdone
    · rw [runAct_complete, get_parts, runAct, same_parts (w_noteLag ..) (by decide), ← get_parts,
        parts_setPart (ok_runAct hs'), if_pos rfl]

end Sys2Proof.Proofs
end

section
/-! SUPPORT. What happens within a pitch: step ticks, the tick on a compute die, peer loss and the guard (R41 to R47). -/
namespace Sys2Proof.Proofs
open Sys2Proof.Machine Sys2Proof.Laws

/-! ### The pitch registers across device time and other writes -/

@[simp] theorem rd64_at (s : State) (now a : Nat) : rd64 (s.at_ now) a = rd64 s a := by simp only [rd64, rd_at]
@[simp] theorem pitchNum_at (s : State) (now : Nat) : pitchNum (s.at_ now) = pitchNum s := by rw [pitchNum, rd64_at, pitchNum]
@[simp] theorem tickTime_at (s : State) (now : Nat) : tickTime (s.at_ now) = tickTime s := by rw [tickTime, rd64_at, tickTime]
@[simp] theorem period_at (s : State) (now : Nat) : period (s.at_ now) = period s := by rw [period, getF_at, period]
@[simp] theorem guardStart_at (s : State) (now : Nat) : guardStart (s.at_ now) = guardStart s := by
  unfold guardStart
  rw [tickTime_at, period_at]
@[simp] theorem dieRemoved_at (s : State) (now d : Nat) : dieRemoved (s.at_ now) d = dieRemoved s d := by
  simp only [dieRemoved, getF_at]
@[simp] theorem ticked_at (s : State) (now : Nat) : (s.at_ now).ticked = s.ticked := by unfold State.at_; rfl
theorem tickDue_at (s : State) (now n : Nat) : tickDue (s.at_ now) n = tickDue s n := by
  rw [tickDue, period_at]
  rfl

theorem rd64_of_regsExcept {as : List Nat} {s t : State} (h : regsExcept as s t) {a : Nat} (ha : a ∉ as ∧ a + 4 ∉ as) :
    rd64 t a = rd64 s a := by
  rw [rd64, h _ ha.1, h _ ha.2, rd64]

theorem pitchRegsKept_at (s : State) (now : Nat) : pitchRegsKept s (s.at_ now) := fun a _ => rd_at s now a

theorem pitchRegsKept_trans {s t u : State} (h : pitchRegsKept s t) (k : pitchRegsKept t u) : pitchRegsKept s u :=
  fun a ha => (k a ha).trans (h a ha)

theorem pitchRegsKept_of_within {T : Nat} {us : List Upd} (w : Within T us) (hT : T.testBit 97 = false) {s : State}
    (hs : s.ok = true) : pitchRegsKept s (applyAll us s) := fun _ ha => same_pitchRegs w hT hs ha

/-! ### Step ticks (R41, R42) -/

/-- The transfers that a step tick starts at the sampling SPI controllers (R348). -/
def startTransfers (k n : Nat) : Act :=
  forEach (List.range 4) (fun c => fun s =>
    if flag s (SPI_STEP_EN c) then
      seq [upd (.spiStepBusy c (1 + k % 64 + 64 * n)),
        emit (.spi c (((get_spiStepCfg s c).drop 2).take ((get_spiStepCfg s c).getD 0 0) |>.map (BitVec.ofNat 8)))] s
    else [])

/-- The pose that falls due at step tick `k` of pitch `n`. -/
def poseDue (due k n : Nat) (f : Fus) : Fus := { f with posesDue := f.posesDue ++ [(due + k * 1000000, n, k)] }

theorem stepSample_eq (k : Nat) (s : State) :
    stepSample k s = seq [startTransfers k (pitchNum s), setFus (poseDue (tickDue s (pitchNum s)) k (pitchNum s))] s := rfl

theorem w_startTransfers (k n : Nat) (s : State) : Within (2 ^ 54 + 2 ^ 67) (startTransfers k n s) :=
  wEach fun _ _ => wIf (wSeq (wUpd (by simp only [fieldOf]; decide)) fun _ =>
    wSeq ((w_emit ..).mono (by decide)) fun _ => wSeqNil) wNil

theorem fus_stepSample (k : Nat) (s : State) :
    (runAct (stepSample k) s).fus = poseDue (tickDue s (pitchNum s)) k (pitchNum s) s.fus := by
  rw [runAct_eq (stepSample_eq k s), runAct_seq_cons, runAct_seq_cons, runAct_seq_nil]
  have hfus : (runAct (startTransfers k (pitchNum s)) s).fus = s.fus := same_fus (w_startTransfers ..) (by decide) s
  rw [← hfus]
  rfl

theorem exec_stepTick {s : State} {k now : Nat} (h : flag s PCH_CFG_RUN = true ∧ s.ticked = true ∧
    getF s PCH_STEP_STEP_IDX < k ∧ k < getF s PCH_STEP_STEP_CNT ∧ tickTime s + k * 1000000 ≤ now) :
    exec (.stepTick k now) s = .next (runAct (seq [setF PCH_STEP_STEP_IDX k, stepSample k]) (s.at_ now)) := by
  show done (seq [advance now, _]) s = _
  rw [done_advance, runAct_seq_cons, runAct_seq_nil]
  exact congrArg _ (runAct_eq (if_pos (by simpa only [flag_at, getF_at, tickTime_at, ticked_at] using h)))

/-- A step tick sets STEP_IDX and samples; the pose due is that of the present pitch. -/
theorem stepTick_done {s : State} (hs : s.ok = true) (k : Nat) :
    let t := runAct (seq [setF PCH_STEP_STEP_IDX k, stepSample k]) s
    fieldSet PCH_STEP_STEP_IDX k s t ∧ regsExcept [PCH_STEP] s t ∧
      t.fus.posesDue = s.fus.posesDue ++ [(tickDue s (pitchNum s) + k * 1000000, pitchNum s, k)] := by
  intro t
  have ht : t = runAct (stepSample k) (runAct (setF PCH_STEP_STEP_IDX k) s) := by
    show runAct (seq _) s = _
    rw [runAct_seq_cons, runAct_seq_cons, runAct_seq_nil]
  obtain ⟨hidx, oidx⟩ := setsField_setF hs (f := PCH_STEP_STEP_IDX) rfl k
  have hregs : ∀ a, rd t a = rd (runAct (setF PCH_STEP_STEP_IDX k) s) a := by
    rw [ht]
    exact rd_congr (same_regs (w_stepSample k _) (by decide) (by decide) _)
  have hnum : pitchNum (runAct (setF PCH_STEP_STEP_IDX k) s) = pitchNum s := rd64_of_regsExcept oidx.2 (by decide)
  have hper : period (runAct (setF PCH_STEP_STEP_IDX k) s) = period s := getF_of_regsExcept oidx.2 (by decide)
  have hdue : tickDue (runAct (setF PCH_STEP_STEP_IDX k) s) (pitchNum s) = tickDue s (pitchNum s) := by
    rw [tickDue, hper, tickDue, oidx.1]
  have hfus : (runAct (setF PCH_STEP_STEP_IDX k) s).fus = s.fus := by rw [oidx.1]
  refine ⟨(hregs _).trans hidx, fun a ha => (hregs a).trans (oidx.2 a ha), ?_⟩
  rw [ht, fus_stepSample, hnum, hdue, hfus, poseDue]

/-- The fields that a step tick changes beside device time. -/
theorem w_stepTick (k : Nat) (s : State) :
    Within (1 + 2 ^ 54 + 2 ^ 67 + 2 ^ 74 + 2 ^ 97) (seq [setF PCH_STEP_STEP_IDX k, stepSample k] s) :=
  wSeq ((w_setF ..).mono (by decide)) fun _ => wSeq ((w_stepSample ..).mono (by decide)) fun _ => wSeqNil

/-! ### The tick on a compute die (R43) -/

theorem ok_diePitch {s : State} (h : s.ok = true) : tabWf zeroNat s.diePitch = true := by
  simp_all [State.ok, State.tabsOk]

theorem diePitch_upd {s : State} (hs : s.ok = true) (d n : Nat) : get_diePitch (runAct (upd (.diePitch d n)) s) d = n := by
  rw [runAct_upd]
  exact (tabGet_tabSet (ok_diePitch hs)).trans (if_pos rfl)

/-- Phase 0 begins for the banks of every partition on the die (R182). -/
def phasesBegin (d : Nat) : Act := forEach (List.range 16) (fun p => phaseBegin d p)

theorem w_phasesBegin (d : Nat) (s : State) : Within 100663299 (phasesBegin d s) := wEach fun _ _ => w_phaseBegin ..

theorem w_applyTick (d n : Nat) (s : State) : Within (100663299 + 2 ^ 12) (seq [upd (.diePitch d n), phasesBegin d] s) :=
  wSeq (wUpd (by simp only [fieldOf]; decide)) fun _ => wSeq ((w_phasesBegin ..).mono (by decide)) fun _ => wSeqNil

theorem exec_computeTickApply {s : State} {d now : Nat} (hd : d < 8) (htick : s.ticked = true) (hrem : dieRemoved s d = false)
    (hnow : tickTime s ≤ now) : exec (.computeTickApply d now) s =
      .next (runAct (seq [upd (.diePitch d (pitchNum s)), phasesBegin d]) (s.at_ now)) := by
  show done (seq [advance now, _]) s = _
  rw [done_advance, runAct_seq_cons, runAct_seq_nil, ← pitchNum_at s now]
  exact congrArg _ (runAct_eq (if_pos (by simp only [dieRemoved_at, tickTime_at, ticked_at, hd, htick, hrem, hnow]; decide)))

/-! ### The guard (R47) -/

/-- The firmware's policies, as the guard runs them. -/
def guardPolicies : Act := seq [budgetGuard, capPolicy, rebalance, dramPolicy, floorFree]

/-- The policies write no register of the pitch and leave the guard's own record. -/
theorem w_guardPolicies (s : State) : Within (77371252465482697367382059 - 2 ^ 3 - 2 ^ 11) (guardPolicies s) :=
  wSeq ((w_budgetGuard ..).mono (by decide)) fun _ => wSeq ((w_capPolicy ..).mono (by decide)) fun _ =>
    wSeq ((w_rebalance ..).mono (by decide)) fun _ => wSeq ((w_dramPolicy ..).mono (by decide)) fun _ =>
      wSeq ((w_floorFree ..).mono (by decide)) fun _ => wSeqNil

theorem w_guard (n : Nat) (s : State) :
    Within 77371252465482697367382059 (andThen (upd (.guardPitch (some n))) guardPolicies s) :=
  wAnd (wUpd (by simp only [fieldOf]; decide)) fun _ => (w_guardPolicies _).mono (by decide)

theorem guardPitch_guard (n : Nat) (s : State) :
    (runAct (andThen (upd (.guardPitch (some n))) guardPolicies) s).guardPitch = some n := by
  rw [runAct_andThen, runAct, same_guardPitch (w_guardPolicies _) (by decide), runAct_upd, guardPitch_upd_guardPitch]

theorem exec_guardStart {s : State} {now : Nat} (hrun : flag s PCH_CFG_RUN = true) (htick : s.ticked = true)
    (hlo : guardStart s ≤ now) (hhi : now < tickTime s + period s) (hnew : s.guardPitch ≠ some (pitchNum s)) :
    exec (.guardStart now) s = .next (runAct (andThen (upd (.guardPitch (some (pitchNum s)))) guardPolicies) (s.at_ now)) := by
  have hnew' : (s.at_ now).guardPitch ≠ some (pitchNum s) := hnew
  show done (seq [advance now, _]) s = _
  rw [done_advance, runAct_seq_cons, runAct_seq_nil, ← pitchNum_at s now]
  exact congrArg _ (runAct_eq (if_pos (by
    rw [flag_at, ticked_at, guardStart_at, tickTime_at, period_at, pitchNum_at]
    exact ⟨hrun, htick, hlo, hhi, hnew'⟩)))

theorem exec_peerLost {s : State} {now : Nat} (hrole : getF s PCH_CFG_ROLE = 2) (hrun : flag s PCH_CFG_RUN = true)
    (hlost : max s.peerTickAt (rd64 s PCH_EPOCH) + period s + 50000 ≤ now) :
    exec (.peerLost now) s = .next (runAct (setF PCH_STATUS_PEER_LOST 1) (s.at_ now)) := by
  have hlost' : max (s.at_ now).peerTickAt (rd64 (s.at_ now) PCH_EPOCH) + period (s.at_ now) + 50000 ≤ now := by
    rw [rd64_at, period_at]
    exact hlost
  show done (seq [advance now, _]) s = _
  rw [done_advance, runAct_seq_cons, runAct_seq_nil]
  exact congrArg _ (runAct_eq (if_pos ⟨by rw [getF_at, hrole], by rw [flag_at, hrun], hlost'⟩))

/-- Settles O7: the writes of each event, and the frames of what it starts at the units, the banks and the policies. -/
theorem eventsWithinPitch : Obligations.EventsWithinPitch := by
  unfold Obligations.EventsWithinPitch
  refine ⟨fun s k now hs hrun htick hidx hcnt hnow => ?_, fun s d now hs hd htick hrem hnow => ?_, fun s now hs hrole hrun hlost => ?_,
    fun s now hs hrun htick hlo hhi hnew => ?_⟩
  · have hs' : (s.at_ now).ok = true := by rwa [ok_at]
    obtain ⟨hstep, hregs, hpose⟩ := stepTick_done hs' k
    refine ⟨_, exec_stepTick ⟨hrun, htick, hidx, hcnt, hnow⟩, ?_, ?_, ?_, frame (w_stepTick ..) (s.at_ now)⟩
    · rwa [fieldSet, rd_at] at hstep
    · exact fun a ha => (hregs a ha).trans (rd_at s now a)
    · rwa [pitchNum_at, tickDue_at] at hpose
  · have hs' : (s.at_ now).ok = true := by rwa [ok_at]
    refine ⟨_, exec_computeTickApply hd htick hrem hnow, ?_, ?_, frame (w_applyTick ..) (s.at_ now)⟩
    · rw [runAct_seq_cons, runAct_seq_cons, runAct_seq_nil, get_diePitch, runAct, same_diePitch (w_phasesBegin ..) (by decide),
        ← get_diePitch, diePitch_upd hs']
    · exact pitchRegsKept_trans (pitchRegsKept_at s now) (pitchRegsKept_of_within (w_applyTick ..) (by decide) hs')
  · exact ⟨_, exec_peerLost hrole hrun hlost, setsField_setF (by rwa [ok_at]) rfl 1⟩
  · have hs' : (s.at_ now).ok = true := by rwa [ok_at]
    exact ⟨_, exec_guardStart hrun htick hlo hhi hnew, guardPitch_guard ..,
      pitchRegsKept_trans (pitchRegsKept_at s now) (pitchRegsKept_of_within (w_guard ..) (by decide) hs'),
      frame (w_guard ..) (s.at_ now)⟩

end Sys2Proof.Proofs
end

section
/-! SUPPORT. The tick (R37, R39, R40, R45): the registers of the new pitch, which nothing that a tick does afterwards writes. -/
namespace Sys2Proof.Proofs
open Sys2Proof.Machine Sys2Proof.Laws

/-! ### The registers of the new pitch (R37, R39, R41) -/

section SetOther
variable {s : State} (hs : s.ok = true)
include hs

theorem rd64_setF_ne (f : Fld) (v a : Nat) (hf : f.lo ≤ f.hi ∧ f.hi < 32) (h : a ≠ f.addr) (h4 : a + 4 ≠ f.addr) :
    rd64 (runAct (setF f v) s) a = rd64 s a := by
  rw [rd64, rd_setF hs f v _ hf, rd_setF hs f v _ hf, if_neg h, if_neg h4, rd64]

theorem getF_wr64_ne (k v : Nat) (f : Fld) (h : f.addr ≠ k) (h4 : f.addr ≠ k + 4) :
    getF (runAct (wr64 k v) s) f = getF s f := by
  rw [getF, rd_wr64 hs, if_neg h4, if_neg h, getF]

theorem rd64_wr64_ne (k v a : Nat) (h : a + 4 < k ∨ k + 4 < a) : rd64 (runAct (wr64 k v) s) a = rd64 s a := by
  rw [rd64, rd_wr64 hs, rd_wr64 hs, if_neg (by omega), if_neg (by omega), if_neg (by omega), if_neg (by omega), rd64]

end SetOther

theorem getF_upd_ticked (b : Bool) (s : State) (f : Fld) : getF (applyUpd (.ticked b) s) f = getF s f := by
  unfold getF
  rw [rd_notReg rfl]

theorem rd64_upd_ticked (b : Bool) (s : State) (a : Nat) : rd64 (applyUpd (.ticked b) s) a = rd64 s a := by
  unfold rd64
  rw [rd_notReg rfl, rd_notReg rfl]

/-- The writes that begin pitch `m` with its tick at time `tm` and `cnt` step ticks. -/
def beginPitch (m tm cnt : Nat) : Act := seq [
  setF PCH_DONE_DONE 0, wr64 PCH_NUM m, wr64 PCH_TICK tm, setF PCH_STEP_STEP_IDX 0, setF PCH_STEP_STEP_CNT cnt,
  setF PCH_STATUS_RUNNING 1, upd (.ticked true), icuPend 0]

theorem newPitch_eq (m : Nat) (s : State) :
    newPitch m s = beginPitch m ((s.n0 + m) * period s) ((period s + 999999) / 1000000) s := by
  unfold newPitch beginPitch
  rfl

/-- What the registers show of the pitch that has begun. -/
structure Begun (m tm : Nat) (s t : State) : Prop where
  num : pitchNum t = m
  time : tickTime t = tm % 2 ^ 64
  period : period t = period s
  running : getF t PCH_STATUS_RUNNING = 1
  done : getF t PCH_DONE_DONE = 0
  step : getF t PCH_STEP_STEP_IDX = 0
  ticked : t.ticked = true

theorem beginPitch_begun {s : State} (hs : s.ok = true) {m : Nat} (hm : m < 2 ^ 64) (tm cnt : Nat) :
    Begun m tm s (runAct (beginPitch m tm cnt) s) := by
  have hs1 := ok_runAct (a := setF PCH_DONE_DONE 0) hs
  have hs2 := ok_runAct (a := wr64 PCH_NUM m) hs1
  have hs3 := ok_runAct (a := wr64 PCH_TICK tm) hs2
  have hs4 := ok_runAct (a := setF PCH_STEP_STEP_IDX 0) hs3
  have hs5 := ok_runAct (a := setF PCH_STEP_STEP_CNT cnt) hs4
  have hs6 := ok_runAct (a := setF PCH_STATUS_RUNNING 1) hs5
  have hs7 := ok_applyUpd (u := .ticked true) hs6
  unfold beginPitch
  simp only [runAct_seq_cons, runAct_seq_nil, runAct_upd]
  constructor
  case num =>
    rw [pitchNum]
    simp (disch := decide) only [icuPend, rd64_setF_ne hs7, rd64_upd_ticked, rd64_setF_ne hs5, rd64_setF_ne hs4, rd64_setF_ne hs3,
      rd64_wr64_ne hs2, rd64_wr64 hs1]
    exact Nat.mod_eq_of_lt hm
  case time =>
    rw [tickTime]
    simp (disch := decide) only [icuPend, rd64_setF_ne hs7, rd64_upd_ticked, rd64_setF_ne hs5, rd64_setF_ne hs4, rd64_setF_ne hs3,
      rd64_wr64 hs2]
  case period =>
    rw [period, period]
    simp (disch := decide) only [icuPend, getF_setF_ne hs7, getF_upd_ticked, getF_setF_ne hs5, getF_setF_ne hs4, getF_setF_ne hs3,
      getF_wr64_ne hs2, getF_wr64_ne hs1, getF_setF_ne hs]
  case running =>
    simp (disch := decide) only [icuPend, getF_setF_ne hs7, getF_upd_ticked, getF_setF hs5]
    rfl
  case done =>
    simp (disch := decide) only [icuPend, getF_setF_ne hs7, getF_upd_ticked, getF_setF_ne hs5, getF_setF_ne hs4, getF_setF_ne hs3,
      getF_wr64_ne hs2, getF_wr64_ne hs1, getF_setF hs, Nat.zero_mod]
  case step =>
    simp (disch := decide) only [icuPend, getF_setF_ne hs7, getF_upd_ticked, getF_setF_ne hs5, getF_setF_ne hs4, getF_setF hs3, Nat.zero_mod]
  case ticked =>
    exact same_ticked (w_icuPend ..) (by decide) _

theorem Begun.of_kept {m tm : Nat} {s t u : State} (h : Begun m tm s t) (hk : pitchRegsKept t u) (ht : u.ticked = t.ticked) :
    Begun m tm s u := by
  have hF : ∀ f : Fld, f.addr < 0x200000200000 → getF u f = getF t f := fun f hf => by rw [getF, hk _ hf, getF]
  have h64 : ∀ a, a + 4 < 0x200000200000 → rd64 u a = rd64 t a := fun a ha => by rw [rd64, hk _ (by omega), hk _ ha, rd64]
  exact ⟨(h64 PCH_NUM (by decide)).trans h.num, (h64 PCH_TICK (by decide)).trans h.time,
    (hF PCH_PERIOD_PERIOD_NS (by decide)).trans h.period, (hF _ (by decide)).trans h.running, (hF _ (by decide)).trans h.done,
    (hF _ (by decide)).trans h.step, ht.trans h.ticked⟩

/-! ### The tick (R37) -/

/-- What a tick does once its pitch has begun. -/
def afterBegin (m : Nat) : Act := seq [releaseTick, sendReleased, unitsTick m]

/-- What it writes: neither a pitch register nor whether there has been a tick, nor the number of the first pitch. -/
theorem w_afterBegin (m : Nat) (s : State) : Within (2 ^ 97 - 1 - 2 ^ 8 - 2 ^ 9) (afterBegin m s) :=
  wSeq ((w_releaseTick _).mono (by decide)) fun _ => wSeq ((w_sendReleased _).mono (by decide)) fun _ =>
    wSeq ((w_unitsTick ..).mono (by decide)) fun _ => wSeqNil

/-- What a tick does between the faults on their way and its pitch. -/
def beforeBegin (m : Nat) (bad : List Nat) (s : State) : Act :=
  seq [endPitch m, partsTick m (restartsDue s) (allDue s) bad]

theorem w_beforeBegin (m : Nat) (bad : List Nat) (u s : State) : Within (2 ^ 98 - 1 - 2 ^ 8) (beforeBegin m bad u s) :=
  wSeq ((w_endPitch ..).mono (by decide)) fun _ => wSeq ((w_partsTick ..).mono (by decide)) fun _ => wSeqNil

theorem runAct_reading (f : State → Act) (s : State) : runAct (fun s => f s s) s = runAct (f s) s := by
  unfold runAct
  rfl

/-- A tick is what it does before its pitch begins, the begin of the pitch, and what it does afterwards. -/
theorem runAct_tick (m : Nat) (bad : List Nat) (s : State) : runAct (tick m bad) s =
    runAct (afterBegin m) (runAct (newPitch m) (runAct (beforeBegin m bad (runAct faultAll s)) (runAct faultAll s))) := by
  unfold tick
  rw [runAct_seq_cons, runAct_seq_cons, runAct_seq_nil]
  generalize runAct faultAll s = u
  rw [runAct_reading (fun v => seq [endPitch m, partsTick m (restartsDue v) (allDue v) bad, newPitch m, releaseTick, sendReleased,
    unitsTick m])]
  unfold beforeBegin afterBegin
  simp only [runAct_seq_cons, runAct_seq_nil]

theorem tick_parts (m : Nat) (bad : List Nat) {s : State} (hs : s.ok = true) : ∃ u, u.ok = true ∧ u.n0 = s.n0 ∧
    runAct (tick m bad) s = runAct (afterBegin m) (runAct (newPitch m) u) :=
  ⟨_, ok_runAct (ok_runAct hs),
    (same_n0 (w_beforeBegin ..) (by decide) _).trans (same_n0 (w_faultAll _) (by decide) _), runAct_tick m bad s⟩

theorem tick_raised {m : Nat} (hm : m < 2 ^ 64) (bad : List Nat) {s : State} (hs : s.ok = true) :
    tickRaised m s (runAct (tick m bad) s) := by
  obtain ⟨u, hu, hn0, htick⟩ := tick_parts m bad hs
  have hw := w_afterBegin m (runAct (newPitch m) u)
  have hbegun : Begun m ((u.n0 + m) * period u) u (runAct (newPitch m) u) := by
    rw [runAct_eq (newPitch_eq m u)]
    exact beginPitch_begun hu hm _ _
  have h := hbegun.of_kept (pitchRegsKept_of_within hw (by decide) (ok_runAct hu)) (same_ticked hw (by decide) _)
  have hn : (runAct (tick m bad) s).n0 = s.n0 := same_n0 (w_tick m bad s) (by decide) s
  rw [show applyAll (afterBegin m _) _ = runAct (tick m bad) s from htick.symm] at h
  refine ⟨h.num, ?_, hn, h.ticked, ?_, h.done, h.step⟩
  · rw [h.time, h.period, hn0]
  · rw [flag, h.running]
    rfl

theorem tickKept_tick (m : Nat) (bad : List Nat) (s : State) : tickKept s (runAct (tick m bad) s) := by
  have w := w_tick m bad s
  exact ⟨same_sram w (by decide) s, same_trajArea w (by decide) s, same_flash w (by decide) s, same_slots w (by decide) s,
    same_stores w (by decide) s, same_rails w (by decide) s, same_thm w (by decide) s, same_boot w (by decide) s,
    same_subchs w (by decide) s, same_trackers w (by decide) s, same_ethTx w (by decide) s, same_canTx w (by decide) s,
    same_pcieOut w (by decide) s, same_tlayers w (by decide) s, same_n0 w (by decide) s, same_nextTag w (by decide) s⟩

/-! ### Raising the tick that is due (R40) -/

/-- The tick `m` is due at `now`, has not been raised, and `now` is no more than 1 µs after its due time. -/
structure DueAt (now m : Nat) (s : State) : Prop where
  run : flag s PCH_CFG_RUN = true
  period : 0 < period s
  number : now / Machine.period s = s.n0 + m
  new : s.ticked = true → pitchNum s < m
  inTime : now % Machine.period s ≤ 1000
  bound : now < 2 ^ 64

variable {now m : Nat} {s : State}

theorem DueAt.lt (h : DueAt now m s) : m < 2 ^ 64 := by
  have := Nat.div_le_self now (Machine.period s)
  have := h.number
  have := h.bound
  omega

theorem DueAt.tickAt (h : DueAt now m s) : tickAt s now = some m := by
  rw [Machine.tickAt, if_pos ⟨h.run, h.period, by rw [h.number]; omega⟩, h.number]
  simp

theorem DueAt.raiseTick (h : DueAt now m s) (bad : List Nat) : raiseTick now bad s = tick m bad s := by
  have hnew : ¬ (s.ticked = true ∧ m ≤ pitchNum s) := fun hc => by
    have := h.new hc.1
    omega
  unfold Machine.raiseTick
  rw [h.tickAt]
  exact (if_neg hnew).trans (if_neg (Nat.not_lt.2 h.inTime))

theorem DueAt.at_ (h : DueAt now m s) : DueAt now m (s.at_ now) where
  run := by rw [flag_at, h.run]
  period := by rw [period_at]; exact h.period
  number := by rw [period_at, h.number]; rfl
  new := by rw [ticked_at, pitchNum_at]; exact h.new
  inTime := by rw [period_at]; exact h.inTime
  bound := h.bound

theorem DueAt.peerTickAt (h : DueAt now m s) (v : Nat) : DueAt now m (applyUpd (.peerTickAt v) s) where
  run := by rw [flag, getF, rd_notReg rfl]; exact h.run
  period := by rw [Machine.period, getF, rd_notReg rfl]; exact h.period
  number := by rw [Machine.period, getF, rd_notReg rfl]; exact h.number
  new := by rw [pitchNum, rd64, rd_notReg rfl, rd_notReg rfl]; exact h.new
  inTime := by rw [Machine.period, getF, rd_notReg rfl]; exact h.inTime
  bound := h.bound

theorem runAct_raiseTick (h : DueAt now m s) (bad : List Nat) : runAct (raiseTick now bad) s = runAct (tick m bad) s :=
  runAct_eq (h.raiseTick bad)

theorem exec_pitchTick (h : DueAt now m s) (hown : ownTicks s = true) (bad : List Nat) :
    exec (.pitchTick now bad) s = .next (runAct (tick m bad) (s.at_ now)) := by
  have hown' : ownTicks (s.at_ now) = true := by
    rw [ownTicks, getF_at, flag_at]
    exact hown
  show done (seq [advance now, fun s => if ownTicks s then raiseTick now bad s else []]) s = _
  rw [done_advance, runAct_seq_cons, runAct_seq_nil, runAct_eq (if_pos hown'), ← runAct_raiseTick h.at_]

theorem exec_peerTick {p : Nat} (h : DueAt now m s) (hrole : getF s PCH_CFG_ROLE = 2) (hport : peerPort s p = true)
    (bad : List Nat) :
    exec (.peerTick p now bad) s = .next (runAct (tick m bad) (applyUpd (.peerTickAt now) (s.at_ now))) := by
  have hport' : peerPort (s.at_ now) p = true := by
    rw [peerPort, flag_at, flag_at]
    exact hport
  show done (seq [advance now, fun s => if getF s PCH_CFG_ROLE = 2 ∧ flag s PCH_CFG_RUN ∧ peerPort s p then
    seq [upd (.peerTickAt now), raiseTick now bad] s else []]) s = _
  rw [done_advance, runAct_seq_cons, runAct_seq_nil, runAct_eq (if_pos ⟨by rw [getF_at, hrole], h.at_.run, hport'⟩),
    ← runAct_raiseTick (h.at_.peerTickAt now), runAct_seq_cons, runAct_seq_cons, runAct_seq_nil, runAct_upd]

/-- Settles O6: a part that raises its own ticks, and a follower on a tick of its peer port, raise the tick that is due; its
pitch begins, and nothing that the tick does afterwards writes a register of the pitch. -/
theorem tickBeginsPitch : Obligations.TickBeginsPitch := by
  unfold Obligations.TickBeginsPitch
  constructor
  · intro s now m bad hs hown hrun hper hnum hnew hin hnow
    have hdue : DueAt now m s := ⟨hrun, hper, hnum, hnew, hin, hnow⟩
    exact ⟨_, exec_pitchTick hdue hown bad, tick_raised hdue.lt bad (by rwa [ok_at]), tickKept_tick m bad (s.at_ now)⟩
  · intro s p now m bad hs hrole hport hrun hper hnum hnew hin hnow
    have hdue : DueAt now m s := ⟨hrun, hper, hnum, hnew, hin, hnow⟩
    exact ⟨_, exec_peerTick hdue hrole hport bad, tick_raised hdue.lt bad (ok_applyUpd (by rwa [ok_at])),
      tickKept_tick m bad (applyUpd (.peerTickAt now) (s.at_ now)),
      same_peerTickAt (w_tick m bad _) (by decide) (applyUpd (.peerTickAt now) (s.at_ now))⟩

end Sys2Proof.Proofs
end

section
/-! SUPPORT. Reads, writes and atomics that a scratchpad memory performs at once, and requests that it holds (R94, R112, R114, R128,
R166, R177, R286). -/
namespace Sys2Proof.Proofs
open Sys2Proof.Machine Sys2Proof.Laws

/-! ### Requests at their memory -/

/-- A request of any kind is performed after device time has moved to its instant. -/
theorem exec_requestCmd (op : ReqOp) (r : Req) (now : Nat) (s : State) :
    exec (requestCmd op r now) s = .next (runAct (request op r now) (s.at_ now)) := by
  have hexec : exec (requestCmd op r now) s = done (seq [advance now, request op r now]) s := by cases op <;> rfl
  rw [hexec, done_advance, runAct_seq_cons, runAct_seq_nil]

theorem exec_served {s : State} {op : ReqOp} {r : Req} (h : servedAt s op r) (now : Nat) :
    exec (requestCmd op r now) s = .next (runAct (performMem op r) (s.at_ now)) := by
  rw [exec_requestCmd, runAct_request h]

/-! ### Answers that leave memory as it was -/

/-- What a request may change that writes no memory: registers, write-backs and the record of refusals. -/
def readMask : Nat := 2 ^ 0 + 2 ^ 28 + 2 ^ 30 + 2 ^ 31

theorem w_unitRead_scratchpad {s : State} {a : Nat} (h : scratchpad s a = true) (m : Master) (n : Nat) :
    Within readMask (unitRead m a n s) := by
  rw [unitRead_scratchpad h]
  exact wIf wNil (wIf ((w_recordRefusal ..).mono (by decide)) (wIf ((w_refuseDark ..).mono (by decide))
    ((w_scRead ..).mono (by decide))))

theorem answered_of_within {s : State} (hs : s.ok = true) {a : Act} {now : Nat} (w : Within readMask (a (s.at_ now)))
    (r : Req) (op : ReqOp) (st : Nat) (data : List Byte) :
    let t := runAct (seq [a, respond r op st data]) (s.at_ now)
    t.mem = s.mem ∧ servedFrame s t now ∧ t.resps = s.resps ++ [⟨r.src, r.tag, op, st, data, r.addr⟩] := by
  have hs' : (s.at_ now).ok = true := by rwa [ok_at]
  intro t
  have ht : t = runAct (respond r op st data) (runAct a (s.at_ now)) := by
    simp only [t, runAct_seq_cons, runAct_seq_nil]
  rw [ht]
  refine ⟨same_mem w (by decide) _, ?_, ?_⟩
  · exact servedFrame_trans (servedFrame_trans (servedFrame_at s now) (servedFrame_of_within (w.mono (by decide)) hs'))
      (servedFrame_respond ..)
  · rw [runAct_respond]
    exact congrArg (· ++ _) (same_resps w (by decide) (s.at_ now))

/-! ### Reads (R286) -/

/-- The data of a read's answer: the bytes, or zeros with a failing status. -/
def readData (s : State) (a n : Nat) : List Byte := if readStatus s a n = 0 then bytesAt s a n else List.replicate n 0

theorem read_answered {s : State} (hs : s.ok = true) {r : Req} (hsp : scratchpad s r.addr = true) (op : ReqOp) (now : Nat) :
    let t := runAct (performRead op r) (s.at_ now)
    t.mem = s.mem ∧ servedFrame s t now ∧
      t.resps = s.resps ++ [⟨r.src, r.tag, op, readStatus s r.addr r.len, readData s r.addr r.len, r.addr⟩] := by
  have hrun : performRead op r (s.at_ now) =
      seq [unitRead r.src r.addr r.len, respond r op (readStatus s r.addr r.len) (readData s r.addr r.len)] (s.at_ now) := by
    unfold readData
    rw [← bytesAt_at s now]
    rfl
  rw [runAct_eq hrun]
  exact answered_of_within hs (w_unitRead_scratchpad (s := s.at_ now) hsp r.src r.len) r op _ _

/-! ### Writes (R94, R286) -/

/-- A write of no bytes is performed too, and leaves none. -/
theorem stored_nil (s : State) (a : Nat) : Stored s s a [] where
  bytes := rfl
  others := fun _ _ => rfl
  frame := by
    refine ⟨?_, fun _ _ => rfl⟩
    rw [Nat.max_eq_left (Nat.zero_le s.time)]
  resps := rfl
  map := .refl s

theorem write_stored {s : State} (hs : s.ok = true) {a : Nat} (m : Master) {bs : List Byte} (hsp : scratchpad s a = true)
    (hst : writeStatus s a bs.length = 0) : Stored s (runAct (unitWrite m a bs) s) (phys s a) bs := by
  cases bs with
  | nil => exact stored_nil s _
  | cons b bs => exact unitWrite_stored hs m hsp rfl (Nat.succ_pos _) hst

/-- A write that is performed, and its answer, which may carry data. -/
theorem answered_of_write {s : State} (hs : s.ok = true) {r : Req} {bs : List Byte} (hsp : scratchpad s r.addr = true)
    (hst : writeStatus s r.addr bs.length = 0) (op : ReqOp) (data : List Byte) (now : Nat) :
    let t := runAct (seq [unitWrite r.src r.addr bs, respond r op 0 data]) (s.at_ now)
    bytesAt t r.addr bs.length = bs ∧ memExcept (phys s r.addr) bs.length s t ∧ servedFrame s t now ∧
      t.resps = s.resps ++ [⟨r.src, r.tag, op, 0, data, r.addr⟩] := by
  have k : Stored (s.at_ now) (runAct (unitWrite r.src r.addr bs) (s.at_ now)) (phys s r.addr) bs :=
    write_stored (s := s.at_ now) (by rwa [ok_at]) r.src hsp hst
  intro t
  have ht : t = runAct (respond r op 0 data) (runAct (unitWrite r.src r.addr bs) (s.at_ now)) := by
    simp only [t, runAct_seq_cons, runAct_seq_nil]
  have hmem : t.mem = (runAct (unitWrite r.src r.addr bs) (s.at_ now)).mem := by rw [ht, runAct_respond]
  have hphys : phys t r.addr = phys s r.addr := by
    rw [ht]
    exact k.map.phys r.addr
  refine ⟨?_, fun x hx => (byteAt_congr hmem x).trans (k.others x hx), ?_, ?_⟩
  · rw [bytesAt, hphys, rawBytes_congr hmem, k.bytes]
  · rw [ht]
    exact servedFrame_trans (servedFrame_trans (servedFrame_at s now) k.frame) (servedFrame_respond ..)
  · rw [ht, runAct_respond]
    exact congrArg (· ++ _) k.resps

theorem write_answered {s : State} (hs : s.ok = true) {r : Req} (hsp : scratchpad s r.addr = true)
    (hst : writeStatus s r.addr r.data.length = 0) (op : ReqOp) (now : Nat) :
    let t := runAct (performWrite op r) (s.at_ now)
    bytesAt t r.addr r.data.length = r.data ∧ memExcept (phys s r.addr) r.data.length s t ∧ servedFrame s t now ∧
      t.resps = s.resps ++ [⟨r.src, r.tag, op, 0, [], r.addr⟩] := by
  have hrun : performWrite op r (s.at_ now) = seq [unitWrite r.src r.addr r.data, respond r op 0 []] (s.at_ now) := by
    rw [← hst]
    rfl
  rw [runAct_eq hrun]
  exact answered_of_write hs hsp hst op [] now

/-- A write to a dark memory is refused, counted and answered BANK_OFF (R179). -/
theorem write_dark {s : State} (hs : s.ok = true) {r : Req} (hsp : scratchpad s r.addr = true)
    (hmap : mapped s r.addr r.data.length = true) (hdark : locDark s r.addr = true) (op : ReqOp) (now : Nat) :
    let t := runAct (performWrite op r) (s.at_ now)
    t.mem = s.mem ∧ servedFrame s t now ∧ t.resps = s.resps ++ [⟨r.src, r.tag, op, 2, [], r.addr⟩] := by
  have hst : writeStatus s r.addr r.data.length = 2 := by
    rw [writeStatus_scratchpad hsp, hmap, hdark]
    rfl
  have hrun : performWrite op r (s.at_ now) = seq [unitWrite r.src r.addr r.data, respond r op 2 []] (s.at_ now) := by
    rw [← hst]
    rfl
  have hunit : Within readMask (unitWrite r.src r.addr r.data (s.at_ now)) := by
    have hdark' : locDark (s.at_ now) r.addr = true := hdark
    rw [unitWrite_scratchpad (s := s.at_ now) hsp, if_pos hdark']
    exact wIf wNil (wIf ((w_recordRefusal ..).mono (by decide)) ((w_refuseDark ..).mono (by decide)))
  rw [runAct_eq hrun]
  exact answered_of_within hs hunit r op _ _

/-! ### Requests that their memory holds (R128, R177) -/

theorem request_arrives {s : State} {op : ReqOp} {r : Req} (h : arrives s op r) (now : Nat) :
    request op r now s = reqArrive op r now s := by
  obtain ⟨hreq, hlive, hpath⟩ := h
  unfold request
  simp only [hreq, hlive, Bool.not_true, Bool.false_eq_true, if_false]
  split
  · rfl
  · next hc =>
    have hflow : pathFlows s r.src r.addr = true := hpath.resolve_left (by simpa using hc)
    have hroute : pathOf s r.src r.addr ≠ none := fun hn => by simp [pathFlows, hn] at hflow
    rw [if_neg hroute, if_pos hflow]

theorem exec_arrives {s : State} {op : ReqOp} {r : Req} (h : arrives s op r) (hsp : scratchpad s r.addr = true) (now : Nat) :
    exec (requestCmd op r now) s = .next (runAct (memArrive op r) (s.at_ now)) := by
  rw [exec_requestCmd, runAct_eq ((request_arrives (s := s.at_ now) h now).trans (reqArrive_scratchpad (s := s.at_ now) hsp op now))]

theorem ok_bankHeld {s : State} (h : s.ok = true) : tabWf noHeld s.bankHeld = true := by
  simp_all [State.ok, State.tabsOk]

/-- A waking memory adds the request to those that it holds, and its bank shows their number. -/
def holdAwake (k : Nat) (held : List (ReqOp × Req)) : Act := seq [upd (.bankHeld k held), showHeld k]

theorem memArrive_waking {s : State} {op : ReqOp} {r : Req} {k : Nat} (h : wakeFor s op r = some k) :
    memArrive op r s = holdAwake k (get_bankHeld s k ++ [(op, r)]) s := by
  unfold memArrive
  rw [h]
  rfl

theorem w_holdAwake (k : Nat) (held : List (ReqOp × Req)) (s : State) : Within (2 ^ 24 + 2 ^ 0) (holdAwake k held s) :=
  wSeq (wUpd (by simp only [fieldOf]; decide)) fun _ => wSeq ((w_showHeld ..).mono (by decide)) fun _ => wSeqNil

theorem get_bankHeld_holdAwake {s : State} (hs : s.ok = true) (k : Nat) (held : List (ReqOp × Req)) :
    get_bankHeld (runAct (holdAwake k held) s) k = held := by
  have hshow := same_bankHeld (w_showHeld k (applyUpd (.bankHeld k held) s)) (by decide) (applyUpd (.bankHeld k held) s)
  rw [holdAwake, runAct_seq_cons, runAct_seq_cons, runAct_seq_nil, runAct_upd]
  refine (congrArg (tabGet noHeld · k) hshow).trans ?_
  rw [bankHeld_upd_bankHeld, tabGet_tabSet (ok_bankHeld hs), if_pos rfl]

theorem memArrive_held {s : State} {op : ReqOp} {r : Req} (hw : wakeFor s op r = none)
    (h : (heldByEngine s op r || behind s.held r) = true) : memArrive op r s = [.held (s.held ++ [(op, r)])] := by
  unfold memArrive
  rw [hw]
  exact if_pos h

/-- Settles O24: requests that their memory performs at once read and write by the rules of `unitRead` and `unitWrite`; a memory
that wakes and an engine's memory hold them. -/
theorem scratchpadReadsAndWrites : Obligations.ScratchpadReadsAndWrites := by
  unfold Obligations.ScratchpadReadsAndWrites
  refine ⟨?_, ?_, ?_, ?_, ?_⟩
  · intro s r now hs hserved
    exact ⟨_, exec_served hserved now, read_answered hs hserved.2.1 .read now⟩
  · intro s r now hs hserved hst
    exact ⟨_, exec_served hserved now, write_answered hs hserved.2.1 hst .write now⟩
  · intro s r now hs hserved hmap hdark
    exact ⟨_, exec_served hserved now, write_dark hs hserved.2.1 hmap hdark .write now⟩
  · intro s r now k hs harr hsp hwake
    have hs' : (s.at_ now).ok = true := by rwa [ok_at]
    have w := w_holdAwake k (get_bankHeld s k ++ [(.write, r)]) (s.at_ now)
    exact ⟨_, (exec_arrives harr hsp now).trans (congrArg _ (runAct_eq (memArrive_waking (s := s.at_ now) hwake))),
      get_bankHeld_holdAwake hs' k _, same_mem w (by decide) _, frame w (s.at_ now)⟩
  · intro s r now hs harr hsp hwake hheld
    exact (exec_arrives harr hsp now).trans
      (congrArg _ (congrArg (applyAll · _) (memArrive_held (s := s.at_ now) hwake hheld)))

end Sys2Proof.Proofs
end

section
/-! SUPPORT. Atomics at a scratchpad (R112, R114), accesses through windows (R293) and watches (R121). -/
namespace Sys2Proof.Proofs
open Sys2Proof.Machine Sys2Proof.Laws

/-! ### Atomics (R112, R114) -/

theorem length_leBytes (n v : Nat) : (leBytes n v).length = n := by
  induction n generalizing v with
  | zero => rfl
  | succ n ih => rw [leBytes, List.length_cons, ih]

theorem readStatus_scratchpad {s : State} {a : Nat} (h : scratchpad s a = true) (n : Nat) :
    readStatus s a n = if !mapped s a n then stUNMAPPED else if locDark s a then stBANK_OFF
      else if readBad s (phys s a) n then stDATA_UNCORR else stOK := by
  unfold readStatus
  obtain ⟨d, b, hl⟩ | ⟨d, c, hl⟩ | ⟨d, c, e, hl⟩ := scratchpad_cases h <;> simp only [hl]

theorem badPartial_of_not_readBad {s : State} {a n : Nat} (h : readBad s a n = false) : badPartial s a n = [] := by
  rw [readBad, List.any_eq_false] at h
  rw [badPartial, List.map_eq_nil_iff, List.filter_eq_nil_iff]
  intro e he
  simp [h e he]

/-- Where a read gets its bytes, a write of as many is performed. -/
theorem writeStatus_of_readStatus {s : State} {a n : Nat} (hsp : scratchpad s a = true) (h : readStatus s a n = 0) :
    writeStatus s a n = 0 := by
  rw [readStatus_scratchpad hsp] at h
  split_ifs at h with hmap hdark hbad
  rw [writeStatus_scratchpad hsp, if_neg hmap, if_neg hdark, badPartial_of_not_readBad (by simpa using hbad)]
  rfl

/-- The bytes that an atomic leaves. -/
def atomicBytes (s : State) (r : Req) : List Byte :=
  leBytes r.width (atomicNew r.kind (8 * r.width) (leNat (bytesAt s r.addr r.width)) (leNat (r.data.take r.width))
    (leNat (r.data.drop r.width)))

theorem performAtomic_eq {s : State} {r : Req} (hok : atomicOk r = true) (hst : readStatus s r.addr r.width = 0) (op : ReqOp) :
    performAtomic op r s = seq [unitWrite r.src r.addr (atomicBytes s r),
      respond r op 0 (if op = .atomicR then bytesAt s r.addr r.width else [])] s := by
  unfold performAtomic
  rw [hok, hst]
  rfl

theorem atomic_answered {s : State} (hs : s.ok = true) {r : Req} (hsp : scratchpad s r.addr = true) (hok : atomicOk r = true)
    (hst : readStatus s r.addr r.width = 0) (op : ReqOp) (now : Nat) :
    let t := runAct (performAtomic op r) (s.at_ now)
    bytesAt t r.addr r.width = atomicBytes s r ∧ memExcept (phys s r.addr) r.width s t ∧ servedFrame s t now ∧
      t.resps = s.resps ++ [⟨r.src, r.tag, op, 0, if op = .atomicR then bytesAt s r.addr r.width else [], r.addr⟩] := by
  have hlen : (atomicBytes s r).length = r.width := length_leBytes ..
  have hrun := performAtomic_eq (s := s.at_ now) hok hst op
  rw [bytesAt_at, show atomicBytes (s.at_ now) r = atomicBytes s r by rw [atomicBytes, bytesAt_at, atomicBytes]] at hrun
  have h := answered_of_write hs (bs := atomicBytes s r) hsp (by rw [hlen]; exact writeStatus_of_readStatus hsp hst) op
    (if op = .atomicR then bytesAt s r.addr r.width else []) now
  rw [hlen] at h
  rw [runAct_eq hrun]
  exact h

/-- Settles O25: an atomic is a write of its new value, answered with the old one in its returning form. -/
theorem atomicsPerformed : Obligations.AtomicsPerformed := by
  unfold Obligations.AtomicsPerformed
  constructor
  · intro s r now hs hserved hok hst
    exact ⟨_, exec_served hserved now, atomic_answered hs hserved.2.1 hok hst .atomicR now⟩
  · intro s r now hs hserved hok hst
    exact ⟨_, exec_served hserved now, atomic_answered hs hserved.2.1 hok hst .atomicN now⟩

/-! ### Windows (R293) -/

theorem performWin_read {s : State} {r : Req} (hwin : r.win < 64)
    (h : winCheck s r.win r.addr r.len false (fromPeer r.src) = 0) : performWin .readWin r s = performRead .readWin r s := by
  unfold performWin
  dsimp only
  rw [if_pos hwin]
  exact if_neg (not_not.2 h)

theorem performWin_write {s : State} {r : Req} (hwin : r.win < 64)
    (h : winCheck s r.win r.addr r.data.length true (fromPeer r.src) = 0) :
    performWin .writeWin r s = performWrite .writeWin r s := by
  unfold performWin
  dsimp only
  rw [if_pos hwin]
  exact if_neg (not_not.2 h)

theorem performWin_dropped {s : State} {r : Req} (hwin : r.win < 64) {st : Nat}
    (h : winCheck s r.win r.addr r.data.length true (fromPeer r.src) = st) (hst : st ≠ 0) :
    performWin .writeWin r s = seq [winDrop r.src r.win st, respond r .writeWin st []] s := by
  subst h
  unfold performWin
  simp only [hwin, if_true, beq_self_eq_true, ne_eq, hst, not_false_eq_true, decide_true]
  rfl

/-- The record of the first dropped access. -/
theorem winDrop_eq (m : Master) (w st : Nat) (s : State) :
    ∃ c v, winDrop m w st s = seq [incReg (DMA_WIN_DROP_CNT w), if c = true then nop else wr (DMA_WIN_DROP_SRC w) v] s :=
  ⟨flag s (DMA_WIN_DROP_SRC_VALID w), _, by unfold winDrop; rfl⟩

theorem winDrop_counts {s : State} (hs : s.ok = true) (m : Master) (w st : Nat) :
    rd (runAct (winDrop m w st) s) (DMA_WIN_DROP_CNT w) = satAdd 32 (rd s (DMA_WIN_DROP_CNT w)) 1 ∧
      regsExcept [DMA_WIN_DROP_CNT w, DMA_WIN_DROP_SRC w] s (runAct (winDrop m w st) s) := by
  obtain ⟨c, v, hrun⟩ := winDrop_eq m w st s
  have hs1 := ok_runAct (a := incReg (DMA_WIN_DROP_CNT w)) hs
  have hcount := onlyRegs_incReg hs (DMA_WIN_DROP_CNT w)
  have hsrc : Touches [DMA_WIN_DROP_SRC w] (if c = true then nop else wr (DMA_WIN_DROP_SRC w) v) := by
    split
    · exact fun s _ => regsExcept_refl _ s
    · exact touches_wr v (by simp)
  rw [runAct_eq hrun, runAct_seq_cons, runAct_seq_cons, runAct_seq_nil]
  refine ⟨?_, regsExcept_trans (regsExcept_mono hcount.2 (by simp)) (regsExcept_mono (hsrc _ hs1) (by simp))⟩
  rw [hsrc _ hs1 _ (by simp), rd_incReg hs]

theorem writeWin_dropped {s : State} (hs : s.ok = true) {r : Req} {st now : Nat} :
    let t := runAct (seq [winDrop r.src r.win st, respond r .writeWin st []]) (s.at_ now)
    t.mem = s.mem ∧ rd t (DMA_WIN_DROP_CNT r.win) = satAdd 32 (rd s (DMA_WIN_DROP_CNT r.win)) 1 ∧
      regsExcept [DMA_WIN_DROP_CNT r.win, DMA_WIN_DROP_SRC r.win] s t ∧
      t.resps = s.resps ++ [⟨r.src, r.tag, .writeWin, st, [], r.addr⟩] ∧
      t = { s with regs := t.regs, time := max s.time now, resps := t.resps } := by
  have hs' : (s.at_ now).ok = true := by rwa [ok_at]
  have w : Within (2 ^ 0 + 2 ^ 13) (seq [winDrop r.src r.win st, respond r .writeWin st []] (s.at_ now)) :=
    wSeq ((w_winDrop ..).mono (by decide)) fun _ => wSeq ((w_respond ..).mono (by decide)) fun _ => wSeqNil
  obtain ⟨hcount, hregs⟩ := winDrop_counts hs' r.src r.win st
  rw [rd_at] at hcount
  have hframe := frame w (s.at_ now)
  intro t
  have ht : t = runAct (respond r .writeWin st []) (runAct (winDrop r.src r.win st) (s.at_ now)) := by
    simp only [t, runAct_seq_cons, runAct_seq_nil]
  have hrd : ∀ a, rd t a = rd (runAct (winDrop r.src r.win st) (s.at_ now)) a := fun a => by
    rw [ht, runAct_respond]
    rfl
  refine ⟨same_mem w (by decide) _, (hrd _).trans hcount, fun a ha => (hrd a).trans ((hregs a ha).trans (rd_at s now a)), ?_, hframe⟩
  rw [ht, runAct_respond]
  exact congrArg (· ++ _) (same_resps (w_winDrop ..) (by decide) (s.at_ now))

/-! ### Watches (R121) -/

theorem ok_watches {s : State} (h : s.ok = true) : tabWf noWatch s.watches = true := by
  simp_all [State.ok, State.tabsOk]

/-- A watch on a word that nobody watches takes an entry of a bank that has one free. -/
theorem placeWatch_new {s : State} {a d b : Nat} (hloc : locOf s a = .bank d b) (hroom : (get_watches s (d * 64 + b)).length < 64)
    (hnew : (get_watches s (d * 64 + b)).find? (fun w => w.addr == a) = none) (g t : Nat) :
    placeWatch g t a s = [.watches (d * 64 + b) (get_watches s (d * 64 + b) ++ [⟨a, [g]⟩])] := by
  unfold placeWatch
  simp only [hloc, hnew, hroom, if_true]

/-- A watch request places one watch, for the waiting thread that it was sent for or for the core. -/
theorem performWatch_new {s : State} {r : Req} {g d b : Nat} (hsrc : r.src = .core g) (hloc : locOf s r.addr = .bank d b)
    (hmap : mapped s r.addr 8 = true) (hdark : locDark s r.addr = false) (hroom : (get_watches s (d * 64 + b)).length < 64)
    (hnew : (get_watches s (d * 64 + b)).find? (fun w => w.addr == r.addr) = none) :
    runAct (performWatch r) s = runAct (respond r .watch 0 [])
      (applyUpd (.watches (d * 64 + b) (get_watches s (d * 64 + b) ++ [⟨r.addr, [g]⟩])) s) := by
  obtain ⟨t, hrun⟩ : ∃ t, performWatch r s = seq [placeWatch g t r.addr, respond r .watch 0 []] s := by
    unfold performWatch
    simp only [hsrc, hmap, hdark, hloc, hroom, decide_true, Bool.or_true, if_true, Bool.not_true, Bool.false_eq_true, if_false]
    split
    · next t _ => exact ⟨t, rfl⟩
    · exact ⟨0, rfl⟩
  rw [runAct_eq hrun, runAct_seq_cons, runAct_seq_cons, runAct_seq_nil, runAct_eq (b := upd _) (placeWatch_new hloc hroom hnew g t),
    runAct_upd]

/-- Settles O28: a window only decides whether the access is performed as a read or write; a watch takes one entry. -/
theorem windowAccessesAndWatches : Obligations.WindowAccessesAndWatches := by
  unfold Obligations.WindowAccessesAndWatches
  refine ⟨?_, ?_, ?_, ?_⟩
  · intro s r now hs hserved hwin hcheck
    refine ⟨_, (exec_served hserved now).trans (congrArg _ (runAct_eq (performWin_read (s := s.at_ now) hwin hcheck))), ?_⟩
    exact read_answered hs hserved.2.1 .readWin now
  · intro s r now hs hserved hwin hcheck hst
    refine ⟨_, (exec_served hserved now).trans (congrArg _ (runAct_eq (performWin_write (s := s.at_ now) hwin hcheck))), ?_⟩
    exact write_answered hs hserved.2.1 hst .writeWin now
  · intro s r now hs hserved hwin hcheck
    exact ⟨_, (exec_served hserved now).trans (congrArg _ (runAct_eq (performWin_dropped (s := s.at_ now) hwin rfl hcheck))),
      writeWin_dropped hs⟩
  · intro s r now g d b hs hserved hsrc hloc hmap hdark hroom hnew
    refine ⟨_, (exec_served hserved now).trans (congrArg _
      (performWatch_new (s := s.at_ now) hsrc hloc hmap hdark hroom hnew)), ?_, ?_, ?_⟩
    · refine (congrArg (tabGet noWatch · _) (same_watches (w_respond ..) (by decide) _)).trans ?_
      rw [watches_upd_watches, tabGet_tabSet (ok_watches (by rwa [ok_at])), if_pos rfl]
      rfl
    · rw [runAct_respond]
      rfl
    · rw [runAct_respond]
      rfl

end Sys2Proof.Proofs
end

section
/-! SUPPORT. Requests to an address where the map has nothing (R28). -/
namespace Sys2Proof.Proofs
open Sys2Proof.Machine Sys2Proof.Laws

theorem runAct_refuseReq (op : ReqOp) (r : Req) (s : State) : runAct (refuseReq op r) s =
    runAct (respond r op 1 (if returnsData op then zeros (reqLen op r) else [])) (runAct (recordRefusal r.src r.addr) s) := by
  unfold refuseReq
  rw [runAct_seq_cons, runAct_seq_cons, runAct_seq_nil]

theorem returnsData_iff (op : ReqOp) : returnsData op = true ↔ op = .read ∨ op = .atomicR ∨ op = .readWin := by
  cases op <;> simp [returnsData]

theorem reqArrive_unmapped {s : State} {r : Req} (h : locOf s r.addr = .none) (op : ReqOp) (now : Nat) :
    reqArrive op r now s = refuseReq op r s := by
  unfold reqArrive
  rw [h]

/-- A request that its source does not have outstanding is none. -/
theorem request_dead {s : State} {op : ReqOp} {r : Req} (h : reqLive s op (reqOf s op r) = false) (now : Nat) :
    request op r now s = [] := by
  unfold request
  dsimp only
  rw [h]
  rfl

theorem refuseReq_refused (op : ReqOp) (r : Req) (s : State) :
    let t := runAct (refuseReq op r) s
    refusedAt r.src r.addr s { t with resps := s.resps } ∧
      t.resps = s.resps ++ [⟨r.src, r.tag, op, 1,
        if op = .read ∨ op = .atomicR ∨ op = .readWin then List.replicate (reqLen op r) 0 else [], r.addr⟩] := by
  intro t
  have ht : t = _ := runAct_refuseReq op r s
  rw [ht, runAct_respond, recordRefusal_at r.src r.addr s]
  simp only [returnsData_iff]
  exact ⟨rfl, rfl⟩

/-- Settles O29: where the map has nothing every kind of request is refused by the same rule, and a request that a core does not
have outstanding does nothing. -/
theorem unmappedRequestsRefused : Obligations.UnmappedRequestsRefused := by
  unfold Obligations.UnmappedRequestsRefused
  constructor
  · intro s op r now harr hloc
    have hrun : request op r now (s.at_ now) = refuseReq op r (s.at_ now) :=
      (request_arrives (s := s.at_ now) harr now).trans (reqArrive_unmapped (s := s.at_ now) hloc op now)
    refine ⟨_, (exec_requestCmd op r now s).trans (congrArg _ (runAct_eq hrun)), ?_⟩
    exact refuseReq_refused op r (s.at_ now)
  · intro s op r now hdead
    rw [exec_requestCmd, runAct_eq (b := nop) (request_dead (s := s.at_ now) hdead now)]
    rfl

end Sys2Proof.Proofs
end

section
/-! SUPPORT. Instructions that issue, and SPAWN and HALT among them (R107, R108, R130). -/
namespace Sys2Proof.Proofs
open Sys2Proof.Machine Sys2Proof.Laws

/-! ### Threads of a core -/

theorem ok_threads {s : State} (h : s.ok = true) : tabWf threadDefault s.threads = true := by
  simp_all [State.ok, State.tabsOk]

theorem threads_setThr {s : State} (hs : s.ok = true) (g t k : Nat) (f : Thread → Thread) :
    get_threads (runAct (setThr g t f) s) k = if k = tkey g t then f (thr s g t) else get_threads s k :=
  tabGet_tabSet (ok_threads hs)

theorem thr_setThr {s : State} (hs : s.ok = true) (g t : Nat) (f : Thread → Thread) :
    thr (runAct (setThr g t f) s) g t = f (thr s g t) := by
  rw [thr, threads_setThr hs, if_pos rfl]

theorem thr_setThr_ne {s : State} (hs : s.ok = true) (g : Nat) {t t' : Nat} (h : t' ≠ t) (f : Thread → Thread) :
    thr (runAct (setThr g t f) s) g t' = thr s g t' := by
  rw [thr, threads_setThr hs, if_neg (by simpa [tkey] using h), thr]

theorem get_threads_congr {s u : State} (h : u.threads = s.threads) (k : Nat) : get_threads u k = get_threads s k :=
  congrArg (tabGet threadDefault · k) h

theorem thr_congr {s u : State} (h : u.threads = s.threads) (g t : Nat) : thr u g t = thr s g t := get_threads_congr h _

theorem frame_runAct {T : Nat} {a : Act} {s : State} (w : Within T (a s)) : runAct a s = mix T s (runAct a s) := frame w s

theorem rd_runAct_of_within {T : Nat} {a : Act} {s : State} (w : Within T (a s)) (h0 : T.testBit 0 = false)
    (h97 : T.testBit 97 = false) (k : Nat) : rd (runAct a s) k = rd s k := rd_congr (same_regs w h0 h97 s) k

theorem getF_setThr (g t : Nat) (f : Thread → Thread) (s : State) (fld : Fld) : getF (runAct (setThr g t f) s) fld = getF s fld := by
  rw [getF, rd_runAct_of_within (w_setThr ..) (by decide) (by decide), getF]

/-! ### Instructions that issue (R108, R111) -/

/-- The program counter moves on by one instruction. -/
def advancePc (th : Thread) : Thread := { th with pc := th.pc + 8 }

theorem sreg_advancePc (th : Thread) (r : Nat) : sreg (advancePc th) r = sreg th r := by
  unfold sreg advancePc
  rfl

def nextPc (g t : Nat) : Act := setThr g t advancePc

/-- An instruction that issues moves its program counter on, has its effect, and is counted. -/
theorem exec_issued {s : State} {g t : Nat} {ss vs : List Nat} (h : issuable s g t ss vs) (body : Act) :
    done (issue g t ss vs body) s = .next (runAct (inc64 (CORE_ISSUE g) 1) (runAct body (runAct (nextPc g t) s))) := by
  obtain ⟨hmay, hpend, hfetch, hfail⟩ := h
  have hrun : issue g t ss vs body s = seq [nextPc g t, body, inc64 (CORE_ISSUE g) 1] s := by
    unfold issue
    rw [hmay, hpend, hfetch, hfail]
    rfl
  rw [done_eq, runAct_eq hrun, runAct_seq_cons, runAct_seq_cons, runAct_seq_cons, runAct_seq_nil]

theorem runAct_inc64 (a k : Nat) (s : State) : runAct (inc64 a k) s = runAct (wr64 a ((rd64 s a + k) % 2 ^ 64)) s :=
  runAct_eq (show inc64 a k s = _ by unfold inc64; rfl)

theorem touches_inc64 (a k : Nat) : Touches [a, a + 4] (inc64 a k) := fun s hs b hb => by
  simp only [List.mem_cons, List.not_mem_nil, or_false, not_or] at hb
  rw [runAct_inc64, rd_wr64 hs, if_neg hb.2, if_neg hb.1]

theorem rd64_inc64 {s : State} (hs : s.ok = true) (a k : Nat) : rd64 (runAct (inc64 a k) s) a = (rd64 s a + k) % 2 ^ 64 := by
  rw [runAct_inc64, rd64_wr64 hs, Nat.mod_mod]

theorem w_countIssue (g : Nat) (s : State) : Within 1 (inc64 (CORE_ISSUE g) 1 s) :=
  w_inc64_hi _ _ _ (by simp only [CORE_ISSUE, CORE_ISSUE_LO, coreBase]; omega)

/-- What an action on threads and the count of the instruction leave. -/
theorem stepped {b : Act} {s : State} (hs : s.ok = true) (w : Within (2 ^ 18) (b s)) (g : Nat) :
    let u := runAct (inc64 (CORE_ISSUE g) 1) (runAct b s)
    u.threads = (runAct b s).threads ∧ rd64 u (CORE_ISSUE g) = (rd64 s (CORE_ISSUE g) + 1) % 2 ^ 64 ∧
      regsExcept [CORE_ISSUE g, CORE_ISSUE g + 4] s u ∧ u = { s with regs := u.regs, threads := u.threads } := by
  have hb : (runAct b s).regs = s.regs := same_regs w (by decide) (by decide) s
  have hs1 := ok_runAct (a := b) hs
  have hw : Within (2 ^ 18 + 1) (seq [b, inc64 (CORE_ISSUE g) 1] s) :=
    wSeq (w.mono (by decide)) fun _ => wSeq ((w_countIssue ..).mono (by decide)) fun _ => wSeqNil
  have hframe := frame_runAct hw
  simp only [runAct_seq_cons, runAct_seq_nil] at hframe
  refine ⟨same_threads (w_countIssue ..) (by decide) _, ?_, fun a ha => ?_, hframe⟩
  · rw [rd64_inc64 hs1, rd64, rd_congr hb, rd_congr hb, rd64]
  · rw [touches_inc64 _ _ _ hs1 a ha, rd_congr hb]

/-- The instruction changes threads, shows the number of threads, and is counted. -/
theorem steppedShown {b : Act} {s : State} (hs : s.ok = true) (w : Within (2 ^ 18) (b s)) (g n : Nat) :
    let u := runAct (inc64 (CORE_ISSUE g) 1) (runAct (setF (CORE_STAT_THREADS g) n) (runAct b s))
    u.threads = (runAct b s).threads ∧ fieldSet (CORE_STAT_THREADS g) n s u ∧
      regsExcept [CORE_ISSUE g, CORE_ISSUE g + 4, CORE_STAT g] s u ∧ u = { s with regs := u.regs, threads := u.threads } := by
  have hb : (runAct b s).regs = s.regs := same_regs w (by decide) (by decide) s
  have hs1 := ok_runAct (a := b) hs
  have hs2 := ok_runAct (a := setF (CORE_STAT_THREADS g) n) hs1
  have hshow : ∀ v, Within 1 (setF (CORE_STAT_THREADS g) n v) := fun v =>
    w_setF_hi _ _ _ (by simp only [CORE_STAT, coreBase]; omega)
  have hw : Within (2 ^ 18 + 1) (seq [b, setF (CORE_STAT_THREADS g) n, inc64 (CORE_ISSUE g) 1] s) :=
    wSeq (w.mono (by decide)) fun _ => wSeq ((hshow _).mono (by decide)) fun _ =>
      wSeq ((w_countIssue ..).mono (by decide)) fun _ => wSeqNil
  have hframe := frame_runAct hw
  simp only [runAct_seq_cons, runAct_seq_nil] at hframe
  obtain ⟨hfield, honly⟩ := setsField_setF hs1 (f := CORE_STAT_THREADS g) rfl n
  have hne : CORE_STAT g ∉ [CORE_ISSUE g, CORE_ISSUE g + 4] := by
    simp only [CORE_STAT, CORE_ISSUE, CORE_ISSUE_LO, List.mem_cons, List.not_mem_nil, or_false]
    omega
  have hcount := touches_inc64 (CORE_ISSUE g) 1 _ hs2
  refine ⟨(same_threads (w_countIssue ..) (by decide) _).trans (same_threads (hshow _) (by decide) _), ?_, fun a ha => ?_, hframe⟩
  · rw [fieldSet, ← rd_congr hb]
    exact (hcount _ hne).trans hfield
  · simp only [List.mem_cons, List.not_mem_nil, or_false, not_or] at ha
    rw [hcount a (by simp [ha]), honly.2 a (fun hm => ha.2.2 (List.mem_singleton.1 hm)), rd_congr hb]

/-! ### SPAWN (R107) -/

/-- What SPAWN does once it issues. -/
def spawnBody (g t t2 re ra d : Nat) : Act := fun s =>
  if (thr s g (t2 % 64)).running then setThr g t (fun th => setSreg th d 1) s
  else seq [setThr g (t2 % 64) (fun _ => freshThread (thr s g t).pitch (sreg (thr s g t) re) (sreg (thr s g t) ra)),
    setThr g t (fun th => setSreg th d 0), fun s => setF (CORE_STAT_THREADS g) (getF s (CORE_STAT_THREADS g) + 1) s] s

theorem exec_spawn {s : State} {g t re ra d : Nat} (h : issuable s g t [re, ra, d] []) (t2 : Nat) :
    exec (.spawn g t t2 re ra d) s =
      .next (runAct (inc64 (CORE_ISSUE g) 1) (runAct (spawnBody g t t2 re ra d) (runAct (nextPc g t) s))) :=
  exec_issued h _

theorem spawnBody_running {s : State} {g t2 : Nat} (ht2 : t2 < 64) (h : (thr s g t2).running = true) (t re ra d : Nat) :
    spawnBody g t t2 re ra d s = setThr g t (fun th => setSreg th d 1) s := by
  unfold spawnBody
  rw [Nat.mod_eq_of_lt ht2, if_pos h]

/-- The thread spawned is fresh, and the spawning one gets 0. -/
def startThread (g t t2 d : Nat) (fresh : Thread) : Act :=
  seq [setThr g t2 (fun _ => fresh), setThr g t (fun th => setSreg th d 0)]

theorem runAct_spawnBody_halted {s : State} {g t2 : Nat} (ht2 : t2 < 64) (h : (thr s g t2).running = false) (t re ra d : Nat) :
    runAct (spawnBody g t t2 re ra d) s = runAct (setF (CORE_STAT_THREADS g) (getF s (CORE_STAT_THREADS g) + 1))
      (runAct (startThread g t t2 d (freshThread (thr s g t).pitch (sreg (thr s g t) re) (sreg (thr s g t) ra))) s) := by
  have hrun : spawnBody g t t2 re ra d s = seq [
      setThr g t2 (fun _ => freshThread (thr s g t).pitch (sreg (thr s g t) re) (sreg (thr s g t) ra)),
      setThr g t (fun th => setSreg th d 0),
      fun s => setF (CORE_STAT_THREADS g) (getF s (CORE_STAT_THREADS g) + 1) s] s := by
    unfold spawnBody
    rw [Nat.mod_eq_of_lt ht2, if_neg (by simp [h])]
  rw [runAct_eq hrun, startThread]
  simp only [runAct_seq_cons, runAct_seq_nil]
  rw [runAct_reading (fun s => setF (CORE_STAT_THREADS g) (getF s (CORE_STAT_THREADS g) + 1)), getF_setThr, getF_setThr]

theorem w_nextPc (g t : Nat) (s : State) : Within (2 ^ 18) (nextPc g t s) := (w_setThr ..).mono (by decide)

theorem spawn_running {s : State} (hs : s.ok = true) {g t t2 re ra d : Nat} (h : issuable s g t [re, ra, d] []) (ht2 : t2 < 64)
    (hrun : (thr s g t2).running = true) : ∃ u, exec (.spawn g t t2 re ra d) s = .next u ∧
      threadSteps g t (setSreg { thr s g t with pc := (thr s g t).pc + 8 } d 1) s u := by
  have hs1 := ok_runAct (a := nextPc g t) hs
  have hrun1 : (thr (runAct (nextPc g t) s) g t2).running = true := by
    rw [thr, nextPc, threads_setThr hs]
    split
    · next hk =>
      rw [thr, ← hk, ← thr]
      exact hrun
    · exact hrun
  have w : Within (2 ^ 18) (seq [nextPc g t, setThr g t (fun th => setSreg th d 1)] s) :=
    wSeq ((w_nextPc ..).mono (by decide)) fun _ => wSeq ((w_setThr ..).mono (by decide)) fun _ => wSeqNil
  have hexec := exec_spawn h t2
  rw [runAct_eq (spawnBody_running ht2 hrun1 t re ra d)] at hexec
  obtain ⟨hthreads, hcount, hregs, hframe⟩ := stepped hs w g
  simp only [runAct_seq_cons, runAct_seq_nil] at hthreads hcount hregs hframe
  refine ⟨_, hexec, ?_, fun k hk => ?_, hcount, hregs, hframe⟩
  · rw [thr_congr hthreads, thr_setThr hs1, nextPc, thr_setThr hs]
    rfl
  · rw [get_threads_congr hthreads, threads_setThr hs1, if_neg hk, nextPc, threads_setThr hs, if_neg hk]

theorem spawn_halted {s : State} (hs : s.ok = true) {g t t2 re ra d : Nat} (h : issuable s g t [re, ra, d] []) (ht2 : t2 < 64)
    (hne : t2 ≠ t) (hrun : (thr s g t2).running = false) : ∃ u, exec (.spawn g t t2 re ra d) s = .next u ∧
      thr u g t2 = freshThread (thr s g t).pitch (sreg (thr s g t) re) (sreg (thr s g t) ra) ∧
      thr u g t = setSreg { thr s g t with pc := (thr s g t).pc + 8 } d 0 ∧
      fieldSet (CORE_STAT_THREADS g) (getF s (CORE_STAT_THREADS g) + 1) s u ∧
      regsExcept [CORE_ISSUE g, CORE_ISSUE g + 4, CORE_STAT g] s u ∧ u = { s with regs := u.regs, threads := u.threads } := by
  have hs1 := ok_runAct (a := nextPc g t) hs
  have hself : thr (runAct (nextPc g t) s) g t = advancePc (thr s g t) := thr_setThr hs ..
  have hrun1 : (thr (runAct (nextPc g t) s) g t2).running = false := by rw [nextPc, thr_setThr_ne hs g hne, hrun]
  have hexec := exec_spawn h t2
  rw [runAct_spawnBody_halted ht2 hrun1, hself, sreg_advancePc, sreg_advancePc, nextPc, getF_setThr] at hexec
  have w : Within (2 ^ 18) (seq [nextPc g t, startThread g t t2 d
      (freshThread (thr s g t).pitch (sreg (thr s g t) re) (sreg (thr s g t) ra))] s) :=
    wSeq (w_nextPc ..) fun _ => wSeq (wSeq ((w_setThr ..).mono (by decide)) fun _ =>
      wSeq ((w_setThr ..).mono (by decide)) fun _ => wSeqNil) fun _ => wSeqNil
  obtain ⟨hthreads, hshown, hregs, hframe⟩ := steppedShown hs w g (getF s (CORE_STAT_THREADS g) + 1)
  simp only [runAct_seq_cons, runAct_seq_nil] at hthreads hshown hregs hframe
  have hs2 := ok_runAct (a := setThr g t2 (fun _ => freshThread (thr s g t).pitch (sreg (thr s g t) re) (sreg (thr s g t) ra))) hs1
  refine ⟨_, hexec, ?_, ?_, hshown, hregs, hframe⟩
  · refine (thr_congr hthreads g t2).trans ?_
    rw [startThread, runAct_seq_cons, runAct_seq_cons, runAct_seq_nil, thr_setThr_ne hs2 g hne, thr_setThr hs1]
  · refine (thr_congr hthreads g t).trans ?_
    rw [startThread, runAct_seq_cons, runAct_seq_cons, runAct_seq_nil, thr_setThr hs2, thr_setThr_ne hs1 g hne.symm, hself]
    rfl

/-! ### Thread faults (R129, R131) -/

def recordFault (g word pc addr : Nat) : Act := seq [wr (CORE_FAULT g) word, wr64 (CORE_FAULT_PC g) pc, wr64 (CORE_FAULT_ADDR g) addr]

/-- The first thread fault of a core is recorded. -/
def firstFault (g word pc addr : Nat) : Act := fun s => if flag s (CORE_FAULT_VALID g) then [] else recordFault g word pc addr s

/-- The core stops issuing for its job. -/
def stopCore (g : Nat) : Act := setCore g (fun c => { c with faulted := true })

/-- A fault message to the I/O die. -/
def sendFault (g code : Nat) : Act := fun s => [.faultMsgs (s.faultMsgs ++ [(g, code)])]

theorem threadFault_eq (g t code mstat pc addr : Nat) : threadFault g t code mstat pc addr = seq [incReg (CORE_FAULT_CNT g),
    firstFault g (code + t * 2 ^ 8 + mstat * 2 ^ 14 + 2 ^ 18) pc addr, stopCore g, sendFault g code] := by
  unfold threadFault firstFault recordFault stopCore sendFault
  rfl

theorem touches_wr64 {as : List Nat} {a : Nat} (v : Nat) (h : a ∈ as ∧ a + 4 ∈ as) : Touches as (wr64 a v) := by
  unfold wr64
  exact touches_cons (touches_wr _ h.1) (touches_cons (touches_wr _ h.2) touches_nil)

/-- The record leaves the count of faults. -/
theorem rd_firstFault {s : State} (hs : s.ok = true) (g word pc addr : Nat) :
    rd (runAct (firstFault g word pc addr) s) (CORE_FAULT_CNT g) = rd s (CORE_FAULT_CNT g) := by
  have htouch : Touches [CORE_FAULT g, CORE_FAULT_PC g, CORE_FAULT_PC g + 4, CORE_FAULT_ADDR g, CORE_FAULT_ADDR g + 4]
      (recordFault g word pc addr) :=
    touches_cons (touches_wr _ (by simp)) (touches_cons (touches_wr64 _ (by simp))
      (touches_cons (touches_wr64 _ (by simp)) touches_nil))
  by_cases hvalid : flag s (CORE_FAULT_VALID g) = true
  · rw [runAct_eq (b := nop) (if_pos hvalid), runAct_nop]
  · rw [runAct_eq (if_neg hvalid)]
    refine htouch s hs _ ?_
    simp only [CORE_FAULT, CORE_FAULT_PC, CORE_FAULT_PC_LO, CORE_FAULT_ADDR, CORE_FAULT_ADDR_LO, CORE_FAULT_CNT,
      List.mem_cons, List.not_mem_nil, or_false]
    omega

theorem w_firstFault (g word pc addr : Nat) (s : State) : Within 1 (firstFault g word pc addr s) :=
  wIf wNil (wSeq (w_wr_hi _ _ _ (by simp only [CORE_FAULT, coreBase]; omega)) fun _ =>
    wSeq (w_wr64_hi _ _ _ (by simp only [CORE_FAULT_PC, CORE_FAULT_PC_LO, coreBase]; omega)) fun _ =>
    wSeq (w_wr64_hi _ _ _ (by simp only [CORE_FAULT_ADDR, CORE_FAULT_ADDR_LO, coreBase]; omega)) fun _ => wSeqNil)

theorem w_sendFault (g code : Nat) (s : State) : Within (2 ^ 53) (sendFault g code s) := wCons (by simp only [fieldOf]; decide) wNil

theorem w_countFault (g : Nat) (s : State) : Within 1 (incReg (CORE_FAULT_CNT g) s) :=
  w_incReg_hi _ _ (by simp only [CORE_FAULT_CNT, coreBase]; omega)

theorem runAct_threadFault (g t code mstat pc addr : Nat) (s : State) : runAct (threadFault g t code mstat pc addr) s =
    runAct (sendFault g code) (runAct (stopCore g) (runAct (firstFault g (code + t * 2 ^ 8 + mstat * 2 ^ 14 + 2 ^ 18) pc addr)
      (runAct (incReg (CORE_FAULT_CNT g)) s))) := by
  rw [threadFault_eq]
  simp only [runAct_seq_cons, runAct_seq_nil]

theorem threadFault_counts {s : State} (hs : s.ok = true) (g t code mstat pc addr : Nat) :
    rd (runAct (threadFault g t code mstat pc addr) s) (CORE_FAULT_CNT g) = satAdd 32 (rd s (CORE_FAULT_CNT g)) 1 := by
  rw [runAct_threadFault, rd_runAct_of_within (w_sendFault ..) (by decide) (by decide), stopCore,
    rd_runAct_of_within (w_setCore ..) (by decide) (by decide), rd_firstFault (ok_runAct hs), rd_incReg hs]

theorem cores_runAct_of_within {T : Nat} {a : Act} {s : State} (w : Within T (a s)) (h : T.testBit 19 = false) (g : Nat) :
    get_cores (runAct a s) g = get_cores s g := congrArg (tabGet coreDefault · g) (same_cores w h s)

theorem threadFault_stops {s : State} (hs : s.ok = true) (g t code mstat pc addr : Nat) :
    get_cores (runAct (threadFault g t code mstat pc addr) s) g = { get_cores s g with faulted := true } := by
  have hs1 := ok_runAct (a := incReg (CORE_FAULT_CNT g)) hs
  rw [runAct_threadFault, cores_runAct_of_within (w_sendFault ..) (by decide), stopCore, cores_setCore (ok_runAct hs1), if_pos rfl,
    cores_runAct_of_within (w_firstFault ..) (by decide), cores_runAct_of_within (w_countFault ..) (by decide)]

theorem threadFault_sends (g t code mstat pc addr : Nat) (s : State) :
    (runAct (threadFault g t code mstat pc addr) s).faultMsgs = s.faultMsgs ++ [(g, code)] := by
  rw [runAct_threadFault]
  refine congrArg (· ++ [(g, code)]) ?_
  exact (same_faultMsgs (w_setCore ..) (by decide) _).trans
    ((same_faultMsgs (w_firstFault ..) (by decide) _).trans (same_faultMsgs (w_countFault ..) (by decide) _))

/-- An instruction that raises a thread fault: what shows of it once the instruction is counted. -/
theorem threadFaults_issued {s : State} (hs : s.ok = true) (g t code mstat pc addr : Nat) :
    threadFaults g code s (runAct (inc64 (CORE_ISSUE g) 1) (runAct (threadFault g t code mstat pc addr) (runAct (nextPc g t) s))) := by
  have hs1 := ok_runAct (a := nextPc g t) hs
  have hs2 := ok_runAct (a := threadFault g t code mstat pc addr) hs1
  have hw : Within (2 ^ 0 + 2 ^ 18 + 2 ^ 19 + 2 ^ 53)
      (seq [nextPc g t, threadFault g t code mstat pc addr, inc64 (CORE_ISSUE g) 1] s) :=
    wSeq ((w_nextPc ..).mono (by decide)) fun _ => wSeq ((w_threadFault ..).mono (by decide)) fun _ =>
      wSeq ((w_countIssue ..).mono (by decide)) fun _ => wSeqNil
  have hframe := frame_runAct hw
  simp only [runAct_seq_cons, runAct_seq_nil] at hframe
  refine ⟨?_, ?_, ?_, hframe⟩
  · have hne : CORE_FAULT_CNT g ∉ [CORE_ISSUE g, CORE_ISSUE g + 4] := by
      simp only [CORE_FAULT_CNT, CORE_ISSUE, CORE_ISSUE_LO, List.mem_cons, List.not_mem_nil, or_false]
      omega
    rw [touches_inc64 _ _ _ hs2 _ hne, threadFault_counts hs1, nextPc,
      rd_runAct_of_within (w_setThr ..) (by decide) (by decide)]
  · rw [cores_runAct_of_within (w_countIssue ..) (by decide), threadFault_stops hs1,
      cores_runAct_of_within (w_nextPc ..) (by decide)]
  · exact (same_faultMsgs (w_countIssue ..) (by decide) _).trans ((threadFault_sends ..).trans
      (congrArg (· ++ [(g, code)]) (same_faultMsgs (w_nextPc g t s) (by decide) s)))

/-! ### HALT (R107, R130) -/

/-- What HALT does once it issues. -/
def haltBody (g t : Nat) : Act := fun s =>
  if (thr s g t).err ≠ none then raisePending g t s
  else seq [setThr g t (fun _ => {}), fun s => setF (CORE_STAT_THREADS g) (getF s (CORE_STAT_THREADS g) - 1) s] s

theorem exec_halt {s : State} {g t : Nat} (h : issuable s g t [] []) :
    exec (.halt g t) s = .next (runAct (inc64 (CORE_ISSUE g) 1) (runAct (haltBody g t) (runAct (nextPc g t) s))) :=
  exec_issued h _

theorem haltBody_err {s : State} {g t : Nat} {e : PendErr} (h : (thr s g t).err = some e) :
    haltBody g t s = threadFault g t 6 e.status e.pc e.addr s := by
  unfold haltBody raisePending
  simp only [h]
  exact if_pos (by simp)

theorem runAct_haltBody_ends {s : State} {g t : Nat} (h : (thr s g t).err = none) : runAct (haltBody g t) s =
    runAct (setF (CORE_STAT_THREADS g) (getF s (CORE_STAT_THREADS g) - 1)) (runAct (setThr g t (fun _ => {})) s) := by
  have hrun : haltBody g t s = seq [setThr g t (fun _ => {}),
      fun s => setF (CORE_STAT_THREADS g) (getF s (CORE_STAT_THREADS g) - 1) s] s := by
    unfold haltBody
    exact if_neg (not_not.2 h)
  rw [runAct_eq hrun, runAct_seq_cons, runAct_seq_cons, runAct_seq_nil,
    runAct_reading (fun s => setF (CORE_STAT_THREADS g) (getF s (CORE_STAT_THREADS g) - 1)), getF_setThr]

theorem halt_ends {s : State} (hs : s.ok = true) {g t : Nat} (h : issuable s g t [] []) (herr : (thr s g t).err = none) :
    ∃ u, exec (.halt g t) s = .next u ∧ thr u g t = {} ∧ (∀ k, k ≠ tkey g t → get_threads u k = get_threads s k) ∧
      fieldSet (CORE_STAT_THREADS g) (getF s (CORE_STAT_THREADS g) - 1) s u ∧
      regsExcept [CORE_ISSUE g, CORE_ISSUE g + 4, CORE_STAT g] s u ∧ u = { s with regs := u.regs, threads := u.threads } := by
  have hs1 := ok_runAct (a := nextPc g t) hs
  have herr1 : (thr (runAct (nextPc g t) s) g t).err = none := by
    rw [nextPc, thr_setThr hs]
    exact herr
  have hexec := exec_halt h
  rw [runAct_haltBody_ends herr1, nextPc, getF_setThr] at hexec
  have w : Within (2 ^ 18) (seq [nextPc g t, setThr g t (fun _ => {})] s) :=
    wSeq (w_nextPc ..) fun _ => wSeq ((w_setThr ..).mono (by decide)) fun _ => wSeqNil
  obtain ⟨hthreads, hshown, hregs, hframe⟩ := steppedShown hs w g (getF s (CORE_STAT_THREADS g) - 1)
  simp only [runAct_seq_cons, runAct_seq_nil] at hthreads hshown hregs hframe
  refine ⟨_, hexec, (thr_congr hthreads g t).trans (thr_setThr hs1 ..), fun k hk => ?_, hshown, hregs, hframe⟩
  refine (get_threads_congr hthreads k).trans ?_
  rw [threads_setThr hs1, if_neg hk, nextPc, threads_setThr hs, if_neg hk]

theorem halt_faults {s : State} (hs : s.ok = true) {g t : Nat} {e : PendErr} (h : issuable s g t [] [])
    (herr : (thr s g t).err = some e) : ∃ u, exec (.halt g t) s = .next u ∧ threadFaults g 6 s u := by
  have herr1 : (thr (runAct (nextPc g t) s) g t).err = some e := by
    rw [nextPc, thr_setThr hs]
    exact herr
  have hexec := exec_halt h
  rw [runAct_eq (haltBody_err herr1)] at hexec
  exact ⟨_, hexec, threadFaults_issued hs ..⟩

/-- Settles O34: SPAWN writes the two threads and their number, or the 1 of a thread that runs; HALT ends its thread, or raises
its pending error as a thread fault. -/
theorem spawnAndHalt : Obligations.SpawnAndHalt := by
  unfold Obligations.SpawnAndHalt
  refine ⟨?_, ?_, ?_, ?_⟩
  · intro s g t t2 re ra d hs h ht2 hne hrun
    exact spawn_halted hs h ht2 hne hrun
  · intro s g t t2 re ra d hs h ht2 hrun
    exact spawn_running hs h ht2 hrun
  · intro s g t hs h herr
    exact halt_ends hs h herr
  · intro s g t e hs h herr
    exact halt_faults hs h herr

end Sys2Proof.Proofs
end
